-- ==== Sys2Proof/Word.lean ====
section
/-! DEFINITION. The word and byte types of the block (R7, R11): registers are 32 bits wide,
memory is bytes, and a picture component is a 12-bit value held as a number. -/
namespace Sys2Proof

/-- One byte of a memory or of a message. -/
abbrev Byte := BitVec 8

/-- One register word (R11). -/
abbrev Word := BitVec 32

/-- A pixel: three components, in the order of R89 (and of R373 for the composed picture). -/
structure Pix where
  c0 : Nat
  c1 : Nat
  c2 : Nat
  deriving DecidableEq, Repr, Inhabited

end Sys2Proof
end

