-- ==== Sys2Proof/Machine/Bytes.lean ====
section
/-! DEFINITION. Byte order and bit fields: little-endian values (R7), big-endian fields of published
standards (R8), two's complement (R9), and the CRCs whose parameters the spec states
(CRC-8 of R395, CRC-32 of R384, CRC-64 of R100). -/
namespace Sys2Proof

/-- Little-endian value of a byte list (R7). -/
def leNat : List Byte → Nat
  | [] => 0
  | b :: bs => b.toNat + 256 * leNat bs

/-- `n` little-endian bytes of `v` (R7). -/
def toLe : Nat → Nat → List Byte
  | 0, _ => []
  | n + 1, v => BitVec.ofNat 8 v :: toLe n (v / 256)

/-- Big-endian value of a byte list (R8). -/
def beNat (bs : List Byte) : Nat := bs.foldl (fun a b => a * 256 + b.toNat) 0

/-- `n` big-endian bytes of `v` (R8). -/
def toBe (n v : Nat) : List Byte := (toLe n v).reverse

/-- Bits `[lo + w - 1 : lo]` of a number (R6). -/
def bits (v lo w : Nat) : Nat := v / 2 ^ lo % 2 ^ w

/-- One bit of a number (R6). -/
def bit (v i : Nat) : Bool := v / 2 ^ i % 2 == 1

/-- The bit of a Bool as a number. -/
def b2n (b : Bool) : Nat := if b then 1 else 0

/-- A `w`-bit two's complement pattern as an integer (R9). -/
def sext (w v : Nat) : Int :=
  if v % 2 ^ w < 2 ^ (w - 1) then Int.ofNat (v % 2 ^ w) else Int.ofNat (v % 2 ^ w) - Int.ofNat (2 ^ w)

/-- The `w`-bit two's complement pattern of an integer (R9). -/
def unsext (w : Nat) (i : Int) : Nat := (i % Int.ofNat (2 ^ w)).toNat

/-- `n` bytes of `bs` from offset `o`, zero beyond the end. -/
def sliceB (bs : List Byte) (o n : Nat) : List Byte :=
  let r := (bs.drop o).take n
  r ++ List.replicate (n - r.length) 0

/-- The little-endian field of `n` bytes at offset `o`. -/
def leAt (bs : List Byte) (o n : Nat) : Nat := leNat (sliceB bs o n)

/-- The byte at offset `o`, zero beyond the end. -/
def byteAt (bs : List Byte) (o : Nat) : Nat := (bs.getD o 0).toNat

/-- Pad with zero bytes up to `n` bytes. -/
def padTo (n : Nat) (bs : List Byte) : List Byte := bs ++ List.replicate (n - bs.length) 0

/-- Round up to a multiple of `m`. -/
def roundUp (m n : Nat) : Nat := (n + m - 1) / m * m

/-- Ceiling division. -/
def ceilDiv (n m : Nat) : Nat := if m = 0 then 0 else (n + m - 1) / m

/-- ⌈log₂ n⌉ for n ≥ 1, 0 for 0. -/
def clog2 (n : Nat) : Nat := if n ≤ 1 then 0 else Nat.log2 (n - 1) + 1

/-- `int16`, `int32` clamps: `clamp lo hi x`. -/
def clampI (lo hi x : Int) : Int := if x < lo then lo else if hi < x then hi else x

/-- Clamp a number. -/
def clampN (lo hi x : Nat) : Nat := max lo (min hi x)

/-- Saturating addition in a field of width `w` (R19). -/
def satAdd (w a b : Nat) : Nat := min (2 ^ w - 1) (a + b)

/-! ### CRCs -/

/-- One step of an unreflected CRC of width `w`: shift in the top bit. -/
def crcStep (w poly c : Nat) : Nat :=
  let c2 := c * 2 % 2 ^ w
  if c / 2 ^ (w - 1) % 2 = 1 then c2 ^^^ poly else c2

/-- `n` steps. -/
def crcSteps (w poly : Nat) : Nat → Nat → Nat
  | 0, c => c
  | n + 1, c => crcSteps w poly n (crcStep w poly c)

/-- Unreflected CRC of width `w ≥ 8` over bytes, initial value zero and no final XOR. -/
def crcMsb (w poly : Nat) (bs : List Byte) : Nat :=
  bs.foldl (fun c b => crcSteps w poly 8 (c ^^^ (b.toNat * 2 ^ (w - 8)))) 0

/-- CRC-8 of R395: polynomial 0x07. -/
def crc8 (bs : List Byte) : Nat := crcMsb 8 0x07 bs

/-- CRC-64 of R100: ECMA-182 polynomial, initial value zero, no reflection, no final XOR. -/
def crc64 (bs : List Byte) : Nat := crcMsb 64 0x42F0E1EBA9EA3693 bs

/-- One step of the reflected CRC-32 (polynomial 0x04C1_1DB7 reflected). -/
def crc32Step (c : Nat) : Nat := if c % 2 = 1 then (c / 2) ^^^ 0xEDB88320 else c / 2

/-- `n` steps of the reflected CRC-32. -/
def crc32Steps : Nat → Nat → Nat
  | 0, c => c
  | n + 1, c => crc32Steps n (crc32Step c)

/-- The CRC-32 register run over bytes, without the final XOR. -/
def crc32Run (c : Nat) (bs : List Byte) : Nat :=
  bs.foldl (fun c b => crc32Steps 8 (c ^^^ b.toNat)) c

/-- CRC-32 of R384: reflected, initial value and final XOR all ones. -/
def crc32 (bs : List Byte) : Nat := crc32Run 0xFFFFFFFF bs ^^^ 0xFFFFFFFF

end Sys2Proof
end

