-- ==== Sys2Proof/Machine/Exact.lean ====
section
/-! DEFINITION. Exact fractions and the narrow formats of chapter 04: rounding to nearest with ties
away from zero (R111), IEEE 754 binary16 (R110, R112), E5M3 row scales (R109). -/
namespace Sys2Proof

/-- An exact value `num / den`; every denominator built here is positive. -/
structure Frac where
  num : Int
  den : Nat
  deriving DecidableEq, Repr

/-- An integer as an exact value. -/
def Frac.ofInt (i : Int) : Frac := ⟨i, 1⟩
/-- Zero. -/
def Frac.zero : Frac := ⟨0, 1⟩
/-- Exact sum. -/
def Frac.add (a b : Frac) : Frac := ⟨a.num * Int.ofNat b.den + b.num * Int.ofNat a.den, a.den * b.den⟩
/-- Exact negation. -/
def Frac.neg (a : Frac) : Frac := ⟨-a.num, a.den⟩
/-- Exact difference. -/
def Frac.sub (a b : Frac) : Frac := a.add b.neg
/-- Exact product. -/
def Frac.mul (a b : Frac) : Frac := ⟨a.num * b.num, a.den * b.den⟩
/-- Exact quotient; zero where the divisor is zero (callers that can meet a zero divisor test it). -/
def Frac.div (a b : Frac) : Frac :=
  if b.num = 0 then Frac.zero
  else if b.num < 0 then ⟨-(a.num * Int.ofNat b.den), a.den * b.num.natAbs⟩
  else ⟨a.num * Int.ofNat b.den, a.den * b.num.natAbs⟩
/-- Magnitude. -/
def Frac.abs (a : Frac) : Frac := ⟨Int.ofNat a.num.natAbs, a.den⟩
/-- Exact comparison. -/
def Frac.lt (a b : Frac) : Bool := decide (a.num * Int.ofNat b.den < b.num * Int.ofNat a.den)
/-- Exact comparison. -/
def Frac.le (a b : Frac) : Bool := decide (a.num * Int.ofNat b.den ≤ b.num * Int.ofNat a.den)
/-- Exact equality of values. -/
def Frac.eq (a b : Frac) : Bool := decide (a.num * Int.ofNat b.den = b.num * Int.ofNat a.den)
/-- Multiply by a power of two. -/
def Frac.scale2 (a : Frac) (e : Int) : Frac :=
  if e < 0 then ⟨a.num, a.den * 2 ^ e.natAbs⟩ else ⟨a.num * Int.ofNat (2 ^ e.natAbs), a.den⟩
/-- Floor. -/
def Frac.floor (a : Frac) : Int := a.num.fdiv (Int.ofNat a.den)
/-- Ceiling. -/
def Frac.ceil (a : Frac) : Int := -((-a.num).fdiv (Int.ofNat a.den))

/-- floor(|n|/d + 1/2) with the sign of n: rounding under R111 onto the integers. -/
def roundDiv (n : Int) (d : Nat) : Int :=
  let q := Int.ofNat ((2 * n.natAbs + d) / (2 * d))
  if n < 0 then -q else q

/-- Round an exact value to an integer under R111. -/
def Frac.round (a : Frac) : Int := roundDiv a.num a.den

/-! ### binary16 (R110, R112) -/

/-- The value of a binary16 pattern as the device reads it (R110): infinities read ±65 504, NaNs
and negative zero +0. -/
def f16Val (h : Nat) : Frac :=
  let e := bits h 10 5
  let m := bits h 0 10
  let mag : Frac :=
    if e = 31 then (if m = 0 then ⟨65504, 1⟩ else Frac.zero)
    else if e = 0 then ⟨Int.ofNat m, 2 ^ 24⟩
    else if e ≤ 25 then ⟨Int.ofNat (1024 + m), 2 ^ (25 - e)⟩
    else ⟨Int.ofNat ((1024 + m) * 2 ^ (e - 25)), 1⟩
  if bit h 15 then mag.neg else mag

/-- 1 when the pattern is an infinity or a NaN: the read that counts in BAD_ESC (R110). -/
def f16Bad (h : Nat) : Nat := if bits h 10 5 = 31 then 1 else 0

/-- The pattern as the device reads it: no infinity, no NaN, no negative zero (R110). -/
def f16Clean (h : Nat) : Nat :=
  if bits h 10 5 = 31 then
    (if bits h 0 10 = 0 then (if bit h 15 then 0xFBFF else 0x7BFF) else 0)
  else if h % 2 ^ 16 = 0x8000 then 0 else h % 2 ^ 16

/-- Magnitude bits of the binary16 nearest to `x ≥ 0`, ties away, before saturation. -/
def f16Mag (x : Frac) : Nat :=
  let q := x.num.natAbs * 2 ^ 24 / x.den
  let k := if q = 0 then 0 else Nat.log2 q
  let s := k - 10
  let n := (roundDiv (Int.ofNat (x.num.natAbs * 2 ^ 24)) (x.den * 2 ^ s)).natAbs
  s * 1024 + n

/-- binary16(x): rounded once under R111 and R112. The second component is 1 when it saturated. -/
def toF16 (x : Frac) : Nat × Nat :=
  let m := f16Mag x
  let sat := if 0x7C00 ≤ m then 1 else 0
  let m' := if sat = 1 then 0x7BFF else m
  (if x.num < 0 ∧ m' ≠ 0 then 0x8000 + m' else m', sat)

/-- binary16(x) alone. -/
def f16Of (x : Frac) : Nat := (toF16 x).1

/-- A value rounded to binary16 and read back (R111, R112). -/
def asF16 (x : Frac) : Frac := f16Val (f16Of x)

/-! ### E5M3 (R109) -/

/-- The value of an E5M3 code; the reserved codes and CONSTANT have none and give zero here. -/
def e5m3Val (c : Nat) : Frac :=
  let e := bits c 3 5
  let m := bits c 0 3
  if e = 31 then Frac.zero
  else if e = 0 then ⟨Int.ofNat m, 2 ^ 17⟩
  else if e ≤ 18 then ⟨Int.ofNat (8 + m), 2 ^ (18 - e)⟩
  else ⟨Int.ofNat ((8 + m) * 2 ^ (e - 18)), 1⟩

/-- E5M3 nearest to `x ≥ 0`, ties away from zero, codes 0x00 to 0xF7 (R131, R132). The second
component is 1 when x exceeds 61 440 (SCALE_SAT). -/
def toE5m3 (x : Frac) : Nat × Nat :=
  let q := x.num.natAbs * 2 ^ 17 / x.den
  let k := if q = 0 then 0 else Nat.log2 q
  let s := k - 3
  let n := (roundDiv (Int.ofNat (x.num.natAbs * 2 ^ 17)) (x.den * 2 ^ s)).natAbs
  let c := s * 8 + n
  (min c 0xF7, if Frac.lt ⟨61440, 1⟩ x then 1 else 0)

/-- The integer square root test: the greatest n with n² ≤ a. -/
def isqrtAux (a : Nat) : Nat → Nat → Nat
  | 0, r => r
  | k + 1, r => let t := r + 2 ^ k; isqrtAux a k (if t * t ≤ a then t else r)

/-- floor(√a). -/
def isqrt (a : Nat) : Nat := isqrtAux a (Nat.log2 (a + 1) / 2 + 1) 0

/-- binary16(√x) for x ≥ 0, exact before rounding (R348): the nearest pattern n with
(2n−1)² ≤ 4x·scale², ties away. Values up to 65 504 have roots below 256. -/
def sqrtF16 (x : Frac) : Nat :=
  -- root in units of 2^-24 is below 2^32; r = floor(sqrt x * 2^24)
  let r := isqrt (x.num.natAbs * 2 ^ 48 / x.den)
  let k := if r = 0 then 0 else Nat.log2 r
  let s := k - 10
  -- n = floor(sqrt x * 2^24 / 2^s + 1/2) = floor(sqrt(4x*2^48/2^(2s)) + 1) / 2
  let t := isqrt (4 * x.num.natAbs * 2 ^ 48 / (x.den * 2 ^ (2 * s)))
  s * 1024 + (t + 1) / 2

end Sys2Proof
end

