-- ==== Sys2Proof/Machine/Arith.lean ====
section
/-! DEFINITION. The narrow arithmetic of chapter 04: codebooks (R106 to R108), activation rows
(R113 to R116), product tables and corrections (R118 to R121), accumulation and reduction (R122, R123)
and the requantiser (R124 to R132), with the events that each operation counts (R134). Every function
depends only on its operands (R133). -/
namespace Sys2Proof

/-- Events of R134, counted by one operation. -/
structure Cnt where
  cell : Nat := 0
  prod : Nat := 0
  sum : Nat := 0
  stage : Nat := 0
  scale : Nat := 0
  badEsc : Nat := 0
  rsv : Nat := 0
  const : Nat := 0
  esc : Nat := 0
  deriving DecidableEq, Repr, Inhabited

/-- Both operations' events. -/
def Cnt.add (a b : Cnt) : Cnt :=
  ⟨a.cell + b.cell, a.prod + b.prod, a.sum + b.sum, a.stage + b.stage, a.scale + b.scale,
   a.badEsc + b.badEsc, a.rsv + b.rsv, a.const + b.const, a.esc + b.esc⟩

/-- No event. -/
def Cnt.none : Cnt := {}
/-- All events of a list of operations. -/
def Cnt.all (l : List Cnt) : Cnt := l.foldl Cnt.add {}

/-- A codebook (R106): whether it has 256 entries, its exponent, its entries. -/
structure Codebook where
  big : Bool
  x : Int
  c : List Int
  deriving DecidableEq, Repr, Inhabited

/-- The codebook record's bytes (R107). -/
def Codebook.parse (b : List Byte) : Codebook :=
  let big := leAt b 0 1 == 1
  ⟨big, sext 8 (leAt b 1 1), (List.range (if big then 256 else 16)).map fun i => sext 16 (leAt b (8 + 2 * i) 2)⟩

/-- Number of entries. -/
def Codebook.k (cb : Codebook) : Nat := if cb.big then 256 else 16
/-- The escape code: the highest code (R106). -/
def Codebook.escCode (cb : Codebook) : Nat := cb.k - 1
/-- The value of entry i: c_i × 2^X (R106). -/
def Codebook.val (cb : Codebook) (i : Nat) : Frac := (Frac.ofInt (cb.c.getD i 0)).scale2 cb.x
/-- A_max: the largest |c_i| × 2^X among the non-escape entries (R108). -/
def Codebook.aMax (cb : Codebook) : Frac :=
  (Frac.ofInt (Int.ofNat ((cb.c.take (cb.k - 1)).foldl (fun a c => max a c.natAbs) 0))).scale2 cb.x
/-- R108: SIZE is 0 or 1 and some non-escape entry is non-zero. The reserved bytes of R107 are zero: DESIGN CHOICE (log entry 93), as R108 names
no such refusal. -/
def Codebook.ok (b : List Byte) : Bool :=
  let cb := Codebook.parse b
  decide (leAt b 0 1 ≤ 1) && decide (leNat (sliceB b 2 6) = 0) &&
  (cb.c.take (cb.k - 1)).any fun c => decide (c ≠ 0)

/-- A quantised row: its codes, its tag (R115) and its eight side slots (R114). -/
structure QRow where
  codes : List Nat
  tag : Nat
  side : List Nat
  deriving DecidableEq, Repr, Inhabited

/-- SCALE of the tag (R115). -/
def QRow.scale (r : QRow) : Nat := bits r.tag 0 8
/-- COUNT of the tag; values 9 to 15 read as 8 (R115). -/
def QRow.count (r : QRow) : Nat := min 8 (bits r.tag 8 4)

/-- A binary16 pattern read from memory: its value, with BAD_ESC for an infinity or NaN (R110). -/
def readF16 (h : Nat) : Frac × Cnt := (f16Val h, { badEsc := f16Bad h })

/-- The value of element j of a row (R116). -/
def QRow.elem (cb : Codebook) (r : QRow) (j : Nat) : Frac × Cnt :=
  let code := r.codes.getD j 0
  if r.scale = 0xFF then readF16 (r.side.getD 0 0)
  else if code = cb.escCode then
    let o := ((r.codes.take j).filter fun c => c == cb.escCode).length
    if r.count ≤ o then (Frac.zero, { badEsc := 1 }) else readF16 (r.side.getD o 0)
  else if r.scale = 0 then (Frac.zero, {})
  else if 0xF8 ≤ r.scale then (Frac.zero, { rsv := 1 })
  else ((e5m3Val r.scale).mul (cb.val code), {})

/-- A product rounded to a multiple of 2^Q and saturated to int16 (R119 steps 2 to 4). -/
def product (v w : Frac) (q : Int) : Int × Nat :=
  let p := ((v.mul w).scale2 (-q)).round
  let s := clampI (-32768) 32767 p
  (s, if s = p then 0 else 1)

/-- The product table of one element (R119): P[escape] = 0. -/
def productTable (cb : Codebook) (q : Int) (v : Frac) : List Int × Cnt :=
  if v.num = 0 then (List.replicate cb.k 0, {})
  else
    let ps := (List.range cb.k).map fun i =>
      if i = cb.escCode then ((0 : Int), 0) else product v (cb.val i) q
    (ps.map (·.1), { prod := (ps.map (·.2)).foldl (· + ·) 0 })

/-- Saturating addition to a signed width (R122, R121, R124, R127). -/
def satAddI (w : Nat) (a b : Int) : Int × Nat :=
  let s := a + b
  let c := clampI (-(2 ^ (w - 1))) (2 ^ (w - 1) - 1) s
  (c, if c = s then 0 else 1)

/-- One array row of a step: 64 cells each add the product their weight code selects (R119, R122).
`active` is R181's mask. -/
def rowAdd (tbl : List Int) (active : Nat → Bool) : Nat → List Nat → List Int → List Int × Nat
  | c, w :: ws, a :: as =>
    let r := rowAdd tbl active (c + 1) ws as
    let s := if active c then satAddI 26 a (tbl.getD w 0) else (a, 0)
    (s.1 :: r.1, s.2 + r.2)
  | _, _, _ => ([], 0)

/-- An escape-list entry (R118). -/
structure EscEntry where
  value : Nat
  row : Nat
  col : Nat
  deriving DecidableEq, Repr, Inhabited

/-- The escape-list word of R118. -/
def EscEntry.parse (w : Nat) : EscEntry := ⟨bits w 0 16, bits w 16 6, bits w 22 6⟩

/-- One correction (R121): lane `e.col` adds v_ROW × VALUE, rounded and saturated as a product. -/
def correct (vals : List Frac) (q : Int) (lanes : List Int) (e : EscEntry) : List Int × Cnt :=
  let w := readF16 e.value
  let p := product (vals.getD e.row Frac.zero) w.1 q
  let s := satAddI 32 (lanes.getD e.col 0) p.1
  (lanes.set e.col s.1, { prod := p.2, sum := s.2, badEsc := w.2.badEsc })

/-- The corrections of one activation vector, in list order (ascending COL, then ROW: R118, R121). -/
def corrections (vals : List Frac) (q : Int) : List EscEntry → List Int → List Int × Cnt
  | [], lanes => (lanes, {})
  | e :: es, lanes =>
    let a := correct vals q lanes e
    let b := corrections vals q es a.1
    (b.1, a.2.add b.2)

/-- The step's cycles (R143). -/
def stepCycles (big : Bool) (e : Nat) : Nat := (if big then 4 else 1) * max 1 ((e + 1) / 2)

/-- The largest count of escaped weights in any column (R121). -/
def maxEscPerCol (l : List EscEntry) : Nat :=
  (List.range 64).foldl (fun m c => max m (l.filter fun e => e.col == c).length) 0

/-- The column sum (R123): both sectors of a column, upper first; neither tree can overflow. -/
def columnSum (acc : List Int) (c : Nat) : Int :=
  ((List.range 32).map fun r => acc.getD (64 * r + c) 0).foldl (· + ·) 0 +
  ((List.range 32).map fun r => acc.getD (64 * (r + 32) + c) 0).foldl (· + ·) 0

/-- The column total t (R124). -/
def columnTotal (colSum corr : Int) (psum : Option Int) : Int × Cnt :=
  let u := satAddI 32 colSum corr
  match psum with
  | none => (u.1, { sum := u.2 })
  | some p => let t := satAddI 32 u.1 p; (t.1, { sum := u.2 + t.2 })

/-- The staging value (R127). `gain` is a binary16 pattern read from memory. -/
def staging (t bias : Int) (q : Int) (gain : Nat) : Nat × Cnt :=
  let b := satAddI 32 t bias
  let g := readF16 gain
  let h := toF16 (((Frac.ofInt b.1).scale2 q).mul g.1)
  (h.1, { sum := b.2, stage := h.2, badEsc := g.2.badEsc })

/-- The activation function (R128) on a binary16 pattern; LO and HI are read under R110. -/
def activation (act leakK lo hi h : Nat) : Nat :=
  let v := f16Val h
  if act = 1 then (if v.num < 0 then 0 else h)
  else if act = 2 then
    let l := f16Clean lo
    let u := f16Clean hi
    let a := if v.lt (f16Val l) then l else h
    if (f16Val u).lt (f16Val a) then u else a
  else if act = 3 then (if v.num < 0 then f16Of (v.scale2 (-(leakK : Int))) else h)
  else h

/-- The greatest of a list of binary16 patterns (R129). -/
def f16Max (l : List Nat) : Nat :=
  match l with
  | [] => 0
  | a :: t => t.foldl (fun m h => if (f16Val m).lt (f16Val h) then h else m) a

/-- The average of a window, rounded once (R129). -/
def f16Avg (l : List Nat) : Nat :=
  f16Of ((l.foldl (fun s h => s.add (f16Val h)) Frac.zero).div (Frac.ofInt l.length))

/-- Pooling of one window (R129): 1 maximum, 2 average. -/
def poolWindow (pool : Nat) (l : List Nat) : Nat := if pool = 1 then f16Max l else f16Avg l

/-- |h| of a binary16 pattern. -/
def f16Abs (h : Nat) : Frac := (f16Val h).abs

/-- The greatest of a list of magnitudes, zero when empty. -/
def fracMax (l : List Frac) : Frac := l.foldl (fun m x => if m.lt x then x else m) Frac.zero

/-- The k indices of largest |h|, ties to the lower index (R131). -/
def candidates (h : List Nat) : Nat → List Nat → List Nat
  | 0, cand => cand
  | k + 1, cand =>
    let rest := (List.range h.length).filter fun j => !cand.contains j
    match rest with
    | [] => cand
    | j0 :: js =>
      let b := js.foldl (fun b j => if (f16Abs (h.getD b 0)).lt (f16Abs (h.getD j 0)) then j else b) j0
      candidates h k (cand ++ [b])

/-- The code of the nearest level, ties to the greater |v_i|, then to the lower i (R131). -/
def nearestCode (cb : Codebook) (scale : Nat) (h : Nat) : Nat :=
  let s := e5m3Val scale
  let x := f16Val h
  let dist (i : Nat) := (x.sub (s.mul (cb.val i))).abs
  (List.range (cb.k - 1)).foldl (fun b i =>
    if (dist i).lt (dist b) then i
    else if (dist b).lt (dist i) then b
    else if (cb.val b).abs.lt (cb.val i).abs then i else b) 0

/-- Row quantisation (R131, R132). -/
def quantise (cb : Codebook) (kOut rOut : Nat) (h : List Nat) : QRow × Cnt :=
  match h with
  | [] => (⟨[], 0, List.replicate 8 0⟩, {})
  | h0 :: t =>
    if t.all fun x => x == h0 then
      (⟨List.replicate h.length 0, 0xFF + 0x100, h0 :: List.replicate 7 0⟩, { const := 1 })
    else
      let cand := candidates h kOut []
      let m := fracMax (((List.range h.length).filter fun j => !cand.contains j).map fun j => f16Abs (h.getD j 0))
      let thr := m.scale2 rOut
      let esc := (List.range h.length).filter fun j => cand.contains j && thr.lt (f16Abs (h.getD j 0))
      let mx := fracMax (((List.range h.length).filter fun j => !esc.contains j).map fun j => f16Abs (h.getD j 0))
      let sc := toE5m3 (mx.div cb.aMax)
      let codes := (List.range h.length).map fun j =>
        if esc.contains j then cb.escCode else if sc.1 = 0 then 0 else nearestCode cb sc.1 (h.getD j 0)
      let side := esc.map fun j => h.getD j 0
      (⟨codes, sc.1 + 0x100 * side.length, side ++ List.replicate (8 - side.length) 0⟩,
        { scale := sc.2, esc := if side.length = 0 then 0 else 1 })

/-! ### Code planes and zero compression -/

/-- Codes packed under R114: two to a byte for four-bit codes, one byte each for eight-bit codes. -/
def packCodes (big : Bool) : List Nat → List Byte
  | [] => []
  | [a] => [BitVec.ofNat 8 a]
  | a :: b :: t =>
    if big then BitVec.ofNat 8 a :: packCodes big (b :: t)
    else BitVec.ofNat 8 (a % 16 + 16 * (b % 16)) :: packCodes big t

/-- `n` codes unpacked from bytes (R114). -/
def unpackCodes (big : Bool) (n : Nat) (bs : List Byte) : List Nat :=
  (List.range n).map fun j => if big then byteAt bs j else bits (byteAt bs (j / 2)) (4 * (j % 2)) 4

/-- A compressed row (R195): bitmap, packed non-zero codes, padding to eight bytes. -/
def zcRow (big : Bool) (codes : List Nat) : List Byte :=
  let bm := (List.range codes.length).foldl (fun a j => if codes.getD j 0 = 0 then a else a + 2 ^ j) 0
  let p := packCodes big (codes.filter fun c => decide (c ≠ 0))
  toLe 8 bm ++ padTo (roundUp 8 p.length) p

/-- Spread packed codes over the set bits of a bitmap. -/
def zcSpread (bm : Nat) : Nat → Nat → List Nat → List Nat
  | _, 0, _ => []
  | j, n + 1, cs =>
    if bit bm j then cs.headD 0 :: zcSpread bm (j + 1) n cs.tail else 0 :: zcSpread bm (j + 1) n cs

/-- The decompressor (R195, R196): the codes of a compressed row of `len` 8-byte units, and whether
ZC_ERR counts. -/
def unzcRow (big : Bool) (n len : Nat) (bs : List Byte) : List Nat × Bool :=
  let bm := leAt bs 0 8
  let cnt := ((List.range 64).filter fun j => bit bm j).length
  let need := 8 + (if big then cnt else (cnt + 1) / 2)
  if 2 ^ n ≤ bm ∨ len * 8 < need then (List.replicate n 0, true)
  else (zcSpread bm 0 n (unpackCodes big cnt (bs.drop 8)), false)

/-- LEN of a row: its compressed length in 8-byte units (R194). -/
def zcLen (big : Bool) (codes : List Nat) : Nat := (zcRow big codes).length / 8

/-! ### Prefix and Suffix output stages -/

/-- A staging value as a 12-bit component (R155). -/
def stageToComp (h : Nat) : Nat := (clampI 0 4095 (((f16Val h).scale2 12).round)).toNat

/-- Output-format conversion (R157): matrix M (row-major, nine entries) and offsets O. -/
def outConvert (m o : List Int) (p : Pix) : Pix :=
  let c : Nat → Int := fun i =>
    m.getD (3 * i) 0 * p.c0 + m.getD (3 * i + 1) 0 * p.c1 + m.getD (3 * i + 2) 0 * p.c2 + 4096 * o.getD i 0
  let f : Nat → Nat := fun i => (clampI 0 4095 (roundDiv (c i) 4096)).toNat
  ⟨f 0, f 1, f 2⟩

/-- The histogram key of a staging value (R135). -/
def f16Key (h : Nat) : Int := if bit h 15 then -((h % 0x8000 : Nat) : Int) else h

/-- The histogram bin of a key (R135). -/
def histBin (key lo : Int) (shift : Nat) : Nat := (clampI 0 63 (Int.fdiv (key - lo) (2 ^ shift))).toNat

end Sys2Proof
end

