-- ==== Sys2Proof/Machine/Program.lean ====
section
/-! DEFINITION. The compiled program as chapter 10 describes it (R284): mode records, almanac entries
and clause descriptors, read from the bytes that the spec lays out. Each record keeps the exact fields
of its table; `parse` reads them from the record's bytes, and `reservedOk` says that its reserved
fields hold what the table gives them. -/
namespace Sys2Proof

/-- A mode record (R285). -/
structure Mode where
  id : Nat
  nb : Nat
  w : Nat
  vActive : Nat
  vtNom : Nat
  vtMin : Nat
  vtMax : Nat
  lp : Nat
  seamH : Nat
  buckets : Nat
  sched : List Nat
  deriving DecidableEq, Repr, Inhabited

/-- The fields of a 32-byte mode record (R285). -/
def Mode.parse (b : List Byte) : Mode where
  id := leAt b 0 1
  nb := leAt b 1 1
  w := leAt b 2 2
  vActive := leAt b 4 2
  vtNom := leAt b 6 2
  vtMin := leAt b 8 2
  vtMax := leAt b 10 2
  lp := leAt b 12 4
  seamH := leAt b 16 1
  buckets := leAt b 17 1
  sched := (List.range 5).map fun n => leAt b (18 + n) 1

/-- Check 1 reason 1 of R291 for one mode record: reserved or out-of-range fields (R285). -/
def Mode.fieldsOk (b : List Byte) : Bool :=
  let m := Mode.parse b
  decide (m.id ≤ 7) && decide (m.nb ≤ 1) && decide (m.buckets < 32) && decide (m.w ≠ 0) &&
  ((List.range 5).all fun n =>
    let x := m.sched.getD n 0
    if bit m.buckets n then decide (x ≤ 39) else decide (x = 0xFF)) &&
  decide (leNat (sliceB b 23 9) = 0)

/-- The logical cores that take part in a mode (R27, NB of R285). -/
def Mode.nCores (m : Mode) : Nat := if m.nb = 0 then 64 else 32
/-- The bands that take part in a mode. -/
def Mode.nBands (m : Mode) : Nat := if m.nb = 0 then 8 else 4

/-- An almanac entry (R47). -/
structure AlmEntry where
  lineFirst : Nat
  lineLast : Nat
  base : Nat
  kind : Nat
  phase : Nat
  bands : Nat
  cores : Nat
  lead : Int
  arg : Nat
  deriving DecidableEq, Repr, Inhabited

/-- The fields of a 16-byte almanac entry (R47). -/
def AlmEntry.parse (b : List Byte) : AlmEntry where
  lineFirst := leAt b 0 2
  lineLast := leAt b 2 2
  base := leAt b 4 1
  kind := leAt b 5 1
  phase := leAt b 6 2 % 4096
  bands := leAt b 8 1
  cores := leAt b 9 1
  lead := sext 16 (leAt b 10 2)
  arg := leAt b 12 4

/-- The lines an entry names in a frame of `vTotal` lines (R49). -/
def AlmEntry.first (e : AlmEntry) (vTotal : Nat) : Int :=
  if e.base = 0 then e.lineFirst else (vTotal : Int) - e.lineFirst
/-- The last line an entry names in a frame of `vTotal` lines (R49). -/
def AlmEntry.last (e : AlmEntry) (vTotal : Nat) : Int :=
  if e.lineLast = 0xFFFF then (vTotal : Int) - 1
  else if e.base = 0 then e.lineLast else (vTotal : Int) - e.lineLast

/-- An entry names line `x` of a frame of `vTotal` lines (R49). -/
def AlmEntry.names (e : AlmEntry) (vTotal x : Nat) : Bool :=
  decide (e.first vTotal ≤ x) && decide ((x : Int) ≤ e.last vTotal) && decide (x < vTotal)

/-- A clause descriptor (R286). -/
structure ClauseDesc where
  id : Nat
  frame : Bool
  threaded : Bool
  firstLayer : Nat
  layerCount : Nat
  warmup : Nat
  reach : Nat
  plan : Nat
  schedOff : Nat
  schedLen : Nat
  stripeU : Nat
  due : Nat
  h : Nat
  outs : Nat
  pairs : List (Nat × Nat)
  barriers : Nat
  deriving DecidableEq, Repr, Inhabited

/-- The fields of a 32-byte clause descriptor (R286). -/
def ClauseDesc.parse (b : List Byte) : ClauseDesc where
  id := leAt b 0 1
  frame := bit (leAt b 1 1) 0
  threaded := bit (leAt b 1 1) 1
  firstLayer := leAt b 2 1
  layerCount := leAt b 3 1
  warmup := leAt b 4 1
  reach := leAt b 5 1
  plan := leAt b 6 2
  schedOff := leAt b 8 4
  schedLen := leAt b 12 4
  stripeU := leAt b 16 1
  due := leAt b 17 1
  h := leAt b 18 2
  outs := leAt b 20 1
  pairs := (List.range 4).map fun j => (leAt b (21 + 2 * j) 1, leAt b (22 + 2 * j) 1)
  barriers := leAt b 29 1

/-- Check 9 reason 5 of R291 for one clause descriptor: ranges and reserved fields (R286). -/
def ClauseDesc.fieldsOk (b : List Byte) : Bool :=
  let c := ClauseDesc.parse b
  decide (c.id ≤ 23) && decide (leAt b 1 1 < 4) && decide (1 ≤ c.layerCount) && decide (c.layerCount ≤ 64) &&
  decide (c.firstLayer + c.layerCount ≤ 256) &&
  (if c.frame then
     decide (c.warmup = 0) && decide (c.reach = 0) && decide (c.plan = 0) && decide (c.stripeU ≤ 6) &&
     decide (1 ≤ c.due) && decide (c.due ≤ 16) && decide (c.outs ≤ 4)
   else decide (1 ≤ c.warmup) && decide (c.warmup ≤ 64)) &&
  decide (leAt b 30 2 = 0)

end Sys2Proof

namespace Sys2Proof

/-- A layer descriptor (R151). `engine`: 0 array, 1 Prefix, 2 Suffix. -/
structure LayerDesc where
  layer : Nat
  engine : Nat
  inCb : Nat
  wCb : Nat
  outCb : Nat
  q : Int
  passIn : Bool
  act : Nat
  pool : Nat
  outFmt : Nat
  kOut : Nat
  rOut : Nat
  leakK : Nat
  tileFirst : Nat
  tileCount : Nat
  adapt : Bool
  shuf : Nat
  lo : Nat
  hi : Nat
  inCh : Nat
  outCh : Nat
  inPrn : Nat
  outPrn : Nat
  psumPrn : Nat
  chpPrn : Nat
  escBase : Nat
  escLen : Nat
  map : Nat
  deriving DecidableEq, Repr, Inhabited

/-- The fields of a 64-byte layer descriptor (R151). -/
def LayerDesc.parse (b : List Byte) : LayerDesc where
  layer := leAt b 0 1
  engine := leAt b 1 1
  inCb := leAt b 2 1
  wCb := leAt b 3 1
  outCb := leAt b 4 1
  q := sext 8 (leAt b 5 1)
  passIn := bit (leAt b 6 1) 0
  act := bits (leAt b 6 1) 1 2
  pool := bits (leAt b 6 1) 3 2
  outFmt := bits (leAt b 6 1) 5 2
  kOut := bits (leAt b 7 1) 0 4
  rOut := bits (leAt b 7 1) 4 3
  leakK := leAt b 8 1
  tileFirst := leAt b 9 1
  tileCount := leAt b 10 1
  adapt := bit (leAt b 11 1) 0
  shuf := bits (leAt b 11 1) 1 2
  lo := leAt b 12 2
  hi := leAt b 14 2
  inCh := leAt b 16 2
  outCh := leAt b 18 2
  inPrn := leAt b 20 1
  outPrn := leAt b 21 1
  psumPrn := leAt b 22 1
  chpPrn := leAt b 23 1
  escBase := leAt b 24 2
  escLen := leAt b 26 2
  map := leAt b 28 2

/-- The reserved bits and bytes of a layer descriptor hold zero (R151, R153). -/
def LayerDesc.reservedOk (b : List Byte) : Bool :=
  !bit (leAt b 6 1) 7 && !bit (leAt b 7 1) 7 && decide (leAt b 11 1 < 8) && decide (leNat (sliceB b 30 34) = 0)

/-- The shuffle factor s (R151, R156); 3 is reserved. -/
def LayerDesc.s (d : LayerDesc) : Nat := if d.shuf = 0 then 1 else if d.shuf = 1 then 2 else 4

/-- A mapping record (R174). -/
structure MapRec where
  kind : Nat
  kh : Nat
  kw : Nat
  sh : Nat
  sw : Nat
  dh : Nat
  dw : Nat
  padT : Nat
  padB : Nat
  padL : Nat
  padR : Nat
  fullKh : Nat
  fullKw : Nat
  tapY0 : Nat
  tapX0 : Nat
  glog : Nat
  mlog : Nat
  poolH : Nat
  poolW : Nat
  poolSh : Nat
  poolSw : Nat
  poolPrn : Nat
  dyn : Bool
  inZc : Bool
  outZc : Bool
  deriving DecidableEq, Repr, Inhabited

/-- The fields of a 32-byte mapping record (R174). -/
def MapRec.parse (b : List Byte) : MapRec where
  kind := leAt b 0 1
  kh := bits (leAt b 1 1) 0 4
  kw := bits (leAt b 1 1) 4 4
  sh := bits (leAt b 2 1) 0 4
  sw := bits (leAt b 2 1) 4 4
  dh := bits (leAt b 3 1) 0 4
  dw := bits (leAt b 3 1) 4 4
  padT := leAt b 4 1
  padB := leAt b 5 1
  padL := leAt b 6 1
  padR := leAt b 7 1
  fullKh := leAt b 8 1
  fullKw := leAt b 9 1
  tapY0 := leAt b 10 1
  tapX0 := leAt b 11 1
  glog := bits (leAt b 12 1) 0 3
  mlog := bits (leAt b 12 1) 3 2
  poolH := bits (leAt b 13 1) 0 4
  poolW := bits (leAt b 13 1) 4 4
  poolSh := bits (leAt b 14 1) 0 4
  poolSw := bits (leAt b 14 1) 4 4
  poolPrn := leAt b 15 1
  dyn := bit (leAt b 16 1) 0
  inZc := bit (leAt b 16 1) 1
  outZc := bit (leAt b 16 1) 2

/-- Reason 1 of R197: every field of the mapping record in range, reserved bytes zero. -/
def MapRec.fieldsOk (b : List Byte) (pooling : Bool) : Bool :=
  let m := MapRec.parse b
  let r (lo hi x : Nat) : Bool := decide (lo ≤ x) && decide (x ≤ hi)
  r 0 1 m.kind && r 1 7 m.kh && r 1 7 m.kw && r 1 8 m.sh && r 1 8 m.sw && r 1 8 m.dh && r 1 8 m.dw &&
  r 1 35 m.fullKh && r 1 35 m.fullKw &&
  (m.kind == 0 || (r 0 6 m.glog && r 0 2 m.mlog && decide (leAt b 12 1 < 32))) &&
  (!pooling || (r 1 4 m.poolH && r 1 4 m.poolW && r 1 4 m.poolSh && r 1 4 m.poolSw)) &&
  decide (leAt b 16 1 < 8) && decide (leNat (sliceB b 17 15) = 0)

/-- g_in of R174. -/
def MapRec.gIn (m : MapRec) : Nat := 2 ^ m.glog
/-- The multiplier m of R174. -/
def MapRec.mult (m : MapRec) : Nat := 2 ^ m.mlog
/-- g_out of R180. -/
def MapRec.gOut (m : MapRec) : Nat := m.mult * m.gIn

/-- The output extent of one axis (R185), floor towards minus infinity. -/
def outExtent (inp padLo padHi dil k stride : Nat) : Int :=
  Int.fdiv ((inp : Int) + padLo + padHi - dil * (k - 1 : Int) - 1) stride + 1

/-- The pooled extent of one axis (R185). -/
def poolExtent (out : Int) (size stride : Nat) : Int := Int.fdiv (out - size) stride + 1

/-- Output extents before pooling: lines, then columns (R185). -/
def MapRec.convExtent (m : MapRec) (h w : Nat) : Int × Int :=
  (outExtent h m.padT m.padB m.dh m.fullKh m.sh, outExtent w m.padL m.padR m.dw m.fullKw m.sw)

/-- Written extents (R185): pooled where POOL is not 0. -/
def MapRec.outExtents (m : MapRec) (pooling : Bool) (h w : Nat) : Int × Int :=
  let e := m.convExtent h w
  if pooling then (poolExtent e.1 m.poolH m.poolSh, poolExtent e.2 m.poolW m.poolSw) else e

/-- Input position read for output position (oy, ox) and tap (ty, tx) (R176): line, then column. -/
def MapRec.inPos (m : MapRec) (oy ox ty tx : Nat) : Int × Int :=
  ((oy * m.sh + (m.tapY0 + ty) * m.dh : Nat) - (m.padT : Int),
   (ox * m.sw + (m.tapX0 + tx) * m.dw : Nat) - (m.padL : Int))

/-- Weight-file entries per tile: 1 for a 16-entry W_CB, 2 for a 256-entry one (R117, R177). -/
def tileWidth (w256 : Bool) : Nat := if w256 then 2 else 1

/-- The weight-file entry a step uses (R177); `d` carries TILE_FIRST and the channel counts. -/
def stepEntry (d : LayerDesc) (m : MapRec) (w256 : Bool) (co ty tx ci : Nat) : Nat :=
  let t := ty * m.kw + tx
  let nci := ceilDiv d.inCh 64
  if m.kind = 0 then d.tileFirst + tileWidth w256 * ((co * m.kh * m.kw + t) * nci + ci)
  else d.tileFirst + tileWidth w256 * (co * m.kh * m.kw + t)

/-- The TILE_COUNT that R177 requires. -/
def tileCountOf (d : LayerDesc) (m : MapRec) (w256 : Bool) : Nat :=
  tileWidth w256 * m.kh * m.kw * ceilDiv d.outCh 64 * (if m.kind = 0 then ceilDiv d.inCh 64 else 1)

/-- The input chunk a step reads (R178, R180). -/
def stepChunk (m : MapRec) (co ci : Nat) : Nat := if m.kind = 0 then ci else co / m.mult

/-- The first element of the chunk that array row 0 receives, and how many rows receive elements
(R180); dense layers take the whole chunk. -/
def stepElems (m : MapRec) (co : Nat) : Nat × Nat :=
  if m.kind = 0 then (0, 64) else (co % m.mult * (64 / m.mult), 64 / m.mult)

/-- Cell (r, c) adds its product in this layer (R181). -/
def cellActive (m : MapRec) (r c : Nat) : Bool :=
  if m.kind = 0 then true else decide (r / m.gIn = c / m.gOut)

/-- The last iteration for (oy, ox, co) in the order of R178: the step carries LAST. -/
def stepLast (d : LayerDesc) (m : MapRec) (ty tx ci : Nat) : Bool :=
  decide (ty + 1 = m.kh) && decide (tx + 1 = m.kw) &&
  decide (ci + 1 = (if m.kind = 0 then ceilDiv d.inCh 64 else 1))

/-- Computed columns of a run: whole position tiles of eight (R178, R186). -/
def computedCols (wRun : Nat) : Nat := 8 * ceilDiv wRun 8

end Sys2Proof

namespace Sys2Proof

/-- A re-timing record (R309). -/
structure RtRec where
  lag : Nat
  mclause : Nat
  mpair : Nat
  bsLog : Nat
  warpPrn : Nat
  step : Nat
  xIn : List Nat
  deriving DecidableEq, Repr, Inhabited

/-- The fields of a 32-byte re-timing record (R309). -/
def RtRec.parse (b : List Byte) : RtRec where
  lag := leAt b 0 1
  mclause := leAt b 1 1
  mpair := leAt b 2 1
  bsLog := leAt b 3 1
  warpPrn := leAt b 4 1
  step := leAt b 8 4
  xIn := (List.range 8).map fun i => leAt b (12 + 2 * i) 2

/-- The ranges of R309's table and its live and re-timed conditions that concern the record alone. -/
def RtRec.fieldsOk (b : List Byte) : Bool :=
  let r := RtRec.parse b
  decide (r.lag ≤ 3) && decide (leNat (sliceB b 5 3) = 0) && decide (leNat (sliceB b 28 4) = 0) &&
  decide (0x1000 ≤ r.step) && decide (r.step ≤ 0x10000) && decide (r.mpair ≤ 3) && decide (2 ≤ r.bsLog) && decide (r.bsLog ≤ 4) &&
  (if r.lag = 0 then decide (r.mclause = 0xFF) && decide (r.step = 0x10000)
   else decide (r.mclause ≤ 15))

/-- A detection record (R322). -/
structure DetRec where
  clause : Nat
  headPrn : Nat
  boxPair : Nat
  rastPair : Nat
  a : Nat
  k : Nat
  sLog : Nat
  agnostic : Bool
  gh : Nat
  gw : Nat
  maxBoxes : Nat
  iouT : Nat
  rastLog : Nat
  thresh : List Nat
  anchor : List (Nat × Nat)
  deriving DecidableEq, Repr, Inhabited

/-- The fields of a 64-byte detection record (R322). -/
def DetRec.parse (b : List Byte) : DetRec where
  clause := leAt b 0 1
  headPrn := leAt b 1 1
  boxPair := leAt b 2 1
  rastPair := leAt b 3 1
  a := leAt b 4 1
  k := leAt b 5 1
  sLog := leAt b 6 1
  agnostic := bit (leAt b 7 1) 0
  gh := leAt b 8 2
  gw := leAt b 10 2
  maxBoxes := leAt b 12 2
  iouT := leAt b 14 1
  rastLog := leAt b 15 1
  thresh := (List.range 8).map fun k => leAt b (16 + 2 * k) 2
  anchor := (List.range 4).map fun a => (leAt b (32 + 4 * a) 2, leAt b (34 + 4 * a) 2)

/-- The stated ranges of a detection record (R322, R323). -/
def DetRec.fieldsOk (b : List Byte) : Bool :=
  let r := DetRec.parse b
  let rng (lo hi x : Nat) : Bool := decide (lo ≤ x) && decide (x ≤ hi)
  rng 0 15 r.clause && rng 0 3 r.boxPair && (rng 0 3 r.rastPair || decide (r.rastPair = 0xFF)) &&
  rng 1 4 r.a && rng 1 8 r.k && rng 2 6 r.sLog && decide (leAt b 7 1 ≤ 1) && rng 1 256 r.maxBoxes &&
  rng 0 255 r.iouT && rng 2 5 r.rastLog && decide (r.a * (4 + r.k) ≤ 48) && decide (leNat (sliceB b 48 16) = 0)

end Sys2Proof
end

