-- ==== Sys2Proof/Machine/SMap.lean ====
section
/-! DEFINITION. Sparse maps in one canonical form: a list of (key, value) pairs, keys strictly
rising, no listed value equal to what an unlisted key reads as. Every memory and register file of
the block is one of these, so equal contents are equal data. -/
namespace Sys2Proof

/-- A sparse map from numbers to `α`; what an unlisted key reads as is given at each use. -/
abbrev SMap (α : Type) := List (Nat × α)

/-- The value at key `k`; `d` where the key is not listed. -/
def SMap.get {α : Type} (d : α) : SMap α → Nat → α
  | [], _ => d
  | (k', v) :: m, k => if k = k' then v else SMap.get d m k

/-- Insert without regard to the default: keys stay rising. -/
def SMap.put {α : Type} : SMap α → Nat → α → SMap α
  | [], k, v => [(k, v)]
  | (k', v') :: m, k, v =>
    if k < k' then (k, v) :: (k', v') :: m
    else if k = k' then (k, v) :: m
    else (k', v') :: SMap.put m k v

/-- Remove a key. -/
def SMap.del {α : Type} : SMap α → Nat → SMap α
  | [], _ => []
  | (k', v') :: m, k => if k = k' then SMap.del m k else (k', v') :: SMap.del m k

/-- Write `v` at key `k`; writing what an unlisted key reads as removes the entry. -/
def SMap.set {α : Type} [DecidableEq α] (d : α) (m : SMap α) (k : Nat) (v : α) : SMap α :=
  if v = d then SMap.del m k else SMap.put m k v

/-- Write consecutive values from key `k` upwards. -/
def SMap.setMany {α : Type} [DecidableEq α] (d : α) (m : SMap α) (k : Nat) : List α → SMap α
  | [] => m
  | v :: vs => SMap.setMany d (SMap.set d m k v) (k + 1) vs

/-- Read `n` consecutive values from key `k` upwards. -/
def SMap.getMany {α : Type} (d : α) (m : SMap α) (k n : Nat) : List α :=
  (List.range n).map fun i => SMap.get d m (k + i)

/-- Replace the `n` keys from `a` upwards by what `src` lists under its first `n` keys. -/
def SMap.blit {α : Type} (m : SMap α) (a n : Nat) (src : SMap α) : SMap α :=
  (src.filter fun e => decide (e.1 < n)).foldl (fun m e => SMap.put m (a + e.1) e.2)
    (m.filter fun e => decide (e.1 < a) || decide (a + n ≤ e.1))

/-- The `n` keys from `a` upwards, counted from `a`. -/
def SMap.slice {α : Type} (m : SMap α) (a n : Nat) : SMap α :=
  (m.filter fun e => decide (a ≤ e.1) && decide (e.1 < a + n)).map fun e => (e.1 - a, e.2)

/-- Every listed key of `m` lies above `lo`, and the keys strictly rise. -/
def SMap.rising {α : Type} : Nat → SMap α → Bool
  | _, [] => true
  | lo, (k, _) :: m => decide (lo ≤ k) && SMap.rising (k + 1) m

/-- The canonical form: keys strictly rising, no listed value equal to the default. -/
def SMap.wf {α : Type} [DecidableEq α] (d : α) (m : SMap α) : Bool :=
  SMap.rising 0 m && m.all fun e => decide (e.2 ≠ d)

end Sys2Proof
end

