-- ==== Sys2Proof/Machine/Types.lean ====
section
/-! DEFINITION. The parts of the state: the calendar (chapter 02), the input path (chapter 03), a
core (chapters 05 to 08), a band (chapters 07 to 09) and a stream engine (chapter 08). Registers that
the host can read live in the register file; these structures hold what the spec gives the machine
beside them. All of it is plain data. -/
namespace Sys2Proof

/-- The Line Calendar (R41 to R55). Times are fabric cycles since device reset. `acc` is the
accumulator of R43 (16.16). `t0` and `acc0` are the cycle and the accumulator at the boundary that
began the current frame. -/
structure CalSt where
  running : Bool := false
  frame : Nat := 0
  line : Nat := 0
  acc : Nat := 0
  t0 : Nat := 0
  acc0 : Nat := 0
  /-- V_TOTAL of the current frame once line V_ACTIVE has begun (R50). -/
  vTot : Option Nat := none
  /-- Hold-over V_TOTAL of R53: the last one decided outside FREE since the start. -/
  hold : Option Nat := none
  /-- The state has stayed FREE since the start (R55). -/
  heldFree : Bool := true
  /-- Window of the boundary that began this frame (R51): its first cycle, and the line whose start
  ends it; `winOpen` until that line. -/
  winFrom : Nat := 0
  winEnd : Nat := 0
  winOpen : Bool := false
  /-- Kept SYNC_IN timestamps, oldest first. -/
  edges : List Nat := []
  /-- e of the boundary that began this frame, in 1/4096 LP; none while it has no measured pulse. -/
  e12 : Option Int := none
  /-- P in 1/4096 LP, defined after two measured pulses (R55). -/
  p12 : Option Nat := none
  lastPulse : Option Nat := none
  /-- Consecutive boundaries without a measured pulse, and consecutive measured pulses with |e| > RELOCK_LINES. -/
  noPulse : Nat := 0
  bigE : Nat := 0
  /-- CAL_SYNC_CFG as of the last decision (R58). -/
  syncCfg : Nat := 0
  /-- Indices of the almanac entries that have fired on the current line (R49). -/
  fired : List Nat := []
  /-- Frames since the start, saturating use: 0 while the first frame runs. -/
  started : Nat := 0
  deriving DecidableEq, Repr, Inhabited

/-- A stored reference of chapter 07: the state the line store keeps for one row slot (R223). -/
structure Slot where
  present : Bool := false
  line : Nat := 0
  count : Nat := 0
  fbh : Bool := false
  /-- The cycle in which the line became present (R104). -/
  at_ : Nat := 0
  /-- The cycle after the one in which the slot became empty (R226); `line` is then the line that it held. -/
  freed : Nat := 0
  deriving DecidableEq, Repr, Inhabited

/-- A stream engine (R231): engine `e` of physical core `p`, or of band `b`. -/
inductive EngId where
  | core (p e : Nat)
  | band (b e : Nat)
  deriving DecidableEq, Repr, Inhabited

/-- One outstanding transfer of a stream engine (R238): the descriptor's index in its list and the
transfer's number in the descriptor, in the order of R235. `base` is the BASE that its source had at issue. -/
structure Xfer where
  desc : Nat
  k : Nat
  base : Nat := 0
  /-- A halt has moved the saved position to or before it: it will be issued again (R250). -/
  stale : Bool := false
  /-- It goes to another core (R262), and has been accepted or dropped there. -/
  remote : Bool := false
  accepted : Bool := false
  /-- Its corrected read delays it to this cycle (R208, R222). -/
  after : Nat := 0
  deriving DecidableEq, Repr, Inhabited

/-- A descriptor in the engine's buffer, not yet complete (R238). -/
structure DescRun where
  idx : Nat
  bytes : List Byte
  /-- Its SEM_WAIT has been satisfied (R243). -/
  waited : Bool := false
  /-- Its first transfer has been issued at some time. -/
  began : Bool := false
  /-- Transfers issued, and those of them that are complete. -/
  issued : Nat := 0
  done : List Nat := []
  /-- It is complete, and has been once: its signal is out (R238, R250). -/
  fin : Bool := false
  signalled : Bool := false
  /-- A transfer of it was dropped at a closed window (R267). -/
  nacked : Bool := false
  deriving DecidableEq, Repr, Inhabited

/-- A list that an engine runs (R233, R238): the list table's pronoun, first index and count, the
buffer, and how many descriptors have been read. -/
structure ListRun where
  list : Nat
  /-- Line base b (R233). -/
  base : Nat
  /-- Line tag of R266: output frame and line. -/
  tagFrame : Nat
  tag : Nat
  /-- The thread that its class serves (R240, R249). -/
  thread : Nat
  prn : Nat
  first : Nat
  count : Nat
  read : Nat := 0
  buf : List DescRun := []
  deriving DecidableEq, Repr, Inhabited

/-- A stream engine beside its registers (R231, R238, R250, R252). -/
structure Eng where
  run : Option ListRun := none
  pend : Option ListRun := none
  outst : List Xfer := []
  /-- Cycle of the next periodic retry of a halted list (R250). -/
  retryAt : Nat := 0
  /-- The list was abandoned or aborted: the engine stops once nothing is outstanding (R251). -/
  stopping : Bool := false
  /-- At that stop the counters are set under R240. -/
  settle : Bool := false
  /-- The next transfer waits for a line-store line to be present (R239, R247). -/
  waitIn : Bool := false
  /-- The next descriptor's SEM_WAIT waits on this semaphore (R243, R247). -/
  waitSem : Option Nat := none
  /-- The cycle after that of the last final completion, and that of the last start with whether a thread made it (R233,
  R252). -/
  endedAt : Nat := 0
  started : Nat × Bool := (0, false)
  /-- The cycle after the last one in which a first start replaced a pending list, and REARM_OVER before it (R252). -/
  rearm : Nat × Nat := (0, 0)
  /-- The next transfer waits for an empty slot of a line store; counted up to this cycle (R230). -/
  waitSlot : Option Nat := none
  deriving DecidableEq, Repr, Inhabited

/-- An item counted by a full semaphore (R244, R267): the flags of its signal, its sender's logical
number and its output line. -/
structure Item where
  void : Bool := false
  dropped : Bool := false
  src : Nat := 0
  line : Nat := 0
  deriving DecidableEq, Repr, Inhabited

/-- Output lines that a VOID item makes take source 2 or 3 (R245): `warm` lines after `line` as well. -/
structure VoidSpan where
  line : Nat
  warm : Nat
  src : Nat
  cause : Nat
  deriving DecidableEq, Repr, Inhabited

/-- An output line that a core holds in flight (R62, R210). -/
structure LineFl where
  clause : Nat
  frame : Nat
  y : Nat
  /-- The cycle of S(y), and S(y) in phase units counted from line 0 of the frame it fired in. -/
  sAt : Nat
  sPhase : Nat
  sFrame : Nat
  /-- The clause has issued this line's first operation (R210's carry-over ends). -/
  begun : Bool := false
  /-- The cycle up to which its carry-over wait has been charged (R210). -/
  carried : Nat := 0
  /-- The adapter bank that its steps read, once one of them has or the live bank has changed (R146). -/
  bank : Option Nat := none
  /-- Charge in 1/4096 phase unit (R210), and the LAST_CAUSE values of the causes charged. -/
  charge : Nat := 0
  causes : List Nat := []
  /-- Its row is complete (R158): no longer in flight. -/
  complete : Bool := false
  /-- D(y) has passed (R64). -/
  judged : Bool := false
  deriving DecidableEq, Repr, Inhabited

/-- What a waiting thread waits for (R247, R278, R160). -/
inductive Wait where
  | none
  | sem (s : Nat)
  | tile (e : Nat)
  | slot (addr : Nat)
  | suffix (y : Nat)
  | barrier (g : Nat)
  deriving DecidableEq, Repr, Inhabited

/-- A semaphore signal (R164, R243): a thread of a core issues it, to semaphore `sem` of logical core `dst`; or the n-th of
those on their way arrives. -/
inductive SigIn where
  | issue (p t line dst sem : Nat)
  | arrive (n : Nat)
  deriving DecidableEq, Repr, Inhabited

/-- A hardware thread (R159 to R161). -/
structure Thread where
  clause : Option Nat := none
  runLine : Nat := 0
  wait : Wait := .none
  deriving DecidableEq, Repr, Inhabited

/-- Re-entry of a line clause (R65): abandoned and waiting for a start slot, then warming up from the
line of that slot on. -/
structure Reentry where
  clause : Nat
  /-- The first line that takes source 2 or 3 for it. -/
  fromFrame : Nat := 0
  fromY : Nat := 0
  /-- The abandoned clause has drained (R246), so it may restart. -/
  drained : Bool := false
  /-- Waits for the next start slot still to come. -/
  waiting : Bool := true
  /-- Frame and line of the restart, and whether the selector has reached it. -/
  frame : Nat := 0
  y : Nat := 0
  going : Bool := false
  /-- Output lines still to pass before source 1 is taken again. -/
  warm : Nat := 0
  cause : Nat := 6
  deriving DecidableEq, Repr, Inhabited

/-- A row of the segment output buffer (R158), with the clause and the thread that computed it and the cycle from which the
Suffix engine has it (R164). -/
structure SegRow where
  clause : Nat
  thread : Nat
  ready : Nat
  frame : Nat
  y : Nat
  px : List Pix
  deriving DecidableEq, Repr, Inhabited

/-- A histogram unit's configuration in use (R136, R137). -/
structure HistCfg where
  en : Bool := false
  snap : Bool := false
  src : Nat := 0
  layer : Nat := 0
  chan : Nat := 0
  allch : Bool := true
  lo : Int := 0
  shift : Nat := 0
  deriving DecidableEq, Repr, Inhabited

/-- A unit of a core that operations occupy (R139, R160, R164): one of the units that threads share, a thread's own place
in the issue unit, or the pipeline behind a thread's operations (R246). -/
inductive CoreUnit where
  | array | prefixEng | suffixEng | requantiser | weightPath
  | issue (t : Nat)
  | latency (t : Nat)
  deriving DecidableEq, Repr, Inhabited

/-- How long a unit is occupied (R164): the instant at which it is free, in 1/1092 fabric cycle, and the thread that
occupied it last. A core cycle of each bin is a whole number of these (R28). -/
structure Occupied where
  unit : CoreUnit
  free : Nat
  thread : Nat
  deriving DecidableEq, Repr, Inhabited

/-- What leaves the pipeline (R130, R131): a quantised row, elements from one on, or the end of a layer's run, with which the
accessor's staging row is written out (R205). -/
inductive OutData where
  | row (g : Nat) (codes : List Nat) (tag : Nat) (side : List Nat)
  | elems (e0 : Nat) (vs : List Nat)
  | runEnd
  deriving DecidableEq, Repr, Inhabited

/-- An output on its way through the pipeline to the gather buffer (R143, R144): the cycle in which it arrives, the
accessor that writes it (R228: 1 Prefix engine, 3 requantiser), its pronoun and logical position, the logical extent inside
which the store unit writes (R184, R220), its data, and the words with errors that its merges meet (R207). -/
structure PipeOut where
  due : Nat
  unit : Nat
  prn : Nat
  y : Nat
  x : Nat
  lh : Nat
  lw : Nat
  data : OutData
  ce : List Nat
  ue : List Nat
  deriving DecidableEq, Repr, Inhabited

/-- A write staging row of the gather buffer (R205): the scratchpad row (address / 64) and the bytes not yet written to
the bank, by offset in the row; the words with errors that its merge meets (R207). -/
structure StageRow where
  row : Nat
  bytes : List (Nat × BitVec 8)
  ce : List Nat
  ue : List Nat
  deriving DecidableEq, Repr, Inhabited

/-- A read staging row (R205): the scratchpad row held and its 64 bytes. -/
structure HeldRow where
  row : Nat
  bytes : List (BitVec 8)
  deriving DecidableEq, Repr, Inhabited

/-- A physical core (R139) beside its registers. -/
structure CoreSt where
  spad : SMap (BitVec 8) := []
  /-- 128-bit words (address / 16) that read as uncorrectable: errors and poison (R209, R212). -/
  bad : SMap Nat := []
  /-- Weight-file entries: 4096 four-bit codes, cell (r, c) at 64 r + c (R145, R147). -/
  tiles : SMap (List Nat) := []
  /-- Entries whose parity fails (R149, R302). -/
  parity : List Nat := []
  /-- Entries being written, with the cycle their write ends (R147). -/
  loading : List (Nat × Nat) := []
  /-- Codebook slots being written by a multicast or commit, with the cycle the write ends (R165). -/
  cbBusy : List (Nat × Nat) := []
  cbs : SMap Codebook := []
  esc : SMap Nat := []
  prefixW : SMap Nat := []
  suffixW : SMap Nat := []
  /-- Cell accumulators of each bank, 64 r + c, and correction-lane accumulators (R140). -/
  acc : SMap (List Int) := []
  corr : SMap (List Int) := []
  /-- Entries queued for a rewrite (R149), and the frame in which each last rewrite completed. -/
  rewrites : List Nat := []
  rewritten : SMap Nat := []
  /-- The pooling buffer (R139, R191): staging values of the current output line, by (layer, column, chunk). -/
  pool : List ((Nat × Nat × Nat) × List Nat) := []
  /-- Outputs in the pipeline, oldest first (R144), and the gather buffer's staging rows by accessor (R205). -/
  pipe : List PipeOut := []
  wstage : List (Nat × StageRow) := []
  rstage : List (Nat × HeldRow) := []
  /-- Where each thread's runs of layers stand (R178): (thread, layer), and the output line and the number within the line
of the last step issued. -/
  progress : List ((Nat × Nat) × (Nat × Nat)) := []
  /-- Zero-compressed rows of blocks not yet written (R194): (pronoun, line, row) and codes. -/
  zcRows : List ((Nat × Nat × Nat) × List Nat) := []
  /-- Rows finished by the Suffix engine and not yet in the output buffer, then the buffer (R158). -/
  sufRows : List SegRow := []
  seg : List SegRow := []
  threads : List Thread := [{}, {}, {}, {}]
  lines : List LineFl := []
  reentry : List Reentry := []
  /-- Priority rotation of R160: the thread first in order among those that rotate. -/
  rot : Nat := 1
  /-- The cycle after the last one in which a thread that rotates issued, and the order of that cycle (R160). -/
  rotAt : Nat × Nat := (0, 1)
  /-- The units that operations occupy (R143, R164). -/
  units : List Occupied := []
  /-- Cycles in which a correction stall began and ends (R208). -/
  stallFrom : Option Nat := none
  stallEnd : Nat := 0
  /-- BIN_EFF changes under way: the cycle by which the new bin is in effect (R162). -/
  binFrom : Nat := 0
  eng : List Eng := List.replicate 8 {}
  histCfg : List HistCfg := List.replicate 4 {}
  histLive : SMap Nat := []
  histRead : SMap Nat := []
  /-- The cycle after the last one in which elements were observed, and the counts of that cycle (R137). -/
  histNow : Nat × SMap Nat := (0, [])
  /-- Counts of the current output frame (R170, R198, R228). -/
  utilLine : Nat := 0
  utilFrame : Nat := 0
  utilWait : Nat := 0
  zcRaw : Nat := 0
  zcPack : Nat := 0
  minLeft : Int := 32767
  /-- MIN_LEFT of the next frame, for its lines judged ahead of its boundary. -/
  minLeftNext : Int := 32767
  stallEcc : Nat := 0
  bgWait : Nat := 0
  /-- Corrected reads per row (R213), the rows that a full queue has refused, and the map-out queue, by scratchpad row
  number. -/
  tracker : List (Nat × Nat) := []
  refused : List Nat := []
  mapQ : List Nat := []
  /-- Rows redirected to spares (R212). -/
  mapped : List Nat := []
  /-- Background accesses that wait for their bank, oldest first, by address, with the cycle up to which their waiting has been
  counted; and for each bank the cycle after its last background access (R201). -/
  bg : List (Nat × Nat) := []
  bgLast : SMap Nat := []
  /-- Waits satisfied in the latest cycle in which there were any: that cycle, then semaphore and thread (engines from 4 on), the
  latest first (R243). -/
  semTook : Nat × List (Nat × Nat) := (0, [])
  /-- Items counted by each full semaphore, oldest first (R244), and for each unit of DEBT the producer's
  logical number and empty semaphore. -/
  items : SMap (List Item) := []
  debts : SMap (List (Nat × Nat)) := []
  voids : List VoidSpan := []
  deriving DecidableEq, Repr, Inhabited

/-- A band (R22) beside its registers. -/
structure BandSt where
  mem : SMap (BitVec 8) := []
  bad : SMap Nat := []
  /-- Row slots by their byte address (R223). -/
  slots : SMap Slot := []
  eng : List Eng := List.replicate 2 {}
  tracker : List (Nat × Nat) := []
  refused : List Nat := []
  mapQ : List Nat := []
  mapped : List Nat := []
  /-- Fabric cycles of this frame that core producers waited on slots (R230). -/
  lsWait : Nat := 0
  /-- Rotation of R222: the requester that comes first (nine cores, then the fabric port); the cycle after the last one in
  which one was served, and the first served in it; for each bank the cycle after its last access. -/
  rot : Nat := 0
  served : Nat × Nat := (0, 0)
  used : SMap Nat := []
  deriving DecidableEq, Repr, Inhabited

/-- What an abandoning core owes for the lines it abandons (R225, R244): the full signal of an item it
would have produced, an item it would have consumed, a line-store reference. The static schedule that
names them is not described in the spec (R286), so the command that abandons carries them (log entry 10). -/
inductive Owed where
  /-- To semaphore `sem` of logical core `dst`, for output line `line`. -/
  | produced (dst sem line : Nat)
  /-- Full semaphore `full` of this core; empty semaphore `empty` of logical core `src`. -/
  | consumed (full src empty : Nat)
  /-- Padded line `y` of ring pronoun `prn`, in band `band`. -/
  | release (band prn y : Nat)
  deriving DecidableEq, Repr, Inhabited

/-- What an access of a memory met: 128-bit words (address / 16) that it corrected and words it found
uncorrectable (R207). -/
structure EccIn where
  ce : List Nat := []
  ue : List Nat := []
  deriving DecidableEq, Repr, Inhabited

/-- A unit by its number (a segment, a core, a band), and what a command's reads of its memory met. -/
structure EccAt where
  unit : Nat
  ecc : EccIn := {}
  /-- A foreground access uses a bank of the command's accesses in this cycle (R201), or a request of R222 does. -/
  busy : Bool := false
  deriving DecidableEq, Repr, Inhabited

/-- What ends with a clause that has drained (R246): the semaphores that it waited on, and the lists that its
threads started. -/
structure DrainIn where
  sems : List Nat := []
  lists : List Nat := []
  deriving DecidableEq, Repr, Inhabited

/-- An array step as the static schedule places it (R141, R178): the layer's descriptor index, the run
line, the output position, the output chunk, the tap and the input chunk. `first` marks the run's first
step. The schedule's other foreground accesses of the same thread and core cycle follow (R203): accessor
unit and scratchpad address. -/
structure StepOp where
  layer : Nat
  line : Nat
  oy : Nat
  ox : Nat
  co : Nat
  ty : Nat
  tx : Nat
  ci : Nat
  first : Bool
  beside : List (Nat × Nat)
  deriving DecidableEq, Repr, Inhabited

/-- What happens at an operation of a core from outside its program: ECC of its reads, weight-file
entries whose parity fails (R149), an uncorrectable error in the program store (R165 code 4), threads that
ask for the same resource in the same cycle (R160) or requesters of a line store (R222), the accesses that the static schedule places in the cycle of one of the
operation's own (R203: own address, accessor unit, address), and what an abandonment owes. -/
structure CoreIn where
  ecc : EccIn := {}
  parity : List Nat := []
  store : Bool := false
  rivals : List Nat := []
  beside : List (Nat × Nat × Nat) := []
  owed : List Owed := []
  /-- LAYER of the layer descriptor that the thread uses (R168), for a fault outside a layer's operation. -/
  layer : Nat := 0
  /-- A foreground access uses the bank of a background access in this cycle (R201). -/
  busy : Bool := false
  /-- What the cores of a band owe when a halt of a band engine abandons their clauses (R251), by slot in logical order. -/
  bandOwed : List (List Owed) := []
  deriving DecidableEq, Repr, Inhabited

end Sys2Proof
end

