-- ==== Sys2Proof/Machine/TypesDram.lean ====
section
/-! DEFINITION. Parts of the state that belong to the stacked DRAM and its arbiters (chapter 16): the channels'
queues and open rows, scrub and map-out, and the port arbiters. Plain data. -/
namespace Sys2Proof

/-- An access in a channel's queue (R413, R415): the window offset of its first byte and its length inside one
64-byte block, whether it writes, the port and requester it comes from, and whether it is a host window access. -/
structure DramAcc where
  off : Nat
  len : Nat
  write : Bool
  port : Nat
  q : Nat
  host : Bool := false
  deriving DecidableEq, Repr, Inhabited

/-- A requester's access that is ready at a port (R426, R428): the requester, the fabric cycle in which it was
presented, the access, and for a band port its class (0 read, 1 write, 2 remote). -/
structure PortAsk where
  q : Nat
  at_ : Nat
  cls : Nat
  off : Nat
  len : Nat
  host : Bool := false
  deriving DecidableEq, Repr, Inhabited

/-- A DRAM channel (R411, R415, R418). -/
structure ChanSt where
  /-- Queued accesses, oldest first. -/
  queue : List DramAcc := []
  /-- Open row of each bank. -/
  openRow : SMap (Option Nat) := []
  /-- First command slot that is still free. -/
  slot : Nat := 0
  /-- Row refreshes performed; the block that patrol scrub reads next, and passes completed. -/
  refreshed : Nat := 0
  scrub : Nat := 0
  passes : Nat := 0
  /-- Cycle from which the next patrol read is due. -/
  scrubDue : Nat := 150000
  /-- Block with a corrected beat, waiting for its write-back. -/
  wb : Option Nat := none
  deriving DecidableEq, Repr, Inhabited

/-- A port's arbiter beside its registers (R426, R428, R430): the requester the grant is parked on, and for each
requester the run of waits of its access and the first cycle not yet counted. -/
structure ArbSt where
  parked : Option Nat := none
  run : SMap Nat := []
  upTo : SMap Nat := []
  /-- The cycle after that of the last grant. -/
  free : Nat := 0
  /-- Granted accesses whose channel's queue was full, oldest first (R415). -/
  held : List DramAcc := []
  deriving DecidableEq, Repr, Inhabited

/-- The DRAM (chapter 16). Rows are numbered (channel × 16 + bank) × 4096 + row. -/
structure DramSt where
  chans : SMap ChanSt := []
  /-- Ports 0 to 7: the bands'; 8: I/O; 9: service (R424). -/
  arbs : SMap ArbSt := []
  /-- Tickets in force in this frame, by the address of ARB_TKT (R430). -/
  tickets : SMap Nat := []
  /-- Corrected reads per row, for each die (R419). -/
  trackers : List (List (Nat × Nat)) := [[], []]
  /-- Rows that a full queue has refused. -/
  refused : List Nat := []
  mapQ : List Nat := []
  /-- Cycle in which the copy of the row at the head of the queue can have begun. -/
  mapFrom : Nat := 0
  /-- Rows redirected to spares. -/
  mapped : List Nat := []
  /-- Command slots waited in the current frame, by tier (R432). -/
  waits : SMap Nat := []
  deriving DecidableEq, Repr, Inhabited

end Sys2Proof
end

