-- ==== Sys2Proof/Machine/TypesVideo.lean ====
section
/-! DEFINITION. Parts of the state on the picture's path: the two ports and the input pipeline
(chapter 03), the input-frame history, the re-timer, the warp units and the frame clauses
(chapters 10 and 11), and the lines that the line selector has taken (chapter 02). Plain data. -/
namespace Sys2Proof

/-- A received PPS: the fields that R85 and R86 test. `bpp16` is bits_per_pixel in 1/16 bit.
`native` is 0 for 4:4:4, 1 for native 4:2:2, 2 for native 4:2:0. `legal` is false for any other field
or combination that DSC 1.2a does not permit (code 8). The pixel clock is in Hz. -/
structure Pps where
  w : Nat
  h : Nat
  sliceW : Nat
  sliceH : Nat
  slices : Nat
  chunk : Nat
  bpp16 : Nat
  native : Nat
  bpc : Nat
  lineBuf : Nat
  clock : Nat
  htotal : Nat
  legal : Bool
  deriving DecidableEq, Repr, Inhabited

/-- A line as the source sends it: component 0 of every pixel, and components 1 and 2 as sampled
(half as many for 4:2:2 and 4:2:0, none on odd lines of 4:2:0). -/
structure SrcLine where
  c0 : List Nat
  c1 : List Nat
  c2 : List Nat
  deriving DecidableEq, Repr, Inhabited

/-- A line after the unpacker: the lowest cause of R97 (0: not corrupt) and its pixels. -/
structure InRow where
  cause : Nat
  px : List Pix
  deriving DecidableEq, Repr, Inhabited

/-- A source frame after the joiner (R71 stages 1 to 3): lines by number. -/
structure SrcFrame where
  w : Nat := 0
  h : Nat := 0
  enc : Nat := 0
  bpc : Nat := 0
  encrypted : Bool := false
  /-- The cause of a line that never arrives (R81, R87, log entry 7). -/
  miss : Nat := 2
  rows : SMap InRow := []
  /-- Every line has arrived, or the frame has ended. -/
  ended : Bool := false
  deriving DecidableEq, Repr, Inhabited

/-- Main stream attributes of a source frame, or those of the PPS when DSC is active (R77). -/
structure SrcAttr where
  w : Nat
  h : Nat
  enc : Nat
  bpc : Nat
  dsc : Bool
  encrypted : Bool
  deriving DecidableEq, Repr, Inhabited

/-- A secondary data packet (R72): a VSC SDP (pixel encoding, colorimetry, bits per component), an HDR
metadata SDP with its bytes, or any other. -/
inductive Sdp where
  | vsc (enc colorimetry bpc : Nat)
  | hdr (data : List (BitVec 8))
  | other
  deriving DecidableEq, Repr, Inhabited

/-- Loss conditions of R82 that arise on the link: symbol or block lock lost for more than 2 µs, or no
vertical blanking start. -/
inductive LossCause where
  | lock | vblank
  deriving DecidableEq, Repr, Inhabited

/-- A transaction on a port's AUX channel (R72). -/
inductive AuxReq where
  | nativeRead (addr n : Nat)
  | nativeWrite (addr : Nat) (data : List (BitVec 8))
  | i2cWrite (data : List (BitVec 8))
  | i2cRead (n : Nat)
  deriving DecidableEq, Repr, Inhabited

/-- A DisplayPort sink port beside its registers (R72 to R88). -/
structure PortSt where
  hpd : Bool := false
  /-- Cycle at which the HPD low pulse ends (R74). -/
  hpdRise : Option Nat := none
  /-- IRQ_HPD pulses raised since reset (R74). -/
  irq : Nat := 0
  /-- Loss conditions of R82 in force: lock, vertical blanking, zero size, PPS, HDCP. -/
  lossLock : Bool := true
  lossVb : Bool := false
  lossSize : Bool := false
  lossPps : Bool := false
  lossHdcp : Bool := false
  /-- NOSIG_CAUSE of the condition that held last (R99); before any, that of a link that is down. -/
  lastCause : Nat := 1
  /-- A frame is being received under R82's wait; it started with every condition clear. -/
  proving : Bool := false
  pps : Option Pps := none
  ppsOk : Bool := false
  /-- Code 4 alone rejects the PPS (R86). -/
  ppsRate : Bool := false
  /-- Number of the frame start, its cycle, and the lines that have arrived in the current frame. -/
  lastStart : Option Nat := none
  /-- The current frame, raw halves by line in MODE 2. -/
  rows : SMap InRow := []
  nextY : Nat := 0
  /-- Every line up to `nextY` has arrived; the frame before arrived in full (R82). -/
  full : Bool := true
  was : Bool := false
  /-- Chroma samples of the last even line, for 4:2:0 (R89). -/
  chroma : SrcLine := ⟨[], [], []⟩
  colorimetry : Nat := 0
  hdr : Bool := false
  /-- The HDR metadata SDP last reported (R72). -/
  hdrSdp : List (BitVec 8) := []
  vsc : List (BitVec 8) := []
  /-- DPCD bytes written by the source, and the I2C-over-AUX read offset (R72). -/
  dpcd : SMap (BitVec 8) := []
  i2cAt : Nat := 0
  /-- The last AUX reply: code, then data. -/
  auxReply : List (BitVec 8) := []
  /-- EDID and DisplayID content that the port shows (from the container, R72). -/
  edid : List (BitVec 8) := []
  deriving DecidableEq, Repr, Inhabited

/-- Geometry in use (R93). -/
structure Geo where
  mode : Nat := 0
  gfx1 : Bool := false
  x0 : Nat := 0
  y0 : Nat := 0
  cw : Nat := 0
  ch : Nat := 0
  hflip : Bool := false
  vflip : Bool := false
  rot : Nat := 0
  rnH : Nat := 256
  rnV : Nat := 256
  deriving DecidableEq, Repr, Inhabited

/-- The fit of a picture to its bucket (R94). -/
structure Fit where
  bucket : Nat := 0
  wb : Nat := 0
  hb : Nat := 0
  /-- Picture size before the crop of step 2, the first columns and lines kept, and the padding. -/
  w : Nat := 0
  h : Nat := 0
  cx : Nat := 0
  cy : Nat := 0
  padL : Nat := 0
  padT : Nat := 0
  cropped : Bool := false
  deriving DecidableEq, Repr, Inhabited

/-- What supplies the current input frame. -/
inductive FrameSrc where
  | port
  | blankHeld
  | blankBlack
  deriving DecidableEq, Repr, Inhabited

/-- The input frame at stages 8 to 10 (R78, R94, R101). -/
structure InFrame where
  num : Nat
  src : FrameSrc
  fit : Fit
  geo : Geo
  pic : SrcFrame
  /-- Lines written so far. -/
  next : Nat := 0
  /-- Written to no slot (R307). -/
  skipped : Bool := false
  /-- The previous input frame may serve R98. -/
  prevOk : Bool := false
  encrypted : Bool := false
  /-- CRC-64 of each line written (R100). -/
  crcs : List Nat := []
  /-- The last line written, for R98; lines replaced under R98. -/
  lastRow : List Pix := []
  replaced : List Nat := []
  deriving DecidableEq, Repr, Inhabited

/-- An input frame whose last line stage 9 has passed (R443): its number, the CRCs of its lines, whether it came
from an encrypted picture, and whether the blank path supplied it. -/
structure InDone where
  num : Nat
  crcs : List Nat
  encrypted : Bool
  blank : Bool
  deriving DecidableEq, Repr, Inhabited

/-- The input pipeline (R71 to R101). -/
structure InpSt where
  ports : List PortSt := [{}, {}]
  geo : Geo := {}
  /-- A newly selected input waits for its own frame start (R93). -/
  switching : Bool := false
  /-- The frame being received after the joiner, the geometry that it is processed under, and whether the input lost its
  signal since it began. -/
  cur : Option SrcFrame := none
  curGeo : Geo := {}
  cut : Bool := false
  /-- The joined pair (R80): 0 good, 1 mismatched, 2 a clean frame is being received after a mismatch. -/
  pairBad : Nat := 0
  /-- Ports whose half of the next joined frame has started. -/
  pairStarted : List Nat := []
  /-- The crop leaves nothing (R90). -/
  cropZero : Bool := false
  fr : Option InFrame := none
  /-- Next input frame number (R78). -/
  nextNum : Nat := 0
  /-- R83: frames supplied since the input became zero-sized; last start of a port frame at stage 8
  (none after a blank-path frame); the last measured period; when the last frame started. -/
  blank : Nat := 0
  lastPort : Option Nat := none
  period : Option Nat := none
  lastStart : Nat := 0
  blankActive : Bool := false
  /-- Output frame in which the blank path last supplied a frame while no period is measured. -/
  blankFrame : Option Nat := none
  /-- The last frame from a port that stage 10 wrote to the history (R83). -/
  lastPortFrame : Option Nat := none
  /-- The fit in use since boot (R96); port, pixel encoding and bits per component of the frame last started at stage 8
  (R287). -/
  fit : Fit := {}
  fmtPort : Nat := 0
  fmtEnc : Nat := 0
  fmtBpc : Nat := 0
  /-- The frame before the current one can serve R98. -/
  prevUsable : Bool := false
  /-- The last sixteen input frames completed, and the frame whose line stage 10 completed last. -/
  done : List InDone := []
  lastWritten : Option Nat := none
  /-- Frames not written under R307 since the last decision of R310. -/
  overrun : Nat := 0
  deriving DecidableEq, Repr, Inhabited

/-- A slot of the input-frame history (R305). -/
structure HistSlot where
  frame : Option Nat := none
  wb : Nat := 0
  hb : Nat := 0
  encrypted : Bool := false
  blank : Bool := false
  complete : Bool := false
  crcs : List Nat := []
  /-- The frame's fit, and its lines replaced under R98 (R335, R336). -/
  fit : Fit := {}
  replaced : List Nat := []
  deriving DecidableEq, Repr, Inhabited

/-- Decision of the re-timer for one output frame, with what R319 and the frame record take from it. -/
structure FrameCtx where
  i : Nat := 0xFFFFFFFF
  f : Nat := 0
  aligned : Bool := true
  fieldOk : Bool := false
  hold : Bool := false
  drop : Nat := 0
  live : Bool := false
  overrun : Nat := 0
  step : Nat := 0
  label : Nat := 0xFFFFFFFF
  /-- τ is held: the frame shows an input frame. -/
  shown : Bool := false
  /-- BASE of the latched field (R315). -/
  fBase : Nat := 0
  latched : Bool := false
  /-- Output frame number. -/
  frame : Nat := 0
  deriving DecidableEq, Repr, Inhabited

/-- A band's warp unit (R316, R317): the frame whose rows it writes, its next row, the frames after it, the cycle up to which its
waits are counted, the cycles it has waited in this output frame, and when its last row is produced. -/
structure WarpSt where
  ctx : Option FrameCtx := none
  next : Nat := 0
  queued : List FrameCtx := []
  since : Nat := 0
  wait : Nat := 0
  free : Nat := 0
  deriving DecidableEq, Repr, Inhabited

/-- A run of a frame clause (R297): its input frame, the output frame whose boundary was A(i), the output frame
at whose boundary its outputs are due; the logical cores that have drained it, and what taints it (R440). -/
structure FcRun where
  inFrame : Nat
  due : Nat
  failed : Bool := false
  cores : List Nat := []
  /-- The box unit has written its outputs (R326). -/
  boxDone : Bool := false
  /-- It began on an input frame reached by passing over others; while its own committed output was kept; it
  read a committed buffer whose taint bit was set. -/
  fromSkip : Bool := false
  fromKept : Bool := false
  readTaint : Bool := false
  deriving DecidableEq, Repr, Inhabited

/-- An output pair's committed buffer (R314, R37, R440): the input frame that labels it, whether it was kept
past a due point, and its taint bit. -/
structure PairSt where
  label : Nat := 0xFFFFFFFF
  kept : Bool := false
  taint : Bool := false
  /-- Before the last swap: the output frame whose boundary made it, the committed BASE until then, and whether it was read as
  tainted (R38, R440). -/
  old : Option (Nat × Nat × Bool) := none
  deriving DecidableEq, Repr, Inhabited

/-- A frame clause's progress (R297 to R299): its run, the last input frame run, and the due points of failed
runs that have ended. -/
structure FcSt where
  run : Option FcRun := none
  /-- The next output frame, once a line of it has read an output of this clause ahead of its boundary, and whether the
  boundary swaps (R38; DESIGN CHOICE, log entry 63). -/
  next : Option (Nat × Bool) := none
  last : Option Nat := none
  /-- Input frames that have become available since its last run began (R298). -/
  seen : Nat := 0
  dues : List Nat := []
  pairs : List PairSt := List.replicate 4 {}
  deriving DecidableEq, Repr, Inhabited

/-- A kept box of the detection head (R323 to R325): corners, score pattern, class, anchor, cell. -/
structure Box where
  x0 : Nat
  y0 : Nat
  x1 : Nat
  y1 : Nat
  score : Nat
  cls : Nat
  anchor : Nat
  gy : Nat
  gx : Nat
  deriving DecidableEq, Repr, Inhabited

/-- Pixels of a box. -/
def Box.area (b : Box) : Nat := (b.x1 - b.x0 + 1) * (b.y1 - b.y0 + 1)
/-- Pixels that two boxes share. -/
def Box.inter (a b : Box) : Nat :=
  (min a.x1 b.x1 + 1 - max a.x0 b.x0) * (min a.y1 b.y1 + 1 - max a.y0 b.y0)

/-- A run of the box unit (R326): the cycle at which it ends, what it will write. -/
structure BoxRun where
  clause : Nat
  done : Nat
  boxes : List Box
  cands : Nat
  ovf : Bool
  trunc : Bool
  cycles : Nat
  deriving DecidableEq, Repr, Inhabited

/-- A line as the line selector released it (R63): the source of each segment and the pixels. -/
structure SelLine where
  frame : Nat
  y : Nat
  at_ : Nat := 0
  src : List Nat
  px : List Pix
  /-- Frost has released it: its pixels with grain (R358). -/
  grain : Option (List Pix) := none
  /-- The composer has taken it (R378). -/
  composed : Bool := false
  deriving DecidableEq, Repr, Inhabited

/-- A fallback segment that is complete (R104): pixels and the cycle of completion. -/
structure FbSeg where
  frame : Nat
  y : Nat
  seg : Nat
  done : Nat
  px : List Pix
  deriving DecidableEq, Repr, Inhabited

end Sys2Proof
end

