-- ==== Sys2Proof/Machine/TypesPicture.lean ====
section
/-! DEFINITION. Parts of the state behind the line selector: Frost and the sensors (chapter 13), the composer
(chapter 14) and the raster lanes (chapter 15). Plain data. -/
namespace Sys2Proof

/-- The grain templates of a frame (R359, R360): 73 lines of 82 values each. -/
structure GrainTpl where
  y : List (List Int) := []
  cb : List (List Int) := []
  cr : List (List Int) := []
  deriving DecidableEq, Repr, Inhabited

/-- Grain of one output frame as Frost fixed it (R361, R362): the parameters in use, its seed, the source, the
channels enabled (bit 0 Y, 1 Cb, 2 Cr) and the slot. -/
structure FrostFrame where
  params : List (BitVec 8) := []
  seed : Nat := 0
  source : Nat := 0
  chan : Nat := 0
  slot : Nat := 0
  /-- Its templates, once they are complete (R360). -/
  tpl : Option GrainTpl := none
  /-- The stripe of 32 lines begun, its blocks' random offsets, and for each channel the last two noise lines of the stripe before (R360). -/
  stripe : Option Nat := none
  offs : List (Nat × Nat) := []
  kept : List (List (List Int)) := []
  deriving DecidableEq, Repr, Inhabited

/-- Frost beside its registers: the frame in progress and the next, each with its templates, which are so double-buffered; generation of the
next frame's templates (R360). -/
structure FrostSt where
  cur : FrostFrame := {}
  next : FrostFrame := {}
  /-- The next fixing takes default parameters as those of the frame before (R361). -/
  fresh : Bool := true
  /-- Cycle at which template generation began; none once it is complete. -/
  gen : Option Nat := none
  deriving DecidableEq, Repr, Inhabited

/-- A sample for the fusion unit (R368): its time and its exact value, a numerator over a power of two's
denominator. -/
structure Sample where
  time : Nat
  num : Int
  den : Nat
  deriving DecidableEq, Repr, Inhabited

/-- Result of a read on the I3C bus (R367). -/
inductive I3cResult where
  | data (bytes : List (BitVec 8))
  | nack
  | busErr
  deriving DecidableEq, Repr, Inhabited

/-- A transfer on the bus (R365): the address, whether it goes to a legacy I2C target, the register byte sent, the bytes asked for; the cycles
of its START, of its repeated START and of its end. -/
structure BusXfer where
  addr : Nat
  i2c : Bool
  reg : Nat
  len : Nat
  start : Nat
  again : Nat
  stop : Nat
  deriving DecidableEq, Repr, Inhabited

/-- The sensor unit beside its registers: end of address assignment and the next read of each entry (R367), and the
samples of the vector's slots 0 to 13 that may still be used (R369). -/
structure SnsSt where
  assigned : Option Nat := none
  /-- The address at which each entry's target answers, by entry: dynamic, or static for I2C (R366). -/
  addrs : SMap Nat := []
  /-- DISEC has disabled in-band interrupts, controller-role requests and hot-join (R365). -/
  quiet : Bool := false
  /-- The transfer made last: the bus is busy until its end (R367). -/
  last : Option BusXfer := none
  k : List Nat := List.replicate 8 0
  samples : SMap (List Sample) := []
  /-- The vector most recently formed. -/
  vec : List Nat := List.replicate 16 0
  deriving DecidableEq, Repr, Inhabited

/-- A graphics plane as in use (R379, R382); `bad`: its values name memory outside kind 0 (R422). -/
structure PlaneUse where
  en : Bool := false
  src : Nat := 0
  fmt : Nat := 0
  premul : Bool := false
  ga : Nat := 0
  base : Nat := 0
  pitch : Nat := 0
  x : Int := 0
  y : Int := 0
  w : Nat := 0
  h : Nat := 0
  bad : Bool := false
  deriving DecidableEq, Repr, Inhabited

/-- A guarded region as in use, with its check under way and its forcing (R384, R385, R441). -/
structure RegionUse where
  en : Bool := false
  forceEn : Bool := false
  holdOk : Nat := 1
  x0 : Nat := 0
  y0 : Nat := 0
  w : Nat := 0
  h : Nat := 0
  expect : Nat := 0
  safe : Nat := 0
  bad : Bool := false
  /-- CRC-32 register over the pixels composed so far in the frame. -/
  crc : Nat := 0xFFFFFFFF
  forced : Bool := false
  tainted : Bool := false
  /-- The last completed frame mismatched, and the frame; not yet seen by an apply point. -/
  miss : Option Nat := none
  /-- That frame's TD was not zero when it became final (R441). -/
  missTd : Bool := false
  deriving DecidableEq, Repr, Inhabited

/-- Capture values as in use (R391). -/
structure CapUse where
  en : Bool := false
  fmt : Nat := 0
  nbuf : Nat := 2
  div : Nat := 1
  base : Nat := 0
  pitch : Nat := 0
  bad : Bool := false
  deriving DecidableEq, Repr, Inhabited

/-- A graphics pixel: components and alpha, 12 bits each. -/
structure GPix where
  px : Pix
  a : Nat
  deriving DecidableEq, Repr, Inhabited

/-- A line in the composer's line buffers (R380): per plane its visible pixels from the first column on, an
unreadable one none; per forced region its safe-image line. -/
structure GfxLine where
  frame : Nat
  y : Nat
  planes : List (List (Option GPix)) := [[], []]
  safe : SMap (List (Option Pix)) := []
  deriving DecidableEq, Repr, Inhabited

/-- A composed line: the cycle at which its first pixel is composed, the pixels as they leave R385. -/
structure CompLine where
  frame : Nat
  y : Nat
  start : Nat
  px : List Pix
  fb : Bool
  deriving DecidableEq, Repr, Inhabited

/-- The capture of one output frame (R388 to R390): its buffer, its lines in the queue, and how it ends. -/
structure CapRun where
  frame : Nat
  buf : Nat
  arg : Nat
  /-- The capture values at the frame's apply point (R391). -/
  use : CapUse
  /-- Lines written, the first line that found the queue full, and whether the frame is blocked. -/
  begun : Bool := false
  written : Nat := 0
  missing : Option Nat := none
  blocked : Bool := false
  /-- The status block has its final STATE (R388, R389). -/
  ended : Bool := false
  deriving DecidableEq, Repr, Inhabited

/-- Port 1 as a graphics source (R376): the buffer being written, the newest complete one, the one shown, whether a frame is being
received and not yet complete, and whether it is spoiled. `hidden`: offsets and lengths in DRAM of frame buffers that hold
decrypted pixels (R88). -/
structure GfxPort where
  wr : Nat := 0
  newest : Option Nat := none
  shown : Option Nat := none
  going : Bool := false
  bad : Bool := false
  hidden : List (Nat × Nat) := []
  deriving DecidableEq, Repr, Inhabited

/-- The composer (chapter 14). -/
structure CmpSt where
  planes : List PlaneUse := [{}, {}]
  regions : List RegionUse := List.replicate 16 {}
  cap : CapUse := {}
  /-- The last output frame whose apply point has passed (R379). -/
  applied : Option Nat := none
  fetched : List GfxLine := []
  lines : List CompLine := []
  gfx : GfxPort := {}
  runs : List CapRun := []
  /-- Capture queue (R389): frame, line and pixels. -/
  queue : List (Nat × Nat × List Pix) := []
  capNext : Nat := 0
  deriving DecidableEq, Repr, Inhabited

/-- A stripe on the lanes (R394): control blocks or data, the eight payload bytes of each lane before scrambling. It is sent in block time
`at_` and, a run of IDLE, SAFE or TRAIN, in those after it, `times` in all; SEQ of a TRAIN run rises by one in each. -/
structure Stripe where
  ctl : Bool
  blocks : List (List (BitVec 8))
  at_ : Nat := 0
  times : Nat := 1
  deriving DecidableEq, Repr, Inhabited

/-- A line packet in progress (R396): line, the next data stripe, and each lane's CRC-32 register. -/
structure Packet where
  frame : Nat
  y : Nat
  next : Nat := 0
  crcs : List Nat := []
  deriving DecidableEq, Repr, Inhabited

/-- The raster lanes beside their registers (chapter 15). -/
structure PnlSt where
  /-- Cycle at which training began; end of the idle between attempts; end of the SAFE sequence. -/
  trainAt : Nat := 0
  idleTo : Nat := 0
  safeTo : Option Nat := none
  /-- Training starts when the SAFE sequence has ended. -/
  resume : Bool := false
  /-- 0: IDLE since running; 1: the frame description has been sent; 2: line packets are sent (R404). -/
  sync : Nat := 0
  pkt : Option Packet := none
  fills : Nat := 0
  /-- GEOM_SEQ of the frame in progress (R401). -/
  geom : Nat := 0
  /-- The current frame is a re-lock frame (R54). -/
  relock : Bool := false
  /-- PNL_DRV as taken at the last start of training: swing, pre, post. -/
  drv : Nat × Nat × Nat := (0, 0, 0)
  /-- Where the grid of block times lies against fabric cycles, in 1/100 cycle, and the first block time not sent yet (R394). -/
  phase : Nat := 0
  block : Nat := 0
  /-- The block time of training's TRAIN stripe with SEQ 0 (R404). -/
  trainBlock : Nat := 0
  /-- The cycle in which PANEL_RDY was last read low. -/
  lowAt : Option Nat := none
  /-- Stripes that the last event of the lanes sent, oldest first, and each lane's scrambler as it stood before them (R393). -/
  sent : List Stripe := []
  scr : List (BitVec 58) := List.replicate 32 0
  /-- The cycle of the last counted retraining, and the cycle of the last phase 0 while running, each with its counter as it
  stood before; the latter with the first block time that phase 0 could use (R405, R408). -/
  retrained : Option (Nat × Nat) := none
  phase0 : Option (Nat × Nat × Nat) := none
  /-- The first line packet since boot has been sent (T_FIRST). -/
  first : Bool := false
  deriving DecidableEq, Repr, Inhabited

end Sys2Proof
end

