-- ==== Sys2Proof/Machine/Sched.lean ====
section
/-! DEFINITION. Schedules, model sets and the program (R284). The encoding of the container sections
that hold them is not in the spec (R286, R490), so the program is kept as its objects: each record the
spec lays out keeps its bytes or its parsed fields. -/
namespace Sys2Proof

/-- The image of one logical core (R284): layer descriptors (R151), mapping table (R174), and the
initial pronoun (R216), list (R232), window (R265) and semaphore (R254) tables. -/
structure CoreImage where
  layers : List (List Byte) := []
  maps : List Byte := []
  prns : List (List Byte) := []
  lists : List (List Byte) := []
  wins : List (List Byte) := []
  /-- One CORE_SEM word per semaphore: INIT, CAP, KIND as R254 places them. -/
  sems : List Nat := []
  /-- Program-store bytes of the schedule in this core (row 16 of R290). -/
  storeBytes : Nat := 0
  /-- Which lists the static schedule of which clause starts: list, CLAUSE_ID (R233). -/
  starts : List (Nat × Nat) := []
  deriving DecidableEq, Repr, Inhabited

/-- The tables of one band (R284). -/
structure BandImage where
  prns : List (List Byte) := []
  lists : List (List Byte) := []
  deriving DecidableEq, Repr, Inhabited

/-- A schedule (R284). `almanac` and `clauses` keep each record's bytes beside its fields. -/
structure Schedule where
  almRaw : List (List Byte) := []
  clRaw : List (List Byte) := []
  almanac : List AlmEntry := []
  clauses : List ClauseDesc := []
  cores : List CoreImage := []
  bands : List BandImage := []
  fmtPrn : Nat := 0
  ctxPrn : Nat := 0
  condPrn : Nat := 0
  rtRaw : List Byte := []
  detRaw : Option (List Byte) := none
  bindRaw : Option (List Byte) := none
  /-- The gradient descriptors at GD_OFF of each program store (R342, R344). -/
  grads : List (List Byte) := []
  /-- Barrier groups: masks of logical cores (R278). -/
  barriers : List Nat := []
  /-- Threads that each clause claims, as masks, in clause order (R159). -/
  threads : List Nat := []
  deriving DecidableEq, Repr, Inhabited

/-- The re-timing record in use (R309). -/
def Schedule.rt (s : Schedule) : RtRec := RtRec.parse s.rtRaw
/-- The detection record, if the schedule holds one (R322). -/
def Schedule.det (s : Schedule) : Option DetRec := s.detRaw.map DetRec.parse
/-- Line clauses, in order. -/
def Schedule.lineClauses (s : Schedule) : List ClauseDesc := s.clauses.filter fun c => !c.frame
/-- Frame clauses, in the order that numbers them for CAL_FC (R299). -/
def Schedule.frameClauses (s : Schedule) : List ClauseDesc := s.clauses.filter fun c => c.frame
/-- The clause of an identifier. -/
def Schedule.clause (s : Schedule) (id : Nat) : Option ClauseDesc := s.clauses.find? fun c => c.id == id
/-- The number of a frame clause for CAL_FC (R299). -/
def Schedule.fcIndex (s : Schedule) (id : Nat) : Option Nat :=
  s.frameClauses.findIdx? fun c => c.id == id
/-- The Drizzle clause of the binding, a frame clause by its number (R342, log entry 13). -/
def Schedule.drzClause (s : Schedule) : Option Nat :=
  s.bindRaw.bind fun b => (s.frameClauses[leAt b 0 1]?).map (·.id)
/-- Threads that a clause claims, as a mask (R159). -/
def Schedule.claims (s : Schedule) (id : Nat) : Nat :=
  match s.clauses.findIdx? fun c => c.id == id with
  | some i => s.threads.getD i 0
  | none => 0
/-- Layer descriptor `i` of a logical core. -/
def Schedule.layer (s : Schedule) (l i : Nat) : LayerDesc :=
  LayerDesc.parse ((s.cores.getD l {}).layers.getD i [])
/-- The mapping record a layer of a logical core names (R174). -/
def Schedule.mapRec (s : Schedule) (l : Nat) (d : LayerDesc) : MapRec :=
  MapRec.parse (((s.cores.getD l {}).maps).drop d.map)

/-- Weight-file classes (R145). -/
inductive TileClass where
  | line | frame | adapter | free
  deriving DecidableEq, Repr, Inhabited

/-- A model set's image for one core (R284, R288): 64 entries with their class and the DRAM offset of their
weight page (R147), codebook records by slot, escape words, Prefix and Suffix weight codes, A and T of R146; the
Drizzle record with the set's base (R331), and the offset of its Drizzle state area (R333). -/
structure ModelSet where
  classes : List TileClass := []
  pageOff : List Nat := []
  /-- Frame-class entries that are not resident (R288): tile loads alone write them. -/
  loaded : List Nat := []
  base : Nat := 0
  drzArea : Nat := 0
  cbs : List (List Byte) := []
  esc : List Nat := []
  prefixW : List Nat := []
  suffixW : List Nat := []
  a : Nat := 0
  t : Nat := 0
  drzRaw : List Byte := []
  /-- The section's digest (R493). -/
  digest : List Byte := []
  deriving DecidableEq, Repr, Inhabited

/-- The class of an entry. -/
def ModelSet.classOf (m : ModelSet) (e : Nat) : TileClass := m.classes.getD e .free

/-- Weight-file entries that a multicast writes: line-class ones and the resident frame-class ones (R288). -/
def ModelSet.written (m : ModelSet) : List Nat :=
  (List.range 64).filter fun e => m.classOf e = .line || (m.classOf e = .frame && !m.loaded.contains e)

/-- A weight page as 4096 codes (R147): byte 32 r + c/2, low half for even c. -/
def pageCodes (page : List Byte) : List Nat :=
  (List.range 4096).map fun i => bits (byteAt page (32 * (i / 64) + i % 64 / 2)) (4 * (i % 2)) 4

/-- The program (R284) with the container values that the device reads beside it (R157, R275, R571). -/
structure Program where
  modeRaw : List (List Byte) := []
  modes : List Mode := []
  scheds : List Schedule := []
  msets : List ModelSet := []
  /-- Output-format conversion: nine matrix entries, three offsets (R157). -/
  convM : List Int := [4096, 0, 0, 0, 4096, 0, 0, 0, 4096]
  convO : List Int := [0, 0, 0]
  /-- Polyphase taps: 64 phases of 4 vertical and of 6 horizontal coefficients, for the fallback
  scaler and for the resize stage (R91, R102). -/
  fbV : List (List Int) := []
  fbH : List (List Int) := []
  rsV : List (List Int) := []
  rsH : List (List Int) := []
  /-- RB_BASE as an offset in DRAM (R334). -/
  rbBase : Nat := 0
  /-- Default grain parameters of modes 0 to 7 (R361). -/
  frost : List (List Byte) := []
  /-- Program digest (R493). -/
  digest : List Byte := []
  deriving DecidableEq, Repr, Inhabited

/-- The container's model sets with their numbers (R490): a number without a section holds none. -/
def Program.sets (p : Program) : List (ModelSet × Nat) := p.msets.zipIdx.filter fun m => m.1.digest != []
/-- The mode record of an identifier (R285). -/
def Program.mode (p : Program) (id : Nat) : Option Mode := p.modes.find? fun m => m.id == id
/-- Buckets listed by any mode (R284), as a mask. -/
def Program.buckets (p : Program) : Nat := p.modes.foldl (fun a m => a ||| m.buckets) 0
/-- The schedule index a mode names for a bucket (R285). -/
def Program.schedOf (p : Program) (mode bucket : Nat) : Nat :=
  match p.mode mode with
  | none => 0xFF
  | some m => m.sched.getD bucket 0xFF

/-- Bucket sizes (R95). -/
def bucketSize (n : Nat) : Nat × Nat :=
  match n with
  | 0 => (1280, 720) | 1 => (1920, 1080) | 2 => (2560, 1440) | 3 => (3840, 2160) | _ => (7680, 4320)

/-- Segment width (R257): `w` output width, `u` segment unit, `n` cores. -/
def segWidth (w u n l : Nat) : Nat :=
  let units := w / u
  let q := units / n
  let r := units - q * n
  u * (q + (if l < r then 1 else 0))
/-- First output column of segment l (R257). -/
def segX0 (w u n l : Nat) : Nat :=
  let units := w / u
  let q := units / n
  let r := units - q * n
  u * (l * q + min l r)

/-- Stripe height and first line of band b (R260): `h` frame height, `u` stripe unit, `nb` bands. -/
def stripeHeight (h u nb b : Nat) : Nat := segWidth h u nb b
/-- First line of a band's stripe (R260). -/
def stripeY0 (h u nb b : Nat) : Nat := segX0 h u nb b

/-- The segment unit of a schedule (R257): the largest shuffle factor among its line clauses' Suffix
layers, as logical core 0's layers give it. -/
def Schedule.segUnit (s : Schedule) : Nat :=
  (s.lineClauses.flatMap fun c =>
    (List.range c.layerCount).filterMap fun i =>
      let d := s.layer 0 (c.firstLayer + i)
      if d.engine = 2 then some d.s else none).foldl max 1

/-- Slot classes of a round of 100 fabric cycles (R275): 0 read, 1 write, 2 remote. -/
def portRoundFrom (share : List Int) : Nat → List Int → List Nat
  | 0, _ => []
  | n + 1, credit =>
    let c := (List.range 3).map fun i => credit.getD i 0 + share.getD i 0
    let k := if c.getD 0 0 ≥ c.getD 1 0 ∧ c.getD 0 0 ≥ c.getD 2 0 then 0
      else if c.getD 1 0 ≥ c.getD 2 0 then 1 else 2
    k :: portRoundFrom share n (c.set k (c.getD k 0 - 100))

/-- The slot classes of one round, dealt from the shares READ, WRITE and REMOTE (R275). -/
def portRound (read write remote : Nat) : List Nat :=
  portRoundFrom [(read : Int), write, remote] 100 [0, 0, 0]

end Sys2Proof
end

