-- ==== Sys2Proof/Machine/TypesPower.lean ====
section
/-! DEFINITION. Parts of the state that belong to power, supplies, weathering (chapter 20), boot (chapter 19) and the
module's sequencer (chapter 21). Plain data. -/
namespace Sys2Proof

/-- A transition between power states (R509 to R512): Breeze to Gale while the bands power up; entry into Doldrums,
waiting for its boundary or since its start; exit from Doldrums. -/
inductive Trans where
  | idle
  | toBreeze
  | powerUp (start : Nat)
  | toGale
  | enterWait
  | enter (start : Nat)
  | exit (start : Nat)
  deriving DecidableEq, Repr, Inhabited

/-- What one weathering measurement found for a core (R521): SLACK in picoseconds and AGE. -/
structure Meas where
  core : Nat
  slack : Int
  age : Nat
  deriving DecidableEq, Repr, Inhabited

/-- The power, supply, thermal and weathering monitors beside their registers. -/
structure PwrSt where
  trans : Trans := .idle
  /-- Next instant of R368, in fabric cycles; samples and power of the millisecond in progress (R517). -/
  sampleDue : Nat := 150000
  msCount : Nat := 0
  msPower : Nat := 0
  /-- Dip episode (R515): the supply that began it, since when a supply is below its warning level, cycles below so
  far, lowest levels in mV, and the end of the hold-off. -/
  dipSupply : Nat := 0
  dipFrom : Option Nat := none
  dipLen : Nat := 0
  dipMin : Nat × Nat := (0, 0)
  holdEnd : Option Nat := none
  episode : Bool := false
  /-- The record that a supply reset leaves (R516, R530): supply, lowest level, length. Lost only with power. -/
  latch : Option (Nat × Nat × Nat) := none
  /-- Next measurement (R521); consecutive measurements at which a bin stood G_HYST above the guard, by 4 × core + bin
  (R524); the core that RESTORE names (R529). -/
  wxDue : Nat := 0
  good : SMap Nat := []
  restore : Option Nat := none
  /-- The bin at which each core's last SLACK was measured (R522). -/
  measBin : SMap Nat := []
  /-- BIN_PLAN values that take effect at the next boundary, plus one (R524). -/
  planNext : SMap Nat := []
  /-- Spares that take ROLE 2 at the next boundary, with the reason, and retired cores of slot 8 that take ROLE 1
  (R526, R529). -/
  spareOut : List (Nat × Nat) := []
  spareBack : List Nat := []
  deriving DecidableEq, Repr, Inhabited

/-- The module's sequencer (R548, R550, R551): the input switch and PWR_GOOD. -/
structure SeqSt where
  switch : Bool := true
  pwrGood : Bool := true
  deriving DecidableEq, Repr, Inhabited

/-- What the fuses and the OTP of a module hold (R491, R461, R473, R474, R215, R419): serial number, MAC address, key
hash, device secret, manufacturing signature, and the rows mapped out at the factory: (core, row), (band, row), DRAM
rows. -/
structure Fuses where
  serial : List (BitVec 8) := []
  mac : List (BitVec 8) := []
  keyHash : List (BitVec 8) := []
  secret : List (BitVec 8) := []
  mfgSig : List (BitVec 8) := []
  spad : List (Nat × Nat) := []
  ls : List (Nat × Nat) := []
  dram : List Nat := []
  deriving DecidableEq, Repr, Inhabited

/-- What the NOR answers in stage 2 (R485, R488): its density in MiB and whether SFDP shows the tables and the erase type
that R485 asks for, and the bytes read from byte 0 to the end of the signature block. -/
structure FlashIn where
  present : Bool
  sfdp : Bool
  mib : Nat
  head : List (BitVec 8)
  deriving DecidableEq, Repr, Inhabited

/-- How a boot stage's work ended (R497): the fuses read; the NOR's head; DRAM rows that failed BIST; ledger slots that
read back otherwise than the device last wrote them (programmed from outside, or torn); cores, scratchpad rows and
line-store rows that failed BIST; one section's bytes (stage 6 ends with the last); stage 7's work. -/
inductive StageIn where
  | reset
  | rom (f : Fuses)
  | flash (f : FlashIn)
  | dram (bad : List Nat)
  | ledger (changed : List (Nat × List (BitVec 8)))
  | logic (cores : List Nat) (spad ls : List (Nat × Nat))
  | sect (bytes : List (BitVec 8))
  | load
  deriving DecidableEq, Repr, Inhabited

/-- What the boot has done so far (R497). -/
structure BootSt where
  /-- Fabric cycles from PWR_GOOD's rise to this reset (R506). -/
  sinceGood : Nat := 0
  /-- The reset's cause (R516, R532): 0 rise of PWR_GOOD, 1 RESET, 2 and 3 the supplies. -/
  cause : Nat := 0
  /-- A device reset that has been started, its cause and when it takes place (R481, R484). -/
  resetAt : Option (Nat × Nat) := none
  /-- Stages whose work is done, and the cycle in which training began. -/
  done : List Nat := []
  trainAt : Nat := 0
  fuses : Fuses := {}
  /-- A container has been verified (R473), its section table, and the sections streamed so far. -/
  verified : Bool := false
  table : List (List (BitVec 8)) := []
  loaded : Nat := 0
  program : List (BitVec 8) := []
  msets : List (Nat × ModelSet) := []
  /-- Host keys by slot, and the HDCP material in the protected store (R490, R496). -/
  hostKeys : List (Nat × List (BitVec 8)) := []
  hdcp : List (BitVec 8) := []
  deriving DecidableEq, Repr, Inhabited

end Sys2Proof
end

