-- ==== Sys2Proof/Syntax.lean ====
section
/-! DEFINITION. The commands of the block, one constructor per row of the opcode table in its order. Operands are what the
command names in the machine (an almanac entry `i`, a physical core `p`, a band `b`, a port `n`, a thread `t`, a stream engine
`g`) and what the world, or the program that a container holds, decides (a measured level, an access that met an error, a
received frame). -/
namespace Sys2Proof

/-- A command (the rule is the one that the table names). -/
inductive Instr where
  /-- R43: the line-period accumulator reaches CAL_LP, so a new calendar line begins and the accumulator is reduced
  by CAL_LP. -/
  | lineStart
  /-- R42: phase 0 of line 0 arrives after V_TOTAL lines, so the output frame number increments and all
  boundary-timed updates apply. -/
  | frameBoundary
  /-- R51: A rising edge of SYNC_IN is timestamped and kept until it is assigned to a boundary window as a measured
  pulse or ignored. -/
  | syncInEdge
  /-- R233: an almanac kind-0 entry fires and starts a descriptor list on an engine with line base from NUM and DEN.
  -/
  | startDescriptorList (i : Nat)
  /-- R252: A pending list becomes current in the cycle after the current list reaches final completion. -/
  | pendingListStart (g : EngId)
  /-- R60: an almanac kind-1 entry fires at S(y) and starts the line clause for its output line on every logical
  core taking part. -/
  | startLineClause (i : Nat) (owed : List (Nat × List Owed))
  /-- R104: A fallback segment becomes complete 600 fabric cycles after the later of S(y) and the arrival of its
  last input row. -/
  | fallbackSegmentComplete (f y : Nat) (l : EccAt)
  /-- R63: an almanac kind-2 entry fires at D(y), and the line selector takes each segment from the neural, fallback
  or repeat source. -/
  | lineDeadline (i : Nat) (owed : List (Nat × List Owed))
  /-- R161: an almanac kind-3 entry fires and the frame-clause threads may issue. -/
  | openFrameClauseWindow (i : Nat)
  /-- R161: an almanac kind-4 entry fires and the frame-clause threads are suspended. -/
  | closeFrameClauseWindow (i : Nat)
  /-- R380: an almanac kind-5 entry with ARG 0 starts fetching a line of both graphics planes and of the forced safe
  images. -/
  | graphicsFetch (i : Nat)
  /-- R378: an almanac kind-5 entry with ARG 1 composes an output line from the video and graphics planes as the
  pixels arrive. -/
  | composeLine (i : Nat) (late : List (Nat × Nat))
  /-- R389: an almanac kind-6 entry places a line in the capture queue, or abandons the frame's capture when the
  queue is full. -/
  | captureLine (i : Nat)
  /-- R388: A queued capture line is written to its buffer, with the status block written at the frame's start and
  end. -/
  | captureWrite
  /-- R301: the kind-7 entry for the sampled model set fires, opens the multicast window and multicasts the new set
  into every core. -/
  | openModelSetWindow (i : Nat) (bad : List Nat)
  /-- R74: A write that changes INP_PORT_CFG takes the port's HPD low for 100 ms. -/
  | portCfgWrite (n : Nat) (v : Word)
  /-- R74: the 100 ms HPD low pulse expires and HPD is driven high. -/
  | hpdPulseEnd (n : Nat)
  /-- R72: the source trains or falls back the DisplayPort link rate and lane count. -/
  | dpLinkTraining (n rate lanes : Nat) (ok : Bool)
  /-- R85: A DSC PPS is received and accepted or rejected with a reason code. -/
  | ppsReceived (n : Nat) (pps : Pps)
  /-- R72: A VSC or HDR metadata SDP is decoded and reported; other SDPs are discarded. -/
  | sdpReceived (n : Nat) (sdp : Sdp)
  /-- R88: the source runs HDCP 2.3 authentication with the port's receiver. -/
  | hdcpAuthentication (n : Nat) (ok : Bool)
  /-- R82: A loss condition such as lock loss over 2 µs or a missing vertical blanking clears SIGNAL. -/
  | signalLost (n : Nat) (c : LossCause)
  /-- R78: the first active line after the source's vertical blanking starts an input frame. -/
  | inputFrameStart (n : Nat) (a : SrcAttr)
  /-- R71: A source line arrives and passes the input pipeline stages. -/
  | inputLine (n y : Nat) (l : SrcLine) (causes : List Nat)
  /-- R101: A ready line is written, once every line above it is written, to the band line stores and the
  input-frame history. -/
  | stage10LineWrite
  /-- R83: while the input is zero-sized, the blank path supplies a repeated or black frame at the last measured
  period. -/
  | blankPathFrame
  /-- R141: the issue unit issues an array step that builds product tables and accumulates into the thread's bank. -/
  | issueStep (p t : Nat) (o : StepOp) (w : CoreIn)
  /-- R208: the 2-cycle correction stall expires and the core continues. -/
  | correctionStallEnd (p : Nat)
  /-- R147: A frame-clause thread starts writing a weight-file entry from a scratchpad weight page. -/
  | tileLoad (p t prn e : Nat) (w : CoreIn)
  /-- R147: the 64-cycle tile load ends and the entry becomes selectable. -/
  | tileLoadComplete (p e : Nat)
  /-- R149: in vertical blanking with no line in flight, a failing entry is rewritten from DRAM and WF_SCRUBS
  increments. -/
  | weightFileRewrite (p : Nat)
  /-- R154: the Prefix engine runs a first layer over its positions. -/
  | prefixLayer (p t layer line oy : Nat) (w : CoreIn)
  /-- R155: the Suffix engine runs a last layer with pixel shuffle and output conversion. -/
  | suffixLayer (p t layer line oy : Nat) (w : CoreIn)
  /-- R158: the Suffix engine writes a segment output buffer row once the row has been freed. -/
  | suffixRowWrite (p : Nat)
  /-- R162: A change of BIN_EFF takes effect in the core within 64 fabric cycles, and CHANGES increments. -/
  | binEffChange (p : Nat)
  /-- R246: A clause's operations, lists, signals and releases are complete, so the next clause may begin and the
  semaphores are checked. -/
  | clauseDrained (p t : Nat) (d : DrainIn)
  /-- R243: A wait proceeds and decrements COUNT in the first cycle in which COUNT is above 0. -/
  | semaphoreWait (p t line i : Nat)
  /-- R243: A signal arrives and increments COUNT up to CAP, counting OVERFLOWS or being absorbed by DEBT. -/
  | semaphoreSignalArrival (g : SigIn)
  /-- R240: A thread's await on an engine proceeds when LANDED differs from CONSUMED. -/
  | awaitTile (p t line e : Nat)
  /-- R240: A thread's consume operation increments CONSUMED. -/
  | consumeTile (p t line e : Nat)
  /-- R233: A thread starts a list with the stream-start operation, using its run line as line base. -/
  | threadStreamStart (p t line list : Nat)
  /-- R201: A waiting background scratchpad access is served in a cycle free of foreground accesses to its bank. -/
  | backgroundAccess (p a n : Nat) (write busy : Bool) (e : EccIn)
  /-- R214: in vertical blanking a queued row is copied to a spare and redirected, with a ledger record appended. -/
  | scratchpadMapOut (p : EccAt)
  /-- R238: an engine reads a burst of eight descriptors into its buffer once eight places are free. -/
  | descriptorBurstRead (g : EngId) (w : CoreIn)
  /-- R238: an engine issues a transfer once it has room for outstanding transfers, its source line is present and
  its semaphore wait is satisfied. -/
  | transferIssue (g : EngId)
  /-- R238: A transfer's data has been written at every destination. -/
  | transferComplete (g : EngId) (n : Nat) (w : CoreIn)
  /-- R224: A producer writes a line into an empty slot and marks it present with COUNT and FBH set. -/
  | lineStoreSlotWrite (p t line n y : Nat)
  /-- R250: every 4096 fabric cycles a halted list retries its faulting read and resumes if the read succeeds. -/
  | haltRetryTimer (g : EngId)
  /-- R250: A host write of RETRY makes a halted list retry in the next cycle. -/
  | engineRetry (g : EngId)
  /-- R251: A host write of ABORT ends a halted frame-class list and fails the clause's output. -/
  | engineAbort (g : EngId)
  /-- R277: A multicast transfer is accepted at every target 40 + ⌈B/512⌉ fabric cycles after issue. -/
  | multicastAccepted
  /-- R266: A remote transfer reaches the owner's window and is written or dropped. -/
  | remoteTransferArrival (n : EccAt)
  /-- R278: A frame-clause thread arrives at a barrier and waits. -/
  | barrierArrive (p t line g : Nat)
  /-- R278: A barrier completes in every member 18 + 4⌈log₂N⌉ fabric cycles after the last arrival. -/
  | barrierComplete (g : Nat)
  /-- R281: A write of ARM arms a consistent snapshot or refuses it with a reason. -/
  | snapshotArm (bands : BitVec 8) (spad ls : Bool)
  /-- R282: A write of CANCEL cancels an armed snapshot. -/
  | snapshotCancel
  /-- R280: once outstanding transfers complete, the bands begin copying 512 KiB per LP. -/
  | snapshotCopyStart
  /-- R280: the snapshot copy ends and the cores resume. -/
  | snapshotCopyComplete
  /-- R272: in a handover interval at least 1 ms after the decision, the outgoing core stops and its tables move to
  the incoming core. -/
  | handoverStart (b : Nat)
  /-- R283: every register and unit returns to its reset state within 2 µs, and DRAM retraining begins. -/
  | deviceReset (low : Bool)
  /-- R283: DRAM retraining finishes after about 180 ms, so DRAM becomes usable. -/
  | dramTrainingComplete (ok : Bool)
  /-- R293: A MODE_REQ that differs from MODE_CUR decides a change of schedule, or is held while the power state
  does not match. -/
  | modeRequest (v : Word)
  /-- R294: in the first handover interval after the decision, the frame clauses stop and the new schedule is
  installed. -/
  | scheduleChange
  /-- R317: A warp unit writes a warp ring row once its slot is empty and marks it present. -/
  | warpRowWrite (b : Nat)
  /-- R323: once every band has drained the detection run, the box unit decodes, suppresses and rasterises boxes. -/
  | boxUnitRun (latency : Nat)
  /-- R326: the box unit finishes writing the box list and raster, so the run's outputs are finished. -/
  | boxUnitComplete
  /-- R335: after A(j) the crop grabber takes CPF crops of frame j into replay slots. -/
  | cropGrab
  /-- R341: A queued Drizzle step latches E, D and the adapter version and begins. -/
  | drizzleStepStart
  /-- R340: the augment unit writes an augmented crop into a core's SAMPLE_PRN and signals SAMPLE_SEM. -/
  | augmentSample (l : Nat)
  /-- R345: A gradient operation accumulates the outer products for one adapter tile and writes the partials to
  GSUM_PRN. -/
  | gradientOperation (p i : Nat) (w : CoreIn)
  /-- R343: the Drizzle clause ends in a core once its partial gradients are written. -/
  | drizzleClauseEnd (p : Nat) (sems : List Nat)
  /-- R348: the reduction and update finish, and the new state copy becomes current. -/
  | drizzleUpdateComplete (latency : Nat)
  /-- R351: live and transposed pages of a due commit are generated into a free page buffer and multicast to every
  core. -/
  | commitPageGeneration (latency : Nat)
  /-- R351: every core has completed its commit writes into the inactive adapter bank. -/
  | commitReady
  /-- R353: A write setting EN enables Drizzle from the next boundary, which becomes N0. -/
  | drizzleEnable
  /-- R353: A write clearing EN stops new steps and empties the queue at the next boundary. -/
  | drizzleDisable
  /-- R353: A write of RESET abandons the step and rewrites the initial states, pages, counters and seed. -/
  | drizzleReset
  /-- R137: A write of CLR clears the live counts and the read bank. -/
  | histogramClear (p u : Nat)
  /-- R360: generation of the next frame's grain templates completes. -/
  | grainTemplatesDone
  /-- R358: frost streams the released line with grain to the composer, starting 8 cycles after D(y). -/
  | frostLine (f y : Nat)
  /-- R365: the controller runs RSTDAA, SETDASA and DISEC to assign I3C sensor addresses. -/
  | i3cAddressAssignment
  /-- R367: A sensor's read falls due and is made, skipped or NACKed. -/
  | sensorRead (i : Nat) (r : I3cResult)
  /-- R368: every 100 µs the diodes, input power and core rail are sampled. -/
  | internalSample (temps : List Int) (v12 i12 vcore : Nat)
  /-- R397: A data stripe is sent once all its bytes are present, and FILL is sent otherwise. -/
  | dataStripeSend (t : Nat)
  /-- R404: the lanes leave electrical idle and send TRAIN stripes. -/
  | trainingStart
  /-- R404: after PANEL_RDY has been high for 10 µs, the lanes send IDLE and STATE becomes running. -/
  | panelLinkRunning
  /-- R404: training not running after 10 ms increments TRAIN_FAIL and idles the lanes for 100 µs before retrying. -/
  | trainingTimeout
  /-- R405: PANEL_RDY read low while running starts a retraining. -/
  | panelRdyLow
  /-- R405: A host write of RETRAIN restarts link training. -/
  | panelRetrain
  /-- R407: the host sets EN of PNL_CTRL, which ends safe idle and starts training. -/
  | panelEnSet
  /-- R407: the host clears EN of PNL_CTRL, which puts the lanes into safe idle. -/
  | panelEnClear
  /-- R407: after 64 SAFE blocks the lanes go to electrical idle. -/
  | safeSequenceEnd
  /-- R426: A port arbiter grants one access by tier and then by lottery. -/
  | portGrant (port : Nat) (asks : List PortAsk)
  /-- R415: A channel serves a queued access in an ordinary slot by tier, open row and age. -/
  | dramAccess (ch : Nat) (e : EccIn)
  /-- R415: A maintenance slot performs a refresh. -/
  | refresh (ch : Nat)
  /-- R418: every 100 µs each channel reads the next block in address order. -/
  | patrolScrubRead (ch : Nat) (e : EccIn)
  /-- R418: A block with a corrected beat is written back in the next maintenance slot unless accessed meanwhile. -/
  | scrubWriteback (ch : Nat)
  /-- R419: A queued DRAM row is copied to a spare in maintenance slots and redirected. -/
  | dramRowMapOut
  /-- R448: the writer writes a record in three ordered writes, and REC_LAST takes its frame number. -/
  | frameRecordWrite
  /-- R452: the audit unit writes buffered log entries, losing or wrapping them when full. -/
  | logEntryWrite
  /-- R455: A write of GO checks the log head and starts replay or refuses it. -/
  | replayGo
  /-- R455: A recorded WRITE entry is applied in the fabric cycle of its TIME. -/
  | replayWriteApply
  /-- R457: at the log's end or a LOST entry, the replay ends and the world becomes the source again. -/
  | replayEnd
  /-- R460: auto-negotiation completes and the control link comes up. -/
  | phyLinkUp (master : Bool)
  /-- R462: an Ethernet frame is received and filtered, and non-matching frames are discarded. -/
  | ethernetFrameRx (f : List Byte) (fcs : Bool)
  /-- R473: the IDENT operation returns identity, serial, key and digest. -/
  | ident
  /-- R467: the READ_REG operation reads consecutive registers. -/
  | readReg
  /-- R468: the WRITE_REG operation applies register write entries one per cycle. -/
  | writeReg
  /-- R469: the READ_MEM operation reads DRAM window bytes. -/
  | readMem
  /-- R469: the WRITE_MEM operation writes DRAM window bytes in kind-0 regions. -/
  | writeMem
  /-- R470: the LOAD_PAGE operation takes a half of a weight page and writes the page after a CRC check. -/
  | loadPage
  /-- R471: the STATUS operation samples status block 0, now or at the next boundary. -/
  | status
  /-- R472: the RECORDS operation returns up to three frame records from the ring. -/
  | records
  /-- R475: the ATTEST operation signs the container or frame records with the identity key. -/
  | attest
  /-- R476: the CHALLENGE operation issues a nonce and an ephemeral key. -/
  | challenge
  /-- R477: the OPEN operation verifies the host signature and opens a privileged session. -/
  | openSession
  /-- R479: the CLOSE operation closes the session. -/
  | closeSession
  /-- R509: the POWER operation requests a power state and starts a transition. -/
  | power
  /-- R481: the RESET operation starts a device reset 100 µs after its response. -/
  | resetDevice
  /-- R476: an outstanding challenge expires 10 s after issue. -/
  | challengeExpiry
  /-- R476: the 5 s CHALLENGE lockout after four failed OPENs ends. -/
  | lockoutEnd
  /-- R479: A session closes after SESS_IDLE seconds without an accepted AUTH request. -/
  | sessionIdleTimeout
  /-- R14: A host write to a register with no behaviour of its own updates its writable fields, or is refused and
  counted. -/
  | registerWrite (a : BitVec 40) (v : Word)
  /-- R548: PWR_GOOD rises once the rails are in regulation and starts a device reset and boot. -/
  | pwrGoodRise
  /-- R497: A boot stage's work completes and the boot advances to the stages it enables. -/
  | bootStageComplete (i : StageIn)
  /-- R499: with stage 7 done and HOLD 0, COMPLETE is set, RWL fields lock and the calendar and lanes start. -/
  | bootComplete
  /-- R504: A queued ledger record is appended to the first unused slot with one page program. -/
  | ledgerAppend
  /-- R511: bands 4 to 7 are powered, cleared and loaded, so the change of schedule to Gale is decided. -/
  | bandPowerUpDone
  /-- R512: 12 ms into the exit, the calendar restarts in FREE and the lanes and link retrain. -/
  | doldrumsExitComplete
  /-- R515: A supply crossing its warning level starts a dip episode and derates every core by one bin. -/
  | supplyWarning (supply v12 vcore : Nat)
  /-- R515: both supplies rise above their recovery levels and the 5 ms hold-off starts. -/
  | supplyRecovery (v12 vcore : Nat)
  /-- R515: the hold-off ends, BIN_DIP returns to 0 and a SUPPLY record is appended. -/
  | holdoffExpiry
  /-- R516: A supply crossing its reset level latches the cause and starts a device reset. -/
  | supplyReset (supply v12 vcore : Nat)
  /-- R521: at each measurement period, the cores' SLACK and AGE are measured and the cores are re-planned. -/
  | weatheringMeasurement (ms : List Meas)
  /-- R529: A write of RESTORE asks the monitor to test a retired or stopped core for return to service. -/
  | restoreRequest (p : BitVec 7)
  /-- R551: A fall of REMOVE_N makes the lanes safe and stops DRAM writes and NOR programming until reset. -/
  | removeNFall
  /-- R548: after the input node, PWR_EN and REMOVE_N have held good for 20 ms, the sequencer closes the input
  switch. -/
  | inputSwitchClose
  /-- R548: the input node falling below 9.0 V, or PWR_EN low for 1 ms, opens the switch and drops PWR_GOOD. -/
  | inputSwitchOpen
  /-- R482: the control link leaves the up state, so STATE of TPL_LINK falls, LINK_DOWNS increments and requests
  arriving are lost until the link returns. -/
  | phyLinkDown (restart : Bool)
  /-- R300: the model-set multicast window closes 5480 fabric cycles after its kind-7 entry fired, so MWIN clears
  and the core may again issue line-clause work. -/
  | modelSetWindowClose
  /-- R512: 0.5 ms after entry into Doldrums begins, cores and bands are off and DRAM is in self-refresh, the
  control link is renegotiated, and the transition ends with STATE showing Doldrums. -/
  | doldrumsEntryComplete
  /-- R72: the source makes a native AUX or I2C-over-AUX transaction on a port, and the port answers from its DPCD
  or from the EDID and DisplayID content of the container. -/
  | auxTransaction (n : Nat) (r : AuxReq)
  /-- R222: A row queued for map-out in a band line store is copied to one of the bank's spare rows and redirected,
  with BAND_LS_MAP updated and a ledger record appended. -/
  | lineStoreMapOut (b : EccAt)
  deriving DecidableEq, Repr

end Sys2Proof
end

