-- ==== Sys2Proof/Machine/Digest.lean ====
section
/-! DEFINITION. SHA-384, HMAC-SHA-384 and HKDF-SHA-384, which R443 to R446, R474, R477, R478 and R491
name. The algorithms and their constants are the published standards' (FIPS 180-4, RFC 2104,
RFC 5869), PRESUMED from outside the spec (log entry 12). -/
namespace Sys2Proof

/-- SHA-384 round constants, rounds 0 to 39. -/
def sha512KA : List Nat :=
  [0x428A2F98D728AE22, 0x7137449123EF65CD, 0xB5C0FBCFEC4D3B2F, 0xE9B5DBA58189DBBC,
   0x3956C25BF348B538, 0x59F111F1B605D019, 0x923F82A4AF194F9B, 0xAB1C5ED5DA6D8118,
   0xD807AA98A3030242, 0x12835B0145706FBE, 0x243185BE4EE4B28C, 0x550C7DC3D5FFB4E2,
   0x72BE5D74F27B896F, 0x80DEB1FE3B1696B1, 0x9BDC06A725C71235, 0xC19BF174CF692694,
   0xE49B69C19EF14AD2, 0xEFBE4786384F25E3, 0x0FC19DC68B8CD5B5, 0x240CA1CC77AC9C65,
   0x2DE92C6F592B0275, 0x4A7484AA6EA6E483, 0x5CB0A9DCBD41FBD4, 0x76F988DA831153B5,
   0x983E5152EE66DFAB, 0xA831C66D2DB43210, 0xB00327C898FB213F, 0xBF597FC7BEEF0EE4,
   0xC6E00BF33DA88FC2, 0xD5A79147930AA725, 0x06CA6351E003826F, 0x142929670A0E6E70,
   0x27B70A8546D22FFC, 0x2E1B21385C26C926, 0x4D2C6DFC5AC42AED, 0x53380D139D95B3DF,
   0x650A73548BAF63DE, 0x766A0ABB3C77B2A8, 0x81C2C92E47EDAEE6, 0x92722C851482353B]

/-- SHA-384 round constants, rounds 40 to 79. -/
def sha512KB : List Nat :=
  [0xA2BFE8A14CF10364, 0xA81A664BBC423001, 0xC24B8B70D0F89791, 0xC76C51A30654BE30,
   0xD192E819D6EF5218, 0xD69906245565A910, 0xF40E35855771202A, 0x106AA07032BBD1B8,
   0x19A4C116B8D2D0C8, 0x1E376C085141AB53, 0x2748774CDF8EEB99, 0x34B0BCB5E19B48A8,
   0x391C0CB3C5C95A63, 0x4ED8AA4AE3418ACB, 0x5B9CCA4F7763E373, 0x682E6FF3D6B2B8A3,
   0x748F82EE5DEFB2FC, 0x78A5636F43172F60, 0x84C87814A1F0AB72, 0x8CC702081A6439EC,
   0x90BEFFFA23631E28, 0xA4506CEBDE82BDE9, 0xBEF9A3F7B2C67915, 0xC67178F2E372532B,
   0xCA273ECEEA26619C, 0xD186B8C721C0C207, 0xEADA7DD6CDE0EB1E, 0xF57D4F7FEE6ED178,
   0x06F067AA72176FBA, 0x0A637DC5A2C898A6, 0x113F9804BEF90DAE, 0x1B710B35131C471B,
   0x28DB77F523047D84, 0x32CAAB7B40C72493, 0x3C9EBE0A15C9BEBC, 0x431D67C49C100D4C,
   0x4CC5D4BECB3E42B6, 0x597F299CFC657E2A, 0x5FCB6FAB3AD6FAEC, 0x6C44198C4A475817]

/-- SHA-384 initial hash value. -/
def sha384Init : List Nat :=
  [0xCBBB9D5DC1059ED8, 0x629A292A367CD507, 0x9159015A3070DD17, 0x152FECD8F70E5939,
   0x67332667FFC00B31, 0x8EB44A8768581511, 0xDB0C2E0D64F98FA7, 0x47B5481DBEFA4FA4]

/-- Rotate a 64-bit value right. -/
def rotr64 (x n : Nat) : Nat := x / 2 ^ n + x % 2 ^ n * 2 ^ (64 - n)

/-- Bitwise complement of a 64-bit value. -/
def not64 (x : Nat) : Nat := x ^^^ 0xFFFFFFFFFFFFFFFF

/-- The next message-schedule word from the last sixteen, newest first. -/
def sha512Next (w : List Nat) : Nat :=
  let a := w.getD 1 0
  let b := w.getD 14 0
  let s1 := rotr64 a 19 ^^^ rotr64 a 61 ^^^ (a / 2 ^ 6)
  let s0 := rotr64 b 1 ^^^ rotr64 b 8 ^^^ (b / 2 ^ 7)
  (s1 + w.getD 6 0 + s0 + w.getD 15 0) % 2 ^ 64

/-- Extend the schedule by `n` words (newest first). -/
def sha512Sched : Nat → List Nat → List Nat
  | 0, w => w
  | n + 1, w => sha512Sched n (sha512Next w :: w)

/-- One round on the eight working variables. -/
def sha512Round (v : List Nat) (k w : Nat) : List Nat :=
  match v with
  | [a, b, c, d, e, f, g, h] =>
    let s1 := rotr64 e 14 ^^^ rotr64 e 18 ^^^ rotr64 e 41
    let ch := (e &&& f) ^^^ (not64 e &&& g)
    let t1 := h + s1 + ch + k + w
    let s0 := rotr64 a 28 ^^^ rotr64 a 34 ^^^ rotr64 a 39
    let mj := (a &&& b) ^^^ (a &&& c) ^^^ (b &&& c)
    [(t1 + s0 + mj) % 2 ^ 64, a, b, c, (d + t1) % 2 ^ 64, e, f, g]
  | _ => v

/-- The compression of one 128-byte block, given as its sixteen words. -/
def sha512Block (hs : List Nat) (blk : List Nat) : List Nat :=
  let w := (sha512Sched 64 blk.reverse).reverse
  let v := ((sha512KA ++ sha512KB).zip w).foldl (fun v kw => sha512Round v kw.1 kw.2) hs
  (hs.zip v).map fun p => (p.1 + p.2) % 2 ^ 64

/-- Split into big-endian 64-bit words; `n` words. -/
def words64 : Nat → List Byte → List Nat
  | 0, _ => []
  | n + 1, bs => beNat (sliceB bs 0 8) :: words64 n (bs.drop 8)

/-- Run the compression over `n` blocks. -/
def sha512Run : Nat → List Nat → List Byte → List Nat
  | 0, hs, _ => hs
  | n + 1, hs, bs => sha512Run n (sha512Block hs (words64 16 (bs.take 128))) (bs.drop 128)

/-- SHA-384 of a byte list: 48 bytes. -/
def sha384 (bs : List Byte) : List Byte :=
  let l := bs.length
  let z := (128 - (l + 17) % 128) % 128
  let m := bs ++ [0x80#8] ++ List.replicate z 0 ++ toBe 16 (8 * l)
  ((sha512Run (m.length / 128) sha384Init m).take 6).flatMap (toBe 8)

/-- HMAC-SHA-384 (block size 128 bytes). -/
def hmac384 (key msg : List Byte) : List Byte :=
  let k := padTo 128 (if 128 < key.length then sha384 key else key)
  sha384 (k.map (· ^^^ 0x5c#8) ++ sha384 (k.map (· ^^^ 0x36#8) ++ msg))

/-- HKDF-SHA-384 with an output of at most 48 bytes. -/
def hkdf384 (salt ikm info : List Byte) (n : Nat) : List Byte :=
  (hmac384 (hmac384 salt ikm) (info ++ [1#8])).take n

/-- The bytes of an ASCII text. -/
def ascii (s : String) : List Byte := s.toList.map fun c => BitVec.ofNat 8 c.toNat

end Sys2Proof
end

