-- ==== Sys2Proof/Machine/Fld.lean ====
section
/-! DEFINITION. Register fields as the spec's tables give them: where a field lies (R10, R13, R554),
its access code (the table above R14), its reset value and whether the container sets it (R21). -/
namespace Sys2Proof

/-- Access codes (the table above R14). -/
inductive Acc where
  | rw | ro | wo | w1c | rwl
  deriving DecidableEq, Repr

/-- A register field: the register's address, the field's lowest bit and width, its reset value,
its access code, and whether its Reset column reads "cfg" (R21: it then resets to zero and takes
its value from the container). -/
structure Fld where
  addr : Nat
  lo : Nat
  w : Nat
  rst : Nat
  acc : Acc
  cfg : Bool
  deriving DecidableEq, Repr

/-- The key under which the register file holds a field. -/
def Fld.key (f : Fld) : Nat := f.addr * 32 + f.lo

/-- The register file. `vals` holds the fields by key, an unlisted one at its reset value. `events` holds for each W1C field
the last cycle, plus one, in which hardware set it, and the bits set or the events counted in that cycle (R15, R19);
`writes` holds for each field that both the host and hardware change (the table of R14), and for each W1C field, the last
cycle, plus one, of a host write, and the value before that write (R15, R19). -/
structure RegFile where
  vals : SMap Nat := []
  events : SMap (Nat × Nat) := []
  writes : SMap (Nat × Nat) := []
  deriving DecidableEq, Repr, Inhabited

/-- A field takes a value. -/
def RegFile.put (r : RegFile) (f : Fld) (v : Nat) : RegFile := { r with vals := SMap.set f.rst r.vals f.key v }

/-- What hardware has set or counted in a W1C field in cycle `now` (R15, R19). -/
def RegFile.eventsIn (r : RegFile) (now : Nat) (f : Fld) : Nat :=
  let e := SMap.get (0, 0) r.events f.key
  if e.1 = now + 1 then e.2 else 0

/-- Hardware sets or counts in a field in cycle `now`. -/
def RegFile.note (r : RegFile) (now : Nat) (f : Fld) (v : Nat) : RegFile :=
  if f.acc = .w1c then { r with events := SMap.set (0, 0) r.events f.key (now + 1, v) } else r

/-- A register, or an array of registers of one layout: offset of the first in its block, how many,
the distance between two, and the fields of the i-th. -/
structure RegRow where
  off : Nat
  n : Nat
  stride : Nat
  flds : Nat → List Fld

/-- The fields of the register at offset `o` when this row holds it. -/
def RegRow.at? (r : RegRow) (o : Nat) : Option (List Fld) :=
  if o < r.off then none
  else if r.stride = 0 then (if o = r.off then some (r.flds 0) else none)
  else if (o - r.off) % r.stride = 0 ∧ (o - r.off) / r.stride < r.n then
    some (r.flds ((o - r.off) / r.stride))
  else none

end Sys2Proof
end

