-- ==== Sys2Proof/Machine/FieldsDev.lean ====
section
/-! DEFINITION. Register fields of the device blocks (R559 to R567). Each name is the spec's register and field; the rule cited defines it. -/
namespace Sys2Proof.F

/-- DEV_IDENT [15:0] PART, R555. -/
def DEV_IDENT_PART : Fld := ⟨0x0, 0, 16, 0x8440, .ro, false⟩
/-- DEV_IDENT [19:16] STEPPING, R555. -/
def DEV_IDENT_STEPPING : Fld := ⟨0x0, 16, 4, 1, .ro, false⟩
/-- DEV_STATUS [0:0] BOOTED, R556. -/
def DEV_STATUS_BOOTED : Fld := ⟨0x4, 0, 1, 0, .ro, false⟩
/-- DEV_STATUS [1:1] BOOT_FAIL, R556. -/
def DEV_STATUS_BOOT_FAIL : Fld := ⟨0x4, 1, 1, 0, .ro, false⟩
/-- DEV_STATUS [3:2] PSTATE, R556. -/
def DEV_STATUS_PSTATE : Fld := ⟨0x4, 2, 2, 0, .ro, false⟩
/-- DEV_STATUS [4:4] SIGNAL, R556. -/
def DEV_STATUS_SIGNAL : Fld := ⟨0x4, 4, 1, 0, .ro, false⟩
/-- DEV_STATUS [5:5] ENCRYPTED, R556. -/
def DEV_STATUS_ENCRYPTED : Fld := ⟨0x4, 5, 1, 0, .ro, false⟩
/-- DEV_STATUS [6:6] PANEL, R556. -/
def DEV_STATUS_PANEL : Fld := ⟨0x4, 6, 1, 0, .ro, false⟩
/-- DEV_STATUS [7:7] LOCKED, R556. -/
def DEV_STATUS_LOCKED : Fld := ⟨0x4, 7, 1, 0, .ro, false⟩
/-- DEV_STATUS [8:8] REALTIME, R556. -/
def DEV_STATUS_REALTIME : Fld := ⟨0x4, 8, 1, 0, .ro, false⟩
/-- DEV_STATUS [9:9] FALLBACK, R556. -/
def DEV_STATUS_FALLBACK : Fld := ⟨0x4, 9, 1, 0, .ro, false⟩
/-- DEV_STATUS [10:10] TD, R556. -/
def DEV_STATUS_TD : Fld := ⟨0x4, 10, 1, 0, .ro, false⟩
/-- DEV_STATUS [11:11] FAULT, R556. -/
def DEV_STATUS_FAULT : Fld := ⟨0x4, 11, 1, 0, .ro, false⟩
/-- DEV_STATUS [12:12] UNCORR, R556. -/
def DEV_STATUS_UNCORR : Fld := ⟨0x4, 12, 1, 0, .ro, false⟩
/-- DEV_STATUS [13:13] SUPPLY, R556. -/
def DEV_STATUS_SUPPLY : Fld := ⟨0x4, 13, 1, 0, .ro, false⟩
/-- DEV_STATUS [14:14] THERMAL, R556. -/
def DEV_STATUS_THERMAL : Fld := ⟨0x4, 14, 1, 0, .ro, false⟩
/-- DEV_STATUS [15:15] WEATHER, R556. -/
def DEV_STATUS_WEATHER : Fld := ⟨0x4, 15, 1, 0, .ro, false⟩
/-- DEV_STATUS [16:16] LEDGER, R556. -/
def DEV_STATUS_LEDGER : Fld := ⟨0x4, 16, 1, 0, .ro, false⟩
/-- DEV_STATUS [17:17] SESSION, R556. -/
def DEV_STATUS_SESSION : Fld := ⟨0x4, 17, 1, 0, .ro, false⟩
/-- DEV_STATUS [18:18] TAINT, R556. -/
def DEV_STATUS_TAINT : Fld := ⟨0x4, 18, 1, 0, .ro, false⟩
/-- DEV_STATUS [19:19] FORCED, R556. -/
def DEV_STATUS_FORCED : Fld := ⟨0x4, 19, 1, 0, .ro, false⟩
/-- DEV_STATUS [20:20] REPLAY, R556. -/
def DEV_STATUS_REPLAY : Fld := ⟨0x4, 20, 1, 0, .ro, false⟩
/-- DEV_STATUS [21:21] DIVERGED, R556. -/
def DEV_STATUS_DIVERGED : Fld := ⟨0x4, 21, 1, 0, .ro, false⟩
/-- DEV_STATUS [22:22] ACCESS, R556. -/
def DEV_STATUS_ACCESS : Fld := ⟨0x4, 22, 1, 0, .ro, false⟩
/-- DEV_STATUS [23:23] LOAD_FAULT, R556. -/
def DEV_STATUS_LOAD_FAULT : Fld := ⟨0x4, 23, 1, 0, .ro, false⟩
/-- DEV_ACCESS [15:0] RO_WRITES, R558. -/
def DEV_ACCESS_RO_WRITES : Fld := ⟨0x8, 0, 16, 0, .w1c, false⟩
/-- DEV_ACCESS [31:16] MISALIGNED, R558. -/
def DEV_ACCESS_MISALIGNED : Fld := ⟨0x8, 16, 16, 0, .w1c, false⟩
/-- DEV_BOOT [3:0] STAGE, R506. -/
def DEV_BOOT_STAGE : Fld := ⟨0x10, 0, 4, 0, .ro, false⟩
/-- DEV_BOOT [4:4] COMPLETE, R506. -/
def DEV_BOOT_COMPLETE : Fld := ⟨0x10, 4, 1, 0, .ro, false⟩
/-- DEV_BOOT [5:5] FAILED, R506. -/
def DEV_BOOT_FAILED : Fld := ⟨0x10, 5, 1, 0, .ro, false⟩
/-- DEV_BOOT [6:6] HOLDING, R506. -/
def DEV_BOOT_HOLDING : Fld := ⟨0x10, 6, 1, 0, .ro, false⟩
/-- DEV_BOOT [7:7] HDCP_OFF, R506. -/
def DEV_BOOT_HDCP_OFF : Fld := ⟨0x10, 7, 1, 0, .ro, false⟩
/-- DEV_BOOT [11:8] FAIL, R506. -/
def DEV_BOOT_FAIL : Fld := ⟨0x10, 8, 4, 0, .ro, false⟩
/-- DEV_BOOT [17:12] SECTION, R506. -/
def DEV_BOOT_SECTION : Fld := ⟨0x10, 12, 6, 0, .ro, false⟩
/-- DEV_BOOT_CTRL [0:0] HOLD, R506. -/
def DEV_BOOT_CTRL_HOLD : Fld := ⟨0x14, 0, 1, 0, .rwl, true⟩
/-- DEV_BOOT_TIME [15:0] T_COMPLETE, R506. -/
def DEV_BOOT_TIME_T_COMPLETE : Fld := ⟨0x18, 0, 16, 0, .ro, false⟩
/-- DEV_BOOT_TIME [31:16] T_FIRST, R506. -/
def DEV_BOOT_TIME_T_FIRST : Fld := ⟨0x18, 16, 16, 0, .ro, false⟩
/-- DEV_FLASH [15:0] SIZE, R506. -/
def DEV_FLASH_SIZE : Fld := ⟨0x1C, 0, 16, 0, .ro, false⟩
/-- DEV_LEDGER [15:0] USED, R507. -/
def DEV_LEDGER_USED : Fld := ⟨0x20, 0, 16, 0, .ro, false⟩
/-- DEV_LEDGER [16:16] HALF, R507. -/
def DEV_LEDGER_HALF : Fld := ⟨0x20, 16, 1, 0, .ro, false⟩
/-- DEV_LEDGER [17:17] COMPACTING, R507. -/
def DEV_LEDGER_COMPACTING : Fld := ⟨0x20, 17, 1, 0, .ro, false⟩
/-- DEV_LEDGER [18:18] FULL, R507. -/
def DEV_LEDGER_FULL : Fld := ⟨0x20, 18, 1, 0, .ro, false⟩
/-- DEV_LEDGER [25:19] QUEUED, R507. -/
def DEV_LEDGER_QUEUED : Fld := ⟨0x20, 19, 7, 0, .ro, false⟩
/-- DEV_LEDGER_CNT [15:0] LOST, R507. -/
def DEV_LEDGER_CNT_LOST : Fld := ⟨0x24, 0, 16, 0, .w1c, false⟩
/-- DEV_LEDGER_CNT [31:16] TORN, R507. -/
def DEV_LEDGER_CNT_TORN : Fld := ⟨0x24, 16, 16, 0, .w1c, false⟩
/-- DEV_LEDGER_GEN [31:0] GEN, R507. -/
def DEV_LEDGER_GEN_GEN : Fld := ⟨0x28, 0, 32, 0, .ro, false⟩
/-- DEV_HOTPLUG [0:0] REMOVED, R553. -/
def DEV_HOTPLUG_REMOVED : Fld := ⟨0x30, 0, 1, 0, .ro, false⟩
/-- DEV_HOTPLUG [1:1] WSTOP, R553. -/
def DEV_HOTPLUG_WSTOP : Fld := ⟨0x30, 1, 1, 0, .ro, false⟩
/-- DEV_HOTPLUG [2:2] NOR_STOP, R553. -/
def DEV_HOTPLUG_NOR_STOP : Fld := ⟨0x30, 2, 1, 0, .ro, false⟩
/-- DEV_IMAGE [31:0] DIGEST, R506. -/
def DEV_IMAGE_DIGEST (i : Nat) : Fld := ⟨0x40 + i * 0x4, 0, 32, 0, .ro, false⟩
/-- DEV_PROG [31:0] DIGEST, R506. -/
def DEV_PROG_DIGEST (i : Nat) : Fld := ⟨0x70 + i * 0x4, 0, 32, 0, .ro, false⟩
/-- CAL_NOW_LO [11:0] PHASE, R44. -/
def CAL_NOW_LO_PHASE : Fld := ⟨0x10000, 0, 12, 0, .ro, false⟩
/-- CAL_NOW_LO [31:16] LINE, R44. -/
def CAL_NOW_LO_LINE : Fld := ⟨0x10000, 16, 16, 0, .ro, false⟩
/-- CAL_NOW_HI [31:0] FRAME, R44. -/
def CAL_NOW_HI_FRAME : Fld := ⟨0x10004, 0, 32, 0, .ro, false⟩
/-- CAL_STATUS [1:0] SYNC_STATE, R59. -/
def CAL_STATUS_SYNC_STATE : Fld := ⟨0x10008, 0, 2, 0, .ro, false⟩
/-- CAL_STATUS [2:2] OUT_OF_RANGE, R59. -/
def CAL_STATUS_OUT_OF_RANGE : Fld := ⟨0x10008, 2, 1, 0, .ro, false⟩
/-- CAL_STATUS [3:3] REALTIME, R59. -/
def CAL_STATUS_REALTIME : Fld := ⟨0x10008, 3, 1, 0, .ro, false⟩
/-- CAL_STATUS [31:16] ERR_LINES, R59. -/
def CAL_STATUS_ERR_LINES : Fld := ⟨0x10008, 16, 16, 0, .ro, false⟩
/-- CAL_SYNC_CFG [3:0] SLEW, R57. -/
def CAL_SYNC_CFG_SLEW : Fld := ⟨0x1000C, 0, 4, 2, .rw, false⟩
/-- CAL_SYNC_CFG [4:4] SYNC_EN, R57. -/
def CAL_SYNC_CFG_SYNC_EN : Fld := ⟨0x1000C, 4, 1, 1, .rw, false⟩
/-- CAL_SYNC_CFG [5:5] RELOCK_EN, R57. -/
def CAL_SYNC_CFG_RELOCK_EN : Fld := ⟨0x1000C, 5, 1, 1, .rw, false⟩
/-- CAL_SYNC_CFG [31:16] RELOCK_LINES, R57. -/
def CAL_SYNC_CFG_RELOCK_LINES : Fld := ⟨0x1000C, 16, 16, 64, .rw, false⟩
/-- CAL_SYNC_PERIOD [31:0] PERIOD, R59. -/
def CAL_SYNC_PERIOD_PERIOD : Fld := ⟨0x10010, 0, 32, 0, .ro, false⟩
/-- CAL_SYNC_CNT [15:0] RELOCKS, R59. -/
def CAL_SYNC_CNT_RELOCKS : Fld := ⟨0x10014, 0, 16, 0, .w1c, false⟩
/-- CAL_SYNC_CNT [31:16] LOSSES, R59. -/
def CAL_SYNC_CNT_LOSSES : Fld := ⟨0x10014, 16, 16, 0, .w1c, false⟩
/-- CAL_LP [31:0] LP, R45. -/
def CAL_LP_LP : Fld := ⟨0x10018, 0, 32, 0, .ro, true⟩
/-- CAL_VACTIVE [15:0] V_ACTIVE, R45. -/
def CAL_VACTIVE_V_ACTIVE : Fld := ⟨0x1001C, 0, 16, 0, .ro, true⟩
/-- CAL_VACTIVE [31:16] VT_NOM, R45. -/
def CAL_VACTIVE_VT_NOM : Fld := ⟨0x1001C, 16, 16, 0, .ro, true⟩
/-- CAL_VLIMITS [15:0] VT_MIN, R45. -/
def CAL_VLIMITS_VT_MIN : Fld := ⟨0x10020, 0, 16, 0, .ro, true⟩
/-- CAL_VLIMITS [31:16] VT_MAX, R45. -/
def CAL_VLIMITS_VT_MAX : Fld := ⟨0x10020, 16, 16, 0, .ro, true⟩
/-- CAL_VTOTAL [15:0] VT_CUR, R45. -/
def CAL_VTOTAL_VT_CUR : Fld := ⟨0x10024, 0, 16, 0, .ro, false⟩
/-- CAL_VTOTAL [31:16] VT_PREV, R45. -/
def CAL_VTOTAL_VT_PREV : Fld := ⟨0x10024, 16, 16, 0, .ro, false⟩
/-- CAL_SEAM [4:0] SEAM_H, R45. -/
def CAL_SEAM_SEAM_H : Fld := ⟨0x10028, 0, 5, 0, .ro, true⟩
/-- CAL_FB_SEGS [31:0] FB_SEGS, R69. -/
def CAL_FB_SEGS_FB_SEGS : Fld := ⟨0x1002C, 0, 32, 0, .w1c, false⟩
/-- CAL_RPT_SEGS [31:0] RPT_SEGS, R69. -/
def CAL_RPT_SEGS_RPT_SEGS : Fld := ⟨0x10030, 0, 32, 0, .w1c, false⟩
/-- CAL_FB_LAST [31:0] FB_LAST, R69. -/
def CAL_FB_LAST_FB_LAST : Fld := ⟨0x10034, 0, 32, 0, .ro, false⟩
/-- CAL_RT_CTRL [0:0] TEST, R68. -/
def CAL_RT_CTRL_TEST : Fld := ⟨0x10038, 0, 1, 0, .rw, false⟩
/-- CAL_MODE [2:0] MODE_REQ, R296. -/
def CAL_MODE_MODE_REQ : Fld := ⟨0x10040, 0, 3, 0, .rw, true⟩
/-- CAL_MODE [6:4] MODE_CUR, R296. -/
def CAL_MODE_MODE_CUR : Fld := ⟨0x10040, 4, 3, 0, .ro, true⟩
/-- CAL_MODE [7:7] MODE_HELD, R296. -/
def CAL_MODE_MODE_HELD : Fld := ⟨0x10040, 7, 1, 0, .ro, false⟩
/-- CAL_MODE [13:8] SCHED_CUR, R296. -/
def CAL_MODE_SCHED_CUR : Fld := ⟨0x10040, 8, 6, 0, .ro, true⟩
/-- CAL_MODE [14:14] CHANGING, R296. -/
def CAL_MODE_CHANGING : Fld := ⟨0x10040, 14, 1, 0, .ro, false⟩
/-- CAL_MSET [2:0] MSET_REQ, R303. -/
def CAL_MSET_MSET_REQ : Fld := ⟨0x10044, 0, 3, 0, .rw, true⟩
/-- CAL_MSET [6:4] MSET_CUR, R303. -/
def CAL_MSET_MSET_CUR : Fld := ⟨0x10044, 4, 3, 0, .ro, true⟩
/-- CAL_MSET [7:7] MSET_PEND, R303. -/
def CAL_MSET_MSET_PEND : Fld := ⟨0x10044, 7, 1, 0, .ro, false⟩
/-- CAL_MSET [15:8] MSET_ERR, R303. -/
def CAL_MSET_MSET_ERR : Fld := ⟨0x10044, 8, 8, 0, .w1c, false⟩
/-- CAL_SCHED_CNT [15:0] SCHED_CHANGES, R296. -/
def CAL_SCHED_CNT_SCHED_CHANGES : Fld := ⟨0x10048, 0, 16, 0, .w1c, false⟩
/-- CAL_SCHED_CNT [31:16] MSET_SWITCHES, R296. -/
def CAL_SCHED_CNT_MSET_SWITCHES : Fld := ⟨0x10048, 16, 16, 0, .w1c, false⟩
/-- CAL_LOAD_FAULT [3:0] CHECK, R292. -/
def CAL_LOAD_FAULT_CHECK : Fld := ⟨0x10050, 0, 4, 0, .ro, false⟩
/-- CAL_LOAD_FAULT [11:4] REASON, R292. -/
def CAL_LOAD_FAULT_REASON : Fld := ⟨0x10050, 4, 8, 0, .ro, false⟩
/-- CAL_LOAD_FAULT [17:12] SCHED, R292. -/
def CAL_LOAD_FAULT_SCHED : Fld := ⟨0x10050, 12, 6, 0, .ro, false⟩
/-- CAL_LOAD_FAULT [23:18] UNIT, R292. -/
def CAL_LOAD_FAULT_UNIT : Fld := ⟨0x10050, 18, 6, 0, .ro, false⟩
/-- CAL_LOAD_FAULT [25:24] SCOPE, R292. -/
def CAL_LOAD_FAULT_SCOPE : Fld := ⟨0x10050, 24, 2, 0, .ro, false⟩
/-- CAL_LOAD_OBJ [15:0] OBJECT, R292. -/
def CAL_LOAD_OBJ_OBJECT : Fld := ⟨0x10054, 0, 16, 0, .ro, false⟩
/-- CAL_LOAD_OBJ [31:16] NEED, R292. -/
def CAL_LOAD_OBJ_NEED : Fld := ⟨0x10054, 16, 16, 0, .ro, false⟩
/-- CAL_FC [15:0] MISSES, R299. -/
def CAL_FC_MISSES (i : Nat) : Fld := ⟨0x10080 + i * 0x4, 0, 16, 0, .w1c, false⟩
/-- CAL_FC [23:16] SKIPS, R299. -/
def CAL_FC_SKIPS (i : Nat) : Fld := ⟨0x10080 + i * 0x4, 16, 8, 0, .w1c, false⟩
/-- CAL_RT_STEP [16:0] STEP, R327. -/
def CAL_RT_STEP_STEP : Fld := ⟨0x10100, 0, 17, 0, .rw, true⟩
/-- CAL_RT_STEP [21:20] LAG, R327. -/
def CAL_RT_STEP_LAG : Fld := ⟨0x10100, 20, 2, 0, .ro, true⟩
/-- CAL_RT_POS_LO [15:0] F, R327. -/
def CAL_RT_POS_LO_F : Fld := ⟨0x10104, 0, 16, 0, .ro, false⟩
/-- CAL_RT_POS_LO [16:16] ALIGNED, R327. -/
def CAL_RT_POS_LO_ALIGNED : Fld := ⟨0x10104, 16, 1, 0, .ro, false⟩
/-- CAL_RT_POS_HI [31:0] I, R327. -/
def CAL_RT_POS_HI_I : Fld := ⟨0x10108, 0, 32, 0, .ro, false⟩
/-- CAL_RT_CNT [15:0] HOLDS, R327. -/
def CAL_RT_CNT_HOLDS : Fld := ⟨0x1010C, 0, 16, 0, .w1c, false⟩
/-- CAL_RT_CNT [31:16] DROPS, R327. -/
def CAL_RT_CNT_DROPS : Fld := ⟨0x1010C, 16, 16, 0, .w1c, false⟩
/-- CAL_RT_FIELD [15:0] FIELD_NONE, R327. -/
def CAL_RT_FIELD_FIELD_NONE : Fld := ⟨0x10110, 0, 16, 0, .w1c, false⟩
/-- CAL_DET_LAST [8:0] BOXES, R328. -/
def CAL_DET_LAST_BOXES : Fld := ⟨0x10120, 0, 9, 0, .ro, false⟩
/-- CAL_DET_LAST [21:9] CANDS, R328. -/
def CAL_DET_LAST_CANDS : Fld := ⟨0x10120, 9, 13, 0, .ro, false⟩
/-- CAL_DET_CNT [15:0] CAND_OVF, R328. -/
def CAL_DET_CNT_CAND_OVF : Fld := ⟨0x10124, 0, 16, 0, .w1c, false⟩
/-- CAL_DET_CNT [31:16] TRUNC, R328. -/
def CAL_DET_CNT_TRUNC : Fld := ⟨0x10124, 16, 16, 0, .w1c, false⟩
/-- CAL_DET_CYC [31:0] CYCLES, R328. -/
def CAL_DET_CYC_CYCLES : Fld := ⟨0x10128, 0, 32, 0, .ro, false⟩
/-- INP_MODE [1:0] MODE, R79. -/
def INP_MODE_MODE : Fld := ⟨0x20000, 0, 2, 0, .rw, true⟩
/-- INP_MODE [2:2] GFX1, R79. -/
def INP_MODE_GFX1 : Fld := ⟨0x20000, 2, 1, 0, .rw, true⟩
/-- INP_FRAME [31:0] FRAME, R78. -/
def INP_FRAME_FRAME : Fld := ⟨0x20004, 0, 32, 0, .ro, false⟩
/-- INP_APPLY [0:0] GO, R93. -/
def INP_APPLY_GO : Fld := ⟨0x20008, 0, 1, 0, .rw, false⟩
/-- INP_CROP_XY [15:0] X0, R93. -/
def INP_CROP_XY_X0 : Fld := ⟨0x20020, 0, 16, 0, .rw, true⟩
/-- INP_CROP_XY [31:16] Y0, R93. -/
def INP_CROP_XY_Y0 : Fld := ⟨0x20020, 16, 16, 0, .rw, true⟩
/-- INP_CROP_WH [15:0] CW, R93. -/
def INP_CROP_WH_CW : Fld := ⟨0x20024, 0, 16, 0, .rw, true⟩
/-- INP_CROP_WH [31:16] CH, R93. -/
def INP_CROP_WH_CH : Fld := ⟨0x20024, 16, 16, 0, .rw, true⟩
/-- INP_XFORM [0:0] HFLIP, R93. -/
def INP_XFORM_HFLIP : Fld := ⟨0x20028, 0, 1, 0, .rw, true⟩
/-- INP_XFORM [1:1] VFLIP, R93. -/
def INP_XFORM_VFLIP : Fld := ⟨0x20028, 1, 1, 0, .rw, true⟩
/-- INP_XFORM [3:2] ROT, R93. -/
def INP_XFORM_ROT : Fld := ⟨0x20028, 2, 2, 0, .rw, true⟩
/-- INP_XFORM [16:8] RN_H, R93. -/
def INP_XFORM_RN_H : Fld := ⟨0x20028, 8, 9, 0, .rw, true⟩
/-- INP_XFORM [26:18] RN_V, R93. -/
def INP_XFORM_RN_V : Fld := ⟨0x20028, 18, 9, 0, .rw, true⟩
/-- INP_BUCKET [2:0] BUCKET, R95. -/
def INP_BUCKET_BUCKET : Fld := ⟨0x20030, 0, 3, 0, .ro, false⟩
/-- INP_BUCKET [3:3] CROPPED, R95. -/
def INP_BUCKET_CROPPED : Fld := ⟨0x20030, 3, 1, 0, .ro, false⟩
/-- INP_BUCKET [31:16] CROPS, R95. -/
def INP_BUCKET_CROPS : Fld := ⟨0x20030, 16, 16, 0, .w1c, false⟩
/-- INP_BLANK_CFG [3:0] HOLD, R84. -/
def INP_BLANK_CFG_HOLD : Fld := ⟨0x20034, 0, 4, 8, .rw, false⟩
/-- INP_BLANK_CFG [4:4] PAD_EDGE, R84. -/
def INP_BLANK_CFG_PAD_EDGE : Fld := ⟨0x20034, 4, 1, 0, .rw, false⟩
/-- INP_BLANK_CNT [15:0] BLANK_HELD, R84. -/
def INP_BLANK_CNT_BLANK_HELD : Fld := ⟨0x20038, 0, 16, 0, .w1c, false⟩
/-- INP_BLANK_CNT [31:16] BLANK_BLACK, R84. -/
def INP_BLANK_CNT_BLANK_BLACK : Fld := ⟨0x20038, 16, 16, 0, .w1c, false⟩
/-- INP_PAD [15:0] PAD_L, R95. -/
def INP_PAD_PAD_L : Fld := ⟨0x2003C, 0, 16, 0, .ro, false⟩
/-- INP_PAD [31:16] PAD_T, R95. -/
def INP_PAD_PAD_T : Fld := ⟨0x2003C, 16, 16, 0, .ro, false⟩
/-- INP_CORRUPT [23:0] LINES, R99. -/
def INP_CORRUPT_LINES : Fld := ⟨0x20040, 0, 24, 0, .w1c, false⟩
/-- INP_CORRUPT [26:24] LAST_CAUSE, R99. -/
def INP_CORRUPT_LAST_CAUSE : Fld := ⟨0x20040, 24, 3, 0, .ro, false⟩
/-- INP_PPS_REJECTS [15:0] REJECTS, R99. -/
def INP_PPS_REJECTS_REJECTS : Fld := ⟨0x20044, 0, 16, 0, .w1c, false⟩
/-- INP_PPS_REJECTS [19:16] NOSIG_CAUSE, R99. -/
def INP_PPS_REJECTS_NOSIG_CAUSE : Fld := ⟨0x20044, 16, 4, 0, .ro, false⟩
/-- INP_HIST_BASE_LO [31:0] BASE_LO, R308. -/
def INP_HIST_BASE_LO_BASE_LO : Fld := ⟨0x20050, 0, 32, 0, .ro, true⟩
/-- INP_HIST_BASE_HI [7:0] BASE_HI, R308. -/
def INP_HIST_BASE_HI_BASE_HI : Fld := ⟨0x20054, 0, 8, 0, .ro, true⟩
/-- INP_HIST_CFG [3:0] DEPTH, R308. -/
def INP_HIST_CFG_DEPTH : Fld := ⟨0x20058, 0, 4, 0, .ro, true⟩
/-- INP_HIST_CFG [23:8] PITCH, R308. -/
def INP_HIST_CFG_PITCH : Fld := ⟨0x20058, 8, 16, 0, .ro, true⟩
/-- INP_HIST_CNT [15:0] OVERRUN, R308. -/
def INP_HIST_CNT_OVERRUN : Fld := ⟨0x2005C, 0, 16, 0, .w1c, false⟩
/-- INP_HIST_NEWEST [31:0] NEWEST, R308. -/
def INP_HIST_NEWEST_NEWEST : Fld := ⟨0x20060, 0, 32, 0, .ro, false⟩
/-- INP_PORT_CFG [0:0] EN, R75. -/
def INP_PORT_CFG_EN (i : Nat) : Fld := ⟨0x20100 + i * 0x40, 0, 1, 0, .rw, true⟩
/-- INP_PORT_CFG [2:1] MAX_RATE, R75. -/
def INP_PORT_CFG_MAX_RATE (i : Nat) : Fld := ⟨0x20100 + i * 0x40, 1, 2, 0, .rw, true⟩
/-- INP_PORT_CFG [4:3] MAX_LANES, R75. -/
def INP_PORT_CFG_MAX_LANES (i : Nat) : Fld := ⟨0x20100 + i * 0x40, 3, 2, 0, .rw, true⟩
/-- INP_PORT_CFG [5:5] DSC_EN, R75. -/
def INP_PORT_CFG_DSC_EN (i : Nat) : Fld := ⟨0x20100 + i * 0x40, 5, 1, 0, .rw, true⟩
/-- INP_PORT_CFG [6:6] HDCP_EN, R75. -/
def INP_PORT_CFG_HDCP_EN (i : Nat) : Fld := ⟨0x20100 + i * 0x40, 6, 1, 0, .rw, true⟩
/-- INP_PORT_STATUS [0:0] SIGNAL, R76. -/
def INP_PORT_STATUS_SIGNAL (i : Nat) : Fld := ⟨0x20104 + i * 0x40, 0, 1, 0, .ro, false⟩
/-- INP_PORT_STATUS [2:1] RATE, R76. -/
def INP_PORT_STATUS_RATE (i : Nat) : Fld := ⟨0x20104 + i * 0x40, 1, 2, 0, .ro, false⟩
/-- INP_PORT_STATUS [4:3] LANES, R76. -/
def INP_PORT_STATUS_LANES (i : Nat) : Fld := ⟨0x20104 + i * 0x40, 3, 2, 0, .ro, false⟩
/-- INP_PORT_STATUS [5:5] DSC, R76. -/
def INP_PORT_STATUS_DSC (i : Nat) : Fld := ⟨0x20104 + i * 0x40, 5, 1, 0, .ro, false⟩
/-- INP_PORT_STATUS [6:6] AUTH, R76. -/
def INP_PORT_STATUS_AUTH (i : Nat) : Fld := ⟨0x20104 + i * 0x40, 6, 1, 0, .ro, false⟩
/-- INP_PORT_STATUS [7:7] ENCRYPTED, R76. -/
def INP_PORT_STATUS_ENCRYPTED (i : Nat) : Fld := ⟨0x20104 + i * 0x40, 7, 1, 0, .ro, false⟩
/-- INP_PORT_STATUS [9:8] ENC, R76. -/
def INP_PORT_STATUS_ENC (i : Nat) : Fld := ⟨0x20104 + i * 0x40, 8, 2, 0, .ro, false⟩
/-- INP_PORT_STATUS [11:10] BPC, R76. -/
def INP_PORT_STATUS_BPC (i : Nat) : Fld := ⟨0x20104 + i * 0x40, 10, 2, 0, .ro, false⟩
/-- INP_PORT_STATUS [15:12] PPS_REASON, R76. -/
def INP_PORT_STATUS_PPS_REASON (i : Nat) : Fld := ⟨0x20104 + i * 0x40, 12, 4, 0, .ro, false⟩
/-- INP_PORT_GEOM [15:0] SRC_W, R77. -/
def INP_PORT_GEOM_SRC_W (i : Nat) : Fld := ⟨0x20108 + i * 0x40, 0, 16, 0, .ro, false⟩
/-- INP_PORT_GEOM [31:16] SRC_H, R77. -/
def INP_PORT_GEOM_SRC_H (i : Nat) : Fld := ⟨0x20108 + i * 0x40, 16, 16, 0, .ro, false⟩
/-- INP_PORT_PERIOD [31:0] PERIOD, R77. -/
def INP_PORT_PERIOD_PERIOD (i : Nat) : Fld := ⟨0x2010C + i * 0x40, 0, 32, 0, .ro, false⟩
/-- CMP_BLACK0 [11:0] C0, R383. -/
def CMP_BLACK0_C0 : Fld := ⟨0x30000, 0, 12, 0, .ro, true⟩
/-- CMP_BLACK0 [27:16] C1, R383. -/
def CMP_BLACK0_C1 : Fld := ⟨0x30000, 16, 12, 0, .ro, true⟩
/-- CMP_BLACK1 [11:0] C2, R383. -/
def CMP_BLACK1_C2 : Fld := ⟨0x30004, 0, 12, 0, .ro, true⟩
/-- CMP_COMMIT [1:1] PL1, R383. -/
def CMP_COMMIT_PL1 : Fld := ⟨0x30010, 1, 1, 0, .rw, false⟩
/-- CMP_COMMIT [2:2] PL2, R383. -/
def CMP_COMMIT_PL2 : Fld := ⟨0x30010, 2, 1, 0, .rw, false⟩
/-- CMP_COMMIT [3:3] GR, R383. -/
def CMP_COMMIT_GR : Fld := ⟨0x30010, 3, 1, 0, .rw, false⟩
/-- CMP_PL_CTRL [0:0] EN, R382. -/
def CMP_PL_CTRL_EN (i : Nat) : Fld := ⟨0x30100 + i * 0x40, 0, 1, 0, .rw, true⟩
/-- CMP_PL_CTRL [1:1] SRC, R382. -/
def CMP_PL_CTRL_SRC (i : Nat) : Fld := ⟨0x30100 + i * 0x40, 1, 1, 0, .rw, true⟩
/-- CMP_PL_CTRL [2:2] FMT, R382. -/
def CMP_PL_CTRL_FMT (i : Nat) : Fld := ⟨0x30100 + i * 0x40, 2, 1, 0, .rw, true⟩
/-- CMP_PL_CTRL [3:3] PREMUL, R382. -/
def CMP_PL_CTRL_PREMUL (i : Nat) : Fld := ⟨0x30100 + i * 0x40, 3, 1, 0, .rw, true⟩
/-- CMP_PL_CTRL [27:16] GALPHA, R382. -/
def CMP_PL_CTRL_GALPHA (i : Nat) : Fld := ⟨0x30100 + i * 0x40, 16, 12, 0, .rw, true⟩
/-- CMP_PL_BASE_LO [31:0] BASE_LO, R382. -/
def CMP_PL_BASE_LO_BASE_LO (i : Nat) : Fld := ⟨0x30104 + i * 0x40, 0, 32, 0, .rw, true⟩
/-- CMP_PL_BASE_HI [7:0] BASE_HI, R382. -/
def CMP_PL_BASE_HI_BASE_HI (i : Nat) : Fld := ⟨0x30108 + i * 0x40, 0, 8, 0, .rw, true⟩
/-- CMP_PL_PITCH [19:0] PITCH, R382. -/
def CMP_PL_PITCH_PITCH (i : Nat) : Fld := ⟨0x3010C + i * 0x40, 0, 20, 0, .rw, true⟩
/-- CMP_PL_POS [15:0] X, R382. -/
def CMP_PL_POS_X (i : Nat) : Fld := ⟨0x30110 + i * 0x40, 0, 16, 0, .rw, true⟩
/-- CMP_PL_POS [31:16] Y, R382. -/
def CMP_PL_POS_Y (i : Nat) : Fld := ⟨0x30110 + i * 0x40, 16, 16, 0, .rw, true⟩
/-- CMP_PL_SIZE [15:0] W, R382. -/
def CMP_PL_SIZE_W (i : Nat) : Fld := ⟨0x30114 + i * 0x40, 0, 16, 0, .rw, true⟩
/-- CMP_PL_SIZE [31:16] H, R382. -/
def CMP_PL_SIZE_H (i : Nat) : Fld := ⟨0x30114 + i * 0x40, 16, 16, 0, .rw, true⟩
/-- CMP_PL_STAT [15:0] GFX_LATE, R382. -/
def CMP_PL_STAT_GFX_LATE (i : Nat) : Fld := ⟨0x30118 + i * 0x40, 0, 16, 0, .w1c, false⟩
/-- CMP_PL_STAT [31:16] GFX_ERR, R382. -/
def CMP_PL_STAT_GFX_ERR (i : Nat) : Fld := ⟨0x30118 + i * 0x40, 16, 16, 0, .w1c, false⟩
/-- CMP_CAP_CTRL [0:0] EN, R391. -/
def CMP_CAP_CTRL_EN : Fld := ⟨0x30200, 0, 1, 0, .rw, false⟩
/-- CMP_CAP_CTRL [1:1] FMT, R391. -/
def CMP_CAP_CTRL_FMT : Fld := ⟨0x30200, 1, 1, 0, .rw, false⟩
/-- CMP_CAP_CTRL [3:2] NBUF, R391. -/
def CMP_CAP_CTRL_NBUF : Fld := ⟨0x30200, 2, 2, 0, .rw, false⟩
/-- CMP_CAP_CTRL [7:4] DIV, R391. -/
def CMP_CAP_CTRL_DIV : Fld := ⟨0x30200, 4, 4, 1, .rw, false⟩
/-- CMP_CAP_BASE_LO [31:0] BASE_LO, R391. -/
def CMP_CAP_BASE_LO_BASE_LO : Fld := ⟨0x30204, 0, 32, 0, .rw, false⟩
/-- CMP_CAP_BASE_HI [7:0] BASE_HI, R391. -/
def CMP_CAP_BASE_HI_BASE_HI : Fld := ⟨0x30208, 0, 8, 0, .rw, false⟩
/-- CMP_CAP_PITCH [15:0] BUF_PITCH, R391. -/
def CMP_CAP_PITCH_BUF_PITCH : Fld := ⟨0x3020C, 0, 16, 0, .rw, false⟩
/-- CMP_CAP_CNT [15:0] CAP_INCOMPLETE, R391. -/
def CMP_CAP_CNT_CAP_INCOMPLETE : Fld := ⟨0x30210, 0, 16, 0, .w1c, false⟩
/-- CMP_CAP_CNT [31:16] CAP_BLOCKED, R391. -/
def CMP_CAP_CNT_CAP_BLOCKED : Fld := ⟨0x30210, 16, 16, 0, .w1c, false⟩
/-- CMP_CAP_LAST [31:0] FRAME, R391. -/
def CMP_CAP_LAST_FRAME : Fld := ⟨0x30214, 0, 32, 0, .ro, false⟩
/-- CMP_GR_CTRL [0:0] EN, R386. -/
def CMP_GR_CTRL_EN (i : Nat) : Fld := ⟨0x30400 + i * 0x20, 0, 1, 0, .rw, false⟩
/-- CMP_GR_CTRL [1:1] FORCE_EN, R386. -/
def CMP_GR_CTRL_FORCE_EN (i : Nat) : Fld := ⟨0x30400 + i * 0x20, 1, 1, 0, .rw, false⟩
/-- CMP_GR_CTRL [5:2] HOLD_OK, R386. -/
def CMP_GR_CTRL_HOLD_OK (i : Nat) : Fld := ⟨0x30400 + i * 0x20, 2, 4, 1, .rw, false⟩
/-- CMP_GR_XY [15:0] X0, R386. -/
def CMP_GR_XY_X0 (i : Nat) : Fld := ⟨0x30404 + i * 0x20, 0, 16, 0, .rw, false⟩
/-- CMP_GR_XY [31:16] Y0, R386. -/
def CMP_GR_XY_Y0 (i : Nat) : Fld := ⟨0x30404 + i * 0x20, 16, 16, 0, .rw, false⟩
/-- CMP_GR_WH [15:0] W, R386. -/
def CMP_GR_WH_W (i : Nat) : Fld := ⟨0x30408 + i * 0x20, 0, 16, 0, .rw, false⟩
/-- CMP_GR_WH [31:16] H, R386. -/
def CMP_GR_WH_H (i : Nat) : Fld := ⟨0x30408 + i * 0x20, 16, 16, 0, .rw, false⟩
/-- CMP_GR_EXPECT [31:0] EXPECT, R386. -/
def CMP_GR_EXPECT_EXPECT (i : Nat) : Fld := ⟨0x3040C + i * 0x20, 0, 32, 0, .rw, false⟩
/-- CMP_GR_SAFE_LO [31:0] SAFE_LO, R386. -/
def CMP_GR_SAFE_LO_SAFE_LO (i : Nat) : Fld := ⟨0x30410 + i * 0x20, 0, 32, 0, .rw, false⟩
/-- CMP_GR_SAFE_HI [7:0] SAFE_HI, R386. -/
def CMP_GR_SAFE_HI_SAFE_HI (i : Nat) : Fld := ⟨0x30414 + i * 0x20, 0, 8, 0, .rw, false⟩
/-- CMP_GR_CRC [31:0] LAST_CRC, R386. -/
def CMP_GR_CRC_LAST_CRC (i : Nat) : Fld := ⟨0x30418 + i * 0x20, 0, 32, 0, .ro, false⟩
/-- CMP_GR_STAT [3:0] MATCH_RUN, R386. -/
def CMP_GR_STAT_MATCH_RUN (i : Nat) : Fld := ⟨0x3041C + i * 0x20, 0, 4, 0, .ro, false⟩
/-- CMP_GR_STAT [4:4] FORCED, R386. -/
def CMP_GR_STAT_FORCED (i : Nat) : Fld := ⟨0x3041C + i * 0x20, 4, 1, 0, .ro, false⟩
/-- CMP_GR_STAT [5:5] LAST_OK, R386. -/
def CMP_GR_STAT_LAST_OK (i : Nat) : Fld := ⟨0x3041C + i * 0x20, 5, 1, 0, .ro, false⟩
/-- CMP_GR_STAT [15:6] SAFE_ERR, R386. -/
def CMP_GR_STAT_SAFE_ERR (i : Nat) : Fld := ⟨0x3041C + i * 0x20, 6, 10, 0, .w1c, false⟩
/-- CMP_GR_STAT [31:16] MISMATCHES, R386. -/
def CMP_GR_STAT_MISMATCHES (i : Nat) : Fld := ⟨0x3041C + i * 0x20, 16, 16, 0, .w1c, false⟩
/-- PNL_CFG [1:0] LANES, R410. -/
def PNL_CFG_LANES : Fld := ⟨0x40000, 0, 2, 0, .ro, true⟩
/-- PNL_CFG [3:2] RATE, R410. -/
def PNL_CFG_RATE : Fld := ⟨0x40000, 2, 2, 0, .ro, true⟩
/-- PNL_CFG [5:4] PFMT, R410. -/
def PNL_CFG_PFMT : Fld := ⟨0x40000, 4, 2, 0, .ro, true⟩
/-- PNL_CTRL [0:0] EN, R410. -/
def PNL_CTRL_EN : Fld := ⟨0x40004, 0, 1, 0, .rw, true⟩
/-- PNL_CTRL [1:1] RETRAIN, R410. -/
def PNL_CTRL_RETRAIN : Fld := ⟨0x40004, 1, 1, 0, .wo, false⟩
/-- PNL_STATUS [2:0] STATE, R410. -/
def PNL_STATUS_STATE : Fld := ⟨0x40008, 0, 3, 0, .ro, false⟩
/-- PNL_STATUS [3:3] RDY, R410. -/
def PNL_STATUS_RDY : Fld := ⟨0x40008, 3, 1, 0, .ro, false⟩
/-- PNL_STATUS [5:4] SAFE_CAUSE, R410. -/
def PNL_STATUS_SAFE_CAUSE : Fld := ⟨0x40008, 4, 2, 0, .ro, false⟩
/-- PNL_STATUS [13:6] GEOM_SEQ, R410. -/
def PNL_STATUS_GEOM_SEQ : Fld := ⟨0x40008, 6, 8, 0, .ro, false⟩
/-- PNL_CNT [15:0] RETRAINS, R410. -/
def PNL_CNT_RETRAINS : Fld := ⟨0x4000C, 0, 16, 0, .w1c, false⟩
/-- PNL_CNT [31:16] TRAIN_FAIL, R410. -/
def PNL_CNT_TRAIN_FAIL : Fld := ⟨0x4000C, 16, 16, 0, .w1c, false⟩
/-- PNL_LOST [31:0] LINES_LOST, R410. -/
def PNL_LOST_LINES_LOST : Fld := ⟨0x40010, 0, 32, 0, .w1c, false⟩
/-- PNL_PKT [15:0] TRUNC, R410. -/
def PNL_PKT_TRUNC : Fld := ⟨0x40014, 0, 16, 0, .w1c, false⟩
/-- PNL_PKT [31:16] FILLS, R410. -/
def PNL_PKT_FILLS : Fld := ⟨0x40014, 16, 16, 0, .ro, false⟩
/-- PNL_DRV [4:0] SWING, R410. -/
def PNL_DRV_SWING : Fld := ⟨0x40018, 0, 5, 0, .rw, true⟩
/-- PNL_DRV [7:5] PRE, R410. -/
def PNL_DRV_PRE : Fld := ⟨0x40018, 5, 3, 0, .rw, true⟩
/-- PNL_DRV [11:8] POST, R410. -/
def PNL_DRV_POST : Fld := ⟨0x40018, 8, 4, 0, .rw, true⟩
/-- FAB_SNAP_CTRL [0:0] ARM, R282. -/
def FAB_SNAP_CTRL_ARM : Fld := ⟨0x60000, 0, 1, 0, .wo, false⟩
/-- FAB_SNAP_CTRL [1:1] CANCEL, R282. -/
def FAB_SNAP_CTRL_CANCEL : Fld := ⟨0x60000, 1, 1, 0, .wo, false⟩
/-- FAB_SNAP_CTRL [15:8] BANDS, R282. -/
def FAB_SNAP_CTRL_BANDS : Fld := ⟨0x60000, 8, 8, 0, .rw, false⟩
/-- FAB_SNAP_CTRL [16:16] SPAD, R282. -/
def FAB_SNAP_CTRL_SPAD : Fld := ⟨0x60000, 16, 1, 0, .rw, false⟩
/-- FAB_SNAP_CTRL [17:17] LS, R282. -/
def FAB_SNAP_CTRL_LS : Fld := ⟨0x60000, 17, 1, 0, .rw, false⟩
/-- FAB_SNAP_LINE [15:0] LINE, R282. -/
def FAB_SNAP_LINE_LINE : Fld := ⟨0x60004, 0, 16, 0, .rw, false⟩
/-- FAB_SNAP_FRAME [31:0] FRAME, R282. -/
def FAB_SNAP_FRAME_FRAME : Fld := ⟨0x60008, 0, 32, 0, .rw, false⟩
/-- FAB_SNAP_DEST_LO [31:0] DEST_LO, R282. -/
def FAB_SNAP_DEST_LO_DEST_LO : Fld := ⟨0x6000C, 0, 32, 0, .rw, false⟩
/-- FAB_SNAP_DEST_HI [7:0] DEST_HI, R282. -/
def FAB_SNAP_DEST_HI_DEST_HI : Fld := ⟨0x60010, 0, 8, 0, .rw, false⟩
/-- FAB_SNAP_STATUS [1:0] STATE, R282. -/
def FAB_SNAP_STATUS_STATE : Fld := ⟨0x60014, 0, 2, 0, .ro, false⟩
/-- FAB_SNAP_STATUS [4:2] REFUSE, R282. -/
def FAB_SNAP_STATUS_REFUSE : Fld := ⟨0x60014, 2, 3, 0, .ro, false⟩
/-- FAB_SNAP_STATUS [31:16] LPS, R282. -/
def FAB_SNAP_STATUS_LPS : Fld := ⟨0x60014, 16, 16, 0, .ro, false⟩
/-- FAB_BARRIERS [31:0] BARRIERS, R279. -/
def FAB_BARRIERS_BARRIERS : Fld := ⟨0x60020, 0, 32, 0, .w1c, false⟩
/-- DRM_STATUS [0:0] TRAINED, R433. -/
def DRM_STATUS_TRAINED : Fld := ⟨0x50000, 0, 1, 0, .ro, false⟩
/-- DRM_STATUS [1:1] SELF_REFRESH, R433. -/
def DRM_STATUS_SELF_REFRESH : Fld := ⟨0x50000, 1, 1, 0, .ro, false⟩
/-- DRM_ECC [15:0] CORRECTED, R433. -/
def DRM_ECC_CORRECTED : Fld := ⟨0x50004, 0, 16, 0, .w1c, false⟩
/-- DRM_ECC [23:16] UNCORR, R433. -/
def DRM_ECC_UNCORR : Fld := ⟨0x50004, 16, 8, 0, .w1c, false⟩
/-- DRM_LAST_LO [31:0] ADDR_LO, R433. -/
def DRM_LAST_LO_ADDR_LO : Fld := ⟨0x50008, 0, 32, 0, .ro, false⟩
/-- DRM_LAST_HI [7:0] ADDR_HI, R433. -/
def DRM_LAST_HI_ADDR_HI : Fld := ⟨0x5000C, 0, 8, 0, .ro, false⟩
/-- DRM_LAST_HI [8:8] UNC, R433. -/
def DRM_LAST_HI_UNC : Fld := ⟨0x5000C, 8, 1, 0, .ro, false⟩
/-- DRM_MAP [13:0] SPARES_LEFT, R433. -/
def DRM_MAP_SPARES_LEFT : Fld := ⟨0x50010, 0, 14, 0, .ro, false⟩
/-- DRM_MAP [17:14] QUEUED, R433. -/
def DRM_MAP_QUEUED : Fld := ⟨0x50010, 14, 4, 0, .ro, false⟩
/-- DRM_MAP [25:18] FIELD_MAPPED, R433. -/
def DRM_MAP_FIELD_MAPPED : Fld := ⟨0x50010, 18, 8, 0, .w1c, false⟩
/-- DRM_MAP [31:26] NO_SPARE, R433. -/
def DRM_MAP_NO_SPARE : Fld := ⟨0x50010, 26, 6, 0, .w1c, false⟩
/-- DRM_CFG [3:0] CE_LIMIT, R433. -/
def DRM_CFG_CE_LIMIT : Fld := ⟨0x50014, 0, 4, 3, .rw, false⟩
/-- DRM_CFG [4:4] SCRUB_EN, R433. -/
def DRM_CFG_SCRUB_EN : Fld := ⟨0x50014, 4, 1, 1, .rw, false⟩
/-- DRM_SCRUB [15:0] PASSES, R433. -/
def DRM_SCRUB_PASSES : Fld := ⟨0x50018, 0, 16, 0, .ro, false⟩
/-- DRM_TIER_WAIT [31:0] WAIT, R433. -/
def DRM_TIER_WAIT_WAIT (i : Nat) : Fld := ⟨0x50020 + i * 0x4, 0, 32, 0, .ro, false⟩
/-- DRM_HOST [15:0] REFUSED, R433. -/
def DRM_HOST_REFUSED : Fld := ⟨0x50040, 0, 16, 0, .w1c, false⟩
/-- DRM_HOST [31:16] PLACE_ERR, R433. -/
def DRM_HOST_PLACE_ERR : Fld := ⟨0x50040, 16, 16, 0, .w1c, false⟩
/-- DRM_REGION [31:0] DATA, R434. -/
def DRM_REGION_DATA (i : Nat) : Fld := ⟨0x50100 + i * 0x4, 0, 32, 0, .ro, true⟩
/-- TPL_LINK [1:0] STATE, R482. -/
def TPL_LINK_STATE : Fld := ⟨0x70000, 0, 2, 0, .ro, false⟩
/-- TPL_LINK [2:2] RATE, R482. -/
def TPL_LINK_RATE : Fld := ⟨0x70000, 2, 1, 0, .ro, false⟩
/-- TPL_LINK [3:3] LPI, R482. -/
def TPL_LINK_LPI : Fld := ⟨0x70000, 3, 1, 0, .ro, false⟩
/-- TPL_LINK [4:4] MASTER, R482. -/
def TPL_LINK_MASTER : Fld := ⟨0x70000, 4, 1, 0, .ro, false⟩
/-- TPL_CFG [0:0] STRICT, R482. -/
def TPL_CFG_STRICT : Fld := ⟨0x70004, 0, 1, 0, .ro, true⟩
/-- TPL_CFG [1:1] PREFER_MASTER, R482. -/
def TPL_CFG_PREFER_MASTER : Fld := ⟨0x70004, 1, 1, 0, .ro, true⟩
/-- TPL_CFG [15:8] SESS_IDLE, R482. -/
def TPL_CFG_SESS_IDLE : Fld := ⟨0x70004, 8, 8, 60, .rw, false⟩
/-- TPL_MAC_LO [31:0] MAC_LO, R482. -/
def TPL_MAC_LO_MAC_LO : Fld := ⟨0x70008, 0, 32, 0, .ro, false⟩
/-- TPL_MAC_HI [15:0] MAC_HI, R482. -/
def TPL_MAC_HI_MAC_HI : Fld := ⟨0x7000C, 0, 16, 0, .ro, false⟩
/-- TPL_RX [15:0] REQUESTS, R482. -/
def TPL_RX_REQUESTS : Fld := ⟨0x70010, 0, 16, 0, .w1c, false⟩
/-- TPL_RX [31:16] DISCARDED, R482. -/
def TPL_RX_DISCARDED : Fld := ⟨0x70010, 16, 16, 0, .w1c, false⟩
/-- TPL_ERR [7:0] MALFORMED, R482. -/
def TPL_ERR_MALFORMED : Fld := ⟨0x70014, 0, 8, 0, .w1c, false⟩
/-- TPL_ERR [15:8] DENIED, R482. -/
def TPL_ERR_DENIED : Fld := ⟨0x70014, 8, 8, 0, .w1c, false⟩
/-- TPL_ERR [23:16] RX_DROP, R482. -/
def TPL_ERR_RX_DROP : Fld := ⟨0x70014, 16, 8, 0, .w1c, false⟩
/-- TPL_ERR [31:24] LINK_DOWNS, R482. -/
def TPL_ERR_LINK_DOWNS : Fld := ⟨0x70014, 24, 8, 0, .w1c, false⟩
/-- TPL_SESSION [0:0] OPEN, R482. -/
def TPL_SESSION_OPEN : Fld := ⟨0x70018, 0, 1, 0, .ro, false⟩
/-- TPL_SESSION [2:1] KEY_SLOT, R482. -/
def TPL_SESSION_KEY_SLOT : Fld := ⟨0x70018, 1, 2, 0, .ro, false⟩
/-- TPL_SESSION [31:16] SESSION, R482. -/
def TPL_SESSION_SESSION : Fld := ⟨0x70018, 16, 16, 0, .ro, false⟩
/-- TPL_SEQ [31:0] LAST_SEQ, R482. -/
def TPL_SEQ_LAST_SEQ : Fld := ⟨0x7001C, 0, 32, 0, .ro, false⟩
/-- TPL_SLIST [0:0] EN, R482. -/
def TPL_SLIST_EN (i : Nat) : Fld := ⟨0x70100 + i * 0x4, 0, 1, 0, .rw, false⟩
/-- TPL_SLIST [24:2] ADDR, R482. -/
def TPL_SLIST_ADDR (i : Nat) : Fld := ⟨0x70100 + i * 0x4, 2, 23, 0, .rw, false⟩
/-- SEC_AUTH [7:0] OPEN_FAIL, R483. -/
def SEC_AUTH_OPEN_FAIL : Fld := ⟨0x80000, 0, 8, 0, .w1c, false⟩
/-- SEC_AUTH [8:8] LOCKOUT, R483. -/
def SEC_AUTH_LOCKOUT : Fld := ⟨0x80000, 8, 1, 0, .ro, false⟩
/-- SEC_AUTH [9:9] CHAL, R483. -/
def SEC_AUTH_CHAL : Fld := ⟨0x80000, 9, 1, 0, .ro, false⟩
/-- SEC_AUTH [31:16] OPENS, R483. -/
def SEC_AUTH_OPENS : Fld := ⟨0x80000, 16, 16, 0, .w1c, false⟩
/-- SEC_KEYS [3:0] SLOT_VALID, R483. -/
def SEC_KEYS_SLOT_VALID : Fld := ⟨0x80004, 0, 4, 0, .ro, true⟩
/-- SEC_ATTEST [15:0] ATTESTS, R483. -/
def SEC_ATTEST_ATTESTS : Fld := ⟨0x80008, 0, 16, 0, .w1c, false⟩
/-- SEC_ATTEST [16:16] BUSY, R483. -/
def SEC_ATTEST_BUSY : Fld := ⟨0x80008, 16, 1, 0, .ro, false⟩
/-- PWR_STATE [1:0] STATE, R532. -/
def PWR_STATE_STATE : Fld := ⟨0x90000, 0, 2, 0, .ro, false⟩
/-- PWR_STATE [2:2] BUSY, R532. -/
def PWR_STATE_BUSY : Fld := ⟨0x90000, 2, 1, 0, .ro, false⟩
/-- PWR_STATE [4:3] TARGET, R532. -/
def PWR_STATE_TARGET : Fld := ⟨0x90000, 3, 2, 0, .ro, false⟩
/-- PWR_STATE [5:5] THERMAL, R532. -/
def PWR_STATE_THERMAL : Fld := ⟨0x90000, 5, 1, 0, .ro, false⟩
/-- PWR_STATE [31:16] TRANSITIONS, R532. -/
def PWR_STATE_TRANSITIONS : Fld := ⟨0x90000, 16, 16, 0, .w1c, false⟩
/-- PWR_SUPPLY [0:0] V12_WARN, R532. -/
def PWR_SUPPLY_V12_WARN : Fld := ⟨0x90010, 0, 1, 0, .ro, false⟩
/-- PWR_SUPPLY [1:1] VCORE_WARN, R532. -/
def PWR_SUPPLY_VCORE_WARN : Fld := ⟨0x90010, 1, 1, 0, .ro, false⟩
/-- PWR_SUPPLY [2:2] HOLDOFF, R532. -/
def PWR_SUPPLY_HOLDOFF : Fld := ⟨0x90010, 2, 1, 0, .ro, false⟩
/-- PWR_SUPPLY [3:3] DIP, R532. -/
def PWR_SUPPLY_DIP : Fld := ⟨0x90010, 3, 1, 0, .ro, false⟩
/-- PWR_SUPPLY [31:16] DIPS, R532. -/
def PWR_SUPPLY_DIPS : Fld := ⟨0x90010, 16, 16, 0, .w1c, false⟩
/-- PWR_DIP_MIN [15:0] V12_MIN, R532. -/
def PWR_DIP_MIN_V12_MIN : Fld := ⟨0x90014, 0, 16, 0, .ro, false⟩
/-- PWR_DIP_MIN [31:16] VCORE_MIN, R532. -/
def PWR_DIP_MIN_VCORE_MIN : Fld := ⟨0x90014, 16, 16, 0, .ro, false⟩
/-- PWR_DIP_LEN [31:0] LEN, R532. -/
def PWR_DIP_LEN_LEN : Fld := ⟨0x90018, 0, 32, 0, .ro, false⟩
/-- PWR_RESET [1:0] CAUSE, R532. -/
def PWR_RESET_CAUSE : Fld := ⟨0x9001C, 0, 2, 0, .ro, false⟩
/-- PWR_IN [15:0] V12, R532. -/
def PWR_IN_V12 : Fld := ⟨0x90020, 0, 16, 0, .ro, false⟩
/-- PWR_IN [31:16] I12, R532. -/
def PWR_IN_I12 : Fld := ⟨0x90020, 16, 16, 0, .ro, false⟩
/-- PWR_INPWR [15:0] P, R532. -/
def PWR_INPWR_P : Fld := ⟨0x90024, 0, 16, 0, .ro, false⟩
/-- PWR_INPWR [31:16] HIGH, R532. -/
def PWR_INPWR_HIGH : Fld := ⟨0x90024, 16, 16, 0, .w1c, false⟩
/-- PWR_VCORE [15:0] VCORE, R532. -/
def PWR_VCORE_VCORE : Fld := ⟨0x90028, 0, 16, 0, .ro, false⟩
/-- PWR_VCORE [18:16] VSET, R532. -/
def PWR_VCORE_VSET : Fld := ⟨0x90028, 16, 3, 0, .ro, false⟩
/-- PWR_VCORE [21:19] VMAX, R532. -/
def PWR_VCORE_VMAX : Fld := ⟨0x90028, 19, 3, 0, .ro, true⟩
/-- PWR_THERM [9:0] WARN, R532. -/
def PWR_THERM_WARN : Fld := ⟨0x90030, 0, 10, 0, .ro, false⟩
/-- PWR_THERM [13:10] LAST_TRIP, R532. -/
def PWR_THERM_LAST_TRIP : Fld := ⟨0x90030, 10, 4, 0, .ro, false⟩
/-- PWR_THERM [14:14] TRIPPED, R532. -/
def PWR_THERM_TRIPPED : Fld := ⟨0x90030, 14, 1, 0, .ro, false⟩
/-- PWR_THERM [31:16] WARNS, R532. -/
def PWR_THERM_WARNS : Fld := ⟨0x90030, 16, 16, 0, .w1c, false⟩
/-- PWR_TEMP [15:0] TEMP, R532. -/
def PWR_TEMP_TEMP (i : Nat) : Fld := ⟨0x90040 + i * 0x4, 0, 16, 0, .ro, false⟩
/-- PWR_WX_CFG [7:0] G_BIN, R533. -/
def PWR_WX_CFG_G_BIN : Fld := ⟨0x90080, 0, 8, 0, .ro, true⟩
/-- PWR_WX_CFG [15:8] G_HYST, R533. -/
def PWR_WX_CFG_G_HYST : Fld := ⟨0x90080, 8, 8, 0, .ro, true⟩
/-- PWR_WX_CFG [23:16] G_STOP, R533. -/
def PWR_WX_CFG_G_STOP : Fld := ⟨0x90080, 16, 8, 0, .ro, true⟩
/-- PWR_WX_CFG [31:24] PERIOD, R533. -/
def PWR_WX_CFG_PERIOD : Fld := ⟨0x90080, 24, 8, 0, .ro, true⟩
/-- PWR_WX_SLIP [11:0] SLIP_MIN, R533. -/
def PWR_WX_SLIP_SLIP_MIN : Fld := ⟨0x90084, 0, 12, 0, .ro, true⟩
/-- PWR_WX_CTRL [6:0] CORE, R533. -/
def PWR_WX_CTRL_CORE : Fld := ⟨0x90088, 0, 7, 0, .rw, false⟩
/-- PWR_WX_CTRL [7:7] RESTORE, R533. -/
def PWR_WX_CTRL_RESTORE : Fld := ⟨0x90088, 7, 1, 0, .wo, false⟩
/-- PWR_WX_CNT [7:0] DEMOTES, R533. -/
def PWR_WX_CNT_DEMOTES : Fld := ⟨0x9008C, 0, 8, 0, .w1c, false⟩
/-- PWR_WX_CNT [15:8] PROMOTES, R533. -/
def PWR_WX_CNT_PROMOTES : Fld := ⟨0x9008C, 8, 8, 0, .w1c, false⟩
/-- PWR_WX_CNT [23:16] RETIRES, R533. -/
def PWR_WX_CNT_RETIRES : Fld := ⟨0x9008C, 16, 8, 0, .w1c, false⟩
/-- PWR_WX_CNT [31:24] RESTORE_FAIL, R533. -/
def PWR_WX_CNT_RESTORE_FAIL : Fld := ⟨0x9008C, 24, 8, 0, .w1c, false⟩
/-- PWR_WX_SLACK [15:0] SLACK, R533. -/
def PWR_WX_SLACK_SLACK (i : Nat) : Fld := ⟨0x90400 + i * 0x8, 0, 16, 0, .ro, false⟩
/-- PWR_WX_SLACK [31:16] AGE, R533. -/
def PWR_WX_SLACK_AGE (i : Nat) : Fld := ⟨0x90400 + i * 0x8, 16, 16, 0, .ro, false⟩
/-- PWR_WX_STATE [1:0] SAFE_BIN, R533. -/
def PWR_WX_STATE_SAFE_BIN (i : Nat) : Fld := ⟨0x90404 + i * 0x8, 0, 2, 0, .ro, false⟩
/-- PWR_WX_STATE [7:4] REASON, R533. -/
def PWR_WX_STATE_REASON (i : Nat) : Fld := ⟨0x90404 + i * 0x8, 4, 4, 0, .ro, false⟩
/-- PWR_WX_STATE [8:8] EXHAUSTED, R533. -/
def PWR_WX_STATE_EXHAUSTED (i : Nat) : Fld := ⟨0x90404 + i * 0x8, 8, 1, 0, .ro, false⟩
/-- PWR_WX_STATE [9:9] STOPPED, R533. -/
def PWR_WX_STATE_STOPPED (i : Nat) : Fld := ⟨0x90404 + i * 0x8, 9, 1, 0, .ro, false⟩
/-- SNS_CFG [0:0] EN, R372. -/
def SNS_CFG_EN : Fld := ⟨0xA0000, 0, 1, 0, .rw, true⟩
/-- SNS_CFG [2:1] RATE, R372. -/
def SNS_CFG_RATE : Fld := ⟨0xA0000, 1, 2, 0, .rw, true⟩
/-- SNS_STATUS [7:0] PRESENT, R372. -/
def SNS_STATUS_PRESENT : Fld := ⟨0xA0004, 0, 8, 0, .ro, false⟩
/-- SNS_STATUS [15:8] STALE, R372. -/
def SNS_STATUS_STALE : Fld := ⟨0xA0004, 8, 8, 0, .ro, false⟩
/-- SNS_ERR [15:0] NACKS, R372. -/
def SNS_ERR_NACKS : Fld := ⟨0xA0008, 0, 16, 0, .w1c, false⟩
/-- SNS_ERR [31:16] BUS_ERR, R372. -/
def SNS_ERR_BUS_ERR : Fld := ⟨0xA0008, 16, 16, 0, .w1c, false⟩
/-- SNS_HOST0 [15:0] HOST0, R372. -/
def SNS_HOST0_HOST0 : Fld := ⟨0xA0010, 0, 16, 0, .rw, false⟩
/-- SNS_HOST1 [15:0] HOST1, R372. -/
def SNS_HOST1_HOST1 : Fld := ⟨0xA0014, 0, 16, 0, .rw, false⟩
/-- SNS_TIME_LO [31:0] TIME_LO, R372. -/
def SNS_TIME_LO_TIME_LO : Fld := ⟨0xA0020, 0, 32, 0, .ro, false⟩
/-- SNS_TIME_HI [31:0] TIME_HI, R372. -/
def SNS_TIME_HI_TIME_HI : Fld := ⟨0xA0024, 0, 32, 0, .ro, false⟩
/-- SNS_VEC [15:0] LO, R372. -/
def SNS_VEC_LO (i : Nat) : Fld := ⟨0xA0040 + i * 0x4, 0, 16, 0, .ro, false⟩
/-- SNS_VEC [31:16] HI, R372. -/
def SNS_VEC_HI (i : Nat) : Fld := ⟨0xA0040 + i * 0x4, 16, 16, 0, .ro, false⟩
/-- SNS_VEC_FRAME [31:0] FRAME, R372. -/
def SNS_VEC_FRAME_FRAME : Fld := ⟨0xA0060, 0, 32, 0, .ro, false⟩
/-- SNS_ENTRY [31:0] DATA, R372. -/
def SNS_ENTRY_DATA (i : Nat) : Fld := ⟨0xA0100 + i * 0x4, 0, 32, 0, .ro, true⟩
/-- SNS_RAW [31:0] RAW, R372. -/
def SNS_RAW_RAW (i : Nat) : Fld := ⟨0xA0200 + i * 0x10, 0, 32, 0, .ro, false⟩
/-- SNS_TS_LO [31:0] TS_LO, R372. -/
def SNS_TS_LO_TS_LO (i : Nat) : Fld := ⟨0xA0204 + i * 0x10, 0, 32, 0, .ro, false⟩
/-- SNS_TS_HI [31:0] TS_HI, R372. -/
def SNS_TS_HI_TS_HI (i : Nat) : Fld := ⟨0xA0208 + i * 0x10, 0, 32, 0, .ro, false⟩
/-- FRS_CTRL [1:0] MODE, R371. -/
def FRS_CTRL_MODE : Fld := ⟨0xB0000, 0, 2, 0, .rw, true⟩
/-- FRS_CTRL [4:2] CH_EN, R371. -/
def FRS_CTRL_CH_EN : Fld := ⟨0xB0000, 2, 3, 0, .rw, true⟩
/-- FRS_CTRL [31:16] SEED_BASE, R371. -/
def FRS_CTRL_SEED_BASE : Fld := ⟨0xB0000, 16, 16, 0, .rw, true⟩
/-- FRS_STATUS [15:0] SEED, R371. -/
def FRS_STATUS_SEED : Fld := ⟨0xB0004, 0, 16, 0, .ro, false⟩
/-- FRS_STATUS [17:16] SOURCE, R371. -/
def FRS_STATUS_SOURCE : Fld := ⟨0xB0004, 16, 2, 0, .ro, false⟩
/-- FRS_STATUS [20:18] CHANNELS, R371. -/
def FRS_STATUS_CHANNELS : Fld := ⟨0xB0004, 18, 3, 0, .ro, false⟩
/-- FRS_STATUS [24:21] SLOT, R371. -/
def FRS_STATUS_SLOT : Fld := ⟨0xB0004, 21, 4, 0, .ro, false⟩
/-- FRS_CNT [7:0] ACCEPTED, R371. -/
def FRS_CNT_ACCEPTED : Fld := ⟨0xB0008, 0, 8, 0, .w1c, false⟩
/-- FRS_CNT [15:8] REJECTED, R371. -/
def FRS_CNT_REJECTED : Fld := ⟨0xB0008, 8, 8, 0, .w1c, false⟩
/-- FRS_CNT [23:16] MISSING, R371. -/
def FRS_CNT_MISSING : Fld := ⟨0xB0008, 16, 8, 0, .w1c, false⟩
/-- FRS_CNT [27:24] DUP, R371. -/
def FRS_CNT_DUP : Fld := ⟨0xB0008, 24, 4, 0, .w1c, false⟩
/-- FRS_CNT [31:28] LATE, R371. -/
def FRS_CNT_LATE : Fld := ⟨0xB0008, 28, 4, 0, .w1c, false⟩
/-- FRS_REJ [2:0] REASON, R371. -/
def FRS_REJ_REASON : Fld := ⟨0xB000C, 0, 3, 0, .ro, false⟩
/-- FRS_SLOT [31:0] DATA, R371. -/
def FRS_SLOT_DATA (i : Nat) : Fld := ⟨0xB1000 + i * 0x4, 0, 32, 0, .rw, false⟩
/-- DRZ_CTRL [0:0] EN, R356. -/
def DRZ_CTRL_EN : Fld := ⟨0xC0000, 0, 1, 0, .rw, true⟩
/-- DRZ_CTRL [1:1] RESET, R356. -/
def DRZ_CTRL_RESET : Fld := ⟨0xC0000, 1, 1, 0, .wo, false⟩
/-- DRZ_CTRL [7:4] QUOTA, R356. -/
def DRZ_CTRL_QUOTA : Fld := ⟨0xC0000, 4, 4, 0, .rw, true⟩
/-- DRZ_CTRL [11:8] CPF, R356. -/
def DRZ_CTRL_CPF : Fld := ⟨0xC0000, 8, 4, 0, .rw, true⟩
/-- DRZ_SEED_LO [31:0] SEED_LO, R356. -/
def DRZ_SEED_LO_SEED_LO : Fld := ⟨0xC0004, 0, 32, 0, .rw, true⟩
/-- DRZ_SEED_HI [31:0] SEED_HI, R356. -/
def DRZ_SEED_HI_SEED_HI : Fld := ⟨0xC0008, 0, 32, 0, .rw, true⟩
/-- DRZ_STATUS [1:0] STATE, R356. -/
def DRZ_STATUS_STATE : Fld := ⟨0xC000C, 0, 2, 0, .ro, false⟩
/-- DRZ_STATUS [2:2] TAINT, R356. -/
def DRZ_STATUS_TAINT : Fld := ⟨0xC000C, 2, 1, 0, .ro, false⟩
/-- DRZ_STATUS [3:3] READY, R356. -/
def DRZ_STATUS_READY : Fld := ⟨0xC000C, 3, 1, 0, .ro, false⟩
/-- DRZ_STATUS [8:4] QUEUE, R356. -/
def DRZ_STATUS_QUEUE : Fld := ⟨0xC000C, 4, 5, 0, .ro, false⟩
/-- DRZ_EPOCH [31:0] EPOCH, R356. -/
def DRZ_EPOCH_EPOCH : Fld := ⟨0xC0010, 0, 32, 0, .ro, false⟩
/-- DRZ_SC_LO [31:0] SC_LO, R356. -/
def DRZ_SC_LO_SC_LO : Fld := ⟨0xC0014, 0, 32, 0, .ro, false⟩
/-- DRZ_SC_HI [11:0] SC_HI, R356. -/
def DRZ_SC_HI_SC_HI : Fld := ⟨0xC0018, 0, 12, 0, .ro, false⟩
/-- DRZ_VERSION [31:0] VERSION, R356. -/
def DRZ_VERSION_VERSION : Fld := ⟨0xC001C, 0, 32, 0, .ro, false⟩
/-- DRZ_STEPS [31:0] STEPS, R356. -/
def DRZ_STEPS_STEPS : Fld := ⟨0xC0020, 0, 32, 0, .ro, false⟩
/-- DRZ_CROPS [31:0] CROPS, R356. -/
def DRZ_CROPS_CROPS : Fld := ⟨0xC0024, 0, 32, 0, .ro, false⟩
/-- DRZ_SKIP [15:0] CORRUPT, R356. -/
def DRZ_SKIP_CORRUPT : Fld := ⟨0xC0028, 0, 16, 0, .w1c, false⟩
/-- DRZ_SKIP [31:16] STALE, R356. -/
def DRZ_SKIP_STALE : Fld := ⟨0xC0028, 16, 16, 0, .w1c, false⟩
/-- DRZ_TD [15:0] LATE_COMMITS, R356. -/
def DRZ_TD_LATE_COMMITS : Fld := ⟨0xC002C, 0, 16, 0, .w1c, false⟩
/-- DRZ_TD [23:16] DROPPED, R356. -/
def DRZ_TD_DROPPED : Fld := ⟨0xC002C, 16, 8, 0, .w1c, false⟩
/-- DRZ_TD [31:24] ABANDONED, R356. -/
def DRZ_TD_ABANDONED : Fld := ⟨0xC002C, 24, 8, 0, .w1c, false⟩
/-- DRZ_SAT [15:0] GRAD_SAT, R356. -/
def DRZ_SAT_GRAD_SAT : Fld := ⟨0xC0030, 0, 16, 0, .w1c, false⟩
/-- DRZ_SAT [31:16] MASTER_SAT, R356. -/
def DRZ_SAT_MASTER_SAT : Fld := ⟨0xC0030, 16, 16, 0, .w1c, false⟩
/-- DRZ_STEP_CYC [31:0] STEP_CYC, R356. -/
def DRZ_STEP_CYC_STEP_CYC : Fld := ⟨0xC0034, 0, 32, 0, .ro, false⟩
/-- DRZ_COMMITS [31:0] COMMITS, R356. -/
def DRZ_COMMITS_COMMITS : Fld := ⟨0xC0038, 0, 32, 0, .w1c, false⟩
/-- AUD_REC_CTRL [0:0] EN, R458. -/
def AUD_REC_CTRL_EN : Fld := ⟨0xD0000, 0, 1, 0, .rw, true⟩
/-- AUD_REC_CTRL [1:1] WRAP, R458. -/
def AUD_REC_CTRL_WRAP : Fld := ⟨0xD0000, 1, 1, 0, .rw, true⟩
/-- AUD_REC_CTRL [2:2] SYNC, R458. -/
def AUD_REC_CTRL_SYNC : Fld := ⟨0xD0000, 2, 1, 0, .rw, true⟩
/-- AUD_REC_CTRL [3:3] SENS, R458. -/
def AUD_REC_CTRL_SENS : Fld := ⟨0xD0000, 3, 1, 0, .rw, true⟩
/-- AUD_REC_CTRL [4:4] WRITE, R458. -/
def AUD_REC_CTRL_WRITE : Fld := ⟨0xD0000, 4, 1, 0, .rw, true⟩
/-- AUD_REC_CTRL [5:5] CRC, R458. -/
def AUD_REC_CTRL_CRC : Fld := ⟨0xD0000, 5, 1, 0, .rw, true⟩
/-- AUD_REC_CTRL [6:6] LINES, R458. -/
def AUD_REC_CTRL_LINES : Fld := ⟨0xD0000, 6, 1, 0, .rw, true⟩
/-- AUD_LOG_BASE_LO [31:0] BASE_LO, R458. -/
def AUD_LOG_BASE_LO_BASE_LO : Fld := ⟨0xD0004, 0, 32, 0, .rw, true⟩
/-- AUD_LOG_BASE_HI [7:0] BASE_HI, R458. -/
def AUD_LOG_BASE_HI_BASE_HI : Fld := ⟨0xD0008, 0, 8, 0, .rw, true⟩
/-- AUD_LOG_SIZE [15:0] SIZE, R458. -/
def AUD_LOG_SIZE_SIZE : Fld := ⟨0xD000C, 0, 16, 0, .rw, true⟩
/-- AUD_LOG_STATUS [1:0] STATE, R458. -/
def AUD_LOG_STATUS_STATE : Fld := ⟨0xD0010, 0, 2, 0, .ro, false⟩
/-- AUD_LOG_PTR [31:0] PTR, R458. -/
def AUD_LOG_PTR_PTR : Fld := ⟨0xD0014, 0, 32, 0, .ro, false⟩
/-- AUD_LOG_CNT [15:0] LOST, R458. -/
def AUD_LOG_CNT_LOST : Fld := ⟨0xD0018, 0, 16, 0, .w1c, false⟩
/-- AUD_LOG_CNT [31:16] WITHHELD, R458. -/
def AUD_LOG_CNT_WITHHELD : Fld := ⟨0xD0018, 16, 16, 0, .w1c, false⟩
/-- AUD_RING_BASE_LO [31:0] RBASE_LO, R458. -/
def AUD_RING_BASE_LO_RBASE_LO : Fld := ⟨0xD0020, 0, 32, 0, .ro, true⟩
/-- AUD_RING_BASE_HI [7:0] RBASE_HI, R458. -/
def AUD_RING_BASE_HI_RBASE_HI : Fld := ⟨0xD0024, 0, 8, 0, .ro, true⟩
/-- AUD_RING_COUNT [15:0] COUNT, R458. -/
def AUD_RING_COUNT_COUNT : Fld := ⟨0xD0028, 0, 16, 0, .ro, true⟩
/-- AUD_REC_LAST [31:0] REC_LAST, R458. -/
def AUD_REC_LAST_REC_LAST : Fld := ⟨0xD002C, 0, 32, 0, .ro, false⟩
/-- AUD_REC_CNT [15:0] REC_LOST, R458. -/
def AUD_REC_CNT_REC_LOST : Fld := ⟨0xD0030, 0, 16, 0, .w1c, false⟩
/-- AUD_REC_CNT [31:16] TD_FRAMES, R458. -/
def AUD_REC_CNT_TD_FRAMES : Fld := ⟨0xD0030, 16, 16, 0, .w1c, false⟩
/-- AUD_TD_LAST [31:0] TD, R458. -/
def AUD_TD_LAST_TD : Fld := ⟨0xD0034, 0, 32, 0, .ro, false⟩
/-- AUD_REPLAY_CTRL [0:0] ARM, R458. -/
def AUD_REPLAY_CTRL_ARM : Fld := ⟨0xD0040, 0, 1, 0, .rwl, false⟩
/-- AUD_REPLAY_CTRL [1:1] GO, R458. -/
def AUD_REPLAY_CTRL_GO : Fld := ⟨0xD0040, 1, 1, 0, .wo, false⟩
/-- AUD_REPLAY_CTRL [2:2] REPLAY_LINES, R458. -/
def AUD_REPLAY_CTRL_REPLAY_LINES : Fld := ⟨0xD0040, 2, 1, 0, .rwl, false⟩
/-- AUD_REPLAY_BASE_LO [31:0] BASE_LO, R458. -/
def AUD_REPLAY_BASE_LO_BASE_LO : Fld := ⟨0xD0044, 0, 32, 0, .rwl, false⟩
/-- AUD_REPLAY_BASE_HI [7:0] BASE_HI, R458. -/
def AUD_REPLAY_BASE_HI_BASE_HI : Fld := ⟨0xD0048, 0, 8, 0, .rwl, false⟩
/-- AUD_REPLAY_SIZE [15:0] SIZE, R458. -/
def AUD_REPLAY_SIZE_SIZE : Fld := ⟨0xD004C, 0, 16, 0, .rwl, false⟩
/-- AUD_REPLAY_STATUS [2:0] STATE, R458. -/
def AUD_REPLAY_STATUS_STATE : Fld := ⟨0xD0050, 0, 3, 0, .ro, false⟩
/-- AUD_REPLAY_STATUS [3:3] DIVERGED, R458. -/
def AUD_REPLAY_STATUS_DIVERGED : Fld := ⟨0xD0050, 3, 1, 0, .ro, false⟩
/-- AUD_REPLAY_STATUS [31:16] REFUSED, R458. -/
def AUD_REPLAY_STATUS_REFUSED : Fld := ⟨0xD0050, 16, 16, 0, .w1c, false⟩
/-- AUD_REPLAY_CNT [15:0] MISMATCH, R458. -/
def AUD_REPLAY_CNT_MISMATCH : Fld := ⟨0xD0054, 0, 16, 0, .w1c, false⟩
/-- AUD_REPLAY_CNT [31:16] LATE, R458. -/
def AUD_REPLAY_CNT_LATE : Fld := ⟨0xD0054, 16, 16, 0, .w1c, false⟩

end Sys2Proof.F
end

