-- ==== Sys2Proof/Machine/FieldsUnit.lean ====
section
/-! DEFINITION. Register fields of the BAND and CORE blocks, of the stream engines (R253; `a` is the engine's base address) and of the arbiters (R435; `a` is the address R435 gives) (R568, R569). Each name is the spec's register and field; the rule cited defines it. -/
namespace Sys2Proof.F

/-- BAND_SLOTMAP [3:0] IDLE_SLOT, R29. -/
def BAND_SLOTMAP_IDLE_SLOT (b : Nat) : Fld := ⟨0x100000 + b * 0x10000, 0, 4, 8, .ro, false⟩
/-- BAND_SLOTMAP [4:4] IDLE_RETIRED, R29. -/
def BAND_SLOTMAP_IDLE_RETIRED (b : Nat) : Fld := ⟨0x100000 + b * 0x10000, 4, 1, 0, .ro, false⟩
/-- BAND_SLOTMAP [5:5] GATED, R29. -/
def BAND_SLOTMAP_GATED (b : Nat) : Fld := ⟨0x100000 + b * 0x10000, 5, 1, 0, .ro, false⟩
/-- BAND_LS_ECC [15:0] CORRECTED, R230. -/
def BAND_LS_ECC_CORRECTED (b : Nat) : Fld := ⟨0x100010 + b * 0x10000, 0, 16, 0, .w1c, false⟩
/-- BAND_LS_ECC [23:16] UNCORR, R230. -/
def BAND_LS_ECC_UNCORR (b : Nat) : Fld := ⟨0x100010 + b * 0x10000, 16, 8, 0, .w1c, false⟩
/-- BAND_LS_REF [15:0] REF_ERR, R230. -/
def BAND_LS_REF_REF_ERR (b : Nat) : Fld := ⟨0x100014 + b * 0x10000, 0, 16, 0, .w1c, false⟩
/-- BAND_LS_REF [31:16] IN_OVERRUN, R230. -/
def BAND_LS_REF_IN_OVERRUN (b : Nat) : Fld := ⟨0x100014 + b * 0x10000, 16, 16, 0, .w1c, false⟩
/-- BAND_LS_MAP [9:0] SPARES_LEFT, R230. -/
def BAND_LS_MAP_SPARES_LEFT (b : Nat) : Fld := ⟨0x100018 + b * 0x10000, 0, 10, 0, .ro, false⟩
/-- BAND_LS_MAP [13:10] QUEUED, R230. -/
def BAND_LS_MAP_QUEUED (b : Nat) : Fld := ⟨0x100018 + b * 0x10000, 10, 4, 0, .ro, false⟩
/-- BAND_LS_MAP [23:16] FIELD_MAPPED, R230. -/
def BAND_LS_MAP_FIELD_MAPPED (b : Nat) : Fld := ⟨0x100018 + b * 0x10000, 16, 8, 0, .w1c, false⟩
/-- BAND_LS_MAP [31:24] NO_SPARE, R230. -/
def BAND_LS_MAP_NO_SPARE (b : Nat) : Fld := ⟨0x100018 + b * 0x10000, 24, 8, 0, .w1c, false⟩
/-- BAND_LS_CFG [3:0] CE_LIMIT, R230. -/
def BAND_LS_CFG_CE_LIMIT (b : Nat) : Fld := ⟨0x10001C + b * 0x10000, 0, 4, 3, .rw, false⟩
/-- BAND_LS_WAIT [31:0] LS_WAIT, R230. -/
def BAND_LS_WAIT_LS_WAIT (b : Nat) : Fld := ⟨0x100020 + b * 0x10000, 0, 32, 0, .ro, false⟩
/-- BAND_SPARE [7:0] HANDOVERS, R273. -/
def BAND_SPARE_HANDOVERS (b : Nat) : Fld := ⟨0x100028 + b * 0x10000, 0, 8, 0, .w1c, false⟩
/-- BAND_SPARE [11:8] PENDING_SLOT, R273. -/
def BAND_SPARE_PENDING_SLOT (b : Nat) : Fld := ⟨0x100028 + b * 0x10000, 8, 4, 0, .ro, false⟩
/-- BAND_SPARE [12:12] PENDING, R273. -/
def BAND_SPARE_PENDING (b : Nat) : Fld := ⟨0x100028 + b * 0x10000, 12, 1, 0, .ro, false⟩
/-- BAND_STRIPE [15:0] Y0, R261. -/
def BAND_STRIPE_Y0 (b : Nat) : Fld := ⟨0x100030 + b * 0x10000, 0, 16, 0, .ro, false⟩
/-- BAND_STRIPE [31:16] HEIGHT, R261. -/
def BAND_STRIPE_HEIGHT (b : Nat) : Fld := ⟨0x100030 + b * 0x10000, 16, 16, 0, .ro, false⟩
/-- BAND_FAB_SPLIT [6:0] READ, R276. -/
def BAND_FAB_SPLIT_READ (b : Nat) : Fld := ⟨0x100040 + b * 0x10000, 0, 7, 0, .ro, true⟩
/-- BAND_FAB_SPLIT [13:7] WRITE, R276. -/
def BAND_FAB_SPLIT_WRITE (b : Nat) : Fld := ⟨0x100040 + b * 0x10000, 7, 7, 0, .ro, true⟩
/-- BAND_FAB_SPLIT [20:14] REMOTE, R276. -/
def BAND_FAB_SPLIT_REMOTE (b : Nat) : Fld := ⟨0x100040 + b * 0x10000, 14, 7, 0, .ro, true⟩
/-- BAND_FAB_READ [31:0] READ_BEATS, R276. -/
def BAND_FAB_READ_READ_BEATS (b : Nat) : Fld := ⟨0x100044 + b * 0x10000, 0, 32, 0, .ro, false⟩
/-- BAND_FAB_WRITE [31:0] WRITE_BEATS, R276. -/
def BAND_FAB_WRITE_WRITE_BEATS (b : Nat) : Fld := ⟨0x100048 + b * 0x10000, 0, 32, 0, .ro, false⟩
/-- BAND_FAB_REMOTE [31:0] REMOTE_BEATS, R276. -/
def BAND_FAB_REMOTE_REMOTE_BEATS (b : Nat) : Fld := ⟨0x10004C + b * 0x10000, 0, 32, 0, .ro, false⟩
/-- BAND_WARP [31:0] WARP_WAIT, R329. -/
def BAND_WARP_WARP_WAIT (b : Nat) : Fld := ⟨0x100050 + b * 0x10000, 0, 32, 0, .ro, false⟩
/-- ARB_TKT [7:0] TICKETS, R435. -/
def ARB_TKT_TICKETS (a : Nat) : Fld := ⟨a, 0, 8, 0, .rw, true⟩
/-- ARB_TKT [10:8] TIER, R435. -/
def ARB_TKT_TIER (a : Nat) : Fld := ⟨a, 8, 3, 0, .ro, true⟩
/-- ARB_LFSR [31:0] LFSR, R435. -/
def ARB_LFSR_LFSR (a : Nat) : Fld := ⟨a, 0, 32, 0, .ro, true⟩
/-- ARB_GRANTS [31:0] GRANTS, R435. -/
def ARB_GRANTS_GRANTS (a : Nat) : Fld := ⟨a + 0x0, 0, 32, 0, .w1c, false⟩
/-- ARB_WAITS [31:0] WAITS, R435. -/
def ARB_WAITS_WAITS (a : Nat) : Fld := ⟨a + 0x4, 0, 32, 0, .w1c, false⟩
/-- ARB_MAXWAIT [15:0] MAXWAIT, R435. -/
def ARB_MAXWAIT_MAXWAIT (a : Nat) : Fld := ⟨a + 0x8, 0, 16, 0, .w1c, false⟩
/-- ARB_STATE [0:0] MASKED, R435. -/
def ARB_STATE_MASKED (a : Nat) : Fld := ⟨a + 0xC, 0, 1, 0, .ro, false⟩
/-- ARB_STATE [1:1] PARKED, R435. -/
def ARB_STATE_PARKED (a : Nat) : Fld := ⟨a + 0xC, 1, 1, 0, .ro, false⟩
/-- BAND_PRN [31:0] DATA, R256. -/
def BAND_PRN_DATA (b i : Nat) : Fld := ⟨0x101000 + b * 0x10000 + i * 0x4, 0, 32, 0, .ro, true⟩
/-- BAND_LIST [31:0] DATA, R256. -/
def BAND_LIST_DATA (b i : Nat) : Fld := ⟨0x102000 + b * 0x10000 + i * 0x4, 0, 32, 0, .ro, true⟩
/-- CORE_IDENT [7:0] PHYS, R28. -/
def CORE_IDENT_PHYS (p : Nat) : Fld := ⟨0x1000000 + p * 0x20000, 0, 8, p, .ro, false⟩
/-- CORE_IDENT [11:8] SLOT, R28. -/
def CORE_IDENT_SLOT (p : Nat) : Fld := ⟨0x1000000 + p * 0x20000, 8, 4, (p % 9), .ro, false⟩
/-- CORE_IDENT [14:12] BAND, R28. -/
def CORE_IDENT_BAND (p : Nat) : Fld := ⟨0x1000000 + p * 0x20000, 12, 3, (p / 9), .ro, false⟩
/-- CORE_IDENT [21:16] LOGICAL, R28. -/
def CORE_IDENT_LOGICAL (p : Nat) : Fld := ⟨0x1000000 + p * 0x20000, 16, 6, (if p % 9 = 8 then 0 else 8 * (p / 9) + p % 9), .ro, false⟩
/-- CORE_IDENT [25:24] ROLE, R28. -/
def CORE_IDENT_ROLE (p : Nat) : Fld := ⟨0x1000000 + p * 0x20000, 24, 2, (if p % 9 = 8 then 1 else 0), .ro, false⟩
/-- CORE_IDENT [27:26] BIN, R28. -/
def CORE_IDENT_BIN (p : Nat) : Fld := ⟨0x1000000 + p * 0x20000, 26, 2, 0, .ro, false⟩
/-- CORE_CLK [1:0] BIN_PLAN, R163. -/
def CORE_CLK_BIN_PLAN (p : Nat) : Fld := ⟨0x1000008 + p * 0x20000, 0, 2, 0, .ro, false⟩
/-- CORE_CLK [2:2] BIN_DIP, R163. -/
def CORE_CLK_BIN_DIP (p : Nat) : Fld := ⟨0x1000008 + p * 0x20000, 2, 1, 0, .ro, false⟩
/-- CORE_CLK [5:4] BIN_EFF, R163. -/
def CORE_CLK_BIN_EFF (p : Nat) : Fld := ⟨0x1000008 + p * 0x20000, 4, 2, 0, .ro, false⟩
/-- CORE_CLK [31:16] CHANGES, R163. -/
def CORE_CLK_CHANGES (p : Nat) : Fld := ⟨0x1000008 + p * 0x20000, 16, 16, 0, .w1c, false⟩
/-- CORE_THREAD [7:0] STATE, R169. -/
def CORE_THREAD_STATE (p : Nat) : Fld := ⟨0x100000C + p * 0x20000, 0, 8, 0, .ro, false⟩
/-- CORE_THREAD [8:8] LINE_THREADED, R169. -/
def CORE_THREAD_LINE_THREADED (p : Nat) : Fld := ⟨0x100000C + p * 0x20000, 8, 1, 0, .ro, true⟩
/-- CORE_THREAD [9:9] FWIN, R169. -/
def CORE_THREAD_FWIN (p : Nat) : Fld := ⟨0x100000C + p * 0x20000, 9, 1, 0, .ro, false⟩
/-- CORE_THREAD [10:10] MWIN, R169. -/
def CORE_THREAD_MWIN (p : Nat) : Fld := ⟨0x100000C + p * 0x20000, 10, 1, 0, .ro, false⟩
/-- CORE_FAULT [3:0] CODE, R168. -/
def CORE_FAULT_CODE (p : Nat) : Fld := ⟨0x1000010 + p * 0x20000, 0, 4, 0, .ro, false⟩
/-- CORE_FAULT [5:4] THREAD, R168. -/
def CORE_FAULT_THREAD (p : Nat) : Fld := ⟨0x1000010 + p * 0x20000, 4, 2, 0, .ro, false⟩
/-- CORE_FAULT [13:6] LAYER, R168. -/
def CORE_FAULT_LAYER (p : Nat) : Fld := ⟨0x1000010 + p * 0x20000, 6, 8, 0, .ro, false⟩
/-- CORE_FAULT [31:16] COUNT, R168. -/
def CORE_FAULT_COUNT (p : Nat) : Fld := ⟨0x1000010 + p * 0x20000, 16, 16, 0, .w1c, false⟩
/-- CORE_FAULT_AT [15:0] LINE, R168. -/
def CORE_FAULT_AT_LINE (p : Nat) : Fld := ⟨0x1000014 + p * 0x20000, 0, 16, 0, .ro, false⟩
/-- CORE_FAULT_AT [31:16] FRAME, R168. -/
def CORE_FAULT_AT_FRAME (p : Nat) : Fld := ⟨0x1000014 + p * 0x20000, 16, 16, 0, .ro, false⟩
/-- CORE_WFILE [15:0] WF_SCRUBS, R168. -/
def CORE_WFILE_WF_SCRUBS (p : Nat) : Fld := ⟨0x1000018 + p * 0x20000, 0, 16, 0, .w1c, false⟩
/-- CORE_WFILE [23:16] WF_HARD, R168. -/
def CORE_WFILE_WF_HARD (p : Nat) : Fld := ⟨0x1000018 + p * 0x20000, 16, 8, 0, .w1c, false⟩
/-- CORE_WFILE [24:24] ADAPT_BANK, R168. -/
def CORE_WFILE_ADAPT_BANK (p : Nat) : Fld := ⟨0x1000018 + p * 0x20000, 24, 1, 0, .ro, false⟩
/-- CORE_SEG [15:0] SEG_X0, R259. -/
def CORE_SEG_SEG_X0 (p : Nat) : Fld := ⟨0x1000020 + p * 0x20000, 0, 16, 0, .ro, true⟩
/-- CORE_SEG [23:16] SEG_W, R259. -/
def CORE_SEG_SEG_W (p : Nat) : Fld := ⟨0x1000020 + p * 0x20000, 16, 8, 0, .ro, true⟩
/-- CORE_LINE_MISS [15:0] MISSES, R69. -/
def CORE_LINE_MISS_MISSES (p : Nat) : Fld := ⟨0x1000040 + p * 0x20000, 0, 16, 0, .w1c, false⟩
/-- CORE_LINE_MISS [23:16] REENTRIES, R69. -/
def CORE_LINE_MISS_REENTRIES (p : Nat) : Fld := ⟨0x1000040 + p * 0x20000, 16, 8, 0, .w1c, false⟩
/-- CORE_LINE_MISS [27:24] LAST_CAUSE, R69. -/
def CORE_LINE_MISS_LAST_CAUSE (p : Nat) : Fld := ⟨0x1000040 + p * 0x20000, 24, 4, 0, .ro, false⟩
/-- CORE_UTIL_LINE [31:0] UTIL_LINE, R170. -/
def CORE_UTIL_LINE_UTIL_LINE (p : Nat) : Fld := ⟨0x1000050 + p * 0x20000, 0, 32, 0, .ro, false⟩
/-- CORE_UTIL_FRAME [31:0] UTIL_FRAME, R170. -/
def CORE_UTIL_FRAME_UTIL_FRAME (p : Nat) : Fld := ⟨0x1000054 + p * 0x20000, 0, 32, 0, .ro, false⟩
/-- CORE_UTIL_WAIT [31:0] UTIL_WAIT, R170. -/
def CORE_UTIL_WAIT_UTIL_WAIT (p : Nat) : Fld := ⟨0x1000058 + p * 0x20000, 0, 32, 0, .ro, false⟩
/-- CORE_MAP_CNT [15:0] EMPTY, R198. -/
def CORE_MAP_CNT_EMPTY (p : Nat) : Fld := ⟨0x1000060 + p * 0x20000, 0, 16, 0, .w1c, false⟩
/-- CORE_MAP_CNT [31:16] SKIPPED, R198. -/
def CORE_MAP_CNT_SKIPPED (p : Nat) : Fld := ⟨0x1000060 + p * 0x20000, 16, 16, 0, .w1c, false⟩
/-- CORE_ZC [15:0] ZC_ERR, R198. -/
def CORE_ZC_ZC_ERR (p : Nat) : Fld := ⟨0x1000064 + p * 0x20000, 0, 16, 0, .w1c, false⟩
/-- CORE_ZC_RAW [31:0] RAW, R198. -/
def CORE_ZC_RAW_RAW (p : Nat) : Fld := ⟨0x1000068 + p * 0x20000, 0, 32, 0, .ro, false⟩
/-- CORE_ZC_PACK [31:0] PACK, R198. -/
def CORE_ZC_PACK_PACK (p : Nat) : Fld := ⟨0x100006C + p * 0x20000, 0, 32, 0, .ro, false⟩
/-- CORE_ARITH_SAT [15:0] CELL_SAT, R134. -/
def CORE_ARITH_SAT_CELL_SAT (p : Nat) : Fld := ⟨0x1000080 + p * 0x20000, 0, 16, 0, .w1c, false⟩
/-- CORE_ARITH_SAT [31:16] PROD_SAT, R134. -/
def CORE_ARITH_SAT_PROD_SAT (p : Nat) : Fld := ⟨0x1000080 + p * 0x20000, 16, 16, 0, .w1c, false⟩
/-- CORE_ARITH_WIDE [15:0] SUM_SAT, R134. -/
def CORE_ARITH_WIDE_SUM_SAT (p : Nat) : Fld := ⟨0x1000084 + p * 0x20000, 0, 16, 0, .w1c, false⟩
/-- CORE_ARITH_WIDE [31:16] STAGE_SAT, R134. -/
def CORE_ARITH_WIDE_STAGE_SAT (p : Nat) : Fld := ⟨0x1000084 + p * 0x20000, 16, 16, 0, .w1c, false⟩
/-- CORE_ARITH_QNT [15:0] SCALE_SAT, R134. -/
def CORE_ARITH_QNT_SCALE_SAT (p : Nat) : Fld := ⟨0x1000088 + p * 0x20000, 0, 16, 0, .w1c, false⟩
/-- CORE_ARITH_QNT [23:16] BAD_ESC, R134. -/
def CORE_ARITH_QNT_BAD_ESC (p : Nat) : Fld := ⟨0x1000088 + p * 0x20000, 16, 8, 0, .w1c, false⟩
/-- CORE_ARITH_QNT [31:24] RSV_SCALE, R134. -/
def CORE_ARITH_QNT_RSV_SCALE (p : Nat) : Fld := ⟨0x1000088 + p * 0x20000, 24, 8, 0, .w1c, false⟩
/-- CORE_ARITH_ROWS [15:0] CONST_ROWS, R134. -/
def CORE_ARITH_ROWS_CONST_ROWS (p : Nat) : Fld := ⟨0x100008C + p * 0x20000, 0, 16, 0, .w1c, false⟩
/-- CORE_ARITH_ROWS [31:16] ESC_ROWS, R134. -/
def CORE_ARITH_ROWS_ESC_ROWS (p : Nat) : Fld := ⟨0x100008C + p * 0x20000, 16, 16, 0, .w1c, false⟩
/-- CORE_SPAD_ECC [15:0] CORRECTED, R228. -/
def CORE_SPAD_ECC_CORRECTED (p : Nat) : Fld := ⟨0x1000090 + p * 0x20000, 0, 16, 0, .w1c, false⟩
/-- CORE_SPAD_ECC [23:16] UNCORR, R228. -/
def CORE_SPAD_ECC_UNCORR (p : Nat) : Fld := ⟨0x1000090 + p * 0x20000, 16, 8, 0, .w1c, false⟩
/-- CORE_SPAD_LAST [4:0] BANK, R228. -/
def CORE_SPAD_LAST_BANK (p : Nat) : Fld := ⟨0x1000094 + p * 0x20000, 0, 5, 0, .ro, false⟩
/-- CORE_SPAD_LAST [12:5] ROW, R228. -/
def CORE_SPAD_LAST_ROW (p : Nat) : Fld := ⟨0x1000094 + p * 0x20000, 5, 8, 0, .ro, false⟩
/-- CORE_SPAD_LAST [13:13] UNC, R228. -/
def CORE_SPAD_LAST_UNC (p : Nat) : Fld := ⟨0x1000094 + p * 0x20000, 13, 1, 0, .ro, false⟩
/-- CORE_SPAD_CONF [4:0] BANK, R228. -/
def CORE_SPAD_CONF_BANK (p : Nat) : Fld := ⟨0x1000098 + p * 0x20000, 0, 5, 0, .ro, false⟩
/-- CORE_SPAD_CONF [7:5] UNIT_A, R228. -/
def CORE_SPAD_CONF_UNIT_A (p : Nat) : Fld := ⟨0x1000098 + p * 0x20000, 5, 3, 0, .ro, false⟩
/-- CORE_SPAD_CONF [10:8] UNIT_B, R228. -/
def CORE_SPAD_CONF_UNIT_B (p : Nat) : Fld := ⟨0x1000098 + p * 0x20000, 8, 3, 0, .ro, false⟩
/-- CORE_SPAD_CONF [31:16] CONFLICTS, R228. -/
def CORE_SPAD_CONF_CONFLICTS (p : Nat) : Fld := ⟨0x1000098 + p * 0x20000, 16, 16, 0, .w1c, false⟩
/-- CORE_SPAD_MAP [7:0] SPARES_LEFT, R228. -/
def CORE_SPAD_MAP_SPARES_LEFT (p : Nat) : Fld := ⟨0x100009C + p * 0x20000, 0, 8, 0, .ro, false⟩
/-- CORE_SPAD_MAP [11:8] QUEUED, R228. -/
def CORE_SPAD_MAP_QUEUED (p : Nat) : Fld := ⟨0x100009C + p * 0x20000, 8, 4, 0, .ro, false⟩
/-- CORE_SPAD_MAP [15:12] CLIPPED, R228. -/
def CORE_SPAD_MAP_CLIPPED (p : Nat) : Fld := ⟨0x100009C + p * 0x20000, 12, 4, 0, .w1c, false⟩
/-- CORE_SPAD_MAP [23:16] FIELD_MAPPED, R228. -/
def CORE_SPAD_MAP_FIELD_MAPPED (p : Nat) : Fld := ⟨0x100009C + p * 0x20000, 16, 8, 0, .w1c, false⟩
/-- CORE_SPAD_MAP [31:24] NO_SPARE, R228. -/
def CORE_SPAD_MAP_NO_SPARE (p : Nat) : Fld := ⟨0x100009C + p * 0x20000, 24, 8, 0, .w1c, false⟩
/-- CORE_SPAD_CFG [3:0] CE_LIMIT, R228. -/
def CORE_SPAD_CFG_CE_LIMIT (p : Nat) : Fld := ⟨0x10000A0 + p * 0x20000, 0, 4, 3, .rw, false⟩
/-- CORE_SLIP [15:0] MIN_LEFT, R228. -/
def CORE_SLIP_MIN_LEFT (p : Nat) : Fld := ⟨0x10000A4 + p * 0x20000, 0, 16, 0, .ro, false⟩
/-- CORE_SLIP [31:16] STALL_ECC, R228. -/
def CORE_SLIP_STALL_ECC (p : Nat) : Fld := ⟨0x10000A4 + p * 0x20000, 16, 16, 0, .ro, false⟩
/-- CORE_SPAD_BG [31:0] BG_WAIT, R228. -/
def CORE_SPAD_BG_BG_WAIT (p : Nat) : Fld := ⟨0x10000A8 + p * 0x20000, 0, 32, 0, .ro, false⟩
/-- CORE_STALL_IN [31:0] STALL_IN, R255. -/
def CORE_STALL_IN_STALL_IN (p : Nat) : Fld := ⟨0x10000C0 + p * 0x20000, 0, 32, 0, .w1c, false⟩
/-- CORE_STALL_DATA [31:0] STALL_DATA, R255. -/
def CORE_STALL_DATA_STALL_DATA (p : Nat) : Fld := ⟨0x10000C4 + p * 0x20000, 0, 32, 0, .w1c, false⟩
/-- CORE_STALL_FULL [31:0] STALL_FULL, R255. -/
def CORE_STALL_FULL_STALL_FULL (p : Nat) : Fld := ⟨0x10000C8 + p * 0x20000, 0, 32, 0, .w1c, false⟩
/-- CORE_STALL_EMPTY [31:0] STALL_EMPTY, R255. -/
def CORE_STALL_EMPTY_STALL_EMPTY (p : Nat) : Fld := ⟨0x10000CC + p * 0x20000, 0, 32, 0, .w1c, false⟩
/-- CORE_STALL_HALT [31:0] STALL_HALT, R255. -/
def CORE_STALL_HALT_STALL_HALT (p : Nat) : Fld := ⟨0x10000D0 + p * 0x20000, 0, 32, 0, .w1c, false⟩
/-- CORE_STALL_SLOT [31:0] STALL_SLOT, R255. -/
def CORE_STALL_SLOT_STALL_SLOT (p : Nat) : Fld := ⟨0x10000D4 + p * 0x20000, 0, 32, 0, .w1c, false⟩
/-- CORE_STALL_SUFFIX [31:0] STALL_SUFFIX, R255. -/
def CORE_STALL_SUFFIX_STALL_SUFFIX (p : Nat) : Fld := ⟨0x10000D8 + p * 0x20000, 0, 32, 0, .w1c, false⟩
/-- CORE_SEM_ERR [15:0] OVERFLOWS, R254. -/
def CORE_SEM_ERR_OVERFLOWS (p : Nat) : Fld := ⟨0x10000E0 + p * 0x20000, 0, 16, 0, .w1c, false⟩
/-- CORE_SEM_ERR [31:16] DRAIN_ERR, R254. -/
def CORE_SEM_ERR_DRAIN_ERR (p : Nat) : Fld := ⟨0x10000E0 + p * 0x20000, 16, 16, 0, .w1c, false⟩
/-- CORE_RWIN [15:0] LATE_RW, R268. -/
def CORE_RWIN_LATE_RW (p : Nat) : Fld := ⟨0x10000E4 + p * 0x20000, 0, 16, 0, .w1c, false⟩
/-- CORE_RWIN [21:16] LATE_SRC, R268. -/
def CORE_RWIN_LATE_SRC (p : Nat) : Fld := ⟨0x10000E4 + p * 0x20000, 16, 6, 0, .ro, false⟩
/-- CORE_RWIN [22:22] LATE_ROLE, R268. -/
def CORE_RWIN_LATE_ROLE (p : Nat) : Fld := ⟨0x10000E4 + p * 0x20000, 22, 1, 0, .ro, false⟩
/-- CORE_RWIN_NACK [15:0] NACKS, R268. -/
def CORE_RWIN_NACK_NACKS (p : Nat) : Fld := ⟨0x10000E8 + p * 0x20000, 0, 16, 0, .w1c, false⟩
/-- CORE_BARRIER [31:0] BARRIER_WAIT, R279. -/
def CORE_BARRIER_BARRIER_WAIT (p : Nat) : Fld := ⟨0x10000EC + p * 0x20000, 0, 32, 0, .w1c, false⟩
/-- CORE_HIST_CFG [0:0] EN, R136. -/
def CORE_HIST_CFG_EN (p i : Nat) : Fld := ⟨0x1000100 + p * 0x20000 + i * 0x10, 0, 1, 0, .rw, false⟩
/-- CORE_HIST_CFG [1:1] SNAP, R136. -/
def CORE_HIST_CFG_SNAP (p i : Nat) : Fld := ⟨0x1000100 + p * 0x20000 + i * 0x10, 1, 1, 0, .rw, false⟩
/-- CORE_HIST_CFG [2:2] CLR, R136. -/
def CORE_HIST_CFG_CLR (p i : Nat) : Fld := ⟨0x1000100 + p * 0x20000 + i * 0x10, 2, 1, 0, .wo, false⟩
/-- CORE_HIST_CFG [7:4] SRC, R136. -/
def CORE_HIST_CFG_SRC (p i : Nat) : Fld := ⟨0x1000100 + p * 0x20000 + i * 0x10, 4, 4, 0, .rw, false⟩
/-- CORE_HIST_CFG [15:8] LAYER, R136. -/
def CORE_HIST_CFG_LAYER (p i : Nat) : Fld := ⟨0x1000100 + p * 0x20000 + i * 0x10, 8, 8, 0, .rw, false⟩
/-- CORE_HIST_CFG [21:16] CHAN, R136. -/
def CORE_HIST_CFG_CHAN (p i : Nat) : Fld := ⟨0x1000100 + p * 0x20000 + i * 0x10, 16, 6, 0, .rw, false⟩
/-- CORE_HIST_CFG [22:22] ALLCH, R136. -/
def CORE_HIST_CFG_ALLCH (p i : Nat) : Fld := ⟨0x1000100 + p * 0x20000 + i * 0x10, 22, 1, 1, .rw, false⟩
/-- CORE_HIST_LO [31:0] LO, R136. -/
def CORE_HIST_LO_LO (p i : Nat) : Fld := ⟨0x1000104 + p * 0x20000 + i * 0x10, 0, 32, 0, .rw, false⟩
/-- CORE_HIST_SHIFT [4:0] SHIFT, R136. -/
def CORE_HIST_SHIFT_SHIFT (p i : Nat) : Fld := ⟨0x1000108 + p * 0x20000 + i * 0x10, 0, 5, 0, .rw, false⟩
/-- CORE_HIST_FRAME [31:0] FRAME, R136. -/
def CORE_HIST_FRAME_FRAME (p i : Nat) : Fld := ⟨0x100010C + p * 0x20000 + i * 0x10, 0, 32, 0, .ro, false⟩
/-- ENG_CTRL [0:0] RETRY, R253. -/
def ENG_CTRL_RETRY (a : Nat) : Fld := ⟨a + 0x0, 0, 1, 0, .wo, false⟩
/-- ENG_CTRL [1:1] ABORT, R253. -/
def ENG_CTRL_ABORT (a : Nat) : Fld := ⟨a + 0x0, 1, 1, 0, .wo, false⟩
/-- ENG_STATE [1:0] STATE, R253. -/
def ENG_STATE_STATE (a : Nat) : Fld := ⟨a + 0x4, 0, 2, 0, .ro, false⟩
/-- ENG_STATE [2:2] PENDING, R253. -/
def ENG_STATE_PENDING (a : Nat) : Fld := ⟨a + 0x4, 2, 1, 0, .ro, false⟩
/-- ENG_STATE [5:3] OUTST, R253. -/
def ENG_STATE_OUTST (a : Nat) : Fld := ⟨a + 0x4, 3, 3, 0, .ro, false⟩
/-- ENG_STATE [11:6] LIST, R253. -/
def ENG_STATE_LIST (a : Nat) : Fld := ⟨a + 0x4, 6, 6, 0, .ro, false⟩
/-- ENG_STATE [17:12] PEND_LIST, R253. -/
def ENG_STATE_PEND_LIST (a : Nat) : Fld := ⟨a + 0x4, 12, 6, 0, .ro, false⟩
/-- ENG_STATE [21:18] HALT_CAUSE, R253. -/
def ENG_STATE_HALT_CAUSE (a : Nat) : Fld := ⟨a + 0x4, 18, 4, 0, .ro, false⟩
/-- ENG_POS [11:0] DESC, R253. -/
def ENG_POS_DESC (a : Nat) : Fld := ⟨a + 0x8, 0, 12, 0, .ro, false⟩
/-- ENG_POS [23:12] LINE, R253. -/
def ENG_POS_LINE (a : Nat) : Fld := ⟨a + 0x8, 12, 12, 0, .ro, false⟩
/-- ENG_POS [31:24] XFER, R253. -/
def ENG_POS_XFER (a : Nat) : Fld := ⟨a + 0x8, 24, 8, 0, .ro, false⟩
/-- ENG_FADDR_LO [31:0] ADDR_LO, R253. -/
def ENG_FADDR_LO_ADDR_LO (a : Nat) : Fld := ⟨a + 0xC, 0, 32, 0, .ro, false⟩
/-- ENG_FADDR_HI [7:0] ADDR_HI, R253. -/
def ENG_FADDR_HI_ADDR_HI (a : Nat) : Fld := ⟨a + 0x10, 0, 8, 0, .ro, false⟩
/-- ENG_FADDR_HI [9:8] SPACE, R253. -/
def ENG_FADDR_HI_SPACE (a : Nat) : Fld := ⟨a + 0x10, 8, 2, 0, .ro, false⟩
/-- ENG_CNT [15:0] HALTS, R253. -/
def ENG_CNT_HALTS (a : Nat) : Fld := ⟨a + 0x14, 0, 16, 0, .w1c, false⟩
/-- ENG_CNT [31:16] REARM_OVER, R253. -/
def ENG_CNT_REARM_OVER (a : Nat) : Fld := ⟨a + 0x14, 16, 16, 0, .w1c, false⟩
/-- ENG_TILES [15:0] LANDED, R253. -/
def ENG_TILES_LANDED (a : Nat) : Fld := ⟨a + 0x18, 0, 16, 0, .ro, false⟩
/-- ENG_TILES [31:16] CONSUMED, R253. -/
def ENG_TILES_CONSUMED (a : Nat) : Fld := ⟨a + 0x18, 16, 16, 0, .ro, false⟩
/-- ENG_XFERS [31:0] XFERS, R253. -/
def ENG_XFERS_XFERS (a : Nat) : Fld := ⟨a + 0x1C, 0, 32, 0, .ro, false⟩
/-- CORE_SEM [6:0] COUNT, R254. -/
def CORE_SEM_COUNT (p i : Nat) : Fld := ⟨0x1000300 + p * 0x20000 + i * 0x4, 0, 7, 0, .ro, true⟩
/-- CORE_SEM [7:7] KIND, R254. -/
def CORE_SEM_KIND (p i : Nat) : Fld := ⟨0x1000300 + p * 0x20000 + i * 0x4, 7, 1, 0, .ro, true⟩
/-- CORE_SEM [14:8] CAP, R254. -/
def CORE_SEM_CAP (p i : Nat) : Fld := ⟨0x1000300 + p * 0x20000 + i * 0x4, 8, 7, 0, .ro, true⟩
/-- CORE_SEM [22:16] INIT, R254. -/
def CORE_SEM_INIT (p i : Nat) : Fld := ⟨0x1000300 + p * 0x20000 + i * 0x4, 16, 7, 0, .ro, true⟩
/-- CORE_SEM [29:24] DEBT, R254. -/
def CORE_SEM_DEBT (p i : Nat) : Fld := ⟨0x1000300 + p * 0x20000 + i * 0x4, 24, 6, 0, .ro, false⟩
/-- CORE_HIST_BIN [31:0] COUNT, R136. -/
def CORE_HIST_BIN_COUNT (p i : Nat) : Fld := ⟨0x1000400 + p * 0x20000 + i * 0x4, 0, 32, 0, .ro, false⟩
/-- CORE_WIN [31:0] DATA, R265. -/
def CORE_WIN_DATA (p i : Nat) : Fld := ⟨0x1000800 + p * 0x20000 + i * 0x4, 0, 32, 0, .ro, true⟩
/-- CORE_PRN [31:0] DATA, R229. -/
def CORE_PRN_DATA (p i : Nat) : Fld := ⟨0x1001000 + p * 0x20000 + i * 0x4, 0, 32, 0, .ro, true⟩
/-- CORE_LIST [31:0] DATA, R256. -/
def CORE_LIST_DATA (p i : Nat) : Fld := ⟨0x1002000 + p * 0x20000 + i * 0x4, 0, 32, 0, .ro, true⟩

end Sys2Proof.F
end

