-- ==== Sys2Proof/Machine/RegTable.lean ====
section
/-! DEFINITION. The register index (R554, R559 to R569): which offsets of each block hold a register, and its
fields. An offset that no row holds is unmapped (R12, R554). -/
namespace Sys2Proof

/-- Registers of the DEV block. -/
def rowsDev : List RegRow := [
  ⟨0x0, 1, 0x0, fun _ => [F.DEV_IDENT_PART, F.DEV_IDENT_STEPPING]⟩,
  ⟨0x4, 1, 0x0, fun _ => [F.DEV_STATUS_BOOTED, F.DEV_STATUS_BOOT_FAIL, F.DEV_STATUS_PSTATE, F.DEV_STATUS_SIGNAL, F.DEV_STATUS_ENCRYPTED, F.DEV_STATUS_PANEL, F.DEV_STATUS_LOCKED, F.DEV_STATUS_REALTIME, F.DEV_STATUS_FALLBACK, F.DEV_STATUS_TD, F.DEV_STATUS_FAULT, F.DEV_STATUS_UNCORR, F.DEV_STATUS_SUPPLY, F.DEV_STATUS_THERMAL, F.DEV_STATUS_WEATHER, F.DEV_STATUS_LEDGER, F.DEV_STATUS_SESSION, F.DEV_STATUS_TAINT, F.DEV_STATUS_FORCED, F.DEV_STATUS_REPLAY, F.DEV_STATUS_DIVERGED, F.DEV_STATUS_ACCESS, F.DEV_STATUS_LOAD_FAULT]⟩,
  ⟨0x8, 1, 0x0, fun _ => [F.DEV_ACCESS_RO_WRITES, F.DEV_ACCESS_MISALIGNED]⟩,
  ⟨0x10, 1, 0x0, fun _ => [F.DEV_BOOT_STAGE, F.DEV_BOOT_COMPLETE, F.DEV_BOOT_FAILED, F.DEV_BOOT_HOLDING, F.DEV_BOOT_HDCP_OFF, F.DEV_BOOT_FAIL, F.DEV_BOOT_SECTION]⟩,
  ⟨0x14, 1, 0x0, fun _ => [F.DEV_BOOT_CTRL_HOLD]⟩,
  ⟨0x18, 1, 0x0, fun _ => [F.DEV_BOOT_TIME_T_COMPLETE, F.DEV_BOOT_TIME_T_FIRST]⟩,
  ⟨0x1C, 1, 0x0, fun _ => [F.DEV_FLASH_SIZE]⟩,
  ⟨0x20, 1, 0x0, fun _ => [F.DEV_LEDGER_USED, F.DEV_LEDGER_HALF, F.DEV_LEDGER_COMPACTING, F.DEV_LEDGER_FULL, F.DEV_LEDGER_QUEUED]⟩,
  ⟨0x24, 1, 0x0, fun _ => [F.DEV_LEDGER_CNT_LOST, F.DEV_LEDGER_CNT_TORN]⟩,
  ⟨0x28, 1, 0x0, fun _ => [F.DEV_LEDGER_GEN_GEN]⟩,
  ⟨0x30, 1, 0x0, fun _ => [F.DEV_HOTPLUG_REMOVED, F.DEV_HOTPLUG_WSTOP, F.DEV_HOTPLUG_NOR_STOP]⟩,
  ⟨0x40, 12, 0x4, fun i => [F.DEV_IMAGE_DIGEST i]⟩,
  ⟨0x70, 12, 0x4, fun i => [F.DEV_PROG_DIGEST i]⟩
  ]

/-- Registers of the CAL block. -/
def rowsCal : List RegRow := [
  ⟨0x0, 1, 0x0, fun _ => [F.CAL_NOW_LO_PHASE, F.CAL_NOW_LO_LINE]⟩,
  ⟨0x4, 1, 0x0, fun _ => [F.CAL_NOW_HI_FRAME]⟩,
  ⟨0x8, 1, 0x0, fun _ => [F.CAL_STATUS_SYNC_STATE, F.CAL_STATUS_OUT_OF_RANGE, F.CAL_STATUS_REALTIME, F.CAL_STATUS_ERR_LINES]⟩,
  ⟨0xC, 1, 0x0, fun _ => [F.CAL_SYNC_CFG_SLEW, F.CAL_SYNC_CFG_SYNC_EN, F.CAL_SYNC_CFG_RELOCK_EN, F.CAL_SYNC_CFG_RELOCK_LINES]⟩,
  ⟨0x10, 1, 0x0, fun _ => [F.CAL_SYNC_PERIOD_PERIOD]⟩,
  ⟨0x14, 1, 0x0, fun _ => [F.CAL_SYNC_CNT_RELOCKS, F.CAL_SYNC_CNT_LOSSES]⟩,
  ⟨0x18, 1, 0x0, fun _ => [F.CAL_LP_LP]⟩,
  ⟨0x1C, 1, 0x0, fun _ => [F.CAL_VACTIVE_V_ACTIVE, F.CAL_VACTIVE_VT_NOM]⟩,
  ⟨0x20, 1, 0x0, fun _ => [F.CAL_VLIMITS_VT_MIN, F.CAL_VLIMITS_VT_MAX]⟩,
  ⟨0x24, 1, 0x0, fun _ => [F.CAL_VTOTAL_VT_CUR, F.CAL_VTOTAL_VT_PREV]⟩,
  ⟨0x28, 1, 0x0, fun _ => [F.CAL_SEAM_SEAM_H]⟩,
  ⟨0x2C, 1, 0x0, fun _ => [F.CAL_FB_SEGS_FB_SEGS]⟩,
  ⟨0x30, 1, 0x0, fun _ => [F.CAL_RPT_SEGS_RPT_SEGS]⟩,
  ⟨0x34, 1, 0x0, fun _ => [F.CAL_FB_LAST_FB_LAST]⟩,
  ⟨0x38, 1, 0x0, fun _ => [F.CAL_RT_CTRL_TEST]⟩,
  ⟨0x40, 1, 0x0, fun _ => [F.CAL_MODE_MODE_REQ, F.CAL_MODE_MODE_CUR, F.CAL_MODE_MODE_HELD, F.CAL_MODE_SCHED_CUR, F.CAL_MODE_CHANGING]⟩,
  ⟨0x44, 1, 0x0, fun _ => [F.CAL_MSET_MSET_REQ, F.CAL_MSET_MSET_CUR, F.CAL_MSET_MSET_PEND, F.CAL_MSET_MSET_ERR]⟩,
  ⟨0x48, 1, 0x0, fun _ => [F.CAL_SCHED_CNT_SCHED_CHANGES, F.CAL_SCHED_CNT_MSET_SWITCHES]⟩,
  ⟨0x50, 1, 0x0, fun _ => [F.CAL_LOAD_FAULT_CHECK, F.CAL_LOAD_FAULT_REASON, F.CAL_LOAD_FAULT_SCHED, F.CAL_LOAD_FAULT_UNIT, F.CAL_LOAD_FAULT_SCOPE]⟩,
  ⟨0x54, 1, 0x0, fun _ => [F.CAL_LOAD_OBJ_OBJECT, F.CAL_LOAD_OBJ_NEED]⟩,
  ⟨0x80, 16, 0x4, fun i => [F.CAL_FC_MISSES i, F.CAL_FC_SKIPS i]⟩,
  ⟨0x100, 1, 0x0, fun _ => [F.CAL_RT_STEP_STEP, F.CAL_RT_STEP_LAG]⟩,
  ⟨0x104, 1, 0x0, fun _ => [F.CAL_RT_POS_LO_F, F.CAL_RT_POS_LO_ALIGNED]⟩,
  ⟨0x108, 1, 0x0, fun _ => [F.CAL_RT_POS_HI_I]⟩,
  ⟨0x10C, 1, 0x0, fun _ => [F.CAL_RT_CNT_HOLDS, F.CAL_RT_CNT_DROPS]⟩,
  ⟨0x110, 1, 0x0, fun _ => [F.CAL_RT_FIELD_FIELD_NONE]⟩,
  ⟨0x120, 1, 0x0, fun _ => [F.CAL_DET_LAST_BOXES, F.CAL_DET_LAST_CANDS]⟩,
  ⟨0x124, 1, 0x0, fun _ => [F.CAL_DET_CNT_CAND_OVF, F.CAL_DET_CNT_TRUNC]⟩,
  ⟨0x128, 1, 0x0, fun _ => [F.CAL_DET_CYC_CYCLES]⟩
  ]

/-- Registers of the INP block. -/
def rowsInp : List RegRow := [
  ⟨0x0, 1, 0x0, fun _ => [F.INP_MODE_MODE, F.INP_MODE_GFX1]⟩,
  ⟨0x4, 1, 0x0, fun _ => [F.INP_FRAME_FRAME]⟩,
  ⟨0x8, 1, 0x0, fun _ => [F.INP_APPLY_GO]⟩,
  ⟨0x20, 1, 0x0, fun _ => [F.INP_CROP_XY_X0, F.INP_CROP_XY_Y0]⟩,
  ⟨0x24, 1, 0x0, fun _ => [F.INP_CROP_WH_CW, F.INP_CROP_WH_CH]⟩,
  ⟨0x28, 1, 0x0, fun _ => [F.INP_XFORM_HFLIP, F.INP_XFORM_VFLIP, F.INP_XFORM_ROT, F.INP_XFORM_RN_H, F.INP_XFORM_RN_V]⟩,
  ⟨0x30, 1, 0x0, fun _ => [F.INP_BUCKET_BUCKET, F.INP_BUCKET_CROPPED, F.INP_BUCKET_CROPS]⟩,
  ⟨0x34, 1, 0x0, fun _ => [F.INP_BLANK_CFG_HOLD, F.INP_BLANK_CFG_PAD_EDGE]⟩,
  ⟨0x38, 1, 0x0, fun _ => [F.INP_BLANK_CNT_BLANK_HELD, F.INP_BLANK_CNT_BLANK_BLACK]⟩,
  ⟨0x3C, 1, 0x0, fun _ => [F.INP_PAD_PAD_L, F.INP_PAD_PAD_T]⟩,
  ⟨0x40, 1, 0x0, fun _ => [F.INP_CORRUPT_LINES, F.INP_CORRUPT_LAST_CAUSE]⟩,
  ⟨0x44, 1, 0x0, fun _ => [F.INP_PPS_REJECTS_REJECTS, F.INP_PPS_REJECTS_NOSIG_CAUSE]⟩,
  ⟨0x50, 1, 0x0, fun _ => [F.INP_HIST_BASE_LO_BASE_LO]⟩,
  ⟨0x54, 1, 0x0, fun _ => [F.INP_HIST_BASE_HI_BASE_HI]⟩,
  ⟨0x58, 1, 0x0, fun _ => [F.INP_HIST_CFG_DEPTH, F.INP_HIST_CFG_PITCH]⟩,
  ⟨0x5C, 1, 0x0, fun _ => [F.INP_HIST_CNT_OVERRUN]⟩,
  ⟨0x60, 1, 0x0, fun _ => [F.INP_HIST_NEWEST_NEWEST]⟩,
  ⟨0x100, 2, 0x40, fun i => [F.INP_PORT_CFG_EN i, F.INP_PORT_CFG_MAX_RATE i, F.INP_PORT_CFG_MAX_LANES i, F.INP_PORT_CFG_DSC_EN i, F.INP_PORT_CFG_HDCP_EN i]⟩,
  ⟨0x104, 2, 0x40, fun i => [F.INP_PORT_STATUS_SIGNAL i, F.INP_PORT_STATUS_RATE i, F.INP_PORT_STATUS_LANES i, F.INP_PORT_STATUS_DSC i, F.INP_PORT_STATUS_AUTH i, F.INP_PORT_STATUS_ENCRYPTED i, F.INP_PORT_STATUS_ENC i, F.INP_PORT_STATUS_BPC i, F.INP_PORT_STATUS_PPS_REASON i]⟩,
  ⟨0x108, 2, 0x40, fun i => [F.INP_PORT_GEOM_SRC_W i, F.INP_PORT_GEOM_SRC_H i]⟩,
  ⟨0x10C, 2, 0x40, fun i => [F.INP_PORT_PERIOD_PERIOD i]⟩
  ]

/-- Registers of the CMP block. -/
def rowsCmp : List RegRow := [
  ⟨0x0, 1, 0x0, fun _ => [F.CMP_BLACK0_C0, F.CMP_BLACK0_C1]⟩,
  ⟨0x4, 1, 0x0, fun _ => [F.CMP_BLACK1_C2]⟩,
  ⟨0x10, 1, 0x0, fun _ => [F.CMP_COMMIT_PL1, F.CMP_COMMIT_PL2, F.CMP_COMMIT_GR]⟩,
  ⟨0x100, 2, 0x40, fun i => [F.CMP_PL_CTRL_EN i, F.CMP_PL_CTRL_SRC i, F.CMP_PL_CTRL_FMT i, F.CMP_PL_CTRL_PREMUL i, F.CMP_PL_CTRL_GALPHA i]⟩,
  ⟨0x104, 2, 0x40, fun i => [F.CMP_PL_BASE_LO_BASE_LO i]⟩,
  ⟨0x108, 2, 0x40, fun i => [F.CMP_PL_BASE_HI_BASE_HI i]⟩,
  ⟨0x10C, 2, 0x40, fun i => [F.CMP_PL_PITCH_PITCH i]⟩,
  ⟨0x110, 2, 0x40, fun i => [F.CMP_PL_POS_X i, F.CMP_PL_POS_Y i]⟩,
  ⟨0x114, 2, 0x40, fun i => [F.CMP_PL_SIZE_W i, F.CMP_PL_SIZE_H i]⟩,
  ⟨0x118, 2, 0x40, fun i => [F.CMP_PL_STAT_GFX_LATE i, F.CMP_PL_STAT_GFX_ERR i]⟩,
  ⟨0x200, 1, 0x0, fun _ => [F.CMP_CAP_CTRL_EN, F.CMP_CAP_CTRL_FMT, F.CMP_CAP_CTRL_NBUF, F.CMP_CAP_CTRL_DIV]⟩,
  ⟨0x204, 1, 0x0, fun _ => [F.CMP_CAP_BASE_LO_BASE_LO]⟩,
  ⟨0x208, 1, 0x0, fun _ => [F.CMP_CAP_BASE_HI_BASE_HI]⟩,
  ⟨0x20C, 1, 0x0, fun _ => [F.CMP_CAP_PITCH_BUF_PITCH]⟩,
  ⟨0x210, 1, 0x0, fun _ => [F.CMP_CAP_CNT_CAP_INCOMPLETE, F.CMP_CAP_CNT_CAP_BLOCKED]⟩,
  ⟨0x214, 1, 0x0, fun _ => [F.CMP_CAP_LAST_FRAME]⟩,
  ⟨0x400, 16, 0x20, fun i => [F.CMP_GR_CTRL_EN i, F.CMP_GR_CTRL_FORCE_EN i, F.CMP_GR_CTRL_HOLD_OK i]⟩,
  ⟨0x404, 16, 0x20, fun i => [F.CMP_GR_XY_X0 i, F.CMP_GR_XY_Y0 i]⟩,
  ⟨0x408, 16, 0x20, fun i => [F.CMP_GR_WH_W i, F.CMP_GR_WH_H i]⟩,
  ⟨0x40C, 16, 0x20, fun i => [F.CMP_GR_EXPECT_EXPECT i]⟩,
  ⟨0x410, 16, 0x20, fun i => [F.CMP_GR_SAFE_LO_SAFE_LO i]⟩,
  ⟨0x414, 16, 0x20, fun i => [F.CMP_GR_SAFE_HI_SAFE_HI i]⟩,
  ⟨0x418, 16, 0x20, fun i => [F.CMP_GR_CRC_LAST_CRC i]⟩,
  ⟨0x41C, 16, 0x20, fun i => [F.CMP_GR_STAT_MATCH_RUN i, F.CMP_GR_STAT_FORCED i, F.CMP_GR_STAT_LAST_OK i, F.CMP_GR_STAT_SAFE_ERR i, F.CMP_GR_STAT_MISMATCHES i]⟩
  ]

/-- Registers of the PNL block. -/
def rowsPnl : List RegRow := [
  ⟨0x0, 1, 0x0, fun _ => [F.PNL_CFG_LANES, F.PNL_CFG_RATE, F.PNL_CFG_PFMT]⟩,
  ⟨0x4, 1, 0x0, fun _ => [F.PNL_CTRL_EN, F.PNL_CTRL_RETRAIN]⟩,
  ⟨0x8, 1, 0x0, fun _ => [F.PNL_STATUS_STATE, F.PNL_STATUS_RDY, F.PNL_STATUS_SAFE_CAUSE, F.PNL_STATUS_GEOM_SEQ]⟩,
  ⟨0xC, 1, 0x0, fun _ => [F.PNL_CNT_RETRAINS, F.PNL_CNT_TRAIN_FAIL]⟩,
  ⟨0x10, 1, 0x0, fun _ => [F.PNL_LOST_LINES_LOST]⟩,
  ⟨0x14, 1, 0x0, fun _ => [F.PNL_PKT_TRUNC, F.PNL_PKT_FILLS]⟩,
  ⟨0x18, 1, 0x0, fun _ => [F.PNL_DRV_SWING, F.PNL_DRV_PRE, F.PNL_DRV_POST]⟩
  ]

/-- Registers of the FAB block. -/
def rowsFab : List RegRow := [
  ⟨0x0, 1, 0x0, fun _ => [F.FAB_SNAP_CTRL_ARM, F.FAB_SNAP_CTRL_CANCEL, F.FAB_SNAP_CTRL_BANDS, F.FAB_SNAP_CTRL_SPAD, F.FAB_SNAP_CTRL_LS]⟩,
  ⟨0x4, 1, 0x0, fun _ => [F.FAB_SNAP_LINE_LINE]⟩,
  ⟨0x8, 1, 0x0, fun _ => [F.FAB_SNAP_FRAME_FRAME]⟩,
  ⟨0xC, 1, 0x0, fun _ => [F.FAB_SNAP_DEST_LO_DEST_LO]⟩,
  ⟨0x10, 1, 0x0, fun _ => [F.FAB_SNAP_DEST_HI_DEST_HI]⟩,
  ⟨0x14, 1, 0x0, fun _ => [F.FAB_SNAP_STATUS_STATE, F.FAB_SNAP_STATUS_REFUSE, F.FAB_SNAP_STATUS_LPS]⟩,
  ⟨0x20, 1, 0x0, fun _ => [F.FAB_BARRIERS_BARRIERS]⟩
  ]

/-- Registers of the DRM block. -/
def rowsDrm : List RegRow := [
  ⟨0x0, 1, 0x0, fun _ => [F.DRM_STATUS_TRAINED, F.DRM_STATUS_SELF_REFRESH]⟩,
  ⟨0x4, 1, 0x0, fun _ => [F.DRM_ECC_CORRECTED, F.DRM_ECC_UNCORR]⟩,
  ⟨0x8, 1, 0x0, fun _ => [F.DRM_LAST_LO_ADDR_LO]⟩,
  ⟨0xC, 1, 0x0, fun _ => [F.DRM_LAST_HI_ADDR_HI, F.DRM_LAST_HI_UNC]⟩,
  ⟨0x10, 1, 0x0, fun _ => [F.DRM_MAP_SPARES_LEFT, F.DRM_MAP_QUEUED, F.DRM_MAP_FIELD_MAPPED, F.DRM_MAP_NO_SPARE]⟩,
  ⟨0x14, 1, 0x0, fun _ => [F.DRM_CFG_CE_LIMIT, F.DRM_CFG_SCRUB_EN]⟩,
  ⟨0x18, 1, 0x0, fun _ => [F.DRM_SCRUB_PASSES]⟩,
  ⟨0x20, 7, 0x4, fun i => [F.DRM_TIER_WAIT_WAIT i]⟩,
  ⟨0x40, 1, 0x0, fun _ => [F.DRM_HOST_REFUSED, F.DRM_HOST_PLACE_ERR]⟩,
  ⟨0x100, 64, 0x4, fun i => [F.DRM_REGION_DATA i]⟩,
  ⟨0x400, 10, 4, fun i => [F.ARB_TKT_TICKETS (0x50400 + 4 * i), F.ARB_TKT_TIER (0x50400 + 4 * i)]⟩,
  ⟨0x480, 1, 0, fun _ => [F.ARB_LFSR_LFSR 0x50480]⟩,
  ⟨0x800, 10, 16, fun i => [F.ARB_GRANTS_GRANTS (0x50800 + 16 * i)]⟩,
  ⟨0x804, 10, 16, fun i => [F.ARB_WAITS_WAITS (0x50800 + 16 * i)]⟩,
  ⟨0x808, 10, 16, fun i => [F.ARB_MAXWAIT_MAXWAIT (0x50800 + 16 * i)]⟩,
  ⟨0x80C, 10, 16, fun i => [F.ARB_STATE_MASKED (0x50800 + 16 * i), F.ARB_STATE_PARKED (0x50800 + 16 * i)]⟩,
  ⟨0x440, 7, 4, fun i => [F.ARB_TKT_TICKETS (0x50440 + 4 * i), F.ARB_TKT_TIER (0x50440 + 4 * i)]⟩,
  ⟨0x484, 1, 0, fun _ => [F.ARB_LFSR_LFSR 0x50484]⟩,
  ⟨0x900, 7, 16, fun i => [F.ARB_GRANTS_GRANTS (0x50900 + 16 * i)]⟩,
  ⟨0x904, 7, 16, fun i => [F.ARB_WAITS_WAITS (0x50900 + 16 * i)]⟩,
  ⟨0x908, 7, 16, fun i => [F.ARB_MAXWAIT_MAXWAIT (0x50900 + 16 * i)]⟩,
  ⟨0x90C, 7, 16, fun i => [F.ARB_STATE_MASKED (0x50900 + 16 * i), F.ARB_STATE_PARKED (0x50900 + 16 * i)]⟩
  ]

/-- Registers of the TPL block. -/
def rowsTpl : List RegRow := [
  ⟨0x0, 1, 0x0, fun _ => [F.TPL_LINK_STATE, F.TPL_LINK_RATE, F.TPL_LINK_LPI, F.TPL_LINK_MASTER]⟩,
  ⟨0x4, 1, 0x0, fun _ => [F.TPL_CFG_STRICT, F.TPL_CFG_PREFER_MASTER, F.TPL_CFG_SESS_IDLE]⟩,
  ⟨0x8, 1, 0x0, fun _ => [F.TPL_MAC_LO_MAC_LO]⟩,
  ⟨0xC, 1, 0x0, fun _ => [F.TPL_MAC_HI_MAC_HI]⟩,
  ⟨0x10, 1, 0x0, fun _ => [F.TPL_RX_REQUESTS, F.TPL_RX_DISCARDED]⟩,
  ⟨0x14, 1, 0x0, fun _ => [F.TPL_ERR_MALFORMED, F.TPL_ERR_DENIED, F.TPL_ERR_RX_DROP, F.TPL_ERR_LINK_DOWNS]⟩,
  ⟨0x18, 1, 0x0, fun _ => [F.TPL_SESSION_OPEN, F.TPL_SESSION_KEY_SLOT, F.TPL_SESSION_SESSION]⟩,
  ⟨0x1C, 1, 0x0, fun _ => [F.TPL_SEQ_LAST_SEQ]⟩,
  ⟨0x100, 64, 0x4, fun i => [F.TPL_SLIST_EN i, F.TPL_SLIST_ADDR i]⟩
  ]

/-- Registers of the SEC block. -/
def rowsSec : List RegRow := [
  ⟨0x0, 1, 0x0, fun _ => [F.SEC_AUTH_OPEN_FAIL, F.SEC_AUTH_LOCKOUT, F.SEC_AUTH_CHAL, F.SEC_AUTH_OPENS]⟩,
  ⟨0x4, 1, 0x0, fun _ => [F.SEC_KEYS_SLOT_VALID]⟩,
  ⟨0x8, 1, 0x0, fun _ => [F.SEC_ATTEST_ATTESTS, F.SEC_ATTEST_BUSY]⟩
  ]

/-- Registers of the PWR block. -/
def rowsPwr : List RegRow := [
  ⟨0x0, 1, 0x0, fun _ => [F.PWR_STATE_STATE, F.PWR_STATE_BUSY, F.PWR_STATE_TARGET, F.PWR_STATE_THERMAL, F.PWR_STATE_TRANSITIONS]⟩,
  ⟨0x10, 1, 0x0, fun _ => [F.PWR_SUPPLY_V12_WARN, F.PWR_SUPPLY_VCORE_WARN, F.PWR_SUPPLY_HOLDOFF, F.PWR_SUPPLY_DIP, F.PWR_SUPPLY_DIPS]⟩,
  ⟨0x14, 1, 0x0, fun _ => [F.PWR_DIP_MIN_V12_MIN, F.PWR_DIP_MIN_VCORE_MIN]⟩,
  ⟨0x18, 1, 0x0, fun _ => [F.PWR_DIP_LEN_LEN]⟩,
  ⟨0x1C, 1, 0x0, fun _ => [F.PWR_RESET_CAUSE]⟩,
  ⟨0x20, 1, 0x0, fun _ => [F.PWR_IN_V12, F.PWR_IN_I12]⟩,
  ⟨0x24, 1, 0x0, fun _ => [F.PWR_INPWR_P, F.PWR_INPWR_HIGH]⟩,
  ⟨0x28, 1, 0x0, fun _ => [F.PWR_VCORE_VCORE, F.PWR_VCORE_VSET, F.PWR_VCORE_VMAX]⟩,
  ⟨0x30, 1, 0x0, fun _ => [F.PWR_THERM_WARN, F.PWR_THERM_LAST_TRIP, F.PWR_THERM_TRIPPED, F.PWR_THERM_WARNS]⟩,
  ⟨0x40, 10, 0x4, fun i => [F.PWR_TEMP_TEMP i]⟩,
  ⟨0x80, 1, 0x0, fun _ => [F.PWR_WX_CFG_G_BIN, F.PWR_WX_CFG_G_HYST, F.PWR_WX_CFG_G_STOP, F.PWR_WX_CFG_PERIOD]⟩,
  ⟨0x84, 1, 0x0, fun _ => [F.PWR_WX_SLIP_SLIP_MIN]⟩,
  ⟨0x88, 1, 0x0, fun _ => [F.PWR_WX_CTRL_CORE, F.PWR_WX_CTRL_RESTORE]⟩,
  ⟨0x8C, 1, 0x0, fun _ => [F.PWR_WX_CNT_DEMOTES, F.PWR_WX_CNT_PROMOTES, F.PWR_WX_CNT_RETIRES, F.PWR_WX_CNT_RESTORE_FAIL]⟩,
  ⟨0x400, 72, 0x8, fun i => [F.PWR_WX_SLACK_SLACK i, F.PWR_WX_SLACK_AGE i]⟩,
  ⟨0x404, 72, 0x8, fun i => [F.PWR_WX_STATE_SAFE_BIN i, F.PWR_WX_STATE_REASON i, F.PWR_WX_STATE_EXHAUSTED i, F.PWR_WX_STATE_STOPPED i]⟩
  ]

/-- Registers of the SNS block. -/
def rowsSns : List RegRow := [
  ⟨0x0, 1, 0x0, fun _ => [F.SNS_CFG_EN, F.SNS_CFG_RATE]⟩,
  ⟨0x4, 1, 0x0, fun _ => [F.SNS_STATUS_PRESENT, F.SNS_STATUS_STALE]⟩,
  ⟨0x8, 1, 0x0, fun _ => [F.SNS_ERR_NACKS, F.SNS_ERR_BUS_ERR]⟩,
  ⟨0x10, 1, 0x0, fun _ => [F.SNS_HOST0_HOST0]⟩,
  ⟨0x14, 1, 0x0, fun _ => [F.SNS_HOST1_HOST1]⟩,
  ⟨0x20, 1, 0x0, fun _ => [F.SNS_TIME_LO_TIME_LO]⟩,
  ⟨0x24, 1, 0x0, fun _ => [F.SNS_TIME_HI_TIME_HI]⟩,
  ⟨0x40, 8, 0x4, fun i => [F.SNS_VEC_LO i, F.SNS_VEC_HI i]⟩,
  ⟨0x60, 1, 0x0, fun _ => [F.SNS_VEC_FRAME_FRAME]⟩,
  ⟨0x100, 32, 0x4, fun i => [F.SNS_ENTRY_DATA i]⟩,
  ⟨0x200, 8, 0x10, fun i => [F.SNS_RAW_RAW i]⟩,
  ⟨0x204, 8, 0x10, fun i => [F.SNS_TS_LO_TS_LO i]⟩,
  ⟨0x208, 8, 0x10, fun i => [F.SNS_TS_HI_TS_HI i]⟩
  ]

/-- Registers of the FRS block. -/
def rowsFrs : List RegRow := [
  ⟨0x0, 1, 0x0, fun _ => [F.FRS_CTRL_MODE, F.FRS_CTRL_CH_EN, F.FRS_CTRL_SEED_BASE]⟩,
  ⟨0x4, 1, 0x0, fun _ => [F.FRS_STATUS_SEED, F.FRS_STATUS_SOURCE, F.FRS_STATUS_CHANNELS, F.FRS_STATUS_SLOT]⟩,
  ⟨0x8, 1, 0x0, fun _ => [F.FRS_CNT_ACCEPTED, F.FRS_CNT_REJECTED, F.FRS_CNT_MISSING, F.FRS_CNT_DUP, F.FRS_CNT_LATE]⟩,
  ⟨0xC, 1, 0x0, fun _ => [F.FRS_REJ_REASON]⟩,
  ⟨0x1000, 768, 0x4, fun i => [F.FRS_SLOT_DATA i]⟩
  ]

/-- Registers of the DRZ block. -/
def rowsDrz : List RegRow := [
  ⟨0x0, 1, 0x0, fun _ => [F.DRZ_CTRL_EN, F.DRZ_CTRL_RESET, F.DRZ_CTRL_QUOTA, F.DRZ_CTRL_CPF]⟩,
  ⟨0x4, 1, 0x0, fun _ => [F.DRZ_SEED_LO_SEED_LO]⟩,
  ⟨0x8, 1, 0x0, fun _ => [F.DRZ_SEED_HI_SEED_HI]⟩,
  ⟨0xC, 1, 0x0, fun _ => [F.DRZ_STATUS_STATE, F.DRZ_STATUS_TAINT, F.DRZ_STATUS_READY, F.DRZ_STATUS_QUEUE]⟩,
  ⟨0x10, 1, 0x0, fun _ => [F.DRZ_EPOCH_EPOCH]⟩,
  ⟨0x14, 1, 0x0, fun _ => [F.DRZ_SC_LO_SC_LO]⟩,
  ⟨0x18, 1, 0x0, fun _ => [F.DRZ_SC_HI_SC_HI]⟩,
  ⟨0x1C, 1, 0x0, fun _ => [F.DRZ_VERSION_VERSION]⟩,
  ⟨0x20, 1, 0x0, fun _ => [F.DRZ_STEPS_STEPS]⟩,
  ⟨0x24, 1, 0x0, fun _ => [F.DRZ_CROPS_CROPS]⟩,
  ⟨0x28, 1, 0x0, fun _ => [F.DRZ_SKIP_CORRUPT, F.DRZ_SKIP_STALE]⟩,
  ⟨0x2C, 1, 0x0, fun _ => [F.DRZ_TD_LATE_COMMITS, F.DRZ_TD_DROPPED, F.DRZ_TD_ABANDONED]⟩,
  ⟨0x30, 1, 0x0, fun _ => [F.DRZ_SAT_GRAD_SAT, F.DRZ_SAT_MASTER_SAT]⟩,
  ⟨0x34, 1, 0x0, fun _ => [F.DRZ_STEP_CYC_STEP_CYC]⟩,
  ⟨0x38, 1, 0x0, fun _ => [F.DRZ_COMMITS_COMMITS]⟩
  ]

/-- Registers of the AUD block. -/
def rowsAud : List RegRow := [
  ⟨0x0, 1, 0x0, fun _ => [F.AUD_REC_CTRL_EN, F.AUD_REC_CTRL_WRAP, F.AUD_REC_CTRL_SYNC, F.AUD_REC_CTRL_SENS, F.AUD_REC_CTRL_WRITE, F.AUD_REC_CTRL_CRC, F.AUD_REC_CTRL_LINES]⟩,
  ⟨0x4, 1, 0x0, fun _ => [F.AUD_LOG_BASE_LO_BASE_LO]⟩,
  ⟨0x8, 1, 0x0, fun _ => [F.AUD_LOG_BASE_HI_BASE_HI]⟩,
  ⟨0xC, 1, 0x0, fun _ => [F.AUD_LOG_SIZE_SIZE]⟩,
  ⟨0x10, 1, 0x0, fun _ => [F.AUD_LOG_STATUS_STATE]⟩,
  ⟨0x14, 1, 0x0, fun _ => [F.AUD_LOG_PTR_PTR]⟩,
  ⟨0x18, 1, 0x0, fun _ => [F.AUD_LOG_CNT_LOST, F.AUD_LOG_CNT_WITHHELD]⟩,
  ⟨0x20, 1, 0x0, fun _ => [F.AUD_RING_BASE_LO_RBASE_LO]⟩,
  ⟨0x24, 1, 0x0, fun _ => [F.AUD_RING_BASE_HI_RBASE_HI]⟩,
  ⟨0x28, 1, 0x0, fun _ => [F.AUD_RING_COUNT_COUNT]⟩,
  ⟨0x2C, 1, 0x0, fun _ => [F.AUD_REC_LAST_REC_LAST]⟩,
  ⟨0x30, 1, 0x0, fun _ => [F.AUD_REC_CNT_REC_LOST, F.AUD_REC_CNT_TD_FRAMES]⟩,
  ⟨0x34, 1, 0x0, fun _ => [F.AUD_TD_LAST_TD]⟩,
  ⟨0x40, 1, 0x0, fun _ => [F.AUD_REPLAY_CTRL_ARM, F.AUD_REPLAY_CTRL_GO, F.AUD_REPLAY_CTRL_REPLAY_LINES]⟩,
  ⟨0x44, 1, 0x0, fun _ => [F.AUD_REPLAY_BASE_LO_BASE_LO]⟩,
  ⟨0x48, 1, 0x0, fun _ => [F.AUD_REPLAY_BASE_HI_BASE_HI]⟩,
  ⟨0x4C, 1, 0x0, fun _ => [F.AUD_REPLAY_SIZE_SIZE]⟩,
  ⟨0x50, 1, 0x0, fun _ => [F.AUD_REPLAY_STATUS_STATE, F.AUD_REPLAY_STATUS_DIVERGED, F.AUD_REPLAY_STATUS_REFUSED]⟩,
  ⟨0x54, 1, 0x0, fun _ => [F.AUD_REPLAY_CNT_MISMATCH, F.AUD_REPLAY_CNT_LATE]⟩
  ]

/-- Registers of the BAND b block. -/
def rowsBand (b : Nat) : List RegRow := [
  ⟨0x0, 1, 0x0, fun _ => [F.BAND_SLOTMAP_IDLE_SLOT b, F.BAND_SLOTMAP_IDLE_RETIRED b, F.BAND_SLOTMAP_GATED b]⟩,
  ⟨0x10, 1, 0x0, fun _ => [F.BAND_LS_ECC_CORRECTED b, F.BAND_LS_ECC_UNCORR b]⟩,
  ⟨0x14, 1, 0x0, fun _ => [F.BAND_LS_REF_REF_ERR b, F.BAND_LS_REF_IN_OVERRUN b]⟩,
  ⟨0x18, 1, 0x0, fun _ => [F.BAND_LS_MAP_SPARES_LEFT b, F.BAND_LS_MAP_QUEUED b, F.BAND_LS_MAP_FIELD_MAPPED b, F.BAND_LS_MAP_NO_SPARE b]⟩,
  ⟨0x1C, 1, 0x0, fun _ => [F.BAND_LS_CFG_CE_LIMIT b]⟩,
  ⟨0x20, 1, 0x0, fun _ => [F.BAND_LS_WAIT_LS_WAIT b]⟩,
  ⟨0x28, 1, 0x0, fun _ => [F.BAND_SPARE_HANDOVERS b, F.BAND_SPARE_PENDING_SLOT b, F.BAND_SPARE_PENDING b]⟩,
  ⟨0x30, 1, 0x0, fun _ => [F.BAND_STRIPE_Y0 b, F.BAND_STRIPE_HEIGHT b]⟩,
  ⟨0x40, 1, 0x0, fun _ => [F.BAND_FAB_SPLIT_READ b, F.BAND_FAB_SPLIT_WRITE b, F.BAND_FAB_SPLIT_REMOTE b]⟩,
  ⟨0x44, 1, 0x0, fun _ => [F.BAND_FAB_READ_READ_BEATS b]⟩,
  ⟨0x48, 1, 0x0, fun _ => [F.BAND_FAB_WRITE_WRITE_BEATS b]⟩,
  ⟨0x4C, 1, 0x0, fun _ => [F.BAND_FAB_REMOTE_REMOTE_BEATS b]⟩,
  ⟨0x50, 1, 0x0, fun _ => [F.BAND_WARP_WARP_WAIT b]⟩,
  ⟨0x1000, 256, 0x4, fun i => [F.BAND_PRN_DATA b i]⟩,
  ⟨0x2000, 64, 0x4, fun i => [F.BAND_LIST_DATA b i]⟩,
  ⟨0x100, 2, 0x20, fun i => [F.ENG_CTRL_RETRY (0x100100 + b * 0x10000 + 0x20 * i), F.ENG_CTRL_ABORT (0x100100 + b * 0x10000 + 0x20 * i)]⟩,
  ⟨0x104, 2, 0x20, fun i => [F.ENG_STATE_STATE (0x100100 + b * 0x10000 + 0x20 * i), F.ENG_STATE_PENDING (0x100100 + b * 0x10000 + 0x20 * i), F.ENG_STATE_OUTST (0x100100 + b * 0x10000 + 0x20 * i), F.ENG_STATE_LIST (0x100100 + b * 0x10000 + 0x20 * i), F.ENG_STATE_PEND_LIST (0x100100 + b * 0x10000 + 0x20 * i), F.ENG_STATE_HALT_CAUSE (0x100100 + b * 0x10000 + 0x20 * i)]⟩,
  ⟨0x108, 2, 0x20, fun i => [F.ENG_POS_DESC (0x100100 + b * 0x10000 + 0x20 * i), F.ENG_POS_LINE (0x100100 + b * 0x10000 + 0x20 * i), F.ENG_POS_XFER (0x100100 + b * 0x10000 + 0x20 * i)]⟩,
  ⟨0x10C, 2, 0x20, fun i => [F.ENG_FADDR_LO_ADDR_LO (0x100100 + b * 0x10000 + 0x20 * i)]⟩,
  ⟨0x110, 2, 0x20, fun i => [F.ENG_FADDR_HI_ADDR_HI (0x100100 + b * 0x10000 + 0x20 * i), F.ENG_FADDR_HI_SPACE (0x100100 + b * 0x10000 + 0x20 * i)]⟩,
  ⟨0x114, 2, 0x20, fun i => [F.ENG_CNT_HALTS (0x100100 + b * 0x10000 + 0x20 * i), F.ENG_CNT_REARM_OVER (0x100100 + b * 0x10000 + 0x20 * i)]⟩,
  ⟨0x118, 2, 0x20, fun i => [F.ENG_TILES_LANDED (0x100100 + b * 0x10000 + 0x20 * i), F.ENG_TILES_CONSUMED (0x100100 + b * 0x10000 + 0x20 * i)]⟩,
  ⟨0x11C, 2, 0x20, fun i => [F.ENG_XFERS_XFERS (0x100100 + b * 0x10000 + 0x20 * i)]⟩,
  ⟨0x400, 29, 4, fun i => [F.ARB_TKT_TICKETS (0x100400 + b * 0x10000 + 4 * i), F.ARB_TKT_TIER (0x100400 + b * 0x10000 + 4 * i)]⟩,
  ⟨0x480, 1, 0, fun _ => [F.ARB_LFSR_LFSR (0x100480 + b * 0x10000)]⟩,
  ⟨0x800, 29, 16, fun i => [F.ARB_GRANTS_GRANTS (0x100800 + b * 0x10000 + 16 * i)]⟩,
  ⟨0x804, 29, 16, fun i => [F.ARB_WAITS_WAITS (0x100800 + b * 0x10000 + 16 * i)]⟩,
  ⟨0x808, 29, 16, fun i => [F.ARB_MAXWAIT_MAXWAIT (0x100800 + b * 0x10000 + 16 * i)]⟩,
  ⟨0x80C, 29, 16, fun i => [F.ARB_STATE_MASKED (0x100800 + b * 0x10000 + 16 * i), F.ARB_STATE_PARKED (0x100800 + b * 0x10000 + 16 * i)]⟩
  ]

/-- Registers of the CORE p block, first part. -/
def rowsCoreA (p : Nat) : List RegRow := [
  ⟨0x0, 1, 0x0, fun _ => [F.CORE_IDENT_PHYS p, F.CORE_IDENT_SLOT p, F.CORE_IDENT_BAND p, F.CORE_IDENT_LOGICAL p, F.CORE_IDENT_ROLE p, F.CORE_IDENT_BIN p]⟩,
  ⟨0x8, 1, 0x0, fun _ => [F.CORE_CLK_BIN_PLAN p, F.CORE_CLK_BIN_DIP p, F.CORE_CLK_BIN_EFF p, F.CORE_CLK_CHANGES p]⟩,
  ⟨0xC, 1, 0x0, fun _ => [F.CORE_THREAD_STATE p, F.CORE_THREAD_LINE_THREADED p, F.CORE_THREAD_FWIN p, F.CORE_THREAD_MWIN p]⟩,
  ⟨0x10, 1, 0x0, fun _ => [F.CORE_FAULT_CODE p, F.CORE_FAULT_THREAD p, F.CORE_FAULT_LAYER p, F.CORE_FAULT_COUNT p]⟩,
  ⟨0x14, 1, 0x0, fun _ => [F.CORE_FAULT_AT_LINE p, F.CORE_FAULT_AT_FRAME p]⟩,
  ⟨0x18, 1, 0x0, fun _ => [F.CORE_WFILE_WF_SCRUBS p, F.CORE_WFILE_WF_HARD p, F.CORE_WFILE_ADAPT_BANK p]⟩,
  ⟨0x20, 1, 0x0, fun _ => [F.CORE_SEG_SEG_X0 p, F.CORE_SEG_SEG_W p]⟩,
  ⟨0x40, 1, 0x0, fun _ => [F.CORE_LINE_MISS_MISSES p, F.CORE_LINE_MISS_REENTRIES p, F.CORE_LINE_MISS_LAST_CAUSE p]⟩,
  ⟨0x50, 1, 0x0, fun _ => [F.CORE_UTIL_LINE_UTIL_LINE p]⟩,
  ⟨0x54, 1, 0x0, fun _ => [F.CORE_UTIL_FRAME_UTIL_FRAME p]⟩,
  ⟨0x58, 1, 0x0, fun _ => [F.CORE_UTIL_WAIT_UTIL_WAIT p]⟩,
  ⟨0x60, 1, 0x0, fun _ => [F.CORE_MAP_CNT_EMPTY p, F.CORE_MAP_CNT_SKIPPED p]⟩,
  ⟨0x64, 1, 0x0, fun _ => [F.CORE_ZC_ZC_ERR p]⟩,
  ⟨0x68, 1, 0x0, fun _ => [F.CORE_ZC_RAW_RAW p]⟩,
  ⟨0x6C, 1, 0x0, fun _ => [F.CORE_ZC_PACK_PACK p]⟩,
  ⟨0x80, 1, 0x0, fun _ => [F.CORE_ARITH_SAT_CELL_SAT p, F.CORE_ARITH_SAT_PROD_SAT p]⟩,
  ⟨0x84, 1, 0x0, fun _ => [F.CORE_ARITH_WIDE_SUM_SAT p, F.CORE_ARITH_WIDE_STAGE_SAT p]⟩,
  ⟨0x88, 1, 0x0, fun _ => [F.CORE_ARITH_QNT_SCALE_SAT p, F.CORE_ARITH_QNT_BAD_ESC p, F.CORE_ARITH_QNT_RSV_SCALE p]⟩,
  ⟨0x8C, 1, 0x0, fun _ => [F.CORE_ARITH_ROWS_CONST_ROWS p, F.CORE_ARITH_ROWS_ESC_ROWS p]⟩,
  ⟨0x90, 1, 0x0, fun _ => [F.CORE_SPAD_ECC_CORRECTED p, F.CORE_SPAD_ECC_UNCORR p]⟩,
  ⟨0x94, 1, 0x0, fun _ => [F.CORE_SPAD_LAST_BANK p, F.CORE_SPAD_LAST_ROW p, F.CORE_SPAD_LAST_UNC p]⟩,
  ⟨0x98, 1, 0x0, fun _ => [F.CORE_SPAD_CONF_BANK p, F.CORE_SPAD_CONF_UNIT_A p, F.CORE_SPAD_CONF_UNIT_B p, F.CORE_SPAD_CONF_CONFLICTS p]⟩,
  ⟨0x9C, 1, 0x0, fun _ => [F.CORE_SPAD_MAP_SPARES_LEFT p, F.CORE_SPAD_MAP_QUEUED p, F.CORE_SPAD_MAP_CLIPPED p, F.CORE_SPAD_MAP_FIELD_MAPPED p, F.CORE_SPAD_MAP_NO_SPARE p]⟩,
  ⟨0xA0, 1, 0x0, fun _ => [F.CORE_SPAD_CFG_CE_LIMIT p]⟩,
  ⟨0xA4, 1, 0x0, fun _ => [F.CORE_SLIP_MIN_LEFT p, F.CORE_SLIP_STALL_ECC p]⟩,
  ⟨0xA8, 1, 0x0, fun _ => [F.CORE_SPAD_BG_BG_WAIT p]⟩,
  ⟨0xC0, 1, 0x0, fun _ => [F.CORE_STALL_IN_STALL_IN p]⟩
  ]

/-- Registers of the CORE p block, second part. -/
def rowsCoreB (p : Nat) : List RegRow := [
  ⟨0xC4, 1, 0x0, fun _ => [F.CORE_STALL_DATA_STALL_DATA p]⟩,
  ⟨0xC8, 1, 0x0, fun _ => [F.CORE_STALL_FULL_STALL_FULL p]⟩,
  ⟨0xCC, 1, 0x0, fun _ => [F.CORE_STALL_EMPTY_STALL_EMPTY p]⟩,
  ⟨0xD0, 1, 0x0, fun _ => [F.CORE_STALL_HALT_STALL_HALT p]⟩,
  ⟨0xD4, 1, 0x0, fun _ => [F.CORE_STALL_SLOT_STALL_SLOT p]⟩,
  ⟨0xD8, 1, 0x0, fun _ => [F.CORE_STALL_SUFFIX_STALL_SUFFIX p]⟩,
  ⟨0xE0, 1, 0x0, fun _ => [F.CORE_SEM_ERR_OVERFLOWS p, F.CORE_SEM_ERR_DRAIN_ERR p]⟩,
  ⟨0xE4, 1, 0x0, fun _ => [F.CORE_RWIN_LATE_RW p, F.CORE_RWIN_LATE_SRC p, F.CORE_RWIN_LATE_ROLE p]⟩,
  ⟨0xE8, 1, 0x0, fun _ => [F.CORE_RWIN_NACK_NACKS p]⟩,
  ⟨0xEC, 1, 0x0, fun _ => [F.CORE_BARRIER_BARRIER_WAIT p]⟩,
  ⟨0x100, 4, 0x10, fun i => [F.CORE_HIST_CFG_EN p i, F.CORE_HIST_CFG_SNAP p i, F.CORE_HIST_CFG_CLR p i, F.CORE_HIST_CFG_SRC p i, F.CORE_HIST_CFG_LAYER p i, F.CORE_HIST_CFG_CHAN p i, F.CORE_HIST_CFG_ALLCH p i]⟩,
  ⟨0x104, 4, 0x10, fun i => [F.CORE_HIST_LO_LO p i]⟩,
  ⟨0x108, 4, 0x10, fun i => [F.CORE_HIST_SHIFT_SHIFT p i]⟩,
  ⟨0x10C, 4, 0x10, fun i => [F.CORE_HIST_FRAME_FRAME p i]⟩,
  ⟨0x300, 64, 0x4, fun i => [F.CORE_SEM_COUNT p i, F.CORE_SEM_KIND p i, F.CORE_SEM_CAP p i, F.CORE_SEM_INIT p i, F.CORE_SEM_DEBT p i]⟩,
  ⟨0x400, 256, 0x4, fun i => [F.CORE_HIST_BIN_COUNT p i]⟩,
  ⟨0x800, 32, 0x4, fun i => [F.CORE_WIN_DATA p i]⟩,
  ⟨0x1000, 1024, 0x4, fun i => [F.CORE_PRN_DATA p i]⟩,
  ⟨0x2000, 128, 0x4, fun i => [F.CORE_LIST_DATA p i]⟩,
  ⟨0x200, 8, 0x20, fun i => [F.ENG_CTRL_RETRY (0x1000200 + p * 0x20000 + 0x20 * i), F.ENG_CTRL_ABORT (0x1000200 + p * 0x20000 + 0x20 * i)]⟩,
  ⟨0x204, 8, 0x20, fun i => [F.ENG_STATE_STATE (0x1000200 + p * 0x20000 + 0x20 * i), F.ENG_STATE_PENDING (0x1000200 + p * 0x20000 + 0x20 * i), F.ENG_STATE_OUTST (0x1000200 + p * 0x20000 + 0x20 * i), F.ENG_STATE_LIST (0x1000200 + p * 0x20000 + 0x20 * i), F.ENG_STATE_PEND_LIST (0x1000200 + p * 0x20000 + 0x20 * i), F.ENG_STATE_HALT_CAUSE (0x1000200 + p * 0x20000 + 0x20 * i)]⟩,
  ⟨0x208, 8, 0x20, fun i => [F.ENG_POS_DESC (0x1000200 + p * 0x20000 + 0x20 * i), F.ENG_POS_LINE (0x1000200 + p * 0x20000 + 0x20 * i), F.ENG_POS_XFER (0x1000200 + p * 0x20000 + 0x20 * i)]⟩,
  ⟨0x20C, 8, 0x20, fun i => [F.ENG_FADDR_LO_ADDR_LO (0x1000200 + p * 0x20000 + 0x20 * i)]⟩,
  ⟨0x210, 8, 0x20, fun i => [F.ENG_FADDR_HI_ADDR_HI (0x1000200 + p * 0x20000 + 0x20 * i), F.ENG_FADDR_HI_SPACE (0x1000200 + p * 0x20000 + 0x20 * i)]⟩,
  ⟨0x214, 8, 0x20, fun i => [F.ENG_CNT_HALTS (0x1000200 + p * 0x20000 + 0x20 * i), F.ENG_CNT_REARM_OVER (0x1000200 + p * 0x20000 + 0x20 * i)]⟩,
  ⟨0x218, 8, 0x20, fun i => [F.ENG_TILES_LANDED (0x1000200 + p * 0x20000 + 0x20 * i), F.ENG_TILES_CONSUMED (0x1000200 + p * 0x20000 + 0x20 * i)]⟩,
  ⟨0x21C, 8, 0x20, fun i => [F.ENG_XFERS_XFERS (0x1000200 + p * 0x20000 + 0x20 * i)]⟩
  ]

/-- The blocks of R10 other than the DRAM window. -/
inductive Blk where
  | dev | cal | inp | cmp | pnl | drm | fab | tpl | sec | pwr | sns | frs | drz | aud
  | band (b : Nat)
  | core (p : Nat)
  deriving DecidableEq, Repr

/-- The block an address lies in, and its offset there (R10, R13); none outside every register span. -/
def blockOf (a : Nat) : Option (Blk × Nat) :=
  let o := a % 0x10000
  match a / 0x10000 with
  | 0 => some (.dev, o) | 1 => some (.cal, o) | 2 => some (.inp, o) | 3 => some (.cmp, o)
  | 4 => some (.pnl, o) | 5 => some (.drm, o) | 6 => some (.fab, o) | 7 => some (.tpl, o)
  | 8 => some (.sec, o) | 9 => some (.pwr, o) | 10 => some (.sns, o) | 11 => some (.frs, o)
  | 12 => some (.drz, o) | 13 => some (.aud, o)
  | k =>
    if 16 ≤ k ∧ k < 24 then some (.band (k - 16), o)
    else if 0x100 ≤ k ∧ k < 0x190 then some (.core ((k - 0x100) / 2), a % 0x20000)
    else none

/-- The register rows of a block. -/
def blockRows : Blk → List RegRow
  | .dev => rowsDev | .cal => rowsCal | .inp => rowsInp | .cmp => rowsCmp | .pnl => rowsPnl
  | .drm => rowsDrm | .fab => rowsFab | .tpl => rowsTpl | .sec => rowsSec | .pwr => rowsPwr
  | .sns => rowsSns | .frs => rowsFrs | .drz => rowsDrz | .aud => rowsAud
  | .band b => rowsBand b
  | .core p => rowsCoreA p ++ rowsCoreB p

/-- The fields of the register at an address; none where the address holds no register (R12, R554). -/
def regAt (a : Nat) : Option (List Fld) :=
  match blockOf a with
  | none => none
  | some (b, o) => (blockRows b).findSome? fun r => r.at? o

/-- Values wider than 32 bits (R20): for the address of a lowest word, the addresses of its higher
words. -/
def higherWords (a : Nat) : List Nat :=
  match blockOf a with
  | some (.dev, 0x40) => (List.range 11).map fun i => a + 4 * (i + 1)
  | some (.dev, 0x70) => (List.range 11).map fun i => a + 4 * (i + 1)
  | some (.cal, 0x0) | some (.cal, 0x104) => [a + 4]
  | some (.inp, 0x50) => [a + 4]
  | some (.cmp, o) =>
    if o = 0x104 ∨ o = 0x144 ∨ o = 0x204 ∨ (0x400 ≤ o ∧ o < 0x600 ∧ o % 0x20 = 0x10) then [a + 4] else []
  | some (.fab, 0xC) => [a + 4]
  | some (.drm, 0x8) => [a + 4]
  | some (.tpl, 0x8) => [a + 4]
  | some (.sns, o) => if o = 0x20 ∨ (0x200 ≤ o ∧ o < 0x280 ∧ o % 16 = 4) then [a + 4] else []
  | some (.drz, 0x4) | some (.drz, 0x14) => [a + 4]
  | some (.aud, 0x4) | some (.aud, 0x20) | some (.aud, 0x44) => [a + 4]
  | some (.band _, o) => if (0x100 ≤ o ∧ o < 0x140 ∧ o % 0x20 = 0xC) ∨ (0x1000 ≤ o ∧ o < 0x1400 ∧ o % 0x20 = 0x10) then [a + 4] else []
  | some (.core _, o) => if (0x200 ≤ o ∧ o < 0x300 ∧ o % 0x20 = 0xC) ∨ (0x1000 ≤ o ∧ o < 0x2000 ∧ o % 0x20 = 0x10) then [a + 4] else []
  | _ => []

end Sys2Proof
end

