-- ==== Sys2Proof/Config.lean ====
section
/-! DEFINITION. What the spec leaves to a container, to a published standard or open, as constants with
no body: nothing can prove a value of them (log entries named beside each). -/
namespace Sys2Proof

/-- A value that the spec leaves open where the device goes on (log entry 2): fresh at each index. -/
opaque Config.freeValue : Nat → Nat

/-- The errors that the reads of a DRAM row's copy meet (R419): open, and fresh at each index (log entry 2). -/
opaque Config.mapErrors : Nat → EccIn

/-- The program held in the container's PROGRAM sections (R284, R490): its encoding is not in the
spec (log entry 3). -/
opaque Config.decodeProgram : List Byte → Program

/-- A model set held in a MODELSET section placed at an offset of DRAM (R284, R490): its encoding is not in the spec
(log entry 3). -/
opaque Config.decodeModelSet : Nat → List Byte → ModelSet

/-- The private scalar of the identity key that the SEC block derives from the device secret (R474): the spec does not
give the derivation's parameters. -/
opaque Config.identityKey : List Byte → Nat

end Sys2Proof

namespace Sys2Proof

/-- The 2048 values of the AV1 specification's Gaussian sequence (R359), which the spec names and does not give (log entry 15). -/
opaque Config.gaussian : Nat → Int

/-- Where the Prefix and Suffix weight stores hold a layer's codes (R139, R154, R155): the index for an
output channel, a tap and an input channel. The spec gives the stores' size and not their layout
(log entry 11). -/
opaque Config.engineWeight : LayerDesc → MapRec → Nat → Nat → Nat → Nat

end Sys2Proof
end

