-- ==== Sys2Proof/Machine/TypesAudit.lean ====
section
/-! DEFINITION. Parts of the state that belong to the audit unit (chapter 17): the log's buffer, the
frame records and their queue, and a replay. Plain data. -/
namespace Sys2Proof

/-- A log entry before it is written (R450): its type, whether it is withheld, its cycle, its payload. -/
structure LogEnt where
  type : Nat
  withheld : Bool
  time : Nat
  payload : List Byte
  deriving DecidableEq, Repr, Inhabited

/-- A log entry as a replay reads it (R450, R455): TIME is relative to the boundary of output frame 0. -/
structure ReplayEnt where
  type : Nat
  withheld : Bool
  time : Int
  payload : List Byte
  deriving DecidableEq, Repr, Inhabited

/-- Timing-dependent counts of one output frame (R439), by TD_ field; the output pairs that TD_FC has counted
(4 × clause + pair). -/
structure TdCnt where
  lines : Nat := 0
  fc : List Nat := []
  rt : Nat := 0
  drz : Nat := 0
  cap : Nat := 0
  gfx : Nat := 0
  deriving DecidableEq, Repr, Inhabited

/-- A frame record under way (R447): what is fixed at the frame's boundary; V_TOTAL once decided; at its end the TD
counts, the line CRCs, and whether the frame read an encrypted picture. -/
structure FrameRec where
  frame : Nat
  aligned : Bool
  live : Bool
  rt : Bool
  msw : Bool
  scw : Bool
  mset : Nat
  sched : Nat
  i : Nat
  f : Nat
  shown : Bool
  synth : Bool
  adaptVer : Nat
  /-- ADAPT of R444. -/
  adapt : List Byte
  msetDigest : List Byte
  seed : Nat
  drzSeed : Nat
  /-- LIVE: the input frame that stage 10 writes, known at the frame's end (R312, R443). -/
  inFrame : Nat := 0
  vt : Option Nat := none
  enc : Bool := false
  td : TdCnt := {}
  crcs : List Nat := []
  /-- IN_A and IN_B once the input frames are complete (R443), and whether IN_A's frame came from the blank path. -/
  inA : Option (List Byte) := none
  inB : Option (List Byte) := none
  blank : Bool := false
  deriving DecidableEq, Repr, Inhabited

/-- The audit unit beside its registers (R447 to R457). -/
structure AudSt where
  recording : Bool := false
  /-- AUD_REC_CTRL as taken at the last boundary (R458). -/
  ctrl : Nat := 0
  seq : Nat := 0
  /-- Entries buffered ahead of the log, and the bytes they take (R452). -/
  buf : List LogEnt := []
  bufBytes : Nat := 0
  lostRun : Nat := 0
  /-- Offset in the log of the next entry. -/
  ptr : Nat := 0
  /-- The cycle of the boundary of output frame 0 (R450). -/
  zero : Option Nat := none
  /-- Records of frames in progress, the CRC-64 of composed lines by output frame (R445), and the records complete
  and waiting for the writer (R448), oldest first. -/
  cur : List FrameRec := []
  crcs : SMap (List Nat) := []
  recQ : List FrameRec := []
  /-- A replay armed and holding frame 0 (R454); a replay under way (R455), its entries not yet consumed, and the time of
  its last entry. -/
  replayHold : Bool := false
  replay : Bool := false
  replayLog : List ReplayEnt := []
  replayEnd : Int := 0
  deriving DecidableEq, Repr, Inhabited

end Sys2Proof
end

