-- ==== Sys2Proof/Machine/TypesDrizzle.lean ====
section
/-! DEFINITION. Parts of the state that belong to Drizzle (chapter 12): the records it runs by, the queue of steps,
the steps in progress, commits, and the crop grabber. Plain data. -/
namespace Sys2Proof

/-- A model set's Drizzle record (R331). -/
structure DrzRec where
  t : Nat
  b1 : Nat
  b2 : Nat
  sr : Bool
  lr : Nat
  eps : Nat
  gSlot : Nat
  cbOff : Nat
  mapOff : Nat
  initOff : Nat
  deriving DecidableEq, Repr, Inhabited

/-- The fields of a 64-byte Drizzle record (R331). -/
def DrzRec.parse (b : List Byte) : DrzRec where
  t := leAt b 0 1
  b1 := leAt b 1 1
  b2 := leAt b 2 1
  sr := bit (leAt b 3 1) 0
  lr := leAt b 4 2
  eps := leAt b 6 2
  gSlot := leAt b 8 1
  cbOff := leAt b 12 4
  mapOff := leAt b 16 4
  initOff := leAt b 20 4

/-- A schedule's Drizzle binding (R342). -/
structure DrzBind where
  clause : Nat
  spc : Nat
  samplePrn : Nat
  sampleSem : Nat
  gsumPrn : Nat
  pagePrn : Nat
  histPrn : Nat
  ngd : Nat
  geom : Bool
  gain : Bool
  noiseA : Nat
  commitEvery : Nat
  /-- CORE_HIST_CFG [22:4], SHIFT and LO of units 2 and 3. -/
  hist : List (Nat × Nat × Nat)
  deriving DecidableEq, Repr, Inhabited

/-- The fields of a 32-byte Drizzle binding (R342). -/
def DrzBind.parse (b : List Byte) : DrzBind where
  clause := leAt b 0 1
  spc := leAt b 1 1
  samplePrn := leAt b 2 1
  sampleSem := leAt b 3 1
  gsumPrn := leAt b 4 1
  pagePrn := leAt b 5 1
  histPrn := leAt b 6 1
  ngd := leAt b 7 1
  geom := bit (leAt b 12 1) 0
  gain := bit (leAt b 12 1) 1
  noiseA := leAt b 13 1
  commitEvery := leAt b 14 1
  hist := (List.range 2).map fun u => (bits (leAt b (16 + 8 * u) 4) 4 19, bits (leAt b (19 + 8 * u) 1) 0 5, leAt b (20 + 8 * u) 4)

/-- A gradient descriptor (R344). -/
structure GradDesc where
  layer : Nat
  j : Nat
  xPrn : Nat
  gPrn : Nat
  qg : Int
  deriving DecidableEq, Repr, Inhabited

/-- The fields of an 8-byte gradient descriptor (R344). -/
def GradDesc.parse (b : List Byte) : GradDesc where
  layer := leAt b 0 1
  j := leAt b 1 1
  xPrn := leAt b 2 1
  gPrn := leAt b 3 1
  qg := sext 8 (leAt b 4 1)

/-- Counters of one model set's Drizzle state (R333), which copy is current, the page buffer of the live version,
and whether that version was generated under TAINT (R352). -/
structure DrzSet where
  sc : Nat := 0
  step : Nat := 0
  version : Nat := 0
  taint : Bool := false
  cur : Nat := 0
  buf : Nat := 0
  tainted : Bool := false
  /-- ADAPT of R444 for the live version. -/
  adapt : List (BitVec 8) := []
  deriving DecidableEq, Repr, Inhabited

/-- A step in the queue (R349): its output frame, I and the flags of that frame's context, and the adapter version
that the frame's lines read, with its page buffer (R346). -/
structure DrzQ where
  frame : Nat
  i : Nat
  shown : Bool
  td : Bool
  version : Nat
  buf : Nat
  deriving DecidableEq, Repr, Inhabited

/-- A step that has begun (R341): its number, what it latched, its samples (crop, position), per core how many
samples are augmented and which gradient descriptors are done, and the cores that have ended it. -/
structure DrzStep where
  q : DrzQ
  num : Nat
  e : Nat
  d : Nat
  startAt : Nat
  samples : List (Nat × Nat) := []
  /-- Every sample is selected. -/
  selected : Bool := false
  aug : SMap Nat := []
  grads : SMap (List Nat) := []
  ended : List Nat := []
  deriving DecidableEq, Repr, Inhabited

/-- A commit on its way (R351): its due boundary, the live codes of its T tiles, its page buffer once generated, the
cycle at which its pages have reached every core, whether it is ready, and its taint. -/
structure DrzCommit where
  due : Nat
  live : List (List Nat)
  buf : Option Nat := none
  done : Nat := 0
  ready : Bool := false
  tainted : Bool := false
  deriving DecidableEq, Repr, Inhabited

/-- Crops still to be taken from an input frame (R335, R336): CPF as sampled at A(j), the frame's fit, its history
slot, and whether it came from an encrypted picture. -/
structure Grab where
  frame : Nat
  cpf : Nat
  fit : Fit
  slot : Nat
  enc : Bool
  deriving DecidableEq, Repr, Inhabited

/-- The Drizzle unit (chapter 12). -/
structure DrzSt where
  sets : SMap DrzSet := []
  /-- The seed in use (R353). -/
  seed : Nat := 0
  /-- E, and the number of crops taken once each recent input frame's crops had been taken. -/
  e : Nat := 0
  log : List (Nat × Nat) := []
  grabs : List Grab := []
  /-- EN is in effect; the next due boundary of R351. -/
  on : Bool := false
  nextDue : Nat := 0
  queue : List DrzQ := []
  /-- Steps in progress, the older one first: the second only while the first is in phase 4. -/
  steps : List DrzStep := []
  commit : Option DrzCommit := none
  /-- A RESET waits for its boundary, the first after the cycle in which its writes are complete (R353). -/
  reset : Bool := false
  resetEnd : Nat := 0
  /-- A model-set switch waits for its boundary with live pages written to the inactive bank (R354). -/
  switched : Bool := false
  /-- Whether the bank changes at the next boundary, once a line started ahead of it has read an adapter tile (R146). -/
  ahead : Option Bool := none
  deriving DecidableEq, Repr, Inhabited

end Sys2Proof
end

