-- ==== Sys2Proof/Machine/TypesFabric.lean ====
section
/-! DEFINITION. Parts of the state that span the device: snapshots, barriers, handovers and the
multicast network (chapter 09), and the running schedule and its changes (chapter 10). Plain data. -/
namespace Sys2Proof

/-- A memory as a snapshot holds it (R280): its place from the start of DRAM, its length, its bytes, and its
words that read as uncorrectable. -/
structure SnapMem where
  off : Nat
  len : Nat
  mem : SMap (BitVec 8)
  bad : SMap Nat
  deriving DecidableEq, Repr, Inhabited

/-- A consistent snapshot under way (R280 to R282). -/
structure SnapSt where
  /-- Values latched at arming. -/
  bands : Nat := 0
  spad : Bool := false
  ls : Bool := false
  line : Nat := 0
  frame : Nat := 0
  dest : Nat := 0
  /-- The bands have stopped at phase 0 of the chosen line. -/
  stopped : Bool := false
  /-- Line starts until the copy ends, once it has begun; how many LP it takes. -/
  lps : Nat := 0
  left : Nat := 0
  /-- What the stopped memories held at phase 0 of the line. -/
  image : List SnapMem := []
  deriving DecidableEq, Repr, Inhabited

/-- A barrier group's arrivals (R278): how often each logical core has arrived at barriers of the group that are not complete,
arrivals that a failed run has made ahead of its threads, and the cycle of the last arrival. -/
structure BarrierSt where
  arrived : SMap Nat := []
  ahead : SMap Nat := []
  /-- Cycle of the last arrival, once every member has arrived. -/
  lastAt : Option Nat := none
  deriving DecidableEq, Repr, Inhabited

/-- A handover decided for a band (R272): the slot that becomes idle, the slot that takes its logical
number, whether the outgoing core is retired or becomes the spare, and when. -/
structure Handover where
  outSlot : Nat
  inSlot : Nat
  retire : Bool
  decided : Nat
  /-- The reason of R526 (6 for a restoration). -/
  reason : Nat
  /-- The interval's steps have been carried out; the boundary completes it. -/
  carried : Bool := false
  deriving DecidableEq, Repr, Inhabited

/-- A change of schedule (R293, R294). -/
structure SchedChange where
  decidedAt : Nat
  /-- Installed in the handover interval; waits for the boundary. -/
  installed : Bool := false
  mode : Nat
  sched : Nat
  bucket : Nat
  /-- A new bucket is among what decided it (R295). -/
  newBucket : Bool := false
  deriving DecidableEq, Repr, Inhabited

/-- A remote transfer on its way (R262, R266): the engine and transfer it belongs to, the owner's logical
number, and the cycle in which it can first be accepted. One to another band waits for remote slots of its band's port (R262,
R274): the requester that asks for them, and the beats not yet sent. -/
structure Remote where
  eng : EngId
  desc : Nat
  k : Nat
  dst : Nat
  due : Nat
  q : Nat := 0
  beats : Nat := 0
  deriving DecidableEq, Repr, Inhabited

/-- A multicast transfer on the global network (R277): the cycle of its issue, its length, and the cycle
in which every target accepts it. -/
structure Mcast where
  eng : EngId
  desc : Nat
  k : Nat
  issued : Nat
  bytes : Nat
  due : Nat
  deriving DecidableEq, Repr, Inhabited

/-- A semaphore signal on its way (R243, R244, R262): to semaphore `sem` of logical core `core`. One to another band waits for a
remote slot of its band's port. -/
structure Signal where
  core : Nat
  sem : Nat
  due : Nat := 0
  /-- Physical core and thread whose clause sent it (R246). -/
  sender : Nat := 0
  thread : Nat := 0
  beats : Nat := 0
  item : Item := {}
  deriving DecidableEq, Repr, Inhabited

/-- Device fabric (chapter 09). -/
structure FabSt where
  snap : SnapSt := {}
  barriers : SMap BarrierSt := []
  handovers : List (Option Handover) := List.replicate 8 none
  /-- Cycle until which the global network carries a multicast (R277). -/
  mcBusy : Nat := 0
  /-- Multicast transfers under way, in the order of R277. -/
  mcasts : List Mcast := []
  /-- The link switches (R262): the first cycle in which each core's slot can send another transfer, and take another. -/
  outFree : SMap Nat := []
  inFree : SMap Nat := []
  /-- Beats of the current frame per band: read, write, remote (R276). -/
  beats : SMap Nat := []
  deriving DecidableEq, Repr, Inhabited

end Sys2Proof
end

