-- ==== Sys2Proof/Machine/TypesLedger.lean ====
section
/-! DEFINITION. The weathering ledger (R503 to R505): the two halves of the flash's ledger area and the queue of
records. Plain data. -/
namespace Sys2Proof

/-- The ledger: slots of 64 bytes by `32768 × half + slot` (an unlisted slot is unused), the records waiting,
the first slot after the last used one, whether an active half exists, and map-outs found at boot. -/
structure LedSt where
  slots : SMap (List Byte) := []
  queue : List (List Byte) := []
  next : Nat := 1
  valid : Bool := false
  deriving DecidableEq, Repr, Inhabited

end Sys2Proof
end

