-- ==== Sys2Proof/Machine/TypesLink.lean ====
section
/-! DEFINITION. Parts of the state that belong to the control link and the SEC block (chapter 18). Plain data. -/
namespace Sys2Proof

/-- A Terpel request in the queue (R464): where its response goes, and the UDP payload. -/
structure Req where
  mac : List Byte
  ip : List Byte
  port : Nat
  msg : List Byte
  deriving DecidableEq, Repr, Inhabited

/-- An outstanding challenge (R476): nonce, ephemeral private scalar, the cycle in which it expires. -/
structure Chal where
  nonce : List Byte
  eph : Nat
  expires : Nat
  deriving DecidableEq, Repr, Inhabited

/-- The open session (R477 to R479): its keys, whether a request has been accepted and the stored response to it (status
and payload of the message), and the cycle of the last accepted request or of the opening. -/
structure Sess where
  kh : List Byte
  kd : List Byte
  accepted : Bool := false
  reply : List Byte := []
  last : Nat
  deriving DecidableEq, Repr, Inhabited

/-- The control link beside its registers. -/
structure TplSt where
  /-- Requests, oldest first, at most 16; the oldest is a STATUS that waits for a boundary (R471). -/
  rx : List Req := []
  waiting : Bool := false
  /-- The session, SEQ and device key under which that STATUS was accepted, where it was an AUTH request (R478). -/
  waitAs : Option (Nat × Nat × List Byte) := none
  /-- Ethernet frames sent, oldest first, without FCS. -/
  sent : List (List Byte) := []
  chal : Option Chal := none
  /-- Consecutive failed OPENs, and the end of the lockout (R476). -/
  fails : Nat := 0
  lockEnd : Option Nat := none
  sess : Option Sess := none
  /-- Part 0 of a page (R470): PAGE, ID, bytes. -/
  part : Option (Nat × Nat × List Byte) := none
  deriving DecidableEq, Repr, Inhabited

end Sys2Proof
end

