-- ==== Sys2Proof/Machine/State.lean ====
section
/-! DEFINITION. The state of the block: everything the spec gives the device, as plain data; the
reasons a step can stop; and the state right after device reset (R21, R283, R497). -/
namespace Sys2Proof.Machine

/-- Why a step stops with a fault. No command of this block raises one: the spec gives every command an
effect (log entry 1). The constructor exists for an operation that the model could not carry out and is
raised by nobody (safe). -/
inductive Fault where
  | unreachable
  deriving DecidableEq, Repr

/-- Why a command is refused: no meaning in the model (safe). Raised only by an arm of exec that has no
meaning yet. -/
inductive Refusal where
  | notModelled (mnemonic : String)
  deriving DecidableEq, Repr

/-- The block. Fields that are registers live in `regs` (by field key, an unlisted field at its reset
value); the others are the units' own state. Times are fabric cycles since device reset (`now`). -/
structure State where
  pending : List Instr := []
  /-- Counter that makes each free value fresh (the model's own field, log entry 2). -/
  free : Nat := 0
  now : Nat := 0
  cal : CalSt := {}
  regs : RegFile := {}
  /-- Latched higher words of values wider than 32 bits (R20), by address. -/
  latch : SMap Nat := []
  dram : List Host.Cell := []
  /-- DRAM words (address / 16) that read as uncorrectable or poisoned. -/
  dramBad : SMap Nat := []
  drm : DramSt := {}
  cores : SMap CoreSt := []
  bands : SMap BandSt := []
  prog : Program := {}
  /-- The running almanac, and the schedule whose tables are installed (R294). -/
  almanac : List AlmEntry := []
  sched : Schedule := {}
  /-- Entries counted back from the boundary do not fire in this frame (R294). -/
  noBase1 : Bool := false
  change : Option SchedChange := none
  /-- First frame under a new schedule, and E of R294: its first lines that take source 2 or 3. -/
  firstLines : Option (Nat × Nat) := none
  /-- Bucket of the schedule in use (R102, R294). -/
  bucket : Nat := 0
  /-- The state of R508 that the cores are in: 0 Gale, 1 Breeze, 2 Doldrums. -/
  pstate : Nat := 0
  /-- Model-set switch: the sample taken at line V_ACTIVE (R301), and the cycle at which the open
  window closes. -/
  msetSample : Option Nat := none
  mwinEnd : Option Nat := none
  fc : List FcSt := List.replicate 16 {}
  fab : FabSt := {}
  remotes : List Remote := []
  signals : List Signal := []
  inp : InpSt := {}
  hist : List HistSlot := List.replicate 8 {}
  /-- Input frames whose last line is written, waiting for A(i), and (frame, output frame of A(i)) of
  those available (R297). -/
  arrived : List Nat := []
  avail : List (Nat × Nat) := []
  /-- τ of R310, in 1/65536 input frames; none until an input frame is available. -/
  tau : Option Nat := none
  /-- The re-timer's first decision since boot or a change of schedule is still to come (R310). -/
  rtFirst : Bool := true
  /-- First input frame that became available since then (j0). -/
  rtJ0 : Option Nat := none
  /-- Context of the output frame in progress and of the one decided next. -/
  ctx : FrameCtx := {}
  ctxNext : Option FrameCtx := none
  warp : List WarpSt := List.replicate 8 {}
  box : Option BoxRun := none
  drz : DrzSt := {}
  frost : FrostSt := {}
  sns : SnsSt := {}
  cmp : CmpSt := {}
  pnl : PnlSt := {}
  fbSegs : List FbSeg := []
  /-- Lines whose fallback has started: (frame, y, cycle of S(y)) (R104). -/
  fbStarted : List (Nat × Nat × Nat) := []
  /-- Lines the selector has released, and the last ones composed. -/
  sel : List SelLine := []
  /-- FB_LAST count of the current frame and of the next (lines selected before its boundary). -/
  fbNow : Nat := 0
  fbNext : Nat := 0
  pwr : PwrSt := {}
  seq : SeqSt := {}
  boot : BootSt := {}
  aud : AudSt := {}
  led : LedSt := {}
  tpl : TplSt := {}
  /-- Timing-dependent counts by output frame (R439). -/
  tds : SMap TdCnt := []
  /-- The summary status word as it stood at the start of the last cycle in which a command ran: that cycle, plus one, and the
  word (R557). -/
  stat : Nat × Nat := (1, 0)
  deriving DecidableEq, Repr

/-- The state right after device reset: every register at its reset value, every unit empty and idle
(R21, R140, R283). -/
def State.reset : State := {}

end Sys2Proof.Machine
end

