-- ==== Sys2Proof/Machine/Regs.lean ====
section
/-! DEFINITION. The named operations over registers, cores, bands, pronouns and memory that every meaning uses. -/
namespace Sys2Proof.Machine

/-! ### Registers -/

/-- The value a field holds. -/
def State.getF (s : State) (f : Fld) : Nat := SMap.get f.rst s.regs.vals f.key

/-- A field takes a value, within its width. -/
def State.putF (s : State) (f : Fld) (v : Nat) : State := { s with regs := s.regs.put f (v % 2 ^ f.w) }

/-- Hardware sets a field (R14), within its width; bits of a W1C field count as set in this cycle (R15). -/
def State.setF (s : State) (f : Fld) (v : Nat) : State :=
  { s with regs := (s.regs.note s.now f (s.regs.eventsIn s.now f ||| v % 2 ^ f.w)).put f (v % 2 ^ f.w) }

/-- An event counter counts `n` events: it saturates at all ones (R19). -/
def State.incF (s : State) (f : Fld) (n : Nat) : State :=
  { s with regs := (s.regs.note s.now f (satAdd f.w (s.regs.eventsIn s.now f) n)).put f (satAdd f.w (s.getF f) n % 2 ^ f.w) }

/-- `n` events of earlier cycles are counted now: they are no events of this cycle (R19). -/
def State.lateF (s : State) (f : Fld) (n : Nat) : State := s.putF f (satAdd f.w (s.getF f) n)

/-- An event counted in this cycle is taken back; `n` is what the counter held before it (R19). -/
def State.uncountF (s : State) (f : Fld) (n : Nat) : State :=
  let v := if s.getF f = satAdd f.w n 1 then n else s.getF f - 1
  { s with regs := (s.regs.note s.now f (s.regs.eventsIn s.now f - 1)).put f v }

/-- The host clears bits of a W1C field: what hardware set or counted in the same cycle stays (R15, R19). The cycle of the
write is kept. -/
def State.clearF (s : State) (f : Fld) (v : Nat) : State :=
  { s with regs := { s.regs with writes := SMap.set (0, 0) s.regs.writes f.key (s.now + 1, s.getF f) } }.putF f
    (s.getF f - (s.getF f &&& v) ||| (s.regs.eventsIn s.now f &&& v))

/-- The cycle of the host's last write to a field that keeps it, none being cycle 0. -/
def State.wroteAt (s : State) (f : Fld) : Nat := (SMap.get (0, 0) s.regs.writes f.key).1 - 1

/-- The host writes a field that hardware changes too (R15): the cycle and the value before are kept. -/
def State.shareF (s : State) (f : Fld) (v : Nat) : State :=
  let old := SMap.get (0, 0) s.regs.writes f.key
  { s with regs := { s.regs with
      writes := SMap.set (0, 0) s.regs.writes f.key (s.now + 1, if old.1 = s.now + 1 then old.2 else s.getF f) } }.putF f v

/-- The host has written a field in this cycle. -/
def State.wroteNow (s : State) (f : Fld) : Bool := (SMap.get (0, 0) s.regs.writes f.key).1 == s.now + 1

/-- What hardware finds in a field that the host writes too: a value written in this cycle counts from the next (R15). -/
def State.seenF (s : State) (f : Fld) : Nat :=
  if s.wroteNow f then (SMap.get (0, 0) s.regs.writes f.key).2 else s.getF f

/-- Hardware changes such a field: a value that the host wrote in this cycle stays (R15). -/
def State.yieldF (s : State) (f : Fld) (v : Nat) : State := if s.wroteNow f then s else s.setF f v

/-- A counter that wraps (R19). -/
def State.wrapF (s : State) (f : Fld) (n : Nat) : State :=
  { s with regs := (s.regs.note s.now f ((s.regs.eventsIn s.now f + n) % 2 ^ f.w)).put f ((s.getF f + n) % 2 ^ f.w) }

/-- Set several fields. -/
def State.setFs (s : State) : List (Fld × Nat) → State
  | [] => s
  | (f, v) :: t => (s.setF f v).setFs t

/-- Count in several fields. -/
def State.incFs (s : State) : List (Fld × Nat) → State
  | [] => s
  | (f, v) :: t => (s.incF f v).incFs t

/-- A fresh free value (log entry 2), and the state with the counter advanced. -/
def State.fresh (s : State) : Nat × State := (Config.freeValue s.free, { s with free := s.free + 1 })

/-! ### Cores and bands -/

/-- A physical core's state. -/
def State.core (s : State) (p : Nat) : CoreSt := SMap.get {} s.cores p
/-- Write a physical core's state. -/
def State.setCore (s : State) (p : Nat) (c : CoreSt) : State := { s with cores := SMap.set {} s.cores p c }
/-- Change a physical core's state. -/
def State.onCore (s : State) (p : Nat) (f : CoreSt → CoreSt) : State := s.setCore p (f (s.core p))
/-- A band's state. -/
def State.band (s : State) (b : Nat) : BandSt := SMap.get {} s.bands b
/-- Write a band's state. -/
def State.setBand (s : State) (b : Nat) (c : BandSt) : State := { s with bands := SMap.set {} s.bands b c }
/-- Change a band's state. -/
def State.onBand (s : State) (b : Nat) (f : BandSt → BandSt) : State := s.setBand b (f (s.band b))

/-- The band and slot of a physical core (R24). -/
def bandOf (p : Nat) : Nat := p / 9
/-- The slot of a physical core (R24). -/
def slotOf (p : Nat) : Nat := p % 9

/-- The logical number that a physical core holds under BAND_SLOTMAP (R25). -/
def State.mapLogical (s : State) (p : Nat) : Option Nat :=
  let idle := s.getF (F.BAND_SLOTMAP_IDLE_SLOT (bandOf p))
  if slotOf p = idle then none
  else if slotOf p = 8 then some (8 * bandOf p + idle)
  else some (8 * bandOf p + slotOf p)

/-- A band's handover whose steps have been carried out and whose boundary is still to come (R272). -/
def State.moved (s : State) (b : Nat) : Option Handover := (s.fab.handovers.getD b none).filter (·.carried)

/-- The logical number that work and transfers find at a physical core: BAND_SLOTMAP's, or that of a handover
carried out (R25, R272). -/
def State.logical (s : State) (p : Nat) : Option Nat :=
  match s.moved (bandOf p) with
  | some h =>
    if slotOf p = h.outSlot then none
    else if slotOf p = h.inSlot then s.mapLogical (9 * bandOf p + h.outSlot)
    else s.mapLogical p
  | none => s.mapLogical p

/-- The physical core that holds a logical number (R25, R272). -/
def State.phys (s : State) (l : Nat) : Nat :=
  let b := l / 8
  ((List.range 9).find? fun k => s.logical (9 * b + k) == some l).getD 0 + 9 * b

/-- ROLE of a core (R28). -/
def State.role (s : State) (p : Nat) : Nat := s.getF (F.CORE_IDENT_ROLE p)

/-- A core takes part: it holds a logical number and is active (R27, R28), or takes over in a handover. -/
def State.active (s : State) (p : Nat) : Bool :=
  (s.logical p).isSome && (s.role p == 0 || ((s.moved (bandOf p)).map fun h => h.inSlot == slotOf p).getD false)

/-- Logical cores taking part: N of R27, from the power state. -/
def State.nCores (s : State) : Nat := if s.pstate = 0 then 64 else if s.pstate = 1 then 32 else 0
/-- Bands taking part. -/
def State.nBands (s : State) : Nat := s.nCores / 8

/-- Apply to each number below `n`, ascending. -/
def State.each (s : State) (n : Nat) (f : State → Nat → State) : State := (List.range n).foldl f s

/-- Clock of a core in units of 0.1 GHz (R28). -/
def binClock (b : Nat) : Nat := 15 - min 3 b
/-- The bin that BIN_PLAN and BIN_DIP ask for (R162). -/
def State.binTarget (s : State) (p : Nat) : Nat := min 3 (s.getF (F.CORE_CLK_BIN_PLAN p) + s.getF (F.CORE_CLK_BIN_DIP p))
/-- A core's clock now (R162): the effective bin's; during a change the lower of the two frequencies. -/
def State.clock (s : State) (p : Nat) : Nat := binClock (max (s.getF (F.CORE_CLK_BIN_EFF p)) (s.binTarget p))
/-- Core cycles, in a core's own clock, that begin between two fabric cycles (R5). -/
def coreCycles (clock t0 t1 : Nat) : Nat := t1 * clock / 15 - t0 * clock / 15
/-- Fabric cycles that `n` core cycles take, rounded up. -/
def fabricCycles (clock n : Nat) : Nat := ceilDiv (n * 15) clock

/-- A core holds a line of a line clause in flight (R62). -/
def State.inFlight (s : State) (p : Nat) : Bool := (s.core p).lines.any fun l => !l.complete

/-! ### Pronouns (R216, R217) -/

/-- A pronoun entry (R216). -/
structure Prn where
  place : Nat
  form : Nat
  zc : Bool
  ch : Nat
  lh : Nat
  lw : Nat
  ph : Nat
  pw : Nat
  oy : Nat
  ox : Nat
  base : Nat
  ring : Nat
  cons : Nat
  fb : Bool
  deriving DecidableEq, Repr, Inhabited

/-- The fields of a 32-byte pronoun entry (R216). -/
def Prn.parse (b : List Byte) : Prn where
  place := leAt b 0 1
  form := bits (leAt b 1 1) 0 3
  zc := bit (leAt b 1 1) 3
  ch := leAt b 2 2
  lh := leAt b 4 2
  lw := leAt b 6 2
  ph := leAt b 8 2
  pw := leAt b 10 2
  oy := leAt b 12 2
  ox := leAt b 14 2
  base := leAt b 16 5
  ring := leAt b 21 1
  cons := bits (leAt b 22 1) 0 4
  fb := bit (leAt b 22 1) 4

/-- The table words as bytes. -/
def wordsToBytes (ws : List Nat) : List Byte := ws.flatMap (toLe 4)

/-- A pronoun of a physical core's table (R229). -/
def State.prn (s : State) (p n : Nat) : Prn :=
  Prn.parse (wordsToBytes ((List.range 8).map fun k => s.getF (F.CORE_PRN_DATA p (8 * n + k))))
/-- A pronoun of a band's table (R256). -/
def State.bprn (s : State) (b n : Nat) : Prn :=
  Prn.parse (wordsToBytes ((List.range 8).map fun k => s.getF (F.BAND_PRN_DATA b (8 * n + k))))

/-- Bits per element (R217). -/
def formBits (form : Nat) : Nat :=
  match form with | 0 => 4 | 1 => 8 | 2 => 16 | 3 => 32 | 4 => 16 | _ => 8
/-- The least power of two at or above `n`. -/
def pow2ceil (n : Nat) : Nat := 2 ^ clog2 n
/-- Rows per position (R113, R217). -/
def Prn.nr (r : Prn) : Nat := ceilDiv r.ch 64
/-- Whether the tensor has tag and side planes. -/
def Prn.quant (r : Prn) : Bool := decide (r.form ≤ 1)
/-- Pitch of a position in plane 0 code, 1 tag, 2 side (R217). -/
def Prn.pitch (r : Prn) (plane : Nat) : Nat :=
  if plane = 0 then pow2ceil (ceilDiv (r.ch * formBits r.form) 8)
  else if r.quant then (if plane = 1 then pow2ceil (4 * r.nr) else pow2ceil (16 * r.nr)) else 0
/-- Slot of a compressed block (R194). -/
def Prn.zcSlot (r : Prn) : Nat := if r.form = 0 then 328 else 584
/-- Line pitch of a plane (R217). -/
def Prn.linePitch (r : Prn) (plane : Nat) : Nat :=
  if plane = 0 ∧ r.zc then roundUp 64 (ceilDiv (r.pw * r.nr) 8 * r.zcSlot)
  else roundUp 64 (r.pw * r.pitch plane)
/-- Lines the buffer holds (R217). -/
def Prn.lines (r : Prn) : Nat := if r.ring = 0 then r.ph else r.ring
/-- line_of of R217. -/
def Prn.lineOf (r : Prn) (y : Nat) : Nat := if r.ring = 0 then y else y % r.ring
/-- Bytes of one ring slot (R217). -/
def Prn.slotBytes (r : Prn) : Nat := r.linePitch 0 + r.linePitch 1 + r.linePitch 2
/-- First byte of a plane of padded line y′ (R217). -/
def Prn.lineAddr (r : Prn) (plane y : Nat) : Nat :=
  if r.ring = 0 then
    r.base + (if plane = 0 then 0 else if plane = 1 then r.lines * r.linePitch 0
      else r.lines * (r.linePitch 0 + r.linePitch 1)) + y * r.linePitch plane
  else r.base + r.lineOf y * r.slotBytes +
    (if plane = 0 then 0 else if plane = 1 then r.linePitch 0 else r.linePitch 0 + r.linePitch 1)
/-- First byte of the ring slot of padded line y′. -/
def Prn.slotAddr (r : Prn) (y : Nat) : Nat := r.base + r.lineOf y * r.slotBytes
/-- Byte of a plane of padded position (y′, x′) (R217), uncompressed planes. -/
def Prn.posAddr (r : Prn) (plane y x : Nat) : Nat := r.lineAddr plane y + x * r.pitch plane
/-- Bytes the buffer takes (R218). -/
def Prn.size (r : Prn) : Nat := r.lines * r.slotBytes
/-- R171, R216: a logical coordinate as a padded one. -/
def Prn.padY (r : Prn) (y : Int) : Nat := (y + r.oy).toNat
/-- Padded column of a logical column. -/
def Prn.padX (r : Prn) (x : Int) : Nat := (x + r.ox).toNat

/-! ### Memory -/

/-- Bytes of a memory. What a byte that nothing has written reads as: zero (log entry 5). -/
def readB (m : SMap Byte) (a n : Nat) : List Byte := SMap.getMany 0 m a n
/-- Write bytes. -/
def writeB (m : SMap Byte) (a : Nat) (bs : List Byte) : SMap Byte := SMap.setMany 0 m a bs

/-- The canonical form of a memory: addresses strictly rising, and no listed byte equal to what an unlisted address
reads as. -/
def Memory.wf (m : List Host.Cell) : Bool := SMap.wf 0 m

/-- 128-bit words that a byte range covers in full (R207, R212). -/
def fullWords (a n : Nat) : List Nat :=
  (List.range (n / 16 + 1)).filterMap fun i =>
    let w := ceilDiv a 16 + i
    if 16 * w + 16 ≤ a + n then some w else none
/-- 128-bit words that a byte range touches. -/
def touchWords (a n : Nat) : List Nat :=
  if n = 0 then [] else (List.range ((a + n - 1) / 16 - a / 16 + 1)).map fun i => a / 16 + i
/-- Words written whole read correct again (R212, R250). -/
def cleanWords (bad : SMap Nat) (a n : Nat) : SMap Nat := (fullWords a n).foldl (fun m w => SMap.set 0 m w 0) bad
/-- A word of the range reads as uncorrectable or poisoned. -/
def anyBad (bad : SMap Nat) (a n : Nat) : Bool := (touchWords a n).any fun w => SMap.get 0 bad w != 0

/-- The base address of DRAM (R10). -/
def dramBase : Nat := 0x1000000000

/-- Read bytes under a PLACE (R216): `u` is the physical core (1), the band (2); DRAM offsets (3). -/
def State.readMem (s : State) (place u a n : Nat) : List Byte :=
  if place = 1 then readB (s.core u).spad a n
  else if place = 2 then readB (s.band u).mem a n
  else readB s.dram a n

/-- Write bytes under a PLACE. A word written whole loses its poison. DRAM accepts no write after a
fall of REMOVE_N (R551). -/
def State.writeMem (s : State) (place u a : Nat) (bs : List Byte) : State :=
  if place = 1 then s.onCore u fun c => { c with spad := writeB c.spad a bs, bad := cleanWords c.bad a bs.length }
  else if place = 2 then s.onBand u fun b => { b with mem := writeB b.mem a bs, bad := cleanWords b.bad a bs.length }
  else if s.getF F.DEV_HOTPLUG_WSTOP = 1 then s
  else { s with dram := writeB s.dram a bs, dramBad := cleanWords s.dramBad a bs.length }

/-- The range under a PLACE holds an uncorrectable or poisoned word. -/
def State.memBad (s : State) (place u a n : Nat) : Bool :=
  if place = 1 then anyBad (s.core u).bad a n
  else if place = 2 then anyBad (s.band u).bad a n
  else anyBad s.dramBad a n

/-- The unit that PLACE 1 and 2 of a core's pronoun name. -/
def placeUnit (place p : Nat) : Nat := if place = 2 then bandOf p else p

/-- Bytes of a write staging row laid over bytes read from address `a`. -/
def stageOver (t : StageRow) (a : Nat) (bs : List Byte) : List Byte :=
  bs.zipIdx.map fun b =>
    match t.bytes.find? fun e => 64 * t.row + e.1 == a + b.2 with
    | some e => e.2
    | none => b.1

/-- A foreground read of a core's scratchpad: the banks' bytes with those still in write staging rows merged in (R206). -/
def foreBytes (c : CoreSt) (a n : Nat) : List Byte :=
  c.wstage.foldl (fun bs t => stageOver t.2 a bs) (readB c.spad a n)

/-- A read as the core's own units make it, under a PLACE (R206, R216). -/
def State.readFore (s : State) (place u a n : Nat) : List Byte :=
  if place = 1 then foreBytes (s.core u) a n else s.readMem place u a n

/-- Elements `e0` to `e0 + n − 1` of padded position (y′, x′) as raw patterns, forms 2 to 5. -/
def State.readElems (s : State) (r : Prn) (p y x e0 n : Nat) : List Nat :=
  let w := formBits r.form / 8
  let bs := s.readFore r.place (placeUnit r.place p) (r.posAddr 0 y x + e0 * w) (n * w)
  (List.range n).map fun i => leAt bs (i * w) w

/-- Row g of padded position (y′, x′) of a quantised tensor (R114, R217), with whether the
decompressor met an error (R196). `n` elements. -/
def State.readRow (s : State) (r : Prn) (p y x g : Nat) : QRow × Bool :=
  let n := min 64 (r.ch - 64 * g)
  let u := placeUnit r.place p
  let big := r.form == 1
  let tag := leNat (s.readFore r.place u (r.posAddr 1 y x + 4 * g) 4)
  let sb := s.readFore r.place u (r.posAddr 2 y x + 16 * g) 16
  let side := (List.range 8).map fun i => leAt sb (2 * i) 2
  if r.zc then
    let row := x * r.nr + g
    let slot := r.lineAddr 0 y + row / 8 * r.zcSlot
    let lens := s.readFore r.place u slot 8
    let off := ((List.range (row % 8)).map fun i => 8 * byteAt lens i).foldl (· + ·) 0
    let len := byteAt lens (row % 8)
    let d := unzcRow big n len (s.readFore r.place u (slot + 8 + off) (8 * len))
    (⟨d.1, tag, side⟩, d.2)
  else
    let bs := s.readFore r.place u (r.posAddr 0 y x + g * 64 * formBits r.form / 8) (ceilDiv (n * formBits r.form) 8)
    (⟨unpackCodes big n bs, tag, side⟩, false)

/-- Write row g of padded position (y′, x′) of an uncompressed quantised tensor. -/
def State.writeRow (s : State) (r : Prn) (p y x g : Nat) (q : QRow) : State :=
  let u := placeUnit r.place p
  let s1 := s.writeMem r.place u (r.posAddr 0 y x + g * 64 * formBits r.form / 8) (packCodes (r.form == 1) q.codes)
  let s2 := s1.writeMem r.place u (r.posAddr 1 y x + 4 * g) (toLe 4 q.tag)
  s2.writeMem r.place u (r.posAddr 2 y x + 16 * g) (q.side.flatMap (toLe 2))

/-- Write tag and side of a row of a compressed tensor (R193: never compressed). -/
def State.writeTagSide (s : State) (r : Prn) (p y x g : Nat) (q : QRow) : State :=
  let u := placeUnit r.place p
  let s2 := s.writeMem r.place u (r.posAddr 1 y x + 4 * g) (toLe 4 q.tag)
  s2.writeMem r.place u (r.posAddr 2 y x + 16 * g) (q.side.flatMap (toLe 2))

/-- Write elements of a form 2 to 5 tensor at padded position (y′, x′), from element `e0`. -/
def State.writeElems (s : State) (r : Prn) (p y x e0 : Nat) (vs : List Nat) : State :=
  let w := formBits r.form / 8
  s.writeMem r.place (placeUnit r.place p) (r.posAddr 0 y x + e0 * w) (vs.flatMap (toLe w))

/-- Set LH and LW of a pronoun of a core (R219): words 1's fields; clipped to PH − OY and PW − OX. -/
def State.setExtent (s : State) (p n lh lw : Nat) : State :=
  let r := s.prn p n
  let lh' := min lh (r.ph - r.oy)
  let lw' := min lw (r.pw - r.ox)
  let s1 := s.setF (F.CORE_PRN_DATA p (8 * n + 1)) (lh' + 65536 * lw')
  if lh' = lh ∧ lw' = lw then s1 else s1.incF (F.CORE_SPAD_MAP_CLIPPED p) 1

/-- Bases of an engine's register group (R253). -/
def coreEng (p e : Nat) : Nat := 0x1000200 + p * 0x20000 + 0x20 * e
/-- Bases of a band engine's register group (R253). -/
def bandEng (b e : Nat) : Nat := 0x100100 + b * 0x10000 + 0x20 * e

/-- Count arithmetic events in a core's registers (R134). -/
def State.countArith (s : State) (p : Nat) (c : Cnt) : State :=
  (((s.incFs [(F.CORE_ARITH_SAT_CELL_SAT p, c.cell), (F.CORE_ARITH_SAT_PROD_SAT p, c.prod),
    (F.CORE_ARITH_WIDE_SUM_SAT p, c.sum), (F.CORE_ARITH_WIDE_STAGE_SAT p, c.stage),
    (F.CORE_ARITH_QNT_SCALE_SAT p, c.scale), (F.CORE_ARITH_QNT_BAD_ESC p, c.badEsc),
    (F.CORE_ARITH_QNT_RSV_SCALE p, c.rsv)]).wrapF (F.CORE_ARITH_ROWS_CONST_ROWS p) c.const)).wrapF
    (F.CORE_ARITH_ROWS_ESC_ROWS p) c.esc

end Sys2Proof.Machine
end

