-- ==== Sys2Proof/Machine/Store.lean ====
section
/-! DEFINITION. What a core's store unit writes (chapters 06 and 07): the gather buffer's write staging rows (R205 to R207),
compressed blocks (R193, R194), and the outputs that arrive from the pipeline (R144, R220). -/
namespace Sys2Proof.Machine

/-! ### Merges (R207) -/

/-- Words of a byte range that it covers in part. -/
def partWords (a n : Nat) : List Nat := (touchWords a n).filter fun w => !(fullWords a n).contains w

/-- Bank and bank row of a scratchpad word (address / 16), and whether it was uncorrectable, as CORE_SPAD_LAST shows them
(R199, R228). -/
def State.spadLast (s : State) (p w unc : Nat) : State :=
  s.setFs [(F.CORE_SPAD_LAST_BANK p, w / 4 % 32), (F.CORE_SPAD_LAST_ROW p, w / 4 / 32), (F.CORE_SPAD_LAST_UNC p, unc)]

/-- Scratchpad words that a masked write merges into (R207): a correctable error is counted, an uncorrectable one poisons
the merged word and is counted. -/
def State.spadMerge (s : State) (p : Nat) (words ce ue : List Nat) : State :=
  words.foldl (fun s w =>
    if ue.contains w ∨ SMap.get 0 (s.core p).bad w ≠ 0 then
      ((s.incF (F.CORE_SPAD_ECC_UNCORR p) 1).spadLast p w 1).onCore p fun c => { c with bad := SMap.set 0 c.bad w 1 }
    else if ce.contains w then (s.incF (F.CORE_SPAD_ECC_CORRECTED p) 1).spadLast p w 0
    else s) s

/-- The same for a band's line store (R221). -/
def State.lsMerge (s : State) (b : Nat) (words ce ue : List Nat) : State :=
  words.foldl (fun s w =>
    if ue.contains w ∨ SMap.get 0 (s.band b).bad w ≠ 0 then
      (s.incF (F.BAND_LS_ECC_UNCORR b) 1).onBand b fun c => { c with bad := SMap.set 0 c.bad w 1 }
    else if ce.contains w then s.incF (F.BAND_LS_ECC_CORRECTED b) 1
    else s) s

/-- What a masked write under a PLACE meets in the words that it covers in part (R207, R221); DRAM's beats are the
channel's own (R416). -/
def State.mergeEcc (s : State) (place u a n : Nat) (ce ue : List Nat) : State :=
  if place = 1 then s.spadMerge u (partWords a n) ce ue
  else if place = 2 then s.lsMerge u (partWords a n) ce ue
  else s

/-! ### The line store's banks (R222) -/

/-- The rotation of a band's line-store banks in cycle `now` (R222): the first requester served in an earlier cycle comes
last. -/
def lsRot (c : BandSt) (now : Nat) : Nat := if c.served.1 ≠ 0 ∧ c.served.1 ≤ now then (c.served.2 + 1) % 10 else c.rot

/-- Line-store banks of some ranges (R221). -/
def lsBanks (rs : List (Nat × Nat)) : List Nat :=
  (rs.flatMap fun r => (touchWords r.1 r.2).map fun w => w / 4 % 96).dedup

/-- A bank of some ranges has served an access in cycle `now` already (R222). -/
def lsBusy (c : BandSt) (now : Nat) (rs : List (Nat × Nat)) : Bool := (lsBanks rs).any fun k => SMap.get 0 c.used k == now + 1

/-- The banks of some ranges serve an access in cycle `now`: requester `q` is one of the nine cores or the fabric port (9), or
comes before them (10, 11). -/
def lsServe (c : BandSt) (now q : Nat) (rs : List (Nat × Nat)) : BandSt :=
  let c1 := { c with used := (lsBanks rs).foldl (fun m k => SMap.set 0 m k (now + 1)) c.used }
  if 10 ≤ q ∨ c.served.1 = now + 1 then c1 else { c1 with rot := lsRot c now, served := (now + 1, q) }

/-! ### The gather buffer (R205, R206) -/

/-- A write staging row goes to its bank (R205, R207): words written whole lose their poison. -/
def State.flushStage (s : State) (p u : Nat) : State :=
  match (s.core p).wstage.find? fun t => t.1 == u with
  | none => s
  | some (_, t) =>
    let full (k : Nat) : Bool := (List.range 16).all fun i => t.bytes.any fun b => b.1 == 16 * k + i
    let part := ((List.range 4).filter fun k => !full k && t.bytes.any fun b => b.1 / 16 == k).map (4 * t.row + ·)
    (s.spadMerge p part t.ce t.ue).onCore p fun c => { c with
      spad := t.bytes.foldl (fun m b => SMap.set 0 m (64 * t.row + b.1) b.2) c.spad
      bad := ((List.range 4).filter full).foldl (fun m k => SMap.set 0 m (4 * t.row + k) 0) c.bad
      wstage := c.wstage.filter fun t => t.1 != u }

/-- One byte enters the write staging row of accessor `u`, and every read staging row that holds it (R205, R206). -/
def State.stageByte (s : State) (p u a : Nat) (b : Byte) (ce ue : List Nat) : State :=
  let row := a / 64
  let other : Bool := (s.core p).wstage.any fun t => t.1 == u && t.2.row != row
  let s1 := if other then s.flushStage p u else s
  let old := ((((s1.core p).wstage.find? fun t => t.1 == u).map (·.2)).getD ⟨row, [], [], []⟩)
  let new : StageRow := ⟨row, (a % 64, b) :: old.bytes.filter fun e => e.1 != a % 64, old.ce ++ ce, old.ue ++ ue⟩
  let s2 := s1.onCore p fun c => { c with
    wstage := (u, new) :: c.wstage.filter fun t => t.1 != u
    rstage := c.rstage.map fun h => if h.2.row = row then (h.1, { h.2 with bytes := h.2.bytes.set (a % 64) b }) else h }
  if 64 ≤ new.bytes.length then s2.flushStage p u else s2

/-- Narrow writes of consecutive bytes (R205). -/
def State.stageBytes (s : State) (p u a : Nat) (bs : List Byte) (ce ue : List Nat) : State :=
  bs.zipIdx.foldl (fun s b => s.stageByte p u (a + b.2) b.1 ce ue) s

/-- Accessor `u` of core `p` writes bytes under PLACE 1 or 2: a scratchpad takes them through the gather buffer, the line
store at once. -/
def State.writeNear (s : State) (place p u a : Nat) (bs : List Byte) (ce ue : List Nat) : State :=
  if place = 2 then
    (s.lsMerge (bandOf p) (partWords a bs.length) ce ue).onBand (bandOf p) fun b => { b with
      mem := writeB b.mem a bs, bad := cleanWords b.bad a bs.length }
  else s.stageBytes p u a bs ce ue

/-! ### Tensors as the store unit writes them (R193, R194, R220) -/

/-- Write row g of padded position (y′, x′) of an uncompressed quantised tensor through the gather buffer. -/
def State.putRow (s : State) (r : Prn) (p u y x : Nat) (g : Nat) (codes : List Nat) (tag : Nat) (side : List Nat)
    (ce ue : List Nat) : State :=
  let s1 := s.writeNear r.place p u (r.posAddr 0 y x + g * 64 * formBits r.form / 8) (packCodes (r.form == 1) codes) ce ue
  let s2 := s1.writeNear r.place p u (r.posAddr 1 y x + 4 * g) (toLe 4 tag) ce ue
  s2.writeNear r.place p u (r.posAddr 2 y x + 16 * g) (side.flatMap (toLe 2)) ce ue

/-- The rows of a block of eight that have been produced, by row number in the line (R194). -/
def blockRows (c : CoreSt) (n y blk : Nat) : List (Option (List Nat)) :=
  (List.range 8).map fun i => (c.zcRows.find? fun e => e.1 == (n, y, 8 * blk + i)).map (·.2)

/-- A block of a compressed line as it stands in memory: 8 LEN bytes, then the rows (R194). A row that the store unit has not
produced, a pad row of the block, keeps the LEN and the bytes that stand there (R186, R220). -/
def zcBlock (big : Bool) (rows : List (Option (List Nat))) (lens data : List Byte) : List Byte :=
  let off (i : Nat) : Nat := ((List.range i).map fun j => 8 * byteAt lens j).foldl (· + ·) 0
  let parts := rows.zipIdx.map fun r =>
    match r.1 with
    | some c => (zcLen big c, zcRow big c)
    | none => (byteAt lens r.2, (data.drop (off r.2)).take (8 * byteAt lens r.2))
  parts.map (fun q => BitVec.ofNat 8 q.1) ++ parts.flatMap (·.2)

/-- Bytes of the rows produced: uncompressed, and compressed with the block's LEN field (R198). -/
def zcSizes (form : Nat) (rows : List (Option (List Nat))) : Nat × Nat :=
  (rows.map fun x => match x with
    | some c => (ceilDiv (c.length * formBits form) 8, (zcRow (form == 1) c).length)
    | none => (0, 0)).foldl (fun a b => (a.1 + b.1, a.2 + b.2)) (0, 8)

/-- The bytes of block `blk` of padded line y′ of a compressed tensor, with the rows that core `p` has produced (R194). -/
def State.blockBytes (s : State) (p n : Nat) (r : Prn) (y blk : Nat) : List Byte :=
  let u := placeUnit r.place p
  let slot := r.lineAddr 0 y + blk * r.zcSlot
  zcBlock (r.form == 1) (blockRows (s.core p) n y blk) (s.readMem r.place u slot 8) (s.readMem r.place u (slot + 8) (r.zcSlot - 8))

/-- The block is written and its rows leave the store unit (R194, R198). -/
def blockDone (c : CoreSt) (n form y blk : Nat) : CoreSt :=
  let z := zcSizes form (blockRows c n y blk)
  { c with
    zcRows := c.zcRows.filter fun e => !(e.1.1 == n && e.1.2.1 == y && e.1.2.2 / 8 == blk)
    zcRaw := c.zcRaw + z.1, zcPack := c.zcPack + z.2 }

/-- A row of a compressed tensor waits for its block (R194). -/
def keepZc (c : CoreSt) (n y row : Nat) (codes : List Nat) : CoreSt :=
  { c with zcRows := ((n, y, row), codes) :: c.zcRows.filter fun e => e.1 != (n, y, row) }

/-- A row completes its block: the block's eighth row, or the last row of a logical line of `lw` positions. -/
def blockEnds (r : Prn) (lw x g : Nat) : Bool :=
  (r.padX x * r.nr + g) % 8 == 7 || (x + 1 == lw && g + 1 == r.nr)

/-- The store unit writes one output of a tensor in the scratchpad or the line store: only inside the logical extent (R186,
R220). At the end of a run the staging row is written out (R205). -/
def State.storeNear (s : State) (p : Nat) (o : PipeOut) : State :=
  let n := o.prn
  let u := o.unit
  let r := s.prn p n
  let yp := r.padY o.y
  let xp := r.padX o.x
  let ce := o.ce
  let ue := o.ue
  if o.lh ≤ o.y ∨ o.lw ≤ o.x then s
  else
    match o.data with
    | .runEnd => s.flushStage p u
    | .elems e0 vs =>
      let w := formBits r.form / 8
      s.writeNear r.place p u (r.posAddr 0 yp xp + e0 * w) (vs.flatMap (toLe w)) ce ue
    | .row g codes tag side =>
      if r.zc then
        let s1 := (s.writeNear r.place p u (r.posAddr 1 yp xp + 4 * g) (toLe 4 tag) ce ue).writeNear r.place p u
          (r.posAddr 2 yp xp + 16 * g) (side.flatMap (toLe 2)) ce ue
        let s2 := s1.onCore p fun c => keepZc c n yp (xp * r.nr + g) codes
        if blockEnds r o.lw o.x g then
          let blk := (xp * r.nr + g) / 8
          (s2.writeNear r.place p u (r.lineAddr 0 yp + blk * r.zcSlot) (s2.blockBytes p n r yp blk) ce ue).onCore p fun c =>
            blockDone c n r.form yp blk
        else s2
      else s.putRow r p u yp xp g codes tag side ce ue

/-- The same for a tensor in DRAM, whose bytes do not pass the gather buffer; at the end of a run the accessor's staging row, which
may hold pooling partials, is written out (R205). -/
def State.storeFar (s : State) (p : Nat) (o : PipeOut) : State :=
  let n := o.prn
  let r := s.prn p n
  let yp := r.padY o.y
  let xp := r.padX o.x
  if o.lh ≤ o.y ∨ o.lw ≤ o.x then s
  else
    match o.data with
    | .runEnd => s.flushStage p o.unit
    | .elems e0 vs => s.writeElems r p yp xp e0 vs
    | .row g codes tag side =>
      if r.zc then
        let s1 := (s.writeTagSide r p yp xp g ⟨codes, tag, side⟩).onCore p fun c => keepZc c n yp (xp * r.nr + g) codes
        if blockEnds r o.lw o.x g then
          let blk := (xp * r.nr + g) / 8
          (s1.writeMem 3 0 (r.lineAddr 0 yp + blk * r.zcSlot) (s1.blockBytes p n r yp blk)).onCore p fun c =>
            blockDone c n r.form yp blk
        else s1
      else s.writeRow r p yp xp g ⟨codes, tag, side⟩

/-! ### Outputs leave the pipeline (R144) -/

/-- Where an output's data lie in its tensor: the first byte. -/
def outAddr (r : Prn) (o : PipeOut) : Nat :=
  match o.data with
  | .row g _ _ _ => r.posAddr 0 (r.padY o.y) (r.padX o.x) + g * 64 * formBits r.form / 8
  | .elems e0 _ => r.posAddr 0 (r.padY o.y) (r.padX o.x) + e0 * (formBits r.form / 8)
  | .runEnd => r.lineAddr 0 (r.padY o.y)

/-- An output of core `p` arrives. In the line store it asks for its bank (R222): where the bank has served an access of that
cycle, it waits for the next. -/
def State.landOut (s : State) (p : Nat) (o : PipeOut) : State :=
  let r := s.prn p o.prn
  if r.place ≠ 2 then s.storeNear p o
  else
    let b := bandOf p
    let rs := [(outAddr r o, 64)]
    let t := if lsBusy (s.band b) o.due rs then o.due + 1 else o.due
    if s.now < t then s.onCore p fun c => { c with pipe := c.pipe ++ [{ o with due := t }] }
    else (s.storeNear p o).onBand b fun c => lsServe c t (slotOf p) rs

/-- The outputs of a core that have arrived by now. -/
def State.landCore (s : State) (p : Nat) : State :=
  let outs := (s.core p).pipe.filter fun o => decide (o.due ≤ s.now)
  if outs = [] then s
  else outs.foldl (fun s o => s.landOut p o) (s.onCore p fun c => { c with pipe := c.pipe.filter fun o => decide (s.now < o.due) })

/-- An output of core `p` sets out (R143, R144): it arrives at cycle `due`, or in DRAM at once. -/
def State.emitOut (s : State) (p : Nat) (o : PipeOut) : State :=
  if (s.prn p o.prn).place = 3 then s.storeFar p o
  else s.onCore p fun c => { c with pipe := c.pipe ++ [o] }

end Sys2Proof.Machine
end

