-- ==== Sys2Proof/Machine/Ops.lean ====
section
/-! DEFINITION. The named operations over time and the almanac that every meaning uses; those over registers, cores, bands,
pronouns and memory stand in Regs.lean, the store unit in Store.lean. -/
namespace Sys2Proof.Machine

/-! ### Time -/

/-- LP in 16.16 fabric cycles (R45). -/
def State.lp (s : State) : Nat := s.getF F.CAL_LP_LP
/-- V_ACTIVE (R45). -/
def State.vActive (s : State) : Nat := s.getF F.CAL_VACTIVE_V_ACTIVE
/-- The phase now (R43), 0 while the calendar has no LP. -/
def State.phase (s : State) : Nat := if s.lp = 0 then 0 else min 4095 (s.cal.acc * 4096 / s.lp)

/-! ### What operations occupy (R143, R160, R164) -/

/-- A fabric cycle in the unit of `Occupied.free`. -/
def ticks : Nat := 1092
/-- `n` core cycles at a clock in 0.1 GHz, in that unit. -/
def coreTicks (clock n : Nat) : Nat := n * (15 * ticks / clock)

/-- When a unit is free, and the thread that occupied it last. -/
def occupiedUnit (c : CoreSt) (u : CoreUnit) : Nat × Nat :=
  ((c.units.find? fun x => x.unit == u).map fun x => (x.free, x.thread)).getD (0, 0)

/-- The fabric cycle from which a unit is free. -/
def freeFrom (c : CoreSt) (u : CoreUnit) : Nat := ceilDiv (occupiedUnit c u).1 ticks

/-- A unit is free until `till`, or for longer where it is occupied for longer. -/
def setFree (c : CoreSt) (u : CoreUnit) (till thread : Nat) : CoreSt :=
  { c with units := ⟨u, till, thread⟩ :: c.units.filter fun x => x.unit != u }

/-- The instant from which an operation that starts in cycle `now` occupies a unit: the unit's own core cycle. -/
def startAt (c : CoreSt) (u : CoreUnit) (now : Nat) : Nat :=
  let f := (occupiedUnit c u).1
  if ticks * now < f + ticks ∧ f ≤ ticks * now then f else ticks * now

/-- Thread `t` occupies a unit of core `p` for `n` core cycles from now, or from the end of a correction stall (R164, R208). -/
def State.occupy (s : State) (p t : Nat) (u : CoreUnit) (n : Nat) : State :=
  s.onCore p fun c => setFree c u (startAt c u (max s.now c.stallEnd) + coreTicks (s.clock p) n) t

/-- Thread `t` of core `p` has an operation in the pipeline for `n` core cycles from now (R144, R246). -/
def State.inPipe (s : State) (p t n : Nat) : State :=
  s.onCore p fun c => setFree c (.latency t) (max (occupiedUnit c (.latency t)).1
    (ticks * max s.now c.stallEnd + coreTicks (s.clock p) n)) t

/-- A number of core cycles as phase units with 12 fractional bits (R210): each cycle is converted, rounded under R111. -/
def chargeOf (lp clock cycles : Nat) : Nat :=
  if lp * clock = 0 then 0
  else cycles * (roundDiv (Int.ofNat (15 * 4096 * 4096 * 65536)) (lp * clock)).natAbs

/-- The stall counter and LAST_CAUSE of a wait (R247, R278); none where the thread does not wait. -/
def State.waitCause (s : State) (p : Nat) (w : Wait) : Option (Fld × Nat) :=
  let engBase := fun e => 0x1000200 + p * 0x20000 + 0x20 * e
  match w with
  | .none => Option.none
  | .sem i => if s.getF (F.CORE_SEM_KIND p i) = 0 then some (F.CORE_STALL_FULL_STALL_FULL p, 2)
      else some (F.CORE_STALL_EMPTY_STALL_EMPTY p, 5)
  | .tile e =>
    let g := (s.core p).eng.getD e {}
    if s.getF (F.ENG_STATE_STATE (engBase e)) = 2 then some (F.CORE_STALL_HALT_STALL_HALT p, 3)
    else if g.waitIn then some (F.CORE_STALL_IN_STALL_IN p, 1)
    else if (g.waitSem.map fun i => s.getF (F.CORE_SEM_KIND p i) == 0) = some true then some (F.CORE_STALL_FULL_STALL_FULL p, 2)
    else some (F.CORE_STALL_DATA_STALL_DATA p, 1)
  | .slot _ => some (F.CORE_STALL_SLOT_STALL_SLOT p, 5)
  | .suffix _ => some (F.CORE_STALL_SUFFIX_STALL_SUFFIX p, 5)
  | .barrier _ => some (F.CORE_BARRIER_BARRIER_WAIT p, 0)

/-- Charge core cycles, with a LAST_CAUSE, to every line in flight (R210). -/
def chargeLines (c : CoreSt) (units cause : Nat) : CoreSt :=
  { c with lines := c.lines.map fun l => if l.complete then l else
      { l with charge := l.charge + units, causes := if cause = 0 then l.causes else cause :: l.causes } }

/-- One thread waits from fabric cycle `t0` to `t1` (R247): its counter in its core's cycles, a slot wait in fabric cycles
(R230), and for thread 0 the charge, but for the cycles that a correction stall has charged already (R208, R210). -/
def State.stallThread (s : State) (p t t0 t1 : Nat) : State :=
  let th := (s.core p).threads.getD t {}
  let hi := match th.wait with
    | .slot a =>
      let k := SMap.get ({} : Slot) (s.band (bandOf p)).slots a
      if k.present then t1 else max t0 (min t1 k.freed)
    | _ => t1
  let n := coreCycles (s.clock p) t0 hi
  match s.waitCause p th.wait with
  | none => s
  | some (f, cause) =>
    if bits (s.getF (F.CORE_THREAD_STATE p)) (2 * t) 2 = 3 then s
    else
      let s1 := s.incF f n
      let s2 := match th.wait with
        | .slot _ => s1.onBand (bandOf p) fun b => { b with lsWait := b.lsWait + (hi - t0) }
        | _ => s1
      if t = 0 then s2.onCore p fun c =>
        chargeLines c (chargeOf s.lp (s.clock p) (coreCycles (s.clock p) (min hi (max t0 c.stallEnd)) hi)) cause
      else s2

/-- Every waiting thread of a core waits on from cycle `t0` to `t1`. -/
def State.stallCore (s : State) (t0 t1 p : Nat) : State :=
  if ((s.core p).threads.all fun t => t.wait == .none) then s
  else s.each 4 fun s t => s.stallThread p t t0 t1

/-- Time passes: `dt` fabric cycles (R43, R5, R247), and outputs leave the cores' pipelines (R144). -/
def State.advance (s : State) (dt : Nat) : State :=
  let s1 := (s.cores.map (·.1)).foldl (fun a p => a.stallCore s.now (s.now + dt) p) s
  let s2 : State := { s1 with now := s.now + dt,
                              cal := if s.cal.running then { s1.cal with acc := s.cal.acc + 65536 * dt } else s1.cal }
  (s.cores.map (·.1)).foldl State.landCore s2

/-- Wait until cycle `t`; an event that is overdue happens now (log entry 4). -/
def State.waitUntil (s : State) (t : Nat) : State := if s.now < t then s.advance (t - s.now) else s

/-- The cycle in which the accumulator reaches `a` (16.16) on the current line. -/
def State.cycleOfAcc (s : State) (a : Nat) : Nat :=
  if a ≤ s.cal.acc then s.now else s.now + ceilDiv (a - s.cal.acc) 65536

/-- The cycle in which the phase reaches `ph` on the current line (R49). -/
def State.cycleOfPhase (s : State) (ph : Nat) : Nat := s.cycleOfAcc (ceilDiv (ph * s.lp) 4096)

/-- The cycle in which line `k` of a frame begins, from the frame's boundary (R43, R51). -/
def lineCycle (t0 acc0 lp k : Nat) : Nat := if k = 0 then t0 else t0 + ceilDiv (k * lp - acc0) 65536

/-- One millisecond, one microsecond, in fabric cycles (R5). -/
def usCycles (us : Nat) : Nat := 1500 * us
/-- Milliseconds in fabric cycles (R5). -/
def msCycles (ms : Nat) : Nat := 1500000 * ms

/-- Timing-dependent counts of an output frame (R439). -/
def State.tdAdd (s : State) (f : Nat) (g : TdCnt → TdCnt) : State :=
  { s with tds := SMap.set {} s.tds f (g (SMap.get {} s.tds f)) }

/-- a − b as an int32: frame numbers wrap (R42). -/
def frameDiff (a b : Nat) : Int := sext 32 (a + 2 ^ 32 - b)

/-! ### Histogram units (R135, R137) -/

/-- Counts of unit u that were observed in cycle `now`. -/
def histFresh (c : CoreSt) (now u : Nat) : SMap Nat := if c.histNow.1 = now + 1 then SMap.slice c.histNow.2 (64 * u) 64 else []

/-- One element counts in bin b of the live counts (R135). -/
def histCount (c : CoreSt) (now b : Nat) : CoreSt :=
  let m := if c.histNow.1 = now + 1 then c.histNow.2 else []
  { c with histLive := SMap.set 0 c.histLive b (satAdd 32 (SMap.get 0 c.histLive b) 1)
           histNow := (now + 1, SMap.set 0 m b (satAdd 32 (SMap.get 0 m b) 1)) }

/-! ### The almanac -/

/-- V_TOTAL for R49: decided, or VT_MAX's reach while it is not (entries counted from line 0). -/
def State.vTotal (s : State) : Nat := s.cal.vTot.getD (s.getF F.CAL_VLIMITS_VT_MAX)

/-- The accumulator in the first cycle of the current line whose phase is at or above a phase (R43, R49). -/
def State.accAt (s : State) (phase : Nat) : Nat :=
  let a := ceilDiv (phase * s.lp) 4096
  let r := s.cal.acc % 65536
  if a ≤ r then r else r + 65536 * ceilDiv (a - r) 65536

/-- Entry `i` of the running almanac fires on this line (R49, R50, R294): it names the line, has not fired on it, some cycle of the
line reaches its phase, and, counted back from the boundary, V_TOTAL is decided. -/
def State.onLine (s : State) (i : Nat) (e : AlmEntry) : Bool :=
  s.cal.running && !(s.cal.fired.contains i) && e.names s.vTotal s.cal.line &&
  (s.lp == 0 || decide (s.accAt e.phase < s.lp)) && (e.base == 0 || (s.cal.vTot.isSome && !s.noBase1))

/-- The entry at an index. -/
def State.entry (s : State) (i : Nat) : AlmEntry := s.almanac.getD i default

/-- The output line an entry acts for (R47): the output frame number and the line in that frame. Before line V_ACTIVE, while V_TOTAL is
undecided (R50), a line is counted in the current frame below VT_MAX, and from VT_MAX on in the next (log entry 82). -/
def State.actsFor (s : State) (i : Nat) : Nat × Nat :=
  let y := (s.cal.line : Int) + (s.entry i).lead
  if y < 0 then ((s.cal.frame + 2 ^ 32 - 1) % 2 ^ 32, (y + s.getF F.CAL_VTOTAL_VT_PREV).toNat)
  else if (s.vTotal : Int) ≤ y then ((s.cal.frame + 1) % 2 ^ 32, (y - s.vTotal).toNat)
  else (s.cal.frame, y.toNat)

/-- Entry `n` of a core's list table or a band's. -/
def State.listEntry (s : State) (g : EngId) (n : Nat) : List Byte :=
  wordsToBytes ((List.range 2).map fun k => match g with
    | .core p _ => s.getF (F.CORE_LIST_DATA p (2 * n + k))
    | .band b _ => s.getF (F.BAND_LIST_DATA b (2 * n + k)))

/-- The engine that an entry of kind 0 starts in band `b`, on the core of logical number `k` there or on the band (R233). -/
def State.almEngine (s : State) (e : AlmEntry) (b k : Nat) : Nat :=
  if bit e.arg 8 then bits (leAt (s.listEntry (.band b 0) (bits e.arg 0 6)) 1 1) 0 3 % 2
  else bits (leAt (s.listEntry (.core (s.phys (8 * b + k)) 0) (bits e.arg 0 6)) 1 1) 0 3

/-- Two entries act on a common unit (R49): an engine, a core's frame-clause window, the composer; else those of one kind do. -/
def State.shareUnit (s : State) (a e : AlmEntry) : Bool :=
  let cores (f : Nat → Nat → Bool) : Bool :=
    (List.range 8).any fun b => bit a.bands b && bit e.bands b && (List.range 8).any fun k => bit a.cores k && bit e.cores k && f b k
  if a.kind = 0 ∧ e.kind = 0 then
    if bit a.arg 8 ∧ bit e.arg 8 then
      (List.range 8).any fun b => bit a.bands b && bit e.bands b && s.almEngine a b 0 == s.almEngine e b 0
    else !bit a.arg 8 && !bit e.arg 8 && cores fun b k => s.almEngine a b k == s.almEngine e b k
  else if (a.kind = 3 ∨ a.kind = 4) ∧ (e.kind = 3 ∨ e.kind = 4) then cores fun _ _ => true
  else if (a.kind = 5 ∨ a.kind = 6) ∧ (e.kind = 5 ∨ e.kind = 6) then true
  else a.kind == e.kind

/-- The inputs of the composer are present for an entry (R49): the line that it composes or captures. -/
def State.composerReady (s : State) (i : Nat) : Bool :=
  let e := s.entry i
  let a := s.actsFor i
  if e.kind = 5 ∧ e.arg = 1 then s.sel.any fun l => l.frame == a.1 && l.y == a.2
  else if e.kind = 6 ∧ e.arg = 0 then s.cmp.lines.any fun l => l.frame == a.1 && l.y == a.2
  else if e.kind = 6 ∧ e.arg = 1 then s.sel.any fun l => l.frame == a.1 && l.y == a.2 && l.grain.isSome
  else true

/-- Entry `i` is due on this line. Of entries of one unit that fire in the same cycle, the inputs of the unit being present, the first in
the almanac acts first (R49). -/
def State.due (s : State) (i kind : Nat) : Bool :=
  match s.almanac[i]? with
  | none => false
  | some e =>
    e.kind == kind && s.onLine i e &&
    !((s.almanac.take i).zipIdx.any fun x => s.shareUnit x.1 e && s.onLine x.2 x.1 && s.composerReady x.2 &&
      s.accAt x.1.phase == s.accAt e.phase)

/-- Entry `i` fires: wait for its phase and remember it for this line (R49). -/
def State.fire (s : State) (i : Nat) : State :=
  let s1 := s.waitUntil (s.cycleOfPhase (s.entry i).phase)
  { s1 with cal := { s1.cal with fired := i :: s1.cal.fired } }

end Sys2Proof.Machine
end

