-- ==== Sys2Proof/Machine/Log.lean ====
section
/-! DEFINITION. Appending to the record log (R450 to R453): entries are buffered ahead of the log, at most
1 MiB; an entry that finds the buffer full is lost. -/
namespace Sys2Proof.Machine

/-- Bytes an entry takes in the log: header, payload, padding (R450). -/
def logBytes (payload : Nat) : Nat := 16 + roundUp 16 payload

/-- The buffer has room for an entry with `n` payload bytes (R452). -/
def State.logRoom (s : State) (n : Nat) : Bool := decide (s.aud.bufBytes + logBytes n ≤ 0x100000)

/-- Append an entry to the buffer, or lose it (R452): one that finds the buffer full, or that comes while the LOST entry of
earlier losses still waits for room. -/
def State.logPut (s : State) (e : LogEnt) : State :=
  if s.aud.lostRun = 0 ∧ s.logRoom e.payload.length then
    { s with aud := { s.aud with buf := s.aud.buf ++ [e], bufBytes := s.aud.bufBytes + logBytes e.payload.length } }
  else { s with aud := { s.aud with lostRun := s.aud.lostRun + 1 } }

/-- One LOST entry counting a run of losses is appended as soon as it fits (R452). -/
def State.putLost (s : State) : State :=
  if s.aud.lostRun = 0 ∨ !s.logRoom 8 then s
  else
    let n := s.aud.lostRun
    (({ s with aud := { s.aud with lostRun := 0 } } : State).logPut ⟨7, false, s.now, toLe 4 n ++ toLe 4 0⟩).incF F.AUD_LOG_CNT_LOST n

/-- A class is recorded: recording is on and AUD_REC_CTRL, as taken at the last boundary, enables it (R451, R458). -/
def State.recordsClass (s : State) (cls : Fld) : Bool := s.aud.recording && bit s.aud.ctrl cls.lo

/-- Record an entry of a class (R451). -/
def State.record (s : State) (cls : Fld) (e : LogEnt) : State := if s.recordsClass cls then s.logPut e else s

end Sys2Proof.Machine
end

