-- ==== Sys2Proof/Machine/LineStore.lean ====
section
/-! DEFINITION. The band line store: presence, references and release (R221 to R227), the writes of
stage 10 (R101, R224), and map-out queues shared with the scratchpad (R212 to R214, R222). -/
namespace Sys2Proof.Machine

/-- The state of the slot at a byte address of a band's line store (R223). -/
def State.slot (s : State) (b a : Nat) : Slot := SMap.get {} (s.band b).slots a
/-- Write a slot's state. -/
def State.setSlot (s : State) (b a : Nat) (v : Slot) : State :=
  s.onBand b fun x => { x with slots := SMap.set {} x.slots a v }

/-- Padded line y′ of a ring is present for a consumer (R223); a read in the cycle in which the slot becomes empty is still
served (R226). -/
def State.lsPresent (s : State) (b : Nat) (r : Prn) (y : Nat) : Bool :=
  let k := s.slot b (r.slotAddr y)
  k.line == y && (k.present || k.freed == s.now + 1)

/-- The slot of padded line y′ is empty (R224). -/
def State.lsEmpty (s : State) (b : Nat) (r : Prn) (y : Nat) : Bool := !(s.slot b (r.slotAddr y)).present

/-- A producer that waits for its slot may write it now (R224, R226): from the cycle after it became empty. -/
def State.slotReady (s : State) (b a : Nat) : Bool := !(s.slot b a).present && decide ((s.slot b a).freed ≤ s.now)
/-- The same for padded line y′ of a ring. -/
def State.lsReady (s : State) (b : Nat) (r : Prn) (y : Nat) : Bool := s.slotReady b (r.slotAddr y)

/-- A slot becomes empty when COUNT and FBH are 0 (R225). -/
def State.slotCheck (s : State) (b a : Nat) : State :=
  let k := s.slot b a
  if k.present ∧ k.count = 0 ∧ !k.fbh then s.setSlot b a { line := k.line, freed := s.now + 1 } else s

/-- The whole line is written: PRESENT, LINE, COUNT and FBH in one cycle (R224). -/
def State.lsMark (s : State) (b : Nat) (r : Prn) (y : Nat) : State :=
  (s.setSlot b (r.slotAddr y) ⟨true, y, r.cons, r.fb, s.now, 0⟩).slotCheck b (r.slotAddr y)

/-- A consumer releases padded line y′ (R225, R226). -/
def State.lsRelease (s : State) (b : Nat) (r : Prn) (y : Nat) : State :=
  let a := r.slotAddr y
  let k := s.slot b a
  if k.present ∧ k.line = y ∧ 0 < k.count then (s.setSlot b a { k with count := k.count - 1 }).slotCheck b a
  else s.incF (F.BAND_LS_REF_REF_ERR b) 1

/-- The fallback scaler has made its last read of padded line y′ (R225). -/
def State.lsFbDone (s : State) (b : Nat) (r : Prn) (y : Nat) : State :=
  let a := r.slotAddr y
  let k := s.slot b a
  if k.present ∧ k.line = y then (s.setSlot b a { k with fbh := false }).slotCheck b a else s

/-- Every slot of a band becomes empty (R227). -/
def State.lsClear (s : State) (b : Nat) : State := s.onBand b fun x => { x with slots := [] }

/-- The band is stopped for a consistent snapshot (R280). -/
def State.bandStopped (s : State) (b : Nat) : Bool := s.fab.snap.stopped && bit s.fab.snap.bands b

/-- Fabric cycles, from those counted last, in which a band's warp unit could have begun its next row and found the slot not empty
(R317, R329). While a snapshot stops the band the unit waits for it and not for a slot. -/
def State.warpWaited (s : State) (b : Nat) : Nat :=
  let w := s.warp.getD b {}
  if (w.ctx.isNone ∧ w.queued = []) ∨ s.bandStopped b then 0
  else
    let r := s.bprn b s.sched.rt.warpPrn
    let k := s.slot b (r.slotAddr (if w.ctx.isNone then 0 else w.next))
    (if k.present then s.now else min s.now k.freed) - max w.since w.free

/-- The warp units of bands that a snapshot stops, or that go on after one, have counted their waits up to now (R280). -/
def State.warpCounted (s : State) (bands : Nat) : State :=
  { s with warp := s.warp.zipIdx.map fun w =>
      if bit bands w.2 then { w.1 with wait := w.1.wait + s.warpWaited w.2, since := s.now } else w.1 }

/-- A pixel in the layout of R305: three uint16 and two zero bytes. -/
def pixBytes (p : Pix) : List Byte := toLe 2 p.c0 ++ toLe 2 p.c1 ++ toLe 2 p.c2 ++ toLe 2 0
/-- A pixel from those bytes. -/
def bytesPix (b : List Byte) : Pix := ⟨leAt b 0 2, leAt b 2 2, leAt b 4 2⟩

/-- Nearest column of a row of `w` columns. -/
def clampIdx (w : Nat) (x : Int) : Nat := (clampI 0 ((w : Int) - 1) x).toNat

/-- The row that stage 10 puts into a band's input ring in a live schedule (R101): bucket pixel
x′ − OX + X_IN(b) at padded column x′, the nearest edge pixel outside the bucket, in channels 0 to 2
(log entry 6). -/
def inputRingRow (r : Prn) (xIn wb : Nat) (px : List Pix) : List Byte :=
  (List.range r.pw).flatMap fun (x : Nat) =>
    let p := px.getD (clampIdx wb ((x : Int) - r.ox + xIn)) default
    padTo (r.pitch 0) ((toLe 2 p.c0 ++ toLe 2 p.c1 ++ toLe 2 p.c2).take (2 * r.ch))

/-- Stage 10 writes bucket line y to one band's line store (R101, R224): a slot that is not empty, or a
band stopped for a snapshot (R280), loses the line. -/
def State.inputToBand (s : State) (wb y : Nat) (px : List Pix) (b : Nat) : State :=
  let r := s.bprn b s.sched.rt.warpPrn
  if r.place ≠ 2 then s
  else
    let yp := y + r.oy
    if s.bandStopped b ∨ !s.lsEmpty b r yp then s.incF (F.BAND_LS_REF_IN_OVERRUN b) 1
    else
      let bs := inputRingRow r (s.sched.rt.xIn.getD b 0) wb px
      let a := r.lineAddr 0 yp
      let s1 := ((s.lsMerge b (partWords a bs.length) [] []).onBand b fun c => lsServe c s.now 11 [(a, bs.length)]).writeMem 2 b a bs
      s1.lsMark b r yp

/-! ### Corrected reads and map-out queues (R213, shared by R222 and R419) -/

/-- A tracker of corrected reads of `cap` entries of (row, count); a new row replaces the entry of lowest
count, the lowest index first, but for rows that a full queue has refused (R213). `n` is 1 for a corrected read. -/
def trackRowIn (cap : Nat) (refused : List Nat) (tr : List (Nat × Nat)) (row n : Nat) : List (Nat × Nat) :=
  match tr.findIdx? fun e => e.1 == row with
  | some i => tr.modify i fun e => (e.1, e.2 + n)
  | none =>
    if tr.length < cap then tr ++ [(row, n)]
    else
      let free (e : Nat × Nat) : Bool := !refused.contains e.1
      let m := (tr.filter free).foldl (fun m e => min m e.2) (2 ^ 64)
      match tr.findIdx? fun e => free e && e.2 == m with
      | some i => tr.set i (row, n)
      | none => tr

/-- Trackers, refused rows and the queue of a map-out unit (R213, R222, R419). -/
structure MapOut where
  tracker : List (Nat × Nat)
  refused : List Nat
  queue : List Nat

/-- A row is to be queued (R213): at most 8, no row twice; one that a full queue refuses stays in the tracker until it is
queued. -/
def MapOut.ask (cap : Nat) (m : MapOut) (row : Nat) : MapOut :=
  if m.queue.contains row then m
  else if m.queue.length < 8 then { m with queue := m.queue ++ [row], refused := m.refused.filter fun r => r != row }
  else { m with tracker := trackRowIn cap m.refused m.tracker row 0
                refused := if m.refused.contains row then m.refused else m.refused ++ [row] }

/-- A read of a row met correctable errors (R213): counted once, and queued at the limit. -/
def MapOut.corrected (cap limit : Nat) (m : MapOut) (row : Nat) : MapOut :=
  let m1 := { m with tracker := trackRowIn cap m.refused m.tracker row 1 }
  if limit ≤ (((m1.tracker.find? fun e => e.1 == row).map (·.2)).getD 0) then m1.ask cap row else m1

/-- The row at the head of the queue leaves it; one mapped out leaves the tracker too, and the oldest refused row takes the
place (R213, R214). -/
def MapOut.next (cap : Nat) (m : MapOut) (mapped : Bool) : MapOut :=
  match m.queue with
  | [] => m
  | row :: rest =>
    let m1 : MapOut := { m with queue := rest, tracker := if mapped then m.tracker.filter fun e => e.1 != row else m.tracker }
    match m1.refused with
    | [] => m1
    | r :: _ => m1.ask cap r

/-- The corrected-read limit: CE_LIMIT, 0 acting as 1 (R228). -/
def ceLimit (v : Nat) : Nat := max 1 v

/-! ### ECC and banks of the line store (R221, R222) -/

/-- The map-out unit of a band. -/
def State.lsMapUnit (s : State) (b : Nat) : MapOut :=
  let c := s.band b
  ⟨c.tracker, c.refused, c.mapQ⟩
/-- Its state is written back: QUEUED shows the queue. -/
def State.setLsMap (s : State) (b : Nat) (m : MapOut) : State :=
  (s.onBand b fun c => { c with tracker := m.tracker, refused := m.refused, mapQ := m.queue }).setF (F.BAND_LS_MAP_QUEUED b) m.queue.length

/-- Words of one line-store read that were corrected: counted, and each row's read tracked. -/
def State.lsCorrected (s : State) (b : Nat) (ws : List Nat) : State :=
  (ws.map (· / 4)).dedup.foldl (fun s row =>
    s.setLsMap b ((s.lsMapUnit b).corrected 16 (ceLimit (s.getF (F.BAND_LS_CFG_CE_LIMIT b))) row))
    (s.incF (F.BAND_LS_ECC_CORRECTED b) ws.length)

/-- A word of a line-store read was uncorrectable: counted, poisoned until written whole, its row queued. -/
def State.lsUncorr (s : State) (b w : Nat) : State :=
  let s1 := (s.incF (F.BAND_LS_ECC_UNCORR b) 1).onBand b fun c => { c with bad := SMap.set 0 c.bad w 1 }
  s1.setLsMap b ((s1.lsMapUnit b).ask 16 (w / 4))

/-- ECC of one line-store read (R222): whether a word was corrected, and whether one was uncorrectable. -/
def State.lsRead (s : State) (b : Nat) (words ceIn ueIn : List Nat) : State × Bool × Bool :=
  let ue := words.filter fun w => ueIn.contains w || SMap.get 0 (s.band b).bad w != 0
  let ce := words.filter fun w => ceIn.contains w && !ue.contains w
  (ue.foldl (fun s w => s.lsUncorr b w) (if ce = [] then s else s.lsCorrected b ce), ce != [], ue != [])

/-- A requester's place in the order of R222: the input pipeline (11), the fallback scaler (10), then the nine cores and the fabric
port in rotation. -/
def lsOrder (rot q : Nat) : Nat := if q = 11 then 0 else if q = 10 then 1 else 2 + (q + 10 - rot) % 10

/-- The banks of some ranges serve requester `q` in this cycle: none has served another access in it, and `q` comes before those
that ask with it. -/
def State.lsTurn (s : State) (b q : Nat) (rs : List (Nat × Nat)) (rivals : List Nat) : Bool :=
  let rot := lsRot (s.band b) s.now
  !lsBusy (s.band b) s.now rs && rivals.all fun r => r == q || decide (lsOrder rot q < lsOrder rot r)

/-- They have served it. -/
def State.lsServed (s : State) (b q : Nat) (rs : List (Nat × Nat)) : State := s.onBand b fun c => lsServe c s.now q rs

end Sys2Proof.Machine
end

