-- ==== Sys2Proof/Machine/Change.lean ====
section
/-! DEFINITION. Deciding a change of schedule (R293): by MODE_REQ or by a new bucket. -/
namespace Sys2Proof.Machine

/-- A mode's NB matches the power state (R293, R509): TARGET from the moment a request is accepted. -/
def State.nbMatches (s : State) (m : Mode) : Bool :=
  (m.nb == 0 && s.getF F.PWR_STATE_TARGET == 0) || (m.nb == 1 && s.getF F.PWR_STATE_TARGET == 1)

/-- MODE_REQ can be followed now (R293). -/
def State.modeReady (s : State) : Bool :=
  match s.prog.mode (s.getF F.CAL_MODE_MODE_REQ) with
  | some m => s.nbMatches m
  | none => false

/-- Bands 4 to 7 are being powered up: the change to Gale is decided when they are ready (R511). -/
def State.poweringUp (s : State) : Bool :=
  match s.pwr.trans with
  | .powerUp _ => true
  | _ => false

/-- The mode that a change installs: MODE_REQ, or MODE_CUR while MODE_REQ is held (R293) or waits for its bands. -/
def State.targetMode (s : State) : Nat :=
  if s.modeReady ∧ !s.poweringUp then s.getF F.CAL_MODE_MODE_REQ else s.getF F.CAL_MODE_MODE_CUR

/-- A change of schedule is decided, or merged into one decided and not yet carried out (R293). -/
def State.decideChange (s : State) : State :=
  let m := s.targetMode
  let k := s.prog.schedOf m s.inp.fit.bucket
  let b := s.inp.fit.bucket
  let c : SchedChange := match s.change with
    | some c => if c.installed then c else { c with mode := m, sched := k, bucket := b, newBucket := c.newBucket || b != s.bucket }
    | none => { decidedAt := s.now, mode := m, sched := k, bucket := b, newBucket := b != s.bucket }
  ({ s with change := some c }).setF F.CAL_MODE_CHANGING 1

/-- A change is decided and not yet carried out (R293). -/
def State.changeWaits (s : State) : Bool := (s.change.map fun c => !c.installed).getD false

/-- MODE_REQUEST: compare MODE_REQ with MODE_CUR (R293); MODE_HELD while it cannot be followed. A change that is decided and not
yet carried out takes the mode that MODE_REQ now gives. -/
def State.modeCheck (s : State) : State :=
  let s1 := s.setF F.CAL_MODE_MODE_HELD (b2n !s.modeReady)
  if s.changeWaits then s1.decideChange
  else if s.modeReady ∧ s1.getF F.CAL_MODE_MODE_REQ ≠ s1.getF F.CAL_MODE_MODE_CUR ∧ !s.poweringUp ∧ s.cal.running then s1.decideChange
  else s1

end Sys2Proof.Machine
end

