-- ==== Sys2Proof/Machine/Picture.lean ====
section
/-! DEFINITION. What stages 3 to 8 of the input pipeline do to a picture (R89 to R94), as functions of
the source lines, and the polyphase filter of R102 that the resize stage and the fallback scaler share. -/
namespace Sys2Proof.Machine

/-- An n-bit component as 12 bits (R89); `bpc` as INP_PORT_STATUS: 0: 8, 1: 10, 2: 12 bits. -/
def to12 (bpc v : Nat) : Nat :=
  if bpc = 0 then v % 256 * 16 + v % 256 / 16
  else if bpc = 1 then v % 1024 * 4 + v % 1024 / 256
  else v % 4096

/-- Unpack one source line (R89). `chroma` carries the line that holds the chroma of a 4:2:0 pair. -/
def unpackLine (enc bpc : Nat) (l chroma : SrcLine) : List Pix :=
  (List.range l.c0.length).map fun x =>
    let k := if enc ≤ 1 then x else x / 2
    let c := if enc = 3 then chroma else l
    ⟨to12 bpc (l.c0.getD x 0), to12 bpc (c.c1.getD k 0), to12 bpc (c.c2.getD k 0)⟩

/-- Source position of output sample X in 1/64 sample (R102): `n` source and `m` output samples. -/
def filterPos (n m x : Nat) : Int := Int.fdiv (((2 * x + 1 : Nat) * n - m : Int) * 64) (2 * m)
/-- The sample index i of R102. -/
def filterIdx (n m x : Nat) : Int := Int.fdiv (filterPos n m x) 64
/-- The phase ph of R102. -/
def filterPh (n m x : Nat) : Nat := (filterPos n m x - 64 * filterIdx n m x).toNat

/-- One component of one filter pass (R102): sum of coefficient × component, divided by 256, rounded,
clamped. -/
def filterComp (coef : List Int) (v : List Nat) : Nat :=
  (clampI 0 4095 (roundDiv ((List.zipWith (fun (c : Int) (x : Nat) => c * (x : Int)) coef v).foldl (· + ·) 0) 256)).toNat
/-- One pixel of one filter pass. -/
def filterPix (coef : List Int) (ps : List Pix) : Pix :=
  ⟨filterComp coef (ps.map (·.c0)), filterComp coef (ps.map (·.c1)), filterComp coef (ps.map (·.c2))⟩

/-- Vertical pass for output line y (R102): taps read lines i − 1 to i + 2, the nearest line outside. -/
def filterRowV (taps : List (List Int)) (n m y w : Nat) (row : Nat → List Pix) : List Pix :=
  let i := filterIdx n m y
  let rows := (List.range 4).map fun (k : Nat) => row (clampIdx n (i - 1 + k))
  let coef := taps.getD (filterPh n m y) []
  (List.range w).map fun x => filterPix coef (rows.map fun r => r.getD x default)

/-- Horizontal pass for columns `x0` to `x0 + k − 1` (R102): taps read columns i − 2 to i + 3. -/
def filterRowH (taps : List (List Int)) (n m x0 k : Nat) (row : List Pix) : List Pix :=
  (List.range k).map fun d =>
    let i := filterIdx n m (x0 + d)
    filterPix (taps.getD (filterPh n m (x0 + d)) [])
      ((List.range 6).map fun (t : Nat) => row.getD (clampIdx n (i - 2 + t)) default)

/-- The lines that the vertical pass reads for output line y. -/
def filterRows (n m y : Nat) : List Nat := (List.range 4).map fun (k : Nat) => clampIdx n (filterIdx n m y - 1 + k)

/-! ### Crop, flip, resize, transform -/

/-- Resize factor (R91): outside 64 to 256 it acts as 256. -/
def resizeFactor (rn : Nat) : Nat := if 64 ≤ rn ∧ rn ≤ 256 then rn else 256
/-- Output size of the resize stage (R91). -/
def resized (n rn : Nat) : Nat := if n = 0 then 0 else max 1 (n * resizeFactor rn / 256)
/-- Cropped extent (R90): cut at the source edge; zero means up to the edge. -/
def cropped (src o k : Nat) : Nat := if k = 0 then src - o else min k (src - o)

/-- Size after the crop (R90). -/
def geoCropSize (g : Geo) (f : SrcFrame) : Nat × Nat := (cropped f.w g.x0 g.cw, cropped f.h g.y0 g.ch)
/-- Size after the resize (R91). -/
def geoResized (g : Geo) (f : SrcFrame) : Nat × Nat :=
  let c := geoCropSize g f
  (resized c.1 g.rnH, resized c.2 g.rnV)
/-- Size after stage 7 (R92): 90 and 270 degrees exchange width and height. -/
def geoSize (g : Geo) (f : SrcFrame) : Nat × Nat :=
  let r := geoResized g f
  if g.rot % 2 = 1 then (r.2, r.1) else r
/-- Stage 7 is active (R92). -/
def geoStage7 (g : Geo) : Bool := g.vflip || g.rot != 0

/-- A source line after the crop and the horizontal flip (R90, R71); a line that has not arrived is
missing (log entry 7). -/
def cropRow (g : Geo) (f : SrcFrame) (y : Nat) : InRow :=
  let w := (geoCropSize g f).1
  match (f.rows.find? fun e => e.1 == g.y0 + y) with
  | none => ⟨f.miss, []⟩
  | some (_, r) =>
    let px := (r.px.drop g.x0).take w
    ⟨r.cause, if g.hflip then px.reverse else px⟩

/-- The lowest cause among lines read, 0 when none is corrupt (R97, R99). -/
def lowestCause (l : List Nat) : Nat :=
  l.foldl (fun m c => if c = 0 then m else if m = 0 then c else min m c) 0

/-- Source lines (after the crop) that line y of the resize stage reads. -/
def resizeReads (g : Geo) (f : SrcFrame) (y : Nat) : List Nat :=
  let h := (geoCropSize g f).2
  if resizeFactor g.rnV = 256 then [y] else filterRows h (resized h g.rnV) y

/-- Line y after the resize (R91). -/
def resizeRow (pr : Program) (g : Geo) (f : SrcFrame) (y : Nat) : InRow :=
  let c := geoCropSize g f
  let v := if resizeFactor g.rnV = 256 then (cropRow g f y).px
    else filterRowV pr.rsV c.2 (resized c.2 g.rnV) y c.1 fun i => (cropRow g f i).px
  let h := if resizeFactor g.rnH = 256 then v else filterRowH pr.rsH c.1 (resized c.1 g.rnH) 0 (resized c.1 g.rnH) v
  ⟨lowestCause ((resizeReads g f y).map fun i => (cropRow g f i).cause), h⟩

/-- Where stage 7 takes pixel (x, y) of its output from, in the resized picture of w × h (R92): VFLIP
first, then ROT clockwise. -/
def transformSrc (g : Geo) (w h x y : Nat) : Nat × Nat :=
  let q : Nat × Nat :=
    match g.rot with
    | 0 => (x, y) | 1 => (y, h - 1 - x) | 2 => (w - 1 - x, h - 1 - y) | _ => (w - 1 - y, x)
  if g.vflip then (q.1, h - 1 - q.2) else q

/-- Lines of the resized picture that line y after stage 7 reads. -/
def transformReads (g : Geo) (f : SrcFrame) (y : Nat) : List Nat :=
  let r := geoResized g f
  if g.rot % 2 = 1 then List.range r.2 else [(transformSrc g r.1 r.2 0 y).2]

/-- Line y after stage 7. -/
def pictureRow (pr : Program) (g : Geo) (f : SrcFrame) (y : Nat) : InRow :=
  if !geoStage7 g then resizeRow pr g f y
  else
    let r := geoResized g f
    let sz := geoSize g f
    let rows := (transformReads g f y).map fun i => (i, resizeRow pr g f i)
    let at_ (i : Nat) : List Pix := ((rows.find? fun e => e.1 == i).map (·.2.px)).getD []
    ⟨lowestCause (rows.map fun e => e.2.cause),
      (List.range sz.1).map fun x => let q := transformSrc g r.1 r.2 x y; (at_ q.2).getD q.1 default⟩

/-! ### Bucket fit (R94) -/

/-- Among the compiled buckets, the smallest that holds w × h, or the largest (R94 steps 1 and 2). The
second component says that none holds it. -/
def chooseBucket (mask w h : Nat) : Nat × Bool :=
  let l := (List.range 5).filter fun n => bit mask n
  match l.find? fun n => decide (w ≤ (bucketSize n).1) && decide (h ≤ (bucketSize n).2) with
  | some n => (n, false)
  | none => (l.getLastD 0, true)

/-- The fit of a w × h picture (R94). -/
def fitOf (mask w h : Nat) : Fit :=
  let c := chooseBucket mask w h
  let b := bucketSize c.1
  { bucket := c.1, wb := b.1, hb := b.2, w := w, h := h, cropped := c.2,
    cx := (w - b.1) / 2, cy := (h - b.2) / 2, padL := (b.1 - w) / 2, padT := (b.2 - h) / 2 }

/-- Bucket line y (R94 steps 2 to 4): the picture line it shows; none for a pad line. -/
def fitLine (f : Fit) (y : Nat) : Option Nat :=
  let h := min f.h f.hb
  if y < f.padT ∨ f.padT + h ≤ y then none else some (y - f.padT + f.cy)

/-- A picture line cropped and padded to the bucket's width (R94). -/
def fitRow (f : Fit) (edge : Bool) (black : Pix) (px : List Pix) : List Pix :=
  let w := min f.w f.wb
  let mid := (List.range w).map fun x => px.getD (x + f.cx) black
  let l := if edge then mid.headD black else black
  let r := if edge then mid.getLastD black else black
  List.replicate f.padL l ++ mid ++ List.replicate (f.wb - f.padL - w) r

/-- Bucket line y after stage 8, before replacement. Pad lines read no source line for R97. -/
def bucketRow (pr : Program) (g : Geo) (f : Fit) (edge : Bool) (black : Pix) (pic : SrcFrame) (y : Nat) : InRow :=
  match fitLine f y with
  | some yp => let r := pictureRow pr g pic yp; ⟨r.cause, fitRow f edge black r.px⟩
  | none =>
    if edge then
      let yp := if y < f.padT then f.cy else f.cy + min f.h f.hb - 1
      ⟨0, fitRow f edge black (pictureRow pr g pic yp).px⟩
    else ⟨0, List.replicate f.wb black⟩

/-- The source lines that bucket line y needs at stage 8 (R101): none for a black top pad line, the
first picture line for an edge top pad line, the last for a bottom pad line. -/
def bucketReads (g : Geo) (f : Fit) (edge : Bool) (pic : SrcFrame) (y : Nat) : List Nat :=
  let needs (yp : Nat) : List Nat :=
    ((if geoStage7 g then transformReads g pic yp else [yp]).flatMap fun i => resizeReads g pic i).map (· + g.y0)
  match fitLine f y with
  | some yp => needs yp
  | none => if y < f.padT then (if edge then needs f.cy else []) else needs (f.cy + min f.h f.hb - 1)

/-- The bytes of a line for the CRC of R100: each component as a uint16, low byte first. -/
def lineBytes (px : List Pix) : List Byte := px.flatMap fun p => toLe 2 p.c0 ++ toLe 2 p.c1 ++ toLe 2 p.c2

end Sys2Proof.Machine
end

