-- ==== Sys2Proof/Machine/Input.lean ====
section
/-! DEFINITION. The input path (chapter 03): port signal and its loss, DSC limits, frame starts, the
bucket, replacement of corrupt lines, the blank path, and stage 10's writes. -/
namespace Sys2Proof.Machine

/-- A port's state. -/
def State.port (s : State) (n : Nat) : PortSt := s.inp.ports.getD n {}
/-- Change a port's state. -/
def State.onPort (s : State) (n : Nat) (f : PortSt → PortSt) : State :=
  { s with inp := { s.inp with ports := s.inp.ports.modify n f } }
/-- Change the input pipeline's state. -/
def State.onInp (s : State) (f : InpSt → InpSt) : State := { s with inp := f s.inp }

/-- The black pixel (R373). -/
def State.black (s : State) : Pix := ⟨s.getF F.CMP_BLACK0_C0, s.getF F.CMP_BLACK0_C1, s.getF F.CMP_BLACK1_C2⟩

/-! ### Links, PPS -/

/-- Link rate in bit/s (R72): HBR3, UHBR10, UHBR13.5, UHBR20. -/
def linkRate (r : Nat) : Nat :=
  match r with | 0 => 8100000000 | 1 => 10000000000 | 2 => 13500000000 | _ => 20000000000
/-- Lanes of the encoding of R75; 3 acts as 2. -/
def laneCount (l : Nat) : Nat := match l with | 0 => 1 | 1 => 2 | _ => 4
/-- Payload rate (R73) as numerator and denominator. -/
def payloadRate (rate lanes : Nat) : Nat × Nat :=
  if rate = 0 then (laneCount lanes * linkRate 0 * 8, 10) else (laneCount lanes * linkRate rate * 128, 132)

/-- The required rate of R86 exceeds the payload rate. -/
def ppsOverRate (p : Pps) (rate lanes : Nat) : Bool :=
  let q := payloadRate rate lanes
  decide (q.1 * p.htotal < p.chunk * 8 * p.slices * p.clock * q.2)

/-- The lowest reason for which a PPS is rejected, 0 for none (R85); `high`: the required rate is above the payload rate. -/
def ppsReason (p : Pps) (pair high : Bool) : Nat :=
  if 8192 < p.w ∨ 4352 < p.h then 1
  else if 8192 < p.sliceW * p.slices ∨ 4352 < p.sliceH * ceilDiv p.h p.sliceH then 2
  else if 16 < p.slices ∨ 5120 < p.sliceW then 3
  else if high then 4
  else if p.bpp16 < 96 ∨ (if p.native = 0 then 384 else 256) < p.bpp16 then 5
  else if (p.bpc ≠ 8 ∧ p.bpc ≠ 10 ∧ p.bpc ≠ 12) ∨ p.lineBuf < 8 ∨ 13 < p.lineBuf then 6
  else if pair ∧ (4096 < p.w ∨ 4352 < p.h) then 7
  else if !p.legal then 8 else 0

/-! ### Signal (R82) -/

/-- A condition of R82 holds on a port. -/
def portLost (p : PortSt) : Bool :=
  !p.hpd || p.lossLock || p.lossVb || p.lossSize || p.lossPps || p.lossHdcp

/-- NOSIG_CAUSE of a port's condition (R99): the lowest where several hold (DESIGN CHOICE, log entry 76). -/
def portCause (p : PortSt) : Nat :=
  if !p.hpd ∨ p.lossLock then 1 else if p.lossVb then 2 else if p.lossSize then 3
  else if p.lossPps then 4 else 5

/-- The ports that the MODE in use selects (R79): 3 acts as 0. -/
def geoPorts (g : Geo) : List Nat := if g.mode = 1 then [1] else if g.mode = 2 then [0, 1] else [0]

/-- The input is zero-sized (R82). -/
def State.zeroSized (s : State) : Bool :=
  (geoPorts s.inp.geo).any (fun n => s.getF (F.INP_PORT_STATUS_SIGNAL n) == 0) ||
  (s.inp.geo.mode == 2 && s.inp.pairBad != 0) || s.inp.cropZero

/-- The selected input has lost its signal (R82): the frame being received is cut off, and no previous frame serves R98. -/
def State.cutInput (s : State) : State := s.onInp fun i => { i with cut := true, prevUsable := false }

/-- The cause of a zero-sized input (R80, R99): the condition of a selected port, or the last one where only R82's wait is not over;
a pair that does not match; a crop that leaves nothing. -/
def State.noteNoSignal (s : State) : State :=
  match (geoPorts s.inp.geo).find? fun n => s.getF (F.INP_PORT_STATUS_SIGNAL n) == 0 with
  | some n => s.setF F.INP_PPS_REJECTS_NOSIG_CAUSE
      (if s.inp.geo.mode = 2 then 6 else if portLost (s.port n) then portCause (s.port n) else (s.port n).lastCause)
  | none =>
    if s.inp.geo.mode = 2 ∧ s.inp.pairBad ≠ 0 then s.setF F.INP_PPS_REJECTS_NOSIG_CAUSE 6
    else if s.inp.cropZero then s.setF F.INP_PPS_REJECTS_NOSIG_CAUSE 7 else s

/-- SIGNAL and the wait of R82 after a change of a port's conditions; the cause of a zero-sized input. -/
def State.signalCheck (s : State) (n : Nat) : State :=
  if portLost (s.port n) then
    let s1 := (s.setF (F.INP_PORT_STATUS_SIGNAL n) 0).onPort n fun p => { p with proving := false, lastCause := portCause p }
    if (geoPorts s.inp.geo).contains n then s1.noteNoSignal.cutInput else s1
  else s

/-- The four bytes of a port's DPCD sink status, 0x202 to 0x205 (R74, log entry 8): lock of the trained lanes, and whether the port
delivers a valid picture. -/
def State.sinkStatus (s : State) (n : Nat) : List Nat :=
  let k := if (s.port n).lossLock then 0 else laneCount (s.getF (F.INP_PORT_STATUS_LANES n))
  [if 2 ≤ k then 0x77 else if k = 1 then 0x07 else 0, if 4 ≤ k then 0x77 else 0, if 1 ≤ k then 1 else 0,
    s.getF (F.INP_PORT_STATUS_SIGNAL n)]

/-- IRQ_HPD (R74): the port raises a pulse when an event has changed its sink status from what it was in `s`. -/
def State.sinkIrq (s t : State) (n : Nat) : State :=
  if (t.port n).hpd ∧ s.sinkStatus n ≠ t.sinkStatus n then t.onPort n fun p => { p with irq := p.irq + 1 } else t

/-- HPD is taken low for 100 ms and then high while the port is enabled; low while it is disabled (R74). -/
def State.hpdPulse (s : State) (n : Nat) : State :=
  let en := s.getF (F.INP_PORT_CFG_EN n) == 1
  (s.onPort n fun p => { p with hpd := false, hpdRise := if en then some (s.now + msCycles 100) else none }).signalCheck n

/-- HPD_PULSE_END: the pulse expires and HPD is driven high (R74). -/
def State.hpdEnd (s : State) (n : Nat) : State :=
  match (s.port n).hpdRise with
  | none => s
  | some t => (s.waitUntil t).onPort n fun p => { p with hpd := true, hpdRise := none }

/-- The required rate of a PPS is above what the port's trained link carries (R86). -/
def State.overRate (s : State) (n : Nat) (pps : Pps) : Bool :=
  ppsOverRate pps (s.getF (F.INP_PORT_STATUS_RATE n)) (s.getF (F.INP_PORT_STATUS_LANES n))

/-- PPS_REEVALUATION (R86): a change of link rate or lane count tests the held PPS's rate again. -/
def State.ppsAgain (s : State) (n : Nat) : State :=
  let p := s.port n
  match p.pps with
  | none => s
  | some pps =>
    if p.ppsOk ∧ s.overRate n pps then
      let s1 := (s.setF (F.INP_PORT_STATUS_PPS_REASON n) 4).incF F.INP_PPS_REJECTS_REJECTS 1
      (s1.onPort n fun p => { p with ppsOk := false, ppsRate := true, lossPps := true }).signalCheck n
    else if !p.ppsOk ∧ p.ppsRate ∧ !s.overRate n pps then
      s.onPort n fun p => { p with ppsOk := true, ppsRate := false, lossPps := false }
    else s

/-- DP_LINK_TRAINING (R72): the source trains a rate and lane count that the port advertises, or fails. -/
def State.linkTrain (s : State) (n rate lanes : Nat) (ok : Bool) : State :=
  let maxL := min 2 (s.getF (F.INP_PORT_CFG_MAX_LANES n))
  if ok ∧ rate ≤ s.getF (F.INP_PORT_CFG_MAX_RATE n) ∧ lanes ≤ maxL ∧ (s.port n).hpd then
    let s1 := s.setFs [(F.INP_PORT_STATUS_RATE n, rate), (F.INP_PORT_STATUS_LANES n, lanes)]
    s.sinkIrq ((s1.onPort n fun p => { p with lossLock := false }).ppsAgain n) n
  else s.sinkIrq ((s.onPort n fun p => { p with lossLock := true }).signalCheck n) n

/-- PPS_RECEIVED (R85, R86). DESIGN CHOICE (log entry 76): the condition 'a PPS is rejected' of R82 clears only with a PPS that is
accepted, on receipt or on re-evaluation, and not when the source goes on without DSC. -/
def State.ppsIn (s : State) (n : Nat) (pps : Pps) : State :=
  let r := ppsReason pps (s.inp.geo.mode == 2) (s.overRate n pps)
  if r = 0 then s.onPort n fun p => { p with pps := some pps, ppsOk := true, ppsRate := false, lossPps := false }
  else
    let s1 := (s.setF (F.INP_PORT_STATUS_PPS_REASON n) r).incF F.INP_PPS_REJECTS_REJECTS 1
    let alone := ppsReason pps (s.inp.geo.mode == 2) false == 0
    s.sinkIrq ((s1.onPort n fun p => { p with pps := some pps, ppsOk := false, ppsRate := alone, lossPps := true }).signalCheck n) n

/-- SDP_RECEIVED (R72): VSC and HDR metadata SDPs are decoded and reported, others discarded. -/
def State.sdpIn (s : State) (n : Nat) : Sdp → State
  | .vsc enc col bpc =>
    (s.setFs [(F.INP_PORT_STATUS_ENC n, enc), (F.INP_PORT_STATUS_BPC n, bpc)]).onPort n fun p =>
      { p with colorimetry := col % 256 }
  | .hdr data => s.onPort n fun p => { p with hdr := true, hdrSdp := data }
  | .other => s

/-- HDCP_AUTHENTICATION (R88, R82): authentication needs HDCP advertised and keys present. -/
def State.hdcpAuth (s : State) (n : Nat) (ok : Bool) : State :=
  let good := ok && s.getF (F.INP_PORT_CFG_HDCP_EN n) == 1 && s.boot.hdcp != []
  let s1 := s.setF (F.INP_PORT_STATUS_AUTH n) (b2n good)
  let enc := s.getF (F.INP_PORT_STATUS_ENCRYPTED n) == 1
  s.sinkIrq ((s1.onPort n fun p => { p with lossHdcp := !good && enc }).signalCheck n) n

/-- SIGNAL_LOST (R82): lock lost for more than 2 µs, or no vertical blanking start for two frame periods
as last measured, or for 50 ms. -/
def State.lose (s : State) (n : Nat) : LossCause → State
  | .lock =>
    let s1 := s.waitUntil (s.now + usCycles 2 + 1)
    s1.sinkIrq ((s1.onPort n fun p => { p with lossLock := true }).signalCheck n) n
  | .vblank =>
    let per := s.getF (F.INP_PORT_PERIOD_PERIOD n)
    let t := ((s.port n).lastStart.getD s.now) + (if per = 0 then msCycles 50 else 2 * per)
    let s1 := s.waitUntil t
    s1.sinkIrq ((s1.onPort n fun p => { p with lossVb := true }).signalCheck n) n

/-! ### The AUX channel (R72) -/

/-- Addresses of the DPCD that the source writes and reads back (log entry 8): link configuration, source-specific bytes, SET_POWER. -/
def dpcdWritable (a : Nat) : Bool :=
  (decide (0x100 ≤ a) && decide (a < 0x200)) || (decide (0x300 ≤ a) && decide (a < 0x400)) || a == 0x600

/-- The source has turned FEC on (R72): FEC_READY of the DPCD's FEC_CONFIGURATION. -/
def State.fecReady (s : State) (n : Nat) : Bool := bit (SMap.get 0 (s.port n).dpcd 0x120).toNat 0

/-- A byte of the DPCD: capabilities under INP_PORT_CFG (one that R72's table does not list reads as unsupported), link state, and
what the source wrote (log entry 8: addresses and encodings are the standard's). -/
def State.dpcdByte (s : State) (n a : Nat) : Nat :=
  let maxL := laneCount (s.getF (F.INP_PORT_CFG_MAX_LANES n))
  let maxR := s.getF (F.INP_PORT_CFG_MAX_RATE n)
  match a with
  | 0x000 => 0x14
  | 0x001 => 0x1E
  | 0x002 => 0x80 + maxL
  | 0x006 => 1 + 2 * b2n (decide (1 ≤ maxR))
  | 0x060 => s.getF (F.INP_PORT_CFG_DSC_EN n)
  | 0x090 => 1
  | 0x200 => 1
  | 0x202 => (s.sinkStatus n).getD 0 0
  | 0x203 => (s.sinkStatus n).getD 1 0
  | 0x204 => (s.sinkStatus n).getD 2 0
  | 0x205 => (s.sinkStatus n).getD 3 0
  | 0x2215 => (if 1 ≤ maxR then 1 else 0) + (if 3 ≤ maxR then 2 else 0) + (if 2 ≤ maxR then 4 else 0)
  | 0x280 => b2n (s.fecReady n)
  | 0x6921D => 2 * s.getF (F.INP_PORT_CFG_HDCP_EN n)
  | 0x6921E => 0
  | 0x6921F => 2 * s.getF (F.INP_PORT_CFG_HDCP_EN n)
  | _ => if dpcdWritable a then (SMap.get 0 (s.port n).dpcd a).toNat else 0

/-- AUX_TRANSACTION: the port answers native AUX from its DPCD and I2C-over-AUX from the EDID and
DisplayID content of the container; with HPD low it does not answer. -/
def State.aux (s : State) (n : Nat) (r : AuxReq) : State :=
  if !(s.port n).hpd then s.onPort n fun p => { p with auxReply := [] }
  else
    match r with
    | .nativeRead a k => s.onPort n fun p =>
        { p with auxReply := 0 :: (List.range (min 16 k)).map fun i => BitVec.ofNat 8 (s.dpcdByte n (a + i)) }
    | .nativeWrite a d => s.onPort n fun p =>
        { p with dpcd := SMap.setMany 0 p.dpcd a (d.take 16), auxReply := [0] }
    | .i2cWrite d => s.onPort n fun p => { p with i2cAt := (d.headD 0).toNat, auxReply := [0] }
    | .i2cRead k => s.onPort n fun p =>
        { p with auxReply := 0 :: sliceB p.edid p.i2cAt (min 16 k), i2cAt := p.i2cAt + min 16 k }

/-! ### The input-frame history (R305 to R308) -/

/-- DEPTH (R308). -/
def State.histDepth (s : State) : Nat := s.getF F.INP_HIST_CFG_DEPTH
/-- Offset in DRAM of history slot k (R305). -/
def State.histAddr (s : State) (k : Nat) : Nat :=
  s.getF F.INP_HIST_BASE_LO_BASE_LO + 2 ^ 32 * s.getF F.INP_HIST_BASE_HI_BASE_HI - dramBase +
  k * (s.getF F.INP_HIST_CFG_PITCH * 2 ^ 20)
/-- Bytes of one line of a frame `wb` wide in the history (R305, R217). -/
def histPitch (wb : Nat) : Nat := roundUp 64 (8 * wb)
/-- The slot of an input frame, when it still holds it. -/
def State.histSlot (s : State) (j : Nat) : Option Nat :=
  if s.histDepth = 0 then none
  else let k := j % s.histDepth
    if (s.hist.getD k {}).frame = some j then some k else none
/-- A pixel of an input frame of the history; black when the slot no longer holds it. -/
def State.histPix (s : State) (j x y : Nat) : Pix :=
  match s.histSlot j with
  | none => s.black
  | some k => bytesPix (readB s.dram (s.histAddr k + y * histPitch (s.hist.getD k {}).wb + 8 * x) 8)
/-- A line of the frame `wb` wide that history slot k holds. -/
def State.slotRow (s : State) (k wb y : Nat) : List Pix :=
  (List.range wb).map fun x => bytesPix (readB s.dram (s.histAddr k + y * histPitch wb + 8 * x) 8)
/-- A line of an input frame of the history. -/
def State.histRow (s : State) (j y : Nat) : List Pix :=
  match s.histSlot j with
  | none => []
  | some k => s.slotRow k (s.hist.getD k {}).wb y

/-- Every core taking part has drained the run, and the box unit has written what is its part (R37, R326). -/
def State.runFinished (s : State) (c : Nat) (r : FcRun) : Bool :=
  !r.failed && ((List.range s.nCores).all fun l => r.cores.contains l) &&
  (match s.sched.det with | some d => d.clause != c || r.boxDone | none => true)

/-- A frame is held (R307): shown by the output frame in progress or decided, or still read by a warp
unit; or the input frame of a frame-clause run in progress, or the one before it. -/
def State.frameHeld (s : State) (j : Nat) : Bool :=
  let shows (c : FrameCtx) : Bool := c.shown && !c.live && (c.i == j || (c.i + 1) % 2 ^ 32 == j)
  let latches (c : FrameCtx) : Bool := shows c && !c.aligned
  shows s.ctx || (s.ctxNext.map shows).getD false ||
  ((s.warp.take s.nBands).any fun w => (w.ctx.map latches).getD false || w.queued.any latches) ||
  (s.fc.zipIdx.any fun f => match f.1.run with
    | some r => !s.runFinished f.2 r && (r.inFrame == j || (j + 1) % 2 ^ 32 == r.inFrame)
    | none => false)

/-! ### Frames at stage 8 (R78, R94 to R96) -/

/-- A frame starts at stage 8 or, from the blank path, at stage 9 (R78, R307): it takes the next number
and a history slot, unless that slot is held. DESIGN CHOICE (log entry 77): the first frame has number 0, and INP_FRAME takes a frame's
number when the frame starts here. -/
def State.beginFrame (s : State) (src : FrameSrc) (fit : Fit) (g : Geo) (pic : SrcFrame) (enc : Bool) : State :=
  let num := s.inp.nextNum
  let k := if s.histDepth = 0 then 0 else num % s.histDepth
  let old := (s.hist.getD k {}).frame
  let skip := match old with | some j => s.frameHeld j | none => false
  let fr : InFrame := {
    num := num, src := src, fit := fit, geo := g, pic := pic, skipped := skip, encrypted := enc
    prevOk := s.inp.prevUsable && (match s.histSlot ((num + 2 ^ 32 - 1) % 2 ^ 32) with
      | some q => (s.hist.getD q {}).wb == fit.wb && (s.hist.getD q {}).hb == fit.hb
      | none => false) }
  let s1 := (s.setF F.INP_FRAME_FRAME num).onInp fun i =>
    { i with fr := some fr, nextNum := (num + 1) % 2 ^ 32, lastStart := s.now, prevUsable := false }
  if skip then (s1.incF F.INP_HIST_CNT_OVERRUN 1).onInp fun i => { i with overrun := i.overrun + 1 }
  else
    { s1 with
      hist := s1.hist.set k { frame := some num, wb := fit.wb, hb := fit.hb, encrypted := enc, blank := src != .port, fit := fit }
      avail := s1.avail.filter fun a => some a.1 != old }

/-- BUCKET_SELECTION (R94 to R96) and the frame start at stage 8 of a frame from a port, received under the geometry `g`. -/
def State.stage8 (s : State) (pic : SrcFrame) (g : Geo) : State :=
  let sz := geoSize g pic
  let fit := fitOf s.prog.buckets sz.1 sz.2
  let s1 := s.setFs [(F.INP_BUCKET_BUCKET, fit.bucket), (F.INP_BUCKET_CROPPED, b2n fit.cropped),
    (F.INP_PAD_PAD_L, fit.padL), (F.INP_PAD_PAD_T, fit.padT)]
  let s2 := s1.incF F.INP_BUCKET_CROPS (b2n fit.cropped)
  let changed := fit.bucket != s.inp.fit.bucket
  let s3 := s2.onInp fun i =>
    { i with
      period := (match i.lastPort with | some t => some (s.now - t) | none => i.period)
      lastPort := some s.now, fit := fit, blank := 0, blankActive := false
      fmtPort := (geoPorts g).headD 0, fmtEnc := pic.enc, fmtBpc := pic.bpc }
  let s4 := s3.beginFrame .port fit g pic pic.encrypted
  if changed then s4.decideChange else s4

/-! ### Stages 9 and 10 -/

/-- Every line of the frame is written (R297, R83): it becomes available at the next boundary, and its digest is kept while the
history holds it (R443). A repeated frame holds the lines of the
last frame from a port, so that the next repeat takes them from it. -/
def State.frameDone (s : State) (fr : InFrame) : State :=
  let old := s.inp.done.take 15 ++ (s.inp.done.drop 15).filter fun d => s.hist.any fun h => h.frame == some d.num
  let s1 := s.onInp fun i =>
    { i with fr := none, done := ⟨fr.num, fr.crcs, fr.encrypted, fr.src != .port⟩ :: old
             prevUsable := fr.src == .port && !fr.skipped && !i.cut
             lastPortFrame := if fr.src != .blankBlack ∧ !fr.skipped then some fr.num else i.lastPortFrame }
  match s1.histSlot fr.num with
  | none => s1
  | some k => { s1 with
      arrived := s1.arrived ++ [fr.num]
      hist := s1.hist.modify k fun h => { h with complete := true, crcs := fr.crcs, replaced := fr.replaced } }

/-- The picture that a frame's lines come from: the frame being received, or with stage 7 active the
frame before it (R92). -/
def State.framePic (s : State) (fr : InFrame) : SrcFrame :=
  if geoStage7 fr.geo then fr.pic else s.inp.cur.getD fr.pic

/-- Stage 9's line y (R98, R83) before stage 10, with what it counts: cause of a replaced line. -/
def State.stage9 (s : State) (fr : InFrame) (y : Nat) : List Pix × Nat :=
  match fr.src with
  | .blankBlack => (List.replicate fr.fit.wb s.black, 0)
  | .blankHeld => (match s.inp.lastPortFrame with
      | some j => s.slotRow (j % s.histDepth) fr.fit.wb y
      | none => List.replicate fr.fit.wb s.black, 0)
  | .port =>
    let edge := s.getF F.INP_BLANK_CFG_PAD_EDGE == 1
    let r := bucketRow s.prog fr.geo fr.fit edge s.black (s.framePic fr) y
    if r.cause = 0 then (r.px, 0)
    else
      let px := if fr.prevOk then s.histRow ((fr.num + 2 ^ 32 - 1) % 2 ^ 32) y
        else if y = 0 then List.replicate fr.fit.wb s.black else fr.lastRow
      (px, r.cause)

/-- The recorded LINE entry that a replay with REPLAY_LINES takes for a line (R455). -/
def State.replayLine (s : State) (num y : Nat) : Option ReplayEnt :=
  s.aud.replayLog.find? fun e => e.type == 6 && leAt e.payload 0 4 == num && leAt e.payload 4 2 == y

/-- Divergence (R456). -/
def State.diverge (s : State) : State := s.setF F.AUD_REPLAY_STATUS_DIVERGED 1

/-- Stages 1 to 9 replaced by the recorded line, when a replay takes LINE entries (R455, R456). -/
def State.stage9Replay (s : State) (fr : InFrame) (y : Nat) : List Pix × Nat × State :=
  if s.aud.replay ∧ s.getF F.AUD_REPLAY_CTRL_REPLAY_LINES = 1 then
    match s.replayLine fr.num y with
    | some e =>
      if e.withheld then (List.replicate fr.fit.wb s.black, 0, s.diverge)
      else
        let w := leAt e.payload 6 2
        ((List.range w).map fun x => bytesPix (sliceB e.payload (8 + 8 * x) 8), 0,
          match s.aud.zero with
          | some z => s.waitUntil ((z : Int) + e.time).toNat
          | none => s)
    | none => (List.replicate fr.fit.wb s.black, 0, s.diverge)
  else let r := s.stage9 fr y; (r.1, r.2, s)

/-- The CRC that a replay compares with the recorded one (R455, R456). -/
def State.replayCrc (s : State) (num y crc : Nat) : State :=
  if s.aud.replay then
    match s.aud.replayLog.find? fun e => e.type == 5 && leAt e.payload 0 4 == num && leAt e.payload 4 2 == y with
    | some e => if leAt e.payload 8 8 = crc then s else (s.diverge).incF F.AUD_REPLAY_CNT_MISMATCH 1
    | none => s
  else s

/-- Stage 10 takes no band line store while the running schedule is not the one for the bucket (R295),
and never in a re-timed schedule (R306). -/
def State.feedsBands (s : State) (fr : InFrame) : Bool :=
  s.sched.rt.lag == 0 && !fr.skipped && !((s.change.map (·.newBucket)).getD false) &&
  s.prog.schedOf (s.getF F.CAL_MODE_MODE_CUR) fr.fit.bucket == s.getF F.CAL_MODE_SCHED_CUR

/-- Stage 9 and 10 for the next line (R98, R100, R101): CRC, history, line stores, log entries. -/
def State.writeLine (s : State) (fr : InFrame) : State :=
  let y := fr.next
  let q := s.stage9Replay fr y
  let px := q.1
  let s0 := q.2.2
  let s1 := if q.2.1 = 0 then s0
    else (s0.incF F.INP_CORRUPT_LINES 1).setF F.INP_CORRUPT_LAST_CAUSE q.2.1
  let crc := crc64 (lineBytes px)
  let s2 := match s1.histSlot fr.num with
    | some k => if fr.skipped then s1
        else s1.writeMem 3 0 (s1.histAddr k + y * histPitch fr.fit.wb)
          (padTo (histPitch fr.fit.wb) (px.flatMap pixBytes))
    | none => s1
  let s3 := if s2.feedsBands fr then s2.each s2.nBands fun a b => a.inputToBand fr.fit.wb y px b else s2
  let hdr := toLe 4 fr.num ++ toLe 2 y
  let s4 := s3.record F.AUD_REC_CTRL_CRC ⟨5, false, s3.now, hdr ++ toLe 2 0 ++ toLe 8 crc⟩
  let s5 := if s4.recordsClass F.AUD_REC_CTRL_LINES then
      (if fr.encrypted then (s4.incF F.AUD_LOG_CNT_WITHHELD 1).logPut ⟨6, true, s4.now, hdr ++ toLe 2 fr.fit.wb⟩
       else s4.logPut ⟨6, false, s4.now, hdr ++ toLe 2 fr.fit.wb ++ px.flatMap pixBytes⟩)
    else s4
  let s6 := s5.replayCrc fr.num y crc
  let fr' := { fr with next := y + 1, crcs := fr.crcs ++ [crc], lastRow := px,
                       replaced := if q.2.1 = 0 then fr.replaced else fr.replaced ++ [y] }
  let s7 := s6.onInp fun i => { i with lastWritten := some fr.num }
  if y + 1 = fr.fit.hb then s7.frameDone fr' else s7.onInp fun i => { i with fr := some fr' }

/-- The lines that the next line reads are present at stage 8 (R101). -/
def State.lineReady (s : State) (fr : InFrame) : Bool :=
  match fr.src with
  | .port =>
    let pic := s.framePic fr
    pic.ended || (bucketReads fr.geo fr.fit (s.getF F.INP_BLANK_CFG_PAD_EDGE == 1) pic fr.next).all fun y =>
      decide (pic.h ≤ y) || pic.rows.any fun e => e.1 == y
  | _ => true

/-- STAGE10_LINE_WRITE: the next line, once it is ready and every line above it is written (R101). -/
def State.stage10 (s : State) : State :=
  match s.inp.fr with
  | none => s
  | some fr => if s.lineReady fr then s.writeLine fr else s

/-- The frame in progress ends: the lines that never arrived are corrupt, and the rest are written (R87, R98). -/
def State.flushFrame : Nat → State → State
  | 0, s => s
  | n + 1, s =>
    match s.inp.fr with
    | none => s
    | some fr => State.flushFrame n (s.writeLine fr)

/-! ### Frame starts -/

/-- The geometry registers' shadows (R93). -/
def State.shadowGeo (s : State) : Geo where
  mode := if s.getF F.INP_MODE_MODE = 3 then 0 else s.getF F.INP_MODE_MODE
  gfx1 := s.getF F.INP_MODE_GFX1 == 1
  x0 := s.getF F.INP_CROP_XY_X0
  y0 := s.getF F.INP_CROP_XY_Y0
  cw := s.getF F.INP_CROP_WH_CW
  ch := s.getF F.INP_CROP_WH_CH
  hflip := s.getF F.INP_XFORM_HFLIP == 1
  vflip := s.getF F.INP_XFORM_VFLIP == 1
  rot := s.getF F.INP_XFORM_ROT
  rnH := s.getF F.INP_XFORM_RN_H
  rnV := s.getF F.INP_XFORM_RN_V

/-- The halves of a pair match (R80): height, encoding, bits per component, frame periods within 0.1 %,
and at most 16 lines of skew. DESIGN CHOICE (log entry 78): the 0.1 % is of the smaller of the two periods. -/
def State.pairMatches (s : State) (skew : Nat) : Bool :=
  let eq (f : Nat → Fld) : Bool := s.getF (f 0) == s.getF (f 1)
  let p0 := s.getF (F.INP_PORT_PERIOD_PERIOD 0)
  let p1 := s.getF (F.INP_PORT_PERIOD_PERIOD 1)
  eq F.INP_PORT_GEOM_SRC_H && eq F.INP_PORT_STATUS_ENC && eq F.INP_PORT_STATUS_BPC &&
  decide ((max p0 p1 - min p0 p1) * 1000 ≤ min p0 p1) && decide (skew ≤ 16)

/-- The crop of R90 leaves nothing of the picture that the ports of a geometry report (R77, R82, R93). -/
def State.emptyCrop (s : State) (g : Geo) : Bool :=
  let w := ((geoPorts g).map fun n => s.getF (F.INP_PORT_GEOM_SRC_W n)).foldl (· + ·) 0
  let h := s.getF (F.INP_PORT_GEOM_SRC_H ((geoPorts g).headD 0))
  let c := geoCropSize g { w := w, h := h }
  decide (w ≠ 0) && decide (h ≠ 0) && (decide (c.1 = 0) || decide (c.2 = 0))

/-- APPLY_SHADOWS (R93): at the first input frame start with GO set. -/
def State.applyShadows (s : State) : State :=
  if s.seenF F.INP_APPLY_GO = 1 then
    let g := s.shadowGeo
    let sw := geoPorts g != geoPorts s.inp.geo
    let s1 := (s.yieldF F.INP_APPLY_GO 0).onInp fun i => { i with geo := g }
    if sw then
      (s1.onInp fun i => { i with
        switching := true, cur := none, pairStarted := [], cropZero := s1.emptyCrop g
        pairBad := if g.mode = 2 ∧ !s1.pairMatches 0 then 1 else 0 }).noteNoSignal
    else s1
  else s

/-- The MODE that came into use between `s` and `t` selects another port or pair (R93). -/
def State.switched (s t : State) : Bool := geoPorts t.inp.geo != geoPorts s.inp.geo

/-- The frame that leaves stage 7 as another one starts (R71, R92): the one received before it, if stage 7 takes it and the input has not
lost its signal since. With stage 7 turned off in between it does not leave (DESIGN CHOICE, log entry 75). -/
def State.delayed (s : State) : Option SrcFrame :=
  if s.inp.cut ∨ s.inp.cropZero ∨ !geoStage7 s.inp.curGeo then none else s.inp.cur

/-- A frame of the selected input enters stage 2 (R71, R93, R92): its attributes, and the cause of a line that never arrives. -/
def State.pipelineStart (s : State) (a : SrcAttr) (miss : Nat) : State :=
  let s0 := s.onInp fun i => { i with cur := i.cur.map fun c => { c with ended := true } }
  let s1 := State.flushFrame 8192 s0
  let s2 := s1.applyShadows
  if s1.switched s2 then s2     -- this frame is not passed to stage 2 (R93)
  else
    let cur : SrcFrame := { w := a.w, h := a.h, enc := a.enc, bpc := a.bpc, encrypted := a.encrypted, miss := miss }
    let g := s2.inp.geo
    let s3 := s2.onInp fun i => { i with switching := false, cur := some cur, curGeo := g, cut := false }
    let c := geoCropSize g cur
    if c.1 = 0 ∨ c.2 = 0 then
      (s3.setF F.INP_PPS_REJECTS_NOSIG_CAUSE 7).onInp fun i => { i with cropZero := true }
    else
      let s4 := s3.onInp fun i => { i with cropZero := false }
      if geoStage7 g then
        match s2.delayed with
        | some p => s4.stage8 p s2.inp.curGeo
        | none => s4
      else s4.stage8 cur g

/-- The frame that ends on a port, `h` lines high, has arrived in full (R82). -/
def portArrived (p : PortSt) (h : Nat) : Bool := p.full && decide (h ≤ p.nextY)

/-- SIGNAL_RESTORED (R82): the wait for one full frame with the conditions clear; `h` is the height of the frame that ends.
True when the port passes the frame that starts now. -/
def State.proveSignal (s : State) (n h : Nat) : State × Bool :=
  let p := s.port n
  if portLost p then (s, false)
  else if s.getF (F.INP_PORT_STATUS_SIGNAL n) = 1 then (s, true)
  else if p.proving ∧ portArrived p h then
    ((s.setF (F.INP_PORT_STATUS_SIGNAL n) 1).onPort n fun q => { q with proving := false }, true)
  else (s.onPort n fun q => { q with proving := true }, false)

/-- The cause of a line whose half on port n is missing (R87, R97): DSC short data on a DSC half, else missing from the window. -/
def State.halfCause (s : State) (n : Nat) : Nat := if s.getF (F.INP_PORT_STATUS_DSC n) = 1 then 3 else 4

/-- A line reaches the joined frame. -/
def State.joinLine (s : State) (y : Nat) (r : InRow) : State :=
  s.onInp fun i => { i with cur := i.cur.map fun c =>
    let rows := SMap.put c.rows y r
    { c with rows := rows, ended := decide (c.h ≤ rows.length) } }

/-- The lines of the old frame that wait on port n for their other half are corrupt (R81, R97); `started` lists the ports that have started
the next frame, whose lines stay. -/
def State.joinRest (started : List Nat) (s : State) (n : Nat) : State :=
  let p := s.port n
  let old (e : Nat × InRow) : Bool := !started.contains n || decide (p.nextY ≤ e.1)
  let s1 := (p.rows.filter old).foldl (fun s e => s.joinLine e.1 ⟨lowestCause [e.2.cause, s.halfCause (1 - n)], []⟩) s
  s1.onPort n fun p => { p with rows := p.rows.filter fun e => !old e }

/-- Port n's start makes the second half of a pair (R80): the joined frame starts, or the pair is no signal until a frame of both halves has
arrived in full. A half that started too long ago is given up, and the one that starts now waits for its other. -/
def State.pairStart (s : State) (n skew : Nat) (a0 : SrcAttr) : State :=
  let s1 := ((s.joinRest [0, 1] 0).joinRest [0, 1] 1).onInp fun i => { i with pairStarted := if 16 < skew then [n] else [] }
  if s1.pairMatches skew then
    if s1.inp.pairBad = 1 then s1.onInp fun i => { i with pairBad := 2 }
    else if s1.inp.pairBad = 2 ∧ !((s1.port 0).was && (s1.port 1).was) then s1
    else
      (s1.onInp fun i => { i with pairBad := 0 }).pipelineStart
        { a0 with w := s1.getF (F.INP_PORT_GEOM_SRC_W 0) + s1.getF (F.INP_PORT_GEOM_SRC_W 1)
                  encrypted := s1.getF (F.INP_PORT_STATUS_ENCRYPTED 0) == 1 || s1.getF (F.INP_PORT_STATUS_ENCRYPTED 1) == 1 }
        (min (s1.halfCause 0) (s1.halfCause 1))
  else ((s1.setF F.INP_PPS_REJECTS_NOSIG_CAUSE 6).onInp fun i => { i with pairBad := 1 }).cutInput

/-- What a source frame's attributes give for the frame: its active size is the held PPS's when DSC is active (R77). -/
def State.activeAttr (s : State) (n : Nat) (a : SrcAttr) : SrcAttr :=
  match a.dsc, (s.port n).pps with
  | true, some p => { a with w := p.w, h := p.h }
  | _, _ => a

/-- A port reports a frame start (R76 to R78): its registers, and the conditions that a frame start
clears or sets; a frame marked as encrypted without authentication is R82's HDCP condition. -/
def State.portFrame (s : State) (n : Nat) (a : SrcAttr) : State :=
  let s1 := s.setFs [(F.INP_PORT_GEOM_SRC_W n, a.w), (F.INP_PORT_GEOM_SRC_H n, a.h), (F.INP_PORT_STATUS_ENC n, a.enc),
    (F.INP_PORT_STATUS_BPC n, a.bpc), (F.INP_PORT_STATUS_DSC n, b2n a.dsc), (F.INP_PORT_STATUS_ENCRYPTED n, b2n a.encrypted)]
  let s2 := match (s.port n).lastStart with
    | some t => s1.setF (F.INP_PORT_PERIOD_PERIOD n) (s.now - t)
    | none => s1
  let open_ := a.encrypted && s1.getF (F.INP_PORT_STATUS_AUTH n) == 0
  (s2.onPort n fun p =>
    { p with lastStart := some s.now, lossVb := false, lossSize := a.w == 0 || a.h == 0, lossHdcp := open_ }).signalCheck n

/-- A port's line counters start again with its frame, the last `h` lines high. -/
def State.portRestart (s : State) (n h : Nat) : State :=
  s.onPort n fun p => { p with nextY := 0, full := true, was := portArrived p h }

/-- The frame start reaches the selected input (R78, R80, R93). -/
def State.inputStart (s : State) (n : Nat) (a : SrcAttr) : State :=
  if s.inp.geo.mode = 2 then
    if s.inp.pairStarted.contains (1 - n) then s.pairStart n (s.port (1 - n)).nextY a
    else if s.inp.pairStarted.contains n then s.pairStart n 17 a
    else s.onInp fun i => { i with pairStarted := [n] }
  else s.pipelineStart a (if a.dsc then 3 else 2)

/-! ### Lines -/

/-- The joiner (R80, R81): halves of equal line number meet; a line whose other half does not arrive
within 16 lines is corrupt as a whole. -/
def State.joinHalves (s : State) (n y : Nat) : State :=
  ((s.port n).rows.filter fun e => decide (e.1 ≤ y)).foldl (fun s e =>
    let k := e.1
    let drop (s : State) : State := (s.onPort 0 fun p => { p with rows := SMap.del p.rows k }).onPort 1 fun p =>
      { p with rows := SMap.del p.rows k }
    match (s.port (1 - n)).rows.find? fun o => o.1 == k with
    | some o =>
      let l := if n = 0 then e.2 else o.2
      let r := if n = 0 then o.2 else e.2
      (drop s).joinLine k ⟨lowestCause [l.cause, r.cause], l.px ++ r.px⟩
    | none => if k + 16 < y then (drop s).joinLine k ⟨lowestCause [e.2.cause, s.halfCause (1 - n)], []⟩ else s) s

/-- A source line as the port delivers it (R89, R97): the unpacked pixels and the lowest cause. DSC at HBR3 requires FEC (R72): without
it the line's slices are not decoded (DESIGN CHOICE, log entry 85). -/
def State.portLine (s : State) (n y : Nat) (l : SrcLine) (causes : List Nat) : InRow × SrcLine :=
  let enc := s.getF (F.INP_PORT_STATUS_ENC n)
  let chroma := if enc = 3 ∧ y % 2 = 1 then (s.port n).chroma else l
  let bad := if l.c0.length = s.getF (F.INP_PORT_GEOM_SRC_W n) then [] else [2]
  let noFec := s.getF (F.INP_PORT_STATUS_DSC n) = 1 ∧ s.getF (F.INP_PORT_STATUS_RATE n) = 0 ∧ !s.fecReady n
  (⟨lowestCause (bad ++ (if noFec then [3] else []) ++ causes.filter fun c => c == 1 || c == 3 || c == 5),
    unpackLine enc (s.getF (F.INP_PORT_STATUS_BPC n)) l chroma⟩, chroma)

/-- Line y has arrived on a port: what R82 and the skew of R80 count, and the chroma that the next line may share. -/
def State.countLine (s : State) (n y : Nat) (chroma : SrcLine) : State :=
  s.onPort n fun p => { p with full := p.full && decide (y ≤ p.nextY), nextY := max p.nextY (y + 1), chroma := chroma }

/-- The joiner passes lines of port n (R80): the pair is a valid input, and the line belongs to the joined frame being received. -/
def State.joins (s : State) (n : Nat) : Bool :=
  s.inp.pairBad == 0 && s.getF (F.INP_PORT_STATUS_SIGNAL 0) == 1 && s.getF (F.INP_PORT_STATUS_SIGNAL 1) == 1 && !s.inp.pairStarted.contains n

/-- INPUT_LINE for the picture path (R71 stages 1 to 3). -/
def State.pictureLine (s : State) (n y : Nat) (l : SrcLine) (causes : List Nat) : State :=
  let q := s.portLine n y l causes
  let s1 := s.countLine n y q.2
  if s.getF (F.INP_PORT_STATUS_SIGNAL n) = 0 ∨ !(geoPorts s.inp.geo).contains n then s1
  else if s.inp.geo.mode = 2 then
    let s2 := s1.onPort n fun p => { p with rows := SMap.put p.rows y q.1 }
    if s2.joins n then s2.joinHalves n y else s2
  else s1.joinLine y q.1

/-! ### The blank path (R83) -/

/-- HOLD of R84; 9 to 15 act as 8. -/
def State.blankHold (s : State) : Nat := min 8 (s.getF F.INP_BLANK_CFG_HOLD)

/-- When the blank path supplies its next frame (R83): a measured period after the last start, or once
per output frame where none is measured; none when it is not due. -/
def State.blankDue (s : State) : Option Nat :=
  if !s.zeroSized then none
  else match s.inp.period with
    | some p => some (s.inp.lastStart + p)
    | none => if s.inp.blankFrame = some s.cal.frame ∨ !s.cal.running then none else some s.now

/-- BLANK_PATH_FRAME (R83): a repeated frame while fewer than HOLD have been supplied and a port's frame
can be repeated, else black. It is an input frame start for the shadows (R93, log entry 9): where they select an input that delivers a
picture, that input's own frame start is the next one. -/
def State.blankPath (s : State) : State :=
  match s.blankDue with
  | none => s
  | some t =>
    let s0 := s.waitUntil t
    let s1 := State.flushFrame 8192 (if s0.inp.geo.mode = 2 then
      (s0.joinRest s0.inp.pairStarted 0).joinRest s0.inp.pairStarted 1 else s0)
    let s2 := s1.applyShadows
    if s1.switched s2 ∧ !s2.zeroSized then s2
    else
    let held := match s2.inp.lastPortFrame with
      | some j => if s2.inp.blank < s2.blankHold then s2.histSlot j else none
      | none => none
    let src : FrameSrc := if held.isSome then .blankHeld else .blankBlack
    let enc := match held with | some k => (s2.hist.getD k {}).encrypted | none => false
    let s3 := s2.incF (if held.isSome then F.INP_BLANK_CNT_BLANK_HELD else F.INP_BLANK_CNT_BLANK_BLACK) 1
    let s4 := s3.onInp fun i =>
      { i with blank := i.blank + 1, lastPort := none, blankActive := true, blankFrame := some s.cal.frame }
    let fit := match held with | some k => (s4.hist.getD k {}).fit | none => s4.inp.fit
    s4.beginFrame src fit s4.inp.geo {} enc

end Sys2Proof.Machine
end

