-- ==== Sys2Proof/Machine/Fault.lean ====
section
/-! DEFINITION. Core faults (R165 to R168), abandonment and re-entry of line clauses (R65, R166, R251),
failed frame-clause runs, and the semaphore protocol of abandoned items (R243, R244). -/
namespace Sys2Proof.Machine

/-- Change a core's thread. -/
def State.onThread (s : State) (p t : Nat) (f : Thread → Thread) : State :=
  s.onCore p fun c => { c with threads := c.threads.modify t f }
/-- STATE of a thread in CORE_THREAD (R169): two bits per thread. -/
def State.setThreadState (s : State) (p t v : Nat) : State :=
  let x := s.getF (F.CORE_THREAD_STATE p)
  s.setF (F.CORE_THREAD_STATE p) (x - bits x (2 * t) 2 * 4 ^ t + v % 4 * 4 ^ t)
/-- STATE of a thread. -/
def State.threadState (s : State) (p t : Nat) : Nat := bits (s.getF (F.CORE_THREAD_STATE p)) (2 * t) 2

/-- The clause that a thread carries is a line clause: thread 0, or thread 1 of a threaded line clause
(R159). -/
def State.isLineThread (s : State) (p t : Nat) : Bool :=
  t == 0 || (t == 1 && s.getF (F.CORE_THREAD_LINE_THREADED p) == 1)

/-- Thread 3 holds a Drizzle step that is not waiting: the core's other frame-clause threads are suspended (R343). -/
def State.drzHolds (s : State) (p : Nat) : Bool :=
  let h := (s.core p).threads.getD 3 {}
  h.clause.isSome && h.clause == s.sched.drzClause && h.wait == .none

/-- A frame-clause thread is suspended: outside its window (R161), or by a Drizzle step (R343). -/
def State.suspended (s : State) (p t : Nat) : Bool :=
  !s.isLineThread p t && (s.getF (F.CORE_THREAD_FWIN p) == 0 || (t != 3 && s.drzHolds p))

/-- STATE of the frame-clause threads that hold a clause (R161, R169, R343): suspended, issuing or waiting. -/
def State.frameThreads (s : State) (p : Nat) : State :=
  s.each 4 fun s t =>
    let h := (s.core p).threads.getD t {}
    if s.isLineThread p t ∨ h.clause.isNone then s
    else s.setThreadState p t (if s.suspended p t then 3 else if h.wait = .none then 1 else 2)

/-- A thread starts to wait (STATE 2) or goes on (STATE 1); a suspended one stays so (STATE 3, R161). With thread 3 a Drizzle step
waits or goes on (R343). -/
def State.setWait (s : State) (p t : Nat) (w : Wait) : State :=
  let s1 := s.onThread p t fun h => { h with wait := w }
  let s2 := s1.setThreadState p t (if s1.suspended p t then 3 else if w = .none then 1 else 2)
  if t = 3 then s2.frameThreads p else s2

/-! ### Semaphores (R242 to R245) -/

/-- SEM_WAIT of a descriptor: the local semaphore, when enabled (R234). -/
def semWait (d : List Byte) : Option Nat := if bit (leAt d 17 1) 6 then some (bits (leAt d 17 1) 0 6) else none

/-- An engine's wait on semaphore i is satisfied: the descriptor that waits, the first that has not begun, goes on (R243). -/
def engProceeds (g : Eng) : Eng :=
  { g with waitSem := none
           run := g.run.map fun r => { r with buf := match r.buf.findIdx? fun d => !d.began with
             | some k => r.buf.modify k fun d => { d with waited := true }
             | none => r.buf } }

/-- A wait takes the oldest item of a full semaphore. A line-clause wait satisfied by a VOID item makes the
consumer take source 2 or 3 for its output line and the warm-up depth after it (R245), with LAST_CAUSE 2,
or 4 for a dropped item (R267). -/
def State.takeItem (s : State) (p i : Nat) (line : Bool) : State :=
  match SMap.get [] (s.core p).items i with
  | [] => s
  | it :: rest =>
    let clause := ((s.core p).threads.getD 0 {}).clause.getD 0
    let w := ((s.sched.clause clause).map (·.warmup)).getD 0
    s.onCore p fun c => { c with
      items := SMap.set [] c.items i rest
      voids := if it.void ∧ line then ⟨it.line, w, it.src, if it.dropped then 4 else 2⟩ :: c.voids else c.voids }

/-- A wait on semaphore i proceeds: COUNT decrements (R243). `who` is the thread, or 4 more than the engine. -/
def State.semTake (s : State) (p who i : Nat) (line : Bool) : State :=
  ((s.setF (F.CORE_SEM_COUNT p i) (s.getF (F.CORE_SEM_COUNT p i) - 1)).takeItem p i line).onCore p fun c =>
    { c with semTook := (s.now + 1, (i, who) :: (if c.semTook.1 = s.now + 1 then c.semTook.2 else [])) }

/-- Waits on a semaphore that this cycle has satisfied already: a signal of the same cycle comes before them (R243). -/
def tookNow (c : CoreSt) (now i : Nat) : List Nat :=
  if c.semTook.1 = now + 1 then (c.semTook.2.filter fun e => e.1 == i).map (·.2) else []

/-- Waits on semaphore i that a positive COUNT satisfies: threads first, then engines (R243). -/
def State.serveWaits (s : State) (p i : Nat) : State :=
  let threads := (List.range 4).foldl (fun s t =>
    if ((s.core p).threads.getD t {}).wait = .sem i ∧ 0 < s.getF (F.CORE_SEM_COUNT p i) then
      ((s.semTake p t i (s.isLineThread p t)).setWait p t .none).occupy p t (.issue t) 1
    else s) s
  (List.range 8).foldl (fun s e =>
    if ((s.core p).eng.getD e {}).waitSem = some i ∧ 0 < s.getF (F.CORE_SEM_COUNT p i) then
      (s.semTake p (4 + e) i (decide (e < 4))).onCore p fun c => { c with eng := c.eng.modify e engProceeds }
    else s) threads

/-- COUNT increments up to CAP; a signal beyond CAP counts in OVERFLOWS and its item is lost (R243). A wait of the same cycle is
tested after the signal, so the places that it freed do not count. -/
def State.bumpSem (s : State) (p i : Nat) (it : Item) : State :=
  let c := s.getF (F.CORE_SEM_COUNT p i)
  if c + (tookNow (s.core p) s.now i).length < s.getF (F.CORE_SEM_CAP p i) then
    ((s.setF (F.CORE_SEM_COUNT p i) (c + 1)).onCore p fun k =>
      if s.getF (F.CORE_SEM_KIND p i) = 0 then
        { k with items := SMap.set [] k.items i (SMap.get [] k.items i ++ [it]) }
      else k).serveWaits p i
  else s.incF (F.CORE_SEM_ERR_OVERFLOWS p) 1

/-- Issue a signal to semaphore `sem` of logical core `core` from physical core `from_`: it arrives after the
path of R262, one to another band 20 cycles after its remote slot. -/
def State.sendSignal (s : State) (from_ thread core sem : Nat) (it : Item) : State :=
  let d := s.phys core
  let path := if d = from_ then 0 else if bandOf d = bandOf from_ then 4 else 20
  { s with signals := s.signals ++ [{ core := core, sem := sem, due := s.now + path, sender := from_, thread := thread,
                                      beats := b2n (bandOf d != bandOf from_), item := it }] }

/-- The ring pronoun of a reference that core p owes to band b (R225): its own table's in its own band; else the band's table's, or,
where that one is no ring, that of the band's first core. -/
def State.ringPrn (s : State) (p b n : Nat) : Prn :=
  if bandOf p = b ∧ (s.prn p n).place = 2 then s.prn p n
  else if (s.bprn b n).place = 2 then s.bprn b n
  else s.prn (s.phys (8 * b)) n

/-- An abandoning core completes the protocol of its items (R244) and releases its lines (R225). -/
def State.settle (s : State) (p : Nat) : List Owed → State
  | [] => s
  | .produced dst sem line :: t =>
    (s.sendSignal p 0 dst sem { void := true, src := (s.logical p).getD 0, line := line }).settle p t
  | .consumed full src empty :: t =>
    let c := s.getF (F.CORE_SEM_COUNT p full)
    let s1 := if 0 < c then
        ((s.setF (F.CORE_SEM_COUNT p full) (c - 1)).onCore p fun k =>
          { k with items := SMap.set [] k.items full (SMap.get [] k.items full).tail }).sendSignal p 0 src empty
            { src := (s.logical p).getD 0 }
      else (s.incF (F.CORE_SEM_DEBT p full) 1).onCore p fun k =>
        { k with debts := SMap.set [] k.debts full (SMap.get [] k.debts full ++ [(src, empty)]) }
    s1.settle p t
  | .release b n y :: t => (s.lsRelease b (s.ringPrn p b n) y).settle p t

/-! ### Abandonment (R65, R166, R251) -/

/-- An engine stops after an abandonment: positions and pending lists are discarded, and its counters
take LANDED once its outstanding transfers are complete (R240, R251). -/
def State.stopEngine (s : State) (p e : Nat) : State :=
  let g := (s.core p).eng.getD e {}
  let a := coreEng p e
  let s1 := s.setF (F.ENG_STATE_PENDING a) 0
  if g.outst = [] then
    ((s1.onCore p fun c => { c with eng := c.eng.set e {} }).setF (F.ENG_STATE_STATE a) 0).setF
      (F.ENG_TILES_CONSUMED a) (s1.getF (F.ENG_TILES_LANDED a))
  else
    (s1.onCore p fun c => { c with eng := c.eng.modify e fun g =>
      { g with pend := none, stopping := true, settle := true } }).setF (F.ENG_STATE_STATE a) 3

/-- The clause a thread carries: its own, or for thread 1 of a threaded line clause, thread 0's. -/
def State.threadClause (s : State) (p t : Nat) : Option Nat :=
  ((s.core p).threads.getD t {}).clause

/-- Line (f, y) comes before line (g, z). -/
def lineBefore (f y g z : Nat) : Bool := decide (frameDiff f g < 0) || (f == g && decide (y < z))

/-- The first line of a clause that a core holds in flight; `d` where it holds none. -/
def firstInFlight (c : CoreSt) (clause : Nat) (d : Nat × Nat) : Nat × Nat :=
  let l := c.lines.filter fun x => x.clause == clause && !x.complete
  match l with
  | [] => d
  | x :: xs => xs.foldl (fun m x => if lineBefore x.frame x.y m.1 m.2 then (x.frame, x.y) else m) (x.frame, x.y)

/-- A core's line-clause threads that carry a clause (R159). -/
def State.lineThreads (s : State) (p clause : Nat) : List Nat :=
  (List.range 4).filter fun t => s.isLineThread p t && s.threadClause p t == some clause

/-- Abandon every line of a clause that a core holds in flight (R65): it drains, and restarts at the next
start slot still to come; `cause` is what its misses record, `from_` the first line that takes source 2 or 3. Lists on its
line-class engines stop (R240, R251). Its threads' accumulators keep the sums that the abandoned steps left (DESIGN CHOICE, log entry 64). -/
def State.abandon (s : State) (p clause cause : Nat) (from_ : Nat × Nat) (owed : List Owed) : State :=
  let w := ((s.sched.clause clause).map (·.warmup)).getD 0
  let ts := s.lineThreads p clause
  let s1 := s.onCore p fun c =>
    let old := c.reentry.find? fun r => r.clause == clause
    let f := (old.map fun r => (r.fromFrame, r.fromY)).getD from_
    { c with lines := c.lines.filter fun l => l.clause != clause
             sufRows := c.sufRows.filter fun r => r.clause != clause
             progress := c.progress.filter fun e => !ts.contains e.1.1
             reentry := { clause := clause, fromFrame := f.1, fromY := f.2, drained := ts == [], warm := w, cause := cause } ::
               c.reentry.filter fun r => r.clause != clause }
  let s2 := ts.foldl (fun s t => s.setWait p t .none) (s1.settle p owed)
  if ts = [] then s2 else (List.range 4).foldl (fun s e => s.stopEngine p e) s2

/-- A miss cause of a core (R70): the lowest non-zero value where several apply to one miss. -/
def State.recordCause (s : State) (p cause : Nat) : State := s.setF (F.CORE_LINE_MISS_LAST_CAUSE p) cause

/-- Members of a barrier group that take part: neither gated nor without a logical number. -/
def State.barrierMembers (s : State) (g : Nat) : List Nat :=
  (List.range s.nCores).filter fun l => bit (s.sched.barriers.getD g 0) l && s.role (s.phys l) != 3

/-- Barrier group `g` with a core's arrival; the last one fixes when the barrier completes (R278). -/
def barrierWith (b : BarrierSt) (members : List Nat) (now l : Nat) : BarrierSt :=
  let arr := SMap.set 0 b.arrived l (SMap.get 0 b.arrived l + 1)
  { b with arrived := arr
           lastAt := if members.all fun m => SMap.get 0 arr m != 0 then some (b.lastAt.getD now) else none }

/-- A core arrives at barrier group g; an arrival that a failed run has made already is not made again. -/
def State.arriveBarrier (s : State) (l g : Nat) : State :=
  let b := SMap.get ({} : BarrierSt) s.fab.barriers g
  let b1 := if SMap.get 0 b.ahead l = 0 then barrierWith b (s.barrierMembers g) s.now l
    else { b with ahead := SMap.set 0 b.ahead l (SMap.get 0 b.ahead l - 1) }
  { s with fab := { s.fab with barriers := SMap.set ({} : BarrierSt) s.fab.barriers g b1 } }

/-- A thread that carries a clause waits at barrier group g. -/
def State.waitsAt (s : State) (clause g : Nat) : Bool :=
  (List.range s.nCores).any fun l => (s.core (s.phys l)).threads.any fun t => t.clause == some clause && t.wait == .barrier g

/-- The cores of a failed run arrive at once at the barriers at which its threads wait (R278). -/
def State.barriersFail (s : State) (clause : Nat) : State :=
  s.each 8 fun s g =>
    if !s.waitsAt clause g then s
    else
      let ms := s.barrierMembers g
      let b := SMap.get ({} : BarrierSt) s.fab.barriers g
      let late := ms.filter fun m => SMap.get 0 b.arrived m == 0
      let b1 := late.foldl (fun b l => { barrierWith b ms s.now l with ahead := SMap.set 0 b.ahead l (SMap.get 0 b.ahead l + 1) }) b
      { s with fab := { s.fab with barriers := SMap.set ({} : BarrierSt) s.fab.barriers g b1 } }

/-- A frame-clause run that has failed is over once no core works on it, and keeps its due point (R166, R298). -/
def State.runEnds (s : State) (i : Nat) : State :=
  match (s.fc.getD i {}).run, s.sched.frameClauses[i]? with
  | some r, some c =>
    if r.failed ∧ (List.range s.nCores).all fun l => r.cores.contains l ||
        !((s.core (s.phys l)).threads.any fun t => t.clause == some c.id) then
      { s with fc := s.fc.modify i fun f => { f with run := none, dues := r.due :: f.dues } }
    else s
  | _, _ => s

/-- The run in progress of frame clause number `i` fails (R166); one that has finished and waits for its swap does not. -/
def State.failIndex (s : State) (i : Nat) : State :=
  match (s.fc.getD i {}).run with
  | none => s
  | some r =>
    if s.runFinished i r then s
    else
      let s1 : State := { s with fc := s.fc.modify i fun f => { f with run := some { r with failed := true } } }
      match s.sched.frameClauses[i]? with
      | some c => (s1.barriersFail c.id).runEnds i
      | none => s1

/-- A frame clause's current output fails device-wide (R166): the run ends in every band. -/
def State.failRun (s : State) (clause : Nat) : State :=
  match s.sched.fcIndex clause with
  | none => s
  | some i => s.failIndex i

/-- CORE_FAULT (R165, R166, R168): several faults of one cycle record the lowest code and count once each. -/
def State.coreFault (s : State) (p t layer line : Nat) (codes : List Nat) (owed : List Owed) : State :=
  match codes with
  | [] => s
  | c :: cs =>
    let code := cs.foldl min c
    let isLine := s.isLineThread p t
    let s1 := (s.setFs [(F.CORE_FAULT_CODE p, code), (F.CORE_FAULT_THREAD p, t), (F.CORE_FAULT_LAYER p, layer),
      (F.CORE_FAULT_AT_LINE p, if isLine then line else s.cal.line),
      (F.CORE_FAULT_AT_FRAME p, s.cal.frame)]).incF (F.CORE_FAULT_COUNT p) codes.length
    let clause := (s1.threadClause p t).getD 0
    if isLine ∧ s1.threadClause p t = none then
      ((List.range 4).foldl (fun s e => s.stopEngine p e) s1).recordCause p 3
    else if isLine then
      let k := if codes.any fun c => c != 7 then 6 else 3
      (s1.abandon p clause k (firstInFlight (s1.core p) clause (s1.cal.frame, line)) owed).recordCause p k
    else if codes.any fun c => c != 7 then s1.failRun clause
    else s1

/-! ### Scratchpad ECC (R207 to R213) -/

/-- The map-out unit of a core (R213). -/
def State.spadMapUnit (s : State) (p : Nat) : MapOut :=
  let c := s.core p
  ⟨c.tracker, c.refused, c.mapQ⟩
/-- Its state is written back: QUEUED shows the queue (R228). -/
def State.setSpadMap (s : State) (p : Nat) (m : MapOut) : State :=
  (s.onCore p fun c => { c with tracker := m.tracker, refused := m.refused, mapQ := m.queue }).setF (F.CORE_SPAD_MAP_QUEUED p) m.queue.length

/-- Words of one scratchpad read that were corrected: counted, recorded, and each row's read tracked (R213, R228). -/
def State.spadCorrected (s : State) (p : Nat) (ws : List Nat) : State :=
  let s1 := ws.foldl (fun s w => (s.incF (F.CORE_SPAD_ECC_CORRECTED p) 1).spadLast p w 0) s
  (ws.map (· / 4)).dedup.foldl (fun s row =>
    s.setSpadMap p ((s.spadMapUnit p).corrected 16 (ceLimit (s.getF (F.CORE_SPAD_CFG_CE_LIMIT p))) row)) s1

/-- A word of a scratchpad read was uncorrectable: counted, recorded, poisoned until written whole, and
its row queued (R209, R213). -/
def State.spadUncorr (s : State) (p w : Nat) : State :=
  let s1 := ((s.incF (F.CORE_SPAD_ECC_UNCORR p) 1).spadLast p w 1).onCore p fun c => { c with bad := SMap.set 0 c.bad w 1 }
  s1.setSpadMap p ((s1.spadMapUnit p).ask 16 (w / 4))

/-- Words of an access that read as uncorrectable: those met now and those already poisoned. -/
def State.ueWords (s : State) (p : Nat) (words : List Nat) (e : EccIn) : List Nat :=
  words.filter fun w => e.ue.contains w || SMap.get 0 (s.core p).bad w != 0

/-- ECC of one scratchpad read (R207, R209, R213): whether a word was corrected, and whether one was uncorrectable. -/
def State.spadRead (s : State) (p : Nat) (words : List Nat) (e : EccIn) : State × Bool × Bool :=
  let ue := s.ueWords p words e
  let ce := words.filter fun w => e.ce.contains w && !ue.contains w
  (ue.foldl (fun s w => s.spadUncorr p w) (if ce = [] then s else s.spadCorrected p ce), ce != [], ue != [])

/-- A correction stall (R208): issue and every pipeline stage of the core hold for 2 core cycles, charged to the lines in
flight (R210). A read in a cycle of its own (`alone`) stalls by itself; reads of one cycle share a stall. -/
def State.stallCorrect (s : State) (p : Nat) (alone : Bool) : State :=
  let c0 := s.core p
  if c0.stallFrom = some s.now ∧ !alone then s
  else
    let d := fabricCycles (s.clock p) 2
    s.onCore p fun c => { chargeLines c (chargeOf s.lp (s.clock p) 2) 0 with
      stallEcc := c.stallEcc + 2, stallFrom := some s.now, stallEnd := max c.stallEnd s.now + d
      pipe := c.pipe.map fun o => { o with due := o.due + d }
      sufRows := c.sufRows.map fun r => if s.now < r.ready then { r with ready := r.ready + d } else r
      loading := c.loading.map fun x => if s.now < x.2 then (x.1, x.2 + d) else x
      units := c.units.map fun u => if ticks * s.now < u.free then { u with free := u.free + coreTicks (s.clock p) 2 } else u }

/-- A foreground read of scratchpad words (R207 to R209). True when a word was uncorrectable. -/
def State.foreRead (s : State) (p : Nat) (words : List Nat) (e : EccIn) (alone : Bool) : State × Bool :=
  let r := s.spadRead p words e
  (if r.2.1 then r.1.stallCorrect p alone else r.1, r.2.2)

/-! ### Narrow reads (R205, R206) -/

/-- One narrow read inside a scratchpad row by accessor `u` of core `p` (R205): a row that the accessor's read staging row does
not hold costs one foreground access, which fills it. -/
def State.narrowRow (s : State) (p u a n : Nat) (e : EccIn) : List Byte × State × Bool :=
  match (s.core p).rstage.find? fun h => h.1 == u && h.2.row == a / 64 with
  | some (_, h) => ((h.bytes.drop (a % 64)).take n, s, false)
  | none =>
    let r := s.foreRead p (touchWords (a / 64 * 64) 64) e true
    let bs := foreBytes (r.1.core p) (a / 64 * 64) 64
    ((bs.drop (a % 64)).take n,
      r.1.onCore p fun c => { c with rstage := (u, ⟨a / 64, bs⟩) :: c.rstage.filter fun h => h.1 != u }, r.2)

/-- A narrow read of consecutive bytes, row by row. -/
def State.narrowFrom (s : State) (p u : Nat) (e : EccIn) : List (Nat × Nat) → List Byte × State × Bool
  | [] => ([], s, false)
  | (a, n) :: t =>
    let x := s.narrowRow p u a n e
    let y := x.2.1.narrowFrom p u e t
    (x.1 ++ y.1, y.2.1, x.2.2 || y.2.2)

/-- The parts of a byte range in each 64-byte row. -/
def rowParts (a n : Nat) : List (Nat × Nat) :=
  if n = 0 then []
  else (List.range ((a + n - 1) / 64 - a / 64 + 1)).map fun i =>
    let lo := max a (64 * (a / 64 + i))
    (lo, min (a + n) (64 * (a / 64 + i) + 64) - lo)

/-- A read by accessor `u` of core `p` under a PLACE: narrow in the scratchpad (R205). True where a word of it is
uncorrectable. -/
def State.narrowRead (s : State) (place p u a n : Nat) (e : EccIn) : List Byte × State × Bool :=
  if place = 1 then s.narrowFrom p u e (rowParts a n)
  else (s.readMem place (placeUnit place p) a n, s, s.memBad place (placeUnit place p) a n)

end Sys2Proof.Machine
end

