-- ==== Sys2Proof/Machine/Array.lean ====
section
/-! DEFINITION. The lookup-accumulate array, the requantiser and the two engines of a core (chapters 05
and 06): a step, the hand-off of an accumulation, pooling, row quantisation, and what is written. -/
namespace Sys2Proof.Machine

/-! ### Weights -/

/-- One four-bit code of an entry (R145, R147). -/
def cellNibble (c : CoreSt) (e i : Nat) : Nat := ((SMap.get [] c.tiles e).getD i 0)
/-- The weight code of a cell (R117): one entry, or two for eight-bit codes. -/
def cellCode (c : CoreSt) (big : Bool) (e i : Nat) : Nat :=
  if big then cellNibble c e i + 16 * cellNibble c (e + 1) i else cellNibble c e i
/-- Escaped weights of a tile that the layer's mask lets act (R118, R181). -/
def tileEscapes (c : CoreSt) (cb : Codebook) (m : MapRec) (e : Nat) : Nat :=
  ((List.range 4096).filter fun i => cellActive m (i / 64) (i % 64) && cellCode c cb.big e i == cb.escCode).length

/-- The weight-file entry that entry `e` of a layer selects: an adapter tile lies in the live bank
(R146). `a`, `t`: states A and T of the model set. -/
def liveEntry (d : LayerDesc) (a t bank e : Nat) : Nat := if d.adapt then a + bank * t + e else e

/-- The model set that the weight files hold: MSET_CUR, or from the opening of its window the new one (R301,
R303). -/
def State.msetIdx (s : State) : Nat :=
  if s.getF F.CAL_MSET_MSET_PEND = 1 then s.msetSample.getD (s.getF F.CAL_MSET_MSET_CUR) else s.getF F.CAL_MSET_MSET_CUR
/-- That model set. -/
def State.mset (s : State) : ModelSet := s.prog.msets.getD s.msetIdx default

/-- One step's effect on a bank (R119 to R122): every row's table meets the row's 64 cells, and the
correction lanes act. Events of columns beyond the chunk's `n` output channels do not count (R186). -/
def stepCompute (c : CoreSt) (cb : Codebook) (q : Int) (m : MapRec) (e n : Nat) (vals : List Frac)
    (esc : List EscEntry) (acc lanes : List Int) : List Int × List Int × Cnt :=
  let rows := (List.range 64).map fun r =>
    let t := productTable cb q (vals.getD r Frac.zero)
    let ws := (List.range 64).map fun k => cellCode c cb.big e (64 * r + k)
    let a := (List.range 64).map fun k => acc.getD (64 * r + k) 0
    let x := rowAdd t.1 (cellActive m r) 0 ws a
    (x.1, t.2.add { cell := (rowAdd t.1 (cellActive m r) 0 (ws.take n) (a.take n)).2 })
  let ls := (List.range 64).map fun k => lanes.getD k 0
  (rows.flatMap (·.1), (corrections vals q esc ls).1,
    (Cnt.all (rows.map (·.2))).add (corrections vals q (esc.filter fun x => decide (x.col < n)) ls).2)

/-! ### Histogram observation (R135) -/

/-- One observed element: source, layer, channel and key; units that count it add 1 to its bin. DESIGN CHOICE (log entry 65):
CHAN filters source 6 by the component, as it filters the channels of sources 1 to 3. -/
def State.observe (s : State) (p src layer chan : Nat) (key : Int) : State :=
  s.onCore p fun c => (List.range 4).foldl (fun c u =>
    let g := c.histCfg.getD u {}
    if g.en ∧ g.src = src ∧ g.layer = layer ∧ (src = 4 ∨ src = 5 ∨ g.allch ∨ g.chan = chan) then
      histCount c s.now (64 * u + histBin key g.lo g.shift)
    else c) c

/-- Observe several elements: channel and key. -/
def State.observeAll (s : State) (p src layer : Nat) (l : List (Nat × Int)) : State :=
  l.foldl (fun s e => s.observe p src layer e.1 e.2) s

/-! ### Output rows -/

/-- Where the outputs of an operation go: the accessor that writes them, the fabric cycles from now, or from the end of a correction
stall (R208), to their arrival, and the errors that the operation's accesses meet (R144, R205, R207). -/
structure OutPath where
  unit : Nat
  lat : Nat
  ecc : EccIn
  deriving DecidableEq, Repr, Inhabited

/-- The pronoun entry of a core as its image gives it (R184, R284). -/
def State.loadedPrn (s : State) (p n : Nat) : Prn :=
  Prn.parse (((s.sched.cores.getD ((s.logical p).getD 0) {}).prns).getD n [])

/-- A tensor's extent for a layer (R184): its entry's own for a DYN layer, else the one fixed at load. -/
def State.layerExtent (s : State) (p n : Nat) (dyn : Bool) : Nat × Nat :=
  let r := if dyn then s.prn p n else s.loadedPrn p n
  (r.lh, r.lw)

/-- One output sets out on its way to a layer's output tensor. -/
def State.emitAt (s : State) (p : Nat) (d : LayerDesc) (m : MapRec) (w : OutPath) (y x : Nat) (o : OutData) : State :=
  let e := s.layerExtent p d.outPrn m.dyn
  s.emitOut p ⟨max s.now (s.core p).stallEnd + w.lat, w.unit, d.outPrn, y, x, e.1, e.2, o, w.ecc.ce, w.ecc.ue⟩

/-- Emit one chunk of staging values at output position (y, x) (R130, R131), with what histogram units
observe (R135). -/
def State.emitRow (s : State) (p : Nat) (d : LayerDesc) (m : MapRec) (w : OutPath) (y x co : Nat) (hs : List Nat) : State :=
  let ch (i : Nat) : Nat := 64 * co + i
  let s1 := s.observeAll p 2 d.layer ((List.range hs.length).map fun i => (ch i, f16Key (hs.getD i 0)))
  if d.outFmt = 2 then s1.emitAt p d m w y x (.elems (64 * co) hs)
  else
    let q := quantise (SMap.get default (s.core p).cbs d.outCb) d.kOut d.rOut hs
    let s2 := (s1.observeAll p 3 d.layer ((List.range hs.length).map fun i => (ch i, ((q.1.codes.getD i 0 : Nat) : Int))))
    let s3 := (s2.observe p 4 d.layer 0 q.1.scale).observe p 5 d.layer 0 q.1.count
    (s3.countArith p q.2).emitAt p d m w y x (.row co q.1.codes q.1.tag q.1.side)

/-! ### Pooling (R129, R190, R191) -/

/-- Address of the partial of pooled position (py, px) and channel k in POOL_PRN (R191, R192): rotating lines of W_pool
positions of 64 × NCO partials of 8 bytes (DESIGN CHOICE, log entry 66). -/
def poolAddr (base : Nat) (d : LayerDesc) (m : MapRec) (wPool py px k : Nat) : Nat :=
  base + 8 * ((py % max 1 (ceilDiv m.poolH m.poolSh) * wPool + px) * (64 * ceilDiv d.outCh 64) + k)

/-- A binary16 value in units of 2⁻²⁴ (R191). -/
def f16Units (h : Nat) : Int := (f16Val h).num * 2 ^ 24 / (f16Val h).den
/-- The average of `n` values whose sum is given in units of 2⁻²⁴, rounded once (R129). -/
def f16AvgOf (sum : Int) (n : Nat) : Nat := f16Of (Frac.div ⟨sum, 2 ^ 24⟩ (Frac.ofInt n))

/-- A window's partial with the values of one output line added (R191): the greatest value so far, or the exact sum. -/
def poolAdd (pool : Nat) (old : Option Nat) (l : List Nat) : Nat :=
  if pool = 1 then f16Max ((old.toList) ++ l)
  else unsext 64 ((l.map f16Units).foldl (· + ·) ((old.map (sext 64)).getD 0))
/-- A complete window's value (R129, R191). -/
def poolDone (pool n partial_ : Nat) : Nat := if pool = 1 then partial_ else f16AvgOf (sext 64 partial_) n

/-- Windows of one axis that hold line or column `i` (R190). -/
def windowsOf (k st n i : Nat) : List Nat :=
  (List.range (i / max 1 st + 1)).filter fun q => decide (q * st ≤ i ∧ i < q * st + k ∧ q < n)

/-- One window line of pooled position (py, px): the values of the current output line enter the partial (R191). The first line
begins it, the last one completes it. -/
def State.poolPart (s : State) (p : Nat) (d : LayerDesc) (m : MapRec) (w : OutPath) (wPool y py px co : Nat)
    (vals : List (List Nat)) : State × Bool :=
  let a := poolAddr (s.prn p m.poolPrn).base d m wPool py px (64 * co)
  let n := vals.length
  let old := if y = py * m.poolSh then ([], s, false) else s.narrowRead 1 p w.unit a (8 * n) w.ecc
  if old.2.2 then (old.2.1, true)
  else
    let part (i : Nat) : Nat := poolAdd d.pool (if y = py * m.poolSh then none
      else some (if d.pool = 1 then leAt old.1 (8 * i) 2 else leAt old.1 (8 * i) 8)) (vals.getD i [])
    let ps := (List.range n).map part
    if y + 1 = py * m.poolSh + m.poolH then
      (old.2.1.emitRow p d m w py px co (ps.map (poolDone d.pool (m.poolH * m.poolW))), false)
    else (old.2.1.stageBytes p w.unit a (ps.flatMap (toLe 8)) w.ecc.ce w.ecc.ue, false)

/-- Staging values enter pooling, or go out directly (R129, R190, R191). A window lies wholly inside the
output extent (`out`: lines and columns). True where a partial reads as uncorrectable. -/
def State.poolRow (s : State) (p : Nat) (d : LayerDesc) (m : MapRec) (w : OutPath) (out : Int × Int) (y x co : Nat)
    (hs : List Nat) : State × Bool :=
  if d.pool = 0 then (s.emitRow p d m w y x co hs, false)
  else
    let hp := (poolExtent out.1 m.poolH m.poolSh).toNat
    let wp := (poolExtent out.2 m.poolW m.poolSw).toNat
    let s1 := s.onCore p fun c => { c with
      pool := ((d.layer, x, co), hs) :: c.pool.filter fun e => e.1 != (d.layer, x, co) }
    let val (xx i : Nat) : Nat :=
      ((((s1.core p).pool.find? fun e => e.1 == (d.layer, xx, co)).map (·.2)).getD []).getD i 0
    let r := ((windowsOf m.poolW m.poolSw wp x).filter fun px => x + 1 == px * m.poolSw + m.poolW).foldl (fun r px =>
      let vals := (List.range hs.length).map fun i => (List.range m.poolW).map fun b => val (px * m.poolSw + b) i
      (windowsOf m.poolH m.poolSh hp y).foldl (fun r py =>
        if r.2 then r
        else if m.poolH = 1 then (r.1.emitRow p d m w py px co (vals.map (poolWindow d.pool)), false)
        else r.1.poolPart p d m w wp y py px co vals) r) (s1, false)
    (if ((x + 1 : Nat) : Int) = out.2 then
      r.1.onCore p fun c => { c with pool := c.pool.filter fun e => !(e.1.1 == d.layer && e.1.2.2 == co) }
     else r.1, r.2)

/-! ### The requantiser (R124 to R132) -/

/-- BIAS and GAIN of `n` output channels from channel k on (R152), read by accessor `u`. True where a word is
uncorrectable. -/
def State.chanParams (s : State) (p prn k n : Nat) (w : OutPath) : List (Int × Nat) × State × Bool :=
  let r := s.prn p prn
  let b := s.narrowRead r.place p w.unit (r.base + 8 * k) (8 * n) w.ecc
  ((List.range n).map fun i => (sext 32 (leAt b.1 (8 * i) 4), leAt b.1 (8 * i + 4) 2), b.2.1, b.2.2)

/-- The partial sums read under PASS_IN (R124, R183). -/
def State.partials (s : State) (p : Nat) (d : LayerDesc) (w : OutPath) (oy ox co n : Nat) : List (Option Int) × State × Bool :=
  if d.passIn then
    let r := s.prn p d.psumPrn
    let b := s.narrowRead r.place p w.unit (r.posAddr 0 (r.padY oy) (r.padX ox) + 256 * co) (4 * n) w.ecc
    ((List.range n).map fun i => some (sext 32 (leAt b.1 (4 * i) 4)), b.2.1, b.2.2)
  else (List.replicate n none, s, false)

end Sys2Proof.Machine
namespace Sys2Proof
/-- Infinities and NaNs among the clamp limits that ACT 2 reads (R110, R128), once for each column vector (DESIGN CHOICE, log entry 67). -/
def LayerDesc.clampBad (d : LayerDesc) : Cnt := { badEsc := if d.act = 2 then f16Bad d.lo + f16Bad d.hi else 0 }
end Sys2Proof
namespace Sys2Proof.Machine

/-- Column sums of one chunk at an output position that is not discarded: totals, staging, activation,
pooling, output (R124 to R131, R186). True where a word that it reads is uncorrectable. -/
def State.requant (s : State) (p : Nat) (d : LayerDesc) (m : MapRec) (w : OutPath) (out : Int × Int) (oy ox co : Nat)
    (sums corr : List Int) : State × Bool :=
  let n := min 64 (d.outCh - 64 * co)
  let ps := s.partials p d w oy ox co n
  if ps.2.2 then (ps.2.1, true)
  else
    let ts := (List.range n).map fun i => columnTotal (sums.getD i 0) (corr.getD i 0) (ps.1.getD i none)
    let s1 := (ps.2.1.countArith p (Cnt.all (ts.map (·.2)))).observeAll p 1 d.layer
      ((List.range n).map fun i => (64 * co + i, (ts.getD i (0, {})).1))
    if d.outFmt = 3 then (s1.emitAt p d m w oy ox (.elems (64 * co) (ts.map fun t => unsext 32 t.1)), false)
    else
      let cp := s1.chanParams p d.chpPrn (64 * co) n w
      if cp.2.2 then (cp.2.1, true)
      else
        let hs := (List.range n).map fun i =>
          let c := cp.1.getD i (0, 0)
          let h := staging (ts.getD i (0, {})).1 c.1 d.q c.2
          (activation d.act d.leakK d.lo d.hi h.1, h.2)
        ((cp.2.1.countArith p (Cnt.all (hs.map (·.2)))).countArith p d.clampBad).poolRow p d m w out oy ox co (hs.map (·.1))

/-! ### Reading activations -/

/-- The values that a step's 64 array rows receive (R116, R141, R180), with their events. -/
def stepValues (cb : Codebook) (m : MapRec) (co : Nat) (row : QRow) : List Frac × Cnt :=
  let e := stepElems m co
  let vs := (List.range 64).map fun r =>
    if r < e.2 ∧ e.1 + r < row.codes.length then row.elem cb (e.1 + r) else (Frac.zero, {})
  (vs.map (·.1), Cnt.all (vs.map (·.2)))

/-- The scratchpad words that reading row g of a padded position touches, of a compressed line those of its LEN field and its row
(R194); none outside a scratchpad. -/
def State.rowWords (s : State) (p : Nat) (r : Prn) (y x g : Nat) : List Nat :=
  if r.place ≠ 1 then []
  else
    let row := x * r.nr + g
    let slot := r.lineAddr 0 y + row / 8 * r.zcSlot
    let lens := foreBytes (s.core p) slot 8
    let off := ((List.range (row % 8)).map fun i => 8 * byteAt lens i).foldl (· + ·) 0
    (if r.zc then touchWords slot 8 ++ touchWords (slot + 8 + off) (8 * byteAt lens (row % 8))
     else touchWords (r.posAddr 0 y x + g * 64 * formBits r.form / 8) (ceilDiv (min 64 (r.ch - 64 * g) * formBits r.form) 8)) ++
    touchWords (r.posAddr 1 y x + 4 * g) 4 ++ touchWords (r.posAddr 2 y x + 16 * g) 16

/-- A word lies in a far bank (R200). -/
def farWord (w : Nat) : Bool := decide (16 ≤ w / 4 % 32)

/-! ### What a step reads (R146, R184, R188) -/

/-- The live bank changes at the next boundary, as far as is known now (R351, R353, R354). -/
def State.bankChanges (s : State) : Bool :=
  (s.drz.reset && decide (s.drz.resetEnd ≤ s.now)) || s.drz.switched || (s.drz.on && s.getF F.DRZ_CTRL_EN == 1 && (match s.drz.commit with
    | some c => c.ready && decide (frameDiff c.due (s.cal.frame + 1) ≤ 0)
    | none => false))

/-- The line in flight of a line-clause thread's run line. -/
def State.lineOf (s : State) (p t line : Nat) : Option LineFl :=
  if s.isLineThread p t then
    (s.core p).lines.find? fun l => s.threadClause p t == some l.clause && l.y == line && !l.complete
  else none

/-- A run line belongs to the next output frame, started ahead of its boundary. -/
def State.aheadLine (s : State) (p t line : Nat) : Bool :=
  ((s.lineOf p t line).map fun l => decide (0 < frameDiff l.frame s.cal.frame)).getD false

/-- The adapter bank that a run line reads (R146): the one that it has read; a line of the next output frame, started ahead of its
boundary, reads the bank that becomes live there. -/
def State.adaptBank (s : State) (p t line : Nat) : Nat :=
  let b := s.getF (F.CORE_WFILE_ADAPT_BANK p)
  match (s.lineOf p t line).bind (·.bank) with
  | some k => k
  | none => if s.aheadLine p t line ∧ s.drz.ahead = some true then 1 - b else b

/-- The first step of a line of the next frame that reads an adapter tile fixes which bank that frame has (R146; DESIGN CHOICE, log entry
63): what becomes ready later waits for the boundary after. A line's first such step fixes the line's bank. -/
def State.fixBank (s : State) (p t line : Nat) (adapt : Bool) : State :=
  if !adapt ∨ (s.lineOf p t line).isNone then s
  else
    let s1 := if s.aheadLine p t line ∧ s.drz.ahead.isNone then
        ({ s with drz := { s.drz with ahead := some s.bankChanges } } : State)
      else s
    let b := s1.adaptBank p t line
    let own (l : LineFl) : Bool := s.threadClause p t == some l.clause && l.y == line && !l.complete && l.bank.isNone
    s1.onCore p fun c => { c with lines := c.lines.map fun l => if own l then { l with bank := some b } else l }

/-- Extents of a layer's run: conv lines and columns, from its input pronoun's logical extent (R184). -/
def State.runExtent (s : State) (p : Nat) (d : LayerDesc) (m : MapRec) : Int × Int :=
  let e := s.layerExtent p d.inPrn m.dyn
  m.convExtent e.1 e.2

/-- A layer writes its output tensor's extent; a Suffix layer has no output tensor. -/
def State.outExtent (s : State) (p : Nat) (d : LayerDesc) (h w : Nat) : State :=
  if d.engine = 2 then s else s.setExtent p d.outPrn h w

/-- The start of a run (R184, R188, R219): true when the layer issues nothing, and then it releases what `owed` names (R225). A
static layer that runs again after having been skipped has its output extent as loaded (DESIGN CHOICE, log entry 68). -/
def State.dynStart (s : State) (p : Nat) (d : LayerDesc) (m : MapRec) (owed : List Owed) : State × Bool :=
  let r := s.prn p d.inPrn
  if r.lh = 0 ∨ r.lw = 0 then (((s.outExtent p d 0 0).incF (F.CORE_MAP_CNT_SKIPPED p) 1).settle p owed, true)
  else if m.dyn then
    let o := m.outExtents (d.pool != 0) r.lh r.lw
    let c := m.convExtent r.lh r.lw
    if o.1 ≤ 0 ∨ o.2 ≤ 0 ∨ c.1 ≤ 0 ∨ c.2 ≤ 0 then
      (((s.outExtent p d 0 0).incF (F.CORE_MAP_CNT_EMPTY p) 1).settle p owed, true)
    else (s.outExtent p d o.1.toNat o.2.toNat, false)
  else
    let q := s.prn p d.outPrn
    let l := s.loadedPrn p d.outPrn
    (if (q.lh = 0 ∨ q.lw = 0) ∧ (q.lh ≠ l.lh ∨ q.lw ≠ l.lw) then s.outExtent p d l.lh l.lw else s, false)

/-- The escape list of a layer's tile: the layer's lists stand in tile order from ESC_BASE (R151, R118). -/
def State.tileEscList (s : State) (p : Nat) (d : LayerDesc) (m : MapRec) (cb : Codebook) (a t bank e : Nat) : List EscEntry :=
  let c := s.core p
  let w := tileWidth cb.big
  let before := (List.range ((e - d.tileFirst) / w)).map fun i => tileEscapes c cb m (liveEntry d a t bank (d.tileFirst + w * i))
  let off := d.escBase + before.foldl (· + ·) 0
  let n := tileEscapes c cb m (liveEntry d a t bank e)
  (List.range n).map fun i => EscEntry.parse (SMap.get 0 c.esc (off + i))

/-- Bank conflicts among the step's accesses and those the schedule places beside it (R203): the first
bank that two of them share, with the two accessor units. -/
def bankConflict (accs : List (Nat × Nat)) : Option (Nat × Nat × Nat) :=
  match accs with
  | [] => none
  | (u, a) :: t =>
    match t.find? fun o => decide (o.2 / 64 % 32 = a / 64 % 32) with
    | some o => some (a / 64 % 32, min u o.1, max u o.1)
    | none => bankConflict t

/-- Conflicts of a step's accesses, by the words that it reads, with those that the schedule places beside it (R203). DESIGN CHOICE (log
entry 90): the reads of the three planes of its row fall in cycles of their own. -/
def stepConflict (words : List Nat) (beside : List (Nat × Nat)) : Option (Nat × Nat × Nat) :=
  match beside.find? fun o => words.any fun w => decide (w / 4 % 32 = o.2 / 64 % 32) with
  | some o => some (o.2 / 64 % 32, min 0 o.1, max 0 o.1)
  | none => bankConflict beside

/-- Accesses beside an operation that take part in a conflict on bank `b` are not performed (R203): what a write staging row held for
one of them is lost. -/
def State.cancelBeside (s : State) (p b : Nat) (beside : List (Nat × Nat)) : State :=
  s.onCore p fun c => { c with wstage := c.wstage.filter fun t =>
    !(beside.any fun o => o.1 == t.1 && o.2 / 64 == t.2.row && o.2 / 64 % 32 == b) }

/-- Record a bank conflict (R203, R228). -/
def State.noteConflict (s : State) (p : Nat) (k : Option (Nat × Nat × Nat)) (beside : List (Nat × Nat)) : State :=
  match k with
  | none => s
  | some (b, u, v) =>
    ((s.cancelBeside p b beside).setFs [(F.CORE_SPAD_CONF_BANK p, b), (F.CORE_SPAD_CONF_UNIT_A p, u), (F.CORE_SPAD_CONF_UNIT_B p, v)]).incF
      (F.CORE_SPAD_CONF_CONFLICTS p) 1

/-- A parity error (R149): the rewrite is queued; a second one within 16 frames of the frame in which the
entry's rewrite completed counts in WF_HARD. -/
def State.parityError (s : State) (p e : Nat) : State :=
  let c := s.core p
  let hard := match c.rewritten.find? fun x => x.1 == e with
    | some (_, f) => decide ((s.cal.frame + 2 ^ 32 - f) % 2 ^ 32 ≤ 16)
    | none => false
  let s1 := if hard then s.incF (F.CORE_WFILE_WF_HARD p) 1 else s
  s1.onCore p fun c => { c with
    rewrites := if c.rewrites.contains e then c.rewrites else c.rewrites ++ [e]
    parity := if c.parity.contains e then c.parity else e :: c.parity }

/-- The core still issues earlier lines of a clause than (f, y) (R210): one of them has begun and is not complete. -/
def issuesEarlier (c : CoreSt) (clause f y : Nat) : Bool :=
  c.lines.any fun l => l.clause == clause && l.begun && !l.complete && lineBefore l.frame l.y f y

/-- The carry-over wait of a line up to now (R210): from S(y) on, as far as it has not been charged. -/
def lineCarry (l : LineFl) (lp clock now : Nat) : LineFl :=
  { l with charge := l.charge + chargeOf lp clock (coreCycles clock (max l.sAt l.carried) now), carried := max l.sAt (max l.carried now) }

/-- The line of a clause that an operation belongs to begins (R62), with its carry-over wait while the core issues earlier lines
(R210). -/
def State.beginLine (s : State) (p clause y : Nat) : State :=
  s.onCore p fun c =>
    { c with lines := c.lines.map fun l =>
        if l.clause = clause ∧ l.y = y ∧ !l.begun then
          { (if issuesEarlier c clause l.frame l.y then lineCarry l s.lp (s.clock p) s.now else l) with begun := true }
        else l }

/-- A line ends in a core: the lines of its clause that come after it and have not begun have waited for it (R210). -/
def State.chargeWaiting (s : State) (p clause f y : Nat) : State :=
  let after (l : LineFl) : Bool := l.clause == clause && !l.begun && lineBefore f y l.frame l.y
  s.onCore p fun c => { c with lines := c.lines.map fun l => if after l then lineCarry l s.lp (s.clock p) s.now else l }

/-- Thread t issues an operation of run line y (R62, R169, R233). -/
def State.runOn (s : State) (p t y : Nat) : State :=
  ((s.onThread p t fun h => { h with runLine := y, wait := .none }).setThreadState p t 1).beginLine p ((s.threadClause p t).getD 0) y

/-- A line is no longer in flight (R62): its last operation has issued. A line that the selector has judged leaves the list. -/
def State.lineDone (s : State) (p clause y : Nat) : State :=
  let s1 := match (s.core p).lines.find? fun l => l.clause == clause && l.y == y && l.begun && !l.complete with
    | some l => s.chargeWaiting p clause l.frame y
    | none => s
  s1.onCore p fun c => { c with lines := (c.lines.map fun l =>
    if l.clause = clause ∧ l.y = y ∧ l.begun then { l with complete := true } else l).filter fun l => !(l.complete && l.judged) }

/-- A layer is the last of the clause that a thread carries. -/
def State.lastLayer (s : State) (p t layer : Nat) : Bool :=
  match (s.threadClause p t).bind s.sched.clause with
  | some c => layer + 1 == c.firstLayer + c.layerCount
  | none => false

/-- The output frame of a run line of a line-clause thread (R266): that of the line in flight; else the frame on its way out. -/
def State.lineFrame (s : State) (p t y : Nat) : Nat :=
  (((s.core p).lines.find? fun l => s.isLineThread p t && s.threadClause p t == some l.clause && l.y == y && !l.complete).map
    (·.frame)).getD s.cal.frame

/-- With the last operation of its clause's last layer a line ends, but one that a Suffix layer ends, which ends with its row
(R158). -/
def State.endLine (s : State) (p t layer line : Nat) (d : LayerDesc) : State :=
  if s.isLineThread p t ∧ s.lastLayer p t layer ∧ d.engine ≠ 2 then s.lineDone p ((s.threadClause p t).getD 0) line else s

/-- The faults that a step meets in its cycle (R165), ascending codes. -/
def stepFaults (parity busy cb store conflict ue : Bool) : List Nat :=
  (if parity then [1] else []) ++ (if busy then [2] else []) ++ (if cb then [3] else []) ++
  (if store then [4] else []) ++ (if conflict then [5] else []) ++ (if ue then [6] else [])

/-- The priority of a thread among those that ask for a resource (R160): 0 is served first. -/
def threadOrder (lineThreaded : Bool) (rot t : Nat) : Nat :=
  if t = 0 then 0
  else if lineThreaded then (if t = 1 then 1 else 2 + (t + 4 - rot) % 2)
  else 1 + (t + 3 - rot) % 3

/-- The thread that comes first among those that rotate, in cycle `now` (R160). -/
def rotNow (c : CoreSt) (now : Nat) : Nat := if c.rotAt.1 = now + 1 then c.rotAt.2 else c.rot

/-- The issue unit serves thread t of core p in this cycle (R160); `rivals` ask for the same resource: a unit or a scratchpad bank. -/
def State.grantsThread (s : State) (p t : Nat) (rivals : List Nat) : Bool :=
  let lt := s.getF (F.CORE_THREAD_LINE_THREADED p) == 1
  let rot := rotNow (s.core p) s.now
  rivals.all fun r => r == t || decide (4 ≤ r) || decide (threadOrder lt rot t < threadOrder lt rot r)

/-- Rotation by an issue (R160): one place in each cycle in which a thread of the rotating set issues, from the next cycle on. -/
def State.rotate (s : State) (p t : Nat) : State :=
  let lt := s.getF (F.CORE_THREAD_LINE_THREADED p) == 1
  if t = 0 ∨ (lt ∧ t = 1) ∨ (s.core p).rotAt.1 = s.now + 1 then s
  else s.onCore p fun c => { c with
    rot := if lt then (if c.rot = 3 then 2 else 3) else c.rot % 3 + 1, rotAt := (s.now + 1, c.rot) }

/-- A thread waits (R247); a slot that it waits for has not become empty before this cycle (R226). -/
def State.waits (s : State) (p t : Nat) : Bool :=
  match ((s.core p).threads.getD t {}).wait with
  | .none => false
  | .slot a => !s.slotReady (bandOf p) a
  | _ => true

/-- The line clause of a thread has line y in flight: its start slot has come (R60, R62). -/
def State.hasLine (s : State) (p t y : Nat) : Bool :=
  !s.isLineThread p t || (s.core p).lines.any fun l => s.threadClause p t == some l.clause && l.y == y && !l.complete

/-- A thread of a core may issue an operation of run line y now (R60, R148, R161, R272, R280): the core takes part and is not
stopped, the multicast window is closed, a frame-clause thread has an open window, the thread carries a clause, the line is
in flight, and a line clause is not waiting for its restart (R65). -/
def State.mayIssue (s : State) (p t y : Nat) : Bool :=
  s.active p && !s.bandStopped (bandOf p) && s.getF (F.CORE_THREAD_MWIN p) == 0 &&
  !s.suspended p t &&
  !(s.getF (F.PWR_WX_STATE_STOPPED p) == 1) &&
  !s.waits p t && (s.threadClause p t).isSome && s.hasLine p t y &&
  !(s.isLineThread p t && (s.core p).reentry.any fun r => r.waiting && s.threadClause p t == some r.clause)

/-- A thread does not get a resource in this cycle: it waits one cycle (R160, R169). -/
def State.refused1 (s : State) (p t : Nat) : State :=
  (s.onCore p fun c => { c with utilWait := c.utilWait + 1 }).setThreadState p t 2

/-- The cycle from which thread t of core p can issue an operation on a unit: no correction stall (R208), its own place in the
issue unit free (R164), the unit free (R143). -/
def State.issueAt (s : State) (p t : Nat) (u : CoreUnit) : Nat :=
  max (s.core p).stallEnd (max (freeFrom (s.core p) (.issue t)) (freeFrom (s.core p) u))

/-- Thread t waits until it can issue an operation on a unit; cycles in which another thread's operation occupies the unit count
in UTIL_WAIT (R160). -/
def State.awaitUnit (s : State) (p t : Nat) (u : CoreUnit) : State :=
  let c := s.core p
  let n := if (occupiedUnit c u).2 = t then 0 else coreCycles (s.clock p) (max s.now c.stallEnd) (max (max s.now c.stallEnd) (freeFrom c u))
  (s.waitUntil (s.issueAt p t u)).onCore p fun c => { c with utilWait := c.utilWait + n }

/-! ### A step (R141) -/

/-- The steps of one output line of a run (R178): columns, chunks, taps, input chunks. -/
def stepCounts (d : LayerDesc) (m : MapRec) (w : Nat) : Nat × Nat × Nat × Nat × Nat :=
  (computedCols w, ceilDiv d.outCh 64, m.kh, m.kw, if m.kind = 0 then ceilDiv d.inCh 64 else 1)

/-- The number of a step within its line, in R178's order; none outside it. -/
def stepIndex (k : Nat × Nat × Nat × Nat × Nat) (o : StepOp) : Option Nat :=
  if o.ox < k.1 ∧ o.co < k.2.1 ∧ o.ty < k.2.2.1 ∧ o.tx < k.2.2.2.1 ∧ o.ci < k.2.2.2.2 then
    some ((((o.ox * k.2.1 + o.co) * k.2.2.1 + o.ty) * k.2.2.2.1 + o.tx) * k.2.2.2.2 + o.ci)
  else none

/-- The steps of a whole line. -/
def stepTotal (k : Nat × Nat × Nat × Nat × Nat) : Nat := k.1 * k.2.1 * k.2.2.1 * k.2.2.2.1 * k.2.2.2.2

/-- Where a thread's run of a layer stands: output line and number of its last step. -/
def runAt (c : CoreSt) (t layer : Nat) : Option (Nat × Nat) := (c.progress.find? fun e => e.1 == (t, layer)).map (·.2)

/-- A run of a layer stands at a step. -/
def setRun (c : CoreSt) (t layer : Nat) (at_ : Nat × Nat) : CoreSt :=
  { c with progress := ((t, layer), at_) :: c.progress.filter fun e => e.1 != (t, layer) }

/-- The step is the next of its run in R178's order: the first of a run, or the one after the last issued. A line clause's run is
one output line; a frame clause's goes on with the next line of its stripe. -/
def stepNext (k : Nat × Nat × Nat × Nat × Nat) (lineRun : Bool) (last : Option (Nat × Nat)) (o : StepOp) : Bool :=
  match stepIndex k o, last with
  | none, _ => false
  | some i, none => o.first && i == 0 && (lineRun || o.oy == 0)
  | some i, some (y, j) =>
    if o.first then i == 0 && j + 1 == stepTotal k && (lineRun || o.oy == 0)
    else (o.oy == y && i == j + 1) || (!lineRun && o.oy == y + 1 && i == 0 && j + 1 == stepTotal k)

/-- What a step is about: its layer, mapping, live entry, input row and place in its run. -/
structure StepCtx where
  d : LayerDesc
  m : MapRec
  cb : Codebook
  entry : Nat
  bank : Nat
  set : ModelSet
  row : Prn
  y : Nat
  x : Nat
  g : Nat
  out : Int × Int

/-- The context of a step of core `p` as logical core `l`. -/
def State.stepCtx (s : State) (p t l : Nat) (o : StepOp) : StepCtx :=
  let d := s.sched.layer l o.layer
  let m := s.sched.mapRec l d
  let cb := SMap.get default (s.core p).cbs d.wCb
  let ms := s.mset
  let bank := s.adaptBank p t o.line
  let r := s.prn p d.inPrn
  let pos := m.inPos o.oy o.ox o.ty o.tx
  { d := d, m := m, cb := cb, entry := liveEntry d ms.a ms.t bank (stepEntry d m cb.big o.co o.ty o.tx o.ci), bank := bank, set := ms
    row := r, y := r.padY pos.1, x := r.padX pos.2, g := stepChunk m o.co o.ci, out := s.runExtent p d m }

/-- Cycles from the issue of a LAST step to the gather buffer (R143, R144), for a step of one cycle: 18 where each word that it reads is
in a near bank, 21 where one is in a far bank (R200). -/
def State.stepLatency (s : State) (p : Nat) (k : StepCtx) (cyc : Nat) : Nat :=
  (if (s.rowWords p k.row k.y k.x k.g).any farWord then 21 else 18) + (cyc - 1)

/-- The step proper, once issued and fault-free (R141 to R144). At a discarded position no event of R134 is counted (R186), a row that the
decompressor refuses is (R196). True where the requantiser meets an uncorrectable word. -/
def State.stepBody (s : State) (p t : Nat) (k : StepCtx) (o : StepOp) (row : QRow) (zcErr : Bool) (esc : List EscEntry) (w : CoreIn) :
    State × Bool :=
  let c := s.core p
  let n := min 64 (k.d.outCh - 64 * o.co)
  let keep : Bool := decide ((o.ox : Int) < k.out.2 ∧ (o.oy : Int) < k.out.1)
  let vs := stepValues (SMap.get default c.cbs k.d.inCb) k.m o.co row
  let r := stepCompute c k.cb k.d.q k.m k.entry n vs.1 esc (SMap.get [] c.acc t) (SMap.get [] c.corr t)
  let cyc := stepCycles k.cb.big (maxEscPerCol esc)
  let lat := s.stepLatency p k cyc
  let s1 := (if keep then s.countArith p (vs.2.add r.2.2) else s).incF (F.CORE_ZC_ZC_ERR p) (b2n zcErr)
  let s2 := (((s1.occupy p t .array cyc).inPipe p t lat).onCore p fun c => { c with
    utilLine := if s.isLineThread p t then c.utilLine + cyc else c.utilLine
    utilFrame := if s.isLineThread p t then c.utilFrame else c.utilFrame + cyc })
  if stepLast k.d k.m o.ty o.tx o.ci then
    -- ACCUMULATION_HANDOFF (R142)
    let sums := (List.range 64).map fun j => columnSum r.1 j
    let s3 := (s2.onCore p fun c => { c with acc := SMap.set [] c.acc t [], corr := SMap.set [] c.corr t [] }).occupy p t .requantiser 1
    let out : OutPath := ⟨3, fabricCycles (s.clock p) lat, w.ecc⟩
    let q := if keep then s3.requant p k.d k.m out k.out o.oy o.ox o.co sums r.2.1 else (s3, false)
    let lineEnds := o.ox + 1 = computedCols k.out.2.toNat ∧ o.co + 1 = ceilDiv k.d.outCh 64
    if lineEnds ∧ (s.isLineThread p t ∨ ((o.oy + 1 : Nat) : Int) = k.out.1) then
      ((q.1.emitAt p k.d k.m out 0 0 .runEnd).endLine p t o.layer o.line k.d, q.2)
    else q
  else (s2.onCore p fun c => { c with acc := SMap.set [] c.acc t r.1, corr := SMap.set [] c.corr t r.2.1 }, false)

/-- The output line that line `oy` of a layer completes, with pooling the last one whose window ends there (R190). -/
def outLineOf (d : LayerDesc) (m : MapRec) (oy : Nat) : Option Nat :=
  if d.pool = 0 then some oy
  else if m.poolH ≤ oy + 1 ∧ (oy + 1 - m.poolH) % max 1 m.poolSh = 0 then some ((oy + 1 - m.poolH) / max 1 m.poolSh)
  else none

/-- The output slot of a LAST step in a line store is not empty: the core must wait (R224). -/
def State.outBlocked (s : State) (p : Nat) (d : LayerDesc) (oy : Nat) (last : Bool) : Option Nat :=
  let r := s.prn p d.outPrn
  if last ∧ r.place = 2 ∧ !s.lsReady (bandOf p) r (r.padY oy) then some (r.slotAddr (r.padY oy)) else none

/-- The faults of a step and the state that its reads leave (R149, R165, R203): codes, weight-file entries whose parity fails,
and the conflict. `beside` are other accesses of its thread and cycle. -/
def State.stepChecks (s : State) (p : Nat) (k : StepCtx) (o : StepOp) (w : CoreIn) :
    State × List Nat × List Nat × Option (Nat × Nat × Nat) :=
  let c := s.core p
  let es := if k.cb.big then [k.entry, k.entry + 1] else [k.entry]
  let words := s.rowWords p k.row k.y k.x k.g
  let conf := stepConflict words o.beside
  let f := s.foreRead p (if conf.isSome then [] else words) w.ecc false
  let par := es.filter fun x => w.parity.contains x || c.parity.contains x
  let busy := es.any fun x => c.loading.any fun y => y.1 == x && decide (s.now < y.2)
  let cbb := [k.d.inCb, k.d.wCb, k.d.outCb].any fun x => c.cbBusy.any fun y => y.1 == x && decide (s.now < y.2)
  (f.1, stepFaults (par != []) busy cbb w.store conf.isSome f.2, par, conf)

/-- ISSUE_STEP (R141): the next step of its run (R178). A thread that the issue unit does not serve waits one cycle (R160); the
first step of a run may find its layer empty (R188). -/
def State.issueStep (s : State) (p t : Nat) (o : StepOp) (w : CoreIn) : State :=
  match s.logical p with
  | none => s
  | some l =>
    if !s.mayIssue p t o.line then s
    else if !s.grantsThread p t w.rivals then s.refused1 p t
    else
      let s0 := s.awaitUnit p t .array
      let d := s0.sched.layer l o.layer
      let m := s0.sched.mapRec l d
      let last := runAt (s0.core p) t o.layer
      match s0.outBlocked p d ((outLineOf d m o.oy).getD 0) (stepLast d m o.ty o.tx o.ci && (outLineOf d m o.oy).isSome) with
      | some a => s0.setWait p t (.slot a)
      | none =>
        let q0 := if o.first then s0.dynStart p d m w.owed else (s0, false)
        if q0.2 then (q0.1.runOn p t o.line).endLine p t o.layer o.line d
        else
          let counts := stepCounts d m (q0.1.runExtent p d m).2.toNat
          if d.engine ≠ 0 ∨ !stepNext counts (s.isLineThread p t) last o ∨ (q0.1.runExtent p d m).1 ≤ o.oy then s
          else
            let s1 := ((q0.1.rotate p t).runOn p t o.line).fixBank p t o.line d.adapt
            let k := s1.stepCtx p t l o
            let f := s1.stepChecks p k o w
            if f.2.1 = [] then
              let row := f.1.readRow k.row p k.y k.x k.g
              let b := (f.1.onCore p fun c => setRun c t o.layer (o.oy, (stepIndex counts o).getD 0)).stepBody p t k o row.1 row.2
                (f.1.tileEscList p d m k.cb k.set.a k.set.t k.bank (stepEntry d m k.cb.big o.co o.ty o.tx o.ci)) w
              if b.2 then b.1.coreFault p t d.layer o.line [6] w.owed else b.1
            else
              ((f.2.2.1.foldl (fun s x => s.parityError p x) f.1).noteConflict p f.2.2.2 o.beside).coreFault p t d.layer o.line f.2.1 w.owed

/-! ### Foreground accesses of loads and engines (R203, R205, R207) -/

/-- Reads in cycles of their own, one after the other, as far as the first that meets an uncorrectable word. -/
def State.foreReads (s : State) (p : Nat) (e : EccIn) : List (Nat × Nat) → State × Bool
  | [] => (s, false)
  | (a, n) :: t =>
    let r := s.foreRead p (touchWords a n) e true
    if r.2 then r else r.1.foreReads p e t

/-- An access that the schedule places in the cycle of one of accessor `unit`'s own shares its bank (R203). -/
def besideConflict (unit : Nat) (own : Nat → Bool) (beside : List (Nat × Nat × Nat)) : Option (Nat × Nat × Nat) :=
  (beside.find? fun b => own b.1 && decide (b.1 / 64 % 32 = b.2.2 / 64 % 32)).map fun b =>
    (b.1 / 64 % 32, min unit b.2.1, max unit b.2.1)

/-- Those accesses, each by its unit and address. -/
def besideOf (beside : List (Nat × Nat × Nat)) : List (Nat × Nat) := beside.map (·.2)

/-- An address in a tensor in a scratchpad. -/
def inTensor (r : Prn) (a : Nat) : Bool := r.place == 1 && decide (r.base ≤ a ∧ a < r.base + r.size)

/-- An address in padded line y′ of a tensor in a scratchpad. -/
def inLine (r : Prn) (y a : Nat) : Bool :=
  r.place == 1 && (List.range 3).any fun k => decide (r.lineAddr k y ≤ a ∧ a < r.lineAddr k y + r.linePitch k)

/-- `n` elements of forms 2 to 5 at a padded position, read by accessor `u`. True where a word is uncorrectable. -/
def State.narrowElems (s : State) (r : Prn) (p u y x n : Nat) (e : EccIn) : List Nat × State × Bool :=
  let w := formBits r.form / 8
  let b := s.narrowRead r.place p u (r.posAddr 0 y x) (n * w) e
  ((List.range n).map fun i => leAt b.1 (i * w) w, b.2)

/-- Row g of a padded position of a quantised tensor, read by accessor `u` (R114, R194, R196, R217): the row, whether the
decompressor met an error, and whether a word is uncorrectable. -/
def State.narrowQRow (s : State) (r : Prn) (p u y x g : Nat) (e : EccIn) : (QRow × Bool) × State × Bool :=
  let n := min 64 (r.ch - 64 * g)
  let big := r.form == 1
  let t := s.narrowRead r.place p u (r.posAddr 1 y x + 4 * g) 4 e
  let d := t.2.1.narrowRead r.place p u (r.posAddr 2 y x + 16 * g) 16 e
  let side := (List.range 8).map fun i => leAt d.1 (2 * i) 2
  if r.zc then
    let row := x * r.nr + g
    let slot := r.lineAddr 0 y + row / 8 * r.zcSlot
    let ls := d.2.1.narrowRead r.place p u slot 8 e
    let off := ((List.range (row % 8)).map fun i => 8 * byteAt ls.1 i).foldl (· + ·) 0
    let len := byteAt ls.1 (row % 8)
    let b := ls.2.1.narrowRead r.place p u (slot + 8 + off) (8 * len) e
    let q := unzcRow big n len b.1
    ((⟨q.1, leNat t.1, side⟩, q.2), b.2.1, t.2.2 || d.2.2 || ls.2.2 || b.2.2)
  else
    let b := d.2.1.narrowRead r.place p u (r.posAddr 0 y x + g * 64 * formBits r.form / 8) (ceilDiv (n * formBits r.form) 8) e
    ((⟨unpackCodes big n b.1, leNat t.1, side⟩, false), b.2.1, t.2.2 || d.2.2 || b.2.2)

/-! ### Tile loads and rewrites (R147, R149) -/

/-- TILE_LOAD (R147, R289): a frame-clause thread starts writing a frame-class entry from a weight page in
scratchpad, one array row of 32 bytes a cycle; the write occupies the weight-file write path for 64 core cycles (R164) and not
the array. -/
def State.tileLoad (s : State) (p t prn e : Nat) (w : CoreIn) : State :=
  if !s.mayIssue p t s.cal.line ∨ s.isLineThread p t ∨ s.mset.classOf e ≠ .frame then s
  else if !s.grantsThread p t w.rivals then s.refused1 p t
  else
    let s1 := ((((s.awaitUnit p t .weightPath).rotate p t).setWait p t .none).occupy p t .weightPath 64).inPipe p t 64
    let base := (s1.prn p prn).base
    let conf := besideConflict 4 (fun a => decide (base ≤ a ∧ a < base + 2048)) w.beside
    let f := if conf.isSome then (s1, false) else s1.foreReads p w.ecc ((List.range 64).map fun r => (base + 32 * r, 32))
    let codes := stepFaults false false false w.store conf.isSome f.2
    if codes ≠ [] then (f.1.noteConflict p conf (besideOf w.beside)).coreFault p t w.layer s.cal.line codes w.owed
    else f.1.onCore p fun c => { c with
      tiles := SMap.set [] c.tiles e (pageCodes (foreBytes c base 2048))
      loading := (e, freeFrom c .weightPath) :: c.loading.filter fun x => x.1 != e
      parity := c.parity.filter fun x => x != e }

/-- TILE_LOAD_COMPLETE (R147): the entry becomes selectable. -/
def State.tileLoaded (s : State) (p e : Nat) : State :=
  match (s.core p).loading.find? fun x => x.1 == e with
  | none => s
  | some (_, t) => (s.waitUntil t).onCore p fun c => { c with loading := c.loading.filter fun x => x.1 != e }

/-! ### The Prefix and Suffix engines (R154 to R158) -/

/-- Lane totals of one position (R154, R155): taps in order and, within a tap, ascending input channel;
each product is rounded and saturated, each addition saturates to 26 bits. -/
def laneTotal (cb : Codebook) (q : Int) (vals : List Frac) (codes : List Nat) : Int × Cnt :=
  (List.zip vals codes).foldl (fun a vc =>
    if vc.2 = cb.escCode then a
    else
      let pr := product vc.1 (cb.val vc.2) q
      let x := satAddI 26 a.1 pr.1
      (x.1, a.2.add { prod := pr.2, cell := x.2 })) (0, {})

/-- The taps of a pass in schedule order. -/
def tapList (m : MapRec) : List (Nat × Nat) :=
  (List.range m.kh).flatMap fun ty => (List.range m.kw).map fun tx => (ty, tx)

/-- The value of an input element of the Prefix engine (R154): a 12-bit component × 2⁻¹², or binary16. -/
def prefixValue (form v : Nat) : Frac × Cnt :=
  if form = 4 then (⟨((v % 4096 : Nat) : Int), 4096⟩, {}) else readF16 v

/-- Core cycles that an engine works on eight positions of a layer (R164). -/
def groupCycles (d : LayerDesc) (m : MapRec) : Nat :=
  if d.engine = 1 then d.inCh * (m.kh * m.kw) * ceilDiv d.outCh 32
  else ceilDiv (d.inCh * (m.kh * m.kw)) 4 * ceilDiv d.outCh 16

/-- Cycles from the last product to the engine's output (R164). -/
def engineLatency (d : LayerDesc) : Nat := if d.engine = 1 then 6 else 8

/-- The elements that a Prefix position reads (R154), tap by tap, as far as the first uncorrectable word. -/
def State.prefixReads (s : State) (p : Nat) (d : LayerDesc) (m : MapRec) (e : EccIn) (oy ox : Nat) : List Nat × State × Bool :=
  let r := s.prn p d.inPrn
  (tapList m).foldl (fun (a : List Nat × State × Bool) tt =>
    if a.2.2 then a
    else
      let pos := m.inPos oy ox tt.1 tt.2
      let x := a.2.1.narrowElems r p 1 (r.padY pos.1) (r.padX pos.2) d.inCh e
      (a.1 ++ x.1, x.2)) ([], s, false)

/-- One position of a Prefix layer (R154): all output channels. DESIGN CHOICE: nothing is counted or observed at a discarded
position (R186, log entry 69); source 6 observes a component once for each tap that reads it (log entry 70). True where a word
is uncorrectable. -/
def State.prefixPos (s : State) (p : Nat) (d : LayerDesc) (m : MapRec) (w : OutPath) (out : Int × Int) (oy ox : Nat) : State × Bool :=
  let rd := s.prefixReads p d m w.ecc oy ox
  if rd.2.2 ∨ out.2 ≤ ox then rd.2
  else
    let form := (s.prn p d.inPrn).form
    let c := rd.2.1.core p
    let cb := SMap.get default c.cbs d.wCb
    let vs := rd.1.map (prefixValue form)
    let s1 := (rd.2.1.countArith p (Cnt.all (vs.map (·.2)))).observeAll p 6 d.layer
      (if form = 4 then (List.range rd.1.length).map fun i => (i % max 1 d.inCh, ((rd.1.getD i 0 % 4096 : Nat) : Int)) else [])
    (List.range (ceilDiv d.outCh 64)).foldl (fun a co =>
      if a.2 then a
      else
        let sums := (List.range (min 64 (d.outCh - 64 * co))).map fun i =>
          let ws := (List.range vs.length).map fun j =>
            SMap.get 0 c.prefixW (Config.engineWeight d m (64 * co + i) (j / max 1 d.inCh) (j % max 1 d.inCh))
          laneTotal cb d.q (vs.map (·.1)) ws
        (a.1.countArith p (Cnt.all (sums.map (·.2)))).requant p d m w out oy ox co (sums.map (·.1)) []) (s1, false)

/-- The first line of an engine's run (R178): a line clause's run is one line, a frame clause's the lines of its stripe from
line 0 on; none where the line is not the next. -/
def runLineStart (lineRun : Bool) (last : Option (Nat × Nat)) (oy : Nat) : Option Bool :=
  if lineRun ∨ oy = 0 then some true
  else match last with
    | some (y, _) => if oy = y + 1 then some false else none
    | none => none

/-- Faults of an engine's line before it reads (R165, R203): a codebook slot being written, the program store, a bank
conflict; with the conflict. -/
def State.engineChecks (s : State) (p : Nat) (d : LayerDesc) (m : MapRec) (oy : Nat) (w : CoreIn) :
    List Nat × Option (Nat × Nat × Nat) :=
  let r := s.prn p d.inPrn
  let conf := besideConflict d.engine (fun a => (List.range m.kh).any fun ty => inLine r (r.padY (m.inPos oy 0 ty 0).1) a) w.beside
  let slots := if d.engine = 1 then [d.wCb, d.outCb] else [d.inCb, d.wCb]
  let busy := slots.any fun x => (s.core p).cbBusy.any fun y => y.1 == x && decide (s.now < y.2)
  (stepFaults false false busy w.store conf.isSome false, conf)

/-- The engine's line is under way (R164): what it occupies, and where the run stands. -/
def State.engineRun (s : State) (p t layer oy : Nat) (d : LayerDesc) (m : MapRec) (outW : Nat) (u : CoreUnit) : State :=
  let n := ceilDiv outW 8 * groupCycles d m
  ((s.occupy p t u n).inPipe p t (n + engineLatency d)).onCore p fun c => setRun c t layer (oy, 0)

/-- Fabric cycles until the outputs of column ox leave an engine that starts now (R164): eight positions at a time. DESIGN CHOICE (log
entry 90): the distance of the engine's reads (R200) lies within the latency that R164 gives. -/
def State.engineLat (s : State) (p ox : Nat) (d : LayerDesc) (m : MapRec) : Nat :=
  fabricCycles (s.clock p) ((ox / 8 + 1) * groupCycles d m + engineLatency d)

/-- PREFIX_LAYER (R154): one output line of a run. -/
def State.prefixLayer (s : State) (p t layer line oy : Nat) (w : CoreIn) : State :=
  match s.logical p with
  | none => s
  | some l =>
    let d := s.sched.layer l layer
    let m := s.sched.mapRec l d
    if !s.mayIssue p t line ∨ d.engine ≠ 1 then s
    else if !s.grantsThread p t w.rivals then s.refused1 p t
    else
      let s0 := s.awaitUnit p t .prefixEng
      match s0.outBlocked p d ((outLineOf d m oy).getD 0) (outLineOf d m oy).isSome,
          runLineStart (s.isLineThread p t) (runAt (s0.core p) t layer) oy with
      | some a, _ => s0.setWait p t (.slot a)
      | _, none => s
      | none, some start =>
        let q := if start then s0.dynStart p d m w.owed else (s0, false)
        if q.2 then (q.1.runOn p t line).endLine p t layer line d
        else
          let ext := q.1.runExtent p d m
          let s1 := (q.1.rotate p t).runOn p t line
          let f := s1.engineChecks p d m oy w
          if f.1 ≠ [] then (s1.noteConflict p f.2 (besideOf w.beside)).coreFault p t d.layer line f.1 w.owed
          else if ext.1 ≤ oy then s
          else
            let r := (List.range (computedCols ext.2.toNat)).foldl (fun (a : State × Bool) ox =>
              if a.2 then a else a.1.prefixPos p d m ⟨1, s1.engineLat p ox d m, w.ecc⟩ ext oy ox)
              (s1.engineRun p t layer oy d m ext.2.toNat .prefixEng, false)
            if r.2 then r.1.coreFault p t d.layer line [6] w.owed
            else
              let s2 := if s.isLineThread p t ∨ ((oy + 1 : Nat) : Int) = ext.1 then
                  r.1.emitAt p d m ⟨1, s1.engineLat p (ext.2.toNat - 1) d m, w.ecc⟩ 0 0 .runEnd
                else r.1
              s2.endLine p t layer line d

/-- The elements that a Suffix position reads (R155), tap by tap and row by row, as far as the first uncorrectable word; rows
that the decompressor refuses are counted. -/
def State.suffixReads (s : State) (p : Nat) (d : LayerDesc) (m : MapRec) (e : EccIn) (oy ox : Nat) :
    List QRow × State × Bool :=
  let r := s.prn p d.inPrn
  (tapList m).foldl (fun (a : List QRow × State × Bool) tt =>
    let pos := m.inPos oy ox tt.1 tt.2
    (List.range (ceilDiv d.inCh 64)).foldl (fun (a : List QRow × State × Bool) g =>
      if a.2.2 then a
      else
        let x := a.2.1.narrowQRow r p 2 (r.padY pos.1) (r.padX pos.2) g e
        (a.1 ++ [x.1.1], x.2.1.incF (F.CORE_ZC_ZC_ERR p) (b2n x.1.2), x.2.2)) a) ([], s, false)

/-- The staging values of one position of a Suffix layer (R155), one for each output channel: its column totals take the
partial sums of PASS_IN (R124, R183). True where a word is uncorrectable. -/
def State.suffixPos (s : State) (p : Nat) (d : LayerDesc) (m : MapRec) (w : OutPath) (out : Int × Int) (oy ox : Nat) :
    List Nat × State × Bool :=
  let rd := s.suffixReads p d m w.ecc oy ox
  if rd.2.2 ∨ out.2 ≤ ox then ([], rd.2)
  else
    let c := rd.2.1.core p
    let cb := SMap.get default c.cbs d.wCb
    let icb := SMap.get default c.cbs d.inCb
    let vs := rd.1.flatMap fun row => (List.range row.codes.length).map (row.elem icb)
    let ps := (rd.2.1.countArith p (Cnt.all (vs.map (·.2)))).partials p d w oy ox 0 d.outCh
    let cp := ps.2.1.chanParams p d.chpPrn 0 d.outCh w
    if ps.2.2 ∨ cp.2.2 then ([], cp.2.1, true)
    else
      let res := (List.range d.outCh).map fun k =>
        let ws := (List.range vs.length).map fun j =>
          SMap.get 0 c.suffixW (Config.engineWeight d m k (j / max 1 d.inCh) (j % max 1 d.inCh))
        let t := laneTotal cb d.q (vs.map (·.1)) ws
        let ct := columnTotal t.1 0 (ps.1.getD k none)
        let b := cp.1.getD k (0, 0)
        let h := staging ct.1 b.1 d.q b.2
        ((ct.1, activation d.act d.leakK d.lo d.hi h.1), (t.2.add ct.2).add h.2)
      let s1 := (cp.2.1.countArith p (Cnt.all (res.map (·.2)))).countArith p d.clampBad
      let s2 := s1.observeAll p 1 d.layer ((List.range d.outCh).map fun k => (k, (res.getD k ((0, 0), {})).1.1))
      (res.map fun o => o.1.2,
        s2.observeAll p 2 d.layer ((List.range d.outCh).map fun k => (k, f16Key (res.getD k ((0, 0), {})).1.2)), false)

/-- Pixel shuffle and output conversion of a line of components (R156, R157): line `dy` of `s` lines. -/
def shuffleLine (pr : Program) (sh dy : Nat) (comps : List (List Nat)) : List Pix :=
  comps.flatMap fun hs => (List.range sh).map fun dx =>
    let c (i : Nat) : Nat := stageToComp (hs.getD (i * sh * sh + dy * sh + dx) 0)
    outConvert pr.convM pr.convO ⟨c 0, c 1, c 2⟩

/-- SUFFIX_LAYER (R155 to R157): a run of one line; its pixel rows wait for the output buffer. -/
def State.suffixLayer (s : State) (p t layer line oy : Nat) (w : CoreIn) : State :=
  match s.logical p with
  | none => s
  | some l =>
    let d := s.sched.layer l layer
    let m := s.sched.mapRec l d
    if !s.mayIssue p t line ∨ d.engine ≠ 2 then s
    else if !s.grantsThread p t w.rivals then s.refused1 p t
    else
      let cl := (s.threadClause p t).getD 0
      let q := (s.awaitUnit p t .suffixEng).dynStart p d m w.owed
      if q.2 then q.1.runOn p t line
      else
        let ext := q.1.runExtent p d m
        let s1 := (q.1.rotate p t).runOn p t line
        let f := s1.engineChecks p d m oy w
        if f.1 ≠ [] then (s1.noteConflict p f.2 (besideOf w.beside)).coreFault p t d.layer line f.1 w.owed
        else if ext.1 ≤ oy then s
        else
          let res := (List.range (computedCols ext.2.toNat)).foldl (fun (a : List (List Nat) × State × Bool) ox =>
            if a.2.2 then a
            else
              let x := a.2.1.suffixPos p d m ⟨2, 0, w.ecc⟩ ext oy ox
              (a.1 ++ [x.1], x.2)) ([], s1.engineRun p t layer oy d m ext.2.toNat .suffixEng, false)
          if res.2.2 then res.2.1.coreFault p t d.layer line [6] w.owed
          else
            let rows := (List.range d.s).map fun dy =>
              (⟨cl, t, max res.2.1.now (res.2.1.core p).stallEnd + s1.engineLat p (ext.2.toNat - 1) d m, s1.lineFrame p t line, d.s * oy + dy,
                shuffleLine s.prog d.s dy (res.1.take ext.2.toNat)⟩ : SegRow)
            res.2.1.onCore p fun c => { c with sufRows := c.sufRows ++ rows }

/-- SUFFIX_ROW_WRITE (R158): the next row, once the engine has it, enters the output buffer if a row of it is free; the line is
then complete and no longer in flight. Where none is free, the thread that computed it waits. A row that comes after its deadline
is not displayed (R64) and is free again at once. -/
def State.suffixRow (s : State) (p : Nat) : State :=
  match (s.core p).sufRows with
  | [] => s
  | r :: rs =>
    let s0 := s.waitUntil r.ready
    let wait := ((s0.core p).threads.getD r.thread {}).wait
    if 8 ≤ (s0.core p).seg.length then
      if wait = .none then s0.setWait p r.thread (.suffix r.y) else s0
    else
      let late := (s0.core p).lines.any fun l => l.clause == r.clause && l.y == r.y && l.frame == r.frame && l.judged
      let s1 := ((s0.chargeWaiting p r.clause r.frame r.y).onCore p fun c => { c with
        sufRows := rs, seg := if late then c.seg else c.seg ++ [r] }).onCore p fun c =>
        { c with lines := (c.lines.map fun l =>
            if l.clause = r.clause ∧ l.y = r.y ∧ l.frame = r.frame ∧ l.begun then { l with complete := true } else l).filter fun l =>
              !(l.complete && l.judged) }
      match wait with
      | .suffix _ => s1.setWait p r.thread .none
      | _ => s1

/-- BIN_EFF_CHANGE (R162, R163): within 64 fabric cycles BIN_EFF follows BIN_PLAN and BIN_DIP. -/
def State.binChange (s : State) (p : Nat) : State :=
  let b := s.binTarget p
  if b = s.getF (F.CORE_CLK_BIN_EFF p) then s
  else ((s.waitUntil ((s.core p).binFrom + 64)).setFs [(F.CORE_CLK_BIN_EFF p, b), (F.CORE_IDENT_BIN p, b)]).incF
    (F.CORE_CLK_CHANGES p) 1

end Sys2Proof.Machine
end

