-- ==== Sys2Proof/Machine/Streams.lean ====
section
/-! DEFINITION. Stream engines (R231 to R241, R249 to R253): lists, bursts, transfers, halts, retries and
the remote windows that their transfers meet (R262 to R267, R277). -/
namespace Sys2Proof

/-- Base address of an engine's registers (R253). -/
def EngId.regs : EngId → Nat
  | .core p e => Machine.coreEng p e
  | .band b e => Machine.bandEng b e
/-- The band of an engine. -/
def EngId.bandNo : EngId → Nat
  | .core p _ => Machine.bandOf p
  | .band b _ => b
/-- The unit whose scratchpad (PLACE 1) or line store (PLACE 2) an engine's pronoun names. -/
def EngId.unit (g : EngId) (place : Nat) : Nat :=
  match g with
  | .core p _ => Machine.placeUnit place p
  | .band b _ => b
/-- Engines 0 to 3 of a core and both engines of a band are line class (R231). -/
def EngId.lineClass : EngId → Bool
  | .core _ e => decide (e < 4)
  | .band _ _ => true
/-- A multicast's order on the global network: cycle of issue, then band, then physical core (R277). -/
def Mcast.before (a b : Mcast) : Bool :=
  let key (e : EngId) : Nat := match e with | .core p _ => p | .band b _ => 9 * b
  decide (a.issued < b.issued) || (a.issued == b.issued && decide (key a.eng ≤ key b.eng))

end Sys2Proof

namespace Sys2Proof.Machine

/-! ### Engines -/

/-- An engine's state. -/
def State.eng (s : State) : EngId → Eng
  | .core p e => (s.core p).eng.getD e {}
  | .band b e => (s.band b).eng.getD e {}
/-- Change an engine's state. -/
def State.onEng (s : State) (g : EngId) (f : Eng → Eng) : State :=
  match g with
  | .core p e => s.onCore p fun c => { c with eng := c.eng.modify e f }
  | .band b e => s.onBand b fun c => { c with eng := c.eng.modify e f }
/-- A pronoun of the table that an engine's lists name (R232). -/
def State.engPrn (s : State) (g : EngId) (n : Nat) : Prn :=
  match g with
  | .core p _ => s.prn p n
  | .band b _ => s.bprn b n

/-- Transfers outstanding as the register shows them (R253). -/
def State.showOutst (s : State) (g : EngId) : State := s.setF (F.ENG_STATE_OUTST g.regs) (s.eng g).outst.length

/-! ### List tables (R232) -/

/-- The line base that list entry `e` gives output line y (R233). -/
def lineBase (e : List Byte) (y : Nat) : Nat := y * leAt e 6 1 / max 1 (leAt e 7 1)

/-- A list ready to start (R233). -/
def State.listRun (s : State) (g : EngId) (list frame y thread : Nat) : ListRun :=
  let e := s.listEntry g list
  { list := list, base := lineBase e y, tagFrame := frame, tag := y, thread := thread,
    prn := leAt e 0 1, first := leAt e 2 2, count := leAt e 4 2 }

/-- A list becomes current. -/
def State.beginList (s : State) (g : EngId) (r : ListRun) : State :=
  (s.setFs [(F.ENG_STATE_STATE g.regs, 1), (F.ENG_STATE_LIST g.regs, r.list)]).onEng g fun x =>
    { x with run := some r, waitIn := false, waitSem := none }

/-- A list is latched as pending (R252). -/
def State.latchList (s : State) (g : EngId) (r : ListRun) : State :=
  (s.setFs [(F.ENG_STATE_PENDING g.regs, 1), (F.ENG_STATE_PEND_LIST g.regs, r.list)]).onEng g fun x => { x with pend := some r }

/-- An almanac start comes after a thread start that the same cycle has brought to the engine, and is taken before it (R233): the
thread's list is the further start. -/
def State.startFirst (s : State) (g : EngId) (r : ListRun) : State :=
  let x := s.eng g
  match x.run, x.pend with
  | some q, none => (s.beginList g r).latchList g q
  | _, _ => s.incF (F.ENG_CNT_REARM_OVER g.regs) 1

/-- A start reaches an engine (R252): it runs at once on an idle engine, and is latched as pending on a busy
one; a further start replaces the pending list. A start in the cycle of a final completion becomes current in the next cycle
and replaces nothing. -/
def State.startList (s : State) (g : EngId) (r : ListRun) (thread : Bool) : State :=
  let x := s.eng g
  let ends : Bool := x.run.isNone && x.endedAt == s.now + 1
  let again : Bool := x.started.1 == s.now + 1
  let s1 := if again ∧ x.started.2 ∧ !thread then s.startFirst g r
    else if x.run.isNone ∧ x.pend.isNone ∧ !x.stopping ∧ !ends then s.beginList g r
    else (if x.pend.isSome ∧ (!ends ∨ again) then
        (s.incF (F.ENG_CNT_REARM_OVER g.regs) 1).onEng g fun y =>
          if again then y else { y with rearm := (s.now + 1, s.getF (F.ENG_CNT_REARM_OVER g.regs)) }
      else s).latchList g r
  s1.onEng g fun x => { x with started := (s.now + 1, thread || (again && x.started.2)) }

/-- A list reaches final completion (R238, R252): the engine is idle, and a first start of the same cycle, which becomes current in the
next, is not counted as a replacement. -/
def State.listEnds (s : State) (g : EngId) : State :=
  let x := s.eng g
  let s1 := if x.rearm.1 = s.now + 1 then s.uncountF (F.ENG_CNT_REARM_OVER g.regs) x.rearm.2 else s
  (s1.onEng g fun x => { x with run := none, endedAt := s.now + 1 }).setF (F.ENG_STATE_STATE g.regs) 0

/-- PENDING_LIST_START (R252): the cycle after the current list's final completion. -/
def State.startPending (s : State) (g : EngId) : State :=
  let x := s.eng g
  match x.pend with
  | some r =>
    if x.run.isNone ∧ !x.stopping then
      (((s.waitUntil x.endedAt).setF (F.ENG_STATE_PENDING g.regs) 0).onEng g fun x => { x with pend := none }).beginList g r
    else s
  | none => s

/-- START_DESCRIPTOR_LIST: entry `i` fires, and the cores or bands that it names start the list, each on the engine
its list table gives (R47, R49, R233). -/
def State.almanacLists (s : State) (i : Nat) : State :=
  if !s.due i 0 then s
  else
    let e := s.entry i
    let a := s.actsFor i
    let n := bits e.arg 0 6
    (s.fire i).each s.nBands fun s b =>
      if !bit e.bands b then s
      else if bit e.arg 8 then
        let k := bits (leAt (s.listEntry (.band b 0) n) 1 1) 0 3
        s.startList (.band b (k % 2)) (s.listRun (.band b 0) n a.1 a.2 0) false
      else s.each 8 fun s k =>
        let p := s.phys (8 * b + k)
        if bit e.cores k ∧ s.active p then
          let g := bits (leAt (s.listEntry (.core p 0) n) 1 1) 0 3
          s.startList (.core p g) (s.listRun (.core p 0) n a.1 a.2 0) false
        else s

/-! ### Descriptors (R234 to R236) -/

/-- Fields of a descriptor (R234). -/
structure Desc where
  op : Nat
  yrel : Bool
  lastRead : Bool
  tileEnd : Bool
  zc : Bool
  src : Nat
  dst : Nat
  planes : List Nat
  mcast : Bool
  sy0 : Int
  sx0 : Nat
  dy0 : Int
  dx0 : Nat
  ny : Nat
  nx : Nat
  ssy : Nat
  ssx : Nat
  sig : Option Nat
  peer : Nat
  remote : Bool
  sigPeer : Bool
  mask : Nat
  deriving DecidableEq, Repr, Inhabited

/-- Read a descriptor's 32 bytes (R234). -/
def Desc.parse (d : List Byte) : Desc where
  op := bits (leAt d 0 1) 0 3
  yrel := bit (leAt d 0 1) 3
  lastRead := bit (leAt d 0 1) 4
  tileEnd := bit (leAt d 0 1) 5
  zc := bit (leAt d 0 1) 6
  src := leAt d 1 1
  dst := leAt d 2 1
  planes := (List.range 3).filter fun k => bit (leAt d 3 1) k
  mcast := bit (leAt d 3 1) 3
  sy0 := sext 16 (leAt d 4 2)
  sx0 := leAt d 6 2
  dy0 := sext 16 (leAt d 8 2)
  dx0 := leAt d 10 2
  ny := leAt d 12 2
  nx := leAt d 14 2
  ssy := bits (leAt d 16 1) 0 4
  ssx := bits (leAt d 16 1) 4 4
  sig := if bit (leAt d 18 1) 6 then some (bits (leAt d 18 1) 0 6) else none
  peer := bits (leAt d 19 1) 0 6
  remote := bit (leAt d 19 1) 6
  sigPeer := bit (leAt d 19 1) 7
  mask := leAt d 20 8

/-- Padded source line i of a descriptor (R235). -/
def Desc.srcLine (d : Desc) (b i : Nat) : Nat := (d.sy0 + (if d.yrel then (b : Int) else 0) + (i * d.ssy : Nat)).toNat
/-- Padded destination line i of a descriptor (R235). -/
def Desc.dstLine (d : Desc) (b i : Nat) : Nat := (d.dy0 + (if d.yrel then (b : Int) else 0) + (i : Nat)).toNat

/-- Transfers of one plane of one line (R238, R236): 512 bytes each of the bytes copied, in order; for a
compressed code plane, LEN and ROWS of each block. -/
def Desc.planeXfers (d : Desc) (r : Prn) (plane : Nat) : Nat :=
  if d.zc ∧ plane = 0 then 2 * ceilDiv (d.nx * r.nr) 8 else ceilDiv (d.nx * r.pitch plane) 512
/-- Transfers of one line. -/
def Desc.lineXfers (d : Desc) (r : Prn) : Nat := (d.planes.map (d.planeXfers r)).foldl (· + ·) 0
/-- Transfers of the whole descriptor; a descriptor without data has one operation (R235). -/
def Desc.total (d : Desc) (r : Prn) : Nat := if d.op = 0 then max 1 (d.ny * d.lineXfers r) else 1

/-- Plane and number within the plane of transfer `m` of a line. -/
def Desc.locate (d : Desc) (r : Prn) : List Nat → Nat → Nat × Nat
  | [], m => (0, m)
  | p :: ps, m => if m < d.planeXfers r p then (p, m) else d.locate r ps (m - d.planeXfers r p)

/-- Where transfer `k` of a descriptor reads and writes: line, plane, number within the plane. -/
def Desc.place (d : Desc) (r : Prn) (k : Nat) : Nat × Nat × Nat :=
  let n := max 1 (d.lineXfers r)
  let l := d.locate r d.planes (k % n)
  (k / n, l.1, l.2)

/-- The runs of bytes of piece `m` of a plane of a line: source address, destination address, length. A
piece holds 512 bytes of the copied bytes; each position is contiguous (R217, R235). -/
def Desc.pieces (d : Desc) (sr dr : Prn) (b i plane m : Nat) : List (Nat × Nat × Nat) :=
  let w := sr.pitch plane
  let sy := d.srcLine b i
  let dy := d.dstLine b i
  let run (o : Nat) (n : Nat) : Nat × Nat × Nat :=
    (sr.posAddr plane sy (d.sx0 + o / w * d.ssx) + o % w, dr.posAddr plane dy (d.dx0 + o / w) + o % w, n)
  if w = 0 then []
  else if 512 ≤ w then [run (512 * m) (min 512 (d.nx * w - 512 * m))]
  else
    let q := 512 / w
    (List.range (min q (d.nx - q * m))).map fun j => run (512 * m + j * w) w

/-- Source bytes that a transfer reads: ranges (address, length) in the source's memory. -/
def Desc.reads (d : Desc) (sr : Prn) (mem : Nat → Nat → List Byte) (b k : Nat) : List (Nat × Nat) :=
  let l := d.place sr k
  if d.zc ∧ l.2.1 = 0 then
    let slot := sr.lineAddr 0 (d.srcLine b l.1) + (d.sx0 * sr.nr / 8 + l.2.2 / 2) * sr.zcSlot
    if l.2.2 % 2 = 0 then [(slot, 8)]
    else [(slot + 8, ((mem slot 8).map fun x => 8 * x.toNat).foldl (· + ·) 0)]
  else (d.pieces sr sr b l.1 l.2.1 l.2.2).map fun x => (x.1, x.2.2)

/-- Bytes that a transfer moves (R238). -/
def Desc.xferBytes (d : Desc) (sr : Prn) (mem : Nat → Nat → List Byte) (b k : Nat) : Nat :=
  ((d.reads sr mem b k).map (·.2)).foldl (· + ·) 0

/-! ### What a transfer's accesses meet (R201, R207, R222) -/

/-- ECC of the words that an engine reads under a PLACE: whether one was corrected. DRAM's beats are the channel's (R416). -/
def State.srcEcc (s : State) (g : EngId) (place : Nat) (rs : List (Nat × Nat)) (e : EccIn) : State × Bool :=
  let words := rs.flatMap fun r => touchWords r.1 r.2
  match g with
  | .core p _ =>
    if place = 1 then let x := s.spadRead p words e; (x.1, x.2.1)
    else if place = 2 then let x := s.lsRead (bandOf p) words e.ce e.ue; (x.1, x.2.1)
    else (s, false)
  | .band b _ => if place = 2 then let x := s.lsRead b words e.ce e.ue; (x.1, x.2.1) else (s, false)

/-- Scratchpad banks of some ranges. -/
def banksOf (rs : List (Nat × Nat)) : List Nat := (rs.flatMap fun r => (rowParts r.1 r.2).map fun x => x.1 / 64 % 32).dedup

/-- A background access of a core's scratchpad asks for its banks (R201): it is served in a cycle without a foreground access to
them, after the older ones that wait for the same bank, one in a cycle; else it waits. The core cycles that it waits count in
BG_WAIT. -/
def State.bgTurn (s : State) (p : Nat) (rs : List (Nat × Nat)) (busy : Bool) : State × Bool :=
  match rs with
  | [] => (s, true)
  | r :: _ =>
    let c := s.core p
    let banks := banksOf rs
    let older := (c.bg.takeWhile fun x => x.1 != r.1).any fun x => banks.contains (x.1 / 64 % 32)
    let used := banks.any fun k => SMap.get 0 c.bgLast k == s.now + 1
    let since := ((c.bg.find? fun x => x.1 == r.1).map (·.2)).getD s.now
    let waited := coreCycles (s.clock p) since s.now
    if busy ∨ older ∨ used then
      (s.onCore p fun c => { c with
        bg := if c.bg.any fun x => x.1 == r.1 then c.bg.map fun x => if x.1 = r.1 then (x.1, s.now) else x else c.bg ++ [(r.1, s.now)]
        bgWait := c.bgWait + waited }, false)
    else
      (s.onCore p fun c => { c with bgWait := c.bgWait + waited, bg := c.bg.filter fun x => x.1 != r.1, bgLast := banks.foldl (fun m k => SMap.set 0 m k (s.now + 1)) c.bgLast }, true)

/-- Background accesses that wait have waited up to now (R201). -/
def State.bgCount (s : State) (p : Nat) : State :=
  let n := ((s.core p).bg.map fun x => coreCycles (s.clock p) x.2 s.now).foldl (· + ·) 0
  s.onCore p fun c => { c with bgWait := c.bgWait + n, bg := c.bg.map fun x => (x.1, s.now) }

/-- A requester's number at its band's line store (R222): its slot, or the fabric port. -/
def engRequester : EngId → Nat
  | .core p _ => slotOf p
  | .band _ _ => 9

/-- A read staging row that holds bytes of a scratchpad row just written is refilled (R206). -/
def refill (c : CoreSt) (a n : Nat) : CoreSt :=
  { c with rstage := c.rstage.map fun h =>
      if (rowParts a n).any fun x => x.1 / 64 == h.2.row then (h.1, { h.2 with bytes := foreBytes c (64 * h.2.row) 64 }) else h }

/-- An engine's write under a PLACE (R207, R221). -/
def State.writeBack (s : State) (place u a : Nat) (bs : List Byte) (e : EccIn) : State :=
  let s1 := (s.mergeEcc place u a bs.length e.ce e.ue).writeMem place u a bs
  if place = 1 then s1.onCore u fun c => refill c a bs.length else s1

/-- The first bad 64-byte row of some ranges of a memory, as a byte address (R250). -/
def State.badRow (s : State) (place u : Nat) (rs : List (Nat × Nat)) : Option Nat :=
  ((rs.flatMap fun r => touchWords r.1 r.2).find? fun w => s.memBad place u (16 * w) 16).map fun w => w / 4 * 64

/-! ### Halts (R249 to R251) -/

/-- Roll the buffer back to transfer `k` of descriptor `idx` (R250): what lies after it is issued again, that of a descriptor that is
complete already too. -/
def rollBack (idx k : Nat) (d : DescRun) : DescRun :=
  if d.idx < idx then d
  else if d.idx = idx then { d with issued := k, done := d.done.filter fun j => decide (j < k) }
  else { d with issued := 0, done := [], fin := false }

/-- A band engine abandons its lists (R251): it stops once its outstanding transfers are complete. -/
def State.stopBandEng (s : State) (b e : Nat) : State :=
  let a := bandEng b e
  let s1 := s.setF (F.ENG_STATE_PENDING a) 0
  if ((s.band b).eng.getD e {}).outst = [] then
    (s1.onBand b fun c => { c with eng := c.eng.set e {} }).setF (F.ENG_STATE_STATE a) 0
  else (s1.onBand b fun c => { c with eng := c.eng.modify e fun g => { g with pend := none, stopping := true } }).setF
    (F.ENG_STATE_STATE a) 3

/-- A halt of a band engine (R249, R251): its class serves thread 0 of every core of the band, each of which abandons its line
clause; both engines' lists stop. -/
def State.haltBand (s : State) (b : Nat) (w : CoreIn) : State :=
  let s1 := s.each 8 fun s k =>
    let p := s.phys (8 * b + k)
    if 8 * b + k < s.nCores ∧ s.active p then
      s.coreFault p 0 w.layer ((s.core p).threads.getD 0 {}).runLine [7] (w.bandOwed.getD k [])
    else s
  (s1.stopBandEng b 0).stopBandEng b 1

/-- A list halts (R249, R250): the position is saved and fault code 7 is raised on the thread that the
engine's class serves. -/
def State.halt (s : State) (g : EngId) (cause idx line xfer addr space k : Nat) (w : CoreIn) : State :=
  let a := g.regs
  let s1 := (s.setFs [(F.ENG_STATE_STATE a, 2), (F.ENG_STATE_HALT_CAUSE a, cause), (F.ENG_POS_DESC a, idx),
    (F.ENG_POS_LINE a, line), (F.ENG_POS_XFER a, xfer), (F.ENG_FADDR_LO_ADDR_LO a, addr % 2 ^ 32),
    (F.ENG_FADDR_HI_ADDR_HI a, addr / 2 ^ 32), (F.ENG_FADDR_HI_SPACE a, space)]).incF (F.ENG_CNT_HALTS a) 1
  let s2 := s1.onEng g fun x => { x with
    retryAt := s.now + 4096, waitIn := false, waitSem := none
    outst := x.outst.map fun t => if idx < t.desc ∨ (t.desc = idx ∧ k ≤ t.k) then { t with stale := true } else t
    run := x.run.map fun r => { r with buf := r.buf.map (rollBack idx k) } }
  match g, (s.eng g).run with
  | .core p _, some r => s2.coreFault p r.thread w.layer ((s.core p).threads.getD r.thread {}).runLine [7] w.owed
  | .band b _, some _ => s2.haltBand b w
  | _, none => s2

/-- The faulting row of a halted list: PLACE, unit and address (R250). -/
def State.haltRow (s : State) (g : EngId) : Nat × Nat × Nat :=
  let sp := s.getF (F.ENG_FADDR_HI_SPACE g.regs)
  let a := s.getF (F.ENG_FADDR_LO_ADDR_LO g.regs) + 2 ^ 32 * s.getF (F.ENG_FADDR_HI_ADDR_HI g.regs)
  let place := sp + 1
  (place, g.unit place, if sp = 2 then a - dramBase else a)

/-- One retry of a halted list (R250): it resumes when every word of the row reads correct. -/
def State.retryOnce (s : State) (g : EngId) : State :=
  let h := s.haltRow g
  if s.memBad h.1 h.2.1 h.2.2 64 then s else s.setF (F.ENG_STATE_STATE g.regs) 1

/-- HALT_RETRY_TIMER (R250): the periodic retry. -/
def State.retryTimer (s : State) (g : EngId) : State :=
  if s.getF (F.ENG_STATE_STATE g.regs) = 2 then
    ((s.waitUntil (s.eng g).retryAt).onEng g fun x => { x with retryAt := x.retryAt + 4096 }).retryOnce g
  else s

/-- ENGINE_RETRY (R250): a host write of RETRY; a periodic retry due in the same cycle is the same one. -/
def State.hostRetry (s : State) (g : EngId) : State :=
  if s.getF (F.ENG_STATE_STATE g.regs) = 2 then
    let s1 := s.advance 1
    (s1.onEng g fun x => { x with retryAt := if x.retryAt ≤ s1.now then s1.now + 4096 else x.retryAt }).retryOnce g
  else s

/-- An engine that stops becomes idle once nothing is outstanding (R251, R240). -/
def State.engStopped (s : State) (g : EngId) : State :=
  let x := s.eng g
  if x.stopping ∧ x.outst = [] then
    let s1 := (s.onEng g fun x => { x with
      run := none, stopping := false, settle := false, waitIn := false, waitSem := none, endedAt := s.now + 1 }).setF
      (F.ENG_STATE_STATE g.regs) 0
    if x.settle then s1.setF (F.ENG_TILES_CONSUMED g.regs) (s1.getF (F.ENG_TILES_LANDED g.regs)) else s1
  else s

/-- Threads that wait for a tile of engine e go on. -/
def State.freeTiles (s : State) (p e : Nat) : State :=
  s.each 4 fun s t => if ((s.core p).threads.getD t {}).wait = .tile e then s.setWait p t .none else s

/-- ENGINE_ABORT (R251): a halted frame-class list ends without resuming, its clause's output fails, and its thread no longer
waits for the list's tiles. -/
def State.hostAbort (s : State) (g : EngId) : State :=
  if s.getF (F.ENG_STATE_STATE g.regs) = 2 ∧ !g.lineClass then
    match g, (s.eng g).run with
    | .core p e, some r =>
      let s1 := (((s.onEng g fun x => { x with stopping := true }).setF (F.ENG_STATE_STATE g.regs) 3).engStopped g).freeTiles p e
      match s.threadClause p r.thread with
      | some c => s1.failRun c
      | none => s1
    | _, _ => s
  else s

/-- The accesses of a transfer get their turn (R201, R222): its reads and writes of the engine's own scratchpad in the
background, those of the line store in the banks' order. -/
def State.xferTurn (s : State) (g : EngId) (reads writes : Nat × List (Nat × Nat)) (w : CoreIn) : State × Bool :=
  let part (place : Nat) : List (Nat × Nat) :=
    (if reads.1 = place then reads.2 else []) ++ (if writes.1 = place then writes.2 else [])
  if part 2 ≠ [] ∧ !s.lsTurn g.bandNo (engRequester g) (part 2) w.rivals then (s, false)
  else
    let s1 := if part 2 = [] then s else s.lsServed g.bandNo (engRequester g) (part 2)
    match g with
    | .core p _ => s1.bgTurn p (part 1) w.busy
    | .band _ _ => (s1, true)

/-! ### Descriptor bursts (R238) -/

/-- DESCRIPTOR_BURST_READ (R238, R249). -/
def State.burstRead (s : State) (g : EngId) (w : CoreIn) : State :=
  let x := s.eng g
  match x.run with
  | none => s
  | some r =>
    if s.getF (F.ENG_STATE_STATE g.regs) ≠ 1 ∨ x.stopping ∨ s.bandStopped g.bandNo ∨ r.count ≤ r.read ∨
      8 < (r.buf.filter fun d => !d.fin).length then s
    else
      let n := min 8 (r.count - r.read)
      let q := s.engPrn g r.prn
      let a := q.base + 32 * (r.first + r.read)
      let u := g.unit q.place
      let turn := s.xferTurn g (q.place, [(a, 32 * n)]) (0, []) w
      if !turn.2 then turn.1
      else
      let s := (turn.1.srcEcc g q.place [(a, 32 * n)] w.ecc).1
      match s.badRow q.place u [(a, 32 * n)] with
      | some row =>
        let d := (r.buf.find? fun d => decide (d.issued < (Desc.parse d.bytes).total (s.engPrn g (Desc.parse d.bytes).src)))
        let at_ : Nat × Nat × Nat × Nat := match d with
          | some d =>
            let sr := s.engPrn g (Desc.parse d.bytes).src
            let n := max 1 ((Desc.parse d.bytes).lineXfers sr)
            (d.idx, d.issued / n, d.issued % n, d.issued)
          | none => (r.read, 0, 0, 0)
        s.halt g 4 at_.1 at_.2.1 at_.2.2.1 (if q.place = 3 then dramBase + row else row) (q.place - 1) at_.2.2.2 w
      | none =>
        let ds := (List.range n).map fun i =>
          ({ idx := r.read + i, bytes := s.readMem q.place u (a + 32 * i) 32 } : DescRun)
        s.onEng g fun x => { x with run := some { r with read := r.read + n, buf := r.buf ++ ds } }

/-! ### Completion of a descriptor (R238, R240, R244, R267) -/

/-- A full signal that a core sends for line y to the core whose VOID item made that line void carries VOID
(R245). -/
def State.voidFor (s : State) (p dst y : Nat) : Bool :=
  (s.core p).voids.any fun v => v.src == dst && decide ((y + s.vActive - v.line) % max 1 s.vActive ≤ v.warm)

/-- Send a descriptor's SEM_SIG (R238, R241): to its own core, to the peer, or to every target of a
multicast. -/
def State.descSignal (s : State) (g : EngId) (r : ListRun) (d : Desc) (nacked : Bool) : State :=
  match d.sig with
  | none => s
  | some sem =>
    let from_ := match g with | .core p _ => p | .band b _ => 9 * b
    let me := (s.logical from_).getD 0
    let item (dst : Nat) : Item :=
      { void := nacked || s.voidFor from_ dst r.tag, dropped := nacked, src := me, line := r.tag }
    if d.mcast then
      (List.range 64).foldl (fun a l =>
        if bit d.mask l ∧ l < s.nCores then a.sendSignal from_ r.thread l sem (item l) else a) s
    else if d.sigPeer then s.sendSignal from_ r.thread d.peer sem (item d.peer)
    else match g with
      | .core _ _ => s.sendSignal from_ r.thread me sem (item me)
      | .band _ _ => s

/-- Threads that wait for a tile of engine e go on once LANDED differs from CONSUMED (R240). -/
def State.serveTiles (s : State) (p e : Nat) : State :=
  if s.getF (F.ENG_TILES_LANDED (coreEng p e)) = s.getF (F.ENG_TILES_CONSUMED (coreEng p e)) then s
  else s.freeTiles p e

/-- A descriptor is complete (R238): its signal is issued, a tile it ends has landed, and with the last one
the list reaches final completion. It stays in the buffer behind those that come before it, whose halt would have it issued again
(R250; DESIGN CHOICE, log entry 92: its signal and its tile are not given a second time). -/
def State.descComplete (s : State) (g : EngId) (idx : Nat) : State :=
  match (s.eng g).run with
  | none => s
  | some r =>
    match r.buf.find? fun d => d.idx == idx with
    | none => s
    | some dr =>
      let d := Desc.parse dr.bytes
      let s1 := if dr.signalled then s else s.descSignal g r d dr.nacked
      let s2 := match g with
        | .core p e => if d.tileEnd ∧ !dr.signalled then (s1.wrapF (F.ENG_TILES_LANDED g.regs) 1).serveTiles p e else s1
        | .band _ _ => s1
      let buf := (r.buf.map fun d => if d.idx = idx then { d with fin := true, signalled := true } else d).dropWhile (·.fin)
      if buf = [] ∧ r.count ≤ r.read then
        s2.listEnds g
      else s2.onEng g fun x => { x with run := some { r with buf := buf } }

/-! ### Issue (R238 to R241) -/

/-- The next transfer of an engine: its descriptor and number. -/
def State.nextXfer (s : State) (g : EngId) : Option (ListRun × DescRun) :=
  match (s.eng g).run with
  | none => none
  | some r => (r.buf.find? fun d => decide (d.issued < (Desc.parse d.bytes).total (s.engPrn g (Desc.parse d.bytes).src))).map fun d => (r, d)

/-- The pronoun that a copy writes and the logical core that owns it: the engine's own table, or the
peer's (R234). -/
def State.dstPrn (s : State) (g : EngId) (d : Desc) (l : Nat) : Prn × Nat :=
  if d.remote ∨ d.mcast then let p := s.phys l; (s.prn p d.dst, p)
  else match g with
    | .core p _ => (s.prn p d.dst, p)
    | .band b _ => (s.bprn b d.dst, b)

/-- Pacing of R240: the first transfer of tile i begins only when i − CONSUMED ≤ 2, where the destination is the engine's own
scratchpad. -/
def State.paced (s : State) (g : EngId) (r : ListRun) (dr : DescRun) (d : Desc) : Bool :=
  match g with
  | .band _ _ => true
  | .core _ _ =>
    if d.remote ∨ d.mcast ∨ (s.engPrn g d.dst).place ≠ 1 then true
    else
      let before := (r.buf.filter fun x => decide (x.idx < dr.idx) && (Desc.parse x.bytes).tileEnd).length
      let i := s.getF (F.ENG_TILES_LANDED g.regs) + before
      decide ((i + 65536 - s.getF (F.ENG_TILES_CONSUMED g.regs)) % 65536 ≤ 2)

/-- Of the waits on a semaphore that this cycle has satisfied, the last in order that comes after `who` and can still give way (R243):
thread order, then engines in ascending number; an engine that has issued a transfer since cannot. -/
def State.lastTook (s : State) (p i who : Nat) : Option Nat :=
  let free (u : Nat) : Bool := decide (u < 4) || (match (s.eng (.core p (u - 4))).run with
    | some r => r.buf.any fun d => d.waited && !d.began && semWait d.bytes == some i
    | none => false)
  (((tookNow (s.core p) s.now i).filter fun u => decide (who < u) && free u).foldl (fun (m : Option Nat) u =>
    match m with | some k => some (max k u) | none => some u) none)

/-- A later wait of this cycle gives way to that of `who`, which comes first (R243). -/
def State.swapTook (s : State) (p i who u : Nat) : State :=
  let s1 := s.onCore p fun c => { c with semTook := (c.semTook.1, c.semTook.2.map fun e => if e = (i, u) then (i, who) else e) }
  if u < 4 then s1.setWait p u (.sem i)
  else
    let back (d : DescRun) : DescRun := if d.waited ∧ !d.began ∧ semWait d.bytes = some i then { d with waited := false } else d
    s1.onEng (.core p (u - 4)) fun x => { x with waitSem := some i, run := x.run.map fun r => { r with buf := r.buf.map back } }

/-- The descriptor's SEM_WAIT (R243): none where it is done. Else the engine waits in this cycle: COUNT is taken, or the last in order of
this cycle's waits gives way, or the engine waits on. -/
def State.descWait (s : State) (g : EngId) (dr : DescRun) : Option State :=
  match g, semWait dr.bytes with
  | .core p e, some i =>
    if dr.waited then none
    else
      let go (a : State) : State := a.onEng g engProceeds
      if 0 < s.getF (F.CORE_SEM_COUNT p i) then some (go (s.semTake p (4 + e) i (decide (e < 4))))
      else match s.lastTook p i (4 + e) with
        | some u => some (go (s.swapTook p i (4 + e) u))
        | none => some (s.onEng g fun x => { x with waitSem := some i })
  | _, _ => none

/-- Change the descriptor `idx` in an engine's buffer. -/
def State.onDesc (s : State) (g : EngId) (idx : Nat) (f : DescRun → DescRun) : State :=
  s.onEng g fun x => { x with run := x.run.map fun r => { r with buf := r.buf.map fun d => if d.idx = idx then f d else d } }

/-- Release source lines of a line-store pronoun (R225, R239). -/
def State.releaseLines (s : State) (g : EngId) (r : Prn) (ys : List Nat) : State :=
  if r.place = 2 then ys.foldl (fun s y => s.lsRelease g.bandNo r y) s else s

/-- Lines that a LASTREAD descriptor passes over (R239). -/
def Desc.passedOver (d : Desc) (b : Nat) : List Nat :=
  (List.range (d.ny - 1)).flatMap fun i => (List.range (d.ssy - 1)).map fun j => d.srcLine b i + j + 1

/-- Cycle of acceptance of each multicast in turn (R277): one at a time. -/
def mcastDues : Nat → List Mcast → List Mcast
  | _, [] => []
  | t, m :: ms =>
    let due := max t m.issued + 40 + ceilDiv m.bytes 512
    { m with due := due } :: mcastDues due ms

/-- Put a multicast into the network's order (R277). -/
def State.addMcast (s : State) (m : Mcast) : State :=
  let l := (s.fab.mcasts.takeWhile fun x => x.before m) ++ [m] ++ (s.fab.mcasts.dropWhile fun x => x.before m)
  { s with fab := { s.fab with mcasts := mcastDues s.fab.mcBusy l } }

/-- The requester of a band port that an engine's transfers ask as (R424). -/
def State.engReq (s : State) (g : EngId) : Nat :=
  match g with
  | .core p e => 3 * slotOf p + (if e < 4 then 0 else if ((s.eng g).run.map (·.thread)) = some 3 then 2 else 1)
  | .band _ _ => 27

/-- A remote transfer sets out (R262): inside the band through the link switch, which takes one transfer out of a slot in each
cycle; to another band once its beats have had remote slots of its band's port. -/
def State.sendRemote (s : State) (g : EngId) (dr : DescRun) (d : Desc) (bytes : Nat) : State :=
  let m : Remote := { eng := g, desc := dr.idx, k := dr.issued, dst := d.peer, due := s.now, q := s.engReq g }
  if bandOf (s.phys d.peer) ≠ g.bandNo then { s with remotes := s.remotes ++ [{ m with beats := max 1 (ceilDiv bytes 64) }] }
  else
    let key := match g with | .core p _ => p | .band b _ => 100 + b
    let out := max s.now (SMap.get 0 s.fab.outFree key)
    { s with remotes := s.remotes ++ [{ m with due := out + 4 + ceilDiv bytes 64 }]
             fab := { s.fab with outFree := SMap.set 0 s.fab.outFree key (out + 1) } }

/-- A transfer goes out: outstanding, and on its way to another core where it is remote (R238, R262, R277). `base`: the BASE of its
source. -/
def State.sendXfer (s : State) (g : EngId) (dr : DescRun) (d : Desc) (base bytes : Nat) : State :=
  let s1 := (s.onEng g fun x => { x with
    waitIn := false, waitSem := none
    outst := x.outst ++ [{ desc := dr.idx, k := dr.issued, base := base, remote := d.remote || d.mcast }] }).onDesc g dr.idx
      fun q => { q with began := true, waited := true, issued := q.issued + 1 }
  let s2 := s1.showOutst g
  if d.mcast then s2.addMcast { eng := g, desc := dr.idx, k := dr.issued, issued := s.now, bytes := bytes, due := 0 }
  else if d.remote then s2.sendRemote g dr d bytes
  else s2

/-! ### Versions of a frame clause's output (R37, R38, R439, R440) -/

/-- The output pairs of the frame clauses: clause number (R299), pair, WORK_PRN, COMMIT_PRN. -/
def State.pairs (s : State) : List (Nat × Nat × Nat × Nat) :=
  (List.range s.sched.frameClauses.length).flatMap fun c =>
    let d := s.sched.frameClauses.getD c default
    (List.range d.outs).map fun j => (c, j, (d.pairs.getD j (0, 0)).1, (d.pairs.getD j (0, 0)).2)

/-- The pair whose committed buffer a pronoun of any table names, by its BASE (R299): clause, pair, and the working buffer's BASE. -/
def State.pairOf (s : State) (r : Prn) : Option (Nat × Nat × Nat) :=
  if r.place ≠ 3 then none
  else (s.pairs.find? fun q => (s.prn (s.phys 0) q.2.2.2).base == r.base).map fun q => (q.1, q.2.1, (s.prn (s.phys 0) q.2.2.1).base)

/-- A pair's state. -/
def State.pairSt (s : State) (c j : Nat) : PairSt := ((s.fc.getD c {}).pairs.getD j {})

/-- A committed buffer is read as tainted: kept past a due point, or its bit is set (R440). -/
def State.pairTainted (s : State) (c j : Nat) : Bool := (s.pairSt c j).kept || (s.pairSt c j).taint

/-- The next output frame. -/
def State.nextFrame (s : State) : Nat := (s.cal.frame + 1) % 2 ^ 32

/-- The boundary that begins output frame n swaps a clause's outputs, as far as is known now (R37). -/
def State.willSwap (s : State) (c n : Nat) : Bool :=
  match (s.fc.getD c {}).run with
  | some r => s.runFinished c r && decide (0 ≤ frameDiff n r.due)
  | none => false

/-- The first read of a clause's output by a list of a line of the next frame, started ahead of its boundary, fixes which version
that frame reads (R38; DESIGN CHOICE, log entry 63). -/
def State.latchNext (s : State) (c frame : Nat) : State :=
  if frame ≠ s.nextFrame ∨ ((s.fc.getD c {}).next.map (·.1)) = some frame then s
  else { s with fc := s.fc.modify c fun f => { f with next := some (frame, s.willSwap c frame) } }

/-- BASE of the version of a pair's output that the lines of an output frame read (R38). -/
def State.versionBase (s : State) (c j work committed frame : Nat) : Nat :=
  if (s.fc.getD c {}).next = some (frame, true) ∧ frame = s.nextFrame then work
  else match (s.pairSt c j).old with
    | some (f, b, _) => if frameDiff frame f < 0 then b else committed
    | none => committed

/-- That version is read as tainted (R439, R440). -/
def State.versionTaint (s : State) (c j frame : Nat) : Bool :=
  let f := s.fc.getD c {}
  if frame = s.nextFrame ∧ f.next = some (frame, true) then
    (f.run.map fun r => r.readTaint || r.fromSkip || r.fromKept).getD false
  else if frame = s.nextFrame then
    s.pairTainted c j || f.dues.contains frame || (f.run.map fun r => r.due == frame).getD false
  else match (s.pairSt c j).old with
    | some (g, _, t) => if frameDiff frame g < 0 then t else s.pairTainted c j
    | none => s.pairTainted c j

/-- A read of a pair's committed buffer: for an output frame it counts once in TD_FC (R439), for a frame-clause
run it taints the run (R440). With the BASE that it reads from. -/
def State.noteRead (s : State) (g : EngId) (r : ListRun) (src : Prn) : State × Nat :=
  match s.pairOf src with
  | none => (s, src.base)
  | some (c, j, work) =>
    if g.lineClass then
      let s1 := s.latchNext c r.tagFrame
      (if s1.versionTaint c j r.tagFrame then
         s1.tdAdd r.tagFrame fun t => { t with fc := if t.fc.contains (4 * c + j) then t.fc else (4 * c + j) :: t.fc }
       else s1, s1.versionBase c j work src.base r.tagFrame)
    else
      match g with
      | .core p _ =>
        match (s.threadClause p r.thread).bind s.sched.fcIndex with
        | some k =>
          (if s.pairTainted c j then
             { s with fc := s.fc.modify k fun f => { f with run := f.run.map fun q => { q with readTaint := true } } }
           else s, src.base)
        | none => (s, src.base)
      | .band _ _ => (s, src.base)

/-- Cycles that a core's engine has waited on a slot count in its band's LS_WAIT (R230), up to this one or to that in which the slot
became empty; `on`: it waits on. -/
def State.slotTick (s : State) (g : EngId) (free : Option Nat) (on : Bool) : State :=
  match g with
  | .band _ _ => s
  | .core _ _ =>
    let n := match (s.eng g).waitSlot with
      | some t => max t (free.getD s.now) - t
      | none => 0
    (s.onBand g.bandNo fun b => { b with lsWait := b.lsWait + n }).onEng g fun x => { x with waitSlot := if on then some s.now else none }

/-- TRANSFER_ISSUE (R238): the descriptor's semaphore wait; then the next transfer, once its source line is
present, its destination slot is free and an outstanding place is left. A descriptor whose PLANES name no plane of its source moves
nothing (R235). -/
def State.issueXfer (s : State) (g : EngId) : State :=
  let x := s.eng g
  match s.nextXfer g with
  | none => s
  | some (r, dr) =>
    if s.getF (F.ENG_STATE_STATE g.regs) ≠ 1 ∨ x.stopping ∨ s.bandStopped g.bandNo ∨ 6 ≤ x.outst.length then s
    else
      match s.descWait g dr with
      | some s1 => s1
      | none =>
        let d := Desc.parse dr.bytes
        let sr := s.engPrn g d.src
        let s1 := (s.onDesc g dr.idx fun q => { q with waited := true }).onEng g fun x => { x with waitSem := none }
        if d.op = 1 then (s1.onDesc g dr.idx fun q => { q with began := true, issued := 1 }).descComplete g dr.idx
        else if d.op = 2 then
          ((s1.onDesc g dr.idx fun q => { q with began := true, issued := 1 }).releaseLines g sr
            ((List.range ((d.ny - 1) * d.ssy + 1)).map fun j => d.srcLine r.base 0 + j)).descComplete g dr.idx
        else if d.lineXfers sr = 0 then
          let s2 := s1.onDesc g dr.idx fun q => { q with began := true, issued := 1 }
          (if d.lastRead then s2.releaseLines g sr ((List.range ((d.ny - 1) * d.ssy + 1)).map fun j => d.srcLine r.base 0 + j)
           else s2).descComplete g dr.idx
        else
          let l := d.place sr dr.issued
          let dp := s1.dstPrn g d d.peer
          let y := d.dstLine r.base l.1
          if !s1.paced g r dr d then s1
          else if sr.place = 2 ∧ !s1.lsPresent g.bandNo sr (d.srcLine r.base l.1) then s1.onEng g fun x => { x with waitIn := true }
          else if dp.1.place = 2 ∧ !s1.lsReady g.bandNo dp.1 y then s1.slotTick g none true
          else if d.zc ∧ l.2.1 = 0 ∧ l.2.2 % 2 = 1 ∧ !dr.done.contains (dr.issued - 1) then s1
          else
            let s2 := s1.slotTick g (if dp.1.place = 2 then some (s1.slot g.bandNo (dp.1.slotAddr y)).freed else none) false
            let v := (if d.lastRead ∧ !dr.began then s2.releaseLines g sr (d.passedOver r.base) else s2).noteRead g r sr
            v.1.sendXfer g dr d v.2
              (d.xferBytes { sr with base := v.2 } (v.1.readMem sr.place (g.unit sr.place)) r.base dr.issued)

/-! ### Moving the bytes (R235, R236) -/

/-- Decompress the rows of a block into a destination's code plane (R195, R196, R236). -/
def State.unpackBlock (s : State) (g : EngId) (sr dr : Prn) (du : Nat) (d : Desc) (b i blk : Nat) (e : EccIn) : State :=
  (List.range 8).foldl (fun s j =>
    let row := (d.sx0 * sr.nr / 8 + blk) * 8 + j
    let x := row / sr.nr
    let cg := row % sr.nr
    if x < d.sx0 ∨ d.sx0 + d.nx ≤ x then s
    else
      let u := g.unit sr.place
      let n := min 64 (sr.ch - 64 * cg)
      let slot := sr.lineAddr 0 (d.srcLine b i) + row / 8 * sr.zcSlot
      let lens := s.readMem sr.place u slot 8
      let off := ((List.range (row % 8)).map fun i => 8 * byteAt lens i).foldl (· + ·) 0
      let len := byteAt lens (row % 8)
      let q := unzcRow (sr.form == 1) n len (s.readMem sr.place u (slot + 8 + off) (8 * len))
      let s1 := match g with
        | .core p _ => s.incF (F.CORE_ZC_ZC_ERR p) (b2n q.2)
        | .band _ _ => s
      s1.writeBack dr.place du (dr.posAddr 0 (d.dstLine b i) (d.dx0 + (x - d.sx0)) + cg * 64 * formBits dr.form / 8)
        (packCodes (sr.form == 1) q.1) e) s

/-- Transfer `k` of a descriptor writes its data at one destination. -/
def State.moveXfer (s : State) (g : EngId) (d : Desc) (b k : Nat) (sr dr : Prn) (du : Nat) (e : EccIn) : State :=
  let l := d.place sr k
  let su := g.unit sr.place
  if d.zc ∧ l.2.1 = 0 then
    let sy := d.srcLine b l.1
    let blk := l.2.2 / 2
    let slot := sr.lineAddr 0 sy + (d.sx0 * sr.nr / 8 + blk) * sr.zcSlot
    if dr.zc then
      let dslot := dr.lineAddr 0 (d.dstLine b l.1) + (d.dx0 * dr.nr / 8 + blk) * dr.zcSlot
      let lens := s.readMem sr.place su slot 8
      if l.2.2 % 2 = 0 then s.writeBack dr.place du dslot lens e
      else s.writeBack dr.place du (dslot + 8)
        (s.readMem sr.place su (slot + 8) ((lens.map fun x => 8 * x.toNat).foldl (· + ·) 0)) e
    else if l.2.2 % 2 = 0 then s
    else s.unpackBlock g sr dr du d b l.1 blk e
  else
    (d.pieces sr dr b l.1 l.2.1 l.2.2).foldl (fun s x =>
      s.writeBack dr.place du x.2.1 (s.readMem sr.place su x.1 x.2.2) e) s

/-- Ranges that transfer `k` of a descriptor writes at one destination: address and length. -/
def Desc.writes (d : Desc) (b k : Nat) (sr dr : Prn) : List (Nat × Nat) :=
  let l := d.place sr k
  if d.zc ∧ l.2.1 = 0 then
    if dr.zc then [(dr.lineAddr 0 (d.dstLine b l.1) + (d.dx0 * dr.nr / 8 + l.2.2 / 2) * dr.zcSlot + 8 * (l.2.2 % 2), 8)]
    else if l.2.2 % 2 = 0 then []
    else [(dr.posAddr 0 (d.dstLine b l.1) d.dx0, d.nx * dr.pitch 0)]
  else (d.pieces sr dr b l.1 l.2.1 l.2.2).map fun x => (x.2.1, x.2.2)

/-- The source of a transfer under way: the pronoun as it was at its issue (R38). -/
def State.xferSrc (s : State) (g : EngId) (idx k n : Nat) : Prn :=
  let r := s.engPrn g n
  match (s.eng g).outst.find? fun t => t.desc == idx && t.k == k with
  | some t => { r with base := t.base }
  | none => r

/-! ### Remote windows (R265 to R267) -/

/-- D of output line (f, y) has come: the selector has judged it or a later line, or its deadline entry is
due in this cycle (R266); those of frames before the last one have. Past line V_ACTIVE − 1 the lines of the next frame follow (DESIGN
CHOICE, log entry 91). -/
def State.deadlineCome (s : State) (f y : Nat) : Bool :=
  let va := max 1 s.vActive
  let f' := (f + y / va) % 2 ^ 32
  let y' := y % va
  decide (frameDiff f' s.cal.frame < -1) || (s.sel.any fun l => decide (l.frame = f' ∧ y' ≤ l.y) || l.frame == (f' + 1) % 2 ^ 32) ||
  ((List.range s.almanac.length).any fun i =>
    s.due i 2 && decide ((s.entry i).phase ≤ s.phase) && s.actsFor i == (f', y'))

/-- The window entry of a core that names a pronoun: PRN, SRC, FULL_SEM, LAG (R265). -/
def State.window (s : State) (p prn : Nat) : Option (List Byte) :=
  ((List.range 16).map fun w => wordsToBytes ((List.range 2).map fun k => s.getF (F.CORE_WIN_DATA p (2 * w + k)))).find?
    fun e => leAt e 0 1 == prn && (s.prn p prn).place == 1

/-- A clause of the running schedule reads a pronoun. -/
def State.clauseReads (s : State) (p clause prn : Nat) : Bool :=
  match s.sched.clause clause with
  | none => false
  | some c => (List.range c.layerCount).any fun i =>
      let d := s.sched.layer ((s.logical p).getD 0) (c.firstLayer + i)
      d.inPrn == prn || (d.passIn && d.psumPrn == prn)

/-- The owner's window is closed to a transfer (R266); the second value is the role reason of R268. -/
def State.windowClosed (s : State) (p prn src frame tag : Nat) : Bool × Bool :=
  if 2 ≤ s.role p ∨ (s.logical p).isNone then (true, true)
  else match s.window p prn with
    | none => (true, false)
    | some e =>
      let lag := leAt e 3 1
      ((lag != 255 && s.deadlineCome frame (tag + lag)) ||
       ((s.core p).reentry.any fun r => r.waiting && s.clauseReads p r.clause prn) ||
       bits (leAt e 1 1) 0 6 != src, false)

/-- One target takes a remote transfer, or drops it whole and answers NACK (R266, R267); a multicast's own core, to which it is no remote
transfer, takes it (R241, R262). `e` are the words that its writes merge into and find in error (R207). DESIGN CHOICE (log entry 91): a
band engine of band b sends as logical core 8b. -/
def State.arriveAt (s : State) (g : EngId) (r : ListRun) (idx k : Nat) (d : Desc) (l : Nat) (e : EccIn) : State :=
  let sr := s.xferSrc g idx k d.src
  let dp := s.dstPrn g d l
  let me := match g with | .core p _ => (s.logical p).getD 0 | .band b _ => 8 * b
  let own := match g with | .core p _ => p == dp.2 | .band _ _ => false
  let w := if own then (false, false) else s.windowClosed dp.2 d.dst me r.tagFrame r.tag
  if w.1 then
    let s1 := (s.incF (F.CORE_RWIN_LATE_RW dp.2) 1).setFs
      [(F.CORE_RWIN_LATE_SRC dp.2, me), (F.CORE_RWIN_LATE_ROLE dp.2, b2n w.2)]
    let s2 := match g with
      | .core p _ => s1.incF (F.CORE_RWIN_NACK_NACKS p) 1
      | .band _ _ => s1
    s2.onDesc g idx fun q => { q with nacked := true }
  else s.moveXfer g d r.base k sr dp.1 dp.2 e

/-- A remote transfer has been accepted or dropped. -/
def State.accepted (s : State) (g : EngId) (idx k : Nat) : State :=
  s.onEng g fun x => { x with outst := x.outst.map fun t =>
    if t.desc = idx ∧ t.k = k then { t with accepted := true } else t }

/-- The descriptor of a transfer, while its list still holds it. -/
def State.xferDesc (s : State) (g : EngId) (idx : Nat) : Option (ListRun × DescRun) :=
  match (s.eng g).run with
  | none => none
  | some r => (r.buf.find? fun d => d.idx == idx).map fun d => (r, d)

/-- The first bad row of a transfer's source; none where it reads without an uncorrectable or poisoned word. -/
def State.sourceBad (s : State) (g : EngId) (d : Desc) (b idx k : Nat) : Option Nat :=
  let sr := s.xferSrc g idx k d.src
  let u := g.unit sr.place
  s.badRow sr.place u (d.reads sr (s.readMem sr.place u) b k)

/-- The scratchpad ranges that a remote transfer writes at logical core l (R201). -/
def State.remoteWrites (s : State) (g : EngId) (d : Desc) (b idx k l : Nat) : List (Nat × Nat) :=
  let dp := s.dstPrn g d l
  if dp.1.place = 1 then d.writes b k (s.xferSrc g idx k d.src) dp.1 else []

/-- A transfer before the n-th on its way goes first into the same slot (R262): the oldest of those that have arrived. -/
def olderRemote (l : List Remote) (n dst due : Nat) : Bool :=
  (l.take n).any fun m => m.dst == dst && m.beats == 0 && decide (m.due ≤ due)

/-- REMOTE_TRANSFER_ARRIVAL (R262, R266): transfer `n` of those on their way, one into a slot in each cycle, once the banks that it
writes serve it (R201). -/
def State.remoteArrival (s : State) (i : EccAt) : State :=
  let n := i.unit
  match s.remotes[n]? with
  | none => s
  | some m =>
    match s.xferDesc m.eng m.desc with
    | none => { s with remotes := s.remotes.eraseIdx n }
    | some (r, dr) =>
      let d := Desc.parse dr.bytes
      let p := s.phys m.dst
      let after := (((s.eng m.eng).outst.find? fun t => t.desc == m.desc && t.k == m.k).map (·.after)).getD 0
      let due := max (max m.due after) (SMap.get 0 s.fab.inFree p)
      if 0 < m.beats ∨ olderRemote s.remotes n m.dst (max s.now due) ∨ (s.sourceBad m.eng d r.base m.desc m.k).isSome then s
      else
        let s0 := s.waitUntil due
        let q := s0.bgTurn p (s0.remoteWrites m.eng d r.base m.desc m.k m.dst) i.busy
        if !q.2 then q.1
        else
          let s1 : State := { q.1 with remotes := q.1.remotes.eraseIdx n
                                       fab := { q.1.fab with inFree := SMap.set 0 q.1.fab.inFree p (q.1.now + 1) } }
          (s1.arriveAt m.eng r m.desc m.k d m.dst i.ecc).accepted m.eng m.desc m.k

/-- Targets of a multicast that take part: not gated (R241). -/
def State.mcastTargets (s : State) (d : Desc) : List Nat :=
  (List.range 64).filter fun l => bit d.mask l && decide (l < s.nCores) && s.role (s.phys l) != 3

/-- MULTICAST_ACCEPTED (R277, R241): the first multicast on the global network is accepted at every target
that is not gated, once the banks that it writes serve it (R201). One whose source reads uncorrectable is not accepted: its
completion halts the list (R249). DESIGN CHOICE (log entry 90): the command comes in a cycle without a foreground access to those
banks, and its writes meet no error that was not there before. -/
def State.mcastAccepted (s : State) : State :=
  match s.fab.mcasts with
  | [] => s
  | m :: ms =>
    if ((s.xferDesc m.eng m.desc).bind fun x => s.sourceBad m.eng (Desc.parse x.2.bytes) x.1.base m.desc m.k).isSome then s
    else
    let s0 := s.waitUntil m.due
    match s0.xferDesc m.eng m.desc with
    | none => { s0 with fab := { s0.fab with mcBusy := m.due, mcasts := ms } }
    | some (r, dr) =>
      let d := Desc.parse dr.bytes
      let q := (s0.mcastTargets d).foldl (fun (a : State × Bool) l =>
        let x := a.1.bgTurn (a.1.phys l) (a.1.remoteWrites m.eng d r.base m.desc m.k l) false
        (x.1, a.2 && x.2)) (s0, true)
      if !q.2 then q.1
      else
        let s1 : State := { q.1 with fab := { q.1.fab with mcBusy := max m.due q.1.now, mcasts := mcastDues (max m.due q.1.now) ms } }
        ((s1.mcastTargets d).foldl (fun a l => a.arriveAt m.eng r m.desc m.k d l {}) s1).accepted m.eng m.desc m.k

/-! ### TRANSFER_COMPLETE (R238) -/

/-- All transfers of line `i` of a descriptor are complete. -/
def allDone (n : Nat) (done : List Nat) (i : Nat) : Bool := (List.range n).all fun j => done.contains (i * n + j)

/-- What the completion of transfer `k` of a descriptor brings with it: the release of a line (R239), the
marking of a line-store line (R224), and the descriptor's own completion (R238). -/
def State.finishXfer (s : State) (g : EngId) (r : ListRun) (idx k : Nat) (d : Desc) : State :=
  let sr := s.engPrn g d.src
  let n := max 1 (d.lineXfers sr)
  let s1 := s.onDesc g idx fun q => { q with done := if q.done.contains k then q.done else k :: q.done }
  match s1.xferDesc g idx with
  | none => s1
  | some (_, dr) =>
    let i := k / n
    let s2 := if allDone n dr.done i then
        let a := if d.lastRead then s1.releaseLines g sr [d.srcLine r.base i] else s1
        let dp := a.dstPrn g d d.peer
        if dp.1.place = 2 ∧ !d.remote ∧ !d.mcast then a.lsMark g.bandNo dp.1 (d.dstLine r.base i) else a
      else s1
    if dr.done.length = d.total sr then s2.descComplete g idx else s2

/-- A transfer's source has read as uncorrectable: it is withdrawn, and its list halts (R249) or, where it stops or will be issued
again, does not. -/
def State.xferBad (s : State) (g : EngId) (t : Xfer) (d : Desc) (sr : Prn) (row : Nat) (w : CoreIn) : State :=
  let s2 : State := { s with remotes := s.remotes.filter fun m => !(m.eng == g && m.desc == t.desc && m.k == t.k)
                             fab := { s.fab with mcasts := s.fab.mcasts.filter fun m => !(m.eng == g && m.desc == t.desc && m.k == t.k) } }
  let lx := max 1 (d.lineXfers sr)
  if t.stale ∨ (s.eng g).stopping then s2.engStopped g
  else s2.halt g sr.place t.desc (t.k / lx) (t.k % lx) (if sr.place = 3 then dramBase + row else row) (sr.place - 1) t.k w

/-- Outstanding transfer `n` of an engine completes: its bytes arrive, unless its targets have them already. -/
def State.xferLand (s : State) (g : EngId) (n : Nat) (t : Xfer) (r : ListRun) (d : Desc) (e : EccIn) : State :=
  let sr := { s.engPrn g d.src with base := t.base }
  let dp := s.dstPrn g d d.peer
  let s1 := (s.onEng g fun x => { x with outst := x.outst.eraseIdx n }).showOutst g
  let s2 := (if t.remote then s1
    else s1.moveXfer g d r.base t.k sr dp.1 (if dp.1.place = 2 then g.bandNo else dp.2) e).wrapF (F.ENG_XFERS_XFERS g.regs) 1
  if t.stale then s2.engStopped g else (s2.finishXfer g r t.desc t.k d).engStopped g

/-- TRANSFER_COMPLETE (R238, R249): outstanding transfer `n` of an engine. `w.ecc` are the words of its accesses that were
corrected or uncorrectable (R207, R222): a corrected read delays it by 2 cycles (R208), after which it completes. -/
def State.xferComplete (s : State) (g : EngId) (n : Nat) (w : CoreIn) : State :=
  let x := s.eng g
  match x.outst[n]? with
  | none => s
  | some t =>
    match s.xferDesc g t.desc with
    | none => ((s.onEng g fun x => { x with outst := x.outst.eraseIdx n }).showOutst g).engStopped g
    | some (r, dr) =>
      let d := Desc.parse dr.bytes
      let sr := { s.engPrn g d.src with base := t.base }
      let dp := s.dstPrn g d d.peer
      let u := g.unit sr.place
      let rs := d.reads sr (s.readMem sr.place u) r.base t.k
      if dp.1.place = 3 ∧ s.getF F.DEV_HOTPLUG_WSTOP = 1 then s      -- never completes (R551)
      else
        let q := if t.accepted then (s, true)
          else (s.waitUntil t.after).xferTurn g (sr.place, if t.after = 0 then rs else [])
            (dp.1.place, if t.remote then [] else d.writes r.base t.k sr dp.1) w
        if !q.2 then q.1
        else
          let f := if t.after = 0 then q.1.srcEcc g sr.place rs w.ecc else (q.1, false)
          match (if t.accepted then none else f.1.badRow sr.place u rs) with
          | some row =>
            ((f.1.onEng g fun x => { x with outst := x.outst.eraseIdx n }).showOutst g).xferBad g t d sr row w
          | none =>
            if f.2 ∧ !t.accepted then
              let k := match g, sr.place with | .core p _, 1 => fabricCycles (s.clock p) 2 | _, _ => 2
              f.1.onEng g fun x => { x with outst := x.outst.modify n fun t => { t with after := f.1.now + k } }
            else if t.remote ∧ !t.accepted then f.1
            else f.1.xferLand g n t r d w.ecc

end Sys2Proof.Machine
end

