-- ==== Sys2Proof/Machine/Threads.lean ====
section
/-! DEFINITION. What a core's threads do beside steps: semaphores (R242 to R246), tiles (R240), list starts
(R233), barriers (R278), the scratchpad's background accesses (R201) and map-outs (R212 to R215, R222), and
line-store writes (R224). -/
namespace Sys2Proof.Machine

/-! ### Semaphores and tiles -/

/-- Thread t issues an operation that costs the issue unit one cycle (R164): once its place there is free and no correction stall
holds the core (R208). -/
def State.issueOp (s : State) (p t line : Nat) : State :=
  (((s.awaitUnit p t (.issue t)).rotate p t).runOn p t line).occupy p t (.issue t) 1

/-- SEMAPHORE_WAIT of a thread (R243, R247). -/
def State.threadWait (s : State) (p t line i : Nat) : State :=
  if !s.mayIssue p t line then s
  else
    let s1 := s.issueOp p t line
    if 0 < s1.getF (F.CORE_SEM_COUNT p i) then s1.semTake p t i (s.isLineThread p t)
    else match s1.lastTook p i t with
      | some u => s1.swapTook p i t u
      | none => s1.setWait p t (.sem i)

/-- AWAIT_TILE (R240): the thread waits until LANDED differs from CONSUMED. -/
def State.awaitTile (s : State) (p t line e : Nat) : State :=
  if !s.mayIssue p t line then s
  else
    let s1 := s.issueOp p t line
    if s1.getF (F.ENG_TILES_LANDED (coreEng p e)) = s1.getF (F.ENG_TILES_CONSUMED (coreEng p e)) then
      s1.setWait p t (.tile e)
    else s1

/-- CONSUME_TILE (R240): CONSUMED increments and wraps. -/
def State.consumeTile (s : State) (p t line e : Nat) : State :=
  if !s.mayIssue p t line then s else (s.issueOp p t line).wrapF (F.ENG_TILES_CONSUMED (coreEng p e)) 1

/-- The engine that a core's list entry names (R232). -/
def State.listEngine (s : State) (p list : Nat) : Nat := bits (leAt (s.listEntry (.core p 0) list) 1 1) 0 3

/-- THREAD_STREAM_START (R233, R231): the thread starts a list with its run line as line base, on an engine
of its class; the line tag is that line of its own output frame (R266). -/
def State.streamStart (s : State) (p t line list : Nat) : State :=
  let e := s.listEngine p list
  if !s.mayIssue p t line ∨ s.isLineThread p t ≠ decide (e < 4) then s
  else
    let s1 := s.issueOp p t line
    s1.startList (.core p e) (s1.listRun (.core p e) list (s1.lineFrame p t line) line t) true

/-- A semaphore signal arrives at a core (R243, R244): while a full semaphore has DEBT, the signal is
absorbed and the empty signal returned to the producer at once. -/
def State.signalAt (s : State) (p i : Nat) (it : Item) : State :=
  let debt := s.getF (F.CORE_SEM_DEBT p i)
  if s.getF (F.CORE_SEM_KIND p i) = 0 ∧ 0 < debt then
    let l := SMap.get [] (s.core p).debts i
    let s1 := (s.setF (F.CORE_SEM_DEBT p i) (debt - 1)).onCore p fun c => { c with debts := SMap.set [] c.debts i l.tail }
    match l.head? with
    | some (src, empty) => s1.sendSignal p 0 src empty { src := (s.logical p).getD 0 }
    | none => s1
  else s.bumpSem p i it

/-- Signal `n` of those on their way arrives; signals of one sender to one semaphore keep their order
(R243), and one to another band has had its remote slot (R262). -/
def State.signalArrive (s : State) (n : Nat) : State :=
  match s.signals[n]? with
  | none => s
  | some g =>
    if 0 < g.beats ∨ (s.signals.take n).any fun h => h.core == g.core && h.sem == g.sem && h.item.src == g.item.src then s
    else
      let s1 : State := { s.waitUntil g.due with signals := s.signals.eraseIdx n }
      s1.signalAt (s1.phys g.core) g.sem g.item

/-- A thread's semaphore-signal operation (R164, R245): its signal goes out to semaphore `sem` of logical
core `dst`. -/
def State.threadSignal (s : State) (p t line dst sem : Nat) : State :=
  if !s.mayIssue p t line then s
  else (s.issueOp p t line).sendSignal p t dst sem
    { void := s.voidFor p dst line, src := (s.logical p).getD 0, line := line }

/-- SEMAPHORE_SIGNAL_ARRIVAL, and the issue of a thread's signal (R164, R243). -/
def State.signalIn (s : State) : SigIn → State
  | .issue p t line dst sem => s.threadSignal p t line dst sem
  | .arrive n => s.signalArrive n

/-- A list belongs to the clause that a thread carries (R231, R246): one of `lists` on a line-class engine, else one that the
thread started. -/
def State.ownList (s : State) (p t e : Nat) (lists : List Nat) (r : ListRun) : Bool :=
  if s.isLineThread p t then decide (e < 4) && lists.contains r.list else decide (4 ≤ e) && r.thread == t

/-- Engine e holds no list of the thread's clause that has not reached final completion. -/
def State.engDone (s : State) (p t e : Nat) (lists : List Nat) : Bool :=
  let g := (s.core p).eng.getD e {}
  match g.run with
  | some r => !s.ownList p t e lists r
  | none => g.outst.isEmpty

/-- The clause of a thread has drained, but for the semaphores' check and the pipeline (R246): the thread does not wait, each of
the clause's lists has reached final completion, every signal has arrived, and thread 1 of a threaded line clause has drained
before thread 0. -/
def State.drained (s : State) (p t : Nat) (lists : List Nat) : Bool :=
  ((s.core p).threads.getD t {}).wait == .none &&
  (List.range 8).all (fun e => s.engDone p t e lists) &&
  !(s.signals.any fun g => g.sender == p && g.thread == t) &&
  !(t == 0 && s.getF (F.CORE_THREAD_LINE_THREADED p) == 1 && (s.threadClause p 1).isSome)

/-- The cycle in which a thread's drain ends (R164): 8 core cycles after its last operation's latency. -/
def drainEnd (c : CoreSt) (clock t : Nat) : Nat :=
  ceilDiv (max (occupiedUnit c (.latency t)).1 (occupiedUnit c (.issue t)).1 + coreTicks clock 8) ticks

/-- One semaphore at the drain (R246): INIT with DEBT 0, counting DRAIN_ERR where it was not so. -/
def State.drainSem (s : State) (p i : Nat) : State :=
  let init := s.getF (F.CORE_SEM_INIT p i)
  if s.getF (F.CORE_SEM_COUNT p i) = init ∧ s.getF (F.CORE_SEM_DEBT p i) = 0 then s
  else ((s.setFs [(F.CORE_SEM_COUNT p i, init), (F.CORE_SEM_DEBT p i, 0)]).incF (F.CORE_SEM_ERR_DRAIN_ERR p) 1).onCore p
    fun c => { c with items := SMap.set [] c.items i [], debts := SMap.set [] c.debts i [] }

/-- Discard an engine's pending list. -/
def State.dropPending (s : State) (g : EngId) : State :=
  (s.setF (F.ENG_STATE_PENDING g.regs) 0).onEng g fun x => { x with pend := none }

/-- A core has drained its part of a frame-clause run: no thread of it carries the clause (R297, R323). -/
def State.coreDrained (s : State) (p cl : Nat) : State :=
  match s.logical p, s.sched.fcIndex cl with
  | some l, some c =>
    if (s.core p).threads.any fun t => t.clause == some cl then s
    else
      ({ s with fc := s.fc.modify c fun f => { f with run := f.run.map fun r =>
        { r with cores := if r.cores.contains l then r.cores else l :: r.cores } } } : State).runEnds c
  | _, _ => s

/-- A core's line-clause threads take a clause (R159): thread 0, and thread 1 too where it is threaded (R169). -/
def State.giveLine (s : State) (p cl y : Nat) : State :=
  let thr : Bool := ((s.sched.clause cl).map (·.threaded)).getD false
  let s1 := (s.onThread p 0 fun h => { h with clause := some cl, runLine := y }).setF (F.CORE_THREAD_LINE_THREADED p) (b2n thr)
  if thr then s1.onThread p 1 fun h => { h with clause := some cl, runLine := y } else s1

/-- Thread 0 has drained: an abandoned clause may restart (R65), and the clause whose line waits first begins; none where no
line waits. -/
def State.nextLine (s : State) (p cl : Nat) : State :=
  let s1 := s.onCore p fun c => { c with reentry := c.reentry.map fun r =>
    if r.clause = cl ∧ r.waiting then { r with drained := true } else r }
  match (s1.core p).lines.find? fun l => !l.begun && !l.complete with
  | some l => s1.giveLine p l.clause l.y
  | none => s1.setF (F.CORE_THREAD_LINE_THREADED p) 0

/-- A thread lays its clause down: it is idle, and none of its runs goes on. -/
def State.dropClause (s : State) (p t : Nat) : State :=
  let s1 := ((s.onThread p t fun h => { h with clause := none, wait := .none }).setThreadState p t 0).onCore p fun c =>
    { c with progress := c.progress.filter fun e => e.1.1 != t }
  if t = 3 then s1.frameThreads p else s1

/-- A clause's pending lists are discarded at its drain (R246). -/
def State.dropPendings (s : State) (p t : Nat) (lists : List Nat) : State :=
  (List.range 8).foldl (fun s e => match ((s.core p).eng.getD e {}).pend with
    | some r => if s.ownList p t e lists r then s.dropPending (.core p e) else s
    | none => s) s

/-- CLAUSE_DRAINED (R246): `sems` are the semaphores that the clause's links use, `lists` its lists (log entry 10). With the last
of the clause's threads the semaphores are tested; then the next clause of the thread may begin. -/
def State.clauseDrained (s : State) (p t : Nat) (sems lists : List Nat) : State :=
  match s.threadClause p t with
  | none => s
  | some cl =>
    if !s.drained p t lists then s
    else
      let s0 := s.waitUntil (drainEnd (s.core p) (s.clock p) t)
      let others := (List.range 4).any fun u => u != t && s.threadClause p u == some cl && s.isLineThread p u == s.isLineThread p t
      let s1 := if others then s0 else sems.foldl (fun s i => s.drainSem p i) s0
      let s2 := (if others ∧ s.isLineThread p t then s1 else s1.dropPendings p t lists).dropClause p t
      if !s.isLineThread p t then s2.coreDrained p cl
      else if t = 0 then s2.nextLine p cl else s2

/-! ### Barriers (R278) -/

/-- BARRIER_ARRIVE: a frame-clause thread arrives and waits; one whose run has failed does not wait (R278). -/
def State.barrierArrive (s : State) (p t line g : Nat) : State :=
  match s.logical p with
  | none => s
  | some l =>
    if !s.mayIssue p t line ∨ s.isLineThread p t ∨ !bit (s.sched.barriers.getD g 0) l then s
    else
      let s1 := (s.issueOp p t line).arriveBarrier l g
      let failed : Bool := match (s.threadClause p t).bind s.sched.fcIndex with
        | some i => (((s.fc.getD i {}).run.map (·.failed)).getD false)
        | none => false
      if failed then s1 else s1.setWait p t (.barrier g)

/-- A barrier group after it has completed: one arrival of each member is used up, and where each has made another one already,
the last of those has come. -/
def barrierNext (b : BarrierSt) (members : List Nat) (now : Nat) : BarrierSt :=
  let arr := members.foldl (fun a m => SMap.set 0 a m (SMap.get 0 a m - 1)) b.arrived
  { b with arrived := arr, lastAt := if members ≠ [] ∧ members.all (fun m => SMap.get 0 arr m != 0) then some now else none }

/-- BARRIER_COMPLETE: 18 + 4⌈log₂N⌉ fabric cycles after the last arrival every member goes on (R278). -/
def State.barrierComplete (s : State) (g : Nat) : State :=
  match (SMap.get ({} : BarrierSt) s.fab.barriers g).lastAt with
  | none => s
  | some t =>
    let ms := s.barrierMembers g
    let s1 := s.waitUntil (t + 18 + 4 * clog2 ms.length)
    let s2 := ms.foldl (fun s l => s.each 4 fun s t =>
      if ((s.core (s.phys l)).threads.getD t {}).wait = .barrier g then s.setWait (s.phys l) t .none else s) s1
    let b := barrierNext (SMap.get ({} : BarrierSt) s2.fab.barriers g) ms s2.now
    ({ s2 with fab := { s2.fab with barriers := SMap.set ({} : BarrierSt) s2.fab.barriers g b } } : State).incF F.FAB_BARRIERS_BARRIERS 1

/-! ### The scratchpad in the background (R201, R207 to R209) -/

/-- BACKGROUND_ACCESS (R201): the access at `a` of `n` bytes is served in a cycle without a foreground access to its banks (`busy`
false), oldest first and one in a cycle; else it waits one cycle and counts in BG_WAIT. A served read checks its words (R207,
R209), and a correction delays only itself (R208); a served partial write checks the words it merges into (R207). -/
def State.background (s : State) (p a n : Nat) (write busy : Bool) (e : EccIn) : State :=
  let q := s.bgTurn p [(a, n)] busy
  if !q.2 then q.1
  else if write then q.1.spadMerge p (partWords a n) e.ce e.ue
  else (q.1.spadRead p (touchWords a n) e).1

/-- CORRECTION_STALL_END (R208): the 2-cycle stall has passed and the core goes on. -/
def State.stallOver (s : State) (p : Nat) : State :=
  if (s.core p).stallEnd = 0 then s
  else (s.waitUntil (s.core p).stallEnd).onCore p fun c => { c with stallEnd := 0 }

/-! ### Line-store writes by a core (R224) -/

/-- LINE_STORE_SLOT_WRITE: thread t has written padded line y′ of ring pronoun n and the slot is marked, or
the thread waits for the slot (R224, R226). -/
def State.slotWrite (s : State) (p t line n y : Nat) : State :=
  let r := s.prn p n
  let b := bandOf p
  if r.place ≠ 2 ∨ !s.mayIssue p t line then s
  else
    let s1 := s.issueOp p t line
    if s1.lsReady b r y then s1.lsMark b r y else s1.setWait p t (.slot (r.slotAddr y))

end Sys2Proof.Machine
end

