-- ==== Sys2Proof/Machine/Lines.lean ====
section
/-! DEFINITION. Output lines: the start of a line clause (R60, R65), the fallback scaler (R102 to R105), and
the line selector at the deadline (R63 to R70, R211). -/
namespace Sys2Proof.Machine

/-! ### Geometry -/

/-- The mode whose lines an output frame has: a frame after an installed change has the new mode (R294). -/
def State.modeOf (s : State) (f : Nat) : Mode :=
  let id := match s.change with
    | some c => if c.installed ∧ f ≠ s.cal.frame then c.mode else s.getF F.CAL_MODE_MODE_CUR
    | none => s.getF F.CAL_MODE_MODE_CUR
  (s.prog.mode id).getD default

/-- Bucket size of the schedule that computes an output frame (R294). -/
def State.bucketOf (s : State) (f : Nat) : Nat × Nat :=
  match s.change with
  | some c => if c.installed ∧ f ≠ s.cal.frame then bucketSize c.bucket else bucketSize s.bucket
  | none => bucketSize s.bucket

/-- First column and width of segment l of an output frame (R257). -/
def State.segment (s : State) (f l : Nat) : Nat × Nat :=
  let w := (s.modeOf f).w
  (segX0 w s.sched.segUnit s.nCores l, segWidth w s.sched.segUnit s.nCores l)

/-! ### The start slot (R60, R65, R528) -/

/-- A core is STOPPED (R528). -/
def State.stoppedCore (s : State) (p : Nat) : Bool := s.getF (F.PWR_WX_STATE_STOPPED p) == 1

/-- A clause that waits to restart, and has drained, restarts at line (f, y) (R65). -/
def State.restartAt (s : State) (p cl f y : Nat) : State :=
  if (s.core p).reentry.any fun r => r.clause == cl && r.waiting then
    (s.incF (F.CORE_LINE_MISS_REENTRIES p) 1).onCore p fun c => { c with reentry := c.reentry.map fun r =>
      if r.clause = cl ∧ r.waiting then { r with waiting := false, frame := f, y := y } else r }
  else s

/-- One core takes the start slot of clause `cl` for line (f, y) (R62, R65): the line is in flight. An abandoned clause that has
not drained lets the slot pass, and completes the protocol of the line's items (`owed`, R244). -/
def State.startLine (s : State) (p cl f y phase : Nat) (owed : List Owed) : State :=
  if (s.core p).reentry.any fun r => r.clause == cl && r.waiting && !r.drained then s.settle p owed
  else
    let s1 := (s.restartAt p cl f y).onCore p fun c => { c with lines := c.lines ++
      [{ clause := cl, frame := f, y := y, sAt := s.now, sPhase := 4096 * s.cal.line + phase, sFrame := s.cal.frame }] }
    if (s1.threadClause p 0).isNone then s1.giveLine p cl y else s1

/-- The clause whose output the deadline of output line y selects (R47, R48). -/
def State.displayed (s : State) (y : Nat) : Option Nat :=
  let v := max 1 s.vTotal
  (s.almanac.find? fun e => e.kind == 2 && (List.range v).any fun x => e.names v x && decide (((x : Int) + e.lead - y) % v = 0)).map
    (·.arg)

/-- START_LINE_CLAUSE: entry `i` fires at S(y). The fallback scaler starts the line at S(y) of the clause that the line's deadline
selects (R104). `owed` gives, by physical core, what the lines of a STOPPED core, or of an abandoned clause, would have touched
(R244, R528). -/
def State.startSlot (s : State) (i : Nat) (owed : List (Nat × List Owed)) : State :=
  if !s.due i 1 then s
  else
    let a := s.actsFor i
    let e := s.entry i
    let s1 := s.fire i
    let cl := e.arg
    let s2 := if s.displayed a.2 = some cl then { s1 with fbStarted := s1.fbStarted ++ [(a.1, a.2, s1.now)] } else s1
    s2.each s2.nCores fun s l =>
      let p := s.phys l
      if !s.active p then s
      else
        let own := ((owed.find? fun o => o.1 == p).map (·.2)).getD []
        if s.stoppedCore p then s.settle p own else s.startLine p cl a.1 a.2 e.phase own

/-! ### The fallback scaler (R102 to R105) -/

/-- Padded ring lines that the fallback scaler reads for output line y (R102). -/
def State.fbRows (s : State) (f : Nat) (r : Prn) (y : Nat) : List Nat :=
  (filterRows (s.bucketOf f).2 (s.modeOf f).vActive y).map fun k => k + r.oy

/-- Where pixel x of a bucket row stands in a band's ring (R311). -/
def State.ringAddr (s : State) (b : Nat) (r : Prn) (k x : Nat) : Nat :=
  r.posAddr 0 (k + r.oy) (clampIdx r.pw ((x : Int) + r.ox - s.sched.rt.xIn.getD b 0))

/-- A bucket row as the fallback scaler sees it in a band's ring: channels 0 to 2 (R311). A pixel with a word in `bad` reads as
free values (DESIGN CHOICE, log entry 72). -/
def State.ringRow (s : State) (b : Nat) (r : Prn) (wb : Nat) (bad : List Nat) (k : Nat) : List Pix :=
  (List.range wb).map fun (x : Nat) =>
    let a := s.ringAddr b r k x
    let free (i : Nat) : Nat := Config.freeValue (s.free + 3 * (k * wb + x) + i) % 65536
    if (touchWords a 6).any fun w => bad.contains w then ⟨free 0, free 1, free 2⟩ else bytesPix (s.readMem 2 b a 6)

/-- The words that the fallback scaler reads for segment l of output line (f, y): the tap rows, from the first column of the
segment's taps to the last (R102). -/
def State.fbWords (s : State) (f y l : Nat) : List Nat :=
  let b := l / 8
  let r := s.bprn b s.sched.rt.warpPrn
  let bk := s.bucketOf f
  let m := s.modeOf f
  let sg := s.segment f l
  let lo := clampIdx bk.1 (filterIdx bk.1 m.w sg.1 - 2)
  let hi := clampIdx bk.1 (filterIdx bk.1 m.w (sg.1 + sg.2 - 1) + 3)
  ((filterRows bk.2 m.vActive y).flatMap fun k => (List.range (hi + 1 - lo)).flatMap fun j =>
    touchWords (s.ringAddr b r k (lo + j)) 6).dedup

/-- The fallback segment's pixels, after the output conversion (R102, R105). `bad`: words that read as uncorrectable. -/
def State.fbPixels (s : State) (f y l : Nat) (bad : List Nat) : List Pix :=
  let b := l / 8
  let r := s.bprn b s.sched.rt.warpPrn
  let bk := s.bucketOf f
  let m := s.modeOf f
  let sg := s.segment f l
  let v := filterRowV s.prog.fbV bk.2 m.vActive y bk.1 (s.ringRow b r bk.1 bad)
  (filterRowH s.prog.fbH bk.1 m.w sg.1 sg.2 v).map (outConvert s.prog.convM s.prog.convO)

/-- FBH clears for the rows whose last output line is y (R225): those below the first row of the next line. -/
def State.fbClear (s : State) (f y b : Nat) : State :=
  let r := s.bprn b s.sched.rt.warpPrn
  let m := s.modeOf f
  let bk := s.bucketOf f
  let top := if y + 1 < m.vActive then (filterRows bk.2 m.vActive (y + 1)).foldl min bk.2 else bk.2
  if r.place ≠ 2 then s
  else (List.range r.ring).foldl (fun s k => if k < top then s.lsFbDone b r (top - 1 - k + r.oy) else s) s

/-- FALLBACK_SEGMENT_COMPLETE (R104): segment l of output line (f, y). `e`: words of its reads that were corrected or
uncorrectable (R222); an uncorrectable one leaves its pixels free (DESIGN CHOICE, log entry 72). -/
def State.fbComplete (s : State) (f y l : Nat) (e : EccIn) : State :=
  match s.fbStarted.find? fun x => x.1 == f && x.2.1 == y with
  | none => s
  | some (_, _, t0) =>
    let b := l / 8
    let r := s.bprn b s.sched.rt.warpPrn
    let rows := s.fbRows f r y
    if s.nCores ≤ l ∨ r.place ≠ 2 ∨ !(rows.all fun k => s.lsPresent b r k) ∨
      (s.fbSegs.any fun x => x.frame == f && x.y == y && x.seg == l) then s
    else
      let t := rows.foldl (fun m k => max m (s.slot b (r.slotAddr k)).at_) t0 + 600
      let words := s.fbWords f y l
      let bad := words.filter fun w => e.ue.contains w || SMap.get 0 (s.band b).bad w != 0
      let px := s.fbPixels f y l bad
      let s0 := ((s.waitUntil t).lsRead b words e.ce e.ue).1
      let s1 : State := if bad = [] then s0 else { s0 with free := s0.free + 3 * (s.bucketOf f).1 * (s.bucketOf f).2 }
      let s2 : State := { s1 with fbSegs := s1.fbSegs ++ [{ frame := f, y := y, seg := l, done := t, px := px }] }
      if (List.range 8).all fun k => s2.fbSegs.any fun x => x.frame == f && x.y == y && x.seg == 8 * b + k
      then s2.fbClear f y b else s2

/-! ### Selection (R63, R66) -/

/-- Slip budget left, as a fraction of phase units: numerator and denominator (R62, R211). -/
def State.budgetLeft (s : State) (p i : Nat) (l : LineFl) (extra : Nat) : Int × Nat :=
  let dph := 4096 * s.cal.line + (s.entry i).phase + (if l.sFrame = s.cal.frame then 0 else 4096 * s.getF F.CAL_VTOTAL_VT_PREV)
  let plan := ((s.sched.clause l.clause).map (·.plan)).getD 0
  let k := max 1 (s.clock p * s.lp)
  (((dph : Int) - l.sPhase) * (4096 * k : Nat) - (plan * 15 * 4096 * 65536 * 4096 : Nat) - ((l.charge + extra) * k : Nat), 4096 * k)

/-- The carry-over wait of a line that has not begun, while the core still issues the clause's earlier lines
(R210). -/
def State.carryOver (s : State) (p : Nat) (l : LineFl) : Nat :=
  if l.begun then 0
  else if issuesEarlier (s.core p) l.clause l.frame l.y then
    chargeOf s.lp (s.clock p) (coreCycles (s.clock p) (max l.sAt l.carried) s.now)
  else 0

/-- VOID items make a core's segment of line y take source 2 or 3 (R245, R267). -/
def State.voidCauses (s : State) (p y : Nat) : List Nat :=
  ((s.core p).voids.filter fun v => decide ((y + s.vActive - v.line) % max 1 s.vActive ≤ v.warm)).map (·.cause)

/-- Line (f, y) of a clause lies between the first line that its abandonment spoils and the end of its warm-up (R65). -/
def reentryBars (r : Reentry) (f y : Nat) : Bool :=
  !lineBefore f y r.fromFrame r.fromY && (r.waiting || lineBefore f y r.frame r.y || decide (0 < r.warm))

/-- Line clauses whose line (f, y) a core holds in flight and has not started. -/
def State.lateClauses (s : State) (p f y : Nat) : List Nat :=
  ((s.core p).lines.filter fun x => x.frame == f && x.y == y && !x.begun && !x.complete).map (·.clause)

/-- Whether the core's segment of line (f, y) is kept from source 1 whatever it holds (R65, R245, R294,
R528), with the causes: any of its line clauses has been abandoned and has not passed its warm-up, or has not started the line. -/
def State.barred (s : State) (p f y : Nat) : List Nat :=
  (((s.core p).reentry.filter fun r => reentryBars r f y).map (·.cause)) ++ s.voidCauses p y ++
  (if s.getF F.CAL_STATUS_REALTIME = 1 then (s.lateClauses p f y).map fun _ => 6 else []) ++
  (match s.firstLines with | some (ff, e) => if ff = f ∧ y < e then [6] else [] | none => []) ++
  (if s.stoppedCore p then [6] else [])

/-- The lowest non-zero cause of a miss (R70); 5 where none is charged (R211, R304). -/
def missCause (l : List Nat) : Nat :=
  let k := l.filter fun c => c != 0
  if k = [] then 5 else k.foldl min 15

/-- The fallback segment l of line (f, y), where it is complete now (R104). -/
def State.fbAt (s : State) (f y l : Nat) : Option (List Pix) :=
  (s.fbSegs.find? fun x => x.frame == f && x.y == y && x.seg == l && decide (x.done ≤ s.now)).map (·.px)

/-- The three sources of segment l of line (f, y), in order (R63): the number and the pixels. The rows are those of the clause that
the deadline names (R48). -/
def State.segSource (s : State) (cl f y l : Nat) : Nat × List Pix :=
  let p := s.phys l
  let sg := s.segment f l
  let neural := (s.core p).seg.find? fun r => r.clause == cl && r.frame == f && r.y == y
  match (if s.active p ∧ s.barred p f y = [] then neural else none) with
  | some r => (1, r.px)
  | none =>
    match s.fbAt f y l with
    | some px => (2, px)
    | none =>
      match (if y = 0 then none else s.sel.find? fun x => x.frame == f && x.y + 1 == y) with
      | some x => (3, (x.px.drop sg.1).take sg.2)
      | none => (3, List.replicate sg.2 s.black)

/-- One component blended at distance d from the seam (R66). -/
def blendComp (h d n f : Nat) : Nat := (n * (2 * d + 1) + f * (2 * h - 2 * d - 1) + h) / (2 * h)
/-- One pixel blended. -/
def blendPix (h d : Nat) (n f : Pix) : Pix := ⟨blendComp h d n.c0 f.c0, blendComp h d n.c1 f.c1, blendComp h d n.c2 f.c2⟩

/-- SEAM_BLEND (R66): a neural segment beside fallback segments. -/
def blendSeg (h : Nat) (left right : Bool) (n f : List Pix) : List Pix :=
  (List.range n.length).map fun j =>
    let a := n.getD j default
    let q := f.getD j a
    let a1 := if left ∧ j < h then blendPix h j a q else a
    if right ∧ n.length < j + 1 + h then blendPix h (n.length - 1 - j) a1 q else a1

/-- After the deadline of line (f, y) a core's row of it is free, its VOID spans and warm-ups have passed one line more, and its
lines (f, y) are judged. -/
def passLine (c : CoreSt) (va f y : Nat) : CoreSt :=
  { c with
    seg := c.seg.filter fun r => !(r.frame == f && r.y == y)
    voids := c.voids.filter fun v => (v.line + v.warm) % va != y
    reentry := (c.reentry.map fun r =>
      if !r.waiting ∧ (r.going ∨ (r.frame = f ∧ r.y = y)) then { r with going := true, warm := r.warm - 1 } else r).filter
        fun r => r.waiting || !(r.going && r.warm == 0)
    lines := (c.lines.map fun x => if x.frame = f ∧ x.y = y then { x with judged := true } else x).filter fun x =>
      !(x.judged && x.complete) }

/-- MIN_LEFT of the output frame of a line that the deadline judges (R211). -/
def State.noteLeft (s : State) (p f : Nat) (left : Int × Nat) : State :=
  s.onCore p fun c =>
    let v := clampI (-32768) 32767 (Int.fdiv left.1 left.2)
    if f = s.cal.frame then { c with minLeft := min c.minLeft v } else { c with minLeftNext := min c.minLeftNext v }

/-- What the deadline of line (f, y) does to one core: its counters, causes, slip budget, output rows, and the abandonment of
every line clause that has not started the line (R65, R69, R211, R248). `src` is the source taken. -/
def State.judgeCore (s : State) (i cl f y l src : Nat) (owed : List Owed) : State :=
  let p := s.phys l
  let rt := s.getF F.CAL_STATUS_REALTIME == 1
  let mine := (s.core p).lines.filter fun x => x.frame == f && x.y == y
  let ln := mine.find? fun x => x.clause == cl
  let left : Int × Nat := match ln with | some x => s.budgetLeft p i x (s.carryOver p x) | none => (0, 1)
  let late := s.lateClauses p f y
  let causes := mine.flatMap (·.causes) ++ (if left.1 < 0 then [5] else []) ++ s.barred p f y
  let s1 := if ln.isSome then s.noteLeft p f left else s
  let s2 := if src = 1 ∨ !rt then s1
    else (s1.incF (F.CORE_LINE_MISS_MISSES p) 1).recordCause p (missCause causes)
  let s3 := s2.onCore p fun c => passLine c (max 1 s.vActive) f y
  if rt ∧ late ≠ [] then late.foldl (fun s k => s.abandon p k 6 (f, y) []) (s3.settle p owed) else s3

/-- LINE_DEADLINE: entry `i` fires at D(y) and every segment is taken from the first complete source
(R63). A seam is blended with the neural segment's own fallback segment (R66); where that segment is not complete, the spec does not
say with what, and the seam is left unblended (DESIGN CHOICE, log entry 73). Four composed lines are kept for a capture of what
Frost released (R387, log entry 86). `owed` gives, by physical core, what an abandonment
owes. -/
def State.lineDeadline (s : State) (i : Nat) (owed : List (Nat × List Owed)) : State :=
  if !s.due i 2 then s
  else
    let a := s.actsFor i
    let f := a.1
    let y := a.2
    let s1 := s.fire i
    let cl := (s.entry i).arg
    let n := s1.nCores
    let srcs := (List.range n).map fun l => s1.segSource cl f y l
    let src (l : Nat) : Nat := (srcs.getD l (0, [])).1
    let h := s1.getF F.CAL_SEAM_SEAM_H
    let px := (List.range n).flatMap fun l =>
      let q := (srcs.getD l (0, [])).2
      if src l = 1 ∧ h ≠ 0 then
        match s1.fbAt f y l with
        | some b => blendSeg h (decide (0 < l) && src (l - 1) == 2) (decide (l + 1 < n) && src (l + 1) == 2) q b
        | none => q
      else q
    let s2 := (List.range n).foldl (fun s l =>
      s.judgeCore i cl f y l (src l) (((owed.find? fun o => o.1 == s.phys l).map (·.2)).getD [])) s1
    let n2 := ((List.range n).filter fun l => src l == 2).length
    let n3 := ((List.range n).filter fun l => src l == 3).length
    let rt := s1.getF F.CAL_STATUS_REALTIME == 1
    let assigned : Bool := match s1.firstLines with | some (ff, e) => ff == f && decide (y < e) | none => false
    let s3 := if rt then
        let s3 := (s2.incF F.CAL_FB_SEGS_FB_SEGS n2).incF F.CAL_RPT_SEGS_RPT_SEGS n3
        let s4 : State := if f = s.cal.frame then { s3 with fbNow := s3.fbNow + n2 + n3 } else { s3 with fbNext := s3.fbNext + n2 + n3 }
        if 0 < n2 + n3 ∧ !assigned then s4.tdAdd f fun t => { t with lines := t.lines + 1 } else s4
      else s2
    let s4 := s3.each s3.nBands fun s b => s.fbClear f y b
    { s4 with
      sel := { frame := f, y := y, at_ := s1.now, src := srcs.map (·.1), px := px } ::
        (s4.sel.filter (fun x => !x.composed) ++ (s4.sel.filter (·.composed)).take 4)
      fbSegs := s4.fbSegs.filter fun x => !(x.frame == f && x.y == y)
      fbStarted := s4.fbStarted.filter fun x => !(x.1 == f && x.2.1 == y) }

end Sys2Proof.Machine
end

