-- ==== Sys2Proof/Machine/Ledger.lean ====
section
/-! DEFINITION. The weathering ledger: records (R530), the queue, appends and compaction (R503, R504, R531). -/
namespace Sys2Proof.Machine

/-- A ledger record of 64 bytes (R530). -/
def ledgerBytes (kind unit frame time : Nat) (payload : List Byte) : List Byte :=
  let b := toLe 1 kind ++ toLe 1 1 ++ toLe 2 unit ++ toLe 4 frame ++ toLe 8 time ++ padTo 40 (payload.take 40) ++ toLe 4 0
  b ++ toLe 4 (crc32 b)

/-- A slot passes its check (R530). -/
def ledgerOk (b : List Byte) : Bool := b.length == 64 && leAt b 60 4 == crc32 (b.take 60)

/-- A half's header (R503). -/
def ledgerHeader (gen : Nat) : List Byte :=
  let b := ascii "AQVLEDG1" ++ toLe 4 gen ++ List.replicate 48 (0 : Byte)
  b ++ toLe 4 (crc32 b)
/-- A slot holds a valid header. -/
def headerOk (b : List Byte) : Bool := ledgerOk b && b.take 8 == ascii "AQVLEDG1" && leNat (sliceB b 12 48) == 0

/-- A record joins the queue of 64, or is lost (R504). -/
def State.ledger (s : State) (kind unit : Nat) (payload : List Byte) : State :=
  if 64 ≤ s.led.queue.length then s.incF F.DEV_LEDGER_CNT_LOST 1
  else
    ({ s with led := { s.led with queue := s.led.queue ++ [ledgerBytes kind unit s.cal.frame s.now payload] } }).setF
      F.DEV_LEDGER_QUEUED (s.led.queue.length + 1)

/-- Slot `k` of a half; empty where unused. -/
def State.ledSlot (s : State) (half k : Nat) : List Byte := SMap.get [] s.led.slots (32768 * half + k)
/-- The used slots of a half, in slot order, without its header. -/
def State.ledRecords (s : State) (half : Nat) : List (List Byte) :=
  (s.led.slots.filter fun e => decide (32768 * half < e.1) && decide (e.1 < 32768 * (half + 1))).map (·.2)

/-- No later record of the list satisfies `q`. -/
def noLater (q : List Byte → Bool) (l : List (List Byte)) : Bool := !(l.any q)

/-- Kind and unit of a record. -/
def ledKind (r : List Byte) : Nat := leAt r 0 1
/-- Unit of a record. -/
def ledUnit (r : List Byte) : Nat := leAt r 2 2

/-- The records in force (R531), in their original order: `rest` are the records after the one looked at. -/
def inForce : List (List Byte) → List (List Byte)
  | [] => []
  | r :: rest =>
    let k := ledKind r
    let u := ledUnit r
    let same (ks : List Nat) (x : List Byte) : Bool := ks.contains (ledKind x) && ledUnit x == u
    let keep : Bool :=
      if k = 2 ∨ k = 3 ∨ k = 4 then true
      else if k = 5 then noLater (same [5]) rest
      else if k = 6 then noLater (fun x => ledKind x == 6) rest
      else if k = 7 then noLater (same [7, 8]) rest
      else if k = 9 then noLater (same [8]) rest
      else if k = 1 ∨ k = 10 ∨ k = 11 then
        decide ((rest.filter fun x => [1, 10, 11].contains (ledKind x)).length < 256)
      else false
    if keep then r :: inForce rest else inForce rest

/-- Write a half afresh: records from slot 1 on, then its header (R504). -/
def State.writeHalf (s : State) (half gen : Nat) (rs : List (List Byte)) : State :=
  let kept := s.led.slots.filter fun e => !(decide (32768 * half ≤ e.1) && decide (e.1 < 32768 * (half + 1)))
  let slots := (List.range rs.length).foldl (fun m i => SMap.set [] m (32768 * half + 1 + i) (rs.getD i [])) kept
  ({ s with led := { s.led with
      slots := SMap.set [] slots (32768 * half) (ledgerHeader gen), next := rs.length + 1, valid := true } }).setFs
    [(F.DEV_LEDGER_HALF, half), (F.DEV_LEDGER_GEN_GEN, gen), (F.DEV_LEDGER_USED, rs.length + 1), (F.DEV_LEDGER_COMPACTING, 0)]

/-- LEDGER_COMPACTION (R504). -/
def State.compact (s : State) : State :=
  let half := s.getF F.DEV_LEDGER_HALF
  let rs := inForce ((s.ledRecords half).filter ledgerOk)
  if 32767 < rs.length then s.setF F.DEV_LEDGER_FULL 1
  else s.writeHalf (1 - half) ((s.getF F.DEV_LEDGER_GEN_GEN + 1) % 2 ^ 32) rs

/-- The ledger can be programmed now (R504, R505, R551): the bus is free of the container, nothing has stopped it, and an
active half exists or boot is complete. -/
def State.ledgerReady (s : State) : Bool :=
  s.getF F.DEV_HOTPLUG_NOR_STOP == 0 && s.getF F.DEV_LEDGER_FULL == 0 && s.boot.done.contains 6 &&
  (s.led.valid || s.getF F.DEV_BOOT_COMPLETE == 1)

/-- LEDGER_APPEND (R504): one record goes to the first unused slot; where the records in force leave none, appends stop. Without a valid half, half 0 is erased and
its header written first (R505); a compaction that was cut short is begun again. -/
def State.ledgerAppend (s : State) : State :=
  if !s.ledgerReady then s
  else
    let s0 := if s.led.valid then s else s.writeHalf 0 1 []
    let s1 := if 32767 < s0.led.next then s0.compact else s0
    match s1.led.queue with
    | [] => s1
    | r :: rs =>
      if s1.getF F.DEV_LEDGER_FULL = 1 then s1
      else if 32767 < s1.led.next then s1.setF F.DEV_LEDGER_FULL 1
      else
        let half := s1.getF F.DEV_LEDGER_HALF
        let k := s1.led.next
        let s2 := ({ s1 with led := { s1.led with
          slots := SMap.set [] s1.led.slots (32768 * half + k) r, queue := rs, next := k + 1 } }).setFs
          [(F.DEV_LEDGER_USED, s1.getF F.DEV_LEDGER_USED + 1), (F.DEV_LEDGER_QUEUED, rs.length)]
        if k = 32767 then s2.compact else s2

end Sys2Proof.Machine
end

