-- ==== Sys2Proof/Machine/Fabric.lean ====
section
/-! DEFINITION. Operations that span a band or the device (chapter 09): consistent snapshots (R280 to R282), the
handover interval (R271) and the handover of a logical number (R272, R273). -/
namespace Sys2Proof.Machine

/-! ### Snapshots (R280 to R282) -/

/-- DEST as the registers hold it. -/
def State.snapDest (s : State) : Nat := s.getF F.FAB_SNAP_DEST_LO_DEST_LO + 2 ^ 32 * s.getF F.FAB_SNAP_DEST_HI_DEST_HI
/-- Size of the DRAM window (R10): 8 GiB. -/
def dramSize : Nat := 0x200000000

/-- The memories that a snapshot of band b copies: offset in the band's area, whether it is the line store,
the unit's number, length (R280). -/
def snapParts (spad ls : Bool) (b : Nat) : List (Nat × Bool × Nat × Nat) :=
  (if spad then (List.range 9).map fun k => (k * 0x80000, false, 9 * b + k, 0x80000) else []) ++
  (if ls then [(0x480000, true, b, 0x600000)] else [])

/-- Bytes that each band copies. -/
def snapBytes (spad ls : Bool) : Nat := (if spad then 9 * 0x80000 else 0) + (if ls then 0x600000 else 0)

/-- Some frame of the input-frame history came from an encrypted picture, or the selected input is encrypted
(R281 reason 4). -/
def State.encryptedPicture (s : State) : Bool :=
  ((geoPorts s.inp.geo).any fun n => s.getF (F.INP_PORT_STATUS_ENCRYPTED n) == 1) ||
  (s.hist.any fun h => h.frame.isSome && h.encrypted)

/-- A line of a frame has begun. -/
def State.begunLine (s : State) (frame line : Nat) : Bool :=
  s.cal.running && (if frame = s.cal.frame then decide (line ≤ s.cal.line)
    else decide (sext 32 (frame + 2 ^ 32 - s.cal.frame) < 0))

/-- The lowest reason for which an arming is refused, 0 for none (R281). -/
def State.snapReason (s : State) : Nat :=
  let bands := s.getF F.FAB_SNAP_CTRL_BANDS
  let spad := s.getF F.FAB_SNAP_CTRL_SPAD == 1
  let ls := s.getF F.FAB_SNAP_CTRL_LS == 1
  let line := s.getF F.FAB_SNAP_LINE_LINE
  let frame := s.getF F.FAB_SNAP_FRAME_FRAME
  let st := s.getF F.FAB_SNAP_STATUS_STATE
  let dest := s.snapDest
  let last := ((List.range 8).filter fun b => bit bands b).foldl
    (fun m b => (snapParts spad ls b).foldl (fun m x => max m (dest + b * 0x1000000 + x.1 + x.2.2.2)) m) dest
  if s.getF F.CAL_STATUS_REALTIME = 1 then 1
  else if s.lp < 512 * s.nBands * 65536 then 2
  else if dest % 0x1000000 ≠ 0 ∨ dest < dramBase ∨ dramBase + dramSize < last then 3
  else if s.encryptedPicture then 4
  else if s.begunLine frame line then 5
  else if st = 1 ∨ st = 2 then 6
  else if s.getF F.CAL_VLIMITS_VT_MAX ≤ line ∨ (frame = s.cal.frame ∧ (s.cal.vTot.map fun v => decide (v ≤ line)).getD false) then 7
  else 0

/-- SNAPSHOT_ARM (R281, R282): the values now held are latched, or the arming is refused with a reason. -/
def State.snapArm (s : State) : State :=
  let r := s.snapReason
  if r ≠ 0 then s.setF F.FAB_SNAP_STATUS_REFUSE r
  else
    let spad := s.getF F.FAB_SNAP_CTRL_SPAD == 1
    let ls := s.getF F.FAB_SNAP_CTRL_LS == 1
    ({ s with fab := { s.fab with snap := {
        bands := s.getF F.FAB_SNAP_CTRL_BANDS, spad := spad, ls := ls, line := s.getF F.FAB_SNAP_LINE_LINE
        frame := s.getF F.FAB_SNAP_FRAME_FRAME, dest := s.snapDest, lps := ceilDiv (snapBytes spad ls) 524288 } } }).setF
      F.FAB_SNAP_STATUS_STATE 1

/-- SNAPSHOT_CANCEL (R282): an armed snapshot returns to idle; none once copying. -/
def State.snapCancel (s : State) : State :=
  if s.getF F.FAB_SNAP_STATUS_STATE = 1 then
    ({ s with fab := { s.fab with snap := {} } }).setF F.FAB_SNAP_STATUS_STATE 0
  else s

/-- SNAPSHOT_STOP (R280): at phase 0 of the chosen line the named bands stop, and the memories are held as they
stand. -/
def State.snapStop (s : State) : State :=
  let n := s.fab.snap
  if s.getF F.FAB_SNAP_STATUS_STATE = 1 ∧ !n.stopped ∧ n.frame = s.cal.frame ∧ n.line = s.cal.line then
    let image := ((List.range 8).filter fun b => bit n.bands b).flatMap fun b =>
      (snapParts n.spad n.ls b).map fun x =>
        ({ off := n.dest - dramBase + b * 0x1000000 + x.1, len := x.2.2.2
           mem := if x.2.1 then (s.band x.2.2.1).mem else (s.core x.2.2.1).spad
           bad := if x.2.1 then (s.band x.2.2.1).bad else (s.core x.2.2.1).bad } : SnapMem)
    { s.warpCounted n.bands with fab := { s.fab with snap := { n with stopped := true, image := image } } }
  else s

/-- Reason 7 found at the decision of V_TOTAL (R281). -/
def State.snapVTotal (s : State) (v : Nat) : State :=
  let n := s.fab.snap
  if s.getF F.FAB_SNAP_STATUS_STATE = 1 ∧ n.frame = s.cal.frame ∧ v ≤ n.line then
    ({ s with fab := { s.fab with snap := {} } }).setFs [(F.FAB_SNAP_STATUS_STATE, 0), (F.FAB_SNAP_STATUS_REFUSE, 7)]
  else s

/-- Every transfer of a band's engines is complete. -/
def State.bandQuiet (s : State) (b : Nat) : Bool :=
  ((List.range 9).all fun k => (s.core (9 * b + k)).eng.all fun e => e.outst.isEmpty) &&
  ((s.band b).eng.all fun e => e.outst.isEmpty)

/-- SNAPSHOT_COPY_START (R280): once outstanding transfers are complete the bands begin copying, 512 KiB per LP
from the next line start. -/
def State.snapStart (s : State) : State :=
  let n := s.fab.snap
  if s.getF F.FAB_SNAP_STATUS_STATE = 1 ∧ n.stopped ∧ ((List.range 8).all fun b => !bit n.bands b || s.bandQuiet b) then
    ({ s with fab := { s.fab with snap := { n with left := n.lps + 1 } } }).setF F.FAB_SNAP_STATUS_STATE 2
  else s

/-- A line starts while a copy is under way: another 512 KiB of each band (R280). -/
def State.snapLine (s : State) : State :=
  if s.getF F.FAB_SNAP_STATUS_STATE = 2 then
    { s with fab := { s.fab with snap := { s.fab.snap with left := s.fab.snap.left - 1 } } }
  else s

/-- SNAPSHOT_COPY_COMPLETE (R280, R282): the copy stands in DRAM and the cores resume. -/
def State.snapDone (s : State) : State :=
  let n := s.fab.snap
  if s.getF F.FAB_SNAP_STATUS_STATE = 2 ∧ n.left = 0 then
    let s1 : State := if s.getF F.DEV_HOTPLUG_WSTOP = 1 then s else
      n.image.foldl (fun s m => { s with dram := SMap.blit s.dram m.off m.len (m.mem.filter fun e => e.2 != 0)
                                         dramBad := SMap.blit s.dramBad (m.off / 16) (m.len / 16) m.bad }) s
    ({ s1.warpCounted n.bands with fab := { s1.fab with snap := {} } }).setFs
      [(F.FAB_SNAP_STATUS_STATE, 3), (F.FAB_SNAP_STATUS_LPS, n.lps)]
  else s

/-! ### The handover interval (R271) -/

/-- The cycle in which the current frame's calendar reaches line x and phase ph (R43, R49). -/
def State.cycleAt (s : State) (x ph : Nat) : Nat :=
  s.cal.t0 + ceilDiv (x * s.lp + ceilDiv (ph * s.lp) 4096 - s.cal.acc0) 65536

/-- Firings of a kind in a frame of v lines: the entry and the line. -/
def State.firings (s : State) (v kind : Nat) : List (AlmEntry × Nat) :=
  s.almanac.flatMap fun e =>
    if e.kind = kind ∧ !(e.base = 1 ∧ s.noBase1) then
      (List.range v).filterMap fun x => if e.names v x then some (e, x) else none
    else []

/-- Spans of the frame in which no handover interval can lie (R271): from S(y) of each clause to D(y) of every line that starts in
the frame (to the end where D(y) falls in the next frame), and the kind-7 windows of R300. -/
def State.busySpans (s : State) (v : Nat) : List (Nat × Option Nat) :=
  let ds := s.firings v 2
  ((s.firings v 1).map fun q =>
    (s.cycleAt q.2 q.1.phase,
      (ds.find? fun d => decide ((d.2 : Int) + d.1.lead = (q.2 : Int) + q.1.lead)).map fun d => s.cycleAt d.2 d.1.phase)) ++
  (s.firings v 7).map fun q => let t := s.cycleAt q.2 q.1.phase; (t, some (t + 5480))

/-- An interval of cycles meets no span. -/
def clearOf (spans : List (Nat × Option Nat)) (a b : Nat) : Bool :=
  spans.all fun q => decide (b ≤ q.1) || (match q.2 with | some e => decide (e ≤ a) | none => false)

/-- The first cycle of the current frame's handover interval (R271): the first of its vertical blanking from which
8 µs are clear. -/
def State.interval (s : State) : Option Nat :=
  match s.cal.vTot with
  | none => none
  | some v =>
    let sp := s.busySpans v
    let v0 := s.cycleAt s.vActive 0
    let stop := lineCycle s.cal.t0 s.cal.acc0 s.lp v
    let ok := (v0 :: (sp.filterMap (·.2)).filter fun c => decide (v0 ≤ c)).filter fun c =>
      decide (c + 12000 ≤ stop) && clearOf sp c (c + 12000)
    match ok with
    | [] => none
    | c :: cs => some (cs.foldl min c)

/-! ### Engines stop (R272, R294) -/

/-- The cycle in which an outstanding transfer can complete: a remote one once its targets can take it (R262, R277). -/
def State.landsAt (s : State) (g : EngId) (t : Xfer) : Nat :=
  let mine (e : EngId) (d k : Nat) : Bool := e == g && d == t.desc && k == t.k
  match s.remotes.find? fun m => mine m.eng m.desc m.k with
  | some m => if m.beats = 0 then m.due else s.now + 20 + m.beats
  | none => ((s.fab.mcasts.find? fun m => mine m.eng m.desc m.k).map (·.due)).getD t.after

/-- One outstanding transfer completes: a remote one is first accepted or dropped at its targets; one whose source is bad moves
nothing. -/
def State.finishOne (s : State) (g : EngId) (t : Xfer) : State :=
  match s.xferDesc g t.desc with
  | none => s
  | some (r, dr) =>
    let d := Desc.parse dr.bytes
    let s1 := s.waitUntil (s.landsAt g t)
    if (s1.sourceBad g d r.base t.desc t.k).isSome ∧ !t.accepted then s1
    else
      let targets := if !t.remote ∨ t.accepted then [] else if d.mcast then s1.mcastTargets d else [d.peer]
      let s2 := targets.foldl (fun s l => s.arriveAt g r t.desc t.k d l {}) s1
      match (s2.eng g).outst.findIdx? fun x => x.desc == t.desc && x.k == t.k with
      | some n => s2.xferLand g n t r d {}
      | none => s2

/-- An engine's outstanding transfers complete, and its list and pending list are discarded (R272, R294); its
counters are set under R240. -/
def State.quietEngine (s : State) (g : EngId) : State :=
  let s1 := (s.eng g).outst.foldl (fun s t => s.finishOne g t) s
  let s2 : State := { s1 with remotes := s1.remotes.filter fun m => m.eng != g
                              fab := { s1.fab with mcasts := s1.fab.mcasts.filter fun m => m.eng != g } }
  ((s2.onEng g fun _ => {}).setFs [(F.ENG_STATE_STATE g.regs, 0), (F.ENG_STATE_PENDING g.regs, 0), (F.ENG_STATE_OUTST g.regs, 0)]).setF
    (F.ENG_TILES_CONSUMED g.regs) (s1.getF (F.ENG_TILES_LANDED g.regs))

/-- A core's engines. -/
def coreEngines (p : Nat) : List EngId := (List.range 8).map fun e => .core p e
/-- A band's engines. -/
def bandEngines (b : Nat) : List EngId := (List.range 2).map fun e => .band b e

/-- A semaphore at INIT with DEBT 0. -/
def State.initSem (s : State) (p i : Nat) : State :=
  s.setFs [(F.CORE_SEM_COUNT p i, s.getF (F.CORE_SEM_INIT p i)), (F.CORE_SEM_DEBT p i, 0)]
/-- Every semaphore of a core at INIT with DEBT 0. -/
def State.initSems (s : State) (p : Nat) : State :=
  (s.each 64 fun s i => s.initSem p i).onCore p fun c => { c with items := [], debts := [] }

/-- A core's threads, lines and queues hold no work; its memories stay. -/
def idleCore (c : CoreSt) : CoreSt :=
  { c with pool := [], zcRows := [], sufRows := [], seg := [], threads := [{}, {}, {}, {}], lines := [], reentry := []
           rot := 1, rotAt := (0, 1), bg := [], voids := [], acc := [], corr := [], pipe := [], wstage := [], rstage := [], progress := [], units := []
           bgLast := [], semTook := (0, []) }

/-! ### Handovers (R272, R273) -/

/-- A handover is decided: slot `i` of band b takes the logical number of slot `o` (R272, R273). -/
def State.decideHandover (s : State) (b o i : Nat) (retire : Bool) (reason : Nat) : State :=
  let h : Handover := { outSlot := o, inSlot := i, retire := retire, decided := s.now, reason := reason }
  ({ s with fab := { s.fab with handovers := s.fab.handovers.set b (some h) } }).setFs
    [(F.BAND_SPARE_PENDING_SLOT b, o), (F.BAND_SPARE_PENDING b, 1)]

/-- A decided handover is cancelled (R526). -/
def State.cancelHandover (s : State) (b : Nat) : State :=
  ({ s with fab := { s.fab with handovers := s.fab.handovers.set b none } }).setF (F.BAND_SPARE_PENDING b) 0

/-- Every frame clause with a run in progress fails it as a fault would (R272, R166). -/
def State.failRuns (s : State) : State := s.each s.fc.length State.failIndex

/-- A core that stops drains every frame clause's run at once (R272): each restarts on its next input frame. -/
def State.leaveRuns (s : State) (p : Nat) : State :=
  s.sched.frameClauses.foldl (fun s c => s.coreDrained p c.id) s

/-- The tables that the band holds for a logical number are written into the incoming core (R272): pronouns, lists,
windows, semaphores, histogram configuration. -/
def State.copyTables (s : State) (o i : Nat) : State :=
  let part (s : State) (off n : Nat) : State :=
    let base (p : Nat) : Nat := (0x1000000 + p * 0x20000 + off) * 32
    { s with regs := { s.regs with vals := SMap.blit s.regs.vals (base i) (32 * n) (SMap.slice s.regs.vals (base o) (32 * n)) } }
  let s1 := part (part (part (part (part s 0x1000 0x1000) 0x2000 0x200) 0x800 0x80) 0x300 0x100) 0x100 0x40
  (s1.initSems i).onCore i fun c => { c with histCfg := (s.core o).histCfg }

/-- A band is gated (R28, R29). -/
def State.gated (s : State) (b : Nat) : Bool := s.getF (F.BAND_SLOTMAP_GATED b) == 1

/-- HANDOVER_START (R272): in the handover interval the outgoing core stops, its tables move, and traffic for its
logical number goes to the incoming slot. A change of schedule has the interval first (R294). In a gated band it
waits until the band has power again (DESIGN CHOICE, log entry 74). Reentries and VOID spans belong to the logical number. -/
def State.handoverStart (s : State) (b : Nat) : State :=
  match s.fab.handovers.getD b none, s.interval with
  | some h, some t =>
    let other : Bool := match s.change with | some c => decide (c.decidedAt < t) | none => false
    if h.carried ∨ other ∨ s.gated b ∨ t < h.decided + msCycles 1 then s
    else
      let o := 9 * b + h.outSlot
      let i := 9 * b + h.inSlot
      let s1 := ((s.waitUntil t).failRuns).each 4 fun s k => s.setThreadState o k 0
      let s2 := (coreEngines o).foldl (fun s g => s.quietEngine g) s1
      let s3 := (((s2.onCore o idleCore).leaveRuns o).copyTables o i).setF (F.CORE_CLK_BIN_PLAN i) (s2.getF (F.CORE_CLK_BIN_PLAN o))
      let s4 := s3.onCore i fun c => { idleCore c with
        binFrom := s3.now, voids := (s2.core o).voids, reentry := (s2.core o).reentry.map fun r => { r with drained := true } }
      let s5 := s4.waitUntil (t + 6000)
      { s5 with fab := { s5.fab with handovers := s5.fab.handovers.set b (some { h with carried := true }) } }
  | _, _ => s

/-- HANDOVER_COMPLETE at the boundary (R272, R30, R259): slot map, roles, segments, the count and the ledger record
(RETIRE, or RESTORE for a core returned to service). A core of a gated band stays in ROLE 3 (R28). -/
def State.handoverDone (s : State) (b : Nat) : State :=
  match s.moved b with
  | none => s
  | some h =>
    let o := 9 * b + h.outSlot
    let i := 9 * b + h.inSlot
    let k := s.mapLogical o
    let s1 := s.setFs [(F.BAND_SLOTMAP_IDLE_SLOT b, h.outSlot), (F.BAND_SLOTMAP_IDLE_RETIRED b, b2n h.retire),
      (F.CORE_IDENT_ROLE o, if s.gated b then 3 else if h.retire then 2 else 1), (F.CORE_IDENT_ROLE i, if s.gated b then 3 else 0),
      (F.CORE_IDENT_LOGICAL o, 0), (F.CORE_IDENT_LOGICAL i, k.getD 0),
      (F.CORE_SEG_SEG_X0 i, s.getF (F.CORE_SEG_SEG_X0 o)), (F.CORE_SEG_SEG_W i, s.getF (F.CORE_SEG_SEG_W o)),
      (F.CORE_SEG_SEG_X0 o, 0), (F.CORE_SEG_SEG_W o, 0)]
    let s2 := (s1.incF (F.BAND_SPARE_HANDOVERS b) 1).cancelHandover b
    if h.retire then s2.ledger 7 o (toLe 1 b ++ toLe 1 h.outSlot ++ toLe 1 h.reason ++ toLe 1 h.inSlot)
    else s2.ledger 8 i (toLe 1 0)

end Sys2Proof.Machine
end

