-- ==== Sys2Proof/Machine/Dram.lean ====
section
/-! DEFINITION. The stacked DRAM and its arbiters (chapter 16): port grants, channel scheduling, ECC, refresh,
patrol scrub and row map-out. -/
namespace Sys2Proof.Machine

/-! ### Addresses (R412) -/

/-- Channel of a window offset (R412). -/
def dramChan (o : Nat) : Nat := bits o 6 6
/-- Bank of a window offset (R412). -/
def dramBank (o : Nat) : Nat := bits o 17 4 ^^^ bits o 21 4
/-- Row of a window offset (R412). -/
def dramRow (o : Nat) : Nat := bits o 21 12
/-- The number of the row that holds a window offset. -/
def dramRowId (o : Nat) : Nat := (dramChan o * 16 + dramBank o) * 4096 + dramRow o
/-- Window offset of block `n` of a channel, in address order (R412, R418). -/
def dramBlock (chan n : Nat) : Nat := n * 4096 + chan * 64

/-- A channel's state. -/
def State.chan (s : State) (c : Nat) : ChanSt := SMap.get {} s.drm.chans c
/-- Change a channel's state. -/
def State.onChan (s : State) (c : Nat) (f : ChanSt → ChanSt) : State :=
  { s with drm := { s.drm with chans := SMap.set {} s.drm.chans c (f (s.chan c)) } }
/-- A port arbiter's state. -/
def State.arb (s : State) (p : Nat) : ArbSt := SMap.get {} s.drm.arbs p
/-- Change a port arbiter's state. -/
def State.onArb (s : State) (p : Nat) (f : ArbSt → ArbSt) : State :=
  { s with drm := { s.drm with arbs := SMap.set {} s.drm.arbs p (f (s.arb p)) } }

/-- DRAM is trained and out of self-refresh (R433). -/
def State.dramUp (s : State) : Bool := s.getF F.DRM_STATUS_TRAINED == 1 && s.getF F.DRM_STATUS_SELF_REFRESH == 0

/-! ### Requesters (R424, R429, R435) -/

/-- Address of ARB_TKT of a requester of a port (R435). -/
def tktAddr (port q : Nat) : Nat :=
  if port < 8 then 0x100000 + port * 0x10000 + 0x400 + 4 * q
  else if port = 8 then 0x50400 + 4 * q else 0x50440 + 4 * q
/-- Address of ARB_LFSR of a port (R435). -/
def lfsrAddr (port : Nat) : Nat :=
  if port < 8 then 0x100000 + port * 0x10000 + 0x480 else if port = 8 then 0x50480 else 0x50484
/-- Address of the counters of a requester of a port (R435). -/
def cntAddr (port q : Nat) : Nat :=
  if port < 8 then 0x100000 + port * 0x10000 + 0x800 + 16 * q
  else if port = 8 then 0x50800 + 16 * q else 0x50900 + 16 * q
/-- Requesters of a port (R424). -/
def portReqs (port : Nat) : Nat := if port < 8 then 29 else if port = 8 then 10 else 7
/-- Every requester: port and number. -/
def allReqs : List (Nat × Nat) := (List.range 10).flatMap fun p => (List.range (portReqs p)).map fun q => (p, q)

/-- Tier of a requester (R423, R424). -/
def tierOf (port q : Nat) : Nat :=
  if port < 8 then
    (if q = 27 ∨ q = 28 ∨ q % 3 = 0 then 0 else if q % 3 = 1 then 5 else 4)
  else if port = 8 then [0, 0, 0, 0, 0, 0, 1, 2, 3, 6].getD q 0
  else [0, 0, 4, 4, 4, 5, 6].getD q 0

/-- A requester is masked (R429). The reset of the device leaves no port at work. -/
def State.masked (s : State) (port q : Nat) : Bool :=
  s.pstate == 2 ||
  (decide (port < 8) &&
    (decide (s.nBands ≤ port) ||
      (decide (q < 27) && (s.role (9 * port + q / 3) != 0 || (s.logical (9 * port + q / 3)).isNone))))

/-- Every ticket count is taken into force (R430). -/
def State.takeTickets (s : State) : State :=
  let t := allReqs.foldl (fun m e => SMap.set 0 m (tktAddr e.1 e.2) (s.getF (F.ARB_TKT_TICKETS (tktAddr e.1 e.2)))) []
  { s with drm := { s.drm with tickets := t } }
/-- Tickets in force of a requester. -/
def State.ticketsOf (s : State) (port q : Nat) : Nat := SMap.get 0 s.drm.tickets (tktAddr port q)

/-! ### The lottery (R426 to R428) -/

/-- One step of an arbiter's LFSR (R427); a seed of zero acts as 1. -/
def lfsrStep (x0 : Nat) : Nat :=
  let x := if x0 = 0 then 1 else x0
  if x % 2 = 1 then (x / 2) ^^^ 0x80200003 else x / 2

/-- The first member, ascending, whose cumulative tickets exceed the pick (R426). -/
def pickTicket (tk : Nat → Nat) (pick : Nat) : Nat → List Nat → Option Nat
  | _, [] => none
  | sum, q :: qs => if pick < sum + tk q then some q else pickTicket tk pick (sum + tk q) qs

/-- The cycle from which an access is eligible (R428). -/
def eligibleAt (parked : Option Nat) (a : PortAsk) : Nat := if parked = some a.q then a.at_ else a.at_ + 1

/-- The winner among the members of the lowest tier (R426): its number, and the LFSR after the choice. -/
def chooseWinner (tk : Nat → Nat) (parked : Option Nat) (lfsr : Nat) (e : List PortAsk) : Option Nat × Nat :=
  match e with
  | [] => (none, lfsr)
  | [a] => (some a.q, lfsr)
  | _ =>
    let l := lfsrStep lfsr
    let qs := (List.range 32).filter fun q => e.any fun a => a.q == q
    let tsum := (qs.map tk).foldl (· + ·) 0
    if tsum = 0 then
      let first := e.foldl (fun m a => min m (eligibleAt parked a)) (2 ^ 64)
      (qs.find? fun q => e.any fun a => a.q == q && eligibleAt parked a == first, l)
    else (pickTicket tk (l % 65536 * tsum / 65536) 0 qs, l)

/-- Waits of one requester up to `now` (R430): the cycles in which it was eligible and not granted. A requester
that is granted in this cycle counts up to it, and its run ends. A cycle that lies before the host's last clear of WAITS was
cleared with it (R19). -/
def State.countWaits (s : State) (port : Nat) (granted : Bool) (a : PortAsk) : State :=
  let x := s.arb port
  let from_ := max (eligibleAt x.parked a) (SMap.get 0 x.upTo a.q)
  let till := if granted then s.now else s.now + 1
  let n := till - from_
  let fresh := SMap.get 0 x.upTo a.q ≤ a.at_
  let run := (if fresh then 0 else SMap.get 0 x.run a.q) + n
  let b := cntAddr port a.q
  let past := s.now - max from_ (s.wroteAt (F.ARB_WAITS_WAITS b))
  let s1 := (s.lateF (F.ARB_WAITS_WAITS b) (min n past)).incF (F.ARB_WAITS_WAITS b) (if granted then 0 else min 1 n)
  if granted then
    let s2 := if s.getF (F.ARB_MAXWAIT_MAXWAIT b) < min 65535 run then s1.setF (F.ARB_MAXWAIT_MAXWAIT b) (min 65535 run) else s1
    ((s2.incF (F.ARB_GRANTS_GRANTS b) 1).onArb port
      fun y => { y with run := SMap.set 0 y.run a.q 0, upTo := SMap.set 0 y.upTo a.q (s.now + 1) })
  else s1.onArb port fun y => { y with run := SMap.set 0 y.run a.q run, upTo := SMap.set 0 y.upTo a.q (max from_ till) }

/-- The class of a band port's slot in this cycle (R275). -/
def State.slotClass (s : State) (b : Nat) : Nat :=
  (portRound (s.getF (F.BAND_FAB_SPLIT_READ b)) (s.getF (F.BAND_FAB_SPLIT_WRITE b)) (s.getF (F.BAND_FAB_SPLIT_REMOTE b))).getD
    (s.now % 100) 0

/-- The requester that a core's signal asks as at its band's port (R424): the line requester, or the one of its thread. -/
def State.signalReq (s : State) (g : Signal) : Nat :=
  3 * slotOf g.sender + (if s.isLineThread g.sender g.thread then 0 else if g.thread = 3 then 2 else 1)

/-- Of several accesses of one requester the first: a requester has one access ready at a time (R414, R426). -/
def onePerReq (l : List PortAsk) : List PortAsk :=
  l.foldl (fun m a => if m.any fun b => b.q == a.q then m else m ++ [a]) []

/-- A granted access enters its channel's queue; one whose queue is full, or behind one so kept, is kept by the port (R414,
R415). A write is not accepted once the channels have stopped (R551). -/
def State.toChannel (s : State) (port : Nat) (a : DramAcc) : State :=
  let ch := dramChan a.off
  if a.write ∧ s.getF F.DEV_HOTPLUG_WSTOP = 1 then s
  else if (s.chan ch).queue.length < 64 ∧ ((s.arb port).held.all fun b => dramChan b.off != ch) then
    s.onChan ch fun c => { c with queue := c.queue ++ [a] }
  else s.onArb port fun x => { x with held := x.held ++ [a] }

/-- A port's access that is kept for a channel tries again (R415). -/
def State.retryHeld (s : State) (ch : Nat) : State :=
  match (List.range 10).find? fun p => (s.arb p).held.any fun b => dramChan b.off == ch with
  | none => s
  | some p =>
    match (s.arb p).held.find? fun b => dramChan b.off == ch with
    | none => s
    | some a =>
      if 64 ≤ (s.chan ch).queue.length then s
      else (s.onArb p fun x => { x with held := x.held.erase a }).onChan ch fun c => { c with queue := c.queue ++ [a] }

/-- A remote transfer of requester q waits at a band's port. -/
def remoteWaits (b q : Nat) (m : Remote) : Bool := decide (0 < m.beats) && m.eng.bandNo == b && m.q == q
/-- A signal of requester q waits at a band's port. -/
def State.signalWaits (s : State) (b q : Nat) (g : Signal) : Bool :=
  decide (0 < g.beats) && bandOf g.sender == b && s.signalReq g == q

/-- A beat of a remote transfer has gone out in this cycle (R262): with the last one the transfer sets out. -/
def remoteBeat (now : Nat) (m : Remote) : Remote :=
  if m.beats = 1 then { m with beats := 0, due := now + 21 } else { m with beats := m.beats - 1 }

/-- A remote slot of a band's port goes to requester q (R262, R274): to the oldest of its transfers and signals that wait. -/
def State.remoteSlot (s : State) (b q : Nat) : State :=
  let i := s.remotes.findIdx? (remoteWaits b q)
  let j := s.signals.findIdx? (s.signalWaits b q)
  match i, j with
  | some i, j =>
    let first : Bool := match s.remotes[i]?, j.bind fun j => s.signals[j]? with
      | some m, some g => decide (m.due + 20 ≤ g.due)
      | _, _ => true
    if first then { s with remotes := s.remotes.modify i (remoteBeat s.now) }
    else { s with signals := s.signals.modify (j.getD 0) fun g => { g with beats := 0, due := s.now + 20 } }
  | none, some j => { s with signals := s.signals.modify j fun g => { g with beats := 0, due := s.now + 20 } }
  | none, none => s

/-- An ask that the port can have (R274, R424): one access inside a block of 64 bytes, by a requester that is not masked; a remote
one where a transfer or signal of the requester waits. -/
def State.askOk (s : State) (port : Nat) (a : PortAsk) : Bool :=
  decide (a.q < portReqs port) && !s.masked port a.q && decide (a.off % 64 + a.len ≤ 64) &&
  (!(a.cls == 2 && decide (port < 8)) || s.remotes.any (remoteWaits port a.q) || s.signals.any (s.signalWaits port a.q))

/-- PORT_GRANT (R426): one grant in a cycle of a port. The asks seen in this cycle compete; every requester that is eligible and
not granted waits. The winner's access enters its channel's queue; one whose channel is full is kept by its port (R415).
`asks` are the accesses that the port's requesters have presented and not yet been granted. -/
def State.portGrant (s : State) (port : Nat) (asks0 : List PortAsk) : State :=
  let s := s.waitUntil (s.arb port).free
  let asks := asks0.filter (s.askOk port)
  let s0 := s.onArb port fun x => { x with parked := x.parked.filter fun q => !s.masked port q }
  let parked := (s0.arb port).parked
  let open_ := asks.filter fun a => decide (eligibleAt parked a ≤ s.now)
  let seen := onePerReq (open_.filter fun a => decide (8 ≤ port) || a.cls == s.slotClass port)
  let t := seen.foldl (fun m a => min m (tierOf port a.q)) 99
  let e := seen.filter fun a => tierOf port a.q == t
  let lf := F.ARB_LFSR_LFSR (lfsrAddr port)
  let w := chooseWinner (s.ticketsOf port) parked (s.getF lf) e
  let win := w.1.bind fun q => e.find? fun a => a.q == q
  let s1 := (onePerReq (win.toList ++ open_)).foldl (fun s a => s.countWaits port (decide (win = some a)) a) s0
  match win with
  | none => s1
  | some a =>
    let s2 := (s1.setF lf w.2).onArb port fun x => { x with parked := some a.q, free := s.now + 1 }
    let s3 := if port < 8 then
        { s2 with fab := { s2.fab with beats := SMap.set 0 s2.fab.beats (3 * port + a.cls) (SMap.get 0 s2.fab.beats (3 * port + a.cls) + 1) } }
      else s2
    if a.cls = 2 ∧ port < 8 then s3.remoteSlot port a.q
    else s3.toChannel port { off := a.off, len := a.len, write := a.cls == 1, port := port, q := a.q, host := a.host }

/-! ### ECC and map-out (R416, R417, R419) -/

/-- DRM_LAST takes a block's address (R433). -/
def State.drmLast (s : State) (o unc : Nat) : State :=
  let a := dramBase + o / 64 * 64
  s.setFs [(F.DRM_LAST_LO_ADDR_LO, a % 2 ^ 32), (F.DRM_LAST_HI_ADDR_HI, a / 2 ^ 32), (F.DRM_LAST_HI_UNC, unc)]

/-- The map-out unit of the DRAM as a die's reads find it (R419): the die's tracker, the device's queue. -/
def State.dramMapUnit (s : State) (die : Nat) : MapOut := ⟨s.drm.trackers.getD die [], s.drm.refused, s.drm.mapQ⟩
/-- Its state is written back: QUEUED shows the queue, and a copy begins once a row is at its head. -/
def State.setDramMap (s : State) (die : Nat) (m : MapOut) : State :=
  ({ s with drm := { s.drm with trackers := s.drm.trackers.set die m.tracker, refused := m.refused, mapQ := m.queue
                                mapFrom := if s.drm.mapQ = [] then s.now else s.drm.mapFrom } }).setF F.DRM_MAP_QUEUED m.queue.length

/-- Beats of a read were corrected (R416, R419): each is counted, and each block's read is tracked once for its row. -/
def State.dramCorrected (s : State) (ws : List Nat) : State :=
  let s1 := ws.foldl (fun s w => (s.incF F.DRM_ECC_CORRECTED 1).drmLast (16 * w) 0) s
  (ws.map (· / 4)).dedup.foldl (fun s b =>
    let die := dramChan (64 * b) / 32
    s.setDramMap die ((s.dramMapUnit die).corrected 32 (ceLimit (s.getF F.DRM_CFG_CE_LIMIT)) (dramRowId (64 * b)))) s1

/-- DRAM_UNCORRECTABLE_READ (R417): a read of block `b` returns the beats `ws` uncorrectable or poisoned. The read is counted
and recorded, the row queued; the beats read as uncorrectable until a write covers them (R416). -/
def State.dramUncorr (s : State) (b : Nat) (ws : List Nat) : State :=
  let s1 := (({ s with dramBad := ws.foldl (fun m w => SMap.set 0 m w 1) s.dramBad }).incF F.DRM_ECC_UNCORR 1).drmLast (64 * b) 1
  let die := dramChan (64 * b) / 32
  s1.setDramMap die ((s1.dramMapUnit die).ask 32 (dramRowId (64 * b)))

end Sys2Proof.Machine
namespace Sys2Proof
open Sys2Proof.Machine
/-- The beats that an access reads: of a read, those it returns; of a write, those its byte mask covers in part
(R416). -/
def DramAcc.readBeats (a : DramAcc) : List Nat :=
  if a.write then (touchWords a.off a.len).filter fun w => !(fullWords a.off a.len).contains w else touchWords a.off a.len
end Sys2Proof
namespace Sys2Proof.Machine

/-- ECC of the beats read (R416, R417). -/
def State.dramEcc (s : State) (beats : List Nat) (e : EccIn) : State :=
  let ue := beats.filter fun w => e.ue.contains w || SMap.get 0 s.dramBad w != 0
  let ce := beats.filter fun w => e.ce.contains w && !ue.contains w
  (ue.map (· / 4)).dedup.foldl (fun s b => s.dramUncorr b (ue.filter fun w => w / 4 == b)) (if ce = [] then s else s.dramCorrected ce)

/-! ### Channels (R414, R415, R418, R432) -/

/-- First fabric cycle of command slot `i` (R411: 3.75 fabric cycles). -/
def slotCycle (i : Nat) : Nat := ceilDiv (15 * i) 4
/-- The command slot in which a cycle lies. -/
def slotAt (t : Nat) : Nat := 4 * t / 15
/-- A maintenance slot (R415). -/
def maintenance (i : Nat) : Bool := i % 32 == 31
/-- The next maintenance slot from `i` on. -/
def nextMaint (i : Nat) : Nat := i + (31 - i % 32)

/-- Accesses that R414 lets the channel serve: no earlier one to the same block is queued. -/
def permitted : List Nat → List DramAcc → List DramAcc
  | _, [] => []
  | seen, a :: l => if seen.contains (a.off / 64) then permitted seen l else a :: permitted (a.off / 64 :: seen) l

end Sys2Proof.Machine
namespace Sys2Proof
open Sys2Proof.Machine
/-- The access that a slot serves (R415): in a maintenance slot a host access first; else the lowest tier, an open
row before a row change, the oldest. -/
def ChanSt.serves (c : ChanSt) (slot : Nat) : Option DramAcc :=
  let l := permitted [] c.queue
  match (if maintenance slot then l.find? (·.host) else none) with
  | some a => some a
  | none =>
    let t := l.foldl (fun m a => min m (tierOf a.port a.q)) 99
    let e := l.filter fun a => tierOf a.port a.q == t
    match e.find? fun a => SMap.get none c.openRow (dramBank a.off) == some (dramRow a.off) with
    | some a => some a
    | none => e.head?
end Sys2Proof
namespace Sys2Proof.Machine

/-- Maintenance work that ranks above the host waits at a channel in a cycle: a patrol read or its write-back, a map-out copy (R415). -/
def State.maintWaits (s : State) (ch t : Nat) : Bool :=
  (s.chan ch).wb.isSome || (s.getF F.DRM_CFG_SCRUB_EN == 1 && decide ((s.chan ch).scrubDue ≤ t)) ||
  (s.drm.mapQ.head?.map fun row => row / 65536) == some ch

/-- The command slot in which a channel serves its next access: not a maintenance slot in which other work waits (R415). -/
def State.accessSlot (s : State) (ch : Nat) : Nat :=
  let slot := max (s.chan ch).slot (slotAt s.now)
  if maintenance slot ∧ s.maintWaits ch (slotCycle slot) then slot + 1 else slot

/-- DRAM_ACCESS (R415, R416, R432): the channel serves one queued access in its next free slot; a write whose mask
covers part of a beat takes two, and others wait for each of them. An access to a block that waits for its write-back cancels it (R418). -/
def State.dramAccess (s : State) (ch : Nat) (e : EccIn) : State :=
  if !s.dramUp ∨ (s.chan ch).queue = [] then s
  else
    let slot := s.accessSlot ch
    let s1 := s.waitUntil (slotCycle slot)
    match (s.chan ch).serves slot with
    | none => s1
    | some a =>
      let rest := (s.chan ch).queue.erase a
      let tiers := (List.range 7).filter fun t => rest.any fun x => tierOf x.port x.q == t
      let slots := if a.write ∧ a.readBeats ≠ [] then 2 else 1
      let s2 := s1.onChan ch fun c => { c with
        queue := rest, slot := slot + slots
        openRow := SMap.set none c.openRow (dramBank a.off) (some (dramRow a.off))
        wb := if c.wb = some (a.off / 64 * 64) then none else c.wb }
      let s3 := { s2 with drm := { s2.drm with waits := tiers.foldl (fun m t => SMap.set 0 m t (SMap.get 0 m t + slots)) s2.drm.waits } }
      (s3.retryHeld ch).dramEcc a.readBeats e

/-- A maintenance slot of a channel is taken: wait for it (R415). -/
def State.takeMaint (s : State) (ch : Nat) : State :=
  let slot := nextMaint (max (s.chan ch).slot (slotAt s.now))
  (s.waitUntil (slotCycle slot)).onChan ch fun c => { c with slot := slot + 1 }

/-- REFRESH (R415): a maintenance slot refreshes a row. -/
def State.refresh (s : State) (ch : Nat) : State :=
  if !s.dramUp then s else (s.takeMaint ch).onChan ch fun c => { c with refreshed := (c.refreshed + 1) % 65536 }

/-- PATROL_SCRUB_READ (R418): every 100 µs, the next block in address order. PASSES counts the passes that every
channel has completed. -/
def State.scrubRead (s : State) (ch : Nat) (e : EccIn) : State :=
  if !s.dramUp ∨ s.getF F.DRM_CFG_SCRUB_EN = 0 then s
  else
    let s1 := (s.waitUntil (s.chan ch).scrubDue).takeMaint ch
    let n := (s.chan ch).scrub
    let beats := touchWords (dramBlock ch n) 64
    let fixed := beats.any fun w => e.ce.contains w && !e.ue.contains w && SMap.get 0 s.dramBad w == 0
    let s2 := (s1.dramEcc beats e).onChan ch fun c => { c with
      scrub := (n + 1) % 2097152, passes := if n + 1 = 2097152 then c.passes + 1 else c.passes
      scrubDue := max s.now (s.chan ch).scrubDue + usCycles 100, wb := if fixed then some (dramBlock ch n) else none }
    s2.setF F.DRM_SCRUB_PASSES ((List.range 64).foldl (fun m k => min m (s2.chan k).passes) (s2.chan ch).passes)

/-- SCRUB_WRITEBACK (R418): in the next maintenance slot, unless the block was accessed meanwhile. -/
def State.scrubWriteback (s : State) (ch : Nat) : State :=
  match (s.chan ch).wb with
  | none => s
  | some _ => if !s.dramUp ∨ s.getF F.DEV_HOTPLUG_WSTOP = 1 then s else (s.takeMaint ch).onChan ch fun c => { c with wb := none }

/-- The beats of a row (R412, R419): its 32 blocks, 4 KiB apart. -/
def dramRowBeats (row : Nat) : List Nat :=
  let chan := row / 65536
  let bank := row / 4096 % 16
  (List.range 32).flatMap fun col =>
    touchWords (row % 4096 * 0x200000 + (bank ^^^ (row % 16)) * 0x20000 + col * 4096 + chan * 64) 64

/-- The row at the head of the map-out queue leaves it, copied to a spare or left in service (R419). -/
def State.mapNext (s : State) (die : Nat) (mapped : Bool) : State :=
  let s1 := s.setDramMap die ((s.dramMapUnit die).next 32 mapped)
  { s1 with drm := { s1.drm with mapFrom := s1.now } }

/-- A row of the field is replaced by a spare of its bank: the list of rows mapped, the counts and the ledger (R419). -/
def State.mapRow (s : State) (row used : Nat) : State :=
  let s1 : State := { s with drm := { s.drm with mapped := s.drm.mapped ++ [row] } }
  ((s1.setF F.DRM_MAP_SPARES_LEFT (s.getF F.DRM_MAP_SPARES_LEFT - 1)).incF F.DRM_MAP_FIELD_MAPPED 1).ledger 4 (row / 65536)
    (toLe 1 (row / 4096 % 16) ++ toLe 2 (row % 4096) ++ toLe 1 used ++ toLe 1 0)

/-- DRAM_ROW_MAP_OUT (R419): the row at the head of the queue has been copied to a spare in 64 maintenance slots,
or stays in service for want of a spare. The copy reads the row's blocks, and a beat that is uncorrectable goes to the spare
as poison; what its reads meet is a free value (log entry 2). -/
def State.dramMapOut (s : State) : State :=
  match s.drm.mapQ with
  | [] => s
  | row :: _ =>
    if !s.dramUp ∨ s.getF F.DEV_HOTPLUG_WSTOP = 1 then s
    else
      let die := row / 4096 / 16 / 32
      let used := (s.drm.mapped.filter fun r => r / 4096 == row / 4096).length
      if 8 ≤ used then (s.mapNext die false).incF F.DRM_MAP_NO_SPARE 1
      else
        let s1 := ({ s with free := s.free + 1 }.waitUntil (s.drm.mapFrom + 7680)).dramEcc (dramRowBeats row) (Config.mapErrors s.free)
        (s1.mapNext die true).mapRow row used

/-- What the boundary does for the DRAM and the ports: beat counts, tier waits, tickets (R276, R430, R432). -/
def State.dramBoundary (s : State) : State :=
  let s1 := s.each 8 fun s b => s.setFs [(F.BAND_FAB_READ_READ_BEATS b, SMap.get 0 s.fab.beats (3 * b)),
    (F.BAND_FAB_WRITE_WRITE_BEATS b, SMap.get 0 s.fab.beats (3 * b + 1)), (F.BAND_FAB_REMOTE_REMOTE_BEATS b, SMap.get 0 s.fab.beats (3 * b + 2))]
  let s2 := s1.each 7 fun s t => s.setF (F.DRM_TIER_WAIT_WAIT t) (SMap.get 0 s.drm.waits t)
  ({ s2 with fab := { s2.fab with beats := [] }, drm := { s2.drm with waits := [] } }).takeTickets

end Sys2Proof.Machine
end

