-- ==== Sys2Proof/Machine/Clauses.lean ====
section
/-! DEFINITION. Frame clauses against the raster (R161, R297 to R299, R37, R440): windows, runs, due points and
the swap of output pairs. -/
namespace Sys2Proof.Machine

/-! ### Runs (R297, R298) -/

/-- A due point passes without a swap (R299, R37): MISSES counts once, and the committed buffers are kept. -/
def State.missDue (s : State) (c : Nat) : State :=
  ({ s with fc := s.fc.modify c fun f => { f with pairs := f.pairs.map fun q => { q with kept := true } } } : State).incF
    (F.CAL_FC_MISSES c) 1

/-- A working buffer of the clause is latched by a warp unit (R316). -/
def State.workLatched (s : State) (c : Nat) : Bool :=
  (s.pairs.filter fun q => q.1 == c).any fun q =>
    let b := (s.prn (s.phys 0) q.2.2.1).base
    s.warp.any fun w => ((w.ctx.map fun x => x.latched && x.fBase == b).getD false) ||
      (w.queued.any fun x => x.latched && x.fBase == b)

/-- A STOPPED core takes part: frame-clause outputs of its band fail (R528). -/
def State.anyStopped (s : State) : Bool :=
  (List.range s.nCores).any fun l => s.getF (F.PWR_WX_STATE_STOPPED (s.phys l)) == 1

/-- Before a run begins, arrivals that a failed run has left at barriers where no thread waits are over (R278). -/
def State.barriersClear (s : State) : State :=
  let waits (g : Nat) : Bool := (List.range 72).any fun p => (s.core p).threads.any fun t => t.wait == .barrier g
  let failing : Bool := s.fc.any fun f => ((f.run.map (·.failed)).getD false)
  if failing then s
  else { s with fab := { s.fab with barriers := s.fab.barriers.filter fun b => waits b.1 } }

/-- FRAME_CLAUSE_RUN_BEGIN (R297, R298): at an opening of its window, on the newest available input frame that it
has not yet run; those passed over count in SKIPS. The Drizzle clause runs by steps instead (R343). -/
def State.beginRun (s : State) (cl : Nat) : State :=
  match s.sched.clause cl, s.sched.fcIndex cl, s.avail.getLast? with
  | some d, some c, some (j, a) =>
    let f := s.fc.getD c {}
    let done : Bool := match f.last with | some l => decide (frameDiff j l ≤ 0) | none => false
    if f.run.isSome ∨ done ∨ s.workLatched c ∨ s.sched.drzClause = some cl then s
    else
      let passed := if f.last.isSome then f.seen - 1 else 0
      let due := (a + d.due) % 2 ^ 32
      let r : FcRun := { inFrame := j, due := due, failed := s.anyStopped, fromSkip := passed != 0,
                         fromKept := (f.pairs.take d.outs).any (·.kept) }
      let s1 := ({ s with fc := s.fc.set c { f with run := some r, last := some j, seen := 0 } }).incF (F.CAL_FC_SKIPS c) passed
      (if 0 ≤ frameDiff s.cal.frame due then s1.missDue c else s1).barriersClear.runEnds c
  | _, _, _ => s

/-! ### Windows (R161, R169) -/

/-- BAND_STRIPE shows the stripe of the clause that the band opens (R260, R261). -/
def State.setStripe (s : State) (b cl : Nat) : State :=
  match s.sched.clause cl with
  | none => s
  | some d =>
    let u := 2 ^ d.stripeU
    s.setFs [(F.BAND_STRIPE_Y0 b, stripeY0 d.h u s.nBands b), (F.BAND_STRIPE_HEIGHT b, stripeHeight d.h u s.nBands b)]

/-- A core takes up its part of a clause's run: the threads that the clause claims carry it. -/
def State.takeUp (s : State) (p cl : Nat) : State :=
  match s.logical p, s.sched.fcIndex cl with
  | some l, some c =>
    match (s.fc.getD c {}).run with
    | some r =>
      if r.failed ∨ r.cores.contains l then s
      else s.each 4 fun s t =>
        if bit (s.sched.claims cl) t ∧ !s.isLineThread p t ∧ (s.threadClause p t).isNone then
          s.onThread p t fun h => { h with clause := some cl }
        else s
    | none => s
  | _, _ => s

/-- OPEN_FRAME_CLAUSE_WINDOW: entry `i` of kind 3 (R161, R297). -/
def State.openWindow (s : State) (i : Nat) : State :=
  if !s.due i 3 then s
  else
    let e := s.entry i
    let s1 := (s.fire i).beginRun e.arg
    s1.each s1.nBands fun s b =>
      if !bit e.bands b then s
      else (s.setStripe b e.arg).each 8 fun s k =>
        let p := s.phys (8 * b + k)
        if bit e.cores k ∧ s.active p ∧ s.getF (F.CORE_THREAD_MWIN p) = 0 then
          ((s.setF (F.CORE_THREAD_FWIN p) 1).takeUp p e.arg).frameThreads p
        else s

/-- CLOSE_FRAME_CLAUSE_WINDOW: entry `i` of kind 4 (R161). -/
def State.closeWindowF (s : State) (i : Nat) : State :=
  if !s.due i 4 then s
  else
    let e := s.entry i
    let s1 := s.fire i
    s1.each s1.nBands fun s b =>
      if !bit e.bands b then s
      else s.each 8 fun s k =>
        let p := s.phys (8 * b + k)
        if bit e.cores k then (s.setF (F.CORE_THREAD_FWIN p) 0).frameThreads p else s

/-! ### Due points and swaps (R37, R299, R440) -/

/-- Words 1, 4 and 5 of a pronoun entry: its extents, and BASE with the fields beside it. -/
def State.prnWord (s : State) (p n k : Nat) : Nat := s.getF (F.CORE_PRN_DATA p (8 * n + k))

/-- The pair's BASE fields change places in one core's table, and the committed buffer has the extent that was
written (R189, R299). The pair's other fields are equal (R291 check 9). -/
def State.swapCore (s : State) (w m p : Nat) : State :=
  s.setFs [(F.CORE_PRN_DATA p (8 * m + 1), s.prnWord p w 1),
    (F.CORE_PRN_DATA p (8 * m + 4), s.prnWord p w 4), (F.CORE_PRN_DATA p (8 * m + 5), s.prnWord p w 5),
    (F.CORE_PRN_DATA p (8 * w + 4), s.prnWord p m 4), (F.CORE_PRN_DATA p (8 * w + 5), s.prnWord p m 5)]

/-- Entry `n` of a band's table takes words 1, 4 and 5 of logical core 0's entry `k`. -/
def State.bandTakes (s : State) (b n k : Nat) : State :=
  let p := s.phys 0
  s.setFs [(F.BAND_PRN_DATA b (8 * n + 1), s.prnWord p k 1), (F.BAND_PRN_DATA b (8 * n + 4), s.prnWord p k 4),
    (F.BAND_PRN_DATA b (8 * n + 5), s.prnWord p k 5)]

/-- BUFFER_SWAP of one pair (R37, R299): every core's table, and every band entry that names either buffer. -/
def State.swapPair (s : State) (w m : Nat) : State :=
  let wb := (s.prn (s.phys 0) w).base
  let mb := (s.prn (s.phys 0) m).base
  let s1 := s.each s.nCores fun s l => s.swapCore w m (s.phys l)
  s1.each s1.nBands fun s b => s.each 32 fun s n =>
    let r := s.bprn b n
    if r.place ≠ 3 then s
    else if r.base = mb then s.bandTakes b n m
    else if r.base = wb then s.bandTakes b n w
    else s

/-- A clause's outputs are swapped in at the boundary that begins output frame n (R37): labels (R314), taint bits (R440). Lines of
earlier frames go on reading the version that was committed (R38). -/
def State.swapRun (s : State) (n c : Nat) (r : FcRun) : State :=
  let mine := s.pairs.filter fun q => q.1 == c
  let s1 := mine.foldl (fun s q => s.swapPair q.2.2.1 q.2.2.2) s
  let q (j : Nat) : PairSt :=
    { label := r.inFrame, taint := r.readTaint || r.fromSkip || r.fromKept
      old := (mine.find? fun x => x.2.1 == j).map fun x => (n, (s.prn (s.phys 0) x.2.2.2).base, s.pairTainted c j) }
  { s1 with fc := s1.fc.modify c fun f => { f with run := none, pairs := (List.range f.pairs.length).map q } }

/-- The boundary that begins output frame n (R37, R299): a due point passes, or a finished output is swapped in. Where a line of
frame n has read an output already, the boundary follows what that read found (R38; DESIGN CHOICE, log entry 63). -/
def State.clauseBoundary (s : State) (n c : Nat) : State :=
  let f := s.fc.getD c {}
  let lost := f.dues.contains n
  let swaps : Bool := match f.next with | some (m, b) => if m = n then b else s.willSwap c n | none => s.willSwap c n
  let s1 : State := { s with fc := s.fc.modify c fun f => { f with
    next := none, dues := f.dues.filter fun d => decide (0 < frameDiff d n) } }
  match f.run with
  | some r =>
    if swaps then
      let s2 := s1.swapRun n c r
      if lost then s2.incF (F.CAL_FC_MISSES c) 1 else s2
    else if lost ∨ n = r.due then s1.missDue c else s1
  | none => if lost then s1.missDue c else s1

/-- Due points and swaps of every frame clause. -/
def State.clausesBoundary (s : State) (n : Nat) : State :=
  s.each s.sched.frameClauses.length fun s c => s.clauseBoundary n c

/-- Input frames whose last line is written become available (R297, R308); the first one after the start is j0
(R310), and each clause counts those that come after its last run began (R298). -/
def State.framesArrive (s : State) (n : Nat) : State :=
  match s.arrived.getLast? with
  | none => s
  | some j =>
    let l := s.avail ++ s.arrived.map fun i => (i, n)
    ({ s with avail := l.drop (l.length - 256), arrived := [], rtJ0 := s.rtJ0.or s.arrived.head?
              fc := s.fc.map fun (f : FcSt) => { f with seen := f.seen + s.arrived.length } } : State).setF F.INP_HIST_NEWEST_NEWEST j

/-- The newest available input frame, n_av (R308). -/
def State.newest (s : State) : Option Nat := s.avail.getLast?.map (·.1)

/-- Runs in progress are abandoned (R294, R301, R512): their threads drop the clause. `due`: their due points stay, and so does a
finished output that waits for its swap (R301); else they lapse, and the clauses start anew. -/
def State.abandonRuns (s : State) (due : Bool) : State :=
  let s1 := s.each 72 fun s p => s.each 4 fun s t =>
    if s.isLineThread p t ∨ (s.threadClause p t).isNone then s
    else s.dropClause p t
  { s1 with fc := s1.fc.zipIdx.map fun f =>
      if due then
        match f.1.run with
        | some r => if s.runFinished f.2 r then f.1 else { f.1 with run := none, next := none, dues := r.due :: f.1.dues }
        | none => f.1
      else { pairs := f.1.pairs } }

end Sys2Proof.Machine
end

