-- ==== Sys2Proof/Machine/Install.lean ====
section
/-! DEFINITION. Carrying out a change of schedule (R294 to R296), the switch of model sets (R300 to R303), the
gating of bands (R510, R511), and repairs of weight files and memories in vertical blanking (R149, R214, R222). -/
namespace Sys2Proof.Machine

/-! ### Tables (R284, R294) -/

/-- The words of a table as register-file keys, 32-bit registers one after the other. -/
def wordKeys (ws : List Nat) : SMap Nat :=
  ((List.range ws.length).map fun i => (128 * i, ws.getD i 0)).filter fun e => e.2 != 0

/-- The words of a byte string. -/
def bytesWords (bs : List Byte) : List Nat := (List.range (bs.length / 4)).map fun i => leAt bs (4 * i) 4

/-- Write a table of `n` words at a register address. -/
def State.putTable (s : State) (addr n : Nat) (bs : List Byte) : State :=
  { s with regs := { s.regs with vals := SMap.blit s.regs.vals (addr * 32) (n * 128) (wordKeys ((bytesWords bs).take n)) } }

/-- A semaphore's word of a core image (R254): INIT, CAP and KIND; COUNT takes INIT, DEBT 0. -/
def State.putSem (s : State) (p i w : Nat) : State :=
  s.setFs [(F.CORE_SEM_KIND p i, bits w 7 1), (F.CORE_SEM_CAP p i, bits w 8 7), (F.CORE_SEM_INIT p i, bits w 16 7),
    (F.CORE_SEM_COUNT p i, bits w 16 7), (F.CORE_SEM_DEBT p i, 0)]

/-- Fixed-length records one after the other, absent ones zero. -/
def records (n len : Nat) (l : List (List Byte)) : List Byte :=
  (List.range n).flatMap fun i => padTo len ((l.getD i []).take len)

/-- A core's program store image and tables (R284, R294). -/
def State.installCore (s : State) (p : Nat) (c : CoreImage) : State :=
  let base := 0x1000000 + p * 0x20000
  let s1 := s.putTable (base + 0x1000) 1024 (records 128 32 c.prns)
  let s2 := s1.putTable (base + 0x2000) 128 (records 64 8 c.lists)
  let s3 := s2.putTable (base + 0x800) 32 (records 16 8 c.wins)
  ((s3.each 64 fun s i => s.putSem p i (c.sems.getD i 0)).onCore p idleCore).onCore p fun k => { k with items := [], debts := [] }

/-- A band's tables; every ring slot becomes empty (R227). -/
def State.installBand (s : State) (b : Nat) (i : BandImage) : State :=
  let base := 0x100000 + b * 0x10000
  ((s.putTable (base + 0x1000) 256 (records 32 32 i.prns)).putTable (base + 0x2000) 64 (records 32 8 i.lists)).lsClear b

/-- A schedule's images go into the cores and bands of a mode (R294, R497). -/
def State.installTables (s : State) (sc : Schedule) (n : Nat) : State :=
  let s1 := s.each n fun s l => s.installCore (s.phys l) (sc.cores.getD l {})
  s1.each (n / 8) fun s b => s.installBand b (sc.bands.getD b {})

/-- Active lines whose kind-1 entry for a clause stands before the boundary, in the frame of v lines before (R294). -/
def linesAhead (alm : List AlmEntry) (v va cl : Nat) : Nat :=
  ((List.range va).filter fun y => alm.any fun e =>
    e.kind == 1 && e.arg == cl && (List.range v).any fun x =>
      e.names v x && decide ((x : Int) + e.lead = ((v + y : Nat) : Int))).length

/-- E of R294. -/
def firstE (sc : Schedule) (v va : Nat) : Nat :=
  (sc.lineClauses.map fun c => linesAhead sc.almanac v va c.id + c.warmup).foldl max 0

/-- STEP and LAG take the new record's values (R327), and the re-timer starts anew (R310); j0 stays the first input frame that became
available after boot (log entry 83). -/
def State.installRt (s : State) (sc : Schedule) : State :=
  { (s.yieldF F.CAL_RT_STEP_STEP sc.rt.step).setF F.CAL_RT_STEP_LAG sc.rt.lag with
    tau := none, rtFirst := true }

/-- The context of an output frame for which the re-timer holds no τ (R310). -/
def FrameCtx.black (frame step : Nat) : FrameCtx := { frame := frame, step := step, fieldOk := false }

/-- The context of an output frame of a live schedule while stage 10 writes input frame `i` (R312). -/
def FrameCtx.liveOf (frame step i : Nat) : FrameCtx := { frame := frame, step := step, i := i, live := true, shown := true }

/-- The context of output frame `n` for the unit that a new schedule's re-timing record asks for (R310, R312): what was decided
under the old record stands where both are live or both are not. -/
def State.newCtx (s : State) (sc : Schedule) (n : Nat) : FrameCtx :=
  let x := s.ctxNext.getD (FrameCtx.black n sc.rt.step)
  if sc.rt.lag = 0 then (if x.live then x else FrameCtx.liveOf n sc.rt.step (s.getF F.INP_FRAME_FRAME))
  else if x.live then FrameCtx.black n sc.rt.step else x

/-- SCHEDULE_CHANGE (R294): in the first handover interval that begins after the decision, frame clauses stop, lists
and semaphores are cleared, the new schedule is installed, and its almanac takes over. -/
def State.scheduleChange (s : State) : State :=
  match s.change, s.interval, s.cal.vTot with
  | some c, some t, some v =>
    if c.installed ∨ t ≤ c.decidedAt then s
    else
      let m := (s.prog.mode c.mode).getD default
      let sc := s.prog.scheds.getD c.sched {}
      let s1 := (s.waitUntil t).abandonRuns false
      let s2 := s1.each 72 fun s p => (coreEngines p).foldl (fun s g => s.quietEngine g) s
      let s3 := s2.each 8 fun s b => (bandEngines b).foldl (fun s g => s.quietEngine g) s
      let s4 := s3.each 72 fun s p => s.initSems p
      let s5 := (s4.installTables sc m.nCores).waitUntil (t + 9000)
      let nextF := (s.cal.frame + 1) % 2 ^ 32
      let s6 := s5.installRt sc
      let x := s6.newCtx sc nextF
      { s6 with
        almanac := sc.almanac, sched := sc, noBase1 := true, signals := [], remotes := []
        change := some { c with installed := true }
        firstLines := some (nextF, firstE sc v m.vActive)
        fab := { s6.fab with barriers := [] }
        ctxNext := some x
        warp := s6.warp.map fun w =>
          if sc.rt.lag = 0 then {} else { w with ctx := none, next := 0, queued := [x], since := s6.now } }
  | _, _, _ => s

/-- CORE_SEG follows the schedule and the mode (R259). -/
def State.setSegs (s : State) : State :=
  let w := (s.modeOf s.cal.frame).w
  let s1 := s.each 72 fun s p => s.setFs [(F.CORE_SEG_SEG_X0 p, 0), (F.CORE_SEG_SEG_W p, 0)]
  s1.each s1.nCores fun s l =>
    s.setFs [(F.CORE_SEG_SEG_X0 (s.phys l), segX0 w s.sched.segUnit s.nCores l),
      (F.CORE_SEG_SEG_W (s.phys l), segWidth w s.sched.segUnit s.nCores l)]

/-- The calendar's geometry is that of a mode record (R45). -/
def State.setGeometry (s : State) (m : Mode) : State :=
  s.setFs [(F.CAL_LP_LP, m.lp), (F.CAL_VACTIVE_V_ACTIVE, m.vActive), (F.CAL_VACTIVE_VT_NOM, m.vtNom),
    (F.CAL_VLIMITS_VT_MIN, m.vtMin), (F.CAL_VLIMITS_VT_MAX, m.vtMax), (F.CAL_SEAM_SEAM_H, m.seamH)]

/-- Every committed frame-clause buffer holds a zero extent, and every taint bit is clear (R294, R440). -/
def State.emptyCommitted (s : State) : State :=
  let s1 := s.pairs.foldl (fun s q =>
    let mb := (s.prn (s.phys 0) q.2.2.2).base
    let s1 := s.each s.nCores fun s l => s.setF (F.CORE_PRN_DATA (s.phys l) (8 * q.2.2.2 + 1)) 0
    s1.each s1.nBands fun s b => s.each 32 fun s n =>
      let r := s.bprn b n
      if r.place = 3 ∧ r.base = mb then s.setF (F.BAND_PRN_DATA b (8 * n + 1)) 0 else s) s
  { s1 with fc := s1.fc.map fun f => { f with pairs := List.replicate 4 {} } }

/-! ### Gating (R510, R511) -/

/-- A core without power: only its map-outs stay (R212, R510). -/
def offCore (c : CoreSt) : CoreSt := { ({} : CoreSt) with mapped := c.mapped }
/-- A band's line store without power. -/
def offBand (b : BandSt) : BandSt := { ({} : BandSt) with mapped := b.mapped }

/-- A band is gated: ROLE 3, GATED, and its memories lose their contents (R510). -/
def State.gateBand (s : State) (b : Nat) : State :=
  let s1 := (s.each 9 fun s k => (s.setF (F.CORE_IDENT_ROLE (9 * b + k)) 3).onCore (9 * b + k) offCore).setF (F.BAND_SLOTMAP_GATED b) 1
  (s1.setFs [(F.BAND_STRIPE_Y0 b, 0), (F.BAND_STRIPE_HEIGHT b, 0)]).onBand b offBand

/-- A band leaves ROLE 3 and takes the roles that BAND_SLOTMAP gives it (R511). -/
def State.ungateBand (s : State) (b : Nat) : State :=
  let idle := s.getF (F.BAND_SLOTMAP_IDLE_SLOT b)
  let ret := s.getF (F.BAND_SLOTMAP_IDLE_RETIRED b)
  (s.each 9 fun s k => s.setF (F.CORE_IDENT_ROLE (9 * b + k)) (if k = idle then 1 + ret else 0)).setF (F.BAND_SLOTMAP_GATED b) 0

/-- A transition of power state ends (R509, R532). -/
def State.transitionDone (s : State) (st : Nat) : State :=
  { (s.setFs [(F.PWR_STATE_STATE, st), (F.PWR_STATE_BUSY, 0)]).incF F.PWR_STATE_TRANSITIONS 1 with
    pwr := { s.pwr with trans := .idle } }

/-- The cores taking part become those of a power state (R510, R511), when it differs from the one in force. -/
def State.takeState (s : State) (nb : Nat) : State :=
  if s.pstate = nb ∨ 2 ≤ s.pstate then s
  else
    let s1 := if nb = 1 then [4, 5, 6, 7].foldl (fun s b => s.gateBand b) s
      else [4, 5, 6, 7].foldl (fun s b => s.ungateBand b) s
    ({ s1 with pstate := nb } : State).transitionDone nb

/-- SCHEDULE_CHANGE_COMPLETE at the boundary (R294): geometry, segments, bucket; committed buffers are empty.
Triggers that came after the installation are looked at again (R293). -/
def State.changeDone (s : State) : State :=
  match s.change with
  | some c =>
    if !c.installed then s
    else
      let m := (s.prog.mode c.mode).getD default
      let s0 : State := { s with change := none, noBase1 := false, bucket := c.bucket }
      let s1 := (s0.setGeometry m).setFs [(F.CAL_MODE_MODE_CUR, c.mode), (F.CAL_MODE_SCHED_CUR, c.sched), (F.CAL_MODE_CHANGING, 0)]
      let s2 := ((s1.takeState m.nb).setSegs).emptyCommitted
      let s3 := (s2.each 8 fun s b => s.setFs [(F.BAND_STRIPE_Y0 b, 0), (F.BAND_STRIPE_HEIGHT b, 0)]).incF F.CAL_SCHED_CNT_SCHED_CHANGES 1
      let s4 := s3.modeCheck
      if s4.change.isNone ∧ s4.inp.fit.bucket ≠ c.bucket then s4.decideChange else s4
  | none => s

/-! ### Model sets (R300 to R303) -/

/-- SAMPLE_MSET_REQ at the start of line V_ACTIVE (R301). -/
def State.sampleMset (s : State) : State := { s with msetSample := some (s.getF F.CAL_MSET_MSET_REQ) }

/-- A model set's image is written into one core (R147, R288): entries whose page read uncorrectable have their
parity inverted (R302). -/
def State.loadMset (s : State) (p : Nat) (m : ModelSet) (bad : List Nat) : State :=
  s.onCore p fun c => { c with
    tiles := m.written.foldl (fun t e => SMap.set [] t e (pageCodes (readB s.dram (m.pageOff.getD e 0) 2048))) c.tiles
    cbs := (List.range m.cbs.length).foldl (fun t i => SMap.set default t i (Codebook.parse (m.cbs.getD i []))) c.cbs
    esc := (List.range m.esc.length).foldl (fun t i => SMap.set 0 t i (m.esc.getD i 0)) c.esc
    prefixW := (List.range m.prefixW.length).foldl (fun t i => SMap.set 0 t i (m.prefixW.getD i 0)) []
    suffixW := (List.range m.suffixW.length).foldl (fun t i => SMap.set 0 t i (m.suffixW.getD i 0)) []
    parity := (c.parity.filter fun e => !m.written.contains e) ++ bad
    rewrites := c.rewrites.filter fun e => !m.written.contains e
    loading := c.loading.filter fun e => !m.written.contains e.1 }

/-- A core that multicasts reach: it takes part or stands by (R270), in a powered band. -/
def State.listens (s : State) (p : Nat) : Bool := s.role p ≤ 1 && s.getF (F.BAND_SLOTMAP_GATED (bandOf p)) == 0

/-- OPEN_MODEL_SET_WINDOW: entry `i` of kind 7 (R148, R301, R302). `bad` are the entries whose pages of the new set
read uncorrectable. The codebook slots are being written until the window ends (R165, R300). -/
def State.openMset (s : State) (i : Nat) (bad : List Nat) : State :=
  let k := (s.entry i).arg
  if !s.due i 7 ∨ s.msetSample ≠ some k ∨ k = s.getF F.CAL_MSET_MSET_CUR ∨ s.mwinEnd.isSome then s
  else
    let m := s.prog.msets.getD k default
    let err := m.written.filter fun e => bad.contains e || s.memBad 3 0 (m.pageOff.getD e 0) 2048
    let s1 := (s.fire i).abandonRuns true
    let s2 := s1.each 72 fun s p =>
      if s.listens p then
        let s0 := (((s.setFs [(F.CORE_THREAD_MWIN p, 1), (F.CORE_THREAD_FWIN p, 0)]).frameThreads p).loadMset p m err)
        let s1 := (s0.onCore p fun c => setFree c .weightPath (ticks * (s0.now + 296) + coreTicks (s0.clock p) (64 * m.written.length)) 4).onCore p
          fun c => { c with cbBusy := (List.range m.cbs.length).map fun i => (i, s0.now + 5480) }
        [4, 5, 6, 7].foldl (fun s e => s.stopEngine p e) s1
      else s
    ({ s2 with mwinEnd := some (s2.now + 5480) }.setF F.CAL_MSET_MSET_PEND 1).incF F.CAL_MSET_MSET_ERR err.length

/-- MODEL_SET_WINDOW_CLOSE (R300, R148). -/
def State.closeMset (s : State) : State :=
  match s.mwinEnd with
  | none => s
  | some t => { (s.waitUntil t).each 72 (fun s p =>
      (s.setF (F.CORE_THREAD_MWIN p) 0).onCore p fun c => { c with cbBusy := [] }) with mwinEnd := none }

/-- MODEL_SET_SWITCH at the boundary after the window (R301). True when the set changed. -/
def State.msetSwitch (s : State) : State × Bool :=
  if s.getF F.CAL_MSET_MSET_PEND = 1 then
    match s.msetSample with
    | some k => (({ s with msetSample := none }.setFs [(F.CAL_MSET_MSET_CUR, k), (F.CAL_MSET_MSET_PEND, 0)]).incF
        F.CAL_SCHED_CNT_MSET_SWITCHES 1, true)
    | none => (s, false)
  else ({ s with msetSample := none }, false)

/-! ### Repairs in vertical blanking (R149, R212 to R214, R222) -/

/-- The calendar is in vertical blanking. -/
def State.inBlank (s : State) : Bool := s.cal.running && decide (s.vActive ≤ s.cal.line)

/-- One map-out of a scratchpad row (R212 to R214): its bank's next spare serves it, with what the copy's read corrects or finds
uncorrectable (`e`, R207, R209); without a spare it stays in service and NO_SPARE counts. The Bool says that NO_SPARE counted. -/
def State.spadMapOut (s : State) (i : EccAt) : State × Bool :=
  let p := i.unit
  match (s.core p).mapQ with
  | [] => (s, false)
  | row :: _ =>
    if !s.inBlank ∨ s.inFlight p then (s, false)
    else
      let bank := row % 32
      let used := ((s.core p).mapped.filter fun r => r % 32 == bank).length
      if 4 ≤ used then
        ((s.setSpadMap p ((s.spadMapUnit p).next 16 false)).incF (F.CORE_SPAD_MAP_NO_SPARE p) 1, true)
      else
        let q := s.bgTurn p [(64 * row, 64)] i.busy
        if !q.2 then (q.1, false)
        else
        let s1 := (q.1.spadRead p ((List.range 4).map fun k => 4 * row + k) i.ecc).1
        let s2 := (((s1.setSpadMap p ((s1.spadMapUnit p).next 16 true)).onCore p fun c => { c with mapped := c.mapped ++ [row] }).incF
          (F.CORE_SPAD_MAP_FIELD_MAPPED p) 1).setF (F.CORE_SPAD_MAP_SPARES_LEFT p) (s.getF (F.CORE_SPAD_MAP_SPARES_LEFT p) - 1)
        (s2.ledger 2 p (toLe 1 bank ++ toLe 2 (row / 32) ++ toLe 1 used ++ toLe 1 0), false)

/-- LINE_STORE_MAP_OUT (R222, under R212 to R215): 96 banks of 8 spare rows. -/
def State.lsMapOut (s : State) (i : EccAt) : State :=
  let b := i.unit
  match (s.band b).mapQ with
  | [] => s
  | row :: _ =>
    if !s.inBlank ∨ (List.range 9).any fun k => s.inFlight (9 * b + k) then s
    else
      let bank := row % 96
      let used := ((s.band b).mapped.filter fun r => r % 96 == bank).length
      if 8 ≤ used then (s.setLsMap b ((s.lsMapUnit b).next 16 false)).incF (F.BAND_LS_MAP_NO_SPARE b) 1
      else if i.busy ∨ lsBusy (s.band b) s.now [(64 * row, 64)] then s
      else
        let s1 := (s.lsRead b ((List.range 4).map fun k => 4 * row + k) i.ecc.ce i.ecc.ue).1
        let s2 := (((s1.setLsMap b ((s1.lsMapUnit b).next 16 true)).onBand b fun c => { c with mapped := c.mapped ++ [row] }).incF
          (F.BAND_LS_MAP_FIELD_MAPPED b) 1).setF (F.BAND_LS_MAP_SPARES_LEFT b) (s.getF (F.BAND_LS_MAP_SPARES_LEFT b) - 1)
        s2.ledger 3 b (toLe 1 bank ++ toLe 2 (row / 96) ++ toLe 1 used ++ toLe 1 0)

end Sys2Proof.Machine
end

