-- ==== Sys2Proof/Machine/Retimer.lean ====
section
/-! DEFINITION. The re-timer (R309 to R313), the frame context (R319, R320), the warp units (R315 to R318) and the
input-format record (R287). -/
namespace Sys2Proof.Machine

/-! ### The decision (R310 to R315) -/

/-- STEP in use: a value outside its range acts as the nearer limit (R327). -/
def State.step (s : State) : Nat := clampN 0x1000 0x10000 (s.getF F.CAL_RT_STEP_STEP)

/-- R310's advance of τ: the new value, whether it is held, and how many input frames a drop passes over. `dt` is
the distance of the advanced integer part from the newest available frame. -/
def retimeStep (tau step nav lag : Nat) : Nat × Bool × Nat :=
  let t := (tau + step) % 2 ^ 48
  let dt := frameDiff (t / 65536) nav
  if dt > -(lag : Int) ∨ (0 < t % 65536 ∧ dt + 1 > 0) then (tau, true, 0)
  else if dt < -(lag : Int) - 2 then
    ((nav + 2 ^ 32 - lag - 1) % 2 ^ 32 * 65536, false, (-(lag : Int) - 1 - dt).toNat)
  else (t, false, 0)

/-- The committed motion field (R314): its pronoun, with its clause and pair. -/
def State.motionField (s : State) : Option (Nat × Nat × Prn) :=
  let r := s.sched.rt
  (s.sched.frameClauses[r.mclause]?).map fun d =>
    (r.mclause, r.mpair, s.prn (s.phys 0) ((d.pairs.getD r.mpair (0, 0)).2))

/-- FIELD_LATCH for a synthesised frame (R315): the field is valid when its label is I + 1 and its extent is not
zero. -/
def State.latchField (s : State) (x : FrameCtx) : State × FrameCtx :=
  match s.motionField with
  | none => (s.incF F.CAL_RT_FIELD_FIELD_NONE 1, x)
  | some (c, j, r) =>
    let q := s.pairSt c j
    let right := q.label == (x.i + 1) % 2 ^ 32
    let ok := right && r.lh != 0 && r.lw != 0
    let s1 := if ok then s else s.incF F.CAL_RT_FIELD_FIELD_NONE 1
    let s2 := if q.label ≠ 0xFFFFFFFF ∧ !right then s1.tdAdd x.frame fun t => { t with rt := t.rt + 1 } else s1
    let s3 := if ok ∧ s.pairTainted c j then
        s2.tdAdd x.frame fun t => { t with fc := if t.fc.contains (4 * c + j) then t.fc else (4 * c + j) :: t.fc }
      else s2
    (s3, { x with latched := true, fieldOk := ok, label := if ok then q.label else 0xFFFFFFFF
                  fBase := r.base })

/-- RETIMER_DECISION in the cycle in which line V_ACTIVE begins (R310 to R315), for the next output frame. -/
def State.retimerDecision (s : State) : State :=
  let n := (s.cal.frame + 1) % 2 ^ 32
  let overn := s.inp.overrun
  let step := s.step
  let s0 := (s.onInp fun i => { i with overrun := 0 }).tdAdd n fun t => { t with rt := t.rt + overn }
  let base : FrameCtx := { frame := n, step := step, overrun := overn }
  let lag := s.sched.rt.lag
  if lag = 0 then
    { s0 with ctxNext := some { FrameCtx.liveOf n step (s.getF F.INP_FRAME_FRAME) with overrun := overn } }
  else
    let q : State × FrameCtx := match s.newest with
      | none => (s0, base)
      | some nav =>
        match (if s.rtFirst then none else s.tau) with
        | none =>
          let j0 := s.rtJ0.getD nav
          let w := (nav + 2 ^ 32 - lag - 1) % 2 ^ 32
          let i := if 0 ≤ frameDiff w j0 then w else j0
          ({ s0 with tau := some (i * 65536), rtFirst := false }, { base with i := i, shown := true })
        | some tau =>
          let r := retimeStep tau step nav lag
          let s1 := (({ s0 with tau := some r.1 }.incF F.CAL_RT_CNT_HOLDS (b2n r.2.1)).incF F.CAL_RT_CNT_DROPS r.2.2).tdAdd n
            fun t => { t with rt := t.rt + b2n (r.2.1 || r.2.2 != 0) }
          let x : FrameCtx := { base with i := r.1 / 65536, f := r.1 % 65536, hold := r.2.1, drop := r.2.2, shown := true
                                          aligned := decide (r.1 % 65536 < step) }
          if x.aligned then (s1, x) else s1.latchField x
    { q.1 with ctxNext := some q.2
               warp := q.1.warp.zipIdx.map fun w =>
                 if s.nBands ≤ w.2 then w.1
                 else if w.1.ctx.isNone ∧ w.1.queued = [] then { w.1 with ctx := some q.2, next := 0, since := s.now }
                 else { w.1 with queued := w.1.queued ++ [q.2] } }

/-- The frame context's sixteen bytes (R319). -/
def ctxBytes (x : FrameCtx) : List Byte :=
  let flags := b2n x.aligned + 2 * b2n x.fieldOk + 4 * b2n x.hold + 8 * b2n (x.drop != 0) + 16 * b2n x.live + 32 * b2n (x.overrun != 0)
  toLe 4 x.i ++ toLe 2 x.f ++ toLe 1 flags ++ toLe 1 0 ++ toLe 4 x.step ++ toLe 4 x.label

/-- Write bytes at the first logical position of a core's pronoun. -/
def State.putPrn (s : State) (p n : Nat) (bs : List Byte) : State :=
  let r := s.prn p n
  s.writeMem r.place (placeUnit r.place p) (r.posAddr 0 r.oy r.ox) bs

/-- FRAME_CONTEXT_WRITE (R319, R320): CTX_PRN, and the conditioning vector at every padded position of COND_PRN. -/
def State.writeContext (s : State) (vec : List Nat) : State :=
  let x := s.ctxNext.getD {}
  s.each s.nCores fun s l =>
    let p := s.phys l
    let s1 := s.putPrn p s.sched.ctxPrn (ctxBytes x)
    let r := s.prn p s.sched.condPrn
    s1.each r.ph fun s y => s.each r.pw fun s xx =>
      s.writeMem r.place (placeUnit r.place p) (r.posAddr 0 y xx) (vec.flatMap (toLe 2))

/-- The input-format record of the input frame most recently started at stage 8 (R287). -/
def State.formatRecord (s : State) : List Byte :=
  let n := s.inp.fmtPort
  let f := s.inp.fit
  let enc : Bool := match s.inp.fr with
    | some fr => fr.encrypted
    | none => ((s.inp.done.head?).map (·.encrypted)).getD false
  let flags := b2n (s.port n).hdr + 2 * b2n f.cropped + 4 * b2n enc + 8 * b2n s.inp.blankActive
  toLe 1 s.inp.fmtEnc ++ toLe 1 s.inp.fmtBpc ++
  toLe 1 (s.port n).colorimetry ++ toLe 1 flags ++ toLe 1 f.bucket ++ toLe 1 0 ++ toLe 2 f.padL ++ toLe 2 f.padT ++
  toLe 2 f.w ++ toLe 2 f.h ++ toLe 2 0

/-- FMT_PRN is written at every output frame boundary (R287). -/
def State.writeFormat (s : State) : State :=
  s.each s.nCores fun s l => s.putPrn (s.phys l) s.sched.fmtPrn s.formatRecord

/-! ### The warp units (R317, R318) -/

/-- A pixel of input frame j, its coordinates clamped to the bucket (R318). -/
def State.clampPix (s : State) (j wb hb : Nat) (x y : Int) : Pix := s.histPix j (clampIdx wb x) (clampIdx hb y)

/-- One component of samp (R318). -/
def sampComp (fx fy p00 p10 p01 p11 : Nat) : Nat :=
  (p00 * (16 - fx) * (16 - fy) + p10 * fx * (16 - fy) + p01 * (16 - fx) * fy + p11 * fx * fy + 128) / 256

/-- samp of R318: a position in 1/16 pixel. -/
def State.samp (s : State) (j wb hb : Nat) (sx sy : Int) : Pix :=
  let x0 := Int.fdiv sx 16
  let y0 := Int.fdiv sy 16
  let fx := (sx - 16 * x0).toNat
  let fy := (sy - 16 * y0).toNat
  let p (dx dy : Int) : Pix := s.clampPix j wb hb (x0 + dx) (y0 + dy)
  let c (g : Pix → Nat) : Nat := sampComp fx fy (g (p 0 0)) (g (p 1 0)) (g (p 0 1)) (g (p 1 1))
  ⟨c (·.c0), c (·.c1), c (·.c2)⟩

/-- An element of the latched field as a value (R110): block (by, bx), channel k. -/
def State.fieldAt (s : State) (x : FrameCtx) (yb xb k : Nat) : Frac :=
  match s.motionField with
  | none => Frac.zero
  | some (_, _, r0) =>
    let r := { r0 with base := x.fBase }
    (readF16 (leNat (readB s.dram (r.posAddr 0 (yb + r.oy) (xb + r.ox) + 2 * k) 2))).1

/-- The ten channels of one position of a warp ring (R318): bucket pixel (x, y) before clamping. -/
def State.warpPos (s : State) (q : FrameCtx) (wb hb : Nat) (x y : Int) : List Nat :=
  let three (p : Pix) : List Nat := [p.c0, p.c1, p.c2]
  if !q.shown then three s.black ++ three s.black ++ three s.black ++ [4095]
  else
    let p := three (s.clampPix q.i wb hb x y)
    if q.aligned then p ++ p ++ p ++ [4095]
    else
      let bs := 2 ^ s.sched.rt.bsLog
      let f (k : Nat) : Frac := if q.fieldOk then s.fieldAt q (clampIdx hb y / bs) (clampIdx wb x / bs) k else Frac.zero
      let v16 (k : Nat) : Int := clampI (-8191) 8191 ((f k).mul (Frac.ofInt 16)).round
      let vx := v16 0
      let vy := v16 1
      let ax := roundDiv ((q.f : Int) * vx) 65536
      let ay := roundDiv ((q.f : Int) * vy) 65536
      let cf := f 2
      let conf := if cf.lt Frac.zero then Frac.zero else if (Frac.ofInt 1).lt cf then Frac.ofInt 1 else cf
      p ++ three (s.samp q.i wb hb (16 * x - ax) (16 * y - ay)) ++
        three (s.samp ((q.i + 1) % 2 ^ 32) wb hb (16 * x + vx - ax) (16 * y + vy - ay)) ++
        [((conf.mul (Frac.ofInt 4095)).round).toNat]

/-- The bytes of a row of a warp ring. -/
def State.warpRow (s : State) (q : FrameCtx) (b y : Nat) (r : Prn) : List Byte :=
  let bk := s.bucketOf q.frame
  (List.range r.pw).flatMap fun (x : Nat) =>
    padTo (r.pitch 0) ((s.warpPos q bk.1 bk.2 ((x : Int) - r.ox + s.sched.rt.xIn.getD b 0) ((y : Int) - r.oy)).flatMap (toLe 2))

/-- Infinities and NaNs among the blocks of the latched field that a row of a warp ring reads (R110). -/
def State.fieldBad (s : State) (q : FrameCtx) (b y : Nat) (r : Prn) : Nat :=
  match s.motionField with
  | none => 0
  | some (_, _, r0) =>
    if !q.shown ∨ q.aligned ∨ !q.fieldOk then 0
    else
      let bk := s.bucketOf q.frame
      let bs := 2 ^ s.sched.rt.bsLog
      let f := { r0 with base := q.fBase }
      let blocks := ((List.range r.pw).map fun (x : Nat) =>
        clampIdx bk.1 ((x : Int) - r.ox + s.sched.rt.xIn.getD b 0) / bs).dedup
      ((blocks.flatMap fun xb => (List.range 3).map fun k =>
        f16Bad (leNat (readB s.dram (f.posAddr 0 (clampIdx bk.2 ((y : Int) - r.oy) / bs + f.oy) (xb + f.ox) + 2 * k) 2)))).foldl (· + ·) 0

/-- WARP_ROW_WRITE (R317): the next row of a band's warp ring, once its slot is empty. A row takes a fabric cycle for each sixteen
positions; the cycles in which the unit could have begun it and waited for the slot are counted. Infinities and NaNs that a row reads in the field count once each in the BAD_ESC of the band's
first logical core (DESIGN CHOICE, log entry 71). -/
def State.warpRowWrite (s : State) (b : Nat) : State :=
  let w := s.warp.getD b {}
  let w1 := if w.ctx.isNone then { w with ctx := w.queued.head?, queued := w.queued.tail, next := 0 } else w
  match w1.ctx with
  | none => s
  | some q =>
    let r := s.bprn b s.sched.rt.warpPrn
    if s.sched.rt.lag = 0 ∨ r.place ≠ 2 ∨ !s.lsReady b r w1.next ∨ s.bandStopped b then s
    else
      let wait := w1.wait + s.warpWaited b
      let s := s.waitUntil (max s.now w1.free + ceilDiv r.pw 16)
      let s1 := ((s.writeMem 2 b (r.lineAddr 0 w1.next) (s.warpRow q b w1.next r)).lsMark b r w1.next).incF
        (F.CORE_ARITH_QNT_BAD_ESC (s.phys (8 * b))) (s.fieldBad q b w1.next r)
      let w2 : WarpSt := if w1.next + 1 = r.ph then
          { w1 with ctx := w1.queued.head?, queued := w1.queued.tail, next := 0, wait := wait, since := s.now, free := s.now }
        else { w1 with next := w1.next + 1, wait := wait, since := s.now, free := s.now }
      { s1 with warp := s1.warp.set b w2 }

/-- WARP_WAIT is refreshed at a boundary (R329). -/
def State.warpBoundary (s : State) : State :=
  s.each 8 fun s b =>
    let w := s.warp.getD b {}
    { s.setF (F.BAND_WARP_WARP_WAIT b) (w.wait + s.warpWaited b) with
      warp := s.warp.set b { w with wait := 0, since := s.now } }

/-- The frame decided becomes the one in progress at its boundary (R327). In a live schedule its I is that of the input frame that
stage 10 writes (R312). -/
def State.ctxBoundary (s : State) : State :=
  let x0 := s.ctxNext.getD { s.ctx with frame := s.cal.frame }
  let x := if x0.live then { x0 with i := s.getF F.INP_FRAME_FRAME } else x0
  { s.setFs [(F.CAL_RT_POS_LO_F, x.f), (F.CAL_RT_POS_LO_ALIGNED, b2n x.aligned), (F.CAL_RT_POS_HI_I, x.i)] with
    ctx := x, ctxNext := none }

end Sys2Proof.Machine
end

