-- ==== Sys2Proof/Machine/BoxUnit.lean ====
section
/-! DEFINITION. The box unit (R322 to R328): decoding the head tensor, suppression, the box list and the raster. -/
namespace Sys2Proof.Machine

/-- The bits of n for which (2n − 1)⁶⁴ ≤ 2^(704 + r), added to `n` from bit `k − 1` down. -/
def expAux (r : Nat) : Nat → Nat → Nat
  | 0, n => n
  | k + 1, n => let t := n + 2 ^ k; expAux r k (if (2 * t - 1) ^ 64 ≤ 2 ^ (704 + r) then t else n)

/-- e(t) of R323: the binary16 value nearest to 2^(m/64), m = clamp(round(64 t), −512, 512). -/
def boxExp (t : Frac) : Frac :=
  let m := clampI (-512) 512 (t.mul (Frac.ofInt 64)).round
  let q := Int.fdiv m 64
  let r := (m - 64 * q).toNat
  (Frac.ofInt (expAux r 11 0)).scale2 (q - 10)

/-- Index of the largest value, ties to the lower (R323). -/
def argMax (vs : List Frac) : Nat :=
  ((List.range vs.length).foldl (fun (b : Nat) i => if (vs.getD b Frac.zero).lt (vs.getD i Frac.zero) then i else b) 0)

/-- Decode one anchor of one cell (R323): none where it is not a candidate, with the infinities and NaNs among the record's values
that it reads (R110) and the roundings that saturate (R112). `v` are its 4 + K raw elements. -/
def decodeBox (d : DetRec) (wb hb gy gx a : Nat) (v : List Nat) : Option Box × Cnt :=
  let val (i : Nat) : Frac := (readF16 (v.getD i 0)).1
  let k := argMax ((List.range d.k).map fun i => val (4 + i))
  let sc := val (4 + k)
  let th := readF16 (d.thresh.getD k 0)
  if sc.lt th.1 then (none, th.2)
  else
    let s : Frac := Frac.ofInt (2 ^ d.sLog : Nat)
    let half : Frac := ⟨1, 2⟩
    let cx := ((Frac.ofInt gx).add (half.add (val 0))).mul s
    let cy := ((Frac.ofInt gy).add (half.add (val 1))).mul s
    let an := d.anchor.getD a (0, 0)
    let wr := toF16 ((readF16 an.1).1.mul (boxExp (val 2)))
    let hr := toF16 ((readF16 an.2).1.mul (boxExp (val 3)))
    let w := f16Val wr.1
    let h := f16Val hr.1
    let cnt : Cnt := ((th.2.add (readF16 an.1).2).add (readF16 an.2).2).add { stage := wr.2 + hr.2 }
    let cl (n : Nat) (x : Int) : Int := clampI 0 ((n : Int) - 1) x
    let x0 := cl wb (cx.sub (w.mul half)).round
    let x1 := cl wb ((cx.add (w.mul half)).round - 1)
    let y0 := cl hb (cy.sub (h.mul half)).round
    let y1 := cl hb ((cy.add (h.mul half)).round - 1)
    (if x1 < x0 ∨ y1 < y0 then none
     else some { x0 := x0.toNat, y0 := y0.toNat, x1 := x1.toNat, y1 := y1.toNat
                 score := f16Clean (v.getD (4 + k) 0), cls := k, anchor := a, gy := gy, gx := gx }, cnt)

/-- Order of R324: descending score, then lower class; equal ones keep their order (cell, then anchor). -/
def boxBefore (a b : Box) : Bool :=
  (f16Val b.score).lt (f16Val a.score) || ((f16Val a.score).eq (f16Val b.score) && decide (a.cls ≤ b.cls))

/-- Insert a box after those that come before it. -/
def boxInsert (b : Box) : List Box → List Box
  | [] => [b]
  | x :: xs => if boxBefore x b then x :: boxInsert b xs else b :: x :: xs

/-- Candidates in the order of R324. -/
def boxSort (l : List Box) : List Box := l.foldl (fun acc b => boxInsert b acc) []

/-- 256 × inter > IOU_T × union (R324). -/
def overlaps (t : Nat) (a b : Box) : Bool := decide (t * (a.area + b.area - a.inter b) < 256 * a.inter b)

/-- Suppression (R324): boxes kept in order, and whether candidates remain unexamined at MAX_BOXES. -/
def keepBoxes (d : DetRec) : List Box → List Box → List Box × Bool
  | [], kept => (kept, false)
  | b :: rest, kept =>
    if d.maxBoxes ≤ kept.length then (kept, true)
    else if kept.any fun q => (d.agnostic || q.cls == b.cls) && overlaps d.iouT q b then keepBoxes d rest kept
    else keepBoxes d rest (kept ++ [b])

/-- Size of the raster (R325): lines, positions. -/
def rasterSize (d : DetRec) (wb hb : Nat) : Nat × Nat := (ceilDiv hb (2 ^ d.rastLog), ceilDiv wb (2 ^ d.rastLog))

/-- Occupancy of the box unit in fabric cycles, without DRAM latency (R326); `c` is the candidate count. -/
def boxCycles (d : DetRec) (c cells : Nat) : Nat :=
  ceilDiv (d.gh * d.gw * d.a) 4 + 2 * c * clog2 (max c 2) + ceilDiv (c * min c d.maxBoxes) 16 + ceilDiv (cells * d.k) 64

/-- Infinities and NaNs that the box unit reads in the head tensor (R110). -/
def State.headBad (s : State) (d : DetRec) (h : Prn) (p : Nat) : Nat :=
  (((List.range d.gh).flatMap fun gy => (List.range d.gw).flatMap fun gx =>
    s.readElems h p (h.padY gy) (h.padX gx) 0 (d.a * (4 + d.k))).map f16Bad).foldl (· + ·) 0

/-- BOX_UNIT_RUN (R323, R324, R326): once every core has drained the run of CLAUSE. An uncorrectable read of the
head tensor fails the run. Infinities and NaNs that it reads and roundings that saturate (R110, R112) count in logical core 0,
whose table names the tensor (log entry 71). `latency`: the DRAM latency of the run, in fabric cycles. -/
def State.boxRun (s : State) (latency : Nat) : State :=
  match s.sched.det with
  | none => s
  | some d =>
    match (s.fc.getD d.clause {}).run with
    | none => s
    | some r =>
      if r.failed ∨ r.boxDone ∨ s.box.isSome ∨ !((List.range s.nCores).all fun l => r.cores.contains l) then s
      else
        let p := s.phys 0
        let h := s.prn p d.headPrn
        let bk := bucketSize s.bucket
        if s.memBad 3 0 h.base h.size then
          ({ s with fc := s.fc.modify d.clause fun f => { f with run := f.run.map fun q => { q with failed := true } } } : State).runEnds d.clause
        else
          let dec := (List.range d.gh).flatMap fun gy => (List.range d.gw).flatMap fun gx => (List.range d.a).map fun a =>
            decodeBox d bk.1 bk.2 gy gx a (s.readElems h p (h.padY gy) (h.padX gx) (a * (4 + d.k)) (4 + d.k))
          let all := dec.filterMap (·.1)
          let c := (boxSort all).take 4096
          let k := keepBoxes d c []
          let sz := rasterSize d bk.1 bk.2
          let cyc := boxCycles d c.length (if d.rastPair = 0xFF then 0 else sz.1 * sz.2) + latency
          ({ s with box := some { clause := d.clause, done := s.now + cyc, boxes := k.1, cands := c.length
                                  ovf := decide (4096 < all.length), trunc := k.2, cycles := cyc } } : State).countArith p
            ((Cnt.all (dec.map (·.2))).add { badEsc := s.headBad d h p })

/-- The box list (R325). -/
def boxList (b : BoxRun) (frame : Nat) : List Byte :=
  toLe 2 b.boxes.length ++ toLe 2 b.cands ++ toLe 4 frame ++ toLe 1 (b2n b.ovf + 2 * b2n b.trunc) ++ List.replicate 7 (0 : Byte) ++
  b.boxes.flatMap fun q => toLe 2 q.x0 ++ toLe 2 q.y0 ++ toLe 2 q.x1 ++ toLe 2 q.y1 ++ toLe 2 q.score ++ toLe 1 q.cls ++
    toLe 1 q.anchor ++ toLe 2 q.gy ++ toLe 2 q.gx

/-- One raster cell's eight channels (R325). -/
def rasterCell (d : DetRec) (bs : List Box) (ry rx : Nat) : List Nat :=
  let y := ry * 2 ^ d.rastLog + 2 ^ (d.rastLog - 1)
  let x := rx * 2 ^ d.rastLog + 2 ^ (d.rastLog - 1)
  (List.range 8).map fun k =>
    if k < d.k ∧ bs.any fun b => b.cls == k && decide (b.x0 ≤ x ∧ x ≤ b.x1 ∧ b.y0 ≤ y ∧ y ≤ b.y1) then 4095 else 0

/-- BOX_UNIT_COMPLETE (R325, R326, R328): the list and the raster stand in the working buffers, and the run's
outputs are finished. -/
def State.boxComplete (s : State) : State :=
  match s.box, s.sched.det with
  | some b, some d =>
    let s1 : State := { s.waitUntil b.done with box := none }
    match (s.fc.getD b.clause {}).run with
    | none => s1
    | some r =>
      if r.failed then s1
      else
        let p := s.phys 0
        let cl := s.sched.frameClauses.getD b.clause default
        let s2 := s1.putPrn p (cl.pairs.getD d.boxPair (0, 0)).1 (boxList b r.inFrame)
        let bk := bucketSize s.bucket
        let sz := rasterSize d bk.1 bk.2
        let s3 := if d.rastPair = 0xFF then s2 else
          let q := s2.prn p (cl.pairs.getD d.rastPair (0, 0)).1
          s2.each sz.1 fun s ry => s.each sz.2 fun s rx =>
            s.writeElems q p (q.padY ry) (q.padX rx) 0 (rasterCell d b.boxes ry rx)
        let s4 := s3.setFs [(F.CAL_DET_LAST_BOXES, b.boxes.length), (F.CAL_DET_LAST_CANDS, b.cands), (F.CAL_DET_CYC_CYCLES, b.cycles)]
        let s5 := (s4.incF F.CAL_DET_CNT_CAND_OVF (b2n b.ovf)).incF F.CAL_DET_CNT_TRUNC (b2n b.trunc)
        { s5 with fc := s5.fc.modify b.clause fun f => { f with run := f.run.map fun q => { q with boxDone := true } } }
  | _, _ => s

end Sys2Proof.Machine
end

