-- ==== Sys2Proof/Machine/Drizzle.lean ====
section
/-! DEFINITION. Drizzle (chapter 12): the replay buffer and its crops, the Squall generator and the sample order,
steps, gradient operations, the reduction and the update, commits, and the controls. -/
namespace Sys2Proof

/-! ### The Squall generator (R339) -/

/-- Arithmetic modulo 2⁶⁴. -/
def u64 (x : Nat) : Nat := x % 2 ^ 64

/-- One round: the state and the key. -/
def squallRound (x k : Nat) : Nat × Nat :=
  let k1 := u64 (k + 0x9B2F6C4D1E83A57B)
  let x1 := u64 ((x ^^^ k1) * 0xC3E715A94F6D2B81)
  let x2 := x1 ^^^ (x1 / 2 ^ 29) ^^^ (u64 (k1 * 2 ^ 17) + k1 / 2 ^ 47)
  let x3 := u64 (x2 * 0xE6A493C17D580F2D)
  (x3 ^^^ (x3 / 2 ^ 32), k1)

/-- squall(key, stream, index) of R339. -/
def squall (key stream index : Nat) : Nat :=
  let r0 := squallRound (stream * 2 ^ 56 + index % 2 ^ 56) key
  let r1 := squallRound r0.1 r0.2
  let r2 := squallRound r1.1 r1.2
  (squallRound r2.1 r2.2).1

/-- One Feistel round of R337 on the halves (hi, lo) with a six-bit key. -/
def feistelRound (k : Nat) (h : Nat × Nat) : Nat × Nat :=
  (h.2, h.1 ^^^ ((h.2 ^^^ k) * 37 + k) % 64)

/-- π(p) of epoch e (R337), from the four round keys. -/
def feistel (ks : List Nat) (p : Nat) : Nat :=
  let h := ks.foldl (fun h k => feistelRound k h) (p / 64 % 64, p % 64)
  h.1 * 64 + h.2

/-- The permutation of epoch e (R337). -/
def samplePerm (seed e p : Nat) : Nat := feistel ((List.range 4).map fun i => squall seed 0x02 (4 * e + i) % 64) p

/-! ### Augmentation (R340) -/

/-- The source position of augmented position (x, y) (R340). -/
def augSource (a x y : Nat) : Nat × Nat :=
  let p := if bit a 2 then (y, x) else (x, y)
  (if bit a 0 then 63 - p.1 else p.1, if bit a 1 then 63 - p.2 else p.2)

/-- One augmented component (R340): v is the source component, u the 16 noise bits. -/
def augComp (g6 noise v u : Nat) : Nat :=
  let gv := (v * (224 + g6) + 128) / 256
  let n := roundDiv ((((u % 256 + u / 256 : Nat) : Int) - 255) * noise) 256
  (clampI 0 4095 ((gv : Int) + n)).toNat

/-! ### Reduction and update (R347, R348) -/

/-- One level of the reduction tree: neighbours are added, saturating to int32. -/
def treeLevel : List Int → List Int × Nat
  | a :: b :: t =>
    let s := satAddI 32 a b
    let r := treeLevel t
    (s.1 :: r.1, s.2 + r.2)
  | l => (l, 0)

/-- The fixed tree over 2^n partials (R347). -/
def treeSum : Nat → List Int → Int × Nat
  | 0, l => (l.headD 0, 0)
  | n + 1, l =>
    let a := treeLevel l
    let r := treeSum n a.1
    (r.1, a.2 + r.2)

/-- bf() of R348: one rounding to binary16, with STAGE_SAT where it saturates (R112). -/
def bf (x : Frac) : Frac × Nat := let h := toF16 x; (f16Val h.1, h.2)

/-- The new moments and d of R348, with the saturations of its roundings (R112); `fv` is the free pattern that stands for the root
of a negative second moment (log entry 2). -/
def drzMoments (r : DrzRec) (fv : Nat) (m v g : Frac) : (Frac × Frac × Frac) × Nat :=
  let dm := bf ((g.sub m).scale2 (-(r.b1 : Int)))
  let m1 := bf (m.add dm.1)
  let gg := bf (g.mul g)
  let dv := bf ((gg.1.sub v).scale2 (-(r.b2 : Int)))
  let v1 := bf (v.add dv.1)
  let root := if v1.1.num < 0 then f16Val fv else f16Val (sqrtF16 v1.1)
  let den := bf (root.add (f16Val r.eps))
  let d := bf (m1.1.div den.1)
  ((m1.1, v1.1, d.1), dm.2 + m1.2 + gg.2 + dv.2 + v1.2 + den.2 + d.2)

/-- The new master code (R348) for w1, with MASTER_SAT: `u` are the 24 random bits. -/
def masterCode (cb : Codebook) (sr : Bool) (u : Nat) (w1 : Frac) : Nat × Nat :=
  if w1.lt (cb.val 0) then (0, 1)
  else if (cb.val 254).lt w1 then (254, 1)
  else
    let a := (List.range 255).foldl (fun b i => if (cb.val i).le w1 then i else b) 0
    let va := cb.val a
    if va.eq w1 then (a, 0)
    else
      let vb := cb.val (a + 1)
      if sr then (if ((Frac.ofInt u).mul (vb.sub va)).lt ((w1.sub va).mul (Frac.ofInt (2 ^ 24 : Nat))) then a + 1 else a, 0)
      else
        let da := w1.sub va
        let db := vb.sub w1
        (if da.lt db then a else if db.lt da then a + 1 else if va.abs.lt vb.abs then a + 1 else a, 0)

/-- A quantised row of a tile state: codes, tag and side at the offsets of R332 from `o`. -/
def stateRow (b : List Byte) (o r : Nat) : QRow :=
  ⟨unpackCodes false 64 (sliceB b (o + 32 * r) 32), leAt b (o + 2048 + 4 * r) 4,
   (List.range 8).map fun i => leAt b (o + 2304 + 16 * r + 2 * i) 2⟩

/-- The bytes of 64 quantised rows: codes, tags, sides (R332). -/
def stateRows (rows : List QRow) : List Byte :=
  (rows.flatMap fun q => packCodes false q.codes) ++ (rows.flatMap fun q => toLe 4 q.tag) ++
  (rows.flatMap fun q => q.side.flatMap (toLe 2))

/-- What one row's update gives: master codes, moment rows, saturations (GRAD_SAT, MASTER_SAT), and the events of R134. -/
structure RowUpd where
  master : List Nat
  m1 : QRow
  m2 : QRow
  grad : Nat
  sat : Nat
  cnt : Cnt
  deriving Repr

/-- The codes that masked cells had stay as they were (R348). -/
def keepMasked (act : Nat → Bool) (old new : QRow) : QRow :=
  { new with codes := new.codes.zipIdx.map fun c => if act c.2 then c.1 else old.codes.getD c.2 0 }

/-- One row of a tile (R347, R348). `cbs`: G_CB, M1_CB, M2_CB, MASTER_CB; `sums`: the reduced partials; `act`: the
layer's mask; `rnd k`: the draw for cell (r, k); `fv k`: free patterns. A masked cell keeps its three codes and enters its rows'
quantisation as 0 (DESIGN CHOICE, log entry 88). -/
def updateRow (d : DrzRec) (cbs : List Codebook) (qg : Int) (act : Nat → Bool) (rnd fv : Nat → Nat)
    (st : List Byte) (r : Nat) (sums : List Int) : RowUpd :=
  let cb (i : Nat) : Codebook := cbs.getD i default
  let pats := sums.map fun x => toF16 ((Frac.ofInt x).scale2 qg)
  let gq := quantise (cb 0) 0 0 (pats.map (·.1))
  let m1 := stateRow st 4096 r
  let m2 := stateRow st 7424 r
  let cells := (List.range 64).map fun k =>
    let w := byteAt st (64 * r + k)
    if act k then
      let g := gq.1.elem (cb 0) k
      let m := m1.elem (cb 1) k
      let v := m2.elem (cb 2) k
      let u := drzMoments d (fv k) m.1 v.1 g.1
      let c := masterCode (cb 3) d.sr (rnd k) (((cb 3).val w).sub ((f16Val d.lr).mul u.1.2.2))
      ((f16Of u.1.1, f16Of u.1.2.1, c), ((g.2.add m.2).add v.2).add { stage := u.2 })
    else ((0, 0, (w, 0)), Cnt.none)
  let q1 := quantise (cb 1) 0 0 (cells.map fun c => c.1.1)
  let q2 := quantise (cb 2) 0 0 (cells.map fun c => c.1.2.1)
  { master := cells.map fun c => c.1.2.2.1
    m1 := keepMasked act m1 q1.1
    m2 := keepMasked act m2 q2.1
    grad := (pats.map (·.2)).foldl (· + ·) 0
    sat := (cells.map fun c => c.1.2.2.2).foldl (· + ·) 0
    cnt := ((Cnt.all (cells.map (·.2))).add gq.2).add (q1.2.add q2.2) }

/-- The state bytes of a tile from its 64 updated rows (R332). -/
def tileBytes (rows : List RowUpd) : List Byte :=
  padTo 12288 ((rows.flatMap fun r => r.master.map fun c => BitVec.ofNat 8 c) ++
    padTo 3328 (stateRows (rows.map (·.m1))) ++ stateRows (rows.map (·.m2)))

/-- Transpose of a tile's 4096 codes (R333). -/
def transposeTile (codes : List Nat) : List Nat := (List.range 4096).map fun i => codes.getD (64 * (i % 64) + i / 64) 0

/-- A page from 4096 four-bit codes (R147). -/
def codesPage (codes : List Nat) : List Byte := packCodes false codes

end Sys2Proof

namespace Sys2Proof.Machine

/-! ### Records and places -/

/-- The Drizzle record of the model set that the weight files hold. -/
def State.drzRec (s : State) : DrzRec := DrzRec.parse s.mset.drzRaw
/-- T of R146 for that set. -/
def State.drzT (s : State) : Nat := s.mset.t
/-- The Drizzle binding of the running schedule. -/
def State.drzBind (s : State) : Option DrzBind := s.sched.bindRaw.map DrzBind.parse
/-- The counters of that model set. -/
def State.drzSet (s : State) : DrzSet := SMap.get {} s.drz.sets s.msetIdx
/-- Change them. -/
def State.onDrzSet (s : State) (f : DrzSet → DrzSet) : State :=
  { s with drz := { s.drz with sets := SMap.set {} s.drz.sets s.msetIdx (f s.drzSet) } }
/-- Change the Drizzle unit. -/
def State.onDrz (s : State) (f : DrzSt → DrzSt) : State := { s with drz := f s.drz }
/-- TAINT is set (R352). -/
def State.drzTaint (s : State) : State := s.onDrzSet fun d => { d with taint := true }

/-- Offset of a tile's state in copy c of the state area (R333): the copies first, then the page buffers (log entry
14). -/
def State.tileOff (s : State) (c i : Nat) : Nat := s.mset.drzArea + (c * s.drzT + i) * 12288
/-- Offset of a page of page buffer k: live pages, then transposed ones. -/
def State.pageBufOff (s : State) (k : Nat) : Nat := s.mset.drzArea + 2 * s.drzT * 12288 + k * (2 * s.drzT) * 2048

/-- The live codes of a tile of a copy (R333): LIVE_MAP of each master code. -/
def State.liveCodes (s : State) (c i : Nat) : List Nat :=
  let map := readB s.dram (s.mset.base + s.drzRec.mapOff) 256
  (readB s.dram (s.tileOff c i) 4096).map fun b => byteAt map b.toNat

/-- Write the live and transposed pages of T tiles into page buffer k. -/
def State.writePages (s : State) (k : Nat) (live : List (List Nat)) : State :=
  (s.writeMem 3 0 (s.pageBufOff k) (live.flatMap codesPage)).writeMem 3 0 (s.pageBufOff k + s.drzT * 2048)
    (live.flatMap fun c => codesPage (transposeTile c))

/-- Write T live tiles into the adapter bank that is not live, in every core, spares included (R351, R270): each core's weight-file
write path takes 64 core cycles for each (R147, R164). -/
def State.writeInactive (s : State) (live : List (List Nat)) : State :=
  let m := s.mset
  s.each 72 fun s p =>
    if s.listens p then s.onCore p fun c0 =>
      let bank := 1 - s.getF (F.CORE_WFILE_ADAPT_BANK p)
      let c := setFree c0 .weightPath (max (ticks * s.now) (occupiedUnit c0 .weightPath).1 + coreTicks (s.clock p) (64 * m.t)) 4
      { c with
        tiles := (List.range m.t).foldl (fun t i => SMap.set [] t (m.a + bank * m.t + i) (live.getD i [])) c.tiles
        parity := c.parity.filter fun e => !(decide (m.a + bank * m.t ≤ e) && decide (e < m.a + (bank + 1) * m.t)) }
    else s

/-- ADAPT of R444: the digest of the live pages of a page buffer. -/
def State.adaptDigest (s : State) (k : Nat) : List Byte := sha384 (readB s.dram (s.pageBufOff k) (s.drzT * 2048))

/-- The live bank changes in every core; a late line of an earlier frame goes on with the bank that was live in its frame (R146). -/
def State.flipBank (s : State) : State :=
  let late (l : LineFl) : Bool := l.bank.isNone && decide (frameDiff l.frame s.cal.frame < 0)
  let keep (b : Nat) (l : LineFl) : LineFl := if late l then { l with bank := some b } else l
  s.each 72 fun s p => (s.onCore p fun c => { c with lines := c.lines.map (keep (s.getF (F.CORE_WFILE_ADAPT_BANK p))) }).setF (F.CORE_WFILE_ADAPT_BANK p) (1 - s.getF (F.CORE_WFILE_ADAPT_BANK p))

/-- The initial tile states into both copies, and the pages of version 0 (R353). -/
def State.drzInit (s : State) : State :=
  let m := s.mset
  let init := readB s.dram (m.base + s.drzRec.initOff) (12288 * m.t)
  let s1 := (s.writeMem 3 0 (s.tileOff 0 0) init).writeMem 3 0 (s.tileOff 1 0) init
  let live := (List.range m.t).map fun i => s1.liveCodes 0 i
  (s1.writePages 0 live).writeInactive live

/-! ### The crop grabber (R335, R336) -/

/-- QUOTA and CPF; 9 to 15 act as 8 (R356). -/
def State.drzQuota (s : State) : Nat := min 8 (s.getF F.DRZ_CTRL_QUOTA)
/-- CPF in use. -/
def State.drzCpf (s : State) : Nat := min 8 (s.getF F.DRZ_CTRL_CPF)

/-- Frames that become available at this boundary give crops (R335); CPF is sampled at A(j). -/
def State.planGrabs (s : State) (frames : List Nat) : State :=
  frames.foldl (fun s j =>
    match s.histSlot j with
    | none => s
    | some k =>
      let h := s.hist.getD k {}
      if h.blank ∨ s.drzCpf = 0 ∨ min h.fit.w h.fit.wb < 64 ∨ min h.fit.h h.fit.hb < 64 then s
      else s.onDrz fun d => { d with grabs := d.grabs ++ [⟨j, s.drzCpf, h.fit, k, h.encrypted⟩] }) s

/-- One crop of input frame j (R335, R336): n of CPF. -/
def State.takeCrop (s : State) (g : Grab) (n : Nat) : State :=
  let z := squall s.drz.seed 0x01 (8 * g.frame + n)
  let x := g.fit.padL + z % 2 ^ 32 % (min g.fit.w g.fit.wb - 63)
  let y := g.fit.padT + z / 2 ^ 32 % (min g.fit.h g.fit.hb - 63)
  let h := s.hist.getD g.slot {}
  let gone := h.frame != some g.frame
  let a (r : Nat) : Nat := s.histAddr g.slot + (y + r) * histPitch g.fit.wb + 8 * x
  let corrupt := gone || (h.replaced.any fun r => decide (y ≤ r) && decide (r < y + 64)) ||
    (List.range 64).any fun r => s.memBad 3 0 (a r) 512
  let slot := s.drz.e % 4096
  let base := s.prog.rbBase
  let px := (List.range 64).flatMap fun r => readB s.dram (a r) 512
  let hdr := toLe 8 s.drz.e ++ toLe 4 g.frame ++ toLe 2 x ++ toLe 2 y ++ toLe 1 (b2n corrupt + 2 * b2n g.enc) ++
    List.replicate 47 (0 : Byte)
  ((s.writeMem 3 0 (base + 32768 * slot) px).writeMem 3 0 (base + 0x8000000 + 64 * slot) hdr).onDrz fun d =>
    { d with e := (d.e + 1) % 2 ^ 44 }

/-- CROP_GRAB: the crops of the oldest input frame waiting (R335). -/
def State.cropGrab (s : State) : State :=
  match s.drz.grabs with
  | [] => s
  | g :: rest =>
    let s1 := s.each g.cpf fun s n => s.takeCrop g n
    s1.onDrz fun d => { d with grabs := rest, log := (d.log ++ [(g.frame, d.e)]).drop ((d.log.length + 1) - 64) }

/-- Any replay slot has ENCRYPTED set (R336, R421). -/
def State.replayEncrypted (s : State) : Bool :=
  (List.range 4096).any fun k => bit (byteAt (readB s.dram (s.prog.rbBase + 0x8000000 + 64 * k + 16) 1) 0) 1

/-! ### Steps (R338, R341) -/

/-- E for a step of the queue (R338), once every crop that it counts has been taken; while none has been taken yet,
that of the first frame that gives one. None: the step waits. -/
def State.stepE (s : State) (q : DrzQ) : Option Nat :=
  let upTo (j : Nat) : Bool := q.shown && decide (frameDiff j q.i < 0)
  if s.drz.grabs.any fun g => upTo g.frame then none
  else
    match (s.drz.log.filter fun l => upTo l.1).getLast? with
    | some l => some l.2
    | none => s.drz.log.head?.map (·.2)

/-- One position of the sample order (R338). -/
def State.samplePos (s : State) (e d : Nat) : State × Option (Nat × Nat) :=
  let pos := s.drzSet.sc
  let s1 := s.onDrzSet fun z => { z with sc := (z.sc + 1) % 2 ^ 44 }
  let i := samplePerm s.drz.seed (pos / 4096) (pos % 4096)
  if d ≤ i then (s1, none)
  else
    let c := e - d + i
    let a := s.prog.rbBase + 0x8000000 + 64 * (c % 4096)
    let h := readB s.dram a 64
    if leAt h 0 8 % 2 ^ 44 ≠ c then ((s1.incF F.DRZ_SKIP_STALE 1).drzTaint, none)
    else if bit (byteAt h 16) 0 ∨ s.memBad 3 0 a 64 then (s1.incF F.DRZ_SKIP_CORRUPT 1, none)
    else (s1, some (c, pos))

/-- SAMPLE_SELECT: up to `fuel` positions, until b samples are found (R338). -/
def State.sampleSelect : Nat → Nat → Nat → Nat → State → List (Nat × Nat) → State × List (Nat × Nat)
  | 0, _, _, _, s, l => (s, l)
  | n + 1, b, e, d, s, l =>
    if b ≤ l.length then (s, l)
    else
      let r := s.samplePos e d
      State.sampleSelect n b e d r.1 (match r.2 with | some x => l ++ [x] | none => l)

/-- The clause of the binding goes onto thread 3 of every core that has not ended the oldest step, and PAGE_PRN
names the pages of the version that it latched (R341, R343, R346). -/
def State.drzTakeUp (s : State) : State :=
  match s.drz.steps.head?, s.drzBind with
  | some st, some b =>
    if !st.selected then s
    else s.each s.nCores fun s l =>
      let p := s.phys l
      if st.ended.contains l ∨ (s.threadClause p 3).isSome then s
      else
        let a := s.pageBufOff st.q.buf
        let w5 := s.getF (F.CORE_PRN_DATA p (8 * b.pagePrn + 5))
        ((s.setFs [(F.CORE_PRN_DATA p (8 * b.pagePrn + 4), a % 2 ^ 32),
          (F.CORE_PRN_DATA p (8 * b.pagePrn + 5), w5 / 256 * 256 + a / 2 ^ 32 % 256)]).onThread p 3 fun h =>
            { h with clause := s.sched.drzClause }).frameThreads p
  | _, _ => s

/-- A step selects its samples; it goes on in a later command where 8192 positions did not give them all. -/
def State.selectFor (s : State) (n : Nat) (st : DrzStep) (older : List DrzStep) : State :=
  let r := State.sampleSelect 8192 n st.e st.d s st.samples
  (r.1.onDrz fun d => { d with steps := older ++ [{ st with samples := r.2, selected := decide (n ≤ r.2.length) }] }).drzTakeUp

/-- A step may begin (R341, R353): none is in progress, or the only one is in phase 4. -/
def State.stepRoom (s : State) : Bool :=
  s.drz.on && !s.drz.reset && s.drzT != 0 &&
  (match s.drz.steps with
    | [] => true
    | [st] => decide (s.nCores ≤ st.ended.length)
    | _ => false)

/-- The next step of the queue begins (R338, R349): it takes the next step number. -/
def State.nextStep (s : State) (n : Nat) : State :=
  match s.drz.queue with
  | [] => s
  | q :: rest =>
    match (if s.stepRoom then s.stepE q else none) with
    | none => s
    | some e =>
      if e = 0 then s
      else
        let st : DrzStep := { q := q, num := s.drzSet.step, e := e, d := min e 4032, startAt := s.now }
        let s1 := (s.onDrz fun d => { d with queue := rest }).onDrzSet fun z => { z with step := (z.step + 1) % 2 ^ 40 }
        (if q.td then s1.drzTaint else s1).selectFor n st s.drz.steps

/-- DRIZZLE_STEP_START (R341, R338): the first step of the queue begins, or one begun goes on selecting. -/
def State.drzStepStart (s : State) : State :=
  match s.drzBind with
  | none => s
  | some b =>
    let n := s.nCores * b.spc
    match s.drz.steps.getLast? with
    | some st => if st.selected then s.nextStep n else s.selectFor n st s.drz.steps.dropLast
    | none => s.nextStep n

/-! ### Phases 2 and 3 -/

/-- Change a step in progress. -/
def State.onStep (s : State) (num : Nat) (f : DrzStep → DrzStep) : State :=
  s.onDrz fun d => { d with steps := d.steps.map fun t => if t.num = num then f t else t }

/-- AUGMENT_SAMPLE (R340): the next sample of logical core l is written into its SAMPLE_PRN and signalled. A core's
samples of the later step wait until it has ended the earlier one (R343). -/
def State.augment (s : State) (l : Nat) : State :=
  match s.drzBind, s.drz.steps.find? fun t => t.selected && !t.ended.contains l with
  | some b, some st =>
    let q := SMap.get 0 st.aug l
    if b.spc ≤ q ∨ s.nCores ≤ l then s
    else
      let c := st.samples.getD (l * b.spc + q) (0, 0)
      let a := squall s.drz.seed 0x03 c.2
      let a3 := if b.geom then a % 8 else 0
      let g6 := if b.gain then bits a 3 6 else 32
      let p := s.phys l
      let r := s.prn p b.samplePrn
      let src := s.prog.rbBase + 32768 * (c.1 % 4096)
      let s1 := s.each 64 fun s y => s.each 64 fun s x =>
        let q0 := augSource a3 x y
        let px := bytesPix (readB s.dram (src + 512 * q0.2 + 8 * q0.1) 8)
        s.writeElems r p (r.padY (64 * q + y)) (r.padX x) 0 ((List.range 3).map fun i =>
          let e := 3 * (64 * y + x) + i
          let u := bits (squall s.drz.seed 0x04 (4096 * c.2 + e / 4)) (16 * (e % 4)) 16
          augComp g6 b.noiseA (if i = 0 then px.c0 else if i = 1 then px.c1 else px.c2) u)
      (s1.onStep st.num fun t => { t with aug := SMap.set 0 t.aug l (q + 1) }).signalAt p b.sampleSem {}
  | _, _ => s

/-- The gradient descriptors of the running schedule (R344). -/
def State.gradDescs (s : State) : List GradDesc := s.sched.grads.map GradDesc.parse

/-- Tap and chunks of entry J of a layer (R344): chunk of the input, tap, chunk of the output. -/
def gradIndex (d : LayerDesc) (m : MapRec) (j : Nat) : Nat × Nat × Nat :=
  let nci := if m.kind = 0 then max 1 (ceilDiv d.inCh 64) else 1
  let taps := max 1 (m.kh * m.kw)
  (j % nci, j / nci % taps, j / (nci * taps))

/-- One position of a gradient operation (R345): the 4096 accumulators and the events. -/
def State.gradPos (s : State) (p : Nat) (d : LayerDesc) (m : MapRec) (g : GradDesc) (gcb : Codebook)
    (oy ox : Nat) (acc : List Int) : List Int × Cnt :=
  let ix := gradIndex d m g.j
  let c := s.core p
  let xr := s.prn p g.xPrn
  let gr := s.prn p g.gPrn
  let pos := m.inPos oy ox (ix.2.1 / max 1 m.kw) (ix.2.1 % max 1 m.kw)
  let xq := (s.readRow xr p (xr.padY pos.1) (xr.padX pos.2) (stepChunk m ix.2.2 ix.1)).1
  let gq := (s.readRow gr p (gr.padY oy) (gr.padX ox) ix.2.2).1
  let vs := stepValues (SMap.get default c.cbs d.inCb) m ix.2.2 xq
  let vals := (List.range gcb.k).map fun i =>
    if i = gcb.escCode ∧ gq.scale ≠ 0xFF then (Frac.zero, ({} : Cnt)) else ({ gq with codes := [i] } : QRow).elem gcb 0
  let codes := (List.range 64).map fun k => gq.codes.getD k 0
  let gEvents := (List.range (min 64 gq.codes.length)).map fun k =>
    if gq.codes.getD k 0 = gcb.escCode then ({ badEsc := 1 } : Cnt) else (gq.elem gcb k).2
  let rows := (List.range 64).map fun r =>
    let v := vs.1.getD r Frac.zero
    let t := (List.range gcb.k).map fun i =>
      if i = gcb.escCode ∨ v.num = 0 then ((0 : Int), 0) else product v (vals.getD i (Frac.zero, {})).1 g.qg
    let x := rowAdd (t.map (·.1)) (cellActive m r) 0 codes ((List.range 64).map fun k => acc.getD (64 * r + k) 0)
    (x.1, ({ cell := x.2, prod := (t.map (·.2)).foldl (· + ·) 0 } : Cnt))
  (rows.flatMap (·.1), (Cnt.all (rows.map (·.2))).add (vs.2.add (Cnt.all gEvents)))

/-- All positions of a gradient operation, each with its reads' ECC (R207, R345); true where a word is uncorrectable. -/
def State.gradRun (s : State) (p : Nat) (d : LayerDesc) (m : MapRec) (g : GradDesc) (gcb : Codebook) (e : EccIn) :
    List Int × Cnt × State × Bool :=
  let xr := s.prn p g.xPrn
  let gr := s.prn p g.gPrn
  let ix := gradIndex d m g.j
  let poss := (List.range gr.lh).flatMap fun oy => (List.range gr.lw).map fun ox => (oy, ox)
  poss.foldl (fun (a : List Int × Cnt × State × Bool) q =>
    if a.2.2.2 then a
    else
      let pos := m.inPos q.1 q.2 (ix.2.1 / max 1 m.kw) (ix.2.1 % max 1 m.kw)
      let f := a.2.2.1.foreRead p (a.2.2.1.rowWords p xr (xr.padY pos.1) (xr.padX pos.2) (stepChunk m ix.2.2 ix.1) ++
        a.2.2.1.rowWords p gr (gr.padY q.1) (gr.padX q.2) ix.2.2) e true
      let x := f.1.gradPos p d m g gcb q.1 q.2 a.1
      (x.1, a.2.1.add x.2, f)) (SMap.get [] (s.core p).acc 3, Cnt.none, s, false)

/-- GRADIENT_OPERATION (R345): descriptor `i` of the binding on a physical core, on thread 3. The positions of
G_PRN's logical extent come in raster order, which takes the stacked samples in order. -/
def State.gradient (s : State) (p i : Nat) (w : CoreIn) : State :=
  match s.logical p, s.drzBind, s.drz.steps.head?, s.gradDescs[i]? with
  | some l, some b, some st, some g =>
    if !s.mayIssue p 3 s.cal.line ∨ s.threadClause p 3 ≠ s.sched.drzClause ∨ st.ended.contains l ∨ b.ngd ≤ i then s
    else if !s.grantsThread p 3 w.rivals then s.refused1 p 3
    else
      let s0 := ((s.awaitUnit p 3 .array).rotate p 3).setThreadState p 3 1
      let d := s0.sched.layer l g.layer
      let m := s0.sched.mapRec l d
      let gcb := SMap.get default (s0.core p).cbs s0.drzRec.gSlot
      let gr := s0.prn p g.gPrn
      let clash := (besideConflict 0 (fun a => inTensor (s0.prn p g.xPrn) a || inTensor gr a) w.beside).isSome
      let r := if clash then ([], Cnt.none, s0, false) else s0.gradRun p d m g gcb w.ecc
      let busy := [d.inCb, s0.drzRec.gSlot].any fun x => (s0.core p).cbBusy.any fun y => y.1 == x && decide (s0.now < y.2)
      let conf := besideConflict 0 (fun a => inTensor (s0.prn p g.xPrn) a || inTensor gr a) w.beside
      let codes := stepFaults false false busy w.store conf.isSome r.2.2.2
      let tile := d.tileFirst + g.j
      let gs := s0.prn p b.gsumPrn
      let cyc := gr.lh * gr.lw + 64
      if codes ≠ [] then (r.2.2.1.noteConflict p conf (besideOf w.beside)).coreFault p 3 d.layer s.cal.line codes w.owed
      else
      let s1 := (((r.2.2.1.countArith p r.2.1).occupy p 3 .array cyc).inPipe p 3 cyc).writeMem gs.place (placeUnit gs.place p) (gs.base + 16384 * (64 * tile + l))
        ((List.range 4096).flatMap fun k => toLe 4 (unsext 32 (r.1.getD k 0)))
      (s1.onCore p fun c => { c with
        acc := SMap.set [] c.acc 3 [], utilFrame := c.utilFrame + cyc }).onStep st.num fun t =>
          { t with grads := SMap.set [] t.grads l (i :: SMap.get [] t.grads l) }
  | _, _, _, _ => s

/-- DRIZZLE_CLAUSE_END (R343): the clause ends in a core once its partial gradients are written. `sems` are the
semaphores of the clause's links (log entry 10). -/
def State.drzClauseEnd (s : State) (p : Nat) (sems : List Nat) : State :=
  match s.logical p, s.drzBind, s.drz.steps.head? with
  | some l, some b, some st =>
    let done := SMap.get [] st.grads l
    if s.threadClause p 3 ≠ s.sched.drzClause ∨ !s.drained p 3 [] ∨ st.ended.contains l ∨
      !((List.range b.ngd).all fun i => done.contains i) then s
    else (s.clauseDrained p 3 sems []).onStep st.num fun t => { t with ended := l :: t.ended }
  | _, _, _ => s

/-! ### Phase 4 (R347, R348) -/

/-- The descriptor that fills a tile: its exponent and its layer's mask. -/
def State.tileGrad (s : State) (i : Nat) : Option (Int × MapRec) :=
  (s.gradDescs.find? fun g => (s.sched.layer 0 g.layer).tileFirst + g.j == i).map fun g =>
    (g.qg, s.sched.mapRec 0 (s.sched.layer 0 g.layer))

/-- The partial of core l for element k of a tile (R345, R347). -/
def State.partialAt (s : State) (b : DrzBind) (tile l k : Nat) : Int :=
  let r := s.prn (s.phys 0) b.gsumPrn
  sext 32 (leNat (s.readMem r.place (placeUnit r.place (s.phys 0)) (r.base + 16384 * (64 * tile + l) + 4 * k) 4))

/-- The four codebooks of the record (R331). -/
def State.drzCbs (s : State) : List Codebook :=
  let a := s.mset.base + s.drzRec.cbOff
  let one (o n : Nat) : Codebook := Codebook.parse (readB s.dram (a + o) n)
  [one 0 40, one 40 40, one 80 40, one 120 520]

/-- The update of one tile: its bytes, with GRAD_SAT and MASTER_SAT (R347, R348) and the events of R134. -/
def State.updateTile (s : State) (b : DrzBind) (st : DrzStep) (i : Nat) : List Byte × Nat × Nat × Cnt :=
  let old := readB s.dram (s.tileOff s.drzSet.cur i) 12288
  match s.tileGrad i with
  | none => (old, 0, 0, Cnt.none)
  | some (qg, m) =>
    let lv := clog2 s.nCores
    let rows := (List.range 64).map fun r =>
      let sums := (List.range 64).map fun k => treeSum lv ((List.range s.nCores).map fun l => s.partialAt b i l (64 * r + k))
      let idx (k : Nat) : Nat := 4096 * i + 64 * r + k
      let u := updateRow s.drzRec s.drzCbs qg (cellActive m r)
        (fun k => squall s.drz.seed 0x05 (65536 * st.num + idx k) % 2 ^ 24) (fun k => Config.freeValue (s.free + idx k))
        old r (sums.map (·.1))
      (u, (sums.map (·.2)).foldl (· + ·) 0)
    (tileBytes (rows.map (·.1)), (rows.map fun q => q.2 + q.1.grad).foldl (· + ·) 0,
      (rows.map fun q => q.1.sat).foldl (· + ·) 0, Cnt.all (rows.map fun q => q.1.cnt))

/-- A step of a frame before c is queued or in progress. -/
def State.coveredLeft (s : State) (c : Nat) : Bool :=
  (s.drz.queue.any fun q => decide (frameDiff q.frame c < 0)) || (s.drz.steps.any fun t => decide (frameDiff t.q.frame c < 0))

/-- The commit next due covers its last step (R351): the live codes of the current copy are what it will hold. -/
def State.coverCheck (s : State) : State :=
  let c := s.drz.nextDue
  if !s.drz.on ∨ s.drz.commit.isSome ∨ s.coveredLeft c ∨ frameDiff s.cal.frame (c + 2 ^ 32 - 1) < 0 ∨ s.drzT = 0 then s
  else
    let live := (List.range s.drzT).map fun i => s.liveCodes s.drzSet.cur i
    s.onDrz fun d => { d with commit := some { due := c, live := live } }

/-- DRIZZLE_UPDATE_COMPLETE (R348, R333): the reduction and the update end T × (64 N + 256) fabric cycles and the
DRAM latency after phase 3, and the new copy becomes current. DESIGN CHOICE (log entry 88): the rows that the unit reads and quantises
and its roundings count their events of R134 in logical core 0. -/
def State.drzUpdate (s : State) (latency : Nat) : State :=
  match s.drzBind, s.drz.steps with
  | some b, st :: later =>
    if st.ended.length < s.nCores then s
    else
      let s0 := s.waitUntil (s.now + s.drzT * (64 * s.nCores + 256) + latency)
      let c := 1 - s0.drzSet.cur
      let us := (List.range s0.drzT).map fun i => s0.updateTile b st i
      let s1 := s0.writeMem 3 0 (s0.tileOff c 0) (us.flatMap (·.1))
      let s2 := ((s1.incF F.DRZ_SAT_GRAD_SAT ((us.map fun u => u.2.1).foldl (· + ·) 0)).incF F.DRZ_SAT_MASTER_SAT
        ((us.map fun u => u.2.2.1).foldl (· + ·) 0)).setF F.DRZ_STEP_CYC_STEP_CYC (s1.now - st.startAt)
      let s3 : State := { s2.countArith (s2.phys 0) (Cnt.all (us.map fun u => u.2.2.2)) with free := s2.free + 65536 }
      (((s3.onDrzSet fun z => { z with cur := c }).onDrz fun d => { d with steps := later }).drzTakeUp).coverCheck
  | _, _ => s

/-! ### Commits (R351) -/

/-- COMMIT_PAGE_GENERATION: the pages go into the buffer that holds no version in use and are multicast to every
core. `latency`: DRAM latency of the pages. -/
def State.commitPages (s : State) (latency : Nat) : State :=
  match s.drz.commit with
  | none => s
  | some c =>
    let k := 1 - s.drzSet.buf
    if c.buf.isSome ∨ s.drz.reset ∨ s.drz.switched ∨ (s.drz.steps.any fun t => t.q.buf == k && t.q.version != s.drzSet.version) then s
    else
      (s.writePages k c.live).onDrz fun d =>
        { d with commit := some { c with buf := some k, done := s.now + latency + 40 + 4 * s.drzT, tainted := s.drzSet.taint } }

/-- The cycle by which the weight-file writes under way have completed in every core that listens (R147). -/
def State.writesEnd (s : State) : Nat :=
  ((List.range 72).filter fun p => s.listens p).foldl (fun m p => max m (freeFrom (s.core p) .weightPath)) 0

/-- COMMIT_READY: the pages have reached every core, and its writes, behind those that its weight-file write path has in hand (R164),
have completed (R351). -/
def State.commitReady (s : State) : State :=
  match s.drz.commit with
  | none => s
  | some c =>
    if c.buf.isNone ∨ c.ready then s
    else
      let s1 := (s.waitUntil c.done).writeInactive c.live
      (s1.waitUntil s1.writesEnd).onDrz fun d => { d with commit := some { c with ready := true } }

/-! ### Abandonment and control (R353, R354) -/

/-- Steps in progress are abandoned: thread 3 drops the clause in every core, and SAMPLE_SEM returns to INIT. -/
def State.dropSteps (s : State) : State :=
  if s.drz.steps = [] then s
  else
    let sem := (s.drzBind.map (·.sampleSem)).getD 0
    let s1 := s.each 72 fun s p =>
      if (s.threadClause p 3).isSome ∧ s.threadClause p 3 = s.sched.drzClause then
        ((((s.onThread p 3 fun h => { h with clause := none, wait := .none }).setThreadState p 3 0).frameThreads p).initSem p sem).onCore p
          fun c => { c with items := SMap.set [] c.items sem [], debts := SMap.set [] c.debts sem []
                            acc := SMap.set [] c.acc 3 [], corr := SMap.set [] c.corr 3 [] }
      else s
    s1.onDrz fun d => { d with steps := [] }

/-- A step in progress is abandoned (R354): ABANDONED and TAINT. -/
def State.abandonSteps (s : State) : State :=
  if s.drz.steps = [] then s else ((s.dropSteps).incF F.DRZ_TD_ABANDONED s.drz.steps.length).drzTaint

/-- DRIZZLE_RESET (R353): a write of 1 to RESET. The states and pages are written at once; the rest waits for the
boundary. -/
def State.drzReset (s : State) : State :=
  let s1 := if s.drzT = 0 then s else (s.dropSteps).drzInit
  s1.onDrz fun d => { d with reset := true, resetEnd := s1.writesEnd, commit := none }

/-- The first boundary at which a commit falls due after boundary b (R351), counted on from boundary `due`. -/
def dueAfter (b due every : Nat) : Nat :=
  let d := frameDiff b due
  if d < 0 then due else (due + every * (d.toNat / max 1 every + 1)) % 2 ^ 32

/-- The window of a model-set switch has opened (R354), the weight files now taking the new set: a commit that is due at the coming
boundary or before and is not yet live is discarded, and the new set's current version is written into the inactive bank. -/
def State.drzSwitch (s : State) : State :=
  let ce := (s.drzBind.map (·.commitEvery)).getD 1
  let s1 := s.onDrz fun d => { d with
    commit := none, nextDue := if d.on then dueAfter ((s.cal.frame + 1) % 2 ^ 32) d.nextDue ce else d.nextDue }
  let m := s1.mset
  if m.t = 0 then s1
  else
    let live := (List.range m.t).map fun i =>
      pageCodes (readB s1.dram (s1.pageBufOff s1.drzSet.buf + 2048 * i) 2048)
    (s1.writeInactive live).onDrz fun d => { d with switched := true }

/-- Units 2 and 3 of every core take the binding's configuration (R350, R138). DESIGN CHOICE (log entry 81): they run, EN being 1. -/
def State.drzHist (s : State) : State :=
  match s.drzBind with
  | none => s
  | some b => s.each 72 fun s p => s.each 2 fun s u =>
      let c := b.hist.getD u (0, 0, 0)
      let cfg := c.1 * 16
      s.setFs [(F.CORE_HIST_CFG_EN p (u + 2), 1), (F.CORE_HIST_CFG_SNAP p (u + 2), 1),
        (F.CORE_HIST_CFG_SRC p (u + 2), bits cfg 4 4), (F.CORE_HIST_CFG_LAYER p (u + 2), bits cfg 8 8),
        (F.CORE_HIST_CFG_CHAN p (u + 2), bits cfg 16 6), (F.CORE_HIST_CFG_ALLCH p (u + 2), bits cfg 22 1),
        (F.CORE_HIST_LO_LO p (u + 2), c.2.2), (F.CORE_HIST_SHIFT_SHIFT p (u + 2), c.2.1)]

/-- HISTOGRAM_SUM (R350): the read banks of units 2 and 3 over the logical cores, into HIST_PRN. -/
def State.histSum (s : State) : State :=
  match s.drzBind with
  | none => s
  | some b =>
    if !s.drz.on then s
    else
      let sum (i : Nat) : Nat := (List.range s.nCores).foldl (fun a l =>
        satAdd 32 a (SMap.get 0 (s.core (s.phys l)).histRead (128 + i))) 0
      s.putPrn (s.phys 0) b.histPrn ((List.range 128).flatMap fun i => toLe 4 (sum i))

/-! ### The boundary that begins output frame n -/

/-- A RESET takes effect (R353): counters, seed, version 0; its pages become live. Without an adapter it takes the seed and sets
E to 0. -/
def State.resetLive (s : State) (n : Nat) : State :=
  let ce := (s.drzBind.map (·.commitEvery)).getD 1
  if s.drz.reset ∧ s.drz.resetEnd ≤ s.now then
    (if s.drzT = 0 then s else (s.flipBank).onDrzSet fun _ => { adapt := s.adaptDigest 0 }).onDrz fun d =>
      { d with reset := false, commit := none, e := 0, log := [],
               nextDue := (if d.on ∧ 0 ≤ frameDiff n d.nextDue then (d.nextDue + ce) % 2 ^ 32 else d.nextDue),
               seed := s.getF F.DRZ_SEED_LO_SEED_LO + 2 ^ 32 * s.getF F.DRZ_SEED_HI_SEED_HI }
  else s

/-- DRIZZLE_ENABLE and DRIZZLE_DISABLE take effect (R353): N0, or the queue emptied. DESIGN CHOICE (log entry 81): histogram
units 2 and 3 keep the binding's configuration when Drizzle is disabled, and the host may write it then. -/
def State.drzEnable (s : State) (n : Nat) : State :=
  let en := s.getF F.DRZ_CTRL_EN == 1 && s.drzT != 0
  if en ∧ !s.drz.on then
    (s.onDrz fun d => { d with on := true, nextDue := (n + ((s.drzBind.map (·.commitEvery)).getD 1)) % 2 ^ 32 }).drzHist
  else if !en ∧ s.drz.on then s.onDrz fun d => { d with on := false, queue := [], commit := none }
  else s

/-- COMMIT_LIVE (R351). -/
def State.commitLive (s : State) (n : Nat) : State :=
  match s.drz.commit with
  | none => s
  | some c =>
    if !s.drz.on ∨ !c.ready ∨ frameDiff n c.due < 0 then s
    else
      let late := decide (0 < frameDiff n c.due)
      let ce := (s.drzBind.map (·.commitEvery)).getD 1
      let s1 := (((s.flipBank).onDrzSet fun z => { z with
        version := (z.version + 1) % 2 ^ 32, buf := c.buf.getD 0, tainted := c.tainted
        adapt := s.adaptDigest (c.buf.getD 0) }).incF F.DRZ_COMMITS_COMMITS 1).onDrz
          fun d => { d with commit := none, nextDue := (d.nextDue + ce) % 2 ^ 32 }
      if late then (s1.incF F.DRZ_TD_LATE_COMMITS 1).drzTaint else s1

/-- STEP_QUEUE_FILL (R349): steps of frame n − 2 that have not begun are dropped; QUOTA steps of frame n join. -/
def State.queueFill (s : State) (n : Nat) : State :=
  let old (q : DrzQ) : Bool := decide (frameDiff q.frame n ≤ -2)
  let k := (s.drz.queue.filter old).length
  let s1 := s.onDrz fun d => { d with queue := d.queue.filter fun q => !old q }
  let s2 := if k = 0 then s1 else (s1.incF F.DRZ_TD_DROPPED k).drzTaint
  if s.drz.on then
    let x := s2.ctx
    let q : DrzQ := { frame := n, i := x.i, shown := x.shown, td := x.hold || x.drop != 0 || x.overrun != 0
                      version := s2.drzSet.version, buf := s2.drzSet.buf }
    s2.onDrz fun d => { d with queue := d.queue ++ List.replicate s.drzQuota q }
  else s2

/-- Everything of Drizzle at the boundary that begins output frame n. `switched`: MSET_CUR has changed (R354). A line of the frame
that has read the adapter has fixed whether its bank changes (DESIGN CHOICE, log entry 63). -/
def State.drzBoundary (s : State) (n : Nat) (switched : Bool) : State :=
  let s0 := if switched ∧ s.drz.switched then (s.flipBank).onDrz fun d => { d with switched := false } else s
  let s1 := ((match s0.drz.ahead with
    | none => ((s0.resetLive n).drzEnable n).commitLive n
    | some true => ((s0.resetLive n).commitLive n).drzEnable n
    | some false => s0.drzEnable n).onDrz fun d => { d with ahead := none }).queueFill n |>.histSum
  let s2 := if s1.drzT ≠ 0 ∧ s1.drzSet.tainted then s1.tdAdd n fun t => { t with drz := t.drz + 1 } else s1
  s2.coverCheck

/-! ### Registers (R356) -/

/-- STATE of DRZ_STATUS: 0 before a model set is in use (R21); then 3 without an adapter, 0 disabled, 2 while the first step waits for
crops, else 1. -/
def State.drzState (s : State) : Nat :=
  if s.boot.done = [] then 0
  else if s.drzT = 0 then 3
  else if !s.drz.on then 0
  else match s.drz.queue.head? with
    | some q => if s.drz.steps = [] ∧ (s.stepE q).isNone then 2 else 1
    | none => 1

/-! ### Rewrites of weight-file entries (R149) -/

/-- Where a rewrite takes an entry's page from (R149): the model set in DRAM, or the last committed adapter. -/
def State.pageOf (s : State) (e : Nat) : Nat :=
  let m := s.mset
  if m.classOf e = .adapter then s.pageBufOff s.drzSet.buf + 2048 * ((e - m.a) % max 1 m.t) else m.pageOff.getD e 0

/-- WEIGHT_FILE_REWRITE: in vertical blanking with no line in flight the oldest failing entry of a core is rewritten
from the model set in DRAM, or an adapter entry from the last committed adapter. An entry whose page reads uncorrectable waits until
the host has rewritten the page (R302; DESIGN CHOICE, log entry 89). -/
def State.weightRewrite (s : State) (p : Nat) : State :=
  match (s.core p).rewrites.find? fun e => !s.memBad 3 0 (s.pageOf e) 2048 with
  | none => s
  | some e =>
    if !s.inBlank ∨ s.inFlight p then s
    else
      let off := s.pageOf e
      (s.incF (F.CORE_WFILE_WF_SCRUBS p) 1).onCore p fun c => { c with
        rewrites := c.rewrites.erase e, tiles := SMap.set [] c.tiles e (pageCodes (readB s.dram off 2048))
        parity := c.parity.filter fun x => x != e, rewritten := SMap.put c.rewritten e s.cal.frame }

end Sys2Proof.Machine
end

