-- ==== Sys2Proof/Machine/Flags.lean ====
section
/-! DEFINITION. Flags and words that the registers show of other state: the summary status word (R556, R557), the arbiters'
state (R435), the histograms' bins (R136), Drizzle's registers (R356) and the raster's and the sample time (R57, R368). -/
namespace Sys2Proof.Machine

/-! ### Registers that show other state (R555 to R557, R356, R435) -/

/-- A core whose ROLE is 2 or 3 shows nothing but CORE_IDENT (R31). -/
def State.coreHidden (s : State) (p : Nat) : Bool := decide (2 ≤ s.role p)

/-- Engines whose HALTS bit 11 of DEV_STATUS looks at (R557). -/
def State.statusEngines (s : State) : List Nat :=
  ((List.range 72).flatMap fun p => if s.coreHidden p then [] else (List.range 8).map (coreEng p)) ++
  (List.range 8).flatMap fun b => (List.range 2).map (bandEng b)

/-- DEV_STATUS (R556, R557). -/
def State.devStatus (s : State) : Nat :=
  let on (f : Fld) : Bool := s.getF f != 0
  let dol := s.pstate == 2
  let cores := (List.range 72).filter fun p => !s.coreHidden p
  let ports := geoPorts s.inp.geo
  let flags : List Bool := [on F.DEV_BOOT_COMPLETE, on F.DEV_BOOT_FAILED, bit (s.getF F.PWR_STATE_STATE) 0, bit (s.getF F.PWR_STATE_STATE) 1,
    !dol && !s.zeroSized, ports.any fun n => on (F.INP_PORT_STATUS_ENCRYPTED n), s.getF F.PNL_STATUS_STATE == 2,
    s.getF F.CAL_STATUS_SYNC_STATE == 1, !dol && on F.CAL_STATUS_REALTIME, !dol && on F.CAL_FB_LAST_FB_LAST, on F.AUD_TD_LAST_TD,
    (cores.any fun p => on (F.CORE_FAULT_COUNT p)) || (s.statusEngines.any fun a => on (F.ENG_CNT_HALTS a)),
    (cores.any fun p => on (F.CORE_SPAD_ECC_UNCORR p)) || ((List.range 8).any fun b => on (F.BAND_LS_ECC_UNCORR b)) || on F.DRM_ECC_UNCORR,
    on F.PWR_SUPPLY_V12_WARN || on F.PWR_SUPPLY_VCORE_WARN || on F.PWR_SUPPLY_HOLDOFF, on F.PWR_THERM_WARN,
    ((List.range 72).any fun p => on (F.PWR_WX_STATE_EXHAUSTED p) || on (F.PWR_WX_STATE_STOPPED p)) ||
      ((List.range 8).any fun b => on (F.BAND_SLOTMAP_IDLE_RETIRED b)),
    on F.DEV_LEDGER_FULL || on F.DEV_LEDGER_CNT_LOST, on F.TPL_SESSION_OPEN, s.drzSet.taint,
    (List.range 16).any fun g => on (F.CMP_GR_STAT_FORCED g),
    s.getF F.AUD_REPLAY_STATUS_STATE == 1 || s.getF F.AUD_REPLAY_STATUS_STATE == 2, on F.AUD_REPLAY_STATUS_DIVERGED,
    on F.DEV_ACCESS_RO_WRITES || on F.DEV_ACCESS_MISALIGNED, on F.CAL_LOAD_FAULT_CHECK]
  flags.foldr (fun b n => b2n b + 2 * n) 0

/-- DEV_STATUS as a read finds it: its sources as they stood at the start of the cycle (R557). -/
def State.statusNow (s : State) : Nat := if s.stat.1 = s.now + 1 then s.stat.2 else s.devStatus

/-- A command has been carried out, `before` being the state before it: the status word of the cycle's start is kept (R557). Where
time has passed in the command it is the word after that time. -/
def State.noteStat (before s : State) : State :=
  if s.stat.1 = s.now + 1 then s else { s with stat := (s.now + 1, (before.advance (s.now - 1 - before.now)).devStatus) }

/-- ARB_STATE of a requester (R429, R435): MASKED and PARKED. Until the boot sequence has done a stage it holds its reset value
(R21). -/
def State.arbWord (s : State) (port q : Nat) : Nat :=
  if s.boot.done = [] then 0 else b2n (s.masked port q) + 2 * b2n ((s.arb port).parked == some q)

/-- The ARB_STATE register at an offset of a BAND or DRM block: port and requester. -/
def arbAt (blk : Blk) (o : Nat) : Option (Nat × Nat) :=
  let pick (port q : Nat) : Option (Nat × Nat) := if q < portReqs port then some (port, q) else none
  match blk with
  | .band b => if 0x800 ≤ o ∧ o < 0xA00 ∧ o % 16 = 12 then pick b ((o - 0x800) / 16) else none
  | .drm =>
    if 0x800 ≤ o ∧ o < 0x900 ∧ o % 16 = 12 then pick 8 ((o - 0x800) / 16)
    else if 0x900 ≤ o ∧ o < 0xA00 ∧ o % 16 = 12 then pick 9 ((o - 0x900) / 16) else none
  | _ => none

/-- A bin of a histogram unit (R136, R137): the read bank while SNAP is in use, else the live counts. -/
def State.histBin (s : State) (p i : Nat) : Nat :=
  if ((s.core p).histCfg.getD (i / 64) {}).snap then SMap.get 0 (s.core p).histRead i else SMap.get 0 (s.core p).histLive i

/-- The word of a register that shows other state than its own (R57, R356, R368, R556). -/
def State.shownWord (s : State) (blk : Blk) (o : Nat) : Option Nat :=
  let d := s.drzSet
  let inUse := SMap.get ({} : DrzSet) s.drz.sets (s.getF F.CAL_MSET_MSET_CUR)
  match blk with
  | .dev => if o = 0x4 then some s.statusNow else none
  | .cal => if o = 0 then some (s.phase + 65536 * s.cal.line) else if o = 4 then some s.cal.frame else none
  | .sns => if o = 0x20 then some (s.now % 2 ^ 32) else if o = 0x24 then some (s.now / 2 ^ 32 % 2 ^ 32) else none
  | .drz =>
    if o = 0xC then some (s.drzState + 4 * b2n inUse.taint + 8 * b2n ((s.drz.commit.map (·.ready)).getD false) +
      16 * (s.drz.queue.length + s.drz.steps.length))
    else if o = 0x10 then some (d.sc / 4096 % 2 ^ 32)
    else if o = 0x14 then some (d.sc % 2 ^ 32)
    else if o = 0x18 then some (d.sc / 2 ^ 32 % 4096)
    else if o = 0x1C then some (d.version % 2 ^ 32)
    else if o = 0x20 then some (d.step % 2 ^ 32)
    else if o = 0x24 then some (s.drz.e % 2 ^ 32) else none
  | .core p => if 0x400 ≤ o ∧ o < 0x800 then some (s.histBin p ((o - 0x400) / 4)) else none
  | _ => (arbAt blk o).map fun q => s.arbWord q.1 q.2

end Sys2Proof.Machine
end

