-- ==== Sys2Proof/Machine/Operands.lean ====
section
/-! DEFINITION. The operands of the commands: what each names, and which values name something that exists (R22, R24, R72,
R145, R159, R216, R231, R233, R242, R278, R411, R424). -/
namespace Sys2Proof

/-- A physical core (R24). -/
def isCore (p : Nat) : Bool := decide (p < 72)
/-- A logical core (R25). -/
def isLogical (l : Nat) : Bool := decide (l < 64)
/-- A band (R22). -/
def isBand (b : Nat) : Bool := decide (b < 8)
/-- A hardware thread (R159). -/
def isThread (t : Nat) : Bool := decide (t < 4)
/-- A DisplayPort port (R72). -/
def isPort (n : Nat) : Bool := decide (n < 2)
/-- A pronoun (R216). -/
def isPrn (n : Nat) : Bool := decide (n < 128)
/-- A weight-file entry (R145). -/
def isEntry (e : Nat) : Bool := decide (e < 64)
/-- A semaphore (R242). -/
def isSem (i : Nat) : Bool := decide (i < 64)
/-- A list of a list table (R232). -/
def isList (i : Nat) : Bool := decide (i < 64)
/-- A layer, as the program numbers its layers (R136, R151). -/
def isLayer (i : Nat) : Bool := decide (i < 256)
/-- A DRAM channel (R411). -/
def isChan (c : Nat) : Bool := decide (c < 64)
/-- A DRAM port: the eight bands', I/O, service (R424). -/
def isDramPort (p : Nat) : Bool := decide (p < 10)
/-- A monitored supply: the 12 V input, the core rail (R514). -/
def isSupply (n : Nat) : Bool := decide (n < 2)
/-- A level in mV or mA as its register holds it (R532). -/
def isMilli (v : Nat) : Bool := decide (v < 65536)
/-- A diode's reading in 1/16 °C (R532). -/
def isTemp (t : Int) : Bool := decide (-32768 ≤ t) && decide (t < 32768)

/-- A stream engine (R231). -/
def EngId.ok : EngId → Bool
  | .core p e => isCore p && decide (e < 8)
  | .band b e => isBand b && decide (e < 2)

/-- What an abandoning core owes names semaphores, cores and bands that exist. -/
def Owed.ok : Owed → Bool
  | .produced dst sem _ => isLogical dst && isSem sem
  | .consumed full src empty => isSem full && isLogical src && isSem empty
  | .release band prn _ => isBand band && isPrn prn

/-- A core's share of what abandonments owe. -/
def owedOk (o : Nat × List Owed) : Bool := isCore o.1 && o.2.all Owed.ok

/-- What happens at an operation of a core from outside its program: `rivals` are threads (R160) or the requesters of a line store
(R222). -/
def coreInOk (w : CoreIn) : Bool :=
  w.parity.all isEntry && (w.rivals.all fun r => decide (r < 12)) && w.owed.all Owed.ok && isLayer w.layer &&
  (w.beside.all fun b => decide (b.1 < 0x80000) && decide (b.2.2 < 0x80000)) && w.bandOwed.all fun o => o.all Owed.ok

/-- An array step of the static schedule. -/
def StepOp.ok (o : StepOp) : Bool := isLayer o.layer && o.beside.all fun a => decide (a.2 < 0x80000)

/-- A signal that is issued comes from a thread and names a semaphore of a logical core. -/
def signalOk : SigIn → Bool
  | .issue p t _ dst sem => isCore p && isThread t && isLogical dst && isSem sem
  | .arrive _ => true

/-- An SDP's fields in the ranges of INP_PORT_STATUS (R75, R82). -/
def sdpOk : Sdp → Bool
  | .vsc enc _ bpc => decide (enc < 4) && decide (bpc < 4)
  | _ => true

/-- A transaction on AUX: addresses of 20 bits, at most 16 bytes (DisplayPort 2.1). -/
def AuxReq.ok : AuxReq → Bool
  | .nativeRead a n => decide (a < 0x100000) && decide (n ≤ 16)
  | .nativeWrite a d => decide (a < 0x100000) && decide (d.length ≤ 16)
  | .i2cWrite d => decide (d.length ≤ 16)
  | .i2cRead n => decide (n ≤ 16)

/-- Requesters of a port (R424). -/
def portSize (port : Nat) : Nat := if port < 8 then 29 else if port = 8 then 10 else 7

/-- A presented access lies in one 64-byte block of the window (R413) and comes from a requester of the port. -/
def askOk (port : Nat) (a : PortAsk) : Bool :=
  decide (a.q < portSize port) && decide (a.cls < 3) && decide (1 ≤ a.len) && decide (a.off % 64 + a.len ≤ 64) && decide (a.off < 0x200000000)

/-- A measurement of a core (R521): SLACK is an int16. -/
def measOk (m : Meas) : Bool := isCore m.core && decide (-32768 ≤ m.slack) && decide (m.slack < 32768)

/-- A row of a core's scratchpad or of a band's line store, as BIST names it. -/
def rowOk (units : Nat) (r : Nat × Nat) : Bool := decide (r.1 < units)

/-- A boot stage's outcome names units that exist. -/
def stageOk : StageIn → Bool
  | .rom f => f.spad.all (rowOk 72) && f.ls.all (rowOk 8) && f.dram.all fun r => decide (r < 0x400000)
  | .dram bad => bad.all fun r => decide (r < 0x400000)
  | .logic cs a b => cs.all isCore && a.all (rowOk 72) && b.all (rowOk 8)
  | _ => true

end Sys2Proof
end

