-- ==== Sys2Proof/WellFormed.lean ====
section
/-! DEFINITION. Which commands are well formed: every operand names something that the device has. A command that is not
leaves the state as it is. -/
namespace Sys2Proof

/-- The operands of a command name units, entries and values that exist. -/
def Instr.wf : Instr → Bool
  | .lineStart => true
  | .frameBoundary => true
  | .syncInEdge => true
  | .startDescriptorList _ => true
  | .pendingListStart g => g.ok
  | .startLineClause _ owed => owed.all owedOk
  | .fallbackSegmentComplete _ _ l => isLogical l.unit
  | .lineDeadline _ owed => owed.all owedOk
  | .openFrameClauseWindow _ => true
  | .closeFrameClauseWindow _ => true
  | .graphicsFetch _ => true
  | .composeLine _ _ => true
  | .captureLine _ => true
  | .captureWrite => true
  | .openModelSetWindow _ bad => bad.all isEntry
  | .portCfgWrite n _ => isPort n
  | .hpdPulseEnd n => isPort n
  | .dpLinkTraining n rate lanes _ => isPort n && decide (rate < 8) && decide (lanes < 3)
  | .ppsReceived n _ => isPort n
  | .sdpReceived n sdp => isPort n && sdpOk sdp
  | .hdcpAuthentication n _ => isPort n
  | .signalLost n _ => isPort n
  | .inputFrameStart n _ => isPort n
  | .inputLine n _ _ _ => isPort n
  | .stage10LineWrite => true
  | .blankPathFrame => true
  | .issueStep p t o w => isCore p && isThread t && o.ok && coreInOk w
  | .correctionStallEnd p => isCore p
  | .tileLoad p t prn e w => isCore p && isThread t && isPrn prn && isEntry e && coreInOk w
  | .tileLoadComplete p e => isCore p && isEntry e
  | .weightFileRewrite p => isCore p
  | .prefixLayer p t layer _ _ w => isCore p && isThread t && isLayer layer && coreInOk w
  | .suffixLayer p t layer _ _ w => isCore p && isThread t && isLayer layer && coreInOk w
  | .suffixRowWrite p => isCore p
  | .binEffChange p => isCore p
  | .clauseDrained p t d => isCore p && isThread t && d.sems.all isSem && d.lists.all isList
  | .semaphoreWait p t _ i => isCore p && isThread t && isSem i
  | .semaphoreSignalArrival g => signalOk g
  | .awaitTile p t _ e => isCore p && isThread t && decide (e < 8)
  | .consumeTile p t _ e => isCore p && isThread t && decide (e < 8)
  | .threadStreamStart p t _ list => isCore p && isThread t && decide (list < 64)
  | .backgroundAccess p a n _ _ _ => isCore p && decide (a + n ≤ 0x80000)
  | .scratchpadMapOut p => isCore p.unit
  | .descriptorBurstRead g w => g.ok && coreInOk w
  | .transferIssue g => g.ok
  | .transferComplete g _ w => g.ok && coreInOk w
  | .lineStoreSlotWrite p t _ n _ => isCore p && isThread t && isPrn n
  | .haltRetryTimer g => g.ok
  | .engineRetry g => g.ok
  | .engineAbort g => g.ok
  | .multicastAccepted => true
  | .remoteTransferArrival _ => true
  | .barrierArrive p t _ g => isCore p && isThread t && decide (g < 8)
  | .barrierComplete g => decide (g < 8)
  | .snapshotArm _ _ _ => true
  | .snapshotCancel => true
  | .snapshotCopyStart => true
  | .snapshotCopyComplete => true
  | .handoverStart b => isBand b
  | .deviceReset _ => true
  | .dramTrainingComplete _ => true
  | .modeRequest _ => true
  | .scheduleChange => true
  | .warpRowWrite b => isBand b
  | .boxUnitRun _ => true
  | .boxUnitComplete => true
  | .cropGrab => true
  | .drizzleStepStart => true
  | .augmentSample l => isLogical l
  | .gradientOperation p _ w => isCore p && coreInOk w
  | .drizzleClauseEnd p sems => isCore p && sems.all isSem
  | .drizzleUpdateComplete _ => true
  | .commitPageGeneration _ => true
  | .commitReady => true
  | .drizzleEnable => true
  | .drizzleDisable => true
  | .drizzleReset => true
  | .histogramClear p u => isCore p && decide (u < 4)
  | .grainTemplatesDone => true
  | .frostLine _ _ => true
  | .i3cAddressAssignment => true
  | .sensorRead i _ => decide (i < 8)
  | .internalSample temps v12 i12 vcore => temps.length == 10 && temps.all isTemp && isMilli v12 && isMilli i12 && isMilli vcore
  | .dataStripeSend _ => true
  | .trainingStart => true
  | .panelLinkRunning => true
  | .trainingTimeout => true
  | .panelRdyLow => true
  | .panelRetrain => true
  | .panelEnSet => true
  | .panelEnClear => true
  | .safeSequenceEnd => true
  | .portGrant port asks => isDramPort port && asks.all (askOk port)
  | .dramAccess ch _ => isChan ch
  | .refresh ch => isChan ch
  | .patrolScrubRead ch _ => isChan ch
  | .scrubWriteback ch => isChan ch
  | .dramRowMapOut => true
  | .frameRecordWrite => true
  | .logEntryWrite => true
  | .replayGo => true
  | .replayWriteApply => true
  | .replayEnd => true
  | .phyLinkUp _ => true
  | .ethernetFrameRx _ _ => true
  | .ident => true
  | .readReg => true
  | .writeReg => true
  | .readMem => true
  | .writeMem => true
  | .loadPage => true
  | .status => true
  | .records => true
  | .attest => true
  | .challenge => true
  | .openSession => true
  | .closeSession => true
  | .power => true
  | .resetDevice => true
  | .challengeExpiry => true
  | .lockoutEnd => true
  | .sessionIdleTimeout => true
  | .registerWrite _ _ => true
  | .pwrGoodRise => true
  | .bootStageComplete i => stageOk i
  | .bootComplete => true
  | .ledgerAppend => true
  | .bandPowerUpDone => true
  | .doldrumsExitComplete => true
  | .supplyWarning supply v12 vcore => isSupply supply && isMilli v12 && isMilli vcore
  | .supplyRecovery v12 vcore => isMilli v12 && isMilli vcore
  | .holdoffExpiry => true
  | .supplyReset supply v12 vcore => isSupply supply && isMilli v12 && isMilli vcore
  | .weatheringMeasurement ms => ms.all measOk
  | .restoreRequest p => isCore p.toNat
  | .removeNFall => true
  | .inputSwitchClose => true
  | .inputSwitchOpen => true
  | .phyLinkDown _ => true
  | .modelSetWindowClose => true
  | .doldrumsEntryComplete => true
  | .auxTransaction n r => isPort n && r.ok
  | .lineStoreMapOut b => isBand b.unit

end Sys2Proof
end

