-- ==== Sys2Proof/Machine/Act.lean ====
section
/-! DEFINITION. The outcome of a command (log entry 1): always a next state. -/
namespace Sys2Proof.Machine

/-- The outcome that every command answers: the machine it leaves behind, the queue untouched, and the status word of the
cycle's start kept (R557). -/
def done (s t : State) : Host.Outcome State Fault Refusal := .next { State.noteStat s t with pending := s.pending }

/-- A command's effect where its operands name what exists; any other leaves the state as it is (log entry 1). -/
def act (ok : Bool) (s t : State) : Host.Outcome State Fault Refusal := done s (if ok then t else s)

end Sys2Proof.Machine
end

