-- ==== Sys2Proof/Machine/Aes.lean ====
section
/-! DEFINITION. AES-256-GCM, which R496 names and takes from published standards: PRESUMED, see the log. -/
namespace Sys2Proof

/-- Product in GF(2^8) of AES; `n` bits of b are used. -/
def gfMul8 (a : Nat) : Nat → Nat → Nat
  | 0, _ => 0
  | n + 1, b =>
    let r := gfMul8 a n (b / 2)
    let d := if 128 ≤ r then (2 * r) % 256 ^^^ 0x1B else 2 * r
    if b % 2 = 1 then d ^^^ a else d

/-- b to the power e in GF(2^8). -/
def gfPow8 (b : Nat) : Nat → Nat
  | 0 => 1
  | e + 1 => gfMul8 b 8 (gfPow8 b e)

/-- Rotate a byte left. -/
def rotl8 (x n : Nat) : Nat := (x * 2 ^ n) % 256 + x * 2 ^ n / 256

/-- The substitution of AES: the inverse, then the affine map. -/
def aesSub (x : Nat) : Nat :=
  let y := gfPow8 x 254
  y ^^^ rotl8 y 1 ^^^ rotl8 y 2 ^^^ rotl8 y 3 ^^^ rotl8 y 4 ^^^ 0x63

/-- The substitution as a table. -/
def aesBox : List Nat := (List.range 256).map aesSub

/-- Key schedule: words of four bytes, newest first; `n` more from word `i` on. -/
def aesExpand : Nat → Nat → List (List Nat) → List (List Nat)
  | 0, _, ws => ws
  | n + 1, i, ws =>
    let t := ws.headD []
    let sub := fun (l : List Nat) => l.map fun (x : Nat) => aesBox.getD x 0
    let t' := if i % 8 = 0 then
        (match sub (t.drop 1 ++ t.take 1) with
         | a :: r => (a ^^^ gfPow8 2 (i / 8 - 1)) :: r
         | [] => [])
      else if i % 8 = 4 then sub t else t
    aesExpand n (i + 1) ((List.zipWith (fun a b => a ^^^ b) (ws.getD 7 []) t') :: ws)

/-- The fifteen round keys of 16 bytes. -/
def aesKeys (key : List Nat) : List (List Nat) :=
  let ws := (aesExpand 52 8 ((List.range 8).map fun i => (key.drop (4 * (7 - i))).take 4)).reverse
  (List.range 15).map fun r => ((ws.drop (4 * r)).take 4).flatten

/-- MixColumns on one column. -/
def aesMix (c : List Nat) : List Nat :=
  (List.range 4).map fun i =>
    gfMul8 (c.getD i 0) 8 2 ^^^ gfMul8 (c.getD ((i + 1) % 4) 0) 8 3 ^^^ c.getD ((i + 2) % 4) 0 ^^^ c.getD ((i + 3) % 4) 0

/-- One round: `mix` in all but the last. -/
def aesRound (mix : Bool) (st key : List Nat) : List Nat :=
  let sh := (List.range 16).map fun i => aesBox.getD (st.getD ((i + 4 * (i % 4)) % 16) 0) 0
  let mx := if mix then (List.range 4).flatMap fun c => aesMix ((sh.drop (4 * c)).take 4) else sh
  List.zipWith (fun a b => a ^^^ b) mx key

/-- Encrypt one block of 16 bytes. -/
def aesBlock (ks : List (List Nat)) (blk : List Nat) : List Nat :=
  let st := List.zipWith (fun a b => a ^^^ b) blk (ks.headD [])
  let st := (List.range 13).foldl (fun st i => aesRound true st (ks.getD (i + 1) [])) st
  aesRound false st (ks.getD 14 [])

/-- Product in GF(2^128) of GCM, blocks as numbers with the first bit most significant. -/
def gcmMul (x : Nat) : Nat → Nat → Nat → Nat
  | 0, _, z => z
  | n + 1, v, z =>
    let z' := if x / 2 ^ n % 2 = 1 then z ^^^ v else z
    gcmMul x n (if v % 2 = 1 then v / 2 ^^^ 0xE1000000000000000000000000000000 else v / 2) z'

/-- GHASH over blocks. -/
def ghash (h : Nat) (bs : List Nat) : Nat := bs.foldl (fun y b => gcmMul (y ^^^ b) 128 h 0) 0

/-- Blocks of 16 bytes as numbers, the last padded with zeros. -/
def gcmBlocks (bs : List Byte) : List Nat := (List.range (ceilDiv bs.length 16)).map fun i => beNat (padTo 16 (sliceB bs (16 * i) (min 16 (bs.length - 16 * i))))

/-- AES-256-GCM of `nonce ‖ ciphertext ‖ tag` without further data: the plaintext where the tag verifies. -/
def gcmOpen (key : List Byte) (m : List Byte) : Option (List Byte) :=
  if m.length < 28 then none
  else
    let ks := aesKeys (key.map fun (b : Byte) => b.toNat)
    let enc := fun (v : Nat) => (aesBlock ks ((toBe 16 v).map fun (b : Byte) => b.toNat)).foldl (fun a b => a * 256 + b) 0
    let ct := sliceB m 12 (m.length - 28)
    let j0 := beNat (m.take 12) * 2 ^ 32 + 1
    let h := enc 0
    let tag := ghash h (gcmBlocks ct ++ [8 * ct.length]) ^^^ enc j0
    if tag = beNat (sliceB m (m.length - 16) 16) then
      let pad := (List.range (ceilDiv ct.length 16)).flatMap fun i => toBe 16 (enc (j0 + 1 + i))
      some (List.zipWith (fun (a b : Byte) => a ^^^ b) ct pad)
    else none

end Sys2Proof
end

