-- ==== Sys2Proof/Machine/Checks.lean ====
section
/-! DEFINITION. Load checks 1 to 6 of R291 over the decoded program: modes, capacities, codebooks, pronouns, layers and
mappings. Check 1's container values are checked with the container (R571). -/
namespace Sys2Proof
open Sys2Proof.Machine

/-- A load failure (R292): check, reason, schedule or model set, unit, scope, object and NEED. -/
structure LoadFail where
  check : Nat
  reason : Nat
  sched : Nat := 0
  unit : Nat := 0
  scope : Nat := 0
  object : Nat := 0
  need : Nat := 0
  deriving DecidableEq, Repr, Inhabited

/-- The lowest reason that holds. -/
def lowest (l : List (Nat × Bool)) : Option Nat := (l.find? fun q => q.2).map (·.1)

/-- The first failure. -/
def firstFail (l : List (Option LoadFail)) : Option LoadFail := l.findSome? id

/-- x lies from lo to hi. -/
def within (lo hi x : Nat) : Bool := decide (lo ≤ x) && decide (x ≤ hi)

/-! ### Check 1: modes -/

/-- R39 for one mode: W × V_ACTIVE × 1.5 × 10⁹ over the shortest period. -/
def Mode.rateOk (m : Mode) : Bool :=
  decide (m.w * m.vActive * 1500000000 * 65536 ≤ 7962624000 * (m.vtMin * (m.lp + 1)))

/-- R46 for one mode. -/
def Mode.timingOk (m : Mode) : Bool :=
  decide (m.vActive < m.vtMin) && decide (m.vtMin ≤ m.vtNom) && decide (m.vtNom ≤ m.vtMax) &&
  decide (6250000 * 65536 ≤ m.vtMin * (m.lp + 1)) && decide (m.vtMax * (m.lp - 1) ≤ 31250000 * 65536) &&
  [0, 2, 4, 8, 16].contains m.seamH

/-- R257 and R258 for one mode: every schedule it names. -/
def Program.segsOk (p : Program) (m : Mode) : Bool :=
  (List.range 5).all fun n =>
    if bit m.buckets n then
      let u := (p.scheds.getD (m.sched.getD n 0xFF) {}).segUnit
      decide (m.w % u = 0) && (List.range m.nCores).all fun l => within 16 240 (segWidth m.w u m.nCores l)
    else true

/-- Check 1, reasons 1 to 5. -/
def Program.checkModes (p : Program) : Option LoadFail :=
  p.modeRaw.zipIdx.findSome? fun q =>
    let m := Mode.parse q.1
    (lowest [(1, !Mode.fieldsOk q.1), (2, !m.rateOk), (3, !m.timingOk), (4, m.buckets != p.buckets), (5, !p.segsOk m)]).map
      fun r => { check := 1, reason := r, object := q.2 }

/-! ### Check 2: capacities (R290) -/

/-- One row of R290: its number, its limit, the count. -/
def overRow (l : List (Nat × Nat × Nat)) : Option (Nat × Nat) :=
  (l.find? fun q => decide (q.2.1 < q.2.2)).map fun q => (q.1, q.2.2)

/-- Distinct line-store rings of a band, as (BASE, RING), over its cores and its own table (R223). -/
def Schedule.bandRings (sc : Schedule) (b : Nat) : List (Nat × Nat) :=
  let of (l : List (List Byte)) : List (Nat × Nat) :=
    l.filterMap fun e => let r := Prn.parse (padTo 32 e); if r.place = 2 then some (r.base, r.ring) else none
  (((List.range 8).flatMap fun k => of (sc.cores.getD (8 * b + k) {}).prns) ++ of (sc.bands.getD b {}).prns).eraseDups

/-- Slots that a band's rings hold (R223). -/
def Schedule.bandSlots (sc : Schedule) (b : Nat) : Nat := ((sc.bandRings b).map (·.2)).foldl (· + ·) 0

/-- Check 2 for one schedule: its own rows, its cores', its bands'. -/
def Schedule.checkCaps (sc : Schedule) (k : Nat) : Option LoadFail :=
  let mk (scope unit : Nat) (q : Nat × Nat) : LoadFail :=
    { check := 2, reason := q.1, sched := k, unit := unit, scope := scope, need := q.2 }
  firstFail ([(overRow [(4, 8, sc.lineClauses.length), (4, 16, sc.frameClauses.length),
      (5, 256, (sc.cores.map fun c => c.layers.length).foldl max 0), (15, 4096, sc.almRaw.length),
      (17, 8, sc.barriers.length)]).map (mk 1 0)] ++
    (sc.cores.zipIdx.map fun c => (overRow [(10, 128, c.1.prns.length), (11, 64, c.1.lists.length),
      (12, 16, c.1.wins.length), (13, 64, c.1.sems.length), (16, 65536, c.1.storeBytes)]).map (mk 2 c.2)) ++
    (sc.bands.zipIdx.map fun b => (overRow [(10, 32, b.1.prns.length), (11, 32, b.1.lists.length),
      (14, 1024, sc.bandSlots b.2)]).map (mk 3 b.2)))

/-- Weight-file entries of a model set (row 6 of R290). -/
def ModelSet.entries (m : ModelSet) : Nat :=
  (m.classes.filter fun c => c = .line || c = .frame).length + 2 * m.t

/-- Check 2: the container's rows, then model sets, then schedules. -/
def Program.checkCaps (p : Program) : Option LoadFail :=
  firstFail ([(overRow [(1, 8, p.modeRaw.length), (2, 40, p.scheds.length), (3, 8, p.sets.length)]).map
      fun q => { check := 2, reason := q.1, need := q.2 }] ++
    (p.sets.map fun m => (overRow [(6, 64, m.1.entries), (7, 2048, m.1.esc.length), (8, 32, m.1.cbs.length),
      (9, 32768, m.1.prefixW.length), (9, 32768, m.1.suffixW.length)]).map fun q =>
        { check := 2, reason := q.1, sched := m.2, scope := 1, need := q.2 }) ++
    (p.scheds.zipIdx.map fun s => s.1.checkCaps s.2))

/-! ### Walking a schedule's layers -/

/-- The clause whose descriptor covers a layer (R286). -/
def Schedule.clauseOfLayer (sc : Schedule) (i : Nat) : Option ClauseDesc :=
  sc.clauses.find? fun c => decide (c.firstLayer ≤ i) && decide (i < c.firstLayer + c.layerCount)

/-- A pronoun of a core's initial table. -/
def CoreImage.prn (c : CoreImage) (n : Nat) : Prn := Prn.parse (padTo 32 (c.prns.getD n []))
/-- A pronoun of a band's initial table. -/
def BandImage.prn (b : BandImage) (n : Nat) : Prn := Prn.parse (padTo 32 (b.prns.getD n []))
/-- A layer descriptor of a core's image. -/
def CoreImage.layer (c : CoreImage) (i : Nat) : LayerDesc := LayerDesc.parse (c.layers.getD i [])
/-- The mapping record that a layer names. -/
def CoreImage.mapOf (c : CoreImage) (d : LayerDesc) : List Byte := sliceB c.maps d.map 32

/-- A model set holds a codebook in a slot (R150). -/
def ModelSet.holds (m : ModelSet) (n : Nat) : Bool := (m.cbs.getD n []) != []
/-- The codebook of a slot. -/
def ModelSet.cb (m : ModelSet) (n : Nat) : Codebook := Codebook.parse (m.cbs.getD n [])

/-- The first layer of the program, in the order of R291, that a test fails: a reason, with the model set that checks 3 and 5 report
beside it (R292). A layer is an object of its core: scope 2. -/
def Program.firstLayer (p : Program) (check : Nat) (test : Schedule → Nat → Nat → Option (Nat × Option Nat)) : Option LoadFail :=
  p.scheds.zipIdx.findSome? fun s => s.1.cores.zipIdx.findSome? fun c => (List.range c.1.layers.length).findSome? fun i =>
    (test s.1 c.2 i).map fun r =>
      { check := check, reason := r.1, sched := r.2.getD s.2, unit := c.2, scope := 2, object := i }

/-! ### Check 3: codebooks -/

/-- Codebook slots that a layer names (R151). -/
def LayerDesc.slots (d : LayerDesc) : List Nat :=
  (if d.engine = 1 then [] else [d.inCb]) ++ [d.wCb] ++ (if d.outFmt ≤ 1 then [d.outCb] else [])

/-- The codebooks of a model set's image: those of the slots, then the four of its Drizzle record (R331), which take the indices after
the 32 slots (DESIGN CHOICE, log entry 79). -/
def ModelSet.codebooks (m : ModelSet) (rd : Nat → Nat → List Byte) : List (List Byte × Nat) :=
  let b := rd (m.base + leAt m.drzRaw 12 4) 640
  (m.cbs.zipIdx.filter fun c => c.1 != []) ++
  (if m.t = 0 then [] else [(sliceB b 0 40, 32), (sliceB b 40 40, 33), (sliceB b 80 40, 34), (sliceB b 120 520, 35)])

/-- Check 3 (R108, R150). `rd` reads DRAM. -/
def Program.checkCodebooks (p : Program) (rd : Nat → Nat → List Byte) : Option LoadFail :=
  firstFail [
    p.sets.findSome? fun m => (m.1.codebooks rd).findSome? fun c =>
      if Codebook.ok c.1 then none else some { check := 3, reason := 1, sched := m.2, scope := 1, object := c.2 },
    p.firstLayer 3 fun sc l i =>
      let d := (sc.cores.getD l {}).layer i
      p.sets.findSome? fun m =>
        (lowest [(2, d.slots.any fun n => !m.1.holds n),
          (3, (d.engine == 1 || d.engine == 2) && (m.1.cb d.wCb).big)]).map fun r => (r, some m.2)]

/-! ### Check 4: pronouns (R218) -/

/-- Reserved bits of a pronoun entry, in use or not (R216). -/
def prnReserved (e : List Byte) : Bool :=
  decide (5 < (Prn.parse e).form) || decide (16 ≤ leAt e 1 1) || decide (32 ≤ leAt e 22 1) || decide (leNat (sliceB e 23 9) ≠ 0)

/-- Reasons 1 to 8 for an entry in use. -/
def prnReason (band : Bool) (e : List Byte) : Option Nat :=
  let r := Prn.parse e
  let top := if r.place = 1 then 0x80000 else if r.place = 2 then 0x600000 else 0x200000000
  lowest [
    (1, decide (3 < r.place) || (band && r.place == 1) || prnReserved e || !within 1 4096 r.ch || (r.place == 2 && decide (r.cons = 0))),
    (2, decide (r.ph < r.oy + r.lh) || decide (r.pw < r.ox + r.lw)),
    (3, decide (r.base % 64 ≠ 0)),
    (4, decide (top < r.base + r.size)),
    (5, r.ring == 1 || decide (64 < r.ring)),
    (6, r.ring != 0 && r.place == 3),
    (7, r.ring == 0 && r.place == 2),
    (8, r.zc && (r.place == 1 || decide (1 < r.form) || decide (r.pw * r.nr % 8 ≠ 0)))]

/-- The entry with its logical extents taken out, for reason 9. -/
def prnShape (e : List Byte) : List Byte := (e.take 4) ++ (e.drop 8)

/-- Reason 9: line-store rings of one base in a band's cores are named alike. -/
def Schedule.ringsAlike (sc : Schedule) (b : Nat) (e : List Byte) : Bool :=
  (List.range 8).all fun k => (sc.cores.getD (8 * b + k) {}).prns.all fun x =>
    let q := padTo 32 x
    (Prn.parse q).place != 2 || (Prn.parse q).base != (Prn.parse e).base || prnShape q == prnShape e

/-- Check 4 over one table. -/
def Schedule.checkTable (sc : Schedule) (k unit scope band : Nat) (t : List (List Byte)) : Option LoadFail :=
  t.zipIdx.findSome? fun q =>
    let e := padTo 32 q.1
    let place := (Prn.parse e).place
    (if place = 0 then (if prnReserved e then some 1 else none)
     else (prnReason (scope == 3) e).or (if place = 2 ∧ scope = 2 ∧ !sc.ringsAlike band e then some 9 else none)).map fun r =>
      { check := 4, reason := r, sched := k, unit := unit, scope := scope, object := q.2 }

/-- Check 4. -/
def Program.checkPronouns (p : Program) : Option LoadFail :=
  p.scheds.zipIdx.findSome? fun s => firstFail
    ((s.1.cores.zipIdx.map fun c => s.1.checkTable s.2 c.2 2 (c.2 / 8) c.1.prns) ++
     (s.1.bands.zipIdx.map fun b => s.1.checkTable s.2 b.2 3 b.2 b.1.prns) ++
     (s.1.bands.zipIdx.map fun b => if 1024 < s.1.bandSlots b.2 then
        some { check := 4, reason := 10, sched := s.2, unit := b.2, scope := 3 } else none))

/-! ### Check 5: layers (R125, R153, R118) -/

/-- The output pair's working pronoun behind a committed one. -/
def Schedule.workOf (sc : Schedule) (n : Nat) : Nat :=
  ((sc.frameClauses.flatMap fun d => (d.pairs.take d.outs).map fun q => (q.2, q.1)).find? fun q => q.1 == n).elim n (·.2)

/-- Where a tensor stands: PLACE, the core or band that holds it, BASE. -/
def prnStands (r : Prn) (band core : Nat) : Nat × Nat × Nat :=
  (r.place, if r.place = 1 then core else if r.place = 2 then band else 0, r.base)

/-- Where pronoun n of a logical core stands, a committed one's producer writing its working buffer. -/
def Schedule.standsAt (sc : Schedule) (l n : Nat) : Nat × Nat × Nat := prnStands ((sc.cores.getD l {}).prn (sc.workOf n)) (l / 8) l

/-- Bytes of the buffer standing at `k`, of any place: of DRAM as it is, of a scratchpad as a copy from DRAM brings them there, at the same
offset (DESIGN CHOICE, log entry 80). -/
def bytesAt (rd : Nat → Nat → List Byte) (cp : List ((Nat × Nat × Nat) × List (Nat × Nat × Nat))) (k : Nat × Nat × Nat) (o n : Nat) : List Byte :=
  if k.1 = 3 then rd (k.2.2 + o) n
  else match cp.find? fun x => x.2.contains k && x.1.1 == 3 with
    | some x => rd (x.1.2.2 + o) n
    | none => []

/-- The descriptors of a list whose pronoun is `r`, each with its index; the list stands in DRAM, or where the copies `cp` bring it. -/
def listRaws (rd : Nat → Nat → List Byte) (cp : List ((Nat × Nat × Nat) × List (Nat × Nat × Nat))) (r : Prn) (band core : Nat)
    (entry : List Byte) : List (List Byte) :=
  if leNat entry = 0 then []
  else ((List.range (leAt entry 4 2)).map fun i => bytesAt rd cp (prnStands r band core) (32 * (leAt entry 2 2 + i)) 32).filter fun b => b != []

/-- Every descriptor of a schedule's lists that is held in DRAM or brought there by `cp`: the logical core, or none and the band; the list;
the engine; the descriptor. -/
def Schedule.listDescs (sc : Schedule) (rd : Nat → Nat → List Byte) (cp : List ((Nat × Nat × Nat) × List (Nat × Nat × Nat))) :
    List (Option Nat × Nat × List Byte × List Byte) :=
  (sc.cores.zipIdx.flatMap fun c => c.1.lists.flatMap fun e =>
    (listRaws rd cp (c.1.prn (leAt e 0 1)) (c.2 / 8) c.2 e).map fun raw => (some c.2, c.2 / 8, e, raw)) ++
  (sc.bands.zipIdx.flatMap fun b => b.1.lists.flatMap fun e =>
    (listRaws rd cp (b.1.prn (leAt e 0 1)) b.2 64 e).map fun raw => (none, b.2, e, raw))

/-- Where pronoun n stands for a logical core, or for a band. -/
def Schedule.standsIn (sc : Schedule) (l : Option Nat) (band n : Nat) : Nat × Nat × Nat :=
  match l with
  | some k => sc.standsAt k n
  | none => prnStands ((sc.bands.getD band {}).prn n) band 64

/-- The copies of the lists that `cp` lets the device read: where the source stands, and where each destination does. -/
def Schedule.copiesOver (sc : Schedule) (rd : Nat → Nat → List Byte) (cp : List ((Nat × Nat × Nat) × List (Nat × Nat × Nat))) :
    List ((Nat × Nat × Nat) × List (Nat × Nat × Nat)) :=
  (sc.listDescs rd cp).filterMap fun q =>
    let d := Desc.parse q.2.2.2
    if d.op ≠ 0 then none
    else some (sc.standsIn q.1 q.2.1 d.src,
      if d.mcast then ((List.range 64).filter fun l => bit d.mask l).map fun l => sc.standsAt l d.dst
      else [if d.remote then sc.standsAt d.peer d.dst else sc.standsIn q.1 q.2.1 d.dst])

/-- Copies over copies, until no list more can be read. -/
def Schedule.copiesFrom (sc : Schedule) (rd : Nat → Nat → List Byte) :
    Nat → List ((Nat × Nat × Nat) × List (Nat × Nat × Nat)) → List ((Nat × Nat × Nat) × List (Nat × Nat × Nat))
  | 0, cp => cp
  | f + 1, cp => let cp' := sc.copiesOver rd cp; if cp' = cp then cp else sc.copiesFrom rd f cp'

/-- The copies of a schedule's lists: those in DRAM, those that copies bring into a scratchpad, and so on. Each round but the last reads a
list more, so the lists' number bounds the rounds. -/
def Schedule.copies (sc : Schedule) (rd : Nat → Nat → List Byte) : List ((Nat × Nat × Nat) × List (Nat × Nat × Nat)) :=
  sc.copiesFrom rd (((sc.cores.map fun c => c.lists.length) ++ sc.bands.map fun b => b.lists.length).sum + 1) []

/-- The layers, one for each core, that write the tensor standing at `k` for layer `i`: the last one before `i` that writes there, else the
first that does. -/
def Schedule.writers (sc : Schedule) (i : Nat) (k : Nat × Nat × Nat) : List (CoreImage × LayerDesc) :=
  sc.cores.zipIdx.filterMap fun c =>
    let l := (List.range c.1.layers.length).filter fun j =>
      (prnStands (c.1.prn (c.1.layer j).outPrn) (c.2 / 8) c.2 == k) && decide ((c.1.layer j).engine ≠ 2) && decide (j ≠ i)
    (((l.filter fun j => decide (j < i)).getLast?).or l.head?).map fun j => (c.1, c.1.layer j)

/-- Buffers from which copies bring data into those of `ks` that no layer writes, through any number of copies. -/
def Schedule.broughtFrom (sc : Schedule) (cp : List ((Nat × Nat × Nat) × List (Nat × Nat × Nat))) (i : Nat) :
    Nat → List (Nat × Nat × Nat) → List (Nat × Nat × Nat)
  | 0, ks => ks
  | f + 1, ks =>
    let new := (cp.filterMap fun x =>
      if !ks.contains x.1 && ks.any fun k => x.2.contains k && (sc.writers i k).isEmpty then some x.1 else none).eraseDups
    if new = [] then ks else sc.broughtFrom cp i f (ks ++ new)

/-- The layers that produce the tensor standing at `k`: those that write there, else those that produce what copies bring there. A round of
`broughtFrom` reaches a copy's source for the first time, so the copies' number bounds the rounds. -/
def Schedule.producers (sc : Schedule) (cp : List ((Nat × Nat × Nat) × List (Nat × Nat × Nat))) (i : Nat) (k : Nat × Nat × Nat) :
    List (CoreImage × LayerDesc) :=
  if k.1 = 0 then [] else ((sc.broughtFrom cp i (cp.length + 1) [k]).filter fun x => x.1 != 0).flatMap (sc.writers i)

/-- Reason 1 of check 5. -/
def LayerDesc.rangeBad (d : LayerDesc) : Bool :=
  !within 1 7 d.leakK || decide (d.pool = 3) || decide (8 < d.kOut) ||
  (f16Val (f16Clean d.hi)).lt (f16Val (f16Clean d.lo)) || (d.pool != 0 && d.outFmt == 3)

/-- The class of weight-file entries that a layer's clause may read (R145). -/
def tileClassOf (line adapt : Bool) : Option TileClass :=
  if adapt then (if line then some .adapter else none) else if line then some .line else some .frame

/-- Reason 2 of check 5 for a model set. -/
def LayerDesc.shapeBad (d : LayerDesc) (raw : List Byte) (line : Bool) (m : ModelSet) : Bool :=
  decide (2 < d.engine) || decide (d.shuf = 3) || !LayerDesc.reservedOk raw ||
  (d.engine == 0 && !within 1 64 d.tileCount) || decide (64 < d.tileFirst + d.tileCount) ||
  (match tileClassOf line d.adapt with
   | none => true
   | some .adapter => decide (m.t < d.tileFirst + d.tileCount)
   | some k => (List.range d.tileCount).any fun i => m.classOf (d.tileFirst + i) != k) ||
  (d.engine == 1 && (decide (2 ≤ d.outFmt) || d.pool != 0)) ||
  (d.engine == 2 && (d.outFmt != 2 || d.pool != 0 || decide (48 < d.outCh) || decide (d.outCh ≠ 3 * d.s * d.s)))

/-- The codes of a resident tile in a model set's pages (R117, R147). -/
def ModelSet.tileCodes (m : ModelSet) (page : Nat → List Byte) (big : Bool) (e : Nat) : List Nat :=
  let lo := pageCodes (page (m.pageOff.getD e 0))
  if big then
    let hi := pageCodes (page (m.pageOff.getD (e + 1) 0))
    (List.range 4096).map fun i => lo.getD i 0 + 16 * hi.getD i 0
  else lo

/-- Places (column, row) of a tile's escape codes, in the order of R118. -/
def escPlaces (codes : List Nat) (esc : Nat) : List (Nat × Nat) :=
  (List.range 64).flatMap fun k => (List.range 64).filterMap fun r => if codes.getD (64 * r + k) 0 = esc then some (k, r) else none

/-- Escape places of each tile of a layer of the array, in the order of its escape list: none for a tile that is loaded at run time. -/
def ModelSet.layerEsc (m : ModelSet) (page : Nat → List Byte) (d : LayerDesc) : List (Option (List (Nat × Nat))) :=
  let cb := m.cb d.wCb
  let w := tileWidth cb.big
  (List.range (d.tileCount / w)).map fun i =>
    let e := d.tileFirst + w * i
    if m.loaded.contains e then none else some (escPlaces (m.tileCodes page cb.big e) cb.escCode)

/-- Places in the order of R118: ascending column, and in one column ascending row. -/
def escRising : List (Nat × Nat) → Bool
  | a :: b :: t => (decide (a.1 < b.1) || (decide (a.1 = b.1) && decide (a.2 < b.2))) && escRising (b :: t)
  | _ => true

/-- At most 8 places of a tile in one column (R118). -/
def escFits (l : List (Nat × Nat)) : Bool := l.all fun q => decide ((l.filter fun x => x.1 == q.1).length ≤ 8)

/-- An escape list divides among the tiles of its layer: the entries of a resident tile match its escape codes one to one, those of a tile
loaded at run time are in order, and each keeps the limit of 8 in a column. -/
def escDivides : List (Option (List (Nat × Nat))) → List (Nat × Nat) → Bool
  | [], l => l.isEmpty
  | some p :: t, l => escFits p && l.take p.length == p && escDivides t (l.drop p.length)
  | none :: t, l => (List.range (l.length + 1)).any fun n => escRising (l.take n) && escFits (l.take n) && escDivides t (l.drop n)

/-- Reason 3 of check 5 for a model set: the escape list of a layer. A layer without weight tiles has no escaped weight, and no adapter
tile holds one (R330). The codes of a tile loaded at run time are not compared: which page it takes stands in the static schedule
(DESIGN CHOICE, log entry 80). -/
def LayerDesc.escBad (d : LayerDesc) (page : Nat → List Byte) (m : ModelSet) : Bool :=
  let l := (List.range d.escLen).map fun i => m.esc.getD (d.escBase + i) 0
  decide (2048 < d.escBase + d.escLen) || (l.any fun w => decide (2 ^ 28 ≤ w)) ||
  ((d.engine != 0 || d.adapt) && d.escLen != 0) ||
  (d.engine == 0 && !d.adapt && !escDivides (m.layerEsc page d) ((l.map EscEntry.parse).map fun e => (e.col, e.row)))

/-- The layers that produce the input of layer `i` of logical core `l`. -/
def Schedule.inputFrom (sc : Schedule) (rd : Nat → Nat → List Byte) (l i : Nat) : List (CoreImage × LayerDesc) :=
  sc.producers (sc.copies rd) i (sc.standsAt l ((sc.cores.getD l {}).layer i).inPrn)

/-- Check 5. `rd` reads DRAM, where the weight pages and the lists are. The failure names the first model set for which the layer fails
(R292): for reasons 1 and 4, which ask nothing of a model set, the first of the container (DESIGN CHOICE, log entry 79). -/
def Program.checkLayers (p : Program) (rd : Nat → Nat → List Byte) : Option LoadFail :=
  p.firstLayer 5 fun sc l i =>
    let c := sc.cores.getD l {}
    let d := c.layer i
    let line := ((sc.clauseOfLayer i).map fun q => !q.frame).getD false
    let first (r : Nat) (q : ModelSet → Bool) : Option (Nat × Option Nat) := (p.sets.find? fun m => q m.1).map fun m => (r, some m.2)
    let diff : Bool := (sc.inputFrom rd l i).any fun q => decide (q.2.outFmt ≤ 1) && decide (q.2.outCb ≠ d.inCb)
    (first 1 fun _ => d.rangeBad).or <| (first 2 (d.shapeBad (c.layers.getD i []) line)).or <|
      (first 3 (d.escBad fun o => rd o 2048)).or <| first 4 fun _ => d.engine != 1 && diff

/-! ### Check 6: mappings (R197) -/

/-- Largest logical extent of a DYN layer's input (R188): what the padded extent holds with the pads around it. -/
def mapInput (r : Prn) (m : MapRec) : Nat × Nat :=
  if m.dyn then (r.ph - r.oy - m.padB, r.pw - r.ox - m.padR) else (r.lh, r.lw)

/-- Reason 3: every element that R176 reads lies in the padded extent. -/
def mapReadsOk (r : Prn) (m : MapRec) (outH outW : Nat) : Bool :=
  let lo := m.inPos 0 0 0 0
  let hi := m.inPos (outH - 1) (computedCols outW - 1) (m.kh - 1) (m.kw - 1)
  decide (0 ≤ lo.1 + r.oy) && decide (0 ≤ lo.2 + r.ox) && decide (hi.1 + r.oy < r.ph) && decide (hi.2 + r.ox < r.pw)

/-- The next block of a split filter in row-major order (R182). -/
def nextBlock (m : MapRec) : Nat × Nat :=
  if m.tapX0 + 7 < m.fullKw then (m.tapY0, m.tapX0 + 7) else (m.tapY0 + 7, 0)

/-- Layer `i + 1` of a core is the pass after layer `i` of one split filter (R182, R183). -/
def CoreImage.passOn (c : CoreImage) (i : Nat) : Bool :=
  let d := c.layer i
  let m := MapRec.parse (c.mapOf d)
  let dn := c.layer (i + 1)
  let mn := MapRec.parse (c.mapOf dn)
  let alike := (mn.sh, mn.sw, mn.dh, mn.dw, mn.padT, mn.padB, mn.padL, mn.padR, mn.fullKh, mn.fullKw, mn.kind, mn.glog, mn.mlog) ==
    (m.sh, m.sw, m.dh, m.dw, m.padT, m.padB, m.padL, m.padR, m.fullKh, m.fullKw, m.kind, m.glog, m.mlog)
  alike && (mn.tapY0, mn.tapX0) == nextBlock m && decide ((nextBlock m).1 < m.fullKh) && d.outFmt == 3 && dn.inPrn == d.inPrn && dn.psumPrn == d.outPrn

/-- Reason 7: the passes of a split filter (R182, R183). DESIGN CHOICE (log entry 80): they are consecutive layer descriptors of a core. -/
def Schedule.splitBad (c : CoreImage) (i : Nat) : Bool :=
  let d := c.layer i
  let m := MapRec.parse (c.mapOf d)
  let split := decide (7 < m.fullKh) || decide (7 < m.fullKw)
  if !split then decide (m.kh ≠ m.fullKh) || decide (m.kw ≠ m.fullKw) || m.tapY0 != 0 || m.tapX0 != 0
  else
    let last := decide (m.fullKh ≤ (nextBlock m).1)
    decide (m.tapY0 % 7 ≠ 0) || decide (m.tapX0 % 7 ≠ 0) || decide (m.fullKh ≤ m.tapY0) || decide (m.fullKw ≤ m.tapX0) ||
    decide (m.kh ≠ min 7 (m.fullKh - m.tapY0)) || decide (m.kw ≠ min 7 (m.fullKw - m.tapX0)) ||
    (if m.tapY0 = 0 ∧ m.tapX0 = 0 then d.passIn else !d.passIn || decide (i = 0) || !c.passOn (i - 1)) ||
    (!last && (decide (c.layers.length ≤ i + 1) || !c.passOn i))

/-- Reason 8: the pooling pronoun (R192). DESIGN CHOICE (log entry 80): every other layer of the core's image counts as live. -/
def poolBad (c : CoreImage) (i : Nat) (d : LayerDesc) (m : MapRec) (wPool : Int) : Bool :=
  d.pool != 0 && decide (1 < m.poolH) &&
  (let r := c.prn m.poolPrn
   r.place != 1 || decide ((r.size : Int) < wPool * (64 * ceilDiv d.outCh 64 * 8 * ceilDiv m.poolH m.poolSh : Nat)) ||
   (List.range c.layers.length).any fun j =>
     let o := c.layer j
     let mo := MapRec.parse (c.mapOf o)
     decide (j ≠ i) && (o.inPrn == m.poolPrn || o.outPrn == m.poolPrn || (o.passIn && o.psumPrn == m.poolPrn) || o.chpPrn == m.poolPrn ||
       (o.pool != 0 && decide (1 < mo.poolH) && mo.poolPrn == m.poolPrn)))

/-- Reason 10: OUT_ZC and IN_ZC (R193). DESIGN CHOICE (log entry 80): OUT_ZC of a layer and ZC of its output pronoun are one flag. -/
def Program.zcBad (p : Program) (sc : Schedule) (rd : Nat → Nat → List Byte) (l i : Nat) (d : LayerDesc) (m : MapRec) : Bool :=
  let c := sc.cores.getD l {}
  let want := d.act == 1 && decide (d.outFmt ≤ 1) && decide (2 ≤ (c.prn d.outPrn).place)
  m.outZc != want || (m.outZc && p.sets.any fun s => decide ((s.1.cb d.outCb).c.getD 0 0 ≠ 0)) ||
  (m.outZc != (c.prn d.outPrn).zc && decide (2 ≤ (c.prn d.outPrn).place) && decide (d.engine ≠ 2)) ||
  (sc.inputFrom rd l i).any fun q => (MapRec.parse (q.1.mapOf q.2)).outZc != m.inZc

/-- An escape-list entry of a line layer stands in a masked cell (R181). -/
def maskedEsc (d : LayerDesc) (m : MapRec) (ms : ModelSet) : Bool :=
  (List.range d.escLen).any fun i => let e := EscEntry.parse (ms.esc.getD (d.escBase + i) 0); !cellActive m e.row e.col

/-- Check 6. DESIGN CHOICES (log entry 93): a MAP offset whose record ends beyond the mapping table is reason 1; a KIND 1 layer is held to
R197 reason 6, so IN_CH/g_in and OUT_CH/g_out may differ; a DYN layer whose largest extent gives no output passes reason 2, which
names static layers alone. -/
def Program.checkMaps (p : Program) (rd : Nat → Nat → List Byte) : Option LoadFail :=
  p.firstLayer 6 fun sc l i =>
    let c := sc.cores.getD l {}
    let d := c.layer i
    let raw := c.mapOf d
    let m := MapRec.parse raw
    let line := ((sc.clauseOfLayer i).map fun q => !q.frame).getD false
    let r := c.prn d.inPrn
    let ro := c.prn d.outPrn
    let inp := mapInput r m
    let cv := m.convExtent inp.1 inp.2
    let out := m.outExtents (d.pool != 0) inp.1 inp.2
    (lowest [
      (1, !MapRec.fieldsOk raw (d.pool != 0) || decide (d.map % 32 ≠ 0) || decide (c.maps.length < d.map + 32)),
      (2, !m.dyn && (decide (cv.1 < 1) || decide (cv.2 < 1) || decide (out.1 < 1) || decide (out.2 < 1))),
      (3, decide (1 ≤ cv.1) && decide (1 ≤ cv.2) && !mapReadsOk r m cv.1.toNat cv.2.toNat),
      (4, (if m.dyn then decide ((ro.ph : Int) - ro.oy < out.1) || decide ((ro.pw : Int) - ro.ox < out.2)
        else decide (out.1 ≠ ro.lh) || decide (out.2 ≠ ro.lw))),
      (5, d.engine == 0 && p.sets.any fun s => decide (d.tileCount ≠ tileCountOf d m (s.1.cb d.wCb).big)),
      (6, (m.kind == 1 && (decide (64 < m.gOut) || decide (d.inCh % m.gIn ≠ 0) || decide (d.outCh % m.gOut ≠ 0) || d.engine != 0 ||
          p.sets.any fun s => maskedEsc d m s.1)) || (d.engine == 1 && decide (16 < d.inCh))),
      (7, Schedule.splitBad c i),
      (8, poolBad c i d m out.2),
      (9, m.dyn && line),
      (10, p.zcBad sc rd l i d m)]).map fun r => (r, none)

end Sys2Proof
end

