-- ==== Sys2Proof/Machine/Weather.lean ====
section
/-! DEFINITION. The weathering monitor (R521 to R529): measurement, planning, retirement, exhaustion and
restoration. -/
namespace Sys2Proof.Machine

/-! ### Bins (R522, R523) -/

/-- The clock period of a bin, in 1/273 ps (R522: 2000/3, 5000/7, 10 000/13 and 2500/3 ps). -/
def binPeriod (b : Nat) : Int := [182000, 195000, 210000, 227500].getD b 0
/-- Slack of bin `b` estimated from a slack measured at bin `c`, in 1/273 ps (R522). -/
def slackAt (slack : Int) (c b : Nat) : Int := 273 * slack + binPeriod b - binPeriod c
/-- Bins of an estimate with at least `guard` ps (R522). -/
def safeBins (slack : Int) (c guard : Nat) : List Nat :=
  (List.range 4).filter fun b => decide (273 * (guard : Int) ≤ slackAt slack c b)

/-- Active lines of a frame of `v` lines for which an entry acts, as intervals: from this frame, from the one before
(of `w` lines) and from the one after (of `w` lines) (R47, R49). -/
def actsIntervals (e : AlmEntry) (v w : Nat) : List (Int × Int) :=
  [(max 0 (e.first v) + e.lead, min (v - 1 : Int) (e.last v) + e.lead),
   (max 0 (e.first w) + e.lead - w, min (w - 1 : Int) (e.last w) + e.lead - w),
   (max 0 (e.first w) + e.lead + v, min (w - 1 : Int) (e.last w) + e.lead + v)]
/-- Two entries act for a common active line (R523, R572). -/
def actTogether (a b : AlmEntry) (v w va : Nat) : Bool :=
  (actsIntervals a v w).any fun x => (actsIntervals b v w).any fun y =>
    decide (max (max x.1 y.1) 0 ≤ min (min x.2 y.2) ((va : Int) - 1))

end Sys2Proof.Machine
namespace Sys2Proof
open Sys2Proof.Machine
/-- Frame lengths of a mode. -/
def Mode.lengths (m : Mode) : List Nat := (List.range (m.vtMax + 1 - m.vtMin)).map (m.vtMin + ·)
end Sys2Proof
namespace Sys2Proof.Machine

/-- Phase units from an entry to another that acts for the same line. -/
def phaseBetween (a b : AlmEntry) : Int := 4096 * (a.lead - b.lead) + b.phase - a.phase

/-- Kind-1 and kind-2 entry pairs that meet on some line (R523). -/
def schedPairs (sc : Schedule) (m : Mode) : List (AlmEntry × AlmEntry) :=
  (sc.almanac.filter fun a => a.kind == 1).flatMap fun a =>
    ((sc.almanac.filter fun b => b.kind == 2).filter fun b =>
      m.lengths.any fun v => m.lengths.any fun w => actTogether a b v w m.vActive).map fun b => (a, b)

/-- A bin is sufficient for the running schedule (R523). -/
def State.sufficient (s : State) (b : Nat) : Bool :=
  let m := s.modeOf s.cal.frame
  let k := binClock b
  (schedPairs s.sched m).all fun q =>
    let plan := ((s.sched.clause q.1.arg).map (·.plan)).getD 0
    let units := ceilDiv (plan * 15 * 4096 * 65536) (k * m.lp)
    decide (((s.getF F.PWR_WX_SLIP_SLIP_MIN : Nat) : Int) ≤ phaseBetween q.1 q.2 - units)

/-! ### Plans and the rail (R524, R525) -/

/-- Change the monitors. -/
def State.onPwr (s : State) (f : PwrSt → PwrSt) : State := { s with pwr := f s.pwr }

/-- A new BIN_PLAN for a core, from the next boundary (R524), with its record. -/
def State.setPlan (s : State) (p b reason : Nat) : State :=
  let old := s.getF (F.CORE_CLK_BIN_PLAN p)
  if old = b then s
  else ((s.onPwr fun w => { w with planNext := SMap.set 0 w.planNext p (b + 1) }).setF (F.PWR_WX_STATE_REASON p) reason).ledger 5 p
    (toLe 1 old ++ toLe 1 b ++ toLe 2 (s.getF (F.PWR_WX_SLACK_SLACK p)) ++ toLe 1 reason)

/-- VSET rises to a code (R525). -/
def State.setVset (s : State) (v : Nat) : State :=
  let old := s.getF F.PWR_VCORE_VSET
  if old = v then s else (s.setF F.PWR_VCORE_VSET v).ledger 6 0 (toLe 1 old ++ toLe 1 v)

/-! ### Retirement and exhaustion (R526 to R528) -/

/-- EXHAUST record (R530). -/
def State.exhaustRecord (s : State) (p reason : Nat) : State :=
  s.ledger 9 p (toLe 1 reason ++ toLe 1 (s.getF (F.PWR_WX_STATE_STOPPED p)))

/-- A core becomes STOPPED (R527, R528). -/
def State.stopCore (s : State) (p : Nat) : State :=
  if s.getF (F.PWR_WX_STATE_STOPPED p) = 1 then s
  else (s.setFs [(F.PWR_WX_STATE_EXHAUSTED p, 1), (F.PWR_WX_STATE_STOPPED p, 1)]).exhaustRecord p (s.getF (F.PWR_WX_STATE_REASON p))

/-- A core is exhausted (R527): for margin and slip it takes its fastest safe bin, estimated from its last measurement, or
bin 3. -/
def State.exhaust (s : State) (p reason : Nat) : State :=
  let s1 := (s.setFs [(F.PWR_WX_STATE_EXHAUSTED p, 1), (F.PWR_WX_STATE_REASON p, reason)]).exhaustRecord p reason
  let s2 := s1.setVset (s.getF F.PWR_VCORE_VMAX)
  if reason ≤ 2 then
    let slack := sext 16 (s.getF (F.PWR_WX_SLACK_SLACK p))
    s2.setPlan p (((safeBins slack (SMap.get 0 s.pwr.measBin p) (s.getF F.PWR_WX_CFG_G_BIN)).head?).getD 3) reason
  else s2

/-- RETIRE record (R530). -/
def State.retireRecord (s : State) (p reason incoming : Nat) : State :=
  s.ledger 7 p (toLe 1 (bandOf p) ++ toLe 1 (slotOf p) ++ toLe 1 reason ++ toLe 1 incoming)

/-- CORE_RETIRE (R526). `boot`: before output frame 0. -/
def State.retire (s : State) (p reason : Nat) (boot : Bool) : State :=
  if s.getF (F.PWR_WX_STATE_EXHAUSTED p) = 1 ∨ s.getF (F.PWR_WX_STATE_STOPPED p) = 1 ∨ 2 ≤ s.role p then s
  else
    let b := bandOf p
    let s1 := (s.incF F.PWR_WX_CNT_RETIRES 1).setF (F.PWR_WX_STATE_REASON p) reason
    let idle := s.getF (F.BAND_SLOTMAP_IDLE_SLOT b)
    let spare := 9 * b + idle
    if s.role p = 1 then
      let s2 := match s.fab.handovers.getD b none with
        | some h =>
          if h.inSlot = slotOf p ∧ !h.carried then
            let o := 9 * b + h.outSlot
            (s1.cancelHandover b).exhaust o (s.getF (F.PWR_WX_STATE_REASON o))
          else s1
        | none => s1
      if boot then (s2.setFs [(F.CORE_IDENT_ROLE p, 2), (F.BAND_SLOTMAP_IDLE_RETIRED b, 1)]).retireRecord p reason 0xFF
      else s2.onPwr fun w => { w with spareOut := w.spareOut ++ [(p, reason)] }
    else if s.role spare = 1 ∧ (s.fab.handovers.getD b none).isNone ∧ !(s.pwr.spareOut.any fun e => e.1 == spare) then
      (if boot then
        (s1.setFs [(F.BAND_SLOTMAP_IDLE_SLOT b, slotOf p), (F.BAND_SLOTMAP_IDLE_RETIRED b, 1), (F.CORE_IDENT_ROLE p, 2),
          (F.CORE_IDENT_ROLE spare, 0), (F.CORE_IDENT_LOGICAL spare, s.getF (F.CORE_IDENT_LOGICAL p)), (F.CORE_IDENT_LOGICAL p, 0)]).retireRecord
            p reason idle
       else s1.decideHandover b (slotOf p) idle true reason)
    else if reason = 5 then s1.stopCore p
    else s1.exhaust p reason

/-- WF_HARD has counted in a step (R149, R526, R527): `before` is its value before the step. A parity error of an
exhausted core that recurs after WF_HARD has reached 4 stops it. -/
def State.hardParity (s : State) (p before : Nat) : State :=
  if s.getF (F.CORE_WFILE_WF_HARD p) ≤ before then s
  else if s.getF (F.PWR_WX_STATE_EXHAUSTED p) = 1 ∧ 4 ≤ before then s.stopCore p
  else s.retire p 3 false

/-- SCRATCHPAD_MAP_OUT (R214, R526). -/
def State.spadMapOutStep (s : State) (i : EccAt) : State :=
  let r := s.spadMapOut i
  if r.2 then r.1.retire i.unit 4 false else r.1

/-! ### Measurement (R521, R524, R529) -/

/-- The good-bin counts of a core after a measurement (R524 row 5). -/
def State.countGood (s : State) (p : Nat) (slack : Int) (c : Nat) : State :=
  let ok := safeBins slack c (s.getF F.PWR_WX_CFG_G_BIN + s.getF F.PWR_WX_CFG_G_HYST)
  s.onPwr fun w => { w with good := (List.range 4).foldl (fun m b =>
    SMap.set 0 m (4 * p + b) (if ok.contains b then SMap.get 0 m (4 * p + b) + 1 else 0)) w.good }

/-- CORE_PLAN (R524, R527) for a core measured at bin `c`. `raised`: VSET has risen in this measurement. -/
def State.planCore (s : State) (p : Nat) (slack : Int) (c : Nat) (raised : Bool) : State × Bool :=
  let safe := safeBins slack c (s.getF F.PWR_WX_CFG_G_BIN)
  let plan := s.getF (F.CORE_CLK_BIN_PLAN p)
  let slower : Bool := match safe.head? with | some b => decide (plan < b) | none => true
  let good := safe.filter fun b => s.sufficient b
  let vset := s.getF F.PWR_VCORE_VSET
  let vmax := s.getF F.PWR_VCORE_VMAX
  if s.getF (F.PWR_WX_STATE_EXHAUSTED p) = 1 ∨ s.getF (F.PWR_WX_STATE_STOPPED p) = 1 then
    let s1 := s.setPlan p (safe.head?.getD 3) (s.getF (F.PWR_WX_STATE_REASON p))
    (if vmax ≤ vset ∧ slackAt slack c 3 < 273 * ((s.getF F.PWR_WX_CFG_G_STOP : Nat) : Int) then s1.stopCore p else s1, raised)
  else if slower ∧ (raised ∨ vset < vmax) then
    (if raised then s else s.setVset (vset + 1), true)
  else if good = [] then (s.retire p (if safe = [] then 1 else 2) false, raised)
  else if slower then ((s.setPlan p (good.headD 3) 1).incF F.PWR_WX_CNT_DEMOTES 1, raised)
  else if (List.range plan).any fun b => decide (10 ≤ SMap.get 0 s.pwr.good (4 * p + b)) && s.sufficient b then
    ((s.setPlan p (plan - 1) 1).incF F.PWR_WX_CNT_PROMOTES 1, raised)
  else (s, raised)

/-- The registers of a measured core (R521, R522, R533). SAFE_BIN without a safe bin is a free value. -/
def State.noteMeas (s : State) (m : Meas) (c : Nat) : State :=
  let safe := (safeBins m.slack c (s.getF F.PWR_WX_CFG_G_BIN)).head?
  let f := s.fresh
  let s1 := if safe.isSome then s else f.2
  ((s1.setFs [(F.PWR_WX_SLACK_SLACK m.core, unsext 16 m.slack), (F.PWR_WX_SLACK_AGE m.core, m.age),
    (F.PWR_WX_STATE_SAFE_BIN m.core, safe.getD f.1)]).countGood m.core m.slack c).onPwr fun w => { w with
      measBin := SMap.set 0 w.measBin m.core c }

/-- The test that RESTORE asked for (R529): a core measured at bin `c`. -/
def State.restoreTest (s : State) (m : Meas) (c : Nat) : State :=
  let p := m.core
  let b := bandOf p
  let reason := s.getF (F.PWR_WX_STATE_REASON p)
  let bins := (safeBins m.slack c (s.getF F.PWR_WX_CFG_G_BIN + s.getF F.PWR_WX_CFG_G_HYST)).filter fun k => s.sufficient k
  let s0 := s.onPwr fun w => { w with restore := none }
  if (reason ≠ 1 ∧ reason ≠ 2) ∨ bins = [] then s0.incF F.PWR_WX_CNT_RESTORE_FAIL 1
  else
    let s1 := s0.setF (F.PWR_WX_STATE_REASON p) 6
    if s.getF (F.PWR_WX_STATE_STOPPED p) = 1 then
      (s1.setFs [(F.PWR_WX_STATE_STOPPED p, 0), (F.PWR_WX_STATE_EXHAUSTED p, 0)]).ledger 8 p (toLe 1 (s.role p))
    else if slotOf p = 8 then s1.onPwr fun w => { w with spareBack := w.spareBack ++ [p] }
    else s1.decideHandover b 8 (slotOf p) false 6

/-- One core of a measurement (R521): one taken while BIN_DIP is 1 or the bin changes is discarded, a test for RESTORE
included. -/
def State.measureCore (r : State × Bool) (m : Meas) : State × Bool :=
  let s := r.1
  let p := m.core
  let c := s.getF (F.CORE_CLK_BIN_EFF p)
  let moving := decide (c ≠ min 3 (s.getF (F.CORE_CLK_BIN_PLAN p) + s.getF (F.CORE_CLK_BIN_DIP p)))
  if 72 ≤ p ∨ s.getF (F.CORE_CLK_BIN_DIP p) = 1 ∨ moving then r
  else if s.pwr.restore = some p ∧ (s.role p = 2 ∨ s.getF (F.PWR_WX_STATE_STOPPED p) = 1) then
    ((s.noteMeas m c).restoreTest m c, r.2)
  else if 2 ≤ s.role p then r
  else
    let s1 := s.noteMeas m c
    if s.role p = 0 then s1.planCore p m.slack c r.2
    else if safeBins m.slack c (s.getF F.PWR_WX_CFG_G_BIN) = [] then (s1.retire p 1 false, r.2)
    else (s1, r.2)

/-- WEATHERING_MEASUREMENT (R521): at boot-complete and every PERIOD × 100 ms after. `ms`: what the monitors of the
cores found, in order of physical number. -/
def State.weatherMeasure (s : State) (ms : List Meas) : State :=
  if s.getF F.DEV_BOOT_COMPLETE = 0 then s
  else
    let period := max 1 (s.getF F.PWR_WX_CFG_PERIOD) * 150000000
    let s1 := (s.waitUntil s.pwr.wxDue).onPwr fun w => { w with wxDue := s.pwr.wxDue + period }
    if s.pstate = 2 then s1 else (ms.foldl State.measureCore (s1, false)).1

/-- RESTORE_REQUEST (R529): a write of RESTORE with CORE = p. -/
def State.restoreAsk (s : State) : State :=
  let p := s.getF F.PWR_WX_CTRL_CORE
  if p < 72 ∧ (s.role p = 2 ∨ s.getF (F.PWR_WX_STATE_STOPPED p) = 1) then s.onPwr fun w => { w with restore := some p } else s

/-- What the boundary does for the monitors (R524, R526, R529): plans and spares. A core of a gated band stays in ROLE 3 (R28), and
has the other role when its band is powered again (R511). -/
def State.weatherBoundary (s : State) : State :=
  let s1 := s.pwr.planNext.foldl (fun (s : State) e =>
    (s.setF (F.CORE_CLK_BIN_PLAN e.1) (e.2 - 1)).onCore e.1 fun c => { c with binFrom := s.now }) s
  let s2 := s1.pwr.spareOut.foldl (fun (s : State) e =>
    (s.setFs [(F.CORE_IDENT_ROLE e.1, if s.gated (bandOf e.1) then 3 else 2), (F.BAND_SLOTMAP_IDLE_RETIRED (bandOf e.1), 1)]).retireRecord e.1 e.2 0xFF) s1
  let s3 := s2.pwr.spareBack.foldl (fun (s : State) p =>
    (s.setFs [(F.CORE_IDENT_ROLE p, if s.gated (bandOf p) then 3 else 1), (F.BAND_SLOTMAP_IDLE_RETIRED (bandOf p), 0)]).ledger 8 p (toLe 1 1)) s2
  s3.onPwr fun w => { w with planNext := [], spareOut := [], spareBack := [] }

end Sys2Proof.Machine
end

