-- ==== Sys2Proof/Machine/ChecksTime.lean ====
section
/-! DEFINITION. Load checks 7 to 10 of R291 over the decoded program: lists, windows and semaphores, clauses with the
records beside them, and the almanac. -/
namespace Sys2Proof
open Sys2Proof.Machine

/-! ### Check 7: lists (R237) -/

/-- Modes that name a schedule, in ascending MODE_ID, with the buckets they name it for (R572). -/
def Program.modesOf (p : Program) (k : Nat) : List (Mode × List Nat) :=
  ((List.range 8).filterMap p.mode).filterMap fun m =>
    let bs := (List.range 5).filter fun n => bit m.buckets n && decide (m.sched.getD n 0xFF = k)
    if bs = [] then none else some (m, bs)

/-- Output lines that an almanac entry acts for in some frame (R47, R49), counted in the frame to which they belong. -/
def actLines (e : AlmEntry) (m : Mode) : List Nat :=
  (m.lengths.flatMap fun (v : Nat) => m.lengths.flatMap fun (w : Nat) => (List.range v).filterMap fun (x : Nat) =>
    if e.names v x then
      let y := (x : Int) + e.lead
      some (if y < 0 then y + w else if (v : Int) ≤ y then y - v else y).toNat
    else none).eraseDups

/-- Clauses whose static schedule starts a list of a core (R231, R233). -/
def Schedule.starters (sc : Schedule) (band : Bool) (unit id : Nat) : List ClauseDesc :=
  if band then [] else ((sc.cores.getD unit {}).starts.filter fun q => q.1 == id).filterMap fun q => sc.clause q.2

/-- Run lines of a clause's threads in a core: the active output lines, or the lines of its band's stripe (R260). -/
def ClauseDesc.runLines (c : ClauseDesc) (ms : List Mode) (core : Nat) : List Nat :=
  (ms.flatMap fun m =>
    if c.frame then
      (List.range (stripeHeight c.h (2 ^ c.stripeU) m.nBands (core / 8))).map (· + stripeY0 c.h (2 ^ c.stripeU) m.nBands (core / 8))
    else List.range m.vActive).eraseDups

/-- Line bases that a list receives (R233, R237): from kind-0 entries, and from the run lines of the threads that start it. -/
def Schedule.listBases (sc : Schedule) (ms : List Mode) (band : Bool) (unit id : Nat) (entry : List Byte) : List Nat :=
  (((sc.almanac.filter fun e => e.kind == 0 && bits e.arg 0 6 == id && bit e.arg 8 == band &&
      (if band then bit e.bands unit else bit e.bands (unit / 8) && bit e.cores (unit % 8))).flatMap fun e =>
    ms.flatMap fun m => (actLines e m).map (lineBase entry)) ++
   (sc.starters band unit id).flatMap fun c => (c.runLines ms unit).map (lineBase entry)).eraseDups

/-- A list that an almanac entry starts. -/
def Schedule.almStarts (sc : Schedule) (band : Bool) (unit id : Nat) : Bool :=
  sc.almanac.any fun e => e.kind == 0 && bits e.arg 0 6 == id && bit e.arg 8 == band &&
    (if band then bit e.bands unit else bit e.bands (unit / 8) && bit e.cores (unit % 8))

/-- Reason 1 of R237 for a descriptor. -/
def descReserved (raw : List Byte) : Bool :=
  let d := Desc.parse raw
  decide (2 < d.op) || bit (leAt raw 0 1) 7 || decide (16 ≤ leAt raw 3 1) || !within 1 4096 d.ny || !within 1 4096 d.nx ||
  !within 1 8 d.ssy || !within 1 8 d.ssx || bit (leAt raw 17 1) 7 || bit (leAt raw 18 1) 7 || decide (leNat (sliceB raw 28 4) ≠ 0)

/-- Lines from `l0`, `n` of them `st` apart, lie in a padded height. -/
def linesIn (l0 : Int) (n st ph : Nat) : Bool := decide (0 ≤ l0) && decide (l0 + ((n - 1) * st : Nat) < ph)

/-- Reasons 2 to 6 of R237 for a descriptor, a source, a destination and a base. -/
def descReason (d : Desc) (sr dr : Prn) (b : Nat) : Option Nat :=
  let off : Int := if d.yrel then b else 0
  if d.op = 1 then none
  else if d.op = 2 then lowest [(2, !linesIn (d.sy0 + off) d.ny d.ssy sr.ph)]
  else lowest [
    (2, !linesIn (d.sy0 + off) d.ny d.ssy sr.ph || !linesIn (d.dy0 + off) d.ny 1 dr.ph ||
      decide (sr.pw < d.sx0 + (d.nx - 1) * d.ssx + 1) || decide (dr.pw < d.dx0 + d.nx)),
    (3, sr.form != dr.form || sr.ch != dr.ch),
    (4, d.zc != sr.zc || (d.zc && (decide (1 < d.ssx) || decide (d.sx0 * sr.nr % 8 ≠ 0) || decide (d.nx * sr.nr % 8 ≠ 0))) ||
      (!sr.zc && dr.zc)),
    (5, dr.place == 2 && (d.dx0 != 0 || d.nx != dr.pw || d.planes != (if dr.quant then [0, 1, 2] else [0]))),
    (6, d.mcast && dr.place != 1)]

/-- Reason 6 of R237 for a descriptor of any OP: MCAST with REMOTE_DST, or with an empty MASK. -/
def descMcastBad (d : Desc) : Bool := d.mcast && (d.remote || d.mask == 0)

/-- CAP of a semaphore of a core's image is not 0: a link is allotted to it (R242). -/
def CoreImage.allots (c : CoreImage) (i : Nat) : Bool := decide (bits (c.sems.getD i 0) 8 7 ≠ 0)

/-- A semaphore of a core's image is an empty one (R254). -/
def CoreImage.emptySem (c : CoreImage) (i : Nat) : Bool := bit (c.sems.getD i 0) 7

/-- Cores whose pronouns a copy writes remotely (R262). -/
def descTargets (d : Desc) (self : Nat) : List Nat :=
  if d.op ≠ 0 then []
  else if d.mcast then (List.range 64).filter fun l => bit d.mask l && decide (l ≠ self)
  else if d.remote then [d.peer] else []

/-- Semaphores that a descriptor's signal reaches, as logical core and number (R241, R243); `l` is none for a band list, which has none of its
own. -/
def descSignals (l : Option Nat) (d : Desc) : List (Nat × Nat) :=
  match d.sig with
  | none => []
  | some i =>
    if d.mcast then ((List.range 64).filter fun k => bit d.mask k).map fun k => (k, i)
    else if d.sigPeer then [(d.peer, i)]
    else l.toList.map fun k => (k, i)

/-- Reason 8: a semaphore that no link allots, or not to that role (R242): a copy into another core waits on an empty semaphore of its own
core and signals a full one of the other (DESIGN CHOICE, log entry 80). A band has no semaphore of its own. `l` is none for a band list. -/
def Schedule.semBad (sc : Schedule) (l : Option Nat) (raw : List Byte) : Bool :=
  let d := Desc.parse raw
  let far := descTargets d (l.getD 64) != []
  let core (k : Nat) : CoreImage := sc.cores.getD k {}
  (match semWait raw with
   | some i => (match l with | some k => !(core k).allots i || (far && !(core k).emptySem i) | none => true)
   | none => false) ||
  (d.sig.isSome && (descSignals l d).isEmpty) ||
  (descSignals l d).any fun q => !(core q.1).allots q.2 || (far && (d.mcast || d.sigPeer) && (core q.1).emptySem q.2)

/-- The first halves of two list entries run the same descriptors on different engines of the line class. -/
def sharesRun (x y : List Byte) : Bool :=
  leAt x 0 1 == leAt y 0 1 && leAt x 1 1 != leAt y 1 1 && decide (leAt x 1 1 < 4) && decide (leAt y 1 1 < 4) &&
  decide (leAt x 2 2 < leAt y 2 2 + leAt y 4 2) && decide (leAt y 2 2 < leAt x 2 2 + leAt x 4 2)

/-- Reason 7 (R231): an engine of the wrong class, or a line-class list some of whose lines a list of another engine runs with the same
descriptors (DESIGN CHOICE, log entry 80). -/
def Schedule.engineBad (sc : Schedule) (ms : List Mode) (band : Bool) (unit id : Nat) (entry : List Byte) : Bool :=
  let eng := leAt entry 1 1
  let table := if band then (sc.bands.getD unit {}).lists else (sc.cores.getD unit {}).lists
  let bases := sc.listBases ms band unit id entry
  if band then decide (2 ≤ eng) || table.zipIdx.any fun e => sharesRun entry e.1 && (sc.listBases ms band unit e.2 e.1).any fun b => bases.contains b
  else
    (decide (4 ≤ eng) && (sc.almStarts band unit id || (sc.starters band unit id).any fun c => !c.frame)) ||
    (decide (eng < 4) && (sc.starters band unit id).any fun c => c.frame) ||
    table.zipIdx.any fun e => sharesRun entry e.1 && (sc.listBases ms band unit e.2 e.1).any fun b => bases.contains b

/-- One list of a core or band. `rd` reads DRAM. -/
def Schedule.listReason (sc : Schedule) (rd : Nat → Nat → List Byte) (ms : List Mode) (band : Bool) (unit id : Nat) (entry : List Byte) :
    Option Nat :=
  let prn (n : Nat) : Prn :=
    if band then (sc.bands.getD unit {}).prn n else (sc.cores.getD unit {}).prn n
  let r := prn (leAt entry 0 1)
  let bases := sc.listBases ms band unit id entry
  let eng := leAt entry 1 1
  if leAt entry 7 1 = 0 ∨ !within 1 4096 (leAt entry 4 2) ∨ 8 ≤ eng ∨ r.form ≠ 5 ∨ (r.place ≠ 1 ∧ r.place ≠ 3) then some 1
  else
    let place := if band then (unit, 64) else (unit / 8, unit)
    let rs : List Nat := (listRaws rd (sc.copies rd) r place.1 place.2 entry).flatMap fun raw =>
      let d := Desc.parse raw
      let dsts : List Prn := if d.mcast then ((List.range 64).filter fun l => bit d.mask l).map fun l => (sc.cores.getD l {}).prn d.dst
        else if d.remote then [(sc.cores.getD d.peer {}).prn d.dst] else [prn d.dst]
      (if descReserved raw then [1] else []) ++
      ((if bases = [] then [0] else bases).flatMap fun b => dsts.filterMap fun q =>
        if bases = [] ∧ d.yrel then none else descReason d (prn d.src) q b) ++
      (if descMcastBad d then [6] else []) ++
      (if sc.semBad (if band then none else some unit) raw then [8] else [])
    let cls : List Nat := if sc.engineBad ms band unit id entry then [7] else []
    match rs ++ cls with
    | [] => none
    | x :: xs => some (xs.foldl min x)

/-- Check 7. An entry of zeros is unused. -/
def Program.checkLists (p : Program) (rd : Nat → Nat → List Byte) : Option LoadFail :=
  p.scheds.zipIdx.findSome? fun s =>
    let ms := (p.modesOf s.2).map (·.1)
    let table (band : Bool) (unit scope : Nat) (l : List (List Byte)) : Option LoadFail :=
      l.zipIdx.findSome? fun e =>
        if leNat e.1 = 0 then none
        else (s.1.listReason rd ms band unit e.2 e.1).map fun r =>
          { check := 7, reason := r, sched := s.2, unit := unit, scope := scope, object := e.2 }
    firstFail ((s.1.cores.zipIdx.map fun c => table false c.2 2 c.1.lists) ++
      (s.1.bands.zipIdx.map fun b => table true b.2 3 b.1.lists))

/-! ### Check 8: windows and semaphores (R242, R265) -/

/-- Reason 1: a window entry. -/
def winBad (c : CoreImage) (w : List Byte) : Bool :=
  decide ((c.prn (leAt w 0 1)).place ≠ 1) || decide (64 ≤ leAt w 1 1) || decide (64 ≤ leAt w 2 1) ||
  (decide (63 < leAt w 3 1) && decide (leAt w 3 1 ≠ 255)) || decide (leNat (sliceB w 4 4) ≠ 0)

/-- Reason 3: INIT and CAP of a semaphore (R242): a full one starts at 0, an empty one at its capacity. -/
def semInitBad (w : Nat) : Bool :=
  decide (64 < bits w 8 7) || decide (bits w 16 7 ≠ (if bit w 7 then bits w 8 7 else 0))

/-- Reason 3: two windows of one core name one full semaphore for different senders, or one that is no full semaphore. -/
def winSemBad (c : CoreImage) (ws : List (List Byte)) (w : List Byte) : Bool :=
  bit (c.sems.getD (leAt w 2 1) 0) 7 || ws.any fun x => leAt x 2 1 == leAt w 2 1 && leAt x 1 1 != leAt w 1 1

/-- Who signals semaphore `i` of core `l`: the logical core of each list whose descriptors do, 8b for one of band b (log entry 91), and the sender
whose window names it as the link's full semaphore (R265). -/
def Schedule.signallers (sc : Schedule) (ds : List (Option Nat × Nat × List Byte × List Byte)) (l i : Nat) : List Nat :=
  ((ds.filterMap fun q => if (descSignals q.1 (Desc.parse q.2.2.2)).contains (l, i) then some (q.1.getD (8 * q.2.1)) else none) ++
    (((sc.cores.getD l {}).wins.filter fun w => leNat w ≠ 0 ∧ leAt w 2 1 = i).map fun w => leAt w 1 1)).eraseDups

/-- Reason 3: a semaphore of core `l` allotted to two links (R242): two senders signal it, or its core's lists wait on it for copies into two
cores. DESIGN CHOICE (log entry 80): links are read from the lists and the windows. -/
def Schedule.semShared (sc : Schedule) (ds : List (Option Nat × Nat × List Byte × List Byte)) (l i : Nat) : Bool :=
  decide (1 < (sc.signallers ds l i).length) ||
  decide (1 < ((ds.flatMap fun q => let d := Desc.parse q.2.2.2
    if q.1 = some l ∧ semWait q.2.2.2 = some i ∧ !d.mcast then descTargets d l else []).eraseDups).length)

/-- What the lists of a core or band write remotely (R262): list, core, pronoun. `prn` reads its pronoun table; `band` and `self` say whose it
is. -/
def Schedule.remoteWrites (sc : Schedule) (rd : Nat → Nat → List Byte) (prn : Nat → Prn) (band self : Nat) (lists : List (List Byte)) :
    List (Nat × Nat × Nat) :=
  lists.zipIdx.flatMap fun e => (listRaws rd (sc.copies rd) (prn (leAt e.1 0 1)) band self e.1).flatMap fun raw =>
    let d := Desc.parse raw
    (descTargets d self).map fun l => (e.2, l, d.dst)

/-- Reason 2: the first list that writes remotely a pronoun that no window of its core names. -/
def Schedule.unwindowed (sc : Schedule) (rd : Nat → Nat → List Byte) (prn : Nat → Prn) (band self : Nat) (lists : List (List Byte)) : Option Nat :=
  ((sc.remoteWrites rd prn band self lists).find? fun e =>
    !((sc.cores.getD e.2.1 {}).wins.any fun w => leNat w ≠ 0 && leAt w 0 1 == e.2.2)).map (·.1)

/-- Check 8. -/
def Program.checkWindows (p : Program) (rd : Nat → Nat → List Byte) : Option LoadFail :=
  p.scheds.zipIdx.findSome? fun s => (s.1.cores.zipIdx.findSome? fun c =>
    let used := c.1.wins.filter fun w => leNat w ≠ 0
    let mk (r o : Nat) : LoadFail := { check := 8, reason := r, sched := s.2, unit := c.2, scope := 2, object := o }
    firstFail [
      c.1.wins.zipIdx.findSome? fun w =>
        if leNat w.1 = 0 then none else (lowest [(1, winBad c.1 w.1), (3, winSemBad c.1 used w.1)]).map fun r => mk r w.2,
      (s.1.unwindowed rd c.1.prn (c.2 / 8) c.2 c.1.lists).map (mk 2),
      c.1.sems.zipIdx.findSome? fun q => if semInitBad q.1 || s.1.semShared (s.1.listDescs rd (s.1.copies rd)) c.2 q.2 then some (mk 3 q.2) else none]).or
    (s.1.bands.zipIdx.findSome? fun b =>
      (s.1.unwindowed rd b.1.prn b.2 64 b.1.lists).map fun i =>
        { check := 8, reason := 2, sched := s.2, unit := b.2, scope := 3, object := i })

/-! ### Check 9: clauses and the records beside them -/

/-- Some line clause claims thread 1 (R159). -/
def Schedule.thread1Line (sc : Schedule) : Bool := sc.lineClauses.any fun c => c.threaded

/-- Reason 1: threads claimed (R159), thread 3 kept for Drizzle (R342). -/
def Schedule.threadsBad (sc : Schedule) (i : Nat) (c : ClauseDesc) : Bool :=
  let t := sc.threads.getD i 0
  let sub (m : Nat) : Bool := decide (t &&& m = t)
  if !c.frame then decide (t ≠ (if c.threaded then 3 else 1))
  else if sc.drzClause = some c.id then decide (t ≠ 8)
  else t == 0 || !sub (if c.threaded then 14 else 2) || (sc.thread1Line && bit t 1) || (sc.bindRaw.isSome && bit t 3)

/-- A pronoun entry without its BASE. -/
def prnButBase (e : List Byte) : List Byte := e.take 16 ++ e.drop 21

/-- Reason 6: output pairs (R299): PLACE 3, equal but for BASE, under the same numbers in every core. -/
def Schedule.pairsBad (sc : Schedule) (c : ClauseDesc) : Bool :=
  (c.pairs.take c.outs).any fun q => sc.cores.any fun k =>
    let w := padTo 32 (k.prns.getD q.1 [])
    let m := padTo 32 (k.prns.getD q.2 [])
    let w0 := padTo 32 ((sc.cores.getD 0 {}).prns.getD q.1 [])
    decide ((Prn.parse w).place ≠ 3) || decide (prnButBase w ≠ prnButBase m) || decide (prnButBase w ≠ prnButBase w0)

/-- Reason 7: a line clause that names frame-class entries. -/
def Program.frameTiles (p : Program) (sc : Schedule) (c : ClauseDesc) : Bool :=
  !c.frame && sc.cores.any fun k => (List.range c.layerCount).any fun j =>
    let d := k.layer (c.firstLayer + j)
    d.engine == 0 && !d.adapt && p.msets.any fun m => (List.range d.tileCount).any fun i => m.classOf (d.tileFirst + i) == .frame

/-- Input columns that a layer reads beyond its own segment on the side where it reads more of them (R176, R245): PAD_L on the left, and on
the right what the last tap of the last position reaches past it. The passes of a split filter count once, with the whole filter. -/
def MapRec.beyond (m : MapRec) : Nat :=
  if m.tapY0 ≠ 0 ∨ m.tapX0 ≠ 0 then 0 else max m.padL ((m.fullKw - 1) * m.dw - m.padL - (m.sw - 1))

/-- Horizontal reach of a line clause in a core (R245): the sum over its layers in output columns. DESIGN CHOICE (log entry 62): a position of
the last layer's output is as many output columns as its shuffle makes of it, a position of a layer's input that many divided by the strides
from it to the end, rounded up. -/
def CoreImage.reach (k : CoreImage) (c : ClauseDesc) : Nat :=
  let m (j : Nat) : MapRec := MapRec.parse (k.mapOf (k.layer (c.firstLayer + j)))
  let s := (k.layer (c.firstLayer + c.layerCount - 1)).s
  ((List.range c.layerCount).map fun j =>
    ceilDiv ((m j).beyond * s) (((List.range c.layerCount).drop j).foldl (fun a i => a * max 1 (m i).sw) 1)).sum

/-- Reason 2, second part: REACH of a line clause unequal to the sum of its layers' reach in some core (R245). -/
def Schedule.reachBad (sc : Schedule) (c : ClauseDesc) : Bool := !c.frame && sc.cores.any fun k => decide (c.reach ≠ k.reach c)

/-- The reasons of a clause that need no mode. -/
def Program.clauseReason (p : Program) (sc : Schedule) (i : Nat) (raw : List Byte) : Option Nat :=
  let c := ClauseDesc.parse raw
  lowest [(1, sc.threadsBad i c), (2, sc.reachBad c), (3, !c.frame && c.barriers != 0),
    (5, !ClauseDesc.fieldsOk raw || ((sc.clauses.take i).any fun q => q.id == c.id) ||
      (c.frame && (List.range 8).any fun g => bit c.barriers g && decide (sc.barriers.length ≤ g))),
    (6, c.frame && sc.pairsBad c), (7, p.frameTiles sc c)]

/-- Reasons 2 and 4 of a clause in a mode (R245, R260). -/
def Schedule.clauseGeom (sc : Schedule) (m : Mode) (c : ClauseDesc) : Option Nat :=
  let u := 2 ^ c.stripeU
  let small := ((List.range m.nCores).map fun l => segWidth m.w sc.segUnit m.nCores l).foldl min m.w
  lowest [(2, !c.frame && decide (small < 2 * c.reach)),
    (4, c.frame && (decide (c.h % u ≠ 0) || decide (c.h / u < m.nBands)))]

/-- The conditions of R309 on a schedule's re-timing record; `depth` is DEPTH of the history. -/
def Program.rtOk (p : Program) (k : Nat) (sc : Schedule) (depth : Nat) : Bool :=
  let r := sc.rt
  RtRec.fieldsOk sc.rtRaw &&
  (r.lag == 0 || (
    decide (r.lag + 5 ≤ depth) &&
    (match sc.frameClauses[r.mclause]? with
     | none => false
     | some c =>
       let q := c.pairs.getD r.mpair (0, 0)
       decide (r.mpair < c.outs) &&
       (sc.cores.all fun i => [q.1, q.2].all fun n => (i.prn n).form == 2 && (i.prn n).ch == 3 &&
         (p.modesOf k).all fun x => x.2.all fun b => let sz := bucketSize b
           (i.prn n).lh == ceilDiv sz.2 (2 ^ r.bsLog) && (i.prn n).lw == ceilDiv sz.1 (2 ^ r.bsLog))) &&
    (let okRing (w : Prn) : Bool := w.place == 2 && w.form == 4 && w.ch == 10 && w.fb
     (sc.bands.all fun b => okRing (Prn.parse (padTo 32 (b.prns.getD r.warpPrn [])))) && sc.cores.all fun c => okRing (c.prn r.warpPrn))))

/-- No list of a line clause reads the motion field's pronouns (R309): lists on line-class engines of a core, and a band's. A pronoun is read
under its own number or another that names the same buffer. -/
def Schedule.fieldUnread (sc : Schedule) (rd : Nat → Nat → List Byte) : Bool :=
  match sc.frameClauses[sc.rt.mclause]? with
  | none => true
  | some c =>
    let q := c.pairs.getD sc.rt.mpair (0, 0)
    let field := sc.cores.flatMap fun k => [prnStands (k.prn q.1) 0 0, prnStands (k.prn q.2) 0 0]
    sc.rt.lag == 0 || (sc.listDescs rd (sc.copies rd)).all fun e =>
      let d := Desc.parse e.2.2.2
      let r := match e.1 with
        | some l => (sc.cores.getD l {}).prn d.src
        | none => (sc.bands.getD e.2.1 {}).prn d.src
      (e.1.isSome && decide (4 ≤ leAt e.2.2.1 1 1)) || d.op != 0 || !field.contains (prnStands r 0 0)

/-- The ranges and pronouns of a detection record (R322, R323). -/
def Schedule.detOk (sc : Schedule) : Bool :=
  match sc.detRaw with
  | none => true
  | some b =>
    let r := DetRec.parse b
    DetRec.fieldsOk b &&
    (match sc.frameClauses[r.clause]? with
     | none => false
     | some c =>
       decide (r.boxPair < c.outs) && (r.rastPair == 0xFF || decide (r.rastPair < c.outs)) && sc.cores.all fun k =>
         let h := k.prn r.headPrn
         let q := k.prn (c.pairs.getD r.boxPair (0, 0)).1
         let s := k.prn (c.pairs.getD r.rastPair (0, 0)).1
         h.place == 3 && h.form == 2 && padTo 32 (k.prns.getD r.headPrn []) == padTo 32 ((sc.cores.getD 0 {}).prns.getD r.headPrn []) &&
         h.ch == r.a * (4 + r.k) && h.lh == r.gh && h.lw == r.gw && q.form == 5 &&
         (r.rastPair == 0xFF || (s.form == 4 && s.ch == 8)))

/-- The ranges and pronouns of a Drizzle binding (R342); `t` is the most adapter tiles that a model set of the container has. -/
def Schedule.bindOk (sc : Schedule) (t : Nat) : Bool :=
  match sc.bindRaw with
  | none => true
  | some b =>
    let r := DrzBind.parse b
    decide (r.sampleSem < 64) && within 1 4 r.spc && within 1 32 r.ngd && within 1 16 r.commitEvery && decide (leAt b 12 1 ≤ 3) && decide (leAt b 15 1 = 0) &&
    (match sc.frameClauses[r.clause]? with
     | none => false
     | some c => c.outs == 0 && sc.cores.all fun k => (List.range c.layerCount).all fun j => !(k.layer (c.firstLayer + j)).adapt) &&
    sc.cores.all fun k =>
      let sp := k.prn r.samplePrn
      let g := k.prn r.gsumPrn
      let pg := k.prn r.pagePrn
      let h := k.prn r.histPrn
      sp.place == 1 && sp.form == 4 && sp.ch == 3 && sp.lh == 64 * r.spc && sp.lw == 64 &&
      padTo 32 (k.prns.getD r.samplePrn []) == padTo 32 ((sc.cores.getD 0 {}).prns.getD r.samplePrn []) && !k.emptySem r.sampleSem &&
      g.place == 3 && g.form == 3 && decide (t * 64 * (64 * 64 * 4) ≤ g.size) &&
      pg.place == 3 && pg.form == 5 && h.place == 3 && h.form == 5 && h.ch == 512

/-- A positive finite binary16 pattern. -/
def f16Positive (h : Nat) : Bool := decide (f16Bad h = 0) && Frac.zero.lt (f16Val h)

/-- A model set's Drizzle record (R331). -/
def ModelSet.drzOk (m : ModelSet) (rd : Nat → Nat → List Byte) : Bool :=
  m.t == 0 ||
  (let b := m.drzRaw
   let r := DrzRec.parse b
   let cbs := rd (m.base + r.cbOff) 640
   let master := (Codebook.parse (sliceB cbs 120 520)).c
   decide (r.t = m.t) && within 1 15 r.b1 && within 1 15 r.b2 && decide (leAt b 3 1 ≤ 1) && f16Positive r.lr && f16Positive r.eps &&
   m.holds r.gSlot && !(m.cb r.gSlot).big && decide (leNat (sliceB b 9 3) = 0) && decide (leNat (sliceB b 24 40) = 0) &&
   ([0, 40, 80].all fun o => byteAt cbs o == 0) && byteAt cbs 120 == 1 && sliceB cbs 0 40 == padTo 40 (m.cbs.getD r.gSlot []) &&
   ((List.range 254).all fun i => decide (master.getD i 0 < master.getD (i + 1) 0)) &&
   ((rd (m.base + r.mapOff) 256).all fun x => decide (x.toNat ≤ 14)))

/-- The codebook of the adapter layers has 16 entries (R331). -/
def Program.adaptCbOk (p : Program) (m : ModelSet) : Bool :=
  m.t == 0 || p.scheds.all fun s => s.cores.all fun c => (List.range c.layers.length).all fun i =>
    !(c.layer i).adapt || !(m.cb (c.layer i).wCb).big

/-- Check 9. -/
def Program.checkClauses (p : Program) (rd : Nat → Nat → List Byte) (depth : Nat) : Option LoadFail :=
  let mk (k o r : Nat) : LoadFail := { check := 9, reason := r, sched := k, scope := 1, object := o }
  firstFail ((p.scheds.zipIdx.map fun s => firstFail ([
      s.1.clRaw.zipIdx.findSome? fun c => (p.clauseReason s.1 c.2 c.1).map (mk s.2 c.2),
      if p.rtOk s.2 s.1 depth && s.1.fieldUnread rd then none else some (mk s.2 0xFFF0 5),
      if s.1.detOk then none else some (mk s.2 0xFFF1 5),
      if s.1.bindOk ((p.sets.map fun m => m.1.t).foldl max 0) then none else some (mk s.2 0xFFF2 5)] ++
      (p.modesOf s.2).map fun m => s.1.clauses.zipIdx.findSome? fun c => (s.1.clauseGeom m.1 c.1).map (mk s.2 c.2))) ++
    (p.sets.map fun m => if m.1.drzOk rd && p.adaptCbOk m.1 then none else some (mk m.2 0xFFF3 5)))

/-! ### Check 10: the almanac (R47 to R50, R60, R271, R300, R379, R572) -/

/-- Firings of an entry in a frame of `v` lines: which frame its line belongs to (−1, 0, 1), and when, in phase units
from line 0. -/
def actTimes (e : AlmEntry) (v : Nat) : List (Int × Nat) :=
  (List.range v).filterMap fun (x : Nat) =>
    if e.names v x then
      let y := (x : Int) + e.lead
      some (if y < 0 then -1 else if (v : Int) ≤ y then 1 else 0, 4096 * x + e.phase)
    else none

/-- Two kind-5 or kind-6 entries keep the order of R379: `first` tells that `a` stands before `b`. -/
def applyOrder (a b : AlmEntry) (first : Bool) (m : Mode) : Bool :=
  let inOne := m.lengths.all fun v => (actTimes a v).all fun x => (actTimes b v).all fun y =>
    decide (x.1 = y.1) || (if x.1 < y.1 then decide (x.2 < y.2) || (first && decide (x.2 = y.2)) else decide (y.2 < x.2) || (!first && decide (x.2 = y.2)))
  let early (e : AlmEntry) : Bool := m.lengths.any fun v => (actTimes e v).any fun x => x.1 == 1
  let late (e : AlmEntry) : Bool := m.lengths.any fun v => (actTimes e v).any fun x => x.1 == -1
  inOne && !(early a && late b) && !(early b && late a) && !(early a && late a)

/-- Reason 1 for entry `i`. -/
def Schedule.alm1 (sc : Schedule) (m : Mode) (i : Nat) (e : AlmEntry) : Bool :=
  let back := m.vtMin - m.vActive
  decide (1 < e.base) || decide (7 < e.kind) ||
  (e.base == 1 && (!within 1 back e.lineFirst || (e.lineLast != 0xFFFF && !within 1 back e.lineLast))) ||
  ((e.kind == 5 || e.kind == 6) && (sc.almanac.take (i + 1)).any fun a => (a.kind == 5 || a.kind == 6) && !applyOrder a e true m)

/-- A kind-2 ARG names a line clause whose last layer is a Suffix layer (R48). -/
def Schedule.displays (sc : Schedule) (id : Nat) : Bool :=
  match sc.clause id with
  | some c => !c.frame && (sc.layer 0 (c.firstLayer + c.layerCount - 1)).engine == 2
  | none => false

/-- Kind-1 and kind-2 entries up to `i` that meet entry `i` on some line, as (start, deadline) pairs. -/
def Schedule.metBy (sc : Schedule) (m : Mode) (i : Nat) (e : AlmEntry) : List (AlmEntry × AlmEntry) :=
  let met (a b : AlmEntry) : Bool := m.lengths.any fun v => m.lengths.any fun w => actTogether a b v w m.vActive
  (sc.almanac.take i).filterMap fun a =>
    if e.kind = 1 ∧ a.kind = 2 ∧ met e a then some (e, a)
    else if e.kind = 2 ∧ a.kind = 1 ∧ met a e then some (a, e) else none

/-- Reason 2 for entry `i` (R48, R60). -/
def Schedule.alm2 (sc : Schedule) (m : Mode) (i : Nat) (e : AlmEntry) : Bool :=
  let lim := 1350 * 65536 * 4096 / m.lp
  let twice (a : AlmEntry) : Bool := a.kind == e.kind && (e.kind == 2 || a.arg == e.arg) &&
    m.lengths.any fun v => m.lengths.any fun w => actTogether a e v w m.vActive
  (e.kind == 2 && (decide (e.lead < 1) || !sc.displays e.arg)) ||
  (e.kind == 1 && (match sc.clause e.arg with | some c => c.frame | none => true)) ||
  ((e.kind == 1 || e.kind == 2) && (sc.almanac.take i).any twice) ||
  (sc.metBy m i e).any fun q => decide (phaseBetween q.1 q.2 < 0) || decide ((lim : Int) < phaseBetween q.1 q.2)

/-- Reason 3 for entry `i`: S(y) plus PLAN at 1.5 GHz later than D(y). -/
def Schedule.alm3 (sc : Schedule) (m : Mode) (i : Nat) (e : AlmEntry) : Bool :=
  (sc.metBy m i e).any fun q => decide (phaseBetween q.1 q.2 * m.lp < ((((sc.clause q.1.arg).map (·.plan)).getD 0 * 4096 * 65536 : Nat) : Int))

/-- Reason 4 for entry `i`: D(y) − S(y) below 400 ns (R104). -/
def Schedule.alm4 (sc : Schedule) (m : Mode) (i : Nat) (e : AlmEntry) : Bool :=
  (sc.metBy m i e).any fun q => decide (phaseBetween q.1 q.2 * m.lp < 600 * 65536 * 4096)

/-- Spans from S(y) to D(y) of the lines whose kind-1 entry is one of the first `n` and fires in a frame of `v` lines, in phase units × LP.
D(y) is that of the kind-2 entry that acts for the line: the span runs to the frame's end where D(y) comes in the next frame, and is the
firing alone where that entry is none of the first `n`. -/
def Schedule.lineSpans (sc : Schedule) (m : Mode) (v n : Nat) : List (Nat × Nat) :=
  ((sc.almanac.take n).filter fun e => e.kind == 1).flatMap fun e => (List.range v).filterMap fun (x : Nat) =>
    if e.names v x then
      let t := 4096 * x + e.phase
      let at_ (d : AlmEntry) : Int := (x : Int) + e.lead - d.lead
      let d := sc.almanac.zipIdx.find? fun d => d.1.kind == 2 && decide (0 ≤ at_ d.1) && decide (at_ d.1 < v) && d.1.names v (at_ d.1).toNat
      let stop := match d with
        | some d => if d.2 < n then 4096 * (at_ d.1).toNat + d.1.phase else t
        | none => 4096 * v
      some (t * m.lp, stop * m.lp)
    else none

/-- Windows of the kind-7 entries among the first `n` in a frame of `v` lines (R300). -/
def Schedule.msetSpans (sc : Schedule) (m : Mode) (v n : Nat) : List (Nat × Nat) :=
  ((sc.almanac.take n).filter fun e => e.kind == 7).flatMap fun e => (List.range v).filterMap fun (x : Nat) =>
    if e.names v x then let t := (4096 * x + e.phase) * m.lp; some (t, t + 5480 * 4096 * 65536) else none

/-- Some window of a kind-7 entry among the first `n` has a kind-1 entry among them firing in it, or a line of theirs in flight (R300). -/
def Schedule.windowMet (sc : Schedule) (m : Mode) (n : Nat) : Bool :=
  m.lengths.any fun v => (sc.msetSpans m v n).any fun w => (sc.lineSpans m v n).any fun q =>
    decide (q.1 < w.2) && decide (w.1 < q.2 ∨ w.1 ≤ q.1)

/-- Reason 6 for entry `i`: R300 for a kind-7 entry, and for a window that meets a line, which is the highest of the entries concerned (R572). -/
def Schedule.alm6 (sc : Schedule) (m : Mode) (i : Nat) (e : AlmEntry) (sets : List Nat) : Bool :=
  (e.kind == 7 && (!sets.contains e.arg || ((sc.almanac.take i).any fun a => a.kind == 7 && a.arg == e.arg) ||
    m.lengths.any fun v =>
      let ts := actTimes e v
      decide (ts.length ≠ 1) || ts.any fun t =>
        decide (t.2 < 4096 * m.vActive) || decide (4096 * v * m.lp < t.2 * m.lp + 5480 * 4096 * 65536))) ||
  (!sc.windowMet m i && sc.windowMet m (i + 1))

/-- Step 1 of R572 for one entry. -/
def Schedule.almReason (sc : Schedule) (m : Mode) (sets : List Nat) (i : Nat) (e : AlmEntry) : Option Nat :=
  lowest [(1, sc.alm1 m i e), (2, sc.alm2 m i e), (3, sc.alm3 m i e), (4, sc.alm4 m i e), (6, sc.alm6 m i e sets)]

/-- Some entry of a kind acts for line `y` (R60), whatever the lengths of the frames around. -/
def Schedule.hasLine (sc : Schedule) (m : Mode) (y : Nat) (q : AlmEntry → Bool) : Bool :=
  m.lengths.all fun v => m.lengths.all fun w => sc.almanac.any fun e => q e &&
    (actsIntervals e v w).any fun x => decide (x.1 ≤ (y : Int)) && decide ((y : Int) ≤ x.2)

/-- Step 2 of R572: the first line without its entries. -/
def Schedule.bareLine (sc : Schedule) (m : Mode) : Option Nat :=
  (List.range m.vActive).find? fun y =>
    !(sc.hasLine m y fun e => e.kind == 2) || sc.lineClauses.any fun c => !sc.hasLine m y fun e => e.kind == 1 && e.arg == c.id

/-- A frame of `v` lines has a stretch of 8 µs in its vertical blanking clear of the spans (R271). -/
def clearStretch (m : Mode) (v : Nat) (spans : List (Nat × Nat)) : Bool :=
  let a := 4096 * m.vActive * m.lp
  let need := 12000 * 4096 * 65536
  ((a :: spans.map (·.2)).filter fun t => decide (a ≤ t) && decide (t + need ≤ 4096 * v * m.lp)).any fun t =>
    spans.all fun q => decide (q.2 ≤ t) || decide (t + need ≤ q.1)

/-- Step 3 of R572: reason 5 or 6. A model set without its kind-7 entry is reason 6 (R300). -/
def Schedule.intervalReason (sc : Schedule) (m : Mode) (sets : List Nat) : Option Nat :=
  let n := sc.almanac.length
  if m.lengths.any fun v => !clearStretch m v (sc.lineSpans m v n) then some 5
  else if (m.lengths.any fun v => !clearStretch m v (sc.lineSpans m v n ++ sc.msetSpans m v n)) ||
    sets.any fun k => !(sc.almanac.any fun e => e.kind == 7 && e.arg == k) then some 6
  else none

/-- Check 10: schedules in order, mode by mode (R572). -/
def Program.checkAlmanac (p : Program) : Option LoadFail :=
  p.scheds.zipIdx.findSome? fun s => (p.modesOf s.2).findSome? fun m =>
    let mk (o r : Nat) : LoadFail := { check := 10, reason := r, sched := s.2, scope := 1, object := o }
    firstFail [
      s.1.almanac.zipIdx.findSome? fun e => (s.1.almReason m.1 (p.sets.map (·.2)) e.2 e.1).map (mk e.2),
      (s.1.bareLine m.1).map fun y => mk y 2,
      (s.1.intervalReason m.1 (p.sets.map (·.2))).map (mk 0)]

end Sys2Proof
end

