-- ==== Sys2Proof/Machine/Grain.lean ====
section
/-! DEFINITION. The film grain synthesis process of the AV1 specification under the settings of R359: templates, noise stripes and the
blended line. The process is AV1's (R359); what the spec does not repeat of it is PRESUMED from that specification (log entry 15), its
Gaussian sequence a constant with no body. -/
namespace Sys2Proof

/-! ### Parameters of a block (R363) -/

/-- num_y_points, num_cb_points or num_cr_points. -/
def grainCount (p : List Byte) (c : Nat) : Nat := byteAt p (8 + c)
/-- The (value, scaling) pairs of a channel. -/
def grainPairs (p : List Byte) (c : Nat) : List (Nat × Nat) :=
  (List.range (grainCount p c)).map fun i => let o := [12, 40, 60].getD c 12 + 2 * i; (byteAt p o, byteAt p (o + 1))
/-- grain_scaling_minus_8 + 8. -/
def grainScaling (p : List Byte) : Nat := bits (byteAt p 11) 0 2 + 8
/-- ar_coeff_lag. -/
def grainLag (p : List Byte) : Nat := bits (byteAt p 11) 2 2
/-- ar_coeff_shift_minus_6 + 6. -/
def grainArShift (p : List Byte) : Nat := bits (byteAt p 11) 4 2 + 6
/-- grain_scale_shift. -/
def grainScaleShift (p : List Byte) : Nat := bits (byteAt p 11) 6 2
/-- The auto-regression's coefficient `i` of a channel, without its offset of 128. -/
def grainCoef (p : List Byte) (c i : Nat) : Int := byteAt p ([80, 104, 129].getD c 80 + i) - 128
/-- chroma_scaling_from_luma. -/
def grainFromLuma (p : List Byte) : Bool := bit (byteAt p 4) 2
/-- overlap_flag. -/
def grainOverlap (p : List Byte) : Bool := bit (byteAt p 4) 3

/-- Grain is added to a channel: it has scaling points, or takes luma's. -/
def grainAdds (p : List Byte) (c : Nat) : Bool := grainCount p c != 0 || (c != 0 && grainFromLuma p)

/-! ### Arithmetic -/

/-- AV1's Round2: half of the last place added, then an arithmetic shift. -/
def round2 (x : Int) (n : Nat) : Int := if n = 0 then x else (x + 2 ^ (n - 1)) / 2 ^ n

/-- A grain value's range at 12 bits. -/
def grainClamp (x : Int) : Int := max (-2048) (min 2047 x)

/-- One step of the 16-bit random register. -/
def grainStep (r : Nat) : Nat := r / 2 + 32768 * ((r + r / 2 + r / 8 + r / 4096) % 2)

/-- The top `n` bits of the register after a step. -/
def grainBits (r n : Nat) : Nat := r / 2 ^ (16 - n) % 2 ^ n

/-- An element of a template or of a noise line. -/
def grainAt (rows : List (List Int)) (y x : Nat) : Int := (rows.getD y []).getD x 0

/-! ### Templates: 73 lines of 82 -/

/-- One line of Gaussian values, and the register after it. -/
def gaussLine (shift r : Nat) : List Int × Nat :=
  (List.range 82).foldl (fun (q : List Int × Nat) _ =>
    let r := grainStep q.2
    (q.1 ++ [round2 (Config.gaussian (grainBits r 11)) shift], r)) ([], r)

/-- A channel's 73 lines of Gaussian values from its register; zeros for a channel without grain. -/
def gaussLines (p : List Byte) (c seed : Nat) : List (List Int) :=
  if grainAdds p c then
    ((List.range 73).foldl (fun (q : List (List Int) × Nat) _ =>
      let l := gaussLine (grainScaleShift p) q.2
      (q.1 ++ [l.1], l.2)) ([], seed)).1
  else List.replicate 73 (List.replicate 82 0)

/-- The auto-regression's sum at column `x` of a line: over the `lag` lines above, nearest first, and over the columns before `x`; then the
luma grain at the same place, for a chroma channel where luma has grain. -/
def arSum (p : List Byte) (c : Nat) (above : List (List Int)) (done : List Int) (luma : Option (List Int)) (x : Nat) : Int :=
  let lag := grainLag p
  let wide := 2 * lag + 1
  let up : List Int := (List.range lag).flatMap fun dr => (List.range wide).map fun dc =>
    grainCoef p c (wide * dr + dc) * (above.getD (lag - 1 - dr) []).getD (x + dc - lag) 0
  let left : List Int := (List.range lag).map fun dc => grainCoef p c (wide * lag + dc) * done.getD (x + dc - lag) 0
  up.sum + left.sum + (match luma with
    | some l => grainCoef p c (wide * lag + lag) * l.getD x 0
    | none => 0)

/-- One line of a template behind the auto-regression; the outer three columns are left as they are. -/
def arLine (p : List Byte) (c : Nat) (above : List (List Int)) (raw : List Int) (luma : Option (List Int)) : List Int :=
  raw.zipIdx.foldl (fun done q =>
    done ++ [if 3 ≤ q.2 ∧ q.2 < 79 then grainClamp (q.1 + round2 (arSum p c above done luma q.2) (grainArShift p)) else q.1]) []

/-- A template behind the auto-regression, line by line; the first three lines are left as they are. -/
def arLines (p : List Byte) (c : Nat) (raw : List (List Int)) (luma : Option (List (List Int))) : List (List Int) :=
  (raw.zipIdx.foldl (fun above q =>
    (if q.2 < 3 then q.1 else arLine p c above q.1 (luma.map fun l => l.getD q.2 [])) :: above) []).reverse

/-- The three grain templates of a frame (R359, R360). -/
def grainTemplates (p : List Byte) (seed : Nat) : GrainTpl :=
  let y := arLines p 0 (gaussLines p 0 seed) none
  let luma := if grainCount p 0 = 0 then none else some y
  { y := y
    cb := arLines p 1 (gaussLines p 1 (seed ^^^ 0xB524)) luma
    cr := arLines p 2 (gaussLines p 2 (seed ^^^ 0x49D8)) luma }

/-- The template of a channel. -/
def GrainTpl.chan (t : GrainTpl) (c : Nat) : List (List Int) := if c = 0 then t.y else if c = 1 then t.cb else t.cr

/-! ### Stripes of 32 lines -/

/-- The random offsets (across, down) of a stripe's blocks of 32 columns (R360). -/
def stripeOffsets (seed k w : Nat) : List (Nat × Nat) :=
  let r := seed ^^^ (256 * ((37 * k + 178) % 256)) ^^^ ((173 * k + 105) % 256)
  ((List.range (ceilDiv w 32)).foldl (fun (q : List (Nat × Nat) × Nat) _ =>
    let r := grainStep q.2
    let v := grainBits r 8
    (q.1 ++ [(v / 16, v % 16)], r)) ([], r)).1

/-- Line `i` of a stripe's noise, `i` below 34: each block from its place in the template, its first two columns blended with the last two of
the block before where blocks overlap. -/
def stripeLine (p : List Byte) (tpl : List (List Int)) (offs : List (Nat × Nat)) (i : Nat) : List Int :=
  let at_ (b j : Nat) : Int := let o := offs.getD b (0, 0); grainAt tpl (9 + 2 * o.2 + i) (9 + 2 * o.1 + j)
  (List.range offs.length).flatMap fun b => (List.range 32).map fun j =>
    if grainOverlap p ∧ b ≠ 0 ∧ j < 2 then
      grainClamp (round2 (if j = 0 then 27 * at_ (b - 1) 32 + 17 * at_ b 0 else 17 * at_ (b - 1) 33 + 27 * at_ b 1) 5)
    else at_ b j

/-- A noise line: the stripe's own, its first two blended with the last two of the stripe before where stripes overlap. -/
def noiseLine (p : List Byte) (own : List Int) (before : List (List Int)) (i : Nat) : List Int :=
  if grainOverlap p ∧ i < 2 ∧ before ≠ [] then
    let old := before.getD i []
    own.zipIdx.map fun q => grainClamp (round2 (if i = 0 then 27 * old.getD q.2 0 + 17 * q.1 else 17 * old.getD q.2 0 + 27 * q.1) 5)
  else own

/-- The frame with the stripe of line `y` begun: its offsets are computed, and the last two noise lines of the stripe before are kept
(R360). Templates that are not complete yet are completed. -/
def FrostFrame.atLine (g : FrostFrame) (w y : Nat) : FrostFrame :=
  let t := g.tpl.getD (grainTemplates g.params g.seed)
  let k := y / 32
  if g.stripe = some k then { g with tpl := some t }
  else
    let before := stripeOffsets g.seed (k - 1) w
    { g with
      tpl := some t, stripe := some k, offs := stripeOffsets g.seed k w
      kept := if k = 0 then [] else (List.range 3).map fun c => [32, 33].map (stripeLine g.params (t.chan c) before) }

/-- Noise of a channel on line `y`. -/
def FrostFrame.noise (g : FrostFrame) (c y : Nat) : List Int :=
  noiseLine g.params (stripeLine g.params ((g.tpl.getD {}).chan c) g.offs (y % 32)) (g.kept.getD c []) (y % 32)

/-- The frame with its templates complete (R360); none are asked for where no channel is enabled. -/
def FrostFrame.complete (g : FrostFrame) : FrostFrame :=
  if g.chan = 0 ∨ g.tpl.isSome then g else { g with tpl := some (grainTemplates g.params g.seed) }

/-- Generation of the next frame's templates ends (R360). -/
def FrostSt.done (x : FrostSt) : FrostSt := { x with next := x.next.complete, gen := none }

/-! ### Scaling and blending -/

/-- Piecewise-linear scaling at `i`, from the point before it. -/
def scaleFrom (a : Nat × Nat) : List (Nat × Nat) → Nat → Int
  | [], _ => a.2
  | b :: t, i =>
    if i < b.1 then
      let dx := b.1 - a.1
      a.2 + ((i - a.1 : Nat) * (((b.2 : Int) - a.2) * ((65536 + dx / 2) / dx : Nat)) + 32768) / 65536
    else scaleFrom b t i

/-- The scaling function of a list of points at 0 to 255. -/
def scaleAt : List (Nat × Nat) → Nat → Int
  | [], _ => 0
  | a :: t, i => if i < a.1 then a.2 else scaleFrom a t i

/-- The scaling function at a 12-bit value, interpolated between its places. -/
def scale12 (pts : List (Nat × Nat)) (v : Nat) : Int :=
  let x := v / 16
  if 255 ≤ x then scaleAt pts 255
  else scaleAt pts x + round2 ((scaleAt pts (x + 1) - scaleAt pts x) * (v % 16 : Nat)) 4

/-- The value at which a chroma channel's scaling is taken: luma's, or luma and its own merged by the channel's multipliers and offset. -/
def grainMerged (p : List Byte) (c luma own : Nat) : Nat :=
  if grainFromLuma p then luma
  else
    let o := if c = 1 then 154 else 158
    let sum : Int := luma * ((byteAt p (o + 1) : Int) - 128) + own * ((byteAt p o : Int) - 128)
    (max 0 (min 4095 (sum / 64 + ((bits (leAt p (o + 2) 2) 0 9 : Int) - 256) * 16))).toNat

/-- A component with grain: its noise scaled, within 12 bits or the restricted range where clip_to_restricted_range is set (R359). -/
def grainPixel (p : List Byte) (c at_ v : Nat) (noise : Int) : Nat :=
  let pts := grainPairs p (if grainFromLuma p then 0 else c)
  let x := (v : Int) + round2 (scale12 pts at_ * noise) (grainScaling p)
  let lo : Int := if bit (byteAt p 4) 4 then 256 else 0
  let hi : Int := if bit (byteAt p 4) 4 then (if c = 0 then 3760 else 3840) else 4095
  (max lo (min hi x)).toNat

/-- Frost's output of line `y`, its stripe begun: only enabled channels with grain change (R357). Chroma takes luma as it comes in. -/
def frostLine (g : FrostFrame) (y : Nat) (px : List Pix) : List Pix :=
  if g.chan = 0 then px
  else
    let on (c : Nat) : Bool := bit g.chan c && grainAdds g.params c
    let noise := (List.range 3).map fun c => if on c then g.noise c y else []
    let one (c j luma v : Nat) : Nat :=
      if on c then grainPixel g.params c (if c = 0 then v else grainMerged g.params c luma v) v ((noise.getD c []).getD j 0) else v
    px.zipIdx.map fun q => ⟨one 0 q.2 q.1.c0 q.1.c0, one 1 q.2 q.1.c0 q.1.c1, one 2 q.2 q.1.c0 q.1.c2⟩

end Sys2Proof
end

