-- ==== Sys2Proof/Machine/Frost.lean ====
section
/-! DEFINITION. Frost (R357 to R364): parameters, seeds and the released lines; the sensors (R365 to R370)
and the conditioning vector. -/
namespace Sys2Proof

/-- The frame-index seed (R362). -/
def frameSeed (base m : Nat) : Nat := (base ^^^ (m * 0x9E37 % 2 ^ 16)) % 2 ^ 16

/-- Values of the first n (value, scaling) pairs at an offset. -/
def grainPoints (b : List Byte) (o n : Nat) : List Nat := (List.range n).map fun i => byteAt b (o + 2 * i)
/-- A list rises strictly. -/
def strictRise : List Nat → Bool
  | a :: b :: t => decide (a < b) && strictRise (b :: t)
  | _ => true

/-- What the AV1 film_grain_params syntax and R363 permit beyond the other reasons of R364, at the settings of R359: unused pairs of a channel's
array are zero. Every other field may hold every value of its bits (PRESUMED from the AV1 specification, log entry 15). -/
def grainPermitted (b : List Byte) : Bool :=
  [(12, 14), (40, 10), (60, 10)].zipIdx.all fun q => decide (leNat (sliceB b (q.1.1 + 2 * byteAt b (8 + q.2)) (2 * (q.1.2 - byteAt b (8 + q.2)))) = 0)

/-- The lowest reason for which a parameter block is rejected, 0 for none (R364). -/
def grainReason (b : List Byte) : Nat :=
  let ny := byteAt b 8
  let ncb := byteAt b 9
  let ncr := byteAt b 10
  if 14 < ny ∨ 10 < ncb ∨ 10 < ncr then 1
  else if !(strictRise (grainPoints b 12 ny) && strictRise (grainPoints b 40 ncb) && strictRise (grainPoints b 60 ncr)) then 2
  else if bit (byteAt b 4) 2 ∧ (ncb ≠ 0 ∨ ncr ≠ 0) then 3
  else if bit (byteAt b 4) 7 ∨ 8 ≤ byteAt b 5 ∨ leNat (sliceB b 162 30) ≠ 0 ∨ 511 < leAt b 156 2 ∨ 511 < leAt b 160 2 then 4
  else if grainPermitted b then 0 else 5

/-- The physical value of an external sample (R368): (r − ZERO) × SCALE. -/
def sensorValue (entry : List Byte) (r : Int) : Frac := (Frac.ofInt (r - sext 16 (leAt entry 4 2))).mul (f16Val (leAt entry 6 2))

/-- The raw value of LEN bytes (R366, R368). -/
def sensorRaw (entry bytes : List Byte) : Int :=
  let f := leAt entry 3 1
  let n := bits f 0 3
  let b := sliceB bytes 0 n
  let v := if bit f 4 then beNat b else leNat b
  if bit f 3 ∧ n ≠ 0 then sext (8 * n) v else v

/-- A sample's value. -/
def Sample.val (s : Sample) : Frac := ⟨s.num, s.den⟩

/-- The value of one slot of the vector and whether it is stale (R369). `mid2`: t_mid in 1/131 072 fabric cycles;
`tdec` the decision cycle; `maxAge` in fabric cycles for an external entry; `dflt` its DEFAULT, which goes out as binary16 of its value
(R110, R112). Samples are in order of time. None: no sample serves an internal slot. -/
def fuse (l : List Sample) (mid2 tdec : Nat) (maxAge : Option Nat) (dflt : Nat) : Option (Nat × Bool) :=
  let u := 131072
  let dflt := f16Of (f16Val (f16Clean dflt))
  let a := (l.filter fun s => decide (s.time * u ≤ mid2)).getLast?
  let b := (l.filter fun s => decide (mid2 < s.time * u) && decide (s.time < tdec)).head?
  let old : Bool := match a, maxAge with
    | some x, some m => decide (m * u < mid2 - x.time * u)
    | _, _ => false
  if old then some (dflt, true)
  else match a, b with
    | some x, some y => some (f16Of (x.val.add ((y.val.sub x.val).mul ⟨((mid2 - x.time * u : Nat) : Int), (y.time - x.time) * u⟩)), false)
    | some x, none => some (f16Of x.val, false)
    | none, some y => some (f16Of y.val, false)
    | none, none => if maxAge.isSome then some (dflt, true) else none

end Sys2Proof

namespace Sys2Proof.Machine

/-! ### Parameters (R361 to R364) -/

/-- The bytes of parameter slot k, as they stand at the start of the cycle (R364). -/
def State.grainSlot (s : State) (k : Nat) : List Byte := wordsToBytes ((List.range 48).map fun w => s.seenF (F.FRS_SLOT_DATA (48 * k + w)))
/-- Frost clears VALID in a slot. -/
def State.clearSlot (s : State) (k : Nat) : State :=
  let w := s.getF (F.FRS_SLOT_DATA (48 * k + 1))
  s.yieldF (F.FRS_SLOT_DATA (48 * k + 1)) (if bit w 6 then w - 64 else w)

/-- PARAMETER_BLOCK_EXAMINE (R364): the accepted block for frame m, with its slot. -/
def State.examine (s : State) (m : Nat) : State × Option (Nat × List Byte) :=
  let valid := (List.range 16).filter fun k => bit (byteAt (s.grainSlot k) 4) 6
  let due := valid.filter fun k => leAt (s.grainSlot k) 0 4 == m
  let late := valid.filter fun k => decide (frameDiff (leAt (s.grainSlot k) 0 4) m < 0)
  let s1 := (late ++ due).foldl (fun s k => s.clearSlot k) s
  let s2 := s1.incFs [(F.FRS_CNT_LATE, late.length), (F.FRS_CNT_DUP, due.length - 1)]
  match due with
  | [] => (s2, none)
  | k :: _ =>
    let b := s.grainSlot k
    let r := grainReason b
    if r = 0 then (s2.incF F.FRS_CNT_ACCEPTED 1, some (k, b))
    else ((s2.incF F.FRS_CNT_REJECTED 1).setF F.FRS_REJ_REASON r, none)

/-- FROST_PARAMETER_FIX at the boundary that begins output frame n (R361, R362): frame n + 1 is fixed, and
generation of its templates begins (R360). -/
def State.frostFix (s : State) (n : Nat) : State :=
  let m := (n + 1) % 2 ^ 32
  let q := s.examine m
  let s1 := q.1
  let mode := s.getF F.FRS_CTRL_MODE
  let en := s.getF F.FRS_CTRL_CH_EN
  let dflt := s.prog.frost.getD (s.getF F.CAL_MODE_MODE_CUR) []
  let prev := if s.frost.fresh then dflt else s.frost.next.params
  let idx := frameSeed (s.getF F.FRS_CTRL_SEED_BASE) m
  let on (p : List Byte) (c : Nat) : Nat := if bit (byteAt p 4) 0 then c else 0
  let plain (p : List Byte) (src : Nat) : FrostFrame := { params := p, seed := idx, source := src, chan := on p en }
  let r : FrostFrame × Bool := match mode, q.2 with
    | 0, _ => ({ params := prev, seed := idx }, false)
    | 1, _ => (plain dflt 1, false)
    | 2, none => (plain dflt 1, true)
    | _, none => (plain prev 3, true)
    | _, some (k, b) =>
      let p := if bit (byteAt b 4) 1 then b else prev.take 4 ++ sliceB b 4 4 ++ prev.drop 8
      ({ params := p, seed := if bit (byteAt b 4) 5 then leAt b 6 2 else idx, source := 2
         chan := on b (en &&& byteAt b 5), slot := k }, false)
  let s2 := if r.2 then s1.incF F.FRS_CNT_MISSING 1 else s1
  let c := s.frost.next.complete
  { s2.setFs [(F.FRS_STATUS_SEED, c.seed), (F.FRS_STATUS_SOURCE, c.source), (F.FRS_STATUS_CHANNELS, c.chan),
      (F.FRS_STATUS_SLOT, c.slot)] with
    frost := { cur := c, next := r.1, fresh := false, gen := some s.now } }

/-- GRAIN_TEMPLATES_DONE (R360): the next frame's templates are complete, at most 60 000 cycles after their generation began. -/
def State.templatesDone (s : State) : State :=
  match s.frost.gen with
  | none => s
  | some _ => { s with frost := s.frost.done }

/-- Frost as it stands now: generation ends by itself 60 000 cycles after it began (R360). -/
def State.frostNow (s : State) : FrostSt :=
  match s.frost.gen with
  | some t => if t + 60000 ≤ s.now then s.frost.done else s.frost
  | none => s.frost

/-! ### The released line (R357, R358) -/

/-- Grain of an output frame at its line `y`: the one in progress, or the next, whose first lines come ahead of its boundary. No stripe is begun
in a frame of which no channel is enabled. -/
def State.grainOf (s : State) (f y : Nat) : FrostFrame :=
  let g := if f = s.cal.frame then s.frostNow.cur else s.frostNow.next
  if g.chan = 0 then g else g.atLine (s.modeOf f).w y

/-- FROST_LINE (R358): the released line (f, y) goes on to the composer from 8 fabric cycles after D(y). -/
def State.frost1 (s : State) (f y : Nat) : State :=
  match s.sel.find? fun l => l.frame == f && l.y == y with
  | none => s
  | some l =>
    if l.grain.isSome then s
    else
      let g := s.grainOf f y
      let px := frostLine g y l.px
      let s1 := s.waitUntil (l.at_ + 8)
      let fr := s.frostNow
      { s1 with
        frost := if f = s.cal.frame then { fr with cur := g } else { fr with next := g }
        sel := s1.sel.map fun x => if x.frame = f ∧ x.y = y then { x with grain := some px } else x }

/-! ### Sensors (R365 to R369) -/

/-- A sensor's entry of 16 bytes (R366, R372). -/
def State.sensorEntry (s : State) (i : Nat) : List Byte := wordsToBytes ((List.range 4).map fun w => s.getF (F.SNS_ENTRY_DATA (4 * i + w)))
/-- KIND of an entry. -/
def State.sensorKind (s : State) (i : Nat) : Nat := byteAt (s.sensorEntry i) 1
/-- Its period in fabric cycles. -/
def State.sensorPeriod (s : State) (i : Nat) : Nat := 150000 * leAt (s.sensorEntry i) 8 2

/-- An entry names a legacy I2C target (R366). -/
def State.sensorI2c (s : State) (i : Nat) : Bool := bit (byteAt (s.sensorEntry i) 0) 7

/-- I3C_ADDRESS_ASSIGNMENT (R365, R366): RSTDAA has taken every dynamic address away, SETDASA has given I3C target i the address 0x08 + i from
its static one, and DISEC has disabled what it disables. A legacy target keeps its static address. Reads are timed from here (R367). -/
def State.assignAddresses (s : State) : State :=
  if s.getF F.SNS_CFG_EN = 0 then s
  else
    { s with sns := { s.sns with
        assigned := some s.now
        addrs := ((List.range 8).filter fun i => s.sensorKind i ≠ 0).map fun i =>
          (i, if s.sensorI2c i then bits (byteAt (s.sensorEntry i) 0) 0 7 else 0x08 + i)
        quiet := true, last := none, k := List.replicate 8 0 } }

/-- Fabric cycles of one bit on the bus: 12.5, 6.25 or 3.125 MHz as RATE selects, 3 acting as 2 (R372), and 400 kHz to an I2C target (R365). -/
def State.busBit (s : State) (i2c : Bool) : Nat := if i2c then 3750 else 120 * 2 ^ min 2 (s.getF F.SNS_CFG_RATE)

/-- When the next read of an entry falls due (R367). -/
def State.sensorDue (s : State) (t0 i : Nat) : Nat := t0 + 15000 * i + s.sns.k.getD i 0 * s.sensorPeriod i

/-- The bus is free from here on. -/
def State.busFree (s : State) : Nat := (s.sns.last.map (·.stop)).getD 0

/-- The read of entry i is the next in order of due time, then of entry number (R367). -/
def State.readsFirst (s : State) (t0 i : Nat) : Bool :=
  (List.range 8).all fun j => j == i || s.sensorKind j == 0 || decide (s.sensorDue t0 i < s.sensorDue t0 j) ||
    (decide (s.sensorDue t0 i = s.sensorDue t0 j) && decide (i < j))

/-- The transfer of entry i's read begun at `t` (R365, R366): START, address and register byte, repeated START, address and LEN bytes, STOP. A
byte takes nine bits and START, repeated START and STOP one each (PRESUMED, log entry 94). One cut short by a NACK or a bus error ends
after `cut` bytes. -/
def State.busXfer (s : State) (i t : Nat) (cut : Option Nat) : BusXfer :=
  let i2c := s.sensorI2c i
  let b := s.busBit i2c
  let len := bits (byteAt (s.sensorEntry i) 3) 0 3
  let n := cut.getD (3 + len)
  { addr := SMap.get 0 s.sns.addrs i, i2c := i2c, reg := byteAt (s.sensorEntry i) 2, len := len
    start := t, again := t + 19 * b, stop := t + (9 * n + if n ≤ 2 then 2 else 3) * b }

/-- Keep a sample of a slot of the vector, unless a replay supplies the vector (R455). -/
def State.keepSample (s : State) (slot : Nat) (x : Sample) : State :=
  if s.aud.replay then s
  else { s with sns := { s.sns with samples := SMap.set [] s.sns.samples slot (SMap.get [] s.sns.samples slot ++ [x]) } }

/-- SENSOR_READ (R367, R368): the next read of entry i, first in the order of R367, falls due and is made as soon as the bus is free; its
outcome is known at the transfer's end. It is not made where the read after it falls due before the bus is free, nor in Doldrums. Where the
transfer is cut short, the byte after which it ends is a free value (log entry 94). -/
def State.sensorRead (s : State) (i : Nat) (r : I3cResult) : State :=
  match s.sns.assigned with
  | none => s
  | some t0 =>
    let e := s.sensorEntry i
    let per := s.sensorPeriod i
    if s.sensorKind i = 0 ∨ per = 0 ∨ 8 ≤ i ∨ s.getF F.SNS_CFG_EN = 0 ∨ !s.readsFirst t0 i then s
    else
      let due := s.sensorDue t0 i
      let took (s : State) : State := { s with sns := { s.sns with k := s.sns.k.modify i (· + 1) } }
      let begin_ := max due s.busFree
      if s.pstate = 2 then took (s.waitUntil due)
      else if due + per ≤ begin_ then took ((s.waitUntil (due + per)).incF F.SNS_ERR_NACKS 1)
      else
        let cut := match r with
          | .data _ => none
          | _ => some (1 + Config.freeValue s.free % (3 + bits (byteAt e 3) 0 3))
        let x := s.busXfer i begin_ cut
        let s0 := took (s.waitUntil x.stop)
        let s1 : State := { s0 with sns := { s0.sns with last := some x }, free := if cut.isSome then s0.free + 1 else s0.free }
        let pres := s.getF F.SNS_STATUS_PRESENT
        let off := if bit pres i then pres - 2 ^ i else pres
        match r with
        | .nack => (s1.incF F.SNS_ERR_NACKS 1).setF F.SNS_STATUS_PRESENT off
        | .busErr => s1.incF F.SNS_ERR_BUS_ERR 1
        | .data bs =>
          let raw := sensorRaw e bs
          let v := sensorValue e raw
          let s2 := s1.setFs [(F.SNS_STATUS_PRESENT, pres ||| 2 ^ i), (F.SNS_RAW_RAW i, unsext 32 raw),
            (F.SNS_TS_LO_TS_LO i, x.again % 2 ^ 32), (F.SNS_TS_HI_TS_HI i, x.again / 2 ^ 32)]
          (s2.keepSample i ⟨x.again, v.num, v.den⟩).record F.AUD_REC_CTRL_SENS
            ⟨3, false, x.again, toLe 4 i ++ toLe 4 (unsext 32 raw)⟩

/-- SENSOR_VECTOR (R369, R370) in the decision cycle of the current frame: the vector, and its registers. -/
def State.sensorVector (s : State) : State :=
  let mid2 := 131072 * s.cal.t0 + s.vTotal * s.lp
  let fv (k : Nat) : Nat := Config.freeValue (s.free + k) % 2 ^ 16
  let slot (k : Nat) : Nat × Bool :=
    let l := SMap.get [] s.sns.samples k
    if k < 8 then
      if s.sensorKind k = 0 then (0, false)
      else
        let e := s.sensorEntry k
        (fuse l mid2 s.now (some (msCycles (leAt e 10 2))) (leAt e 12 2)).getD (0, false)
    else if k < 14 then (fuse l mid2 s.now none 0).getD (fv k, false)
    else (s.seenF (if k = 14 then F.SNS_HOST0_HOST0 else F.SNS_HOST1_HOST1), false)
  let vs := (List.range 16).map slot
  let stale := ((List.range 8).map fun k => if (vs.getD k (0, false)).2 then 2 ^ k else 0).foldl (· + ·) 0
  let s1 := (List.range 8).foldl (fun (s : State) k =>
    s.setFs [(F.SNS_VEC_LO k, (vs.getD (2 * k) (0, false)).1), (F.SNS_VEC_HI k, (vs.getD (2 * k + 1) (0, false)).1)]) s
  let keep (l : List Sample) : List Sample :=
    let old := l.filter fun x => decide (x.time * 131072 ≤ mid2)
    old.drop (old.length - 1) ++ l.filter fun x => decide (mid2 < x.time * 131072)
  { s1.setFs [(F.SNS_STATUS_STALE, stale), (F.SNS_VEC_FRAME_FRAME, s.cal.frame)] with
    free := s.free + 16
    sns := { s1.sns with vec := vs.map (·.1), samples := s1.sns.samples.map fun e => (e.1, keep e.2) } }

end Sys2Proof.Machine
end

