-- ==== Sys2Proof/Machine/Compose.lean ====
section
/-! DEFINITION. Composition (chapter 14): planes, apply points, guarded regions, port 1 as a graphics source, and
capture; the regions of the DRAM window (R420 to R422). -/
namespace Sys2Proof

/-- Effective alpha (R378). -/
def effAlpha (pa ga : Nat) : Nat := (2 * pa * ga + 4095) / 8190

/-- One component of a plane's pixel laid over d (R378). -/
def overComp (premul : Bool) (ga a c d : Nat) : Nat :=
  let c1 := if premul then (2 * c * ga + 4095) / 8190 else c
  let num := if premul then c1 * 4095 + d * (4095 - a) else c1 * a + d * (4095 - a)
  min ((2 * num + 4095) / 8190) 4095

/-- A plane's pixel laid over d (R378). -/
def overPix (premul : Bool) (ga : Nat) (g : GPix) (d : Pix) : Pix :=
  let a := effAlpha g.a ga
  if a = 0 then d
  else ⟨overComp premul ga a g.px.c0 d.c0, overComp premul ga a g.px.c1 d.c1, overComp premul ga a g.px.c2 d.c2⟩

/-- An 8-bit value widened to 12 bits (R375). -/
def widen8 (v : Nat) : Nat := v * 16 + v / 16

/-- A surface pixel of a form (R375). -/
def surfPix (fmt : Nat) (b : List Byte) : GPix :=
  if fmt = 0 then ⟨⟨widen8 (byteAt b 0), widen8 (byteAt b 1), widen8 (byteAt b 2)⟩, widen8 (byteAt b 3)⟩
  else ⟨⟨leAt b 0 2 % 4096, leAt b 2 2 % 4096, leAt b 4 2 % 4096⟩, leAt b 6 2 % 4096⟩
/-- Bytes per pixel of a form (R375). -/
def surfBpp (fmt : Nat) : Nat := if fmt = 0 then 4 else 8

/-- A captured pixel (R388). -/
def capPix (fmt : Nat) (p : Pix) : List Byte :=
  let t (c : Nat) : Nat := min ((c + 2) / 4) 1023
  if fmt = 0 then toLe 2 p.c0 ++ toLe 2 p.c1 ++ toLe 2 p.c2 ++ toLe 2 0
  else toLe 4 (t p.c0 + 1024 * t p.c1 + 1048576 * t p.c2)

end Sys2Proof

namespace Sys2Proof.Machine

/-! ### Regions of the window (R420, R422) -/

/-- The regions: first byte, length, kind (R420, R434). -/
def State.regions (s : State) : List (Nat × Nat × Nat) :=
  ((List.range 16).map fun n =>
    let b := wordsToBytes ((List.range 2).map fun w => s.getF (F.DRM_REGION_DATA (4 * n + w)))
    (leAt b 0 2 * 0x200000, leAt b 2 2 * 0x200000, leAt b 4 1)).filter fun r => r.2.1 != 0

/-- Kinds other than 0 that a range of DRAM offsets meets. -/
def State.kindsMet (s : State) (o n : Nat) : List Nat :=
  (s.regions.filter fun r => decide (r.1 < o + n) && decide (o < r.1 + r.2.1)).map fun r => r.2.2

/-- A range of addresses lies wholly in kind 0 (R422, R573). -/
def State.inKind0 (s : State) (addr n : Nat) : Bool :=
  decide (dramBase ≤ addr) && decide (addr + n ≤ dramBase + dramSize) && (s.kindsMet (addr - dramBase) n).all fun k => k == 0

/-! ### Apply points (R379, R385, R422) -/

/-- The values of plane p (0 or 1) as its registers hold them. -/
def State.planeShadow (s : State) (p : Nat) : PlaneUse where
  en := s.getF (F.CMP_PL_CTRL_EN p) == 1
  src := s.getF (F.CMP_PL_CTRL_SRC p)
  fmt := s.getF (F.CMP_PL_CTRL_FMT p)
  premul := s.getF (F.CMP_PL_CTRL_PREMUL p) == 1
  ga := s.getF (F.CMP_PL_CTRL_GALPHA p)
  base := (s.getF (F.CMP_PL_BASE_LO_BASE_LO p) + 2 ^ 32 * s.getF (F.CMP_PL_BASE_HI_BASE_HI p)) / 64 * 64
  pitch := s.getF (F.CMP_PL_PITCH_PITCH p) / 64 * 64
  x := sext 16 (s.getF (F.CMP_PL_POS_X p))
  y := sext 16 (s.getF (F.CMP_PL_POS_Y p))
  w := s.getF (F.CMP_PL_SIZE_W p)
  h := s.getF (F.CMP_PL_SIZE_H p)

/-- Source size of port 1 (R376). -/
def State.port1Size (s : State) : Nat × Nat := (s.getF (F.INP_PORT_GEOM_SRC_W 1), s.getF (F.INP_PORT_GEOM_SRC_H 1))

/-- Bytes that a plane's surface takes (R375, R376). -/
def State.planeBytes (s : State) (q : PlaneUse) : Nat :=
  if q.src = 1 then 3 * q.pitch * s.port1Size.2
  else if q.w = 0 ∨ q.h = 0 then 0 else (q.h - 1) * q.pitch + q.w * surfBpp q.fmt

/-- A plane's values come into use: R422's check. -/
def State.takePlane (s : State) (p : Nat) : State :=
  let q := s.planeShadow p
  let bad := q.en && s.planeBytes q != 0 && !s.inKind0 q.base (s.planeBytes q)
  { s.incF F.DRM_HOST_PLACE_ERR (b2n bad) with cmp := { s.cmp with planes := s.cmp.planes.set p { q with bad := bad } } }

/-- Safe-image pitch (R385). -/
def safePitch (w : Nat) : Nat := roundUp 64 (8 * w)

/-- A region's values come into use, its forcing kept (R379, R385, R422). -/
def State.takeRegion (s : State) (g : Nat) : State :=
  let old := s.cmp.regions.getD g {}
  let w := s.getF (F.CMP_GR_WH_W g)
  let h := s.getF (F.CMP_GR_WH_H g)
  let safe := (s.getF (F.CMP_GR_SAFE_LO_SAFE_LO g) + 2 ^ 32 * s.getF (F.CMP_GR_SAFE_HI_SAFE_HI g)) / 64 * 64
  let en := s.getF (F.CMP_GR_CTRL_EN g) == 1
  let fe := s.getF (F.CMP_GR_CTRL_FORCE_EN g) == 1
  let bad := en && fe && w != 0 && h != 0 && !s.inKind0 safe ((h - 1) * safePitch w + 8 * w)
  let r : RegionUse := { old with
    en := en, forceEn := fe, holdOk := max 1 (s.getF (F.CMP_GR_CTRL_HOLD_OK g)), x0 := s.getF (F.CMP_GR_XY_X0 g)
    y0 := s.getF (F.CMP_GR_XY_Y0 g), w := w, h := h, expect := s.getF (F.CMP_GR_EXPECT_EXPECT g), safe := safe, bad := bad }
  { s.incF F.DRM_HOST_PLACE_ERR (b2n bad) with cmp := { s.cmp with regions := s.cmp.regions.set g r } }

/-- Forcing of region g at the apply point of frame n; a region cut to nothing is as one disabled (R384, R385, R441). -/
def State.forceRegion (s : State) (n g : Nat) : State :=
  let r := s.cmp.regions.getD g {}
  let on := r.en && r.forceEn && r.w != 0 && r.h != 0 && decide (r.x0 < (s.modeOf n).w) && decide (r.y0 < (s.modeOf n).vActive)
  let f : Bool × Bool := match r.miss with
    | some _ => (on, on && ((r.forced && r.tainted) || r.missTd))
    | none =>
      let stay := on && r.forced && decide (s.getF (F.CMP_GR_STAT_MATCH_RUN g) < r.holdOk)
      (stay, stay && r.tainted)
  let r1 : RegionUse := { r with forced := f.1, tainted := f.2, miss := none, missTd := false, crc := 0xFFFFFFFF }
  let s1 : State := { s.setF (F.CMP_GR_STAT_FORCED g) (b2n f.1) with cmp := { s.cmp with regions := s.cmp.regions.set g r1 } }
  if f.1 ∧ f.2 then s1.tdAdd n fun t => { t with gfx := t.gfx + 1 } else s1

/-- Bytes of a captured line (R388). -/
def capPitch (fmt w : Nat) : Nat := roundUp 64 (w * (if fmt = 0 then 8 else 4))

/-- Capture values come into use (R391, R422). -/
def State.takeCapture (s : State) : State :=
  let fmt := s.getF F.CMP_CAP_CTRL_FMT
  let q : CapUse := {
    en := s.getF F.CMP_CAP_CTRL_EN == 1, fmt := fmt, nbuf := min 4 (2 + s.getF F.CMP_CAP_CTRL_NBUF)
    div := max 1 (s.getF F.CMP_CAP_CTRL_DIV)
    base := (s.getF F.CMP_CAP_BASE_LO_BASE_LO + 2 ^ 32 * s.getF F.CMP_CAP_BASE_HI_BASE_HI) / 0x200000 * 0x200000
    pitch := s.getF F.CMP_CAP_PITCH_BUF_PITCH * 0x200000 }
  if { s.cmp.cap with bad := false } = q then s
  else
    let bad := q.en && !s.inKind0 q.base (q.nbuf * q.pitch)
    { s.incF F.DRM_HOST_PLACE_ERR (b2n bad) with cmp := { s.cmp with cap := { q with bad := bad } } }

/-- COMMIT_APPLY: the apply point of output frame n (R379). -/
def State.applyPoint (s : State) (n : Nat) : State :=
  if s.cmp.applied = some n then s
  else
    let s1 := if s.seenF F.CMP_COMMIT_PL1 = 1 then s.takePlane 0 else s
    let s2 := if s.seenF F.CMP_COMMIT_PL2 = 1 then s1.takePlane 1 else s1
    let s3 := if s.seenF F.CMP_COMMIT_GR = 1 then s2.each 16 fun s g => s.takeRegion g else s2
    let s4 := (((s3.yieldF F.CMP_COMMIT_PL1 0).yieldF F.CMP_COMMIT_PL2 0).yieldF F.CMP_COMMIT_GR 0).takeCapture
    let s5 := s4.each 16 fun s g => s.forceRegion n g
    { s5 with cmp := { s5.cmp with applied := some n } }

/-! ### Graphics (R376, R377, R380) -/

/-- The plane that shows port 1: the first with SRC 1 (R376). -/
def State.gfxPlane (s : State) : Option Nat :=
  if s.inp.geo.mode = 0 ∧ s.inp.geo.gfx1 then s.cmp.planes.findIdx? fun q => q.src == 1 else none

/-- A plane's rectangle and the address of its first pixel, when it shows anything (R374, R376, R422). -/
def State.planeRect (s : State) (p : Nat) : Option (Int × Int × Nat × Nat × Nat × Nat) :=
  let q := s.cmp.planes.getD p {}
  if !q.en ∨ q.bad then none
  else if q.src = 0 then (if q.w = 0 ∨ q.h = 0 then none else some (q.x, q.y, q.w, q.h, q.base, q.fmt))
  else
    match s.cmp.gfx.shown with
    | some k =>
      let z := s.port1Size
      if s.gfxPlane = some p ∧ s.getF (F.INP_PORT_STATUS_SIGNAL 1) = 1 then
        some (q.x, q.y, z.1, z.2, q.base + k * (q.pitch * z.2), 1) else none
    | none => none

/-- Visible columns of a rectangle at x of width w, in an active area of width aw. -/
def visCols (x : Int) (w aw : Nat) : List Nat := (List.range aw).filter fun c => decide (x ≤ c) && decide ((c : Int) < x + w)

/-- The visible pixels of plane p on line y, read from DRAM: unreadable ones none (R377, R381). -/
def State.fetchPlane (s : State) (p aw y : Nat) : List (Option GPix) :=
  match s.planeRect p with
  | none => []
  | some (x, py, w, h, base, fmt) =>
    if (y : Int) < py ∨ py + h ≤ y then []
    else
      let row := base - dramBase + ((y : Int) - py).toNat * (s.cmp.planes.getD p {}).pitch
      (visCols x w aw).map fun (c : Nat) =>
        let a := row + ((c : Int) - x).toNat * surfBpp fmt
        if s.memBad 3 0 a (surfBpp fmt) then none else some (surfPix fmt (readB s.dram a (surfBpp fmt)))

/-- The safe-image line of region g for line y (R385). -/
def State.fetchSafe (s : State) (g y : Nat) : List (Option Pix) :=
  let r := s.cmp.regions.getD g {}
  if !r.forced ∨ r.bad ∨ y < r.y0 ∨ r.y0 + r.h ≤ y then []
  else (List.range r.w).map fun x =>
    let a := r.safe - dramBase + (y - r.y0) * safePitch r.w + 8 * x
    if s.memBad 3 0 a 8 then none else some (surfPix 1 (readB s.dram a 8)).px

/-- GRAPHICS_FETCH: entry `i` of kind 5 with ARG 0; one with a reserved ARG fires without effect (R380). -/
def State.graphicsFetch (s : State) (i : Nat) : State :=
  if !s.due i 5 ∨ (s.entry i).arg = 1 then s
  else if (s.entry i).arg ≠ 0 then s.fire i
  else
    let a := s.actsFor i
    let s1 := (s.fire i).applyPoint a.1
    let aw := (s1.modeOf a.1).w
    let l : GfxLine := { frame := a.1, y := a.2, planes := [s1.fetchPlane 0 aw a.2, s1.fetchPlane 1 aw a.2]
                         safe := ((List.range 16).map fun g => (g, s1.fetchSafe g a.2)).filter fun e => e.2 != [] }
    { s1 with cmp := { s1.cmp with fetched := (l :: s1.cmp.fetched).take 2 } }

/-! ### Composing a line (R378, R384, R385) -/

/-- Lay plane p over a line; with whether a pixel was late and whether one was unreadable. `late` lists late
columns; a column that the line's fetch has not asked for is late too (R381). -/
def State.layPlane (s : State) (p y : Nat) (g : Option GfxLine) (late : List Nat) (px : List Pix) : List Pix × Bool × Bool :=
  let q := s.cmp.planes.getD p {}
  match s.planeRect p with
  | none => (px, false, false)
  | some (x, py, w, h, _, _) =>
    if (y : Int) < py ∨ py + h ≤ y then (px, false, false)
    else
      let cols := visCols x w px.length
      let got := match g with | some l => l.planes.getD p [] | none => []
      let isLate (k c : Nat) : Bool := decide (got.length ≤ k) || late.contains c
      let out := (List.range px.length).map fun c =>
        let d := px.getD c default
        match cols.findIdx? fun k => k == c with
        | none => d
        | some k => if isLate k c then d else match got.getD k none with
          | some v => overPix q.premul q.ga v d
          | none => d
      (out, cols.zipIdx.any fun c => isLate c.2 c.1,
        (List.range cols.length).any fun k => !isLate k (cols.getD k 0) && (got.getD k none).isNone)

/-- GUARDED_REGION_CHECK (R384): region g meets line y of frame f; at its last line the comparison. -/
def State.checkRegion (s : State) (f y va : Nat) (px : List Pix) (g : Nat) : State :=
  let r := s.cmp.regions.getD g {}
  let last := min (r.y0 + r.h) va
  if !r.en ∨ px.length ≤ r.x0 ∨ r.w = 0 ∨ y < r.y0 ∨ last ≤ y then s
  else
    let crc := crc32Run r.crc (lineBytes ((px.drop r.x0).take r.w))
    let put (s : State) (q : RegionUse) : State := { s with cmp := { s.cmp with regions := s.cmp.regions.set g q } }
    if y + 1 < last then put s { r with crc := crc }
    else
      let v := crc ^^^ 0xFFFFFFFF
      let s1 := s.setFs [(F.CMP_GR_CRC_LAST_CRC g, v), (F.CMP_GR_STAT_LAST_OK g, b2n (v == r.expect))]
      if v = r.expect then (put s1 { r with crc := 0xFFFFFFFF }).setF (F.CMP_GR_STAT_MATCH_RUN g) (min 15 (s.getF (F.CMP_GR_STAT_MATCH_RUN g) + 1))
      else ((put s1 { r with crc := 0xFFFFFFFF, miss := some f }).setF (F.CMP_GR_STAT_MATCH_RUN g) 0).incF (F.CMP_GR_STAT_MISMATCHES g) 1

/-- The pixel that forced regions put at column c (R385): the region, its pixel, whether black stood in, and whether
that was for lateness. -/
def State.safePix (s : State) (y c : Nat) (g : Option GfxLine) (late : List (Nat × Nat)) : Option (Nat × Pix × Bool × Bool) :=
  match (List.range 16).find? fun k =>
      let r := s.cmp.regions.getD k {}
      r.forced && decide (r.y0 ≤ y) && decide (y < r.y0 + r.h) && decide (r.x0 ≤ c) && decide (c < r.x0 + r.w) with
  | none => none
  | some k =>
    let r := s.cmp.regions.getD k {}
    if r.bad then some (k, s.black, false, false)
    else
      let got := match g with | some q => SMap.get [] q.safe k | none => []
      let l := decide (got.length ≤ c - r.x0) || late.contains (2 + k, c)
      match (if l then none else got.getD (c - r.x0) none) with
      | some p => some (k, p, false, false)
      | none => some (k, s.black, true, l)

/-- COMPOSE_LINE: entry `i` of kind 5 with ARG 1 (R378, R380, R381, R384, R385). `late`: pixels that the fetch has
not brought in time, by unit (0 and 1 the planes, 2 + g region g's safe image) and column. -/
def State.composeLine (s : State) (i : Nat) (late : List (Nat × Nat)) : State :=
  if !s.due i 5 ∨ (s.entry i).arg = 0 then s
  else if (s.entry i).arg ≠ 1 then s.fire i
  else
    let f := (s.actsFor i).1
    let y := (s.actsFor i).2
    if !(s.sel.any fun l => l.frame == f && l.y == y) then s
    else
      let s1 := ((s.fire i).applyPoint f).frost1 f y
      match s1.sel.find? fun l => l.frame == f && l.y == y with
      | none => s
      | some l =>
        let video := l.grain.getD l.px
        let g := s1.cmp.fetched.find? fun q => q.frame == f && q.y == y
        let cols (u : Nat) : List Nat := (late.filter fun e => e.1 == u).map (·.2)
        let p1 := s1.layPlane 0 y g (cols 0) video
        let p2 := s1.layPlane 1 y g (cols 1) p1.1
        let px := p2.1
        let va := (s1.modeOf f).vActive
        let sub := (List.range px.length).map fun c => s1.safePix y c g late
        let out := (List.range px.length).map fun c => match sub.getD c none with | some q => q.2.1 | none => px.getD c default
        let isLate := p1.2.1 || p2.2.1 || sub.any fun q => (q.map (·.2.2.2)).getD false
        let s2 := s1.incFs [(F.CMP_PL_STAT_GFX_LATE 0, b2n p1.2.1), (F.CMP_PL_STAT_GFX_LATE 1, b2n p2.2.1),
          (F.CMP_PL_STAT_GFX_ERR 0, b2n p1.2.2), (F.CMP_PL_STAT_GFX_ERR 1, b2n p2.2.2)]
        let s3 := s2.each 16 fun s k =>
          s.incF (F.CMP_GR_STAT_SAFE_ERR k) (sub.filter fun q => (q.map fun v => v.1 == k && v.2.2.1).getD false).length
        let s4 := s3.each 16 fun s k => s.checkRegion f y va px k
        let s5 := if isLate then s4.tdAdd f fun t => { t with gfx := t.gfx + 1 } else s4
        let c : CompLine := { frame := f, y := y, start := max s1.now (l.at_ + 8), px := out, fb := l.src.any fun k => k != 1 }
        { s5 with
          cmp := { s5.cmp with lines := (c :: s5.cmp.lines).take 4 }
          sel := s5.sel.map fun x => if x.frame = f ∧ x.y = y then { x with composed := true } else x
          aud := { s5.aud with crcs := SMap.set [] s5.aud.crcs f (SMap.get [] s5.aud.crcs f ++ [crc64 (lineBytes out)]) } }

/-! ### Port 1 as a graphics source (R376) -/

/-- Lines of port n are graphics (R79, R376). -/
def State.isGfx (s : State) (n : Nat) : Bool := s.inp.geo.mode == 0 && s.inp.geo.gfx1 && n == 1

/-- The graphics unit's state changes. -/
def State.onGfx (s : State) (f : GfxPort → GfxPort) : State := { s with cmp := { s.cmp with gfx := f s.cmp.gfx } }

/-- The graphics frame that is being received is discarded and counts in GFX_ERR (R376). -/
def State.gfxDiscard (s : State) (p : Nat) : State :=
  (s.onGfx fun g => { g with bad := true }).incF (F.CMP_PL_STAT_GFX_ERR p) 1

/-- A graphics frame starts on port 1 (R376): one that ends with lines missing is discarded. `passed`: the port passes the new one. -/
def State.gfxRestart (s : State) (passed : Bool) : State :=
  let g := s.cmp.gfx
  let s1 := match s.gfxPlane with
    | some p => if g.going ∧ !g.bad then s.gfxDiscard p else s
    | none => s
  s1.onGfx fun g => { g with going := passed, bad := false }

/-- A frame buffer that takes pixels of an encrypted picture is hidden from the host from then on (R88; DEDUCED, log entry 87). -/
def State.gfxHide (s : State) (o n : Nat) : State :=
  if s.getF (F.INP_PORT_STATUS_ENCRYPTED 1) = 1 ∧ !s.cmp.gfx.hidden.contains (o, n) then s.onGfx fun g => { g with hidden := (o, n) :: g.hidden }
  else s

/-- A line of port 1's graphics frame (R376), after the port has counted it: `y` is the line of the source frame. The frame is
complete when every line has arrived, none is corrupt and all are written. -/
def State.gfxLine (s : State) (y : Nat) (r : InRow) : State :=
  let g := s.cmp.gfx
  let h := s.port1Size.2
  match s.gfxPlane with
  | none => s
  | some p =>
    let q := s.cmp.planes.getD p {}
    if g.bad ∨ !g.going then s
    else if r.cause ≠ 0 then s.gfxDiscard p
    else if q.bad ∨ !q.en then s.onGfx fun g => { g with bad := true }
    else
      let o := q.base - dramBase + g.wr * (q.pitch * h)
      let s1 := (s.gfxHide o (q.pitch * h)).writeMem 3 0 (o + y * q.pitch)
        (r.px.flatMap fun v => toLe 2 v.c0 ++ toLe 2 v.c1 ++ toLe 2 v.c2 ++ toLe 2 4095)
      if (s.port 1).full ∧ h ≤ (s.port 1).nextY then
        -- complete: the next frame goes to a buffer that is neither shown nor newest
        let next := ((List.range 3).find? fun k => some k != g.shown && k != g.wr).getD 0
        s1.onGfx fun x => { x with newest := some g.wr, wr := next, going := false }
      else s1

/-- INPUT_LINE (R71, R79): a line of a port that carries graphics bypasses stages 2 to 10; any other is the picture path's. -/
def State.inputLine (s : State) (n y : Nat) (l : SrcLine) (causes : List Nat) : State :=
  if s.isGfx n then
    let q := s.portLine n y l causes
    let s1 := s.countLine n y q.2
    if s.getF (F.INP_PORT_STATUS_SIGNAL n) = 0 then s1 else s1.gfxLine y q.1
  else s.pictureLine n y l causes

/-- INPUT_FRAME_START (R78): on a port, and for the selected input the frame start of the pipeline, or the graphics frame that
port 1 carries. -/
def State.frameStart (s : State) (n : Nat) (a0 : SrcAttr) : State :=
  let a := s.activeAttr n a0
  let h := s.getF (F.INP_PORT_GEOM_SRC_H n)
  let q := (s.portFrame n a).proveSignal n h
  let s0 := s.sinkIrq (q.1.portRestart n h) n
  let s1 := if s0.isGfx n then s0.gfxRestart q.2 else s0
  if !q.2 ∨ !(geoPorts s1.inp.geo).contains n then s1 else s1.inputStart n a

/-- At an output frame boundary the plane takes the newest complete frame (R376, R439). -/
def State.gfxBoundary (s : State) (n : Nat) : State :=
  match s.cmp.gfx.newest, s.gfxPlane with
  | some k, some p =>
    let s1 : State := { s with cmp := { s.cmp with gfx := { s.cmp.gfx with shown := some k, newest := none } } }
    if (s.cmp.planes.getD p {}).en then s1.tdAdd n fun t => { t with gfx := t.gfx + 1 } else s1
  | _, _ => s

/-! ### Capture (R387 to R391) -/

/-- An input frame came from an encrypted picture. -/
def State.frameEnc (s : State) (j : Nat) : Bool :=
  (s.inp.done.any fun d => d.num == j && d.encrypted) || (s.hist.any fun h => h.frame == some j && h.encrypted) ||
  (match s.inp.fr with | some fr => fr.num == j && fr.encrypted | none => false)

/-- The context of an output frame. -/
def State.ctxOf (s : State) (f : Nat) : FrameCtx := if f = s.cal.frame then s.ctx else s.ctxNext.getD {}

/-- The input frame that stage 10 writes during a frame of a live schedule, as known now (R312, R443). -/
def State.liveFrame (s : State) : Nat := s.inp.lastWritten.getD s.ctx.i

/-- An output frame reads an encrypted input frame (R390). -/
def State.readsEnc (s : State) (f : Nat) : Bool :=
  let x := s.ctxOf f
  if x.live then s.frameEnc s.liveFrame
  else x.shown && (s.frameEnc x.i || (!x.aligned && s.frameEnc ((x.i + 1) % 2 ^ 32)))

/-- Capture of an output frame is blocked (R390). -/
def State.capBlocked (s : State) (f : Nat) : Bool :=
  s.readsEnc f ||
  (match s.gfxPlane with
    | some p => (s.planeRect p).isSome && s.getF (F.INP_PORT_STATUS_ENCRYPTED 1) == 1
    | none => false)

/-- Write the status block of a captured frame's buffer (R388). -/
def State.capStatus (s : State) (r : CapRun) (state missing : Nat) : State :=
  s.writeMem 3 0 (r.use.base - dramBase + (r.buf + 1) * r.use.pitch - 64)
    (toLe 4 r.frame ++ toLe 1 state ++ toLe 1 r.arg ++ toLe 2 missing ++ List.replicate 56 (0 : Byte))

/-- Change the capture of a frame. -/
def State.onRun (s : State) (r : CapRun) : State :=
  { s with cmp := { s.cmp with runs := s.cmp.runs.map fun x => if x.frame = r.frame then r else x } }

/-- The capture of a frame ends with a final STATE; no later line of the frame is captured (R389). -/
def State.capEnd (s : State) (r : CapRun) (state missing : Nat) : State :=
  let s1 := (s.capStatus r state missing).setF F.CMP_CAP_LAST_FRAME r.frame
  s1.onRun { r with ended := true }

/-- The capture of a frame, begun at its first kind-6 line (R388: buffers in rotation). -/
def State.capRun (s : State) (f arg : Nat) : State × CapRun :=
  match s.cmp.runs.find? fun r => r.frame == f with
  | some r => (s, r)
  | none =>
    let r : CapRun := { frame := f, buf := s.cmp.capNext % s.cmp.cap.nbuf, arg := arg, use := s.cmp.cap }
    ({ s with cmp := { s.cmp with runs := s.cmp.runs ++ [r], capNext := s.cmp.capNext % s.cmp.cap.nbuf + 1 } }, r)

/-- CAPTURE_LINE: entry `i` of kind 6 (R387, R389, R390). -/
def State.captureLine (s : State) (i : Nat) : State :=
  if !s.due i 6 then s
  else if 1 < (s.entry i).arg then s.fire i
  else
    let f := (s.actsFor i).1
    let y := (s.actsFor i).2
    let arg := (s.entry i).arg
    let s1 := (s.fire i).applyPoint f
    let q := s1.cmp.cap
    if !q.en ∨ q.bad ∨ f % q.div ≠ 0 then s1
    else
      let x := s1.capRun f arg
      let r := x.2
      if r.blocked ∨ r.ended ∨ r.missing.isSome then x.1
      else if x.1.capBlocked f then
        let s2 := (x.1.capStatus r 4 0).setF F.CMP_CAP_LAST_FRAME f
        let s3 := (s2.onRun { r with blocked := true }).incF F.CMP_CAP_CNT_CAP_BLOCKED 1
        { s3 with cmp := { s3.cmp with queue := s3.cmp.queue.filter fun e => e.1 != f } }
      else
        let px : Option (List Pix) := if arg = 0 then (x.1.cmp.lines.find? fun c => c.frame == f && c.y == y).map (·.px)
          else (x.1.sel.find? fun c => c.frame == f && c.y == y).bind (·.grain)
        match px with
        | none => s
        | some p =>
          if x.1.cmp.queue.length < 2 then { x.1 with cmp := { x.1.cmp with queue := x.1.cmp.queue ++ [(f, y, p)] } }
          else
          let r1 := { r with missing := some y }
          let s2 := ((x.1.onRun r1).incF F.CMP_CAP_CNT_CAP_INCOMPLETE 1).tdAdd f fun t => { t with cap := t.cap + 1 }
          if s2.cmp.queue.any fun e => e.1 == f then s2 else s2.capEnd r1 3 y

/-- CAPTURE_WRITE: the oldest queued line goes to its buffer, with the status block, under the capture values of its
frame's apply point (R388, R391). -/
def State.captureWrite (s : State) : State :=
  match s.cmp.queue with
  | [] => s
  | (f, y, px) :: rest =>
    let s1 : State := { s with cmp := { s.cmp with queue := rest } }
    match s.cmp.runs.find? fun r => r.frame == f with
    | none => s1
    | some r =>
      let q := r.use
      let s2 := if r.begun then s1 else s1.capStatus r 1 0
      let s3 := s2.writeMem 3 0 (q.base - dramBase + r.buf * q.pitch + y * capPitch q.fmt px.length) (px.flatMap (capPix q.fmt))
      let r1 := { r with begun := true, written := r.written + 1 }
      let va := (s.modeOf f).vActive
      let s4 := s3.onRun r1
      if y + 1 = va then s4.capEnd r1 2 va
      else match r1.missing with
        | some m => if rest.any fun e => e.1 == f then s4 else s4.capEnd r1 3 m
        | none => s4

/-- Captures of frames before n that are blocked or over are forgotten. -/
def State.capPrune (s : State) (n : Nat) : State :=
  { s with cmp := { s.cmp with runs := s.cmp.runs.filter fun r => !((r.blocked || r.ended) && decide (frameDiff r.frame n < 0)) } }

end Sys2Proof.Machine
end

