-- ==== Sys2Proof/Machine/Curve.lean ====
section
/-! DEFINITION. The curve brainpoolP384r1 and ECDSA and ECDH over it (R491, R475, R477), which the spec names and takes
from published standards: the curve's constants and the formulas are PRESUMED, see the log. -/
namespace Sys2Proof

/-- The field's prime. -/
def ecP : Nat := 0x8CB91E82A3386D280F5D6F7E50E641DF152F7109ED5456B412B1DA197FB71123ACD3A729901D1A71874700133107EC53
/-- Coefficient a. -/
def ecA : Nat := 0x7BC382C63D8C150C3C72080ACE05AFA0C2BEA28E4FB22787139165EFBA91F90F8AA5814A503AD4EB04A8C7DD22CE2826
/-- Coefficient b. -/
def ecB : Nat := 0x04A8C7DD22CE28268B39B55416F0447C2FB77DE107DCD2A62E880EA53EEB62D57CB4390295DBC9943AB78696FA504C11
/-- Order of the base point. -/
def ecN : Nat := 0x8CB91E82A3386D280F5D6F7E50E641DF152F7109ED5456B31F166E6CAC0425A7CF3AB6AF6B7FC3103B883202E9046565
/-- The base point. -/
def ecG : Nat × Nat :=
  (0x1D1C64F068CF45FFA2A63A81B7C13F6B8847A3E77EF14FE3DB7FCAFE0CBD10E8E826E03436D646AAEF87B2E247D4AF1E,
   0x8ABE1D7520F9C2A45CB1EB8E95CFD55262B70B29FEEC5864E19C054FF99129280E4646217791811142820341263C5315)

/-- b to the e modulo m; `fuel` bits of e are used. -/
def powMod (m b : Nat) : Nat → Nat → Nat
  | 0, _ => 1 % m
  | fuel + 1, e =>
    let h := powMod m b fuel (e / 2)
    h * h % m * (if e % 2 = 1 then b else 1) % m

/-- Inverse modulo a prime of at most 384 bits. -/
def invMod (m a : Nat) : Nat := powMod m (a % m) 384 (m - 2)

/-- A point; none is the point at infinity. -/
abbrev EcPoint := Option (Nat × Nat)

/-- Sum of two points. -/
def ecAdd : EcPoint → EcPoint → EcPoint
  | none, q => q
  | p, none => p
  | some (x1, y1), some (x2, y2) =>
    if x1 = x2 ∧ (y1 + y2) % ecP = 0 then none
    else
      let l := if x1 = x2 then (3 * x1 * x1 + ecA) * invMod ecP (2 * y1) % ecP
        else (y2 + ecP - y1) * invMod ecP (x2 + ecP - x1) % ecP
      let x := (l * l + 2 * ecP - x1 - x2) % ecP
      some (x, (l * (x1 + ecP - x) + ecP - y1) % ecP)

/-- A point in Jacobian coordinates: x / z², y / z³; z = 0 is the point at infinity. -/
abbrev EcJac := Nat × Nat × Nat

/-- Difference modulo the field's prime, of numbers below it. -/
def subP (a b : Nat) : Nat := (a + ecP - b) % ecP

/-- Twice a point. -/
def jacDouble : EcJac → EcJac
  | (x, y, z) =>
    let y2 := y * y % ecP
    let z2 := z * z % ecP
    let s := 4 * x * y2 % ecP
    let m := (3 * x * x + ecA * z2 * z2) % ecP
    let x' := subP (m * m % ecP) (2 * s % ecP)
    (x', subP (m * subP s x' % ecP) (8 * y2 * y2 % ecP), 2 * y * z % ecP)

/-- A point plus (px, py). -/
def jacAdd (px py : Nat) : EcJac → EcJac
  | (x, y, z) =>
    if z = 0 then (px, py, 1)
    else
      let z2 := z * z % ecP
      let h := subP (px * z2 % ecP) x
      let r := subP (py * z2 * z % ecP) y
      if h = 0 then (if r = 0 then jacDouble (x, y, z) else (1, 1, 0))
      else
        let h2 := h * h % ecP
        let h3 := h2 * h % ecP
        let v := x * h2 % ecP
        let x' := subP (r * r % ecP) ((h3 + 2 * v) % ecP)
        (x', subP (r * subP v x' % ecP) (y * h3 % ecP), h * z % ecP)

/-- k times (px, py), doubling and adding; `fuel` bits of k are used. -/
def jacMul (px py : Nat) : Nat → Nat → EcJac
  | 0, _ => (1, 1, 0)
  | fuel + 1, k =>
    let d := jacDouble (jacMul px py fuel (k / 2))
    if k % 2 = 1 then jacAdd px py d else d

/-- k times a point; `fuel` bits of k are used. -/
def ecMul (p : EcPoint) (fuel k : Nat) : EcPoint :=
  match p with
  | none => none
  | some (px, py) =>
    match jacMul px py fuel k with
    | (x, y, z) =>
      if z = 0 then none
      else
        let i := invMod ecP z
        let i2 := i * i % ecP
        some (x * i2 % ecP, y * i2 * i % ecP)

/-- A point of the curve. -/
def onCurve (x y : Nat) : Bool := decide (x < ecP) && decide (y < ecP) && decide (y * y % ecP = (x * x * x + ecA * x + ecB) % ecP)

/-- A 97-byte SEC1 uncompressed point; none unless it is a point of the curve. -/
def ecParse (b : List Byte) : EcPoint :=
  let x := beNat (sliceB b 1 48)
  let y := beNat (sliceB b 49 48)
  if b.length = 97 ∧ byteAt b 0 = 4 ∧ onCurve x y then some (x, y) else none

/-- A point in 97 bytes. -/
def ecBytes : EcPoint → List Byte
  | none => List.replicate 97 0
  | some (x, y) => toLe 1 4 ++ toBe 48 x ++ toBe 48 y

/-- The public point of a private scalar. -/
def ecPublic (d : Nat) : EcPoint := ecMul (some ecG) 384 (d % ecN)

/-- ECDSA verification of r ‖ s (96 bytes) over a digest under a public key of 97 bytes. -/
def ecVerify (key digest sig : List Byte) : Bool :=
  match ecParse key with
  | none => false
  | some q =>
    let r := beNat (sliceB sig 0 48)
    let s := beNat (sliceB sig 48 48)
    if r = 0 ∨ s = 0 ∨ ecN ≤ r ∨ ecN ≤ s then false
    else
      let w := invMod ecN s
      match ecAdd (ecMul (some ecG) 384 (beNat digest * w % ecN)) (ecMul (some q) 384 (r * w % ecN)) with
      | none => false
      | some (x, _) => decide (x % ecN = r)

/-- An ECDSA signature of a digest with private scalar d and the nonce k. -/
def ecSign (d k : Nat) (digest : List Byte) : List Byte :=
  match ecPublic k with
  | none => List.replicate 96 0
  | some (x, _) =>
    let r := x % ecN
    toBe 48 r ++ toBe 48 (invMod ecN (k % ecN) * ((beNat digest + r * d) % ecN) % ecN)

/-- The x-coordinate of d times a point, in 48 bytes (ECDH). -/
def ecShared (d : Nat) (p : EcPoint) : List Byte :=
  match ecMul p 384 (d % ecN) with
  | none => List.replicate 48 0
  | some (x, _) => toBe 48 x

end Sys2Proof
end

