-- ==== Sys2Proof/Machine/Panel.lean ====
section
/-! DEFINITION. The raster lanes (chapter 15): stripes, line packets, the frame description, training, and safe
idle. -/
namespace Sys2Proof

/-- L of R392. -/
def laneNum (code : Nat) : Nat := if code = 0 then 8 else if code = 1 then 16 else 32
/-- Block time in 1/100 fabric cycle (R392). -/
def blockTime (code : Nat) : Nat := if code = 0 then 1584 else if code = 1 then 990 else 792
/-- Bits per component of PFMT (R402). -/
def pfmtBits (p : Nat) : Nat := if p = 0 then 8 else if p = 1 then 10 else 12
/-- A component as sent (R402). -/
def sendComp (p c : Nat) : Nat := if p = 0 then min ((c + 8) / 16) 255 else if p = 1 then min ((c + 2) / 4) 1023 else c

/-- Payload bytes P of a line of w pixels (R402). -/
def payloadLen (p w : Nat) : Nat := ceilDiv (3 * w * pfmtBits p) 8
/-- Data stripes S (R396). -/
def stripeCount (p w l : Nat) : Nat := ceilDiv (payloadLen p w) (8 * l)
/-- A line's payload (R402). -/
def payload (p : Nat) (px : List Pix) : List Byte :=
  let b := pfmtBits p
  let v := px.foldr (fun (q : Pix) acc => sendComp p q.c0 + 2 ^ b * (sendComp p q.c1 + 2 ^ b * (sendComp p q.c2 + 2 ^ b * acc))) 0
  toLe (payloadLen p px.length) v

/-- A control block (R395): TYPE, the lane with the flags of byte 1, bytes 2 to 6, CRC-8. -/
def ctlBlock (type flags lane : Nat) (rest : List Byte) : List Byte :=
  let b := toLe 1 type ++ toLe 1 (lane + flags) ++ sliceB rest 0 5
  b ++ toLe 1 (crc8 b)
/-- A stripe of control blocks on l lanes; bytes 2 to 6 may differ by lane. -/
def ctlStripe (type flags l : Nat) (rest : Nat → List Byte) : Stripe :=
  { ctl := true, blocks := (List.range l).map fun k => ctlBlock type flags k (rest k) }
/-- Data stripe n of a payload on l lanes (R396). -/
def dataStripe (l n : Nat) (bs : List Byte) : Stripe :=
  { ctl := false, blocks := (List.range l).map fun k => sliceB bs (8 * l * n + 8 * k) 8 }

/-! ### 64b/66b coding (R393) -/

/-- One bit through the self-synchronous scrambler 1 + x³⁹ + x⁵⁸ (R393): bit n of its state is the bit sent n + 1 bits
before. -/
def scrambleBit (st : BitVec 58) (b : Bool) : Bool × BitVec 58 :=
  let o := Bool.xor b (Bool.xor (st.getLsbD 38) (st.getLsbD 57))
  (o, (st <<< 1) ||| BitVec.ofNat 58 (b2n o))
/-- Bits through the scrambler, in the order sent. -/
def scramble (st : BitVec 58) : List Bool → List Bool × BitVec 58
  | [] => ([], st)
  | b :: bs =>
    let r := scrambleBit st b
    let q := scramble r.2 bs
    (r.1 :: q.1, q.2)
/-- A lane's block as sent (R393): the two bits of the sync header, 01 for data and 10 for control, and the 64 payload
bits scrambled, byte 0 first and each byte least significant bit first. -/
def codeBlock (ctl : Bool) (st : BitVec 58) (payload : List Byte) : List Bool × BitVec 58 :=
  let r := scramble st (payload.flatMap fun x => (List.range 8).map fun i => x.getLsbD i)
  ([ctl, !ctl] ++ r.1, r.2)
/-- A lane's blocks, one after another through its own scrambler. -/
def codeLane (st : BitVec 58) : List (Bool × List Byte) → List Bool × BitVec 58
  | [] => ([], st)
  | b :: bs =>
    let r := codeBlock b.1 st b.2
    let q := codeLane r.2 bs
    (r.1 ++ q.1, q.2)

/-- The block that a stripe puts on lane `k` in its block time number `i` (R395, R404). -/
def Stripe.block (b : Stripe) (k i : Nat) : List Byte :=
  let p := b.blocks.getD k []
  if b.ctl ∧ byteAt p 0 = 0x87 then ctlBlock 0x87 0 k (sliceB p 2 1 ++ toLe 3 ((leAt p 3 3 + i) % 2 ^ 24)) else p

/-- The blocks of stripes on lane `k`, in the order sent. -/
def laneBlocks (l : List Stripe) (k : Nat) : List (Bool × List Byte) :=
  l.flatMap fun b => (List.range b.times).map fun i => (b.ctl, b.block k i)

/-- A new event of the lanes begins: the scramblers of lanes 0 to `n` − 1 have passed what the last one sent (R393). -/
def PnlSt.newEvent (p : PnlSt) (n : Nat) : PnlSt :=
  { p with
    scr := (List.range 32).map fun k => if k < n then (codeLane (p.scr.getD k 0) (laneBlocks p.sent k)).2 else p.scr.getD k 0
    sent := [] }

/-- Stripes go out in the next block times, after those that this event has sent already. -/
def PnlSt.put (p : PnlSt) (l : List Stripe) : PnlSt :=
  l.foldl (fun p b => { p with sent := p.sent ++ [{ b with at_ := p.block }], block := p.block + b.times }) p

end Sys2Proof

namespace Sys2Proof.Machine

/-- L, block time and PFMT in use. -/
def State.lanes (s : State) : Nat := laneNum (s.getF F.PNL_CFG_LANES)
/-- Block time in 1/100 fabric cycle. -/
def State.blockTime (s : State) : Nat := Sys2Proof.blockTime (s.getF F.PNL_CFG_RATE)
/-- PFMT. -/
def State.pfmt (s : State) : Nat := s.getF F.PNL_CFG_PFMT
/-- Change the lanes. -/
def State.onPnl (s : State) (f : PnlSt → PnlSt) : State := { s with pnl := f s.pnl }
/-- Stripes go out in the next block times. -/
def State.send (s : State) (l : List Stripe) : State := s.onPnl fun p => p.put l
/-- STATE of PNL_STATUS. -/
def State.pnlState (s : State) : Nat := s.getF F.PNL_STATUS_STATE

/-- The bits that the last event put on lane `k` (R393), its scrambler carried over from the blocks before. -/
def State.laneBits (s : State) (k : Nat) : List Bool := (codeLane (s.pnl.scr.getD k 0) (laneBlocks s.pnl.sent k)).1

/-- Start of block time `n`, in 1/100 fabric cycle (R394). -/
def State.blockStart (s : State) (n : Nat) : Nat := s.pnl.phase + n * s.blockTime
/-- The first block time, not sent yet, that begins at or after `t`, in 1/100 fabric cycle (R394). -/
def State.blockFrom (s : State) (t : Nat) : Nat := max s.pnl.block (ceilDiv (t - s.pnl.phase) s.blockTime)

/-- The next block time inside a line packet (R396, R397): a data stripe once all its bytes are present, FILL before, and LINE_END after the
last. -/
def State.packetBlock (s : State) (k : Packet) : State :=
  let l := s.lanes
  let w := (s.modeOf k.frame).w
  let fill : State := (s.send [ctlStripe 0x2D 0 l fun _ => []]).onPnl fun p => { p with fills := p.fills + 1 }
  if stripeCount s.pfmt w l ≤ k.next then
    (s.send [ctlStripe 0x55 0 l fun q => toLe 4 (k.crcs.getD q 0 ^^^ 0xFFFFFFFF)]).onPnl fun p => { p with pkt := none }
  else match s.cmp.lines.find? fun c => c.frame == k.frame && c.y == k.y with
    | none => fill
    | some c =>
      let bytes := min (payloadLen s.pfmt w) (8 * l * (k.next + 1))
      let n := min w (ceilDiv (8 * bytes) (3 * pfmtBits s.pfmt))
      if s.blockStart s.pnl.block < 100 * (c.start + 6 + ceilDiv n 8) then fill
      else
        let d := dataStripe l k.next (payload s.pfmt c.px)
        let crcs := (List.range l).map fun q => crc32Run (k.crcs.getD q 0) (d.blocks.getD q [])
        (s.send [d]).onPnl fun p => { p with pkt := some { k with next := k.next + 1, crcs := crcs } }

/-- The next `n` block times of a running link: those of the packet in progress, then IDLE (R396). -/
def State.runBlocks : Nat → State → State
  | 0, s => s
  | n + 1, s =>
    match s.pnl.pkt with
    | some k => State.runBlocks n (s.packetBlock k)
    | none => s.send [{ ctlStripe 0x1E 0 s.lanes fun _ => [] with times := n + 1 }]

/-- TRAIN stripe number `seq` of a training (R395, R404): one goes out per block time, SEQ rising by one. -/
def State.trainStripe (s : State) (seq : Nat) : Stripe :=
  ctlStripe 0x87 0 s.lanes fun _ => toLe 1 (s.getF F.PNL_CFG_LANES + 4 * s.getF F.PNL_CFG_RATE) ++ toLe 3 (seq % 2 ^ 24)

/-- The block times before number `n` go out: TRAIN in training, the packet and IDLE while running, and nothing at electrical idle. -/
def State.blocksTo (s : State) (n : Nat) : State :=
  if n ≤ s.pnl.block then s
  else if s.pnlState = 1 then s.send [{ s.trainStripe (s.pnl.block - s.pnl.trainBlock) with times := n - s.pnl.block }]
  else if s.pnlState = 2 then s.runBlocks (n - s.pnl.block)
  else s.onPnl fun p => { p with block := n }

/-- An event of the lanes in this cycle: the block times that began before it have gone out, and the next begins at or after it (R394). -/
def State.lanesNow (s : State) : State := (s.onPnl fun p => p.newEvent s.lanes).blocksTo (s.blockFrom (100 * s.now))

/-! ### Training (R404, R405) -/

/-- Training starts at time 0, the end of the block time in progress: PNL_DRV is taken, and TRAIN stripes go out, the first with SEQ 0 (R404,
R405, R410). -/
def State.startTraining (s : State) : State :=
  let s1 := s.lanesNow
  ((s1.setF F.PNL_STATUS_STATE 1).onPnl fun p => { p with
    trainAt := ceilDiv (s1.blockStart s1.pnl.block) 100, trainBlock := p.block, sync := 0, pkt := none, resume := false
    drv := (s.getF F.PNL_DRV_SWING, s.getF F.PNL_DRV_PRE, s.getF F.PNL_DRV_POST) }).send [s1.trainStripe 0]

/-- Lanes may train: EN is 1 and boot is complete (R404, R499). -/
def State.mayTrain (s : State) : Bool := s.getF F.PNL_CTRL_EN == 1 && s.getF F.DEV_BOOT_COMPLETE == 1

/-- TRAINING_START (R404): from electrical idle, or after the idle between two attempts. -/
def State.trainingStart (s : State) : State :=
  if !s.mayTrain then s
  else if s.pnlState = 0 then s.startTraining
  else if s.pnlState = 4 then (s.waitUntil s.pnl.idleTo).startTraining
  else s

/-- The earliest cycle in which the link may go to running: 50 µs into training, and PANEL_RDY high for 10 µs since it was last read low. A
level is read once it has been stable for 1 µs, so a high one comes at the earliest that long after (R404). -/
def State.runFrom (s : State) : Nat :=
  max (s.pnl.trainAt + usCycles 50) ((s.pnl.lowAt.map fun t => t + usCycles 11).getD 0)

/-- PANEL_LINK_RUNNING (R404): PANEL_RDY has been high for 10 µs, from 50 µs after the start of training, and IDLE stripes go out. -/
def State.linkRunning (s : State) : State :=
  if s.pnlState ≠ 1 ∨ s.pnl.trainAt + msCycles 10 ≤ max s.now s.runFrom then s
  else (((s.waitUntil s.runFrom).lanesNow.setFs [(F.PNL_STATUS_STATE, 2), (F.PNL_STATUS_RDY, 1)]).onPnl
    fun p => { p with sync := 0, pkt := none }).send [ctlStripe 0x1E 0 s.lanes fun _ => []]

/-- TRAINING_TIMEOUT (R404): 10 ms without running; the lanes idle for 100 µs. -/
def State.trainingTimeout (s : State) : State :=
  if s.pnlState ≠ 1 then s
  else
    let s1 := (s.waitUntil (s.pnl.trainAt + msCycles 10)).lanesNow
    ((s1.incF F.PNL_CNT_TRAIN_FAIL 1).setF F.PNL_STATUS_STATE 4).onPnl fun p => { p with idleTo := s1.now + usCycles 100 }

/-- A cause that ranks above the stripe due at phase 0 touches the lanes (R408): what phase 0 of this cycle did to a packet is
not counted, its stripes are not sent, and an active line that begins in this cycle is not sent. -/
def State.overrulePhase0 (s : State) : State :=
  match s.pnl.phase0 with
  | some (t, n, b) =>
    if t ≠ s.now then s
    else
      let s1 := (s.uncountF F.PNL_PKT_TRUNC n).onPnl fun p => { p with
        phase0 := none, block := b, sent := p.sent.filter fun x => decide (x.at_ < b) }
      if s.cal.line < s.vActive then s1.incF F.PNL_LOST_LINES_LOST 1 else s1
  | none => s
/-- Training starts again and is counted: once in a cycle, whatever its causes (R405). -/
def State.retrainNow (s : State) : State :=
  let n := s.getF F.PNL_CNT_RETRAINS
  let s1 := s.overrulePhase0
  let s2 := match s.pnl.retrained with
    | some (t, _) => if t = s.now then s1 else (s1.incF F.PNL_CNT_RETRAINS 1).onPnl fun p => { p with retrained := some (s.now, n) }
    | none => (s1.incF F.PNL_CNT_RETRAINS 1).onPnl fun p => { p with retrained := some (s.now, n) }
  s2.startTraining
/-- A retraining of this cycle is not counted when a cause that ranks above it touches the lanes in the same cycle (R408). -/
def State.overruleRetrain (s : State) : State :=
  match s.pnl.retrained with
  | some (t, n) => if t = s.now then (s.uncountF F.PNL_CNT_RETRAINS n).onPnl fun p => { p with retrained := none } else s
  | none => s

/-- PANEL_RDY_LOW (R405): read low while running, the link retrains; during training it is not counted. -/
def State.rdyLow (s : State) : State :=
  let s1 := (s.setF F.PNL_STATUS_RDY 0).onPnl fun p => { p with lowAt := some s.now }
  if s.pnlState = 2 then s1.retrainNow else s1

/-- PANEL_RETRAIN: a write of RETRAIN (R405). -/
def State.retrain (s : State) : State := if s.pnlState = 1 ∨ s.pnlState = 2 then s.retrainNow else s

/-! ### Safe idle (R407, R408) -/

/-- SAFE_IDLE_ENTRY: the block time in progress ends, then 64 SAFE blocks, then electrical idle. Safe idle through REMOVE_N outlasts every other
cause, and safe idle through clearing EN becomes Doldrums' at its entry (R407, R512). -/
def State.safeEnter (s : State) (cause : Nat) : State :=
  if s.pnlState = 3 then
    let s1 := s.onPnl fun p => { p with resume := false }
    if cause = 1 ∨ (cause = 3 ∧ s.getF F.PNL_STATUS_SAFE_CAUSE ≠ 1) then s1.setF F.PNL_STATUS_SAFE_CAUSE cause else s1
  else
    let s1 := s.overrulePhase0.overruleRetrain.lanesNow
    ((s1.setFs [(F.PNL_STATUS_STATE, 3), (F.PNL_STATUS_SAFE_CAUSE, cause)]).onPnl fun p => { p with
      pkt := none, sync := 0, resume := false, safeTo := some (ceilDiv (s1.blockStart (p.block + 64)) 100) }).send
        [{ ctlStripe 0x99 0 s.lanes fun _ => [] with times := 64 }]

/-- Safe idle of a cause ends by training, once the SAFE sequence is over (R407, R408). -/
def State.safeLeave (s : State) : State :=
  if s.pnl.safeTo.isSome then s.onPnl fun p => { p with resume := true } else s.startTraining

/-- SAFE_SEQUENCE_END (R407). -/
def State.safeEnd (s : State) : State :=
  match s.pnl.safeTo with
  | none => s
  | some t =>
    let s1 := (s.waitUntil t).onPnl fun p => { p.newEvent s.lanes with safeTo := none }
    if s.pnl.resume then s1.startTraining else s1

/-- PANEL_EN_SET (R407): EN is written 1. In Doldrums it leaves the safe idle to the exit. -/
def State.enSet (s : State) : State :=
  let s1 := s.setF F.PNL_CTRL_EN 1
  if s.getF F.DEV_BOOT_COMPLETE = 0 then s1
  else if s.pnlState = 3 ∧ s.getF F.PNL_STATUS_SAFE_CAUSE = 2 ∧ s.pstate = 2 then s1.setF F.PNL_STATUS_SAFE_CAUSE 3
  else if s.pnlState = 3 ∧ s.getF F.PNL_STATUS_SAFE_CAUSE = 2 then s1.safeLeave
  else if s.pnlState = 0 then s1.startTraining
  else s1

/-- PANEL_EN_CLEAR (R407): EN is written 0. -/
def State.enClear (s : State) : State :=
  let was := s.getF F.PNL_CTRL_EN
  let s1 := s.setF F.PNL_CTRL_EN 0
  if was = 1 ∧ s.getF F.DEV_BOOT_COMPLETE = 1 then s1.safeEnter 2 else s1

/-! ### Line packets and blanking (R396 to R401) -/

/-- PACKET_TRUNCATE (R398). -/
def State.truncate (s : State) : State :=
  match s.pnl.pkt with
  | none => s
  | some k =>
    ((s.incF F.PNL_PKT_TRUNC 1).onPnl fun p => { p with pkt := none }).send
      [ctlStripe 0x55 32 s.lanes fun l => toLe 4 (k.crcs.getD l 0xFFFFFFFF ^^^ 0xFFFFFFFF)]

/-- GEOM_SEQ that the frame description carries (R401). -/
def State.nextGeom (s : State) : Nat :=
  (s.pnl.geom + (match s.change with | some c => b2n c.installed | none => 0)) % 256

/-- LINE_PACKET_START (R396): LINE_HDR of the active line that begins. -/
def State.lineHeader (s : State) : State :=
  let f := s.cal.frame
  let y := s.cal.line
  let fb := (s.cmp.lines.any fun c => c.frame == f && c.y == y && c.fb) || (s.sel.any fun c => c.frame == f && c.y == y && c.src.any fun k => k != 1)
  (s.send [ctlStripe 0x4B (32 * b2n fb + 64 * b2n (y + 1 == s.vActive)) s.lanes fun _ => toLe 2 y ++ toLe 2 f]).onPnl
    fun p => { p with pkt := some { frame := f, y := y, crcs := List.replicate s.lanes 0xFFFFFFFF } }

/-- BLANK_STRIPE of a blanking line (R399, R400), from the first that begins while the link runs; on the last line FRAME and
GEOM follow. -/
def State.blankStripes (s : State) : State :=
  let x := s.cal.line
  let v := s.cal.vTot.getD 0
  let gn : Bool := match s.change with | some c => c.installed | none => false
  let blank := ctlStripe 0x78 (32 * b2n s.pnl.relock + 64 * b2n gn) s.lanes fun _ => toLe 2 x ++ toLe 2 v
  if x + 1 = v then
    let n := (s.cal.frame + 1) % 2 ^ 32
    let m := s.modeOf n
    let fr := ctlStripe 0x66 0 s.lanes fun _ => toLe 4 n ++ toLe 1 s.nextGeom
    let gm := ctlStripe 0x6A 0 s.lanes fun _ => toLe 2 m.w ++ toLe 2 m.vActive ++ toLe 1 (s.pfmt + 4 * m.id)
    ((s.send [blank, fr, gm]).setF F.PNL_STATUS_GEOM_SEQ s.nextGeom).onPnl fun p => { p with sync := max 1 p.sync }
  else s.send [blank]

/-- What the lanes do at phase 0 of a line (R396 to R400, R404). -/
def State.laneLine (s : State) : State :=
  if s.pnlState ≠ 2 then (if s.cal.line < s.vActive then s.incF F.PNL_LOST_LINES_LOST 1 else s)
  else
    let s1 := (s.lanesNow.onPnl fun p => { p with phase0 := some (s.now, s.getF F.PNL_PKT_TRUNC, p.block) }).truncate
    if s.cal.line < s.vActive then (if s.pnl.sync = 2 then s1.lineHeader else s1) else s1.blankStripes

/-- At a boundary: packets are sent once the frame description has been (R404); FILLS is refreshed (R410). -/
def State.laneBoundary (s : State) : State :=
  s.onPnl fun p => { p with
    relock := false, sync := if p.sync = 1 ∧ s.pnlState = 2 then 2 else p.sync }

/-- DATA_STRIPE_SEND (R396, R397): inside a line packet, the block time that starts at `t` (in 1/100 fabric cycle) or is the first after it, with
those before it that have not gone out. -/
def State.stripe (s : State) (t : Nat) : State :=
  if s.pnlState ≠ 2 ∨ s.pnl.pkt.isNone then s
  else
    let n := s.blockFrom (max t (100 * s.now))
    ((s.waitUntil (s.blockStart n / 100)).onPnl fun p => p.newEvent s.lanes).blocksTo (n + 1)

end Sys2Proof.Machine
end

