-- ==== Sys2Proof/Machine/Container.lean ====
section
/-! DEFINITION. The Yarrothes container (R486 to R496): header, section table, signature block and the records of CONFIG;
and the values that check 1 tests beside the modes (R275, R366, R403, R420, R571), with all the load checks in order
(R291, R292). -/
namespace Sys2Proof.Machine

/-! ### Header and table (R488 to R491) -/

/-- A ledger area takes the highest 4 MiB (R486). -/
def ledgerArea : Nat := 4194304

/-- The header's fields are right, and the container leaves room for the ledger area (R486, R488). -/
def headerGood (h : List Byte) (mib : Nat) : Bool :=
  let total := leAt h 16 4
  h.take 8 == ascii "YARROTHS" && leAt h 8 2 == 1 && leAt h 10 2 == 0x8440 && byteAt h 12 == 1 &&
  within 2 64 (byteAt h 13) && total % 4096 == 0 && decide (total ≤ 268435456) && decide (total + ledgerArea ≤ mib * 1048576)

/-- Entries of the section table (R488). -/
def sectionTable (h : List Byte) : List (List Byte) := (List.range (byteAt h 13)).map fun i => sliceB h (128 + 64 * i) 64

/-- The signature block (R488, R491). -/
def sigBlock (h : List Byte) : List Byte := sliceB h (128 + 64 * byteAt h 13) 256

/-- The image digest (R491). -/
def imageDigestOf (h : List Byte) : List Byte := sha384 (h.take (128 + 64 * byteAt h 13))

/-- TYPE, INDEX, OFFSET, LENGTH, DEST and DIGEST of a section entry (R489). -/
def secType (e : List Byte) : Nat := byteAt e 0
/-- INDEX. -/
def secIndex (e : List Byte) : Nat := byteAt e 1
/-- OFFSET. -/
def secOffset (e : List Byte) : Nat := leAt e 4 4
/-- LENGTH. -/
def secLength (e : List Byte) : Nat := leAt e 8 4
/-- DEST. -/
def secDest (e : List Byte) : Nat := leAt e 12 4
/-- DIGEST. -/
def secDigest (e : List Byte) : List Byte := sliceB e 16 48

/-- Most sections of a type, the highest INDEX, and whether they are placed (R490); none for another TYPE. -/
def secRule (t : Nat) : Option (Nat × Nat × Bool) :=
  match t with
  | 1 => some (1, 0, false)
  | 2 => some (1, 0, true)
  | 3 => some (8, 7, true)
  | 5 => some (2, 1, false)
  | 6 => some (1, 0, false)
  | 7 => some (1, 0, false)
  | 8 => some (32, 0, true)
  | _ => none

/-- Entry `k` breaks R489 or R490, whatever the regions. -/
def entryBad (t : List (List Byte)) (total k : Nat) : Bool :=
  let e := t.getD k []
  let before := t.take k
  let from_ := if k = 0 then 128 + 64 * t.length + 256 else secOffset (t.getD (k - 1) []) + secLength (t.getD (k - 1) [])
  let ty := secType e
  (match secRule ty with
   | none => true
   | some (n, i, placed) =>
     decide (n ≤ (before.filter fun x => secType x == ty).length) || decide (i < secIndex e) ||
     ((ty == 3 || ty == 5) && before.any fun x => secType x == ty && secIndex x == secIndex e) ||
     (decide (secDest e = 0xFFFFFFFF) == placed)) ||
  ((ty == 1) != (k == 0)) || leAt e 2 2 != 0 || secOffset e % 4096 != 0 || decide (secOffset e < from_) || secLength e == 0 ||
  decide (total < secOffset e + secLength e) || (ty == 5 && decide (1024 < secLength e)) ||
  (ty == 7 && (secLength e % 104 != 0 || decide (416 < secLength e)))

/-- The table breaks R489 or R490: the first entry at fault, entry 0 where a section is missing. -/
def tableBad (t : List (List Byte)) (total : Nat) : Option Nat :=
  match (List.range t.length).find? fun k => entryBad t total k with
  | some k => some k
  | none => if (t.any fun e => secType e == 2) && t.any fun e => secType e == 3 then none else some 0

/-! ### CONFIG (R494, R495) -/

/-- The word in the bits of some fields of a register. -/
def State.setWord (s : State) (fs : List Fld) (v : Nat) : State := s.setFs (fs.map fun f => (f, bits v f.lo f.w))

/-- One REGS entry (R495): every cfg field of the register; false where it is a format failure. -/
def State.cfgEntry (s : State) (e : List Byte) : State × Bool :=
  match regAt (leAt e 0 5) with
  | none => (s, false)
  | some fs =>
    let cf := fs.filter fun f => f.cfg
    if cf = [] ∨ leAt e 5 3 ≠ 0 ∨ leAt e 0 5 % 4 ≠ 0 then (s, false) else (s.setWord cf (leAt e 8 4), true)

/-- The entries of a REGS record, as far as the first format failure. -/
def State.cfgEntries : Nat → List Byte → State → State × Bool
  | 0, _, s => (s, true)
  | n + 1, bs, s =>
    match s.cfgEntry (bs.take 12) with
    | (s1, true) => State.cfgEntries n (bs.drop 12) s1
    | r => r

/-- int16 values of a byte string. -/
def int16s (bs : List Byte) (o n : Nat) : List Int := (List.range n).map fun i => sext 16 (leAt bs (o + 2 * i) 2)

/-- A phase's taps are in range and sum to 256 (R102). -/
def tapsOk (l : List Int) : Bool := (l.all fun c => decide (-512 ≤ c) && decide (c ≤ 511)) && decide (l.foldl (· + ·) 0 = 256)

/-- Words of a byte string into consecutive registers. -/
def State.setWords (s : State) (f : Nat → Fld) (bs : List Byte) : State :=
  s.setFs ((List.range (bs.length / 4)).map fun i => (f i, leAt bs (4 * i) 4))

/-- LEN of a record other than REGS is the one stated (R494). -/
def cfgLenOk (tag len : Nat) : Bool :=
  if tag = 2 then len % 16 == 0 && within 16 256 len
  else (tag == 3 && len == 128) || (tag == 4 && len == 2560) || (tag == 5 && len == 24) || (tag == 6 && len == 1536)

/-- A record of CONFIG other than REGS takes effect (R494); false where it is a format failure. -/
def State.cfgOther (s : State) (tag : Nat) (c : List Byte) : State × Bool :=
  if !cfgLenOk tag c.length then (s, false)
  else if tag = 2 then (s.setWords F.DRM_REGION_DATA c, true)
  else if tag = 3 then (s.setWords F.SNS_ENTRY_DATA c, true)
  else if tag = 4 then
    let v (o : Nat) : List (List Int) := (List.range 64).map fun p => int16s c (o + 8 * p) 4
    let h (o : Nat) : List (List Int) := (List.range 64).map fun p => int16s c (o + 12 * p) 6
    if (v 0 ++ h 512 ++ v 1280 ++ h 1792).all tapsOk then
      ({ s with prog := { s.prog with fbV := v 0, fbH := h 512, rsV := v 1280, rsH := h 1792 } }, true)
    else (s, false)
  else if tag = 5 then ({ s with prog := { s.prog with convM := int16s c 0 9, convO := int16s c 18 3 } }, true)
  else ({ s with prog := { s.prog with frost := (List.range 8).map fun m => sliceB c (192 * m) 192 } }, true)

/-- The records of CONFIG, one after the other; `seen` are the tags already met. True where all of it is well formed. -/
def State.cfgRecords : Nat → List Nat → List Byte → State → State × Bool
  | 0, _, _, s => (s, false)
  | n + 1, seen, bs, s =>
    if bs = [] then (s, [1, 2, 4, 5, 6].all fun t => seen.contains t)
    else
      let tag := leAt bs 0 2
      let len := leAt bs 2 2
      let step := 4 + roundUp 4 len
      if bs.length < step ∨ (tag ≠ 1 ∧ seen.contains tag) then (s, false)
      else
        let c := sliceB bs 4 len
        let r := if tag = 1 then (if len % 12 = 0 then State.cfgEntries (len / 12) c s else (s, false)) else s.cfgOther tag c
        if r.2 then State.cfgRecords n (tag :: seen) (bs.drop step) r.1 else r

/-- CONFIG has been read: its records, and the shadowed values that the container gives come into use (R495, R93,
R379). False at a format failure. -/
def State.readConfig (s : State) (bs : List Byte) : State × Bool :=
  let r := State.cfgRecords (bs.length + 1) [] bs s
  if r.2 then (((r.1.onInp fun i => { i with geo := r.1.shadowGeo }).takePlane 0).takePlane 1, true) else r

/-- A section's place lies inside one region of the kind that its type asks for (R490). -/
def State.placeOk (s : State) (e : List Byte) : Bool :=
  let o := secDest e * 4096
  s.regions.any fun r => decide (r.1 ≤ o) && decide (o + secLength e ≤ r.1 + r.2.1) &&
    (secType e == 8 || (secType e == 2 && r.2.2 == 1) || (secType e == 3 && r.2.2 == 2))

/-- Entries of HOSTKEYS by slot; none where one is malformed (R490). -/
def hostKeysOf (bs : List Byte) : Option (List (Nat × List Byte)) :=
  let es := (List.range (bs.length / 104)).map fun i => sliceB bs (104 * i) 104
  if es.all fun e => decide (byteAt e 0 ≤ 3) && leAt e 1 3 == 0 && leAt e 101 3 == 0 then
    some (es.map fun e => (byteAt e 0, sliceB e 4 97)) else none

/-! ### The load checks (R291, R292) -/

/-- R366: the sensor entries. -/
def sensorsOk (es : List (List Byte)) : Bool :=
  (es.all fun e =>
    byteAt e 3 < 32 && leAt e 14 2 == 0 && (byteAt e 1 == 0 || (decide (byteAt e 1 ≤ 4) && within 1 4 (bits (byteAt e 3) 0 3) && decide (1 ≤ leAt e 8 2) &&
      decide (1 ≤ leAt e 10 2)))) &&
  let addrs := (es.filter fun e => byteAt e 1 != 0).map fun e => bits (byteAt e 0) 0 7
  decide (addrs.eraseDups.length = addrs.length)

/-- R420: the region table, entry by entry; an entry of zeros stands for none. -/
def regionsOk (es : List (List Byte)) : Bool :=
  let used := es.filter fun e => leNat e != 0
  (used.all fun e => within 1 4096 (leAt e 2 2) && decide (leAt e 0 2 + leAt e 2 2 ≤ 4096) && decide (byteAt e 4 ≤ 7) &&
    leNat (sliceB e 5 11) == 0) &&
  (List.range used.length).all fun i => (List.range i).all fun j =>
    let a := used.getD i []
    let b := used.getD j []
    decide (leAt a 0 2 + leAt a 2 2 ≤ leAt b 0 2) || decide (leAt b 0 2 + leAt b 2 2 ≤ leAt a 0 2)

/-- R403: no reserved code, and for every mode (2 + S) block times within 0.8 LP. Block times are in 1/100 fabric
cycle. -/
def State.panelOk (s : State) : Bool :=
  let l := s.getF F.PNL_CFG_LANES
  let r := s.getF F.PNL_CFG_RATE
  let p := s.getF F.PNL_CFG_PFMT
  l != 3 && r != 3 && p != 3 && s.prog.modes.all fun m =>
    decide (10 * (2 + stripeCount p m.w (laneNum l)) * Sys2Proof.blockTime r * 65536 ≤ 800 * m.lp)

/-- R275: each band's shares. -/
def State.sharesOk (s : State) : Bool :=
  let sh (b : Nat) : List Nat := [s.getF (F.BAND_FAB_SPLIT_READ b), s.getF (F.BAND_FAB_SPLIT_WRITE b), s.getF (F.BAND_FAB_SPLIT_REMOTE b)]
  (List.range 8).all fun b => (sh b).all (fun x => decide (4 ≤ x)) && (sh b).foldl (· + ·) 0 == 100 && sh b == sh 0

/-- A range of DRAM offsets lies in one region of a kind. -/
def State.inKind (s : State) (k o n : Nat) : Bool :=
  s.regions.any fun r => r.2.2 == k && decide (r.1 ≤ o) && decide (o + n ≤ r.1 + r.2.1)

/-- The largest bucket of a mask (R96). -/
def largestBucket (mask : Nat) : Nat := ((List.range 5).filter fun n => bit mask n).getLastD 0

/-- R571: the values of the container. -/
def State.valuesOk (s : State) : Bool :=
  let depth := s.getF F.INP_HIST_CFG_DEPTH
  let pitch := s.getF F.INP_HIST_CFG_PITCH
  let z := bucketSize (largestBucket s.prog.buckets)
  let hist := s.getF F.INP_HIST_BASE_LO_BASE_LO + 2 ^ 32 * s.getF F.INP_HIST_BASE_HI_BASE_HI
  let ring := s.getF F.AUD_RING_BASE_LO_RBASE_LO + 2 ^ 32 * s.getF F.AUD_RING_BASE_HI_RBASE_HI
  let count := s.getF F.AUD_RING_COUNT_COUNT
  within 3 8 depth && pitch % 2 == 0 && decide (roundUp 2 (ceilDiv (8 * z.1 * z.2) 1048576) ≤ pitch) && hist % 0x200000 == 0 &&
  decide (dramBase ≤ hist) && s.inKind 4 (hist - dramBase) (depth * pitch * 1048576) &&
  within 16 32768 count && pow2ceil count == count && decide (dramBase ≤ ring) && s.inKind 7 (ring - dramBase) (320 * count) &&
  (s.prog.mode (s.getF F.CAL_MODE_MODE_REQ)).isSome && (s.prog.sets.any fun m => m.2 == s.getF F.CAL_MSET_MSET_REQ)

/-- Entries of a table of 16-byte records held in registers. -/
def State.entries16 (s : State) (f : Nat → Fld) (n : Nat) : List (List Byte) :=
  (List.range n).map fun i => wordsToBytes ((List.range 4).map fun w => s.getF (f (4 * i + w)))

/-- Check 1 of R291: the modes, the fabric shares, then the records by their codes (R292). -/
def State.check1 (s : State) : Option LoadFail :=
  let rec_ (ok : Bool) (reason object : Nat) : Option LoadFail := if ok then none else some { check := 1, reason := reason, object := object }
  firstFail [s.prog.checkModes, rec_ s.sharesOk 6 0, rec_ (sensorsOk (s.entries16 F.SNS_ENTRY_DATA 8)) 1 0xFFE0,
    rec_ (regionsOk (s.entries16 F.DRM_REGION_DATA 16)) 1 0xFFE1, rec_ s.valuesOk 7 0xFFE2, rec_ s.panelOk 1 0xFFE3]

/-- LOAD_CHECKS (R291): checks 1 to 10 in order; the first failure. -/
def State.loadChecks (s : State) : Option LoadFail :=
  let p := s.prog
  let rd (o n : Nat) : List Byte := readB s.dram o n
  match s.check1 with
  | some f => some f
  | none => firstFail [p.checkCaps, p.checkCodebooks rd, p.checkPronouns, p.checkLayers rd, p.checkMaps rd,
      p.checkLists rd, p.checkWindows rd, p.checkClauses rd (s.getF F.INP_HIST_CFG_DEPTH), p.checkAlmanac]

/-- A load failure is recorded (R292). -/
def State.noteLoadFail (s : State) (f : LoadFail) : State :=
  s.setFs [(F.CAL_LOAD_FAULT_CHECK, f.check), (F.CAL_LOAD_FAULT_REASON, f.reason), (F.CAL_LOAD_FAULT_SCHED, f.sched),
    (F.CAL_LOAD_FAULT_UNIT, f.unit), (F.CAL_LOAD_FAULT_SCOPE, f.scope), (F.CAL_LOAD_OBJ_OBJECT, f.object), (F.CAL_LOAD_OBJ_NEED, min 0xFFFF f.need)]

end Sys2Proof.Machine
end

