-- ==== Sys2Proof/Machine/Audit.lean ====
section
/-! DEFINITION. Frame records and the record log (R439 to R453): what a frame's record fixes, the writer and its ring,
recording, and the writing of the log. -/
namespace Sys2Proof.Machine

/-! ### Frame records (R443 to R449) -/

end Sys2Proof.Machine
namespace Sys2Proof
open Sys2Proof.Machine
/-- The input digest of a completed input frame (R443). -/
def InDone.digest (d : InDone) : List Byte := sha384 (d.crcs.flatMap (toBe 8))
end Sys2Proof
namespace Sys2Proof.Machine
/-- 48 zero bytes. -/
def zero48 : List Byte := List.replicate 48 0

/-- A frame's record begins at its boundary (R447): everything the boundary fixes. `msw`, `scw`: the model set or
the schedule changed at this boundary. -/
def State.recBegin (s : State) (msw scw : Bool) : State :=
  let x := s.ctx
  let t := s.drzT != 0
  let d := s.drzSet
  let r : FrameRec := {
    frame := s.cal.frame, aligned := x.aligned, live := x.live, rt := s.getF F.CAL_STATUS_REALTIME == 1
    msw := msw, scw := scw, mset := s.getF F.CAL_MSET_MSET_CUR, sched := s.getF F.CAL_MODE_SCHED_CUR
    i := x.i, f := if x.live then 0 else x.f, shown := x.shown, synth := !x.live && x.shown && !x.aligned
    adaptVer := if t then d.version else 0, adapt := if t then d.adapt else zero48, msetDigest := s.mset.digest
    seed := s.frost.cur.seed, drzSeed := if t then s.drz.seed else 0 }
  { s with aud := { s.aud with cur := s.aud.cur ++ [r] } }

/-- IN_A and IN_B as far as their input frames are complete (R443). -/
def State.recDigests (s : State) (r : FrameRec) : FrameRec :=
  let find (n : Nat) : Option InDone := s.inp.done.find? fun d => d.num == n
  if !r.live ∧ !r.shown then { r with inA := some zero48, inB := some zero48 }
  else
    let a := find r.inFrame
    { r with
      inA := r.inA.or (a.map InDone.digest)
      blank := if r.inA.isSome then r.blank else (a.map (·.blank)).getD false
      inB := r.inB.or (if r.synth then (find ((r.inFrame + 1) % 2 ^ 32)).map InDone.digest else some zero48) }

/-- A TD count of a byte (R442). -/
def sat8 (n : Nat) : Nat := min 0xFF n
/-- A TD count of two bytes. -/
def sat16 (n : Nat) : Nat := min 0xFFFF n

end Sys2Proof.Machine
namespace Sys2Proof
open Sys2Proof.Machine
/-- TD of R442: the sum of the fields, saturating. -/
def TdCnt.total (t : TdCnt) : Nat :=
  min 0xFFFFFFFF (sat16 t.lines + sat8 t.fc.length + sat8 t.rt + sat8 t.drz + sat8 t.cap + sat16 t.gfx)
end Sys2Proof
namespace Sys2Proof.Machine

/-- Slot of a frame's record, as an offset in DRAM (R448). -/
def State.recSlot (s : State) (frame : Nat) : Nat :=
  let base := s.getF F.AUD_RING_BASE_LO_RBASE_LO + 2 ^ 32 * s.getF F.AUD_RING_BASE_HI_RBASE_HI
  base - dramBase + 320 * (frame % max 1 (s.getF F.AUD_RING_COUNT_COUNT))

end Sys2Proof.Machine
namespace Sys2Proof
open Sys2Proof.Machine
/-- FLAGS of a record (R447). -/
def FrameRec.flags (r : FrameRec) (valid : Bool) : Nat :=
  b2n r.aligned + 2 * b2n r.live + 4 * b2n r.rt + 8 * b2n r.enc + 16 * b2n r.blank + 32 * b2n r.msw + 64 * b2n r.scw + 128 * b2n valid
/-- Bytes 0 to 7 of a record (R447, R448). -/
def FrameRec.head (r : FrameRec) (valid : Bool) : List Byte :=
  toLe 4 r.frame ++ toLe 1 1 ++ toLe 1 (r.flags valid) ++ toLe 1 r.mset ++ toLe 1 r.sched

/-- The weight-set digest (R444). -/
def FrameRec.wset (r : FrameRec) : List Byte := sha384 (r.msetDigest ++ r.adapt)
/-- The record digest (R446). -/
def FrameRec.digest (r : FrameRec) (prog : List Byte) : List Byte :=
  sha384 (prog ++ r.wset ++ r.inA.getD zero48 ++ r.inB.getD zero48 ++ toLe 4 r.frame ++ toLe 2 r.seed ++ toLe 8 r.drzSeed)
/-- The output digest (R445). -/
def FrameRec.out (r : FrameRec) : List Byte := sha384 (r.crcs.flatMap (toBe 8))

/-- The 320 bytes of a record (R447). -/
def FrameRec.bytes (r : FrameRec) (prog : List Byte) : List Byte :=
  let t := r.td
  r.head true ++ toLe 4 (if r.shown || r.live then r.inFrame else 0xFFFFFFFF) ++ toLe 4 r.adaptVer ++ toLe 2 r.seed ++ toLe 2 r.f ++
  toLe 4 t.total ++ toLe 2 (sat16 t.lines) ++ toLe 1 (sat8 t.fc.length) ++ toLe 1 (sat8 t.rt) ++ toLe 1 (sat8 t.drz) ++
  toLe 1 (sat8 t.cap) ++ toLe 2 (sat16 t.gfx) ++ toLe 8 r.drzSeed ++ toLe 2 (r.vt.getD 0) ++ List.replicate 22 (0 : Byte) ++
  r.digest prog ++ r.wset ++ r.inA.getD zero48 ++ r.inB.getD zero48 ++ r.out ++ List.replicate 16 (0 : Byte)
end Sys2Proof
namespace Sys2Proof.Machine

/-- FRAME_RECORD_ENQUEUE (R442, R448, R449): composition of a frame's line V_ACTIVE − 1 has completed. -/
def State.recEnd (s : State) (frame : Nat) : State :=
  match s.aud.cur.find? fun r => r.frame == frame with
  | none => s
  | some r0 =>
    let td := SMap.get {} s.tds frame
    let r := s.recDigests { r0 with
      enc := s.readsEnc frame, td := td, crcs := SMap.get [] s.aud.crcs frame
      inFrame := if r0.live then s.liveFrame else r0.i }
    let s1 := ({ s with
      tds := SMap.del s.tds frame
      cmp := { s.cmp with regions := s.cmp.regions.map fun (q : RegionUse) => if q.miss = some frame then { q with missTd := td.total != 0 } else q }
      aud := { s.aud with cur := s.aud.cur.filter fun q => q.frame != frame, crcs := SMap.del s.aud.crcs frame } }).setF F.AUD_TD_LAST_TD td.total
    let s2 := if td.total = 0 then s1 else s1.incF F.AUD_REC_CNT_TD_FRAMES 1
    if 16 ≤ s.aud.recQ.length then
      (s2.incF F.AUD_REC_CNT_REC_LOST 1).writeMem 3 0 (s2.recSlot frame) (r.head false)
    else { s2 with aud := { s2.aud with recQ := s2.aud.recQ ++ [r] } }

/-- V_TOTAL of a frame is decided (R447). -/
def State.recVt (s : State) (frame v : Nat) : State :=
  let f (r : FrameRec) : FrameRec := if r.frame = frame then { r with vt := some v } else r
  { s with aud := { s.aud with cur := s.aud.cur.map f, recQ := s.aud.recQ.map f } }

/-- Waiting records take the digests of input frames that have become complete (R443). -/
def State.recRefresh (s : State) : State := { s with aud := { s.aud with recQ := s.aud.recQ.map s.recDigests } }

/-- FRAME_RECORD_WRITE (R448): the writer writes the oldest record, once all of it is known. -/
def State.recWrite (s : State) : State :=
  let s0 := s.recRefresh
  match s0.aud.recQ with
  | [] => s0
  | r :: rest =>
    if r.inA.isNone ∨ r.inB.isNone ∨ r.vt.isNone then s0
    else
      let s1 := s0.writeMem 3 0 (s0.recSlot r.frame) (r.bytes s0.prog.digest)
      ({ s1 with aud := { s1.aud with recQ := rest } }).setF F.AUD_REC_LAST_REC_LAST r.frame

/-- A composed line may be the last of its frame (R442). -/
def State.composed (s : State) (i : Nat) (late : List (Nat × Nat)) : State :=
  let f := (s.actsFor i).1
  let y := (s.actsFor i).2
  let n := (SMap.get [] s.aud.crcs f).length
  let s1 := s.composeLine i late
  if y + 1 = (s.modeOf f).vActive ∧ n < (SMap.get [] s1.aud.crcs f).length then s1.recEnd f else s1

/-! ### Recording (R450 to R453) -/

/-- AUD_REC_CTRL as a word. -/
def State.recCtrl (s : State) : Nat :=
  s.getF F.AUD_REC_CTRL_EN + 2 * s.getF F.AUD_REC_CTRL_WRAP + 4 * s.getF F.AUD_REC_CTRL_SYNC + 8 * s.getF F.AUD_REC_CTRL_SENS +
  16 * s.getF F.AUD_REC_CTRL_WRITE + 32 * s.getF F.AUD_REC_CTRL_CRC + 64 * s.getF F.AUD_REC_CTRL_LINES

/-- The image digest of the container (R493, DEV_IMAGE). -/
def State.imageDigest (s : State) : List Byte := (List.range 12).flatMap fun k => toLe 4 (s.getF (F.DEV_IMAGE_DIGEST k))

/-- AUD_REC_CTRL is taken (R458); RECORDING_BEGIN when EN has been set (R451): a HEAD entry, numbered from 0, at
LOG_BASE. With SIZE 0 recording writes nothing and stops at once. -/
def State.recordingTake (s : State) : State :=
  let c := s.recCtrl
  let was := bit s.aud.ctrl 0
  let s0 : State := { s with aud := { s.aud with ctrl := c } }
  if bit c 0 ∧ !was then
    if s.getF F.AUD_LOG_SIZE_SIZE = 0 then s0.setF F.AUD_LOG_STATUS_STATE 2
    else
      let s1 : State := { s0 with aud := { s0.aud with recording := true, seq := 0, buf := [], bufBytes := 0, lostRun := 0, ptr := 0 } }
      (s1.setFs [(F.AUD_LOG_STATUS_STATE, 1), (F.AUD_LOG_PTR_PTR, 0)]).logPut
        ⟨0, false, s.now, s.imageDigest ++ toLe 4 s.cal.frame ++ toLe 4 0⟩
  else if !bit c 0 ∧ was then
    ({ s0 with aud := { s0.aud with recording := false } }).setF F.AUD_LOG_STATUS_STATE (if s.getF F.AUD_LOG_STATUS_STATE = 2 then 2 else 0)
  else s0

/-- The FRAME entry of a boundary (R450, R451). `v` is the V_TOTAL decided for the frame that ends here. -/
def State.recordFrame (s : State) (v : Nat) : State :=
  if s.aud.recording then
    s.logPut ⟨1, false, s.now, toLe 4 s.cal.frame ++ toLe 2 v ++ toLe 1 (s.getF F.CAL_STATUS_SYNC_STATE) ++ toLe 1 0⟩
  else s

end Sys2Proof.Machine
namespace Sys2Proof
open Sys2Proof.Machine
/-- Bytes of an entry in the log (R450). -/
def LogEnt.bytes (e : LogEnt) (seq t0 : Nat) : List Byte :=
  toLe 1 e.type ++ toLe 1 (b2n e.withheld) ++ toLe 2 e.payload.length ++ toLe 4 seq ++
  toLe 8 (unsext 64 ((e.time : Int) - t0)) ++ padTo (roundUp 16 e.payload.length) e.payload
end Sys2Proof
namespace Sys2Proof.Machine

/-- LOG_ENTRY_WRITE (R452): the oldest buffered entry goes to the log, and a LOST entry into the room it leaves; an entry that
does not fit in what is left finds the log full. A log that does not lie in kind 0 (R450) is not written (log entry 39). -/
def State.logWrite (s : State) : State :=
  match s.aud.buf, s.aud.zero with
  | e :: rest, some z =>
    let size := s.getF F.AUD_LOG_SIZE_SIZE * 0x200000
    let a := s.getF F.AUD_LOG_BASE_LO_BASE_LO / 0x200000 * 0x200000 + 2 ^ 32 * s.getF F.AUD_LOG_BASE_HI_BASE_HI
    let n := logBytes e.payload.length
    let wrap := bit s.aud.ctrl 1
    let full := decide (size < s.aud.ptr + n)
    if size < n ∨ (full ∧ !wrap) then
      ({ s with aud := { s.aud with recording := false, buf := [], bufBytes := 0 } }).setF F.AUD_LOG_STATUS_STATE 2
    else
      let at_ := if full then 0 else s.aud.ptr
      let s1 := if s.inKind0 a size then s.writeMem 3 0 (a - dramBase + at_) (e.bytes s.aud.seq z) else s
      ({ s1 with aud := { s1.aud with
          buf := rest, bufBytes := s1.aud.bufBytes - n, ptr := at_ + n, seq := (s1.aud.seq + 1) % 2 ^ 32 } }).setF
        F.AUD_LOG_PTR_PTR ((at_ + n) / 16) |>.putLost
  | _, _ => s

end Sys2Proof.Machine
end

