-- ==== Sys2Proof/Machine/Power.lean ====
section
/-! DEFINITION. Power states (R508 to R513), the supply monitors (R514 to R517) and the thermal sampler (R518 to
R520). -/
namespace Sys2Proof.Machine

/-! ### Doldrums (R512, R513) -/

/-- HPD goes low on a port (R512). -/
def State.hpdLow (s : State) (n : Nat) : State := (s.onPort n fun p => { p with hpd := false, hpdRise := none }).signalCheck n

/-- Work for an output frame that will never be shown is discarded (R513). -/
def State.discardFrame (s : State) (n : Nat) : State :=
  { s with
    sel := [], fbSegs := [], fbStarted := [], tds := SMap.del s.tds n
    cmp := { s.cmp with fetched := [], lines := [], runs := s.cmp.runs.filter fun r => r.frame != n
                        queue := s.cmp.queue.filter fun q => q.1 != n }
    aud := { s.aud with cur := s.aud.cur.filter fun r => r.frame != n, crcs := SMap.del s.aud.crcs n } }

/-- Entry into Doldrums starts (R512): lanes, calendar, clauses, Drizzle, HPD. A change of schedule under way is
dropped: the exit installs MODE_REQ's schedule. -/
def State.enterDoldrums (s : State) (thermal : Bool) : State :=
  let s1 := (((s.safeEnter 3).abandonRuns false).abandonSteps).discardFrame s.cal.frame
  let s2 := (s1.hpdLow 0).hpdLow 1
  { s2.setFs [(F.PWR_STATE_STATE, 3), (F.PWR_STATE_BUSY, 1), (F.PWR_STATE_TARGET, 2), (F.PWR_STATE_THERMAL, b2n thermal),
      (F.CAL_MODE_CHANGING, 0), (F.CAL_MSET_MSET_PEND, 0)] with
    pstate := 2, cal := { s2.cal with running := false }
    change := none, msetSample := none, mwinEnd := none, ctxNext := none, noBase1 := false
    pwr := { s2.pwr with trans := .enter s2.now } }

/-- The control link is renegotiated with another advertisement (R460). -/
def State.relink (s : State) (rate lpi : Nat) : State :=
  let s1 := if s.getF F.TPL_LINK_STATE = 2 then s.incF F.TPL_ERR_LINK_DOWNS 1 else s
  s1.setFs [(F.TPL_LINK_STATE, if s.getF F.TPL_LINK_STATE = 0 then 0 else 1), (F.TPL_LINK_RATE, rate), (F.TPL_LINK_LPI, lpi)]

/-- DOLDRUMS_ENTRY_COMPLETE (R512): 0.5 ms after the start, transfers are complete, cores and bands are off, DRAM is in
self-refresh. -/
def State.doldrumsEntered (s : State) : State :=
  match s.pwr.trans with
  | .enter t =>
    let s1 := s.waitUntil (t + usCycles 500)
    let s2 := (s1.each 72 fun s p => (coreEngines p).foldl (fun s g => s.quietEngine g) s).each 8 fun s b =>
      (bandEngines b).foldl (fun s g => s.quietEngine g) s
    let s3 := (s2.each 72 fun s p => s.onCore p offCore).each 8 fun s b => s.onBand b offBand
    ({ s3 with signals := [], remotes := [], warp := List.replicate 8 {}, box := none
               fab := { s3.fab with barriers := [], mcasts := [], handovers := List.replicate 8 none } }
        |>.setF F.DRM_STATUS_SELF_REFRESH 1 |>.relink 1 1).transitionDone 2
  | _ => s

/-! ### Requests (R509 to R511) -/

/-- A diode's release level in 1/16 °C (R518). -/
def releaseLevel (d : Nat) : Int := if d < 8 then 1600 else if d = 8 then 1280 else 1760
/-- A diode's warning level. -/
def warnLevel (d : Nat) : Int := if d < 8 then 1600 else if d = 8 then 1360 else 1760
/-- A diode's trip level. -/
def tripLevel (d : Nat) : Int := if d < 8 then 1840 else if d = 8 then 1520 else 2000

/-- A thermal trip holds the device (R520). -/
def State.thermalHold (s : State) : Bool :=
  s.pstate == 2 && s.getF F.PWR_STATE_THERMAL == 1 &&
  (List.range 10).any fun d => decide (releaseLevel d ≤ sext 16 (s.getF (F.PWR_TEMP_TEMP d)))

/-- NB of the mode that MODE_REQ names, or of MODE_CUR (R509). -/
def State.wantedNb (s : State) : Nat :=
  match s.prog.mode (s.getF F.CAL_MODE_MODE_REQ) with
  | some m => m.nb
  | none => ((s.prog.mode (s.getF F.CAL_MODE_MODE_CUR)).map (·.nb)).getD 0

/-- A POWER request (R509): the response's status, and the transition that an accepted one starts (R510 to R512). -/
def State.powerRequest (s : State) (target : Nat) : Nat × State :=
  let st := s.getF F.PWR_STATE_STATE
  if s.getF F.PWR_STATE_BUSY = 1 ∨ s.thermalHold then (6, s)
  else if target = st then (0, s)
  else if target < 2 ∧ s.wantedNb ≠ target then (2, s)
  else
    let s1 := s.setFs [(F.PWR_STATE_STATE, 3), (F.PWR_STATE_BUSY, 1), (F.PWR_STATE_TARGET, target)]
    let go (t : Trans) : State := s1.onPwr fun w => { w with trans := t }
    if st = 2 then (0, go (.exit s.now))
    else if target = 2 then (0, go .enterWait)
    else if target = 1 then (0, (go .toBreeze).modeCheck)
    else (0, (go (.powerUp s.now)).modeCheck)

/-- A core that has been powered up: its memories hold zeros with valid check bits (R202, R511), the model set in use
and the live pages of the live adapter version (R147). -/
def State.loadCore (s : State) (p : Nat) : State :=
  let m := s.mset
  let err := m.written.filter fun e => s.memBad 3 0 (m.pageOff.getD e 0) 2048
  let s1 := (s.onCore p offCore).loadMset p m err
  let bank := s.getF (F.CORE_WFILE_ADAPT_BANK (s.phys 0))
  (s1.setF (F.CORE_WFILE_ADAPT_BANK p) bank).onCore p fun c => { c with
    tiles := (List.range m.t).foldl (fun t i => SMap.set [] t (m.a + bank * m.t + i)
      (pageCodes (readB s.dram (s.pageBufOff s.drzSet.buf + 2048 * i) 2048))) c.tiles }

/-- BAND_POWER_UP_DONE (R511): at most 8 ms after the acceptance; then the change of schedule is decided. -/
def State.bandsUp (s : State) : State :=
  match s.pwr.trans with
  | .powerUp t =>
    let s1 := s.waitUntil (t + msCycles 8)
    let s2 := [4, 5, 6, 7].foldl (fun (s : State) b =>
      (s.onBand b offBand).each 9 fun s k =>
        if k = s.getF (F.BAND_SLOTMAP_IDLE_SLOT b) ∧ s.getF (F.BAND_SLOTMAP_IDLE_RETIRED b) = 1 then s else s.loadCore (9 * b + k)) s1
    (s2.onPwr fun w => { w with trans := .toGale }).modeCheck
  | _ => s

/-! ### Supplies (R514 to R516) -/

/-- BIN_DIP of every powered core (R515); it returns to 0 also in cores that have lost power since. -/
def State.setDip (s : State) (v : Nat) : State :=
  s.each 72 fun s p =>
    if (v = 1 ∧ (s.pstate = 2 ∨ s.getF (F.BAND_SLOTMAP_GATED (bandOf p)) = 1)) ∨ s.getF (F.CORE_CLK_BIN_DIP p) = v then s
    else (s.setF (F.CORE_CLK_BIN_DIP p) v).onCore p fun c => { c with binFrom := s.now }

/-- SUPPLY_WARNING (R515): supply 0 the 12 V input, 1 the core rail, has crossed its warning level; levels in mV. -/
def State.supplyWarning (s : State) (supply v12 vcore : Nat) : State :=
  let f := if supply = 0 then F.PWR_SUPPLY_V12_WARN else F.PWR_SUPPLY_VCORE_WARN
  let s1 := s.setF f 1
  if s.pstate = 2 then s1.incF F.PWR_SUPPLY_DIPS 1
  else if s.pwr.episode then
    (s1.setF F.PWR_SUPPLY_HOLDOFF 0).onPwr fun w => { w with
      dipFrom := some (w.dipFrom.getD s.now), holdEnd := none, dipMin := (min w.dipMin.1 v12, min w.dipMin.2 vcore) }
  else
    ((((s1.setFs [(F.PWR_SUPPLY_DIP, 1), (F.PWR_SUPPLY_HOLDOFF, 0)]).incF F.PWR_SUPPLY_DIPS 1).setDip 1).onPwr fun w => { w with
      episode := true, dipSupply := supply, dipFrom := some s.now, dipLen := 0, dipMin := (v12, vcore), holdEnd := none }).setFs
        [(F.PWR_DIP_MIN_V12_MIN, v12), (F.PWR_DIP_MIN_VCORE_MIN, vcore)]

/-- SUPPLY_RECOVERY (R515): both supplies have risen above their recovery levels; `v12` and `vcore` are the lowest
levels that they reached. The hold-off of 5 ms starts. -/
def State.supplyRecovery (s : State) (v12 vcore : Nat) : State :=
  let s0 := s.setFs [(F.PWR_SUPPLY_V12_WARN, 0), (F.PWR_SUPPLY_VCORE_WARN, 0)]
  match s.pwr.episode, s.pwr.dipFrom with
  | true, some t =>
    let m := (min s.pwr.dipMin.1 v12, min s.pwr.dipMin.2 vcore)
    (s0.setFs [(F.PWR_SUPPLY_HOLDOFF, 1), (F.PWR_DIP_MIN_V12_MIN, m.1), (F.PWR_DIP_MIN_VCORE_MIN, m.2)]).onPwr fun w => { w with
      dipFrom := none, dipLen := w.dipLen + (s.now - t), dipMin := m, holdEnd := some (s.now + msCycles 5) }
  | _, _ => s0

/-- SUPPLY record (R530). -/
def State.supplyRecord (s : State) (supply level len : Nat) (reset : Bool) : State :=
  s.ledger 10 supply (toLe 2 level ++ toLe 4 len ++ toLe 1 (b2n reset))

/-- HOLDOFF_EXPIRY (R515): BIN_DIP returns to 0; the episode's length and record. -/
def State.holdoffEnd (s : State) : State :=
  match s.pwr.holdEnd with
  | none => s
  | some t =>
    let w := s.pwr
    let s1 := (((s.waitUntil t).setFs [(F.PWR_SUPPLY_HOLDOFF, 0), (F.PWR_SUPPLY_DIP, 0), (F.PWR_DIP_LEN_LEN, min (2 ^ 32 - 1) w.dipLen)]).setDip 0).onPwr
      fun w => { w with episode := false, holdEnd := none }
    s1.supplyRecord w.dipSupply (if w.dipSupply = 0 then w.dipMin.1 else w.dipMin.2) w.dipLen false

/-! ### Samples (R368, R517 to R520) -/

/-- THERMAL record (R530). -/
def State.thermalRecord (s : State) (d : Nat) (t : Int) (trip : Bool) : State :=
  s.ledger 11 d (toLe 2 (unsext 16 t) ++ toLe 1 (b2n trip))

/-- One diode of a sample: THERMAL_WARNING and THERMAL_TRIP (R519, R520). `was` is its last reading. -/
def State.diode (s : State) (was : Int) (d : Nat) (t : Int) : State :=
  let w := s.getF F.PWR_THERM_WARN
  let s1 := s.setF (F.PWR_TEMP_TEMP d) (unsext 16 t)
  let s2 := if warnLevel d ≤ t then
      (if bit w d then s1 else ((s1.setF F.PWR_THERM_WARN (w + 2 ^ d)).incF F.PWR_THERM_WARNS 1).thermalRecord d t false)
    else if bit w d then s1.setF F.PWR_THERM_WARN (w - 2 ^ d) else s1
  if tripLevel d ≤ t ∧ was < tripLevel d then
    let s3 := (s2.setFs [(F.PWR_THERM_LAST_TRIP, d), (F.PWR_THERM_TRIPPED, 1)]).thermalRecord d t true
    if s.pstate = 2 then
      (match s.pwr.trans with
       | .exit _ => s3.enterDoldrums true
       | _ => s3.setF F.PWR_STATE_THERMAL 1)
    else if s.getF F.DEV_BOOT_COMPLETE = 1 then s3.enterDoldrums true else s3
  else s2

/-- INTERNAL_SAMPLE (R368): the ten diodes in 1/16 °C, the 12 V input in mV and mA, and the core rail in mV, every
100 µs; the slots of the vector (R370), the log (R450), HIGH (R517). -/
def State.internalSample (s : State) (temps : List Int) (v12 i12 vcore : Nat) : State :=
  let s1 := (s.waitUntil s.pwr.sampleDue).onPwr fun w => { w with sampleDue := s.pwr.sampleDue + usCycles 100 }
  let t (d : Nat) : Int := temps.getD d 0
  let old (d : Nat) : Int := sext 16 (s.getF (F.PWR_TEMP_TEMP d))
  let s2 := s1.each 10 fun s d => s.diode (old d) d (t d)
  let band := (List.range 8).map t
  let hot := band.foldl max (t 0)
  let mean := band.foldl (· + ·) 0
  let p := v12 * i12
  let at_ := s1.now
  let s3 := (((((s2.keepSample 8 ⟨at_, hot, 16⟩).keepSample 9 ⟨at_, mean, 128⟩).keepSample 10 ⟨at_, t 8, 16⟩).keepSample 11 ⟨at_, t 9, 16⟩).keepSample
    12 ⟨at_, (p : Nat), 1000000⟩).keepSample 13 ⟨at_, (vcore : Nat), 1000⟩
  let rec_ (s : State) (src : Nat) (v : Int) : State :=
    s.record F.AUD_REC_CTRL_SENS ⟨3, false, at_, toLe 4 src ++ toLe 4 (unsext 32 v)⟩
  let s4 := s3.each 10 fun s d => rec_ s (8 + d) (16 * t d)
  let s5 := rec_ (rec_ s4 18 (roundDiv ((256 * p : Nat) : Int) 1000000)) 19 (roundDiv ((256 * vcore : Nat) : Int) 1000)
  let s6 := s5.setFs [(F.PWR_IN_V12, v12), (F.PWR_IN_I12, i12), (F.PWR_INPWR_P, (roundDiv ((p : Nat) : Int) 10000).toNat), (F.PWR_VCORE_VCORE, vcore)]
  let sum := s.pwr.msPower + p
  if s.pwr.msCount = 9 then
    (if 600000000 < sum then s6.incF F.PWR_INPWR_HIGH 1 else s6).onPwr fun w => { w with msCount := 0, msPower := 0 }
  else s6.onPwr fun w => { w with msCount := s.pwr.msCount + 1, msPower := sum }

end Sys2Proof.Machine
end

