-- ==== Sys2Proof/Machine/Calendar.lean ====
section
/-! DEFINITION. Locking to SYNC_IN (R51 to R56): timestamps, windows, the state, and the decision of
V_TOTAL; the calendar's start (R55). -/
namespace Sys2Proof.Machine

/-- A count of fabric cycles in 1/4096 LP, rounded (R51). -/
def cyclesToLp12 (lp : Nat) (c : Int) : Int := if lp = 0 then 0 else roundDiv (c * 65536 * 4096) lp
/-- round() of a value held in 1/4096 LP (R51). -/
def roundLp (v : Int) : Int := roundDiv v 4096

/-- SLEW of R57; values 9 to 15 act as 8. CAL_SYNC_CFG as of the last decision (R58). -/
def calSlew (cfg : Nat) : Nat := min 8 (bits cfg 0 4)
/-- SYNC_EN of R57. -/
def calSyncEn (cfg : Nat) : Bool := bit cfg 4
/-- RELOCK_EN of R57. -/
def calRelockEn (cfg : Nat) : Bool := bit cfg 5
/-- RELOCK_LINES of R57. -/
def calRelockLines (cfg : Nat) : Nat := bits cfg 16 16

/-- CAL_SYNC_CFG as the host left it. -/
def State.syncCfgNow (s : State) : Nat :=
  s.getF F.CAL_SYNC_CFG_SLEW + 16 * s.getF F.CAL_SYNC_CFG_SYNC_EN + 32 * s.getF F.CAL_SYNC_CFG_RELOCK_EN +
  65536 * s.getF F.CAL_SYNC_CFG_RELOCK_LINES

/-- Move to a state of R53; a move into FREE counts in LOSSES. -/
def State.toSync (s : State) (st : Nat) : State :=
  let s1 := if st = 0 ∧ s.getF F.CAL_STATUS_SYNC_STATE ≠ 0 then s.incF F.CAL_SYNC_CNT_LOSSES 1 else s
  let s2 := s1.setF F.CAL_STATUS_SYNC_STATE st
  if st = 0 then s2 else { s2 with cal := { s2.cal with heldFree := false } }

/-- P in range (R52). -/
def State.pInRange (s : State) (p12 : Nat) : Bool :=
  decide ((s.getF F.CAL_VLIMITS_VT_MIN : Int) ≤ roundLp p12) && decide (roundLp p12 ≤ s.getF F.CAL_VLIMITS_VT_MAX)

/-- The state that a measured pulse with P in range enters (R53), given how many consecutive pulses
have had |e| > RELOCK_LINES, this one included. -/
def syncTest (cfg : Nat) (e12 : Int) (bigRow : Nat) : Nat :=
  if e12.natAbs < 4096 then 1
  else if e12.natAbs ≤ 4096 * calRelockLines cfg then 2
  else if !calRelockEn cfg then 2
  else if bigRow < 2 then 2 else 3

/-- A pulse becomes the measured pulse of the boundary that began the current frame (R51, R53). -/
def State.measure (s : State) (pulse : Nat) : State :=
  let c := s.cal
  let e12 := cyclesToLp12 s.lp ((c.t0 : Int) - pulse)
  let p12 := c.lastPulse.map fun l => (cyclesToLp12 s.lp ((pulse : Int) - l)).toNat
  let inRange : Bool := match p12 with | some p => s.pInRange p | none => false
  let big := if inRange ∧ 4096 * calRelockLines c.syncCfg < e12.natAbs then min 2 (c.bigE + 1) else 0
  let s1 : State := { s with cal := { c with
      e12 := some e12, p12 := p12, lastPulse := some pulse, noPulse := 0, bigE := big,
      edges := c.edges.filter (fun t => t != pulse), winOpen := false } }
  let s2 := s1.setF F.CAL_STATUS_ERR_LINES (unsext 16 (roundLp e12))
  let s3 := match c.lastPulse with
    | some l => s2.setF F.CAL_SYNC_PERIOD_PERIOD (pulse - l)
    | none => s2
  match p12 with
  | none => s3
  | some _ =>
    if !inRange then (s3.setF F.CAL_STATUS_OUT_OF_RANGE 1).toSync 0
    else
      let s4 := s3.setF F.CAL_STATUS_OUT_OF_RANGE 0
      if calSyncEn c.syncCfg then s4.toSync (syncTest c.syncCfg e12 big) else s4

/-- The first kept edge in the open window (R51), which excludes the cycle in which line `winEnd` begins. -/
def State.windowEdge (s : State) : Option Nat :=
  s.cal.edges.find? fun t => decide (s.cal.winFrom ≤ t) && decide (t ≤ s.now) &&
    decide (t < lineCycle s.cal.t0 s.cal.acc0 s.lp s.cal.winEnd)

/-- Assign a kept edge to the open window, if one lies in it (R51). -/
def State.assign (s : State) : State :=
  if s.cal.winOpen then
    match s.windowEdge with
    | some t => s.measure t
    | none => s
  else s

/-- The window of the boundary that began this frame ends with the start of line `winEnd` (R51): a
boundary without a measured pulse, and two of them in a row move the state to FREE (R53). Edges before
the window are ignored. The edge of the closing cycle lies outside it. -/
def State.closeWindow (s : State) : State :=
  if s.cal.line = s.cal.winEnd then
    let kept := s.cal.edges.filter fun t => decide (s.cal.winFrom ≤ t)
    let s1 : State := { s with cal := { s.cal with edges := kept, winOpen := false } }
    if s.cal.winOpen then
      let n := min 2 (s.cal.noPulse + 1)
      let s2 : State := { s1 with cal := { s1.cal with noPulse := n } }
      if n = 2 ∧ s2.getF F.CAL_STATUS_SYNC_STATE ≠ 0 then s2.toSync 0 else s2
    else s1
  else s

/-- relock_correction of R54, on the lines of P and of the correction wanted. -/
def relockCorrection (rp c1 : Int) (vmin vmax : Nat) : Int :=
  let fits (c : Int) : Bool := decide ((vmin : Int) ≤ rp + c) && decide (rp + c ≤ vmax)
  let dist (c : Int) : Nat := if rp + c < vmin then ((vmin : Int) - (rp + c)).toNat else (rp + c - vmax).toNat
  let c2 := c1 + rp
  if fits c1 then c1 else if fits c2 then c2 else if dist c2 < dist c1 then c2 else c1

/-- V_TOTAL under R52, R53 and R55, from the state, e and P. -/
def vTotalRule (st : Nat) (cfg : Nat) (heldFree : Bool) (hold : Option Nat) (e12 : Option Int)
    (p12 : Option Nat) (vtNom vmin vmax : Nat) : Nat :=
  if st = 0 then (if heldFree ∨ !calSyncEn cfg then vtNom else hold.getD vtNom)
  else
    let rp := roundLp ((p12.getD 0 : Nat) : Int)
    let c : Int := match e12 with
      | none => 0
      | some e =>
        let c := -roundLp e
        if st = 3 then relockCorrection rp c vmin vmax
        else clampI (-(calSlew cfg : Int)) (calSlew cfg) c
    (clampI vmin vmax (rp + c)).toNat

/-- DECIDE_V_TOTAL at the start of line V_ACTIVE (R50, R52), with RELOCK_FRAME (R54): the host's
CAL_SYNC_CFG is taken at this decision (R58). -/
def State.decideVTotal (s : State) : State :=
  let cfg := s.syncCfgNow
  let s0 : State := { s with cal := { s.cal with syncCfg := cfg } }
  let s1 := if !calSyncEn cfg ∧ s0.getF F.CAL_STATUS_SYNC_STATE ≠ 0 then s0.toSync 0 else s0
  let st := s1.getF F.CAL_STATUS_SYNC_STATE
  let v := vTotalRule st cfg s1.cal.heldFree s1.cal.hold s1.cal.e12 s1.cal.p12
    (s1.getF F.CAL_VACTIVE_VT_NOM) (s1.getF F.CAL_VLIMITS_VT_MIN) (s1.getF F.CAL_VLIMITS_VT_MAX)
  let s2 := if st = 3 then s1.incF F.CAL_SYNC_CNT_RELOCKS 1 else s1
  let s3 := s2.setF F.CAL_VTOTAL_VT_CUR v
  { s3 with cal := { s3.cal with vTot := some v, hold := if st = 0 then s3.cal.hold else some v } }

/-- CALENDAR_START (R55): the calendar starts in FREE at a frame boundary; kept timestamps are
discarded, and no LOSSES counts. `frame` is the number of the first frame. -/
def State.calStart (s : State) (frame : Nat) : State :=
  let vb := s.getF F.CAL_VACTIVE_VT_NOM
  let s1 := s.setFs [(F.CAL_STATUS_SYNC_STATE, 0), (F.CAL_STATUS_OUT_OF_RANGE, 0)]
  { s1 with cal := {
      running := true, frame := frame, line := 0, acc := 0, t0 := s.now, acc0 := 0,
      vTot := none, hold := none, heldFree := true, winFrom := s.now, winEnd := min (vb / 2) s.vActive,
      winOpen := true, edges := [], syncCfg := s.syncCfgNow, started := s.cal.started } }

/-- The window of the boundary that ends the current frame (R51): its first cycle. -/
def State.nextWinFrom (s : State) (v : Nat) : Nat := lineCycle s.cal.t0 s.cal.acc0 s.lp (v - v / 2)

end Sys2Proof.Machine
end

