-- ==== Sys2Proof/Machine/ReplayLog.lean ====
section
/-! DEFINITION. What a replay takes from its log in place of the world (R450, R455, R456): reading the log, recorded
SYNC_IN edges, recorded samples, and the comparison of V_TOTAL. -/
namespace Sys2Proof.Machine

/-- Entries of a log from an offset on (R450): they end with the region, or where the next header does not carry the
next entry number (DESIGN CHOICE, see the log). -/
def parseLog (rd : Nat → Nat → List Byte) (size : Nat) : Nat → Nat → Nat → List ReplayEnt
  | 0, _, _ => []
  | fuel + 1, off, seq =>
    let h := rd off 16
    let len := leAt h 2 2
    let n := 16 + roundUp 16 len
    if size < off + n ∨ leAt h 4 4 ≠ seq % 2 ^ 32 ∨ 7 < byteAt h 0 then []
    else
      { type := byteAt h 0, withheld := bit (byteAt h 1) 0, time := sext 64 (leAt h 8 8), payload := rd (off + 16) len } ::
        parseLog rd size fuel (off + n) (seq + 1)

/-- The log that AUD_REPLAY_BASE and AUD_REPLAY_SIZE locate (R454, R458). -/
def State.replayEntries (s : State) : List ReplayEnt :=
  let base := (s.getF F.AUD_REPLAY_BASE_LO_BASE_LO / 0x200000 * 0x200000 + 2 ^ 32 * s.getF F.AUD_REPLAY_BASE_HI_BASE_HI) - dramBase
  let size := s.getF F.AUD_REPLAY_SIZE_SIZE * 0x200000
  parseLog (fun o n => readB s.dram (base + o) n) size (size / 16) 0 0

/-- The cycle of a recorded TIME (R450). -/
def State.replayCycle (s : State) (t : Int) : Nat := (((s.aud.zero.getD 0 : Nat) : Int) + t).toNat

/-- SYNC_IN_EDGE (R51, R451, R455): an edge of the pin, or in a replay the next recorded edge with its recorded time
as timestamp. -/
def State.pinEdge (s : State) : State :=
  let put (s : State) (t : Nat) : State :=
    let s1 := s.record F.AUD_REC_CTRL_SYNC ⟨2, false, t, []⟩
    ({ s1 with cal := { s1.cal with edges := s1.cal.edges ++ [t] } } : State).assign
  if s.aud.replay then
    match s.aud.replayLog.find? fun e => e.type == 2 with
    | none => s
    | some e =>
      let t := s.replayCycle e.time
      put { s.waitUntil t with aud := { s.aud with replayLog := s.aud.replayLog.erase e } } t
  else put s s.now

/-- A sample joins those of a slot of the vector. -/
def State.addSample (s : State) (slot : Nat) (x : Sample) : State :=
  { s with sns := { s.sns with samples := SMap.set [] s.sns.samples slot (SMap.get [] s.sns.samples slot ++ [x]) } }

/-- A recorded sample of an external entry (R450, R368), as a sample of its slot. -/
def State.replayExternal (s : State) (e : ReplayEnt) : State :=
  let i := byteAt e.payload 0
  let v := sensorValue (s.sensorEntry i) (sext 32 (leAt e.payload 4 4))
  s.addSample i ⟨s.replayCycle e.time, v.num, v.den⟩

/-- The recorded internal samples of one instant (R450, R370), as samples of slots 8 to 13. `es` holds them. -/
def State.replayInternal (s : State) (t : Int) (es : List ReplayEnt) : State :=
  let v (src : Nat) : Option Int := (es.find? fun e => byteAt e.payload 0 == src).map fun e => sext 32 (leAt e.payload 4 4)
  let band := (List.range 8).filterMap fun d => v (8 + d)
  let put (s : State) (slot : Nat) (x : Option Int) (den : Nat) : State :=
    match x with
    | none => s
    | some n => s.addSample slot ⟨s.replayCycle t, n, den⟩
  let hot : Option Int := band.head?.map fun a => band.foldl max a
  let mean : Option Int := if band.length = 8 then some (band.foldl (· + ·) 0) else none
  put (put (put (put (put (put s 8 hot 256) 9 mean 2048) 10 (v 16) 256) 11 (v 17) 256) 12 (v 18) 256) 13 (v 19) 256

/-- In a replay, fusion takes the recorded samples (R455): those whose time has come. -/
def State.replaySamples (s : State) : State :=
  if !s.aud.replay then s
  else
    let come (e : ReplayEnt) : Bool := e.type == 3 && decide (s.replayCycle e.time ≤ s.now)
    let es := s.aud.replayLog.filter come
    let s0 : State := { s with aud := { s.aud with replayLog := s.aud.replayLog.filter fun e => !come e } }
    let s1 := (es.filter fun e => decide (byteAt e.payload 0 < 8)).foldl State.replayExternal s0
    let int := es.filter fun e => decide (8 ≤ byteAt e.payload 0)
    let times := (int.map (·.time)).eraseDups
    times.foldl (fun s t => s.replayInternal t (int.filter fun e => e.time == t)) s1

/-- The recorded V_TOTAL is compared with the one the calendar decides (R455, R456): at the boundary that begins
frame `n`, `v` is the one decided last. -/
def State.replayFrame (s : State) (n v : Nat) : State :=
  if !s.aud.replay then s
  else match s.aud.replayLog.find? fun e => e.type == 1 && leAt e.payload 0 4 == n with
    | some e => if leAt e.payload 4 2 = v then s else s.diverge.incF F.AUD_REPLAY_CNT_MISMATCH 1
    | none => s

end Sys2Proof.Machine
end

