-- ==== Sys2Proof/Machine/Raster.lean ====
section
/-! DEFINITION. The calendar's line starts and frame boundaries with everything that they bring about (R42, R43, R50),
the start of the calendar (R55, R499, R512), and the steps at which several units act together. -/
namespace Sys2Proof.Machine

/-! ### A line starts (R43, R50) -/

/-- What happens in the cycle in which line V_ACTIVE begins (R50, R52, R281, R301, R310, R319, R369). -/
def State.decisionCycle (s : State) : State :=
  let s1 := s.decideVTotal
  let v := s1.cal.vTot.getD 0
  let s2 := ((s1.onPnl fun p => { p with relock := s1.getF F.CAL_STATUS_SYNC_STATE == 3 }).recVt s.cal.frame v).snapVTotal v
  let s3 := ((s2.sampleMset).retimerDecision.replaySamples).sensorVector
  s3.writeContext s3.sns.vec

/-- Milliseconds since PWR_GOOD rose (R506), whole ones. -/
def State.msSinceGood (s : State) : Nat := min 0xFFFF ((s.now + s.boot.sinceGood) / msCycles 1)

/-- What the lanes do at phase 0 of a line, with T_FIRST at the first line packet (R396 to R399, R506). -/
def State.lanePhase0 (s : State) : State :=
  let s1 := s.laneLine
  if s1.pnl.pkt.isSome ∧ !s1.pnl.first then (s1.onPnl fun p => { p with first := true }).setF F.DEV_BOOT_TIME_T_FIRST s1.msSinceGood
  else s1

/-- The line that begins is line 0 of the next frame. -/
def State.atBoundary (s : State) : Bool :=
  match s.cal.vTot with
  | some v => decide (v ≤ s.cal.line + 1)
  | none => false

/-- LINE_START (R43): the accumulator reaches CAL_LP and a line other than line 0 begins. -/
def State.lineStart (s : State) : State :=
  if !s.cal.running ∨ s.lp = 0 ∨ s.atBoundary then s
  else
    let s1 := s.waitUntil (s.cycleOfAcc s.lp)
    let s2 : State := { s1 with cal := { s1.cal with line := s1.cal.line + 1, acc := s1.cal.acc - s1.lp, fired := [] } }
    let s3 := ((s2.closeWindow).snapLine).snapStop
    (if s3.cal.line = s3.vActive then s3.decisionCycle else s3).lanePhase0

/-! ### The frame boundary (R42) -/

/-- A core's values for the frame that ends (R170, R198, R211, R228, R570). -/
def State.publishCore (s : State) (p : Nat) : State :=
  let s := s.bgCount p
  let c := s.core p
  let left := coreCycles (s.clock p) s.now (freeFrom c .array)
  let line := s.isLineThread p (occupiedUnit c .array).2
  let newLine := if line then min c.utilLine left else 0
  let newFrame := if line then 0 else min c.utilFrame left
  (s.setFs [(F.CORE_UTIL_LINE_UTIL_LINE p, c.utilLine - newLine), (F.CORE_UTIL_FRAME_UTIL_FRAME p, c.utilFrame - newFrame),
    (F.CORE_UTIL_WAIT_UTIL_WAIT p, c.utilWait), (F.CORE_ZC_RAW_RAW p, c.zcRaw), (F.CORE_ZC_PACK_PACK p, c.zcPack),
    (F.CORE_SLIP_MIN_LEFT p, unsext 16 c.minLeft), (F.CORE_SLIP_STALL_ECC p, min 0xFFFF c.stallEcc),
    (F.CORE_SPAD_BG_BG_WAIT p, c.bgWait)]).onCore p fun c => { c with
      utilLine := newLine, utilFrame := newFrame, utilWait := 0, zcRaw := 0, zcPack := 0, minLeft := c.minLeftNext, minLeftNext := 32767
      stallEcc := 0, bgWait := 0 }

/-- Values for the last completed output frame (R570): those of cores and bands in power, the lanes' FILLS, FB_LAST. -/
def State.publish (s : State) : State :=
  let s1 := s.each 72 fun s p => if s.getF (F.BAND_SLOTMAP_GATED (bandOf p)) = 1 then s else s.publishCore p
  let s2 := s1.each 8 fun s b => (s.setF (F.BAND_LS_WAIT_LS_WAIT b) (s.band b).lsWait).onBand b fun x => { x with lsWait := 0 }
  let s3 := (s2.setF F.PNL_PKT_FILLS (min 65535 s.pnl.fills)).onPnl fun p => { p with fills := 0 }
  { s3.setF F.CAL_FB_LAST_FB_LAST s.fbNow with fbNow := s.fbNext, fbNext := 0 }

/-- Counts of a frame that Doldrums stopped in, or of the time before the calendar starts, are dropped: they belong to no
completed frame (R513, R570). -/
def State.dropCounts (s : State) : State :=
  let s1 := s.each 72 fun s p => s.onCore p fun c => { c with
    utilLine := 0, utilFrame := 0, utilWait := 0, zcRaw := 0, zcPack := 0, minLeft := 32767, minLeftNext := 32767
    stallEcc := 0, bgWait := 0 }
  let s2 := (s1.each 8 fun s b => s.onBand b fun x => { x with lsWait := 0 }).onPnl fun p => { p with fills := 0 }
  { s2 with fbNow := 0, fbNext := 0, fab := { s2.fab with beats := [] }, drm := { s2.drm with waits := [] } }

/-- HISTOGRAM_SNAP (R137): units whose configuration in use has SNAP move their counts to the read bank. -/
def State.histSnap (s : State) : State :=
  s.each 72 fun s p => s.each 4 fun s u =>
    if ((s.core p).histCfg.getD u {}).snap then
      let new := histFresh (s.core p) s.now u
      let old := (SMap.slice (s.core p).histLive (64 * u) 64).foldl (fun m e => SMap.set 0 m e.1 (e.2 - SMap.get 0 new e.1)) []
      (s.setF (F.CORE_HIST_FRAME_FRAME p u) s.cal.frame).onCore p fun c => { c with
        histRead := SMap.blit c.histRead (64 * u) 64 old, histLive := SMap.blit c.histLive (64 * u) 64 new }
    else s

/-- Histogram configurations as written take effect (R137). -/
def State.histTake (s : State) : State :=
  s.each 72 fun s p => s.onCore p fun c => { c with histCfg := (List.range 4).map fun u => {
    en := s.getF (F.CORE_HIST_CFG_EN p u) == 1, snap := s.getF (F.CORE_HIST_CFG_SNAP p u) == 1
    src := s.getF (F.CORE_HIST_CFG_SRC p u), layer := s.getF (F.CORE_HIST_CFG_LAYER p u)
    chan := s.getF (F.CORE_HIST_CFG_CHAN p u), allch := s.getF (F.CORE_HIST_CFG_ALLCH p u) == 1
    lo := sext 32 (s.getF (F.CORE_HIST_LO_LO p u)), shift := s.getF (F.CORE_HIST_SHIFT_SHIFT p u) } }

/-- A change of schedule completes (R294), with GEOM_SEQ (R401) and Frost's default parameters (R361). -/
def State.changeStep (s : State) : State :=
  match s.change with
  | some c =>
    if c.installed then
      let s1 := (s.changeDone).onPnl fun p => { p with geom := (p.geom + 1) % 256 }
      { s1 with frost := { s1.frost with fresh := true } }
    else s
  | none => s

/-- A new LP comes into use at the boundary (R43): that of an installed change's mode. -/
def State.newLp (s : State) : Bool :=
  match s.change with
  | some c => c.installed && ((s.prog.mode c.mode).map (·.lp)).getD s.lp != s.lp
  | none => false

/-- The calendar passes into frame `n` (R42, R43, R51): `v` lines were in the frame before. -/
def State.turnFrame (s : State) (n v : Nat) : State :=
  let s1 := s.waitUntil (s.cycleOfAcc s.lp)
  let acc := if s.newLp then 0 else s1.cal.acc - s1.lp
  let from_ := s.nextWinFrom v
  { s1.setF F.CAL_VTOTAL_VT_PREV v with cal := { s1.cal with
      frame := n, line := 0, acc := acc, t0 := s1.now, acc0 := acc, vTot := none, winFrom := from_
      winEnd := v / 2, winOpen := true, e12 := none, fired := [], started := s1.cal.started + 1 } }

/-- Work kept for frames that are over is dropped: lines selected, composed and fetched, fallback segments. -/
def State.forgetOld (s : State) (n : Nat) : State :=
  let new (f : Nat) : Bool := decide (0 ≤ frameDiff f n)
  { s with
    sel := s.sel.filter fun l => new l.frame
    fbSegs := s.fbSegs.filter fun l => new l.frame
    fbStarted := s.fbStarted.filter fun l => new l.1
    cmp := { s.cmp with fetched := s.cmp.fetched.filter fun l => new l.frame, lines := s.cmp.lines.filter fun l => new l.frame } }

/-- What begins with frame `n` for the units of the picture's path and the records (R361, R379, R401, R447). `msw` and
`scw`: the model set or the schedule has changed. -/
def State.beginFrameUnits (s : State) (n : Nat) (msw scw : Bool) : State :=
  ((((((s.applyPoint n).gfxBoundary n).laneBoundary).snapLine).snapStop).recBegin msw scw).lanePhase0

/-- REALTIME_UPDATE (R67) at a boundary other than the calendar's start. -/
def State.realtime (s : State) : State := s.setF F.CAL_STATUS_REALTIME (1 - s.getF F.CAL_RT_CTRL_TEST)

/-- FRAME_BOUNDARY (R42): everything that takes effect at the boundary that begins the next frame. A waiting entry into
Doldrums starts here (R512), and the frame it stops in has no lines and no record (R513). -/
def State.frameBoundary (s : State) : State :=
  match s.cal.vTot with
  | none => s
  | some v =>
    if !s.cal.running ∨ s.lp = 0 ∨ !s.atBoundary then s
    else
      let n := (s.cal.frame + 1) % 2 ^ 32
      let scw := (s.change.map (·.installed)).getD false
      let s1 := ((s.turnFrame n v).publish).histSnap
      let s2 := (s1.each 8 fun s b => s.handoverDone b).ctxBoundary
      let q := s2.msetSwitch
      let s3 := ((q.1.changeStep).weatherBoundary).realtime
      let s4 : State := { s3 with
        cal := { s3.cal with winEnd := min s3.cal.winEnd s3.vActive }
        firstLines := if scw then s3.firstLines else none }
      let s5 := ((s4.assign).planGrabs s4.arrived).framesArrive n
      let s6 := (((s5.clausesBoundary n).warpBoundary).writeFormat).dramBoundary
      let s7 := (((s6.drzBoundary n q.2).histTake).frostFix n).forgetOld n
      let s8 := (((s7.capPrune n).recordingTake).recordFrame v).replayFrame n v
      if s8.pwr.trans = .enterWait then s8.enterDoldrums false else s8.beginFrameUnits n q.2 scw

/-! ### The calendar starts (R55, R499, R512) -/

/-- CALENDAR_START at the boundary of output frame `n`, at boot-complete, at the start of a replay or at the exit from
Doldrums: REALTIME is 0 (R67), and the re-timer holds no τ (R310). -/
def State.rasterStart (s : State) (n : Nat) (boot : Bool) : State :=
  let s1 := (s.calStart n).dropCounts
  let live := s1.sched.rt.lag == 0
  let blank := FrameCtx.black n s1.step
  let x : FrameCtx := if live then { blank with i := s1.getF F.INP_FRAME_FRAME, live := true, shown := true } else blank
  let s2 : State := { s1.setF F.CAL_STATUS_REALTIME 0 with
    ctxNext := some x, noBase1 := false, firstLines := none
    warp := List.replicate 8 (if live then {} else { queued := [blank] })
    aud := { s1.aud with zero := if boot then some s1.now else s1.aud.zero }
    frost := if boot then { s1.frost with next := { seed := frameSeed (s1.getF F.FRS_CTRL_SEED_BASE) n }, fresh := true }
             else s1.frost }
  let s3 := ((((s2.ctxBoundary).weatherBoundary).planGrabs s2.arrived)).framesArrive n
  let s4 := (((s3.writeFormat).takeTickets).drzBoundary n false).histTake
  let s5 := (((s4.frostFix n).recordingTake).recordFrame 0).replayFrame n 0
  s5.beginFrameUnits n false false

/-! ### Steps in which several units act -/

/-- OPEN_MODEL_SET_WINDOW, with what the opening of the window means for Drizzle (R301, R354). -/
def State.openMsetStep (s : State) (i : Nat) (bad : List Nat) : State :=
  let s1 := s.openMset i bad
  if s.mwinEnd.isNone ∧ s1.mwinEnd.isSome then ((s.abandonSteps).openMset i bad).drzSwitch else s1

/-- SCHEDULE_CHANGE, with the Drizzle step that it abandons (R294, R354) and the histogram configuration that the new schedule's binding gives
while Drizzle is enabled (R138, R350). -/
def State.scheduleChangeStep (s : State) : State :=
  let s1 := s.scheduleChange
  let did (x : State) : Bool := (x.change.map (·.installed)).getD false
  if did s1 ∧ !did s then (let s2 := s1.abandonSteps; if s2.drz.on then s2.drzHist else s2) else s1

/-- HANDOVER_START, with the Drizzle step that it abandons (R272, R354). -/
def State.handoverStep (s : State) (b : Nat) : State :=
  let s1 := s.handoverStart b
  if (s.moved b).isNone ∧ (s1.moved b).isSome then s1.abandonSteps else s1

/-- An array step, with the test of R526 on a parity error that cannot be repaired (R149). -/
def State.stepParity (before after : State) (p : Nat) : State :=
  after.hardParity p (before.getF (F.CORE_WFILE_WF_HARD p))

end Sys2Proof.Machine
end

