-- ==== Sys2Proof/Machine/Boot.lean ====
section
/-! DEFINITION. Device reset and boot (chapter 19, R283), the exit from Doldrums (R512), the module's sequencer and the
removal of the module (chapter 21). -/
namespace Sys2Proof.Machine

/-! ### Removal (R551) -/

/-- Change what the boot has done. -/
def State.onBoot (s : State) (f : BootSt → BootSt) : State := { s with boot := f s.boot }

/-- REMOVE_N_FALL (R551): the lanes are made safe, every DRAM channel drops its queued writes and takes no more, and no
NOR program begins. -/
def State.removeFall (s : State) : State :=
  let s1 := (s.safeEnter 1).setFs [(F.DEV_HOTPLUG_REMOVED, 1), (F.DEV_HOTPLUG_WSTOP, 1), (F.DEV_HOTPLUG_NOR_STOP, 1)]
  { s1 with
    drm := { s1.drm with
      chans := s1.drm.chans.map fun c => (c.1, { c.2 with queue := c.2.queue.filter fun a => !a.write })
      arbs := s1.drm.arbs.map fun c => (c.1, { c.2 with held := c.2.held.filter fun a => !a.write }) } }

/-! ### Device reset (R283, R484) -/

/-- A device reset starts: its cause, and the cycle in which it takes place (R481, R484, R516). -/
def State.startReset (s : State) (cause at_ : Nat) : State := s.onBoot fun b => { b with resetAt := some (cause, at_) }

/-- DEVICE_RESET (R283): every register and unit is in its reset state. What outlasts it: the queue of commands, the
ledger with its queued records (R551), the control link (R460), the latched cause of a supply reset (R516), the
sequencer, and the free values' counter. `low`: REMOVE_N is low in the cycle in which the reset ends, which counts as a
fall (R551). -/
def State.deviceReset (s : State) (low : Bool) : State :=
  let c := (s.boot.resetAt.map (·.1)).getD 0
  let s1 := s.waitUntil ((s.boot.resetAt.map (·.2)).getD 0)
  let fresh : State := { State.reset with
    pending := s.pending, free := s.free, seq := s.seq
    led := { slots := s.led.slots, queue := s.led.queue }
    pwr := { latch := s.pwr.latch }
    boot := { cause := c, sinceGood := if c = 0 then 0 else s.boot.sinceGood + s1.now } }
  let s2 := fresh.setFs [(F.TPL_LINK_STATE, s.getF F.TPL_LINK_STATE), (F.TPL_LINK_RATE, s.getF F.TPL_LINK_RATE),
    (F.TPL_LINK_LPI, s.getF F.TPL_LINK_LPI), (F.TPL_LINK_MASTER, s.getF F.TPL_LINK_MASTER)]
  if low then s2.removeFall else s2

/-! ### The sequencer and the supplies (R516, R548) -/

/-- INPUT_SWITCH_CLOSE (R548). -/
def State.switchClose (s : State) : State := { s with seq := { s.seq with switch := true } }

/-- PWR_GOOD_RISE (R548, R484): a device reset starts. -/
def State.pwrGoodRise (s : State) : State :=
  if s.seq.switch then ({ s with seq := { s.seq with pwrGood := true } } : State).startReset 0 s.now else s

/-- INPUT_SWITCH_OPEN (R548, R544): PWR_GOOD falls and the power stages stop; everything is lost but the ledger's
slots. -/
def State.switchOpen (s : State) : State :=
  { State.reset with
    pending := s.pending, free := s.free, led := { slots := s.led.slots }
    seq := { switch := false, pwrGood := false } }

/-- SUPPLY_RESET (R516): supply 0 the 12 V input, 1 the core rail, has crossed its reset level; `v12` and `vcore` are the
lowest levels. The cause and its record's content are latched. -/
def State.supplyReset (s : State) (supply v12 vcore : Nat) : State :=
  let len := s.pwr.dipLen + (s.pwr.dipFrom.map fun t => s.now - t).getD 0
  (s.onPwr fun w => { w with latch := some (supply, if supply = 0 then v12 else vcore, len) }).startReset (2 + supply) s.now

/-! ### Stages (R497, R502) -/

/-- The highest stage entered (R497). -/
def bootStage (done : List Nat) : Nat :=
  if done.contains 5 ∧ done.contains 6 then 7
  else if done.contains 3 ∧ done.contains 4 then 6
  else if done.contains 4 then 5
  else if done.contains 2 then 4
  else if done.contains 0 then 3
  else 0

/-- A stage's work is done. -/
def State.stageDone (s : State) (n : Nat) : State :=
  let d := n :: s.boot.done
  (s.onBoot fun b => { b with done := d }).setF F.DEV_BOOT_STAGE (max (s.getF F.DEV_BOOT_STAGE) (bootStage d))

/-- BOOT_FAILURE (R502). -/
def State.bootFail (s : State) (code sect : Nat) : State :=
  let s1 := s.setFs [(F.DEV_BOOT_FAILED, 1), (F.DEV_BOOT_FAIL, code), (F.DEV_BOOT_SECTION, sect)]
  if s.getF F.DRM_STATUS_TRAINED = 1 then s1.setF F.DRM_STATUS_SELF_REFRESH 1 else s1

/-- The stages named are done, stage `n` is not, and the boot has not failed. -/
def State.stageOpen (s : State) (after : List Nat) (n : Nat) : Bool :=
  s.getF F.DEV_BOOT_FAILED == 0 && (after.all fun k => s.boot.done.contains k) && !s.boot.done.contains n

/-- Factory maps are applied and the fuses are known (stage 1; R215, R222, R419, R516). -/
def State.stageRom (s : State) (f : Fuses) : State :=
  let on (l : List (Nat × Nat)) (u : Nat) : List Nat := (l.filter fun e => e.1 == u).map (·.2)
  let s1 := s.each 72 fun s p => (s.onCore p fun c => { c with mapped := on f.spad p }).setF (F.CORE_SPAD_MAP_SPARES_LEFT p)
    (128 - (on f.spad p).length)
  let s2 := s1.each 8 fun s b => (s.onBand b fun c => { c with mapped := on f.ls b }).setF (F.BAND_LS_MAP_SPARES_LEFT b)
    (768 - (on f.ls b).length)
  let s3 : State := { s2 with drm := { s2.drm with mapped := f.dram } }
  let s4 := s3.setFs [(F.DRM_MAP_SPARES_LEFT, 8192 - f.dram.length), (F.TPL_MAC_LO_MAC_LO, leNat (f.mac.take 4)),
    (F.TPL_MAC_HI_MAC_HI, leNat (sliceB f.mac 4 2)), (F.PWR_RESET_CAUSE, s.boot.cause)]
  let s5 := if s.getF F.TPL_LINK_STATE = 0 then s4.setFs [(F.TPL_LINK_STATE, 1), (F.TPL_LINK_RATE, 0), (F.TPL_LINK_LPI, 0)] else s4
  (s5.onBoot fun b => { b with fuses := f }).stageDone 1

/-- Twelve digest registers take 48 bytes (R506). -/
def State.putDigest (s : State) (f : Nat → Fld) (d : List Byte) : State := s.setFs ((List.range 12).map fun k => (f k, leAt d (4 * k) 4))

/-- Header, table and signature block are read and verified (stage 2; R485 to R491). -/
def State.stageFlash (s : State) (f : FlashIn) : State :=
  let h := f.head
  if !f.present ∨ !f.sfdp ∨ f.mib < 64 ∨ 512 < f.mib then s.bootFail 1 0
  else
    let s1 := s.setF F.DEV_FLASH_SIZE f.mib
    if !headerGood h f.mib then s1.bootFail 2 0
    else
      let key := (sigBlock h).take 97
      let img := imageDigestOf h
      let fused := s.boot.fuses.keyHash
      if leNat fused = 0 ∨ sha384 key ≠ fused then s1.bootFail 3 0
      else if !ecVerify key img (sliceB (sigBlock h) 97 96) then s1.bootFail 4 0
      else
        let t := sectionTable h
        let s2 := (s1.putDigest F.DEV_IMAGE_DIGEST img).onBoot fun b => { b with verified := true, table := t }
        match tableBad t (leAt h 16 4) with
        | some k => s2.bootFail 6 k
        | none => s2.stageDone 2

/-- DRAM_TRAINING_COMPLETE (R283, R497, R502): 180 ms after the start of stage 1. -/
def State.dramTrained (s : State) (ok : Bool) : State :=
  if !s.stageOpen [0] 3 ∨ s.getF F.DRM_STATUS_TRAINED = 1 then s
  else
    let s1 := s.waitUntil (s.boot.trainAt + msCycles 180)
    if ok then s1.setF F.DRM_STATUS_TRAINED 1 else s1.bootFail 7 0

/-! ### The ledger at boot (R505, R531) -/

/-- A core row is mapped out by the ledger or by BIST. -/
def State.mapSpad (s : State) (p row : Nat) : State :=
  (s.onCore p fun c => { c with mapped := c.mapped ++ [row] }).setF (F.CORE_SPAD_MAP_SPARES_LEFT p)
    (s.getF (F.CORE_SPAD_MAP_SPARES_LEFT p) - 1)
/-- A line-store row is mapped out. -/
def State.mapLs (s : State) (b row : Nat) : State :=
  (s.onBand b fun c => { c with mapped := c.mapped ++ [row] }).setF (F.BAND_LS_MAP_SPARES_LEFT b)
    (s.getF (F.BAND_LS_MAP_SPARES_LEFT b) - 1)
/-- A DRAM row is mapped out. -/
def State.mapDram (s : State) (row : Nat) : State :=
  ({ s with drm := { s.drm with mapped := s.drm.mapped ++ [row] } }).setF F.DRM_MAP_SPARES_LEFT (s.getF F.DRM_MAP_SPARES_LEFT - 1)

/-- The band's idle slot becomes `k`, holding a retired core or a spare, and the core that held it takes its number
(R25, R526, R529). -/
def State.setIdle (s : State) (b k : Nat) (retired : Bool) : State :=
  let s1 := s.setFs [(F.BAND_SLOTMAP_IDLE_SLOT b, k), (F.BAND_SLOTMAP_IDLE_RETIRED b, b2n retired)]
  s1.each 9 fun s i =>
    s.setFs [(F.CORE_IDENT_ROLE (9 * b + i), if i = k then 1 + b2n retired else 0),
      (F.CORE_IDENT_LOGICAL (9 * b + i), (s1.mapLogical (9 * b + i)).getD 0)]

/-- One record is applied at stage 4 (R531). -/
def State.applyRecord (s : State) (r : List Byte) : State :=
  let u := ledUnit r
  let p (i : Nat) : Nat := byteAt r (16 + i)
  match ledKind r with
  | 2 => if u < 72 then s.mapSpad u (leAt r 17 2 * 32 + p 0) else s
  | 3 => if u < 8 then s.mapLs u (leAt r 17 2 * 96 + p 0) else s
  | 4 => if u < 64 then s.mapDram ((u * 16 + p 0) * 4096 + leAt r 17 2) else s
  | 5 => if u < 72 then (s.setFs [(F.CORE_CLK_BIN_PLAN u, p 1), (F.PWR_WX_STATE_REASON u, p 4)]).onCore u fun c => { c with binFrom := s.now } else s
  | 6 => s.setF F.PWR_VCORE_VSET (p 1)
  | 7 => if u < 72 then (s.setIdle (bandOf u) (slotOf u) true).setF (F.PWR_WX_STATE_REASON u) (p 2) else s
  | 8 =>
    if 72 ≤ u then s
    else
      let s1 := s.setFs [(F.PWR_WX_STATE_STOPPED u, 0), (F.PWR_WX_STATE_EXHAUSTED u, 0), (F.PWR_WX_STATE_REASON u, 6)]
      if s.getF (F.BAND_SLOTMAP_IDLE_SLOT (bandOf u)) = slotOf u then s1.setIdle (bandOf u) (if p 0 = 0 then 8 else slotOf u) false else s1
  | 9 => if u < 72 then s.setFs [(F.PWR_WX_STATE_EXHAUSTED u, 1), (F.PWR_WX_STATE_STOPPED u, bits (p 1) 0 1), (F.PWR_WX_STATE_REASON u, p 0)] else s
  | _ => s

/-- The active half: the valid one with the greater GEN (R503). -/
def State.activeHalf (s : State) : Option Nat :=
  let ok (h : Nat) : Bool := headerOk (s.ledSlot h 0)
  let gen (h : Nat) : Nat := leAt (s.ledSlot h 0) 8 4
  if ok 0 ∧ ok 1 then some (if 0 < sext 32 (gen 1 + 2 ^ 32 - gen 0) then 1 else 0)
  else if ok 0 then some 0 else if ok 1 then some 1 else none

/-- The ledger area is read and applied (stage 4; R505). `changed` are slots that read otherwise than the device left
them. -/
def State.stageLedger (s : State) (changed : List (Nat × List Byte)) : State :=
  let s0 : State := { s with led := { s.led with
    slots := changed.foldl (fun m e => SMap.set [] m (e.1 % 65536) (if e.2.all (fun b => b.toNat == 255) then [] else e.2.take 64)) s.led.slots } }
  let s1 := s0.setF F.DEV_LEDGER_QUEUED s.led.queue.length
  match s1.activeHalf with
  | none => s1.stageDone 4
  | some h =>
    let rs := s1.ledRecords h
    let last := (s1.led.slots.filter fun e => decide (32768 * h ≤ e.1) && decide (e.1 < 32768 * (h + 1))).getLast?.map (·.1)
    let s2 := (s1.setFs [(F.DEV_LEDGER_HALF, h), (F.DEV_LEDGER_GEN_GEN, leAt (s1.ledSlot h 0) 8 4), (F.DEV_LEDGER_USED, rs.length + 1)]).incF
      F.DEV_LEDGER_CNT_TORN (rs.filter fun r => !ledgerOk r).length
    let s3 : State := { s2 with led := { s2.led with valid := true, next := last.getD 0 - 32768 * h + 1 } }
    ((rs.filter ledgerOk).foldl State.applyRecord s3).stageDone 4

/-! ### BIST (R498) -/

/-- A DRAM row failed the march BIST: it is mapped out, or its bank has no spare. -/
def State.bistDram (r : State × Bool) (row : Nat) : State × Bool :=
  let s := r.1
  let used := (s.drm.mapped.filter fun x => x / 4096 == row / 4096).length
  if 8 ≤ used then (s, false)
  else (((s.mapDram row).incF F.DRM_MAP_FIELD_MAPPED 1).ledger 4 (row / 65536)
    (toLe 1 (row / 4096 % 16) ++ toLe 2 (row % 4096) ++ toLe 1 used ++ toLe 1 1), r.2)

/-- A scratchpad row failed BIST (R498): mapped out, or its core is retired. -/
def State.bistSpad (s : State) (e : Nat × Nat) : State :=
  let used := ((s.core e.1).mapped.filter fun r => r % 32 == e.2 % 32).length
  if 4 ≤ used then (s.incF (F.CORE_SPAD_MAP_NO_SPARE e.1) 1).retire e.1 5 true
  else ((s.mapSpad e.1 e.2).incF (F.CORE_SPAD_MAP_FIELD_MAPPED e.1) 1).ledger 2 e.1
    (toLe 1 (e.2 % 32) ++ toLe 2 (e.2 / 32) ++ toLe 1 used ++ toLe 1 1)

/-- A line-store row failed BIST (R498). -/
def State.bistLs (s : State) (e : Nat × Nat) : State :=
  let used := ((s.band e.1).mapped.filter fun r => r % 96 == e.2 % 96).length
  if 8 ≤ used then s.incF (F.BAND_LS_MAP_NO_SPARE e.1) 1
  else ((s.mapLs e.1 e.2).incF (F.BAND_LS_MAP_FIELD_MAPPED e.1) 1).ledger 3 e.1
    (toLe 1 (e.2 % 96) ++ toLe 2 (e.2 / 96) ++ toLe 1 used ++ toLe 1 1)

/-- Stage 3's march BIST has ended. -/
def State.stageDram (s : State) (bad : List Nat) : State :=
  let r := bad.foldl State.bistDram (s, true)
  if r.2 then r.1.stageDone 3 else r.1.bootFail 8 0

/-- Stage 5 has ended: BIST, and memories of zeros with valid check bits (R202). -/
def State.stageLogic (s : State) (cores : List Nat) (spad ls : List (Nat × Nat)) : State :=
  let s1 := (ls.filter fun e => decide (e.1 < 8)).foldl State.bistLs
    ((spad.filter fun e => decide (e.1 < 72)).foldl State.bistSpad
      ((cores.filter fun p => decide (p < 72)).foldl (fun s p => s.retire p 5 true) s))
  let s2 := s1.each 72 fun s p => s.onCore p fun c => { c with spad := [], bad := [] }
  (s2.each 8 fun s b => s.onBand b fun c => { c with mem := [], bad := [] }).stageDone 5

/-! ### Sections (R487, R492) -/

/-- What a section holds goes to its place (R490, R496); false at a format failure. -/
def State.useSection (s : State) (e bs : List Byte) : State × Bool :=
  match secType e with
  | 2 => (s.onBoot fun b => { b with program := bs }, true)
  | 3 => (s.onBoot fun b => { b with
      msets := b.msets ++ [(secIndex e, { Config.decodeModelSet (secDest e * 4096) bs with digest := secDigest e })] }, true)
  | 5 => (s.onPort (secIndex e) fun p => { p with edid := bs }, true)
  | 6 =>
    let key := hkdf384 [] s.boot.fuses.secret (ascii "AQV8440-HDCP") 32
    (match gcmOpen key bs with
     | some m => (s.onBoot fun b => { b with hdcp := m }, true)
     | none => (s.setF F.DEV_BOOT_HDCP_OFF 1, true))
  | 7 =>
    (match hostKeysOf bs with
     | some ks => ((s.onBoot fun b => { b with hostKeys := ks }).setF F.SEC_KEYS_SLOT_VALID
        ((ks.map fun k => 2 ^ k.1).eraseDups.foldl (· + ·) 0), true)
     | none => (s, false))
  | _ => (s, true)

/-- One section has streamed (stage 6; R492): checked against its digest, placed, used. A placed section cannot be
written once DRAM takes no writes (R551). -/
def State.stageSection (s : State) (bytes : List Byte) : State :=
  let k := s.boot.loaded
  let e := s.boot.table.getD k []
  let bs := sliceB bytes 0 (secLength e)
  let placed := secDest e != 0xFFFFFFFF
  if placed ∧ s.getF F.DEV_HOTPLUG_WSTOP = 1 then s
  else
    let r := if secType e = 1 then s.readConfig bs else (s, !placed || s.placeOk e)
    if !r.2 then r.1.bootFail 6 k
    else
      let s1 := if placed then r.1.writeMem 3 0 (secDest e * 4096) bs else r.1
      if sha384 bs ≠ secDigest e then s1.bootFail 5 k
      else
        let u := s1.useSection e bs
        if !u.2 then u.1.bootFail 6 k
        else
          let s2 := u.1.onBoot fun b => { b with loaded := k + 1 }
          if k + 1 = s.boot.table.length then s2.stageDone 6 else s2

/-! ### Stage 7 and boot-complete (R497, R499) -/

/-- The program that the container gives: the PROGRAM section decoded, each record's fields read from its bytes, and
what CONFIG and the MODELSET sections hold (R284, R490, R493). -/
def State.gatherProgram (s : State) : State :=
  let d := Config.decodeProgram s.boot.program
  let n := (s.boot.msets.map (·.1)).foldl max 0 + 1
  { s with prog := { d with
      modes := d.modeRaw.map Mode.parse
      scheds := d.scheds.map fun c => { c with almanac := c.almRaw.map AlmEntry.parse, clauses := c.clRaw.map ClauseDesc.parse }
      msets := (List.range n).map fun k => ((s.boot.msets.find? fun m => m.1 == k).map (·.2)).getD default
      convM := s.prog.convM, convO := s.prog.convO, fbV := s.prog.fbV, fbH := s.prog.fbH, rsV := s.prog.rsV, rsH := s.prog.rsH
      frost := s.prog.frost
      digest := sha384 (secDigest (s.boot.table.getD 0 []) ++
        secDigest ((s.boot.table.find? fun e => secType e == 2).getD [])) } }

/-- A schedule is installed for a mode and a bucket while the calendar stands still (R497, R512): tables, segments,
geometry, re-timing record, and empty committed buffers. -/
def State.installSchedule (s : State) (mode bucket : Nat) : State :=
  let m := (s.prog.mode mode).getD default
  let k := s.prog.schedOf mode bucket
  let sc := s.prog.scheds.getD k {}
  let s1 : State := { s with pstate := m.nb, almanac := sc.almanac, sched := sc, bucket := bucket, noBase1 := false, change := none }
  let s2 := ((s1.setGeometry m).setFs [(F.CAL_MODE_MODE_CUR, mode), (F.CAL_MODE_SCHED_CUR, k), (F.CAL_MODE_CHANGING, 0),
    (F.CAL_MODE_MODE_HELD, 0)]).installTables sc m.nCores
  ((s2.installRt sc).setSegs).emptyCommitted

/-- Bands 4 to 7 are gated in a mode of NB 1 and powered in one of NB 0 (R508, R510, R511). -/
def State.gateFor (s : State) (nb : Nat) : State :=
  [4, 5, 6, 7].foldl (fun (s : State) b => if nb = 1 then s.gateBand b else s.ungateBand b) s

/-- The model set MSET_REQ goes into every core that multicasts reach (R497, R512). -/
def State.loadSet (s : State) : State :=
  let k := s.getF F.CAL_MSET_MSET_REQ
  let s1 := s.setF F.CAL_MSET_MSET_CUR k
  let m := s1.mset
  let bad := m.written.filter fun e => s.memBad 3 0 (m.pageOff.getD e 0) 2048
  (s1.each 72 fun s p => if s.listens p then s.loadMset p m bad else s).incF F.CAL_MSET_MSET_ERR bad.length

/-- The bucket in use before any input frame (R96). -/
def State.startBucket (s : State) (n : Nat) : State :=
  let z := bucketSize n
  s.onInp fun i => { i with
    fit := { bucket := n, wb := z.1, hb := z.2, w := z.1, h := z.2 } }

/-- Stage 7 (R497): the load checks; then the first schedule, the model set, Drizzle's initial state (R353), the
arbiters' seeds (R427), and HOLD. -/
def State.stageLoad (s : State) : State :=
  let s0 := s.gatherProgram
  match s0.loadChecks with
  | some f => (s0.noteLoadFail f).bootFail 9 0
  | none =>
    let n := largestBucket s0.prog.buckets
    let mode := s0.getF F.CAL_MODE_MODE_REQ
    let nb := ((s0.prog.mode mode).getD default).nb
    let s1 := (((s0.gateFor nb).installSchedule mode n).loadSet).startBucket n
    let s2 := if s1.drzT = 0 then s1 else s1.drzReset
    let s3 := s2.each 10 fun s p => let f := F.ARB_LFSR_LFSR (lfsrAddr p); if s.getF f = 0 then s.setF f 1 else s
    let s4 := ((s3.putDigest F.DEV_PROG_DIGEST s3.prog.digest).setF F.DEV_BOOT_HOLDING (s3.getF F.DEV_BOOT_CTRL_HOLD)).recordingTake
    s4.stageDone 7

/-- BOOT_STAGE_COMPLETE (R497): a stage's work ends, when the stages it follows are done. -/
def State.bootStep (s : State) (i : StageIn) : State :=
  match i with
  | .reset => if s.stageOpen [] 0 then (s.onBoot fun b => { b with trainAt := s.now }).stageDone 0 else s
  | .rom f => if s.stageOpen [0] 1 then s.stageRom f else s
  | .flash f => if s.stageOpen [1] 2 then s.stageFlash f else s
  | .dram bad => if s.stageOpen [4] 3 ∧ s.getF F.DRM_STATUS_TRAINED = 1 then s.stageDram bad else s
  | .ledger l => if s.stageOpen [2] 4 then s.stageLedger l else s
  | .logic cs a b => if s.stageOpen [4] 5 then s.stageLogic cs a b else s
  | .sect bs => if s.stageOpen [3, 4] 6 then s.stageSection bs else s
  | .load => if s.stageOpen [5, 6] 7 then s.stageLoad else s

/-- BOOT_COMPLETE (R499): stage 7 is done and HOLD is 0. The calendar starts frame 0, unless a replay is armed (R454);
ports, composer and lanes act on their configuration; BOOT and SUPPLY records are appended (R530, R516). -/
def State.bootComplete (s : State) : State :=
  if !s.stageOpen [7] 8 ∨ s.getF F.DEV_BOOT_CTRL_HOLD = 1 ∨ s.getF F.DEV_BOOT_COMPLETE = 1 then s
  else
    let s1 := s.setFs [(F.DEV_BOOT_COMPLETE, 1), (F.DEV_BOOT_HOLDING, 0), (F.DEV_BOOT_STAGE, 8), (F.DEV_BOOT_TIME_T_COMPLETE, s.msSinceGood),
      (F.PWR_STATE_STATE, s.pstate), (F.PWR_STATE_TARGET, s.pstate), (F.INP_BUCKET_BUCKET, s.inp.fit.bucket),
      (F.INP_PAD_PAD_L, 0), (F.INP_PAD_PAD_T, 0)]
    let s2 := (s1.onBoot fun b => { b with done := 8 :: b.done }).ledger 1 0
      (toLe 1 (s.getF F.PWR_RESET_CAUSE) ++ toLe 1 (s.getF F.PWR_VCORE_VSET) ++ s.imageDigest.take 16)
    let s3 := (match s.pwr.latch with
      | some (u, v, n) => s2.supplyRecord u v n true
      | none => s2).onPwr fun w => { w with latch := none, wxDue := s.now }
    let s4 := ((s3.hpdPulse 0).hpdPulse 1).trainingStart
    if s.getF F.AUD_REPLAY_CTRL_ARM = 1 then
      ({ s4 with aud := { s4.aud with replayHold := true } }).setF F.AUD_REPLAY_STATUS_STATE 1
    else (s4.rasterStart 0 true).modeCheck

/-! ### The exit from Doldrums (R512, R513) -/

/-- Out of Doldrums into power state `nb` (R512): MODE_REQ's schedule for the current bucket is installed, Drizzle's histogram units
take its binding (R138), and Frost begins anew where the schedule or the mode has changed (R361). -/
def State.comeBack (s : State) (nb : Nat) : State :=
  let i := ({ s with pstate := nb } : State).installSchedule s.targetMode s.inp.fit.bucket
  let new := i.getF F.CAL_MODE_SCHED_CUR != s.getF F.CAL_MODE_SCHED_CUR || i.getF F.CAL_MODE_MODE_CUR != s.getF F.CAL_MODE_MODE_CUR
  let h : State := if i.drz.on then i.drzHist else i
  { h with frost := { h.frost with fresh := h.frost.fresh || new } }

/-- DOLDRUMS_EXIT_COMPLETE (R512): 12 ms after the acceptance. DRAM is out of self-refresh, the bands of TARGET are powered
and loaded, MODE_REQ's schedule for the current bucket is installed, and the calendar starts the next frame. -/
def State.doldrumsExited (s : State) : State :=
  match s.pwr.trans with
  | .exit t =>
    let s0 := (s.waitUntil (t + msCycles 12)).setF F.DRM_STATUS_SELF_REFRESH 0
    let nb := s0.getF F.PWR_STATE_TARGET
    let bands := if nb = 0 then 8 else 4
    let s1 := ((s0.gateFor nb).each bands fun s b => s.onBand b offBand).each (9 * bands) fun s p => s.onCore p offCore
    let s2 := (s1.comeBack nb).loadSet
    let s3 := s2.each (9 * bands) fun s p => if s.listens p then s.loadCore p else s
    let s4 := ((s3.hpdPulse 0).hpdPulse 1).transitionDone nb
    let s5 := if s4.aud.replayHold then s4 else s4.rasterStart ((s4.cal.frame + 1) % 2 ^ 32) false
    let s6 := if s5.getF F.PNL_STATUS_SAFE_CAUSE = 1 ∨ s5.pnlState ≠ 3 then s5
      else if s5.getF F.PNL_CTRL_EN = 1 then s5.safeLeave else s5.setF F.PNL_STATUS_SAFE_CAUSE 2
    (s6.relink 0 0).modeCheck
  | _ => s

end Sys2Proof.Machine
end

