-- ==== Sys2Proof/Machine/Host.lean ====
section
/-! DEFINITION. What the host reaches (chapters 01, 16, 18 and 22): reading and writing registers, the memory window, and
the record of writes (R450). -/
namespace Sys2Proof.Machine

/-! ### Reading a register (R12, R18, R20, R31) -/

/-- What a field shows to a read: a WO field zero (the table above R14). -/
def State.readF (s : State) (f : Fld) : Nat := if f.acc = .wo then 0 else s.getF f

/-- The word at an address as it stands (R12, R18, R31); none where no register is mapped. -/
def State.wordAt (s : State) (a : Nat) : Option Nat :=
  match blockOf a, regAt a with
  | some (blk, o), some fs =>
    let hidden := match blk with
      | .core p => s.coreHidden p && o != 0
      | _ => false
    if hidden then none
    else some ((s.shownWord blk o).getD ((fs.map fun f => s.readF f * 2 ^ f.lo).foldl (· + ·) 0))
  | _, _ => none

/-- The word at an address as it stands, 0 where unmapped. -/
def State.word (s : State) (a : Nat) : Nat := (s.wordAt a).getD 0

/-- A host read of an aligned address (R12, R20): status, word, and the latched words. A latched word is held plus one. -/
def State.hostRead (s : State) (a : Nat) : Nat × Nat × State :=
  match s.wordAt a with
  | none => (1, 0, s)
  | some w =>
    let l := SMap.get 0 s.latch a
    let s1 : State := { s with latch := (higherWords a).foldl (fun m h => SMap.set 0 m h (s.word h + 1)) s.latch }
    (0, if l = 0 then w else l - 1, s1)

/-! ### Writing a register (R11 to R19) -/

/-- An RWL field is locked once the boot is complete (R16). -/
def State.locked (s : State) : Bool := s.getF F.DEV_BOOT_COMPLETE == 1

/-- The host can write a field now (R14, R16). -/
def State.writable (s : State) (f : Fld) : Bool :=
  match f.acc with
  | .ro => false
  | .rwl => !s.locked
  | _ => true

/-- The fields of the table of R14 that the host and hardware both change: GO, the commit bits, VALID of the grain slots
(the word that holds it) and STEP. The histogram fields of that table take no host write while hardware holds them. -/
def sharedFields : List Nat :=
  [F.INP_APPLY_GO, F.CMP_COMMIT_PL1, F.CMP_COMMIT_PL2, F.CMP_COMMIT_GR, F.CAL_RT_STEP_STEP, F.SNS_HOST0_HOST0, F.SNS_HOST1_HOST1].map Fld.key
/-- A field is one of these, or a word of Frost's slots (R364). -/
def isShared (f : Fld) : Bool := sharedFields.contains f.key || (decide (0xB1000 ≤ f.addr) && decide (f.addr < 0xB1C00))

/-- A host write reaches one field (the table above R14): W1C clears the bits written 1; a WO field holds nothing. -/
def State.writeField (v : Nat) (s : State) (f : Fld) : State :=
  match f.acc with
  | .rw => if isShared f then s.shareF f (bits v f.lo f.w) else s.setF f (bits v f.lo f.w)
  | .rwl => if s.locked then s else s.setF f (bits v f.lo f.w)
  | .w1c => s.clearF f (bits v f.lo f.w)
  | _ => s

/-- The engine whose register group lies at an offset (R253). -/
def engAt (blk : Blk) (o : Nat) : Option EngId :=
  match blk with
  | .core p => if 0x200 ≤ o ∧ o < 0x300 ∧ o % 32 = 0 then some (.core p ((o - 0x200) / 32)) else none
  | .band b => if 0x100 ≤ o ∧ o < 0x140 ∧ o % 32 = 0 then some (.band b ((o - 0x100) / 32)) else none
  | _ => none

/-- CORE_HIST_CFG of unit u of core p (R136). -/
def histCfgAddr (p u : Nat) : Nat := 0x1000100 + 0x20000 * p + 0x10 * u

/-- Both banks of a histogram unit are cleared (R137). -/
def State.histClear (s : State) (p u : Nat) : State :=
  s.onCore p fun c => { c with
    histLive := SMap.blit c.histLive (64 * u) 64 (histFresh c s.now u), histRead := SMap.blit c.histRead (64 * u) 64 [] }

/-- Registers of a histogram unit that Drizzle holds (R138): their host writes have no effect. -/
def State.drzOwns (s : State) (blk : Blk) (o : Nat) : Bool :=
  match blk with
  | .core _ => s.drz.on && decide (0x120 ≤ o) && decide (o < 0x140)
  | _ => false

/-- What a write brings about beside its fields, `s` being the state with the fields written and `old` the one before. -/
def State.writeEffect (old s : State) (blk : Blk) (o v : Nat) : State :=
  let up := s.locked
  match blk with
  | .inp =>
    if up ∧ (o = 0x100 ∨ o = 0x140) ∧ s.regs.vals ≠ old.regs.vals then s.hpdPulse ((o - 0x100) / 0x40) else s
  | .cal => if o = 0x40 ∧ up then s.modeCheck else s
  | .pnl =>
    if o = 4 then
      let s1 := if bit v 0 then old.enSet else old.enClear
      if bit v 1 then s1.retrain else s1
    else s
  | .fab =>
    if o = 0 then
      let s1 := if bit v 1 then s.snapCancel else s
      if bit v 0 then s1.snapArm else s1
    else s
  | .pwr => if o = 0x88 ∧ bit v 7 then s.restoreAsk else s
  | .drz => if o = 0 ∧ bit v 1 then s.drzReset else s
  | .core p =>
    if 0x100 ≤ o ∧ o < 0x140 ∧ o % 16 = 0 ∧ bit v 2 then s.histClear p ((o - 0x100) / 16)
    else match engAt blk o with
      | some g => let s1 := if bit v 0 then s.hostRetry g else s; if bit v 1 then s1.hostAbort g else s1
      | none => s
  | .band _ => match engAt blk o with
      | some g => let s1 := if bit v 0 then s.hostRetry g else s; if bit v 1 then s1.hostAbort g else s1
      | none => s
  | _ => s

/-- A register write as it takes effect (R11, R12, R14, R17, R31): status and state. GO of AUD_REPLAY_CTRL acts in
`hostWrite`. -/
def State.regWrite (s : State) (a v : Nat) : Nat × State :=
  if a % 4 ≠ 0 then (2, s.incF F.DEV_ACCESS_MISALIGNED 1)
  else match blockOf a, regAt a, s.wordAt a with
    | some (blk, o), some fs, some _ =>
      if (fs.all fun f => !s.writable f) then (2, s.incF F.DEV_ACCESS_RO_WRITES 1)
      else if s.drzOwns blk o then (0, s)
      else (0, State.writeEffect s (fs.foldl (State.writeField v) s) blk o v)
    | _, _, _ => (1, s)

/-! ### The memory window (R420, R421, R469, R470) -/

/-- A range of addresses lies in the DRAM window (R10). -/
def inWindow (a n : Nat) : Bool := decide (dramBase ≤ a) && decide (a + n ≤ dramBase + dramSize)

/-- A protected read is refused (R421): an encrypted picture in the history, or for kind 5 in the replay buffer. -/
def State.protected (s : State) (kind : Nat) : Bool :=
  (s.hist.any fun h => h.frame.isSome && h.encrypted) || (kind == 5 && s.replayEncrypted)

/-- A region of a kind may be read (R420, R421). -/
def State.kindReads (s : State) (kind : Nat) : Bool := !(decide (3 ≤ kind) && decide (kind ≤ 5) && s.protected kind)

/-- A refused host access (R421). -/
def State.hostRefuse (s : State) : Nat × State := (2, s.incF F.DRM_HOST_REFUSED 1)

/-- A range of DRAM touches a graphics frame buffer with decrypted pixels (R88). -/
def State.hides (s : State) (o n : Nat) : Bool := s.cmp.gfx.hidden.any fun g => decide (o < g.1 + g.2) && decide (g.1 < o + n)

/-- A read of the memory window (R469): status, bytes. -/
def State.hostMemRead (s : State) (a n : Nat) : Nat × List Byte × State :=
  let o := a - dramBase
  if !inWindow a n then (1, [], s)
  else if s.hides o n ∨ (s.kindsMet o n).any fun k => !s.kindReads k then (s.hostRefuse.1, [], s.hostRefuse.2)
  else if s.memBad 3 0 o n then (5, [], s)
  else (0, readB s.dram o n, s)

/-- A write of the memory window (R469). -/
def State.hostMemWrite (s : State) (a : Nat) (bs : List Byte) : Nat × State :=
  let o := a - dramBase
  if !inWindow a bs.length then (1, s)
  else if (s.kindsMet o bs.length).any fun k => k != 0 then s.hostRefuse
  else (0, s.writeMem 3 0 o bs)

/-- A weight page lies inside one region of kind 2 (R470). -/
def State.pageOk (s : State) (o : Nat) : Bool :=
  s.regions.any fun r => r.2.2 == 2 && decide (r.1 ≤ o) && decide (o + 2048 ≤ r.1 + r.2.1)

/-- A write of a weight page (R470). -/
def State.pageWrite (s : State) (a : Nat) (bs : List Byte) : Nat × State :=
  if !inWindow a 2048 then (1, s)
  else if !s.pageOk (a - dramBase) then s.hostRefuse
  else (0, s.writeMem 3 0 (a - dramBase) bs)

/-! ### Recording writes (R450, R451) -/

/-- A write has changed the device's state: more than the register file's note of when a field was written (R451). -/
def State.changedFrom (s before : State) : Bool :=
  decide (({ s with regs := { s.regs with writes := before.regs.writes, events := before.regs.events } } : State) ≠ before)

/-- A WRITE entry for a write that took effect and changed state (R451): `op` 1 register, 2 memory window, 3 weight
page. -/
def State.recordWrite (before : State) (a op : Nat) (data : List Byte) (s : State) : State :=
  if s.recordsClass F.AUD_REC_CTRL_WRITE ∧ s.changedFrom before then
    s.logPut ⟨4, false, before.now, toLe 5 a ++ toLe 1 op ++ toLe 2 0 ++ data⟩
  else s

/-- The address lies in the AUD block. -/
def inAud (a : Nat) : Bool := a / 0x10000 == 13

/-- A register write, with its WRITE entry when it is not refused (R451). -/
def State.loggedWrite (s : State) (a v : Nat) : Nat × State :=
  let r := s.regWrite a v
  (r.1, if r.1 ≠ 0 ∨ inAud a then r.2 else State.recordWrite s a 1 (toLe 4 v) r.2)

/-- A write of the memory window or of a weight page, with its WRITE entry when it is not refused (R451). -/
def State.loggedMem (s : State) (op a : Nat) (data : List Byte) : Nat × State :=
  let r := if op = 2 then s.hostMemWrite a data else s.pageWrite a data
  (r.1, if r.1 ≠ 0 then r.2 else State.recordWrite s a op data r.2)

/-- A recorded write takes effect (R455): the operation, the address, the data. -/
def State.applyWrite (s : State) (op a : Nat) (data : List Byte) : State :=
  if op = 1 then (s.loggedWrite a (leNat data)).2 else (s.loggedMem op a data).2

end Sys2Proof.Machine
end

