-- ==== Sys2Proof/Machine/Replay.lean ====
section
/-! DEFINITION. Replay (R454 to R457): its start, the recorded writes, its end; and a host write under the refusals of
R454. -/
namespace Sys2Proof.Machine

/-- The recorded write of a WRITE entry (R450) takes effect. -/
def State.replayWrite (s : State) (e : ReplayEnt) : State :=
  s.applyWrite (byteAt e.payload 5) (leAt e.payload 0 5) (e.payload.drop 8)

/-- A log that a replay may not take (R455): another image digest, a first frame other than 0, or a LOST entry before
its end. -/
def State.replayBad (s : State) (es : List ReplayEnt) : Bool :=
  match es with
  | [] => true
  | h :: _ => h.type != 0 || h.payload.take 48 != s.imageDigest || leAt h.payload 48 4 != 0 || es.dropLast.any fun e => e.type == 7

/-- GO while armed (R455): the log is refused and frame 0 starts live, or the writes with negative TIME are applied and
frame 0 starts in the replay. -/
def State.replayGo (s : State) : State :=
  let es := s.replayEntries
  let s0 : State := { s with aud := { s.aud with replayHold := false } }
  if s.replayBad es then ((s0.setF F.AUD_REPLAY_STATUS_STATE 4).rasterStart 0 true).modeCheck
  else
    let early (e : ReplayEnt) : Bool := e.type == 4 && decide (e.time < 0)
    let s1 := ((es.filter early).foldl State.replayWrite s0).setF F.AUD_REPLAY_STATUS_STATE 2
    ({ s1 with aud := { s1.aud with
        replay := true, replayLog := es.filter fun e => !early e && e.type != 0 && e.type != 7
        replayEnd := (es.getLast?.map (·.time)).getD 0 } } : State).rasterStart 0 true

/-- REPLAY_WRITE_APPLY (R455, R456): the next recorded WRITE, in the cycle of its TIME; one read after its TIME has
passed is applied at once, counts in LATE and is a divergence. -/
def State.replayApply (s : State) : State :=
  if !s.aud.replay then s
  else match s.aud.replayLog.find? fun e => e.type == 4 with
    | none => s
    | some e =>
      let t := s.replayCycle e.time
      let s1 := if t < s.now then (s.incF F.AUD_REPLAY_CNT_LATE 1).diverge else s.waitUntil t
      ({ s1 with aud := { s1.aud with replayLog := s1.aud.replayLog.erase e } } : State).replayWrite e

/-- REPLAY_END (R457): at the log's end, once its writes have been applied; the world is the source again. -/
def State.replayFinish (s : State) : State :=
  if !s.aud.replay ∨ (s.aud.replayLog.any fun e => e.type == 4) then s
  else
    let s1 := s.waitUntil (s.replayCycle s.aud.replayEnd)
    ({ s1 with aud := { s1.aud with replay := false, replayLog := [] } }).setF F.AUD_REPLAY_STATUS_STATE 3

/-- A replay is armed and holds frame 0, or is under way (R454, R455). -/
def State.replaying (s : State) : Bool := s.aud.replayHold || s.aud.replay

/-- A host write that R454 refuses. -/
def State.replayRefuse (s : State) : Nat × State := (2, s.incF F.AUD_REPLAY_STATUS_REFUSED 1)

/-- A host write of a register (R11 to R19, R454): status and state. -/
def State.hostWrite (s : State) (a v : Nat) : Nat × State :=
  if a % 4 = 0 ∧ s.replaying ∧ !inAud a then s.replayRefuse
  else
    let r := s.loggedWrite a v
    (r.1, if r.1 = 0 ∧ a = 0xD0040 ∧ bit v 1 ∧ s.aud.replayHold then r.2.replayGo else r.2)

/-- A host write of the memory window (R454, R469): before GO only into kind 0, which R421 asks as well. -/
def State.hostMem (s : State) (a : Nat) (bs : List Byte) : Nat × State :=
  if s.aud.replay then s.replayRefuse else s.loggedMem 2 a bs

/-- A host write of a weight page (R454, R470). -/
def State.hostPage (s : State) (a : Nat) (bs : List Byte) : Nat × State :=
  if s.replaying then s.replayRefuse else s.loggedMem 3 a bs

end Sys2Proof.Machine
end

