-- ==== Sys2Proof/Machine/CmdAdapt.lean ====
section
/-! DEFINITION. The commands of Drizzle (chapter 12): each is one call of the operation that its rule describes. -/
namespace Sys2Proof.Machine

/-- CROP_GRAB (R335). -/
def execCropGrab (s : State) : Host.Outcome State Fault Refusal := done s s.cropGrab

/-- DRIZZLE_STEP_START (R341). -/
def execDrizzleStepStart (s : State) : Host.Outcome State Fault Refusal := done s s.drzStepStart

/-- AUGMENT_SAMPLE (R340). -/
def execAugmentSample (l : Nat) (s : State) : Host.Outcome State Fault Refusal :=
  act (Instr.wf (.augmentSample l)) s (s.augment l)

/-- GRADIENT_OPERATION (R345). -/
def execGradientOperation (p i : Nat) (w : CoreIn) (s : State) : Host.Outcome State Fault Refusal :=
  act (Instr.wf (.gradientOperation p i w)) s (s.gradient p i w)

/-- DRIZZLE_CLAUSE_END (R343). -/
def execDrizzleClauseEnd (p : Nat) (sems : List Nat) (s : State) : Host.Outcome State Fault Refusal :=
  act (Instr.wf (.drizzleClauseEnd p sems)) s (s.drzClauseEnd p sems)

/-- DRIZZLE_UPDATE_COMPLETE (R348). -/
def execDrizzleUpdateComplete (latency : Nat) (s : State) : Host.Outcome State Fault Refusal := done s (s.drzUpdate latency)

/-- COMMIT_PAGE_GENERATION (R351). -/
def execCommitPageGeneration (latency : Nat) (s : State) : Host.Outcome State Fault Refusal := done s (s.commitPages latency)

/-- COMMIT_READY (R351). -/
def execCommitReady (s : State) : Host.Outcome State Fault Refusal := done s s.commitReady

/-- DRIZZLE_ENABLE (R353). -/
def execDrizzleEnable (s : State) : Host.Outcome State Fault Refusal := done s ((s.hostWrite 0xC0000 (s.word 0xC0000 ||| 1)).2)

/-- DRIZZLE_DISABLE (R353). -/
def execDrizzleDisable (s : State) : Host.Outcome State Fault Refusal :=
  done s ((s.hostWrite 0xC0000 (s.word 0xC0000 - s.word 0xC0000 % 2)).2)

/-- DRIZZLE_RESET (R353). -/
def execDrizzleReset (s : State) : Host.Outcome State Fault Refusal := done s ((s.hostWrite 0xC0000 (s.word 0xC0000 + 2)).2)

end Sys2Proof.Machine
end

