-- ==== Sys2Proof/Machine/Net.lean ====
section
/-! DEFINITION. The control link below Terpel (R459 to R462): the addresses, the frames that the device takes, its replies,
and the state of the link. -/
namespace Sys2Proof

/-! ### Standard formats (R8, R462) -/

/-- The 16-bit ones' complement sum of a byte string, odd lengths padded with a zero byte. -/
def onesSum (bs : List Byte) : Nat :=
  let t := (List.range (ceilDiv bs.length 2)).foldl (fun n i => n + 256 * byteAt bs (2 * i) + byteAt bs (2 * i + 1)) 0
  let f (n : Nat) : Nat := n % 65536 + n / 65536
  f (f (f t))

/-- The IPv6 pseudo-header of an upper-layer packet. -/
def pseudo (src dst : List Byte) (len next : Nat) : List Byte := src ++ dst ++ toBe 4 len ++ toBe 4 next

/-- The checksum of an upper-layer packet whose checksum field is zero. -/
def checksum (src dst : List Byte) (next : Nat) (pkt : List Byte) : Nat :=
  65535 - onesSum (pseudo src dst pkt.length next ++ pkt)

/-- An upper-layer packet carries a correct checksum. -/
def checksumOk (src dst : List Byte) (next : Nat) (pkt : List Byte) : Bool :=
  onesSum (pseudo src dst pkt.length next ++ pkt) == 65535

/-- The link-local address of a MAC address (R461): fe80::/64 with the modified EUI-64 identifier. -/
def linkLocal (mac : List Byte) : List Byte :=
  toBe 2 0xFE80 ++ toBe 6 0 ++ toBe 1 (byteAt mac 0 ^^^ 2) ++ sliceB mac 1 2 ++ toBe 2 0xFFFE ++ sliceB mac 3 3

/-- The all-nodes multicast address. -/
def allNodes : List Byte := toBe 8 0xFF02000000000000 ++ toBe 8 1

/-- The solicited-node multicast address of an address. -/
def solicited (ip : List Byte) : List Byte := toBe 8 0xFF02000000000000 ++ toBe 5 0x00000001FF ++ sliceB ip 13 3

/-- An Ethernet frame with an IPv6 packet of hop limit 255 (R462). -/
def ipv6Frame (dmac smac src dst : List Byte) (next : Nat) (pkt : List Byte) : List Byte :=
  dmac ++ smac ++ toBe 2 0x86DD ++ toBe 4 0x60000000 ++ toBe 2 pkt.length ++ toBe 1 next ++ toBe 1 255 ++ src ++ dst ++ pkt

/-- An upper-layer packet with its checksum, whose field begins at byte `o`. -/
def withSum (src dst : List Byte) (next o : Nat) (pkt : List Byte) : List Byte :=
  let c := checksum src dst next pkt
  pkt.take o ++ toBe 2 (if c = 0 ∧ next = 17 then 65535 else c) ++ pkt.drop (o + 2)

/-- What a frame asks for (R462). -/
inductive NetIn where
  | solicit
  | echo (body : List Byte)
  | datagram (port : Nat) (msg : List Byte)
  deriving DecidableEq, Repr

/-- The packet of an accepted frame (R459, R462), without FCS: source MAC, source and destination address, next header,
upper-layer packet; none where the device does not accept the frame. -/
def openFrame (mac f : List Byte) : Option (List Byte × List Byte × List Byte × Nat × List Byte) :=
  let ip := f.drop 14
  let dst := sliceB ip 24 16
  let len := beNat (sliceB ip 4 2)
  if f.length < 60 ∨ 1514 < f.length ∨ sliceB f 12 2 ≠ toBe 2 0x86DD ∨ byteAt ip 0 / 16 ≠ 6 ∨ ip.length < 40 + len ∨ byteAt ip 7 ≠ 255 then none
  else if dst ≠ linkLocal mac ∧ dst ≠ allNodes ∧ dst ≠ solicited (linkLocal mac) then none
  else some (sliceB f 6 6, sliceB ip 8 16, dst, byteAt ip 6, sliceB ip 40 len)

/-- What an accepted packet asks for, if it is one of the three things that the device answers (R462). -/
def askOf (mac : List Byte) (p : List Byte × List Byte × List Byte × Nat × List Byte) : Option NetIn :=
  let (_, src, dst, next, pkt) := p
  if next = 58 then
    if !checksumOk src dst 58 pkt ∨ byteAt pkt 1 ≠ 0 then none
    else if byteAt pkt 0 = 135 ∧ 24 ≤ pkt.length ∧ sliceB pkt 8 16 = linkLocal mac then some .solicit
    else if byteAt pkt 0 = 128 ∧ 8 ≤ pkt.length ∧ pkt.length ≤ 1240 then some (.echo (pkt.drop 4))
    else none
  else if next = 17 then
    let len := beNat (sliceB pkt 4 2)
    let dgram := pkt.take len
    if pkt.length < len ∨ len < 8 ∨ beNat (sliceB pkt 2 2) ≠ 40962 ∨ beNat (sliceB pkt 6 2) = 0 ∨ !checksumOk src dst 17 dgram then none
    else some (.datagram (beNat (sliceB pkt 0 2)) (dgram.drop 8))
  else none

/-- The reply to a neighbour solicitation: a solicited advertisement with the device's MAC address. -/
def advertisement (mac dst : List Byte) : List Byte :=
  let me := linkLocal mac
  withSum me dst 58 2 (toBe 4 0x88000000 ++ toBe 4 0x60000000 ++ me ++ toBe 2 0x0201 ++ mac)

/-- The reply to an echo request: identifier, sequence number and data as they came. -/
def echoReply (mac dst body : List Byte) : List Byte := withSum (linkLocal mac) dst 58 2 (toBe 4 0x81000000 ++ body)

/-- A UDP reply from port 40962 (R462). -/
def udpReply (mac dst : List Byte) (port : Nat) (msg : List Byte) : List Byte :=
  withSum (linkLocal mac) dst 17 6 (toBe 2 40962 ++ toBe 2 port ++ toBe 2 (8 + msg.length) ++ toBe 2 0 ++ msg)

end Sys2Proof

namespace Sys2Proof.Machine

/-- Change the control link's state. -/
def State.onTpl (s : State) (f : TplSt → TplSt) : State := { s with tpl := f s.tpl }

/-- The link carries frames (R460): up, and started by stage 1 of this boot (R497). -/
def State.linkUp (s : State) : Bool := s.getF F.TPL_LINK_STATE == 2 && s.boot.done.contains 1

/-- The device's MAC address (R461). -/
def State.mac (s : State) : List Byte := s.boot.fuses.mac

/-- A packet goes out to a MAC and an IPv6 address (R462); lost while the link is down. -/
def State.netSend (s : State) (dmac dst : List Byte) (next : Nat) (pkt : List Byte) : State :=
  if s.linkUp then s.onTpl fun t => { t with sent := t.sent ++ [ipv6Frame dmac s.mac (linkLocal s.mac) dst next pkt] } else s

/-- A frame that is not answered (R462, R464). -/
def State.discard (s : State) : State := s.incF F.TPL_RX_DISCARDED 1

/-- PHY_LINK_UP (R460): auto-negotiation and training are complete; the resolution of master and slave. -/
def State.phyUp (s : State) (master : Bool) : State :=
  if s.getF F.TPL_LINK_STATE ≠ 2 ∧ s.boot.done.contains 1 then
    s.setFs [(F.TPL_LINK_STATE, 2), (F.TPL_LINK_MASTER, b2n master)]
  else s

/-- PHY_LINK_DOWN (R482): the link leaves the up state, for a new auto-negotiation or for good. -/
def State.phyDown (s : State) (restart : Bool) : State :=
  if s.getF F.TPL_LINK_STATE = 2 then (s.setF F.TPL_LINK_STATE (b2n restart)).incF F.TPL_ERR_LINK_DOWNS 1 else s

end Sys2Proof.Machine
end

