-- ==== Sys2Proof/Machine/Terpel.lean ====
section
/-! DEFINITION. Terpel (R463 to R481): the queue of requests, their tests, the operations, and privileged sessions. -/
namespace Sys2Proof

/-! ### Messages (R463, R465) -/

/-- A request's operation. -/
def Req.op (r : Req) : Nat := byteAt r.msg 3
/-- LEN: payload bytes. -/
def Req.len (r : Req) : Nat := leAt r.msg 8 2
/-- AUTH is set. -/
def Req.auth (r : Req) : Bool := bit (byteAt r.msg 11) 1
/-- The payload. -/
def Req.body (r : Req) : List Byte := sliceB r.msg 16 r.len
/-- SEQ of the trailer (R478). -/
def Req.seq (r : Req) : Nat := leAt r.msg (16 + r.len) 4

/-- The header breaks R463: VERSION, STATUS, FLAGS, SESSION or the length. -/
def Req.headerBad (r : Req) : Bool :=
  byteAt r.msg 2 != 1 || byteAt r.msg 10 != 0 || byteAt r.msg 11 % 2 != 0 || decide (4 ≤ byteAt r.msg 11) ||
  (!r.auth && leAt r.msg 12 4 != 0) || decide (1232 < r.msg.length) || r.msg.length != r.len + (if r.auth then 36 else 16)

/-- The operations (R465). -/
def opKnown (op : Nat) : Bool := [0, 1, 2, 3, 4, 5, 8, 9, 0x0A, 0x10, 0x11, 0x12, 0x18, 0x19].contains op
/-- Privileged as a whole (R465, R480). -/
def opPrivileged (op : Nat) : Bool := [4, 5, 0x12, 0x18, 0x19].contains op
/-- Served before COMPLETE (R500). -/
def opEarly (op : Nat) : Bool := [0, 1, 2, 8, 0x10, 0x11, 0x12, 0x19].contains op
/-- Not served in Doldrums, whatever it carries (R465). -/
def opAsleep (op : Nat) : Bool := [3, 4, 5, 9].contains op

/-- A register that READ_REG serves in Doldrums (R31, R465). -/
def dolRead (a : Nat) : Bool :=
  match blockOf a with
  | some (.dev, _) | some (.tpl, _) | some (.sec, _) | some (.pwr, _) | some (.sns, _) => true
  | some (.core _, o) | some (.band _, o) => decide (o < 4)
  | _ => false
/-- A register that WRITE_REG serves in Doldrums (R465). -/
def dolWrite (a : Nat) : Bool :=
  match blockOf a with
  | some (.dev, _) | some (.tpl, _) | some (.sec, _) | some (.pwr, _) | some (.sns, _) => true
  | _ => false
/-- A register whose writes are always privileged (R480). -/
def privilegedReg (a : Nat) : Bool :=
  match blockOf a with
  | some (.tpl, _) | some (.sec, _) | some (.aud, _) => true
  | some (.frs, o) => decide (0x1000 ≤ o) && decide (o < 0x1C00)
  | some (.cmp, o) => decide (0x400 ≤ o) && decide (o < 0x600)
  | _ => false

/-- The session under which a request was accepted: its number, SEQ, and the device's key (R478). -/
structure Accepted where
  number : Nat
  seq : Nat
  kd : List Byte
  deriving DecidableEq, Repr

/-- A response (R463, R478): a DENIED one carries no trailer. -/
def response (r : Req) (au : Option Accepted) (status : Nat) (payload : List Byte) : List Byte :=
  let head (flags sess : Nat) : List Byte := toLe 2 0x5054 ++ toLe 1 1 ++ toLe 1 r.op ++ sliceB r.msg 4 4 ++
    toLe 2 payload.length ++ toLe 1 status ++ toLe 1 flags ++ toLe 4 sess
  match au.filter fun _ => status != 3 with
  | none => head 1 0 ++ payload
  | some a =>
    let m := head 3 a.number ++ payload ++ toLe 4 a.seq
    m ++ (hmac384 a.kd m).take 16

end Sys2Proof

namespace Sys2Proof.Machine

/-! ### Answering (R464, R466, R482) -/

/-- A message goes back to a request's sender (R462). -/
def State.sendMsg (s : State) (r : Req) (m : List Byte) : State := s.netSend r.mac r.ip 17 (udpReply s.mac r.ip r.port m)

/-- A response with its status is sent and counted, the request leaves the queue, and the response to an accepted AUTH
request is stored while its session is open (R464, R478, R482). -/
def State.reply (s : State) (r : Req) (au : Option Accepted) (status : Nat) (payload : List Byte) : State :=
  let m := response r au status payload
  let s1 := ((s.sendMsg r m).incFs [(F.TPL_RX_REQUESTS, 1), (F.TPL_ERR_MALFORMED, b2n (status == 4)), (F.TPL_ERR_DENIED, b2n (status == 3))]).onTpl
    fun t => { t with rx := t.rx.drop 1, waiting := false, waitAs := none }
  match au with
  | some a => if s1.getF F.TPL_SESSION_SESSION = a.number then s1.onTpl fun t => { t with sess := t.sess.map fun x => { x with reply := m } } else s1
  | none => s1

/-- Requests at the front whose header or operation code fails are answered at once (R466). -/
def State.answerBad : Nat → State → State
  | 0, s => s
  | n + 1, s =>
    match s.tpl.rx with
    | [] => s
    | r :: _ =>
      if r.headerBad then State.answerBad n (s.reply r none 4 [])
      else if !opKnown r.op then State.answerBad n (s.reply r none 8 [])
      else s

/-- A response, and then the next request that can be handled comes to the front. -/
def State.finish (s : State) (r : Req) (au : Option Accepted) (status : Nat) (payload : List Byte) : State :=
  State.answerBad 16 (s.reply r au status payload)

/-- A datagram to port 40962 (R464): discarded without a response, lost to a full queue, or taken. -/
def State.takeRequest (s : State) (r : Req) : State :=
  if r.msg.length < 16 ∨ r.msg.take 2 ≠ toLe 2 0x5054 then s.discard
  else if 16 ≤ s.tpl.rx.length then s.incF F.TPL_ERR_RX_DROP 1
  else State.answerBad 16 (s.onTpl fun t => { t with rx := t.rx ++ [r] })

/-- ETHERNET_FRAME_RX (R459, R462, R464): the bytes without FCS, and whether the FCS was good. -/
def State.frameRx (s : State) (f : List Byte) (fcs : Bool) : State :=
  if !s.linkUp then s
  else match (if fcs then openFrame s.mac f else none) with
    | none => s.discard
    | some p =>
      match askOf s.mac p with
      | none => s.discard
      | some .solicit => s.netSend p.1 p.2.1 58 (advertisement s.mac p.2.1)
      | some (.echo b) => s.netSend p.1 p.2.1 58 (echoReply s.mac p.2.1 b)
      | some (.datagram port m) => s.takeRequest { mac := p.1, ip := p.2.1, port := port, msg := m }

/-! ### Sessions (R476 to R480) -/

/-- The open session, while it has not been idle too long (R479). -/
def State.liveSess (s : State) : Option Sess :=
  s.tpl.sess.filter fun x => s.getF F.TPL_CFG_SESS_IDLE == 0 || decide (s.now < x.last + msCycles (1000 * s.getF F.TPL_CFG_SESS_IDLE))

/-- What R478 says of an AUTH request. -/
inductive AuthCheck where
  | accepted (a : Accepted)
  | again (m : List Byte)
  | denied
  deriving DecidableEq, Repr

/-- The tests of R478. -/
def State.authCheck (s : State) (r : Req) : AuthCheck :=
  match s.liveSess with
  | none => .denied
  | some x =>
    let n := s.getF F.TPL_SESSION_SESSION
    let last := s.getF F.TPL_SEQ_LAST_SEQ
    if leAt r.msg 12 4 ≠ n ∨ sliceB r.msg (20 + r.len) 16 ≠ (hmac384 x.kh (r.msg.take (20 + r.len))).take 16 then .denied
    else if last < r.seq then .accepted ⟨n, r.seq, x.kd⟩
    else if r.seq = last ∧ x.accepted then .again x.reply
    else .denied

/-- An AUTH request has been accepted (R478, R479). -/
def State.noteAccepted (s : State) (a : Accepted) : State :=
  (s.setF F.TPL_SEQ_LAST_SEQ a.seq).onTpl fun t => { t with sess := t.sess.map fun x => { x with accepted := true, reply := [], last := s.now } }

/-- The open session closes (R479). -/
def State.closeSession (s : State) : State := (s.setF F.TPL_SESSION_OPEN 0).onTpl fun t => { t with sess := none }

/-- The power state or the boot's stage does not serve the request (R465, R500): the status. -/
def State.notServed (s : State) (r : Req) : Option Nat :=
  if !s.locked ∧ !opEarly r.op then some 6
  else if s.pstate = 2 ∧ (opAsleep r.op ∨ (r.op = 0x0A ∧ byteAt r.body 32 ≠ 0)) then some 7
  else none

/-- The request at the front is handled when it asks for this operation (R464, R466): session, power state, then the
operation's own rules `run`, which sees whether the request is an accepted AUTH request and sends the response. A request
whose SEQ repeats the last one gets the stored response. -/
def State.serve (s : State) (op : Nat) (run : State → Req → Option Accepted → State) : State :=
  match s.tpl.rx with
  | [] => s
  | r :: _ =>
    if s.tpl.waiting ∨ r.op ≠ op then s
    else
      let go (s : State) (au : Option Accepted) : State :=
        match s.notServed r with
        | some st => s.finish r au st []
        | none => run s r au
      if r.auth then
        match s.authCheck r with
        | .denied => s.finish r none 3 []
        | .again m =>
          State.answerBad 16 (((s.sendMsg r m).incFs [(F.TPL_RX_REQUESTS, 1), (F.TPL_ERR_MALFORMED, b2n (byteAt m 10 == 4))]).onTpl fun t => { t with
            rx := t.rx.drop 1, sess := t.sess.map fun x => { x with last := s.now } })
        | .accepted a => go (s.noteAccepted a) (some a)
      else if opPrivileged op ∧ !(op = 0x19 ∧ s.getF F.DEV_BOOT_FAILED = 1) then s.finish r none 3 []
      else go s none

/-! ### Registers (R467, R468) -/

/-- Registers read one per fabric cycle, from the `k`-th on: highest status, words. -/
def State.readRegs (a : Nat) : Nat → Nat → State → Nat → List Nat → Nat × List Nat × State
  | 0, _, s, st, ws => (st, ws, s)
  | n + 1, k, s, st, ws =>
    let s0 := if k = 0 then s else s.advance 1
    let r := if s0.pstate = 2 ∧ !dolRead (a + 4 * k) then (7, 0, s0) else s0.hostRead (a + 4 * k)
    State.readRegs a n (k + 1) r.2.2 (max st r.1) (ws ++ [r.2.1])

/-- READ_REG (R467). -/
def State.tplReadReg (s : State) : State := s.serve 1 fun s r au =>
  let a := leAt r.body 0 5
  let n := leAt r.body 5 2
  if r.len ≠ 8 ∨ n = 0 ∨ 256 < n ∨ byteAt r.body 7 ≠ 0 then s.finish r au 4 []
  else if a % 4 ≠ 0 then (s.incF F.DEV_ACCESS_MISALIGNED 1).finish r au 2 []
  else
    let q := State.readRegs a n 0 s 0 []
    q.2.2.finish r au q.1 (wordsToBytes q.2.1)

/-- One entry of WRITE_REG (R468, R480): status and state. -/
def State.writeEntry (s : State) (auth : Bool) (a v : Nat) : Nat × State :=
  if !auth ∧ (privilegedReg a ∨ s.getF F.TPL_CFG_STRICT = 1) then (3, s.incF F.TPL_ERR_DENIED 1)
  else if s.pstate = 2 ∧ !dolWrite a then (7, s)
  else s.hostWrite a v

/-- Entries applied one per fabric cycle, from the `k`-th on: their statuses. -/
def State.writeEntries (auth : Bool) : List (Nat × Nat) → Nat → State → List Nat → List Nat × State
  | [], _, s, sts => (sts, s)
  | e :: es, k, s, sts =>
    let q := (if k = 0 then s else s.advance 1).writeEntry auth e.1 e.2
    State.writeEntries auth es (k + 1) q.2 (sts ++ [q.1])

/-- WRITE_REG (R468). -/
def State.tplWriteReg (s : State) : State := s.serve 2 fun s r au =>
  let n := r.len / 12
  let e (i : Nat) : List Byte := sliceB r.body (12 * i) 12
  if r.len % 12 ≠ 0 ∨ n = 0 ∨ 64 < n ∨ ((List.range n).any fun i => leAt (e i) 5 3 != 0) then s.finish r au 4 []
  else
    let q := State.writeEntries au.isSome ((List.range n).map fun i => (leAt (e i) 0 5, leAt (e i) 8 4)) 0 s []
    q.2.finish r au (q.1.foldl max 0) (q.1.flatMap (toLe 1))

/-! ### Memory (R469, R470) -/

/-- READ_MEM (R469). -/
def State.tplReadMem (s : State) : State := s.serve 3 fun s r au =>
  let n := leAt r.body 6 2
  if r.len ≠ 8 ∨ byteAt r.body 5 ≠ 0 ∨ n = 0 ∨ 1024 < n then s.finish r au 4 []
  else
    let q := s.hostMemRead (leAt r.body 0 5) n
    q.2.2.finish r au q.1 q.2.1

/-- WRITE_MEM (R469). -/
def State.tplWriteMem (s : State) : State := s.serve 4 fun s r au =>
  let n := leAt r.body 6 2
  if r.len ≠ 8 + n ∨ byteAt r.body 5 ≠ 0 ∨ n = 0 ∨ 1024 < n then s.finish r au 4 []
  else
    let q := s.hostMem (leAt r.body 0 5) (r.body.drop 8)
    q.2.finish r au q.1 []

/-- LOAD_PAGE (R470): part 0 is held; part 1 completes the page. -/
def State.tplLoadPage (s : State) : State := s.serve 5 fun s r au =>
  let b := r.body
  let page := leAt b 0 5
  let part := byteAt b 5
  let id := leAt b 6 2
  let data := b.drop 16
  if r.len ≠ 1040 ∨ 1 < part ∨ leAt b 12 4 ≠ 0 ∨ page % 2048 ≠ 0 ∨ (part = 0 ∧ leAt b 8 4 ≠ 0) then s.finish r au 4 []
  else if s.replaying then s.replayRefuse.2.finish r au 2 []
  else if !inWindow page 2048 then s.finish r au 1 []
  else if !s.pageOk (page - dramBase) then s.hostRefuse.2.finish r au 2 []
  else if part = 0 then (s.onTpl fun t => { t with part := some (page, id, data) }).finish r au 0 []
  else match s.tpl.part with
    | some (p, i, d) =>
      if p ≠ page ∨ i ≠ id then s.finish r au 4 []
      else
        let s1 := s.onTpl fun t => { t with part := none }
        if crc32 (d ++ data) ≠ leAt b 8 4 then s1.finish r au 5 []
        else let q := s1.hostPage page (d ++ data); q.2.finish r au q.1 []
    | none => s.finish r au 4 []

/-! ### Polling and records (R471, R472) -/

/-- A word as STATUS samples it: in Doldrums zero in a block that is not served (R471). -/
def State.sample (s : State) (a : Nat) : Nat := if s.pstate = 2 ∧ !dolRead a then 0 else s.word a

/-- Status block 0 and the words of TPL_SLIST (R471). -/
def State.statusBlock (s : State) (list : Bool) : List Byte :=
  let ws := [0x10000, 0x10004, 0xA0020, 0xA0024, 0x4, 0x10008, 0x10040, 0x10044, 0x10034, 0x10050, 0x20104, 0x20144, 0x20030, 0x20004,
    0x40008, 0x50000, 0xC000C, 0xB0004, 0xD002C, 0xD0034, 0xD0010, 0x70018]
  let more := if list then ((List.range 64).filter fun i => s.getF (F.TPL_SLIST_EN i) == 1).map fun i => 4 * s.getF (F.TPL_SLIST_ADDR i) else []
  wordsToBytes (ws.map s.sample) ++ List.replicate 40 (0 : Byte) ++ wordsToBytes (more.map s.sample)

/-- STATUS (R471): answered at once, or with BOUNDARY at the next output frame boundary. -/
def State.tplStatus (s : State) : State := s.serve 8 fun s r au =>
  let f := byteAt r.body 0
  if r.len ≠ 1 ∨ 4 ≤ f then s.finish r au 4 []
  else if bit f 0 then s.onTpl fun t => { t with waiting := true, waitAs := au.map fun a => (a.number, a.seq, a.kd) }
  else s.finish r au 0 (s.statusBlock (bit f 1))

/-- A STATUS that waits for a boundary is answered once the boundary's changes are made (R471). -/
def State.boundaryStatus (before s : State) : State :=
  match s.tpl.waiting, s.tpl.rx with
  | true, r :: _ =>
    if before.cal.frame = s.cal.frame ∧ (before.cal.running ∨ !s.cal.running) then s
    else
      let s : State := State.noteStat before s
      let au : Option Accepted := s.tpl.waitAs.map fun a => ⟨a.1, a.2.1, a.2.2⟩
      s.finish r au 0 (s.statusBlock (bit (byteAt r.body 0) 1))
  | _, _ => s

/-- A frame record of the ring, if it is present (R448, R472). -/
def State.recordOf (s : State) (frame : Nat) : Option (List Byte) :=
  let b := readB s.dram (s.recSlot frame) 320
  if bit (byteAt b 5) 7 ∧ leAt b 0 4 = frame then some b else none

/-- A frame's slot of the ring holds an uncorrectable word (R417). -/
def State.recordBad (s : State) (frame : Nat) : Bool := s.memBad 3 0 (s.recSlot frame) 320

/-- RECORDS (R472). -/
def State.tplRecords (s : State) : State := s.serve 9 fun s r au =>
  let n := byteAt r.body 4
  let fs := (List.range n).map fun i => (leAt r.body 0 4 + i) % 2 ^ 32
  if r.len ≠ 8 ∨ n = 0 ∨ 3 < n ∨ leAt r.body 5 3 ≠ 0 then s.finish r au 4 []
  else if fs.any s.recordBad then s.finish r au 5 []
  else
    let st := if fs.all fun f => (s.recordOf f).isNone then 9 else 0
    s.finish r au st (fs.flatMap fun f => (s.recordOf f).getD (List.replicate 320 (0 : Byte)))

/-! ### Identity and attestation (R473 to R475) -/

/-- SERIAL. -/
def State.serial (s : State) : List Byte := padTo 8 s.boot.fuses.serial
/-- The identity private scalar (R474). -/
def State.identity (s : State) : Nat := Config.identityKey s.boot.fuses.secret

/-- IDENT (R473). -/
def State.tplIdent (s : State) : State := s.serve 0 fun s r au =>
  if r.len ≠ 0 then s.finish r au 4 []
  else s.finish r au 0 (toLe 4 (s.word 0) ++ s.serial ++ padTo 6 s.mac ++
    toLe 1 (b2n s.boot.verified + 2 * s.getF F.DEV_BOOT_COMPLETE) ++ toLe 1 0 ++ s.imageDigest ++
    ecBytes (ecPublic s.identity) ++ padTo 96 s.boot.fuses.mfgSig)

/-- ATTEST (R475). -/
def State.tplAttest (s : State) : State := s.serve 0x0A fun s r au =>
  let b := r.body
  let kind := byteAt b 32
  let n := leAt b 37 2
  let fs := (List.range n).map fun i => (leAt b 33 4 + i) % 2 ^ 32
  if r.len ≠ 39 ∨ 1 < kind ∨ (kind = 0 ∧ n ≠ 0) ∨ (kind = 1 ∧ (n = 0 ∨ 256 < n)) then s.finish r au 4 []
  else if fs.any s.recordBad then s.finish r au 5 []
  else if fs.any fun f => (s.recordOf f).isNone then s.finish r au 9 []
  else
    let recs := if kind = 1 then sha384 (fs.flatMap fun f => (s.recordOf f).getD []) else zero48
    let m := ascii "AQV8440-ATTEST" ++ toLe 1 kind ++ s.serial ++ b.take 32 ++ s.imageDigest ++ sliceB b 33 6 ++ recs
    let k := s.fresh
    let sig := ecSign s.identity (1 + k.1 % (ecN - 1)) (sha384 m)
    (k.2.incF F.SEC_ATTEST_ATTESTS 1).finish r au 0 (m ++ sig)

/-! ### Challenge, sessions, power (R476, R477, R479, R481) -/

/-- The outstanding challenge, while it has not expired (R476). -/
def State.liveChal (s : State) : Option Chal := s.tpl.chal.filter fun c => decide (s.now < c.expires)

/-- CHALLENGE returns BUSY (R476). -/
def State.lockedOut (s : State) : Bool := (s.tpl.lockEnd.map fun t => decide (s.now < t)).getD false

/-- CHALLENGE (R476). -/
def State.tplChallenge (s : State) : State := s.serve 0x10 fun s r au =>
  if r.len ≠ 0 then s.finish r au 4 []
  else if s.lockedOut then s.finish r au 6 []
  else
    let a := s.fresh
    let b := a.2.fresh
    let nonce := toBe 48 (a.1 % 2 ^ 384)
    let eph := 1 + b.1 % (ecN - 1)
    ((b.2.onTpl fun t => { t with chal := some ⟨nonce, eph, s.now + msCycles 10000⟩ }).setF F.SEC_AUTH_CHAL 1).finish r au 0
      (nonce ++ ecBytes (ecPublic eph) ++ s.serial)

/-- A failed OPEN (R476, R477): the fourth in a row starts the lockout. -/
def State.openFails (s : State) : State :=
  let n := s.tpl.fails + 1
  let s1 := s.incF F.SEC_AUTH_OPEN_FAIL 1
  if 4 ≤ n then (s1.onTpl fun t => { t with fails := 0, lockEnd := some (s.now + msCycles 5000) }).setF F.SEC_AUTH_LOCKOUT 1
  else s1.onTpl fun t => { t with fails := n }

/-- The session that an OPEN asks for, when nothing of R477 fails: the host's point. -/
def State.openPoint (s : State) (c : Option Chal) (b : List Byte) : Option (Chal × EcPoint) :=
  let he := sliceB b 1 97
  match c, s.boot.hostKeys.find? (fun k => k.1 == byteAt b 0), ecParse he with
  | some c, some key, some p =>
    let m := ascii "TERPEL-OPEN" ++ s.serial ++ c.nonce ++ ecBytes (ecPublic c.eph) ++ he ++ b.take 1
    if ecVerify key.2 (sha384 m) (sliceB b 98 96) then some (c, some p) else none
  | _, _, _ => none

/-- OPEN (R477). -/
def State.tplOpen (s : State) : State := s.serve 0x11 fun s r au =>
  let b := r.body
  if r.len ≠ 194 ∨ 3 < byteAt b 0 then s.finish r au 4 []
  else
    let s1 := (s.onTpl fun t => { t with chal := none }).setF F.SEC_AUTH_CHAL 0
    match s.openPoint s.liveChal b with
    | none => s1.openFails.finish r au 3 []
    | some (c, p) =>
      let n := (s.getF F.TPL_SESSION_SESSION + 1) % 65536
      let ks := hkdf384 c.nonce (ecShared c.eph p) (ascii "TERPEL-SESSION" ++ toLe 4 n) 48
      let s2 := (s1.setFs [(F.TPL_SESSION_OPEN, 1), (F.TPL_SESSION_KEY_SLOT, byteAt b 0), (F.TPL_SESSION_SESSION, n), (F.TPL_SEQ_LAST_SEQ, 0)]).incF
        F.SEC_AUTH_OPENS 1
      (s2.onTpl fun t => { t with fails := 0, sess := some { kh := ks.take 24, kd := ks.drop 24, last := s.now } }).finish r au 0 (toLe 4 n)

/-- CLOSE (R479). -/
def State.tplClose (s : State) : State := s.serve 0x12 fun s r au =>
  if r.len ≠ 0 then s.finish r au 4 [] else s.closeSession.finish r au 0 []

/-- POWER (R481, R509). -/
def State.tplPower (s : State) : State := s.serve 0x18 fun s r au =>
  if r.len ≠ 1 ∨ 2 < byteAt r.body 0 then s.finish r au 4 []
  else let q := s.powerRequest (byteAt r.body 0); q.2.finish r au q.1 []

/-- RESET (R481): a device reset starts 100 µs after the response. -/
def State.tplReset (s : State) : State := s.serve 0x19 fun s r au =>
  if r.len ≠ 0 then s.finish r au 4 [] else (s.finish r au 0 []).startReset 1 (s.now + usCycles 100)

/-- CHALLENGE_EXPIRY (R476). -/
def State.chalExpiry (s : State) : State :=
  match s.tpl.chal with
  | some c => ((s.waitUntil c.expires).onTpl fun t => { t with chal := none }).setF F.SEC_AUTH_CHAL 0
  | none => s

/-- LOCKOUT_END (R476). -/
def State.lockoutEnd (s : State) : State :=
  match s.tpl.lockEnd with
  | some t => ((s.waitUntil t).onTpl fun x => { x with lockEnd := none }).setF F.SEC_AUTH_LOCKOUT 0
  | none => s

/-- SESSION_IDLE_TIMEOUT (R479). -/
def State.sessionIdle (s : State) : State :=
  let idle := s.getF F.TPL_CFG_SESS_IDLE
  match s.tpl.sess with
  | some x => if idle = 0 then s else (s.waitUntil (x.last + msCycles (1000 * idle))).closeSession
  | none => s

end Sys2Proof.Machine
end

