-- ==== Sys2Proof/Machine/CmdAudit.lean ====
section
/-! DEFINITION. The commands of frame records, recording and replay (chapter 17): each is one call of the operation that its rule describes. -/
namespace Sys2Proof.Machine

/-- FRAME_RECORD_WRITE (R448). -/
def execFrameRecordWrite (s : State) : Host.Outcome State Fault Refusal := done s s.recWrite

/-- LOG_ENTRY_WRITE (R452). -/
def execLogEntryWrite (s : State) : Host.Outcome State Fault Refusal := done s s.logWrite

/-- REPLAY_GO (R455). -/
def execReplayGo (s : State) : Host.Outcome State Fault Refusal :=
  done s (State.boundaryStatus s (s.hostWrite 0xD0040 (s.word 0xD0040 ||| 2)).2)

/-- REPLAY_WRITE_APPLY (R455). -/
def execReplayWriteApply (s : State) : Host.Outcome State Fault Refusal := done s s.replayApply

/-- REPLAY_END (R457). -/
def execReplayEnd (s : State) : Host.Outcome State Fault Refusal := done s s.replayFinish

end Sys2Proof.Machine
end

