-- ==== Sys2Proof/Machine/CmdBoot.lean ====
section
/-! DEFINITION. The commands of reset, boot and the ledger (chapters 09, 19, 21): each is one call of the operation that its rule describes. -/
namespace Sys2Proof.Machine

/-- DEVICE_RESET (R283). -/
def execDeviceReset (low : Bool) (s : State) : Host.Outcome State Fault Refusal := done s (s.deviceReset low)

/-- DRAM_TRAINING_COMPLETE (R283). -/
def execDramTrainingComplete (ok : Bool) (s : State) : Host.Outcome State Fault Refusal := done s (s.dramTrained ok)

/-- PWR_GOOD_RISE (R548). -/
def execPwrGoodRise (s : State) : Host.Outcome State Fault Refusal := done s s.pwrGoodRise

/-- BOOT_STAGE_COMPLETE (R497). -/
def execBootStageComplete (i : StageIn) (s : State) : Host.Outcome State Fault Refusal :=
  act (Instr.wf (.bootStageComplete i)) s (s.bootStep i)

/-- BOOT_COMPLETE (R499). -/
def execBootComplete (s : State) : Host.Outcome State Fault Refusal := done s (State.boundaryStatus s s.bootComplete)

/-- LEDGER_APPEND (R504). -/
def execLedgerAppend (s : State) : Host.Outcome State Fault Refusal := done s s.ledgerAppend

/-- REMOVE_N_FALL (R551). -/
def execRemoveNFall (s : State) : Host.Outcome State Fault Refusal := done s s.removeFall

/-- INPUT_SWITCH_CLOSE (R548). -/
def execInputSwitchClose (s : State) : Host.Outcome State Fault Refusal := done s s.switchClose

/-- INPUT_SWITCH_OPEN (R548). -/
def execInputSwitchOpen (s : State) : Host.Outcome State Fault Refusal := done s s.switchOpen

end Sys2Proof.Machine
end

