-- ==== Sys2Proof/Machine/CmdCore.lean ====
section
/-! DEFINITION. The commands of the cores (chapters 04 to 07): each is one call of the operation that its rule describes. -/
namespace Sys2Proof.Machine

/-- ISSUE_STEP (R141). -/
def execIssueStep (p t : Nat) (o : StepOp) (w : CoreIn) (s : State) : Host.Outcome State Fault Refusal :=
  act (Instr.wf (.issueStep p t o w)) s (State.stepParity s (s.issueStep p t o w) p)

/-- CORRECTION_STALL_END (R208). -/
def execCorrectionStallEnd (p : Nat) (s : State) : Host.Outcome State Fault Refusal :=
  act (Instr.wf (.correctionStallEnd p)) s (s.stallOver p)

/-- TILE_LOAD (R147). -/
def execTileLoad (p t prn e : Nat) (w : CoreIn) (s : State) : Host.Outcome State Fault Refusal :=
  act (Instr.wf (.tileLoad p t prn e w)) s (s.tileLoad p t prn e w)

/-- TILE_LOAD_COMPLETE (R147). -/
def execTileLoadComplete (p e : Nat) (s : State) : Host.Outcome State Fault Refusal :=
  act (Instr.wf (.tileLoadComplete p e)) s (s.tileLoaded p e)

/-- WEIGHT_FILE_REWRITE (R149). -/
def execWeightFileRewrite (p : Nat) (s : State) : Host.Outcome State Fault Refusal :=
  act (Instr.wf (.weightFileRewrite p)) s (s.weightRewrite p)

/-- PREFIX_LAYER (R154). -/
def execPrefixLayer (p t layer line oy : Nat) (w : CoreIn) (s : State) : Host.Outcome State Fault Refusal :=
  act (Instr.wf (.prefixLayer p t layer line oy w)) s (s.prefixLayer p t layer line oy w)

/-- SUFFIX_LAYER (R155). -/
def execSuffixLayer (p t layer line oy : Nat) (w : CoreIn) (s : State) : Host.Outcome State Fault Refusal :=
  act (Instr.wf (.suffixLayer p t layer line oy w)) s (s.suffixLayer p t layer line oy w)

/-- SUFFIX_ROW_WRITE (R158). -/
def execSuffixRowWrite (p : Nat) (s : State) : Host.Outcome State Fault Refusal :=
  act (Instr.wf (.suffixRowWrite p)) s (s.suffixRow p)

/-- BIN_EFF_CHANGE (R162). -/
def execBinEffChange (p : Nat) (s : State) : Host.Outcome State Fault Refusal :=
  act (Instr.wf (.binEffChange p)) s (s.binChange p)

/-- BACKGROUND_ACCESS (R201). -/
def execBackgroundAccess (p a n : Nat) (write busy : Bool) (e : EccIn) (s : State) : Host.Outcome State Fault Refusal :=
  act (Instr.wf (.backgroundAccess p a n write busy e)) s (s.background p a n write busy e)

/-- SCRATCHPAD_MAP_OUT (R214). -/
def execScratchpadMapOut (p : EccAt) (s : State) : Host.Outcome State Fault Refusal :=
  act (Instr.wf (.scratchpadMapOut p)) s (s.spadMapOutStep p)

/-- LINE_STORE_MAP_OUT (R222). -/
def execLineStoreMapOut (b : EccAt) (s : State) : Host.Outcome State Fault Refusal :=
  act (Instr.wf (.lineStoreMapOut b)) s (s.lsMapOut b)

/-- LINE_STORE_SLOT_WRITE (R224). -/
def execLineStoreSlotWrite (p t line n y : Nat) (s : State) : Host.Outcome State Fault Refusal :=
  act (Instr.wf (.lineStoreSlotWrite p t line n y)) s (s.slotWrite p t line n y)

/-- HISTOGRAM_CLEAR (R137). -/
def execHistogramClear (p u : Nat) (s : State) : Host.Outcome State Fault Refusal :=
  act (Instr.wf (.histogramClear p u)) s ((s.hostWrite (histCfgAddr p u) (s.word (histCfgAddr p u) + 4)).2)

end Sys2Proof.Machine
end

