-- ==== Sys2Proof/Machine/CmdFabric.lean ====
section
/-! DEFINITION. The commands of the fabric, snapshots and handovers (chapter 09): each is one call of the operation that its rule describes. -/
namespace Sys2Proof.Machine

/-- MULTICAST_ACCEPTED (R277). -/
def execMulticastAccepted (s : State) : Host.Outcome State Fault Refusal := done s s.mcastAccepted

/-- REMOTE_TRANSFER_ARRIVAL (R266). -/
def execRemoteTransferArrival (n : EccAt) (s : State) : Host.Outcome State Fault Refusal := done s (s.remoteArrival n)

/-- BARRIER_ARRIVE (R278). -/
def execBarrierArrive (p t line g : Nat) (s : State) : Host.Outcome State Fault Refusal :=
  act (Instr.wf (.barrierArrive p t line g)) s (s.barrierArrive p t line g)

/-- BARRIER_COMPLETE (R278). -/
def execBarrierComplete (g : Nat) (s : State) : Host.Outcome State Fault Refusal :=
  act (Instr.wf (.barrierComplete g)) s (s.barrierComplete g)

/-- SNAPSHOT_ARM (R281). -/
def execSnapshotArm (bands : BitVec 8) (spad ls : Bool) (s : State) : Host.Outcome State Fault Refusal :=
  done s ((s.hostWrite 0x60000 (1 + 256 * bands.toNat + 65536 * b2n spad + 131072 * b2n ls)).2)

/-- SNAPSHOT_CANCEL (R282). -/
def execSnapshotCancel (s : State) : Host.Outcome State Fault Refusal := done s ((s.hostWrite 0x60000 (s.word 0x60000 + 2)).2)

/-- SNAPSHOT_COPY_START (R280). -/
def execSnapshotCopyStart (s : State) : Host.Outcome State Fault Refusal := done s s.snapStart

/-- SNAPSHOT_COPY_COMPLETE (R280). -/
def execSnapshotCopyComplete (s : State) : Host.Outcome State Fault Refusal := done s s.snapDone

/-- HANDOVER_START (R272). -/
def execHandoverStart (b : Nat) (s : State) : Host.Outcome State Fault Refusal :=
  act (Instr.wf (.handoverStart b)) s (s.handoverStep b)

end Sys2Proof.Machine
end

