-- ==== Sys2Proof/Machine/CmdInput.lean ====
section
/-! DEFINITION. The commands of the input path (chapter 03): each is one call of the operation that its rule describes. -/
namespace Sys2Proof.Machine

/-- PORT_CFG_WRITE (R74). -/
def execPortCfgWrite (n : Nat) (v : Word) (s : State) : Host.Outcome State Fault Refusal :=
  act (Instr.wf (.portCfgWrite n v)) s ((s.hostWrite (0x20100 + 0x40 * n) v.toNat).2)

/-- HPD_PULSE_END (R74). -/
def execHpdPulseEnd (n : Nat) (s : State) : Host.Outcome State Fault Refusal := act (Instr.wf (.hpdPulseEnd n)) s (s.hpdEnd n)

/-- DP_LINK_TRAINING (R72). -/
def execDpLinkTraining (n rate lanes : Nat) (ok : Bool) (s : State) : Host.Outcome State Fault Refusal :=
  act (Instr.wf (.dpLinkTraining n rate lanes ok)) s (s.linkTrain n rate lanes ok)

/-- PPS_RECEIVED (R85). -/
def execPpsReceived (n : Nat) (pps : Pps) (s : State) : Host.Outcome State Fault Refusal :=
  act (Instr.wf (.ppsReceived n pps)) s (s.ppsIn n pps)

/-- SDP_RECEIVED (R72). -/
def execSdpReceived (n : Nat) (sdp : Sdp) (s : State) : Host.Outcome State Fault Refusal :=
  act (Instr.wf (.sdpReceived n sdp)) s (s.sdpIn n sdp)

/-- HDCP_AUTHENTICATION (R88). -/
def execHdcpAuthentication (n : Nat) (ok : Bool) (s : State) : Host.Outcome State Fault Refusal :=
  act (Instr.wf (.hdcpAuthentication n ok)) s (s.hdcpAuth n ok)

/-- SIGNAL_LOST (R82). -/
def execSignalLost (n : Nat) (c : LossCause) (s : State) : Host.Outcome State Fault Refusal :=
  act (Instr.wf (.signalLost n c)) s (s.lose n c)

/-- INPUT_FRAME_START (R78). -/
def execInputFrameStart (n : Nat) (a : SrcAttr) (s : State) : Host.Outcome State Fault Refusal :=
  act (Instr.wf (.inputFrameStart n a)) s (s.frameStart n a)

/-- INPUT_LINE (R71, R79). -/
def execInputLine (n y : Nat) (l : SrcLine) (causes : List Nat) (s : State) : Host.Outcome State Fault Refusal :=
  act (Instr.wf (.inputLine n y l causes)) s (s.inputLine n y l causes)

/-- STAGE10_LINE_WRITE (R101). -/
def execStage10LineWrite (s : State) : Host.Outcome State Fault Refusal := done s s.stage10

/-- BLANK_PATH_FRAME (R83). -/
def execBlankPathFrame (s : State) : Host.Outcome State Fault Refusal := done s s.blankPath

/-- AUX_TRANSACTION (R72). -/
def execAuxTransaction (n : Nat) (r : AuxReq) (s : State) : Host.Outcome State Fault Refusal :=
  act (Instr.wf (.auxTransaction n r)) s (s.aux n r)

end Sys2Proof.Machine
end

