-- ==== Sys2Proof/Machine/CmdLink.lean ====
section
/-! DEFINITION. The commands of the control link, Terpel and register writes (chapters 01, 18): each is one call of the operation that its rule describes. -/
namespace Sys2Proof.Machine

/-- PHY_LINK_UP (R460). -/
def execPhyLinkUp (master : Bool) (s : State) : Host.Outcome State Fault Refusal := done s (s.phyUp master)

/-- PHY_LINK_DOWN (R482). -/
def execPhyLinkDown (restart : Bool) (s : State) : Host.Outcome State Fault Refusal := done s (s.phyDown restart)

/-- ETHERNET_FRAME_RX (R462). -/
def execEthernetFrameRx (f : List Byte) (fcs : Bool) (s : State) : Host.Outcome State Fault Refusal := done s (s.frameRx f fcs)

/-- IDENT (R473). -/
def execIdent (s : State) : Host.Outcome State Fault Refusal := done s s.tplIdent

/-- READ_REG (R467). -/
def execReadReg (s : State) : Host.Outcome State Fault Refusal := done s s.tplReadReg

/-- WRITE_REG (R468). -/
def execWriteReg (s : State) : Host.Outcome State Fault Refusal := done s s.tplWriteReg

/-- READ_MEM (R469). -/
def execReadMem (s : State) : Host.Outcome State Fault Refusal := done s s.tplReadMem

/-- WRITE_MEM (R469). -/
def execWriteMem (s : State) : Host.Outcome State Fault Refusal := done s s.tplWriteMem

/-- LOAD_PAGE (R470). -/
def execLoadPage (s : State) : Host.Outcome State Fault Refusal := done s s.tplLoadPage

/-- STATUS (R471). -/
def execStatus (s : State) : Host.Outcome State Fault Refusal := done s s.tplStatus

/-- RECORDS (R472). -/
def execRecords (s : State) : Host.Outcome State Fault Refusal := done s s.tplRecords

/-- ATTEST (R475). -/
def execAttest (s : State) : Host.Outcome State Fault Refusal := done s s.tplAttest

/-- CHALLENGE (R476). -/
def execChallenge (s : State) : Host.Outcome State Fault Refusal := done s s.tplChallenge

/-- OPEN (R477). -/
def execOpenSession (s : State) : Host.Outcome State Fault Refusal := done s s.tplOpen

/-- CLOSE (R479). -/
def execCloseSession (s : State) : Host.Outcome State Fault Refusal := done s s.tplClose

/-- POWER (R509). -/
def execPower (s : State) : Host.Outcome State Fault Refusal := done s s.tplPower

/-- RESET (R481). -/
def execResetDevice (s : State) : Host.Outcome State Fault Refusal := done s s.tplReset

/-- CHALLENGE_EXPIRY (R476). -/
def execChallengeExpiry (s : State) : Host.Outcome State Fault Refusal := done s s.chalExpiry

/-- LOCKOUT_END (R476). -/
def execLockoutEnd (s : State) : Host.Outcome State Fault Refusal := done s s.lockoutEnd

/-- SESSION_IDLE_TIMEOUT (R479). -/
def execSessionIdleTimeout (s : State) : Host.Outcome State Fault Refusal := done s s.sessionIdle

/-- REGISTER_WRITE (R14). -/
def execRegisterWrite (a : BitVec 40) (v : Word) (s : State) : Host.Outcome State Fault Refusal :=
  done s ((s.hostWrite a.toNat v.toNat).2)

end Sys2Proof.Machine
end

