-- ==== Sys2Proof/Machine/CmdMemory.lean ====
section
/-! DEFINITION. The commands of the DRAM and its arbiters (chapter 16): each is one call of the operation that its rule describes. -/
namespace Sys2Proof.Machine

/-- PORT_GRANT (R426). -/
def execPortGrant (port : Nat) (asks : List PortAsk) (s : State) : Host.Outcome State Fault Refusal :=
  act (Instr.wf (.portGrant port asks)) s (s.portGrant port asks)

/-- DRAM_ACCESS (R415). -/
def execDramAccess (ch : Nat) (e : EccIn) (s : State) : Host.Outcome State Fault Refusal :=
  act (Instr.wf (.dramAccess ch e)) s (s.dramAccess ch e)

/-- REFRESH (R415). -/
def execRefresh (ch : Nat) (s : State) : Host.Outcome State Fault Refusal := act (Instr.wf (.refresh ch)) s (s.refresh ch)

/-- PATROL_SCRUB_READ (R418). -/
def execPatrolScrubRead (ch : Nat) (e : EccIn) (s : State) : Host.Outcome State Fault Refusal :=
  act (Instr.wf (.patrolScrubRead ch e)) s (s.scrubRead ch e)

/-- SCRUB_WRITEBACK (R418). -/
def execScrubWriteback (ch : Nat) (s : State) : Host.Outcome State Fault Refusal :=
  act (Instr.wf (.scrubWriteback ch)) s (s.scrubWriteback ch)

/-- DRAM_ROW_MAP_OUT (R419). -/
def execDramRowMapOut (s : State) : Host.Outcome State Fault Refusal := done s s.dramMapOut

end Sys2Proof.Machine
end

