-- ==== Sys2Proof/Machine/CmdPanel.lean ====
section
/-! DEFINITION. The commands of the panel link (chapter 15): each is one call of the operation that its rule describes. -/
namespace Sys2Proof.Machine

/-- DATA_STRIPE_SEND (R397). -/
def execDataStripeSend (t : Nat) (s : State) : Host.Outcome State Fault Refusal := done s (s.stripe t)

/-- TRAINING_START (R404). -/
def execTrainingStart (s : State) : Host.Outcome State Fault Refusal := done s s.trainingStart

/-- PANEL_LINK_RUNNING (R404). -/
def execPanelLinkRunning (s : State) : Host.Outcome State Fault Refusal := done s s.linkRunning

/-- TRAINING_TIMEOUT (R404). -/
def execTrainingTimeout (s : State) : Host.Outcome State Fault Refusal := done s s.trainingTimeout

/-- PANEL_RDY_LOW (R405). -/
def execPanelRdyLow (s : State) : Host.Outcome State Fault Refusal := done s s.rdyLow

/-- PANEL_RETRAIN (R405). -/
def execPanelRetrain (s : State) : Host.Outcome State Fault Refusal := done s ((s.hostWrite 0x40004 (s.word 0x40004 + 2)).2)

/-- PANEL_EN_SET (R407). -/
def execPanelEnSet (s : State) : Host.Outcome State Fault Refusal := done s ((s.hostWrite 0x40004 1).2)

/-- PANEL_EN_CLEAR (R407). -/
def execPanelEnClear (s : State) : Host.Outcome State Fault Refusal := done s ((s.hostWrite 0x40004 0).2)

/-- SAFE_SEQUENCE_END (R407). -/
def execSafeSequenceEnd (s : State) : Host.Outcome State Fault Refusal := done s s.safeEnd

end Sys2Proof.Machine
end

