-- ==== Sys2Proof/Machine/CmdPower.lean ====
section
/-! DEFINITION. The commands of power states, supplies and weathering (chapter 20): each is one call of the operation that its rule describes. -/
namespace Sys2Proof.Machine

/-- BAND_POWER_UP_DONE (R511). -/
def execBandPowerUpDone (s : State) : Host.Outcome State Fault Refusal := done s s.bandsUp

/-- DOLDRUMS_ENTRY_COMPLETE (R512). -/
def execDoldrumsEntryComplete (s : State) : Host.Outcome State Fault Refusal := done s s.doldrumsEntered

/-- DOLDRUMS_EXIT_COMPLETE (R512). -/
def execDoldrumsExitComplete (s : State) : Host.Outcome State Fault Refusal := done s (State.boundaryStatus s s.doldrumsExited)

/-- SUPPLY_WARNING (R515). -/
def execSupplyWarning (supply v12 vcore : Nat) (s : State) : Host.Outcome State Fault Refusal :=
  act (Instr.wf (.supplyWarning supply v12 vcore)) s (s.supplyWarning supply v12 vcore)

/-- SUPPLY_RECOVERY (R515). -/
def execSupplyRecovery (v12 vcore : Nat) (s : State) : Host.Outcome State Fault Refusal :=
  act (Instr.wf (.supplyRecovery v12 vcore)) s (s.supplyRecovery v12 vcore)

/-- HOLDOFF_EXPIRY (R515). -/
def execHoldoffExpiry (s : State) : Host.Outcome State Fault Refusal := done s s.holdoffEnd

/-- SUPPLY_RESET (R516). -/
def execSupplyReset (supply v12 vcore : Nat) (s : State) : Host.Outcome State Fault Refusal :=
  act (Instr.wf (.supplyReset supply v12 vcore)) s (s.supplyReset supply v12 vcore)

/-- WEATHERING_MEASUREMENT (R521). -/
def execWeatheringMeasurement (ms : List Meas) (s : State) : Host.Outcome State Fault Refusal :=
  act (Instr.wf (.weatheringMeasurement ms)) s (s.weatherMeasure ms)

/-- RESTORE_REQUEST (R529). -/
def execRestoreRequest (p : BitVec 7) (s : State) : Host.Outcome State Fault Refusal :=
  act (Instr.wf (.restoreRequest p)) s ((s.hostWrite 0x90088 (p.toNat + 128)).2)

end Sys2Proof.Machine
end

