-- ==== Sys2Proof/Machine/CmdProgram.lean ====
section
/-! DEFINITION. The commands of frame clauses, schedules and model sets (chapter 10), re-timing and detection (chapter 11): each is one call of the operation that its rule describes. -/
namespace Sys2Proof.Machine

/-- OPEN_FRAME_CLAUSE_WINDOW (R161). -/
def execOpenFrameClauseWindow (i : Nat) (s : State) : Host.Outcome State Fault Refusal := done s (s.openWindow i)

/-- CLOSE_FRAME_CLAUSE_WINDOW (R161). -/
def execCloseFrameClauseWindow (i : Nat) (s : State) : Host.Outcome State Fault Refusal := done s (s.closeWindowF i)

/-- OPEN_MODEL_SET_WINDOW (R301). -/
def execOpenModelSetWindow (i : Nat) (bad : List Nat) (s : State) : Host.Outcome State Fault Refusal :=
  act (Instr.wf (.openModelSetWindow i bad)) s (s.openMsetStep i bad)

/-- MODEL_SET_WINDOW_CLOSE (R300). -/
def execModelSetWindowClose (s : State) : Host.Outcome State Fault Refusal := done s s.closeMset

/-- MODE_REQUEST (R293). -/
def execModeRequest (v : Word) (s : State) : Host.Outcome State Fault Refusal := done s ((s.hostWrite 0x10040 v.toNat).2)

/-- SCHEDULE_CHANGE (R294). -/
def execScheduleChange (s : State) : Host.Outcome State Fault Refusal := done s s.scheduleChangeStep

/-- WARP_ROW_WRITE (R317). -/
def execWarpRowWrite (b : Nat) (s : State) : Host.Outcome State Fault Refusal :=
  act (Instr.wf (.warpRowWrite b)) s (s.warpRowWrite b)

/-- BOX_UNIT_RUN (R323). -/
def execBoxUnitRun (latency : Nat) (s : State) : Host.Outcome State Fault Refusal := done s (s.boxRun latency)

/-- BOX_UNIT_COMPLETE (R326). -/
def execBoxUnitComplete (s : State) : Host.Outcome State Fault Refusal := done s s.boxComplete

end Sys2Proof.Machine
end

