-- ==== Sys2Proof/Machine/CmdRaster.lean ====
section
/-! DEFINITION. The commands of the raster and the picture's output (chapters 02, 13, 14): each is one call of the operation that its rule describes. -/
namespace Sys2Proof.Machine

/-- LINE_START (R43). -/
def execLineStart (s : State) : Host.Outcome State Fault Refusal := done s s.lineStart

/-- FRAME_BOUNDARY (R42). -/
def execFrameBoundary (s : State) : Host.Outcome State Fault Refusal := done s (State.boundaryStatus s s.frameBoundary)

/-- SYNC_IN_EDGE (R51). -/
def execSyncInEdge (s : State) : Host.Outcome State Fault Refusal := done s s.pinEdge

/-- START_LINE_CLAUSE (R60). -/
def execStartLineClause (i : Nat) (owed : List (Nat × List Owed)) (s : State) : Host.Outcome State Fault Refusal :=
  act (Instr.wf (.startLineClause i owed)) s (s.startSlot i owed)

/-- FALLBACK_SEGMENT_COMPLETE (R104). -/
def execFallbackSegmentComplete (f y : Nat) (l : EccAt) (s : State) : Host.Outcome State Fault Refusal :=
  act (Instr.wf (.fallbackSegmentComplete f y l)) s (s.fbComplete f y l.unit l.ecc)

/-- LINE_DEADLINE (R63). -/
def execLineDeadline (i : Nat) (owed : List (Nat × List Owed)) (s : State) : Host.Outcome State Fault Refusal :=
  act (Instr.wf (.lineDeadline i owed)) s (s.lineDeadline i owed)

/-- GRAPHICS_FETCH (R380). -/
def execGraphicsFetch (i : Nat) (s : State) : Host.Outcome State Fault Refusal := done s (s.graphicsFetch i)

/-- COMPOSE_LINE (R378). -/
def execComposeLine (i : Nat) (late : List (Nat × Nat)) (s : State) : Host.Outcome State Fault Refusal :=
  done s (s.composed i late)

/-- CAPTURE_LINE (R389). -/
def execCaptureLine (i : Nat) (s : State) : Host.Outcome State Fault Refusal := done s (s.captureLine i)

/-- CAPTURE_WRITE (R388). -/
def execCaptureWrite (s : State) : Host.Outcome State Fault Refusal := done s s.captureWrite

/-- GRAIN_TEMPLATES_DONE (R360). -/
def execGrainTemplatesDone (s : State) : Host.Outcome State Fault Refusal := done s s.templatesDone

/-- FROST_LINE (R358). -/
def execFrostLine (f y : Nat) (s : State) : Host.Outcome State Fault Refusal := done s (s.frost1 f y)

end Sys2Proof.Machine
end

