-- ==== Sys2Proof/Machine/CmdSensor.lean ====
section
/-! DEFINITION. The commands of the sensors (chapter 13): each is one call of the operation that its rule describes. -/
namespace Sys2Proof.Machine

/-- I3C_ADDRESS_ASSIGNMENT (R365). -/
def execI3cAddressAssignment (s : State) : Host.Outcome State Fault Refusal := done s s.assignAddresses

/-- SENSOR_READ (R367). -/
def execSensorRead (i : Nat) (r : I3cResult) (s : State) : Host.Outcome State Fault Refusal :=
  act (Instr.wf (.sensorRead i r)) s (s.sensorRead i r)

/-- INTERNAL_SAMPLE (R368). -/
def execInternalSample (temps : List Int) (v12 i12 vcore : Nat) (s : State) : Host.Outcome State Fault Refusal :=
  act (Instr.wf (.internalSample temps v12 i12 vcore)) s (s.internalSample temps v12 i12 vcore)

end Sys2Proof.Machine
end

