-- ==== Sys2Proof/Machine/CmdStream.lean ====
section
/-! DEFINITION. The commands of streams and synchronisation (chapter 08): each is one call of the operation that its rule describes. -/
namespace Sys2Proof.Machine

/-- START_DESCRIPTOR_LIST (R233). -/
def execStartDescriptorList (i : Nat) (s : State) : Host.Outcome State Fault Refusal := done s (s.almanacLists i)

/-- PENDING_LIST_START (R252). -/
def execPendingListStart (g : EngId) (s : State) : Host.Outcome State Fault Refusal :=
  act (Instr.wf (.pendingListStart g)) s (s.startPending g)

/-- CLAUSE_DRAINED (R246). -/
def execClauseDrained (p t : Nat) (d : DrainIn) (s : State) : Host.Outcome State Fault Refusal :=
  act (Instr.wf (.clauseDrained p t d)) s (s.clauseDrained p t d.sems d.lists)

/-- SEMAPHORE_WAIT (R243). -/
def execSemaphoreWait (p t line i : Nat) (s : State) : Host.Outcome State Fault Refusal :=
  act (Instr.wf (.semaphoreWait p t line i)) s (s.threadWait p t line i)

/-- SEMAPHORE_SIGNAL_ARRIVAL (R243). -/
def execSemaphoreSignalArrival (g : SigIn) (s : State) : Host.Outcome State Fault Refusal :=
  act (Instr.wf (.semaphoreSignalArrival g)) s (s.signalIn g)

/-- AWAIT_TILE (R240). -/
def execAwaitTile (p t line e : Nat) (s : State) : Host.Outcome State Fault Refusal :=
  act (Instr.wf (.awaitTile p t line e)) s (s.awaitTile p t line e)

/-- CONSUME_TILE (R240). -/
def execConsumeTile (p t line e : Nat) (s : State) : Host.Outcome State Fault Refusal :=
  act (Instr.wf (.consumeTile p t line e)) s (s.consumeTile p t line e)

/-- THREAD_STREAM_START (R233). -/
def execThreadStreamStart (p t line list : Nat) (s : State) : Host.Outcome State Fault Refusal :=
  act (Instr.wf (.threadStreamStart p t line list)) s (s.streamStart p t line list)

/-- DESCRIPTOR_BURST_READ (R238). -/
def execDescriptorBurstRead (g : EngId) (w : CoreIn) (s : State) : Host.Outcome State Fault Refusal :=
  act (Instr.wf (.descriptorBurstRead g w)) s (s.burstRead g w)

/-- TRANSFER_ISSUE (R238). -/
def execTransferIssue (g : EngId) (s : State) : Host.Outcome State Fault Refusal :=
  act (Instr.wf (.transferIssue g)) s (s.issueXfer g)

/-- TRANSFER_COMPLETE (R238). -/
def execTransferComplete (g : EngId) (n : Nat) (w : CoreIn) (s : State) : Host.Outcome State Fault Refusal :=
  act (Instr.wf (.transferComplete g n w)) s (s.xferComplete g n w)

/-- HALT_RETRY_TIMER (R250). -/
def execHaltRetryTimer (g : EngId) (s : State) : Host.Outcome State Fault Refusal :=
  act (Instr.wf (.haltRetryTimer g)) s (s.retryTimer g)

/-- ENGINE_RETRY (R250). -/
def execEngineRetry (g : EngId) (s : State) : Host.Outcome State Fault Refusal :=
  act (Instr.wf (.engineRetry g)) s ((s.hostWrite g.regs 1).2)

/-- ENGINE_ABORT (R251). -/
def execEngineAbort (g : EngId) (s : State) : Host.Outcome State Fault Refusal :=
  act (Instr.wf (.engineAbort g)) s ((s.hostWrite g.regs 2).2)

end Sys2Proof.Machine
end

