-- ==== Sys2Proof/Machine/Dispatch.lean ====
section
/-! DEFINITION. One arm per command: the direct call of its meaning. -/
namespace Sys2Proof.Machine

/-- A command's effect on everything but the queue. -/
def exec (i : Instr) (s : State) : Host.Outcome State Fault Refusal :=
  match i with
  | .lineStart => Sys2Proof.Machine.execLineStart s
  | .frameBoundary => Sys2Proof.Machine.execFrameBoundary s
  | .syncInEdge => Sys2Proof.Machine.execSyncInEdge s
  | .startDescriptorList k => Sys2Proof.Machine.execStartDescriptorList k s
  | .pendingListStart g => Sys2Proof.Machine.execPendingListStart g s
  | .startLineClause k owed => Sys2Proof.Machine.execStartLineClause k owed s
  | .fallbackSegmentComplete f y l => Sys2Proof.Machine.execFallbackSegmentComplete f y l s
  | .lineDeadline k owed => Sys2Proof.Machine.execLineDeadline k owed s
  | .openFrameClauseWindow k => Sys2Proof.Machine.execOpenFrameClauseWindow k s
  | .closeFrameClauseWindow k => Sys2Proof.Machine.execCloseFrameClauseWindow k s
  | .graphicsFetch k => Sys2Proof.Machine.execGraphicsFetch k s
  | .composeLine k late => Sys2Proof.Machine.execComposeLine k late s
  | .captureLine k => Sys2Proof.Machine.execCaptureLine k s
  | .captureWrite => Sys2Proof.Machine.execCaptureWrite s
  | .openModelSetWindow k bad => Sys2Proof.Machine.execOpenModelSetWindow k bad s
  | .portCfgWrite n v => Sys2Proof.Machine.execPortCfgWrite n v s
  | .hpdPulseEnd n => Sys2Proof.Machine.execHpdPulseEnd n s
  | .dpLinkTraining n rate lanes ok => Sys2Proof.Machine.execDpLinkTraining n rate lanes ok s
  | .ppsReceived n pps => Sys2Proof.Machine.execPpsReceived n pps s
  | .sdpReceived n sdp => Sys2Proof.Machine.execSdpReceived n sdp s
  | .hdcpAuthentication n ok => Sys2Proof.Machine.execHdcpAuthentication n ok s
  | .signalLost n c => Sys2Proof.Machine.execSignalLost n c s
  | .inputFrameStart n a => Sys2Proof.Machine.execInputFrameStart n a s
  | .inputLine n y l causes => Sys2Proof.Machine.execInputLine n y l causes s
  | .stage10LineWrite => Sys2Proof.Machine.execStage10LineWrite s
  | .blankPathFrame => Sys2Proof.Machine.execBlankPathFrame s
  | .issueStep p t o w => Sys2Proof.Machine.execIssueStep p t o w s
  | .correctionStallEnd p => Sys2Proof.Machine.execCorrectionStallEnd p s
  | .tileLoad p t prn e w => Sys2Proof.Machine.execTileLoad p t prn e w s
  | .tileLoadComplete p e => Sys2Proof.Machine.execTileLoadComplete p e s
  | .weightFileRewrite p => Sys2Proof.Machine.execWeightFileRewrite p s
  | .prefixLayer p t layer line oy w => Sys2Proof.Machine.execPrefixLayer p t layer line oy w s
  | .suffixLayer p t layer line oy w => Sys2Proof.Machine.execSuffixLayer p t layer line oy w s
  | .suffixRowWrite p => Sys2Proof.Machine.execSuffixRowWrite p s
  | .binEffChange p => Sys2Proof.Machine.execBinEffChange p s
  | .clauseDrained p t d => Sys2Proof.Machine.execClauseDrained p t d s
  | .semaphoreWait p t line k => Sys2Proof.Machine.execSemaphoreWait p t line k s
  | .semaphoreSignalArrival g => Sys2Proof.Machine.execSemaphoreSignalArrival g s
  | .awaitTile p t line e => Sys2Proof.Machine.execAwaitTile p t line e s
  | .consumeTile p t line e => Sys2Proof.Machine.execConsumeTile p t line e s
  | .threadStreamStart p t line list => Sys2Proof.Machine.execThreadStreamStart p t line list s
  | .backgroundAccess p a n write busy e => Sys2Proof.Machine.execBackgroundAccess p a n write busy e s
  | .scratchpadMapOut p => Sys2Proof.Machine.execScratchpadMapOut p s
  | .descriptorBurstRead g w => Sys2Proof.Machine.execDescriptorBurstRead g w s
  | .transferIssue g => Sys2Proof.Machine.execTransferIssue g s
  | .transferComplete g n w => Sys2Proof.Machine.execTransferComplete g n w s
  | .lineStoreSlotWrite p t line n y => Sys2Proof.Machine.execLineStoreSlotWrite p t line n y s
  | .haltRetryTimer g => Sys2Proof.Machine.execHaltRetryTimer g s
  | .engineRetry g => Sys2Proof.Machine.execEngineRetry g s
  | .engineAbort g => Sys2Proof.Machine.execEngineAbort g s
  | .multicastAccepted => Sys2Proof.Machine.execMulticastAccepted s
  | .remoteTransferArrival n => Sys2Proof.Machine.execRemoteTransferArrival n s
  | .barrierArrive p t line g => Sys2Proof.Machine.execBarrierArrive p t line g s
  | .barrierComplete g => Sys2Proof.Machine.execBarrierComplete g s
  | .snapshotArm bands spad ls => Sys2Proof.Machine.execSnapshotArm bands spad ls s
  | .snapshotCancel => Sys2Proof.Machine.execSnapshotCancel s
  | .snapshotCopyStart => Sys2Proof.Machine.execSnapshotCopyStart s
  | .snapshotCopyComplete => Sys2Proof.Machine.execSnapshotCopyComplete s
  | .handoverStart b => Sys2Proof.Machine.execHandoverStart b s
  | .deviceReset low => Sys2Proof.Machine.execDeviceReset low s
  | .dramTrainingComplete ok => Sys2Proof.Machine.execDramTrainingComplete ok s
  | .modeRequest v => Sys2Proof.Machine.execModeRequest v s
  | .scheduleChange => Sys2Proof.Machine.execScheduleChange s
  | .warpRowWrite b => Sys2Proof.Machine.execWarpRowWrite b s
  | .boxUnitRun latency => Sys2Proof.Machine.execBoxUnitRun latency s
  | .boxUnitComplete => Sys2Proof.Machine.execBoxUnitComplete s
  | .cropGrab => Sys2Proof.Machine.execCropGrab s
  | .drizzleStepStart => Sys2Proof.Machine.execDrizzleStepStart s
  | .augmentSample l => Sys2Proof.Machine.execAugmentSample l s
  | .gradientOperation p k w => Sys2Proof.Machine.execGradientOperation p k w s
  | .drizzleClauseEnd p sems => Sys2Proof.Machine.execDrizzleClauseEnd p sems s
  | .drizzleUpdateComplete latency => Sys2Proof.Machine.execDrizzleUpdateComplete latency s
  | .commitPageGeneration latency => Sys2Proof.Machine.execCommitPageGeneration latency s
  | .commitReady => Sys2Proof.Machine.execCommitReady s
  | .drizzleEnable => Sys2Proof.Machine.execDrizzleEnable s
  | .drizzleDisable => Sys2Proof.Machine.execDrizzleDisable s
  | .drizzleReset => Sys2Proof.Machine.execDrizzleReset s
  | .histogramClear p u => Sys2Proof.Machine.execHistogramClear p u s
  | .grainTemplatesDone => Sys2Proof.Machine.execGrainTemplatesDone s
  | .frostLine f y => Sys2Proof.Machine.execFrostLine f y s
  | .i3cAddressAssignment => Sys2Proof.Machine.execI3cAddressAssignment s
  | .sensorRead k r => Sys2Proof.Machine.execSensorRead k r s
  | .internalSample temps v12 i12 vcore => Sys2Proof.Machine.execInternalSample temps v12 i12 vcore s
  | .dataStripeSend t => Sys2Proof.Machine.execDataStripeSend t s
  | .trainingStart => Sys2Proof.Machine.execTrainingStart s
  | .panelLinkRunning => Sys2Proof.Machine.execPanelLinkRunning s
  | .trainingTimeout => Sys2Proof.Machine.execTrainingTimeout s
  | .panelRdyLow => Sys2Proof.Machine.execPanelRdyLow s
  | .panelRetrain => Sys2Proof.Machine.execPanelRetrain s
  | .panelEnSet => Sys2Proof.Machine.execPanelEnSet s
  | .panelEnClear => Sys2Proof.Machine.execPanelEnClear s
  | .safeSequenceEnd => Sys2Proof.Machine.execSafeSequenceEnd s
  | .portGrant port asks => Sys2Proof.Machine.execPortGrant port asks s
  | .dramAccess ch e => Sys2Proof.Machine.execDramAccess ch e s
  | .refresh ch => Sys2Proof.Machine.execRefresh ch s
  | .patrolScrubRead ch e => Sys2Proof.Machine.execPatrolScrubRead ch e s
  | .scrubWriteback ch => Sys2Proof.Machine.execScrubWriteback ch s
  | .dramRowMapOut => Sys2Proof.Machine.execDramRowMapOut s
  | .frameRecordWrite => Sys2Proof.Machine.execFrameRecordWrite s
  | .logEntryWrite => Sys2Proof.Machine.execLogEntryWrite s
  | .replayGo => Sys2Proof.Machine.execReplayGo s
  | .replayWriteApply => Sys2Proof.Machine.execReplayWriteApply s
  | .replayEnd => Sys2Proof.Machine.execReplayEnd s
  | .phyLinkUp master => Sys2Proof.Machine.execPhyLinkUp master s
  | .ethernetFrameRx f fcs => Sys2Proof.Machine.execEthernetFrameRx f fcs s
  | .ident => Sys2Proof.Machine.execIdent s
  | .readReg => Sys2Proof.Machine.execReadReg s
  | .writeReg => Sys2Proof.Machine.execWriteReg s
  | .readMem => Sys2Proof.Machine.execReadMem s
  | .writeMem => Sys2Proof.Machine.execWriteMem s
  | .loadPage => Sys2Proof.Machine.execLoadPage s
  | .status => Sys2Proof.Machine.execStatus s
  | .records => Sys2Proof.Machine.execRecords s
  | .attest => Sys2Proof.Machine.execAttest s
  | .challenge => Sys2Proof.Machine.execChallenge s
  | .openSession => Sys2Proof.Machine.execOpenSession s
  | .closeSession => Sys2Proof.Machine.execCloseSession s
  | .power => Sys2Proof.Machine.execPower s
  | .resetDevice => Sys2Proof.Machine.execResetDevice s
  | .challengeExpiry => Sys2Proof.Machine.execChallengeExpiry s
  | .lockoutEnd => Sys2Proof.Machine.execLockoutEnd s
  | .sessionIdleTimeout => Sys2Proof.Machine.execSessionIdleTimeout s
  | .registerWrite a v => Sys2Proof.Machine.execRegisterWrite a v s
  | .pwrGoodRise => Sys2Proof.Machine.execPwrGoodRise s
  | .bootStageComplete k => Sys2Proof.Machine.execBootStageComplete k s
  | .bootComplete => Sys2Proof.Machine.execBootComplete s
  | .ledgerAppend => Sys2Proof.Machine.execLedgerAppend s
  | .bandPowerUpDone => Sys2Proof.Machine.execBandPowerUpDone s
  | .doldrumsExitComplete => Sys2Proof.Machine.execDoldrumsExitComplete s
  | .supplyWarning supply v12 vcore => Sys2Proof.Machine.execSupplyWarning supply v12 vcore s
  | .supplyRecovery v12 vcore => Sys2Proof.Machine.execSupplyRecovery v12 vcore s
  | .holdoffExpiry => Sys2Proof.Machine.execHoldoffExpiry s
  | .supplyReset supply v12 vcore => Sys2Proof.Machine.execSupplyReset supply v12 vcore s
  | .weatheringMeasurement ms => Sys2Proof.Machine.execWeatheringMeasurement ms s
  | .restoreRequest p => Sys2Proof.Machine.execRestoreRequest p s
  | .removeNFall => Sys2Proof.Machine.execRemoveNFall s
  | .inputSwitchClose => Sys2Proof.Machine.execInputSwitchClose s
  | .inputSwitchOpen => Sys2Proof.Machine.execInputSwitchOpen s
  | .phyLinkDown restart => Sys2Proof.Machine.execPhyLinkDown restart s
  | .modelSetWindowClose => Sys2Proof.Machine.execModelSetWindowClose s
  | .doldrumsEntryComplete => Sys2Proof.Machine.execDoldrumsEntryComplete s
  | .auxTransaction n r => Sys2Proof.Machine.execAuxTransaction n r s
  | .lineStoreMapOut b => Sys2Proof.Machine.execLineStoreMapOut b s

end Sys2Proof.Machine
end

