-- ==== Sys2Proof/Machine/Tick.lean ====
section
/-! DEFINITION. What a fabric cycle without a command does (log entry 4). -/
namespace Sys2Proof.Machine

/-- One fabric cycle passes (R5, R43, R247, R368); the queue stays as it is. -/
def State.tick (s : State) : State := { s.advance 1 with pending := s.pending }

end Sys2Proof.Machine
end

