-- ==== Sys2Proof/Safety.lean ====
section
/-! DEFINITION. The terms in which statements about the block are made: what a command completes with, what it leaves as
it was, and what a safe run is. -/
namespace Sys2Proof.Machine

/-- The fields of the state, by name; `stat`, in which every command notes the status word of its cycle (R557), is not among them. -/
inductive Part where
  | pending | free | now | cal | regs | latch | dram | dramBad | drm | cores | bands | prog | almanac | sched
  | noBase1 | change | firstLines | bucket | pstate | msetSample | mwinEnd | fc | fab | remotes | signals | inp
  | hist | arrived | avail | tau | rtFirst | rtJ0 | ctx | ctxNext | warp | box | drz | frost | sns | cmp | pnl
  | fbSegs | fbStarted | sel | fbNow | fbNext | pwr | seq | boot | aud | led | tpl | tds
  deriving DecidableEq, Repr

/-- A field is the same in two states. -/
abbrev Part.same (p : Part) (t s : State) : Prop :=
  match p with
  | .pending => t.pending = s.pending
  | .free => t.free = s.free
  | .now => t.now = s.now
  | .cal => t.cal = s.cal
  | .regs => t.regs = s.regs
  | .latch => t.latch = s.latch
  | .dram => t.dram = s.dram
  | .dramBad => t.dramBad = s.dramBad
  | .drm => t.drm = s.drm
  | .cores => t.cores = s.cores
  | .bands => t.bands = s.bands
  | .prog => t.prog = s.prog
  | .almanac => t.almanac = s.almanac
  | .sched => t.sched = s.sched
  | .noBase1 => t.noBase1 = s.noBase1
  | .change => t.change = s.change
  | .firstLines => t.firstLines = s.firstLines
  | .bucket => t.bucket = s.bucket
  | .pstate => t.pstate = s.pstate
  | .msetSample => t.msetSample = s.msetSample
  | .mwinEnd => t.mwinEnd = s.mwinEnd
  | .fc => t.fc = s.fc
  | .fab => t.fab = s.fab
  | .remotes => t.remotes = s.remotes
  | .signals => t.signals = s.signals
  | .inp => t.inp = s.inp
  | .hist => t.hist = s.hist
  | .arrived => t.arrived = s.arrived
  | .avail => t.avail = s.avail
  | .tau => t.tau = s.tau
  | .rtFirst => t.rtFirst = s.rtFirst
  | .rtJ0 => t.rtJ0 = s.rtJ0
  | .ctx => t.ctx = s.ctx
  | .ctxNext => t.ctxNext = s.ctxNext
  | .warp => t.warp = s.warp
  | .box => t.box = s.box
  | .drz => t.drz = s.drz
  | .frost => t.frost = s.frost
  | .sns => t.sns = s.sns
  | .cmp => t.cmp = s.cmp
  | .pnl => t.pnl = s.pnl
  | .fbSegs => t.fbSegs = s.fbSegs
  | .fbStarted => t.fbStarted = s.fbStarted
  | .sel => t.sel = s.sel
  | .fbNow => t.fbNow = s.fbNow
  | .fbNext => t.fbNext = s.fbNext
  | .pwr => t.pwr = s.pwr
  | .seq => t.seq = s.seq
  | .boot => t.boot = s.boot
  | .aud => t.aud = s.aud
  | .led => t.led = s.led
  | .tpl => t.tpl = s.tpl
  | .tds => t.tds = s.tds

/-- `t` is the same as `s` in every field but those listed: what a command can change, and that it changes nothing else. -/
def SameBut (t s : State) (ps : List Part) : Prop := ∀ p, p ∉ ps → p.same t s

/-- Whatever state command `c` runs in, it changes at most the fields listed. -/
def ChangesAtMost (c : Instr) (ps : List Part) : Prop := ∀ s t, exec c s = .next t → SameBut t s ps

/-- DRAM is in its canonical form: addresses strictly rising, no listed byte zero. -/
def MemoryCanonical (s : State) : Prop := Memory.wf s.dram = true

/-- Command `c` run in state `s` answers a next state, of which `Q` holds. -/
def Completes (c : Instr) (s : State) (Q : State → Prop) : Prop := ∃ t, exec c s = .next t ∧ Q t

/-- Every register field holds in `t` what it holds in `s`, but those that `ok` names. -/
def SameFields (t s : State) (ok : Fld → Prop) : Prop := ∀ f, ¬ ok f → t.getF f = s.getF f

/-- Whatever state command `c` runs in, the register fields that `ok` does not name hold afterwards what they held. -/
def WritesAtMost (c : Instr) (ok : Fld → Prop) : Prop := ∀ s t, exec c s = .next t → SameFields t s ok

/-- A field is one of those listed. -/
def Among (fs : List Fld) (f : Fld) : Prop := f.key ∈ fs.map Fld.key

/-- The stall counters of core `p`, which count while its threads wait (R247, R278). -/
def stallFields (p : Nat) : List Fld :=
  [F.CORE_STALL_FULL_STALL_FULL p, F.CORE_STALL_EMPTY_STALL_EMPTY p, F.CORE_STALL_HALT_STALL_HALT p, F.CORE_STALL_IN_STALL_IN p,
   F.CORE_STALL_DATA_STALL_DATA p, F.CORE_STALL_SLOT_STALL_SLOT p, F.CORE_STALL_SUFFIX_STALL_SUFFIX p, F.CORE_BARRIER_BARRIER_WAIT p]

/-- The ECC counts of the words that core `p`'s landing outputs are merged into, in its scratchpad and its band's line
store (R206, R207, R221). -/
def mergeFields (p : Nat) : List Fld :=
  [F.CORE_SPAD_ECC_CORRECTED p, F.CORE_SPAD_ECC_UNCORR p, F.CORE_SPAD_LAST_BANK p, F.CORE_SPAD_LAST_ROW p, F.CORE_SPAD_LAST_UNC p,
   F.BAND_LS_ECC_CORRECTED (bandOf p), F.BAND_LS_ECC_UNCORR (bandOf p)]

/-- What passing time may change of the registers: the cores' stall counters, and the ECC counts of outputs that land. -/
def WithTime (f : Fld) : Prop := ∃ p, Among (stallFields p ++ mergeFields p) f

/-- A field that passing time may change, or one of those listed: what a command that waits may change. -/
def WithTimeOr (fs : List Fld) (f : Fld) : Prop := WithTime f ∨ Among fs f

/-- Almanac entry `i` has fired between `s` and `t`: at its phase on the current line, or at once where the phase has
passed (R49, log entry 4). -/
def Fired (s t : State) (i : Nat) : Prop :=
  t.cal.fired = i :: s.cal.fired ∧ t.cal.line = s.cal.line ∧ t.now = max s.now (s.cycleOfPhase (s.entry i).phase)

/-- The commands waiting name only what exists. -/
def QueueWellFormed (s : State) : Prop := s.pending.all Instr.wf = true

/-- `n` steps one after another, each a next state; none where one of them stops. -/
def runs : Nat → State → Option State
  | 0, s => some s
  | n + 1, s => match step s with
    | .next t => runs n t
    | _ => none

end Sys2Proof.Machine
end

