-- ==== Sys2Proof/Certificates/Slice0/Obligations.lean ====
section
/-! DEFINITION. The statements about the block, each from numbered rules of the spec. -/
open Sys2Proof Sys2Proof.Machine

namespace Sys2Proof

/-- What a start slot gives logical core `l` at S(y) (R60): a core that takes part starts line `y` of the slot's clause, and a
stopped one only settles what it owes. -/
def startOn (f y cl ph : Nat) (owed : List (Nat × List Owed)) (s : State) (l : Nat) : State :=
  if s.active (s.phys l) = false then s
  else if s.stoppedCore (s.phys l) = true then s.settle (s.phys l) (((owed.find? fun o => o.1 == s.phys l).map (·.2)).getD [])
  else s.startLine (s.phys l) cl f y ph (((owed.find? fun o => o.1 == s.phys l).map (·.2)).getD [])

/-- What a capture entry takes of an output line: with ARG 0 the composed line, with ARG 1 the line as Frost releases it
(R389). -/
def capturedPixels (u : State) (arg f y : Nat) : Option (List Pix) :=
  if arg = 0 then (u.cmp.lines.find? fun q => q.frame == f && q.y == y).map (·.px)
  else (u.sel.find? fun q => q.frame == f && q.y == y).bind (·.grain)

/-- The fields of INP_PORT_CFG. -/
def portCfg (n : Nat) : List Fld :=
  [F.INP_PORT_CFG_EN n, F.INP_PORT_CFG_MAX_RATE n, F.INP_PORT_CFG_MAX_LANES n, F.INP_PORT_CFG_DSC_EN n, F.INP_PORT_CFG_HDCP_EN n]

/-- The conditions under which R82 leaves a port its signal. -/
def portClear (p : PortSt) : Prop := p.hpd = true ∧ p.lossLock = false ∧ p.lossPps = false ∧ p.lossHdcp = false

/-- A frame of size `b` starts on port `n` with every condition of R82 clear: it has a size, and an encrypted one is of an
authenticated source. -/
def frameClear (s : State) (n : Nat) (b : SrcAttr) (p : PortSt) : Prop :=
  isPort n = true ∧ s.inp.ports[n]? = some p ∧ portClear p ∧ b.w ≠ 0 ∧ b.h ≠ 0 ∧
    (b.encrypted = true → s.getF (F.INP_PORT_STATUS_AUTH n) = 1)

/-- The state in which a step that does not begin its run computes: the array is free, the thread runs the step's line, and a
step of the next frame's line has fixed the adaptation bank (R146). -/
def stepState (s : State) (p t l : Nat) (o : StepOp) : State :=
  (((s.awaitUnit p t .array).rotate p t).runOn p t o.line).fixBank p t o.line (s.sched.layer l o.layer).adapt

/-- Core `p`, as logical core `l`, may issue the step: its thread is granted the array, the output line has its slot, and the
step is the next of the run begun. -/
def stepIssues (s : State) (p t l : Nat) (o : StepOp) (w : CoreIn) (d : LayerDesc) (m : MapRec) : Prop :=
  s.logical p = some l ∧ d = s.sched.layer l o.layer ∧ m = s.sched.mapRec l d ∧ d.engine = 0 ∧ o.first = false ∧
    s.mayIssue p t o.line = true ∧ s.grantsThread p t w.rivals = true ∧
    (s.awaitUnit p t .array).outBlocked p d ((outLineOf d m o.oy).getD 0)
      (stepLast d m o.ty o.tx o.ci && (outLineOf d m o.oy).isSome) = none ∧
    stepNext (stepCounts d m ((s.awaitUnit p t .array).runExtent p d m).2.toNat) (s.isLineThread p t)
      (runAt ((s.awaitUnit p t .array).core p) t o.layer) o = true ∧
    (o.oy : Int) < ((s.awaitUnit p t .array).runExtent p d m).1

/-- A layer of core `p`, as logical core `l`, may issue its output line `oy`: its thread is granted the engine. -/
def layerIssues (s : State) (p t l layer line : Nat) (w : CoreIn) (d : LayerDesc) (m : MapRec) : Prop :=
  s.logical p = some l ∧ d = s.sched.layer l layer ∧ m = s.sched.mapRec l d ∧ s.mayIssue p t line = true ∧
    s.grantsThread p t w.rivals = true

/-- The core cycles that a background access at `a` has waited since it was last looked at. -/
def bgWaited (s : State) (p a : Nat) : Nat :=
  coreCycles (s.clock p) ((((s.core p).bg.find? fun x => x.1 == a).map (·.2)).getD s.now) s.now

/-- Engine g is one of its core's or band's engines. -/
def engineHere (s : State) (g : EngId) : Prop :=
  match g with
  | .core p e => e < (s.core p).eng.length
  | .band b e => e < (s.band b).eng.length

/-- Entry `i`'s reads are made: the addresses have been assigned since `t0`, the entry names a target, and its next read is the first
in the order of R367. -/
def readsNext (s : State) (i t0 : Nat) : Prop :=
  i < 8 ∧ s.sns.assigned = some t0 ∧ s.sensorKind i ≠ 0 ∧ s.sensorPeriod i ≠ 0 ∧ s.getF F.SNS_CFG_EN ≠ 0 ∧ s.readsFirst t0 i = true

/-- Training has begun (R404, R405): time 0 is the end of the block time in progress, whose successor is a TRAIN stripe with SEQ 0. -/
def TrainingBegins (s t : State) : Prop :=
  t.getF F.PNL_STATUS_STATE = 1 ∧ 100 * t.now ≤ t.blockStart t.pnl.trainBlock ∧
    t.pnl.trainAt = ceilDiv (t.blockStart t.pnl.trainBlock) 100 ∧ t.pnl.block = t.pnl.trainBlock + 1 ∧
    ∃ l, t.pnl.sent = l ++ [{ s.trainStripe 0 with at_ := t.pnl.trainBlock }]

/-- The state in which a taken request is handled: an accepted AUTH request is noted in its session (R478, R479). -/
def noted (s : State) : Option Accepted → State
  | none => s
  | some a => s.noteAccepted a

/-- Request `r` is at the front, asks for operation `op`, and passes the tests of R466 up to the operation's own rules: without
AUTH where the operation is not privileged (R480), or as an accepted AUTH request `au` (R478). -/
def served (s : State) (op : Nat) (r : Req) (rest : List Req) (au : Option Accepted) : Prop :=
  s.tpl.rx = r :: rest ∧ s.tpl.waiting = false ∧ r.op = op ∧ s.notServed r = none ∧
    (r.auth = false ∧ au = none ∧ (opPrivileged op = false ∨ op = 0x19 ∧ s.getF F.DEV_BOOT_FAILED = 1) ∨
      r.auth = true ∧ ∃ a, s.authCheck r = .accepted a ∧ au = some a)

/-- The frame that carries a message to a request's sender (R462). -/
def carries (s : State) (r : Req) (m : List Byte) : List Byte :=
  ipv6Frame r.mac s.mac (linkLocal s.mac) r.ip 17 (udpReply s.mac r.ip r.port m)

/-- The first frame that goes out between `s` and `t`, while the link is up, is the response to `r`: exactly one, before any
later request's (R464). -/
def answers (s t : State) (r : Req) (au : Option Accepted) (status : Nat) (payload : List Byte) : Prop :=
  ∃ more, t.tpl.sent = s.tpl.sent ++ (if s.linkUp = true then [carries s r (response r au status payload)] else []) ++ more

/-- The counters that answering may raise (R482). -/
def replyCounts : List Fld := [F.TPL_RX_REQUESTS, F.TPL_ERR_MALFORMED, F.TPL_ERR_DENIED]

/-- The port's access `a` is granted in state `t`: it joins its channel's queue and the grant parks on its requester. -/
def granted (s t : State) (port : Nat) (a : PortAsk) : Prop :=
  (t.arb port).parked = some a.q ∧ (t.chan (dramChan a.off)).queue = (s.chan (dramChan a.off)).queue ++
    [{ off := a.off, len := a.len, write := a.cls == 1, port := port, q := a.q, host := a.host }]

end Sys2Proof

/-! ### Steps and the queue -/

/-- A step takes the command at the front of the queue and runs it on the machine with the queue's rest. -/
def Obligations.StepRunsTheFrontCommand : Prop :=
  ∀ (c : Instr) (rest : List Instr) (s : State), step { s with pending := c :: rest } = exec c { s with pending := rest }

/-- With an empty queue one fabric cycle passes (the model's choice, log entry 4): the calendar's accumulator grows by 1.0
(R43), threads that wait count, and nothing else changes. -/
def Obligations.EmptyQueuePassesOneCycle : Prop :=
  ∀ s : State, s.pending = [] → ∃ t, step s = .next t ∧ t.pending = [] ∧ t.now = s.now + 1 ∧
    t.cal = (if s.cal.running then { s.cal with acc := s.cal.acc + 65536 } else s.cal) ∧
    SameBut t s [.now, .cal, .regs, .cores, .bands] ∧ SameFields t s WithTime

/-- A queue of n commands runs in n steps, front first, and no command is ever turned away (log entry 1). Commands that name
only what exists leave only such commands waiting. -/
def Obligations.QueueRunsInOrderAndStaysWellFormed : Prop :=
  (∀ (n : Nat) (s : State), n ≤ s.pending.length → ∃ t, runs n s = some t ∧ t.pending = s.pending.drop n) ∧
  (∀ s t : State, QueueWellFormed s → step s = .next t → QueueWellFormed t)

/-- DRAM keeps its canonical form in every step, whatever the command. -/
def Obligations.MemoryStaysCanonical : Prop :=
  ∀ s t : State, MemoryCanonical s → step s = .next t → MemoryCanonical t

/-- Reset leaves DRAM with nothing listed, the queue empty and every register field at its reset value. -/
def Obligations.ResetState : Prop :=
  MemoryCanonical State.reset ∧ QueueWellFormed State.reset ∧ State.reset.pending = [] ∧ State.reset.now = 0 ∧
    ∀ f : Fld, State.reset.getF f = f.rst

/-- What a container gives the device changes only where a boot stage installs it or the device loses it: the programs at a
boot stage, a device reset and the loss of the input; the almanac and the schedule besides at a change of schedule and at the
exit from Doldrums. -/
def Obligations.ProgramsChangeOnlyAtBoot : Prop :=
  ∀ (c : Instr) (s t : State), exec c s = .next t →
    (t.prog ≠ s.prog → (∃ i, c = .bootStageComplete i) ∨ (∃ b, c = .deviceReset b) ∨ c = .inputSwitchOpen) ∧
    (t.almanac ≠ s.almanac ∨ t.sched ≠ s.sched → (∃ i, c = .bootStageComplete i) ∨ (∃ b, c = .deviceReset b) ∨
      c = .inputSwitchOpen ∨ c = .scheduleChange ∨ c = .doldrumsExitComplete)

/-! ### The raster -/

/-- R43: the line start waits for the accumulator to reach LP, takes LP from it and moves to the next line. R42: after V_TOTAL
lines the frame number increments, wrapping from 0xFFFF_FFFF to 0, and line 0 begins. -/
def Obligations.RasterAdvancesByLinesAndFrames : Prop :=
  (∀ s : State, s.cal.running = true → s.lp ≠ 0 → s.atBoundary = false →
    Completes .lineStart s fun t =>
      t.now = max s.now (s.cycleOfAcc s.lp) ∧ t.cal.line = s.cal.line + 1 ∧ t.cal.frame = s.cal.frame ∧
      t.cal.acc + s.lp = s.cal.acc + 65536 * (t.now - s.now) ∧ t.cal.fired = []) ∧
  (∀ (s : State) (v : Nat), s.cal.running = true → s.lp ≠ 0 → s.cal.vTot = some v → v ≤ s.cal.line + 1 →
    Completes .frameBoundary s fun t =>
      t.now = max s.now (s.cycleOfAcc s.lp) ∧ t.cal.frame = (s.cal.frame + 1) % 2 ^ 32 ∧ t.cal.line = 0 ∧
      t.cal.vTot = none ∧ t.cal.fired = [] ∧ t.fbNext = 0)

/-- R51: an edge of SYNC_IN is timestamped in its cycle and kept; in an open window the first edge is the boundary's measured
pulse and closes it. A replay takes the edge that its log recorded (R455). -/
def Obligations.SyncEdgesAreKeptOrMeasured : Prop :=
  (∀ s : State, s.aud.replay = false → s.cal.winOpen = false →
    Completes .syncInEdge s fun t => t.cal = { s.cal with edges := s.cal.edges ++ [s.now] } ∧ t.now = s.now) ∧
  (∀ s : State, s.aud.replay = false → s.cal.winOpen = true → s.cal.winFrom ≤ s.now →
    s.now < lineCycle s.cal.t0 s.cal.acc0 s.lp s.cal.winEnd → (∀ x ∈ s.cal.edges, x < s.cal.winFrom) →
    Completes .syncInEdge s fun t => t.cal.lastPulse = some s.now ∧ t.cal.winOpen = false ∧ t.cal.edges = s.cal.edges ∧
      t.cal.noPulse = 0 ∧ t.cal.line = s.cal.line ∧ t.cal.frame = s.cal.frame) ∧
  (∀ (s : State) (e : ReplayEnt), s.aud.replay = true → s.cal.winOpen = false →
    s.aud.replayLog.find? (fun e => e.type == 2) = some e →
    Completes .syncInEdge s fun t => t.now = max s.now (s.replayCycle e.time) ∧
      t.cal.edges = s.cal.edges ++ [s.replayCycle e.time])

/-- R60: at S(y) the fallback of the line starts where the slot's clause is the one displayed, and the slot is offered to every
logical core in turn; a core on which the clause is not waiting to restart adds the line to those in flight. R104: a
fallback segment whose input rows are present completes 600 fabric cycles after the later of S(y) and the arrival of its
last row, with the filtered pixels of those rows. R63: at D(y) the selector releases the line, each segment from the first
complete source: the core's own segment, unless its clause is barred from the line, else the fallback segment that is
complete, else a repeat of the line before. The line's fallback is forgotten; of the lines that the composer has taken at
most four are kept (the model's choice, log entry 86). -/
def Obligations.LinesAreStartedAndReleased : Prop :=
  (∀ (s : State) (i : Nat) (owed : List (Nat × List Owed)), owed.all owedOk = true → s.due i 1 = true →
    Completes (.startLineClause i owed) s fun t => Fired s t i ∧
      t.fbStarted = s.fbStarted ++ (if s.displayed (s.actsFor i).2 = some (s.entry i).arg
        then [((s.actsFor i).1, (s.actsFor i).2, t.now)] else []) ∧
      t.cores = (({ s.fire i with fbStarted := t.fbStarted } : State).each s.nCores
        (startOn (s.actsFor i).1 (s.actsFor i).2 (s.entry i).arg (s.entry i).phase owed)).cores) ∧
  (∀ (s : State) (p cl f y ph : Nat) (owed : List Owed),
    ((s.core p).reentry.any fun r => r.clause == cl && r.waiting && !r.drained) = false →
    ((s.startLine p cl f y ph owed).core p).lines = (s.core p).lines ++
      [{ clause := cl, frame := f, y := y, sAt := s.now, sPhase := 4096 * s.cal.line + ph, sFrame := s.cal.frame }]) ∧
  (∀ (s : State) (f y l t0 : Nat) (e : EccIn) (b : Bool), isLogical l = true → l < s.nCores →
    (s.fbStarted.find? fun x => x.1 == f && x.2.1 == y) = some (f, y, t0) →
    (s.bprn (l / 8) s.sched.rt.warpPrn).place = 2 →
    ((s.fbRows f (s.bprn (l / 8) s.sched.rt.warpPrn) y).all fun k => s.lsPresent (l / 8) (s.bprn (l / 8) s.sched.rt.warpPrn) k) = true →
    (s.fbSegs.any fun x => x.frame == f && x.y == y && x.seg == l) = false →
    Completes (.fallbackSegmentComplete f y ⟨l, e, b⟩) s fun t =>
      ∃ d, d = (s.fbRows f (s.bprn (l / 8) s.sched.rt.warpPrn) y).foldl
          (fun m k => max m (s.slot (l / 8) ((s.bprn (l / 8) s.sched.rt.warpPrn).slotAddr k)).at_) t0 + 600 ∧
        t.now = max s.now d ∧
        t.fbSegs = s.fbSegs ++ [⟨f, y, l, d, s.fbPixels f y l
          ((s.fbWords f y l).filter fun w => e.ue.contains w || SMap.get 0 (s.band (l / 8)).bad w != 0)⟩]) ∧
  (∀ (s : State) (i : Nat) (owed : List (Nat × List Owed)), owed.all owedOk = true → s.due i 2 = true →
    Completes (.lineDeadline i owed) s fun t => Fired s t i ∧
      ∃ l rest, t.sel = l :: rest ∧ l.frame = (s.actsFor i).1 ∧ l.y = (s.actsFor i).2 ∧ l.at_ = t.now ∧
        l.src = (List.range (s.fire i).nCores).map (fun k => ((s.fire i).segSource (s.entry i).arg l.frame l.y k).1) ∧
        (∀ x ∈ rest, x ∈ s.sel) ∧ (∀ x ∈ s.sel, x.composed = false → x ∈ rest) ∧ (rest.filter (·.composed)).length ≤ 4 ∧
        (∀ x ∈ t.fbSegs, ¬ (x.frame = l.frame ∧ x.y = l.y)) ∧ (∀ x ∈ t.fbStarted, ¬ (x.1 = l.frame ∧ x.2.1 = l.y))) ∧
  (∀ (s : State) (cl f y l : Nat), (s.segSource cl f y l).1 =
    if s.active (s.phys l) = true ∧ s.barred (s.phys l) f y = [] ∧
      ((s.core (s.phys l)).seg.any fun r => r.clause == cl && r.frame == f && r.y == y) = true then 1
    else if (s.fbAt f y l).isSome = true then 2 else 3)

/-! ### Composition, Frost and capture -/

/-- R380: an entry of kind 5 with ARG 0 fetches a line of both planes, and of the safe image of each region whose area is
substituted there, into line buffers that hold two lines; a reserved ARG fires without effect. R378, R380: an entry of kind
5 with ARG 1 composes the released line, the line buffers keeping the last four lines; R444: the line's CRC joins those of
its frame (at the last line the frame's record takes them); a reserved ARG fires without effect. R358: Frost delivers the
first pixel of a released line 8 fabric cycles after D(y), with its grain, and changes no other line; R360: when the
templates of the next frame are complete, the next frame has them where any channel takes grain, and none is in the making. -/
def Obligations.GraphicsGrainAndCompositionFollow : Prop :=
  (∀ (s u : State) (i : Nat), s.due i 5 = true → (s.entry i).arg = 0 → u = (s.fire i).applyPoint (s.actsFor i).1 →
    Completes (.graphicsFetch i) s fun t => Fired s t i ∧
      t.cmp.fetched = ⟨(s.actsFor i).1, (s.actsFor i).2,
        [u.fetchPlane 0 (u.modeOf (s.actsFor i).1).w (s.actsFor i).2,
          u.fetchPlane 1 (u.modeOf (s.actsFor i).1).w (s.actsFor i).2],
        ((List.range 16).map fun g => (g, u.fetchSafe g (s.actsFor i).2)).filter fun e => e.2 != []⟩ ::
        u.cmp.fetched.take 1) ∧
  (∀ (s : State) (i : Nat), s.due i 5 = true → 2 ≤ (s.entry i).arg →
    Completes (.graphicsFetch i) s fun t => Fired s t i ∧ SameBut t s [.now, .cal, .regs, .cores, .bands] ∧ SameFields t s WithTime) ∧
  (∀ (s : State) (i : Nat) (late : List (Nat × Nat)), s.due i 5 = true → (s.entry i).arg = 1 →
    (s.sel.any fun l => l.frame == (s.actsFor i).1 && l.y == (s.actsFor i).2) = true →
    Completes (.composeLine i late) s fun t => t.cal.fired = i :: s.cal.fired ∧ t.cal.line = s.cal.line ∧
      max s.now (s.cycleOfPhase (s.entry i).phase) ≤ t.now ∧
      (∃ c rest, t.cmp.lines = c :: rest ∧ c.frame = (s.actsFor i).1 ∧ c.y = (s.actsFor i).2 ∧ rest.length ≤ 3 ∧
        ((s.actsFor i).2 + 1 ≠ (s.modeOf (s.actsFor i).1).vActive →
          t.aud.crcs = SMap.set [] s.aud.crcs c.frame (SMap.get [] s.aud.crcs c.frame ++ [crc64 (lineBytes c.px)]))) ∧
      ∀ x ∈ t.sel, x.frame = (s.actsFor i).1 → x.y = (s.actsFor i).2 → x.composed = true) ∧
  (∀ (s : State) (i : Nat) (late : List (Nat × Nat)), s.due i 5 = true → 2 ≤ (s.entry i).arg →
    Completes (.composeLine i late) s fun t => Fired s t i ∧ SameBut t s [.now, .cal, .regs, .cores, .bands] ∧ SameFields t s WithTime) ∧
  (∀ (s : State) (f y : Nat) (l : SelLine), (s.sel.find? fun l => l.frame == f && l.y == y) = some l → l.grain = none →
    Completes (.frostLine f y) s fun t => t.now = max s.now (l.at_ + 8) ∧
      t.sel = s.sel.map (fun x => if x.frame = f ∧ x.y = y then
        { x with grain := some (frostLine (s.grainOf f y) y l.px) } else x) ∧
      SameBut t s [.now, .cal, .regs, .cores, .bands, .frost, .sel] ∧ SameFields t s WithTime) ∧
  (∀ (s : State) (t0 : Nat), s.frost.gen = some t0 → Completes .grainTemplatesDone s fun t =>
    t.frost.gen = none ∧ t.frost.cur = s.frost.cur ∧ t.frost.next.params = s.frost.next.params ∧
      (s.frost.next.chan ≠ 0 → t.frost.next.tpl.isSome = true) ∧ SameBut t s [.frost]) ∧
  (∀ s : State, s.frost.gen = none → Completes .grainTemplatesDone s fun t => SameBut t s [])

/-- R389: at its slot a line of a frame that is captured enters the capture queue of two lines; when the queue is full the frame
is incomplete from that line on and CAP_INCOMPLETE increments. R390: a frame whose capture is blocked counts in CAP_BLOCKED
and leaves the queue. An entry of a frame that is not captured, or with a reserved ARG, fires without effect on the queue.
R388: a queued line is written at its place in the frame's buffer, in the pitch and format that the frame's apply point
took. -/
def Obligations.CaptureQueuesAndWritesLines : Prop :=
  (∀ (s u : State) (i : Nat) (r : CapRun) (px : List Pix), s.due i 6 = true → (s.entry i).arg ≤ 1 →
    u = (s.fire i).applyPoint (s.actsFor i).1 →
    u.cmp.cap.en = true → u.cmp.cap.bad = false → (s.actsFor i).1 % u.cmp.cap.div = 0 →
    (u.cmp.runs.find? fun q => q.frame == (s.actsFor i).1) = some r → r.blocked = false → r.ended = false → r.missing = none →
    u.capBlocked (s.actsFor i).1 = false →
    capturedPixels u (s.entry i).arg (s.actsFor i).1 (s.actsFor i).2 = some px → u.cmp.queue.length < 2 →
    Completes (.captureLine i) s fun t => Fired s t i ∧
      t.cmp.queue = u.cmp.queue ++ [((s.actsFor i).1, (s.actsFor i).2, px)] ∧ t.dram = s.dram) ∧
  (∀ (s u : State) (i : Nat) (r : CapRun) (px : List Pix), s.due i 6 = true → (s.entry i).arg ≤ 1 →
    u = (s.fire i).applyPoint (s.actsFor i).1 →
    u.cmp.cap.en = true → u.cmp.cap.bad = false → (s.actsFor i).1 % u.cmp.cap.div = 0 →
    (u.cmp.runs.find? fun q => q.frame == (s.actsFor i).1) = some r → r.blocked = false → r.ended = false → r.missing = none →
    u.capBlocked (s.actsFor i).1 = false →
    capturedPixels u (s.entry i).arg (s.actsFor i).1 (s.actsFor i).2 = some px → 2 ≤ u.cmp.queue.length →
    (u.cmp.queue.any fun e => e.1 == (s.actsFor i).1) = true →
    Completes (.captureLine i) s fun t => Fired s t i ∧ t.cmp.queue = u.cmp.queue ∧ t.dram = s.dram ∧
      t.cmp.runs = u.cmp.runs.map (fun x => if x.frame = r.frame then { r with missing := some (s.actsFor i).2 } else x) ∧
      t.getF F.CMP_CAP_CNT_CAP_INCOMPLETE = satAdd 16 (u.getF F.CMP_CAP_CNT_CAP_INCOMPLETE) 1) ∧
  (∀ (s u : State) (i : Nat) (r : CapRun), s.due i 6 = true → (s.entry i).arg ≤ 1 →
    u = (s.fire i).applyPoint (s.actsFor i).1 →
    u.cmp.cap.en = true → u.cmp.cap.bad = false → (s.actsFor i).1 % u.cmp.cap.div = 0 →
    (u.cmp.runs.find? fun q => q.frame == (s.actsFor i).1) = some r → r.blocked = false → r.ended = false → r.missing = none →
    u.capBlocked (s.actsFor i).1 = true →
    Completes (.captureLine i) s fun t => Fired s t i ∧ t.cmp.queue = u.cmp.queue.filter (fun e => e.1 != (s.actsFor i).1) ∧
      t.getF F.CMP_CAP_CNT_CAP_BLOCKED = satAdd 16 (u.getF F.CMP_CAP_CNT_CAP_BLOCKED) 1) ∧
  (∀ (s u : State) (i : Nat), s.due i 6 = true → (s.entry i).arg ≤ 1 → u = (s.fire i).applyPoint (s.actsFor i).1 →
    u.cmp.cap.en = false ∨ u.cmp.cap.bad = true ∨ (s.actsFor i).1 % u.cmp.cap.div ≠ 0 →
    Completes (.captureLine i) s fun t => Fired s t i ∧ t.cmp = u.cmp ∧ t.dram = s.dram) ∧
  (∀ (s : State) (i : Nat), s.due i 6 = true → 2 ≤ (s.entry i).arg →
    Completes (.captureLine i) s fun t => Fired s t i ∧ SameBut t s [.now, .cal, .regs, .cores, .bands] ∧ SameFields t s WithTime) ∧
  (∀ (s : State) (f y : Nat) (px : List Pix) (rest : List (Nat × Nat × List Pix)) (r : CapRun),
    s.cmp.queue = (f, y, px) :: rest → (s.cmp.runs.find? fun q => q.frame == f) = some r → r.begun = true → r.missing = none →
    y + 1 ≠ (s.modeOf f).vActive →
    Completes .captureWrite s fun t => t.cmp.queue = rest ∧
      t.dram = (s.writeMem 3 0 (r.use.base - dramBase + r.buf * r.use.pitch + y * capPitch r.use.fmt px.length)
        (px.flatMap (capPix r.use.fmt))).dram ∧
      SameBut t s [.cmp, .dram, .dramBad])

/-! ### Input ports -/

/-- R74: a write that changes a port's fields in INP_PORT_CFG takes its HPD low, for 100 ms where the port is enabled, and then
HPD goes high; R82: HPD low clears SIGNAL. R72: link training that succeeds within the port's limits reports its rate and
lanes; training that fails clears SIGNAL (R82). R74: IRQ_HPD pulses where the sink status changes while HPD is high. R72:
the port answers native AUX and I2C-over-AUX transactions from its DPCD and its EDID while HPD is high, and not at all while
it is low (the register contents of the DPCD are the model's, log entry 8). -/
def Obligations.PortsAreConfiguredTrainedAndAnswered : Prop :=
  (∀ (s : State) (n : Nat) (v : Word) (p : PortSt), isPort n = true → s.inp.ports[n]? = some p → s.replaying = false →
    s.getF F.DEV_BOOT_COMPLETE = 1 → (∃ f ∈ portCfg n, s.getF f ≠ bits v.toNat f.lo f.w) →
    Completes (.portCfgWrite n v) s fun t => (∀ f ∈ portCfg n, t.getF f = bits v.toNat f.lo f.w) ∧
      t.getF (F.INP_PORT_STATUS_SIGNAL n) = 0 ∧ t.now = s.now ∧
      ∃ q, t.inp.ports[n]? = some q ∧ q.hpd = false ∧
        q.hpdRise = (if bits v.toNat 0 1 = 1 then some (s.now + msCycles 100) else none)) ∧
  (∀ (s : State) (n due : Nat) (p : PortSt), isPort n = true → s.inp.ports[n]? = some p → p.hpdRise = some due →
    Completes (.hpdPulseEnd n) s fun t => t.now = max s.now due ∧
      t.inp = { s.inp with ports := s.inp.ports.set n { p with hpd := true, hpdRise := none } } ∧
      SameBut t s [.now, .cal, .regs, .cores, .bands, .inp] ∧ SameFields t s WithTime) ∧
  (∀ (s : State) (n rate lanes : Nat) (p : PortSt), isPort n = true → s.inp.ports[n]? = some p → p.hpd = true →
    rate ≤ s.getF (F.INP_PORT_CFG_MAX_RATE n) → rate < 4 → lanes ≤ min 2 (s.getF (F.INP_PORT_CFG_MAX_LANES n)) →
    Completes (.dpLinkTraining n rate lanes true) s fun t => t.getF (F.INP_PORT_STATUS_RATE n) = rate ∧
      t.getF (F.INP_PORT_STATUS_LANES n) = lanes ∧ SameBut t s [.regs, .inp] ∧
      ∃ q, t.inp.ports[n]? = some q ∧ q.lossLock = false) ∧
  (∀ (s : State) (n rate lanes : Nat) (p : PortSt), isPort n = true → s.inp.ports[n]? = some p → rate < 8 → lanes < 3 →
    Completes (.dpLinkTraining n rate lanes false) s fun t => t.getF (F.INP_PORT_STATUS_SIGNAL n) = 0 ∧
      SameBut t s [.regs, .inp] ∧ ∃ q, t.inp.ports[n]? = some q ∧ q.lossLock = true ∧
        q.irq = p.irq + if p.hpd = true ∧ s.sinkStatus n ≠ t.sinkStatus n then 1 else 0) ∧
  (∀ (s : State) (n : Nat) (r : AuxReq) (p : PortSt), isPort n = true → r.ok = true → s.inp.ports[n]? = some p → p.hpd = false →
    Completes (.auxTransaction n r) s fun t => SameBut t s [.inp] ∧
      t.inp = { s.inp with ports := s.inp.ports.set n { p with auxReply := [] } }) ∧
  (∀ (s : State) (n a k : Nat) (p : PortSt), isPort n = true → (AuxReq.nativeRead a k).ok = true → s.inp.ports[n]? = some p →
    p.hpd = true →
    Completes (.auxTransaction n (.nativeRead a k)) s fun t => SameBut t s [.inp] ∧
      t.inp = { s.inp with ports := s.inp.ports.set n { p with
        auxReply := 0 :: (List.range (min 16 k)).map fun i => BitVec.ofNat 8 (s.dpcdByte n (a + i)) } }) ∧
  (∀ (s : State) (n a : Nat) (d : List Byte) (p : PortSt), isPort n = true → (AuxReq.nativeWrite a d).ok = true →
    s.inp.ports[n]? = some p → p.hpd = true →
    Completes (.auxTransaction n (.nativeWrite a d)) s fun t => SameBut t s [.inp] ∧
      ∃ q, t.inp.ports[n]? = some q ∧ q.auxReply = [0] ∧
        (∀ i x, (d.take 16)[i]? = some x → SMap.get 0 q.dpcd (a + i) = x) ∧
        (∀ b, (b < a ∨ a + (d.take 16).length ≤ b) → SMap.get 0 q.dpcd b = SMap.get 0 p.dpcd b)) ∧
  (∀ (s : State) (n : Nat) (d : List Byte) (p : PortSt), isPort n = true → (AuxReq.i2cWrite d).ok = true →
    s.inp.ports[n]? = some p → p.hpd = true →
    Completes (.auxTransaction n (.i2cWrite d)) s fun t => SameBut t s [.inp] ∧
      t.inp = { s.inp with ports := s.inp.ports.set n { p with i2cAt := (d.headD 0).toNat, auxReply := [0] } }) ∧
  (∀ (s : State) (n k : Nat) (p : PortSt), isPort n = true → (AuxReq.i2cRead k).ok = true → s.inp.ports[n]? = some p →
    p.hpd = true →
    Completes (.auxTransaction n (.i2cRead k)) s fun t => SameBut t s [.inp] ∧
      t.inp = { s.inp with ports := s.inp.ports.set n { p with
        auxReply := 0 :: sliceB p.edid p.i2cAt (min 16 k), i2cAt := p.i2cAt + min 16 k } })

/-- R85: a PPS outside the limits is rejected with the lowest reason that applies, counted, and leaves the port without signal;
any other is accepted. R72: VSC and HDR metadata SDPs are decoded and reported; all other SDPs are discarded. -/
def Obligations.StreamDataIsAcceptedOrRejected : Prop :=
  (∀ (s : State) (n : Nat) (pps : Pps) (p : PortSt), isPort n = true → s.inp.ports[n]? = some p →
    ppsReason pps (s.inp.geo.mode == 2) (s.overRate n pps) = 0 →
    Completes (.ppsReceived n pps) s fun t => SameBut t s [.inp] ∧
      t.inp = { s.inp with ports := s.inp.ports.set n { p with pps := some pps, ppsOk := true, ppsRate := false, lossPps := false } }) ∧
  (∀ (s : State) (n r : Nat) (pps : Pps) (p : PortSt), isPort n = true → s.inp.ports[n]? = some p →
    ppsReason pps (s.inp.geo.mode == 2) (s.overRate n pps) = r → r ≠ 0 →
    Completes (.ppsReceived n pps) s fun t => t.getF (F.INP_PORT_STATUS_PPS_REASON n) = r ∧
      t.getF F.INP_PPS_REJECTS_REJECTS = satAdd 16 (s.getF F.INP_PPS_REJECTS_REJECTS) 1 ∧
      t.getF (F.INP_PORT_STATUS_SIGNAL n) = 0 ∧ SameBut t s [.regs, .inp] ∧
      ∃ q, t.inp.ports[n]? = some q ∧ q.ppsOk = false ∧ q.lossPps = true) ∧
  (∀ (s : State) (n enc col bpc : Nat) (p : PortSt), isPort n = true → s.inp.ports[n]? = some p →
    sdpOk (.vsc enc col bpc) = true →
    Completes (.sdpReceived n (.vsc enc col bpc)) s fun t => t.getF (F.INP_PORT_STATUS_ENC n) = enc ∧
      t.getF (F.INP_PORT_STATUS_BPC n) = bpc ∧ SameBut t s [.regs, .inp] ∧
      t.inp = { s.inp with ports := s.inp.ports.set n { p with colorimetry := col % 256 } }) ∧
  (∀ (s : State) (n : Nat) (data : List Byte) (p : PortSt), isPort n = true → s.inp.ports[n]? = some p →
    sdpOk (.hdr data) = true →
    Completes (.sdpReceived n (.hdr data)) s fun t => SameBut t s [.inp] ∧
      t.inp = { s.inp with ports := s.inp.ports.set n { p with hdr := true, hdrSdp := data } }) ∧
  (∀ (s : State) (n : Nat), isPort n = true → sdpOk .other = true → Completes (.sdpReceived n .other) s fun t => SameBut t s [])

/-- R88, R82: authentication succeeds where the port's receiver is enabled and the container gave it its key; its failure while
the stream is marked as encrypted clears SIGNAL. R82: a lane's lock lost for more than 2 µs, and no vertical blanking for
two frame periods (50 ms before one has been measured), clear SIGNAL; R74: IRQ_HPD pulses where the sink status changes
while HPD is high. -/
def Obligations.AuthenticationAndLossGovernSignal : Prop :=
  (∀ (s : State) (n : Nat) (p : PortSt), isPort n = true → s.inp.ports[n]? = some p → s.getF (F.INP_PORT_CFG_HDCP_EN n) = 1 →
    s.boot.hdcp ≠ [] →
    Completes (.hdcpAuthentication n true) s fun t => t.getF (F.INP_PORT_STATUS_AUTH n) = 1 ∧ SameBut t s [.regs, .inp] ∧
      ∃ q, t.inp.ports[n]? = some q ∧ q.lossHdcp = false) ∧
  (∀ (s : State) (n : Nat) (p : PortSt), isPort n = true → s.inp.ports[n]? = some p →
    s.getF (F.INP_PORT_STATUS_ENCRYPTED n) = 1 →
    Completes (.hdcpAuthentication n false) s fun t => t.getF (F.INP_PORT_STATUS_AUTH n) = 0 ∧
      t.getF (F.INP_PORT_STATUS_SIGNAL n) = 0 ∧ SameBut t s [.regs, .inp] ∧
      ∃ q, t.inp.ports[n]? = some q ∧ q.lossHdcp = true) ∧
  (∀ (s : State) (n : Nat) (ok : Bool), isPort n = true →
    ok = false ∨ s.getF (F.INP_PORT_CFG_HDCP_EN n) = 0 ∨ s.boot.hdcp = [] →
    Completes (.hdcpAuthentication n ok) s fun t => t.getF (F.INP_PORT_STATUS_AUTH n) = 0 ∧ SameBut t s [.regs, .inp]) ∧
  (∀ (s : State) (n : Nat) (p : PortSt), isPort n = true → s.inp.ports[n]? = some p →
    Completes (.signalLost n .lock) s fun t => t.now = s.now + usCycles 2 + 1 ∧ t.getF (F.INP_PORT_STATUS_SIGNAL n) = 0 ∧
      ∃ q, t.inp.ports[n]? = some q ∧ q.lossLock = true ∧
        q.irq = p.irq + if p.hpd = true ∧ s.sinkStatus n ≠ t.sinkStatus n then 1 else 0) ∧
  (∀ (s : State) (n t0 : Nat) (p : PortSt), isPort n = true → s.inp.ports[n]? = some p → p.lastStart = some t0 →
    Completes (.signalLost n .vblank) s fun t =>
      t.now = max s.now (t0 + if s.getF (F.INP_PORT_PERIOD_PERIOD n) = 0 then msCycles 50
        else 2 * s.getF (F.INP_PORT_PERIOD_PERIOD n)) ∧
      t.getF (F.INP_PORT_STATUS_SIGNAL n) = 0 ∧ ∃ q, t.inp.ports[n]? = some q ∧ q.lossVb = true)

/-- R77, R78, R82: a frame that starts on the selected port with signal is the frame received, its size that of the PPS where
DSC is active; without signal the port first proves one whole frame. R80: in MODE 2 the first half to start waits for the
other. R71, R80: a line of a port in use joins the frame being received, in MODE 2 together with the other half's line of
the same number; R79: a line of port 1 with GFX1 is the graphics plane's; a line of any other port only passes its port. -/
def Obligations.InputFramesStartAndLinesJoin : Prop :=
  (∀ (s : State) (n : Nat) (a b : SrcAttr) (p : PortSt), b = s.activeAttr n a → frameClear s n b p →
    (s.getF (F.INP_PORT_STATUS_SIGNAL n) = 1 ∨ (p.proving = true ∧ portArrived p (s.getF (F.INP_PORT_GEOM_SRC_H n)) = true)) →
    s.inp.geo.mode ≠ 2 → (geoPorts s.inp.geo).contains n = true →
    s.getF F.INP_APPLY_GO = 0 → s.seenF F.INP_APPLY_GO ≠ 1 →
    Completes (.inputFrameStart n a) s fun t =>
      t.inp.cur = some { w := b.w, h := b.h, enc := b.enc, bpc := b.bpc, encrypted := b.encrypted, miss := if a.dsc then 3 else 2 }) ∧
  (∀ (s : State) (n : Nat) (a b : SrcAttr) (p : PortSt), b = s.activeAttr n a → frameClear s n b p →
    s.getF (F.INP_PORT_STATUS_SIGNAL n) = 0 → p.proving = false →
    Completes (.inputFrameStart n a) s fun t => t.inp.cur = s.inp.cur ∧ t.getF (F.INP_PORT_STATUS_SIGNAL n) = 0 ∧
      t.getF (F.INP_PORT_GEOM_SRC_W n) = b.w % 2 ^ 16 ∧ t.getF (F.INP_PORT_GEOM_SRC_H n) = b.h % 2 ^ 16 ∧
      SameBut t s [.regs, .inp, .cmp] ∧
      ∃ q, t.inp.ports[n]? = some q ∧ q.proving = true ∧ q.nextY = 0 ∧ q.lastStart = some s.now) ∧
  (∀ (s : State) (n : Nat) (a b : SrcAttr) (p : PortSt), b = s.activeAttr n a → frameClear s n b p →
    s.getF (F.INP_PORT_STATUS_SIGNAL n) = 0 → p.proving = true →
    portArrived p (s.getF (F.INP_PORT_GEOM_SRC_H n)) = true → (geoPorts s.inp.geo).contains n = false →
    Completes (.inputFrameStart n a) s fun t => t.inp.cur = s.inp.cur ∧ t.getF (F.INP_PORT_STATUS_SIGNAL n) = 1 ∧
      SameBut t s [.regs, .inp, .cmp] ∧ ∃ q, t.inp.ports[n]? = some q ∧ q.proving = false) ∧
  (∀ (s : State) (n : Nat) (a b : SrcAttr) (p : PortSt), b = s.activeAttr n a → frameClear s n b p →
    s.getF (F.INP_PORT_STATUS_SIGNAL n) = 1 → s.inp.geo.mode = 2 → s.inp.pairStarted = [] →
    Completes (.inputFrameStart n a) s fun t => t.inp.pairStarted = [n] ∧ t.inp.cur = s.inp.cur ∧ SameBut t s [.regs, .inp, .cmp]) ∧
  (∀ (s : State) (n y : Nat) (l : SrcLine) (cs : List Nat) (c : SrcFrame), isPort n = true →
    s.getF (F.INP_PORT_STATUS_SIGNAL n) ≠ 0 → (geoPorts s.inp.geo).contains n = true →
    s.inp.geo.mode ≠ 2 → s.inp.cur = some c →
    Completes (.inputLine n y l cs) s fun t => SameBut t s [.inp] ∧
      t.inp.cur = some { c with rows := SMap.put c.rows y (s.portLine n y l cs).1,
                                ended := decide (c.h ≤ (SMap.put c.rows y (s.portLine n y l cs).1).length) }) ∧
  (∀ (s : State) (n y : Nat) (l : SrcLine) (cs : List Nat), isPort n = true →
    s.getF (F.INP_PORT_STATUS_SIGNAL n) = 0 ∨
      ((geoPorts s.inp.geo).contains n = false ∧ ¬ (s.inp.geo.mode = 0 ∧ s.inp.geo.gfx1 = true ∧ n = 1)) →
    Completes (.inputLine n y l cs) s fun t => SameBut t s [.inp] ∧ t.inp = { s.inp with ports := t.inp.ports }) ∧
  (∀ (s : State) (y : Nat) (l : SrcLine) (cs : List Nat),
    s.getF (F.INP_PORT_STATUS_SIGNAL 1) ≠ 0 → s.inp.geo.mode = 0 → s.inp.geo.gfx1 = true →
    Completes (.inputLine 1 y l cs) s fun t => t.inp = { s.inp with ports := t.inp.ports } ∧
      t.cmp = ((s.countLine 1 y (s.portLine 1 y l cs).2).gfxLine y (s.portLine 1 y l cs).1).cmp ∧
      t.dram = ((s.countLine 1 y (s.portLine 1 y l cs).2).gfxLine y (s.portLine 1 y l cs).1).dram) ∧
  (∀ (s : State) (y : Nat) (l : SrcLine) (cs : List Nat) (p0 p1 : PortSt) (c : SrcFrame) (o : InRow),
    s.inp.ports = [p0, p1] → s.getF (F.INP_PORT_STATUS_SIGNAL 0) ≠ 0 → s.inp.geo.mode = 2 → s.joins 0 = true → s.inp.cur = some c →
    p0.rows = [] → (p1.rows.find? fun e => e.1 == y) = some (y, o) →
    Completes (.inputLine 0 y l cs) s fun t => SameBut t s [.inp] ∧
      ∃ d, t.inp.cur = some d ∧ d.rows = SMap.put c.rows y
        ⟨lowestCause [(s.portLine 0 y l cs).1.cause, o.cause], (s.portLine 0 y l cs).1.px ++ o.px⟩)

/-- R101: a ready line is written once every line above it is: the frame's next line advances with its CRC, and the frame is
done with its last line. R83, R78: a blank-path frame that is due, with no change of the input waiting (R93), starts as the
next input frame: a held frame or a black one. -/
def Obligations.Stage10AndBlankPathSupplyFrames : Prop :=
  (∀ (s : State) (fr : InFrame), s.inp.fr = some fr → s.lineReady fr = true → fr.next + 1 ≠ fr.fit.hb →
    Completes .stage10LineWrite s fun t => t.inp.lastWritten = some fr.num ∧
      ∃ fr' c, t.inp.fr = some fr' ∧ fr'.num = fr.num ∧ fr'.next = fr.next + 1 ∧ fr'.crcs = fr.crcs ++ [c]) ∧
  (∀ (s : State) (fr : InFrame), s.inp.fr = some fr → s.lineReady fr = true → fr.next + 1 = fr.fit.hb →
    Completes .stage10LineWrite s fun t => t.inp.lastWritten = some fr.num ∧ t.inp.fr = none ∧
      ∃ d rest, t.inp.done = d :: rest ∧ d.num = fr.num ∧ d.crcs.length = fr.crcs.length + 1) ∧
  (∀ (s : State) (at_ : Nat), s.blankDue = some at_ → s.getF F.INP_APPLY_GO = 0 → s.seenF F.INP_APPLY_GO ≠ 1 →
    Completes .blankPathFrame s fun t => max s.now at_ ≤ t.now ∧ t.inp.blankActive = true ∧ t.inp.lastPort = none ∧
      t.inp.nextNum = (s.inp.nextNum + 1) % 2 ^ 32 ∧ t.getF F.INP_FRAME_FRAME = s.inp.nextNum % 2 ^ 32 ∧
      ∃ fr, t.inp.fr = some fr ∧ fr.num = s.inp.nextNum ∧ fr.next = 0 ∧ (fr.src = .blankHeld ∨ fr.src = .blankBlack))

/-! ### Cores -/

/-- R141, R178: a step that is the next of its run and meets no fault computes with the row it reads, and R142: adds its tile's
products to its own thread's accumulators, in no other thread's bank and in no other core. R160: a step whose thread is not
granted only counts as waiting. R165, R168: a step that meets faults adds nothing: the lowest of their codes is recorded
with the thread, the layer and the output frame that runs, and each fault counts. -/
def Obligations.StepsAccumulateOrFault : Prop :=
  (∀ (s u : State) (p t l : Nat) (o : StepOp) (w : CoreIn) (d : LayerDesc) (m : MapRec) (k : StepCtx)
      (f : State × List Nat × List Nat × Option (Nat × Nat × Nat)) (b : State × Bool), isCore p = true → isThread t = true →
    o.ok = true → coreInOk w = true → stepIssues s p t l o w d m → u = stepState s p t l o → k = u.stepCtx p t l o →
    f = u.stepChecks p k o w → f.2.1 = [] →
    b = (f.1.onCore p fun c => setRun c t o.layer
        (o.oy, (stepIndex (stepCounts d m ((s.awaitUnit p t .array).runExtent p d m).2.toNat) o).getD 0)).stepBody p t k o
      (f.1.readRow k.row p k.y k.x k.g).1 (f.1.readRow k.row p k.y k.x k.g).2
      (f.1.tileEscList p d m k.cb k.set.a k.set.t k.bank (stepEntry d m k.cb.big o.co o.ty o.tx o.ci)) w → b.2 = false →
    Completes (.issueStep p t o w) s fun x => SameBut x (s.stepParity b.1 p) []) ∧
  (∀ (s : State) (p t : Nat) (k : StepCtx) (o : StepOp) (row : QRow) (z : Bool) (esc : List EscEntry) (w : CoreIn),
    stepLast k.d k.m o.ty o.tx o.ci = false →
    (s.stepBody p t k o row z esc w).2 = false ∧
    SMap.get [] ((s.stepBody p t k o row z esc w).1.core p).acc t =
      (stepCompute (s.core p) k.cb k.d.q k.m k.entry (min 64 (k.d.outCh - 64 * o.co))
        (stepValues (SMap.get default (s.core p).cbs k.d.inCb) k.m o.co row).1 esc (SMap.get [] (s.core p).acc t)
        (SMap.get [] (s.core p).corr t)).1 ∧
    (∀ j, j ≠ t → SMap.get [] ((s.stepBody p t k o row z esc w).1.core p).acc j = SMap.get [] (s.core p).acc j) ∧
    (∀ q, q ≠ p → (s.stepBody p t k o row z esc w).1.core q = s.core q) ∧
    SameBut (s.stepBody p t k o row z esc w).1 s [.regs, .cores]) ∧
  (∀ (s : State) (p t l : Nat) (o : StepOp) (w : CoreIn), isCore p = true → isThread t = true → o.ok = true →
    coreInOk w = true → s.logical p = some l → s.mayIssue p t o.line = true → s.grantsThread p t w.rivals = false →
    Completes (.issueStep p t o w) s fun x => (x.core p).utilWait = (s.core p).utilWait + 1 ∧ SameBut x s [.regs, .cores] ∧
      SameFields x s (Among [F.CORE_THREAD_STATE p]) ∧ ∀ q, q ≠ p → x.core q = s.core q) ∧
  (∀ (s u : State) (p t l c : Nat) (cs : List Nat) (o : StepOp) (w : CoreIn) (d : LayerDesc) (m : MapRec) (k : StepCtx)
      (f : State × List Nat × List Nat × Option (Nat × Nat × Nat)), isCore p = true → isThread t = true →
    o.ok = true → coreInOk w = true → stepIssues s p t l o w d m → u = stepState s p t l o → k = u.stepCtx p t l o →
    f = u.stepChecks p k o w → f.2.1 = c :: cs →
    Completes (.issueStep p t o w) s fun x => SameBut x (s.stepParity
      (((f.2.2.1.foldl (fun s x => s.parityError p x) f.1).noteConflict p f.2.2.2 o.beside).coreFault p t d.layer o.line (c :: cs)
        w.owed) p) []) ∧
  (∀ (s : State) (p t layer line c : Nat) (cs : List Nat), isCore p = true →
    (s.coreFault p t layer line (c :: cs) []).getF (F.CORE_FAULT_CODE p) = cs.foldl min c % 2 ^ 4 ∧
    (s.coreFault p t layer line (c :: cs) []).getF (F.CORE_FAULT_THREAD p) = t % 4 ∧
    (s.coreFault p t layer line (c :: cs) []).getF (F.CORE_FAULT_LAYER p) = layer % 2 ^ 8 ∧
    (s.coreFault p t layer line (c :: cs) []).getF (F.CORE_FAULT_COUNT p) =
      satAdd 16 (s.getF (F.CORE_FAULT_COUNT p)) (cs.length + 1) % 2 ^ 16 ∧
    (s.coreFault p t layer line (c :: cs) []).getF (F.CORE_FAULT_AT_FRAME p) = s.cal.frame % 2 ^ 16)

/-- R147, R164: a tile load of a granted frame-class thread writes its entry from the page that it reads and holds the write
path for 64 core cycles, until when the entry is busy; R165: one that meets a fault loads nothing and records it. When the
load completes the entry is no longer busy. R208: a correction stall ends when it is due. R149: in vertical blanking, with
no line in flight, the first failing entry whose page reads without an error (log entry 89) is rewritten from its page in
DRAM and WF_SCRUBS increments. R162: BIN_EFF = min(3, BIN_PLAN + BIN_DIP); a change takes effect within 64 fabric cycles and
CHANGES increments. -/
def Obligations.WeightsLoadRewriteAndBinsChange : Prop :=
  (∀ (s u : State) (p t prn e : Nat) (w : CoreIn) (f : State × Bool), isCore p = true → isThread t = true → isPrn prn = true →
    isEntry e = true → coreInOk w = true → s.mayIssue p t s.cal.line = true → s.isLineThread p t = false →
    s.mset.classOf e = .frame → s.grantsThread p t w.rivals = true →
    u = ((((s.awaitUnit p t .weightPath).rotate p t).setWait p t .none).occupy p t .weightPath 64).inPipe p t 64 →
    besideConflict 4 (fun a => decide ((u.prn p prn).base ≤ a ∧ a < (u.prn p prn).base + 2048)) w.beside = none →
    f = u.foreReads p w.ecc ((List.range 64).map fun r => ((u.prn p prn).base + 32 * r, 32)) → w.store = false → f.2 = false →
    Completes (.tileLoad p t prn e w) s fun x => x.now = f.1.now ∧ (∀ q, q ≠ p → x.core q = f.1.core q) ∧
      SMap.get [] (x.core p).tiles e = pageCodes (foreBytes (f.1.core p) (u.prn p prn).base 2048) ∧
      (e, freeFrom (f.1.core p) .weightPath) ∈ (x.core p).loading ∧ e ∉ (x.core p).parity ∧ (x.core p).spad = (f.1.core p).spad) ∧
  (∀ (s u : State) (p t prn e c : Nat) (cs : List Nat) (w : CoreIn) (f : State × Bool) (k : Option (Nat × Nat × Nat)),
    isCore p = true → isThread t = true → isPrn prn = true →
    isEntry e = true → coreInOk w = true → s.mayIssue p t s.cal.line = true → s.isLineThread p t = false →
    s.mset.classOf e = .frame → s.grantsThread p t w.rivals = true →
    u = ((((s.awaitUnit p t .weightPath).rotate p t).setWait p t .none).occupy p t .weightPath 64).inPipe p t 64 →
    k = besideConflict 4 (fun a => decide ((u.prn p prn).base ≤ a ∧ a < (u.prn p prn).base + 2048)) w.beside →
    f = (if k.isSome then (u, false)
      else u.foreReads p w.ecc ((List.range 64).map fun r => ((u.prn p prn).base + 32 * r, 32))) →
    stepFaults false false false w.store k.isSome f.2 = c :: cs →
    Completes (.tileLoad p t prn e w) s fun x =>
      SameBut x ((f.1.noteConflict p k (besideOf w.beside)).coreFault p t w.layer s.cal.line (c :: cs) w.owed) []) ∧
  (∀ (s : State) (p t n : Nat) (un : CoreUnit),
    freeFrom ((s.occupy p t un n).core p) un = ceilDiv (startAt (s.core p) un (max s.now (s.core p).stallEnd) + coreTicks (s.clock p) n) ticks) ∧
  (∀ (s : State) (p e due : Nat), isCore p = true → isEntry e = true →
    ((s.core p).loading.find? fun x => x.1 == e) = some (e, due) →
    Completes (.tileLoadComplete p e) s fun t => t.now = max s.now due ∧ (∀ x ∈ (t.core p).loading, x.1 ≠ e) ∧
      SameFields t s WithTime) ∧
  (∀ (s : State) (p : Nat), isCore p = true → (s.core p).stallEnd ≠ 0 →
    Completes (.correctionStallEnd p) s fun t => t.now = max s.now (s.core p).stallEnd ∧ (t.core p).stallEnd = 0 ∧
      SameFields t s WithTime) ∧
  (∀ (s : State) (p e : Nat), isCore p = true →
    ((s.core p).rewrites.find? fun e => !s.memBad 3 0 (s.pageOf e) 2048) = some e → s.inBlank = true → s.inFlight p = false →
    Completes (.weightFileRewrite p) s fun t => SameBut t s [.regs, .cores] ∧
      SameFields t s (Among [F.CORE_WFILE_WF_SCRUBS p]) ∧
      t.getF (F.CORE_WFILE_WF_SCRUBS p) = satAdd 16 (s.getF (F.CORE_WFILE_WF_SCRUBS p)) 1 ∧ (t.core p).rewrites = (s.core p).rewrites.erase e ∧
      SMap.get [] (t.core p).tiles e = pageCodes (readB s.dram (if s.mset.classOf e = .adapter then
        s.pageBufOff s.drzSet.buf + 2048 * ((e - s.mset.a) % max 1 s.mset.t) else s.mset.pageOff.getD e 0) 2048) ∧ e ∉ (t.core p).parity ∧
      SMap.get 0 (t.core p).rewritten e = s.cal.frame) ∧
  (∀ (s : State) (p : Nat), isCore p = true →
    min 3 (s.getF (F.CORE_CLK_BIN_PLAN p) + s.getF (F.CORE_CLK_BIN_DIP p)) ≠ s.getF (F.CORE_CLK_BIN_EFF p) →
    Completes (.binEffChange p) s fun t => t.now = max s.now ((s.core p).binFrom + 64) ∧
      t.getF (F.CORE_CLK_BIN_EFF p) = min 3 (s.getF (F.CORE_CLK_BIN_PLAN p) + s.getF (F.CORE_CLK_BIN_DIP p)) ∧
      t.getF (F.CORE_CLK_CHANGES p) = satAdd 16 (s.getF (F.CORE_CLK_CHANGES p)) 1 ∧
      SameFields t s (fun f => WithTime f ∨ Among [F.CORE_CLK_BIN_EFF p, F.CORE_IDENT_BIN p, F.CORE_CLK_CHANGES p] f))

/-- R154, R178: the Prefix engine computes the columns of a line in order, from the run begun, and hands the line on; R155: the
Suffix engine leaves a row of the segment for each line of its pixel shuffle. R188: a layer that reads an empty tensor is
skipped, and SKIPPED counts. R158: a row of the Suffix engine enters the segment output buffer, unless its line has passed
its deadline, and completes its line; while eight rows stand in it the thread waits (the depth is the model's choice, see
the log). -/
def Obligations.EnginesRunLayersIntoTheOutputBuffer : Prop :=
  (∀ (s v u : State) (p t l layer line oy : Nat) (w : CoreIn) (d : LayerDesc) (m : MapRec) (start : Bool) (q r : State × Bool)
      (ext : Int × Int), isCore p = true → isThread t = true → isLayer layer = true → coreInOk w = true →
    layerIssues s p t l layer line w d m → d.engine = 1 → v = s.awaitUnit p t .prefixEng →
    v.outBlocked p d ((outLineOf d m oy).getD 0) (outLineOf d m oy).isSome = none →
    runLineStart (s.isLineThread p t) (runAt (v.core p) t layer) oy = some start →
    q = (if start then v.dynStart p d m w.owed else (v, false)) → q.2 = false → ext = q.1.runExtent p d m →
    u = (q.1.rotate p t).runOn p t line → (u.engineChecks p d m oy w).1 = [] → (oy : Int) < ext.1 →
    r = (List.range (computedCols ext.2.toNat)).foldl (fun (a : State × Bool) ox =>
        if a.2 then a else a.1.prefixPos p d m ⟨1, u.engineLat p ox d m, w.ecc⟩ ext oy ox)
      (u.engineRun p t layer oy d m ext.2.toNat .prefixEng, false) → r.2 = false →
    Completes (.prefixLayer p t layer line oy w) s fun x =>
      SameBut x ((if s.isLineThread p t = true ∨ ((oy + 1 : Nat) : Int) = ext.1
        then r.1.emitAt p d m ⟨1, u.engineLat p (ext.2.toNat - 1) d m, w.ecc⟩ 0 0 .runEnd else r.1).endLine p t layer line d) []) ∧
  (∀ (s u : State) (p t l layer line oy : Nat) (w : CoreIn) (d : LayerDesc) (m : MapRec) (q : State × Bool)
      (r : List (List Nat) × State × Bool) (ext : Int × Int), isCore p = true → isThread t = true →
    isLayer layer = true → coreInOk w = true → layerIssues s p t l layer line w d m → d.engine = 2 →
    q = (s.awaitUnit p t .suffixEng).dynStart p d m w.owed → q.2 = false → ext = q.1.runExtent p d m →
    u = (q.1.rotate p t).runOn p t line → (u.engineChecks p d m oy w).1 = [] → (oy : Int) < ext.1 →
    r = (List.range (computedCols ext.2.toNat)).foldl (fun (a : List (List Nat) × State × Bool) ox =>
        if a.2.2 then a
        else (a.1 ++ [(a.2.1.suffixPos p d m ⟨2, 0, w.ecc⟩ ext oy ox).1], (a.2.1.suffixPos p d m ⟨2, 0, w.ecc⟩ ext oy ox).2))
      ([], u.engineRun p t layer oy d m ext.2.toNat .suffixEng, false) → r.2.2 = false →
    Completes (.suffixLayer p t layer line oy w) s fun x => ∃ rows, (x.core p).sufRows = (r.2.1.core p).sufRows ++ rows ∧
      rows.map (·.y) = (List.range d.s).map (fun dy => d.s * oy + dy) ∧
      rows.map (·.px) = (List.range d.s).map (fun dy => shuffleLine s.prog d.s dy (r.1.take ext.2.toNat))) ∧
  (∀ (s : State) (p t l layer line oy : Nat) (w : CoreIn) (d : LayerDesc) (m : MapRec), isCore p = true → isThread t = true →
    isLayer layer = true → coreInOk w = true → layerIssues s p t l layer line w d m → d.engine = 2 → w.owed = [] →
    ((s.awaitUnit p t .suffixEng).prn p d.inPrn).lh = 0 →
    Completes (.suffixLayer p t layer line oy w) s fun x =>
      x.getF (F.CORE_MAP_CNT_SKIPPED p) = satAdd 16 (s.getF (F.CORE_MAP_CNT_SKIPPED p)) 1) ∧
  (∀ (s u : State) (p : Nat) (r : SegRow) (rs : List SegRow), isCore p = true → (s.core p).sufRows = r :: rs →
    u = s.waitUntil r.ready → (u.core p).seg.length < 8 →
    Completes (.suffixRowWrite p) s fun t => t.now = max s.now r.ready ∧ (t.core p).sufRows = rs ∧
      (t.core p).seg = (if ((u.core p).lines.any fun l => l.clause == r.clause && l.y == r.y && l.frame == r.frame && l.judged) = true
        then (u.core p).seg else (u.core p).seg ++ [r]) ∧
      (∀ l ∈ (t.core p).lines, l.clause = r.clause → l.y = r.y → l.frame = r.frame → l.begun = true → l.complete = true)) ∧
  (∀ (s u : State) (p : Nat) (r : SegRow) (rs : List SegRow), isCore p = true → (s.core p).sufRows = r :: rs →
    u = s.waitUntil r.ready → 8 ≤ (u.core p).seg.length →
    Completes (.suffixRowWrite p) s fun t => t.now = max s.now r.ready ∧ (t.core p).sufRows = (u.core p).sufRows ∧
      (t.core p).seg = (u.core p).seg ∧ SameFields t s (WithTimeOr [F.CORE_THREAD_STATE p]) ∧
      (r.thread < (u.core p).threads.length → ((u.core p).threads.getD r.thread {}).wait = .none →
        ((t.core p).threads.getD r.thread {}).wait = .suffix r.y))

/-- R201: a background access waits while a foreground access, an older background access or another access of the cycle uses
one of its banks; otherwise it is served and leaves the waiting accesses. BG_WAIT counts the core cycles that it has waited.
R212, R214, R222: a row queued for map-out leaves the queue in vertical blanking with no line in flight, and a row that a
full queue refused takes its place. With a spare left in its bank it is redirected, counted and recorded, once its copy has
its turn at the bank; without one it stays and NO_SPARE increments. R224: a line written into an empty slot sets PRESENT,
LINE, COUNT and FBH in one cycle; a slot that is not empty makes the core wait. -/
def Obligations.MemoriesServeBackgroundRowsAndSlots : Prop :=
  (∀ (s : State) (p a n : Nat) (write busy : Bool) (e : EccIn), isCore p = true → a + n ≤ 0x80000 →
    busy = true ∨ (((s.core p).bg.takeWhile fun x => x.1 != a).any fun x => (banksOf [(a, n)]).contains (x.1 / 64 % 32)) = true ∨
      ((banksOf [(a, n)]).any fun k => SMap.get 0 (s.core p).bgLast k == s.now + 1) = true →
    Completes (.backgroundAccess p a n write busy e) s fun t => SameBut t s [.cores] ∧
      ((t.core p).bg.any fun x => x.1 == a && x.2 == s.now) = true ∧
      (t.core p).bgWait = (s.core p).bgWait + bgWaited s p a ∧ (t.core p).spad = (s.core p).spad) ∧
  (∀ (s : State) (p a n : Nat) (write : Bool), isCore p = true → a + n ≤ 0x80000 → (s.core p).bad = [] →
    (((s.core p).bg.takeWhile fun x => x.1 != a).any fun x => (banksOf [(a, n)]).contains (x.1 / 64 % 32)) = false →
    ((banksOf [(a, n)]).any fun k => SMap.get 0 (s.core p).bgLast k == s.now + 1) = false →
    Completes (.backgroundAccess p a n write false {}) s fun t => SameBut t s [.cores] ∧
      (t.core p).bg = (s.core p).bg.filter (fun x => x.1 != a) ∧
      (t.core p).bgWait = (s.core p).bgWait + bgWaited s p a ∧ (t.core p).spad = (s.core p).spad) ∧
  (∀ (s : State) (p row : Nat) (rest : List Nat) (e : EccIn), isCore p = true → (s.core p).mapQ = row :: rest → s.inBlank = true →
    s.inFlight p = false → ((s.core p).mapped.filter fun r => r % 32 == row % 32).length < 4 → s.led.queue.length < 64 →
    (s.core p).bg = [] → ((banksOf [(64 * row, 64)]).any fun k => SMap.get 0 (s.core p).bgLast k == s.now + 1) = false →
    Completes (.scratchpadMapOut ⟨p, e, false⟩) s fun t => (t.core p).mapped = (s.core p).mapped ++ [row] ∧
      t.getF (F.CORE_SPAD_MAP_FIELD_MAPPED p) = satAdd 8 (s.getF (F.CORE_SPAD_MAP_FIELD_MAPPED p)) 1 ∧
      (t.core p).spad = (s.core p).spad ∧ t.led.queue.length = s.led.queue.length + 1 ∧ SameBut t s [.regs, .cores, .led] ∧
      (e = {} → (s.core p).bad = [] → (s.core p).refused = [] → (t.core p).mapQ = rest)) ∧
  (∀ (s : State) (p row : Nat) (rest : List Nat) (e : EccIn), isCore p = true → (s.core p).mapQ = row :: rest → s.inBlank = true →
    s.inFlight p = false → ((s.core p).mapped.filter fun r => r % 32 == row % 32).length < 4 →
    Completes (.scratchpadMapOut ⟨p, e, true⟩) s fun t => SameBut t s [.cores] ∧ (t.core p).mapQ = row :: rest ∧
      (t.core p).mapped = (s.core p).mapped ∧ (t.core p).spad = (s.core p).spad) ∧
  (∀ (s : State) (p row : Nat) (rest : List Nat) (e : EccIn) (b : Bool), isCore p = true → (s.core p).mapQ = row :: rest →
    s.inBlank = true → s.inFlight p = false → 4 ≤ ((s.core p).mapped.filter fun r => r % 32 == row % 32).length → 2 ≤ s.role p →
    Completes (.scratchpadMapOut ⟨p, e, b⟩) s fun t =>
      t.getF (F.CORE_SPAD_MAP_NO_SPARE p) = satAdd 8 (s.getF (F.CORE_SPAD_MAP_NO_SPARE p)) 1 ∧
      (t.core p).mapped = (s.core p).mapped ∧ ((s.core p).refused = [] → (t.core p).mapQ = rest)) ∧
  (∀ (s : State) (p row : Nat) (rest : List Nat) (e : EccIn) (b : Bool), isCore p = true → (s.core p).mapQ = row :: rest →
    s.inBlank = true → s.inFlight p = false → 4 ≤ ((s.core p).mapped.filter fun r => r % 32 == row % 32).length →
    Completes (.scratchpadMapOut ⟨p, e, b⟩) s fun t => ∃ u, u.getF (F.CORE_SPAD_MAP_NO_SPARE p) =
      satAdd 8 (s.getF (F.CORE_SPAD_MAP_NO_SPARE p)) 1 ∧ SameBut u s [.regs, .cores] ∧ SameBut t (u.retire p 4 false) []) ∧
  (∀ (s : State) (b row : Nat) (rest : List Nat) (e : EccIn), isBand b = true → (s.band b).mapQ = row :: rest → s.inBlank = true →
    ((List.range 9).any fun k => s.inFlight (9 * b + k)) = false →
    ((s.band b).mapped.filter fun r => r % 96 == row % 96).length < 8 → s.led.queue.length < 64 →
    lsBusy (s.band b) s.now [(64 * row, 64)] = false →
    Completes (.lineStoreMapOut ⟨b, e, false⟩) s fun t => (t.band b).mapped = (s.band b).mapped ++ [row] ∧
      t.getF (F.BAND_LS_MAP_FIELD_MAPPED b) = satAdd 8 (s.getF (F.BAND_LS_MAP_FIELD_MAPPED b)) 1 ∧
      (t.band b).mem = (s.band b).mem ∧ t.led.queue.length = s.led.queue.length + 1 ∧ SameBut t s [.regs, .bands, .led] ∧
      (e = {} → (s.band b).bad = [] → (s.band b).refused = [] → (t.band b).mapQ = rest)) ∧
  (∀ (s : State) (b row : Nat) (rest : List Nat) (e : EccIn), isBand b = true → (s.band b).mapQ = row :: rest → s.inBlank = true →
    ((s.band b).mapped.filter fun r => r % 96 == row % 96).length < 8 →
    Completes (.lineStoreMapOut ⟨b, e, true⟩) s fun t => SameBut t s []) ∧
  (∀ (s : State) (b row : Nat) (rest : List Nat) (e : EccIn) (x : Bool), isBand b = true → (s.band b).mapQ = row :: rest →
    s.inBlank = true → ((List.range 9).any fun k => s.inFlight (9 * b + k)) = false →
    8 ≤ ((s.band b).mapped.filter fun r => r % 96 == row % 96).length →
    Completes (.lineStoreMapOut ⟨b, e, x⟩) s fun t => (t.band b).mapped = (s.band b).mapped ∧
      t.getF (F.BAND_LS_MAP_NO_SPARE b) = satAdd 8 (s.getF (F.BAND_LS_MAP_NO_SPARE b)) 1 ∧ SameBut t s [.regs, .bands]) ∧
  (∀ (s v : State) (p t line n y : Nat), isCore p = true → isThread t = true → isPrn n = true → (s.prn p n).place = 2 →
    s.mayIssue p t line = true → v = s.issueOp p t line → v.lsReady (bandOf p) (s.prn p n) y = true →
    ((s.prn p n).cons ≠ 0 ∨ (s.prn p n).fb = true) →
    Completes (.lineStoreSlotWrite p t line n y) s fun u => u.now = v.now ∧
      u.slot (bandOf p) ((s.prn p n).slotAddr y) = ⟨true, y, (s.prn p n).cons, (s.prn p n).fb, v.now, 0⟩) ∧
  (∀ (s v : State) (p t line n y : Nat), isCore p = true → isThread t = true → isPrn n = true → (s.prn p n).place = 2 →
    s.mayIssue p t line = true → v = s.issueOp p t line → v.lsReady (bandOf p) (s.prn p n) y = false →
    t < (v.core p).threads.length →
    Completes (.lineStoreSlotWrite p t line n y) s fun u => u.bands = v.bands ∧
      ((u.core p).threads.getD t {}).wait = .slot ((s.prn p n).slotAddr y))

/-! ### Streams, semaphores and threads -/

/-- R233: an entry of kind 0 fires and starts its list, with the output line it acts for as its tag: on the named bands'
engines, or on the engines of the named active cores. An almanac start that follows a thread start of its cycle on the
engine is not meant here. R252: a start that finds the engine idle becomes its current list; one that finds a list current
is latched as pending; one that finds a list pending replaces it and counts REARM_OVER; one in the cycle of the final
completion waits for the next cycle. A pending list starts in the cycle after the current one's end. R233: an almanac start
in the cycle of a thread's start goes before it. R233: a thread starts its list with its run line, on an engine of its
class, as line base and tag. R246: when thread 0 has drained its line clause, 8 core cycles after its last operation, each
of the clause's semaphores stands at INIT with DEBT 0, the clause's pending lists are discarded, and the thread takes the
clause of the line that waits first. -/
def Obligations.ListsStartPendAndDrain : Prop :=
  (∀ (s : State) (i : Nat), s.due i 0 = true →
    Completes (.startDescriptorList i) s fun t => Fired s t i ∧ SameBut t s [.now, .cal, .regs, .cores, .bands]) ∧
  (∀ (s : State) (i b : Nat), s.due i 0 = true → b < s.nBands → bit (s.entry i).bands b = true → bit (s.entry i).arg 8 = true →
    1 < (s.band b).eng.length → (∀ e, (s.eng (.band b e)).started.2 = false) →
    Completes (.startDescriptorList i) s fun t => ∃ e r,
      ((t.eng (.band b e)).run = some r ∨ (t.eng (.band b e)).pend = some r) ∧ r.list = bits (s.entry i).arg 0 6 ∧
      r.tagFrame = (s.actsFor i).1 ∧ r.tag = (s.actsFor i).2) ∧
  (∀ (s : State) (i b k : Nat), s.due i 0 = true → b < s.nBands → bit (s.entry i).bands b = true → bit (s.entry i).arg 8 = false →
    k < 8 → bit (s.entry i).cores k = true → s.active (s.phys (8 * b + k)) = true →
    7 < (s.core (s.phys (8 * b + k))).eng.length → (∀ e, (s.eng (.core (s.phys (8 * b + k)) e)).started.2 = false) →
    Completes (.startDescriptorList i) s fun t => ∃ e r,
      ((t.eng (.core (s.phys (8 * b + k)) e)).run = some r ∨ (t.eng (.core (s.phys (8 * b + k)) e)).pend = some r) ∧
      r.list = bits (s.entry i).arg 0 6 ∧ r.tagFrame = (s.actsFor i).1 ∧ r.tag = (s.actsFor i).2) ∧
  (∀ (s : State) (g : EngId) (r : ListRun) (th : Bool), engineHere s g → (s.eng g).run = none → (s.eng g).pend = none →
    (s.eng g).stopping = false → (s.eng g).endedAt ≠ s.now + 1 → (s.eng g).started.1 ≠ s.now + 1 →
    ((s.startList g r th).eng g).run = some r ∧ ((s.startList g r th).eng g).pend = none ∧
      (s.startList g r th).getF (F.ENG_STATE_STATE g.regs) = 1) ∧
  (∀ (s : State) (g : EngId) (r q : ListRun) (th : Bool), engineHere s g → (s.eng g).run = some q → (s.eng g).pend = none →
    (s.eng g).started.1 ≠ s.now + 1 →
    ((s.startList g r th).eng g).run = some q ∧ ((s.startList g r th).eng g).pend = some r ∧
      (s.startList g r th).getF (F.ENG_CNT_REARM_OVER g.regs) = s.getF (F.ENG_CNT_REARM_OVER g.regs)) ∧
  (∀ (s : State) (g : EngId) (r q : ListRun) (th : Bool), engineHere s g → (s.eng g).pend = some q →
    (s.eng g).endedAt ≠ s.now + 1 → (s.eng g).started.1 ≠ s.now + 1 →
    ((s.startList g r th).eng g).run = (s.eng g).run ∧ ((s.startList g r th).eng g).pend = some r ∧
      (s.startList g r th).getF (F.ENG_CNT_REARM_OVER g.regs) = satAdd 16 (s.getF (F.ENG_CNT_REARM_OVER g.regs)) 1) ∧
  (∀ (s : State) (g : EngId) (r : ListRun) (th : Bool), engineHere s g → (s.eng g).run = none →
    (s.eng g).endedAt = s.now + 1 → (s.eng g).started.1 ≠ s.now + 1 →
    ((s.startList g r th).eng g).run = none ∧ ((s.startList g r th).eng g).pend = some r ∧
      (s.startList g r th).getF (F.ENG_CNT_REARM_OVER g.regs) = s.getF (F.ENG_CNT_REARM_OVER g.regs)) ∧
  (∀ (s : State) (g : EngId) (r q : ListRun), engineHere s g → (s.eng g).started = (s.now + 1, true) → (s.eng g).run = some q →
    (s.eng g).pend = none →
    ((s.startList g r false).eng g).run = some r ∧ ((s.startList g r false).eng g).pend = some q) ∧
  (∀ (s : State) (g : EngId) (r : ListRun), g.ok = true → engineHere s g → (s.eng g).run = none → (s.eng g).pend = some r →
    (s.eng g).stopping = false →
    Completes (.pendingListStart g) s fun t => t.now = max s.now (s.eng g).endedAt ∧ (t.eng g).run = some r ∧
      (t.eng g).pend = none ∧ t.getF (F.ENG_STATE_STATE g.regs) = 1 ∧ t.getF (F.ENG_STATE_PENDING g.regs) = 0) ∧
  (∀ (s v : State) (p t line list e : Nat), isCore p = true → isThread t = true → list < 64 → s.mayIssue p t line = true →
    e = s.listEngine p list → s.isLineThread p t = decide (e < 4) → e < (s.core p).eng.length → v = s.issueOp p t line →
    Completes (.threadStreamStart p t line list) s fun u => SameBut u v [.regs, .cores] ∧
      ∃ r, ((u.eng (.core p e)).run = some r ∨ (u.eng (.core p e)).pend = some r) ∧ r.list = list ∧ r.tag = line ∧
        r.base = lineBase (v.listEntry (.core p e) list) line ∧ r.tagFrame = v.lineFrame p t line ∧ r.thread = t) ∧
  (∀ (s v : State) (p cl : Nat) (sems lists : List Nat), Instr.wf (.clauseDrained p 0 ⟨sems, lists⟩) = true →
    s.threadClause p 0 = some cl → s.drained p 0 lists = true → 0 < (s.core p).threads.length →
    (∀ u, u ≠ 0 → u < 4 → s.isLineThread p u = true → s.threadClause p u ≠ some cl) →
    v = s.waitUntil (drainEnd (s.core p) (s.clock p) 0) →
    Completes (.clauseDrained p 0 ⟨sems, lists⟩) s fun u => u.now = max s.now (drainEnd (s.core p) (s.clock p) 0) ∧
      u.threadClause p 0 = ((v.core p).lines.find? fun l => !l.begun && !l.complete).map (·.clause) ∧
      (∀ i ∈ sems, u.getF (F.CORE_SEM_DEBT p i) = 0 ∧ u.getF (F.CORE_SEM_COUNT p i) % 2 ^ 7 = v.getF (F.CORE_SEM_INIT p i) % 2 ^ 7) ∧
      ∀ e r, e < 4 → (v.eng (.core p e)).pend = some r → r.list ∈ lists → (u.eng (.core p e)).pend = none)

/-- R238: a burst of at most eight descriptors whose access has had its turn joins the buffer, in the list's order, with the
bytes that stand in the list. R238: an engine issues the next transfer of a copy from DRAM to its own scratchpad while fewer
than six are outstanding, and none with six. R243: a descriptor whose semaphore counts 0 waits for it. R238: a transfer
whose accesses have had their turn and read no bad word is no longer outstanding when it completes, and counts. R249, R250:
a descriptor burst of a frame-class list that meets an uncorrectable row halts the list with cause 4, counts, and is retried
4096 fabric cycles later. -/
def Obligations.EnginesReadIssueAndComplete : Prop :=
  (∀ (s u : State) (g : EngId) (w : CoreIn) (r : ListRun) (q : Prn) (n : Nat) (v : State × Bool), g.ok = true → coreInOk w = true → engineHere s g →
    (s.eng g).run = some r → s.getF (F.ENG_STATE_STATE g.regs) = 1 → (s.eng g).stopping = false →
    s.bandStopped g.bandNo = false → r.read < r.count → r.buf.length ≤ 8 → q = s.engPrn g r.prn →
    n = min 8 (r.count - r.read) → v = s.xferTurn g (q.place, [(q.base + 32 * (r.first + r.read), 32 * n)]) (0, []) w → v.2 = true →
    u = (v.1.srcEcc g q.place [(q.base + 32 * (r.first + r.read), 32 * n)] w.ecc).1 →
    u.badRow q.place (g.unit q.place) [(q.base + 32 * (r.first + r.read), 32 * n)] = none →
    Completes (.descriptorBurstRead g w) s fun t => SameBut t u [.cores, .bands] ∧
      ∃ k ds, (t.eng g).run = some k ∧ k.read = r.read + n ∧ k.buf = r.buf ++ ds ∧
        ds.map (·.idx) = (List.range n).map (fun i => r.read + i) ∧
        ds.map (·.bytes) = (List.range n).map fun i => u.readMem q.place (g.unit q.place) (q.base + 32 * (r.first + r.read) + 32 * i) 32) ∧
  (∀ (s : State) (g : EngId) (r : ListRun) (dr : DescRun), g.ok = true → engineHere s g → s.nextXfer g = some (r, dr) →
    s.getF (F.ENG_STATE_STATE g.regs) = 1 → (s.eng g).stopping = false → s.bandStopped g.bandNo = false →
    (s.eng g).outst.length < 6 → semWait dr.bytes = none → (Desc.parse dr.bytes).op ≠ 1 → (Desc.parse dr.bytes).op ≠ 2 →
    (Desc.parse dr.bytes).mcast = false → (Desc.parse dr.bytes).remote = false → (Desc.parse dr.bytes).zc = false →
    (s.engPrn g (Desc.parse dr.bytes).src).place = 3 → (s.dstPrn g (Desc.parse dr.bytes) (Desc.parse dr.bytes).peer).1.place = 1 →
    (Desc.parse dr.bytes).lineXfers (s.engPrn g (Desc.parse dr.bytes).src) ≠ 0 → s.paced g r dr (Desc.parse dr.bytes) = true →
    Completes (.transferIssue g) s fun t => t.now = s.now ∧
      (∃ x, (t.eng g).outst = (s.eng g).outst ++ [x] ∧ x.desc = dr.idx ∧ x.k = dr.issued ∧ x.remote = false) ∧
      t.getF (F.ENG_STATE_OUTST g.regs) = ((s.eng g).outst.length + 1) % 8 ∧ t.dram = s.dram) ∧
  (∀ (s : State) (g : EngId), g.ok = true → 6 ≤ (s.eng g).outst.length →
    Completes (.transferIssue g) s fun t => SameBut t s []) ∧
  (∀ (s : State) (p e i : Nat) (r : ListRun) (dr : DescRun), (EngId.core p e).ok = true → engineHere s (.core p e) →
    s.nextXfer (.core p e) = some (r, dr) → s.getF (F.ENG_STATE_STATE (coreEng p e)) = 1 → (s.eng (.core p e)).stopping = false →
    s.bandStopped (bandOf p) = false → (s.eng (.core p e)).outst.length < 6 → semWait dr.bytes = some i → dr.waited = false →
    s.getF (F.CORE_SEM_COUNT p i) = 0 → s.lastTook p i (4 + e) = none →
    Completes (.transferIssue (.core p e)) s fun t => SameBut t s [.cores] ∧ (t.eng (.core p e)).waitSem = some i ∧
      (t.eng (.core p e)).outst = (s.eng (.core p e)).outst) ∧
  (∀ (s : State) (g : EngId) (n : Nat) (w : CoreIn) (x : Xfer) (r : ListRun) (dr : DescRun) (d : Desc) (sr : Prn) (dp : Prn × Nat)
      (rs : List (Nat × Nat)) (q f : State × Bool), g.ok = true → coreInOk w = true →
    engineHere s g → (s.eng g).outst[n]? = some x → s.xferDesc g x.desc = some (r, dr) → x.remote = false → x.accepted = false →
    d = Desc.parse dr.bytes → sr = { s.engPrn g d.src with base := x.base } → dp = s.dstPrn g d d.peer →
    (dp.1.place = 3 → s.getF F.DEV_HOTPLUG_WSTOP = 0) → rs = d.reads sr (s.readMem sr.place (g.unit sr.place)) r.base x.k →
    q = (s.waitUntil x.after).xferTurn g (sr.place, if x.after = 0 then rs else []) (dp.1.place, d.writes r.base x.k sr dp.1) w →
    q.2 = true → f = (if x.after = 0 then q.1.srcEcc g sr.place rs w.ecc else (q.1, false)) → f.2 = false →
    f.1.badRow sr.place (g.unit sr.place) rs = none →
    Completes (.transferComplete g n w) s fun t => t.now = max s.now x.after ∧
      t.getF (F.ENG_XFERS_XFERS g.regs) = (s.getF (F.ENG_XFERS_XFERS g.regs) + 1) % 2 ^ 32 ∧
      (t.eng g).outst = (s.eng g).outst.eraseIdx n) ∧
  (∀ (s u : State) (p e row : Nat) (w : CoreIn) (r : ListRun) (q : Prn) (n : Nat) (v : State × Bool), (EngId.core p e).ok = true → coreInOk w = true →
    engineHere s (.core p e) → 4 ≤ e → (s.eng (.core p e)).run = some r → s.isLineThread p r.thread = false →
    s.getF (F.ENG_STATE_STATE (coreEng p e)) = 1 → (s.eng (.core p e)).stopping = false →
    s.bandStopped (bandOf p) = false → r.read < r.count → r.buf.length ≤ 8 → q = s.prn p r.prn → n = min 8 (r.count - r.read) →
    v = s.xferTurn (.core p e) (q.place, [(q.base + 32 * (r.first + r.read), 32 * n)]) (0, []) w → v.2 = true →
    u = (v.1.srcEcc (.core p e) q.place [(q.base + 32 * (r.first + r.read), 32 * n)] w.ecc).1 →
    u.badRow q.place ((EngId.core p e).unit q.place) [(q.base + 32 * (r.first + r.read), 32 * n)] = some row →
    Completes (.descriptorBurstRead (.core p e) w) s fun t => t.now = s.now ∧ t.getF (F.ENG_STATE_HALT_CAUSE (coreEng p e)) = 4 ∧
      t.getF (F.ENG_CNT_HALTS (coreEng p e)) = satAdd 16 (s.getF (F.ENG_CNT_HALTS (coreEng p e))) 1 ∧
      t.getF (F.ENG_STATE_STATE (coreEng p e)) = 2 ∧ (t.eng (.core p e)).retryAt = s.now + 4096)

/-- R250, R251: a halted list retries its faulting row every 4096 fabric cycles, and in the cycle after a host write of RETRY,
and runs on once the row reads correct; ABORT ends a halted frame-class list that has no transfer outstanding. -/
def Obligations.HaltedListsRetry : Prop :=
  (∀ (s : State) (g : EngId), g.ok = true → engineHere s g → s.getF (F.ENG_STATE_STATE g.regs) = 2 →
    Completes (.haltRetryTimer g) s fun t => t.now = max s.now (s.eng g).retryAt ∧
      (t.eng g).retryAt = (s.eng g).retryAt + 4096 ∧
      t.getF (F.ENG_STATE_STATE g.regs) =
        (if (s.waitUntil (s.eng g).retryAt).memBad (s.haltRow g).1 (s.haltRow g).2.1 (s.haltRow g).2.2 64 = true then 2 else 1)) ∧
  (∀ (s : State) (g : EngId), g.ok = true → s.getF (F.ENG_STATE_STATE g.regs) = 2 → s.replaying = false →
    (∀ p e, g = .core p e → s.coreHidden p = false) →
    Completes (.engineRetry g) s fun t => t.now = s.now + 1 ∧
      t.getF (F.ENG_STATE_STATE g.regs) =
        (if (s.advance 1).memBad (s.haltRow g).1 (s.haltRow g).2.1 (s.haltRow g).2.2 64 = true then 2 else 1)) ∧
  (∀ (s : State) (p e : Nat) (r : ListRun), isCore p = true → 4 ≤ e → e < 8 → e < (s.core p).eng.length →
    s.getF (F.ENG_STATE_STATE (coreEng p e)) = 2 → (s.eng (.core p e)).run = some r → (s.eng (.core p e)).outst = [] →
    s.replaying = false → s.coreHidden p = false →
    Completes (.engineAbort (.core p e)) s fun t => t.getF (F.ENG_STATE_STATE (coreEng p e)) = 0 ∧
      (t.eng (.core p e)).run = none ∧ t.now = s.now)

/-- R243: a wait takes a unit of COUNT where there is one and otherwise holds its thread; a signal that arrives raises COUNT
while it is below CAP and otherwise counts OVERFLOWS; a thread's signal sets out, and is due at once at its own core, after
4 cycles in its band, and not before 20 in another. A thread's operation first waits for its place in the issue unit (R164).
R240: an await holds its thread while LANDED equals CONSUMED, and a consume adds one to CONSUMED, which wraps. Each first
waits for its place in the issue unit (R164). -/
def Obligations.SemaphoresAndTilesGateThreads : Prop :=
  (∀ (s v : State) (p t line i : Nat), isCore p = true → isThread t = true → isSem i = true → s.mayIssue p t line = true →
    v = s.issueOp p t line → 0 < v.getF (F.CORE_SEM_COUNT p i) →
    Completes (.semaphoreWait p t line i) s fun u => SameBut u v [.regs, .cores] ∧
      u.getF (F.CORE_SEM_COUNT p i) = (v.getF (F.CORE_SEM_COUNT p i) - 1) % 2 ^ 7 ∧
      SameFields u v (Among [F.CORE_SEM_COUNT p i])) ∧
  (∀ (s v : State) (p t line i : Nat), isCore p = true → isThread t = true → isSem i = true → s.mayIssue p t line = true →
    v = s.issueOp p t line → v.getF (F.CORE_SEM_COUNT p i) = 0 → v.lastTook p i t = none → t < (v.core p).threads.length →
    Completes (.semaphoreWait p t line i) s fun u => SameBut u v [.regs, .cores] ∧
      ((u.core p).threads.getD t {}).wait = .sem i ∧ SameFields u v (Among [F.CORE_THREAD_STATE p])) ∧
  (∀ (s v : State) (n p : Nat) (g : Signal), signalOk (.arrive n) = true → s.signals[n]? = some g → g.beats = 0 →
    ((s.signals.take n).any fun h => h.core == g.core && h.sem == g.sem && h.item.src == g.item.src) = false →
    v = s.waitUntil g.due → p = v.phys g.core → tookNow (v.core p) v.now g.sem = [] →
    (v.core p).threads.all (fun h => h.wait == .none) = true → (v.core p).eng.all (fun h => h.waitSem == none) = true →
    (v.getF (F.CORE_SEM_KIND p g.sem) ≠ 0 ∨ v.getF (F.CORE_SEM_DEBT p g.sem) = 0) →
    Completes (.semaphoreSignalArrival (.arrive n)) s fun u => u.now = max s.now g.due ∧ u.signals = s.signals.eraseIdx n ∧
      (if v.getF (F.CORE_SEM_COUNT p g.sem) < v.getF (F.CORE_SEM_CAP p g.sem) then
        u.getF (F.CORE_SEM_COUNT p g.sem) = (v.getF (F.CORE_SEM_COUNT p g.sem) + 1) % 2 ^ 7
      else u.getF (F.CORE_SEM_COUNT p g.sem) = v.getF (F.CORE_SEM_COUNT p g.sem) ∧
        u.getF (F.CORE_SEM_ERR_OVERFLOWS p) = satAdd 16 (v.getF (F.CORE_SEM_ERR_OVERFLOWS p)) 1)) ∧
  (∀ (s v : State) (p t line dst sem : Nat), signalOk (.issue p t line dst sem) = true → s.mayIssue p t line = true →
    v = s.issueOp p t line →
    Completes (.semaphoreSignalArrival (.issue p t line dst sem)) s fun u => u.now = v.now ∧
      ∃ g, u.signals = s.signals ++ [g] ∧ g.core = dst ∧ g.sem = sem ∧
        g.due = v.now + (if s.phys dst = p then 0 else if bandOf (s.phys dst) = bandOf p then 4 else 20)) ∧
  (∀ (s v : State) (p t line e : Nat), isCore p = true → isThread t = true → e < 8 → s.mayIssue p t line = true →
    v = s.issueOp p t line → v.getF (F.ENG_TILES_LANDED (coreEng p e)) ≠ v.getF (F.ENG_TILES_CONSUMED (coreEng p e)) →
    t < (v.core p).threads.length →
    Completes (.awaitTile p t line e) s fun u => SameBut u v [] ∧ ((u.core p).threads.getD t {}).wait = .none) ∧
  (∀ (s v : State) (p t line e : Nat), isCore p = true → isThread t = true → e < 8 → s.mayIssue p t line = true →
    v = s.issueOp p t line → v.getF (F.ENG_TILES_LANDED (coreEng p e)) = v.getF (F.ENG_TILES_CONSUMED (coreEng p e)) →
    t < (v.core p).threads.length →
    Completes (.awaitTile p t line e) s fun u => SameBut u v [.regs, .cores] ∧
      ((u.core p).threads.getD t {}).wait = .tile e ∧ SameFields u v (Among [F.CORE_THREAD_STATE p])) ∧
  (∀ (s v : State) (p t line e : Nat), isCore p = true → isThread t = true → e < 8 → s.mayIssue p t line = true →
    v = s.issueOp p t line →
    Completes (.consumeTile p t line e) s fun u => SameBut u v [.regs] ∧
      u.getF (F.ENG_TILES_CONSUMED (coreEng p e)) = (v.getF (F.ENG_TILES_CONSUMED (coreEng p e)) + 1) % 2 ^ 16 ∧
      SameFields u v (Among [F.ENG_TILES_CONSUMED (coreEng p e)])) ∧
  (∀ (s v : State) (p t line : Nat), isCore p = true → isThread t = true → v = s.issueOp p t line →
    v.now = max s.now (s.issueAt p t (.issue t)) ∧ SameBut v s [.now, .cal, .regs, .cores, .bands])

/-! ### Fabric, barriers, snapshots and handovers -/

/-- R277: the first multicast on the network whose source reads correct is accepted in its cycle, once the banks that it writes
serve it, and the next ones follow; one whose list is gone is dropped. R262, R266: a remote transfer arrives once its slot
and the banks are free and leaves the network; where the owner's window is closed to another core it counts LATE_RW, and
otherwise it does not. R278: a member that arrives at a barrier adds an arrival and waits, and the last member's arrival
times the barrier; a core whose run has failed arrives without waiting. It completes 18 + 4⌈log₂N⌉ fabric cycles after the
last arrival, uses up one arrival of each member, frees the waiting threads and counts. -/
def Obligations.FabricTransfersArriveAndBarriersComplete : Prop :=
  (∀ (s v : State) (m : Mcast) (ms : List Mcast) (r : ListRun) (dr : DescRun) (d : Desc) (q : State × Bool),
    s.fab.mcasts = m :: ms →
    ((s.xferDesc m.eng m.desc).bind fun x => s.sourceBad m.eng (Desc.parse x.2.bytes) x.1.base m.desc m.k) = none →
    v = s.waitUntil m.due → v.xferDesc m.eng m.desc = some (r, dr) → d = Desc.parse dr.bytes →
    q = (v.mcastTargets d).foldl (fun (a : State × Bool) l =>
      ((a.1.bgTurn (a.1.phys l) (a.1.remoteWrites m.eng d r.base m.desc m.k l) false).1,
        a.2 && (a.1.bgTurn (a.1.phys l) (a.1.remoteWrites m.eng d r.base m.desc m.k l) false).2)) (v, true) → q.2 = true →
    Completes .multicastAccepted s fun t => t.now = max s.now m.due ∧ t.fab.mcasts = mcastDues t.now ms ∧ t.fab.mcBusy = t.now) ∧
  (∀ (s : State) (m : Mcast) (ms : List Mcast), s.fab.mcasts = m :: ms → s.xferDesc m.eng m.desc = none →
    Completes .multicastAccepted s fun t => t.now = max s.now m.due ∧ t.fab = { s.fab with mcBusy := m.due, mcasts := ms }) ∧
  (∀ (s : State) (n : Nat) (m : Remote) (e : EccIn) (busy : Bool), s.remotes[n]? = some m → s.xferDesc m.eng m.desc = none →
    Completes (.remoteTransferArrival ⟨n, e, busy⟩) s fun t => SameBut t s [.remotes] ∧ t.remotes = s.remotes.eraseIdx n) ∧
  (∀ (s v u : State) (n due p : Nat) (e : EccIn) (busy : Bool) (m : Remote) (r : ListRun) (dr : DescRun) (d : Desc) (q : State × Bool) (closed role : Bool),
    s.remotes[n]? = some m → s.xferDesc m.eng m.desc = some (r, dr) → d = Desc.parse dr.bytes → m.beats = 0 →
    due = max (max m.due ((((s.eng m.eng).outst.find? fun t => t.desc == m.desc && t.k == m.k).map (·.after)).getD 0))
      (SMap.get 0 s.fab.inFree (s.phys m.dst)) →
    olderRemote s.remotes n m.dst (max s.now due) = false → s.sourceBad m.eng d r.base m.desc m.k = none →
    v = s.waitUntil due → q = v.bgTurn (s.phys m.dst) (v.remoteWrites m.eng d r.base m.desc m.k m.dst) busy → q.2 = true →
    u = { q.1 with remotes := s.remotes.eraseIdx n, fab := { s.fab with inFree := SMap.set 0 s.fab.inFree (s.phys m.dst) (v.now + 1) } } →
    p = (u.dstPrn m.eng d m.dst).2 →
    u.windowClosed p d.dst (match m.eng with | .core q _ => (u.logical q).getD 0 | .band b _ => 8 * b) r.tagFrame r.tag = (closed, role) →
    Completes (.remoteTransferArrival ⟨n, e, busy⟩) s fun t => t.now = max s.now due ∧ t.remotes = s.remotes.eraseIdx n ∧
      t.getF (F.CORE_RWIN_LATE_RW p) =
        if (closed && match m.eng with | .core q _ => q != p | .band _ _ => true) = true then satAdd 16 (s.getF (F.CORE_RWIN_LATE_RW p)) 1 else s.getF (F.CORE_RWIN_LATE_RW p)) ∧
  (∀ (s v : State) (p t line g l : Nat) (b : BarrierSt), isCore p = true → isThread t = true → g < 8 → s.logical p = some l →
    s.mayIssue p t line = true → s.isLineThread p t = false → bit (s.sched.barriers.getD g 0) l = true →
    (∀ i, (s.threadClause p t).bind s.sched.fcIndex = some i → ((s.fc.getD i {}).run.map (·.failed)).getD false = false) →
    t < (s.core p).threads.length → v = s.issueOp p t line → b = SMap.get {} s.fab.barriers g → SMap.get 0 b.ahead l = 0 →
    Completes (.barrierArrive p t line g) s fun u => u.now = v.now ∧ ((u.core p).threads.getD t {}).wait = .barrier g ∧
      SMap.get 0 (SMap.get {} u.fab.barriers g).arrived l = SMap.get 0 b.arrived l + 1 ∧
      ((∀ m ∈ s.barrierMembers g, m ≠ l → SMap.get 0 b.arrived m ≠ 0) →
        (SMap.get {} u.fab.barriers g).lastAt = some (b.lastAt.getD v.now))) ∧
  (∀ (s v : State) (p t line g l i : Nat) (b : BarrierSt), isCore p = true → isThread t = true → g < 8 → s.logical p = some l →
    s.mayIssue p t line = true → s.isLineThread p t = false → bit (s.sched.barriers.getD g 0) l = true →
    (s.threadClause p t).bind s.sched.fcIndex = some i → ((s.fc.getD i {}).run.map (·.failed)).getD false = true →
    v = s.issueOp p t line → b = SMap.get {} s.fab.barriers g → SMap.get 0 b.ahead l = 0 →
    Completes (.barrierArrive p t line g) s fun u => u.cores = v.cores ∧ u.now = v.now ∧
      SMap.get 0 (SMap.get {} u.fab.barriers g).arrived l = SMap.get 0 b.arrived l + 1) ∧
  (∀ (s : State) (g at_ : Nat), g < 8 → (SMap.get {} s.fab.barriers g).lastAt = some at_ →
    Completes (.barrierComplete g) s fun u => u.now = max s.now (at_ + 18 + 4 * clog2 (s.barrierMembers g).length) ∧
      (∀ m ∈ s.barrierMembers g, SMap.get 0 (SMap.get {} u.fab.barriers g).arrived m =
        SMap.get 0 (SMap.get {} s.fab.barriers g).arrived m - 1) ∧
      (∀ l ∈ s.barrierMembers g, ∀ t, t < 4 → ((u.core (s.phys l)).threads.getD t {}).wait ≠ .barrier g) ∧
      u.getF F.FAB_BARRIERS_BARRIERS = satAdd 32 (s.getF F.FAB_BARRIERS_BARRIERS) 1)

/-- R281, R282: a write of ARM with no reason against it arms the snapshot with the values then held, and otherwise shows the
reason; CANCEL ends an armed snapshot and changes no other. R280: once every stopped band is quiet the copy begins, and
lasts from the next line start for the line periods that the snapshot was given; when none is left STATE shows 3 and LPS
that number, and no band is stopped any more. R551: after a fall of REMOVE_N nothing is written. -/
def Obligations.SnapshotsAreArmedCopiedAndEnded : Prop :=
  (∀ (s u : State) (bands : BitVec 8) (spad ls : Bool), s.replaying = false →
    u = s.setFs [(F.FAB_SNAP_CTRL_BANDS, bands.toNat), (F.FAB_SNAP_CTRL_SPAD, b2n spad), (F.FAB_SNAP_CTRL_LS, b2n ls)] →
    u.snapReason = 0 →
    Completes (.snapshotArm bands spad ls) s fun t => t.getF F.FAB_SNAP_STATUS_STATE = 1 ∧ t.fab.snap.bands = bands.toNat ∧
      t.fab.snap.spad = spad ∧ t.fab.snap.ls = ls ∧ t.fab.snap.line = s.getF F.FAB_SNAP_LINE_LINE ∧
      t.fab.snap.frame = s.getF F.FAB_SNAP_FRAME_FRAME ∧ t.fab.snap.dest = s.snapDest ∧ t.fab.snap.stopped = false) ∧
  (∀ (s u : State) (bands : BitVec 8) (spad ls : Bool), s.replaying = false →
    u = s.setFs [(F.FAB_SNAP_CTRL_BANDS, bands.toNat), (F.FAB_SNAP_CTRL_SPAD, b2n spad), (F.FAB_SNAP_CTRL_LS, b2n ls)] →
    u.snapReason ≠ 0 →
    Completes (.snapshotArm bands spad ls) s fun t => t.getF F.FAB_SNAP_STATUS_REFUSE = u.snapReason ∧ t.fab = s.fab ∧
      t.getF F.FAB_SNAP_STATUS_STATE = s.getF F.FAB_SNAP_STATUS_STATE) ∧
  (∀ s : State, s.replaying = false → s.getF F.FAB_SNAP_STATUS_STATE = 1 →
    Completes .snapshotCancel s fun t => t.getF F.FAB_SNAP_STATUS_STATE = 0 ∧ t.fab = { s.fab with snap := {} }) ∧
  (∀ s : State, s.replaying = false → s.getF F.FAB_SNAP_STATUS_STATE ≠ 1 →
    Completes .snapshotCancel s fun t => t.getF F.FAB_SNAP_STATUS_STATE = s.getF F.FAB_SNAP_STATUS_STATE ∧ t.fab = s.fab) ∧
  (∀ s : State, s.getF F.FAB_SNAP_STATUS_STATE = 1 → s.fab.snap.stopped = true →
    (∀ b, b < 8 → bit s.fab.snap.bands b = true → s.bandQuiet b = true) →
    Completes .snapshotCopyStart s fun t => t.getF F.FAB_SNAP_STATUS_STATE = 2 ∧
      t.fab = { s.fab with snap := { s.fab.snap with left := s.fab.snap.lps + 1 } } ∧ SameBut t s [.regs, .fab] ∧
      SameFields t s (Among [F.FAB_SNAP_STATUS_STATE])) ∧
  (∀ s : State, s.getF F.FAB_SNAP_STATUS_STATE = 2 → s.fab.snap.left = 0 →
    Completes .snapshotCopyComplete s fun t => t.getF F.FAB_SNAP_STATUS_STATE = 3 ∧
      t.getF F.FAB_SNAP_STATUS_LPS = s.fab.snap.lps % 2 ^ 16 ∧ t.fab = { s.fab with snap := {} } ∧
      SameBut t s [.regs, .fab, .dram, .dramBad, .warp] ∧ SameFields t s (Among [F.FAB_SNAP_STATUS_STATE, F.FAB_SNAP_STATUS_LPS]) ∧
      (s.getF F.DEV_HOTPLUG_WSTOP = 1 → t.dram = s.dram))

/-- R272: a decided handover is carried out in the next handover interval that begins at least 1 ms after its decision: 4 µs after
the interval's start at the earliest the outgoing core's threads carry no clause. -/
def Obligations.HandoversAreCarriedOut : Prop :=
  ∀ (s : State) (b at_ : Nat) (h : Handover), isBand b = true → s.fab.handovers.getD b none = some h → s.interval = some at_ →
    h.carried = false → h.decided + msCycles 1 ≤ at_ → s.change = none → s.gated b = false →
    Completes (.handoverStart b) s fun t => at_ + usCycles 4 ≤ t.now ∧
      t.fab.handovers.getD b none = some { h with carried := true } ∧
      ∀ k, ((t.core (9 * b + h.outSlot)).threads.getD k {}).clause = none

/-! ### Frame clauses, model sets, schedules, re-timing and detection -/

/-- R161: an entry of kind 3 sets FWIN of the cores it names that take part and are in no model-set window, and an entry of kind
4 clears FWIN of the cores it names. R301, R300: the entry of the sampled model set opens the multicast window, which closes
5480 fabric cycles after it fired; then MWIN is clear in every core. -/
def Obligations.WindowsOpenAndClose : Prop :=
  (∀ (s : State) (i b k : Nat), s.due i 3 = true → b < s.nBands → bit (s.entry i).bands b = true → k < 8 →
    bit (s.entry i).cores k = true → s.active (s.phys (8 * b + k)) = true → s.getF (F.CORE_THREAD_MWIN (s.phys (8 * b + k))) = 0 →
    Completes (.openFrameClauseWindow i) s fun t => Fired s t i ∧ t.getF (F.CORE_THREAD_FWIN (s.phys (8 * b + k))) = 1) ∧
  (∀ (s : State) (i b k : Nat), s.due i 4 = true → b < s.nBands → bit (s.entry i).bands b = true → k < 8 →
    bit (s.entry i).cores k = true →
    Completes (.closeFrameClauseWindow i) s fun t => Fired s t i ∧ t.getF (F.CORE_THREAD_FWIN (s.phys (8 * b + k))) = 0 ∧
      SameBut t s [.now, .cal, .regs, .cores, .bands]) ∧
  (∀ (s : State) (i : Nat) (bad : List Nat), bad.all isEntry = true → s.due i 7 = true → s.msetSample = some (s.entry i).arg →
    (s.entry i).arg ≠ s.getF F.CAL_MSET_MSET_CUR → s.mwinEnd = none →
    Completes (.openModelSetWindow i bad) s fun t => Fired s t i ∧ t.mwinEnd = some (t.now + 5480) ∧
      t.getF F.CAL_MSET_MSET_PEND = 1 ∧ t.dram = s.dram) ∧
  (∀ (s : State) (at_ : Nat), s.mwinEnd = some at_ →
    Completes .modelSetWindowClose s fun t => t.now = max s.now at_ ∧ t.mwinEnd = none ∧
      (∀ p, p < 72 → t.getF (F.CORE_THREAD_MWIN p) = 0 ∧ (t.core p).cbBusy = []) ∧
      SameFields t s (fun f => WithTime f ∨ ∃ p, Among [F.CORE_THREAD_MWIN p] f))

/-- R293: a write of MODE_REQ that names a mode for the power state in force decides a change of schedule where it differs from
MODE_CUR, and is otherwise held; a change that is decided and not yet carried out takes the mode that MODE_REQ now gives.
R294: in the first handover interval that begins after its decision the new schedule is installed, with its almanac; its
steps end 6 µs after the interval's start, and from the next boundary on its first lines come from source 2 or 3. -/
def Obligations.SchedulesChangeAsDecided : Prop :=
  (∀ (s u : State) (v : Word), s.replaying = false → s.getF F.DEV_BOOT_COMPLETE = 1 →
    u = s.setF F.CAL_MODE_MODE_REQ (bits v.toNat 0 3) → u.modeReady = false → s.changeWaits = false →
    Completes (.modeRequest v) s fun t => t.getF F.CAL_MODE_MODE_REQ = bits v.toNat 0 3 ∧ t.getF F.CAL_MODE_MODE_HELD = 1 ∧
      t.change = s.change ∧ t.now = s.now) ∧
  (∀ (s u : State) (v : Word), s.replaying = false → s.getF F.DEV_BOOT_COMPLETE = 1 →
    u = s.setF F.CAL_MODE_MODE_REQ (bits v.toNat 0 3) → u.modeReady = true → u.poweringUp = false → s.cal.running = true →
    bits v.toNat 0 3 ≠ s.getF F.CAL_MODE_MODE_CUR → s.change = none →
    Completes (.modeRequest v) s fun t => t.getF F.CAL_MODE_MODE_REQ = bits v.toNat 0 3 ∧ t.getF F.CAL_MODE_MODE_HELD = 0 ∧
      t.getF F.CAL_MODE_CHANGING = 1 ∧ ∃ c, t.change = some c ∧ c.decidedAt = s.now ∧ c.mode = bits v.toNat 0 3 ∧
        c.installed = false ∧ c.sched = s.prog.schedOf (bits v.toNat 0 3) s.inp.fit.bucket) ∧
  (∀ (s u : State) (v : Word) (c : SchedChange), s.replaying = false → s.getF F.DEV_BOOT_COMPLETE = 1 →
    u = s.setF F.CAL_MODE_MODE_REQ (bits v.toNat 0 3) → s.change = some c → c.installed = false →
    Completes (.modeRequest v) s fun t => t.getF F.CAL_MODE_MODE_REQ = bits v.toNat 0 3 ∧ t.now = s.now ∧
      ∃ k, t.change = some k ∧ k.decidedAt = c.decidedAt ∧ k.installed = false ∧ k.mode = u.targetMode ∧
        k.sched = s.prog.schedOf u.targetMode s.inp.fit.bucket) ∧
  (∀ (s : State) (c : SchedChange) (at_ v : Nat), s.change = some c → c.installed = false → s.interval = some at_ →
    c.decidedAt < at_ → s.cal.vTot = some v →
    Completes .scheduleChange s fun t => t.sched = s.prog.scheds.getD c.sched {} ∧ t.almanac = t.sched.almanac ∧
      t.change = some { c with installed := true } ∧ t.noBase1 = true ∧ t.signals = [] ∧ t.remotes = [] ∧
      (∃ e, t.firstLines = some ((s.cal.frame + 1) % 2 ^ 32, e)) ∧ at_ + usCycles 6 ≤ t.now ∧ t.prog = s.prog)

/-- R317, R329: a warp unit writes its row, ⌈W/16⌉ fabric cycles after it could begin, into an empty slot, which it marks
present, and its wait for the slot counts; it waits at a slot that is not empty and in a band that a snapshot stops. R323,
R326: the box unit runs once every core has drained the detection run, for at least the latency of its reads; its outputs
are finished when its run time has passed; then LAST_BOXES, LAST_CANDS and CYC show its counts. -/
def Obligations.WarpAndBoxUnitsWriteTheirRows : Prop :=
  (∀ (s : State) (b : Nat) (w : WarpSt) (q : FrameCtx) (r : Prn), isBand b = true → s.warp[b]? = some w → w.ctx = some q →
    r = s.bprn b s.sched.rt.warpPrn → s.sched.rt.lag ≠ 0 → r.place = 2 → s.lsReady b r w.next = true → s.bandStopped b = false →
    (r.cons ≠ 0 ∨ r.fb = true) →
    Completes (.warpRowWrite b) s fun t => t.now = max s.now w.free + ceilDiv r.pw 16 ∧
      t.slot b (r.slotAddr w.next) = ⟨true, w.next, r.cons, r.fb, t.now, 0⟩ ∧
      ∃ x, t.warp[b]? = some x ∧ x.wait = w.wait + s.warpWaited b ∧ (w.next + 1 ≠ r.ph → x.next = w.next + 1 ∧ x.ctx = some q) ∧ (w.next + 1 = r.ph → x.next = 0)) ∧
  (∀ (s : State) (b : Nat) (w : WarpSt) (q : FrameCtx) (r : Prn), isBand b = true → s.warp[b]? = some w → w.ctx = some q →
    r = s.bprn b s.sched.rt.warpPrn → s.sched.rt.lag ≠ 0 → r.place = 2 → s.lsReady b r w.next = false ∨ s.bandStopped b = true →
    Completes (.warpRowWrite b) s fun t => SameBut t s []) ∧
  (∀ (s : State) (latency : Nat) (d : DetRec) (r : FcRun), s.sched.det = some d → (s.fc.getD d.clause {}).run = some r →
    r.failed = false → r.boxDone = false → s.box = none → (∀ l, l < s.nCores → r.cores.contains l = true) →
    s.memBad 3 0 (s.prn (s.phys 0) d.headPrn).base (s.prn (s.phys 0) d.headPrn).size = false →
    Completes (.boxUnitRun latency) s fun t => SameBut t s [.box, .regs] ∧
      SameFields t s (Among [F.CORE_ARITH_QNT_BAD_ESC (s.phys 0), F.CORE_ARITH_WIDE_STAGE_SAT (s.phys 0)]) ∧
      ∃ x, t.box = some x ∧ x.clause = d.clause ∧ x.done = s.now + x.cycles ∧ latency ≤ x.cycles ∧ x.cands ≤ 4096) ∧
  (∀ (s : State) (b : BoxRun) (d : DetRec) (r : FcRun), s.box = some b → s.sched.det = some d →
    (s.fc.getD b.clause {}).run = some r → r.failed = false →
    Completes .boxUnitComplete s fun t => t.now = max s.now b.done ∧ t.box = none ∧
      t.getF F.CAL_DET_LAST_BOXES = b.boxes.length % 2 ^ 9 ∧ t.getF F.CAL_DET_LAST_CANDS = b.cands % 2 ^ 13 ∧
      t.getF F.CAL_DET_CYC_CYCLES = b.cycles % 2 ^ 32 ∧ (t.fc.getD b.clause {}).run = some { r with boxDone := true })

/-! ### Drizzle -/

/-- R335: the crops of the frame at the front are taken, and the log of the last 64 frames notes how many crops there are then.
R341: the queued step at the front latches E and D = min(E, 4032) with its number, and begins. R340, R345: the augment unit
counts a core's sample in its step; a gradient operation that meets no fault clears its accumulators, notes its descriptor
as done and counts a cycle a position and 64 more; a thread that is not granted counts as waiting. -/
def Obligations.DrizzleStepsStartAndAdvance : Prop :=
  (∀ (s : State) (g : Grab) (rest : List Grab), s.drz.grabs = g :: rest →
    Completes .cropGrab s fun t => t.drz.grabs = rest ∧ t.drz.log.getLast? = some (g.frame, t.drz.e) ∧ t.drz.log.length ≤ 64 ∧
      (0 < g.cpf → t.drz.e = (s.drz.e + g.cpf) % 2 ^ 44) ∧ SameBut t s [.cores, .bands, .dram, .dramBad, .drz]) ∧
  (∀ (s : State) (b : DrzBind) (q : DrzQ) (rest : List DrzQ) (e : Nat), s.drzBind = some b → s.drz.steps = [] →
    s.drz.queue = q :: rest → s.stepRoom = true → s.stepE q = some e → e ≠ 0 →
    Completes .drizzleStepStart s fun t => t.drz.queue = rest ∧ t.now = s.now ∧
      ∃ st, t.drz.steps = [st] ∧ st.q = q ∧ st.num = s.drzSet.step ∧ st.e = e ∧ st.d = min e 4032 ∧ st.startAt = s.now ∧
        st.ended = []) ∧
  (∀ (s : State) (l : Nat) (b : DrzBind) (st : DrzStep), isLogical l = true → s.drzBind = some b →
    (s.drz.steps.find? fun t => t.selected && !t.ended.contains l) = some st → l < s.nCores → SMap.get 0 st.aug l < b.spc →
    Completes (.augmentSample l) s fun t => t.now = s.now ∧
      ∃ st' ∈ t.drz.steps, st'.num = st.num ∧ SMap.get 0 st'.aug l = SMap.get 0 st.aug l + 1) ∧
  (∀ (s u : State) (p i l : Nat) (w : CoreIn) (b : DrzBind) (st : DrzStep) (g : GradDesc) (d : LayerDesc) (gr : Prn)
      (r : List Int × Cnt × State × Bool), isCore p = true → coreInOk w = true →
    s.logical p = some l → s.drzBind = some b → s.drz.steps.head? = some st → s.gradDescs[i]? = some g → i < b.ngd →
    s.mayIssue p 3 s.cal.line = true → s.threadClause p 3 = s.sched.drzClause → st.ended.contains l = false →
    s.grantsThread p 3 w.rivals = true → u = ((s.awaitUnit p 3 .array).rotate p 3).setThreadState p 3 1 →
    d = u.sched.layer l g.layer → gr = u.prn p g.gPrn →
    r = u.gradRun p d (u.sched.mapRec l d) g (SMap.get default (u.core p).cbs u.drzRec.gSlot) w.ecc →
    besideConflict 0 (fun a => inTensor (u.prn p g.xPrn) a || inTensor gr a) w.beside = none →
    stepFaults false false ([d.inCb, u.drzRec.gSlot].any fun x => (u.core p).cbBusy.any fun y => y.1 == x && decide (u.now < y.2))
      w.store false r.2.2.2 = [] →
    Completes (.gradientOperation p i w) s fun t => t.now = u.now ∧ SMap.get [] (t.core p).acc 3 = [] ∧
      (t.core p).utilFrame = (u.core p).utilFrame + (gr.lh * gr.lw + 64) ∧
      ∃ st' rest, t.drz.steps = st' :: rest ∧ st'.num = st.num ∧ SMap.get [] st'.grads l = i :: SMap.get [] st.grads l) ∧
  (∀ (s : State) (p i l : Nat) (w : CoreIn) (b : DrzBind) (st : DrzStep) (g : GradDesc), isCore p = true → coreInOk w = true →
    s.logical p = some l → s.drzBind = some b → s.drz.steps.head? = some st → s.gradDescs[i]? = some g → i < b.ngd →
    s.mayIssue p 3 s.cal.line = true → s.threadClause p 3 = s.sched.drzClause → st.ended.contains l = false →
    s.grantsThread p 3 w.rivals = false →
    Completes (.gradientOperation p i w) s fun t => SameBut t s [.regs, .cores] ∧
      SameFields t s (Among [F.CORE_THREAD_STATE p]) ∧ (t.core p).utilWait = (s.core p).utilWait + 1)

/-- R343, R348: a core ends the clause once all its gradients are written and it has drained; when every core has, the update
takes T(64 N + 256) cycles and its reads' latency, and the other copy of the state becomes current. R351: the pages of a due
commit are generated into the free page buffer, which takes 40 + 4 T cycles and the latency of the pages; then every core
writes them, and when the last write has completed the commit is ready. -/
def Obligations.DrizzleStepsEndAndCommit : Prop :=
  (∀ (s : State) (p l : Nat) (sems : List Nat) (b : DrzBind) (st : DrzStep), isCore p = true → sems.all isSem = true →
    s.logical p = some l → s.drzBind = some b → s.drz.steps.head? = some st → s.threadClause p 3 = s.sched.drzClause →
    s.threadClause p 3 ≠ none → s.drained p 3 [] = true → st.ended.contains l = false →
    (∀ i, i < b.ngd → (SMap.get [] st.grads l).contains i = true) →
    Completes (.drizzleClauseEnd p sems) s fun t => t.now = max s.now (drainEnd (s.core p) (s.clock p) 3) ∧
      ∃ st' rest, t.drz.steps = st' :: rest ∧ st'.num = st.num ∧ st'.ended = l :: st.ended) ∧
  (∀ (s : State) (latency : Nat) (b : DrzBind) (st : DrzStep) (later : List DrzStep), s.drzBind = some b →
    s.drz.steps = st :: later → s.nCores ≤ st.ended.length →
    Completes (.drizzleUpdateComplete latency) s fun t => t.now = s.now + s.drzT * (64 * s.nCores + 256) + latency ∧
      t.drz.steps = later ∧ t.drzSet.cur = 1 - s.drzSet.cur ∧
      t.getF F.DRZ_STEP_CYC_STEP_CYC = (t.now - st.startAt) % 2 ^ 32) ∧
  (∀ (s : State) (latency : Nat) (c : DrzCommit), s.drz.commit = some c → c.buf = none → s.drz.reset = false →
    s.drz.switched = false → (s.drz.steps.any fun t => t.q.buf == 1 - s.drzSet.buf && t.q.version != s.drzSet.version) = false →
    Completes (.commitPageGeneration latency) s fun t => t.now = s.now ∧
      ∃ d, t.drz.commit = some { c with buf := some (1 - s.drzSet.buf), done := d, tainted := s.drzSet.taint } ∧
        s.now + latency + 40 + 4 * s.drzT ≤ d) ∧
  (∀ (s : State) (c : DrzCommit), s.drz.commit = some c → c.buf ≠ none → c.ready = false →
    Completes .commitReady s fun t =>
      t.now = max (max s.now c.done) ((s.waitUntil c.done).writeInactive c.live).writesEnd ∧
      t.drz = { s.drz with commit := some { c with ready := true } } ∧
      SameBut t s [.now, .cal, .regs, .cores, .bands, .drz] ∧ SameFields t s WithTime)

/-- R353: writes of EN set and clear it and change nothing else; a write of RESET abandons the steps and drops the commit, keeps
the queue, and waits for its boundary. -/
def Obligations.DrizzleIsEnabledDisabledAndReset : Prop :=
  (∀ s : State, s.replaying = false → bit (s.word 0xC0000) 1 = false →
    Completes .drizzleEnable s fun t => t.getF F.DRZ_CTRL_EN = 1 ∧ SameBut t s [.regs, .aud]) ∧
  (∀ s : State, s.replaying = false → bit (s.word 0xC0000) 1 = false →
    Completes .drizzleDisable s fun t => t.getF F.DRZ_CTRL_EN = 0 ∧ SameBut t s [.regs, .aud]) ∧
  (∀ s : State, s.replaying = false → bit (s.word 0xC0000) 1 = false →
    Completes .drizzleReset s fun t => t.drz.reset = true ∧ t.drz.commit = none ∧ (s.drzT ≠ 0 → t.drz.steps = []) ∧ t.drz.queue = s.drz.queue ∧
      t.now = s.now)

/-! ### Sensors -/

/-- R365, R366: where the bus is enabled each target has the dynamic address 0x08 + i, or keeps its static one on I2C, and reads
are timed from here. R367, R368: a sensor's read falls due i × 10 µs plus its periods after that and is made once the bus is
free; it shows its value, with the time of the repeated START, or counts a NACK or a bus error at the end of its transfer. A
read that the bus keeps waiting for a whole period is not made and counts as a NACK; in Doldrums no read is made; a read
that is not the next in order changes nothing (log entry 94). R368: every 100 µs the diodes, the input power and the core
rail are sampled; R516's mean over a millisecond is taken after ten samples. -/
def Obligations.SamplesAreTaken : Prop :=
  (∀ s : State, s.getF F.SNS_CFG_EN ≠ 0 →
    Completes .i3cAddressAssignment s fun t => SameBut t s [.sns] ∧ t.sns.assigned = some s.now ∧ t.sns.k = List.replicate 8 0 ∧
      t.sns.last = none ∧ t.sns.samples = s.sns.samples ∧ ∀ i, i < 8 → s.sensorKind i ≠ 0 → SMap.get 0 t.sns.addrs i =
        if s.sensorI2c i then bits (byteAt (s.sensorEntry i) 0) 0 7 else 0x08 + i) ∧
  (∀ s : State, s.getF F.SNS_CFG_EN = 0 → Completes .i3cAddressAssignment s fun t => SameBut t s []) ∧
  (∀ (s : State) (i t0 : Nat) (bs : List Byte) (x : BusXfer), readsNext s i t0 → s.pstate ≠ 2 →
    s.busFree < s.sensorDue t0 i + s.sensorPeriod i → x = s.busXfer i (max (s.sensorDue t0 i) s.busFree) none →
    Completes (.sensorRead i (.data bs)) s fun t => t.now = max s.now x.stop ∧ t.sns.last = some x ∧
      t.sns.k = s.sns.k.modify i (· + 1) ∧ t.getF (F.SNS_RAW_RAW i) = unsext 32 (sensorRaw (s.sensorEntry i) bs) % 2 ^ 32 ∧
      t.getF (F.SNS_TS_LO_TS_LO i) = x.again % 2 ^ 32 ∧ bit (t.getF F.SNS_STATUS_PRESENT) i = true ∧
      t.getF F.SNS_ERR_NACKS = s.getF F.SNS_ERR_NACKS) ∧
  (∀ (s : State) (i t0 : Nat), readsNext s i t0 → s.pstate ≠ 2 → s.busFree < s.sensorDue t0 i + s.sensorPeriod i →
    (Completes (.sensorRead i .nack) s fun t => t.getF F.SNS_ERR_NACKS = satAdd 16 (s.getF F.SNS_ERR_NACKS) 1 ∧
      bit (t.getF F.SNS_STATUS_PRESENT) i = false ∧ t.getF (F.SNS_RAW_RAW i) = s.getF (F.SNS_RAW_RAW i) ∧
      ∃ n x, x = s.busXfer i (max (s.sensorDue t0 i) s.busFree) (some n) ∧ 1 ≤ n ∧ t.now = max s.now x.stop ∧ t.sns.last = some x) ∧
    Completes (.sensorRead i .busErr) s fun t => t.getF F.SNS_ERR_BUS_ERR = satAdd 16 (s.getF F.SNS_ERR_BUS_ERR) 1 ∧
      t.getF (F.SNS_RAW_RAW i) = s.getF (F.SNS_RAW_RAW i) ∧
      ∃ n x, x = s.busXfer i (max (s.sensorDue t0 i) s.busFree) (some n) ∧ 1 ≤ n ∧ t.now = max s.now x.stop ∧ t.sns.last = some x) ∧
  (∀ (s : State) (i t0 : Nat) (r : I3cResult), readsNext s i t0 → s.pstate ≠ 2 →
    s.sensorDue t0 i + s.sensorPeriod i ≤ s.busFree →
    Completes (.sensorRead i r) s fun t => t.getF F.SNS_ERR_NACKS = satAdd 16 (s.getF F.SNS_ERR_NACKS) 1 ∧
      t.now = max s.now (s.sensorDue t0 i + s.sensorPeriod i) ∧ t.sns = { s.sns with k := s.sns.k.modify i (· + 1) }) ∧
  (∀ (s : State) (i t0 : Nat) (r : I3cResult), readsNext s i t0 → s.pstate = 2 →
    Completes (.sensorRead i r) s fun t => t.now = max s.now (s.sensorDue t0 i) ∧
      t.sns = { s.sns with k := s.sns.k.modify i (· + 1) } ∧ SameFields t s WithTime) ∧
  (∀ (s : State) (i t0 : Nat) (r : I3cResult), i < 8 → s.sns.assigned = some t0 → s.readsFirst t0 i = false →
    Completes (.sensorRead i r) s fun t => SameBut t s []) ∧
  (∀ (s : State) (temps : List Int) (v12 i12 vcore : Nat), temps.length = 10 → temps.all isTemp = true → isMilli v12 = true →
    isMilli i12 = true → isMilli vcore = true →
    Completes (.internalSample temps v12 i12 vcore) s fun t => t.now = max s.now s.pwr.sampleDue ∧
      t.pwr.sampleDue = s.pwr.sampleDue + usCycles 100 ∧ t.getF F.PWR_IN_V12 = v12 ∧ t.getF F.PWR_IN_I12 = i12 ∧
      t.getF F.PWR_VCORE_VCORE = vcore ∧
      (s.pwr.msCount = 9 → t.pwr.msCount = 0 ∧ t.pwr.msPower = 0 ∧ (600000000 < s.pwr.msPower + v12 * i12 →
        t.getF F.PWR_INPWR_HIGH = satAdd 16 (s.getF F.PWR_INPWR_HIGH) 1)) ∧
      (s.pwr.msCount ≠ 9 → t.pwr.msCount = s.pwr.msCount + 1 ∧ t.pwr.msPower = s.pwr.msPower + v12 * i12))

/-! ### Panel link -/

/-- R394, R397: inside a line packet the block times go out in order, up to the one that the command names or the first after it. In a
block time a data stripe is sent once all its bytes are present, FILL where they are not, and after the last data stripe the packet's CRC
stripe ends it. -/
def Obligations.StripesAreSentOrFilled : Prop :=
  (∀ (s : State) (x : Nat) (k : Packet), s.pnl.pkt = some k → s.pnlState = 2 →
    Completes (.dataStripeSend x) s fun t => t.pnl.block = s.blockFrom (max x (100 * s.now)) + 1 ∧
      t.now = max s.now (s.blockStart (s.blockFrom (max x (100 * s.now))) / 100)) ∧
  (∀ (s : State) (x : Nat) (k : Packet), s.pnl.pkt = some k → s.pnlState = 2 → s.blockFrom (max x (100 * s.now)) = s.pnl.block →
    stripeCount s.pfmt (s.modeOf k.frame).w s.lanes ≤ k.next →
    Completes (.dataStripeSend x) s fun t => t.pnl.pkt = none ∧ t.pnl.fills = s.pnl.fills ∧
      t.pnl.sent = [{ ctlStripe 0x55 0 s.lanes (fun q => toLe 4 (k.crcs.getD q 0 ^^^ 0xFFFFFFFF)) with at_ := s.pnl.block }]) ∧
  (∀ (s : State) (x : Nat) (k : Packet), s.pnl.pkt = some k → s.pnlState = 2 → s.blockFrom (max x (100 * s.now)) = s.pnl.block →
    k.next < stripeCount s.pfmt (s.modeOf k.frame).w s.lanes →
    (s.cmp.lines.find? fun c => c.frame == k.frame && c.y == k.y) = none →
    Completes (.dataStripeSend x) s fun t => t.pnl.pkt = some k ∧ t.pnl.fills = s.pnl.fills + 1 ∧
      t.pnl.sent = [{ ctlStripe 0x2D 0 s.lanes (fun _ => []) with at_ := s.pnl.block }]) ∧
  (∀ (s : State) (x : Nat) (k : Packet) (c : CompLine), s.pnl.pkt = some k → s.pnlState = 2 →
    s.blockFrom (max x (100 * s.now)) = s.pnl.block → k.next < stripeCount s.pfmt (s.modeOf k.frame).w s.lanes →
    (s.cmp.lines.find? fun c => c.frame == k.frame && c.y == k.y) = some c →
    100 * (c.start + 6 + ceilDiv (min (s.modeOf k.frame).w (ceilDiv (8 * min (payloadLen s.pfmt (s.modeOf k.frame).w)
      (8 * s.lanes * (k.next + 1))) (3 * pfmtBits s.pfmt))) 8) ≤ s.blockStart s.pnl.block →
    Completes (.dataStripeSend x) s fun t => (∃ q, t.pnl.pkt = some q ∧ q.next = k.next + 1 ∧ q.frame = k.frame ∧ q.y = k.y) ∧
      t.pnl.sent = [{ dataStripe s.lanes k.next (payload s.pfmt c.px) with at_ := s.pnl.block }] ∧ t.pnl.fills = s.pnl.fills)

/-- R404: training starts from idle, runs once the panel has been ready for 10 µs, 50 µs after time 0 at the earliest, and is
given up 10 ms after it started, for 100 µs; R405: a panel that is no longer ready retrains, which counts unless a
retraining of the same cycle has counted. R405, R407: a write of RETRAIN restarts training and counts; EN set starts it from
electrical idle, and in safe idle of cause 2 has it start when the SAFE sequence ends; EN cleared puts the lanes into safe
idle, with cause 2, and the SAFE sequence ends 64 block times after the one in progress. -/
def Obligations.PanelTrainsRetrainsAndIsMadeSafe : Prop :=
  (∀ s : State, s.mayTrain = true → s.pnlState = 0 ∨ s.pnlState = 4 →
    Completes .trainingStart s fun t => TrainingBegins s t ∧
      t.now = (if s.pnlState = 0 then s.now else max s.now s.pnl.idleTo)) ∧
  (∀ s : State, s.pnlState = 1 → max s.now s.runFrom < s.pnl.trainAt + msCycles 10 →
    Completes .panelLinkRunning s fun t => t.now = max s.now s.runFrom ∧ s.pnl.trainAt + usCycles 50 ≤ t.now ∧
      (∀ low, s.pnl.lowAt = some low → low + usCycles 10 ≤ t.now) ∧ t.getF F.PNL_STATUS_STATE = 2 ∧
      t.getF F.PNL_STATUS_RDY = 1 ∧ t.pnl.pkt = none ∧ t.pnl.sync = 0) ∧
  (∀ s : State, s.pnlState = 1 →
    Completes .trainingTimeout s fun t => t.now = max s.now (s.pnl.trainAt + msCycles 10) ∧ t.getF F.PNL_STATUS_STATE = 4 ∧
      t.getF F.PNL_CNT_TRAIN_FAIL = satAdd 16 (s.getF F.PNL_CNT_TRAIN_FAIL) 1 ∧ t.pnl.idleTo = t.now + usCycles 100) ∧
  (∀ s : State, s.pnlState = 2 → (∀ n, s.pnl.retrained ≠ some (s.now, n)) →
    Completes .panelRdyLow s fun t => TrainingBegins s t ∧ t.getF F.PNL_STATUS_RDY = 0 ∧ t.pnl.lowAt = some s.now ∧
      t.getF F.PNL_CNT_RETRAINS = satAdd 16 (s.getF F.PNL_CNT_RETRAINS) 1 ∧ SameBut t s [.regs, .pnl]) ∧
  (∀ s : State, s.pnlState ≠ 2 → Completes .panelRdyLow s fun t => SameBut t s [.regs, .pnl] ∧ t.getF F.PNL_STATUS_RDY = 0 ∧
    t.pnl = { s.pnl with lowAt := some s.now } ∧ SameFields t s (Among [F.PNL_STATUS_RDY])) ∧
  (∀ s : State, s.replaying = false → s.getF F.DEV_BOOT_COMPLETE = 1 → bit (s.word 0x40004) 0 = true →
    bit (s.word 0x40004) 1 = false → s.pnlState = 1 ∨ s.pnlState = 2 → (∀ n, s.pnl.retrained ≠ some (s.now, n)) →
    Completes .panelRetrain s fun t => TrainingBegins s t ∧ t.now = s.now ∧
      t.getF F.PNL_CNT_RETRAINS = satAdd 16 (s.getF F.PNL_CNT_RETRAINS) 1) ∧
  (∀ s : State, s.replaying = false → s.getF F.DEV_BOOT_COMPLETE = 1 → s.pnlState = 0 →
    Completes .panelEnSet s fun t => TrainingBegins s t ∧ t.getF F.PNL_CTRL_EN = 1 ∧ t.now = s.now) ∧
  (∀ s : State, s.replaying = false → s.getF F.DEV_BOOT_COMPLETE = 1 → s.pnlState = 3 → s.getF F.PNL_STATUS_SAFE_CAUSE = 2 →
    s.pnl.safeTo ≠ none → s.pstate ≠ 2 →
    Completes .panelEnSet s fun t => t.getF F.PNL_CTRL_EN = 1 ∧ t.getF F.PNL_STATUS_STATE = 3 ∧ t.pnl.resume = true) ∧
  (∀ s : State, s.replaying = false → s.getF F.DEV_BOOT_COMPLETE = 1 → s.getF F.PNL_CTRL_EN = 1 → s.pnlState ≠ 3 →
    Completes .panelEnClear s fun t => t.getF F.PNL_CTRL_EN = 0 ∧ t.getF F.PNL_STATUS_STATE = 3 ∧
      t.getF F.PNL_STATUS_SAFE_CAUSE = 2 ∧ t.pnl.pkt = none ∧ t.now = s.now ∧
      ∃ b, t.pnl.block = b + 64 ∧ 100 * s.now ≤ t.blockStart b ∧ t.pnl.safeTo = some (ceilDiv (t.blockStart (b + 64)) 100)) ∧
  (∀ (s : State) (at_ : Nat), s.pnl.safeTo = some at_ → s.pnl.resume = true →
    Completes .safeSequenceEnd s fun t => TrainingBegins s t ∧ t.now = max s.now at_) ∧
  (∀ (s : State) (at_ : Nat), s.pnl.safeTo = some at_ → s.pnl.resume = false →
    Completes .safeSequenceEnd s fun t => t.now = max s.now at_ ∧ t.pnl = { s.pnl.newEvent s.lanes with safeTo := none } ∧
      SameFields t s WithTime)

/-! ### DRAM -/

/-- R426: a port's lottery. A draw is made only between two or more members; it steps the LFSR once (R427), and the winner is
the member whose cumulative tickets, by rising number, first exceed the pick. -/
def Obligations.LotteryFollowsTickets : Prop :=
  (∀ (tk : Nat → Nat) (parked : Option Nat) (lfsr : Nat) (a : PortAsk), chooseWinner tk parked lfsr [a] = (some a.q, lfsr)) ∧
  (∀ (tk : Nat → Nat) (parked : Option Nat) (lfsr : Nat) (a b : PortAsk) (e : List PortAsk) (qs : List Nat) (sum : Nat),
    qs = (List.range 32).filter (fun q => (a :: b :: e).any fun x => x.q == q) → sum = (qs.map tk).sum → 0 < sum →
    ∃ q pre post, chooseWinner tk parked lfsr (a :: b :: e) = (some q, lfsrStep lfsr) ∧ qs = pre ++ q :: post ∧
      (pre.map tk).sum ≤ lfsrStep lfsr % 65536 * sum / 65536 ∧
      lfsrStep lfsr % 65536 * sum / 65536 < (pre.map tk).sum + tk q)

/-- R414, R415: a channel serves one queued access in its next command slot: none with an earlier access to its block in the
queue, and in an ordinary slot one of the lowest tier among those that may be served; a maintenance slot serves a host's access
first. An access that a port has kept may take the place in the queue. -/
def Obligations.ChannelsServeInOrder : Prop :=
  ∀ (s : State) (ch slot : Nat) (w : EccIn), isChan ch = true → s.dramUp = true → (s.chan ch).queue ≠ [] →
    slot = s.accessSlot ch →
    Completes (.dramAccess ch w) s fun t => t.now = max s.now (slotCycle slot) ∧ t.dram = s.dram ∧
      ∃ a pre post late, (s.chan ch).queue = pre ++ a :: post ∧ (t.chan ch).queue = pre ++ post ++ late ∧ late.length ≤ 1 ∧
        (∀ x ∈ pre, x.off / 64 ≠ a.off / 64) ∧
        (slot % 32 ≠ 31 → ∀ x ∈ permitted [] (s.chan ch).queue, tierOf a.port a.q ≤ tierOf x.port x.q) ∧
        (slot % 32 = 31 → (∃ x ∈ permitted [] (s.chan ch).queue, x.host = true) → a.host = true) ∧
        SMap.get none (t.chan ch).openRow (dramBank a.off) = some (dramRow a.off) ∧ slot < (t.chan ch).slot

/-- R415, R418: refresh, patrol scrub and its write-back take maintenance slots, those whose number mod 32 is 31; patrol reads
the next block in address order, and the one after it 100 µs later. R419, R417: the row at the head of the queue is copied
to a spare of its bank in 7680 cycles, with a ledger record, and leaves the queue, whatever errors its reads meet (the
model's free value, log entry 2); a row whose bank has no spare left leaves it at once and counts NO_SPARE (no row having
been refused by a full queue). A read of a block that returns uncorrectable beats counts UNCORR once, marks those beats and
queues its row. -/
def Obligations.MaintenanceScrubsAndMapsOut : Prop :=
  (∀ (s : State) (ch : Nat), isChan ch = true → s.dramUp = true →
    Completes (.refresh ch) s fun t => ∃ k, k % 32 = 31 ∧ max (s.chan ch).slot (slotAt s.now) ≤ k ∧
      k < max (s.chan ch).slot (slotAt s.now) + 32 ∧ t.now = max s.now (slotCycle k) ∧
      t.chan ch = { s.chan ch with slot := k + 1, refreshed := ((s.chan ch).refreshed + 1) % 65536 }) ∧
  (∀ (s : State) (ch b : Nat), isChan ch = true → s.dramUp = true → s.getF F.DEV_HOTPLUG_WSTOP ≠ 1 → (s.chan ch).wb = some b →
    Completes (.scrubWriteback ch) s fun t => ∃ k, k % 32 = 31 ∧ max (s.chan ch).slot (slotAt s.now) ≤ k ∧
      t.now = max s.now (slotCycle k) ∧ t.chan ch = { s.chan ch with slot := k + 1, wb := none } ∧ t.dram = s.dram) ∧
  (∀ (s : State) (ch : Nat) (w : EccIn), isChan ch = true → s.dramUp = true → s.getF F.DRM_CFG_SCRUB_EN ≠ 0 →
    Completes (.patrolScrubRead ch w) s fun t => max s.now (s.chan ch).scrubDue ≤ t.now ∧
      (t.chan ch).scrub = ((s.chan ch).scrub + 1) % 2097152 ∧ (t.chan ch).scrubDue = max s.now (s.chan ch).scrubDue + usCycles 100 ∧
      (∀ o, (t.chan ch).wb = some o → o = dramBlock ch (s.chan ch).scrub) ∧ t.dram = s.dram) ∧
  (∀ (s : State) (ch : Nat) (w : EccIn), isChan ch = true → (s.dramUp = false ∨ s.getF F.DRM_CFG_SCRUB_EN = 0) →
    Completes (.patrolScrubRead ch w) s fun t => SameBut t s []) ∧
  (∀ (s : State) (row : Nat) (rest : List Nat), s.drm.mapQ = row :: rest → s.dramUp = true → s.getF F.DEV_HOTPLUG_WSTOP ≠ 1 →
    (s.drm.mapped.filter fun r => r / 4096 == row / 4096).length < 8 → s.led.queue.length < 64 →
    Completes .dramRowMapOut s fun t => t.now = max s.now (s.drm.mapFrom + 7680) ∧ (∃ more, t.drm.mapQ = rest ++ more) ∧
      t.drm.mapped = s.drm.mapped ++ [row] ∧ t.dram = s.dram ∧
      t.getF F.DRM_MAP_FIELD_MAPPED = satAdd F.DRM_MAP_FIELD_MAPPED.w (s.getF F.DRM_MAP_FIELD_MAPPED) 1 ∧
      ∃ x, t.led.queue = s.led.queue ++ [x]) ∧
  (∀ (s : State) (row : Nat) (rest : List Nat), s.drm.mapQ = row :: rest →
    s.dramUp = true → s.getF F.DEV_HOTPLUG_WSTOP ≠ 1 →
    8 ≤ (s.drm.mapped.filter fun r => r / 4096 == row / 4096).length → s.drm.refused = [] →
    Completes .dramRowMapOut s fun t => t.now = s.now ∧ t.drm.mapQ = rest ∧ t.drm.mapped = s.drm.mapped ∧ t.led = s.led ∧
      t.getF F.DRM_MAP_NO_SPARE = satAdd F.DRM_MAP_NO_SPARE.w (s.getF F.DRM_MAP_NO_SPARE) 1) ∧
  (∀ (s : State) (b : Nat) (ws : List Nat),
    (s.dramUncorr b ws).getF F.DRM_ECC_UNCORR = satAdd F.DRM_ECC_UNCORR.w (s.getF F.DRM_ECC_UNCORR) 1 ∧
    (∀ w ∈ ws, SMap.get 0 (s.dramUncorr b ws).dramBad w = 1) ∧
    (s.drm.mapQ.length < 8 → dramRowId (64 * b) ∈ (s.dramUncorr b ws).drm.mapQ))

/-! ### Records, recording and replay -/

/-- R448: the writer writes the oldest complete record to its slot and REC_LAST takes its frame; nothing else in DRAM changes.
R452: the oldest buffered entry goes to the log, where that lies outside every region but kind 0 and no entry was lost; one that
does not fit in a log that does not wrap stops recording. -/
def Obligations.RecordsAndLogEntriesAreWritten : Prop :=
  (∀ (s : State) (r q : FrameRec) (rest : List FrameRec) (bs : List Byte), s.aud.recQ = r :: rest → q = s.recDigests r →
    q.inA ≠ none → q.inB ≠ none → q.vt ≠ none → s.getF F.DEV_HOTPLUG_WSTOP ≠ 1 → bs = q.bytes s.prog.digest →
    Completes .frameRecordWrite s fun t => t.aud.recQ = rest.map s.recDigests ∧ t.now = s.now ∧
      t.getF F.AUD_REC_LAST_REC_LAST = q.frame % 2 ^ 32 ∧ readB t.dram (s.recSlot q.frame) bs.length = bs ∧
      (∀ a, a < s.recSlot q.frame ∨ s.recSlot q.frame + bs.length ≤ a → SMap.get 0 t.dram a = SMap.get 0 s.dram a) ∧
      SameFields t s (Among [F.AUD_REC_LAST_REC_LAST])) ∧
  (∀ (s : State) (e : LogEnt) (rest : List LogEnt) (z n size base p : Nat), s.aud.buf = e :: rest → s.aud.zero = some z →
    n = logBytes e.payload.length → size = s.getF F.AUD_LOG_SIZE_SIZE * 0x200000 →
    base = (s.getF F.AUD_LOG_BASE_LO_BASE_LO / 0x200000 * 0x200000 + 2 ^ 32 * s.getF F.AUD_LOG_BASE_HI_BASE_HI) - dramBase →
    n ≤ size → (s.aud.ptr + n ≤ size ∧ p = s.aud.ptr ∨ size < s.aud.ptr + n ∧ bit s.aud.ctrl 1 = true ∧ p = 0) →
    s.getF F.DEV_HOTPLUG_WSTOP ≠ 1 → s.aud.lostRun = 0 → s.inKind0 (dramBase + base) size = true →
    dramBase ≤ s.getF F.AUD_LOG_BASE_LO_BASE_LO / 0x200000 * 0x200000 + 2 ^ 32 * s.getF F.AUD_LOG_BASE_HI_BASE_HI →
    Completes .logEntryWrite s fun t => t.aud.buf = rest ∧ t.aud.ptr = p + n ∧ t.now = s.now ∧
      readB t.dram (base + p) (e.bytes s.aud.seq z).length = e.bytes s.aud.seq z ∧
      (∀ a, a < base + p ∨ base + p + (e.bytes s.aud.seq z).length ≤ a → SMap.get 0 t.dram a = SMap.get 0 s.dram a)) ∧
  (∀ (s : State) (e : LogEnt) (rest : List LogEnt) (z : Nat), s.aud.buf = e :: rest → s.aud.zero = some z →
    s.getF F.AUD_LOG_SIZE_SIZE * 0x200000 < s.aud.ptr + logBytes e.payload.length → bit s.aud.ctrl 1 = false →
    Completes .logEntryWrite s fun t => t.getF F.AUD_LOG_STATUS_STATE = 2 ∧ t.aud.recording = false ∧ t.dram = s.dram) ∧
  (∀ (s : State) (e : LogEnt), s.aud.lostRun = 0 →
    (s.logPut e).aud.buf = (if s.aud.bufBytes + logBytes e.payload.length ≤ 0x100000 then s.aud.buf ++ [e] else s.aud.buf))

/-- R455: GO refuses a log that fails a test with STATE 4, and frame 0 starts live; otherwise frame 0 starts in the replay, with STATE 2.
R455, R456: the next recorded write is applied in the cycle of its TIME; where that has passed it is applied at once, with a divergence
that counts in LATE. R457: when no recorded write is left the replay ends at the log's end, with STATE 3. -/
def Obligations.ReplaysRunTheirLog : Prop :=
  (∀ s : State, s.aud.replayHold = true → s.replayBad s.replayEntries = true →
    Completes .replayGo s fun t => t.getF F.AUD_REPLAY_STATUS_STATE = 4 ∧ t.aud.replay = s.aud.replay ∧
      t.aud.replayHold = false ∧ t.cal.running = true ∧ t.cal.frame = 0 ∧ t.cal.line = 0 ∧ t.aud.zero = some s.now) ∧
  (∀ s : State, s.aud.replayHold = true → s.replayBad s.replayEntries = false →
    Completes .replayGo s fun t => t.getF F.AUD_REPLAY_STATUS_STATE = 2 ∧ t.aud.replay = true ∧ t.aud.replayHold = false ∧
      t.cal.running = true ∧ t.cal.frame = 0 ∧ t.cal.line = 0) ∧
  (∀ (s : State) (e : ReplayEnt), s.aud.replay = true → (s.aud.replayLog.find? fun e => e.type == 4) = some e →
    Completes .replayWriteApply s fun t => max s.now (s.replayCycle e.time) ≤ t.now ∧
      t.now ≤ max s.now (s.replayCycle e.time) + 1 ∧ t.aud.replayLog = s.aud.replayLog.erase e ∧
      (s.replayCycle e.time < s.now → inAud (leAt e.payload 0 5) = false → t.getF F.AUD_REPLAY_STATUS_DIVERGED = 1 ∧
        t.getF F.AUD_REPLAY_CNT_LATE = satAdd F.AUD_REPLAY_CNT_LATE.w (s.getF F.AUD_REPLAY_CNT_LATE) 1) ∧
      (s.now ≤ s.replayCycle e.time → inAud (leAt e.payload 0 5) = false → t.getF F.AUD_REPLAY_CNT_LATE = s.getF F.AUD_REPLAY_CNT_LATE)) ∧
  (∀ (s u : State) (e : ReplayEnt), s.aud.replay = true → (s.aud.replayLog.find? fun e => e.type == 4) = some e →
    s.now ≤ s.replayCycle e.time → u = s.waitUntil (s.replayCycle e.time) →
    Completes .replayWriteApply s fun t =>
      SameBut t (State.replayWrite { u with aud := { u.aud with replayLog := u.aud.replayLog.erase e } } e) []) ∧
  (∀ s : State, s.aud.replay = true → (s.aud.replayLog.any fun e => e.type == 4) = false →
    Completes .replayEnd s fun t => t.now = max s.now (s.replayCycle s.aud.replayEnd) ∧ t.getF F.AUD_REPLAY_STATUS_STATE = 3 ∧
      t.aud = { s.aud with replay := false, replayLog := [] } ∧ SameBut t s [.now, .cal, .regs, .cores, .bands, .aud])

/-! ### The control link and Terpel -/

/-- R460, R462, R464: the link comes up and goes down; frames that are not accepted are discarded and counted; a request
with a good header joins an empty queue, one with a bad header or an unknown operation is answered at once, and one that finds
the queue full is dropped. -/
def Obligations.FramesAreTakenFromTheLink : Prop :=
  (∀ (s : State) (m : Bool), s.getF F.TPL_LINK_STATE ≠ 2 → s.boot.done.contains 1 = true →
    Completes (.phyLinkUp m) s fun t => t.getF F.TPL_LINK_STATE = 2 ∧ t.getF F.TPL_LINK_MASTER = b2n m ∧ SameBut t s [.regs] ∧
      SameFields t s (Among [F.TPL_LINK_STATE, F.TPL_LINK_MASTER])) ∧
  (∀ (s : State) (m : Bool), s.getF F.TPL_LINK_STATE = 2 →
    Completes (.phyLinkDown m) s fun t => t.getF F.TPL_LINK_STATE = b2n m ∧
      t.getF F.TPL_ERR_LINK_DOWNS = satAdd 8 (s.getF F.TPL_ERR_LINK_DOWNS) 1 ∧ SameBut t s [.regs]) ∧
  (∀ (s : State) (f : List Byte) (fcs : Bool), s.linkUp = true → (fcs = false ∨ openFrame s.mac f = none) →
    Completes (.ethernetFrameRx f fcs) s fun t => t.getF F.TPL_RX_DISCARDED = satAdd 16 (s.getF F.TPL_RX_DISCARDED) 1 ∧
      SameBut t s [.regs] ∧ SameFields t s (Among [F.TPL_RX_DISCARDED])) ∧
  (∀ (s : State) (f mac ip dst pkt m : List Byte) (next port : Nat) (r : Req), s.linkUp = true →
    openFrame s.mac f = some (mac, ip, dst, next, pkt) → askOf s.mac (mac, ip, dst, next, pkt) = some (.datagram port m) →
    r = { mac := mac, ip := ip, port := port, msg := m } → 16 ≤ m.length → m.take 2 = toLe 2 0x5054 →
    Completes (.ethernetFrameRx f true) s fun t => SameBut t s [.regs, .tpl] ∧
      (16 ≤ s.tpl.rx.length → t.tpl = s.tpl ∧ t.getF F.TPL_ERR_RX_DROP = satAdd 8 (s.getF F.TPL_ERR_RX_DROP) 1) ∧
      (s.tpl.rx = [] → r.headerBad = false → opKnown r.op = true → t.tpl = { s.tpl with rx := [r] }) ∧
      (s.tpl.rx = [] → r.headerBad = true → t.tpl.rx = [] ∧ answers s t r none 4 []) ∧
      (s.tpl.rx = [] → r.headerBad = false → opKnown r.op = false → t.tpl.rx = [] ∧ answers s t r none 8 [])) ∧
  (∀ (s : State) (f mac ip dst pkt : List Byte) (next : Nat), s.linkUp = true →
    openFrame s.mac f = some (mac, ip, dst, next, pkt) → askOf s.mac (mac, ip, dst, next, pkt) = some .solicit →
    Completes (.ethernetFrameRx f true) s fun t => t.tpl = { s.tpl with sent := s.tpl.sent ++
      [ipv6Frame mac s.mac (linkLocal s.mac) ip 58 (advertisement s.mac ip)] } ∧ SameBut t s [.tpl])

/-- R467: READ_REG answers COUNT words, read one per fabric cycle, and refuses a misaligned ADDR whole. R468: WRITE_REG
answers one status per entry and the highest of them; an entry that needs a session, outside one, has status DENIED and
no effect. -/
def Obligations.RegistersAreReadAndWritten : Prop :=
  (∀ (s : State) (r : Req) (rest : List Req) (au : Option Accepted) (a n : Nat), served s 1 r rest au → r.len = 8 →
    byteAt r.body 7 = 0 → a = leAt r.body 0 5 → n = leAt r.body 5 2 → 1 ≤ n → n ≤ 256 → a % 4 = 0 →
    Completes .readReg s fun t => ∃ st ws, answers s t r au st (wordsToBytes ws) ∧ ws.length = n ∧ t.now = s.now + (n - 1) ∧
      (n = 1 → s.pstate ≠ 2 → st = ((noted s au).hostRead a).1 ∧ ws = [((noted s au).hostRead a).2.1])) ∧
  (∀ (s : State) (r : Req) (rest : List Req) (au : Option Accepted), served s 1 r rest au → r.len = 8 → byteAt r.body 7 = 0 →
    1 ≤ leAt r.body 5 2 → leAt r.body 5 2 ≤ 256 → leAt r.body 0 5 % 4 ≠ 0 →
    Completes .readReg s fun t => answers s t r au 2 [] ∧ SameBut t s [.regs, .tpl] ∧
      t.getF F.DEV_ACCESS_MISALIGNED = satAdd 16 (s.getF F.DEV_ACCESS_MISALIGNED) 1) ∧
  (∀ (s : State) (r : Req) (rest : List Req) (au : Option Accepted) (n : Nat), served s 2 r rest au → r.len = 12 * n → 1 ≤ n →
    n ≤ 64 → (∀ i < n, leAt (sliceB r.body (12 * i) 12) 5 3 = 0) →
    Completes .writeReg s fun t => ∃ sts : List Nat, sts.length = n ∧ answers s t r au (sts.foldl max 0) (sts.flatMap (toLe 1)) ∧
      s.now + (n - 1) ≤ t.now) ∧
  (∀ (s : State) (r : Req) (rest : List Req), served s 2 r rest none → r.len = 12 → leAt (sliceB r.body 0 12) 5 3 = 0 →
    (privilegedReg (leAt (sliceB r.body 0 12) 0 5) = true ∨ s.getF F.TPL_CFG_STRICT = 1) →
    Completes .writeReg s fun t => answers s t r none 3 (toLe 1 3) ∧ SameBut t s [.regs, .tpl] ∧
      SameFields t s (Among replyCounts)) ∧
  (∀ (s : State) (r : Req) (rest : List Req) (a v : Nat), served s 2 r rest none → r.len = 12 →
    leAt (sliceB r.body 0 12) 5 3 = 0 → a = leAt (sliceB r.body 0 12) 0 5 → v = leAt (sliceB r.body 0 12) 8 4 →
    privilegedReg a = false → s.getF F.TPL_CFG_STRICT ≠ 1 → s.pstate ≠ 2 →
    Completes .writeReg s fun t => answers s t r none (s.hostWrite a v).1 (toLe 1 (s.hostWrite a v).1) ∧
      SameBut t (s.hostWrite a v).2 [.regs, .tpl] ∧ SameFields t (s.hostWrite a v).2 (Among replyCounts))

/-- R14, R15: the write of a field gives an RW field, and an RWL field until boot-complete, the value written, clears the bits of a W1C
field that are written as 1 but for those set in the same cycle, and leaves RO fields, RWL fields after that, and every other field; a
REGISTER_WRITE does so with TPL_CFG and with DEV_ACCESS. R17: one of a register without a writable field is refused and counted. R11: so is
one at an address that is no multiple of 4. R454: while a replay is armed or runs, so is one outside AUD. R137: CLR empties a unit's bins,
but for the elements observed in the cycle of the write. -/
def Obligations.HostWritesFollowTheAccessCodes : Prop :=
  (∀ (s : State) (v : Nat) (f : Fld), (f.acc = .rw ∨ (f.acc = .rwl ∧ s.locked = false)) →
    (State.writeField v s f).getF f = bits v f.lo f.w) ∧
  (∀ (s : State) (v : Nat) (f : Fld), f.acc = .w1c → (State.writeField v s f).getF f =
    (s.getF f - (s.getF f &&& bits v f.lo f.w) ||| (s.regs.eventsIn s.now f &&& bits v f.lo f.w)) % 2 ^ f.w) ∧
  (∀ (s : State) (v : Nat) (f : Fld), (f.acc = .ro ∨ (f.acc = .rwl ∧ s.locked = true)) → State.writeField v s f = s) ∧
  (∀ (s : State) (v : Nat) (f g : Fld), g.key ≠ f.key → (State.writeField v s f).getF g = s.getF g) ∧
  (∀ (s : State) (v : Word), s.replaying = false →
    Completes (.registerWrite 0x70004 v) s fun t => t.getF F.TPL_CFG_SESS_IDLE = bits v.toNat 8 8 ∧ SameBut t s [.regs, .aud] ∧
      SameFields t s (Among [F.TPL_CFG_SESS_IDLE, F.AUD_LOG_CNT_LOST])) ∧
  (∀ (s : State) (v : Word), s.replaying = false → s.getF F.DEV_ACCESS_RO_WRITES < 2 ^ 16 →
    Completes (.registerWrite 0x8 v) s fun t => t.getF F.DEV_ACCESS_RO_WRITES =
        (s.getF F.DEV_ACCESS_RO_WRITES - (s.getF F.DEV_ACCESS_RO_WRITES &&& bits v.toNat 0 16) |||
          (s.regs.eventsIn s.now F.DEV_ACCESS_RO_WRITES &&& bits v.toNat 0 16)) ∧
      SameFields t s (Among [F.DEV_ACCESS_RO_WRITES, F.DEV_ACCESS_MISALIGNED, F.AUD_LOG_CNT_LOST])) ∧
  (∀ (s : State) (v : Word), s.replaying = false →
    Completes (.registerWrite 0x20 v) s fun t => SameBut t s [.regs] ∧ SameFields t s (Among [F.DEV_ACCESS_RO_WRITES]) ∧
      t.getF F.DEV_ACCESS_RO_WRITES = satAdd 16 (s.getF F.DEV_ACCESS_RO_WRITES) 1) ∧
  (∀ (s : State) (a : BitVec 40) (v : Word), a.toNat % 4 ≠ 0 →
    Completes (.registerWrite a v) s fun t => SameBut t s [.regs] ∧ SameFields t s (Among [F.DEV_ACCESS_MISALIGNED]) ∧
      t.getF F.DEV_ACCESS_MISALIGNED = satAdd 16 (s.getF F.DEV_ACCESS_MISALIGNED) 1) ∧
  (∀ (s : State) (a : BitVec 40) (v : Word), a.toNat % 4 = 0 → inAud a.toNat = false → s.replaying = true →
    Completes (.registerWrite a v) s fun t => SameBut t s [.regs] ∧ SameFields t s (Among [F.AUD_REPLAY_STATUS_REFUSED]) ∧
      t.getF F.AUD_REPLAY_STATUS_REFUSED = satAdd 16 (s.getF F.AUD_REPLAY_STATUS_REFUSED) 1) ∧
  (∀ (s : State) (p u : Nat), isCore p = true → u < 4 → s.replaying = false → s.coreHidden p = false →
    (u < 2 ∨ s.drz.on = false) → s.getF (F.CORE_HIST_CFG_EN p u) < 2 → s.getF (F.CORE_HIST_CFG_SNAP p u) < 2 →
    SMap.wf 0 (s.core p).histNow.2 = true →
    Completes (.histogramClear p u) s fun t => t.now = s.now ∧ t.dram = s.dram ∧ ∀ k < 64,
      SMap.get 0 (t.core p).histLive (64 * u + k) =
        (if (s.core p).histNow.1 = s.now + 1 then SMap.get 0 (s.core p).histNow.2 (64 * u + k) else 0) ∧
      SMap.get 0 (t.core p).histRead (64 * u + k) = 0)

/-- R469, R421: READ_MEM answers the bytes of a range that may be read and no uncorrectable word; a range that reaches a kind
that does not allow the access is refused whole. WRITE_MEM writes a range outside every region but kind 0. R470: LOAD_PAGE holds
part 0 and writes the joined page once part 1 matches and its CRC is right. -/
def Obligations.MemoryIsReadAndWritten : Prop :=
  (∀ (s : State) (r : Req) (rest : List Req) (au : Option Accepted) (a n : Nat), served s 3 r rest au → r.len = 8 →
    byteAt r.body 5 = 0 → a = leAt r.body 0 5 → n = leAt r.body 6 2 → 1 ≤ n → n ≤ 1024 → inWindow a n = true →
    Completes .readMem s fun t => SameBut t s [.regs, .tpl] ∧
      ((s.kindsMet (a - dramBase) n).all s.kindReads = true → s.memBad 3 0 (a - dramBase) n = false →
        answers s t r au 0 (readB s.dram (a - dramBase) n)) ∧
      ((s.kindsMet (a - dramBase) n).all s.kindReads = true → s.memBad 3 0 (a - dramBase) n = true → answers s t r au 5 []) ∧
      ((s.kindsMet (a - dramBase) n).all s.kindReads = false → answers s t r au 2 [] ∧
        t.getF F.DRM_HOST_REFUSED = satAdd F.DRM_HOST_REFUSED.w (s.getF F.DRM_HOST_REFUSED) 1)) ∧
  (∀ (s : State) (r : Req) (rest : List Req) (au : Option Accepted) (a n : Nat) (bs : List Byte), served s 4 r rest au →
    a = leAt r.body 0 5 → n = leAt r.body 6 2 → r.len = 8 + n → byteAt r.body 5 = 0 → 1 ≤ n → n ≤ 1024 → bs = r.body.drop 8 →
    inWindow a bs.length = true → s.aud.replay = false → s.getF F.DEV_HOTPLUG_WSTOP ≠ 1 →
    Completes .writeMem s fun t => t.now = s.now ∧
      ((∀ k ∈ s.kindsMet (a - dramBase) bs.length, k = 0) → answers s t r au 0 [] ∧ readB t.dram (a - dramBase) bs.length = bs ∧
        ∀ x, x < a - dramBase ∨ a - dramBase + bs.length ≤ x → SMap.get 0 t.dram x = SMap.get 0 s.dram x) ∧
      (¬ (∀ k ∈ s.kindsMet (a - dramBase) bs.length, k = 0) → answers s t r au 2 [] ∧ t.dram = s.dram)) ∧
  (∀ (s : State) (r : Req) (rest : List Req) (au : Option Accepted) (page : Nat), served s 5 r rest au → r.len = 1040 →
    page = leAt r.body 0 5 → leAt r.body 12 4 = 0 → page % 2048 = 0 → inWindow page 2048 = true →
    s.pageOk (page - dramBase) = true → s.replaying = false → byteAt r.body 5 = 0 → leAt r.body 8 4 = 0 →
    Completes .loadPage s fun t => answers s t r au 0 [] ∧ t.dram = s.dram ∧
      t.tpl.part = some (page, leAt r.body 6 2, r.body.drop 16)) ∧
  (∀ (s : State) (r : Req) (rest : List Req) (au : Option Accepted) (page : Nat) (d bs : List Byte), served s 5 r rest au →
    r.len = 1040 → page = leAt r.body 0 5 → leAt r.body 12 4 = 0 → page % 2048 = 0 → inWindow page 2048 = true →
    s.pageOk (page - dramBase) = true → s.replaying = false → byteAt r.body 5 = 1 →
    s.tpl.part = some (page, leAt r.body 6 2, d) → bs = d ++ r.body.drop 16 → s.getF F.DEV_HOTPLUG_WSTOP ≠ 1 →
    Completes .loadPage s fun t => t.tpl.part = none ∧
      (crc32 bs = leAt r.body 8 4 → answers s t r au 0 [] ∧ readB t.dram (page - dramBase) bs.length = bs ∧
        ∀ x, x < page - dramBase ∨ page - dramBase + bs.length ≤ x → SMap.get 0 t.dram x = SMap.get 0 s.dram x) ∧
      (crc32 bs ≠ leAt r.body 8 4 → answers s t r au 5 [] ∧ t.dram = s.dram))

/-- R473, R471, R472, R475: IDENT, STATUS and RECORDS answer at once what they sample, with status ABSENT where no record is
there; a STATUS with BOUNDARY waits; ATTEST signs its message with the identity key. -/
def Obligations.IdentityStatusAndRecordsAreReported : Prop :=
  (∀ (s : State) (r : Req) (rest : List Req) (au : Option Accepted), served s 0 r rest au → r.len = 0 →
    Completes .ident s fun t => SameBut t s [.regs, .tpl] ∧ answers s t r au 0 (toLe 4 (s.word 0) ++ s.serial ++ padTo 6 s.mac ++
      toLe 1 (b2n s.boot.verified + 2 * s.getF F.DEV_BOOT_COMPLETE) ++ toLe 1 0 ++ s.imageDigest ++
      ecBytes (ecPublic s.identity) ++ padTo 96 s.boot.fuses.mfgSig)) ∧
  (∀ (s : State) (r : Req) (rest : List Req) (au : Option Accepted), served s 8 r rest au → r.len = 1 → byteAt r.body 0 < 4 →
    Completes .status s fun t => SameBut t s [.regs, .tpl] ∧
      (bit (byteAt r.body 0) 0 = false → answers s t r au 0 ((noted s au).statusBlock (bit (byteAt r.body 0) 1))) ∧
      (bit (byteAt r.body 0) 0 = true → t.tpl.waiting = true ∧ t.tpl.sent = s.tpl.sent ∧ t.tpl.rx = s.tpl.rx)) ∧
  (∀ (s : State) (r : Req) (rest : List Req) (au : Option Accepted) (n : Nat) (fs : List Nat), served s 9 r rest au → r.len = 8 →
    n = byteAt r.body 4 → 1 ≤ n → n ≤ 3 → leAt r.body 5 3 = 0 →
    fs = (List.range n).map (fun i => (leAt r.body 0 4 + i) % 2 ^ 32) → fs.any s.recordBad = false →
    Completes .records s fun t => SameBut t s [.regs, .tpl] ∧
      ((∃ f ∈ fs, s.recordOf f ≠ none) → answers s t r au 0 (fs.flatMap fun f => (s.recordOf f).getD (List.replicate 320 0))) ∧
      ((∀ f ∈ fs, s.recordOf f = none) → answers s t r au 9 (List.replicate (320 * n) 0))) ∧
  (∀ (s : State) (r : Req) (rest : List Req) (au : Option Accepted) (m : List Byte), served s 0x0A r rest au → r.len = 39 →
    byteAt r.body 32 = 0 → leAt r.body 37 2 = 0 →
    m = ascii "AQV8440-ATTEST" ++ toLe 1 0 ++ s.serial ++ r.body.take 32 ++ s.imageDigest ++ sliceB r.body 33 6 ++
      List.replicate 48 0 →
    Completes .attest s fun t => t.dram = s.dram ∧ t.now = s.now ∧
      t.getF F.SEC_ATTEST_ATTESTS = satAdd 16 (s.getF F.SEC_ATTEST_ATTESTS) 1 ∧
      ∃ k, 1 ≤ k ∧ answers s t r au 0 (m ++ ecSign s.identity k (sha384 m)))

/-- R476: a CHALLENGE answers a nonce and an ephemeral point and expires after 10 s; during a lockout it is answered BUSY. R477: an OPEN
whose point and signature hold opens the next session with the keys derived from them, and any other fails; the fourth failure in a row
locks out for 5 s. R479: CLOSE and the idle time close the session. The values of the nonce and the ephemeral key are not stated: they are
free (log entry 2). -/
def Obligations.SessionsOpenAndClose : Prop :=
  (∀ (s : State) (r : Req) (rest : List Req) (au : Option Accepted), served s 0x10 r rest au → r.len = 0 → s.lockedOut = false →
    Completes .challenge s fun t => t.getF F.SEC_AUTH_CHAL = 1 ∧ t.now = s.now ∧
      ∃ c, t.tpl.chal = some c ∧ c.nonce.length = 48 ∧ c.expires = s.now + msCycles 10000 ∧
        answers s t r au 0 (c.nonce ++ ecBytes (ecPublic c.eph) ++ s.serial)) ∧
  (∀ (s : State) (r : Req) (rest : List Req) (au : Option Accepted), served s 0x10 r rest au → r.len = 0 → s.lockedOut = true →
    Completes .challenge s fun t => t.tpl.chal = s.tpl.chal ∧ answers s t r au 6 []) ∧
  (∀ (s : State) (r : Req) (rest : List Req) (au : Option Accepted) (c : Chal) (p : EcPoint) (n : Nat) (ks : List Byte),
    served s 0x11 r rest au → r.len = 194 → byteAt r.body 0 ≤ 3 → s.openPoint s.liveChal r.body = some (c, p) →
    n = (s.getF F.TPL_SESSION_SESSION + 1) % 65536 →
    ks = hkdf384 c.nonce (ecShared c.eph p) (ascii "TERPEL-SESSION" ++ toLe 4 n) 48 →
    Completes .openSession s fun t => answers s t r au 0 (toLe 4 n) ∧ t.getF F.TPL_SESSION_OPEN = 1 ∧
      t.getF F.TPL_SESSION_SESSION = n ∧ t.getF F.TPL_SEQ_LAST_SEQ = 0 ∧ t.getF F.SEC_AUTH_CHAL = 0 ∧ t.tpl.chal = none ∧
      t.tpl.sess = some { kh := ks.take 24, kd := ks.drop 24, last := s.now } ∧ t.tpl.fails = 0 ∧
      t.getF F.SEC_AUTH_OPENS = satAdd 16 (s.getF F.SEC_AUTH_OPENS) 1) ∧
  (∀ (s : State) (r : Req) (rest : List Req) (au : Option Accepted), served s 0x11 r rest au → r.len = 194 → byteAt r.body 0 ≤ 3 →
    s.openPoint s.liveChal r.body = none →
    Completes .openSession s fun t => answers s t r au 3 [] ∧ t.getF F.SEC_AUTH_CHAL = 0 ∧ t.tpl.chal = none ∧
      t.getF F.TPL_SESSION_OPEN = s.getF F.TPL_SESSION_OPEN ∧
      t.getF F.SEC_AUTH_OPEN_FAIL = satAdd 8 (s.getF F.SEC_AUTH_OPEN_FAIL) 1 ∧
      (3 ≤ s.tpl.fails → t.tpl.lockEnd = some (s.now + msCycles 5000) ∧ t.getF F.SEC_AUTH_LOCKOUT = 1) ∧
      (s.tpl.fails < 3 → t.tpl.lockEnd = s.tpl.lockEnd ∧ t.tpl.fails = s.tpl.fails + 1)) ∧
  (∀ (s : State) (r : Req) (rest : List Req) (au : Option Accepted), served s 0x12 r rest au → r.len = 0 →
    Completes .closeSession s fun t => answers s t r au 0 [] ∧ t.getF F.TPL_SESSION_OPEN = 0 ∧ t.tpl.sess = none) ∧
  (∀ (s : State) (c : Chal), s.tpl.chal = some c →
    Completes .challengeExpiry s fun t => t.now = max s.now c.expires ∧ t.tpl = { s.tpl with chal := none } ∧
      t.getF F.SEC_AUTH_CHAL = 0) ∧
  (∀ (s : State) (e : Nat), s.tpl.lockEnd = some e →
    Completes .lockoutEnd s fun t => t.now = max s.now e ∧ t.tpl = { s.tpl with lockEnd := none } ∧
      t.getF F.SEC_AUTH_LOCKOUT = 0) ∧
  (∀ (s : State) (x : Sess), s.tpl.sess = some x → s.getF F.TPL_CFG_SESS_IDLE ≠ 0 →
    Completes .sessionIdleTimeout s fun t => t.now = max s.now (x.last + msCycles (1000 * s.getF F.TPL_CFG_SESS_IDLE)) ∧
      t.tpl = { s.tpl with sess := none } ∧ t.getF F.TPL_SESSION_OPEN = 0)

/-- R480, R478: a privileged operation without AUTH is denied and a request whose SEQ repeats the last one is not carried out
again: nothing but the link's own state changes. R481: POWER answers and requests its target; RESET answers and starts a device
reset 100 µs later. -/
def Obligations.PrivilegedRequestsNeedASession : Prop :=
  (∀ (s : State) (r : Req) (rest : List Req) (c : Instr),
    (c, r.op) ∈ [(Instr.writeMem, 4), (.loadPage, 5), (.closeSession, 0x12), (.power, 0x18), (.resetDevice, 0x19)] →
    s.tpl.rx = r :: rest → s.tpl.waiting = false → r.auth = false → (r.op = 0x19 → s.getF F.DEV_BOOT_FAILED ≠ 1) →
    Completes c s fun t => answers s t r none 3 [] ∧ SameBut t s [.regs, .tpl] ∧ SameFields t s (Among replyCounts)) ∧
  (∀ (s : State) (r : Req) (rest : List Req) (c : Instr) (m : List Byte),
    (c, r.op) ∈ [(Instr.writeReg, 2), (.writeMem, 4), (.loadPage, 5), (.power, 0x18), (.resetDevice, 0x19)] →
    s.tpl.rx = r :: rest → s.tpl.waiting = false → r.auth = true → s.authCheck r = .again m →
    Completes c s fun t => SameBut t s [.regs, .tpl] ∧ SameFields t s (Among replyCounts) ∧
      ∃ more, t.tpl.sent = s.tpl.sent ++ (if s.linkUp = true then [carries s r m] else []) ++ more) ∧
  (∀ (s : State) (r : Req) (rest : List Req) (au : Option Accepted) (n : Nat), served s 0x18 r rest au → r.len = 1 →
    n = byteAt r.body 0 → n ≤ 2 → s.getF F.PWR_STATE_BUSY ≠ 1 → s.thermalHold = false → (2 ≤ n ∨ s.wantedNb = n) →
    n ≠ s.getF F.PWR_STATE_STATE →
    Completes .power s fun t => answers s t r au 0 [] ∧ t.getF F.PWR_STATE_STATE = 3 ∧ t.getF F.PWR_STATE_BUSY = 1 ∧
      t.getF F.PWR_STATE_TARGET = n ∧ t.now = s.now) ∧
  (∀ (s : State) (r : Req) (rest : List Req) (au : Option Accepted), served s 0x19 r rest au → r.len = 0 →
    Completes .resetDevice s fun t => answers s t r au 0 [] ∧ t.boot.resetAt = some (1, s.now + usCycles 100) ∧
      t.dram = s.dram ∧ t.now = s.now)

/-! ### Reset, boot and the ledger -/

/-- R548, R283: the switch's closing lets PWR_GOOD rise, which starts a device reset; its opening loses everything but the
ledger's slots. A device reset leaves every register at its reset value but the control link's; REMOVE_N low in its last cycle,
or falling later, stops DRAM and NOR writes and drops queued writes (R551). -/
def Obligations.ResetsAndRemoval : Prop :=
  (∀ s : State, Completes .inputSwitchClose s fun t => SameBut t s [.seq] ∧ t.seq = { s.seq with switch := true }) ∧
  (∀ s : State, s.seq.switch = true → Completes .pwrGoodRise s fun t => t.seq.pwrGood = true ∧
    t.boot.resetAt = some (0, s.now) ∧ SameBut t s [.seq, .boot]) ∧
  (∀ s : State, Completes .inputSwitchOpen s fun t => (∀ f, t.getF f = f.rst) ∧ t.dram = [] ∧ t.led.slots = s.led.slots ∧
    t.led.queue = [] ∧ t.seq.switch = false ∧ t.seq.pwrGood = false) ∧
  (∀ s : State, Completes (.deviceReset false) s fun t => (∀ f, ¬ Among [F.TPL_LINK_STATE, F.TPL_LINK_RATE, F.TPL_LINK_LPI,
      F.TPL_LINK_MASTER] f → t.getF f = f.rst) ∧ t.dram = [] ∧ t.now = 0 ∧ t.cal.running = false ∧ t.boot.done = [] ∧
    t.led.slots = s.led.slots ∧ t.led.queue = s.led.queue) ∧
  (∀ s : State, Completes (.deviceReset true) s fun t => t.getF F.DEV_HOTPLUG_REMOVED = 1 ∧ t.getF F.DEV_HOTPLUG_WSTOP = 1 ∧
    t.getF F.DEV_HOTPLUG_NOR_STOP = 1) ∧
  (∀ s : State, Completes .removeNFall s fun t => t.getF F.DEV_HOTPLUG_REMOVED = 1 ∧ t.getF F.DEV_HOTPLUG_WSTOP = 1 ∧
    t.getF F.DEV_HOTPLUG_NOR_STOP = 1 ∧ t.getF F.PNL_STATUS_STATE = 3 ∧ t.dram = s.dram ∧ t.now = s.now ∧
    ∀ ch, (t.chan ch).queue = (s.chan ch).queue.filter fun a => !a.write) ∧
  (∀ (s : State) (u a : Nat) (bs : List Byte), s.getF F.DEV_HOTPLUG_WSTOP = 1 → s.writeMem 3 u a bs = s)

/-- R497, R502: a boot stage runs once the stages it follows are done; it is done, or the boot fails with the code of the
first test that fails. Training ends 180 ms after it began (R283). -/
def Obligations.BootStagesRunOrFail : Prop :=
  (∀ s : State, s.stageOpen [] 0 = true → Completes (.bootStageComplete .reset) s fun t => t.boot.done = 0 :: s.boot.done ∧
    t.boot.trainAt = s.now ∧ SameBut t s [.regs, .boot] ∧ SameFields t s (Among [F.DEV_BOOT_STAGE])) ∧
  (∀ (s : State) (f : Fuses), s.stageOpen [0] 1 = true → Completes (.bootStageComplete (.rom f)) s fun t =>
    1 ∈ t.boot.done ∧ t.boot.fuses = f ∧ t.getF F.TPL_MAC_LO_MAC_LO = leNat (f.mac.take 4) ∧
    t.getF F.PWR_RESET_CAUSE = s.boot.cause % 4) ∧
  (∀ (s : State) (f : FlashIn), s.stageOpen [1] 2 = true → (f.present = false ∨ f.sfdp = false ∨ f.mib < 64 ∨ 512 < f.mib) →
    Completes (.bootStageComplete (.flash f)) s fun t => t.getF F.DEV_BOOT_FAILED = 1 ∧ t.getF F.DEV_BOOT_FAIL = 1) ∧
  (∀ (s : State) (f : FlashIn), s.stageOpen [1] 2 = true → f.present = true → f.sfdp = true → 64 ≤ f.mib → f.mib ≤ 512 →
    Completes (.bootStageComplete (.flash f)) s fun t => t.getF F.DEV_FLASH_SIZE = f.mib ∧
      (headerGood f.head f.mib = false → t.getF F.DEV_BOOT_FAILED = 1 ∧ t.getF F.DEV_BOOT_FAIL = 2) ∧
      (headerGood f.head f.mib = true → (leNat s.boot.fuses.keyHash = 0 ∨ sha384 ((sigBlock f.head).take 97) ≠ s.boot.fuses.keyHash) →
        t.getF F.DEV_BOOT_FAILED = 1 ∧ t.getF F.DEV_BOOT_FAIL = 3) ∧
      (headerGood f.head f.mib = true → leNat s.boot.fuses.keyHash ≠ 0 → sha384 ((sigBlock f.head).take 97) = s.boot.fuses.keyHash →
        ecVerify ((sigBlock f.head).take 97) (imageDigestOf f.head) (sliceB (sigBlock f.head) 97 96) = false →
        t.getF F.DEV_BOOT_FAILED = 1 ∧ t.getF F.DEV_BOOT_FAIL = 4) ∧
      (headerGood f.head f.mib = true → leNat s.boot.fuses.keyHash ≠ 0 → sha384 ((sigBlock f.head).take 97) = s.boot.fuses.keyHash →
        ecVerify ((sigBlock f.head).take 97) (imageDigestOf f.head) (sliceB (sigBlock f.head) 97 96) = true →
        tableBad (sectionTable f.head) (leAt f.head 16 4) = none → 2 ∈ t.boot.done ∧ t.boot.verified = true ∧
          ∀ k < 12, t.getF (F.DEV_IMAGE_DIGEST k) = leAt (imageDigestOf f.head) (4 * k) 4)) ∧
  (∀ s : State, s.stageOpen [4] 3 = true → s.getF F.DRM_STATUS_TRAINED = 1 →
    Completes (.bootStageComplete (.dram [])) s fun t => 3 ∈ t.boot.done) ∧
  (∀ (s : State) (l : List (Nat × List Byte)), s.stageOpen [2] 4 = true →
    Completes (.bootStageComplete (.ledger l)) s fun t => 4 ∈ t.boot.done) ∧
  (∀ (s : State) (cs : List Nat) (a b : List (Nat × Nat)), s.stageOpen [4] 5 = true →
    Completes (.bootStageComplete (.logic cs a b)) s fun t => 5 ∈ t.boot.done ∧ (∀ p < 72, (t.core p).spad = []) ∧
      ∀ n < 8, (t.band n).mem = []) ∧
  (∀ (s : State) (bytes bs e : List Byte) (k : Nat), s.stageOpen [3, 4] 6 = true → k = s.boot.loaded → e = s.boot.table.getD k [] →
    bs = sliceB bytes 0 (secLength e) → secType e = 2 → secDest e = 0xFFFFFFFF →
    Completes (.bootStageComplete (.sect bytes)) s fun t =>
      (sha384 bs = secDigest e → t.boot.program = bs ∧ t.boot.loaded = k + 1) ∧
      (sha384 bs ≠ secDigest e → t.getF F.DEV_BOOT_FAILED = 1 ∧ t.getF F.DEV_BOOT_FAIL = 5 ∧ t.getF F.DEV_BOOT_SECTION = k % 64)) ∧
  (∀ s : State, s.stageOpen [5, 6] 7 = true → Completes (.bootStageComplete .load) s fun t =>
    (s.gatherProgram.loadChecks = none → 7 ∈ t.boot.done ∧ t.getF F.DEV_BOOT_HOLDING = s.getF F.DEV_BOOT_CTRL_HOLD % 2) ∧
    (s.gatherProgram.loadChecks ≠ none → t.getF F.DEV_BOOT_FAILED = 1 ∧ t.getF F.DEV_BOOT_FAIL = 9)) ∧
  (∀ s : State, s.stageOpen [0] 3 = true → s.getF F.DRM_STATUS_TRAINED ≠ 1 →
    Completes (.dramTrainingComplete true) s fun t => t.now = max s.now (s.boot.trainAt + msCycles 180) ∧
      t.getF F.DRM_STATUS_TRAINED = 1) ∧
  (∀ s : State, s.stageOpen [0] 3 = true → s.getF F.DRM_STATUS_TRAINED ≠ 1 →
    Completes (.dramTrainingComplete false) s fun t => t.getF F.DEV_BOOT_FAILED = 1 ∧ t.getF F.DEV_BOOT_FAIL = 7)

/-- R499, R454: with stage 7 done and HOLD 0 boot completes and the calendar starts frame 0, unless a replay is armed, which
holds it. R504: the oldest queued record goes to the first unused slot of the active half; none is programmed while
programming is stopped (R551) or the ledger is full. -/
def Obligations.BootCompletesAndTheLedgerAppends : Prop :=
  (∀ s : State, s.stageOpen [7] 8 = true → s.getF F.DEV_BOOT_CTRL_HOLD ≠ 1 → s.getF F.DEV_BOOT_COMPLETE ≠ 1 →
    Completes .bootComplete s fun t => t.getF F.DEV_BOOT_COMPLETE = 1 ∧ t.getF F.DEV_BOOT_HOLDING = 0 ∧
      t.getF F.DEV_BOOT_STAGE = 8 ∧ 8 ∈ t.boot.done ∧
      (s.getF F.AUD_REPLAY_CTRL_ARM ≠ 1 → t.cal.running = true ∧ t.cal.frame = 0 ∧ t.cal.line = 0) ∧
      (s.getF F.AUD_REPLAY_CTRL_ARM = 1 → t.aud.replayHold = true ∧ t.getF F.AUD_REPLAY_STATUS_STATE = 1 ∧
        t.cal.running = s.cal.running ∧ t.cal.frame = s.cal.frame)) ∧
  (∀ s : State, s.getF F.DEV_BOOT_CTRL_HOLD = 1 → Completes .bootComplete s fun t => SameBut t s []) ∧
  (∀ (s : State) (r : List Byte) (rs : List (List Byte)), s.ledgerReady = true → s.led.valid = true → s.led.queue = r :: rs →
    s.led.next < 32767 →
    Completes .ledgerAppend s fun t => t.led = { s.led with
        queue := rs, next := s.led.next + 1, slots := SMap.set [] s.led.slots (32768 * s.getF F.DEV_LEDGER_HALF + s.led.next) r } ∧
      SameBut t s [.regs, .led] ∧
      t.getF F.DEV_LEDGER_USED = (s.getF F.DEV_LEDGER_USED + 1) % 2 ^ 16 ∧ t.getF F.DEV_LEDGER_QUEUED = rs.length % 2 ^ 7 ∧
      SameFields t s (Among [F.DEV_LEDGER_USED, F.DEV_LEDGER_QUEUED])) ∧
  (∀ (s : State) (r : List Byte) (rs : List (List Byte)), s.ledgerReady = true → s.led.valid = false → s.led.queue = r :: rs →
    Completes .ledgerAppend s fun t => t.led.queue = rs ∧ t.led.valid = true ∧ t.led.next = 2 ∧ t.ledSlot 0 0 = ledgerHeader 1 ∧
      t.ledSlot 0 1 = r ∧ t.getF F.DEV_LEDGER_HALF = 0 ∧ t.getF F.DEV_LEDGER_GEN_GEN = 1) ∧
  (∀ s : State, (s.getF F.DEV_HOTPLUG_NOR_STOP ≠ 0 ∨ s.getF F.DEV_LEDGER_FULL ≠ 0) →
    Completes .ledgerAppend s fun t => SameBut t s [])

/-! ### Power, supplies and weathering -/

/-- R511, R512: bands power up by 8 ms after the acceptance, with memories of zeros; entry into Doldrums ends 0.5 ms after its
start with cores off and DRAM in self-refresh; the exit ends 12 ms after its acceptance and starts the next frame, where no
armed replay holds it. R515, R516: a supply below its warning level starts a dip episode and slows every powered core by one
bin; recovery starts a hold-off of 5 ms, at whose end BIN_DIP returns to 0; a supply below its reset level latches its
record and starts a device reset. -/
def Obligations.PowerStatesAndDips : Prop :=
  (∀ (s : State) (t0 : Nat), s.pwr.trans = .powerUp t0 → Completes .bandPowerUpDone s fun t =>
    t.now = max s.now (t0 + msCycles 8) ∧ t.pwr = { s.pwr with trans := .toGale } ∧
    ∀ p, 36 ≤ p → p < 72 → s.getF (F.BAND_SLOTMAP_IDLE_RETIRED (bandOf p)) ≠ 1 → (t.core p).spad = [] ∧ (t.core p).bad = []) ∧
  (∀ (s : State) (t0 : Nat), s.pwr.trans = .enter t0 → Completes .doldrumsEntryComplete s fun t =>
    max s.now (t0 + usCycles 500) ≤ t.now ∧ t.getF F.PWR_STATE_STATE = 2 ∧ t.getF F.PWR_STATE_BUSY = 0 ∧
    t.getF F.DRM_STATUS_SELF_REFRESH = 1 ∧ t.pwr = { s.pwr with trans := .idle } ∧ t.signals = [] ∧ t.remotes = [] ∧ t.box = none ∧
    t.getF F.PWR_STATE_TRANSITIONS = satAdd 16 (s.getF F.PWR_STATE_TRANSITIONS) 1 ∧
    ∀ p < 72, (t.core p).spad = [] ∧ (t.core p).lines = [] ∧ (t.core p).mapped = (s.core p).mapped) ∧
  (∀ (s : State) (t0 : Nat), s.pwr.trans = .exit t0 → s.aud.replayHold = false → Completes .doldrumsExitComplete s fun t =>
    t.now = max s.now (t0 + msCycles 12) ∧ t.getF F.PWR_STATE_STATE = s.getF F.PWR_STATE_TARGET % 4 ∧
    t.getF F.PWR_STATE_BUSY = 0 ∧ t.getF F.DRM_STATUS_SELF_REFRESH = 0 ∧ t.cal.running = true ∧
    t.cal.frame = (s.cal.frame + 1) % 2 ^ 32 ∧ t.cal.line = 0) ∧
  (∀ (s : State) (u v12 vcore : Nat), isSupply u = true → isMilli v12 = true → isMilli vcore = true → s.pstate ≠ 2 →
    s.pwr.episode = false →
    Completes (.supplyWarning u v12 vcore) s fun t => t.now = s.now ∧ t.getF F.PWR_SUPPLY_DIP = 1 ∧
      t.getF (if u = 0 then F.PWR_SUPPLY_V12_WARN else F.PWR_SUPPLY_VCORE_WARN) = 1 ∧
      t.getF F.PWR_SUPPLY_DIPS = satAdd 16 (s.getF F.PWR_SUPPLY_DIPS) 1 ∧ t.pwr.episode = true ∧ t.pwr.dipFrom = some s.now ∧
      (∀ p < 72, s.getF (F.BAND_SLOTMAP_GATED (bandOf p)) ≠ 1 → t.getF (F.CORE_CLK_BIN_DIP p) = 1)) ∧
  (∀ (s : State) (u v12 vcore : Nat), isSupply u = true → isMilli v12 = true → isMilli vcore = true → s.pstate = 2 →
    Completes (.supplyWarning u v12 vcore) s fun t => SameBut t s [.regs] ∧
      t.getF F.PWR_SUPPLY_DIPS = satAdd 16 (s.getF F.PWR_SUPPLY_DIPS) 1) ∧
  (∀ (s : State) (v12 vcore t0 : Nat), isMilli v12 = true → isMilli vcore = true → s.pwr.episode = true → s.pwr.dipFrom = some t0 →
    Completes (.supplyRecovery v12 vcore) s fun t => SameBut t s [.regs, .pwr] ∧ t.getF F.PWR_SUPPLY_HOLDOFF = 1 ∧
      t.getF F.PWR_SUPPLY_V12_WARN = 0 ∧ t.getF F.PWR_SUPPLY_VCORE_WARN = 0 ∧ t.pwr.holdEnd = some (s.now + msCycles 5) ∧
      t.pwr.dipLen = s.pwr.dipLen + (s.now - t0) ∧ t.pwr.dipFrom = none ∧ t.pwr.episode = true) ∧
  (∀ (s : State) (e : Nat), s.pwr.holdEnd = some e → s.led.queue.length < 64 →
    Completes .holdoffExpiry s fun t => t.now = max s.now e ∧ t.getF F.PWR_SUPPLY_HOLDOFF = 0 ∧ t.getF F.PWR_SUPPLY_DIP = 0 ∧
      t.pwr.episode = false ∧ t.pwr.holdEnd = none ∧ (∃ x, t.led.queue = s.led.queue ++ [x]) ∧
      (s.pstate ≠ 2 → ∀ p < 72, s.getF (F.BAND_SLOTMAP_GATED (bandOf p)) ≠ 1 → t.getF (F.CORE_CLK_BIN_DIP p) = 0)) ∧
  (∀ (s : State) (u v12 vcore : Nat), isSupply u = true → isMilli v12 = true → isMilli vcore = true →
    Completes (.supplyReset u v12 vcore) s fun t => SameBut t s [.pwr, .boot] ∧ t.boot.resetAt = some (2 + u, s.now) ∧
      t.pwr.latch = some (u, if u = 0 then v12 else vcore,
        s.pwr.dipLen + (match s.pwr.dipFrom with | some f => s.now - f | none => 0)))

/-- R521, R524, R529: a measurement's SLACK and AGE reach the core's registers; a core whose plan is too fast raises VSET by
one code while it may rise, and its plan stays. A write of RESTORE names a retired or stopped core, and no other. -/
def Obligations.WeatheringMeasuresAndRestores : Prop :=
  (∀ (s : State) (ms : List Meas), ms.all measOk = true → s.getF F.DEV_BOOT_COMPLETE ≠ 0 →
    Completes (.weatheringMeasurement ms) s fun t => t.now = max s.now s.pwr.wxDue ∧
      t.pwr.wxDue = s.pwr.wxDue + max 1 (s.getF F.PWR_WX_CFG_PERIOD) * 150000000 ∧ t.dram = s.dram) ∧
  (∀ (s : State) (m : Meas), measOk m = true → s.getF F.DEV_BOOT_COMPLETE ≠ 0 → s.pstate ≠ 2 → s.role m.core = 0 →
    s.pwr.restore = none → s.getF (F.CORE_CLK_BIN_DIP m.core) = 0 →
    s.getF (F.CORE_CLK_BIN_EFF m.core) = min 3 (s.getF (F.CORE_CLK_BIN_PLAN m.core)) →
    Completes (.weatheringMeasurement [m]) s fun t => t.getF (F.PWR_WX_SLACK_SLACK m.core) = unsext 16 m.slack ∧
      t.getF (F.PWR_WX_SLACK_AGE m.core) = m.age % 2 ^ 16 ∧
      (s.getF (F.PWR_WX_STATE_EXHAUSTED m.core) ≠ 1 → s.getF (F.PWR_WX_STATE_STOPPED m.core) ≠ 1 →
        (∀ b, (safeBins m.slack (s.getF (F.CORE_CLK_BIN_EFF m.core)) (s.getF F.PWR_WX_CFG_G_BIN)).head? = some b →
          s.getF (F.CORE_CLK_BIN_PLAN m.core) < b) → s.getF F.PWR_VCORE_VSET < s.getF F.PWR_VCORE_VMAX →
        t.getF F.PWR_VCORE_VSET = (s.getF F.PWR_VCORE_VSET + 1) % 8 ∧ t.pwr.planNext = s.pwr.planNext)) ∧
  (∀ (s : State) (p : BitVec 7), isCore p.toNat = true → s.replaying = false →
    Completes (.restoreRequest p) s fun t => t.getF F.PWR_WX_CTRL_CORE = p.toNat ∧ t.now = s.now ∧
      ((s.role p.toNat = 2 ∨ s.getF (F.PWR_WX_STATE_STOPPED p.toNat) = 1) → t.pwr.restore = some p.toNat) ∧
      (¬ (s.role p.toNat = 2 ∨ s.getF (F.PWR_WX_STATE_STOPPED p.toNat) = 1) → t.pwr = s.pwr))

/-! ### What commands leave alone -/

/-- The frame of every command: whatever state it runs in, the parts of the state that are not listed stay as they were. -/
def Obligations.CommandsChangeOnlyTheirParts : Prop :=
  ChangesAtMost .lineStart [.free, .now, .cal, .regs, .dram, .dramBad, .cores, .bands, .msetSample, .fab, .inp, .tau,
      .rtFirst, .ctxNext, .warp, .sns, .pnl, .aud, .tds] ∧
  ChangesAtMost .frameBoundary [.now, .cal, .regs, .dram, .dramBad, .drm, .cores, .bands, .noBase1, .change,
      .firstLines, .bucket, .pstate, .msetSample, .mwinEnd, .fc, .fab, .inp, .arrived, .avail, .rtJ0, .ctx,
      .ctxNext, .warp, .drz, .frost, .cmp, .pnl, .fbSegs, .fbStarted, .sel, .fbNow, .fbNext, .pwr, .aud, .led, .tpl, .tds] ∧
  ChangesAtMost .syncInEdge [.now, .cal, .regs, .cores, .bands, .aud] ∧
  (∀ (i : Nat) (owed : List (Nat × List Owed)), ChangesAtMost (.startLineClause i owed) [.now, .cal, .regs, .cores,
      .bands, .signals, .fbStarted]) ∧
  (∀ (f y : Nat) (l : EccAt), ChangesAtMost (.fallbackSegmentComplete f y l) [.free, .now, .cal, .regs, .cores,
      .bands, .fbSegs]) ∧
  (∀ (i : Nat) (owed : List (Nat × List Owed)), ChangesAtMost (.lineDeadline i owed) [.now, .cal, .regs, .cores,
      .bands, .signals, .fbSegs, .fbStarted, .sel, .fbNow, .fbNext, .tds]) ∧
  (∀ (i : Nat), ChangesAtMost (.graphicsFetch i) [.now, .cal, .regs, .cores, .bands, .cmp, .tds]) ∧
  (∀ (i : Nat) (late : List (Nat × Nat)), ChangesAtMost (.composeLine i late) [.now, .cal, .regs, .dram, .dramBad,
      .cores, .bands, .frost, .cmp, .sel, .aud, .tds]) ∧
  (∀ (i : Nat), ChangesAtMost (.captureLine i) [.now, .cal, .regs, .dram, .dramBad, .cores, .bands, .cmp, .tds]) ∧
  ChangesAtMost .captureWrite [.regs, .dram, .dramBad, .cores, .bands, .cmp] ∧
  ChangesAtMost .grainTemplatesDone [.frost] ∧
  (∀ (f y : Nat), ChangesAtMost (.frostLine f y) [.now, .cal, .regs, .cores, .bands, .frost, .sel]) ∧
  (∀ (n : Nat) (v : Word), ChangesAtMost (.portCfgWrite n v) [.regs, .inp, .aud]) ∧
  (∀ (n : Nat), ChangesAtMost (.hpdPulseEnd n) [.now, .cal, .regs, .cores, .bands, .inp]) ∧
  (∀ (n rate lanes : Nat) (ok : Bool), ChangesAtMost (.dpLinkTraining n rate lanes ok) [.regs, .inp]) ∧
  (∀ (n : Nat) (pps : Pps), ChangesAtMost (.ppsReceived n pps) [.regs, .inp]) ∧
  (∀ (n : Nat) (sdp : Sdp), ChangesAtMost (.sdpReceived n sdp) [.regs, .inp]) ∧
  (∀ (n : Nat) (ok : Bool), ChangesAtMost (.hdcpAuthentication n ok) [.regs, .inp]) ∧
  (∀ (n : Nat) (c : LossCause), ChangesAtMost (.signalLost n c) [.now, .cal, .regs, .cores, .bands, .inp]) ∧
  (∀ (n : Nat) (a : SrcAttr), ChangesAtMost (.inputFrameStart n a) [.now, .cal, .regs, .dram, .dramBad, .cores,
      .bands, .change, .inp, .hist, .arrived, .avail, .cmp, .aud]) ∧
  (∀ (n y : Nat) (l : SrcLine) (causes : List Nat), ChangesAtMost (.inputLine n y l causes) [.regs, .dram, .dramBad,
      .cores, .bands, .inp, .cmp]) ∧
  ChangesAtMost .stage10LineWrite [.now, .cal, .regs, .dram, .dramBad, .cores, .bands, .inp, .hist, .arrived, .aud] ∧
  ChangesAtMost .blankPathFrame [.now, .cal, .regs, .dram, .dramBad, .cores, .bands, .inp, .hist, .arrived, .avail, .aud] ∧
  (∀ (n : Nat) (r : AuxReq), ChangesAtMost (.auxTransaction n r) [.inp]) ∧
  (∀ (i : Nat), ChangesAtMost (.startDescriptorList i) [.now, .cal, .regs, .cores, .bands]) ∧
  (∀ (g : EngId), ChangesAtMost (.pendingListStart g) [.now, .cal, .regs, .cores, .bands]) ∧
  (∀ (p t : Nat) (o : StepOp) (w : CoreIn), ChangesAtMost (.issueStep p t o w) [.now, .cal, .regs, .dram, .dramBad,
      .cores, .bands, .fc, .fab, .signals, .drz, .pwr, .led]) ∧
  (∀ (p : Nat), ChangesAtMost (.correctionStallEnd p) [.now, .cal, .regs, .cores, .bands]) ∧
  (∀ (p t prn e : Nat) (w : CoreIn), ChangesAtMost (.tileLoad p t prn e w) [.now, .cal, .regs, .cores, .bands, .fc,
      .fab, .signals]) ∧
  (∀ (p e : Nat), ChangesAtMost (.tileLoadComplete p e) [.now, .cal, .regs, .cores, .bands]) ∧
  (∀ (p : Nat), ChangesAtMost (.weightFileRewrite p) [.regs, .cores]) ∧
  (∀ (p t layer line oy : Nat) (w : CoreIn), ChangesAtMost (.prefixLayer p t layer line oy w) [.now, .cal, .regs,
      .dram, .dramBad, .cores, .bands, .fc, .fab, .signals]) ∧
  (∀ (p t layer line oy : Nat) (w : CoreIn), ChangesAtMost (.suffixLayer p t layer line oy w) [.now, .cal, .regs,
      .cores, .bands, .fc, .fab, .signals]) ∧
  (∀ (p : Nat), ChangesAtMost (.suffixRowWrite p) [.now, .cal, .regs, .cores, .bands]) ∧
  (∀ (p : Nat), ChangesAtMost (.binEffChange p) [.now, .cal, .regs, .cores, .bands]) ∧
  (∀ (p t : Nat) (d : DrainIn), ChangesAtMost (.clauseDrained p t d) [.now, .cal, .regs, .cores, .bands, .fc]) ∧
  (∀ (p t line i : Nat), ChangesAtMost (.semaphoreWait p t line i) [.now, .cal, .regs, .cores, .bands]) ∧
  (∀ (g : SigIn), ChangesAtMost (.semaphoreSignalArrival g) [.now, .cal, .regs, .cores, .bands, .signals]) ∧
  (∀ (p t line e : Nat), ChangesAtMost (.awaitTile p t line e) [.now, .cal, .regs, .cores, .bands]) ∧
  (∀ (p t line e : Nat), ChangesAtMost (.consumeTile p t line e) [.now, .cal, .regs, .cores, .bands]) ∧
  (∀ (p t line list : Nat), ChangesAtMost (.threadStreamStart p t line list) [.now, .cal, .regs, .cores, .bands]) ∧
  (∀ (p a n : Nat) (write busy : Bool) (e : EccIn), ChangesAtMost (.backgroundAccess p a n write busy e) [.regs, .cores]) ∧
  (∀ (p : EccAt), ChangesAtMost (.scratchpadMapOut p) [.regs, .cores, .fab, .pwr, .led]) ∧
  (∀ (g : EngId) (w : CoreIn), ChangesAtMost (.descriptorBurstRead g w) [.regs, .cores, .bands, .fc, .fab, .signals]) ∧
  (∀ (g : EngId), ChangesAtMost (.transferIssue g) [.regs, .cores, .bands, .fc, .fab, .remotes, .signals, .tds]) ∧
  (∀ (g : EngId) (n : Nat) (w : CoreIn), ChangesAtMost (.transferComplete g n w) [.now, .cal, .regs, .dram, .dramBad,
      .cores, .bands, .fc, .fab, .remotes, .signals]) ∧
  (∀ (p t line n y : Nat), ChangesAtMost (.lineStoreSlotWrite p t line n y) [.now, .cal, .regs, .cores, .bands]) ∧
  (∀ (g : EngId), ChangesAtMost (.haltRetryTimer g) [.now, .cal, .regs, .cores, .bands]) ∧
  (∀ (g : EngId), ChangesAtMost (.engineRetry g) [.now, .cal, .regs, .cores, .bands, .aud]) ∧
  (∀ (g : EngId), ChangesAtMost (.engineAbort g) [.regs, .cores, .bands, .fc, .fab, .aud]) ∧
  (∀ (p u : Nat), ChangesAtMost (.histogramClear p u) [.regs, .cores, .aud]) ∧
  (∀ (b : EccAt), ChangesAtMost (.lineStoreMapOut b) [.regs, .bands, .led]) ∧
  (∀ (i : Nat), ChangesAtMost (.openFrameClauseWindow i) [.now, .cal, .regs, .cores, .bands, .fc, .fab]) ∧
  (∀ (i : Nat), ChangesAtMost (.closeFrameClauseWindow i) [.now, .cal, .regs, .cores, .bands]) ∧
  (∀ (i : Nat) (bad : List Nat), ChangesAtMost (.openModelSetWindow i bad) [.now, .cal, .regs, .cores, .bands,
      .mwinEnd, .fc, .drz]) ∧
  ChangesAtMost .multicastAccepted [.now, .cal, .regs, .dram, .dramBad, .cores, .bands, .fab] ∧
  (∀ (n : EccAt), ChangesAtMost (.remoteTransferArrival n) [.now, .cal, .regs, .dram, .dramBad, .cores, .bands, .fab,
      .remotes]) ∧
  (∀ (p t line g : Nat), ChangesAtMost (.barrierArrive p t line g) [.now, .cal, .regs, .cores, .bands, .fab]) ∧
  (∀ (g : Nat), ChangesAtMost (.barrierComplete g) [.now, .cal, .regs, .cores, .bands, .fab]) ∧
  (∀ (bands : BitVec 8) (spad ls : Bool), ChangesAtMost (.snapshotArm bands spad ls) [.regs, .fab, .aud]) ∧
  ChangesAtMost .snapshotCancel [.regs, .fab, .aud] ∧
  ChangesAtMost .snapshotCopyStart [.regs, .fab] ∧
  ChangesAtMost .snapshotCopyComplete [.regs, .dram, .dramBad, .fab, .warp] ∧
  (∀ (b : Nat), ChangesAtMost (.handoverStart b) [.now, .cal, .regs, .dram, .dramBad, .cores, .bands, .fc, .fab,
      .remotes, .signals, .drz]) ∧
  (∀ (v : Word), ChangesAtMost (.modeRequest v) [.regs, .change, .aud]) ∧
  ChangesAtMost .scheduleChange [.now, .cal, .regs, .dram, .dramBad, .cores, .bands, .almanac, .sched, .noBase1,
      .change, .firstLines, .fc, .fab, .remotes, .signals, .tau, .rtFirst, .ctxNext, .warp, .drz] ∧
  (∀ (b : Nat), ChangesAtMost (.warpRowWrite b) [.now, .cal, .regs, .dram, .dramBad, .cores, .bands, .warp]) ∧
  (∀ (latency : Nat), ChangesAtMost (.boxUnitRun latency) [.regs, .fc, .box]) ∧
  ChangesAtMost .boxUnitComplete [.now, .cal, .regs, .dram, .dramBad, .cores, .bands, .fc, .box] ∧
  ChangesAtMost .modelSetWindowClose [.now, .cal, .regs, .cores, .bands, .mwinEnd] ∧
  ChangesAtMost .cropGrab [.dram, .dramBad, .cores, .bands, .drz] ∧
  ChangesAtMost .drizzleStepStart [.regs, .cores, .drz] ∧
  (∀ (l : Nat), ChangesAtMost (.augmentSample l) [.regs, .dram, .dramBad, .cores, .bands, .signals, .drz]) ∧
  (∀ (p i : Nat) (w : CoreIn), ChangesAtMost (.gradientOperation p i w) [.now, .cal, .regs, .dram, .dramBad, .cores,
      .bands, .fc, .fab, .signals, .drz]) ∧
  (∀ (p : Nat) (sems : List Nat), ChangesAtMost (.drizzleClauseEnd p sems) [.now, .cal, .regs, .cores, .bands, .fc, .drz]) ∧
  (∀ (latency : Nat), ChangesAtMost (.drizzleUpdateComplete latency) [.free, .now, .cal, .regs, .dram, .dramBad,
      .cores, .bands, .drz]) ∧
  (∀ (latency : Nat), ChangesAtMost (.commitPageGeneration latency) [.dram, .dramBad, .cores, .bands, .drz]) ∧
  ChangesAtMost .commitReady [.now, .cal, .regs, .cores, .bands, .drz] ∧
  ChangesAtMost .drizzleEnable [.regs, .dram, .dramBad, .cores, .bands, .drz, .aud] ∧
  ChangesAtMost .drizzleDisable [.regs, .dram, .dramBad, .cores, .bands, .drz, .aud] ∧
  ChangesAtMost .drizzleReset [.regs, .dram, .dramBad, .cores, .bands, .drz, .aud] ∧
  ChangesAtMost .i3cAddressAssignment [.sns] ∧
  (∀ (i : Nat) (r : I3cResult), ChangesAtMost (.sensorRead i r) [.free, .now, .cal, .regs, .cores, .bands, .sns, .aud]) ∧
  (∀ (temps : List Int) (v12 i12 vcore : Nat), ChangesAtMost (.internalSample temps v12 i12 vcore) [.now, .cal, .regs,
      .cores, .bands, .noBase1, .change, .pstate, .msetSample, .mwinEnd, .fc, .inp, .ctxNext, .drz, .sns, .cmp,
      .pnl, .fbSegs, .fbStarted, .sel, .pwr, .aud, .led, .tds]) ∧
  (∀ (t : Nat), ChangesAtMost (.dataStripeSend t) [.now, .cal, .regs, .cores, .bands, .pnl]) ∧
  ChangesAtMost .trainingStart [.now, .cal, .regs, .cores, .bands, .pnl] ∧
  ChangesAtMost .panelLinkRunning [.now, .cal, .regs, .cores, .bands, .pnl] ∧
  ChangesAtMost .trainingTimeout [.now, .cal, .regs, .cores, .bands, .pnl] ∧
  ChangesAtMost .panelRdyLow [.regs, .pnl] ∧
  ChangesAtMost .panelRetrain [.regs, .pnl, .aud] ∧
  ChangesAtMost .panelEnSet [.regs, .pnl, .aud] ∧
  ChangesAtMost .panelEnClear [.regs, .pnl, .aud] ∧
  ChangesAtMost .safeSequenceEnd [.now, .cal, .regs, .cores, .bands, .pnl] ∧
  (∀ (port : Nat) (asks : List PortAsk), ChangesAtMost (.portGrant port asks) [.now, .cal, .regs, .drm, .cores,
      .bands, .fab, .remotes, .signals]) ∧
  (∀ (ch : Nat) (e : EccIn), ChangesAtMost (.dramAccess ch e) [.now, .cal, .regs, .dramBad, .drm, .cores, .bands]) ∧
  (∀ (ch : Nat), ChangesAtMost (.refresh ch) [.now, .cal, .regs, .drm, .cores, .bands]) ∧
  (∀ (ch : Nat) (e : EccIn), ChangesAtMost (.patrolScrubRead ch e) [.now, .cal, .regs, .dramBad, .drm, .cores, .bands]) ∧
  (∀ (ch : Nat), ChangesAtMost (.scrubWriteback ch) [.now, .cal, .regs, .drm, .cores, .bands]) ∧
  ChangesAtMost .dramRowMapOut [.free, .now, .cal, .regs, .dramBad, .drm, .cores, .bands, .led] ∧
  ChangesAtMost .frameRecordWrite [.regs, .dram, .dramBad, .cores, .bands, .aud] ∧
  ChangesAtMost .logEntryWrite [.regs, .dram, .dramBad, .cores, .bands, .aud] ∧
  ChangesAtMost .replayGo [.now, .cal, .regs, .dram, .dramBad, .drm, .cores, .bands, .noBase1, .change, .firstLines,
      .fc, .fab, .inp, .arrived, .avail, .rtJ0, .ctx, .ctxNext, .warp, .drz, .frost, .cmp, .pnl, .fbNow, .fbNext,
      .pwr, .aud, .led, .tpl, .tds] ∧
  ChangesAtMost .replayWriteApply [.now, .cal, .regs, .dram, .dramBad, .cores, .bands, .change, .fc, .fab, .inp, .drz,
      .pnl, .pwr, .aud] ∧
  ChangesAtMost .replayEnd [.now, .cal, .regs, .cores, .bands, .aud] ∧
  (∀ (master : Bool), ChangesAtMost (.phyLinkUp master) [.regs]) ∧
  (∀ (f : List Byte) (fcs : Bool), ChangesAtMost (.ethernetFrameRx f fcs) [.regs, .tpl]) ∧
  ChangesAtMost .ident [.regs, .tpl] ∧
  ChangesAtMost .readReg [.now, .cal, .regs, .latch, .cores, .bands, .tpl] ∧
  ChangesAtMost .writeReg [.now, .cal, .regs, .dram, .dramBad, .drm, .cores, .bands, .noBase1, .change, .firstLines,
      .fc, .fab, .inp, .arrived, .avail, .rtJ0, .ctx, .ctxNext, .warp, .drz, .frost, .cmp, .pnl, .fbNow, .fbNext,
      .pwr, .aud, .led, .tpl, .tds] ∧
  ChangesAtMost .readMem [.regs, .tpl] ∧
  ChangesAtMost .writeMem [.regs, .dram, .dramBad, .cores, .bands, .aud, .tpl] ∧
  ChangesAtMost .loadPage [.regs, .dram, .dramBad, .cores, .bands, .aud, .tpl] ∧
  ChangesAtMost .status [.regs, .tpl] ∧
  ChangesAtMost .records [.regs, .tpl] ∧
  ChangesAtMost .attest [.free, .regs, .tpl] ∧
  ChangesAtMost .challenge [.free, .regs, .tpl] ∧
  ChangesAtMost .openSession [.regs, .tpl] ∧
  ChangesAtMost .closeSession [.regs, .tpl] ∧
  ChangesAtMost .power [.regs, .change, .pwr, .tpl] ∧
  ChangesAtMost .resetDevice [.regs, .boot, .tpl] ∧
  ChangesAtMost .challengeExpiry [.now, .cal, .regs, .cores, .bands, .tpl] ∧
  ChangesAtMost .lockoutEnd [.now, .cal, .regs, .cores, .bands, .tpl] ∧
  ChangesAtMost .sessionIdleTimeout [.now, .cal, .regs, .cores, .bands, .tpl] ∧
  (∀ (a : BitVec 40) (v : Word), ChangesAtMost (.registerWrite a v) [.now, .cal, .regs, .dram, .dramBad, .drm, .cores,
      .bands, .noBase1, .change, .firstLines, .fc, .fab, .inp, .arrived, .avail, .rtJ0, .ctx, .ctxNext, .warp, .drz,
      .frost, .cmp, .pnl, .fbNow, .fbNext, .pwr, .aud, .led, .tds]) ∧
  (∀ (restart : Bool), ChangesAtMost (.phyLinkDown restart) [.regs]) ∧
  (∀ (low : Bool), ChangesAtMost (.deviceReset low) [.free, .now, .cal, .regs, .latch, .dram, .dramBad, .drm, .cores,
      .bands, .prog, .almanac, .sched, .noBase1, .change, .firstLines, .bucket, .pstate, .msetSample, .mwinEnd, .fc,
      .fab, .remotes, .signals, .inp, .hist, .arrived, .avail, .tau, .rtFirst, .rtJ0, .ctx, .ctxNext, .warp, .box,
      .drz, .frost, .sns, .cmp, .pnl, .fbSegs, .fbStarted, .sel, .fbNow, .fbNext, .pwr, .seq, .boot, .aud, .led, .tpl, .tds]) ∧
  (∀ (ok : Bool), ChangesAtMost (.dramTrainingComplete ok) [.now, .cal, .regs, .cores, .bands]) ∧
  ChangesAtMost .pwrGoodRise [.seq, .boot] ∧
  (∀ (i : StageIn), ChangesAtMost (.bootStageComplete i) [.regs, .dram, .dramBad, .drm, .cores, .bands, .prog,
      .almanac, .sched, .noBase1, .change, .bucket, .pstate, .fc, .fab, .inp, .tau, .rtFirst, .drz, .cmp, .pwr,
      .boot, .aud, .led]) ∧
  ChangesAtMost .bootComplete [.now, .cal, .regs, .dram, .dramBad, .drm, .cores, .bands, .noBase1, .change,
      .firstLines, .fc, .fab, .inp, .arrived, .avail, .rtJ0, .ctx, .ctxNext, .warp, .drz, .frost, .cmp, .pnl,
      .fbNow, .fbNext, .pwr, .boot, .aud, .led, .tpl, .tds] ∧
  ChangesAtMost .ledgerAppend [.regs, .led] ∧
  ChangesAtMost .bandPowerUpDone [.now, .cal, .regs, .cores, .bands, .change, .pwr] ∧
  ChangesAtMost .doldrumsExitComplete [.now, .cal, .regs, .dram, .dramBad, .drm, .cores, .bands, .almanac, .sched,
      .noBase1, .change, .firstLines, .bucket, .pstate, .fc, .fab, .inp, .arrived, .avail, .tau, .rtFirst, .rtJ0,
      .ctx, .ctxNext, .warp, .drz, .frost, .cmp, .pnl, .fbNow, .fbNext, .pwr, .aud, .led, .tpl, .tds] ∧
  (∀ (supply v12 vcore : Nat), ChangesAtMost (.supplyWarning supply v12 vcore) [.regs, .cores, .pwr]) ∧
  (∀ (v12 vcore : Nat), ChangesAtMost (.supplyRecovery v12 vcore) [.regs, .pwr]) ∧
  ChangesAtMost .holdoffExpiry [.now, .cal, .regs, .cores, .bands, .pwr, .led] ∧
  (∀ (supply v12 vcore : Nat), ChangesAtMost (.supplyReset supply v12 vcore) [.pwr, .boot]) ∧
  (∀ (ms : List Meas), ChangesAtMost (.weatheringMeasurement ms) [.free, .now, .cal, .regs, .cores, .bands, .fab,
      .pwr, .led]) ∧
  (∀ (p : BitVec 7), ChangesAtMost (.restoreRequest p) [.regs, .pwr, .aud]) ∧
  ChangesAtMost .removeNFall [.regs, .drm, .pnl] ∧
  ChangesAtMost .inputSwitchClose [.seq] ∧
  ChangesAtMost .inputSwitchOpen [.free, .now, .cal, .regs, .latch, .dram, .dramBad, .drm, .cores, .bands, .prog,
      .almanac, .sched, .noBase1, .change, .firstLines, .bucket, .pstate, .msetSample, .mwinEnd, .fc, .fab,
      .remotes, .signals, .inp, .hist, .arrived, .avail, .tau, .rtFirst, .rtJ0, .ctx, .ctxNext, .warp, .box, .drz,
      .frost, .sns, .cmp, .pnl, .fbSegs, .fbStarted, .sel, .fbNow, .fbNext, .pwr, .seq, .boot, .aud, .led, .tpl, .tds] ∧
  ChangesAtMost .doldrumsEntryComplete [.now, .cal, .regs, .dram, .dramBad, .cores, .bands, .fab, .remotes, .signals,
      .warp, .box, .pwr]

/-- The register frame of commands that write few registers: every field but those listed, and where the command waits those that
time changes (WithTime), holds what it held. -/
def Obligations.FewRegistersAreWritten : Prop :=
  (∀ p, WritesAtMost (.correctionStallEnd p) WithTime) ∧
  (∀ p e, WritesAtMost (.tileLoadComplete p e) WithTime) ∧
  (∀ f y l, WritesAtMost (.fallbackSegmentComplete f y l) (WithTimeOr [F.BAND_LS_MAP_QUEUED (l.unit / 8)])) ∧
  (∀ f y, WritesAtMost (.frostLine f y) WithTime) ∧
  (∀ x, WritesAtMost (.dataStripeSend x) WithTime) ∧
  (∀ ch, WritesAtMost (.refresh ch) WithTime) ∧
  (∀ ch, WritesAtMost (.scrubWriteback ch) WithTime) ∧
  WritesAtMost .commitReady WithTime ∧
  (∀ n, WritesAtMost (.hpdPulseEnd n) WithTime) ∧
  (∀ p, WritesAtMost (.weightFileRewrite p) (Among [F.CORE_WFILE_WF_SCRUBS p])) ∧
  (∀ p, WritesAtMost (.suffixRowWrite p) (WithTimeOr [F.CORE_THREAD_STATE p])) ∧
  (∀ p x line n y, WritesAtMost (.lineStoreSlotWrite p x line n y) (WithTimeOr [F.CORE_THREAD_STATE p])) ∧
  (∀ p x line e, WritesAtMost (.awaitTile p x line e) (WithTimeOr [F.CORE_THREAD_STATE p])) ∧
  (∀ p x line g, WritesAtMost (.barrierArrive p x line g) (WithTimeOr [F.CORE_THREAD_STATE p])) ∧
  (∀ p x line i, WritesAtMost (.semaphoreWait p x line i) (WithTimeOr [F.CORE_SEM_COUNT p i, F.CORE_THREAD_STATE p])) ∧
  (∀ p x line e, WritesAtMost (.consumeTile p x line e) (WithTimeOr [F.ENG_TILES_CONSUMED (coreEng p e), F.CORE_THREAD_STATE p])) ∧
  WritesAtMost .snapshotCopyStart (Among [F.FAB_SNAP_STATUS_STATE]) ∧
  WritesAtMost .snapshotCopyComplete (Among [F.FAB_SNAP_STATUS_STATE, F.FAB_SNAP_STATUS_LPS]) ∧
  WritesAtMost .captureWrite (Among [F.CMP_CAP_LAST_FRAME]) ∧
  WritesAtMost .frameRecordWrite (Among [F.AUD_REC_LAST_REC_LAST]) ∧
  WritesAtMost .logEntryWrite (Among [F.AUD_LOG_PTR_PTR, F.AUD_LOG_STATUS_STATE, F.AUD_LOG_CNT_LOST]) ∧
  WritesAtMost .replayEnd (WithTimeOr [F.AUD_REPLAY_STATUS_STATE]) ∧
  WritesAtMost .trainingStart (WithTimeOr [F.PNL_STATUS_STATE]) ∧
  WritesAtMost .panelLinkRunning (WithTimeOr [F.PNL_STATUS_STATE, F.PNL_STATUS_RDY]) ∧
  WritesAtMost .trainingTimeout (WithTimeOr [F.PNL_STATUS_STATE, F.PNL_CNT_TRAIN_FAIL]) ∧
  WritesAtMost .safeSequenceEnd (WithTimeOr [F.PNL_STATUS_STATE]) ∧
  WritesAtMost .panelRdyLow (Among [F.PNL_STATUS_STATE, F.PNL_STATUS_RDY, F.PNL_CNT_RETRAINS, F.PNL_PKT_TRUNC,
    F.PNL_LOST_LINES_LOST]) ∧
  (∀ n sdp, WritesAtMost (.sdpReceived n sdp) (Among [F.INP_PORT_STATUS_ENC n, F.INP_PORT_STATUS_BPC n])) ∧
  (∀ n ok, WritesAtMost (.hdcpAuthentication n ok) (Among [F.INP_PORT_STATUS_AUTH n, F.INP_PORT_STATUS_SIGNAL n,
    F.INP_PPS_REJECTS_NOSIG_CAUSE])) ∧
  (∀ n pps, WritesAtMost (.ppsReceived n pps) (Among [F.INP_PORT_STATUS_PPS_REASON n, F.INP_PORT_STATUS_SIGNAL n,
    F.INP_PPS_REJECTS_NOSIG_CAUSE, F.INP_PPS_REJECTS_REJECTS])) ∧
  (∀ n c, WritesAtMost (.signalLost n c) (WithTimeOr [F.INP_PORT_STATUS_SIGNAL n, F.INP_PPS_REJECTS_NOSIG_CAUSE])) ∧
  (∀ m, WritesAtMost (.phyLinkUp m) (Among [F.TPL_LINK_STATE, F.TPL_LINK_MASTER])) ∧
  (∀ r, WritesAtMost (.phyLinkDown r) (Among [F.TPL_LINK_STATE, F.TPL_ERR_LINK_DOWNS])) ∧
  (∀ f fcs, WritesAtMost (.ethernetFrameRx f fcs) (Among (replyCounts ++ [F.TPL_ERR_RX_DROP, F.TPL_RX_DISCARDED]))) ∧
  WritesAtMost .ident (Among (replyCounts ++ [F.TPL_SEQ_LAST_SEQ])) ∧
  WritesAtMost .status (Among (replyCounts ++ [F.TPL_SEQ_LAST_SEQ])) ∧
  WritesAtMost .records (Among (replyCounts ++ [F.TPL_SEQ_LAST_SEQ])) ∧
  WritesAtMost .resetDevice (Among (replyCounts ++ [F.TPL_SEQ_LAST_SEQ])) ∧
  WritesAtMost .readMem (Among (replyCounts ++ [F.TPL_SEQ_LAST_SEQ, F.DRM_HOST_REFUSED])) ∧
  WritesAtMost .attest (Among (replyCounts ++ [F.TPL_SEQ_LAST_SEQ, F.SEC_ATTEST_ATTESTS])) ∧
  WritesAtMost .challenge (Among (replyCounts ++ [F.TPL_SEQ_LAST_SEQ, F.SEC_AUTH_CHAL])) ∧
  WritesAtMost .closeSession (Among (replyCounts ++ [F.TPL_SEQ_LAST_SEQ, F.TPL_SESSION_OPEN])) ∧
  WritesAtMost .challengeExpiry (WithTimeOr [F.SEC_AUTH_CHAL]) ∧
  WritesAtMost .lockoutEnd (WithTimeOr [F.SEC_AUTH_LOCKOUT]) ∧
  WritesAtMost .sessionIdleTimeout (WithTimeOr [F.TPL_SESSION_OPEN]) ∧
  (∀ v12 vcore, WritesAtMost (.supplyRecovery v12 vcore) (Among [F.PWR_SUPPLY_HOLDOFF, F.PWR_SUPPLY_V12_WARN,
    F.PWR_SUPPLY_VCORE_WARN, F.PWR_DIP_MIN_V12_MIN, F.PWR_DIP_MIN_VCORE_MIN])) ∧
  WritesAtMost .removeNFall (Among [F.DEV_HOTPLUG_REMOVED, F.DEV_HOTPLUG_WSTOP, F.DEV_HOTPLUG_NOR_STOP, F.PNL_STATUS_STATE,
    F.PNL_STATUS_SAFE_CAUSE, F.PNL_CNT_RETRAINS, F.PNL_PKT_TRUNC, F.PNL_LOST_LINES_LOST])

/-! ### Rules stated whole -/

/-- R428: an access is eligible in the cycle after it is presented, the parked requester's in the same cycle; the grant stays
parked on the last winner until another wins or the parked requester is masked. A port's next grant comes in a later cycle than
its last. -/
def Obligations.GrantsParkOnTheLastWinner : Prop :=
  (∀ (s : State) (port : Nat) (a : PortAsk), Instr.wf (.portGrant port [a]) = true → a.q < portReqs port →
    s.masked port a.q = false → (s.arb port).free ≤ s.now → a.off % 64 + a.len ≤ 64 → (s.chan (dramChan a.off)).queue.length < 64 →
    (s.arb port).held = [] → s.getF F.DEV_HOTPLUG_WSTOP ≠ 1 → (8 ≤ port ∨ a.cls = s.slotClass port ∧ a.cls ≠ 2) →
    Completes (.portGrant port [a]) s fun t => SameBut t s [.regs, .fab, .drm] ∧
      (a.at_ < s.now → granted s t port a) ∧
      (a.at_ = s.now → (s.arb port).parked = some a.q → granted s t port a) ∧
      (a.at_ = s.now → (s.arb port).parked ≠ some a.q →
        (t.chan (dramChan a.off)).queue = (s.chan (dramChan a.off)).queue ∧
        (t.arb port).parked = (s.arb port).parked.filter fun q => !s.masked port q)) ∧
  (∀ (s : State) (port : Nat), isDramPort port = true → (s.arb port).free ≤ s.now →
    Completes (.portGrant port []) s fun t => SameBut t s [.drm] ∧
      (t.arb port).parked = (s.arb port).parked.filter fun q => !s.masked port q) ∧
  (∀ (s : State) (port : Nat) (asks : List PortAsk), Instr.wf (.portGrant port asks) = true →
    Completes (.portGrant port asks) s fun t => t.now = max s.now (s.arb port).free)

/-- R479: a session closes at a CLOSE in it, at a successful OPEN (another session takes its place), at a device reset, and after
SESS_IDLE seconds without an accepted AUTH request, when SESS_IDLE is not 0; it stays open through Doldrums; requests naming a
closed session are DENIED. -/
def Obligations.SessionsCloseAsListed : Prop :=
  (∀ (s : State) (r : Req) (rest : List Req) (au : Option Accepted), served s 0x12 r rest au → r.len = 0 →
    Completes .closeSession s fun t => t.tpl.sess = none ∧ t.getF F.TPL_SESSION_OPEN = 0) ∧
  (∀ (s : State) (r : Req) (rest : List Req) (au : Option Accepted) (x : Chal × EcPoint), served s 0x11 r rest au → r.len = 194 →
    byteAt r.body 0 ≤ 3 → s.openPoint s.liveChal r.body = some x →
    Completes .openSession s fun t => t.getF F.TPL_SESSION_SESSION = (s.getF F.TPL_SESSION_SESSION + 1) % 65536 ∧
      ∃ y, t.tpl.sess = some y ∧ y.accepted = false ∧ y.last = s.now) ∧
  (∀ (s : State) (low : Bool), Completes (.deviceReset low) s fun t => t.tpl.sess = none ∧ t.getF F.TPL_SESSION_OPEN = 0) ∧
  (∀ (s : State) (x : Sess), s.tpl.sess = some x → s.getF F.TPL_CFG_SESS_IDLE ≠ 0 →
    Completes .sessionIdleTimeout s fun t => t.now = max s.now (x.last + msCycles (1000 * s.getF F.TPL_CFG_SESS_IDLE)) ∧
      t.tpl.sess = none ∧ t.getF F.TPL_SESSION_OPEN = 0) ∧
  (∀ s : State, s.getF F.TPL_CFG_SESS_IDLE = 0 → Completes .sessionIdleTimeout s fun t => SameBut t s []) ∧
  (∀ (s t : State) (c : Instr), c = .doldrumsEntryComplete ∨ c = .doldrumsExitComplete → exec c s = .next t →
    t.getF F.TPL_SESSION_OPEN = s.getF F.TPL_SESSION_OPEN ∧ t.getF F.TPL_SESSION_SESSION = s.getF F.TPL_SESSION_SESSION ∧
    t.tpl.sess.map (fun x => (x.kh, x.kd)) = s.tpl.sess.map fun x => (x.kh, x.kd)) ∧
  (∀ (s : State) (r : Req) (rest : List Req) (c : Instr),
    (c, r.op) ∈ [(Instr.ident, 0), (.readReg, 1), (.writeReg, 2), (.readMem, 3), (.writeMem, 4), (.loadPage, 5), (.status, 8),
      (.records, 9), (.attest, 0x0A), (.challenge, 0x10), (.openSession, 0x11), (.closeSession, 0x12), (.power, 0x18),
      (.resetDevice, 0x19)] →
    s.tpl.rx = r :: rest → s.tpl.waiting = false → r.auth = true →
    (s.liveSess = none ∨ leAt r.msg 12 4 ≠ s.getF F.TPL_SESSION_SESSION) →
    Completes c s fun t => answers s t r none 3 [] ∧ SameBut t s [.regs, .tpl] ∧ SameFields t s (Among replyCounts))

/-- R12: a read of an address that holds no register gives zero, a write to it has no effect, and both complete with the
unmapped status, 1. -/
def Obligations.UnmappedAccesses : Prop :=
  (∀ (s : State) (a : Nat), regAt a = none → s.hostRead a = (1, 0, s)) ∧
  (∀ (s : State) (a v : Nat), regAt a = none → a % 4 = 0 → s.replaying = false → s.hostWrite a v = (1, s)) ∧
  (∀ (s : State) (a : BitVec 40) (v : Word), regAt a.toNat = none → a.toNat % 4 = 0 → s.replaying = false →
    Completes (.registerWrite a v) s fun t => SameBut t s []) ∧
  (∀ (s : State) (r : Req) (rest : List Req) (au : Option Accepted), served s 1 r rest au → r.len = 8 → byteAt r.body 7 = 0 →
    leAt r.body 5 2 = 1 → leAt r.body 0 5 % 4 = 0 → s.pstate ≠ 2 → regAt (leAt r.body 0 5) = none →
    Completes .readReg s fun t => answers s t r au 1 [0, 0, 0, 0]) ∧
  regAt 0x5FF00 = none ∧ regAt 0xE0000 = none ∧ regAt 0x2000000 = none

/-- R355: while T is 0 for the model set in use, EN has no effect and STATE reads 3, once boot has begun (until then the register holds its
reset value, R21, R356). -/
def Obligations.WithoutTilesDrizzleIsOff : Prop :=
  (∀ s : State, s.drzT = 0 → s.boot.done ≠ [] → s.word 0xC000C % 4 = 3) ∧
  (∀ (s : State) (n v : Nat), s.drzT = 0 → ((s.setF F.DRZ_CTRL_EN v).drzEnable n).drz = (s.drzEnable n).drz ∧
    (s.drz.on = false → s.drzEnable n = s))

/-! ### Completion of the commands whose effect other statements give by cases -/

/-- Each of these commands completes with its own effect under conditions on the state alone. REGISTER_WRITE (R14): the fields of a register
with a writable field are written, and the register's effect follows. CLR (R137): a histogram unit of a core in use has empty bins, no
element having been observed in the cycle. GO (R455): a replay that is armed starts frame 0, with STATE 2 or, where its log is refused, 4. A
recorded WRITE (R455) leaves the log, no earlier than its TIME; at the log's end (R457) the replay ends with STATE 3. CHALLENGE (R476),
outside a lockout, has a challenge outstanding that expires after 10 s, and none is outstanding after that; a lockout (R476) ends. -/
def Obligations.WritesClearsReplaysAndTimersComplete : Prop :=
  (∀ (s u : State) (a : BitVec 40) (v : Word) (blk : Blk) (o w : Nat) (fs : List Fld), s.replaying = false → a.toNat % 4 = 0 →
    blockOf a.toNat = some (blk, o) → regAt a.toNat = some fs → s.wordAt a.toNat = some w →
    (∃ f ∈ fs, s.writable f = true) → s.drzOwns blk o = false →
    u = State.writeEffect s (fs.foldl (State.writeField v.toNat) s) blk o v.toNat →
    Completes (.registerWrite a v) s fun t => SameBut t u [.regs, .aud] ∧ SameFields t u (Among [F.AUD_LOG_CNT_LOST])) ∧
  (∀ (s : State) (p u : Nat), isCore p = true → u < 4 → s.replaying = false → s.coreHidden p = false → (u < 2 ∨ s.drz.on = false) →
    s.getF (F.CORE_HIST_CFG_EN p u) < 2 → s.getF (F.CORE_HIST_CFG_SNAP p u) < 2 → (s.core p).histNow.1 ≠ s.now + 1 →
    Completes (.histogramClear p u) s fun t => t.now = s.now ∧ ∀ k < 64,
      SMap.get 0 (t.core p).histLive (64 * u + k) = 0 ∧ SMap.get 0 (t.core p).histRead (64 * u + k) = 0) ∧
  (∀ s : State, s.aud.replayHold = true →
    Completes .replayGo s fun t => t.aud.replayHold = false ∧ t.cal.running = true ∧ t.cal.frame = 0 ∧ t.cal.line = 0 ∧
      t.getF F.AUD_REPLAY_STATUS_STATE = if s.replayBad s.replayEntries = true then 4 else 2) ∧
  (∀ (s : State) (e : ReplayEnt), s.aud.replay = true → (s.aud.replayLog.find? fun e => e.type == 4) = some e →
    Completes .replayWriteApply s fun t => max s.now (s.replayCycle e.time) ≤ t.now ∧ t.aud.replayLog = s.aud.replayLog.erase e) ∧
  (∀ s : State, s.aud.replay = true → (s.aud.replayLog.any fun e => e.type == 4) = false →
    Completes .replayEnd s fun t => t.now = max s.now (s.replayCycle s.aud.replayEnd) ∧ t.aud.replay = false ∧
      t.getF F.AUD_REPLAY_STATUS_STATE = 3) ∧
  (∀ (s : State) (r : Req) (rest : List Req) (au : Option Accepted), served s 0x10 r rest au → r.len = 0 → s.lockedOut = false →
    Completes .challenge s fun t => t.getF F.SEC_AUTH_CHAL = 1 ∧ ∃ c, t.tpl.chal = some c ∧ c.expires = s.now + msCycles 10000) ∧
  (∀ (s : State) (c : Chal), s.tpl.chal = some c →
    Completes .challengeExpiry s fun t => t.now = max s.now c.expires ∧ t.tpl.chal = none ∧ t.getF F.SEC_AUTH_CHAL = 0) ∧
  (∀ (s : State) (e : Nat), s.tpl.lockEnd = some e →
    Completes .lockoutEnd s fun t => t.now = max s.now e ∧ t.tpl.lockEnd = none ∧ t.getF F.SEC_AUTH_LOCKOUT = 0)
end

