-- ==== Sys2Proof/Laws/Frame.lean ====
section
/-! SUPPORT. How frames compose: what a state keeps through an update, a call, a choice and a loop. -/
namespace Sys2Proof.Machine

theorem SameBut.refl (s : State) (ps : List Part) : SameBut s s ps := by
  intro p _
  cases p <;> rfl

theorem Part.same_trans {p : Part} {u t s : State} (h1 : p.same u t) (h2 : p.same t s) : p.same u s := by
  cases p <;> exact h1.trans h2

theorem SameBut.trans {u t s : State} {ps : List Part} (h1 : SameBut u t ps) (h2 : SameBut t s ps) : SameBut u s ps :=
  fun p hp => Part.same_trans (h1 p hp) (h2 p hp)

theorem SameBut.mono {t s : State} {qs ps : List Part} (h : SameBut t s qs) (hq : qs ⊆ ps) : SameBut t s ps :=
  fun p hp => h p fun hm => hp (hq hm)

/-- A call whose frame is known, made on a state that the frame reaches. -/
theorem SameBut.call {y x s : State} {qs ps : List Part} (h : SameBut y x qs) (hq : qs ⊆ ps) (hx : SameBut x s ps) :
    SameBut y s ps := (h.mono hq).trans hx

/-- A record update: the rest of the record is another state's. -/
theorem SameBut.upd {x s : State} {ps : List Part} {v0 v1 v2 v3 v4 v5 v6 v7 v8 v9 v10 v11 v12 v13 v14 v15 v16
    v17 v18 v19 v20 v21 v22 v23 v24 v25 v26 v27 v28 v29 v30 v31 v32 v33 v34 v35 v36 v37 v38 v39 v40 v41 v42 v43
    v44 v45 v46 v47 v48 v49 v50 v51 v52 v53} (_e : v0 = x.pending) (h : SameBut (State.mk v0 v1 v2 v3 v4 v5 v6
    v7 v8 v9 v10 v11 v12 v13 v14 v15 v16 v17 v18 v19 v20 v21 v22 v23 v24 v25 v26 v27 v28 v29 v30 v31 v32 v33 v34
    v35 v36 v37 v38 v39 v40 v41 v42 v43 v44 v45 v46 v47 v48 v49 v50 v51 v52 v53) x ps) (hx : SameBut x s ps) :
    SameBut (State.mk v0 v1 v2 v3 v4 v5 v6 v7 v8 v9 v10 v11 v12 v13 v14 v15 v16 v17 v18 v19 v20 v21 v22 v23 v24
    v25 v26 v27 v28 v29 v30 v31 v32 v33 v34 v35 v36 v37 v38 v39 v40 v41 v42 v43 v44 v45 v46 v47 v48 v49 v50 v51
    v52 v53) s ps := h.trans hx

theorem SameBut.ite {c : Prop} [Decidable c] {a b s : State} {ps : List Part} (ha : SameBut a s ps) (hb : SameBut b s ps) :
    SameBut (if c then a else b) s ps := by
  split <;> assumption

theorem SameBut.ite_else {c : Prop} [Decidable c] {a x s : State} {ps : List Part} (hx : SameBut x s ps)
    (ha : SameBut a x ps) : SameBut (if c then a else x) s ps := SameBut.ite (ha.trans hx) hx

theorem SameBut.ite_then {c : Prop} [Decidable c] {b x s : State} {ps : List Part} (hx : SameBut x s ps)
    (hb : SameBut b x ps) : SameBut (if c then x else b) s ps := SameBut.ite hx (hb.trans hx)

theorem SameBut.foldl {α : Type} {f : State → α → State} {l : List α} {x s : State} {ps : List Part}
    (hx : SameBut x s ps) (hf : ∀ y a, SameBut (f y a) y ps) : SameBut (l.foldl f x) s ps := by
  induction l generalizing x with
  | nil => exact hx
  | cons a l ih => exact ih ((hf x a).trans hx)

theorem SameBut.each {n : Nat} {f : State → Nat → State} {x s : State} {ps : List Part}
    (hx : SameBut x s ps) (hf : ∀ y a, SameBut (f y a) y ps) : SameBut (x.each n f) s ps := SameBut.foldl hx hf

/-- A loop over a state paired with something else. -/
theorem SameBut.foldl_fst {α β : Type} {f : State × β → α → State × β} {l : List α} {x : State × β} {s : State}
    {ps : List Part} (hx : SameBut x.1 s ps) (hf : ∀ y a, SameBut (f y a).1 y.1 ps) : SameBut (l.foldl f x).1 s ps := by
  induction l generalizing x with
  | nil => exact hx
  | cons a l ih => exact ih ((hf x a).trans hx)

theorem SameBut.foldl_snd {α β : Type} {f : β × State → α → β × State} {l : List α} {x : β × State} {s : State}
    {ps : List Part} (hx : SameBut x.2 s ps) (hf : ∀ y a, SameBut (f y a).2 y.2 ps) : SameBut (l.foldl f x).2 s ps := by
  induction l generalizing x with
  | nil => exact hx
  | cons a l ih => exact ih ((hf x a).trans hx)

/-- A loop over a state that stands somewhere inside a larger value. -/
theorem SameBut.foldl_of {α β : Type} (π : β → State) {f : β → α → β} {l : List α} {x : β} {s : State}
    {ps : List Part} (hx : SameBut (π x) s ps) (hf : ∀ y a, SameBut (π (f y a)) (π y) ps) :
    SameBut (π (l.foldl f x)) s ps := by
  induction l generalizing x with
  | nil => exact hx
  | cons a l ih => exact ih ((hf x a).trans hx)

/-- Noting the status word touches no part. -/
theorem State.noteStat_same (s t : State) (p : Part) : p.same (State.noteStat s t) t := by
  unfold State.noteStat
  split <;> cases p <;> rfl

/-- What a command's operation changes is what the command changes; the queue stays as it is. -/
theorem done_frame {s t u : State} {ps : List Part} (h : SameBut t s ps) (hu : done s t = .next u) : SameBut u s ps := by
  cases hu
  intro p hp
  have hn := Part.same_trans (State.noteStat_same s t p) (h p hp)
  cases p <;> first | with_reducible rfl | exact hn

theorem act_frame {ok : Bool} {s t u : State} {ps : List Part} (h : SameBut t s ps) (hu : act ok s t = .next u) :
    SameBut u s ps := by
  refine done_frame ?_ hu
  split
  · exact h
  · exact SameBut.refl _ _

end Sys2Proof.Machine
end

