-- ==== Sys2Proof/Laws/FrameRegs.lean ====
section
/-! SUPPORT. What each operation of Machine/Regs.lean can change: every field of the state but those listed stays. -/
namespace Sys2Proof.Machine

theorem State.putF_frame {s : State} {a1 : _} {a2 : _} : SameBut (State.putF s a1 a2) s [.regs] := by
  unfold State.putF
  try dsimp only
  repeat' first
    | with_reducible exact SameBut.refl _ _
    | with_reducible assumption
    | (split <;> try dsimp only)
    | ((with_reducible refine SameBut.upd rfl ?_ ?_); intro p hp; (cases p <;> (try (with_reducible rfl)));
        exact absurd (by decide) hp; (repeat (exact absurd (by decide) hp)))

theorem State.setF_frame {s : State} {a1 : _} {a2 : _} : SameBut (State.setF s a1 a2) s [.regs] := by
  unfold State.setF
  try dsimp only
  repeat' first
    | with_reducible exact SameBut.refl _ _
    | with_reducible assumption
    | (split <;> try dsimp only)
    | ((with_reducible refine SameBut.upd rfl ?_ ?_); intro p hp; (cases p <;> (try (with_reducible rfl)));
        exact absurd (by decide) hp; (repeat (exact absurd (by decide) hp)))

theorem State.incF_frame {s : State} {a1 : _} {a2 : _} : SameBut (State.incF s a1 a2) s [.regs] := by
  unfold State.incF
  try dsimp only
  repeat' first
    | with_reducible exact SameBut.refl _ _
    | with_reducible assumption
    | (split <;> try dsimp only)
    | ((with_reducible refine SameBut.upd rfl ?_ ?_); intro p hp; (cases p <;> (try (with_reducible rfl)));
        exact absurd (by decide) hp; (repeat (exact absurd (by decide) hp)))

theorem State.lateF_frame {s : State} {a1 : _} {a2 : _} : SameBut (State.lateF s a1 a2) s [.regs] := by
  unfold State.lateF
  try dsimp only
  repeat' first
    | with_reducible exact SameBut.refl _ _
    | with_reducible assumption
    | with_reducible refine SameBut.call State.putF_frame (by decide) ?_

theorem State.uncountF_frame {s : State} {a1 : _} {a2 : _} : SameBut (State.uncountF s a1 a2) s [.regs] := by
  unfold State.uncountF
  try dsimp only
  repeat' first
    | with_reducible exact SameBut.refl _ _
    | with_reducible assumption
    | (split <;> try dsimp only)
    | ((with_reducible refine SameBut.upd rfl ?_ ?_); intro p hp; (cases p <;> (try (with_reducible rfl)));
        exact absurd (by decide) hp; (repeat (exact absurd (by decide) hp)))

theorem State.clearF_frame {s : State} {a1 : _} {a2 : _} : SameBut (State.clearF s a1 a2) s [.regs] := by
  unfold State.clearF
  try dsimp only
  repeat' first
    | with_reducible exact SameBut.refl _ _
    | with_reducible assumption
    | with_reducible refine SameBut.call State.putF_frame (by decide) ?_
    | (split <;> try dsimp only)
    | ((with_reducible refine SameBut.upd rfl ?_ ?_); intro p hp; (cases p <;> (try (with_reducible rfl)));
        exact absurd (by decide) hp; (repeat (exact absurd (by decide) hp)))

theorem State.shareF_frame {s : State} {a1 : _} {a2 : _} : SameBut (State.shareF s a1 a2) s [.regs] := by
  unfold State.shareF
  try dsimp only
  repeat' first
    | with_reducible exact SameBut.refl _ _
    | with_reducible assumption
    | with_reducible refine SameBut.call State.putF_frame (by decide) ?_
    | (split <;> try dsimp only)
    | ((with_reducible refine SameBut.upd rfl ?_ ?_); intro p hp; (cases p <;> (try (with_reducible rfl)));
        exact absurd (by decide) hp; (repeat (exact absurd (by decide) hp)))

theorem State.yieldF_frame {s : State} {a1 : _} {a2 : _} : SameBut (State.yieldF s a1 a2) s [.regs] := by
  unfold State.yieldF
  try dsimp only
  repeat' first
    | with_reducible exact SameBut.refl _ _
    | with_reducible assumption
    | with_reducible refine SameBut.call State.setF_frame (by decide) ?_
    | (split <;> try dsimp only)

theorem State.wrapF_frame {s : State} {a1 : _} {a2 : _} : SameBut (State.wrapF s a1 a2) s [.regs] := by
  unfold State.wrapF
  try dsimp only
  repeat' first
    | with_reducible exact SameBut.refl _ _
    | with_reducible assumption
    | (split <;> try dsimp only)
    | ((with_reducible refine SameBut.upd rfl ?_ ?_); intro p hp; (cases p <;> (try (with_reducible rfl)));
        exact absurd (by decide) hp; (repeat (exact absurd (by decide) hp)))

theorem State.setFs_frame {s : State} {a1 : _} : SameBut (State.setFs s a1) s [.regs] := by
  induction a1 generalizing s with
  | nil => exact SameBut.refl _ _
  | cons x l ih => exact ih.trans State.setF_frame

theorem State.incFs_frame {s : State} {a1 : _} : SameBut (State.incFs s a1) s [.regs] := by
  induction a1 generalizing s with
  | nil => exact SameBut.refl _ _
  | cons x l ih => exact ih.trans State.incF_frame

theorem State.fresh_frame {s : State} : SameBut (State.fresh s).2 s [.free] := by
  unfold State.fresh
  try dsimp only
  repeat' first
    | with_reducible exact SameBut.refl _ _
    | with_reducible assumption
    | (split <;> try dsimp only)
    | ((with_reducible refine SameBut.upd rfl ?_ ?_); intro p hp; (cases p <;> (try (with_reducible rfl)));
        exact absurd (by decide) hp; (repeat (exact absurd (by decide) hp)))

theorem State.setCore_frame {s : State} {a1 : _} {a2 : _} : SameBut (State.setCore s a1 a2) s [.cores] := by
  unfold State.setCore
  try dsimp only
  repeat' first
    | with_reducible exact SameBut.refl _ _
    | with_reducible assumption
    | (split <;> try dsimp only)
    | ((with_reducible refine SameBut.upd rfl ?_ ?_); intro p hp; (cases p <;> (try (with_reducible rfl)));
        exact absurd (by decide) hp; (repeat (exact absurd (by decide) hp)))

theorem State.onCore_frame {s : State} {a1 : _} {a2 : _} : SameBut (State.onCore s a1 a2) s [.cores] := by
  unfold State.onCore
  try dsimp only
  repeat' first
    | with_reducible exact SameBut.refl _ _
    | with_reducible assumption
    | with_reducible refine SameBut.call State.setCore_frame (by decide) ?_

theorem State.setBand_frame {s : State} {a1 : _} {a2 : _} : SameBut (State.setBand s a1 a2) s [.bands] := by
  unfold State.setBand
  try dsimp only
  repeat' first
    | with_reducible exact SameBut.refl _ _
    | with_reducible assumption
    | (split <;> try dsimp only)
    | ((with_reducible refine SameBut.upd rfl ?_ ?_); intro p hp; (cases p <;> (try (with_reducible rfl)));
        exact absurd (by decide) hp; (repeat (exact absurd (by decide) hp)))

theorem State.onBand_frame {s : State} {a1 : _} {a2 : _} : SameBut (State.onBand s a1 a2) s [.bands] := by
  unfold State.onBand
  try dsimp only
  repeat' first
    | with_reducible exact SameBut.refl _ _
    | with_reducible assumption
    | with_reducible refine SameBut.call State.setBand_frame (by decide) ?_

theorem State.writeMem_frame {s : State} {a1 : _} {a2 : _} {a3 : _} {a4 : _} : SameBut (State.writeMem s a1 a2 a3
    a4) s [.dram, .dramBad, .cores, .bands] := by
  unfold State.writeMem
  try dsimp only
  repeat' first
    | with_reducible exact SameBut.refl _ _
    | with_reducible assumption
    | with_reducible refine SameBut.call State.onCore_frame (by decide) ?_
    | with_reducible refine SameBut.call State.onBand_frame (by decide) ?_
    | (split <;> try dsimp only)
    | ((with_reducible refine SameBut.upd rfl ?_ ?_); intro p hp; (cases p <;> (try (with_reducible rfl)));
        exact absurd (by decide) hp; (repeat (exact absurd (by decide) hp)))

theorem State.writeRow_frame {s : State} {a1 : _} {a2 : _} {a3 : _} {a4 : _} {a5 : _} {a6 : _} : SameBut
    (State.writeRow s a1 a2 a3 a4 a5 a6) s [.dram, .dramBad, .cores, .bands] := by
  unfold State.writeRow
  try dsimp only
  repeat' first
    | with_reducible exact SameBut.refl _ _
    | with_reducible assumption
    | with_reducible refine SameBut.call State.writeMem_frame (by decide) ?_

theorem State.writeTagSide_frame {s : State} {a1 : _} {a2 : _} {a3 : _} {a4 : _} {a5 : _} {a6 : _} : SameBut
    (State.writeTagSide s a1 a2 a3 a4 a5 a6) s [.dram, .dramBad, .cores, .bands] := by
  unfold State.writeTagSide
  try dsimp only
  repeat' first
    | with_reducible exact SameBut.refl _ _
    | with_reducible assumption
    | with_reducible refine SameBut.call State.writeMem_frame (by decide) ?_

theorem State.writeElems_frame {s : State} {a1 : _} {a2 : _} {a3 : _} {a4 : _} {a5 : _} {a6 : _} : SameBut
    (State.writeElems s a1 a2 a3 a4 a5 a6) s [.dram, .dramBad, .cores, .bands] := by
  unfold State.writeElems
  try dsimp only
  repeat' first
    | with_reducible exact SameBut.refl _ _
    | with_reducible assumption
    | with_reducible refine SameBut.call State.writeMem_frame (by decide) ?_

theorem State.setExtent_frame {s : State} {a1 : _} {a2 : _} {a3 : _} {a4 : _} : SameBut (State.setExtent s a1 a2 a3
    a4) s [.regs] := by
  unfold State.setExtent
  try dsimp only
  repeat' first
    | with_reducible exact SameBut.refl _ _
    | with_reducible assumption
    | with_reducible refine SameBut.call State.setF_frame (by decide) ?_
    | with_reducible refine SameBut.call State.incF_frame (by decide) ?_
    | (split <;> try dsimp only)

theorem State.countArith_frame {s : State} {a1 : _} {a2 : _} : SameBut (State.countArith s a1 a2) s [.regs] := by
  unfold State.countArith
  try dsimp only
  repeat' first
    | with_reducible exact SameBut.refl _ _
    | with_reducible assumption
    | with_reducible refine SameBut.call State.wrapF_frame (by decide) ?_
    | with_reducible refine SameBut.call State.incFs_frame (by decide) ?_

end Sys2Proof.Machine
end

