-- ==== Sys2Proof/Laws/FrameStore.lean ====
section
/-! SUPPORT. What each operation of Machine/Store.lean can change: every field of the state but those listed stays. -/
namespace Sys2Proof.Machine

theorem State.spadLast_frame {s : State} {a1 : _} {a2 : _} {a3 : _} : SameBut (State.spadLast s a1 a2 a3) s [.regs]
    := by
  unfold State.spadLast
  try dsimp only
  repeat' first
    | with_reducible exact SameBut.refl _ _
    | with_reducible assumption
    | with_reducible refine SameBut.call State.setFs_frame (by decide) ?_

theorem State.spadMerge_frame {s : State} {a1 : _} {a2 : _} {a3 : _} {a4 : _} : SameBut (State.spadMerge s a1 a2 a3
    a4) s [.regs, .cores] := by
  unfold State.spadMerge
  try dsimp only
  repeat' first
    | with_reducible exact SameBut.refl _ _
    | with_reducible assumption
    | with_reducible refine SameBut.call State.onCore_frame (by decide) ?_
    | with_reducible refine SameBut.call State.spadLast_frame (by decide) ?_
    | with_reducible refine SameBut.call State.incF_frame (by decide) ?_
    | (with_reducible refine SameBut.foldl ?_ fun y a => ?_)
    | (split <;> try dsimp only)

theorem State.lsMerge_frame {s : State} {a1 : _} {a2 : _} {a3 : _} {a4 : _} : SameBut (State.lsMerge s a1 a2 a3 a4)
    s [.regs, .bands] := by
  unfold State.lsMerge
  try dsimp only
  repeat' first
    | with_reducible exact SameBut.refl _ _
    | with_reducible assumption
    | with_reducible refine SameBut.call State.onBand_frame (by decide) ?_
    | with_reducible refine SameBut.call State.incF_frame (by decide) ?_
    | (with_reducible refine SameBut.foldl ?_ fun y a => ?_)
    | (split <;> try dsimp only)

theorem State.mergeEcc_frame {s : State} {a1 : _} {a2 : _} {a3 : _} {a4 : _} {a5 : _} {a6 : _} : SameBut
    (State.mergeEcc s a1 a2 a3 a4 a5 a6) s [.regs, .cores, .bands] := by
  unfold State.mergeEcc
  try dsimp only
  repeat' first
    | with_reducible exact SameBut.refl _ _
    | with_reducible assumption
    | with_reducible refine SameBut.call State.spadMerge_frame (by decide) ?_
    | with_reducible refine SameBut.call State.lsMerge_frame (by decide) ?_
    | (split <;> try dsimp only)

theorem State.flushStage_frame {s : State} {a1 : _} {a2 : _} : SameBut (State.flushStage s a1 a2) s [.regs, .cores]
    := by
  unfold State.flushStage
  try dsimp only
  repeat' first
    | with_reducible exact SameBut.refl _ _
    | with_reducible assumption
    | with_reducible refine SameBut.call State.onCore_frame (by decide) ?_
    | with_reducible refine SameBut.call State.spadMerge_frame (by decide) ?_
    | (with_reducible refine SameBut.foldl ?_ fun y a => ?_)
    | (split <;> try dsimp only)

theorem State.stageByte_frame {s : State} {a1 : _} {a2 : _} {a3 : _} {a4 : _} {a5 : _} {a6 : _} : SameBut
    (State.stageByte s a1 a2 a3 a4 a5 a6) s [.regs, .cores] := by
  unfold State.stageByte
  try dsimp only
  repeat' first
    | with_reducible exact SameBut.refl _ _
    | with_reducible assumption
    | with_reducible refine SameBut.call State.flushStage_frame (by decide) ?_
    | with_reducible refine SameBut.call State.onCore_frame (by decide) ?_
    | (split <;> try dsimp only)

theorem State.stageBytes_frame {s : State} {a1 : _} {a2 : _} {a3 : _} {a4 : _} {a5 : _} {a6 : _} : SameBut
    (State.stageBytes s a1 a2 a3 a4 a5 a6) s [.regs, .cores] := by
  unfold State.stageBytes
  try dsimp only
  repeat' first
    | with_reducible exact SameBut.refl _ _
    | with_reducible assumption
    | with_reducible refine SameBut.call State.stageByte_frame (by decide) ?_
    | (with_reducible refine SameBut.foldl ?_ fun y a => ?_)

theorem State.writeNear_frame {s : State} {a1 : _} {a2 : _} {a3 : _} {a4 : _} {a5 : _} {a6 : _} {a7 : _} : SameBut
    (State.writeNear s a1 a2 a3 a4 a5 a6 a7) s [.regs, .cores, .bands] := by
  unfold State.writeNear
  try dsimp only
  repeat' first
    | with_reducible exact SameBut.refl _ _
    | with_reducible assumption
    | with_reducible refine SameBut.call State.onBand_frame (by decide) ?_
    | with_reducible refine SameBut.call State.lsMerge_frame (by decide) ?_
    | with_reducible refine SameBut.call State.stageBytes_frame (by decide) ?_
    | (split <;> try dsimp only)

theorem State.putRow_frame {s : State} {a1 : _} {a2 : _} {a3 : _} {a4 : _} {a5 : _} {a6 : _} {a7 : _} {a8 : _} {a9 :
    _} {a10 : _} {a11 : _} : SameBut (State.putRow s a1 a2 a3 a4 a5 a6 a7 a8 a9 a10 a11) s [.regs, .cores, .bands]
    := by
  unfold State.putRow
  try dsimp only
  repeat' first
    | with_reducible exact SameBut.refl _ _
    | with_reducible assumption
    | with_reducible refine SameBut.call State.writeNear_frame (by decide) ?_

theorem State.storeNear_frame {s : State} {a1 : _} {a2 : _} : SameBut (State.storeNear s a1 a2) s [.regs, .cores,
    .bands] := by
  unfold State.storeNear
  try dsimp only
  repeat' first
    | with_reducible exact SameBut.refl _ _
    | with_reducible assumption
    | with_reducible refine SameBut.call State.flushStage_frame (by decide) ?_
    | with_reducible refine SameBut.call State.writeNear_frame (by decide) ?_
    | with_reducible refine SameBut.call State.onCore_frame (by decide) ?_
    | with_reducible refine SameBut.call State.putRow_frame (by decide) ?_
    | (split <;> try dsimp only)

theorem State.storeFar_frame {s : State} {a1 : _} {a2 : _} : SameBut (State.storeFar s a1 a2) s [.regs, .dram,
    .dramBad, .cores, .bands] := by
  unfold State.storeFar
  try dsimp only
  repeat' first
    | with_reducible exact SameBut.refl _ _
    | with_reducible assumption
    | with_reducible refine SameBut.call State.flushStage_frame (by decide) ?_
    | with_reducible refine SameBut.call State.writeElems_frame (by decide) ?_
    | with_reducible refine SameBut.call State.onCore_frame (by decide) ?_
    | with_reducible refine SameBut.call State.writeTagSide_frame (by decide) ?_
    | with_reducible refine SameBut.call State.writeMem_frame (by decide) ?_
    | with_reducible refine SameBut.call State.writeRow_frame (by decide) ?_
    | (split <;> try dsimp only)

theorem State.landOut_frame {s : State} {a1 : _} {a2 : _} : SameBut (State.landOut s a1 a2) s [.regs, .cores,
    .bands] := by
  unfold State.landOut
  try dsimp only
  repeat' first
    | with_reducible exact SameBut.refl _ _
    | with_reducible assumption
    | with_reducible refine SameBut.call State.storeNear_frame (by decide) ?_
    | with_reducible refine SameBut.call State.onCore_frame (by decide) ?_
    | with_reducible refine SameBut.call State.onBand_frame (by decide) ?_
    | (split <;> try dsimp only)

theorem State.landCore_frame {s : State} {a1 : _} : SameBut (State.landCore s a1) s [.regs, .cores, .bands] := by
  unfold State.landCore
  try dsimp only
  repeat' first
    | with_reducible exact SameBut.refl _ _
    | with_reducible assumption
    | with_reducible refine SameBut.call State.landOut_frame (by decide) ?_
    | with_reducible refine SameBut.call State.onCore_frame (by decide) ?_
    | (with_reducible refine SameBut.foldl ?_ fun y a => ?_)
    | (split <;> try dsimp only)

theorem State.emitOut_frame {s : State} {a1 : _} {a2 : _} : SameBut (State.emitOut s a1 a2) s [.regs, .dram,
    .dramBad, .cores, .bands] := by
  unfold State.emitOut
  try dsimp only
  repeat' first
    | with_reducible exact SameBut.refl _ _
    | with_reducible assumption
    | with_reducible refine SameBut.call State.storeFar_frame (by decide) ?_
    | with_reducible refine SameBut.call State.onCore_frame (by decide) ?_
    | (split <;> try dsimp only)

end Sys2Proof.Machine
end

