-- ==== Sys2Proof/Laws/FrameOps.lean ====
section
/-! SUPPORT. What each operation of Machine/Ops.lean can change: every field of the state but those listed stays. -/
namespace Sys2Proof.Machine

theorem State.occupy_frame {s : State} {a1 : _} {a2 : _} {a3 : _} {a4 : _} : SameBut (State.occupy s a1 a2 a3 a4) s
    [.cores] := by
  unfold State.occupy
  try dsimp only
  repeat' first
    | with_reducible exact SameBut.refl _ _
    | with_reducible assumption
    | with_reducible refine SameBut.call State.onCore_frame (by decide) ?_

theorem State.inPipe_frame {s : State} {a1 : _} {a2 : _} {a3 : _} : SameBut (State.inPipe s a1 a2 a3) s [.cores] := by
  unfold State.inPipe
  try dsimp only
  repeat' first
    | with_reducible exact SameBut.refl _ _
    | with_reducible assumption
    | with_reducible refine SameBut.call State.onCore_frame (by decide) ?_

theorem State.stallThread_frame {s : State} {a1 : _} {a2 : _} {a3 : _} {a4 : _} : SameBut (State.stallThread s a1 a2
    a3 a4) s [.regs, .cores, .bands] := by
  unfold State.stallThread
  try dsimp only
  repeat' first
    | with_reducible exact SameBut.refl _ _
    | with_reducible assumption
    | with_reducible refine SameBut.call State.incF_frame (by decide) ?_
    | with_reducible refine SameBut.call State.onBand_frame (by decide) ?_
    | with_reducible refine SameBut.call State.onCore_frame (by decide) ?_
    | (split <;> try dsimp only)

theorem State.stallCore_frame {s : State} {a1 : _} {a2 : _} {a3 : _} : SameBut (State.stallCore s a1 a2 a3) s
    [.regs, .cores, .bands] := by
  unfold State.stallCore
  try dsimp only
  repeat' first
    | with_reducible exact SameBut.refl _ _
    | with_reducible assumption
    | with_reducible refine SameBut.call State.stallThread_frame (by decide) ?_
    | (with_reducible refine SameBut.each ?_ fun y a => ?_)
    | (split <;> try dsimp only)

theorem State.advance_frame {s : State} {a1 : _} : SameBut (State.advance s a1) s [.now, .cal, .regs, .cores,
    .bands] := by
  unfold State.advance
  try dsimp only
  repeat' first
    | with_reducible exact SameBut.refl _ _
    | with_reducible assumption
    | with_reducible refine SameBut.call State.stallCore_frame (by decide) ?_
    | with_reducible refine SameBut.call State.landCore_frame (by decide) ?_
    | (with_reducible refine SameBut.foldl ?_ fun y a => ?_)
    | (split <;> try dsimp only)
    | ((with_reducible refine SameBut.upd rfl ?_ ?_); intro p hp; (cases p <;> (try (with_reducible rfl)));
        exact absurd (by decide) hp; (repeat (exact absurd (by decide) hp)))

theorem State.waitUntil_frame {s : State} {a1 : _} : SameBut (State.waitUntil s a1) s [.now, .cal, .regs, .cores,
    .bands] := by
  unfold State.waitUntil
  try dsimp only
  repeat' first
    | with_reducible exact SameBut.refl _ _
    | with_reducible assumption
    | with_reducible refine SameBut.call State.advance_frame (by decide) ?_
    | (split <;> try dsimp only)

theorem State.tdAdd_frame {s : State} {a1 : _} {a2 : _} : SameBut (State.tdAdd s a1 a2) s [.tds] := by
  unfold State.tdAdd
  try dsimp only
  repeat' first
    | with_reducible exact SameBut.refl _ _
    | with_reducible assumption
    | (split <;> try dsimp only)
    | ((with_reducible refine SameBut.upd rfl ?_ ?_); intro p hp; (cases p <;> (try (with_reducible rfl)));
        exact absurd (by decide) hp; (repeat (exact absurd (by decide) hp)))

theorem State.fire_frame {s : State} {a1 : _} : SameBut (State.fire s a1) s [.now, .cal, .regs, .cores, .bands] := by
  unfold State.fire
  try dsimp only
  repeat' first
    | with_reducible exact SameBut.refl _ _
    | with_reducible assumption
    | with_reducible refine SameBut.call State.waitUntil_frame (by decide) ?_
    | (split <;> try dsimp only)
    | ((with_reducible refine SameBut.upd rfl ?_ ?_); intro p hp; (cases p <;> (try (with_reducible rfl)));
        exact absurd (by decide) hp; (repeat (exact absurd (by decide) hp)))

end Sys2Proof.Machine
end

