-- ==== Sys2Proof/Laws/FrameLog.lean ====
section
/-! SUPPORT. What each operation of Machine/Log.lean can change: every field of the state but those listed stays. -/
namespace Sys2Proof.Machine

theorem State.logPut_frame {s : State} {a1 : _} : SameBut (State.logPut s a1) s [.aud] := by
  unfold State.logPut
  try dsimp only
  repeat' first
    | with_reducible exact SameBut.refl _ _
    | with_reducible assumption
    | (split <;> try dsimp only)
    | ((with_reducible refine SameBut.upd rfl ?_ ?_); intro p hp; (cases p <;> (try (with_reducible rfl)));
        exact absurd (by decide) hp; (repeat (exact absurd (by decide) hp)))

theorem State.putLost_frame {s : State} : SameBut (State.putLost s) s [.regs, .aud] := by
  unfold State.putLost
  try dsimp only
  repeat' first
    | with_reducible exact SameBut.refl _ _
    | with_reducible assumption
    | with_reducible refine SameBut.call State.incF_frame (by decide) ?_
    | with_reducible refine SameBut.call State.logPut_frame (by decide) ?_
    | (split <;> try dsimp only)
    | ((with_reducible refine SameBut.upd rfl ?_ ?_); intro p hp; (cases p <;> (try (with_reducible rfl)));
        exact absurd (by decide) hp; (repeat (exact absurd (by decide) hp)))

theorem State.record_frame {s : State} {a1 : _} {a2 : _} : SameBut (State.record s a1 a2) s [.aud] := by
  unfold State.record
  try dsimp only
  repeat' first
    | with_reducible exact SameBut.refl _ _
    | with_reducible assumption
    | with_reducible refine SameBut.call State.logPut_frame (by decide) ?_
    | (split <;> try dsimp only)

end Sys2Proof.Machine
end

