-- ==== Sys2Proof/Laws/FrameLineStore.lean ====
section
/-! SUPPORT. What each operation of Machine/LineStore.lean can change: every field of the state but those listed stays. -/
namespace Sys2Proof.Machine

theorem State.setSlot_frame {s : State} {a1 : _} {a2 : _} {a3 : _} : SameBut (State.setSlot s a1 a2 a3) s [.bands]
    := by
  unfold State.setSlot
  try dsimp only
  repeat' first
    | with_reducible exact SameBut.refl _ _
    | with_reducible assumption
    | with_reducible refine SameBut.call State.onBand_frame (by decide) ?_

theorem State.slotCheck_frame {s : State} {a1 : _} {a2 : _} : SameBut (State.slotCheck s a1 a2) s [.bands] := by
  unfold State.slotCheck
  try dsimp only
  repeat' first
    | with_reducible exact SameBut.refl _ _
    | with_reducible assumption
    | with_reducible refine SameBut.call State.setSlot_frame (by decide) ?_
    | (split <;> try dsimp only)

theorem State.lsMark_frame {s : State} {a1 : _} {a2 : _} {a3 : _} : SameBut (State.lsMark s a1 a2 a3) s [.bands] := by
  unfold State.lsMark
  try dsimp only
  repeat' first
    | with_reducible exact SameBut.refl _ _
    | with_reducible assumption
    | with_reducible refine SameBut.call State.slotCheck_frame (by decide) ?_
    | with_reducible refine SameBut.call State.setSlot_frame (by decide) ?_

theorem State.lsRelease_frame {s : State} {a1 : _} {a2 : _} {a3 : _} : SameBut (State.lsRelease s a1 a2 a3) s
    [.regs, .bands] := by
  unfold State.lsRelease
  try dsimp only
  repeat' first
    | with_reducible exact SameBut.refl _ _
    | with_reducible assumption
    | with_reducible refine SameBut.call State.slotCheck_frame (by decide) ?_
    | with_reducible refine SameBut.call State.setSlot_frame (by decide) ?_
    | with_reducible refine SameBut.call State.incF_frame (by decide) ?_
    | (split <;> try dsimp only)

theorem State.lsFbDone_frame {s : State} {a1 : _} {a2 : _} {a3 : _} : SameBut (State.lsFbDone s a1 a2 a3) s [.bands]
    := by
  unfold State.lsFbDone
  try dsimp only
  repeat' first
    | with_reducible exact SameBut.refl _ _
    | with_reducible assumption
    | with_reducible refine SameBut.call State.slotCheck_frame (by decide) ?_
    | with_reducible refine SameBut.call State.setSlot_frame (by decide) ?_
    | (split <;> try dsimp only)

theorem State.lsClear_frame {s : State} {a1 : _} : SameBut (State.lsClear s a1) s [.bands] := by
  unfold State.lsClear
  try dsimp only
  repeat' first
    | with_reducible exact SameBut.refl _ _
    | with_reducible assumption
    | with_reducible refine SameBut.call State.onBand_frame (by decide) ?_

theorem State.warpCounted_frame {s : State} {a1 : _} : SameBut (State.warpCounted s a1) s [.warp] := by
  unfold State.warpCounted
  try dsimp only
  repeat' first
    | with_reducible exact SameBut.refl _ _
    | with_reducible assumption
    | (split <;> try dsimp only)
    | ((with_reducible refine SameBut.upd rfl ?_ ?_); intro p hp; (cases p <;> (try (with_reducible rfl)));
        exact absurd (by decide) hp; (repeat (exact absurd (by decide) hp)))

theorem State.inputToBand_frame {s : State} {a1 : _} {a2 : _} {a3 : _} {a4 : _} : SameBut (State.inputToBand s a1 a2
    a3 a4) s [.regs, .dram, .dramBad, .cores, .bands] := by
  unfold State.inputToBand
  try dsimp only
  repeat' first
    | with_reducible exact SameBut.refl _ _
    | with_reducible assumption
    | with_reducible refine SameBut.call State.incF_frame (by decide) ?_
    | with_reducible refine SameBut.call State.writeMem_frame (by decide) ?_
    | with_reducible refine SameBut.call State.onBand_frame (by decide) ?_
    | with_reducible refine SameBut.call State.lsMerge_frame (by decide) ?_
    | with_reducible refine SameBut.call State.lsMark_frame (by decide) ?_
    | (split <;> try dsimp only)

theorem State.setLsMap_frame {s : State} {a1 : _} {a2 : _} : SameBut (State.setLsMap s a1 a2) s [.regs, .bands] := by
  unfold State.setLsMap
  try dsimp only
  repeat' first
    | with_reducible exact SameBut.refl _ _
    | with_reducible assumption
    | with_reducible refine SameBut.call State.setF_frame (by decide) ?_
    | with_reducible refine SameBut.call State.onBand_frame (by decide) ?_

theorem State.lsCorrected_frame {s : State} {a1 : _} {a2 : _} : SameBut (State.lsCorrected s a1 a2) s [.regs,
    .bands] := by
  unfold State.lsCorrected
  try dsimp only
  repeat' first
    | with_reducible exact SameBut.refl _ _
    | with_reducible assumption
    | with_reducible refine SameBut.call State.setLsMap_frame (by decide) ?_
    | with_reducible refine SameBut.call State.incF_frame (by decide) ?_
    | (with_reducible refine SameBut.foldl ?_ fun y a => ?_)

theorem State.lsUncorr_frame {s : State} {a1 : _} {a2 : _} : SameBut (State.lsUncorr s a1 a2) s [.regs, .bands] := by
  unfold State.lsUncorr
  try dsimp only
  repeat' first
    | with_reducible exact SameBut.refl _ _
    | with_reducible assumption
    | with_reducible refine SameBut.call State.onBand_frame (by decide) ?_
    | with_reducible refine SameBut.call State.incF_frame (by decide) ?_
    | with_reducible refine SameBut.call State.setLsMap_frame (by decide) ?_

theorem State.lsRead_frame {s : State} {a1 : _} {a2 : _} {a3 : _} {a4 : _} : SameBut (State.lsRead s a1 a2 a3 a4).1
    s [.regs, .bands] := by
  unfold State.lsRead
  try dsimp only
  repeat' first
    | with_reducible exact SameBut.refl _ _
    | with_reducible assumption
    | with_reducible refine SameBut.call State.lsUncorr_frame (by decide) ?_
    | with_reducible refine SameBut.call State.lsCorrected_frame (by decide) ?_
    | (with_reducible refine SameBut.foldl ?_ fun y a => ?_)
    | (split <;> try dsimp only)

theorem State.lsServed_frame {s : State} {a1 : _} {a2 : _} {a3 : _} : SameBut (State.lsServed s a1 a2 a3) s [.bands]
    := by
  unfold State.lsServed
  try dsimp only
  repeat' first
    | with_reducible exact SameBut.refl _ _
    | with_reducible assumption
    | with_reducible refine SameBut.call State.onBand_frame (by decide) ?_

end Sys2Proof.Machine
end

