-- ==== Sys2Proof/Laws/FrameChange.lean ====
section
/-! SUPPORT. What each operation of Machine/Change.lean can change: every field of the state but those listed stays. -/
namespace Sys2Proof.Machine

theorem State.decideChange_frame {s : State} : SameBut (State.decideChange s) s [.regs, .change] := by
  unfold State.decideChange
  try dsimp only
  repeat' first
    | with_reducible exact SameBut.refl _ _
    | with_reducible assumption
    | with_reducible refine SameBut.call State.setF_frame (by decide) ?_
    | (split <;> try dsimp only)
    | ((with_reducible refine SameBut.upd rfl ?_ ?_); intro p hp; (cases p <;> (try (with_reducible rfl)));
        exact absurd (by decide) hp; (repeat (exact absurd (by decide) hp)))

theorem State.modeCheck_frame {s : State} : SameBut (State.modeCheck s) s [.regs, .change] := by
  unfold State.modeCheck
  try dsimp only
  repeat' first
    | with_reducible exact SameBut.refl _ _
    | with_reducible assumption
    | with_reducible refine SameBut.call State.setF_frame (by decide) ?_
    | with_reducible refine SameBut.call State.decideChange_frame (by decide) ?_
    | (split <;> try dsimp only)

end Sys2Proof.Machine
end

