-- ==== Sys2Proof/Laws/FrameInput.lean ====
section
/-! SUPPORT. What each operation of Machine/Input.lean can change: every field of the state but those listed stays. -/
namespace Sys2Proof.Machine

theorem State.onPort_frame {s : State} {a1 : _} {a2 : _} : SameBut (State.onPort s a1 a2) s [.inp] := by
  unfold State.onPort
  try dsimp only
  repeat' first
    | with_reducible exact SameBut.refl _ _
    | with_reducible assumption
    | (split <;> try dsimp only)
    | ((with_reducible refine SameBut.upd rfl ?_ ?_); intro p hp; (cases p <;> (try (with_reducible rfl)));
        exact absurd (by decide) hp; (repeat (exact absurd (by decide) hp)))

theorem State.onInp_frame {s : State} {a1 : _} : SameBut (State.onInp s a1) s [.inp] := by
  unfold State.onInp
  try dsimp only
  repeat' first
    | with_reducible exact SameBut.refl _ _
    | with_reducible assumption
    | (split <;> try dsimp only)
    | ((with_reducible refine SameBut.upd rfl ?_ ?_); intro p hp; (cases p <;> (try (with_reducible rfl)));
        exact absurd (by decide) hp; (repeat (exact absurd (by decide) hp)))

theorem State.cutInput_frame {s : State} : SameBut (State.cutInput s) s [.inp] := by
  unfold State.cutInput
  try dsimp only
  repeat' first
    | with_reducible exact SameBut.refl _ _
    | with_reducible assumption
    | with_reducible refine SameBut.call State.onInp_frame (by decide) ?_

theorem State.noteNoSignal_frame {s : State} : SameBut (State.noteNoSignal s) s [.regs] := by
  unfold State.noteNoSignal
  try dsimp only
  repeat' first
    | with_reducible exact SameBut.refl _ _
    | with_reducible assumption
    | with_reducible refine SameBut.call State.setF_frame (by decide) ?_
    | (split <;> try dsimp only)

theorem State.signalCheck_frame {s : State} {a1 : _} : SameBut (State.signalCheck s a1) s [.regs, .inp] := by
  unfold State.signalCheck
  try dsimp only
  repeat' first
    | with_reducible exact SameBut.refl _ _
    | with_reducible assumption
    | with_reducible refine SameBut.call State.onPort_frame (by decide) ?_
    | with_reducible refine SameBut.call State.setF_frame (by decide) ?_
    | with_reducible refine SameBut.call State.cutInput_frame (by decide) ?_
    | with_reducible refine SameBut.call State.noteNoSignal_frame (by decide) ?_
    | (split <;> try dsimp only)

theorem State.sinkIrq_frame {a0 : State} {s : State} {a2 : _} : SameBut (State.sinkIrq a0 s a2) s [.inp] := by
  unfold State.sinkIrq
  try dsimp only
  repeat' first
    | with_reducible exact SameBut.refl _ _
    | with_reducible assumption
    | with_reducible refine SameBut.call State.onPort_frame (by decide) ?_
    | (split <;> try dsimp only)

theorem State.hpdPulse_frame {s : State} {a1 : _} : SameBut (State.hpdPulse s a1) s [.regs, .inp] := by
  unfold State.hpdPulse
  try dsimp only
  repeat' first
    | with_reducible exact SameBut.refl _ _
    | with_reducible assumption
    | with_reducible refine SameBut.call State.signalCheck_frame (by decide) ?_
    | with_reducible refine SameBut.call State.onPort_frame (by decide) ?_

theorem State.hpdEnd_frame {s : State} {a1 : _} : SameBut (State.hpdEnd s a1) s [.now, .cal, .regs, .cores, .bands,
    .inp] := by
  unfold State.hpdEnd
  try dsimp only
  repeat' first
    | with_reducible exact SameBut.refl _ _
    | with_reducible assumption
    | with_reducible refine SameBut.call State.onPort_frame (by decide) ?_
    | with_reducible refine SameBut.call State.waitUntil_frame (by decide) ?_
    | (split <;> try dsimp only)

theorem State.ppsAgain_frame {s : State} {a1 : _} : SameBut (State.ppsAgain s a1) s [.regs, .inp] := by
  unfold State.ppsAgain
  try dsimp only
  repeat' first
    | with_reducible exact SameBut.refl _ _
    | with_reducible assumption
    | with_reducible refine SameBut.call State.incF_frame (by decide) ?_
    | with_reducible refine SameBut.call State.setF_frame (by decide) ?_
    | with_reducible refine SameBut.call State.signalCheck_frame (by decide) ?_
    | with_reducible refine SameBut.call State.onPort_frame (by decide) ?_
    | (split <;> try dsimp only)

theorem State.linkTrain_frame {s : State} {a1 : _} {a2 : _} {a3 : _} {a4 : _} : SameBut (State.linkTrain s a1 a2 a3
    a4) s [.regs, .inp] := by
  unfold State.linkTrain
  try dsimp only
  repeat' first
    | with_reducible exact SameBut.refl _ _
    | with_reducible assumption
    | with_reducible refine SameBut.call State.setFs_frame (by decide) ?_
    | with_reducible refine SameBut.call State.sinkIrq_frame (by decide) ?_
    | with_reducible refine SameBut.call State.ppsAgain_frame (by decide) ?_
    | with_reducible refine SameBut.call State.onPort_frame (by decide) ?_
    | with_reducible refine SameBut.call State.signalCheck_frame (by decide) ?_
    | (split <;> try dsimp only)

theorem State.ppsIn_frame {s : State} {a1 : _} {a2 : _} : SameBut (State.ppsIn s a1 a2) s [.regs, .inp] := by
  unfold State.ppsIn
  try dsimp only
  repeat' first
    | with_reducible exact SameBut.refl _ _
    | with_reducible assumption
    | with_reducible refine SameBut.call State.onPort_frame (by decide) ?_
    | with_reducible refine SameBut.call State.incF_frame (by decide) ?_
    | with_reducible refine SameBut.call State.setF_frame (by decide) ?_
    | with_reducible refine SameBut.call State.sinkIrq_frame (by decide) ?_
    | with_reducible refine SameBut.call State.signalCheck_frame (by decide) ?_
    | (split <;> try dsimp only)

theorem State.sdpIn_frame {s : State} {a1 : _} {a2 : _} : SameBut (State.sdpIn s a1 a2) s [.regs, .inp] := by
  unfold State.sdpIn
  try dsimp only
  repeat' first
    | with_reducible exact SameBut.refl _ _
    | with_reducible assumption
    | with_reducible refine SameBut.call State.onPort_frame (by decide) ?_
    | with_reducible refine SameBut.call State.setFs_frame (by decide) ?_
    | (split <;> try dsimp only)

theorem State.hdcpAuth_frame {s : State} {a1 : _} {a2 : _} : SameBut (State.hdcpAuth s a1 a2) s [.regs, .inp] := by
  unfold State.hdcpAuth
  try dsimp only
  repeat' first
    | with_reducible exact SameBut.refl _ _
    | with_reducible assumption
    | with_reducible refine SameBut.call State.setF_frame (by decide) ?_
    | with_reducible refine SameBut.call State.sinkIrq_frame (by decide) ?_
    | with_reducible refine SameBut.call State.signalCheck_frame (by decide) ?_
    | with_reducible refine SameBut.call State.onPort_frame (by decide) ?_

theorem State.lose_frame {s : State} {a1 : _} {a2 : _} : SameBut (State.lose s a1 a2) s [.now, .cal, .regs, .cores,
    .bands, .inp] := by
  unfold State.lose
  try dsimp only
  repeat' first
    | with_reducible exact SameBut.refl _ _
    | with_reducible assumption
    | with_reducible refine SameBut.call State.waitUntil_frame (by decide) ?_
    | with_reducible refine SameBut.call State.sinkIrq_frame (by decide) ?_
    | with_reducible refine SameBut.call State.signalCheck_frame (by decide) ?_
    | with_reducible refine SameBut.call State.onPort_frame (by decide) ?_
    | (split <;> try dsimp only)

theorem State.aux_frame {s : State} {a1 : _} {a2 : _} : SameBut (State.aux s a1 a2) s [.inp] := by
  unfold State.aux
  try dsimp only
  repeat' first
    | with_reducible exact SameBut.refl _ _
    | with_reducible assumption
    | with_reducible refine SameBut.call State.onPort_frame (by decide) ?_
    | (split <;> try dsimp only)

theorem State.beginFrame_frame {s : State} {a1 : _} {a2 : _} {a3 : _} {a4 : _} {a5 : _} : SameBut (State.beginFrame
    s a1 a2 a3 a4 a5) s [.regs, .inp, .hist, .avail] := by
  unfold State.beginFrame
  try dsimp only
  repeat' first
    | with_reducible exact SameBut.refl _ _
    | with_reducible assumption
    | with_reducible refine SameBut.call State.onInp_frame (by decide) ?_
    | with_reducible refine SameBut.call State.setF_frame (by decide) ?_
    | with_reducible refine SameBut.call State.incF_frame (by decide) ?_
    | (split <;> try dsimp only)
    | ((with_reducible refine SameBut.upd rfl ?_ ?_); intro p hp; (cases p <;> (try (with_reducible rfl)));
        exact absurd (by decide) hp; (repeat (exact absurd (by decide) hp)))

theorem State.stage8_frame {s : State} {a1 : _} {a2 : _} : SameBut (State.stage8 s a1 a2) s [.regs, .change, .inp,
    .hist, .avail] := by
  unfold State.stage8
  try dsimp only
  repeat' first
    | with_reducible exact SameBut.refl _ _
    | with_reducible assumption
    | with_reducible refine SameBut.call State.setFs_frame (by decide) ?_
    | with_reducible refine SameBut.call State.incF_frame (by decide) ?_
    | with_reducible refine SameBut.call State.onInp_frame (by decide) ?_
    | with_reducible refine SameBut.call State.beginFrame_frame (by decide) ?_
    | with_reducible refine SameBut.call State.decideChange_frame (by decide) ?_
    | (split <;> try dsimp only)

theorem State.frameDone_frame {s : State} {a1 : _} : SameBut (State.frameDone s a1) s [.inp, .hist, .arrived] := by
  unfold State.frameDone
  try dsimp only
  repeat' first
    | with_reducible exact SameBut.refl _ _
    | with_reducible assumption
    | with_reducible refine SameBut.call State.onInp_frame (by decide) ?_
    | (split <;> try dsimp only)
    | ((with_reducible refine SameBut.upd rfl ?_ ?_); intro p hp; (cases p <;> (try (with_reducible rfl)));
        exact absurd (by decide) hp; (repeat (exact absurd (by decide) hp)))

theorem State.diverge_frame {s : State} : SameBut (State.diverge s) s [.regs] := by
  unfold State.diverge
  try dsimp only
  repeat' first
    | with_reducible exact SameBut.refl _ _
    | with_reducible assumption
    | with_reducible refine SameBut.call State.setF_frame (by decide) ?_

theorem State.stage9Replay_frame {s : State} {a1 : _} {a2 : _} : SameBut (State.stage9Replay s a1 a2).2.2 s [.now,
    .cal, .regs, .cores, .bands] := by
  unfold State.stage9Replay
  try dsimp only
  repeat' first
    | with_reducible exact SameBut.refl _ _
    | with_reducible assumption
    | with_reducible refine SameBut.call State.diverge_frame (by decide) ?_
    | with_reducible refine SameBut.call State.waitUntil_frame (by decide) ?_
    | (split <;> try dsimp only)

theorem State.replayCrc_frame {s : State} {a1 : _} {a2 : _} {a3 : _} : SameBut (State.replayCrc s a1 a2 a3) s
    [.regs] := by
  unfold State.replayCrc
  try dsimp only
  repeat' first
    | with_reducible exact SameBut.refl _ _
    | with_reducible assumption
    | with_reducible refine SameBut.call State.incF_frame (by decide) ?_
    | with_reducible refine SameBut.call State.diverge_frame (by decide) ?_
    | (split <;> try dsimp only)

theorem State.writeLine_frame {s : State} {a1 : _} : SameBut (State.writeLine s a1) s [.now, .cal, .regs, .dram,
    .dramBad, .cores, .bands, .inp, .hist, .arrived, .aud] := by
  unfold State.writeLine
  extract_lets +onlyGivenNames y q px s0 s1 crc s2 s3 hdr s4 s5 s6 fr' s7
  have h0 : SameBut s0 s [.now, .cal, .regs, .dram, .dramBad, .cores, .bands, .inp, .hist, .arrived, .aud] :=
      State.stage9Replay_frame.mono (by decide)
  clear_value s0
  have h1 : SameBut s1 s [.now, .cal, .regs, .dram, .dramBad, .cores, .bands, .inp, .hist, .arrived, .aud] := by
    unfold s1
    split
    · exact h0
    · exact SameBut.call State.setF_frame (by decide) (SameBut.call State.incF_frame (by decide) h0)
  clear_value s1
  have h2 : SameBut s2 s [.now, .cal, .regs, .dram, .dramBad, .cores, .bands, .inp, .hist, .arrived, .aud] := by
    unfold s2
    split
    · split
      · exact h1
      · exact SameBut.call State.writeMem_frame (by decide) h1
    · exact h1
  clear_value s2
  have h3 : SameBut s3 s [.now, .cal, .regs, .dram, .dramBad, .cores, .bands, .inp, .hist, .arrived, .aud] := by
    unfold s3
    split
    · exact SameBut.each h2 fun y a => State.inputToBand_frame.mono (by decide)
    · exact h2
  clear_value s3
  have h4 : SameBut s4 s [.now, .cal, .regs, .dram, .dramBad, .cores, .bands, .inp, .hist, .arrived, .aud] :=
      SameBut.call State.record_frame (by decide) h3
  clear_value s4
  have h5 : SameBut s5 s [.now, .cal, .regs, .dram, .dramBad, .cores, .bands, .inp, .hist, .arrived, .aud] := by
    unfold s5
    split
    · split
      · exact SameBut.call State.logPut_frame (by decide) (SameBut.call State.incF_frame (by decide) h4)
      · exact SameBut.call State.logPut_frame (by decide) h4
    · exact h4
  clear_value s5
  have h7 : SameBut s7 s [.now, .cal, .regs, .dram, .dramBad, .cores, .bands, .inp, .hist, .arrived, .aud] :=
      SameBut.call State.onInp_frame (by decide) (SameBut.call State.replayCrc_frame (by decide) h5)
  clear_value s7
  split
  · exact SameBut.call State.frameDone_frame (by decide) h7
  · exact SameBut.call State.onInp_frame (by decide) h7

theorem State.stage10_frame {s : State} : SameBut (State.stage10 s) s [.now, .cal, .regs, .dram, .dramBad, .cores,
    .bands, .inp, .hist, .arrived, .aud] := by
  unfold State.stage10
  try dsimp only
  repeat' first
    | with_reducible exact SameBut.refl _ _
    | with_reducible assumption
    | with_reducible refine SameBut.call State.writeLine_frame (by decide) ?_
    | (split <;> try dsimp only)

theorem State.flushFrame_frame {a0 : _} {s : State} : SameBut (State.flushFrame a0 s) s [.now, .cal, .regs, .dram,
    .dramBad, .cores, .bands, .inp, .hist, .arrived, .aud] := by
  induction a0 generalizing s with
  | zero => exact SameBut.refl _ _
  | succ n ih =>
    unfold State.flushFrame
    split
    · exact SameBut.refl _ _
    · exact ih.trans State.writeLine_frame

theorem State.applyShadows_frame {s : State} : SameBut (State.applyShadows s) s [.regs, .inp] := by
  unfold State.applyShadows
  try dsimp only
  repeat' first
    | with_reducible exact SameBut.refl _ _
    | with_reducible assumption
    | with_reducible refine SameBut.call State.onInp_frame (by decide) ?_
    | with_reducible refine SameBut.call State.yieldF_frame (by decide) ?_
    | with_reducible refine SameBut.call State.noteNoSignal_frame (by decide) ?_
    | (split <;> try dsimp only)

theorem State.pipelineStart_frame {s : State} {a1 : _} {a2 : _} : SameBut (State.pipelineStart s a1 a2) s [.now,
    .cal, .regs, .dram, .dramBad, .cores, .bands, .change, .inp, .hist, .arrived, .avail, .aud] := by
  unfold State.pipelineStart
  try dsimp only
  repeat' first
    | with_reducible exact SameBut.refl _ _
    | with_reducible assumption
    | with_reducible refine SameBut.call State.onInp_frame (by decide) ?_
    | with_reducible refine SameBut.call State.flushFrame_frame (by decide) ?_
    | with_reducible refine SameBut.call State.applyShadows_frame (by decide) ?_
    | with_reducible refine SameBut.call State.setF_frame (by decide) ?_
    | with_reducible refine SameBut.call State.stage8_frame (by decide) ?_
    | (split <;> try dsimp only)

theorem State.proveSignal_frame {s : State} {a1 : _} {a2 : _} : SameBut (State.proveSignal s a1 a2).1 s [.regs,
    .inp] := by
  unfold State.proveSignal
  try dsimp only
  repeat' first
    | with_reducible exact SameBut.refl _ _
    | with_reducible assumption
    | with_reducible refine SameBut.call State.onPort_frame (by decide) ?_
    | with_reducible refine SameBut.call State.setF_frame (by decide) ?_
    | (split <;> try dsimp only)

theorem State.joinLine_frame {s : State} {a1 : _} {a2 : _} : SameBut (State.joinLine s a1 a2) s [.inp] := by
  unfold State.joinLine
  try dsimp only
  repeat' first
    | with_reducible exact SameBut.refl _ _
    | with_reducible assumption
    | with_reducible refine SameBut.call State.onInp_frame (by decide) ?_

theorem State.joinRest_frame {a0 : _} {s : State} {a2 : _} : SameBut (State.joinRest a0 s a2) s [.inp] := by
  unfold State.joinRest
  try dsimp only
  repeat' first
    | with_reducible exact SameBut.refl _ _
    | with_reducible assumption
    | with_reducible refine SameBut.call State.joinLine_frame (by decide) ?_
    | with_reducible refine SameBut.call State.onPort_frame (by decide) ?_
    | (with_reducible refine SameBut.foldl ?_ fun y a => ?_)

theorem State.pairStart_frame {s : State} {a1 : _} {a2 : _} {a3 : _} : SameBut (State.pairStart s a1 a2 a3) s [.now,
    .cal, .regs, .dram, .dramBad, .cores, .bands, .change, .inp, .hist, .arrived, .avail, .aud] := by
  unfold State.pairStart
  try dsimp only
  repeat' first
    | with_reducible exact SameBut.refl _ _
    | with_reducible assumption
    | with_reducible refine SameBut.call State.onInp_frame (by decide) ?_
    | with_reducible refine SameBut.call State.joinRest_frame (by decide) ?_
    | with_reducible refine SameBut.call State.pipelineStart_frame (by decide) ?_
    | with_reducible refine SameBut.call State.cutInput_frame (by decide) ?_
    | with_reducible refine SameBut.call State.setF_frame (by decide) ?_
    | (split <;> try dsimp only)

theorem State.portFrame_frame {s : State} {a1 : _} {a2 : _} : SameBut (State.portFrame s a1 a2) s [.regs, .inp] := by
  unfold State.portFrame
  try dsimp only
  repeat' first
    | with_reducible exact SameBut.refl _ _
    | with_reducible assumption
    | with_reducible refine SameBut.call State.setFs_frame (by decide) ?_
    | with_reducible refine SameBut.call State.setF_frame (by decide) ?_
    | with_reducible refine SameBut.call State.signalCheck_frame (by decide) ?_
    | with_reducible refine SameBut.call State.onPort_frame (by decide) ?_
    | (split <;> try dsimp only)

theorem State.portRestart_frame {s : State} {a1 : _} {a2 : _} : SameBut (State.portRestart s a1 a2) s [.inp] := by
  unfold State.portRestart
  try dsimp only
  repeat' first
    | with_reducible exact SameBut.refl _ _
    | with_reducible assumption
    | with_reducible refine SameBut.call State.onPort_frame (by decide) ?_

theorem State.inputStart_frame {s : State} {a1 : _} {a2 : _} : SameBut (State.inputStart s a1 a2) s [.now, .cal,
    .regs, .dram, .dramBad, .cores, .bands, .change, .inp, .hist, .arrived, .avail, .aud] := by
  unfold State.inputStart
  try dsimp only
  repeat' first
    | with_reducible exact SameBut.refl _ _
    | with_reducible assumption
    | with_reducible refine SameBut.call State.pairStart_frame (by decide) ?_
    | with_reducible refine SameBut.call State.onInp_frame (by decide) ?_
    | with_reducible refine SameBut.call State.pipelineStart_frame (by decide) ?_
    | (split <;> try dsimp only)

theorem State.joinHalves_frame {s : State} {a1 : _} {a2 : _} : SameBut (State.joinHalves s a1 a2) s [.inp] := by
  unfold State.joinHalves
  try dsimp only
  repeat' first
    | with_reducible exact SameBut.refl _ _
    | with_reducible assumption
    | with_reducible refine SameBut.call State.onPort_frame (by decide) ?_
    | with_reducible refine SameBut.call State.joinLine_frame (by decide) ?_
    | (with_reducible refine SameBut.foldl ?_ fun y a => ?_)
    | (split <;> try dsimp only)

theorem State.countLine_frame {s : State} {a1 : _} {a2 : _} {a3 : _} : SameBut (State.countLine s a1 a2 a3) s [.inp]
    := by
  unfold State.countLine
  try dsimp only
  repeat' first
    | with_reducible exact SameBut.refl _ _
    | with_reducible assumption
    | with_reducible refine SameBut.call State.onPort_frame (by decide) ?_

theorem State.pictureLine_frame {s : State} {a1 : _} {a2 : _} {a3 : _} {a4 : _} : SameBut (State.pictureLine s a1 a2
    a3 a4) s [.inp] := by
  unfold State.pictureLine
  try dsimp only
  repeat' first
    | with_reducible exact SameBut.refl _ _
    | with_reducible assumption
    | with_reducible refine SameBut.call State.countLine_frame (by decide) ?_
    | with_reducible refine SameBut.call State.onPort_frame (by decide) ?_
    | with_reducible refine SameBut.call State.joinHalves_frame (by decide) ?_
    | with_reducible refine SameBut.call State.joinLine_frame (by decide) ?_
    | (split <;> try dsimp only)

theorem State.blankPath_frame {s : State} : SameBut (State.blankPath s) s [.now, .cal, .regs, .dram, .dramBad,
    .cores, .bands, .inp, .hist, .arrived, .avail, .aud] := by
  unfold State.blankPath
  try dsimp only
  repeat' first
    | with_reducible exact SameBut.refl _ _
    | with_reducible assumption
    | with_reducible refine SameBut.call State.waitUntil_frame (by decide) ?_
    | with_reducible refine SameBut.call State.flushFrame_frame (by decide) ?_
    | with_reducible refine SameBut.call State.joinRest_frame (by decide) ?_
    | with_reducible refine SameBut.call State.applyShadows_frame (by decide) ?_
    | with_reducible refine SameBut.call State.incF_frame (by decide) ?_
    | with_reducible refine SameBut.call State.onInp_frame (by decide) ?_
    | with_reducible refine SameBut.call State.beginFrame_frame (by decide) ?_
    | (split <;> try dsimp only)

end Sys2Proof.Machine
end

