-- ==== Sys2Proof/Laws/FrameFault.lean ====
section
/-! SUPPORT. What each operation of Machine/Fault.lean can change: every field of the state but those listed stays. -/
namespace Sys2Proof.Machine

theorem State.onThread_frame {s : State} {a1 : _} {a2 : _} {a3 : _} : SameBut (State.onThread s a1 a2 a3) s [.cores]
    := by
  unfold State.onThread
  try dsimp only
  repeat' first
    | with_reducible exact SameBut.refl _ _
    | with_reducible assumption
    | with_reducible refine SameBut.call State.onCore_frame (by decide) ?_

theorem State.setThreadState_frame {s : State} {a1 : _} {a2 : _} {a3 : _} : SameBut (State.setThreadState s a1 a2
    a3) s [.regs] := by
  unfold State.setThreadState
  try dsimp only
  repeat' first
    | with_reducible exact SameBut.refl _ _
    | with_reducible assumption
    | with_reducible refine SameBut.call State.setF_frame (by decide) ?_

theorem State.frameThreads_frame {s : State} {a1 : _} : SameBut (State.frameThreads s a1) s [.regs] := by
  unfold State.frameThreads
  try dsimp only
  repeat' first
    | with_reducible exact SameBut.refl _ _
    | with_reducible assumption
    | with_reducible refine SameBut.call State.setThreadState_frame (by decide) ?_
    | (with_reducible refine SameBut.each ?_ fun y a => ?_)
    | (split <;> try dsimp only)

theorem State.setWait_frame {s : State} {a1 : _} {a2 : _} {a3 : _} : SameBut (State.setWait s a1 a2 a3) s [.regs,
    .cores] := by
  unfold State.setWait
  try dsimp only
  repeat' first
    | with_reducible exact SameBut.refl _ _
    | with_reducible assumption
    | with_reducible refine SameBut.call State.onThread_frame (by decide) ?_
    | with_reducible refine SameBut.call State.setThreadState_frame (by decide) ?_
    | with_reducible refine SameBut.call State.frameThreads_frame (by decide) ?_
    | (split <;> try dsimp only)

theorem State.takeItem_frame {s : State} {a1 : _} {a2 : _} {a3 : _} : SameBut (State.takeItem s a1 a2 a3) s [.cores]
    := by
  unfold State.takeItem
  try dsimp only
  repeat' first
    | with_reducible exact SameBut.refl _ _
    | with_reducible assumption
    | with_reducible refine SameBut.call State.onCore_frame (by decide) ?_
    | (split <;> try dsimp only)

theorem State.semTake_frame {s : State} {a1 : _} {a2 : _} {a3 : _} {a4 : _} : SameBut (State.semTake s a1 a2 a3 a4)
    s [.regs, .cores] := by
  unfold State.semTake
  try dsimp only
  repeat' first
    | with_reducible exact SameBut.refl _ _
    | with_reducible assumption
    | with_reducible refine SameBut.call State.onCore_frame (by decide) ?_
    | with_reducible refine SameBut.call State.takeItem_frame (by decide) ?_
    | with_reducible refine SameBut.call State.setF_frame (by decide) ?_

theorem State.serveWaits_frame {s : State} {a1 : _} {a2 : _} : SameBut (State.serveWaits s a1 a2) s [.regs, .cores]
    := by
  unfold State.serveWaits
  try dsimp only
  repeat' first
    | with_reducible exact SameBut.refl _ _
    | with_reducible assumption
    | with_reducible refine SameBut.call State.occupy_frame (by decide) ?_
    | with_reducible refine SameBut.call State.setWait_frame (by decide) ?_
    | with_reducible refine SameBut.call State.semTake_frame (by decide) ?_
    | with_reducible refine SameBut.call State.onCore_frame (by decide) ?_
    | (with_reducible refine SameBut.foldl ?_ fun y a => ?_)
    | (split <;> try dsimp only)

theorem State.bumpSem_frame {s : State} {a1 : _} {a2 : _} {a3 : _} : SameBut (State.bumpSem s a1 a2 a3) s [.regs,
    .cores] := by
  unfold State.bumpSem
  try dsimp only
  repeat' first
    | with_reducible exact SameBut.refl _ _
    | with_reducible assumption
    | with_reducible refine SameBut.call State.serveWaits_frame (by decide) ?_
    | with_reducible refine SameBut.call State.onCore_frame (by decide) ?_
    | with_reducible refine SameBut.call State.setF_frame (by decide) ?_
    | with_reducible refine SameBut.call State.incF_frame (by decide) ?_
    | (split <;> try dsimp only)

theorem State.sendSignal_frame {s : State} {a1 : _} {a2 : _} {a3 : _} {a4 : _} {a5 : _} : SameBut (State.sendSignal
    s a1 a2 a3 a4 a5) s [.signals] := by
  unfold State.sendSignal
  try dsimp only
  repeat' first
    | with_reducible exact SameBut.refl _ _
    | with_reducible assumption
    | (split <;> try dsimp only)
    | ((with_reducible refine SameBut.upd rfl ?_ ?_); intro p hp; (cases p <;> (try (with_reducible rfl)));
        exact absurd (by decide) hp; (repeat (exact absurd (by decide) hp)))

theorem State.settle_frame {s : State} {a1 : _} {a2 : _} : SameBut (State.settle s a1 a2) s [.regs, .cores, .bands,
    .signals] := by
  induction a2 generalizing s with
  | nil => exact SameBut.refl _ _
  | cons x l ih =>
    cases x with
    | produced dst sem line => exact SameBut.call ih (by decide) (SameBut.call State.sendSignal_frame (by decide)
        (SameBut.refl _ _))
    | release b n y => exact SameBut.call ih (by decide) (SameBut.call State.lsRelease_frame (by decide)
        (SameBut.refl _ _))
    | consumed full src e =>
      unfold State.settle
      refine SameBut.call ih (by decide) ?_
      split
      · exact SameBut.call State.sendSignal_frame (by decide) (SameBut.call State.onCore_frame (by decide)
          (SameBut.call State.setF_frame (by decide) (SameBut.refl _ _)))
      · exact SameBut.call State.onCore_frame (by decide) (SameBut.call State.incF_frame (by decide) (SameBut.refl _
          _))

theorem State.stopEngine_frame {s : State} {a1 : _} {a2 : _} : SameBut (State.stopEngine s a1 a2) s [.regs, .cores]
    := by
  unfold State.stopEngine
  try dsimp only
  repeat' first
    | with_reducible exact SameBut.refl _ _
    | with_reducible assumption
    | with_reducible refine SameBut.call State.setF_frame (by decide) ?_
    | with_reducible refine SameBut.call State.onCore_frame (by decide) ?_
    | (split <;> try dsimp only)

theorem State.abandon_frame {s : State} {a1 : _} {a2 : _} {a3 : _} {a4 : _} {a5 : _} : SameBut (State.abandon s a1
    a2 a3 a4 a5) s [.regs, .cores, .bands, .signals] := by
  unfold State.abandon
  try dsimp only
  repeat' first
    | with_reducible exact SameBut.refl _ _
    | with_reducible assumption
    | with_reducible refine SameBut.call State.onCore_frame (by decide) ?_
    | with_reducible refine SameBut.call State.setWait_frame (by decide) ?_
    | with_reducible refine SameBut.call State.settle_frame (by decide) ?_
    | with_reducible refine SameBut.call State.stopEngine_frame (by decide) ?_
    | (with_reducible refine SameBut.foldl ?_ fun y a => ?_)
    | (split <;> try dsimp only)

theorem State.recordCause_frame {s : State} {a1 : _} {a2 : _} : SameBut (State.recordCause s a1 a2) s [.regs] := by
  unfold State.recordCause
  try dsimp only
  repeat' first
    | with_reducible exact SameBut.refl _ _
    | with_reducible assumption
    | with_reducible refine SameBut.call State.setF_frame (by decide) ?_

theorem State.arriveBarrier_frame {s : State} {a1 : _} {a2 : _} : SameBut (State.arriveBarrier s a1 a2) s [.fab] := by
  unfold State.arriveBarrier
  try dsimp only
  repeat' first
    | with_reducible exact SameBut.refl _ _
    | with_reducible assumption
    | (split <;> try dsimp only)
    | ((with_reducible refine SameBut.upd rfl ?_ ?_); intro p hp; (cases p <;> (try (with_reducible rfl)));
        exact absurd (by decide) hp; (repeat (exact absurd (by decide) hp)))

theorem State.barriersFail_frame {s : State} {a1 : _} : SameBut (State.barriersFail s a1) s [.fab] := by
  unfold State.barriersFail
  try dsimp only
  repeat' first
    | with_reducible exact SameBut.refl _ _
    | with_reducible assumption
    | (with_reducible refine SameBut.each ?_ fun y a => ?_)
    | (with_reducible refine SameBut.foldl ?_ fun y a => ?_)
    | (split <;> try dsimp only)
    | ((with_reducible refine SameBut.upd rfl ?_ ?_); intro p hp; (cases p <;> (try (with_reducible rfl)));
        exact absurd (by decide) hp; (repeat (exact absurd (by decide) hp)))

theorem State.runEnds_frame {s : State} {a1 : _} : SameBut (State.runEnds s a1) s [.fc] := by
  unfold State.runEnds
  try dsimp only
  repeat' first
    | with_reducible exact SameBut.refl _ _
    | with_reducible assumption
    | (split <;> try dsimp only)
    | ((with_reducible refine SameBut.upd rfl ?_ ?_); intro p hp; (cases p <;> (try (with_reducible rfl)));
        exact absurd (by decide) hp; (repeat (exact absurd (by decide) hp)))

theorem State.failIndex_frame {s : State} {a1 : _} : SameBut (State.failIndex s a1) s [.fc, .fab] := by
  unfold State.failIndex
  try dsimp only
  repeat' first
    | with_reducible exact SameBut.refl _ _
    | with_reducible assumption
    | with_reducible refine SameBut.call State.runEnds_frame (by decide) ?_
    | with_reducible refine SameBut.call State.barriersFail_frame (by decide) ?_
    | (split <;> try dsimp only)
    | ((with_reducible refine SameBut.upd rfl ?_ ?_); intro p hp; (cases p <;> (try (with_reducible rfl)));
        exact absurd (by decide) hp; (repeat (exact absurd (by decide) hp)))

theorem State.failRun_frame {s : State} {a1 : _} : SameBut (State.failRun s a1) s [.fc, .fab] := by
  unfold State.failRun
  try dsimp only
  repeat' first
    | with_reducible exact SameBut.refl _ _
    | with_reducible assumption
    | with_reducible refine SameBut.call State.failIndex_frame (by decide) ?_
    | (split <;> try dsimp only)

theorem State.coreFault_frame {s : State} {a1 : _} {a2 : _} {a3 : _} {a4 : _} {a5 : _} {a6 : _} : SameBut
    (State.coreFault s a1 a2 a3 a4 a5 a6) s [.regs, .cores, .bands, .fc, .fab, .signals] := by
  unfold State.coreFault
  try dsimp only
  repeat' first
    | with_reducible exact SameBut.refl _ _
    | with_reducible assumption
    | with_reducible refine SameBut.call State.incF_frame (by decide) ?_
    | with_reducible refine SameBut.call State.setFs_frame (by decide) ?_
    | with_reducible refine SameBut.call State.recordCause_frame (by decide) ?_
    | with_reducible refine SameBut.call State.stopEngine_frame (by decide) ?_
    | with_reducible refine SameBut.call State.abandon_frame (by decide) ?_
    | with_reducible refine SameBut.call State.failRun_frame (by decide) ?_
    | (with_reducible refine SameBut.foldl ?_ fun y a => ?_)
    | (split <;> try dsimp only)

theorem State.setSpadMap_frame {s : State} {a1 : _} {a2 : _} : SameBut (State.setSpadMap s a1 a2) s [.regs, .cores]
    := by
  unfold State.setSpadMap
  try dsimp only
  repeat' first
    | with_reducible exact SameBut.refl _ _
    | with_reducible assumption
    | with_reducible refine SameBut.call State.setF_frame (by decide) ?_
    | with_reducible refine SameBut.call State.onCore_frame (by decide) ?_

theorem State.spadCorrected_frame {s : State} {a1 : _} {a2 : _} : SameBut (State.spadCorrected s a1 a2) s [.regs,
    .cores] := by
  unfold State.spadCorrected
  try dsimp only
  repeat' first
    | with_reducible exact SameBut.refl _ _
    | with_reducible assumption
    | with_reducible refine SameBut.call State.spadLast_frame (by decide) ?_
    | with_reducible refine SameBut.call State.incF_frame (by decide) ?_
    | with_reducible refine SameBut.call State.setSpadMap_frame (by decide) ?_
    | (with_reducible refine SameBut.foldl ?_ fun y a => ?_)

theorem State.spadUncorr_frame {s : State} {a1 : _} {a2 : _} : SameBut (State.spadUncorr s a1 a2) s [.regs, .cores]
    := by
  unfold State.spadUncorr
  try dsimp only
  repeat' first
    | with_reducible exact SameBut.refl _ _
    | with_reducible assumption
    | with_reducible refine SameBut.call State.onCore_frame (by decide) ?_
    | with_reducible refine SameBut.call State.spadLast_frame (by decide) ?_
    | with_reducible refine SameBut.call State.incF_frame (by decide) ?_
    | with_reducible refine SameBut.call State.setSpadMap_frame (by decide) ?_

theorem State.spadRead_frame {s : State} {a1 : _} {a2 : _} {a3 : _} : SameBut (State.spadRead s a1 a2 a3).1 s
    [.regs, .cores] := by
  unfold State.spadRead
  try dsimp only
  repeat' first
    | with_reducible exact SameBut.refl _ _
    | with_reducible assumption
    | with_reducible refine SameBut.call State.spadUncorr_frame (by decide) ?_
    | with_reducible refine SameBut.call State.spadCorrected_frame (by decide) ?_
    | (with_reducible refine SameBut.foldl ?_ fun y a => ?_)
    | (split <;> try dsimp only)

theorem State.stallCorrect_frame {s : State} {a1 : _} {a2 : _} : SameBut (State.stallCorrect s a1 a2) s [.cores] := by
  unfold State.stallCorrect
  try dsimp only
  repeat' first
    | with_reducible exact SameBut.refl _ _
    | with_reducible assumption
    | with_reducible refine SameBut.call State.onCore_frame (by decide) ?_
    | (split <;> try dsimp only)

theorem State.foreRead_frame {s : State} {a1 : _} {a2 : _} {a3 : _} {a4 : _} : SameBut (State.foreRead s a1 a2 a3
    a4).1 s [.regs, .cores] := by
  unfold State.foreRead
  try dsimp only
  repeat' first
    | with_reducible exact SameBut.refl _ _
    | with_reducible assumption
    | with_reducible refine SameBut.call State.spadRead_frame (by decide) ?_
    | with_reducible refine SameBut.call State.stallCorrect_frame (by decide) ?_
    | (split <;> try dsimp only)

theorem State.narrowRow_frame {s : State} {a1 : _} {a2 : _} {a3 : _} {a4 : _} {a5 : _} : SameBut (State.narrowRow s
    a1 a2 a3 a4 a5).2.1 s [.regs, .cores] := by
  unfold State.narrowRow
  try dsimp only
  repeat' first
    | with_reducible exact SameBut.refl _ _
    | with_reducible assumption
    | with_reducible refine SameBut.call State.foreRead_frame (by decide) ?_
    | with_reducible refine SameBut.call State.onCore_frame (by decide) ?_
    | (split <;> try dsimp only)

theorem State.narrowFrom_frame {s : State} {a1 : _} {a2 : _} {a3 : _} {a4 : _} : SameBut (State.narrowFrom s a1 a2
    a3 a4).2.1 s [.regs, .cores] := by
  induction a4 generalizing s with
  | nil => exact SameBut.refl _ _
  | cons x l ih => exact ih.trans State.narrowRow_frame

theorem State.narrowRead_frame {s : State} {a1 : _} {a2 : _} {a3 : _} {a4 : _} {a5 : _} {a6 : _} : SameBut
    (State.narrowRead s a1 a2 a3 a4 a5 a6).2.1 s [.regs, .cores] := by
  unfold State.narrowRead
  try dsimp only
  repeat' first
    | with_reducible exact SameBut.refl _ _
    | with_reducible assumption
    | with_reducible refine SameBut.call State.narrowFrom_frame (by decide) ?_
    | (split <;> try dsimp only)

end Sys2Proof.Machine
end

