-- ==== Sys2Proof/Laws/FrameArray.lean ====
section
/-! SUPPORT. What each operation of Machine/Array.lean can change: every field of the state but those listed stays. -/
namespace Sys2Proof.Machine

theorem State.observe_frame {s : State} {a1 : _} {a2 : _} {a3 : _} {a4 : _} {a5 : _} : SameBut (State.observe s a1
    a2 a3 a4 a5) s [.cores] := by
  unfold State.observe
  try dsimp only
  repeat' first
    | with_reducible exact SameBut.refl _ _
    | with_reducible assumption
    | with_reducible refine SameBut.call State.onCore_frame (by decide) ?_

theorem State.observeAll_frame {s : State} {a1 : _} {a2 : _} {a3 : _} {a4 : _} : SameBut (State.observeAll s a1 a2
    a3 a4) s [.cores] := by
  unfold State.observeAll
  try dsimp only
  repeat' first
    | with_reducible exact SameBut.refl _ _
    | with_reducible assumption
    | with_reducible refine SameBut.call State.observe_frame (by decide) ?_
    | (with_reducible refine SameBut.foldl ?_ fun y a => ?_)

theorem State.emitAt_frame {s : State} {a1 : _} {a2 : _} {a3 : _} {a4 : _} {a5 : _} {a6 : _} {a7 : _} : SameBut
    (State.emitAt s a1 a2 a3 a4 a5 a6 a7) s [.regs, .dram, .dramBad, .cores, .bands] := by
  unfold State.emitAt
  try dsimp only
  repeat' first
    | with_reducible exact SameBut.refl _ _
    | with_reducible assumption
    | with_reducible refine SameBut.call State.emitOut_frame (by decide) ?_

theorem State.emitRow_frame {s : State} {a1 : _} {a2 : _} {a3 : _} {a4 : _} {a5 : _} {a6 : _} {a7 : _} {a8 : _} :
    SameBut (State.emitRow s a1 a2 a3 a4 a5 a6 a7 a8) s [.regs, .dram, .dramBad, .cores, .bands] := by
  unfold State.emitRow
  try dsimp only
  repeat' first
    | with_reducible exact SameBut.refl _ _
    | with_reducible assumption
    | with_reducible refine SameBut.call State.observeAll_frame (by decide) ?_
    | with_reducible refine SameBut.call State.emitAt_frame (by decide) ?_
    | with_reducible refine SameBut.call State.observe_frame (by decide) ?_
    | with_reducible refine SameBut.call State.countArith_frame (by decide) ?_
    | (split <;> try dsimp only)

theorem State.poolPart_frame {s : State} {a1 : _} {a2 : _} {a3 : _} {a4 : _} {a5 : _} {a6 : _} {a7 : _} {a8 : _} {a9
    : _} {a10 : _} : SameBut (State.poolPart s a1 a2 a3 a4 a5 a6 a7 a8 a9 a10).1 s [.regs, .dram, .dramBad, .cores,
    .bands] := by
  unfold State.poolPart
  try dsimp only
  repeat' first
    | with_reducible exact SameBut.refl _ _
    | with_reducible assumption
    | with_reducible refine SameBut.call State.narrowRead_frame (by decide) ?_
    | with_reducible refine SameBut.call State.emitRow_frame (by decide) ?_
    | with_reducible refine SameBut.call State.stageBytes_frame (by decide) ?_
    | (split <;> try dsimp only)

theorem State.poolRow_frame {s : State} {a1 : _} {a2 : _} {a3 : _} {a4 : _} {a5 : _} {a6 : _} {a7 : _} {a8 : _} {a9
    : _} : SameBut (State.poolRow s a1 a2 a3 a4 a5 a6 a7 a8 a9).1 s [.regs, .dram, .dramBad, .cores, .bands] := by
  unfold State.poolRow
  split
  · exact State.emitRow_frame.mono (by decide)
  extract_lets +onlyGivenNames hp wp s1 val r
  have h1 : SameBut s1 s [.regs, .dram, .dramBad, .cores, .bands] := State.onCore_frame.mono (by decide)
  clear_value s1
  have hr : SameBut r.1 s [.regs, .dram, .dramBad, .cores, .bands] := by
    refine SameBut.foldl_fst h1 fun y a => ?_
    dsimp only
    refine SameBut.foldl_fst (SameBut.refl _ _) fun y a => ?_
    split
    · exact SameBut.refl _ _
    split
    · exact State.emitRow_frame.mono (by decide)
    · exact State.poolPart_frame.mono (by decide)
  clear_value r
  dsimp only
  split
  · exact SameBut.call State.onCore_frame (by decide) hr
  · exact hr

theorem State.chanParams_frame {s : State} {a1 : _} {a2 : _} {a3 : _} {a4 : _} {a5 : _} : SameBut (State.chanParams
    s a1 a2 a3 a4 a5).2.1 s [.regs, .cores] := by
  unfold State.chanParams
  try dsimp only
  repeat' first
    | with_reducible exact SameBut.refl _ _
    | with_reducible assumption
    | with_reducible refine SameBut.call State.narrowRead_frame (by decide) ?_

theorem State.partials_frame {s : State} {a1 : _} {a2 : _} {a3 : _} {a4 : _} {a5 : _} {a6 : _} {a7 : _} : SameBut
    (State.partials s a1 a2 a3 a4 a5 a6 a7).2.1 s [.regs, .cores] := by
  unfold State.partials
  try dsimp only
  repeat' first
    | with_reducible exact SameBut.refl _ _
    | with_reducible assumption
    | with_reducible refine SameBut.call State.narrowRead_frame (by decide) ?_
    | (split <;> try dsimp only)

theorem State.requant_frame {s : State} {a1 : _} {a2 : _} {a3 : _} {a4 : _} {a5 : _} {a6 : _} {a7 : _} {a8 : _} {a9
    : _} {a10 : _} : SameBut (State.requant s a1 a2 a3 a4 a5 a6 a7 a8 a9 a10).1 s [.regs, .dram, .dramBad, .cores,
    .bands] := by
  unfold State.requant
  try dsimp only
  repeat' first
    | with_reducible exact SameBut.refl _ _
    | with_reducible assumption
    | with_reducible refine SameBut.call State.partials_frame (by decide) ?_
    | with_reducible refine SameBut.call State.observeAll_frame (by decide) ?_
    | with_reducible refine SameBut.call State.countArith_frame (by decide) ?_
    | with_reducible refine SameBut.call State.emitAt_frame (by decide) ?_
    | with_reducible refine SameBut.call State.chanParams_frame (by decide) ?_
    | with_reducible refine SameBut.call State.poolRow_frame (by decide) ?_
    | (split <;> try dsimp only)

theorem State.fixBank_frame {s : State} {a1 : _} {a2 : _} {a3 : _} {a4 : _} : SameBut (State.fixBank s a1 a2 a3 a4)
    s [.cores, .drz] := by
  unfold State.fixBank
  try dsimp only
  repeat' first
    | with_reducible exact SameBut.refl _ _
    | with_reducible assumption
    | with_reducible refine SameBut.call State.onCore_frame (by decide) ?_
    | (split <;> try dsimp only)
    | ((with_reducible refine SameBut.upd rfl ?_ ?_); intro p hp; (cases p <;> (try (with_reducible rfl)));
        exact absurd (by decide) hp; (repeat (exact absurd (by decide) hp)))

theorem State.outExtent_frame {s : State} {a1 : _} {a2 : _} {a3 : _} {a4 : _} : SameBut (State.outExtent s a1 a2 a3
    a4) s [.regs] := by
  unfold State.outExtent
  try dsimp only
  repeat' first
    | with_reducible exact SameBut.refl _ _
    | with_reducible assumption
    | with_reducible refine SameBut.call State.setExtent_frame (by decide) ?_
    | (split <;> try dsimp only)

theorem State.dynStart_frame {s : State} {a1 : _} {a2 : _} {a3 : _} {a4 : _} : SameBut (State.dynStart s a1 a2 a3
    a4).1 s [.regs, .cores, .bands, .signals] := by
  unfold State.dynStart
  try dsimp only
  repeat' first
    | with_reducible exact SameBut.refl _ _
    | with_reducible assumption
    | with_reducible refine SameBut.call State.settle_frame (by decide) ?_
    | with_reducible refine SameBut.call State.incF_frame (by decide) ?_
    | with_reducible refine SameBut.call State.outExtent_frame (by decide) ?_
    | (split <;> try dsimp only)

theorem State.cancelBeside_frame {s : State} {a1 : _} {a2 : _} {a3 : _} : SameBut (State.cancelBeside s a1 a2 a3) s
    [.cores] := by
  unfold State.cancelBeside
  try dsimp only
  repeat' first
    | with_reducible exact SameBut.refl _ _
    | with_reducible assumption
    | with_reducible refine SameBut.call State.onCore_frame (by decide) ?_

theorem State.noteConflict_frame {s : State} {a1 : _} {a2 : _} {a3 : _} : SameBut (State.noteConflict s a1 a2 a3) s
    [.regs, .cores] := by
  unfold State.noteConflict
  try dsimp only
  repeat' first
    | with_reducible exact SameBut.refl _ _
    | with_reducible assumption
    | with_reducible refine SameBut.call State.incF_frame (by decide) ?_
    | with_reducible refine SameBut.call State.setFs_frame (by decide) ?_
    | with_reducible refine SameBut.call State.cancelBeside_frame (by decide) ?_
    | (split <;> try dsimp only)

theorem State.parityError_frame {s : State} {a1 : _} {a2 : _} : SameBut (State.parityError s a1 a2) s [.regs,
    .cores] := by
  unfold State.parityError
  try dsimp only
  repeat' first
    | with_reducible exact SameBut.refl _ _
    | with_reducible assumption
    | with_reducible refine SameBut.call State.incF_frame (by decide) ?_
    | with_reducible refine SameBut.call State.onCore_frame (by decide) ?_
    | (split <;> try dsimp only)

theorem State.beginLine_frame {s : State} {a1 : _} {a2 : _} {a3 : _} : SameBut (State.beginLine s a1 a2 a3) s
    [.cores] := by
  unfold State.beginLine
  try dsimp only
  repeat' first
    | with_reducible exact SameBut.refl _ _
    | with_reducible assumption
    | with_reducible refine SameBut.call State.onCore_frame (by decide) ?_

theorem State.chargeWaiting_frame {s : State} {a1 : _} {a2 : _} {a3 : _} {a4 : _} : SameBut (State.chargeWaiting s
    a1 a2 a3 a4) s [.cores] := by
  unfold State.chargeWaiting
  try dsimp only
  repeat' first
    | with_reducible exact SameBut.refl _ _
    | with_reducible assumption
    | with_reducible refine SameBut.call State.onCore_frame (by decide) ?_

theorem State.runOn_frame {s : State} {a1 : _} {a2 : _} {a3 : _} : SameBut (State.runOn s a1 a2 a3) s [.regs,
    .cores] := by
  unfold State.runOn
  try dsimp only
  repeat' first
    | with_reducible exact SameBut.refl _ _
    | with_reducible assumption
    | with_reducible refine SameBut.call State.beginLine_frame (by decide) ?_
    | with_reducible refine SameBut.call State.setThreadState_frame (by decide) ?_
    | with_reducible refine SameBut.call State.onThread_frame (by decide) ?_

theorem State.lineDone_frame {s : State} {a1 : _} {a2 : _} {a3 : _} : SameBut (State.lineDone s a1 a2 a3) s [.cores]
    := by
  unfold State.lineDone
  try dsimp only
  repeat' first
    | with_reducible exact SameBut.refl _ _
    | with_reducible assumption
    | with_reducible refine SameBut.call State.chargeWaiting_frame (by decide) ?_
    | with_reducible refine SameBut.call State.onCore_frame (by decide) ?_
    | (split <;> try dsimp only)

theorem State.endLine_frame {s : State} {a1 : _} {a2 : _} {a3 : _} {a4 : _} {a5 : _} : SameBut (State.endLine s a1
    a2 a3 a4 a5) s [.cores] := by
  unfold State.endLine
  try dsimp only
  repeat' first
    | with_reducible exact SameBut.refl _ _
    | with_reducible assumption
    | with_reducible refine SameBut.call State.lineDone_frame (by decide) ?_
    | (split <;> try dsimp only)

theorem State.rotate_frame {s : State} {a1 : _} {a2 : _} : SameBut (State.rotate s a1 a2) s [.cores] := by
  unfold State.rotate
  try dsimp only
  repeat' first
    | with_reducible exact SameBut.refl _ _
    | with_reducible assumption
    | with_reducible refine SameBut.call State.onCore_frame (by decide) ?_
    | (split <;> try dsimp only)

theorem State.refused1_frame {s : State} {a1 : _} {a2 : _} : SameBut (State.refused1 s a1 a2) s [.regs, .cores] := by
  unfold State.refused1
  try dsimp only
  repeat' first
    | with_reducible exact SameBut.refl _ _
    | with_reducible assumption
    | with_reducible refine SameBut.call State.setThreadState_frame (by decide) ?_
    | with_reducible refine SameBut.call State.onCore_frame (by decide) ?_

theorem State.awaitUnit_frame {s : State} {a1 : _} {a2 : _} {a3 : _} : SameBut (State.awaitUnit s a1 a2 a3) s [.now,
    .cal, .regs, .cores, .bands] := by
  unfold State.awaitUnit
  try dsimp only
  repeat' first
    | with_reducible exact SameBut.refl _ _
    | with_reducible assumption
    | with_reducible refine SameBut.call State.onCore_frame (by decide) ?_
    | with_reducible refine SameBut.call State.waitUntil_frame (by decide) ?_

theorem State.stepBody_frame {s : State} {a1 : _} {a2 : _} {a3 : _} {a4 : _} {a5 : _} {a6 : _} {a7 : _} {a8 : _} :
    SameBut (State.stepBody s a1 a2 a3 a4 a5 a6 a7 a8).1 s [.regs, .dram, .dramBad, .cores, .bands] := by
  unfold State.stepBody
  try dsimp only
  repeat' first
    | with_reducible exact SameBut.refl _ _
    | with_reducible assumption
    | with_reducible refine SameBut.call State.incF_frame (by decide) ?_
    | with_reducible refine SameBut.call State.countArith_frame (by decide) ?_
    | with_reducible refine SameBut.call State.onCore_frame (by decide) ?_
    | with_reducible refine SameBut.call State.inPipe_frame (by decide) ?_
    | with_reducible refine SameBut.call State.occupy_frame (by decide) ?_
    | with_reducible refine SameBut.call State.requant_frame (by decide) ?_
    | with_reducible refine SameBut.call State.endLine_frame (by decide) ?_
    | with_reducible refine SameBut.call State.emitAt_frame (by decide) ?_
    | (split <;> try dsimp only)

theorem State.stepChecks_frame {s : State} {a1 : _} {a2 : _} {a3 : _} {a4 : _} : SameBut (State.stepChecks s a1 a2
    a3 a4).1 s [.regs, .cores] := by
  unfold State.stepChecks
  try dsimp only
  repeat' first
    | with_reducible exact SameBut.refl _ _
    | with_reducible assumption
    | with_reducible refine SameBut.call State.foreRead_frame (by decide) ?_

theorem State.issueStep_frame {s : State} {a1 : _} {a2 : _} {a3 : _} {a4 : _} : SameBut (State.issueStep s a1 a2 a3
    a4) s [.now, .cal, .regs, .dram, .dramBad, .cores, .bands, .fc, .fab, .signals, .drz] := by
  unfold State.issueStep
  try dsimp only
  repeat' first
    | with_reducible exact SameBut.refl _ _
    | with_reducible assumption
    | with_reducible refine SameBut.call State.refused1_frame (by decide) ?_
    | with_reducible refine SameBut.call State.awaitUnit_frame (by decide) ?_
    | with_reducible refine SameBut.call State.setWait_frame (by decide) ?_
    | with_reducible refine SameBut.call State.dynStart_frame (by decide) ?_
    | with_reducible refine SameBut.call State.endLine_frame (by decide) ?_
    | with_reducible refine SameBut.call State.runOn_frame (by decide) ?_
    | with_reducible refine SameBut.call State.fixBank_frame (by decide) ?_
    | with_reducible refine SameBut.call State.rotate_frame (by decide) ?_
    | with_reducible refine SameBut.call State.stepChecks_frame (by decide) ?_
    | with_reducible refine SameBut.call State.stepBody_frame (by decide) ?_
    | with_reducible refine SameBut.call State.onCore_frame (by decide) ?_
    | with_reducible refine SameBut.call State.coreFault_frame (by decide) ?_
    | with_reducible refine SameBut.call State.noteConflict_frame (by decide) ?_
    | with_reducible refine SameBut.call State.parityError_frame (by decide) ?_
    | (with_reducible refine SameBut.foldl ?_ fun y a => ?_)
    | (split <;> try dsimp only)

theorem State.foreReads_frame {s : State} {a1 : _} {a2 : _} {a3 : _} : SameBut (State.foreReads s a1 a2 a3).1 s
    [.regs, .cores] := by
  induction a3 generalizing s with
  | nil => exact SameBut.refl _ _
  | cons x l ih =>
    unfold State.foreReads
    extract_lets +onlyGivenNames r
    split
    · exact State.foreRead_frame
    · exact ih.trans State.foreRead_frame

theorem State.narrowElems_frame {s : State} {a1 : _} {a2 : _} {a3 : _} {a4 : _} {a5 : _} {a6 : _} {a7 : _} : SameBut
    (State.narrowElems s a1 a2 a3 a4 a5 a6 a7).2.1 s [.regs, .cores] := by
  unfold State.narrowElems
  try dsimp only
  repeat' first
    | with_reducible exact SameBut.refl _ _
    | with_reducible assumption
    | with_reducible refine SameBut.call State.narrowRead_frame (by decide) ?_

theorem State.narrowQRow_frame {s : State} {a1 : _} {a2 : _} {a3 : _} {a4 : _} {a5 : _} {a6 : _} {a7 : _} : SameBut
    (State.narrowQRow s a1 a2 a3 a4 a5 a6 a7).2.1 s [.regs, .cores] := by
  unfold State.narrowQRow
  try dsimp only
  repeat' first
    | with_reducible exact SameBut.refl _ _
    | with_reducible assumption
    | with_reducible refine SameBut.call State.narrowRead_frame (by decide) ?_
    | (with_reducible refine SameBut.foldl ?_ fun y a => ?_)
    | (split <;> try dsimp only)

theorem State.tileLoad_frame {s : State} {a1 : _} {a2 : _} {a3 : _} {a4 : _} {a5 : _} : SameBut (State.tileLoad s a1
    a2 a3 a4 a5) s [.now, .cal, .regs, .cores, .bands, .fc, .fab, .signals] := by
  unfold State.tileLoad
  try dsimp only
  repeat' first
    | with_reducible exact SameBut.refl _ _
    | with_reducible assumption
    | with_reducible refine SameBut.call State.refused1_frame (by decide) ?_
    | with_reducible refine SameBut.call State.inPipe_frame (by decide) ?_
    | with_reducible refine SameBut.call State.occupy_frame (by decide) ?_
    | with_reducible refine SameBut.call State.setWait_frame (by decide) ?_
    | with_reducible refine SameBut.call State.rotate_frame (by decide) ?_
    | with_reducible refine SameBut.call State.awaitUnit_frame (by decide) ?_
    | with_reducible refine SameBut.call State.foreReads_frame (by decide) ?_
    | with_reducible refine SameBut.call State.coreFault_frame (by decide) ?_
    | with_reducible refine SameBut.call State.noteConflict_frame (by decide) ?_
    | with_reducible refine SameBut.call State.onCore_frame (by decide) ?_
    | (split <;> try dsimp only)

theorem State.tileLoaded_frame {s : State} {a1 : _} {a2 : _} : SameBut (State.tileLoaded s a1 a2) s [.now, .cal,
    .regs, .cores, .bands] := by
  unfold State.tileLoaded
  try dsimp only
  repeat' first
    | with_reducible exact SameBut.refl _ _
    | with_reducible assumption
    | with_reducible refine SameBut.call State.onCore_frame (by decide) ?_
    | with_reducible refine SameBut.call State.waitUntil_frame (by decide) ?_
    | (split <;> try dsimp only)

theorem State.prefixReads_frame {s : State} {a1 : _} {a2 : _} {a3 : _} {a4 : _} {a5 : _} {a6 : _} : SameBut
    (State.prefixReads s a1 a2 a3 a4 a5 a6).2.1 s [.regs, .cores] := by
  unfold State.prefixReads
  refine SameBut.foldl_of (fun a : List Nat × State × Bool => a.2.1) (SameBut.refl _ _) fun y a => ?_
  dsimp only
  split
  · exact SameBut.refl _ _
  · exact State.narrowElems_frame.mono (by decide)

theorem State.prefixPos_frame {s : State} {a1 : _} {a2 : _} {a3 : _} {a4 : _} {a5 : _} {a6 : _} {a7 : _} : SameBut
    (State.prefixPos s a1 a2 a3 a4 a5 a6 a7).1 s [.regs, .dram, .dramBad, .cores, .bands] := by
  unfold State.prefixPos
  extract_lets +onlyGivenNames rd
  have h : SameBut rd.2.1 s [.regs, .dram, .dramBad, .cores, .bands] := State.prefixReads_frame.mono (by decide)
  clear_value rd
  split
  · exact h
  · extract_lets +onlyGivenNames form c cb vs s1
    have h1 : SameBut s1 s [.regs, .dram, .dramBad, .cores, .bands] := SameBut.call State.observeAll_frame (by
        decide) (SameBut.call State.countArith_frame (by decide) h)
    clear_value s1
    refine SameBut.foldl_fst h1 fun y a => ?_
    dsimp only
    split
    · exact SameBut.refl _ _
    · exact SameBut.call State.requant_frame (by decide) (State.countArith_frame.mono (by decide))

theorem State.engineRun_frame {s : State} {a1 : _} {a2 : _} {a3 : _} {a4 : _} {a5 : _} {a6 : _} {a7 : _} {a8 : _} :
    SameBut (State.engineRun s a1 a2 a3 a4 a5 a6 a7 a8) s [.cores] := by
  unfold State.engineRun
  try dsimp only
  repeat' first
    | with_reducible exact SameBut.refl _ _
    | with_reducible assumption
    | with_reducible refine SameBut.call State.onCore_frame (by decide) ?_
    | with_reducible refine SameBut.call State.inPipe_frame (by decide) ?_
    | with_reducible refine SameBut.call State.occupy_frame (by decide) ?_

theorem State.prefixLayer_frame {s : State} {a1 : _} {a2 : _} {a3 : _} {a4 : _} {a5 : _} {a6 : _} : SameBut
    (State.prefixLayer s a1 a2 a3 a4 a5 a6) s [.now, .cal, .regs, .dram, .dramBad, .cores, .bands, .fc, .fab,
    .signals] := by
  unfold State.prefixLayer
  split
  · exact SameBut.refl _ _
  extract_lets +onlyGivenNames d m
  split
  · exact SameBut.refl _ _
  split
  · exact State.refused1_frame.mono (by decide)
  extract_lets +onlyGivenNames s0
  have h0 : SameBut s0 s [.now, .cal, .regs, .dram, .dramBad, .cores, .bands, .fc, .fab, .signals] :=
      State.awaitUnit_frame.mono (by decide)
  clear_value s0
  split
  · exact SameBut.call State.setWait_frame (by decide) h0
  · exact SameBut.refl _ _
  rename_i start _ _
  extract_lets +onlyGivenNames q
  have hq : SameBut q.1 s [.now, .cal, .regs, .dram, .dramBad, .cores, .bands, .fc, .fab, .signals] := by
    unfold q
    split
    · exact SameBut.call State.dynStart_frame (by decide) h0
    · exact h0
  clear_value q
  split
  · exact SameBut.call State.endLine_frame (by decide) (SameBut.call State.runOn_frame (by decide) hq)
  extract_lets +onlyGivenNames ext s1 f
  have h1 : SameBut s1 s [.now, .cal, .regs, .dram, .dramBad, .cores, .bands, .fc, .fab, .signals] := SameBut.call
      State.runOn_frame (by decide) (SameBut.call State.rotate_frame (by decide) hq)
  clear_value s1 f
  split
  · exact SameBut.call State.coreFault_frame (by decide) (SameBut.call State.noteConflict_frame (by decide) h1)
  split
  · exact SameBut.refl _ _
  extract_lets +onlyGivenNames r
  have hr : SameBut r.1 s [.now, .cal, .regs, .dram, .dramBad, .cores, .bands, .fc, .fab, .signals] := by
    refine SameBut.foldl_fst (SameBut.call State.engineRun_frame (by decide) h1) fun y a => ?_
    split
    · exact SameBut.refl _ _
    · exact State.prefixPos_frame.mono (by decide)
  clear_value r
  split
  · exact SameBut.call State.coreFault_frame (by decide) hr
  extract_lets +onlyGivenNames s2
  have h2 : SameBut s2 s [.now, .cal, .regs, .dram, .dramBad, .cores, .bands, .fc, .fab, .signals] := by
    unfold s2
    split
    · exact SameBut.call State.emitAt_frame (by decide) hr
    · exact hr
  exact SameBut.call State.endLine_frame (by decide) h2

theorem State.suffixReads_frame {s : State} {a1 : _} {a2 : _} {a3 : _} {a4 : _} {a5 : _} {a6 : _} : SameBut
    (State.suffixReads s a1 a2 a3 a4 a5 a6).2.1 s [.regs, .cores] := by
  unfold State.suffixReads
  refine SameBut.foldl_of (fun a : List QRow × State × Bool => a.2.1) (SameBut.refl _ _) fun y a => ?_
  refine SameBut.foldl_of (fun a : List QRow × State × Bool => a.2.1) (SameBut.refl _ _) fun y a => ?_
  dsimp only
  split
  · exact SameBut.refl _ _
  · exact SameBut.call State.incF_frame (by decide) (State.narrowQRow_frame.mono (by decide))

theorem State.suffixPos_frame {s : State} {a1 : _} {a2 : _} {a3 : _} {a4 : _} {a5 : _} {a6 : _} {a7 : _} : SameBut
    (State.suffixPos s a1 a2 a3 a4 a5 a6 a7).2.1 s [.regs, .cores] := by
  unfold State.suffixPos
  try dsimp only
  repeat' first
    | with_reducible exact SameBut.refl _ _
    | with_reducible assumption
    | with_reducible refine SameBut.call State.suffixReads_frame (by decide) ?_
    | with_reducible refine SameBut.call State.partials_frame (by decide) ?_
    | with_reducible refine SameBut.call State.countArith_frame (by decide) ?_
    | with_reducible refine SameBut.call State.chanParams_frame (by decide) ?_
    | with_reducible refine SameBut.call State.observeAll_frame (by decide) ?_
    | (split <;> try dsimp only)

theorem State.suffixLayer_frame {s : State} {a1 : _} {a2 : _} {a3 : _} {a4 : _} {a5 : _} {a6 : _} : SameBut
    (State.suffixLayer s a1 a2 a3 a4 a5 a6) s [.now, .cal, .regs, .cores, .bands, .fc, .fab, .signals] := by
  unfold State.suffixLayer
  split
  · exact SameBut.refl _ _
  extract_lets +onlyGivenNames d m
  split
  · exact SameBut.refl _ _
  split
  · exact State.refused1_frame.mono (by decide)
  extract_lets +onlyGivenNames cl q
  have hq : SameBut q.1 s [.now, .cal, .regs, .cores, .bands, .fc, .fab, .signals] := SameBut.call
      State.dynStart_frame (by decide) (State.awaitUnit_frame.mono (by decide))
  clear_value q
  split
  · exact SameBut.call State.runOn_frame (by decide) hq
  extract_lets +onlyGivenNames ext s1 f
  have h1 : SameBut s1 s [.now, .cal, .regs, .cores, .bands, .fc, .fab, .signals] := SameBut.call State.runOn_frame
      (by decide) (SameBut.call State.rotate_frame (by decide) hq)
  clear_value s1 f
  split
  · exact SameBut.call State.coreFault_frame (by decide) (SameBut.call State.noteConflict_frame (by decide) h1)
  split
  · exact SameBut.refl _ _
  extract_lets +onlyGivenNames res
  have hr : SameBut res.2.1 s [.now, .cal, .regs, .cores, .bands, .fc, .fab, .signals] := by
    refine SameBut.foldl_of (fun a : List (List Nat) × State × Bool => a.2.1) (SameBut.call State.engineRun_frame
        (by decide) h1)
      fun y a => ?_
    dsimp only
    split
    · exact SameBut.refl _ _
    · exact State.suffixPos_frame.mono (by decide)
  clear_value res
  split
  · exact SameBut.call State.coreFault_frame (by decide) hr
  · exact SameBut.call State.onCore_frame (by decide) hr

theorem State.suffixRow_frame {s : State} {a1 : _} : SameBut (State.suffixRow s a1) s [.now, .cal, .regs, .cores,
    .bands] := by
  unfold State.suffixRow
  try dsimp only
  repeat' first
    | with_reducible exact SameBut.refl _ _
    | with_reducible assumption
    | with_reducible refine SameBut.call State.waitUntil_frame (by decide) ?_
    | with_reducible refine SameBut.call State.setWait_frame (by decide) ?_
    | with_reducible refine SameBut.call State.onCore_frame (by decide) ?_
    | with_reducible refine SameBut.call State.chargeWaiting_frame (by decide) ?_
    | (split <;> try dsimp only)

theorem State.binChange_frame {s : State} {a1 : _} : SameBut (State.binChange s a1) s [.now, .cal, .regs, .cores,
    .bands] := by
  unfold State.binChange
  try dsimp only
  repeat' first
    | with_reducible exact SameBut.refl _ _
    | with_reducible assumption
    | with_reducible refine SameBut.call State.incF_frame (by decide) ?_
    | with_reducible refine SameBut.call State.setFs_frame (by decide) ?_
    | with_reducible refine SameBut.call State.waitUntil_frame (by decide) ?_
    | (split <;> try dsimp only)

end Sys2Proof.Machine
end

