-- ==== Sys2Proof/Laws/FrameStreams.lean ====
section
/-! SUPPORT. What each operation of Machine/Streams.lean can change: every field of the state but those listed stays. -/
namespace Sys2Proof.Machine

theorem State.onEng_frame {s : State} {a1 : _} {a2 : _} : SameBut (State.onEng s a1 a2) s [.cores, .bands] := by
  unfold State.onEng
  try dsimp only
  repeat' first
    | with_reducible exact SameBut.refl _ _
    | with_reducible assumption
    | with_reducible refine SameBut.call State.onCore_frame (by decide) ?_
    | with_reducible refine SameBut.call State.onBand_frame (by decide) ?_
    | (split <;> try dsimp only)

theorem State.showOutst_frame {s : State} {a1 : _} : SameBut (State.showOutst s a1) s [.regs] := by
  unfold State.showOutst
  try dsimp only
  repeat' first
    | with_reducible exact SameBut.refl _ _
    | with_reducible assumption
    | with_reducible refine SameBut.call State.setF_frame (by decide) ?_

theorem State.beginList_frame {s : State} {a1 : _} {a2 : _} : SameBut (State.beginList s a1 a2) s [.regs, .cores,
    .bands] := by
  unfold State.beginList
  try dsimp only
  repeat' first
    | with_reducible exact SameBut.refl _ _
    | with_reducible assumption
    | with_reducible refine SameBut.call State.onEng_frame (by decide) ?_
    | with_reducible refine SameBut.call State.setFs_frame (by decide) ?_

theorem State.latchList_frame {s : State} {a1 : _} {a2 : _} : SameBut (State.latchList s a1 a2) s [.regs, .cores,
    .bands] := by
  unfold State.latchList
  try dsimp only
  repeat' first
    | with_reducible exact SameBut.refl _ _
    | with_reducible assumption
    | with_reducible refine SameBut.call State.onEng_frame (by decide) ?_
    | with_reducible refine SameBut.call State.setFs_frame (by decide) ?_

theorem State.startFirst_frame {s : State} {a1 : _} {a2 : _} : SameBut (State.startFirst s a1 a2) s [.regs, .cores,
    .bands] := by
  unfold State.startFirst
  try dsimp only
  repeat' first
    | with_reducible exact SameBut.refl _ _
    | with_reducible assumption
    | with_reducible refine SameBut.call State.latchList_frame (by decide) ?_
    | with_reducible refine SameBut.call State.beginList_frame (by decide) ?_
    | with_reducible refine SameBut.call State.incF_frame (by decide) ?_
    | (split <;> try dsimp only)

theorem State.startList_frame {s : State} {a1 : _} {a2 : _} {a3 : _} : SameBut (State.startList s a1 a2 a3) s
    [.regs, .cores, .bands] := by
  unfold State.startList
  try dsimp only
  repeat' first
    | with_reducible exact SameBut.refl _ _
    | with_reducible assumption
    | with_reducible refine SameBut.call State.startFirst_frame (by decide) ?_
    | with_reducible refine SameBut.call State.beginList_frame (by decide) ?_
    | with_reducible refine SameBut.call State.latchList_frame (by decide) ?_
    | with_reducible refine SameBut.call State.onEng_frame (by decide) ?_
    | with_reducible refine SameBut.call State.incF_frame (by decide) ?_
    | (split <;> try dsimp only)

theorem State.listEnds_frame {s : State} {a1 : _} : SameBut (State.listEnds s a1) s [.regs, .cores, .bands] := by
  unfold State.listEnds
  try dsimp only
  repeat' first
    | with_reducible exact SameBut.refl _ _
    | with_reducible assumption
    | with_reducible refine SameBut.call State.uncountF_frame (by decide) ?_
    | with_reducible refine SameBut.call State.setF_frame (by decide) ?_
    | with_reducible refine SameBut.call State.onEng_frame (by decide) ?_
    | (split <;> try dsimp only)

theorem State.startPending_frame {s : State} {a1 : _} : SameBut (State.startPending s a1) s [.now, .cal, .regs,
    .cores, .bands] := by
  unfold State.startPending
  try dsimp only
  repeat' first
    | with_reducible exact SameBut.refl _ _
    | with_reducible assumption
    | with_reducible refine SameBut.call State.beginList_frame (by decide) ?_
    | with_reducible refine SameBut.call State.onEng_frame (by decide) ?_
    | with_reducible refine SameBut.call State.setF_frame (by decide) ?_
    | with_reducible refine SameBut.call State.waitUntil_frame (by decide) ?_
    | (split <;> try dsimp only)

theorem State.almanacLists_frame {s : State} {a1 : _} : SameBut (State.almanacLists s a1) s [.now, .cal, .regs,
    .cores, .bands] := by
  unfold State.almanacLists
  try dsimp only
  repeat' first
    | with_reducible exact SameBut.refl _ _
    | with_reducible assumption
    | with_reducible refine SameBut.call State.fire_frame (by decide) ?_
    | with_reducible refine SameBut.call State.startList_frame (by decide) ?_
    | (with_reducible refine SameBut.each ?_ fun y a => ?_)
    | (split <;> try dsimp only)

theorem State.srcEcc_frame {s : State} {a1 : _} {a2 : _} {a3 : _} {a4 : _} : SameBut (State.srcEcc s a1 a2 a3 a4).1
    s [.regs, .cores, .bands] := by
  unfold State.srcEcc
  try dsimp only
  repeat' first
    | with_reducible exact SameBut.refl _ _
    | with_reducible assumption
    | with_reducible refine SameBut.call State.spadRead_frame (by decide) ?_
    | with_reducible refine SameBut.call State.lsRead_frame (by decide) ?_
    | (split <;> try dsimp only)

theorem State.bgTurn_frame {s : State} {a1 : _} {a2 : _} {a3 : _} : SameBut (State.bgTurn s a1 a2 a3).1 s [.cores]
    := by
  unfold State.bgTurn
  try dsimp only
  repeat' first
    | with_reducible exact SameBut.refl _ _
    | with_reducible assumption
    | with_reducible refine SameBut.call State.onCore_frame (by decide) ?_
    | (with_reducible refine SameBut.foldl ?_ fun y a => ?_)
    | (split <;> try dsimp only)

theorem State.bgCount_frame {s : State} {a1 : _} : SameBut (State.bgCount s a1) s [.cores] := by
  unfold State.bgCount
  try dsimp only
  repeat' first
    | with_reducible exact SameBut.refl _ _
    | with_reducible assumption
    | with_reducible refine SameBut.call State.onCore_frame (by decide) ?_

theorem State.writeBack_frame {s : State} {a1 : _} {a2 : _} {a3 : _} {a4 : _} {a5 : _} : SameBut (State.writeBack s
    a1 a2 a3 a4 a5) s [.regs, .dram, .dramBad, .cores, .bands] := by
  unfold State.writeBack
  try dsimp only
  repeat' first
    | with_reducible exact SameBut.refl _ _
    | with_reducible assumption
    | with_reducible refine SameBut.call State.writeMem_frame (by decide) ?_
    | with_reducible refine SameBut.call State.mergeEcc_frame (by decide) ?_
    | with_reducible refine SameBut.call State.onCore_frame (by decide) ?_
    | (split <;> try dsimp only)

theorem State.stopBandEng_frame {s : State} {a1 : _} {a2 : _} : SameBut (State.stopBandEng s a1 a2) s [.regs,
    .bands] := by
  unfold State.stopBandEng
  try dsimp only
  repeat' first
    | with_reducible exact SameBut.refl _ _
    | with_reducible assumption
    | with_reducible refine SameBut.call State.setF_frame (by decide) ?_
    | with_reducible refine SameBut.call State.onBand_frame (by decide) ?_
    | (split <;> try dsimp only)

theorem State.haltBand_frame {s : State} {a1 : _} {a2 : _} : SameBut (State.haltBand s a1 a2) s [.regs, .cores,
    .bands, .fc, .fab, .signals] := by
  unfold State.haltBand
  try dsimp only
  repeat' first
    | with_reducible exact SameBut.refl _ _
    | with_reducible assumption
    | with_reducible refine SameBut.call State.coreFault_frame (by decide) ?_
    | with_reducible refine SameBut.call State.stopBandEng_frame (by decide) ?_
    | (with_reducible refine SameBut.each ?_ fun y a => ?_)
    | (split <;> try dsimp only)

theorem State.halt_frame {s : State} {a1 : _} {a2 : _} {a3 : _} {a4 : _} {a5 : _} {a6 : _} {a7 : _} {a8 : _} {a9 :
    _} : SameBut (State.halt s a1 a2 a3 a4 a5 a6 a7 a8 a9) s [.regs, .cores, .bands, .fc, .fab, .signals] := by
  unfold State.halt
  try dsimp only
  repeat' first
    | with_reducible exact SameBut.refl _ _
    | with_reducible assumption
    | with_reducible refine SameBut.call State.incF_frame (by decide) ?_
    | with_reducible refine SameBut.call State.setFs_frame (by decide) ?_
    | with_reducible refine SameBut.call State.onEng_frame (by decide) ?_
    | with_reducible refine SameBut.call State.coreFault_frame (by decide) ?_
    | with_reducible refine SameBut.call State.haltBand_frame (by decide) ?_
    | (split <;> try dsimp only)

theorem State.retryOnce_frame {s : State} {a1 : _} : SameBut (State.retryOnce s a1) s [.regs] := by
  unfold State.retryOnce
  try dsimp only
  repeat' first
    | with_reducible exact SameBut.refl _ _
    | with_reducible assumption
    | with_reducible refine SameBut.call State.setF_frame (by decide) ?_
    | (split <;> try dsimp only)

theorem State.retryTimer_frame {s : State} {a1 : _} : SameBut (State.retryTimer s a1) s [.now, .cal, .regs, .cores,
    .bands] := by
  unfold State.retryTimer
  try dsimp only
  repeat' first
    | with_reducible exact SameBut.refl _ _
    | with_reducible assumption
    | with_reducible refine SameBut.call State.retryOnce_frame (by decide) ?_
    | with_reducible refine SameBut.call State.onEng_frame (by decide) ?_
    | with_reducible refine SameBut.call State.waitUntil_frame (by decide) ?_
    | (split <;> try dsimp only)

theorem State.hostRetry_frame {s : State} {a1 : _} : SameBut (State.hostRetry s a1) s [.now, .cal, .regs, .cores,
    .bands] := by
  unfold State.hostRetry
  try dsimp only
  repeat' first
    | with_reducible exact SameBut.refl _ _
    | with_reducible assumption
    | with_reducible refine SameBut.call State.advance_frame (by decide) ?_
    | with_reducible refine SameBut.call State.retryOnce_frame (by decide) ?_
    | with_reducible refine SameBut.call State.onEng_frame (by decide) ?_
    | (split <;> try dsimp only)

theorem State.engStopped_frame {s : State} {a1 : _} : SameBut (State.engStopped s a1) s [.regs, .cores, .bands] := by
  unfold State.engStopped
  try dsimp only
  repeat' first
    | with_reducible exact SameBut.refl _ _
    | with_reducible assumption
    | with_reducible refine SameBut.call State.setF_frame (by decide) ?_
    | with_reducible refine SameBut.call State.onEng_frame (by decide) ?_
    | (split <;> try dsimp only)

theorem State.freeTiles_frame {s : State} {a1 : _} {a2 : _} : SameBut (State.freeTiles s a1 a2) s [.regs, .cores] :=
    by
  unfold State.freeTiles
  try dsimp only
  repeat' first
    | with_reducible exact SameBut.refl _ _
    | with_reducible assumption
    | with_reducible refine SameBut.call State.setWait_frame (by decide) ?_
    | (with_reducible refine SameBut.each ?_ fun y a => ?_)
    | (split <;> try dsimp only)

theorem State.hostAbort_frame {s : State} {a1 : _} : SameBut (State.hostAbort s a1) s [.regs, .cores, .bands, .fc,
    .fab] := by
  unfold State.hostAbort
  try dsimp only
  repeat' first
    | with_reducible exact SameBut.refl _ _
    | with_reducible assumption
    | with_reducible refine SameBut.call State.freeTiles_frame (by decide) ?_
    | with_reducible refine SameBut.call State.engStopped_frame (by decide) ?_
    | with_reducible refine SameBut.call State.setF_frame (by decide) ?_
    | with_reducible refine SameBut.call State.onEng_frame (by decide) ?_
    | with_reducible refine SameBut.call State.failRun_frame (by decide) ?_
    | (split <;> try dsimp only)

theorem State.xferTurn_frame {s : State} {a1 : _} {a2 : _} {a3 : _} {a4 : _} : SameBut (State.xferTurn s a1 a2 a3
    a4).1 s [.cores, .bands] := by
  unfold State.xferTurn
  try dsimp only
  repeat' first
    | with_reducible exact SameBut.refl _ _
    | with_reducible assumption
    | with_reducible refine SameBut.call State.lsServed_frame (by decide) ?_
    | with_reducible refine SameBut.call State.bgTurn_frame (by decide) ?_
    | (split <;> try dsimp only)

theorem State.burstRead_frame {s : State} {a1 : _} {a2 : _} : SameBut (State.burstRead s a1 a2) s [.regs, .cores,
    .bands, .fc, .fab, .signals] := by
  unfold State.burstRead
  try dsimp only
  repeat' first
    | with_reducible exact SameBut.refl _ _
    | with_reducible assumption
    | with_reducible refine SameBut.call State.xferTurn_frame (by decide) ?_
    | with_reducible refine SameBut.call State.srcEcc_frame (by decide) ?_
    | with_reducible refine SameBut.call State.halt_frame (by decide) ?_
    | with_reducible refine SameBut.call State.onEng_frame (by decide) ?_
    | (split <;> try dsimp only)

theorem State.descSignal_frame {s : State} {a1 : _} {a2 : _} {a3 : _} {a4 : _} : SameBut (State.descSignal s a1 a2
    a3 a4) s [.signals] := by
  unfold State.descSignal
  try dsimp only
  repeat' first
    | with_reducible exact SameBut.refl _ _
    | with_reducible assumption
    | with_reducible refine SameBut.call State.sendSignal_frame (by decide) ?_
    | (with_reducible refine SameBut.foldl ?_ fun y a => ?_)
    | (split <;> try dsimp only)

theorem State.serveTiles_frame {s : State} {a1 : _} {a2 : _} : SameBut (State.serveTiles s a1 a2) s [.regs, .cores]
    := by
  unfold State.serveTiles
  try dsimp only
  repeat' first
    | with_reducible exact SameBut.refl _ _
    | with_reducible assumption
    | with_reducible refine SameBut.call State.freeTiles_frame (by decide) ?_
    | (split <;> try dsimp only)

theorem State.descComplete_frame {s : State} {a1 : _} {a2 : _} : SameBut (State.descComplete s a1 a2) s [.regs,
    .cores, .bands, .signals] := by
  unfold State.descComplete
  try dsimp only
  repeat' first
    | with_reducible exact SameBut.refl _ _
    | with_reducible assumption
    | with_reducible refine SameBut.call State.descSignal_frame (by decide) ?_
    | with_reducible refine SameBut.call State.serveTiles_frame (by decide) ?_
    | with_reducible refine SameBut.call State.wrapF_frame (by decide) ?_
    | with_reducible refine SameBut.call State.listEnds_frame (by decide) ?_
    | with_reducible refine SameBut.call State.onEng_frame (by decide) ?_
    | (split <;> try dsimp only)

theorem State.swapTook_frame {s : State} {a1 : _} {a2 : _} {a3 : _} {a4 : _} : SameBut (State.swapTook s a1 a2 a3
    a4) s [.regs, .cores, .bands] := by
  unfold State.swapTook
  try dsimp only
  repeat' first
    | with_reducible exact SameBut.refl _ _
    | with_reducible assumption
    | with_reducible refine SameBut.call State.onCore_frame (by decide) ?_
    | with_reducible refine SameBut.call State.setWait_frame (by decide) ?_
    | with_reducible refine SameBut.call State.onEng_frame (by decide) ?_
    | (split <;> try dsimp only)

theorem State.onDesc_frame {s : State} {a1 : _} {a2 : _} {a3 : _} : SameBut (State.onDesc s a1 a2 a3) s [.cores,
    .bands] := by
  unfold State.onDesc
  try dsimp only
  repeat' first
    | with_reducible exact SameBut.refl _ _
    | with_reducible assumption
    | with_reducible refine SameBut.call State.onEng_frame (by decide) ?_

theorem State.releaseLines_frame {s : State} {a1 : _} {a2 : _} {a3 : _} : SameBut (State.releaseLines s a1 a2 a3) s
    [.regs, .bands] := by
  unfold State.releaseLines
  try dsimp only
  repeat' first
    | with_reducible exact SameBut.refl _ _
    | with_reducible assumption
    | with_reducible refine SameBut.call State.lsRelease_frame (by decide) ?_
    | (with_reducible refine SameBut.foldl ?_ fun y a => ?_)
    | (split <;> try dsimp only)

theorem State.addMcast_frame {s : State} {a1 : _} : SameBut (State.addMcast s a1) s [.fab] := by
  unfold State.addMcast
  try dsimp only
  repeat' first
    | with_reducible exact SameBut.refl _ _
    | with_reducible assumption
    | (split <;> try dsimp only)
    | ((with_reducible refine SameBut.upd rfl ?_ ?_); intro p hp; (cases p <;> (try (with_reducible rfl)));
        exact absurd (by decide) hp; (repeat (exact absurd (by decide) hp)))

theorem State.sendRemote_frame {s : State} {a1 : _} {a2 : _} {a3 : _} {a4 : _} : SameBut (State.sendRemote s a1 a2
    a3 a4) s [.fab, .remotes] := by
  unfold State.sendRemote
  try dsimp only
  repeat' first
    | with_reducible exact SameBut.refl _ _
    | with_reducible assumption
    | (split <;> try dsimp only)
    | ((with_reducible refine SameBut.upd rfl ?_ ?_); intro p hp; (cases p <;> (try (with_reducible rfl)));
        exact absurd (by decide) hp; (repeat (exact absurd (by decide) hp)))

theorem State.sendXfer_frame {s : State} {a1 : _} {a2 : _} {a3 : _} {a4 : _} {a5 : _} : SameBut (State.sendXfer s a1
    a2 a3 a4 a5) s [.regs, .cores, .bands, .fab, .remotes] := by
  unfold State.sendXfer
  try dsimp only
  repeat' first
    | with_reducible exact SameBut.refl _ _
    | with_reducible assumption
    | with_reducible refine SameBut.call State.onDesc_frame (by decide) ?_
    | with_reducible refine SameBut.call State.onEng_frame (by decide) ?_
    | with_reducible refine SameBut.call State.showOutst_frame (by decide) ?_
    | with_reducible refine SameBut.call State.addMcast_frame (by decide) ?_
    | with_reducible refine SameBut.call State.sendRemote_frame (by decide) ?_
    | (split <;> try dsimp only)

theorem State.latchNext_frame {s : State} {a1 : _} {a2 : _} : SameBut (State.latchNext s a1 a2) s [.fc] := by
  unfold State.latchNext
  try dsimp only
  repeat' first
    | with_reducible exact SameBut.refl _ _
    | with_reducible assumption
    | (split <;> try dsimp only)
    | ((with_reducible refine SameBut.upd rfl ?_ ?_); intro p hp; (cases p <;> (try (with_reducible rfl)));
        exact absurd (by decide) hp; (repeat (exact absurd (by decide) hp)))

theorem State.noteRead_frame {s : State} {a1 : _} {a2 : _} {a3 : _} : SameBut (State.noteRead s a1 a2 a3).1 s [.fc,
    .tds] := by
  unfold State.noteRead
  try dsimp only
  repeat' first
    | with_reducible exact SameBut.refl _ _
    | with_reducible assumption
    | with_reducible refine SameBut.call State.latchNext_frame (by decide) ?_
    | with_reducible refine SameBut.call State.tdAdd_frame (by decide) ?_
    | (split <;> try dsimp only)
    | ((with_reducible refine SameBut.upd rfl ?_ ?_); intro p hp; (cases p <;> (try (with_reducible rfl)));
        exact absurd (by decide) hp; (repeat (exact absurd (by decide) hp)))

theorem State.slotTick_frame {s : State} {a1 : _} {a2 : _} {a3 : _} : SameBut (State.slotTick s a1 a2 a3) s [.cores,
    .bands] := by
  unfold State.slotTick
  try dsimp only
  repeat' first
    | with_reducible exact SameBut.refl _ _
    | with_reducible assumption
    | with_reducible refine SameBut.call State.onEng_frame (by decide) ?_
    | with_reducible refine SameBut.call State.onBand_frame (by decide) ?_
    | (split <;> try dsimp only)

theorem State.descWait_frame {s s0 : State} {g : EngId} {dr : DescRun} (h : s.descWait g dr = some s0) :
    SameBut s0 s [.regs, .cores, .bands] := by
  unfold State.descWait at h
  dsimp only at h
  repeat' split at h
  all_goals first
    | (cases h; exact SameBut.call State.onEng_frame (by decide) (State.semTake_frame.mono (by decide)))
    | (cases h; exact SameBut.call State.onEng_frame (by decide) (State.swapTook_frame.mono (by decide)))
    | (cases h; exact State.onEng_frame.mono (by decide))
    | cases h

theorem State.issueXfer_frame {s : State} {a1 : _} : SameBut (State.issueXfer s a1) s [.regs, .cores, .bands, .fc,
    .fab, .remotes, .signals, .tds] := by
  unfold State.issueXfer
  dsimp only
  split
  · exact SameBut.refl _ _
  refine SameBut.ite (SameBut.refl _ _) ?_
  split
  · exact (State.descWait_frame ‹_›).mono (by decide)
  repeat' first
    | with_reducible exact SameBut.refl _ _
    | with_reducible refine SameBut.call State.onEng_frame (by decide) ?_
    | with_reducible refine SameBut.call State.onDesc_frame (by decide) ?_
    | with_reducible refine SameBut.call State.descComplete_frame (by decide) ?_
    | with_reducible refine SameBut.call State.releaseLines_frame (by decide) ?_
    | with_reducible refine SameBut.call State.slotTick_frame (by decide) ?_
    | with_reducible refine SameBut.call State.noteRead_frame (by decide) ?_
    | with_reducible refine SameBut.call State.sendXfer_frame (by decide) ?_
    | with_reducible refine SameBut.ite ?_ ?_

theorem State.unpackBlock_frame {s : State} {a1 : _} {a2 : _} {a3 : _} {a4 : _} {a5 : _} {a6 : _} {a7 : _} {a8 : _}
    {a9 : _} : SameBut (State.unpackBlock s a1 a2 a3 a4 a5 a6 a7 a8 a9) s [.regs, .dram, .dramBad, .cores, .bands]
    := by
  unfold State.unpackBlock
  try dsimp only
  repeat' first
    | with_reducible exact SameBut.refl _ _
    | with_reducible assumption
    | with_reducible refine SameBut.call State.incF_frame (by decide) ?_
    | with_reducible refine SameBut.call State.writeBack_frame (by decide) ?_
    | (with_reducible refine SameBut.foldl ?_ fun y a => ?_)
    | (split <;> try dsimp only)

theorem State.moveXfer_frame {s : State} {a1 : _} {a2 : _} {a3 : _} {a4 : _} {a5 : _} {a6 : _} {a7 : _} {a8 : _} :
    SameBut (State.moveXfer s a1 a2 a3 a4 a5 a6 a7 a8) s [.regs, .dram, .dramBad, .cores, .bands] := by
  unfold State.moveXfer
  try dsimp only
  repeat' first
    | with_reducible exact SameBut.refl _ _
    | with_reducible assumption
    | with_reducible refine SameBut.call State.writeBack_frame (by decide) ?_
    | with_reducible refine SameBut.call State.unpackBlock_frame (by decide) ?_
    | (with_reducible refine SameBut.foldl ?_ fun y a => ?_)
    | (split <;> try dsimp only)

theorem State.arriveAt_frame {s : State} {a1 : _} {a2 : _} {a3 : _} {a4 : _} {a5 : _} {a6 : _} {a7 : _} : SameBut
    (State.arriveAt s a1 a2 a3 a4 a5 a6 a7) s [.regs, .dram, .dramBad, .cores, .bands] := by
  unfold State.arriveAt
  try dsimp only
  repeat' first
    | with_reducible exact SameBut.refl _ _
    | with_reducible assumption
    | with_reducible refine SameBut.call State.setFs_frame (by decide) ?_
    | with_reducible refine SameBut.call State.incF_frame (by decide) ?_
    | with_reducible refine SameBut.call State.onDesc_frame (by decide) ?_
    | with_reducible refine SameBut.call State.moveXfer_frame (by decide) ?_
    | (split <;> try dsimp only)

theorem State.accepted_frame {s : State} {a1 : _} {a2 : _} {a3 : _} : SameBut (State.accepted s a1 a2 a3) s [.cores,
    .bands] := by
  unfold State.accepted
  try dsimp only
  repeat' first
    | with_reducible exact SameBut.refl _ _
    | with_reducible assumption
    | with_reducible refine SameBut.call State.onEng_frame (by decide) ?_

theorem State.remoteArrival_frame {s : State} {a1 : _} : SameBut (State.remoteArrival s a1) s [.now, .cal, .regs,
    .dram, .dramBad, .cores, .bands, .fab, .remotes] := by
  unfold State.remoteArrival
  try dsimp only
  repeat' first
    | with_reducible exact SameBut.refl _ _
    | with_reducible assumption
    | with_reducible refine SameBut.call State.waitUntil_frame (by decide) ?_
    | with_reducible refine SameBut.call State.bgTurn_frame (by decide) ?_
    | with_reducible refine SameBut.call State.accepted_frame (by decide) ?_
    | with_reducible refine SameBut.call State.arriveAt_frame (by decide) ?_
    | (split <;> try dsimp only)
    | ((with_reducible refine SameBut.upd rfl ?_ ?_); intro p hp; (cases p <;> (try (with_reducible rfl)));
        exact absurd (by decide) hp; (repeat (exact absurd (by decide) hp)))

theorem State.mcastAccepted_frame {s : State} : SameBut (State.mcastAccepted s) s [.now, .cal, .regs, .dram,
    .dramBad, .cores, .bands, .fab] := by
  unfold State.mcastAccepted
  split
  · exact SameBut.refl _ _
  split
  · exact SameBut.refl _ _
  extract_lets +onlyGivenNames s0
  have h0 : SameBut s0 s [.now, .cal, .regs, .dram, .dramBad, .cores, .bands, .fab] := State.waitUntil_frame.mono
      (by decide)
  clear_value s0
  split
  · exact SameBut.upd rfl (by
          intro p hp
          cases p <;> first | with_reducible rfl | exact absurd (by decide) hp) h0
  extract_lets +onlyGivenNames d q
  have hq : SameBut q.1 s [.now, .cal, .regs, .dram, .dramBad, .cores, .bands, .fab] := SameBut.foldl_fst h0 fun y a
      => State.bgTurn_frame.mono (by decide)
  clear_value q
  split
  · exact hq
  extract_lets +onlyGivenNames x1 x2 s1
  have h1 : SameBut s1 s [.now, .cal, .regs, .dram, .dramBad, .cores, .bands, .fab] := SameBut.upd rfl (by
          intro p hp
          cases p <;> first | with_reducible rfl | exact absurd (by decide) hp) hq
  clear_value s1
  exact SameBut.call State.accepted_frame (by decide) (SameBut.foldl h1 fun y a => State.arriveAt_frame.mono (by
      decide))

theorem State.finishXfer_frame {s : State} {a1 : _} {a2 : _} {a3 : _} {a4 : _} {a5 : _} : SameBut (State.finishXfer
    s a1 a2 a3 a4 a5) s [.regs, .cores, .bands, .signals] := by
  unfold State.finishXfer
  try dsimp only
  repeat' first
    | with_reducible exact SameBut.refl _ _
    | with_reducible assumption
    | with_reducible refine SameBut.call State.onDesc_frame (by decide) ?_
    | with_reducible refine SameBut.call State.releaseLines_frame (by decide) ?_
    | with_reducible refine SameBut.call State.lsMark_frame (by decide) ?_
    | with_reducible refine SameBut.call State.descComplete_frame (by decide) ?_
    | (split <;> try dsimp only)

theorem State.xferBad_frame {s : State} {a1 : _} {a2 : _} {a3 : _} {a4 : _} {a5 : _} {a6 : _} : SameBut
    (State.xferBad s a1 a2 a3 a4 a5 a6) s [.regs, .cores, .bands, .fc, .fab, .remotes, .signals] := by
  unfold State.xferBad
  try dsimp only
  repeat' first
    | with_reducible exact SameBut.refl _ _
    | with_reducible assumption
    | with_reducible refine SameBut.call State.engStopped_frame (by decide) ?_
    | with_reducible refine SameBut.call State.halt_frame (by decide) ?_
    | (split <;> try dsimp only)
    | ((with_reducible refine SameBut.upd rfl ?_ ?_); intro p hp; (cases p <;> (try (with_reducible rfl)));
        exact absurd (by decide) hp; (repeat (exact absurd (by decide) hp)))

theorem State.xferLand_frame {s : State} {a1 : _} {a2 : _} {a3 : _} {a4 : _} {a5 : _} {a6 : _} : SameBut
    (State.xferLand s a1 a2 a3 a4 a5 a6) s [.regs, .dram, .dramBad, .cores, .bands, .signals] := by
  unfold State.xferLand
  try dsimp only
  repeat' first
    | with_reducible exact SameBut.refl _ _
    | with_reducible assumption
    | with_reducible refine SameBut.call State.showOutst_frame (by decide) ?_
    | with_reducible refine SameBut.call State.onEng_frame (by decide) ?_
    | with_reducible refine SameBut.call State.wrapF_frame (by decide) ?_
    | with_reducible refine SameBut.call State.moveXfer_frame (by decide) ?_
    | with_reducible refine SameBut.call State.engStopped_frame (by decide) ?_
    | with_reducible refine SameBut.call State.finishXfer_frame (by decide) ?_
    | (split <;> try dsimp only)

theorem State.xferComplete_frame {s : State} {a1 : _} {a2 : _} {a3 : _} : SameBut (State.xferComplete s a1 a2 a3) s
    [.now, .cal, .regs, .dram, .dramBad, .cores, .bands, .fc, .fab, .remotes, .signals] := by
  unfold State.xferComplete
  try dsimp only
  repeat' first
    | with_reducible exact SameBut.refl _ _
    | with_reducible assumption
    | with_reducible refine SameBut.call State.engStopped_frame (by decide) ?_
    | with_reducible refine SameBut.call State.showOutst_frame (by decide) ?_
    | with_reducible refine SameBut.call State.onEng_frame (by decide) ?_
    | with_reducible refine SameBut.call State.xferTurn_frame (by decide) ?_
    | with_reducible refine SameBut.call State.waitUntil_frame (by decide) ?_
    | with_reducible refine SameBut.call State.srcEcc_frame (by decide) ?_
    | with_reducible refine SameBut.call State.xferBad_frame (by decide) ?_
    | with_reducible refine SameBut.call State.xferLand_frame (by decide) ?_
    | (split <;> try dsimp only)

end Sys2Proof.Machine
end

