-- ==== Sys2Proof/Laws/FrameThreads.lean ====
section
/-! SUPPORT. What each operation of Machine/Threads.lean can change: every field of the state but those listed stays. -/
namespace Sys2Proof.Machine

theorem State.issueOp_frame {s : State} {a1 : _} {a2 : _} {a3 : _} : SameBut (State.issueOp s a1 a2 a3) s [.now,
    .cal, .regs, .cores, .bands] := by
  unfold State.issueOp
  try dsimp only
  repeat' first
    | with_reducible exact SameBut.refl _ _
    | with_reducible assumption
    | with_reducible refine SameBut.call State.occupy_frame (by decide) ?_
    | with_reducible refine SameBut.call State.runOn_frame (by decide) ?_
    | with_reducible refine SameBut.call State.rotate_frame (by decide) ?_
    | with_reducible refine SameBut.call State.awaitUnit_frame (by decide) ?_

theorem State.threadWait_frame {s : State} {a1 : _} {a2 : _} {a3 : _} {a4 : _} : SameBut (State.threadWait s a1 a2
    a3 a4) s [.now, .cal, .regs, .cores, .bands] := by
  unfold State.threadWait
  try dsimp only
  repeat' first
    | with_reducible exact SameBut.refl _ _
    | with_reducible assumption
    | with_reducible refine SameBut.call State.issueOp_frame (by decide) ?_
    | with_reducible refine SameBut.call State.semTake_frame (by decide) ?_
    | with_reducible refine SameBut.call State.swapTook_frame (by decide) ?_
    | with_reducible refine SameBut.call State.setWait_frame (by decide) ?_
    | (split <;> try dsimp only)

theorem State.awaitTile_frame {s : State} {a1 : _} {a2 : _} {a3 : _} {a4 : _} : SameBut (State.awaitTile s a1 a2 a3
    a4) s [.now, .cal, .regs, .cores, .bands] := by
  unfold State.awaitTile
  try dsimp only
  repeat' first
    | with_reducible exact SameBut.refl _ _
    | with_reducible assumption
    | with_reducible refine SameBut.call State.issueOp_frame (by decide) ?_
    | with_reducible refine SameBut.call State.setWait_frame (by decide) ?_
    | (split <;> try dsimp only)

theorem State.consumeTile_frame {s : State} {a1 : _} {a2 : _} {a3 : _} {a4 : _} : SameBut (State.consumeTile s a1 a2
    a3 a4) s [.now, .cal, .regs, .cores, .bands] := by
  unfold State.consumeTile
  try dsimp only
  repeat' first
    | with_reducible exact SameBut.refl _ _
    | with_reducible assumption
    | with_reducible refine SameBut.call State.wrapF_frame (by decide) ?_
    | with_reducible refine SameBut.call State.issueOp_frame (by decide) ?_
    | (split <;> try dsimp only)

theorem State.streamStart_frame {s : State} {a1 : _} {a2 : _} {a3 : _} {a4 : _} : SameBut (State.streamStart s a1 a2
    a3 a4) s [.now, .cal, .regs, .cores, .bands] := by
  unfold State.streamStart
  try dsimp only
  repeat' first
    | with_reducible exact SameBut.refl _ _
    | with_reducible assumption
    | with_reducible refine SameBut.call State.issueOp_frame (by decide) ?_
    | with_reducible refine SameBut.call State.startList_frame (by decide) ?_
    | (split <;> try dsimp only)

theorem State.signalAt_frame {s : State} {a1 : _} {a2 : _} {a3 : _} : SameBut (State.signalAt s a1 a2 a3) s [.regs,
    .cores, .signals] := by
  unfold State.signalAt
  try dsimp only
  repeat' first
    | with_reducible exact SameBut.refl _ _
    | with_reducible assumption
    | with_reducible refine SameBut.call State.onCore_frame (by decide) ?_
    | with_reducible refine SameBut.call State.setF_frame (by decide) ?_
    | with_reducible refine SameBut.call State.sendSignal_frame (by decide) ?_
    | with_reducible refine SameBut.call State.bumpSem_frame (by decide) ?_
    | (split <;> try dsimp only)

theorem State.signalArrive_frame {s : State} {a1 : _} : SameBut (State.signalArrive s a1) s [.now, .cal, .regs,
    .cores, .bands, .signals] := by
  unfold State.signalArrive
  try dsimp only
  repeat' first
    | with_reducible exact SameBut.refl _ _
    | with_reducible assumption
    | with_reducible refine SameBut.call State.waitUntil_frame (by decide) ?_
    | with_reducible refine SameBut.call State.signalAt_frame (by decide) ?_
    | (split <;> try dsimp only)
    | ((with_reducible refine SameBut.upd rfl ?_ ?_); intro p hp; (cases p <;> (try (with_reducible rfl)));
        exact absurd (by decide) hp; (repeat (exact absurd (by decide) hp)))

theorem State.threadSignal_frame {s : State} {a1 : _} {a2 : _} {a3 : _} {a4 : _} {a5 : _} : SameBut
    (State.threadSignal s a1 a2 a3 a4 a5) s [.now, .cal, .regs, .cores, .bands, .signals] := by
  unfold State.threadSignal
  try dsimp only
  repeat' first
    | with_reducible exact SameBut.refl _ _
    | with_reducible assumption
    | with_reducible refine SameBut.call State.sendSignal_frame (by decide) ?_
    | with_reducible refine SameBut.call State.issueOp_frame (by decide) ?_
    | (split <;> try dsimp only)

theorem State.signalIn_frame {s : State} {a1 : _} : SameBut (State.signalIn s a1) s [.now, .cal, .regs, .cores,
    .bands, .signals] := by
  unfold State.signalIn
  try dsimp only
  repeat' first
    | with_reducible exact SameBut.refl _ _
    | with_reducible assumption
    | with_reducible refine SameBut.call State.threadSignal_frame (by decide) ?_
    | with_reducible refine SameBut.call State.signalArrive_frame (by decide) ?_
    | (split <;> try dsimp only)

theorem State.drainSem_frame {s : State} {a1 : _} {a2 : _} : SameBut (State.drainSem s a1 a2) s [.regs, .cores] := by
  unfold State.drainSem
  try dsimp only
  repeat' first
    | with_reducible exact SameBut.refl _ _
    | with_reducible assumption
    | with_reducible refine SameBut.call State.onCore_frame (by decide) ?_
    | with_reducible refine SameBut.call State.incF_frame (by decide) ?_
    | with_reducible refine SameBut.call State.setFs_frame (by decide) ?_
    | (split <;> try dsimp only)

theorem State.dropPending_frame {s : State} {a1 : _} : SameBut (State.dropPending s a1) s [.regs, .cores, .bands] :=
    by
  unfold State.dropPending
  try dsimp only
  repeat' first
    | with_reducible exact SameBut.refl _ _
    | with_reducible assumption
    | with_reducible refine SameBut.call State.onEng_frame (by decide) ?_
    | with_reducible refine SameBut.call State.setF_frame (by decide) ?_

theorem State.coreDrained_frame {s : State} {a1 : _} {a2 : _} : SameBut (State.coreDrained s a1 a2) s [.fc] := by
  unfold State.coreDrained
  try dsimp only
  repeat' first
    | with_reducible exact SameBut.refl _ _
    | with_reducible assumption
    | with_reducible refine SameBut.call State.runEnds_frame (by decide) ?_
    | (split <;> try dsimp only)
    | ((with_reducible refine SameBut.upd rfl ?_ ?_); intro p hp; (cases p <;> (try (with_reducible rfl)));
        exact absurd (by decide) hp; (repeat (exact absurd (by decide) hp)))

theorem State.giveLine_frame {s : State} {a1 : _} {a2 : _} {a3 : _} : SameBut (State.giveLine s a1 a2 a3) s [.regs,
    .cores] := by
  unfold State.giveLine
  try dsimp only
  repeat' first
    | with_reducible exact SameBut.refl _ _
    | with_reducible assumption
    | with_reducible refine SameBut.call State.setF_frame (by decide) ?_
    | with_reducible refine SameBut.call State.onThread_frame (by decide) ?_
    | (split <;> try dsimp only)

theorem State.nextLine_frame {s : State} {a1 : _} {a2 : _} : SameBut (State.nextLine s a1 a2) s [.regs, .cores] := by
  unfold State.nextLine
  try dsimp only
  repeat' first
    | with_reducible exact SameBut.refl _ _
    | with_reducible assumption
    | with_reducible refine SameBut.call State.onCore_frame (by decide) ?_
    | with_reducible refine SameBut.call State.giveLine_frame (by decide) ?_
    | with_reducible refine SameBut.call State.setF_frame (by decide) ?_
    | (split <;> try dsimp only)

theorem State.dropClause_frame {s : State} {a1 : _} {a2 : _} : SameBut (State.dropClause s a1 a2) s [.regs, .cores]
    := by
  unfold State.dropClause
  try dsimp only
  repeat' first
    | with_reducible exact SameBut.refl _ _
    | with_reducible assumption
    | with_reducible refine SameBut.call State.onCore_frame (by decide) ?_
    | with_reducible refine SameBut.call State.setThreadState_frame (by decide) ?_
    | with_reducible refine SameBut.call State.onThread_frame (by decide) ?_
    | with_reducible refine SameBut.call State.frameThreads_frame (by decide) ?_
    | (split <;> try dsimp only)

theorem State.dropPendings_frame {s : State} {a1 : _} {a2 : _} {a3 : _} : SameBut (State.dropPendings s a1 a2 a3) s
    [.regs, .cores, .bands] := by
  unfold State.dropPendings
  try dsimp only
  repeat' first
    | with_reducible exact SameBut.refl _ _
    | with_reducible assumption
    | with_reducible refine SameBut.call State.dropPending_frame (by decide) ?_
    | (with_reducible refine SameBut.foldl ?_ fun y a => ?_)
    | (split <;> try dsimp only)

theorem State.clauseDrained_frame {s : State} {a1 : _} {a2 : _} {a3 : _} {a4 : _} : SameBut (State.clauseDrained s
    a1 a2 a3 a4) s [.now, .cal, .regs, .cores, .bands, .fc] := by
  unfold State.clauseDrained
  try dsimp only
  repeat' first
    | with_reducible exact SameBut.refl _ _
    | with_reducible assumption
    | with_reducible refine SameBut.call State.waitUntil_frame (by decide) ?_
    | with_reducible refine SameBut.call State.drainSem_frame (by decide) ?_
    | with_reducible refine SameBut.call State.dropClause_frame (by decide) ?_
    | with_reducible refine SameBut.call State.dropPendings_frame (by decide) ?_
    | with_reducible refine SameBut.call State.coreDrained_frame (by decide) ?_
    | with_reducible refine SameBut.call State.nextLine_frame (by decide) ?_
    | (with_reducible refine SameBut.foldl ?_ fun y a => ?_)
    | (split <;> try dsimp only)

theorem State.barrierArrive_frame {s : State} {a1 : _} {a2 : _} {a3 : _} {a4 : _} : SameBut (State.barrierArrive s
    a1 a2 a3 a4) s [.now, .cal, .regs, .cores, .bands, .fab] := by
  unfold State.barrierArrive
  try dsimp only
  repeat' first
    | with_reducible exact SameBut.refl _ _
    | with_reducible assumption
    | with_reducible refine SameBut.call State.arriveBarrier_frame (by decide) ?_
    | with_reducible refine SameBut.call State.issueOp_frame (by decide) ?_
    | with_reducible refine SameBut.call State.setWait_frame (by decide) ?_
    | (split <;> try dsimp only)

theorem State.barrierComplete_frame {s : State} {a1 : _} : SameBut (State.barrierComplete s a1) s [.now, .cal,
    .regs, .cores, .bands, .fab] := by
  unfold State.barrierComplete
  try dsimp only
  repeat' first
    | with_reducible exact SameBut.refl _ _
    | with_reducible assumption
    | with_reducible refine SameBut.call State.waitUntil_frame (by decide) ?_
    | with_reducible refine SameBut.call State.setWait_frame (by decide) ?_
    | with_reducible refine SameBut.call State.incF_frame (by decide) ?_
    | (with_reducible refine SameBut.each ?_ fun y a => ?_)
    | (with_reducible refine SameBut.foldl ?_ fun y a => ?_)
    | (split <;> try dsimp only)
    | ((with_reducible refine SameBut.upd rfl ?_ ?_); intro p hp; (cases p <;> (try (with_reducible rfl)));
        exact absurd (by decide) hp; (repeat (exact absurd (by decide) hp)))

theorem State.background_frame {s : State} {a1 : _} {a2 : _} {a3 : _} {a4 : _} {a5 : _} {a6 : _} : SameBut
    (State.background s a1 a2 a3 a4 a5 a6) s [.regs, .cores] := by
  unfold State.background
  try dsimp only
  repeat' first
    | with_reducible exact SameBut.refl _ _
    | with_reducible assumption
    | with_reducible refine SameBut.call State.bgTurn_frame (by decide) ?_
    | with_reducible refine SameBut.call State.spadMerge_frame (by decide) ?_
    | with_reducible refine SameBut.call State.spadRead_frame (by decide) ?_
    | (split <;> try dsimp only)

theorem State.stallOver_frame {s : State} {a1 : _} : SameBut (State.stallOver s a1) s [.now, .cal, .regs, .cores,
    .bands] := by
  unfold State.stallOver
  try dsimp only
  repeat' first
    | with_reducible exact SameBut.refl _ _
    | with_reducible assumption
    | with_reducible refine SameBut.call State.onCore_frame (by decide) ?_
    | with_reducible refine SameBut.call State.waitUntil_frame (by decide) ?_
    | (split <;> try dsimp only)

theorem State.slotWrite_frame {s : State} {a1 : _} {a2 : _} {a3 : _} {a4 : _} {a5 : _} : SameBut (State.slotWrite s
    a1 a2 a3 a4 a5) s [.now, .cal, .regs, .cores, .bands] := by
  unfold State.slotWrite
  try dsimp only
  repeat' first
    | with_reducible exact SameBut.refl _ _
    | with_reducible assumption
    | with_reducible refine SameBut.call State.issueOp_frame (by decide) ?_
    | with_reducible refine SameBut.call State.lsMark_frame (by decide) ?_
    | with_reducible refine SameBut.call State.setWait_frame (by decide) ?_
    | (split <;> try dsimp only)

end Sys2Proof.Machine
end

