-- ==== Sys2Proof/Laws/FrameLines.lean ====
section
/-! SUPPORT. What each operation of Machine/Lines.lean can change: every field of the state but those listed stays. -/
namespace Sys2Proof.Machine

theorem State.restartAt_frame {s : State} {a1 : _} {a2 : _} {a3 : _} {a4 : _} : SameBut (State.restartAt s a1 a2 a3
    a4) s [.regs, .cores] := by
  unfold State.restartAt
  try dsimp only
  repeat' first
    | with_reducible exact SameBut.refl _ _
    | with_reducible assumption
    | with_reducible refine SameBut.call State.onCore_frame (by decide) ?_
    | with_reducible refine SameBut.call State.incF_frame (by decide) ?_
    | (split <;> try dsimp only)

theorem State.startLine_frame {s : State} {a1 : _} {a2 : _} {a3 : _} {a4 : _} {a5 : _} {a6 : _} : SameBut
    (State.startLine s a1 a2 a3 a4 a5 a6) s [.regs, .cores, .bands, .signals] := by
  unfold State.startLine
  try dsimp only
  repeat' first
    | with_reducible exact SameBut.refl _ _
    | with_reducible assumption
    | with_reducible refine SameBut.call State.settle_frame (by decide) ?_
    | with_reducible refine SameBut.call State.onCore_frame (by decide) ?_
    | with_reducible refine SameBut.call State.restartAt_frame (by decide) ?_
    | with_reducible refine SameBut.call State.giveLine_frame (by decide) ?_
    | (split <;> try dsimp only)

theorem State.startSlot_frame {s : State} {a1 : _} {a2 : _} : SameBut (State.startSlot s a1 a2) s [.now, .cal,
    .regs, .cores, .bands, .signals, .fbStarted] := by
  unfold State.startSlot
  try dsimp only
  repeat' first
    | with_reducible exact SameBut.refl _ _
    | with_reducible assumption
    | with_reducible refine SameBut.call State.fire_frame (by decide) ?_
    | with_reducible refine SameBut.call State.settle_frame (by decide) ?_
    | with_reducible refine SameBut.call State.startLine_frame (by decide) ?_
    | (with_reducible refine SameBut.each ?_ fun y a => ?_)
    | (split <;> try dsimp only)
    | ((with_reducible refine SameBut.upd rfl ?_ ?_); intro p hp; (cases p <;> (try (with_reducible rfl)));
        exact absurd (by decide) hp; (repeat (exact absurd (by decide) hp)))

theorem State.fbClear_frame {s : State} {a1 : _} {a2 : _} {a3 : _} : SameBut (State.fbClear s a1 a2 a3) s [.bands]
    := by
  unfold State.fbClear
  try dsimp only
  repeat' first
    | with_reducible exact SameBut.refl _ _
    | with_reducible assumption
    | with_reducible refine SameBut.call State.lsFbDone_frame (by decide) ?_
    | (with_reducible refine SameBut.foldl ?_ fun y a => ?_)
    | (split <;> try dsimp only)

theorem State.fbComplete_frame {s : State} {a1 : _} {a2 : _} {a3 : _} {a4 : _} : SameBut (State.fbComplete s a1 a2
    a3 a4) s [.free, .now, .cal, .regs, .cores, .bands, .fbSegs] := by
  unfold State.fbComplete
  split
  · exact SameBut.refl _ _
  extract_lets +onlyGivenNames b r rows
  split
  · exact SameBut.refl _ _
  extract_lets +onlyGivenNames t words bad px s0 s1 s2
  have h0 : SameBut s0 s [.free, .now, .cal, .regs, .cores, .bands, .fbSegs] := SameBut.call State.lsRead_frame (by
      decide) (State.waitUntil_frame.mono (by decide))
  clear_value s0
  have h1 : SameBut s1 s [.free, .now, .cal, .regs, .cores, .bands, .fbSegs] := by
    unfold s1
    split
    · exact h0
    · exact SameBut.upd rfl (by
          intro p hp
          cases p <;> first | with_reducible rfl | exact absurd (by decide) hp) h0
  clear_value s1
  have h2 : SameBut s2 s [.free, .now, .cal, .regs, .cores, .bands, .fbSegs] := SameBut.upd rfl (by
          intro p hp
          cases p <;> first | with_reducible rfl | exact absurd (by decide) hp) h1
  clear_value s2
  split
  · exact SameBut.call State.fbClear_frame (by decide) h2
  · exact h2

theorem State.noteLeft_frame {s : State} {a1 : _} {a2 : _} {a3 : _} : SameBut (State.noteLeft s a1 a2 a3) s [.cores]
    := by
  unfold State.noteLeft
  try dsimp only
  repeat' first
    | with_reducible exact SameBut.refl _ _
    | with_reducible assumption
    | with_reducible refine SameBut.call State.onCore_frame (by decide) ?_

theorem State.judgeCore_frame {s : State} {a1 : _} {a2 : _} {a3 : _} {a4 : _} {a5 : _} {a6 : _} {a7 : _} : SameBut
    (State.judgeCore s a1 a2 a3 a4 a5 a6 a7) s [.regs, .cores, .bands, .signals] := by
  unfold State.judgeCore
  try dsimp only
  repeat' first
    | with_reducible exact SameBut.refl _ _
    | with_reducible assumption
    | with_reducible refine SameBut.call State.noteLeft_frame (by decide) ?_
    | with_reducible refine SameBut.call State.recordCause_frame (by decide) ?_
    | with_reducible refine SameBut.call State.incF_frame (by decide) ?_
    | with_reducible refine SameBut.call State.onCore_frame (by decide) ?_
    | with_reducible refine SameBut.call State.abandon_frame (by decide) ?_
    | with_reducible refine SameBut.call State.settle_frame (by decide) ?_
    | (with_reducible refine SameBut.foldl ?_ fun y a => ?_)
    | (split <;> try dsimp only)

theorem State.lineDeadline_frame {s : State} {a1 : _} {a2 : _} : SameBut (State.lineDeadline s a1 a2) s [.now, .cal,
    .regs, .cores, .bands, .signals, .fbSegs, .fbStarted, .sel, .fbNow, .fbNext, .tds] := by
  unfold State.lineDeadline
  try dsimp only
  repeat' first
    | ((with_reducible refine SameBut.upd rfl ?_ ?_); intro p hp; (cases p <;> (try (with_reducible rfl)));
        exact absurd (by decide) hp; (repeat (exact absurd (by decide) hp)))
    | with_reducible exact SameBut.refl _ _
    | with_reducible assumption
    | with_reducible refine SameBut.call State.fire_frame (by decide) ?_
    | with_reducible refine SameBut.call State.judgeCore_frame (by decide) ?_
    | with_reducible refine SameBut.call State.incF_frame (by decide) ?_
    | with_reducible refine SameBut.call State.tdAdd_frame (by decide) ?_
    | with_reducible refine SameBut.call State.fbClear_frame (by decide) ?_
    | (with_reducible refine SameBut.each ?_ fun y a => ?_)
    | (with_reducible refine SameBut.foldl ?_ fun y a => ?_)
    | (split <;> try dsimp only)

end Sys2Proof.Machine
end

