-- ==== Sys2Proof/Laws/FrameLedger.lean ====
section
/-! SUPPORT. What each operation of Machine/Ledger.lean can change: every field of the state but those listed stays. -/
namespace Sys2Proof.Machine

theorem State.ledger_frame {s : State} {a1 : _} {a2 : _} {a3 : _} : SameBut (State.ledger s a1 a2 a3) s [.regs,
    .led] := by
  unfold State.ledger
  try dsimp only
  repeat' first
    | with_reducible exact SameBut.refl _ _
    | with_reducible assumption
    | with_reducible refine SameBut.call State.incF_frame (by decide) ?_
    | with_reducible refine SameBut.call State.setF_frame (by decide) ?_
    | (split <;> try dsimp only)
    | ((with_reducible refine SameBut.upd rfl ?_ ?_); intro p hp; (cases p <;> (try (with_reducible rfl)));
        exact absurd (by decide) hp; (repeat (exact absurd (by decide) hp)))

theorem State.writeHalf_frame {s : State} {a1 : _} {a2 : _} {a3 : _} : SameBut (State.writeHalf s a1 a2 a3) s
    [.regs, .led] := by
  unfold State.writeHalf
  try dsimp only
  repeat' first
    | with_reducible exact SameBut.refl _ _
    | with_reducible assumption
    | with_reducible refine SameBut.call State.setFs_frame (by decide) ?_
    | (with_reducible refine SameBut.foldl ?_ fun y a => ?_)
    | (split <;> try dsimp only)
    | ((with_reducible refine SameBut.upd rfl ?_ ?_); intro p hp; (cases p <;> (try (with_reducible rfl)));
        exact absurd (by decide) hp; (repeat (exact absurd (by decide) hp)))

theorem State.compact_frame {s : State} : SameBut (State.compact s) s [.regs, .led] := by
  unfold State.compact
  try dsimp only
  repeat' first
    | with_reducible exact SameBut.refl _ _
    | with_reducible assumption
    | with_reducible refine SameBut.call State.setF_frame (by decide) ?_
    | with_reducible refine SameBut.call State.writeHalf_frame (by decide) ?_
    | (split <;> try dsimp only)

theorem State.ledgerAppend_frame {s : State} : SameBut (State.ledgerAppend s) s [.regs, .led] := by
  unfold State.ledgerAppend
  try dsimp only
  repeat' first
    | ((with_reducible refine SameBut.upd rfl ?_ ?_); intro p hp; (cases p <;> (try (with_reducible rfl)));
        exact absurd (by decide) hp; (repeat (exact absurd (by decide) hp)))
    | with_reducible exact SameBut.refl _ _
    | with_reducible assumption
    | with_reducible refine SameBut.call State.writeHalf_frame (by decide) ?_
    | with_reducible refine SameBut.call State.compact_frame (by decide) ?_
    | with_reducible refine SameBut.call State.setF_frame (by decide) ?_
    | with_reducible refine SameBut.call State.setFs_frame (by decide) ?_
    | (split <;> try dsimp only)

end Sys2Proof.Machine
end

