-- ==== Sys2Proof/Laws/FrameFabric.lean ====
section
/-! SUPPORT. What each operation of Machine/Fabric.lean can change: every field of the state but those listed stays. -/
namespace Sys2Proof.Machine

theorem State.snapArm_frame {s : State} : SameBut (State.snapArm s) s [.regs, .fab] := by
  unfold State.snapArm
  try dsimp only
  repeat' first
    | with_reducible exact SameBut.refl _ _
    | with_reducible assumption
    | with_reducible refine SameBut.call State.setF_frame (by decide) ?_
    | (split <;> try dsimp only)
    | ((with_reducible refine SameBut.upd rfl ?_ ?_); intro p hp; (cases p <;> (try (with_reducible rfl)));
        exact absurd (by decide) hp; (repeat (exact absurd (by decide) hp)))

theorem State.snapCancel_frame {s : State} : SameBut (State.snapCancel s) s [.regs, .fab] := by
  unfold State.snapCancel
  try dsimp only
  repeat' first
    | with_reducible exact SameBut.refl _ _
    | with_reducible assumption
    | with_reducible refine SameBut.call State.setF_frame (by decide) ?_
    | (split <;> try dsimp only)
    | ((with_reducible refine SameBut.upd rfl ?_ ?_); intro p hp; (cases p <;> (try (with_reducible rfl)));
        exact absurd (by decide) hp; (repeat (exact absurd (by decide) hp)))

theorem State.snapStop_frame {s : State} : SameBut (State.snapStop s) s [.fab, .warp] := by
  unfold State.snapStop
  try dsimp only
  repeat' first
    | with_reducible exact SameBut.refl _ _
    | with_reducible assumption
    | with_reducible refine SameBut.call State.warpCounted_frame (by decide) ?_
    | (split <;> try dsimp only)
    | ((with_reducible refine SameBut.upd rfl ?_ ?_); intro p hp; (cases p <;> (try (with_reducible rfl)));
        exact absurd (by decide) hp; (repeat (exact absurd (by decide) hp)))

theorem State.snapVTotal_frame {s : State} {a1 : _} : SameBut (State.snapVTotal s a1) s [.regs, .fab] := by
  unfold State.snapVTotal
  try dsimp only
  repeat' first
    | with_reducible exact SameBut.refl _ _
    | with_reducible assumption
    | with_reducible refine SameBut.call State.setFs_frame (by decide) ?_
    | (split <;> try dsimp only)
    | ((with_reducible refine SameBut.upd rfl ?_ ?_); intro p hp; (cases p <;> (try (with_reducible rfl)));
        exact absurd (by decide) hp; (repeat (exact absurd (by decide) hp)))

theorem State.snapStart_frame {s : State} : SameBut (State.snapStart s) s [.regs, .fab] := by
  unfold State.snapStart
  try dsimp only
  repeat' first
    | with_reducible exact SameBut.refl _ _
    | with_reducible assumption
    | with_reducible refine SameBut.call State.setF_frame (by decide) ?_
    | (split <;> try dsimp only)
    | ((with_reducible refine SameBut.upd rfl ?_ ?_); intro p hp; (cases p <;> (try (with_reducible rfl)));
        exact absurd (by decide) hp; (repeat (exact absurd (by decide) hp)))

theorem State.snapLine_frame {s : State} : SameBut (State.snapLine s) s [.fab] := by
  unfold State.snapLine
  try dsimp only
  repeat' first
    | with_reducible exact SameBut.refl _ _
    | with_reducible assumption
    | (split <;> try dsimp only)
    | ((with_reducible refine SameBut.upd rfl ?_ ?_); intro p hp; (cases p <;> (try (with_reducible rfl)));
        exact absurd (by decide) hp; (repeat (exact absurd (by decide) hp)))

theorem State.snapDone_frame {s : State} : SameBut (State.snapDone s) s [.regs, .dram, .dramBad, .fab, .warp] := by
  unfold State.snapDone
  try dsimp only
  repeat' first
    | with_reducible exact SameBut.refl _ _
    | with_reducible assumption
    | with_reducible refine SameBut.call State.setFs_frame (by decide) ?_
    | with_reducible refine SameBut.call State.warpCounted_frame (by decide) ?_
    | (with_reducible refine SameBut.foldl ?_ fun y a => ?_)
    | (split <;> try dsimp only)
    | ((with_reducible refine SameBut.upd rfl ?_ ?_); intro p hp; (cases p <;> (try (with_reducible rfl)));
        exact absurd (by decide) hp; (repeat (exact absurd (by decide) hp)))

theorem State.finishOne_frame {s : State} {a1 : _} {a2 : _} : SameBut (State.finishOne s a1 a2) s [.now, .cal,
    .regs, .dram, .dramBad, .cores, .bands, .signals] := by
  unfold State.finishOne
  try dsimp only
  repeat' first
    | with_reducible exact SameBut.refl _ _
    | with_reducible assumption
    | with_reducible refine SameBut.call State.waitUntil_frame (by decide) ?_
    | with_reducible refine SameBut.call State.arriveAt_frame (by decide) ?_
    | with_reducible refine SameBut.call State.xferLand_frame (by decide) ?_
    | (with_reducible refine SameBut.foldl ?_ fun y a => ?_)
    | (split <;> try dsimp only)

theorem State.quietEngine_frame {s : State} {a1 : _} : SameBut (State.quietEngine s a1) s [.now, .cal, .regs, .dram,
    .dramBad, .cores, .bands, .fab, .remotes, .signals] := by
  unfold State.quietEngine
  try dsimp only
  repeat' first
    | with_reducible exact SameBut.refl _ _
    | with_reducible assumption
    | with_reducible refine SameBut.call State.finishOne_frame (by decide) ?_
    | with_reducible refine SameBut.call State.setF_frame (by decide) ?_
    | with_reducible refine SameBut.call State.setFs_frame (by decide) ?_
    | with_reducible refine SameBut.call State.onEng_frame (by decide) ?_
    | (with_reducible refine SameBut.foldl ?_ fun y a => ?_)
    | (split <;> try dsimp only)
    | ((with_reducible refine SameBut.upd rfl ?_ ?_); intro p hp; (cases p <;> (try (with_reducible rfl)));
        exact absurd (by decide) hp; (repeat (exact absurd (by decide) hp)))

theorem State.initSem_frame {s : State} {a1 : _} {a2 : _} : SameBut (State.initSem s a1 a2) s [.regs] := by
  unfold State.initSem
  try dsimp only
  repeat' first
    | with_reducible exact SameBut.refl _ _
    | with_reducible assumption
    | with_reducible refine SameBut.call State.setFs_frame (by decide) ?_

theorem State.initSems_frame {s : State} {a1 : _} : SameBut (State.initSems s a1) s [.regs, .cores] := by
  unfold State.initSems
  try dsimp only
  repeat' first
    | with_reducible exact SameBut.refl _ _
    | with_reducible assumption
    | with_reducible refine SameBut.call State.onCore_frame (by decide) ?_
    | with_reducible refine SameBut.call State.initSem_frame (by decide) ?_
    | (with_reducible refine SameBut.each ?_ fun y a => ?_)

theorem State.decideHandover_frame {s : State} {a1 : _} {a2 : _} {a3 : _} {a4 : _} {a5 : _} : SameBut
    (State.decideHandover s a1 a2 a3 a4 a5) s [.regs, .fab] := by
  unfold State.decideHandover
  try dsimp only
  repeat' first
    | with_reducible exact SameBut.refl _ _
    | with_reducible assumption
    | with_reducible refine SameBut.call State.setFs_frame (by decide) ?_
    | (split <;> try dsimp only)
    | ((with_reducible refine SameBut.upd rfl ?_ ?_); intro p hp; (cases p <;> (try (with_reducible rfl)));
        exact absurd (by decide) hp; (repeat (exact absurd (by decide) hp)))

theorem State.cancelHandover_frame {s : State} {a1 : _} : SameBut (State.cancelHandover s a1) s [.regs, .fab] := by
  unfold State.cancelHandover
  try dsimp only
  repeat' first
    | with_reducible exact SameBut.refl _ _
    | with_reducible assumption
    | with_reducible refine SameBut.call State.setF_frame (by decide) ?_
    | (split <;> try dsimp only)
    | ((with_reducible refine SameBut.upd rfl ?_ ?_); intro p hp; (cases p <;> (try (with_reducible rfl)));
        exact absurd (by decide) hp; (repeat (exact absurd (by decide) hp)))

theorem State.failRuns_frame {s : State} : SameBut (State.failRuns s) s [.fc, .fab] := by
  unfold State.failRuns
  try dsimp only
  repeat' first
    | with_reducible exact SameBut.refl _ _
    | with_reducible assumption
    | with_reducible refine SameBut.call State.failIndex_frame (by decide) ?_
    | (with_reducible refine SameBut.each ?_ fun y a => ?_)

theorem State.leaveRuns_frame {s : State} {a1 : _} : SameBut (State.leaveRuns s a1) s [.fc] := by
  unfold State.leaveRuns
  try dsimp only
  repeat' first
    | with_reducible exact SameBut.refl _ _
    | with_reducible assumption
    | with_reducible refine SameBut.call State.coreDrained_frame (by decide) ?_
    | (with_reducible refine SameBut.foldl ?_ fun y a => ?_)

theorem State.copyTables_frame {s : State} {a1 : _} {a2 : _} : SameBut (State.copyTables s a1 a2) s [.regs, .cores]
    := by
  unfold State.copyTables
  try dsimp only
  repeat' first
    | with_reducible exact SameBut.refl _ _
    | with_reducible assumption
    | with_reducible refine SameBut.call State.onCore_frame (by decide) ?_
    | with_reducible refine SameBut.call State.initSems_frame (by decide) ?_
    | (split <;> try dsimp only)
    | ((with_reducible refine SameBut.upd rfl ?_ ?_); intro p hp; (cases p <;> (try (with_reducible rfl)));
        exact absurd (by decide) hp; (repeat (exact absurd (by decide) hp)))

theorem State.handoverStart_frame {s : State} {a1 : _} : SameBut (State.handoverStart s a1) s [.now, .cal, .regs,
    .dram, .dramBad, .cores, .bands, .fc, .fab, .remotes, .signals] := by
  unfold State.handoverStart
  try dsimp only
  repeat' first
    | ((with_reducible refine SameBut.upd rfl ?_ ?_); intro p hp; (cases p <;> (try (with_reducible rfl)));
        exact absurd (by decide) hp; (repeat (exact absurd (by decide) hp)))
    | with_reducible exact SameBut.refl _ _
    | with_reducible assumption
    | with_reducible refine SameBut.call State.failRuns_frame (by decide) ?_
    | with_reducible refine SameBut.call State.waitUntil_frame (by decide) ?_
    | with_reducible refine SameBut.call State.setThreadState_frame (by decide) ?_
    | with_reducible refine SameBut.call State.quietEngine_frame (by decide) ?_
    | with_reducible refine SameBut.call State.setF_frame (by decide) ?_
    | with_reducible refine SameBut.call State.copyTables_frame (by decide) ?_
    | with_reducible refine SameBut.call State.leaveRuns_frame (by decide) ?_
    | with_reducible refine SameBut.call State.onCore_frame (by decide) ?_
    | (with_reducible refine SameBut.each ?_ fun y a => ?_)
    | (with_reducible refine SameBut.foldl ?_ fun y a => ?_)
    | (split <;> try dsimp only)

theorem State.handoverDone_frame {s : State} {a1 : _} : SameBut (State.handoverDone s a1) s [.regs, .fab, .led] := by
  unfold State.handoverDone
  try dsimp only
  repeat' first
    | with_reducible exact SameBut.refl _ _
    | with_reducible assumption
    | with_reducible refine SameBut.call State.setFs_frame (by decide) ?_
    | with_reducible refine SameBut.call State.cancelHandover_frame (by decide) ?_
    | with_reducible refine SameBut.call State.incF_frame (by decide) ?_
    | with_reducible refine SameBut.call State.ledger_frame (by decide) ?_
    | (split <;> try dsimp only)

end Sys2Proof.Machine
end

