-- ==== Sys2Proof/Laws/FrameClauses.lean ====
section
/-! SUPPORT. What each operation of Machine/Clauses.lean can change: every field of the state but those listed stays. -/
namespace Sys2Proof.Machine

theorem State.missDue_frame {s : State} {a1 : _} : SameBut (State.missDue s a1) s [.regs, .fc] := by
  unfold State.missDue
  try dsimp only
  repeat' first
    | with_reducible exact SameBut.refl _ _
    | with_reducible assumption
    | with_reducible refine SameBut.call State.incF_frame (by decide) ?_
    | (split <;> try dsimp only)
    | ((with_reducible refine SameBut.upd rfl ?_ ?_); intro p hp; (cases p <;> (try (with_reducible rfl)));
        exact absurd (by decide) hp; (repeat (exact absurd (by decide) hp)))

theorem State.barriersClear_frame {s : State} : SameBut (State.barriersClear s) s [.fab] := by
  unfold State.barriersClear
  try dsimp only
  repeat' first
    | with_reducible exact SameBut.refl _ _
    | with_reducible assumption
    | (split <;> try dsimp only)
    | ((with_reducible refine SameBut.upd rfl ?_ ?_); intro p hp; (cases p <;> (try (with_reducible rfl)));
        exact absurd (by decide) hp; (repeat (exact absurd (by decide) hp)))

theorem State.beginRun_frame {s : State} {a1 : _} : SameBut (State.beginRun s a1) s [.regs, .fc, .fab] := by
  unfold State.beginRun
  try dsimp only
  repeat' first
    | with_reducible exact SameBut.refl _ _
    | with_reducible assumption
    | with_reducible refine SameBut.call State.incF_frame (by decide) ?_
    | with_reducible refine SameBut.call State.runEnds_frame (by decide) ?_
    | with_reducible refine SameBut.call State.barriersClear_frame (by decide) ?_
    | with_reducible refine SameBut.call State.missDue_frame (by decide) ?_
    | (split <;> try dsimp only)
    | ((with_reducible refine SameBut.upd rfl ?_ ?_); intro p hp; (cases p <;> (try (with_reducible rfl)));
        exact absurd (by decide) hp; (repeat (exact absurd (by decide) hp)))

theorem State.setStripe_frame {s : State} {a1 : _} {a2 : _} : SameBut (State.setStripe s a1 a2) s [.regs] := by
  unfold State.setStripe
  try dsimp only
  repeat' first
    | with_reducible exact SameBut.refl _ _
    | with_reducible assumption
    | with_reducible refine SameBut.call State.setFs_frame (by decide) ?_
    | (split <;> try dsimp only)

theorem State.takeUp_frame {s : State} {a1 : _} {a2 : _} : SameBut (State.takeUp s a1 a2) s [.cores] := by
  unfold State.takeUp
  try dsimp only
  repeat' first
    | with_reducible exact SameBut.refl _ _
    | with_reducible assumption
    | with_reducible refine SameBut.call State.onThread_frame (by decide) ?_
    | (with_reducible refine SameBut.each ?_ fun y a => ?_)
    | (split <;> try dsimp only)

theorem State.openWindow_frame {s : State} {a1 : _} : SameBut (State.openWindow s a1) s [.now, .cal, .regs, .cores,
    .bands, .fc, .fab] := by
  unfold State.openWindow
  try dsimp only
  repeat' first
    | with_reducible exact SameBut.refl _ _
    | with_reducible assumption
    | with_reducible refine SameBut.call State.beginRun_frame (by decide) ?_
    | with_reducible refine SameBut.call State.fire_frame (by decide) ?_
    | with_reducible refine SameBut.call State.setStripe_frame (by decide) ?_
    | with_reducible refine SameBut.call State.frameThreads_frame (by decide) ?_
    | with_reducible refine SameBut.call State.takeUp_frame (by decide) ?_
    | with_reducible refine SameBut.call State.setF_frame (by decide) ?_
    | (with_reducible refine SameBut.each ?_ fun y a => ?_)
    | (split <;> try dsimp only)

theorem State.closeWindowF_frame {s : State} {a1 : _} : SameBut (State.closeWindowF s a1) s [.now, .cal, .regs,
    .cores, .bands] := by
  unfold State.closeWindowF
  try dsimp only
  repeat' first
    | with_reducible exact SameBut.refl _ _
    | with_reducible assumption
    | with_reducible refine SameBut.call State.fire_frame (by decide) ?_
    | with_reducible refine SameBut.call State.frameThreads_frame (by decide) ?_
    | with_reducible refine SameBut.call State.setF_frame (by decide) ?_
    | (with_reducible refine SameBut.each ?_ fun y a => ?_)
    | (split <;> try dsimp only)

theorem State.swapCore_frame {s : State} {a1 : _} {a2 : _} {a3 : _} : SameBut (State.swapCore s a1 a2 a3) s [.regs]
    := by
  unfold State.swapCore
  try dsimp only
  repeat' first
    | with_reducible exact SameBut.refl _ _
    | with_reducible assumption
    | with_reducible refine SameBut.call State.setFs_frame (by decide) ?_

theorem State.bandTakes_frame {s : State} {a1 : _} {a2 : _} {a3 : _} : SameBut (State.bandTakes s a1 a2 a3) s
    [.regs] := by
  unfold State.bandTakes
  try dsimp only
  repeat' first
    | with_reducible exact SameBut.refl _ _
    | with_reducible assumption
    | with_reducible refine SameBut.call State.setFs_frame (by decide) ?_

theorem State.swapPair_frame {s : State} {a1 : _} {a2 : _} : SameBut (State.swapPair s a1 a2) s [.regs] := by
  unfold State.swapPair
  try dsimp only
  repeat' first
    | with_reducible exact SameBut.refl _ _
    | with_reducible assumption
    | with_reducible refine SameBut.call State.swapCore_frame (by decide) ?_
    | with_reducible refine SameBut.call State.bandTakes_frame (by decide) ?_
    | (with_reducible refine SameBut.each ?_ fun y a => ?_)
    | (split <;> try dsimp only)

theorem State.swapRun_frame {s : State} {a1 : _} {a2 : _} {a3 : _} : SameBut (State.swapRun s a1 a2 a3) s [.regs,
    .fc] := by
  unfold State.swapRun
  try dsimp only
  repeat' first
    | with_reducible exact SameBut.refl _ _
    | with_reducible assumption
    | with_reducible refine SameBut.call State.swapPair_frame (by decide) ?_
    | (with_reducible refine SameBut.foldl ?_ fun y a => ?_)
    | (split <;> try dsimp only)
    | ((with_reducible refine SameBut.upd rfl ?_ ?_); intro p hp; (cases p <;> (try (with_reducible rfl)));
        exact absurd (by decide) hp; (repeat (exact absurd (by decide) hp)))

theorem State.clauseBoundary_frame {s : State} {a1 : _} {a2 : _} : SameBut (State.clauseBoundary s a1 a2) s [.regs,
    .fc] := by
  unfold State.clauseBoundary
  try dsimp only
  repeat' first
    | with_reducible exact SameBut.refl _ _
    | with_reducible assumption
    | with_reducible refine SameBut.call State.swapRun_frame (by decide) ?_
    | with_reducible refine SameBut.call State.incF_frame (by decide) ?_
    | with_reducible refine SameBut.call State.missDue_frame (by decide) ?_
    | (split <;> try dsimp only)
    | ((with_reducible refine SameBut.upd rfl ?_ ?_); intro p hp; (cases p <;> (try (with_reducible rfl)));
        exact absurd (by decide) hp; (repeat (exact absurd (by decide) hp)))

theorem State.clausesBoundary_frame {s : State} {a1 : _} : SameBut (State.clausesBoundary s a1) s [.regs, .fc] := by
  unfold State.clausesBoundary
  try dsimp only
  repeat' first
    | with_reducible exact SameBut.refl _ _
    | with_reducible assumption
    | with_reducible refine SameBut.call State.clauseBoundary_frame (by decide) ?_
    | (with_reducible refine SameBut.each ?_ fun y a => ?_)

theorem State.framesArrive_frame {s : State} {a1 : _} : SameBut (State.framesArrive s a1) s [.regs, .fc, .arrived,
    .avail, .rtJ0] := by
  unfold State.framesArrive
  try dsimp only
  repeat' first
    | with_reducible exact SameBut.refl _ _
    | with_reducible assumption
    | with_reducible refine SameBut.call State.setF_frame (by decide) ?_
    | (split <;> try dsimp only)
    | ((with_reducible refine SameBut.upd rfl ?_ ?_); intro p hp; (cases p <;> (try (with_reducible rfl)));
        exact absurd (by decide) hp; (repeat (exact absurd (by decide) hp)))

theorem State.abandonRuns_frame {s : State} {a1 : _} : SameBut (State.abandonRuns s a1) s [.regs, .cores, .fc] := by
  unfold State.abandonRuns
  try dsimp only
  repeat' first
    | with_reducible exact SameBut.refl _ _
    | with_reducible assumption
    | with_reducible refine SameBut.call State.dropClause_frame (by decide) ?_
    | (with_reducible refine SameBut.each ?_ fun y a => ?_)
    | (split <;> try dsimp only)
    | ((with_reducible refine SameBut.upd rfl ?_ ?_); intro p hp; (cases p <;> (try (with_reducible rfl)));
        exact absurd (by decide) hp; (repeat (exact absurd (by decide) hp)))

end Sys2Proof.Machine
end

