-- ==== Sys2Proof/Laws/FrameInstall.lean ====
section
/-! SUPPORT. What each operation of Machine/Install.lean can change: every field of the state but those listed stays. -/
namespace Sys2Proof.Machine

theorem State.putTable_frame {s : State} {a1 : _} {a2 : _} {a3 : _} : SameBut (State.putTable s a1 a2 a3) s [.regs]
    := by
  unfold State.putTable
  try dsimp only
  repeat' first
    | with_reducible exact SameBut.refl _ _
    | with_reducible assumption
    | (split <;> try dsimp only)
    | ((with_reducible refine SameBut.upd rfl ?_ ?_); intro p hp; (cases p <;> (try (with_reducible rfl)));
        exact absurd (by decide) hp; (repeat (exact absurd (by decide) hp)))

theorem State.putSem_frame {s : State} {a1 : _} {a2 : _} {a3 : _} : SameBut (State.putSem s a1 a2 a3) s [.regs] := by
  unfold State.putSem
  try dsimp only
  repeat' first
    | with_reducible exact SameBut.refl _ _
    | with_reducible assumption
    | with_reducible refine SameBut.call State.setFs_frame (by decide) ?_

theorem State.installCore_frame {s : State} {a1 : _} {a2 : _} : SameBut (State.installCore s a1 a2) s [.regs,
    .cores] := by
  unfold State.installCore
  try dsimp only
  repeat' first
    | with_reducible exact SameBut.refl _ _
    | with_reducible assumption
    | with_reducible refine SameBut.call State.putTable_frame (by decide) ?_
    | with_reducible refine SameBut.call State.onCore_frame (by decide) ?_
    | with_reducible refine SameBut.call State.putSem_frame (by decide) ?_
    | (with_reducible refine SameBut.each ?_ fun y a => ?_)

theorem State.installBand_frame {s : State} {a1 : _} {a2 : _} : SameBut (State.installBand s a1 a2) s [.regs,
    .bands] := by
  unfold State.installBand
  try dsimp only
  repeat' first
    | with_reducible exact SameBut.refl _ _
    | with_reducible assumption
    | with_reducible refine SameBut.call State.lsClear_frame (by decide) ?_
    | with_reducible refine SameBut.call State.putTable_frame (by decide) ?_

theorem State.installTables_frame {s : State} {a1 : _} {a2 : _} : SameBut (State.installTables s a1 a2) s [.regs,
    .cores, .bands] := by
  unfold State.installTables
  try dsimp only
  repeat' first
    | with_reducible exact SameBut.refl _ _
    | with_reducible assumption
    | with_reducible refine SameBut.call State.installCore_frame (by decide) ?_
    | with_reducible refine SameBut.call State.installBand_frame (by decide) ?_
    | (with_reducible refine SameBut.each ?_ fun y a => ?_)

theorem State.installRt_frame {s : State} {a1 : _} : SameBut (State.installRt s a1) s [.regs, .tau, .rtFirst] := by
  unfold State.installRt
  try dsimp only
  repeat' first
    | with_reducible exact SameBut.refl _ _
    | with_reducible assumption
    | with_reducible refine SameBut.call State.setF_frame (by decide) ?_
    | with_reducible refine SameBut.call State.yieldF_frame (by decide) ?_
    | (split <;> try dsimp only)
    | ((with_reducible refine SameBut.upd rfl ?_ ?_); intro p hp; (cases p <;> (try (with_reducible rfl)));
        exact absurd (by decide) hp; (repeat (exact absurd (by decide) hp)))

theorem State.scheduleChange_frame {s : State} : SameBut (State.scheduleChange s) s [.now, .cal, .regs, .dram,
    .dramBad, .cores, .bands, .almanac, .sched, .noBase1, .change, .firstLines, .fc, .fab, .remotes, .signals, .tau,
    .rtFirst, .ctxNext, .warp] := by
  unfold State.scheduleChange
  split
  · split
    · exact SameBut.refl _ _
    · extract_lets +onlyGivenNames m sc s1 s2 s3 s4 s5 nextF s6 x
      have h1 : SameBut s1 s [.now, .cal, .regs, .dram, .dramBad, .cores, .bands, .almanac, .sched, .noBase1,
          .change, .firstLines, .fc, .fab, .remotes, .signals, .tau, .rtFirst, .ctxNext, .warp] := SameBut.call
          State.abandonRuns_frame (by decide) (State.waitUntil_frame.mono (by decide))
      clear_value s1
      have h2 : SameBut s2 s [.now, .cal, .regs, .dram, .dramBad, .cores, .bands, .almanac, .sched, .noBase1,
          .change, .firstLines, .fc, .fab, .remotes, .signals, .tau, .rtFirst, .ctxNext, .warp] := SameBut.each h1
          fun y a =>
        SameBut.foldl (SameBut.refl _ _) fun z g => State.quietEngine_frame.mono (by decide)
      clear_value s2
      have h3 : SameBut s3 s [.now, .cal, .regs, .dram, .dramBad, .cores, .bands, .almanac, .sched, .noBase1,
          .change, .firstLines, .fc, .fab, .remotes, .signals, .tau, .rtFirst, .ctxNext, .warp] := SameBut.each h2
          fun y a =>
        SameBut.foldl (SameBut.refl _ _) fun z g => State.quietEngine_frame.mono (by decide)
      clear_value s3
      have h4 : SameBut s4 s [.now, .cal, .regs, .dram, .dramBad, .cores, .bands, .almanac, .sched, .noBase1,
          .change, .firstLines, .fc, .fab, .remotes, .signals, .tau, .rtFirst, .ctxNext, .warp] := SameBut.each h3
          fun y a => State.initSems_frame.mono (by decide)
      clear_value s4
      have h5 : SameBut s5 s [.now, .cal, .regs, .dram, .dramBad, .cores, .bands, .almanac, .sched, .noBase1,
          .change, .firstLines, .fc, .fab, .remotes, .signals, .tau, .rtFirst, .ctxNext, .warp] := SameBut.call
          State.waitUntil_frame (by decide) (SameBut.call State.installTables_frame (by decide) h4)
      clear_value s5
      have h6 : SameBut s6 s [.now, .cal, .regs, .dram, .dramBad, .cores, .bands, .almanac, .sched, .noBase1,
          .change, .firstLines, .fc, .fab, .remotes, .signals, .tau, .rtFirst, .ctxNext, .warp] := SameBut.call
          State.installRt_frame (by decide) h5
      clear_value s6
      (with_reducible refine SameBut.upd rfl ?_ h6)
      intro p hp
      cases p <;> first | with_reducible rfl | exact absurd (by decide) hp
  · exact SameBut.refl _ _

theorem State.setSegs_frame {s : State} : SameBut (State.setSegs s) s [.regs] := by
  unfold State.setSegs
  try dsimp only
  repeat' first
    | with_reducible exact SameBut.refl _ _
    | with_reducible assumption
    | with_reducible refine SameBut.call State.setFs_frame (by decide) ?_
    | (with_reducible refine SameBut.each ?_ fun y a => ?_)

theorem State.setGeometry_frame {s : State} {a1 : _} : SameBut (State.setGeometry s a1) s [.regs] := by
  unfold State.setGeometry
  try dsimp only
  repeat' first
    | with_reducible exact SameBut.refl _ _
    | with_reducible assumption
    | with_reducible refine SameBut.call State.setFs_frame (by decide) ?_

theorem State.emptyCommitted_frame {s : State} : SameBut (State.emptyCommitted s) s [.regs, .fc] := by
  unfold State.emptyCommitted
  try dsimp only
  repeat' first
    | with_reducible exact SameBut.refl _ _
    | with_reducible assumption
    | with_reducible refine SameBut.call State.setF_frame (by decide) ?_
    | (with_reducible refine SameBut.each ?_ fun y a => ?_)
    | (with_reducible refine SameBut.foldl ?_ fun y a => ?_)
    | (split <;> try dsimp only)
    | ((with_reducible refine SameBut.upd rfl ?_ ?_); intro p hp; (cases p <;> (try (with_reducible rfl)));
        exact absurd (by decide) hp; (repeat (exact absurd (by decide) hp)))

theorem State.gateBand_frame {s : State} {a1 : _} : SameBut (State.gateBand s a1) s [.regs, .cores, .bands] := by
  unfold State.gateBand
  try dsimp only
  repeat' first
    | with_reducible exact SameBut.refl _ _
    | with_reducible assumption
    | with_reducible refine SameBut.call State.setF_frame (by decide) ?_
    | with_reducible refine SameBut.call State.onCore_frame (by decide) ?_
    | with_reducible refine SameBut.call State.onBand_frame (by decide) ?_
    | with_reducible refine SameBut.call State.setFs_frame (by decide) ?_
    | (with_reducible refine SameBut.each ?_ fun y a => ?_)

theorem State.ungateBand_frame {s : State} {a1 : _} : SameBut (State.ungateBand s a1) s [.regs] := by
  unfold State.ungateBand
  try dsimp only
  repeat' first
    | with_reducible exact SameBut.refl _ _
    | with_reducible assumption
    | with_reducible refine SameBut.call State.setF_frame (by decide) ?_
    | (with_reducible refine SameBut.each ?_ fun y a => ?_)

theorem State.transitionDone_frame {s : State} {a1 : _} : SameBut (State.transitionDone s a1) s [.regs, .pwr] := by
  unfold State.transitionDone
  try dsimp only
  repeat' first
    | ((with_reducible refine SameBut.upd rfl ?_ ?_); intro p hp; (cases p <;> (try (with_reducible rfl)));
        exact absurd (by decide) hp; (repeat (exact absurd (by decide) hp)))
    | with_reducible exact SameBut.refl _ _
    | with_reducible assumption
    | with_reducible refine SameBut.call State.incF_frame (by decide) ?_
    | with_reducible refine SameBut.call State.setFs_frame (by decide) ?_

theorem State.takeState_frame {s : State} {a1 : _} : SameBut (State.takeState s a1) s [.regs, .cores, .bands,
    .pstate, .pwr] := by
  unfold State.takeState
  try dsimp only
  repeat' first
    | with_reducible exact SameBut.refl _ _
    | with_reducible assumption
    | with_reducible refine SameBut.call State.gateBand_frame (by decide) ?_
    | with_reducible refine SameBut.call State.ungateBand_frame (by decide) ?_
    | with_reducible refine SameBut.call State.transitionDone_frame (by decide) ?_
    | (with_reducible refine SameBut.foldl ?_ fun y a => ?_)
    | (split <;> try dsimp only)
    | ((with_reducible refine SameBut.upd rfl ?_ ?_); intro p hp; (cases p <;> (try (with_reducible rfl)));
        exact absurd (by decide) hp; (repeat (exact absurd (by decide) hp)))

theorem State.changeDone_frame {s : State} : SameBut (State.changeDone s) s [.regs, .cores, .bands, .noBase1,
    .change, .bucket, .pstate, .fc, .pwr] := by
  unfold State.changeDone
  try dsimp only
  repeat' first
    | with_reducible exact SameBut.refl _ _
    | with_reducible assumption
    | with_reducible refine SameBut.call State.setFs_frame (by decide) ?_
    | with_reducible refine SameBut.call State.setGeometry_frame (by decide) ?_
    | with_reducible refine SameBut.call State.emptyCommitted_frame (by decide) ?_
    | with_reducible refine SameBut.call State.setSegs_frame (by decide) ?_
    | with_reducible refine SameBut.call State.takeState_frame (by decide) ?_
    | with_reducible refine SameBut.call State.incF_frame (by decide) ?_
    | with_reducible refine SameBut.call State.modeCheck_frame (by decide) ?_
    | with_reducible refine SameBut.call State.decideChange_frame (by decide) ?_
    | (with_reducible refine SameBut.each ?_ fun y a => ?_)
    | (split <;> try dsimp only)
    | ((with_reducible refine SameBut.upd rfl ?_ ?_); intro p hp; (cases p <;> (try (with_reducible rfl)));
        exact absurd (by decide) hp; (repeat (exact absurd (by decide) hp)))

theorem State.sampleMset_frame {s : State} : SameBut (State.sampleMset s) s [.msetSample] := by
  unfold State.sampleMset
  try dsimp only
  repeat' first
    | with_reducible exact SameBut.refl _ _
    | with_reducible assumption
    | (split <;> try dsimp only)
    | ((with_reducible refine SameBut.upd rfl ?_ ?_); intro p hp; (cases p <;> (try (with_reducible rfl)));
        exact absurd (by decide) hp; (repeat (exact absurd (by decide) hp)))

theorem State.loadMset_frame {s : State} {a1 : _} {a2 : _} {a3 : _} : SameBut (State.loadMset s a1 a2 a3) s [.cores]
    := by
  unfold State.loadMset
  try dsimp only
  repeat' first
    | with_reducible exact SameBut.refl _ _
    | with_reducible assumption
    | with_reducible refine SameBut.call State.onCore_frame (by decide) ?_

theorem State.openMset_frame {s : State} {a1 : _} {a2 : _} : SameBut (State.openMset s a1 a2) s [.now, .cal, .regs,
    .cores, .bands, .mwinEnd, .fc] := by
  unfold State.openMset
  try dsimp only
  repeat' first
    | with_reducible exact SameBut.refl _ _
    | with_reducible assumption
    | with_reducible refine SameBut.call State.abandonRuns_frame (by decide) ?_
    | with_reducible refine SameBut.call State.fire_frame (by decide) ?_
    | with_reducible refine SameBut.call State.loadMset_frame (by decide) ?_
    | with_reducible refine SameBut.call State.frameThreads_frame (by decide) ?_
    | with_reducible refine SameBut.call State.setFs_frame (by decide) ?_
    | with_reducible refine SameBut.call State.onCore_frame (by decide) ?_
    | with_reducible refine SameBut.call State.stopEngine_frame (by decide) ?_
    | with_reducible refine SameBut.call State.incF_frame (by decide) ?_
    | with_reducible refine SameBut.call State.setF_frame (by decide) ?_
    | (with_reducible refine SameBut.each ?_ fun y a => ?_)
    | (with_reducible refine SameBut.foldl ?_ fun y a => ?_)
    | (split <;> try dsimp only)
    | ((with_reducible refine SameBut.upd rfl ?_ ?_); intro p hp; (cases p <;> (try (with_reducible rfl)));
        exact absurd (by decide) hp; (repeat (exact absurd (by decide) hp)))

theorem State.closeMset_frame {s : State} : SameBut (State.closeMset s) s [.now, .cal, .regs, .cores, .bands,
    .mwinEnd] := by
  unfold State.closeMset
  try dsimp only
  repeat' first
    | with_reducible exact SameBut.refl _ _
    | with_reducible assumption
    | with_reducible refine SameBut.call State.waitUntil_frame (by decide) ?_
    | with_reducible refine SameBut.call State.onCore_frame (by decide) ?_
    | with_reducible refine SameBut.call State.setF_frame (by decide) ?_
    | (with_reducible refine SameBut.each ?_ fun y a => ?_)
    | (split <;> try dsimp only)
    | ((with_reducible refine SameBut.upd rfl ?_ ?_); intro p hp; (cases p <;> (try (with_reducible rfl)));
        exact absurd (by decide) hp; (repeat (exact absurd (by decide) hp)))

theorem State.msetSwitch_frame {s : State} : SameBut (State.msetSwitch s).1 s [.regs, .msetSample] := by
  unfold State.msetSwitch
  try dsimp only
  repeat' first
    | with_reducible exact SameBut.refl _ _
    | with_reducible assumption
    | with_reducible refine SameBut.call State.incF_frame (by decide) ?_
    | with_reducible refine SameBut.call State.setFs_frame (by decide) ?_
    | (split <;> try dsimp only)
    | ((with_reducible refine SameBut.upd rfl ?_ ?_); intro p hp; (cases p <;> (try (with_reducible rfl)));
        exact absurd (by decide) hp; (repeat (exact absurd (by decide) hp)))

theorem State.spadMapOut_frame {s : State} {a1 : _} : SameBut (State.spadMapOut s a1).1 s [.regs, .cores, .led] := by
  unfold State.spadMapOut
  try dsimp only
  repeat' first
    | with_reducible exact SameBut.refl _ _
    | with_reducible assumption
    | with_reducible refine SameBut.call State.incF_frame (by decide) ?_
    | with_reducible refine SameBut.call State.setSpadMap_frame (by decide) ?_
    | with_reducible refine SameBut.call State.bgTurn_frame (by decide) ?_
    | with_reducible refine SameBut.call State.spadRead_frame (by decide) ?_
    | with_reducible refine SameBut.call State.setF_frame (by decide) ?_
    | with_reducible refine SameBut.call State.onCore_frame (by decide) ?_
    | with_reducible refine SameBut.call State.ledger_frame (by decide) ?_
    | (split <;> try dsimp only)

theorem State.lsMapOut_frame {s : State} {a1 : _} : SameBut (State.lsMapOut s a1) s [.regs, .bands, .led] := by
  unfold State.lsMapOut
  try dsimp only
  repeat' first
    | with_reducible exact SameBut.refl _ _
    | with_reducible assumption
    | with_reducible refine SameBut.call State.incF_frame (by decide) ?_
    | with_reducible refine SameBut.call State.setLsMap_frame (by decide) ?_
    | with_reducible refine SameBut.call State.lsRead_frame (by decide) ?_
    | with_reducible refine SameBut.call State.setF_frame (by decide) ?_
    | with_reducible refine SameBut.call State.onBand_frame (by decide) ?_
    | with_reducible refine SameBut.call State.ledger_frame (by decide) ?_
    | (split <;> try dsimp only)

end Sys2Proof.Machine
end

