-- ==== Sys2Proof/Laws/FrameRetimer.lean ====
section
/-! SUPPORT. What each operation of Machine/Retimer.lean can change: every field of the state but those listed stays. -/
namespace Sys2Proof.Machine

theorem State.latchField_frame {s : State} {a1 : _} : SameBut (State.latchField s a1).1 s [.regs, .tds] := by
  unfold State.latchField
  try dsimp only
  repeat' first
    | with_reducible exact SameBut.refl _ _
    | with_reducible assumption
    | with_reducible refine SameBut.call State.incF_frame (by decide) ?_
    | with_reducible refine SameBut.call State.tdAdd_frame (by decide) ?_
    | (split <;> try dsimp only)

theorem State.retimerDecision_frame {s : State} : SameBut (State.retimerDecision s) s [.regs, .inp, .tau, .rtFirst,
    .ctxNext, .warp, .tds] := by
  unfold State.retimerDecision
  try dsimp only
  repeat' first
    | with_reducible exact SameBut.refl _ _
    | with_reducible assumption
    | with_reducible refine SameBut.call State.tdAdd_frame (by decide) ?_
    | with_reducible refine SameBut.call State.onInp_frame (by decide) ?_
    | with_reducible refine SameBut.call State.incF_frame (by decide) ?_
    | with_reducible refine SameBut.call State.latchField_frame (by decide) ?_
    | (split <;> try dsimp only)
    | ((with_reducible refine SameBut.upd rfl ?_ ?_); intro p hp; (cases p <;> (try (with_reducible rfl)));
        exact absurd (by decide) hp; (repeat (exact absurd (by decide) hp)))

theorem State.putPrn_frame {s : State} {a1 : _} {a2 : _} {a3 : _} : SameBut (State.putPrn s a1 a2 a3) s [.dram,
    .dramBad, .cores, .bands] := by
  unfold State.putPrn
  try dsimp only
  repeat' first
    | with_reducible exact SameBut.refl _ _
    | with_reducible assumption
    | with_reducible refine SameBut.call State.writeMem_frame (by decide) ?_

theorem State.writeContext_frame {s : State} {a1 : _} : SameBut (State.writeContext s a1) s [.dram, .dramBad,
    .cores, .bands] := by
  unfold State.writeContext
  try dsimp only
  repeat' first
    | with_reducible exact SameBut.refl _ _
    | with_reducible assumption
    | with_reducible refine SameBut.call State.putPrn_frame (by decide) ?_
    | with_reducible refine SameBut.call State.writeMem_frame (by decide) ?_
    | (with_reducible refine SameBut.each ?_ fun y a => ?_)

theorem State.writeFormat_frame {s : State} : SameBut (State.writeFormat s) s [.dram, .dramBad, .cores, .bands] := by
  unfold State.writeFormat
  try dsimp only
  repeat' first
    | with_reducible exact SameBut.refl _ _
    | with_reducible assumption
    | with_reducible refine SameBut.call State.putPrn_frame (by decide) ?_
    | (with_reducible refine SameBut.each ?_ fun y a => ?_)

theorem State.warpRowWrite_frame {s : State} {a1 : _} : SameBut (State.warpRowWrite s a1) s [.now, .cal, .regs,
    .dram, .dramBad, .cores, .bands, .warp] := by
  unfold State.warpRowWrite
  try dsimp only
  repeat' first
    | ((with_reducible refine SameBut.upd rfl ?_ ?_); intro p hp; (cases p <;> (try (with_reducible rfl)));
        exact absurd (by decide) hp; (repeat (exact absurd (by decide) hp)))
    | with_reducible exact SameBut.refl _ _
    | with_reducible assumption
    | with_reducible refine SameBut.call State.waitUntil_frame (by decide) ?_
    | with_reducible refine SameBut.call State.incF_frame (by decide) ?_
    | with_reducible refine SameBut.call State.lsMark_frame (by decide) ?_
    | with_reducible refine SameBut.call State.writeMem_frame (by decide) ?_
    | (split <;> try dsimp only)

theorem State.warpBoundary_frame {s : State} : SameBut (State.warpBoundary s) s [.regs, .warp] := by
  unfold State.warpBoundary
  try dsimp only
  repeat' first
    | with_reducible exact SameBut.refl _ _
    | with_reducible assumption
    | with_reducible refine SameBut.call State.setF_frame (by decide) ?_
    | (with_reducible refine SameBut.each ?_ fun y a => ?_)
    | (split <;> try dsimp only)
    | ((with_reducible refine SameBut.upd rfl ?_ ?_); intro p hp; (cases p <;> (try (with_reducible rfl)));
        exact absurd (by decide) hp; (repeat (exact absurd (by decide) hp)))

theorem State.ctxBoundary_frame {s : State} : SameBut (State.ctxBoundary s) s [.regs, .ctx, .ctxNext] := by
  unfold State.ctxBoundary
  try dsimp only
  repeat' first
    | with_reducible exact SameBut.refl _ _
    | with_reducible assumption
    | with_reducible refine SameBut.call State.setFs_frame (by decide) ?_
    | (split <;> try dsimp only)
    | ((with_reducible refine SameBut.upd rfl ?_ ?_); intro p hp; (cases p <;> (try (with_reducible rfl)));
        exact absurd (by decide) hp; (repeat (exact absurd (by decide) hp)))

end Sys2Proof.Machine
end

