-- ==== Sys2Proof/Laws/FrameBoxUnit.lean ====
section
/-! SUPPORT. What each operation of Machine/BoxUnit.lean can change: every field of the state but those listed stays. -/
namespace Sys2Proof.Machine

theorem State.boxRun_frame {s : State} {a1 : _} : SameBut (State.boxRun s a1) s [.regs, .fc, .box] := by
  unfold State.boxRun
  try dsimp only
  repeat' first
    | with_reducible exact SameBut.refl _ _
    | with_reducible assumption
    | with_reducible refine SameBut.call State.runEnds_frame (by decide) ?_
    | with_reducible refine SameBut.call State.countArith_frame (by decide) ?_
    | (split <;> try dsimp only)
    | ((with_reducible refine SameBut.upd rfl ?_ ?_); intro p hp; (cases p <;> (try (with_reducible rfl)));
        exact absurd (by decide) hp; (repeat (exact absurd (by decide) hp)))

theorem State.boxComplete_frame {s : State} : SameBut (State.boxComplete s) s [.now, .cal, .regs, .dram, .dramBad,
    .cores, .bands, .fc, .box] := by
  unfold State.boxComplete
  try dsimp only
  repeat' first
    | ((with_reducible refine SameBut.upd rfl ?_ ?_); intro p hp; (cases p <;> (try (with_reducible rfl)));
        exact absurd (by decide) hp; (repeat (exact absurd (by decide) hp)))
    | with_reducible exact SameBut.refl _ _
    | with_reducible assumption
    | with_reducible refine SameBut.call State.waitUntil_frame (by decide) ?_
    | with_reducible refine SameBut.call State.putPrn_frame (by decide) ?_
    | with_reducible refine SameBut.call State.writeElems_frame (by decide) ?_
    | with_reducible refine SameBut.call State.setFs_frame (by decide) ?_
    | with_reducible refine SameBut.call State.incF_frame (by decide) ?_
    | (with_reducible refine SameBut.each ?_ fun y a => ?_)
    | (split <;> try dsimp only)

end Sys2Proof.Machine
end

