-- ==== Sys2Proof/Laws/FrameDrizzle.lean ====
section
/-! SUPPORT. What each operation of Machine/Drizzle.lean can change: every field of the state but those listed stays. -/
namespace Sys2Proof.Machine

theorem State.onDrzSet_frame {s : State} {a1 : _} : SameBut (State.onDrzSet s a1) s [.drz] := by
  unfold State.onDrzSet
  try dsimp only
  repeat' first
    | with_reducible exact SameBut.refl _ _
    | with_reducible assumption
    | (split <;> try dsimp only)
    | ((with_reducible refine SameBut.upd rfl ?_ ?_); intro p hp; (cases p <;> (try (with_reducible rfl)));
        exact absurd (by decide) hp; (repeat (exact absurd (by decide) hp)))

theorem State.onDrz_frame {s : State} {a1 : _} : SameBut (State.onDrz s a1) s [.drz] := by
  unfold State.onDrz
  try dsimp only
  repeat' first
    | with_reducible exact SameBut.refl _ _
    | with_reducible assumption
    | (split <;> try dsimp only)
    | ((with_reducible refine SameBut.upd rfl ?_ ?_); intro p hp; (cases p <;> (try (with_reducible rfl)));
        exact absurd (by decide) hp; (repeat (exact absurd (by decide) hp)))

theorem State.drzTaint_frame {s : State} : SameBut (State.drzTaint s) s [.drz] := by
  unfold State.drzTaint
  try dsimp only
  repeat' first
    | with_reducible exact SameBut.refl _ _
    | with_reducible assumption
    | with_reducible refine SameBut.call State.onDrzSet_frame (by decide) ?_

theorem State.writePages_frame {s : State} {a1 : _} {a2 : _} : SameBut (State.writePages s a1 a2) s [.dram,
    .dramBad, .cores, .bands] := by
  unfold State.writePages
  try dsimp only
  repeat' first
    | with_reducible exact SameBut.refl _ _
    | with_reducible assumption
    | with_reducible refine SameBut.call State.writeMem_frame (by decide) ?_

theorem State.writeInactive_frame {s : State} {a1 : _} : SameBut (State.writeInactive s a1) s [.cores] := by
  unfold State.writeInactive
  try dsimp only
  repeat' first
    | with_reducible exact SameBut.refl _ _
    | with_reducible assumption
    | with_reducible refine SameBut.call State.onCore_frame (by decide) ?_
    | (with_reducible refine SameBut.each ?_ fun y a => ?_)
    | (with_reducible refine SameBut.foldl ?_ fun y a => ?_)
    | (split <;> try dsimp only)

theorem State.flipBank_frame {s : State} : SameBut (State.flipBank s) s [.regs, .cores] := by
  unfold State.flipBank
  try dsimp only
  repeat' first
    | with_reducible exact SameBut.refl _ _
    | with_reducible assumption
    | with_reducible refine SameBut.call State.setF_frame (by decide) ?_
    | with_reducible refine SameBut.call State.onCore_frame (by decide) ?_
    | (with_reducible refine SameBut.each ?_ fun y a => ?_)

theorem State.drzInit_frame {s : State} : SameBut (State.drzInit s) s [.dram, .dramBad, .cores, .bands] := by
  unfold State.drzInit
  try dsimp only
  repeat' first
    | with_reducible exact SameBut.refl _ _
    | with_reducible assumption
    | with_reducible refine SameBut.call State.writeMem_frame (by decide) ?_
    | with_reducible refine SameBut.call State.writeInactive_frame (by decide) ?_
    | with_reducible refine SameBut.call State.writePages_frame (by decide) ?_

theorem State.planGrabs_frame {s : State} {a1 : _} : SameBut (State.planGrabs s a1) s [.drz] := by
  unfold State.planGrabs
  try dsimp only
  repeat' first
    | with_reducible exact SameBut.refl _ _
    | with_reducible assumption
    | with_reducible refine SameBut.call State.onDrz_frame (by decide) ?_
    | (with_reducible refine SameBut.foldl ?_ fun y a => ?_)
    | (split <;> try dsimp only)

theorem State.takeCrop_frame {s : State} {a1 : _} {a2 : _} : SameBut (State.takeCrop s a1 a2) s [.dram, .dramBad,
    .cores, .bands, .drz] := by
  unfold State.takeCrop
  try dsimp only
  repeat' first
    | with_reducible exact SameBut.refl _ _
    | with_reducible assumption
    | with_reducible refine SameBut.call State.onDrz_frame (by decide) ?_
    | with_reducible refine SameBut.call State.writeMem_frame (by decide) ?_

theorem State.cropGrab_frame {s : State} : SameBut (State.cropGrab s) s [.dram, .dramBad, .cores, .bands, .drz] := by
  unfold State.cropGrab
  try dsimp only
  repeat' first
    | with_reducible exact SameBut.refl _ _
    | with_reducible assumption
    | with_reducible refine SameBut.call State.takeCrop_frame (by decide) ?_
    | with_reducible refine SameBut.call State.onDrz_frame (by decide) ?_
    | (with_reducible refine SameBut.each ?_ fun y a => ?_)
    | (split <;> try dsimp only)

theorem State.samplePos_frame {s : State} {a1 : _} {a2 : _} : SameBut (State.samplePos s a1 a2).1 s [.regs, .drz] :=
    by
  unfold State.samplePos
  try dsimp only
  repeat' first
    | with_reducible exact SameBut.refl _ _
    | with_reducible assumption
    | with_reducible refine SameBut.call State.onDrzSet_frame (by decide) ?_
    | with_reducible refine SameBut.call State.drzTaint_frame (by decide) ?_
    | with_reducible refine SameBut.call State.incF_frame (by decide) ?_
    | (split <;> try dsimp only)

theorem State.sampleSelect_frame {a0 : _} {a1 : _} {a2 : _} {a3 : _} {s : State} {a5 : _} : SameBut
    (State.sampleSelect a0 a1 a2 a3 s a5).1 s [.regs, .drz] := by
  induction a0 generalizing s a5 with
  | zero => exact SameBut.refl _ _
  | succ n ih =>
    unfold State.sampleSelect
    split
    · exact SameBut.refl _ _
    · exact ih.trans State.samplePos_frame

theorem State.drzTakeUp_frame {s : State} : SameBut (State.drzTakeUp s) s [.regs, .cores] := by
  unfold State.drzTakeUp
  try dsimp only
  repeat' first
    | with_reducible exact SameBut.refl _ _
    | with_reducible assumption
    | with_reducible refine SameBut.call State.frameThreads_frame (by decide) ?_
    | with_reducible refine SameBut.call State.onThread_frame (by decide) ?_
    | with_reducible refine SameBut.call State.setFs_frame (by decide) ?_
    | (with_reducible refine SameBut.each ?_ fun y a => ?_)
    | (split <;> try dsimp only)

theorem State.selectFor_frame {s : State} {a1 : _} {a2 : _} {a3 : _} : SameBut (State.selectFor s a1 a2 a3) s
    [.regs, .cores, .drz] := by
  unfold State.selectFor
  try dsimp only
  repeat' first
    | with_reducible exact SameBut.refl _ _
    | with_reducible assumption
    | with_reducible refine SameBut.call State.sampleSelect_frame (by decide) ?_
    | with_reducible refine SameBut.call State.drzTakeUp_frame (by decide) ?_
    | with_reducible refine SameBut.call State.onDrz_frame (by decide) ?_

theorem State.nextStep_frame {s : State} {a1 : _} : SameBut (State.nextStep s a1) s [.regs, .cores, .drz] := by
  unfold State.nextStep
  try dsimp only
  repeat' first
    | with_reducible exact SameBut.refl _ _
    | with_reducible assumption
    | with_reducible refine SameBut.call State.onDrzSet_frame (by decide) ?_
    | with_reducible refine SameBut.call State.onDrz_frame (by decide) ?_
    | with_reducible refine SameBut.call State.selectFor_frame (by decide) ?_
    | with_reducible refine SameBut.call State.drzTaint_frame (by decide) ?_
    | (split <;> try dsimp only)

theorem State.drzStepStart_frame {s : State} : SameBut (State.drzStepStart s) s [.regs, .cores, .drz] := by
  unfold State.drzStepStart
  try dsimp only
  repeat' first
    | with_reducible exact SameBut.refl _ _
    | with_reducible assumption
    | with_reducible refine SameBut.call State.nextStep_frame (by decide) ?_
    | with_reducible refine SameBut.call State.selectFor_frame (by decide) ?_
    | (split <;> try dsimp only)

theorem State.onStep_frame {s : State} {a1 : _} {a2 : _} : SameBut (State.onStep s a1 a2) s [.drz] := by
  unfold State.onStep
  try dsimp only
  repeat' first
    | with_reducible exact SameBut.refl _ _
    | with_reducible assumption
    | with_reducible refine SameBut.call State.onDrz_frame (by decide) ?_

theorem State.augment_frame {s : State} {a1 : _} : SameBut (State.augment s a1) s [.regs, .dram, .dramBad, .cores,
    .bands, .signals, .drz] := by
  unfold State.augment
  try dsimp only
  repeat' first
    | with_reducible exact SameBut.refl _ _
    | with_reducible assumption
    | with_reducible refine SameBut.call State.writeElems_frame (by decide) ?_
    | with_reducible refine SameBut.call State.signalAt_frame (by decide) ?_
    | with_reducible refine SameBut.call State.onStep_frame (by decide) ?_
    | (with_reducible refine SameBut.each ?_ fun y a => ?_)
    | (split <;> try dsimp only)

theorem State.gradRun_frame {s : State} {a1 : _} {a2 : _} {a3 : _} {a4 : _} {a5 : _} {a6 : _} : SameBut
    (State.gradRun s a1 a2 a3 a4 a5 a6).2.2.1 s [.regs, .cores] := by
  unfold State.gradRun
  extract_lets +onlyGivenNames xr gr ix poss
  clear_value xr gr ix poss
  refine SameBut.foldl_of (fun a : List Int × Cnt × State × Bool => a.2.2.1) (SameBut.refl _ _) fun y a => ?_
  by_cases h : y.2.2.2 = true
  · rw [if_pos h]
    exact SameBut.refl _ _
  · rw [if_neg h]
    exact SameBut.call State.foreRead_frame (by decide) (SameBut.refl _ _)

theorem State.gradient_frame {s : State} {a1 : _} {a2 : _} {a3 : _} : SameBut (State.gradient s a1 a2 a3) s [.now,
    .cal, .regs, .dram, .dramBad, .cores, .bands, .fc, .fab, .signals, .drz] := by
  unfold State.gradient
  try dsimp only
  repeat' first
    | with_reducible exact SameBut.refl _ _
    | with_reducible assumption
    | with_reducible refine SameBut.call State.refused1_frame (by decide) ?_
    | with_reducible refine SameBut.call State.setThreadState_frame (by decide) ?_
    | with_reducible refine SameBut.call State.rotate_frame (by decide) ?_
    | with_reducible refine SameBut.call State.awaitUnit_frame (by decide) ?_
    | with_reducible refine SameBut.call State.gradRun_frame (by decide) ?_
    | with_reducible refine SameBut.call State.coreFault_frame (by decide) ?_
    | with_reducible refine SameBut.call State.noteConflict_frame (by decide) ?_
    | with_reducible refine SameBut.call State.writeMem_frame (by decide) ?_
    | with_reducible refine SameBut.call State.inPipe_frame (by decide) ?_
    | with_reducible refine SameBut.call State.occupy_frame (by decide) ?_
    | with_reducible refine SameBut.call State.countArith_frame (by decide) ?_
    | with_reducible refine SameBut.call State.onStep_frame (by decide) ?_
    | with_reducible refine SameBut.call State.onCore_frame (by decide) ?_
    | (split <;> try dsimp only)

theorem State.drzClauseEnd_frame {s : State} {a1 : _} {a2 : _} : SameBut (State.drzClauseEnd s a1 a2) s [.now, .cal,
    .regs, .cores, .bands, .fc, .drz] := by
  unfold State.drzClauseEnd
  try dsimp only
  repeat' first
    | with_reducible exact SameBut.refl _ _
    | with_reducible assumption
    | with_reducible refine SameBut.call State.onStep_frame (by decide) ?_
    | with_reducible refine SameBut.call State.clauseDrained_frame (by decide) ?_
    | (split <;> try dsimp only)

theorem State.coverCheck_frame {s : State} : SameBut (State.coverCheck s) s [.drz] := by
  unfold State.coverCheck
  try dsimp only
  repeat' first
    | with_reducible exact SameBut.refl _ _
    | with_reducible assumption
    | with_reducible refine SameBut.call State.onDrz_frame (by decide) ?_
    | (split <;> try dsimp only)

theorem State.drzUpdate_frame {s : State} {a1 : _} : SameBut (State.drzUpdate s a1) s [.free, .now, .cal, .regs,
    .dram, .dramBad, .cores, .bands, .drz] := by
  unfold State.drzUpdate
  split
  · split
    · exact SameBut.refl _ _
    extract_lets +onlyGivenNames s0 c us s1 s2 q s3
    clear_value us
    have h1 : SameBut s1 s [.free, .now, .cal, .regs, .dram, .dramBad, .cores, .bands, .drz] := SameBut.call
        State.writeMem_frame (by decide) (State.waitUntil_frame.mono (by decide))
    clear_value s1
    have h2 : SameBut s2 s [.free, .now, .cal, .regs, .dram, .dramBad, .cores, .bands, .drz] :=
      SameBut.call State.setF_frame (by decide) (SameBut.call State.incF_frame (by decide) (SameBut.call
          State.incF_frame (by decide) h1))
    clear_value s2
    have h3 : SameBut s3 s [.free, .now, .cal, .regs, .dram, .dramBad, .cores, .bands, .drz] := by
      refine SameBut.trans (t := s2.countArith (s2.phys 0) (Cnt.all (us.map fun u => u.2.2.2))) ?_
        (SameBut.call State.countArith_frame (by decide) h2)
      intro p hp
      cases p <;> first | with_reducible rfl | exact absurd (by decide) hp
    clear_value s3
    exact SameBut.call State.coverCheck_frame (by decide) (SameBut.call State.drzTakeUp_frame (by decide)
      (SameBut.call State.onDrz_frame (by decide) (SameBut.call State.onDrzSet_frame (by decide) h3)))
  · exact SameBut.refl _ _

theorem State.commitPages_frame {s : State} {a1 : _} : SameBut (State.commitPages s a1) s [.dram, .dramBad, .cores,
    .bands, .drz] := by
  unfold State.commitPages
  try dsimp only
  repeat' first
    | with_reducible exact SameBut.refl _ _
    | with_reducible assumption
    | with_reducible refine SameBut.call State.onDrz_frame (by decide) ?_
    | with_reducible refine SameBut.call State.writePages_frame (by decide) ?_
    | (split <;> try dsimp only)

theorem State.commitReady_frame {s : State} : SameBut (State.commitReady s) s [.now, .cal, .regs, .cores, .bands,
    .drz] := by
  unfold State.commitReady
  try dsimp only
  repeat' first
    | with_reducible exact SameBut.refl _ _
    | with_reducible assumption
    | with_reducible refine SameBut.call State.writeInactive_frame (by decide) ?_
    | with_reducible refine SameBut.call State.waitUntil_frame (by decide) ?_
    | with_reducible refine SameBut.call State.onDrz_frame (by decide) ?_
    | (split <;> try dsimp only)

theorem State.dropSteps_frame {s : State} : SameBut (State.dropSteps s) s [.regs, .cores, .drz] := by
  unfold State.dropSteps
  try dsimp only
  repeat' first
    | with_reducible exact SameBut.refl _ _
    | with_reducible assumption
    | with_reducible refine SameBut.call State.onCore_frame (by decide) ?_
    | with_reducible refine SameBut.call State.initSem_frame (by decide) ?_
    | with_reducible refine SameBut.call State.frameThreads_frame (by decide) ?_
    | with_reducible refine SameBut.call State.setThreadState_frame (by decide) ?_
    | with_reducible refine SameBut.call State.onThread_frame (by decide) ?_
    | with_reducible refine SameBut.call State.onDrz_frame (by decide) ?_
    | (with_reducible refine SameBut.each ?_ fun y a => ?_)
    | (split <;> try dsimp only)

theorem State.abandonSteps_frame {s : State} : SameBut (State.abandonSteps s) s [.regs, .cores, .drz] := by
  unfold State.abandonSteps
  try dsimp only
  repeat' first
    | with_reducible exact SameBut.refl _ _
    | with_reducible assumption
    | with_reducible refine SameBut.call State.drzTaint_frame (by decide) ?_
    | with_reducible refine SameBut.call State.incF_frame (by decide) ?_
    | with_reducible refine SameBut.call State.dropSteps_frame (by decide) ?_
    | (split <;> try dsimp only)

theorem State.drzReset_frame {s : State} : SameBut (State.drzReset s) s [.regs, .dram, .dramBad, .cores, .bands,
    .drz] := by
  unfold State.drzReset
  try dsimp only
  repeat' first
    | with_reducible exact SameBut.refl _ _
    | with_reducible assumption
    | with_reducible refine SameBut.call State.drzInit_frame (by decide) ?_
    | with_reducible refine SameBut.call State.dropSteps_frame (by decide) ?_
    | with_reducible refine SameBut.call State.onDrz_frame (by decide) ?_
    | (split <;> try dsimp only)

theorem State.drzSwitch_frame {s : State} : SameBut (State.drzSwitch s) s [.cores, .drz] := by
  unfold State.drzSwitch
  try dsimp only
  repeat' first
    | with_reducible exact SameBut.refl _ _
    | with_reducible assumption
    | with_reducible refine SameBut.call State.onDrz_frame (by decide) ?_
    | with_reducible refine SameBut.call State.writeInactive_frame (by decide) ?_
    | (split <;> try dsimp only)

theorem State.drzHist_frame {s : State} : SameBut (State.drzHist s) s [.regs] := by
  unfold State.drzHist
  try dsimp only
  repeat' first
    | with_reducible exact SameBut.refl _ _
    | with_reducible assumption
    | with_reducible refine SameBut.call State.setFs_frame (by decide) ?_
    | (with_reducible refine SameBut.each ?_ fun y a => ?_)
    | (split <;> try dsimp only)

theorem State.histSum_frame {s : State} : SameBut (State.histSum s) s [.dram, .dramBad, .cores, .bands] := by
  unfold State.histSum
  try dsimp only
  repeat' first
    | with_reducible exact SameBut.refl _ _
    | with_reducible assumption
    | with_reducible refine SameBut.call State.putPrn_frame (by decide) ?_
    | (with_reducible refine SameBut.foldl ?_ fun y a => ?_)
    | (split <;> try dsimp only)

theorem State.resetLive_frame {s : State} {a1 : _} : SameBut (State.resetLive s a1) s [.regs, .cores, .drz] := by
  unfold State.resetLive
  try dsimp only
  repeat' first
    | with_reducible exact SameBut.refl _ _
    | with_reducible assumption
    | with_reducible refine SameBut.call State.onDrz_frame (by decide) ?_
    | with_reducible refine SameBut.call State.onDrzSet_frame (by decide) ?_
    | with_reducible refine SameBut.call State.flipBank_frame (by decide) ?_
    | (split <;> try dsimp only)

theorem State.drzEnable_frame {s : State} {a1 : _} : SameBut (State.drzEnable s a1) s [.regs, .drz] := by
  unfold State.drzEnable
  try dsimp only
  repeat' first
    | with_reducible exact SameBut.refl _ _
    | with_reducible assumption
    | with_reducible refine SameBut.call State.drzHist_frame (by decide) ?_
    | with_reducible refine SameBut.call State.onDrz_frame (by decide) ?_
    | (split <;> try dsimp only)

theorem State.commitLive_frame {s : State} {a1 : _} : SameBut (State.commitLive s a1) s [.regs, .cores, .drz] := by
  unfold State.commitLive
  try dsimp only
  repeat' first
    | with_reducible exact SameBut.refl _ _
    | with_reducible assumption
    | with_reducible refine SameBut.call State.onDrz_frame (by decide) ?_
    | with_reducible refine SameBut.call State.incF_frame (by decide) ?_
    | with_reducible refine SameBut.call State.onDrzSet_frame (by decide) ?_
    | with_reducible refine SameBut.call State.flipBank_frame (by decide) ?_
    | with_reducible refine SameBut.call State.drzTaint_frame (by decide) ?_
    | (split <;> try dsimp only)

theorem State.queueFill_frame {s : State} {a1 : _} : SameBut (State.queueFill s a1) s [.regs, .drz] := by
  unfold State.queueFill
  try dsimp only
  repeat' first
    | with_reducible exact SameBut.refl _ _
    | with_reducible assumption
    | with_reducible refine SameBut.call State.onDrz_frame (by decide) ?_
    | with_reducible refine SameBut.call State.drzTaint_frame (by decide) ?_
    | with_reducible refine SameBut.call State.incF_frame (by decide) ?_
    | (split <;> try dsimp only)

theorem State.drzBoundary_frame {s : State} {a1 : _} {a2 : _} : SameBut (State.drzBoundary s a1 a2) s [.regs, .dram,
    .dramBad, .cores, .bands, .drz, .tds] := by
  unfold State.drzBoundary
  try dsimp only
  repeat' first
    | with_reducible exact SameBut.refl _ _
    | with_reducible assumption
    | with_reducible refine SameBut.call State.onDrz_frame (by decide) ?_
    | with_reducible refine SameBut.call State.flipBank_frame (by decide) ?_
    | with_reducible refine SameBut.call State.histSum_frame (by decide) ?_
    | with_reducible refine SameBut.call State.queueFill_frame (by decide) ?_
    | with_reducible refine SameBut.call State.commitLive_frame (by decide) ?_
    | with_reducible refine SameBut.call State.drzEnable_frame (by decide) ?_
    | with_reducible refine SameBut.call State.resetLive_frame (by decide) ?_
    | with_reducible refine SameBut.call State.tdAdd_frame (by decide) ?_
    | with_reducible refine SameBut.call State.coverCheck_frame (by decide) ?_
    | (split <;> try dsimp only)

theorem State.weightRewrite_frame {s : State} {a1 : _} : SameBut (State.weightRewrite s a1) s [.regs, .cores] := by
  unfold State.weightRewrite
  try dsimp only
  repeat' first
    | with_reducible exact SameBut.refl _ _
    | with_reducible assumption
    | with_reducible refine SameBut.call State.onCore_frame (by decide) ?_
    | with_reducible refine SameBut.call State.incF_frame (by decide) ?_
    | (split <;> try dsimp only)

end Sys2Proof.Machine
end

