-- ==== Sys2Proof/Laws/FrameFrost.lean ====
section
/-! SUPPORT. What each operation of Machine/Frost.lean can change: every field of the state but those listed stays. -/
namespace Sys2Proof.Machine

theorem State.clearSlot_frame {s : State} {a1 : _} : SameBut (State.clearSlot s a1) s [.regs] := by
  unfold State.clearSlot
  try dsimp only
  repeat' first
    | with_reducible exact SameBut.refl _ _
    | with_reducible assumption
    | with_reducible refine SameBut.call State.yieldF_frame (by decide) ?_

theorem State.examine_frame {s : State} {a1 : _} : SameBut (State.examine s a1).1 s [.regs] := by
  unfold State.examine
  try dsimp only
  repeat' first
    | with_reducible exact SameBut.refl _ _
    | with_reducible assumption
    | with_reducible refine SameBut.call State.clearSlot_frame (by decide) ?_
    | with_reducible refine SameBut.call State.incFs_frame (by decide) ?_
    | with_reducible refine SameBut.call State.incF_frame (by decide) ?_
    | with_reducible refine SameBut.call State.setF_frame (by decide) ?_
    | (with_reducible refine SameBut.foldl ?_ fun y a => ?_)
    | (split <;> try dsimp only)

theorem State.frostFix_frame {s : State} {a1 : _} : SameBut (State.frostFix s a1) s [.regs, .frost] := by
  unfold State.frostFix
  try dsimp only
  repeat' first
    | ((with_reducible refine SameBut.upd rfl ?_ ?_); intro p hp; (cases p <;> (try (with_reducible rfl)));
        exact absurd (by decide) hp; (repeat (exact absurd (by decide) hp)))
    | with_reducible exact SameBut.refl _ _
    | with_reducible assumption
    | with_reducible refine SameBut.call State.examine_frame (by decide) ?_
    | with_reducible refine SameBut.call State.incF_frame (by decide) ?_
    | with_reducible refine SameBut.call State.setFs_frame (by decide) ?_
    | (split <;> try dsimp only)

theorem State.templatesDone_frame {s : State} : SameBut (State.templatesDone s) s [.frost] := by
  unfold State.templatesDone
  try dsimp only
  repeat' first
    | with_reducible exact SameBut.refl _ _
    | with_reducible assumption
    | (split <;> try dsimp only)
    | ((with_reducible refine SameBut.upd rfl ?_ ?_); intro p hp; (cases p <;> (try (with_reducible rfl)));
        exact absurd (by decide) hp; (repeat (exact absurd (by decide) hp)))

theorem State.frost1_frame {s : State} {a1 : _} {a2 : _} : SameBut (State.frost1 s a1 a2) s [.now, .cal, .regs,
    .cores, .bands, .frost, .sel] := by
  unfold State.frost1
  try dsimp only
  repeat' first
    | with_reducible exact SameBut.refl _ _
    | with_reducible assumption
    | with_reducible refine SameBut.call State.waitUntil_frame (by decide) ?_
    | (split <;> try dsimp only)
    | ((with_reducible refine SameBut.upd rfl ?_ ?_); intro p hp; (cases p <;> (try (with_reducible rfl)));
        exact absurd (by decide) hp; (repeat (exact absurd (by decide) hp)))

theorem State.assignAddresses_frame {s : State} : SameBut (State.assignAddresses s) s [.sns] := by
  unfold State.assignAddresses
  try dsimp only
  repeat' first
    | with_reducible exact SameBut.refl _ _
    | with_reducible assumption
    | (split <;> try dsimp only)
    | ((with_reducible refine SameBut.upd rfl ?_ ?_); intro p hp; (cases p <;> (try (with_reducible rfl)));
        exact absurd (by decide) hp; (repeat (exact absurd (by decide) hp)))

theorem State.keepSample_frame {s : State} {a1 : _} {a2 : _} : SameBut (State.keepSample s a1 a2) s [.sns] := by
  unfold State.keepSample
  try dsimp only
  repeat' first
    | with_reducible exact SameBut.refl _ _
    | with_reducible assumption
    | (split <;> try dsimp only)
    | ((with_reducible refine SameBut.upd rfl ?_ ?_); intro p hp; (cases p <;> (try (with_reducible rfl)));
        exact absurd (by decide) hp; (repeat (exact absurd (by decide) hp)))

theorem State.sensorRead_frame {s : State} {a1 : _} {a2 : _} : SameBut (State.sensorRead s a1 a2) s [.free, .now,
    .cal, .regs, .cores, .bands, .sns, .aud] := by
  unfold State.sensorRead
  split
  · exact SameBut.refl _ _
  extract_lets +onlyGivenNames e per
  split
  · exact SameBut.refl _ _
  extract_lets +onlyGivenNames due took begin_
  have ht : ∀ y : State, SameBut y s [.free, .now, .cal, .regs, .cores, .bands, .sns, .aud] → SameBut (took y) s
      [.free, .now, .cal, .regs, .cores, .bands, .sns, .aud] := fun y hy => SameBut.upd rfl (by
          intro p hp
          cases p <;> first | with_reducible rfl | exact absurd (by decide) hp) hy
  clear_value took
  split
  · exact ht _ (State.waitUntil_frame.mono (by decide))
  split
  · exact ht _ (SameBut.call State.incF_frame (by decide) (State.waitUntil_frame.mono (by decide)))
  extract_lets +onlyGivenNames cut x s0 q s1 pres off
  have h0 : SameBut s0 s [.free, .now, .cal, .regs, .cores, .bands, .sns, .aud] := ht _ (State.waitUntil_frame.mono
      (by decide))
  clear_value s0
  have h1 : SameBut s1 s [.free, .now, .cal, .regs, .cores, .bands, .sns, .aud] := SameBut.upd rfl (by
          intro p hp
          cases p <;> first | with_reducible rfl | exact absurd (by decide) hp) h0
  clear_value s1
  split
  · exact SameBut.call State.setF_frame (by decide) (SameBut.call State.incF_frame (by decide) h1)
  · exact SameBut.call State.incF_frame (by decide) h1
  · exact SameBut.call State.record_frame (by decide) (SameBut.call State.keepSample_frame (by decide) (SameBut.call
      State.setFs_frame (by decide) h1))

theorem State.sensorVector_frame {s : State} : SameBut (State.sensorVector s) s [.free, .regs, .sns] := by
  unfold State.sensorVector
  try dsimp only
  repeat' first
    | with_reducible exact SameBut.refl _ _
    | with_reducible assumption
    | with_reducible refine SameBut.call State.setFs_frame (by decide) ?_
    | (with_reducible refine SameBut.foldl ?_ fun y a => ?_)
    | (split <;> try dsimp only)
    | ((with_reducible refine SameBut.upd rfl ?_ ?_); intro p hp; (cases p <;> (try (with_reducible rfl)));
        exact absurd (by decide) hp; (repeat (exact absurd (by decide) hp)))

end Sys2Proof.Machine
end

