-- ==== Sys2Proof/Laws/FrameCompose.lean ====
section
/-! SUPPORT. What each operation of Machine/Compose.lean can change: every field of the state but those listed stays. -/
namespace Sys2Proof.Machine

theorem State.takePlane_frame {s : State} {a1 : _} : SameBut (State.takePlane s a1) s [.regs, .cmp] := by
  unfold State.takePlane
  try dsimp only
  repeat' first
    | ((with_reducible refine SameBut.upd rfl ?_ ?_); intro p hp; (cases p <;> (try (with_reducible rfl)));
        exact absurd (by decide) hp; (repeat (exact absurd (by decide) hp)))
    | with_reducible exact SameBut.refl _ _
    | with_reducible assumption
    | with_reducible refine SameBut.call State.incF_frame (by decide) ?_

theorem State.takeRegion_frame {s : State} {a1 : _} : SameBut (State.takeRegion s a1) s [.regs, .cmp] := by
  unfold State.takeRegion
  try dsimp only
  repeat' first
    | ((with_reducible refine SameBut.upd rfl ?_ ?_); intro p hp; (cases p <;> (try (with_reducible rfl)));
        exact absurd (by decide) hp; (repeat (exact absurd (by decide) hp)))
    | with_reducible exact SameBut.refl _ _
    | with_reducible assumption
    | with_reducible refine SameBut.call State.incF_frame (by decide) ?_

theorem State.forceRegion_frame {s : State} {a1 : _} {a2 : _} : SameBut (State.forceRegion s a1 a2) s [.regs, .cmp,
    .tds] := by
  unfold State.forceRegion
  try dsimp only
  repeat' first
    | with_reducible exact SameBut.refl _ _
    | with_reducible assumption
    | with_reducible refine SameBut.call State.setF_frame (by decide) ?_
    | with_reducible refine SameBut.call State.tdAdd_frame (by decide) ?_
    | (split <;> try dsimp only)
    | ((with_reducible refine SameBut.upd rfl ?_ ?_); intro p hp; (cases p <;> (try (with_reducible rfl)));
        exact absurd (by decide) hp; (repeat (exact absurd (by decide) hp)))

theorem State.takeCapture_frame {s : State} : SameBut (State.takeCapture s) s [.regs, .cmp] := by
  unfold State.takeCapture
  try dsimp only
  repeat' first
    | ((with_reducible refine SameBut.upd rfl ?_ ?_); intro p hp; (cases p <;> (try (with_reducible rfl)));
        exact absurd (by decide) hp; (repeat (exact absurd (by decide) hp)))
    | with_reducible exact SameBut.refl _ _
    | with_reducible assumption
    | with_reducible refine SameBut.call State.incF_frame (by decide) ?_
    | (split <;> try dsimp only)

theorem State.applyPoint_frame {s : State} {a1 : _} : SameBut (State.applyPoint s a1) s [.regs, .cmp, .tds] := by
  unfold State.applyPoint
  try dsimp only
  repeat' first
    | with_reducible exact SameBut.refl _ _
    | with_reducible assumption
    | with_reducible refine SameBut.call State.takePlane_frame (by decide) ?_
    | with_reducible refine SameBut.call State.takeRegion_frame (by decide) ?_
    | with_reducible refine SameBut.call State.takeCapture_frame (by decide) ?_
    | with_reducible refine SameBut.call State.yieldF_frame (by decide) ?_
    | with_reducible refine SameBut.call State.forceRegion_frame (by decide) ?_
    | (with_reducible refine SameBut.each ?_ fun y a => ?_)
    | (split <;> try dsimp only)
    | ((with_reducible refine SameBut.upd rfl ?_ ?_); intro p hp; (cases p <;> (try (with_reducible rfl)));
        exact absurd (by decide) hp; (repeat (exact absurd (by decide) hp)))

theorem State.graphicsFetch_frame {s : State} {a1 : _} : SameBut (State.graphicsFetch s a1) s [.now, .cal, .regs,
    .cores, .bands, .cmp, .tds] := by
  unfold State.graphicsFetch
  try dsimp only
  repeat' first
    | with_reducible exact SameBut.refl _ _
    | with_reducible assumption
    | with_reducible refine SameBut.call State.fire_frame (by decide) ?_
    | with_reducible refine SameBut.call State.applyPoint_frame (by decide) ?_
    | (split <;> try dsimp only)
    | ((with_reducible refine SameBut.upd rfl ?_ ?_); intro p hp; (cases p <;> (try (with_reducible rfl)));
        exact absurd (by decide) hp; (repeat (exact absurd (by decide) hp)))

theorem State.checkRegion_frame {s : State} {a1 : _} {a2 : _} {a3 : _} {a4 : _} {a5 : _} : SameBut
    (State.checkRegion s a1 a2 a3 a4 a5) s [.regs, .cmp] := by
  unfold State.checkRegion
  try dsimp only
  repeat' first
    | with_reducible exact SameBut.refl _ _
    | with_reducible assumption
    | with_reducible refine SameBut.call State.setFs_frame (by decide) ?_
    | with_reducible refine SameBut.call State.setF_frame (by decide) ?_
    | with_reducible refine SameBut.call State.incF_frame (by decide) ?_
    | (split <;> try dsimp only)
    | ((with_reducible refine SameBut.upd rfl ?_ ?_); intro p hp; (cases p <;> (try (with_reducible rfl)));
        exact absurd (by decide) hp; (repeat (exact absurd (by decide) hp)))

theorem State.composeLine_frame {s : State} {a1 : _} {a2 : _} : SameBut (State.composeLine s a1 a2) s [.now, .cal,
    .regs, .cores, .bands, .frost, .cmp, .sel, .aud, .tds] := by
  unfold State.composeLine
  split
  · exact SameBut.refl _ _
  split
  · exact State.fire_frame.mono (by decide)
  extract_lets +onlyGivenNames f y
  split
  · exact SameBut.refl _ _
  extract_lets +onlyGivenNames s1
  have h1 : SameBut s1 s [.now, .cal, .regs, .cores, .bands, .frost, .cmp, .sel, .aud, .tds] := SameBut.call
      State.frost1_frame (by decide) (SameBut.call State.applyPoint_frame (by decide) (SameBut.call State.fire_frame
      (by decide) (SameBut.refl _ _)))
  clear_value s1
  split
  · exact SameBut.refl _ _
  · extract_lets +onlyGivenNames video g cols p1 p2 px va sub out isLate s2 s3 s4 s5 c
    have h2 : SameBut s2 s [.now, .cal, .regs, .cores, .bands, .frost, .cmp, .sel, .aud, .tds] := SameBut.call
        State.incFs_frame (by decide) h1
    have h3 : SameBut s3 s [.now, .cal, .regs, .cores, .bands, .frost, .cmp, .sel, .aud, .tds] := SameBut.each h2
        fun y a => State.incF_frame.mono (by decide)
    have h4 : SameBut s4 s [.now, .cal, .regs, .cores, .bands, .frost, .cmp, .sel, .aud, .tds] := SameBut.each h3
        fun y a => State.checkRegion_frame.mono (by decide)
    have h5 : SameBut s5 s [.now, .cal, .regs, .cores, .bands, .frost, .cmp, .sel, .aud, .tds] := by
      clear_value s4
      unfold s5
      split
      · exact SameBut.call State.tdAdd_frame (by decide) h4
      · exact h4
    clear_value s5
    exact SameBut.upd rfl (by
          intro p hp
          cases p <;> first | with_reducible rfl | exact absurd (by decide) hp) h5

theorem State.onGfx_frame {s : State} {a1 : _} : SameBut (State.onGfx s a1) s [.cmp] := by
  unfold State.onGfx
  try dsimp only
  repeat' first
    | with_reducible exact SameBut.refl _ _
    | with_reducible assumption
    | (split <;> try dsimp only)
    | ((with_reducible refine SameBut.upd rfl ?_ ?_); intro p hp; (cases p <;> (try (with_reducible rfl)));
        exact absurd (by decide) hp; (repeat (exact absurd (by decide) hp)))

theorem State.gfxDiscard_frame {s : State} {a1 : _} : SameBut (State.gfxDiscard s a1) s [.regs, .cmp] := by
  unfold State.gfxDiscard
  try dsimp only
  repeat' first
    | with_reducible exact SameBut.refl _ _
    | with_reducible assumption
    | with_reducible refine SameBut.call State.incF_frame (by decide) ?_
    | with_reducible refine SameBut.call State.onGfx_frame (by decide) ?_

theorem State.gfxRestart_frame {s : State} {a1 : _} : SameBut (State.gfxRestart s a1) s [.regs, .cmp] := by
  unfold State.gfxRestart
  try dsimp only
  repeat' first
    | with_reducible exact SameBut.refl _ _
    | with_reducible assumption
    | with_reducible refine SameBut.call State.gfxDiscard_frame (by decide) ?_
    | with_reducible refine SameBut.call State.onGfx_frame (by decide) ?_
    | (split <;> try dsimp only)

theorem State.gfxHide_frame {s : State} {a1 : _} {a2 : _} : SameBut (State.gfxHide s a1 a2) s [.cmp] := by
  unfold State.gfxHide
  try dsimp only
  repeat' first
    | with_reducible exact SameBut.refl _ _
    | with_reducible assumption
    | with_reducible refine SameBut.call State.onGfx_frame (by decide) ?_
    | (split <;> try dsimp only)

theorem State.gfxLine_frame {s : State} {a1 : _} {a2 : _} : SameBut (State.gfxLine s a1 a2) s [.regs, .dram,
    .dramBad, .cores, .bands, .cmp] := by
  unfold State.gfxLine
  try dsimp only
  repeat' first
    | with_reducible exact SameBut.refl _ _
    | with_reducible assumption
    | with_reducible refine SameBut.call State.gfxDiscard_frame (by decide) ?_
    | with_reducible refine SameBut.call State.onGfx_frame (by decide) ?_
    | with_reducible refine SameBut.call State.writeMem_frame (by decide) ?_
    | with_reducible refine SameBut.call State.gfxHide_frame (by decide) ?_
    | (split <;> try dsimp only)

theorem State.inputLine_frame {s : State} {a1 : _} {a2 : _} {a3 : _} {a4 : _} : SameBut (State.inputLine s a1 a2 a3
    a4) s [.regs, .dram, .dramBad, .cores, .bands, .inp, .cmp] := by
  unfold State.inputLine
  try dsimp only
  repeat' first
    | with_reducible exact SameBut.refl _ _
    | with_reducible assumption
    | with_reducible refine SameBut.call State.countLine_frame (by decide) ?_
    | with_reducible refine SameBut.call State.gfxLine_frame (by decide) ?_
    | with_reducible refine SameBut.call State.pictureLine_frame (by decide) ?_
    | (split <;> try dsimp only)

theorem State.frameStart_frame {s : State} {a1 : _} {a2 : _} : SameBut (State.frameStart s a1 a2) s [.now, .cal,
    .regs, .dram, .dramBad, .cores, .bands, .change, .inp, .hist, .arrived, .avail, .cmp, .aud] := by
  unfold State.frameStart
  try dsimp only
  repeat' first
    | with_reducible exact SameBut.refl _ _
    | with_reducible assumption
    | with_reducible refine SameBut.call State.proveSignal_frame (by decide) ?_
    | with_reducible refine SameBut.call State.portFrame_frame (by decide) ?_
    | with_reducible refine SameBut.call State.sinkIrq_frame (by decide) ?_
    | with_reducible refine SameBut.call State.portRestart_frame (by decide) ?_
    | with_reducible refine SameBut.call State.gfxRestart_frame (by decide) ?_
    | with_reducible refine SameBut.call State.inputStart_frame (by decide) ?_
    | (split <;> try dsimp only)

theorem State.gfxBoundary_frame {s : State} {a1 : _} : SameBut (State.gfxBoundary s a1) s [.cmp, .tds] := by
  unfold State.gfxBoundary
  try dsimp only
  repeat' first
    | with_reducible exact SameBut.refl _ _
    | with_reducible assumption
    | with_reducible refine SameBut.call State.tdAdd_frame (by decide) ?_
    | (split <;> try dsimp only)
    | ((with_reducible refine SameBut.upd rfl ?_ ?_); intro p hp; (cases p <;> (try (with_reducible rfl)));
        exact absurd (by decide) hp; (repeat (exact absurd (by decide) hp)))

theorem State.capStatus_frame {s : State} {a1 : _} {a2 : _} {a3 : _} : SameBut (State.capStatus s a1 a2 a3) s
    [.dram, .dramBad, .cores, .bands] := by
  unfold State.capStatus
  try dsimp only
  repeat' first
    | with_reducible exact SameBut.refl _ _
    | with_reducible assumption
    | with_reducible refine SameBut.call State.writeMem_frame (by decide) ?_

theorem State.onRun_frame {s : State} {a1 : _} : SameBut (State.onRun s a1) s [.cmp] := by
  unfold State.onRun
  try dsimp only
  repeat' first
    | with_reducible exact SameBut.refl _ _
    | with_reducible assumption
    | (split <;> try dsimp only)
    | ((with_reducible refine SameBut.upd rfl ?_ ?_); intro p hp; (cases p <;> (try (with_reducible rfl)));
        exact absurd (by decide) hp; (repeat (exact absurd (by decide) hp)))

theorem State.capEnd_frame {s : State} {a1 : _} {a2 : _} {a3 : _} : SameBut (State.capEnd s a1 a2 a3) s [.regs,
    .dram, .dramBad, .cores, .bands, .cmp] := by
  unfold State.capEnd
  try dsimp only
  repeat' first
    | with_reducible exact SameBut.refl _ _
    | with_reducible assumption
    | with_reducible refine SameBut.call State.setF_frame (by decide) ?_
    | with_reducible refine SameBut.call State.capStatus_frame (by decide) ?_
    | with_reducible refine SameBut.call State.onRun_frame (by decide) ?_

theorem State.capRun_frame {s : State} {a1 : _} {a2 : _} : SameBut (State.capRun s a1 a2).1 s [.cmp] := by
  unfold State.capRun
  try dsimp only
  repeat' first
    | with_reducible exact SameBut.refl _ _
    | with_reducible assumption
    | (split <;> try dsimp only)
    | ((with_reducible refine SameBut.upd rfl ?_ ?_); intro p hp; (cases p <;> (try (with_reducible rfl)));
        exact absurd (by decide) hp; (repeat (exact absurd (by decide) hp)))

theorem State.captureLine_frame {s : State} {a1 : _} : SameBut (State.captureLine s a1) s [.now, .cal, .regs, .dram,
    .dramBad, .cores, .bands, .cmp, .tds] := by
  unfold State.captureLine
  try dsimp only
  repeat' first
    | ((with_reducible refine SameBut.upd rfl ?_ ?_); intro p hp; (cases p <;> (try (with_reducible rfl)));
        exact absurd (by decide) hp; (repeat (exact absurd (by decide) hp)))
    | with_reducible exact SameBut.refl _ _
    | with_reducible assumption
    | with_reducible refine SameBut.call State.fire_frame (by decide) ?_
    | with_reducible refine SameBut.call State.applyPoint_frame (by decide) ?_
    | with_reducible refine SameBut.call State.capRun_frame (by decide) ?_
    | with_reducible refine SameBut.call State.setF_frame (by decide) ?_
    | with_reducible refine SameBut.call State.capStatus_frame (by decide) ?_
    | with_reducible refine SameBut.call State.incF_frame (by decide) ?_
    | with_reducible refine SameBut.call State.onRun_frame (by decide) ?_
    | with_reducible refine SameBut.call State.tdAdd_frame (by decide) ?_
    | with_reducible refine SameBut.call State.capEnd_frame (by decide) ?_
    | (split <;> try dsimp only)

theorem State.captureWrite_frame {s : State} : SameBut (State.captureWrite s) s [.regs, .dram, .dramBad, .cores,
    .bands, .cmp] := by
  unfold State.captureWrite
  try dsimp only
  repeat' first
    | with_reducible exact SameBut.refl _ _
    | with_reducible assumption
    | with_reducible refine SameBut.call State.capStatus_frame (by decide) ?_
    | with_reducible refine SameBut.call State.writeMem_frame (by decide) ?_
    | with_reducible refine SameBut.call State.onRun_frame (by decide) ?_
    | with_reducible refine SameBut.call State.capEnd_frame (by decide) ?_
    | (split <;> try dsimp only)
    | ((with_reducible refine SameBut.upd rfl ?_ ?_); intro p hp; (cases p <;> (try (with_reducible rfl)));
        exact absurd (by decide) hp; (repeat (exact absurd (by decide) hp)))

theorem State.capPrune_frame {s : State} {a1 : _} : SameBut (State.capPrune s a1) s [.cmp] := by
  unfold State.capPrune
  try dsimp only
  repeat' first
    | with_reducible exact SameBut.refl _ _
    | with_reducible assumption
    | (split <;> try dsimp only)
    | ((with_reducible refine SameBut.upd rfl ?_ ?_); intro p hp; (cases p <;> (try (with_reducible rfl)));
        exact absurd (by decide) hp; (repeat (exact absurd (by decide) hp)))

end Sys2Proof.Machine
end

