-- ==== Sys2Proof/Laws/FrameAudit.lean ====
section
/-! SUPPORT. What each operation of Machine/Audit.lean can change: every field of the state but those listed stays. -/
namespace Sys2Proof.Machine

theorem State.recBegin_frame {s : State} {a1 : _} {a2 : _} : SameBut (State.recBegin s a1 a2) s [.aud] := by
  unfold State.recBegin
  try dsimp only
  repeat' first
    | with_reducible exact SameBut.refl _ _
    | with_reducible assumption
    | (split <;> try dsimp only)
    | ((with_reducible refine SameBut.upd rfl ?_ ?_); intro p hp; (cases p <;> (try (with_reducible rfl)));
        exact absurd (by decide) hp; (repeat (exact absurd (by decide) hp)))

theorem State.recEnd_frame {s : State} {a1 : _} : SameBut (State.recEnd s a1) s [.regs, .dram, .dramBad, .cores,
    .bands, .cmp, .aud, .tds] := by
  unfold State.recEnd
  try dsimp only
  repeat' first
    | ((with_reducible refine SameBut.upd rfl ?_ ?_); intro p hp; (cases p <;> (try (with_reducible rfl)));
        exact absurd (by decide) hp; (repeat (exact absurd (by decide) hp)))
    | with_reducible exact SameBut.refl _ _
    | with_reducible assumption
    | with_reducible refine SameBut.call State.setF_frame (by decide) ?_
    | with_reducible refine SameBut.call State.incF_frame (by decide) ?_
    | with_reducible refine SameBut.call State.writeMem_frame (by decide) ?_
    | (split <;> try dsimp only)

theorem State.recVt_frame {s : State} {a1 : _} {a2 : _} : SameBut (State.recVt s a1 a2) s [.aud] := by
  unfold State.recVt
  try dsimp only
  repeat' first
    | with_reducible exact SameBut.refl _ _
    | with_reducible assumption
    | (split <;> try dsimp only)
    | ((with_reducible refine SameBut.upd rfl ?_ ?_); intro p hp; (cases p <;> (try (with_reducible rfl)));
        exact absurd (by decide) hp; (repeat (exact absurd (by decide) hp)))

theorem State.recRefresh_frame {s : State} : SameBut (State.recRefresh s) s [.aud] := by
  unfold State.recRefresh
  try dsimp only
  repeat' first
    | with_reducible exact SameBut.refl _ _
    | with_reducible assumption
    | (split <;> try dsimp only)
    | ((with_reducible refine SameBut.upd rfl ?_ ?_); intro p hp; (cases p <;> (try (with_reducible rfl)));
        exact absurd (by decide) hp; (repeat (exact absurd (by decide) hp)))

theorem State.recWrite_frame {s : State} : SameBut (State.recWrite s) s [.regs, .dram, .dramBad, .cores, .bands,
    .aud] := by
  unfold State.recWrite
  try dsimp only
  repeat' first
    | with_reducible exact SameBut.refl _ _
    | with_reducible assumption
    | with_reducible refine SameBut.call State.recRefresh_frame (by decide) ?_
    | with_reducible refine SameBut.call State.writeMem_frame (by decide) ?_
    | with_reducible refine SameBut.call State.setF_frame (by decide) ?_
    | (split <;> try dsimp only)
    | ((with_reducible refine SameBut.upd rfl ?_ ?_); intro p hp; (cases p <;> (try (with_reducible rfl)));
        exact absurd (by decide) hp; (repeat (exact absurd (by decide) hp)))

theorem State.composed_frame {s : State} {a1 : _} {a2 : _} : SameBut (State.composed s a1 a2) s [.now, .cal, .regs,
    .dram, .dramBad, .cores, .bands, .frost, .cmp, .sel, .aud, .tds] := by
  unfold State.composed
  try dsimp only
  repeat' first
    | with_reducible exact SameBut.refl _ _
    | with_reducible assumption
    | with_reducible refine SameBut.call State.composeLine_frame (by decide) ?_
    | with_reducible refine SameBut.call State.recEnd_frame (by decide) ?_
    | (split <;> try dsimp only)

theorem State.recordingTake_frame {s : State} : SameBut (State.recordingTake s) s [.regs, .aud] := by
  unfold State.recordingTake
  try dsimp only
  repeat' first
    | with_reducible exact SameBut.refl _ _
    | with_reducible assumption
    | with_reducible refine SameBut.call State.setF_frame (by decide) ?_
    | with_reducible refine SameBut.call State.logPut_frame (by decide) ?_
    | with_reducible refine SameBut.call State.setFs_frame (by decide) ?_
    | (split <;> try dsimp only)
    | ((with_reducible refine SameBut.upd rfl ?_ ?_); intro p hp; (cases p <;> (try (with_reducible rfl)));
        exact absurd (by decide) hp; (repeat (exact absurd (by decide) hp)))

theorem State.recordFrame_frame {s : State} {a1 : _} : SameBut (State.recordFrame s a1) s [.aud] := by
  unfold State.recordFrame
  try dsimp only
  repeat' first
    | with_reducible exact SameBut.refl _ _
    | with_reducible assumption
    | with_reducible refine SameBut.call State.logPut_frame (by decide) ?_
    | (split <;> try dsimp only)

theorem State.logWrite_frame {s : State} : SameBut (State.logWrite s) s [.regs, .dram, .dramBad, .cores, .bands,
    .aud] := by
  unfold State.logWrite
  try dsimp only
  repeat' first
    | with_reducible exact SameBut.refl _ _
    | with_reducible assumption
    | with_reducible refine SameBut.call State.setF_frame (by decide) ?_
    | with_reducible refine SameBut.call State.writeMem_frame (by decide) ?_
    | with_reducible refine SameBut.call State.putLost_frame (by decide) ?_
    | (split <;> try dsimp only)
    | ((with_reducible refine SameBut.upd rfl ?_ ?_); intro p hp; (cases p <;> (try (with_reducible rfl)));
        exact absurd (by decide) hp; (repeat (exact absurd (by decide) hp)))

end Sys2Proof.Machine
end

