-- ==== Sys2Proof/Laws/FramePanel.lean ====
section
/-! SUPPORT. What each operation of Machine/Panel.lean can change: every field of the state but those listed stays. -/
namespace Sys2Proof.Machine

theorem State.onPnl_frame {s : State} {a1 : _} : SameBut (State.onPnl s a1) s [.pnl] := by
  unfold State.onPnl
  try dsimp only
  repeat' first
    | with_reducible exact SameBut.refl _ _
    | with_reducible assumption
    | (split <;> try dsimp only)
    | ((with_reducible refine SameBut.upd rfl ?_ ?_); intro p hp; (cases p <;> (try (with_reducible rfl)));
        exact absurd (by decide) hp; (repeat (exact absurd (by decide) hp)))

theorem State.send_frame {s : State} {a1 : _} : SameBut (State.send s a1) s [.pnl] := by
  unfold State.send
  try dsimp only
  repeat' first
    | with_reducible exact SameBut.refl _ _
    | with_reducible assumption
    | with_reducible refine SameBut.call State.onPnl_frame (by decide) ?_

theorem State.packetBlock_frame {s : State} {a1 : _} : SameBut (State.packetBlock s a1) s [.pnl] := by
  unfold State.packetBlock
  try dsimp only
  repeat' first
    | with_reducible exact SameBut.refl _ _
    | with_reducible assumption
    | with_reducible refine SameBut.call State.onPnl_frame (by decide) ?_
    | with_reducible refine SameBut.call State.send_frame (by decide) ?_
    | (split <;> try dsimp only)

theorem State.runBlocks_frame {a0 : _} {s : State} : SameBut (State.runBlocks a0 s) s [.pnl] := by
  induction a0 generalizing s with
  | zero => exact SameBut.refl _ _
  | succ n ih =>
    unfold State.runBlocks
    split
    · exact ih.trans (State.packetBlock_frame.mono (by decide))
    · exact State.send_frame.mono (by decide)

theorem State.blocksTo_frame {s : State} {a1 : _} : SameBut (State.blocksTo s a1) s [.pnl] := by
  unfold State.blocksTo
  try dsimp only
  repeat' first
    | with_reducible exact SameBut.refl _ _
    | with_reducible assumption
    | with_reducible refine SameBut.call State.send_frame (by decide) ?_
    | with_reducible refine SameBut.call State.runBlocks_frame (by decide) ?_
    | with_reducible refine SameBut.call State.onPnl_frame (by decide) ?_
    | (split <;> try dsimp only)

theorem State.lanesNow_frame {s : State} : SameBut (State.lanesNow s) s [.pnl] := by
  unfold State.lanesNow
  try dsimp only
  repeat' first
    | with_reducible exact SameBut.refl _ _
    | with_reducible assumption
    | with_reducible refine SameBut.call State.blocksTo_frame (by decide) ?_
    | with_reducible refine SameBut.call State.onPnl_frame (by decide) ?_

theorem State.startTraining_frame {s : State} : SameBut (State.startTraining s) s [.regs, .pnl] := by
  unfold State.startTraining
  try dsimp only
  repeat' first
    | with_reducible exact SameBut.refl _ _
    | with_reducible assumption
    | with_reducible refine SameBut.call State.lanesNow_frame (by decide) ?_
    | with_reducible refine SameBut.call State.send_frame (by decide) ?_
    | with_reducible refine SameBut.call State.onPnl_frame (by decide) ?_
    | with_reducible refine SameBut.call State.setF_frame (by decide) ?_

theorem State.trainingStart_frame {s : State} : SameBut (State.trainingStart s) s [.now, .cal, .regs, .cores,
    .bands, .pnl] := by
  unfold State.trainingStart
  try dsimp only
  repeat' first
    | with_reducible exact SameBut.refl _ _
    | with_reducible assumption
    | with_reducible refine SameBut.call State.startTraining_frame (by decide) ?_
    | with_reducible refine SameBut.call State.waitUntil_frame (by decide) ?_
    | (split <;> try dsimp only)

theorem State.linkRunning_frame {s : State} : SameBut (State.linkRunning s) s [.now, .cal, .regs, .cores, .bands,
    .pnl] := by
  unfold State.linkRunning
  try dsimp only
  repeat' first
    | with_reducible exact SameBut.refl _ _
    | with_reducible assumption
    | with_reducible refine SameBut.call State.send_frame (by decide) ?_
    | with_reducible refine SameBut.call State.onPnl_frame (by decide) ?_
    | with_reducible refine SameBut.call State.setFs_frame (by decide) ?_
    | with_reducible refine SameBut.call State.lanesNow_frame (by decide) ?_
    | with_reducible refine SameBut.call State.waitUntil_frame (by decide) ?_
    | (split <;> try dsimp only)

theorem State.trainingTimeout_frame {s : State} : SameBut (State.trainingTimeout s) s [.now, .cal, .regs, .cores,
    .bands, .pnl] := by
  unfold State.trainingTimeout
  try dsimp only
  repeat' first
    | with_reducible exact SameBut.refl _ _
    | with_reducible assumption
    | with_reducible refine SameBut.call State.lanesNow_frame (by decide) ?_
    | with_reducible refine SameBut.call State.waitUntil_frame (by decide) ?_
    | with_reducible refine SameBut.call State.onPnl_frame (by decide) ?_
    | with_reducible refine SameBut.call State.setF_frame (by decide) ?_
    | with_reducible refine SameBut.call State.incF_frame (by decide) ?_
    | (split <;> try dsimp only)

theorem State.overrulePhase0_frame {s : State} : SameBut (State.overrulePhase0 s) s [.regs, .pnl] := by
  unfold State.overrulePhase0
  try dsimp only
  repeat' first
    | with_reducible exact SameBut.refl _ _
    | with_reducible assumption
    | with_reducible refine SameBut.call State.onPnl_frame (by decide) ?_
    | with_reducible refine SameBut.call State.uncountF_frame (by decide) ?_
    | with_reducible refine SameBut.call State.incF_frame (by decide) ?_
    | (split <;> try dsimp only)

theorem State.retrainNow_frame {s : State} : SameBut (State.retrainNow s) s [.regs, .pnl] := by
  unfold State.retrainNow
  try dsimp only
  repeat' first
    | with_reducible exact SameBut.refl _ _
    | with_reducible assumption
    | with_reducible refine SameBut.call State.overrulePhase0_frame (by decide) ?_
    | with_reducible refine SameBut.call State.onPnl_frame (by decide) ?_
    | with_reducible refine SameBut.call State.incF_frame (by decide) ?_
    | with_reducible refine SameBut.call State.startTraining_frame (by decide) ?_
    | (split <;> try dsimp only)

theorem State.overruleRetrain_frame {s : State} : SameBut (State.overruleRetrain s) s [.regs, .pnl] := by
  unfold State.overruleRetrain
  try dsimp only
  repeat' first
    | with_reducible exact SameBut.refl _ _
    | with_reducible assumption
    | with_reducible refine SameBut.call State.onPnl_frame (by decide) ?_
    | with_reducible refine SameBut.call State.uncountF_frame (by decide) ?_
    | (split <;> try dsimp only)

theorem State.rdyLow_frame {s : State} : SameBut (State.rdyLow s) s [.regs, .pnl] := by
  unfold State.rdyLow
  try dsimp only
  repeat' first
    | with_reducible exact SameBut.refl _ _
    | with_reducible assumption
    | with_reducible refine SameBut.call State.onPnl_frame (by decide) ?_
    | with_reducible refine SameBut.call State.setF_frame (by decide) ?_
    | with_reducible refine SameBut.call State.retrainNow_frame (by decide) ?_
    | (split <;> try dsimp only)

theorem State.retrain_frame {s : State} : SameBut (State.retrain s) s [.regs, .pnl] := by
  unfold State.retrain
  try dsimp only
  repeat' first
    | with_reducible exact SameBut.refl _ _
    | with_reducible assumption
    | with_reducible refine SameBut.call State.retrainNow_frame (by decide) ?_
    | (split <;> try dsimp only)

theorem State.safeEnter_frame {s : State} {a1 : _} : SameBut (State.safeEnter s a1) s [.regs, .pnl] := by
  unfold State.safeEnter
  try dsimp only
  repeat' first
    | with_reducible exact SameBut.refl _ _
    | with_reducible assumption
    | with_reducible refine SameBut.call State.onPnl_frame (by decide) ?_
    | with_reducible refine SameBut.call State.setF_frame (by decide) ?_
    | with_reducible refine SameBut.call State.lanesNow_frame (by decide) ?_
    | with_reducible refine SameBut.call State.overruleRetrain_frame (by decide) ?_
    | with_reducible refine SameBut.call State.overrulePhase0_frame (by decide) ?_
    | with_reducible refine SameBut.call State.send_frame (by decide) ?_
    | with_reducible refine SameBut.call State.setFs_frame (by decide) ?_
    | (split <;> try dsimp only)

theorem State.safeLeave_frame {s : State} : SameBut (State.safeLeave s) s [.regs, .pnl] := by
  unfold State.safeLeave
  try dsimp only
  repeat' first
    | with_reducible exact SameBut.refl _ _
    | with_reducible assumption
    | with_reducible refine SameBut.call State.onPnl_frame (by decide) ?_
    | with_reducible refine SameBut.call State.startTraining_frame (by decide) ?_
    | (split <;> try dsimp only)

theorem State.safeEnd_frame {s : State} : SameBut (State.safeEnd s) s [.now, .cal, .regs, .cores, .bands, .pnl] := by
  unfold State.safeEnd
  try dsimp only
  repeat' first
    | with_reducible exact SameBut.refl _ _
    | with_reducible assumption
    | with_reducible refine SameBut.call State.onPnl_frame (by decide) ?_
    | with_reducible refine SameBut.call State.waitUntil_frame (by decide) ?_
    | with_reducible refine SameBut.call State.startTraining_frame (by decide) ?_
    | (split <;> try dsimp only)

theorem State.enSet_frame {s : State} : SameBut (State.enSet s) s [.regs, .pnl] := by
  unfold State.enSet
  try dsimp only
  repeat' first
    | with_reducible exact SameBut.refl _ _
    | with_reducible assumption
    | with_reducible refine SameBut.call State.setF_frame (by decide) ?_
    | with_reducible refine SameBut.call State.safeLeave_frame (by decide) ?_
    | with_reducible refine SameBut.call State.startTraining_frame (by decide) ?_
    | (split <;> try dsimp only)

theorem State.enClear_frame {s : State} : SameBut (State.enClear s) s [.regs, .pnl] := by
  unfold State.enClear
  try dsimp only
  repeat' first
    | with_reducible exact SameBut.refl _ _
    | with_reducible assumption
    | with_reducible refine SameBut.call State.setF_frame (by decide) ?_
    | with_reducible refine SameBut.call State.safeEnter_frame (by decide) ?_
    | (split <;> try dsimp only)

theorem State.truncate_frame {s : State} : SameBut (State.truncate s) s [.regs, .pnl] := by
  unfold State.truncate
  try dsimp only
  repeat' first
    | with_reducible exact SameBut.refl _ _
    | with_reducible assumption
    | with_reducible refine SameBut.call State.send_frame (by decide) ?_
    | with_reducible refine SameBut.call State.onPnl_frame (by decide) ?_
    | with_reducible refine SameBut.call State.incF_frame (by decide) ?_
    | (split <;> try dsimp only)

theorem State.lineHeader_frame {s : State} : SameBut (State.lineHeader s) s [.pnl] := by
  unfold State.lineHeader
  try dsimp only
  repeat' first
    | with_reducible exact SameBut.refl _ _
    | with_reducible assumption
    | with_reducible refine SameBut.call State.onPnl_frame (by decide) ?_
    | with_reducible refine SameBut.call State.send_frame (by decide) ?_

theorem State.blankStripes_frame {s : State} : SameBut (State.blankStripes s) s [.regs, .pnl] := by
  unfold State.blankStripes
  try dsimp only
  repeat' first
    | with_reducible exact SameBut.refl _ _
    | with_reducible assumption
    | with_reducible refine SameBut.call State.onPnl_frame (by decide) ?_
    | with_reducible refine SameBut.call State.setF_frame (by decide) ?_
    | with_reducible refine SameBut.call State.send_frame (by decide) ?_
    | (split <;> try dsimp only)

theorem State.laneLine_frame {s : State} : SameBut (State.laneLine s) s [.regs, .pnl] := by
  unfold State.laneLine
  try dsimp only
  repeat' first
    | with_reducible exact SameBut.refl _ _
    | with_reducible assumption
    | with_reducible refine SameBut.call State.incF_frame (by decide) ?_
    | with_reducible refine SameBut.call State.truncate_frame (by decide) ?_
    | with_reducible refine SameBut.call State.onPnl_frame (by decide) ?_
    | with_reducible refine SameBut.call State.lanesNow_frame (by decide) ?_
    | with_reducible refine SameBut.call State.lineHeader_frame (by decide) ?_
    | with_reducible refine SameBut.call State.blankStripes_frame (by decide) ?_
    | (split <;> try dsimp only)

theorem State.laneBoundary_frame {s : State} : SameBut (State.laneBoundary s) s [.pnl] := by
  unfold State.laneBoundary
  try dsimp only
  repeat' first
    | with_reducible exact SameBut.refl _ _
    | with_reducible assumption
    | with_reducible refine SameBut.call State.onPnl_frame (by decide) ?_

theorem State.stripe_frame {s : State} {a1 : _} : SameBut (State.stripe s a1) s [.now, .cal, .regs, .cores, .bands,
    .pnl] := by
  unfold State.stripe
  try dsimp only
  repeat' first
    | with_reducible exact SameBut.refl _ _
    | with_reducible assumption
    | with_reducible refine SameBut.call State.blocksTo_frame (by decide) ?_
    | with_reducible refine SameBut.call State.onPnl_frame (by decide) ?_
    | with_reducible refine SameBut.call State.waitUntil_frame (by decide) ?_
    | (split <;> try dsimp only)

end Sys2Proof.Machine
end

