-- ==== Sys2Proof/Laws/FrameWeather.lean ====
section
/-! SUPPORT. What each operation of Machine/Weather.lean can change: every field of the state but those listed stays. -/
namespace Sys2Proof.Machine

theorem State.onPwr_frame {s : State} {a1 : _} : SameBut (State.onPwr s a1) s [.pwr] := by
  unfold State.onPwr
  try dsimp only
  repeat' first
    | with_reducible exact SameBut.refl _ _
    | with_reducible assumption
    | (split <;> try dsimp only)
    | ((with_reducible refine SameBut.upd rfl ?_ ?_); intro p hp; (cases p <;> (try (with_reducible rfl)));
        exact absurd (by decide) hp; (repeat (exact absurd (by decide) hp)))

theorem State.setPlan_frame {s : State} {a1 : _} {a2 : _} {a3 : _} : SameBut (State.setPlan s a1 a2 a3) s [.regs,
    .pwr, .led] := by
  unfold State.setPlan
  try dsimp only
  repeat' first
    | with_reducible exact SameBut.refl _ _
    | with_reducible assumption
    | with_reducible refine SameBut.call State.ledger_frame (by decide) ?_
    | with_reducible refine SameBut.call State.setF_frame (by decide) ?_
    | with_reducible refine SameBut.call State.onPwr_frame (by decide) ?_
    | (split <;> try dsimp only)

theorem State.setVset_frame {s : State} {a1 : _} : SameBut (State.setVset s a1) s [.regs, .led] := by
  unfold State.setVset
  try dsimp only
  repeat' first
    | with_reducible exact SameBut.refl _ _
    | with_reducible assumption
    | with_reducible refine SameBut.call State.ledger_frame (by decide) ?_
    | with_reducible refine SameBut.call State.setF_frame (by decide) ?_
    | (split <;> try dsimp only)

theorem State.exhaustRecord_frame {s : State} {a1 : _} {a2 : _} : SameBut (State.exhaustRecord s a1 a2) s [.regs,
    .led] := by
  unfold State.exhaustRecord
  try dsimp only
  repeat' first
    | with_reducible exact SameBut.refl _ _
    | with_reducible assumption
    | with_reducible refine SameBut.call State.ledger_frame (by decide) ?_

theorem State.stopCore_frame {s : State} {a1 : _} : SameBut (State.stopCore s a1) s [.regs, .led] := by
  unfold State.stopCore
  try dsimp only
  repeat' first
    | with_reducible exact SameBut.refl _ _
    | with_reducible assumption
    | with_reducible refine SameBut.call State.exhaustRecord_frame (by decide) ?_
    | with_reducible refine SameBut.call State.setFs_frame (by decide) ?_
    | (split <;> try dsimp only)

theorem State.exhaust_frame {s : State} {a1 : _} {a2 : _} : SameBut (State.exhaust s a1 a2) s [.regs, .pwr, .led] :=
    by
  unfold State.exhaust
  try dsimp only
  repeat' first
    | with_reducible exact SameBut.refl _ _
    | with_reducible assumption
    | with_reducible refine SameBut.call State.exhaustRecord_frame (by decide) ?_
    | with_reducible refine SameBut.call State.setFs_frame (by decide) ?_
    | with_reducible refine SameBut.call State.setVset_frame (by decide) ?_
    | with_reducible refine SameBut.call State.setPlan_frame (by decide) ?_
    | (split <;> try dsimp only)

theorem State.retireRecord_frame {s : State} {a1 : _} {a2 : _} {a3 : _} : SameBut (State.retireRecord s a1 a2 a3) s
    [.regs, .led] := by
  unfold State.retireRecord
  try dsimp only
  repeat' first
    | with_reducible exact SameBut.refl _ _
    | with_reducible assumption
    | with_reducible refine SameBut.call State.ledger_frame (by decide) ?_

theorem State.retire_frame {s : State} {a1 : _} {a2 : _} {a3 : _} : SameBut (State.retire s a1 a2 a3) s [.regs,
    .fab, .pwr, .led] := by
  unfold State.retire
  try dsimp only
  repeat' first
    | with_reducible exact SameBut.refl _ _
    | with_reducible assumption
    | with_reducible refine SameBut.call State.setF_frame (by decide) ?_
    | with_reducible refine SameBut.call State.incF_frame (by decide) ?_
    | with_reducible refine SameBut.call State.exhaust_frame (by decide) ?_
    | with_reducible refine SameBut.call State.cancelHandover_frame (by decide) ?_
    | with_reducible refine SameBut.call State.retireRecord_frame (by decide) ?_
    | with_reducible refine SameBut.call State.setFs_frame (by decide) ?_
    | with_reducible refine SameBut.call State.onPwr_frame (by decide) ?_
    | with_reducible refine SameBut.call State.decideHandover_frame (by decide) ?_
    | with_reducible refine SameBut.call State.stopCore_frame (by decide) ?_
    | (split <;> try dsimp only)

theorem State.hardParity_frame {s : State} {a1 : _} {a2 : _} : SameBut (State.hardParity s a1 a2) s [.regs, .fab,
    .pwr, .led] := by
  unfold State.hardParity
  try dsimp only
  repeat' first
    | with_reducible exact SameBut.refl _ _
    | with_reducible assumption
    | with_reducible refine SameBut.call State.stopCore_frame (by decide) ?_
    | with_reducible refine SameBut.call State.retire_frame (by decide) ?_
    | (split <;> try dsimp only)

theorem State.spadMapOutStep_frame {s : State} {a1 : _} : SameBut (State.spadMapOutStep s a1) s [.regs, .cores,
    .fab, .pwr, .led] := by
  unfold State.spadMapOutStep
  extract_lets r
  have h : SameBut r.1 s [.regs, .cores, .fab, .pwr, .led] := State.spadMapOut_frame.mono (by decide)
  split
  · exact SameBut.call State.retire_frame (by decide) h
  · exact h

theorem State.countGood_frame {s : State} {a1 : _} {a2 : _} {a3 : _} : SameBut (State.countGood s a1 a2 a3) s [.pwr]
    := by
  unfold State.countGood
  try dsimp only
  repeat' first
    | with_reducible exact SameBut.refl _ _
    | with_reducible assumption
    | with_reducible refine SameBut.call State.onPwr_frame (by decide) ?_

theorem State.planCore_frame {s : State} {a1 : _} {a2 : _} {a3 : _} {a4 : _} : SameBut (State.planCore s a1 a2 a3
    a4).1 s [.regs, .fab, .pwr, .led] := by
  unfold State.planCore
  try dsimp only
  repeat' first
    | with_reducible exact SameBut.refl _ _
    | with_reducible assumption
    | with_reducible refine SameBut.call State.setPlan_frame (by decide) ?_
    | with_reducible refine SameBut.call State.stopCore_frame (by decide) ?_
    | with_reducible refine SameBut.call State.setVset_frame (by decide) ?_
    | with_reducible refine SameBut.call State.retire_frame (by decide) ?_
    | with_reducible refine SameBut.call State.incF_frame (by decide) ?_
    | (split <;> try dsimp only)

theorem State.noteMeas_frame {s : State} {a1 : _} {a2 : _} : SameBut (State.noteMeas s a1 a2) s [.free, .regs, .pwr]
    := by
  unfold State.noteMeas
  try dsimp only
  repeat' first
    | with_reducible exact SameBut.refl _ _
    | with_reducible assumption
    | with_reducible refine SameBut.call State.fresh_frame (by decide) ?_
    | with_reducible refine SameBut.call State.onPwr_frame (by decide) ?_
    | with_reducible refine SameBut.call State.countGood_frame (by decide) ?_
    | with_reducible refine SameBut.call State.setFs_frame (by decide) ?_
    | (split <;> try dsimp only)

theorem State.restoreTest_frame {s : State} {a1 : _} {a2 : _} : SameBut (State.restoreTest s a1 a2) s [.regs, .fab,
    .pwr, .led] := by
  unfold State.restoreTest
  try dsimp only
  repeat' first
    | with_reducible exact SameBut.refl _ _
    | with_reducible assumption
    | with_reducible refine SameBut.call State.onPwr_frame (by decide) ?_
    | with_reducible refine SameBut.call State.incF_frame (by decide) ?_
    | with_reducible refine SameBut.call State.setF_frame (by decide) ?_
    | with_reducible refine SameBut.call State.ledger_frame (by decide) ?_
    | with_reducible refine SameBut.call State.setFs_frame (by decide) ?_
    | with_reducible refine SameBut.call State.decideHandover_frame (by decide) ?_
    | (split <;> try dsimp only)

theorem State.measureCore_frame {r : State × Bool} {a1 : _} : SameBut (State.measureCore r a1).1 r.1 [.free, .regs,
    .fab, .pwr, .led] := by
  unfold State.measureCore
  try dsimp only
  repeat' first
    | with_reducible exact SameBut.refl _ _
    | with_reducible assumption
    | with_reducible refine SameBut.call State.restoreTest_frame (by decide) ?_
    | with_reducible refine SameBut.call State.noteMeas_frame (by decide) ?_
    | with_reducible refine SameBut.call State.planCore_frame (by decide) ?_
    | with_reducible refine SameBut.call State.retire_frame (by decide) ?_
    | (split <;> try dsimp only)

theorem State.weatherMeasure_frame {s : State} {a1 : _} : SameBut (State.weatherMeasure s a1) s [.free, .now, .cal,
    .regs, .cores, .bands, .fab, .pwr, .led] := by
  unfold State.weatherMeasure
  split
  · exact SameBut.refl _ _
  extract_lets +onlyGivenNames period s1
  have h1 : SameBut s1 s [.free, .now, .cal, .regs, .cores, .bands, .fab, .pwr, .led] := SameBut.call
      State.onPwr_frame (by decide) (State.waitUntil_frame.mono (by decide))
  clear_value s1
  split
  · exact h1
  · exact SameBut.foldl_fst (x := (s1, false)) h1 fun y a => State.measureCore_frame.mono (by decide)

theorem State.restoreAsk_frame {s : State} : SameBut (State.restoreAsk s) s [.pwr] := by
  unfold State.restoreAsk
  try dsimp only
  repeat' first
    | with_reducible exact SameBut.refl _ _
    | with_reducible assumption
    | with_reducible refine SameBut.call State.onPwr_frame (by decide) ?_
    | (split <;> try dsimp only)

theorem State.weatherBoundary_frame {s : State} : SameBut (State.weatherBoundary s) s [.regs, .cores, .pwr, .led] :=
    by
  unfold State.weatherBoundary
  try dsimp only
  repeat' first
    | with_reducible exact SameBut.refl _ _
    | with_reducible assumption
    | with_reducible refine SameBut.call State.onCore_frame (by decide) ?_
    | with_reducible refine SameBut.call State.setF_frame (by decide) ?_
    | with_reducible refine SameBut.call State.retireRecord_frame (by decide) ?_
    | with_reducible refine SameBut.call State.setFs_frame (by decide) ?_
    | with_reducible refine SameBut.call State.ledger_frame (by decide) ?_
    | with_reducible refine SameBut.call State.onPwr_frame (by decide) ?_
    | (with_reducible refine SameBut.foldl ?_ fun y a => ?_)

end Sys2Proof.Machine
end

