-- ==== Sys2Proof/Laws/FrameContainer.lean ====
section
/-! SUPPORT. What each operation of Machine/Container.lean can change: every field of the state but those listed stays. -/
namespace Sys2Proof.Machine

theorem State.setWord_frame {s : State} {a1 : _} {a2 : _} : SameBut (State.setWord s a1 a2) s [.regs] := by
  unfold State.setWord
  try dsimp only
  repeat' first
    | with_reducible exact SameBut.refl _ _
    | with_reducible assumption
    | with_reducible refine SameBut.call State.setFs_frame (by decide) ?_

theorem State.cfgEntry_frame {s : State} {a1 : _} : SameBut (State.cfgEntry s a1).1 s [.regs] := by
  unfold State.cfgEntry
  try dsimp only
  repeat' first
    | with_reducible exact SameBut.refl _ _
    | with_reducible assumption
    | with_reducible refine SameBut.call State.setWord_frame (by decide) ?_
    | (split <;> try dsimp only)

theorem State.cfgEntries_frame {a0 : _} {a1 : _} {s : State} : SameBut (State.cfgEntries a0 a1 s).1 s [.regs] := by
  induction a0 generalizing s a1 with
  | zero => exact SameBut.refl _ _
  | succ n ih =>
    unfold State.cfgEntries
    have h := State.cfgEntry_frame (s := s) (a1 := a1.take 12)
    split
    · rename_i h1
      rw [h1] at h
      exact ih.trans h
    · exact h

theorem State.setWords_frame {s : State} {a1 : _} {a2 : _} : SameBut (State.setWords s a1 a2) s [.regs] := by
  unfold State.setWords
  try dsimp only
  repeat' first
    | with_reducible exact SameBut.refl _ _
    | with_reducible assumption
    | with_reducible refine SameBut.call State.setFs_frame (by decide) ?_

theorem State.cfgOther_frame {s : State} {a1 : _} {a2 : _} : SameBut (State.cfgOther s a1 a2).1 s [.regs, .prog] := by
  unfold State.cfgOther
  try dsimp only
  repeat' first
    | with_reducible exact SameBut.refl _ _
    | with_reducible assumption
    | with_reducible refine SameBut.call State.setWords_frame (by decide) ?_
    | (split <;> try dsimp only)
    | ((with_reducible refine SameBut.upd rfl ?_ ?_); intro p hp; (cases p <;> (try (with_reducible rfl)));
        exact absurd (by decide) hp; (repeat (exact absurd (by decide) hp)))

theorem State.cfgRecords_frame {a0 : _} {a1 : _} {a2 : _} {s : State} : SameBut (State.cfgRecords a0 a1 a2 s).1 s
    [.regs, .prog] := by
  induction a0 generalizing s a1 a2 with
  | zero => exact SameBut.refl _ _
  | succ n ih =>
    unfold State.cfgRecords
    split
    · exact SameBut.refl _ _
    · extract_lets +onlyGivenNames tag len step
      split
      · exact SameBut.refl _ _
      · extract_lets +onlyGivenNames c r
        have h : SameBut r.1 s [.regs, .prog] := by
          unfold r
          split
          · split
            · exact State.cfgEntries_frame.mono (by decide)
            · exact SameBut.refl _ _
          · exact State.cfgOther_frame.mono (by decide)
        clear_value r
        split
        · exact ih.trans h
        · exact h

theorem State.readConfig_frame {s : State} {a1 : _} : SameBut (State.readConfig s a1).1 s [.regs, .prog, .inp, .cmp]
    := by
  unfold State.readConfig
  try dsimp only
  repeat' first
    | with_reducible exact SameBut.refl _ _
    | with_reducible assumption
    | with_reducible refine SameBut.call State.cfgRecords_frame (by decide) ?_
    | with_reducible refine SameBut.call State.takePlane_frame (by decide) ?_
    | with_reducible refine SameBut.call State.onInp_frame (by decide) ?_
    | (split <;> try dsimp only)

theorem State.noteLoadFail_frame {s : State} {a1 : _} : SameBut (State.noteLoadFail s a1) s [.regs] := by
  unfold State.noteLoadFail
  try dsimp only
  repeat' first
    | with_reducible exact SameBut.refl _ _
    | with_reducible assumption
    | with_reducible refine SameBut.call State.setFs_frame (by decide) ?_

end Sys2Proof.Machine
end

