-- ==== Sys2Proof/Laws/FrameDram.lean ====
section
/-! SUPPORT. What each operation of Machine/Dram.lean can change: every field of the state but those listed stays. -/
namespace Sys2Proof.Machine

theorem State.onChan_frame {s : State} {a1 : _} {a2 : _} : SameBut (State.onChan s a1 a2) s [.drm] := by
  unfold State.onChan
  try dsimp only
  repeat' first
    | with_reducible exact SameBut.refl _ _
    | with_reducible assumption
    | (split <;> try dsimp only)
    | ((with_reducible refine SameBut.upd rfl ?_ ?_); intro p hp; (cases p <;> (try (with_reducible rfl)));
        exact absurd (by decide) hp; (repeat (exact absurd (by decide) hp)))

theorem State.onArb_frame {s : State} {a1 : _} {a2 : _} : SameBut (State.onArb s a1 a2) s [.drm] := by
  unfold State.onArb
  try dsimp only
  repeat' first
    | with_reducible exact SameBut.refl _ _
    | with_reducible assumption
    | (split <;> try dsimp only)
    | ((with_reducible refine SameBut.upd rfl ?_ ?_); intro p hp; (cases p <;> (try (with_reducible rfl)));
        exact absurd (by decide) hp; (repeat (exact absurd (by decide) hp)))

theorem State.takeTickets_frame {s : State} : SameBut (State.takeTickets s) s [.drm] := by
  unfold State.takeTickets
  try dsimp only
  repeat' first
    | with_reducible exact SameBut.refl _ _
    | with_reducible assumption
    | (with_reducible refine SameBut.foldl ?_ fun y a => ?_)
    | (split <;> try dsimp only)
    | ((with_reducible refine SameBut.upd rfl ?_ ?_); intro p hp; (cases p <;> (try (with_reducible rfl)));
        exact absurd (by decide) hp; (repeat (exact absurd (by decide) hp)))

theorem State.countWaits_frame {s : State} {a1 : _} {a2 : _} {a3 : _} : SameBut (State.countWaits s a1 a2 a3) s
    [.regs, .drm] := by
  unfold State.countWaits
  try dsimp only
  repeat' first
    | with_reducible exact SameBut.refl _ _
    | with_reducible assumption
    | with_reducible refine SameBut.call State.incF_frame (by decide) ?_
    | with_reducible refine SameBut.call State.lateF_frame (by decide) ?_
    | with_reducible refine SameBut.call State.setF_frame (by decide) ?_
    | with_reducible refine SameBut.call State.onArb_frame (by decide) ?_
    | (split <;> try dsimp only)

theorem State.toChannel_frame {s : State} {a1 : _} {a2 : _} : SameBut (State.toChannel s a1 a2) s [.drm] := by
  unfold State.toChannel
  try dsimp only
  repeat' first
    | with_reducible exact SameBut.refl _ _
    | with_reducible assumption
    | with_reducible refine SameBut.call State.onChan_frame (by decide) ?_
    | with_reducible refine SameBut.call State.onArb_frame (by decide) ?_
    | (split <;> try dsimp only)

theorem State.retryHeld_frame {s : State} {a1 : _} : SameBut (State.retryHeld s a1) s [.drm] := by
  unfold State.retryHeld
  try dsimp only
  repeat' first
    | with_reducible exact SameBut.refl _ _
    | with_reducible assumption
    | with_reducible refine SameBut.call State.onChan_frame (by decide) ?_
    | with_reducible refine SameBut.call State.onArb_frame (by decide) ?_
    | (split <;> try dsimp only)

theorem State.remoteSlot_frame {s : State} {a1 : _} {a2 : _} : SameBut (State.remoteSlot s a1 a2) s [.remotes,
    .signals] := by
  unfold State.remoteSlot
  try dsimp only
  repeat' first
    | with_reducible exact SameBut.refl _ _
    | with_reducible assumption
    | (split <;> try dsimp only)
    | ((with_reducible refine SameBut.upd rfl ?_ ?_); intro p hp; (cases p <;> (try (with_reducible rfl)));
        exact absurd (by decide) hp; (repeat (exact absurd (by decide) hp)))

theorem State.portGrant_frame {s : State} {a1 : _} {a2 : _} : SameBut (State.portGrant s a1 a2) s [.now, .cal,
    .regs, .drm, .cores, .bands, .fab, .remotes, .signals] := by
  unfold State.portGrant
  extract_lets +onlyGivenNames u asks s0 parked open_ seen t e lf w win s1
  have h0 : SameBut s0 s [.now, .cal, .regs, .drm, .cores, .bands, .fab, .remotes, .signals] := SameBut.call
      State.onArb_frame (by decide) (State.waitUntil_frame.mono (by decide))
  clear_value s0
  have h1 : SameBut s1 s [.now, .cal, .regs, .drm, .cores, .bands, .fab, .remotes, .signals] := SameBut.foldl h0 fun
      y a => State.countWaits_frame.mono (by decide)
  clear_value s1 win
  split
  · exact h1
  extract_lets +onlyGivenNames s2 x3 s3
  have h2 : SameBut s2 s [.now, .cal, .regs, .drm, .cores, .bands, .fab, .remotes, .signals] := SameBut.call
      State.onArb_frame (by decide) (SameBut.call State.setF_frame (by decide) h1)
  clear_value s2
  have h3 : SameBut s3 s [.now, .cal, .regs, .drm, .cores, .bands, .fab, .remotes, .signals] := by
    unfold s3
    split
    · exact SameBut.upd rfl (by
          intro p hp
          cases p <;> first | with_reducible rfl | exact absurd (by decide) hp) h2
    · exact h2
  clear_value s3
  split
  · exact SameBut.call State.remoteSlot_frame (by decide) h3
  · exact SameBut.call State.toChannel_frame (by decide) h3

theorem State.drmLast_frame {s : State} {a1 : _} {a2 : _} : SameBut (State.drmLast s a1 a2) s [.regs] := by
  unfold State.drmLast
  try dsimp only
  repeat' first
    | with_reducible exact SameBut.refl _ _
    | with_reducible assumption
    | with_reducible refine SameBut.call State.setFs_frame (by decide) ?_

theorem State.setDramMap_frame {s : State} {a1 : _} {a2 : _} : SameBut (State.setDramMap s a1 a2) s [.regs, .drm] :=
    by
  unfold State.setDramMap
  try dsimp only
  repeat' first
    | with_reducible exact SameBut.refl _ _
    | with_reducible assumption
    | with_reducible refine SameBut.call State.setF_frame (by decide) ?_
    | (split <;> try dsimp only)
    | ((with_reducible refine SameBut.upd rfl ?_ ?_); intro p hp; (cases p <;> (try (with_reducible rfl)));
        exact absurd (by decide) hp; (repeat (exact absurd (by decide) hp)))

theorem State.dramCorrected_frame {s : State} {a1 : _} : SameBut (State.dramCorrected s a1) s [.regs, .drm] := by
  unfold State.dramCorrected
  try dsimp only
  repeat' first
    | with_reducible exact SameBut.refl _ _
    | with_reducible assumption
    | with_reducible refine SameBut.call State.drmLast_frame (by decide) ?_
    | with_reducible refine SameBut.call State.incF_frame (by decide) ?_
    | with_reducible refine SameBut.call State.setDramMap_frame (by decide) ?_
    | (with_reducible refine SameBut.foldl ?_ fun y a => ?_)

theorem State.dramUncorr_frame {s : State} {a1 : _} {a2 : _} : SameBut (State.dramUncorr s a1 a2) s [.regs,
    .dramBad, .drm] := by
  unfold State.dramUncorr
  try dsimp only
  repeat' first
    | with_reducible exact SameBut.refl _ _
    | with_reducible assumption
    | with_reducible refine SameBut.call State.drmLast_frame (by decide) ?_
    | with_reducible refine SameBut.call State.incF_frame (by decide) ?_
    | with_reducible refine SameBut.call State.setDramMap_frame (by decide) ?_
    | (with_reducible refine SameBut.foldl ?_ fun y a => ?_)
    | (split <;> try dsimp only)
    | ((with_reducible refine SameBut.upd rfl ?_ ?_); intro p hp; (cases p <;> (try (with_reducible rfl)));
        exact absurd (by decide) hp; (repeat (exact absurd (by decide) hp)))

theorem State.dramEcc_frame {s : State} {a1 : _} {a2 : _} : SameBut (State.dramEcc s a1 a2) s [.regs, .dramBad,
    .drm] := by
  unfold State.dramEcc
  try dsimp only
  repeat' first
    | with_reducible exact SameBut.refl _ _
    | with_reducible assumption
    | with_reducible refine SameBut.call State.dramUncorr_frame (by decide) ?_
    | with_reducible refine SameBut.call State.dramCorrected_frame (by decide) ?_
    | (with_reducible refine SameBut.foldl ?_ fun y a => ?_)
    | (split <;> try dsimp only)

theorem State.dramAccess_frame {s : State} {a1 : _} {a2 : _} : SameBut (State.dramAccess s a1 a2) s [.now, .cal,
    .regs, .dramBad, .drm, .cores, .bands] := by
  unfold State.dramAccess
  try dsimp only
  repeat' first
    | with_reducible exact SameBut.refl _ _
    | with_reducible assumption
    | with_reducible refine SameBut.call State.waitUntil_frame (by decide) ?_
    | with_reducible refine SameBut.call State.onChan_frame (by decide) ?_
    | with_reducible refine SameBut.call State.dramEcc_frame (by decide) ?_
    | with_reducible refine SameBut.call State.retryHeld_frame (by decide) ?_
    | (with_reducible refine SameBut.foldl ?_ fun y a => ?_)
    | (split <;> try dsimp only)
    | ((with_reducible refine SameBut.upd rfl ?_ ?_); intro p hp; (cases p <;> (try (with_reducible rfl)));
        exact absurd (by decide) hp; (repeat (exact absurd (by decide) hp)))

theorem State.takeMaint_frame {s : State} {a1 : _} : SameBut (State.takeMaint s a1) s [.now, .cal, .regs, .drm,
    .cores, .bands] := by
  unfold State.takeMaint
  try dsimp only
  repeat' first
    | with_reducible exact SameBut.refl _ _
    | with_reducible assumption
    | with_reducible refine SameBut.call State.onChan_frame (by decide) ?_
    | with_reducible refine SameBut.call State.waitUntil_frame (by decide) ?_

theorem State.refresh_frame {s : State} {a1 : _} : SameBut (State.refresh s a1) s [.now, .cal, .regs, .drm, .cores,
    .bands] := by
  unfold State.refresh
  try dsimp only
  repeat' first
    | with_reducible exact SameBut.refl _ _
    | with_reducible assumption
    | with_reducible refine SameBut.call State.onChan_frame (by decide) ?_
    | with_reducible refine SameBut.call State.takeMaint_frame (by decide) ?_
    | (split <;> try dsimp only)

theorem State.scrubRead_frame {s : State} {a1 : _} {a2 : _} : SameBut (State.scrubRead s a1 a2) s [.now, .cal,
    .regs, .dramBad, .drm, .cores, .bands] := by
  unfold State.scrubRead
  try dsimp only
  repeat' first
    | with_reducible exact SameBut.refl _ _
    | with_reducible assumption
    | with_reducible refine SameBut.call State.takeMaint_frame (by decide) ?_
    | with_reducible refine SameBut.call State.waitUntil_frame (by decide) ?_
    | with_reducible refine SameBut.call State.onChan_frame (by decide) ?_
    | with_reducible refine SameBut.call State.dramEcc_frame (by decide) ?_
    | with_reducible refine SameBut.call State.setF_frame (by decide) ?_
    | (with_reducible refine SameBut.foldl ?_ fun y a => ?_)
    | (split <;> try dsimp only)

theorem State.scrubWriteback_frame {s : State} {a1 : _} : SameBut (State.scrubWriteback s a1) s [.now, .cal, .regs,
    .drm, .cores, .bands] := by
  unfold State.scrubWriteback
  try dsimp only
  repeat' first
    | with_reducible exact SameBut.refl _ _
    | with_reducible assumption
    | with_reducible refine SameBut.call State.onChan_frame (by decide) ?_
    | with_reducible refine SameBut.call State.takeMaint_frame (by decide) ?_
    | (split <;> try dsimp only)

theorem State.mapNext_frame {s : State} {a1 : _} {a2 : _} : SameBut (State.mapNext s a1 a2) s [.regs, .drm] := by
  unfold State.mapNext
  extract_lets +onlyGivenNames s1
  have h1 : SameBut s1 s [.regs, .drm] := State.setDramMap_frame.mono (by decide)
  clear_value s1
  exact SameBut.upd rfl (by
          intro p hp
          cases p <;> first | with_reducible rfl | exact absurd (by decide) hp) h1

theorem State.mapRow_frame {s : State} {a1 : _} {a2 : _} : SameBut (State.mapRow s a1 a2) s [.regs, .drm, .led] := by
  unfold State.mapRow
  extract_lets +onlyGivenNames x s1
  have h1 : SameBut s1 s [.regs, .drm, .led] := SameBut.upd rfl (by
          intro p hp
          cases p <;> first | with_reducible rfl | exact absurd (by decide) hp) (SameBut.refl _ _)
  clear_value s1
  exact SameBut.call State.ledger_frame (by decide) (SameBut.call State.incF_frame (by decide) (SameBut.call
      State.setF_frame (by decide) h1))

theorem State.dramMapOut_frame {s : State} : SameBut (State.dramMapOut s) s [.free, .now, .cal, .regs, .dramBad,
    .drm, .cores, .bands, .led] := by
  unfold State.dramMapOut
  try dsimp only
  repeat' first
    | with_reducible exact SameBut.refl _ _
    | with_reducible assumption
    | with_reducible refine SameBut.call State.incF_frame (by decide) ?_
    | with_reducible refine SameBut.call State.mapNext_frame (by decide) ?_
    | with_reducible refine SameBut.call State.dramEcc_frame (by decide) ?_
    | with_reducible refine SameBut.call State.waitUntil_frame (by decide) ?_
    | with_reducible refine SameBut.call State.mapRow_frame (by decide) ?_
    | (split <;> try dsimp only)
    | ((with_reducible refine SameBut.upd rfl ?_ ?_); intro p hp; (cases p <;> (try (with_reducible rfl)));
        exact absurd (by decide) hp; (repeat (exact absurd (by decide) hp)))

theorem State.dramBoundary_frame {s : State} : SameBut (State.dramBoundary s) s [.regs, .drm, .fab] := by
  unfold State.dramBoundary
  try dsimp only
  repeat' first
    | with_reducible exact SameBut.refl _ _
    | with_reducible assumption
    | with_reducible refine SameBut.call State.setFs_frame (by decide) ?_
    | with_reducible refine SameBut.call State.setF_frame (by decide) ?_
    | with_reducible refine SameBut.call State.takeTickets_frame (by decide) ?_
    | (with_reducible refine SameBut.each ?_ fun y a => ?_)
    | (split <;> try dsimp only)
    | ((with_reducible refine SameBut.upd rfl ?_ ?_); intro p hp; (cases p <;> (try (with_reducible rfl)));
        exact absurd (by decide) hp; (repeat (exact absurd (by decide) hp)))

end Sys2Proof.Machine
end

