-- ==== Sys2Proof/Laws/FramePower.lean ====
section
/-! SUPPORT. What each operation of Machine/Power.lean can change: every field of the state but those listed stays. -/
namespace Sys2Proof.Machine

theorem State.hpdLow_frame {s : State} {a1 : _} : SameBut (State.hpdLow s a1) s [.regs, .inp] := by
  unfold State.hpdLow
  try dsimp only
  repeat' first
    | with_reducible exact SameBut.refl _ _
    | with_reducible assumption
    | with_reducible refine SameBut.call State.signalCheck_frame (by decide) ?_
    | with_reducible refine SameBut.call State.onPort_frame (by decide) ?_

theorem State.discardFrame_frame {s : State} {a1 : _} : SameBut (State.discardFrame s a1) s [.cmp, .fbSegs,
    .fbStarted, .sel, .aud, .tds] := by
  unfold State.discardFrame
  try dsimp only
  repeat' first
    | with_reducible exact SameBut.refl _ _
    | with_reducible assumption
    | (split <;> try dsimp only)
    | ((with_reducible refine SameBut.upd rfl ?_ ?_); intro p hp; (cases p <;> (try (with_reducible rfl)));
        exact absurd (by decide) hp; (repeat (exact absurd (by decide) hp)))

theorem State.enterDoldrums_frame {s : State} {a1 : _} : SameBut (State.enterDoldrums s a1) s [.cal, .regs, .cores,
    .noBase1, .change, .pstate, .msetSample, .mwinEnd, .fc, .inp, .ctxNext, .drz, .cmp, .pnl, .fbSegs, .fbStarted,
    .sel, .pwr, .aud, .tds] := by
  unfold State.enterDoldrums
  try dsimp only
  repeat' first
    | ((with_reducible refine SameBut.upd rfl ?_ ?_); intro p hp; (cases p <;> (try (with_reducible rfl)));
        exact absurd (by decide) hp; (repeat (exact absurd (by decide) hp)))
    | with_reducible exact SameBut.refl _ _
    | with_reducible assumption
    | with_reducible refine SameBut.call State.discardFrame_frame (by decide) ?_
    | with_reducible refine SameBut.call State.abandonSteps_frame (by decide) ?_
    | with_reducible refine SameBut.call State.abandonRuns_frame (by decide) ?_
    | with_reducible refine SameBut.call State.safeEnter_frame (by decide) ?_
    | with_reducible refine SameBut.call State.hpdLow_frame (by decide) ?_
    | with_reducible refine SameBut.call State.setFs_frame (by decide) ?_

theorem State.relink_frame {s : State} {a1 : _} {a2 : _} : SameBut (State.relink s a1 a2) s [.regs] := by
  unfold State.relink
  try dsimp only
  repeat' first
    | with_reducible exact SameBut.refl _ _
    | with_reducible assumption
    | with_reducible refine SameBut.call State.incF_frame (by decide) ?_
    | with_reducible refine SameBut.call State.setFs_frame (by decide) ?_
    | (split <;> try dsimp only)

theorem State.stopFabric_frame {x : State} {w : List WarpSt} {f : FabSt} :
    SameBut { x with signals := [], remotes := [], warp := w, box := none, fab := f } x [.fab, .remotes, .signals,
        .warp, .box] := by
  intro p hp
  cases p <;> first | with_reducible rfl | exact absurd (by decide) hp

theorem State.doldrumsEntered_frame {s : State} : SameBut (State.doldrumsEntered s) s [.now, .cal, .regs, .dram,
    .dramBad, .cores, .bands, .fab, .remotes, .signals, .warp, .box, .pwr] := by
  unfold State.doldrumsEntered
  split
  · extract_lets +onlyGivenNames s1 s2 s3
    have h1 : SameBut s1 s [.now, .cal, .regs, .dram, .dramBad, .cores, .bands, .fab, .remotes, .signals, .warp,
        .box, .pwr] := State.waitUntil_frame.mono (by decide)
    clear_value s1
    have h2 : SameBut s2 s [.now, .cal, .regs, .dram, .dramBad, .cores, .bands, .fab, .remotes, .signals, .warp,
        .box, .pwr] := SameBut.each (SameBut.each h1 fun y a =>
      SameBut.foldl (SameBut.refl _ _) fun z g => State.quietEngine_frame.mono (by decide)) fun y a =>
      SameBut.foldl (SameBut.refl _ _) fun z g => State.quietEngine_frame.mono (by decide)
    clear_value s2
    have h3 : SameBut s3 s [.now, .cal, .regs, .dram, .dramBad, .cores, .bands, .fab, .remotes, .signals, .warp,
        .box, .pwr] := SameBut.each (SameBut.each h2 fun y a => State.onCore_frame.mono (by decide))
      fun y a => State.onBand_frame.mono (by decide)
    clear_value s3
    exact SameBut.call State.transitionDone_frame (by decide) (SameBut.call State.relink_frame (by decide)
      (SameBut.call State.setF_frame (by decide) (SameBut.call State.stopFabric_frame (by decide) h3)))
  · exact SameBut.refl _ _

theorem State.powerRequest_frame {s : State} {a1 : _} : SameBut (State.powerRequest s a1).2 s [.regs, .change, .pwr]
    := by
  unfold State.powerRequest
  try dsimp only
  repeat' first
    | with_reducible exact SameBut.refl _ _
    | with_reducible assumption
    | with_reducible refine SameBut.call State.setFs_frame (by decide) ?_
    | with_reducible refine SameBut.call State.onPwr_frame (by decide) ?_
    | with_reducible refine SameBut.call State.modeCheck_frame (by decide) ?_
    | (split <;> try dsimp only)

theorem State.loadCore_frame {s : State} {a1 : _} : SameBut (State.loadCore s a1) s [.regs, .cores] := by
  unfold State.loadCore
  try dsimp only
  repeat' first
    | with_reducible exact SameBut.refl _ _
    | with_reducible assumption
    | with_reducible refine SameBut.call State.loadMset_frame (by decide) ?_
    | with_reducible refine SameBut.call State.onCore_frame (by decide) ?_
    | with_reducible refine SameBut.call State.setF_frame (by decide) ?_

theorem State.bandsUp_frame {s : State} : SameBut (State.bandsUp s) s [.now, .cal, .regs, .cores, .bands, .change,
    .pwr] := by
  unfold State.bandsUp
  try dsimp only
  repeat' first
    | with_reducible exact SameBut.refl _ _
    | with_reducible assumption
    | with_reducible refine SameBut.call State.waitUntil_frame (by decide) ?_
    | with_reducible refine SameBut.call State.onBand_frame (by decide) ?_
    | with_reducible refine SameBut.call State.loadCore_frame (by decide) ?_
    | with_reducible refine SameBut.call State.modeCheck_frame (by decide) ?_
    | with_reducible refine SameBut.call State.onPwr_frame (by decide) ?_
    | (with_reducible refine SameBut.each ?_ fun y a => ?_)
    | (with_reducible refine SameBut.foldl ?_ fun y a => ?_)
    | (split <;> try dsimp only)

theorem State.setDip_frame {s : State} {a1 : _} : SameBut (State.setDip s a1) s [.regs, .cores] := by
  unfold State.setDip
  try dsimp only
  repeat' first
    | with_reducible exact SameBut.refl _ _
    | with_reducible assumption
    | with_reducible refine SameBut.call State.onCore_frame (by decide) ?_
    | with_reducible refine SameBut.call State.setF_frame (by decide) ?_
    | (with_reducible refine SameBut.each ?_ fun y a => ?_)
    | (split <;> try dsimp only)

theorem State.supplyWarning_frame {s : State} {a1 : _} {a2 : _} {a3 : _} : SameBut (State.supplyWarning s a1 a2 a3)
    s [.regs, .cores, .pwr] := by
  unfold State.supplyWarning
  try dsimp only
  repeat' first
    | with_reducible exact SameBut.refl _ _
    | with_reducible assumption
    | with_reducible refine SameBut.call State.setF_frame (by decide) ?_
    | with_reducible refine SameBut.call State.incF_frame (by decide) ?_
    | with_reducible refine SameBut.call State.onPwr_frame (by decide) ?_
    | with_reducible refine SameBut.call State.setFs_frame (by decide) ?_
    | with_reducible refine SameBut.call State.setDip_frame (by decide) ?_
    | (split <;> try dsimp only)

theorem State.supplyRecovery_frame {s : State} {a1 : _} {a2 : _} : SameBut (State.supplyRecovery s a1 a2) s [.regs,
    .pwr] := by
  unfold State.supplyRecovery
  try dsimp only
  repeat' first
    | with_reducible exact SameBut.refl _ _
    | with_reducible assumption
    | with_reducible refine SameBut.call State.setFs_frame (by decide) ?_
    | with_reducible refine SameBut.call State.onPwr_frame (by decide) ?_
    | (split <;> try dsimp only)

theorem State.supplyRecord_frame {s : State} {a1 : _} {a2 : _} {a3 : _} {a4 : _} : SameBut (State.supplyRecord s a1
    a2 a3 a4) s [.regs, .led] := by
  unfold State.supplyRecord
  try dsimp only
  repeat' first
    | with_reducible exact SameBut.refl _ _
    | with_reducible assumption
    | with_reducible refine SameBut.call State.ledger_frame (by decide) ?_

theorem State.holdoffEnd_frame {s : State} : SameBut (State.holdoffEnd s) s [.now, .cal, .regs, .cores, .bands,
    .pwr, .led] := by
  unfold State.holdoffEnd
  try dsimp only
  repeat' first
    | with_reducible exact SameBut.refl _ _
    | with_reducible assumption
    | with_reducible refine SameBut.call State.onPwr_frame (by decide) ?_
    | with_reducible refine SameBut.call State.setDip_frame (by decide) ?_
    | with_reducible refine SameBut.call State.setFs_frame (by decide) ?_
    | with_reducible refine SameBut.call State.waitUntil_frame (by decide) ?_
    | with_reducible refine SameBut.call State.supplyRecord_frame (by decide) ?_
    | (split <;> try dsimp only)

theorem State.thermalRecord_frame {s : State} {a1 : _} {a2 : _} {a3 : _} : SameBut (State.thermalRecord s a1 a2 a3)
    s [.regs, .led] := by
  unfold State.thermalRecord
  try dsimp only
  repeat' first
    | with_reducible exact SameBut.refl _ _
    | with_reducible assumption
    | with_reducible refine SameBut.call State.ledger_frame (by decide) ?_

theorem State.diode_frame {s : State} {a1 : _} {a2 : _} {a3 : _} : SameBut (State.diode s a1 a2 a3) s [.cal, .regs,
    .cores, .noBase1, .change, .pstate, .msetSample, .mwinEnd, .fc, .inp, .ctxNext, .drz, .cmp, .pnl, .fbSegs,
    .fbStarted, .sel, .pwr, .aud, .led, .tds] := by
  unfold State.diode
  try dsimp only
  repeat' first
    | with_reducible exact SameBut.refl _ _
    | with_reducible assumption
    | with_reducible refine SameBut.call State.setF_frame (by decide) ?_
    | with_reducible refine SameBut.call State.thermalRecord_frame (by decide) ?_
    | with_reducible refine SameBut.call State.incF_frame (by decide) ?_
    | with_reducible refine SameBut.call State.setFs_frame (by decide) ?_
    | with_reducible refine SameBut.call State.enterDoldrums_frame (by decide) ?_
    | (split <;> try dsimp only)

theorem State.internalSample_frame {s : State} {a1 : _} {a2 : _} {a3 : _} {a4 : _} : SameBut (State.internalSample s
    a1 a2 a3 a4) s [.now, .cal, .regs, .cores, .bands, .noBase1, .change, .pstate, .msetSample, .mwinEnd, .fc, .inp,
    .ctxNext, .drz, .sns, .cmp, .pnl, .fbSegs, .fbStarted, .sel, .pwr, .aud, .led, .tds] := by
  unfold State.internalSample
  try dsimp only
  repeat' first
    | with_reducible exact SameBut.refl _ _
    | with_reducible assumption
    | with_reducible refine SameBut.call State.onPwr_frame (by decide) ?_
    | with_reducible refine SameBut.call State.waitUntil_frame (by decide) ?_
    | with_reducible refine SameBut.call State.diode_frame (by decide) ?_
    | with_reducible refine SameBut.call State.keepSample_frame (by decide) ?_
    | with_reducible refine SameBut.call State.record_frame (by decide) ?_
    | with_reducible refine SameBut.call State.setFs_frame (by decide) ?_
    | with_reducible refine SameBut.call State.incF_frame (by decide) ?_
    | (with_reducible refine SameBut.each ?_ fun y a => ?_)
    | (with_reducible refine SameBut.foldl ?_ fun y a => ?_)
    | (split <;> try dsimp only)

end Sys2Proof.Machine
end

