-- ==== Sys2Proof/Laws/FrameReplayLog.lean ====
section
/-! SUPPORT. What each operation of Machine/ReplayLog.lean can change: every field of the state but those listed stays. -/
namespace Sys2Proof.Machine

theorem State.pinEdge_frame {s : State} : SameBut (State.pinEdge s) s [.now, .cal, .regs, .cores, .bands, .aud] := by
  unfold State.pinEdge
  try dsimp only
  repeat' first
    | with_reducible exact SameBut.refl _ _
    | with_reducible assumption
    | with_reducible refine SameBut.call State.record_frame (by decide) ?_
    | with_reducible refine SameBut.call State.assign_frame (by decide) ?_
    | with_reducible refine SameBut.call State.waitUntil_frame (by decide) ?_
    | (split <;> try dsimp only)
    | ((with_reducible refine SameBut.upd rfl ?_ ?_); intro p hp; (cases p <;> (try (with_reducible rfl)));
        exact absurd (by decide) hp; (repeat (exact absurd (by decide) hp)))

theorem State.addSample_frame {s : State} {a1 : _} {a2 : _} : SameBut (State.addSample s a1 a2) s [.sns] := by
  unfold State.addSample
  try dsimp only
  repeat' first
    | with_reducible exact SameBut.refl _ _
    | with_reducible assumption
    | (split <;> try dsimp only)
    | ((with_reducible refine SameBut.upd rfl ?_ ?_); intro p hp; (cases p <;> (try (with_reducible rfl)));
        exact absurd (by decide) hp; (repeat (exact absurd (by decide) hp)))

theorem State.replayExternal_frame {s : State} {a1 : _} : SameBut (State.replayExternal s a1) s [.sns] := by
  unfold State.replayExternal
  try dsimp only
  repeat' first
    | with_reducible exact SameBut.refl _ _
    | with_reducible assumption
    | with_reducible refine SameBut.call State.addSample_frame (by decide) ?_

theorem State.replayInternal_frame {s : State} {a1 : _} {a2 : _} : SameBut (State.replayInternal s a1 a2) s [.sns]
    := by
  unfold State.replayInternal
  try dsimp only
  repeat' first
    | with_reducible exact SameBut.refl _ _
    | with_reducible assumption
    | with_reducible refine SameBut.call State.addSample_frame (by decide) ?_
    | (with_reducible refine SameBut.foldl ?_ fun y a => ?_)
    | (split <;> try dsimp only)

theorem State.replaySamples_frame {s : State} : SameBut (State.replaySamples s) s [.sns, .aud] := by
  unfold State.replaySamples
  try dsimp only
  repeat' first
    | with_reducible exact SameBut.refl _ _
    | with_reducible assumption
    | with_reducible refine SameBut.call State.replayExternal_frame (by decide) ?_
    | with_reducible refine SameBut.call State.replayInternal_frame (by decide) ?_
    | (with_reducible refine SameBut.foldl ?_ fun y a => ?_)
    | (split <;> try dsimp only)
    | ((with_reducible refine SameBut.upd rfl ?_ ?_); intro p hp; (cases p <;> (try (with_reducible rfl)));
        exact absurd (by decide) hp; (repeat (exact absurd (by decide) hp)))

theorem State.replayFrame_frame {s : State} {a1 : _} {a2 : _} : SameBut (State.replayFrame s a1 a2) s [.regs] := by
  unfold State.replayFrame
  try dsimp only
  repeat' first
    | with_reducible exact SameBut.refl _ _
    | with_reducible assumption
    | with_reducible refine SameBut.call State.incF_frame (by decide) ?_
    | with_reducible refine SameBut.call State.diverge_frame (by decide) ?_
    | (split <;> try dsimp only)

end Sys2Proof.Machine
end

