-- ==== Sys2Proof/Laws/FrameRaster.lean ====
section
/-! SUPPORT. What each operation of Machine/Raster.lean can change: every field of the state but those listed stays. -/
namespace Sys2Proof.Machine

theorem State.decisionCycle_frame {s : State} : SameBut (State.decisionCycle s) s [.free, .cal, .regs, .dram,
    .dramBad, .cores, .bands, .msetSample, .fab, .inp, .tau, .rtFirst, .ctxNext, .warp, .sns, .pnl, .aud, .tds] :=
    by
  unfold State.decisionCycle
  try dsimp only
  repeat' first
    | with_reducible exact SameBut.refl _ _
    | with_reducible assumption
    | with_reducible refine SameBut.call State.decideVTotal_frame (by decide) ?_
    | with_reducible refine SameBut.call State.snapVTotal_frame (by decide) ?_
    | with_reducible refine SameBut.call State.recVt_frame (by decide) ?_
    | with_reducible refine SameBut.call State.onPnl_frame (by decide) ?_
    | with_reducible refine SameBut.call State.sensorVector_frame (by decide) ?_
    | with_reducible refine SameBut.call State.replaySamples_frame (by decide) ?_
    | with_reducible refine SameBut.call State.retimerDecision_frame (by decide) ?_
    | with_reducible refine SameBut.call State.sampleMset_frame (by decide) ?_
    | with_reducible refine SameBut.call State.writeContext_frame (by decide) ?_

theorem State.lanePhase0_frame {s : State} : SameBut (State.lanePhase0 s) s [.regs, .pnl] := by
  unfold State.lanePhase0
  try dsimp only
  repeat' first
    | with_reducible exact SameBut.refl _ _
    | with_reducible assumption
    | with_reducible refine SameBut.call State.laneLine_frame (by decide) ?_
    | with_reducible refine SameBut.call State.setF_frame (by decide) ?_
    | with_reducible refine SameBut.call State.onPnl_frame (by decide) ?_
    | (split <;> try dsimp only)

theorem State.lineStart_frame {s : State} : SameBut (State.lineStart s) s [.free, .now, .cal, .regs, .dram,
    .dramBad, .cores, .bands, .msetSample, .fab, .inp, .tau, .rtFirst, .ctxNext, .warp, .sns, .pnl, .aud, .tds] :=
    by
  unfold State.lineStart
  try dsimp only
  repeat' first
    | with_reducible exact SameBut.refl _ _
    | with_reducible assumption
    | with_reducible refine SameBut.call State.waitUntil_frame (by decide) ?_
    | with_reducible refine SameBut.call State.snapStop_frame (by decide) ?_
    | with_reducible refine SameBut.call State.snapLine_frame (by decide) ?_
    | with_reducible refine SameBut.call State.closeWindow_frame (by decide) ?_
    | with_reducible refine SameBut.call State.lanePhase0_frame (by decide) ?_
    | with_reducible refine SameBut.call State.decisionCycle_frame (by decide) ?_
    | (split <;> try dsimp only)
    | ((with_reducible refine SameBut.upd rfl ?_ ?_); intro p hp; (cases p <;> (try (with_reducible rfl)));
        exact absurd (by decide) hp; (repeat (exact absurd (by decide) hp)))

theorem State.publishCore_frame {s : State} {a1 : _} : SameBut (State.publishCore s a1) s [.regs, .cores] := by
  unfold State.publishCore
  try dsimp only
  repeat' first
    | with_reducible exact SameBut.refl _ _
    | with_reducible assumption
    | with_reducible refine SameBut.call State.bgCount_frame (by decide) ?_
    | with_reducible refine SameBut.call State.onCore_frame (by decide) ?_
    | with_reducible refine SameBut.call State.setFs_frame (by decide) ?_

theorem State.publish_frame {s : State} : SameBut (State.publish s) s [.regs, .cores, .bands, .pnl, .fbNow, .fbNext]
    := by
  unfold State.publish
  try dsimp only
  repeat' first
    | ((with_reducible refine SameBut.upd rfl ?_ ?_); intro p hp; (cases p <;> (try (with_reducible rfl)));
        exact absurd (by decide) hp; (repeat (exact absurd (by decide) hp)))
    | with_reducible exact SameBut.refl _ _
    | with_reducible assumption
    | with_reducible refine SameBut.call State.publishCore_frame (by decide) ?_
    | with_reducible refine SameBut.call State.onBand_frame (by decide) ?_
    | with_reducible refine SameBut.call State.setF_frame (by decide) ?_
    | with_reducible refine SameBut.call State.onPnl_frame (by decide) ?_
    | (with_reducible refine SameBut.each ?_ fun y a => ?_)
    | (split <;> try dsimp only)

theorem State.dropCounts_frame {s : State} : SameBut (State.dropCounts s) s [.drm, .cores, .bands, .fab, .pnl,
    .fbNow, .fbNext] := by
  unfold State.dropCounts
  try dsimp only
  repeat' first
    | with_reducible exact SameBut.refl _ _
    | with_reducible assumption
    | with_reducible refine SameBut.call State.onCore_frame (by decide) ?_
    | with_reducible refine SameBut.call State.onPnl_frame (by decide) ?_
    | with_reducible refine SameBut.call State.onBand_frame (by decide) ?_
    | (with_reducible refine SameBut.each ?_ fun y a => ?_)
    | (split <;> try dsimp only)
    | ((with_reducible refine SameBut.upd rfl ?_ ?_); intro p hp; (cases p <;> (try (with_reducible rfl)));
        exact absurd (by decide) hp; (repeat (exact absurd (by decide) hp)))

theorem State.histSnap_frame {s : State} : SameBut (State.histSnap s) s [.regs, .cores] := by
  unfold State.histSnap
  try dsimp only
  repeat' first
    | with_reducible exact SameBut.refl _ _
    | with_reducible assumption
    | with_reducible refine SameBut.call State.onCore_frame (by decide) ?_
    | with_reducible refine SameBut.call State.setF_frame (by decide) ?_
    | (with_reducible refine SameBut.each ?_ fun y a => ?_)
    | (with_reducible refine SameBut.foldl ?_ fun y a => ?_)
    | (split <;> try dsimp only)

theorem State.histTake_frame {s : State} : SameBut (State.histTake s) s [.cores] := by
  unfold State.histTake
  try dsimp only
  repeat' first
    | with_reducible exact SameBut.refl _ _
    | with_reducible assumption
    | with_reducible refine SameBut.call State.onCore_frame (by decide) ?_
    | (with_reducible refine SameBut.each ?_ fun y a => ?_)

theorem State.changeStep_frame {s : State} : SameBut (State.changeStep s) s [.regs, .cores, .bands, .noBase1,
    .change, .bucket, .pstate, .fc, .frost, .pnl, .pwr] := by
  unfold State.changeStep
  try dsimp only
  repeat' first
    | with_reducible exact SameBut.refl _ _
    | with_reducible assumption
    | with_reducible refine SameBut.call State.onPnl_frame (by decide) ?_
    | with_reducible refine SameBut.call State.changeDone_frame (by decide) ?_
    | (split <;> try dsimp only)
    | ((with_reducible refine SameBut.upd rfl ?_ ?_); intro p hp; (cases p <;> (try (with_reducible rfl)));
        exact absurd (by decide) hp; (repeat (exact absurd (by decide) hp)))

theorem State.turnFrame_frame {s : State} {a1 : _} {a2 : _} : SameBut (State.turnFrame s a1 a2) s [.now, .cal,
    .regs, .cores, .bands] := by
  unfold State.turnFrame
  try dsimp only
  repeat' first
    | with_reducible exact SameBut.refl _ _
    | with_reducible assumption
    | with_reducible refine SameBut.call State.waitUntil_frame (by decide) ?_
    | with_reducible refine SameBut.call State.setF_frame (by decide) ?_
    | (split <;> try dsimp only)
    | ((with_reducible refine SameBut.upd rfl ?_ ?_); intro p hp; (cases p <;> (try (with_reducible rfl)));
        exact absurd (by decide) hp; (repeat (exact absurd (by decide) hp)))

theorem State.forgetOld_frame {s : State} {a1 : _} : SameBut (State.forgetOld s a1) s [.cmp, .fbSegs, .fbStarted,
    .sel] := by
  unfold State.forgetOld
  try dsimp only
  repeat' first
    | with_reducible exact SameBut.refl _ _
    | with_reducible assumption
    | (split <;> try dsimp only)
    | ((with_reducible refine SameBut.upd rfl ?_ ?_); intro p hp; (cases p <;> (try (with_reducible rfl)));
        exact absurd (by decide) hp; (repeat (exact absurd (by decide) hp)))

theorem State.beginFrameUnits_frame {s : State} {a1 : _} {a2 : _} {a3 : _} : SameBut (State.beginFrameUnits s a1 a2
    a3) s [.regs, .fab, .warp, .cmp, .pnl, .aud, .tds] := by
  unfold State.beginFrameUnits
  try dsimp only
  repeat' first
    | with_reducible exact SameBut.refl _ _
    | with_reducible assumption
    | with_reducible refine SameBut.call State.lanePhase0_frame (by decide) ?_
    | with_reducible refine SameBut.call State.recBegin_frame (by decide) ?_
    | with_reducible refine SameBut.call State.snapStop_frame (by decide) ?_
    | with_reducible refine SameBut.call State.snapLine_frame (by decide) ?_
    | with_reducible refine SameBut.call State.laneBoundary_frame (by decide) ?_
    | with_reducible refine SameBut.call State.gfxBoundary_frame (by decide) ?_
    | with_reducible refine SameBut.call State.applyPoint_frame (by decide) ?_

theorem State.realtime_frame {s : State} : SameBut (State.realtime s) s [.regs] := by
  unfold State.realtime
  try dsimp only
  repeat' first
    | with_reducible exact SameBut.refl _ _
    | with_reducible assumption
    | with_reducible refine SameBut.call State.setF_frame (by decide) ?_

theorem State.frameBoundary_frame {s : State} : SameBut (State.frameBoundary s) s [.now, .cal, .regs, .dram,
    .dramBad, .drm, .cores, .bands, .noBase1, .change, .firstLines, .bucket, .pstate, .msetSample, .mwinEnd, .fc,
    .fab, .inp, .arrived, .avail, .rtJ0, .ctx, .ctxNext, .warp, .drz, .frost, .cmp, .pnl, .fbSegs, .fbStarted, .sel,
    .fbNow, .fbNext, .pwr, .aud, .led, .tds] := by
  unfold State.frameBoundary
  split
  · exact SameBut.refl _ _
  split
  · exact SameBut.refl _ _
  extract_lets +onlyGivenNames n scw s1 s2 q s3 c4 s4 s5 s6 s7 s8
  have h1 : SameBut s1 s [.now, .cal, .regs, .dram, .dramBad, .drm, .cores, .bands, .noBase1, .change, .firstLines,
      .bucket, .pstate, .msetSample, .mwinEnd, .fc, .fab, .inp, .arrived, .avail, .rtJ0, .ctx, .ctxNext, .warp,
      .drz, .frost, .cmp, .pnl, .fbSegs, .fbStarted, .sel, .fbNow, .fbNext, .pwr, .aud, .led, .tds] := SameBut.call
      State.histSnap_frame (by decide) (SameBut.call State.publish_frame (by decide)
    (State.turnFrame_frame.mono (by decide)))
  clear_value s1
  have h2 : SameBut s2 s [.now, .cal, .regs, .dram, .dramBad, .drm, .cores, .bands, .noBase1, .change, .firstLines,
      .bucket, .pstate, .msetSample, .mwinEnd, .fc, .fab, .inp, .arrived, .avail, .rtJ0, .ctx, .ctxNext, .warp,
      .drz, .frost, .cmp, .pnl, .fbSegs, .fbStarted, .sel, .fbNow, .fbNext, .pwr, .aud, .led, .tds] := SameBut.call
      State.ctxBoundary_frame (by decide)
    (SameBut.each h1 fun y a => State.handoverDone_frame.mono (by decide))
  clear_value s2
  have hq : SameBut q.1 s [.now, .cal, .regs, .dram, .dramBad, .drm, .cores, .bands, .noBase1, .change, .firstLines,
      .bucket, .pstate, .msetSample, .mwinEnd, .fc, .fab, .inp, .arrived, .avail, .rtJ0, .ctx, .ctxNext, .warp,
      .drz, .frost, .cmp, .pnl, .fbSegs, .fbStarted, .sel, .fbNow, .fbNext, .pwr, .aud, .led, .tds] := SameBut.call
      State.msetSwitch_frame (by decide) h2
  clear_value q
  have h3 : SameBut s3 s [.now, .cal, .regs, .dram, .dramBad, .drm, .cores, .bands, .noBase1, .change, .firstLines,
      .bucket, .pstate, .msetSample, .mwinEnd, .fc, .fab, .inp, .arrived, .avail, .rtJ0, .ctx, .ctxNext, .warp,
      .drz, .frost, .cmp, .pnl, .fbSegs, .fbStarted, .sel, .fbNow, .fbNext, .pwr, .aud, .led, .tds] := SameBut.call
      State.realtime_frame (by decide) (SameBut.call State.weatherBoundary_frame (by decide)
    (SameBut.call State.changeStep_frame (by decide) hq))
  clear_value s3
  have h4 : SameBut s4 s [.now, .cal, .regs, .dram, .dramBad, .drm, .cores, .bands, .noBase1, .change, .firstLines,
      .bucket, .pstate, .msetSample, .mwinEnd, .fc, .fab, .inp, .arrived, .avail, .rtJ0, .ctx, .ctxNext, .warp,
      .drz, .frost, .cmp, .pnl, .fbSegs, .fbStarted, .sel, .fbNow, .fbNext, .pwr, .aud, .led, .tds] := SameBut.upd
      rfl (by
          intro p hp
          cases p <;> first | with_reducible rfl | exact absurd (by decide) hp) h3
  clear_value s4
  have h5 : SameBut s5 s [.now, .cal, .regs, .dram, .dramBad, .drm, .cores, .bands, .noBase1, .change, .firstLines,
      .bucket, .pstate, .msetSample, .mwinEnd, .fc, .fab, .inp, .arrived, .avail, .rtJ0, .ctx, .ctxNext, .warp,
      .drz, .frost, .cmp, .pnl, .fbSegs, .fbStarted, .sel, .fbNow, .fbNext, .pwr, .aud, .led, .tds] := SameBut.call
      State.framesArrive_frame (by decide) (SameBut.call State.planGrabs_frame (by decide)
    (SameBut.call State.assign_frame (by decide) h4))
  clear_value s5
  have h6 : SameBut s6 s [.now, .cal, .regs, .dram, .dramBad, .drm, .cores, .bands, .noBase1, .change, .firstLines,
      .bucket, .pstate, .msetSample, .mwinEnd, .fc, .fab, .inp, .arrived, .avail, .rtJ0, .ctx, .ctxNext, .warp,
      .drz, .frost, .cmp, .pnl, .fbSegs, .fbStarted, .sel, .fbNow, .fbNext, .pwr, .aud, .led, .tds] := SameBut.call
      State.dramBoundary_frame (by decide) (SameBut.call State.writeFormat_frame (by decide)
    (SameBut.call State.warpBoundary_frame (by decide) (SameBut.call State.clausesBoundary_frame (by decide) h5)))
  clear_value s6
  have h7 : SameBut s7 s [.now, .cal, .regs, .dram, .dramBad, .drm, .cores, .bands, .noBase1, .change, .firstLines,
      .bucket, .pstate, .msetSample, .mwinEnd, .fc, .fab, .inp, .arrived, .avail, .rtJ0, .ctx, .ctxNext, .warp,
      .drz, .frost, .cmp, .pnl, .fbSegs, .fbStarted, .sel, .fbNow, .fbNext, .pwr, .aud, .led, .tds] := SameBut.call
      State.forgetOld_frame (by decide) (SameBut.call State.frostFix_frame (by decide)
    (SameBut.call State.histTake_frame (by decide) (SameBut.call State.drzBoundary_frame (by decide) h6)))
  clear_value s7
  have h8 : SameBut s8 s [.now, .cal, .regs, .dram, .dramBad, .drm, .cores, .bands, .noBase1, .change, .firstLines,
      .bucket, .pstate, .msetSample, .mwinEnd, .fc, .fab, .inp, .arrived, .avail, .rtJ0, .ctx, .ctxNext, .warp,
      .drz, .frost, .cmp, .pnl, .fbSegs, .fbStarted, .sel, .fbNow, .fbNext, .pwr, .aud, .led, .tds] := SameBut.call
      State.replayFrame_frame (by decide) (SameBut.call State.recordFrame_frame (by decide)
    (SameBut.call State.recordingTake_frame (by decide) (SameBut.call State.capPrune_frame (by decide) h7)))
  clear_value s8
  split
  · exact SameBut.call State.enterDoldrums_frame (by decide) h8
  · exact SameBut.call State.beginFrameUnits_frame (by decide) h8

theorem State.rasterStart_frame {s : State} {a1 : _} {a2 : _} : SameBut (State.rasterStart s a1 a2) s [.cal, .regs,
    .dram, .dramBad, .drm, .cores, .bands, .noBase1, .firstLines, .fc, .fab, .arrived, .avail, .rtJ0, .ctx,
    .ctxNext, .warp, .drz, .frost, .cmp, .pnl, .fbNow, .fbNext, .pwr, .aud, .led, .tds] := by
  unfold State.rasterStart
  try dsimp only
  repeat' first
    | with_reducible exact SameBut.refl _ _
    | with_reducible assumption
    | with_reducible refine SameBut.call State.dropCounts_frame (by decide) ?_
    | with_reducible refine SameBut.call State.calStart_frame (by decide) ?_
    | with_reducible refine SameBut.call State.setF_frame (by decide) ?_
    | with_reducible refine SameBut.call State.framesArrive_frame (by decide) ?_
    | with_reducible refine SameBut.call State.planGrabs_frame (by decide) ?_
    | with_reducible refine SameBut.call State.weatherBoundary_frame (by decide) ?_
    | with_reducible refine SameBut.call State.ctxBoundary_frame (by decide) ?_
    | with_reducible refine SameBut.call State.histTake_frame (by decide) ?_
    | with_reducible refine SameBut.call State.drzBoundary_frame (by decide) ?_
    | with_reducible refine SameBut.call State.takeTickets_frame (by decide) ?_
    | with_reducible refine SameBut.call State.writeFormat_frame (by decide) ?_
    | with_reducible refine SameBut.call State.replayFrame_frame (by decide) ?_
    | with_reducible refine SameBut.call State.recordFrame_frame (by decide) ?_
    | with_reducible refine SameBut.call State.recordingTake_frame (by decide) ?_
    | with_reducible refine SameBut.call State.frostFix_frame (by decide) ?_
    | with_reducible refine SameBut.call State.beginFrameUnits_frame (by decide) ?_
    | (split <;> try dsimp only)
    | ((with_reducible refine SameBut.upd rfl ?_ ?_); intro p hp; (cases p <;> (try (with_reducible rfl)));
        exact absurd (by decide) hp; (repeat (exact absurd (by decide) hp)))

theorem State.openMsetStep_frame {s : State} {a1 : _} {a2 : _} : SameBut (State.openMsetStep s a1 a2) s [.now, .cal,
    .regs, .cores, .bands, .mwinEnd, .fc, .drz] := by
  unfold State.openMsetStep
  try dsimp only
  repeat' first
    | with_reducible exact SameBut.refl _ _
    | with_reducible assumption
    | with_reducible refine SameBut.call State.openMset_frame (by decide) ?_
    | with_reducible refine SameBut.call State.drzSwitch_frame (by decide) ?_
    | with_reducible refine SameBut.call State.abandonSteps_frame (by decide) ?_
    | (split <;> try dsimp only)

theorem State.scheduleChangeStep_frame {s : State} : SameBut (State.scheduleChangeStep s) s [.now, .cal, .regs,
    .dram, .dramBad, .cores, .bands, .almanac, .sched, .noBase1, .change, .firstLines, .fc, .fab, .remotes,
    .signals, .tau, .rtFirst, .ctxNext, .warp, .drz] := by
  unfold State.scheduleChangeStep
  try dsimp only
  repeat' first
    | with_reducible exact SameBut.refl _ _
    | with_reducible assumption
    | with_reducible refine SameBut.call State.scheduleChange_frame (by decide) ?_
    | with_reducible refine SameBut.call State.abandonSteps_frame (by decide) ?_
    | with_reducible refine SameBut.call State.drzHist_frame (by decide) ?_
    | (split <;> try dsimp only)

theorem State.handoverStep_frame {s : State} {a1 : _} : SameBut (State.handoverStep s a1) s [.now, .cal, .regs,
    .dram, .dramBad, .cores, .bands, .fc, .fab, .remotes, .signals, .drz] := by
  unfold State.handoverStep
  try dsimp only
  repeat' first
    | with_reducible exact SameBut.refl _ _
    | with_reducible assumption
    | with_reducible refine SameBut.call State.handoverStart_frame (by decide) ?_
    | with_reducible refine SameBut.call State.abandonSteps_frame (by decide) ?_
    | (split <;> try dsimp only)

theorem State.stepParity_frame {a0 : State} {s : State} {a2 : _} : SameBut (State.stepParity a0 s a2) s [.regs,
    .fab, .pwr, .led] := by
  unfold State.stepParity
  try dsimp only
  repeat' first
    | with_reducible exact SameBut.refl _ _
    | with_reducible assumption
    | with_reducible refine SameBut.call State.hardParity_frame (by decide) ?_

end Sys2Proof.Machine
end

