-- ==== Sys2Proof/Laws/FrameBoot.lean ====
section
/-! SUPPORT. What each operation of Machine/Boot.lean can change: every field of the state but those listed stays. -/
namespace Sys2Proof.Machine

theorem State.onBoot_frame {s : State} {a1 : _} : SameBut (State.onBoot s a1) s [.boot] := by
  unfold State.onBoot
  try dsimp only
  repeat' first
    | with_reducible exact SameBut.refl _ _
    | with_reducible assumption
    | (split <;> try dsimp only)
    | ((with_reducible refine SameBut.upd rfl ?_ ?_); intro p hp; (cases p <;> (try (with_reducible rfl)));
        exact absurd (by decide) hp; (repeat (exact absurd (by decide) hp)))

theorem State.removeFall_frame {s : State} : SameBut (State.removeFall s) s [.regs, .drm, .pnl] := by
  unfold State.removeFall
  try dsimp only
  repeat' first
    | with_reducible exact SameBut.refl _ _
    | with_reducible assumption
    | with_reducible refine SameBut.call State.setFs_frame (by decide) ?_
    | with_reducible refine SameBut.call State.safeEnter_frame (by decide) ?_
    | (split <;> try dsimp only)
    | ((with_reducible refine SameBut.upd rfl ?_ ?_); intro p hp; (cases p <;> (try (with_reducible rfl)));
        exact absurd (by decide) hp; (repeat (exact absurd (by decide) hp)))

theorem State.startReset_frame {s : State} {a1 : _} {a2 : _} : SameBut (State.startReset s a1 a2) s [.boot] := by
  unfold State.startReset
  try dsimp only
  repeat' first
    | with_reducible exact SameBut.refl _ _
    | with_reducible assumption
    | with_reducible refine SameBut.call State.onBoot_frame (by decide) ?_

theorem State.deviceReset_frame {s : State} {a1 : _} : SameBut (State.deviceReset s a1) s [.pending, .free, .now,
    .cal, .regs, .latch, .dram, .dramBad, .drm, .cores, .bands, .prog, .almanac, .sched, .noBase1, .change,
    .firstLines, .bucket, .pstate, .msetSample, .mwinEnd, .fc, .fab, .remotes, .signals, .inp, .hist, .arrived,
    .avail, .tau, .rtFirst, .rtJ0, .ctx, .ctxNext, .warp, .box, .drz, .frost, .sns, .cmp, .pnl, .fbSegs, .fbStarted,
    .sel, .fbNow, .fbNext, .pwr, .seq, .boot, .aud, .led, .tpl, .tds] := by
  unfold State.deviceReset
  try dsimp only
  repeat' first
    | with_reducible exact SameBut.refl _ _
    | with_reducible assumption
    | with_reducible refine SameBut.call State.waitUntil_frame (by decide) ?_
    | with_reducible refine SameBut.call State.setFs_frame (by decide) ?_
    | with_reducible refine SameBut.call State.removeFall_frame (by decide) ?_
    | (split <;> try dsimp only)
    | ((with_reducible refine SameBut.upd rfl ?_ ?_); intro p hp; (cases p <;> (try (with_reducible rfl)));
        exact absurd (by decide) hp; (repeat (exact absurd (by decide) hp)))

theorem State.switchClose_frame {s : State} : SameBut (State.switchClose s) s [.seq] := by
  unfold State.switchClose
  try dsimp only
  repeat' first
    | with_reducible exact SameBut.refl _ _
    | with_reducible assumption
    | (split <;> try dsimp only)
    | ((with_reducible refine SameBut.upd rfl ?_ ?_); intro p hp; (cases p <;> (try (with_reducible rfl)));
        exact absurd (by decide) hp; (repeat (exact absurd (by decide) hp)))

theorem State.pwrGoodRise_frame {s : State} : SameBut (State.pwrGoodRise s) s [.seq, .boot] := by
  unfold State.pwrGoodRise
  try dsimp only
  repeat' first
    | with_reducible exact SameBut.refl _ _
    | with_reducible assumption
    | with_reducible refine SameBut.call State.startReset_frame (by decide) ?_
    | (split <;> try dsimp only)
    | ((with_reducible refine SameBut.upd rfl ?_ ?_); intro p hp; (cases p <;> (try (with_reducible rfl)));
        exact absurd (by decide) hp; (repeat (exact absurd (by decide) hp)))

theorem State.switchOpen_frame {s : State} : SameBut (State.switchOpen s) s [.pending, .free, .now, .cal, .regs,
    .latch, .dram, .dramBad, .drm, .cores, .bands, .prog, .almanac, .sched, .noBase1, .change, .firstLines, .bucket,
    .pstate, .msetSample, .mwinEnd, .fc, .fab, .remotes, .signals, .inp, .hist, .arrived, .avail, .tau, .rtFirst,
    .rtJ0, .ctx, .ctxNext, .warp, .box, .drz, .frost, .sns, .cmp, .pnl, .fbSegs, .fbStarted, .sel, .fbNow, .fbNext,
    .pwr, .seq, .boot, .aud, .led, .tpl, .tds] := by
  unfold State.switchOpen
  try dsimp only
  repeat' first
    | with_reducible exact SameBut.refl _ _
    | with_reducible assumption
    | (split <;> try dsimp only)
    | ((with_reducible refine SameBut.upd rfl ?_ ?_); intro p hp; (cases p <;> (try (with_reducible rfl)));
        exact absurd (by decide) hp; (repeat (exact absurd (by decide) hp)))

theorem State.supplyReset_frame {s : State} {a1 : _} {a2 : _} {a3 : _} : SameBut (State.supplyReset s a1 a2 a3) s
    [.pwr, .boot] := by
  unfold State.supplyReset
  try dsimp only
  repeat' first
    | with_reducible exact SameBut.refl _ _
    | with_reducible assumption
    | with_reducible refine SameBut.call State.startReset_frame (by decide) ?_
    | with_reducible refine SameBut.call State.onPwr_frame (by decide) ?_

theorem State.stageDone_frame {s : State} {a1 : _} : SameBut (State.stageDone s a1) s [.regs, .boot] := by
  unfold State.stageDone
  try dsimp only
  repeat' first
    | with_reducible exact SameBut.refl _ _
    | with_reducible assumption
    | with_reducible refine SameBut.call State.setF_frame (by decide) ?_
    | with_reducible refine SameBut.call State.onBoot_frame (by decide) ?_

theorem State.bootFail_frame {s : State} {a1 : _} {a2 : _} : SameBut (State.bootFail s a1 a2) s [.regs] := by
  unfold State.bootFail
  try dsimp only
  repeat' first
    | with_reducible exact SameBut.refl _ _
    | with_reducible assumption
    | with_reducible refine SameBut.call State.setFs_frame (by decide) ?_
    | with_reducible refine SameBut.call State.setF_frame (by decide) ?_
    | (split <;> try dsimp only)

theorem State.stageRom_frame {s : State} {a1 : _} : SameBut (State.stageRom s a1) s [.regs, .drm, .cores, .bands,
    .boot] := by
  unfold State.stageRom
  try dsimp only
  repeat' first
    | with_reducible exact SameBut.refl _ _
    | with_reducible assumption
    | with_reducible refine SameBut.call State.setF_frame (by decide) ?_
    | with_reducible refine SameBut.call State.onCore_frame (by decide) ?_
    | with_reducible refine SameBut.call State.onBand_frame (by decide) ?_
    | with_reducible refine SameBut.call State.setFs_frame (by decide) ?_
    | with_reducible refine SameBut.call State.stageDone_frame (by decide) ?_
    | with_reducible refine SameBut.call State.onBoot_frame (by decide) ?_
    | (with_reducible refine SameBut.each ?_ fun y a => ?_)
    | (split <;> try dsimp only)
    | ((with_reducible refine SameBut.upd rfl ?_ ?_); intro p hp; (cases p <;> (try (with_reducible rfl)));
        exact absurd (by decide) hp; (repeat (exact absurd (by decide) hp)))

theorem State.putDigest_frame {s : State} {a1 : _} {a2 : _} : SameBut (State.putDigest s a1 a2) s [.regs] := by
  unfold State.putDigest
  try dsimp only
  repeat' first
    | with_reducible exact SameBut.refl _ _
    | with_reducible assumption
    | with_reducible refine SameBut.call State.setFs_frame (by decide) ?_

theorem State.stageFlash_frame {s : State} {a1 : _} : SameBut (State.stageFlash s a1) s [.regs, .boot] := by
  unfold State.stageFlash
  try dsimp only
  repeat' first
    | with_reducible exact SameBut.refl _ _
    | with_reducible assumption
    | with_reducible refine SameBut.call State.bootFail_frame (by decide) ?_
    | with_reducible refine SameBut.call State.setF_frame (by decide) ?_
    | with_reducible refine SameBut.call State.onBoot_frame (by decide) ?_
    | with_reducible refine SameBut.call State.putDigest_frame (by decide) ?_
    | with_reducible refine SameBut.call State.stageDone_frame (by decide) ?_
    | (split <;> try dsimp only)

theorem State.dramTrained_frame {s : State} {a1 : _} : SameBut (State.dramTrained s a1) s [.now, .cal, .regs,
    .cores, .bands] := by
  unfold State.dramTrained
  try dsimp only
  repeat' first
    | with_reducible exact SameBut.refl _ _
    | with_reducible assumption
    | with_reducible refine SameBut.call State.waitUntil_frame (by decide) ?_
    | with_reducible refine SameBut.call State.setF_frame (by decide) ?_
    | with_reducible refine SameBut.call State.bootFail_frame (by decide) ?_
    | (split <;> try dsimp only)

theorem State.mapSpad_frame {s : State} {a1 : _} {a2 : _} : SameBut (State.mapSpad s a1 a2) s [.regs, .cores] := by
  unfold State.mapSpad
  try dsimp only
  repeat' first
    | with_reducible exact SameBut.refl _ _
    | with_reducible assumption
    | with_reducible refine SameBut.call State.setF_frame (by decide) ?_
    | with_reducible refine SameBut.call State.onCore_frame (by decide) ?_

theorem State.mapLs_frame {s : State} {a1 : _} {a2 : _} : SameBut (State.mapLs s a1 a2) s [.regs, .bands] := by
  unfold State.mapLs
  try dsimp only
  repeat' first
    | with_reducible exact SameBut.refl _ _
    | with_reducible assumption
    | with_reducible refine SameBut.call State.setF_frame (by decide) ?_
    | with_reducible refine SameBut.call State.onBand_frame (by decide) ?_

theorem State.mapDram_frame {s : State} {a1 : _} : SameBut (State.mapDram s a1) s [.regs, .drm] := by
  unfold State.mapDram
  try dsimp only
  repeat' first
    | with_reducible exact SameBut.refl _ _
    | with_reducible assumption
    | with_reducible refine SameBut.call State.setF_frame (by decide) ?_
    | (split <;> try dsimp only)
    | ((with_reducible refine SameBut.upd rfl ?_ ?_); intro p hp; (cases p <;> (try (with_reducible rfl)));
        exact absurd (by decide) hp; (repeat (exact absurd (by decide) hp)))

theorem State.setIdle_frame {s : State} {a1 : _} {a2 : _} {a3 : _} : SameBut (State.setIdle s a1 a2 a3) s [.regs] :=
    by
  unfold State.setIdle
  try dsimp only
  repeat' first
    | with_reducible exact SameBut.refl _ _
    | with_reducible assumption
    | with_reducible refine SameBut.call State.setFs_frame (by decide) ?_
    | (with_reducible refine SameBut.each ?_ fun y a => ?_)

theorem State.applyRecord_frame {s : State} {a1 : _} : SameBut (State.applyRecord s a1) s [.regs, .drm, .cores,
    .bands] := by
  unfold State.applyRecord
  try dsimp only
  repeat' first
    | with_reducible exact SameBut.refl _ _
    | with_reducible assumption
    | with_reducible refine SameBut.call State.mapSpad_frame (by decide) ?_
    | with_reducible refine SameBut.call State.mapLs_frame (by decide) ?_
    | with_reducible refine SameBut.call State.mapDram_frame (by decide) ?_
    | with_reducible refine SameBut.call State.onCore_frame (by decide) ?_
    | with_reducible refine SameBut.call State.setFs_frame (by decide) ?_
    | with_reducible refine SameBut.call State.setF_frame (by decide) ?_
    | with_reducible refine SameBut.call State.setIdle_frame (by decide) ?_
    | (split <;> try dsimp only)

theorem State.stageLedger_frame {s : State} {a1 : _} : SameBut (State.stageLedger s a1) s [.regs, .drm, .cores,
    .bands, .boot, .led] := by
  unfold State.stageLedger
  try dsimp only
  repeat' first
    | ((with_reducible refine SameBut.upd rfl ?_ ?_); intro p hp; (cases p <;> (try (with_reducible rfl)));
        exact absurd (by decide) hp; (repeat (exact absurd (by decide) hp)))
    | with_reducible exact SameBut.refl _ _
    | with_reducible assumption
    | with_reducible refine SameBut.call State.setF_frame (by decide) ?_
    | with_reducible refine SameBut.call State.stageDone_frame (by decide) ?_
    | with_reducible refine SameBut.call State.incF_frame (by decide) ?_
    | with_reducible refine SameBut.call State.setFs_frame (by decide) ?_
    | with_reducible refine SameBut.call State.applyRecord_frame (by decide) ?_
    | (with_reducible refine SameBut.foldl ?_ fun y a => ?_)
    | (split <;> try dsimp only)

theorem State.bistDram_frame {r : State × Bool} {a1 : _} : SameBut (State.bistDram r a1).1 r.1 [.regs, .drm, .led]
    := by
  unfold State.bistDram
  dsimp only
  split
  · exact SameBut.refl _ _
  · exact SameBut.call State.ledger_frame (by decide) (SameBut.call State.incF_frame (by decide)
      (State.mapDram_frame.mono (by decide)))

theorem State.bistSpad_frame {s : State} {a1 : _} : SameBut (State.bistSpad s a1) s [.regs, .cores, .fab, .pwr,
    .led] := by
  unfold State.bistSpad
  try dsimp only
  repeat' first
    | with_reducible exact SameBut.refl _ _
    | with_reducible assumption
    | with_reducible refine SameBut.call State.retire_frame (by decide) ?_
    | with_reducible refine SameBut.call State.incF_frame (by decide) ?_
    | with_reducible refine SameBut.call State.ledger_frame (by decide) ?_
    | with_reducible refine SameBut.call State.mapSpad_frame (by decide) ?_
    | (split <;> try dsimp only)

theorem State.bistLs_frame {s : State} {a1 : _} : SameBut (State.bistLs s a1) s [.regs, .bands, .led] := by
  unfold State.bistLs
  try dsimp only
  repeat' first
    | with_reducible exact SameBut.refl _ _
    | with_reducible assumption
    | with_reducible refine SameBut.call State.incF_frame (by decide) ?_
    | with_reducible refine SameBut.call State.ledger_frame (by decide) ?_
    | with_reducible refine SameBut.call State.mapLs_frame (by decide) ?_
    | (split <;> try dsimp only)

theorem State.stageDram_frame {s : State} {a1 : _} : SameBut (State.stageDram s a1) s [.regs, .drm, .boot, .led] := by
  unfold State.stageDram
  dsimp only
  have h : SameBut (a1.foldl State.bistDram (s, true)).1 s [.regs, .drm, .boot, .led] :=
    SameBut.foldl_fst (x := (s, true)) (SameBut.refl _ _) fun y a => State.bistDram_frame.mono (by decide)
  split
  · exact SameBut.call State.stageDone_frame (by decide) h
  · exact SameBut.call State.bootFail_frame (by decide) h

theorem State.stageLogic_frame {s : State} {a1 : _} {a2 : _} {a3 : _} : SameBut (State.stageLogic s a1 a2 a3) s
    [.regs, .cores, .bands, .fab, .pwr, .boot, .led] := by
  unfold State.stageLogic
  try dsimp only
  repeat' first
    | with_reducible exact SameBut.refl _ _
    | with_reducible assumption
    | with_reducible refine SameBut.call State.bistLs_frame (by decide) ?_
    | with_reducible refine SameBut.call State.bistSpad_frame (by decide) ?_
    | with_reducible refine SameBut.call State.retire_frame (by decide) ?_
    | with_reducible refine SameBut.call State.onCore_frame (by decide) ?_
    | with_reducible refine SameBut.call State.stageDone_frame (by decide) ?_
    | with_reducible refine SameBut.call State.onBand_frame (by decide) ?_
    | (with_reducible refine SameBut.each ?_ fun y a => ?_)
    | (with_reducible refine SameBut.foldl ?_ fun y a => ?_)

theorem State.useSection_frame {s : State} {a1 : _} {a2 : _} : SameBut (State.useSection s a1 a2).1 s [.regs, .inp,
    .boot] := by
  unfold State.useSection
  try dsimp only
  repeat' first
    | with_reducible exact SameBut.refl _ _
    | with_reducible assumption
    | with_reducible refine SameBut.call State.onBoot_frame (by decide) ?_
    | with_reducible refine SameBut.call State.onPort_frame (by decide) ?_
    | with_reducible refine SameBut.call State.setF_frame (by decide) ?_
    | (with_reducible refine SameBut.foldl ?_ fun y a => ?_)
    | (split <;> try dsimp only)

theorem State.stageSection_frame {s : State} {a1 : _} : SameBut (State.stageSection s a1) s [.regs, .dram, .dramBad,
    .cores, .bands, .prog, .inp, .cmp, .boot] := by
  unfold State.stageSection
  try dsimp only
  repeat' first
    | with_reducible exact SameBut.refl _ _
    | with_reducible assumption
    | with_reducible refine SameBut.call State.readConfig_frame (by decide) ?_
    | with_reducible refine SameBut.call State.bootFail_frame (by decide) ?_
    | with_reducible refine SameBut.call State.writeMem_frame (by decide) ?_
    | with_reducible refine SameBut.call State.useSection_frame (by decide) ?_
    | with_reducible refine SameBut.call State.onBoot_frame (by decide) ?_
    | with_reducible refine SameBut.call State.stageDone_frame (by decide) ?_
    | (split <;> try dsimp only)

theorem State.gatherProgram_frame {s : State} : SameBut (State.gatherProgram s) s [.prog] := by
  unfold State.gatherProgram
  try dsimp only
  repeat' first
    | with_reducible exact SameBut.refl _ _
    | with_reducible assumption
    | (with_reducible refine SameBut.foldl ?_ fun y a => ?_)
    | (split <;> try dsimp only)
    | ((with_reducible refine SameBut.upd rfl ?_ ?_); intro p hp; (cases p <;> (try (with_reducible rfl)));
        exact absurd (by decide) hp; (repeat (exact absurd (by decide) hp)))

theorem State.installSchedule_frame {s : State} {a1 : _} {a2 : _} : SameBut (State.installSchedule s a1 a2) s
    [.regs, .cores, .bands, .almanac, .sched, .noBase1, .change, .bucket, .pstate, .fc, .tau, .rtFirst] := by
  unfold State.installSchedule
  try dsimp only
  repeat' first
    | ((with_reducible refine SameBut.upd rfl ?_ ?_); intro p hp; (cases p <;> (try (with_reducible rfl)));
        exact absurd (by decide) hp; (repeat (exact absurd (by decide) hp)))
    | with_reducible exact SameBut.refl _ _
    | with_reducible assumption
    | with_reducible refine SameBut.call State.installTables_frame (by decide) ?_
    | with_reducible refine SameBut.call State.setFs_frame (by decide) ?_
    | with_reducible refine SameBut.call State.setGeometry_frame (by decide) ?_
    | with_reducible refine SameBut.call State.emptyCommitted_frame (by decide) ?_
    | with_reducible refine SameBut.call State.setSegs_frame (by decide) ?_
    | with_reducible refine SameBut.call State.installRt_frame (by decide) ?_

theorem State.gateFor_frame {s : State} {a1 : _} : SameBut (State.gateFor s a1) s [.regs, .cores, .bands] := by
  unfold State.gateFor
  try dsimp only
  repeat' first
    | with_reducible exact SameBut.refl _ _
    | with_reducible assumption
    | with_reducible refine SameBut.call State.gateBand_frame (by decide) ?_
    | with_reducible refine SameBut.call State.ungateBand_frame (by decide) ?_
    | (with_reducible refine SameBut.foldl ?_ fun y a => ?_)
    | (split <;> try dsimp only)

theorem State.loadSet_frame {s : State} : SameBut (State.loadSet s) s [.regs, .cores] := by
  unfold State.loadSet
  try dsimp only
  repeat' first
    | with_reducible exact SameBut.refl _ _
    | with_reducible assumption
    | with_reducible refine SameBut.call State.setF_frame (by decide) ?_
    | with_reducible refine SameBut.call State.incF_frame (by decide) ?_
    | with_reducible refine SameBut.call State.loadMset_frame (by decide) ?_
    | (with_reducible refine SameBut.each ?_ fun y a => ?_)
    | (split <;> try dsimp only)

theorem State.startBucket_frame {s : State} {a1 : _} : SameBut (State.startBucket s a1) s [.inp] := by
  unfold State.startBucket
  try dsimp only
  repeat' first
    | with_reducible exact SameBut.refl _ _
    | with_reducible assumption
    | with_reducible refine SameBut.call State.onInp_frame (by decide) ?_

theorem State.stageLoad_frame {s : State} : SameBut (State.stageLoad s) s [.regs, .dram, .dramBad, .cores, .bands,
    .prog, .almanac, .sched, .noBase1, .change, .bucket, .pstate, .fc, .inp, .tau, .rtFirst, .drz, .boot, .aud] :=
    by
  unfold State.stageLoad
  try dsimp only
  repeat' first
    | ((with_reducible refine SameBut.upd rfl ?_ ?_); intro p hp; (cases p <;> (try (with_reducible rfl)));
        exact absurd (by decide) hp; (repeat (exact absurd (by decide) hp)))
    | with_reducible exact SameBut.refl _ _
    | with_reducible assumption
    | with_reducible refine SameBut.call State.gatherProgram_frame (by decide) ?_
    | with_reducible refine SameBut.call State.bootFail_frame (by decide) ?_
    | with_reducible refine SameBut.call State.noteLoadFail_frame (by decide) ?_
    | with_reducible refine SameBut.call State.startBucket_frame (by decide) ?_
    | with_reducible refine SameBut.call State.loadSet_frame (by decide) ?_
    | with_reducible refine SameBut.call State.installSchedule_frame (by decide) ?_
    | with_reducible refine SameBut.call State.gateFor_frame (by decide) ?_
    | with_reducible refine SameBut.call State.drzReset_frame (by decide) ?_
    | with_reducible refine SameBut.call State.setF_frame (by decide) ?_
    | with_reducible refine SameBut.call State.recordingTake_frame (by decide) ?_
    | with_reducible refine SameBut.call State.putDigest_frame (by decide) ?_
    | with_reducible refine SameBut.call State.stageDone_frame (by decide) ?_
    | (with_reducible refine SameBut.each ?_ fun y a => ?_)
    | (split <;> try dsimp only)

theorem State.bootStep_frame {s : State} {a1 : _} : SameBut (State.bootStep s a1) s [.regs, .dram, .dramBad, .drm,
    .cores, .bands, .prog, .almanac, .sched, .noBase1, .change, .bucket, .pstate, .fc, .fab, .inp, .tau, .rtFirst,
    .drz, .cmp, .pwr, .boot, .aud, .led] := by
  unfold State.bootStep
  try dsimp only
  repeat' first
    | with_reducible exact SameBut.refl _ _
    | with_reducible assumption
    | with_reducible refine SameBut.call State.stageDone_frame (by decide) ?_
    | with_reducible refine SameBut.call State.onBoot_frame (by decide) ?_
    | with_reducible refine SameBut.call State.stageRom_frame (by decide) ?_
    | with_reducible refine SameBut.call State.stageFlash_frame (by decide) ?_
    | with_reducible refine SameBut.call State.stageDram_frame (by decide) ?_
    | with_reducible refine SameBut.call State.stageLedger_frame (by decide) ?_
    | with_reducible refine SameBut.call State.stageLogic_frame (by decide) ?_
    | with_reducible refine SameBut.call State.stageSection_frame (by decide) ?_
    | with_reducible refine SameBut.call State.stageLoad_frame (by decide) ?_
    | (split <;> try dsimp only)

theorem State.bootComplete_frame {s : State} : SameBut (State.bootComplete s) s [.now, .cal, .regs, .dram, .dramBad,
    .drm, .cores, .bands, .noBase1, .change, .firstLines, .fc, .fab, .inp, .arrived, .avail, .rtJ0, .ctx, .ctxNext,
    .warp, .drz, .frost, .cmp, .pnl, .fbNow, .fbNext, .pwr, .boot, .aud, .led, .tds] := by
  unfold State.bootComplete
  try dsimp only
  repeat' first
    | ((with_reducible refine SameBut.upd rfl ?_ ?_); intro p hp; (cases p <;> (try (with_reducible rfl)));
        exact absurd (by decide) hp; (repeat (exact absurd (by decide) hp)))
    | with_reducible exact SameBut.refl _ _
    | with_reducible assumption
    | with_reducible refine SameBut.call State.setFs_frame (by decide) ?_
    | with_reducible refine SameBut.call State.ledger_frame (by decide) ?_
    | with_reducible refine SameBut.call State.onBoot_frame (by decide) ?_
    | with_reducible refine SameBut.call State.onPwr_frame (by decide) ?_
    | with_reducible refine SameBut.call State.supplyRecord_frame (by decide) ?_
    | with_reducible refine SameBut.call State.trainingStart_frame (by decide) ?_
    | with_reducible refine SameBut.call State.hpdPulse_frame (by decide) ?_
    | with_reducible refine SameBut.call State.setF_frame (by decide) ?_
    | with_reducible refine SameBut.call State.modeCheck_frame (by decide) ?_
    | with_reducible refine SameBut.call State.rasterStart_frame (by decide) ?_
    | (split <;> try dsimp only)

theorem State.backSchedule_frame {x : State} {nb a b : Nat} :
    SameBut (({ x with pstate := nb } : State).installSchedule a b) x
      [.regs, .cores, .bands, .almanac, .sched, .noBase1, .change, .bucket, .pstate, .fc, .tau, .rtFirst] := by
  refine SameBut.call State.installSchedule_frame (by decide) ?_
  intro p hp
  cases p <;> first | with_reducible rfl | exact absurd (by decide) hp

theorem State.comeBack_frame {s : State} {a1 : _} : SameBut (State.comeBack s a1) s [.regs, .cores, .bands,
    .almanac, .sched, .noBase1, .change, .bucket, .pstate, .fc, .tau, .rtFirst, .frost] := by
  unfold State.comeBack
  extract_lets +onlyGivenNames i new h
  have hi : SameBut i s [.regs, .cores, .bands, .almanac, .sched, .noBase1, .change, .bucket, .pstate, .fc, .tau,
      .rtFirst, .frost] := State.backSchedule_frame.mono (by decide)
  clear_value new i
  have hh : SameBut h s [.regs, .cores, .bands, .almanac, .sched, .noBase1, .change, .bucket, .pstate, .fc, .tau,
      .rtFirst, .frost] := SameBut.ite (SameBut.call State.drzHist_frame (by decide) hi) hi
  clear_value h
  refine SameBut.trans (t := h) ?_ hh
  intro p hp
  cases p <;> first | with_reducible rfl | exact absurd (by decide) hp

theorem State.doldrumsExited_frame {s : State} : SameBut (State.doldrumsExited s) s [.now, .cal, .regs, .dram,
    .dramBad, .drm, .cores, .bands, .almanac, .sched, .noBase1, .change, .firstLines, .bucket, .pstate, .fc, .fab,
    .inp, .arrived, .avail, .tau, .rtFirst, .rtJ0, .ctx, .ctxNext, .warp, .drz, .frost, .cmp, .pnl, .fbNow, .fbNext,
    .pwr, .aud, .led, .tds] := by
  unfold State.doldrumsExited
  split
  · extract_lets +onlyGivenNames s0 nb bands s1 s2 s3 s4 s5 s6
    have h0 : SameBut s0 s [.now, .cal, .regs, .dram, .dramBad, .drm, .cores, .bands, .almanac, .sched, .noBase1,
        .change, .firstLines, .bucket, .pstate, .fc, .fab, .inp, .arrived, .avail, .tau, .rtFirst, .rtJ0, .ctx,
        .ctxNext, .warp, .drz, .frost, .cmp, .pnl, .fbNow, .fbNext, .pwr, .aud, .led, .tds] := SameBut.call
        State.setF_frame (by decide) (State.waitUntil_frame.mono (by decide))
    clear_value s0
    have h1 : SameBut s1 s [.now, .cal, .regs, .dram, .dramBad, .drm, .cores, .bands, .almanac, .sched, .noBase1,
        .change, .firstLines, .bucket, .pstate, .fc, .fab, .inp, .arrived, .avail, .tau, .rtFirst, .rtJ0, .ctx,
        .ctxNext, .warp, .drz, .frost, .cmp, .pnl, .fbNow, .fbNext, .pwr, .aud, .led, .tds] := SameBut.each
        (SameBut.each (SameBut.call State.gateFor_frame (by decide) h0)
      fun y a => State.onBand_frame.mono (by decide)) fun y a => State.onCore_frame.mono (by decide)
    clear_value s1
    have h2 : SameBut s2 s [.now, .cal, .regs, .dram, .dramBad, .drm, .cores, .bands, .almanac, .sched, .noBase1,
        .change, .firstLines, .bucket, .pstate, .fc, .fab, .inp, .arrived, .avail, .tau, .rtFirst, .rtJ0, .ctx,
        .ctxNext, .warp, .drz, .frost, .cmp, .pnl, .fbNow, .fbNext, .pwr, .aud, .led, .tds] := SameBut.call
        State.loadSet_frame (by decide) (SameBut.call State.comeBack_frame (by decide) h1)
    clear_value s2
    have h3 : SameBut s3 s [.now, .cal, .regs, .dram, .dramBad, .drm, .cores, .bands, .almanac, .sched, .noBase1,
        .change, .firstLines, .bucket, .pstate, .fc, .fab, .inp, .arrived, .avail, .tau, .rtFirst, .rtJ0, .ctx,
        .ctxNext, .warp, .drz, .frost, .cmp, .pnl, .fbNow, .fbNext, .pwr, .aud, .led, .tds] := SameBut.each h2 fun y
        a => by
      split
      · exact State.loadCore_frame.mono (by decide)
      · exact SameBut.refl _ _
    clear_value s3
    have h4 : SameBut s4 s [.now, .cal, .regs, .dram, .dramBad, .drm, .cores, .bands, .almanac, .sched, .noBase1,
        .change, .firstLines, .bucket, .pstate, .fc, .fab, .inp, .arrived, .avail, .tau, .rtFirst, .rtJ0, .ctx,
        .ctxNext, .warp, .drz, .frost, .cmp, .pnl, .fbNow, .fbNext, .pwr, .aud, .led, .tds] := SameBut.call
        State.transitionDone_frame (by decide) (SameBut.call State.hpdPulse_frame (by decide)
      (SameBut.call State.hpdPulse_frame (by decide) h3))
    clear_value s4
    have h5 : SameBut s5 s [.now, .cal, .regs, .dram, .dramBad, .drm, .cores, .bands, .almanac, .sched, .noBase1,
        .change, .firstLines, .bucket, .pstate, .fc, .fab, .inp, .arrived, .avail, .tau, .rtFirst, .rtJ0, .ctx,
        .ctxNext, .warp, .drz, .frost, .cmp, .pnl, .fbNow, .fbNext, .pwr, .aud, .led, .tds] := by
      unfold s5
      split
      · exact h4
      · exact SameBut.call State.rasterStart_frame (by decide) h4
    have h6 : SameBut s6 s [.now, .cal, .regs, .dram, .dramBad, .drm, .cores, .bands, .almanac, .sched, .noBase1,
        .change, .firstLines, .bucket, .pstate, .fc, .fab, .inp, .arrived, .avail, .tau, .rtFirst, .rtJ0, .ctx,
        .ctxNext, .warp, .drz, .frost, .cmp, .pnl, .fbNow, .fbNext, .pwr, .aud, .led, .tds] := by
      clear_value s5
      unfold s6
      split
      · exact h5
      · split
        · exact SameBut.call State.safeLeave_frame (by decide) h5
        · exact SameBut.call State.setF_frame (by decide) h5
    exact SameBut.call State.modeCheck_frame (by decide) (SameBut.call State.relink_frame (by decide) h6)
  · exact SameBut.refl _ _

end Sys2Proof.Machine
end

