-- ==== Sys2Proof/Laws/FrameFlags.lean ====
section
/-! SUPPORT. What each operation of Machine/Flags.lean can change: every field of the state but those listed stays. -/
namespace Sys2Proof.Machine

theorem State.noteStat_frame {a0 : State} {s : State} : SameBut (State.noteStat a0 s) s [] := by
  exact fun p _ => State.noteStat_same _ _ p

end Sys2Proof.Machine
end

