-- ==== Sys2Proof/Laws/FrameHost.lean ====
section
/-! SUPPORT. What each operation of Machine/Host.lean can change: every field of the state but those listed stays. -/
namespace Sys2Proof.Machine

theorem State.hostRead_frame {s : State} {a1 : _} : SameBut (State.hostRead s a1).2.2 s [.latch] := by
  unfold State.hostRead
  try dsimp only
  repeat' first
    | with_reducible exact SameBut.refl _ _
    | with_reducible assumption
    | (with_reducible refine SameBut.foldl ?_ fun y a => ?_)
    | (split <;> try dsimp only)
    | ((with_reducible refine SameBut.upd rfl ?_ ?_); intro p hp; (cases p <;> (try (with_reducible rfl)));
        exact absurd (by decide) hp; (repeat (exact absurd (by decide) hp)))

theorem State.writeField_frame {a0 : _} {s : State} {a2 : _} : SameBut (State.writeField a0 s a2) s [.regs] := by
  unfold State.writeField
  try dsimp only
  repeat' first
    | with_reducible exact SameBut.refl _ _
    | with_reducible assumption
    | with_reducible refine SameBut.call State.shareF_frame (by decide) ?_
    | with_reducible refine SameBut.call State.setF_frame (by decide) ?_
    | with_reducible refine SameBut.call State.clearF_frame (by decide) ?_
    | (split <;> try dsimp only)

theorem State.histClear_frame {s : State} {a1 : _} {a2 : _} : SameBut (State.histClear s a1 a2) s [.cores] := by
  unfold State.histClear
  try dsimp only
  repeat' first
    | with_reducible exact SameBut.refl _ _
    | with_reducible assumption
    | with_reducible refine SameBut.call State.onCore_frame (by decide) ?_

theorem State.writeEffect_frame {old s base : State} {blk : Blk} {o v : Nat}
    (ho : SameBut old base [.now, .cal, .regs, .dram, .dramBad, .cores, .bands, .change, .fc, .fab, .inp, .drz,
        .pnl, .pwr])
    (hs : SameBut s base [.now, .cal, .regs, .dram, .dramBad, .cores, .bands, .change, .fc, .fab, .inp, .drz, .pnl,
        .pwr]) :
    SameBut (State.writeEffect old s blk o v) base [.now, .cal, .regs, .dram, .dramBad, .cores, .bands, .change,
        .fc, .fab, .inp, .drz, .pnl, .pwr] := by
  unfold State.writeEffect
  dsimp only
  repeat' first
    | with_reducible assumption
    | with_reducible refine SameBut.call State.hpdPulse_frame (by decide) ?_
    | with_reducible refine SameBut.call State.modeCheck_frame (by decide) ?_
    | with_reducible refine SameBut.call State.retrain_frame (by decide) ?_
    | with_reducible refine SameBut.call State.enSet_frame (by decide) ?_
    | with_reducible refine SameBut.call State.enClear_frame (by decide) ?_
    | with_reducible refine SameBut.call State.snapArm_frame (by decide) ?_
    | with_reducible refine SameBut.call State.snapCancel_frame (by decide) ?_
    | with_reducible refine SameBut.call State.restoreAsk_frame (by decide) ?_
    | with_reducible refine SameBut.call State.drzReset_frame (by decide) ?_
    | with_reducible refine SameBut.call State.histClear_frame (by decide) ?_
    | with_reducible refine SameBut.call State.hostAbort_frame (by decide) ?_
    | with_reducible refine SameBut.call State.hostRetry_frame (by decide) ?_
    | (split <;> try dsimp only)

theorem State.regWrite_frame {s : State} {a1 : _} {a2 : _} : SameBut (State.regWrite s a1 a2).2 s [.now, .cal,
    .regs, .dram, .dramBad, .cores, .bands, .change, .fc, .fab, .inp, .drz, .pnl, .pwr] := by
  unfold State.regWrite
  split
  · exact State.incF_frame.mono (by decide)
  split
  · split
    · exact State.incF_frame.mono (by decide)
    · split
      · exact SameBut.refl _ _
      · exact State.writeEffect_frame (SameBut.refl _ _) (SameBut.foldl (SameBut.refl _ _) fun y a =>
          State.writeField_frame.mono (by decide))
  · exact SameBut.refl _ _

theorem State.hostRefuse_frame {s : State} : SameBut (State.hostRefuse s).2 s [.regs] := by
  unfold State.hostRefuse
  try dsimp only
  repeat' first
    | with_reducible exact SameBut.refl _ _
    | with_reducible assumption
    | with_reducible refine SameBut.call State.incF_frame (by decide) ?_

theorem State.hostMemRead_frame {s : State} {a1 : _} {a2 : _} : SameBut (State.hostMemRead s a1 a2).2.2 s [.regs] :=
    by
  unfold State.hostMemRead
  try dsimp only
  repeat' first
    | with_reducible exact SameBut.refl _ _
    | with_reducible assumption
    | with_reducible refine SameBut.call State.hostRefuse_frame (by decide) ?_
    | (split <;> try dsimp only)

theorem State.hostMemWrite_frame {s : State} {a1 : _} {a2 : _} : SameBut (State.hostMemWrite s a1 a2).2 s [.regs,
    .dram, .dramBad, .cores, .bands] := by
  unfold State.hostMemWrite
  try dsimp only
  repeat' first
    | with_reducible exact SameBut.refl _ _
    | with_reducible assumption
    | with_reducible refine SameBut.call State.hostRefuse_frame (by decide) ?_
    | with_reducible refine SameBut.call State.writeMem_frame (by decide) ?_
    | (split <;> try dsimp only)

theorem State.pageWrite_frame {s : State} {a1 : _} {a2 : _} : SameBut (State.pageWrite s a1 a2).2 s [.regs, .dram,
    .dramBad, .cores, .bands] := by
  unfold State.pageWrite
  try dsimp only
  repeat' first
    | with_reducible exact SameBut.refl _ _
    | with_reducible assumption
    | with_reducible refine SameBut.call State.hostRefuse_frame (by decide) ?_
    | with_reducible refine SameBut.call State.writeMem_frame (by decide) ?_
    | (split <;> try dsimp only)

theorem State.recordWrite_frame {a0 : State} {a1 : _} {a2 : _} {a3 : _} {s : State} : SameBut (State.recordWrite a0
    a1 a2 a3 s) s [.aud] := by
  unfold State.recordWrite
  try dsimp only
  repeat' first
    | with_reducible exact SameBut.refl _ _
    | with_reducible assumption
    | with_reducible refine SameBut.call State.logPut_frame (by decide) ?_
    | (split <;> try dsimp only)

theorem State.loggedWrite_frame {s : State} {a1 : _} {a2 : _} : SameBut (State.loggedWrite s a1 a2).2 s [.now, .cal,
    .regs, .dram, .dramBad, .cores, .bands, .change, .fc, .fab, .inp, .drz, .pnl, .pwr, .aud] := by
  unfold State.loggedWrite
  try dsimp only
  repeat' first
    | with_reducible exact SameBut.refl _ _
    | with_reducible assumption
    | with_reducible refine SameBut.call State.regWrite_frame (by decide) ?_
    | with_reducible refine SameBut.call State.recordWrite_frame (by decide) ?_
    | (split <;> try dsimp only)

theorem State.loggedMem_frame {s : State} {a1 : _} {a2 : _} {a3 : _} : SameBut (State.loggedMem s a1 a2 a3).2 s
    [.regs, .dram, .dramBad, .cores, .bands, .aud] := by
  unfold State.loggedMem
  try dsimp only
  repeat' first
    | with_reducible exact SameBut.refl _ _
    | with_reducible assumption
    | with_reducible refine SameBut.call State.hostMemWrite_frame (by decide) ?_
    | with_reducible refine SameBut.call State.pageWrite_frame (by decide) ?_
    | with_reducible refine SameBut.call State.recordWrite_frame (by decide) ?_
    | (split <;> try dsimp only)

theorem State.applyWrite_frame {s : State} {a1 : _} {a2 : _} {a3 : _} : SameBut (State.applyWrite s a1 a2 a3) s
    [.now, .cal, .regs, .dram, .dramBad, .cores, .bands, .change, .fc, .fab, .inp, .drz, .pnl, .pwr, .aud] := by
  unfold State.applyWrite
  try dsimp only
  repeat' first
    | with_reducible exact SameBut.refl _ _
    | with_reducible assumption
    | with_reducible refine SameBut.call State.loggedWrite_frame (by decide) ?_
    | with_reducible refine SameBut.call State.loggedMem_frame (by decide) ?_
    | (split <;> try dsimp only)

end Sys2Proof.Machine
end

