-- ==== Sys2Proof/Laws/FrameNet.lean ====
section
/-! SUPPORT. What each operation of Machine/Net.lean can change: every field of the state but those listed stays. -/
namespace Sys2Proof.Machine

theorem State.onTpl_frame {s : State} {a1 : _} : SameBut (State.onTpl s a1) s [.tpl] := by
  unfold State.onTpl
  try dsimp only
  repeat' first
    | with_reducible exact SameBut.refl _ _
    | with_reducible assumption
    | (split <;> try dsimp only)
    | ((with_reducible refine SameBut.upd rfl ?_ ?_); intro p hp; (cases p <;> (try (with_reducible rfl)));
        exact absurd (by decide) hp; (repeat (exact absurd (by decide) hp)))

theorem State.netSend_frame {s : State} {a1 : _} {a2 : _} {a3 : _} {a4 : _} : SameBut (State.netSend s a1 a2 a3 a4)
    s [.tpl] := by
  unfold State.netSend
  try dsimp only
  repeat' first
    | with_reducible exact SameBut.refl _ _
    | with_reducible assumption
    | with_reducible refine SameBut.call State.onTpl_frame (by decide) ?_
    | (split <;> try dsimp only)

theorem State.discard_frame {s : State} : SameBut (State.discard s) s [.regs] := by
  unfold State.discard
  try dsimp only
  repeat' first
    | with_reducible exact SameBut.refl _ _
    | with_reducible assumption
    | with_reducible refine SameBut.call State.incF_frame (by decide) ?_

theorem State.phyUp_frame {s : State} {a1 : _} : SameBut (State.phyUp s a1) s [.regs] := by
  unfold State.phyUp
  try dsimp only
  repeat' first
    | with_reducible exact SameBut.refl _ _
    | with_reducible assumption
    | with_reducible refine SameBut.call State.setFs_frame (by decide) ?_
    | (split <;> try dsimp only)

theorem State.phyDown_frame {s : State} {a1 : _} : SameBut (State.phyDown s a1) s [.regs] := by
  unfold State.phyDown
  try dsimp only
  repeat' first
    | with_reducible exact SameBut.refl _ _
    | with_reducible assumption
    | with_reducible refine SameBut.call State.incF_frame (by decide) ?_
    | with_reducible refine SameBut.call State.setF_frame (by decide) ?_
    | (split <;> try dsimp only)

end Sys2Proof.Machine
end

