-- ==== Sys2Proof/Laws/FrameReplay.lean ====
section
/-! SUPPORT. What each operation of Machine/Replay.lean can change: every field of the state but those listed stays. -/
namespace Sys2Proof.Machine

theorem State.replayWrite_frame {s : State} {a1 : _} : SameBut (State.replayWrite s a1) s [.now, .cal, .regs, .dram,
    .dramBad, .cores, .bands, .change, .fc, .fab, .inp, .drz, .pnl, .pwr, .aud] := by
  unfold State.replayWrite
  try dsimp only
  repeat' first
    | with_reducible exact SameBut.refl _ _
    | with_reducible assumption
    | with_reducible refine SameBut.call State.applyWrite_frame (by decide) ?_

theorem State.setAud_frame {x : State} {a : AudSt} : SameBut { x with aud := a } x [.aud] := by
  intro p hp
  cases p <;> first | with_reducible rfl | exact absurd (by decide) hp

theorem State.replayGo_frame {s : State} : SameBut (State.replayGo s) s [.now, .cal, .regs, .dram, .dramBad, .drm,
    .cores, .bands, .noBase1, .change, .firstLines, .fc, .fab, .inp, .arrived, .avail, .rtJ0, .ctx, .ctxNext, .warp,
    .drz, .frost, .cmp, .pnl, .fbNow, .fbNext, .pwr, .aud, .led, .tds] := by
  unfold State.replayGo
  extract_lets +onlyGivenNames es u0 s0
  have h0 : SameBut s0 s [.now, .cal, .regs, .dram, .dramBad, .drm, .cores, .bands, .noBase1, .change, .firstLines,
      .fc, .fab, .inp, .arrived, .avail, .rtJ0, .ctx, .ctxNext, .warp, .drz, .frost, .cmp, .pnl, .fbNow, .fbNext,
      .pwr, .aud, .led, .tds] := State.setAud_frame.mono (by decide)
  clear_value s0
  split
  · exact SameBut.call State.modeCheck_frame (by decide) (SameBut.call State.rasterStart_frame (by decide)
      (SameBut.call State.setF_frame (by decide) h0))
  · extract_lets +onlyGivenNames early s1
    have h1 : SameBut s1 s [.now, .cal, .regs, .dram, .dramBad, .drm, .cores, .bands, .noBase1, .change,
        .firstLines, .fc, .fab, .inp, .arrived, .avail, .rtJ0, .ctx, .ctxNext, .warp, .drz, .frost, .cmp, .pnl,
        .fbNow, .fbNext, .pwr, .aud, .led, .tds] := SameBut.call State.setF_frame (by decide)
      (SameBut.foldl h0 fun y a => State.replayWrite_frame.mono (by decide))
    clear_value s1
    exact SameBut.call State.rasterStart_frame (by decide) (SameBut.call State.setAud_frame (by decide) h1)

theorem State.replayApply_frame {s : State} : SameBut (State.replayApply s) s [.now, .cal, .regs, .dram, .dramBad,
    .cores, .bands, .change, .fc, .fab, .inp, .drz, .pnl, .pwr, .aud] := by
  unfold State.replayApply
  try dsimp only
  repeat' first
    | with_reducible exact SameBut.refl _ _
    | with_reducible assumption
    | with_reducible refine SameBut.call State.diverge_frame (by decide) ?_
    | with_reducible refine SameBut.call State.incF_frame (by decide) ?_
    | with_reducible refine SameBut.call State.waitUntil_frame (by decide) ?_
    | with_reducible refine SameBut.call State.replayWrite_frame (by decide) ?_
    | (split <;> try dsimp only)
    | ((with_reducible refine SameBut.upd rfl ?_ ?_); intro p hp; (cases p <;> (try (with_reducible rfl)));
        exact absurd (by decide) hp; (repeat (exact absurd (by decide) hp)))

theorem State.replayFinish_frame {s : State} : SameBut (State.replayFinish s) s [.now, .cal, .regs, .cores, .bands,
    .aud] := by
  unfold State.replayFinish
  try dsimp only
  repeat' first
    | with_reducible exact SameBut.refl _ _
    | with_reducible assumption
    | with_reducible refine SameBut.call State.waitUntil_frame (by decide) ?_
    | with_reducible refine SameBut.call State.setF_frame (by decide) ?_
    | (split <;> try dsimp only)
    | ((with_reducible refine SameBut.upd rfl ?_ ?_); intro p hp; (cases p <;> (try (with_reducible rfl)));
        exact absurd (by decide) hp; (repeat (exact absurd (by decide) hp)))

theorem State.replayRefuse_frame {s : State} : SameBut (State.replayRefuse s).2 s [.regs] := by
  unfold State.replayRefuse
  try dsimp only
  repeat' first
    | with_reducible exact SameBut.refl _ _
    | with_reducible assumption
    | with_reducible refine SameBut.call State.incF_frame (by decide) ?_

theorem State.hostWrite_frame {s : State} {a1 : _} {a2 : _} : SameBut (State.hostWrite s a1 a2).2 s [.now, .cal,
    .regs, .dram, .dramBad, .drm, .cores, .bands, .noBase1, .change, .firstLines, .fc, .fab, .inp, .arrived, .avail,
    .rtJ0, .ctx, .ctxNext, .warp, .drz, .frost, .cmp, .pnl, .fbNow, .fbNext, .pwr, .aud, .led, .tds] := by
  unfold State.hostWrite
  try dsimp only
  repeat' first
    | with_reducible exact SameBut.refl _ _
    | with_reducible assumption
    | with_reducible refine SameBut.call State.replayRefuse_frame (by decide) ?_
    | with_reducible refine SameBut.call State.loggedWrite_frame (by decide) ?_
    | with_reducible refine SameBut.call State.replayGo_frame (by decide) ?_
    | (split <;> try dsimp only)

theorem State.hostMem_frame {s : State} {a1 : _} {a2 : _} : SameBut (State.hostMem s a1 a2).2 s [.regs, .dram,
    .dramBad, .cores, .bands, .aud] := by
  unfold State.hostMem
  try dsimp only
  repeat' first
    | with_reducible exact SameBut.refl _ _
    | with_reducible assumption
    | with_reducible refine SameBut.call State.replayRefuse_frame (by decide) ?_
    | with_reducible refine SameBut.call State.loggedMem_frame (by decide) ?_
    | (split <;> try dsimp only)

theorem State.hostPage_frame {s : State} {a1 : _} {a2 : _} : SameBut (State.hostPage s a1 a2).2 s [.regs, .dram,
    .dramBad, .cores, .bands, .aud] := by
  unfold State.hostPage
  try dsimp only
  repeat' first
    | with_reducible exact SameBut.refl _ _
    | with_reducible assumption
    | with_reducible refine SameBut.call State.replayRefuse_frame (by decide) ?_
    | with_reducible refine SameBut.call State.loggedMem_frame (by decide) ?_
    | (split <;> try dsimp only)

end Sys2Proof.Machine
end

