-- ==== Sys2Proof/Laws/FrameTerpel.lean ====
section
/-! SUPPORT. What each operation of Machine/Terpel.lean can change: every field of the state but those listed stays. -/
namespace Sys2Proof.Machine

theorem State.sendMsg_frame {s : State} {a1 : _} {a2 : _} : SameBut (State.sendMsg s a1 a2) s [.tpl] := by
  unfold State.sendMsg
  try dsimp only
  repeat' first
    | with_reducible exact SameBut.refl _ _
    | with_reducible assumption
    | with_reducible refine SameBut.call State.netSend_frame (by decide) ?_

theorem State.reply_frame {s : State} {a1 : _} {a2 : _} {a3 : _} {a4 : _} : SameBut (State.reply s a1 a2 a3 a4) s
    [.regs, .tpl] := by
  unfold State.reply
  try dsimp only
  repeat' first
    | with_reducible exact SameBut.refl _ _
    | with_reducible assumption
    | with_reducible refine SameBut.call State.onTpl_frame (by decide) ?_
    | with_reducible refine SameBut.call State.incFs_frame (by decide) ?_
    | with_reducible refine SameBut.call State.sendMsg_frame (by decide) ?_
    | (split <;> try dsimp only)

theorem State.answerBad_frame {a0 : _} {s : State} : SameBut (State.answerBad a0 s) s [.regs, .tpl] := by
  induction a0 generalizing s with
  | zero => exact SameBut.refl _ _
  | succ n ih =>
    unfold State.answerBad
    split
    · exact SameBut.refl _ _
    · split
      · exact SameBut.call ih (by decide) (SameBut.call State.reply_frame (by decide) (SameBut.refl _ _))
      · split
        · exact SameBut.call ih (by decide) (SameBut.call State.reply_frame (by decide) (SameBut.refl _ _))
        · exact SameBut.refl _ _

theorem State.finish_frame {s : State} {a1 : _} {a2 : _} {a3 : _} {a4 : _} : SameBut (State.finish s a1 a2 a3 a4) s
    [.regs, .tpl] := by
  unfold State.finish
  try dsimp only
  repeat' first
    | with_reducible exact SameBut.refl _ _
    | with_reducible assumption
    | with_reducible refine SameBut.call State.answerBad_frame (by decide) ?_
    | with_reducible refine SameBut.call State.reply_frame (by decide) ?_

theorem State.takeRequest_frame {s : State} {a1 : _} : SameBut (State.takeRequest s a1) s [.regs, .tpl] := by
  unfold State.takeRequest
  try dsimp only
  repeat' first
    | with_reducible exact SameBut.refl _ _
    | with_reducible assumption
    | with_reducible refine SameBut.call State.discard_frame (by decide) ?_
    | with_reducible refine SameBut.call State.incF_frame (by decide) ?_
    | with_reducible refine SameBut.call State.answerBad_frame (by decide) ?_
    | with_reducible refine SameBut.call State.onTpl_frame (by decide) ?_
    | (split <;> try dsimp only)

theorem State.frameRx_frame {s : State} {a1 : _} {a2 : _} : SameBut (State.frameRx s a1 a2) s [.regs, .tpl] := by
  unfold State.frameRx
  try dsimp only
  repeat' first
    | with_reducible exact SameBut.refl _ _
    | with_reducible assumption
    | with_reducible refine SameBut.call State.discard_frame (by decide) ?_
    | with_reducible refine SameBut.call State.netSend_frame (by decide) ?_
    | with_reducible refine SameBut.call State.takeRequest_frame (by decide) ?_
    | (split <;> try dsimp only)

theorem State.noteAccepted_frame {s : State} {a1 : _} : SameBut (State.noteAccepted s a1) s [.regs, .tpl] := by
  unfold State.noteAccepted
  try dsimp only
  repeat' first
    | with_reducible exact SameBut.refl _ _
    | with_reducible assumption
    | with_reducible refine SameBut.call State.onTpl_frame (by decide) ?_
    | with_reducible refine SameBut.call State.setF_frame (by decide) ?_

theorem State.closeSession_frame {s : State} : SameBut (State.closeSession s) s [.regs, .tpl] := by
  unfold State.closeSession
  try dsimp only
  repeat' first
    | with_reducible exact SameBut.refl _ _
    | with_reducible assumption
    | with_reducible refine SameBut.call State.onTpl_frame (by decide) ?_
    | with_reducible refine SameBut.call State.setF_frame (by decide) ?_

theorem State.serve_frame {s : State} {n : Nat} {f : State → Req → Option Accepted → State} {ps : List Part}
    (hq : [Part.regs, Part.tpl] ⊆ ps) (hf : ∀ y r au, SameBut (f y r au) y ps) : SameBut (s.serve n f) s ps := by
  have fin : ∀ (y : State) r au st p, SameBut y s ps → SameBut (y.finish r au st p) s ps :=
    fun y r au st p h => SameBut.call State.finish_frame hq h
  have go : ∀ (y : State) (r : Req) au, SameBut y s ps → SameBut (match y.notServed r with
      | some st => y.finish r au st []
      | none => f y r au) s ps := by
    intro y r au h
    split
    · exact fin _ _ _ _ _ h
    · exact (hf y r au).trans h
  unfold State.serve
  split
  · exact SameBut.refl _ _
  · dsimp only
    split
    · exact SameBut.refl _ _
    · split
      · split
        · exact fin _ _ _ _ _ (SameBut.refl _ _)
        · refine SameBut.call State.answerBad_frame hq (SameBut.call State.onTpl_frame (List.Subset.trans (by
            decide) hq)
            (SameBut.call State.incFs_frame (List.Subset.trans (by decide) hq) (SameBut.call State.sendMsg_frame
                (List.Subset.trans (by decide) hq) (SameBut.refl _ _))))
        · exact go _ _ _ (SameBut.call State.noteAccepted_frame (List.Subset.trans (by decide) hq) (SameBut.refl _ _))
      · split
        · exact fin _ _ _ _ _ (SameBut.refl _ _)
        · exact go _ _ _ (SameBut.refl _ _)

theorem State.readRegs_frame {a0 : _} {a1 : _} {a2 : _} {s : State} {a4 : _} {a5 : _} : SameBut (State.readRegs a0
    a1 a2 s a4 a5).2.2 s [.now, .cal, .regs, .latch, .cores, .bands] := by
  induction a1 generalizing s a2 a4 a5 with
  | zero => exact SameBut.refl _ _
  | succ n ih =>
    unfold State.readRegs
    dsimp only
    refine ih.trans ?_
    repeat' first
      | with_reducible exact SameBut.refl _ _
      | with_reducible refine SameBut.call State.hostRead_frame (by decide) ?_
      | with_reducible refine SameBut.call State.advance_frame (by decide) ?_
      | (split <;> try dsimp only)

theorem State.tplReadReg_frame {s : State} : SameBut (State.tplReadReg s) s [.now, .cal, .regs, .latch, .cores,
    .bands, .tpl] := by
  unfold State.tplReadReg
  refine State.serve_frame (by decide) fun y r au => ?_
  try dsimp only
  repeat' first
    | with_reducible exact SameBut.refl _ _
    | with_reducible assumption
    | with_reducible refine SameBut.call State.finish_frame (by decide) ?_
    | with_reducible refine SameBut.call State.incF_frame (by decide) ?_
    | with_reducible refine SameBut.call State.readRegs_frame (by decide) ?_
    | (split <;> try dsimp only)

theorem State.writeEntry_frame {s : State} {a1 : _} {a2 : _} {a3 : _} : SameBut (State.writeEntry s a1 a2 a3).2 s
    [.now, .cal, .regs, .dram, .dramBad, .drm, .cores, .bands, .noBase1, .change, .firstLines, .fc, .fab, .inp,
    .arrived, .avail, .rtJ0, .ctx, .ctxNext, .warp, .drz, .frost, .cmp, .pnl, .fbNow, .fbNext, .pwr, .aud, .led,
    .tds] := by
  unfold State.writeEntry
  try dsimp only
  repeat' first
    | with_reducible exact SameBut.refl _ _
    | with_reducible assumption
    | with_reducible refine SameBut.call State.incF_frame (by decide) ?_
    | with_reducible refine SameBut.call State.hostWrite_frame (by decide) ?_
    | (split <;> try dsimp only)

theorem State.writeEntries_frame {a0 : _} {a1 : _} {a2 : _} {s : State} {a4 : _} : SameBut (State.writeEntries a0 a1
    a2 s a4).2 s [.now, .cal, .regs, .dram, .dramBad, .drm, .cores, .bands, .noBase1, .change, .firstLines, .fc,
    .fab, .inp, .arrived, .avail, .rtJ0, .ctx, .ctxNext, .warp, .drz, .frost, .cmp, .pnl, .fbNow, .fbNext, .pwr,
    .aud, .led, .tds] := by
  induction a1 generalizing s a2 a4 with
  | nil => exact SameBut.refl _ _
  | cons e es ih =>
    unfold State.writeEntries
    dsimp only
    refine ih.trans ?_
    repeat' first
      | with_reducible exact SameBut.refl _ _
      | with_reducible refine SameBut.call State.writeEntry_frame (by decide) ?_
      | with_reducible refine SameBut.call State.advance_frame (by decide) ?_
      | (split <;> try dsimp only)

theorem State.tplWriteReg_frame {s : State} : SameBut (State.tplWriteReg s) s [.now, .cal, .regs, .dram, .dramBad,
    .drm, .cores, .bands, .noBase1, .change, .firstLines, .fc, .fab, .inp, .arrived, .avail, .rtJ0, .ctx, .ctxNext,
    .warp, .drz, .frost, .cmp, .pnl, .fbNow, .fbNext, .pwr, .aud, .led, .tpl, .tds] := by
  unfold State.tplWriteReg
  refine State.serve_frame (by decide) fun y r au => ?_
  try dsimp only
  repeat' first
    | with_reducible exact SameBut.refl _ _
    | with_reducible assumption
    | with_reducible refine SameBut.call State.finish_frame (by decide) ?_
    | with_reducible refine SameBut.call State.writeEntries_frame (by decide) ?_
    | (with_reducible refine SameBut.foldl ?_ fun y a => ?_)
    | (split <;> try dsimp only)

theorem State.tplReadMem_frame {s : State} : SameBut (State.tplReadMem s) s [.regs, .tpl] := by
  unfold State.tplReadMem
  refine State.serve_frame (by decide) fun y r au => ?_
  try dsimp only
  repeat' first
    | with_reducible exact SameBut.refl _ _
    | with_reducible assumption
    | with_reducible refine SameBut.call State.finish_frame (by decide) ?_
    | with_reducible refine SameBut.call State.hostMemRead_frame (by decide) ?_
    | (split <;> try dsimp only)

theorem State.tplWriteMem_frame {s : State} : SameBut (State.tplWriteMem s) s [.regs, .dram, .dramBad, .cores,
    .bands, .aud, .tpl] := by
  unfold State.tplWriteMem
  refine State.serve_frame (by decide) fun y r au => ?_
  try dsimp only
  repeat' first
    | with_reducible exact SameBut.refl _ _
    | with_reducible assumption
    | with_reducible refine SameBut.call State.finish_frame (by decide) ?_
    | with_reducible refine SameBut.call State.hostMem_frame (by decide) ?_
    | (split <;> try dsimp only)

theorem State.tplLoadPage_frame {s : State} : SameBut (State.tplLoadPage s) s [.regs, .dram, .dramBad, .cores,
    .bands, .aud, .tpl] := by
  unfold State.tplLoadPage
  refine State.serve_frame (by decide) fun y r au => ?_
  try dsimp only
  repeat' first
    | with_reducible exact SameBut.refl _ _
    | with_reducible assumption
    | with_reducible refine SameBut.call State.finish_frame (by decide) ?_
    | with_reducible refine SameBut.call State.replayRefuse_frame (by decide) ?_
    | with_reducible refine SameBut.call State.hostRefuse_frame (by decide) ?_
    | with_reducible refine SameBut.call State.onTpl_frame (by decide) ?_
    | with_reducible refine SameBut.call State.hostPage_frame (by decide) ?_
    | (split <;> try dsimp only)

theorem State.tplStatus_frame {s : State} : SameBut (State.tplStatus s) s [.regs, .tpl] := by
  unfold State.tplStatus
  refine State.serve_frame (by decide) fun y r au => ?_
  try dsimp only
  repeat' first
    | with_reducible exact SameBut.refl _ _
    | with_reducible assumption
    | with_reducible refine SameBut.call State.finish_frame (by decide) ?_
    | with_reducible refine SameBut.call State.onTpl_frame (by decide) ?_
    | (split <;> try dsimp only)

theorem State.boundaryStatus_frame {a0 : State} {s : State} : SameBut (State.boundaryStatus a0 s) s [.regs, .tpl] :=
    by
  unfold State.boundaryStatus
  split
  · split
    · exact SameBut.refl _ _
    · exact SameBut.call State.finish_frame (by decide) (State.noteStat_frame.mono (by decide))
  · exact SameBut.refl _ _

theorem State.tplRecords_frame {s : State} : SameBut (State.tplRecords s) s [.regs, .tpl] := by
  unfold State.tplRecords
  refine State.serve_frame (by decide) fun y r au => ?_
  try dsimp only
  repeat' first
    | with_reducible exact SameBut.refl _ _
    | with_reducible assumption
    | with_reducible refine SameBut.call State.finish_frame (by decide) ?_
    | (split <;> try dsimp only)

theorem State.tplIdent_frame {s : State} : SameBut (State.tplIdent s) s [.regs, .tpl] := by
  unfold State.tplIdent
  refine State.serve_frame (by decide) fun y r au => ?_
  try dsimp only
  repeat' first
    | with_reducible exact SameBut.refl _ _
    | with_reducible assumption
    | with_reducible refine SameBut.call State.finish_frame (by decide) ?_
    | (split <;> try dsimp only)

theorem State.tplAttest_frame {s : State} : SameBut (State.tplAttest s) s [.free, .regs, .tpl] := by
  unfold State.tplAttest
  refine State.serve_frame (by decide) fun y r au => ?_
  try dsimp only
  repeat' first
    | ((with_reducible refine SameBut.upd rfl ?_ ?_); intro p hp; (cases p <;> (try (with_reducible rfl)));
        exact absurd (by decide) hp; (repeat (exact absurd (by decide) hp)))
    | with_reducible exact SameBut.refl _ _
    | with_reducible assumption
    | with_reducible refine SameBut.call State.finish_frame (by decide) ?_
    | with_reducible refine SameBut.call State.fresh_frame (by decide) ?_
    | with_reducible refine SameBut.call State.incF_frame (by decide) ?_
    | (split <;> try dsimp only)

theorem State.tplChallenge_frame {s : State} : SameBut (State.tplChallenge s) s [.free, .regs, .tpl] := by
  unfold State.tplChallenge
  refine State.serve_frame (by decide) fun y r au => ?_
  try dsimp only
  repeat' first
    | ((with_reducible refine SameBut.upd rfl ?_ ?_); intro p hp; (cases p <;> (try (with_reducible rfl)));
        exact absurd (by decide) hp; (repeat (exact absurd (by decide) hp)))
    | with_reducible exact SameBut.refl _ _
    | with_reducible assumption
    | with_reducible refine SameBut.call State.finish_frame (by decide) ?_
    | with_reducible refine SameBut.call State.fresh_frame (by decide) ?_
    | with_reducible refine SameBut.call State.setF_frame (by decide) ?_
    | with_reducible refine SameBut.call State.onTpl_frame (by decide) ?_
    | (split <;> try dsimp only)

theorem State.openFails_frame {s : State} : SameBut (State.openFails s) s [.regs, .tpl] := by
  unfold State.openFails
  try dsimp only
  repeat' first
    | with_reducible exact SameBut.refl _ _
    | with_reducible assumption
    | with_reducible refine SameBut.call State.incF_frame (by decide) ?_
    | with_reducible refine SameBut.call State.setF_frame (by decide) ?_
    | with_reducible refine SameBut.call State.onTpl_frame (by decide) ?_
    | (split <;> try dsimp only)

theorem State.tplOpen_frame {s : State} : SameBut (State.tplOpen s) s [.regs, .tpl] := by
  unfold State.tplOpen
  refine State.serve_frame (by decide) fun y r au => ?_
  try dsimp only
  repeat' first
    | with_reducible exact SameBut.refl _ _
    | with_reducible assumption
    | with_reducible refine SameBut.call State.finish_frame (by decide) ?_
    | with_reducible refine SameBut.call State.setF_frame (by decide) ?_
    | with_reducible refine SameBut.call State.onTpl_frame (by decide) ?_
    | with_reducible refine SameBut.call State.openFails_frame (by decide) ?_
    | with_reducible refine SameBut.call State.incF_frame (by decide) ?_
    | with_reducible refine SameBut.call State.setFs_frame (by decide) ?_
    | (split <;> try dsimp only)

theorem State.tplClose_frame {s : State} : SameBut (State.tplClose s) s [.regs, .tpl] := by
  unfold State.tplClose
  refine State.serve_frame (by decide) fun y r au => ?_
  try dsimp only
  repeat' first
    | with_reducible exact SameBut.refl _ _
    | with_reducible assumption
    | with_reducible refine SameBut.call State.finish_frame (by decide) ?_
    | with_reducible refine SameBut.call State.closeSession_frame (by decide) ?_
    | (split <;> try dsimp only)

theorem State.tplPower_frame {s : State} : SameBut (State.tplPower s) s [.regs, .change, .pwr, .tpl] := by
  unfold State.tplPower
  refine State.serve_frame (by decide) fun y r au => ?_
  try dsimp only
  repeat' first
    | with_reducible exact SameBut.refl _ _
    | with_reducible assumption
    | with_reducible refine SameBut.call State.finish_frame (by decide) ?_
    | with_reducible refine SameBut.call State.powerRequest_frame (by decide) ?_
    | (split <;> try dsimp only)

theorem State.tplReset_frame {s : State} : SameBut (State.tplReset s) s [.regs, .boot, .tpl] := by
  unfold State.tplReset
  refine State.serve_frame (by decide) fun y r au => ?_
  try dsimp only
  repeat' first
    | with_reducible exact SameBut.refl _ _
    | with_reducible assumption
    | with_reducible refine SameBut.call State.finish_frame (by decide) ?_
    | with_reducible refine SameBut.call State.startReset_frame (by decide) ?_
    | (split <;> try dsimp only)

theorem State.chalExpiry_frame {s : State} : SameBut (State.chalExpiry s) s [.now, .cal, .regs, .cores, .bands,
    .tpl] := by
  unfold State.chalExpiry
  try dsimp only
  repeat' first
    | with_reducible exact SameBut.refl _ _
    | with_reducible assumption
    | with_reducible refine SameBut.call State.setF_frame (by decide) ?_
    | with_reducible refine SameBut.call State.onTpl_frame (by decide) ?_
    | with_reducible refine SameBut.call State.waitUntil_frame (by decide) ?_
    | (split <;> try dsimp only)

theorem State.lockoutEnd_frame {s : State} : SameBut (State.lockoutEnd s) s [.now, .cal, .regs, .cores, .bands,
    .tpl] := by
  unfold State.lockoutEnd
  try dsimp only
  repeat' first
    | with_reducible exact SameBut.refl _ _
    | with_reducible assumption
    | with_reducible refine SameBut.call State.setF_frame (by decide) ?_
    | with_reducible refine SameBut.call State.onTpl_frame (by decide) ?_
    | with_reducible refine SameBut.call State.waitUntil_frame (by decide) ?_
    | (split <;> try dsimp only)

theorem State.sessionIdle_frame {s : State} : SameBut (State.sessionIdle s) s [.now, .cal, .regs, .cores, .bands,
    .tpl] := by
  unfold State.sessionIdle
  try dsimp only
  repeat' first
    | with_reducible exact SameBut.refl _ _
    | with_reducible assumption
    | with_reducible refine SameBut.call State.closeSession_frame (by decide) ?_
    | with_reducible refine SameBut.call State.waitUntil_frame (by decide) ?_
    | (split <;> try dsimp only)

end Sys2Proof.Machine
end

