-- ==== Sys2Proof/Laws/FrameTick.lean ====
section
/-! SUPPORT. What each operation of Machine/Tick.lean can change: every field of the state but those listed stays. -/
namespace Sys2Proof.Machine

theorem State.tick_frame {s : State} : SameBut (State.tick s) s [.now, .cal, .regs, .cores, .bands] := by
  unfold State.tick
  intro p hp
  have h := State.advance_frame (s := s) (a1 := 1) p
  cases p
  all_goals first
    | with_reducible rfl
    | exact h (by decide)
    | exact absurd (by decide) hp

end Sys2Proof.Machine
end

