-- ==== Sys2Proof/Laws/SMap.lean ====
section
/-! SUPPORT. Laws of sparse maps: read after write, and the canonical form that every operation keeps. -/
namespace Sys2Proof

variable {α : Type}

@[simp] theorem SMap.get_nil (d : α) (k : Nat) : SMap.get d ([] : SMap α) k = d := rfl

/-! ### Reading -/

theorem SMap.get_put_self (d : α) (m : SMap α) (k : Nat) (v : α) : SMap.get d (SMap.put m k v) k = v := by
  induction m with
  | nil => simp [SMap.put, SMap.get]
  | cons e m ih =>
    simp only [SMap.put]
    split
    · simp [SMap.get]
    · split
      · simp [SMap.get]
      · simp [SMap.get, *]

theorem SMap.get_put_ne (d : α) (m : SMap α) {j k : Nat} (v : α) (h : j ≠ k) :
    SMap.get d (SMap.put m k v) j = SMap.get d m j := by
  induction m with
  | nil => simp [SMap.put, SMap.get, h]
  | cons e m ih =>
    simp only [SMap.put]
    split
    · simp [SMap.get, h]
    · split
      · subst_vars; simp [SMap.get, h]
      · simp [SMap.get, ih]

theorem SMap.get_del_self (d : α) (m : SMap α) (k : Nat) : SMap.get d (SMap.del m k) k = d := by
  induction m with
  | nil => rfl
  | cons e m ih =>
    simp only [SMap.del]
    split
    · exact ih
    · simp [SMap.get, *]

theorem SMap.get_del_ne (d : α) (m : SMap α) {j k : Nat} (h : j ≠ k) :
    SMap.get d (SMap.del m k) j = SMap.get d m j := by
  induction m with
  | nil => rfl
  | cons e m ih =>
    simp only [SMap.del]
    split
    · subst_vars; simp [SMap.get, ih, h]
    · simp [SMap.get, ih]

/-- A read after a write to the same key gives the value written. -/
@[simp] theorem SMap.get_set_self [DecidableEq α] (d : α) (m : SMap α) (k : Nat) (v : α) :
    SMap.get d (SMap.set d m k v) k = v := by
  unfold SMap.set
  split
  · subst_vars; exact SMap.get_del_self _ m k
  · exact SMap.get_put_self d m k v

/-- A write leaves every other key alone, whatever its own default. -/
theorem SMap.get_set_ne [DecidableEq α] (d d' : α) (m : SMap α) {j k : Nat} (v : α) (h : j ≠ k) :
    SMap.get d (SMap.set d' m k v) j = SMap.get d m j := by
  unfold SMap.set
  split
  · exact SMap.get_del_ne d m h
  · exact SMap.get_put_ne d m v h

/-- Consecutive writes leave every key outside them alone. -/
theorem SMap.get_setMany_out [DecidableEq α] (d : α) (m : SMap α) (k j : Nat) (vs : List α)
    (h : j < k ∨ k + vs.length ≤ j) : SMap.get d (SMap.setMany d m k vs) j = SMap.get d m j := by
  induction vs generalizing m k with
  | nil => rfl
  | cons v vs ih =>
    simp only [SMap.setMany, List.length_cons] at *
    rw [ih _ _ (by omega), SMap.get_set_ne d d m v (by omega)]

/-- Consecutive writes put each value at its key. -/
theorem SMap.get_setMany_in [DecidableEq α] (d : α) (m : SMap α) (k i : Nat) (vs : List α) (h : i < vs.length) :
    SMap.get d (SMap.setMany d m k vs) (k + i) = vs.getD i d := by
  induction vs generalizing m k i with
  | nil => simp at h
  | cons v vs ih =>
    simp only [SMap.setMany]
    cases i with
    | zero => rw [Nat.add_zero, SMap.get_setMany_out d _ _ _ _ (by omega)]; simp
    | succ i =>
      have hk : k + (i + 1) = k + 1 + i := by omega
      rw [hk, ih _ _ i (by simpa using h)]
      simp

/-! ### The canonical form -/

theorem SMap.rising_mono {lo lo' : Nat} {m : SMap α} (h : lo' ≤ lo) (hm : SMap.rising lo m = true) :
    SMap.rising lo' m = true := by
  cases m with
  | nil => rfl
  | cons e m =>
    simp only [SMap.rising, Bool.and_eq_true, decide_eq_true_eq] at *
    exact ⟨by omega, hm.2⟩

theorem SMap.rising_put {lo k : Nat} {m : SMap α} (v : α) (h : lo ≤ k) (hm : SMap.rising lo m = true) :
    SMap.rising lo (SMap.put m k v) = true := by
  induction m generalizing lo with
  | nil => simp [SMap.put, SMap.rising, h]
  | cons e m ih =>
    simp only [SMap.put]
    simp only [SMap.rising, Bool.and_eq_true, decide_eq_true_eq] at hm
    split
    · simp only [SMap.rising, Bool.and_eq_true, decide_eq_true_eq]
      refine ⟨h, by omega, hm.2⟩
    · split
      · subst_vars; simp [SMap.rising, h, hm.2]
      · simp only [SMap.rising, Bool.and_eq_true, decide_eq_true_eq]
        exact ⟨hm.1, ih (by omega) hm.2⟩

theorem SMap.rising_del {lo : Nat} (k : Nat) {m : SMap α} (hm : SMap.rising lo m = true) :
    SMap.rising lo (SMap.del m k) = true := by
  induction m generalizing lo with
  | nil => rfl
  | cons e m ih =>
    simp only [SMap.rising, Bool.and_eq_true, decide_eq_true_eq] at hm
    simp only [SMap.del]
    split
    · exact ih (SMap.rising_mono (by omega) hm.2)
    · simp [SMap.rising, hm.1, ih hm.2]

/-- A write keeps the keys rising, whatever its default. -/
theorem SMap.rising_set [DecidableEq α] (d : α) {m : SMap α} (k : Nat) (v : α) (hm : SMap.rising 0 m = true) :
    SMap.rising 0 (SMap.set d m k v) = true := by
  unfold SMap.set
  split
  · exact SMap.rising_del k hm
  · exact SMap.rising_put v (Nat.zero_le k) hm

theorem SMap.rising_filter {lo : Nat} (p : Nat × α → Bool) {m : SMap α} (hm : SMap.rising lo m = true) :
    SMap.rising lo (m.filter p) = true := by
  induction m generalizing lo with
  | nil => rfl
  | cons e m ih =>
    simp only [SMap.rising, Bool.and_eq_true, decide_eq_true_eq] at hm
    simp only [List.filter_cons]
    split
    · simp [SMap.rising, hm.1, ih hm.2]
    · exact SMap.rising_mono (by omega) (ih hm.2)

theorem SMap.mem_put {m : SMap α} {k : Nat} {v : α} {e : Nat × α} (h : e ∈ SMap.put m k v) : e = (k, v) ∨ e ∈ m := by
  induction m with
  | nil => simpa [SMap.put] using h
  | cons x m ih =>
    simp only [SMap.put] at h
    split at h
    · simpa using h
    · split at h
      · rcases List.mem_cons.1 h with h | h
        · exact .inl h
        · exact .inr (List.mem_cons_of_mem _ h)
      · rcases List.mem_cons.1 h with h | h
        · exact .inr (by simp [h])
        · rcases ih h with h | h
          · exact .inl h
          · exact .inr (List.mem_cons_of_mem _ h)

theorem SMap.mem_del {m : SMap α} {k : Nat} {e : Nat × α} (h : e ∈ SMap.del m k) : e ∈ m := by
  induction m with
  | nil => exact h
  | cons x m ih =>
    simp only [SMap.del] at h
    split at h
    · exact List.mem_cons_of_mem _ (ih h)
    · rcases List.mem_cons.1 h with h | h
      · simp [h]
      · exact List.mem_cons_of_mem _ (ih h)

theorem SMap.wf_iff [DecidableEq α] (d : α) (m : SMap α) :
    SMap.wf d m = true ↔ SMap.rising 0 m = true ∧ ∀ e ∈ m, e.2 ≠ d := by
  simp [SMap.wf]

/-- A write keeps the canonical form. -/
theorem SMap.wf_set [DecidableEq α] (d : α) {m : SMap α} (k : Nat) (v : α) (h : SMap.wf d m = true) :
    SMap.wf d (SMap.set d m k v) = true := by
  rw [SMap.wf_iff] at *
  refine ⟨SMap.rising_set d k v h.1, fun e he => ?_⟩
  unfold SMap.set at he
  split at he
  · exact h.2 e (SMap.mem_del he)
  · rcases SMap.mem_put he with rfl | he
    · assumption
    · exact h.2 e he

/-- Consecutive writes keep the canonical form. -/
theorem SMap.wf_setMany [DecidableEq α] (d : α) {m : SMap α} (k : Nat) (vs : List α) (h : SMap.wf d m = true) :
    SMap.wf d (SMap.setMany d m k vs) = true := by
  induction vs generalizing m k with
  | nil => exact h
  | cons v vs ih => exact ih (k + 1) (SMap.wf_set d k v h)

/-- Replacing a stretch of keys keeps the keys rising. -/
theorem SMap.rising_blit {m : SMap α} (a n : Nat) (src : SMap α) (h : SMap.rising 0 m = true) :
    SMap.rising 0 (SMap.blit m a n src) = true := by
  unfold SMap.blit
  exact List.foldlRecOn (motive := fun m => SMap.rising 0 m = true) _ _ (SMap.rising_filter _ h)
    fun m hm e _ => SMap.rising_put _ (Nat.zero_le _) hm

/-- Replacing a stretch of keys by values that differ from the default keeps the canonical form. -/
theorem SMap.wf_blit [DecidableEq α] (d : α) {m : SMap α} (a n : Nat) {src : SMap α} (h : SMap.wf d m = true)
    (hs : ∀ e ∈ src, e.2 ≠ d) : SMap.wf d (SMap.blit m a n src) = true := by
  rw [SMap.wf_iff] at *
  refine ⟨SMap.rising_blit a n src h.1, ?_⟩
  unfold SMap.blit
  refine List.foldlRecOn (motive := fun m : SMap α => ∀ e ∈ m, e.2 ≠ d) _ _
    (fun e he => h.2 e (List.mem_of_mem_filter he)) fun m hm x hx e he => ?_
  rcases SMap.mem_put he with rfl | he
  · exact hs x (List.mem_of_mem_filter hx)
  · exact hm e he

/-- A replaced stretch leaves the keys outside it alone. -/
theorem SMap.get_filter (d : α) (p : Nat → Bool) (m : SMap α) (k : Nat) (hk : p k = true) :
    SMap.get d (m.filter fun e => p e.1) k = SMap.get d m k := by
  induction m with
  | nil => rfl
  | cons e m ih =>
    simp only [List.filter_cons]
    split
    · simp [SMap.get, ih]
    · have : k ≠ e.1 := by rintro rfl; contradiction
      simp [SMap.get, ih, this]

theorem SMap.get_blit_out (d : α) (m : SMap α) (a n k : Nat) (src : SMap α) (h : k < a ∨ a + n ≤ k) :
    SMap.get d (SMap.blit m a n src) k = SMap.get d m k := by
  unfold SMap.blit
  refine List.foldlRecOn (motive := fun x => SMap.get d x k = SMap.get d m k) _ _ ?_ ?_
  · exact SMap.get_filter d (fun j => decide (j < a) || decide (a + n ≤ j)) m k (by simpa using h)
  · intro x hx e he
    have := (List.mem_filter.1 he).2
    simp only [decide_eq_true_eq] at this
    rw [SMap.get_put_ne d x _ (by omega), hx]

end Sys2Proof
end

