-- ==== Sys2Proof/Laws/Memory.lean ====
section
/-! SUPPORT. Memory: what a byte reads as after a write, and that every operation keeps the canonical form. -/
namespace Sys2Proof.Machine

/-- Memory at reset is in its canonical form. -/
theorem memory_reset : MemoryCanonical State.reset := rfl

/-- Writing bytes keeps the canonical form. -/
theorem Memory.wf_write {m : List Host.Cell} (a : Nat) (bs : List Byte) (h : Memory.wf m = true) :
    Memory.wf (writeB m a bs) = true := SMap.wf_setMany 0 a bs h

/-- Replacing a range by the bytes of a copy keeps the canonical form. -/
theorem Memory.wf_blit {m src : List Host.Cell} (a n : Nat) (h : Memory.wf m = true) (hs : ∀ e ∈ src, e.2 ≠ 0) :
    Memory.wf (SMap.blit m a n src) = true := SMap.wf_blit 0 a n h hs

theorem MemoryCanonical.frame {y x : State} {ps : List Part} (h : SameBut y x ps) (hd : Part.dram ∉ ps)
    (hx : MemoryCanonical x) : MemoryCanonical y := by
  have : y.dram = x.dram := h .dram hd
  unfold MemoryCanonical
  rw [this]
  exact hx

theorem MemoryCanonical.foldl {α : Type} {f : State → α → State} {l : List α} {x : State}
    (hx : MemoryCanonical x) (hf : ∀ y a, MemoryCanonical y → MemoryCanonical (f y a)) : MemoryCanonical (l.foldl f x) := by
  induction l generalizing x with
  | nil => exact hx
  | cons a l ih => exact ih (hf x a hx)

theorem MemoryCanonical.each {n : Nat} {f : State → Nat → State} {x : State}
    (hx : MemoryCanonical x) (hf : ∀ y a, MemoryCanonical y → MemoryCanonical (f y a)) : MemoryCanonical (x.each n f) :=
  MemoryCanonical.foldl hx hf

/-- A loop over a state that stands somewhere inside a larger value. -/
theorem MemoryCanonical.foldl_of {α β : Type} (π : β → State) {f : β → α → β} {l : List α} {x : β}
    (hx : MemoryCanonical (π x)) (hf : ∀ y a, MemoryCanonical (π y) → MemoryCanonical (π (f y a))) :
    MemoryCanonical (π (l.foldl f x)) := by
  induction l generalizing x with
  | nil => exact hx
  | cons a l ih => exact ih (hf x a hx)

theorem MemoryCanonical.foldl_fst {β α : Type} {f : State × β → α → State × β} {l : List α} {x : State × β}
    (hx : MemoryCanonical x.1) (hf : ∀ y a, MemoryCanonical y.1 → MemoryCanonical (f y a).1) :
    MemoryCanonical (l.foldl f x).1 := MemoryCanonical.foldl_of (fun x : State × β => x.1) hx hf

end Sys2Proof.Machine
end

