-- ==== Sys2Proof/Laws/MemoryKept.lean ====
section
/-! SUPPORT. Every operation that writes DRAM keeps it in its canonical form (the others leave it as it was: their
    frames). -/
namespace Sys2Proof.Machine

theorem MemoryCanonical.upd {x : State} {v0 v1 v2 v3 v4 v5 v6 v7 v8 v9 v10 v11 v12 v13 v14 v15 v16 v17 v18 v19 v20
    v21 v22 v23 v24 v25 v26 v27 v28 v29 v30 v31 v32 v33 v34 v35 v36 v37 v38 v39 v40 v41 v42 v43 v44 v45 v46 v47
    v48 v49 v50 v51 v52 v53} (_e : v0 = x.pending) (e6 : v6 = x.dram)
    (_h : SameBut (State.mk v0 v1 v2 v3 v4 v5 v6 v7 v8 v9 v10 v11 v12 v13 v14 v15 v16 v17 v18 v19 v20 v21 v22 v23
    v24 v25 v26 v27 v28 v29 v30 v31 v32 v33 v34 v35 v36 v37 v38 v39 v40 v41 v42 v43 v44 v45 v46 v47 v48 v49 v50
    v51 v52 v53) x
      [.free, .now, .cal, .regs, .latch, .dramBad, .drm, .cores, .bands, .prog, .almanac, .sched, .noBase1,
    .change, .firstLines, .bucket, .pstate, .msetSample, .mwinEnd, .fc, .fab, .remotes, .signals, .inp, .hist,
    .arrived, .avail, .tau, .rtFirst, .rtJ0, .ctx, .ctxNext, .warp, .box, .drz, .frost, .sns, .cmp, .pnl, .fbSegs,
    .fbStarted, .sel, .fbNow, .fbNext, .pwr, .seq, .boot, .aud, .led, .tpl, .tds])
    (hx : MemoryCanonical x) : MemoryCanonical (State.mk v0 v1 v2 v3 v4 v5 v6 v7 v8 v9 v10 v11 v12 v13 v14 v15 v16
    v17 v18 v19 v20 v21 v22 v23 v24 v25 v26 v27 v28 v29 v30 v31 v32 v33 v34 v35 v36 v37 v38 v39 v40 v41 v42 v43
    v44 v45 v46 v47 v48 v49 v50 v51 v52 v53) := by
  unfold MemoryCanonical at *
  rw [e6]
  exact hx

theorem State.serve_mem {s : State} {n : Nat} {f : State → Req → Option Accepted → State} (h : MemoryCanonical s)
    (hf : ∀ y r au, MemoryCanonical y → MemoryCanonical (f y r au)) : MemoryCanonical (s.serve n f) := by
  have go : ∀ (y : State) (r : Req) au, MemoryCanonical y → MemoryCanonical (match y.notServed r with
      | some st => y.finish r au st []
      | none => f y r au) := by
    intro y r au hy
    split
    · exact MemoryCanonical.frame State.finish_frame (by decide) hy
    · exact hf y r au hy
  unfold State.serve
  split
  · exact h
  · dsimp only
    split
    · exact h
    · split
      · split
        · exact MemoryCanonical.frame State.finish_frame (by decide) h
        · exact MemoryCanonical.frame State.answerBad_frame (by decide) (MemoryCanonical.frame State.onTpl_frame (by
            decide)
            (MemoryCanonical.frame State.incFs_frame (by decide) (MemoryCanonical.frame State.sendMsg_frame (by
                decide) h)))
        · exact go _ _ _ (MemoryCanonical.frame State.noteAccepted_frame (by decide) h)
      · split
        · exact MemoryCanonical.frame State.finish_frame (by decide) h
        · exact go _ _ _ h

theorem State.writeMem_mem {s : State} {a1 a2 a3 : Nat} {a4 : List Byte} (h : MemoryCanonical s) :
    MemoryCanonical (s.writeMem a1 a2 a3 a4) := by
  unfold State.writeMem
  split
  · exact MemoryCanonical.frame State.onCore_frame (by decide) h
  · split
    · exact MemoryCanonical.frame State.onBand_frame (by decide) h
    · split
      · exact h
      · exact Memory.wf_write a3 a4 h

theorem State.writePages_mem {s : State} {a1 : _} {a2 : _} (h : MemoryCanonical s) : MemoryCanonical
    (State.writePages s a1 a2) := by
  unfold State.writePages
  try dsimp only
  repeat' first
    | with_reducible assumption
    | with_reducible refine State.writeMem_mem ?_

theorem State.drzInit_mem {s : State} (h : MemoryCanonical s) : MemoryCanonical (State.drzInit s) := by
  unfold State.drzInit
  try dsimp only
  repeat' first
    | with_reducible assumption
    | with_reducible refine State.writeMem_mem ?_
    | with_reducible refine MemoryCanonical.frame State.writeInactive_frame (by decide) ?_
    | with_reducible refine State.writePages_mem ?_

theorem State.drzReset_mem {s : State} (h : MemoryCanonical s) : MemoryCanonical (State.drzReset s) := by
  unfold State.drzReset
  try dsimp only
  repeat' first
    | with_reducible assumption
    | with_reducible refine State.drzInit_mem ?_
    | with_reducible refine MemoryCanonical.frame State.dropSteps_frame (by decide) ?_
    | with_reducible refine MemoryCanonical.frame State.onDrz_frame (by decide) ?_
    | (split <;> try dsimp only)

theorem State.writeEffect_mem {old s : State} {blk : Blk} {o v : Nat} (ho : MemoryCanonical old) (hs :
    MemoryCanonical s) :
    MemoryCanonical (State.writeEffect old s blk o v) := by
  unfold State.writeEffect
  dsimp only
  repeat' first
    | with_reducible assumption
    | with_reducible refine MemoryCanonical.frame State.hpdPulse_frame (by decide) ?_
    | with_reducible refine MemoryCanonical.frame State.modeCheck_frame (by decide) ?_
    | with_reducible refine MemoryCanonical.frame State.retrain_frame (by decide) ?_
    | with_reducible refine MemoryCanonical.frame State.enSet_frame (by decide) ?_
    | with_reducible refine MemoryCanonical.frame State.enClear_frame (by decide) ?_
    | with_reducible refine MemoryCanonical.frame State.snapArm_frame (by decide) ?_
    | with_reducible refine MemoryCanonical.frame State.snapCancel_frame (by decide) ?_
    | with_reducible refine MemoryCanonical.frame State.restoreAsk_frame (by decide) ?_
    | with_reducible refine State.drzReset_mem ?_
    | with_reducible refine MemoryCanonical.frame State.histClear_frame (by decide) ?_
    | with_reducible refine MemoryCanonical.frame State.hostAbort_frame (by decide) ?_
    | with_reducible refine MemoryCanonical.frame State.hostRetry_frame (by decide) ?_
    | (split <;> try dsimp only)

theorem State.regWrite_mem {s : State} {a1 a2 : Nat} (h : MemoryCanonical s) : MemoryCanonical (s.regWrite a1 a2).2
    := by
  unfold State.regWrite
  split
  · exact MemoryCanonical.frame State.incF_frame (by decide) h
  split
  · split
    · exact MemoryCanonical.frame State.incF_frame (by decide) h
    · split
      · exact h
      · exact State.writeEffect_mem h (MemoryCanonical.foldl h fun y a hy =>
          MemoryCanonical.frame State.writeField_frame (by decide) hy)
  · exact h

theorem State.loggedWrite_mem {s : State} {a1 : _} {a2 : _} (h : MemoryCanonical s) : MemoryCanonical
    (State.loggedWrite s a1 a2).2 := by
  unfold State.loggedWrite
  try dsimp only
  repeat' first
    | with_reducible assumption
    | with_reducible refine State.regWrite_mem ?_
    | with_reducible refine MemoryCanonical.frame State.recordWrite_frame (by decide) ?_
    | (split <;> try dsimp only)

theorem State.hostMemWrite_mem {s : State} {a1 : _} {a2 : _} (h : MemoryCanonical s) : MemoryCanonical
    (State.hostMemWrite s a1 a2).2 := by
  unfold State.hostMemWrite
  try dsimp only
  repeat' first
    | with_reducible assumption
    | with_reducible refine MemoryCanonical.frame State.hostRefuse_frame (by decide) ?_
    | with_reducible refine State.writeMem_mem ?_
    | (split <;> try dsimp only)

theorem State.pageWrite_mem {s : State} {a1 : _} {a2 : _} (h : MemoryCanonical s) : MemoryCanonical (State.pageWrite
    s a1 a2).2 := by
  unfold State.pageWrite
  try dsimp only
  repeat' first
    | with_reducible assumption
    | with_reducible refine MemoryCanonical.frame State.hostRefuse_frame (by decide) ?_
    | with_reducible refine State.writeMem_mem ?_
    | (split <;> try dsimp only)

theorem State.loggedMem_mem {s : State} {a1 : _} {a2 : _} {a3 : _} (h : MemoryCanonical s) : MemoryCanonical
    (State.loggedMem s a1 a2 a3).2 := by
  unfold State.loggedMem
  try dsimp only
  repeat' first
    | with_reducible assumption
    | with_reducible refine State.hostMemWrite_mem ?_
    | with_reducible refine State.pageWrite_mem ?_
    | with_reducible refine MemoryCanonical.frame State.recordWrite_frame (by decide) ?_
    | (split <;> try dsimp only)

theorem State.applyWrite_mem {s : State} {a1 : _} {a2 : _} {a3 : _} (h : MemoryCanonical s) : MemoryCanonical
    (State.applyWrite s a1 a2 a3) := by
  unfold State.applyWrite
  try dsimp only
  repeat' first
    | with_reducible assumption
    | with_reducible refine State.loggedWrite_mem ?_
    | with_reducible refine State.loggedMem_mem ?_
    | (split <;> try dsimp only)

theorem State.writeBack_mem {s : State} {a1 : _} {a2 : _} {a3 : _} {a4 : _} {a5 : _} (h : MemoryCanonical s) :
    MemoryCanonical (State.writeBack s a1 a2 a3 a4 a5) := by
  unfold State.writeBack
  try dsimp only
  repeat' first
    | with_reducible assumption
    | with_reducible refine State.writeMem_mem ?_
    | with_reducible refine MemoryCanonical.frame State.mergeEcc_frame (by decide) ?_
    | with_reducible refine MemoryCanonical.frame State.onCore_frame (by decide) ?_
    | (split <;> try dsimp only)

theorem State.unpackBlock_mem {s : State} {a1 : _} {a2 : _} {a3 : _} {a4 : _} {a5 : _} {a6 : _} {a7 : _} {a8 : _}
    {a9 : _} (h : MemoryCanonical s) : MemoryCanonical (State.unpackBlock s a1 a2 a3 a4 a5 a6 a7 a8 a9) := by
  unfold State.unpackBlock
  try dsimp only
  repeat' first
    | with_reducible assumption
    | with_reducible refine MemoryCanonical.frame State.incF_frame (by decide) ?_
    | with_reducible refine State.writeBack_mem ?_
    | (with_reducible refine MemoryCanonical.foldl ?_ fun y a hy => ?_)
    | (split <;> try dsimp only)

theorem State.moveXfer_mem {s : State} {a1 : _} {a2 : _} {a3 : _} {a4 : _} {a5 : _} {a6 : _} {a7 : _} {a8 : _} (h :
    MemoryCanonical s) : MemoryCanonical (State.moveXfer s a1 a2 a3 a4 a5 a6 a7 a8) := by
  unfold State.moveXfer
  try dsimp only
  repeat' first
    | with_reducible assumption
    | with_reducible refine State.writeBack_mem ?_
    | with_reducible refine State.unpackBlock_mem ?_
    | (with_reducible refine MemoryCanonical.foldl ?_ fun y a hy => ?_)
    | (split <;> try dsimp only)

theorem State.arriveAt_mem {s : State} {a1 : _} {a2 : _} {a3 : _} {a4 : _} {a5 : _} {a6 : _} {a7 : _} (h :
    MemoryCanonical s) : MemoryCanonical (State.arriveAt s a1 a2 a3 a4 a5 a6 a7) := by
  unfold State.arriveAt
  try dsimp only
  repeat' first
    | with_reducible assumption
    | with_reducible refine MemoryCanonical.frame State.setFs_frame (by decide) ?_
    | with_reducible refine MemoryCanonical.frame State.incF_frame (by decide) ?_
    | with_reducible refine MemoryCanonical.frame State.onDesc_frame (by decide) ?_
    | with_reducible refine State.moveXfer_mem ?_
    | (split <;> try dsimp only)

theorem State.writeElems_mem {s : State} {a1 : _} {a2 : _} {a3 : _} {a4 : _} {a5 : _} {a6 : _} (h : MemoryCanonical
    s) : MemoryCanonical (State.writeElems s a1 a2 a3 a4 a5 a6) := by
  unfold State.writeElems
  try dsimp only
  repeat' first
    | with_reducible assumption
    | with_reducible refine State.writeMem_mem ?_

theorem State.augment_mem {s : State} {a1 : _} (h : MemoryCanonical s) : MemoryCanonical (State.augment s a1) := by
  unfold State.augment
  try dsimp only
  repeat' first
    | with_reducible assumption
    | with_reducible refine State.writeElems_mem ?_
    | with_reducible refine MemoryCanonical.frame State.signalAt_frame (by decide) ?_
    | with_reducible refine MemoryCanonical.frame State.onStep_frame (by decide) ?_
    | (with_reducible refine MemoryCanonical.each ?_ fun y a hy => ?_)
    | (split <;> try dsimp only)

theorem State.inputToBand_mem {s : State} {a1 : _} {a2 : _} {a3 : _} {a4 : _} (h : MemoryCanonical s) :
    MemoryCanonical (State.inputToBand s a1 a2 a3 a4) := by
  unfold State.inputToBand
  try dsimp only
  repeat' first
    | with_reducible assumption
    | with_reducible refine MemoryCanonical.frame State.incF_frame (by decide) ?_
    | with_reducible refine State.writeMem_mem ?_
    | with_reducible refine MemoryCanonical.frame State.onBand_frame (by decide) ?_
    | with_reducible refine MemoryCanonical.frame State.lsMerge_frame (by decide) ?_
    | with_reducible refine MemoryCanonical.frame State.lsMark_frame (by decide) ?_
    | (split <;> try dsimp only)

theorem State.writeLine_mem {s : State} {a1 : _} (h : MemoryCanonical s) : MemoryCanonical (State.writeLine s a1) :=
    by
  unfold State.writeLine
  extract_lets +onlyGivenNames y q px s0 s1 crc s2 s3 hdr s4 s5 s6 fr' s7
  have h0 : MemoryCanonical s0 := MemoryCanonical.frame State.stage9Replay_frame (by decide) (by assumption)
  clear_value s0
  have h1 : MemoryCanonical s1 := by
    unfold s1
    split
    · exact h0
    · exact MemoryCanonical.frame State.setF_frame (by decide) (MemoryCanonical.frame State.incF_frame (by decide) h0)
  clear_value s1
  have h2 : MemoryCanonical s2 := by
    unfold s2
    split
    · split
      · exact h1
      · exact State.writeMem_mem h1
    · exact h1
  clear_value s2
  have h3 : MemoryCanonical s3 := by
    unfold s3
    split
    · exact MemoryCanonical.each h2 fun y a hy => State.inputToBand_mem (by assumption)
    · exact h2
  clear_value s3
  have h4 : MemoryCanonical s4 := MemoryCanonical.frame State.record_frame (by decide) h3
  clear_value s4
  have h5 : MemoryCanonical s5 := by
    unfold s5
    split
    · split
      · exact MemoryCanonical.frame State.logPut_frame (by decide) (MemoryCanonical.frame State.incF_frame (by
          decide) h4)
      · exact MemoryCanonical.frame State.logPut_frame (by decide) h4
    · exact h4
  clear_value s5
  have h7 : MemoryCanonical s7 := MemoryCanonical.frame State.onInp_frame (by decide) (MemoryCanonical.frame
      State.replayCrc_frame (by decide) h5)
  clear_value s7
  split
  · exact MemoryCanonical.frame State.frameDone_frame (by decide) h7
  · exact MemoryCanonical.frame State.onInp_frame (by decide) h7

theorem State.flushFrame_mem {a0 : Nat} {s : State} (h : MemoryCanonical s) : MemoryCanonical (State.flushFrame a0
    s) := by
  induction a0 generalizing s with
  | zero => exact h
  | succ n ih =>
    unfold State.flushFrame
    split
    · exact h
    · exact ih (State.writeLine_mem h)

theorem State.blankPath_mem {s : State} (h : MemoryCanonical s) : MemoryCanonical (State.blankPath s) := by
  unfold State.blankPath
  try dsimp only
  repeat' first
    | with_reducible assumption
    | with_reducible refine MemoryCanonical.frame State.waitUntil_frame (by decide) ?_
    | with_reducible refine State.flushFrame_mem ?_
    | with_reducible refine MemoryCanonical.frame State.joinRest_frame (by decide) ?_
    | with_reducible refine MemoryCanonical.frame State.applyShadows_frame (by decide) ?_
    | with_reducible refine MemoryCanonical.frame State.incF_frame (by decide) ?_
    | with_reducible refine MemoryCanonical.frame State.onInp_frame (by decide) ?_
    | with_reducible refine MemoryCanonical.frame State.beginFrame_frame (by decide) ?_
    | (split <;> try dsimp only)

theorem State.putPrn_mem {s : State} {a1 : _} {a2 : _} {a3 : _} (h : MemoryCanonical s) : MemoryCanonical
    (State.putPrn s a1 a2 a3) := by
  unfold State.putPrn
  try dsimp only
  repeat' first
    | with_reducible assumption
    | with_reducible refine State.writeMem_mem ?_

theorem State.histSum_mem {s : State} (h : MemoryCanonical s) : MemoryCanonical (State.histSum s) := by
  unfold State.histSum
  try dsimp only
  repeat' first
    | with_reducible assumption
    | with_reducible refine State.putPrn_mem ?_
    | (with_reducible refine MemoryCanonical.foldl ?_ fun y a hy => ?_)
    | (split <;> try dsimp only)

theorem State.drzBoundary_mem {s : State} {a1 : _} {a2 : _} (h : MemoryCanonical s) : MemoryCanonical
    (State.drzBoundary s a1 a2) := by
  unfold State.drzBoundary
  try dsimp only
  repeat' first
    | with_reducible assumption
    | with_reducible refine MemoryCanonical.frame State.onDrz_frame (by decide) ?_
    | with_reducible refine MemoryCanonical.frame State.flipBank_frame (by decide) ?_
    | with_reducible refine State.histSum_mem ?_
    | with_reducible refine MemoryCanonical.frame State.queueFill_frame (by decide) ?_
    | with_reducible refine MemoryCanonical.frame State.commitLive_frame (by decide) ?_
    | with_reducible refine MemoryCanonical.frame State.drzEnable_frame (by decide) ?_
    | with_reducible refine MemoryCanonical.frame State.resetLive_frame (by decide) ?_
    | with_reducible refine MemoryCanonical.frame State.tdAdd_frame (by decide) ?_
    | with_reducible refine MemoryCanonical.frame State.coverCheck_frame (by decide) ?_
    | (split <;> try dsimp only)

theorem State.writeFormat_mem {s : State} (h : MemoryCanonical s) : MemoryCanonical (State.writeFormat s) := by
  unfold State.writeFormat
  try dsimp only
  repeat' first
    | with_reducible assumption
    | with_reducible refine State.putPrn_mem ?_
    | (with_reducible refine MemoryCanonical.each ?_ fun y a hy => ?_)

theorem State.rasterStart_mem {s : State} {a1 : _} {a2 : _} (h : MemoryCanonical s) : MemoryCanonical
    (State.rasterStart s a1 a2) := by
  unfold State.rasterStart
  try dsimp only
  repeat' first
    | with_reducible assumption
    | with_reducible refine MemoryCanonical.frame State.dropCounts_frame (by decide) ?_
    | with_reducible refine MemoryCanonical.frame State.calStart_frame (by decide) ?_
    | with_reducible refine MemoryCanonical.frame State.setF_frame (by decide) ?_
    | with_reducible refine MemoryCanonical.frame State.framesArrive_frame (by decide) ?_
    | with_reducible refine MemoryCanonical.frame State.planGrabs_frame (by decide) ?_
    | with_reducible refine MemoryCanonical.frame State.weatherBoundary_frame (by decide) ?_
    | with_reducible refine MemoryCanonical.frame State.ctxBoundary_frame (by decide) ?_
    | with_reducible refine MemoryCanonical.frame State.histTake_frame (by decide) ?_
    | with_reducible refine State.drzBoundary_mem ?_
    | with_reducible refine MemoryCanonical.frame State.takeTickets_frame (by decide) ?_
    | with_reducible refine State.writeFormat_mem ?_
    | with_reducible refine MemoryCanonical.frame State.replayFrame_frame (by decide) ?_
    | with_reducible refine MemoryCanonical.frame State.recordFrame_frame (by decide) ?_
    | with_reducible refine MemoryCanonical.frame State.recordingTake_frame (by decide) ?_
    | with_reducible refine MemoryCanonical.frame State.frostFix_frame (by decide) ?_
    | with_reducible refine MemoryCanonical.frame State.beginFrameUnits_frame (by decide) ?_
    | (split <;> try dsimp only)
    | ((with_reducible refine MemoryCanonical.upd rfl rfl ?_ ?_); intro p hp; (cases p <;> (try (with_reducible
        rfl)));
        exact absurd (by decide) hp; (repeat (exact absurd (by decide) hp)))

theorem State.bootComplete_mem {s : State} (h : MemoryCanonical s) : MemoryCanonical (State.bootComplete s) := by
  unfold State.bootComplete
  try dsimp only
  repeat' first
    | ((with_reducible refine MemoryCanonical.upd rfl rfl ?_ ?_); intro p hp; (cases p <;> (try (with_reducible
        rfl)));
        exact absurd (by decide) hp; (repeat (exact absurd (by decide) hp)))
    | with_reducible assumption
    | with_reducible refine MemoryCanonical.frame State.setFs_frame (by decide) ?_
    | with_reducible refine MemoryCanonical.frame State.ledger_frame (by decide) ?_
    | with_reducible refine MemoryCanonical.frame State.onBoot_frame (by decide) ?_
    | with_reducible refine MemoryCanonical.frame State.onPwr_frame (by decide) ?_
    | with_reducible refine MemoryCanonical.frame State.supplyRecord_frame (by decide) ?_
    | with_reducible refine MemoryCanonical.frame State.trainingStart_frame (by decide) ?_
    | with_reducible refine MemoryCanonical.frame State.hpdPulse_frame (by decide) ?_
    | with_reducible refine MemoryCanonical.frame State.setF_frame (by decide) ?_
    | with_reducible refine MemoryCanonical.frame State.modeCheck_frame (by decide) ?_
    | with_reducible refine State.rasterStart_mem ?_
    | (split <;> try dsimp only)

theorem State.stageSection_mem {s : State} {a1 : _} (h : MemoryCanonical s) : MemoryCanonical (State.stageSection s
    a1) := by
  unfold State.stageSection
  try dsimp only
  repeat' first
    | with_reducible assumption
    | with_reducible refine MemoryCanonical.frame State.readConfig_frame (by decide) ?_
    | with_reducible refine MemoryCanonical.frame State.bootFail_frame (by decide) ?_
    | with_reducible refine State.writeMem_mem ?_
    | with_reducible refine MemoryCanonical.frame State.useSection_frame (by decide) ?_
    | with_reducible refine MemoryCanonical.frame State.onBoot_frame (by decide) ?_
    | with_reducible refine MemoryCanonical.frame State.stageDone_frame (by decide) ?_
    | (split <;> try dsimp only)

theorem State.stageLoad_mem {s : State} (h : MemoryCanonical s) : MemoryCanonical (State.stageLoad s) := by
  unfold State.stageLoad
  try dsimp only
  repeat' first
    | with_reducible assumption
    | with_reducible refine MemoryCanonical.frame State.gatherProgram_frame (by decide) ?_
    | with_reducible refine MemoryCanonical.frame State.bootFail_frame (by decide) ?_
    | with_reducible refine MemoryCanonical.frame State.noteLoadFail_frame (by decide) ?_
    | with_reducible refine MemoryCanonical.frame State.startBucket_frame (by decide) ?_
    | with_reducible refine MemoryCanonical.frame State.loadSet_frame (by decide) ?_
    | with_reducible refine MemoryCanonical.frame State.installSchedule_frame (by decide) ?_
    | with_reducible refine MemoryCanonical.frame State.gateFor_frame (by decide) ?_
    | with_reducible refine State.drzReset_mem ?_
    | with_reducible refine MemoryCanonical.frame State.setF_frame (by decide) ?_
    | with_reducible refine MemoryCanonical.frame State.recordingTake_frame (by decide) ?_
    | with_reducible refine MemoryCanonical.frame State.putDigest_frame (by decide) ?_
    | with_reducible refine MemoryCanonical.frame State.stageDone_frame (by decide) ?_
    | (with_reducible refine MemoryCanonical.each ?_ fun y a hy => ?_)
    | (split <;> try dsimp only)

theorem State.bootStep_mem {s : State} {a1 : _} (h : MemoryCanonical s) : MemoryCanonical (State.bootStep s a1) := by
  unfold State.bootStep
  try dsimp only
  repeat' first
    | with_reducible assumption
    | with_reducible refine MemoryCanonical.frame State.stageDone_frame (by decide) ?_
    | with_reducible refine MemoryCanonical.frame State.onBoot_frame (by decide) ?_
    | with_reducible refine MemoryCanonical.frame State.stageRom_frame (by decide) ?_
    | with_reducible refine MemoryCanonical.frame State.stageFlash_frame (by decide) ?_
    | with_reducible refine MemoryCanonical.frame State.stageDram_frame (by decide) ?_
    | with_reducible refine MemoryCanonical.frame State.stageLedger_frame (by decide) ?_
    | with_reducible refine MemoryCanonical.frame State.stageLogic_frame (by decide) ?_
    | with_reducible refine State.stageSection_mem ?_
    | with_reducible refine State.stageLoad_mem ?_
    | (split <;> try dsimp only)

theorem State.boxComplete_mem {s : State} (h : MemoryCanonical s) : MemoryCanonical (State.boxComplete s) := by
  unfold State.boxComplete
  try dsimp only
  repeat' first
    | ((with_reducible refine MemoryCanonical.upd rfl rfl ?_ ?_); intro p hp; (cases p <;> (try (with_reducible
        rfl)));
        exact absurd (by decide) hp; (repeat (exact absurd (by decide) hp)))
    | with_reducible assumption
    | with_reducible refine MemoryCanonical.frame State.waitUntil_frame (by decide) ?_
    | with_reducible refine State.putPrn_mem ?_
    | with_reducible refine State.writeElems_mem ?_
    | with_reducible refine MemoryCanonical.frame State.setFs_frame (by decide) ?_
    | with_reducible refine MemoryCanonical.frame State.incF_frame (by decide) ?_
    | (with_reducible refine MemoryCanonical.each ?_ fun y a hy => ?_)
    | (split <;> try dsimp only)

theorem State.capStatus_mem {s : State} {a1 : _} {a2 : _} {a3 : _} (h : MemoryCanonical s) : MemoryCanonical
    (State.capStatus s a1 a2 a3) := by
  unfold State.capStatus
  try dsimp only
  repeat' first
    | with_reducible assumption
    | with_reducible refine State.writeMem_mem ?_

theorem State.capEnd_mem {s : State} {a1 : _} {a2 : _} {a3 : _} (h : MemoryCanonical s) : MemoryCanonical
    (State.capEnd s a1 a2 a3) := by
  unfold State.capEnd
  try dsimp only
  repeat' first
    | with_reducible assumption
    | with_reducible refine MemoryCanonical.frame State.setF_frame (by decide) ?_
    | with_reducible refine State.capStatus_mem ?_
    | with_reducible refine MemoryCanonical.frame State.onRun_frame (by decide) ?_

theorem State.captureLine_mem {s : State} {a1 : _} (h : MemoryCanonical s) : MemoryCanonical (State.captureLine s
    a1) := by
  unfold State.captureLine
  try dsimp only
  repeat' first
    | ((with_reducible refine MemoryCanonical.upd rfl rfl ?_ ?_); intro p hp; (cases p <;> (try (with_reducible
        rfl)));
        exact absurd (by decide) hp; (repeat (exact absurd (by decide) hp)))
    | with_reducible assumption
    | with_reducible refine MemoryCanonical.frame State.fire_frame (by decide) ?_
    | with_reducible refine MemoryCanonical.frame State.applyPoint_frame (by decide) ?_
    | with_reducible refine MemoryCanonical.frame State.capRun_frame (by decide) ?_
    | with_reducible refine MemoryCanonical.frame State.setF_frame (by decide) ?_
    | with_reducible refine State.capStatus_mem ?_
    | with_reducible refine MemoryCanonical.frame State.incF_frame (by decide) ?_
    | with_reducible refine MemoryCanonical.frame State.onRun_frame (by decide) ?_
    | with_reducible refine MemoryCanonical.frame State.tdAdd_frame (by decide) ?_
    | with_reducible refine State.capEnd_mem ?_
    | (split <;> try dsimp only)

theorem State.captureWrite_mem {s : State} (h : MemoryCanonical s) : MemoryCanonical (State.captureWrite s) := by
  unfold State.captureWrite
  try dsimp only
  repeat' first
    | with_reducible assumption
    | with_reducible refine State.capStatus_mem ?_
    | with_reducible refine State.writeMem_mem ?_
    | with_reducible refine MemoryCanonical.frame State.onRun_frame (by decide) ?_
    | with_reducible refine State.capEnd_mem ?_
    | (split <;> try dsimp only)
    | ((with_reducible refine MemoryCanonical.upd rfl rfl ?_ ?_); intro p hp; (cases p <;> (try (with_reducible
        rfl)));
        exact absurd (by decide) hp; (repeat (exact absurd (by decide) hp)))

theorem State.commitPages_mem {s : State} {a1 : _} (h : MemoryCanonical s) : MemoryCanonical (State.commitPages s
    a1) := by
  unfold State.commitPages
  try dsimp only
  repeat' first
    | with_reducible assumption
    | with_reducible refine MemoryCanonical.frame State.onDrz_frame (by decide) ?_
    | with_reducible refine State.writePages_mem ?_
    | (split <;> try dsimp only)

theorem State.recEnd_mem {s : State} {a1 : _} (h : MemoryCanonical s) : MemoryCanonical (State.recEnd s a1) := by
  unfold State.recEnd
  try dsimp only
  repeat' first
    | ((with_reducible refine MemoryCanonical.upd rfl rfl ?_ ?_); intro p hp; (cases p <;> (try (with_reducible
        rfl)));
        exact absurd (by decide) hp; (repeat (exact absurd (by decide) hp)))
    | with_reducible assumption
    | with_reducible refine MemoryCanonical.frame State.setF_frame (by decide) ?_
    | with_reducible refine MemoryCanonical.frame State.incF_frame (by decide) ?_
    | with_reducible refine State.writeMem_mem ?_
    | (split <;> try dsimp only)

theorem State.composed_mem {s : State} {a1 : _} {a2 : _} (h : MemoryCanonical s) : MemoryCanonical (State.composed s
    a1 a2) := by
  unfold State.composed
  try dsimp only
  repeat' first
    | with_reducible assumption
    | with_reducible refine MemoryCanonical.frame State.composeLine_frame (by decide) ?_
    | with_reducible refine State.recEnd_mem ?_
    | (split <;> try dsimp only)

theorem State.takeCrop_mem {s : State} {a1 : _} {a2 : _} (h : MemoryCanonical s) : MemoryCanonical (State.takeCrop s
    a1 a2) := by
  unfold State.takeCrop
  try dsimp only
  repeat' first
    | with_reducible assumption
    | with_reducible refine MemoryCanonical.frame State.onDrz_frame (by decide) ?_
    | with_reducible refine State.writeMem_mem ?_

theorem State.cropGrab_mem {s : State} (h : MemoryCanonical s) : MemoryCanonical (State.cropGrab s) := by
  unfold State.cropGrab
  try dsimp only
  repeat' first
    | with_reducible assumption
    | with_reducible refine State.takeCrop_mem ?_
    | with_reducible refine MemoryCanonical.frame State.onDrz_frame (by decide) ?_
    | (with_reducible refine MemoryCanonical.each ?_ fun y a hy => ?_)
    | (split <;> try dsimp only)

theorem State.writeContext_mem {s : State} {a1 : _} (h : MemoryCanonical s) : MemoryCanonical (State.writeContext s
    a1) := by
  unfold State.writeContext
  try dsimp only
  repeat' first
    | with_reducible assumption
    | with_reducible refine State.putPrn_mem ?_
    | with_reducible refine State.writeMem_mem ?_
    | (with_reducible refine MemoryCanonical.each ?_ fun y a hy => ?_)

theorem State.decisionCycle_mem {s : State} (h : MemoryCanonical s) : MemoryCanonical (State.decisionCycle s) := by
  unfold State.decisionCycle
  try dsimp only
  repeat' first
    | with_reducible assumption
    | with_reducible refine MemoryCanonical.frame State.decideVTotal_frame (by decide) ?_
    | with_reducible refine MemoryCanonical.frame State.snapVTotal_frame (by decide) ?_
    | with_reducible refine MemoryCanonical.frame State.recVt_frame (by decide) ?_
    | with_reducible refine MemoryCanonical.frame State.onPnl_frame (by decide) ?_
    | with_reducible refine MemoryCanonical.frame State.sensorVector_frame (by decide) ?_
    | with_reducible refine MemoryCanonical.frame State.replaySamples_frame (by decide) ?_
    | with_reducible refine MemoryCanonical.frame State.retimerDecision_frame (by decide) ?_
    | with_reducible refine MemoryCanonical.frame State.sampleMset_frame (by decide) ?_
    | with_reducible refine State.writeContext_mem ?_

theorem State.deviceReset_mem {s : State} {a1 : Bool} : MemoryCanonical (s.deviceReset a1) := by
  have h : ∀ (x : State), x.dram = [] → MemoryCanonical x := fun x hx => by
    unfold MemoryCanonical
    rw [hx]
    rfl
  unfold State.deviceReset
  extract_lets c s1 r fresh s2
  have h2 : MemoryCanonical s2 := MemoryCanonical.frame State.setFs_frame (by decide) (h fresh rfl)
  clear_value s2
  split
  · exact MemoryCanonical.frame State.removeFall_frame (by decide) h2
  · exact h2

theorem State.xferLand_mem {s : State} {a1 : _} {a2 : _} {a3 : _} {a4 : _} {a5 : _} {a6 : _} (h : MemoryCanonical s)
    : MemoryCanonical (State.xferLand s a1 a2 a3 a4 a5 a6) := by
  unfold State.xferLand
  try dsimp only
  repeat' first
    | with_reducible assumption
    | with_reducible refine MemoryCanonical.frame State.showOutst_frame (by decide) ?_
    | with_reducible refine MemoryCanonical.frame State.onEng_frame (by decide) ?_
    | with_reducible refine MemoryCanonical.frame State.wrapF_frame (by decide) ?_
    | with_reducible refine State.moveXfer_mem ?_
    | with_reducible refine MemoryCanonical.frame State.engStopped_frame (by decide) ?_
    | with_reducible refine MemoryCanonical.frame State.finishXfer_frame (by decide) ?_
    | (split <;> try dsimp only)

theorem State.finishOne_mem {s : State} {a1 : _} {a2 : _} (h : MemoryCanonical s) : MemoryCanonical (State.finishOne
    s a1 a2) := by
  unfold State.finishOne
  try dsimp only
  repeat' first
    | with_reducible assumption
    | with_reducible refine MemoryCanonical.frame State.waitUntil_frame (by decide) ?_
    | with_reducible refine State.arriveAt_mem ?_
    | with_reducible refine State.xferLand_mem ?_
    | (with_reducible refine MemoryCanonical.foldl ?_ fun y a hy => ?_)
    | (split <;> try dsimp only)

theorem State.quietEngine_mem {s : State} {a1 : _} (h : MemoryCanonical s) : MemoryCanonical (State.quietEngine s
    a1) := by
  unfold State.quietEngine
  try dsimp only
  repeat' first
    | with_reducible assumption
    | with_reducible refine State.finishOne_mem ?_
    | with_reducible refine MemoryCanonical.frame State.setF_frame (by decide) ?_
    | with_reducible refine MemoryCanonical.frame State.setFs_frame (by decide) ?_
    | with_reducible refine MemoryCanonical.frame State.onEng_frame (by decide) ?_
    | (with_reducible refine MemoryCanonical.foldl ?_ fun y a hy => ?_)
    | (split <;> try dsimp only)
    | ((with_reducible refine MemoryCanonical.upd rfl rfl ?_ ?_); intro p hp; (cases p <;> (try (with_reducible
        rfl)));
        exact absurd (by decide) hp; (repeat (exact absurd (by decide) hp)))

theorem State.doldrumsEntered_mem {s : State} (h : MemoryCanonical s) : MemoryCanonical s.doldrumsEntered := by
  unfold State.doldrumsEntered
  split
  · extract_lets +onlyGivenNames s1 s2 s3
    have h1 : MemoryCanonical s1 := MemoryCanonical.frame State.waitUntil_frame (by decide) h
    clear_value s1
    have h2 : MemoryCanonical s2 := MemoryCanonical.each (MemoryCanonical.each h1
      fun y a hy => MemoryCanonical.foldl hy fun z g hz => State.quietEngine_mem hz)
      fun y a hy => MemoryCanonical.foldl hy fun z g hz => State.quietEngine_mem hz
    clear_value s2
    have h3 : MemoryCanonical s3 := MemoryCanonical.each (MemoryCanonical.each h2
      fun y a hy => MemoryCanonical.frame State.onCore_frame (by decide) hy)
      fun y a hy => MemoryCanonical.frame State.onBand_frame (by decide) hy
    clear_value s3
    exact MemoryCanonical.frame State.transitionDone_frame (by decide) (MemoryCanonical.frame State.relink_frame (by
        decide)
      (MemoryCanonical.frame State.setF_frame (by decide) (MemoryCanonical.frame State.stopFabric_frame (by decide)
          h3)))
  · exact h

theorem State.doldrumsExited_mem {s : State} (h : MemoryCanonical s) : MemoryCanonical s.doldrumsExited := by
  unfold State.doldrumsExited
  split
  · extract_lets s0 nb bands s1 s2 s3 s4 s5 s6
    have h0 : MemoryCanonical s0 := MemoryCanonical.frame State.setF_frame (by decide) (MemoryCanonical.frame
        State.waitUntil_frame (by decide) h)
    clear_value s0
    have h1 : MemoryCanonical s1 := MemoryCanonical.each (MemoryCanonical.each (MemoryCanonical.frame
        State.gateFor_frame (by decide) h0)
      fun y a hy => MemoryCanonical.frame State.onBand_frame (by decide) hy) fun y a hy => MemoryCanonical.frame
          State.onCore_frame (by decide) hy
    clear_value s1
    have h2 : MemoryCanonical s2 := MemoryCanonical.frame State.loadSet_frame (by decide)
      (MemoryCanonical.frame State.comeBack_frame (by decide) h1)
    clear_value s2
    have h3 : MemoryCanonical s3 := MemoryCanonical.each h2 fun y a hy => by
      split
      · exact MemoryCanonical.frame State.loadCore_frame (by decide) hy
      · exact hy
    clear_value s3
    have h4 : MemoryCanonical s4 := MemoryCanonical.frame State.transitionDone_frame (by decide)
        (MemoryCanonical.frame State.hpdPulse_frame (by decide)
      (MemoryCanonical.frame State.hpdPulse_frame (by decide) h3))
    clear_value s4
    have h5 : MemoryCanonical s5 := by
      unfold s5
      split
      · exact h4
      · exact State.rasterStart_mem h4
    have h6 : MemoryCanonical s6 := by
      clear_value s5
      unfold s6
      split
      · exact h5
      · split
        · exact MemoryCanonical.frame State.safeLeave_frame (by decide) h5
        · exact MemoryCanonical.frame State.setF_frame (by decide) h5
    exact MemoryCanonical.frame State.modeCheck_frame (by decide) (MemoryCanonical.frame State.relink_frame (by
        decide) h6)
  · exact h

theorem State.drzUpdate_mem {s : State} {a1 : _} (h : MemoryCanonical s) : MemoryCanonical (State.drzUpdate s a1) :=
    by
  unfold State.drzUpdate
  split
  · split
    · exact h
    extract_lets +onlyGivenNames s0 c us s1 s2 q s3
    clear_value us
    have h1 : MemoryCanonical s1 := State.writeMem_mem (MemoryCanonical.frame State.waitUntil_frame (by decide) h)
    clear_value s1
    have h2 : MemoryCanonical s2 :=
      MemoryCanonical.frame State.setF_frame (by decide) (MemoryCanonical.frame State.incF_frame (by decide)
        (MemoryCanonical.frame State.incF_frame (by decide) h1))
    clear_value s2
    have h3 : MemoryCanonical (s2.countArith (s2.phys 0) (Cnt.all (us.map fun u => u.2.2.2))) :=
      MemoryCanonical.frame State.countArith_frame (by decide) h2
    have h4 : MemoryCanonical s3 := h3
    clear_value s3
    exact MemoryCanonical.frame State.coverCheck_frame (by decide) (MemoryCanonical.frame State.drzTakeUp_frame (by
        decide)
      (MemoryCanonical.frame State.onDrz_frame (by decide) (MemoryCanonical.frame State.onDrzSet_frame (by decide)
          h4)))
  · exact h

theorem State.writeTagSide_mem {s : State} {a1 : _} {a2 : _} {a3 : _} {a4 : _} {a5 : _} {a6 : _} (h :
    MemoryCanonical s) : MemoryCanonical (State.writeTagSide s a1 a2 a3 a4 a5 a6) := by
  unfold State.writeTagSide
  try dsimp only
  repeat' first
    | with_reducible assumption
    | with_reducible refine State.writeMem_mem ?_

theorem State.writeRow_mem {s : State} {a1 : _} {a2 : _} {a3 : _} {a4 : _} {a5 : _} {a6 : _} (h : MemoryCanonical s)
    : MemoryCanonical (State.writeRow s a1 a2 a3 a4 a5 a6) := by
  unfold State.writeRow
  try dsimp only
  repeat' first
    | with_reducible assumption
    | with_reducible refine State.writeMem_mem ?_

theorem State.storeFar_mem {s : State} {a1 : _} {a2 : _} (h : MemoryCanonical s) : MemoryCanonical (State.storeFar s
    a1 a2) := by
  unfold State.storeFar
  try dsimp only
  repeat' first
    | with_reducible assumption
    | with_reducible refine MemoryCanonical.frame State.flushStage_frame (by decide) ?_
    | with_reducible refine State.writeElems_mem ?_
    | with_reducible refine MemoryCanonical.frame State.onCore_frame (by decide) ?_
    | with_reducible refine State.writeTagSide_mem ?_
    | with_reducible refine State.writeMem_mem ?_
    | with_reducible refine State.writeRow_mem ?_
    | (split <;> try dsimp only)

theorem State.emitOut_mem {s : State} {a1 : _} {a2 : _} (h : MemoryCanonical s) : MemoryCanonical (State.emitOut s
    a1 a2) := by
  unfold State.emitOut
  try dsimp only
  repeat' first
    | with_reducible assumption
    | with_reducible refine State.storeFar_mem ?_
    | with_reducible refine MemoryCanonical.frame State.onCore_frame (by decide) ?_
    | (split <;> try dsimp only)

theorem State.emitAt_mem {s : State} {a1 : _} {a2 : _} {a3 : _} {a4 : _} {a5 : _} {a6 : _} {a7 : _} (h :
    MemoryCanonical s) : MemoryCanonical (State.emitAt s a1 a2 a3 a4 a5 a6 a7) := by
  unfold State.emitAt
  try dsimp only
  repeat' first
    | with_reducible assumption
    | with_reducible refine State.emitOut_mem ?_

theorem State.emitRow_mem {s : State} {a1 : _} {a2 : _} {a3 : _} {a4 : _} {a5 : _} {a6 : _} {a7 : _} {a8 : _} (h :
    MemoryCanonical s) : MemoryCanonical (State.emitRow s a1 a2 a3 a4 a5 a6 a7 a8) := by
  unfold State.emitRow
  try dsimp only
  repeat' first
    | with_reducible assumption
    | with_reducible refine MemoryCanonical.frame State.observeAll_frame (by decide) ?_
    | with_reducible refine State.emitAt_mem ?_
    | with_reducible refine MemoryCanonical.frame State.observe_frame (by decide) ?_
    | with_reducible refine MemoryCanonical.frame State.countArith_frame (by decide) ?_
    | (split <;> try dsimp only)

theorem State.frameBoundary_mem {s : State} (h : MemoryCanonical s) : MemoryCanonical (State.frameBoundary s) := by
  unfold State.frameBoundary
  split
  · exact by assumption
  split
  · exact by assumption
  extract_lets +onlyGivenNames n scw s1 s2 q s3 c4 s4 s5 s6 s7 s8
  have h1 : MemoryCanonical s1 := MemoryCanonical.frame State.histSnap_frame (by decide) (MemoryCanonical.frame
      State.publish_frame (by decide) (MemoryCanonical.frame State.turnFrame_frame (by decide) (by assumption)))
  clear_value s1
  have h2 : MemoryCanonical s2 := MemoryCanonical.frame State.ctxBoundary_frame (by decide) (MemoryCanonical.each h1
      fun y a hy => MemoryCanonical.frame State.handoverDone_frame (by decide) (by assumption))
  clear_value s2
  have hq : MemoryCanonical q.1 := MemoryCanonical.frame State.msetSwitch_frame (by decide) h2
  clear_value q
  have h3 : MemoryCanonical s3 := MemoryCanonical.frame State.realtime_frame (by decide) (MemoryCanonical.frame
      State.weatherBoundary_frame (by decide) (MemoryCanonical.frame State.changeStep_frame (by decide) hq))
  clear_value s3
  have h4 : MemoryCanonical s4 := h3
  clear_value s4
  have h5 : MemoryCanonical s5 := MemoryCanonical.frame State.framesArrive_frame (by decide) (MemoryCanonical.frame
      State.planGrabs_frame (by decide) (MemoryCanonical.frame State.assign_frame (by decide) h4))
  clear_value s5
  have h6 : MemoryCanonical s6 := MemoryCanonical.frame State.dramBoundary_frame (by decide) (State.writeFormat_mem
      (MemoryCanonical.frame State.warpBoundary_frame (by decide) (MemoryCanonical.frame State.clausesBoundary_frame
      (by decide) h5)))
  clear_value s6
  have h7 : MemoryCanonical s7 := MemoryCanonical.frame State.forgetOld_frame (by decide) (MemoryCanonical.frame
      State.frostFix_frame (by decide) (MemoryCanonical.frame State.histTake_frame (by decide)
      (State.drzBoundary_mem h6)))
  clear_value s7
  have h8 : MemoryCanonical s8 := MemoryCanonical.frame State.replayFrame_frame (by decide) (MemoryCanonical.frame
      State.recordFrame_frame (by decide) (MemoryCanonical.frame State.recordingTake_frame (by decide)
      (MemoryCanonical.frame State.capPrune_frame (by decide) h7)))
  clear_value s8
  split
  · exact MemoryCanonical.frame State.enterDoldrums_frame (by decide) h8
  · exact MemoryCanonical.frame State.beginFrameUnits_frame (by decide) h8

theorem State.pipelineStart_mem {s : State} {a1 : _} {a2 : _} (h : MemoryCanonical s) : MemoryCanonical
    (State.pipelineStart s a1 a2) := by
  unfold State.pipelineStart
  try dsimp only
  repeat' first
    | with_reducible assumption
    | with_reducible refine MemoryCanonical.frame State.onInp_frame (by decide) ?_
    | with_reducible refine State.flushFrame_mem ?_
    | with_reducible refine MemoryCanonical.frame State.applyShadows_frame (by decide) ?_
    | with_reducible refine MemoryCanonical.frame State.setF_frame (by decide) ?_
    | with_reducible refine MemoryCanonical.frame State.stage8_frame (by decide) ?_
    | (split <;> try dsimp only)

theorem State.pairStart_mem {s : State} {a1 : _} {a2 : _} {a3 : _} (h : MemoryCanonical s) : MemoryCanonical
    (State.pairStart s a1 a2 a3) := by
  unfold State.pairStart
  try dsimp only
  repeat' first
    | with_reducible assumption
    | with_reducible refine MemoryCanonical.frame State.onInp_frame (by decide) ?_
    | with_reducible refine MemoryCanonical.frame State.joinRest_frame (by decide) ?_
    | with_reducible refine State.pipelineStart_mem ?_
    | with_reducible refine MemoryCanonical.frame State.cutInput_frame (by decide) ?_
    | with_reducible refine MemoryCanonical.frame State.setF_frame (by decide) ?_
    | (split <;> try dsimp only)

theorem State.inputStart_mem {s : State} {a1 : _} {a2 : _} (h : MemoryCanonical s) : MemoryCanonical
    (State.inputStart s a1 a2) := by
  unfold State.inputStart
  try dsimp only
  repeat' first
    | with_reducible assumption
    | with_reducible refine State.pairStart_mem ?_
    | with_reducible refine MemoryCanonical.frame State.onInp_frame (by decide) ?_
    | with_reducible refine State.pipelineStart_mem ?_
    | (split <;> try dsimp only)

theorem State.frameStart_mem {s : State} {a1 : _} {a2 : _} (h : MemoryCanonical s) : MemoryCanonical
    (State.frameStart s a1 a2) := by
  unfold State.frameStart
  try dsimp only
  repeat' first
    | with_reducible assumption
    | with_reducible refine MemoryCanonical.frame State.proveSignal_frame (by decide) ?_
    | with_reducible refine MemoryCanonical.frame State.portFrame_frame (by decide) ?_
    | with_reducible refine MemoryCanonical.frame State.sinkIrq_frame (by decide) ?_
    | with_reducible refine MemoryCanonical.frame State.portRestart_frame (by decide) ?_
    | with_reducible refine MemoryCanonical.frame State.gfxRestart_frame (by decide) ?_
    | with_reducible refine State.inputStart_mem ?_
    | (split <;> try dsimp only)

theorem State.gfxLine_mem {s : State} {a1 : _} {a2 : _} (h : MemoryCanonical s) : MemoryCanonical (State.gfxLine s
    a1 a2) := by
  unfold State.gfxLine
  try dsimp only
  repeat' first
    | with_reducible assumption
    | with_reducible refine MemoryCanonical.frame State.gfxDiscard_frame (by decide) ?_
    | with_reducible refine MemoryCanonical.frame State.onGfx_frame (by decide) ?_
    | with_reducible refine State.writeMem_mem ?_
    | with_reducible refine MemoryCanonical.frame State.gfxHide_frame (by decide) ?_
    | (split <;> try dsimp only)

theorem State.gradient_mem {s : State} {a1 : _} {a2 : _} {a3 : _} (h : MemoryCanonical s) : MemoryCanonical
    (State.gradient s a1 a2 a3) := by
  unfold State.gradient
  try dsimp only
  repeat' first
    | with_reducible assumption
    | with_reducible refine MemoryCanonical.frame State.refused1_frame (by decide) ?_
    | with_reducible refine MemoryCanonical.frame State.setThreadState_frame (by decide) ?_
    | with_reducible refine MemoryCanonical.frame State.rotate_frame (by decide) ?_
    | with_reducible refine MemoryCanonical.frame State.awaitUnit_frame (by decide) ?_
    | with_reducible refine MemoryCanonical.frame State.gradRun_frame (by decide) ?_
    | with_reducible refine MemoryCanonical.frame State.coreFault_frame (by decide) ?_
    | with_reducible refine MemoryCanonical.frame State.noteConflict_frame (by decide) ?_
    | with_reducible refine State.writeMem_mem ?_
    | with_reducible refine MemoryCanonical.frame State.inPipe_frame (by decide) ?_
    | with_reducible refine MemoryCanonical.frame State.occupy_frame (by decide) ?_
    | with_reducible refine MemoryCanonical.frame State.countArith_frame (by decide) ?_
    | with_reducible refine MemoryCanonical.frame State.onStep_frame (by decide) ?_
    | with_reducible refine MemoryCanonical.frame State.onCore_frame (by decide) ?_
    | (split <;> try dsimp only)

theorem State.handoverStart_mem {s : State} {a1 : _} (h : MemoryCanonical s) : MemoryCanonical (State.handoverStart
    s a1) := by
  unfold State.handoverStart
  try dsimp only
  repeat' first
    | ((with_reducible refine MemoryCanonical.upd rfl rfl ?_ ?_); intro p hp; (cases p <;> (try (with_reducible
        rfl)));
        exact absurd (by decide) hp; (repeat (exact absurd (by decide) hp)))
    | with_reducible assumption
    | with_reducible refine MemoryCanonical.frame State.failRuns_frame (by decide) ?_
    | with_reducible refine MemoryCanonical.frame State.waitUntil_frame (by decide) ?_
    | with_reducible refine MemoryCanonical.frame State.setThreadState_frame (by decide) ?_
    | with_reducible refine State.quietEngine_mem ?_
    | with_reducible refine MemoryCanonical.frame State.setF_frame (by decide) ?_
    | with_reducible refine MemoryCanonical.frame State.copyTables_frame (by decide) ?_
    | with_reducible refine MemoryCanonical.frame State.leaveRuns_frame (by decide) ?_
    | with_reducible refine MemoryCanonical.frame State.onCore_frame (by decide) ?_
    | (with_reducible refine MemoryCanonical.each ?_ fun y a hy => ?_)
    | (with_reducible refine MemoryCanonical.foldl ?_ fun y a hy => ?_)
    | (split <;> try dsimp only)

theorem State.handoverStep_mem {s : State} {a1 : _} (h : MemoryCanonical s) : MemoryCanonical (State.handoverStep s
    a1) := by
  unfold State.handoverStep
  try dsimp only
  repeat' first
    | with_reducible assumption
    | with_reducible refine State.handoverStart_mem ?_
    | with_reducible refine MemoryCanonical.frame State.abandonSteps_frame (by decide) ?_
    | (split <;> try dsimp only)

theorem State.hostMem_mem {s : State} {a1 : _} {a2 : _} (h : MemoryCanonical s) : MemoryCanonical (State.hostMem s
    a1 a2).2 := by
  unfold State.hostMem
  try dsimp only
  repeat' first
    | with_reducible assumption
    | with_reducible refine MemoryCanonical.frame State.replayRefuse_frame (by decide) ?_
    | with_reducible refine State.loggedMem_mem ?_
    | (split <;> try dsimp only)

theorem State.hostPage_mem {s : State} {a1 : _} {a2 : _} (h : MemoryCanonical s) : MemoryCanonical (State.hostPage s
    a1 a2).2 := by
  unfold State.hostPage
  try dsimp only
  repeat' first
    | with_reducible assumption
    | with_reducible refine MemoryCanonical.frame State.replayRefuse_frame (by decide) ?_
    | with_reducible refine State.loggedMem_mem ?_
    | (split <;> try dsimp only)

theorem State.replayWrite_mem {s : State} {a1 : _} (h : MemoryCanonical s) : MemoryCanonical (State.replayWrite s
    a1) := by
  unfold State.replayWrite
  try dsimp only
  repeat' first
    | with_reducible assumption
    | with_reducible refine State.applyWrite_mem ?_

theorem State.replayGo_mem {s : State} (h : MemoryCanonical s) : MemoryCanonical s.replayGo := by
  unfold State.replayGo
  extract_lets +onlyGivenNames es u0 s0
  have h0 : MemoryCanonical s0 := MemoryCanonical.frame State.setAud_frame (by decide) h
  clear_value s0
  split
  · exact MemoryCanonical.frame State.modeCheck_frame (by decide) (State.rasterStart_mem
      (MemoryCanonical.frame State.setF_frame (by decide) h0))
  · extract_lets +onlyGivenNames early s1
    have h1 : MemoryCanonical s1 := MemoryCanonical.frame State.setF_frame (by decide)
      (MemoryCanonical.foldl h0 fun y a hy => State.replayWrite_mem hy)
    clear_value s1
    exact State.rasterStart_mem (MemoryCanonical.frame State.setAud_frame (by decide) h1)

theorem State.hostWrite_mem {s : State} {a1 : _} {a2 : _} (h : MemoryCanonical s) : MemoryCanonical (State.hostWrite
    s a1 a2).2 := by
  unfold State.hostWrite
  try dsimp only
  repeat' first
    | with_reducible assumption
    | with_reducible refine MemoryCanonical.frame State.replayRefuse_frame (by decide) ?_
    | with_reducible refine State.loggedWrite_mem ?_
    | with_reducible refine State.replayGo_mem ?_
    | (split <;> try dsimp only)

theorem State.inputLine_mem {s : State} {a1 : _} {a2 : _} {a3 : _} {a4 : _} (h : MemoryCanonical s) :
    MemoryCanonical (State.inputLine s a1 a2 a3 a4) := by
  unfold State.inputLine
  try dsimp only
  repeat' first
    | with_reducible assumption
    | with_reducible refine MemoryCanonical.frame State.countLine_frame (by decide) ?_
    | with_reducible refine State.gfxLine_mem ?_
    | with_reducible refine MemoryCanonical.frame State.pictureLine_frame (by decide) ?_
    | (split <;> try dsimp only)

theorem State.poolPart_mem {s : State} {a1 : _} {a2 : _} {a3 : _} {a4 : _} {a5 : _} {a6 : _} {a7 : _} {a8 : _} {a9 :
    _} {a10 : _} (h : MemoryCanonical s) : MemoryCanonical (State.poolPart s a1 a2 a3 a4 a5 a6 a7 a8 a9 a10).1 := by
  unfold State.poolPart
  try dsimp only
  repeat' first
    | with_reducible assumption
    | with_reducible refine MemoryCanonical.frame State.narrowRead_frame (by decide) ?_
    | with_reducible refine State.emitRow_mem ?_
    | with_reducible refine MemoryCanonical.frame State.stageBytes_frame (by decide) ?_
    | (split <;> try dsimp only)

theorem State.poolRow_mem {s : State} {a1 : _} {a2 : _} {a3 : _} {a4 : _} {a5 : _} {a6 : _} {a7 : _} {a8 : _} {a9 :
    _} (h : MemoryCanonical s) : MemoryCanonical (State.poolRow s a1 a2 a3 a4 a5 a6 a7 a8 a9).1 := by
  unfold State.poolRow
  split
  · exact State.emitRow_mem (by assumption)
  extract_lets +onlyGivenNames hp wp s1 val r
  have h1 : MemoryCanonical s1 := MemoryCanonical.frame State.onCore_frame (by decide) (by assumption)
  clear_value s1
  have hr : MemoryCanonical r.1 := by
    refine MemoryCanonical.foldl_fst h1 fun y a hy => ?_
    dsimp only
    refine MemoryCanonical.foldl_fst (by assumption) fun y a hy => ?_
    split
    · exact by assumption
    split
    · exact State.emitRow_mem (by assumption)
    · exact State.poolPart_mem (by assumption)
  clear_value r
  dsimp only
  split
  · exact MemoryCanonical.frame State.onCore_frame (by decide) hr
  · exact hr

theorem State.requant_mem {s : State} {a1 : _} {a2 : _} {a3 : _} {a4 : _} {a5 : _} {a6 : _} {a7 : _} {a8 : _} {a9 :
    _} {a10 : _} (h : MemoryCanonical s) : MemoryCanonical (State.requant s a1 a2 a3 a4 a5 a6 a7 a8 a9 a10).1 := by
  unfold State.requant
  try dsimp only
  repeat' first
    | with_reducible assumption
    | with_reducible refine MemoryCanonical.frame State.partials_frame (by decide) ?_
    | with_reducible refine MemoryCanonical.frame State.observeAll_frame (by decide) ?_
    | with_reducible refine MemoryCanonical.frame State.countArith_frame (by decide) ?_
    | with_reducible refine State.emitAt_mem ?_
    | with_reducible refine MemoryCanonical.frame State.chanParams_frame (by decide) ?_
    | with_reducible refine State.poolRow_mem ?_
    | (split <;> try dsimp only)

theorem State.stepBody_mem {s : State} {a1 : _} {a2 : _} {a3 : _} {a4 : _} {a5 : _} {a6 : _} {a7 : _} {a8 : _} (h :
    MemoryCanonical s) : MemoryCanonical (State.stepBody s a1 a2 a3 a4 a5 a6 a7 a8).1 := by
  unfold State.stepBody
  try dsimp only
  repeat' first
    | with_reducible assumption
    | with_reducible refine MemoryCanonical.frame State.incF_frame (by decide) ?_
    | with_reducible refine MemoryCanonical.frame State.countArith_frame (by decide) ?_
    | with_reducible refine MemoryCanonical.frame State.onCore_frame (by decide) ?_
    | with_reducible refine MemoryCanonical.frame State.inPipe_frame (by decide) ?_
    | with_reducible refine MemoryCanonical.frame State.occupy_frame (by decide) ?_
    | with_reducible refine State.requant_mem ?_
    | with_reducible refine MemoryCanonical.frame State.endLine_frame (by decide) ?_
    | with_reducible refine State.emitAt_mem ?_
    | (split <;> try dsimp only)

theorem State.issueStep_mem {s : State} {a1 : _} {a2 : _} {a3 : _} {a4 : _} (h : MemoryCanonical s) :
    MemoryCanonical (State.issueStep s a1 a2 a3 a4) := by
  unfold State.issueStep
  try dsimp only
  repeat' first
    | with_reducible assumption
    | with_reducible refine MemoryCanonical.frame State.refused1_frame (by decide) ?_
    | with_reducible refine MemoryCanonical.frame State.awaitUnit_frame (by decide) ?_
    | with_reducible refine MemoryCanonical.frame State.setWait_frame (by decide) ?_
    | with_reducible refine MemoryCanonical.frame State.dynStart_frame (by decide) ?_
    | with_reducible refine MemoryCanonical.frame State.endLine_frame (by decide) ?_
    | with_reducible refine MemoryCanonical.frame State.runOn_frame (by decide) ?_
    | with_reducible refine MemoryCanonical.frame State.fixBank_frame (by decide) ?_
    | with_reducible refine MemoryCanonical.frame State.rotate_frame (by decide) ?_
    | with_reducible refine MemoryCanonical.frame State.stepChecks_frame (by decide) ?_
    | with_reducible refine State.stepBody_mem ?_
    | with_reducible refine MemoryCanonical.frame State.onCore_frame (by decide) ?_
    | with_reducible refine MemoryCanonical.frame State.coreFault_frame (by decide) ?_
    | with_reducible refine MemoryCanonical.frame State.noteConflict_frame (by decide) ?_
    | with_reducible refine MemoryCanonical.frame State.parityError_frame (by decide) ?_
    | (with_reducible refine MemoryCanonical.foldl ?_ fun y a hy => ?_)
    | (split <;> try dsimp only)

theorem State.lineStart_mem {s : State} (h : MemoryCanonical s) : MemoryCanonical (State.lineStart s) := by
  unfold State.lineStart
  try dsimp only
  repeat' first
    | with_reducible assumption
    | with_reducible refine MemoryCanonical.frame State.waitUntil_frame (by decide) ?_
    | with_reducible refine MemoryCanonical.frame State.snapStop_frame (by decide) ?_
    | with_reducible refine MemoryCanonical.frame State.snapLine_frame (by decide) ?_
    | with_reducible refine MemoryCanonical.frame State.closeWindow_frame (by decide) ?_
    | with_reducible refine MemoryCanonical.frame State.lanePhase0_frame (by decide) ?_
    | with_reducible refine State.decisionCycle_mem ?_
    | (split <;> try dsimp only)
    | ((with_reducible refine MemoryCanonical.upd rfl rfl ?_ ?_); intro p hp; (cases p <;> (try (with_reducible
        rfl)));
        exact absurd (by decide) hp; (repeat (exact absurd (by decide) hp)))

theorem State.logWrite_mem {s : State} (h : MemoryCanonical s) : MemoryCanonical (State.logWrite s) := by
  unfold State.logWrite
  try dsimp only
  repeat' first
    | with_reducible assumption
    | with_reducible refine MemoryCanonical.frame State.setF_frame (by decide) ?_
    | with_reducible refine State.writeMem_mem ?_
    | with_reducible refine MemoryCanonical.frame State.putLost_frame (by decide) ?_
    | (split <;> try dsimp only)
    | ((with_reducible refine MemoryCanonical.upd rfl rfl ?_ ?_); intro p hp; (cases p <;> (try (with_reducible
        rfl)));
        exact absurd (by decide) hp; (repeat (exact absurd (by decide) hp)))

theorem State.mcastAccepted_mem {s : State} (h : MemoryCanonical s) : MemoryCanonical (State.mcastAccepted s) := by
  unfold State.mcastAccepted
  split
  · exact by assumption
  split
  · exact by assumption
  extract_lets +onlyGivenNames s0
  have h0 : MemoryCanonical s0 := MemoryCanonical.frame State.waitUntil_frame (by decide) (by assumption)
  clear_value s0
  split
  · exact h0
  extract_lets +onlyGivenNames d q
  have hq : MemoryCanonical q.1 := MemoryCanonical.foldl_fst h0 fun y a hy => MemoryCanonical.frame
      State.bgTurn_frame (by decide) (by assumption)
  clear_value q
  split
  · exact hq
  extract_lets +onlyGivenNames x1 x2 s1
  have h1 : MemoryCanonical s1 := hq
  clear_value s1
  exact MemoryCanonical.frame State.accepted_frame (by decide) (MemoryCanonical.foldl h1 fun y a hy =>
      State.arriveAt_mem (by assumption))

theorem State.prefixPos_mem {s : State} {a1 : _} {a2 : _} {a3 : _} {a4 : _} {a5 : _} {a6 : _} {a7 : _} (h :
    MemoryCanonical s) : MemoryCanonical (State.prefixPos s a1 a2 a3 a4 a5 a6 a7).1 := by
  unfold State.prefixPos
  extract_lets +onlyGivenNames rd
  have h : MemoryCanonical rd.2.1 := MemoryCanonical.frame State.prefixReads_frame (by decide) (by assumption)
  clear_value rd
  split
  · exact h
  · extract_lets +onlyGivenNames form c cb vs s1
    have h1 : MemoryCanonical s1 := MemoryCanonical.frame State.observeAll_frame (by decide) (MemoryCanonical.frame
        State.countArith_frame (by decide) h)
    clear_value s1
    refine MemoryCanonical.foldl_fst h1 fun y a hy => ?_
    dsimp only
    split
    · exact by assumption
    · exact State.requant_mem (MemoryCanonical.frame State.countArith_frame (by decide) (by assumption))

theorem State.prefixLayer_mem {s : State} {a1 : _} {a2 : _} {a3 : _} {a4 : _} {a5 : _} {a6 : _} (h : MemoryCanonical
    s) : MemoryCanonical (State.prefixLayer s a1 a2 a3 a4 a5 a6) := by
  unfold State.prefixLayer
  split
  · exact by assumption
  extract_lets +onlyGivenNames d m
  split
  · exact by assumption
  split
  · exact MemoryCanonical.frame State.refused1_frame (by decide) (by assumption)
  extract_lets +onlyGivenNames s0
  have h0 : MemoryCanonical s0 := MemoryCanonical.frame State.awaitUnit_frame (by decide) (by assumption)
  clear_value s0
  split
  · exact MemoryCanonical.frame State.setWait_frame (by decide) h0
  · exact by assumption
  rename_i start _ _
  extract_lets +onlyGivenNames q
  have hq : MemoryCanonical q.1 := by
    unfold q
    split
    · exact MemoryCanonical.frame State.dynStart_frame (by decide) h0
    · exact h0
  clear_value q
  split
  · exact MemoryCanonical.frame State.endLine_frame (by decide) (MemoryCanonical.frame State.runOn_frame (by decide)
      hq)
  extract_lets +onlyGivenNames ext s1 f
  have h1 : MemoryCanonical s1 := MemoryCanonical.frame State.runOn_frame (by decide) (MemoryCanonical.frame
      State.rotate_frame (by decide) hq)
  clear_value s1 f
  split
  · exact MemoryCanonical.frame State.coreFault_frame (by decide) (MemoryCanonical.frame State.noteConflict_frame
      (by decide) h1)
  split
  · exact by assumption
  extract_lets +onlyGivenNames r
  have hr : MemoryCanonical r.1 := by
    refine MemoryCanonical.foldl_fst (MemoryCanonical.frame State.engineRun_frame (by decide) h1) fun y a hy => ?_
    split
    · exact by assumption
    · exact State.prefixPos_mem (by assumption)
  clear_value r
  split
  · exact MemoryCanonical.frame State.coreFault_frame (by decide) hr
  extract_lets +onlyGivenNames s2
  have h2 : MemoryCanonical s2 := by
    unfold s2
    split
    · exact State.emitAt_mem hr
    · exact hr
  exact MemoryCanonical.frame State.endLine_frame (by decide) h2

theorem State.recWrite_mem {s : State} (h : MemoryCanonical s) : MemoryCanonical (State.recWrite s) := by
  unfold State.recWrite
  try dsimp only
  repeat' first
    | with_reducible assumption
    | with_reducible refine MemoryCanonical.frame State.recRefresh_frame (by decide) ?_
    | with_reducible refine State.writeMem_mem ?_
    | with_reducible refine MemoryCanonical.frame State.setF_frame (by decide) ?_
    | (split <;> try dsimp only)
    | ((with_reducible refine MemoryCanonical.upd rfl rfl ?_ ?_); intro p hp; (cases p <;> (try (with_reducible
        rfl)));
        exact absurd (by decide) hp; (repeat (exact absurd (by decide) hp)))

theorem State.remoteArrival_mem {s : State} {a1 : _} (h : MemoryCanonical s) : MemoryCanonical (State.remoteArrival
    s a1) := by
  unfold State.remoteArrival
  try dsimp only
  repeat' first
    | with_reducible assumption
    | with_reducible refine MemoryCanonical.frame State.waitUntil_frame (by decide) ?_
    | with_reducible refine MemoryCanonical.frame State.bgTurn_frame (by decide) ?_
    | with_reducible refine MemoryCanonical.frame State.accepted_frame (by decide) ?_
    | with_reducible refine State.arriveAt_mem ?_
    | (split <;> try dsimp only)
    | ((with_reducible refine MemoryCanonical.upd rfl rfl ?_ ?_); intro p hp; (cases p <;> (try (with_reducible
        rfl)));
        exact absurd (by decide) hp; (repeat (exact absurd (by decide) hp)))

theorem State.replayApply_mem {s : State} (h : MemoryCanonical s) : MemoryCanonical (State.replayApply s) := by
  unfold State.replayApply
  try dsimp only
  repeat' first
    | with_reducible assumption
    | with_reducible refine MemoryCanonical.frame State.diverge_frame (by decide) ?_
    | with_reducible refine MemoryCanonical.frame State.incF_frame (by decide) ?_
    | with_reducible refine MemoryCanonical.frame State.waitUntil_frame (by decide) ?_
    | with_reducible refine State.replayWrite_mem ?_
    | (split <;> try dsimp only)
    | ((with_reducible refine MemoryCanonical.upd rfl rfl ?_ ?_); intro p hp; (cases p <;> (try (with_reducible
        rfl)));
        exact absurd (by decide) hp; (repeat (exact absurd (by decide) hp)))

theorem State.scheduleChange_mem {s : State} (h : MemoryCanonical s) : MemoryCanonical s.scheduleChange := by
  unfold State.scheduleChange
  split
  · split
    · exact h
    · extract_lets +onlyGivenNames m sc s1 s2 s3 s4 s5 nextF s6 x
      have h1 : MemoryCanonical s1 := MemoryCanonical.frame State.abandonRuns_frame (by decide)
        (MemoryCanonical.frame State.waitUntil_frame (by decide) h)
      clear_value s1
      have h2 : MemoryCanonical s2 := MemoryCanonical.each h1 fun y a hy =>
        MemoryCanonical.foldl hy fun z g hz => State.quietEngine_mem hz
      clear_value s2
      have h3 : MemoryCanonical s3 := MemoryCanonical.each h2 fun y a hy =>
        MemoryCanonical.foldl hy fun z g hz => State.quietEngine_mem hz
      clear_value s3
      have h4 : MemoryCanonical s4 := MemoryCanonical.each h3 fun y a hy =>
        MemoryCanonical.frame State.initSems_frame (by decide) hy
      clear_value s4
      have h5 : MemoryCanonical s5 := MemoryCanonical.frame State.waitUntil_frame (by decide)
        (MemoryCanonical.frame State.installTables_frame (by decide) h4)
      clear_value s5
      have h6 : MemoryCanonical s6 := MemoryCanonical.frame State.installRt_frame (by decide) h5
      clear_value s6
      exact h6
  · exact h

theorem State.scheduleChangeStep_mem {s : State} (h : MemoryCanonical s) : MemoryCanonical (State.scheduleChangeStep
    s) := by
  unfold State.scheduleChangeStep
  try dsimp only
  repeat' first
    | with_reducible assumption
    | with_reducible refine State.scheduleChange_mem ?_
    | with_reducible refine MemoryCanonical.frame State.abandonSteps_frame (by decide) ?_
    | with_reducible refine MemoryCanonical.frame State.drzHist_frame (by decide) ?_
    | (split <;> try dsimp only)

theorem State.snapDone_mem {s : State} (h : MemoryCanonical s) : MemoryCanonical s.snapDone := by
  unfold State.snapDone
  extract_lets +onlyGivenNames n
  split
  · extract_lets +onlyGivenNames s1
    have h1 : MemoryCanonical s1 := by
      unfold s1
      split
      · exact h
      · refine MemoryCanonical.foldl h fun y m hy => Memory.wf_blit m.off m.len hy fun e he => ?_
        simpa using List.of_mem_filter he
    exact MemoryCanonical.frame State.setFs_frame (by decide) h1
  · exact h

theorem State.stage10_mem {s : State} (h : MemoryCanonical s) : MemoryCanonical (State.stage10 s) := by
  unfold State.stage10
  try dsimp only
  repeat' first
    | with_reducible assumption
    | with_reducible refine State.writeLine_mem ?_
    | (split <;> try dsimp only)

theorem State.switchOpen_mem {s : State} : MemoryCanonical s.switchOpen := by
  unfold State.switchOpen MemoryCanonical
  rfl

theorem State.tplLoadPage_mem {s : State} (h : MemoryCanonical s) : MemoryCanonical (State.tplLoadPage s) := by
  unfold State.tplLoadPage
  refine State.serve_mem h fun y r au hy => ?_
  try dsimp only
  repeat' first
    | with_reducible assumption
    | with_reducible refine MemoryCanonical.frame State.finish_frame (by decide) ?_
    | with_reducible refine MemoryCanonical.frame State.replayRefuse_frame (by decide) ?_
    | with_reducible refine MemoryCanonical.frame State.hostRefuse_frame (by decide) ?_
    | with_reducible refine MemoryCanonical.frame State.onTpl_frame (by decide) ?_
    | with_reducible refine State.hostPage_mem ?_
    | (split <;> try dsimp only)

theorem State.tplWriteMem_mem {s : State} (h : MemoryCanonical s) : MemoryCanonical (State.tplWriteMem s) := by
  unfold State.tplWriteMem
  refine State.serve_mem h fun y r au hy => ?_
  try dsimp only
  repeat' first
    | with_reducible assumption
    | with_reducible refine MemoryCanonical.frame State.finish_frame (by decide) ?_
    | with_reducible refine State.hostMem_mem ?_
    | (split <;> try dsimp only)

theorem State.writeEntry_mem {s : State} {a1 : _} {a2 : _} {a3 : _} (h : MemoryCanonical s) : MemoryCanonical
    (State.writeEntry s a1 a2 a3).2 := by
  unfold State.writeEntry
  try dsimp only
  repeat' first
    | with_reducible assumption
    | with_reducible refine MemoryCanonical.frame State.incF_frame (by decide) ?_
    | with_reducible refine State.hostWrite_mem ?_
    | (split <;> try dsimp only)

theorem State.writeEntries_mem {a0 : Bool} {a1 : List (Nat × Nat)} {a2 : Nat} {s : State} {a4 : List Nat}
    (h : MemoryCanonical s) : MemoryCanonical (State.writeEntries a0 a1 a2 s a4).2 := by
  induction a1 generalizing s a2 a4 with
  | nil => exact h
  | cons e es ih =>
    unfold State.writeEntries
    refine ih (State.writeEntry_mem ?_)
    split
    · exact h
    · exact MemoryCanonical.frame State.advance_frame (by decide) h

theorem State.tplWriteReg_mem {s : State} (h : MemoryCanonical s) : MemoryCanonical (State.tplWriteReg s) := by
  unfold State.tplWriteReg
  refine State.serve_mem h fun y r au hy => ?_
  try dsimp only
  repeat' first
    | with_reducible assumption
    | with_reducible refine MemoryCanonical.frame State.finish_frame (by decide) ?_
    | with_reducible refine State.writeEntries_mem ?_
    | (with_reducible refine MemoryCanonical.foldl ?_ fun y a hy => ?_)
    | (split <;> try dsimp only)

theorem State.warpRowWrite_mem {s : State} {a1 : _} (h : MemoryCanonical s) : MemoryCanonical (State.warpRowWrite s
    a1) := by
  unfold State.warpRowWrite
  try dsimp only
  repeat' first
    | ((with_reducible refine MemoryCanonical.upd rfl rfl ?_ ?_); intro p hp; (cases p <;> (try (with_reducible
        rfl)));
        exact absurd (by decide) hp; (repeat (exact absurd (by decide) hp)))
    | with_reducible assumption
    | with_reducible refine MemoryCanonical.frame State.waitUntil_frame (by decide) ?_
    | with_reducible refine MemoryCanonical.frame State.incF_frame (by decide) ?_
    | with_reducible refine MemoryCanonical.frame State.lsMark_frame (by decide) ?_
    | with_reducible refine State.writeMem_mem ?_
    | (split <;> try dsimp only)

theorem State.xferComplete_mem {s : State} {a1 : _} {a2 : _} {a3 : _} (h : MemoryCanonical s) : MemoryCanonical
    (State.xferComplete s a1 a2 a3) := by
  unfold State.xferComplete
  try dsimp only
  repeat' first
    | with_reducible assumption
    | with_reducible refine MemoryCanonical.frame State.engStopped_frame (by decide) ?_
    | with_reducible refine MemoryCanonical.frame State.showOutst_frame (by decide) ?_
    | with_reducible refine MemoryCanonical.frame State.onEng_frame (by decide) ?_
    | with_reducible refine MemoryCanonical.frame State.xferTurn_frame (by decide) ?_
    | with_reducible refine MemoryCanonical.frame State.waitUntil_frame (by decide) ?_
    | with_reducible refine MemoryCanonical.frame State.srcEcc_frame (by decide) ?_
    | with_reducible refine MemoryCanonical.frame State.xferBad_frame (by decide) ?_
    | with_reducible refine State.xferLand_mem ?_
    | (split <;> try dsimp only)

end Sys2Proof.Machine
end

