-- ==== Sys2Proof/Laws/State.lean ====
section
/-! SUPPORT. What each update of the state leaves as it was, one lemma per field, and what a field of the register file
reads after a write. -/
namespace Sys2Proof.Machine

/-! ### setF -/

@[simp] theorem State.setF_pending (s : State) (f : Fld) (v : Nat) : (s.setF f v).pending = s.pending := rfl
@[simp] theorem State.setF_free (s : State) (f : Fld) (v : Nat) : (s.setF f v).free = s.free := rfl
@[simp] theorem State.setF_now (s : State) (f : Fld) (v : Nat) : (s.setF f v).now = s.now := rfl
@[simp] theorem State.setF_cal (s : State) (f : Fld) (v : Nat) : (s.setF f v).cal = s.cal := rfl
@[simp] theorem State.setF_latch (s : State) (f : Fld) (v : Nat) : (s.setF f v).latch = s.latch := rfl
@[simp] theorem State.setF_dram (s : State) (f : Fld) (v : Nat) : (s.setF f v).dram = s.dram := rfl
@[simp] theorem State.setF_dramBad (s : State) (f : Fld) (v : Nat) : (s.setF f v).dramBad = s.dramBad := rfl
@[simp] theorem State.setF_drm (s : State) (f : Fld) (v : Nat) : (s.setF f v).drm = s.drm := rfl
@[simp] theorem State.setF_cores (s : State) (f : Fld) (v : Nat) : (s.setF f v).cores = s.cores := rfl
@[simp] theorem State.setF_bands (s : State) (f : Fld) (v : Nat) : (s.setF f v).bands = s.bands := rfl
@[simp] theorem State.setF_prog (s : State) (f : Fld) (v : Nat) : (s.setF f v).prog = s.prog := rfl
@[simp] theorem State.setF_almanac (s : State) (f : Fld) (v : Nat) : (s.setF f v).almanac = s.almanac := rfl
@[simp] theorem State.setF_sched (s : State) (f : Fld) (v : Nat) : (s.setF f v).sched = s.sched := rfl
@[simp] theorem State.setF_noBase1 (s : State) (f : Fld) (v : Nat) : (s.setF f v).noBase1 = s.noBase1 := rfl
@[simp] theorem State.setF_change (s : State) (f : Fld) (v : Nat) : (s.setF f v).change = s.change := rfl
@[simp] theorem State.setF_firstLines (s : State) (f : Fld) (v : Nat) : (s.setF f v).firstLines = s.firstLines := rfl
@[simp] theorem State.setF_bucket (s : State) (f : Fld) (v : Nat) : (s.setF f v).bucket = s.bucket := rfl
@[simp] theorem State.setF_pstate (s : State) (f : Fld) (v : Nat) : (s.setF f v).pstate = s.pstate := rfl
@[simp] theorem State.setF_msetSample (s : State) (f : Fld) (v : Nat) : (s.setF f v).msetSample = s.msetSample := rfl
@[simp] theorem State.setF_mwinEnd (s : State) (f : Fld) (v : Nat) : (s.setF f v).mwinEnd = s.mwinEnd := rfl
@[simp] theorem State.setF_fc (s : State) (f : Fld) (v : Nat) : (s.setF f v).fc = s.fc := rfl
@[simp] theorem State.setF_fab (s : State) (f : Fld) (v : Nat) : (s.setF f v).fab = s.fab := rfl
@[simp] theorem State.setF_remotes (s : State) (f : Fld) (v : Nat) : (s.setF f v).remotes = s.remotes := rfl
@[simp] theorem State.setF_signals (s : State) (f : Fld) (v : Nat) : (s.setF f v).signals = s.signals := rfl
@[simp] theorem State.setF_inp (s : State) (f : Fld) (v : Nat) : (s.setF f v).inp = s.inp := rfl
@[simp] theorem State.setF_hist (s : State) (f : Fld) (v : Nat) : (s.setF f v).hist = s.hist := rfl
@[simp] theorem State.setF_arrived (s : State) (f : Fld) (v : Nat) : (s.setF f v).arrived = s.arrived := rfl
@[simp] theorem State.setF_avail (s : State) (f : Fld) (v : Nat) : (s.setF f v).avail = s.avail := rfl
@[simp] theorem State.setF_tau (s : State) (f : Fld) (v : Nat) : (s.setF f v).tau = s.tau := rfl
@[simp] theorem State.setF_rtFirst (s : State) (f : Fld) (v : Nat) : (s.setF f v).rtFirst = s.rtFirst := rfl
@[simp] theorem State.setF_rtJ0 (s : State) (f : Fld) (v : Nat) : (s.setF f v).rtJ0 = s.rtJ0 := rfl
@[simp] theorem State.setF_ctx (s : State) (f : Fld) (v : Nat) : (s.setF f v).ctx = s.ctx := rfl
@[simp] theorem State.setF_ctxNext (s : State) (f : Fld) (v : Nat) : (s.setF f v).ctxNext = s.ctxNext := rfl
@[simp] theorem State.setF_warp (s : State) (f : Fld) (v : Nat) : (s.setF f v).warp = s.warp := rfl
@[simp] theorem State.setF_box (s : State) (f : Fld) (v : Nat) : (s.setF f v).box = s.box := rfl
@[simp] theorem State.setF_drz (s : State) (f : Fld) (v : Nat) : (s.setF f v).drz = s.drz := rfl
@[simp] theorem State.setF_frost (s : State) (f : Fld) (v : Nat) : (s.setF f v).frost = s.frost := rfl
@[simp] theorem State.setF_sns (s : State) (f : Fld) (v : Nat) : (s.setF f v).sns = s.sns := rfl
@[simp] theorem State.setF_cmp (s : State) (f : Fld) (v : Nat) : (s.setF f v).cmp = s.cmp := rfl
@[simp] theorem State.setF_pnl (s : State) (f : Fld) (v : Nat) : (s.setF f v).pnl = s.pnl := rfl
@[simp] theorem State.setF_fbSegs (s : State) (f : Fld) (v : Nat) : (s.setF f v).fbSegs = s.fbSegs := rfl
@[simp] theorem State.setF_fbStarted (s : State) (f : Fld) (v : Nat) : (s.setF f v).fbStarted = s.fbStarted := rfl
@[simp] theorem State.setF_sel (s : State) (f : Fld) (v : Nat) : (s.setF f v).sel = s.sel := rfl
@[simp] theorem State.setF_fbNow (s : State) (f : Fld) (v : Nat) : (s.setF f v).fbNow = s.fbNow := rfl
@[simp] theorem State.setF_fbNext (s : State) (f : Fld) (v : Nat) : (s.setF f v).fbNext = s.fbNext := rfl
@[simp] theorem State.setF_pwr (s : State) (f : Fld) (v : Nat) : (s.setF f v).pwr = s.pwr := rfl
@[simp] theorem State.setF_seq (s : State) (f : Fld) (v : Nat) : (s.setF f v).seq = s.seq := rfl
@[simp] theorem State.setF_boot (s : State) (f : Fld) (v : Nat) : (s.setF f v).boot = s.boot := rfl
@[simp] theorem State.setF_aud (s : State) (f : Fld) (v : Nat) : (s.setF f v).aud = s.aud := rfl
@[simp] theorem State.setF_led (s : State) (f : Fld) (v : Nat) : (s.setF f v).led = s.led := rfl
@[simp] theorem State.setF_tpl (s : State) (f : Fld) (v : Nat) : (s.setF f v).tpl = s.tpl := rfl
@[simp] theorem State.setF_tds (s : State) (f : Fld) (v : Nat) : (s.setF f v).tds = s.tds := rfl
@[simp] theorem State.setF_stat (s : State) (f : Fld) (v : Nat) : (s.setF f v).stat = s.stat := rfl

/-! ### incF -/

@[simp] theorem State.incF_pending (s : State) (f : Fld) (v : Nat) : (s.incF f v).pending = s.pending := rfl
@[simp] theorem State.incF_free (s : State) (f : Fld) (v : Nat) : (s.incF f v).free = s.free := rfl
@[simp] theorem State.incF_now (s : State) (f : Fld) (v : Nat) : (s.incF f v).now = s.now := rfl
@[simp] theorem State.incF_cal (s : State) (f : Fld) (v : Nat) : (s.incF f v).cal = s.cal := rfl
@[simp] theorem State.incF_latch (s : State) (f : Fld) (v : Nat) : (s.incF f v).latch = s.latch := rfl
@[simp] theorem State.incF_dram (s : State) (f : Fld) (v : Nat) : (s.incF f v).dram = s.dram := rfl
@[simp] theorem State.incF_dramBad (s : State) (f : Fld) (v : Nat) : (s.incF f v).dramBad = s.dramBad := rfl
@[simp] theorem State.incF_drm (s : State) (f : Fld) (v : Nat) : (s.incF f v).drm = s.drm := rfl
@[simp] theorem State.incF_cores (s : State) (f : Fld) (v : Nat) : (s.incF f v).cores = s.cores := rfl
@[simp] theorem State.incF_bands (s : State) (f : Fld) (v : Nat) : (s.incF f v).bands = s.bands := rfl
@[simp] theorem State.incF_prog (s : State) (f : Fld) (v : Nat) : (s.incF f v).prog = s.prog := rfl
@[simp] theorem State.incF_almanac (s : State) (f : Fld) (v : Nat) : (s.incF f v).almanac = s.almanac := rfl
@[simp] theorem State.incF_sched (s : State) (f : Fld) (v : Nat) : (s.incF f v).sched = s.sched := rfl
@[simp] theorem State.incF_noBase1 (s : State) (f : Fld) (v : Nat) : (s.incF f v).noBase1 = s.noBase1 := rfl
@[simp] theorem State.incF_change (s : State) (f : Fld) (v : Nat) : (s.incF f v).change = s.change := rfl
@[simp] theorem State.incF_firstLines (s : State) (f : Fld) (v : Nat) : (s.incF f v).firstLines = s.firstLines := rfl
@[simp] theorem State.incF_bucket (s : State) (f : Fld) (v : Nat) : (s.incF f v).bucket = s.bucket := rfl
@[simp] theorem State.incF_pstate (s : State) (f : Fld) (v : Nat) : (s.incF f v).pstate = s.pstate := rfl
@[simp] theorem State.incF_msetSample (s : State) (f : Fld) (v : Nat) : (s.incF f v).msetSample = s.msetSample := rfl
@[simp] theorem State.incF_mwinEnd (s : State) (f : Fld) (v : Nat) : (s.incF f v).mwinEnd = s.mwinEnd := rfl
@[simp] theorem State.incF_fc (s : State) (f : Fld) (v : Nat) : (s.incF f v).fc = s.fc := rfl
@[simp] theorem State.incF_fab (s : State) (f : Fld) (v : Nat) : (s.incF f v).fab = s.fab := rfl
@[simp] theorem State.incF_remotes (s : State) (f : Fld) (v : Nat) : (s.incF f v).remotes = s.remotes := rfl
@[simp] theorem State.incF_signals (s : State) (f : Fld) (v : Nat) : (s.incF f v).signals = s.signals := rfl
@[simp] theorem State.incF_inp (s : State) (f : Fld) (v : Nat) : (s.incF f v).inp = s.inp := rfl
@[simp] theorem State.incF_hist (s : State) (f : Fld) (v : Nat) : (s.incF f v).hist = s.hist := rfl
@[simp] theorem State.incF_arrived (s : State) (f : Fld) (v : Nat) : (s.incF f v).arrived = s.arrived := rfl
@[simp] theorem State.incF_avail (s : State) (f : Fld) (v : Nat) : (s.incF f v).avail = s.avail := rfl
@[simp] theorem State.incF_tau (s : State) (f : Fld) (v : Nat) : (s.incF f v).tau = s.tau := rfl
@[simp] theorem State.incF_rtFirst (s : State) (f : Fld) (v : Nat) : (s.incF f v).rtFirst = s.rtFirst := rfl
@[simp] theorem State.incF_rtJ0 (s : State) (f : Fld) (v : Nat) : (s.incF f v).rtJ0 = s.rtJ0 := rfl
@[simp] theorem State.incF_ctx (s : State) (f : Fld) (v : Nat) : (s.incF f v).ctx = s.ctx := rfl
@[simp] theorem State.incF_ctxNext (s : State) (f : Fld) (v : Nat) : (s.incF f v).ctxNext = s.ctxNext := rfl
@[simp] theorem State.incF_warp (s : State) (f : Fld) (v : Nat) : (s.incF f v).warp = s.warp := rfl
@[simp] theorem State.incF_box (s : State) (f : Fld) (v : Nat) : (s.incF f v).box = s.box := rfl
@[simp] theorem State.incF_drz (s : State) (f : Fld) (v : Nat) : (s.incF f v).drz = s.drz := rfl
@[simp] theorem State.incF_frost (s : State) (f : Fld) (v : Nat) : (s.incF f v).frost = s.frost := rfl
@[simp] theorem State.incF_sns (s : State) (f : Fld) (v : Nat) : (s.incF f v).sns = s.sns := rfl
@[simp] theorem State.incF_cmp (s : State) (f : Fld) (v : Nat) : (s.incF f v).cmp = s.cmp := rfl
@[simp] theorem State.incF_pnl (s : State) (f : Fld) (v : Nat) : (s.incF f v).pnl = s.pnl := rfl
@[simp] theorem State.incF_fbSegs (s : State) (f : Fld) (v : Nat) : (s.incF f v).fbSegs = s.fbSegs := rfl
@[simp] theorem State.incF_fbStarted (s : State) (f : Fld) (v : Nat) : (s.incF f v).fbStarted = s.fbStarted := rfl
@[simp] theorem State.incF_sel (s : State) (f : Fld) (v : Nat) : (s.incF f v).sel = s.sel := rfl
@[simp] theorem State.incF_fbNow (s : State) (f : Fld) (v : Nat) : (s.incF f v).fbNow = s.fbNow := rfl
@[simp] theorem State.incF_fbNext (s : State) (f : Fld) (v : Nat) : (s.incF f v).fbNext = s.fbNext := rfl
@[simp] theorem State.incF_pwr (s : State) (f : Fld) (v : Nat) : (s.incF f v).pwr = s.pwr := rfl
@[simp] theorem State.incF_seq (s : State) (f : Fld) (v : Nat) : (s.incF f v).seq = s.seq := rfl
@[simp] theorem State.incF_boot (s : State) (f : Fld) (v : Nat) : (s.incF f v).boot = s.boot := rfl
@[simp] theorem State.incF_aud (s : State) (f : Fld) (v : Nat) : (s.incF f v).aud = s.aud := rfl
@[simp] theorem State.incF_led (s : State) (f : Fld) (v : Nat) : (s.incF f v).led = s.led := rfl
@[simp] theorem State.incF_tpl (s : State) (f : Fld) (v : Nat) : (s.incF f v).tpl = s.tpl := rfl
@[simp] theorem State.incF_tds (s : State) (f : Fld) (v : Nat) : (s.incF f v).tds = s.tds := rfl
@[simp] theorem State.incF_stat (s : State) (f : Fld) (v : Nat) : (s.incF f v).stat = s.stat := rfl

/-! ### wrapF -/

@[simp] theorem State.wrapF_pending (s : State) (f : Fld) (v : Nat) : (s.wrapF f v).pending = s.pending := rfl
@[simp] theorem State.wrapF_free (s : State) (f : Fld) (v : Nat) : (s.wrapF f v).free = s.free := rfl
@[simp] theorem State.wrapF_now (s : State) (f : Fld) (v : Nat) : (s.wrapF f v).now = s.now := rfl
@[simp] theorem State.wrapF_cal (s : State) (f : Fld) (v : Nat) : (s.wrapF f v).cal = s.cal := rfl
@[simp] theorem State.wrapF_latch (s : State) (f : Fld) (v : Nat) : (s.wrapF f v).latch = s.latch := rfl
@[simp] theorem State.wrapF_dram (s : State) (f : Fld) (v : Nat) : (s.wrapF f v).dram = s.dram := rfl
@[simp] theorem State.wrapF_dramBad (s : State) (f : Fld) (v : Nat) : (s.wrapF f v).dramBad = s.dramBad := rfl
@[simp] theorem State.wrapF_drm (s : State) (f : Fld) (v : Nat) : (s.wrapF f v).drm = s.drm := rfl
@[simp] theorem State.wrapF_cores (s : State) (f : Fld) (v : Nat) : (s.wrapF f v).cores = s.cores := rfl
@[simp] theorem State.wrapF_bands (s : State) (f : Fld) (v : Nat) : (s.wrapF f v).bands = s.bands := rfl
@[simp] theorem State.wrapF_prog (s : State) (f : Fld) (v : Nat) : (s.wrapF f v).prog = s.prog := rfl
@[simp] theorem State.wrapF_almanac (s : State) (f : Fld) (v : Nat) : (s.wrapF f v).almanac = s.almanac := rfl
@[simp] theorem State.wrapF_sched (s : State) (f : Fld) (v : Nat) : (s.wrapF f v).sched = s.sched := rfl
@[simp] theorem State.wrapF_noBase1 (s : State) (f : Fld) (v : Nat) : (s.wrapF f v).noBase1 = s.noBase1 := rfl
@[simp] theorem State.wrapF_change (s : State) (f : Fld) (v : Nat) : (s.wrapF f v).change = s.change := rfl
@[simp] theorem State.wrapF_firstLines (s : State) (f : Fld) (v : Nat) : (s.wrapF f v).firstLines = s.firstLines := rfl
@[simp] theorem State.wrapF_bucket (s : State) (f : Fld) (v : Nat) : (s.wrapF f v).bucket = s.bucket := rfl
@[simp] theorem State.wrapF_pstate (s : State) (f : Fld) (v : Nat) : (s.wrapF f v).pstate = s.pstate := rfl
@[simp] theorem State.wrapF_msetSample (s : State) (f : Fld) (v : Nat) : (s.wrapF f v).msetSample = s.msetSample := rfl
@[simp] theorem State.wrapF_mwinEnd (s : State) (f : Fld) (v : Nat) : (s.wrapF f v).mwinEnd = s.mwinEnd := rfl
@[simp] theorem State.wrapF_fc (s : State) (f : Fld) (v : Nat) : (s.wrapF f v).fc = s.fc := rfl
@[simp] theorem State.wrapF_fab (s : State) (f : Fld) (v : Nat) : (s.wrapF f v).fab = s.fab := rfl
@[simp] theorem State.wrapF_remotes (s : State) (f : Fld) (v : Nat) : (s.wrapF f v).remotes = s.remotes := rfl
@[simp] theorem State.wrapF_signals (s : State) (f : Fld) (v : Nat) : (s.wrapF f v).signals = s.signals := rfl
@[simp] theorem State.wrapF_inp (s : State) (f : Fld) (v : Nat) : (s.wrapF f v).inp = s.inp := rfl
@[simp] theorem State.wrapF_hist (s : State) (f : Fld) (v : Nat) : (s.wrapF f v).hist = s.hist := rfl
@[simp] theorem State.wrapF_arrived (s : State) (f : Fld) (v : Nat) : (s.wrapF f v).arrived = s.arrived := rfl
@[simp] theorem State.wrapF_avail (s : State) (f : Fld) (v : Nat) : (s.wrapF f v).avail = s.avail := rfl
@[simp] theorem State.wrapF_tau (s : State) (f : Fld) (v : Nat) : (s.wrapF f v).tau = s.tau := rfl
@[simp] theorem State.wrapF_rtFirst (s : State) (f : Fld) (v : Nat) : (s.wrapF f v).rtFirst = s.rtFirst := rfl
@[simp] theorem State.wrapF_rtJ0 (s : State) (f : Fld) (v : Nat) : (s.wrapF f v).rtJ0 = s.rtJ0 := rfl
@[simp] theorem State.wrapF_ctx (s : State) (f : Fld) (v : Nat) : (s.wrapF f v).ctx = s.ctx := rfl
@[simp] theorem State.wrapF_ctxNext (s : State) (f : Fld) (v : Nat) : (s.wrapF f v).ctxNext = s.ctxNext := rfl
@[simp] theorem State.wrapF_warp (s : State) (f : Fld) (v : Nat) : (s.wrapF f v).warp = s.warp := rfl
@[simp] theorem State.wrapF_box (s : State) (f : Fld) (v : Nat) : (s.wrapF f v).box = s.box := rfl
@[simp] theorem State.wrapF_drz (s : State) (f : Fld) (v : Nat) : (s.wrapF f v).drz = s.drz := rfl
@[simp] theorem State.wrapF_frost (s : State) (f : Fld) (v : Nat) : (s.wrapF f v).frost = s.frost := rfl
@[simp] theorem State.wrapF_sns (s : State) (f : Fld) (v : Nat) : (s.wrapF f v).sns = s.sns := rfl
@[simp] theorem State.wrapF_cmp (s : State) (f : Fld) (v : Nat) : (s.wrapF f v).cmp = s.cmp := rfl
@[simp] theorem State.wrapF_pnl (s : State) (f : Fld) (v : Nat) : (s.wrapF f v).pnl = s.pnl := rfl
@[simp] theorem State.wrapF_fbSegs (s : State) (f : Fld) (v : Nat) : (s.wrapF f v).fbSegs = s.fbSegs := rfl
@[simp] theorem State.wrapF_fbStarted (s : State) (f : Fld) (v : Nat) : (s.wrapF f v).fbStarted = s.fbStarted := rfl
@[simp] theorem State.wrapF_sel (s : State) (f : Fld) (v : Nat) : (s.wrapF f v).sel = s.sel := rfl
@[simp] theorem State.wrapF_fbNow (s : State) (f : Fld) (v : Nat) : (s.wrapF f v).fbNow = s.fbNow := rfl
@[simp] theorem State.wrapF_fbNext (s : State) (f : Fld) (v : Nat) : (s.wrapF f v).fbNext = s.fbNext := rfl
@[simp] theorem State.wrapF_pwr (s : State) (f : Fld) (v : Nat) : (s.wrapF f v).pwr = s.pwr := rfl
@[simp] theorem State.wrapF_seq (s : State) (f : Fld) (v : Nat) : (s.wrapF f v).seq = s.seq := rfl
@[simp] theorem State.wrapF_boot (s : State) (f : Fld) (v : Nat) : (s.wrapF f v).boot = s.boot := rfl
@[simp] theorem State.wrapF_aud (s : State) (f : Fld) (v : Nat) : (s.wrapF f v).aud = s.aud := rfl
@[simp] theorem State.wrapF_led (s : State) (f : Fld) (v : Nat) : (s.wrapF f v).led = s.led := rfl
@[simp] theorem State.wrapF_tpl (s : State) (f : Fld) (v : Nat) : (s.wrapF f v).tpl = s.tpl := rfl
@[simp] theorem State.wrapF_tds (s : State) (f : Fld) (v : Nat) : (s.wrapF f v).tds = s.tds := rfl
@[simp] theorem State.wrapF_stat (s : State) (f : Fld) (v : Nat) : (s.wrapF f v).stat = s.stat := rfl

/-! ### setCore -/

@[simp] theorem State.setCore_pending (s : State) (p : Nat) (c : CoreSt) : (s.setCore p c).pending = s.pending := rfl
@[simp] theorem State.setCore_free (s : State) (p : Nat) (c : CoreSt) : (s.setCore p c).free = s.free := rfl
@[simp] theorem State.setCore_now (s : State) (p : Nat) (c : CoreSt) : (s.setCore p c).now = s.now := rfl
@[simp] theorem State.setCore_cal (s : State) (p : Nat) (c : CoreSt) : (s.setCore p c).cal = s.cal := rfl
@[simp] theorem State.setCore_regs (s : State) (p : Nat) (c : CoreSt) : (s.setCore p c).regs = s.regs := rfl
@[simp] theorem State.setCore_latch (s : State) (p : Nat) (c : CoreSt) : (s.setCore p c).latch = s.latch := rfl
@[simp] theorem State.setCore_dram (s : State) (p : Nat) (c : CoreSt) : (s.setCore p c).dram = s.dram := rfl
@[simp] theorem State.setCore_dramBad (s : State) (p : Nat) (c : CoreSt) : (s.setCore p c).dramBad = s.dramBad := rfl
@[simp] theorem State.setCore_drm (s : State) (p : Nat) (c : CoreSt) : (s.setCore p c).drm = s.drm := rfl
@[simp] theorem State.setCore_bands (s : State) (p : Nat) (c : CoreSt) : (s.setCore p c).bands = s.bands := rfl
@[simp] theorem State.setCore_prog (s : State) (p : Nat) (c : CoreSt) : (s.setCore p c).prog = s.prog := rfl
@[simp] theorem State.setCore_almanac (s : State) (p : Nat) (c : CoreSt) : (s.setCore p c).almanac = s.almanac := rfl
@[simp] theorem State.setCore_sched (s : State) (p : Nat) (c : CoreSt) : (s.setCore p c).sched = s.sched := rfl
@[simp] theorem State.setCore_noBase1 (s : State) (p : Nat) (c : CoreSt) : (s.setCore p c).noBase1 = s.noBase1 := rfl
@[simp] theorem State.setCore_change (s : State) (p : Nat) (c : CoreSt) : (s.setCore p c).change = s.change := rfl
@[simp] theorem State.setCore_firstLines (s : State) (p : Nat) (c : CoreSt) : (s.setCore p c).firstLines = s.firstLines := rfl
@[simp] theorem State.setCore_bucket (s : State) (p : Nat) (c : CoreSt) : (s.setCore p c).bucket = s.bucket := rfl
@[simp] theorem State.setCore_pstate (s : State) (p : Nat) (c : CoreSt) : (s.setCore p c).pstate = s.pstate := rfl
@[simp] theorem State.setCore_msetSample (s : State) (p : Nat) (c : CoreSt) : (s.setCore p c).msetSample = s.msetSample := rfl
@[simp] theorem State.setCore_mwinEnd (s : State) (p : Nat) (c : CoreSt) : (s.setCore p c).mwinEnd = s.mwinEnd := rfl
@[simp] theorem State.setCore_fc (s : State) (p : Nat) (c : CoreSt) : (s.setCore p c).fc = s.fc := rfl
@[simp] theorem State.setCore_fab (s : State) (p : Nat) (c : CoreSt) : (s.setCore p c).fab = s.fab := rfl
@[simp] theorem State.setCore_remotes (s : State) (p : Nat) (c : CoreSt) : (s.setCore p c).remotes = s.remotes := rfl
@[simp] theorem State.setCore_signals (s : State) (p : Nat) (c : CoreSt) : (s.setCore p c).signals = s.signals := rfl
@[simp] theorem State.setCore_inp (s : State) (p : Nat) (c : CoreSt) : (s.setCore p c).inp = s.inp := rfl
@[simp] theorem State.setCore_hist (s : State) (p : Nat) (c : CoreSt) : (s.setCore p c).hist = s.hist := rfl
@[simp] theorem State.setCore_arrived (s : State) (p : Nat) (c : CoreSt) : (s.setCore p c).arrived = s.arrived := rfl
@[simp] theorem State.setCore_avail (s : State) (p : Nat) (c : CoreSt) : (s.setCore p c).avail = s.avail := rfl
@[simp] theorem State.setCore_tau (s : State) (p : Nat) (c : CoreSt) : (s.setCore p c).tau = s.tau := rfl
@[simp] theorem State.setCore_rtFirst (s : State) (p : Nat) (c : CoreSt) : (s.setCore p c).rtFirst = s.rtFirst := rfl
@[simp] theorem State.setCore_rtJ0 (s : State) (p : Nat) (c : CoreSt) : (s.setCore p c).rtJ0 = s.rtJ0 := rfl
@[simp] theorem State.setCore_ctx (s : State) (p : Nat) (c : CoreSt) : (s.setCore p c).ctx = s.ctx := rfl
@[simp] theorem State.setCore_ctxNext (s : State) (p : Nat) (c : CoreSt) : (s.setCore p c).ctxNext = s.ctxNext := rfl
@[simp] theorem State.setCore_warp (s : State) (p : Nat) (c : CoreSt) : (s.setCore p c).warp = s.warp := rfl
@[simp] theorem State.setCore_box (s : State) (p : Nat) (c : CoreSt) : (s.setCore p c).box = s.box := rfl
@[simp] theorem State.setCore_drz (s : State) (p : Nat) (c : CoreSt) : (s.setCore p c).drz = s.drz := rfl
@[simp] theorem State.setCore_frost (s : State) (p : Nat) (c : CoreSt) : (s.setCore p c).frost = s.frost := rfl
@[simp] theorem State.setCore_sns (s : State) (p : Nat) (c : CoreSt) : (s.setCore p c).sns = s.sns := rfl
@[simp] theorem State.setCore_cmp (s : State) (p : Nat) (c : CoreSt) : (s.setCore p c).cmp = s.cmp := rfl
@[simp] theorem State.setCore_pnl (s : State) (p : Nat) (c : CoreSt) : (s.setCore p c).pnl = s.pnl := rfl
@[simp] theorem State.setCore_fbSegs (s : State) (p : Nat) (c : CoreSt) : (s.setCore p c).fbSegs = s.fbSegs := rfl
@[simp] theorem State.setCore_fbStarted (s : State) (p : Nat) (c : CoreSt) : (s.setCore p c).fbStarted = s.fbStarted := rfl
@[simp] theorem State.setCore_sel (s : State) (p : Nat) (c : CoreSt) : (s.setCore p c).sel = s.sel := rfl
@[simp] theorem State.setCore_fbNow (s : State) (p : Nat) (c : CoreSt) : (s.setCore p c).fbNow = s.fbNow := rfl
@[simp] theorem State.setCore_fbNext (s : State) (p : Nat) (c : CoreSt) : (s.setCore p c).fbNext = s.fbNext := rfl
@[simp] theorem State.setCore_pwr (s : State) (p : Nat) (c : CoreSt) : (s.setCore p c).pwr = s.pwr := rfl
@[simp] theorem State.setCore_seq (s : State) (p : Nat) (c : CoreSt) : (s.setCore p c).seq = s.seq := rfl
@[simp] theorem State.setCore_boot (s : State) (p : Nat) (c : CoreSt) : (s.setCore p c).boot = s.boot := rfl
@[simp] theorem State.setCore_aud (s : State) (p : Nat) (c : CoreSt) : (s.setCore p c).aud = s.aud := rfl
@[simp] theorem State.setCore_led (s : State) (p : Nat) (c : CoreSt) : (s.setCore p c).led = s.led := rfl
@[simp] theorem State.setCore_tpl (s : State) (p : Nat) (c : CoreSt) : (s.setCore p c).tpl = s.tpl := rfl
@[simp] theorem State.setCore_tds (s : State) (p : Nat) (c : CoreSt) : (s.setCore p c).tds = s.tds := rfl
@[simp] theorem State.setCore_stat (s : State) (p : Nat) (c : CoreSt) : (s.setCore p c).stat = s.stat := rfl

/-! ### onCore -/

@[simp] theorem State.onCore_pending (s : State) (p : Nat) (g : CoreSt → CoreSt) : (s.onCore p g).pending = s.pending := rfl
@[simp] theorem State.onCore_free (s : State) (p : Nat) (g : CoreSt → CoreSt) : (s.onCore p g).free = s.free := rfl
@[simp] theorem State.onCore_now (s : State) (p : Nat) (g : CoreSt → CoreSt) : (s.onCore p g).now = s.now := rfl
@[simp] theorem State.onCore_cal (s : State) (p : Nat) (g : CoreSt → CoreSt) : (s.onCore p g).cal = s.cal := rfl
@[simp] theorem State.onCore_regs (s : State) (p : Nat) (g : CoreSt → CoreSt) : (s.onCore p g).regs = s.regs := rfl
@[simp] theorem State.onCore_latch (s : State) (p : Nat) (g : CoreSt → CoreSt) : (s.onCore p g).latch = s.latch := rfl
@[simp] theorem State.onCore_dram (s : State) (p : Nat) (g : CoreSt → CoreSt) : (s.onCore p g).dram = s.dram := rfl
@[simp] theorem State.onCore_dramBad (s : State) (p : Nat) (g : CoreSt → CoreSt) : (s.onCore p g).dramBad = s.dramBad := rfl
@[simp] theorem State.onCore_drm (s : State) (p : Nat) (g : CoreSt → CoreSt) : (s.onCore p g).drm = s.drm := rfl
@[simp] theorem State.onCore_bands (s : State) (p : Nat) (g : CoreSt → CoreSt) : (s.onCore p g).bands = s.bands := rfl
@[simp] theorem State.onCore_prog (s : State) (p : Nat) (g : CoreSt → CoreSt) : (s.onCore p g).prog = s.prog := rfl
@[simp] theorem State.onCore_almanac (s : State) (p : Nat) (g : CoreSt → CoreSt) : (s.onCore p g).almanac = s.almanac := rfl
@[simp] theorem State.onCore_sched (s : State) (p : Nat) (g : CoreSt → CoreSt) : (s.onCore p g).sched = s.sched := rfl
@[simp] theorem State.onCore_noBase1 (s : State) (p : Nat) (g : CoreSt → CoreSt) : (s.onCore p g).noBase1 = s.noBase1 := rfl
@[simp] theorem State.onCore_change (s : State) (p : Nat) (g : CoreSt → CoreSt) : (s.onCore p g).change = s.change := rfl
@[simp] theorem State.onCore_firstLines (s : State) (p : Nat) (g : CoreSt → CoreSt) : (s.onCore p g).firstLines = s.firstLines := rfl
@[simp] theorem State.onCore_bucket (s : State) (p : Nat) (g : CoreSt → CoreSt) : (s.onCore p g).bucket = s.bucket := rfl
@[simp] theorem State.onCore_pstate (s : State) (p : Nat) (g : CoreSt → CoreSt) : (s.onCore p g).pstate = s.pstate := rfl
@[simp] theorem State.onCore_msetSample (s : State) (p : Nat) (g : CoreSt → CoreSt) : (s.onCore p g).msetSample = s.msetSample := rfl
@[simp] theorem State.onCore_mwinEnd (s : State) (p : Nat) (g : CoreSt → CoreSt) : (s.onCore p g).mwinEnd = s.mwinEnd := rfl
@[simp] theorem State.onCore_fc (s : State) (p : Nat) (g : CoreSt → CoreSt) : (s.onCore p g).fc = s.fc := rfl
@[simp] theorem State.onCore_fab (s : State) (p : Nat) (g : CoreSt → CoreSt) : (s.onCore p g).fab = s.fab := rfl
@[simp] theorem State.onCore_remotes (s : State) (p : Nat) (g : CoreSt → CoreSt) : (s.onCore p g).remotes = s.remotes := rfl
@[simp] theorem State.onCore_signals (s : State) (p : Nat) (g : CoreSt → CoreSt) : (s.onCore p g).signals = s.signals := rfl
@[simp] theorem State.onCore_inp (s : State) (p : Nat) (g : CoreSt → CoreSt) : (s.onCore p g).inp = s.inp := rfl
@[simp] theorem State.onCore_hist (s : State) (p : Nat) (g : CoreSt → CoreSt) : (s.onCore p g).hist = s.hist := rfl
@[simp] theorem State.onCore_arrived (s : State) (p : Nat) (g : CoreSt → CoreSt) : (s.onCore p g).arrived = s.arrived := rfl
@[simp] theorem State.onCore_avail (s : State) (p : Nat) (g : CoreSt → CoreSt) : (s.onCore p g).avail = s.avail := rfl
@[simp] theorem State.onCore_tau (s : State) (p : Nat) (g : CoreSt → CoreSt) : (s.onCore p g).tau = s.tau := rfl
@[simp] theorem State.onCore_rtFirst (s : State) (p : Nat) (g : CoreSt → CoreSt) : (s.onCore p g).rtFirst = s.rtFirst := rfl
@[simp] theorem State.onCore_rtJ0 (s : State) (p : Nat) (g : CoreSt → CoreSt) : (s.onCore p g).rtJ0 = s.rtJ0 := rfl
@[simp] theorem State.onCore_ctx (s : State) (p : Nat) (g : CoreSt → CoreSt) : (s.onCore p g).ctx = s.ctx := rfl
@[simp] theorem State.onCore_ctxNext (s : State) (p : Nat) (g : CoreSt → CoreSt) : (s.onCore p g).ctxNext = s.ctxNext := rfl
@[simp] theorem State.onCore_warp (s : State) (p : Nat) (g : CoreSt → CoreSt) : (s.onCore p g).warp = s.warp := rfl
@[simp] theorem State.onCore_box (s : State) (p : Nat) (g : CoreSt → CoreSt) : (s.onCore p g).box = s.box := rfl
@[simp] theorem State.onCore_drz (s : State) (p : Nat) (g : CoreSt → CoreSt) : (s.onCore p g).drz = s.drz := rfl
@[simp] theorem State.onCore_frost (s : State) (p : Nat) (g : CoreSt → CoreSt) : (s.onCore p g).frost = s.frost := rfl
@[simp] theorem State.onCore_sns (s : State) (p : Nat) (g : CoreSt → CoreSt) : (s.onCore p g).sns = s.sns := rfl
@[simp] theorem State.onCore_cmp (s : State) (p : Nat) (g : CoreSt → CoreSt) : (s.onCore p g).cmp = s.cmp := rfl
@[simp] theorem State.onCore_pnl (s : State) (p : Nat) (g : CoreSt → CoreSt) : (s.onCore p g).pnl = s.pnl := rfl
@[simp] theorem State.onCore_fbSegs (s : State) (p : Nat) (g : CoreSt → CoreSt) : (s.onCore p g).fbSegs = s.fbSegs := rfl
@[simp] theorem State.onCore_fbStarted (s : State) (p : Nat) (g : CoreSt → CoreSt) : (s.onCore p g).fbStarted = s.fbStarted := rfl
@[simp] theorem State.onCore_sel (s : State) (p : Nat) (g : CoreSt → CoreSt) : (s.onCore p g).sel = s.sel := rfl
@[simp] theorem State.onCore_fbNow (s : State) (p : Nat) (g : CoreSt → CoreSt) : (s.onCore p g).fbNow = s.fbNow := rfl
@[simp] theorem State.onCore_fbNext (s : State) (p : Nat) (g : CoreSt → CoreSt) : (s.onCore p g).fbNext = s.fbNext := rfl
@[simp] theorem State.onCore_pwr (s : State) (p : Nat) (g : CoreSt → CoreSt) : (s.onCore p g).pwr = s.pwr := rfl
@[simp] theorem State.onCore_seq (s : State) (p : Nat) (g : CoreSt → CoreSt) : (s.onCore p g).seq = s.seq := rfl
@[simp] theorem State.onCore_boot (s : State) (p : Nat) (g : CoreSt → CoreSt) : (s.onCore p g).boot = s.boot := rfl
@[simp] theorem State.onCore_aud (s : State) (p : Nat) (g : CoreSt → CoreSt) : (s.onCore p g).aud = s.aud := rfl
@[simp] theorem State.onCore_led (s : State) (p : Nat) (g : CoreSt → CoreSt) : (s.onCore p g).led = s.led := rfl
@[simp] theorem State.onCore_tpl (s : State) (p : Nat) (g : CoreSt → CoreSt) : (s.onCore p g).tpl = s.tpl := rfl
@[simp] theorem State.onCore_tds (s : State) (p : Nat) (g : CoreSt → CoreSt) : (s.onCore p g).tds = s.tds := rfl
@[simp] theorem State.onCore_stat (s : State) (p : Nat) (g : CoreSt → CoreSt) : (s.onCore p g).stat = s.stat := rfl

/-! ### setBand -/

@[simp] theorem State.setBand_pending (s : State) (b : Nat) (c : BandSt) : (s.setBand b c).pending = s.pending := rfl
@[simp] theorem State.setBand_free (s : State) (b : Nat) (c : BandSt) : (s.setBand b c).free = s.free := rfl
@[simp] theorem State.setBand_now (s : State) (b : Nat) (c : BandSt) : (s.setBand b c).now = s.now := rfl
@[simp] theorem State.setBand_cal (s : State) (b : Nat) (c : BandSt) : (s.setBand b c).cal = s.cal := rfl
@[simp] theorem State.setBand_regs (s : State) (b : Nat) (c : BandSt) : (s.setBand b c).regs = s.regs := rfl
@[simp] theorem State.setBand_latch (s : State) (b : Nat) (c : BandSt) : (s.setBand b c).latch = s.latch := rfl
@[simp] theorem State.setBand_dram (s : State) (b : Nat) (c : BandSt) : (s.setBand b c).dram = s.dram := rfl
@[simp] theorem State.setBand_dramBad (s : State) (b : Nat) (c : BandSt) : (s.setBand b c).dramBad = s.dramBad := rfl
@[simp] theorem State.setBand_drm (s : State) (b : Nat) (c : BandSt) : (s.setBand b c).drm = s.drm := rfl
@[simp] theorem State.setBand_cores (s : State) (b : Nat) (c : BandSt) : (s.setBand b c).cores = s.cores := rfl
@[simp] theorem State.setBand_prog (s : State) (b : Nat) (c : BandSt) : (s.setBand b c).prog = s.prog := rfl
@[simp] theorem State.setBand_almanac (s : State) (b : Nat) (c : BandSt) : (s.setBand b c).almanac = s.almanac := rfl
@[simp] theorem State.setBand_sched (s : State) (b : Nat) (c : BandSt) : (s.setBand b c).sched = s.sched := rfl
@[simp] theorem State.setBand_noBase1 (s : State) (b : Nat) (c : BandSt) : (s.setBand b c).noBase1 = s.noBase1 := rfl
@[simp] theorem State.setBand_change (s : State) (b : Nat) (c : BandSt) : (s.setBand b c).change = s.change := rfl
@[simp] theorem State.setBand_firstLines (s : State) (b : Nat) (c : BandSt) : (s.setBand b c).firstLines = s.firstLines := rfl
@[simp] theorem State.setBand_bucket (s : State) (b : Nat) (c : BandSt) : (s.setBand b c).bucket = s.bucket := rfl
@[simp] theorem State.setBand_pstate (s : State) (b : Nat) (c : BandSt) : (s.setBand b c).pstate = s.pstate := rfl
@[simp] theorem State.setBand_msetSample (s : State) (b : Nat) (c : BandSt) : (s.setBand b c).msetSample = s.msetSample := rfl
@[simp] theorem State.setBand_mwinEnd (s : State) (b : Nat) (c : BandSt) : (s.setBand b c).mwinEnd = s.mwinEnd := rfl
@[simp] theorem State.setBand_fc (s : State) (b : Nat) (c : BandSt) : (s.setBand b c).fc = s.fc := rfl
@[simp] theorem State.setBand_fab (s : State) (b : Nat) (c : BandSt) : (s.setBand b c).fab = s.fab := rfl
@[simp] theorem State.setBand_remotes (s : State) (b : Nat) (c : BandSt) : (s.setBand b c).remotes = s.remotes := rfl
@[simp] theorem State.setBand_signals (s : State) (b : Nat) (c : BandSt) : (s.setBand b c).signals = s.signals := rfl
@[simp] theorem State.setBand_inp (s : State) (b : Nat) (c : BandSt) : (s.setBand b c).inp = s.inp := rfl
@[simp] theorem State.setBand_hist (s : State) (b : Nat) (c : BandSt) : (s.setBand b c).hist = s.hist := rfl
@[simp] theorem State.setBand_arrived (s : State) (b : Nat) (c : BandSt) : (s.setBand b c).arrived = s.arrived := rfl
@[simp] theorem State.setBand_avail (s : State) (b : Nat) (c : BandSt) : (s.setBand b c).avail = s.avail := rfl
@[simp] theorem State.setBand_tau (s : State) (b : Nat) (c : BandSt) : (s.setBand b c).tau = s.tau := rfl
@[simp] theorem State.setBand_rtFirst (s : State) (b : Nat) (c : BandSt) : (s.setBand b c).rtFirst = s.rtFirst := rfl
@[simp] theorem State.setBand_rtJ0 (s : State) (b : Nat) (c : BandSt) : (s.setBand b c).rtJ0 = s.rtJ0 := rfl
@[simp] theorem State.setBand_ctx (s : State) (b : Nat) (c : BandSt) : (s.setBand b c).ctx = s.ctx := rfl
@[simp] theorem State.setBand_ctxNext (s : State) (b : Nat) (c : BandSt) : (s.setBand b c).ctxNext = s.ctxNext := rfl
@[simp] theorem State.setBand_warp (s : State) (b : Nat) (c : BandSt) : (s.setBand b c).warp = s.warp := rfl
@[simp] theorem State.setBand_box (s : State) (b : Nat) (c : BandSt) : (s.setBand b c).box = s.box := rfl
@[simp] theorem State.setBand_drz (s : State) (b : Nat) (c : BandSt) : (s.setBand b c).drz = s.drz := rfl
@[simp] theorem State.setBand_frost (s : State) (b : Nat) (c : BandSt) : (s.setBand b c).frost = s.frost := rfl
@[simp] theorem State.setBand_sns (s : State) (b : Nat) (c : BandSt) : (s.setBand b c).sns = s.sns := rfl
@[simp] theorem State.setBand_cmp (s : State) (b : Nat) (c : BandSt) : (s.setBand b c).cmp = s.cmp := rfl
@[simp] theorem State.setBand_pnl (s : State) (b : Nat) (c : BandSt) : (s.setBand b c).pnl = s.pnl := rfl
@[simp] theorem State.setBand_fbSegs (s : State) (b : Nat) (c : BandSt) : (s.setBand b c).fbSegs = s.fbSegs := rfl
@[simp] theorem State.setBand_fbStarted (s : State) (b : Nat) (c : BandSt) : (s.setBand b c).fbStarted = s.fbStarted := rfl
@[simp] theorem State.setBand_sel (s : State) (b : Nat) (c : BandSt) : (s.setBand b c).sel = s.sel := rfl
@[simp] theorem State.setBand_fbNow (s : State) (b : Nat) (c : BandSt) : (s.setBand b c).fbNow = s.fbNow := rfl
@[simp] theorem State.setBand_fbNext (s : State) (b : Nat) (c : BandSt) : (s.setBand b c).fbNext = s.fbNext := rfl
@[simp] theorem State.setBand_pwr (s : State) (b : Nat) (c : BandSt) : (s.setBand b c).pwr = s.pwr := rfl
@[simp] theorem State.setBand_seq (s : State) (b : Nat) (c : BandSt) : (s.setBand b c).seq = s.seq := rfl
@[simp] theorem State.setBand_boot (s : State) (b : Nat) (c : BandSt) : (s.setBand b c).boot = s.boot := rfl
@[simp] theorem State.setBand_aud (s : State) (b : Nat) (c : BandSt) : (s.setBand b c).aud = s.aud := rfl
@[simp] theorem State.setBand_led (s : State) (b : Nat) (c : BandSt) : (s.setBand b c).led = s.led := rfl
@[simp] theorem State.setBand_tpl (s : State) (b : Nat) (c : BandSt) : (s.setBand b c).tpl = s.tpl := rfl
@[simp] theorem State.setBand_tds (s : State) (b : Nat) (c : BandSt) : (s.setBand b c).tds = s.tds := rfl
@[simp] theorem State.setBand_stat (s : State) (b : Nat) (c : BandSt) : (s.setBand b c).stat = s.stat := rfl

/-! ### onBand -/

@[simp] theorem State.onBand_pending (s : State) (b : Nat) (g : BandSt → BandSt) : (s.onBand b g).pending = s.pending := rfl
@[simp] theorem State.onBand_free (s : State) (b : Nat) (g : BandSt → BandSt) : (s.onBand b g).free = s.free := rfl
@[simp] theorem State.onBand_now (s : State) (b : Nat) (g : BandSt → BandSt) : (s.onBand b g).now = s.now := rfl
@[simp] theorem State.onBand_cal (s : State) (b : Nat) (g : BandSt → BandSt) : (s.onBand b g).cal = s.cal := rfl
@[simp] theorem State.onBand_regs (s : State) (b : Nat) (g : BandSt → BandSt) : (s.onBand b g).regs = s.regs := rfl
@[simp] theorem State.onBand_latch (s : State) (b : Nat) (g : BandSt → BandSt) : (s.onBand b g).latch = s.latch := rfl
@[simp] theorem State.onBand_dram (s : State) (b : Nat) (g : BandSt → BandSt) : (s.onBand b g).dram = s.dram := rfl
@[simp] theorem State.onBand_dramBad (s : State) (b : Nat) (g : BandSt → BandSt) : (s.onBand b g).dramBad = s.dramBad := rfl
@[simp] theorem State.onBand_drm (s : State) (b : Nat) (g : BandSt → BandSt) : (s.onBand b g).drm = s.drm := rfl
@[simp] theorem State.onBand_cores (s : State) (b : Nat) (g : BandSt → BandSt) : (s.onBand b g).cores = s.cores := rfl
@[simp] theorem State.onBand_prog (s : State) (b : Nat) (g : BandSt → BandSt) : (s.onBand b g).prog = s.prog := rfl
@[simp] theorem State.onBand_almanac (s : State) (b : Nat) (g : BandSt → BandSt) : (s.onBand b g).almanac = s.almanac := rfl
@[simp] theorem State.onBand_sched (s : State) (b : Nat) (g : BandSt → BandSt) : (s.onBand b g).sched = s.sched := rfl
@[simp] theorem State.onBand_noBase1 (s : State) (b : Nat) (g : BandSt → BandSt) : (s.onBand b g).noBase1 = s.noBase1 := rfl
@[simp] theorem State.onBand_change (s : State) (b : Nat) (g : BandSt → BandSt) : (s.onBand b g).change = s.change := rfl
@[simp] theorem State.onBand_firstLines (s : State) (b : Nat) (g : BandSt → BandSt) : (s.onBand b g).firstLines = s.firstLines := rfl
@[simp] theorem State.onBand_bucket (s : State) (b : Nat) (g : BandSt → BandSt) : (s.onBand b g).bucket = s.bucket := rfl
@[simp] theorem State.onBand_pstate (s : State) (b : Nat) (g : BandSt → BandSt) : (s.onBand b g).pstate = s.pstate := rfl
@[simp] theorem State.onBand_msetSample (s : State) (b : Nat) (g : BandSt → BandSt) : (s.onBand b g).msetSample = s.msetSample := rfl
@[simp] theorem State.onBand_mwinEnd (s : State) (b : Nat) (g : BandSt → BandSt) : (s.onBand b g).mwinEnd = s.mwinEnd := rfl
@[simp] theorem State.onBand_fc (s : State) (b : Nat) (g : BandSt → BandSt) : (s.onBand b g).fc = s.fc := rfl
@[simp] theorem State.onBand_fab (s : State) (b : Nat) (g : BandSt → BandSt) : (s.onBand b g).fab = s.fab := rfl
@[simp] theorem State.onBand_remotes (s : State) (b : Nat) (g : BandSt → BandSt) : (s.onBand b g).remotes = s.remotes := rfl
@[simp] theorem State.onBand_signals (s : State) (b : Nat) (g : BandSt → BandSt) : (s.onBand b g).signals = s.signals := rfl
@[simp] theorem State.onBand_inp (s : State) (b : Nat) (g : BandSt → BandSt) : (s.onBand b g).inp = s.inp := rfl
@[simp] theorem State.onBand_hist (s : State) (b : Nat) (g : BandSt → BandSt) : (s.onBand b g).hist = s.hist := rfl
@[simp] theorem State.onBand_arrived (s : State) (b : Nat) (g : BandSt → BandSt) : (s.onBand b g).arrived = s.arrived := rfl
@[simp] theorem State.onBand_avail (s : State) (b : Nat) (g : BandSt → BandSt) : (s.onBand b g).avail = s.avail := rfl
@[simp] theorem State.onBand_tau (s : State) (b : Nat) (g : BandSt → BandSt) : (s.onBand b g).tau = s.tau := rfl
@[simp] theorem State.onBand_rtFirst (s : State) (b : Nat) (g : BandSt → BandSt) : (s.onBand b g).rtFirst = s.rtFirst := rfl
@[simp] theorem State.onBand_rtJ0 (s : State) (b : Nat) (g : BandSt → BandSt) : (s.onBand b g).rtJ0 = s.rtJ0 := rfl
@[simp] theorem State.onBand_ctx (s : State) (b : Nat) (g : BandSt → BandSt) : (s.onBand b g).ctx = s.ctx := rfl
@[simp] theorem State.onBand_ctxNext (s : State) (b : Nat) (g : BandSt → BandSt) : (s.onBand b g).ctxNext = s.ctxNext := rfl
@[simp] theorem State.onBand_warp (s : State) (b : Nat) (g : BandSt → BandSt) : (s.onBand b g).warp = s.warp := rfl
@[simp] theorem State.onBand_box (s : State) (b : Nat) (g : BandSt → BandSt) : (s.onBand b g).box = s.box := rfl
@[simp] theorem State.onBand_drz (s : State) (b : Nat) (g : BandSt → BandSt) : (s.onBand b g).drz = s.drz := rfl
@[simp] theorem State.onBand_frost (s : State) (b : Nat) (g : BandSt → BandSt) : (s.onBand b g).frost = s.frost := rfl
@[simp] theorem State.onBand_sns (s : State) (b : Nat) (g : BandSt → BandSt) : (s.onBand b g).sns = s.sns := rfl
@[simp] theorem State.onBand_cmp (s : State) (b : Nat) (g : BandSt → BandSt) : (s.onBand b g).cmp = s.cmp := rfl
@[simp] theorem State.onBand_pnl (s : State) (b : Nat) (g : BandSt → BandSt) : (s.onBand b g).pnl = s.pnl := rfl
@[simp] theorem State.onBand_fbSegs (s : State) (b : Nat) (g : BandSt → BandSt) : (s.onBand b g).fbSegs = s.fbSegs := rfl
@[simp] theorem State.onBand_fbStarted (s : State) (b : Nat) (g : BandSt → BandSt) : (s.onBand b g).fbStarted = s.fbStarted := rfl
@[simp] theorem State.onBand_sel (s : State) (b : Nat) (g : BandSt → BandSt) : (s.onBand b g).sel = s.sel := rfl
@[simp] theorem State.onBand_fbNow (s : State) (b : Nat) (g : BandSt → BandSt) : (s.onBand b g).fbNow = s.fbNow := rfl
@[simp] theorem State.onBand_fbNext (s : State) (b : Nat) (g : BandSt → BandSt) : (s.onBand b g).fbNext = s.fbNext := rfl
@[simp] theorem State.onBand_pwr (s : State) (b : Nat) (g : BandSt → BandSt) : (s.onBand b g).pwr = s.pwr := rfl
@[simp] theorem State.onBand_seq (s : State) (b : Nat) (g : BandSt → BandSt) : (s.onBand b g).seq = s.seq := rfl
@[simp] theorem State.onBand_boot (s : State) (b : Nat) (g : BandSt → BandSt) : (s.onBand b g).boot = s.boot := rfl
@[simp] theorem State.onBand_aud (s : State) (b : Nat) (g : BandSt → BandSt) : (s.onBand b g).aud = s.aud := rfl
@[simp] theorem State.onBand_led (s : State) (b : Nat) (g : BandSt → BandSt) : (s.onBand b g).led = s.led := rfl
@[simp] theorem State.onBand_tpl (s : State) (b : Nat) (g : BandSt → BandSt) : (s.onBand b g).tpl = s.tpl := rfl
@[simp] theorem State.onBand_tds (s : State) (b : Nat) (g : BandSt → BandSt) : (s.onBand b g).tds = s.tds := rfl
@[simp] theorem State.onBand_stat (s : State) (b : Nat) (g : BandSt → BandSt) : (s.onBand b g).stat = s.stat := rfl

/-! ### tdAdd -/

@[simp] theorem State.tdAdd_pending (s : State) (n : Nat) (g : TdCnt → TdCnt) : (s.tdAdd n g).pending = s.pending := rfl
@[simp] theorem State.tdAdd_free (s : State) (n : Nat) (g : TdCnt → TdCnt) : (s.tdAdd n g).free = s.free := rfl
@[simp] theorem State.tdAdd_now (s : State) (n : Nat) (g : TdCnt → TdCnt) : (s.tdAdd n g).now = s.now := rfl
@[simp] theorem State.tdAdd_cal (s : State) (n : Nat) (g : TdCnt → TdCnt) : (s.tdAdd n g).cal = s.cal := rfl
@[simp] theorem State.tdAdd_regs (s : State) (n : Nat) (g : TdCnt → TdCnt) : (s.tdAdd n g).regs = s.regs := rfl
@[simp] theorem State.tdAdd_latch (s : State) (n : Nat) (g : TdCnt → TdCnt) : (s.tdAdd n g).latch = s.latch := rfl
@[simp] theorem State.tdAdd_dram (s : State) (n : Nat) (g : TdCnt → TdCnt) : (s.tdAdd n g).dram = s.dram := rfl
@[simp] theorem State.tdAdd_dramBad (s : State) (n : Nat) (g : TdCnt → TdCnt) : (s.tdAdd n g).dramBad = s.dramBad := rfl
@[simp] theorem State.tdAdd_drm (s : State) (n : Nat) (g : TdCnt → TdCnt) : (s.tdAdd n g).drm = s.drm := rfl
@[simp] theorem State.tdAdd_cores (s : State) (n : Nat) (g : TdCnt → TdCnt) : (s.tdAdd n g).cores = s.cores := rfl
@[simp] theorem State.tdAdd_bands (s : State) (n : Nat) (g : TdCnt → TdCnt) : (s.tdAdd n g).bands = s.bands := rfl
@[simp] theorem State.tdAdd_prog (s : State) (n : Nat) (g : TdCnt → TdCnt) : (s.tdAdd n g).prog = s.prog := rfl
@[simp] theorem State.tdAdd_almanac (s : State) (n : Nat) (g : TdCnt → TdCnt) : (s.tdAdd n g).almanac = s.almanac := rfl
@[simp] theorem State.tdAdd_sched (s : State) (n : Nat) (g : TdCnt → TdCnt) : (s.tdAdd n g).sched = s.sched := rfl
@[simp] theorem State.tdAdd_noBase1 (s : State) (n : Nat) (g : TdCnt → TdCnt) : (s.tdAdd n g).noBase1 = s.noBase1 := rfl
@[simp] theorem State.tdAdd_change (s : State) (n : Nat) (g : TdCnt → TdCnt) : (s.tdAdd n g).change = s.change := rfl
@[simp] theorem State.tdAdd_firstLines (s : State) (n : Nat) (g : TdCnt → TdCnt) : (s.tdAdd n g).firstLines = s.firstLines := rfl
@[simp] theorem State.tdAdd_bucket (s : State) (n : Nat) (g : TdCnt → TdCnt) : (s.tdAdd n g).bucket = s.bucket := rfl
@[simp] theorem State.tdAdd_pstate (s : State) (n : Nat) (g : TdCnt → TdCnt) : (s.tdAdd n g).pstate = s.pstate := rfl
@[simp] theorem State.tdAdd_msetSample (s : State) (n : Nat) (g : TdCnt → TdCnt) : (s.tdAdd n g).msetSample = s.msetSample := rfl
@[simp] theorem State.tdAdd_mwinEnd (s : State) (n : Nat) (g : TdCnt → TdCnt) : (s.tdAdd n g).mwinEnd = s.mwinEnd := rfl
@[simp] theorem State.tdAdd_fc (s : State) (n : Nat) (g : TdCnt → TdCnt) : (s.tdAdd n g).fc = s.fc := rfl
@[simp] theorem State.tdAdd_fab (s : State) (n : Nat) (g : TdCnt → TdCnt) : (s.tdAdd n g).fab = s.fab := rfl
@[simp] theorem State.tdAdd_remotes (s : State) (n : Nat) (g : TdCnt → TdCnt) : (s.tdAdd n g).remotes = s.remotes := rfl
@[simp] theorem State.tdAdd_signals (s : State) (n : Nat) (g : TdCnt → TdCnt) : (s.tdAdd n g).signals = s.signals := rfl
@[simp] theorem State.tdAdd_inp (s : State) (n : Nat) (g : TdCnt → TdCnt) : (s.tdAdd n g).inp = s.inp := rfl
@[simp] theorem State.tdAdd_hist (s : State) (n : Nat) (g : TdCnt → TdCnt) : (s.tdAdd n g).hist = s.hist := rfl
@[simp] theorem State.tdAdd_arrived (s : State) (n : Nat) (g : TdCnt → TdCnt) : (s.tdAdd n g).arrived = s.arrived := rfl
@[simp] theorem State.tdAdd_avail (s : State) (n : Nat) (g : TdCnt → TdCnt) : (s.tdAdd n g).avail = s.avail := rfl
@[simp] theorem State.tdAdd_tau (s : State) (n : Nat) (g : TdCnt → TdCnt) : (s.tdAdd n g).tau = s.tau := rfl
@[simp] theorem State.tdAdd_rtFirst (s : State) (n : Nat) (g : TdCnt → TdCnt) : (s.tdAdd n g).rtFirst = s.rtFirst := rfl
@[simp] theorem State.tdAdd_rtJ0 (s : State) (n : Nat) (g : TdCnt → TdCnt) : (s.tdAdd n g).rtJ0 = s.rtJ0 := rfl
@[simp] theorem State.tdAdd_ctx (s : State) (n : Nat) (g : TdCnt → TdCnt) : (s.tdAdd n g).ctx = s.ctx := rfl
@[simp] theorem State.tdAdd_ctxNext (s : State) (n : Nat) (g : TdCnt → TdCnt) : (s.tdAdd n g).ctxNext = s.ctxNext := rfl
@[simp] theorem State.tdAdd_warp (s : State) (n : Nat) (g : TdCnt → TdCnt) : (s.tdAdd n g).warp = s.warp := rfl
@[simp] theorem State.tdAdd_box (s : State) (n : Nat) (g : TdCnt → TdCnt) : (s.tdAdd n g).box = s.box := rfl
@[simp] theorem State.tdAdd_drz (s : State) (n : Nat) (g : TdCnt → TdCnt) : (s.tdAdd n g).drz = s.drz := rfl
@[simp] theorem State.tdAdd_frost (s : State) (n : Nat) (g : TdCnt → TdCnt) : (s.tdAdd n g).frost = s.frost := rfl
@[simp] theorem State.tdAdd_sns (s : State) (n : Nat) (g : TdCnt → TdCnt) : (s.tdAdd n g).sns = s.sns := rfl
@[simp] theorem State.tdAdd_cmp (s : State) (n : Nat) (g : TdCnt → TdCnt) : (s.tdAdd n g).cmp = s.cmp := rfl
@[simp] theorem State.tdAdd_pnl (s : State) (n : Nat) (g : TdCnt → TdCnt) : (s.tdAdd n g).pnl = s.pnl := rfl
@[simp] theorem State.tdAdd_fbSegs (s : State) (n : Nat) (g : TdCnt → TdCnt) : (s.tdAdd n g).fbSegs = s.fbSegs := rfl
@[simp] theorem State.tdAdd_fbStarted (s : State) (n : Nat) (g : TdCnt → TdCnt) : (s.tdAdd n g).fbStarted = s.fbStarted := rfl
@[simp] theorem State.tdAdd_sel (s : State) (n : Nat) (g : TdCnt → TdCnt) : (s.tdAdd n g).sel = s.sel := rfl
@[simp] theorem State.tdAdd_fbNow (s : State) (n : Nat) (g : TdCnt → TdCnt) : (s.tdAdd n g).fbNow = s.fbNow := rfl
@[simp] theorem State.tdAdd_fbNext (s : State) (n : Nat) (g : TdCnt → TdCnt) : (s.tdAdd n g).fbNext = s.fbNext := rfl
@[simp] theorem State.tdAdd_pwr (s : State) (n : Nat) (g : TdCnt → TdCnt) : (s.tdAdd n g).pwr = s.pwr := rfl
@[simp] theorem State.tdAdd_seq (s : State) (n : Nat) (g : TdCnt → TdCnt) : (s.tdAdd n g).seq = s.seq := rfl
@[simp] theorem State.tdAdd_boot (s : State) (n : Nat) (g : TdCnt → TdCnt) : (s.tdAdd n g).boot = s.boot := rfl
@[simp] theorem State.tdAdd_aud (s : State) (n : Nat) (g : TdCnt → TdCnt) : (s.tdAdd n g).aud = s.aud := rfl
@[simp] theorem State.tdAdd_led (s : State) (n : Nat) (g : TdCnt → TdCnt) : (s.tdAdd n g).led = s.led := rfl
@[simp] theorem State.tdAdd_tpl (s : State) (n : Nat) (g : TdCnt → TdCnt) : (s.tdAdd n g).tpl = s.tpl := rfl
@[simp] theorem State.tdAdd_stat (s : State) (n : Nat) (g : TdCnt → TdCnt) : (s.tdAdd n g).stat = s.stat := rfl

/-! ### onInp -/

@[simp] theorem State.onInp_pending (s : State) (g : InpSt → InpSt) : (s.onInp g).pending = s.pending := rfl
@[simp] theorem State.onInp_free (s : State) (g : InpSt → InpSt) : (s.onInp g).free = s.free := rfl
@[simp] theorem State.onInp_now (s : State) (g : InpSt → InpSt) : (s.onInp g).now = s.now := rfl
@[simp] theorem State.onInp_cal (s : State) (g : InpSt → InpSt) : (s.onInp g).cal = s.cal := rfl
@[simp] theorem State.onInp_regs (s : State) (g : InpSt → InpSt) : (s.onInp g).regs = s.regs := rfl
@[simp] theorem State.onInp_latch (s : State) (g : InpSt → InpSt) : (s.onInp g).latch = s.latch := rfl
@[simp] theorem State.onInp_dram (s : State) (g : InpSt → InpSt) : (s.onInp g).dram = s.dram := rfl
@[simp] theorem State.onInp_dramBad (s : State) (g : InpSt → InpSt) : (s.onInp g).dramBad = s.dramBad := rfl
@[simp] theorem State.onInp_drm (s : State) (g : InpSt → InpSt) : (s.onInp g).drm = s.drm := rfl
@[simp] theorem State.onInp_cores (s : State) (g : InpSt → InpSt) : (s.onInp g).cores = s.cores := rfl
@[simp] theorem State.onInp_bands (s : State) (g : InpSt → InpSt) : (s.onInp g).bands = s.bands := rfl
@[simp] theorem State.onInp_prog (s : State) (g : InpSt → InpSt) : (s.onInp g).prog = s.prog := rfl
@[simp] theorem State.onInp_almanac (s : State) (g : InpSt → InpSt) : (s.onInp g).almanac = s.almanac := rfl
@[simp] theorem State.onInp_sched (s : State) (g : InpSt → InpSt) : (s.onInp g).sched = s.sched := rfl
@[simp] theorem State.onInp_noBase1 (s : State) (g : InpSt → InpSt) : (s.onInp g).noBase1 = s.noBase1 := rfl
@[simp] theorem State.onInp_change (s : State) (g : InpSt → InpSt) : (s.onInp g).change = s.change := rfl
@[simp] theorem State.onInp_firstLines (s : State) (g : InpSt → InpSt) : (s.onInp g).firstLines = s.firstLines := rfl
@[simp] theorem State.onInp_bucket (s : State) (g : InpSt → InpSt) : (s.onInp g).bucket = s.bucket := rfl
@[simp] theorem State.onInp_pstate (s : State) (g : InpSt → InpSt) : (s.onInp g).pstate = s.pstate := rfl
@[simp] theorem State.onInp_msetSample (s : State) (g : InpSt → InpSt) : (s.onInp g).msetSample = s.msetSample := rfl
@[simp] theorem State.onInp_mwinEnd (s : State) (g : InpSt → InpSt) : (s.onInp g).mwinEnd = s.mwinEnd := rfl
@[simp] theorem State.onInp_fc (s : State) (g : InpSt → InpSt) : (s.onInp g).fc = s.fc := rfl
@[simp] theorem State.onInp_fab (s : State) (g : InpSt → InpSt) : (s.onInp g).fab = s.fab := rfl
@[simp] theorem State.onInp_remotes (s : State) (g : InpSt → InpSt) : (s.onInp g).remotes = s.remotes := rfl
@[simp] theorem State.onInp_signals (s : State) (g : InpSt → InpSt) : (s.onInp g).signals = s.signals := rfl
@[simp] theorem State.onInp_hist (s : State) (g : InpSt → InpSt) : (s.onInp g).hist = s.hist := rfl
@[simp] theorem State.onInp_arrived (s : State) (g : InpSt → InpSt) : (s.onInp g).arrived = s.arrived := rfl
@[simp] theorem State.onInp_avail (s : State) (g : InpSt → InpSt) : (s.onInp g).avail = s.avail := rfl
@[simp] theorem State.onInp_tau (s : State) (g : InpSt → InpSt) : (s.onInp g).tau = s.tau := rfl
@[simp] theorem State.onInp_rtFirst (s : State) (g : InpSt → InpSt) : (s.onInp g).rtFirst = s.rtFirst := rfl
@[simp] theorem State.onInp_rtJ0 (s : State) (g : InpSt → InpSt) : (s.onInp g).rtJ0 = s.rtJ0 := rfl
@[simp] theorem State.onInp_ctx (s : State) (g : InpSt → InpSt) : (s.onInp g).ctx = s.ctx := rfl
@[simp] theorem State.onInp_ctxNext (s : State) (g : InpSt → InpSt) : (s.onInp g).ctxNext = s.ctxNext := rfl
@[simp] theorem State.onInp_warp (s : State) (g : InpSt → InpSt) : (s.onInp g).warp = s.warp := rfl
@[simp] theorem State.onInp_box (s : State) (g : InpSt → InpSt) : (s.onInp g).box = s.box := rfl
@[simp] theorem State.onInp_drz (s : State) (g : InpSt → InpSt) : (s.onInp g).drz = s.drz := rfl
@[simp] theorem State.onInp_frost (s : State) (g : InpSt → InpSt) : (s.onInp g).frost = s.frost := rfl
@[simp] theorem State.onInp_sns (s : State) (g : InpSt → InpSt) : (s.onInp g).sns = s.sns := rfl
@[simp] theorem State.onInp_cmp (s : State) (g : InpSt → InpSt) : (s.onInp g).cmp = s.cmp := rfl
@[simp] theorem State.onInp_pnl (s : State) (g : InpSt → InpSt) : (s.onInp g).pnl = s.pnl := rfl
@[simp] theorem State.onInp_fbSegs (s : State) (g : InpSt → InpSt) : (s.onInp g).fbSegs = s.fbSegs := rfl
@[simp] theorem State.onInp_fbStarted (s : State) (g : InpSt → InpSt) : (s.onInp g).fbStarted = s.fbStarted := rfl
@[simp] theorem State.onInp_sel (s : State) (g : InpSt → InpSt) : (s.onInp g).sel = s.sel := rfl
@[simp] theorem State.onInp_fbNow (s : State) (g : InpSt → InpSt) : (s.onInp g).fbNow = s.fbNow := rfl
@[simp] theorem State.onInp_fbNext (s : State) (g : InpSt → InpSt) : (s.onInp g).fbNext = s.fbNext := rfl
@[simp] theorem State.onInp_pwr (s : State) (g : InpSt → InpSt) : (s.onInp g).pwr = s.pwr := rfl
@[simp] theorem State.onInp_seq (s : State) (g : InpSt → InpSt) : (s.onInp g).seq = s.seq := rfl
@[simp] theorem State.onInp_boot (s : State) (g : InpSt → InpSt) : (s.onInp g).boot = s.boot := rfl
@[simp] theorem State.onInp_aud (s : State) (g : InpSt → InpSt) : (s.onInp g).aud = s.aud := rfl
@[simp] theorem State.onInp_led (s : State) (g : InpSt → InpSt) : (s.onInp g).led = s.led := rfl
@[simp] theorem State.onInp_tpl (s : State) (g : InpSt → InpSt) : (s.onInp g).tpl = s.tpl := rfl
@[simp] theorem State.onInp_tds (s : State) (g : InpSt → InpSt) : (s.onInp g).tds = s.tds := rfl
@[simp] theorem State.onInp_stat (s : State) (g : InpSt → InpSt) : (s.onInp g).stat = s.stat := rfl

/-! ### onDrz -/

@[simp] theorem State.onDrz_pending (s : State) (g : DrzSt → DrzSt) : (s.onDrz g).pending = s.pending := rfl
@[simp] theorem State.onDrz_free (s : State) (g : DrzSt → DrzSt) : (s.onDrz g).free = s.free := rfl
@[simp] theorem State.onDrz_now (s : State) (g : DrzSt → DrzSt) : (s.onDrz g).now = s.now := rfl
@[simp] theorem State.onDrz_cal (s : State) (g : DrzSt → DrzSt) : (s.onDrz g).cal = s.cal := rfl
@[simp] theorem State.onDrz_regs (s : State) (g : DrzSt → DrzSt) : (s.onDrz g).regs = s.regs := rfl
@[simp] theorem State.onDrz_latch (s : State) (g : DrzSt → DrzSt) : (s.onDrz g).latch = s.latch := rfl
@[simp] theorem State.onDrz_dram (s : State) (g : DrzSt → DrzSt) : (s.onDrz g).dram = s.dram := rfl
@[simp] theorem State.onDrz_dramBad (s : State) (g : DrzSt → DrzSt) : (s.onDrz g).dramBad = s.dramBad := rfl
@[simp] theorem State.onDrz_drm (s : State) (g : DrzSt → DrzSt) : (s.onDrz g).drm = s.drm := rfl
@[simp] theorem State.onDrz_cores (s : State) (g : DrzSt → DrzSt) : (s.onDrz g).cores = s.cores := rfl
@[simp] theorem State.onDrz_bands (s : State) (g : DrzSt → DrzSt) : (s.onDrz g).bands = s.bands := rfl
@[simp] theorem State.onDrz_prog (s : State) (g : DrzSt → DrzSt) : (s.onDrz g).prog = s.prog := rfl
@[simp] theorem State.onDrz_almanac (s : State) (g : DrzSt → DrzSt) : (s.onDrz g).almanac = s.almanac := rfl
@[simp] theorem State.onDrz_sched (s : State) (g : DrzSt → DrzSt) : (s.onDrz g).sched = s.sched := rfl
@[simp] theorem State.onDrz_noBase1 (s : State) (g : DrzSt → DrzSt) : (s.onDrz g).noBase1 = s.noBase1 := rfl
@[simp] theorem State.onDrz_change (s : State) (g : DrzSt → DrzSt) : (s.onDrz g).change = s.change := rfl
@[simp] theorem State.onDrz_firstLines (s : State) (g : DrzSt → DrzSt) : (s.onDrz g).firstLines = s.firstLines := rfl
@[simp] theorem State.onDrz_bucket (s : State) (g : DrzSt → DrzSt) : (s.onDrz g).bucket = s.bucket := rfl
@[simp] theorem State.onDrz_pstate (s : State) (g : DrzSt → DrzSt) : (s.onDrz g).pstate = s.pstate := rfl
@[simp] theorem State.onDrz_msetSample (s : State) (g : DrzSt → DrzSt) : (s.onDrz g).msetSample = s.msetSample := rfl
@[simp] theorem State.onDrz_mwinEnd (s : State) (g : DrzSt → DrzSt) : (s.onDrz g).mwinEnd = s.mwinEnd := rfl
@[simp] theorem State.onDrz_fc (s : State) (g : DrzSt → DrzSt) : (s.onDrz g).fc = s.fc := rfl
@[simp] theorem State.onDrz_fab (s : State) (g : DrzSt → DrzSt) : (s.onDrz g).fab = s.fab := rfl
@[simp] theorem State.onDrz_remotes (s : State) (g : DrzSt → DrzSt) : (s.onDrz g).remotes = s.remotes := rfl
@[simp] theorem State.onDrz_signals (s : State) (g : DrzSt → DrzSt) : (s.onDrz g).signals = s.signals := rfl
@[simp] theorem State.onDrz_inp (s : State) (g : DrzSt → DrzSt) : (s.onDrz g).inp = s.inp := rfl
@[simp] theorem State.onDrz_hist (s : State) (g : DrzSt → DrzSt) : (s.onDrz g).hist = s.hist := rfl
@[simp] theorem State.onDrz_arrived (s : State) (g : DrzSt → DrzSt) : (s.onDrz g).arrived = s.arrived := rfl
@[simp] theorem State.onDrz_avail (s : State) (g : DrzSt → DrzSt) : (s.onDrz g).avail = s.avail := rfl
@[simp] theorem State.onDrz_tau (s : State) (g : DrzSt → DrzSt) : (s.onDrz g).tau = s.tau := rfl
@[simp] theorem State.onDrz_rtFirst (s : State) (g : DrzSt → DrzSt) : (s.onDrz g).rtFirst = s.rtFirst := rfl
@[simp] theorem State.onDrz_rtJ0 (s : State) (g : DrzSt → DrzSt) : (s.onDrz g).rtJ0 = s.rtJ0 := rfl
@[simp] theorem State.onDrz_ctx (s : State) (g : DrzSt → DrzSt) : (s.onDrz g).ctx = s.ctx := rfl
@[simp] theorem State.onDrz_ctxNext (s : State) (g : DrzSt → DrzSt) : (s.onDrz g).ctxNext = s.ctxNext := rfl
@[simp] theorem State.onDrz_warp (s : State) (g : DrzSt → DrzSt) : (s.onDrz g).warp = s.warp := rfl
@[simp] theorem State.onDrz_box (s : State) (g : DrzSt → DrzSt) : (s.onDrz g).box = s.box := rfl
@[simp] theorem State.onDrz_frost (s : State) (g : DrzSt → DrzSt) : (s.onDrz g).frost = s.frost := rfl
@[simp] theorem State.onDrz_sns (s : State) (g : DrzSt → DrzSt) : (s.onDrz g).sns = s.sns := rfl
@[simp] theorem State.onDrz_cmp (s : State) (g : DrzSt → DrzSt) : (s.onDrz g).cmp = s.cmp := rfl
@[simp] theorem State.onDrz_pnl (s : State) (g : DrzSt → DrzSt) : (s.onDrz g).pnl = s.pnl := rfl
@[simp] theorem State.onDrz_fbSegs (s : State) (g : DrzSt → DrzSt) : (s.onDrz g).fbSegs = s.fbSegs := rfl
@[simp] theorem State.onDrz_fbStarted (s : State) (g : DrzSt → DrzSt) : (s.onDrz g).fbStarted = s.fbStarted := rfl
@[simp] theorem State.onDrz_sel (s : State) (g : DrzSt → DrzSt) : (s.onDrz g).sel = s.sel := rfl
@[simp] theorem State.onDrz_fbNow (s : State) (g : DrzSt → DrzSt) : (s.onDrz g).fbNow = s.fbNow := rfl
@[simp] theorem State.onDrz_fbNext (s : State) (g : DrzSt → DrzSt) : (s.onDrz g).fbNext = s.fbNext := rfl
@[simp] theorem State.onDrz_pwr (s : State) (g : DrzSt → DrzSt) : (s.onDrz g).pwr = s.pwr := rfl
@[simp] theorem State.onDrz_seq (s : State) (g : DrzSt → DrzSt) : (s.onDrz g).seq = s.seq := rfl
@[simp] theorem State.onDrz_boot (s : State) (g : DrzSt → DrzSt) : (s.onDrz g).boot = s.boot := rfl
@[simp] theorem State.onDrz_aud (s : State) (g : DrzSt → DrzSt) : (s.onDrz g).aud = s.aud := rfl
@[simp] theorem State.onDrz_led (s : State) (g : DrzSt → DrzSt) : (s.onDrz g).led = s.led := rfl
@[simp] theorem State.onDrz_tpl (s : State) (g : DrzSt → DrzSt) : (s.onDrz g).tpl = s.tpl := rfl
@[simp] theorem State.onDrz_tds (s : State) (g : DrzSt → DrzSt) : (s.onDrz g).tds = s.tds := rfl
@[simp] theorem State.onDrz_stat (s : State) (g : DrzSt → DrzSt) : (s.onDrz g).stat = s.stat := rfl

/-! ### onTpl -/

@[simp] theorem State.onTpl_pending (s : State) (g : TplSt → TplSt) : (s.onTpl g).pending = s.pending := rfl
@[simp] theorem State.onTpl_free (s : State) (g : TplSt → TplSt) : (s.onTpl g).free = s.free := rfl
@[simp] theorem State.onTpl_now (s : State) (g : TplSt → TplSt) : (s.onTpl g).now = s.now := rfl
@[simp] theorem State.onTpl_cal (s : State) (g : TplSt → TplSt) : (s.onTpl g).cal = s.cal := rfl
@[simp] theorem State.onTpl_regs (s : State) (g : TplSt → TplSt) : (s.onTpl g).regs = s.regs := rfl
@[simp] theorem State.onTpl_latch (s : State) (g : TplSt → TplSt) : (s.onTpl g).latch = s.latch := rfl
@[simp] theorem State.onTpl_dram (s : State) (g : TplSt → TplSt) : (s.onTpl g).dram = s.dram := rfl
@[simp] theorem State.onTpl_dramBad (s : State) (g : TplSt → TplSt) : (s.onTpl g).dramBad = s.dramBad := rfl
@[simp] theorem State.onTpl_drm (s : State) (g : TplSt → TplSt) : (s.onTpl g).drm = s.drm := rfl
@[simp] theorem State.onTpl_cores (s : State) (g : TplSt → TplSt) : (s.onTpl g).cores = s.cores := rfl
@[simp] theorem State.onTpl_bands (s : State) (g : TplSt → TplSt) : (s.onTpl g).bands = s.bands := rfl
@[simp] theorem State.onTpl_prog (s : State) (g : TplSt → TplSt) : (s.onTpl g).prog = s.prog := rfl
@[simp] theorem State.onTpl_almanac (s : State) (g : TplSt → TplSt) : (s.onTpl g).almanac = s.almanac := rfl
@[simp] theorem State.onTpl_sched (s : State) (g : TplSt → TplSt) : (s.onTpl g).sched = s.sched := rfl
@[simp] theorem State.onTpl_noBase1 (s : State) (g : TplSt → TplSt) : (s.onTpl g).noBase1 = s.noBase1 := rfl
@[simp] theorem State.onTpl_change (s : State) (g : TplSt → TplSt) : (s.onTpl g).change = s.change := rfl
@[simp] theorem State.onTpl_firstLines (s : State) (g : TplSt → TplSt) : (s.onTpl g).firstLines = s.firstLines := rfl
@[simp] theorem State.onTpl_bucket (s : State) (g : TplSt → TplSt) : (s.onTpl g).bucket = s.bucket := rfl
@[simp] theorem State.onTpl_pstate (s : State) (g : TplSt → TplSt) : (s.onTpl g).pstate = s.pstate := rfl
@[simp] theorem State.onTpl_msetSample (s : State) (g : TplSt → TplSt) : (s.onTpl g).msetSample = s.msetSample := rfl
@[simp] theorem State.onTpl_mwinEnd (s : State) (g : TplSt → TplSt) : (s.onTpl g).mwinEnd = s.mwinEnd := rfl
@[simp] theorem State.onTpl_fc (s : State) (g : TplSt → TplSt) : (s.onTpl g).fc = s.fc := rfl
@[simp] theorem State.onTpl_fab (s : State) (g : TplSt → TplSt) : (s.onTpl g).fab = s.fab := rfl
@[simp] theorem State.onTpl_remotes (s : State) (g : TplSt → TplSt) : (s.onTpl g).remotes = s.remotes := rfl
@[simp] theorem State.onTpl_signals (s : State) (g : TplSt → TplSt) : (s.onTpl g).signals = s.signals := rfl
@[simp] theorem State.onTpl_inp (s : State) (g : TplSt → TplSt) : (s.onTpl g).inp = s.inp := rfl
@[simp] theorem State.onTpl_hist (s : State) (g : TplSt → TplSt) : (s.onTpl g).hist = s.hist := rfl
@[simp] theorem State.onTpl_arrived (s : State) (g : TplSt → TplSt) : (s.onTpl g).arrived = s.arrived := rfl
@[simp] theorem State.onTpl_avail (s : State) (g : TplSt → TplSt) : (s.onTpl g).avail = s.avail := rfl
@[simp] theorem State.onTpl_tau (s : State) (g : TplSt → TplSt) : (s.onTpl g).tau = s.tau := rfl
@[simp] theorem State.onTpl_rtFirst (s : State) (g : TplSt → TplSt) : (s.onTpl g).rtFirst = s.rtFirst := rfl
@[simp] theorem State.onTpl_rtJ0 (s : State) (g : TplSt → TplSt) : (s.onTpl g).rtJ0 = s.rtJ0 := rfl
@[simp] theorem State.onTpl_ctx (s : State) (g : TplSt → TplSt) : (s.onTpl g).ctx = s.ctx := rfl
@[simp] theorem State.onTpl_ctxNext (s : State) (g : TplSt → TplSt) : (s.onTpl g).ctxNext = s.ctxNext := rfl
@[simp] theorem State.onTpl_warp (s : State) (g : TplSt → TplSt) : (s.onTpl g).warp = s.warp := rfl
@[simp] theorem State.onTpl_box (s : State) (g : TplSt → TplSt) : (s.onTpl g).box = s.box := rfl
@[simp] theorem State.onTpl_drz (s : State) (g : TplSt → TplSt) : (s.onTpl g).drz = s.drz := rfl
@[simp] theorem State.onTpl_frost (s : State) (g : TplSt → TplSt) : (s.onTpl g).frost = s.frost := rfl
@[simp] theorem State.onTpl_sns (s : State) (g : TplSt → TplSt) : (s.onTpl g).sns = s.sns := rfl
@[simp] theorem State.onTpl_cmp (s : State) (g : TplSt → TplSt) : (s.onTpl g).cmp = s.cmp := rfl
@[simp] theorem State.onTpl_pnl (s : State) (g : TplSt → TplSt) : (s.onTpl g).pnl = s.pnl := rfl
@[simp] theorem State.onTpl_fbSegs (s : State) (g : TplSt → TplSt) : (s.onTpl g).fbSegs = s.fbSegs := rfl
@[simp] theorem State.onTpl_fbStarted (s : State) (g : TplSt → TplSt) : (s.onTpl g).fbStarted = s.fbStarted := rfl
@[simp] theorem State.onTpl_sel (s : State) (g : TplSt → TplSt) : (s.onTpl g).sel = s.sel := rfl
@[simp] theorem State.onTpl_fbNow (s : State) (g : TplSt → TplSt) : (s.onTpl g).fbNow = s.fbNow := rfl
@[simp] theorem State.onTpl_fbNext (s : State) (g : TplSt → TplSt) : (s.onTpl g).fbNext = s.fbNext := rfl
@[simp] theorem State.onTpl_pwr (s : State) (g : TplSt → TplSt) : (s.onTpl g).pwr = s.pwr := rfl
@[simp] theorem State.onTpl_seq (s : State) (g : TplSt → TplSt) : (s.onTpl g).seq = s.seq := rfl
@[simp] theorem State.onTpl_boot (s : State) (g : TplSt → TplSt) : (s.onTpl g).boot = s.boot := rfl
@[simp] theorem State.onTpl_aud (s : State) (g : TplSt → TplSt) : (s.onTpl g).aud = s.aud := rfl
@[simp] theorem State.onTpl_led (s : State) (g : TplSt → TplSt) : (s.onTpl g).led = s.led := rfl
@[simp] theorem State.onTpl_tds (s : State) (g : TplSt → TplSt) : (s.onTpl g).tds = s.tds := rfl
@[simp] theorem State.onTpl_stat (s : State) (g : TplSt → TplSt) : (s.onTpl g).stat = s.stat := rfl

/-! ### onPnl -/

@[simp] theorem State.onPnl_pending (s : State) (g : PnlSt → PnlSt) : (s.onPnl g).pending = s.pending := rfl
@[simp] theorem State.onPnl_free (s : State) (g : PnlSt → PnlSt) : (s.onPnl g).free = s.free := rfl
@[simp] theorem State.onPnl_now (s : State) (g : PnlSt → PnlSt) : (s.onPnl g).now = s.now := rfl
@[simp] theorem State.onPnl_cal (s : State) (g : PnlSt → PnlSt) : (s.onPnl g).cal = s.cal := rfl
@[simp] theorem State.onPnl_regs (s : State) (g : PnlSt → PnlSt) : (s.onPnl g).regs = s.regs := rfl
@[simp] theorem State.onPnl_latch (s : State) (g : PnlSt → PnlSt) : (s.onPnl g).latch = s.latch := rfl
@[simp] theorem State.onPnl_dram (s : State) (g : PnlSt → PnlSt) : (s.onPnl g).dram = s.dram := rfl
@[simp] theorem State.onPnl_dramBad (s : State) (g : PnlSt → PnlSt) : (s.onPnl g).dramBad = s.dramBad := rfl
@[simp] theorem State.onPnl_drm (s : State) (g : PnlSt → PnlSt) : (s.onPnl g).drm = s.drm := rfl
@[simp] theorem State.onPnl_cores (s : State) (g : PnlSt → PnlSt) : (s.onPnl g).cores = s.cores := rfl
@[simp] theorem State.onPnl_bands (s : State) (g : PnlSt → PnlSt) : (s.onPnl g).bands = s.bands := rfl
@[simp] theorem State.onPnl_prog (s : State) (g : PnlSt → PnlSt) : (s.onPnl g).prog = s.prog := rfl
@[simp] theorem State.onPnl_almanac (s : State) (g : PnlSt → PnlSt) : (s.onPnl g).almanac = s.almanac := rfl
@[simp] theorem State.onPnl_sched (s : State) (g : PnlSt → PnlSt) : (s.onPnl g).sched = s.sched := rfl
@[simp] theorem State.onPnl_noBase1 (s : State) (g : PnlSt → PnlSt) : (s.onPnl g).noBase1 = s.noBase1 := rfl
@[simp] theorem State.onPnl_change (s : State) (g : PnlSt → PnlSt) : (s.onPnl g).change = s.change := rfl
@[simp] theorem State.onPnl_firstLines (s : State) (g : PnlSt → PnlSt) : (s.onPnl g).firstLines = s.firstLines := rfl
@[simp] theorem State.onPnl_bucket (s : State) (g : PnlSt → PnlSt) : (s.onPnl g).bucket = s.bucket := rfl
@[simp] theorem State.onPnl_pstate (s : State) (g : PnlSt → PnlSt) : (s.onPnl g).pstate = s.pstate := rfl
@[simp] theorem State.onPnl_msetSample (s : State) (g : PnlSt → PnlSt) : (s.onPnl g).msetSample = s.msetSample := rfl
@[simp] theorem State.onPnl_mwinEnd (s : State) (g : PnlSt → PnlSt) : (s.onPnl g).mwinEnd = s.mwinEnd := rfl
@[simp] theorem State.onPnl_fc (s : State) (g : PnlSt → PnlSt) : (s.onPnl g).fc = s.fc := rfl
@[simp] theorem State.onPnl_fab (s : State) (g : PnlSt → PnlSt) : (s.onPnl g).fab = s.fab := rfl
@[simp] theorem State.onPnl_remotes (s : State) (g : PnlSt → PnlSt) : (s.onPnl g).remotes = s.remotes := rfl
@[simp] theorem State.onPnl_signals (s : State) (g : PnlSt → PnlSt) : (s.onPnl g).signals = s.signals := rfl
@[simp] theorem State.onPnl_inp (s : State) (g : PnlSt → PnlSt) : (s.onPnl g).inp = s.inp := rfl
@[simp] theorem State.onPnl_hist (s : State) (g : PnlSt → PnlSt) : (s.onPnl g).hist = s.hist := rfl
@[simp] theorem State.onPnl_arrived (s : State) (g : PnlSt → PnlSt) : (s.onPnl g).arrived = s.arrived := rfl
@[simp] theorem State.onPnl_avail (s : State) (g : PnlSt → PnlSt) : (s.onPnl g).avail = s.avail := rfl
@[simp] theorem State.onPnl_tau (s : State) (g : PnlSt → PnlSt) : (s.onPnl g).tau = s.tau := rfl
@[simp] theorem State.onPnl_rtFirst (s : State) (g : PnlSt → PnlSt) : (s.onPnl g).rtFirst = s.rtFirst := rfl
@[simp] theorem State.onPnl_rtJ0 (s : State) (g : PnlSt → PnlSt) : (s.onPnl g).rtJ0 = s.rtJ0 := rfl
@[simp] theorem State.onPnl_ctx (s : State) (g : PnlSt → PnlSt) : (s.onPnl g).ctx = s.ctx := rfl
@[simp] theorem State.onPnl_ctxNext (s : State) (g : PnlSt → PnlSt) : (s.onPnl g).ctxNext = s.ctxNext := rfl
@[simp] theorem State.onPnl_warp (s : State) (g : PnlSt → PnlSt) : (s.onPnl g).warp = s.warp := rfl
@[simp] theorem State.onPnl_box (s : State) (g : PnlSt → PnlSt) : (s.onPnl g).box = s.box := rfl
@[simp] theorem State.onPnl_drz (s : State) (g : PnlSt → PnlSt) : (s.onPnl g).drz = s.drz := rfl
@[simp] theorem State.onPnl_frost (s : State) (g : PnlSt → PnlSt) : (s.onPnl g).frost = s.frost := rfl
@[simp] theorem State.onPnl_sns (s : State) (g : PnlSt → PnlSt) : (s.onPnl g).sns = s.sns := rfl
@[simp] theorem State.onPnl_cmp (s : State) (g : PnlSt → PnlSt) : (s.onPnl g).cmp = s.cmp := rfl
@[simp] theorem State.onPnl_fbSegs (s : State) (g : PnlSt → PnlSt) : (s.onPnl g).fbSegs = s.fbSegs := rfl
@[simp] theorem State.onPnl_fbStarted (s : State) (g : PnlSt → PnlSt) : (s.onPnl g).fbStarted = s.fbStarted := rfl
@[simp] theorem State.onPnl_sel (s : State) (g : PnlSt → PnlSt) : (s.onPnl g).sel = s.sel := rfl
@[simp] theorem State.onPnl_fbNow (s : State) (g : PnlSt → PnlSt) : (s.onPnl g).fbNow = s.fbNow := rfl
@[simp] theorem State.onPnl_fbNext (s : State) (g : PnlSt → PnlSt) : (s.onPnl g).fbNext = s.fbNext := rfl
@[simp] theorem State.onPnl_pwr (s : State) (g : PnlSt → PnlSt) : (s.onPnl g).pwr = s.pwr := rfl
@[simp] theorem State.onPnl_seq (s : State) (g : PnlSt → PnlSt) : (s.onPnl g).seq = s.seq := rfl
@[simp] theorem State.onPnl_boot (s : State) (g : PnlSt → PnlSt) : (s.onPnl g).boot = s.boot := rfl
@[simp] theorem State.onPnl_aud (s : State) (g : PnlSt → PnlSt) : (s.onPnl g).aud = s.aud := rfl
@[simp] theorem State.onPnl_led (s : State) (g : PnlSt → PnlSt) : (s.onPnl g).led = s.led := rfl
@[simp] theorem State.onPnl_tpl (s : State) (g : PnlSt → PnlSt) : (s.onPnl g).tpl = s.tpl := rfl
@[simp] theorem State.onPnl_tds (s : State) (g : PnlSt → PnlSt) : (s.onPnl g).tds = s.tds := rfl
@[simp] theorem State.onPnl_stat (s : State) (g : PnlSt → PnlSt) : (s.onPnl g).stat = s.stat := rfl

/-! ### onPwr -/

@[simp] theorem State.onPwr_pending (s : State) (g : PwrSt → PwrSt) : (s.onPwr g).pending = s.pending := rfl
@[simp] theorem State.onPwr_free (s : State) (g : PwrSt → PwrSt) : (s.onPwr g).free = s.free := rfl
@[simp] theorem State.onPwr_now (s : State) (g : PwrSt → PwrSt) : (s.onPwr g).now = s.now := rfl
@[simp] theorem State.onPwr_cal (s : State) (g : PwrSt → PwrSt) : (s.onPwr g).cal = s.cal := rfl
@[simp] theorem State.onPwr_regs (s : State) (g : PwrSt → PwrSt) : (s.onPwr g).regs = s.regs := rfl
@[simp] theorem State.onPwr_latch (s : State) (g : PwrSt → PwrSt) : (s.onPwr g).latch = s.latch := rfl
@[simp] theorem State.onPwr_dram (s : State) (g : PwrSt → PwrSt) : (s.onPwr g).dram = s.dram := rfl
@[simp] theorem State.onPwr_dramBad (s : State) (g : PwrSt → PwrSt) : (s.onPwr g).dramBad = s.dramBad := rfl
@[simp] theorem State.onPwr_drm (s : State) (g : PwrSt → PwrSt) : (s.onPwr g).drm = s.drm := rfl
@[simp] theorem State.onPwr_cores (s : State) (g : PwrSt → PwrSt) : (s.onPwr g).cores = s.cores := rfl
@[simp] theorem State.onPwr_bands (s : State) (g : PwrSt → PwrSt) : (s.onPwr g).bands = s.bands := rfl
@[simp] theorem State.onPwr_prog (s : State) (g : PwrSt → PwrSt) : (s.onPwr g).prog = s.prog := rfl
@[simp] theorem State.onPwr_almanac (s : State) (g : PwrSt → PwrSt) : (s.onPwr g).almanac = s.almanac := rfl
@[simp] theorem State.onPwr_sched (s : State) (g : PwrSt → PwrSt) : (s.onPwr g).sched = s.sched := rfl
@[simp] theorem State.onPwr_noBase1 (s : State) (g : PwrSt → PwrSt) : (s.onPwr g).noBase1 = s.noBase1 := rfl
@[simp] theorem State.onPwr_change (s : State) (g : PwrSt → PwrSt) : (s.onPwr g).change = s.change := rfl
@[simp] theorem State.onPwr_firstLines (s : State) (g : PwrSt → PwrSt) : (s.onPwr g).firstLines = s.firstLines := rfl
@[simp] theorem State.onPwr_bucket (s : State) (g : PwrSt → PwrSt) : (s.onPwr g).bucket = s.bucket := rfl
@[simp] theorem State.onPwr_pstate (s : State) (g : PwrSt → PwrSt) : (s.onPwr g).pstate = s.pstate := rfl
@[simp] theorem State.onPwr_msetSample (s : State) (g : PwrSt → PwrSt) : (s.onPwr g).msetSample = s.msetSample := rfl
@[simp] theorem State.onPwr_mwinEnd (s : State) (g : PwrSt → PwrSt) : (s.onPwr g).mwinEnd = s.mwinEnd := rfl
@[simp] theorem State.onPwr_fc (s : State) (g : PwrSt → PwrSt) : (s.onPwr g).fc = s.fc := rfl
@[simp] theorem State.onPwr_fab (s : State) (g : PwrSt → PwrSt) : (s.onPwr g).fab = s.fab := rfl
@[simp] theorem State.onPwr_remotes (s : State) (g : PwrSt → PwrSt) : (s.onPwr g).remotes = s.remotes := rfl
@[simp] theorem State.onPwr_signals (s : State) (g : PwrSt → PwrSt) : (s.onPwr g).signals = s.signals := rfl
@[simp] theorem State.onPwr_inp (s : State) (g : PwrSt → PwrSt) : (s.onPwr g).inp = s.inp := rfl
@[simp] theorem State.onPwr_hist (s : State) (g : PwrSt → PwrSt) : (s.onPwr g).hist = s.hist := rfl
@[simp] theorem State.onPwr_arrived (s : State) (g : PwrSt → PwrSt) : (s.onPwr g).arrived = s.arrived := rfl
@[simp] theorem State.onPwr_avail (s : State) (g : PwrSt → PwrSt) : (s.onPwr g).avail = s.avail := rfl
@[simp] theorem State.onPwr_tau (s : State) (g : PwrSt → PwrSt) : (s.onPwr g).tau = s.tau := rfl
@[simp] theorem State.onPwr_rtFirst (s : State) (g : PwrSt → PwrSt) : (s.onPwr g).rtFirst = s.rtFirst := rfl
@[simp] theorem State.onPwr_rtJ0 (s : State) (g : PwrSt → PwrSt) : (s.onPwr g).rtJ0 = s.rtJ0 := rfl
@[simp] theorem State.onPwr_ctx (s : State) (g : PwrSt → PwrSt) : (s.onPwr g).ctx = s.ctx := rfl
@[simp] theorem State.onPwr_ctxNext (s : State) (g : PwrSt → PwrSt) : (s.onPwr g).ctxNext = s.ctxNext := rfl
@[simp] theorem State.onPwr_warp (s : State) (g : PwrSt → PwrSt) : (s.onPwr g).warp = s.warp := rfl
@[simp] theorem State.onPwr_box (s : State) (g : PwrSt → PwrSt) : (s.onPwr g).box = s.box := rfl
@[simp] theorem State.onPwr_drz (s : State) (g : PwrSt → PwrSt) : (s.onPwr g).drz = s.drz := rfl
@[simp] theorem State.onPwr_frost (s : State) (g : PwrSt → PwrSt) : (s.onPwr g).frost = s.frost := rfl
@[simp] theorem State.onPwr_sns (s : State) (g : PwrSt → PwrSt) : (s.onPwr g).sns = s.sns := rfl
@[simp] theorem State.onPwr_cmp (s : State) (g : PwrSt → PwrSt) : (s.onPwr g).cmp = s.cmp := rfl
@[simp] theorem State.onPwr_pnl (s : State) (g : PwrSt → PwrSt) : (s.onPwr g).pnl = s.pnl := rfl
@[simp] theorem State.onPwr_fbSegs (s : State) (g : PwrSt → PwrSt) : (s.onPwr g).fbSegs = s.fbSegs := rfl
@[simp] theorem State.onPwr_fbStarted (s : State) (g : PwrSt → PwrSt) : (s.onPwr g).fbStarted = s.fbStarted := rfl
@[simp] theorem State.onPwr_sel (s : State) (g : PwrSt → PwrSt) : (s.onPwr g).sel = s.sel := rfl
@[simp] theorem State.onPwr_fbNow (s : State) (g : PwrSt → PwrSt) : (s.onPwr g).fbNow = s.fbNow := rfl
@[simp] theorem State.onPwr_fbNext (s : State) (g : PwrSt → PwrSt) : (s.onPwr g).fbNext = s.fbNext := rfl
@[simp] theorem State.onPwr_seq (s : State) (g : PwrSt → PwrSt) : (s.onPwr g).seq = s.seq := rfl
@[simp] theorem State.onPwr_boot (s : State) (g : PwrSt → PwrSt) : (s.onPwr g).boot = s.boot := rfl
@[simp] theorem State.onPwr_aud (s : State) (g : PwrSt → PwrSt) : (s.onPwr g).aud = s.aud := rfl
@[simp] theorem State.onPwr_led (s : State) (g : PwrSt → PwrSt) : (s.onPwr g).led = s.led := rfl
@[simp] theorem State.onPwr_tpl (s : State) (g : PwrSt → PwrSt) : (s.onPwr g).tpl = s.tpl := rfl
@[simp] theorem State.onPwr_tds (s : State) (g : PwrSt → PwrSt) : (s.onPwr g).tds = s.tds := rfl
@[simp] theorem State.onPwr_stat (s : State) (g : PwrSt → PwrSt) : (s.onPwr g).stat = s.stat := rfl

/-! ### onBoot -/

@[simp] theorem State.onBoot_pending (s : State) (g : BootSt → BootSt) : (s.onBoot g).pending = s.pending := rfl
@[simp] theorem State.onBoot_free (s : State) (g : BootSt → BootSt) : (s.onBoot g).free = s.free := rfl
@[simp] theorem State.onBoot_now (s : State) (g : BootSt → BootSt) : (s.onBoot g).now = s.now := rfl
@[simp] theorem State.onBoot_cal (s : State) (g : BootSt → BootSt) : (s.onBoot g).cal = s.cal := rfl
@[simp] theorem State.onBoot_regs (s : State) (g : BootSt → BootSt) : (s.onBoot g).regs = s.regs := rfl
@[simp] theorem State.onBoot_latch (s : State) (g : BootSt → BootSt) : (s.onBoot g).latch = s.latch := rfl
@[simp] theorem State.onBoot_dram (s : State) (g : BootSt → BootSt) : (s.onBoot g).dram = s.dram := rfl
@[simp] theorem State.onBoot_dramBad (s : State) (g : BootSt → BootSt) : (s.onBoot g).dramBad = s.dramBad := rfl
@[simp] theorem State.onBoot_drm (s : State) (g : BootSt → BootSt) : (s.onBoot g).drm = s.drm := rfl
@[simp] theorem State.onBoot_cores (s : State) (g : BootSt → BootSt) : (s.onBoot g).cores = s.cores := rfl
@[simp] theorem State.onBoot_bands (s : State) (g : BootSt → BootSt) : (s.onBoot g).bands = s.bands := rfl
@[simp] theorem State.onBoot_prog (s : State) (g : BootSt → BootSt) : (s.onBoot g).prog = s.prog := rfl
@[simp] theorem State.onBoot_almanac (s : State) (g : BootSt → BootSt) : (s.onBoot g).almanac = s.almanac := rfl
@[simp] theorem State.onBoot_sched (s : State) (g : BootSt → BootSt) : (s.onBoot g).sched = s.sched := rfl
@[simp] theorem State.onBoot_noBase1 (s : State) (g : BootSt → BootSt) : (s.onBoot g).noBase1 = s.noBase1 := rfl
@[simp] theorem State.onBoot_change (s : State) (g : BootSt → BootSt) : (s.onBoot g).change = s.change := rfl
@[simp] theorem State.onBoot_firstLines (s : State) (g : BootSt → BootSt) : (s.onBoot g).firstLines = s.firstLines := rfl
@[simp] theorem State.onBoot_bucket (s : State) (g : BootSt → BootSt) : (s.onBoot g).bucket = s.bucket := rfl
@[simp] theorem State.onBoot_pstate (s : State) (g : BootSt → BootSt) : (s.onBoot g).pstate = s.pstate := rfl
@[simp] theorem State.onBoot_msetSample (s : State) (g : BootSt → BootSt) : (s.onBoot g).msetSample = s.msetSample := rfl
@[simp] theorem State.onBoot_mwinEnd (s : State) (g : BootSt → BootSt) : (s.onBoot g).mwinEnd = s.mwinEnd := rfl
@[simp] theorem State.onBoot_fc (s : State) (g : BootSt → BootSt) : (s.onBoot g).fc = s.fc := rfl
@[simp] theorem State.onBoot_fab (s : State) (g : BootSt → BootSt) : (s.onBoot g).fab = s.fab := rfl
@[simp] theorem State.onBoot_remotes (s : State) (g : BootSt → BootSt) : (s.onBoot g).remotes = s.remotes := rfl
@[simp] theorem State.onBoot_signals (s : State) (g : BootSt → BootSt) : (s.onBoot g).signals = s.signals := rfl
@[simp] theorem State.onBoot_inp (s : State) (g : BootSt → BootSt) : (s.onBoot g).inp = s.inp := rfl
@[simp] theorem State.onBoot_hist (s : State) (g : BootSt → BootSt) : (s.onBoot g).hist = s.hist := rfl
@[simp] theorem State.onBoot_arrived (s : State) (g : BootSt → BootSt) : (s.onBoot g).arrived = s.arrived := rfl
@[simp] theorem State.onBoot_avail (s : State) (g : BootSt → BootSt) : (s.onBoot g).avail = s.avail := rfl
@[simp] theorem State.onBoot_tau (s : State) (g : BootSt → BootSt) : (s.onBoot g).tau = s.tau := rfl
@[simp] theorem State.onBoot_rtFirst (s : State) (g : BootSt → BootSt) : (s.onBoot g).rtFirst = s.rtFirst := rfl
@[simp] theorem State.onBoot_rtJ0 (s : State) (g : BootSt → BootSt) : (s.onBoot g).rtJ0 = s.rtJ0 := rfl
@[simp] theorem State.onBoot_ctx (s : State) (g : BootSt → BootSt) : (s.onBoot g).ctx = s.ctx := rfl
@[simp] theorem State.onBoot_ctxNext (s : State) (g : BootSt → BootSt) : (s.onBoot g).ctxNext = s.ctxNext := rfl
@[simp] theorem State.onBoot_warp (s : State) (g : BootSt → BootSt) : (s.onBoot g).warp = s.warp := rfl
@[simp] theorem State.onBoot_box (s : State) (g : BootSt → BootSt) : (s.onBoot g).box = s.box := rfl
@[simp] theorem State.onBoot_drz (s : State) (g : BootSt → BootSt) : (s.onBoot g).drz = s.drz := rfl
@[simp] theorem State.onBoot_frost (s : State) (g : BootSt → BootSt) : (s.onBoot g).frost = s.frost := rfl
@[simp] theorem State.onBoot_sns (s : State) (g : BootSt → BootSt) : (s.onBoot g).sns = s.sns := rfl
@[simp] theorem State.onBoot_cmp (s : State) (g : BootSt → BootSt) : (s.onBoot g).cmp = s.cmp := rfl
@[simp] theorem State.onBoot_pnl (s : State) (g : BootSt → BootSt) : (s.onBoot g).pnl = s.pnl := rfl
@[simp] theorem State.onBoot_fbSegs (s : State) (g : BootSt → BootSt) : (s.onBoot g).fbSegs = s.fbSegs := rfl
@[simp] theorem State.onBoot_fbStarted (s : State) (g : BootSt → BootSt) : (s.onBoot g).fbStarted = s.fbStarted := rfl
@[simp] theorem State.onBoot_sel (s : State) (g : BootSt → BootSt) : (s.onBoot g).sel = s.sel := rfl
@[simp] theorem State.onBoot_fbNow (s : State) (g : BootSt → BootSt) : (s.onBoot g).fbNow = s.fbNow := rfl
@[simp] theorem State.onBoot_fbNext (s : State) (g : BootSt → BootSt) : (s.onBoot g).fbNext = s.fbNext := rfl
@[simp] theorem State.onBoot_pwr (s : State) (g : BootSt → BootSt) : (s.onBoot g).pwr = s.pwr := rfl
@[simp] theorem State.onBoot_seq (s : State) (g : BootSt → BootSt) : (s.onBoot g).seq = s.seq := rfl
@[simp] theorem State.onBoot_aud (s : State) (g : BootSt → BootSt) : (s.onBoot g).aud = s.aud := rfl
@[simp] theorem State.onBoot_led (s : State) (g : BootSt → BootSt) : (s.onBoot g).led = s.led := rfl
@[simp] theorem State.onBoot_tpl (s : State) (g : BootSt → BootSt) : (s.onBoot g).tpl = s.tpl := rfl
@[simp] theorem State.onBoot_tds (s : State) (g : BootSt → BootSt) : (s.onBoot g).tds = s.tds := rfl
@[simp] theorem State.onBoot_stat (s : State) (g : BootSt → BootSt) : (s.onBoot g).stat = s.stat := rfl

/-! ### What the updates write -/

@[simp] theorem RegFile.note_vals (r : RegFile) (now : Nat) (f : Fld) (v : Nat) : (r.note now f v).vals = r.vals := by
  unfold RegFile.note
  split <;> rfl
@[simp] theorem State.setF_vals (s : State) (f : Fld) (v : Nat) :
    (s.setF f v).regs.vals = SMap.set f.rst s.regs.vals f.key (v % 2 ^ f.w) := by
  simp only [State.setF, RegFile.put, RegFile.note_vals]
@[simp] theorem State.incF_vals (s : State) (f : Fld) (n : Nat) :
    (s.incF f n).regs.vals = SMap.set f.rst s.regs.vals f.key (satAdd f.w (s.getF f) n % 2 ^ f.w) := by
  simp only [State.incF, RegFile.put, RegFile.note_vals]
@[simp] theorem State.onInp_inp (s : State) (g : InpSt → InpSt) : (s.onInp g).inp = g s.inp := rfl
@[simp] theorem State.onDrz_drz (s : State) (g : DrzSt → DrzSt) : (s.onDrz g).drz = g s.drz := rfl
@[simp] theorem State.onTpl_tpl (s : State) (g : TplSt → TplSt) : (s.onTpl g).tpl = g s.tpl := rfl
@[simp] theorem State.onPnl_pnl (s : State) (g : PnlSt → PnlSt) : (s.onPnl g).pnl = g s.pnl := rfl
@[simp] theorem State.onPwr_pwr (s : State) (g : PwrSt → PwrSt) : (s.onPwr g).pwr = g s.pwr := rfl
@[simp] theorem State.onBoot_boot (s : State) (g : BootSt → BootSt) : (s.onBoot g).boot = g s.boot := rfl

/-- A core's state reads back what was written to it. -/
@[simp] theorem State.core_setCore_self (s : State) (p : Nat) (c : CoreSt) : (s.setCore p c).core p = c :=
  SMap.get_set_self _ _ _ _

/-- Writing one core leaves every other alone. -/
theorem State.core_setCore_ne (s : State) {p q : Nat} (c : CoreSt) (h : q ≠ p) : (s.setCore p c).core q = s.core q :=
  SMap.get_set_ne _ _ _ _ h

@[simp] theorem State.core_onCore_self (s : State) (p : Nat) (g : CoreSt → CoreSt) :
    (s.onCore p g).core p = g (s.core p) := SMap.get_set_self _ _ _ _

theorem State.core_onCore_ne (s : State) {p q : Nat} (g : CoreSt → CoreSt) (h : q ≠ p) :
    (s.onCore p g).core q = s.core q := SMap.get_set_ne _ _ _ _ h

/-- A band's state reads back what was written to it. -/
@[simp] theorem State.band_setBand_self (s : State) (p : Nat) (c : BandSt) : (s.setBand p c).band p = c :=
  SMap.get_set_self _ _ _ _

theorem State.band_setBand_ne (s : State) {p q : Nat} (c : BandSt) (h : q ≠ p) : (s.setBand p c).band q = s.band q :=
  SMap.get_set_ne _ _ _ _ h

@[simp] theorem State.core_setF (s : State) (f : Fld) (v p : Nat) : (s.setF f v).core p = s.core p := rfl
@[simp] theorem State.band_setF (s : State) (f : Fld) (v b : Nat) : (s.setF f v).band b = s.band b := rfl
@[simp] theorem State.getF_onCore (s : State) (p : Nat) (g : CoreSt → CoreSt) (f : Fld) :
    (s.onCore p g).getF f = s.getF f := rfl
@[simp] theorem State.getF_setCore (s : State) (p : Nat) (c : CoreSt) (f : Fld) : (s.setCore p c).getF f = s.getF f := rfl
@[simp] theorem State.getF_onBand (s : State) (b : Nat) (g : BandSt → BandSt) (f : Fld) :
    (s.onBand b g).getF f = s.getF f := rfl
@[simp] theorem State.getF_tdAdd (s : State) (n : Nat) (g : TdCnt → TdCnt) (f : Fld) :
    (s.tdAdd n g).getF f = s.getF f := rfl
@[simp] theorem State.getF_onInp (s : State) (g : InpSt → InpSt) (f : Fld) : (s.onInp g).getF f = s.getF f := rfl
@[simp] theorem State.getF_onDrz (s : State) (g : DrzSt → DrzSt) (f : Fld) : (s.onDrz g).getF f = s.getF f := rfl
@[simp] theorem State.getF_onTpl (s : State) (g : TplSt → TplSt) (f : Fld) : (s.onTpl g).getF f = s.getF f := rfl
@[simp] theorem State.getF_onPnl (s : State) (g : PnlSt → PnlSt) (f : Fld) : (s.onPnl g).getF f = s.getF f := rfl
@[simp] theorem State.getF_onPwr (s : State) (g : PwrSt → PwrSt) (f : Fld) : (s.onPwr g).getF f = s.getF f := rfl
@[simp] theorem State.getF_onBoot (s : State) (g : BootSt → BootSt) (f : Fld) : (s.onBoot g).getF f = s.getF f := rfl

/-! ### The register file (R14, R19) -/

/-- A field reads back what was written, cut to its width. -/
@[simp] theorem State.getF_setF_self (s : State) (f : Fld) (v : Nat) : (s.setF f v).getF f = v % 2 ^ f.w := by
  rw [State.getF, State.setF_vals, SMap.get_set_self]

/-- A write leaves every field at another place alone. -/
theorem State.getF_setF_ne (s : State) {f g : Fld} (v : Nat) (h : g.key ≠ f.key) : (s.setF f v).getF g = s.getF g := by
  rw [State.getF, State.setF_vals, SMap.get_set_ne _ _ _ _ h, State.getF]

/-- An event counter reads its old count and the events, saturated (R19). -/
theorem State.getF_incF_self (s : State) (f : Fld) (n : Nat) : (s.incF f n).getF f = satAdd f.w (s.getF f) n := by
  have h : satAdd f.w (s.getF f) n < 2 ^ f.w := by
    have : 0 < 2 ^ f.w := Nat.two_pow_pos f.w
    unfold satAdd
    omega
  rw [State.getF, State.incF_vals, SMap.get_set_self, Nat.mod_eq_of_lt h]

theorem State.getF_incF_ne (s : State) {f g : Fld} (n : Nat) (h : g.key ≠ f.key) : (s.incF f n).getF g = s.getF g := by
  rw [State.getF, State.incF_vals, SMap.get_set_ne _ _ _ _ h, State.getF]

/-- A host's clear of a W1C field leaves every field at another place alone. -/
theorem State.getF_clearF_ne (s : State) {f g : Fld} (v : Nat) (h : g.key ≠ f.key) : (s.clearF f v).getF g = s.getF g :=
  SMap.get_set_ne _ _ _ _ h

/-- A host's clear of a W1C field: the bits written 1 go, but for what hardware set or counted in the same cycle (R15, R19). -/
theorem State.getF_clearF_self (s : State) (f : Fld) (v : Nat) :
    (s.clearF f v).getF f = (s.getF f - (s.getF f &&& v) ||| (s.regs.eventsIn s.now f &&& v)) % 2 ^ f.w :=
  SMap.get_set_self _ _ _ _

/-- A host's write of a field that hardware changes too leaves every field at another place alone. -/
theorem State.getF_shareF_ne (s : State) {f g : Fld} (v : Nat) (h : g.key ≠ f.key) : (s.shareF f v).getF g = s.getF g :=
  SMap.get_set_ne _ _ _ _ h

/-- In the cycle of such a write hardware still finds the value before it (R15). -/
theorem State.seenF_shareF (s : State) (f : Fld) (v : Nat) (h : s.wroteNow f = false) : (s.shareF f v).seenF f = s.getF f := by
  have hw : (SMap.get (0, 0) s.regs.writes f.key).1 ≠ s.now + 1 := by simpa [State.wroteNow] using h
  simp only [State.seenF, State.wroteNow, State.shareF, State.putF, RegFile.put, SMap.get_set_self, if_neg hw, beq_self_eq_true,
    if_true]

/-- A write of several fields leaves every field at another place alone. -/
theorem State.getF_setFs_ne (s : State) (l : List (Fld × Nat)) (g : Fld) (h : ∀ x ∈ l, g.key ≠ x.1.key) :
    (s.setFs l).getF g = s.getF g := by
  induction l generalizing s with
  | nil => rfl
  | cons x l ih =>
    rw [State.setFs, ih _ fun y hy => h y (List.mem_cons_of_mem _ hy), State.getF_setF_ne _ _ (h x (by simp))]

theorem State.getF_incFs_ne (s : State) (l : List (Fld × Nat)) (g : Fld) (h : ∀ x ∈ l, g.key ≠ x.1.key) :
    (s.incFs l).getF g = s.getF g := by
  induction l generalizing s with
  | nil => rfl
  | cons x l ih =>
    rw [State.incFs, ih _ fun y hy => h y (List.mem_cons_of_mem _ hy), State.getF_incF_ne _ _ (h x (by simp))]

/-- A write of several fields changes the register file alone. -/
theorem State.setFs_eq (s : State) (l : List (Fld × Nat)) : s.setFs l = { s with regs := (s.setFs l).regs } := by
  induction l generalizing s with
  | nil => rfl
  | cons x l ih => rw [State.setFs, ih]; rfl

/-- Counting in several fields changes the register file alone. -/
theorem State.incFs_eq (s : State) (l : List (Fld × Nat)) : s.incFs l = { s with regs := (s.incFs l).regs } := by
  induction l generalizing s with
  | nil => rfl
  | cons x l ih => rw [State.incFs, ih]; rfl

end Sys2Proof.Machine
end

