-- ==== Sys2Proof/Laws/Status.lean ====
section
/-! SUPPORT. Noting the status word of a cycle (R557) changes no other field; what every command answers with. -/
namespace Sys2Proof.Machine

@[simp] theorem State.noteStat_pending (s t : State) : (State.noteStat s t).pending = t.pending := State.noteStat_same s t .pending
@[simp] theorem State.noteStat_free (s t : State) : (State.noteStat s t).free = t.free := State.noteStat_same s t .free
@[simp] theorem State.noteStat_now (s t : State) : (State.noteStat s t).now = t.now := State.noteStat_same s t .now
@[simp] theorem State.noteStat_cal (s t : State) : (State.noteStat s t).cal = t.cal := State.noteStat_same s t .cal
@[simp] theorem State.noteStat_regs (s t : State) : (State.noteStat s t).regs = t.regs := State.noteStat_same s t .regs
@[simp] theorem State.noteStat_latch (s t : State) : (State.noteStat s t).latch = t.latch := State.noteStat_same s t .latch
@[simp] theorem State.noteStat_dram (s t : State) : (State.noteStat s t).dram = t.dram := State.noteStat_same s t .dram
@[simp] theorem State.noteStat_dramBad (s t : State) : (State.noteStat s t).dramBad = t.dramBad := State.noteStat_same s t .dramBad
@[simp] theorem State.noteStat_drm (s t : State) : (State.noteStat s t).drm = t.drm := State.noteStat_same s t .drm
@[simp] theorem State.noteStat_cores (s t : State) : (State.noteStat s t).cores = t.cores := State.noteStat_same s t .cores
@[simp] theorem State.noteStat_bands (s t : State) : (State.noteStat s t).bands = t.bands := State.noteStat_same s t .bands
@[simp] theorem State.noteStat_prog (s t : State) : (State.noteStat s t).prog = t.prog := State.noteStat_same s t .prog
@[simp] theorem State.noteStat_almanac (s t : State) : (State.noteStat s t).almanac = t.almanac := State.noteStat_same s t .almanac
@[simp] theorem State.noteStat_sched (s t : State) : (State.noteStat s t).sched = t.sched := State.noteStat_same s t .sched
@[simp] theorem State.noteStat_noBase1 (s t : State) : (State.noteStat s t).noBase1 = t.noBase1 := State.noteStat_same s t .noBase1
@[simp] theorem State.noteStat_change (s t : State) : (State.noteStat s t).change = t.change := State.noteStat_same s t .change
@[simp] theorem State.noteStat_firstLines (s t : State) : (State.noteStat s t).firstLines = t.firstLines := State.noteStat_same s t .firstLines
@[simp] theorem State.noteStat_bucket (s t : State) : (State.noteStat s t).bucket = t.bucket := State.noteStat_same s t .bucket
@[simp] theorem State.noteStat_pstate (s t : State) : (State.noteStat s t).pstate = t.pstate := State.noteStat_same s t .pstate
@[simp] theorem State.noteStat_msetSample (s t : State) : (State.noteStat s t).msetSample = t.msetSample := State.noteStat_same s t .msetSample
@[simp] theorem State.noteStat_mwinEnd (s t : State) : (State.noteStat s t).mwinEnd = t.mwinEnd := State.noteStat_same s t .mwinEnd
@[simp] theorem State.noteStat_fc (s t : State) : (State.noteStat s t).fc = t.fc := State.noteStat_same s t .fc
@[simp] theorem State.noteStat_fab (s t : State) : (State.noteStat s t).fab = t.fab := State.noteStat_same s t .fab
@[simp] theorem State.noteStat_remotes (s t : State) : (State.noteStat s t).remotes = t.remotes := State.noteStat_same s t .remotes
@[simp] theorem State.noteStat_signals (s t : State) : (State.noteStat s t).signals = t.signals := State.noteStat_same s t .signals
@[simp] theorem State.noteStat_inp (s t : State) : (State.noteStat s t).inp = t.inp := State.noteStat_same s t .inp
@[simp] theorem State.noteStat_hist (s t : State) : (State.noteStat s t).hist = t.hist := State.noteStat_same s t .hist
@[simp] theorem State.noteStat_arrived (s t : State) : (State.noteStat s t).arrived = t.arrived := State.noteStat_same s t .arrived
@[simp] theorem State.noteStat_avail (s t : State) : (State.noteStat s t).avail = t.avail := State.noteStat_same s t .avail
@[simp] theorem State.noteStat_tau (s t : State) : (State.noteStat s t).tau = t.tau := State.noteStat_same s t .tau
@[simp] theorem State.noteStat_rtFirst (s t : State) : (State.noteStat s t).rtFirst = t.rtFirst := State.noteStat_same s t .rtFirst
@[simp] theorem State.noteStat_rtJ0 (s t : State) : (State.noteStat s t).rtJ0 = t.rtJ0 := State.noteStat_same s t .rtJ0
@[simp] theorem State.noteStat_ctx (s t : State) : (State.noteStat s t).ctx = t.ctx := State.noteStat_same s t .ctx
@[simp] theorem State.noteStat_ctxNext (s t : State) : (State.noteStat s t).ctxNext = t.ctxNext := State.noteStat_same s t .ctxNext
@[simp] theorem State.noteStat_warp (s t : State) : (State.noteStat s t).warp = t.warp := State.noteStat_same s t .warp
@[simp] theorem State.noteStat_box (s t : State) : (State.noteStat s t).box = t.box := State.noteStat_same s t .box
@[simp] theorem State.noteStat_drz (s t : State) : (State.noteStat s t).drz = t.drz := State.noteStat_same s t .drz
@[simp] theorem State.noteStat_frost (s t : State) : (State.noteStat s t).frost = t.frost := State.noteStat_same s t .frost
@[simp] theorem State.noteStat_sns (s t : State) : (State.noteStat s t).sns = t.sns := State.noteStat_same s t .sns
@[simp] theorem State.noteStat_cmp (s t : State) : (State.noteStat s t).cmp = t.cmp := State.noteStat_same s t .cmp
@[simp] theorem State.noteStat_pnl (s t : State) : (State.noteStat s t).pnl = t.pnl := State.noteStat_same s t .pnl
@[simp] theorem State.noteStat_fbSegs (s t : State) : (State.noteStat s t).fbSegs = t.fbSegs := State.noteStat_same s t .fbSegs
@[simp] theorem State.noteStat_fbStarted (s t : State) : (State.noteStat s t).fbStarted = t.fbStarted := State.noteStat_same s t .fbStarted
@[simp] theorem State.noteStat_sel (s t : State) : (State.noteStat s t).sel = t.sel := State.noteStat_same s t .sel
@[simp] theorem State.noteStat_fbNow (s t : State) : (State.noteStat s t).fbNow = t.fbNow := State.noteStat_same s t .fbNow
@[simp] theorem State.noteStat_fbNext (s t : State) : (State.noteStat s t).fbNext = t.fbNext := State.noteStat_same s t .fbNext
@[simp] theorem State.noteStat_pwr (s t : State) : (State.noteStat s t).pwr = t.pwr := State.noteStat_same s t .pwr
@[simp] theorem State.noteStat_seq (s t : State) : (State.noteStat s t).seq = t.seq := State.noteStat_same s t .seq
@[simp] theorem State.noteStat_boot (s t : State) : (State.noteStat s t).boot = t.boot := State.noteStat_same s t .boot
@[simp] theorem State.noteStat_aud (s t : State) : (State.noteStat s t).aud = t.aud := State.noteStat_same s t .aud
@[simp] theorem State.noteStat_led (s t : State) : (State.noteStat s t).led = t.led := State.noteStat_same s t .led
@[simp] theorem State.noteStat_tpl (s t : State) : (State.noteStat s t).tpl = t.tpl := State.noteStat_same s t .tpl
@[simp] theorem State.noteStat_tds (s t : State) : (State.noteStat s t).tds = t.tds := State.noteStat_same s t .tds
@[simp] theorem State.noteStat_getF (s t : State) (f : Fld) : (State.noteStat s t).getF f = t.getF f := by
  simp [State.getF]
@[simp] theorem State.noteStat_core (s t : State) (p : Nat) : (State.noteStat s t).core p = t.core p := by
  simp [State.core]
@[simp] theorem State.noteStat_band (s t : State) (b : Nat) : (State.noteStat s t).band b = t.band b := by
  simp [State.band]

/-- The status word kept is that of the cycle in which the command has ended. -/
theorem State.noteStat_stat (s t : State) : (State.noteStat s t).stat.1 = t.now + 1 := by
  unfold State.noteStat
  split
  · assumption
  · rfl

/-- A command always answers a next state: its effect, the queue as it was, and the status word kept. -/
theorem done_next (s t : State) : done s t = .next { State.noteStat s t with pending := s.pending } := rfl

end Sys2Proof.Machine
end

