-- ==== Sys2Proof/Laws/Registers.lean ====
section
/-! SUPPORT. How register frames compose, and what passing time does to the registers: stall counters count, and outputs land. -/
namespace Sys2Proof.Machine

theorem SameFields.refl (s : State) (ok : Fld → Prop) : SameFields s s ok := fun _ _ => rfl

theorem SameFields.trans {u t s : State} {ok : Fld → Prop} (h1 : SameFields u t ok) (h2 : SameFields t s ok) :
    SameFields u s ok := fun f hf => (h1 f hf).trans (h2 f hf)

theorem SameFields.mono {t s : State} {ok ok' : Fld → Prop} (h : SameFields t s ok) (hk : ∀ f, ok f → ok' f) :
    SameFields t s ok' := fun f hf => h f fun hm => hf (hk f hm)

/-- States with one register file agree on every field. -/
theorem SameFields.of_regs {t s : State} {ok : Fld → Prop} (h : t.regs = s.regs) : SameFields t s ok := by
  intro f _
  simp only [State.getF, h]

theorem SameFields.ite {c : Prop} [Decidable c] {a b s : State} {ok : Fld → Prop} (ha : SameFields a s ok)
    (hb : SameFields b s ok) : SameFields (if c then a else b) s ok := by
  split <;> assumption

theorem SameFields.foldl {α : Type} {g : State → α → State} {l : List α} {x s : State} {ok : Fld → Prop}
    (hx : SameFields x s ok) (hf : ∀ y a, SameFields (g y a) y ok) : SameFields (l.foldl g x) s ok := by
  induction l generalizing x with
  | nil => exact hx
  | cons a l ih => exact ih ((hf x a).trans hx)

theorem SameFields.each {n : Nat} {g : State → Nat → State} {x s : State} {ok : Fld → Prop}
    (hx : SameFields x s ok) (hf : ∀ y a, SameFields (g y a) y ok) : SameFields (x.each n g) s ok := SameFields.foldl hx hf

theorem SameFields.setF {s : State} {f : Fld} {v : Nat} {ok : Fld → Prop} (h : ∀ g : Fld, g.key = f.key → ok g) :
    SameFields (s.setF f v) s ok := fun g hg => State.getF_setF_ne s v fun e => hg (h g e)

theorem SameFields.incF {s : State} {f : Fld} {n : Nat} {ok : Fld → Prop} (h : ∀ g : Fld, g.key = f.key → ok g) :
    SameFields (s.incF f n) s ok := fun g hg => State.getF_incF_ne s n fun e => hg (h g e)

theorem SameFields.setFs {s : State} {l : List (Fld × Nat)} {ok : Fld → Prop} (h : ∀ x ∈ l, ∀ g : Fld, g.key = x.1.key → ok g) :
    SameFields (s.setFs l) s ok := by
  induction l generalizing s with
  | nil => exact SameFields.refl _ _
  | cons x l ih =>
    exact (ih fun y hy => h y (List.mem_cons_of_mem _ hy)).trans (SameFields.setF (h x List.mem_cons_self))

theorem SameFields.onCore (s : State) (p : Nat) (f : CoreSt → CoreSt) (ok : Fld → Prop) : SameFields (s.onCore p f) s ok :=
  SameFields.of_regs rfl

theorem SameFields.onBand (s : State) (b : Nat) (f : BandSt → BandSt) (ok : Fld → Prop) : SameFields (s.onBand b f) s ok :=
  SameFields.of_regs rfl

/-- What time may change of one core's registers. -/
theorem WithTime.of {p : Nat} {f g : Fld} (hf : f ∈ stallFields p ++ mergeFields p) (hg : g.key = f.key) : WithTime g :=
  ⟨p, List.mem_map.2 ⟨f, hf, hg.symm⟩⟩

/-- A wait's counter is a stall counter of its core. -/
theorem State.waitCause_stalls {s : State} {p : Nat} {w : Wait} {f : Fld} {c : Nat} (h : s.waitCause p w = some (f, c)) :
    f ∈ stallFields p := by
  unfold State.waitCause at h
  dsimp only at h
  repeat' split at h
  all_goals cases h <;> simp [stallFields]

theorem State.stallThread_fields (s : State) (p t t0 t1 : Nat) : SameFields (s.stallThread p t t0 t1) s WithTime := by
  unfold State.stallThread
  extract_lets +onlyGivenNames th hi n
  split
  · exact SameFields.refl _ _
  · rename_i f cause hc
    have hf : f ∈ stallFields p ++ mergeFields p := List.mem_append_left _ (State.waitCause_stalls hc)
    split
    · exact SameFields.refl _ _
    · extract_lets +onlyGivenNames s1 s2
      have h1 : SameFields s1 s WithTime := SameFields.incF fun g e => WithTime.of hf e
      have h2 : SameFields s2 s WithTime := by
        unfold s2
        split
        · exact (SameFields.onBand _ _ _ _).trans h1
        · exact h1
      exact SameFields.ite ((SameFields.onCore _ _ _ _).trans h2) h2

theorem State.stallCore_fields (s : State) (t0 t1 p : Nat) : SameFields (s.stallCore t0 t1 p) s WithTime :=
  SameFields.ite (SameFields.refl _ _) (SameFields.each (SameFields.refl _ _) fun z t => State.stallThread_fields z p t _ _)

theorem State.spadLast_fields (s : State) (p w unc : Nat) : SameFields (s.spadLast p w unc) s WithTime := by
  refine SameFields.setFs fun x hx g e => ?_
  refine WithTime.of (p := p) (List.mem_append_right _ ?_) e
  simp only [List.mem_cons, List.not_mem_nil, or_false] at hx
  obtain rfl | rfl | rfl := hx <;> simp [mergeFields]

theorem State.spadMerge_fields (s : State) (p : Nat) (ws ce ue : List Nat) : SameFields (s.spadMerge p ws ce ue) s WithTime := by
  refine SameFields.foldl (SameFields.refl _ _) fun y w => ?_
  split
  · exact (SameFields.onCore _ _ _ _).trans ((State.spadLast_fields _ _ _ _).trans
      (SameFields.incF fun g e => WithTime.of (p := p) (by simp [mergeFields]) e))
  · split
    · exact (State.spadLast_fields _ _ _ _).trans (SameFields.incF fun g e => WithTime.of (p := p) (by simp [mergeFields]) e)
    · exact SameFields.refl _ _

theorem State.lsMerge_fields (s : State) (p : Nat) (ws ce ue : List Nat) :
    SameFields (s.lsMerge (bandOf p) ws ce ue) s WithTime := by
  refine SameFields.foldl (SameFields.refl _ _) fun y w => ?_
  split
  · exact (SameFields.onBand _ _ _ _).trans (SameFields.incF fun g e => WithTime.of (p := p) (by simp [mergeFields]) e)
  · split
    · exact SameFields.incF fun g e => WithTime.of (p := p) (by simp [mergeFields]) e
    · exact SameFields.refl _ _

theorem State.flushStage_fields (s : State) (p u : Nat) : SameFields (s.flushStage p u) s WithTime := by
  unfold State.flushStage
  split
  · exact SameFields.refl _ _
  · exact (SameFields.onCore _ _ _ _).trans (State.spadMerge_fields _ _ _ _ _)

theorem State.stageByte_fields (s : State) (p u a : Nat) (b : Byte) (ce ue : List Nat) :
    SameFields (s.stageByte p u a b ce ue) s WithTime := by
  unfold State.stageByte
  extract_lets +onlyGivenNames row other s1 old new s2
  have h1 : SameFields s1 s WithTime := SameFields.ite (State.flushStage_fields _ _ _) (SameFields.refl _ _)
  have h2 : SameFields s2 s WithTime := (SameFields.onCore _ _ _ _).trans h1
  exact SameFields.ite ((State.flushStage_fields _ _ _).trans h2) h2

theorem State.stageBytes_fields (s : State) (p u a : Nat) (bs : List Byte) (ce ue : List Nat) :
    SameFields (s.stageBytes p u a bs ce ue) s WithTime :=
  SameFields.foldl (SameFields.refl _ _) fun y _ => State.stageByte_fields y p u _ _ ce ue

theorem State.writeNear_fields (s : State) (place p u a : Nat) (bs : List Byte) (ce ue : List Nat) :
    SameFields (s.writeNear place p u a bs ce ue) s WithTime :=
  SameFields.ite ((SameFields.onBand _ _ _ _).trans (State.lsMerge_fields _ _ _ _ _)) (State.stageBytes_fields _ _ _ _ _ _ _)

theorem State.storeNear_fields (s : State) (p : Nat) (o : PipeOut) : SameFields (s.storeNear p o) s WithTime := by
  unfold State.storeNear
  dsimp only
  have hw := State.writeNear_fields
  repeat' split
  · exact SameFields.refl _ _
  · exact State.flushStage_fields _ _ _
  · exact hw _ _ _ _ _ _ _ _
  · exact (SameFields.onCore _ _ _ _).trans ((hw _ _ _ _ _ _ _ _).trans ((SameFields.onCore _ _ _ _).trans
      ((hw _ _ _ _ _ _ _ _).trans (hw _ _ _ _ _ _ _ _))))
  · exact (SameFields.onCore _ _ _ _).trans ((hw _ _ _ _ _ _ _ _).trans (hw _ _ _ _ _ _ _ _))
  · exact (hw _ _ _ _ _ _ _ _).trans ((hw _ _ _ _ _ _ _ _).trans (hw _ _ _ _ _ _ _ _))

theorem State.landOut_fields (s : State) (p : Nat) (o : PipeOut) : SameFields (s.landOut p o) s WithTime := by
  unfold State.landOut
  dsimp only
  split
  · exact State.storeNear_fields _ _ _
  · refine SameFields.ite (SameFields.onCore _ _ _ _) ?_
    exact (SameFields.onBand _ _ _ _).trans (State.storeNear_fields _ _ _)

theorem State.landCore_fields (s : State) (p : Nat) : SameFields (s.landCore p) s WithTime :=
  SameFields.ite (SameFields.refl _ _) (SameFields.foldl (SameFields.onCore _ _ _ _) fun y o => State.landOut_fields y p o)

theorem State.advance_fields (s : State) (dt : Nat) : SameFields (s.advance dt) s WithTime := by
  refine SameFields.foldl ?_ fun y p => State.landCore_fields y p
  exact (SameFields.of_regs rfl).trans (SameFields.foldl (SameFields.refl _ _) fun y p => State.stallCore_fields y _ _ p)

/-- Waiting changes no register but what time may change. -/
theorem State.waitUntil_fields (s : State) (t : Nat) : SameFields (s.waitUntil t) s WithTime := by
  unfold State.waitUntil
  exact SameFields.ite (State.advance_fields s _) (SameFields.refl _ _)

theorem State.fire_fields (s : State) (i : Nat) : SameFields (s.fire i) s WithTime :=
  (SameFields.of_regs rfl).trans (State.waitUntil_fields s _)

theorem done_fields {s t u : State} {ok : Fld → Prop} (h : SameFields t s ok) (hu : done s t = .next u) : SameFields u s ok := by
  cases hu
  exact (SameFields.of_regs (State.noteStat_regs s t)).trans h

theorem act_fields {b : Bool} {s t u : State} {ok : Fld → Prop} (h : SameFields t s ok) (hu : act b s t = .next u) :
    SameFields u s ok := by
  refine done_fields ?_ hu
  split
  · exact h
  · exact SameFields.refl _ _

end Sys2Proof.Machine
end

