-- ==== Sys2Proof/Laws/Time.lean ====
section
/-! SUPPORT. What waiting does to the calendar, and what one part of a state is under a frame. -/
namespace Sys2Proof.Machine

/-- A frame read at one part that it does not list. -/
theorem SameBut.keeps {t s : State} {ps : List Part} (h : SameBut t s ps) (p : Part) (hp : p ∉ ps := by decide) :
    p.same t s := h p hp

theorem State.stalls_cal (s : State) (a b : Nat) (l : List Nat) : (l.foldl (fun x p => x.stallCore a b p) s).cal = s.cal :=
  (SameBut.foldl (SameBut.refl s [.regs, .cores, .bands]) fun _ _ => State.stallCore_frame.mono (by decide)).keeps .cal

theorem State.landing_cal (s : State) (l : List Nat) : (l.foldl State.landCore s).cal = s.cal :=
  (SameBut.foldl (SameBut.refl s [.regs, .cores, .bands]) fun _ _ => State.landCore_frame.mono (by decide)).keeps .cal

theorem State.landing_now (s : State) (l : List Nat) : (l.foldl State.landCore s).now = s.now :=
  (SameBut.foldl (SameBut.refl s [.regs, .cores, .bands]) fun _ _ => State.landCore_frame.mono (by decide)).keeps .now

/-- Time passes: the calendar's accumulator grows with it while the calendar runs, and the calendar stays otherwise. -/
theorem State.advance_cal (s : State) (dt : Nat) :
    (s.advance dt).cal = if s.cal.running then { s.cal with acc := s.cal.acc + 65536 * dt } else s.cal := by
  unfold State.advance
  dsimp only
  rw [State.landing_cal, State.stalls_cal]

@[simp] theorem State.advance_now (s : State) (dt : Nat) : (s.advance dt).now = s.now + dt :=
  State.landing_now _ _

/-- After a wait the time is the later of now and the time waited for. -/
@[simp] theorem State.waitUntil_now (s : State) (t : Nat) : (s.waitUntil t).now = max s.now t := by
  unfold State.waitUntil
  split
  · rw [State.advance_now]
    omega
  · omega

theorem State.waitUntil_cal (s : State) (t : Nat) :
    (s.waitUntil t).cal = if s.cal.running then { s.cal with acc := s.cal.acc + 65536 * (t - s.now) } else s.cal := by
  unfold State.waitUntil
  split
  · exact State.advance_cal _ _
  · rw [show t - s.now = 0 by omega]
    simp

@[simp] theorem State.waitUntil_line (s : State) (t : Nat) : (s.waitUntil t).cal.line = s.cal.line := by
  rw [State.waitUntil_cal]; split <;> rfl
@[simp] theorem State.waitUntil_frameNo (s : State) (t : Nat) : (s.waitUntil t).cal.frame = s.cal.frame := by
  rw [State.waitUntil_cal]; split <;> rfl
@[simp] theorem State.waitUntil_fired (s : State) (t : Nat) : (s.waitUntil t).cal.fired = s.cal.fired := by
  rw [State.waitUntil_cal]; split <;> rfl
@[simp] theorem State.waitUntil_running (s : State) (t : Nat) : (s.waitUntil t).cal.running = s.cal.running := by
  rw [State.waitUntil_cal]; split <;> rfl

/-- Firing an entry fires it (R49). -/
theorem State.fire_fired (s : State) (i : Nat) : Fired s (s.fire i) i :=
  ⟨by simp [State.fire], by simp [State.fire], by simp [State.fire]⟩

/-- What keeps the calendar and the time keeps an entry fired. -/
theorem Fired.of {s t u : State} {i : Nat} (h : Fired s t i) (hc : u.cal = t.cal) (hn : u.now = t.now) : Fired s u i := by
  unfold Fired at *
  rwa [hc, hn]

end Sys2Proof.Machine
end

