-- ==== Sys2Proof/Laws/Words.lean ====
section
/-! SUPPORT. Small laws of byte strings, bit fields and counters. -/
namespace Sys2Proof

@[simp] theorem b2n_true : b2n true = 1 := rfl
@[simp] theorem b2n_false : b2n false = 0 := rfl

/-- `n` little-endian bytes are `n` bytes (R7). -/
@[simp] theorem toLe_length (n v : Nat) : (toLe n v).length = n := by
  induction n generalizing v with
  | zero => rfl
  | succ n ih => simp [toLe, ih]

/-- Little-endian bytes read back the value they hold (R7). -/
theorem leNat_toLe (n v : Nat) : leNat (toLe n v) = v % 256 ^ n := by
  induction n generalizing v with
  | zero => simp [toLe, leNat, Nat.mod_one]
  | succ n ih =>
    simp only [toLe, leNat, ih, BitVec.toNat_ofNat]
    rw [show (256 : Nat) ^ (n + 1) = 256 * 256 ^ n by rw [Nat.pow_succ, Nat.mul_comm], Nat.mod_mul]

/-- A bit field is below its width (R6). -/
theorem bits_lt (v lo w : Nat) : bits v lo w < 2 ^ w := Nat.mod_lt _ (Nat.two_pow_pos w)

/-- A saturating counter stays within its field (R19). -/
theorem satAdd_lt (w a b : Nat) : satAdd w a b < 2 ^ w := by
  have : 0 < 2 ^ w := Nat.two_pow_pos w
  unfold satAdd
  omega

/-- A saturating counter never falls (R19). -/
theorem satAdd_ge (w a b : Nat) (h : a < 2 ^ w) : a ≤ satAdd w a b := by
  unfold satAdd
  omega

end Sys2Proof
end

