-- ==== Sys2Proof/Tests/Slice0.lean ====
section
/-! SUPPORT. The model's own tests: operands that are refused, the spec's worked examples, and for every clause of a
statement that has hypotheses a state and operands that meet them. -/
set_option Elab.async false
namespace Sys2Proof.Tests
open Sys2Proof Sys2Proof.Machine

/-- Registers that hold the values given and otherwise their reset values. -/
def regsAt (l : List (Fld × Nat)) : RegFile := (State.reset.setFs l).regs

/-- Line 0 of a frame with one almanac entry of the kind and argument given. -/
def atEntry (kind arg : Nat) (sch : Schedule) : State :=
  { cal := { running := true, vTot := some 100 }, almanac := [⟨0, 9, 0, kind, 0, 255, 255, 0, arg⟩], sched := sch }

/-- A schedule of one clause with one layer on the engine given: a filter of three taps over one row of three columns. -/
def oneLayer (engine : Nat) : Schedule :=
  { clauses := [⟨0, false, false, 0, 1, 1, 0, 0, 0, 0, 0, 0, 0, 0, [], 0⟩],
    cores := [{ layers := [[0, BitVec.ofNat 8 engine] ++ List.replicate 8 0 ++ [1] ++ List.replicate 5 0 ++ [1, 0, 1, 0]],
                maps := [0, 0x31, 0x11, 0x11, 0, 0, 0, 0, 1, 3],
                prns := [[1, 0, 1, 0, 1, 0, 3, 0, 1, 0, 3, 0]] }] }

/-- A schedule whose clause 0 ends in the Suffix engine. -/
def shownClause : Schedule := oneLayer 2

/-- A core whose threads all have clause 0, with line 0 in flight. -/
def ready : CoreSt :=
  { threads := List.replicate 4 { clause := some 0 }, lines := [{ clause := 0, frame := 0, y := 0, sAt := 0, sPhase := 0, sFrame := 0 }] }

/-- With LINE_THREADED 0 no thread but 0 carries the line clause. -/
theorem ready_line_thread : ∀ u, u ≠ 0 → ¬ ({ cores := [(0, ready)] } : State).isLineThread 0 u = true
  | 0, h => absurd rfl h
  | 1, _ => by decide +kernel
  | _ + 2, _ => by simp [State.isLineThread]

/-- The capture of frame 0, begun. -/
def aCap : CapRun := { frame := 0, buf := 0, arg := 0, use := {}, begun := true }

/-- A capture entry is due with the queue given and the capture of frame 0 begun. -/
def capturing (q : List (Nat × Nat × List Pix)) : State :=
  { atEntry 6 0 {} with
    regs := regsAt [(F.CMP_CAP_CTRL_EN, 1)],
    cmp := { cap := { en := true }, applied := some 0, lines := [⟨0, 0, 0, [⟨1, 2, 3⟩], false⟩],
             runs := [aCap], queue := q } }

/-- A list of one descriptor. -/
def aRun : ListRun := { list := 0, base := 0, tagFrame := 0, tag := 0, thread := 0, prn := 0, first := 0, count := 1 }

/-- A step of Drizzle whose samples are selected. -/
def aStep : DrzStep := { q := ⟨0, 0, false, false, 0, 0⟩, num := 0, e := 5, d := 5, startAt := 0, selected := true }

/-- A frame record that reads no input frame. -/
def aRecord : FrameRec :=
  { frame := 3, aligned := true, live := false, rt := true, msw := false, scw := false, mset := 0, sched := 0, i := 0, f := 0,
    shown := false, synth := false, adaptVer := 0, adapt := [], msetDigest := [], seed := 0, drzSeed := 0, vt := some 100 }

/-- A request without AUTH (R463). -/
def aRequest (op : Nat) (body : List Byte) : Req :=
  ⟨[2, 0, 0, 0, 0, 9], linkLocal [2, 0, 0, 0, 0, 9], 5000,
    toLe 2 0x5054 ++ toLe 1 1 ++ toLe 1 op ++ toLe 4 7 ++ toLe 2 body.length ++ toLe 6 0 ++ body⟩

/-- A request of session 0 with SEQ 1 and its MAC, that of an empty key where the witness's state answers it (R478). -/
def signedRequest (op : Nat) (body : List Byte) (mac : Nat) : Req :=
  ⟨[2, 0, 0, 0, 0, 9], linkLocal [2, 0, 0, 0, 0, 9], 5000,
    toLe 2 0x5054 ++ toLe 1 1 ++ toLe 1 op ++ toLe 4 7 ++ toLe 2 body.length ++ [0, 2] ++ toLe 4 0 ++ body ++ toLe 4 1 ++ toBe 16 mac⟩

/-- A request waits, in session 0 with empty keys, after boot. -/
def asked (r : Req) (more : List (Fld × Nat)) : State :=
  { tpl := { rx := [r], sess := some { kh := [], kd := [], last := 0 } }, regs := regsAt ((F.DEV_BOOT_COMPLETE, 1) :: more) }

/-- An OPEN under host key 0 (private scalar 3) and a challenge with an empty nonce (R476, R477). -/
def openRequest : Req :=
  let he := ecBytes (ecPublic 7)
  aRequest 0x11 ([0] ++ he ++ ecSign 3 1 (sha384 (ascii "TERPEL-OPEN" ++ State.reset.serial ++ ecBytes (ecPublic 5) ++ he ++ [0])))

/-- That OPEN waits. -/
def opening : State :=
  { tpl := { rx := [openRequest], chal := some ⟨[], 5, 9⟩ }, boot := { hostKeys := [(0, ecBytes (ecPublic 3))] },
    regs := regsAt [(F.DEV_BOOT_COMPLETE, 1)] }

/-! ### Operands that name nothing are refused -/

theorem test_wf_units : [Instr.pendingListStart (.core 72 0), .pendingListStart (.core 0 8), .pendingListStart (.band 8 0),
    .pendingListStart (.band 0 2), .handoverStart 8, .refresh 64, .fallbackSegmentComplete 0 0 ⟨64, {}, false⟩, .hpdPulseEnd 2,
    .scratchpadMapOut ⟨72, {}, false⟩, .lineStoreMapOut ⟨8, {}, false⟩, .portGrant 10 [], .restoreRequest 72].all (fun c => !c.wf) = true := by decide +kernel

theorem test_wf_core_operands : [Instr.clauseDrained 0 4 {}, .clauseDrained 0 0 ⟨[64], []⟩, .clauseDrained 0 0 ⟨[], [64]⟩,
    .tileLoad 0 4 0 0 {}, .tileLoad 0 0 128 0 {}, .tileLoad 0 0 0 64 {}, .prefixLayer 0 0 256 0 0 {}, .threadStreamStart 0 0 0 64,
    .awaitTile 0 0 0 8, .barrierArrive 0 0 0 8, .histogramClear 0 4, .backgroundAccess 0 0x7FFC1 64 true false {},
    .semaphoreSignalArrival (.issue 0 0 0 64 0), .semaphoreSignalArrival (.issue 0 4 0 0 0),
    .issueStep 0 0 ⟨256, 0, 0, 0, 0, 0, 0, 0, true, []⟩ {}, .issueStep 0 0 ⟨0, 0, 0, 0, 0, 0, 0, 0, true, [(0, 0x80000)]⟩ {},
    .issueStep 0 0 ⟨0, 0, 0, 0, 0, 0, 0, 0, true, []⟩ { parity := [64] }, .gradientOperation 0 0 { rivals := [12] },
    .suffixLayer 0 0 0 0 0 { layer := 256 }, .suffixLayer 0 0 0 0 0 { beside := [(0x80000, 0, 0)] },
    .descriptorBurstRead (.band 0 0) { bandOwed := [[.produced 64 0 0]] }].all (fun c => !c.wf) = true := by decide +kernel

theorem test_wf_owed : [Instr.lineDeadline 0 [(72, [])], .lineDeadline 0 [(0, [.produced 64 0 0])],
    .lineDeadline 0 [(0, [.consumed 0 0 64])], .startLineClause 0 [(0, [.release 8 0 0])],
    .startLineClause 0 [(0, [.release 0 128 0])]].all (fun c => !c.wf) = true := by decide +kernel

theorem test_wf_outside : [Instr.dpLinkTraining 0 8 1 true, .dpLinkTraining 0 0 3 true, .sdpReceived 0 (.vsc 4 0 0),
    .sdpReceived 0 (.vsc 0 0 4), .auxTransaction 0 (.nativeRead 0x100000 1), .auxTransaction 0 (.nativeRead 0 17),
    .auxTransaction 0 (.i2cWrite (List.replicate 17 0)), .sensorRead 8 .nack, .internalSample [] 0 0 0,
    .internalSample (List.replicate 10 32768) 0 0 0, .internalSample (List.replicate 10 0) 65536 0 0, .supplyReset 2 0 0,
    .weatheringMeasurement [⟨72, 0, 0⟩], .weatheringMeasurement [⟨0, 32768, 0⟩],
    .openModelSetWindow 0 [64]].all (fun c => !c.wf) = true := by decide +kernel

theorem test_wf_dram : [Instr.portGrant 0 [⟨29, 0, 0, 0, 64, false⟩], .portGrant 0 [⟨0, 0, 3, 0, 64, false⟩],
    .portGrant 0 [⟨0, 0, 0, 0, 0, false⟩], .portGrant 0 [⟨0, 0, 0, 32, 33, false⟩],
    .portGrant 8 [⟨0, 0, 0, 0x200000000, 1, false⟩]].all (fun c => !c.wf) = true := by decide +kernel

theorem test_wf_boot : [Instr.bootStageComplete (.rom { spad := [(72, 0)] }), .bootStageComplete (.dram [0x400000]),
    .bootStageComplete (.logic [72] [] []), .bootStageComplete (.logic [] [] [(8, 0)])].all (fun c => !c.wf) = true := by
  decide +kernel

/-- What is not well formed leaves the state as it is (log entry 1). -/
theorem test_ill_formed_changes_nothing : exec (.hpdPulseEnd 2) State.reset = .next State.reset := rfl

/-! ### The spec's worked examples -/

/-- The codebook of chapter 4's example. -/
def exampleBook : Codebook := ⟨false, -12, [0, 512, 1024, 1536, 2048, 3072, 4096, -512, -1024, -1536, -2048, -3072, -4096, 256, -256, 0]⟩

/-- Chapter 4: a row requantised bit for bit. -/
theorem test_row_quantised : quantise exampleBook 1 2 [0x3680, 0xB100, 0x3F40, 0, 0x4DE0, 0x3B40, 0xB800, 0x35A0] =
    (⟨[2, 14, 6, 0, 15, 4, 8, 2], 0x17F, [0x4DE0, 0, 0, 0, 0, 0, 0, 0]⟩, { esc := 1 }) ∧
    packCodes false [2, 14, 6, 0, 15, 4, 8, 2] = [0xE2, 0x06, 0x4F, 0x28] := by decide +kernel

/-- Chapter 4: the products of elements 5, 1 and 4, and the constant row. -/
theorem test_products : (product ⟨15, 16⟩ ⟨296, 1024⟩ (-10)).1 = 278 ∧ (product ⟨-15, 128⟩ ⟨296, 1024⟩ (-10)).1 = -35 ∧
    (product ⟨47, 2⟩ ⟨296, 1024⟩ (-10)).1 = 6956 ∧ (quantise exampleBook 1 2 (List.replicate 8 0x3A00)).1 =
      ⟨List.replicate 8 0, 0x1FF, [0x3A00, 0, 0, 0, 0, 0, 0, 0]⟩ := by decide +kernel

/-- Chapter 6: a compressed row and its length. -/
theorem test_zero_compression :
    zcRow false ((List.range 64).map fun j => if j = 1 then 3 else if j = 4 then 5 else if j = 8 then 1 else if j = 14 then 15
      else if j = 47 then 2 else 0) = [0x12, 0x41, 0, 0, 0, 0x80, 0, 0, 0x53, 0xF1, 0x02, 0, 0, 0, 0, 0] ∧
    zcLen false (List.replicate 64 1) = 5 := by decide +kernel

/-- R157: the output-format conversion's example; chapter 15: that pixel's bytes at PFMT 1. -/
theorem test_output_pixel : (outConvert [4096, 0, 5743, 0, 4096, 0, 0, 0, 4096] [-2872, 0, 0] ⟨2000, 2048, 2300⟩).c0 = 2353 ∧
    (payload 1 [⟨2353, 2048, 1000⟩, ⟨0, 0, 0⟩]).take 4 = [0x4C, 0x02, 0xA8, 0x0F] := by decide +kernel

/-- Chapter 7: the three planes of column 17 of line 2000. -/
theorem test_pronoun_addresses :
    let r : Prn := { place := 1, form := 0, zc := false, ch := 64, lh := 4320, lw := 120, ph := 4322, pw := 128, oy := 1, ox := 4,
                     base := 0x10000, ring := 4, cons := 0, fb := false }
    (r.posAddr 0 (r.padY 2000) (r.padX 17), r.posAddr 1 (r.padY 2000) (r.padX 17), r.posAddr 2 (r.padY 2000) (r.padX 17),
      r.slotBytes) = (72864, 76372, 77136, 6656) := by decide +kernel

/-- R278: a barrier over 64 cores, 8 of them and one completes 42, 30 and 18 cycles after its last arrival. -/
theorem test_barrier_times : 18 + 4 * clog2 64 = 42 ∧ 18 + 4 * clog2 8 = 30 ∧ 18 + 4 * clog2 1 = 18 := by decide +kernel

/-- Chapter 11: the box of cell (6, 10); two boxes that IOU_T 128 keeps; the occupancy. -/
theorem test_boxes :
    let d : DetRec :=
      { DetRec.parse [] with
        a := 3, k := 4, sLog := 5, gh := 135, gw := 240, maxBoxes := 256, iouT := 128, rastLog := 5,
        thresh := List.replicate 8 0, anchor := [(0x5400, 0x5200)] }
    (decodeBox d 7680 4320 6 10 0 [0x3400, 0xB800, 0x3800, 0, 0x3C00, 0, 0, 0]).1.map (fun b => (b.x0, b.y0, b.x1, b.y1)) =
      some (299, 168, 388, 215) ∧
    overlaps 128 ⟨100, 200, 299, 399, 0, 0, 0, 0, 0⟩ ⟨150, 250, 349, 449, 0, 0, 0, 0, 0⟩ = false ∧
    boxCycles d 600 (240 * 135) = 47925 := by decide +kernel

/-- R361: the grain seed of frame 1000. -/
theorem test_frame_seed : frameSeed 0x1234 1000 = 0x14EC := by decide +kernel

/-- R430: the first two draws of the example in band 4. -/
theorem test_lottery : let tk := fun q => if q = 28 then 24 else 4
    chooseWinner tk none 0x12345679 [⟨0, 0, 0, 0, 64, false⟩, ⟨3, 0, 0, 0, 64, false⟩, ⟨28, 0, 0, 0, 64, false⟩] = (some 3, 0x893A2B3F) ∧
    chooseWinner tk (some 3) 0x893A2B3F [⟨0, 0, 0, 0, 64, false⟩, ⟨28, 0, 0, 0, 64, false⟩] = (some 0, 0xC4BD159C) ∧
    (List.range 8).filter (fun i => (portRound 48 32 20).getD i 9 == 0) = [0, 3, 5, 7] := by decide +kernel

/-- Chapter 22: CORE_IDENT of physical core 44 resets to 0x0100_482C. -/
theorem test_core_ident : State.reset.word (0x1000000 + 44 * 0x20000) = 0x0100482C := by decide +kernel

/-- Chapter 18: a read of CAL_NOW_LO and CAL_NOW_HI at line 1200, phase 0x2A0, of frame 1000. -/
theorem test_read_reg :
    let r : Req := ⟨[2, 0, 0, 0, 0, 9], linkLocal [2, 0, 0, 0, 0, 9], 5000,
      [0x54, 0x50, 1, 1, 1, 1, 0, 0, 8, 0, 0, 0, 0, 0, 0, 0, 0, 0, 1, 0, 0, 2, 0, 0]⟩
    let s : State :=
      { tpl := { rx := [r] }, boot := { done := [1], fuses := { mac := [2, 0, 0, 0, 0, 1] } },
        cal := { running := true, frame := 1000, line := 1200, acc := 672 * 65536 },
        regs := regsAt [(F.TPL_LINK_STATE, 2), (F.CAL_LP_LP, 4096 * 65536)] }
    (match exec .readReg s with
      | .next t => t.tpl.sent.map (·.drop 62)
      | _ => []) = [[0x54, 0x50, 1, 1, 1, 1, 0, 0, 8, 0, 0, 1, 0, 0, 0, 0, 0xA0, 2, 0xB0, 4, 0xE8, 3, 0, 0]] := by decide +kernel

/-! ### Standards that the spec names (their published check values) -/

/-- CRC-32 of "123456789", and SHA-384 of "abc" (FIPS 180-4). -/
theorem test_digests : crc32 (ascii "123456789") = 0xCBF43926 ∧ beNat (sha384 (ascii "abc")) =
    0xCB00753F45A35E8BB5A03D699AC65007272C32AB0EDED1631A8B605A43FF5BED8086072BA1E7CC2358BAECA134C825A7 := by decide +kernel

/-- brainpoolP384r1: the base point lies on the curve and has order n (RFC 5639). -/
theorem test_curve : onCurve ecG.1 ecG.2 = true ∧ ecMul (some ecG) 384 ecN = none := by decide +kernel

/-! ### One step -/

/-- The front command runs; the rest waits. -/
theorem test_step_takes_the_front : (match step { pending := [.phyLinkUp true, .lineStart], boot := { done := [1] } } with
    | .next t => (t.getF F.TPL_LINK_STATE, t.getF F.TPL_LINK_MASTER, t.pending.length)
    | _ => (9, 9, 9)) = (2, 1, 1) := by decide +kernel

/-- An empty queue passes one cycle. -/
theorem test_step_idles : (match step { cal := { running := true } } with
    | .next t => (t.now, t.cal.acc)
    | _ => (0, 0)) = (1, 65536) := by decide +kernel

/-! ### Each statement's hypotheses are met -/

theorem witness_ProgramsChangeOnlyAtBoot : ∃ (c : Instr) (s t : State), exec c s = .next t ∧ t.prog ≠ s.prog :=
  ⟨.deviceReset false, { prog := { rbBase := 1 } }, _, rfl, by decide +kernel⟩

theorem witness_EmptyQueuePassesOneCycle :
    (∃ (s : State), s.pending = []) :=
  ⟨State.reset, by decide +kernel⟩

theorem witness_QueueRunsInOrderAndStaysWellFormed :
    (∃ (n : Nat) (s : State), n ≤ s.pending.length) ∧
    (∃ (s : State) (t : State), QueueWellFormed s ∧ step s = .next t) :=
  ⟨⟨1, { pending := [.lineStart] }, by decide +kernel⟩,
   ⟨State.reset, State.reset.tick, by unfold QueueWellFormed; decide +kernel, rfl⟩⟩

theorem witness_MemoryStaysCanonical :
    (∃ (s : State) (t : State), MemoryCanonical s ∧ step s = .next t) :=
  ⟨State.reset, State.reset.tick, by unfold MemoryCanonical; decide +kernel, rfl⟩

theorem witness_RasterAdvancesByLinesAndFrames :
    (∃ (s : State), s.cal.running = true ∧ s.lp ≠ 0 ∧ s.atBoundary = false) ∧
    (∃ (s : State) (v : Nat), s.cal.running = true ∧ s.lp ≠ 0 ∧ s.cal.vTot = some v ∧ v ≤ s.cal.line + 1) :=
  ⟨⟨{ cal := { running := true, vTot := some 100 }, regs := regsAt [(F.CAL_LP_LP, 65536)] }, by decide +kernel⟩,
   ⟨{ cal := { running := true, vTot := some 100, line := 99 }, regs := regsAt [(F.CAL_LP_LP, 65536)] }, 100,
     by decide +kernel⟩⟩

theorem witness_SyncEdgesAreKeptOrMeasured :
    (∃ (s : State), s.aud.replay = false ∧ s.cal.winOpen = false) ∧
    (∃ (s : State), s.aud.replay = false ∧ s.cal.winOpen = true ∧ s.cal.winFrom ≤ s.now ∧
      s.now < lineCycle s.cal.t0 s.cal.acc0 s.lp s.cal.winEnd ∧ (∀ x ∈ s.cal.edges, x < s.cal.winFrom)) ∧
    (∃ (s : State) (e : ReplayEnt), s.aud.replay = true ∧ s.cal.winOpen = false ∧
      s.aud.replayLog.find? (fun e => e.type == 2) = some e) :=
  ⟨⟨State.reset, by decide +kernel⟩,
   ⟨{ cal := { winOpen := true, winFrom := 5, winEnd := 9, edges := [4] }, now := 5, regs := regsAt [(F.CAL_LP_LP, 65536)] },
     by decide +kernel⟩,
   ⟨{ aud := { replay := true, replayLog := [⟨2, false, 7, []⟩] } }, ⟨2, false, 7, []⟩, by decide +kernel⟩⟩

theorem witness_LinesAreStartedAndReleased :
    (∃ (s : State) (i : Nat) (owed : List (Nat × List Owed)), owed.all owedOk = true ∧ s.due i 1 = true) ∧
    (∃ (s : State) (p : Nat) (cl : Nat),
      ((s.core p).reentry.any fun r => r.clause == cl && r.waiting && !r.drained) = false) ∧
    (∃ (s : State) (f : Nat) (y : Nat) (l : Nat) (t0 : Nat), isLogical l = true ∧ l < s.nCores ∧
      (s.fbStarted.find? fun x => x.1 == f && x.2.1 == y) = some (f, y, t0) ∧
      (s.bprn (l / 8) s.sched.rt.warpPrn).place = 2 ∧
      ((s.fbRows f (s.bprn (l / 8) s.sched.rt.warpPrn) y).all fun k => s.lsPresent (l / 8)
      (s.bprn (l / 8) s.sched.rt.warpPrn) k) = true ∧
      (s.fbSegs.any fun x => x.frame == f && x.y == y && x.seg == l) = false) ∧
    (∃ (s : State) (i : Nat) (owed : List (Nat × List Owed)), owed.all owedOk = true ∧ s.due i 2 = true) :=
  ⟨⟨atEntry 1 0 shownClause, 0, [(0, [.release 0 0 0])], by decide +kernel⟩,
   ⟨State.reset, 0, 0, by decide +kernel⟩,
   ⟨{ fbStarted := [(0, 0, 5)], sched := { rtRaw := [1] }, prog := { modes := [⟨0, 0, 64, 720, 800, 700, 900, 65536, 0, 1, []⟩] }, regs := regsAt [(F.BAND_PRN_DATA 0 0, 0x10002), (F.BAND_PRN_DATA 0 2, 0x10004)], bands := [(0, { slots := [(0, ⟨true, 0, 0, false, 9, 0⟩), (192, ⟨true, 1, 0, false, 9, 0⟩), (384, ⟨true, 2, 0, false, 9, 0⟩)] })] },
     0, 0, 7, 5, by decide +kernel⟩,
   ⟨atEntry 2 0 shownClause, 0, [], by decide +kernel⟩⟩

theorem witness_GraphicsGrainAndCompositionFollow :
    (∃ (s : State) (u : State) (i : Nat), u = (s.fire i).applyPoint (s.actsFor i).1 ∧ s.due i 5 = true ∧
      (s.entry i).arg = 0) ∧
    (∃ (s : State) (i : Nat), s.due i 5 = true ∧ 2 ≤ (s.entry i).arg) ∧
    (∃ (s : State) (i : Nat), s.due i 5 = true ∧ (s.entry i).arg = 1 ∧
      (s.sel.any fun l => l.frame == (s.actsFor i).1 && l.y == (s.actsFor i).2) = true) ∧
    (∃ (s : State) (i : Nat), s.due i 5 = true ∧ 2 ≤ (s.entry i).arg) ∧
    (∃ (s : State) (f : Nat) (y : Nat) (l : SelLine), (s.sel.find? fun l => l.frame == f && l.y == y) = some l ∧
      l.grain = none) ∧
    (∃ (s : State) (t0 : Nat), s.frost.gen = some t0) ∧
    (∃ (s : State), s.frost.gen = none) :=
  ⟨⟨atEntry 5 0 {}, _, 0, rfl, by decide +kernel⟩,
   ⟨atEntry 5 2 {}, 0, by decide +kernel⟩,
   ⟨{ atEntry 5 1 {} with sel := [{ frame := 0, y := 0, src := [], px := [] }] }, 0, by decide +kernel⟩,
   ⟨atEntry 5 2 {}, 0, by decide +kernel⟩,
   ⟨{ sel := [{ frame := 0, y := 3, src := [1], px := [⟨1, 2, 3⟩] }] }, 0, 3, _, rfl, by decide +kernel⟩,
   ⟨{ frost := { gen := some 5 } }, 5, by decide +kernel⟩,
   ⟨State.reset, by decide +kernel⟩⟩

theorem witness_CaptureQueuesAndWritesLines :
    (∃ (s : State) (u : State) (i : Nat) (r : CapRun) (px : List Pix), u = (s.fire i).applyPoint (s.actsFor i).1 ∧
      s.due i 6 = true ∧ (s.entry i).arg ≤ 1 ∧ u.cmp.cap.en = true ∧ u.cmp.cap.bad = false ∧
      (s.actsFor i).1 % u.cmp.cap.div = 0 ∧ (u.cmp.runs.find? fun q => q.frame == (s.actsFor i).1) = some r ∧
      r.blocked = false ∧ r.ended = false ∧ r.missing = none ∧ u.capBlocked (s.actsFor i).1 = false ∧
      capturedPixels u (s.entry i).arg (s.actsFor i).1 (s.actsFor i).2 = some px ∧ u.cmp.queue.length < 2) ∧
    (∃ (s : State) (u : State) (i : Nat) (r : CapRun) (px : List Pix), u = (s.fire i).applyPoint (s.actsFor i).1 ∧
      s.due i 6 = true ∧ (s.entry i).arg ≤ 1 ∧ u.cmp.cap.en = true ∧ u.cmp.cap.bad = false ∧
      (s.actsFor i).1 % u.cmp.cap.div = 0 ∧ (u.cmp.runs.find? fun q => q.frame == (s.actsFor i).1) = some r ∧
      r.blocked = false ∧ r.ended = false ∧ r.missing = none ∧ u.capBlocked (s.actsFor i).1 = false ∧
      capturedPixels u (s.entry i).arg (s.actsFor i).1 (s.actsFor i).2 = some px ∧ 2 ≤ u.cmp.queue.length ∧
      (u.cmp.queue.any fun e => e.1 == (s.actsFor i).1) = true) ∧
    (∃ (s : State) (u : State) (i : Nat) (r : CapRun), u = (s.fire i).applyPoint (s.actsFor i).1 ∧ s.due i 6 = true ∧
      (s.entry i).arg ≤ 1 ∧ u.cmp.cap.en = true ∧ u.cmp.cap.bad = false ∧ (s.actsFor i).1 % u.cmp.cap.div = 0 ∧
      (u.cmp.runs.find? fun q => q.frame == (s.actsFor i).1) = some r ∧ r.blocked = false ∧ r.ended = false ∧
      r.missing = none ∧ u.capBlocked (s.actsFor i).1 = true) ∧
    (∃ (s : State) (u : State) (i : Nat), u = (s.fire i).applyPoint (s.actsFor i).1 ∧ s.due i 6 = true ∧
      (s.entry i).arg ≤ 1 ∧ (u.cmp.cap.en = false ∨ u.cmp.cap.bad = true ∨ (s.actsFor i).1 % u.cmp.cap.div ≠ 0)) ∧
    (∃ (s : State) (i : Nat), s.due i 6 = true ∧ 2 ≤ (s.entry i).arg) ∧
    (∃ (s : State) (f : Nat) (y : Nat) (px : List Pix) (rest : List (Nat × Nat × List Pix)) (r : CapRun), s.cmp.queue = (f,
      y, px) :: rest ∧ (s.cmp.runs.find? fun q => q.frame == f) = some r ∧ r.begun = true ∧ r.missing = none ∧
      y + 1 ≠ (s.modeOf f).vActive) :=
  ⟨⟨capturing [], _, 0, aCap, [⟨1, 2, 3⟩], rfl, by decide +kernel⟩,
   ⟨capturing [(0, 1, []), (0, 2, [])], _, 0, aCap, [⟨1, 2, 3⟩], rfl, by decide +kernel⟩,
   ⟨{ capturing [] with ctx := { live := true, i := 0 }, inp := { fr := some { num := 0, src := FrameSrc.blankBlack, fit := { hb := 4 }, geo := {}, pic := {}, next := 0, encrypted := true } } },
     _, 0, aCap, rfl, by decide +kernel⟩,
   ⟨atEntry 6 0 {}, _, 0, rfl, by decide +kernel⟩,
   ⟨atEntry 6 2 {}, 0, by decide +kernel⟩,
   ⟨{ cmp := { queue := [(0, 0, [⟨1, 2, 3⟩])], runs := [aCap] }, prog := { modes := [⟨0, 0, 1, 4, 6, 5, 7, 65536, 0, 1, []⟩] } },
     0, 0, [⟨1, 2, 3⟩], [], aCap, by decide +kernel⟩⟩

theorem witness_PortsAreConfiguredTrainedAndAnswered :
    (∃ (s : State) (n : Nat) (v : Word) (p : PortSt), (∃ f ∈ portCfg n, s.getF f ≠ bits v.toNat f.lo f.w) ∧
      isPort n = true ∧ s.inp.ports[n]? = some p ∧ s.replaying = false ∧ s.getF F.DEV_BOOT_COMPLETE = 1) ∧
    (∃ (s : State) (n : Nat) (due : Nat) (p : PortSt), isPort n = true ∧ s.inp.ports[n]? = some p ∧ p.hpdRise = some due) ∧
    (∃ (s : State) (n : Nat) (rate : Nat) (lanes : Nat) (p : PortSt), isPort n = true ∧ s.inp.ports[n]? = some p ∧
      p.hpd = true ∧ rate ≤ s.getF (F.INP_PORT_CFG_MAX_RATE n) ∧ rate < 4 ∧
      lanes ≤ min 2 (s.getF (F.INP_PORT_CFG_MAX_LANES n))) ∧
    (∃ (s : State) (n : Nat) (rate : Nat) (lanes : Nat) (p : PortSt), isPort n = true ∧ s.inp.ports[n]? = some p ∧
      rate < 8 ∧ lanes < 3) ∧
    (∃ (s : State) (n : Nat) (r : AuxReq) (p : PortSt), isPort n = true ∧ r.ok = true ∧ s.inp.ports[n]? = some p ∧
      p.hpd = false) ∧
    (∃ (s : State) (n : Nat) (a : Nat) (k : Nat) (p : PortSt), isPort n = true ∧ (AuxReq.nativeRead a k).ok = true ∧
      s.inp.ports[n]? = some p ∧ p.hpd = true) ∧
    (∃ (s : State) (n : Nat) (a : Nat) (d : List Byte) (p : PortSt), isPort n = true ∧ (AuxReq.nativeWrite a d).ok = true ∧
      s.inp.ports[n]? = some p ∧ p.hpd = true) ∧
    (∃ (s : State) (n : Nat) (d : List Byte) (p : PortSt), isPort n = true ∧ (AuxReq.i2cWrite d).ok = true ∧
      s.inp.ports[n]? = some p ∧ p.hpd = true) ∧
    (∃ (s : State) (n : Nat) (k : Nat) (p : PortSt), isPort n = true ∧ (AuxReq.i2cRead k).ok = true ∧
      s.inp.ports[n]? = some p ∧ p.hpd = true) :=
  ⟨⟨{ inp := { ports := [{ hpd := true }, {}] }, regs := regsAt [(F.DEV_BOOT_COMPLETE, 1)] }, 0, 1, { hpd := true },
    ⟨F.INP_PORT_CFG_EN 0, by decide +kernel, by decide +kernel⟩, by decide +kernel⟩,
   ⟨{ inp := { ports := [{ hpdRise := some 9 }, {}] } }, 0, 9, { hpdRise := some 9 }, by decide +kernel⟩,
   ⟨{ inp := { ports := [{ hpd := true }, {}] }, regs := regsAt [(F.INP_PORT_CFG_MAX_RATE 0, 3), (F.INP_PORT_CFG_MAX_LANES 0, 2)] },
     0, 3, 2, { hpd := true }, by decide +kernel⟩,
   ⟨State.reset, 1, 7, 2, {}, by decide +kernel⟩,
   ⟨State.reset, 0, .i2cRead 16, {}, by decide +kernel⟩,
   ⟨{ inp := { ports := [{ hpd := true }, {}] } }, 0, 0xFFFFF, 16, { hpd := true }, by decide +kernel⟩,
   ⟨{ inp := { ports := [{ hpd := true }, {}] } }, 0, 0x100, [1, 2], { hpd := true }, by decide +kernel⟩,
   ⟨{ inp := { ports := [{ hpd := true }, {}] } }, 0, [5], { hpd := true }, by decide +kernel⟩,
   ⟨{ inp := { ports := [{ hpd := true, edid := [1, 2, 3] }, {}] } }, 0, 2, { hpd := true, edid := [1, 2, 3] },
     by decide +kernel⟩⟩

theorem witness_StreamDataIsAcceptedOrRejected :
    (∃ (s : State) (n : Nat) (pps : Pps) (p : PortSt), isPort n = true ∧ s.inp.ports[n]? = some p ∧
      ppsReason pps (s.inp.geo.mode == 2) (s.overRate n pps) = 0) ∧
    (∃ (s : State) (n : Nat) (r : Nat) (pps : Pps) (p : PortSt), isPort n = true ∧ s.inp.ports[n]? = some p ∧
      ppsReason pps (s.inp.geo.mode == 2) (s.overRate n pps) = r ∧ r ≠ 0) ∧
    (∃ (s : State) (n : Nat) (enc : Nat) (col : Nat) (bpc : Nat) (p : PortSt), isPort n = true ∧ s.inp.ports[n]? = some p ∧
      sdpOk (.vsc enc col bpc) = true) ∧
    (∃ (s : State) (n : Nat) (data : List Byte) (p : PortSt), isPort n = true ∧ s.inp.ports[n]? = some p ∧
      sdpOk (.hdr data) = true) ∧
    (∃ (n : Nat), isPort n = true ∧ sdpOk .other = true) :=
  ⟨⟨{ regs := regsAt [(F.INP_PORT_STATUS_RATE 0, 1), (F.INP_PORT_STATUS_LANES 0, 2)] }, 0,
    { w := 1920, h := 1080, sliceW := 960, sliceH := 1080, slices := 2, chunk := 960, bpp16 := 128, native := 0, bpc := 8, lineBuf := 9, clock := 1000, htotal := 2200, legal := true },
    {}, by decide +kernel⟩,
   ⟨{ regs := regsAt [(F.INP_PORT_STATUS_RATE 0, 1), (F.INP_PORT_STATUS_LANES 0, 2)] }, 0, 5,
     { w := 1920, h := 1080, sliceW := 960, sliceH := 1080, slices := 2, chunk := 960, bpp16 := 95, native := 0, bpc := 8, lineBuf := 9, clock := 1000, htotal := 2200, legal := true },
     {}, by decide +kernel⟩,
   ⟨State.reset, 0, 3, 1, 2, {}, by decide +kernel⟩,
   ⟨State.reset, 0, [7], {}, by decide +kernel⟩,
   ⟨0, by decide +kernel⟩⟩

theorem witness_AuthenticationAndLossGovernSignal :
    (∃ (s : State) (n : Nat) (p : PortSt), isPort n = true ∧ s.inp.ports[n]? = some p ∧
      s.getF (F.INP_PORT_CFG_HDCP_EN n) = 1 ∧ s.boot.hdcp ≠ []) ∧
    (∃ (s : State) (n : Nat) (p : PortSt), isPort n = true ∧ s.inp.ports[n]? = some p ∧
      s.getF (F.INP_PORT_STATUS_ENCRYPTED n) = 1) ∧
    (∃ (s : State) (n : Nat) (ok : Bool), isPort n = true ∧
      (ok = false ∨ s.getF (F.INP_PORT_CFG_HDCP_EN n) = 0 ∨ s.boot.hdcp = [])) ∧
    (∃ (s : State) (n : Nat) (p : PortSt), isPort n = true ∧ s.inp.ports[n]? = some p) ∧
    (∃ (s : State) (n : Nat) (t0 : Nat) (p : PortSt), isPort n = true ∧ s.inp.ports[n]? = some p ∧ p.lastStart = some t0) :=
  ⟨⟨{ boot := { hdcp := [1] }, regs := regsAt [(F.INP_PORT_CFG_HDCP_EN 0, 1)] }, 0, {}, by decide +kernel⟩,
   ⟨{ regs := regsAt [(F.INP_PORT_STATUS_ENCRYPTED 0, 1)] }, 0, {}, by decide +kernel⟩,
   ⟨State.reset, 1, false, by decide +kernel⟩,
   ⟨State.reset, 0, {}, by decide +kernel⟩,
   ⟨{ inp := { ports := [{ lastStart := some 3 }, {}] } }, 0, 3, { lastStart := some 3 }, by decide +kernel⟩⟩

theorem witness_InputFramesStartAndLinesJoin :
    (∃ (s : State) (n : Nat) (a : SrcAttr) (b : SrcAttr) (p : PortSt), b = s.activeAttr n a ∧ frameClear s n b p ∧
      (s.getF (F.INP_PORT_STATUS_SIGNAL n) = 1 ∨ (p.proving = true ∧
      portArrived p (s.getF (F.INP_PORT_GEOM_SRC_H n)) = true)) ∧ s.inp.geo.mode ≠ 2 ∧
      (geoPorts s.inp.geo).contains n = true ∧ s.getF F.INP_APPLY_GO = 0 ∧ s.seenF F.INP_APPLY_GO ≠ 1) ∧
    (∃ (s : State) (n : Nat) (a : SrcAttr) (b : SrcAttr) (p : PortSt), b = s.activeAttr n a ∧ frameClear s n b p ∧
      s.getF (F.INP_PORT_STATUS_SIGNAL n) = 0 ∧ p.proving = false) ∧
    (∃ (s : State) (n : Nat) (a : SrcAttr) (b : SrcAttr) (p : PortSt), b = s.activeAttr n a ∧ frameClear s n b p ∧
      s.getF (F.INP_PORT_STATUS_SIGNAL n) = 0 ∧ p.proving = true ∧
      portArrived p (s.getF (F.INP_PORT_GEOM_SRC_H n)) = true ∧ (geoPorts s.inp.geo).contains n = false) ∧
    (∃ (s : State) (n : Nat) (a : SrcAttr) (b : SrcAttr) (p : PortSt), b = s.activeAttr n a ∧ frameClear s n b p ∧
      s.getF (F.INP_PORT_STATUS_SIGNAL n) = 1 ∧ s.inp.geo.mode = 2 ∧ s.inp.pairStarted = []) ∧
    (∃ (s : State) (n : Nat) (c : SrcFrame), isPort n = true ∧ s.getF (F.INP_PORT_STATUS_SIGNAL n) ≠ 0 ∧
      (geoPorts s.inp.geo).contains n = true ∧ s.inp.geo.mode ≠ 2 ∧ s.inp.cur = some c) ∧
    (∃ (s : State) (n : Nat), isPort n = true ∧
      (s.getF (F.INP_PORT_STATUS_SIGNAL n) = 0 ∨ ((geoPorts s.inp.geo).contains n = false ∧ ¬ (s.inp.geo.mode = 0 ∧
      s.inp.geo.gfx1 = true ∧ n = 1)))) ∧
    (∃ (s : State), s.getF (F.INP_PORT_STATUS_SIGNAL 1) ≠ 0 ∧ s.inp.geo.mode = 0 ∧ s.inp.geo.gfx1 = true) ∧
    (∃ (s : State) (y : Nat) (p0 : PortSt) (p1 : PortSt) (c : SrcFrame) (o : InRow), s.inp.ports = [p0, p1] ∧
      s.getF (F.INP_PORT_STATUS_SIGNAL 0) ≠ 0 ∧ s.inp.geo.mode = 2 ∧ s.joins 0 = true ∧ s.inp.cur = some c ∧ p0.rows = [] ∧
      (p1.rows.find? fun e => e.1 == y) = some (y, o)) :=
  ⟨⟨{ inp := { ports := [{ hpd := true, lossLock := false }, {}] }, regs := regsAt [(F.INP_PORT_STATUS_SIGNAL 0, 1)] }, 0,
    { w := 4, h := 2, enc := 0, bpc := 1, dsc := false, encrypted := false }, _, { hpd := true, lossLock := false }, rfl,
    by unfold frameClear portClear; decide +kernel, by decide +kernel⟩,
   ⟨{ inp := { ports := [{ hpd := true, lossLock := false }, {}] } }, 0,
     { w := 4, h := 2, enc := 0, bpc := 1, dsc := false, encrypted := false }, _, { hpd := true, lossLock := false }, rfl,
     by unfold frameClear portClear; decide +kernel, by decide +kernel⟩,
   ⟨{ inp := { ports := [{ hpd := true, lossLock := false, proving := true, nextY := 2 }, {}], geo := { mode := 1 } }, regs := regsAt [(F.INP_PORT_GEOM_SRC_H 0, 2)] },
     0, { w := 4, h := 2, enc := 0, bpc := 1, dsc := false, encrypted := false }, _,
     { hpd := true, lossLock := false, proving := true, nextY := 2 }, rfl, by unfold frameClear portClear; decide +kernel,
     by decide +kernel⟩,
   ⟨{ inp := { ports := [{ hpd := true, lossLock := false }, {}], geo := { mode := 2 } }, regs := regsAt [(F.INP_PORT_STATUS_SIGNAL 0, 1)] },
     0, { w := 4, h := 2, enc := 0, bpc := 1, dsc := false, encrypted := false }, _, { hpd := true, lossLock := false },
     rfl, by unfold frameClear portClear; decide +kernel, by decide +kernel⟩,
   ⟨{ inp := { cur := some { w := 4, h := 2 } }, regs := regsAt [(F.INP_PORT_STATUS_SIGNAL 0, 1)] }, 0, { w := 4, h := 2 },
     by decide +kernel⟩,
   ⟨State.reset, 0, by decide +kernel⟩,
   ⟨{ inp := { geo := { gfx1 := true } }, regs := regsAt [(F.INP_PORT_STATUS_SIGNAL 1, 1)] }, by decide +kernel⟩,
   ⟨{ inp := { ports := [{}, { rows := [(0, ⟨0, [⟨1, 2, 3⟩]⟩)] }], geo := { mode := 2 }, cur := some { w := 2, h := 2 } }, regs := regsAt [(F.INP_PORT_STATUS_SIGNAL 0, 1), (F.INP_PORT_STATUS_SIGNAL 1, 1)] },
     0, {}, { rows := [(0, ⟨0, [⟨1, 2, 3⟩]⟩)] }, { w := 2, h := 2 }, ⟨0, [⟨1, 2, 3⟩]⟩, by decide +kernel⟩⟩

theorem witness_Stage10AndBlankPathSupplyFrames :
    (∃ (s : State) (fr : InFrame), s.inp.fr = some fr ∧ s.lineReady fr = true ∧ fr.next + 1 ≠ fr.fit.hb) ∧
    (∃ (s : State) (fr : InFrame), s.inp.fr = some fr ∧ s.lineReady fr = true ∧ fr.next + 1 = fr.fit.hb) ∧
    (∃ (s : State) (at_ : Nat), s.blankDue = some at_ ∧ s.getF F.INP_APPLY_GO = 0 ∧ s.seenF F.INP_APPLY_GO ≠ 1) :=
  ⟨⟨{ inp := { fr := some { num := 7, src := FrameSrc.blankBlack, fit := { hb := 4 }, geo := {}, pic := {}, next := 0 } } },
    { num := 7, src := FrameSrc.blankBlack, fit := { hb := 4 }, geo := {}, pic := {}, next := 0 }, by decide +kernel⟩,
   ⟨{ inp := { fr := some { num := 7, src := FrameSrc.blankBlack, fit := { hb := 4 }, geo := {}, pic := {}, next := 3 } } },
     { num := 7, src := FrameSrc.blankBlack, fit := { hb := 4 }, geo := {}, pic := {}, next := 3 }, by decide +kernel⟩,
   ⟨{ inp := { period := some 40, lastStart := 10 } }, 50, by decide +kernel⟩⟩

theorem witness_StepsAccumulateOrFault :
    (∃ (s : State) (u : State) (p : Nat) (t : Nat) (l : Nat) (o : StepOp) (w : CoreIn) (d : LayerDesc) (m : MapRec)
      (k : StepCtx) (f : State × List Nat × List Nat × Option (Nat × Nat × Nat)) (b : State × Bool),
      stepIssues s p t l o w d m ∧ u = stepState s p t l o ∧ k = u.stepCtx p t l o ∧ f = u.stepChecks p k o w ∧
      b = (f.1.onCore p fun c => setRun c t o.layer (o.oy,
      (stepIndex (stepCounts d m ((s.awaitUnit p t .array).runExtent p d m).2.toNat) o).getD 0)).stepBody p t k o (f.1.readRow k.row p k.y k.x k.g).1 (f.1.readRow k.row p k.y k.x k.g).2 (f.1.tileEscList p d m k.cb k.set.a k.set.t k.bank (stepEntry d m k.cb.big o.co o.ty o.tx o.ci)) w ∧
      isCore p = true ∧ isThread t = true ∧ o.ok = true ∧ coreInOk w = true ∧ f.2.1 = [] ∧ b.2 = false) ∧
    (∃ (k : StepCtx) (o : StepOp), stepLast k.d k.m o.ty o.tx o.ci = false) ∧
    (∃ (s : State) (p : Nat) (t : Nat) (l : Nat) (o : StepOp) (w : CoreIn), isCore p = true ∧ isThread t = true ∧
      o.ok = true ∧ coreInOk w = true ∧ s.logical p = some l ∧ s.mayIssue p t o.line = true ∧
      s.grantsThread p t w.rivals = false) ∧
    (∃ (s : State) (u : State) (p : Nat) (t : Nat) (l : Nat) (c : Nat) (cs : List Nat) (o : StepOp) (w : CoreIn)
      (d : LayerDesc) (m : MapRec) (k : StepCtx) (f : State × List Nat × List Nat × Option (Nat × Nat × Nat)),
      stepIssues s p t l o w d m ∧ u = stepState s p t l o ∧ k = u.stepCtx p t l o ∧ f = u.stepChecks p k o w ∧
      isCore p = true ∧ isThread t = true ∧ o.ok = true ∧ coreInOk w = true ∧ f.2.1 = c :: cs) ∧
    (∃ (p : Nat), isCore p = true) :=
  ⟨⟨{ cores := [(0, { ready with progress := [((0, 0), (0, 0))] })], sched := oneLayer 0 }, _, 0, 0, 0,
    { layer := 0, line := 0, oy := 0, ox := 0, co := 0, ty := 0, tx := 1, ci := 0, first := false, beside := [] }, {},
    (oneLayer 0).layer 0 0, (oneLayer 0).mapRec 0 ((oneLayer 0).layer 0 0), _, _, _, by unfold stepIssues; decide +kernel,
    rfl, rfl, rfl, rfl, by decide +kernel⟩,
   ⟨State.stepCtx { cores := [(0, { ready with progress := [((0, 0), (0, 0))] })], sched := oneLayer 0 } 0 0 0 { layer := 0, line := 0, oy := 0, ox := 0, co := 0, ty := 0, tx := 1, ci := 0, first := false, beside := [] },
     { layer := 0, line := 0, oy := 0, ox := 0, co := 0, ty := 0, tx := 1, ci := 0, first := false, beside := [] },
     by decide +kernel⟩,
   ⟨{ cores := [(0, ready)], regs := regsAt [(F.CORE_THREAD_FWIN 0, 1)] }, 0, 2, 0,
     { layer := 0, line := 0, oy := 0, ox := 0, co := 0, ty := 0, tx := 1, ci := 0, first := false, beside := [] },
     { rivals := [0] }, by decide +kernel⟩,
   ⟨{ cores := [(0, { ready with progress := [((0, 0), (0, 0))] })], sched := oneLayer 0 }, _, 0, 0, 0, 4, [],
     { layer := 0, line := 0, oy := 0, ox := 0, co := 0, ty := 0, tx := 1, ci := 0, first := false, beside := [] },
     { store := true }, (oneLayer 0).layer 0 0, (oneLayer 0).mapRec 0 ((oneLayer 0).layer 0 0), _, _,
     by unfold stepIssues; decide +kernel, rfl, rfl, rfl, by decide +kernel⟩,
   ⟨71, by decide +kernel⟩⟩

theorem witness_WeightsLoadRewriteAndBinsChange :
    (∃ (s : State) (u : State) (p : Nat) (t : Nat) (prn : Nat) (e : Nat) (w : CoreIn) (f : State × Bool),
      u = ((((s.awaitUnit p t .weightPath).rotate p t).setWait p t .none).occupy p t .weightPath 64).inPipe p t 64 ∧
      f = u.foreReads p w.ecc ((List.range 64).map fun r => ((u.prn p prn).base + 32 * r, 32)) ∧ isCore p = true ∧
      isThread t = true ∧ isPrn prn = true ∧ isEntry e = true ∧ coreInOk w = true ∧ s.mayIssue p t s.cal.line = true ∧
      s.isLineThread p t = false ∧ s.mset.classOf e = .frame ∧ s.grantsThread p t w.rivals = true ∧
      besideConflict 4 (fun a => decide ((u.prn p prn).base ≤ a ∧ a < (u.prn p prn).base + 2048)) w.beside = none ∧
      w.store = false ∧ f.2 = false) ∧
    (∃ (s : State) (u : State) (p : Nat) (t : Nat) (prn : Nat) (e : Nat) (c : Nat) (cs : List Nat) (w : CoreIn)
      (f : State × Bool) (k : Option (Nat × Nat × Nat)),
      u = ((((s.awaitUnit p t .weightPath).rotate p t).setWait p t .none).occupy p t .weightPath 64).inPipe p t 64 ∧
      k = besideConflict 4 (fun a => decide ((u.prn p prn).base ≤ a ∧ a < (u.prn p prn).base + 2048)) w.beside ∧
      f = (if k.isSome then (u, false) else u.foreReads p w.ecc ((List.range 64).map fun r => ((u.prn p prn).base + 32 * r,
      32))) ∧ isCore p = true ∧ isThread t = true ∧ isPrn prn = true ∧ isEntry e = true ∧ coreInOk w = true ∧
      s.mayIssue p t s.cal.line = true ∧ s.isLineThread p t = false ∧ s.mset.classOf e = .frame ∧
      s.grantsThread p t w.rivals = true ∧ stepFaults false false false w.store k.isSome f.2 = c :: cs) ∧
    (∃ (s : State) (p : Nat) (e : Nat) (due : Nat), isCore p = true ∧ isEntry e = true ∧
      ((s.core p).loading.find? fun x => x.1 == e) = some (e, due)) ∧
    (∃ (s : State) (p : Nat), isCore p = true ∧ (s.core p).stallEnd ≠ 0) ∧
    (∃ (s : State) (p : Nat) (e : Nat), isCore p = true ∧
      ((s.core p).rewrites.find? fun e => !s.memBad 3 0 (s.pageOf e) 2048) = some e ∧ s.inBlank = true ∧
      s.inFlight p = false) ∧
    (∃ (s : State) (p : Nat), isCore p = true ∧
      min 3 (s.getF (F.CORE_CLK_BIN_PLAN p) + s.getF (F.CORE_CLK_BIN_DIP p)) ≠ s.getF (F.CORE_CLK_BIN_EFF p)) :=
  ⟨⟨{ cores := [(0, ready)], regs := regsAt [(F.CORE_THREAD_FWIN 0, 1)], prog := { msets := [{ classes := [.frame] }] } },
    _, 0, 2, 0, 0, {}, _, rfl, rfl, by decide +kernel⟩,
   ⟨{ cores := [(0, ready)], regs := regsAt [(F.CORE_THREAD_FWIN 0, 1)], prog := { msets := [{ classes := [.frame] }] } },
     _, 0, 2, 0, 0, 4, [], { store := true }, _, _, rfl, rfl, rfl, by decide +kernel⟩,
   ⟨{ cores := [(0, { loading := [(63, 8)] })] }, 0, 63, 8, by decide +kernel⟩,
   ⟨{ cores := [(0, { stallEnd := 8 })] }, 0, by decide +kernel⟩,
   ⟨{ cores := [(0, { rewrites := [3] })], cal := { running := true, line := 5 } }, 0, 3, by decide +kernel⟩,
   ⟨{ regs := regsAt [(F.CORE_CLK_BIN_PLAN 71, 2), (F.CORE_CLK_BIN_DIP 71, 1)] }, 71, by decide +kernel⟩⟩

theorem witness_EnginesRunLayersIntoTheOutputBuffer :
    (∃ (s : State) (v : State) (u : State) (p : Nat) (t : Nat) (l : Nat) (layer : Nat) (line : Nat) (oy : Nat) (w : CoreIn)
      (d : LayerDesc) (m : MapRec) (start : Bool) (q : State × Bool) (r : State × Bool) (ext : Int × Int),
      layerIssues s p t l layer line w d m ∧ v = s.awaitUnit p t .prefixEng ∧
      q = (if start then v.dynStart p d m w.owed else (v, false)) ∧ ext = q.1.runExtent p d m ∧
      u = (q.1.rotate p t).runOn p t line ∧
      r = (List.range (computedCols ext.2.toNat)).foldl (fun (a : State × Bool) ox => if a.2 then a else a.1.prefixPos p d m ⟨1,
      u.engineLat p ox d m, w.ecc⟩ ext oy ox) (u.engineRun p t layer oy d m ext.2.toNat .prefixEng, false) ∧
      isCore p = true ∧ isThread t = true ∧ isLayer layer = true ∧ coreInOk w = true ∧ d.engine = 1 ∧
      v.outBlocked p d ((outLineOf d m oy).getD 0) (outLineOf d m oy).isSome = none ∧ runLineStart (s.isLineThread p t)
      (runAt (v.core p) t layer) oy = some start ∧ q.2 = false ∧ (u.engineChecks p d m oy w).1 = [] ∧ (oy : Int) < ext.1 ∧
      r.2 = false) ∧
    (∃ (s : State) (u : State) (p : Nat) (t : Nat) (l : Nat) (layer : Nat) (line : Nat) (oy : Nat) (w : CoreIn)
      (d : LayerDesc) (m : MapRec) (q : State × Bool) (r : List (List Nat) × State × Bool) (ext : Int × Int),
      layerIssues s p t l layer line w d m ∧ q = (s.awaitUnit p t .suffixEng).dynStart p d m w.owed ∧
      ext = q.1.runExtent p d m ∧ u = (q.1.rotate p t).runOn p t line ∧
      r = (List.range (computedCols ext.2.toNat)).foldl (fun (a : List (List Nat) × State × Bool) ox => if a.2.2 then a else (a.1 ++ [(a.2.1.suffixPos p d m ⟨2,
      0, w.ecc⟩ ext oy ox).1], (a.2.1.suffixPos p d m ⟨2, 0, w.ecc⟩ ext oy ox).2)) ([],
      u.engineRun p t layer oy d m ext.2.toNat .suffixEng, false) ∧ isCore p = true ∧ isThread t = true ∧
      isLayer layer = true ∧ coreInOk w = true ∧ d.engine = 2 ∧ q.2 = false ∧ (u.engineChecks p d m oy w).1 = [] ∧
      (oy : Int) < ext.1 ∧ r.2.2 = false) ∧
    (∃ (s : State) (p : Nat) (t : Nat) (l : Nat) (layer : Nat) (line : Nat) (w : CoreIn) (d : LayerDesc) (m : MapRec),
      layerIssues s p t l layer line w d m ∧ isCore p = true ∧ isThread t = true ∧ isLayer layer = true ∧
      coreInOk w = true ∧ d.engine = 2 ∧ w.owed = [] ∧ ((s.awaitUnit p t .suffixEng).prn p d.inPrn).lh = 0) ∧
    (∃ (s : State) (u : State) (p : Nat) (r : SegRow) (rs : List SegRow), u = s.waitUntil r.ready ∧ isCore p = true ∧
      (s.core p).sufRows = r :: rs ∧ (u.core p).seg.length < 8) ∧
    (∃ (s : State) (u : State) (p : Nat) (r : SegRow) (rs : List SegRow), u = s.waitUntil r.ready ∧ isCore p = true ∧
      (s.core p).sufRows = r :: rs ∧ 8 ≤ (u.core p).seg.length) :=
  ⟨⟨{ cores := [(0, ready)], regs := regsAt [(F.CORE_PRN_DATA 0 0, 0x10001), (F.CORE_PRN_DATA 0 1, 0x30001), (F.CORE_PRN_DATA 0 2, 0x30001)], sched := oneLayer 1 },
    _, _, 0, 0, 0, 0, 0, 0, {}, (oneLayer 1).layer 0 0, (oneLayer 1).mapRec 0 ((oneLayer 1).layer 0 0), true, _, _, _,
    by unfold layerIssues; decide +kernel, rfl, rfl, rfl, rfl, rfl, by decide +kernel⟩,
   ⟨{ cores := [(0, ready)], regs := regsAt [(F.CORE_PRN_DATA 0 0, 0x10001), (F.CORE_PRN_DATA 0 1, 0x30001), (F.CORE_PRN_DATA 0 2, 0x30001)], sched := oneLayer 2 },
     _, 0, 0, 0, 0, 0, 0, {}, (oneLayer 2).layer 0 0, (oneLayer 2).mapRec 0 ((oneLayer 2).layer 0 0), _, _, _,
     by unfold layerIssues; decide +kernel, rfl, rfl, rfl, rfl, by decide +kernel⟩,
   ⟨{ cores := [(0, ready)], sched := oneLayer 2 }, 0, 0, 0, 0, 0, {}, (oneLayer 2).layer 0 0,
     (oneLayer 2).mapRec 0 ((oneLayer 2).layer 0 0), by unfold layerIssues; decide +kernel, by decide +kernel⟩,
   ⟨{ cores := [(0, { sufRows := [⟨0, 0, 5, 0, 4, []⟩], seg := List.replicate 7 ⟨0, 0, 5, 0, 4, []⟩ })] }, _, 0, ⟨0, 0, 5,
     0, 4, []⟩, [], rfl, by decide +kernel⟩,
   ⟨{ cores := [(0, { sufRows := [⟨0, 0, 5, 0, 4, []⟩], seg := List.replicate 8 ⟨0, 0, 5, 0, 4, []⟩ })] }, _, 0, ⟨0, 0, 5,
     0, 4, []⟩, [], rfl, by decide +kernel⟩⟩

theorem witness_MemoriesServeBackgroundRowsAndSlots :
    (∃ (s : State) (p : Nat) (a : Nat) (n : Nat) (busy : Bool), isCore p = true ∧ a + n ≤ 0x80000 ∧
      (busy = true ∨ (((s.core p).bg.takeWhile fun x => x.1 != a).any fun x => (banksOf [(a,
      n)]).contains (x.1 / 64 % 32)) = true ∨ ((banksOf [(a,
      n)]).any fun k => SMap.get 0 (s.core p).bgLast k == s.now + 1) = true)) ∧
    (∃ (s : State) (p : Nat) (a : Nat) (n : Nat), isCore p = true ∧ a + n ≤ 0x80000 ∧ (s.core p).bad = [] ∧
      (((s.core p).bg.takeWhile fun x => x.1 != a).any fun x => (banksOf [(a, n)]).contains (x.1 / 64 % 32)) = false ∧
      ((banksOf [(a, n)]).any fun k => SMap.get 0 (s.core p).bgLast k == s.now + 1) = false) ∧
    (∃ (s : State) (p : Nat) (row : Nat) (rest : List Nat), isCore p = true ∧ (s.core p).mapQ = row :: rest ∧
      s.inBlank = true ∧ s.inFlight p = false ∧ ((s.core p).mapped.filter fun r => r % 32 == row % 32).length < 4 ∧
      s.led.queue.length < 64 ∧ (s.core p).bg = [] ∧ ((banksOf [(64 * row,
      64)]).any fun k => SMap.get 0 (s.core p).bgLast k == s.now + 1) = false) ∧
    (∃ (s : State) (p : Nat) (row : Nat) (rest : List Nat), isCore p = true ∧ (s.core p).mapQ = row :: rest ∧
      s.inBlank = true ∧ s.inFlight p = false ∧ ((s.core p).mapped.filter fun r => r % 32 == row % 32).length < 4) ∧
    (∃ (s : State) (p : Nat) (row : Nat) (rest : List Nat), isCore p = true ∧ (s.core p).mapQ = row :: rest ∧
      s.inBlank = true ∧ s.inFlight p = false ∧ 4 ≤ ((s.core p).mapped.filter fun r => r % 32 == row % 32).length ∧
      2 ≤ s.role p) ∧
    (∃ (s : State) (p : Nat) (row : Nat) (rest : List Nat), isCore p = true ∧ (s.core p).mapQ = row :: rest ∧
      s.inBlank = true ∧ s.inFlight p = false ∧ 4 ≤ ((s.core p).mapped.filter fun r => r % 32 == row % 32).length) ∧
    (∃ (s : State) (b : Nat) (row : Nat) (rest : List Nat), isBand b = true ∧ (s.band b).mapQ = row :: rest ∧
      s.inBlank = true ∧ ((List.range 9).any fun k => s.inFlight (9 * b + k)) = false ∧
      ((s.band b).mapped.filter fun r => r % 96 == row % 96).length < 8 ∧ s.led.queue.length < 64 ∧
      lsBusy (s.band b) s.now [(64 * row, 64)] = false) ∧
    (∃ (s : State) (b : Nat) (row : Nat) (rest : List Nat), isBand b = true ∧ (s.band b).mapQ = row :: rest ∧
      s.inBlank = true ∧ ((s.band b).mapped.filter fun r => r % 96 == row % 96).length < 8) ∧
    (∃ (s : State) (b : Nat) (row : Nat) (rest : List Nat), isBand b = true ∧ (s.band b).mapQ = row :: rest ∧
      s.inBlank = true ∧ ((List.range 9).any fun k => s.inFlight (9 * b + k)) = false ∧
      8 ≤ ((s.band b).mapped.filter fun r => r % 96 == row % 96).length) ∧
    (∃ (s : State) (v : State) (p : Nat) (t : Nat) (line : Nat) (n : Nat) (y : Nat), v = s.issueOp p t line ∧
      isCore p = true ∧ isThread t = true ∧ isPrn n = true ∧ (s.prn p n).place = 2 ∧ s.mayIssue p t line = true ∧
      v.lsReady (bandOf p) (s.prn p n) y = true ∧ ((s.prn p n).cons ≠ 0 ∨ (s.prn p n).fb = true)) ∧
    (∃ (s : State) (v : State) (p : Nat) (t : Nat) (line : Nat) (n : Nat) (y : Nat), v = s.issueOp p t line ∧
      isCore p = true ∧ isThread t = true ∧ isPrn n = true ∧ (s.prn p n).place = 2 ∧ s.mayIssue p t line = true ∧
      v.lsReady (bandOf p) (s.prn p n) y = false ∧ t < (v.core p).threads.length) :=
  ⟨⟨{ cores := [(0, { bg := [(2048, 0)] })] }, 0, 0, 64, false, by decide +kernel⟩,
   ⟨{ cores := [(0, { bg := [(64, 0)] })] }, 0, 0, 64, by decide +kernel⟩,
   ⟨{ cores := [(0, { mapQ := [33], mapped := [1, 65, 97] })], cal := { running := true, line := 5 } }, 0, 33, [],
     by decide +kernel⟩,
   ⟨{ cores := [(0, { mapQ := [33], mapped := [1, 65, 97] })], cal := { running := true, line := 5 } }, 0, 33, [],
     by decide +kernel⟩,
   ⟨{ cores := [(0, { mapQ := [33], mapped := [1, 65, 97, 129] })], regs := regsAt [(F.CORE_IDENT_ROLE 0, 2)], cal := { running := true, line := 5 } },
     0, 33, [], by decide +kernel⟩,
   ⟨{ cores := [(0, { mapQ := [33], mapped := [1, 65, 97, 129] })], cal := { running := true, line := 5 } }, 0, 33, [],
     by decide +kernel⟩,
   ⟨{ bands := [(7, { mapQ := [5] })], cal := { running := true, line := 5 } }, 7, 5, [], by decide +kernel⟩,
   ⟨{ bands := [(7, { mapQ := [5] })], cal := { running := true, line := 5 } }, 7, 5, [], by decide +kernel⟩,
   ⟨{ bands := [(7, { mapQ := [5], mapped := (List.range 8).map (96 * · + 5) })], cal := { running := true, line := 5 } },
     7, 5, [], by decide +kernel⟩,
   ⟨{ cores := [(0, ready)], regs := regsAt [(F.CORE_PRN_DATA 0 0, 2), (F.CORE_PRN_DATA 0 2, 1), (F.CORE_PRN_DATA 0 5, 65536)] },
     _, 0, 0, 0, 0, 0, rfl, by decide +kernel⟩,
   ⟨{ cores := [(0, ready)], regs := regsAt [(F.CORE_PRN_DATA 0 0, 2), (F.CORE_PRN_DATA 0 2, 1), (F.CORE_PRN_DATA 0 5, 65536)], bands := [(0, { slots := [(0, { present := true })] })] },
     _, 0, 0, 0, 0, 0, rfl, by decide +kernel⟩⟩

theorem witness_ListsStartPendAndDrain :
    (∃ (s : State) (i : Nat), s.due i 0 = true) ∧
    (∃ (s : State) (i : Nat) (b : Nat), (∀ e, (s.eng (.band b e)).started.2 = false) ∧ s.due i 0 = true ∧ b < s.nBands ∧
      bit (s.entry i).bands b = true ∧ bit (s.entry i).arg 8 = true ∧ 1 < (s.band b).eng.length) ∧
    (∃ (s : State) (i : Nat) (b : Nat) (k : Nat), (∀ e, (s.eng (.core (s.phys (8 * b + k)) e)).started.2 = false) ∧
      s.due i 0 = true ∧ b < s.nBands ∧ bit (s.entry i).bands b = true ∧ bit (s.entry i).arg 8 = false ∧ k < 8 ∧
      bit (s.entry i).cores k = true ∧ s.active (s.phys (8 * b + k)) = true ∧
      7 < (s.core (s.phys (8 * b + k))).eng.length) ∧
    (∃ (s : State) (g : EngId), engineHere s g ∧ (s.eng g).run = none ∧ (s.eng g).pend = none ∧
      (s.eng g).stopping = false ∧ (s.eng g).endedAt ≠ s.now + 1 ∧ (s.eng g).started.1 ≠ s.now + 1) ∧
    (∃ (s : State) (g : EngId) (q : ListRun), engineHere s g ∧ (s.eng g).run = some q ∧ (s.eng g).pend = none ∧
      (s.eng g).started.1 ≠ s.now + 1) ∧
    (∃ (s : State) (g : EngId) (q : ListRun), engineHere s g ∧ (s.eng g).pend = some q ∧ (s.eng g).endedAt ≠ s.now + 1 ∧
      (s.eng g).started.1 ≠ s.now + 1) ∧
    (∃ (s : State) (g : EngId), engineHere s g ∧ (s.eng g).run = none ∧ (s.eng g).endedAt = s.now + 1 ∧
      (s.eng g).started.1 ≠ s.now + 1) ∧
    (∃ (s : State) (g : EngId) (q : ListRun), engineHere s g ∧ (s.eng g).started = (s.now + 1, true) ∧
      (s.eng g).run = some q ∧ (s.eng g).pend = none) ∧
    (∃ (s : State) (g : EngId) (r : ListRun), engineHere s g ∧ g.ok = true ∧ (s.eng g).run = none ∧
      (s.eng g).pend = some r ∧ (s.eng g).stopping = false) ∧
    (∃ (s : State) (v : State) (p : Nat) (t : Nat) (line : Nat) (list : Nat) (e : Nat), e = s.listEngine p list ∧
      v = s.issueOp p t line ∧ isCore p = true ∧ isThread t = true ∧ list < 64 ∧ s.mayIssue p t line = true ∧
      s.isLineThread p t = decide (e < 4) ∧ e < (s.core p).eng.length) ∧
    (∃ (s : State) (v : State) (p : Nat) (cl : Nat) (sems : List Nat) (lists : List Nat), (∀ u,
      u ≠ 0 → u < 4 → s.isLineThread p u = true → s.threadClause p u ≠ some cl) ∧ v = s.waitUntil (drainEnd (s.core p)
      (s.clock p) 0) ∧ Instr.wf (.clauseDrained p 0 ⟨sems, lists⟩) = true ∧ s.threadClause p 0 = some cl ∧
      s.drained p 0 lists = true ∧ 0 < (s.core p).threads.length) :=
  ⟨⟨atEntry 0 0 {}, 0, by decide +kernel⟩,
   ⟨atEntry 0 256 {}, 0, 7, fun | 0 => by decide +kernel | 1 => by decide +kernel | _ + 2 => rfl, by decide +kernel⟩,
   ⟨atEntry 0 0 {}, 0, 7, 7, fun | 0 | 1 | 2 | 3 | 4 | 5 | 6 | 7 => by decide +kernel | _ + 8 => rfl, by decide +kernel⟩,
   ⟨State.reset, .core 71 7, by unfold engineHere; decide +kernel, by decide +kernel⟩,
   ⟨{ cores := [(0, { eng := [{ run := some aRun }] })] }, .core 0 0, aRun, by unfold engineHere; decide +kernel,
     by decide +kernel⟩,
   ⟨{ cores := [(0, { eng := [{ run := some aRun, pend := some aRun }] })] }, .core 0 0, aRun,
     by unfold engineHere; decide +kernel, by decide +kernel⟩,
   ⟨{ cores := [(0, { eng := [{ endedAt := 1 }] })] }, .core 0 0, by unfold engineHere; decide +kernel, by decide +kernel⟩,
   ⟨{ cores := [(0, { eng := [{ run := some aRun, started := (1, true) }] })] }, .core 0 0, aRun,
     by unfold engineHere; decide +kernel, by decide +kernel⟩,
   ⟨{ bands := [(7, { eng := [{}, { pend := some aRun }] })] }, .band 7 1, aRun, by unfold engineHere; decide +kernel,
     by decide +kernel⟩,
   ⟨{ cores := [(0, ready)] }, _, 0, 0, 0, 31, _, rfl, rfl, by decide +kernel⟩,
   ⟨{ cores := [(0, ready)] }, _, 0, 0, [63], [], fun u h _ e => absurd e (ready_line_thread u h), rfl, by decide +kernel⟩⟩

theorem witness_EnginesReadIssueAndComplete :
    (∃ (s : State) (u : State) (g : EngId) (w : CoreIn) (r : ListRun) (q : Prn) (n : Nat) (v : State × Bool),
      engineHere s g ∧ q = s.engPrn g r.prn ∧ n = min 8 (r.count - r.read) ∧ v = s.xferTurn g (q.place,
      [(q.base + 32 * (r.first + r.read), 32 * n)]) (0, []) w ∧
      u = (v.1.srcEcc g q.place [(q.base + 32 * (r.first + r.read), 32 * n)] w.ecc).1 ∧ g.ok = true ∧ coreInOk w = true ∧
      (s.eng g).run = some r ∧ s.getF (F.ENG_STATE_STATE g.regs) = 1 ∧ (s.eng g).stopping = false ∧
      s.bandStopped g.bandNo = false ∧ r.read < r.count ∧ r.buf.length ≤ 8 ∧ v.2 = true ∧
      u.badRow q.place (g.unit q.place) [(q.base + 32 * (r.first + r.read), 32 * n)] = none) ∧
    (∃ (s : State) (g : EngId) (r : ListRun) (dr : DescRun), engineHere s g ∧ g.ok = true ∧ s.nextXfer g = some (r, dr) ∧
      s.getF (F.ENG_STATE_STATE g.regs) = 1 ∧ (s.eng g).stopping = false ∧ s.bandStopped g.bandNo = false ∧
      (s.eng g).outst.length < 6 ∧ semWait dr.bytes = none ∧ (Desc.parse dr.bytes).op ≠ 1 ∧ (Desc.parse dr.bytes).op ≠ 2 ∧
      (Desc.parse dr.bytes).mcast = false ∧ (Desc.parse dr.bytes).remote = false ∧ (Desc.parse dr.bytes).zc = false ∧
      (s.engPrn g (Desc.parse dr.bytes).src).place = 3 ∧ (s.dstPrn g (Desc.parse dr.bytes)
      (Desc.parse dr.bytes).peer).1.place = 1 ∧
      (Desc.parse dr.bytes).lineXfers (s.engPrn g (Desc.parse dr.bytes).src) ≠ 0 ∧
      s.paced g r dr (Desc.parse dr.bytes) = true) ∧
    (∃ (s : State) (g : EngId), g.ok = true ∧ 6 ≤ (s.eng g).outst.length) ∧
    (∃ (s : State) (p : Nat) (e : Nat) (i : Nat) (r : ListRun) (dr : DescRun), engineHere s (.core p e) ∧
      (EngId.core p e).ok = true ∧ s.nextXfer (.core p e) = some (r, dr) ∧ s.getF (F.ENG_STATE_STATE (coreEng p e)) = 1 ∧
      (s.eng (.core p e)).stopping = false ∧ s.bandStopped (bandOf p) = false ∧ (s.eng (.core p e)).outst.length < 6 ∧
      semWait dr.bytes = some i ∧ dr.waited = false ∧ s.getF (F.CORE_SEM_COUNT p i) = 0 ∧ s.lastTook p i (4 + e) = none) ∧
    (∃ (s : State) (g : EngId) (n : Nat) (w : CoreIn) (x : Xfer) (r : ListRun) (dr : DescRun) (d : Desc) (sr : Prn)
      (dp : Prn × Nat) (rs : List (Nat × Nat)) (q : State × Bool) (f : State × Bool), engineHere s g ∧
      d = Desc.parse dr.bytes ∧ sr = { s.engPrn g d.src with base := x.base } ∧ dp = s.dstPrn g d d.peer ∧
      rs = d.reads sr (s.readMem sr.place (g.unit sr.place)) r.base x.k ∧ q = (s.waitUntil x.after).xferTurn g (sr.place,
      if x.after = 0 then rs else []) (dp.1.place, d.writes r.base x.k sr dp.1) w ∧
      f = (if x.after = 0 then q.1.srcEcc g sr.place rs w.ecc else (q.1, false)) ∧ g.ok = true ∧ coreInOk w = true ∧
      (s.eng g).outst[n]? = some x ∧ s.xferDesc g x.desc = some (r, dr) ∧ x.remote = false ∧ x.accepted = false ∧
      (dp.1.place = 3 → s.getF F.DEV_HOTPLUG_WSTOP = 0) ∧ q.2 = true ∧ f.2 = false ∧
      f.1.badRow sr.place (g.unit sr.place) rs = none) ∧
    (∃ (s : State) (u : State) (p : Nat) (e : Nat) (row : Nat) (w : CoreIn) (r : ListRun) (q : Prn) (n : Nat)
      (v : State × Bool), engineHere s (.core p e) ∧ q = s.prn p r.prn ∧ n = min 8 (r.count - r.read) ∧
      v = s.xferTurn (.core p e) (q.place, [(q.base + 32 * (r.first + r.read), 32 * n)]) (0, []) w ∧
      u = (v.1.srcEcc (.core p e) q.place [(q.base + 32 * (r.first + r.read), 32 * n)] w.ecc).1 ∧
      (EngId.core p e).ok = true ∧ coreInOk w = true ∧ 4 ≤ e ∧ (s.eng (.core p e)).run = some r ∧
      s.isLineThread p r.thread = false ∧ s.getF (F.ENG_STATE_STATE (coreEng p e)) = 1 ∧
      (s.eng (.core p e)).stopping = false ∧ s.bandStopped (bandOf p) = false ∧ r.read < r.count ∧ r.buf.length ≤ 8 ∧
      v.2 = true ∧ u.badRow q.place ((EngId.core p e).unit q.place) [(q.base + 32 * (r.first + r.read),
      32 * n)] = some row) :=
  ⟨⟨{ cores := [(0, { eng := [{ run := some { aRun with count := 9 } }] })], regs := regsAt [(F.ENG_STATE_STATE (coreEng 0 0), 1)] },
    _, .core 0 0, {}, { aRun with count := 9 }, _, _, _, by unfold engineHere; decide +kernel, rfl, rfl, rfl, rfl,
    by decide +kernel⟩,
   ⟨{ cores := [(0, { eng := [{ run := some { aRun with buf := [{ idx := 0, bytes := [0, 0, 1, 1, 0, 0, 0, 0, 0, 0, 0, 0, 1, 0, 1, 0] }] } }] })], regs := regsAt [(F.ENG_STATE_STATE (coreEng 0 0), 1), (F.CORE_PRN_DATA 0 0, 0x10003), (F.CORE_PRN_DATA 0 1, 0x10001), (F.CORE_PRN_DATA 0 2, 0x10001), (F.CORE_PRN_DATA 0 8, 1)] },
     .core 0 0, { aRun with buf := [{ idx := 0, bytes := [0, 0, 1, 1, 0, 0, 0, 0, 0, 0, 0, 0, 1, 0, 1, 0] }] },
     { idx := 0, bytes := [0, 0, 1, 1, 0, 0, 0, 0, 0, 0, 0, 0, 1, 0, 1, 0] }, by unfold engineHere; decide +kernel,
     by decide +kernel⟩,
   ⟨{ cores := [(0, { eng := [{ outst := List.replicate 6 ⟨0, 0, 0, false, false, false, 0⟩ }] })] }, .core 0 0,
     by decide +kernel⟩,
   ⟨{ cores := [(0, { eng := [{ run := some { aRun with buf := [{ idx := 0, bytes := [0, 0, 1, 1, 0, 0, 0, 0, 0, 0, 0, 0, 1, 0, 1, 0, 0, 70] }] } }] })], regs := regsAt [(F.ENG_STATE_STATE (coreEng 0 0), 1), (F.CORE_PRN_DATA 0 0, 3), (F.CORE_PRN_DATA 0 8, 1)] },
     0, 0, 6, { aRun with buf := [{ idx := 0, bytes := [0, 0, 1, 1, 0, 0, 0, 0, 0, 0, 0, 0, 1, 0, 1, 0, 0, 70] }] },
     { idx := 0, bytes := [0, 0, 1, 1, 0, 0, 0, 0, 0, 0, 0, 0, 1, 0, 1, 0, 0, 70] }, by unfold engineHere; decide +kernel,
     by decide +kernel⟩,
   ⟨{ cores := [(0, { eng := [{ run := some { aRun with buf := [{ idx := 0, bytes := [0, 0, 1, 1] }] }, outst := [⟨0, 0, 0, false, false, false, 0⟩] }] })], regs := regsAt [(F.CORE_PRN_DATA 0 0, 3), (F.CORE_PRN_DATA 0 8, 1)] },
     .core 0 0, 0, {}, ⟨0, 0, 0, false, false, false, 0⟩, { aRun with buf := [{ idx := 0, bytes := [0, 0, 1, 1] }] },
     { idx := 0, bytes := [0, 0, 1, 1] }, _, _, _, _, _, _, by unfold engineHere; decide +kernel, rfl, rfl, rfl, rfl, rfl,
     rfl, by decide +kernel⟩,
   ⟨{ cores := [(0, { eng := [{}, {}, {}, {}, { run := some { aRun with count := 9, thread := 2 } }] })], regs := regsAt [(F.ENG_STATE_STATE (coreEng 0 4), 1), (F.CORE_PRN_DATA 0 0, 3), (F.CORE_PRN_DATA 0 8, 1)], dramBad := [(3, 1)] },
     _, 0, 4, 0, {}, { aRun with count := 9, thread := 2 }, _, _, _, by unfold engineHere; decide +kernel, rfl, rfl, rfl,
     rfl, by decide +kernel⟩⟩

theorem witness_HaltedListsRetry :
    (∃ (s : State) (g : EngId), engineHere s g ∧ g.ok = true ∧ s.getF (F.ENG_STATE_STATE g.regs) = 2) ∧
    (∃ (s : State) (g : EngId), (∀ p e, g = .core p e → s.coreHidden p = false) ∧ g.ok = true ∧
      s.getF (F.ENG_STATE_STATE g.regs) = 2 ∧ s.replaying = false) ∧
    (∃ (s : State) (p : Nat) (e : Nat) (r : ListRun), isCore p = true ∧ 4 ≤ e ∧ e < 8 ∧ e < (s.core p).eng.length ∧
      s.getF (F.ENG_STATE_STATE (coreEng p e)) = 2 ∧ (s.eng (.core p e)).run = some r ∧ (s.eng (.core p e)).outst = [] ∧
      s.replaying = false ∧ s.coreHidden p = false) :=
  ⟨⟨{ regs := regsAt [(F.ENG_STATE_STATE (bandEng 7 1), 2)] }, .band 7 1, by unfold engineHere; decide +kernel,
    by decide +kernel⟩,
   ⟨{ regs := regsAt [(F.ENG_STATE_STATE (coreEng 0 5), 2)] }, .core 0 5, fun _ _ h => by cases h; decide +kernel,
     by decide +kernel⟩,
   ⟨{ cores := [(0, { eng := [{}, {}, {}, {}, { run := some aRun }] })], regs := regsAt [(F.ENG_STATE_STATE (coreEng 0 4), 2)] },
     0, 4, aRun, by decide +kernel⟩⟩

theorem witness_SemaphoresAndTilesGateThreads :
    (∃ (s : State) (v : State) (p : Nat) (t : Nat) (line : Nat) (i : Nat), v = s.issueOp p t line ∧ isCore p = true ∧
      isThread t = true ∧ isSem i = true ∧ s.mayIssue p t line = true ∧ 0 < v.getF (F.CORE_SEM_COUNT p i)) ∧
    (∃ (s : State) (v : State) (p : Nat) (t : Nat) (line : Nat) (i : Nat), v = s.issueOp p t line ∧ isCore p = true ∧
      isThread t = true ∧ isSem i = true ∧ s.mayIssue p t line = true ∧ v.getF (F.CORE_SEM_COUNT p i) = 0 ∧
      v.lastTook p i t = none ∧ t < (v.core p).threads.length) ∧
    (∃ (s : State) (v : State) (n : Nat) (p : Nat) (g : Signal), v = s.waitUntil g.due ∧ p = v.phys g.core ∧
      signalOk (.arrive n) = true ∧ s.signals[n]? = some g ∧ g.beats = 0 ∧
      ((s.signals.take n).any fun h => h.core == g.core && h.sem == g.sem && h.item.src == g.item.src) = false ∧
      tookNow (v.core p) v.now g.sem = [] ∧ (v.core p).threads.all (fun h => h.wait == .none) = true ∧
      (v.core p).eng.all (fun h => h.waitSem == none) = true ∧
      (v.getF (F.CORE_SEM_KIND p g.sem) ≠ 0 ∨ v.getF (F.CORE_SEM_DEBT p g.sem) = 0)) ∧
    (∃ (s : State) (v : State) (p : Nat) (t : Nat) (line : Nat) (dst : Nat) (sem : Nat), v = s.issueOp p t line ∧
      signalOk (.issue p t line dst sem) = true ∧ s.mayIssue p t line = true) ∧
    (∃ (s : State) (v : State) (p : Nat) (t : Nat) (line : Nat) (e : Nat), v = s.issueOp p t line ∧ isCore p = true ∧
      isThread t = true ∧ e < 8 ∧ s.mayIssue p t line = true ∧
      v.getF (F.ENG_TILES_LANDED (coreEng p e)) ≠ v.getF (F.ENG_TILES_CONSUMED (coreEng p e)) ∧
      t < (v.core p).threads.length) ∧
    (∃ (s : State) (v : State) (p : Nat) (t : Nat) (line : Nat) (e : Nat), v = s.issueOp p t line ∧ isCore p = true ∧
      isThread t = true ∧ e < 8 ∧ s.mayIssue p t line = true ∧
      v.getF (F.ENG_TILES_LANDED (coreEng p e)) = v.getF (F.ENG_TILES_CONSUMED (coreEng p e)) ∧
      t < (v.core p).threads.length) ∧
    (∃ (s : State) (v : State) (p : Nat) (t : Nat) (line : Nat) (e : Nat), v = s.issueOp p t line ∧ isCore p = true ∧
      isThread t = true ∧ e < 8 ∧ s.mayIssue p t line = true) ∧
    (∃ (s : State) (v : State) (p : Nat) (t : Nat) (line : Nat), v = s.issueOp p t line ∧ isCore p = true ∧
      isThread t = true) :=
  ⟨⟨{ cores := [(0, ready)], regs := regsAt [(F.CORE_SEM_COUNT 0 63, 1)] }, _, 0, 0, 0, 63, rfl, by decide +kernel⟩,
   ⟨{ cores := [(0, ready)] }, _, 0, 0, 0, 63, rfl, by decide +kernel⟩,
   ⟨{ signals := [{ core := 63, sem := 5 }] }, _, 0, _, { core := 63, sem := 5 }, rfl, rfl, by decide +kernel⟩,
   ⟨{ cores := [(0, ready)] }, _, 0, 0, 0, 63, 63, rfl, by decide +kernel⟩,
   ⟨{ cores := [(0, ready)], regs := regsAt [(F.ENG_TILES_LANDED (coreEng 0 7), 1)] }, _, 0, 0, 0, 7, rfl,
     by decide +kernel⟩,
   ⟨{ cores := [(0, ready)] }, _, 0, 0, 0, 7, rfl, by decide +kernel⟩,
   ⟨{ cores := [(0, ready)] }, _, 0, 0, 0, 0, rfl, by decide +kernel⟩,
   ⟨State.reset, _, 0, 0, 0, rfl, by decide +kernel⟩⟩

theorem witness_FabricTransfersArriveAndBarriersComplete :
    (∃ (s : State) (v : State) (m : Mcast) (ms : List Mcast) (r : ListRun) (dr : DescRun) (d : Desc) (q : State × Bool),
      v = s.waitUntil m.due ∧ d = Desc.parse dr.bytes ∧
      q = (v.mcastTargets d).foldl (fun (a : State × Bool) l => ((a.1.bgTurn (a.1.phys l)
      (a.1.remoteWrites m.eng d r.base m.desc m.k l) false).1, a.2 && (a.1.bgTurn (a.1.phys l)
      (a.1.remoteWrites m.eng d r.base m.desc m.k l) false).2)) (v, true) ∧ s.fab.mcasts = m :: ms ∧
      ((s.xferDesc m.eng m.desc).bind fun x => s.sourceBad m.eng (Desc.parse x.2.bytes) x.1.base m.desc m.k) = none ∧
      v.xferDesc m.eng m.desc = some (r, dr) ∧ q.2 = true) ∧
    (∃ (s : State) (m : Mcast) (ms : List Mcast), s.fab.mcasts = m :: ms ∧ s.xferDesc m.eng m.desc = none) ∧
    (∃ (s : State) (n : Nat) (m : Remote), s.remotes[n]? = some m ∧ s.xferDesc m.eng m.desc = none) ∧
    (∃ (s : State) (v : State) (u : State) (n : Nat) (due : Nat) (p : Nat) (busy : Bool) (m : Remote) (r : ListRun)
      (dr : DescRun) (d : Desc) (q : State × Bool) (closed : Bool) (role : Bool), d = Desc.parse dr.bytes ∧
      due = max (max m.due ((((s.eng m.eng).outst.find? fun t => t.desc == m.desc && t.k == m.k).map (·.after)).getD 0))
      (SMap.get 0 s.fab.inFree (s.phys m.dst)) ∧ v = s.waitUntil due ∧ q = v.bgTurn (s.phys m.dst)
      (v.remoteWrites m.eng d r.base m.desc m.k m.dst) busy ∧
      u = { q.1 with remotes := s.remotes.eraseIdx n, fab := { s.fab with inFree := SMap.set 0 s.fab.inFree (s.phys m.dst) (v.now + 1) } } ∧
      p = (u.dstPrn m.eng d m.dst).2 ∧ s.remotes[n]? = some m ∧ s.xferDesc m.eng m.desc = some (r, dr) ∧ m.beats = 0 ∧
      olderRemote s.remotes n m.dst (max s.now due) = false ∧ s.sourceBad m.eng d r.base m.desc m.k = none ∧ q.2 = true ∧
      u.windowClosed p d.dst (match m.eng with | .core q _ => (u.logical q).getD 0 | .band b _ => 8 * b) r.tagFrame r.tag = (closed,
      role)) ∧
    (∃ (s : State) (v : State) (p : Nat) (t : Nat) (line : Nat) (g : Nat) (l : Nat) (b : BarrierSt), (∀ i,
      (s.threadClause p t).bind s.sched.fcIndex = some i → ((s.fc.getD i {}).run.map (·.failed)).getD false = false) ∧
      v = s.issueOp p t line ∧ b = SMap.get {} s.fab.barriers g ∧ isCore p = true ∧ isThread t = true ∧ g < 8 ∧
      s.logical p = some l ∧ s.mayIssue p t line = true ∧ s.isLineThread p t = false ∧
      bit (s.sched.barriers.getD g 0) l = true ∧ t < (s.core p).threads.length ∧ SMap.get 0 b.ahead l = 0) ∧
    (∃ (s : State) (v : State) (p : Nat) (t : Nat) (line : Nat) (g : Nat) (l : Nat) (i : Nat) (b : BarrierSt),
      v = s.issueOp p t line ∧ b = SMap.get {} s.fab.barriers g ∧ isCore p = true ∧ isThread t = true ∧ g < 8 ∧
      s.logical p = some l ∧ s.mayIssue p t line = true ∧ s.isLineThread p t = false ∧
      bit (s.sched.barriers.getD g 0) l = true ∧ (s.threadClause p t).bind s.sched.fcIndex = some i ∧
      ((s.fc.getD i {}).run.map (·.failed)).getD false = true ∧ SMap.get 0 b.ahead l = 0) ∧
    (∃ (s : State) (g : Nat) (at_ : Nat), g < 8 ∧ (SMap.get {} s.fab.barriers g).lastAt = some at_) :=
  ⟨⟨{ cores := [(0, { eng := [{ run := some { aRun with buf := [{ idx := 0, bytes := [0, 0, 1, 9] ++ List.replicate 16 0 ++ [3] }] } }] })], regs := regsAt [(F.CORE_PRN_DATA 0 0, 3), (F.CORE_PRN_DATA 0 8, 1)], fab := { mcasts := [⟨.core 0 0, 0, 0, 0, 64, 9⟩] } },
    _, ⟨.core 0 0, 0, 0, 0, 64, 9⟩, [],
    { aRun with buf := [{ idx := 0, bytes := [0, 0, 1, 9] ++ List.replicate 16 0 ++ [3] }] },
    { idx := 0, bytes := [0, 0, 1, 9] ++ List.replicate 16 0 ++ [3] }, _, _, rfl, rfl, rfl, by decide +kernel⟩,
   ⟨{ fab := { mcasts := [⟨.core 0 0, 0, 0, 0, 64, 9⟩] } }, ⟨.core 0 0, 0, 0, 0, 64, 9⟩, [], by decide +kernel⟩,
   ⟨{ remotes := [⟨.core 0 0, 0, 0, 0, 5, 0, 0⟩] }, 0, ⟨.core 0 0, 0, 0, 0, 5, 0, 0⟩, by decide +kernel⟩,
   ⟨{ cores := [(0, { eng := [{ run := some { aRun with buf := [{ idx := 0, bytes := [0, 0, 1, 1] }] } }] })], regs := regsAt [(F.CORE_PRN_DATA 0 0, 3), (F.CORE_PRN_DATA 0 8, 1)], remotes := [⟨.core 0 0, 0, 0, 0, 5, 0, 0⟩] },
     _, _, 0, _, _, false, ⟨.core 0 0, 0, 0, 0, 5, 0, 0⟩, { aRun with buf := [{ idx := 0, bytes := [0, 0, 1, 1] }] },
     { idx := 0, bytes := [0, 0, 1, 1] }, _, _, true, false, rfl, rfl, rfl, rfl, rfl, rfl, by decide +kernel⟩,
   ⟨{ cores := [(0, ready)], regs := regsAt [(F.CORE_THREAD_FWIN 0, 1)], sched := { barriers := [1] } }, _, 0, 2, 0, 0, 0,
     _, by intro i h; exact absurd (show (none : Option Nat) = some i from h) (by simp), rfl, rfl, by decide +kernel⟩,
   ⟨{ cores := [(0, ready)], regs := regsAt [(F.CORE_THREAD_FWIN 0, 1)], sched := { clauses := [⟨0, true, false, 0, 1, 1, 0, 0, 0, 0, 0, 1, 0, 0, [], 0⟩], barriers := [1] }, fc := [{ run := some { inFrame := 0, due := 0, failed := true } }] },
     _, 0, 2, 0, 0, 0, 0, _, rfl, rfl, by decide +kernel⟩,
   ⟨{ fab := { barriers := [(7, { arrived := [(0, 1)], lastAt := some 4 })] } }, 7, 4, by decide +kernel⟩⟩

theorem witness_SnapshotsAreArmedCopiedAndEnded :
    (∃ (s : State) (u : State) (bands : BitVec 8) (spad : Bool) (ls : Bool), u = s.setFs [(F.FAB_SNAP_CTRL_BANDS,
      bands.toNat), (F.FAB_SNAP_CTRL_SPAD, b2n spad), (F.FAB_SNAP_CTRL_LS, b2n ls)] ∧ s.replaying = false ∧
      u.snapReason = 0) ∧
    (∃ (s : State) (u : State) (bands : BitVec 8) (spad : Bool) (ls : Bool), u = s.setFs [(F.FAB_SNAP_CTRL_BANDS,
      bands.toNat), (F.FAB_SNAP_CTRL_SPAD, b2n spad), (F.FAB_SNAP_CTRL_LS, b2n ls)] ∧ s.replaying = false ∧
      u.snapReason ≠ 0) ∧
    (∃ (s : State), s.replaying = false ∧ s.getF F.FAB_SNAP_STATUS_STATE = 1) ∧
    (∃ (s : State), s.replaying = false ∧ s.getF F.FAB_SNAP_STATUS_STATE ≠ 1) ∧
    (∃ (s : State), s.getF F.FAB_SNAP_STATUS_STATE = 1 ∧ s.fab.snap.stopped = true ∧ (∀ b,
      b < 8 → bit s.fab.snap.bands b = true → s.bandQuiet b = true)) ∧
    (∃ (s : State), s.getF F.FAB_SNAP_STATUS_STATE = 2 ∧ s.fab.snap.left = 0) :=
  ⟨⟨{ regs := regsAt [(F.CAL_LP_LP, 512 * 8 * 65536), (F.FAB_SNAP_DEST_HI_DEST_HI, 16), (F.CAL_VLIMITS_VT_MAX, 10), (F.FAB_SNAP_LINE_LINE, 9)] },
    _, 1, true, true, rfl, by decide +kernel⟩,
   ⟨State.reset, _, 1, true, true, rfl, by decide +kernel⟩,
   ⟨{ regs := regsAt [(F.FAB_SNAP_STATUS_STATE, 1)] }, by decide +kernel⟩,
   ⟨{ regs := regsAt [(F.FAB_SNAP_STATUS_STATE, 2)] }, by decide +kernel⟩,
   ⟨{ fab := { snap := { stopped := true, bands := 1 } }, regs := regsAt [(F.FAB_SNAP_STATUS_STATE, 1)] },
     by decide +kernel⟩,
   ⟨{ regs := regsAt [(F.FAB_SNAP_STATUS_STATE, 2)] }, by decide +kernel⟩⟩

theorem witness_HandoversAreCarriedOut :
    (∃ (s : State) (b : Nat) (at_ : Nat) (h : Handover), isBand b = true ∧ s.fab.handovers.getD b none = some h ∧
      s.interval = some at_ ∧ h.carried = false ∧ h.decided + msCycles 1 ≤ at_ ∧ s.change = none ∧ s.gated b = false) :=
  ⟨{ cal := { running := true, vTot := some 100, t0 := 2000000 }, regs := regsAt [(F.CAL_LP_LP, 65536000)], fab := { handovers := [some ⟨0, 8, true, 5, 0, false⟩] } },
    0, 2000000, ⟨0, 8, true, 5, 0, false⟩, by decide +kernel⟩

theorem witness_WindowsOpenAndClose :
    (∃ (s : State) (i : Nat) (b : Nat) (k : Nat), s.due i 3 = true ∧ b < s.nBands ∧ bit (s.entry i).bands b = true ∧
      k < 8 ∧ bit (s.entry i).cores k = true ∧ s.active (s.phys (8 * b + k)) = true ∧
      s.getF (F.CORE_THREAD_MWIN (s.phys (8 * b + k))) = 0) ∧
    (∃ (s : State) (i : Nat) (b : Nat) (k : Nat), s.due i 4 = true ∧ b < s.nBands ∧ bit (s.entry i).bands b = true ∧
      k < 8 ∧ bit (s.entry i).cores k = true) ∧
    (∃ (s : State) (i : Nat) (bad : List Nat), bad.all isEntry = true ∧ s.due i 7 = true ∧
      s.msetSample = some (s.entry i).arg ∧ (s.entry i).arg ≠ s.getF F.CAL_MSET_MSET_CUR ∧ s.mwinEnd = none) ∧
    (∃ (s : State) (at_ : Nat), s.mwinEnd = some at_) :=
  ⟨⟨atEntry 3 0 {}, 0, 7, 7, by decide +kernel⟩,
   ⟨atEntry 4 0 {}, 0, 0, 0, by decide +kernel⟩,
   ⟨{ atEntry 7 1 {} with msetSample := some 1 }, 0, [63], by decide +kernel⟩,
   ⟨{ mwinEnd := some 5 }, 5, by decide +kernel⟩⟩

theorem witness_SchedulesChangeAsDecided :
    (∃ (s : State) (u : State) (v : Word), u = s.setF F.CAL_MODE_MODE_REQ (bits v.toNat 0 3) ∧ s.replaying = false ∧
      s.getF F.DEV_BOOT_COMPLETE = 1 ∧ u.modeReady = false ∧ s.changeWaits = false) ∧
    (∃ (s : State) (u : State) (v : Word), u = s.setF F.CAL_MODE_MODE_REQ (bits v.toNat 0 3) ∧ s.replaying = false ∧
      s.getF F.DEV_BOOT_COMPLETE = 1 ∧ u.modeReady = true ∧ u.poweringUp = false ∧ s.cal.running = true ∧
      bits v.toNat 0 3 ≠ s.getF F.CAL_MODE_MODE_CUR ∧ s.change = none) ∧
    (∃ (s : State) (u : State) (v : Word) (c : SchedChange), u = s.setF F.CAL_MODE_MODE_REQ (bits v.toNat 0 3) ∧
      s.replaying = false ∧ s.getF F.DEV_BOOT_COMPLETE = 1 ∧ s.change = some c ∧ c.installed = false) ∧
    (∃ (s : State) (c : SchedChange) (at_ : Nat) (v : Nat), s.change = some c ∧ c.installed = false ∧
      s.interval = some at_ ∧ c.decidedAt < at_ ∧ s.cal.vTot = some v) :=
  ⟨⟨{ regs := regsAt [(F.DEV_BOOT_COMPLETE, 1)] }, _, 1, rfl, by decide +kernel⟩,
   ⟨{ regs := regsAt [(F.DEV_BOOT_COMPLETE, 1)], cal := { running := true }, prog := { modes := [⟨7, 0, 64, 4, 6, 5, 7, 65536, 0, 1, [0]⟩] } },
     _, 7, rfl, by decide +kernel⟩,
   ⟨{ regs := regsAt [(F.DEV_BOOT_COMPLETE, 1)], change := some { decidedAt := 5, mode := 0, sched := 0, bucket := 0 } },
     _, 7, { decidedAt := 5, mode := 0, sched := 0, bucket := 0 }, rfl, by decide +kernel⟩,
   ⟨{ cal := { running := true, vTot := some 100, t0 := 2000000 }, regs := regsAt [(F.CAL_LP_LP, 65536000)], change := some { decidedAt := 5, mode := 0, sched := 0, bucket := 0 } },
     { decidedAt := 5, mode := 0, sched := 0, bucket := 0 }, 2000000, 100, by decide +kernel⟩⟩

theorem witness_WarpAndBoxUnitsWriteTheirRows :
    (∃ (s : State) (b : Nat) (w : WarpSt) (q : FrameCtx) (r : Prn), r = s.bprn b s.sched.rt.warpPrn ∧ isBand b = true ∧
      s.warp[b]? = some w ∧ w.ctx = some q ∧ s.sched.rt.lag ≠ 0 ∧ r.place = 2 ∧ s.lsReady b r w.next = true ∧
      s.bandStopped b = false ∧ (r.cons ≠ 0 ∨ r.fb = true)) ∧
    (∃ (s : State) (b : Nat) (w : WarpSt) (q : FrameCtx) (r : Prn), r = s.bprn b s.sched.rt.warpPrn ∧ isBand b = true ∧
      s.warp[b]? = some w ∧ w.ctx = some q ∧ s.sched.rt.lag ≠ 0 ∧ r.place = 2 ∧
      (s.lsReady b r w.next = false ∨ s.bandStopped b = true)) ∧
    (∃ (s : State) (d : DetRec) (r : FcRun), s.sched.det = some d ∧ (s.fc.getD d.clause {}).run = some r ∧
      r.failed = false ∧ r.boxDone = false ∧ s.box = none ∧ (∀ l, l < s.nCores → r.cores.contains l = true) ∧
      s.memBad 3 0 (s.prn (s.phys 0) d.headPrn).base (s.prn (s.phys 0) d.headPrn).size = false) ∧
    (∃ (s : State) (b : BoxRun) (d : DetRec) (r : FcRun), s.sched.det = some d ∧ s.box = some b ∧
      (s.fc.getD b.clause {}).run = some r ∧ r.failed = false) :=
  ⟨⟨{ regs := regsAt [(F.BAND_PRN_DATA 0 0, 2), (F.BAND_PRN_DATA 0 5, 65536)], sched := { rtRaw := [1] }, warp := [{ ctx := some {} }] },
    0, { ctx := some {} }, {}, _, rfl, by decide +kernel⟩,
   ⟨{ regs := regsAt [(F.BAND_PRN_DATA 0 0, 2), (F.BAND_PRN_DATA 0 5, 65536)], sched := { rtRaw := [1] }, warp := [{ ctx := some {} }], bands := [(0, { slots := [(0, { present := true })] })] },
     0, { ctx := some {} }, {}, _, rfl, by decide +kernel⟩,
   ⟨{ sched := { detRaw := some [] }, fc := [{ run := some { inFrame := 0, due := 1, cores := List.range 64 } }] }, _,
     { inFrame := 0, due := 1, cores := List.range 64 }, rfl, by decide +kernel⟩,
   ⟨{ sched := { detRaw := some [] }, fc := [{ run := some { inFrame := 0, due := 1 } }], box := some { clause := 0, done := 9, boxes := [], cands := 0, ovf := false, trunc := false, cycles := 9 } },
     { clause := 0, done := 9, boxes := [], cands := 0, ovf := false, trunc := false, cycles := 9 }, _,
     { inFrame := 0, due := 1 }, rfl, by decide +kernel⟩⟩

theorem witness_DrizzleStepsStartAndAdvance :
    (∃ (s : State) (g : Grab) (rest : List Grab), s.drz.grabs = g :: rest) ∧
    (∃ (s : State) (b : DrzBind) (q : DrzQ) (rest : List DrzQ) (e : Nat), s.drzBind = some b ∧ s.drz.steps = [] ∧
      s.drz.queue = q :: rest ∧ s.stepRoom = true ∧ s.stepE q = some e ∧ e ≠ 0) ∧
    (∃ (s : State) (l : Nat) (b : DrzBind) (st : DrzStep), s.drzBind = some b ∧ isLogical l = true ∧
      (s.drz.steps.find? fun t => t.selected && !t.ended.contains l) = some st ∧ l < s.nCores ∧
      SMap.get 0 st.aug l < b.spc) ∧
    (∃ (s : State) (u : State) (p : Nat) (i : Nat) (l : Nat) (w : CoreIn) (b : DrzBind) (st : DrzStep) (g : GradDesc)
      (d : LayerDesc) (gr : Prn) (r : List Int × Cnt × State × Bool), s.drzBind = some b ∧ s.gradDescs[i]? = some g ∧
      u = ((s.awaitUnit p 3 .array).rotate p 3).setThreadState p 3 1 ∧ d = u.sched.layer l g.layer ∧ gr = u.prn p g.gPrn ∧
      r = u.gradRun p d (u.sched.mapRec l d) g (SMap.get default (u.core p).cbs u.drzRec.gSlot) w.ecc ∧ isCore p = true ∧
      coreInOk w = true ∧ s.logical p = some l ∧ s.drz.steps.head? = some st ∧ i < b.ngd ∧
      s.mayIssue p 3 s.cal.line = true ∧ s.threadClause p 3 = s.sched.drzClause ∧ st.ended.contains l = false ∧
      s.grantsThread p 3 w.rivals = true ∧
      besideConflict 0 (fun a => inTensor (u.prn p g.xPrn) a || inTensor gr a) w.beside = none ∧
      stepFaults false false ([d.inCb,
      u.drzRec.gSlot].any fun x => (u.core p).cbBusy.any fun y => y.1 == x && decide (u.now < y.2)) w.store false r.2.2.2 = []) ∧
    (∃ (s : State) (p : Nat) (i : Nat) (l : Nat) (w : CoreIn) (b : DrzBind) (st : DrzStep) (g : GradDesc),
      s.drzBind = some b ∧ s.gradDescs[i]? = some g ∧ isCore p = true ∧ coreInOk w = true ∧ s.logical p = some l ∧
      s.drz.steps.head? = some st ∧ i < b.ngd ∧ s.mayIssue p 3 s.cal.line = true ∧ s.threadClause p 3 = s.sched.drzClause ∧
      st.ended.contains l = false ∧ s.grantsThread p 3 w.rivals = false) :=
  ⟨⟨{ drz := { grabs := [⟨0, 1, {}, 0, false⟩] } }, ⟨0, 1, {}, 0, false⟩, [], by decide +kernel⟩,
   ⟨{ sched := { bindRaw := some [] }, prog := { msets := [{ t := 1 }] }, drz := { on := true, queue := [⟨0, 0, false, false, 0, 0⟩], log := [(0, 5)] } },
     _, ⟨0, 0, false, false, 0, 0⟩, [], 5, rfl, by decide +kernel⟩,
   ⟨{ sched := { bindRaw := some [0, 1] }, drz := { steps := [aStep] } }, 63, _, aStep, rfl, by decide +kernel⟩,
   ⟨{ cores := [(0, ready)], regs := regsAt [(F.CORE_THREAD_FWIN 0, 1)], sched := { clauses := [⟨0, true, false, 0, 1, 1, 0, 0, 0, 0, 0, 1, 0, 0, [], 0⟩], bindRaw := some [0, 1, 0, 0, 0, 0, 0, 1], grads := [[]] }, drz := { steps := [aStep] } },
     _, 0, 0, 0, {}, _, aStep, _, _, _, _, rfl, rfl, rfl, rfl, rfl, rfl, by decide +kernel⟩,
   ⟨{ cores := [(0, ready)], regs := regsAt [(F.CORE_THREAD_FWIN 0, 1)], sched := { clauses := [⟨0, true, false, 0, 1, 1, 0, 0, 0, 0, 0, 1, 0, 0, [], 0⟩], bindRaw := some [0, 1, 0, 0, 0, 0, 0, 1], grads := [[]] }, drz := { steps := [aStep] } },
     0, 0, 0, { rivals := [0] }, _, aStep, _, rfl, rfl, by decide +kernel⟩⟩

theorem witness_DrizzleStepsEndAndCommit :
    (∃ (s : State) (p : Nat) (l : Nat) (sems : List Nat) (b : DrzBind) (st : DrzStep), s.drzBind = some b ∧
      isCore p = true ∧ sems.all isSem = true ∧ s.logical p = some l ∧ s.drz.steps.head? = some st ∧
      s.threadClause p 3 = s.sched.drzClause ∧ s.threadClause p 3 ≠ none ∧ s.drained p 3 [] = true ∧
      st.ended.contains l = false ∧ (∀ i, i < b.ngd → (SMap.get [] st.grads l).contains i = true)) ∧
    (∃ (s : State) (b : DrzBind) (st : DrzStep) (later : List DrzStep), s.drzBind = some b ∧ s.drz.steps = st :: later ∧
      s.nCores ≤ st.ended.length) ∧
    (∃ (s : State) (c : DrzCommit), s.drz.commit = some c ∧ c.buf = none ∧ s.drz.reset = false ∧ s.drz.switched = false ∧
      (s.drz.steps.any fun t => t.q.buf == 1 - s.drzSet.buf && t.q.version != s.drzSet.version) = false) ∧
    (∃ (s : State) (c : DrzCommit), s.drz.commit = some c ∧ c.buf ≠ none ∧ c.ready = false) :=
  ⟨⟨{ cores := [(0, ready)], regs := regsAt [(F.CORE_THREAD_FWIN 0, 1)], sched := { clauses := [⟨0, true, false, 0, 1, 1, 0, 0, 0, 0, 0, 1, 0, 0, [], 0⟩], bindRaw := some [0, 1, 0, 0, 0, 0, 0, 1], grads := [[]] }, drz := { steps := [{ aStep with grads := [(0, [0])] }] } },
    0, 0, [63], _, { aStep with grads := [(0, [0])] }, rfl, by decide +kernel⟩,
   ⟨{ sched := { bindRaw := some [] }, drz := { steps := [{ aStep with ended := List.range 64 }] } }, _,
     { aStep with ended := List.range 64 }, [], rfl, by decide +kernel⟩,
   ⟨{ drz := { commit := some { due := 4, live := [] }, steps := [aStep] } }, { due := 4, live := [] }, by decide +kernel⟩,
   ⟨{ drz := { commit := some { due := 4, live := [], buf := some 1 } } }, { due := 4, live := [], buf := some 1 },
     by decide +kernel⟩⟩

theorem witness_DrizzleIsEnabledDisabledAndReset :
    (∃ (s : State), s.replaying = false ∧ bit (s.word 0xC0000) 1 = false) ∧
    (∃ (s : State), s.replaying = false ∧ bit (s.word 0xC0000) 1 = false) ∧
    (∃ (s : State), s.replaying = false ∧ bit (s.word 0xC0000) 1 = false) :=
  ⟨⟨State.reset, by decide +kernel⟩,
   ⟨State.reset, by decide +kernel⟩,
   ⟨{ prog := { msets := [{ t := 1 }] } }, by decide +kernel⟩⟩

theorem witness_SamplesAreTaken :
    (∃ (s : State), s.getF F.SNS_CFG_EN ≠ 0) ∧
    (∃ (s : State), s.getF F.SNS_CFG_EN = 0) ∧
    (∃ (s : State) (i : Nat) (t0 : Nat) (x : BusXfer), readsNext s i t0 ∧
      x = s.busXfer i (max (s.sensorDue t0 i) s.busFree) none ∧ s.pstate ≠ 2 ∧
      s.busFree < s.sensorDue t0 i + s.sensorPeriod i) ∧
    (∃ (s : State) (i : Nat) (t0 : Nat), readsNext s i t0 ∧ s.pstate ≠ 2 ∧
      s.busFree < s.sensorDue t0 i + s.sensorPeriod i) ∧
    (∃ (s : State) (i : Nat) (t0 : Nat), readsNext s i t0 ∧ s.pstate ≠ 2 ∧
      s.sensorDue t0 i + s.sensorPeriod i ≤ s.busFree) ∧
    (∃ (s : State) (i : Nat) (t0 : Nat), readsNext s i t0 ∧ s.pstate = 2) ∧
    (∃ (s : State) (i : Nat) (t0 : Nat), i < 8 ∧ s.sns.assigned = some t0 ∧ s.readsFirst t0 i = false) ∧
    (∃ (temps : List Int) (v12 : Nat) (i12 : Nat) (vcore : Nat), temps.length = 10 ∧ temps.all isTemp = true ∧
      isMilli v12 = true ∧ isMilli i12 = true ∧ isMilli vcore = true) :=
  ⟨⟨{ regs := regsAt [(F.SNS_CFG_EN, 1), (F.SNS_ENTRY_DATA 28, 0x100), (F.SNS_ENTRY_DATA 30, 1)], sns := { assigned := some 0 } },
    by decide +kernel⟩,
   ⟨State.reset, by decide +kernel⟩,
   ⟨{ regs := regsAt [(F.SNS_CFG_EN, 1), (F.SNS_ENTRY_DATA 28, 0x100), (F.SNS_ENTRY_DATA 30, 1)], sns := { assigned := some 0 } },
     7, 0, _, by unfold readsNext; decide +kernel, rfl, by decide +kernel⟩,
   ⟨{ regs := regsAt [(F.SNS_CFG_EN, 1), (F.SNS_ENTRY_DATA 28, 0x100), (F.SNS_ENTRY_DATA 30, 1)], sns := { assigned := some 0 } },
     7, 0, by unfold readsNext; decide +kernel, by decide +kernel⟩,
   ⟨{ now := 255000, regs := regsAt [(F.SNS_CFG_EN, 1), (F.SNS_ENTRY_DATA 28, 0x100), (F.SNS_ENTRY_DATA 30, 1)], sns := { assigned := some 0, last := some ⟨0, false, 0, 0, 0, 0, 10000000⟩ } },
     7, 0, by unfold readsNext; decide +kernel, by decide +kernel⟩,
   ⟨{ pstate := 2, regs := regsAt [(F.SNS_CFG_EN, 1), (F.SNS_ENTRY_DATA 28, 0x100), (F.SNS_ENTRY_DATA 30, 1)], sns := { assigned := some 0 } },
     7, 0, by unfold readsNext; decide +kernel, by decide +kernel⟩,
   ⟨{ regs := regsAt [(F.SNS_CFG_EN, 1), (F.SNS_ENTRY_DATA 24, 0x100), (F.SNS_ENTRY_DATA 26, 1), (F.SNS_ENTRY_DATA 28, 0x100), (F.SNS_ENTRY_DATA 30, 1)], sns := { assigned := some 0 } },
     7, 0, by decide +kernel⟩,
   ⟨List.replicate 10 (-32768), 12000, 65535, 0, by decide +kernel⟩⟩

theorem witness_StripesAreSentOrFilled :
    (∃ (s : State) (k : Packet), s.pnl.pkt = some k ∧ s.pnlState = 2) ∧
    (∃ (s : State) (x : Nat) (k : Packet), s.pnl.pkt = some k ∧ s.pnlState = 2 ∧
      s.blockFrom (max x (100 * s.now)) = s.pnl.block ∧ stripeCount s.pfmt (s.modeOf k.frame).w s.lanes ≤ k.next) ∧
    (∃ (s : State) (x : Nat) (k : Packet), s.pnl.pkt = some k ∧ s.pnlState = 2 ∧
      s.blockFrom (max x (100 * s.now)) = s.pnl.block ∧ k.next < stripeCount s.pfmt (s.modeOf k.frame).w s.lanes ∧
      (s.cmp.lines.find? fun c => c.frame == k.frame && c.y == k.y) = none) ∧
    (∃ (s : State) (x : Nat) (k : Packet) (c : CompLine), s.pnl.pkt = some k ∧ s.pnlState = 2 ∧
      s.blockFrom (max x (100 * s.now)) = s.pnl.block ∧ k.next < stripeCount s.pfmt (s.modeOf k.frame).w s.lanes ∧
      (s.cmp.lines.find? fun c => c.frame == k.frame && c.y == k.y) = some c ∧
      100 * (c.start + 6 + ceilDiv (min (s.modeOf k.frame).w (ceilDiv (8 * min (payloadLen s.pfmt (s.modeOf k.frame).w)
      (8 * s.lanes * (k.next + 1))) (3 * pfmtBits s.pfmt))) 8) ≤ s.blockStart s.pnl.block) :=
  ⟨⟨{ pnl := { pkt := some { frame := 0, y := 0 } }, regs := regsAt [(F.PNL_STATUS_STATE, 2)], prog := { modes := [⟨0, 0, 64, 4, 6, 5, 7, 65536, 0, 1, []⟩] } },
    { frame := 0, y := 0 }, by decide +kernel⟩,
   ⟨{ pnl := { pkt := some { frame := 0, y := 0, next := 1 } }, regs := regsAt [(F.PNL_STATUS_STATE, 2)], prog := { modes := [⟨0, 0, 1, 4, 6, 5, 7, 65536, 0, 1, []⟩] } },
     0, { frame := 0, y := 0, next := 1 }, by decide +kernel⟩,
   ⟨{ pnl := { pkt := some { frame := 0, y := 0 } }, regs := regsAt [(F.PNL_STATUS_STATE, 2)], prog := { modes := [⟨0, 0, 64, 4, 6, 5, 7, 65536, 0, 1, []⟩] } },
     0, { frame := 0, y := 0 }, by decide +kernel⟩,
   ⟨{ pnl := { block := 1000, pkt := some { frame := 0, y := 0 } }, regs := regsAt [(F.PNL_STATUS_STATE, 2)], prog := { modes := [⟨0, 0, 64, 4, 6, 5, 7, 65536, 0, 1, []⟩] }, cmp := { lines := [⟨0, 0, 0, [], false⟩] } },
     0, { frame := 0, y := 0 }, ⟨0, 0, 0, [], false⟩, by decide +kernel⟩⟩

theorem witness_PanelTrainsRetrainsAndIsMadeSafe :
    (∃ (s : State), s.mayTrain = true ∧ (s.pnlState = 0 ∨ s.pnlState = 4)) ∧
    (∃ (s : State), s.pnlState = 1 ∧ max s.now s.runFrom < s.pnl.trainAt + msCycles 10) ∧
    (∃ (s : State), s.pnlState = 1) ∧
    (∃ (s : State), (∀ n, s.pnl.retrained ≠ some (s.now, n)) ∧ s.pnlState = 2) ∧
    (∃ (s : State), s.pnlState ≠ 2) ∧
    (∃ (s : State), (∀ n, s.pnl.retrained ≠ some (s.now, n)) ∧ s.replaying = false ∧ s.getF F.DEV_BOOT_COMPLETE = 1 ∧
      bit (s.word 0x40004) 0 = true ∧ bit (s.word 0x40004) 1 = false ∧ (s.pnlState = 1 ∨ s.pnlState = 2)) ∧
    (∃ (s : State), s.replaying = false ∧ s.getF F.DEV_BOOT_COMPLETE = 1 ∧ s.pnlState = 0) ∧
    (∃ (s : State), s.replaying = false ∧ s.getF F.DEV_BOOT_COMPLETE = 1 ∧ s.pnlState = 3 ∧
      s.getF F.PNL_STATUS_SAFE_CAUSE = 2 ∧ s.pnl.safeTo ≠ none ∧ s.pstate ≠ 2) ∧
    (∃ (s : State), s.replaying = false ∧ s.getF F.DEV_BOOT_COMPLETE = 1 ∧ s.getF F.PNL_CTRL_EN = 1 ∧ s.pnlState ≠ 3) ∧
    (∃ (s : State) (at_ : Nat), s.pnl.safeTo = some at_ ∧ s.pnl.resume = true) ∧
    (∃ (s : State) (at_ : Nat), s.pnl.safeTo = some at_ ∧ s.pnl.resume = false) :=
  ⟨⟨{ regs := regsAt [(F.PNL_STATUS_STATE, 4), (F.DEV_BOOT_COMPLETE, 1), (F.PNL_CTRL_EN, 1)] }, by decide +kernel⟩,
   ⟨{ regs := regsAt [(F.PNL_STATUS_STATE, 1)] }, by decide +kernel⟩,
   ⟨{ regs := regsAt [(F.PNL_STATUS_STATE, 1)] }, by decide +kernel⟩,
   ⟨{ regs := regsAt [(F.PNL_STATUS_STATE, 2)] }, (by intro n h; cases h), by decide +kernel⟩,
   ⟨{ regs := regsAt [(F.PNL_STATUS_STATE, 1)] }, by decide +kernel⟩,
   ⟨{ regs := regsAt [(F.PNL_STATUS_STATE, 2), (F.DEV_BOOT_COMPLETE, 1), (F.PNL_CTRL_EN, 1)] }, (by intro n h; cases h),
     by decide +kernel⟩,
   ⟨{ regs := regsAt [(F.PNL_STATUS_STATE, 0), (F.DEV_BOOT_COMPLETE, 1)] }, by decide +kernel⟩,
   ⟨{ regs := regsAt [(F.PNL_STATUS_STATE, 3), (F.DEV_BOOT_COMPLETE, 1), (F.PNL_STATUS_SAFE_CAUSE, 2)], pnl := { safeTo := some 5 } },
     by decide +kernel⟩,
   ⟨{ regs := regsAt [(F.PNL_STATUS_STATE, 0), (F.DEV_BOOT_COMPLETE, 1), (F.PNL_CTRL_EN, 1)] }, by decide +kernel⟩,
   ⟨{ pnl := { safeTo := some 5, resume := true } }, 5, by decide +kernel⟩,
   ⟨{ pnl := { safeTo := some 5 } }, 5, by decide +kernel⟩⟩

theorem witness_LotteryFollowsTickets :
    (∃ (tk : Nat → Nat) (a : PortAsk) (b : PortAsk) (e : List PortAsk) (qs : List Nat) (sum : Nat),
      qs = (List.range 32).filter (fun q => (a :: b :: e).any fun x => x.q == q) ∧ sum = (qs.map tk).sum ∧ 0 < sum) :=
  ⟨fun _ => 4, ⟨0, 0, 0, 0, 64, false⟩, ⟨31, 0, 0, 0, 64, false⟩, [], _, _, rfl, rfl, by decide +kernel⟩

theorem witness_ChannelsServeInOrder :
    (∃ (s : State) (ch : Nat) (slot : Nat), slot = s.accessSlot ch ∧ isChan ch = true ∧ s.dramUp = true ∧
      (s.chan ch).queue ≠ []) :=
  ⟨{ regs := regsAt [(F.DRM_STATUS_TRAINED, 1)], drm := { chans := [(63, { queue := [⟨0, 64, false, 0, 0, false⟩] })] } },
    63, _, rfl, by decide +kernel⟩

theorem witness_MaintenanceScrubsAndMapsOut :
    (∃ (s : State) (ch : Nat), isChan ch = true ∧ s.dramUp = true) ∧
    (∃ (s : State) (ch : Nat) (b : Nat), isChan ch = true ∧ s.dramUp = true ∧ s.getF F.DEV_HOTPLUG_WSTOP ≠ 1 ∧
      (s.chan ch).wb = some b) ∧
    (∃ (s : State) (ch : Nat), isChan ch = true ∧ s.dramUp = true ∧ s.getF F.DRM_CFG_SCRUB_EN ≠ 0) ∧
    (∃ (s : State) (ch : Nat), isChan ch = true ∧ (s.dramUp = false ∨ s.getF F.DRM_CFG_SCRUB_EN = 0)) ∧
    (∃ (s : State) (row : Nat) (rest : List Nat), s.drm.mapQ = row :: rest ∧ s.dramUp = true ∧
      s.getF F.DEV_HOTPLUG_WSTOP ≠ 1 ∧ (s.drm.mapped.filter fun r => r / 4096 == row / 4096).length < 8 ∧
      s.led.queue.length < 64) ∧
    (∃ (s : State) (row : Nat) (rest : List Nat), s.drm.mapQ = row :: rest ∧ s.dramUp = true ∧
      s.getF F.DEV_HOTPLUG_WSTOP ≠ 1 ∧ 8 ≤ (s.drm.mapped.filter fun r => r / 4096 == row / 4096).length ∧
      s.drm.refused = []) :=
  ⟨⟨{ regs := regsAt [(F.DRM_STATUS_TRAINED, 1)] }, 63, by decide +kernel⟩,
   ⟨{ regs := regsAt [(F.DRM_STATUS_TRAINED, 1)], drm := { chans := [(63, { wb := some 7 })] } }, 63, 7, by decide +kernel⟩,
   ⟨{ regs := regsAt [(F.DRM_STATUS_TRAINED, 1)] }, 63, by decide +kernel⟩,
   ⟨State.reset, 63, by decide +kernel⟩,
   ⟨{ regs := regsAt [(F.DRM_STATUS_TRAINED, 1)], drm := { mapQ := [9], mapped := List.range 7 } }, 9, [],
     by decide +kernel⟩,
   ⟨{ regs := regsAt [(F.DRM_STATUS_TRAINED, 1)], drm := { mapQ := [9], mapped := List.range 8 } }, 9, [],
     by decide +kernel⟩⟩

theorem witness_RecordsAndLogEntriesAreWritten :
    (∃ (s : State) (r : FrameRec) (q : FrameRec) (rest : List FrameRec) (bs : List Byte), q = s.recDigests r ∧
      bs = q.bytes s.prog.digest ∧ s.aud.recQ = r :: rest ∧ q.inA ≠ none ∧ q.inB ≠ none ∧ q.vt ≠ none ∧
      s.getF F.DEV_HOTPLUG_WSTOP ≠ 1) ∧
    (∃ (s : State) (e : LogEnt) (rest : List LogEnt) (z : Nat) (n : Nat) (size : Nat) (base : Nat) (p : Nat),
      n = logBytes e.payload.length ∧ size = s.getF F.AUD_LOG_SIZE_SIZE * 0x200000 ∧
      base = (s.getF F.AUD_LOG_BASE_LO_BASE_LO / 0x200000 * 0x200000 + 2 ^ 32 * s.getF F.AUD_LOG_BASE_HI_BASE_HI) - dramBase ∧
      s.aud.buf = e :: rest ∧ s.aud.zero = some z ∧ n ≤ size ∧ (s.aud.ptr + n ≤ size ∧
      p = s.aud.ptr ∨ size < s.aud.ptr + n ∧ bit s.aud.ctrl 1 = true ∧ p = 0) ∧ s.getF F.DEV_HOTPLUG_WSTOP ≠ 1 ∧
      s.aud.lostRun = 0 ∧ s.inKind0 (dramBase + base) size = true ∧
      dramBase ≤ s.getF F.AUD_LOG_BASE_LO_BASE_LO / 0x200000 * 0x200000 + 2 ^ 32 * s.getF F.AUD_LOG_BASE_HI_BASE_HI) ∧
    (∃ (s : State) (e : LogEnt) (rest : List LogEnt) (z : Nat), s.aud.buf = e :: rest ∧ s.aud.zero = some z ∧
      s.getF F.AUD_LOG_SIZE_SIZE * 0x200000 < s.aud.ptr + logBytes e.payload.length ∧ bit s.aud.ctrl 1 = false) ∧
    (∃ (s : State), s.aud.lostRun = 0) :=
  ⟨⟨{ aud := { recQ := [aRecord] } }, aRecord, _, [], _, rfl, rfl, by decide +kernel⟩,
   ⟨{ regs := regsAt [(F.AUD_LOG_SIZE_SIZE, 1), (F.AUD_LOG_BASE_HI_BASE_HI, 16)], aud := { buf := [⟨1, false, 5, [1, 2]⟩], zero := some 0, ptr := 0x200000 - 31, ctrl := 2 } },
     ⟨1, false, 5, [1, 2]⟩, [], 0, _, _, _, 0, rfl, rfl, rfl, by decide +kernel⟩,
   ⟨{ aud := { buf := [⟨1, false, 5, [1, 2]⟩], zero := some 0 } }, ⟨1, false, 5, [1, 2]⟩, [], 0, by decide +kernel⟩,
   ⟨State.reset, by decide +kernel⟩⟩

theorem witness_ReplaysRunTheirLog :
    (∃ (s : State), s.aud.replayHold = true ∧ s.replayBad s.replayEntries = true) ∧
    (∃ (s : State), s.aud.replayHold = true ∧ s.replayBad s.replayEntries = false) ∧
    (∃ (s : State) (e : ReplayEnt), s.aud.replay = true ∧ (s.aud.replayLog.find? fun e => e.type == 4) = some e) ∧
    (∃ (s : State) (u : State) (e : ReplayEnt), u = s.waitUntil (s.replayCycle e.time) ∧ s.aud.replay = true ∧
      (s.aud.replayLog.find? fun e => e.type == 4) = some e ∧ s.now ≤ s.replayCycle e.time) ∧
    (∃ (s : State), s.aud.replay = true ∧ (s.aud.replayLog.any fun e => e.type == 4) = false) :=
  ⟨⟨{ aud := { replayHold := true } }, by decide +kernel⟩,
   ⟨{ aud := { replayHold := true }, regs := regsAt [(F.AUD_REPLAY_BASE_HI_BASE_HI, 16), (F.AUD_REPLAY_SIZE_SIZE, 1)], dram := [(2, 52)] },
     by decide +kernel⟩,
   ⟨{ aud := { replay := true, replayLog := [⟨4, false, 5, []⟩] } }, ⟨4, false, 5, []⟩, by decide +kernel⟩,
   ⟨{ aud := { replay := true, replayLog := [⟨4, false, 5, []⟩] } }, _, ⟨4, false, 5, []⟩, rfl, by decide +kernel⟩,
   ⟨{ aud := { replay := true } }, by decide +kernel⟩⟩

theorem witness_FramesAreTakenFromTheLink :
    (∃ (s : State), s.getF F.TPL_LINK_STATE ≠ 2 ∧ s.boot.done.contains 1 = true) ∧
    (∃ (s : State), s.getF F.TPL_LINK_STATE = 2) ∧
    (∃ (s : State) (f : List Byte) (fcs : Bool), s.linkUp = true ∧ (fcs = false ∨ openFrame s.mac f = none)) ∧
    (∃ (s : State) (f : List Byte) (mac : List Byte) (ip : List Byte) (dst : List Byte) (pkt : List Byte) (m : List Byte)
      (next : Nat) (port : Nat) (r : Req), r = { mac := mac, ip := ip, port := port, msg := m } ∧ s.linkUp = true ∧
      openFrame s.mac f = some (mac, ip, dst, next, pkt) ∧ askOf s.mac (mac, ip, dst, next,
      pkt) = some (.datagram port m) ∧ 16 ≤ m.length ∧ m.take 2 = toLe 2 0x5054) ∧
    (∃ (s : State) (f : List Byte) (mac : List Byte) (ip : List Byte) (dst : List Byte) (pkt : List Byte) (next : Nat),
      s.linkUp = true ∧ openFrame s.mac f = some (mac, ip, dst, next, pkt) ∧ askOf s.mac (mac, ip, dst, next,
      pkt) = some .solicit) :=
  ⟨⟨{ boot := { done := [1] } }, by decide +kernel⟩,
   ⟨{ regs := regsAt [(F.TPL_LINK_STATE, 2)] }, by decide +kernel⟩,
   ⟨{ boot := { done := [1], fuses := { mac := [2, 0, 0, 0, 0, 1] } }, regs := regsAt [(F.TPL_LINK_STATE, 2)] }, [], true,
     by decide +kernel⟩,
   ⟨{ boot := { done := [1], fuses := { mac := [2, 0, 0, 0, 0, 1] } }, regs := regsAt [(F.TPL_LINK_STATE, 2)] },
     ipv6Frame [2, 0, 0, 0, 0, 1] [2, 0, 0, 0, 0, 9] (linkLocal [2, 0, 0, 0, 0, 9]) (linkLocal [2, 0, 0, 0, 0,
     1]) 17 (udpReply [2, 0, 0, 0, 0, 9] (linkLocal [2, 0, 0, 0, 0, 1]) 40962 (aRequest 0 []).msg), [2, 0, 0, 0, 0, 9],
     linkLocal [2, 0, 0, 0, 0, 9], linkLocal [2, 0, 0, 0, 0, 1], udpReply [2, 0, 0, 0, 0, 9] (linkLocal [2, 0, 0, 0, 0,
     1]) 40962 (aRequest 0 []).msg, (aRequest 0 []).msg, 17, 40962, _, rfl, by decide +kernel⟩,
   ⟨{ boot := { done := [1], fuses := { mac := [2, 0, 0, 0, 0, 1] } }, regs := regsAt [(F.TPL_LINK_STATE, 2)] },
     ipv6Frame [2, 0, 0, 0, 0, 1] [2, 0, 0, 0, 0, 9] (linkLocal [2, 0, 0, 0, 0, 9]) (linkLocal [2, 0, 0, 0, 0,
     1]) 58 (withSum (linkLocal [2, 0, 0, 0, 0, 9]) (linkLocal [2, 0, 0, 0, 0,
     1]) 58 2 (toBe 4 0x87000000 ++ toBe 4 0 ++ linkLocal [2, 0, 0, 0, 0, 1])), [2, 0, 0, 0, 0, 9], linkLocal [2, 0, 0, 0,
     0, 9], linkLocal [2, 0, 0, 0, 0, 1], withSum (linkLocal [2, 0, 0, 0, 0, 9]) (linkLocal [2, 0, 0, 0, 0,
     1]) 58 2 (toBe 4 0x87000000 ++ toBe 4 0 ++ linkLocal [2, 0, 0, 0, 0, 1]), 58, by decide +kernel⟩⟩

theorem witness_RegistersAreReadAndWritten :
    (∃ (s : State) (r : Req) (rest : List Req) (au : Option Accepted) (a : Nat) (n : Nat), served s 1 r rest au ∧
      a = leAt r.body 0 5 ∧ n = leAt r.body 5 2 ∧ r.len = 8 ∧ byteAt r.body 7 = 0 ∧ 1 ≤ n ∧ n ≤ 256 ∧ a % 4 = 0) ∧
    (∃ (s : State) (r : Req) (rest : List Req) (au : Option Accepted), served s 1 r rest au ∧ r.len = 8 ∧
      byteAt r.body 7 = 0 ∧ 1 ≤ leAt r.body 5 2 ∧ leAt r.body 5 2 ≤ 256 ∧ leAt r.body 0 5 % 4 ≠ 0) ∧
    (∃ (s : State) (r : Req) (rest : List Req) (au : Option Accepted) (n : Nat), served s 2 r rest au ∧ r.len = 12 * n ∧
      1 ≤ n ∧ n ≤ 64 ∧ (∀ i < n, leAt (sliceB r.body (12 * i) 12) 5 3 = 0)) ∧
    (∃ (s : State) (r : Req) (rest : List Req), served s 2 r rest none ∧ r.len = 12 ∧ leAt (sliceB r.body 0 12) 5 3 = 0 ∧
      (privilegedReg (leAt (sliceB r.body 0 12) 0 5) = true ∨ s.getF F.TPL_CFG_STRICT = 1)) ∧
    (∃ (s : State) (r : Req) (rest : List Req) (a : Nat) (v : Nat), served s 2 r rest none ∧
      a = leAt (sliceB r.body 0 12) 0 5 ∧ v = leAt (sliceB r.body 0 12) 8 4 ∧ r.len = 12 ∧
      leAt (sliceB r.body 0 12) 5 3 = 0 ∧ privilegedReg a = false ∧ s.getF F.TPL_CFG_STRICT ≠ 1 ∧ s.pstate ≠ 2) :=
  ⟨⟨asked (aRequest 1 (toLe 5 0 ++ toLe 2 256 ++ [0])) [], aRequest 1 (toLe 5 0 ++ toLe 2 256 ++ [0]), [], none, _, _,
    ⟨rfl, rfl, by decide +kernel, by decide +kernel, Or.inl ⟨by decide +kernel, rfl, Or.inl (by decide +kernel)⟩⟩, rfl,
    rfl, by decide +kernel⟩,
   ⟨asked (aRequest 1 (toLe 5 2 ++ toLe 2 1 ++ [0])) [], aRequest 1 (toLe 5 2 ++ toLe 2 1 ++ [0]), [], none, ⟨rfl, rfl,
     by decide +kernel, by decide +kernel, Or.inl ⟨by decide +kernel, rfl, Or.inl (by decide +kernel)⟩⟩, by decide +kernel⟩,
   ⟨asked (aRequest 2 (List.replicate 24 0)) [], aRequest 2 (List.replicate 24 0), [], none, 2, ⟨rfl, rfl,
     by decide +kernel, by decide +kernel, Or.inl ⟨by decide +kernel, rfl, Or.inl (by decide +kernel)⟩⟩, by decide +kernel⟩,
   ⟨asked (aRequest 2 (toLe 5 0x70004 ++ List.replicate 7 0)) [], aRequest 2 (toLe 5 0x70004 ++ List.replicate 7 0), [],
     ⟨rfl, rfl, by decide +kernel, by decide +kernel, Or.inl ⟨by decide +kernel, rfl, Or.inl (by decide +kernel)⟩⟩,
     by decide +kernel⟩,
   ⟨asked (aRequest 2 (toLe 5 0x40000 ++ List.replicate 7 0)) [], aRequest 2 (toLe 5 0x40000 ++ List.replicate 7 0), [], _,
     _, ⟨rfl, rfl, by decide +kernel, by decide +kernel, Or.inl ⟨by decide +kernel, rfl, Or.inl (by decide +kernel)⟩⟩, rfl,
     rfl, by decide +kernel⟩⟩

theorem witness_HostWritesFollowTheAccessCodes :
    (∃ (s : State) (f : Fld), (f.acc = .rw ∨ (f.acc = .rwl ∧ s.locked = false))) ∧
    (∃ (f : Fld), f.acc = .w1c) ∧
    (∃ (s : State) (f : Fld), (f.acc = .ro ∨ (f.acc = .rwl ∧ s.locked = true))) ∧
    (∃ (f : Fld) (g : Fld), g.key ≠ f.key) ∧
    (∃ (s : State), s.replaying = false) ∧
    (∃ (s : State), s.replaying = false ∧ s.getF F.DEV_ACCESS_RO_WRITES < 2 ^ 16) ∧
    (∃ (s : State), s.replaying = false) ∧
    (∃ (a : BitVec 40), a.toNat % 4 ≠ 0) ∧
    (∃ (s : State) (a : BitVec 40), a.toNat % 4 = 0 ∧ inAud a.toNat = false ∧ s.replaying = true) ∧
    (∃ (s : State) (p : Nat) (u : Nat), isCore p = true ∧ u < 4 ∧ s.replaying = false ∧ s.coreHidden p = false ∧
      (u < 2 ∨ s.drz.on = false) ∧ s.getF (F.CORE_HIST_CFG_EN p u) < 2 ∧ s.getF (F.CORE_HIST_CFG_SNAP p u) < 2 ∧
      SMap.wf 0 (s.core p).histNow.2 = true) :=
  ⟨⟨State.reset, F.TPL_CFG_SESS_IDLE, by decide +kernel⟩,
   ⟨F.DEV_ACCESS_RO_WRITES, by decide +kernel⟩,
   ⟨State.reset, F.CORE_IDENT_ROLE 71, by decide +kernel⟩,
   ⟨F.TPL_CFG_SESS_IDLE, F.DEV_ACCESS_RO_WRITES, by decide +kernel⟩,
   ⟨State.reset, by decide +kernel⟩,
   ⟨State.reset, by decide +kernel⟩,
   ⟨State.reset, by decide +kernel⟩,
   ⟨0xFFFFFFFFFF, by decide +kernel⟩,
   ⟨{ aud := { replay := true } }, 0, by decide +kernel⟩,
   ⟨State.reset, 71, 3, by decide +kernel⟩⟩

theorem witness_MemoryIsReadAndWritten :
    (∃ (s : State) (r : Req) (rest : List Req) (au : Option Accepted) (a : Nat) (n : Nat), served s 3 r rest au ∧
      a = leAt r.body 0 5 ∧ n = leAt r.body 6 2 ∧ r.len = 8 ∧ byteAt r.body 5 = 0 ∧ 1 ≤ n ∧ n ≤ 1024 ∧
      inWindow a n = true) ∧
    (∃ (s : State) (r : Req) (rest : List Req) (au : Option Accepted) (a : Nat) (n : Nat) (bs : List Byte),
      served s 4 r rest au ∧ a = leAt r.body 0 5 ∧ n = leAt r.body 6 2 ∧ bs = r.body.drop 8 ∧ r.len = 8 + n ∧
      byteAt r.body 5 = 0 ∧ 1 ≤ n ∧ n ≤ 1024 ∧ inWindow a bs.length = true ∧ s.aud.replay = false ∧
      s.getF F.DEV_HOTPLUG_WSTOP ≠ 1) ∧
    (∃ (s : State) (r : Req) (rest : List Req) (au : Option Accepted) (page : Nat), served s 5 r rest au ∧
      page = leAt r.body 0 5 ∧ r.len = 1040 ∧ leAt r.body 12 4 = 0 ∧ page % 2048 = 0 ∧ inWindow page 2048 = true ∧
      s.pageOk (page - dramBase) = true ∧ s.replaying = false ∧ byteAt r.body 5 = 0 ∧ leAt r.body 8 4 = 0) ∧
    (∃ (s : State) (r : Req) (rest : List Req) (au : Option Accepted) (page : Nat) (d : List Byte) (bs : List Byte),
      served s 5 r rest au ∧ page = leAt r.body 0 5 ∧ bs = d ++ r.body.drop 16 ∧ r.len = 1040 ∧ leAt r.body 12 4 = 0 ∧
      page % 2048 = 0 ∧ inWindow page 2048 = true ∧ s.pageOk (page - dramBase) = true ∧ s.replaying = false ∧
      byteAt r.body 5 = 1 ∧ s.tpl.part = some (page, leAt r.body 6 2, d) ∧ s.getF F.DEV_HOTPLUG_WSTOP ≠ 1) :=
  ⟨⟨asked (aRequest 3 (toLe 5 0x1000000000 ++ [0] ++ toLe 2 1024)) [],
    aRequest 3 (toLe 5 0x1000000000 ++ [0] ++ toLe 2 1024), [], none, _, _, ⟨rfl, rfl, by decide +kernel,
    by decide +kernel, Or.inl ⟨by decide +kernel, rfl, Or.inl (by decide +kernel)⟩⟩, rfl, rfl, by decide +kernel⟩,
   ⟨asked (signedRequest 4 (toLe 5 0x1000000000 ++ [0] ++ toLe 2 2 ++ [7, 8]) 0xAF9022E03D7CC993DDE627FBCF2DBBFF) [],
     signedRequest 4 (toLe 5 0x1000000000 ++ [0] ++ toLe 2 2 ++ [7, 8]) 0xAF9022E03D7CC993DDE627FBCF2DBBFF, [], some ⟨0, 1,
     []⟩, _, _, _, ⟨rfl, rfl, by decide +kernel, by decide +kernel, Or.inr ⟨by decide +kernel, ⟨0, 1, []⟩,
     by decide +kernel, rfl⟩⟩, rfl, rfl, rfl, by decide +kernel⟩,
   ⟨asked (signedRequest 5 (toLe 5 0x1000000000 ++ [0] ++ toLe 2 3 ++ toLe 4 0 ++ toLe 4 0 ++ List.replicate 1024 5) 0xDA1820007C4AB778DDC14B93CD649B1C) [(F.DRM_REGION_DATA 0,
     0x10000), (F.DRM_REGION_DATA 1, 2)],
     signedRequest 5 (toLe 5 0x1000000000 ++ [0] ++ toLe 2 3 ++ toLe 4 0 ++ toLe 4 0 ++ List.replicate 1024 5) 0xDA1820007C4AB778DDC14B93CD649B1C,
     [], some ⟨0, 1, []⟩, _, ⟨rfl, rfl, by decide +kernel, by decide +kernel, Or.inr ⟨by decide +kernel, ⟨0, 1, []⟩,
     by decide +kernel, rfl⟩⟩, rfl, by decide +kernel⟩,
   ⟨{ asked (signedRequest 5 (toLe 5 0x1000000000 ++ [1] ++ toLe 2 3 ++ toLe 4 9 ++ toLe 4 0 ++ List.replicate 1024 5) 0xDA1243AA192A8628F87FDAF01952BBF0) [(F.DRM_REGION_DATA 0, 0x10000), (F.DRM_REGION_DATA 1, 2)] with tpl := { (asked (signedRequest 5 (toLe 5 0x1000000000 ++ [1] ++ toLe 2 3 ++ toLe 4 9 ++ toLe 4 0 ++ List.replicate 1024 5) 0xDA1243AA192A8628F87FDAF01952BBF0) []).tpl with part := some (0x1000000000, 3, [1]) } },
     signedRequest 5 (toLe 5 0x1000000000 ++ [1] ++ toLe 2 3 ++ toLe 4 9 ++ toLe 4 0 ++ List.replicate 1024 5) 0xDA1243AA192A8628F87FDAF01952BBF0,
     [], some ⟨0, 1, []⟩, _, [1], _, ⟨rfl, rfl, by decide +kernel, by decide +kernel, Or.inr ⟨by decide +kernel, ⟨0, 1,
     []⟩, by decide +kernel, rfl⟩⟩, rfl, rfl, by decide +kernel⟩⟩

theorem witness_IdentityStatusAndRecordsAreReported :
    (∃ (s : State) (r : Req) (rest : List Req) (au : Option Accepted), served s 0 r rest au ∧ r.len = 0) ∧
    (∃ (s : State) (r : Req) (rest : List Req) (au : Option Accepted), served s 8 r rest au ∧ r.len = 1 ∧
      byteAt r.body 0 < 4) ∧
    (∃ (s : State) (r : Req) (rest : List Req) (au : Option Accepted) (n : Nat) (fs : List Nat), served s 9 r rest au ∧
      n = byteAt r.body 4 ∧ fs = (List.range n).map (fun i => (leAt r.body 0 4 + i) % 2 ^ 32) ∧ r.len = 8 ∧ 1 ≤ n ∧ n ≤ 3 ∧
      leAt r.body 5 3 = 0 ∧ fs.any s.recordBad = false) ∧
    (∃ (s : State) (r : Req) (rest : List Req) (au : Option Accepted) (m : List Byte), served s 0x0A r rest au ∧
      m = ascii "AQV8440-ATTEST" ++ toLe 1 0 ++ s.serial ++ r.body.take 32 ++ s.imageDigest ++ sliceB r.body 33 6 ++ List.replicate 48 0 ∧
      r.len = 39 ∧ byteAt r.body 32 = 0 ∧ leAt r.body 37 2 = 0) :=
  ⟨⟨asked (aRequest 0 ([])) [], aRequest 0 ([]), [], none, ⟨rfl, rfl, by decide +kernel, by decide +kernel,
    Or.inl ⟨by decide +kernel, rfl, Or.inl (by decide +kernel)⟩⟩, by decide +kernel⟩,
   ⟨asked (aRequest 8 ([3])) [], aRequest 8 ([3]), [], none, ⟨rfl, rfl, by decide +kernel, by decide +kernel,
     Or.inl ⟨by decide +kernel, rfl, Or.inl (by decide +kernel)⟩⟩, by decide +kernel⟩,
   ⟨asked (aRequest 9 (toLe 4 0xFFFFFFFF ++ [3] ++ toLe 3 0)) [], aRequest 9 (toLe 4 0xFFFFFFFF ++ [3] ++ toLe 3 0), [],
     none, _, _, ⟨rfl, rfl, by decide +kernel, by decide +kernel, Or.inl ⟨by decide +kernel, rfl,
     Or.inl (by decide +kernel)⟩⟩, rfl, rfl, by decide +kernel⟩,
   ⟨asked (aRequest 0x0A (List.replicate 39 0)) [], aRequest 0x0A (List.replicate 39 0), [], none, _, ⟨rfl, rfl,
     by decide +kernel, by decide +kernel, Or.inl ⟨by decide +kernel, rfl, Or.inl (by decide +kernel)⟩⟩, rfl,
     by decide +kernel⟩⟩

theorem witness_SessionsOpenAndClose :
    (∃ (s : State) (r : Req) (rest : List Req) (au : Option Accepted), served s 0x10 r rest au ∧ r.len = 0 ∧
      s.lockedOut = false) ∧
    (∃ (s : State) (r : Req) (rest : List Req) (au : Option Accepted), served s 0x10 r rest au ∧ r.len = 0 ∧
      s.lockedOut = true) ∧
    (∃ (s : State) (r : Req) (rest : List Req) (au : Option Accepted) (c : Chal) (p : EcPoint) (n : Nat) (ks : List Byte),
      served s 0x11 r rest au ∧ n = (s.getF F.TPL_SESSION_SESSION + 1) % 65536 ∧ ks = hkdf384 c.nonce (ecShared c.eph p)
      (ascii "TERPEL-SESSION" ++ toLe 4 n) 48 ∧ r.len = 194 ∧ byteAt r.body 0 ≤ 3 ∧
      s.openPoint s.liveChal r.body = some (c, p)) ∧
    (∃ (s : State) (r : Req) (rest : List Req) (au : Option Accepted), served s 0x11 r rest au ∧ r.len = 194 ∧
      byteAt r.body 0 ≤ 3 ∧ s.openPoint s.liveChal r.body = none) ∧
    (∃ (s : State) (r : Req) (rest : List Req) (au : Option Accepted), served s 0x12 r rest au ∧ r.len = 0) ∧
    (∃ (s : State) (c : Chal), s.tpl.chal = some c) ∧
    (∃ (s : State) (e : Nat), s.tpl.lockEnd = some e) ∧
    (∃ (s : State) (x : Sess), s.tpl.sess = some x ∧ s.getF F.TPL_CFG_SESS_IDLE ≠ 0) :=
  ⟨⟨asked (aRequest 0x10 ([])) [], aRequest 0x10 ([]), [], none, ⟨rfl, rfl, by decide +kernel, by decide +kernel,
    Or.inl ⟨by decide +kernel, rfl, Or.inl (by decide +kernel)⟩⟩, by decide +kernel⟩,
   ⟨{ asked (aRequest 0x10 ([])) [] with tpl := { (asked (aRequest 0x10 ([])) []).tpl with lockEnd := some 5 } },
     aRequest 0x10 ([]), [], none, ⟨rfl, rfl, by decide +kernel, by decide +kernel, Or.inl ⟨by decide +kernel, rfl,
     Or.inl (by decide +kernel)⟩⟩, by decide +kernel⟩,
   ⟨opening, openRequest, [], none, ⟨[], 5, 9⟩, ecPublic 7, _, _, ⟨rfl, rfl, by decide +kernel, by decide +kernel,
     Or.inl ⟨by decide +kernel, rfl, Or.inl (by decide +kernel)⟩⟩, rfl, rfl, by decide +kernel⟩,
   ⟨asked (aRequest 0x11 (List.replicate 194 0)) [], aRequest 0x11 (List.replicate 194 0), [], none, ⟨rfl, rfl,
     by decide +kernel, by decide +kernel, Or.inl ⟨by decide +kernel, rfl, Or.inl (by decide +kernel)⟩⟩, by decide +kernel⟩,
   ⟨asked (signedRequest 0x12 ([]) 0xA214ED0109A5390D87A608C59C36EE6E) [],
     signedRequest 0x12 ([]) 0xA214ED0109A5390D87A608C59C36EE6E, [], some ⟨0, 1, []⟩, ⟨rfl, rfl, by decide +kernel,
     by decide +kernel, Or.inr ⟨by decide +kernel, ⟨0, 1, []⟩, by decide +kernel, rfl⟩⟩, by decide +kernel⟩,
   ⟨{ tpl := { chal := some ⟨[], 5, 9⟩ } }, ⟨[], 5, 9⟩, by decide +kernel⟩,
   ⟨{ tpl := { lockEnd := some 9 } }, 9, by decide +kernel⟩,
   ⟨{ tpl := { sess := some { kh := [], kd := [], last := 0 } }, regs := regsAt [(F.TPL_CFG_SESS_IDLE, 1)] },
     { kh := [], kd := [], last := 0 }, by decide +kernel⟩⟩

theorem witness_PrivilegedRequestsNeedASession :
    (∃ (s : State) (r : Req) (rest : List Req) (c : Instr), (r.op = 0x19 → s.getF F.DEV_BOOT_FAILED ≠ 1) ∧ (c,
      r.op) ∈ [(Instr.writeMem, 4), (.loadPage, 5), (.closeSession, 0x12), (.power, 0x18), (.resetDevice, 0x19)] ∧
      s.tpl.rx = r :: rest ∧ s.tpl.waiting = false ∧ r.auth = false) ∧
    (∃ (s : State) (r : Req) (rest : List Req) (c : Instr) (m : List Byte), (c, r.op) ∈ [(Instr.writeReg, 2), (.writeMem,
      4), (.loadPage, 5), (.power, 0x18), (.resetDevice, 0x19)] ∧ s.tpl.rx = r :: rest ∧ s.tpl.waiting = false ∧
      r.auth = true ∧ s.authCheck r = .again m) ∧
    (∃ (s : State) (r : Req) (rest : List Req) (au : Option Accepted) (n : Nat), served s 0x18 r rest au ∧
      n = byteAt r.body 0 ∧ r.len = 1 ∧ n ≤ 2 ∧ s.getF F.PWR_STATE_BUSY ≠ 1 ∧ s.thermalHold = false ∧
      (2 ≤ n ∨ s.wantedNb = n) ∧ n ≠ s.getF F.PWR_STATE_STATE) ∧
    (∃ (s : State) (r : Req) (rest : List Req) (au : Option Accepted), served s 0x19 r rest au ∧ r.len = 0) :=
  ⟨⟨asked (aRequest 4 []) [], aRequest 4 [], [], .writeMem, fun h => absurd h (by decide +kernel), by decide +kernel⟩,
   ⟨{ asked (signedRequest 4 [] 0x8E3217BFFDF72C4D3E28E524CADA8C1C) [(F.TPL_SEQ_LAST_SEQ, 1)] with tpl := { rx := [signedRequest 4 [] 0x8E3217BFFDF72C4D3E28E524CADA8C1C], sess := some { kh := [], kd := [], last := 0, accepted := true, reply := [9] } } },
     signedRequest 4 [] 0x8E3217BFFDF72C4D3E28E524CADA8C1C, [], .writeMem, [9], by decide +kernel⟩,
   ⟨asked (signedRequest 0x18 ([2]) 0x244C493EE28053D04E98E46A5CA39F9E) [],
     signedRequest 0x18 ([2]) 0x244C493EE28053D04E98E46A5CA39F9E, [], some ⟨0, 1, []⟩, _, ⟨rfl, rfl, by decide +kernel,
     by decide +kernel, Or.inr ⟨by decide +kernel, ⟨0, 1, []⟩, by decide +kernel, rfl⟩⟩, rfl, by decide +kernel⟩,
   ⟨asked (signedRequest 0x19 ([]) 0x7444DCD014B429E220EE6C1E7C30EFA8) [],
     signedRequest 0x19 ([]) 0x7444DCD014B429E220EE6C1E7C30EFA8, [], some ⟨0, 1, []⟩, ⟨rfl, rfl, by decide +kernel,
     by decide +kernel, Or.inr ⟨by decide +kernel, ⟨0, 1, []⟩, by decide +kernel, rfl⟩⟩, by decide +kernel⟩⟩

theorem witness_ResetsAndRemoval :
    (∃ (s : State), s.seq.switch = true) ∧
    (∃ (s : State), s.getF F.DEV_HOTPLUG_WSTOP = 1) :=
  ⟨⟨State.reset, by decide +kernel⟩,
   ⟨{ regs := regsAt [(F.DEV_HOTPLUG_WSTOP, 1)] }, by decide +kernel⟩⟩

theorem witness_BootStagesRunOrFail :
    (∃ (s : State), s.stageOpen [] 0 = true) ∧
    (∃ (s : State), s.stageOpen [0] 1 = true) ∧
    (∃ (s : State) (f : FlashIn), s.stageOpen [1] 2 = true ∧
      (f.present = false ∨ f.sfdp = false ∨ f.mib < 64 ∨ 512 < f.mib)) ∧
    (∃ (s : State) (f : FlashIn), s.stageOpen [1] 2 = true ∧ f.present = true ∧ f.sfdp = true ∧ 64 ≤ f.mib ∧ f.mib ≤ 512) ∧
    (∃ (s : State), s.stageOpen [4] 3 = true ∧ s.getF F.DRM_STATUS_TRAINED = 1) ∧
    (∃ (s : State), s.stageOpen [2] 4 = true) ∧
    (∃ (s : State), s.stageOpen [4] 5 = true) ∧
    (∃ (s : State) (bytes : List Byte) (bs : List Byte) (e : List Byte) (k : Nat), k = s.boot.loaded ∧
      e = s.boot.table.getD k [] ∧ bs = sliceB bytes 0 (secLength e) ∧ s.stageOpen [3, 4] 6 = true ∧ secType e = 2 ∧
      secDest e = 0xFFFFFFFF) ∧
    (∃ (s : State), s.stageOpen [5, 6] 7 = true) ∧
    (∃ (s : State), s.stageOpen [0] 3 = true ∧ s.getF F.DRM_STATUS_TRAINED ≠ 1) ∧
    (∃ (s : State), s.stageOpen [0] 3 = true ∧ s.getF F.DRM_STATUS_TRAINED ≠ 1) :=
  ⟨⟨{ boot := { done := [] } }, by decide +kernel⟩,
   ⟨{ boot := { done := [0] } }, by decide +kernel⟩,
   ⟨{ boot := { done := [0, 1] } }, ⟨true, true, 63, []⟩, by decide +kernel⟩,
   ⟨{ boot := { done := [0, 1] } }, ⟨true, true, 64, []⟩, by decide +kernel⟩,
   ⟨{ boot := { done := [4] }, regs := regsAt [(F.DRM_STATUS_TRAINED, 1)] }, by decide +kernel⟩,
   ⟨{ boot := { done := [2] } }, by decide +kernel⟩,
   ⟨{ boot := { done := [4] } }, by decide +kernel⟩,
   ⟨{ boot := { done := [3, 4], table := [[2, 0, 0, 0, 0, 0, 0, 0, 1, 0, 0, 0, 255, 255, 255, 255]] } }, [7], _, _, _, rfl,
     rfl, rfl, by decide +kernel⟩,
   ⟨{ boot := { done := [5, 6] } }, by decide +kernel⟩,
   ⟨{ boot := { done := [0] } }, by decide +kernel⟩,
   ⟨{ boot := { done := [0] } }, by decide +kernel⟩⟩

theorem witness_BootCompletesAndTheLedgerAppends :
    (∃ (s : State), s.stageOpen [7] 8 = true ∧ s.getF F.DEV_BOOT_CTRL_HOLD ≠ 1 ∧ s.getF F.DEV_BOOT_COMPLETE ≠ 1) ∧
    (∃ (s : State), s.getF F.DEV_BOOT_CTRL_HOLD = 1) ∧
    (∃ (s : State) (r : List Byte) (rs : List (List Byte)), s.ledgerReady = true ∧ s.led.valid = true ∧
      s.led.queue = r :: rs ∧ s.led.next < 32767) ∧
    (∃ (s : State) (r : List Byte) (rs : List (List Byte)), s.ledgerReady = true ∧ s.led.valid = false ∧
      s.led.queue = r :: rs) ∧
    (∃ (s : State), (s.getF F.DEV_HOTPLUG_NOR_STOP ≠ 0 ∨ s.getF F.DEV_LEDGER_FULL ≠ 0)) :=
  ⟨⟨{ boot := { done := [7] } }, by decide +kernel⟩,
   ⟨{ regs := regsAt [(F.DEV_BOOT_CTRL_HOLD, 1)] }, by decide +kernel⟩,
   ⟨{ boot := { done := [6] }, led := { valid := true, queue := [[1]], next := 32766 } }, [1], [], by decide +kernel⟩,
   ⟨{ boot := { done := [6] }, regs := regsAt [(F.DEV_BOOT_COMPLETE, 1)], led := { queue := [[1]] } }, [1], [],
     by decide +kernel⟩,
   ⟨{ regs := regsAt [(F.DEV_LEDGER_FULL, 1)] }, by decide +kernel⟩⟩

theorem witness_PowerStatesAndDips :
    (∃ (s : State) (t0 : Nat), s.pwr.trans = .powerUp t0) ∧
    (∃ (s : State) (t0 : Nat), s.pwr.trans = .enter t0) ∧
    (∃ (s : State) (t0 : Nat), s.pwr.trans = .exit t0 ∧ s.aud.replayHold = false) ∧
    (∃ (s : State) (u : Nat) (v12 : Nat) (vcore : Nat), isSupply u = true ∧ isMilli v12 = true ∧ isMilli vcore = true ∧
      s.pstate ≠ 2 ∧ s.pwr.episode = false) ∧
    (∃ (s : State) (u : Nat) (v12 : Nat) (vcore : Nat), isSupply u = true ∧ isMilli v12 = true ∧ isMilli vcore = true ∧
      s.pstate = 2) ∧
    (∃ (s : State) (v12 : Nat) (vcore : Nat) (t0 : Nat), isMilli v12 = true ∧ isMilli vcore = true ∧ s.pwr.episode = true ∧
      s.pwr.dipFrom = some t0) ∧
    (∃ (s : State) (e : Nat), s.pwr.holdEnd = some e ∧ s.led.queue.length < 64) ∧
    (∃ (u : Nat) (v12 : Nat) (vcore : Nat), isSupply u = true ∧ isMilli v12 = true ∧ isMilli vcore = true) :=
  ⟨⟨{ pwr := { trans := .powerUp 5 } }, 5, by decide +kernel⟩,
   ⟨{ pwr := { trans := .enter 5 } }, 5, by decide +kernel⟩,
   ⟨{ pwr := { trans := .exit 5 } }, 5, by decide +kernel⟩,
   ⟨State.reset, 1, 65535, 0, by decide +kernel⟩,
   ⟨{ pstate := 2 }, 0, 0, 0, by decide +kernel⟩,
   ⟨{ pwr := { episode := true, dipFrom := some 5 } }, 0, 0, 5, by decide +kernel⟩,
   ⟨{ pwr := { holdEnd := some 5 }, led := { queue := List.replicate 63 [] } }, 5, by decide +kernel⟩,
   ⟨1, 0, 0, by decide +kernel⟩⟩

theorem witness_WeatheringMeasuresAndRestores :
    (∃ (s : State) (ms : List Meas), ms.all measOk = true ∧ s.getF F.DEV_BOOT_COMPLETE ≠ 0) ∧
    (∃ (s : State) (m : Meas), measOk m = true ∧ s.getF F.DEV_BOOT_COMPLETE ≠ 0 ∧ s.pstate ≠ 2 ∧ s.role m.core = 0 ∧
      s.pwr.restore = none ∧ s.getF (F.CORE_CLK_BIN_DIP m.core) = 0 ∧
      s.getF (F.CORE_CLK_BIN_EFF m.core) = min 3 (s.getF (F.CORE_CLK_BIN_PLAN m.core))) ∧
    (∃ (s : State) (p : BitVec 7), isCore p.toNat = true ∧ s.replaying = false) :=
  ⟨⟨{ regs := regsAt [(F.DEV_BOOT_COMPLETE, 1)] }, [⟨71, -32768, 65535⟩, ⟨0, 32767, 0⟩], by decide +kernel⟩,
   ⟨{ regs := regsAt [(F.DEV_BOOT_COMPLETE, 1)] }, ⟨70, 5, 1⟩, by decide +kernel⟩,
   ⟨State.reset, 71, by decide +kernel⟩⟩

theorem witness_GrantsParkOnTheLastWinner :
    (∃ (s : State) (port : Nat) (a : PortAsk), Instr.wf (.portGrant port [a]) = true ∧ a.q < portReqs port ∧
      s.masked port a.q = false ∧ (s.arb port).free ≤ s.now ∧ a.off % 64 + a.len ≤ 64 ∧
      (s.chan (dramChan a.off)).queue.length < 64 ∧ (s.arb port).held = [] ∧ s.getF F.DEV_HOTPLUG_WSTOP ≠ 1 ∧
      (8 ≤ port ∨ a.cls = s.slotClass port ∧ a.cls ≠ 2)) ∧
    (∃ (s : State) (port : Nat), isDramPort port = true ∧ (s.arb port).free ≤ s.now) ∧
    (∃ (port : Nat) (asks : List PortAsk), Instr.wf (.portGrant port asks) = true) :=
  ⟨⟨State.reset, 0, ⟨0, 0, 0, 0, 64, false⟩, by decide +kernel⟩,
   ⟨State.reset, 9, by decide +kernel⟩,
   ⟨9, [], by decide +kernel⟩⟩

theorem witness_SessionsCloseAsListed :
    (∃ (s : State) (r : Req) (rest : List Req) (au : Option Accepted), served s 0x12 r rest au ∧ r.len = 0) ∧
    (∃ (s : State) (r : Req) (rest : List Req) (au : Option Accepted) (x : Chal × EcPoint), served s 0x11 r rest au ∧
      r.len = 194 ∧ byteAt r.body 0 ≤ 3 ∧ s.openPoint s.liveChal r.body = some x) ∧
    (∃ (s : State) (x : Sess), s.tpl.sess = some x ∧ s.getF F.TPL_CFG_SESS_IDLE ≠ 0) ∧
    (∃ (s : State), s.getF F.TPL_CFG_SESS_IDLE = 0) ∧
    (∃ (c : Instr), (c = .doldrumsEntryComplete ∨ c = .doldrumsExitComplete)) ∧
    (∃ (s : State) (r : Req) (rest : List Req) (c : Instr), (c, r.op) ∈ [(Instr.ident, 0), (.readReg, 1), (.writeReg, 2),
      (.readMem, 3), (.writeMem, 4), (.loadPage, 5), (.status, 8), (.records, 9), (.attest, 0x0A), (.challenge, 0x10),
      (.openSession, 0x11), (.closeSession, 0x12), (.power, 0x18), (.resetDevice, 0x19)] ∧ s.tpl.rx = r :: rest ∧
      s.tpl.waiting = false ∧ r.auth = true ∧ (s.liveSess = none ∨ leAt r.msg 12 4 ≠ s.getF F.TPL_SESSION_SESSION)) :=
  ⟨⟨asked (signedRequest 0x12 ([]) 0xA214ED0109A5390D87A608C59C36EE6E) [],
    signedRequest 0x12 ([]) 0xA214ED0109A5390D87A608C59C36EE6E, [], some ⟨0, 1, []⟩, ⟨rfl, rfl, by decide +kernel,
    by decide +kernel, Or.inr ⟨by decide +kernel, ⟨0, 1, []⟩, by decide +kernel, rfl⟩⟩, by decide +kernel⟩,
   ⟨opening, openRequest, [], none, (⟨[], 5, 9⟩, ecPublic 7), ⟨rfl, rfl, by decide +kernel, by decide +kernel,
     Or.inl ⟨by decide +kernel, rfl, Or.inl (by decide +kernel)⟩⟩, by decide +kernel⟩,
   ⟨{ tpl := { sess := some { kh := [], kd := [], last := 0 } }, regs := regsAt [(F.TPL_CFG_SESS_IDLE, 1)] },
     { kh := [], kd := [], last := 0 }, by decide +kernel⟩,
   ⟨{ regs := regsAt [(F.TPL_CFG_SESS_IDLE, 0)] }, by decide +kernel⟩,
   ⟨.doldrumsEntryComplete, Or.inl rfl⟩,
   ⟨{ asked (signedRequest 0 [] 0x918D655BA0D62858FB489DB5D58BDFFE) [] with tpl := { rx := [signedRequest 0 [] 0x918D655BA0D62858FB489DB5D58BDFFE] } },
     signedRequest 0 [] 0x918D655BA0D62858FB489DB5D58BDFFE, [], .ident, by decide +kernel⟩⟩

theorem witness_UnmappedAccesses :
    (∃ (a : Nat), regAt a = none) ∧
    (∃ (s : State) (a : Nat), regAt a = none ∧ a % 4 = 0 ∧ s.replaying = false) ∧
    (∃ (s : State) (a : BitVec 40), regAt a.toNat = none ∧ a.toNat % 4 = 0 ∧ s.replaying = false) ∧
    (∃ (s : State) (r : Req) (rest : List Req) (au : Option Accepted), served s 1 r rest au ∧ r.len = 8 ∧
      byteAt r.body 7 = 0 ∧ leAt r.body 5 2 = 1 ∧ leAt r.body 0 5 % 4 = 0 ∧ s.pstate ≠ 2 ∧
      regAt (leAt r.body 0 5) = none) :=
  ⟨⟨0x5FF00, by decide +kernel⟩,
   ⟨State.reset, 0x5FF00, by decide +kernel⟩,
   ⟨State.reset, 0x5FF00, by decide +kernel⟩,
   ⟨asked (aRequest 1 (toLe 5 0x5FF00 ++ toLe 2 1 ++ [0])) [], aRequest 1 (toLe 5 0x5FF00 ++ toLe 2 1 ++ [0]), [], none,
     ⟨rfl, rfl, by decide +kernel, by decide +kernel, Or.inl ⟨by decide +kernel, rfl, Or.inl (by decide +kernel)⟩⟩,
     by decide +kernel⟩⟩

theorem witness_WithoutTilesDrizzleIsOff :
    (∃ (s : State), s.drzT = 0 ∧ s.boot.done ≠ []) ∧
    (∃ (s : State), s.drzT = 0) :=
  ⟨⟨{ boot := { done := [0] } }, by decide +kernel⟩,
   ⟨State.reset, by decide +kernel⟩⟩

theorem witness_WritesClearsReplaysAndTimersComplete :
    (∃ (s : State) (u : State) (a : BitVec 40) (v : Word) (blk : Blk) (o : Nat) (w : Nat) (fs : List Fld),
      blockOf a.toNat = some (blk, o) ∧ regAt a.toNat = some fs ∧ s.wordAt a.toNat = some w ∧ (∃ f ∈ fs,
      s.writable f = true) ∧ u = State.writeEffect s (fs.foldl (State.writeField v.toNat) s) blk o v.toNat ∧
      s.replaying = false ∧ a.toNat % 4 = 0 ∧ s.drzOwns blk o = false) ∧
    (∃ (s : State) (p : Nat) (u : Nat), isCore p = true ∧ u < 4 ∧ s.replaying = false ∧ s.coreHidden p = false ∧
      (u < 2 ∨ s.drz.on = false) ∧ s.getF (F.CORE_HIST_CFG_EN p u) < 2 ∧ s.getF (F.CORE_HIST_CFG_SNAP p u) < 2 ∧
      (s.core p).histNow.1 ≠ s.now + 1) ∧
    (∃ (s : State), s.aud.replayHold = true) ∧
    (∃ (s : State) (e : ReplayEnt), s.aud.replay = true ∧ (s.aud.replayLog.find? fun e => e.type == 4) = some e) ∧
    (∃ (s : State), s.aud.replay = true ∧ (s.aud.replayLog.any fun e => e.type == 4) = false) ∧
    (∃ (s : State) (r : Req) (rest : List Req) (au : Option Accepted), served s 0x10 r rest au ∧ r.len = 0 ∧
      s.lockedOut = false) ∧
    (∃ (s : State) (c : Chal), s.tpl.chal = some c) ∧
    (∃ (s : State) (e : Nat), s.tpl.lockEnd = some e) :=
  ⟨⟨State.reset, _, 0x70004, 0xFFFFFFFF, .tpl, _, _, _, rfl, rfl, rfl, ⟨F.TPL_CFG_SESS_IDLE, by decide +kernel,
    by decide +kernel⟩, rfl, by decide +kernel⟩,
   ⟨State.reset, 71, 3, by decide +kernel⟩,
   ⟨{ aud := { replayHold := true } }, by decide +kernel⟩,
   ⟨{ aud := { replay := true, replayLog := [⟨4, false, 5, []⟩] } }, ⟨4, false, 5, []⟩, by decide +kernel⟩,
   ⟨{ aud := { replay := true } }, by decide +kernel⟩,
   ⟨asked (aRequest 0x10 ([])) [], aRequest 0x10 ([]), [], none, ⟨rfl, rfl, by decide +kernel, by decide +kernel,
     Or.inl ⟨by decide +kernel, rfl, Or.inl (by decide +kernel)⟩⟩, by decide +kernel⟩,
   ⟨{ tpl := { chal := some ⟨[], 5, 9⟩ } }, ⟨[], 5, 9⟩, by decide +kernel⟩,
   ⟨{ tpl := { lockEnd := some 9 } }, 9, by decide +kernel⟩⟩

end Sys2Proof.Tests
end

/-! SUPPORT. Accesses to addresses that hold no register (R12), and how a served request is answered (R462, R464, R478). -/
namespace Sys2Proof.Machine

/-! ### Addresses that hold no register (R12) -/

/-- Outside every register span there is no register (R10). -/
theorem regAt_of_blockOf_none {a : Nat} (h : blockOf a = none) : regAt a = none := by
  simp only [regAt, h]

section Unmapped
variable {a : Nat} (h : regAt a = none)
include h

theorem State.wordAt_of_unmapped (s : State) : s.wordAt a = none := by
  unfold State.wordAt
  rw [h]
  cases blockOf a <;> rfl

theorem State.hostRead_of_unmapped (s : State) : s.hostRead a = (1, 0, s) := by
  unfold State.hostRead
  rw [State.wordAt_of_unmapped h]

theorem State.regWrite_of_unmapped (s : State) (v : Nat) (ha : a % 4 = 0) : s.regWrite a v = (1, s) := by
  unfold State.regWrite
  rw [if_neg (not_not.2 ha), h]
  cases blockOf a <;> rfl

/-- A write without effect is refused, and so leaves no WRITE entry (R451). -/
theorem State.loggedWrite_of_unmapped (s : State) (v : Nat) (ha : a % 4 = 0) : s.loggedWrite a v = (1, s) := by
  simp [State.loggedWrite, State.regWrite_of_unmapped h s v ha]

theorem State.hostWrite_of_unmapped (s : State) (v : Nat) (ha : a % 4 = 0) (hr : s.replaying = false) :
    s.hostWrite a v = (1, s) := by
  simp [State.hostWrite, hr, State.loggedWrite_of_unmapped h s v ha]

/-- A single unmapped register is read without waiting, with the unmapped status and a word of zero (R467). -/
theorem State.readRegs_one_of_unmapped (s : State) (hp : s.pstate ≠ 2) : State.readRegs a 1 0 s 0 [] = (1, [0], s) := by
  simp [State.readRegs, hp, State.hostRead_of_unmapped h]

end Unmapped

/-! ### Noting an accepted request (R478) -/

/-- Accepting a request writes LAST_SEQ alone. -/
theorem State.getF_noteAccepted_ne (s : State) (a : Accepted) {f : Fld} (h : f.key ≠ F.TPL_SEQ_LAST_SEQ.key) :
    (s.noteAccepted a).getF f = s.getF f := by
  rw [State.noteAccepted, State.getF_onTpl, State.getF_setF_ne _ _ h]

theorem State.getF_noted_ne (s : State) (au : Option Accepted) {f : Fld} (h : f.key ≠ F.TPL_SEQ_LAST_SEQ.key) :
    (noted s au).getF f = s.getF f := by
  cases au with
  | none => rfl
  | some a => exact s.getF_noteAccepted_ne a h

@[simp] theorem State.noted_pstate (s : State) (au : Option Accepted) : (noted s au).pstate = s.pstate := by
  cases au <;> rfl

@[simp] theorem State.noted_boot (s : State) (au : Option Accepted) : (noted s au).boot = s.boot := by
  cases au <;> rfl

@[simp] theorem State.noted_sent (s : State) (au : Option Accepted) : (noted s au).tpl.sent = s.tpl.sent := by
  cases au <;> rfl

/-- Whether the power state or the boot's stage serves a request does not turn on its session (R465, R500). -/
@[simp] theorem State.notServed_noted (s : State) (au : Option Accepted) (r : Req) :
    (noted s au).notServed r = s.notServed r := by
  have hl : (noted s au).locked = s.locked := by
    rw [State.locked, State.getF_noted_ne s au (by decide), State.locked]
  simp only [State.notServed, hl, State.noted_pstate]

@[simp] theorem State.linkUp_noted (s : State) (au : Option Accepted) : (noted s au).linkUp = s.linkUp := by
  rw [State.linkUp, State.getF_noted_ne s au (by decide), State.noted_boot, State.linkUp]

@[simp] theorem carries_noted (s : State) (au : Option Accepted) (r : Req) (m : List Byte) :
    carries (noted s au) r m = carries s r m := by
  simp only [carries, State.mac, State.noted_boot]

/-- A request that passes the tests of R466 is handled by its operation's own rules. -/
theorem State.serve_of_served {s : State} {op : Nat} {r : Req} {rest : List Req} {au : Option Accepted}
    (h : served s op r rest au) (run : State → Req → Option Accepted → State) : s.serve op run = run (noted s au) r au := by
  obtain ⟨hrx, hwait, hop, hserved, hauth⟩ := h
  have hnot : (noted s au).notServed r = none := (State.notServed_noted s au r).trans hserved
  unfold State.serve
  simp only [hrx, hwait, hop, Bool.false_eq_true, ne_eq, not_true_eq_false, or_self, if_false]
  rcases hauth with ⟨hr, rfl, hpriv⟩ | ⟨hr, a, hcheck, rfl⟩
  · have hallow : ¬ (opPrivileged op = true ∧ (!decide (op = 0x19 ∧ s.getF F.DEV_BOOT_FAILED = 1)) = true) := by
      rcases hpriv with hp | hp <;> simp [hp]
    simp only [noted] at hnot
    simp only [hr, hnot, noted, Bool.false_eq_true, if_false]
    rw [if_neg hallow]
  · simp only [noted] at hnot
    simp only [hr, hcheck, hnot, noted, if_true]

/-! ### Responses sent (R462, R464) -/

/-- A message to a request's sender goes out while the link is up. -/
theorem State.sendMsg_sent (s : State) (r : Req) (m : List Byte) :
    (s.sendMsg r m).tpl.sent = s.tpl.sent ++ if s.linkUp = true then [carries s r m] else [] := by
  unfold State.sendMsg State.netSend carries
  split
  · rfl
  · exact (List.append_nil _).symm

@[simp] theorem State.incFs_tpl (s : State) (l : List (Fld × Nat)) : (s.incFs l).tpl = s.tpl := by
  rw [State.incFs_eq]

/-- A response sends exactly one message. -/
theorem State.reply_sent (s : State) (r : Req) (au : Option Accepted) (status : Nat) (payload : List Byte) :
    (s.reply r au status payload).tpl.sent =
      s.tpl.sent ++ if s.linkUp = true then [carries s r (response r au status payload)] else [] := by
  have hsent := s.sendMsg_sent r (response r au status payload)
  unfold State.reply
  cases au with
  | none => simpa using hsent
  | some a =>
    dsimp only
    split <;> simpa using hsent

/-- Answering requests that break R466 only adds frames to those sent. -/
theorem State.answerBad_sent (n : Nat) (s : State) : ∃ more, (State.answerBad n s).tpl.sent = s.tpl.sent ++ more := by
  induction n generalizing s with
  | zero => exact ⟨[], (List.append_nil _).symm⟩
  | succ n ih =>
    have after : ∀ r status, ∃ more, (State.answerBad n (s.reply r none status [])).tpl.sent = s.tpl.sent ++ more := by
      intro r status
      obtain ⟨more, hmore⟩ := ih (s.reply r none status [])
      rw [State.reply_sent, List.append_assoc] at hmore
      exact ⟨_, hmore⟩
    unfold State.answerBad
    split
    · exact ⟨[], (List.append_nil _).symm⟩
    · split
      · exact after _ _
      · split
        · exact after _ _
        · exact ⟨[], (List.append_nil _).symm⟩

/-- The response is the first frame that goes out when a request is finished with. -/
theorem State.finish_answers (s : State) (r : Req) (au : Option Accepted) (status : Nat) (payload : List Byte) :
    answers s (s.finish r au status payload) r au status payload := by
  obtain ⟨more, hmore⟩ := State.answerBad_sent 16 (s.reply r au status payload)
  exact ⟨more, by rw [State.finish, hmore, State.reply_sent]⟩

/-- What answers a request from the state in which it was noted answers it from the state before. -/
theorem answers_of_noted {s t : State} {r : Req} {au : Option Accepted} {status : Nat} {payload : List Byte}
    (h : answers (noted s au) t r au status payload) : answers s t r au status payload := by
  simpa only [answers, State.noted_sent, State.linkUp_noted, carries_noted] using h

/-! ### The commands READ_REG and REGISTER_WRITE -/

theorem exec_readReg (s : State) : exec .readReg s = done s s.tplReadReg := rfl

theorem exec_registerWrite (a : BitVec 40) (v : Word) (s : State) :
    exec (.registerWrite a v) s = done s (s.hostWrite a.toNat v.toNat).2 := rfl

/-- A command that only has its operation done answers what the operation answers. -/
theorem Completes.of_done {c : Instr} {s t : State} {Q : State → Prop} (hc : exec c s = done s t)
    (hq : Q { State.noteStat s t with pending := s.pending }) : Completes c s Q :=
  ⟨_, hc.trans (done_next s t), hq⟩

/-- A request for one register at an aligned address that holds none is finished with the unmapped status and a zero word. -/
theorem State.tplReadReg_of_unmapped {s : State} {r : Req} {rest : List Req} {au : Option Accepted}
    (h : served s 1 r rest au) (hlen : r.len = 8) (hzero : byteAt r.body 7 = 0) (hone : leAt r.body 5 2 = 1)
    (halign : leAt r.body 0 5 % 4 = 0) (hp : s.pstate ≠ 2) (hmap : regAt (leAt r.body 0 5) = none) :
    s.tplReadReg = (noted s au).finish r au 1 [0, 0, 0, 0] := by
  have hread : State.readRegs (leAt r.body 0 5) 1 0 (noted s au) 0 [] = (1, [0], noted s au) :=
    State.readRegs_one_of_unmapped hmap _ (by rwa [State.noted_pstate])
  rw [State.tplReadReg, State.serve_of_served h]
  simp only [hlen, hzero, hone, halign, hread]
  rfl

end Sys2Proof.Machine

namespace Sys2Proof
open Sys2Proof.Machine

/-- Settles O58: neither access finds a word at the address, so each ends with status 1 in the state it began in. -/
theorem unmappedAccesses : Obligations.UnmappedAccesses := by
  refine ⟨fun s a h => State.hostRead_of_unmapped h s, fun s a v h ha hr => State.hostWrite_of_unmapped h s v ha hr,
    ?_, ?_, by decide, regAt_of_blockOf_none rfl, regAt_of_blockOf_none rfl⟩
  · intro s a v h ha hr
    have hkept : exec (.registerWrite a v) s = done s s := by
      rw [exec_registerWrite, State.hostWrite_of_unmapped h s v.toNat ha hr]
    exact Completes.of_done hkept (done_frame (SameBut.refl s []) rfl)
  · intro s r rest au h hlen hzero hone halign hp hmap
    refine Completes.of_done (exec_readReg s) ?_
    rw [State.tplReadReg_of_unmapped h hlen hzero hone halign hp hmap]
    simpa only [answers, State.noteStat_tpl] using answers_of_noted ((noted s au).finish_answers r au 1 [0, 0, 0, 0])

end Sys2Proof

/-! SUPPORT. Drizzle where the model set in use has no adapter tiles (R355): its control and its STATE. -/
namespace Sys2Proof.Machine

/-! ### T of the model set in use (R146, R301) -/

/-- Which model set is in use, and so its T, turns on MSET_CUR and MSET_PEND alone among the registers. -/
theorem State.drzT_setF_ne (s : State) {f : Fld} (v : Nat) (hcur : F.CAL_MSET_MSET_CUR.key ≠ f.key)
    (hpend : F.CAL_MSET_MSET_PEND.key ≠ f.key) : (s.setF f v).drzT = s.drzT := by
  have hset : (s.setF f v).msetIdx = s.msetIdx := by
    simp only [State.msetIdx, State.getF_setF_ne s v hcur, State.getF_setF_ne s v hpend, State.setF_msetSample]
  simp only [State.drzT, State.mset, hset, State.setF_prog]

@[simp] theorem State.drzT_setF_en (s : State) (v : Nat) : (s.setF F.DRZ_CTRL_EN v).drzT = s.drzT :=
  s.drzT_setF_ne v (by decide) (by decide)

/-! ### EN at a boundary (R353, R355) -/

/-- Without adapter tiles a boundary takes EN as 0, whatever it holds: Drizzle goes off, or stays off. -/
theorem State.drzEnable_of_drzT_zero {s : State} (h : s.drzT = 0) (n : Nat) :
    s.drzEnable n = if s.drz.on then s.onDrz fun d => { d with on := false, queue := [], commit := none } else s := by
  simp [State.drzEnable, h]

/-! ### DRZ_STATUS (R356) -/

theorem State.drzState_of_drzT_zero {s : State} (hboot : s.boot.done ≠ []) (h : s.drzT = 0) : s.drzState = 3 := by
  rw [State.drzState, if_neg hboot, if_pos h]

/-- STATE is two bits wide. -/
theorem State.drzState_lt (s : State) : s.drzState < 4 := by
  unfold State.drzState
  repeat' split
  all_goals decide

/-- DRZ_STATUS shows STATE in its bits 1 and 0. -/
theorem State.word_drzStatus_mod (s : State) : s.word 0xC000C % 4 = s.drzState := by
  have hblock : blockOf 0xC000C = some (.drz, 0xC) := rfl
  have hreg : regAt 0xC000C = some [F.DRZ_STATUS_STATE, F.DRZ_STATUS_TAINT, F.DRZ_STATUS_READY, F.DRZ_STATUS_QUEUE] := rfl
  have hlt := s.drzState_lt
  simp only [State.word, State.wordAt, hblock, hreg, State.shownWord, Bool.false_eq_true, if_false, if_true, Option.getD_some]
  omega

end Sys2Proof.Machine

namespace Sys2Proof
open Sys2Proof.Machine

/-- Settles O59: without adapter tiles STATE is 3 once boot has begun, and a boundary takes EN as 0, whose write leaves T alone. -/
theorem withoutTilesDrizzleIsOff : Obligations.WithoutTilesDrizzleIsOff := by
  refine ⟨fun s h hboot => ?_, fun s n v h => ⟨?_, fun hoff => ?_⟩⟩
  · rw [State.word_drzStatus_mod, State.drzState_of_drzT_zero hboot h]
  · have hset : (s.setF F.DRZ_CTRL_EN v).drzT = 0 := (s.drzT_setF_en v).trans h
    rw [State.drzEnable_of_drzT_zero hset, State.drzEnable_of_drzT_zero h, State.setF_drz]
    cases s.drz.on <;> rfl
  · simp [State.drzEnable_of_drzT_zero h, hoff]

end Sys2Proof

/-! SUPPORT. OPEN and SESSION of TPL_SESSION (R482): what of the machine leaves them as they are. -/
namespace Sys2Proof.Machine
-- One proof after another: side by side, this many go past the memory that the check allows.
set_option Elab.async false

/-! ### The relation and its rules -/

/-- A field is neither OPEN nor SESSION of TPL_SESSION. -/
def BesideSession (f : Fld) : Prop := F.TPL_SESSION_OPEN.key ≠ f.key ∧ F.TPL_SESSION_SESSION.key ≠ f.key

/-- OPEN and SESSION hold in `t` what they hold in `s`. -/
def SessionKept (t s : State) : Prop :=
  t.getF F.TPL_SESSION_OPEN = s.getF F.TPL_SESSION_OPEN ∧ t.getF F.TPL_SESSION_SESSION = s.getF F.TPL_SESSION_SESSION

/-- The register TPL_SESSION stands at 0x70018; a field below it is beside it. -/
@[simp] theorem BesideSession.of_below {a lo w rst : Nat} {acc : Acc} {cfg : Bool} (h : a < 0x70018) (hlo : lo < 32) :
    BesideSession ⟨a, lo, w, rst, acc, cfg⟩ := by
  simp only [BesideSession, Fld.key, F.TPL_SESSION_OPEN, F.TPL_SESSION_SESSION]
  omega

@[simp] theorem BesideSession.of_above {a lo w rst : Nat} {acc : Acc} {cfg : Bool} (h : 0x70018 < a) :
    BesideSession ⟨a, lo, w, rst, acc, cfg⟩ := by
  simp only [BesideSession, Fld.key, F.TPL_SESSION_OPEN, F.TPL_SESSION_SESSION]
  omega

/-- The registers of an array whose first stands above TPL_SESSION stand above it. -/
@[simp] theorem above_array {a k : Nat} (h : 0x70018 < a) : 0x70018 < a + k := Nat.lt_add_right k h

/-- Those of an array of arrays likewise. -/
@[simp] theorem above_array₂ {a k l : Nat} (h : 0x70018 < a) : 0x70018 < a + k + l := above_array (above_array h)

/-- The engines' registers stand in the blocks of the bands and cores. -/
@[simp] theorem EngId.regs_above (g : EngId) : 0x70018 < g.regs := by
  cases g <;> simp [EngId.regs, coreEng, bandEng]

namespace SessionKept
variable {s t x : State}

theorem refl : SessionKept s s := ⟨rfl, rfl⟩

theorem trans {u : State} (h1 : SessionKept u t) (h2 : SessionKept t s) : SessionKept u s :=
  ⟨h1.1.trans h2.1, h1.2.trans h2.2⟩

theorem of_regs (h : t.regs = s.regs) : SessionKept t s := by
  simp only [SessionKept, State.getF, h, and_self]

/-- What leaves the register file alone leaves TPL_SESSION alone. -/
theorem of_frame {ps : List Part} (h : SameBut t s ps) (hp : .regs ∉ ps := by simp) : SessionKept t s :=
  of_regs (h.keeps .regs hp)

/-- So does what writes only fields beside it. -/
theorem of_fields {ok : Fld → Prop} (h : SameFields t s ok) (hok : ∀ f, ok f → BesideSession f) : SessionKept t s :=
  ⟨h _ fun hf => (hok _ hf).1 rfl, h _ fun hf => (hok _ hf).2 rfl⟩

theorem setF {f : Fld} {v : Nat} (h : BesideSession f) : SessionKept (s.setF f v) s :=
  ⟨State.getF_setF_ne s v h.1, State.getF_setF_ne s v h.2⟩

theorem incF {f : Fld} {n : Nat} (h : BesideSession f) : SessionKept (s.incF f n) s :=
  ⟨State.getF_incF_ne s n h.1, State.getF_incF_ne s n h.2⟩

theorem wrapF {f : Fld} {n : Nat} (h : BesideSession f) : SessionKept (s.wrapF f n) s := by
  simp only [SessionKept, State.getF, State.wrapF, RegFile.put, RegFile.note_vals]
  exact ⟨SMap.get_set_ne _ _ _ _ h.1, SMap.get_set_ne _ _ _ _ h.2⟩

theorem uncountF {f : Fld} {n : Nat} (h : BesideSession f) : SessionKept (s.uncountF f n) s := by
  simp only [SessionKept, State.getF, State.uncountF, RegFile.put, RegFile.note_vals]
  exact ⟨SMap.get_set_ne _ _ _ _ h.1, SMap.get_set_ne _ _ _ _ h.2⟩

theorem ite {c : Prop} [Decidable c] (ht : SessionKept t s) (hx : SessionKept x s) : SessionKept (if c then t else x) s := by
  split <;> assumption

theorem yieldF {f : Fld} {v : Nat} (h : BesideSession f) : SessionKept (s.yieldF f v) s := .ite .refl (.setF h)

theorem setFs {l : List (Fld × Nat)} (h : ∀ e ∈ l, BesideSession e.1) : SessionKept (s.setFs l) s :=
  ⟨State.getF_setFs_ne s l _ fun e he => (h e he).1, State.getF_setFs_ne s l _ fun e he => (h e he).2⟩

theorem incFs {l : List (Fld × Nat)} (h : ∀ e ∈ l, BesideSession e.1) : SessionKept (s.incFs l) s :=
  ⟨State.getF_incFs_ne s l _ fun e he => (h e he).1, State.getF_incFs_ne s l _ fun e he => (h e he).2⟩

theorem foldl {α : Type} {g : State → α → State} {l : List α} (h : ∀ y a, SessionKept (g y a) y) :
    SessionKept (l.foldl g s) s := by
  induction l generalizing s with
  | nil => exact refl
  | cons a l ih => exact ih.trans (h s a)

theorem each {n : Nat} {g : State → Nat → State} (h : ∀ y a, SessionKept (g y a) y) : SessionKept (s.each n g) s := foldl h

theorem onCore {p : Nat} {g : CoreSt → CoreSt} : SessionKept (s.onCore p g) s := of_regs rfl
theorem onBand {b : Nat} {g : BandSt → BandSt} : SessionKept (s.onBand b g) s := of_regs rfl

/-- What passing time may change stands in the blocks of the bands and cores. -/
theorem of_withTime (h : SameFields t s WithTime) : SessionKept t s := by
  refine of_fields h fun f ⟨p, hf⟩ => ?_
  obtain ⟨g, hg, hkey⟩ := List.mem_map.1 hf
  have hall : ∀ g ∈ stallFields p ++ mergeFields p, BesideSession g := by
    simp [stallFields, mergeFields, F.CORE_STALL_FULL_STALL_FULL, F.CORE_STALL_EMPTY_STALL_EMPTY, F.CORE_STALL_HALT_STALL_HALT,
      F.CORE_STALL_IN_STALL_IN, F.CORE_STALL_DATA_STALL_DATA, F.CORE_STALL_SLOT_STALL_SLOT, F.CORE_STALL_SUFFIX_STALL_SUFFIX,
      F.CORE_BARRIER_BARRIER_WAIT, F.CORE_SPAD_ECC_CORRECTED, F.CORE_SPAD_ECC_UNCORR, F.CORE_SPAD_LAST_BANK,
      F.CORE_SPAD_LAST_ROW, F.CORE_SPAD_LAST_UNC, F.BAND_LS_ECC_CORRECTED, F.BAND_LS_ECC_UNCORR]
  have hg' := hall g hg
  rwa [BesideSession, hkey] at hg'

end SessionKept

section
variable {s : State}

/-! ### Threads, engines and transfers -/

theorem State.waitUntil_session {n : Nat} : SessionKept (s.waitUntil n) s := .of_withTime (s.waitUntil_fields n)

theorem State.setThreadState_session {p t v : Nat} : SessionKept (s.setThreadState p t v) s :=
  .setF (by simp [F.CORE_THREAD_STATE])

theorem State.frameThreads_session {p : Nat} : SessionKept (s.frameThreads p) s :=
  .each fun _ _ => .ite .refl State.setThreadState_session

theorem State.setWait_session {p t : Nat} {w : Wait} : SessionKept (s.setWait p t w) s := by
  have hset : SessionKept ((s.onThread p t fun h => { h with wait := w }).setThreadState p t
      (if (s.onThread p t fun h => { h with wait := w }).suspended p t then 3 else if w = .none then 1 else 2)) s :=
    State.setThreadState_session.trans .onCore
  exact .ite (State.frameThreads_session.trans hset) hset

theorem State.onEng_session {g : EngId} {f : Eng → Eng} : SessionKept (s.onEng g f) s := .of_frame State.onEng_frame

theorem State.showOutst_session {g : EngId} : SessionKept (s.showOutst g) s := .setF (by simp [F.ENG_STATE_OUTST])

theorem State.listEnds_session {g : EngId} : SessionKept (s.listEnds g) s :=
  .trans (.setF (by simp [F.ENG_STATE_STATE])) (.trans State.onEng_session
    (.ite (.uncountF (by simp [F.ENG_CNT_REARM_OVER])) .refl))

theorem State.freeTiles_session {p e : Nat} : SessionKept (s.freeTiles p e) s :=
  .each fun _ _ => .ite State.setWait_session .refl

theorem State.serveTiles_session {p e : Nat} : SessionKept (s.serveTiles p e) s := .ite .refl State.freeTiles_session

theorem State.engStopped_session {g : EngId} : SessionKept (s.engStopped g) s := by
  unfold State.engStopped
  extract_lets x s1
  have hs1 : SessionKept s1 s := .trans (.setF (by simp [F.ENG_STATE_STATE])) State.onEng_session
  exact .ite (.trans (.ite (.setF (by simp [F.ENG_TILES_CONSUMED])) .refl) hs1) .refl

theorem State.descComplete_session {g : EngId} {i : Nat} : SessionKept (s.descComplete g i) s := by
  unfold State.descComplete
  split
  · exact .refl
  split
  · exact .refl
  next r _ dr _ =>
    extract_lets d s1 s2 buf
    have hs1 : SessionKept s1 s := .ite .refl (.of_frame State.descSignal_frame)
    have hs2 : SessionKept s2 s := by
      cases g with
      | core p e => exact .trans (.ite (State.serveTiles_session.trans (.wrapF (by simp [F.ENG_TILES_LANDED]))) .refl) hs1
      | band b e => exact hs1
    exact .trans (.ite State.listEnds_session State.onEng_session) hs2

theorem State.lsRelease_session {b y : Nat} {r : Prn} : SessionKept (s.lsRelease b r y) s :=
  .ite (.trans (.of_frame State.slotCheck_frame) (.of_frame State.setSlot_frame)) (.incF (by simp [F.BAND_LS_REF_REF_ERR]))

theorem State.releaseLines_session {g : EngId} {r : Prn} {ys : List Nat} : SessionKept (s.releaseLines g r ys) s :=
  .ite (.foldl fun _ _ => State.lsRelease_session) .refl

theorem State.lsMerge_session {b : Nat} {ws ce ue : List Nat} : SessionKept (s.lsMerge b ws ce ue) s :=
  .foldl fun _ _ => .ite (.trans .onBand (.incF (by simp [F.BAND_LS_ECC_UNCORR])))
    (.ite (.incF (by simp [F.BAND_LS_ECC_CORRECTED])) .refl)

theorem State.mergeEcc_session {place u a n : Nat} {ce ue : List Nat} : SessionKept (s.mergeEcc place u a n ce ue) s :=
  .ite (.of_withTime (State.spadMerge_fields _ _ _ _ _)) (.ite State.lsMerge_session .refl)

theorem State.writeBack_session {place u a : Nat} {bs : List Byte} {e : EccIn} :
    SessionKept (s.writeBack place u a bs e) s :=
  .trans (.ite .onCore .refl) (.trans (.of_frame State.writeMem_frame) State.mergeEcc_session)

theorem State.unpackBlock_session {g : EngId} {sr dr : Prn} {du : Nat} {d : Desc} {b i blk : Nat} {e : EccIn} :
    SessionKept (s.unpackBlock g sr dr du d b i blk e) s := by
  refine .foldl fun y j => .ite .refl (State.writeBack_session.trans ?_)
  cases g with
  | core p e => exact .incF (by simp [F.CORE_ZC_ZC_ERR])
  | band b e => exact .refl

theorem State.moveXfer_session {g : EngId} {d : Desc} {b k : Nat} {sr dr : Prn} {du : Nat} {e : EccIn} :
    SessionKept (s.moveXfer g d b k sr dr du e) s :=
  .ite (.ite (.ite State.writeBack_session State.writeBack_session) (.ite .refl State.unpackBlock_session))
    (.foldl fun _ _ => State.writeBack_session)

theorem State.onDesc_session {g : EngId} {i : Nat} {f : DescRun → DescRun} : SessionKept (s.onDesc g i f) s :=
  State.onEng_session

theorem State.arriveAt_session {g : EngId} {r : ListRun} {i k : Nat} {d : Desc} {l : Nat} {e : EccIn} :
    SessionKept (s.arriveAt g r i k d l e) s := by
  refine .ite (State.onDesc_session.trans ?_) State.moveXfer_session
  have hlate : ∀ {q me w}, SessionKept ((s.incF (F.CORE_RWIN_LATE_RW q) 1).setFs
      [(F.CORE_RWIN_LATE_SRC q, me), (F.CORE_RWIN_LATE_ROLE q, w)]) s :=
    .trans (.setFs (by simp [F.CORE_RWIN_LATE_SRC, F.CORE_RWIN_LATE_ROLE])) (.incF (by simp [F.CORE_RWIN_LATE_RW]))
  cases g with
  | core p e => exact .trans (.incF (by simp [F.CORE_RWIN_NACK_NACKS])) hlate
  | band b e => exact hlate

theorem State.finishXfer_session {g : EngId} {r : ListRun} {i k : Nat} {d : Desc} : SessionKept (s.finishXfer g r i k d) s := by
  unfold State.finishXfer
  extract_lets sr n s1 l a dp
  have hs1 : SessionKept s1 s := State.onDesc_session
  split
  · exact hs1
  · have ha : SessionKept a s1 := .ite State.releaseLines_session .refl
    exact .trans (.ite State.descComplete_session .refl)
      (.trans (.ite (.trans (.ite (.of_frame State.lsMark_frame) .refl) ha) .refl) hs1)

theorem State.xferLand_session {g : EngId} {n : Nat} {t : Xfer} {r : ListRun} {d : Desc} {e : EccIn} :
    SessionKept (s.xferLand g n t r d e) s := by
  unfold State.xferLand
  extract_lets prn sr dp s1 s2
  have hs1 : SessionKept s1 s := State.showOutst_session.trans State.onEng_session
  have hs2 : SessionKept s2 s := .trans (.wrapF (by simp [F.ENG_XFERS_XFERS])) (.trans (.ite .refl State.moveXfer_session) hs1)
  exact .trans (.ite State.engStopped_session (State.engStopped_session.trans State.finishXfer_session)) hs2

theorem State.finishOne_session {g : EngId} {t : Xfer} : SessionKept (s.finishOne g t) s := by
  unfold State.finishOne
  split
  · exact .refl
  next r dr _ =>
    extract_lets d s1 targets s2
    have hs1 : SessionKept s1 s := State.waitUntil_session
    have hs2 : SessionKept s2 s := .trans (.foldl fun _ _ => State.arriveAt_session) hs1
    refine .ite hs1 ?_
    split
    · exact State.xferLand_session.trans hs2
    · exact hs2

theorem State.quietEngine_session {g : EngId} : SessionKept (s.quietEngine g) s := by
  unfold State.quietEngine
  extract_lets s1 fab s2
  have hs1 : SessionKept s1 s := .foldl fun _ _ => State.finishOne_session
  have hs2 : SessionKept s2 s1 := .of_regs rfl
  exact .trans (.setF (by simp [F.ENG_TILES_CONSUMED])) (.trans
    (.setFs (by simp [F.ENG_STATE_STATE, F.ENG_STATE_PENDING, F.ENG_STATE_OUTST])) (.trans State.onEng_session (hs2.trans hs1)))

/-! ### Entry into Doldrums (R512) -/

theorem State.transitionDone_session {n : Nat} : SessionKept (s.transitionDone n) s :=
  have hs : SessionKept ((s.setFs [(F.PWR_STATE_STATE, n), (F.PWR_STATE_BUSY, 0)]).incF F.PWR_STATE_TRANSITIONS 1) s :=
    .trans (.incF (by simp [F.PWR_STATE_TRANSITIONS])) (.setFs (by simp [F.PWR_STATE_STATE, F.PWR_STATE_BUSY]))
  hs

theorem State.relink_session {rate lpi : Nat} : SessionKept (s.relink rate lpi) s :=
  .trans (.setFs (by simp [F.TPL_LINK_STATE, F.TPL_LINK_RATE, F.TPL_LINK_LPI]))
    (.ite (.incF (by simp [F.TPL_ERR_LINK_DOWNS])) .refl)

theorem State.doldrumsEntered_session : SessionKept s.doldrumsEntered s := by
  unfold State.doldrumsEntered
  split
  · extract_lets s1 s2 s3
    have hs2 : SessionKept s2 s1 := .trans (.each fun _ _ => .foldl fun _ _ => State.quietEngine_session)
      (.each fun _ _ => .foldl fun _ _ => State.quietEngine_session)
    have hs3 : SessionKept s3 s2 := .trans (.each fun _ _ => .onBand) (.each fun _ _ => .onCore)
    have hs1 : SessionKept s1 s := State.waitUntil_session
    clear_value s3 s2 s1
    exact State.transitionDone_session.trans (State.relink_session.trans
      (.trans (.setF (by simp [F.DRM_STATUS_SELF_REFRESH])) (.trans (t := s3) (.of_regs rfl) (hs3.trans (hs2.trans hs1)))))
  · exact .refl

/-! ### Installing a schedule (R294, R512) -/

/-- A table above TPL_SESSION leaves it alone. -/
theorem State.putTable_session {addr n : Nat} {bs : List Byte} (h : 0x70018 < addr) : SessionKept (s.putTable addr n bs) s := by
  have hbelow : ∀ lo < 32, ∀ d, SMap.get d (s.putTable addr n bs).regs.vals (0x70018 * 32 + lo) =
    SMap.get d s.regs.vals (0x70018 * 32 + lo) := fun lo hlo d => SMap.get_blit_out d _ _ _ _ _ (by omega)
  exact ⟨hbelow 0 (by decide) _, hbelow 16 (by decide) _⟩

theorem State.putSem_session {p i w : Nat} : SessionKept (s.putSem p i w) s :=
  .setFs (by simp [F.CORE_SEM_KIND, F.CORE_SEM_CAP, F.CORE_SEM_INIT, F.CORE_SEM_COUNT, F.CORE_SEM_DEBT])

theorem State.installCore_session {p : Nat} {c : CoreImage} : SessionKept (s.installCore p c) s := by
  unfold State.installCore
  extract_lets base s1 s2 s3
  have hs3 : SessionKept s3 s := (State.putTable_session (by omega)).trans
    ((State.putTable_session (by omega)).trans (State.putTable_session (by omega)))
  exact .trans .onCore (.trans .onCore (.trans (.each fun _ _ => State.putSem_session) hs3))

theorem State.installBand_session {b : Nat} {i : BandImage} : SessionKept (s.installBand b i) s := by
  unfold State.installBand
  extract_lets base
  exact .trans .onBand ((State.putTable_session (by omega)).trans (State.putTable_session (by omega)))

theorem State.installTables_session {sc : Schedule} {n : Nat} : SessionKept (s.installTables sc n) s :=
  .trans (.each fun _ _ => State.installBand_session) (.each fun _ _ => State.installCore_session)

theorem State.installRt_session {sc : Schedule} : SessionKept (s.installRt sc) s :=
  have hs : SessionKept ((s.yieldF F.CAL_RT_STEP_STEP sc.rt.step).setF F.CAL_RT_STEP_LAG sc.rt.lag) s :=
    .trans (.setF (by simp [F.CAL_RT_STEP_LAG])) (.yieldF (by simp [F.CAL_RT_STEP_STEP]))
  hs

theorem State.setSegs_session : SessionKept s.setSegs s :=
  .trans (.each fun _ _ => .setFs (by simp [F.CORE_SEG_SEG_X0, F.CORE_SEG_SEG_W]))
    (.each fun _ _ => .setFs (by simp [F.CORE_SEG_SEG_X0, F.CORE_SEG_SEG_W]))

theorem State.setGeometry_session {m : Mode} : SessionKept (s.setGeometry m) s :=
  .setFs (by simp [F.CAL_LP_LP, F.CAL_VACTIVE_V_ACTIVE, F.CAL_VACTIVE_VT_NOM, F.CAL_VLIMITS_VT_MIN, F.CAL_VLIMITS_VT_MAX,
    F.CAL_SEAM_SEAM_H])

theorem State.emptyCommitted_session : SessionKept s.emptyCommitted s := by
  unfold State.emptyCommitted
  extract_lets s1
  have hs1 : SessionKept s1 s := .foldl fun _ _ => .trans
    (.each fun _ _ => .each fun _ _ => .ite (.setF (by simp [F.BAND_PRN_DATA])) .refl)
    (.each fun _ _ => .setF (by simp [F.CORE_PRN_DATA]))
  exact hs1

theorem State.installSchedule_session {mode bucket : Nat} : SessionKept (s.installSchedule mode bucket) s := by
  unfold State.installSchedule
  extract_lets m k sc s1 s2
  have hs1 : SessionKept s1 s := .of_regs rfl
  have hs2 : SessionKept s2 s := State.installTables_session.trans (.trans
    (.setFs (by simp [F.CAL_MODE_MODE_CUR, F.CAL_MODE_SCHED_CUR, F.CAL_MODE_CHANGING, F.CAL_MODE_MODE_HELD]))
    (State.setGeometry_session.trans hs1))
  exact State.emptyCommitted_session.trans (State.setSegs_session.trans (State.installRt_session.trans hs2))

theorem State.gateBand_session {b : Nat} : SessionKept (s.gateBand b) s :=
  .trans .onBand (.trans (.setFs (by simp [F.BAND_STRIPE_Y0, F.BAND_STRIPE_HEIGHT]))
    (.trans (.setF (by simp [F.BAND_SLOTMAP_GATED]))
      (.each fun _ _ => .trans .onCore (.setF (by simp [F.CORE_IDENT_ROLE])))))

theorem State.ungateBand_session {b : Nat} : SessionKept (s.ungateBand b) s :=
  .trans (.setF (by simp [F.BAND_SLOTMAP_GATED])) (.each fun _ _ => .setF (by simp [F.CORE_IDENT_ROLE]))

theorem State.gateFor_session {nb : Nat} : SessionKept (s.gateFor nb) s :=
  .foldl fun _ _ => .ite State.gateBand_session State.ungateBand_session

theorem State.loadMset_session {p : Nat} {m : ModelSet} {bad : List Nat} : SessionKept (s.loadMset p m bad) s := .onCore

theorem State.loadSet_session : SessionKept s.loadSet s :=
  .trans (.incF (by simp [F.CAL_MSET_MSET_ERR])) (.trans (.each fun _ _ => .ite State.loadMset_session .refl)
    (.setF (by simp [F.CAL_MSET_MSET_CUR])))

theorem State.loadCore_session {p : Nat} : SessionKept (s.loadCore p) s := by
  unfold State.loadCore
  extract_lets m err s1 bank
  have hs1 : SessionKept s1 s := State.loadMset_session.trans .onCore
  clear_value s1
  exact .trans .onCore (.trans (.setF (by simp [F.CORE_WFILE_ADAPT_BANK])) hs1)

/-! ### Drizzle at a boundary (R349 to R354) -/

theorem State.onDrz_session {f : DrzSt → DrzSt} : SessionKept (s.onDrz f) s := .of_regs rfl

theorem State.onDrzSet_session {f : DrzSet → DrzSet} : SessionKept (s.onDrzSet f) s := .of_regs rfl

theorem State.drzTaint_session : SessionKept s.drzTaint s := State.onDrzSet_session

theorem State.flipBank_session : SessionKept s.flipBank s :=
  .each fun _ _ => .trans (.setF (by simp [F.CORE_WFILE_ADAPT_BANK])) .onCore

theorem State.drzHist_session : SessionKept s.drzHist s := by
  unfold State.drzHist
  split
  · exact .refl
  · exact .each fun _ _ => .each fun _ _ => .setFs (by
      simp [F.CORE_HIST_CFG_EN, F.CORE_HIST_CFG_SNAP, F.CORE_HIST_CFG_SRC, F.CORE_HIST_CFG_LAYER, F.CORE_HIST_CFG_CHAN,
        F.CORE_HIST_CFG_ALLCH, F.CORE_HIST_LO_LO, F.CORE_HIST_SHIFT_SHIFT])

theorem State.comeBack_session {nb : Nat} : SessionKept (s.comeBack nb) s := by
  unfold State.comeBack
  extract_lets i new h frost
  have hi : SessionKept i s := State.installSchedule_session.trans (.of_regs rfl)
  have hh : SessionKept h i := .ite State.drzHist_session .refl
  clear_value h i
  exact .trans (t := h) (.of_regs rfl) (hh.trans hi)

theorem State.resetLive_session {n : Nat} : SessionKept (s.resetLive n) s :=
  .ite (State.onDrz_session.trans (.ite .refl (State.onDrzSet_session.trans State.flipBank_session))) .refl

theorem State.drzEnable_session {n : Nat} : SessionKept (s.drzEnable n) s :=
  .ite (State.drzHist_session.trans State.onDrz_session) (.ite State.onDrz_session .refl)

theorem State.commitLive_session {n : Nat} : SessionKept (s.commitLive n) s := by
  unfold State.commitLive
  split
  · exact .refl
  · refine .ite .refl (.trans (.ite (State.drzTaint_session.trans (.incF (by simp [F.DRZ_TD_LATE_COMMITS]))) .refl) ?_)
    exact State.onDrz_session.trans (.trans (.incF (by simp [F.DRZ_COMMITS_COMMITS]))
      (State.onDrzSet_session.trans State.flipBank_session))

theorem State.queueFill_session {n : Nat} : SessionKept (s.queueFill n) s := by
  unfold State.queueFill
  extract_lets old k s1 s2 x q
  have hs1 : SessionKept s1 s := State.onDrz_session
  have hs2 : SessionKept s2 s1 := .ite .refl (State.drzTaint_session.trans (.incF (by simp [F.DRZ_TD_DROPPED])))
  exact .trans (.ite State.onDrz_session .refl) (hs2.trans hs1)

theorem State.drzBoundary_session {n : Nat} {sw : Bool} : SessionKept (s.drzBoundary n sw) s := by
  unfold State.drzBoundary
  extract_lets s0 s1 s2
  have hs0 : SessionKept s0 s := .ite (State.onDrz_session.trans State.flipBank_session) .refl
  have hs1 : SessionKept s1 s0 := by
    refine .trans (.of_frame State.histSum_frame) (State.queueFill_session.trans (State.onDrz_session.trans ?_))
    split
    · exact State.commitLive_session.trans (State.drzEnable_session.trans State.resetLive_session)
    · exact State.drzEnable_session.trans (State.commitLive_session.trans State.resetLive_session)
    · exact State.drzEnable_session
  have hs2 : SessionKept s2 s1 := .ite (.of_frame State.tdAdd_frame) .refl
  exact .trans (.of_frame State.coverCheck_frame) (hs2.trans (hs1.trans hs0))

/-! ### Weathering, Frost, the composer and the records at a boundary -/

theorem State.ledger_session {kind unit : Nat} {bs : List Byte} : SessionKept (s.ledger kind unit bs) s :=
  .ite (.incF (by simp [F.DEV_LEDGER_CNT_LOST])) (.trans (.setF (by simp [F.DEV_LEDGER_QUEUED])) (.of_regs rfl))

theorem State.weatherBoundary_session : SessionKept s.weatherBoundary s := by
  unfold State.weatherBoundary
  extract_lets s1 s2 s3
  have hs1 : SessionKept s1 s := .foldl fun _ _ => .trans .onCore (.setF (by simp [F.CORE_CLK_BIN_PLAN]))
  have hs2 : SessionKept s2 s1 := .foldl fun _ _ =>
    State.ledger_session.trans (.setFs (by simp [F.CORE_IDENT_ROLE, F.BAND_SLOTMAP_IDLE_RETIRED]))
  have hs3 : SessionKept s3 s2 := .foldl fun _ _ =>
    State.ledger_session.trans (.setFs (by simp [F.CORE_IDENT_ROLE, F.BAND_SLOTMAP_IDLE_RETIRED]))
  exact .trans (.of_frame State.onPwr_frame) (hs3.trans (hs2.trans hs1))

theorem State.clearSlot_session {k : Nat} : SessionKept (s.clearSlot k) s := .yieldF (by simp [F.FRS_SLOT_DATA])

theorem State.examine_session {m : Nat} : SessionKept (s.examine m).1 s := by
  unfold State.examine
  extract_lets valid due late s1 s2
  have hs1 : SessionKept s1 s := .foldl fun _ _ => State.clearSlot_session
  have hs2 : SessionKept s2 s := .trans (.incFs (by simp [F.FRS_CNT_LATE, F.FRS_CNT_DUP])) hs1
  clear_value s2 due
  cases due with
  | nil => exact hs2
  | cons k l =>
    dsimp only
    split
    · exact .trans (.incF (by simp [F.FRS_CNT_ACCEPTED])) hs2
    · exact .trans (.setF (by simp [F.FRS_REJ_REASON])) (.trans (.incF (by simp [F.FRS_CNT_REJECTED])) hs2)

theorem State.frostFix_session {n : Nat} : SessionKept (s.frostFix n) s := by
  unfold State.frostFix
  extract_lets m q s1 mode en dflt prev idx on plain r s2 c
  have hs1 : SessionKept s1 s := State.examine_session
  have hs2 : SessionKept s2 s := .trans (.ite (.incF (by simp [F.FRS_CNT_MISSING])) .refl) hs1
  clear_value s2
  have hset : SessionKept (s2.setFs [(F.FRS_STATUS_SEED, c.seed), (F.FRS_STATUS_SOURCE, c.source),
      (F.FRS_STATUS_CHANNELS, c.chan), (F.FRS_STATUS_SLOT, c.slot)]) s2 :=
    .setFs (by simp [F.FRS_STATUS_SEED, F.FRS_STATUS_SOURCE, F.FRS_STATUS_CHANNELS, F.FRS_STATUS_SLOT])
  exact hset.trans hs2

theorem State.takePlane_session {p : Nat} : SessionKept (s.takePlane p) s :=
  (SessionKept.incF (by simp [F.DRM_HOST_PLACE_ERR]) : SessionKept (s.incF F.DRM_HOST_PLACE_ERR _) s)

theorem State.takeRegion_session {g : Nat} : SessionKept (s.takeRegion g) s :=
  (SessionKept.incF (by simp [F.DRM_HOST_PLACE_ERR]) : SessionKept (s.incF F.DRM_HOST_PLACE_ERR _) s)

theorem State.takeCapture_session : SessionKept s.takeCapture s := by
  unfold State.takeCapture
  extract_lets fmt q cap bad
  have hbad : SessionKept (s.incF F.DRM_HOST_PLACE_ERR (b2n bad)) s := .incF (by simp [F.DRM_HOST_PLACE_ERR])
  exact .ite .refl hbad

/-- FORCED of a region stands in the composer's block, at an address that is 0x1C modulo 0x20. -/
theorem BesideSession.forced (g : Nat) : BesideSession (F.CMP_GR_STAT_FORCED g) := by
  simp only [BesideSession, Fld.key, F.CMP_GR_STAT_FORCED, F.TPL_SESSION_OPEN, F.TPL_SESSION_SESSION]
  omega

theorem State.forceRegion_session {n g : Nat} : SessionKept (s.forceRegion n g) s := by
  unfold State.forceRegion
  extract_lets r on f r1 cmp s1
  have hs1 : SessionKept s1 s := (SessionKept.setF (.forced g) : SessionKept (s.setF (F.CMP_GR_STAT_FORCED g) _) s)
  exact .trans (.ite (.of_frame State.tdAdd_frame) .refl) hs1

theorem State.applyPoint_session {n : Nat} : SessionKept (s.applyPoint n) s := by
  unfold State.applyPoint
  extract_lets s1 s2 s3 s4 s5
  have hs1 : SessionKept s1 s := .ite State.takePlane_session .refl
  have hs2 : SessionKept s2 s1 := .ite State.takePlane_session .refl
  have hs3 : SessionKept s3 s2 := .ite (.each fun _ _ => State.takeRegion_session) .refl
  have hs4 : SessionKept s4 s3 := State.takeCapture_session.trans (.trans (.yieldF (by simp [F.CMP_COMMIT_GR]))
    (.trans (.yieldF (by simp [F.CMP_COMMIT_PL2])) (.yieldF (by simp [F.CMP_COMMIT_PL1]))))
  have hs5 : SessionKept s5 s4 := .each fun _ _ => State.forceRegion_session
  clear_value s5 s4 s3 s2 s1
  exact .ite .refl (.trans (t := s5) (.of_regs rfl) (hs5.trans (hs4.trans (hs3.trans (hs2.trans hs1)))))

theorem State.diverge_session : SessionKept s.diverge s := .setF (by simp [F.AUD_REPLAY_STATUS_DIVERGED])

theorem State.replayFrame_session {n v : Nat} : SessionKept (s.replayFrame n v) s := by
  refine .ite .refl ?_
  split
  · exact .ite .refl (.trans (.incF (by simp [F.AUD_REPLAY_CNT_MISMATCH])) State.diverge_session)
  · exact .refl

theorem State.recordingTake_session : SessionKept s.recordingTake s := by
  unfold State.recordingTake
  extract_lets c was aud s0 aud' s1
  have hs0 : SessionKept s0 s := .of_regs rfl
  have hs1 : SessionKept s1 s := .of_regs rfl
  have hstop : SessionKept { s0 with aud := { s0.aud with recording := false } } s := .of_regs rfl
  refine .ite (.ite (.trans (.setF (by simp [F.AUD_LOG_STATUS_STATE])) hs0) ?_)
    (.ite (.trans (.setF (by simp [F.AUD_LOG_STATUS_STATE])) hstop) hs0)
  exact .trans (.of_frame State.logPut_frame) (.trans (.setFs (by simp [F.AUD_LOG_STATUS_STATE, F.AUD_LOG_PTR_PTR])) hs1)

/-! ### The panel link -/

theorem State.onPnl_session {f : PnlSt → PnlSt} : SessionKept (s.onPnl f) s := .of_regs rfl

theorem State.send_session {l : List Stripe} : SessionKept (s.send l) s := State.onPnl_session

theorem State.lanesNow_session : SessionKept s.lanesNow s := .of_frame State.lanesNow_frame

theorem State.startTraining_session : SessionKept s.startTraining s :=
  State.send_session.trans (State.onPnl_session.trans (.trans (.setF (by simp [F.PNL_STATUS_STATE])) State.lanesNow_session))

theorem State.safeLeave_session : SessionKept s.safeLeave s := .ite State.onPnl_session State.startTraining_session

theorem State.truncate_session : SessionKept s.truncate s := by
  unfold State.truncate
  split
  · exact .refl
  · exact State.send_session.trans (State.onPnl_session.trans (.incF (by simp [F.PNL_PKT_TRUNC])))

theorem State.blankStripes_session : SessionKept s.blankStripes s :=
  .ite (State.onPnl_session.trans (.trans (.setF (by simp [F.PNL_STATUS_GEOM_SEQ])) State.send_session)) State.send_session

theorem State.laneLine_session : SessionKept s.laneLine s := by
  unfold State.laneLine
  extract_lets s1
  have hs1 : SessionKept s1 s := State.truncate_session.trans (State.onPnl_session.trans State.lanesNow_session)
  exact .ite (.ite (.incF (by simp [F.PNL_LOST_LINES_LOST])) .refl)
    (.trans (.ite (.ite (.of_frame State.lineHeader_frame) .refl) State.blankStripes_session) hs1)

theorem State.lanePhase0_session : SessionKept s.lanePhase0 s := by
  unfold State.lanePhase0
  extract_lets s1
  have hs1 : SessionKept s1 s := State.laneLine_session
  exact .trans (.ite (.trans (.setF (by simp [F.DEV_BOOT_TIME_T_FIRST])) State.onPnl_session) .refl) hs1

/-! ### The calendar starts (R55, R512) -/

theorem State.calStart_session {n : Nat} : SessionKept (s.calStart n) s :=
  have hs : SessionKept (s.setFs [(F.CAL_STATUS_SYNC_STATE, 0), (F.CAL_STATUS_OUT_OF_RANGE, 0)]) s :=
    .setFs (by simp [F.CAL_STATUS_SYNC_STATE, F.CAL_STATUS_OUT_OF_RANGE])
  hs

theorem State.ctxBoundary_session : SessionKept s.ctxBoundary s := by
  unfold State.ctxBoundary
  extract_lets ctx x0 x
  have hset : SessionKept
      (s.setFs [(F.CAL_RT_POS_LO_F, x.f), (F.CAL_RT_POS_LO_ALIGNED, b2n x.aligned), (F.CAL_RT_POS_HI_I, x.i)]) s :=
    .setFs (by simp [F.CAL_RT_POS_LO_F, F.CAL_RT_POS_LO_ALIGNED, F.CAL_RT_POS_HI_I])
  exact hset

theorem State.framesArrive_session {n : Nat} : SessionKept (s.framesArrive n) s := by
  unfold State.framesArrive
  split
  · exact .refl
  · exact .trans (.setF (by simp [F.INP_HIST_NEWEST_NEWEST])) (.of_regs rfl)

theorem State.beginFrameUnits_session {n : Nat} {msw scw : Bool} : SessionKept (s.beginFrameUnits n msw scw) s :=
  State.lanePhase0_session.trans (.trans (.of_frame State.recBegin_frame) (.trans (.of_frame State.snapStop_frame)
    (.trans (.of_frame State.snapLine_frame) (.trans (.of_frame State.laneBoundary_frame)
      (.trans (.of_frame State.gfxBoundary_frame) State.applyPoint_session)))))

theorem State.rasterStart_session {n : Nat} {boot : Bool} : SessionKept (s.rasterStart n boot) s := by
  unfold State.rasterStart
  extract_lets s1 live blank x a b c s2 s3 s4 s5
  have hs1 : SessionKept s1 s := .trans (.of_frame State.dropCounts_frame) State.calStart_session
  have ha : SessionKept a s1 := .setF (by simp [F.CAL_STATUS_REALTIME])
  have hs2 : SessionKept s2 a := .of_regs rfl
  have hs3 : SessionKept s3 s2 := State.framesArrive_session.trans (.trans (.of_frame State.planGrabs_frame)
    (State.weatherBoundary_session.trans State.ctxBoundary_session))
  have hs4 : SessionKept s4 s3 := .trans (.of_frame State.histTake_frame) (State.drzBoundary_session.trans
    (.trans (.of_frame State.takeTickets_frame) (.of_frame State.writeFormat_frame)))
  have hs5 : SessionKept s5 s4 := State.replayFrame_session.trans (.trans (.of_frame State.recordFrame_frame)
    (State.recordingTake_session.trans State.frostFix_session))
  clear_value s5 s4 s3 s2 a s1
  exact State.beginFrameUnits_session.trans (hs5.trans (hs4.trans (hs3.trans (hs2.trans (ha.trans hs1)))))

/-! ### Changes of mode and hot-plug pulses; the exit from Doldrums (R512) -/

theorem State.decideChange_session : SessionKept s.decideChange s :=
  .trans (.setF (by simp [F.CAL_MODE_CHANGING])) (.of_regs rfl)

theorem State.modeCheck_session : SessionKept s.modeCheck s := by
  unfold State.modeCheck
  extract_lets s1
  have hs1 : SessionKept s1 s := .setF (by simp [F.CAL_MODE_MODE_HELD])
  exact .trans (.ite State.decideChange_session (.ite State.decideChange_session .refl)) hs1

theorem State.noteNoSignal_session : SessionKept s.noteNoSignal s := by
  have hset : ∀ v, SessionKept (s.setF F.INP_PPS_REJECTS_NOSIG_CAUSE v) s :=
    fun _ => .setF (by simp [F.INP_PPS_REJECTS_NOSIG_CAUSE])
  unfold State.noteNoSignal
  split
  · exact hset _
  · exact .ite (hset _) (.ite (hset _) .refl)

/-- SIGNAL of a port stands in the ports' block, at an address that is 4 modulo 0x40. -/
theorem BesideSession.signal (n : Nat) : BesideSession (F.INP_PORT_STATUS_SIGNAL n) := by
  simp only [BesideSession, Fld.key, F.INP_PORT_STATUS_SIGNAL, F.TPL_SESSION_OPEN, F.TPL_SESSION_SESSION]
  omega

theorem State.signalCheck_session {n : Nat} : SessionKept (s.signalCheck n) s := by
  unfold State.signalCheck
  extract_lets s1
  have hs1 : SessionKept s1 s := .trans (.of_frame State.onPort_frame) (.setF (.signal n))
  exact .ite (.trans (.ite (.trans (.of_frame State.cutInput_frame) State.noteNoSignal_session) .refl) hs1) .refl

theorem State.hpdPulse_session {n : Nat} : SessionKept (s.hpdPulse n) s :=
  State.signalCheck_session.trans (.of_frame State.onPort_frame)

theorem State.doldrumsExited_session : SessionKept s.doldrumsExited s := by
  unfold State.doldrumsExited
  split
  · extract_lets s0 nb bands s1 s2 s3 s4 s5 s6
    have hs0 : SessionKept s0 s := .trans (.setF (by simp [F.DRM_STATUS_SELF_REFRESH])) State.waitUntil_session
    have hs1 : SessionKept s1 s0 := .trans (.each fun _ _ => .onCore) (.trans (.each fun _ _ => .onBand) State.gateFor_session)
    have hs2 : SessionKept s2 s1 := State.loadSet_session.trans State.comeBack_session
    have hs3 : SessionKept s3 s2 := .each fun _ _ => .ite State.loadCore_session .refl
    have hs4 : SessionKept s4 s3 :=
      State.transitionDone_session.trans (State.hpdPulse_session.trans State.hpdPulse_session)
    have hs5 : SessionKept s5 s4 := .ite .refl State.rasterStart_session
    have hs6 : SessionKept s6 s5 :=
      .ite .refl (.ite State.safeLeave_session (.setF (by simp [F.PNL_STATUS_SAFE_CAUSE])))
    exact State.modeCheck_session.trans (State.relink_session.trans
      (hs6.trans (hs5.trans (hs4.trans (hs3.trans (hs2.trans (hs1.trans hs0)))))))
  · exact .refl

/-! ### Device reset (R283) -/

theorem State.overrulePhase0_session : SessionKept s.overrulePhase0 s := by
  unfold State.overrulePhase0
  split
  · exact .ite .refl (.trans (.ite (.incF (by simp [F.PNL_LOST_LINES_LOST])) .refl)
      (State.onPnl_session.trans (.uncountF (by simp [F.PNL_PKT_TRUNC]))))
  · exact .refl

theorem State.overruleRetrain_session : SessionKept s.overruleRetrain s := by
  unfold State.overruleRetrain
  split
  · exact .ite (State.onPnl_session.trans (.uncountF (by simp [F.PNL_CNT_RETRAINS]))) .refl
  · exact .refl

theorem State.safeEnter_session {cause : Nat} : SessionKept (s.safeEnter cause) s := by
  unfold State.safeEnter
  extract_lets s1 s1'
  have hs1 : SessionKept s1 s := State.onPnl_session
  have hs1' : SessionKept s1' s :=
    State.lanesNow_session.trans (State.overruleRetrain_session.trans State.overrulePhase0_session)
  refine .ite (.trans (.ite (.setF (by simp [F.PNL_STATUS_SAFE_CAUSE])) .refl) hs1) ?_
  exact State.send_session.trans (State.onPnl_session.trans
    (.trans (.setFs (by simp [F.PNL_STATUS_STATE, F.PNL_STATUS_SAFE_CAUSE])) hs1'))

theorem State.removeFall_session : SessionKept s.removeFall s := by
  unfold State.removeFall
  extract_lets s1 drm
  have hs1 : SessionKept s1 s := .trans
    (.setFs (by simp [F.DEV_HOTPLUG_REMOVED, F.DEV_HOTPLUG_WSTOP, F.DEV_HOTPLUG_NOR_STOP])) State.safeEnter_session
  exact .trans (t := s1) (.of_regs rfl) hs1

/-! ### Responses -/

/-- What answers counts only the requests received, malformed and denied (R482). -/
theorem State.reply_fields {r : Req} {au : Option Accepted} {st : Nat} {p : List Byte} :
    SameFields (s.reply r au st p) s (Among replyCounts) := by
  unfold State.reply
  extract_lets m s1
  have hs1 : SameFields s1 s (Among replyCounts) := by
    intro f hf
    have hne : f.key ≠ F.TPL_RX_REQUESTS.key ∧ f.key ≠ F.TPL_ERR_MALFORMED.key ∧ f.key ≠ F.TPL_ERR_DENIED.key := by
      simpa [Among, replyCounts] using hf
    have hsent : (s.sendMsg r m).regs = s.regs := State.sendMsg_frame.keeps .regs
    rw [State.getF_onTpl, State.getF_incFs_ne _ _ _ (by simpa using hne), State.getF, hsent, State.getF]
  clear_value s1
  split
  · exact .ite (.trans (t := s1) (.of_regs rfl) hs1) hs1
  · exact hs1

theorem State.answerBad_fields {n : Nat} : SameFields (State.answerBad n s) s (Among replyCounts) := by
  induction n generalizing s with
  | zero => exact .refl _ _
  | succ n ih =>
    unfold State.answerBad
    split
    · exact .refl _ _
    · exact .ite (ih.trans State.reply_fields) (.ite (ih.trans State.reply_fields) (.refl _ _))

theorem State.finish_fields {r : Req} {au : Option Accepted} {st : Nat} {p : List Byte} :
    SameFields (s.finish r au st p) s (Among replyCounts) := State.answerBad_fields.trans State.reply_fields

theorem State.finish_session {r : Req} {au : Option Accepted} {st : Nat} {p : List Byte} :
    SessionKept (s.finish r au st p) s := by
  refine .of_fields State.finish_fields fun f hf => ?_
  simp only [Among, replyCounts, List.map_cons, List.map_nil, List.mem_cons, List.not_mem_nil, or_false] at hf
  rcases hf with h | h | h <;> simp only [BesideSession, h] <;> decide

section
variable {β : Type} (g : Sess → β) (hg : ∀ x m, g { x with reply := m } = g x)
include hg

/-- Answering changes nothing of the session but the response stored in it (R464). -/
theorem State.reply_sess {r : Req} {au : Option Accepted} {st : Nat} {p : List Byte} :
    (s.reply r au st p).tpl.sess.map g = s.tpl.sess.map g := by
  have hsent : ∀ m, (s.sendMsg r m).tpl.sess = s.tpl.sess := by
    intro m
    unfold State.sendMsg State.netSend
    split <;> rfl
  unfold State.reply
  cases au with
  | none => simp [hsent]
  | some a =>
    dsimp only
    split <;> simp [hsent, Function.comp_def, hg]

theorem State.answerBad_sess {n : Nat} : (State.answerBad n s).tpl.sess.map g = s.tpl.sess.map g := by
  induction n generalizing s with
  | zero => rfl
  | succ n ih =>
    unfold State.answerBad
    split
    · rfl
    · split
      · rw [ih, State.reply_sess g hg]
      · split
        · rw [ih, State.reply_sess g hg]
        · rfl

theorem State.finish_sess {r : Req} {au : Option Accepted} {st : Nat} {p : List Byte} :
    (s.finish r au st p).tpl.sess.map g = s.tpl.sess.map g :=
  (State.answerBad_sess g hg).trans (State.reply_sess g hg)

theorem State.boundaryStatus_sess {u : State} : (State.boundaryStatus u s).tpl.sess.map g = s.tpl.sess.map g := by
  unfold State.boundaryStatus
  split
  · split
    · rfl
    · exact (State.finish_sess g hg).trans (by rw [State.noteStat_tpl])
  · rfl

end

theorem State.boundaryStatus_session {u : State} : SessionKept (State.boundaryStatus u s) s := by
  unfold State.boundaryStatus
  split
  · exact .ite .refl (State.finish_session.trans (.of_frame State.noteStat_frame))
  · exact .refl

end

end Sys2Proof.Machine

/-! SUPPORT. Sessions (R477 to R479, R283): what opens, closes and denies. -/
namespace Sys2Proof.Machine
-- One proof after another: side by side, this many go past the memory that the check allows.
set_option Elab.async false

/-! ### Requests that name no open session (R478, R479) -/

/-- An AUTH request is denied where no session is open, or where it names another than the open one. -/
theorem State.authCheck_denied {s : State} {r : Req}
    (h : s.liveSess = none ∨ leAt r.msg 12 4 ≠ s.getF F.TPL_SESSION_SESSION) : s.authCheck r = .denied := by
  unfold State.authCheck
  cases hlive : s.liveSess with
  | none => rfl
  | some x =>
    have hne : leAt r.msg 12 4 ≠ s.getF F.TPL_SESSION_SESSION := h.resolve_left (by simp [hlive])
    simp only [hne, ne_eq, not_false_eq_true, true_or, if_true]

/-- A denied AUTH request at the front is answered by its own operation's command, whatever the operation would do. -/
theorem State.serve_of_denied {s : State} {op : Nat} {r : Req} {rest : List Req} (hrx : s.tpl.rx = r :: rest)
    (hwait : s.tpl.waiting = false) (hop : r.op = op) (hauth : r.auth = true) (hdenied : s.authCheck r = .denied)
    (run : State → Req → Option Accepted → State) : s.serve op run = s.finish r none 3 [] := by
  simp [State.serve, hrx, hwait, hop, hauth, hdenied]

/-- The command of each operation serves the request at the front under that operation's code (R465). -/
theorem exec_serves {c : Instr} {op : Nat}
    (h : (c, op) ∈ [(Instr.ident, 0), (.readReg, 1), (.writeReg, 2), (.readMem, 3), (.writeMem, 4), (.loadPage, 5), (.status, 8),
      (.records, 9), (.attest, 0x0A), (.challenge, 0x10), (.openSession, 0x11), (.closeSession, 0x12), (.power, 0x18),
      (.resetDevice, 0x19)]) (s : State) : ∃ run, exec c s = done s (s.serve op run) := by
  simp only [List.mem_cons, Prod.mk.injEq, List.not_mem_nil, or_false] at h
  rcases h with ⟨rfl, rfl⟩ | ⟨rfl, rfl⟩ | ⟨rfl, rfl⟩ | ⟨rfl, rfl⟩ | ⟨rfl, rfl⟩ | ⟨rfl, rfl⟩ | ⟨rfl, rfl⟩ | ⟨rfl, rfl⟩ |
    ⟨rfl, rfl⟩ | ⟨rfl, rfl⟩ | ⟨rfl, rfl⟩ | ⟨rfl, rfl⟩ | ⟨rfl, rfl⟩ | ⟨rfl, rfl⟩ <;> exact ⟨_, rfl⟩

/-! ### Opening and closing -/

/-- No session is open, and TPL_SESSION says so. -/
def SessionClosed (s : State) : Prop := s.tpl.sess = none ∧ s.getF F.TPL_SESSION_OPEN = 0

theorem SessionClosed.of_kept {t s : State} (h : SessionClosed s) (hregs : SessionKept t s) (htpl : t.tpl = s.tpl) :
    SessionClosed t := ⟨by rw [htpl, h.1], hregs.1.trans h.2⟩

theorem State.closeSession_closed (s : State) : SessionClosed s.closeSession :=
  ⟨rfl, by rw [State.closeSession, State.getF_onTpl, State.getF_setF_self]; rfl⟩

/-- Answering opens no session. -/
theorem SessionClosed.finish {s : State} {r : Req} {au : Option Accepted} {st : Nat} {p : List Byte} (h : SessionClosed s) :
    SessionClosed (s.finish r au st p) := by
  have hsess := State.finish_sess (s := s) (r := r) (au := au) (st := st) (p := p) (fun _ => ()) fun _ _ => rfl
  exact ⟨by simpa [h.1] using hsess, State.finish_session.1.trans h.2⟩

/-- A CLOSE that is served closes the session. -/
theorem State.tplClose_of_served {s : State} {r : Req} {rest : List Req} {au : Option Accepted}
    (h : served s 0x12 r rest au) (hlen : r.len = 0) : s.tplClose = (noted s au).closeSession.finish r au 0 [] := by
  rw [State.tplClose, State.serve_of_served h]
  simp only [hlen, ne_eq, not_true_eq_false, if_false]

@[simp] theorem State.noted_now (s : State) (au : Option Accepted) : (noted s au).now = s.now := by cases au <;> rfl

/-- Accepting a request leaves the challenge, the host's keys and the time as they were: it asks for the same session. -/
theorem State.openPoint_noted (s : State) (au : Option Accepted) (b : List Byte) :
    (noted s au).openPoint (noted s au).liveChal b = s.openPoint s.liveChal b := by
  cases au <;> rfl

/-- An OPEN that is served and whose point stands opens the next session, no request of it accepted yet. -/
theorem State.tplOpen_of_served {s : State} {r : Req} {rest : List Req} {au : Option Accepted} {x : Chal × EcPoint}
    (h : served s 0x11 r rest au) (hlen : r.len = 194) (hkey : byteAt r.body 0 ≤ 3)
    (hpoint : s.openPoint s.liveChal r.body = some x) :
    s.tplOpen.getF F.TPL_SESSION_SESSION = (s.getF F.TPL_SESSION_SESSION + 1) % 65536 ∧
      s.tplOpen.tpl.sess.map (fun y => (y.accepted, y.last)) = some (false, s.now) := by
  obtain ⟨c, p⟩ := x
  rw [State.tplOpen, State.serve_of_served h]
  simp only [hlen, State.openPoint_noted, hpoint, ne_eq, not_true_eq_false, false_or, if_neg (Nat.not_lt.2 hkey)]
  constructor
  · rw [State.finish_session.2, State.getF_onTpl, State.getF_incF_ne _ _ (by decide)]
    simp only [State.setFs]
    rw [State.getF_setF_ne _ _ (by decide), State.getF_setF_self, State.getF_noted_ne _ _ (by decide)]
    exact Nat.mod_mod _ _
  · rw [State.finish_sess _ fun _ _ => rfl]
    simp only [State.onTpl_tpl, Option.map_some, State.noted_now]

/-- A device reset leaves no session open (R283). -/
theorem State.deviceReset_closed (s : State) (low : Bool) : SessionClosed (s.deviceReset low) := by
  unfold State.deviceReset
  extract_lets c s1 reset fresh s2
  have hfresh : SessionClosed fresh := ⟨rfl, rfl⟩
  have hs2 : SessionClosed s2 := hfresh.of_kept
    (.setFs (by simp [F.TPL_LINK_STATE, F.TPL_LINK_RATE, F.TPL_LINK_LPI, F.TPL_LINK_MASTER])) (State.setFs_frame.keeps .tpl)
  split
  · exact hs2.of_kept State.removeFall_session (State.removeFall_frame.keeps .tpl)
  · exact hs2

/-- An open session closes once it has been idle for SESS_IDLE seconds, unless SESS_IDLE is 0. -/
theorem State.sessionIdle_of_open {s : State} {x : Sess} (h : s.tpl.sess = some x) (hidle : s.getF F.TPL_CFG_SESS_IDLE ≠ 0) :
    s.sessionIdle = (s.waitUntil (x.last + msCycles (1000 * s.getF F.TPL_CFG_SESS_IDLE))).closeSession := by
  simp only [State.sessionIdle, h, hidle, if_false]

theorem State.sessionIdle_of_zero {s : State} (h : s.getF F.TPL_CFG_SESS_IDLE = 0) : s.sessionIdle = s := by
  simp only [State.sessionIdle, h, if_true]
  split <;> rfl

/-- Of a command that has its operation done, what is asked of the time, the registers and the control link is asked of the
operation. -/
theorem Completes.of_operation {c : Instr} {s t : State} {Q : State → Prop} (hc : exec c s = done s t)
    (hQ : ∀ u : State, u.now = t.now → u.regs = t.regs → u.tpl = t.tpl → Q u) : Completes c s Q :=
  Completes.of_done hc (hQ _ (State.noteStat_now s t) (State.noteStat_regs s t) (State.noteStat_tpl s t))

/-- A command whose operation leaves no session open leaves none open. -/
theorem Completes.of_closed {c : Instr} {s t : State} (hc : exec c s = done s t) (ht : SessionClosed t) :
    Completes c s SessionClosed :=
  Completes.of_operation hc fun _ _ hregs htpl => ht.of_kept (.of_regs hregs) htpl

/-! ### Doldrums (R512) -/

/-- The keys of the open session. -/
def State.sessionKeys (s : State) : Option (List Byte × List Byte) := s.tpl.sess.map fun x => (x.kh, x.kd)

/-- The session stays open: TPL_SESSION and the keys stand. -/
def SessionStays (t s : State) : Prop := SessionKept t s ∧ t.sessionKeys = s.sessionKeys

theorem SessionStays.done {s t u : State} (h : SessionStays u s) (hu : done s u = .next t) : SessionStays t s := by
  cases hu
  exact ⟨.trans (.of_regs (State.noteStat_regs s u)) h.1, .trans (by rw [State.sessionKeys, State.noteStat_tpl]; rfl) h.2⟩

theorem State.doldrumsEntered_stays (s : State) : SessionStays s.doldrumsEntered s := by
  have htpl : s.doldrumsEntered.tpl = s.tpl := State.doldrumsEntered_frame.keeps .tpl
  exact ⟨State.doldrumsEntered_session, by rw [State.sessionKeys, htpl, State.sessionKeys]⟩

/-- A STATUS that the exit answers leaves the session its keys. -/
theorem State.doldrumsExited_stays (s : State) : SessionStays (State.boundaryStatus s s.doldrumsExited) s := by
  have htpl : s.doldrumsExited.tpl = s.tpl := State.doldrumsExited_frame.keeps .tpl
  exact ⟨State.boundaryStatus_session.trans State.doldrumsExited_session,
    (State.boundaryStatus_sess _ fun _ _ => rfl).trans (by rw [htpl, State.sessionKeys])⟩

end Sys2Proof.Machine

namespace Sys2Proof
open Sys2Proof.Machine

/-- Settles O57: each listed event clears the session and OPEN, or puts the next one in its place; nothing on the way into or out of
Doldrums writes TPL_SESSION; and every operation denies an AUTH request that names no open session before its own rules. -/
theorem sessionsCloseAsListed : Obligations.SessionsCloseAsListed := by
  refine ⟨?close, ?opens, fun s low => Completes.of_closed (t := s.deviceReset low) rfl (s.deviceReset_closed low), ?idle, ?never,
    ?doldrums, ?denied⟩
  case close =>
    intro s r rest au h hlen
    refine Completes.of_closed (t := s.tplClose) rfl ?_
    rw [State.tplClose_of_served h hlen]
    exact (State.closeSession_closed _).finish
  case opens =>
    intro s r rest au x h hlen hkey hpoint
    obtain ⟨hnumber, hsess⟩ := State.tplOpen_of_served h hlen hkey hpoint
    obtain ⟨y, hy, hfields⟩ := Option.map_eq_some_iff.1 hsess
    obtain ⟨haccepted, hlast⟩ := Prod.mk.inj hfields
    exact Completes.of_operation (t := s.tplOpen) rfl fun u _ hregs htpl =>
      ⟨(SessionKept.of_regs hregs).2.trans hnumber, y, by rw [htpl, hy], haccepted, hlast⟩
  case idle =>
    intro s x hx hidle
    refine Completes.of_operation (t := s.sessionIdle) rfl fun u hnow hregs htpl => ?_
    rw [State.sessionIdle_of_open hx hidle] at hnow hregs htpl
    exact ⟨hnow.trans (State.waitUntil_now s _), (State.closeSession_closed _).of_kept (.of_regs hregs) htpl⟩
  case never =>
    intro s hzero
    have hdone : exec .sessionIdleTimeout s = done s s := congrArg (done s) (State.sessionIdle_of_zero hzero)
    exact Completes.of_done hdone (done_frame (SameBut.refl s []) rfl)
  case doldrums =>
    intro s t c hc h
    obtain ⟨⟨hopen, hnumber⟩, hkeys⟩ : SessionStays t s := by
      rcases hc with rfl | rfl
      · exact s.doldrumsEntered_stays.done h
      · exact s.doldrumsExited_stays.done h
    exact ⟨hopen, hnumber, hkeys⟩
  case denied =>
    intro s r rest c hop hrx hwait hauth hclosed
    obtain ⟨run, hexec⟩ := exec_serves hop s
    rw [State.serve_of_denied hrx hwait rfl hauth (State.authCheck_denied hclosed)] at hexec
    refine Completes.of_done hexec ⟨?_, done_frame State.finish_frame rfl, done_fields State.finish_fields rfl⟩
    simpa only [answers, State.noteStat_tpl] using s.finish_answers r none 3 []

end Sys2Proof

/-! SUPPORT. The frame of every command: what `exec` can change, command by command; and what follows for the queue. -/
namespace Sys2Proof.Machine
set_option Elab.async false

/-! ### Addresses of the units' registers (R10, R13) -/

theorem blockOf_core {p o : Nat} (hp : p < 72) (ho : o < 0x20000) : blockOf (0x1000000 + p * 0x20000 + o) = some (.core p, o) := by
  unfold blockOf
  dsimp only
  split <;> try omega
  rw [if_neg (by omega), if_pos (by omega)]
  congr 3 <;> omega

theorem blockOf_band {b o : Nat} (hb : b < 8) (ho : o < 0x10000) : blockOf (0x100000 + b * 0x10000 + o) = some (.band b, o) := by
  unfold blockOf
  dsimp only
  split <;> try omega
  rw [if_pos (by omega)]
  congr 3 <;> omega

theorem blockOf_coreEng {p e : Nat} (hp : p < 72) (he : e < 8) : blockOf (coreEng p e) = some (.core p, 0x200 + 0x20 * e) := by
  rw [← blockOf_core (o := 0x200 + 0x20 * e) hp (by omega), coreEng]
  congr 1
  omega

theorem blockOf_bandEng {b e : Nat} (hb : b < 8) (he : e < 2) : blockOf (bandEng b e) = some (.band b, 0x100 + 0x20 * e) := by
  rw [← blockOf_band (o := 0x100 + 0x20 * e) hb (by omega), bandEng]
  congr 1
  omega

theorem blockOf_port {n : Nat} (hn : n < 2) : blockOf (0x20100 + 0x40 * n) = some (.inp, 0x100 + 0x40 * n) := by
  interval_cases n <;> rfl

theorem blockOf_hist {p u : Nat} (hp : p < 72) (hu : u < 4) : blockOf (histCfgAddr p u) = some (.core p, 0x100 + 0x10 * u) := by
  rw [← blockOf_core (o := 0x100 + 0x10 * u) hp (by omega), histCfgAddr]
  congr 1
  omega

theorem engAt_core {p e : Nat} (he : e < 8) : engAt (.core p) (0x200 + 0x20 * e) = some (.core p e) := by
  unfold engAt
  dsimp only
  rw [if_pos (by omega)]
  congr 2
  omega

theorem engAt_band {b e : Nat} (he : e < 2) : engAt (.band b) (0x100 + 0x20 * e) = some (.band b e) := by
  unfold engAt
  dsimp only
  rw [if_pos (by omega)]
  congr 2
  omega

/-- A core is one of 72. -/
theorem isCore_lt {p : Nat} (h : isCore p = true) : p < 72 := of_decide_eq_true h

theorem isPort_lt {n : Nat} (h : isPort n = true) : n < 2 := of_decide_eq_true h

theorem isBand_lt {b : Nat} (h : isBand b = true) : b < 8 := of_decide_eq_true h

/-! ### Host writes of registers (R11 to R17, R454) -/

/-- A host write changes what the write of its block's fields brings about, the registers, and the record of writes; GO of
AUD_REPLAY_CTRL is the one that starts a frame. -/
theorem State.hostWrite_frame_of {s : State} {a v : Nat} {ps : List Part} (ha : a ≠ 0xD0040) (hregs : Part.regs ∈ ps)
    (haud : Part.aud ∈ ps)
    (heff : ∀ blk o u, blockOf a = some (blk, o) → SameBut u s ps → SameBut (State.writeEffect s u blk o v) s ps) :
    SameBut (s.hostWrite a v).2 s ps := by
  have hin : ∀ {l : List Part}, l ⊆ [.regs] → l ⊆ ps := fun hl p hp => by
    have := hl hp
    simp only [List.mem_singleton] at this
    exact this ▸ hregs
  have hreg : SameBut (s.regWrite a v).2 s ps := by
    unfold State.regWrite
    split
    · exact State.incF_frame.mono (hin (by simp))
    · split
      · next blk o fs _ hblk _ _ =>
        split
        · exact State.incF_frame.mono (hin (by simp))
        · split
          · exact SameBut.refl _ _
          · exact heff blk o _ hblk (SameBut.foldl (SameBut.refl _ _) fun y f => State.writeField_frame.mono (hin (by simp)))
      · exact SameBut.refl _ _
  have hlog : SameBut (s.loggedWrite a v).2 s ps := by
    unfold State.loggedWrite
    dsimp only
    split
    · exact hreg
    · exact (State.recordWrite_frame.mono (by simpa using haud)).trans hreg
  unfold State.hostWrite
  split
  · exact State.incF_frame.mono (hin (by simp))
  · simp only [ha, false_and, and_false, if_false]
    exact hlog

/-! ### Every command -/

/-- The parts of the state that a command may change. -/
def mayChange : Instr → List Part
  | .lineStart => [.free, .now, .cal, .regs, .dram, .dramBad, .cores, .bands, .msetSample, .fab, .inp, .tau, .rtFirst,
      .ctxNext, .warp, .sns, .pnl, .aud, .tds]
  | .frameBoundary => [.now, .cal, .regs, .dram, .dramBad, .drm, .cores, .bands, .noBase1, .change, .firstLines, .bucket,
      .pstate, .msetSample, .mwinEnd, .fc, .fab, .inp, .arrived, .avail, .rtJ0, .ctx, .ctxNext, .warp, .drz, .frost, .cmp,
      .pnl, .fbSegs, .fbStarted, .sel, .fbNow, .fbNext, .pwr, .aud, .led, .tpl, .tds]
  | .syncInEdge => [.now, .cal, .regs, .cores, .bands, .aud]
  | .startDescriptorList _ => [.now, .cal, .regs, .cores, .bands]
  | .pendingListStart _ => [.now, .cal, .regs, .cores, .bands]
  | .startLineClause _ _ => [.now, .cal, .regs, .cores, .bands, .signals, .fbStarted]
  | .fallbackSegmentComplete _ _ _ => [.free, .now, .cal, .regs, .cores, .bands, .fbSegs]
  | .lineDeadline _ _ => [.now, .cal, .regs, .cores, .bands, .signals, .fbSegs, .fbStarted, .sel, .fbNow, .fbNext, .tds]
  | .openFrameClauseWindow _ => [.now, .cal, .regs, .cores, .bands, .fc, .fab]
  | .closeFrameClauseWindow _ => [.now, .cal, .regs, .cores, .bands]
  | .graphicsFetch _ => [.now, .cal, .regs, .cores, .bands, .cmp, .tds]
  | .composeLine _ _ => [.now, .cal, .regs, .dram, .dramBad, .cores, .bands, .frost, .cmp, .sel, .aud, .tds]
  | .captureLine _ => [.now, .cal, .regs, .dram, .dramBad, .cores, .bands, .cmp, .tds]
  | .captureWrite => [.regs, .dram, .dramBad, .cores, .bands, .cmp]
  | .openModelSetWindow _ _ => [.now, .cal, .regs, .cores, .bands, .mwinEnd, .fc, .drz]
  | .portCfgWrite _ _ => [.regs, .inp, .aud]
  | .hpdPulseEnd _ => [.now, .cal, .regs, .cores, .bands, .inp]
  | .dpLinkTraining _ _ _ _ => [.regs, .inp]
  | .ppsReceived _ _ => [.regs, .inp]
  | .sdpReceived _ _ => [.regs, .inp]
  | .hdcpAuthentication _ _ => [.regs, .inp]
  | .signalLost _ _ => [.now, .cal, .regs, .cores, .bands, .inp]
  | .inputFrameStart _ _ => [.now, .cal, .regs, .dram, .dramBad, .cores, .bands, .change, .inp, .hist, .arrived, .avail, .cmp,
      .aud]
  | .inputLine _ _ _ _ => [.regs, .dram, .dramBad, .cores, .bands, .inp, .cmp]
  | .stage10LineWrite => [.now, .cal, .regs, .dram, .dramBad, .cores, .bands, .inp, .hist, .arrived, .aud]
  | .blankPathFrame => [.now, .cal, .regs, .dram, .dramBad, .cores, .bands, .inp, .hist, .arrived, .avail, .aud]
  | .issueStep _ _ _ _ => [.now, .cal, .regs, .dram, .dramBad, .cores, .bands, .fc, .fab, .signals, .drz, .pwr, .led]
  | .correctionStallEnd _ => [.now, .cal, .regs, .cores, .bands]
  | .tileLoad _ _ _ _ _ => [.now, .cal, .regs, .cores, .bands, .fc, .fab, .signals]
  | .tileLoadComplete _ _ => [.now, .cal, .regs, .cores, .bands]
  | .weightFileRewrite _ => [.regs, .cores]
  | .prefixLayer _ _ _ _ _ _ => [.now, .cal, .regs, .dram, .dramBad, .cores, .bands, .fc, .fab, .signals]
  | .suffixLayer _ _ _ _ _ _ => [.now, .cal, .regs, .cores, .bands, .fc, .fab, .signals]
  | .suffixRowWrite _ => [.now, .cal, .regs, .cores, .bands]
  | .binEffChange _ => [.now, .cal, .regs, .cores, .bands]
  | .clauseDrained _ _ _ => [.now, .cal, .regs, .cores, .bands, .fc]
  | .semaphoreWait _ _ _ _ => [.now, .cal, .regs, .cores, .bands]
  | .semaphoreSignalArrival _ => [.now, .cal, .regs, .cores, .bands, .signals]
  | .awaitTile _ _ _ _ => [.now, .cal, .regs, .cores, .bands]
  | .consumeTile _ _ _ _ => [.now, .cal, .regs, .cores, .bands]
  | .threadStreamStart _ _ _ _ => [.now, .cal, .regs, .cores, .bands]
  | .backgroundAccess _ _ _ _ _ _ => [.regs, .cores]
  | .scratchpadMapOut _ => [.regs, .cores, .fab, .pwr, .led]
  | .descriptorBurstRead _ _ => [.regs, .cores, .bands, .fc, .fab, .signals]
  | .transferIssue _ => [.regs, .cores, .bands, .fc, .fab, .remotes, .signals, .tds]
  | .transferComplete _ _ _ => [.now, .cal, .regs, .dram, .dramBad, .cores, .bands, .fc, .fab, .remotes, .signals]
  | .lineStoreSlotWrite _ _ _ _ _ => [.now, .cal, .regs, .cores, .bands]
  | .haltRetryTimer _ => [.now, .cal, .regs, .cores, .bands]
  | .engineRetry _ => [.now, .cal, .regs, .cores, .bands, .aud]
  | .engineAbort _ => [.regs, .cores, .bands, .fc, .fab, .aud]
  | .multicastAccepted => [.now, .cal, .regs, .dram, .dramBad, .cores, .bands, .fab]
  | .remoteTransferArrival _ => [.now, .cal, .regs, .dram, .dramBad, .cores, .bands, .fab, .remotes]
  | .barrierArrive _ _ _ _ => [.now, .cal, .regs, .cores, .bands, .fab]
  | .barrierComplete _ => [.now, .cal, .regs, .cores, .bands, .fab]
  | .snapshotArm _ _ _ => [.regs, .fab, .aud]
  | .snapshotCancel => [.regs, .fab, .aud]
  | .snapshotCopyStart => [.regs, .fab]
  | .snapshotCopyComplete => [.regs, .dram, .dramBad, .fab, .warp]
  | .handoverStart _ => [.now, .cal, .regs, .dram, .dramBad, .cores, .bands, .fc, .fab, .remotes, .signals, .drz]
  | .deviceReset _ => [.free, .now, .cal, .regs, .latch, .dram, .dramBad, .drm, .cores, .bands, .prog, .almanac, .sched,
      .noBase1, .change, .firstLines, .bucket, .pstate, .msetSample, .mwinEnd, .fc, .fab, .remotes, .signals, .inp, .hist,
      .arrived, .avail, .tau, .rtFirst, .rtJ0, .ctx, .ctxNext, .warp, .box, .drz, .frost, .sns, .cmp, .pnl, .fbSegs,
      .fbStarted, .sel, .fbNow, .fbNext, .pwr, .seq, .boot, .aud, .led, .tpl, .tds]
  | .dramTrainingComplete _ => [.now, .cal, .regs, .cores, .bands]
  | .modeRequest _ => [.regs, .change, .aud]
  | .scheduleChange => [.now, .cal, .regs, .dram, .dramBad, .cores, .bands, .almanac, .sched, .noBase1, .change, .firstLines,
      .fc, .fab, .remotes, .signals, .tau, .rtFirst, .ctxNext, .warp, .drz]
  | .warpRowWrite _ => [.now, .cal, .regs, .dram, .dramBad, .cores, .bands, .warp]
  | .boxUnitRun _ => [.regs, .fc, .box]
  | .boxUnitComplete => [.now, .cal, .regs, .dram, .dramBad, .cores, .bands, .fc, .box]
  | .cropGrab => [.dram, .dramBad, .cores, .bands, .drz]
  | .drizzleStepStart => [.regs, .cores, .drz]
  | .augmentSample _ => [.regs, .dram, .dramBad, .cores, .bands, .signals, .drz]
  | .gradientOperation _ _ _ => [.now, .cal, .regs, .dram, .dramBad, .cores, .bands, .fc, .fab, .signals, .drz]
  | .drizzleClauseEnd _ _ => [.now, .cal, .regs, .cores, .bands, .fc, .drz]
  | .drizzleUpdateComplete _ => [.free, .now, .cal, .regs, .dram, .dramBad, .cores, .bands, .drz]
  | .commitPageGeneration _ => [.dram, .dramBad, .cores, .bands, .drz]
  | .commitReady => [.now, .cal, .regs, .cores, .bands, .drz]
  | .drizzleEnable => [.regs, .dram, .dramBad, .cores, .bands, .drz, .aud]
  | .drizzleDisable => [.regs, .dram, .dramBad, .cores, .bands, .drz, .aud]
  | .drizzleReset => [.regs, .dram, .dramBad, .cores, .bands, .drz, .aud]
  | .histogramClear _ _ => [.regs, .cores, .aud]
  | .grainTemplatesDone => [.frost]
  | .frostLine _ _ => [.now, .cal, .regs, .cores, .bands, .frost, .sel]
  | .i3cAddressAssignment => [.sns]
  | .sensorRead _ _ => [.free, .now, .cal, .regs, .cores, .bands, .sns, .aud]
  | .internalSample _ _ _ _ => [.now, .cal, .regs, .cores, .bands, .noBase1, .change, .pstate, .msetSample, .mwinEnd, .fc,
      .inp, .ctxNext, .drz, .sns, .cmp, .pnl, .fbSegs, .fbStarted, .sel, .pwr, .aud, .led, .tds]
  | .dataStripeSend _ => [.now, .cal, .regs, .cores, .bands, .pnl]
  | .trainingStart => [.now, .cal, .regs, .cores, .bands, .pnl]
  | .panelLinkRunning => [.now, .cal, .regs, .cores, .bands, .pnl]
  | .trainingTimeout => [.now, .cal, .regs, .cores, .bands, .pnl]
  | .panelRdyLow => [.regs, .pnl]
  | .panelRetrain => [.regs, .pnl, .aud]
  | .panelEnSet => [.regs, .pnl, .aud]
  | .panelEnClear => [.regs, .pnl, .aud]
  | .safeSequenceEnd => [.now, .cal, .regs, .cores, .bands, .pnl]
  | .portGrant _ _ => [.now, .cal, .regs, .drm, .cores, .bands, .fab, .remotes, .signals]
  | .dramAccess _ _ => [.now, .cal, .regs, .dramBad, .drm, .cores, .bands]
  | .refresh _ => [.now, .cal, .regs, .drm, .cores, .bands]
  | .patrolScrubRead _ _ => [.now, .cal, .regs, .dramBad, .drm, .cores, .bands]
  | .scrubWriteback _ => [.now, .cal, .regs, .drm, .cores, .bands]
  | .dramRowMapOut => [.free, .now, .cal, .regs, .dramBad, .drm, .cores, .bands, .led]
  | .frameRecordWrite => [.regs, .dram, .dramBad, .cores, .bands, .aud]
  | .logEntryWrite => [.regs, .dram, .dramBad, .cores, .bands, .aud]
  | .replayGo => [.now, .cal, .regs, .dram, .dramBad, .drm, .cores, .bands, .noBase1, .change, .firstLines, .fc, .fab, .inp,
      .arrived, .avail, .rtJ0, .ctx, .ctxNext, .warp, .drz, .frost, .cmp, .pnl, .fbNow, .fbNext, .pwr, .aud, .led, .tpl,
      .tds]
  | .replayWriteApply => [.now, .cal, .regs, .dram, .dramBad, .cores, .bands, .change, .fc, .fab, .inp, .drz, .pnl, .pwr,
      .aud]
  | .replayEnd => [.now, .cal, .regs, .cores, .bands, .aud]
  | .phyLinkUp _ => [.regs]
  | .ethernetFrameRx _ _ => [.regs, .tpl]
  | .ident => [.regs, .tpl]
  | .readReg => [.now, .cal, .regs, .latch, .cores, .bands, .tpl]
  | .writeReg => [.now, .cal, .regs, .dram, .dramBad, .drm, .cores, .bands, .noBase1, .change, .firstLines, .fc, .fab, .inp,
      .arrived, .avail, .rtJ0, .ctx, .ctxNext, .warp, .drz, .frost, .cmp, .pnl, .fbNow, .fbNext, .pwr, .aud, .led, .tpl,
      .tds]
  | .readMem => [.regs, .tpl]
  | .writeMem => [.regs, .dram, .dramBad, .cores, .bands, .aud, .tpl]
  | .loadPage => [.regs, .dram, .dramBad, .cores, .bands, .aud, .tpl]
  | .status => [.regs, .tpl]
  | .records => [.regs, .tpl]
  | .attest => [.free, .regs, .tpl]
  | .challenge => [.free, .regs, .tpl]
  | .openSession => [.regs, .tpl]
  | .closeSession => [.regs, .tpl]
  | .power => [.regs, .change, .pwr, .tpl]
  | .resetDevice => [.regs, .boot, .tpl]
  | .challengeExpiry => [.now, .cal, .regs, .cores, .bands, .tpl]
  | .lockoutEnd => [.now, .cal, .regs, .cores, .bands, .tpl]
  | .sessionIdleTimeout => [.now, .cal, .regs, .cores, .bands, .tpl]
  | .registerWrite _ _ => [.now, .cal, .regs, .dram, .dramBad, .drm, .cores, .bands, .noBase1, .change, .firstLines, .fc,
      .fab, .inp, .arrived, .avail, .rtJ0, .ctx, .ctxNext, .warp, .drz, .frost, .cmp, .pnl, .fbNow, .fbNext, .pwr, .aud,
      .led, .tds]
  | .pwrGoodRise => [.seq, .boot]
  | .bootStageComplete _ => [.regs, .dram, .dramBad, .drm, .cores, .bands, .prog, .almanac, .sched, .noBase1, .change,
      .bucket, .pstate, .fc, .fab, .inp, .tau, .rtFirst, .drz, .cmp, .pwr, .boot, .aud, .led]
  | .bootComplete => [.now, .cal, .regs, .dram, .dramBad, .drm, .cores, .bands, .noBase1, .change, .firstLines, .fc, .fab,
      .inp, .arrived, .avail, .rtJ0, .ctx, .ctxNext, .warp, .drz, .frost, .cmp, .pnl, .fbNow, .fbNext, .pwr, .boot, .aud,
      .led, .tpl, .tds]
  | .ledgerAppend => [.regs, .led]
  | .bandPowerUpDone => [.now, .cal, .regs, .cores, .bands, .change, .pwr]
  | .doldrumsExitComplete => [.now, .cal, .regs, .dram, .dramBad, .drm, .cores, .bands, .almanac, .sched, .noBase1, .change,
      .firstLines, .bucket, .pstate, .fc, .fab, .inp, .arrived, .avail, .tau, .rtFirst, .rtJ0, .ctx, .ctxNext, .warp, .drz,
      .frost, .cmp, .pnl, .fbNow, .fbNext, .pwr, .aud, .led, .tpl, .tds]
  | .supplyWarning _ _ _ => [.regs, .cores, .pwr]
  | .supplyRecovery _ _ => [.regs, .pwr]
  | .holdoffExpiry => [.now, .cal, .regs, .cores, .bands, .pwr, .led]
  | .supplyReset _ _ _ => [.pwr, .boot]
  | .weatheringMeasurement _ => [.free, .now, .cal, .regs, .cores, .bands, .fab, .pwr, .led]
  | .restoreRequest _ => [.regs, .pwr, .aud]
  | .removeNFall => [.regs, .drm, .pnl]
  | .inputSwitchClose => [.seq]
  | .inputSwitchOpen => [.free, .now, .cal, .regs, .latch, .dram, .dramBad, .drm, .cores, .bands, .prog, .almanac, .sched,
      .noBase1, .change, .firstLines, .bucket, .pstate, .msetSample, .mwinEnd, .fc, .fab, .remotes, .signals, .inp, .hist,
      .arrived, .avail, .tau, .rtFirst, .rtJ0, .ctx, .ctxNext, .warp, .box, .drz, .frost, .sns, .cmp, .pnl, .fbSegs,
      .fbStarted, .sel, .fbNow, .fbNext, .pwr, .seq, .boot, .aud, .led, .tpl, .tds]
  | .phyLinkDown _ => [.regs]
  | .modelSetWindowClose => [.now, .cal, .regs, .cores, .bands, .mwinEnd]
  | .doldrumsEntryComplete => [.now, .cal, .regs, .dram, .dramBad, .cores, .bands, .fab, .remotes, .signals, .warp, .box,
      .pwr]
  | .auxTransaction _ _ => [.inp]
  | .lineStoreMapOut _ => [.regs, .bands, .led]

section
variable {s : State}

theorem State.hostWrite_portCfg_frame {n v : Nat} (hn : n < 2) :
    SameBut (s.hostWrite (0x20100 + 0x40 * n) v).2 s [.regs, .inp, .aud] :=
  State.hostWrite_frame_of (by omega) (by decide) (by decide) fun blk o u hb hu => by
    cases hb.symm.trans (blockOf_port hn)
    exact .ite (State.hpdPulse_frame.call (by decide) hu) hu

theorem State.hostWrite_mode_frame {v : Nat} : SameBut (s.hostWrite 0x10040 v).2 s [.regs, .change, .aud] :=
  State.hostWrite_frame_of (by decide) (by decide) (by decide) fun blk o u hb hu => by
    cases hb
    exact .ite (State.modeCheck_frame.call (by decide) hu) hu

theorem State.hostWrite_panel_frame {v : Nat} : SameBut (s.hostWrite 0x40004 v).2 s [.regs, .pnl, .aud] :=
  State.hostWrite_frame_of (by decide) (by decide) (by decide) fun blk o u hb hu => by
    cases hb
    have hen : SameBut (if bit v 0 then s.enSet else s.enClear) s [.regs, .pnl, .aud] :=
      .ite (State.enSet_frame.mono (by decide)) (State.enClear_frame.mono (by decide))
    unfold State.writeEffect
    dsimp only
    exact .ite (.ite (State.retrain_frame.call (by decide) hen) hen) hu

theorem State.hostWrite_snap_frame {v : Nat} : SameBut (s.hostWrite 0x60000 v).2 s [.regs, .fab, .aud] :=
  State.hostWrite_frame_of (by decide) (by decide) (by decide) fun blk o u hb hu => by
    cases hb
    have hcancel : SameBut (if bit v 1 then u.snapCancel else u) s [.regs, .fab, .aud] :=
      .ite (State.snapCancel_frame.call (by decide) hu) hu
    unfold State.writeEffect
    dsimp only
    exact .ite (.ite (State.snapArm_frame.call (by decide) hcancel) hcancel) hu

theorem State.hostWrite_restore_frame {v : Nat} : SameBut (s.hostWrite 0x90088 v).2 s [.regs, .pwr, .aud] :=
  State.hostWrite_frame_of (by decide) (by decide) (by decide) fun blk o u hb hu => by
    cases hb
    exact .ite (State.restoreAsk_frame.call (by decide) hu) hu

theorem State.hostWrite_drz_frame {v : Nat} :
    SameBut (s.hostWrite 0xC0000 v).2 s [.regs, .dram, .dramBad, .cores, .bands, .drz, .aud] :=
  State.hostWrite_frame_of (by decide) (by decide) (by decide) fun blk o u hb hu => by
    cases hb
    exact .ite (State.drzReset_frame.call (by decide) hu) hu

theorem State.hostWrite_hist_frame {p n v : Nat} (hp : p < 72) (hn : n < 4) :
    SameBut (s.hostWrite (histCfgAddr p n) v).2 s [.regs, .cores, .aud] :=
  State.hostWrite_frame_of (by unfold histCfgAddr; omega) (by decide) (by decide) fun blk o u hb hu => by
    cases hb.symm.trans (blockOf_hist hp hn)
    refine .ite (State.histClear_frame.call (by decide) hu) ?_
    have hnone : engAt (.core p) (0x100 + 0x10 * n) = none := if_neg (by omega)
    rw [hnone]
    exact hu

/-- The write of an engine's control word: RETRY in bit 0, ABORT in bit 1 (R250, R251). -/
theorem State.writeEffect_engine {u : State} {g : EngId} (hg : g.ok = true) {blk : Blk} {o v : Nat} (hb : blockOf g.regs = some (blk, o)) :
    State.writeEffect s u blk o v =
      (let s1 := if bit v 0 then u.hostRetry g else u; if bit v 1 then s1.hostAbort g else s1) := by
  cases g with
  | core p e =>
    obtain ⟨hp, he⟩ : p < 72 ∧ e < 8 := by simpa [EngId.ok, isCore] using hg
    cases hb.symm.trans (blockOf_coreEng hp he)
    unfold State.writeEffect
    dsimp only
    rw [if_neg (by omega), engAt_core he]
  | band b e =>
    obtain ⟨hb', he⟩ : b < 8 ∧ e < 2 := by simpa [EngId.ok, isBand] using hg
    cases hb.symm.trans (blockOf_bandEng hb' he)
    unfold State.writeEffect
    dsimp only
    rw [engAt_band he]

theorem engRegs_ne_replayCtrl (g : EngId) : g.regs ≠ 0xD0040 := by
  cases g <;> simp only [EngId.regs, coreEng, bandEng] <;> omega

theorem State.hostWrite_retry_frame {g : EngId} (hg : g.ok = true) :
    SameBut (s.hostWrite g.regs 1).2 s [.now, .cal, .regs, .cores, .bands, .aud] :=
  State.hostWrite_frame_of (engRegs_ne_replayCtrl g) (by decide) (by decide) fun blk o u hb hu => by
    rw [State.writeEffect_engine hg hb]
    exact State.hostRetry_frame.call (by decide) hu

theorem State.hostWrite_abort_frame {g : EngId} (hg : g.ok = true) :
    SameBut (s.hostWrite g.regs 2).2 s [.regs, .cores, .bands, .fc, .fab, .aud] :=
  State.hostWrite_frame_of (engRegs_ne_replayCtrl g) (by decide) (by decide) fun blk o u hb hu => by
    rw [State.writeEffect_engine hg hb]
    exact State.hostAbort_frame.call (by decide) hu

/-- The queue stays as it is, whatever the operation does with it. -/
theorem done_frame_queue {t u : State} {ps : List Part} (h : SameBut t s (.pending :: ps)) (hu : done s t = .next u) :
    SameBut u s ps := by
  intro p hp
  by_cases hq : p = .pending
  · subst hq
    cases hu
    rfl
  · exact done_frame h hu p (by simp [hq, hp])

/-- What a command's operation changes is what the command changes, where the operation needs well-formed operands. -/
theorem act_frame_of {ok : Bool} {t u : State} {ps : List Part} (h : ok = true → SameBut t s ps) (hu : act ok s t = .next u) :
    SameBut u s ps := by
  refine done_frame ?_ hu
  split
  · next hok => exact h hok
  · exact SameBut.refl _ _

end

/-- The frame of every command. -/
theorem exec_frame (c : Instr) : ChangesAtMost c (mayChange c) := by
  intro s t h
  cases c with dsimp only [mayChange]
  | lineStart => exact done_frame (State.lineStart_frame.mono (by decide)) h
  | frameBoundary => exact done_frame (State.boundaryStatus_frame.call (by decide) (State.frameBoundary_frame.mono (by decide))) h
  | syncInEdge => exact done_frame (State.pinEdge_frame.mono (by decide)) h
  | startDescriptorList _ => exact done_frame (State.almanacLists_frame.mono (by decide)) h
  | pendingListStart _ => exact act_frame (State.startPending_frame.mono (by decide)) h
  | startLineClause _ _ => exact act_frame (State.startSlot_frame.mono (by decide)) h
  | fallbackSegmentComplete _ _ _ => exact act_frame (State.fbComplete_frame.mono (by decide)) h
  | lineDeadline _ _ => exact act_frame (State.lineDeadline_frame.mono (by decide)) h
  | openFrameClauseWindow _ => exact done_frame (State.openWindow_frame.mono (by decide)) h
  | closeFrameClauseWindow _ => exact done_frame (State.closeWindowF_frame.mono (by decide)) h
  | graphicsFetch _ => exact done_frame (State.graphicsFetch_frame.mono (by decide)) h
  | composeLine _ _ => exact done_frame (State.composed_frame.mono (by decide)) h
  | captureLine _ => exact done_frame (State.captureLine_frame.mono (by decide)) h
  | captureWrite => exact done_frame (State.captureWrite_frame.mono (by decide)) h
  | openModelSetWindow _ _ => exact act_frame (State.openMsetStep_frame.mono (by decide)) h
  | portCfgWrite _ _ => exact act_frame_of (fun hok => State.hostWrite_portCfg_frame (isPort_lt hok)) h
  | hpdPulseEnd _ => exact act_frame (State.hpdEnd_frame.mono (by decide)) h
  | dpLinkTraining _ _ _ _ => exact act_frame (State.linkTrain_frame.mono (by decide)) h
  | ppsReceived _ _ => exact act_frame (State.ppsIn_frame.mono (by decide)) h
  | sdpReceived _ _ => exact act_frame (State.sdpIn_frame.mono (by decide)) h
  | hdcpAuthentication _ _ => exact act_frame (State.hdcpAuth_frame.mono (by decide)) h
  | signalLost _ _ => exact act_frame (State.lose_frame.mono (by decide)) h
  | inputFrameStart _ _ => exact act_frame (State.frameStart_frame.mono (by decide)) h
  | inputLine _ _ _ _ => exact act_frame (State.inputLine_frame.mono (by decide)) h
  | stage10LineWrite => exact done_frame (State.stage10_frame.mono (by decide)) h
  | blankPathFrame => exact done_frame (State.blankPath_frame.mono (by decide)) h
  | issueStep _ _ _ _ => exact act_frame (State.stepParity_frame.call (by decide) (State.issueStep_frame.mono (by decide))) h
  | correctionStallEnd _ => exact act_frame (State.stallOver_frame.mono (by decide)) h
  | tileLoad _ _ _ _ _ => exact act_frame (State.tileLoad_frame.mono (by decide)) h
  | tileLoadComplete _ _ => exact act_frame (State.tileLoaded_frame.mono (by decide)) h
  | weightFileRewrite _ => exact act_frame (State.weightRewrite_frame.mono (by decide)) h
  | prefixLayer _ _ _ _ _ _ => exact act_frame (State.prefixLayer_frame.mono (by decide)) h
  | suffixLayer _ _ _ _ _ _ => exact act_frame (State.suffixLayer_frame.mono (by decide)) h
  | suffixRowWrite _ => exact act_frame (State.suffixRow_frame.mono (by decide)) h
  | binEffChange _ => exact act_frame (State.binChange_frame.mono (by decide)) h
  | clauseDrained _ _ _ => exact act_frame (State.clauseDrained_frame.mono (by decide)) h
  | semaphoreWait _ _ _ _ => exact act_frame (State.threadWait_frame.mono (by decide)) h
  | semaphoreSignalArrival _ => exact act_frame (State.signalIn_frame.mono (by decide)) h
  | awaitTile _ _ _ _ => exact act_frame (State.awaitTile_frame.mono (by decide)) h
  | consumeTile _ _ _ _ => exact act_frame (State.consumeTile_frame.mono (by decide)) h
  | threadStreamStart _ _ _ _ => exact act_frame (State.streamStart_frame.mono (by decide)) h
  | backgroundAccess _ _ _ _ _ _ => exact act_frame (State.background_frame.mono (by decide)) h
  | scratchpadMapOut _ => exact act_frame (State.spadMapOutStep_frame.mono (by decide)) h
  | descriptorBurstRead _ _ => exact act_frame (State.burstRead_frame.mono (by decide)) h
  | transferIssue _ => exact act_frame (State.issueXfer_frame.mono (by decide)) h
  | transferComplete _ _ _ => exact act_frame (State.xferComplete_frame.mono (by decide)) h
  | lineStoreSlotWrite _ _ _ _ _ => exact act_frame (State.slotWrite_frame.mono (by decide)) h
  | haltRetryTimer _ => exact act_frame (State.retryTimer_frame.mono (by decide)) h
  | engineRetry _ => exact act_frame_of State.hostWrite_retry_frame h
  | engineAbort _ => exact act_frame_of State.hostWrite_abort_frame h
  | multicastAccepted => exact done_frame (State.mcastAccepted_frame.mono (by decide)) h
  | remoteTransferArrival _ => exact done_frame (State.remoteArrival_frame.mono (by decide)) h
  | barrierArrive _ _ _ _ => exact act_frame (State.barrierArrive_frame.mono (by decide)) h
  | barrierComplete _ => exact act_frame (State.barrierComplete_frame.mono (by decide)) h
  | snapshotArm _ _ _ => exact done_frame State.hostWrite_snap_frame h
  | snapshotCancel => exact done_frame State.hostWrite_snap_frame h
  | snapshotCopyStart => exact done_frame (State.snapStart_frame.mono (by decide)) h
  | snapshotCopyComplete => exact done_frame (State.snapDone_frame.mono (by decide)) h
  | handoverStart _ => exact act_frame (State.handoverStep_frame.mono (by decide)) h
  | deviceReset _ => exact done_frame_queue (State.deviceReset_frame.mono (by decide)) h
  | dramTrainingComplete _ => exact done_frame (State.dramTrained_frame.mono (by decide)) h
  | modeRequest _ => exact done_frame State.hostWrite_mode_frame h
  | scheduleChange => exact done_frame (State.scheduleChangeStep_frame.mono (by decide)) h
  | warpRowWrite _ => exact act_frame (State.warpRowWrite_frame.mono (by decide)) h
  | boxUnitRun _ => exact done_frame (State.boxRun_frame.mono (by decide)) h
  | boxUnitComplete => exact done_frame (State.boxComplete_frame.mono (by decide)) h
  | cropGrab => exact done_frame (State.cropGrab_frame.mono (by decide)) h
  | drizzleStepStart => exact done_frame (State.drzStepStart_frame.mono (by decide)) h
  | augmentSample _ => exact act_frame (State.augment_frame.mono (by decide)) h
  | gradientOperation _ _ _ => exact act_frame (State.gradient_frame.mono (by decide)) h
  | drizzleClauseEnd _ _ => exact act_frame (State.drzClauseEnd_frame.mono (by decide)) h
  | drizzleUpdateComplete _ => exact done_frame (State.drzUpdate_frame.mono (by decide)) h
  | commitPageGeneration _ => exact done_frame (State.commitPages_frame.mono (by decide)) h
  | commitReady => exact done_frame (State.commitReady_frame.mono (by decide)) h
  | drizzleEnable => exact done_frame State.hostWrite_drz_frame h
  | drizzleDisable => exact done_frame State.hostWrite_drz_frame h
  | drizzleReset => exact done_frame State.hostWrite_drz_frame h
  | histogramClear _ _ => exact act_frame_of (fun hok => by
      obtain ⟨hp, hu⟩ : isCore _ = true ∧ _ < 4 := by simpa [Instr.wf] using hok
      exact State.hostWrite_hist_frame (isCore_lt hp) hu) h
  | grainTemplatesDone => exact done_frame (State.templatesDone_frame.mono (by decide)) h
  | frostLine _ _ => exact done_frame (State.frost1_frame.mono (by decide)) h
  | i3cAddressAssignment => exact done_frame (State.assignAddresses_frame.mono (by decide)) h
  | sensorRead _ _ => exact act_frame (State.sensorRead_frame.mono (by decide)) h
  | internalSample _ _ _ _ => exact act_frame (State.internalSample_frame.mono (by decide)) h
  | dataStripeSend _ => exact done_frame (State.stripe_frame.mono (by decide)) h
  | trainingStart => exact done_frame (State.trainingStart_frame.mono (by decide)) h
  | panelLinkRunning => exact done_frame (State.linkRunning_frame.mono (by decide)) h
  | trainingTimeout => exact done_frame (State.trainingTimeout_frame.mono (by decide)) h
  | panelRdyLow => exact done_frame (State.rdyLow_frame.mono (by decide)) h
  | panelRetrain => exact done_frame State.hostWrite_panel_frame h
  | panelEnSet => exact done_frame State.hostWrite_panel_frame h
  | panelEnClear => exact done_frame State.hostWrite_panel_frame h
  | safeSequenceEnd => exact done_frame (State.safeEnd_frame.mono (by decide)) h
  | portGrant _ _ => exact act_frame (State.portGrant_frame.mono (by decide)) h
  | dramAccess _ _ => exact act_frame (State.dramAccess_frame.mono (by decide)) h
  | refresh _ => exact act_frame (State.refresh_frame.mono (by decide)) h
  | patrolScrubRead _ _ => exact act_frame (State.scrubRead_frame.mono (by decide)) h
  | scrubWriteback _ => exact act_frame (State.scrubWriteback_frame.mono (by decide)) h
  | dramRowMapOut => exact done_frame (State.dramMapOut_frame.mono (by decide)) h
  | frameRecordWrite => exact done_frame (State.recWrite_frame.mono (by decide)) h
  | logEntryWrite => exact done_frame (State.logWrite_frame.mono (by decide)) h
  | replayGo => exact done_frame (State.boundaryStatus_frame.call (by decide) (State.hostWrite_frame.mono (by decide))) h
  | replayWriteApply => exact done_frame (State.replayApply_frame.mono (by decide)) h
  | replayEnd => exact done_frame (State.replayFinish_frame.mono (by decide)) h
  | phyLinkUp _ => exact done_frame (State.phyUp_frame.mono (by decide)) h
  | ethernetFrameRx _ _ => exact done_frame (State.frameRx_frame.mono (by decide)) h
  | ident => exact done_frame (State.tplIdent_frame.mono (by decide)) h
  | readReg => exact done_frame (State.tplReadReg_frame.mono (by decide)) h
  | writeReg => exact done_frame (State.tplWriteReg_frame.mono (by decide)) h
  | readMem => exact done_frame (State.tplReadMem_frame.mono (by decide)) h
  | writeMem => exact done_frame (State.tplWriteMem_frame.mono (by decide)) h
  | loadPage => exact done_frame (State.tplLoadPage_frame.mono (by decide)) h
  | status => exact done_frame (State.tplStatus_frame.mono (by decide)) h
  | records => exact done_frame (State.tplRecords_frame.mono (by decide)) h
  | attest => exact done_frame (State.tplAttest_frame.mono (by decide)) h
  | challenge => exact done_frame (State.tplChallenge_frame.mono (by decide)) h
  | openSession => exact done_frame (State.tplOpen_frame.mono (by decide)) h
  | closeSession => exact done_frame (State.tplClose_frame.mono (by decide)) h
  | power => exact done_frame (State.tplPower_frame.mono (by decide)) h
  | resetDevice => exact done_frame (State.tplReset_frame.mono (by decide)) h
  | challengeExpiry => exact done_frame (State.chalExpiry_frame.mono (by decide)) h
  | lockoutEnd => exact done_frame (State.lockoutEnd_frame.mono (by decide)) h
  | sessionIdleTimeout => exact done_frame (State.sessionIdle_frame.mono (by decide)) h
  | registerWrite _ _ => exact done_frame (State.hostWrite_frame.mono (by decide)) h
  | pwrGoodRise => exact done_frame (State.pwrGoodRise_frame.mono (by decide)) h
  | bootStageComplete _ => exact act_frame (State.bootStep_frame.mono (by decide)) h
  | bootComplete => exact done_frame (State.boundaryStatus_frame.call (by decide) (State.bootComplete_frame.mono (by decide))) h
  | ledgerAppend => exact done_frame (State.ledgerAppend_frame.mono (by decide)) h
  | bandPowerUpDone => exact done_frame (State.bandsUp_frame.mono (by decide)) h
  | doldrumsExitComplete => exact done_frame (State.boundaryStatus_frame.call (by decide) (State.doldrumsExited_frame.mono (by decide))) h
  | supplyWarning _ _ _ => exact act_frame (State.supplyWarning_frame.mono (by decide)) h
  | supplyRecovery _ _ => exact act_frame (State.supplyRecovery_frame.mono (by decide)) h
  | holdoffExpiry => exact done_frame (State.holdoffEnd_frame.mono (by decide)) h
  | supplyReset _ _ _ => exact act_frame (State.supplyReset_frame.mono (by decide)) h
  | weatheringMeasurement _ => exact act_frame (State.weatherMeasure_frame.mono (by decide)) h
  | restoreRequest _ => exact act_frame_of (fun _ => State.hostWrite_restore_frame) h
  | removeNFall => exact done_frame (State.removeFall_frame.mono (by decide)) h
  | inputSwitchClose => exact done_frame (State.switchClose_frame.mono (by decide)) h
  | inputSwitchOpen => exact done_frame_queue (State.switchOpen_frame.mono (by decide)) h
  | phyLinkDown _ => exact done_frame (State.phyDown_frame.mono (by decide)) h
  | modelSetWindowClose => exact done_frame (State.closeMset_frame.mono (by decide)) h
  | doldrumsEntryComplete => exact done_frame (State.doldrumsEntered_frame.mono (by decide)) h
  | auxTransaction _ _ => exact act_frame (State.aux_frame.mono (by decide)) h
  | lineStoreMapOut _ => exact act_frame (State.lsMapOut_frame.mono (by decide)) h

end Sys2Proof.Machine

/-! SUPPORT. What every command keeps: the queue, the canonical form of DRAM, and what a container gave the device. -/
namespace Sys2Proof.Machine
set_option Elab.async false

/-! ### The queue (log entry 1) -/

/-- Every command has an operation done: it always answers a next state. -/
theorem exec_done (c : Instr) (s : State) : ∃ t, exec c s = done s t := by
  cases c <;> exact ⟨_, rfl⟩

/-- A command leaves the commands that wait behind it. -/
theorem exec_pending {c : Instr} {s t : State} (h : exec c s = .next t) : t.pending = s.pending := by
  obtain ⟨u, hu⟩ := exec_done c s
  cases hu.symm.trans h
  rfl

/-- A step always answers a next state, and takes the front command off the queue. -/
theorem step_pending (s : State) : ∃ t, step s = .next t ∧ t.pending = s.pending.tail := by
  unfold step
  split
  · next c rest hq =>
    obtain ⟨u, hu⟩ := exec_done c { s with pending := rest }
    exact ⟨_, hu, by rw [hq]; rfl⟩
  · next hq => exact ⟨_, rfl, by rw [hq]; exact hq⟩

/-- `n` steps run the first `n` commands that wait. -/
theorem runs_pending (n : Nat) (s : State) : ∃ t, runs n s = some t ∧ t.pending = s.pending.drop n := by
  induction n generalizing s with
  | zero => exact ⟨s, rfl, rfl⟩
  | succ n ih =>
    obtain ⟨t, hstep, hpend⟩ := step_pending s
    obtain ⟨u, hruns, hrest⟩ := ih t
    exact ⟨u, by rw [runs, hstep]; exact hruns, by rw [hrest, hpend, List.drop_tail]⟩

/-! ### DRAM -/

theorem MemoryCanonical.of_dram {x y : State} (hx : MemoryCanonical x) (h : y.dram = x.dram) : MemoryCanonical y := by
  unfold MemoryCanonical
  rwa [h]

theorem MemoryCanonical.done {s t u : State} (ht : MemoryCanonical t) (hu : done s t = .next u) : MemoryCanonical u := by
  cases hu
  exact ht.of_dram (State.noteStat_dram s t)

theorem MemoryCanonical.act {ok : Bool} {s t u : State} (hs : MemoryCanonical s) (ht : MemoryCanonical t)
    (hu : act ok s t = .next u) : MemoryCanonical u := by
  refine MemoryCanonical.done ?_ hu
  split <;> assumption


/-- Every command keeps DRAM in its canonical form: those that write it by their operation's own law, the others by their frame. -/
theorem exec_memoryCanonical {c : Instr} {s t : State} (hs : MemoryCanonical s) (h : exec c s = .next t) : MemoryCanonical t := by
  have kept (hd : Part.dram ∉ mayChange c) : MemoryCanonical t := MemoryCanonical.frame (exec_frame c s t h) hd hs
  cases c with
  | lineStart => exact MemoryCanonical.done (State.lineStart_mem hs) h
  | frameBoundary => exact MemoryCanonical.done (MemoryCanonical.frame State.boundaryStatus_frame (by decide) (State.frameBoundary_mem hs)) h
  | composeLine _ _ => exact MemoryCanonical.done (State.composed_mem hs) h
  | captureLine _ => exact MemoryCanonical.done (State.captureLine_mem hs) h
  | captureWrite => exact MemoryCanonical.done (State.captureWrite_mem hs) h
  | inputFrameStart _ _ => exact MemoryCanonical.act hs (State.frameStart_mem hs) h
  | inputLine _ _ _ _ => exact MemoryCanonical.act hs (State.inputLine_mem hs) h
  | stage10LineWrite => exact MemoryCanonical.done (State.stage10_mem hs) h
  | blankPathFrame => exact MemoryCanonical.done (State.blankPath_mem hs) h
  | issueStep _ _ _ _ => exact MemoryCanonical.act hs (MemoryCanonical.frame State.stepParity_frame (by decide) (State.issueStep_mem hs)) h
  | prefixLayer _ _ _ _ _ _ => exact MemoryCanonical.act hs (State.prefixLayer_mem hs) h
  | transferComplete _ _ _ => exact MemoryCanonical.act hs (State.xferComplete_mem hs) h
  | multicastAccepted => exact MemoryCanonical.done (State.mcastAccepted_mem hs) h
  | remoteTransferArrival _ => exact MemoryCanonical.done (State.remoteArrival_mem hs) h
  | snapshotCopyComplete => exact MemoryCanonical.done (State.snapDone_mem hs) h
  | handoverStart _ => exact MemoryCanonical.act hs (State.handoverStep_mem hs) h
  | deviceReset _ => exact MemoryCanonical.done State.deviceReset_mem h
  | scheduleChange => exact MemoryCanonical.done (State.scheduleChangeStep_mem hs) h
  | warpRowWrite _ => exact MemoryCanonical.act hs (State.warpRowWrite_mem hs) h
  | boxUnitComplete => exact MemoryCanonical.done (State.boxComplete_mem hs) h
  | cropGrab => exact MemoryCanonical.done (State.cropGrab_mem hs) h
  | augmentSample _ => exact MemoryCanonical.act hs (State.augment_mem hs) h
  | gradientOperation _ _ _ => exact MemoryCanonical.act hs (State.gradient_mem hs) h
  | drizzleUpdateComplete _ => exact MemoryCanonical.done (State.drzUpdate_mem hs) h
  | commitPageGeneration _ => exact MemoryCanonical.done (State.commitPages_mem hs) h
  | drizzleEnable => exact MemoryCanonical.done (State.hostWrite_mem hs) h
  | drizzleDisable => exact MemoryCanonical.done (State.hostWrite_mem hs) h
  | drizzleReset => exact MemoryCanonical.done (State.hostWrite_mem hs) h
  | frameRecordWrite => exact MemoryCanonical.done (State.recWrite_mem hs) h
  | logEntryWrite => exact MemoryCanonical.done (State.logWrite_mem hs) h
  | replayGo => exact MemoryCanonical.done (MemoryCanonical.frame State.boundaryStatus_frame (by decide) (State.hostWrite_mem hs)) h
  | replayWriteApply => exact MemoryCanonical.done (State.replayApply_mem hs) h
  | writeReg => exact MemoryCanonical.done (State.tplWriteReg_mem hs) h
  | writeMem => exact MemoryCanonical.done (State.tplWriteMem_mem hs) h
  | loadPage => exact MemoryCanonical.done (State.tplLoadPage_mem hs) h
  | registerWrite _ _ => exact MemoryCanonical.done (State.hostWrite_mem hs) h
  | bootStageComplete _ => exact MemoryCanonical.act hs (State.bootStep_mem hs) h
  | bootComplete => exact MemoryCanonical.done (MemoryCanonical.frame State.boundaryStatus_frame (by decide) (State.bootComplete_mem hs)) h
  | doldrumsExitComplete => exact MemoryCanonical.done (MemoryCanonical.frame State.boundaryStatus_frame (by decide) (State.doldrumsExited_mem hs)) h
  | inputSwitchOpen => exact MemoryCanonical.done State.switchOpen_mem h
  | doldrumsEntryComplete => exact MemoryCanonical.done (State.doldrumsEntered_mem hs) h
  | _ => exact kept (of_decide_eq_false rfl)

/-! ### Programs, almanac and schedule (R284, R499) -/

/-- The program is kept by every command but a boot stage, a device reset and the loss of the input. -/
theorem prog_kept {c : Instr} (h : ¬ ((∃ i, c = .bootStageComplete i) ∨ (∃ b, c = .deviceReset b) ∨ c = .inputSwitchOpen)) :
    Part.prog ∉ mayChange c := by
  cases c with
  | bootStageComplete i => exact absurd (.inl ⟨i, rfl⟩) h
  | deviceReset b => exact absurd (.inr (.inl ⟨b, rfl⟩)) h
  | inputSwitchOpen => exact absurd (.inr (.inr rfl)) h
  | _ => exact of_decide_eq_false rfl

/-- Almanac and schedule are kept besides by every command but a change of schedule and the exit from Doldrums. -/
theorem sched_kept {c : Instr} (h : ¬ ((∃ i, c = .bootStageComplete i) ∨ (∃ b, c = .deviceReset b) ∨ c = .inputSwitchOpen ∨
    c = .scheduleChange ∨ c = .doldrumsExitComplete)) : Part.almanac ∉ mayChange c ∧ Part.sched ∉ mayChange c := by
  cases c with
  | bootStageComplete i => exact absurd (.inl ⟨i, rfl⟩) h
  | deviceReset b => exact absurd (.inr (.inl ⟨b, rfl⟩)) h
  | inputSwitchOpen => exact absurd (.inr (.inr (.inl rfl))) h
  | scheduleChange => exact absurd (.inr (.inr (.inr (.inl rfl)))) h
  | doldrumsExitComplete => exact absurd (.inr (.inr (.inr (.inr rfl)))) h
  | _ => exact ⟨of_decide_eq_false rfl, of_decide_eq_false rfl⟩

end Sys2Proof.Machine

namespace Sys2Proof
set_option Elab.async false
open Sys2Proof.Machine

/-- Settles O3: every command answers a next state and leaves the queue's rest, so `n` steps take `n` commands off it. -/
theorem queueRunsInOrderAndStaysWellFormed : Obligations.QueueRunsInOrderAndStaysWellFormed := by
  refine ⟨fun n s _ => runs_pending n s, fun s t hs h => ?_⟩
  obtain ⟨u, hu, hpend⟩ := step_pending s
  cases hu.symm.trans h
  unfold QueueWellFormed at *
  rw [List.all_eq_true] at *
  exact fun c hc => hs c (List.mem_of_mem_tail (hpend ▸ hc))

/-- Settles O4: a step is a command's, which keeps the form, or a cycle's, which leaves DRAM as it is. -/
theorem memoryStaysCanonical : Obligations.MemoryStaysCanonical := by
  intro s t hs h
  unfold step at h
  split at h
  · next c rest _ => exact exec_memoryCanonical (s := { s with pending := rest }) hs h
  · cases h
    exact MemoryCanonical.frame State.tick_frame (by decide) hs

/-- Settles O6: by the commands' frames. -/
theorem programsChangeOnlyAtBoot : Obligations.ProgramsChangeOnlyAtBoot := by
  intro c s t h
  have hframe := exec_frame c s t h
  refine ⟨fun hprog => by_contra fun hc => hprog (hframe.keeps .prog (prog_kept hc)), fun hsched => ?_⟩
  by_contra hc
  obtain ⟨ha, hs⟩ := sched_kept hc
  exact hsched.elim (fun hne => hne (hframe.keeps .almanac ha)) fun hne => hne (hframe.keeps .sched hs)

/-- Settles O1: a step looks only at the front of the queue. -/
theorem stepRunsTheFrontCommand : Obligations.StepRunsTheFrontCommand := fun _ _ _ => rfl

/-- Settles O2: the step is the cycle's, of which the laws of passing time speak. -/
theorem emptyQueuePassesOneCycle : Obligations.EmptyQueuePassesOneCycle := by
  intro s hq
  have hstep : step s = .next s.tick := by rw [step, hq]
  have hnow : s.tick.now = s.now + 1 := s.advance_now 1
  have hcal : s.tick.cal = (s.advance 1).cal := rfl
  exact ⟨s.tick, hstep, hq, hnow, by rw [hcal, State.advance_cal], State.tick_frame, s.advance_fields 1⟩

/-- Settles O5: at reset nothing is listed in DRAM or in the register file, and nothing waits. -/
theorem resetState : Obligations.ResetState := ⟨memory_reset, rfl, rfl, rfl, fun _ => rfl⟩

/-- Settles O54: the frame of every command is proved once, for the table of what a command may change. -/
theorem commandsChangeOnlyTheirParts : Obligations.CommandsChangeOnlyTheirParts := by
  unfold Obligations.CommandsChangeOnlyTheirParts
  repeat' apply And.intro
  all_goals intros; exact exec_frame _

end Sys2Proof

/-! SUPPORT. What a command completes with, asked of its operation. -/
namespace Sys2Proof.Machine
set_option Elab.async false

theorem State.noteStat_eq (s t : State) : State.noteStat s t = { t with stat := (State.noteStat s t).stat } := by
  unfold State.noteStat
  split <;> rfl

/-- Of a command whose operation is done, what is asked is asked of the operation: the queue and the status word kept aside are no
part of it. -/
theorem Completes.of_op {c : Instr} {s t : State} {Q : State → Prop} (hc : exec c s = done s t)
    (hQ : ∀ w, Q { t with pending := s.pending, stat := w }) : Completes c s Q := by
  refine Completes.of_done hc ?_
  rw [State.noteStat_eq]
  exact hQ _

/-- The same of a command that acts where its operands are well formed. -/
theorem Completes.of_act {c : Instr} {ok : Bool} {s t : State} {Q : State → Prop} (hc : exec c s = act ok s t) (hok : ok = true)
    (hQ : ∀ w, Q { t with pending := s.pending, stat := w }) : Completes c s Q := by
  subst hok
  exact Completes.of_op hc hQ

/-- What an operation changes is what the command's end state differs in. -/
theorem SameBut.ended {t s : State} {ps : List Part} (h : SameBut t s ps) (w : Nat × Nat) :
    SameBut { t with pending := s.pending, stat := w } s ps := by
  intro p hp
  have hkept := h p hp
  cases p <;> first | with_reducible rfl | exact hkept

/-- The end state is the operation's own, where that leaves the queue alone. -/
theorem SameBut.ended_self {t s : State} (h : t.pending = s.pending) (ps : List Part) (w : Nat × Nat) :
    SameBut { t with pending := s.pending, stat := w } t ps := by
  intro p _
  cases p <;> first | with_reducible rfl | exact h.symm

/-! ### Fields among those listed -/

/-- A field at the place of one listed. -/
theorem Among.of {fs : List Fld} {f g : Fld} (hf : f ∈ fs) (e : g.key = f.key) : Among fs g := List.mem_map.2 ⟨f, hf, e.symm⟩

/-- A field at the place of none listed. -/
theorem not_among {fs : List Fld} {f : Fld} (h : f.key ∉ fs.map Fld.key := by decide) : ¬ Among fs f := h

theorem Among.mono {fs gs : List Fld} {f : Fld} (h : Among fs f) (hsub : fs ⊆ gs) : Among gs f := List.map_subset Fld.key hsub h

/-- A write of a listed field. -/
theorem SameFields.setIn {s : State} {f : Fld} {v : Nat} {fs : List Fld} (hf : f ∈ fs) : SameFields (s.setF f v) s (Among fs) :=
  SameFields.setF fun _ e => Among.of hf e

/-- A count in a listed field. -/
theorem SameFields.incIn {s : State} {f : Fld} {v : Nat} {fs : List Fld} (hf : f ∈ fs) : SameFields (s.incF f v) s (Among fs) :=
  SameFields.incF fun _ e => Among.of hf e

/-- A frame with more fields listed. -/
theorem SameFields.widen {t s : State} {fs gs : List Fld} (h : SameFields t s (Among fs)) (hsub : fs ⊆ gs) :
    SameFields t s (Among gs) := h.mono fun _ hf => hf.mono hsub

/-- Writes of listed fields. -/
theorem SameFields.setsIn {s : State} {l : List (Fld × Nat)} {fs : List Fld} (hf : l.map (·.1) ⊆ fs) :
    SameFields (s.setFs l) s (Among fs) :=
  SameFields.setFs fun x hx _ e => Among.of (hf (List.mem_map.2 ⟨x, hx, rfl⟩)) e

/-! ### What a chain of operations keeps -/

/-- The parts listed are in `t` what they are in `s`. -/
def Keeps (ps : List Part) (t s : State) : Prop := ∀ p ∈ ps, p.same t s

theorem Keeps.refl (ps : List Part) (s : State) : Keeps ps s s := fun p _ => by cases p <;> rfl

theorem Keeps.trans {ps : List Part} {u t s : State} (h1 : Keeps ps u t) (h2 : Keeps ps t s) : Keeps ps u s :=
  fun p hp => Part.same_trans (h1 p hp) (h2 p hp)

/-- A frame keeps what it does not list. -/
theorem SameBut.toKeeps {ps qs : List Part} {t s : State} (h : SameBut t s qs) (hd : ∀ p ∈ ps, p ∉ qs := by decide) :
    Keeps ps t s := fun p hp => h p (hd p hp)

/-- One more operation, of which the frame is known. -/
theorem Keeps.step {ps qs : List Part} {y x s : State} (hx : Keeps ps x s) (h : SameBut y x qs)
    (hd : ∀ p ∈ ps, p ∉ qs := by decide) : Keeps ps y s := (h.toKeeps hd).trans hx

theorem Keeps.ite {ps : List Part} {c : Prop} [Decidable c] {a b s : State} (ha : Keeps ps a s) (hb : Keeps ps b s) :
    Keeps ps (if c then a else b) s := by
  split <;> assumption

theorem Keeps.foldl {α : Type} {ps : List Part} {f : State → α → State} {l : List α} {x s : State} (hx : Keeps ps x s)
    (hf : ∀ y a, Keeps ps (f y a) y) : Keeps ps (l.foldl f x) s := by
  induction l generalizing x with
  | nil => exact hx
  | cons a l ih => exact ih ((hf x a).trans hx)

theorem Keeps.each {ps : List Part} {n : Nat} {f : State → Nat → State} {x s : State} (hx : Keeps ps x s)
    (hf : ∀ y a, Keeps ps (f y a) y) : Keeps ps (x.each n f) s := hx.foldl hf

/-- A part that is kept. -/
theorem Keeps.at {ps : List Part} {t s : State} (h : Keeps ps t s) (p : Part) (hp : p ∈ ps := by decide) : p.same t s := h p hp

end Sys2Proof.Machine

/-! SUPPORT. The raster (R42, R43) and the edges of SYNC_IN (R51): what the steps of a line start and of a boundary leave of time and
calendar. -/
namespace Sys2Proof.Machine
set_option Elab.async false

section
variable {s : State}

/-! ### Registers while time passes -/

/-- Time changes registers of the bands and cores alone (R247, R206). -/
theorem WithTime.above {f : Fld} (h : WithTime f) : 0x2000000 ≤ f.key := by
  obtain ⟨p, hp⟩ := h
  simp only [Among, stallFields, mergeFields, List.cons_append, List.nil_append, List.map_cons, List.map_nil, List.mem_cons,
    List.not_mem_nil, or_false] at hp
  rcases hp with h | h | h | h | h | h | h | h | h | h | h | h | h | h | h <;> rw [h] <;>
    simp only [Fld.key, F.CORE_STALL_FULL_STALL_FULL, F.CORE_STALL_EMPTY_STALL_EMPTY, F.CORE_STALL_HALT_STALL_HALT,
      F.CORE_STALL_IN_STALL_IN, F.CORE_STALL_DATA_STALL_DATA, F.CORE_STALL_SLOT_STALL_SLOT, F.CORE_STALL_SUFFIX_STALL_SUFFIX,
      F.CORE_BARRIER_BARRIER_WAIT, F.CORE_SPAD_ECC_CORRECTED, F.CORE_SPAD_ECC_UNCORR, F.CORE_SPAD_LAST_BANK, F.CORE_SPAD_LAST_ROW,
      F.CORE_SPAD_LAST_UNC, F.BAND_LS_ECC_CORRECTED, F.BAND_LS_ECC_UNCORR] <;> omega

/-- A register of a device block holds through a wait. -/
theorem State.getF_waitUntil (s : State) (n : Nat) {f : Fld} (h : f.key < 0x2000000 := by decide) :
    (s.waitUntil n).getF f = s.getF f :=
  s.waitUntil_fields n f fun hf => Nat.not_lt.2 hf.above h

@[simp] theorem State.waitUntil_lp (s : State) (n : Nat) : (s.waitUntil n).lp = s.lp := s.getF_waitUntil n

/-- When the accumulator reaches `a`, it is there (R43). -/
theorem State.acc_reached (s : State) (a : Nat) : a ≤ s.cal.acc + 65536 * (s.cycleOfAcc a - s.now) := by
  unfold State.cycleOfAcc ceilDiv
  split
  · omega
  · rw [if_neg (by decide)]
    omega

/-! ### What of the calendar the steps within a line keep -/

/-- The time and the calendar's position: line, frame, accumulator, and the entries that have fired on the line. -/
def State.raster (s : State) : Nat × Nat × Nat × Nat × List Nat := (s.now, s.cal.line, s.cal.frame, s.cal.acc, s.cal.fired)

theorem Keeps.raster {t : State} (h : Keeps [.now, .cal] t s) : t.raster = s.raster := by
  have hnow : t.now = s.now := h.at .now
  have hcal : t.cal = s.cal := h.at .cal
  simp only [State.raster, hnow, hcal]

theorem SameBut.raster {t : State} {qs : List Part} (h : SameBut t s qs) (hd : ∀ p ∈ [Part.now, .cal], p ∉ qs := by decide) :
    t.raster = s.raster := (h.toKeeps hd).raster

/-- The calendar's window and the synchronisation state hold none of it. -/
theorem State.toSync_cal (s : State) (st : Nat) : (s.toSync st).cal = { s.cal with heldFree := (s.toSync st).cal.heldFree } := by
  unfold State.toSync
  dsimp only
  split <;> split <;> rfl

theorem State.toSync_now (s : State) (st : Nat) : (s.toSync st).now = s.now := State.toSync_frame.keeps .now

theorem State.toSync_raster (s : State) (st : Nat) : (s.toSync st).raster = s.raster := by
  rw [State.raster, State.toSync_now, State.toSync_cal]
  rfl

theorem State.closeWindow_raster (s : State) : s.closeWindow.raster = s.raster := by
  unfold State.closeWindow
  dsimp only
  split
  · split
    · split
      · exact State.toSync_raster _ _
      · rfl
    · rfl
  · rfl

theorem State.decideVTotal_raster (s : State) : s.decideVTotal.raster = s.raster := by
  unfold State.decideVTotal
  extract_lets +onlyGivenNames cfg _ s0 s1 st v s2 s3
  have h1 : s1.raster = s.raster := by
    unfold s1
    split
    · exact State.toSync_raster _ _
    · rfl
  have h3 : s3.raster = s1.raster := by
    unfold s3 s2
    split <;> rfl
  exact h3.trans h1

theorem State.decisionCycle_raster (s : State) : s.decisionCycle.raster = s.raster := by
  unfold State.decisionCycle
  extract_lets +onlyGivenNames s1 v s2 s3
  have h2 : Keeps [.now, .cal] s2 s1 := ((((Keeps.refl _ s1).step State.onPnl_frame).step State.recVt_frame).step State.snapVTotal_frame)
  have h3 : Keeps [.now, .cal] s3 s2 := (((Keeps.refl _ s2).step State.sampleMset_frame).step State.retimerDecision_frame).step
    State.replaySamples_frame |>.step State.sensorVector_frame
  exact ((h3.trans h2).step State.writeContext_frame).raster.trans s.decideVTotal_raster

/-! ### A line starts (R43) -/

/-- A line start that may happen happens in the cycle in which the accumulator reaches LP. -/
theorem State.lineStart_raster (hrun : s.cal.running = true) (hlp : s.lp ≠ 0) (hb : s.atBoundary = false) :
    s.lineStart.raster = (max s.now (s.cycleOfAcc s.lp), s.cal.line + 1, s.cal.frame,
      s.cal.acc + 65536 * (s.cycleOfAcc s.lp - s.now) - s.lp, []) := by
  unfold State.lineStart
  rw [if_neg (by simp [hrun, hlp, hb])]
  extract_lets +onlyGivenNames s1 c1 s2 s3
  have h3 : s3.raster = s2.raster :=
    (((Keeps.refl _ _).step State.snapLine_frame).step State.snapStop_frame).raster.trans s2.closeWindow_raster
  have h4 : (if s3.cal.line = s3.vActive then s3.decisionCycle else s3).raster = s3.raster := by
    split
    · exact s3.decisionCycle_raster
    · rfl
  refine State.lanePhase0_frame.raster.trans (h4.trans (h3.trans ?_))
  simp [State.raster, s2, c1, s1, State.waitUntil_cal, hrun]

/-! ### A frame boundary (R42) -/

/-- What a measured pulse makes of the calendar (R51). -/
theorem State.measure_cal (s : State) (pulse : Nat) : ∃ e p b h, (s.measure pulse).cal = { s.cal with
    e12 := e, p12 := p, lastPulse := some pulse, noPulse := 0, bigE := b,
    edges := s.cal.edges.filter (fun t => t != pulse), winOpen := false, heldFree := h } := by
  unfold State.measure
  extract_lets +onlyGivenNames c e12 p12 inRange big s1 s2 s3 s4
  have h3 : s3.cal = s1.cal := by
    unfold s3 s2
    split <;> rfl
  clear_value s3 inRange p12
  split
  · exact ⟨_, _, _, _, h3⟩
  · split
    · exact ⟨_, _, _, _, (State.toSync_cal _ _).trans (by rw [State.setF_cal, h3])⟩
    · split
      · exact ⟨_, _, _, _, (State.toSync_cal _ _).trans (by rw [State.setF_cal, h3])⟩
      · exact ⟨_, _, _, _, h3⟩

/-- Assigning an edge keeps the position and the decided V_TOTAL. -/
theorem State.assign_raster (s : State) : s.assign.raster = s.raster ∧ s.assign.cal.vTot = s.cal.vTot := by
  unfold State.assign
  split
  · split
    · next t _ =>
      obtain ⟨e, p, b, h, hcal⟩ := s.measure_cal t
      have hnow : (s.measure t).now = s.now := State.measure_frame.keeps .now
      simp only [State.raster, hnow, hcal, and_self]
    · exact ⟨rfl, rfl⟩
  · exact ⟨rfl, rfl⟩

theorem State.enterDoldrums_raster (s : State) (b : Bool) :
    (s.enterDoldrums b).raster = s.raster ∧ (s.enterDoldrums b).cal.vTot = s.cal.vTot := by
  unfold State.enterDoldrums
  extract_lets +onlyGivenNames s1 s2
  have h2 : Keeps [.now, .cal] s2 s := by
    refine Keeps.step (Keeps.step ?_ State.hpdLow_frame) State.hpdLow_frame
    refine Keeps.step (Keeps.step ?_ State.abandonSteps_frame) State.discardFrame_frame
    exact (Keeps.step (Keeps.refl _ s) State.safeEnter_frame).step State.abandonRuns_frame
  have hset (l : List (Fld × Nat)) : (s2.setFs l).now = s2.now := State.setFs_frame.keeps .now
  have hnow : s2.now = s.now := h2.at .now
  have hcal : s2.cal = s.cal := h2.at .cal
  clear_value s2
  refine ⟨?_, by rw [← hcal]⟩
  change (_, s2.cal.line, s2.cal.frame, s2.cal.acc, s2.cal.fired) = _
  rw [hset, hnow, hcal, State.raster]

/-- The frame after this one begins in the cycle in which the accumulator reaches LP. -/
theorem State.turnFrame_cal (s : State) (n v : Nat) : (s.turnFrame n v).now = max s.now (s.cycleOfAcc s.lp) ∧
    (s.turnFrame n v).cal.frame = n ∧ (s.turnFrame n v).cal.line = 0 ∧ (s.turnFrame n v).cal.vTot = none ∧
    (s.turnFrame n v).cal.fired = [] :=
  ⟨s.waitUntil_now _, rfl, rfl, rfl, rfl⟩

/-- The boundary begins the next frame, with no line of it from the fallback counted (R42, R66). -/
theorem State.frameBoundary_cal {v : Nat} (hrun : s.cal.running = true) (hlp : s.lp ≠ 0) (hv : s.cal.vTot = some v)
    (hb : v ≤ s.cal.line + 1) :
    s.frameBoundary.now = max s.now (s.cycleOfAcc s.lp) ∧ s.frameBoundary.cal.frame = (s.cal.frame + 1) % 2 ^ 32 ∧
      s.frameBoundary.cal.line = 0 ∧ s.frameBoundary.cal.vTot = none ∧ s.frameBoundary.cal.fired = [] ∧ s.frameBoundary.fbNext = 0 := by
  have hat : s.atBoundary = true := by simp [State.atBoundary, hv, hb]
  unfold State.frameBoundary
  split
  · next hnone => cases hv.symm.trans hnone
  next v' hv' =>
  cases hv.symm.trans hv'
  rw [if_neg (by simp [hrun, hlp, hat])]
  extract_lets +onlyGivenNames n scw s1 s2 q s3 _ s4 s5 s6 s7 s8
  obtain ⟨tnow, tframe, tline, tvTot, tfired⟩ := s.turnFrame_cal n v
  have h1 : Keeps [.now, .cal] s1 (s.turnFrame n v) := ((Keeps.refl _ _).step State.publish_frame).step State.histSnap_frame
  have f1 : s1.fbNext = 0 := State.histSnap_frame.keeps .fbNext
  have h2 : Keeps [.now, .cal, .fbNext] s2 s1 :=
    (Keeps.each (Keeps.refl _ s1) fun _ _ => State.handoverDone_frame.toKeeps).step State.ctxBoundary_frame
  have h3 : Keeps [.now, .cal, .fbNext] s3 s2 := ((((Keeps.refl _ s2).step State.msetSwitch_frame).step State.changeStep_frame).step
    State.weatherBoundary_frame).step State.realtime_frame
  clear_value s3
  have h4 : s4.raster = s3.raster ∧ s4.cal.vTot = s3.cal.vTot ∧ s4.fbNext = s3.fbNext := ⟨rfl, rfl, rfl⟩
  have h5 : Keeps [.now, .cal, .fbNext] s5 s4.assign :=
    ((Keeps.refl _ _).step State.planGrabs_frame).step State.framesArrive_frame
  have h6 : Keeps [.now, .cal, .fbNext] (((s5.clausesBoundary n).warpBoundary).writeFormat) s5 :=
    (((Keeps.refl _ s5).step State.clausesBoundary_frame).step State.warpBoundary_frame).step State.writeFormat_frame
  have h7 : Keeps [.now, .cal, .fbNext] s7 s6 := (((Keeps.refl _ s6).step State.drzBoundary_frame).step
    State.histTake_frame).step State.frostFix_frame |>.step State.forgetOld_frame
  have h8 : Keeps [.now, .cal, .fbNext] s8 s4.assign := by
    refine Keeps.trans ?_ (h7.trans ((h6.step State.dramBoundary_frame).trans h5))
    exact (((Keeps.refl _ s7).step State.capPrune_frame).step State.recordingTake_frame).step State.recordFrame_frame
      |>.step State.replayFrame_frame
  have hend : ∀ x : State, x.raster = s8.raster → x.cal.vTot = s8.cal.vTot → x.fbNext = s8.fbNext →
      x.now = max s.now (s.cycleOfAcc s.lp) ∧ x.cal.frame = n ∧ x.cal.line = 0 ∧ x.cal.vTot = none ∧ x.cal.fired = [] ∧
        x.fbNext = 0 := by
    intro x hr hvt hfb
    have c1 : s1.cal = (s.turnFrame n v).cal := h1.at .cal
    have n1 : s1.now = (s.turnFrame n v).now := h1.at .now
    have c3 : s3.cal = s1.cal := ((h3.trans h2).at .cal)
    have n3 : s3.now = s1.now := ((h3.trans h2).at .now)
    have b3 : s3.fbNext = s1.fbNext := ((h3.trans h2).at .fbNext)
    have c8 : s8.cal = s4.assign.cal := h8.at .cal
    have n8 : s8.now = s4.assign.now := h8.at .now
    have b8 : s8.fbNext = s4.assign.fbNext := h8.at .fbNext
    have b5 : s4.assign.fbNext = s4.fbNext := State.assign_frame.keeps .fbNext
    have hraster : x.raster = (s.turnFrame n v).raster := by
      rw [hr, State.raster, c8, n8, ← State.raster, s4.assign_raster.1, h4.1, State.raster, c3, n3, c1, n1, State.raster]
    simp only [State.raster, Prod.mk.injEq] at hraster
    obtain ⟨xnow, xline, xframe, _, xfired⟩ := hraster
    refine ⟨xnow.trans tnow, xframe.trans tframe, xline.trans tline, ?_, xfired.trans tfired, ?_⟩
    · rw [hvt, c8, s4.assign_raster.2, h4.2.1, c3, c1, tvTot]
    · rw [hfb, b8, b5, h4.2.2, b3, f1]
  split
  · exact hend _ (s8.enterDoldrums_raster false).1 (s8.enterDoldrums_raster false).2 (State.enterDoldrums_frame.keeps .fbNext)
  · have hu : Keeps [.now, .cal, .fbNext] (s8.beginFrameUnits n q.2 scw) s8 := State.beginFrameUnits_frame.toKeeps
    have hc : (s8.beginFrameUnits n q.2 scw).cal = s8.cal := hu.at .cal
    exact hend _ (State.beginFrameUnits_frame.raster) (by rw [hc]) (hu.at .fbNext)

/-! ### Edges of SYNC_IN (R51) -/

/-- The edges kept lie before the window: a new one that lies in it is the first there. -/
theorem State.windowEdge_new {t : Nat} (hold : ∀ x ∈ s.cal.edges, x < s.cal.winFrom) (hfrom : s.cal.winFrom ≤ t) (hnow : t ≤ s.now)
    (hend : t < lineCycle s.cal.t0 s.cal.acc0 s.lp s.cal.winEnd) :
    ({ s with cal := { s.cal with edges := s.cal.edges ++ [t] } } : State).windowEdge = some t := by
  have hlp : ({ s with cal := { s.cal with edges := s.cal.edges ++ [t] } } : State).lp = s.lp := rfl
  unfold State.windowEdge
  simp only [hlp]
  rw [List.find?_append, List.find?_eq_none.2 fun x hx => by simp [Nat.not_le.2 (hold x hx)], Option.none_or]
  simp [hfrom, hnow, hend]

end

end Sys2Proof.Machine

namespace Sys2Proof
set_option Elab.async false
open Sys2Proof.Machine

/-- Settles O7: the steps of a line start and of a boundary keep the position that the calendar's turn gives it. -/
theorem rasterAdvancesByLinesAndFrames : Obligations.RasterAdvancesByLinesAndFrames := by
  refine ⟨fun s hrun hlp hb => ?_, fun s v hrun hlp hv hb => ?_⟩
  · refine Completes.of_op (t := s.lineStart) rfl fun w => ?_
    have hr := State.lineStart_raster hrun hlp hb
    simp only [State.raster, Prod.mk.injEq] at hr
    obtain ⟨hnow, hline, hframe, hacc, hfired⟩ := hr
    have hreach := s.acc_reached s.lp
    refine ⟨hnow, hline, hframe, ?_, hfired⟩
    change s.lineStart.cal.acc + s.lp = s.cal.acc + 65536 * (s.lineStart.now - s.now)
    rw [hacc, hnow]
    omega
  · refine Completes.of_op (t := State.boundaryStatus s s.frameBoundary) rfl fun w => ?_
    have hkeep : Keeps [.now, .cal, .fbNext] (State.boundaryStatus s s.frameBoundary) s.frameBoundary := State.boundaryStatus_frame.toKeeps
    have hcal : (State.boundaryStatus s s.frameBoundary).cal = s.frameBoundary.cal := hkeep.at .cal
    have hnow : (State.boundaryStatus s s.frameBoundary).now = s.frameBoundary.now := hkeep.at .now
    have hfb : (State.boundaryStatus s s.frameBoundary).fbNext = s.frameBoundary.fbNext := hkeep.at .fbNext
    simp only [hcal, hnow, hfb]
    exact State.frameBoundary_cal hrun hlp hv hb

/-- Settles O8: an edge is kept; the first one that the open window holds is measured. -/
theorem syncEdgesAreKeptOrMeasured : Obligations.SyncEdgesAreKeptOrMeasured := by
  have hrec (s : State) (t : Nat) : Keeps [.now, .cal] (s.record F.AUD_REC_CTRL_SYNC ⟨2, false, t, []⟩) s :=
    State.record_frame.toKeeps
  refine ⟨fun s hreplay hclosed => ?_, fun s hreplay hopen hfrom hend hold => ?_, fun s e hreplay hclosed hfind => ?_⟩
  · refine Completes.of_op (t := s.pinEdge) rfl fun w => ?_
    have hcal : (s.record F.AUD_REC_CTRL_SYNC ⟨2, false, s.now, []⟩).cal = s.cal := (hrec s s.now).at .cal
    have hnow : (s.record F.AUD_REC_CTRL_SYNC ⟨2, false, s.now, []⟩).now = s.now := (hrec s s.now).at .now
    simp [State.pinEdge, hreplay, State.assign, hcal, hnow, hclosed]
  · refine Completes.of_op (t := s.pinEdge) rfl fun w => ?_
    let x := s.record F.AUD_REC_CTRL_SYNC ⟨2, false, s.now, []⟩
    have hcal : x.cal = s.cal := (hrec s s.now).at .cal
    have hnow : x.now = s.now := (hrec s s.now).at .now
    have hlp : x.lp = s.lp := by
      have hregs : x.regs = s.regs := State.record_frame.keeps .regs
      simp only [State.lp, State.getF, hregs]
    let y : State := { x with cal := { x.cal with edges := x.cal.edges ++ [s.now] } }
    have hycal : y.cal = { s.cal with edges := s.cal.edges ++ [s.now] } := by rw [← hcal]
    have hwin : y.windowEdge = some s.now := State.windowEdge_new (s := x) (hcal ▸ hold) (hcal ▸ hfrom) (Nat.le_of_eq hnow.symm)
      (by rw [hcal, hlp]; exact hend)
    have hpin : s.pinEdge = y.measure s.now := by
      have hput : s.pinEdge = y.assign := by simp only [State.pinEdge, hreplay]; rfl
      rw [hput, State.assign, if_pos (show y.cal.winOpen = true by rw [hycal]; exact hopen), hwin]
    obtain ⟨e, p, b, h, hm⟩ := y.measure_cal s.now
    have hedges : (s.cal.edges ++ [s.now]).filter (fun t => t != s.now) = s.cal.edges := by
      rw [List.filter_append, List.filter_eq_self.2 fun t ht => by
        have := hold t ht
        simp only [bne_iff_ne, ne_eq]
        omega]
      simp
    rw [hpin]
    change (y.measure s.now).cal.lastPulse = _ ∧ (y.measure s.now).cal.winOpen = _ ∧ (y.measure s.now).cal.edges = _ ∧
      (y.measure s.now).cal.noPulse = _ ∧ (y.measure s.now).cal.line = _ ∧ (y.measure s.now).cal.frame = _
    rw [hm, hycal]
    exact ⟨rfl, rfl, hedges, rfl, rfl, rfl⟩
  · refine Completes.of_op (t := s.pinEdge) rfl fun w => ?_
    let x : State := { s.waitUntil (s.replayCycle e.time) with aud := { s.aud with replayLog := s.aud.replayLog.erase e } }
    let y := x.record F.AUD_REC_CTRL_SYNC ⟨2, false, s.replayCycle e.time, []⟩
    have hcal : y.cal = x.cal := (hrec x _).at .cal
    have hnow : y.now = x.now := (hrec x _).at .now
    have hopen : x.cal.winOpen = false := by
      change (s.waitUntil _).cal.winOpen = false
      rw [State.waitUntil_cal]
      split <;> exact hclosed
    have hedges : x.cal.edges = s.cal.edges := by
      change (s.waitUntil _).cal.edges = _
      rw [State.waitUntil_cal]
      split <;> rfl
    have hpin : s.pinEdge = { y with cal := { y.cal with edges := y.cal.edges ++ [s.replayCycle e.time] } } := by
      have hput : s.pinEdge =
          ({ y with cal := { y.cal with edges := y.cal.edges ++ [s.replayCycle e.time] } } : State).assign := by
        unfold State.pinEdge
        rw [if_pos hreplay, hfind]
      rw [hput, State.assign, if_neg (by simp [hcal, hopen])]
    rw [hpin]
    exact ⟨hnow.trans (s.waitUntil_now _), by dsimp only; rw [hcal, hedges]⟩

end Sys2Proof

/-! SUPPORT. Host writes of registers (R11 to R19, R137): what reaches the fields, and what the write brings about. -/
namespace Sys2Proof.Machine
set_option Elab.async false

section
variable {s : State} {a v : Nat} {f g : Fld}

/-! ### One field (R14, R15) -/

theorem State.writeField_rw (h : f.acc = .rw ∨ f.acc = .rwl ∧ s.locked = false) :
    (State.writeField v s f).getF f = bits v f.lo f.w := by
  have hbits : bits v f.lo f.w % 2 ^ f.w = bits v f.lo f.w := Nat.mod_eq_of_lt (bits_lt v f.lo f.w)
  unfold State.writeField
  rcases h with h | ⟨h, hl⟩
  · simp only [h]
    split
    · exact (SMap.get_set_self _ _ _ _).trans hbits
    · rw [State.getF_setF_self, hbits]
  · simp only [h, hl, Bool.false_eq_true, if_false]
    rw [State.getF_setF_self, hbits]

theorem State.writeField_kept (h : f.acc = .ro ∨ f.acc = .rwl ∧ s.locked = true) : State.writeField v s f = s := by
  unfold State.writeField
  rcases h with h | ⟨h, hl⟩ <;> simp [*]

theorem State.writeField_w1c (h : f.acc = .w1c) : State.writeField v s f = s.clearF f (bits v f.lo f.w) := by
  simp only [State.writeField, h]

theorem State.writeField_wo (h : f.acc = .wo) : State.writeField v s f = s := by
  simp only [State.writeField, h]

theorem State.getF_writeField_ne (s : State) (v : Nat) (h : g.key ≠ f.key) : (State.writeField v s f).getF g = s.getF g := by
  unfold State.writeField
  split
  · split
    · exact State.getF_shareF_ne _ _ h
    · exact State.getF_setF_ne _ _ h
  · split
    · rfl
    · exact State.getF_setF_ne _ _ h
  · exact State.getF_clearF_ne _ _ h
  · rfl

/-! ### One register's fields -/

theorem State.writeFields_frame (s : State) (v : Nat) (fs : List Fld) : SameBut (fs.foldl (State.writeField v) s) s [.regs] :=
  SameBut.foldl (SameBut.refl _ _) fun _ _ => State.writeField_frame

theorem State.writeFields_fields (s : State) (v : Nat) (fs : List Fld) :
    SameFields (fs.foldl (State.writeField v) s) s (Among fs) := by
  induction fs generalizing s with
  | nil => exact SameFields.refl _ _
  | cons x fs ih =>
    refine ((ih _).widen (List.subset_cons_self _ _)).trans fun f hf => State.getF_writeField_ne _ _ fun e => hf ?_
    exact Among.of List.mem_cons_self e

/-- Each RW field of a register takes its bits. -/
theorem State.getF_writeFields {fs : List Fld} (hnd : (fs.map Fld.key).Nodup) (hf : f ∈ fs) (hrw : f.acc = .rw) :
    (fs.foldl (State.writeField v) s).getF f = bits v f.lo f.w := by
  induction fs generalizing s with
  | nil => cases hf
  | cons x fs ih =>
    rw [List.map_cons, List.nodup_cons] at hnd
    rcases List.mem_cons.1 hf with rfl | hf
    · exact (State.writeFields_fields _ v fs f hnd.1).trans (State.writeField_rw (.inl hrw))
    · exact ih hnd.2 hf

/-! ### A register write -/

/-- Recording a write touches the record of writes alone. -/
theorem State.recordWrite_kept (b t : State) (a op : Nat) (d : List Byte) :
    SameBut (State.recordWrite b a op d t) t [.aud] := State.recordWrite_frame

theorem State.replaying_false (h : s.replaying = false) : s.aud.replayHold = false ∧ s.aud.replay = false := by
  simpa [State.replaying] using h

/-- Outside a replay a register write does what `regWrite` does, and is recorded. -/
theorem State.hostWrite_logged (hr : s.replaying = false) : s.hostWrite a v = s.loggedWrite a v := by
  simp [State.hostWrite, hr, (State.replaying_false hr).1]

/-- A refused write is not recorded. -/
theorem State.loggedWrite_refused (h : (s.regWrite a v).1 ≠ 0) : s.loggedWrite a v = s.regWrite a v := by
  simp [State.loggedWrite, h]

theorem State.loggedWrite_kept (s : State) (a v : Nat) : SameBut (s.loggedWrite a v).2 (s.regWrite a v).2 [.aud] := by
  unfold State.loggedWrite
  dsimp only
  split
  · exact SameBut.refl _ _
  · exact State.recordWrite_frame

/-- A write of a register with a writable field reaches its fields, and its effect follows. -/
theorem State.regWrite_taken {blk : Blk} {o w : Nat} {fs : List Fld} (ha : a % 4 = 0) (hb : blockOf a = some (blk, o))
    (hreg : regAt a = some fs) (hword : s.wordAt a = some w) (hw : ∃ f ∈ fs, s.writable f = true) (hd : s.drzOwns blk o = false) :
    s.regWrite a v = (0, State.writeEffect s (fs.foldl (State.writeField v) s) blk o v) := by
  obtain ⟨f, hf, hfw⟩ := hw
  have hall : ¬ (fs.all fun f => !s.writable f) = true := fun h => by simpa [hfw] using List.all_eq_true.1 h f hf
  unfold State.regWrite
  simp only [ha, hb, hreg, hword, ne_eq, not_true_eq_false, if_false, hd, Bool.false_eq_true]
  rw [if_neg hall]

/-- Outside a replay, a host write of such a register leaves the same, but for the record of writes. -/
theorem State.hostWrite_taken {blk : Blk} {o w : Nat} {fs : List Fld} (hr : s.replaying = false) (ha : a % 4 = 0)
    (hb : blockOf a = some (blk, o)) (hreg : regAt a = some fs) (hword : s.wordAt a = some w)
    (hw : ∃ f ∈ fs, s.writable f = true) (hd : s.drzOwns blk o = false) :
    SameBut (s.hostWrite a v).2 (State.writeEffect s (fs.foldl (State.writeField v) s) blk o v) [.aud] := by
  rw [State.hostWrite_logged hr]
  have h := s.loggedWrite_kept a v
  rwa [State.regWrite_taken ha hb hreg hword hw hd] at h

/-- The same of a register whose write brings about nothing beside its fields. -/
theorem State.hostWrite_plain {blk : Blk} {o w : Nat} {fs : List Fld} (hr : s.replaying = false) (ha : a % 4 = 0)
    (hb : blockOf a = some (blk, o)) (hreg : regAt a = some fs) (hword : s.wordAt a = some w)
    (hw : ∃ f ∈ fs, s.writable f = true) (hd : s.drzOwns blk o = false)
    (heff : State.writeEffect s (fs.foldl (State.writeField v) s) blk o v = fs.foldl (State.writeField v) s) :
    SameBut (s.hostWrite a v).2 (fs.foldl (State.writeField v) s) [.aud] :=
  heff ▸ State.hostWrite_taken hr ha hb hreg hword hw hd

/-- The word of a register outside the cores is there to be read and written. -/
theorem State.wordAt_isSome {blk : Blk} {o : Nat} {fs : List Fld} (hb : blockOf a = some (blk, o)) (hreg : regAt a = some fs)
    (hc : ∀ p, blk = .core p → s.coreHidden p = false) : ∃ w, s.wordAt a = some w := by
  unfold State.wordAt
  rw [hb, hreg]
  dsimp only
  rw [if_neg]
  · exact ⟨_, rfl⟩
  · cases blk with
    | core p => simp [hc p rfl]
    | _ => simp

/-- An RW field can always be written. -/
theorem State.writable_rw (s : State) (h : f.acc = .rw) : s.writable f = true := by
  unfold State.writable
  rw [h]

end

/-! ### Bins of a histogram unit (R135, R137) -/

theorem SMap.get_map_sub {α : Type} (d : α) (a k : Nat) (m : SMap α) (hm : ∀ e ∈ m, a ≤ e.1) :
    SMap.get d (m.map fun e => (e.1 - a, e.2)) k = SMap.get d m (a + k) := by
  induction m with
  | nil => rfl
  | cons e m ih =>
    have he := hm e List.mem_cons_self
    have hk : k = e.1 - a ↔ a + k = e.1 := by omega
    simp only [List.map_cons, SMap.get, hk, ih fun x hx => hm x (List.mem_cons_of_mem _ hx)]

/-- A stretch of a map, counted from its start. -/
theorem SMap.get_slice {α : Type} (d : α) (m : SMap α) {a n k : Nat} (h : k < n) :
    SMap.get d (SMap.slice m a n) k = SMap.get d m (a + k) := by
  unfold SMap.slice
  rw [SMap.get_map_sub, SMap.get_filter d (fun j => decide (a ≤ j) && decide (j < a + n))]
  · simp [h]
  · intro e he
    have := (List.mem_filter.1 he).2
    simp only [Bool.and_eq_true, decide_eq_true_eq] at this
    exact this.1

/-- Where no listed key is `k`, the default stands. -/
theorem SMap.get_of_not_mem {α : Type} (d : α) {m : SMap α} {k : Nat} (h : ∀ e ∈ m, e.1 ≠ k) : SMap.get d m k = d := by
  induction m with
  | nil => rfl
  | cons e m ih =>
    have he : k ≠ e.1 := fun hk => h e List.mem_cons_self hk.symm
    rw [SMap.get, if_neg he, ih fun x hx => h x (List.mem_cons_of_mem _ hx)]

theorem SMap.le_of_rising {α : Type} {m : SMap α} {lo : Nat} (h : SMap.rising lo m = true) : ∀ e ∈ m, lo ≤ e.1 := by
  induction m generalizing lo with
  | nil => exact fun e he => by cases he
  | cons x m ih =>
    simp only [SMap.rising, Bool.and_eq_true, decide_eq_true_eq] at h
    intro e he
    rcases List.mem_cons.1 he with rfl | he
    · exact h.1
    · have := ih h.2 e he
      omega

/-- Copying a source whose keys strictly rise puts each value at its place. -/
theorem SMap.get_puts {α : Type} (d : α) (a : Nat) {src m : SMap α} {lo k : Nat} (hs : SMap.rising lo src = true) :
    SMap.get d (src.foldl (fun m e => SMap.put m (a + e.1) e.2) m) (a + k) =
      if src.any (fun e => e.1 == k) then SMap.get d src k else SMap.get d m (a + k) := by
  induction src generalizing m lo with
  | nil => rfl
  | cons e src ih =>
    simp only [SMap.rising, Bool.and_eq_true] at hs
    rw [List.foldl_cons, ih hs.2, List.any_cons, SMap.get]
    by_cases hk : k = e.1
    · have hno : src.any (fun x => x.1 == k) = false := List.any_eq_false.2 fun x hx => by
        have := SMap.le_of_rising hs.2 x hx
        simp only [beq_iff_eq]
        omega
      subst hk
      rw [hno]
      simp [SMap.get_put_self]
    · have hek : (e.1 == k) = false := by simp [Ne.symm hk]
      rw [SMap.get_put_ne d m _ (by omega), if_neg hk, hek, Bool.false_or]

/-- A replaced stretch reads as its source. -/
theorem SMap.get_blit_in {α : Type} (d : α) (m : SMap α) {a n k : Nat} {src : SMap α} (hs : SMap.rising 0 src = true) (hk : k < n) :
    SMap.get d (SMap.blit m a n src) (a + k) = SMap.get d src k := by
  unfold SMap.blit
  rw [SMap.get_puts d a (SMap.rising_filter _ hs), SMap.get_filter d (fun j => decide (j < n)) src k (by simpa using hk)]
  split
  · rfl
  · next hno =>
    rw [SMap.get_of_not_mem, SMap.get_of_not_mem]
    · intro e he hek
      refine hno (List.any_eq_true.2 ⟨e, List.mem_filter.2 ⟨he, by simpa [hek] using hk⟩, by simp [hek]⟩)
    · intro e he hek
      have := (List.mem_filter.1 he).2
      simp only [Bool.or_eq_true, decide_eq_true_eq] at this
      omega

theorem SMap.rising_map_sub {α : Type} (a lo : Nat) {m : SMap α} (hm : SMap.rising lo m = true) (hlo : a ≤ lo) :
    SMap.rising (lo - a) (m.map fun e => (e.1 - a, e.2)) = true := by
  induction m generalizing lo with
  | nil => rfl
  | cons e m ih =>
    simp only [SMap.rising, Bool.and_eq_true, decide_eq_true_eq, List.map_cons] at *
    refine ⟨by omega, ?_⟩
    have := ih (e.1 + 1) hm.2 (by omega)
    rwa [show e.1 - a + 1 = e.1 + 1 - a by omega]

/-- The keys of a stretch rise from its start. -/
theorem SMap.rising_slice {α : Type} (a n : Nat) {m : SMap α} (hm : SMap.rising 0 m = true) :
    SMap.rising 0 (SMap.slice m a n) = true := by
  have hfrom : ∀ l : SMap α, SMap.rising 0 l = true → (∀ e ∈ l, a ≤ e.1) → SMap.rising a l = true := by
    rintro (_ | ⟨e, l⟩) hl hle
    · rfl
    · simp only [SMap.rising, Bool.and_eq_true, decide_eq_true_eq] at *
      exact ⟨hle e List.mem_cons_self, hl.2⟩
  have := SMap.rising_map_sub a a (hfrom _ (SMap.rising_filter (fun e => decide (a ≤ e.1) && decide (e.1 < a + n)) hm) fun e he => by
    have := (List.mem_filter.1 he).2
    simp only [Bool.and_eq_true, decide_eq_true_eq] at this
    exact this.1) (Nat.le_refl _)
  rwa [Nat.sub_self] at this

/-- A cleared unit's live bins hold what was counted in the cycle of the write, and its read bins nothing (R137). -/
theorem histClear_bins {s : State} {p u k : Nat} (hk : k < 64)
    (hwf : (s.core p).histNow.1 = s.now + 1 → SMap.wf 0 (s.core p).histNow.2 = true) :
    SMap.get 0 ((s.histClear p u).core p).histLive (64 * u + k) =
      (if (s.core p).histNow.1 = s.now + 1 then SMap.get 0 (s.core p).histNow.2 (64 * u + k) else 0) ∧
    SMap.get 0 ((s.histClear p u).core p).histRead (64 * u + k) = 0 := by
  have hcore : (s.histClear p u).core p = { s.core p with
      histLive := SMap.blit (s.core p).histLive (64 * u) 64 (histFresh (s.core p) s.now u)
      histRead := SMap.blit (s.core p).histRead (64 * u) 64 [] } := SMap.get_set_self _ _ _ _
  rw [hcore]
  refine ⟨?_, (SMap.get_blit_in 0 _ rfl hk).trans rfl⟩
  unfold histFresh
  dsimp only
  split
  · next h =>
    have hr := ((SMap.wf_iff 0 _).1 (hwf h)).1
    rw [SMap.get_blit_in 0 _ (SMap.rising_slice _ _ hr) hk, SMap.get_slice 0 _ hk]
  · rw [SMap.get_blit_in 0 _ rfl hk]
    rfl

end Sys2Proof.Machine

/-! SUPPORT. Host writes of single registers, and the obligations on the access codes. -/
namespace Sys2Proof.Machine
set_option Elab.async false

section
variable {s : State} {p u : Nat}

/-! ### CORE_HIST_CFG (R136, R137) -/

/-- The fields of CORE_HIST_CFG. -/
def histCfgFields (p u : Nat) : List Fld :=
  [F.CORE_HIST_CFG_EN p u, F.CORE_HIST_CFG_SNAP p u, F.CORE_HIST_CFG_CLR p u, F.CORE_HIST_CFG_SRC p u, F.CORE_HIST_CFG_LAYER p u,
    F.CORE_HIST_CFG_CHAN p u, F.CORE_HIST_CFG_ALLCH p u]

theorem regAt_histCfg (hp : p < 72) (hu : u < 4) : regAt (histCfgAddr p u) = some (histCfgFields p u) := by
  unfold regAt
  rw [blockOf_hist hp hu]
  dsimp only
  interval_cases u <;> simp [Sys2Proof.blockRows, rowsCoreA, rowsCoreB, RegRow.at?, histCfgFields]

/-- Fields from bit 4 upwards add a multiple of 16 to a register's word. -/
theorem word_above (h : Fld → Nat) {fs : List Fld} (hlo : ∀ f ∈ fs, 4 ≤ f.lo) (a : Nat) :
    ∃ x, (fs.map fun f => h f * 2 ^ f.lo).foldl (· + ·) a = a + 16 * x := by
  induction fs generalizing a with
  | nil => exact ⟨0, rfl⟩
  | cons f fs ih =>
    obtain ⟨y, hy⟩ : 2 ^ 4 ∣ 2 ^ f.lo := Nat.pow_dvd_pow 2 (hlo f List.mem_cons_self)
    obtain ⟨x, hx⟩ := ih (fun g hg => hlo g (List.mem_cons_of_mem _ hg)) (a + h f * 2 ^ f.lo)
    refine ⟨h f * y + x, ?_⟩
    rw [List.map_cons, List.foldl_cons, hx, hy]
    ring

/-- The word of a core's register below the bins. -/
theorem State.wordAt_core {a o : Nat} {fs : List Fld} (hb : blockOf a = some (.core p, o)) (hreg : regAt a = some fs)
    (ho : o < 0x400) (hidden : s.coreHidden p = false) :
    s.wordAt a = some ((fs.map fun f => s.readF f * 2 ^ f.lo).foldl (· + ·) 0) := by
  have hrange : ¬ (0x400 ≤ o ∧ o < 0x800) := by omega
  unfold State.wordAt
  rw [hb, hreg]
  simp only [hidden, Bool.false_and, Bool.false_eq_true, if_false, State.shownWord, if_neg hrange, Option.getD_none]

/-- The word read at CORE_HIST_CFG has bit 2, CLR, clear. -/
theorem State.wordAt_histCfg (hp : p < 72) (hu : u < 4) (hidden : s.coreHidden p = false) : ∃ x, s.wordAt (histCfgAddr p u) =
    some (s.getF (F.CORE_HIST_CFG_EN p u) + 2 * s.getF (F.CORE_HIST_CFG_SNAP p u) + 16 * x) := by
  have hlo : ∀ f ∈ [F.CORE_HIST_CFG_SRC p u, F.CORE_HIST_CFG_LAYER p u, F.CORE_HIST_CFG_CHAN p u, F.CORE_HIST_CFG_ALLCH p u],
      4 ≤ f.lo := by
    intro f hf
    simp only [List.mem_cons, List.not_mem_nil, or_false] at hf
    obtain rfl | rfl | rfl | rfl := hf <;> exact Nat.le_of_ble_eq_true rfl
  obtain ⟨x, hx⟩ := word_above s.readF hlo (0 + s.readF (F.CORE_HIST_CFG_EN p u) * 2 ^ 0 +
    s.readF (F.CORE_HIST_CFG_SNAP p u) * 2 ^ 1 + s.readF (F.CORE_HIST_CFG_CLR p u) * 2 ^ 2)
  have hen : s.readF (F.CORE_HIST_CFG_EN p u) = s.getF (F.CORE_HIST_CFG_EN p u) := rfl
  have hsnap : s.readF (F.CORE_HIST_CFG_SNAP p u) = s.getF (F.CORE_HIST_CFG_SNAP p u) := rfl
  have hclr : s.readF (F.CORE_HIST_CFG_CLR p u) = 0 := rfl
  refine ⟨x, ?_⟩
  rw [State.wordAt_core (blockOf_hist hp hu) (regAt_histCfg hp hu) (by omega) hidden, histCfgFields, List.map_cons, List.map_cons,
    List.map_cons, List.foldl_cons, List.foldl_cons, List.foldl_cons]
  refine congrArg some (hx.trans ?_)
  rw [hen, hsnap, hclr]
  omega

/-- A write of CLR empties the unit's bins. -/
theorem State.histWrite_clears (hp : p < 72) (hu : u < 4) (hr : s.replaying = false) (hidden : s.coreHidden p = false)
    (hown : u < 2 ∨ s.drz.on = false) (hen : s.getF (F.CORE_HIST_CFG_EN p u) < 2) (hsnap : s.getF (F.CORE_HIST_CFG_SNAP p u) < 2) :
    ∃ x : State, SameBut x s [.regs] ∧
      SameBut (s.hostWrite (histCfgAddr p u) (s.word (histCfgAddr p u) + 4)).2 (x.histClear p u) [.aud] := by
  obtain ⟨x, hx⟩ := State.wordAt_histCfg hp hu hidden
  have hbit : bit (s.word (histCfgAddr p u) + 4) 2 = true := by
    simp only [State.word, hx, Option.getD_some, bit, beq_iff_eq]
    omega
  have hnot : s.drzOwns (.core p) (0x100 + 0x10 * u) = false := by
    rcases hown with h | h
    · simp only [State.drzOwns, Bool.and_eq_false_iff, decide_eq_false_iff_not]
      omega
    · simp [State.drzOwns, h]
  have hw := State.hostWrite_taken (v := s.word (histCfgAddr p u) + 4) hr (by simp only [histCfgAddr]; omega) (blockOf_hist hp hu)
    (regAt_histCfg hp hu) hx ⟨_, List.mem_cons_self, State.writable_rw s rfl⟩ hnot
  refine ⟨_, State.writeFields_frame s (s.word (histCfgAddr p u) + 4) (histCfgFields p u), ?_⟩
  have hu' : (0x100 + 0x10 * u - 0x100) / 16 = u := by omega
  have hcond : 0x100 ≤ 0x100 + 0x10 * u ∧ 0x100 + 0x10 * u < 0x140 ∧ (0x100 + 0x10 * u) % 16 = 0 ∧
      bit (s.word (histCfgAddr p u) + 4) 2 = true := ⟨by omega, by omega, by omega, hbit⟩
  unfold State.writeEffect at hw
  dsimp only at hw
  rw [if_pos hcond, hu'] at hw
  exact hw

/-- What CLR leaves, from the state with the fields written. -/
theorem histWrite_bins {x t : State} {k : Nat} (hx : SameBut x s [.regs]) (ht : SameBut t (x.histClear p u) [.aud])
    (hwf : (s.core p).histNow.1 = s.now + 1 → SMap.wf 0 (s.core p).histNow.2 = true) (hk : k < 64) :
    SMap.get 0 (t.core p).histLive (64 * u + k) =
      (if (s.core p).histNow.1 = s.now + 1 then SMap.get 0 (s.core p).histNow.2 (64 * u + k) else 0) ∧
    SMap.get 0 (t.core p).histRead (64 * u + k) = 0 := by
  have hcores : x.cores = s.cores := hx.keeps .cores
  have hnow : x.now = s.now := hx.keeps .now
  have hcore : x.core p = s.core p := by rw [State.core, hcores, State.core]
  have htc : t.cores = (x.histClear p u).cores := ht.keeps .cores
  have htcore : t.core p = (x.histClear p u).core p := by rw [State.core, htc, State.core]
  have hbins := histClear_bins (s := x) (p := p) (u := u) hk (by rwa [hcore, hnow])
  rwa [hcore, hnow, ← htcore] at hbins

theorem histWrite_now {x t : State} (hx : SameBut x s [.regs]) (ht : SameBut t (x.histClear p u) [.aud]) : t.now = s.now := by
  have h1 : t.now = (x.histClear p u).now := ht.keeps .now
  exact h1.trans (hx.keeps .now)

theorem histWrite_dram {x t : State} (hx : SameBut x s [.regs]) (ht : SameBut t (x.histClear p u) [.aud]) : t.dram = s.dram := by
  have h1 : t.dram = (x.histClear p u).dram := ht.keeps .dram
  exact h1.trans (hx.keeps .dram)

end

/-! ### Refused writes (R11, R17, R454) -/

section
variable {s : State} {a v : Nat}

theorem State.hostWrite_misaligned (h : a % 4 ≠ 0) : (s.hostWrite a v).2 = s.incF F.DEV_ACCESS_MISALIGNED 1 := by
  have hreg : s.regWrite a v = (2, s.incF F.DEV_ACCESS_MISALIGNED 1) := by rw [State.regWrite, if_pos h]
  have hlog := State.loggedWrite_refused (s := s) (a := a) (v := v) (by rw [hreg]; exact two_ne_zero)
  simp [State.hostWrite, h, hlog, hreg]

theorem State.hostWrite_replaying (ha : a % 4 = 0) (hd : inAud a = false) (hr : s.replaying = true) :
    (s.hostWrite a v).2 = s.incF F.AUD_REPLAY_STATUS_REFUSED 1 := by
  simp [State.hostWrite, ha, hd, hr, State.replayRefuse]

/-- A write of a register without a writable field is refused and counted. -/
theorem State.hostWrite_readOnly {blk : Blk} {o w : Nat} {fs : List Fld} (ha : a % 4 = 0) (hb : blockOf a = some (blk, o))
    (hreg : regAt a = some fs) (hword : s.wordAt a = some w) (hall : (fs.all fun f => !s.writable f) = true)
    (hr : s.replaying = false) : (s.hostWrite a v).2 = s.incF F.DEV_ACCESS_RO_WRITES 1 := by
  have hw : s.regWrite a v = (2, s.incF F.DEV_ACCESS_RO_WRITES 1) := by
    unfold State.regWrite
    simp only [ha, hb, hreg, hword, ne_eq, not_true_eq_false, if_false]
    rw [if_pos hall]
  rw [State.hostWrite_logged hr, State.loggedWrite_refused (by rw [hw]; exact two_ne_zero), hw]

end

end Sys2Proof.Machine

namespace Sys2Proof
set_option Elab.async false
open Sys2Proof.Machine

/-- Settles O44: the four rules of a field's write; then the refusals, one by one; then CLR. -/
theorem hostWritesFollowTheAccessCodes : Obligations.HostWritesFollowTheAccessCodes := by
  refine ⟨fun s v f h => State.writeField_rw h, fun s v f h => ?_, fun s v f h => State.writeField_kept h,
    fun s v f g h => State.getF_writeField_ne s v h, fun s v hr => ?_, fun s v hr hlt => ?_, fun s v hr => ?_, fun s a v ha => ?_,
    fun s a v ha hd hr => ?_, fun s p u hp hu hr hidden hown hen hsnap hwf => ?_⟩
  · rw [State.writeField_w1c h, State.getF_clearF_self]
  · refine Completes.of_op (t := (s.hostWrite 0x70004 v.toNat).2) rfl fun w => ?_
    obtain ⟨x, hx⟩ := State.wordAt_isSome (s := s) (a := 0x70004) (blk := .tpl) (o := 4) rfl rfl nofun
    have hkept := State.hostWrite_plain (v := v.toNat) hr rfl (blk := .tpl) (o := 4)
      (fs := [F.TPL_CFG_STRICT, F.TPL_CFG_PREFER_MASTER, F.TPL_CFG_SESS_IDLE]) rfl rfl hx
      ⟨F.TPL_CFG_SESS_IDLE, by decide, State.writable_rw s rfl⟩ rfl rfl
    have hro (f : Fld) (h : f.acc = .ro) : State.writeField v.toNat s f = s := State.writeField_kept (.inl h)
    rw [List.foldl_cons, List.foldl_cons, List.foldl_cons, List.foldl_nil, hro F.TPL_CFG_STRICT rfl,
      hro F.TPL_CFG_PREFER_MASTER rfl] at hkept
    have hregs : (s.hostWrite 0x70004 v.toNat).2.regs = _ := hkept.keeps .regs
    have hfields : SameFields (s.hostWrite 0x70004 v.toNat).2 s (Among [F.TPL_CFG_SESS_IDLE]) :=
      (SameFields.of_regs hregs).trans (State.writeFields_fields s v.toNat [F.TPL_CFG_SESS_IDLE])
    have hval : (s.hostWrite 0x70004 v.toNat).2.getF F.TPL_CFG_SESS_IDLE = bits v.toNat 8 8 :=
      (SameFields.of_regs (ok := fun _ => False) hregs _ id).trans (State.writeField_rw (.inl rfl))
    exact ⟨hval, ((hkept.mono (by decide)).trans (State.writeField_frame.mono (by decide))).ended w, hfields.widen (by simp)⟩
  · refine Completes.of_op (t := (s.hostWrite 0x8 v.toNat).2) rfl fun w => ?_
    obtain ⟨x, hx⟩ := State.wordAt_isSome (s := s) (a := 0x8) (blk := .dev) (o := 8) rfl rfl nofun
    have hkept := State.hostWrite_plain (v := v.toNat) hr rfl (blk := .dev) (o := 8)
      (fs := [F.DEV_ACCESS_RO_WRITES, F.DEV_ACCESS_MISALIGNED]) rfl rfl hx
      ⟨F.DEV_ACCESS_RO_WRITES, by decide, rfl⟩ rfl rfl
    have hregs : (s.hostWrite 0x8 v.toNat).2.regs = _ := hkept.keeps .regs
    refine ⟨?_, ((SameFields.of_regs hregs).trans (State.writeFields_fields s v.toNat _)).widen (by simp)⟩
    refine (SameFields.of_regs (ok := fun _ => False) hregs F.DEV_ACCESS_RO_WRITES id).trans ?_
    rw [List.foldl_cons, List.foldl_cons, List.foldl_nil, State.getF_writeField_ne _ _ (by decide), State.writeField_w1c rfl,
      State.getF_clearF_self]
    exact Nat.mod_eq_of_lt (Nat.or_lt_two_pow (Nat.lt_of_le_of_lt (Nat.sub_le _ _) hlt)
      (Nat.lt_of_le_of_lt Nat.and_le_right (bits_lt _ _ _)))
  · refine Completes.of_op (t := (s.hostWrite 0x20 v.toNat).2) rfl fun w => ?_
    obtain ⟨x, hx⟩ := State.wordAt_isSome (s := s) (a := 0x20) (blk := .dev) (o := 0x20) rfl rfl nofun
    have hw := State.hostWrite_readOnly (v := v.toNat) rfl (blk := .dev) (o := 0x20) rfl rfl hx rfl hr
    rw [hw]
    exact ⟨State.incF_frame.ended w, SameFields.incIn List.mem_cons_self, State.getF_incF_self s _ 1⟩
  · refine Completes.of_op (t := (s.hostWrite a.toNat v.toNat).2) rfl fun w => ?_
    rw [State.hostWrite_misaligned ha]
    exact ⟨State.incF_frame.ended w, SameFields.incIn List.mem_cons_self, State.getF_incF_self s _ 1⟩
  · refine Completes.of_op (t := (s.hostWrite a.toNat v.toNat).2) rfl fun w => ?_
    rw [State.hostWrite_replaying ha hd hr]
    exact ⟨State.incF_frame.ended w, SameFields.incIn List.mem_cons_self, State.getF_incF_self s _ 1⟩
  · refine Completes.of_act (t := (s.hostWrite (histCfgAddr p u) (s.word (histCfgAddr p u) + 4)).2) rfl
      (by simp [Instr.wf, hp, hu]) fun w => ?_
    obtain ⟨x, hx, hkept⟩ := State.histWrite_clears (isCore_lt hp) hu hr hidden hown hen hsnap
    have hnow := histWrite_now hx hkept
    have hdram := histWrite_dram hx hkept
    have hbins := fun k (hk : k < 64) => histWrite_bins hx hkept (fun _ => hwf) hk
    exact ⟨hnow, hdram, hbins⟩

end Sys2Proof

/-! SUPPORT. The input ports: configuration, link training, PPS, SDPs, authentication, losses and AUX (R72 to R88). -/
namespace Sys2Proof.Machine
set_option Elab.async false

section
variable {s : State} {n : Nat} {p : PortSt}

/-! ### One port's state -/

theorem State.port_of (h : s.inp.ports[n]? = some p) : s.port n = p := by
  rw [State.port, List.getD_eq_getElem?_getD, h, Option.getD_some]

@[simp] theorem State.getF_onPort (s : State) (n : Nat) (g : PortSt → PortSt) (f : Fld) : (s.onPort n g).getF f = s.getF f := rfl

/-- Changing one port's state puts it in its place. -/
theorem State.onPort_inp (h : s.inp.ports[n]? = some p) (g : PortSt → PortSt) :
    (s.onPort n g).inp = { s.inp with ports := s.inp.ports.set n (g p) } := by
  obtain ⟨hn, hp⟩ := List.getElem?_eq_some_iff.1 h
  have hm : s.inp.ports.modify n g = s.inp.ports.set n (g p) := by rw [List.modify_eq_set_get g hn, List.get_eq_getElem, hp]
  rw [State.onPort, hm]

theorem State.onPort_self (h : s.inp.ports[n]? = some p) (g : PortSt → PortSt) : (s.onPort n g).inp.ports[n]? = some (g p) := by
  simp [State.onPort, h]

/-! ### Signal and its loss (R82, R99) -/

/-- The fields that a loss of signal writes. -/
def lossFields (n : Nat) : List Fld := [F.INP_PORT_STATUS_SIGNAL n, F.INP_PPS_REJECTS_NOSIG_CAUSE]

theorem State.noteNoSignal_fields (s : State) : SameFields s.noteNoSignal s (Among [F.INP_PPS_REJECTS_NOSIG_CAUSE]) := by
  have hset (v : Nat) : SameFields (s.setF F.INP_PPS_REJECTS_NOSIG_CAUSE v) s (Among [F.INP_PPS_REJECTS_NOSIG_CAUSE]) :=
    SameFields.setIn List.mem_cons_self
  unfold State.noteNoSignal
  split
  · exact hset _
  · exact SameFields.ite (hset _) (SameFields.ite (hset _) (SameFields.refl _ _))

theorem State.signalCheck_fields (s : State) (n : Nat) : SameFields (s.signalCheck n) s (Among (lossFields n)) := by
  unfold State.signalCheck
  extract_lets +onlyGivenNames s1
  have h1 : SameFields s1 s (Among (lossFields n)) := SameFields.setIn (by simp [lossFields])
  have h2 : SameFields s1.noteNoSignal.cutInput s1 (Among (lossFields n)) := s1.noteNoSignal_fields.widen (by simp [lossFields])
  exact SameFields.ite (SameFields.ite (h2.trans h1) h1) (SameFields.refl _ _)

/-- A field at another place than the port's SIGNAL and the cause of a zero-sized input. -/
theorem not_lossField {f : Fld} (h1 : f.key ≠ (F.INP_PORT_STATUS_SIGNAL n).key)
    (h2 : f.key ≠ F.INP_PPS_REJECTS_NOSIG_CAUSE.key) : ¬ Among (lossFields n) f := by
  simp [Among, lossFields, h1, h2]

theorem signal_ne_cause : (F.INP_PORT_STATUS_SIGNAL n).key ≠ F.INP_PPS_REJECTS_NOSIG_CAUSE.key := by
  simp only [Fld.key, F.INP_PORT_STATUS_SIGNAL, F.INP_PPS_REJECTS_NOSIG_CAUSE]
  omega

/-- Under a condition of R82 the port has no signal, and no frame of it proves one. -/
theorem State.signalCheck_lost (hp : s.inp.ports[n]? = some p) (hl : portLost p = true) :
    (s.signalCheck n).getF (F.INP_PORT_STATUS_SIGNAL n) = 0 ∧
      (s.signalCheck n).inp.ports[n]? = some { p with proving := false, lastCause := portCause p } := by
  unfold State.signalCheck
  rw [if_pos (by rw [State.port_of hp]; exact hl)]
  extract_lets +onlyGivenNames s1
  have hf : s1.getF (F.INP_PORT_STATUS_SIGNAL n) = 0 := by simp [s1]
  have hq : s1.inp.ports[n]? = some { p with proving := false, lastCause := portCause p } := State.onPort_self (s := s.setF _ _) hp _
  split
  · have hinp : s1.noteNoSignal.inp = s1.inp := State.noteNoSignal_frame.keeps .inp
    refine ⟨?_, by simp only [State.cutInput, State.onInp, hinp, hq]⟩
    exact (s1.noteNoSignal_fields _ (by simp [Among, signal_ne_cause])).trans hf
  · exact ⟨hf, hq⟩

/-- A check changes of a port's state at most what the check itself keeps. -/
theorem State.signalCheck_port (hp : s.inp.ports[n]? = some p) :
    ∃ b c, (s.signalCheck n).inp.ports[n]? = some { p with proving := b, lastCause := c } := by
  by_cases hl : portLost p = true
  · exact ⟨_, _, (State.signalCheck_lost hp hl).2⟩
  · refine ⟨p.proving, p.lastCause, ?_⟩
    rw [State.signalCheck, if_neg (by rwa [State.port_of hp])]
    exact hp

/-! ### The sink status (R74) -/

theorem State.sinkStatus_congr {t u : State} {q q' : PortSt} (hu : u.inp.ports[n]? = some q) (ht : t.inp.ports[n]? = some q')
    (hlock : q.lossLock = q'.lossLock) (hlanes : u.getF (F.INP_PORT_STATUS_LANES n) = t.getF (F.INP_PORT_STATUS_LANES n))
    (hsig : u.getF (F.INP_PORT_STATUS_SIGNAL n) = t.getF (F.INP_PORT_STATUS_SIGNAL n)) : u.sinkStatus n = t.sinkStatus n := by
  simp only [State.sinkStatus, State.port_of hu, State.port_of ht, hlock, hlanes, hsig]

@[simp] theorem State.getF_sinkIrq (s t : State) (n : Nat) (f : Fld) : (s.sinkIrq t n).getF f = t.getF f := by
  unfold State.sinkIrq
  split <;> rfl

/-- The port counts a pulse where the sink status has changed while HPD is high; that leaves the status. -/
theorem State.sinkIrq_port {t : State} {q : PortSt} (hq : t.inp.ports[n]? = some q) :
    (s.sinkIrq t n).sinkStatus n = t.sinkStatus n ∧ (s.sinkIrq t n).inp.ports[n]? =
      some { q with irq := q.irq + if q.hpd = true ∧ s.sinkStatus n ≠ t.sinkStatus n then 1 else 0 } := by
  unfold State.sinkIrq
  rw [State.port_of hq]
  split
  · have hself := State.onPort_self hq fun p => { p with irq := p.irq + 1 }
    exact ⟨State.sinkStatus_congr hself hq rfl rfl rfl, hself⟩
  · exact ⟨rfl, by simpa using hq⟩

/-- A condition of R82 comes about: SIGNAL falls, and a pulse reports the change of the sink status. -/
theorem State.lossNoted {s1 : State} {g : PortSt → PortSt} (hp : s1.inp.ports[n]? = some p) (hl : portLost (g p) = true) :
    ∃ t, t = s.sinkIrq ((s1.onPort n g).signalCheck n) n ∧ t.getF (F.INP_PORT_STATUS_SIGNAL n) = 0 ∧
      SameFields t s1 (Among (lossFields n)) ∧ t.inp.ports[n]? = some { g p with
        proving := false, lastCause := portCause (g p),
        irq := (g p).irq + if (g p).hpd = true ∧ s.sinkStatus n ≠ t.sinkStatus n then 1 else 0 } := by
  obtain ⟨hsig, hport⟩ := State.signalCheck_lost (State.onPort_self hp g) hl
  obtain ⟨hstat, hirq⟩ := State.sinkIrq_port (s := s) hport
  refine ⟨_, rfl, by rw [State.getF_sinkIrq]; exact hsig, fun f hf => ?_, by rw [hstat]; exact hirq⟩
  rw [State.getF_sinkIrq]
  exact (State.signalCheck_fields (s1.onPort n g) n f hf).trans rfl

/-! ### A re-evaluated PPS (R86) -/

theorem State.ppsAgain_fields (s : State) (n : Nat) : SameFields (s.ppsAgain n) s
    (Among (F.INP_PORT_STATUS_PPS_REASON n :: F.INP_PPS_REJECTS_REJECTS :: lossFields n)) := by
  unfold State.ppsAgain
  extract_lets +onlyGivenNames p
  split
  · exact SameFields.refl _ _
  · extract_lets +onlyGivenNames s1
    have h1 : SameFields s1 s (Among (F.INP_PORT_STATUS_PPS_REASON n :: F.INP_PPS_REJECTS_REJECTS :: lossFields n)) :=
      (SameFields.incIn (by simp)).trans (SameFields.setIn (by simp))
    have hport (g : PortSt → PortSt) : SameFields (s1.onPort n g) s (Among
        (F.INP_PORT_STATUS_PPS_REASON n :: F.INP_PPS_REJECTS_REJECTS :: lossFields n)) := h1
    exact SameFields.ite (((State.signalCheck_fields _ n).widen (by simp)).trans (hport _))
      (SameFields.ite (SameFields.of_regs rfl) (SameFields.refl _ _))

/-- The re-evaluation leaves the lock of the lanes. -/
theorem State.ppsAgain_port (hp : s.inp.ports[n]? = some p) :
    ∃ q, (s.ppsAgain n).inp.ports[n]? = some q ∧ q.lossLock = p.lossLock := by
  unfold State.ppsAgain
  extract_lets +onlyGivenNames q
  split
  · exact ⟨_, hp, rfl⟩
  · extract_lets +onlyGivenNames s1
    have hp1 : s1.inp.ports[n]? = some p := hp
    clear_value s1
    split
    · have hq := State.onPort_self hp1 fun p => { p with ppsOk := false, ppsRate := true, lossPps := true }
      exact ⟨_, (State.signalCheck_lost hq (by simp [portLost])).2, rfl⟩
    · split
      · exact ⟨_, State.onPort_self hp _, rfl⟩
      · exact ⟨_, hp, rfl⟩

/-- Reasons go from 1 to 8 (R85). -/
theorem ppsReason_lt (q : Pps) (a b : Bool) : ppsReason q a b < 16 := by
  unfold ppsReason
  repeat' split
  all_goals omega

end

end Sys2Proof.Machine

namespace Sys2Proof.Machine
set_option Elab.async false

section
variable {s : State} {n : Nat} {p : PortSt}

/-! ### A write of a port's configuration (R74) -/

theorem regAt_portCfg (hn : n < 2) : regAt (0x20100 + 0x40 * n) = some (portCfg n) := by
  interval_cases n <;> rfl

theorem portCfg_nodup (n : Nat) : ((portCfg n).map Fld.key).Nodup := by
  simp [portCfg, Fld.key, F.INP_PORT_CFG_EN, F.INP_PORT_CFG_MAX_RATE, F.INP_PORT_CFG_MAX_LANES, F.INP_PORT_CFG_DSC_EN,
    F.INP_PORT_CFG_HDCP_EN]

theorem portCfg_rw {f : Fld} (hf : f ∈ portCfg n) : f.acc = .rw := by
  simp only [portCfg, List.mem_cons, List.not_mem_nil, or_false] at hf
  obtain rfl | rfl | rfl | rfl | rfl := hf <;> rfl

theorem portCfg_not_loss {f : Fld} (hn : n < 2) (hf : f ∈ portCfg n) : ¬ Among (lossFields n) f := by
  simp only [portCfg, List.mem_cons, List.not_mem_nil, or_false] at hf
  interval_cases n <;> obtain rfl | rfl | rfl | rfl | rfl := hf <;> exact not_among

/-- A changed configuration of a port takes its HPD low, and with it SIGNAL. -/
theorem State.portCfgWrite_low {v : Nat} (hn : n < 2) (hp : s.inp.ports[n]? = some p) (hr : s.replaying = false)
    (hboot : s.getF F.DEV_BOOT_COMPLETE = 1) (hch : ∃ f ∈ portCfg n, s.getF f ≠ bits v f.lo f.w) :
    ∃ t : State, t = (s.hostWrite (0x20100 + 0x40 * n) v).2 ∧ (∀ f ∈ portCfg n, t.getF f = bits v f.lo f.w) ∧
      t.getF (F.INP_PORT_STATUS_SIGNAL n) = 0 ∧ t.now = s.now ∧ ∃ q, t.inp.ports[n]? = some q ∧ q.hpd = false ∧
        q.hpdRise = (if bits v 0 1 = 1 then some (s.now + msCycles 100) else none) := by
  have hreg := regAt_portCfg hn
  obtain ⟨x, hx⟩ := State.wordAt_isSome (s := s) (blockOf_port hn) hreg nofun
  have hkept := State.hostWrite_taken (v := v) hr (by omega) (blockOf_port hn) hreg hx
    ⟨F.INP_PORT_CFG_EN n, List.mem_cons_self, State.writable_rw s rfl⟩ rfl
  have hval (f : Fld) (hf : f ∈ portCfg n) : ((portCfg n).foldl (State.writeField v) s).getF f = bits v f.lo f.w :=
    State.getF_writeFields (portCfg_nodup n) hf (portCfg_rw hf)
  have hframe := State.writeFields_frame s v (portCfg n)
  have hkeepF := State.writeFields_fields s v (portCfg n)
  generalize (portCfg n).foldl (State.writeField v) s = u at hkept hval hframe hkeepF
  have hinp : u.inp = s.inp := hframe.keeps .inp
  have hnow : u.now = s.now := hframe.keeps .now
  have hup : u.locked = true := by
    rw [State.locked, hkeepF _ (by interval_cases n <;> exact not_among), hboot]
    rfl
  have hvals : u.regs.vals ≠ s.regs.vals := by
    obtain ⟨f, hf, hne⟩ := hch
    intro heq
    rw [← hval f hf, State.getF, State.getF, heq] at hne
    exact hne rfl
  have hoff : 0x100 + 0x40 * n = 0x100 ∨ 0x100 + 0x40 * n = 0x140 := by omega
  have heff : State.writeEffect s u .inp (0x100 + 0x40 * n) v = u.hpdPulse n := by
    have hdiv : (0x100 + 0x40 * n - 0x100) / 0x40 = n := by omega
    unfold State.writeEffect
    dsimp only
    rw [if_pos ⟨hup, hoff, hvals⟩, hdiv]
  rw [heff] at hkept
  have hen : u.getF (F.INP_PORT_CFG_EN n) = bits v 0 1 := hval _ List.mem_cons_self
  have hup' : u.inp.ports[n]? = some p := by rw [hinp, hp]
  unfold State.hpdPulse at hkept
  obtain ⟨hsig, hport⟩ := State.signalCheck_lost (State.onPort_self hup' fun p =>
    { p with hpd := false, hpdRise := if (u.getF (F.INP_PORT_CFG_EN n) == 1) = true then some (u.now + msCycles 100) else none })
    (by simp [portLost])
  have hfld := State.signalCheck_fields (u.onPort n fun p =>
    { p with hpd := false, hpdRise := if (u.getF (F.INP_PORT_CFG_EN n) == 1) = true then some (u.now + msCycles 100) else none }) n
  have htregs : (s.hostWrite (0x20100 + 0x40 * n) v).2.regs = _ := hkept.keeps .regs
  have htinp : (s.hostWrite (0x20100 + 0x40 * n) v).2.inp = _ := hkept.keeps .inp
  have htnow : (s.hostWrite (0x20100 + 0x40 * n) v).2.now = s.now :=
    (hkept.keeps .now : (s.hostWrite (0x20100 + 0x40 * n) v).2.now = _).trans ((State.signalCheck_frame.keeps .now).trans hnow)
  have htf := SameFields.of_regs (ok := fun _ => False) htregs
  refine ⟨_, rfl, fun f hf => ?_, (htf _ id).trans hsig, htnow, ?_⟩
  · exact (htf f id).trans ((hfld f (portCfg_not_loss hn hf)).trans (hval f hf))
  · rw [htinp]
    exact ⟨_, hport, rfl, by simp [hen, hnow]⟩

/-! ### Link training (R72) -/

/-- Training within the port's limits reports its rate and lanes, and the lanes are locked. -/
theorem State.linkTrain_trained {rate lanes : Nat} (hn : n < 2) (hp : s.inp.ports[n]? = some p) (hhpd : p.hpd = true)
    (hrate : rate ≤ s.getF (F.INP_PORT_CFG_MAX_RATE n)) (h4 : rate < 4)
    (hlanes : lanes ≤ min 2 (s.getF (F.INP_PORT_CFG_MAX_LANES n))) :
    (s.linkTrain n rate lanes true).getF (F.INP_PORT_STATUS_RATE n) = rate ∧
      (s.linkTrain n rate lanes true).getF (F.INP_PORT_STATUS_LANES n) = lanes ∧
      ∃ q, (s.linkTrain n rate lanes true).inp.ports[n]? = some q ∧ q.lossLock = false := by
  have hne : (F.INP_PORT_STATUS_RATE n).key ≠ (F.INP_PORT_STATUS_LANES n).key := by
    simp [Fld.key, F.INP_PORT_STATUS_RATE, F.INP_PORT_STATUS_LANES]
  unfold State.linkTrain
  rw [if_pos ⟨rfl, hrate, hlanes, by rw [State.port_of hp]; exact hhpd⟩]
  extract_lets +onlyGivenNames s1
  have hR : s1.getF (F.INP_PORT_STATUS_RATE n) = rate := by
    refine (State.getF_setF_ne _ _ hne).trans ((State.getF_setF_self _ _ _).trans ?_)
    exact Nat.mod_eq_of_lt h4
  have hL : s1.getF (F.INP_PORT_STATUS_LANES n) = lanes :=
    (State.getF_setF_self _ _ _).trans (Nat.mod_eq_of_lt (show lanes < 2 ^ 2 by omega))
  have hp1 : s1.inp.ports[n]? = some p := by
    have hinp : s1.inp = s.inp := State.setFs_frame.keeps .inp
    rw [hinp, hp]
  clear_value s1
  have hfld := State.ppsAgain_fields (s1.onPort n fun p => { p with lossLock := false }) n
  obtain ⟨q, hq, hlock⟩ := State.ppsAgain_port (State.onPort_self hp1 fun p => { p with lossLock := false })
  refine ⟨?_, ?_, _, (State.sinkIrq_port hq).2, hlock⟩
  · rw [State.getF_sinkIrq, hfld _ (by interval_cases n <;> exact not_among)]
    exact hR
  · rw [State.getF_sinkIrq, hfld _ (by interval_cases n <;> exact not_among)]
    exact hL

/-! ### Authentication and losses (R82, R88) -/

/-- Authentication succeeds. -/
def State.hdcpGood (s : State) (n : Nat) (ok : Bool) : Bool := ok && s.getF (F.INP_PORT_CFG_HDCP_EN n) == 1 && s.boot.hdcp != []

theorem State.hdcpAuth_auth {ok : Bool} (hn : n < 2) :
    (s.hdcpAuth n ok).getF (F.INP_PORT_STATUS_AUTH n) = b2n (s.hdcpGood n ok) := by
  refine (State.getF_sinkIrq _ _ _ _).trans ?_
  rw [State.signalCheck_fields _ n _ (by interval_cases n <;> exact not_among)]
  refine (State.getF_setF_self s _ _).trans ?_
  change b2n (s.hdcpGood n ok) % 2 ^ 1 = _
  cases s.hdcpGood n ok <;> rfl

/-- The condition of R82 follows a failed authentication of an encrypted stream. -/
theorem State.hdcpAuth_port {ok : Bool} (hn : n < 2) (hp : s.inp.ports[n]? = some p) :
    (s.hdcpAuth n ok).getF (F.INP_PORT_STATUS_AUTH n) = b2n (s.hdcpGood n ok) ∧
      ∃ q, (s.hdcpAuth n ok).inp.ports[n]? = some q ∧
        q.lossHdcp = (!s.hdcpGood n ok && s.getF (F.INP_PORT_STATUS_ENCRYPTED n) == 1) := by
  have hp1 : (s.setF (F.INP_PORT_STATUS_AUTH n) (b2n (s.hdcpGood n ok))).inp.ports[n]? = some p := hp
  obtain ⟨b, c, hq⟩ := State.signalCheck_port (State.onPort_self hp1 fun p =>
    { p with lossHdcp := !s.hdcpGood n ok && s.getF (F.INP_PORT_STATUS_ENCRYPTED n) == 1 })
  exact ⟨State.hdcpAuth_auth hn, _, (State.sinkIrq_port hq).2, rfl⟩

theorem State.hdcpAuth_signal {ok : Bool} (hp : s.inp.ports[n]? = some p) (hgood : s.hdcpGood n ok = false)
    (henc : s.getF (F.INP_PORT_STATUS_ENCRYPTED n) = 1) : (s.hdcpAuth n ok).getF (F.INP_PORT_STATUS_SIGNAL n) = 0 := by
  have hp1 : (s.setF (F.INP_PORT_STATUS_AUTH n) (b2n (s.hdcpGood n ok))).inp.ports[n]? = some p := hp
  obtain ⟨t, ht, hsig, -⟩ := State.lossNoted (s := s) (g := fun p =>
    { p with lossHdcp := !s.hdcpGood n ok && s.getF (F.INP_PORT_STATUS_ENCRYPTED n) == 1 }) hp1 (by simp [portLost, hgood, henc])
  rw [← hsig, ht]
  rfl

/-- A port while time passes. -/
theorem State.waitUntil_port (hn : n < 2) (t : Nat) (hp : s.inp.ports[n]? = some p) :
    (s.waitUntil t).inp.ports[n]? = some p ∧ (s.waitUntil t).sinkStatus n = s.sinkStatus n := by
  have hinp : (s.waitUntil t).inp = s.inp := State.waitUntil_frame.keeps .inp
  have hp1 : (s.waitUntil t).inp.ports[n]? = some p := by rw [hinp, hp]
  refine ⟨hp1, State.sinkStatus_congr hp1 hp rfl (s.getF_waitUntil t ?_) (s.getF_waitUntil t ?_)⟩ <;> interval_cases n <;> decide

end

end Sys2Proof.Machine

namespace Sys2Proof
set_option Elab.async false
open Sys2Proof.Machine

/-- Settles O12: what each operation on a port leaves of its registers and of its state. -/
theorem portsAreConfiguredTrainedAndAnswered : Obligations.PortsAreConfiguredTrainedAndAnswered := by
  refine ⟨fun s n v p hn hp hr hboot hch => ?_, fun s n due p hn hp hdue => ?_, fun s n rate lanes p hn hp hhpd hrate h4 hlanes => ?_,
    fun s n rate lanes p hn hp hrate hlanes => ?_, fun s n r p hn hr hp hlow => ?_, fun s n a k p hn hr hp hhigh => ?_,
    fun s n a d p hn hr hp hhigh => ?_, fun s n d p hn hr hp hhigh => ?_, fun s n k p hn hr hp hhigh => ?_⟩
  · refine Completes.of_act (t := (s.hostWrite (0x20100 + 0x40 * n) v.toNat).2) rfl hn fun w => ?_
    obtain ⟨t, rfl, h⟩ := State.portCfgWrite_low (isPort_lt hn) hp hr hboot hch
    exact h
  · have hend : s.hpdEnd n = (s.waitUntil due).onPort n fun p => { p with hpd := true, hpdRise := none } := by
      rw [State.hpdEnd, State.port_of hp, hdue]
    refine Completes.of_act (t := s.hpdEnd n) rfl hn fun w => ?_
    rw [hend]
    have hinp : (s.waitUntil due).inp = s.inp := State.waitUntil_frame.keeps .inp
    have hput := State.onPort_inp (s := s.waitUntil due) (by rwa [hinp]) fun p => { p with hpd := true, hpdRise := none }
    rw [hinp] at hput
    exact ⟨s.waitUntil_now due, hput, SameBut.ended ((State.onPort_frame.mono (by decide)).trans (State.waitUntil_frame.mono (by decide))) w,
      s.waitUntil_fields due⟩
  · refine Completes.of_act (t := s.linkTrain n rate lanes true) rfl (by simp [Instr.wf, hn]; omega) fun w => ?_
    obtain ⟨hR, hL, hq⟩ := State.linkTrain_trained (isPort_lt hn) hp hhpd hrate h4 hlanes
    exact ⟨hR, hL, State.linkTrain_frame.ended w, hq⟩
  · refine Completes.of_act (t := s.linkTrain n rate lanes false) rfl (by simp [Instr.wf, hn, hrate, hlanes]) fun w => ?_
    obtain ⟨t, ht, hsig, -, hq⟩ := State.lossNoted (s := s) (s1 := s) (g := fun p => { p with lossLock := true }) hp (by simp [portLost])
    have hfail : s.linkTrain n rate lanes false = t := by
      rw [ht]
      unfold State.linkTrain
      rw [if_neg (by simp)]
    have hframe : SameBut t s [.regs, .inp] := hfail ▸ State.linkTrain_frame
    rw [hfail]
    exact ⟨hsig, hframe.ended w, _, hq, rfl, rfl⟩
  · refine Completes.of_act (t := s.aux n r) rfl (by simp [Instr.wf, hn, hr]) fun w => ?_
    unfold State.aux
    rw [State.port_of hp, if_pos (by simp [hlow])]
    exact ⟨State.onPort_frame.ended w, State.onPort_inp hp _⟩
  · refine Completes.of_act (t := s.aux n (.nativeRead a k)) rfl (by simp [Instr.wf, hn, hr]) fun w => ?_
    rw [State.aux, State.port_of hp, if_neg (by simp [hhigh])]
    exact ⟨State.onPort_frame.ended w, State.onPort_inp hp _⟩
  · refine Completes.of_act (t := s.aux n (.nativeWrite a d)) rfl (by simp [Instr.wf, hn, hr]) fun w => ?_
    rw [State.aux, State.port_of hp, if_neg (by simp [hhigh])]
    refine ⟨State.onPort_frame.ended w, _, State.onPort_self hp _, rfl, fun i x hx => ?_, fun b hb => ?_⟩
    · obtain ⟨hi, hx⟩ := List.getElem?_eq_some_iff.1 hx
      refine (SMap.get_setMany_in 0 p.dpcd a i (d.take 16) hi).trans ?_
      rw [List.getD_eq_getElem _ _ hi, hx]
    · exact SMap.get_setMany_out 0 p.dpcd a b (d.take 16) hb
  · refine Completes.of_act (t := s.aux n (.i2cWrite d)) rfl (by simp [Instr.wf, hn, hr]) fun w => ?_
    rw [State.aux, State.port_of hp, if_neg (by simp [hhigh])]
    exact ⟨State.onPort_frame.ended w, State.onPort_inp hp _⟩
  · refine Completes.of_act (t := s.aux n (.i2cRead k)) rfl (by simp [Instr.wf, hn, hr]) fun w => ?_
    rw [State.aux, State.port_of hp, if_neg (by simp [hhigh])]
    exact ⟨State.onPort_frame.ended w, State.onPort_inp hp _⟩

/-- Settles O13: an accepted PPS only changes the port; a rejected one is a loss of signal (R82). -/
theorem streamDataIsAcceptedOrRejected : Obligations.StreamDataIsAcceptedOrRejected := by
  refine ⟨fun s n pps p hn hp hok => ?_, fun s n r pps p hn hp hr h0 => ?_, fun s n enc col bpc p hn hp hok => ?_,
    fun s n data p hn hp hok => ?_, fun s n hn hok => ?_⟩
  · refine Completes.of_act (t := s.ppsIn n pps) rfl hn fun w => ?_
    unfold State.ppsIn
    rw [hok, if_pos rfl]
    exact ⟨State.onPort_frame.ended w, State.onPort_inp hp _⟩
  · refine Completes.of_act (t := s.ppsIn n pps) rfl hn fun w => ?_
    have hframe : SameBut (s.ppsIn n pps) s [.regs, .inp] := State.ppsIn_frame
    have hlt : r < 16 := hr ▸ ppsReason_lt _ _ _
    unfold State.ppsIn at hframe ⊢
    rw [hr, if_neg h0] at hframe ⊢
    extract_lets +onlyGivenNames s1 alone at hframe ⊢
    have hreason : s1.getF (F.INP_PORT_STATUS_PPS_REASON n) = r := by
      refine (State.getF_incF_ne _ _ ?_).trans ((State.getF_setF_self _ _ _).trans (Nat.mod_eq_of_lt hlt))
      have := isPort_lt hn
      interval_cases n <;> decide
    have hcount : s1.getF F.INP_PPS_REJECTS_REJECTS = satAdd 16 (s.getF F.INP_PPS_REJECTS_REJECTS) 1 := by
      refine (State.getF_incF_self _ _ _).trans (congrArg (satAdd 16 · 1) (State.getF_setF_ne _ _ ?_))
      have := isPort_lt hn
      interval_cases n <;> decide
    have hp1 : s1.inp.ports[n]? = some p := hp
    clear_value s1
    obtain ⟨t, ht, hsig, hfld, hq⟩ := State.lossNoted (s := s) (g := fun p =>
      { p with pps := some pps, ppsOk := false, ppsRate := alone, lossPps := true }) hp1 (by simp [portLost])
    have hnot (f : Fld) (h : f = F.INP_PORT_STATUS_PPS_REASON n ∨ f = F.INP_PPS_REJECTS_REJECTS) : ¬ Among (lossFields n) f := by
      have := isPort_lt hn
      obtain rfl | rfl := h <;> interval_cases n <;> exact not_among
    rw [← ht] at hframe ⊢
    exact ⟨(hfld _ (hnot _ (.inl rfl))).trans hreason, (hfld _ (hnot _ (.inr rfl))).trans hcount, hsig, hframe.ended w, _, hq, rfl, rfl⟩
  · refine Completes.of_act (t := s.sdpIn n (.vsc enc col bpc)) rfl (by simp [Instr.wf, hn, hok]) fun w => ?_
    simp only [sdpOk, Bool.and_eq_true, decide_eq_true_eq] at hok
    have henc : (F.INP_PORT_STATUS_ENC n).key ≠ (F.INP_PORT_STATUS_BPC n).key := by
      simp [Fld.key, F.INP_PORT_STATUS_ENC, F.INP_PORT_STATUS_BPC]
    have hE : (s.sdpIn n (.vsc enc col bpc)).getF (F.INP_PORT_STATUS_ENC n) = enc :=
      (State.getF_setF_ne _ _ henc).trans ((State.getF_setF_self _ _ _).trans (Nat.mod_eq_of_lt hok.1))
    have hB : (s.sdpIn n (.vsc enc col bpc)).getF (F.INP_PORT_STATUS_BPC n) = bpc :=
      (State.getF_setF_self _ _ _).trans (Nat.mod_eq_of_lt hok.2)
    exact ⟨hE, hB, State.sdpIn_frame.ended w, State.onPort_inp (s := s.setFs _) hp _⟩
  · refine Completes.of_act (t := s.sdpIn n (.hdr data)) rfl (by simp [Instr.wf, hn, hok]) fun w => ?_
    exact ⟨State.onPort_frame.ended w, State.onPort_inp hp _⟩
  · exact Completes.of_act (t := s) rfl (by simp [Instr.wf, hn, hok]) fun w => (SameBut.refl s []).ended w

/-- Settles O14: authentication and the losses of the link, each a change of one condition of R82. -/
theorem authenticationAndLossGovernSignal : Obligations.AuthenticationAndLossGovernSignal := by
  refine ⟨fun s n p hn hp hen hkeys => ?_, fun s n p hn hp henc => ?_, fun s n ok hn hno => ?_, fun s n p hn hp => ?_,
    fun s n t0 p hn hp hstart => ?_⟩
  · refine Completes.of_act (t := s.hdcpAuth n true) rfl hn fun w => ?_
    obtain ⟨hauth, q, hq, hloss⟩ := State.hdcpAuth_port (ok := true) (isPort_lt hn) hp
    have hgood : s.hdcpGood n true = true := by simp [State.hdcpGood, hen, hkeys]
    exact ⟨by rw [hgood] at hauth; exact hauth, State.hdcpAuth_frame.ended w, q, hq, by rw [hloss, hgood]; rfl⟩
  · refine Completes.of_act (t := s.hdcpAuth n false) rfl hn fun w => ?_
    obtain ⟨hauth, q, hq, hloss⟩ := State.hdcpAuth_port (ok := false) (isPort_lt hn) hp
    have hgood : s.hdcpGood n false = false := rfl
    have hlost : q.lossHdcp = true := by rw [hloss, hgood, henc]; rfl
    exact ⟨by rw [hgood] at hauth; exact hauth, State.hdcpAuth_signal hp hgood henc, State.hdcpAuth_frame.ended w, q, hq, hlost⟩
  · refine Completes.of_act (t := s.hdcpAuth n ok) rfl hn fun w => ?_
    have hgood : s.hdcpGood n ok = false := by
      obtain rfl | h | h := hno <;> simp [State.hdcpGood, *]
    have hauth := State.hdcpAuth_auth (s := s) (ok := ok) (isPort_lt hn)
    rw [hgood] at hauth
    exact ⟨hauth, State.hdcpAuth_frame.ended w⟩
  · refine Completes.of_act (t := s.lose n .lock) rfl hn fun w => ?_
    obtain ⟨hp1, hstat⟩ := State.waitUntil_port (isPort_lt hn) (s.now + usCycles 2 + 1) hp
    obtain ⟨t, ht, hsig, -, hq⟩ := State.lossNoted (s := s.waitUntil (s.now + usCycles 2 + 1)) (g := fun p => { p with lossLock := true })
      hp1 (by simp [portLost])
    have hlose : s.lose n .lock = t := ht.symm
    have hnow : t.now = s.now + usCycles 2 + 1 := by
      have h1 : t.now = (s.waitUntil (s.now + usCycles 2 + 1)).now := by
        rw [ht]
        exact (State.sinkIrq_frame.keeps .now).trans (State.signalCheck_frame.keeps .now)
      rw [h1, State.waitUntil_now]
      omega
    rw [hstat] at hq
    rw [hlose]
    exact ⟨hnow, hsig, _, hq, rfl, rfl⟩
  · refine Completes.of_act (t := s.lose n .vblank) rfl hn fun w => ?_
    let due := t0 + if s.getF (F.INP_PORT_PERIOD_PERIOD n) = 0 then msCycles 50 else 2 * s.getF (F.INP_PORT_PERIOD_PERIOD n)
    obtain ⟨hp1, -⟩ := State.waitUntil_port (isPort_lt hn) due hp
    obtain ⟨t, ht, hsig, -, hq⟩ := State.lossNoted (s := s.waitUntil due) (g := fun p => { p with lossVb := true })
      hp1 (by simp [portLost])
    have hlose : s.lose n .vblank = t := by
      rw [ht]
      unfold State.lose
      rw [State.port_of hp, hstart]
      rfl
    have hnow : t.now = max s.now due := by
      have h1 : t.now = (s.waitUntil due).now := by
        rw [ht]
        exact (State.sinkIrq_frame.keeps .now).trans (State.signalCheck_frame.keeps .now)
      rw [h1, State.waitUntil_now]
    rw [hlose]
    exact ⟨hnow, hsig, _, hq, rfl⟩

end Sys2Proof

/-! SUPPORT. Requests of Terpel (R465 to R481): what noting and answering one leaves, and what each operation does with one that is
served. -/
namespace Sys2Proof.Machine
set_option Elab.async false

section
variable {s : State} {r : Req} {rest : List Req} {au : Option Accepted}

/-! ### A noted request -/

/-- Noting an accepted request writes LAST_SEQ, and in the session. -/
theorem State.noted_kept (s : State) (au : Option Accepted) : SameBut (noted s au) s [.regs, .tpl] := by
  cases au with
  | none => exact SameBut.refl _ _
  | some a => exact State.noteAccepted_frame

theorem State.noted_fields (s : State) (au : Option Accepted) : SameFields (noted s au) s (Among [F.TPL_SEQ_LAST_SEQ]) :=
  fun _ hf => State.getF_noted_ne s au fun e => hf (Among.of List.mem_cons_self e)

/-- Parts of the control link's state that neither noting nor answering a request changes. -/
def TplSt.held (t : TplSt) : Option Chal × Nat × Option Nat × Option (Nat × Nat × List Byte) := (t.chal, t.fails, t.lockEnd, t.part)

theorem State.noted_held (s : State) (au : Option Accepted) : TplSt.held (noted s au).tpl = TplSt.held s.tpl := by
  cases au <;> rfl

theorem State.noted_queue (s : State) (au : Option Accepted) :
    (noted s au).tpl.rx = s.tpl.rx ∧ (noted s au).tpl.waiting = s.tpl.waiting := by
  cases au <;> exact ⟨rfl, rfl⟩

theorem State.onTpl_held (s : State) {g : TplSt → TplSt} (hg : ∀ t, TplSt.held (g t) = TplSt.held t) :
    TplSt.held (s.onTpl g).tpl = TplSt.held s.tpl := by
  rw [State.onTpl_tpl]
  exact hg _

theorem State.sendMsg_held (s : State) (r : Req) (m : List Byte) : TplSt.held (s.sendMsg r m).tpl = TplSt.held s.tpl := by
  unfold State.sendMsg State.netSend
  split <;> rfl

theorem State.reply_held (s : State) (r : Req) (au : Option Accepted) (st : Nat) (p : List Byte) :
    TplSt.held (s.reply r au st p).tpl = TplSt.held s.tpl := by
  unfold State.reply
  extract_lets m s1
  have h1 : TplSt.held s1.tpl = TplSt.held s.tpl := by
    have hcnt (l : List (Fld × Nat)) : TplSt.held ((s.sendMsg r m).incFs l).tpl = TplSt.held s.tpl := by
      rw [State.incFs_tpl]
      exact State.sendMsg_held _ _ _
    refine Eq.trans ?_ (hcnt [(F.TPL_RX_REQUESTS, 1), (F.TPL_ERR_MALFORMED, b2n (st == 4)), (F.TPL_ERR_DENIED, b2n (st == 3))])
    exact State.onTpl_held _ fun _ => rfl
  clear_value s1 m
  cases au with
  | none => exact h1
  | some a =>
    dsimp only
    split
    · refine Eq.trans ?_ h1
      exact State.onTpl_held _ fun _ => rfl
    · exact h1

theorem State.answerBad_held (n : Nat) (s : State) : TplSt.held (State.answerBad n s).tpl = TplSt.held s.tpl := by
  induction n generalizing s with
  | zero => rfl
  | succ n ih =>
    unfold State.answerBad
    split
    · rfl
    · split
      · exact (ih _).trans (State.reply_held _ _ _ _ _)
      · split
        · exact (ih _).trans (State.reply_held _ _ _ _ _)
        · rfl

/-- Answering leaves the challenge, the count of failures, the lockout and the held part of a page. -/
theorem State.finish_held (s : State) (r : Req) (au : Option Accepted) (st : Nat) (p : List Byte) :
    TplSt.held (s.finish r au st p).tpl = TplSt.held s.tpl := (State.answerBad_held _ _).trans (State.reply_held _ _ _ _ _)

/-- What answers a request once the machine has changed otherwise: the frame goes to the same sender, over the same link. -/
theorem answers_of_kept {x t : State} {st : Nat} {p : List Byte} (h : answers x t r au st p) (hsent : x.tpl.sent = s.tpl.sent)
    (hlink : x.linkUp = s.linkUp) (hmac : x.mac = s.mac) : answers s t r au st p := by
  simpa only [answers, carries, hsent, hlink, hmac] using h

/-- Whether the link is up, and from which address it sends. -/
theorem State.linkUp_congr {x : State} (hlink : x.getF F.TPL_LINK_STATE = s.getF F.TPL_LINK_STATE) (hboot : x.boot = s.boot) :
    x.linkUp = s.linkUp ∧ x.mac = s.mac := by
  simp only [State.linkUp, State.mac, hlink, hboot, and_self]

/-- An operation that ends in a response answers its request, whatever it did before that to other parts. -/
theorem State.finish_answers_from {x : State} {st : Nat} {p : List Byte} (hsent : x.tpl.sent = s.tpl.sent)
    (hlink : x.getF F.TPL_LINK_STATE = s.getF F.TPL_LINK_STATE) (hboot : x.boot = s.boot) :
    answers s (x.finish r au st p) r au st p :=
  answers_of_kept (x.finish_answers r au st p) hsent (State.linkUp_congr hlink hboot).1 (State.linkUp_congr hlink hboot).2

/-- The same for what was done to the state in which the request was noted. -/
theorem State.finish_answers_noted (s : State) (r : Req) (au : Option Accepted) (st : Nat) (p : List Byte) :
    answers s ((noted s au).finish r au st p) r au st p := answers_of_noted (State.finish_answers _ _ _ _ _)

/-- A response to a noted request changes registers and the link's state alone. -/
theorem State.finish_kept (s : State) (r : Req) (au : Option Accepted) (st : Nat) (p : List Byte) :
    SameBut ((noted s au).finish r au st p) s [.regs, .tpl] := State.finish_frame.trans (s.noted_kept au)

/-! ### What a request asks of the registers and of memory does not turn on its session -/

@[simp] theorem State.noted_dram (s : State) (au : Option Accepted) : (noted s au).dram = s.dram := by cases au <;> rfl

theorem State.regions_noted (s : State) (au : Option Accepted) : (noted s au).regions = s.regions := by
  have hword (n : Nat) (hn : n ∈ List.range 16) : ((List.range 2).map fun w => (noted s au).getF (F.DRM_REGION_DATA (4 * n + w))) =
      (List.range 2).map fun w => s.getF (F.DRM_REGION_DATA (4 * n + w)) := by
    refine List.map_congr_left fun w hw => State.getF_noted_ne s au ?_
    have hlt := List.mem_range.1 hn
    have hlt' := List.mem_range.1 hw
    simp only [Fld.key, F.DRM_REGION_DATA, F.TPL_SEQ_LAST_SEQ]
    omega
  unfold State.regions
  rw [List.map_congr_left fun n hn => by rw [hword n hn]]

theorem State.kindsMet_noted (s : State) (au : Option Accepted) (o n : Nat) : (noted s au).kindsMet o n = s.kindsMet o n := by
  simp only [State.kindsMet, State.regions_noted]

theorem State.recSlot_noted (s : State) (au : Option Accepted) (f : Nat) : (noted s au).recSlot f = s.recSlot f := by
  simp only [State.recSlot, State.getF_noted_ne s au (f := F.AUD_RING_BASE_LO_RBASE_LO) (by decide),
    State.getF_noted_ne s au (f := F.AUD_RING_BASE_HI_RBASE_HI) (by decide),
    State.getF_noted_ne s au (f := F.AUD_RING_COUNT_COUNT) (by decide)]

theorem State.recordOf_noted (s : State) (au : Option Accepted) (f : Nat) : (noted s au).recordOf f = s.recordOf f := by
  simp only [State.recordOf, State.recSlot_noted, State.noted_dram]

theorem State.memBad_noted (s : State) (au : Option Accepted) (p u a n : Nat) : (noted s au).memBad p u a n = s.memBad p u a n := by
  cases au <;> rfl

theorem State.recordBad_noted (s : State) (au : Option Accepted) (f : Nat) : (noted s au).recordBad f = s.recordBad f := by
  simp only [State.recordBad, State.recSlot_noted, State.memBad_noted]

theorem State.imageDigest_noted (s : State) (au : Option Accepted) : (noted s au).imageDigest = s.imageDigest := by
  unfold State.imageDigest
  rw [List.flatMap_def, List.flatMap_def, List.map_congr_left]
  intro k hk
  have hlt := List.mem_range.1 hk
  rw [State.getF_noted_ne s au]
  simp only [Fld.key, F.DEV_IMAGE_DIGEST, F.TPL_SEQ_LAST_SEQ]
  omega

@[simp] theorem State.serial_noted (s : State) (au : Option Accepted) : (noted s au).serial = s.serial := by cases au <;> rfl
@[simp] theorem State.identity_noted (s : State) (au : Option Accepted) : (noted s au).identity = s.identity := by cases au <;> rfl
@[simp] theorem State.mac_noted (s : State) (au : Option Accepted) : (noted s au).mac = s.mac := by cases au <;> rfl

/-- DEV_ID, the word at address 0, is of fields beside LAST_SEQ. -/
theorem State.word_zero_noted (s : State) (au : Option Accepted) : (noted s au).word 0 = s.word 0 := by
  have hreg : regAt 0 = some ([F.DEV_IDENT_PART, F.DEV_IDENT_STEPPING]) := rfl
  have hblk : blockOf 0 = some (.dev, 0) := rfl
  have hne : ∀ f ∈ [F.DEV_IDENT_PART, F.DEV_IDENT_STEPPING], f.key ≠ F.TPL_SEQ_LAST_SEQ.key := by decide
  have hsum : (([F.DEV_IDENT_PART, F.DEV_IDENT_STEPPING]).map fun f => (noted s au).readF f * 2 ^ f.lo) =
      ([F.DEV_IDENT_PART, F.DEV_IDENT_STEPPING]).map fun f => s.readF f * 2 ^ f.lo :=
    List.map_congr_left fun f hf => by simp only [State.readF, State.getF_noted_ne s au (hne f hf)]
  simp only [State.word, State.wordAt, hreg, hblk, State.shownWord, hsum]
  rfl

end

end Sys2Proof.Machine

namespace Sys2Proof.Machine
set_option Elab.async false

section
variable {s : State} {r : Req} {rest : List Req} {au : Option Accepted}

/-! ### Identity, status, records and attestation (R471 to R475) -/

theorem State.tplIdent_of_served (h : served s 0 r rest au) (hlen : r.len = 0) :
    s.tplIdent = (noted s au).finish r au 0 (toLe 4 (s.word 0) ++ s.serial ++ padTo 6 s.mac ++
      toLe 1 (b2n s.boot.verified + 2 * s.getF F.DEV_BOOT_COMPLETE) ++ toLe 1 0 ++ s.imageDigest ++
      ecBytes (ecPublic s.identity) ++ padTo 96 s.boot.fuses.mfgSig) := by
  rw [State.tplIdent, State.serve_of_served h, if_neg (by simp [hlen]), State.word_zero_noted, State.serial_noted, State.mac_noted,
    State.imageDigest_noted, State.identity_noted, State.getF_noted_ne s au (by decide), State.noted_boot]

theorem State.tplRecords_of_served {n : Nat} {fs : List Nat} (h : served s 9 r rest au) (hlen : r.len = 8) (hn : n = byteAt r.body 4)
    (h1 : 1 ≤ n) (h3 : n ≤ 3) (hzero : leAt r.body 5 3 = 0)
    (hfs : fs = (List.range n).map fun i => (leAt r.body 0 4 + i) % 2 ^ 32) (hbad : fs.any s.recordBad = false) :
    s.tplRecords = (noted s au).finish r au (if fs.all fun f => (s.recordOf f).isNone then 9 else 0)
      (fs.flatMap fun f => (s.recordOf f).getD (List.replicate 320 0)) := by
  have hrec : (noted s au).recordOf = s.recordOf := funext (s.recordOf_noted au)
  have hb : (noted s au).recordBad = s.recordBad := funext (s.recordBad_noted au)
  rw [State.tplRecords, State.serve_of_served h]
  simp only [← hn, ← hfs, hb, hrec, hbad]
  rw [if_neg (by omega)]
  rfl

/-- Frames none of which has a record answer zeros. -/
theorem records_absent {fs : List Nat} (hno : ∀ f ∈ fs, s.recordOf f = none) :
    (fs.flatMap fun f => (s.recordOf f).getD (List.replicate 320 0)) = List.replicate (320 * fs.length) 0 := by
  induction fs with
  | nil => rfl
  | cons f fs ih =>
    rw [List.flatMap_cons, hno f List.mem_cons_self, ih fun g hg => hno g (List.mem_cons_of_mem _ hg), Option.getD_none,
      ← List.replicate_add, List.length_cons, Nat.mul_succ, Nat.add_comm]

theorem State.tplAttest_of_served {m : List Byte} (h : served s 0x0A r rest au) (hlen : r.len = 39) (hkind : byteAt r.body 32 = 0)
    (hcount : leAt r.body 37 2 = 0) (hm : m = ascii "AQV8440-ATTEST" ++ toLe 1 0 ++ s.serial ++ r.body.take 32 ++ s.imageDigest ++
      sliceB r.body 33 6 ++ List.replicate 48 0) :
    ∃ k, 1 ≤ k ∧ s.tplAttest = ((noted s au).fresh.2.incF F.SEC_ATTEST_ATTESTS 1).finish r au 0 (m ++ ecSign s.identity k (sha384 m)) := by
  refine ⟨1 + (noted s au).fresh.1 % (ecN - 1), Nat.le_add_right _ _, ?_⟩
  rw [State.tplAttest, State.serve_of_served h, hm]
  simp [hlen, hkind, hcount, State.serial_noted, State.imageDigest_noted, State.identity_noted]
  rfl

end

end Sys2Proof.Machine

namespace Sys2Proof
set_option Elab.async false
open Sys2Proof.Machine

/-- Settles O46: each of the four operations, served, is one response. -/
theorem identityStatusAndRecordsAreReported : Obligations.IdentityStatusAndRecordsAreReported := by
  refine ⟨fun s r rest au h hlen => ?_, fun s r rest au h hlen hlt => ?_, fun s r rest au n fs h hlen hn h1 h3 hzero hfs hbad => ?_,
    fun s r rest au m h hlen hkind hcount hm => ?_⟩
  · refine Completes.of_op (t := s.tplIdent) rfl fun w => ?_
    rw [State.tplIdent_of_served h hlen]
    exact ⟨(State.finish_kept _ _ _ _ _).ended w, State.finish_answers_noted _ _ _ _ _⟩
  · refine Completes.of_op (t := s.tplStatus) rfl fun w => ?_
    have hrun : s.tplStatus = if bit (byteAt r.body 0) 0 then (noted s au).onTpl fun t =>
        { t with waiting := true, waitAs := au.map fun a => (a.number, a.seq, a.kd) }
        else (noted s au).finish r au 0 ((noted s au).statusBlock (bit (byteAt r.body 0) 1)) := by
      rw [State.tplStatus, State.serve_of_served h]
      dsimp only
      rw [if_neg (by omega)]
    rw [hrun]
    split
    · next hb =>
      refine ⟨((State.onTpl_frame.mono (by decide)).trans (s.noted_kept au)).ended w, by simp [hb], fun _ => ?_⟩
      exact ⟨rfl, State.noted_sent s au, (s.noted_queue au).1⟩
    · next hb => exact ⟨(State.finish_kept _ _ _ _ _).ended w, fun _ => State.finish_answers_noted _ _ _ _ _, by simp [hb]⟩
  · refine Completes.of_op (t := s.tplRecords) rfl fun w => ?_
    rw [State.tplRecords_of_served h hlen hn h1 h3 hzero hfs hbad]
    refine ⟨(State.finish_kept _ _ _ _ _).ended w, fun ⟨f, hf, hrec⟩ => ?_, fun hno => ?_⟩
    · rw [if_neg (fun hall => hrec (Option.isNone_iff_eq_none.1 (List.all_eq_true.1 hall f hf)))]
      exact State.finish_answers_noted _ _ _ _ _
    · have hlen : fs.length = n := by rw [hfs, List.length_map, List.length_range]
      rw [if_pos (List.all_eq_true.2 fun f hf => Option.isNone_iff_eq_none.2 (hno f hf)), records_absent hno, hlen]
      exact State.finish_answers_noted _ _ _ _ _
  · refine Completes.of_op (t := s.tplAttest) rfl fun w => ?_
    obtain ⟨k, hk, hrun⟩ := State.tplAttest_of_served h hlen hkind hcount hm
    rw [hrun]
    let x : State := (noted s au).fresh.2.incF F.SEC_ATTEST_ATTESTS 1
    have hx : Keeps [.dram, .now, .boot] x s := ((s.noted_kept au).toKeeps).step State.fresh_frame |>.step State.incF_frame
    have hcount : x.getF F.SEC_ATTEST_ATTESTS = satAdd 16 (s.getF F.SEC_ATTEST_ATTESTS) 1 := by
      rw [State.getF_incF_self]
      exact congrArg (satAdd 16 · 1) (State.getF_noted_ne s au (by decide))
    have hlink : x.getF F.TPL_LINK_STATE = s.getF F.TPL_LINK_STATE :=
      (State.getF_incF_ne _ _ (by decide)).trans (State.getF_noted_ne s au (by decide))
    refine ⟨(State.finish_frame.keeps .dram).trans (hx.at .dram), (State.finish_frame.keeps .now).trans (hx.at .now),
      (State.finish_fields _ not_among).trans hcount, k, hk, ?_⟩
    exact State.finish_answers_from (x := x) (State.noted_sent s au) hlink (hx.at .boot)

end Sys2Proof

namespace Sys2Proof.Machine
set_option Elab.async false

section
variable {s : State} {r : Req} {rest : List Req} {au : Option Accepted}

/-! ### Challenges and sessions (R476 to R479) -/

theorem State.lockedOut_noted (s : State) (au : Option Accepted) : (noted s au).lockedOut = s.lockedOut := by cases au <;> rfl

/-- A CHALLENGE outside a lockout: the challenge is outstanding, and the response carries it. -/
theorem State.tplChallenge_of_served (h : served s 0x10 r rest au) (hlen : r.len = 0) (hopen : s.lockedOut = false) :
    ∃ (c : Chal) (x : State), c.nonce.length = 48 ∧ c.expires = s.now + msCycles 10000 ∧ Keeps [.now, .boot] x s ∧
      x.tpl = { (noted s au).tpl with chal := some c } ∧ x.getF F.SEC_AUTH_CHAL = 1 ∧
      x.getF F.TPL_LINK_STATE = s.getF F.TPL_LINK_STATE ∧
      s.tplChallenge = x.finish r au 0 (c.nonce ++ ecBytes (ecPublic c.eph) ++ s.serial) := by
  let a := (noted s au).fresh
  let b := a.2.fresh
  let c : Chal := ⟨toBe 48 (a.1 % 2 ^ 384), 1 + b.1 % (ecN - 1), (noted s au).now + msCycles 10000⟩
  let y : State := b.2.onTpl fun t => { t with chal := some c }
  have hy : Keeps [.now, .boot] y s := (((s.noted_kept au).toKeeps.step State.fresh_frame).step State.fresh_frame).step State.onTpl_frame
  refine ⟨c, y.setF F.SEC_AUTH_CHAL 1, (List.length_reverse).trans (toLe_length _ _), by rw [← State.noted_now s au], hy.step State.setF_frame, rfl,
    State.getF_setF_self _ _ _, ?_, ?_⟩
  · rw [State.getF_setF_ne _ _ (by decide)]
    exact State.getF_noted_ne s au (by decide)
  · rw [State.tplChallenge, State.serve_of_served h, if_neg (by simp [hlen]), if_neg (by simp [State.lockedOut_noted, hopen]),
      State.serial_noted]

/-- An accepted request names the session that is open. -/
theorem State.authCheck_number {a : Accepted} (h : s.authCheck r = .accepted a) : a.number = s.getF F.TPL_SESSION_SESSION := by
  unfold State.authCheck at h
  split at h
  · cases h
  · dsimp only at h
    repeat' split at h
    all_goals cases h
    rfl

theorem State.sendMsg_sess (s : State) (r : Req) (m : List Byte) : (s.sendMsg r m).tpl.sess = s.tpl.sess := by
  unfold State.sendMsg State.netSend
  split <;> rfl

theorem State.getF_replied (s : State) (r : Req) (m : List Byte) (l : List (Fld × Nat)) (g : TplSt → TplSt) (f : Fld)
    (h : ∀ e ∈ l, f.key ≠ e.1.key) : (((s.sendMsg r m).incFs l).onTpl g).getF f = s.getF f := by
  have hregs : (s.sendMsg r m).regs = s.regs := State.sendMsg_frame.keeps .regs
  rw [State.getF_onTpl, State.getF_incFs_ne _ _ _ h, State.getF, hregs, State.getF]

/-- The session that is open is not the one under which the request was accepted: nothing is stored in it. -/
theorem State.reply_sess_other {st : Nat} {p : List Byte} (h : ∀ a, au = some a → s.getF F.TPL_SESSION_SESSION ≠ a.number) :
    (s.reply r au st p).tpl.sess = s.tpl.sess := by
  unfold State.reply
  extract_lets m s1
  have hsess : s1.tpl.sess = s.tpl.sess := by
    unfold s1
    rw [State.onTpl_tpl, State.incFs_tpl, State.sendMsg_sess]
  have hnum : s1.getF F.TPL_SESSION_SESSION = s.getF F.TPL_SESSION_SESSION := State.getF_replied s r m _ _ _ (by
    simp only [List.mem_cons, List.not_mem_nil, or_false, forall_eq_or_imp, forall_eq]
    decide)
  clear_value s1
  split
  · next a =>
    rw [if_neg (by rw [hnum]; exact h a rfl)]
    exact hsess
  · exact hsess

theorem State.answerBad_sess_same (n : Nat) (s : State) : (State.answerBad n s).tpl.sess = s.tpl.sess := by
  induction n generalizing s with
  | zero => rfl
  | succ n ih =>
    unfold State.answerBad
    split
    · rfl
    · split
      · exact (ih _).trans (State.reply_sess_other nofun)
      · split
        · exact (ih _).trans (State.reply_sess_other nofun)
        · rfl

theorem State.finish_sess_other {st : Nat} {p : List Byte} (h : ∀ a, au = some a → s.getF F.TPL_SESSION_SESSION ≠ a.number) :
    (s.finish r au st p).tpl.sess = s.tpl.sess := (State.answerBad_sess_same _ _).trans (State.reply_sess_other h)

/-- The request under which an operation is served was accepted in the session open then. -/
theorem served_number {op : Nat} (h : served s op r rest au) (a : Accepted) (ha : au = some a) :
    a.number = s.getF F.TPL_SESSION_SESSION := by
  obtain ⟨-, -, -, -, hauth⟩ := h
  rcases hauth with ⟨-, hnone, -⟩ | ⟨-, b, hcheck, hb⟩
  · cases hnone.symm.trans ha
  · cases hb.symm.trans ha
    exact State.authCheck_number hcheck

/-- The registers that an OPEN writes. -/
theorem State.opened_fields (y : State) (slot n : Nat) (hlt : n < 2 ^ 16) :
    ∃ z, z = (y.setFs [(F.TPL_SESSION_OPEN, 1), (F.TPL_SESSION_KEY_SLOT, slot), (F.TPL_SESSION_SESSION, n), (F.TPL_SEQ_LAST_SEQ, 0)]).incF
        F.SEC_AUTH_OPENS 1 ∧ z.getF F.TPL_SESSION_OPEN = 1 ∧ z.getF F.TPL_SESSION_SESSION = n ∧ z.getF F.TPL_SEQ_LAST_SEQ = 0 ∧
      z.getF F.SEC_AUTH_OPENS = satAdd 16 (y.getF F.SEC_AUTH_OPENS) 1 ∧
      SameFields z y (Among [F.TPL_SESSION_OPEN, F.TPL_SESSION_KEY_SLOT, F.TPL_SESSION_SESSION, F.TPL_SEQ_LAST_SEQ, F.SEC_AUTH_OPENS]) := by
  refine ⟨_, rfl, ?_, ?_, ?_, ?_, ?_⟩
  · rw [State.getF_incF_ne _ _ (by decide), State.setFs, State.setFs, State.setFs, State.setFs, State.setFs,
      State.getF_setF_ne _ _ (by decide), State.getF_setF_ne _ _ (by decide), State.getF_setF_ne _ _ (by decide),
      State.getF_setF_self]
    rfl
  · rw [State.getF_incF_ne _ _ (by decide), State.setFs, State.setFs, State.setFs, State.setFs, State.setFs,
      State.getF_setF_ne _ _ (by decide), State.getF_setF_self]
    exact Nat.mod_eq_of_lt hlt
  · rw [State.getF_incF_ne _ _ (by decide), State.setFs, State.setFs, State.setFs, State.setFs, State.setFs, State.getF_setF_self]
    rfl
  · rw [State.getF_incF_self, State.getF_setFs_ne]
    · rfl
    · simp only [List.mem_cons, List.not_mem_nil, or_false, forall_eq_or_imp, forall_eq]
      decide
  · exact (SameFields.incIn (by simp)).trans (SameFields.setsIn (by simp))

/-- An OPEN whose point stands: the next session is open, with the keys derived. -/
theorem State.tplOpen_opens {c : Chal} {p : EcPoint} {n : Nat} {ks : List Byte} (h : served s 0x11 r rest au) (hlen : r.len = 194)
    (hslot : byteAt r.body 0 ≤ 3) (hpoint : s.openPoint s.liveChal r.body = some (c, p))
    (hn : n = (s.getF F.TPL_SESSION_SESSION + 1) % 65536)
    (hks : ks = hkdf384 c.nonce (ecShared c.eph p) (ascii "TERPEL-SESSION" ++ toLe 4 n) 48) :
    ∃ x : State, x.boot = s.boot ∧ x.tpl = { (noted s au).tpl with
        chal := none, fails := 0, sess := some { kh := ks.take 24, kd := ks.drop 24, last := s.now } } ∧
      x.getF F.TPL_SESSION_OPEN = 1 ∧ x.getF F.TPL_SESSION_SESSION = n ∧ x.getF F.TPL_SEQ_LAST_SEQ = 0 ∧
      x.getF F.SEC_AUTH_CHAL = 0 ∧ x.getF F.SEC_AUTH_OPENS = satAdd 16 (s.getF F.SEC_AUTH_OPENS) 1 ∧
      x.getF F.TPL_LINK_STATE = s.getF F.TPL_LINK_STATE ∧ s.tplOpen = x.finish r au 0 (toLe 4 n) := by
  let y : State := ((noted s au).onTpl fun t => { t with chal := none }).setF F.SEC_AUTH_CHAL 0
  have hy : SameFields y s (Among [F.SEC_AUTH_CHAL, F.TPL_SEQ_LAST_SEQ]) :=
    (SameFields.setIn (List.mem_cons_self)).trans ((s.noted_fields au).widen (by simp))
  have hchal : y.getF F.SEC_AUTH_CHAL = 0 := State.getF_setF_self _ _ _
  have hboot : y.boot = s.boot := (s.noted_kept au).keeps .boot
  have htpl : y.tpl = { (noted s au).tpl with chal := none } := rfl
  have hrun : s.tplOpen = (((y.setFs [(F.TPL_SESSION_OPEN, 1), (F.TPL_SESSION_KEY_SLOT, byteAt r.body 0), (F.TPL_SESSION_SESSION, n),
      (F.TPL_SEQ_LAST_SEQ, 0)]).incF F.SEC_AUTH_OPENS 1).onTpl fun t =>
        { t with fails := 0, sess := some { kh := ks.take 24, kd := ks.drop 24, last := s.now } }).finish r au 0 (toLe 4 n) := by
    have hnum : (noted s au).getF F.TPL_SESSION_SESSION = s.getF F.TPL_SESSION_SESSION := State.getF_noted_ne s au (by decide)
    rw [State.tplOpen, State.serve_of_served h]
    simp only [hlen, State.openPoint_noted, hpoint, ne_eq, not_true_eq_false, false_or, if_neg (Nat.not_lt.2 hslot), hnum, ← hn,
      ← hks, State.noted_now]
    rfl
  clear_value y
  obtain ⟨z, hz, hopen, hsess, hseq, hopens, hfld⟩ := y.opened_fields (byteAt r.body 0) n (by omega)
  have hzy : Keeps [.boot, .tpl] z y := by
    rw [hz]
    exact ((Keeps.refl _ y).step State.setFs_frame).step State.incF_frame
  have hztpl : z.tpl = y.tpl := hzy.at .tpl
  rw [← hz] at hrun
  refine ⟨z.onTpl fun t => { t with fails := 0, sess := some { kh := ks.take 24, kd := ks.drop 24, last := s.now } },
    (hzy.at .boot : z.boot = y.boot).trans hboot, ?_, hopen, hsess, hseq, (hfld _ not_among).trans hchal, ?_, ?_, hrun⟩
  · rw [State.onTpl_tpl, hztpl, htpl]
  · exact hopens.trans (congrArg (satAdd 16 · 1) (hy _ not_among))
  · exact (hfld _ not_among).trans (hy _ not_among)

/-! ### Failed OPENs (R476, R477) -/

theorem State.openFails_kept (y : State) : SameBut y.openFails y [.regs, .tpl] ∧
    SameFields y.openFails y (Among [F.SEC_AUTH_OPEN_FAIL, F.SEC_AUTH_LOCKOUT]) ∧
    y.openFails.tpl.chal = y.tpl.chal ∧ y.openFails.tpl.sent = y.tpl.sent := by
  refine ⟨State.openFails_frame, ?_, ?_, ?_⟩ <;> unfold State.openFails <;> dsimp only
  · have hinc : SameFields (y.incF F.SEC_AUTH_OPEN_FAIL 1) y (Among [F.SEC_AUTH_OPEN_FAIL, F.SEC_AUTH_LOCKOUT]) :=
      SameFields.incIn List.mem_cons_self
    exact SameFields.ite ((SameFields.setIn (by simp)).trans hinc) hinc
  · split <;> rfl
  · split <;> rfl

theorem State.openFails_count (y : State) :
    y.openFails.getF F.SEC_AUTH_OPEN_FAIL = satAdd 8 (y.getF F.SEC_AUTH_OPEN_FAIL) 1 := by
  unfold State.openFails
  dsimp only
  split
  · exact (State.getF_setF_ne _ _ (by decide)).trans (State.getF_incF_self _ _ _)
  · exact State.getF_incF_self _ _ _

/-- The fourth failure in a row begins a lockout; any other is counted. -/
theorem State.openFails_lock (y : State) :
    (3 ≤ y.tpl.fails → y.openFails.tpl.lockEnd = some (y.now + msCycles 5000) ∧ y.openFails.getF F.SEC_AUTH_LOCKOUT = 1) ∧
      (y.tpl.fails < 3 → y.openFails.tpl.lockEnd = y.tpl.lockEnd ∧ y.openFails.tpl.fails = y.tpl.fails + 1) := by
  unfold State.openFails
  dsimp only
  constructor
  · intro h
    rw [if_pos (by omega)]
    exact ⟨rfl, State.getF_setF_self _ _ _⟩
  · intro h
    rw [if_neg (by omega)]
    exact ⟨rfl, rfl⟩

/-! ### Expiry (R476) -/

theorem State.chalExpiry_ends {s : State} {c : Chal} (hc : s.tpl.chal = some c) : s.chalExpiry.now = max s.now c.expires ∧
    s.chalExpiry.tpl = { s.tpl with chal := none } ∧ s.chalExpiry.getF F.SEC_AUTH_CHAL = 0 := by
  have htpl : (s.waitUntil c.expires).tpl = s.tpl := State.waitUntil_frame.keeps .tpl
  simp only [State.chalExpiry, hc]
  exact ⟨s.waitUntil_now _, by rw [← htpl]; rfl, State.getF_setF_self _ _ _⟩

theorem State.lockoutEnd_ends {s : State} {e : Nat} (he : s.tpl.lockEnd = some e) : s.lockoutEnd.now = max s.now e ∧
    s.lockoutEnd.tpl = { s.tpl with lockEnd := none } ∧ s.lockoutEnd.getF F.SEC_AUTH_LOCKOUT = 0 := by
  have htpl : (s.waitUntil e).tpl = s.tpl := State.waitUntil_frame.keeps .tpl
  simp only [State.lockoutEnd, he]
  exact ⟨s.waitUntil_now _, by rw [← htpl]; rfl, State.getF_setF_self _ _ _⟩

end

end Sys2Proof.Machine

namespace Sys2Proof
set_option Elab.async false
open Sys2Proof.Machine

/-- Settles O47: each request served is one change of the session's state and one response; the limits in time wait and clear. -/
theorem sessionsOpenAndClose : Obligations.SessionsOpenAndClose := by
  refine ⟨fun s r rest au h hlen hopen => ?_, fun s r rest au h hlen hlock => ?_, fun s r rest au c p n ks h hlen hslot hpoint hn hks => ?_,
    fun s r rest au h hlen hslot hpoint => ?_, fun s r rest au h hlen => ?_, fun s c hc => ?_, fun s e he => ?_, fun s x hx hidle => ?_⟩
  · refine Completes.of_op (t := s.tplChallenge) rfl fun w => ?_
    obtain ⟨c, x, hnonce, hexp, hx, htpl, hchal, hlink, hrun⟩ := State.tplChallenge_of_served h hlen hopen
    rw [hrun]
    have hheld := congrArg Prod.fst (x.finish_held r au 0 (c.nonce ++ ecBytes (ecPublic c.eph) ++ s.serial))
    refine ⟨(State.finish_fields _ not_among).trans hchal, (State.finish_frame.keeps .now).trans (hx.at .now), c,
      hheld.trans (congrArg TplSt.chal htpl), hnonce, hexp, ?_⟩
    exact State.finish_answers_from ((congrArg TplSt.sent htpl).trans (State.noted_sent s au)) hlink (hx.at .boot)
  · refine Completes.of_op (t := s.tplChallenge) rfl fun w => ?_
    have hrun : s.tplChallenge = (noted s au).finish r au 6 [] := by
      rw [State.tplChallenge, State.serve_of_served h, if_neg (by simp [hlen]), if_pos (by simp [State.lockedOut_noted, hlock])]
    rw [hrun]
    refine ⟨?_, State.finish_answers_noted _ _ _ _ _⟩
    exact (congrArg Prod.fst (State.finish_held _ _ _ _ _)).trans (congrArg Prod.fst (s.noted_held au))
  · refine Completes.of_op (t := s.tplOpen) rfl fun w => ?_
    obtain ⟨x, hboot, htpl, hopen, hsess, hseq, hchal, hopens, hlink, hrun⟩ := State.tplOpen_opens h hlen hslot hpoint hn hks
    rw [hrun]
    have hother : ∀ a, au = some a → x.getF F.TPL_SESSION_SESSION ≠ a.number := by
      intro a ha
      rw [hsess, hn, served_number h a ha]
      omega
    have hheld := x.finish_held r au 0 (toLe 4 n)
    have hfld (f : Fld) (hf : ¬ Among replyCounts f) : (x.finish r au 0 (toLe 4 n)).getF f = x.getF f := State.finish_fields f hf
    refine ⟨State.finish_answers_from ((congrArg TplSt.sent htpl).trans (State.noted_sent s au)) hlink hboot,
      (hfld _ not_among).trans hopen, (hfld _ not_among).trans hsess, (hfld _ not_among).trans hseq, (hfld _ not_among).trans hchal,
      (congrArg Prod.fst hheld).trans (congrArg TplSt.chal htpl), ?_,
      (congrArg (fun q => q.2.1) hheld).trans (congrArg TplSt.fails htpl), (hfld _ not_among).trans hopens⟩
    exact (State.finish_sess_other hother).trans (congrArg TplSt.sess htpl)
  · refine Completes.of_op (t := s.tplOpen) rfl fun w => ?_
    let y : State := ((noted s au).onTpl fun t => { t with chal := none }).setF F.SEC_AUTH_CHAL 0
    have hrun : s.tplOpen = y.openFails.finish r au 3 [] := by
      rw [State.tplOpen, State.serve_of_served h]
      simp only [hlen, State.openPoint_noted, hpoint, ne_eq, not_true_eq_false, false_or, if_neg (Nat.not_lt.2 hslot)]
      rfl
    have hy : SameFields y s (Among [F.SEC_AUTH_CHAL, F.TPL_SEQ_LAST_SEQ]) :=
      (SameFields.setIn (List.mem_cons_self)).trans ((s.noted_fields au).widen (by simp))
    have hchal : y.getF F.SEC_AUTH_CHAL = 0 := State.getF_setF_self _ _ _
    have hboot : y.boot = s.boot := (s.noted_kept au).keeps .boot
    have hnow : y.now = s.now := (s.noted_kept au).keeps .now
    have htpl : y.tpl = { (noted s au).tpl with chal := none } := rfl
    clear_value y
    have hsent : y.tpl.sent = s.tpl.sent := (congrArg TplSt.sent htpl).trans (State.noted_sent s au)
    have hfails : y.tpl.fails = s.tpl.fails := (congrArg TplSt.fails htpl).trans (congrArg (fun q => q.2.1) (s.noted_held au))
    have hlock : y.tpl.lockEnd = s.tpl.lockEnd := (congrArg TplSt.lockEnd htpl).trans (congrArg (fun q => q.2.2.1) (s.noted_held au))
    obtain ⟨hkept, hfld, hc, hs⟩ := y.openFails_kept
    obtain ⟨hfour, hfewer⟩ := y.openFails_lock
    rw [hfails, hnow] at hfour
    rw [hfails, hlock] at hfewer
    have hheld := y.openFails.finish_held r au 3 []
    have hend (f : Fld) (hf : ¬ Among replyCounts f) : (y.openFails.finish r au 3 []).getF f = y.openFails.getF f :=
      State.finish_fields f hf
    rw [hrun]
    refine ⟨State.finish_answers_from (hs.trans hsent) ((hfld _ not_among).trans (hy _ not_among)) ((hkept.keeps .boot).trans hboot),
      (hend _ not_among).trans ((hfld _ not_among).trans hchal),
      (congrArg Prod.fst hheld).trans (hc.trans (congrArg TplSt.chal htpl)),
      (hend _ not_among).trans ((hfld _ not_among).trans (hy _ not_among)),
      (hend _ not_among).trans (y.openFails_count.trans (congrArg (satAdd 8 · 1) (hy _ not_among))), fun h3 => ?_, fun h3 => ?_⟩
    · exact ⟨(congrArg (fun q => q.2.2.1) hheld).trans (hfour h3).1, (hend _ not_among).trans (hfour h3).2⟩
    · exact ⟨(congrArg (fun q => q.2.2.1) hheld).trans (hfewer h3).1, (congrArg (fun q => q.2.1) hheld).trans (hfewer h3).2⟩
  · refine Completes.of_op (t := s.tplClose) rfl fun w => ?_
    have hclosed := State.closeSession_closed (noted s au)
    have hanswer : answers s ((noted s au).closeSession.finish r au 0 []) r au 0 [] :=
      State.finish_answers_from (State.noted_sent s au) ((State.getF_setF_ne _ _ (by decide)).trans (State.getF_noted_ne s au (by decide)))
        ((s.noted_kept au).keeps .boot)
    rw [State.tplClose_of_served h hlen]
    exact ⟨hanswer, hclosed.finish.2, hclosed.finish.1⟩
  · refine Completes.of_op (t := s.chalExpiry) rfl fun w => ?_
    exact State.chalExpiry_ends hc
  · refine Completes.of_op (t := s.lockoutEnd) rfl fun w => ?_
    exact State.lockoutEnd_ends he
  · refine Completes.of_op (t := s.sessionIdle) rfl fun w => ?_
    rw [State.sessionIdle_of_open hx hidle]
    generalize x.last + msCycles (1000 * s.getF F.TPL_CFG_SESS_IDLE) = due
    have htpl : (s.waitUntil due).tpl = s.tpl := State.waitUntil_frame.keeps .tpl
    exact ⟨s.waitUntil_now due, by rw [← htpl]; rfl, (State.closeSession_closed _).2⟩

end Sys2Proof

namespace Sys2Proof.Machine
set_option Elab.async false

section
variable {s : State} {r : Req} {rest : List Req} {au : Option Accepted}

/-! ### Requests that are not carried out (R478, R480) -/

/-- A privileged operation without AUTH is denied, but for RESET after a failed boot. -/
theorem State.serve_of_unauthorised {op : Nat} (hrx : s.tpl.rx = r :: rest) (hwait : s.tpl.waiting = false) (hop : r.op = op)
    (hauth : r.auth = false) (hpriv : opPrivileged op = true) (hfail : op = 0x19 → s.getF F.DEV_BOOT_FAILED ≠ 1)
    (run : State → Req → Option Accepted → State) : s.serve op run = s.finish r none 3 [] := by
  have hnot : ¬ (op = 0x19 ∧ s.getF F.DEV_BOOT_FAILED = 1) := fun h => hfail h.1 h.2
  simp [State.serve, hrx, hwait, hop, hauth, hpriv, hnot]

/-- What a request whose SEQ repeats the last one gets: the response stored. -/
def State.replyAgain (s : State) (r : Req) (m : List Byte) : State :=
  ((s.sendMsg r m).incFs [(F.TPL_RX_REQUESTS, 1), (F.TPL_ERR_MALFORMED, b2n (byteAt m 10 == 4))]).onTpl fun t => { t with
    rx := t.rx.drop 1, sess := t.sess.map fun x => { x with last := s.now } }

theorem State.serve_of_again {op : Nat} {m : List Byte} (hrx : s.tpl.rx = r :: rest) (hwait : s.tpl.waiting = false) (hop : r.op = op)
    (hauth : r.auth = true) (hagain : s.authCheck r = .again m) (run : State → Req → Option Accepted → State) :
    s.serve op run = State.answerBad 16 (s.replyAgain r m) := by
  simp [State.serve, hrx, hwait, hop, hauth, hagain, State.replyAgain]

theorem State.replyAgain_kept (s : State) (r : Req) (m : List Byte) : SameBut (s.replyAgain r m) s [.regs, .tpl] ∧
    SameFields (s.replyAgain r m) s (Among replyCounts) ∧
    (s.replyAgain r m).tpl.sent = s.tpl.sent ++ if s.linkUp = true then [carries s r m] else [] := by
  refine ⟨?_, fun f hf => State.getF_replied s r m _ _ f fun e he => ?_, ?_⟩
  · exact (State.onTpl_frame.mono (by decide)).trans ((State.incFs_frame.mono (by decide)).trans (State.sendMsg_frame.mono (by decide)))
  · intro hk
    refine hf (Among.of (f := e.1) ?_ hk)
    simp only [List.mem_cons, List.not_mem_nil, or_false] at he
    obtain rfl | rfl := he <;> simp [replyCounts]
  · rw [State.replyAgain, State.onTpl_tpl, State.incFs_tpl]
    exact s.sendMsg_sent r m

/-! ### A POWER request (R509) -/

theorem State.decideChange_fields (s : State) : SameFields s.decideChange s (Among [F.CAL_MODE_CHANGING]) :=
  SameFields.trans (SameFields.setIn List.mem_cons_self) (SameFields.of_regs rfl)

theorem State.modeCheck_fields (s : State) : SameFields s.modeCheck s (Among [F.CAL_MODE_MODE_HELD, F.CAL_MODE_CHANGING]) := by
  have hset : SameFields (s.setF F.CAL_MODE_MODE_HELD (b2n !s.modeReady)) s (Among [F.CAL_MODE_MODE_HELD, F.CAL_MODE_CHANGING]) :=
    SameFields.setIn List.mem_cons_self
  have hdec := ((State.decideChange_fields _).widen (by simp)).trans hset
  exact SameFields.ite hdec (SameFields.ite hdec hset)

/-- The registers that an accepted POWER request writes. -/
theorem State.transition_fields (y : State) {n : Nat} (hn : n ≤ 2) :
    ∃ z, z = y.setFs [(F.PWR_STATE_STATE, 3), (F.PWR_STATE_BUSY, 1), (F.PWR_STATE_TARGET, n)] ∧ z.getF F.PWR_STATE_STATE = 3 ∧
      z.getF F.PWR_STATE_BUSY = 1 ∧ z.getF F.PWR_STATE_TARGET = n ∧
      SameFields z y (Among [F.PWR_STATE_STATE, F.PWR_STATE_BUSY, F.PWR_STATE_TARGET]) := by
  refine ⟨_, rfl, ?_, ?_, ?_, SameFields.setsIn (by simp)⟩
  · rw [State.setFs, State.setFs, State.setFs, State.setFs, State.getF_setF_ne _ _ (by decide), State.getF_setF_ne _ _ (by decide),
      State.getF_setF_self]
    rfl
  · rw [State.setFs, State.setFs, State.setFs, State.setFs, State.getF_setF_ne _ _ (by decide), State.getF_setF_self]
    rfl
  · rw [State.setFs, State.setFs, State.setFs, State.setFs, State.getF_setF_self]
    exact Nat.mod_eq_of_lt (show n < 2 ^ 2 by omega)

/-- An accepted POWER request to another state: the transition begins. -/
theorem State.powerRequest_accepted {y : State} {n : Nat} (hn : n ≤ 2) (hbusy : y.getF F.PWR_STATE_BUSY ≠ 1)
    (hheat : y.thermalHold = false) (hnb : 2 ≤ n ∨ y.wantedNb = n) (hne : n ≠ y.getF F.PWR_STATE_STATE) :
    ∃ x, y.powerRequest n = (0, x) ∧ SameBut x y [.regs, .pwr, .change] ∧ x.getF F.PWR_STATE_STATE = 3 ∧
      x.getF F.PWR_STATE_BUSY = 1 ∧ x.getF F.PWR_STATE_TARGET = n ∧ x.getF F.TPL_LINK_STATE = y.getF F.TPL_LINK_STATE := by
  obtain ⟨z, hz, hst, hb, ht, hfld⟩ := y.transition_fields hn
  have hlink : z.getF F.TPL_LINK_STATE = y.getF F.TPL_LINK_STATE := hfld _ not_among
  have hzy : SameBut z y [.regs] := hz ▸ State.setFs_frame
  have go (t : Trans) : SameBut (z.onPwr fun w => { w with trans := t }) y [.regs, .pwr, .change] :=
    (State.onPwr_frame.mono (by decide)).trans (hzy.mono (by decide))
  have check (t : Trans) : SameBut (z.onPwr fun w => { w with trans := t }).modeCheck y [.regs, .pwr, .change] ∧
      ∀ f, ¬ Among [F.CAL_MODE_MODE_HELD, F.CAL_MODE_CHANGING] f → (z.onPwr fun w => { w with trans := t }).modeCheck.getF f = z.getF f :=
    ⟨(State.modeCheck_frame.mono (by decide)).trans (go t), fun f hf => State.modeCheck_fields _ f hf⟩
  have hbusy' : ¬ (y.getF F.PWR_STATE_BUSY = 1 ∨ y.thermalHold = true) := by simp [hbusy, hheat]
  have hwant : ¬ (n < 2 ∧ y.wantedNb ≠ n) := by omega
  unfold State.powerRequest
  rw [if_neg hbusy', if_neg hne, if_neg hwant, ← hz]
  dsimp only
  split
  · exact ⟨_, rfl, go _, hst, hb, ht, hlink⟩
  · split
    · exact ⟨_, rfl, go _, hst, hb, ht, hlink⟩
    · split
      · obtain ⟨hkept, hf⟩ := check .toBreeze
        exact ⟨_, rfl, hkept, (hf _ not_among).trans hst, (hf _ not_among).trans hb, (hf _ not_among).trans ht,
          (hf _ not_among).trans hlink⟩
      · obtain ⟨hkept, hf⟩ := check (.powerUp y.now)
        exact ⟨_, rfl, hkept, (hf _ not_among).trans hst, (hf _ not_among).trans hb, (hf _ not_among).trans ht,
          (hf _ not_among).trans hlink⟩

/-- What POWER tests does not turn on the request's session. -/
theorem State.powerTests_noted (s : State) (au : Option Accepted) :
    (noted s au).getF F.PWR_STATE_BUSY = s.getF F.PWR_STATE_BUSY ∧ (noted s au).thermalHold = s.thermalHold ∧
      (noted s au).wantedNb = s.wantedNb ∧ (noted s au).getF F.PWR_STATE_STATE = s.getF F.PWR_STATE_STATE := by
  have htemp (d : Nat) (hd : d ∈ List.range 10) : (noted s au).getF (F.PWR_TEMP_TEMP d) = s.getF (F.PWR_TEMP_TEMP d) := by
    have := List.mem_range.1 hd
    refine State.getF_noted_ne s au ?_
    simp only [Fld.key, F.PWR_TEMP_TEMP, F.TPL_SEQ_LAST_SEQ]
    omega
  have hprog : (noted s au).prog = s.prog := (s.noted_kept au).keeps .prog
  refine ⟨State.getF_noted_ne s au (by decide), ?_, ?_, State.getF_noted_ne s au (by decide)⟩
  · have hany : ((List.range 10).any fun d => decide (releaseLevel d ≤ sext 16 ((noted s au).getF (F.PWR_TEMP_TEMP d)))) =
        (List.range 10).any fun d => decide (releaseLevel d ≤ sext 16 (s.getF (F.PWR_TEMP_TEMP d))) := by
      rw [Bool.eq_iff_iff, List.any_eq_true, List.any_eq_true]
      exact exists_congr fun d => and_congr_right fun hd => by rw [htemp d hd]
    rw [State.thermalHold, State.thermalHold, State.noted_pstate, State.getF_noted_ne s au (by decide), hany]
  · rw [State.wantedNb, State.wantedNb, hprog, State.getF_noted_ne s au (by decide), State.getF_noted_ne s au (by decide)]

end

end Sys2Proof.Machine

namespace Sys2Proof
set_option Elab.async false
open Sys2Proof.Machine

/-- Settles O48: what is denied or repeated ends in a response before the operation's own rules; POWER and RESET are carried out. -/
theorem privilegedRequestsNeedASession : Obligations.PrivilegedRequestsNeedASession := by
  refine ⟨fun s r rest c hc hrx hwait hauth hfail => ?_, fun s r rest c m hc hrx hwait hauth hagain => ?_,
    fun s r rest au n h hlen hn h2 hbusy hheat hnb hne => ?_, fun s r rest au h hlen => ?_⟩
  · have hpriv : opPrivileged r.op = true := by
      simp only [List.mem_cons, Prod.mk.injEq, List.not_mem_nil, or_false] at hc
      obtain ⟨-, h⟩ | ⟨-, h⟩ | ⟨-, h⟩ | ⟨-, h⟩ | ⟨-, h⟩ := hc <;> rw [h] <;> rfl
    obtain ⟨run, hexec⟩ := exec_serves (op := r.op) (by simp only [List.mem_cons] at hc ⊢; tauto) s
    refine Completes.of_op hexec fun w => ?_
    rw [State.serve_of_unauthorised hrx hwait rfl hauth hpriv hfail]
    exact ⟨s.finish_answers r none 3 [], State.finish_frame.ended w, State.finish_fields⟩
  · obtain ⟨run, hexec⟩ := exec_serves (op := r.op) (by simp only [List.mem_cons] at hc ⊢; tauto) s
    refine Completes.of_op hexec fun w => ?_
    rw [State.serve_of_again hrx hwait rfl hauth hagain]
    obtain ⟨hkept, hfld, hsent⟩ := s.replyAgain_kept r m
    obtain ⟨more, hmore⟩ := State.answerBad_sent 16 (s.replyAgain r m)
    exact ⟨SameBut.ended (State.answerBad_frame.trans hkept) w, State.answerBad_fields.trans hfld, more, hmore.trans (by rw [hsent])⟩
  · refine Completes.of_op (t := s.tplPower) rfl fun w => ?_
    obtain ⟨b1, b2, b3, b4⟩ := s.powerTests_noted au
    obtain ⟨x, hx, hkept, hst, hb, ht, hlink⟩ := State.powerRequest_accepted (y := noted s au) h2 (b1 ▸ hbusy) (b2 ▸ hheat)
      (b3 ▸ hnb) (b4 ▸ hne)
    have hrun : s.tplPower = x.finish r au 0 [] := by
      rw [State.tplPower, State.serve_of_served h, if_neg (by omega), ← hn, hx]
    have hxs : Keeps [.now, .boot] x s := (hkept.toKeeps).trans ((s.noted_kept au).toKeeps)
    rw [hrun]
    refine ⟨State.finish_answers_from ?_ (hlink.trans (State.getF_noted_ne s au (by decide))) (hxs.at .boot),
      (State.finish_fields _ not_among).trans hst, (State.finish_fields _ not_among).trans hb,
      (State.finish_fields _ not_among).trans ht, (State.finish_frame.keeps .now).trans (hxs.at .now)⟩
    have htpl : x.tpl = (noted s au).tpl := hkept.keeps .tpl
    rw [htpl, State.noted_sent]
  · refine Completes.of_op (t := s.tplReset) rfl fun w => ?_
    have hrun : s.tplReset = ((noted s au).finish r au 0 []).startReset 1 (s.now + usCycles 100) := by
      rw [State.tplReset, State.serve_of_served h, if_neg (by simp [hlen]), State.noted_now]
    have hkept := s.finish_kept r au 0 []
    rw [hrun]
    exact ⟨State.finish_answers_noted s r au 0 [], rfl, hkept.keeps .dram, hkept.keeps .now⟩

end Sys2Proof

/-! SUPPORT. The link's state and the replay's status (R460, R455, R456): what the effects of a host write and the start of a raster
leave of them. -/
namespace Sys2Proof.Machine
set_option Elab.async false

/-! ### Fields beside them -/

/-- STATE of TPL_LINK; STATE and DIVERGED of AUD_REPLAY_STATUS; LATE; the state of the boot, of the power state and of the
DRAM; HIGH of the input power. -/
def linkReplay : List Fld :=
  [F.TPL_LINK_STATE, F.AUD_REPLAY_STATUS_STATE, F.AUD_REPLAY_STATUS_DIVERGED, F.AUD_REPLAY_CNT_LATE, F.DEV_BOOT_STAGE,
   F.DEV_BOOT_COMPLETE, F.DEV_BOOT_HOLDING, F.PWR_STATE_STATE, F.PWR_STATE_BUSY, F.DRM_STATUS_SELF_REFRESH, F.PWR_INPWR_HIGH]

/-- A field is none of these. -/
def Beside (f : Fld) : Prop := f.key ∉ linkReplay.map Fld.key

theorem beside {f : Fld} (h : f.key ∉ linkReplay.map Fld.key := by decide) : Beside f := h

theorem Beside.of_key {f g : Fld} (h : Beside f) (e : g.key = f.key) : Beside g := by
  rw [Beside, e]
  exact h

/-- They stand in seven registers; a field anywhere else is beside them. -/
theorem beside_iff {f : Fld} (hlo : f.lo < 32) : (f.addr ≠ 0x70000 ∧ f.addr ≠ 0xD0050 ∧ f.addr ≠ 0xD0054 ∧ f.addr ≠ 0x10 ∧
    f.addr ≠ 0x90000 ∧ f.addr ≠ 0x50000 ∧ f.addr ≠ 0x90024) → Beside f := by
  intro h
  simp only [Beside, linkReplay, List.map_cons, List.map_nil, List.mem_cons, List.not_mem_nil, or_false, Fld.key, F.TPL_LINK_STATE,
    F.AUD_REPLAY_STATUS_STATE, F.AUD_REPLAY_STATUS_DIVERGED, F.AUD_REPLAY_CNT_LATE, F.DEV_BOOT_STAGE, F.DEV_BOOT_COMPLETE,
    F.DEV_BOOT_HOLDING, F.PWR_STATE_STATE, F.PWR_STATE_BUSY, F.DRM_STATUS_SELF_REFRESH, F.PWR_INPWR_HIGH]
  omega

@[simp] theorem Beside.of_above {a lo w rst : Nat} {acc : Acc} {cfg : Bool} (h : 0xD0054 < a) (hlo : lo < 32) :
    Beside ⟨a, lo, w, rst, acc, cfg⟩ := beside_iff hlo (by dsimp only; omega)

@[simp] theorem above_replay_array {a k : Nat} (h : 0xD0054 < a) : 0xD0054 < a + k := Nat.lt_add_right k h

@[simp] theorem above_replay_array₂ {a k l : Nat} (h : 0xD0054 < a) : 0xD0054 < a + k + l := above_replay_array (above_replay_array h)

@[simp] theorem EngId.regs_above_replay (g : EngId) : 0xD0054 < g.regs := by
  cases g <;> simp [EngId.regs, coreEng, bandEng]

theorem WithTime.beside {f : Fld} (hf : WithTime f) : Beside f := by
  have habove := hf.above
  simp only [Beside, linkReplay, List.map_cons, List.map_nil, List.mem_cons, List.not_mem_nil, or_false, Fld.key, F.TPL_LINK_STATE,
    F.AUD_REPLAY_STATUS_STATE, F.AUD_REPLAY_STATUS_DIVERGED, F.AUD_REPLAY_CNT_LATE, F.DEV_BOOT_STAGE, F.DEV_BOOT_COMPLETE,
    F.DEV_BOOT_HOLDING, F.PWR_STATE_STATE, F.PWR_STATE_BUSY, F.DRM_STATUS_SELF_REFRESH, F.PWR_INPWR_HIGH] at *
  omega

namespace Beside
variable {s : State}

theorem setF {f : Fld} {v : Nat} (h : Beside f) : SameFields (s.setF f v) s Beside := SameFields.setF fun _ e => h.of_key e

theorem incF {f : Fld} {n : Nat} (h : Beside f) : SameFields (s.incF f n) s Beside := SameFields.incF fun _ e => h.of_key e

theorem uncountF {f : Fld} {n : Nat} (h : Beside f) : SameFields (s.uncountF f n) s Beside := by
  intro g hg
  simp only [State.getF, State.uncountF, RegFile.put, RegFile.note_vals]
  exact SMap.get_set_ne _ _ _ _ fun e => hg (h.of_key e)

theorem yieldF {f : Fld} {v : Nat} (h : Beside f) : SameFields (s.yieldF f v) s Beside :=
  SameFields.ite (SameFields.refl _ _) (setF h)

theorem setFs {l : List (Fld × Nat)} (h : ∀ e ∈ l, Beside e.1) : SameFields (s.setFs l) s Beside :=
  SameFields.setFs fun x hx _ e => (h x hx).of_key e

theorem incFs {l : List (Fld × Nat)} (h : ∀ e ∈ l, Beside e.1) : SameFields (s.incFs l) s Beside := fun f hf =>
  State.getF_incFs_ne s l f fun x hx e => hf ((h x hx).of_key e)

/-- What leaves the registers alone. -/
theorem of_frame {t : State} {ps : List Part} (h : SameBut t s ps) (hp : .regs ∉ ps := by decide) : SameFields t s Beside :=
  SameFields.of_regs (h.keeps .regs hp)

/-- What writes only fields beside them. -/
theorem of_fields {t : State} {fs : List Fld} (h : SameFields t s (Among fs)) (hfs : ∀ f ∈ fs, Beside f) : SameFields t s Beside :=
  h.mono fun f hf => by
    obtain ⟨g, hg, hk⟩ := List.mem_map.1 hf
    exact (hfs g hg).of_key hk.symm

theorem of_withTime {t : State} (h : SameFields t s WithTime) : SameFields t s Beside := h.mono fun _ hf => hf.beside

end Beside

section
variable {s : State}

/-! ### The panel link (R394, R403, R407) -/

theorem State.lanesNow_beside : SameFields s.lanesNow s Beside := Beside.of_frame State.lanesNow_frame

theorem State.startTraining_beside : SameFields s.startTraining s Beside := by
  unfold State.startTraining
  exact (Beside.of_frame State.send_frame).trans ((Beside.of_frame State.onPnl_frame).trans
    ((Beside.setF beside).trans State.lanesNow_beside))

theorem State.safeLeave_beside : SameFields s.safeLeave s Beside :=
  SameFields.ite (SameFields.of_regs rfl) State.startTraining_beside

theorem State.enSet_beside : SameFields s.enSet s Beside := by
  have h1 : SameFields (s.setF F.PNL_CTRL_EN 1) s Beside := Beside.setF beside
  exact SameFields.ite h1 (SameFields.ite ((Beside.setF beside).trans h1) (SameFields.ite (State.safeLeave_beside.trans h1)
    (SameFields.ite (State.startTraining_beside.trans h1) h1)))

theorem State.overrulePhase0_beside : SameFields s.overrulePhase0 s Beside := by
  unfold State.overrulePhase0
  split
  · exact SameFields.ite (SameFields.refl _ _) (SameFields.trans (SameFields.ite (Beside.incF beside) (SameFields.refl _ _))
      ((Beside.of_frame State.onPnl_frame).trans (Beside.uncountF beside)))
  · exact SameFields.refl _ _

theorem State.overruleRetrain_beside : SameFields s.overruleRetrain s Beside := by
  unfold State.overruleRetrain
  split
  · exact SameFields.ite ((Beside.of_frame State.onPnl_frame).trans (Beside.uncountF beside)) (SameFields.refl _ _)
  · exact SameFields.refl _ _

theorem State.safeEnter_beside {cause : Nat} : SameFields (s.safeEnter cause) s Beside := by
  unfold State.safeEnter
  extract_lets s1 s1'
  have h1 : SameFields s1 s Beside := SameFields.of_regs rfl
  have h1' : SameFields s1' s Beside :=
    State.lanesNow_beside.trans (State.overruleRetrain_beside.trans State.overrulePhase0_beside)
  refine SameFields.ite (SameFields.ite ((Beside.setF beside).trans h1) h1) ?_
  refine (Beside.of_frame State.send_frame).trans ((Beside.of_frame State.onPnl_frame).trans (SameFields.trans (Beside.setFs ?_) h1'))
  simp only [List.mem_cons, List.not_mem_nil, or_false, forall_eq_or_imp, forall_eq]
  exact ⟨beside, beside⟩

theorem State.enClear_beside : SameFields s.enClear s Beside := by
  have h1 : SameFields (s.setF F.PNL_CTRL_EN 0) s Beside := Beside.setF beside
  exact SameFields.ite (State.safeEnter_beside.trans h1) h1

theorem State.retrainNow_beside : SameFields s.retrainNow s Beside := by
  unfold State.retrainNow
  extract_lets n s1 s2
  have h1 : SameFields s1 s Beside := State.overrulePhase0_beside
  have hcount : SameFields ((s1.incF F.PNL_CNT_RETRAINS 1).onPnl fun p => { p with retrained := some (s.now, n) }) s Beside :=
    (Beside.of_frame State.onPnl_frame).trans ((Beside.incF beside).trans h1)
  have h2 : SameFields s2 s Beside := by
    unfold s2
    split
    · exact SameFields.ite h1 hcount
    · exact hcount
  exact State.startTraining_beside.trans h2

theorem State.retrain_beside : SameFields s.retrain s Beside := SameFields.ite State.retrainNow_beside (SameFields.refl _ _)

/-! ### Engines, threads and lists (R251, R271) -/

theorem State.setThreadState_beside {p t v : Nat} : SameFields (s.setThreadState p t v) s Beside :=
  Beside.setF (by simp [F.CORE_THREAD_STATE])

theorem State.frameThreads_beside {p : Nat} : SameFields (s.frameThreads p) s Beside :=
  SameFields.each (SameFields.refl _ _) fun _ _ => SameFields.ite (SameFields.refl _ _) State.setThreadState_beside

theorem State.setWait_beside {p t : Nat} {w : Wait} : SameFields (s.setWait p t w) s Beside := by
  unfold State.setWait
  extract_lets s1 s2
  have h2 : SameFields s2 s Beside := State.setThreadState_beside.trans (Beside.of_frame State.onThread_frame)
  exact SameFields.ite (State.frameThreads_beside.trans h2) h2

theorem State.freeTiles_beside {p e : Nat} : SameFields (s.freeTiles p e) s Beside :=
  SameFields.each (SameFields.refl _ _) fun _ _ => SameFields.ite State.setWait_beside (SameFields.refl _ _)

theorem State.engStopped_beside {g : EngId} : SameFields (s.engStopped g) s Beside := by
  unfold State.engStopped
  extract_lets x s1
  have h1 : SameFields s1 s Beside := (Beside.setF (by simp [F.ENG_STATE_STATE])).trans (Beside.of_frame State.onEng_frame)
  exact SameFields.ite (SameFields.ite ((Beside.setF (by simp [F.ENG_TILES_CONSUMED])).trans h1) h1) (SameFields.refl _ _)

theorem State.retryOnce_beside {g : EngId} : SameFields (s.retryOnce g) s Beside :=
  SameFields.ite (SameFields.refl _ _) (Beside.setF (by simp [F.ENG_STATE_STATE]))

theorem State.hostRetry_beside {g : EngId} : SameFields (s.hostRetry g) s Beside :=
  SameFields.ite (State.retryOnce_beside.trans ((Beside.of_frame State.onEng_frame).trans (Beside.of_withTime (s.advance_fields 1))))
    (SameFields.refl _ _)

theorem State.hostAbort_beside {g : EngId} : SameFields (s.hostAbort g) s Beside := by
  unfold State.hostAbort
  split
  · split
    · extract_lets s1
      have h1 : SameFields s1 s Beside := State.freeTiles_beside.trans (State.engStopped_beside.trans
        ((Beside.setF (by simp [F.ENG_STATE_STATE])).trans (Beside.of_frame State.onEng_frame)))
      split
      · exact (Beside.of_frame State.failRun_frame).trans h1
      · exact h1
    · exact SameFields.refl _ _
  · exact SameFields.refl _ _

/-! ### Snapshots, Drizzle and the port's signal -/

theorem State.snapCancel_beside : SameFields s.snapCancel s Beside :=
  SameFields.ite ((Beside.setF beside).trans (SameFields.of_regs rfl)) (SameFields.refl _ _)

theorem State.snapArm_beside : SameFields s.snapArm s Beside :=
  SameFields.ite (Beside.setF beside) ((Beside.setF beside).trans (SameFields.of_regs rfl))

theorem State.initSem_beside {p i : Nat} : SameFields (s.initSem p i) s Beside :=
  Beside.setFs (by simp [F.CORE_SEM_COUNT, F.CORE_SEM_DEBT])

theorem State.dropSteps_beside : SameFields s.dropSteps s Beside := by
  unfold State.dropSteps
  extract_lets sem s1
  suffices h1 : SameFields s1 s Beside from SameFields.ite (SameFields.refl _ _) ((Beside.of_frame State.onDrz_frame).trans h1)
  refine SameFields.each (SameFields.refl _ _) fun y p => SameFields.ite ?_ (SameFields.refl _ _)
  exact (SameFields.onCore _ _ _ _).trans (State.initSem_beside.trans (State.frameThreads_beside.trans
    (State.setThreadState_beside.trans (Beside.of_frame State.onThread_frame))))

theorem State.drzReset_beside : SameFields s.drzReset s Beside :=
  SameFields.trans (SameFields.of_regs rfl)
    (SameFields.ite (SameFields.refl _ _) ((Beside.of_frame State.drzInit_frame).trans State.dropSteps_beside))

theorem beside_signal (n : Nat) : Beside (F.INP_PORT_STATUS_SIGNAL n) :=
  beside_iff (f := F.INP_PORT_STATUS_SIGNAL n) (Nat.zero_lt_succ _) (by simp only [F.INP_PORT_STATUS_SIGNAL]; omega)

theorem State.signalCheck_beside {n : Nat} : SameFields (s.signalCheck n) s Beside :=
  Beside.of_fields (s.signalCheck_fields n) fun f hf => by
    simp only [lossFields, List.mem_cons, List.not_mem_nil, or_false] at hf
    obtain rfl | rfl := hf
    · exact beside_signal n
    · exact beside

theorem State.modeCheck_beside : SameFields s.modeCheck s Beside := Beside.of_fields s.modeCheck_fields (by
  simp only [List.mem_cons, List.not_mem_nil, or_false, forall_eq_or_imp, forall_eq]
  exact ⟨beside, beside⟩)

/-- What the fields' own writes may change is all that a host write changes of them. -/
theorem State.writeEffect_beside {P : Fld → Prop} (hP : ∀ f, Beside f → P f) {u : State} {blk : Blk} {o v : Nat} (h : SameFields u s P) :
    SameFields (State.writeEffect s u blk o v) s P := by
  have hlift {x y : State} (hx : SameFields x y Beside) : SameFields x y P := hx.mono hP
  have heng (g : EngId) : SameFields (let s1 := if bit v 0 then u.hostRetry g else u; if bit v 1 then s1.hostAbort g else s1) s P := by
    have h1 : SameFields (if bit v 0 then u.hostRetry g else u) s P := SameFields.ite ((hlift State.hostRetry_beside).trans h) h
    exact SameFields.ite ((hlift State.hostAbort_beside).trans h1) h1
  unfold State.writeEffect
  extract_lets up
  split
  · exact SameFields.ite ((hlift State.signalCheck_beside).trans h) h
  · exact SameFields.ite ((hlift State.modeCheck_beside).trans h) h
  · have h1 : SameFields (if bit v 0 then s.enSet else s.enClear) s P :=
      SameFields.ite (hlift State.enSet_beside) (hlift State.enClear_beside)
    exact SameFields.ite (SameFields.ite ((hlift State.retrain_beside).trans h1) h1) h
  · have h1 : SameFields (if bit v 1 then u.snapCancel else u) s P := SameFields.ite ((hlift State.snapCancel_beside).trans h) h
    exact SameFields.ite (SameFields.ite ((hlift State.snapArm_beside).trans h1) h1) h
  · exact SameFields.ite ((hlift (Beside.of_frame State.restoreAsk_frame)).trans h) h
  · exact SameFields.ite ((hlift State.drzReset_beside).trans h) h
  · refine SameFields.ite ((SameFields.onCore _ _ _ _).trans h) ?_
    split
    · exact heng _
    · exact h
  · split
    · exact heng _
    · exact h
  · exact h

end

end Sys2Proof.Machine

/-! SUPPORT. The start of the raster (R499, R455): the link's state and the replay's status stand, but for what the replay's own check
of a frame writes; the calendar stands at the frame's first line. -/
namespace Sys2Proof.Machine
set_option Elab.async false

section
variable {s : State}

/-! ### Drizzle at a boundary (R344, R351 to R353) -/

theorem State.flipBank_beside : SameFields s.flipBank s Beside := by
  unfold State.flipBank
  exact SameFields.each (SameFields.refl _ _) fun y p =>
    (Beside.setF (by simp [F.CORE_WFILE_ADAPT_BANK])).trans (SameFields.onCore _ _ _ _)

theorem State.commitLive_beside {n : Nat} : SameFields (s.commitLive n) s Beside := by
  unfold State.commitLive
  split
  · exact SameFields.refl _ _
  · next c =>
    extract_lets late ce s1
    have h1 : SameFields s1 s Beside := (Beside.of_frame State.onDrz_frame).trans ((Beside.incF beside).trans
      ((Beside.of_frame State.onDrzSet_frame).trans State.flipBank_beside))
    clear_value s1
    exact SameFields.ite (SameFields.refl _ _)
      (SameFields.ite ((Beside.of_frame State.drzTaint_frame).trans ((Beside.incF beside).trans h1)) h1)

theorem State.resetLive_beside {n : Nat} : SameFields (s.resetLive n) s Beside := by
  unfold State.resetLive
  extract_lets ce
  refine SameFields.ite ((Beside.of_frame State.onDrz_frame).trans (SameFields.ite (SameFields.refl _ _) ?_)) (SameFields.refl _ _)
  exact (Beside.of_frame State.onDrzSet_frame).trans State.flipBank_beside

theorem State.drzHist_beside : SameFields s.drzHist s Beside := by
  unfold State.drzHist
  split
  · exact SameFields.refl _ _
  · refine SameFields.each (SameFields.refl _ _) fun y p => SameFields.each (SameFields.refl _ _) fun z u => Beside.setFs ?_
    simp [F.CORE_HIST_CFG_EN, F.CORE_HIST_CFG_SNAP, F.CORE_HIST_CFG_SRC, F.CORE_HIST_CFG_LAYER, F.CORE_HIST_CFG_CHAN,
      F.CORE_HIST_CFG_ALLCH, F.CORE_HIST_LO_LO, F.CORE_HIST_SHIFT_SHIFT]

theorem State.drzEnable_beside {n : Nat} : SameFields (s.drzEnable n) s Beside := by
  unfold State.drzEnable
  extract_lets en
  exact SameFields.ite (State.drzHist_beside.trans (Beside.of_frame State.onDrz_frame))
    (SameFields.ite (Beside.of_frame State.onDrz_frame) (SameFields.refl _ _))

theorem State.queueFill_beside {n : Nat} : SameFields (s.queueFill n) s Beside := by
  unfold State.queueFill
  extract_lets old k s1 s2
  have h1 : SameFields s1 s Beside := Beside.of_frame State.onDrz_frame
  have h2 : SameFields s2 s Beside :=
    SameFields.ite h1 ((Beside.of_frame State.drzTaint_frame).trans ((Beside.incF beside).trans h1))
  clear_value s2
  exact SameFields.ite ((Beside.of_frame State.onDrz_frame).trans h2) h2

theorem State.drzBoundary_beside {n : Nat} {sw : Bool} : SameFields (s.drzBoundary n sw) s Beside := by
  unfold State.drzBoundary
  extract_lets s0 s1 s2
  have h0 : SameFields s0 s Beside := SameFields.ite ((Beside.of_frame State.onDrz_frame).trans State.flipBank_beside) (SameFields.refl _ _)
  have h1 : SameFields s1 s0 Beside := by
    refine (Beside.of_frame State.histSum_frame).trans (State.queueFill_beside.trans ((Beside.of_frame State.onDrz_frame).trans ?_))
    split
    · exact State.commitLive_beside.trans (State.drzEnable_beside.trans State.resetLive_beside)
    · exact State.drzEnable_beside.trans (State.commitLive_beside.trans State.resetLive_beside)
    · exact State.drzEnable_beside
  have h2 : SameFields s2 s1 Beside := SameFields.ite (Beside.of_frame State.tdAdd_frame) (SameFields.refl _ _)
  clear_value s2 s1 s0
  exact (Beside.of_frame State.coverCheck_frame).trans (h2.trans (h1.trans h0))

/-! ### Records, weathering and Frost at a boundary (R451, R364, R527) -/

theorem State.recordingTake_beside : SameFields s.recordingTake s Beside := by
  unfold State.recordingTake
  extract_lets c was _ s0 _ s1
  have h0 : SameFields s0 s Beside := SameFields.of_regs rfl
  have h1 : SameFields s1 s Beside := SameFields.of_regs rfl
  clear_value s0 s1
  refine SameFields.ite (SameFields.ite ((Beside.setF beside).trans h0) ?_) (SameFields.ite ?_ h0)
  · refine (Beside.of_frame State.logPut_frame).trans ((Beside.setFs ?_).trans h1)
    simp only [List.mem_cons, List.not_mem_nil, or_false, forall_eq_or_imp, forall_eq]
    exact ⟨beside, beside⟩
  · exact (Beside.setF beside).trans (SameFields.trans (SameFields.of_regs rfl) h0)

theorem State.ledger_beside {k u : Nat} {b : List Byte} : SameFields (s.ledger k u b) s Beside :=
  SameFields.ite (Beside.incF beside) ((Beside.setF beside).trans (SameFields.of_regs rfl))

theorem State.weatherBoundary_beside : SameFields s.weatherBoundary s Beside := by
  unfold State.weatherBoundary
  extract_lets s1 s2 s3
  have h1 : SameFields s1 s Beside := SameFields.foldl (SameFields.refl _ _) fun y e =>
    (SameFields.onCore _ _ _ _).trans (Beside.setF (by simp [F.CORE_CLK_BIN_PLAN]))
  have h2 : SameFields s2 s1 Beside := SameFields.foldl (SameFields.refl _ _) fun y e =>
    State.ledger_beside.trans (Beside.setFs (by simp [F.CORE_IDENT_ROLE, F.BAND_SLOTMAP_IDLE_RETIRED]))
  have h3 : SameFields s3 s2 Beside := SameFields.foldl (SameFields.refl _ _) fun y e =>
    State.ledger_beside.trans (Beside.setFs (by simp [F.CORE_IDENT_ROLE, F.BAND_SLOTMAP_IDLE_RETIRED]))
  exact (Beside.of_frame State.onPwr_frame).trans (h3.trans (h2.trans h1))

theorem State.clearSlot_beside {k : Nat} : SameFields (s.clearSlot k) s Beside :=
  Beside.yieldF (beside_iff (f := F.FRS_SLOT_DATA (48 * k + 1)) (Nat.zero_lt_succ _) (by simp only [F.FRS_SLOT_DATA]; omega))

theorem State.examine_beside {m : Nat} : SameFields (s.examine m).1 s Beside := by
  unfold State.examine
  extract_lets valid due late s1 s2
  have h1 : SameFields s1 s Beside := SameFields.foldl (SameFields.refl _ _) fun y k => State.clearSlot_beside
  have h2 : SameFields s2 s Beside := SameFields.trans (Beside.incFs (by
    simp only [List.mem_cons, List.not_mem_nil, or_false, forall_eq_or_imp, forall_eq]
    exact ⟨beside, beside⟩)) h1
  clear_value s2 late
  cases due with
  | nil => exact h2
  | cons k ks =>
    dsimp only
    split
    · exact (Beside.incF beside).trans h2
    · exact (Beside.setF beside).trans ((Beside.incF beside).trans h2)

theorem State.frostFix_beside {n : Nat} : SameFields (s.frostFix n) s Beside := by
  unfold State.frostFix
  extract_lets m q s1 mode en dflt prev idx on plain r s2 c
  have h1 : SameFields s1 s Beside := State.examine_beside
  have h2 : SameFields s2 s Beside := SameFields.ite ((Beside.incF beside).trans h1) h1
  clear_value s2 c
  refine SameFields.trans (SameFields.of_regs rfl) (SameFields.trans (Beside.setFs
    (l := [(F.FRS_STATUS_SEED, c.seed), (F.FRS_STATUS_SOURCE, c.source), (F.FRS_STATUS_CHANNELS, c.chan), (F.FRS_STATUS_SLOT, c.slot)]) ?_) h2)
  · simp only [List.mem_cons, List.not_mem_nil, or_false, forall_eq_or_imp, forall_eq]
    exact ⟨beside, beside, beside, beside⟩

/-! ### The units that begin a frame (R379, R394) -/

theorem State.takePlane_beside {p : Nat} : SameFields (s.takePlane p) s Beside :=
  SameFields.trans (SameFields.of_regs rfl) (Beside.incF (f := F.DRM_HOST_PLACE_ERR) beside)

theorem State.takeRegion_beside {g : Nat} : SameFields (s.takeRegion g) s Beside :=
  SameFields.trans (SameFields.of_regs rfl) (Beside.incF (f := F.DRM_HOST_PLACE_ERR) beside)

theorem State.takeCapture_beside : SameFields s.takeCapture s Beside := by
  unfold State.takeCapture
  extract_lets fmt q
  exact SameFields.ite (SameFields.refl _ _) (SameFields.trans (SameFields.of_regs rfl) (Beside.incF (f := F.DRM_HOST_PLACE_ERR) beside))

theorem State.forceRegion_beside {n g : Nat} : SameFields (s.forceRegion n g) s Beside := by
  unfold State.forceRegion
  extract_lets r on f r1 _ s1
  have h1 : SameFields s1 s Beside := SameFields.trans (SameFields.of_regs rfl) (Beside.setF (f := F.CMP_GR_STAT_FORCED g)
    (beside_iff (Nat.succ_le_of_lt (by simp only [F.CMP_GR_STAT_FORCED]; omega)) (by simp only [F.CMP_GR_STAT_FORCED]; omega)))
  exact SameFields.ite ((Beside.of_frame State.tdAdd_frame).trans h1) h1

theorem State.applyPoint_beside {n : Nat} : SameFields (s.applyPoint n) s Beside := by
  unfold State.applyPoint
  split
  · exact SameFields.refl _ _
  extract_lets s1 s2 s3 s4 s5
  have h1 : SameFields s1 s Beside := SameFields.ite State.takePlane_beside (SameFields.refl _ _)
  have h2 : SameFields s2 s Beside := SameFields.ite (State.takePlane_beside.trans h1) h1
  have h3 : SameFields s3 s Beside :=
    SameFields.ite (SameFields.each h2 fun _ _ => State.takeRegion_beside) h2
  have h4 : SameFields s4 s Beside := State.takeCapture_beside.trans ((Beside.yieldF beside).trans ((Beside.yieldF beside).trans
    ((Beside.yieldF beside).trans h3)))
  have h5 : SameFields s5 s Beside := SameFields.each h4 fun _ _ => State.forceRegion_beside
  clear_value s5
  exact SameFields.trans (SameFields.of_regs rfl) h5

theorem State.truncate_beside : SameFields s.truncate s Beside := by
  unfold State.truncate
  split
  · exact SameFields.refl _ _
  · exact (Beside.of_frame State.send_frame).trans ((Beside.of_frame State.onPnl_frame).trans (Beside.incF beside))

theorem State.blankStripes_beside : SameFields s.blankStripes s Beside := by
  unfold State.blankStripes
  extract_lets x v gn blank n m fr gm
  exact SameFields.ite ((Beside.of_frame State.onPnl_frame).trans ((Beside.setF beside).trans (Beside.of_frame State.send_frame)))
    (Beside.of_frame State.send_frame)

theorem State.laneLine_beside : SameFields s.laneLine s Beside := by
  unfold State.laneLine
  refine SameFields.ite (SameFields.ite (Beside.incF beside) (SameFields.refl _ _)) ?_
  extract_lets s1
  have h1 : SameFields s1 s Beside :=
    State.truncate_beside.trans ((Beside.of_frame State.onPnl_frame).trans State.lanesNow_beside)
  clear_value s1
  exact SameFields.ite (SameFields.ite ((Beside.of_frame State.lineHeader_frame).trans h1) h1) (State.blankStripes_beside.trans h1)

theorem State.lanePhase0_beside : SameFields s.lanePhase0 s Beside := by
  unfold State.lanePhase0
  extract_lets s1
  have h1 : SameFields s1 s Beside := State.laneLine_beside
  clear_value s1
  exact SameFields.ite ((Beside.setF beside).trans ((Beside.of_frame State.onPnl_frame).trans h1)) h1

theorem State.beginFrameUnits_beside {n : Nat} {a b : Bool} : SameFields (s.beginFrameUnits n a b) s Beside := by
  unfold State.beginFrameUnits
  refine State.lanePhase0_beside.trans ((Beside.of_frame State.recBegin_frame).trans ((Beside.of_frame State.snapStop_frame).trans ?_))
  refine (Beside.of_frame State.snapLine_frame).trans ((Beside.of_frame State.laneBoundary_frame).trans ?_)
  exact (Beside.of_frame State.gfxBoundary_frame).trans State.applyPoint_beside

/-! ### The start itself -/

theorem State.calStart_beside {n : Nat} : SameFields (s.calStart n) s Beside := by
  unfold State.calStart
  extract_lets vb s1
  have h1 : SameFields s1 s Beside := Beside.setFs (by
    simp only [List.mem_cons, List.not_mem_nil, or_false, forall_eq_or_imp, forall_eq]
    exact ⟨beside, beside⟩)
  clear_value s1
  exact SameFields.trans (SameFields.of_regs rfl) h1

theorem State.ctxBoundary_beside : SameFields s.ctxBoundary s Beside := by
  unfold State.ctxBoundary
  extract_lets x0 _ x
  clear_value x
  refine SameFields.trans (SameFields.of_regs rfl) (Beside.setFs (s := s)
    (l := [(F.CAL_RT_POS_LO_F, x.f), (F.CAL_RT_POS_LO_ALIGNED, b2n x.aligned), (F.CAL_RT_POS_HI_I, x.i)]) ?_)
  · simp only [List.mem_cons, List.not_mem_nil, or_false, forall_eq_or_imp, forall_eq]
    exact ⟨beside, beside, beside⟩

theorem State.framesArrive_beside {n : Nat} : SameFields (s.framesArrive n) s Beside := by
  unfold State.framesArrive
  split
  · exact SameFields.refl _ _
  · exact (Beside.setF beside).trans (SameFields.of_regs rfl)

/-- A replay's check of a frame writes DIVERGED and MISMATCH alone. -/
theorem State.replayFrame_fields {n v : Nat} :
    SameFields (s.replayFrame n v) s (Among [F.AUD_REPLAY_STATUS_DIVERGED, F.AUD_REPLAY_CNT_MISMATCH]) := by
  unfold State.replayFrame
  split
  · exact SameFields.refl _ _
  · split
    · exact SameFields.ite (SameFields.refl _ _) ((SameFields.incIn (by simp)).trans (SameFields.setIn (by simp)))
    · exact SameFields.refl _ _


/-- What a start hands to the units of the frame that begins. -/
def State.rasterGive (u : State) (x : FrameCtx) (w : List WarpSt) (a : AudSt) (f : FrostSt) : State :=
  { u with ctxNext := some x, noBase1 := false, firstLines := none, warp := w, aud := a, frost := f }

/-- The calendar's start, and what the raster's start hands on. -/
def State.rasterBegin (s : State) (n : Nat) (boot : Bool) : State :=
  let s1 := (s.calStart n).dropCounts
  let live := s1.sched.rt.lag == 0
  let blank := FrameCtx.black n s1.step
  let x : FrameCtx := if live then { blank with i := s1.getF F.INP_FRAME_FRAME, live := true, shown := true } else blank
  (s1.setF F.CAL_STATUS_REALTIME 0).rasterGive x (List.replicate 8 (if live then {} else { queued := [blank] }))
    { s1.aud with zero := if boot then some s1.now else s1.aud.zero }
    (if boot then { s1.frost with next := { seed := frameSeed (s1.getF F.FRS_CTRL_SEED_BASE) n }, fresh := true } else s1.frost)

/-- What the raster's start does after the calendar has begun: the units that follow it, in order. -/
def State.rasterUnits (s2 : State) (n : Nat) : State :=
  let s3 := ((((s2.ctxBoundary).weatherBoundary).planGrabs s2.arrived)).framesArrive n
  let s4 := (((s3.writeFormat).takeTickets).drzBoundary n false).histTake
  let s5 := (((s4.frostFix n).recordingTake).recordFrame 0).replayFrame n 0
  s5.beginFrameUnits n false false

theorem State.rasterUnits_status {n : Nat} (f : Fld) (hf : ¬ Beside f)
    (hne : ¬ Among [F.AUD_REPLAY_STATUS_DIVERGED, F.AUD_REPLAY_CNT_MISMATCH] f) : (s.rasterUnits n).getF f = s.getF f := by
  unfold State.rasterUnits
  extract_lets s3 s4 s5
  have h3 : SameFields s3 s Beside := State.framesArrive_beside.trans ((Beside.of_frame State.planGrabs_frame).trans
    (State.weatherBoundary_beside.trans State.ctxBoundary_beside))
  have h4 : SameFields s4 s3 Beside := (Beside.of_frame State.histTake_frame).trans (State.drzBoundary_beside.trans
    ((Beside.of_frame State.takeTickets_frame).trans (Beside.of_frame State.writeFormat_frame)))
  have h5 : SameFields ((s4.frostFix n).recordingTake.recordFrame 0) s4 Beside :=
      (Beside.of_frame State.recordFrame_frame).trans (State.recordingTake_beside.trans State.frostFix_beside)
  exact (State.beginFrameUnits_beside f hf).trans ((State.replayFrame_fields f hne).trans ((h5 f hf).trans ((h4 f hf).trans (h3 f hf))))


theorem State.rasterStart_eq {n : Nat} {boot : Bool} : s.rasterStart n boot = (s.rasterBegin n boot).rasterUnits n := rfl

theorem State.rasterGive_regs {x : FrameCtx} {w : List WarpSt} {a : AudSt} {f : FrostSt} :
    (s.rasterGive x w a f).regs = s.regs ∧ (s.rasterGive x w a f).cal = s.cal ∧ (s.rasterGive x w a f).now = s.now ∧
      (s.rasterGive x w a f).aud = a := ⟨rfl, rfl, rfl, rfl⟩

theorem State.rasterBegin_beside {n : Nat} {boot : Bool} : SameFields (s.rasterBegin n boot) s Beside := by
  unfold State.rasterBegin
  extract_lets s1
  have h1 : SameFields s1 s Beside := (Beside.of_frame State.dropCounts_frame).trans State.calStart_beside
  clear_value s1
  exact (SameFields.of_regs State.rasterGive_regs.1).trans ((Beside.setF (s := s1) (f := F.CAL_STATUS_REALTIME) (v := 0) beside).trans h1)

/-- The start of the raster leaves the link's STATE and the replay's. -/
theorem State.rasterStart_status {n : Nat} {boot : Bool} :
    (s.rasterStart n boot).getF F.TPL_LINK_STATE = s.getF F.TPL_LINK_STATE ∧
      (s.rasterStart n boot).getF F.AUD_REPLAY_STATUS_STATE = s.getF F.AUD_REPLAY_STATUS_STATE := by
  have hkeep (f : Fld) (hf : ¬ Beside f) (hne : ¬ Among [F.AUD_REPLAY_STATUS_DIVERGED, F.AUD_REPLAY_CNT_MISMATCH] f) :
      (s.rasterStart n boot).getF f = s.getF f :=
    (congrArg (State.getF · f) State.rasterStart_eq).trans ((State.rasterUnits_status f hf hne).trans (State.rasterBegin_beside f hf))
  exact ⟨hkeep _ (fun h => h (by decide)) not_among, hkeep _ (fun h => h (by decide)) not_among⟩

/-! ### The calendar, the clock and the audit's own state -/

/-- Whether a replay runs or waits, its log, and the time of frame 0. -/
def AudSt.held (a : AudSt) : Bool × Bool × List ReplayEnt × Option Nat := (a.replay, a.replayHold, a.replayLog, a.zero)

/-- Recording leaves them. -/
def AudHeld (t s : State) : Prop := AudSt.held t.aud = AudSt.held s.aud

namespace AudHeld

theorem refl (s : State) : AudHeld s s := rfl

theorem trans {u t s : State} (h : AudHeld u t) (h' : AudHeld t s) : AudHeld u s := Eq.trans h h'

theorem ite {c : Prop} [Decidable c] {a b s : State} (ha : AudHeld a s) (hb : AudHeld b s) : AudHeld (if c then a else b) s := by
  split <;> assumption

theorem of_frame {t s : State} {ps : List Part} (h : SameBut t s ps) (hp : .aud ∉ ps := by decide) : AudHeld t s :=
  congrArg AudSt.held (h.keeps .aud hp)

end AudHeld

theorem State.logPut_held {e : LogEnt} : AudHeld (s.logPut e) s := by
  unfold State.logPut
  split <;> rfl

theorem State.recordFrame_held {v : Nat} : AudHeld (s.recordFrame v) s := AudHeld.ite State.logPut_held (AudHeld.refl s)

theorem State.recordingTake_held : AudHeld s.recordingTake s := by
  unfold State.recordingTake
  extract_lets c was _ s0 _ s1
  have h0 : AudHeld s0 s := rfl
  have h1 : AudHeld s1 s := rfl
  clear_value s0 s1
  refine AudHeld.ite (AudHeld.ite ((AudHeld.of_frame State.setF_frame).trans h0) ?_) (AudHeld.ite ?_ h0)
  · exact State.logPut_held.trans ((AudHeld.of_frame State.setFs_frame).trans h1)
  · exact (AudHeld.of_frame State.setF_frame).trans (AudHeld.trans rfl h0)

theorem State.recBegin_held {a b : Bool} : AudHeld (s.recBegin a b) s := rfl

theorem State.beginFrameUnits_held {n : Nat} {a b : Bool} : AudHeld (s.beginFrameUnits n a b) s := by
  unfold State.beginFrameUnits
  refine (AudHeld.of_frame State.lanePhase0_frame).trans (State.recBegin_held.trans ((AudHeld.of_frame State.snapStop_frame).trans ?_))
  refine (AudHeld.of_frame State.snapLine_frame).trans ((AudHeld.of_frame State.laneBoundary_frame).trans ?_)
  exact (AudHeld.of_frame State.gfxBoundary_frame).trans (AudHeld.of_frame State.applyPoint_frame)

theorem State.rasterUnits_held {n : Nat} : AudHeld (s.rasterUnits n) s := by
  unfold State.rasterUnits
  extract_lets s3 s4 s5
  have h3 : AudHeld s3 s := (AudHeld.of_frame State.framesArrive_frame).trans ((AudHeld.of_frame State.planGrabs_frame).trans
    ((AudHeld.of_frame State.weatherBoundary_frame).trans (AudHeld.of_frame State.ctxBoundary_frame)))
  have h4 : AudHeld s4 s3 := (AudHeld.of_frame State.histTake_frame).trans ((AudHeld.of_frame State.drzBoundary_frame).trans
    ((AudHeld.of_frame State.takeTickets_frame).trans (AudHeld.of_frame State.writeFormat_frame)))
  have h5 : AudHeld s5 s4 := (AudHeld.of_frame State.replayFrame_frame).trans (State.recordFrame_held.trans
    (State.recordingTake_held.trans (AudHeld.of_frame State.frostFix_frame)))
  exact State.beginFrameUnits_held.trans (h5.trans (h4.trans h3))

theorem State.rasterUnits_keeps {n : Nat} : Keeps [.cal, .now] (s.rasterUnits n) s := by
  unfold State.rasterUnits
  extract_lets s3 s4 s5
  have h3 : Keeps [.cal, .now] s3 s := ((((Keeps.refl _ s).step State.ctxBoundary_frame).step State.weatherBoundary_frame).step
    State.planGrabs_frame).step State.framesArrive_frame
  have h4 : Keeps [.cal, .now] s4 s3 := ((((Keeps.refl _ s3).step State.writeFormat_frame).step State.takeTickets_frame).step
    State.drzBoundary_frame).step State.histTake_frame
  have h5 : Keeps [.cal, .now] s5 s4 := ((((Keeps.refl _ s4).step State.frostFix_frame).step State.recordingTake_frame).step
    State.recordFrame_frame).step State.replayFrame_frame
  exact (h5.trans (h4.trans h3)).step State.beginFrameUnits_frame

theorem State.rasterBegin_keeps {n : Nat} {boot : Bool} :
    (s.rasterBegin n boot).cal = (s.calStart n).cal ∧ (s.rasterBegin n boot).now = s.now ∧
      AudSt.held (s.rasterBegin n boot).aud =
        (s.aud.replay, s.aud.replayHold, s.aud.replayLog, if boot then some s.now else s.aud.zero) := by
  unfold State.rasterBegin
  extract_lets s1
  have hcal : s1.cal = (s.calStart n).cal := State.dropCounts_frame.keeps .cal (by decide)
  have hnow : s1.now = s.now := State.dropCounts_frame.keeps .now (by decide)
  have haud : s1.aud = s.aud := State.dropCounts_frame.keeps .aud (by decide)
  have hset : SameBut (s1.setF F.CAL_STATUS_REALTIME 0) s1 [.regs] := State.setF_frame
  generalize s1.setF F.CAL_STATUS_REALTIME 0 = u at hset
  clear_value s1
  rw [← hcal, ← hnow, ← haud]
  obtain ⟨-, hc, hn, ha⟩ := State.rasterGive_regs (s := u)
  exact ⟨hc.trans (hset.keeps .cal (by decide)), hn.trans (hset.keeps .now (by decide)), congrArg AudSt.held ha⟩

/-- The calendar stands at line 0 of the frame, and runs. -/
theorem State.rasterStart_cal {n : Nat} {boot : Bool} : (s.rasterStart n boot).cal.running = true ∧
    (s.rasterStart n boot).cal.frame = n ∧ (s.rasterStart n boot).cal.line = 0 := by
  have hcal : (s.rasterStart n boot).cal = (s.calStart n).cal := by
    rw [State.rasterStart_eq]
    exact (State.rasterUnits_keeps.at .cal).trans State.rasterBegin_keeps.1
  rw [hcal]
  exact ⟨rfl, rfl, rfl⟩

theorem State.rasterStart_now {n : Nat} {boot : Bool} : (s.rasterStart n boot).now = s.now := by
  rw [State.rasterStart_eq]
  exact (State.rasterUnits_keeps.at .now).trans State.rasterBegin_keeps.2.1

/-- Frame 0 of a boot begins the audit's time (R450). -/
theorem State.rasterStart_aud {n : Nat} {boot : Bool} : AudSt.held (s.rasterStart n boot).aud =
    (s.aud.replay, s.aud.replayHold, s.aud.replayLog, if boot then some s.now else s.aud.zero) := by
  rw [State.rasterStart_eq]
  exact Eq.trans State.rasterUnits_held State.rasterBegin_keeps.2.2

end

end Sys2Proof.Machine

/-! SUPPORT. Host writes and recorded writes (R14, R451, R455): the clock, the replay's fields and the audit's own state. -/
namespace Sys2Proof.Machine
set_option Elab.async false

/-! ### Where the fields of a register stand (R10) -/

/-- No field of these rows stands in the AUD block. -/
def rowsBeside (rs : List RegRow) : Bool :=
  rs.all fun r => (List.range (r.n + 1)).all fun i => (r.flds i).all fun f => f.key / 0x200000 != 13

/-- The fields of a CORE block stand at and after 0x1000000. -/
theorem rowsCore_above (p : Nat) : ∀ r ∈ rowsCoreA p ++ rowsCoreB p, ∀ i, ∀ f ∈ r.flds i, 0x1000000 ≤ f.addr := by
  simp only [rowsCoreA, rowsCoreB, List.cons_append, List.nil_append, List.forall_mem_cons, List.not_mem_nil, false_imp_iff,
    implies_true, and_true, forall_and]
  and_intros <;> intro i <;> (repeat refine Nat.le_add_right_of_le ?_) <;> decide

section
set_option maxRecDepth 20000

theorem rowsBeside_low : ∀ b ∈ [Blk.dev, .cal, .inp, .cmp, .pnl, .drm, .fab, .tpl, .sec, .pwr, .sns, .frs, .drz],
    rowsBeside (Sys2Proof.blockRows b) = true := by decide

theorem rowsBeside_band : ∀ b < 8, rowsBeside (rowsBand b) = true := by decide

end

theorem RegRow.at?_flds {r : RegRow} {o : Nat} {fs : List Fld} (h : r.at? o = some fs) : ∃ i ≤ r.n, fs = r.flds i := by
  unfold RegRow.at? at h
  split at h
  · contradiction
  · split at h
    · split at h
      · exact ⟨0, Nat.zero_le _, (Option.some.inj h).symm⟩
      · contradiction
    · split at h
      · next hlt => exact ⟨_, hlt.2.le, (Option.some.inj h).symm⟩
      · contradiction

/-- The block of an address outside AUD is one of the low ones, a band's or a core's. -/
theorem blockOf_beside {a o : Nat} {b : Blk} (h : blockOf a = some (b, o)) (ha : inAud a = false) :
    b ∈ [Blk.dev, .cal, .inp, .cmp, .pnl, .drm, .fab, .tpl, .sec, .pwr, .sns, .frs, .drz] ∨ (∃ k < 8, b = .band k) ∨ ∃ p, b = .core p := by
  have hne : a / 0x10000 ≠ 13 := by simpa only [inAud, beq_eq_false_iff_ne] using ha
  unfold blockOf at h
  dsimp only at h
  split at h
  case h_14 heq => exact absurd heq hne
  case h_15 =>
    split at h
    · next hk => exact .inr (.inl ⟨_, by omega, (Prod.mk.inj (Option.some.inj h)).1.symm⟩)
    · split at h
      · exact .inr (.inr ⟨_, (Prod.mk.inj (Option.some.inj h)).1.symm⟩)
      · contradiction
  all_goals
    rw [← (Prod.mk.inj (Option.some.inj h)).1]
    exact .inl (by decide)

/-- A register outside the AUD block has no field in it. -/
theorem regAt_beside {a : Nat} {fs : List Fld} (h : regAt a = some fs) (ha : inAud a = false) : ∀ f ∈ fs, f.key / 0x200000 ≠ 13 := by
  unfold regAt at h
  split at h
  · contradiction
  · next b o hb =>
    obtain ⟨r, hr, hat⟩ := List.exists_of_findSome?_eq_some h
    obtain ⟨i, hi, rfl⟩ := RegRow.at?_flds hat
    intro f hf
    have hlow (hall : rowsBeside (Sys2Proof.blockRows b) = true) : f.key / 0x200000 ≠ 13 := by
      have hrow := List.all_eq_true.1 hall r hr
      have hcell := List.all_eq_true.1 hrow i (List.mem_range.2 (Nat.lt_succ_of_le hi))
      simpa only [bne_iff_ne] using List.all_eq_true.1 hcell f hf
    rcases blockOf_beside hb ha with hin | ⟨k, hk, rfl⟩ | ⟨p, rfl⟩
    · exact hlow (rowsBeside_low b hin)
    · exact hlow (rowsBeside_band k hk)
    · have habove := rowsCore_above p r hr i f hf
      simp only [Fld.key]
      omega

section
variable {s : State} {a v : Nat}

/-! ### The replay's own fields (R455, R456) -/

/-- A register write outside the AUD block leaves them. -/
theorem State.regWrite_replay {f : Fld} (ha : inAud a = false) (hf : ¬ Beside f) (hblock : f.key / 0x200000 = 13) :
    (s.regWrite a v).2.getF f = s.getF f := by
  suffices h : SameFields (s.regWrite a v).2 s (fun g => g.key ≠ f.key) from h f fun e => e rfl
  have hP (g : Fld) (hg : Beside g) : g.key ≠ f.key := fun e => hf (hg.of_key e.symm)
  unfold State.regWrite
  split
  · exact (Beside.incF beside).mono hP
  · split
    · next blk o fs w hb hreg hw =>
      split
      · exact (Beside.incF beside).mono hP
      · split
        · exact SameFields.refl _ _
        · refine State.writeEffect_beside hP ((State.writeFields_fields s v fs).mono fun g hg e => ?_)
          obtain ⟨x, hx, hk⟩ := List.mem_map.1 hg
          exact regAt_beside hreg ha x hx (by rw [hk, e, hblock])
    · exact SameFields.refl _ _

theorem State.hostMemWrite_replay {bs : List Byte} : SameFields (s.hostMemWrite a bs).2 s Beside := by
  unfold State.hostMemWrite
  extract_lets o
  split
  · exact SameFields.refl _ _
  · split
    · exact Beside.incF beside
    · exact Beside.of_frame State.writeMem_frame

theorem State.pageWrite_replay {bs : List Byte} : SameFields (s.pageWrite a bs).2 s Beside := by
  unfold State.pageWrite
  split
  · exact SameFields.refl _ _
  · split
    · exact Beside.incF beside
    · exact Beside.of_frame State.writeMem_frame

theorem State.recordWrite_fields {b : State} {op : Nat} {d : List Byte} (P : Fld → Prop) : SameFields (State.recordWrite b a op d s) s P :=
  SameFields.of_regs ((State.recordWrite_kept b s a op d).keeps .regs (by decide))

/-- Nor does the entry of the audit log for a write. -/
theorem State.loggedMem_replay {op : Nat} {bs : List Byte} : SameFields (s.loggedMem op a bs).2 s Beside := by
  unfold State.loggedMem
  extract_lets r
  have hr : SameFields r.2 s Beside := by
    by_cases h : op = 2
    · rw [show r = s.hostMemWrite a bs from if_pos h]
      exact State.hostMemWrite_replay
    · rw [show r = s.pageWrite a bs from if_neg h]
      exact State.pageWrite_replay
  exact SameFields.ite hr ((State.recordWrite_fields _).trans hr)

theorem State.loggedWrite_replay {f : Fld} (ha : inAud a = false) (hf : ¬ Beside f) (hblock : f.key / 0x200000 = 13) :
    (s.loggedWrite a v).2.getF f = s.getF f :=
  (SameFields.of_regs (ok := fun _ => False) ((State.loggedWrite_kept s a v).keeps .regs (by decide)) f id).trans
    (State.regWrite_replay ha hf hblock)

/-- A recorded write outside the AUD block leaves the replay's fields. -/
theorem State.replayWrite_replay {e : ReplayEnt} {f : Fld} (ha : inAud (leAt e.payload 0 5) = false) (hf : ¬ Beside f)
    (hblock : f.key / 0x200000 = 13) : (s.replayWrite e).getF f = s.getF f := by
  unfold State.replayWrite State.applyWrite
  split
  · exact State.loggedWrite_replay ha hf hblock
  · exact State.loggedMem_replay f hf

/-! ### The clock: a write of RETRY takes effect in the cycle after it (R250), any other at once -/

theorem State.hostRetry_now {g : EngId} : (s.hostRetry g).now = s.now ∨ (s.hostRetry g).now = s.now + 1 := by
  unfold State.hostRetry
  split
  · refine .inr (Eq.trans (State.retryOnce_frame.keeps .now (by decide)) ?_)
    exact Eq.trans (State.onEng_frame.keeps .now (by decide)) (State.advance_now s 1)
  · exact .inl rfl

/-- `t` stands at the cycle of `s` or at the next one. -/
def InNext (t s : State) : Prop := t.now = s.now ∨ t.now = s.now + 1

theorem InNext.step {t u s : State} {ps : List Part} (hu : InNext u s) (h : SameBut t u ps) (hp : .now ∉ ps := by decide) :
    InNext t s := by
  rw [InNext, show t.now = u.now from h.keeps .now hp]
  exact hu

theorem InNext.ite {c : Prop} [Decidable c] {a b s : State} (ha : InNext a s) (hb : InNext b s) : InNext (if c then a else b) s := by
  split <;> assumption

theorem State.writeEffect_next {u : State} {blk : Blk} {o : Nat} (hu : SameBut u s [.regs]) : InNext (State.writeEffect s u blk o v) s := by
  have h : InNext u s := .inl (hu.keeps .now (by decide))
  have hs : InNext s s := .inl rfl
  have heng (g : EngId) : InNext (let s1 := if bit v 0 then u.hostRetry g else u; if bit v 1 then s1.hostAbort g else s1) s := by
    have h1 : InNext (if bit v 0 then u.hostRetry g else u) s :=
      InNext.ite (by rw [InNext, ← show u.now = s.now from hu.keeps .now (by decide)]; exact State.hostRetry_now) h
    exact InNext.ite (h1.step State.hostAbort_frame) h1
  unfold State.writeEffect
  extract_lets up
  split
  · exact InNext.ite (h.step State.hpdPulse_frame) h
  · exact InNext.ite (h.step State.modeCheck_frame) h
  · have h1 : InNext (if bit v 0 then s.enSet else s.enClear) s := InNext.ite (hs.step State.enSet_frame) (hs.step State.enClear_frame)
    exact InNext.ite (InNext.ite (h1.step State.retrain_frame) h1) h
  · have h1 : InNext (if bit v 1 then u.snapCancel else u) s := InNext.ite (h.step State.snapCancel_frame) h
    exact InNext.ite (InNext.ite (h1.step State.snapArm_frame) h1) h
  · exact InNext.ite (h.step State.restoreAsk_frame) h
  · exact InNext.ite (h.step State.drzReset_frame) h
  · refine InNext.ite (h.step State.histClear_frame) ?_
    split
    · exact heng _
    · exact h
  · split
    · exact heng _
    · exact h
  · exact h

theorem State.regWrite_next : InNext (s.regWrite a v).2 s := by
  have hs : InNext s s := .inl rfl
  unfold State.regWrite
  split
  · exact hs.step State.incF_frame
  · split
    · split
      · exact hs.step State.incF_frame
      · split
        · exact hs
        · exact State.writeEffect_next (State.writeFields_frame _ _ _)
    · exact hs

theorem State.replayWrite_next {e : ReplayEnt} : InNext (s.replayWrite e) s := by
  unfold State.replayWrite State.applyWrite
  split
  · exact State.regWrite_next.step (State.loggedWrite_kept _ _ _)
  · exact InNext.step (.inl rfl) State.loggedMem_frame

/-! ### The audit's own state -/

theorem State.recordWrite_held {b : State} {op : Nat} {d : List Byte} : AudHeld (State.recordWrite b a op d s) s :=
  AudHeld.ite State.logPut_held (AudHeld.refl s)

theorem State.loggedWrite_held : AudHeld (s.loggedWrite a v).2 s := by
  unfold State.loggedWrite
  extract_lets r
  have hr : AudHeld r.2 s := AudHeld.of_frame State.regWrite_frame
  exact AudHeld.ite hr (State.recordWrite_held.trans hr)

theorem State.loggedMem_held {op : Nat} {bs : List Byte} : AudHeld (s.loggedMem op a bs).2 s := by
  unfold State.loggedMem
  extract_lets r
  have hr : AudHeld r.2 s := by
    by_cases h : op = 2
    · rw [show r = s.hostMemWrite a bs from if_pos h]
      exact AudHeld.of_frame State.hostMemWrite_frame
    · rw [show r = s.pageWrite a bs from if_neg h]
      exact AudHeld.of_frame State.pageWrite_frame
  exact AudHeld.ite hr (State.recordWrite_held.trans hr)

theorem State.replayWrite_held {e : ReplayEnt} : AudHeld (s.replayWrite e) s := by
  unfold State.replayWrite State.applyWrite
  split
  · exact State.loggedWrite_held
  · exact State.loggedMem_held

theorem State.replayWrites_held {es : List ReplayEnt} : AudHeld (es.foldl State.replayWrite s) s := by
  induction es generalizing s with
  | nil => exact AudHeld.refl s
  | cons e es ih => exact ih.trans State.replayWrite_held

end

end Sys2Proof.Machine

/-! O41, O60. Replay (R454 to R457), and commands that complete with their own effect. -/
namespace Sys2Proof.Machine
set_option Elab.async false

section
variable {s : State}

/-! ### GO (R455) -/

/-- A response to a STATUS that waited writes the counters of responses. -/
theorem State.boundaryStatus_fields {u : State} : SameFields (State.boundaryStatus u s) s (Among replyCounts) := by
  unfold State.boundaryStatus
  split
  · split
    · exact SameFields.refl _ _
    · exact State.finish_fields.trans (SameFields.of_regs (State.noteStat_frame.keeps .regs (by decide)))
  · exact SameFields.refl _ _

def replayCtrl : List Fld := [F.AUD_REPLAY_CTRL_ARM, F.AUD_REPLAY_CTRL_GO, F.AUD_REPLAY_CTRL_REPLAY_LINES]

/-- A write of GO while a replay is armed is its GO, on the state with the register's fields written. -/
theorem State.hostWrite_go (hhold : s.aud.replayHold = true) : ∃ x : State, SameBut x s [.regs] ∧
    SameFields x s (Among replayCtrl) ∧ (s.hostWrite 0xD0040 (s.word 0xD0040 ||| 2)).2 = x.replayGo := by
  generalize hv : s.word 0xD0040 ||| 2 = v
  have hbit : bit v 1 = true := by
    have h : v.testBit 1 = true := by rw [← hv, Nat.testBit_or]; simp [Nat.testBit]
    simpa [bit, Nat.testBit, Nat.shiftRight_eq_div_pow, Nat.and_comm, Nat.one_and_eq_mod_two] using h
  have hb : blockOf 0xD0040 = some (.aud, 0x40) := rfl
  have hreg : regAt 0xD0040 = some replayCtrl := rfl
  obtain ⟨w, hw⟩ := State.wordAt_isSome (s := s) hb hreg nofun
  have hwr : s.regWrite 0xD0040 v = (0, replayCtrl.foldl (State.writeField v) s) :=
    State.regWrite_taken (by decide) hb hreg hw ⟨F.AUD_REPLAY_CTRL_GO, by decide, rfl⟩ rfl
  have hlog : s.loggedWrite 0xD0040 v = (0, replayCtrl.foldl (State.writeField v) s) := by
    unfold State.loggedWrite
    rw [hwr]
    dsimp only
    rw [if_pos (Or.inr (by decide))]
  refine ⟨_, State.writeFields_frame s v replayCtrl, State.writeFields_fields s v replayCtrl, ?_⟩
  unfold State.hostWrite
  rw [if_neg fun h => absurd h.2.2 (by decide), hlog]
  exact if_pos ⟨rfl, rfl, hbit, hhold⟩

/-- What a replay is judged by: the log in DRAM, where the registers locate it, and the device's image. -/
theorem State.replayEntries_of_fields {t : State} {fs : List Fld} (hf : SameFields t s (Among fs)) (hd : t.dram = s.dram)
    (hfs : ∀ f ∈ [F.AUD_REPLAY_BASE_LO_BASE_LO, F.AUD_REPLAY_BASE_HI_BASE_HI, F.AUD_REPLAY_SIZE_SIZE], f.key ∉ fs.map Fld.key) :
    t.replayEntries = s.replayEntries := by
  unfold State.replayEntries
  rw [hd, hf _ (hfs _ (by decide)), hf _ (hfs _ (by decide)), hf _ (hfs _ (by decide))]

theorem State.imageDigest_of_fields {t : State} {fs : List Fld} (hf : SameFields t s (Among fs)) (hfs : ∀ f ∈ fs, 0x1000 ≤ f.addr) :
    t.imageDigest = s.imageDigest := by
  unfold State.imageDigest
  rw [List.flatMap_def, List.flatMap_def, List.map_congr_left]
  intro k hk
  have hlt := List.mem_range.1 hk
  rw [hf (F.DEV_IMAGE_DIGEST k)]
  intro hmem
  obtain ⟨g, hg, hkey⟩ := List.mem_map.1 hmem
  have hlow := hfs g hg
  simp only [Fld.key, F.DEV_IMAGE_DIGEST] at hkey
  omega

theorem State.replayBad_of_digest {t : State} {es : List ReplayEnt} (h : t.imageDigest = s.imageDigest) :
    t.replayBad es = s.replayBad es := by
  unfold State.replayBad
  rw [h]

/-- An armed replay no longer holds frame 0. -/
def State.replayReleased (s : State) : State := { s with aud := { s.aud with replayHold := false } }

/-- A recorded write with negative TIME. -/
def earlyWrite (e : ReplayEnt) : Bool := e.type == 4 && decide (e.time < 0)

/-- The writes with negative TIME are applied (R455). -/
def State.replayPrepared (s : State) : State :=
  ((s.replayEntries.filter earlyWrite).foldl State.replayWrite s.replayReleased).setF F.AUD_REPLAY_STATUS_STATE 2

/-- The replay's start, with the log read. -/
def State.replayTaken (s : State) (log : List ReplayEnt) (last : Int) : State :=
  { s with aud := { s.aud with replay := true, replayLog := log, replayEnd := last } }

theorem State.replayGo_eq : s.replayGo =
    if s.replayBad s.replayEntries then ((s.replayReleased.setF F.AUD_REPLAY_STATUS_STATE 4).rasterStart 0 true).modeCheck
    else (s.replayPrepared.replayTaken (s.replayEntries.filter fun e => !earlyWrite e && e.type != 0 && e.type != 7)
      ((s.replayEntries.getLast?.map (·.time)).getD 0)).rasterStart 0 true := rfl

theorem State.replayTaken_kept {log : List ReplayEnt} {last : Int} : SameBut (s.replayTaken log last) s [.aud] :=
  State.setAud_frame

theorem State.replayTaken_aud (s : State) (log : List ReplayEnt) (last : Int) :
    (s.replayTaken log last).aud.replay = true ∧ (s.replayTaken log last).aud.replayHold = s.aud.replayHold := ⟨rfl, rfl⟩

theorem AudSt.held_iff {a : AudSt} {r h : Bool} {l : List ReplayEnt} {z : Option Nat} :
    AudSt.held a = (r, h, l, z) ↔ a.replay = r ∧ a.replayHold = h ∧ a.replayLog = l ∧ a.zero = z := by
  simp only [AudSt.held, Prod.mk.injEq]

/-- A refused log: STATE 4, and frame 0 starts live. -/
theorem State.replayGo_bad (h : s.replayBad s.replayEntries = true) : s.replayGo.getF F.AUD_REPLAY_STATUS_STATE = 4 ∧
    AudSt.held s.replayGo.aud = (s.aud.replay, false, s.aud.replayLog, some s.now) ∧
    s.replayGo.cal.running = true ∧ s.replayGo.cal.frame = 0 ∧ s.replayGo.cal.line = 0 := by
  rw [State.replayGo_eq, if_pos h]
  have hset : SameBut (s.replayReleased.setF F.AUD_REPLAY_STATUS_STATE 4) s.replayReleased [.regs] := State.setF_frame
  have hst : (s.replayReleased.setF F.AUD_REPLAY_STATUS_STATE 4).getF F.AUD_REPLAY_STATUS_STATE = 4 := State.getF_setF_self _ _ _
  have haud : s.replayReleased.aud = { s.aud with replayHold := false } := rfl
  have hnow : s.replayReleased.now = s.now := rfl
  generalize s.replayReleased = s0 at hset hst haud hnow ⊢
  generalize s0.setF F.AUD_REPLAY_STATUS_STATE 4 = s1 at hset hst
  have hcheck : SameBut (s1.rasterStart 0 true).modeCheck (s1.rasterStart 0 true) [.regs, .change] := State.modeCheck_frame
  refine ⟨?_, ?_, ?_⟩
  · exact (State.modeCheck_fields _ _ not_among).trans (State.rasterStart_status.2.trans hst)
  · rw [hcheck.keeps .aud (by decide), State.rasterStart_aud, hset.keeps .aud (by decide), hset.keeps .now (by decide), haud, hnow]
    rfl
  · rw [hcheck.keeps .cal (by decide)]
    exact State.rasterStart_cal

/-- A log that is taken: STATE 2, and frame 0 starts in the replay. -/
theorem State.replayGo_good (h : s.replayBad s.replayEntries = false) : s.replayGo.getF F.AUD_REPLAY_STATUS_STATE = 2 ∧
    s.replayGo.aud.replay = true ∧ s.replayGo.aud.replayHold = false ∧
    s.replayGo.cal.running = true ∧ s.replayGo.cal.frame = 0 ∧ s.replayGo.cal.line = 0 := by
  rw [State.replayGo_eq, if_neg (by rw [h]; exact Bool.false_ne_true)]
  have hst : s.replayPrepared.getF F.AUD_REPLAY_STATUS_STATE = 2 := State.getF_setF_self _ _ _
  have hheld : AudHeld s.replayPrepared s.replayReleased := (AudHeld.of_frame State.setF_frame).trans State.replayWrites_held
  have hhold : s.replayPrepared.aud.replayHold = false := (AudSt.held_iff.1 hheld).2.1
  generalize s.replayPrepared = x at hst hhold ⊢
  generalize (s.replayEntries.filter fun e => !earlyWrite e && e.type != 0 && e.type != 7) = log
  generalize (s.replayEntries.getLast?.map (·.time)).getD 0 = last
  obtain ⟨htrue, hsame⟩ := x.replayTaken_aud log last
  obtain ⟨hrep, hno, -, -⟩ := AudSt.held_iff.1 (State.rasterStart_aud (s := x.replayTaken log last) (n := 0) (boot := true))
  refine ⟨State.rasterStart_status.2.trans ?_, hrep.trans htrue, hno.trans (hsame.trans hhold), State.rasterStart_cal⟩
  exact (SameFields.of_regs (ok := fun _ => False) (State.replayTaken_kept.keeps .regs (by decide)) _ id).trans hst

/-- The command GO acts as the GO of a state with the same log, image, audit and clock. -/
theorem State.replayGo_command (hhold : s.aud.replayHold = true) {t : State}
    (ht : t = State.boundaryStatus s (s.hostWrite 0xD0040 (s.word 0xD0040 ||| 2)).2) : ∃ x : State,
    x.replayBad x.replayEntries = s.replayBad s.replayEntries ∧ x.aud = s.aud ∧ x.now = s.now ∧ x.cal = s.cal ∧
      t.getF F.AUD_REPLAY_STATUS_STATE = x.replayGo.getF F.AUD_REPLAY_STATUS_STATE ∧ t.aud = x.replayGo.aud ∧ t.cal = x.replayGo.cal := by
  obtain ⟨x, hx, hf, hgo⟩ := State.hostWrite_go hhold
  rw [hgo] at ht
  subst ht
  have hent : x.replayEntries = s.replayEntries := State.replayEntries_of_fields hf (hx.keeps .dram (by decide)) (by decide)
  have hbad : x.replayBad s.replayEntries = s.replayBad s.replayEntries :=
    State.replayBad_of_digest (State.imageDigest_of_fields hf (by decide))
  have hst : SameBut (State.boundaryStatus s x.replayGo) x.replayGo [.regs, .tpl] := State.boundaryStatus_frame
  exact ⟨x, by rw [hent, hbad], hx.keeps .aud (by decide), hx.keeps .now (by decide), hx.keeps .cal (by decide),
    State.boundaryStatus_fields _ not_among, hst.keeps .aud (by decide), hst.keeps .cal (by decide)⟩

/-! ### The next recorded write (R455, R456) -/

/-- The replay's log without an entry. -/
def State.replayNext (s : State) (e : ReplayEnt) : State := { s with aud := { s.aud with replayLog := s.aud.replayLog.erase e } }

theorem State.replayNext_kept (e : ReplayEnt) : SameBut (s.replayNext e) s [.aud] := State.setAud_frame

theorem State.replayApply_eq {e : ReplayEnt} (hr : s.aud.replay = true) (he : (s.aud.replayLog.find? fun e => e.type == 4) = some e) :
    s.replayApply = State.replayWrite ((if s.replayCycle e.time < s.now then (s.incF F.AUD_REPLAY_CNT_LATE 1).diverge
      else s.waitUntil (s.replayCycle e.time)).replayNext e) e := by
  unfold State.replayApply
  rw [hr, he]
  rfl

/-- The state in which the next recorded write is applied: its cycle, log and counts. -/
theorem State.replayApply_from {e : ReplayEnt} (hr : s.aud.replay = true)
    (he : (s.aud.replayLog.find? fun e => e.type == 4) = some e) : ∃ y : State, s.replayApply = y.replayWrite e ∧
      y.now = max s.now (s.replayCycle e.time) ∧ y.aud.replayLog = s.aud.replayLog.erase e ∧
      (s.replayCycle e.time < s.now → y.getF F.AUD_REPLAY_STATUS_DIVERGED = 1 ∧
        y.getF F.AUD_REPLAY_CNT_LATE = satAdd F.AUD_REPLAY_CNT_LATE.w (s.getF F.AUD_REPLAY_CNT_LATE) 1) ∧
      (s.now ≤ s.replayCycle e.time → y.getF F.AUD_REPLAY_CNT_LATE = s.getF F.AUD_REPLAY_CNT_LATE) := by
  refine ⟨_, State.replayApply_eq hr he, ?_⟩
  have hnext (x : State) (haud : x.aud = s.aud) : (x.replayNext e).aud.replayLog = s.aud.replayLog.erase e := by
    rw [← haud]
    rfl
  split
  · next hlate =>
    have hk : SameBut (s.incF F.AUD_REPLAY_CNT_LATE 1).diverge s [.regs] :=
      SameBut.call State.diverge_frame (by decide) State.incF_frame
    have hdiv : (s.incF F.AUD_REPLAY_CNT_LATE 1).diverge.getF F.AUD_REPLAY_STATUS_DIVERGED = 1 := State.getF_setF_self _ _ _
    have hcnt : (s.incF F.AUD_REPLAY_CNT_LATE 1).diverge.getF F.AUD_REPLAY_CNT_LATE =
        satAdd F.AUD_REPLAY_CNT_LATE.w (s.getF F.AUD_REPLAY_CNT_LATE) 1 :=
      (State.getF_setF_ne _ _ (by decide)).trans (State.getF_incF_self _ _ _)
    generalize (s.incF F.AUD_REPLAY_CNT_LATE 1).diverge = x at hk hdiv hcnt
    have hnow : (x.replayNext e).now = s.now := ((x.replayNext_kept e).keeps .now (by decide)).trans (hk.keeps .now (by decide))
    have hregs : SameFields (x.replayNext e) x (fun _ => False) := SameFields.of_regs ((x.replayNext_kept e).keeps .regs (by decide))
    exact ⟨hnow.trans (by omega), hnext x (hk.keeps .aud (by decide)), fun _ => ⟨(hregs _ id).trans hdiv, (hregs _ id).trans hcnt⟩,
      fun h => absurd hlate (by omega)⟩
  · next hlate =>
    have hk : SameBut (s.waitUntil (s.replayCycle e.time)) s [.now, .cal, .regs, .cores, .bands] := State.waitUntil_frame
    have hmax := s.waitUntil_now (s.replayCycle e.time)
    have hcnt := s.getF_waitUntil (s.replayCycle e.time) (f := F.AUD_REPLAY_CNT_LATE) (by decide)
    generalize s.waitUntil (s.replayCycle e.time) = x at hk hmax hcnt
    have hnow : (x.replayNext e).now = x.now := (x.replayNext_kept e).keeps .now (by decide)
    have hregs : SameFields (x.replayNext e) x (fun _ => False) := SameFields.of_regs ((x.replayNext_kept e).keeps .regs (by decide))
    exact ⟨hnow.trans hmax, hnext x (hk.keeps .aud (by decide)), fun h => absurd h hlate, fun _ => (hregs _ id).trans hcnt⟩

/-! ### The replay's end (R457) -/

theorem State.replayFinish_from (hr : s.aud.replay = true) (hnone : (s.aud.replayLog.any fun e => e.type == 4) = false) :
    s.replayFinish.now = max s.now (s.replayCycle s.aud.replayEnd) ∧ s.replayFinish.getF F.AUD_REPLAY_STATUS_STATE = 3 ∧
      s.replayFinish.aud = { s.aud with replay := false, replayLog := [] } := by
  unfold State.replayFinish
  rw [if_neg (by simp [hr, hnone])]
  extract_lets s1
  have haud : s1.aud = s.aud := State.waitUntil_frame.keeps .aud (by decide)
  have hnow : s1.now = max s.now (s.replayCycle s.aud.replayEnd) := s.waitUntil_now _
  clear_value s1
  exact ⟨hnow, State.getF_setF_self _ _ _, congrArg (fun a : AudSt => { a with replay := false, replayLog := [] }) haud⟩

end

end Sys2Proof.Machine

namespace Sys2Proof
set_option Elab.async false
open Sys2Proof.Machine

/-- Settles O41: GO on the state with its own register written; the next recorded write from the state in its cycle; the log's end. -/
theorem replaysRunTheirLog : Obligations.ReplaysRunTheirLog := by
  unfold Obligations.ReplaysRunTheirLog
  refine ⟨fun s hhold hbad => ?_, fun s hhold hbad => ?_, fun s e hr he => ?_, fun s u e hr he hle hu => ?_, fun s hr hnone => ?_⟩
  · refine Completes.of_op (t := State.boundaryStatus s (s.hostWrite 0xD0040 (s.word 0xD0040 ||| 2)).2) rfl fun w => ?_
    obtain ⟨x, hxbad, haud, hnow, -, hst, htaud, htcal⟩ := State.replayGo_command hhold rfl
    obtain ⟨h4, hheld, hrun⟩ := State.replayGo_bad (hxbad.trans hbad)
    obtain ⟨hrep, hno, -, hzero⟩ := AudSt.held_iff.1 hheld
    rw [← htaud] at hrep hno hzero
    rw [← htcal] at hrun
    exact ⟨hst.trans h4, hrep.trans (congrArg AudSt.replay haud), hno, hrun.1, hrun.2.1, hrun.2.2, hzero.trans (congrArg some hnow)⟩
  · refine Completes.of_op (t := State.boundaryStatus s (s.hostWrite 0xD0040 (s.word 0xD0040 ||| 2)).2) rfl fun w => ?_
    obtain ⟨x, hxbad, -, -, -, hst, htaud, htcal⟩ := State.replayGo_command hhold rfl
    obtain ⟨h2, hrep, hno, hrun⟩ := State.replayGo_good (hxbad.trans hbad)
    rw [← htaud] at hrep hno
    rw [← htcal] at hrun
    exact ⟨hst.trans h2, hrep, hno, hrun⟩
  · refine Completes.of_op (t := s.replayApply) rfl fun w => ?_
    obtain ⟨y, hy, hnow, hlog, hlate, hcnt⟩ := State.replayApply_from hr he
    rw [hy]
    have hnext : InNext (y.replayWrite e) y := State.replayWrite_next
    have hkept (ha : inAud (leAt e.payload 0 5) = false) (f : Fld) (hf : f.key ∈ linkReplay.map Fld.key) (h13 : f.key / 0x200000 = 13) :
        (y.replayWrite e).getF f = y.getF f := State.replayWrite_replay ha (fun h => h hf) h13
    obtain ⟨-, -, hlog', -⟩ := AudSt.held_iff.1 (State.replayWrite_held (s := y) (e := e))
    refine ⟨?_, ?_, hlog'.trans hlog, fun h ha => ?_, fun h ha => ?_⟩
    · rw [← hnow]
      exact hnext.elim (fun h => h.ge) fun h => (Nat.le_succ _).trans h.ge
    · rw [← hnow]
      exact hnext.elim (fun h => h.le.trans (Nat.le_succ _)) fun h => h.le
    · exact ⟨(hkept ha _ (by decide) rfl).trans (hlate h).1, (hkept ha _ (by decide) rfl).trans (hlate h).2⟩
    · exact (hkept ha _ (by decide) rfl).trans (hcnt h)
  · refine Completes.of_op (t := s.replayApply) rfl fun w => ?_
    have heq : s.replayApply = State.replayWrite (u.replayNext e) e := by
      rw [State.replayApply_eq hr he, if_neg (by omega), ← hu]
    have hself : SameBut { s.replayApply with pending := s.pending, stat := w } s.replayApply [] :=
      SameBut.ended_self (State.replayApply_frame.keeps .pending (by decide)) [] w
    rw [heq] at hself ⊢
    exact hself
  · refine Completes.of_op (t := s.replayFinish) rfl fun w => ?_
    obtain ⟨hnow, hst, haud⟩ := State.replayFinish_from hr hnone
    exact ⟨hnow, hst, haud, SameBut.ended (State.replayFinish_frame.mono (by decide)) w⟩

end Sys2Proof

/-! O60. Commands that complete with their own effect under conditions on the state alone. -/
namespace Sys2Proof
set_option Elab.async false
open Sys2Proof.Machine

/-- Settles O60: each command's operation under the clause's conditions, as the lemmas on host writes, replay and challenges give it. -/
theorem writesClearsReplaysAndTimersComplete : Obligations.WritesClearsReplaysAndTimersComplete := by
  unfold Obligations.WritesClearsReplaysAndTimersComplete
  refine ⟨fun s u a v blk o w fs hr ha hb hreg hword hw hd hu => ?_, fun s p u hp hu hr hidden hown hen hsnap hne => ?_, fun s hhold => ?_,
    fun s e hr he => ?_, fun s hr hnone => ?_, fun s r rest au h hlen hopen => ?_, fun s c hc => ?_, fun s e he => ?_⟩
  · refine Completes.of_op (t := (s.hostWrite a.toNat v.toNat).2) rfl fun w => ?_
    have hkept := State.hostWrite_taken (v := v.toNat) hr ha hb hreg hword hw hd
    rw [← hu] at hkept
    have hself : SameBut { (s.hostWrite a.toNat v.toNat).2 with pending := s.pending, stat := w } (s.hostWrite a.toNat v.toNat).2 [] :=
      SameBut.ended_self (State.hostWrite_frame.keeps .pending (by decide)) [] w
    exact ⟨(hself.mono (by simp)).trans (hkept.mono (by simp)), SameFields.of_regs (hkept.keeps .regs (by decide))⟩
  · refine Completes.of_act (t := (s.hostWrite (histCfgAddr p u) (s.word (histCfgAddr p u) + 4)).2) rfl
      (by simp [Instr.wf, hp, hu]) fun w => ?_
    obtain ⟨x, hx, hkept⟩ := State.histWrite_clears (isCore_lt hp) hu hr hidden hown hen hsnap
    have hnow := histWrite_now hx hkept
    have hbins (k : Nat) (hk : k < 64) := histWrite_bins (p := p) (u := u) hx hkept (fun h => absurd h hne) hk
    simp only [if_neg hne] at hbins
    exact ⟨hnow, hbins⟩
  · refine Completes.of_op (t := State.boundaryStatus s (s.hostWrite 0xD0040 (s.word 0xD0040 ||| 2)).2) rfl fun w => ?_
    obtain ⟨x, hxbad, -, -, -, hst, htaud, htcal⟩ := State.replayGo_command hhold rfl
    cases hbad : s.replayBad s.replayEntries
    · obtain ⟨h2, -, hno, hrun⟩ := State.replayGo_good (hxbad.trans hbad)
      rw [← htaud] at hno
      rw [← htcal] at hrun
      exact ⟨hno, hrun.1, hrun.2.1, hrun.2.2, hst.trans h2⟩
    · obtain ⟨h4, hheld, hrun⟩ := State.replayGo_bad (hxbad.trans hbad)
      have hno := (AudSt.held_iff.1 hheld).2.1
      rw [← htaud] at hno
      rw [← htcal] at hrun
      exact ⟨hno, hrun.1, hrun.2.1, hrun.2.2, hst.trans h4⟩
  · refine Completes.of_op (t := s.replayApply) rfl fun w => ?_
    obtain ⟨y, hy, hnow, hlog, -⟩ := State.replayApply_from hr he
    have hlog' := (AudSt.held_iff.1 (State.replayWrite_held (s := y) (e := e))).2.2.1
    rw [hy]
    refine ⟨?_, hlog'.trans hlog⟩
    rw [← hnow]
    exact State.replayWrite_next.elim (fun h => h.ge) fun h => (Nat.le_succ _).trans h.ge
  · refine Completes.of_op (t := s.replayFinish) rfl fun w => ?_
    obtain ⟨hnow, hst, haud⟩ := State.replayFinish_from hr hnone
    exact ⟨hnow, congrArg AudSt.replay haud, hst⟩
  · refine Completes.of_op (t := s.tplChallenge) rfl fun w => ?_
    obtain ⟨c, x, -, hexp, -, htpl, hone, -, hrun⟩ := State.tplChallenge_of_served h hlen hopen
    have hheld := x.finish_held r au 0 (c.nonce ++ ecBytes (ecPublic c.eph) ++ s.serial)
    rw [hrun]
    exact ⟨(State.finish_fields _ not_among).trans hone, c, (congrArg Prod.fst hheld).trans (congrArg TplSt.chal htpl), hexp⟩
  · refine Completes.of_op (t := s.chalExpiry) rfl fun w => ?_
    obtain ⟨hnow, htpl, hfld⟩ := State.chalExpiry_ends hc
    exact ⟨hnow, congrArg TplSt.chal htpl, hfld⟩
  · refine Completes.of_op (t := s.lockoutEnd) rfl fun w => ?_
    obtain ⟨hnow, htpl, hfld⟩ := State.lockoutEnd_ends he
    exact ⟨hnow, congrArg TplSt.lockEnd htpl, hfld⟩

end Sys2Proof

/-! O43. READ_REG and WRITE_REG (R467, R468): what reads and writes of registers leave of the link, and the clock. -/
namespace Sys2Proof.Machine
set_option Elab.async false

/-! ### STATE of TPL_LINK is read-only (R460) -/

/-- Of these rows no writable field stands at the place of STATE of TPL_LINK. -/
def rowsLink (rs : List RegRow) : Bool :=
  rs.all fun r => (List.range (r.n + 1)).all fun i => (r.flds i).all fun f => f.key != F.TPL_LINK_STATE.key || f.acc == .ro

section
set_option maxRecDepth 20000

theorem rowsLink_low : ∀ b ∈ [Blk.dev, .cal, .inp, .cmp, .pnl, .drm, .fab, .tpl, .sec, .pwr, .sns, .frs, .drz, .aud],
    rowsLink (Sys2Proof.blockRows b) = true := by decide

theorem rowsLink_band : ∀ b < 8, rowsLink (rowsBand b) = true := by decide

end

/-- The block of an address is one of the low ones, a band's or a core's. -/
theorem blockOf_cases {a o : Nat} {b : Blk} (h : blockOf a = some (b, o)) :
    b ∈ [Blk.dev, .cal, .inp, .cmp, .pnl, .drm, .fab, .tpl, .sec, .pwr, .sns, .frs, .drz, .aud] ∨ (∃ k < 8, b = .band k) ∨
      ∃ p, b = .core p := by
  cases haud : inAud a with
  | false =>
    rcases blockOf_beside h haud with hin | hband | hcore
    · exact .inl (List.mem_of_mem_dropLast (l := [Blk.dev, .cal, .inp, .cmp, .pnl, .drm, .fab, .tpl, .sec, .pwr, .sns, .frs, .drz, .aud]) hin)
    · exact .inr (.inl hband)
    · exact .inr (.inr hcore)
  | true =>
    have ha : a / 0x10000 = 13 := by simpa only [inAud, beq_iff_eq] using haud
    refine .inl ?_
    simp only [blockOf, ha, Option.some.injEq, Prod.mk.injEq] at h
    rw [← h.1]
    decide

theorem regAt_link {a : Nat} {fs : List Fld} (h : regAt a = some fs) : ∀ f ∈ fs, f.key = F.TPL_LINK_STATE.key → f.acc = .ro := by
  unfold regAt at h
  split at h
  · contradiction
  · next b o hb =>
    obtain ⟨r, hr, hat⟩ := List.exists_of_findSome?_eq_some h
    obtain ⟨i, hi, rfl⟩ := RegRow.at?_flds hat
    intro f hf hkey
    have hlow (hall : rowsLink (Sys2Proof.blockRows b) = true) : f.acc = .ro := by
      have hrow := List.all_eq_true.1 hall r hr
      have hcell := List.all_eq_true.1 hrow i (List.mem_range.2 (Nat.lt_succ_of_le hi))
      simpa [hkey] using List.all_eq_true.1 hcell f hf
    rcases blockOf_cases hb with hin | ⟨k, hk, rfl⟩ | ⟨p, rfl⟩
    · exact hlow (rowsLink_low b hin)
    · exact hlow (rowsLink_band k hk)
    · have habove := rowsCore_above p r hr i f hf
      simp only [Fld.key, F.TPL_LINK_STATE] at hkey
      omega

section
variable {s : State} {a v : Nat}

theorem not_beside_link : ¬ Beside F.TPL_LINK_STATE := fun h => h (by decide)

theorem State.writeFields_link {fs : List Fld} (hfs : ∀ f ∈ fs, f.key = F.TPL_LINK_STATE.key → f.acc = .ro) :
    (fs.foldl (State.writeField v) s).getF F.TPL_LINK_STATE = s.getF F.TPL_LINK_STATE := by
  induction fs generalizing s with
  | nil => rfl
  | cons f fs ih =>
    refine (ih fun g hg => hfs g (List.mem_cons_of_mem f hg)).trans ?_
    by_cases hkey : f.key = F.TPL_LINK_STATE.key
    · rw [State.writeField_kept (.inl (hfs f List.mem_cons_self hkey))]
    · exact State.getF_writeField_ne s v (Ne.symm hkey)

theorem State.regWrite_link : (s.regWrite a v).2.getF F.TPL_LINK_STATE = s.getF F.TPL_LINK_STATE := by
  unfold State.regWrite
  split
  · exact State.getF_incF_ne _ _ (by decide)
  · split
    · next blk o fs w hb hreg hw =>
      split
      · exact State.getF_incF_ne _ _ (by decide)
      · split
        · rfl
        · have hP (g : Fld) (hg : Beside g) : g ≠ F.TPL_LINK_STATE := fun e => not_beside_link (e ▸ hg)
          refine State.writeEffect_beside hP (fun g hg => ?_) _ fun h => h rfl
          rw [not_not.1 hg]
          exact State.writeFields_link (regAt_link hreg)
    · rfl

theorem State.loggedWrite_link : (s.loggedWrite a v).2.getF F.TPL_LINK_STATE = s.getF F.TPL_LINK_STATE :=
  (SameFields.of_regs (ok := fun _ => False) ((State.loggedWrite_kept s a v).keeps .regs (by decide)) _ id).trans State.regWrite_link

theorem State.replayWrite_link {e : ReplayEnt} : (s.replayWrite e).getF F.TPL_LINK_STATE = s.getF F.TPL_LINK_STATE := by
  unfold State.replayWrite State.applyWrite
  split
  · exact State.loggedWrite_link
  · exact State.loggedMem_replay _ not_beside_link

theorem State.replayWrites_kept {es : List ReplayEnt} : (es.foldl State.replayWrite s).getF F.TPL_LINK_STATE = s.getF F.TPL_LINK_STATE ∧
    s.now ≤ (es.foldl State.replayWrite s).now := by
  induction es generalizing s with
  | nil => exact ⟨rfl, Nat.le_refl _⟩
  | cons e es ih =>
    have hnow : s.now ≤ (s.replayWrite e).now := State.replayWrite_next.elim (fun h => h.ge) fun h => (Nat.le_succ _).trans h.ge
    exact ⟨ih.1.trans State.replayWrite_link, hnow.trans ih.2⟩

/-- GO leaves the link up or down, and the clock does not go back. -/
theorem State.replayGo_kept : s.replayGo.getF F.TPL_LINK_STATE = s.getF F.TPL_LINK_STATE ∧ s.now ≤ s.replayGo.now := by
  have hkept : SameBut s.replayReleased s [.aud] := State.setAud_frame
  have hrel : s.replayReleased.getF F.TPL_LINK_STATE = s.getF F.TPL_LINK_STATE :=
    SameFields.of_regs (ok := fun _ => False) (hkept.keeps .regs (by decide)) _ id
  have hnow : s.replayReleased.now = s.now := hkept.keeps .now (by decide)
  rw [State.replayGo_eq]
  split
  · have hset := State.getF_setF_ne s.replayReleased (f := F.AUD_REPLAY_STATUS_STATE) (g := F.TPL_LINK_STATE) 4 (by decide)
    have hsetnow : (s.replayReleased.setF F.AUD_REPLAY_STATUS_STATE 4).now = s.replayReleased.now := State.setF_frame.keeps .now (by decide)
    generalize s.replayReleased.setF F.AUD_REPLAY_STATUS_STATE 4 = x at hset hsetnow ⊢
    have hcheck : (x.rasterStart 0 true).modeCheck.now = (x.rasterStart 0 true).now := State.modeCheck_frame.keeps .now (by decide)
    exact ⟨(State.modeCheck_fields _ _ not_among).trans (State.rasterStart_status.1.trans (hset.trans hrel)),
      (hcheck.trans (State.rasterStart_now.trans (hsetnow.trans hnow))).ge⟩
  · have hprep : s.replayPrepared.getF F.TPL_LINK_STATE = s.getF F.TPL_LINK_STATE :=
      (State.getF_setF_ne _ _ (by decide)).trans (State.replayWrites_kept.1.trans hrel)
    have hset : s.replayPrepared.now = _ := State.setF_frame.keeps .now (by decide)
    have hprepnow : s.now ≤ s.replayPrepared.now := by
      rw [hset, ← hnow]
      exact State.replayWrites_kept.2
    generalize s.replayPrepared = x at hprep hprepnow ⊢
    generalize (s.replayEntries.filter fun e => !earlyWrite e && e.type != 0 && e.type != 7) = log
    generalize (s.replayEntries.getLast?.map (·.time)).getD 0 = last
    have htaken : (x.replayTaken log last).getF F.TPL_LINK_STATE = x.getF F.TPL_LINK_STATE :=
      SameFields.of_regs (ok := fun _ => False) (State.replayTaken_kept.keeps .regs (by decide)) _ id
    have htakennow : (x.replayTaken log last).now = x.now := State.replayTaken_kept.keeps .now (by decide)
    exact ⟨State.rasterStart_status.1.trans (htaken.trans hprep), hprepnow.trans (State.rasterStart_now.trans htakennow).ge⟩

theorem State.hostWrite_kept : (s.hostWrite a v).2.getF F.TPL_LINK_STATE = s.getF F.TPL_LINK_STATE ∧ s.now ≤ (s.hostWrite a v).2.now := by
  have hlog : s.now ≤ (s.loggedWrite a v).2.now := by
    have h : (s.loggedWrite a v).2.now = (s.regWrite a v).2.now := (State.loggedWrite_kept s a v).keeps .now (by decide)
    rw [h]
    exact State.regWrite_next.elim (fun h => h.ge) fun h => (Nat.le_succ _).trans h.ge
  unfold State.hostWrite
  split
  · exact ⟨State.getF_incF_ne _ _ (by decide), Nat.le_refl _⟩
  · dsimp only
    split
    · exact ⟨State.replayGo_kept.1.trans State.loggedWrite_link, hlog.trans State.replayGo_kept.2⟩
    · exact ⟨State.loggedWrite_link, hlog⟩

/-! ### Reads and writes, one a cycle -/

/-- What an answer asks of the state it is sent from: the frames sent, the link and the boot. -/
def LinkKept (t s : State) : Prop := Keeps [.tpl, .boot] t s ∧ t.getF F.TPL_LINK_STATE = s.getF F.TPL_LINK_STATE

theorem LinkKept.refl (s : State) : LinkKept s s := ⟨Keeps.refl _ _, rfl⟩

theorem LinkKept.trans {u t s : State} (h : LinkKept u t) (h' : LinkKept t s) : LinkKept u s := ⟨h.1.trans h'.1, h.2.trans h'.2⟩

theorem LinkKept.answers {t : State} {r : Req} {au : Option Accepted} {st : Nat} {p : List Byte} (h : LinkKept t (noted s au)) :
    answers s (t.finish r au st p) r au st p :=
  State.finish_answers_from ((congrArg TplSt.sent (h.1.at .tpl)).trans (State.noted_sent s au))
    (h.2.trans (State.getF_noted_ne s au (by decide))) ((h.1.at .boot).trans ((s.noted_kept au).keeps .boot))

theorem State.advance_link (n : Nat) : LinkKept (s.advance n) s := by
  refine ⟨(Keeps.refl _ _).step State.advance_frame, s.advance_fields n _ fun h => ?_⟩
  exact absurd h.above (by decide)

theorem State.hostRead_link : LinkKept (s.hostRead a).2.2 s ∧ (s.hostRead a).2.2.now = s.now :=
  ⟨⟨(Keeps.refl _ _).step State.hostRead_frame,
    SameFields.of_regs (ok := fun _ => False) (State.hostRead_frame.keeps .regs (by decide)) _ id⟩, State.hostRead_frame.keeps .now (by decide)⟩

theorem State.writeEntry_link {auth : Bool} : LinkKept (s.writeEntry auth a v).2 s ∧ s.now ≤ (s.writeEntry auth a v).2.now := by
  unfold State.writeEntry
  split
  · exact ⟨⟨(Keeps.refl _ _).step State.incF_frame, State.getF_incF_ne _ _ (by decide)⟩, Nat.le_refl _⟩
  · split
    · exact ⟨LinkKept.refl s, Nat.le_refl _⟩
    · exact ⟨⟨(Keeps.refl _ _).step State.hostWrite_frame, State.hostWrite_kept.1⟩, State.hostWrite_kept.2⟩

/-- One read of a request: it leaves the link, and no cycle passes. -/
theorem State.readReg_link {k : Nat} {q : Nat × Nat × State}
    (hq : q = if s.pstate = 2 ∧ !dolRead (a + 4 * k) then (7, 0, s) else s.hostRead (a + 4 * k)) : LinkKept q.2.2 s ∧ q.2.2.now = s.now := by
  subst hq
  split
  · exact ⟨LinkKept.refl s, rfl⟩
  · exact State.hostRead_link

/-- The words read after the first, one in each cycle. -/
theorem State.readRegs_next (n k : Nat) (s : State) (st : Nat) (ws : List Nat) : ∃ st' ws' s',
    State.readRegs a n (k + 1) s st ws = (st', ws ++ ws', s') ∧ ws'.length = n ∧ LinkKept s' s ∧ s'.now = s.now + n := by
  induction n generalizing k s st ws with
  | zero => exact ⟨st, [], s, by rw [List.append_nil]; rfl, rfl, LinkKept.refl s, rfl⟩
  | succ n ih =>
    unfold State.readRegs
    extract_lets s0 q
    have h0 : s0 = s.advance 1 := if_neg (Nat.succ_ne_zero k)
    obtain ⟨hq, hqnow⟩ := State.readReg_link (a := a) (k := k + 1) (s := s0) (q := q) rfl
    obtain ⟨st', ws', s', hrun, hlen, hs', hnow⟩ := ih (k + 1) q.2.2 (max st q.1) (ws ++ [q.2.1])
    refine ⟨st', q.2.1 :: ws', s', hrun.trans (by rw [List.append_assoc]; rfl), by rw [List.length_cons, hlen], hs'.trans (hq.trans ?_), ?_⟩
    · rw [h0]
      exact s.advance_link 1
    · rw [hnow, hqnow, h0, State.advance_now]
      omega

/-- A read of COUNT words: the first one at once. -/
theorem State.readRegs_words {n : Nat} (hn : 1 ≤ n) : ∃ st ws s', State.readRegs a n 0 s 0 [] = (st, ws, s') ∧ ws.length = n ∧
    LinkKept s' s ∧ s'.now = s.now + (n - 1) ∧ (n = 1 → s.pstate ≠ 2 → st = (s.hostRead a).1 ∧ ws = [(s.hostRead a).2.1]) := by
  obtain ⟨m, rfl⟩ := Nat.exists_eq_add_of_le' hn
  unfold State.readRegs
  extract_lets s0 q
  obtain ⟨hq, hqnow⟩ := State.readReg_link (a := a) (k := 0) (s := s0) (q := q) rfl
  obtain ⟨st', ws', s', hrun, hlen, hs', hnow⟩ := State.readRegs_next (a := a) m 0 q.2.2 (max 0 q.1) [q.2.1]
  refine ⟨st', q.2.1 :: ws', s', hrun, by rw [List.length_cons, hlen], hs'.trans hq, by rw [hnow, hqnow]; rfl, fun h1 hp => ?_⟩
  obtain rfl : m = 0 := by omega
  have hread : q = s.hostRead a := if_neg fun h => hp h.1
  obtain ⟨rfl, rfl, -⟩ := hrun
  rw [hread]
  exact ⟨Nat.zero_max _, rfl⟩

/-- Entries after the first, one in each cycle. -/
theorem State.writeEntries_next (auth : Bool) (es : List (Nat × Nat)) (k : Nat) (s : State) (sts : List Nat) : ∃ sts' s',
    State.writeEntries auth es (k + 1) s sts = (sts ++ sts', s') ∧ sts'.length = es.length ∧ LinkKept s' s ∧ s.now + es.length ≤ s'.now := by
  induction es generalizing k s sts with
  | nil => exact ⟨[], s, by rw [List.append_nil]; rfl, rfl, LinkKept.refl s, Nat.le_refl _⟩
  | cons e es ih =>
    unfold State.writeEntries
    extract_lets q
    have h0 : q = (s.advance 1).writeEntry auth e.1 e.2 := by
      unfold q
      rw [if_neg (Nat.succ_ne_zero k)]
    obtain ⟨hq, hqnow⟩ := State.writeEntry_link (s := s.advance 1) (a := e.1) (v := e.2) (auth := auth)
    rw [← h0, State.advance_now] at hqnow
    rw [← h0] at hq
    obtain ⟨sts', s', hrun, hlen, hs', hnow⟩ := ih (k + 1) q.2 (sts ++ [q.1])
    refine ⟨q.1 :: sts', s', hrun.trans (by rw [List.append_assoc]; rfl), by rw [List.length_cons, List.length_cons, hlen],
      hs'.trans (hq.trans (s.advance_link 1)), ?_⟩
    rw [List.length_cons]
    omega

/-- The entries of a request: the first one at once. -/
theorem State.writeEntries_all (auth : Bool) (e : Nat × Nat) (es : List (Nat × Nat)) : ∃ sts s',
    State.writeEntries auth (e :: es) 0 s [] = (sts, s') ∧ sts.length = es.length + 1 ∧ LinkKept s' s ∧ s.now + es.length ≤ s'.now := by
  unfold State.writeEntries
  extract_lets q
  obtain ⟨hq, hqnow⟩ : LinkKept q.2 s ∧ s.now ≤ q.2.now := State.writeEntry_link
  obtain ⟨sts', s', hrun, hlen, hs', hnow⟩ := State.writeEntries_next auth es 0 q.2 [q.1]
  exact ⟨q.1 :: sts', s', hrun, by rw [List.length_cons, hlen], hs'.trans hq, by omega⟩

end

end Sys2Proof.Machine

/-! O43. READ_REG and WRITE_REG (R467, R468). -/
namespace Sys2Proof.Machine
set_option Elab.async false

section
variable {s : State} {r : Req} {rest : List Req} {au : Option Accepted}

theorem State.tplReadReg_of_served {a n : Nat} (h : served s 1 r rest au) (hlen : r.len = 8) (hres : byteAt r.body 7 = 0)
    (ha : a = leAt r.body 0 5) (hn : n = leAt r.body 5 2) (h1 : 1 ≤ n) (hmax : n ≤ 256) : s.tplReadReg =
      if a % 4 ≠ 0 then ((noted s au).incF F.DEV_ACCESS_MISALIGNED 1).finish r au 2 []
      else (State.readRegs a n 0 (noted s au) 0 []).2.2.finish r au (State.readRegs a n 0 (noted s au) 0 []).1
        (wordsToBytes (State.readRegs a n 0 (noted s au) 0 []).2.1) := by
  subst ha hn
  rw [State.tplReadReg, State.serve_of_served h]
  exact if_neg fun hbad => by omega

/-- The entries of a WRITE_REG request. -/
def regEntries (r : Req) (n : Nat) : List (Nat × Nat) :=
  (List.range n).map fun i => (leAt (sliceB r.body (12 * i) 12) 0 5, leAt (sliceB r.body (12 * i) 12) 8 4)

theorem State.tplWriteReg_of_served {n : Nat} (h : served s 2 r rest au) (hlen : r.len = 12 * n) (h1 : 1 ≤ n) (hmax : n ≤ 64)
    (hres : ∀ i < n, leAt (sliceB r.body (12 * i) 12) 5 3 = 0) : s.tplWriteReg =
      (State.writeEntries au.isSome (regEntries r n) 0 (noted s au) []).2.finish r au
        ((State.writeEntries au.isSome (regEntries r n) 0 (noted s au) []).1.foldl max 0)
        ((State.writeEntries au.isSome (regEntries r n) 0 (noted s au) []).1.flatMap (toLe 1)) := by
  have hdiv : r.len / 12 = n := by omega
  rw [State.tplWriteReg, State.serve_of_served h]
  dsimp only
  rw [hdiv, if_neg]
  · rfl
  · rintro (hbad | hbad | hbad | hbad)
    · omega
    · omega
    · omega
    · obtain ⟨i, hi, hne⟩ := List.any_eq_true.1 hbad
      exact absurd (hres i (List.mem_range.1 hi)) (by simpa using hne)

/-- A request of one entry outside a session. -/
theorem State.tplWriteReg_single (h : served s 2 r rest none) (hlen : r.len = 12) (hres : leAt (sliceB r.body 0 12) 5 3 = 0)
    {q : Nat × State} (hq : q = s.writeEntry false (leAt (sliceB r.body 0 12) 0 5) (leAt (sliceB r.body 0 12) 8 4)) :
    s.tplWriteReg = q.2.finish r none q.1 (toLe 1 q.1) := by
  rw [State.tplWriteReg_of_served (n := 1) h hlen (Nat.le_refl 1) (by decide) (fun i hi => by rw [Nat.lt_one_iff.1 hi]; exact hres), hq]
  have hrun : State.writeEntries false (regEntries r 1) 0 s [] = ([q.1], q.2) := by rw [hq]; rfl
  have hmax : [q.1].foldl max 0 = q.1 := Nat.zero_max _
  rw [← hq]
  change (State.writeEntries false (regEntries r 1) 0 s []).2.finish r none _ _ = _
  rw [Option.isSome_none, show noted s none = s from rfl, hrun, hmax, List.flatMap_singleton]

end

end Sys2Proof.Machine

namespace Sys2Proof
set_option Elab.async false
open Sys2Proof.Machine

/-- Settles O43: the words and the entries go one a cycle, by induction on their number; each leaves the link to answer on. -/
theorem registersAreReadAndWritten : Obligations.RegistersAreReadAndWritten := by
  unfold Obligations.RegistersAreReadAndWritten
  refine ⟨fun s r rest au a n h hlen hres ha hn h1 hmax hal => ?_, fun s r rest au h hlen hres h1 hmax hal => ?_,
    fun s r rest au n h hlen h1 hmax hres => ?_, fun s r rest h hlen hres hden => ?_,
    fun s r rest a v h hlen hres ha hv hpriv hstrict hp => ?_⟩
  · refine Completes.of_op (t := s.tplReadReg) rfl fun w => ?_
    obtain ⟨st, ws, x, hrun, hcount, hx, hnow, hone⟩ := State.readRegs_words (s := noted s au) (a := a) h1
    rw [State.tplReadReg_of_served h hlen hres ha hn h1 hmax, if_neg (not_not.2 hal), hrun]
    have hsame : (noted s au).now = s.now := (s.noted_kept au).keeps .now
    have hpst : (noted s au).pstate = s.pstate := (s.noted_kept au).keeps .pstate
    refine ⟨st, ws, hx.answers, hcount, ?_, fun hn1 hp => hone hn1 (hpst ▸ hp)⟩
    exact (State.finish_frame.keeps .now (by decide) : (x.finish r au st (wordsToBytes ws)).now = x.now).trans (hnow.trans (by rw [hsame]))
  · refine Completes.of_op (t := s.tplReadReg) rfl fun w => ?_
    rw [State.tplReadReg_of_served h hlen hres rfl rfl h1 hmax, if_pos hal]
    have hinc : LinkKept ((noted s au).incF F.DEV_ACCESS_MISALIGNED 1) (noted s au) :=
      ⟨(Keeps.refl _ _).step State.incF_frame, State.getF_incF_ne _ _ (by decide)⟩
    have hframe : SameBut (((noted s au).incF F.DEV_ACCESS_MISALIGNED 1).finish r au 2 []) s [.regs, .tpl] :=
      SameBut.trans State.finish_frame ((State.incF_frame.mono (by decide)).trans (s.noted_kept au))
    refine ⟨hinc.answers, hframe.ended w, (State.finish_fields _ not_among).trans ((State.getF_incF_self _ _ _).trans ?_)⟩
    rw [State.getF_noted_ne s au (by decide)]
    rfl
  · refine Completes.of_op (t := s.tplWriteReg) rfl fun w => ?_
    obtain ⟨m, rfl⟩ := Nat.exists_eq_add_of_le' h1
    obtain ⟨e, es, hes⟩ : ∃ e es, regEntries r (m + 1) = e :: es :=
      List.exists_cons_of_length_pos (by simp [regEntries])
    have hcount : es.length = m := by
      have := congrArg List.length hes
      simpa [regEntries] using this.symm
    obtain ⟨sts, x, hrun, hlen', hx, hnow⟩ := State.writeEntries_all (s := noted s au) au.isSome e es
    rw [State.tplWriteReg_of_served h hlen h1 hmax hres, hes, hrun]
    have hsame : (noted s au).now = s.now := (s.noted_kept au).keeps .now
    refine ⟨sts, by rw [hlen', hcount], hx.answers, ?_⟩
    rw [hsame, hcount] at hnow
    exact hnow.trans (State.finish_frame.keeps .now (by decide) : (x.finish r au _ _).now = x.now).ge
  · refine Completes.of_op (t := s.tplWriteReg) rfl fun w => ?_
    have hq : s.writeEntry false (leAt (sliceB r.body 0 12) 0 5) (leAt (sliceB r.body 0 12) 8 4) = (3, s.incF F.TPL_ERR_DENIED 1) :=
      if_pos ⟨rfl, hden⟩
    rw [State.tplWriteReg_single h hlen hres hq.symm]
    have hinc : LinkKept (s.incF F.TPL_ERR_DENIED 1) (noted s none) :=
      ⟨(Keeps.refl _ _).step State.incF_frame, State.getF_incF_ne _ _ (by decide)⟩
    have hframe : SameBut ((s.incF F.TPL_ERR_DENIED 1).finish r none 3 (toLe 1 3)) s [.regs, .tpl] :=
      SameBut.trans State.finish_frame (State.incF_frame.mono (by decide))
    exact ⟨hinc.answers, hframe.ended w, State.finish_fields.trans (SameFields.incIn (by decide))⟩
  · refine Completes.of_op (t := s.tplWriteReg) rfl fun w => ?_
    have hq : s.writeEntry false (leAt (sliceB r.body 0 12) 0 5) (leAt (sliceB r.body 0 12) 8 4) = s.hostWrite a v := by
      rw [← ha, ← hv]
      unfold State.writeEntry
      rw [if_neg fun hd => hd.2.elim (fun e => by rw [hpriv] at e; contradiction) hstrict, if_neg fun hd => hp hd.1]
    rw [State.tplWriteReg_single h hlen hres hq.symm]
    have hwrite : LinkKept (s.hostWrite a v).2 (noted s none) :=
      ⟨(Keeps.refl _ _).step State.hostWrite_frame, State.hostWrite_kept.1⟩
    have hself := SameBut.ended_self (t := (s.hostWrite a v).2.finish r none (s.hostWrite a v).1 (toLe 1 (s.hostWrite a v).1)) (s := s)
      ((State.finish_frame.keeps .pending (by decide)).trans (State.hostWrite_frame.keeps .pending (by decide))) [.regs, .tpl] w
    exact ⟨hwrite.answers, hself.trans State.finish_frame, State.finish_fields⟩

end Sys2Proof

/-! O45. READ_MEM of a hidden frame buffer (R88, R469, log entry 87). -/
namespace Sys2Proof
set_option Elab.async false
open Sys2Proof.Machine

/-- A READ_MEM of the first byte of DRAM. -/
def hiddenRead : Req :=
  { mac := [], ip := [], port := 0,
    msg := toLe 2 0x5054 ++ [1, 3, 0, 0, 0, 0, 8, 0, 0, 0, 0, 0, 0, 0] ++ toLe 5 dramBase ++ [0, 1, 0] }

/-- The request waits; the boot is complete, the link is up, and a graphics frame buffer that took pixels of an encrypted picture begins
at that byte. -/
def hiddenState : State :=
  { regs := (State.reset.setFs [(F.TPL_LINK_STATE, 2), (F.DEV_BOOT_COMPLETE, 1)]).regs, boot := { done := [1] }, tpl := { rx := [hiddenRead] },
    cmp := { gfx := { hidden := [(0, 1)] } } }

theorem hiddenState_served : served hiddenState 3 hiddenRead [] none :=
  ⟨rfl, rfl, by decide, by decide +kernel, Or.inl ⟨by decide, rfl, Or.inl (by decide)⟩⟩

/-- The range is refused, though its kinds may all be read. -/
theorem hiddenState_refuses : hiddenState.tplReadMem = (hiddenState.incF F.DRM_HOST_REFUSED 1).finish hiddenRead none 2 [] := by
  have hread : hiddenState.hostMemRead (leAt hiddenRead.body 0 5) (leAt hiddenRead.body 6 2) =
      (2, [], hiddenState.incF F.DRM_HOST_REFUSED 1) := by
    unfold State.hostMemRead
    rw [if_neg (by decide +kernel), if_pos (Or.inl (by decide +kernel))]
    rfl
  rw [State.tplReadMem, State.serve_of_served hiddenState_served]
  dsimp only
  rw [if_neg (by decide +kernel), show noted hiddenState none = hiddenState from rfl, hread]

/-- The frames of the two statuses differ. -/
theorem hiddenState_frames : carries hiddenState hiddenRead (response hiddenRead none 2 []) ≠
    carries hiddenState hiddenRead (response hiddenRead none 0 (readB hiddenState.dram 0 1)) := by decide +kernel

/-- Refutes O45: its first clause has READ_MEM answer a range whose kinds may be read; where the range touches a graphics frame buffer
that holds decrypted pixels, `hostMemRead` refuses it (R88, log entry 87). -/
theorem not_memoryIsReadAndWritten : ¬ Obligations.MemoryIsReadAndWritten := by
  unfold Obligations.MemoryIsReadAndWritten
  rintro ⟨hread, -⟩
  obtain ⟨t, ht, -, hanswer, -⟩ := hread hiddenState hiddenRead [] none dramBase 1 hiddenState_served (by decide) (by decide) (by decide +kernel)
    (by decide) (Nat.le_refl 1) (by decide) (by decide +kernel)
  have hzero := hanswer (by decide +kernel) (by decide +kernel)
  have htwo : answers hiddenState hiddenState.tplReadMem hiddenRead none 2 [] := by
    rw [hiddenState_refuses]
    exact State.finish_answers_from rfl (State.getF_incF_ne _ _ (by decide)) rfl
  have hsent : t.tpl.sent = hiddenState.tplReadMem.tpl.sent := by
    have hend : t = { State.noteStat hiddenState hiddenState.tplReadMem with pending := hiddenState.pending } :=
      Host.Outcome.next.inj (ht.symm.trans rfl)
    rw [hend, ← State.noteStat_tpl hiddenState hiddenState.tplReadMem]
  obtain ⟨m, hm⟩ := hzero
  obtain ⟨n, hn⟩ := htwo
  rw [hsent, hn, if_pos (by decide +kernel)] at hm
  exact hiddenState_frames (List.cons.inj hm).1

end Sys2Proof

/-! O42. The link and its frames (R460, R462, R464). -/
namespace Sys2Proof.Machine
set_option Elab.async false

section
variable {s : State} {r : Req} {st : Nat} {p : List Byte}

theorem State.sendMsg_rx (m : List Byte) : (s.sendMsg r m).tpl.rx = s.tpl.rx := by
  unfold State.sendMsg State.netSend
  split <;> rfl

/-- A response takes its request from the queue. -/
theorem State.reply_rx : (s.reply r none st p).tpl.rx = s.tpl.rx.drop 1 := by
  have hsent := s.sendMsg_rx (r := r) (response r none st p)
  unfold State.reply
  extract_lets m s1
  rw [← hsent]
  exact congrArg (fun t : TplSt => t.rx.drop 1) (State.incFs_tpl _ _)

theorem State.answerBad_of_empty {n : Nat} (h : s.tpl.rx = []) : State.answerBad n s = s := by
  cases n with
  | zero => rfl
  | succ n =>
    unfold State.answerBad
    rw [h]

/-- A request alone in the queue is kept for its operation, or answered at once with the status of its fault. -/
theorem State.answerBad_alone {n : Nat} (h : s.tpl.rx = [r]) : State.answerBad (n + 1) s =
    if r.headerBad then s.reply r none 4 [] else if !opKnown r.op then s.reply r none 8 [] else s := by
  have hempty (st : Nat) : State.answerBad n (s.reply r none st []) = s.reply r none st [] :=
    State.answerBad_of_empty (by rw [State.reply_rx, h]; rfl)
  rw [State.answerBad, h]
  dsimp only
  rw [hempty, hempty]

/-- The queue with a request taken. -/
def State.taken (s : State) (r : Req) : State := s.onTpl fun t => { t with rx := t.rx ++ [r] }

theorem State.takeRequest_eq (hlen : 16 ≤ r.msg.length) (hmagic : r.msg.take 2 = toLe 2 0x5054) :
    s.takeRequest r = if 16 ≤ s.tpl.rx.length then s.incF F.TPL_ERR_RX_DROP 1 else State.answerBad 16 (s.taken r) :=
  if_neg fun h => h.elim (Nat.not_lt.2 hlen) fun h => h hmagic

theorem State.taken_answers : answers s ((s.taken r).reply r none st p) r none st p :=
  ⟨[], by rw [State.reply_sent, List.append_nil]; rfl⟩

end

end Sys2Proof.Machine

namespace Sys2Proof
set_option Elab.async false
open Sys2Proof.Machine

/-- Settles O42: each kind of frame by the branch of `frameRx` that takes it. -/
theorem framesAreTakenFromTheLink : Obligations.FramesAreTakenFromTheLink := by
  unfold Obligations.FramesAreTakenFromTheLink
  refine ⟨fun s m hdown hboot => ?_, fun s m hup => ?_, fun s f fcs hup hbad => ?_,
    fun s f mac ip dst pkt m next port r hup hopen hask hr hlen hmagic => ?_, fun s f mac ip dst pkt next hup hopen hask => ?_⟩
  · refine Completes.of_op (t := s.phyUp m) rfl fun w => ?_
    have hop : s.phyUp m = s.setFs [(F.TPL_LINK_STATE, 2), (F.TPL_LINK_MASTER, b2n m)] := if_pos ⟨hdown, hboot⟩
    have hstate : (s.phyUp m).getF F.TPL_LINK_STATE = 2 := by
      rw [hop]
      exact (State.getF_setF_ne _ _ (by decide)).trans (State.getF_setF_self _ _ _)
    have hmaster : (s.phyUp m).getF F.TPL_LINK_MASTER = b2n m := by
      rw [hop]
      exact (State.getF_setF_self _ _ _).trans (by cases m <;> rfl)
    refine ⟨hstate, hmaster, (State.phyUp_frame.mono (by decide)).ended w, ?_⟩
    have hf : SameFields (s.phyUp m) s (Among [F.TPL_LINK_STATE, F.TPL_LINK_MASTER]) := by
      rw [hop]
      exact SameFields.setsIn (by simp)
    exact hf
  · refine Completes.of_op (t := s.phyDown m) rfl fun w => ?_
    have hop : s.phyDown m = (s.setF F.TPL_LINK_STATE (b2n m)).incF F.TPL_ERR_LINK_DOWNS 1 := if_pos hup
    have hstate : (s.phyDown m).getF F.TPL_LINK_STATE = b2n m := by
      rw [hop]
      exact (State.getF_incF_ne _ _ (by decide)).trans ((State.getF_setF_self _ _ _).trans (by cases m <;> rfl))
    have hcount : (s.phyDown m).getF F.TPL_ERR_LINK_DOWNS = satAdd 8 (s.getF F.TPL_ERR_LINK_DOWNS) 1 := by
      rw [hop, State.getF_incF_self, State.getF_setF_ne _ _ (by decide)]
      rfl
    exact ⟨hstate, hcount, (State.phyDown_frame.mono (by decide)).ended w⟩
  · refine Completes.of_op (t := s.frameRx f fcs) rfl fun w => ?_
    have hop : s.frameRx f fcs = s.incF F.TPL_RX_DISCARDED 1 := by
      unfold State.frameRx
      rw [hup]
      rcases hbad with rfl | hnone
      · rfl
      · rw [hnone, ite_self]
        rfl
    rw [hop]
    exact ⟨State.getF_incF_self _ _ _, State.incF_frame.ended w, SameFields.incIn List.mem_cons_self⟩
  · refine Completes.of_op (t := s.frameRx f true) rfl fun w => ?_
    have hop : s.frameRx f true = if 16 ≤ s.tpl.rx.length then s.incF F.TPL_ERR_RX_DROP 1 else State.answerBad 16 (s.taken r) := by
      rw [← State.takeRequest_eq (by rw [hr]; exact hlen) (by rw [hr]; exact hmagic), hr]
      unfold State.frameRx
      rw [hup, if_pos rfl, hopen]
      dsimp only
      rw [hask]
      rfl
    have halone (hrx : s.tpl.rx = []) : s.frameRx f true = if r.headerBad then (s.taken r).reply r none 4 []
        else if !opKnown r.op then (s.taken r).reply r none 8 [] else s.taken r := by
      rw [hop, if_neg (by rw [hrx]; decide), State.answerBad_alone]
      exact congrArg (· ++ [r]) hrx
    have hgone (st : Nat) (hrx : s.tpl.rx = []) : ((s.taken r).reply r none st []).tpl.rx = [] := by
      rw [State.reply_rx, show (s.taken r).tpl.rx = [r] from congrArg (· ++ [r]) hrx]
      rfl
    have hframe : SameBut (s.frameRx f true) s [.regs, .tpl] := State.frameRx_frame.mono (by decide)
    refine ⟨hframe.ended w, fun hfull => ?_, fun hrx hgood hop => ?_, fun hrx hbad => ?_, fun hrx hgood hop => ?_⟩
    · have hdrop : s.frameRx f true = s.incF F.TPL_ERR_RX_DROP 1 := hop.trans (if_pos hfull)
      rw [hdrop]
      exact ⟨State.incF_tpl s F.TPL_ERR_RX_DROP 1, State.getF_incF_self _ _ _⟩
    · rw [halone hrx, hgood, hop]
      exact (congrArg (fun l => ({ s.tpl with rx := l ++ [r] } : TplSt)) hrx)
    · rw [halone hrx, hbad]
      exact ⟨hgone 4 hrx, State.taken_answers⟩
    · rw [halone hrx, hgood, hop]
      exact ⟨hgone 8 hrx, State.taken_answers⟩
  · refine Completes.of_op (t := s.frameRx f true) rfl fun w => ?_
    have hop : s.frameRx f true = s.onTpl fun t =>
        { t with sent := t.sent ++ [ipv6Frame mac s.mac (linkLocal s.mac) ip 58 (advertisement s.mac ip)] } := by
      unfold State.frameRx
      rw [hup, if_pos rfl, hopen]
      dsimp only
      rw [hask]
      exact if_pos hup
    rw [hop]
    exact ⟨rfl, State.onTpl_frame.ended w⟩

end Sys2Proof

/-! O40. Frame records and log entries (R448, R450 to R452). -/
namespace Sys2Proof.Machine
set_option Elab.async false

section
variable {s : State}

/-! ### Bytes written to DRAM -/

theorem readB_writeB (m : SMap Byte) (a : Nat) (bs : List Byte) : readB (writeB m a bs) a bs.length = bs := by
  refine List.ext_getElem (by simp [readB, SMap.getMany]) fun i h1 h2 => ?_
  simp only [readB, writeB, SMap.getMany, List.getElem_map, List.getElem_range, SMap.get_setMany_in 0 m a i bs h2]
  exact List.getD_eq_getElem bs 0 h2

/-- A write of DRAM that REMOVE_N has not stopped (R551): the bytes are there, and every other byte stands. -/
theorem State.writeMem_dram {u a : Nat} {bs : List Byte} (hstop : s.getF F.DEV_HOTPLUG_WSTOP ≠ 1) :
    readB (s.writeMem 3 u a bs).dram a bs.length = bs ∧
      ∀ x, x < a ∨ a + bs.length ≤ x → SMap.get 0 (s.writeMem 3 u a bs).dram x = SMap.get 0 s.dram x := by
  have hdram : (s.writeMem 3 u a bs).dram = writeB s.dram a bs := by
    unfold State.writeMem
    rw [if_neg (by decide), if_neg (by decide), if_neg hstop]
  rw [hdram]
  exact ⟨readB_writeB _ _ _, fun x hx => SMap.get_setMany_out 0 s.dram a x bs hx⟩

/-! ### The oldest frame record (R448) -/

/-- A write of DRAM leaves the registers. -/
theorem State.writeMem_fields {k u a : Nat} {bs : List Byte} (P : Fld → Prop) : SameFields (s.writeMem k u a bs) s P :=
  SameFields.of_regs (State.writeMem_frame.keeps .regs (by decide))

/-- The writer's record leaves the queue. -/
def State.recDone (s : State) (rest : List FrameRec) (frame : Nat) : State :=
  ({ s with aud := { s.aud with recQ := rest } } : State).setF F.AUD_REC_LAST_REC_LAST frame

theorem State.recDone_kept {rest : List FrameRec} {f : Nat} : SameBut (s.recDone rest f) s [.regs, .aud] ∧
    (s.recDone rest f).aud.recQ = rest ∧ SameFields (s.recDone rest f) s (Among [F.AUD_REC_LAST_REC_LAST]) :=
  ⟨SameBut.call State.setF_frame (by decide) (State.setAud_frame.mono (by decide)), rfl,
    (SameFields.setIn List.mem_cons_self).trans (SameFields.of_regs (State.setAud_frame.keeps .regs (by decide)))⟩

theorem State.recRefresh_kept : SameBut s.recRefresh s [.aud] := State.setAud_frame

theorem State.recSlot_of_regs {t : State} (h : t.regs = s.regs) (n : Nat) : t.recSlot n = s.recSlot n := by
  have hf : SameFields t s (fun _ => False) := SameFields.of_regs h
  unfold State.recSlot
  rw [hf _ id, hf _ id, hf _ id]

theorem State.recWrite_eq {r q : FrameRec} {rest : List FrameRec} (hq : s.aud.recQ = r :: rest) (hr : q = s.recDigests r)
    (hA : q.inA ≠ none) (hB : q.inB ≠ none) (hv : q.vt ≠ none) : s.recWrite =
      (s.recRefresh.writeMem 3 0 (s.recSlot q.frame) (q.bytes s.prog.digest)).recDone (rest.map s.recDigests) q.frame := by
  have hrefresh : s.recRefresh.aud.recQ = q :: rest.map s.recDigests := by
    rw [hr, ← List.map_cons, ← hq]
    rfl
  have hslot : s.recRefresh.recSlot q.frame = s.recSlot q.frame := State.recSlot_of_regs (State.recRefresh_kept.keeps .regs (by decide)) _
  have hprog : s.recRefresh.prog = s.prog := State.recRefresh_kept.keeps .prog (by decide)
  unfold State.recWrite
  extract_lets s0
  change (match s.recRefresh.aud.recQ with | [] => _ | r :: rest => _) = _
  rw [hrefresh]
  dsimp only
  rw [if_neg, ← hslot, ← hprog]
  · rfl
  · simp only [Option.isNone_iff_eq_none, not_or]
    exact ⟨hA, hB, hv⟩

/-! ### The oldest log entry (R452) -/

/-- The log's writer has written an entry. -/
def State.logDone (s : State) (rest : List LogEnt) (n p : Nat) : State :=
  ({ s with aud := { s.aud with
      buf := rest, bufBytes := s.aud.bufBytes - n, ptr := p + n, seq := (s.aud.seq + 1) % 2 ^ 32 } } : State).setF F.AUD_LOG_PTR_PTR ((p + n) / 16)

theorem State.logDone_kept {rest : List LogEnt} {n p : Nat} : SameBut (s.logDone rest n p) s [.regs, .aud] ∧
    (s.logDone rest n p).aud.buf = rest ∧ (s.logDone rest n p).aud.ptr = p + n ∧ (s.logDone rest n p).aud.lostRun = s.aud.lostRun :=
  ⟨SameBut.call State.setF_frame (by decide) (State.setAud_frame.mono (by decide)), rfl, rfl, rfl⟩

theorem State.putLost_none (h : s.aud.lostRun = 0) : s.putLost = s := if_pos (Or.inl h)

/-- An entry for which the log has room, before its end or from its beginning. -/
theorem State.logWrite_eq {e : LogEnt} {rest : List LogEnt} {z n size base p : Nat} (hbuf : s.aud.buf = e :: rest)
    (hz : s.aud.zero = some z) (hn : n = logBytes e.payload.length) (hsize : size = s.getF F.AUD_LOG_SIZE_SIZE * 0x200000)
    (hbase : base = s.getF F.AUD_LOG_BASE_LO_BASE_LO / 0x200000 * 0x200000 + 2 ^ 32 * s.getF F.AUD_LOG_BASE_HI_BASE_HI)
    (hroom : n ≤ size) (hp : s.aud.ptr + n ≤ size ∧ p = s.aud.ptr ∨ size < s.aud.ptr + n ∧ bit s.aud.ctrl 1 = true ∧ p = 0)
    (hkind : s.inKind0 base size = true) (hlost : s.aud.lostRun = 0) :
    s.logWrite = (s.writeMem 3 0 (base - dramBase + p) (e.bytes s.aud.seq z)).logDone rest n p := by
  have haud : (s.writeMem 3 0 (base - dramBase + p) (e.bytes s.aud.seq z)).aud = s.aud := State.writeMem_frame.keeps .aud (by decide)
  have hp' : (if decide (size < s.aud.ptr + n) = true then 0 else s.aud.ptr) = p := by
    rcases hp with ⟨hle, rfl⟩ | ⟨hlt, -, rfl⟩
    · rw [if_neg (by simpa using hle)]
    · rw [if_pos (by simpa using hlt)]
  have hgo : ¬ (size < n ∨ decide (size < s.aud.ptr + n) = true ∧ (!bit s.aud.ctrl 1) = true) := by
    rintro (h | ⟨h, hw⟩)
    · omega
    · rcases hp with ⟨hle, -⟩ | ⟨-, hwrap, -⟩
      · exact absurd hle (by simpa using h)
      · rw [hwrap] at hw
        contradiction
  unfold State.logWrite
  rw [hbuf, hz]
  dsimp only
  rw [← hsize, ← hbase, ← hn, if_neg hgo, hp', if_pos hkind]
  exact State.putLost_none ((congrArg AudSt.lostRun haud).trans hlost)

/-- An entry that does not fit in a log that does not wrap. -/
theorem State.logWrite_full {e : LogEnt} {rest : List LogEnt} {z : Nat} (hbuf : s.aud.buf = e :: rest) (hz : s.aud.zero = some z)
    (hfull : s.getF F.AUD_LOG_SIZE_SIZE * 0x200000 < s.aud.ptr + logBytes e.payload.length) (hwrap : bit s.aud.ctrl 1 = false) :
    s.logWrite = ({ s with aud := { s.aud with recording := false, buf := [], bufBytes := 0 } } : State).setF F.AUD_LOG_STATUS_STATE 2 := by
  unfold State.logWrite
  rw [hbuf, hz]
  exact if_pos (Or.inr ⟨decide_eq_true hfull, by rw [hwrap]; rfl⟩)

theorem State.logPut_buf {e : LogEnt} (h : s.aud.lostRun = 0) : (s.logPut e).aud.buf =
    if s.aud.bufBytes + logBytes e.payload.length ≤ 0x100000 then s.aud.buf ++ [e] else s.aud.buf := by
  unfold State.logPut State.logRoom
  by_cases hroom : s.aud.bufBytes + logBytes e.payload.length ≤ 0x100000
  · rw [if_pos hroom, if_pos ⟨h, decide_eq_true hroom⟩]
  · rw [if_neg hroom, if_neg fun hc => hroom (of_decide_eq_true hc.2)]

end

end Sys2Proof.Machine

namespace Sys2Proof
set_option Elab.async false
open Sys2Proof.Machine

/-- Settles O40: each writer as one write of DRAM and an update of the audit's state. -/
theorem recordsAndLogEntriesAreWritten : Obligations.RecordsAndLogEntriesAreWritten := by
  unfold Obligations.RecordsAndLogEntriesAreWritten
  refine ⟨fun s r q rest bs hq hr hA hB hv hstop hbs => ?_, fun s e rest z n size base p hbuf hz hn hsize hbase hroom hp hstop hlost hkind hlow => ?_,
    fun s e rest z hbuf hz hfull hwrap => ?_, fun s e hlost => State.logPut_buf hlost⟩
  · refine Completes.of_op (t := s.recWrite) rfl fun w => ?_
    have hregs : SameFields s.recRefresh s (fun _ => False) := SameFields.of_regs (State.recRefresh_kept.keeps .regs (by decide))
    have hdram : s.recRefresh.dram = s.dram := State.recRefresh_kept.keeps .dram (by decide)
    obtain ⟨hread, hout⟩ := State.writeMem_dram (s := s.recRefresh) (u := 0) (a := s.recSlot q.frame) (bs := bs) (by rw [hregs _ id]; exact hstop)
    rw [State.recWrite_eq hq hr hA hB hv, ← hbs]
    have hw : SameBut (s.recRefresh.writeMem 3 0 (s.recSlot q.frame) bs) s.recRefresh _ := State.writeMem_frame
    have hwf : SameFields (s.recRefresh.writeMem 3 0 (s.recSlot q.frame) bs) s (Among [F.AUD_REC_LAST_REC_LAST]) :=
      (State.writeMem_fields _).trans (SameFields.of_regs (State.recRefresh_kept.keeps .regs (by decide)))
    have hwnow := (hw.keeps .now (by decide)).trans (State.recRefresh_kept.keeps .now (by decide))
    generalize s.recRefresh.writeMem 3 0 (s.recSlot q.frame) bs = y at hread hout hwf hwnow ⊢
    obtain ⟨hkept, hqueue, hfld⟩ := y.recDone_kept (rest := rest.map s.recDigests) (f := q.frame)
    have hd : (y.recDone (rest.map s.recDigests) q.frame).dram = y.dram := hkept.keeps .dram (by decide)
    refine ⟨hqueue, (hkept.keeps .now (by decide)).trans hwnow, State.getF_setF_self _ _ _, ?_, fun a ha => ?_, hfld.trans hwf⟩
    · exact (congrArg (readB · _ _) hd).trans hread
    · exact (congrArg (SMap.get 0 · a) hd).trans ((hout a ha).trans (by rw [hdram]))
  · refine Completes.of_op (t := s.logWrite) rfl fun w => ?_
    obtain ⟨hread, hout⟩ := State.writeMem_dram (s := s) (u := 0) (a := base + p) (bs := e.bytes s.aud.seq z) hstop
    have hwhole : dramBase + base =
        s.getF F.AUD_LOG_BASE_LO_BASE_LO / 0x200000 * 0x200000 + 2 ^ 32 * s.getF F.AUD_LOG_BASE_HI_BASE_HI := by
      rw [hbase]
      exact Nat.add_sub_of_le hlow
    have hrun := State.logWrite_eq hbuf hz hn hsize hwhole hroom hp hkind hlost
    rw [Nat.add_sub_cancel_left] at hrun
    rw [hrun]
    have hw : SameBut (s.writeMem 3 0 (base + p) (e.bytes s.aud.seq z)) s _ := State.writeMem_frame
    have hwnow := hw.keeps .now (by decide)
    generalize s.writeMem 3 0 (base + p) (e.bytes s.aud.seq z) = y at hread hout hwnow ⊢
    obtain ⟨hkept, hqueue, hptr, -⟩ := y.logDone_kept (rest := rest) (n := n) (p := p)
    have hd : (y.logDone rest n p).dram = y.dram := hkept.keeps .dram (by decide)
    refine ⟨hqueue, hptr, (hkept.keeps .now (by decide)).trans hwnow, ?_, fun a ha => ?_⟩
    · exact (congrArg (readB · _ _) hd).trans hread
    · exact (congrArg (SMap.get 0 · a) hd).trans (hout a ha)
  · refine Completes.of_op (t := s.logWrite) rfl fun w => ?_
    rw [State.logWrite_full hbuf hz hfull hwrap]
    exact ⟨State.getF_setF_self _ _ _, rfl, rfl⟩

end Sys2Proof

/-! SUPPORT. The register frame of commands that write few registers: the array, the threads and the units that wait (O55). -/
namespace Sys2Proof.Machine
set_option Elab.async false

/-! ### Frames of fields -/

theorem WritesAtMost.of_done {c : Instr} {op : State → State} {ok : Fld → Prop} (hc : ∀ s, exec c s = done s (op s))
    (h : ∀ s, SameFields (op s) s ok) : WritesAtMost c ok := by
  intro s t ht
  rw [hc s] at ht
  have hend : t = { State.noteStat s (op s) with pending := s.pending } := (Host.Outcome.next.inj ht).symm
  intro f hf
  rw [hend]
  exact (State.noteStat_getF s (op s) f).trans (h s f hf)

theorem WritesAtMost.of_act {c : Instr} {wf : Bool} {op : State → State} {ok : Fld → Prop} (hc : ∀ s, exec c s = act wf s (op s))
    (h : ∀ s, SameFields (op s) s ok) : WritesAtMost c ok :=
  WritesAtMost.of_done (op := fun s => if wf then op s else s) hc fun s => SameFields.ite (h s) (SameFields.refl s ok)

theorem SameFields.of_frame {t s : State} {ps : List Part} {ok : Fld → Prop} (h : SameBut t s ps) (hp : .regs ∉ ps := by decide) :
    SameFields t s ok := SameFields.of_regs (h.keeps .regs hp)

theorem SameFields.orTime {t s : State} {fs : List Fld} (h : SameFields t s WithTime) : SameFields t s (WithTimeOr fs) :=
  h.mono fun _ => Or.inl

theorem SameFields.orAmong {t s : State} {fs : List Fld} (h : SameFields t s (Among fs)) : SameFields t s (WithTimeOr fs) :=
  h.mono fun _ => Or.inr

section
variable {s : State}

theorem State.waitUntil_or (n : Nat) (fs : List Fld) : SameFields (s.waitUntil n) s (WithTimeOr fs) := (s.waitUntil_fields n).orTime

/-! ### The array -/

theorem State.stallOver_fields {p : Nat} : SameFields (s.stallOver p) s WithTime :=
  SameFields.ite (SameFields.refl _ _) ((SameFields.onCore _ _ _ _).trans (s.waitUntil_fields _))

theorem State.tileLoaded_fields {p e : Nat} : SameFields (s.tileLoaded p e) s WithTime := by
  unfold State.tileLoaded
  split
  · exact SameFields.refl _ _
  · exact (SameFields.onCore _ _ _ _).trans (s.waitUntil_fields _)

theorem State.weightRewrite_fields {p : Nat} : SameFields (s.weightRewrite p) s (Among [F.CORE_WFILE_WF_SCRUBS p]) := by
  unfold State.weightRewrite
  split
  · exact SameFields.refl _ _
  · exact SameFields.ite (SameFields.refl _ _) ((SameFields.onCore _ _ _ _).trans (SameFields.incIn List.mem_cons_self))

/-! ### A band's line store (R221, R222) -/

/-- The ECC counts of band b's line store are among those that passing time may change. -/
theorem WithTime.lineStore (b : Nat) {f : Fld} (h : Among [F.BAND_LS_ECC_CORRECTED b, F.BAND_LS_ECC_UNCORR b] f) : WithTime f := by
  have hb : bandOf (9 * b) = b := by simp [bandOf]
  refine ⟨9 * b, h.mono fun g hg => List.mem_append_right _ ?_⟩
  simp only [mergeFields, hb, List.mem_cons, List.not_mem_nil, or_false] at hg ⊢
  rcases hg with rfl | rfl <;> simp

theorem SameFields.lineStoreOr {t : State} {b : Nat} {fs : List Fld} (h : SameFields t s (Among [F.BAND_LS_ECC_CORRECTED b, F.BAND_LS_ECC_UNCORR b])) :
    SameFields t s (WithTimeOr fs) := h.mono fun _ hf => Or.inl (WithTime.lineStore b hf)

theorem State.setLsMap_fields {b : Nat} {m : MapOut} : SameFields (s.setLsMap b m) s (WithTimeOr [F.BAND_LS_MAP_QUEUED b]) :=
  (SameFields.setIn List.mem_cons_self).orAmong.trans (SameFields.onBand _ _ _ _)

theorem State.lsCorrected_fields {b : Nat} {ws : List Nat} : SameFields (s.lsCorrected b ws) s (WithTimeOr [F.BAND_LS_MAP_QUEUED b]) :=
  SameFields.foldl (SameFields.lineStoreOr (b := b) (SameFields.incIn List.mem_cons_self)) fun _ _ => State.setLsMap_fields

theorem State.lsUncorr_fields {b w : Nat} : SameFields (s.lsUncorr b w) s (WithTimeOr [F.BAND_LS_MAP_QUEUED b]) :=
  State.setLsMap_fields.trans ((SameFields.onBand _ _ _ _).trans (SameFields.lineStoreOr (b := b) (SameFields.incIn (by simp))))

theorem State.lsRead_fields {b : Nat} {ws ce ue : List Nat} : SameFields (s.lsRead b ws ce ue).1 s (WithTimeOr [F.BAND_LS_MAP_QUEUED b]) :=
  SameFields.foldl (SameFields.ite (SameFields.refl _ _) State.lsCorrected_fields) fun _ _ => State.lsUncorr_fields

theorem State.fbComplete_fields {f y l : Nat} {e : EccIn} : SameFields (s.fbComplete f y l e) s (WithTimeOr [F.BAND_LS_MAP_QUEUED (l / 8)]) := by
  unfold State.fbComplete
  split
  · exact SameFields.refl _ _
  · extract_lets b r rows t words bad px s0 s1 s2
    have h0 : SameFields s0 s (WithTimeOr [F.BAND_LS_MAP_QUEUED (l / 8)]) := State.lsRead_fields.trans (s.waitUntil_or _ _)
    clear_value s0
    have h1 : SameFields s1 s0 (WithTimeOr [F.BAND_LS_MAP_QUEUED (l / 8)]) := SameFields.ite (SameFields.refl _ _) (SameFields.of_regs rfl)
    clear_value s1
    have h2 : SameFields s2 s1 (WithTimeOr [F.BAND_LS_MAP_QUEUED (l / 8)]) := SameFields.of_regs rfl
    clear_value s2
    have hall := h2.trans (h1.trans h0)
    exact SameFields.ite (SameFields.refl _ _) (SameFields.ite ((SameFields.of_frame State.fbClear_frame).trans hall) hall)

/-! ### Threads -/

theorem State.setThreadState_fields {p t v : Nat} {fs : List Fld} (h : F.CORE_THREAD_STATE p ∈ fs) :
    SameFields (s.setThreadState p t v) s (WithTimeOr fs) := (SameFields.setIn h).orAmong

theorem State.setWait_fields {p t : Nat} {w : Wait} {fs : List Fld} (h : F.CORE_THREAD_STATE p ∈ fs) :
    SameFields (s.setWait p t w) s (WithTimeOr fs) := by
  unfold State.setWait
  extract_lets s1 s2
  have h2 : SameFields s2 s (WithTimeOr fs) := (State.setThreadState_fields h).trans (SameFields.of_frame State.onThread_frame)
  exact SameFields.ite (SameFields.trans (SameFields.each (SameFields.refl _ _) fun _ _ =>
    SameFields.ite (SameFields.refl _ _) (State.setThreadState_fields h)) h2) h2

theorem State.issueOp_fields {p t line : Nat} {fs : List Fld} (h : F.CORE_THREAD_STATE p ∈ fs) :
    SameFields (s.issueOp p t line) s (WithTimeOr fs) := by
  unfold State.issueOp State.runOn State.awaitUnit
  refine (SameFields.of_frame State.occupy_frame).trans ((SameFields.of_frame State.beginLine_frame).trans ?_)
  refine (State.setThreadState_fields h).trans ((SameFields.of_frame State.onThread_frame).trans ?_)
  exact (SameFields.of_frame State.rotate_frame).trans ((SameFields.onCore _ _ _ _).trans (s.waitUntil_or _ _))

theorem State.suffixRow_fields {p : Nat} : SameFields (s.suffixRow p) s (WithTimeOr [F.CORE_THREAD_STATE p]) := by
  unfold State.suffixRow
  split
  · exact SameFields.refl _ _
  · extract_lets s0 wait late s1
    have h0 : SameFields s0 s (WithTimeOr [F.CORE_THREAD_STATE p]) := s.waitUntil_or _ _
    have h1 : SameFields s1 s0 (WithTimeOr [F.CORE_THREAD_STATE p]) :=
      (SameFields.onCore _ _ _ _).trans ((SameFields.onCore _ _ _ _).trans (SameFields.of_frame State.chargeWaiting_frame))
    have hset (x : State) (t : Nat) (w : Wait) : SameFields (x.setWait p t w) x (WithTimeOr [F.CORE_THREAD_STATE p]) :=
      State.setWait_fields List.mem_cons_self
    clear_value s1 late wait s0
    refine SameFields.ite (SameFields.ite ((hset _ _ _).trans h0) h0) ?_
    split
    · exact (hset _ _ _).trans (h1.trans h0)
    · exact h1.trans h0

theorem State.slotWrite_fields {p t line n y : Nat} : SameFields (s.slotWrite p t line n y) s (WithTimeOr [F.CORE_THREAD_STATE p]) := by
  unfold State.slotWrite
  extract_lets r b s1
  have h1 : SameFields s1 s (WithTimeOr [F.CORE_THREAD_STATE p]) := State.issueOp_fields List.mem_cons_self
  clear_value s1
  exact SameFields.ite (SameFields.refl _ _) (SameFields.ite ((SameFields.of_frame State.lsMark_frame).trans h1)
    ((State.setWait_fields List.mem_cons_self).trans h1))

theorem State.awaitTile_fields {p t line e : Nat} : SameFields (s.awaitTile p t line e) s (WithTimeOr [F.CORE_THREAD_STATE p]) := by
  unfold State.awaitTile
  extract_lets s1
  have h1 : SameFields s1 s (WithTimeOr [F.CORE_THREAD_STATE p]) := State.issueOp_fields List.mem_cons_self
  clear_value s1
  exact SameFields.ite (SameFields.refl _ _) (SameFields.ite ((State.setWait_fields List.mem_cons_self).trans h1) h1)

theorem State.barrierArrive_fields {p t line g : Nat} : SameFields (s.barrierArrive p t line g) s (WithTimeOr [F.CORE_THREAD_STATE p]) := by
  unfold State.barrierArrive
  split
  · exact SameFields.refl _ _
  · extract_lets s1 failed
    have h1 : SameFields s1 s (WithTimeOr [F.CORE_THREAD_STATE p]) :=
      (SameFields.of_frame State.arriveBarrier_frame).trans (State.issueOp_fields List.mem_cons_self)
    clear_value failed s1
    exact SameFields.ite (SameFields.refl _ _) (SameFields.ite h1 ((State.setWait_fields List.mem_cons_self).trans h1))

theorem State.semTake_fields {p who i : Nat} {line : Bool} {fs : List Fld} (h : F.CORE_SEM_COUNT p i ∈ fs) :
    SameFields (s.semTake p who i line) s (WithTimeOr fs) :=
  (SameFields.onCore _ _ _ _).trans ((SameFields.of_frame State.takeItem_frame).trans (SameFields.setIn h).orAmong)

theorem State.swapTook_fields {p i who u : Nat} {fs : List Fld} (h : F.CORE_THREAD_STATE p ∈ fs) :
    SameFields (s.swapTook p i who u) s (WithTimeOr fs) := by
  unfold State.swapTook
  extract_lets s1 back
  have h1 : SameFields s1 s (WithTimeOr fs) := SameFields.onCore _ _ _ _
  clear_value s1
  exact SameFields.ite ((State.setWait_fields h).trans h1) ((SameFields.of_frame State.onEng_frame).trans h1)

theorem State.threadWait_fields {p t line i : Nat} :
    SameFields (s.threadWait p t line i) s (WithTimeOr [F.CORE_SEM_COUNT p i, F.CORE_THREAD_STATE p]) := by
  have hmem : F.CORE_THREAD_STATE p ∈ [F.CORE_SEM_COUNT p i, F.CORE_THREAD_STATE p] := by simp
  unfold State.threadWait
  extract_lets s1
  have h1 : SameFields s1 s (WithTimeOr [F.CORE_SEM_COUNT p i, F.CORE_THREAD_STATE p]) := State.issueOp_fields hmem
  clear_value s1
  refine SameFields.ite (SameFields.refl _ _) (SameFields.ite ((State.semTake_fields List.mem_cons_self).trans h1) ?_)
  split
  · exact (State.swapTook_fields hmem).trans h1
  · exact (State.setWait_fields hmem).trans h1

theorem SameFields.wrapIn {f : Fld} {n : Nat} {fs : List Fld} (h : f ∈ fs) : SameFields (s.wrapF f n) s (Among fs) := by
  intro g hg
  simp only [State.getF, State.wrapF, RegFile.put, RegFile.note_vals]
  exact SMap.get_set_ne _ _ _ _ fun e => hg (Among.of h e)

theorem State.consumeTile_fields {p t line e : Nat} :
    SameFields (s.consumeTile p t line e) s (WithTimeOr [F.ENG_TILES_CONSUMED (coreEng p e), F.CORE_THREAD_STATE p]) :=
  SameFields.ite (SameFields.refl _ _) ((SameFields.wrapIn List.mem_cons_self).orAmong.trans (State.issueOp_fields (by simp)))

/-! ### DRAM's maintenance slots, Drizzle's commits, Frost's lines -/

theorem State.takeMaint_fields {ch : Nat} : SameFields (s.takeMaint ch) s WithTime :=
  (SameFields.of_frame State.onChan_frame).trans (s.waitUntil_fields _)

theorem State.refresh_fields {ch : Nat} : SameFields (s.refresh ch) s WithTime :=
  SameFields.ite (SameFields.refl _ _) ((SameFields.of_frame State.onChan_frame).trans State.takeMaint_fields)

theorem State.scrubWriteback_fields {ch : Nat} : SameFields (s.scrubWriteback ch) s WithTime := by
  unfold State.scrubWriteback
  split
  · exact SameFields.refl _ _
  · exact SameFields.ite (SameFields.refl _ _) ((SameFields.of_frame State.onChan_frame).trans State.takeMaint_fields)

theorem State.commitReady_fields : SameFields s.commitReady s WithTime := by
  unfold State.commitReady
  split
  · exact SameFields.refl _ _
  · extract_lets s1
    have h1 : SameFields s1 s WithTime := (SameFields.of_frame State.writeInactive_frame).trans (s.waitUntil_fields _)
    clear_value s1
    exact SameFields.ite (SameFields.refl _ _) ((SameFields.of_frame State.onDrz_frame).trans ((s1.waitUntil_fields _).trans h1))

theorem State.frost1_fields {f y : Nat} : SameFields (s.frost1 f y) s WithTime := by
  unfold State.frost1
  split
  · exact SameFields.refl _ _
  · next l _ =>
    extract_lets g px s1 fr
    have h1 : SameFields s1 s WithTime := s.waitUntil_fields _
    clear_value s1 fr px
    exact SameFields.ite (SameFields.refl _ _) (SameFields.trans (SameFields.of_regs rfl) h1)

end

end Sys2Proof.Machine

/-! SUPPORT. The register frame of commands that write few registers: fabric, capture, panel, ports, link and supply (O55). -/
namespace Sys2Proof.Machine
set_option Elab.async false

section
variable {s : State}

/-! ### Snapshots and capture -/

theorem State.snapStart_fields : SameFields s.snapStart s (Among [F.FAB_SNAP_STATUS_STATE]) :=
  SameFields.ite (SameFields.trans (SameFields.setIn List.mem_cons_self) (SameFields.of_regs rfl)) (SameFields.refl _ _)

theorem State.snapDone_fields : SameFields s.snapDone s (Among [F.FAB_SNAP_STATUS_STATE, F.FAB_SNAP_STATUS_LPS]) := by
  unfold State.snapDone
  extract_lets n s1 x
  have h1 : SameFields s1 s (Among [F.FAB_SNAP_STATUS_STATE, F.FAB_SNAP_STATUS_LPS]) :=
    SameFields.ite (SameFields.refl _ _) (SameFields.foldl (SameFields.refl _ _) fun _ _ => SameFields.of_regs rfl)
  have hx : SameFields x s (Among [F.FAB_SNAP_STATUS_STATE, F.FAB_SNAP_STATUS_LPS]) :=
    (SameFields.of_frame State.warpCounted_frame).trans h1
  clear_value x s1
  exact SameFields.ite ((SameFields.setsIn (by simp)).trans (SameFields.trans (SameFields.of_regs rfl) hx)) (SameFields.refl _ _)

theorem State.capEnd_fields {r : CapRun} {st m : Nat} : SameFields (s.capEnd r st m) s (Among [F.CMP_CAP_LAST_FRAME]) :=
  (SameFields.of_frame State.onRun_frame).trans ((SameFields.setIn List.mem_cons_self).trans (SameFields.of_frame State.capStatus_frame))

theorem State.captureWrite_fields : SameFields s.captureWrite s (Among [F.CMP_CAP_LAST_FRAME]) := by
  unfold State.captureWrite
  split
  · exact SameFields.refl _ _
  · extract_lets _ s1
    have h1 : SameFields s1 s (Among [F.CMP_CAP_LAST_FRAME]) := SameFields.of_regs rfl
    clear_value s1
    split
    · exact h1
    · extract_lets q s2 s3 r1 s4
      have h2 : SameFields s2 s1 (Among [F.CMP_CAP_LAST_FRAME]) :=
        SameFields.ite (SameFields.refl _ _) (SameFields.of_frame State.capStatus_frame)
      have h4 : SameFields s4 s (Among [F.CMP_CAP_LAST_FRAME]) :=
        (SameFields.of_frame State.onRun_frame).trans ((SameFields.of_frame State.writeMem_frame).trans (h2.trans h1))
      clear_value s4 r1
      refine SameFields.ite (State.capEnd_fields.trans h4) ?_
      split
      · exact SameFields.ite h4 (State.capEnd_fields.trans h4)
      · exact h4

/-! ### The panel link -/

theorem State.lanesNow_fields (P : Fld → Prop) : SameFields s.lanesNow s P := SameFields.of_frame State.lanesNow_frame

theorem State.startTraining_fields {fs : List Fld} (h : F.PNL_STATUS_STATE ∈ fs) : SameFields s.startTraining s (Among fs) := by
  unfold State.startTraining
  extract_lets s1
  have h1 : SameFields s1 s (Among fs) := State.lanesNow_fields _
  clear_value s1
  exact (SameFields.of_frame State.send_frame).trans ((SameFields.of_frame State.onPnl_frame).trans ((SameFields.setIn h).trans h1))

theorem State.trainingStart_fields : SameFields s.trainingStart s (WithTimeOr [F.PNL_STATUS_STATE]) := by
  have hstart (x : State) : SameFields x.startTraining x (WithTimeOr [F.PNL_STATUS_STATE]) :=
    (State.startTraining_fields List.mem_cons_self).orAmong
  exact SameFields.ite (SameFields.refl _ _) (SameFields.ite (hstart s)
    (SameFields.ite ((hstart _).trans (s.waitUntil_or _ _)) (SameFields.refl _ _)))

theorem State.linkRunning_fields : SameFields s.linkRunning s (WithTimeOr [F.PNL_STATUS_STATE, F.PNL_STATUS_RDY]) :=
  SameFields.ite (SameFields.refl _ _) ((SameFields.of_frame State.send_frame).trans ((SameFields.of_frame State.onPnl_frame).trans
    (SameFields.trans (SameFields.setsIn (by simp)).orAmong ((State.lanesNow_fields _).trans (s.waitUntil_or _ _)))))

theorem State.trainingTimeout_fields : SameFields s.trainingTimeout s (WithTimeOr [F.PNL_STATUS_STATE, F.PNL_CNT_TRAIN_FAIL]) := by
  unfold State.trainingTimeout
  extract_lets s1
  have h1 : SameFields s1 s (WithTimeOr [F.PNL_STATUS_STATE, F.PNL_CNT_TRAIN_FAIL]) := (State.lanesNow_fields _).trans (s.waitUntil_or _ _)
  clear_value s1
  exact SameFields.ite (SameFields.refl _ _) ((SameFields.of_frame State.onPnl_frame).trans
    (SameFields.trans (SameFields.trans (SameFields.setIn (by simp)) (SameFields.incIn (by simp))).orAmong h1))

theorem State.safeEnd_fields : SameFields s.safeEnd s (WithTimeOr [F.PNL_STATUS_STATE]) := by
  unfold State.safeEnd
  split
  · exact SameFields.refl _ _
  · extract_lets s1
    have h1 : SameFields s1 s (WithTimeOr [F.PNL_STATUS_STATE]) := (SameFields.of_frame State.onPnl_frame).trans (s.waitUntil_or _ _)
    clear_value s1
    exact SameFields.ite ((State.startTraining_fields List.mem_cons_self).orAmong.trans h1) h1

/-- What a data stripe's command reaches: the blocks up to its own. -/
theorem State.stripe_fields {t : Nat} : SameFields (s.stripe t) s WithTime :=
  SameFields.ite (SameFields.refl _ _) ((SameFields.of_frame State.blocksTo_frame).trans
    ((SameFields.of_frame State.onPnl_frame).trans (s.waitUntil_fields _)))

theorem SameFields.uncountIn {f : Fld} {n : Nat} {fs : List Fld} (h : f ∈ fs) : SameFields (s.uncountF f n) s (Among fs) := by
  intro g hg
  simp only [State.getF, State.uncountF, RegFile.put, RegFile.note_vals]
  exact SMap.get_set_ne _ _ _ _ fun e => hg (Among.of h e)

/-- The fields that a retraining or the entry into SAFE writes of the panel link's (R394, R405, R407). -/
def panelFields : List Fld := [F.PNL_STATUS_STATE, F.PNL_CNT_RETRAINS, F.PNL_PKT_TRUNC, F.PNL_LOST_LINES_LOST]

theorem State.overrulePhase0_fields : SameFields s.overrulePhase0 s (Among panelFields) := by
  unfold State.overrulePhase0
  split
  · next t n b _ =>
    extract_lets s1
    have h1 : SameFields s1 s (Among panelFields) :=
      (SameFields.of_frame State.onPnl_frame).trans (SameFields.uncountIn (by simp [panelFields]))
    clear_value s1
    exact SameFields.ite (SameFields.refl _ _) (SameFields.ite ((SameFields.incIn (by simp [panelFields])).trans h1) h1)
  · exact SameFields.refl _ _

theorem State.overruleRetrain_fields : SameFields s.overruleRetrain s (Among panelFields) := by
  unfold State.overruleRetrain
  split
  · exact SameFields.ite ((SameFields.of_frame State.onPnl_frame).trans (SameFields.uncountIn (by simp [panelFields]))) (SameFields.refl _ _)
  · exact SameFields.refl _ _

theorem State.retrainNow_fields : SameFields s.retrainNow s (Among panelFields) := by
  unfold State.retrainNow
  extract_lets n s1 s2
  have h1 : SameFields s1 s (Among panelFields) := State.overrulePhase0_fields
  clear_value s1
  have hcount : SameFields ((s1.incF F.PNL_CNT_RETRAINS 1).onPnl fun p => { p with retrained := some (s.now, n) }) s1 (Among panelFields) :=
    (SameFields.of_frame State.onPnl_frame).trans (SameFields.incIn (by simp [panelFields]))
  have h2 : SameFields s2 s1 (Among panelFields) := by
    unfold s2
    split
    · exact SameFields.ite (SameFields.refl _ _) hcount
    · exact hcount
  exact (State.startTraining_fields (by simp [panelFields])).trans (h2.trans h1)

theorem State.rdyLow_fields : SameFields s.rdyLow s (Among [F.PNL_STATUS_STATE, F.PNL_STATUS_RDY, F.PNL_CNT_RETRAINS, F.PNL_PKT_TRUNC,
    F.PNL_LOST_LINES_LOST]) := by
  unfold State.rdyLow
  extract_lets s1
  have h1 : SameFields s1 s (Among [F.PNL_STATUS_STATE, F.PNL_STATUS_RDY, F.PNL_CNT_RETRAINS, F.PNL_PKT_TRUNC, F.PNL_LOST_LINES_LOST]) :=
    (SameFields.of_frame State.onPnl_frame).trans (SameFields.setIn (by simp))
  clear_value s1
  exact SameFields.ite ((State.retrainNow_fields.widen (by simp [panelFields])).trans h1) h1

theorem State.safeEnter_fields {cause : Nat} : SameFields (s.safeEnter cause) s (Among (F.PNL_STATUS_SAFE_CAUSE :: panelFields)) := by
  unfold State.safeEnter
  extract_lets s1 s2
  have h1 : SameFields s1 s (Among (F.PNL_STATUS_SAFE_CAUSE :: panelFields)) := SameFields.of_frame State.onPnl_frame
  have h2 : SameFields s2 s (Among (F.PNL_STATUS_SAFE_CAUSE :: panelFields)) :=
    (State.lanesNow_fields _).trans ((State.overruleRetrain_fields.trans State.overrulePhase0_fields).widen (by simp))
  clear_value s1 s2
  refine SameFields.ite (SameFields.ite ((SameFields.setIn List.mem_cons_self).trans h1) h1) ?_
  exact (SameFields.of_frame State.send_frame).trans ((SameFields.of_frame State.onPnl_frame).trans
    ((SameFields.setsIn (by simp [panelFields])).trans h2))

theorem State.removeFall_fields : SameFields s.removeFall s (Among [F.DEV_HOTPLUG_REMOVED, F.DEV_HOTPLUG_WSTOP, F.DEV_HOTPLUG_NOR_STOP,
    F.PNL_STATUS_STATE, F.PNL_STATUS_SAFE_CAUSE, F.PNL_CNT_RETRAINS, F.PNL_PKT_TRUNC, F.PNL_LOST_LINES_LOST]) := by
  unfold State.removeFall
  extract_lets s1
  have h1 : SameFields s1 s (Among [F.DEV_HOTPLUG_REMOVED, F.DEV_HOTPLUG_WSTOP, F.DEV_HOTPLUG_NOR_STOP, F.PNL_STATUS_STATE,
      F.PNL_STATUS_SAFE_CAUSE, F.PNL_CNT_RETRAINS, F.PNL_PKT_TRUNC, F.PNL_LOST_LINES_LOST]) :=
    (SameFields.setsIn (by simp)).trans (State.safeEnter_fields.widen (by simp [panelFields]))
  clear_value s1
  exact SameFields.trans (SameFields.of_regs rfl) h1

/-! ### The ports -/

theorem State.hpdEnd_fields {n : Nat} : SameFields (s.hpdEnd n) s WithTime := by
  unfold State.hpdEnd
  split
  · exact SameFields.refl _ _
  · exact (SameFields.of_frame State.onPort_frame).trans (s.waitUntil_fields _)

theorem State.sdpIn_fields {n : Nat} {d : Sdp} : SameFields (s.sdpIn n d) s (Among [F.INP_PORT_STATUS_ENC n, F.INP_PORT_STATUS_BPC n]) := by
  cases d with
  | vsc enc col bpc => exact (SameFields.of_frame State.onPort_frame).trans (SameFields.setsIn (by simp))
  | hdr data => exact SameFields.of_frame State.onPort_frame
  | other => exact SameFields.refl _ _

/-- A sink's interrupt leaves the registers. -/
theorem State.sinkIrq_fields {t : State} {n : Nat} (P : Fld → Prop) : SameFields (s.sinkIrq t n) t P := fun f _ => State.getF_sinkIrq s t n f

/-- A loss is noted at a port: SIGNAL and its cause. -/
theorem State.portLoss_fields {n : Nat} {g : PortSt → PortSt} (x : State) {fs : List Fld} (h : lossFields n ⊆ fs) :
    SameFields (s.sinkIrq ((x.onPort n g).signalCheck n) n) x (Among fs) :=
  (State.sinkIrq_fields _).trans (((State.signalCheck_fields _ n).widen h).trans (SameFields.of_frame State.onPort_frame))

theorem State.hdcpAuth_fields {n : Nat} {ok : Bool} : SameFields (s.hdcpAuth n ok) s (Among [F.INP_PORT_STATUS_AUTH n,
    F.INP_PORT_STATUS_SIGNAL n, F.INP_PPS_REJECTS_NOSIG_CAUSE]) :=
  SameFields.trans (State.portLoss_fields _ (by simp [lossFields])) (SameFields.setIn List.mem_cons_self)

theorem State.ppsIn_fields {n : Nat} {q : Pps} : SameFields (s.ppsIn n q) s (Among [F.INP_PORT_STATUS_PPS_REASON n,
    F.INP_PORT_STATUS_SIGNAL n, F.INP_PPS_REJECTS_NOSIG_CAUSE, F.INP_PPS_REJECTS_REJECTS]) := by
  unfold State.ppsIn
  extract_lets r s1 alone
  have h1 : SameFields s1 s (Among [F.INP_PORT_STATUS_PPS_REASON n, F.INP_PORT_STATUS_SIGNAL n, F.INP_PPS_REJECTS_NOSIG_CAUSE,
      F.INP_PPS_REJECTS_REJECTS]) := (SameFields.incIn (by simp)).trans (SameFields.setIn (by simp))
  clear_value alone s1
  exact SameFields.ite (SameFields.of_frame State.onPort_frame) ((State.portLoss_fields s1 (by simp [lossFields])).trans h1)

theorem State.lose_fields {n : Nat} {c : LossCause} : SameFields (s.lose n c) s (WithTimeOr [F.INP_PORT_STATUS_SIGNAL n,
    F.INP_PPS_REJECTS_NOSIG_CAUSE]) := by
  have hloss (x : State) (g : PortSt → PortSt) : SameFields (x.sinkIrq ((x.onPort n g).signalCheck n) n) x
      (WithTimeOr [F.INP_PORT_STATUS_SIGNAL n, F.INP_PPS_REJECTS_NOSIG_CAUSE]) := (State.portLoss_fields x (by simp [lossFields])).orAmong
  cases c with
  | lock => exact (hloss _ _).trans (s.waitUntil_or _ _)
  | vblank => exact (hloss _ _).trans (s.waitUntil_or _ _)

/-! ### The control link -/

/-- The fields that a request's handling writes beside its operation's own (R478, R482). -/
def requestFields (fs : List Fld) : List Fld := replyCounts ++ (F.TPL_SEQ_LAST_SEQ :: fs)

theorem State.serve_fields {op : Nat} {run : State → Req → Option Accepted → State} {fs : List Fld}
    (h : ∀ x r au, SameFields (run x r au) x (Among (requestFields fs))) : SameFields (s.serve op run) s (Among (requestFields fs)) := by
  have hreply : replyCounts ⊆ requestFields fs := List.subset_append_left _ _
  have hfinish (x : State) (r : Req) (au : Option Accepted) (st : Nat) (p : List Byte) :
      SameFields (x.finish r au st p) x (Among (requestFields fs)) := State.finish_fields.widen hreply
  have hgo (x : State) (r : Req) (au : Option Accepted) :
      SameFields (match x.notServed r with | some st => x.finish r au st [] | none => run x r au) x (Among (requestFields fs)) := by
    split
    · exact hfinish _ _ _ _ _
    · exact h _ _ _
  unfold State.serve
  split
  · exact SameFields.refl _ _
  · next r rest _ =>
    refine SameFields.ite (SameFields.refl _ _) (SameFields.ite ?_ (SameFields.ite (hfinish _ _ _ _ _) (hgo _ _ _)))
    split
    · exact hfinish _ _ _ _ _
    · next m _ => exact (State.answerBad_fields.trans (s.replyAgain_kept r m).2.1).widen hreply
    · next a _ =>
      have hnote : SameFields (s.noteAccepted a) s (Among (requestFields fs)) :=
        (SameFields.of_frame State.onTpl_frame).trans (SameFields.setIn (by simp [requestFields]))
      exact (hgo _ _ _).trans hnote

theorem State.finish_request {r : Req} {au : Option Accepted} {st : Nat} {p : List Byte} {fs : List Fld} :
    SameFields (s.finish r au st p) s (Among (requestFields fs)) := State.finish_fields.widen (List.subset_append_left _ _)

theorem State.tplIdent_fields : SameFields s.tplIdent s (Among (requestFields [])) :=
  State.serve_fields fun _ _ _ => SameFields.ite State.finish_request State.finish_request

theorem State.tplStatus_fields : SameFields s.tplStatus s (Among (requestFields [])) :=
  State.serve_fields fun _ _ _ => SameFields.ite State.finish_request
    (SameFields.ite (SameFields.of_frame State.onTpl_frame) State.finish_request)

theorem State.tplRecords_fields : SameFields s.tplRecords s (Among (requestFields [])) :=
  State.serve_fields fun _ _ _ => SameFields.ite State.finish_request (SameFields.ite State.finish_request State.finish_request)

theorem State.tplReset_fields : SameFields s.tplReset s (Among (requestFields [])) :=
  State.serve_fields fun _ _ _ => SameFields.ite State.finish_request ((SameFields.of_frame State.startReset_frame).trans State.finish_request)

theorem State.hostMemRead_fields {a n : Nat} {fs : List Fld} (h : F.DRM_HOST_REFUSED ∈ fs) : SameFields (s.hostMemRead a n).2.2 s (Among fs) := by
  unfold State.hostMemRead
  extract_lets o
  split
  · exact SameFields.refl _ _
  · split
    · exact SameFields.incIn h
    · split <;> exact SameFields.refl _ _

theorem State.tplReadMem_fields : SameFields s.tplReadMem s (Among (requestFields [F.DRM_HOST_REFUSED])) :=
  State.serve_fields fun _ _ _ => SameFields.ite State.finish_request
    (State.finish_request.trans (State.hostMemRead_fields (by simp [requestFields])))

theorem State.tplAttest_fields : SameFields s.tplAttest s (Among (requestFields [F.SEC_ATTEST_ATTESTS])) :=
  State.serve_fields fun _ _ _ => SameFields.ite State.finish_request (SameFields.ite State.finish_request (SameFields.ite State.finish_request
    (State.finish_request.trans ((SameFields.incIn (by simp [requestFields])).trans (SameFields.of_frame State.fresh_frame)))))

theorem State.tplChallenge_fields : SameFields s.tplChallenge s (Among (requestFields [F.SEC_AUTH_CHAL])) :=
  State.serve_fields fun _ _ _ => SameFields.ite State.finish_request (SameFields.ite State.finish_request
    (State.finish_request.trans ((SameFields.setIn (by simp [requestFields])).trans ((SameFields.of_frame State.onTpl_frame).trans
      ((SameFields.of_frame State.fresh_frame).trans (SameFields.of_frame State.fresh_frame))))))

theorem State.tplClose_fields : SameFields s.tplClose s (Among (requestFields [F.TPL_SESSION_OPEN])) :=
  State.serve_fields fun _ _ _ => SameFields.ite State.finish_request (State.finish_request.trans
    ((SameFields.of_frame State.onTpl_frame).trans (SameFields.setIn (by simp [requestFields]))))

end

end Sys2Proof.Machine

/-! SUPPORT. The register frame of commands that write few registers: the link, records, the log, time limits and supplies; O55. -/
namespace Sys2Proof.Machine
set_option Elab.async false

section
variable {s : State}

/-! ### The physical link and its frames -/

theorem State.phyUp_fields {m : Bool} : SameFields (s.phyUp m) s (Among [F.TPL_LINK_STATE, F.TPL_LINK_MASTER]) :=
  SameFields.ite (SameFields.setsIn (by simp)) (SameFields.refl _ _)

theorem State.phyDown_fields {r : Bool} : SameFields (s.phyDown r) s (Among [F.TPL_LINK_STATE, F.TPL_ERR_LINK_DOWNS]) :=
  SameFields.ite ((SameFields.incIn (by simp)).trans (SameFields.setIn (by simp))) (SameFields.refl _ _)

theorem State.takeRequest_fields {r : Req} :
    SameFields (s.takeRequest r) s (Among (replyCounts ++ [F.TPL_ERR_RX_DROP, F.TPL_RX_DISCARDED])) :=
  SameFields.ite (SameFields.incIn (by simp)) (SameFields.ite (SameFields.incIn (by simp))
    ((State.answerBad_fields.widen (List.subset_append_left _ _)).trans (SameFields.of_frame State.onTpl_frame)))

theorem State.frameRx_fields {f : List Byte} {fcs : Bool} :
    SameFields (s.frameRx f fcs) s (Among (replyCounts ++ [F.TPL_ERR_RX_DROP, F.TPL_RX_DISCARDED])) := by
  have hdiscard : SameFields s.discard s (Among (replyCounts ++ [F.TPL_ERR_RX_DROP, F.TPL_RX_DISCARDED])) :=
    SameFields.incIn (by simp)
  unfold State.frameRx
  refine SameFields.ite (SameFields.refl _ _) ?_
  split
  · exact hdiscard
  · split
    · exact hdiscard
    · exact SameFields.of_frame State.netSend_frame
    · exact SameFields.of_frame State.netSend_frame
    · exact State.takeRequest_fields

/-! ### Frame records, log entries and replays -/

theorem State.recWrite_fields : SameFields s.recWrite s (Among [F.AUD_REC_LAST_REC_LAST]) := by
  unfold State.recWrite
  extract_lets s0
  have h0 : SameFields s0 s (Among [F.AUD_REC_LAST_REC_LAST]) := SameFields.of_frame State.recRefresh_frame
  clear_value s0
  split
  · exact h0
  · extract_lets s1
    have h1 : SameFields s1 s0 (Among [F.AUD_REC_LAST_REC_LAST]) := State.writeMem_fields _
    clear_value s1
    exact SameFields.ite h0 ((SameFields.setIn List.mem_cons_self).trans (SameFields.trans (SameFields.of_regs rfl) (h1.trans h0)))

theorem State.putLost_fields {fs : List Fld} (h : F.AUD_LOG_CNT_LOST ∈ fs) : SameFields s.putLost s (Among fs) :=
  SameFields.ite (SameFields.refl _ _)
    ((SameFields.incIn h).trans (SameFields.trans (SameFields.of_frame State.logPut_frame) (SameFields.of_regs rfl)))

/-- The last stages of a log entry's write: its book-keeping, the pointer and an entry that was lost. -/
theorem State.logTail_fields {x : State} {a : AudSt} {p : Nat} {fs : List Fld} (hp : F.AUD_LOG_PTR_PTR ∈ fs)
    (hl : F.AUD_LOG_CNT_LOST ∈ fs) : SameFields (({ x with aud := a } : State).setF F.AUD_LOG_PTR_PTR p).putLost x (Among fs) :=
  (State.putLost_fields hl).trans ((SameFields.setIn hp).trans (SameFields.of_regs rfl))

theorem State.logWrite_fields :
    SameFields s.logWrite s (Among [F.AUD_LOG_PTR_PTR, F.AUD_LOG_STATUS_STATE, F.AUD_LOG_CNT_LOST]) := by
  unfold State.logWrite
  split
  · extract_lets size a n wrap full _ at_ s1
    clear_value size a n wrap full at_
    have h1 : SameFields s1 s (Among [F.AUD_LOG_PTR_PTR, F.AUD_LOG_STATUS_STATE, F.AUD_LOG_CNT_LOST]) :=
      SameFields.ite (State.writeMem_fields _) (SameFields.refl _ _)
    clear_value s1
    exact SameFields.ite (SameFields.trans (SameFields.setIn (by simp)) (SameFields.of_regs rfl))
      ((State.logTail_fields (by simp) (by simp)).trans h1)
  · exact SameFields.refl _ _

theorem State.replayFinish_fields : SameFields s.replayFinish s (WithTimeOr [F.AUD_REPLAY_STATUS_STATE]) := by
  unfold State.replayFinish
  extract_lets s1
  have h1 : SameFields s1 s (WithTimeOr [F.AUD_REPLAY_STATUS_STATE]) := s.waitUntil_or _ _
  clear_value s1
  exact SameFields.ite (SameFields.refl _ _)
    ((SameFields.setIn List.mem_cons_self).orAmong.trans (SameFields.trans (SameFields.of_regs rfl) h1))

/-! ### Time limits of the control link -/

theorem State.chalExpiry_fields : SameFields s.chalExpiry s (WithTimeOr [F.SEC_AUTH_CHAL]) := by
  unfold State.chalExpiry
  split
  · exact (SameFields.setIn List.mem_cons_self).orAmong.trans ((SameFields.of_frame State.onTpl_frame).trans (s.waitUntil_or _ _))
  · exact SameFields.refl _ _

theorem State.lockoutEnd_fields : SameFields s.lockoutEnd s (WithTimeOr [F.SEC_AUTH_LOCKOUT]) := by
  unfold State.lockoutEnd
  split
  · exact (SameFields.setIn List.mem_cons_self).orAmong.trans ((SameFields.of_frame State.onTpl_frame).trans (s.waitUntil_or _ _))
  · exact SameFields.refl _ _

theorem State.closeSession_fields : SameFields s.closeSession s (Among [F.TPL_SESSION_OPEN]) :=
  (SameFields.of_frame State.onTpl_frame).trans (SameFields.setIn List.mem_cons_self)

theorem State.sessionIdle_fields : SameFields s.sessionIdle s (WithTimeOr [F.TPL_SESSION_OPEN]) := by
  unfold State.sessionIdle
  extract_lets idle
  split
  · exact SameFields.ite (SameFields.refl _ _) (State.closeSession_fields.orAmong.trans (s.waitUntil_or _ _))
  · exact SameFields.refl _ _

/-! ### Supplies -/

theorem State.supplyRecovery_fields {v12 vcore : Nat} : SameFields (s.supplyRecovery v12 vcore) s (Among [F.PWR_SUPPLY_HOLDOFF,
    F.PWR_SUPPLY_V12_WARN, F.PWR_SUPPLY_VCORE_WARN, F.PWR_DIP_MIN_V12_MIN, F.PWR_DIP_MIN_VCORE_MIN]) := by
  unfold State.supplyRecovery
  extract_lets s0
  have h0 : SameFields s0 s (Among [F.PWR_SUPPLY_HOLDOFF, F.PWR_SUPPLY_V12_WARN, F.PWR_SUPPLY_VCORE_WARN, F.PWR_DIP_MIN_V12_MIN,
      F.PWR_DIP_MIN_VCORE_MIN]) := SameFields.setsIn (by simp)
  clear_value s0
  split
  · exact (SameFields.of_frame State.onPwr_frame).trans ((SameFields.setsIn (by simp)).trans h0)
  · exact h0

end

end Sys2Proof.Machine

namespace Sys2Proof
set_option Elab.async false
open Sys2Proof.Machine

/-- Settles O55: the register frame of each listed command is that of the operation that it runs. -/
theorem fewRegistersAreWritten : Obligations.FewRegistersAreWritten := by
  unfold Obligations.FewRegistersAreWritten
  exact ⟨fun _ => .of_act (fun _ => rfl) fun _ => State.stallOver_fields,
    fun _ _ => .of_act (fun _ => rfl) fun _ => State.tileLoaded_fields,
    fun _ _ _ => .of_act (fun _ => rfl) fun _ => State.fbComplete_fields,
    fun _ _ => .of_done (fun _ => rfl) fun _ => State.frost1_fields,
    fun _ => .of_done (fun _ => rfl) fun _ => State.stripe_fields,
    fun _ => .of_act (fun _ => rfl) fun _ => State.refresh_fields,
    fun _ => .of_act (fun _ => rfl) fun _ => State.scrubWriteback_fields,
    .of_done (fun _ => rfl) fun _ => State.commitReady_fields,
    fun _ => .of_act (fun _ => rfl) fun _ => State.hpdEnd_fields,
    fun _ => .of_act (fun _ => rfl) fun _ => State.weightRewrite_fields,
    fun _ => .of_act (fun _ => rfl) fun _ => State.suffixRow_fields,
    fun _ _ _ _ _ => .of_act (fun _ => rfl) fun _ => State.slotWrite_fields,
    fun _ _ _ _ => .of_act (fun _ => rfl) fun _ => State.awaitTile_fields,
    fun _ _ _ _ => .of_act (fun _ => rfl) fun _ => State.barrierArrive_fields,
    fun _ _ _ _ => .of_act (fun _ => rfl) fun _ => State.threadWait_fields,
    fun _ _ _ _ => .of_act (fun _ => rfl) fun _ => State.consumeTile_fields,
    .of_done (fun _ => rfl) fun _ => State.snapStart_fields,
    .of_done (fun _ => rfl) fun _ => State.snapDone_fields,
    .of_done (fun _ => rfl) fun _ => State.captureWrite_fields,
    .of_done (fun _ => rfl) fun _ => State.recWrite_fields,
    .of_done (fun _ => rfl) fun _ => State.logWrite_fields,
    .of_done (fun _ => rfl) fun _ => State.replayFinish_fields,
    .of_done (fun _ => rfl) fun _ => State.trainingStart_fields,
    .of_done (fun _ => rfl) fun _ => State.linkRunning_fields,
    .of_done (fun _ => rfl) fun _ => State.trainingTimeout_fields,
    .of_done (fun _ => rfl) fun _ => State.safeEnd_fields,
    .of_done (fun _ => rfl) fun _ => State.rdyLow_fields,
    fun _ _ => .of_act (fun _ => rfl) fun _ => State.sdpIn_fields,
    fun _ _ => .of_act (fun _ => rfl) fun _ => State.hdcpAuth_fields,
    fun _ _ => .of_act (fun _ => rfl) fun _ => State.ppsIn_fields,
    fun _ _ => .of_act (fun _ => rfl) fun _ => State.lose_fields,
    fun _ => .of_done (fun _ => rfl) fun _ => State.phyUp_fields,
    fun _ => .of_done (fun _ => rfl) fun _ => State.phyDown_fields,
    fun _ _ => .of_done (fun _ => rfl) fun _ => State.frameRx_fields,
    .of_done (fun _ => rfl) fun _ => State.tplIdent_fields,
    .of_done (fun _ => rfl) fun _ => State.tplStatus_fields,
    .of_done (fun _ => rfl) fun _ => State.tplRecords_fields,
    .of_done (fun _ => rfl) fun _ => State.tplReset_fields,
    .of_done (fun _ => rfl) fun _ => State.tplReadMem_fields,
    .of_done (fun _ => rfl) fun _ => State.tplAttest_fields,
    .of_done (fun _ => rfl) fun _ => State.tplChallenge_fields,
    .of_done (fun _ => rfl) fun _ => State.tplClose_fields,
    .of_done (fun _ => rfl) fun _ => State.chalExpiry_fields,
    .of_done (fun _ => rfl) fun _ => State.lockoutEnd_fields,
    .of_done (fun _ => rfl) fun _ => State.sessionIdle_fields,
    fun _ _ => .of_act (fun _ => rfl) fun _ => State.supplyRecovery_fields,
    .of_done (fun _ => rfl) fun _ => State.removeFall_fields⟩

end Sys2Proof

/-! SUPPORT. The DRAM's lottery and the order in which its channels serve (R414, R415, R426); O37, O38. -/
namespace Sys2Proof.Machine
set_option Elab.async false

/-! ### The lottery -/

/-- The pick falls to the member whose cumulative tickets first exceed it (R426). -/
theorem pickTicket_spec (tk : Nat → Nat) (pick : Nat) (qs : List Nat) (sum : Nat) (hlo : sum ≤ pick) (hhi : pick < sum + (qs.map tk).sum) :
    ∃ q pre post, pickTicket tk pick sum qs = some q ∧ qs = pre ++ q :: post ∧ sum + (pre.map tk).sum ≤ pick ∧
      pick < sum + (pre.map tk).sum + tk q := by
  induction qs generalizing sum with
  | nil => simp at hhi; omega
  | cons q qs ih =>
    rw [pickTicket]
    by_cases hq : pick < sum + tk q
    · exact ⟨q, [], qs, if_pos hq, rfl, by simpa using hlo, by simpa using hq⟩
    · rw [List.map_cons, List.sum_cons] at hhi
      obtain ⟨r, pre, post, hr, hqs, h1, h2⟩ := ih (sum + tk q) (by omega) (by omega)
      refine ⟨r, q :: pre, post, (if_neg hq).trans hr, by rw [hqs]; rfl, ?_, ?_⟩
      · rw [List.map_cons, List.sum_cons]; omega
      · rw [List.map_cons, List.sum_cons]; omega

/-- Sixteen bits of a draw pick a place below the sum of the tickets. -/
theorem pick_lt {l n : Nat} (h : 0 < n) : l % 65536 * n / 65536 < n := by
  rw [Nat.div_lt_iff_lt_mul (by decide), Nat.mul_comm n]
  exact Nat.mul_lt_mul_of_pos_right (Nat.mod_lt _ (by decide)) h

/-! ### What a channel serves -/

/-- A fold of minima is a lower bound of the values, and one of them or the start. -/
theorem foldl_min_spec {α : Type} (g : α → Nat) (l : List α) (z : Nat) :
    (l.foldl (fun m a => min m (g a)) z = z ∨ ∃ a ∈ l, g a = l.foldl (fun m a => min m (g a)) z) ∧
    l.foldl (fun m a => min m (g a)) z ≤ z ∧ ∀ a ∈ l, l.foldl (fun m a => min m (g a)) z ≤ g a := by
  induction l generalizing z with
  | nil => exact ⟨.inl rfl, le_refl z, by simp⟩
  | cons b l ih =>
    rw [List.foldl_cons]
    obtain ⟨hsome, hle, hall⟩ := ih (min z (g b))
    refine ⟨?_, by omega, fun a ha => ?_⟩
    · rcases hsome with h | ⟨a, ha, h⟩
      · by_cases hz : z ≤ g b
        · left; omega
        · exact .inr ⟨b, List.mem_cons_self, by omega⟩
      · exact .inr ⟨a, List.mem_cons_of_mem _ ha, h⟩
    · rcases List.mem_cons.mp ha with rfl | ha
      · omega
      · exact hall a ha

theorem tierOf_lt (port q : Nat) : tierOf port q < 99 := by
  have hlist (l : List Nat) (h : ∀ x ∈ l, x < 99) : l.getD q 0 < 99 := by
    rw [List.getD_eq_getElem?_getD]
    cases hq : l[q]? with
    | none => decide
    | some x => exact h x (List.mem_of_getElem? hq)
  unfold tierOf
  split
  · split
    · decide
    · split <;> decide
  · split
    · exact hlist _ (by decide)
    · exact hlist _ (by decide)

/-- An access that R414 permits stands behind no access to its block. -/
theorem permitted_split {seen : List Nat} {l : List DramAcc} {a : DramAcc} (h : a ∈ permitted seen l) :
    a.off / 64 ∉ seen ∧ ∃ pre post, l = pre ++ a :: post ∧ ∀ x ∈ pre, x.off / 64 ≠ a.off / 64 := by
  induction l generalizing seen with
  | nil => simp [permitted] at h
  | cons b l ih =>
    rw [permitted] at h
    by_cases hb : seen.contains (b.off / 64)
    · obtain ⟨hseen, pre, post, rfl, hpre⟩ := ih (by rwa [if_pos hb] at h)
      refine ⟨hseen, b :: pre, post, rfl, fun x hx => ?_⟩
      rcases List.mem_cons.mp hx with rfl | hx
      · exact fun e => hseen (e ▸ List.contains_iff_mem.mp hb)
      · exact hpre x hx
    · rw [if_neg hb] at h
      rcases List.mem_cons.mp h with rfl | h
      · exact ⟨fun hm => hb (List.contains_iff_mem.mpr hm), [], l, rfl, by simp⟩
      · obtain ⟨hseen, pre, post, rfl, hpre⟩ := ih h
        refine ⟨fun hm => hseen (List.mem_cons_of_mem _ hm), b :: pre, post, rfl, fun x hx => ?_⟩
        rcases List.mem_cons.mp hx with rfl | hx
        · exact fun e => hseen (e ▸ List.mem_cons_self)
        · exact hpre x hx

/-- Taking a permitted access out of the queue takes its first occurrence. -/
theorem erase_permitted {l : List DramAcc} {a : DramAcc} (h : a ∈ permitted [] l) :
    ∃ pre post, l = pre ++ a :: post ∧ l.erase a = pre ++ post ∧ ∀ x ∈ pre, x.off / 64 ≠ a.off / 64 := by
  obtain ⟨-, pre, post, rfl, hpre⟩ := permitted_split h
  refine ⟨pre, post, rfl, ?_, hpre⟩
  rw [List.erase_append_right _ fun hm => hpre a hm rfl, List.erase_cons_head]

theorem permitted_ne_nil {l : List DramAcc} (h : l ≠ []) : permitted [] l ≠ [] := by
  cases l with
  | nil => exact absurd rfl h
  | cons a l => simp [permitted]

/-- The choice by tier: some access of the lowest tier among those permitted, an open row first. -/
theorem lowestTier_choice (open_ : DramAcc → Bool) {l : List DramAcc} (h : l ≠ []) :
    ∃ a ∈ l, (match (l.filter fun a => tierOf a.port a.q == l.foldl (fun m a => min m (tierOf a.port a.q)) 99).find? open_ with
      | some a => some a
      | none => (l.filter fun a => tierOf a.port a.q == l.foldl (fun m a => min m (tierOf a.port a.q)) 99).head?) = some a ∧
      ∀ x ∈ l, tierOf a.port a.q ≤ tierOf x.port x.q := by
  obtain ⟨hsome, -, hmin⟩ := foldl_min_spec (fun a : DramAcc => tierOf a.port a.q) l 99
  generalize l.foldl (fun m a => min m (tierOf a.port a.q)) 99 = t at *
  have hle {a : DramAcc} (ha : a ∈ l.filter fun a => tierOf a.port a.q == t) : a ∈ l ∧ ∀ x ∈ l, tierOf a.port a.q ≤ tierOf x.port x.q := by
    obtain ⟨hl, ht⟩ := List.mem_filter.mp ha
    exact ⟨hl, fun x hx => beq_iff_eq.mp ht ▸ hmin x hx⟩
  split
  · next a ha => exact ⟨a, (hle (List.mem_of_find?_eq_some ha)).1, rfl, (hle (List.mem_of_find?_eq_some ha)).2⟩
  · have hne : (l.filter fun a => tierOf a.port a.q == t) ≠ [] := by
      rcases hsome with hz | ⟨a, ha, hat⟩
      · obtain ⟨a, ha⟩ := List.exists_mem_of_ne_nil l h
        have h1 := hmin a ha
        have h2 := tierOf_lt a.port a.q
        omega
      · exact List.ne_nil_of_mem (List.mem_filter.mpr ⟨ha, beq_iff_eq.mpr hat⟩)
    obtain ⟨a, e, he⟩ := List.exists_cons_of_ne_nil hne
    have ha := hle (a := a) (he ▸ List.mem_cons_self)
    exact ⟨a, ha.1, by rw [he]; rfl, ha.2⟩

/-- A channel with queued accesses serves one that is permitted: in an ordinary slot one of the lowest tier, in a maintenance
slot the host's where it has one (R415). -/
theorem ChanSt.serves_spec {c : ChanSt} {slot : Nat} (h : c.queue ≠ []) :
    ∃ a ∈ permitted [] c.queue, c.serves slot = some a ∧
      (slot % 32 ≠ 31 → ∀ x ∈ permitted [] c.queue, tierOf a.port a.q ≤ tierOf x.port x.q) ∧
      (slot % 32 = 31 → (∃ x ∈ permitted [] c.queue, x.host = true) → a.host = true) := by
  obtain ⟨b, hb, hpick, hlow⟩ := lowestTier_choice
    (fun a => SMap.get none c.openRow (dramBank a.off) == some (dramRow a.off)) (permitted_ne_nil h)
  unfold Sys2Proof.ChanSt.serves
  dsimp only
  by_cases hm : slot % 32 = 31
  · rw [if_pos (show maintenance slot = true from beq_iff_eq.mpr hm)]
    cases hf : (permitted [] c.queue).find? (·.host) with
    | some a => exact ⟨a, List.mem_of_find?_eq_some hf, rfl, fun hn => absurd hm hn, fun _ _ => List.find?_some hf⟩
    | none =>
      refine ⟨b, hb, hpick, fun hn => absurd hm hn, fun _ ⟨x, hx, hhost⟩ => ?_⟩
      exact absurd hhost (List.find?_eq_none.mp hf x hx)
  · rw [if_neg (show ¬ maintenance slot = true from fun e => hm (beq_iff_eq.mp e))]
    exact ⟨b, hb, hpick, fun _ => hlow, fun e => absurd e hm⟩

/-! ### A channel's state -/

section
variable {s : State}

theorem State.chan_of_drm {t : State} (h : t.drm = s.drm) (c : Nat) : t.chan c = s.chan c := by rw [State.chan, h]; rfl

@[simp] theorem State.chan_onChan (c : Nat) (f : ChanSt → ChanSt) : (s.onChan c f).chan c = f (s.chan c) :=
  SMap.get_set_self _ _ _ _

@[simp] theorem State.chan_onArb (c p : Nat) (f : ArbSt → ArbSt) : (s.onArb p f).chan c = s.chan c := rfl

@[simp] theorem State.chan_waitUntil (c n : Nat) : (s.waitUntil n).chan c = s.chan c :=
  State.chan_of_drm (State.waitUntil_frame.keeps .drm (by decide)) c

/-- The parts of the DRAM that ECC leaves alone: its channels, its ports and the rows replaced. -/
def State.dramHeld (s : State) : SMap ChanSt × SMap ArbSt × List Nat := (s.drm.chans, s.drm.arbs, s.drm.mapped)

theorem State.dramHeld_iff {t : State} :
    t.dramHeld = s.dramHeld ↔ t.drm.chans = s.drm.chans ∧ t.drm.arbs = s.drm.arbs ∧ t.drm.mapped = s.drm.mapped := by
  simp [State.dramHeld]

theorem State.dramHeld_of_drm {t : State} (h : t.drm = s.drm) : t.dramHeld = s.dramHeld := by rw [State.dramHeld, h]; rfl

theorem State.setDramMap_held {die : Nat} {m : MapOut} : (s.setDramMap die m).dramHeld = s.dramHeld := by
  refine (State.dramHeld_of_drm (State.setF_frame.keeps .drm (by decide))).trans rfl

theorem foldl_dramHeld {α : Type} {g : State → α → State} (l : List α) (h : ∀ x a, (g x a).dramHeld = x.dramHeld) (x : State) :
    (l.foldl g x).dramHeld = x.dramHeld := by
  induction l generalizing x with
  | nil => rfl
  | cons a l ih => exact (ih (g x a)).trans (h x a)

theorem State.dramCorrected_held {ws : List Nat} : (s.dramCorrected ws).dramHeld = s.dramHeld := by
  unfold State.dramCorrected
  refine (foldl_dramHeld _ (fun _ _ => State.setDramMap_held) _).trans (foldl_dramHeld _ (fun x w => ?_) _)
  exact State.dramHeld_of_drm ((State.drmLast_frame.keeps .drm (by decide)).trans (State.incF_frame.keeps .drm (by decide)))

theorem State.dramUncorr_held {b : Nat} {ws : List Nat} : (s.dramUncorr b ws).dramHeld = s.dramHeld := by
  unfold State.dramUncorr
  extract_lets s1
  have h1 : s1.dramHeld = s.dramHeld := State.dramHeld_of_drm (Eq.trans (State.drmLast_frame.keeps .drm (by decide))
    (State.incF_frame.keeps .drm (by decide)))
  clear_value s1
  exact State.setDramMap_held.trans h1

theorem State.dramEcc_held {bs : List Nat} {e : EccIn} : (s.dramEcc bs e).dramHeld = s.dramHeld := by
  unfold State.dramEcc
  refine (foldl_dramHeld _ (fun _ _ => State.dramUncorr_held) _).trans ?_
  split
  · rfl
  · exact State.dramCorrected_held

theorem State.chan_of_held {t : State} (h : t.dramHeld = s.dramHeld) (c : Nat) : t.chan c = s.chan c := by
  rw [State.chan, (State.dramHeld_iff.mp h).1]; rfl

@[simp] theorem State.chan_dramEcc (c : Nat) (bs : List Nat) (e : EccIn) : (s.dramEcc bs e).chan c = s.chan c :=
  State.chan_of_held State.dramEcc_held c

/-- A port's kept access joins the queue of its channel, or nothing changes there (R415). -/
theorem State.chan_retryHeld (c : Nat) : ∃ late : List DramAcc, late.length ≤ 1 ∧
    (s.retryHeld c).chan c = { s.chan c with queue := (s.chan c).queue ++ late } := by
  have hnone : ∃ late : List DramAcc, late.length ≤ 1 ∧ s.chan c = { s.chan c with queue := (s.chan c).queue ++ late } :=
    ⟨[], by decide, by rw [List.append_nil]⟩
  unfold State.retryHeld
  split
  · exact hnone
  · split
    · exact hnone
    · next a _ =>
      split
      · exact hnone
      · exact ⟨[a], le_refl 1, by rw [State.chan_onChan, State.chan_onArb]⟩

/-- An access served (R415): it leaves the queue, its row is the open one, and its slots are taken. -/
theorem State.dramAccess_spec {ch slot : Nat} {a : DramAcc} {w : EccIn} (hup : s.dramUp = true) (hne : (s.chan ch).queue ≠ [])
    (hslot : slot = s.accessSlot ch) (ha : (s.chan ch).serves slot = some a) :
    (s.dramAccess ch w).now = max s.now (slotCycle slot) ∧ (s.dramAccess ch w).dram = s.dram ∧
    ∃ late : List DramAcc, late.length ≤ 1 ∧ ((s.dramAccess ch w).chan ch).queue = (s.chan ch).queue.erase a ++ late ∧
      SMap.get none ((s.dramAccess ch w).chan ch).openRow (dramBank a.off) = some (dramRow a.off) ∧
      slot < ((s.dramAccess ch w).chan ch).slot := by
  unfold State.dramAccess
  rw [if_neg (by simp [hup, hne])]
  extract_lets slot' s1
  have hsame : slot' = slot := hslot.symm
  have hnow : s1.now = max s.now (slotCycle slot') := State.waitUntil_now _ _
  have hdram : s1.dram = s.dram := State.waitUntil_frame.keeps .dram (by decide)
  have hchan : s1.chan ch = s.chan ch := State.chan_waitUntil ch _
  clear_value s1 slot'
  subst hsame
  split
  · next h => rw [h] at ha; cases ha
  · next b hb =>
    obtain rfl : b = a := Option.some.inj (hb.symm.trans ha)
    extract_lets rest tiers slots s2 _ s3
    have hslots : 0 < slots := by
      show 0 < if _ then 2 else 1
      split <;> decide
    have h2 : s2.now = s1.now ∧ s2.dram = s1.dram ∧ (s2.chan ch).queue = rest ∧
        SMap.get none (s2.chan ch).openRow (dramBank b.off) = some (dramRow b.off) ∧ (s2.chan ch).slot = slot' + slots := by
      refine ⟨rfl, rfl, ?_, ?_, ?_⟩ <;> simp only [s2, State.chan_onChan]
      exact SMap.get_set_self _ _ _ _
    clear_value s2 slots tiers
    obtain ⟨hnow2, hdram2, hq2, hrow2, hslot2⟩ := h2
    have h3 : s3.chan ch = s2.chan ch ∧ s3.now = s2.now ∧ s3.dram = s2.dram := ⟨rfl, rfl, rfl⟩
    clear_value s3
    obtain ⟨hchan3, hnow3, hdram3⟩ := h3
    obtain ⟨late, hlate, h4⟩ := State.chan_retryHeld (s := s3) ch
    have hkept : SameBut ((s3.retryHeld ch).dramEcc b.readBeats w) s3 [.regs, .dramBad, .drm] :=
      State.dramEcc_frame.trans (State.retryHeld_frame.mono (by decide))
    rw [State.chan_dramEcc, h4, hchan3]
    exact ⟨(hkept.keeps .now (by decide)).trans (hnow3.trans (hnow2.trans hnow)),
      (hkept.keeps .dram (by decide)).trans (hdram3.trans (hdram2.trans hdram)), late, hlate, by rw [hq2], hrow2,
      by rw [hslot2]; omega⟩

end

end Sys2Proof.Machine

namespace Sys2Proof
set_option Elab.async false
open Sys2Proof.Machine

/-- Settles O37: the winner is the member of the pick, and the pick lies below the sum of the tickets. -/
theorem lotteryFollowsTickets : Obligations.LotteryFollowsTickets := by
  unfold Obligations.LotteryFollowsTickets
  refine ⟨fun _ _ _ _ => rfl, fun tk parked lfsr a b e qs sum hqs hsum hpos => ?_⟩
  obtain ⟨q, pre, post, hq, hsplit, hlo, hhi⟩ := pickTicket_spec tk (lfsrStep lfsr % 65536 * sum / 65536) qs 0 (Nat.zero_le _)
    (by rw [Nat.zero_add, ← hsum]; exact pick_lt hpos)
  refine ⟨q, pre, post, ?_, hsplit, by simpa using hlo, by simpa using hhi⟩
  have htsum : (((List.range 32).filter fun q => (a :: b :: e).any fun x => x.q == q).map tk).foldl (· + ·) 0 = sum := by
    rw [← hqs, hsum, List.sum_eq_foldl]
  unfold chooseWinner
  dsimp only
  rw [htsum, if_neg (by omega), ← hqs, hq]

/-- Settles O38: the access served is a permitted one, and it leaves the queue. -/
theorem channelsServeInOrder : Obligations.ChannelsServeInOrder := by
  unfold Obligations.ChannelsServeInOrder
  intro s ch slot w hch hup hne hslot
  obtain ⟨a, ha, hserves, htier, hhost⟩ := ChanSt.serves_spec (slot := slot) hne
  obtain ⟨pre, post, hq, herase, hpre⟩ := erase_permitted ha
  obtain ⟨hnow, hdram, late, hlate, hqueue, hrow, htaken⟩ := State.dramAccess_spec (w := w) hup hne hslot hserves
  exact Completes.of_act (t := s.dramAccess ch w) rfl hch fun _ => ⟨hnow, hdram, a, pre, post, late, hq, hqueue.trans (by rw [herase]),
    hlate, hpre, htier, hhost, hrow, htaken⟩

end Sys2Proof

/-! SUPPORT. Maintenance of the DRAM: refresh, patrol scrub, write-back and row map-out (R415, R417 to R419); O39. -/
namespace Sys2Proof.Machine
set_option Elab.async false

/-! ### Map-out units -/

/-- A row that is asked for stands in the queue where that has room (R213). -/
theorem MapOut.mem_ask {cap row : Nat} {m : MapOut} (h : m.queue.length < 8) : row ∈ (m.ask cap row).queue := by
  unfold MapOut.ask
  split
  · next hm => exact List.contains_iff_mem.mp hm
  · simp [h]

/-- Asking for a row only adds to the queue. -/
theorem MapOut.queue_ask (cap row : Nat) (m : MapOut) : ∃ more, (m.ask cap row).queue = m.queue ++ more := by
  unfold MapOut.ask
  split
  · exact ⟨[], (List.append_nil _).symm⟩
  · split
    · exact ⟨[row], rfl⟩
    · exact ⟨[], (List.append_nil _).symm⟩

theorem MapOut.queue_corrected (cap limit row : Nat) (m : MapOut) : ∃ more, (m.corrected cap limit row).queue = m.queue ++ more := by
  unfold MapOut.corrected
  extract_lets m1
  split
  · exact MapOut.queue_ask cap row m1
  · exact ⟨[], (List.append_nil _).symm⟩

/-- The row at the head leaves the queue; a refused one may join it (R214). -/
theorem MapOut.queue_next {cap row : Nat} {rest : List Nat} {m : MapOut} (mapped : Bool) (h : m.queue = row :: rest) :
    (∃ more, (m.next cap mapped).queue = rest ++ more) ∧ (m.refused = [] → (m.next cap mapped).queue = rest) := by
  unfold MapOut.next
  rw [h]
  dsimp only
  split
  · exact ⟨⟨[], (List.append_nil _).symm⟩, fun _ => rfl⟩
  · next r l hr => exact ⟨MapOut.queue_ask _ _ _, fun e => absurd (hr.symm.trans e) (List.cons_ne_nil _ _)⟩

section
variable {s : State}

/-! ### The device's map-out queue -/

theorem State.setDramMap_mapQ {die : Nat} {m : MapOut} : (s.setDramMap die m).drm.mapQ = m.queue :=
  congrArg DramSt.mapQ (State.setF_frame.keeps .drm (by decide))

/-- The queue of `t` begins with that of `s`. -/
def QueueGrows (t s : State) : Prop := ∃ more, t.drm.mapQ = s.drm.mapQ ++ more

theorem QueueGrows.of_drm {t : State} (h : t.drm = s.drm) : QueueGrows t s := ⟨[], by rw [h, List.append_nil]⟩

theorem QueueGrows.trans {u t : State} (h1 : QueueGrows u t) (h2 : QueueGrows t s) : QueueGrows u s := by
  obtain ⟨a, ha⟩ := h1
  obtain ⟨b, hb⟩ := h2
  exact ⟨b ++ a, by rw [ha, hb, List.append_assoc]⟩

theorem QueueGrows.foldl {α : Type} {g : State → α → State} (l : List α) (h : ∀ x a, QueueGrows (g x a) x) (x : State) :
    QueueGrows (l.foldl g x) x := by
  induction l generalizing x with
  | nil => exact .of_drm rfl
  | cons a l ih => exact (ih (g x a)).trans (h x a)

theorem State.dramCorrected_grows {ws : List Nat} : QueueGrows (s.dramCorrected ws) s := by
  unfold State.dramCorrected
  extract_lets s1
  have h1 : QueueGrows s1 s := .foldl _ (fun x w => .of_drm (Eq.trans (State.drmLast_frame.keeps .drm (by decide))
    (State.incF_frame.keeps .drm (by decide)))) s
  clear_value s1
  refine QueueGrows.trans (.foldl _ (fun x b => ?_) s1) h1
  obtain ⟨more, hmore⟩ := MapOut.queue_corrected 32 (ceLimit (x.getF F.DRM_CFG_CE_LIMIT)) (dramRowId (64 * b)) (x.dramMapUnit (dramChan (64 * b) / 32))
  exact ⟨more, State.setDramMap_mapQ.trans hmore⟩

/-- An uncorrectable read counts and records its block; then its row is asked for (R417, R419). -/
theorem State.dramUncorr_grows {b : Nat} {ws : List Nat} : QueueGrows (s.dramUncorr b ws) s ∧
    (s.drm.mapQ.length < 8 → dramRowId (64 * b) ∈ (s.dramUncorr b ws).drm.mapQ) := by
  unfold State.dramUncorr
  extract_lets s1 die
  have h1 : s1.drm = s.drm := Eq.trans (State.drmLast_frame.keeps .drm (by decide)) (State.incF_frame.keeps .drm (by decide))
  clear_value s1
  have hunit : (s1.dramMapUnit die).queue = s.drm.mapQ := by rw [← h1]; rfl
  obtain ⟨more, hmore⟩ := MapOut.queue_ask 32 (dramRowId (64 * b)) (s1.dramMapUnit die)
  refine ⟨⟨more, State.setDramMap_mapQ.trans (hmore.trans (by rw [hunit]))⟩, fun hlen => ?_⟩
  rw [State.setDramMap_mapQ]
  exact MapOut.mem_ask (hunit ▸ hlen)

theorem State.dramEcc_grows {bs : List Nat} {e : EccIn} : QueueGrows (s.dramEcc bs e) s := by
  unfold State.dramEcc
  refine QueueGrows.trans (.foldl _ (fun _ _ => State.dramUncorr_grows.1) _) ?_
  split
  · exact .of_drm rfl
  · exact State.dramCorrected_grows

/-- The registers that ECC of the DRAM changes: counts of its reads, the last block and the queue's length. -/
def dramEccFields : List Fld :=
  [F.DRM_ECC_CORRECTED, F.DRM_ECC_UNCORR, F.DRM_LAST_LO_ADDR_LO, F.DRM_LAST_HI_ADDR_HI, F.DRM_LAST_HI_UNC, F.DRM_MAP_QUEUED]

theorem State.drmLast_fields {o unc : Nat} : SameFields (s.drmLast o unc) s (Among dramEccFields) :=
  SameFields.setsIn (by simp [dramEccFields])

theorem State.setDramMap_fields {die : Nat} {m : MapOut} : SameFields (s.setDramMap die m) s (Among dramEccFields) :=
  SameFields.trans (SameFields.setIn (by simp [dramEccFields])) (SameFields.of_regs rfl)

theorem State.dramEcc_fields {bs : List Nat} {e : EccIn} : SameFields (s.dramEcc bs e) s (Among dramEccFields) := by
  have hcorrected {x : State} {ws : List Nat} : SameFields (x.dramCorrected ws) x (Among dramEccFields) := by
    unfold State.dramCorrected
    exact SameFields.trans (SameFields.foldl (SameFields.refl _ _) fun _ _ => State.setDramMap_fields)
      (SameFields.foldl (SameFields.refl _ _) fun _ _ => State.drmLast_fields.trans (SameFields.incIn (by simp [dramEccFields])))
  have huncorr {x : State} {b : Nat} {ws : List Nat} : SameFields (x.dramUncorr b ws) x (Among dramEccFields) := by
    unfold State.dramUncorr
    exact State.setDramMap_fields.trans (State.drmLast_fields.trans ((SameFields.incIn (by simp [dramEccFields])).trans
      (SameFields.of_regs rfl)))
  unfold State.dramEcc
  exact SameFields.trans (SameFields.foldl (SameFields.refl _ _) fun _ _ => huncorr) (SameFields.ite (SameFields.refl _ _) hcorrected)

/-- A beat marked in a fold of marks is marked. -/
theorem get_foldl_mark (ws : List Nat) (m : SMap Nat) {w : Nat} (h : w ∈ ws ∨ SMap.get 0 m w = 1) :
    SMap.get 0 (ws.foldl (fun m w => SMap.set 0 m w 1) m) w = 1 := by
  induction ws generalizing m with
  | nil => simpa using h
  | cons v ws ih =>
    refine ih _ ?_
    by_cases hv : w = v
    · exact .inr (hv ▸ SMap.get_set_self _ _ _ _)
    · refine h.imp (fun hm => (List.mem_cons.mp hm).resolve_left hv) fun hm => ?_
      rwa [SMap.get_set_ne _ _ _ _ hv]

/-- An uncorrectable read counts UNCORR once and marks its beats (R416, R417). -/
theorem State.dramUncorr_spec {b : Nat} {ws : List Nat} :
    (s.dramUncorr b ws).getF F.DRM_ECC_UNCORR = satAdd F.DRM_ECC_UNCORR.w (s.getF F.DRM_ECC_UNCORR) 1 ∧
    ∀ w ∈ ws, SMap.get 0 (s.dramUncorr b ws).dramBad w = 1 := by
  unfold State.dramUncorr
  extract_lets s1 die
  have h1 : s1.getF F.DRM_ECC_UNCORR = satAdd F.DRM_ECC_UNCORR.w (s.getF F.DRM_ECC_UNCORR) 1 :=
    (State.getF_setFs_ne _ _ _ (by simp; decide)).trans (State.getF_incF_self _ _ _)
  have hbad : s1.dramBad = ws.foldl (fun m w => SMap.set 0 m w 1) s.dramBad :=
    (State.drmLast_frame.keeps .dramBad (by decide)).trans (State.incF_frame.keeps .dramBad (by decide))
  clear_value s1
  refine ⟨Eq.trans ?_ h1, fun w hw => ?_⟩
  · exact State.getF_setF_ne _ _ (by decide)
  · rw [State.setDramMap_frame.keeps .dramBad (by decide), hbad]
    exact get_foldl_mark ws _ (.inl hw)

/-! ### Maintenance slots -/

theorem nextMaint_spec (i : Nat) : nextMaint i % 32 = 31 ∧ i ≤ nextMaint i ∧ nextMaint i < i + 32 := by
  unfold nextMaint
  omega

/-- Taking a maintenance slot waits for the next one (R415). -/
theorem State.takeMaint_spec (ch : Nat) : ∃ k, k % 32 = 31 ∧ max (s.chan ch).slot (slotAt s.now) ≤ k ∧
    k < max (s.chan ch).slot (slotAt s.now) + 32 ∧ (s.takeMaint ch).now = max s.now (slotCycle k) ∧
    (s.takeMaint ch).chan ch = { s.chan ch with slot := k + 1 } := by
  obtain ⟨h1, h2, h3⟩ := nextMaint_spec (max (s.chan ch).slot (slotAt s.now))
  refine ⟨_, h1, h2, h3, ?_, ?_⟩
  · exact State.waitUntil_now s _
  · show (State.onChan _ ch _).chan ch = _
    rw [State.chan_onChan, State.chan_waitUntil]

theorem State.refresh_spec (ch : Nat) (hup : s.dramUp = true) : ∃ k, k % 32 = 31 ∧ max (s.chan ch).slot (slotAt s.now) ≤ k ∧
    k < max (s.chan ch).slot (slotAt s.now) + 32 ∧ (s.refresh ch).now = max s.now (slotCycle k) ∧
    (s.refresh ch).chan ch = { s.chan ch with slot := k + 1, refreshed := ((s.chan ch).refreshed + 1) % 65536 } := by
  obtain ⟨k, h1, h2, h3, h4, h5⟩ := State.takeMaint_spec (s := s) ch
  unfold State.refresh
  rw [if_neg (by simp [hup])]
  refine ⟨k, h1, h2, h3, ?_, ?_⟩
  · exact Eq.trans (State.onChan_frame.keeps .now (by decide)) h4
  · rw [State.chan_onChan, h5]

theorem State.scrubWriteback_spec {ch b : Nat} (hup : s.dramUp = true) (hstop : s.getF F.DEV_HOTPLUG_WSTOP ≠ 1)
    (hwb : (s.chan ch).wb = some b) : ∃ k, k % 32 = 31 ∧ max (s.chan ch).slot (slotAt s.now) ≤ k ∧
    (s.scrubWriteback ch).now = max s.now (slotCycle k) ∧
    (s.scrubWriteback ch).chan ch = { s.chan ch with slot := k + 1, wb := none } := by
  obtain ⟨k, h1, h2, -, h4, h5⟩ := State.takeMaint_spec (s := s) ch
  unfold State.scrubWriteback
  rw [hwb]
  dsimp only
  rw [if_neg (by simp [hup, hstop])]
  refine ⟨k, h1, h2, ?_, ?_⟩
  · exact Eq.trans (State.onChan_frame.keeps .now (by decide)) h4
  · rw [State.chan_onChan, h5]

theorem State.scrubRead_spec {ch : Nat} {e : EccIn} (hup : s.dramUp = true) (hen : s.getF F.DRM_CFG_SCRUB_EN ≠ 0) :
    max s.now (s.chan ch).scrubDue ≤ (s.scrubRead ch e).now ∧
    ((s.scrubRead ch e).chan ch).scrub = ((s.chan ch).scrub + 1) % 2097152 ∧
    ((s.scrubRead ch e).chan ch).scrubDue = max s.now (s.chan ch).scrubDue + usCycles 100 ∧
    ∀ o, ((s.scrubRead ch e).chan ch).wb = some o → o = dramBlock ch (s.chan ch).scrub := by
  unfold State.scrubRead
  rw [if_neg (by simp [hup, hen])]
  extract_lets s1 n beats fixed s2
  obtain ⟨k, -, -, -, hk, -⟩ := State.takeMaint_spec (s := s.waitUntil (s.chan ch).scrubDue) ch
  have h1 : max s.now (s.chan ch).scrubDue ≤ s1.now := by
    show _ ≤ (State.takeMaint _ _).now
    rw [hk, State.waitUntil_now]
    exact le_max_left _ _
  have h2 : s2.now = s1.now ∧ (s2.chan ch).scrub = (n + 1) % 2097152 ∧
      (s2.chan ch).scrubDue = max s.now (s.chan ch).scrubDue + usCycles 100 ∧
      (s2.chan ch).wb = if fixed then some (dramBlock ch n) else none := by
    refine ⟨State.dramEcc_frame.keeps .now (by decide), ?_, ?_, ?_⟩ <;> simp only [s2, State.chan_onChan]
  clear_value s2 s1 fixed
  obtain ⟨hnow, hscrub, hdue, hwb⟩ := h2
  have hchan (v : Nat) : (s2.setF F.DRM_SCRUB_PASSES v).chan ch = s2.chan ch :=
    State.chan_of_drm (State.setF_frame.keeps .drm (by decide)) ch
  rw [hchan]
  refine ⟨?_, hscrub, hdue, fun o ho => ?_⟩
  · rw [State.setF_frame.keeps .now (by decide), hnow]
    exact h1
  · rw [hwb] at ho
    split at ho
    · exact (Option.some.inj ho).symm
    · cases ho

/-! ### Row map-out -/

theorem State.mapNext_kept {die : Nat} {mapped : Bool} : SameBut (s.mapNext die mapped) s [.regs, .drm] ∧
    SameFields (s.mapNext die mapped) s (Among dramEccFields) ∧ (s.mapNext die mapped).drm.mapped = s.drm.mapped := by
  refine ⟨State.mapNext_frame, ?_, ?_⟩
  · exact SameFields.trans (SameFields.of_regs rfl) State.setDramMap_fields
  · obtain ⟨-, -, hmapped⟩ := State.dramHeld_iff.mp (State.setDramMap_held (s := s) (die := die) (m := (s.dramMapUnit die).next 32 mapped))
    exact hmapped

theorem State.mapNext_mapQ {die row : Nat} {rest : List Nat} {mapped : Bool} (h : s.drm.mapQ = row :: rest) :
    (∃ more, (s.mapNext die mapped).drm.mapQ = rest ++ more) ∧
    (s.drm.refused = [] → (s.mapNext die mapped).drm.mapQ = rest) := by
  obtain ⟨⟨more, hmore⟩, hnone⟩ := MapOut.queue_next (cap := 32) (m := s.dramMapUnit die) mapped h
  have hq : (s.mapNext die mapped).drm.mapQ = ((s.dramMapUnit die).next 32 mapped).queue :=
    State.setDramMap_mapQ (s := s) (die := die) (m := (s.dramMapUnit die).next 32 mapped)
  exact ⟨⟨more, hq.trans hmore⟩, fun hr => hq.trans (hnone hr)⟩

theorem State.mapRow_spec {row used : Nat} (hled : s.led.queue.length < 64) :
    (s.mapRow row used).drm.mapped = s.drm.mapped ++ [row] ∧ (s.mapRow row used).drm.mapQ = s.drm.mapQ ∧
    (s.mapRow row used).getF F.DRM_MAP_FIELD_MAPPED = satAdd F.DRM_MAP_FIELD_MAPPED.w (s.getF F.DRM_MAP_FIELD_MAPPED) 1 ∧
    ∃ x, (s.mapRow row used).led.queue = s.led.queue ++ [x] := by
  unfold State.mapRow
  extract_lets _ s1
  have h1 : s1.drm.mapped = s.drm.mapped ++ [row] ∧ s1.drm.mapQ = s.drm.mapQ ∧ s1.led = s.led ∧ s1.regs = s.regs :=
    ⟨rfl, rfl, rfl, rfl⟩
  clear_value s1
  obtain ⟨hmapped, hmapQ, hledQ, hregs⟩ := h1
  have hf (v : Nat) : ((s1.setF F.DRM_MAP_SPARES_LEFT v).incF F.DRM_MAP_FIELD_MAPPED 1).getF F.DRM_MAP_FIELD_MAPPED =
      satAdd F.DRM_MAP_FIELD_MAPPED.w (s.getF F.DRM_MAP_FIELD_MAPPED) 1 := by
    rw [State.getF_incF_self, State.getF_setF_ne _ _ (by decide)]
    simp only [State.getF, hregs]
  have hx (v : Nat) : SameBut ((s1.setF F.DRM_MAP_SPARES_LEFT v).incF F.DRM_MAP_FIELD_MAPPED 1) s1 [.regs] :=
    State.incF_frame.trans State.setF_frame
  generalize hv : s.getF F.DRM_MAP_SPARES_LEFT - 1 = v
  specialize hf v
  specialize hx v
  generalize (s1.setF F.DRM_MAP_SPARES_LEFT v).incF F.DRM_MAP_FIELD_MAPPED 1 = x at *
  have hq : x.led.queue = s.led.queue := by rw [hx.keeps .led (by decide), hledQ]
  refine ⟨?_, ?_, ?_, ?_⟩
  · rw [State.ledger_frame.keeps .drm (by decide), hx.keeps .drm (by decide), hmapped]
  · rw [State.ledger_frame.keeps .drm (by decide), hx.keeps .drm (by decide), hmapQ]
  · unfold State.ledger
    rw [if_neg (by rw [hq]; omega), State.getF_setF_ne _ _ (by decide)]
    exact hf
  · unfold State.ledger
    rw [if_neg (by rw [hq]; omega)]
    generalize ledgerBytes _ _ _ _ _ = y
    exact ⟨y, (congrArg LedSt.queue (State.setF_frame.keeps .led (by decide))).trans (by rw [hq])⟩

/-- The copy of a row (R419): its time has passed, and only registers, ECC's parts of the DRAM and the count of free values change. -/
theorem State.rowCopy_spec {n : Nat} {bs : List Nat} {e : EccIn} (x : State)
    (hx : x = ({ s with free := s.free + 1 }.waitUntil n).dramEcc bs e) :
    x.now = max s.now n ∧ QueueGrows x s ∧ x.drm.mapped = s.drm.mapped ∧ x.led = s.led ∧ x.dram = s.dram ∧
      x.getF F.DRM_MAP_FIELD_MAPPED = s.getF F.DRM_MAP_FIELD_MAPPED := by
  have hfree : ({ s with free := s.free + 1 } : State).now = s.now ∧ ({ s with free := s.free + 1 } : State).drm = s.drm ∧
      ({ s with free := s.free + 1 } : State).led = s.led ∧ ({ s with free := s.free + 1 } : State).dram = s.dram ∧
      ({ s with free := s.free + 1 } : State).regs = s.regs := ⟨rfl, rfl, rfl, rfl, rfl⟩
  generalize ({ s with free := s.free + 1 } : State) = y at hx hfree
  obtain ⟨hnow, hdrm, hled, hdram, hregs⟩ := hfree
  have hw : SameBut (y.waitUntil n) y [.now, .cal, .regs, .cores, .bands] := State.waitUntil_frame
  have hwnow : (y.waitUntil n).now = max y.now n := State.waitUntil_now y n
  have hwf : (y.waitUntil n).getF F.DRM_MAP_FIELD_MAPPED = y.getF F.DRM_MAP_FIELD_MAPPED := State.getF_waitUntil y n (by decide)
  generalize y.waitUntil n = w at hx hw hwnow hwf
  have hwdrm : w.drm = s.drm := (hw.keeps .drm (by decide)).trans hdrm
  subst hx
  have hecc : SameBut (w.dramEcc bs e) w [.regs, .dramBad, .drm] := State.dramEcc_frame
  refine ⟨?_, ?_, ?_, ?_, ?_, ?_⟩
  · rw [hecc.keeps .now (by decide), hwnow, hnow]
  · exact State.dramEcc_grows.trans (.of_drm hwdrm)
  · rw [(State.dramHeld_iff.mp State.dramEcc_held).2.2, hwdrm]
  · rw [hecc.keeps .led (by decide), hw.keeps .led (by decide), hled]
  · rw [hecc.keeps .dram (by decide), hw.keeps .dram (by decide), hdram]
  · refine Eq.trans (State.dramEcc_fields _ (not_among (by decide))) (hwf.trans ?_)
    simp only [State.getF, hregs]

/-- A row whose bank has a spare left is copied and replaced (R419). -/
theorem State.dramMapOut_mapped {row : Nat} {rest : List Nat} (hq : s.drm.mapQ = row :: rest) (hup : s.dramUp = true)
    (hstop : s.getF F.DEV_HOTPLUG_WSTOP ≠ 1) (hspare : (s.drm.mapped.filter fun r => r / 4096 == row / 4096).length < 8)
    (hled : s.led.queue.length < 64) :
    s.dramMapOut.now = max s.now (s.drm.mapFrom + 7680) ∧ (∃ more, s.dramMapOut.drm.mapQ = rest ++ more) ∧
      s.dramMapOut.drm.mapped = s.drm.mapped ++ [row] ∧ s.dramMapOut.dram = s.dram ∧
      s.dramMapOut.getF F.DRM_MAP_FIELD_MAPPED = satAdd F.DRM_MAP_FIELD_MAPPED.w (s.getF F.DRM_MAP_FIELD_MAPPED) 1 ∧
      ∃ x, s.dramMapOut.led.queue = s.led.queue ++ [x] := by
  unfold State.dramMapOut
  rw [hq]
  dsimp only
  rw [if_neg (by simp [hup, hstop]), if_neg (by omega)]
  generalize hx : State.dramEcc _ _ _ = x
  obtain ⟨hnow, ⟨more, hmore⟩, hmapped, hledx, hdram, hfld⟩ := State.rowCopy_spec x hx.symm
  generalize row / 4096 / 16 / 32 = die
  obtain ⟨hkept, hfields, hnext⟩ := State.mapNext_kept (s := x) (die := die) (mapped := true)
  obtain ⟨⟨more', hmore'⟩, -⟩ := State.mapNext_mapQ (s := x) (die := die) (mapped := true) (row := row) (rest := rest ++ more)
    (by rw [hmore, hq]; rfl)
  generalize x.mapNext die true = z at *
  obtain ⟨h1, h2, h3, y, h4⟩ := State.mapRow_spec (s := z) (row := row)
    (used := (s.drm.mapped.filter fun r => r / 4096 == row / 4096).length) (by rw [hkept.keeps .led (by decide), hledx]; exact hled)
  generalize hu : (s.drm.mapped.filter fun r => r / 4096 == row / 4096).length = used at *
  have hrow : SameBut (z.mapRow row used) z [.regs, .drm, .led] := State.mapRow_frame
  refine ⟨?_, ⟨more ++ more', ?_⟩, ?_, ?_, ?_, y, ?_⟩
  · rw [hrow.keeps .now (by decide), hkept.keeps .now (by decide), hnow]
  · rw [h2, hmore', List.append_assoc]
  · rw [h1, hnext, hmapped]
  · rw [hrow.keeps .dram (by decide), hkept.keeps .dram (by decide), hdram]
  · rw [h3, hfields _ (not_among (by decide)), hfld]
  · rw [h4, hkept.keeps .led (by decide), hledx]

/-- A row whose bank has no spare left stays in service (R419). -/
theorem State.dramMapOut_unmapped {row : Nat} {rest : List Nat} (hq : s.drm.mapQ = row :: rest) (hup : s.dramUp = true)
    (hstop : s.getF F.DEV_HOTPLUG_WSTOP ≠ 1) (hspare : 8 ≤ (s.drm.mapped.filter fun r => r / 4096 == row / 4096).length)
    (hrefused : s.drm.refused = []) :
    s.dramMapOut.now = s.now ∧ s.dramMapOut.drm.mapQ = rest ∧ s.dramMapOut.drm.mapped = s.drm.mapped ∧ s.dramMapOut.led = s.led ∧
      s.dramMapOut.getF F.DRM_MAP_NO_SPARE = satAdd F.DRM_MAP_NO_SPARE.w (s.getF F.DRM_MAP_NO_SPARE) 1 := by
  unfold State.dramMapOut
  rw [hq]
  dsimp only
  rw [if_neg (by simp [hup, hstop]), if_pos hspare]
  generalize row / 4096 / 16 / 32 = die
  obtain ⟨hkept, hfields, hnext⟩ := State.mapNext_kept (s := s) (die := die) (mapped := false)
  obtain ⟨-, hmapQ⟩ := State.mapNext_mapQ (s := s) (die := die) (mapped := false) hq
  specialize hmapQ hrefused
  generalize s.mapNext die false = z at *
  have hinc : SameBut (z.incF F.DRM_MAP_NO_SPARE 1) z [.regs] := State.incF_frame
  refine ⟨?_, ?_, ?_, ?_, ?_⟩
  · rw [hinc.keeps .now (by decide), hkept.keeps .now (by decide)]
  · rw [hinc.keeps .drm (by decide), hmapQ]
  · rw [hinc.keeps .drm (by decide), hnext]
  · rw [hinc.keeps .led (by decide), hkept.keeps .led (by decide)]
  · rw [State.getF_incF_self, hfields _ (not_among (by decide))]

end

end Sys2Proof.Machine

namespace Sys2Proof
set_option Elab.async false
open Sys2Proof.Machine

/-- Settles O39, from the rules of a maintenance slot, of a map-out unit's queue and of what ECC of the DRAM leaves alone. -/
theorem maintenanceScrubsAndMapsOut : Obligations.MaintenanceScrubsAndMapsOut := by
  unfold Obligations.MaintenanceScrubsAndMapsOut
  refine ⟨?_, ?_, ?_, ?_, ?_, ?_, fun s b ws => ⟨State.dramUncorr_spec.1, State.dramUncorr_spec.2, State.dramUncorr_grows.2⟩⟩
  case refine_1 =>
    intro s ch hch hup
    exact Completes.of_act (t := s.refresh ch) rfl hch fun _ => State.refresh_spec ch hup
  case refine_2 =>
    intro s ch b hch hup hstop hwb
    obtain ⟨k, h1, h2, h3, h4⟩ := State.scrubWriteback_spec hup hstop hwb
    exact Completes.of_act (t := s.scrubWriteback ch) rfl hch fun _ =>
      ⟨k, h1, h2, h3, h4, State.scrubWriteback_frame.keeps .dram (by decide)⟩
  case refine_3 =>
    intro s ch w hch hup hen
    obtain ⟨h1, h2, h3, h4⟩ := State.scrubRead_spec (e := w) (ch := ch) hup hen
    exact Completes.of_act (t := s.scrubRead ch w) rfl hch fun _ =>
      ⟨h1, h2, h3, h4, State.scrubRead_frame.keeps .dram (by decide)⟩
  case refine_4 =>
    intro s ch w hch hoff
    refine Completes.of_act (t := s.scrubRead ch w) rfl hch fun _ => ?_
    unfold State.scrubRead
    rw [if_pos (by simpa using hoff)]
    exact SameBut.ended (SameBut.refl _ _) _
  case refine_5 =>
    intro s row rest hq hup hstop hspare hled
    exact Completes.of_op (t := s.dramMapOut) rfl fun _ => State.dramMapOut_mapped hq hup hstop hspare hled
  case refine_6 =>
    intro s row rest hq hup hstop hspare hrefused
    exact Completes.of_op (t := s.dramMapOut) rfl fun _ => State.dramMapOut_unmapped hq hup hstop hspare hrefused

end Sys2Proof

/-! SUPPORT. Snapshots of the fabric (R280 to R282, R551); O26. -/
namespace Sys2Proof.Machine
set_option Elab.async false

section
variable {s : State}

/-- The fields of FAB_SNAP_CTRL. -/
def snapCtrlFields : List Fld :=
  [F.FAB_SNAP_CTRL_ARM, F.FAB_SNAP_CTRL_CANCEL, F.FAB_SNAP_CTRL_BANDS, F.FAB_SNAP_CTRL_SPAD, F.FAB_SNAP_CTRL_LS]

theorem regAt_snapCtrl : regAt 0x60000 = some snapCtrlFields := by decide +kernel

theorem blockOf_snapCtrl : blockOf 0x60000 = some (.fab, 0) := by decide +kernel

theorem State.writeFields_snapCtrl (v : Nat) : snapCtrlFields.foldl (State.writeField v) s =
    s.setFs [(F.FAB_SNAP_CTRL_BANDS, bits v 8 8), (F.FAB_SNAP_CTRL_SPAD, bits v 16 1), (F.FAB_SNAP_CTRL_LS, bits v 17 1)] := by
  have h1 : isShared F.FAB_SNAP_CTRL_BANDS = false := by decide
  have h2 : isShared F.FAB_SNAP_CTRL_SPAD = false := by decide
  have h3 : isShared F.FAB_SNAP_CTRL_LS = false := by decide
  have hw {x : State} {f : Fld} (hacc : f.acc = .rw) (h : isShared f = false) : State.writeField v x f = x.setF f (bits v f.lo f.w) := by
    simp [State.writeField, hacc, h]
  have ho {x : State} {f : Fld} (hacc : f.acc = .wo) : State.writeField v x f = x := by simp [State.writeField, hacc]
  simp only [snapCtrlFields, List.foldl_cons, List.foldl_nil]
  rw [ho (f := F.FAB_SNAP_CTRL_ARM) rfl, ho (f := F.FAB_SNAP_CTRL_CANCEL) rfl, hw rfl h1, hw rfl h2, hw rfl h3]
  rfl

/-- A host write of FAB_SNAP_CTRL sets its three fields; then CANCEL and ARM act (R282). -/
theorem State.hostWrite_snapCtrl {v : Nat} (hr : s.replaying = false) :
    SameBut (s.hostWrite 0x60000 v).2 (State.writeEffect s (s.setFs [(F.FAB_SNAP_CTRL_BANDS, bits v 8 8),
      (F.FAB_SNAP_CTRL_SPAD, bits v 16 1), (F.FAB_SNAP_CTRL_LS, bits v 17 1)]) .fab 0 v) [.aud] := by
  obtain ⟨w, hw⟩ := State.wordAt_isSome (s := s) blockOf_snapCtrl regAt_snapCtrl (by simp)
  have h := State.hostWrite_taken (v := v) hr (by decide) blockOf_snapCtrl regAt_snapCtrl hw
    ⟨F.FAB_SNAP_CTRL_BANDS, by simp [snapCtrlFields], State.writable_rw s rfl⟩ rfl
  rwa [State.writeFields_snapCtrl] at h

theorem State.getF_of_aud {t : State} (h : SameBut t s [.aud]) (f : Fld) : t.getF f = s.getF f := by
  rw [State.getF, h.keeps .regs (by decide)]; rfl

/-- An arming with no reason against it latches the values that the registers hold (R282). -/
theorem State.snapArm_armed (h : s.snapReason = 0) : s.snapArm.getF F.FAB_SNAP_STATUS_STATE = 1 ∧
    s.snapArm.fab.snap.bands = s.getF F.FAB_SNAP_CTRL_BANDS ∧ s.snapArm.fab.snap.spad = (s.getF F.FAB_SNAP_CTRL_SPAD == 1) ∧
    s.snapArm.fab.snap.ls = (s.getF F.FAB_SNAP_CTRL_LS == 1) ∧ s.snapArm.fab.snap.line = s.getF F.FAB_SNAP_LINE_LINE ∧
    s.snapArm.fab.snap.frame = s.getF F.FAB_SNAP_FRAME_FRAME ∧ s.snapArm.fab.snap.dest = s.snapDest ∧
    s.snapArm.fab.snap.stopped = false := by
  unfold State.snapArm
  rw [if_neg (by simp [h])]
  exact ⟨State.getF_setF_self _ _ _, rfl, rfl, rfl, rfl, rfl, rfl, rfl⟩

theorem State.snapReason_lt : s.snapReason < 8 := by
  unfold State.snapReason
  dsimp only
  repeat' split
  all_goals decide

/-- A refused arming shows its reason and changes nothing else. -/
theorem State.snapArm_refused (h : s.snapReason ≠ 0) : s.snapArm.getF F.FAB_SNAP_STATUS_REFUSE = s.snapReason ∧ s.snapArm.fab = s.fab ∧
    s.snapArm.getF F.FAB_SNAP_STATUS_STATE = s.getF F.FAB_SNAP_STATUS_STATE := by
  unfold State.snapArm
  rw [if_pos h]
  exact ⟨(State.getF_setF_self _ _ _).trans (Nat.mod_eq_of_lt State.snapReason_lt), State.setF_frame.keeps .fab (by decide),
    State.getF_setF_ne _ _ (by decide)⟩

theorem State.snapCancel_armed (h : s.getF F.FAB_SNAP_STATUS_STATE = 1) :
    s.snapCancel.getF F.FAB_SNAP_STATUS_STATE = 0 ∧ s.snapCancel.fab = { s.fab with snap := {} } := by
  unfold State.snapCancel
  rw [if_pos h]
  exact ⟨State.getF_setF_self _ _ _, State.setF_frame.keeps .fab (by decide)⟩

theorem State.snapCancel_other (h : s.getF F.FAB_SNAP_STATUS_STATE ≠ 1) : s.snapCancel = s := if_neg h

/-! ### The two commands -/

/-- The word that SNAPSHOT_ARM writes holds its three operands and ARM. -/
theorem armWord_bits (bands : BitVec 8) (spad ls : Bool) :
    bits (1 + 256 * bands.toNat + 65536 * b2n spad + 131072 * b2n ls) 8 8 = bands.toNat ∧
    bits (1 + 256 * bands.toNat + 65536 * b2n spad + 131072 * b2n ls) 16 1 = b2n spad ∧
    bits (1 + 256 * bands.toNat + 65536 * b2n spad + 131072 * b2n ls) 17 1 = b2n ls ∧
    bit (1 + 256 * bands.toNat + 65536 * b2n spad + 131072 * b2n ls) 1 = false ∧
    bit (1 + 256 * bands.toNat + 65536 * b2n spad + 131072 * b2n ls) 0 = true := by
  have hb := bands.isLt
  have hs : b2n spad < 2 := by cases spad <;> decide
  have hl : b2n ls < 2 := by cases ls <;> decide
  simp only [bits, bit, beq_iff_eq, beq_eq_false_iff_ne]
  omega

theorem State.hostWrite_snapArm (bands : BitVec 8) (spad ls : Bool) (hr : s.replaying = false) :
    SameBut (s.hostWrite 0x60000 (1 + 256 * bands.toNat + 65536 * b2n spad + 131072 * b2n ls)).2
      (s.setFs [(F.FAB_SNAP_CTRL_BANDS, bands.toNat), (F.FAB_SNAP_CTRL_SPAD, b2n spad), (F.FAB_SNAP_CTRL_LS, b2n ls)]).snapArm [.aud] := by
  obtain ⟨h1, h2, h3, h4, h5⟩ := armWord_bits bands spad ls
  have hw := State.hostWrite_snapCtrl (v := 1 + 256 * bands.toNat + 65536 * b2n spad + 131072 * b2n ls) hr
  rw [h1, h2, h3] at hw
  unfold State.writeEffect at hw
  dsimp only at hw
  rwa [if_pos rfl, h4, h5, if_pos rfl, if_neg (by decide)] at hw

/-- A register of the fabric block is read field by field. -/
theorem State.wordAt_fab {a : Nat} {fs : List Fld} (hb : blockOf a = some (.fab, 0)) (hreg : regAt a = some fs) :
    s.wordAt a = some ((fs.map fun f => s.readF f * 2 ^ f.lo).foldl (· + ·) 0) := by
  have hshown : s.shownWord .fab 0 = none := rfl
  unfold State.wordAt
  rw [hb, hreg]
  simp only [hshown, Bool.false_eq_true, if_false, Option.getD_none]

/-- The word of five fields is the sum of their values at their places. -/
theorem word_five (a b c d e : Fld) (g : Fld → Nat) : ([a, b, c, d, e].map fun f => g f * 2 ^ f.lo).foldl (· + ·) 0 =
    g a * 2 ^ a.lo + g b * 2 ^ b.lo + g c * 2 ^ c.lo + g d * 2 ^ d.lo + g e * 2 ^ e.lo := by
  simp only [List.map_cons, List.map_nil, List.foldl_cons, List.foldl_nil, Nat.zero_add]

/-- Values at places from 8 on sum to a multiple of 256. -/
theorem places_above_eight {p q r : Nat} (hp : p = 8) (hq : q = 16) (hr : r = 17) (a b c : Nat) :
    ∃ x, a * 2 ^ p + b * 2 ^ q + c * 2 ^ r = 256 * x := by
  subst hp hq hr
  exact ⟨a + 256 * b + 512 * c, by omega⟩

/-- Values at the places of FAB_SNAP_CTRL's fields, 0 for the two write-only bits, lie above bit 8. -/
theorem snapCtrlSum {g : Fld → Nat} (h0 : g F.FAB_SNAP_CTRL_ARM = 0) (h1 : g F.FAB_SNAP_CTRL_CANCEL = 0) :
    ∃ x, (snapCtrlFields.map fun f => g f * 2 ^ f.lo).foldl (· + ·) 0 = 256 * x := by
  obtain ⟨x, hx⟩ := places_above_eight (p := F.FAB_SNAP_CTRL_BANDS.lo) (q := F.FAB_SNAP_CTRL_SPAD.lo) (r := F.FAB_SNAP_CTRL_LS.lo)
    rfl rfl rfl (g F.FAB_SNAP_CTRL_BANDS) (g F.FAB_SNAP_CTRL_SPAD) (g F.FAB_SNAP_CTRL_LS)
  refine ⟨x, (word_five _ _ _ _ _ g).trans ?_⟩
  rw [h0, h1, Nat.zero_mul, Nat.zero_mul, Nat.zero_add, hx]

/-- The values of FAB_SNAP_CTRL's word stand above its two write-only bits. -/
theorem State.word_snapCtrl (s : State) : ∃ x, s.word 0x60000 = 256 * x := by
  obtain ⟨x, hx⟩ := snapCtrlSum (g := s.readF) rfl rfl
  exact ⟨x, by rw [State.word, State.wordAt_fab blockOf_snapCtrl regAt_snapCtrl, Option.getD_some, hx]⟩

/-- A write of CANCEL leaves the fields of FAB_SNAP_CTRL alone but in that register, and cancels. -/
theorem State.hostWrite_snapCancel (hr : s.replaying = false) : ∃ x : State, SameBut x s [.regs] ∧
    x.getF F.FAB_SNAP_STATUS_STATE = s.getF F.FAB_SNAP_STATUS_STATE ∧
    SameBut (s.hostWrite 0x60000 (s.word 0x60000 + 2)).2 x.snapCancel [.aud] := by
  obtain ⟨y, hy⟩ := s.word_snapCtrl
  have hw := State.hostWrite_snapCtrl (v := s.word 0x60000 + 2) hr
  have h1 : bit (s.word 0x60000 + 2) 1 = true := by simp only [bit, beq_iff_eq]; omega
  have h0 : bit (s.word 0x60000 + 2) 0 = false := by simp only [bit, beq_eq_false_iff_ne]; omega
  unfold State.writeEffect at hw
  dsimp only at hw
  rw [if_pos rfl, h1, h0, if_neg (by decide), if_pos rfl] at hw
  exact ⟨_, State.setFs_frame, State.getF_setFs_ne _ _ _ (by simp; decide), hw⟩

/-! ### The copy -/

theorem State.snapStart_spec (hst : s.getF F.FAB_SNAP_STATUS_STATE = 1) (hstop : s.fab.snap.stopped = true)
    (hq : ∀ b, b < 8 → bit s.fab.snap.bands b = true → s.bandQuiet b = true) :
    s.snapStart.getF F.FAB_SNAP_STATUS_STATE = 2 ∧
    s.snapStart.fab = { s.fab with snap := { s.fab.snap with left := s.fab.snap.lps + 1 } } := by
  have hall : ((List.range 8).all fun b => !bit s.fab.snap.bands b || s.bandQuiet b) = true := by
    refine List.all_eq_true.mpr fun b hb => ?_
    have := hq b (List.mem_range.mp hb)
    cases hbit : bit s.fab.snap.bands b
    · rfl
    · rw [this hbit]; rfl
  unfold State.snapStart
  rw [if_pos ⟨hst, hstop, hall⟩]
  exact ⟨State.getF_setF_self _ _ _, State.setF_frame.keeps .fab (by decide)⟩

/-- A fold keeps what each of its steps keeps. -/
theorem foldl_same {α β : Type} (p : State → β) {g : State → α → State} (l : List α) (h : ∀ x a, p (g x a) = p x) (x : State) :
    p (l.foldl g x) = p x := by
  induction l generalizing x with
  | nil => rfl
  | cons a l ih => exact (ih (g x a)).trans (h x a)

/-- A fabric with no snapshot. -/
def noSnap (f : FabSt) : FabSt := { f with snap := {} }

/-- A complete copy puts the snapshot away (R280, R282); once the module is being removed it writes nothing (R551). -/
theorem State.snapDone_spec (hst : s.getF F.FAB_SNAP_STATUS_STATE = 2) (hleft : s.fab.snap.left = 0) :
    s.snapDone.getF F.FAB_SNAP_STATUS_STATE = 3 ∧ s.snapDone.getF F.FAB_SNAP_STATUS_LPS = s.fab.snap.lps % 2 ^ 16 ∧
    s.snapDone.fab = noSnap s.fab ∧ (s.getF F.DEV_HOTPLUG_WSTOP = 1 → s.snapDone.dram = s.dram) := by
  unfold State.snapDone
  rw [if_pos ⟨hst, hleft⟩]
  extract_lets s1 x f
  have hfab : s1.fab = s.fab := by
    show State.fab (if _ then _ else _) = _
    split
    · rfl
    · refine foldl_same (fun y : State => y.fab) _ ?_ s
      intro y m
      rfl
  have hdram : s.getF F.DEV_HOTPLUG_WSTOP = 1 → s1.dram = s.dram := by
    intro h
    show State.dram (if _ then _ else _) = _
    rw [if_pos h]
  have hx : x.dram = s1.dram := State.warpCounted_frame.keeps .dram (by decide)
  have hf : f = s.fab := hfab
  clear_value x
  clear_value f s1
  refine ⟨?_, State.getF_setF_self _ _ _, ?_, fun h => ?_⟩
  · exact (State.getF_setF_ne _ _ (by decide)).trans (State.getF_setF_self _ _ _)
  · refine Eq.trans (State.setFs_frame.keeps .fab (by decide)) ?_
    exact congrArg noSnap hf
  · exact Eq.trans (State.setFs_frame.keeps .dram (by decide)) (hx.trans (hdram h))

end

end Sys2Proof.Machine

namespace Sys2Proof
set_option Elab.async false
open Sys2Proof.Machine

/-- Settles O26, from what ARM and CANCEL do in the register's write and from the copy's two steps. -/
theorem snapshotsAreArmedCopiedAndEnded : Obligations.SnapshotsAreArmedCopiedAndEnded := by
  unfold Obligations.SnapshotsAreArmedCopiedAndEnded
  refine ⟨?_, ?_, ?_, ?_, ?_, ?_⟩
  case refine_1 =>
    intro s u bands spad ls hr hu hok
    have hw := State.hostWrite_snapArm bands spad ls hr
    rw [← hu] at hw
    obtain ⟨h1, h2, h3, h4, h5, h6, h7, h8⟩ := State.snapArm_armed hok
    have hfab := hw.keeps .fab (by decide)
    have hbands : u.getF F.FAB_SNAP_CTRL_BANDS = bands.toNat := by
      rw [hu]
      refine ((State.getF_setF_ne _ _ (by decide)).trans (State.getF_setF_ne _ _ (by decide))).trans ((State.getF_setF_self _ _ _).trans ?_)
      exact Nat.mod_eq_of_lt bands.isLt
    have hspad : u.getF F.FAB_SNAP_CTRL_SPAD = b2n spad := by
      rw [hu]
      refine (State.getF_setF_ne _ _ (by decide)).trans ((State.getF_setF_self _ _ _).trans ?_)
      cases spad <;> rfl
    have hls : u.getF F.FAB_SNAP_CTRL_LS = b2n ls := by
      rw [hu]
      refine (State.getF_setF_self _ _ _).trans ?_
      cases ls <;> rfl
    have hkept {f : Fld} (hf : f.key ∉ snapCtrlFields.map Fld.key) : u.getF f = s.getF f := by
      rw [hu]
      exact SameFields.setsIn (fs := snapCtrlFields) (by simp [snapCtrlFields]) f (not_among hf)
    refine Completes.of_op (t := (s.hostWrite 0x60000 (1 + 256 * bands.toNat + 65536 * b2n spad + 131072 * b2n ls)).2) rfl fun _ => ?_
    exact ⟨(State.getF_of_aud hw _).trans h1, (congrArg (fun f : FabSt => f.snap.bands) hfab).trans (h2.trans hbands),
      (congrArg (fun f : FabSt => f.snap.spad) hfab).trans (h3.trans (by rw [hspad]; cases spad <;> rfl)),
      (congrArg (fun f : FabSt => f.snap.ls) hfab).trans (h4.trans (by rw [hls]; cases ls <;> rfl)),
      (congrArg (fun f : FabSt => f.snap.line) hfab).trans (h5.trans (hkept (by decide))),
      (congrArg (fun f : FabSt => f.snap.frame) hfab).trans (h6.trans (hkept (by decide))),
      (congrArg (fun f : FabSt => f.snap.dest) hfab).trans (h7.trans (by rw [State.snapDest, hkept (by decide), hkept (by decide)]; rfl)),
      (congrArg (fun f : FabSt => f.snap.stopped) hfab).trans h8⟩
  case refine_2 =>
    intro s u bands spad ls hr hu hbad
    have hw := State.hostWrite_snapArm bands spad ls hr
    rw [← hu] at hw
    obtain ⟨h1, h2, h3⟩ := State.snapArm_refused hbad
    have hkept : u.fab = s.fab ∧ u.getF F.FAB_SNAP_STATUS_STATE = s.getF F.FAB_SNAP_STATUS_STATE := by
      rw [hu]
      exact ⟨State.setFs_frame.keeps .fab (by decide), SameFields.setsIn (fs := snapCtrlFields) (by simp [snapCtrlFields]) _ (not_among (by decide))⟩
    refine Completes.of_op (t := (s.hostWrite 0x60000 (1 + 256 * bands.toNat + 65536 * b2n spad + 131072 * b2n ls)).2) rfl fun _ => ?_
    exact ⟨(State.getF_of_aud hw _).trans h1, (hw.keeps .fab (by decide)).trans (h2.trans hkept.1),
      (State.getF_of_aud hw _).trans (h3.trans hkept.2)⟩
  case refine_3 =>
    intro s hr hst
    obtain ⟨x, hx, hxst, hw⟩ := State.hostWrite_snapCancel hr
    obtain ⟨h1, h2⟩ := State.snapCancel_armed (hxst.trans hst)
    refine Completes.of_op (t := (s.hostWrite 0x60000 (s.word 0x60000 + 2)).2) rfl fun _ => ?_
    exact ⟨(State.getF_of_aud hw _).trans h1, (hw.keeps .fab (by decide)).trans (h2.trans (congrArg noSnap (hx.keeps .fab (by decide))))⟩
  case refine_4 =>
    intro s hr hst
    obtain ⟨x, hx, hxst, hw⟩ := State.hostWrite_snapCancel hr
    rw [State.snapCancel_other (hxst.trans_ne hst)] at hw
    refine Completes.of_op (t := (s.hostWrite 0x60000 (s.word 0x60000 + 2)).2) rfl fun _ => ?_
    exact ⟨(State.getF_of_aud hw _).trans hxst, (hw.keeps .fab (by decide)).trans (hx.keeps .fab (by decide))⟩
  case refine_5 =>
    intro s hst hstop hq
    obtain ⟨h1, h2⟩ := State.snapStart_spec hst hstop hq
    exact Completes.of_op (t := s.snapStart) rfl fun w =>
      ⟨h1, h2, SameBut.ended State.snapStart_frame w, State.snapStart_fields⟩
  case refine_6 =>
    intro s hst hleft
    obtain ⟨h1, h2, h3, h4⟩ := State.snapDone_spec hst hleft
    exact Completes.of_op (t := s.snapDone) rfl fun w =>
      ⟨h1, h2, h3, SameBut.ended (State.snapDone_frame.mono (by decide)) w, State.snapDone_fields, h4⟩

end Sys2Proof

/-! O28. A frame clause numbered past CAL_FC's registers (R299), whose MISSES falls on BAND_SLOTMAP. -/
namespace Sys2Proof.Machine
set_option Elab.async false

/-- What each step of a loop keeps, the loop keeps. -/
theorem each_inv (P : State → Prop) {x : State} (h : P x) (n : Nat) {f : State → Nat → State} (hf : ∀ y k, P y → P (f y k)) :
    P (x.each n f) := by
  unfold State.each
  induction List.range n generalizing x with
  | nil => exact h
  | cons k l ih => exact ih (hf x k h)

theorem State.frameThreads_fields {s : State} {p : Nat} {fs : List Fld} (h : F.CORE_THREAD_STATE p ∈ fs) :
    SameFields (s.frameThreads p) s (Among fs) := by
  refine each_inv (fun x => SameFields x s (Among fs)) (SameFields.refl _ _) 4 fun x t hx => ?_
  exact SameFields.ite hx ((SameFields.setIn h).trans hx)

theorem State.setStripe_fields {s : State} (b cl : Nat) :
    SameFields (s.setStripe b cl) s (Among [F.BAND_STRIPE_Y0 b, F.BAND_STRIPE_HEIGHT b]) := by
  unfold State.setStripe
  split
  · exact SameFields.refl _ _
  · exact SameFields.setsIn (by simp)

end Sys2Proof.Machine

namespace Sys2Proof
set_option Elab.async false
open Sys2Proof.Machine

/-- A clause of the counterexample. -/
def plainClause (id : Nat) (frame : Bool) : ClauseDesc := { (default : ClauseDesc) with id := id, frame := frame }

theorem findIdx?_last {α : Type} (p : α → Bool) (n : Nat) {a b : α} (ha : p a = false) (hb : p b = true) :
    (List.replicate n a ++ [b]).findIdx? p = some n := by
  induction n with
  | zero => simp [hb]
  | succ n ih => rw [List.replicate_succ, List.cons_append, List.findIdx?_cons, ha, ih]; rfl

/-- A schedule whose last frame clause, identifier 1, has the number 245728 = (0x100000 - 0x10080) / 4. -/
def longSchedule : Schedule :=
  { clauses := plainClause 1 false :: (List.replicate 245728 (plainClause 0 true) ++ [plainClause 1 true]) }

theorem longSchedule_clause : longSchedule.clause 1 = some (plainClause 1 false) := rfl

/-- The clause's number is past the registers that CAL_FC has. -/
theorem longSchedule_fcIndex : longSchedule.fcIndex 1 = some 245728 := by
  have hfilter : longSchedule.frameClauses = List.replicate 245728 (plainClause 0 true) ++ [plainClause 1 true] := by
    rw [Schedule.frameClauses, longSchedule, List.filter_cons_of_neg (by decide)]
    refine List.filter_eq_self.mpr fun c hc => ?_
    rcases List.mem_append.mp hc with h | h
    · rw [(List.mem_replicate.mp h).2]; rfl
    · rw [List.mem_singleton.mp h]; rfl
  rw [Schedule.fcIndex, hfilter]
  exact findIdx?_last _ _ rfl rfl

/-- MISSES of that number stands where the first band's BAND_SLOTMAP holds its idle slot. -/
theorem misses_key : (F.CAL_FC_MISSES 245728).key = (F.BAND_SLOTMAP_IDLE_SLOT 0).key := by decide

/-- Slot 3 of band 0 is idle and slot 8 holds logical core 3; an input frame is available whose run's due point has passed, and the
first entry opens the clause's window for logical core 3. -/
def longState : State :=
  { regs := (State.reset.setFs [(F.BAND_SLOTMAP_IDLE_SLOT 0, 3), (F.CORE_IDENT_ROLE 8, 0)]).regs, cal := { running := true, vTot := some 10 },
    almanac := [⟨0, 9, 0, 3, 0, 1, 8, 0, 1⟩], sched := longSchedule, avail := [(0, 0)], warp := [], fc := [] }

theorem longState_due : longState.due 0 3 = true := by decide +kernel
theorem longState_phys : longState.phys 3 = 8 := by decide +kernel
theorem longState_active : longState.active 8 = true := by decide +kernel
theorem longState_mwin : longState.getF (F.CORE_THREAD_MWIN 8) = 0 := by decide +kernel

theorem longState_fire : longState.fire 0 = { longState with cal := { longState.cal with fired := [0] } } := by
  have hnow : ¬ longState.now < longState.cycleOfPhase (longState.entry 0).phase := by decide +kernel
  unfold State.fire
  rw [State.waitUntil, if_neg hnow]
  rfl

/-- The state after the entry has fired. -/
def longFired : State := { longState with cal := { longState.cal with fired := [0] } }

/-- Counting a miss there moves the idle slot from 3 to 4. -/
theorem idleSlot_of_miss {x : State} (h : x.getF (F.CAL_FC_MISSES 245728) = 3) :
    (x.incF (F.CAL_FC_MISSES 245728) 1).getF (F.BAND_SLOTMAP_IDLE_SLOT 0) = 4 := by
  rw [State.getF, State.incF_vals, h, SMap.set, if_neg (by decide), ← misses_key]
  exact SMap.get_put_self _ _ _ _

/-- What such a miss leaves, once the run that failed to begin has been looked at. -/
theorem missedRun {x : State} (hmiss : x.getF (F.CAL_FC_MISSES 245728) = 3) (hfwin : x.getF (F.CORE_THREAD_FWIN 8) = 0) (n : Nat) :
    ((((x.incF (F.CAL_FC_SKIPS 245728) n).missDue 245728).barriersClear).runEnds 245728).getF (F.BAND_SLOTMAP_IDLE_SLOT 0) = 4 ∧
    ((((x.incF (F.CAL_FC_SKIPS 245728) n).missDue 245728).barriersClear).runEnds 245728).getF (F.CORE_THREAD_FWIN 8) = 0 ∧
    ((((x.incF (F.CAL_FC_SKIPS 245728) n).missDue 245728).barriersClear).runEnds 245728).fab.handovers = x.fab.handovers := by
  have h1 : (x.incF (F.CAL_FC_SKIPS 245728) n).getF (F.CAL_FC_MISSES 245728) = 3 := (State.getF_incF_ne _ _ (by decide)).trans hmiss
  have h2 : (x.incF (F.CAL_FC_SKIPS 245728) n).getF (F.CORE_THREAD_FWIN 8) = 0 := (State.getF_incF_ne _ _ (by decide)).trans hfwin
  have h3 : (x.incF (F.CAL_FC_SKIPS 245728) n).fab = x.fab := State.incF_frame.keeps .fab (by decide)
  generalize x.incF (F.CAL_FC_SKIPS 245728) n = y at *
  have hends (z : State) : SameFields (z.barriersClear.runEnds 245728) z (fun _ => False) :=
    (SameFields.of_frame State.runEnds_frame).trans (SameFields.of_frame State.barriersClear_frame)
  have hclear (z : State) : z.barriersClear.fab.handovers = z.fab.handovers := by
    unfold State.barriersClear
    dsimp only
    split <;> rfl
  refine ⟨(hends _ _ id).trans ?_, (hends _ _ id).trans ?_, ?_⟩
  · exact idleSlot_of_miss h1
  · exact (State.getF_incF_ne _ _ (by decide)).trans h2
  · rw [State.runEnds_frame.keeps .fab (by decide), hclear, State.missDue_frame.keeps .fab (by decide), h3]

/-- A run that would begin past its due point: MISSES counts, and slot 4 is the idle one. -/
theorem beginRun_missed {s : State} (hclause : s.sched.clause 1 = some (plainClause 1 false)) (hindex : s.sched.fcIndex 1 = some 245728)
    (havail : s.avail.getLast? = some (0, 0)) (hwarp : s.warp = []) (hdrz : s.sched.drzClause = none) (hfc : s.fc = [])
    (hframe : s.cal.frame = 0) (hmiss : s.getF (F.CAL_FC_MISSES 245728) = 3) (hfwin : s.getF (F.CORE_THREAD_FWIN 8) = 0) :
    (s.beginRun 1).getF (F.BAND_SLOTMAP_IDLE_SLOT 0) = 4 ∧ (s.beginRun 1).getF (F.CORE_THREAD_FWIN 8) = 0 ∧
    (s.beginRun 1).fab.handovers = s.fab.handovers := by
  have hlatch : s.workLatched 245728 = false := by
    rw [State.workLatched, List.any_eq_false, hwarp]
    exact fun _ _ => Bool.false_ne_true
  have hx (fc : List FcSt) : ({ s with fc := fc } : State).getF (F.CAL_FC_MISSES 245728) = 3 ∧
      ({ s with fc := fc } : State).getF (F.CORE_THREAD_FWIN 8) = 0 := ⟨hmiss, hfwin⟩
  unfold State.beginRun
  rw [hclause, hindex, havail]
  dsimp only
  rw [hfc, hlatch, hdrz, hframe, if_neg (by simp), if_pos (by decide)]
  exact missedRun (hx _).1 (hx _).2 _

theorem longFired_beginRun : (longFired.beginRun 1).getF (F.BAND_SLOTMAP_IDLE_SLOT 0) = 4 ∧
    (longFired.beginRun 1).getF (F.CORE_THREAD_FWIN 8) = 0 ∧ (longFired.beginRun 1).fab.handovers = longState.fab.handovers :=
  beginRun_missed longSchedule_clause longSchedule_fcIndex rfl rfl rfl rfl rfl (by decide +kernel) (by decide +kernel)

/-- What the entry's loops over bands and cores keep: slot 4 is idle, no handover is under way, and core 8 has no window. -/
def LateWindow (x : State) : Prop :=
  x.getF (F.BAND_SLOTMAP_IDLE_SLOT 0) = 4 ∧ x.fab.handovers = longState.fab.handovers ∧ x.getF (F.CORE_THREAD_FWIN 8) = 0

theorem LateWindow.phys {x : State} (h : LateWindow x) : x.phys 3 = 3 := by
  obtain ⟨hidle, hmoved, -⟩ := h
  have hm : x.moved 0 = none := by rw [State.moved, hmoved]; rfl
  have hl (k : Nat) (hk : k < 4) : x.logical k = some k := by
    have hb : bandOf k = 0 := by unfold bandOf; omega
    have hs : slotOf k = k := by unfold slotOf; omega
    unfold State.logical
    rw [hb, hm]
    dsimp only
    rw [State.mapLogical, hb, hs, hidle, if_neg (by omega), if_neg (by omega), Nat.mul_zero, Nat.zero_add]
  have hfind : ((List.range 9).find? fun k => x.logical (9 * (3 / 8) + k) == some 3) = some 3 := by
    refine List.find?_range_eq_some.mpr ⟨?_, by decide, fun j hj => ?_⟩
    · rw [show 9 * (3 / 8) + 3 = 3 from rfl, hl 3 (by decide)]; rfl
    · rw [show 9 * (3 / 8) + j = j by omega, hl j (by omega)]
      simp; omega
  unfold State.phys
  dsimp only
  rw [hfind]
  rfl

theorem LateWindow.of_fields {t x : State} {ok : Fld → Prop} (h : LateWindow x) (hf : SameFields t x ok)
    (hidle : ¬ ok (F.BAND_SLOTMAP_IDLE_SLOT 0)) (hfwin : ¬ ok (F.CORE_THREAD_FWIN 8)) (hfab : t.fab = x.fab) : LateWindow t :=
  ⟨(hf _ hidle).trans h.1, (congrArg FabSt.handovers hfab).trans h.2.1, (hf _ hfwin).trans h.2.2⟩

theorem bit_eight {k : Nat} (h : bit 8 k = true) : k = 3 := by
  have hk : k < 4 := by
    by_contra hk
    have : 8 < 2 ^ k := lt_of_lt_of_le (by decide) (Nat.pow_le_pow_right (by decide) (Nat.le_of_not_lt hk))
    simp [bit, Nat.div_eq_of_lt this] at h
  interval_cases k <;> revert h <;> decide

theorem bit_one {b : Nat} (h : bit 1 b = true) : b = 0 := by
  by_contra hb
  have : 1 < 2 ^ b := Nat.one_lt_two_pow hb
  simp [bit, Nat.div_eq_of_lt this] at h

/-- Each step of the entry's loops keeps it: only logical core 3 of band 0 is named, and it stands in slot 3 now. -/
theorem LateWindow.loops {x : State} (h : LateWindow x) (n : Nat) : LateWindow (x.each n fun s b =>
    if !bit 1 b then s
    else (s.setStripe b 1).each 8 fun s k =>
      let p := s.phys (8 * b + k)
      if bit 8 k ∧ s.active p ∧ s.getF (F.CORE_THREAD_MWIN p) = 0 then ((s.setF (F.CORE_THREAD_FWIN p) 1).takeUp p 1).frameThreads p
      else s) := by
  have hcore {y : State} (hy : LateWindow y) (k : Nat) : LateWindow (let p := y.phys (8 * 0 + k)
      if bit 8 k ∧ y.active p ∧ y.getF (F.CORE_THREAD_MWIN p) = 0 then ((y.setF (F.CORE_THREAD_FWIN p) 1).takeUp p 1).frameThreads p
      else y) := by
    dsimp only
    split
    · next hk =>
      obtain rfl := bit_eight hk.1
      rw [Nat.mul_zero, Nat.zero_add, hy.phys]
      have hf : SameFields (((y.setF (F.CORE_THREAD_FWIN 3) 1).takeUp 3 1).frameThreads 3) y
          (Among [F.CORE_THREAD_STATE 3, F.CORE_THREAD_FWIN 3]) :=
        (State.frameThreads_fields List.mem_cons_self).trans
          ((SameFields.of_frame State.takeUp_frame).trans (SameFields.setIn (f := F.CORE_THREAD_FWIN 3) (by simp)))
      have hfab : SameBut (((y.setF (F.CORE_THREAD_FWIN 3) 1).takeUp 3 1).frameThreads 3) y [.regs, .cores] :=
        SameBut.call State.frameThreads_frame (by decide) (SameBut.call State.takeUp_frame (by decide) (State.setF_frame.mono (by decide)))
      exact hy.of_fields hf (not_among (by decide)) (not_among (by decide)) (hfab.keeps .fab (by decide))
    · exact hy
  refine each_inv LateWindow h n fun y b hy => ?_
  split
  · exact hy
  · next hb =>
    obtain rfl := bit_one (by simpa using hb)
    have hs : LateWindow (y.setStripe 0 1) := hy.of_fields (State.setStripe_fields 0 1) (not_among (by decide)) (not_among (by decide))
      (State.setStripe_frame.keeps .fab (by decide))
    exact each_inv LateWindow hs 8 fun z k hz => hcore hz k

theorem longState_window : (longState.openWindow 0).getF (F.CORE_THREAD_FWIN 8) = 0 := by
  unfold State.openWindow
  rw [if_neg (by rw [longState_due]; decide), longState_fire]
  obtain ⟨h1, h2, h3⟩ := longFired_beginRun
  have h : LateWindow (longFired.beginRun 1) := ⟨h1, h3, h2⟩
  exact (h.loops _).2.2

theorem openFrameClauseWindow_getF {s t : State} {i : Nat} (h : exec (.openFrameClauseWindow i) s = .next t) (f : Fld) :
    t.getF f = (s.openWindow i).getF f := by
  have hend : t = { State.noteStat s (s.openWindow i) with pending := s.pending } := Host.Outcome.next.inj (h.symm.trans rfl)
  rw [hend, State.noteStat_eq]
  rfl

/-- Refutes O28: its first clause takes the core from the state before the command. A schedule with so many frame clauses that one has the
number 245728 counts a missed due point of that clause where band 0's BAND_SLOTMAP stands, and the window opens on another core. -/
theorem not_windowsOpenAndClose : ¬ Obligations.WindowsOpenAndClose := by
  unfold Obligations.WindowsOpenAndClose
  rintro ⟨hopen, -⟩
  obtain ⟨t, ht, -, hfwin⟩ := hopen longState 0 0 3 longState_due (by decide +kernel) (by decide) (by decide) (by decide)
    (longState_phys.symm ▸ longState_active) (longState_phys.symm ▸ longState_mwin)
  rw [show 8 * 0 + 3 = 3 from rfl, longState_phys] at hfwin
  rw [openFrameClauseWindow_getF ht, longState_window] at hfwin
  exact absurd hfwin (by decide)

end Sys2Proof

/-! SUPPORT. What passing time and handovers leave of the cores and bands (R43, R144, R247, R272). -/
namespace Sys2Proof.Machine
set_option Elab.async false

/-! ### Views of the cores and of the bands -/

/-- Every core of `t` shows through `v` what it shows in `s`. -/
def CoresShow {β : Type} (v : CoreSt → β) (t s : State) : Prop := ∀ q, v (t.core q) = v (s.core q)

/-- Every band of `t` shows through `v` what it shows in `s`. -/
def BandsShow {β : Type} (v : BandSt → β) (t s : State) : Prop := ∀ b, v (t.band b) = v (s.band b)

section
variable {β : Type} {v : CoreSt → β} {s t u : State}

theorem CoresShow.refl (v : CoreSt → β) (s : State) : CoresShow v s s := fun _ => rfl

theorem CoresShow.trans (h1 : CoresShow v u t) (h2 : CoresShow v t s) : CoresShow v u s := fun q => (h1 q).trans (h2 q)

theorem CoresShow.of_cores (h : t.cores = s.cores) : CoresShow v t s := fun q => by rw [State.core, h]; rfl

theorem CoresShow.of_frame {ps : List Part} (h : SameBut t s ps) (hp : .cores ∉ ps := by decide) : CoresShow v t s :=
  .of_cores (h.keeps .cores hp)

theorem CoresShow.onCore {p : Nat} {g : CoreSt → CoreSt} (h : ∀ c, v (g c) = v c) : CoresShow v (s.onCore p g) s := by
  intro q
  by_cases hq : q = p
  · rw [hq, State.core_onCore_self, h]
  · rw [State.core_onCore_ne _ _ hq]

theorem CoresShow.ite {c : Prop} [Decidable c] {a b : State} (ha : CoresShow v a s) (hb : CoresShow v b s) :
    CoresShow v (if c then a else b) s := by
  split <;> assumption

theorem CoresShow.foldl {α : Type} {g : State → α → State} {l : List α} (x : State) (h : ∀ y a, CoresShow v (g y a) y) :
    CoresShow v (l.foldl g x) x := by
  induction l generalizing x with
  | nil => exact .refl v x
  | cons a l ih => exact (ih (g x a)).trans (h x a)

theorem CoresShow.each {n : Nat} {g : State → Nat → State} (x : State) (h : ∀ y k, CoresShow v (g y k) y) :
    CoresShow v (x.each n g) x := .foldl x h

end

section
variable {β : Type} {v : BandSt → β} {s t u : State}

theorem BandsShow.refl (v : BandSt → β) (s : State) : BandsShow v s s := fun _ => rfl

theorem BandsShow.trans (h1 : BandsShow v u t) (h2 : BandsShow v t s) : BandsShow v u s := fun q => (h1 q).trans (h2 q)

theorem BandsShow.of_bands (h : t.bands = s.bands) : BandsShow v t s := fun q => by rw [State.band, h]; rfl

theorem BandsShow.of_frame {ps : List Part} (h : SameBut t s ps) (hp : .bands ∉ ps := by decide) : BandsShow v t s :=
  .of_bands (h.keeps .bands hp)

theorem State.band_onBand_self (s : State) (b : Nat) (g : BandSt → BandSt) : (s.onBand b g).band b = g (s.band b) :=
  SMap.get_set_self _ _ _ _

theorem State.band_onBand_ne (s : State) {a b : Nat} (g : BandSt → BandSt) (h : a ≠ b) : (s.onBand b g).band a = s.band a :=
  SMap.get_set_ne _ _ _ _ h

theorem BandsShow.onBand {b : Nat} {g : BandSt → BandSt} (h : ∀ c, v (g c) = v c) : BandsShow v (s.onBand b g) s := by
  intro a
  by_cases ha : a = b
  · rw [ha, State.band_onBand_self, h]
  · rw [State.band_onBand_ne _ _ ha]

theorem BandsShow.ite {c : Prop} [Decidable c] {x y : State} (hx : BandsShow v x s) (hy : BandsShow v y s) :
    BandsShow v (if c then x else y) s := by
  split <;> assumption

theorem BandsShow.foldl {α : Type} {g : State → α → State} {l : List α} (x : State) (h : ∀ y a, BandsShow v (g y a) y) :
    BandsShow v (l.foldl g x) x := by
  induction l generalizing x with
  | nil => exact .refl v x
  | cons a l ih => exact (ih (g x a)).trans (h x a)

theorem BandsShow.each {n : Nat} {g : State → Nat → State} (x : State) (h : ∀ y k, BandsShow v (g y k) y) :
    BandsShow v (x.each n g) x := .foldl x h

end

/-! ### Passing time -/

/-- A core but for what passing time may change: the charges of its lines, and where outputs that land stand. -/
def coreRest (c : CoreSt) : CoreSt :=
  { c with lines := [], pipe := [], spad := [], bad := [], wstage := [], rstage := [], zcRows := [], zcRaw := 0, zcPack := 0 }

/-- A band but for what passing time may change: its line store's bytes and banks, and the slot waits counted. -/
def bandRest (b : BandSt) : BandSt :=
  { b with mem := [], bad := [], lsWait := 0, used := [], rot := 0, served := (0, 0) }

/-- `t` shows every core and band of `s` but for what passing time may change. -/
def TimeShows (t s : State) : Prop := CoresShow coreRest t s ∧ BandsShow bandRest t s

section
variable {s t u : State}

theorem TimeShows.refl (s : State) : TimeShows s s := ⟨.refl _ s, .refl _ s⟩

theorem TimeShows.trans (h1 : TimeShows u t) (h2 : TimeShows t s) : TimeShows u s := ⟨h1.1.trans h2.1, h1.2.trans h2.2⟩

theorem TimeShows.of_frame {ps : List Part} (h : SameBut t s ps) (hc : .cores ∉ ps := by decide) (hb : .bands ∉ ps := by decide) :
    TimeShows t s := ⟨.of_frame h hc, .of_frame h hb⟩

theorem TimeShows.onCore {p : Nat} {g : CoreSt → CoreSt} (ht : TimeShows t s) (h : ∀ c, coreRest (g c) = coreRest c := by intro _; rfl) :
    TimeShows (t.onCore p g) s := TimeShows.trans (t := t) ⟨.onCore h, .of_bands rfl⟩ ht

theorem TimeShows.onBand {b : Nat} {g : BandSt → BandSt} (ht : TimeShows t s) (h : ∀ c, bandRest (g c) = bandRest c := by intro _; rfl) :
    TimeShows (t.onBand b g) s := TimeShows.trans (t := t) ⟨.of_cores rfl, .onBand h⟩ ht

theorem TimeShows.ite {c : Prop} [Decidable c] {a b : State} (ha : TimeShows a s) (hb : TimeShows b s) :
    TimeShows (if c then a else b) s := ⟨.ite ha.1 hb.1, .ite ha.2 hb.2⟩

theorem TimeShows.foldl {α : Type} {g : State → α → State} {l : List α} (x : State) (h : ∀ y a, TimeShows (g y a) y) :
    TimeShows (l.foldl g x) x := ⟨.foldl x fun y a => (h y a).1, .foldl x fun y a => (h y a).2⟩

theorem TimeShows.each {n : Nat} {g : State → Nat → State} (x : State) (h : ∀ y k, TimeShows (g y k) y) :
    TimeShows (x.each n g) x := .foldl x h

theorem State.spadMerge_shows {p : Nat} {ws ce ue : List Nat} : TimeShows (s.spadMerge p ws ce ue) s := by
  refine .foldl s fun y w => .ite ?_ (.ite ?_ (.refl y))
  · exact TimeShows.onCore ((TimeShows.of_frame State.spadLast_frame).trans (.of_frame State.incF_frame))
  · exact (TimeShows.of_frame State.spadLast_frame).trans (.of_frame State.incF_frame)

theorem State.lsMerge_shows {b : Nat} {ws ce ue : List Nat} : TimeShows (s.lsMerge b ws ce ue) s := by
  refine .foldl s fun y w => .ite ?_ (.ite ?_ (.refl y))
  · exact TimeShows.onBand (.of_frame State.incF_frame)
  · exact .of_frame State.incF_frame

theorem State.flushStage_shows {p u : Nat} : TimeShows (s.flushStage p u) s := by
  unfold State.flushStage
  split
  · exact .refl s
  · exact TimeShows.onCore State.spadMerge_shows

theorem State.stageByte_shows {p u a : Nat} {b : Byte} {ce ue : List Nat} : TimeShows (s.stageByte p u a b ce ue) s := by
  unfold State.stageByte
  extract_lets row other s1 old new s2
  have h1 : TimeShows s1 s := .ite State.flushStage_shows (.refl s)
  have h2 : TimeShows s2 s := TimeShows.onCore h1
  clear_value s2
  exact .ite (State.flushStage_shows.trans h2) h2

theorem State.writeNear_shows {place p u a : Nat} {bs : List Byte} {ce ue : List Nat} :
    TimeShows (s.writeNear place p u a bs ce ue) s :=
  .ite (TimeShows.onBand State.lsMerge_shows) (.foldl s fun _ _ => State.stageByte_shows)

theorem State.putRow_shows {r : Prn} {p u y x g : Nat} {codes side : List Nat} {tag : Nat} {ce ue : List Nat} :
    TimeShows (s.putRow r p u y x g codes tag side ce ue) s :=
  State.writeNear_shows.trans (State.writeNear_shows.trans State.writeNear_shows)

theorem State.storeNear_shows {p : Nat} {o : PipeOut} : TimeShows (s.storeNear p o) s := by
  unfold State.storeNear
  refine .ite (.refl s) ?_
  split
  · exact State.flushStage_shows
  · exact State.writeNear_shows
  · refine .ite ?_ State.putRow_shows
    extract_lets s1 s2
    have h1 : TimeShows s1 s := State.writeNear_shows.trans State.writeNear_shows
    have h2 : TimeShows s2 s := TimeShows.onCore h1
    clear_value s1 s2
    exact .ite (TimeShows.onCore (State.writeNear_shows.trans h2)) h2

theorem State.landOut_shows {p : Nat} {o : PipeOut} : TimeShows (s.landOut p o) s := by
  have hserve (b : BandSt) (t q : Nat) (rs : List (Nat × Nat)) : bandRest (lsServe b t q rs) = bandRest b := by
    unfold lsServe
    dsimp only
    split <;> rfl
  unfold State.landOut
  exact .ite State.storeNear_shows (.ite (TimeShows.onCore (.refl s)) (State.storeNear_shows.onBand fun _ => hserve _ _ _ _))

theorem State.landCore_shows {p : Nat} : TimeShows (s.landCore p) s := by
  unfold State.landCore
  exact .ite (.refl s) ((TimeShows.foldl _ fun _ _ => State.landOut_shows).trans (.onCore (.refl s)))

theorem State.stallThread_shows {p k t0 t1 : Nat} : TimeShows (s.stallThread p k t0 t1) s := by
  unfold State.stallThread
  extract_lets th hi n
  split
  · exact .refl s
  · refine .ite (.refl s) ?_
    extract_lets s1 s2
    have h1 : TimeShows s1 s := .of_frame State.incF_frame
    have h2 : TimeShows s2 s := by
      show TimeShows (match th.wait with | .slot _ => _ | _ => _) s
      split
      · exact TimeShows.onBand h1
      · exact h1
    clear_value s2
    exact .ite (TimeShows.onCore h2) h2

theorem State.stallCore_shows {t0 t1 p : Nat} : TimeShows (s.stallCore t0 t1 p) s :=
  .ite (.refl s) (.each s fun _ _ => State.stallThread_shows)

theorem State.advance_shows (s : State) (n : Nat) : TimeShows (s.advance n) s := by
  unfold State.advance
  extract_lets s1 cal s2
  have h1 : TimeShows s1 s := .foldl s fun _ _ => State.stallCore_shows
  have h2 : TimeShows s2 s := ⟨(CoresShow.of_cores rfl).trans h1.1, (BandsShow.of_bands rfl).trans h1.2⟩
  clear_value s2
  exact (TimeShows.foldl s2 fun _ _ => State.landCore_shows).trans h2

/-- Waiting leaves of every core and band what passing time does not change. -/
theorem State.waitUntil_shows (s : State) (n : Nat) : TimeShows (s.waitUntil n) s := .ite (s.advance_shows _) (.refl s)

theorem State.waitUntil_threads (s : State) (n q : Nat) : ((s.waitUntil n).core q).threads = (s.core q).threads :=
  have h : (coreRest ((s.waitUntil n).core q)).threads = (coreRest (s.core q)).threads := congrArg CoreSt.threads ((s.waitUntil_shows n).1 q)
  h

end

end Sys2Proof.Machine

/-! SUPPORT. Handovers in their interval (R272); O27. -/
namespace Sys2Proof.Machine
set_option Elab.async false

/-! ### Handovers are kept -/

/-- The handovers of `t` are those of `s`. -/
def SameHandovers (t s : State) : Prop := t.fab.handovers = s.fab.handovers

section
variable {s t u : State}

theorem SameHandovers.refl (s : State) : SameHandovers s s := rfl

theorem SameHandovers.trans (h1 : SameHandovers u t) (h2 : SameHandovers t s) : SameHandovers u s := Eq.trans h1 h2

theorem SameHandovers.of_frame {ps : List Part} (h : SameBut t s ps) (hp : .fab ∉ ps := by decide) : SameHandovers t s :=
  congrArg FabSt.handovers (h.keeps .fab hp)

theorem SameHandovers.foldl {α : Type} {g : State → α → State} {l : List α} (x : State) (h : ∀ y a, SameHandovers (g y a) y) :
    SameHandovers (l.foldl g x) x := foldl_same (fun y => y.fab.handovers) l h x

theorem SameHandovers.each {n : Nat} {g : State → Nat → State} (x : State) (h : ∀ y k, SameHandovers (g y k) y) :
    SameHandovers (x.each n g) x := .foldl x h

theorem State.barriersFail_handovers {c : Nat} : SameHandovers (s.barriersFail c) s := by
  refine .each s fun y g => ?_
  dsimp only
  split <;> rfl

theorem State.failIndex_handovers {i : Nat} : SameHandovers (s.failIndex i) s := by
  unfold State.failIndex
  split
  · rfl
  · split
    · rfl
    · extract_lets s1
      have h1 : SameHandovers s1 s := rfl
      clear_value s1
      split
      · exact (SameHandovers.of_frame State.runEnds_frame).trans (State.barriersFail_handovers.trans h1)
      · exact h1

theorem State.failRuns_handovers : SameHandovers s.failRuns s := .each s fun _ _ => State.failIndex_handovers

theorem State.quietEngine_handovers {g : EngId} : SameHandovers (s.quietEngine g) s := by
  unfold State.quietEngine
  extract_lets s1 _ s2
  have h1 : SameHandovers s1 s := .foldl s fun _ _ => .of_frame State.finishOne_frame
  have h2 : SameHandovers s2 s := h1
  clear_value s1 s2
  exact (SameHandovers.of_frame State.setF_frame).trans ((SameHandovers.of_frame State.setFs_frame).trans
    ((SameHandovers.of_frame State.onEng_frame).trans h2))

/-! ### A core without work -/

/-- No thread of core `p` carries a clause. -/
def CoreIdle (p : Nat) (x : State) : Prop := ∀ k, ((x.core p).threads.getD k {}).clause = none

theorem CoreIdle.of_threads {p : Nat} (h : CoreIdle p s) (ht : (t.core p).threads = (s.core p).threads) : CoreIdle p t := by
  intro k
  rw [ht]
  exact h k

theorem idleCore_clause (c : CoreSt) (k : Nat) : ((idleCore c).threads.getD k {}).clause = none := by
  match k with
  | 0 | 1 | 2 | 3 => rfl
  | k + 4 => rfl

theorem CoreIdle.onCore {p q : Nat} {g : CoreSt → CoreSt} (h : CoreIdle p s)
    (hg : ∀ c, (∀ k, (c.threads.getD k {}).clause = none) → ∀ k, ((g c).threads.getD k {}).clause = none) : CoreIdle p (s.onCore q g) := by
  intro k
  by_cases hq : p = q
  · subst hq
    rw [State.core_onCore_self]
    exact hg _ h k
  · rw [State.core_onCore_ne _ _ hq]
    exact h k

theorem CoreIdle.onThread {p q n : Nat} {g : Thread → Thread} (h : CoreIdle p s) (hg : ∀ x, (g x).clause = none) :
    CoreIdle p (s.onThread q n g) := by
  refine h.onCore fun c hc k => ?_
  have hk := hc k
  rw [List.getD_eq_getElem?_getD] at hk ⊢
  rw [List.getElem?_modify]
  cases hl : c.threads[k]? with
  | none => rfl
  | some x =>
    rw [hl] at hk
    show (if n = k then g x else x).clause = none
    split
    · exact hg x
    · exact hk

theorem CoreIdle.of_frame {p : Nat} {ps : List Part} (h : CoreIdle p s) (hf : SameBut t s ps) (hp : .cores ∉ ps := by decide) :
    CoreIdle p t := h.of_threads (congrArg CoreSt.threads (CoresShow.of_frame (v := id) hf hp p))

theorem CoreIdle.abandonSteps {p : Nat} (h : CoreIdle p s) : CoreIdle p s.abandonSteps := by
  have hdrop {x : State} (hx : CoreIdle p x) : CoreIdle p x.dropSteps := by
    unfold State.dropSteps
    split
    · exact hx
    · extract_lets sem s1
      have h1 : CoreIdle p s1 := by
        refine each_inv (CoreIdle p) hx 72 fun y q hy => ?_
        split
        · refine CoreIdle.onCore ?_ fun _ hc => hc
          exact CoreIdle.of_frame (.of_frame (.of_frame (hy.onThread fun _ => rfl) State.setThreadState_frame) State.frameThreads_frame)
            State.initSem_frame
        · exact hy
      clear_value s1
      exact h1.of_frame State.onDrz_frame
  unfold State.abandonSteps
  split
  · exact h
  · exact CoreIdle.of_frame (.of_frame (hdrop h) State.incF_frame) State.drzTaint_frame

theorem CoreIdle.waitUntil {p n : Nat} (h : CoreIdle p s) : CoreIdle p (s.waitUntil n) := h.of_threads (s.waitUntil_threads n p)

theorem CoreIdle.initSems {p q : Nat} (h : CoreIdle p s) : CoreIdle p (s.initSems q) :=
  CoreIdle.onCore (each_inv (CoreIdle p) h 64 fun _ _ hy => hy.of_frame State.initSem_frame) fun _ hc => hc

theorem CoreIdle.copyTables {p a b : Nat} (h : CoreIdle p s) : CoreIdle p (s.copyTables a b) := by
  unfold State.copyTables
  extract_lets part s1
  have hpart {x : State} (off n : Nat) (hx : CoreIdle p x) : CoreIdle p (part x off n) := hx.of_threads rfl
  have h1 : CoreIdle p s1 := hpart _ _ (hpart _ _ (hpart _ _ (hpart _ _ (hpart _ _ h))))
  clear_value s1
  exact CoreIdle.onCore h1.initSems fun _ hc => hc

/-! ### A handover is carried out -/

/-- The outgoing core's steps of a handover (R272): runs fail, its engines stop. -/
def State.handoverStop (s : State) (t o : Nat) : State :=
  (coreEngines o).foldl (fun s g => s.quietEngine g) (((s.waitUntil t).failRuns).each 4 fun s k => s.setThreadState o k 0)

theorem State.handoverStop_handovers {n o : Nat} : SameHandovers (s.handoverStop n o) s :=
  (SameHandovers.foldl _ fun _ _ => State.quietEngine_handovers).trans ((SameHandovers.each _ fun _ _ => .of_frame State.setThreadState_frame).trans
    (State.failRuns_handovers.trans (.of_frame State.waitUntil_frame)))

/-- The tables move from slot `o` to slot `i`, the incoming core with the plan, the open spans and the reentries of the outgoing one. -/
def State.handoverMove (s : State) (o i : Nat) : State :=
  let s3 := (((s.onCore o idleCore).leaveRuns o).copyTables o i).setF (F.CORE_CLK_BIN_PLAN i) (s.getF (F.CORE_CLK_BIN_PLAN o))
  s3.onCore i fun c => { idleCore c with
    binFrom := s3.now, voids := (s.core o).voids, reentry := (s.core o).reentry.map fun r => { r with drained := true } }

theorem State.handoverMove_handovers {o i : Nat} : SameHandovers (s.handoverMove o i) s := by
  unfold State.handoverMove
  extract_lets s3
  have h3 : SameHandovers s3 s := (SameHandovers.of_frame State.setF_frame).trans ((SameHandovers.of_frame State.copyTables_frame).trans
    ((SameHandovers.of_frame State.leaveRuns_frame).trans (.of_frame State.onCore_frame)))
  clear_value s3
  exact (SameHandovers.of_frame State.onCore_frame).trans h3

theorem State.handoverMove_idle {o i : Nat} : CoreIdle o (s.handoverMove o i) := by
  unfold State.handoverMove
  extract_lets s3
  have h0 : CoreIdle o (s.onCore o idleCore) := by
    intro k
    rw [State.core_onCore_self]
    exact idleCore_clause _ k
  have h3 : CoreIdle o s3 := CoreIdle.of_frame (CoreIdle.copyTables (h0.of_frame State.leaveRuns_frame)) State.setF_frame
  clear_value s3
  exact h3.onCore fun c _ k => idleCore_clause c k

/-- A band's handover is marked as carried out. -/
def State.carryHandover (s : State) (b : Nat) (h : Handover) : State :=
  { s with fab := { s.fab with handovers := s.fab.handovers.set b (some { h with carried := true }) } }

theorem State.handoverStart_eq {b at_ : Nat} {h : Handover} (hh : s.fab.handovers.getD b none = some h) (hi : s.interval = some at_)
    (hc : h.carried = false) (hd : h.decided + msCycles 1 ≤ at_) (hch : s.change = none) (hg : s.gated b = false) :
    s.handoverStart b = ((((s.handoverStop at_ (9 * b + h.outSlot)).handoverMove (9 * b + h.outSlot) (9 * b + h.inSlot)).waitUntil
      (at_ + 6000)).carryHandover b h) := by
  unfold State.handoverStart
  rw [hh, hi]
  dsimp only
  rw [hch, if_neg (by simp [hc, hg]; omega)]
  dsimp only [State.carryHandover, State.handoverMove, State.handoverStop]

theorem State.handoverStart_spec {b at_ : Nat} {h : Handover} (hh : s.fab.handovers.getD b none = some h) (hi : s.interval = some at_)
    (hc : h.carried = false) (hd : h.decided + msCycles 1 ≤ at_) (hch : s.change = none) (hg : s.gated b = false) :
    at_ + 6000 ≤ (s.handoverStart b).now ∧ (s.handoverStart b).fab.handovers.getD b none = some { h with carried := true } ∧
    CoreIdle (9 * b + h.outSlot) (s.handoverStart b) := by
  rw [State.handoverStart_eq hh hi hc hd hch hg]
  have h1 : SameHandovers (s.handoverStop at_ (9 * b + h.outSlot)) s := State.handoverStop_handovers
  generalize s.handoverStop at_ (9 * b + h.outSlot) = x at *
  have h2 : SameHandovers (x.handoverMove (9 * b + h.outSlot) (9 * b + h.inSlot)) x := State.handoverMove_handovers
  have hidle : CoreIdle (9 * b + h.outSlot) (x.handoverMove (9 * b + h.outSlot) (9 * b + h.inSlot)) := State.handoverMove_idle
  generalize x.handoverMove (9 * b + h.outSlot) (9 * b + h.inSlot) = y at *
  have h3 : SameHandovers (y.waitUntil (at_ + 6000)) y := .of_frame State.waitUntil_frame
  have hnow : (y.waitUntil (at_ + 6000)).now = max y.now (at_ + 6000) := State.waitUntil_now _ _
  have hidle' := hidle.waitUntil (n := at_ + 6000)
  generalize y.waitUntil (at_ + 6000) = z at *
  have hz : z.fab.handovers = s.fab.handovers := h3.trans (h2.trans h1)
  have hlen : b < z.fab.handovers.length := by
    rw [hz]
    by_contra hn
    rw [List.getD_eq_default _ _ (by omega)] at hh
    cases hh
  refine ⟨?_, ?_, hidle'.of_threads rfl⟩
  · show at_ + 6000 ≤ z.now
    omega
  · show (z.fab.handovers.set b (some { h with carried := true })).getD b none = _
    rw [List.getD_eq_getElem?_getD, List.getElem?_set_self hlen]
    rfl

end

end Sys2Proof.Machine

namespace Sys2Proof
set_option Elab.async false
open Sys2Proof.Machine

/-- Settles O27: the outgoing core is left idle, time runs to the interval's end, and the abandoned Drizzle step starts no clause. -/
theorem handoversAreCarriedOut : Obligations.HandoversAreCarriedOut := by
  unfold Obligations.HandoversAreCarriedOut
  intro s b at_ h hb hh hi hc hd hch hg
  obtain ⟨hnow, hcarried, hidle⟩ := State.handoverStart_spec hh hi hc hd hch hg
  refine Completes.of_act (t := s.handoverStep b) rfl hb fun _ => ?_
  have hstep : at_ + 6000 ≤ (s.handoverStep b).now ∧ (s.handoverStep b).fab.handovers.getD b none = some { h with carried := true } ∧
      CoreIdle (9 * b + h.outSlot) (s.handoverStep b) := by
    unfold State.handoverStep
    dsimp only
    generalize s.handoverStart b = x at *
    split
    · have hx : SameBut x.abandonSteps x [.regs, .cores, .drz] := State.abandonSteps_frame
      exact ⟨by rw [hx.keeps .now (by decide)]; exact hnow, by rw [hx.keeps .fab (by decide)]; exact hcarried, hidle.abandonSteps⟩
    · exact ⟨hnow, hcarried, hidle⟩
  obtain ⟨h1, h2, h3⟩ := hstep
  exact ⟨le_trans (by unfold usCycles; omega) h1, h2, h3⟩

end Sys2Proof

/-! SUPPORT. Changes of schedule: the decision (R293) and the installation (R294); O29. -/
namespace Sys2Proof.Machine
set_option Elab.async false

section
variable {s u : State}

/-! ### MODE_REQ -/

/-- The fields of CAL_MODE. -/
def calModeFields : List Fld :=
  [F.CAL_MODE_MODE_REQ, F.CAL_MODE_MODE_CUR, F.CAL_MODE_MODE_HELD, F.CAL_MODE_SCHED_CUR, F.CAL_MODE_CHANGING]

theorem regAt_calMode : regAt 0x10040 = some calModeFields := by decide +kernel

theorem blockOf_calMode : blockOf 0x10040 = some (.cal, 0x40) := by decide +kernel

theorem State.writeFields_calMode (v : Nat) : calModeFields.foldl (State.writeField v) s = s.setF F.CAL_MODE_MODE_REQ (bits v 0 3) := by
  have h1 : isShared F.CAL_MODE_MODE_REQ = false := by decide
  have hw {x : State} {f : Fld} (hacc : f.acc = .rw) (h : isShared f = false) : State.writeField v x f = x.setF f (bits v f.lo f.w) := by
    simp [State.writeField, hacc, h]
  have ho {x : State} {f : Fld} (hacc : f.acc = .ro) : State.writeField v x f = x := by simp [State.writeField, hacc]
  simp only [calModeFields, List.foldl_cons, List.foldl_nil]
  rw [hw (f := F.CAL_MODE_MODE_REQ) rfl h1, ho (f := F.CAL_MODE_MODE_CUR) rfl, ho (f := F.CAL_MODE_MODE_HELD) rfl,
    ho (f := F.CAL_MODE_SCHED_CUR) rfl, ho (f := F.CAL_MODE_CHANGING) rfl]
  rfl

/-- After boot a write of MODE_REQ is compared with MODE_CUR (R293). -/
theorem State.hostWrite_modeReq {v : Nat} (hr : s.replaying = false) (hboot : s.getF F.DEV_BOOT_COMPLETE = 1) :
    SameBut (s.hostWrite 0x10040 v).2 (s.setF F.CAL_MODE_MODE_REQ (bits v 0 3)).modeCheck [.aud] := by
  obtain ⟨w, hw⟩ := State.wordAt_isSome (s := s) blockOf_calMode regAt_calMode (by simp)
  have h := State.hostWrite_taken (v := v) hr (by decide) blockOf_calMode regAt_calMode hw
    ⟨F.CAL_MODE_MODE_REQ, by simp [calModeFields], State.writable_rw s rfl⟩ rfl
  rw [State.writeFields_calMode] at h
  have hup : (s.setF F.CAL_MODE_MODE_REQ (bits v 0 3)).locked = true := by
    rw [State.locked, State.getF_setF_ne _ _ (by decide), hboot]; rfl
  unfold State.writeEffect at h
  dsimp only at h
  rwa [if_pos ⟨rfl, hup⟩] at h

/-! ### The decision -/

theorem State.modeReady_setF {f : Fld} {v : Nat} (h1 : F.CAL_MODE_MODE_REQ.key ≠ f.key) (h2 : F.PWR_STATE_TARGET.key ≠ f.key) :
    (s.setF f v).modeReady = s.modeReady := by
  unfold State.modeReady State.nbMatches
  rw [State.getF_setF_ne _ _ h1, State.getF_setF_ne _ _ h2]
  rfl

theorem State.targetMode_setF {f : Fld} {v : Nat} (h1 : F.CAL_MODE_MODE_REQ.key ≠ f.key) (h2 : F.PWR_STATE_TARGET.key ≠ f.key)
    (h3 : F.CAL_MODE_MODE_CUR.key ≠ f.key) : (s.setF f v).targetMode = s.targetMode := by
  unfold State.targetMode
  rw [State.modeReady_setF h1 h2, State.getF_setF_ne _ _ h1, State.getF_setF_ne _ _ h3]
  rfl

/-- The change that a decision leaves (R293): a new one, or the one that waits with the mode that is now the target. -/
def State.decided (s : State) : SchedChange :=
  let m := s.targetMode
  let k := s.prog.schedOf m s.inp.fit.bucket
  let b := s.inp.fit.bucket
  match s.change with
  | some c => if c.installed then c else { c with mode := m, sched := k, bucket := b, newBucket := c.newBucket || b != s.bucket }
  | none => { decidedAt := s.now, mode := m, sched := k, bucket := b, newBucket := b != s.bucket }

theorem State.decideChange_spec : s.decideChange.change = some s.decided ∧ s.decideChange.now = s.now ∧
    s.decideChange.getF F.CAL_MODE_CHANGING = 1 ∧ SameFields s.decideChange s (Among [F.CAL_MODE_CHANGING]) := by
  unfold State.decideChange
  refine ⟨?_, State.setF_frame.keeps .now (by decide), State.getF_setF_self _ _ _, ?_⟩
  · refine Eq.trans (State.setF_frame.keeps .change (by decide)) ?_
    rfl
  · exact SameFields.trans (SameFields.setIn List.mem_cons_self) (SameFields.of_regs rfl)

/-- A change that waits takes the target's mode (R293). -/
theorem State.modeCheck_waiting (h : s.changeWaits = true) :
    s.modeCheck = (s.setF F.CAL_MODE_MODE_HELD (b2n !s.modeReady)).decideChange := if_pos h

theorem State.modeCheck_decides (h : s.changeWaits = false) (hready : s.modeReady = true)
    (hnew : s.getF F.CAL_MODE_MODE_REQ ≠ s.getF F.CAL_MODE_MODE_CUR) (hup : s.poweringUp = false) (hrun : s.cal.running = true) :
    s.modeCheck = (s.setF F.CAL_MODE_MODE_HELD 0).decideChange := by
  unfold State.modeCheck
  dsimp only
  rw [if_neg (by rw [h]; decide), hready, if_pos]
  · rfl
  · rw [State.getF_setF_ne _ _ (by decide), State.getF_setF_ne _ _ (by decide)]
    exact ⟨rfl, hnew, by rw [hup]; rfl, hrun⟩

theorem State.modeCheck_held (h : s.changeWaits = false) (hready : s.modeReady = false) :
    s.modeCheck = s.setF F.CAL_MODE_MODE_HELD 1 := by
  unfold State.modeCheck
  dsimp only
  rw [if_neg (by rw [h]; decide), hready, if_neg (by simp)]
  rfl

/-! ### The installation -/

/-- The interval's steps up to the new schedule's re-timer: clauses, engines and semaphores stop, the tables go in (R294). -/
def State.changeReady (s : State) (t : Nat) (sc : Schedule) (n : Nat) : State :=
  let s1 := (s.waitUntil t).abandonRuns false
  let s2 := s1.each 72 fun s p => (coreEngines p).foldl (fun s g => s.quietEngine g) s
  let s3 := s2.each 8 fun s b => (bandEngines b).foldl (fun s g => s.quietEngine g) s
  let s4 := s3.each 72 fun s p => s.initSems p
  ((s4.installTables sc n).waitUntil (t + 9000)).installRt sc

theorem State.changeReady_now (t : Nat) (sc : Schedule) (n : Nat) : t + 9000 ≤ (s.changeReady t sc n).now := by
  unfold State.changeReady
  extract_lets s1 s2 s3 s4
  clear_value s4
  have hnow : ((s4.installTables sc n).waitUntil (t + 9000)).now = max (s4.installTables sc n).now (t + 9000) := State.waitUntil_now _ _
  rw [State.installRt_frame.keeps .now (by decide), hnow]
  exact le_max_right _ _

/-- The new schedule is in force, and its change waits for the boundary. -/
def State.changeTaken (s : State) (c : SchedChange) (sc : Schedule) (nextF e : Nat) : State :=
  let x := s.newCtx sc nextF
  { s with
    almanac := sc.almanac, sched := sc, noBase1 := true, signals := [], remotes := []
    change := some { c with installed := true }
    firstLines := some (nextF, e)
    fab := { s.fab with barriers := [] }
    ctxNext := some x
    warp := s.warp.map fun w =>
      if sc.rt.lag = 0 then {} else { w with ctx := none, next := 0, queued := [x], since := s.now } }

theorem State.scheduleChange_eq {c : SchedChange} {t v : Nat} (hc : s.change = some c) (hinst : c.installed = false)
    (hi : s.interval = some t) (hd : c.decidedAt < t) (hv : s.cal.vTot = some v) :
    ∃ n e, s.scheduleChange = (s.changeReady t (s.prog.scheds.getD c.sched {}) n).changeTaken c (s.prog.scheds.getD c.sched {})
      ((s.cal.frame + 1) % 2 ^ 32) e := by
  unfold State.scheduleChange
  rw [hc, hi, hv]
  dsimp only
  rw [if_neg (by simp [hinst]; omega)]
  refine ⟨((s.prog.mode c.mode).getD default).nCores,
    firstE (s.prog.scheds.getD c.sched {}) v ((s.prog.mode c.mode).getD default).vActive, ?_⟩
  dsimp only [State.changeTaken, State.changeReady]

/-- The Drizzle step that a change abandons, and the histogram configuration that it brings, leave the calendar's parts alone. -/
theorem State.scheduleChangeStep_kept : SameBut s.scheduleChangeStep s.scheduleChange [.regs, .cores, .drz] := by
  unfold State.scheduleChangeStep
  extract_lets s1 did s2
  have h2 : SameBut s2 s1 [.regs, .cores, .drz] := State.abandonSteps_frame
  clear_value s2 did
  split
  · split
    · exact SameBut.call State.drzHist_frame (by decide) h2
    · exact h2
  · exact SameBut.refl _ _

end

end Sys2Proof.Machine

namespace Sys2Proof
set_option Elab.async false
open Sys2Proof.Machine

/-- Settles O29: a write of MODE_REQ runs the comparison of R293, and a change is carried out in the interval's steps (R294). -/
theorem schedulesChangeAsDecided : Obligations.SchedulesChangeAsDecided := by
  unfold Obligations.SchedulesChangeAsDecided
  refine ⟨?_, ?_, ?_, ?_⟩
  case refine_1 =>
    intro s u v hr hboot hu hready hwaits
    have hw := State.hostWrite_modeReq (v := v.toNat) hr hboot
    rw [← hu, State.modeCheck_held (by rw [hu]; exact hwaits) hready] at hw
    refine Completes.of_op (t := (s.hostWrite 0x10040 v.toNat).2) rfl fun _ => ?_
    refine ⟨(State.getF_of_aud hw _).trans ?_, (State.getF_of_aud hw _).trans ?_, (hw.keeps .change (by decide)).trans ?_,
      (hw.keeps .now (by decide)).trans ?_⟩
    · rw [State.getF_setF_ne _ _ (by decide), hu, State.getF_setF_self]
      exact Nat.mod_eq_of_lt (Nat.mod_lt _ (by decide))
    · exact State.getF_setF_self _ _ _
    · rw [State.setF_frame.keeps .change (by decide), hu, State.setF_frame.keeps .change (by decide)]
    · rw [State.setF_frame.keeps .now (by decide), hu, State.setF_frame.keeps .now (by decide)]
  case refine_2 =>
    intro s u v hr hboot hu hready hup hrun hnew hnone
    have hw := State.hostWrite_modeReq (v := v.toNat) hr hboot
    rw [← hu] at hw
    have hreq : u.getF F.CAL_MODE_MODE_REQ = bits v.toNat 0 3 := by
      rw [hu, State.getF_setF_self]
      exact Nat.mod_eq_of_lt (Nat.mod_lt _ (by decide))
    have hx : SameBut u s [.regs] := by rw [hu]; exact State.setF_frame
    have hcur : u.getF F.CAL_MODE_MODE_CUR = s.getF F.CAL_MODE_MODE_CUR := by rw [hu]; exact State.getF_setF_ne _ _ (by decide)
    have hchange : u.change = none := (hx.keeps .change (by decide)).trans hnone
    have hwaits : u.changeWaits = false := by rw [State.changeWaits, hchange]; rfl
    have hcal : u.cal.running = true := by rw [hx.keeps .cal (by decide)]; exact hrun
    rw [State.modeCheck_decides hwaits hready (by rw [hreq, hcur]; exact hnew) hup hcal] at hw
    have htarget : (u.setF F.CAL_MODE_MODE_HELD 0).targetMode = bits v.toNat 0 3 := by
      rw [State.targetMode_setF (by decide) (by decide) (by decide), State.targetMode, if_pos ⟨hready, by rw [hup]; rfl⟩, hreq]
    have hy : SameBut (u.setF F.CAL_MODE_MODE_HELD 0) s [.regs] := State.setF_frame.trans hx
    have hyreq : (u.setF F.CAL_MODE_MODE_HELD 0).getF F.CAL_MODE_MODE_REQ = bits v.toNat 0 3 := (State.getF_setF_ne _ _ (by decide)).trans hreq
    have hyheld : (u.setF F.CAL_MODE_MODE_HELD 0).getF F.CAL_MODE_MODE_HELD = 0 := State.getF_setF_self _ _ _
    generalize u.setF F.CAL_MODE_MODE_HELD 0 = y at *
    obtain ⟨h1, h2, h3, h4⟩ := State.decideChange_spec (s := y)
    refine Completes.of_op (t := (s.hostWrite 0x10040 v.toNat).2) rfl fun _ => ?_
    refine ⟨(State.getF_of_aud hw _).trans ((h4 _ (not_among (by decide))).trans hyreq),
      (State.getF_of_aud hw _).trans ((h4 _ (not_among (by decide))).trans hyheld), (State.getF_of_aud hw _).trans h3,
      y.decided, (hw.keeps .change (by decide)).trans h1, ?_⟩
    have hyc : y.change = none := (hy.keeps .change (by decide)).trans hnone
    rw [State.decided, hyc]
    dsimp only
    rw [htarget, hy.keeps .prog (by decide), hy.keeps .inp (by decide)]
    exact ⟨hy.keeps .now (by decide), rfl, rfl, rfl⟩
  case refine_3 =>
    intro s u v c hr hboot hu hc hinst
    have hw := State.hostWrite_modeReq (v := v.toNat) hr hboot
    rw [← hu] at hw
    have hreq : u.getF F.CAL_MODE_MODE_REQ = bits v.toNat 0 3 := by
      rw [hu, State.getF_setF_self]
      exact Nat.mod_eq_of_lt (Nat.mod_lt _ (by decide))
    have hx : SameBut u s [.regs] := by rw [hu]; exact State.setF_frame
    have hchange : u.change = some c := (hx.keeps .change (by decide)).trans hc
    have hwaits : u.changeWaits = true := by rw [State.changeWaits, hchange]; simp [hinst]
    rw [State.modeCheck_waiting hwaits] at hw
    generalize hv : b2n (!u.modeReady) = held at hw
    have htarget : (u.setF F.CAL_MODE_MODE_HELD held).targetMode = u.targetMode := State.targetMode_setF (by decide) (by decide) (by decide)
    have hy : SameBut (u.setF F.CAL_MODE_MODE_HELD held) s [.regs] := State.setF_frame.trans hx
    have hyreq : (u.setF F.CAL_MODE_MODE_HELD held).getF F.CAL_MODE_MODE_REQ = bits v.toNat 0 3 :=
      (State.getF_setF_ne _ _ (by decide)).trans hreq
    generalize u.setF F.CAL_MODE_MODE_HELD held = y at *
    obtain ⟨h1, h2, h3, h4⟩ := State.decideChange_spec (s := y)
    refine Completes.of_op (t := (s.hostWrite 0x10040 v.toNat).2) rfl fun _ => ?_
    refine ⟨(State.getF_of_aud hw _).trans ((h4 _ (not_among (by decide))).trans hyreq),
      (hw.keeps .now (by decide)).trans (h2.trans (hy.keeps .now (by decide))), y.decided, (hw.keeps .change (by decide)).trans h1, ?_⟩
    have hyc : y.change = some c := (hy.keeps .change (by decide)).trans hc
    rw [State.decided, hyc]
    dsimp only
    rw [if_neg (by rw [hinst]; decide), htarget, hy.keeps .prog (by decide), hy.keeps .inp (by decide)]
    exact ⟨rfl, hinst, rfl, rfl⟩
  case refine_4 =>
    intro s c at_ v hc hinst hi hd hv
    obtain ⟨n, e, heq⟩ := State.scheduleChange_eq hc hinst hi hd hv
    have hnow := State.changeReady_now (s := s) at_ (s.prog.scheds.getD c.sched {}) n
    have hkept := State.scheduleChangeStep_kept (s := s)
    have hprog : s.scheduleChange.prog = s.prog := State.scheduleChange_frame.keeps .prog (by decide)
    refine Completes.of_op (t := s.scheduleChangeStep) rfl fun _ => ?_
    rw [heq] at hkept hprog
    generalize s.changeReady at_ (s.prog.scheds.getD c.sched {}) n = x at *
    generalize hsc : s.prog.scheds.getD c.sched {} = sc at *
    generalize hnext : (s.cal.frame + 1) % 2 ^ 32 = nextF at *
    have hy : (x.changeTaken c sc nextF e).sched = sc ∧ (x.changeTaken c sc nextF e).almanac = sc.almanac ∧
        (x.changeTaken c sc nextF e).change = some { c with installed := true } ∧ (x.changeTaken c sc nextF e).noBase1 = true ∧
        (x.changeTaken c sc nextF e).signals = [] ∧ (x.changeTaken c sc nextF e).remotes = [] ∧
        (x.changeTaken c sc nextF e).firstLines = some (nextF, e) ∧ (x.changeTaken c sc nextF e).now = x.now :=
      ⟨rfl, rfl, rfl, rfl, rfl, rfl, rfl, rfl⟩
    generalize x.changeTaken c sc nextF e = y at *
    obtain ⟨h1, h2, h3, h4, h5, h6, h7, h8⟩ := hy
    have hsched := (hkept.keeps .sched (by decide)).trans h1
    refine ⟨hsched, (hkept.keeps .almanac (by decide)).trans (h2.trans (congrArg Schedule.almanac hsched.symm)),
      (hkept.keeps .change (by decide)).trans h3, (hkept.keeps .noBase1 (by decide)).trans h4,
      (hkept.keeps .signals (by decide)).trans h5, (hkept.keeps .remotes (by decide)).trans h6,
      ⟨e, (hkept.keeps .firstLines (by decide)).trans h7⟩, ?_, (hkept.keeps .prog (by decide)).trans hprog⟩
    show at_ + usCycles 6 ≤ s.scheduleChangeStep.now
    rw [hkept.keeps .now (by decide), h8]
    exact hnow

end Sys2Proof

/-! SUPPORT. Boot-complete (R499, R454) and appends to the ledger (R504, R505, R551); O51. -/
namespace Sys2Proof.Machine
set_option Elab.async false

section
variable {s t : State}

/-- A field set in a list takes the value that it is set to last. -/
theorem State.getF_setFs_at {l : List (Fld × Nat)} {i : Nat} {f : Fld} {v : Nat} (h : l[i]? = some (f, v))
    (hlast : ∀ x ∈ l.drop (i + 1), f.key ≠ x.1.key) : (s.setFs l).getF f = v % 2 ^ f.w := by
  induction l generalizing s i with
  | nil => simp at h
  | cons a l ih =>
    cases i with
    | zero =>
      obtain rfl : a = (f, v) := by simpa using h
      exact (State.getF_setFs_ne _ _ _ hlast).trans (State.getF_setF_self _ _ _)
    | succ i => exact ih (by simpa using h) hlast

/-! ### Boot-complete -/

theorem State.rasterStart_held {n : Nat} {boot : Bool} {f : Fld} (hf : f ∈ [F.DEV_BOOT_STAGE, F.DEV_BOOT_COMPLETE, F.DEV_BOOT_HOLDING,
    F.PWR_STATE_STATE, F.PWR_STATE_BUSY, F.DRM_STATUS_SELF_REFRESH]) : (s.rasterStart n boot).getF f = s.getF f := by
  have hkeep (hb : ¬ Beside f) (hne : ¬ Among [F.AUD_REPLAY_STATUS_DIVERGED, F.AUD_REPLAY_CNT_MISMATCH] f) :
      (s.rasterStart n boot).getF f = s.getF f :=
    (congrArg (State.getF · f) State.rasterStart_eq).trans ((State.rasterUnits_status f hb hne).trans (State.rasterBegin_beside f hb))
  refine hkeep (fun h => h ?_) ?_
  · simp only [List.mem_cons, List.not_mem_nil, or_false] at hf
    obtain rfl | rfl | rfl | rfl | rfl | rfl := hf <;> decide
  · simp only [List.mem_cons, List.not_mem_nil, or_false] at hf
    obtain rfl | rfl | rfl | rfl | rfl | rfl := hf <;> exact not_among (by decide)

/-- Boot-complete up to the start of the calendar: registers, ledger records, ports and lanes (R499). -/
def State.bootReady (s : State) : State :=
  let s1 := s.setFs [(F.DEV_BOOT_COMPLETE, 1), (F.DEV_BOOT_HOLDING, 0), (F.DEV_BOOT_STAGE, 8), (F.DEV_BOOT_TIME_T_COMPLETE, s.msSinceGood),
    (F.PWR_STATE_STATE, s.pstate), (F.PWR_STATE_TARGET, s.pstate), (F.INP_BUCKET_BUCKET, s.inp.fit.bucket),
    (F.INP_PAD_PAD_L, 0), (F.INP_PAD_PAD_T, 0)]
  let s2 := (s1.onBoot fun b => { b with done := 8 :: b.done }).ledger 1 0
    (toLe 1 (s.getF F.PWR_RESET_CAUSE) ++ toLe 1 (s.getF F.PWR_VCORE_VSET) ++ s.imageDigest.take 16)
  let s3 := (match s.pwr.latch with
    | some (u, v, n) => s2.supplyRecord u v n true
    | none => s2).onPwr fun w => { w with latch := none, wxDue := s.now }
  ((s3.hpdPulse 0).hpdPulse 1).trainingStart

theorem State.bootComplete_eq (hopen : s.stageOpen [7] 8 = true) (hhold : s.getF F.DEV_BOOT_CTRL_HOLD ≠ 1)
    (hdone : s.getF F.DEV_BOOT_COMPLETE ≠ 1) : s.bootComplete = if s.getF F.AUD_REPLAY_CTRL_ARM = 1 then
      ({ s.bootReady with aud := { s.bootReady.aud with replayHold := true } } : State).setF F.AUD_REPLAY_STATUS_STATE 1
    else (s.bootReady.rasterStart 0 true).modeCheck := by
  unfold State.bootComplete
  rw [if_neg (by simp [hopen, hhold, hdone])]
  rfl

theorem State.hpdPulse_beside {n : Nat} : SameFields (s.hpdPulse n) s Beside :=
  State.signalCheck_beside.trans (Beside.of_frame State.onPort_frame)

theorem State.trainingStart_beside : SameFields s.trainingStart s Beside := State.trainingStart_fields.mono fun f hf => by
  rcases hf with hf | hf
  · exact hf.beside
  · exact (beside (f := F.PNL_STATUS_STATE)).of_key (by simpa [Among] using hf)

/-- The fields that boot-complete sets, which its later steps leave alone. -/
theorem State.bootReady_fields : s.bootReady.getF F.DEV_BOOT_COMPLETE = 1 ∧ s.bootReady.getF F.DEV_BOOT_HOLDING = 0 ∧
    s.bootReady.getF F.DEV_BOOT_STAGE = 8 := by
  unfold State.bootReady
  extract_lets s1 s2 s3
  have h1 : s1.getF F.DEV_BOOT_COMPLETE = 1 ∧ s1.getF F.DEV_BOOT_HOLDING = 0 ∧ s1.getF F.DEV_BOOT_STAGE = 8 := by
    refine ⟨State.getF_setFs_at (f := F.DEV_BOOT_COMPLETE) (i := 0) (v := 1) rfl ?_,
      State.getF_setFs_at (f := F.DEV_BOOT_HOLDING) (i := 1) (v := 0) rfl ?_, State.getF_setFs_at (f := F.DEV_BOOT_STAGE) (i := 2) (v := 8) rfl ?_⟩
    all_goals simp; decide
  have h2 : SameFields s2 s1 Beside := State.ledger_beside.trans (Beside.of_frame State.onBoot_frame)
  have h3 : SameFields s3 s1 Beside := by
    refine (Beside.of_frame State.onPwr_frame).trans ?_
    split
    · exact State.ledger_beside.trans h2
    · exact h2
  clear_value s1 s2 s3
  have h4 : SameFields ((s3.hpdPulse 0).hpdPulse 1).trainingStart s1 Beside := by
    exact State.trainingStart_beside.trans (State.hpdPulse_beside.trans (State.hpdPulse_beside.trans h3))
  obtain ⟨hc, hh, hs⟩ := h1
  exact ⟨(h4 _ fun h => h (by decide)).trans hc, (h4 _ fun h => h (by decide)).trans hh, (h4 _ fun h => h (by decide)).trans hs⟩

/-- The start of training may wait; the calendar runs on. -/
theorem State.trainingStart_cal : s.trainingStart.cal.running = s.cal.running ∧ s.trainingStart.cal.frame = s.cal.frame := by
  have hstart (x : State) : x.startTraining.cal = x.cal := State.startTraining_frame.keeps .cal (by decide)
  unfold State.trainingStart
  split
  · exact ⟨rfl, rfl⟩
  · split
    · rw [hstart]; exact ⟨rfl, rfl⟩
    · split
      · rw [hstart, State.waitUntil_cal]
        split <;> exact ⟨rfl, rfl⟩
      · exact ⟨rfl, rfl⟩

theorem State.bootReady_parts : 8 ∈ s.bootReady.boot.done ∧ s.bootReady.cal.running = s.cal.running ∧
    s.bootReady.cal.frame = s.cal.frame := by
  unfold State.bootReady
  extract_lets s1 s2 s3
  have h1 : SameBut s1 s [.regs] := State.setFs_frame
  have h2 : SameBut s2 (s1.onBoot fun b => { b with done := 8 :: b.done }) [.regs, .led] := State.ledger_frame
  have h3 : Keeps [.boot, .cal] s3 s2 := by
    refine Keeps.step ?_ State.onPwr_frame
    split
    · exact Keeps.step (Keeps.refl _ _) State.supplyRecord_frame
    · exact Keeps.refl _ _
  clear_value s1 s2 s3
  have h4 : SameBut ((s3.hpdPulse 0).hpdPulse 1).trainingStart ((s3.hpdPulse 0).hpdPulse 1) [.now, .cal, .regs, .cores, .bands, .pnl] :=
    State.trainingStart_frame
  have h5 : Keeps [.boot, .cal] ((s3.hpdPulse 0).hpdPulse 1) s3 := Keeps.step (Keeps.step (Keeps.refl _ _) State.hpdPulse_frame) State.hpdPulse_frame
  generalize (s3.hpdPulse 0).hpdPulse 1 = x at *
  have hcal : x.cal = s.cal := by rw [h5.at .cal, h3.at .cal, h2.keeps .cal (by decide)]; exact h1.keeps .cal (by decide)
  have h6 : x.trainingStart.cal.running = x.cal.running ∧ x.trainingStart.cal.frame = x.cal.frame := State.trainingStart_cal
  rw [hcal] at h6
  refine ⟨?_, h6.1, h6.2⟩
  · rw [h4.keeps .boot (by decide), h5.at .boot, h3.at .boot, h2.keeps .boot (by decide)]
    exact List.mem_cons_self

/-- The states of which boot-complete's fields hold. -/
def BootDone (x : State) : Prop :=
  x.getF F.DEV_BOOT_COMPLETE = 1 ∧ x.getF F.DEV_BOOT_HOLDING = 0 ∧ x.getF F.DEV_BOOT_STAGE = 8 ∧ 8 ∈ x.boot.done

theorem BootDone.of_fields {x : State} (h : BootDone x) (hb : t.boot = x.boot)
    (hf : ∀ f ∈ [F.DEV_BOOT_STAGE, F.DEV_BOOT_COMPLETE, F.DEV_BOOT_HOLDING], t.getF f = x.getF f) : BootDone t := by
  obtain ⟨h1, h2, h3, h4⟩ := h
  exact ⟨(hf _ (by simp)).trans h1, (hf _ (by simp)).trans h2, (hf _ (by simp)).trans h3, hb ▸ h4⟩

theorem State.bootReady_done : BootDone s.bootReady := by
  obtain ⟨h1, h2, h3⟩ := State.bootReady_fields (s := s)
  exact ⟨h1, h2, h3, State.bootReady_parts.1⟩

/-- Without an armed replay the calendar starts frame 0 (R499). -/
theorem State.bootStarts {x : State} (h : BootDone x) : BootDone (x.rasterStart 0 true).modeCheck ∧
    (x.rasterStart 0 true).modeCheck.cal.running = true ∧ (x.rasterStart 0 true).modeCheck.cal.frame = 0 ∧
    (x.rasterStart 0 true).modeCheck.cal.line = 0 := by
  obtain ⟨h1, h2, h3⟩ := State.rasterStart_cal (s := x) (n := 0) (boot := true)
  have hr : BootDone (x.rasterStart 0 true) := h.of_fields (State.rasterStart_frame.keeps .boot (by decide)) fun f hf =>
    State.rasterStart_held (List.mem_append_left [F.PWR_STATE_STATE, F.PWR_STATE_BUSY, F.DRM_STATUS_SELF_REFRESH] hf)
  generalize x.rasterStart 0 true = y at *
  have hcal : y.modeCheck.cal = y.cal := State.modeCheck_frame.keeps .cal (by decide)
  refine ⟨hr.of_fields (State.modeCheck_frame.keeps .boot (by decide)) fun f hf => State.modeCheck_beside f fun hb => hb ?_, ?_, ?_, ?_⟩
  · simp only [List.mem_cons, List.not_mem_nil, or_false] at hf
    obtain rfl | rfl | rfl := hf <;> decide
  · rw [hcal, h1]
  · rw [hcal, h2]
  · rw [hcal, h3]

/-- An armed replay holds the calendar (R454). -/
theorem State.bootHeld {x : State} (h : BootDone x) (a : AudSt) :
    BootDone (({ x with aud := a } : State).setF F.AUD_REPLAY_STATUS_STATE 1) ∧
    (({ x with aud := a } : State).setF F.AUD_REPLAY_STATUS_STATE 1).getF F.AUD_REPLAY_STATUS_STATE = 1 := by
  refine ⟨h.of_fields (State.setF_frame.keeps .boot (by decide)) fun f hf => ?_, State.getF_setF_self _ _ _⟩
  simp only [List.mem_cons, List.not_mem_nil, or_false] at hf
  obtain rfl | rfl | rfl := hf <;> exact State.getF_setF_ne _ _ (by decide)

theorem BootDone.boundaryStatus {x u : State} (h : BootDone x) : BootDone (State.boundaryStatus u x) :=
  h.of_fields (State.boundaryStatus_frame.keeps .boot (by decide)) fun f hf => by
    simp only [List.mem_cons, List.not_mem_nil, or_false] at hf
    obtain rfl | rfl | rfl := hf <;> exact State.boundaryStatus_fields _ (not_among (by decide))

/-- A command that changes nothing answers no waiting STATUS. -/
theorem State.boundaryStatus_self : State.boundaryStatus s s = s := by
  unfold State.boundaryStatus
  split
  · rw [if_pos ⟨rfl, by cases s.cal.running <;> simp⟩]
  · rfl

/-! ### The ledger -/

theorem State.ledgerReady_full (h : s.ledgerReady = true) : s.getF F.DEV_LEDGER_FULL = 0 := by
  simp only [State.ledgerReady, Bool.and_eq_true, beq_iff_eq] at h
  exact h.1.1.2

theorem State.setLed_frame {l : LedSt} : SameBut { s with led := l } s [.led] := by
  intro p hp
  cases p
  case led => exact absurd (by decide) hp
  all_goals with_reducible rfl

/-- A record's place in the active half, and the counts (R504). -/
def State.appended (s : State) (r : List Byte) (rs : List (List Byte)) : State :=
  ({ s with led := { s.led with
    slots := SMap.set [] s.led.slots (32768 * s.getF F.DEV_LEDGER_HALF + s.led.next) r, queue := rs, next := s.led.next + 1 } } : State).setFs
    [(F.DEV_LEDGER_USED, s.getF F.DEV_LEDGER_USED + 1), (F.DEV_LEDGER_QUEUED, rs.length)]

theorem State.appended_spec {r : List Byte} {rs : List (List Byte)} : (s.appended r rs).led = { s.led with
      queue := rs, next := s.led.next + 1, slots := SMap.set [] s.led.slots (32768 * s.getF F.DEV_LEDGER_HALF + s.led.next) r } ∧
    SameBut (s.appended r rs) s [.regs, .led] ∧
    (s.appended r rs).getF F.DEV_LEDGER_USED = (s.getF F.DEV_LEDGER_USED + 1) % 2 ^ 16 ∧
    (s.appended r rs).getF F.DEV_LEDGER_QUEUED = rs.length % 2 ^ 7 ∧
    SameFields (s.appended r rs) s (Among [F.DEV_LEDGER_USED, F.DEV_LEDGER_QUEUED]) := by
  refine ⟨State.setFs_frame.keeps .led (by decide), ?_, ?_, State.getF_setF_self _ _ _, ?_⟩
  · exact SameBut.call State.setFs_frame (by decide) (State.setLed_frame.mono (by decide))
  · exact (State.getF_setF_ne _ _ (by decide)).trans (State.getF_setF_self _ _ _)
  · exact SameFields.trans (SameFields.setsIn (by simp)) (SameFields.of_regs rfl)

/-- The first half, written before the first record: its header stands in slot 0 (R505). -/
theorem State.firstHalf_spec : (s.writeHalf 0 1 []).getF F.DEV_LEDGER_HALF = 0 ∧ (s.writeHalf 0 1 []).getF F.DEV_LEDGER_GEN_GEN = 1 ∧
    (s.writeHalf 0 1 []).led = { s.led with
      slots := SMap.set [] (s.led.slots.filter fun e => !(decide (0 ≤ e.1) && decide (e.1 < 32768))) 0 (ledgerHeader 1),
      next := 1, valid := true } := by
  refine ⟨State.getF_setFs_at (f := F.DEV_LEDGER_HALF) (i := 0) (v := 0) rfl ?_,
    State.getF_setFs_at (f := F.DEV_LEDGER_GEN_GEN) (i := 1) (v := 1) rfl ?_, State.setFs_frame.keeps .led (by decide)⟩
  all_goals simp; decide

theorem State.firstHalf_full : (s.writeHalf 0 1 []).getF F.DEV_LEDGER_FULL = s.getF F.DEV_LEDGER_FULL :=
  State.getF_setFs_ne _ _ _ (by simp; decide)

/-- With room in the active half the oldest record goes to its first unused slot. -/
theorem State.ledgerAppend_eq {r : List Byte} {rs : List (List Byte)} (hready : s.ledgerReady = true) (hvalid : s.led.valid = true)
    (hq : s.led.queue = r :: rs) (hnext : s.led.next < 32767) : s.ledgerAppend = s.appended r rs := by
  have hfull := State.ledgerReady_full hready
  unfold State.ledgerAppend
  rw [if_neg (by rw [hready]; decide), if_pos hvalid]
  dsimp only
  rw [if_neg (by omega), hq]
  dsimp only
  rw [if_neg (by omega), if_neg (by omega), if_neg (by omega)]
  rfl

/-- The first record of an unwritten ledger opens its first half. -/
theorem State.ledgerAppend_first {r : List Byte} {rs : List (List Byte)} (hready : s.ledgerReady = true) (hvalid : s.led.valid = false)
    (hq : s.led.queue = r :: rs) : s.ledgerAppend = (s.writeHalf 0 1 []).appended r rs := by
  have hfull := State.firstHalf_full.trans (State.ledgerReady_full hready)
  obtain ⟨-, -, hled⟩ := State.firstHalf_spec (s := s)
  unfold State.ledgerAppend
  rw [if_neg (by rw [hready]; decide), if_neg (by rw [hvalid]; decide)]
  generalize s.writeHalf 0 1 [] = x at *
  have hnext : x.led.next = 1 := by rw [hled]
  have hqueue : x.led.queue = r :: rs := by rw [hled]; exact hq
  dsimp only
  rw [if_neg (by omega), hqueue]
  dsimp only
  rw [if_neg (by omega), if_neg (by omega), if_neg (by omega)]
  rfl

end

end Sys2Proof.Machine

namespace Sys2Proof
set_option Elab.async false
open Sys2Proof.Machine

/-- Settles O51: what boot-complete sets outlasts the start of the raster, and a ready ledger appends the oldest record. -/
theorem bootCompletesAndTheLedgerAppends : Obligations.BootCompletesAndTheLedgerAppends := by
  unfold Obligations.BootCompletesAndTheLedgerAppends
  refine ⟨?_, ?_, ?_, ?_, ?_⟩
  case refine_1 =>
    intro s hopen hhold hdone
    refine Completes.of_op (t := State.boundaryStatus s s.bootComplete) rfl fun _ => ?_
    rw [State.bootComplete_eq hopen hhold hdone]
    obtain ⟨-, hrun, hframe⟩ := State.bootReady_parts (s := s)
    have hready : BootDone s.bootReady := State.bootReady_done
    generalize s.bootReady = x at *
    by_cases harm : s.getF F.AUD_REPLAY_CTRL_ARM = 1
    · rw [if_pos harm]
      obtain ⟨hdone', hstate⟩ := State.bootHeld hready { x.aud with replayHold := true }
      have hcal : (({ x with aud := { x.aud with replayHold := true } } : State).setF F.AUD_REPLAY_STATUS_STATE 1).cal = x.cal :=
        State.setF_frame.keeps .cal (by decide)
      have haud : (({ x with aud := { x.aud with replayHold := true } } : State).setF F.AUD_REPLAY_STATUS_STATE 1).aud.replayHold = true :=
        congrArg AudSt.replayHold (State.setF_frame.keeps .aud (by decide))
      generalize ({ x with aud := { x.aud with replayHold := true } } : State).setF F.AUD_REPLAY_STATUS_STATE 1 = y at *
      have hkcal : (State.boundaryStatus s y).cal = y.cal := State.boundaryStatus_frame.keeps .cal (by decide)
      have hkaud : (State.boundaryStatus s y).aud = y.aud := State.boundaryStatus_frame.keeps .aud (by decide)
      obtain ⟨h1, h2, h3, h4⟩ := hdone'.boundaryStatus (u := s)
      refine ⟨h1, h2, h3, h4, fun h => absurd harm h, fun _ => ⟨?_, ?_, ?_, ?_⟩⟩
      · rw [hkaud, haud]
      · exact (State.boundaryStatus_fields (u := s) F.AUD_REPLAY_STATUS_STATE (not_among (by decide))).trans hstate
      · rw [hkcal, hcal, hrun]
      · rw [hkcal, hcal, hframe]
    · rw [if_neg harm]
      obtain ⟨hdone', hcal⟩ := State.bootStarts hready
      generalize (x.rasterStart 0 true).modeCheck = y at *
      have hkcal : (State.boundaryStatus s y).cal = y.cal := State.boundaryStatus_frame.keeps .cal (by decide)
      obtain ⟨h1, h2, h3, h4⟩ := hdone'.boundaryStatus (u := s)
      exact ⟨h1, h2, h3, h4, fun _ => by rw [hkcal]; exact hcal, fun h => absurd h harm⟩
  case refine_2 =>
    intro s hhold
    refine Completes.of_op (t := State.boundaryStatus s s.bootComplete) rfl fun w => ?_
    have h : s.bootComplete = s := if_pos (Or.inr (Or.inl hhold))
    rw [h, State.boundaryStatus_self]
    exact SameBut.ended (SameBut.refl _ _) w
  case refine_3 =>
    intro s r rs hready hvalid hq hnext
    obtain ⟨h1, h2, h3, h4, h5⟩ := State.appended_spec (s := s) (r := r) (rs := rs)
    refine Completes.of_op (t := s.ledgerAppend) rfl fun w => ?_
    rw [State.ledgerAppend_eq hready hvalid hq hnext]
    exact ⟨h1, SameBut.ended h2 w, h3, h4, h5⟩
  case refine_4 =>
    intro s r rs hready hvalid hq
    refine Completes.of_op (t := s.ledgerAppend) rfl fun _ => ?_
    obtain ⟨hhalf, hgen, hled⟩ := State.firstHalf_spec (s := s)
    rw [State.ledgerAppend_first hready hvalid hq]
    generalize s.writeHalf 0 1 [] = x at *
    obtain ⟨h1, -, -, -, h5⟩ := State.appended_spec (s := x) (r := r) (rs := rs)
    have hhalf' : (x.appended r rs).getF F.DEV_LEDGER_HALF = 0 := (h5 _ (not_among (by decide))).trans hhalf
    have hgen' : (x.appended r rs).getF F.DEV_LEDGER_GEN_GEN = 1 := (h5 _ (not_among (by decide))).trans hgen
    unfold State.ledSlot
    rw [h1, hled, hhalf]
    refine ⟨rfl, rfl, rfl, ?_, ?_, hhalf', hgen'⟩
    · show SMap.get [] (SMap.set [] (SMap.set [] _ 0 (ledgerHeader 1)) 1 r) 0 = _
      rw [SMap.get_set_ne _ _ _ _ (by decide), SMap.get_set_self]
    · exact SMap.get_set_self _ _ _ _
  case refine_5 =>
    intro s hstop
    refine Completes.of_op (t := s.ledgerAppend) rfl fun w => ?_
    have hnot : s.ledgerReady = false := by
      rcases hstop with h | h <;> simp [State.ledgerReady, h]
    have h : s.ledgerAppend = s := if_pos (by rw [hnot]; rfl)
    rw [h]
    exact SameBut.ended (SameBut.refl _ _) w

end Sys2Proof

/-! SUPPORT. Resets, the input switch and the module's removal (R283, R548, R551); O49. -/
namespace Sys2Proof.Machine
set_option Elab.async false

/-- A function applied to every value of a map, which leaves the default as it is. -/
theorem SMap.get_map {α : Type} (d : α) (f : α → α) (hd : f d = d) (m : SMap α) (k : Nat) :
    SMap.get d (m.map fun e => (e.1, f e.2)) k = f (SMap.get d m k) := by
  induction m with
  | nil => exact hd.symm
  | cons e m ih =>
    by_cases h : k = e.1
    · simp [SMap.get, h]
    · simpa [SMap.get, h] using ih

section
variable {s : State}

/-- SAFE shows in the panel's state, whether it is entered now or was before (R405). -/
theorem State.safeEnter_state {cause : Nat} : (s.safeEnter cause).getF F.PNL_STATUS_STATE = 3 := by
  unfold State.safeEnter
  split
  next h =>
    have hpnl : (s.onPnl fun p => { p with resume := false }).getF F.PNL_STATUS_STATE = 3 := h
    dsimp only
    split
    · exact (State.getF_setF_ne _ _ (by decide)).trans hpnl
    · exact hpnl
  next =>
    extract_lets s1
    have h : (s1.setFs [(F.PNL_STATUS_STATE, 3), (F.PNL_STATUS_SAFE_CAUSE, cause)]).getF F.PNL_STATUS_STATE = 3 :=
      State.getF_setFs_at (f := F.PNL_STATUS_STATE) (i := 0) (v := 3) rfl (by simp; decide)
    clear_value s1
    exact (SameFields.of_regs (ok := fun _ => False) (by rfl) _ id).trans h

/-- The removal of the module (R551): what the registers show and what the channels drop. -/
theorem State.removeFall_shows : s.removeFall.getF F.DEV_HOTPLUG_REMOVED = 1 ∧ s.removeFall.getF F.DEV_HOTPLUG_WSTOP = 1 ∧
    s.removeFall.getF F.DEV_HOTPLUG_NOR_STOP = 1 ∧ s.removeFall.getF F.PNL_STATUS_STATE = 3 := by
  unfold State.removeFall
  extract_lets s1
  have h1 : s1.getF F.DEV_HOTPLUG_REMOVED = 1 :=
    State.getF_setFs_at (f := F.DEV_HOTPLUG_REMOVED) (i := 0) (v := 1) rfl (by simp; decide)
  have h2 : s1.getF F.DEV_HOTPLUG_WSTOP = 1 :=
    State.getF_setFs_at (f := F.DEV_HOTPLUG_WSTOP) (i := 1) (v := 1) rfl (by simp; decide)
  have h3 : s1.getF F.DEV_HOTPLUG_NOR_STOP = 1 :=
    State.getF_setFs_at (f := F.DEV_HOTPLUG_NOR_STOP) (i := 2) (v := 1) rfl (by simp)
  have h4 : s1.getF F.PNL_STATUS_STATE = 3 := (State.getF_setFs_ne _ _ _ (by simp; decide)).trans State.safeEnter_state
  exact ⟨h1, h2, h3, h4⟩

theorem State.removeFall_chan (c : Nat) : (s.removeFall.chan c).queue = (s.chan c).queue.filter fun a => !a.write := by
  have hdrm : ((s.safeEnter 1).setFs [(F.DEV_HOTPLUG_REMOVED, 1), (F.DEV_HOTPLUG_WSTOP, 1), (F.DEV_HOTPLUG_NOR_STOP, 1)]).drm = s.drm :=
    (State.setFs_frame.keeps .drm (by decide)).trans (State.safeEnter_frame.keeps .drm (by decide))
  unfold State.removeFall State.chan
  dsimp only
  rw [hdrm, SMap.get_map {} (fun c : ChanSt => { c with queue := c.queue.filter fun a => !a.write }) rfl]

/-- What a device reset leaves in the state where REMOVE_N is high (R283). -/
theorem State.deviceReset_high : (∀ f, ¬ Among [F.TPL_LINK_STATE, F.TPL_LINK_RATE, F.TPL_LINK_LPI, F.TPL_LINK_MASTER] f →
      (s.deviceReset false).getF f = f.rst) ∧ (s.deviceReset false).dram = [] ∧ (s.deviceReset false).now = 0 ∧
    (s.deviceReset false).cal.running = false ∧ (s.deviceReset false).boot.done = [] ∧
    (s.deviceReset false).led.slots = s.led.slots ∧ (s.deviceReset false).led.queue = s.led.queue := by
  unfold State.deviceReset
  extract_lets c s1 reset fresh s2
  have hfields : SameFields s2 fresh (Among [F.TPL_LINK_STATE, F.TPL_LINK_RATE, F.TPL_LINK_LPI, F.TPL_LINK_MASTER]) :=
    SameFields.setsIn (by simp)
  have hframe : SameBut s2 fresh [.regs] := State.setFs_frame
  have hled : s2.led = fresh.led := hframe.keeps .led (by decide)
  refine ⟨fun f hf => (hfields f hf).trans rfl, hframe.keeps .dram (by decide), hframe.keeps .now (by decide), ?_, ?_, ?_, ?_⟩
  · exact congrArg CalSt.running (hframe.keeps .cal (by decide))
  · exact congrArg BootSt.done (hframe.keeps .boot (by decide))
  · exact (congrArg LedSt.slots hled : s2.led.slots = fresh.led.slots)
  · exact (congrArg LedSt.queue hled : s2.led.queue = fresh.led.queue)

theorem State.deviceReset_low : ∃ x : State, s.deviceReset true = x.removeFall := ⟨_, rfl⟩

end

end Sys2Proof.Machine

namespace Sys2Proof
set_option Elab.async false
open Sys2Proof.Machine

/-- Settles O49: resets leave the reset state but for what outlasts them, and the module's removal stops what is written. -/
theorem resetsAndRemoval : Obligations.ResetsAndRemoval := by
  unfold Obligations.ResetsAndRemoval
  refine ⟨?close, ?rise, ?opens, ?high, ?low, ?fall, ?stop⟩
  case close =>
    intro s
    refine Completes.of_op (t := s.switchClose) rfl fun w => ⟨SameBut.ended State.switchClose_frame w, rfl⟩
  case rise =>
    intro s hswitch
    have h : s.pwrGoodRise = ({ s with seq := { s.seq with pwrGood := true } } : State).startReset 0 s.now := if_pos hswitch
    refine Completes.of_op (t := s.pwrGoodRise) rfl fun w => ⟨?_, ?_, SameBut.ended State.pwrGoodRise_frame w⟩
    · rw [h]; rfl
    · rw [h]; rfl
  case opens =>
    intro s
    exact Completes.of_op (t := s.switchOpen) rfl fun w => ⟨fun _ => rfl, rfl, rfl, rfl, rfl, rfl⟩
  case high =>
    intro s
    exact Completes.of_op (t := s.deviceReset false) rfl fun w => State.deviceReset_high
  case low =>
    intro s
    refine Completes.of_op (t := s.deviceReset true) rfl fun w => ?_
    obtain ⟨x, hx⟩ := State.deviceReset_low (s := s)
    obtain ⟨h1, h2, h3, -⟩ := State.removeFall_shows (s := x)
    rw [hx]
    exact ⟨h1, h2, h3⟩
  case fall =>
    intro s
    obtain ⟨h1, h2, h3, h4⟩ := State.removeFall_shows (s := s)
    exact Completes.of_op (t := s.removeFall) rfl fun w => ⟨h1, h2, h3, h4, State.removeFall_frame.keeps .dram (by decide),
      State.removeFall_frame.keeps .now (by decide), State.removeFall_chan⟩
  case stop =>
    intro s u a bs hstop
    simp [State.writeMem, hstop]

end Sys2Proof

/-! SUPPORT. The weathering monitor: its measurements and the requests to restore a core (R521, R524, R529); O53. -/
namespace Sys2Proof.Machine
set_option Elab.async false

/-- The offsets of the fields that time changes, within a core's or a band's block. -/
def timeOffsets : List Nat := [0x10, 0x90, 0x94, 0x98, 0xC0, 0xC4, 0xC8, 0xCC, 0xD0, 0xD4, 0xD8, 0xEC]

/-- The registers that time changes stand at these offsets of their blocks. -/
theorem timeField_offset (p : Nat) : ∀ g ∈ stallFields p ++ mergeFields p, g.lo < 32 ∧ g.addr % 0x10000 ∈ timeOffsets := by
  have core (a : Nat) (h : a % 0x10000 ∈ timeOffsets) : (a + p * 0x20000) % 0x10000 ∈ timeOffsets := by
    rwa [show (a + p * 0x20000) % 0x10000 = a % 0x10000 by omega]
  have band (b : Nat) : (0x100010 + b * 0x10000) % 0x10000 ∈ timeOffsets := by
    rw [show (0x100010 + b * 0x10000) % 0x10000 = 0x10 by omega]
    exact List.mem_cons_self
  simp only [stallFields, mergeFields, List.cons_append, List.nil_append, List.forall_mem_cons, List.not_mem_nil, false_implies,
    implies_true, and_true]
  exact ⟨⟨(by decide : 0 < 32), core 0x10000C8 (by decide)⟩, ⟨(by decide : 0 < 32), core 0x10000CC (by decide)⟩,
    ⟨(by decide : 0 < 32), core 0x10000D0 (by decide)⟩, ⟨(by decide : 0 < 32), core 0x10000C0 (by decide)⟩,
    ⟨(by decide : 0 < 32), core 0x10000C4 (by decide)⟩, ⟨(by decide : 0 < 32), core 0x10000D4 (by decide)⟩,
    ⟨(by decide : 0 < 32), core 0x10000D8 (by decide)⟩, ⟨(by decide : 0 < 32), core 0x10000EC (by decide)⟩,
    ⟨(by decide : 0 < 32), core 0x1000090 (by decide)⟩, ⟨(by decide : 16 < 32), core 0x1000090 (by decide)⟩,
    ⟨(by decide : 0 < 32), core 0x1000094 (by decide)⟩, ⟨(by decide : 5 < 32), core 0x1000094 (by decide)⟩,
    ⟨(by decide : 13 < 32), core 0x1000094 (by decide)⟩, ⟨(by decide : 0 < 32), band _⟩, ⟨(by decide : 16 < 32), band _⟩⟩

/-- A field that time changes stands at one of these offsets. -/
theorem WithTime.offset {f : Fld} (h : WithTime f) : f.key / 32 % 0x10000 ∈ timeOffsets := by
  obtain ⟨p, hp⟩ := h
  obtain ⟨g, hg, hkey⟩ := List.mem_map.1 hp
  obtain ⟨hlo, hoff⟩ := timeField_offset p g hg
  rwa [← hkey, show g.key / 32 = g.addr by unfold Fld.key; omega]

theorem not_withTime {f : Fld} (hlo : f.lo < 32) (h : f.addr % 0x10000 ∉ timeOffsets) : ¬ WithTime f := by
  intro hf
  have hkey : f.key / 32 = f.addr := by unfold Fld.key; omega
  exact h (hkey ▸ hf.offset)

/-- Fields of a core's block that time leaves alone. -/
theorem not_withTime_core {f : Fld} (p o l : Nat) (ha : f.addr = 0x1000000 + o + p * 0x20000 := by rfl) (hl : f.lo = l := by rfl)
    (hlt : l < 32 := by decide) (ho : o < 0x10000 := by decide) (h : o ∉ timeOffsets := by decide) : ¬ WithTime f := by
  refine not_withTime (by omega) ?_
  rwa [show f.addr % 0x10000 = o by omega]

/-- Fields of the blocks below the bands' that time leaves alone. -/
theorem not_withTime_low {f : Fld} (h : f.lo < 32 ∧ f.addr < 0x100000 ∧ f.addr % 0x10000 ∉ timeOffsets := by decide) : ¬ WithTime f :=
  not_withTime h.1 h.2.2

/-! ### Fields off a core's measurement -/

/-- A field other than the SLACK and AGE of a core's last measurement. -/
def OffSlack (q : Nat) (f : Fld) : Prop := f.key ≠ (F.PWR_WX_SLACK_SLACK q).key ∧ f.key ≠ (F.PWR_WX_SLACK_AGE q).key

theorem OffSlack.of_lo {q : Nat} {f : Fld} (l : Nat) (hl : f.lo = l := by rfl) (h : l < 32 ∧ l ≠ 0 ∧ l ≠ 16 := by decide) :
    OffSlack q f := by
  simp only [OffSlack, Fld.key, F.PWR_WX_SLACK_SLACK, F.PWR_WX_SLACK_AGE]
  omega

theorem OffSlack.of_addr {q : Nat} {f : Fld} (hq : q < 72) (l a : Nat) (hl : f.lo = l := by rfl) (hlt : l < 32 := by decide)
    (ha : f.addr = a := by rfl) (h : a < 0x90400 ∨ 0x90640 ≤ a := by decide) : OffSlack q f := by
  simp only [OffSlack, Fld.key, F.PWR_WX_SLACK_SLACK, F.PWR_WX_SLACK_AGE]
  omega

/-- The fields that a measurement of a core shows. -/
def measFields (q : Nat) : List Fld := [F.PWR_WX_SLACK_SLACK q, F.PWR_WX_SLACK_AGE q, F.PWR_WX_STATE_SAFE_BIN q]

theorem not_measured_lo {q : Nat} {f : Fld} (l : Nat) (hl : f.lo = l := by rfl) (h : l < 32 ∧ l ≠ 0 ∧ l ≠ 16 := by decide) :
    ¬ Among (measFields q) f := by
  simp only [Among, measFields, List.map_cons, List.map_nil, List.mem_cons, List.not_mem_nil, or_false, Fld.key, F.PWR_WX_SLACK_SLACK,
    F.PWR_WX_SLACK_AGE, F.PWR_WX_STATE_SAFE_BIN]
  omega

theorem not_measured_addr {q : Nat} {f : Fld} (hq : q < 72) (l a : Nat) (hl : f.lo = l := by rfl) (hlt : l < 32 := by decide)
    (ha : f.addr = a := by rfl) (h : a < 0x90400 ∨ 0x90640 ≤ a := by decide) : ¬ Among (measFields q) f := by
  simp only [Among, measFields, List.map_cons, List.map_nil, List.mem_cons, List.not_mem_nil, or_false, Fld.key, F.PWR_WX_SLACK_SLACK,
    F.PWR_WX_SLACK_AGE, F.PWR_WX_STATE_SAFE_BIN]
  omega

/-- Fields of the monitor that time leaves alone. -/
theorem not_withTime_mon {f : Fld} (p l : Nat) (hp : p < 72) (ha : f.addr = 0x90404 + p * 8 := by rfl) (hl : f.lo = l := by rfl)
    (hlt : l < 32 := by decide) : ¬ WithTime f := by
  refine not_withTime (by omega) ?_
  simp only [timeOffsets, List.mem_cons, List.not_mem_nil, or_false]
  omega

section
variable {s t : State} {q : Nat} {f : Fld}

theorem SameFields.offSet {v : Nat} (h : OffSlack q f) : SameFields (s.setF f v) s (OffSlack q) := SameFields.setF fun g e => by
  rwa [OffSlack, e]

theorem SameFields.offInc {n : Nat} (h : OffSlack q f) : SameFields (s.incF f n) s (OffSlack q) := SameFields.incF fun g e => by
  rwa [OffSlack, e]

theorem SameFields.offSets {l : List (Fld × Nat)} (h : ∀ x ∈ l, OffSlack q x.1) : SameFields (s.setFs l) s (OffSlack q) :=
  SameFields.setFs fun x hx g e => by
    have hx' := h x hx
    rwa [OffSlack, ← e] at hx'

theorem State.ledger_offSlack (hq : q < 72) {k u : Nat} {bs : List Byte} : SameFields (s.ledger k u bs) s (OffSlack q) :=
  SameFields.ite (SameFields.offInc (.of_addr hq 0 0x24))
    ((SameFields.offSet (.of_addr hq 19 0x20)).trans (SameFields.of_regs rfl))

theorem State.exhaustRecord_offSlack (hq : q < 72) {p r : Nat} : SameFields (s.exhaustRecord p r) s (OffSlack q) :=
  State.ledger_offSlack hq

theorem State.retireRecord_offSlack (hq : q < 72) {p r i : Nat} : SameFields (s.retireRecord p r i) s (OffSlack q) :=
  State.ledger_offSlack hq

theorem OffSlack.exhausted {p : Nat} : OffSlack q (F.PWR_WX_STATE_EXHAUSTED p) := .of_lo 8

theorem OffSlack.stopped {p : Nat} : OffSlack q (F.PWR_WX_STATE_STOPPED p) := .of_lo 9

theorem OffSlack.reason {p : Nat} : OffSlack q (F.PWR_WX_STATE_REASON p) := .of_lo 4

theorem State.setPlan_offSlack (hq : q < 72) {p b r : Nat} : SameFields (s.setPlan p b r) s (OffSlack q) :=
  SameFields.ite (SameFields.refl _ _) ((State.ledger_offSlack hq).trans ((SameFields.offSet .reason).trans (SameFields.of_regs rfl)))

theorem State.setVset_offSlack (hq : q < 72) {v : Nat} : SameFields (s.setVset v) s (OffSlack q) :=
  SameFields.ite (SameFields.refl _ _) ((State.ledger_offSlack hq).trans (SameFields.offSet (.of_addr hq 16 0x90028)))


theorem State.stopCore_offSlack (hq : q < 72) {p : Nat} : SameFields (s.stopCore p) s (OffSlack q) :=
  SameFields.ite (SameFields.refl _ _) ((State.exhaustRecord_offSlack hq).trans (SameFields.offSets (by
    simp [OffSlack.exhausted, OffSlack.stopped])))

theorem State.exhaust_offSlack (hq : q < 72) {p r : Nat} : SameFields (s.exhaust p r) s (OffSlack q) := by
  unfold State.exhaust
  extract_lets s1 s2 slack
  have h : SameFields s2 s (OffSlack q) := (State.setVset_offSlack hq).trans ((State.exhaustRecord_offSlack hq).trans
    (SameFields.offSets (by simp [OffSlack.exhausted, OffSlack.reason])))
  exact SameFields.ite ((State.setPlan_offSlack hq).trans h) h

theorem State.cancelHandover_offSlack (hq : q < 72) {b : Nat} : SameFields (s.cancelHandover b) s (OffSlack q) :=
  (SameFields.offSet (.of_lo 12)).trans (SameFields.of_regs rfl)

theorem State.decideHandover_offSlack (hq : q < 72) {b o i r : Nat} {x : Bool} :
    SameFields (s.decideHandover b o i x r) s (OffSlack q) :=
  (SameFields.offSets (by
    have h1 : OffSlack q (F.BAND_SPARE_PENDING_SLOT b) := .of_lo 8
    have h2 : OffSlack q (F.BAND_SPARE_PENDING b) := .of_lo 12
    simp [h1, h2])).trans (SameFields.of_regs rfl)

theorem State.retire_offSlack (hq : q < 72) {p r : Nat} {boot : Bool} : SameFields (s.retire p r boot) s (OffSlack q) := by
  have hrole (p : Nat) : OffSlack q (F.CORE_IDENT_ROLE p) := .of_lo 24
  have hlog (p : Nat) : OffSlack q (F.CORE_IDENT_LOGICAL p) :=
    .of_addr hq 16 (0x1000000 + p * 0x20000) (h := by omega)
  have hidle (b : Nat) : OffSlack q (F.BAND_SLOTMAP_IDLE_SLOT b) :=
    .of_addr hq 0 (0x100000 + b * 0x10000) (h := by omega)
  have hret (b : Nat) : OffSlack q (F.BAND_SLOTMAP_IDLE_RETIRED b) := .of_lo 4
  have h1 : SameFields ((s.incF F.PWR_WX_CNT_RETIRES 1).setF (F.PWR_WX_STATE_REASON p) r) s (OffSlack q) :=
    (SameFields.offSet OffSlack.reason).trans (SameFields.offInc (.of_addr hq 16 0x9008C))
  unfold State.retire
  refine SameFields.ite (SameFields.refl _ _) ?_
  extract_lets b s1 idle spare s2
  have h1' : SameFields s1 s (OffSlack q) := h1
  have h2 : SameFields s2 s (OffSlack q) := by
    unfold s2
    split
    · exact SameFields.ite ((State.exhaust_offSlack hq).trans ((State.cancelHandover_offSlack hq).trans h1')) h1'
    · exact h1'
  clear_value s1 s2
  refine SameFields.ite (SameFields.ite ?_ ((SameFields.of_regs rfl).trans h2)) (SameFields.ite (SameFields.ite ?_ ?_) (SameFields.ite ?_ ?_))
  · exact (State.retireRecord_offSlack hq).trans ((SameFields.offSets (by simp [hrole, hret])).trans h2)
  · exact (State.retireRecord_offSlack hq).trans ((SameFields.offSets (by simp [hrole, hret, hidle, hlog])).trans h1')
  · exact (State.decideHandover_offSlack hq).trans h1'
  · exact (State.stopCore_offSlack hq).trans h1'
  · exact (State.exhaust_offSlack hq).trans h1'

theorem State.planCore_offSlack (hq : q < 72) {p c : Nat} {slack : Int} {raised : Bool} :
    SameFields (s.planCore p slack c raised).1 s (OffSlack q) := by
  rw [State.planCore, apply_ite Prod.fst, apply_ite Prod.fst, apply_ite Prod.fst, apply_ite Prod.fst, apply_ite Prod.fst]
  refine SameFields.ite ?_ (SameFields.ite ?_ (SameFields.ite ?_ (SameFields.ite ?_ (SameFields.ite ?_ (SameFields.refl _ _)))))
  · exact SameFields.ite ((State.stopCore_offSlack hq).trans (State.setPlan_offSlack hq)) (State.setPlan_offSlack hq)
  · exact SameFields.ite (SameFields.refl _ _) (State.setVset_offSlack hq)
  · exact State.retire_offSlack hq
  · exact (SameFields.offInc (.of_addr hq 0 0x9008C)).trans (State.setPlan_offSlack hq)
  · exact (SameFields.offInc (.of_addr hq 8 0x9008C)).trans (State.setPlan_offSlack hq)

/-! ### What shows of the monitors -/

/-- Two states show the same of the monitors. -/
def PwrShows {β : Type} (v : PwrSt → β) (t s : State) : Prop := v t.pwr = v s.pwr

variable {β : Type} {v : PwrSt → β} {u : State}

theorem PwrShows.refl : PwrShows v s s := Eq.refl _

theorem PwrShows.trans (h1 : PwrShows v u t) (h2 : PwrShows v t s) : PwrShows v u s := Eq.trans h1 h2

theorem PwrShows.of_frame {ps : List Part} (h : SameBut t s ps) (hp : .pwr ∉ ps := by decide) : PwrShows v t s :=
  congrArg v (h.keeps .pwr hp)

theorem PwrShows.ite {c : Prop} [Decidable c] {a b : State} (ha : PwrShows v a s) (hb : PwrShows v b s) :
    PwrShows v (if c then a else b) s := by split <;> assumption

/-- The next measurement's time. -/
abbrev SameDue : State → State → Prop := PwrShows PwrSt.wxDue

theorem State.setPlan_due {p b r : Nat} : SameDue (s.setPlan p b r) s :=
  .ite .refl ((PwrShows.of_frame State.ledger_frame).trans ((PwrShows.of_frame State.setF_frame).trans rfl))

theorem State.exhaust_due {p r : Nat} : SameDue (s.exhaust p r) s := by
  have h {x : State} {y : List (Fld × Nat)} {a b c : Nat} (e : x = (s.setFs y).exhaustRecord a b) : SameDue (x.setVset c) s := by
    rw [e]
    exact (PwrShows.of_frame State.setVset_frame).trans ((PwrShows.of_frame State.exhaustRecord_frame).trans (PwrShows.of_frame State.setFs_frame))
  exact .ite (State.setPlan_due.trans (h rfl)) (h rfl)

theorem State.retire_due {p r : Nat} {boot : Bool} : SameDue (s.retire p r boot) s := by
  unfold State.retire
  refine .ite .refl ?_
  extract_lets b s1 idle spare s2
  have h1 : SameDue s1 s := (PwrShows.of_frame State.setF_frame).trans (PwrShows.of_frame State.incF_frame)
  have h2 : SameDue s2 s := by
    unfold s2
    split
    · exact .ite (State.exhaust_due.trans ((PwrShows.of_frame State.cancelHandover_frame).trans h1)) h1
    · exact h1
  clear_value s1 s2
  refine .ite (.ite ?_ (PwrShows.trans rfl h2)) (.ite (.ite ?_ ?_) (.ite ?_ ?_))
  · exact (PwrShows.of_frame State.retireRecord_frame).trans ((PwrShows.of_frame State.setFs_frame).trans h2)
  · exact (PwrShows.of_frame State.retireRecord_frame).trans ((PwrShows.of_frame State.setFs_frame).trans h1)
  · exact (PwrShows.of_frame State.decideHandover_frame).trans h1
  · exact (PwrShows.of_frame State.stopCore_frame).trans h1
  · exact State.exhaust_due.trans h1

theorem State.planCore_due {p c : Nat} {slack : Int} {raised : Bool} : SameDue (s.planCore p slack c raised).1 s := by
  rw [State.planCore, apply_ite Prod.fst, apply_ite Prod.fst, apply_ite Prod.fst, apply_ite Prod.fst, apply_ite Prod.fst]
  refine .ite ?_ (.ite ?_ (.ite ?_ (.ite ?_ (.ite ?_ .refl))))
  · exact .ite ((PwrShows.of_frame State.stopCore_frame).trans State.setPlan_due) State.setPlan_due
  · exact .ite .refl (PwrShows.of_frame State.setVset_frame)
  · exact State.retire_due
  · exact (PwrShows.of_frame State.incF_frame).trans State.setPlan_due
  · exact (PwrShows.of_frame State.incF_frame).trans State.setPlan_due

/-- The count of good bins and the bin of a measurement leave the rest of the monitors. -/
theorem State.countGood_pwr {p c : Nat} {slack : Int} :
    ((s.countGood p slack c).onPwr fun w => { w with measBin := SMap.set 0 w.measBin p c }).pwr.wxDue = s.pwr.wxDue ∧
    ((s.countGood p slack c).onPwr fun w => { w with measBin := SMap.set 0 w.measBin p c }).pwr.planNext = s.pwr.planNext :=
  ⟨rfl, rfl⟩

theorem State.noteMeas_pwr {m : Meas} {c : Nat} : (s.noteMeas m c).pwr.wxDue = s.pwr.wxDue ∧
    (s.noteMeas m c).pwr.planNext = s.pwr.planNext := by
  unfold State.noteMeas
  extract_lets safe f s1
  have h1 : SameBut s1 s [.free] := SameBut.ite (SameBut.refl _ _) State.fresh_frame
  clear_value f s1
  have h2 : (s1.setFs [(F.PWR_WX_SLACK_SLACK m.core, unsext 16 m.slack), (F.PWR_WX_SLACK_AGE m.core, m.age),
      (F.PWR_WX_STATE_SAFE_BIN m.core, safe.getD f.1)]).pwr = s.pwr :=
    (State.setFs_frame.keeps .pwr (by decide)).trans (h1.keeps .pwr (by decide))
  rw [← h2]
  exact State.countGood_pwr

theorem State.noteMeas_due {m : Meas} {c : Nat} : SameDue (s.noteMeas m c) s := State.noteMeas_pwr.1

theorem State.restoreTest_due {m : Meas} {c : Nat} : SameDue (s.restoreTest m c) s := by
  unfold State.restoreTest
  extract_lets p b reason bins s0 s1
  have h0 : SameDue s0 s := rfl
  have h1 : SameDue s1 s := (PwrShows.of_frame State.setF_frame).trans h0
  clear_value s0 s1
  refine .ite ((PwrShows.of_frame State.incF_frame).trans h0) (.ite ?_ (.ite (PwrShows.trans rfl h1) ?_))
  · exact (PwrShows.of_frame State.ledger_frame).trans ((PwrShows.of_frame State.setFs_frame).trans h1)
  · exact (PwrShows.of_frame State.decideHandover_frame).trans h1

theorem State.measureCore_due {r : State × Bool} {m : Meas} : SameDue (State.measureCore r m).1 r.1 := by
  unfold State.measureCore
  extract_lets s p c moving s1
  have h1 : SameDue s1 s := State.noteMeas_due
  rw [apply_ite Prod.fst, apply_ite Prod.fst, apply_ite Prod.fst, apply_ite Prod.fst, apply_ite Prod.fst]
  refine .ite .refl (.ite (State.restoreTest_due.trans State.noteMeas_due) (.ite .refl (.ite ?_ (.ite ?_ h1))))
  · exact State.planCore_due.trans h1
  · exact State.retire_due.trans h1

/-- A measurement of any cores keeps the time, DRAM and the next measurement's time. -/
theorem State.measureCores_keep (ms : List Meas) : ∀ r : State × Bool, (ms.foldl State.measureCore r).1.now = r.1.now ∧
    (ms.foldl State.measureCore r).1.dram = r.1.dram ∧ (ms.foldl State.measureCore r).1.pwr.wxDue = r.1.pwr.wxDue := by
  induction ms with
  | nil => exact fun r => ⟨rfl, rfl, rfl⟩
  | cons m ms ih =>
    intro r
    obtain ⟨h1, h2, h3⟩ := ih (State.measureCore r m)
    exact ⟨h1.trans (State.measureCore_frame.keeps .now (by decide)), h2.trans (State.measureCore_frame.keeps .dram (by decide)),
      h3.trans State.measureCore_due⟩

/-! ### One core's measurement -/

theorem State.noteMeas_shows {m : Meas} {c : Nat} : (s.noteMeas m c).getF (F.PWR_WX_SLACK_SLACK m.core) = unsext 16 m.slack % 2 ^ 16 ∧
    (s.noteMeas m c).getF (F.PWR_WX_SLACK_AGE m.core) = m.age % 2 ^ 16 ∧
    SameFields (s.noteMeas m c) s (Among (measFields m.core)) := by
  unfold State.noteMeas
  extract_lets safe f s1
  have h1 : SameBut s1 s [.free] := SameBut.ite (SameBut.refl _ _) State.fresh_frame
  clear_value f s1
  refine ⟨?_, ?_, ?_⟩
  · refine State.getF_setFs_at (s := s1) (f := F.PWR_WX_SLACK_SLACK m.core) (i := 0) (v := unsext 16 m.slack) rfl ?_
    simp [Fld.key, F.PWR_WX_SLACK_SLACK, F.PWR_WX_SLACK_AGE, F.PWR_WX_STATE_SAFE_BIN]
  · refine State.getF_setFs_at (s := s1) (f := F.PWR_WX_SLACK_AGE m.core) (i := 1) (v := m.age) rfl ?_
    simp [Fld.key, F.PWR_WX_SLACK_AGE, F.PWR_WX_STATE_SAFE_BIN]
    omega
  · exact (SameFields.setsIn (by simp [measFields])).trans (SameFields.of_frame h1)

/-- The last measurement of a core on the tester's plan: what its planning reads and leaves (R521, R524). -/
theorem State.measureCore_plans {m : Meas} {raised : Bool} (hcore : m.core < 72) (hrole : s.role m.core = 0)
    (hrestore : s.pwr.restore = none) (hdip : s.getF (F.CORE_CLK_BIN_DIP m.core) = 0)
    (heff : s.getF (F.CORE_CLK_BIN_EFF m.core) = min 3 (s.getF (F.CORE_CLK_BIN_PLAN m.core))) :
    State.measureCore (s, raised) m =
      (s.noteMeas m (s.getF (F.CORE_CLK_BIN_EFF m.core))).planCore m.core m.slack (s.getF (F.CORE_CLK_BIN_EFF m.core)) raised := by
  unfold State.measureCore
  dsimp only
  rw [if_neg (by simp [hdip, heff, hcore]), if_neg (by simp [hrestore]), if_neg (by omega), if_pos hrole]

/-- A plan that is too fast raises VSET while it may rise (R524, R525). -/
theorem State.planCore_raises {p c : Nat} {slack : Int} (hex : s.getF (F.PWR_WX_STATE_EXHAUSTED p) ≠ 1)
    (hst : s.getF (F.PWR_WX_STATE_STOPPED p) ≠ 1)
    (hslow : ∀ b, (safeBins slack c (s.getF F.PWR_WX_CFG_G_BIN)).head? = some b → s.getF (F.CORE_CLK_BIN_PLAN p) < b)
    (hvset : s.getF F.PWR_VCORE_VSET < s.getF F.PWR_VCORE_VMAX) :
    (s.planCore p slack c false).1 = s.setVset (s.getF F.PWR_VCORE_VSET + 1) := by
  unfold State.planCore
  extract_lets safe plan slower good vset vmax
  have hs : slower = true := by
    unfold slower
    split
    next b hb => exact decide_eq_true (hslow b hb)
    next => rfl
  rw [if_neg (by simp [hex, hst]), if_pos ⟨hs, Or.inr hvset⟩]
  rfl

theorem State.ledger_counts {k n : Nat} {bs : List Byte} :
    SameFields (s.ledger k n bs) s (Among [F.DEV_LEDGER_QUEUED, F.DEV_LEDGER_CNT_LOST]) :=
  SameFields.ite (SameFields.incIn (by simp)) ((SameFields.setIn (by simp)).trans (SameFields.of_regs rfl))

theorem State.setVset_next : (s.setVset (s.getF F.PWR_VCORE_VSET + 1)).getF F.PWR_VCORE_VSET = (s.getF F.PWR_VCORE_VSET + 1) % 8 := by
  unfold State.setVset
  dsimp only
  rw [if_neg (by omega), State.ledger_counts F.PWR_VCORE_VSET (not_among (by decide))]
  exact State.getF_setF_self _ _ _

/-- The state in which a measurement begins: its time has come, and the next one's is set. -/
def State.wxReady (s : State) : State :=
  (s.waitUntil s.pwr.wxDue).onPwr fun w => { w with wxDue := s.pwr.wxDue + max 1 (s.getF F.PWR_WX_CFG_PERIOD) * 150000000 }

theorem State.weatherMeasure_eq (ms : List Meas) (h : s.getF F.DEV_BOOT_COMPLETE ≠ 0) :
    s.weatherMeasure ms = if s.pstate = 2 then s.wxReady else (ms.foldl State.measureCore (s.wxReady, false)).1 := by
  unfold State.weatherMeasure
  rw [if_neg h]
  unfold State.wxReady
  generalize s.waitUntil s.pwr.wxDue = x
  rfl

theorem State.wxReady_now : s.wxReady.now = max s.now s.pwr.wxDue :=
  (State.onPwr_frame.keeps .now (by decide)).trans (State.waitUntil_now _ _)

theorem State.wxReady_pwr : s.wxReady.pwr = { s.pwr with
    wxDue := s.pwr.wxDue + max 1 (s.getF F.PWR_WX_CFG_PERIOD) * 150000000 } := by
  have h : (s.waitUntil s.pwr.wxDue).pwr = s.pwr := State.waitUntil_frame.keeps .pwr (by decide)
  unfold State.wxReady State.onPwr
  rw [h]

theorem State.wxReady_fields : SameFields s.wxReady s WithTime := (SameFields.of_frame State.onPwr_frame).trans (s.waitUntil_fields _)

theorem State.weatherMeasure_times (ms : List Meas) (h : s.getF F.DEV_BOOT_COMPLETE ≠ 0) :
    (s.weatherMeasure ms).now = max s.now s.pwr.wxDue ∧
    (s.weatherMeasure ms).pwr.wxDue = s.pwr.wxDue + max 1 (s.getF F.PWR_WX_CFG_PERIOD) * 150000000 := by
  have hnow := State.wxReady_now (s := s)
  have hdue := congrArg PwrSt.wxDue (State.wxReady_pwr (s := s))
  rw [State.weatherMeasure_eq ms h]
  split
  · exact ⟨hnow, hdue⟩
  · obtain ⟨h1, -, h3⟩ := State.measureCores_keep ms (s.wxReady, false)
    exact ⟨h1.trans hnow, h3.trans hdue⟩

theorem unsext_lt (w : Nat) (i : Int) : unsext w i < 2 ^ w := by
  have hpos : 0 < (2 : Nat) ^ w := Nat.two_pow_pos w
  have h := Int.emod_lt_of_pos i (Int.ofNat_lt.mpr hpos)
  have h0 := Int.emod_nonneg i (Int.ofNat_lt.mpr hpos).ne'
  unfold unsext
  change (i % ((2 ^ w : Nat) : Int)).toNat < 2 ^ w
  change i % ((2 ^ w : Nat) : Int) < ((2 ^ w : Nat) : Int) at h
  omega

/-! ### The request to restore a core -/

def wxCtrlFields : List Fld := [F.PWR_WX_CTRL_CORE, F.PWR_WX_CTRL_RESTORE]

theorem regAt_wxCtrl : regAt 0x90088 = some wxCtrlFields := by decide +kernel

theorem blockOf_wxCtrl : blockOf 0x90088 = some (.pwr, 0x88) := by decide +kernel

theorem State.writeFields_wxCtrl (v : Nat) : wxCtrlFields.foldl (State.writeField v) s = s.setF F.PWR_WX_CTRL_CORE (bits v 0 7) := by
  have hshared : isShared F.PWR_WX_CTRL_CORE = false := by decide
  have hcore : State.writeField v s F.PWR_WX_CTRL_CORE = s.setF F.PWR_WX_CTRL_CORE (bits v 0 7) := by
    simp [State.writeField, show F.PWR_WX_CTRL_CORE.acc = .rw from rfl, hshared]
    rfl
  simp only [wxCtrlFields, List.foldl_cons, List.foldl_nil]
  rw [hcore, State.writeField_wo rfl]

/-- A write of RESTORE asks for the core that it names (R529). -/
theorem State.hostWrite_restore (p : BitVec 7) (hr : s.replaying = false) :
    SameBut (s.hostWrite 0x90088 (p.toNat + 128)).2 (s.setF F.PWR_WX_CTRL_CORE p.toNat).restoreAsk [.aud] := by
  have hp := p.isLt
  have hv : bits (p.toNat + 128) 0 7 = p.toNat := by simp only [bits]; omega
  have hbit : bit (p.toNat + 128) 7 = true := by simp only [bit, beq_iff_eq]; omega
  obtain ⟨w, hw⟩ := State.wordAt_isSome (s := s) blockOf_wxCtrl regAt_wxCtrl (by simp)
  have h := State.hostWrite_taken (v := p.toNat + 128) hr (by decide) blockOf_wxCtrl regAt_wxCtrl hw
    ⟨F.PWR_WX_CTRL_CORE, by simp [wxCtrlFields], State.writable_rw s rfl⟩ rfl
  rw [State.writeFields_wxCtrl, hv] at h
  unfold State.writeEffect at h
  dsimp only at h
  rwa [if_pos ⟨rfl, hbit⟩] at h

/-- Only a retired or stopped core is asked for. -/
theorem State.restoreAsk_of {p : Nat} (hp : p < 72) :
    (s.setF F.PWR_WX_CTRL_CORE p).restoreAsk.getF F.PWR_WX_CTRL_CORE = p ∧ (s.setF F.PWR_WX_CTRL_CORE p).restoreAsk.now = s.now ∧
    ((s.role p = 2 ∨ s.getF (F.PWR_WX_STATE_STOPPED p) = 1) → (s.setF F.PWR_WX_CTRL_CORE p).restoreAsk.pwr.restore = some p) ∧
    (¬ (s.role p = 2 ∨ s.getF (F.PWR_WX_STATE_STOPPED p) = 1) → (s.setF F.PWR_WX_CTRL_CORE p).restoreAsk.pwr = s.pwr) := by
  have hcore : (s.setF F.PWR_WX_CTRL_CORE p).getF F.PWR_WX_CTRL_CORE = p :=
    (State.getF_setF_self _ _ _).trans (Nat.mod_eq_of_lt (show p < 2 ^ 7 by omega))
  have hrole : (s.setF F.PWR_WX_CTRL_CORE p).role p = s.role p := State.getF_setF_ne _ _ (by
    simp [Fld.key, F.CORE_IDENT_ROLE, F.PWR_WX_CTRL_CORE]; omega)
  have hstop : (s.setF F.PWR_WX_CTRL_CORE p).getF (F.PWR_WX_STATE_STOPPED p) = s.getF (F.PWR_WX_STATE_STOPPED p) :=
    State.getF_setF_ne _ _ (by simp [Fld.key, F.PWR_WX_STATE_STOPPED, F.PWR_WX_CTRL_CORE]; omega)
  have hpwr : (s.setF F.PWR_WX_CTRL_CORE p).pwr = s.pwr := State.setF_frame.keeps .pwr (by decide)
  have hnow : (s.setF F.PWR_WX_CTRL_CORE p).now = s.now := State.setF_frame.keeps .now (by decide)
  generalize s.setF F.PWR_WX_CTRL_CORE p = x at *
  refine ⟨(SameFields.of_frame (ok := fun _ => False) State.restoreAsk_frame (by decide) _ id).trans hcore,
    (State.restoreAsk_frame.keeps .now (by decide)).trans hnow, fun h => ?_, fun h => ?_⟩
  · unfold State.restoreAsk
    dsimp only
    rw [hcore, hrole, hstop, if_pos ⟨hp, h⟩]
    rfl
  · unfold State.restoreAsk
    dsimp only
    rw [hcore, hrole, hstop, if_neg fun hc => h hc.2]
    exact hpwr

end

end Sys2Proof.Machine

namespace Sys2Proof
set_option Elab.async false
open Sys2Proof.Machine

/-- Settles O53: the wait and every other core's fields stay off the monitor, and one core's measurement is followed. -/
theorem weatheringMeasuresAndRestores : Obligations.WeatheringMeasuresAndRestores := by
  unfold Obligations.WeatheringMeasuresAndRestores
  refine ⟨?_, ?_, ?_⟩
  case refine_1 =>
    intro s ms hok hboot
    refine Completes.of_act (t := s.weatherMeasure ms) rfl hok fun w => ?_
    have hdram : (s.weatherMeasure ms).dram = s.dram := State.weatherMeasure_frame.keeps .dram (by decide)
    obtain ⟨hnow, hdue⟩ := State.weatherMeasure_times ms hboot
    exact ⟨hnow, hdue, hdram⟩
  case refine_2 =>
    intro s m hok hboot hstate hrole hrestore hdip heff
    have hcore : m.core < 72 := by
      simp only [measOk, isCore, Bool.and_eq_true, decide_eq_true_eq] at hok
      exact hok.1.1
    refine Completes.of_act (t := s.weatherMeasure [m]) rfl (by simpa [Instr.wf] using hok) fun w => ?_
    have hx : SameFields s.wxReady s WithTime := State.wxReady_fields
    have hpwr := State.wxReady_pwr (s := s)
    have hnext : s.wxReady.pwr.planNext = s.pwr.planNext := by rw [hpwr]
    have hnone : s.wxReady.pwr.restore = none := by rw [hpwr]; exact hrestore
    rw [State.weatherMeasure_eq _ hboot, if_neg hstate]
    generalize s.wxReady = x at *
    have hrole' : x.role m.core = 0 := (hx _ (not_withTime_core m.core 0 24)).trans hrole
    have hdip' : x.getF (F.CORE_CLK_BIN_DIP m.core) = 0 := (hx _ (not_withTime_core m.core 8 2)).trans hdip
    have heff' : x.getF (F.CORE_CLK_BIN_EFF m.core) = s.getF (F.CORE_CLK_BIN_EFF m.core) := hx _ (not_withTime_core m.core 8 4)
    have hplan : x.getF (F.CORE_CLK_BIN_PLAN m.core) = s.getF (F.CORE_CLK_BIN_PLAN m.core) := hx _ (not_withTime_core m.core 8 0)
    obtain ⟨hslack, hage, hfields⟩ := State.noteMeas_shows (s := x) (m := m) (c := s.getF (F.CORE_CLK_BIN_EFF m.core))
    have hkept : (x.noteMeas m (s.getF (F.CORE_CLK_BIN_EFF m.core))).pwr.planNext = s.pwr.planNext := State.noteMeas_pwr.2.trans hnext
    have hm : ([m].foldl State.measureCore (x, false)).1 = ((x.noteMeas m (s.getF (F.CORE_CLK_BIN_EFF m.core))).planCore m.core m.slack
        (s.getF (F.CORE_CLK_BIN_EFF m.core)) false).1 := by
      rw [List.foldl_cons, List.foldl_nil, State.measureCore_plans hcore hrole' hnone hdip' (by rw [heff', hplan, heff]), heff']
    have hfrom {f : Fld} (ht : ¬ WithTime f) (hn : ¬ Among (measFields m.core) f) :
        (x.noteMeas m (s.getF (F.CORE_CLK_BIN_EFF m.core))).getF f = s.getF f :=
      (hfields f hn).trans (hx f ht)
    rw [hm]
    generalize x.noteMeas m (s.getF (F.CORE_CLK_BIN_EFF m.core)) = y at *
    have hoff := State.planCore_offSlack (s := y) hcore (p := m.core) (c := s.getF (F.CORE_CLK_BIN_EFF m.core)) (slack := m.slack) (raised := false)
    refine ⟨?_, ?_, fun hex hst hslow hvset => ?_⟩
    · exact (hoff _ fun h => h.1 rfl).trans (hslack.trans (Nat.mod_eq_of_lt (unsext_lt 16 _)))
    · exact (hoff _ fun h => h.2 rfl).trans hage
    · have hex' : y.getF (F.PWR_WX_STATE_EXHAUSTED m.core) = s.getF (F.PWR_WX_STATE_EXHAUSTED m.core) :=
        hfrom (not_withTime_mon m.core 8 hcore) (not_measured_lo 8)
      have hst' : y.getF (F.PWR_WX_STATE_STOPPED m.core) = s.getF (F.PWR_WX_STATE_STOPPED m.core) :=
        hfrom (not_withTime_mon m.core 9 hcore) (not_measured_lo 9)
      have hbin : y.getF F.PWR_WX_CFG_G_BIN = s.getF F.PWR_WX_CFG_G_BIN :=
        hfrom not_withTime_low (not_measured_addr hcore _ _)
      have hplan' : y.getF (F.CORE_CLK_BIN_PLAN m.core) = s.getF (F.CORE_CLK_BIN_PLAN m.core) :=
        hfrom (not_withTime_core m.core 8 0) (not_measured_addr hcore 0 (0x1000008 + m.core * 0x20000) (h := by omega))
      have hset : y.getF F.PWR_VCORE_VSET = s.getF F.PWR_VCORE_VSET := hfrom not_withTime_low (not_measured_addr hcore 16 0x90028)
      have hmax : y.getF F.PWR_VCORE_VMAX = s.getF F.PWR_VCORE_VMAX := hfrom not_withTime_low (not_measured_addr hcore _ 0x90028)
      rw [State.planCore_raises (by rwa [hex']) (by rwa [hst']) (by rwa [hbin, hplan']) (by rwa [hset, hmax]), ← hset]
      exact ⟨State.setVset_next, (congrArg PwrSt.planNext (State.setVset_frame.keeps .pwr (by decide))).trans hkept⟩
  case refine_3 =>
    intro s p hp hr
    have hlt : p.toNat < 72 := of_decide_eq_true hp
    refine Completes.of_act (t := (s.hostWrite 0x90088 (p.toNat + 128)).2) rfl hp fun w => ?_
    have h := State.hostWrite_restore p hr
    obtain ⟨hcore, hnow, hask, hno⟩ := State.restoreAsk_of (s := s) hlt
    generalize (s.setF F.PWR_WX_CTRL_CORE p.toNat).restoreAsk = x at *
    have hkept : (s.hostWrite 0x90088 (p.toNat + 128)).2.pwr = x.pwr := h.keeps .pwr (by decide)
    refine ⟨(State.getF_of_aud h _).trans hcore, (h.keeps .now (by decide)).trans hnow, fun ha => ?_, fun ha => ?_⟩
    · exact (congrArg PwrSt.restore hkept).trans (hask ha)
    · exact hkept.trans (hno ha)

end Sys2Proof

/-! SUPPORT. What a stream engine's transfers keep: every register below the units' blocks and the cores' row replacements. -/
namespace Sys2Proof.Machine
set_option Elab.async false

/-- A field of a band's or a core's block. -/
def InUnits (f : Fld) : Prop := 0x2000000 ≤ f.key

/-- The state outside the units' streams: the registers below the units' blocks, and the rows replaced in the cores. -/
def Outside (t s : State) : Prop := SameFields t s InUnits ∧ CoresShow CoreSt.mapped t s

theorem above {n a b : Nat} (h : n ≤ a := by decide) : n ≤ a + b := Nat.le_add_right_of_le h

theorem EngId.regs_inUnits (g : EngId) : 0x100000 ≤ g.regs := by
  cases g <;> simp only [EngId.regs, coreEng, bandEng] <;> omega

theorem WithTime.inUnits {f : Fld} (h : WithTime f) : InUnits f := by
  obtain ⟨p, hp⟩ := h
  simp only [Among, stallFields, mergeFields, List.map_append, List.map_cons, List.map_nil, List.mem_append, List.mem_cons,
    List.not_mem_nil, or_false, Fld.key, F.CORE_STALL_FULL_STALL_FULL, F.CORE_STALL_EMPTY_STALL_EMPTY, F.CORE_STALL_HALT_STALL_HALT,
    F.CORE_STALL_IN_STALL_IN, F.CORE_STALL_DATA_STALL_DATA, F.CORE_STALL_SLOT_STALL_SLOT, F.CORE_STALL_SUFFIX_STALL_SUFFIX,
    F.CORE_BARRIER_BARRIER_WAIT, F.CORE_SPAD_ECC_CORRECTED, F.CORE_SPAD_ECC_UNCORR, F.CORE_SPAD_LAST_BANK, F.CORE_SPAD_LAST_ROW,
    F.CORE_SPAD_LAST_UNC, F.BAND_LS_ECC_CORRECTED, F.BAND_LS_ECC_UNCORR] at hp
  simp only [InUnits, Fld.key]
  omega

section
variable {s t u : State} {f : Fld}

theorem InUnits.of_addr {g : Fld} (h : 0x100000 ≤ f.addr) (e : g.key = f.key) : InUnits g := by
  rw [InUnits, e, Fld.key]
  omega

theorem TimeShows.mapped (h : TimeShows t s) : CoresShow CoreSt.mapped t s := fun q => by
  have hq := congrArg CoreSt.mapped (h.1 q)
  exact hq

theorem Outside.refl : Outside s s := ⟨SameFields.refl _ _, CoresShow.refl _ _⟩

theorem Outside.trans (h1 : Outside u t) (h2 : Outside t s) : Outside u s := ⟨h1.1.trans h2.1, h1.2.trans h2.2⟩

theorem Outside.ite {c : Prop} [Decidable c] {a b : State} (ha : Outside a s) (hb : Outside b s) : Outside (if c then a else b) s := by
  split <;> assumption

theorem Outside.foldl {α : Type} {g : State → α → State} {l : List α} {x : State} (h : ∀ y a, Outside (g y a) y) :
    Outside (l.foldl g x) x := by
  induction l generalizing x with
  | nil => exact .refl
  | cons a l ih => exact ih.trans (h x a)

theorem Outside.each {n : Nat} {g : State → Nat → State} {x : State} (h : ∀ y k, Outside (g y k) y) : Outside (x.each n g) x := .foldl h

theorem Outside.of_frame {ps : List Part} (h : SameBut t s ps) (hp : .regs ∉ ps ∧ .cores ∉ ps := by decide) : Outside t s :=
  ⟨SameFields.of_frame h hp.1, CoresShow.of_frame h hp.2⟩

theorem Outside.of_eqs (hr : t.regs = s.regs) (hc : t.cores = s.cores) : Outside t s := ⟨SameFields.of_regs hr, CoresShow.of_cores hc⟩

theorem Outside.of_regs {ps : List Part} (h : SameBut t s ps) (hf : SameFields t s InUnits) (hp : .cores ∉ ps := by decide) : Outside t s :=
  ⟨hf, CoresShow.of_frame h hp⟩

theorem Outside.onCore {p : Nat} {g : CoreSt → CoreSt} (h : ∀ c, (g c).mapped = c.mapped := by intro _; rfl) : Outside (s.onCore p g) s :=
  ⟨SameFields.of_regs rfl, CoresShow.onCore h⟩

theorem Outside.setF {v : Nat} (h : 0x100000 ≤ f.addr) : Outside (s.setF f v) s :=
  .of_regs State.setF_frame (SameFields.setF fun _ e => .of_addr h e)

theorem Outside.incF {v : Nat} (h : 0x100000 ≤ f.addr) : Outside (s.incF f v) s :=
  .of_regs State.incF_frame (SameFields.incF fun _ e => .of_addr h e)

theorem Outside.wrapF {v : Nat} (h : 0x100000 ≤ f.addr) : Outside (s.wrapF f v) s :=
  .of_regs State.wrapF_frame (by
    intro g hg
    simp only [State.getF, State.wrapF, RegFile.put, RegFile.note_vals]
    exact SMap.get_set_ne _ _ _ _ fun e => hg (.of_addr h e))

theorem Outside.uncountF {v : Nat} (h : 0x100000 ≤ f.addr) : Outside (s.uncountF f v) s :=
  .of_regs State.uncountF_frame (by
    intro g hg
    simp only [State.getF, State.uncountF, RegFile.put, RegFile.note_vals]
    exact SMap.get_set_ne _ _ _ _ fun e => hg (.of_addr h e))

theorem Outside.setFs {l : List (Fld × Nat)} (h : ∀ x ∈ l, 0x100000 ≤ x.1.addr) : Outside (s.setFs l) s :=
  .of_regs State.setFs_frame (SameFields.setFs fun x hx _ e => .of_addr (h x hx) e)

/-! ### Threads, engines and transfers -/

theorem State.waitUntil_outside {n : Nat} : Outside (s.waitUntil n) s :=
  ⟨(s.waitUntil_fields n).mono fun _ h => h.inUnits, (State.waitUntil_shows s n).mapped⟩

theorem State.setThreadState_outside {p t v : Nat} : Outside (s.setThreadState p t v) s := .setF above

theorem State.frameThreads_outside {p : Nat} : Outside (s.frameThreads p) s := .each fun _ _ => .ite .refl State.setThreadState_outside

theorem State.setWait_outside {p t : Nat} {w : Wait} : Outside (s.setWait p t w) s := by
  have hset : Outside ((s.onThread p t fun h => { h with wait := w }).setThreadState p t
      (if (s.onThread p t fun h => { h with wait := w }).suspended p t then 3 else if w = .none then 1 else 2)) s :=
    State.setThreadState_outside.trans .onCore
  exact .ite (State.frameThreads_outside.trans hset) hset

theorem State.onEng_outside {g : EngId} {f : Eng → Eng} : Outside (s.onEng g f) s := by
  cases g with
  | core p e => exact .onCore
  | band b e => exact .of_frame (State.onBand_frame (s := s))

theorem State.showOutst_outside {g : EngId} : Outside (s.showOutst g) s := .setF (above (EngId.regs_inUnits g))

theorem State.listEnds_outside {g : EngId} : Outside (s.listEnds g) s :=
  (Outside.setF (above (EngId.regs_inUnits g))).trans (State.onEng_outside.trans (.ite (.uncountF (above (EngId.regs_inUnits g))) .refl))

theorem State.freeTiles_outside {p e : Nat} : Outside (s.freeTiles p e) s := .each fun _ _ => .ite State.setWait_outside .refl

theorem State.serveTiles_outside {p e : Nat} : Outside (s.serveTiles p e) s := .ite .refl State.freeTiles_outside

theorem State.engStopped_outside {g : EngId} : Outside (s.engStopped g) s := by
  unfold State.engStopped
  extract_lets x s1
  have hs1 : Outside s1 s := (Outside.setF (above (EngId.regs_inUnits g))).trans State.onEng_outside
  exact .ite (.trans (.ite (.setF (above (EngId.regs_inUnits g))) .refl) hs1) .refl

theorem State.descComplete_outside {g : EngId} {i : Nat} : Outside (s.descComplete g i) s := by
  unfold State.descComplete
  split
  · exact .refl
  split
  · exact .refl
  next r _ dr _ =>
    extract_lets d s1 s2 buf
    have hs1 : Outside s1 s := .ite .refl (.of_frame State.descSignal_frame)
    have hs2 : Outside s2 s := by
      cases g with
      | core p e => exact .trans (.ite (State.serveTiles_outside.trans (.wrapF (above (EngId.regs_inUnits _)))) .refl) hs1
      | band b e => exact hs1
    exact .trans (.ite State.listEnds_outside State.onEng_outside) hs2

theorem State.lsRelease_outside {b y : Nat} {r : Prn} : Outside (s.lsRelease b r y) s :=
  .ite (.trans (.of_frame State.slotCheck_frame) (.of_frame State.setSlot_frame)) (.incF above)

theorem State.releaseLines_outside {g : EngId} {r : Prn} {ys : List Nat} : Outside (s.releaseLines g r ys) s :=
  .ite (.foldl fun _ _ => State.lsRelease_outside) .refl

theorem State.lsMerge_outside {b : Nat} {ws ce ue : List Nat} : Outside (s.lsMerge b ws ce ue) s :=
  .foldl fun _ _ => .ite (.trans (.of_frame State.onBand_frame) (.incF above)) (.ite (.incF above) .refl)

theorem State.spadMerge_outside {p : Nat} {ws ce ue : List Nat} : Outside (s.spadMerge p ws ce ue) s :=
  ⟨(State.spadMerge_fields _ _ _ _ _).mono fun _ h => WithTime.inUnits h,
    State.spadMerge_shows.mapped⟩

theorem State.mergeEcc_outside {place u a n : Nat} {ce ue : List Nat} : Outside (s.mergeEcc place u a n ce ue) s :=
  .ite State.spadMerge_outside (.ite State.lsMerge_outside .refl)

theorem State.writeMem_outside {place u a : Nat} {bs : List Byte} : Outside (s.writeMem place u a bs) s :=
  .ite .onCore (.ite (.of_frame State.onBand_frame) (.ite .refl (.of_eqs rfl rfl)))

theorem State.writeBack_outside {place u a : Nat} {bs : List Byte} {e : EccIn} : Outside (s.writeBack place u a bs e) s :=
  .trans (.ite .onCore .refl) (State.writeMem_outside.trans State.mergeEcc_outside)

theorem State.unpackBlock_outside {g : EngId} {sr dr : Prn} {du : Nat} {d : Desc} {b i blk : Nat} {e : EccIn} :
    Outside (s.unpackBlock g sr dr du d b i blk e) s := by
  refine .foldl fun y j => .ite .refl (State.writeBack_outside.trans ?_)
  cases g with
  | core p e => exact .incF above
  | band b e => exact .refl

theorem State.moveXfer_outside {g : EngId} {d : Desc} {b k : Nat} {sr dr : Prn} {du : Nat} {e : EccIn} :
    Outside (s.moveXfer g d b k sr dr du e) s :=
  .ite (.ite (.ite State.writeBack_outside State.writeBack_outside) (.ite .refl State.unpackBlock_outside))
    (.foldl fun _ _ => State.writeBack_outside)

theorem State.onDesc_outside {g : EngId} {i : Nat} {f : DescRun → DescRun} : Outside (s.onDesc g i f) s := State.onEng_outside

theorem State.arriveAt_outside {g : EngId} {r : ListRun} {i k : Nat} {d : Desc} {l : Nat} {e : EccIn} :
    Outside (s.arriveAt g r i k d l e) s := by
  refine .ite (State.onDesc_outside.trans ?_) State.moveXfer_outside
  have hlate : ∀ {q me w}, Outside ((s.incF (F.CORE_RWIN_LATE_RW q) 1).setFs
      [(F.CORE_RWIN_LATE_SRC q, me), (F.CORE_RWIN_LATE_ROLE q, w)]) s := by
    intro q me w
    refine .trans (.setFs fun x hx => ?_) (.incF above)
    simp only [List.mem_cons, List.not_mem_nil, or_false] at hx
    obtain rfl | rfl := hx <;> exact above
  cases g with
  | core p e => exact .trans (.incF above) hlate
  | band b e => exact hlate

theorem State.finishXfer_outside {g : EngId} {r : ListRun} {i k : Nat} {d : Desc} : Outside (s.finishXfer g r i k d) s := by
  unfold State.finishXfer
  extract_lets sr n s1 l a dp
  have hs1 : Outside s1 s := State.onDesc_outside
  split
  · exact hs1
  · have ha : Outside a s1 := .ite State.releaseLines_outside .refl
    exact .trans (.ite State.descComplete_outside .refl) (.trans (.ite (.trans (.ite (.of_frame State.lsMark_frame) .refl) ha) .refl) hs1)

theorem State.xferLand_outside {g : EngId} {n : Nat} {t : Xfer} {r : ListRun} {d : Desc} {e : EccIn} :
    Outside (s.xferLand g n t r d e) s := by
  unfold State.xferLand
  extract_lets prn sr dp s1 s2
  have hs1 : Outside s1 s := State.showOutst_outside.trans State.onEng_outside
  have hs2 : Outside s2 s := .trans (.wrapF (above (EngId.regs_inUnits g))) (.trans (.ite .refl State.moveXfer_outside) hs1)
  exact .trans (.ite State.engStopped_outside (State.engStopped_outside.trans State.finishXfer_outside)) hs2

theorem State.finishOne_outside {g : EngId} {t : Xfer} : Outside (s.finishOne g t) s := by
  unfold State.finishOne
  split
  · exact .refl
  next r dr _ =>
    extract_lets d s1 targets s2
    have hs1 : Outside s1 s := State.waitUntil_outside
    have hs2 : Outside s2 s := .trans (.foldl fun _ _ => State.arriveAt_outside) hs1
    refine .ite hs1 ?_
    split
    · exact State.xferLand_outside.trans hs2
    · exact hs2

theorem State.quietEngine_outside {g : EngId} : Outside (s.quietEngine g) s := by
  unfold State.quietEngine
  extract_lets s1 fab s2
  have hs1 : Outside s1 s := .foldl fun _ _ => State.finishOne_outside
  have hs2 : Outside s2 s1 := .of_eqs rfl rfl
  refine .trans (.setF (above (EngId.regs_inUnits g))) (.trans (.setFs fun x hx => ?_) (State.onEng_outside.trans (hs2.trans hs1)))
  simp only [List.mem_cons, List.not_mem_nil, or_false] at hx
  obtain rfl | rfl | rfl := hx <;> exact above (EngId.regs_inUnits g)

end

end Sys2Proof.Machine

/-! SUPPORT. The exit from Doldrums: what its schedule, its bands and its cores leave of the registers (R294, R512). -/
namespace Sys2Proof.Machine
set_option Elab.async false

section
variable {s : State}

/-! ### Installing a schedule (R294) -/

/-- A table of a band's or a core's block. -/
theorem State.putTable_beside {addr n : Nat} {bs : List Byte} (h : 0x100000 ≤ addr) : SameFields (s.putTable addr n bs) s Beside := by
  intro f hf
  refine SMap.get_blit_out _ _ _ _ _ _ (Or.inl ?_)
  have hin : f.key ∈ linkReplay.map Fld.key := Classical.not_not.1 hf
  have hlow : ∀ k ∈ linkReplay.map Fld.key, k < 0x2000000 := by decide
  have := hlow _ hin
  omega

theorem State.putSem_beside {p i w : Nat} : SameFields (s.putSem p i w) s Beside :=
  Beside.setFs (by simp [F.CORE_SEM_KIND, F.CORE_SEM_CAP, F.CORE_SEM_INIT, F.CORE_SEM_COUNT, F.CORE_SEM_DEBT])

theorem State.installCore_beside {p : Nat} {c : CoreImage} : SameFields (s.installCore p c) s Beside := by
  unfold State.installCore
  extract_lets base s1 s2 s3
  have hs3 : SameFields s3 s Beside := (State.putTable_beside (by omega)).trans
    ((State.putTable_beside (by omega)).trans (State.putTable_beside (by omega)))
  exact (Beside.of_frame State.onCore_frame).trans ((Beside.of_frame State.onCore_frame).trans
    (SameFields.each hs3 fun _ _ => State.putSem_beside))

theorem State.installBand_beside {b : Nat} {i : BandImage} : SameFields (s.installBand b i) s Beside := by
  unfold State.installBand
  extract_lets base
  exact (Beside.of_frame State.lsClear_frame).trans ((State.putTable_beside (by omega)).trans (State.putTable_beside (by omega)))

theorem State.installTables_beside {sc : Schedule} {n : Nat} : SameFields (s.installTables sc n) s Beside :=
  SameFields.each (SameFields.each (SameFields.refl _ _) fun _ _ => State.installCore_beside) fun _ _ => State.installBand_beside

theorem State.installRt_beside {sc : Schedule} : SameFields (s.installRt sc) s Beside :=
  SameFields.trans (SameFields.of_regs rfl) ((Beside.setF (beside (f := F.CAL_RT_STEP_LAG))).trans (Beside.yieldF beside))

theorem State.setSegs_beside : SameFields s.setSegs s Beside := by
  unfold State.setSegs
  extract_lets w s1
  have h1 : SameFields s1 s Beside := SameFields.each (SameFields.refl _ _) fun _ _ =>
    Beside.setFs (by simp [F.CORE_SEG_SEG_X0, F.CORE_SEG_SEG_W])
  exact SameFields.each h1 fun _ _ => Beside.setFs (by simp [F.CORE_SEG_SEG_X0, F.CORE_SEG_SEG_W])

theorem State.setGeometry_beside {m : Mode} : SameFields (s.setGeometry m) s Beside := Beside.setFs (by
  simp only [List.mem_cons, List.not_mem_nil, or_false, forall_eq_or_imp, forall_eq]
  exact ⟨beside, beside, beside, beside, beside, beside⟩)

theorem State.emptyCommitted_beside : SameFields s.emptyCommitted s Beside := by
  unfold State.emptyCommitted
  extract_lets s1
  have h1 : SameFields s1 s Beside := SameFields.foldl (SameFields.refl _ _) fun y q =>
    SameFields.each (SameFields.each (SameFields.refl _ _) fun _ _ => Beside.setF (by simp [F.CORE_PRN_DATA])) fun _ _ =>
      SameFields.each (SameFields.refl _ _) fun _ _ => SameFields.ite (Beside.setF (by simp [F.BAND_PRN_DATA])) (SameFields.refl _ _)
  clear_value s1
  exact SameFields.trans (SameFields.of_regs rfl) h1

theorem State.installSchedule_beside {mode bucket : Nat} : SameFields (s.installSchedule mode bucket) s Beside := by
  unfold State.installSchedule
  extract_lets m k sc s1 s2
  have h1 : SameFields s1 s Beside := SameFields.of_regs rfl
  have h2 : SameFields s2 s Beside := by
    refine State.installTables_beside.trans ((Beside.setFs ?_).trans (State.setGeometry_beside.trans h1))
    simp only [List.mem_cons, List.not_mem_nil, or_false, forall_eq_or_imp, forall_eq]
    exact ⟨beside, beside, beside, beside⟩
  clear_value s2
  exact State.emptyCommitted_beside.trans (State.setSegs_beside.trans (State.installRt_beside.trans h2))

/-! ### Bands and cores (R511, R512) -/

theorem State.gateBand_beside {b : Nat} : SameFields (s.gateBand b) s Beside := by
  unfold State.gateBand
  extract_lets s1
  have h1 : SameFields s1 s Beside := (Beside.setF (by simp [F.BAND_SLOTMAP_GATED])).trans (SameFields.each (SameFields.refl _ _) fun _ _ =>
    (Beside.of_frame State.onCore_frame).trans (Beside.setF (by simp [F.CORE_IDENT_ROLE])))
  exact (Beside.of_frame State.onBand_frame).trans ((Beside.setFs (by simp [F.BAND_STRIPE_Y0, F.BAND_STRIPE_HEIGHT])).trans h1)

theorem State.ungateBand_beside {b : Nat} : SameFields (s.ungateBand b) s Beside :=
  (Beside.setF (by simp [F.BAND_SLOTMAP_GATED])).trans
    (SameFields.each (SameFields.refl _ _) fun _ _ => Beside.setF (by simp [F.CORE_IDENT_ROLE]))

theorem State.gateFor_beside {nb : Nat} : SameFields (s.gateFor nb) s Beside :=
  SameFields.foldl (SameFields.refl _ _) fun _ _ => SameFields.ite State.gateBand_beside State.ungateBand_beside

theorem State.loadSet_beside : SameFields s.loadSet s Beside := by
  unfold State.loadSet
  extract_lets k s1 m bad
  have h1 : SameFields s1 s Beside := Beside.setF beside
  exact (Beside.incF beside).trans (SameFields.each h1 fun _ _ =>
    SameFields.ite (Beside.of_frame State.loadMset_frame) (SameFields.refl _ _))

theorem State.loadCore_fields {p : Nat} : SameFields (s.loadCore p) s (Among [F.CORE_WFILE_ADAPT_BANK p]) := by
  unfold State.loadCore
  extract_lets m err s1 bank
  have h1 : SameFields s1 s (Among [F.CORE_WFILE_ADAPT_BANK p]) :=
    (SameFields.of_frame State.loadMset_frame).trans (SameFields.of_frame State.onCore_frame)
  exact (SameFields.of_frame State.onCore_frame).trans ((SameFields.setIn (by simp)).trans h1)

theorem State.loadCore_beside {p : Nat} : SameFields (s.loadCore p) s Beside := Beside.of_fields State.loadCore_fields (by
  simp [F.CORE_WFILE_ADAPT_BANK])

theorem State.comeBack_beside {nb : Nat} : SameFields (s.comeBack nb) s Beside := by
  unfold State.comeBack
  extract_lets i new h
  have hi : SameFields i s Beside := State.installSchedule_beside.trans (SameFields.of_regs rfl)
  have hh : SameFields h s Beside := SameFields.ite (State.drzHist_beside.trans hi) hi
  clear_value h
  exact SameFields.trans (SameFields.of_regs rfl) hh

theorem State.relink_fields {rate lpi : Nat} : SameFields (s.relink rate lpi) s
    (Among [F.TPL_LINK_STATE, F.TPL_LINK_RATE, F.TPL_LINK_LPI, F.TPL_ERR_LINK_DOWNS]) :=
  SameFields.trans (SameFields.setsIn (by simp)) (SameFields.ite (SameFields.incIn (by simp)) (SameFields.refl _ _))

theorem State.transitionDone_shows {st : Nat} : (s.transitionDone st).getF F.PWR_STATE_STATE = st % 4 ∧
    (s.transitionDone st).getF F.PWR_STATE_BUSY = 0 ∧
    (s.transitionDone st).getF F.PWR_STATE_TRANSITIONS = satAdd 16 (s.getF F.PWR_STATE_TRANSITIONS) 1 ∧
    (s.transitionDone st).pwr = { s.pwr with trans := .idle } ∧
    SameFields (s.transitionDone st) s (Among [F.PWR_STATE_STATE, F.PWR_STATE_BUSY, F.PWR_STATE_TRANSITIONS]) := by
  have h1 : (s.setFs [(F.PWR_STATE_STATE, st), (F.PWR_STATE_BUSY, 0)]).getF F.PWR_STATE_STATE = st % 4 :=
    State.getF_setFs_at (f := F.PWR_STATE_STATE) (i := 0) (v := st) rfl (by simp; decide)
  have h2 : (s.setFs [(F.PWR_STATE_STATE, st), (F.PWR_STATE_BUSY, 0)]).getF F.PWR_STATE_BUSY = 0 :=
    State.getF_setFs_at (f := F.PWR_STATE_BUSY) (i := 1) (v := 0) rfl (by simp)
  have h3 : SameFields (s.setFs [(F.PWR_STATE_STATE, st), (F.PWR_STATE_BUSY, 0)]) s
      (Among [F.PWR_STATE_STATE, F.PWR_STATE_BUSY, F.PWR_STATE_TRANSITIONS]) := SameFields.setsIn (by simp)
  have h4 : (s.setFs [(F.PWR_STATE_STATE, st), (F.PWR_STATE_BUSY, 0)]).getF F.PWR_STATE_TRANSITIONS = s.getF F.PWR_STATE_TRANSITIONS :=
    State.getF_setFs_ne _ _ _ (by simp; decide)
  unfold State.transitionDone
  generalize s.setFs [(F.PWR_STATE_STATE, st), (F.PWR_STATE_BUSY, 0)] = x at *
  have h5 : (x.incF F.PWR_STATE_TRANSITIONS 1).getF F.PWR_STATE_TRANSITIONS = satAdd 16 (s.getF F.PWR_STATE_TRANSITIONS) 1 :=
    (State.getF_incF_self _ _ _).trans (by rw [h4]; rfl)
  have h6 : SameFields (x.incF F.PWR_STATE_TRANSITIONS 1) s (Among [F.PWR_STATE_STATE, F.PWR_STATE_BUSY, F.PWR_STATE_TRANSITIONS]) :=
    SameFields.trans (SameFields.incIn (by simp)) h3
  have h7 : (x.incF F.PWR_STATE_TRANSITIONS 1).getF F.PWR_STATE_STATE = st % 4 := (State.getF_incF_ne _ _ (by decide)).trans h1
  have h8 : (x.incF F.PWR_STATE_TRANSITIONS 1).getF F.PWR_STATE_BUSY = 0 := (State.getF_incF_ne _ _ (by decide)).trans h2
  generalize x.incF F.PWR_STATE_TRANSITIONS 1 = y at *
  exact ⟨h7, h8, h5, rfl, h6⟩

end

end Sys2Proof.Machine

/-! SUPPORT. Power-state transitions and supply dips (R511, R512, R515, R516); O52. -/
namespace Sys2Proof.Machine
set_option Elab.async false

/-! ### Folds that reach every element -/

/-- What a fold establishes at one of its elements, and keeps at all. -/
theorem foldl_reaches {α : Type} (R P : State → Prop) {g : State → α → State} {a : α} {l : List α} (ha : a ∈ l) {x : State} (hx : R x)
    (hkeep : ∀ y b, R y → R (g y b)) (hest : ∀ y, R y → P (g y a)) (hstay : ∀ y b, R y → P y → P (g y b)) : P (l.foldl g x) := by
  have hafter (l : List α) : ∀ y, R y → P y → P (l.foldl g y) := by
    induction l with
    | nil => exact fun _ _ hp => hp
    | cons b l ih => exact fun y hr hp => ih _ (hkeep y b hr) (hstay y b hr hp)
  induction l generalizing x with
  | nil => cases ha
  | cons b l ih =>
    rcases List.mem_cons.1 ha with rfl | hmem
    · exact hafter l _ (hkeep x a hx) (hest x hx)
    · exact ih hmem (hkeep x b hx)

theorem each_reaches (R P : State → Prop) {g : State → Nat → State} {k n : Nat} (hk : k < n) {x : State} (hx : R x)
    (hkeep : ∀ y b, R y → R (g y b)) (hest : ∀ y, R y → P (g y k)) (hstay : ∀ y b, R y → P y → P (g y b)) : P (x.each n g) :=
  foldl_reaches R P (List.mem_range.2 hk) hx hkeep hest hstay

section
variable {s t : State}

/-! ### Bands that power up (R511) -/

/-- A core's memories hold zeros. -/
def MemZero (p : Nat) (s : State) : Prop := (s.core p).spad = [] ∧ (s.core p).bad = []

theorem MemZero.of_frame {p : Nat} {ps : List Part} (h : SameBut t s ps) (hz : MemZero p s) (hp : .cores ∉ ps := by decide) : MemZero p t := by
  unfold MemZero State.core at *
  rwa [h.keeps .cores hp]

/-- The end of a step leaves the cores alone. -/
theorem MemZero.ended {p : Nat} {q : List Instr} {w : Nat × Nat} (h : MemZero p s) : MemZero p { s with pending := q, stat := w } := h

theorem MemZero.onCore {p q : Nat} {g : CoreSt → CoreSt} (hz : MemZero p s)
    (h : ∀ c, (g c).spad = c.spad ∧ (g c).bad = c.bad := by intro _; exact ⟨rfl, rfl⟩) : MemZero p (s.onCore q g) := by
  unfold MemZero at *
  by_cases hq : p = q
  · subst hq
    rw [State.core_onCore_self, (h _).1, (h _).2]
    exact hz
  · rwa [State.core_onCore_ne _ _ hq]

theorem MemZero.offCore {p q : Nat} (hz : p = q ∨ MemZero p s) : MemZero p (s.onCore q offCore) := by
  unfold MemZero at *
  by_cases hq : p = q
  · subst hq
    rw [State.core_onCore_self]
    exact ⟨rfl, rfl⟩
  · rw [State.core_onCore_ne _ _ hq]
    exact hz.resolve_left hq

/-- Loading a core empties its memories, and no other core's. -/
theorem MemZero.loadCore {p q : Nat} (hz : p = q ∨ MemZero p s) : MemZero p (s.loadCore q) := by
  unfold State.loadCore State.loadMset
  extract_lets m err s1 bank
  have h1 : MemZero p s1 := (MemZero.offCore hz).onCore
  clear_value s1
  exact (h1.of_frame State.setF_frame).onCore

/-- The retired spare of a band stays as it was (R526) while cores are loaded. -/
def RetiredKept (b v : Nat) (s : State) : Prop := s.getF (F.BAND_SLOTMAP_IDLE_RETIRED b) = v

theorem RetiredKept.loadCore {b v q : Nat} (hb : b < 8) (h : RetiredKept b v s) : RetiredKept b v (s.loadCore q) :=
  (State.loadCore_fields _ (by simp [Among, Fld.key, F.BAND_SLOTMAP_IDLE_RETIRED, F.CORE_WFILE_ADAPT_BANK]; omega)).trans h

theorem RetiredKept.of_frame {b v : Nat} {ps : List Part} (h : SameBut t s ps) (hk : RetiredKept b v s) (hp : .regs ∉ ps := by decide) :
    RetiredKept b v t := (SameFields.of_frame (ok := fun _ => False) h hp _ id).trans hk

/-- The power-up of a band's cores; its retired spare stays dark. -/
def State.bandUp (s : State) (b : Nat) : State :=
  (s.onBand b offBand).each 9 fun s k =>
    if k = s.getF (F.BAND_SLOTMAP_IDLE_SLOT b) ∧ s.getF (F.BAND_SLOTMAP_IDLE_RETIRED b) = 1 then s else s.loadCore (9 * b + k)

theorem State.bandUp_frame {b : Nat} : SameBut (s.bandUp b) s [.regs, .cores, .bands] :=
  SameBut.each (State.onBand_frame.mono (by decide)) fun y k => by
    split
    · exact SameBut.refl _ _
    · exact State.loadCore_frame.mono (by decide)

theorem RetiredKept.bandUp {b v c : Nat} (hb : b < 8) (h : RetiredKept b v s) : RetiredKept b v (s.bandUp c) :=
  each_inv (RetiredKept b v) (h.of_frame State.onBand_frame) 9 fun y k hy => by
    split
    · exact hy
    · exact hy.loadCore hb

theorem MemZero.bandUp {p c : Nat} (hz : MemZero p s) : MemZero p (s.bandUp c) :=
  each_inv (MemZero p) (hz.of_frame State.onBand_frame) 9 fun y k hy => by
    split
    · exact hy
    · exact MemZero.loadCore (Or.inr hy)

theorem MemZero.bandUp_own {p v : Nat} (hp : p < 72) (h : RetiredKept (bandOf p) v s) (hv : v ≠ 1) : MemZero p (s.bandUp (bandOf p)) := by
  have hb : bandOf p < 8 := by unfold bandOf; omega
  have hslot : 9 * bandOf p + slotOf p = p := by unfold bandOf slotOf; omega
  refine each_reaches (RetiredKept (bandOf p) v) (MemZero p) (k := slotOf p) (by unfold slotOf; omega) (h.of_frame State.onBand_frame) ?_ ?_ ?_
  · intro y k hy
    split
    · exact hy
    · exact hy.loadCore hb
  · intro y hy
    rw [RetiredKept] at hy
    rw [if_neg (by rw [hy]; exact fun hc => hv hc.2), hslot]
    exact MemZero.loadCore (Or.inl rfl)
  · intro y k _ hz
    split
    · exact hz
    · exact MemZero.loadCore (Or.inr hz)

theorem State.bandsUp_eq {t0 : Nat} (h : s.pwr.trans = .powerUp t0) : s.bandsUp =
    (([4, 5, 6, 7].foldl State.bandUp (s.waitUntil (t0 + msCycles 8))).onPwr fun w => { w with trans := .toGale }).modeCheck := by
  unfold State.bandsUp
  rw [h]
  rfl

/-- Bands 4 to 7 have zeros in their cores' memories. -/
theorem State.bandsUp_zero {p : Nat} (x : State) (hlo : 36 ≤ p) (hp : p < 72) (h : x.getF (F.BAND_SLOTMAP_IDLE_RETIRED (bandOf p)) ≠ 1) :
    MemZero p ([4, 5, 6, 7].foldl State.bandUp x) := by
  have hb : bandOf p < 8 := by unfold bandOf; omega
  have hmem : bandOf p ∈ [4, 5, 6, 7] := by
    simp only [bandOf, List.mem_cons, List.not_mem_nil, or_false]
    omega
  exact foldl_reaches (RetiredKept (bandOf p) _) (MemZero p) hmem (x := x) rfl (fun _ _ hy => hy.bandUp hb)
    (fun _ hy => MemZero.bandUp_own hp hy h) (fun _ _ _ hz => hz.bandUp)

theorem State.bandsUp_frame' {x : State} : SameBut ([4, 5, 6, 7].foldl State.bandUp x) x [.regs, .cores, .bands] :=
  SameBut.foldl (SameBut.refl _ _) fun _ _ => State.bandUp_frame

/-- What the power-up leaves: its time, the transition's next state and the zeroed memories (R202, R511). -/
theorem State.bandsUp_shows {t0 : Nat} (h : s.pwr.trans = .powerUp t0) : s.bandsUp.now = max s.now (t0 + msCycles 8) ∧
    s.bandsUp.pwr = { s.pwr with trans := .toGale } ∧ ∀ p, 36 ≤ p → p < 72 → s.getF (F.BAND_SLOTMAP_IDLE_RETIRED (bandOf p)) ≠ 1 →
      MemZero p s.bandsUp := by
  rw [State.bandsUp_eq h]
  have hw : SameFields (s.waitUntil (t0 + msCycles 8)) s WithTime := s.waitUntil_fields _
  have hnow : (s.waitUntil (t0 + msCycles 8)).now = max s.now (t0 + msCycles 8) := s.waitUntil_now _
  have hpwr : (s.waitUntil (t0 + msCycles 8)).pwr = s.pwr := State.waitUntil_frame.keeps .pwr (by decide)
  generalize s.waitUntil (t0 + msCycles 8) = x at *
  have hzero (p : Nat) (hlo : 36 ≤ p) (hp : p < 72) (hr : s.getF (F.BAND_SLOTMAP_IDLE_RETIRED (bandOf p)) ≠ 1) :
      MemZero p ([4, 5, 6, 7].foldl State.bandUp x) :=
    State.bandsUp_zero x hlo hp (by rwa [hw _ (not_withTime (by simp [F.BAND_SLOTMAP_IDLE_RETIRED]) (by
      simp only [F.BAND_SLOTMAP_IDLE_RETIRED, timeOffsets, List.mem_cons, List.not_mem_nil, or_false]; omega))])
  have hf : SameBut ([4, 5, 6, 7].foldl State.bandUp x) x [.regs, .cores, .bands] := State.bandsUp_frame'
  generalize [4, 5, 6, 7].foldl State.bandUp x = y at *
  have hm : SameBut (y.onPwr fun w => { w with trans := .toGale }).modeCheck (y.onPwr fun w => { w with trans := .toGale }) [.regs, .change] :=
    State.modeCheck_frame
  refine ⟨?_, ?_, fun p hlo hp hr => ?_⟩
  · exact (hm.keeps .now (by decide)).trans ((State.onPwr_frame.keeps .now (by decide)).trans ((hf.keeps .now (by decide)).trans hnow))
  · refine (hm.keeps .pwr (by decide)).trans ?_
    rw [State.onPwr, (hf.keeps .pwr (by decide) : y.pwr = x.pwr), hpwr]
  · exact ((hzero p hlo hp hr).of_frame State.onPwr_frame).of_frame hm

/-! ### Entry into Doldrums (R512) -/

theorem State.finishOne_later {g : EngId} {t : Xfer} : s.now ≤ (s.finishOne g t).now := by
  unfold State.finishOne
  split
  · exact le_refl _
  next r dr _ =>
    extract_lets d s1 targets s2
    have h1 : s.now ≤ s1.now := by rw [State.waitUntil_now]; exact le_max_left _ _
    have h2 : s2.now = s1.now := (SameBut.foldl (SameBut.refl _ _) fun _ _ => State.arriveAt_frame : SameBut s2 s1 _).keeps .now (by decide)
    clear_value s1 s2
    split
    · exact h1
    · split
      · rw [(State.xferLand_frame.keeps .now (by decide) : (s2.xferLand g _ t r d {}).now = s2.now), h2]
        exact h1
      · rw [h2]
        exact h1

theorem foldl_later {α : Type} {g : State → α → State} {l : List α} {x : State} (h : ∀ y a, y.now ≤ (g y a).now) :
    x.now ≤ (l.foldl g x).now := by
  induction l generalizing x with
  | nil => exact le_refl _
  | cons a l ih => exact (h x a).trans ih

theorem State.quietEngine_later {g : EngId} : s.now ≤ (s.quietEngine g).now := by
  unfold State.quietEngine
  extract_lets s1 fab s2
  have h1 : s.now ≤ s1.now := foldl_later fun _ _ => State.finishOne_later
  have h2 : s2.now = s1.now := rfl
  clear_value s1 s2
  rw [State.setF_frame.keeps .now (by decide), State.setFs_frame.keeps .now (by decide), State.onEng_frame.keeps .now (by decide), h2]
  exact h1

/-- Every engine finishes its transfers and stops. -/
def State.quietAll (s : State) : State :=
  (s.each 72 fun s p => (coreEngines p).foldl (fun s g => s.quietEngine g) s).each 8 fun s b =>
    (bandEngines b).foldl (fun s g => s.quietEngine g) s

theorem State.quietAll_spec : s.now ≤ s.quietAll.now ∧ Outside s.quietAll s ∧ s.quietAll.pwr = s.pwr := by
  refine ⟨?_, ?_, ?_⟩
  · exact (foldl_later fun _ _ => foldl_later fun _ _ => State.quietEngine_later).trans
      (foldl_later fun _ _ => foldl_later fun _ _ => State.quietEngine_later)
  · exact (Outside.each fun _ _ => .foldl fun _ _ => State.quietEngine_outside).trans
      (.each fun _ _ => .foldl fun _ _ => State.quietEngine_outside)
  · have h : SameBut s.quietAll s [.now, .cal, .regs, .dram, .dramBad, .cores, .bands, .fab, .remotes, .signals] :=
      SameBut.each (SameBut.each (SameBut.refl _ _) fun _ _ => SameBut.foldl (SameBut.refl _ _) fun _ _ => State.quietEngine_frame)
        fun _ _ => SameBut.foldl (SameBut.refl _ _) fun _ _ => State.quietEngine_frame
    exact h.keeps .pwr (by decide)

/-- Cores and bands without power. -/
def State.allOff (s : State) : State := (s.each 72 fun s p => s.onCore p offCore).each 8 fun s b => s.onBand b offBand

theorem State.allOff_core {p : Nat} (hp : p < 72) : s.allOff.core p = offCore (s.core p) := by
  have hcores : SameBut s.allOff (s.each 72 fun s p => s.onCore p offCore) [.bands] :=
    SameBut.each (SameBut.refl _ _) fun _ _ => State.onBand_frame
  refine Eq.trans (CoresShow.of_frame (v := fun c => c) hcores (by decide) p) ?_
  refine each_reaches (fun x => (x.core p).mapped = (s.core p).mapped) (fun x => x.core p = offCore (s.core p)) hp rfl ?_ ?_ ?_
  · intro y q hy
    exact ((CoresShow.onCore (v := CoreSt.mapped) (g := offCore) fun _ => rfl) p).trans hy
  · intro y hy
    rw [State.core_onCore_self, offCore, hy]
    rfl
  · intro y q _ hy
    by_cases h : p = q
    · subst h
      rw [State.core_onCore_self, hy]
      rfl
    · rwa [State.core_onCore_ne _ _ h]

theorem State.allOff_frame : SameBut s.allOff s [.cores, .bands] :=
  SameBut.each (SameBut.each (SameBut.refl _ _) fun _ _ => State.onCore_frame.mono (by decide)) fun _ _ => State.onBand_frame.mono (by decide)

/-- The fabric's work is dropped. -/
def State.fabricOff (s : State) : State :=
  { s with signals := [], remotes := [], warp := List.replicate 8 {}, box := none
           fab := { s.fab with barriers := [], mcasts := [], handovers := List.replicate 8 none } }

theorem State.doldrumsEntered_eq {t0 : Nat} (h : s.pwr.trans = .enter t0) : s.doldrumsEntered =
    (((s.waitUntil (t0 + usCycles 500)).quietAll.allOff.fabricOff.setF F.DRM_STATUS_SELF_REFRESH 1).relink 1 1).transitionDone 2 := by
  unfold State.doldrumsEntered
  rw [h]
  rfl

theorem State.entered_shows (x : State) : ((x.fabricOff.setF F.DRM_STATUS_SELF_REFRESH 1).relink 1 1).getF F.DRM_STATUS_SELF_REFRESH = 1 ∧
    ((x.fabricOff.setF F.DRM_STATUS_SELF_REFRESH 1).relink 1 1).getF F.PWR_STATE_TRANSITIONS = x.getF F.PWR_STATE_TRANSITIONS ∧
    ((x.fabricOff.setF F.DRM_STATUS_SELF_REFRESH 1).relink 1 1).signals = [] ∧
    ((x.fabricOff.setF F.DRM_STATUS_SELF_REFRESH 1).relink 1 1).remotes = [] ∧
    ((x.fabricOff.setF F.DRM_STATUS_SELF_REFRESH 1).relink 1 1).box = none ∧
    SameBut ((x.fabricOff.setF F.DRM_STATUS_SELF_REFRESH 1).relink 1 1) x [.regs, .fab, .remotes, .signals, .warp, .box] := by
  have hoff : SameBut x.fabricOff x [.fab, .remotes, .signals, .warp, .box] := State.stopFabric_frame
  have hs : x.fabricOff.signals = [] := rfl
  have hr : x.fabricOff.remotes = [] := rfl
  have hb : x.fabricOff.box = none := rfl
  have hf : x.fabricOff.getF F.PWR_STATE_TRANSITIONS = x.getF F.PWR_STATE_TRANSITIONS := rfl
  generalize x.fabricOff = y at *
  have hy : SameBut ((y.setF F.DRM_STATUS_SELF_REFRESH 1).relink 1 1) y [.regs] := State.relink_frame.trans State.setF_frame
  refine ⟨?_, ?_, (hy.keeps .signals (by decide)).trans hs, (hy.keeps .remotes (by decide)).trans hr, (hy.keeps .box (by decide)).trans hb,
    (hy.mono (by decide)).trans (hoff.mono (by decide))⟩
  · exact (State.relink_fields _ (not_among (by decide))).trans (State.getF_setF_self _ _ _)
  · exact (State.relink_fields _ (not_among (by decide))).trans ((State.getF_setF_ne _ _ (by decide)).trans hf)

/-- The entry into Doldrums: its state, and what is off (R512). -/
theorem State.doldrumsEntered_shows {t0 : Nat} (h : s.pwr.trans = .enter t0) : max s.now (t0 + usCycles 500) ≤ s.doldrumsEntered.now ∧
    s.doldrumsEntered.getF F.PWR_STATE_STATE = 2 ∧ s.doldrumsEntered.getF F.PWR_STATE_BUSY = 0 ∧
    s.doldrumsEntered.getF F.DRM_STATUS_SELF_REFRESH = 1 ∧ s.doldrumsEntered.pwr = { s.pwr with trans := .idle } ∧
    s.doldrumsEntered.signals = [] ∧ s.doldrumsEntered.remotes = [] ∧ s.doldrumsEntered.box = none ∧
    s.doldrumsEntered.getF F.PWR_STATE_TRANSITIONS = satAdd 16 (s.getF F.PWR_STATE_TRANSITIONS) 1 ∧
    ∀ p < 72, s.doldrumsEntered.core p = offCore (s.core p) := by
  rw [State.doldrumsEntered_eq h]
  have hnow : (s.waitUntil (t0 + usCycles 500)).now = max s.now (t0 + usCycles 500) := s.waitUntil_now _
  have hwait : Outside (s.waitUntil (t0 + usCycles 500)) s := State.waitUntil_outside
  have hpwr : (s.waitUntil (t0 + usCycles 500)).pwr = s.pwr := State.waitUntil_frame.keeps .pwr (by decide)
  generalize s.waitUntil (t0 + usCycles 500) = x at *
  obtain ⟨hlater, hout, hqpwr⟩ := State.quietAll_spec (s := x)
  generalize x.quietAll = y at *
  have hoff : SameBut y.allOff y [.cores, .bands] := State.allOff_frame
  have hcore (p : Nat) (hp : p < 72) : y.allOff.core p = offCore (y.core p) := State.allOff_core hp
  have htrans : y.allOff.getF F.PWR_STATE_TRANSITIONS = s.getF F.PWR_STATE_TRANSITIONS :=
    (SameFields.of_frame (ok := fun _ => False) hoff (by decide) _ id).trans ((hout.trans hwait).1 _ (by unfold InUnits; decide))
  generalize y.allOff = z at *
  obtain ⟨h1, h2, h3, h4, h5, h6⟩ := State.entered_shows z
  generalize (z.fabricOff.setF F.DRM_STATUS_SELF_REFRESH 1).relink 1 1 = v at *
  obtain ⟨k1, k2, k3, k4, k5⟩ := State.transitionDone_shows (s := v) (st := 2)
  have hd : SameBut (v.transitionDone 2) v [.regs, .pwr] := State.transitionDone_frame
  generalize v.transitionDone 2 = w at *
  refine ⟨?_, k1, k2, (k5 _ (not_among (by decide))).trans h1, ?_, (hd.keeps .signals (by decide)).trans h3,
    (hd.keeps .remotes (by decide)).trans h4, (hd.keeps .box (by decide)).trans h5, ?_, fun p hp => ?_⟩
  · rw [(hd.keeps .now (by decide) : w.now = v.now), (h6.keeps .now (by decide) : v.now = z.now), (hoff.keeps .now (by decide) : z.now = y.now), ← hnow]
    exact hlater
  · rw [k4, (h6.keeps .pwr (by decide) : v.pwr = z.pwr), (hoff.keeps .pwr (by decide) : z.pwr = y.pwr), hqpwr, hpwr]
  · rw [k3, h2, htrans]
  · have hc : w.core p = z.core p := (CoresShow.of_frame (v := fun c => c) hd (by decide) p).trans
      (CoresShow.of_frame (v := fun c => c) h6 (by decide) p)
    rw [hc, hcore p hp, offCore, (hout.trans hwait).2 p]
    rfl

/-! ### The exit from Doldrums (R512) -/

/-- Bands and cores are powered, with the schedule and the model set, and HPD rises. -/
def State.exitPowered (s : State) (nb : Nat) : State :=
  let bands := if nb = 0 then 8 else 4
  let s1 := ((s.gateFor nb).each bands fun s b => s.onBand b offBand).each (9 * bands) fun s p => s.onCore p offCore
  let s2 := (s1.comeBack nb).loadSet
  let s3 := s2.each (9 * bands) fun s p => if s.listens p then s.loadCore p else s
  (s3.hpdPulse 0).hpdPulse 1

/-- The lanes and the link come back, and a change of mode is looked for. -/
def State.exitEnds (s : State) : State :=
  let s1 := if s.getF F.PNL_STATUS_SAFE_CAUSE = 1 ∨ s.pnlState ≠ 3 then s
    else if s.getF F.PNL_CTRL_EN = 1 then s.safeLeave else s.setF F.PNL_STATUS_SAFE_CAUSE 2
  (s1.relink 0 0).modeCheck

theorem State.exitPowered_spec {nb : Nat} : SameFields (s.exitPowered nb) s Beside ∧ Keeps [.now, .cal, .aud] (s.exitPowered nb) s := by
  unfold State.exitPowered
  extract_lets bands s1 s2 s3
  have h1 : SameFields s1 s Beside := SameFields.each (SameFields.each State.gateFor_beside fun _ _ => Beside.of_frame State.onBand_frame)
    fun _ _ => Beside.of_frame State.onCore_frame
  have k1 : SameBut s1 s [.regs, .cores, .bands] := SameBut.each (SameBut.each State.gateFor_frame fun _ _ => State.onBand_frame.mono (by decide))
    fun _ _ => State.onCore_frame.mono (by decide)
  clear_value s1
  have h2 : SameFields s2 s Beside := State.loadSet_beside.trans (State.comeBack_beside.trans h1)
  have k2 : Keeps [.now, .cal, .aud] s2 s := Keeps.step (Keeps.step (Keeps.step (Keeps.refl _ _) k1) State.comeBack_frame) State.loadSet_frame
  clear_value s2
  have h3 : SameFields s3 s Beside := SameFields.each h2 fun _ _ => SameFields.ite State.loadCore_beside (SameFields.refl _ _)
  have k3 : Keeps [.now, .cal, .aud] s3 s := by
    have hl : SameBut s3 s2 [.regs, .cores] := SameBut.each (SameBut.refl _ _) fun _ _ => SameBut.ite State.loadCore_frame (SameBut.refl _ _)
    exact Keeps.step k2 hl
  clear_value s3
  exact ⟨State.hpdPulse_beside.trans (State.hpdPulse_beside.trans h3), Keeps.step (Keeps.step k3 State.hpdPulse_frame) State.hpdPulse_frame⟩

theorem State.exitEnds_spec {f : Fld} (hf : f ∈ [F.PWR_STATE_STATE, F.PWR_STATE_BUSY, F.DRM_STATUS_SELF_REFRESH]) :
    s.exitEnds.getF f = s.getF f := by
  unfold State.exitEnds
  extract_lets s1
  have h1 : SameFields s1 s Beside := SameFields.ite (SameFields.refl _ _) (SameFields.ite State.safeLeave_beside (Beside.setF beside))
  have hb : ¬ Beside f := by
    simp only [List.mem_cons, List.not_mem_nil, or_false] at hf
    obtain rfl | rfl | rfl := hf <;> exact fun h => h (by decide)
  have hl : (s1.relink 0 0).getF f = s1.getF f := by
    simp only [List.mem_cons, List.not_mem_nil, or_false] at hf
    obtain rfl | rfl | rfl := hf <;> exact State.relink_fields _ (not_among (by decide))
  exact (State.modeCheck_beside f hb).trans (hl.trans (h1 f hb))

theorem State.exitEnds_keeps : Keeps [.now, .cal] s.exitEnds s := by
  unfold State.exitEnds
  extract_lets s1
  have h1 : SameBut s1 s [.regs, .pnl] := SameBut.ite (SameBut.refl _ _) (SameBut.ite State.safeLeave_frame (State.setF_frame.mono (by decide)))
  exact Keeps.step (Keeps.step (Keeps.step (Keeps.refl _ _) h1) State.relink_frame) State.modeCheck_frame

/-- The power state's transition ends, and the next frame starts unless an armed replay holds it. -/
theorem State.doldrumsExited_eq {t0 : Nat} {x y : State} (h : s.pwr.trans = .exit t0)
    (hx : x = (s.waitUntil (t0 + msCycles 12)).setF F.DRM_STATUS_SELF_REFRESH 0)
    (hy : y = (x.exitPowered (x.getF F.PWR_STATE_TARGET)).transitionDone (x.getF F.PWR_STATE_TARGET)) (hhold : y.aud.replayHold = false) :
    s.doldrumsExited = (y.rasterStart ((y.cal.frame + 1) % 2 ^ 32) false).exitEnds := by
  have hdef : s.doldrumsExited = (if y.aud.replayHold then y else y.rasterStart ((y.cal.frame + 1) % 2 ^ 32) false).exitEnds := by
    rw [hy, hx]
    unfold State.doldrumsExited
    rw [h]
    rfl
  rw [hdef, if_neg (by rw [hhold]; decide)]

theorem State.doldrumsExited_shows {t0 : Nat} (h : s.pwr.trans = .exit t0) (hhold : s.aud.replayHold = false) :
    s.doldrumsExited.now = max s.now (t0 + msCycles 12) ∧ s.doldrumsExited.getF F.PWR_STATE_STATE = s.getF F.PWR_STATE_TARGET % 4 ∧
    s.doldrumsExited.getF F.PWR_STATE_BUSY = 0 ∧ s.doldrumsExited.getF F.DRM_STATUS_SELF_REFRESH = 0 ∧
    s.doldrumsExited.cal.running = true ∧ s.doldrumsExited.cal.frame = (s.cal.frame + 1) % 2 ^ 32 ∧ s.doldrumsExited.cal.line = 0 := by
  obtain ⟨x, hx⟩ : ∃ x, x = (s.waitUntil (t0 + msCycles 12)).setF F.DRM_STATUS_SELF_REFRESH 0 := ⟨_, rfl⟩
  have htarget : x.getF F.PWR_STATE_TARGET = s.getF F.PWR_STATE_TARGET := by
    rw [hx]
    exact (State.getF_setF_ne _ _ (by decide)).trans (s.waitUntil_fields _ _ not_withTime_low)
  have hself : x.getF F.DRM_STATUS_SELF_REFRESH = 0 := by rw [hx]; exact State.getF_setF_self _ _ _
  have hxnow : x.now = max s.now (t0 + msCycles 12) := by
    rw [hx]
    exact (State.setF_frame.keeps .now (by decide)).trans (s.waitUntil_now _)
  have hxframe : x.cal.frame = s.cal.frame := by
    rw [hx, (State.setF_frame.keeps .cal (by decide) : (State.setF _ F.DRM_STATUS_SELF_REFRESH 0).cal = _), State.waitUntil_cal]
    split <;> rfl
  have hxaud : x.aud = s.aud := by
    rw [hx]
    exact (State.setF_frame.keeps .aud (by decide)).trans (State.waitUntil_frame.keeps .aud (by decide))
  obtain ⟨hp, hk⟩ := State.exitPowered_spec (s := x) (nb := x.getF F.PWR_STATE_TARGET)
  obtain ⟨k1, k2, -, -, k5⟩ := State.transitionDone_shows (s := x.exitPowered (x.getF F.PWR_STATE_TARGET)) (st := x.getF F.PWR_STATE_TARGET)
  have hd : SameBut ((x.exitPowered (x.getF F.PWR_STATE_TARGET)).transitionDone (x.getF F.PWR_STATE_TARGET))
    (x.exitPowered (x.getF F.PWR_STATE_TARGET)) [.regs, .pwr] := State.transitionDone_frame
  obtain ⟨y, hy⟩ : ∃ y, y = (x.exitPowered (x.getF F.PWR_STATE_TARGET)).transitionDone (x.getF F.PWR_STATE_TARGET) := ⟨_, rfl⟩
  rw [← hy] at k1 k2 k5 hd
  have hyaud : y.aud.replayHold = false := by rw [(hd.keeps .aud (by decide) : y.aud = _), hk.at .aud, hxaud]; exact hhold
  rw [State.doldrumsExited_eq h hx hy hyaud]
  clear hx hy
  generalize x.exitPowered (x.getF F.PWR_STATE_TARGET) = v at *
  obtain ⟨r1, r2, r3⟩ := State.rasterStart_cal (s := y) (n := (y.cal.frame + 1) % 2 ^ 32) (boot := false)
  have hr (f : Fld) (hf : f ∈ [F.PWR_STATE_STATE, F.PWR_STATE_BUSY, F.DRM_STATUS_SELF_REFRESH]) :
      (y.rasterStart ((y.cal.frame + 1) % 2 ^ 32) false).getF f = y.getF f :=
    State.rasterStart_held (List.mem_append_right [F.DEV_BOOT_STAGE, F.DEV_BOOT_COMPLETE, F.DEV_BOOT_HOLDING] hf)
  have hrnow : (y.rasterStart ((y.cal.frame + 1) % 2 ^ 32) false).now = y.now := State.rasterStart_frame.keeps .now (by decide)
  have hycal : y.cal = v.cal := hd.keeps .cal (by decide)
  have hynow : y.now = v.now := hd.keeps .now (by decide)
  generalize y.rasterStart ((y.cal.frame + 1) % 2 ^ 32) false = z at *
  have he : Keeps [.now, .cal] z.exitEnds z := State.exitEnds_keeps
  refine ⟨?_, ?_, ?_, ?_, ?_, ?_, ?_⟩
  · rw [he.at .now, hrnow, hynow, hk.at .now, hxnow]
  · rw [State.exitEnds_spec (by simp), hr _ (by simp), k1, htarget]
  · rw [State.exitEnds_spec (by simp), hr _ (by simp), k2]
  · rw [State.exitEnds_spec (by simp), hr _ (by simp), k5 _ (not_among (by decide)), hp _ fun hb => hb (by decide), hself]
  · rw [he.at .cal, r1]
  · rw [he.at .cal, r2, hycal, hk.at .cal, hxframe]
  · rw [he.at .cal, r3]

/-! ### BIN_DIP of the powered cores (R515) -/

/-- A core's BIN_DIP, its band's power and the power state. -/
def DipState (p : Nat) (x s : State) : Prop := x.pstate = s.pstate ∧ x.getF (F.BAND_SLOTMAP_GATED (bandOf p)) = s.getF (F.BAND_SLOTMAP_GATED (bandOf p))

theorem dip_key_ne {p q : Nat} (h : p ≠ q) : (F.CORE_CLK_BIN_DIP p).key ≠ (F.CORE_CLK_BIN_DIP q).key := by
  simp only [Fld.key, F.CORE_CLK_BIN_DIP]
  omega

/-- A powered core takes the dip's value. -/
theorem State.setDip_shows {p v : Nat} (hp : p < 72) (hv : v < 2)
    (h : v = 1 → s.pstate ≠ 2 ∧ s.getF (F.BAND_SLOTMAP_GATED (bandOf p)) ≠ 1) : (s.setDip v).getF (F.CORE_CLK_BIN_DIP p) = v := by
  have hset (y : State) (q : Nat) : ((y.setF (F.CORE_CLK_BIN_DIP q) v).onCore q fun c => { c with binFrom := y.now }).getF
      (F.CORE_CLK_BIN_DIP p) = if p = q then v else y.getF (F.CORE_CLK_BIN_DIP p) := by
    refine Eq.trans (SameFields.of_frame (ok := fun _ => False) State.onCore_frame (by decide) _ id) ?_
    split
    next e => rw [← e, State.getF_setF_self]; exact Nat.mod_eq_of_lt hv
    next e => exact State.getF_setF_ne _ _ (dip_key_ne e)
  refine each_reaches (fun x => DipState p x s) (fun x => x.getF (F.CORE_CLK_BIN_DIP p) = v) hp ⟨rfl, rfl⟩ ?_ ?_ ?_
  · intro y q hy
    split
    · exact hy
    · refine ⟨Eq.trans ?_ hy.1, Eq.trans ?_ hy.2⟩
      · exact (State.onCore_frame.keeps .pstate (by decide)).trans (State.setF_frame.keeps .pstate (by decide))
      · refine Eq.trans (SameFields.of_frame (ok := fun _ => False) State.onCore_frame (by decide) _ id) (State.getF_setF_ne _ _ ?_)
        simp only [Fld.key, F.CORE_CLK_BIN_DIP, F.BAND_SLOTMAP_GATED]
        omega
  · intro y hy
    split
    next hc =>
      rcases hc with ⟨hv1, hoff⟩ | hsame
      · obtain ⟨h1, h2⟩ := h hv1
        rw [hy.1, hy.2] at hoff
        exact absurd hoff (not_or.2 ⟨h1, h2⟩)
      · exact hsame
    next => rw [hset, if_pos rfl]
  · intro y q _ hpq
    split
    · exact hpq
    · rw [hset]
      split
      · rfl
      · exact hpq

/-- A field other than a core's BIN_DIP. -/
theorem State.setDip_fields {v : Nat} : SameFields (s.setDip v) s fun f => ∃ p, f.key = (F.CORE_CLK_BIN_DIP p).key :=
  SameFields.each (SameFields.refl _ _) fun y p => SameFields.ite (SameFields.refl _ _)
    ((SameFields.of_frame State.onCore_frame).trans (SameFields.setF fun _ e => ⟨p, e⟩))

theorem State.getF_setDip_low {v : Nat} {f : Fld} (h : f.key < 0x2000000) : (s.setDip v).getF f = s.getF f :=
  State.setDip_fields f fun ⟨p, e⟩ => by
    simp only [Fld.key, F.CORE_CLK_BIN_DIP] at *
    omega

/-! ### Episodes (R515, R516) -/

/-- The supply whose warning level was crossed. -/
def warnField (u : Nat) : Fld := if u = 0 then F.PWR_SUPPLY_V12_WARN else F.PWR_SUPPLY_VCORE_WARN

/-- The warning's registers, in an episode that begins: before the dip of the clocks. -/
def State.warned (s : State) (u : Nat) : State :=
  ((s.setF (warnField u) 1).setFs [(F.PWR_SUPPLY_DIP, 1), (F.PWR_SUPPLY_HOLDOFF, 0)]).incF F.PWR_SUPPLY_DIPS 1

/-- The monitors when an episode begins. -/
def dipBegun (u v12 vcore now : Nat) (w : PwrSt) : PwrSt :=
  { w with episode := true, dipSupply := u, dipFrom := some now, dipLen := 0, dipMin := (v12, vcore), holdEnd := none }

theorem State.supplyWarning_begins {u v12 vcore : Nat} (hdark : s.pstate ≠ 2) (hep : s.pwr.episode = false) :
    s.supplyWarning u v12 vcore = ((((s.warned u).setDip 1).onPwr (dipBegun u v12 vcore s.now)).setFs
      [(F.PWR_DIP_MIN_V12_MIN, v12), (F.PWR_DIP_MIN_VCORE_MIN, vcore)]) := by
  unfold State.supplyWarning
  dsimp only
  rw [if_neg hdark, if_neg (by rw [hep]; decide)]
  rfl

theorem State.warned_shows {u : Nat} : (s.warned u).getF (warnField u) = 1 ∧ (s.warned u).getF F.PWR_SUPPLY_DIP = 1 ∧
    (s.warned u).getF F.PWR_SUPPLY_DIPS = satAdd 16 (s.getF F.PWR_SUPPLY_DIPS) 1 ∧ SameBut (s.warned u) s [.regs] ∧
    ∀ p, (s.warned u).getF (F.BAND_SLOTMAP_GATED p) = s.getF (F.BAND_SLOTMAP_GATED p) := by
  have hwarn : (warnField u).key ∈ [F.PWR_SUPPLY_V12_WARN.key, F.PWR_SUPPLY_VCORE_WARN.key] := by
    unfold warnField
    split <;> decide
  have hne {f : Fld} (h : f.key ∉ [F.PWR_SUPPLY_V12_WARN.key, F.PWR_SUPPLY_VCORE_WARN.key]) : f.key ≠ (warnField u).key :=
    fun e => h (e ▸ hwarn)
  have hw : (s.setF (warnField u) 1).getF (warnField u) = 1 := by
    rw [State.getF_setF_self]
    unfold warnField
    split <;> rfl
  have h0 : (s.setF (warnField u) 1).getF F.PWR_SUPPLY_DIPS = s.getF F.PWR_SUPPLY_DIPS := State.getF_setF_ne _ _ (hne (by decide))
  have hg (p : Nat) : (s.setF (warnField u) 1).getF (F.BAND_SLOTMAP_GATED p) = s.getF (F.BAND_SLOTMAP_GATED p) :=
    State.getF_setF_ne _ _ (hne (by simp [Fld.key, F.BAND_SLOTMAP_GATED, F.PWR_SUPPLY_V12_WARN, F.PWR_SUPPLY_VCORE_WARN]; omega))
  have hk : SameBut (s.setF (warnField u) 1) s [.regs] := State.setF_frame
  unfold State.warned
  generalize s.setF (warnField u) 1 = x at *
  have hx : (x.setFs [(F.PWR_SUPPLY_DIP, 1), (F.PWR_SUPPLY_HOLDOFF, 0)]).getF F.PWR_SUPPLY_DIP = 1 :=
    State.getF_setFs_at (f := F.PWR_SUPPLY_DIP) (i := 0) (v := 1) rfl (by simp; decide)
  have hf : SameFields ((x.setFs [(F.PWR_SUPPLY_DIP, 1), (F.PWR_SUPPLY_HOLDOFF, 0)]).incF F.PWR_SUPPLY_DIPS 1) x
      (Among [F.PWR_SUPPLY_DIP, F.PWR_SUPPLY_HOLDOFF, F.PWR_SUPPLY_DIPS]) :=
    SameFields.trans (SameFields.incIn (by simp)) (SameFields.setsIn (by simp))
  refine ⟨?_, (State.getF_incF_ne _ _ (by decide)).trans hx, ?_, SameBut.call State.incF_frame (by decide)
    (SameBut.call State.setFs_frame (by decide) hk), fun p => ?_⟩
  · refine (hf _ ?_).trans hw
    unfold warnField
    split <;> exact not_among (by decide)
  · refine (State.getF_incF_self _ _ _).trans ?_
    rw [State.getF_setFs_ne _ _ _ (by simp; decide), h0]
    rfl
  · refine (hf _ ?_).trans (hg p)
    simp [Among, Fld.key, F.BAND_SLOTMAP_GATED, F.PWR_SUPPLY_DIP, F.PWR_SUPPLY_HOLDOFF, F.PWR_SUPPLY_DIPS]
    omega

/-- The first warning of an episode (R515). -/
theorem State.supplyWarning_shows {u v12 vcore : Nat} (hdark : s.pstate ≠ 2) (hep : s.pwr.episode = false) :
    (s.supplyWarning u v12 vcore).now = s.now ∧ (s.supplyWarning u v12 vcore).getF F.PWR_SUPPLY_DIP = 1 ∧
    (s.supplyWarning u v12 vcore).getF (warnField u) = 1 ∧
    (s.supplyWarning u v12 vcore).getF F.PWR_SUPPLY_DIPS = satAdd 16 (s.getF F.PWR_SUPPLY_DIPS) 1 ∧
    (s.supplyWarning u v12 vcore).pwr.episode = true ∧ (s.supplyWarning u v12 vcore).pwr.dipFrom = some s.now ∧
    ∀ p < 72, s.getF (F.BAND_SLOTMAP_GATED (bandOf p)) ≠ 1 → (s.supplyWarning u v12 vcore).getF (F.CORE_CLK_BIN_DIP p) = 1 := by
  rw [State.supplyWarning_begins hdark hep]
  obtain ⟨h1, h2, h3, h4, h5⟩ := State.warned_shows (s := s) (u := u)
  generalize s.warned u = x at *
  have hdip (p : Nat) (hp : p < 72) (hg : s.getF (F.BAND_SLOTMAP_GATED (bandOf p)) ≠ 1) : (x.setDip 1).getF (F.CORE_CLK_BIN_DIP p) = 1 :=
    State.setDip_shows hp (by decide) fun _ => ⟨by rwa [(h4.keeps .pstate (by decide) : x.pstate = s.pstate)], by rwa [h5]⟩
  have hlow {f : Fld} (h : f.key < 0x2000000) : (x.setDip 1).getF f = x.getF f := State.getF_setDip_low h
  have hkeep : SameBut (x.setDip 1) x [.regs, .cores] := State.setDip_frame
  generalize x.setDip 1 = y at *
  have hset : SameFields ((y.onPwr (dipBegun u v12 vcore s.now)).setFs [(F.PWR_DIP_MIN_V12_MIN, v12), (F.PWR_DIP_MIN_VCORE_MIN, vcore)]) y
      (Among [F.PWR_DIP_MIN_V12_MIN, F.PWR_DIP_MIN_VCORE_MIN]) := (SameFields.setsIn (by simp)).trans (SameFields.of_frame State.onPwr_frame)
  have hpwr : ((y.onPwr (dipBegun u v12 vcore s.now)).setFs [(F.PWR_DIP_MIN_V12_MIN, v12), (F.PWR_DIP_MIN_VCORE_MIN, vcore)]).pwr =
      dipBegun u v12 vcore s.now y.pwr := State.setFs_frame.keeps .pwr (by decide)
  have hnow : ((y.onPwr (dipBegun u v12 vcore s.now)).setFs [(F.PWR_DIP_MIN_V12_MIN, v12), (F.PWR_DIP_MIN_VCORE_MIN, vcore)]).now = y.now :=
    (State.setFs_frame.keeps .now (by decide)).trans (State.onPwr_frame.keeps .now (by decide))
  generalize (y.onPwr (dipBegun u v12 vcore s.now)).setFs [(F.PWR_DIP_MIN_V12_MIN, v12), (F.PWR_DIP_MIN_VCORE_MIN, vcore)] = z at *
  refine ⟨?_, ?_, ?_, ?_, ?_, ?_, fun p hp hg => ?_⟩
  · rw [hnow, (hkeep.keeps .now (by decide) : y.now = x.now)]
    exact h4.keeps .now (by decide)
  · rw [hset _ (not_among (by decide)), hlow (by decide), h2]
  · have hk : ¬ Among [F.PWR_DIP_MIN_V12_MIN, F.PWR_DIP_MIN_VCORE_MIN] (warnField u) ∧ (warnField u).key < 0x2000000 := by
      unfold warnField
      split <;> exact ⟨not_among (by decide), by decide⟩
    rw [hset _ hk.1, hlow hk.2, h1]
  · rw [hset _ (not_among (by decide)), hlow (by decide), h3]
  · rw [hpwr]; rfl
  · rw [hpwr]; rfl
  · refine (hset _ ?_).trans (hdip p hp hg)
    simp [Among, Fld.key, F.CORE_CLK_BIN_DIP, F.PWR_DIP_MIN_V12_MIN, F.PWR_DIP_MIN_VCORE_MIN]
    omega

theorem State.supplyWarning_dark {u v12 vcore : Nat} (hdark : s.pstate = 2) :
    SameBut (s.supplyWarning u v12 vcore) s [.regs] ∧
    (s.supplyWarning u v12 vcore).getF F.PWR_SUPPLY_DIPS = satAdd 16 (s.getF F.PWR_SUPPLY_DIPS) 1 := by
  have h : s.supplyWarning u v12 vcore = (s.setF (warnField u) 1).incF F.PWR_SUPPLY_DIPS 1 := if_pos hdark
  rw [h]
  refine ⟨State.incF_frame.trans State.setF_frame, (State.getF_incF_self _ _ _).trans ?_⟩
  rw [State.getF_setF_ne]
  · rfl
  · unfold warnField
    split <;> decide

/-- The supplies' recovery in an episode (R515). -/
theorem State.supplyRecovery_shows {v12 vcore t0 : Nat} (hep : s.pwr.episode = true) (hfrom : s.pwr.dipFrom = some t0) :
    SameBut (s.supplyRecovery v12 vcore) s [.regs, .pwr] ∧ (s.supplyRecovery v12 vcore).getF F.PWR_SUPPLY_HOLDOFF = 1 ∧
    (s.supplyRecovery v12 vcore).getF F.PWR_SUPPLY_V12_WARN = 0 ∧ (s.supplyRecovery v12 vcore).getF F.PWR_SUPPLY_VCORE_WARN = 0 ∧
    (s.supplyRecovery v12 vcore).pwr = { s.pwr with
      dipFrom := none, dipLen := s.pwr.dipLen + (s.now - t0), dipMin := (min s.pwr.dipMin.1 v12, min s.pwr.dipMin.2 vcore),
      holdEnd := some (s.now + msCycles 5) } := by
  have hframe : SameBut (s.supplyRecovery v12 vcore) s [.regs, .pwr] := State.supplyRecovery_frame
  refine ⟨hframe, ?_⟩
  have h1 : (s.setFs [(F.PWR_SUPPLY_V12_WARN, 0), (F.PWR_SUPPLY_VCORE_WARN, 0)]).getF F.PWR_SUPPLY_V12_WARN = 0 :=
    State.getF_setFs_at (f := F.PWR_SUPPLY_V12_WARN) (i := 0) (v := 0) rfl (by simp; decide)
  have h2 : (s.setFs [(F.PWR_SUPPLY_V12_WARN, 0), (F.PWR_SUPPLY_VCORE_WARN, 0)]).getF F.PWR_SUPPLY_VCORE_WARN = 0 :=
    State.getF_setFs_at (f := F.PWR_SUPPLY_VCORE_WARN) (i := 1) (v := 0) rfl (by simp)
  have hk : (s.setFs [(F.PWR_SUPPLY_V12_WARN, 0), (F.PWR_SUPPLY_VCORE_WARN, 0)]).pwr = s.pwr := State.setFs_frame.keeps .pwr (by decide)
  unfold State.supplyRecovery
  rw [hep, hfrom]
  dsimp only
  generalize s.setFs [(F.PWR_SUPPLY_V12_WARN, 0), (F.PWR_SUPPLY_VCORE_WARN, 0)] = x at *
  have h3 : (x.setFs [(F.PWR_SUPPLY_HOLDOFF, 1), (F.PWR_DIP_MIN_V12_MIN, min s.pwr.dipMin.1 v12),
      (F.PWR_DIP_MIN_VCORE_MIN, min s.pwr.dipMin.2 vcore)]).getF F.PWR_SUPPLY_HOLDOFF = 1 :=
    State.getF_setFs_at (f := F.PWR_SUPPLY_HOLDOFF) (i := 0) (v := 1) rfl (by simp; decide)
  have h4 : SameFields (x.setFs [(F.PWR_SUPPLY_HOLDOFF, 1), (F.PWR_DIP_MIN_V12_MIN, min s.pwr.dipMin.1 v12),
      (F.PWR_DIP_MIN_VCORE_MIN, min s.pwr.dipMin.2 vcore)]) x (Among [F.PWR_SUPPLY_HOLDOFF, F.PWR_DIP_MIN_V12_MIN, F.PWR_DIP_MIN_VCORE_MIN]) :=
    SameFields.setsIn (by simp)
  have h5 : (x.setFs [(F.PWR_SUPPLY_HOLDOFF, 1), (F.PWR_DIP_MIN_V12_MIN, min s.pwr.dipMin.1 v12),
      (F.PWR_DIP_MIN_VCORE_MIN, min s.pwr.dipMin.2 vcore)]).pwr = s.pwr := (State.setFs_frame.keeps .pwr (by decide)).trans hk
  generalize x.setFs [(F.PWR_SUPPLY_HOLDOFF, 1), (F.PWR_DIP_MIN_V12_MIN, min s.pwr.dipMin.1 v12),
    (F.PWR_DIP_MIN_VCORE_MIN, min s.pwr.dipMin.2 vcore)] = y at *
  exact ⟨h3, (h4 _ (not_among (by decide))).trans h1, (h4 _ (not_among (by decide))).trans h2, by rw [State.onPwr, h5]⟩

/-- The hold-off's end, before its record. -/
def State.heldOff (s : State) (e : Nat) : State :=
  (((s.waitUntil e).setFs [(F.PWR_SUPPLY_HOLDOFF, 0), (F.PWR_SUPPLY_DIP, 0), (F.PWR_DIP_LEN_LEN, min (2 ^ 32 - 1) s.pwr.dipLen)]).setDip 0).onPwr
    fun w => { w with episode := false, holdEnd := none }

theorem State.holdoffEnd_eq {e : Nat} (h : s.pwr.holdEnd = some e) : s.holdoffEnd = (s.heldOff e).supplyRecord s.pwr.dipSupply
    (if s.pwr.dipSupply = 0 then s.pwr.dipMin.1 else s.pwr.dipMin.2) s.pwr.dipLen false := by
  unfold State.holdoffEnd
  rw [h]
  rfl

theorem State.heldOff_shows {e : Nat} : (s.heldOff e).now = max s.now e ∧ (s.heldOff e).getF F.PWR_SUPPLY_HOLDOFF = 0 ∧
    (s.heldOff e).getF F.PWR_SUPPLY_DIP = 0 ∧ (s.heldOff e).pwr.episode = false ∧ (s.heldOff e).pwr.holdEnd = none ∧
    (s.heldOff e).led = s.led ∧ ∀ p < 72, (s.heldOff e).getF (F.CORE_CLK_BIN_DIP p) = 0 := by
  unfold State.heldOff
  have hnow : (s.waitUntil e).now = max s.now e := s.waitUntil_now _
  have hled : (s.waitUntil e).led = s.led := State.waitUntil_frame.keeps .led (by decide)
  generalize s.waitUntil e = x at *
  have h1 : (x.setFs [(F.PWR_SUPPLY_HOLDOFF, 0), (F.PWR_SUPPLY_DIP, 0), (F.PWR_DIP_LEN_LEN, min (2 ^ 32 - 1) s.pwr.dipLen)]).getF
      F.PWR_SUPPLY_HOLDOFF = 0 := State.getF_setFs_at (f := F.PWR_SUPPLY_HOLDOFF) (i := 0) (v := 0) rfl (by simp; decide)
  have h2 : (x.setFs [(F.PWR_SUPPLY_HOLDOFF, 0), (F.PWR_SUPPLY_DIP, 0), (F.PWR_DIP_LEN_LEN, min (2 ^ 32 - 1) s.pwr.dipLen)]).getF
      F.PWR_SUPPLY_DIP = 0 := State.getF_setFs_at (f := F.PWR_SUPPLY_DIP) (i := 1) (v := 0) rfl (by simp; decide)
  have hk : SameBut (x.setFs [(F.PWR_SUPPLY_HOLDOFF, 0), (F.PWR_SUPPLY_DIP, 0), (F.PWR_DIP_LEN_LEN, min (2 ^ 32 - 1) s.pwr.dipLen)]) x [.regs] :=
    State.setFs_frame
  generalize x.setFs [(F.PWR_SUPPLY_HOLDOFF, 0), (F.PWR_SUPPLY_DIP, 0), (F.PWR_DIP_LEN_LEN, min (2 ^ 32 - 1) s.pwr.dipLen)] = y at *
  have hd (p : Nat) (hp : p < 72) : (y.setDip 0).getF (F.CORE_CLK_BIN_DIP p) = 0 :=
    State.setDip_shows hp (by decide) fun h => absurd h (by decide)
  have hlow {f : Fld} (h : f.key < 0x2000000) : (y.setDip 0).getF f = y.getF f := State.getF_setDip_low h
  have hdk : SameBut (y.setDip 0) y [.regs, .cores] := State.setDip_frame
  generalize y.setDip 0 = z at *
  have hf (f : Fld) : (z.onPwr fun w => { w with episode := false, holdEnd := none }).getF f = z.getF f := rfl
  refine ⟨?_, (hf _).trans ((hlow (by decide)).trans h1), (hf _).trans ((hlow (by decide)).trans h2), rfl, rfl, ?_, fun p hp => (hf _).trans (hd p hp)⟩
  · rw [State.onPwr_frame.keeps .now (by decide), hdk.keeps .now (by decide), hk.keeps .now (by decide), hnow]
  · rw [State.onPwr_frame.keeps .led (by decide), hdk.keeps .led (by decide), hk.keeps .led (by decide), hled]

theorem State.ledger_appends {k u : Nat} {bs : List Byte} (h : s.led.queue.length < 64) : ∃ x, (s.ledger k u bs).led.queue = s.led.queue ++ [x] := by
  unfold State.ledger
  rw [if_neg (by omega)]
  exact ⟨_, congrArg LedSt.queue (State.setF_frame.keeps .led (by decide))⟩

end

end Sys2Proof.Machine

namespace Sys2Proof
set_option Elab.async false
open Sys2Proof.Machine

/-- Settles O52: each transition and each dip is followed through its stages, with what the stages keep. -/
theorem powerStatesAndDips : Obligations.PowerStatesAndDips := by
  unfold Obligations.PowerStatesAndDips
  refine ⟨?up, ?entry, ?exit, ?warn, ?dark, ?recover, ?hold, ?reset⟩
  case up =>
    intro s t0 h
    refine Completes.of_op (t := s.bandsUp) rfl fun w => ?_
    obtain ⟨hnow, hpwr, hzero⟩ := State.bandsUp_shows h
    generalize s.bandsUp = t at *
    exact ⟨hnow, hpwr, fun p hlo hp hr => (hzero p hlo hp hr).ended⟩
  case entry =>
    intro s t0 h
    refine Completes.of_op (t := s.doldrumsEntered) rfl fun w => ?_
    obtain ⟨h1, h2, h3, h4, h5, h6, h7, h8, h9, h10⟩ := State.doldrumsEntered_shows h
    generalize s.doldrumsEntered = t at *
    refine ⟨h1, h2, h3, h4, h5, h6, h7, h8, h9, fun p hp => ?_⟩
    have hc : t.core p = offCore (s.core p) := h10 p hp
    have hm : (t.core p).mapped = (s.core p).mapped := by rw [hc]; rfl
    exact ⟨congrArg CoreSt.spad hc, congrArg CoreSt.lines hc, hm⟩
  case exit =>
    intro s t0 h hhold
    refine Completes.of_op (t := State.boundaryStatus s s.doldrumsExited) rfl fun w => ?_
    obtain ⟨h1, h2, h3, h4, h5, h6, h7⟩ := State.doldrumsExited_shows h hhold
    generalize s.doldrumsExited = t at *
    have hk : SameBut (State.boundaryStatus s t) t [.regs, .tpl] := State.boundaryStatus_frame
    have hf : SameFields (State.boundaryStatus s t) t (Among replyCounts) := State.boundaryStatus_fields
    generalize State.boundaryStatus s t = u at *
    have hcal : u.cal = t.cal := hk.keeps .cal (by decide)
    refine ⟨(hk.keeps .now (by decide)).trans h1, (hf _ (not_among (by decide))).trans h2, (hf _ (not_among (by decide))).trans h3,
      (hf _ (not_among (by decide))).trans h4, ?_, ?_, ?_⟩
    · exact (congrArg CalSt.running hcal).trans h5
    · exact (congrArg CalSt.frame hcal).trans h6
    · exact (congrArg CalSt.line hcal).trans h7
  case warn =>
    intro s u v12 vcore hu h12 hcore hdark hep
    refine Completes.of_act (t := s.supplyWarning u v12 vcore) rfl (by simp [Instr.wf, hu, h12, hcore]) fun w => ?_
    obtain ⟨h1, h2, h3, h4, h5, h6, h7⟩ := State.supplyWarning_shows (u := u) (v12 := v12) (vcore := vcore) hdark hep
    generalize s.supplyWarning u v12 vcore = t at *
    exact ⟨h1, h2, h3, h4, h5, h6, h7⟩
  case dark =>
    intro s u v12 vcore hu h12 hcore hdark
    refine Completes.of_act (t := s.supplyWarning u v12 vcore) rfl (by simp [Instr.wf, hu, h12, hcore]) fun w => ?_
    obtain ⟨h1, h2⟩ := State.supplyWarning_dark (u := u) (v12 := v12) (vcore := vcore) hdark
    exact ⟨SameBut.ended h1 w, h2⟩
  case recover =>
    intro s v12 vcore t0 h12 hcore hep hfrom
    refine Completes.of_act (t := s.supplyRecovery v12 vcore) rfl (by simp [Instr.wf, h12, hcore]) fun w => ?_
    obtain ⟨h1, h2, h3, h4, h5⟩ := State.supplyRecovery_shows (v12 := v12) (vcore := vcore) hep hfrom
    generalize s.supplyRecovery v12 vcore = t at *
    have hp : t.pwr.episode = true := by rw [h5]; exact hep
    exact ⟨SameBut.ended h1 w, h2, h3, h4, congrArg PwrSt.holdEnd h5, congrArg PwrSt.dipLen h5, congrArg PwrSt.dipFrom h5, hp⟩
  case hold =>
    intro s e hend hroom
    refine Completes.of_op (t := s.holdoffEnd) rfl fun w => ?_
    rw [State.holdoffEnd_eq hend]
    obtain ⟨h1, h2, h3, h4, h5, h6, h7⟩ := State.heldOff_shows (s := s) (e := e)
    generalize s.heldOff e = x at *
    obtain ⟨r, hr⟩ := State.ledger_appends (s := x) (k := 10) (u := s.pwr.dipSupply) (bs := toLe 2 (if s.pwr.dipSupply = 0 then s.pwr.dipMin.1
      else s.pwr.dipMin.2) ++ toLe 4 s.pwr.dipLen ++ toLe 1 (b2n false)) (by rwa [h6])
    have hl : SameFields (x.supplyRecord s.pwr.dipSupply (if s.pwr.dipSupply = 0 then s.pwr.dipMin.1 else s.pwr.dipMin.2) s.pwr.dipLen false) x
        (Among [F.DEV_LEDGER_QUEUED, F.DEV_LEDGER_CNT_LOST]) := State.ledger_counts
    have hk : SameBut (x.supplyRecord s.pwr.dipSupply (if s.pwr.dipSupply = 0 then s.pwr.dipMin.1 else s.pwr.dipMin.2) s.pwr.dipLen false) x
        [.regs, .led] := State.supplyRecord_frame
    have hr' : (x.supplyRecord s.pwr.dipSupply (if s.pwr.dipSupply = 0 then s.pwr.dipMin.1 else s.pwr.dipMin.2) s.pwr.dipLen false).led.queue =
        x.led.queue ++ [r] := hr
    generalize x.supplyRecord s.pwr.dipSupply (if s.pwr.dipSupply = 0 then s.pwr.dipMin.1 else s.pwr.dipMin.2) s.pwr.dipLen false = t at *
    have hpwr : t.pwr = x.pwr := hk.keeps .pwr (by decide)
    refine ⟨(hk.keeps .now (by decide)).trans h1, (hl _ (not_among (by decide))).trans h2, (hl _ (not_among (by decide))).trans h3,
      (congrArg PwrSt.episode hpwr).trans h4, (congrArg PwrSt.holdEnd hpwr).trans h5, ⟨r, by rw [hr', h6]⟩, fun _ p hp _ => ?_⟩
    refine (hl _ ?_).trans (h7 p hp)
    simp [Among, Fld.key, F.CORE_CLK_BIN_DIP, F.DEV_LEDGER_QUEUED, F.DEV_LEDGER_CNT_LOST]
    omega
  case reset =>
    intro s u v12 vcore hu h12 hcore
    refine Completes.of_act (t := s.supplyReset u v12 vcore) rfl (by simp [Instr.wf, hu, h12, hcore]) fun w =>
      ⟨SameBut.ended State.supplyReset_frame w, rfl, ?_⟩
    have hlatch : (s.supplyReset u v12 vcore).pwr.latch = some (u, if u = 0 then v12 else vcore,
        s.pwr.dipLen + (s.pwr.dipFrom.map fun t => s.now - t).getD 0) := rfl
    refine hlatch.trans ?_
    cases s.pwr.dipFrom <;> rfl

end Sys2Proof

/-! SUPPORT. A boot stage whose outcome names a unit that does not exist (log entry 1); O50. -/
namespace Sys2Proof.Machine
set_option Elab.async false

/-- A command whose operands name what does not exist leaves the state as it is: what it completes with holds of that state. -/
theorem Completes.of_illFormed {c : Instr} {s t : State} {Q : State → Prop} (hc : exec c s = act false s t) (h : Completes c s Q) :
    ∃ w, Q { s with stat := w } := by
  obtain ⟨u, hu, hQ⟩ := h
  rw [hc] at hu
  have hend : u = { State.noteStat s s with pending := s.pending } := (Host.Outcome.next.inj hu).symm
  rw [hend, State.noteStat_eq] at hQ
  exact ⟨_, hQ⟩

/-- Stage 0 is done, and its successors are open. -/
def romState : State := { boot := { done := [0] } }

theorem romState_open : romState.stageOpen [0] 1 = true := by decide +kernel

/-- Fuses whose factory map names core 72. -/
def farFuses : Fuses := { spad := [(72, 0)] }

theorem farFuses_illFormed : Instr.wf (.bootStageComplete (.rom farFuses)) = false := by decide

end Sys2Proof.Machine

namespace Sys2Proof
set_option Elab.async false
open Sys2Proof.Machine

/-- Refutes O50: stage 1 with a factory map that names a core that does not exist is ill formed and is not done (log entry 1), and the
statement does not ask for a well-formed outcome. -/
theorem not_bootStagesRunOrFail : ¬ Obligations.BootStagesRunOrFail := by
  unfold Obligations.BootStagesRunOrFail
  rintro ⟨-, hrom, -⟩
  have hact : exec (.bootStageComplete (.rom farFuses)) romState = act false romState (romState.bootStep (.rom farFuses)) :=
    congrArg (act · romState _) farFuses_illFormed
  obtain ⟨w, hdone, -⟩ := (hrom romState farFuses romState_open).of_illFormed hact
  have hkept : 1 ∈ romState.boot.done := hdone
  exact absurd hkept (by decide)

end Sys2Proof

/-! SUPPORT. The block times inside a line packet (R394, R396, R397); O35. -/
namespace Sys2Proof.Machine
set_option Elab.async false

/-- What the lanes read of a state besides their own. -/
def SameLanes (t s : State) : Prop :=
  t.lanes = s.lanes ∧ t.blockTime = s.blockTime ∧ t.pfmt = s.pfmt ∧ t.pnlState = s.pnlState ∧ t.cmp.lines = s.cmp.lines ∧
    ∀ n, t.modeOf n = s.modeOf n

/-- The state in which the block time from `x` on goes out: its time has come, and a new event of the lanes has begun. -/
def State.stripeReady (s : State) (x : Nat) : State :=
  (s.waitUntil (s.blockStart (s.blockFrom (max x (100 * s.now))) / 100)).onPnl fun p => p.newEvent s.lanes

/-- Of a command's operation it is enough to ask what is asked of the end state, where that does not speak of the queue. -/
theorem Completes.of_op_same {c : Instr} {s t : State} {Q : State → Prop} (hc : exec c s = done s t) (ht : Q t)
    (hend : ∀ (u : State) (w : Nat × Nat), Q u → Q { u with pending := s.pending, stat := w }) : Completes c s Q :=
  Completes.of_op hc fun w => hend t w ht

section
variable {s t : State}

theorem State.modeOf_same (hc : t.change = s.change) (hf : t.cal.frame = s.cal.frame) (hp : t.prog = s.prog)
    (hm : t.getF F.CAL_MODE_MODE_CUR = s.getF F.CAL_MODE_MODE_CUR) (n : Nat) : t.modeOf n = s.modeOf n := by
  simp only [State.modeOf, hc, hf, hp, hm]

theorem SameLanes.waitUntil (n : Nat) : SameLanes (s.waitUntil n) s := by
  have hf {f : Fld} (h : f.lo < 32 ∧ f.addr < 0x100000 ∧ f.addr % 0x10000 ∉ timeOffsets) : (s.waitUntil n).getF f = s.getF f :=
    s.waitUntil_fields n f (not_withTime_low h)
  refine ⟨congrArg laneNum (hf (by decide)), congrArg Sys2Proof.blockTime (hf (by decide)), hf (by decide), hf (by decide), ?_, ?_⟩
  · exact congrArg CmpSt.lines (State.waitUntil_frame.keeps .cmp (by decide))
  · refine State.modeOf_same (State.waitUntil_frame.keeps .change (by decide)) ?_ (State.waitUntil_frame.keeps .prog (by decide)) (hf (by decide))
    rw [State.waitUntil_cal]
    split <;> rfl

theorem SameLanes.onPnl {f : PnlSt → PnlSt} (h : SameLanes t s) : SameLanes (t.onPnl f) s := h

theorem State.stripeReady_spec (x : Nat) : SameLanes (s.stripeReady x) s ∧
    (s.stripeReady x).now = max s.now (s.blockStart (s.blockFrom (max x (100 * s.now))) / 100) ∧
    (s.stripeReady x).pnl = s.pnl.newEvent s.lanes := by
  have hl := SameLanes.waitUntil (s := s) (s.blockStart (s.blockFrom (max x (100 * s.now))) / 100)
  have hn := s.waitUntil_now (s.blockStart (s.blockFrom (max x (100 * s.now))) / 100)
  have hp : (s.waitUntil (s.blockStart (s.blockFrom (max x (100 * s.now))) / 100)).pnl = s.pnl :=
    State.waitUntil_frame.keeps .pnl (by decide)
  unfold State.stripeReady
  generalize s.waitUntil (s.blockStart (s.blockFrom (max x (100 * s.now))) / 100) = y at *
  exact ⟨hl.onPnl, hn, by rw [State.onPnl, hp]⟩

/-- Whatever a block time of a packet carries, it is one block time. -/
theorem State.packetBlock_spec (k : Packet) : (s.packetBlock k).pnl.block = s.pnl.block + 1 ∧ SameBut (s.packetBlock k) s [.pnl] := by
  refine ⟨?_, State.packetBlock_frame⟩
  unfold State.packetBlock
  extract_lets l w fill
  have hfill : fill.pnl.block = s.pnl.block + 1 := rfl
  clear_value fill
  split
  · rfl
  · split
    · exact hfill
    · extract_lets bytes n d crcs
      split
      · exact hfill
      · rfl

theorem State.runBlocks_spec (n : Nat) : ∀ s : State, (State.runBlocks n s).pnl.block = s.pnl.block + n ∧ SameBut (State.runBlocks n s) s [.pnl] := by
  induction n with
  | zero => exact fun s => ⟨rfl, SameBut.refl _ _⟩
  | succ n ih =>
    intro s
    unfold State.runBlocks
    split
    next k _ =>
      obtain ⟨h1, h2⟩ := State.packetBlock_spec (s := s) k
      obtain ⟨h3, h4⟩ := ih (s.packetBlock k)
      exact ⟨by rw [h3, h1]; omega, h4.trans h2⟩
    next => exact ⟨rfl, State.send_frame⟩

theorem State.packetBlock_end {k : Packet} (h : stripeCount s.pfmt (s.modeOf k.frame).w s.lanes ≤ k.next) :
    s.packetBlock k = (s.send [ctlStripe 0x55 0 s.lanes fun q => toLe 4 (k.crcs.getD q 0 ^^^ 0xFFFFFFFF)]).onPnl
      fun p => { p with pkt := none } := if_pos h

theorem State.packetBlock_fill {k : Packet} (h : k.next < stripeCount s.pfmt (s.modeOf k.frame).w s.lanes)
    (hnone : (s.cmp.lines.find? fun c => c.frame == k.frame && c.y == k.y) = none) :
    s.packetBlock k = (s.send [ctlStripe 0x2D 0 s.lanes fun _ => []]).onPnl fun p => { p with fills := p.fills + 1 } := by
  unfold State.packetBlock
  dsimp only
  rw [if_neg (by omega), hnone]

/-- The pixels of stripe `n` of a line have been composed (R397). -/
def State.stripePresent (s : State) (k : Packet) (c : CompLine) : Prop :=
  100 * (c.start + 6 + ceilDiv (min (s.modeOf k.frame).w (ceilDiv (8 * min (payloadLen s.pfmt (s.modeOf k.frame).w)
    (8 * s.lanes * (k.next + 1))) (3 * pfmtBits s.pfmt))) 8) ≤ s.blockStart s.pnl.block

theorem State.packetBlock_data {k : Packet} {c : CompLine} (h : k.next < stripeCount s.pfmt (s.modeOf k.frame).w s.lanes)
    (hsome : (s.cmp.lines.find? fun c => c.frame == k.frame && c.y == k.y) = some c) (hready : s.stripePresent k c) :
    ∃ crcs, s.packetBlock k = (s.send [dataStripe s.lanes k.next (payload s.pfmt c.px)]).onPnl
      fun p => { p with pkt := some { k with next := k.next + 1, crcs := crcs } } := by
  unfold State.packetBlock
  dsimp only
  rw [if_neg (by omega), hsome]
  dsimp only
  rw [if_neg (Nat.not_lt.2 hready)]
  exact ⟨_, rfl⟩

/-- A running link inside a packet: the block times up to the one named go out. -/
theorem State.stripe_eq {x : Nat} {k : Packet} (hp : s.pnl.pkt = some k) (hst : s.pnlState = 2) :
    s.stripe x = State.runBlocks (s.blockFrom (max x (100 * s.now)) + 1 - s.pnl.block) (s.stripeReady x) := by
  have hle : s.pnl.block ≤ s.blockFrom (max x (100 * s.now)) := Nat.le_max_left _ _
  obtain ⟨⟨-, -, -, hstate, -⟩, -, hpnl⟩ := State.stripeReady_spec (s := s) x
  have hdef : s.stripe x = (s.stripeReady x).blocksTo (s.blockFrom (max x (100 * s.now)) + 1) := if_neg (by rw [hp, hst]; simp)
  have hblock : (s.stripeReady x).pnl.block = s.pnl.block := by rw [hpnl]; rfl
  rw [hdef]
  generalize s.stripeReady x = y at *
  unfold State.blocksTo
  rw [hblock, hstate, if_neg (by omega), if_neg (by omega), if_pos hst]

/-- Where the next block time is the one named, it alone goes out. -/
theorem State.stripe_one {x : Nat} {k : Packet} (hp : s.pnl.pkt = some k) (hst : s.pnlState = 2)
    (hnext : s.blockFrom (max x (100 * s.now)) = s.pnl.block) : s.stripe x = (s.stripeReady x).packetBlock k := by
  have hpkt : (s.stripeReady x).pnl.pkt = some k := (congrArg PnlSt.pkt (State.stripeReady_spec x).2.2).trans hp
  rw [State.stripe_eq hp hst, hnext, show s.pnl.block + 1 - s.pnl.block = 1 by omega]
  generalize s.stripeReady x = y at *
  rw [State.runBlocks, hpkt]
  rfl

/-- The block times run on to the one named, in its time. -/
theorem State.stripe_blocks {x : Nat} {k : Packet} (hp : s.pnl.pkt = some k) (hst : s.pnlState = 2) :
    (s.stripe x).pnl.block = s.blockFrom (max x (100 * s.now)) + 1 ∧
      (s.stripe x).now = max s.now (s.blockStart (s.blockFrom (max x (100 * s.now))) / 100) := by
  obtain ⟨-, hnow, hpnl⟩ := State.stripeReady_spec (s := s) x
  obtain ⟨hblock, hkeep⟩ := State.runBlocks_spec (s.blockFrom (max x (100 * s.now)) + 1 - s.pnl.block) (s.stripeReady x)
  have hle : s.pnl.block ≤ s.blockFrom (max x (100 * s.now)) := Nat.le_max_left _ _
  have hb0 : (s.stripeReady x).pnl.block = s.pnl.block := (congrArg PnlSt.block hpnl).trans rfl
  rw [State.stripe_eq hp hst]
  exact ⟨by rw [hblock, hb0]; omega, (hkeep.keeps .now (by decide)).trans hnow⟩

/-- After the last data stripe the packet's CRC stripe ends it. -/
theorem State.stripe_crc {x : Nat} {k : Packet} (hp : s.pnl.pkt = some k) (hst : s.pnlState = 2)
    (hnext : s.blockFrom (max x (100 * s.now)) = s.pnl.block) (hend : stripeCount s.pfmt (s.modeOf k.frame).w s.lanes ≤ k.next) :
    (s.stripe x).pnl = { (s.pnl.newEvent s.lanes).put [ctlStripe 0x55 0 s.lanes fun q => toLe 4 (k.crcs.getD q 0 ^^^ 0xFFFFFFFF)] with
      pkt := none } := by
  obtain ⟨⟨hlanes, -, hfmt, -, -, hmode⟩, -, hpnl⟩ := State.stripeReady_spec (s := s) x
  rw [State.stripe_one hp hst hnext]
  generalize s.stripeReady x = y at *
  rw [State.packetBlock_end (by rwa [hlanes, hfmt, hmode]), ← hpnl, ← hlanes]
  rfl

/-- A block time for which a stripe's bytes are not there carries FILL. -/
theorem State.stripe_fill {x : Nat} {k : Packet} (hp : s.pnl.pkt = some k) (hst : s.pnlState = 2)
    (hnext : s.blockFrom (max x (100 * s.now)) = s.pnl.block) (hmore : k.next < stripeCount s.pfmt (s.modeOf k.frame).w s.lanes)
    (hnone : (s.cmp.lines.find? fun c => c.frame == k.frame && c.y == k.y) = none) :
    (s.stripe x).pnl = { (s.pnl.newEvent s.lanes).put [ctlStripe 0x2D 0 s.lanes fun _ => []] with fills := s.pnl.fills + 1 } := by
  obtain ⟨⟨hlanes, -, hfmt, -, hlines, hmode⟩, -, hpnl⟩ := State.stripeReady_spec (s := s) x
  have hfills : s.pnl.fills = (s.stripeReady x).pnl.fills := (congrArg PnlSt.fills hpnl).symm
  rw [State.stripe_one hp hst hnext]
  generalize s.stripeReady x = y at *
  rw [State.packetBlock_fill (by rwa [hlanes, hfmt, hmode]) (by rwa [hlines]), ← hpnl, ← hlanes, hfills]
  rfl

/-- A data stripe goes out once its pixels are there. -/
theorem State.stripe_data {x : Nat} {k : Packet} {c : CompLine} (hp : s.pnl.pkt = some k) (hst : s.pnlState = 2)
    (hnext : s.blockFrom (max x (100 * s.now)) = s.pnl.block) (hmore : k.next < stripeCount s.pfmt (s.modeOf k.frame).w s.lanes)
    (hsome : (s.cmp.lines.find? fun c => c.frame == k.frame && c.y == k.y) = some c) (hready : s.stripePresent k c) :
    ∃ crcs, (s.stripe x).pnl = { (s.pnl.newEvent s.lanes).put [dataStripe s.lanes k.next (payload s.pfmt c.px)] with
      pkt := some { k with next := k.next + 1, crcs := crcs } } := by
  obtain ⟨⟨hlanes, htime, hfmt, -, hlines, hmode⟩, -, hpnl⟩ := State.stripeReady_spec (s := s) x
  rw [State.stripe_one hp hst hnext]
  generalize s.stripeReady x = y at *
  have hstart : y.blockStart y.pnl.block = s.blockStart s.pnl.block := by
    simp only [State.blockStart, htime, hpnl, PnlSt.newEvent]
  obtain ⟨crcs, hblock⟩ := State.packetBlock_data (s := y) (k := k) (c := c) (by rwa [hlanes, hfmt, hmode]) (by rwa [hlines])
    (by rw [State.stripePresent, hstart, hlanes, hfmt, hmode]; exact hready)
  refine ⟨crcs, ?_⟩
  rw [hblock, ← hpnl, ← hlanes, ← hfmt]
  rfl

end

end Sys2Proof.Machine

namespace Sys2Proof
set_option Elab.async false
open Sys2Proof.Machine

/-- Settles O35: the block times run through the packet in order, and each carries what the packet then holds. -/
theorem stripesAreSentOrFilled : Obligations.StripesAreSentOrFilled := by
  unfold Obligations.StripesAreSentOrFilled
  refine ⟨?blocks, ?last, ?fill, ?data⟩
  case blocks =>
    intro s x k hp hst
    exact Completes.of_op_same (t := s.stripe x) rfl (State.stripe_blocks hp hst) fun _ _ h => h
  case last =>
    intro s x k hp hst hnext hend
    refine Completes.of_op_same (t := s.stripe x) rfl ?_ fun _ _ h => h
    rw [State.stripe_crc hp hst hnext hend]
    exact ⟨rfl, rfl, rfl⟩
  case fill =>
    intro s x k hp hst hnext hmore hnone
    refine Completes.of_op_same (t := s.stripe x) rfl ?_ fun _ _ h => h
    rw [State.stripe_fill hp hst hnext hmore hnone]
    exact ⟨hp, rfl, rfl⟩
  case data =>
    intro s x k c hp hst hnext hmore hsome hready
    obtain ⟨crcs, hpnl⟩ := State.stripe_data hp hst hnext hmore hsome hready
    refine Completes.of_op_same (t := s.stripe x) rfl ?_ fun _ _ h => h
    rw [hpnl]
    exact ⟨⟨_, rfl, rfl, rfl, rfl⟩, rfl, rfl⟩

end Sys2Proof


namespace Sys2Proof.Machine
set_option Elab.async false

/-! ## Capture (R387 to R390) -/

section
variable {s u t : State} {i : Nat} {r : CapRun}

/-- An entry that is due, of a kind that capture has, begins with the fire of its entry and the apply point of its frame; where the
frame is not captured that is all (R387). -/
theorem State.captureLine_uncaptured (hd : s.due i 6 = true) (ha : (s.entry i).arg ≤ 1)
    (hu : u = (s.fire i).applyPoint (s.actsFor i).1)
    (hq : u.cmp.cap.en = false ∨ u.cmp.cap.bad = true ∨ (s.actsFor i).1 % u.cmp.cap.div ≠ 0) : s.captureLine i = u := by
  subst hu
  unfold State.captureLine
  rw [if_neg (by simp [hd]), if_neg (by omega)]
  dsimp only
  rw [if_pos (by simpa using hq)]

/-- The run that is found is the run of the frame. -/
theorem State.capRun_found {f arg : Nat} (h : (u.cmp.runs.find? fun q => q.frame == f) = some r) : u.capRun f arg = (u, r) := by
  unfold State.capRun
  rw [h]

/-- The line of a frame that is being captured and not blocked: it enters the queue, or the frame is incomplete from it on (R389). -/
theorem State.captureLine_taken {px : List Pix} (hd : s.due i 6 = true) (ha : (s.entry i).arg ≤ 1)
    (hu : u = (s.fire i).applyPoint (s.actsFor i).1) (hen : u.cmp.cap.en = true) (hbad : u.cmp.cap.bad = false)
    (hdiv : (s.actsFor i).1 % u.cmp.cap.div = 0) (hr : (u.cmp.runs.find? fun q => q.frame == (s.actsFor i).1) = some r)
    (hb : r.blocked = false) (he : r.ended = false) (hm : r.missing = none) (hc : u.capBlocked (s.actsFor i).1 = false)
    (hpx : capturedPixels u (s.entry i).arg (s.actsFor i).1 (s.actsFor i).2 = some px) :
    s.captureLine i =
      if u.cmp.queue.length < 2 then
        { u with cmp := { u.cmp with queue := u.cmp.queue ++ [((s.actsFor i).1, (s.actsFor i).2, px)] } }
      else
        let r1 := { r with missing := some (s.actsFor i).2 }
        let v := ((u.onRun r1).incF F.CMP_CAP_CNT_CAP_INCOMPLETE 1).tdAdd (s.actsFor i).1 fun t => { t with cap := t.cap + 1 }
        if v.cmp.queue.any fun e => e.1 == (s.actsFor i).1 then v else v.capEnd r1 3 (s.actsFor i).2 := by
  unfold State.captureLine
  rw [if_neg (by simp [hd]), if_neg (by omega)]
  dsimp only
  rw [← hu, if_neg (by simp [hen, hbad, hdiv]), State.capRun_found hr]
  dsimp only
  rw [if_neg (by simp [hb, he, hm]), if_neg (by simp [hc])]
  unfold capturedPixels at hpx
  rw [hpx]

/-- A frame whose capture is blocked leaves the queue (R390). -/
theorem State.captureLine_blocked (hd : s.due i 6 = true) (ha : (s.entry i).arg ≤ 1)
    (hu : u = (s.fire i).applyPoint (s.actsFor i).1) (hen : u.cmp.cap.en = true) (hbad : u.cmp.cap.bad = false)
    (hdiv : (s.actsFor i).1 % u.cmp.cap.div = 0) (hr : (u.cmp.runs.find? fun q => q.frame == (s.actsFor i).1) = some r)
    (hb : r.blocked = false) (he : r.ended = false) (hm : r.missing = none) (hc : u.capBlocked (s.actsFor i).1 = true) :
    s.captureLine i =
      let v := ((((u.capStatus r 4 0).setF F.CMP_CAP_LAST_FRAME (s.actsFor i).1).onRun { r with blocked := true }).incF
        F.CMP_CAP_CNT_CAP_BLOCKED 1)
      { v with cmp := { v.cmp with queue := v.cmp.queue.filter fun e => e.1 != (s.actsFor i).1 } } := by
  unfold State.captureLine
  rw [if_neg (by simp [hd]), if_neg (by omega)]
  dsimp only
  rw [← hu, if_neg (by simp [hen, hbad, hdiv]), State.capRun_found hr]
  dsimp only
  rw [if_neg (by simp [hb, he, hm]), if_pos hc]

/-- The apply point of a frame leaves its entry fired. -/
theorem Fired.applyPoint (h : Fired s t i) (n : Nat) : Fired s (t.applyPoint n) i :=
  Fired.of h (State.applyPoint_frame.keeps .cal) (State.applyPoint_frame.keeps .now)

/-- A write to DRAM changes DRAM alone, whatever the rest of the state. -/
theorem State.writeMem_dram_eq (s : State) (c : CmpSt) (a : Nat) (bs : List Byte) :
    (({ s with cmp := c } : State).writeMem 3 0 a bs).dram = (s.writeMem 3 0 a bs).dram ∧
      (({ s with cmp := c } : State).writeMem 3 0 a bs).cmp = c ∧
      SameBut (({ s with cmp := c } : State).writeMem 3 0 a bs) s [.cmp, .dram, .dramBad] := by
  have h3 (t : State) : t.writeMem 3 0 a bs = if t.getF F.DEV_HOTPLUG_WSTOP = 1 then t
      else { t with dram := writeB t.dram a bs, dramBad := cleanWords t.dramBad a bs.length } := rfl
  rw [h3, h3, show ({ s with cmp := c } : State).getF F.DEV_HOTPLUG_WSTOP = s.getF F.DEV_HOTPLUG_WSTOP from rfl]
  split
  · exact ⟨rfl, rfl, fun p hp => by cases p <;> first | with_reducible rfl | exact absurd (by decide) hp⟩
  · exact ⟨rfl, rfl, fun p hp => by cases p <;> first | with_reducible rfl | exact absurd (by decide) hp⟩

/-- A line of a frame whose buffer has its status block, and that is not the frame's last one: it is written at its place (R388). -/
theorem State.captureWrite_line {f y : Nat} {px : List Pix} {rest : List (Nat × Nat × List Pix)} (hq : s.cmp.queue = (f, y, px) :: rest)
    (hr : (s.cmp.runs.find? fun q => q.frame == f) = some r) (hb : r.begun = true) (hm : r.missing = none)
    (hy : y + 1 ≠ (s.modeOf f).vActive) :
    s.captureWrite = (({ s with cmp := { s.cmp with queue := rest } } : State).writeMem 3 0
      (r.use.base - dramBase + r.buf * r.use.pitch + y * capPitch r.use.fmt px.length) (px.flatMap (capPix r.use.fmt))).onRun
      { r with begun := true, written := r.written + 1 } := by
  unfold State.captureWrite
  rw [hq]
  dsimp only
  rw [hr]
  dsimp only
  rw [if_pos hb, if_neg hy, hm]

end

end Sys2Proof.Machine

namespace Sys2Proof
set_option Elab.async false
open Sys2Proof.Machine

/-- Settles O11: a line of a captured frame enters the queue, ends its frame's capture or is dropped with it, and a queued line goes
to its place in DRAM. -/
theorem captureQueuesAndWritesLines : Obligations.CaptureQueuesAndWritesLines := by
  unfold Obligations.CaptureQueuesAndWritesLines
  refine ⟨?queued, ?full, ?blocked, ?uncaptured, ?reserved, ?written⟩
  case queued =>
    intro s u i r px hd ha hu hen hbad hdiv hr hb he hm hc hpx hlen
    refine Completes.of_op (t := s.captureLine i) rfl fun w => ?_
    have hf : Fired s u i := hu ▸ (State.fire_fired s i).applyPoint _
    have hdram : u.dram = s.dram := hu ▸ (State.applyPoint_frame.keeps .dram).trans (State.fire_frame.keeps .dram)
    rw [State.captureLine_taken hd ha hu hen hbad hdiv hr hb he hm hc hpx, if_pos hlen]
    exact ⟨hf, rfl, hdram⟩
  case full =>
    intro s u i r px hd ha hu hen hbad hdiv hr hb he hm hc hpx hlen hany
    refine Completes.of_op (t := s.captureLine i) rfl fun w => ?_
    have hf : Fired s u i := hu ▸ (State.fire_fired s i).applyPoint _
    have hdram : u.dram = s.dram := hu ▸ (State.applyPoint_frame.keeps .dram).trans (State.fire_frame.keeps .dram)
    rw [State.captureLine_taken hd ha hu hen hbad hdiv hr hb he hm hc hpx, if_neg (by omega)]
    dsimp only
    rw [if_pos (by exact hany)]
    refine ⟨hf, rfl, hdram, rfl, ?_⟩
    exact State.getF_incF_self (u.onRun _) _ 1
  case blocked =>
    intro s u i r hd ha hu hen hbad hdiv hr hb he hm hc
    refine Completes.of_op (t := s.captureLine i) rfl fun w => ?_
    have hf : Fired s u i := hu ▸ (State.fire_fired s i).applyPoint _
    have hst : SameBut (u.capStatus r 4 0) u _ := State.capStatus_frame
    rw [State.captureLine_blocked hd ha hu hen hbad hdiv hr hb he hm hc]
    generalize u.capStatus r 4 0 = v at *
    refine ⟨Fired.of hf (hst.keeps .cal) (hst.keeps .now), congrArg (fun c => List.filter _ c.queue) (show v.cmp = u.cmp from hst.keeps .cmp), ?_⟩
    refine (State.getF_incF_self ((v.setF _ _).onRun _) _ 1).trans (congrArg (satAdd 16 · 1) ?_)
    exact (State.getF_setF_ne v _ (by decide)).trans (SameFields.of_frame (ok := fun _ => False) hst (by decide) _ id)
  case uncaptured =>
    intro s u i hd ha hu hq
    refine Completes.of_op (t := s.captureLine i) rfl fun w => ?_
    have hf : Fired s u i := hu ▸ (State.fire_fired s i).applyPoint _
    have hdram : u.dram = s.dram := hu ▸ (State.applyPoint_frame.keeps .dram).trans (State.fire_frame.keeps .dram)
    rw [State.captureLine_uncaptured hd ha hu hq]
    exact ⟨hf, rfl, hdram⟩
  case reserved =>
    intro s i hd ha
    refine Completes.of_op (t := s.captureLine i) rfl fun w => ?_
    have h : s.captureLine i = s.fire i := by
      unfold State.captureLine
      rw [if_neg (by simp [hd]), if_pos (by omega)]
    rw [h]
    exact ⟨State.fire_fired s i, SameBut.ended State.fire_frame w, State.fire_fields s i⟩
  case written =>
    intro s f y px rest r hq hr hb hm hy
    refine Completes.of_op (t := s.captureWrite) rfl fun w => ?_
    obtain ⟨hdram, hcmp, hframe⟩ := State.writeMem_dram_eq s { s.cmp with queue := rest }
      (r.use.base - dramBase + r.buf * r.use.pitch + y * capPitch r.use.fmt px.length) (px.flatMap (capPix r.use.fmt))
    rw [State.captureWrite_line hq hr hb hm hy]
    generalize State.writeMem { s with cmp := { s.cmp with queue := rest } } _ _ _ _ = v at *
    exact ⟨congrArg (fun c => c.queue) hcmp, hdram, (State.onRun_frame.call (by decide) hframe).ended w⟩

end Sys2Proof


namespace Sys2Proof.Machine
set_option Elab.async false

/-! ## Stream engines: their states and registers -/

/-- Of a command's operation it is enough to ask what is asked of the end state, where that does not speak of the queue. -/
theorem Completes.of_result {c : Instr} {ok : Bool} {s t : State} {Q : State → Prop} (hc : exec c s = act ok s t) (hok : ok = true)
    (ht : Q t) (hend : ∀ (u : State) (w : Nat × Nat), Q u → Q { u with pending := s.pending, stat := w }) : Completes c s Q :=
  Completes.of_act hc hok fun w => hend t w ht

section
variable {s t u : State} {g : EngId}

/-- Every engine of `t` stands as in `s`. -/
def SameEngs (t s : State) : Prop := CoresShow CoreSt.eng t s ∧ BandsShow BandSt.eng t s

theorem SameEngs.refl (s : State) : SameEngs s s := ⟨.refl _ s, .refl _ s⟩

theorem SameEngs.trans (h1 : SameEngs u t) (h2 : SameEngs t s) : SameEngs u s := ⟨h1.1.trans h2.1, h1.2.trans h2.2⟩

theorem SameEngs.of_parts (hc : t.cores = s.cores) (hb : t.bands = s.bands) : SameEngs t s := ⟨.of_cores hc, .of_bands hb⟩

theorem SameEngs.of_frame {ps : List Part} (h : SameBut t s ps) (hp : .cores ∉ ps ∧ .bands ∉ ps := by decide) : SameEngs t s :=
  .of_parts (h.keeps .cores hp.1) (h.keeps .bands hp.2)

theorem SameEngs.onCore {p : Nat} {f : CoreSt → CoreSt} (h : ∀ c, (f c).eng = c.eng := by intro _; rfl) : SameEngs (s.onCore p f) s :=
  ⟨.onCore h, .of_bands rfl⟩

theorem SameEngs.onBand {b : Nat} {f : BandSt → BandSt} (h : ∀ c, (f c).eng = c.eng := by intro _; rfl) : SameEngs (s.onBand b f) s :=
  ⟨.of_cores rfl, .onBand h⟩

theorem SameEngs.ite {c : Prop} [Decidable c] {a b : State} (ha : SameEngs a s) (hb : SameEngs b s) : SameEngs (if c then a else b) s :=
  ⟨.ite ha.1 hb.1, .ite ha.2 hb.2⟩

theorem SameEngs.foldl {α : Type} {f : State → α → State} {l : List α} (x : State) (h : ∀ y a, SameEngs (f y a) y) :
    SameEngs (l.foldl f x) x := ⟨.foldl x fun y a => (h y a).1, .foldl x fun y a => (h y a).2⟩

theorem SameEngs.each {n : Nat} {f : State → Nat → State} (x : State) (h : ∀ y k, SameEngs (f y k) y) : SameEngs (x.each n f) x :=
  .foldl x h

theorem SameEngs.eng (h : SameEngs t s) (g : EngId) : t.eng g = s.eng g := by
  cases g with
  | core p e => exact congrArg (fun l : List Eng => l.getD e {}) (h.1 p)
  | band b e => exact congrArg (fun l : List Eng => l.getD e {}) (h.2 b)

theorem SameEngs.here (h : SameEngs t s) (hg : engineHere s g) : engineHere t g := by
  cases g with
  | core p e => exact (show e < (s.core p).eng.length from hg).trans_eq (congrArg List.length (h.1 p)).symm
  | band b e => exact (show e < (s.band b).eng.length from hg).trans_eq (congrArg List.length (h.2 b)).symm

/-- Passing time leaves every engine as it stands. -/
theorem TimeShows.engs (h : TimeShows t s) : SameEngs t s :=
  ⟨fun p => show (coreRest (t.core p)).eng = (coreRest (s.core p)).eng from congrArg CoreSt.eng (h.1 p),
    fun b => show (bandRest (t.band b)).eng = (bandRest (s.band b)).eng from congrArg BandSt.eng (h.2 b)⟩

theorem State.setThreadState_engs {p k v : Nat} : SameEngs (s.setThreadState p k v) s := .of_frame State.setThreadState_frame

theorem State.frameThreads_engs {p : Nat} : SameEngs (s.frameThreads p) s := .each s fun y _ => .ite (.refl y) (.of_frame State.setThreadState_frame)

theorem State.setWait_engs {p k : Nat} {w : Wait} : SameEngs (s.setWait p k w) s := by
  have hset : SameEngs ((s.onThread p k fun h => { h with wait := w }).setThreadState p k
      (if (s.onThread p k fun h => { h with wait := w }).suspended p k then 3 else if w = .none then 1 else 2)) s :=
    State.setThreadState_engs.trans .onCore
  exact .ite (State.frameThreads_engs.trans hset) hset

theorem State.freeTiles_engs {p e : Nat} : SameEngs (s.freeTiles p e) s :=
  .each s fun y _ => .ite State.setWait_engs (.refl y)

theorem State.eng_setF (f : Fld) (v : Nat) : (s.setF f v).eng g = s.eng g := (SameEngs.of_frame State.setF_frame).eng g

theorem State.freeTiles_fields {p e : Nat} {fs : List Fld} (h : F.CORE_THREAD_STATE p ∈ fs) :
    SameFields (s.freeTiles p e) s (WithTimeOr fs) :=
  SameFields.each (SameFields.refl _ _) fun _ _ => SameFields.ite (State.setWait_fields h) (SameFields.refl _ _)

/-- An engine that is there is changed as asked. -/
theorem State.eng_onEng_self {f : Eng → Eng} (h : engineHere s g) : (s.onEng g f).eng g = f (s.eng g) := by
  cases g with
  | core p e =>
    have he : e < (s.core p).eng.length := h
    simp [State.eng, State.onEng, State.core_onCore_self, List.getD_eq_getElem?_getD, List.getElem?_modify_eq, he]
  | band b e =>
    have he : e < (s.band b).eng.length := h
    simp [State.eng, State.onEng, State.band_onBand_self, List.getD_eq_getElem?_getD, List.getElem?_modify_eq, he]

theorem State.onEng_here {f : Eng → Eng} {k : EngId} (h : engineHere s k) : engineHere (s.onEng g f) k := by
  have hc : CoresShow (fun c => c.eng.length) (s.onEng g f) s := by
    cases g with
    | core p e => exact .onCore (v := fun c : CoreSt => c.eng.length) fun _ => List.length_modify ..
    | band b e => exact .of_cores rfl
  have hb : BandsShow (fun c => c.eng.length) (s.onEng g f) s := by
    cases g with
    | core p e => exact .of_bands rfl
    | band b e => exact .onBand (v := fun c : BandSt => c.eng.length) fun _ => List.length_modify ..
  cases k with
  | core p e => exact (show e < (s.core p).eng.length from h).trans_eq (hc p).symm
  | band b e => exact (show e < (s.band b).eng.length from h).trans_eq (hb b).symm

/-- The words in error of every memory stand as in `s` where an engine's state changes. -/
theorem State.memBad_onEng {f : Eng → Eng} (place v a n : Nat) : (s.onEng g f).memBad place v a n = s.memBad place v a n := by
  have hc : CoresShow CoreSt.bad (s.onEng g f) s := by
    cases g with
    | core p e => exact .onCore fun _ => rfl
    | band b e => exact .of_cores rfl
  have hb : BandsShow BandSt.bad (s.onEng g f) s := by
    cases g with
    | core p e => exact .of_bands rfl
    | band b e => exact .onBand fun _ => rfl
  have hd : (s.onEng g f).dramBad = s.dramBad := State.onEng_frame.keeps .dramBad
  unfold State.memBad
  rw [hc v, hb v, hd]

theorem State.getF_onEng (f : Eng → Eng) (x : Fld) : (s.onEng g f).getF x = s.getF x :=
  SameFields.of_frame (ok := fun _ => False) State.onEng_frame (by decide) _ id

/-! ### Engine registers (R253) -/

/-- Time leaves the registers of an engine alone. -/
theorem not_withTime_eng (h : g.ok = true) {f : Fld} (k l : Nat) (hf : f.addr = g.regs + k := by rfl) (hl : f.lo = l := by rfl)
    (hlt : l < 32 := by decide) (hk : k < 0x20 := by decide) : ¬ WithTime f := by
  refine not_withTime (by omega) ?_
  simp only [timeOffsets, List.mem_cons, List.not_mem_nil, or_false]
  cases g with
  | core p e =>
    simp only [EngId.ok, Bool.and_eq_true, decide_eq_true_eq] at h
    simp only [EngId.regs, coreEng] at hf
    omega
  | band b e =>
    simp only [EngId.ok, Bool.and_eq_true, decide_eq_true_eq] at h
    simp only [EngId.regs, bandEng] at hf
    omega

/-- A halted list's row is named by registers that time leaves alone. -/
theorem State.haltRow_withTime (h : g.ok = true) (hf : SameFields t s WithTime) : t.haltRow g = s.haltRow g := by
  unfold State.haltRow
  rw [hf (F.ENG_FADDR_HI_SPACE g.regs) (not_withTime_eng h 0x10 8), hf (F.ENG_FADDR_LO_ADDR_LO g.regs) (not_withTime_eng h 0xC 0),
    hf (F.ENG_FADDR_HI_ADDR_HI g.regs) (not_withTime_eng h 0x10 0)]

/-- One retry resumes the list where its row reads correct, and halts on where it does not (R250). -/
theorem State.getF_retryOnce (h : s.getF (F.ENG_STATE_STATE g.regs) = 2) : (s.retryOnce g).getF (F.ENG_STATE_STATE g.regs) =
    if s.memBad (s.haltRow g).1 (s.haltRow g).2.1 (s.haltRow g).2.2 64 = true then 2 else 1 := by
  unfold State.retryOnce
  dsimp only
  split
  · exact h
  · exact State.getF_setF_self _ _ _

end

end Sys2Proof.Machine


namespace Sys2Proof.Machine
set_option Elab.async false

/-! ## Writes of an engine's ENG_CTRL (R250, R251, R253) -/

section
variable {s : State} {g : EngId}

/-- The block and the offset of an engine's registers. -/
def engPlace : EngId → Blk × Nat
  | .core p e => (.core p, 0x200 + 0x20 * e)
  | .band b e => (.band b, 0x100 + 0x20 * e)

theorem EngId.blockOf_regs (h : g.ok = true) : blockOf g.regs = some (engPlace g) := by
  cases g with
  | core p e =>
    simp only [EngId.ok, Bool.and_eq_true, decide_eq_true_eq] at h
    exact blockOf_coreEng (isCore_lt h.1) h.2
  | band b e =>
    simp only [EngId.ok, Bool.and_eq_true, decide_eq_true_eq] at h
    exact blockOf_bandEng (isBand_lt h.1) h.2

theorem EngId.regAt_regs (h : g.ok = true) : regAt g.regs = some [F.ENG_CTRL_RETRY g.regs, F.ENG_CTRL_ABORT g.regs] := by
  unfold regAt
  rw [EngId.blockOf_regs h]
  cases g with
  | core p e =>
    simp only [EngId.ok, Bool.and_eq_true, decide_eq_true_eq] at h
    obtain ⟨-, he⟩ := h
    interval_cases e <;> simp [engPlace, EngId.regs, coreEng, bandEng, Sys2Proof.blockRows, rowsCoreA, rowsCoreB, rowsBand, RegRow.at?]
  | band b e =>
    simp only [EngId.ok, Bool.and_eq_true, decide_eq_true_eq] at h
    obtain ⟨-, he⟩ := h
    interval_cases e <;> simp [engPlace, EngId.regs, coreEng, bandEng, Sys2Proof.blockRows, rowsCoreA, rowsCoreB, rowsBand, RegRow.at?]

theorem EngId.engAt_regs (h : g.ok = true) : engAt (engPlace g).1 (engPlace g).2 = some g := by
  cases g with
  | core p e =>
    simp only [EngId.ok, Bool.and_eq_true, decide_eq_true_eq] at h
    simp only [engAt, engPlace, Nat.add_sub_cancel_left]
    rw [if_pos (by omega)]
    congr 2
    omega
  | band b e =>
    simp only [EngId.ok, Bool.and_eq_true, decide_eq_true_eq] at h
    simp only [engAt, engPlace, Nat.add_sub_cancel_left]
    rw [if_pos (by omega)]
    congr 2
    omega

/-- A write of ENG_CTRL retries with bit 0 and aborts with bit 1, and changes the audit besides. -/
theorem State.hostWrite_engine (h : g.ok = true) (hr : s.replaying = false) (hh : ∀ p e, g = .core p e → s.coreHidden p = false)
    (v : Nat) : SameBut (s.hostWrite g.regs v).2
      (let s1 := if bit v 0 then s.hostRetry g else s; if bit v 1 then s1.hostAbort g else s1) [.aud] := by
  have hcore (p : Nat) (hp : (engPlace g).1 = .core p) : s.coreHidden p = false := by
    cases g with
    | core q e => exact hh p e (by cases hp; rfl)
    | band b e => cases hp
  obtain ⟨w, hw⟩ := State.wordAt_isSome (EngId.blockOf_regs h) (EngId.regAt_regs h) hcore
  have h4 : g.regs % 4 = 0 := by
    cases g with
    | core p e => simp only [EngId.regs, coreEng]; omega
    | band b e => simp only [EngId.regs, bandEng]; omega
  have hown : s.drzOwns (engPlace g).1 (engPlace g).2 = false := by
    cases g with
    | core p e =>
      have ho : decide (0x200 + 0x20 * e < 0x140) = false := decide_eq_false (by omega)
      exact (congrArg (s.drz.on && decide (0x120 ≤ 0x200 + 0x20 * e) && ·) ho).trans (Bool.and_false _)
    | band b e => rfl
  refine (State.hostWrite_taken (v := v) hr h4 (EngId.blockOf_regs h) (EngId.regAt_regs h) hw ⟨_, List.mem_cons_self, rfl⟩ hown).trans ?_
  have hfs : [F.ENG_CTRL_RETRY g.regs, F.ENG_CTRL_ABORT g.regs].foldl (State.writeField v) s = s := by
    rw [List.foldl_cons, State.writeField_wo rfl, List.foldl_cons, State.writeField_wo rfl, List.foldl_nil]
  rw [hfs]
  have heng := EngId.engAt_regs h
  cases g with
  | core p e =>
    unfold State.writeEffect
    simp only [engPlace] at heng ⊢
    rw [if_neg (by omega), heng]
    exact SameBut.refl _ _
  | band b e =>
    unfold State.writeEffect
    simp only [engPlace] at heng ⊢
    rw [heng]
    exact SameBut.refl _ _

/-- ABORT of a halted frame-class list with nothing outstanding ends it at once (R251). -/
theorem State.hostAbort_quiet {p e : Nat} {r : ListRun} (hok : (EngId.core p e).ok = true) (h4 : 4 ≤ e) (hhere : engineHere s (.core p e))
    (hst : s.getF (F.ENG_STATE_STATE (coreEng p e)) = 2) (hrun : (s.eng (.core p e)).run = some r)
    (hout : (s.eng (.core p e)).outst = []) :
    (s.hostAbort (.core p e)).getF (F.ENG_STATE_STATE (coreEng p e)) = 0 ∧ ((s.hostAbort (.core p e)).eng (.core p e)).run = none := by
  have hfail (y : State) (o : Option Nat) : SameBut (match o with | some c => y.failRun c | none => y) y [.fc, .fab] := by
    cases o with
    | none => exact SameBut.refl _ _
    | some c => exact State.failRun_frame
  have hstop (y : State) (hy : (y.eng (.core p e)).stopping = true) (ho : (y.eng (.core p e)).outst = []) (hh : engineHere y (.core p e)) :
      (y.engStopped (.core p e)).getF (F.ENG_STATE_STATE (coreEng p e)) = 0 ∧ ((y.engStopped (.core p e)).eng (.core p e)).run = none := by
    unfold State.engStopped
    extract_lets x s1
    rw [if_pos ⟨hy, ho⟩]
    have hst1 : s1.getF (F.ENG_STATE_STATE (coreEng p e)) = 0 := State.getF_setF_self _ _ _
    have heng1 : (s1.eng (.core p e)).run = none := by
      rw [State.eng_setF, State.eng_onEng_self hh]
    clear_value s1
    split
    · exact ⟨(State.getF_setF_ne _ _ (by simp [Fld.key, F.ENG_TILES_CONSUMED, F.ENG_STATE_STATE, EngId.regs]; omega)).trans hst1,
        (congrArg Eng.run (State.eng_setF _ _)).trans heng1⟩
    · exact ⟨hst1, heng1⟩
  unfold State.hostAbort
  rw [if_pos ⟨hst, by simp [EngId.lineClass]; omega⟩, hrun]
  dsimp only
  have h0 := hstop ((s.onEng (.core p e) fun x => { x with stopping := true }).setF (F.ENG_STATE_STATE (EngId.core p e).regs) 3)
    (by rw [State.eng_setF, State.eng_onEng_self hhere])
    (by rw [State.eng_setF, State.eng_onEng_self hhere]; exact hout)
    ((SameEngs.of_frame State.setF_frame).here (State.onEng_here hhere))
  generalize ((s.onEng (.core p e) fun x => { x with stopping := true }).setF (F.ENG_STATE_STATE (EngId.core p e).regs) 3).engStopped
    (.core p e) = y at *
  have hfree : SameFields (y.freeTiles p e) y (WithTimeOr [F.CORE_THREAD_STATE p]) := State.freeTiles_fields List.mem_cons_self
  have hengs : SameEngs (y.freeTiles p e) y := State.freeTiles_engs
  have hne : ¬ WithTimeOr [F.CORE_THREAD_STATE p] (F.ENG_STATE_STATE (coreEng p e)) := by
    rintro (h | h)
    · exact not_withTime_eng hok 4 0 rfl rfl (by decide) (by decide) h
    · simp [Among, Fld.key, F.CORE_THREAD_STATE, F.ENG_STATE_STATE, coreEng] at h
      omega
  generalize y.freeTiles p e = z at *
  have hz := hfail z (s.threadClause p r.thread)
  refine ⟨(SameFields.of_frame (ok := fun _ => False) hz (by decide) _ id).trans ((hfree _ hne).trans h0.1), ?_⟩
  exact (congrArg Eng.run (((SameEngs.of_frame hz).trans hengs).eng _)).trans h0.2

/-- A host's write of ABORT to a halted frame-class list with nothing outstanding. -/
theorem State.hostWrite_abort {p e : Nat} {r : ListRun} (hok : (EngId.core p e).ok = true) (h4 : 4 ≤ e)
    (hhere : engineHere s (.core p e)) (hst : s.getF (F.ENG_STATE_STATE (coreEng p e)) = 2) (hrun : (s.eng (.core p e)).run = some r)
    (hout : (s.eng (.core p e)).outst = []) (hr : s.replaying = false) (hh : s.coreHidden p = false) :
    (s.hostWrite (EngId.core p e).regs 2).2.getF (F.ENG_STATE_STATE (coreEng p e)) = 0 ∧
      ((s.hostWrite (EngId.core p e).regs 2).2.eng (.core p e)).run = none ∧ (s.hostWrite (EngId.core p e).regs 2).2.now = s.now := by
  obtain ⟨hstate, hnone⟩ := State.hostAbort_quiet hok h4 hhere hst hrun hout
  have hw : SameBut (s.hostWrite (EngId.core p e).regs 2).2 (s.hostAbort (.core p e)) [.aud] :=
    State.hostWrite_engine hok hr (fun q k hq => by cases hq; exact hh) 2
  have hnow : (s.hostAbort (.core p e)).now = s.now := State.hostAbort_frame.keeps .now
  generalize (s.hostWrite (EngId.core p e).regs 2).2 = t at *
  generalize s.hostAbort (.core p e) = y at *
  exact ⟨(SameFields.of_frame (ok := fun _ => False) hw (by decide) _ id).trans hstate,
    (congrArg Eng.run ((SameEngs.of_frame hw).eng _)).trans hnone, (hw.keeps .now).trans hnow⟩

end

end Sys2Proof.Machine

namespace Sys2Proof
set_option Elab.async false
open Sys2Proof.Machine

/-- Settles O23: the periodic retry and the host's read the faulting row again, and ABORT ends a list with nothing outstanding. -/
theorem haltedListsRetry : Obligations.HaltedListsRetry := by
  unfold Obligations.HaltedListsRetry
  refine ⟨?timer, ?host, ?abort⟩
  case timer =>
    intro s g hok hhere hst
    refine Completes.of_act (t := s.retryTimer g) rfl hok fun w => ?_
    have hf := s.waitUntil_fields (s.eng g).retryAt
    have hengs := (s.waitUntil_shows (s.eng g).retryAt).engs
    have hnow := s.waitUntil_now (s.eng g).retryAt
    unfold State.retryTimer
    rw [if_pos hst]
    generalize s.waitUntil (s.eng g).retryAt = x at *
    have hstx : (x.onEng g fun x => { x with retryAt := x.retryAt + 4096 }).getF (F.ENG_STATE_STATE g.regs) = 2 :=
      (State.getF_onEng _ _).trans ((hf _ (not_withTime_eng hok 4 0)).trans hst)
    have hrow : (x.onEng g fun x => { x with retryAt := x.retryAt + 4096 }).haltRow g = s.haltRow g :=
      State.haltRow_withTime hok ((SameFields.of_frame State.onEng_frame).trans hf)
    have hret := State.getF_retryOnce hstx
    rw [hrow, State.memBad_onEng] at hret
    have heng := (State.eng_onEng_self (f := fun x => { x with retryAt := x.retryAt + 4096 }) (hengs.here hhere)).trans
      (congrArg (fun x : Eng => { x with retryAt := x.retryAt + 4096 }) (hengs.eng g))
    have hnow' : (x.onEng g fun x => { x with retryAt := x.retryAt + 4096 }).now = x.now := State.onEng_frame.keeps .now
    generalize (x.onEng g fun x => { x with retryAt := x.retryAt + 4096 }) = y at *
    refine ⟨(State.retryOnce_frame.keeps .now).trans (hnow'.trans hnow), ?_, hret⟩
    exact (congrArg Eng.retryAt ((SameEngs.of_frame (s := y) State.retryOnce_frame).eng g)).trans (congrArg Eng.retryAt heng)
  case host =>
    intro s g hok hst hr hh
    refine Completes.of_act (t := (s.hostWrite g.regs 1).2) rfl hok fun w => ?_
    have hw := State.hostWrite_engine hok hr hh 1
    have hf := s.advance_fields 1
    have hnow := s.advance_now 1
    simp only [show bit 1 0 = true from rfl, show bit 1 1 = false from rfl, if_true, Bool.false_eq_true, if_false] at hw
    unfold State.hostRetry at hw
    rw [if_pos hst] at hw
    generalize s.advance 1 = x at *
    generalize (s.hostWrite g.regs 1).2 = t at *
    dsimp only at hw
    have hstx : (x.onEng g fun y => { y with retryAt := if y.retryAt ≤ x.now then x.now + 4096 else y.retryAt }).getF
        (F.ENG_STATE_STATE g.regs) = 2 := (State.getF_onEng _ _).trans ((hf _ (not_withTime_eng hok 4 0)).trans hst)
    have hrow : (x.onEng g fun y => { y with retryAt := if y.retryAt ≤ x.now then x.now + 4096 else y.retryAt }).haltRow g =
        s.haltRow g := State.haltRow_withTime hok ((SameFields.of_frame State.onEng_frame).trans hf)
    have hret := State.getF_retryOnce hstx
    rw [hrow, State.memBad_onEng] at hret
    refine ⟨(hw.keeps .now).trans ((State.retryOnce_frame.keeps .now).trans ((State.onEng_frame.keeps .now).trans hnow)), ?_⟩
    exact (SameFields.of_frame (ok := fun _ => False) hw (by decide) _ id).trans hret
  case abort =>
    intro s p e r hp h4 h8 hlen hst hrun hout hr hh
    have hok : (EngId.core p e).ok = true := by simp [EngId.ok, hp, h8]
    exact Completes.of_result (t := (s.hostWrite (EngId.core p e).regs 2).2) rfl hok
      (State.hostWrite_abort hok h4 hlen hst hrun hout hr hh) fun _ _ h => h

end Sys2Proof


namespace Sys2Proof.Machine
set_option Elab.async false

/-! ## Semaphores and tiles (R240, R243) -/

section
variable {s t u : State} {p : Nat}

/-! ### Logical numbers (R25) -/

/-- The logical numbers follow IDLE_SLOT of the bands and the handovers. -/
theorem State.logical_of (hf : ∀ b, t.getF (F.BAND_SLOTMAP_IDLE_SLOT b) = s.getF (F.BAND_SLOTMAP_IDLE_SLOT b))
    (hh : t.fab.handovers = s.fab.handovers) (q : Nat) : t.logical q = s.logical q := by
  simp only [State.logical, State.moved, State.mapLogical, hf, hh]

theorem State.phys_of (hf : ∀ b, t.getF (F.BAND_SLOTMAP_IDLE_SLOT b) = s.getF (F.BAND_SLOTMAP_IDLE_SLOT b))
    (hh : t.fab.handovers = s.fab.handovers) (l : Nat) : t.phys l = s.phys l := by
  simp only [State.phys, State.logical_of hf hh]

/-- IDLE_SLOT is no field that time or a core's thread changes. -/
theorem idleSlot_not_withTime (b : Nat) : ¬ WithTimeOr [F.CORE_THREAD_STATE p] (F.BAND_SLOTMAP_IDLE_SLOT b) := by
  rintro (h | h)
  · refine not_withTime (by decide : (0 : Nat) < 32) ?_ h
    simp only [F.BAND_SLOTMAP_IDLE_SLOT, timeOffsets, List.mem_cons, List.not_mem_nil, or_false]
    omega
  · simp [Among, Fld.key, F.CORE_THREAD_STATE, F.BAND_SLOTMAP_IDLE_SLOT] at h
    omega

/-- The end state differs from an earlier state of the command in what the operation changes after that. -/
theorem SameBut.endedAfter {ps : List Part} (h : SameBut u t ps) (hp : u.pending = s.pending) (w : Nat × Nat) :
    SameBut { u with pending := s.pending, stat := w } t ps := (SameBut.ended_self hp ps w).trans h

/-! ### Threads -/

/-- STATE of its core's threads is the only field that a change of a thread's wait changes. -/
theorem State.setWait_among {k : Nat} {w : Wait} : SameFields (s.setWait p k w) s (Among [F.CORE_THREAD_STATE p]) := by
  have hset (y : State) (v : Nat) : SameFields (y.setThreadState p k v) y (Among [F.CORE_THREAD_STATE p]) :=
    SameFields.setIn List.mem_cons_self
  have hset' (y : State) (k v : Nat) : SameFields (y.setThreadState p k v) y (Among [F.CORE_THREAD_STATE p]) :=
    SameFields.setIn List.mem_cons_self
  have h2 : SameFields ((s.onThread p k fun h => { h with wait := w }).setThreadState p k
      (if (s.onThread p k fun h => { h with wait := w }).suspended p k then 3 else if w = .none then 1 else 2)) s
      (Among [F.CORE_THREAD_STATE p]) := (hset _ _).trans (SameFields.of_frame State.onThread_frame)
  exact SameFields.ite (SameFields.trans (SameFields.each (SameFields.refl _ _) fun _ _ =>
    SameFields.ite (SameFields.refl _ _) (hset' _ _ _)) h2) h2

theorem State.onThread_threads {k : Nat} {f : Thread → Thread} : ((s.onThread p k f).core p).threads = (s.core p).threads.modify k f := by
  rw [State.onThread, State.core_onCore_self]

/-- A thread that is there waits as asked. -/
theorem State.setWait_wait {k : Nat} {w : Wait} (hk : k < (s.core p).threads.length) :
    (((s.setWait p k w).core p).threads.getD k {}).wait = w := by
  have hcores : CoresShow CoreSt.threads (s.setWait p k w) (s.onThread p k fun h => { h with wait := w }) :=
    .ite ((CoresShow.each _ fun y _ => .ite (.refl _ y) (.of_frame State.setThreadState_frame)).trans
      (.of_frame State.setThreadState_frame)) (.of_frame State.setThreadState_frame)
  rw [hcores p, State.onThread_threads, List.getD_eq_getElem?_getD, List.getElem?_modify_eq, List.getElem?_eq_getElem hk]
  rfl

theorem State.awaitUnit_threads {k : Nat} {x : CoreUnit} : CoresShow CoreSt.threads (s.awaitUnit p k x) s := by
  unfold State.awaitUnit
  extract_lets c n
  clear_value n
  have h : CoresShow CoreSt.threads (s.waitUntil (s.issueAt p k x)) s := fun q => State.waitUntil_threads s _ q
  refine CoresShow.trans (CoresShow.onCore ?_) h
  exact fun _ => rfl

theorem State.rotate_threads {k : Nat} : CoresShow CoreSt.threads (s.rotate p k) s := by
  unfold State.rotate
  exact .ite (.refl _ _) (.onCore fun _ => rfl)

theorem State.occupy_threads {k n : Nat} {x : CoreUnit} : CoresShow CoreSt.threads (s.occupy p k x n) s :=
  .onCore fun _ => rfl

theorem State.beginLine_threads {c y : Nat} : CoresShow CoreSt.threads (s.beginLine p c y) s := .onCore fun _ => rfl

/-- The issue of an operation leaves of the core's threads all but the thread's own line and wait. -/
theorem State.issueOp_threads {k line : Nat} : ((s.issueOp p k line).core p).threads =
    (s.core p).threads.modify k fun h => { h with runLine := line, wait := .none } := by
  unfold State.issueOp State.runOn
  rw [State.occupy_threads p, State.beginLine_threads p, (CoresShow.of_frame State.setThreadState_frame : CoresShow CoreSt.threads _ _) p,
    State.onThread_threads, State.rotate_threads p, State.awaitUnit_threads p]

/-- A thread that has issued an operation does not wait. -/
theorem State.issueOp_wait {k line : Nat} (hk : k < ((s.issueOp p k line).core p).threads.length) :
    (((s.issueOp p k line).core p).threads.getD k {}).wait = .none := by
  rw [State.issueOp_threads, List.length_modify] at hk
  rw [State.issueOp_threads, List.getD_eq_getElem?_getD, List.getElem?_modify_eq, List.getElem?_eq_getElem hk]
  rfl

theorem State.awaitUnit_now {k : Nat} {x : CoreUnit} : (s.awaitUnit p k x).now = max s.now (s.issueAt p k x) :=
  s.waitUntil_now _

/-- An operation issues once its thread's place in the issue unit is free (R164). -/
theorem State.issueOp_now {k line : Nat} : (s.issueOp p k line).now = max s.now (s.issueAt p k (.issue k)) := by
  have h1 : ((s.awaitUnit p k (.issue k)).rotate p k).now = (s.awaitUnit p k (.issue k)).now := State.rotate_frame.keeps .now
  have h2 (y : State) : (y.runOn p k line).now = y.now := State.runOn_frame.keeps .now
  have h3 (y : State) : (y.occupy p k (.issue k) 1).now = y.now := State.occupy_frame.keeps .now
  rw [State.issueOp, h3, h2, h1, State.awaitUnit_now]

/-! ### Signals -/

/-- A thread waits on no semaphore, an engine neither: a signal serves nobody. -/
theorem State.serveWaits_nobody {i : Nat} (ht : (s.core p).threads.all (fun h => h.wait == .none) = true)
    (he : (s.core p).eng.all (fun h => h.waitSem == none) = true) : s.serveWaits p i = s := by
  have hth (k : Nat) : ((s.core p).threads.getD k {}).wait ≠ .sem i := by
    rw [List.getD_eq_getElem?_getD]
    cases hk : (s.core p).threads[k]? with
    | none => simp
    | some h =>
      have := List.all_eq_true.1 ht h (List.mem_of_getElem? hk)
      simp_all
  have heng (k : Nat) : ((s.core p).eng.getD k {}).waitSem ≠ some i := by
    rw [List.getD_eq_getElem?_getD]
    cases hk : (s.core p).eng[k]? with
    | none => simp
    | some h =>
      have := List.all_eq_true.1 he h (List.mem_of_getElem? hk)
      simp_all
  unfold State.serveWaits
  extract_lets threads
  have h1 : threads = s := List.foldl_fixed' (fun k => if_neg fun h => hth k h.1) _
  clear_value threads
  subst h1
  exact List.foldl_fixed' (fun k => if_neg fun h => heng k h.1) _

/-- A signal that nobody waits for raises COUNT below CAP, and otherwise counts in OVERFLOWS. -/
theorem State.bumpSem_spec {i : Nat} {it : Item} (hnow : tookNow (s.core p) s.now i = [])
    (ht : (s.core p).threads.all (fun h => h.wait == .none) = true) (he : (s.core p).eng.all (fun h => h.waitSem == none) = true) :
    SameBut (s.bumpSem p i it) s [.regs, .cores] ∧
    if s.getF (F.CORE_SEM_COUNT p i) < s.getF (F.CORE_SEM_CAP p i) then
      (s.bumpSem p i it).getF (F.CORE_SEM_COUNT p i) = (s.getF (F.CORE_SEM_COUNT p i) + 1) % 2 ^ 7
    else (s.bumpSem p i it).getF (F.CORE_SEM_COUNT p i) = s.getF (F.CORE_SEM_COUNT p i) ∧
      (s.bumpSem p i it).getF (F.CORE_SEM_ERR_OVERFLOWS p) = satAdd 16 (s.getF (F.CORE_SEM_ERR_OVERFLOWS p)) 1 := by
  refine ⟨State.bumpSem_frame, ?_⟩
  unfold State.bumpSem
  extract_lets c
  rw [hnow, List.length_nil, Nat.add_zero]
  split
  · rw [State.serveWaits_nobody]
    · exact State.getF_setF_self _ _ _
    · rw [State.core_onCore_self]
      split <;> exact ht
    · rw [State.core_onCore_self]
      split <;> exact he
  · exact ⟨State.getF_incF_ne _ _ (by simp [Fld.key, F.CORE_SEM_COUNT, F.CORE_SEM_ERR_OVERFLOWS]; omega), State.getF_incF_self _ _ _⟩

/-- A signal of an empty semaphore, or to one without DEBT, counts. -/
theorem State.signalAt_plain {i : Nat} {it : Item} (h : s.getF (F.CORE_SEM_KIND p i) ≠ 0 ∨ s.getF (F.CORE_SEM_DEBT p i) = 0) :
    s.signalAt p i it = s.bumpSem p i it := by
  unfold State.signalAt
  exact if_neg fun hc => h.elim (fun hk => hk hc.1) fun hd => absurd hc.2 (by omega)

theorem State.getF_wrapF_self (f : Fld) (n : Nat) : (s.wrapF f n).getF f = (s.getF f + n) % 2 ^ f.w :=
  SMap.get_set_self _ _ _ _

end

end Sys2Proof.Machine

namespace Sys2Proof
set_option Elab.async false
open Sys2Proof.Machine

/-- Settles O24: a wait takes a unit or holds its thread, a signal raises COUNT or overflows and sets out by its path's length, and a
tile holds or passes its thread. -/
theorem semaphoresAndTilesGateThreads : Obligations.SemaphoresAndTilesGateThreads := by
  unfold Obligations.SemaphoresAndTilesGateThreads
  refine ⟨?take, ?hold, ?arrive, ?sent, ?pass, ?await, ?consume, ?place⟩
  case take =>
    intro s v p t line i hp ht hi hmay hv hpos
    have hpend : v.pending = s.pending := hv ▸ State.issueOp_frame.keeps .pending
    refine Completes.of_act (t := s.threadWait p t line i) rfl (by simp [Instr.wf, hp, ht, hi]) fun w => ?_
    have h : s.threadWait p t line i = v.semTake p t i (s.isLineThread p t) := by
      unfold State.threadWait
      rw [if_neg (by simp [hmay]), ← hv]
      exact if_pos hpos
    rw [h]
    have hfields : SameFields (v.semTake p t i (s.isLineThread p t)) (v.setF (F.CORE_SEM_COUNT p i) (v.getF (F.CORE_SEM_COUNT p i) - 1))
        fun _ => False := (SameFields.onCore _ _ _ _).trans (SameFields.of_frame State.takeItem_frame)
    have hframe : SameBut (v.semTake p t i (s.isLineThread p t)) v [.regs, .cores] := State.semTake_frame
    generalize v.semTake p t i (s.isLineThread p t) = u at *
    exact ⟨hframe.endedAfter ((hframe.keeps .pending).trans hpend) w, (hfields _ id).trans (State.getF_setF_self _ _ _),
      (hfields.mono fun _ => False.elim).trans (SameFields.setIn List.mem_cons_self)⟩
  case hold =>
    intro s v p t line i hp ht hi hmay hv hzero hlast hlen
    have hpend : v.pending = s.pending := hv ▸ State.issueOp_frame.keeps .pending
    refine Completes.of_act (t := s.threadWait p t line i) rfl (by simp [Instr.wf, hp, ht, hi]) fun w => ?_
    have h : s.threadWait p t line i = v.setWait p t (.sem i) := by
      unfold State.threadWait
      rw [if_neg (by simp [hmay]), ← hv]
      dsimp only
      rw [if_neg (by omega), hlast]
    rw [h]
    have hframe : SameBut (v.setWait p t (.sem i)) v [.regs, .cores] := State.setWait_frame
    have hwait := State.setWait_wait (w := .sem i) hlen
    have hfields := State.setWait_among (s := v) (p := p) (k := t) (w := .sem i)
    generalize v.setWait p t (.sem i) = u at *
    exact ⟨hframe.endedAfter ((hframe.keeps .pending).trans hpend) w, hwait, hfields⟩
  case arrive =>
    intro s v n p g hok hg hbeats hfirst hv hp hnow hth heng hplain
    refine Completes.of_act (t := s.signalArrive n) rfl rfl fun w => ?_
    have h : s.signalArrive n = ({ v with signals := s.signals.eraseIdx n } : State).bumpSem p g.sem g.item := by
      unfold State.signalArrive
      rw [hg]
      dsimp only
      rw [if_neg (by simp [hbeats, hfirst]), ← hv]
      have hphys : ({ v with signals := s.signals.eraseIdx n } : State).phys g.core = p := hp.symm
      rw [hphys]
      exact State.signalAt_plain hplain
    obtain ⟨hframe, hcount⟩ := State.bumpSem_spec (s := { v with signals := s.signals.eraseIdx n }) (p := p) (i := g.sem) (it := g.item)
      hnow hth heng
    have hvnow : v.now = max s.now g.due := hv ▸ s.waitUntil_now _
    rw [h]
    generalize State.bumpSem _ p g.sem g.item = u at *
    exact ⟨(hframe.keeps .now).trans hvnow, hframe.keeps .signals, hcount⟩
  case sent =>
    intro s v p t line dst sem hok hmay hv
    refine Completes.of_act (t := s.threadSignal p t line dst sem) rfl hok fun w => ?_
    have hsig : v.signals = s.signals := hv ▸ State.issueOp_frame.keeps .signals
    have hfab : v.fab = s.fab := hv ▸ State.issueOp_frame.keeps .fab
    have hfields : SameFields v s (WithTimeOr [F.CORE_THREAD_STATE p]) := hv ▸ State.issueOp_fields List.mem_cons_self
    have hphys : v.phys dst = s.phys dst :=
      State.phys_of (fun b => hfields _ (idleSlot_not_withTime b)) (congrArg FabSt.handovers hfab) dst
    have h : s.threadSignal p t line dst sem = v.sendSignal p t dst sem
        { void := s.voidFor p dst line, src := (s.logical p).getD 0, line := line } := by
      unfold State.threadSignal
      rw [if_neg (by simp [hmay]), hv]
    rw [h]
    refine ⟨rfl, _, congrArg (· ++ _) hsig, rfl, rfl, ?_⟩
    exact congrArg (fun d => v.now + if d = p then 0 else if bandOf d = bandOf p then 4 else 20) hphys
  case pass =>
    intro s v p t line e hp ht he hmay hv hne hlen
    have hpend : v.pending = s.pending := hv ▸ State.issueOp_frame.keeps .pending
    refine Completes.of_act (t := s.awaitTile p t line e) rfl (by simp [Instr.wf, hp, ht, he]) fun w => ?_
    have h : s.awaitTile p t line e = v := by
      unfold State.awaitTile
      rw [if_neg (by simp [hmay]), ← hv]
      exact if_neg hne
    rw [h]
    exact ⟨(SameBut.refl _ _).endedAfter hpend w, by subst hv; exact State.issueOp_wait hlen⟩
  case await =>
    intro s v p t line e hp ht he hmay hv heq hlen
    have hpend : v.pending = s.pending := hv ▸ State.issueOp_frame.keeps .pending
    refine Completes.of_act (t := s.awaitTile p t line e) rfl (by simp [Instr.wf, hp, ht, he]) fun w => ?_
    have h : s.awaitTile p t line e = v.setWait p t (.tile e) := by
      unfold State.awaitTile
      rw [if_neg (by simp [hmay]), ← hv]
      exact if_pos heq
    rw [h]
    have hframe : SameBut (v.setWait p t (.tile e)) v [.regs, .cores] := State.setWait_frame
    have hwait := State.setWait_wait (w := .tile e) hlen
    have hfields := State.setWait_among (s := v) (p := p) (k := t) (w := .tile e)
    generalize v.setWait p t (.tile e) = u at *
    exact ⟨hframe.endedAfter ((hframe.keeps .pending).trans hpend) w, hwait, hfields⟩
  case consume =>
    intro s v p t line e hp ht he hmay hv
    have hpend : v.pending = s.pending := hv ▸ State.issueOp_frame.keeps .pending
    refine Completes.of_act (t := s.consumeTile p t line e) rfl (by simp [Instr.wf, hp, ht, he]) fun w => ?_
    have h : s.consumeTile p t line e = v.wrapF (F.ENG_TILES_CONSUMED (coreEng p e)) 1 := by
      unfold State.consumeTile
      rw [if_neg (by simp [hmay]), hv]
    rw [h]
    exact ⟨State.wrapF_frame.endedAfter hpend w, State.getF_wrapF_self _ _, SameFields.wrapIn List.mem_cons_self⟩
  case place =>
    intro s v p t line hp ht hv
    subst hv
    exact ⟨State.issueOp_now, State.issueOp_frame⟩

end Sys2Proof


namespace Sys2Proof.Machine
set_option Elab.async false

/-! ## Bytes that move: the registers and the engines that a move of bytes leaves alone -/

section
variable {s t u : State} {P : Nat → Prop} {f : Fld}

/-! ### Fields by the offset of their register in its block of 64 KiB -/

/-- The offset of a field's register is one of those that `P` names. -/
def AtOffset (P : Nat → Prop) (f : Fld) : Prop := P (f.key / 32 % 0x10000)

theorem Fld.key_div (hlo : f.lo < 32) : f.key / 32 = f.addr := by
  unfold Fld.key
  omega

theorem AtOffset.of_key {g : Fld} (h : P (f.addr % 0x10000)) (e : g.key = f.key) (hlo : f.lo < 32) : AtOffset P g := by
  unfold AtOffset
  rwa [e, Fld.key_div hlo]

theorem not_atOffset (h : ¬ P (f.addr % 0x10000)) (hlo : f.lo < 32 := by decide) : ¬ AtOffset P f := by
  unfold AtOffset
  rwa [Fld.key_div hlo]

theorem SameFields.setAt {v : Nat} (h : P (f.addr % 0x10000)) (l : Nat) (hl : f.lo = l := by rfl) (hlo : l < 32 := by decide) :
    SameFields (s.setF f v) s (AtOffset P) := SameFields.setF fun _ e => .of_key h e (hl ▸ hlo)

theorem SameFields.incAt {v : Nat} (h : P (f.addr % 0x10000)) (l : Nat) (hl : f.lo = l := by rfl) (hlo : l < 32 := by decide) :
    SameFields (s.incF f v) s (AtOffset P) := SameFields.incF fun _ e => .of_key h e (hl ▸ hlo)

/-- Time changes fields at the offsets of the stall counters and the ECC counts. -/
theorem WithTime.atOffset (h : WithTime f) (hP : ∀ o ∈ timeOffsets, P o) : AtOffset P f := hP _ h.offset

/-! ### What is shown of the engines -/

/-- `v` shows the same of every engine in `t` and in `s`. -/
def EngsShow {β : Type} (v : Eng → β) (t s : State) : Prop := ∀ g, v (t.eng g) = v (s.eng g)

section
variable {β : Type} {v : Eng → β}

theorem EngsShow.refl (s : State) : EngsShow v s s := fun _ => rfl

theorem EngsShow.trans (h1 : EngsShow v u t) (h2 : EngsShow v t s) : EngsShow v u s := fun g => (h1 g).trans (h2 g)

theorem SameEngs.engsShow (h : SameEngs t s) : EngsShow v t s := fun g => congrArg v (h.eng g)

theorem EngsShow.of_frame {ps : List Part} (h : SameBut t s ps) (hp : .cores ∉ ps ∧ .bands ∉ ps := by decide) : EngsShow v t s :=
  (SameEngs.of_frame h hp).engsShow

theorem EngsShow.ite {c : Prop} [Decidable c] {a b : State} (ha : EngsShow v a s) (hb : EngsShow v b s) :
    EngsShow v (if c then a else b) s := by
  split <;> assumption

theorem EngsShow.foldl {α : Type} {h : State → α → State} {l : List α} (x : State) (hh : ∀ y a, EngsShow v (h y a) y) :
    EngsShow v (l.foldl h x) x := by
  induction l generalizing x with
  | nil => exact .refl x
  | cons a l ih => exact (ih (h x a)).trans (hh x a)

/-- An engine of a list of engines where one is changed as `v` does not show. -/
theorem getD_modify_shows {l : List Eng} {e k : Nat} {f : Eng → Eng} (hf : ∀ x, v (f x) = v x) :
    v ((l.modify e f).getD k {}) = v (l.getD k {}) := by
  rw [List.getD_eq_getElem?_getD, List.getD_eq_getElem?_getD, List.getElem?_modify]
  split <;> cases l[k]? <;> simp [hf]

/-- A change of an engine that `v` does not show. -/
theorem EngsShow.onEng {g : EngId} {f : Eng → Eng} (hf : ∀ x, v (f x) = v x) : EngsShow v (s.onEng g f) s := by
  intro k
  cases g with
  | core p e =>
    cases k with
    | core q i =>
      exact CoresShow.onCore (v := fun c : CoreSt => v (c.eng.getD i {})) (g := fun c => { c with eng := c.eng.modify e f })
        (fun c => getD_modify_shows hf) q
    | band b i => rfl
  | band b e =>
    cases k with
    | core q i => rfl
    | band q i =>
      exact BandsShow.onBand (v := fun c : BandSt => v (c.eng.getD i {})) (g := fun c => { c with eng := c.eng.modify e f })
        (fun c => getD_modify_shows hf) q

end

/-! ### The words that a write meets and the move of a transfer's bytes (R207, R235) -/

/-- The offsets of the fields that a move of bytes may change: the ECC counts and ZC_ERR. -/
def MoveOffset (o : Nat) : Prop := o ∈ 0x64 :: timeOffsets

theorem timeOffset_moves : ∀ o ∈ timeOffsets, MoveOffset o := fun _ h => List.mem_cons_of_mem _ h

theorem State.lsMerge_moves {b : Nat} {ws ce ue : List Nat} : SameFields (s.lsMerge b ws ce ue) s (AtOffset MoveOffset) := by
  have h := State.lsMerge_fields s (9 * b) ws ce ue
  rw [show bandOf (9 * b) = b by simp [bandOf]] at h
  exact h.mono fun _ hf => hf.atOffset timeOffset_moves

theorem State.mergeEcc_moves {place q a n : Nat} {ce ue : List Nat} :
    SameFields (s.mergeEcc place q a n ce ue) s (AtOffset MoveOffset) :=
  .ite ((State.spadMerge_fields _ _ _ _ _).mono fun _ hf => hf.atOffset timeOffset_moves) (.ite State.lsMerge_moves (.refl _ _))

theorem State.mergeEcc_engs {place q a n : Nat} {ce ue : List Nat} : SameEngs (s.mergeEcc place q a n ce ue) s := by
  refine .ite State.spadMerge_shows.engs (.ite ?_ (.refl s))
  exact State.lsMerge_shows.engs

theorem State.writeBack_moves {place q a : Nat} {bs : List Byte} {e : EccIn} :
    SameFields (s.writeBack place q a bs e) s (AtOffset MoveOffset) := by
  have h : SameFields ((s.mergeEcc place q a bs.length e.ce e.ue).writeMem place q a bs) s (AtOffset MoveOffset) :=
    (State.writeMem_fields _).trans State.mergeEcc_moves
  exact .ite ((SameFields.onCore _ _ _ _).trans h) h

theorem State.writeMem_engs {place q a : Nat} {bs : List Byte} : SameEngs (s.writeMem place q a bs) s :=
  .ite .onCore (.ite .onBand (.ite (.refl s) (.of_parts rfl rfl)))

theorem State.writeBack_engs {place q a : Nat} {bs : List Byte} {e : EccIn} : SameEngs (s.writeBack place q a bs e) s := by
  have h : SameEngs ((s.mergeEcc place q a bs.length e.ce e.ue).writeMem place q a bs) s := State.writeMem_engs.trans State.mergeEcc_engs
  exact .ite (SameEngs.trans .onCore h) h

theorem State.unpackBlock_moves {g : EngId} {sr dr : Prn} {du : Nat} {d : Desc} {b i blk : Nat} {e : EccIn} :
    SameFields (s.unpackBlock g sr dr du d b i blk e) s (AtOffset MoveOffset) := by
  refine .foldl (.refl _ _) fun y j => .ite (.refl _ _) (State.writeBack_moves.trans ?_)
  cases g with
  | core p e =>
    refine .incAt ?_ 0
    rw [show (F.CORE_ZC_ZC_ERR p).addr % 0x10000 = 0x64 by simp only [F.CORE_ZC_ZC_ERR]; omega]
    exact List.mem_cons_self
  | band b e => exact .refl _ _

theorem State.unpackBlock_engs {g : EngId} {sr dr : Prn} {du : Nat} {d : Desc} {b i blk : Nat} {e : EccIn} :
    SameEngs (s.unpackBlock g sr dr du d b i blk e) s := by
  refine .foldl s fun y j => .ite (.refl y) (State.writeBack_engs.trans ?_)
  cases g with
  | core p e => exact .of_frame State.incF_frame
  | band b e => exact .refl y

/-- The move of a transfer's bytes changes no register but the counts of what it meets. -/
theorem State.moveXfer_moves {g : EngId} {d : Desc} {b k : Nat} {sr dr : Prn} {du : Nat} {e : EccIn} :
    SameFields (s.moveXfer g d b k sr dr du e) s (AtOffset MoveOffset) :=
  .ite (.ite (.ite State.writeBack_moves State.writeBack_moves) (.ite (.refl _ _) State.unpackBlock_moves))
    (.foldl (.refl _ _) fun _ _ => State.writeBack_moves)

theorem State.moveXfer_engs {g : EngId} {d : Desc} {b k : Nat} {sr dr : Prn} {du : Nat} {e : EccIn} :
    SameEngs (s.moveXfer g d b k sr dr du e) s :=
  .ite (.ite (.ite State.writeBack_engs State.writeBack_engs) (.ite (.refl s) State.unpackBlock_engs))
    (.foldl s fun _ _ => State.writeBack_engs)

/-! ### Background turns (R201) -/

theorem State.bgTurn_frame' {p : Nat} {rs : List (Nat × Nat)} {busy : Bool} : SameBut (s.bgTurn p rs busy).1 s [.cores] := State.bgTurn_frame

theorem State.bgTurn_engs {p : Nat} {rs : List (Nat × Nat)} {busy : Bool} : SameEngs (s.bgTurn p rs busy).1 s := by
  unfold State.bgTurn
  cases rs with
  | nil => exact .refl s
  | cons r rs =>
    dsimp only
    split
    · exact .onCore
    · exact .onCore

end

end Sys2Proof.Machine


namespace Sys2Proof.Machine
set_option Elab.async false

/-! ## Multicasts and remote transfers (R262, R266, R277) -/

section
variable {s t : State} {g : EngId}

theorem State.xferDesc_engs (h : SameEngs t s) (idx : Nat) : t.xferDesc g idx = s.xferDesc g idx := by
  unfold State.xferDesc
  rw [h.eng]

theorem State.waitUntil_engs (n : Nat) : SameEngs (s.waitUntil n) s := (s.waitUntil_shows n).engs

/-- Time leaves the register that counts late transfers alone. -/
theorem lateRw_not_withTime (p : Nat) : ¬ WithTime (F.CORE_RWIN_LATE_RW p) := not_withTime_core p 0xE4 0

theorem lateRw_not_moved (p : Nat) : ¬ AtOffset MoveOffset (F.CORE_RWIN_LATE_RW p) := by
  refine not_atOffset ?_ (by simp only [F.CORE_RWIN_LATE_RW]; decide)
  rw [show (F.CORE_RWIN_LATE_RW p).addr % 0x10000 = 0xE4 by simp only [F.CORE_RWIN_LATE_RW]; omega]
  unfold MoveOffset
  decide

/-- The logical core as which an engine sends (R266, log entry 91). -/
def State.sender (s : State) : EngId → Nat
  | .core q _ => (s.logical q).getD 0
  | .band b _ => 8 * b

/-- The transfer comes from another core than its owner. -/
def comesFrom (p : Nat) : EngId → Bool
  | .core q _ => q != p
  | .band _ _ => true

/-- A remote transfer at a window closed to another core counts as late, and otherwise it does not (R266). -/
theorem State.arriveAt_late {r : ListRun} {idx k l p : Nat} {d : Desc} {e : EccIn} {closed role : Bool} (hp : (s.dstPrn g d l).2 = p)
    (hw : s.windowClosed p d.dst (s.sender g) r.tagFrame r.tag = (closed, role)) :
    (s.arriveAt g r idx k d l e).getF (F.CORE_RWIN_LATE_RW p) =
      if (closed && comesFrom p g) = true then satAdd 16 (s.getF (F.CORE_RWIN_LATE_RW p)) 1
      else s.getF (F.CORE_RWIN_LATE_RW p) := by
  have hmoved : (s.moveXfer g d r.base k (s.xferSrc g idx k d.src) (s.dstPrn g d l).1 (s.dstPrn g d l).2 e).getF
      (F.CORE_RWIN_LATE_RW p) = s.getF (F.CORE_RWIN_LATE_RW p) := State.moveXfer_moves _ (lateRw_not_moved p)
  have hlate (me w : Nat) : ((s.incF (F.CORE_RWIN_LATE_RW p) 1).setFs [(F.CORE_RWIN_LATE_SRC p, me), (F.CORE_RWIN_LATE_ROLE p, w)]).getF
      (F.CORE_RWIN_LATE_RW p) = satAdd 16 (s.getF (F.CORE_RWIN_LATE_RW p)) 1 := by
    refine (SameFields.setsIn (List.Subset.refl _) (F.CORE_RWIN_LATE_RW p) ?_).trans (State.getF_incF_self _ _ _)
    simp [Among, Fld.key, F.CORE_RWIN_LATE_SRC, F.CORE_RWIN_LATE_ROLE, F.CORE_RWIN_LATE_RW]
  unfold State.arriveAt
  dsimp only
  rw [hp] at hmoved ⊢
  cases g with
  | core q e' =>
    by_cases hq : q = p
    · simp only [comesFrom, hq, bne_self_eq_false, Bool.and_false, Bool.false_eq_true, if_false, beq_self_eq_true, if_true] at hmoved ⊢
      exact hmoved
    · have hne : (q == p) = false := by simpa using hq
      simp only [State.sender] at hw
      simp only [comesFrom, hne, Bool.false_eq_true, if_false, hw, bne, Bool.not_false, Bool.and_true]
      split
      · refine (State.getF_onEng _ _).trans ((State.getF_incF_ne _ _ ?_).trans (hlate _ _))
        simp only [Fld.key, F.CORE_RWIN_LATE_RW, F.CORE_RWIN_NACK_NACKS]
        omega
      · exact hmoved
  | band b e' =>
    simp only [State.sender] at hw
    simp only [comesFrom, Bool.false_eq_true, if_false, hw, Bool.and_true]
    split
    · exact (State.getF_onEng _ _).trans (hlate _ _)
    · exact hmoved

/-- The network after the first multicast's acceptance: the next ones follow. -/
def State.mcastsOn (s : State) (m : Mcast) (ms : List Mcast) : State :=
  { s with fab := { s.fab with mcBusy := max m.due s.now, mcasts := mcastDues (max m.due s.now) ms } }

/-- A multicast whose source reads correct and whose banks serve it is accepted at its targets (R277). -/
theorem State.mcastAccepted_taken {v : State} {m : Mcast} {ms : List Mcast} {r : ListRun} {dr : DescRun} {d : Desc} {q : State × Bool}
    (hm : s.fab.mcasts = m :: ms)
    (hbad : ((s.xferDesc m.eng m.desc).bind fun x => s.sourceBad m.eng (Desc.parse x.2.bytes) x.1.base m.desc m.k) = none)
    (hv : v = s.waitUntil m.due) (hx : v.xferDesc m.eng m.desc = some (r, dr)) (hd : d = Desc.parse dr.bytes)
    (hq : q = (v.mcastTargets d).foldl (fun (a : State × Bool) l =>
      ((a.1.bgTurn (a.1.phys l) (a.1.remoteWrites m.eng d r.base m.desc m.k l) false).1,
        a.2 && (a.1.bgTurn (a.1.phys l) (a.1.remoteWrites m.eng d r.base m.desc m.k l) false).2)) (v, true)) (hq2 : q.2 = true) :
    SameBut s.mcastAccepted (q.1.mcastsOn m ms) [.regs, .dram, .dramBad, .cores, .bands] := by
  have hacc : s.mcastAccepted = (((q.1.mcastsOn m ms).mcastTargets d).foldl
      (fun a l => a.arriveAt m.eng r m.desc m.k d l {}) (q.1.mcastsOn m ms)).accepted m.eng m.desc m.k := by
    unfold State.mcastAccepted
    rw [hm]
    dsimp only
    rw [if_neg (by simp [hbad]), ← hv, hx]
    dsimp only
    rw [← hd, ← hq, if_neg (by simp [hq2])]
    rfl
  rw [hacc]
  exact (State.accepted_frame.mono (by decide)).trans (SameBut.foldl (SameBut.refl _ _) fun y l => State.arriveAt_frame.mono (by decide))

/-- A multicast whose list is gone is dropped. -/
theorem State.mcastAccepted_gone {m : Mcast} {ms : List Mcast} (hm : s.fab.mcasts = m :: ms) (hx : s.xferDesc m.eng m.desc = none) :
    s.mcastAccepted = { s.waitUntil m.due with fab := { (s.waitUntil m.due).fab with mcBusy := m.due, mcasts := ms } } := by
  unfold State.mcastAccepted
  rw [hm]
  dsimp only
  rw [if_neg (by simp [hx]), State.xferDesc_engs (s.waitUntil_engs m.due), hx]

/-- A remote transfer whose list is gone leaves the network. -/
theorem State.remoteArrival_gone {n : Nat} {m : Remote} {e : EccIn} {busy : Bool} (hm : s.remotes[n]? = some m)
    (hx : s.xferDesc m.eng m.desc = none) : s.remoteArrival ⟨n, e, busy⟩ = { s with remotes := s.remotes.eraseIdx n } := by
  unfold State.remoteArrival
  dsimp only
  rw [hm]
  dsimp only
  rw [hx]

/-- The network after a remote transfer's arrival: its slot is taken in this cycle. -/
def State.slotTaken (q s : State) (n p now : Nat) : State :=
  { q with remotes := s.remotes.eraseIdx n, fab := { s.fab with inFree := SMap.set 0 s.fab.inFree p (now + 1) } }

/-- A remote transfer arrives once its slot and the banks are free (R262). -/
theorem State.remoteArrival_taken {v : State} {n due : Nat} {e : EccIn} {busy : Bool} {m : Remote} {r : ListRun} {dr : DescRun} {d : Desc}
    {q : State × Bool} (hm : s.remotes[n]? = some m) (hx : s.xferDesc m.eng m.desc = some (r, dr)) (hd : d = Desc.parse dr.bytes)
    (hbeats : m.beats = 0)
    (hdue : due = max (max m.due ((((s.eng m.eng).outst.find? fun t => t.desc == m.desc && t.k == m.k).map (·.after)).getD 0))
      (SMap.get 0 s.fab.inFree (s.phys m.dst)))
    (hold : olderRemote s.remotes n m.dst (max s.now due) = false) (hbad : s.sourceBad m.eng d r.base m.desc m.k = none)
    (hv : v = s.waitUntil due) (hq : q = v.bgTurn (s.phys m.dst) (v.remoteWrites m.eng d r.base m.desc m.k m.dst) busy)
    (hq2 : q.2 = true) :
    s.remoteArrival ⟨n, e, busy⟩ =
      ((q.1.slotTaken s n (s.phys m.dst) v.now).arriveAt m.eng r m.desc m.k d m.dst e).accepted m.eng m.desc m.k := by
  have hq1 : SameBut q.1 v [.cores] := hq ▸ State.bgTurn_frame
  have hv1 : SameBut v s [.now, .cal, .regs, .cores, .bands] := hv ▸ State.waitUntil_frame
  have hstate : ({ q.1 with remotes := q.1.remotes.eraseIdx n
                            fab := { q.1.fab with inFree := SMap.set 0 q.1.fab.inFree (s.phys m.dst) (q.1.now + 1) } } : State) =
      q.1.slotTaken s n (s.phys m.dst) v.now := by
    have h1 : q.1.remotes = s.remotes := (hq1.keeps .remotes).trans (hv1.keeps .remotes)
    have h2 : q.1.fab = s.fab := (hq1.keeps .fab).trans (hv1.keeps .fab)
    have h3 : q.1.now = v.now := hq1.keeps .now
    unfold State.slotTaken
    dsimp only
    rw [h1, h2, h3]
  unfold State.remoteArrival
  dsimp only
  rw [hm]
  dsimp only
  rw [hx]
  dsimp only
  rw [← hd, ← hdue, if_neg (by simp [hbeats, hold, hbad]), ← hv, ← hq, if_neg (by simp [hq2]), hstate]

/-! ### Barriers (R278) -/

/-- ROLE is no field that time or a core's thread changes. -/
theorem role_not_withTime (p q : Nat) : ¬ WithTimeOr [F.CORE_THREAD_STATE p] (F.CORE_IDENT_ROLE q) := by
  rintro (h | h)
  · exact not_withTime_core q 0 24 rfl rfl (by decide) (by decide) (by decide) h
  · simp [Among, Fld.key, F.CORE_THREAD_STATE, F.CORE_IDENT_ROLE] at h
    omega

theorem State.barrierMembers_of {p : Nat} (hf : SameFields t s (WithTimeOr [F.CORE_THREAD_STATE p])) (hfab : t.fab = s.fab)
    (hp : t.pstate = s.pstate) (hsched : t.sched = s.sched) (g : Nat) : t.barrierMembers g = s.barrierMembers g := by
  have hphys (l : Nat) : t.phys l = s.phys l :=
    State.phys_of (fun b => hf _ (idleSlot_not_withTime b)) (congrArg FabSt.handovers hfab) l
  have hrole (l : Nat) : t.role (t.phys l) = s.role (s.phys l) := by
    rw [hphys]
    exact hf _ (role_not_withTime p _)
  simp only [State.barrierMembers, State.nCores, hp, hsched, hrole]

/-- A member's arrival, none having been made for it: it adds an arrival, and the last of them times the barrier. -/
theorem State.arriveBarrier_spec {l k : Nat} (hahead : SMap.get 0 (SMap.get {} s.fab.barriers k).ahead l = 0) :
    SameBut (s.arriveBarrier l k) s [.fab] ∧
    SMap.get 0 (SMap.get {} (s.arriveBarrier l k).fab.barriers k).arrived l = SMap.get 0 (SMap.get {} s.fab.barriers k).arrived l + 1 ∧
    ((∀ m ∈ s.barrierMembers k, m ≠ l → SMap.get 0 (SMap.get {} s.fab.barriers k).arrived m ≠ 0) →
      (SMap.get {} (s.arriveBarrier l k).fab.barriers k).lastAt = some ((SMap.get {} s.fab.barriers k).lastAt.getD s.now)) := by
  have hb : SMap.get {} (s.arriveBarrier l k).fab.barriers k =
      barrierWith (SMap.get {} s.fab.barriers k) (s.barrierMembers k) s.now l := by
    unfold State.arriveBarrier
    dsimp only
    rw [if_pos hahead, SMap.get_set_self]
  refine ⟨State.arriveBarrier_frame, ?_, fun hall => ?_⟩
  · rw [hb, barrierWith]
    dsimp only
    exact SMap.get_set_self _ _ _ _
  · rw [hb, barrierWith]
    refine if_pos (List.all_eq_true.2 fun m hm => ?_)
    by_cases hml : m = l
    · rw [hml, SMap.get_set_self]
      simp
    · rw [SMap.get_set_ne _ _ _ _ hml]
      simpa using hall m hm hml

/-- A frame-clause thread of a member arrives; where its clause's run has failed it does not wait. -/
theorem State.barrierArrive_eq {v : State} {p k line l n : Nat} (hl : s.logical p = some l) (hmay : s.mayIssue p k line = true)
    (hline : s.isLineThread p k = false) (hbit : bit (s.sched.barriers.getD n 0) l = true) (hv : v = s.issueOp p k line) :
    s.barrierArrive p k line n =
      if (match (s.threadClause p k).bind s.sched.fcIndex with
        | some i => (((s.fc.getD i {}).run.map (·.failed)).getD false)
        | none => false) = true then v.arriveBarrier l n else (v.arriveBarrier l n).setWait p k (.barrier n) := by
  unfold State.barrierArrive
  rw [hl]
  dsimp only
  rw [if_neg (by rw [hmay, hline, hbit]; decide), hv] <;> rfl

/-- One arrival of each member is used up. -/
theorem barrierNext_arrived {b : BarrierSt} {members : List Nat} {now m : Nat} (hnd : members.Nodup) (hm : m ∈ members) :
    SMap.get 0 (barrierNext b members now).arrived m = SMap.get 0 b.arrived m - 1 := by
  have hout (l : List Nat) : ∀ a : SMap Nat, m ∉ l →
      SMap.get 0 (l.foldl (fun a m => SMap.set 0 a m (SMap.get 0 a m - 1)) a) m = SMap.get 0 a m := by
    induction l with
    | nil => exact fun _ _ => rfl
    | cons x l ih =>
      intro a ha
      rw [List.mem_cons, not_or] at ha
      rw [List.foldl_cons, ih _ ha.2, SMap.get_set_ne _ _ _ _ ha.1]
  have hin (l : List Nat) : ∀ a : SMap Nat, l.Nodup → m ∈ l →
      SMap.get 0 (l.foldl (fun a m => SMap.set 0 a m (SMap.get 0 a m - 1)) a) m = SMap.get 0 a m - 1 := by
    induction l with
    | nil => exact fun _ _ h => absurd h (by simp)
    | cons x l ih =>
      intro a hnd hmem
      rw [List.nodup_cons] at hnd
      rw [List.foldl_cons]
      rcases List.mem_cons.1 hmem with rfl | hml
      · rw [hout l _ hnd.1, SMap.get_set_self]
      · have hne : m ≠ x := fun e => hnd.1 (e ▸ hml)
        rw [ih _ hnd.2 hml, SMap.get_set_ne _ _ _ _ hne]
  exact hin members b.arrived hnd hm

/-- Thread `k` of core `p` does not wait at barrier group `n`. -/
def OffBarrier (p k n : Nat) (s : State) : Prop := ((s.core p).threads.getD k {}).wait ≠ .barrier n

theorem State.setWait_threads {p k : Nat} {w : Wait} : CoresShow CoreSt.threads (s.setWait p k w) (s.onThread p k fun h => { h with wait := w }) :=
  .ite ((CoresShow.each _ fun y _ => .ite (.refl _ y) (.of_frame State.setThreadState_frame)).trans
    (.of_frame State.setThreadState_frame)) (.of_frame State.setThreadState_frame)

/-- A thread that is freed waits at no barrier. -/
theorem OffBarrier.freed {p k n : Nat} : OffBarrier p k n (s.setWait p k .none) := by
  unfold OffBarrier
  rw [State.setWait_threads p, State.onThread_threads, List.getD_eq_getElem?_getD, List.getElem?_modify_eq]
  cases (s.core p).threads[k]? <;> simp

theorem OffBarrier.setWait {p k n q j : Nat} (h : OffBarrier p k n s) : OffBarrier p k n (s.setWait q j .none) := by
  by_cases hq : p = q
  · subst hq
    by_cases hj : k = j
    · subst hj
      exact .freed
    · unfold OffBarrier at *
      rwa [State.setWait_threads p, State.onThread_threads, List.getD_eq_getElem?_getD, List.getElem?_modify_ne _ _ (Ne.symm hj),
        ← List.getD_eq_getElem?_getD]
  · unfold OffBarrier at *
    rwa [State.setWait_threads p, State.onThread, State.core_onCore_ne _ _ hq]

/-- Every member's threads that wait at the barrier go on. -/
def State.barrierFrees (s : State) (ms : List Nat) (n : Nat) : State :=
  ms.foldl (fun s l => s.each 4 fun s t =>
    if ((s.core (s.phys l)).threads.getD t {}).wait = .barrier n then s.setWait (s.phys l) t .none else s) s

theorem State.barrierFrees_frame {ms : List Nat} {n : Nat} : SameBut (s.barrierFrees ms n) s [.regs, .cores] :=
  SameBut.foldl (SameBut.refl _ _) fun y l => SameBut.each (SameBut.refl _ _) fun z k =>
    SameBut.ite State.setWait_frame (SameBut.refl _ _)

/-- The fields of the barriers' count and of the bands' slot maps are no thread's STATE. -/
theorem State.barrierFrees_fields {ms : List Nat} {n : Nat} {f : Fld} (hf : ∀ p, ¬ Among [F.CORE_THREAD_STATE p] f) :
    (s.barrierFrees ms n).getF f = s.getF f :=
  foldl_same (fun y : State => y.getF f) ms (fun y l => foldl_same (fun y : State => y.getF f) (List.range 4) (fun z k => by
    split
    · exact State.setWait_among _ (hf _)
    · rfl) y) s

theorem State.barrierFrees_off {ms : List Nat} {n l k : Nat} (hl : l ∈ ms) (hk : k < 4) : OffBarrier (s.phys l) k n (s.barrierFrees ms n) := by
  have hidle (b p : Nat) : ¬ Among [F.CORE_THREAD_STATE p] (F.BAND_SLOTMAP_IDLE_SLOT b) := fun h => idleSlot_not_withTime (p := p) b (Or.inr h)
  have hstep (y : State) (m j : Nat) (hy : y.phys l = s.phys l) : (if ((y.core (y.phys m)).threads.getD j {}).wait = .barrier n then
      y.setWait (y.phys m) j .none else y).phys l = s.phys l := by
    split
    · exact (State.phys_of (fun b => State.setWait_among _ (hidle b _))
        (congrArg FabSt.handovers (State.setWait_frame.keeps .fab)) l).trans hy
    · exact hy
  have hkept (y : State) (m j : Nat) (hy : OffBarrier (s.phys l) k n y) : OffBarrier (s.phys l) k n
      (if ((y.core (y.phys m)).threads.getD j {}).wait = .barrier n then y.setWait (y.phys m) j .none else y) := by
    split
    · exact hy.setWait
    · exact hy
  refine foldl_reaches (fun y => y.phys l = s.phys l) (OffBarrier (s.phys l) k n) hl rfl ?_ ?_ ?_
  · exact fun y m hy => each_inv (fun y => y.phys l = s.phys l) hy 4 fun z j hz => hstep z m j hz
  · intro y hy
    refine each_reaches (fun y => y.phys l = s.phys l) (OffBarrier (s.phys l) k n) hk hy (fun z j hz => hstep z l j hz) ?_
      fun z j _ hz => hkept z l j hz
    intro z hz
    rw [hz]
    split
    · exact .freed
    · next h => exact h
  · exact fun y m _ hy => each_inv (OffBarrier (s.phys l) k n) hy 4 fun z j hz => hkept z m j hz

end

end Sys2Proof.Machine

namespace Sys2Proof
set_option Elab.async false
open Sys2Proof.Machine

/-- Settles O25: the network takes the first multicast and the transfers whose slot is free, and barriers count their members'
arrivals. -/
theorem fabricTransfersArriveAndBarriersComplete : Obligations.FabricTransfersArriveAndBarriersComplete := by
  unfold Obligations.FabricTransfersArriveAndBarriersComplete
  refine ⟨?taken, ?dropped, ?gone, ?arrives, ?waits, ?failed, ?complete⟩
  case taken =>
    intro s v m ms r dr d q hm hbad hv hx hd hq hq2
    refine Completes.of_op (t := s.mcastAccepted) rfl fun w => ?_
    have h := State.mcastAccepted_taken hm hbad hv hx hd hq hq2
    have hqv : q.1.now = v.now := by
      have hframe : SameBut q.1 v [.cores] := by
        rw [hq]
        exact SameBut.foldl_fst (SameBut.refl _ _) fun a l => State.bgTurn_frame
      exact hframe.keeps .now
    have hvnow : v.now = max s.now m.due := hv ▸ s.waitUntil_now _
    have hmax : max m.due q.1.now = v.now := by omega
    generalize s.mcastAccepted = t at *
    have hnow : t.now = v.now := (h.keeps .now).trans hqv
    have hfab : t.fab = (q.1.mcastsOn m ms).fab := h.keeps .fab
    have hfab1 : (q.1.mcastsOn m ms).fab.mcasts = mcastDues (max m.due q.1.now) ms := rfl
    have hfab2 : (q.1.mcastsOn m ms).fab.mcBusy = max m.due q.1.now := rfl
    refine ⟨hnow.trans hvnow, ?_, ?_⟩
    · show t.fab.mcasts = mcastDues t.now ms
      rw [hfab, hfab1, hmax, hnow]
    · show t.fab.mcBusy = t.now
      rw [hfab, hfab2, hmax, hnow]
  case dropped =>
    intro s m ms hm hx
    refine Completes.of_op (t := s.mcastAccepted) rfl fun w => ?_
    have hnow := s.waitUntil_now m.due
    have hfab : (s.waitUntil m.due).fab = s.fab := State.waitUntil_frame.keeps .fab
    rw [State.mcastAccepted_gone hm hx]
    generalize s.waitUntil m.due = x at *
    exact ⟨hnow, congrArg (fun y : FabSt => { y with mcBusy := m.due, mcasts := ms }) hfab⟩
  case gone =>
    intro s n m e busy hm hx
    refine Completes.of_op (t := s.remoteArrival ⟨n, e, busy⟩) rfl fun w => ?_
    rw [State.remoteArrival_gone hm hx]
    exact ⟨fun p hp => by cases p <;> first | with_reducible rfl | exact absurd (by decide) hp, rfl⟩
  case arrives =>
    intro s v u n due p e busy m r dr d q closed role hm hx hd hbeats hdue hold hbad hv hq hq2 hu hp hw
    refine Completes.of_op (t := s.remoteArrival ⟨n, e, busy⟩) rfl fun w => ?_
    rw [State.remoteArrival_taken hm hx hd hbeats hdue hold hbad hv hq hq2]
    have hslot : q.1.slotTaken s n (s.phys m.dst) v.now = u := hu.symm
    rw [hslot]
    have hq1 : SameBut q.1 v [.cores] := hq ▸ State.bgTurn_frame
    have hvnow : v.now = max s.now due := hv ▸ s.waitUntil_now _
    have hvf : SameFields v s WithTime := hv ▸ s.waitUntil_fields _
    have hunow : u.now = v.now := hslot ▸ hq1.keeps .now
    have hurem : u.remotes = s.remotes.eraseIdx n := by rw [← hslot]; rfl
    have huf : u.getF (F.CORE_RWIN_LATE_RW p) = s.getF (F.CORE_RWIN_LATE_RW p) := by
      rw [← hslot]
      exact (SameFields.of_frame (ok := fun _ => False) hq1 (by decide) _ id).trans (hvf _ (lateRw_not_withTime p))
    have hlate := State.arriveAt_late (r := r) (idx := m.desc) (k := m.k) (e := e) (closed := closed) (role := role) hp.symm
      (by cases hg : m.eng <;> rw [hg] at hw <;> exact hw)
    have hframe : SameBut ((u.arriveAt m.eng r m.desc m.k d m.dst e).accepted m.eng m.desc m.k) u _ :=
      (State.accepted_frame.mono (by decide)).trans State.arriveAt_frame
    have hacc : ((u.arriveAt m.eng r m.desc m.k d m.dst e).accepted m.eng m.desc m.k).getF (F.CORE_RWIN_LATE_RW p) =
        (u.arriveAt m.eng r m.desc m.k d m.dst e).getF (F.CORE_RWIN_LATE_RW p) := State.getF_onEng _ _
    rw [huf] at hlate
    generalize (u.arriveAt m.eng r m.desc m.k d m.dst e).accepted m.eng m.desc m.k = t at *
    refine ⟨(hframe.keeps .now).trans (hunow.trans hvnow), (hframe.keeps .remotes).trans hurem, hacc.trans (hlate.trans ?_)⟩
    cases m.eng <;> rfl
  case waits =>
    intro s v p t line g l b hp ht hg hl hmay hline hbit hfail hlen hv hb hahead
    refine Completes.of_act (t := s.barrierArrive p t line g) rfl (by simp [Instr.wf, hp, ht, hg]) fun w => ?_
    have hvframe : SameBut v s [.now, .cal, .regs, .cores, .bands] := hv ▸ State.issueOp_frame
    have hvf : SameFields v s (WithTimeOr [F.CORE_THREAD_STATE p]) := hv ▸ State.issueOp_fields List.mem_cons_self
    have hvfab : v.fab = s.fab := hvframe.keeps .fab
    have hmem := State.barrierMembers_of hvf hvfab (hvframe.keeps .pstate) (hvframe.keeps .sched) g
    have hlen' : t < (v.core p).threads.length := by
      rw [hv, State.issueOp_threads, List.length_modify]
      exact hlen
    have hno : ¬ (match (s.threadClause p t).bind s.sched.fcIndex with
        | some i => (((s.fc.getD i {}).run.map (·.failed)).getD false)
        | none => false) = true := by
      split
      · next i hi => rw [hfail i hi]; decide
      · simp
    have hspec := State.arriveBarrier_spec (s := v) (l := l) (k := g) (by rw [hvfab, ← hb]; exact hahead)
    rw [State.barrierArrive_eq hl hmay hline hbit hv, if_neg hno]
    rw [hvfab, hmem, ← hb] at hspec
    obtain ⟨hframe, harr, hlast⟩ := hspec
    generalize v.arriveBarrier l g = x at *
    have hcore : x.core p = v.core p := CoresShow.of_frame (v := id) hframe (by decide) p
    have hwait := State.setWait_wait (s := x) (p := p) (w := .barrier g) (by rw [hcore]; exact hlen')
    have hset : SameBut (x.setWait p t (.barrier g)) x [.regs, .cores] := State.setWait_frame
    generalize x.setWait p t (.barrier g) = u at *
    have hufab : u.fab = x.fab := hset.keeps .fab
    refine ⟨(hset.keeps .now).trans (hframe.keeps .now), hwait, ?_, ?_⟩
    · show SMap.get 0 (SMap.get {} u.fab.barriers g).arrived l = _
      rw [hufab]
      exact harr
    · intro hall
      show (SMap.get {} u.fab.barriers g).lastAt = _
      rw [hufab]
      exact hlast hall
  case failed =>
    intro s v p t line g l i b hp ht hg hl hmay hline hbit hi hfail hv hb hahead
    refine Completes.of_act (t := s.barrierArrive p t line g) rfl (by simp [Instr.wf, hp, ht, hg]) fun w => ?_
    have hvfab : v.fab = s.fab := hv ▸ State.issueOp_frame.keeps .fab
    obtain ⟨hframe, harr, -⟩ := State.arriveBarrier_spec (s := v) (l := l) (k := g) (by rw [hvfab, ← hb]; exact hahead)
    rw [State.barrierArrive_eq hl hmay hline hbit hv, if_pos (by rw [hi]; exact hfail)]
    rw [hvfab, ← hb] at harr
    generalize v.arriveBarrier l g = u at *
    exact ⟨hframe.keeps .cores, hframe.keeps .now, harr⟩
  case complete =>
    intro s g at_ hg hlast
    refine Completes.of_act (t := s.barrierComplete g) rfl (by simp [Instr.wf, hg]) fun w => ?_
    have hb : s.barrierComplete g =
        (let s2 := (s.waitUntil (at_ + 18 + 4 * clog2 (s.barrierMembers g).length)).barrierFrees (s.barrierMembers g) g
        let b := barrierNext (SMap.get ({} : BarrierSt) s2.fab.barriers g) (s.barrierMembers g) s2.now
        ({ s2 with fab := { s2.fab with barriers := SMap.set ({} : BarrierSt) s2.fab.barriers g b } } : State).incF
          F.FAB_BARRIERS_BARRIERS 1) := by
      unfold State.barrierComplete
      rw [hlast]
      rfl
    have hx := s.waitUntil_now (at_ + 18 + 4 * clog2 (s.barrierMembers g).length)
    have hxf := s.waitUntil_fields (at_ + 18 + 4 * clog2 (s.barrierMembers g).length)
    have hxfab : (s.waitUntil (at_ + 18 + 4 * clog2 (s.barrierMembers g).length)).fab = s.fab := State.waitUntil_frame.keeps .fab
    rw [hb]
    clear hb
    generalize s.waitUntil (at_ + 18 + 4 * clog2 (s.barrierMembers g).length) = x at *
    have hphys (l : Nat) : x.phys l = s.phys l :=
      State.phys_of (fun b => hxf _ fun h => idleSlot_not_withTime (p := 0) b (Or.inl h)) (congrArg FabSt.handovers hxfab) l
    have hframe : SameBut (x.barrierFrees (s.barrierMembers g) g) x [.regs, .cores] := State.barrierFrees_frame
    have hoff (l : Nat) (hl : l ∈ s.barrierMembers g) (k : Nat) (hk : k < 4) :
        OffBarrier (s.phys l) k g (x.barrierFrees (s.barrierMembers g) g) := hphys l ▸ State.barrierFrees_off hl hk
    have hcount : (x.barrierFrees (s.barrierMembers g) g).getF F.FAB_BARRIERS_BARRIERS = s.getF F.FAB_BARRIERS_BARRIERS :=
      (State.barrierFrees_fields fun p h => by
        simp [Among, Fld.key, F.CORE_THREAD_STATE, F.FAB_BARRIERS_BARRIERS] at h; omega).trans (hxf _ (not_withTime_low))
    generalize x.barrierFrees (s.barrierMembers g) g = y at *
    have hyfab : y.fab = s.fab := (hframe.keeps .fab).trans hxfab
    dsimp only
    refine ⟨(hframe.keeps .now).trans hx, fun m hm => ?_, hoff, ?_⟩
    · refine (congrArg (fun b : BarrierSt => SMap.get 0 b.arrived m) (SMap.get_set_self _ _ _ _)).trans ?_
      rw [hyfab]
      exact barrierNext_arrived (List.Nodup.filter _ List.nodup_range) hm
    · exact (State.getF_incF_self _ _ _).trans (congrArg (satAdd 32 · 1) hcount)

end Sys2Proof


namespace Sys2Proof.Machine
set_option Elab.async false

/-! ## Transfers of a stream engine: what their accesses and their completion leave alone (R207, R222, R238) -/

section
variable {s t u : State} {P : Nat → Prop} {f : Fld} {g : EngId}

theorem SameFields.wrapAt {n : Nat} (h : P (f.addr % 0x10000)) (l : Nat) (hl : f.lo = l := by rfl) (hlo : l < 32 := by decide) :
    SameFields (s.wrapF f n) s (AtOffset P) :=
  (SameFields.wrapIn (List.mem_singleton_self f)).mono fun _ hg => .of_key h (List.mem_singleton.1 hg) (hl ▸ hlo)

theorem SameFields.uncountAt {n : Nat} (h : P (f.addr % 0x10000)) (l : Nat) (hl : f.lo = l := by rfl) (hlo : l < 32 := by decide) :
    SameFields (s.uncountF f n) s (AtOffset P) :=
  (SameFields.uncountIn (List.mem_singleton_self f)).mono fun _ hg => .of_key h (List.mem_singleton.1 hg) (hl ▸ hlo)

theorem SameFields.offsets {Q : Nat → Prop} (h : SameFields t s (AtOffset P)) (hPQ : ∀ o, P o → Q o) : SameFields t s (AtOffset Q) :=
  h.mono fun _ hf => hPQ _ hf

/-! ### Reads with ECC (R209, R222) -/

/-- The offsets of the fields that reads with ECC may change: the counts and the map-out queues' lengths. -/
def EccOffset (o : Nat) : Prop := o ∈ 0x18 :: 0x9C :: timeOffsets

theorem WithTimeOr.eccOffset {fs : List Fld} (h : WithTimeOr fs f) (hfs : ∀ f ∈ fs, f.lo < 32 ∧ EccOffset (f.addr % 0x10000)) :
    AtOffset EccOffset f := by
  rcases h with h | h
  · exact h.atOffset fun o ho => List.mem_cons_of_mem _ (List.mem_cons_of_mem _ ho)
  · obtain ⟨x, hx, e⟩ := List.mem_map.1 h
    exact .of_key (hfs x hx).2 e.symm (hfs x hx).1

theorem State.lsRead_offsets {b : Nat} {ws ce ue : List Nat} : SameFields (s.lsRead b ws ce ue).1 s (AtOffset EccOffset) := by
  refine State.lsRead_fields.mono fun f hf => hf.eccOffset fun x hx => ?_
  rw [List.mem_singleton.1 hx, show (F.BAND_LS_MAP_QUEUED b).addr % 0x10000 = 0x18 by simp only [F.BAND_LS_MAP_QUEUED]; omega]
  exact ⟨Nat.le_of_ble_eq_true rfl, List.mem_cons_self⟩

theorem State.setLsMap_engs {b : Nat} {m : MapOut} : SameEngs (s.setLsMap b m) s := SameEngs.trans (.of_frame State.setF_frame) .onBand

theorem State.lsRead_engs {b : Nat} {ws ce ue : List Nat} : SameEngs (s.lsRead b ws ce ue).1 s := by
  unfold State.lsRead
  dsimp only
  refine (SameEngs.foldl _ fun y w => State.setLsMap_engs.trans (SameEngs.trans .onBand (.of_frame State.incF_frame))).trans ?_
  exact .ite (.refl s) ((SameEngs.foldl _ fun _ _ => State.setLsMap_engs).trans (.of_frame State.incF_frame))

theorem State.spadLast_offsets {p w n : Nat} : SameFields (s.spadLast p w n) s (AtOffset EccOffset) :=
  (State.spadLast_fields s p w n).mono fun _ hf => WithTimeOr.eccOffset (fs := []) (Or.inl hf) (by simp)

theorem State.setSpadMap_offsets {p : Nat} {m : MapOut} : SameFields (s.setSpadMap p m) s (AtOffset EccOffset) := by
  refine SameFields.trans (.setAt ?_ 8) (SameFields.onCore _ _ _ _)
  rw [show (F.CORE_SPAD_MAP_QUEUED p).addr % 0x10000 = 0x9C by simp only [F.CORE_SPAD_MAP_QUEUED]; omega]
  exact List.mem_cons_of_mem _ List.mem_cons_self

theorem State.spadRead_offsets {p : Nat} {ws : List Nat} {e : EccIn} : SameFields (s.spadRead p ws e).1 s (AtOffset EccOffset) := by
  have hecc : EccOffset ((F.CORE_SPAD_ECC_CORRECTED p).addr % 0x10000) := by
    rw [show (F.CORE_SPAD_ECC_CORRECTED p).addr % 0x10000 = 0x90 by simp only [F.CORE_SPAD_ECC_CORRECTED]; omega]
    unfold EccOffset
    decide
  refine .foldl (.ite (.refl _ _) ?_) fun y w => ?_
  · exact .foldl (.foldl (.refl _ _) fun y w => State.spadLast_offsets.trans (.incAt hecc 0)) fun _ _ => State.setSpadMap_offsets
  · exact State.setSpadMap_offsets.trans ((SameFields.onCore _ _ _ _).trans (State.spadLast_offsets.trans (.incAt hecc 16)))

theorem State.setSpadMap_engs {p : Nat} {m : MapOut} : SameEngs (s.setSpadMap p m) s := SameEngs.trans (.of_frame State.setF_frame) .onCore

theorem State.spadRead_engs {p : Nat} {ws : List Nat} {e : EccIn} : SameEngs (s.spadRead p ws e).1 s := by
  unfold State.spadRead
  dsimp only
  refine (SameEngs.foldl _ fun y w => State.setSpadMap_engs.trans (SameEngs.trans .onCore
    ((SameEngs.of_frame State.spadLast_frame).trans (.of_frame State.incF_frame)))).trans (.ite (.refl s) ?_)
  exact (SameEngs.foldl _ fun _ _ => State.setSpadMap_engs).trans
    (.foldl s fun _ _ => (SameEngs.of_frame State.spadLast_frame).trans (.of_frame State.incF_frame))

/-- The ECC of an engine's source changes counts and map-out queues alone. -/
theorem State.srcEcc_spec {place : Nat} {rs : List (Nat × Nat)} {e : EccIn} :
    SameFields (s.srcEcc g place rs e).1 s (AtOffset EccOffset) ∧ SameEngs (s.srcEcc g place rs e).1 s := by
  have href : SameFields s s (AtOffset EccOffset) ∧ SameEngs s s := ⟨.refl _ _, .refl s⟩
  unfold State.srcEcc
  cases g with
  | core p k =>
    dsimp only
    split
    · exact ⟨State.spadRead_offsets, State.spadRead_engs⟩
    · split
      · exact ⟨State.lsRead_offsets, State.lsRead_engs⟩
      · exact href
  | band b k =>
    dsimp only
    split
    · exact ⟨State.lsRead_offsets, State.lsRead_engs⟩
    · exact href

/-- The turn of a transfer's accesses leaves every engine as it stands. -/
theorem State.xferTurn_engs {reads writes : Nat × List (Nat × Nat)} {w : CoreIn} : SameEngs (s.xferTurn g reads writes w).1 s := by
  have hserved (b q : Nat) (rs : List (Nat × Nat)) : SameEngs (s.lsServed b q rs) s :=
    .onBand fun c => by unfold lsServe; dsimp only; split <;> rfl
  unfold State.xferTurn
  extract_lets part s1
  have h1 : SameEngs s1 s := .ite (.refl s) (hserved _ _ _)
  clear_value s1 part
  rw [apply_ite Prod.fst]
  refine .ite (.refl s) ?_
  cases g with
  | core p k => exact State.bgTurn_engs.trans h1
  | band b k => exact h1

/-! ### The end of a transfer (R238) -/

/-- The offsets of the registers that the end of a transfer may change beside ENG_XFERS: those of its engine's other registers, of its
unit's counts and of its core's threads. -/
def OffXfers (o : Nat) : Prop := o < 0x100 ∨ o % 0x20 ≠ 0x1C

theorem xfers_offset (g : EngId) (hok : g.ok = true) : ¬ AtOffset OffXfers (F.ENG_XFERS_XFERS g.regs) := by
  refine not_atOffset ?_ (by simp only [F.ENG_XFERS_XFERS]; decide)
  unfold OffXfers
  cases g with
  | core p e =>
    simp only [EngId.ok, Bool.and_eq_true, decide_eq_true_eq] at hok
    simp only [F.ENG_XFERS_XFERS, EngId.regs, coreEng]
    omega
  | band b e =>
    simp only [EngId.ok, Bool.and_eq_true, decide_eq_true_eq] at hok
    simp only [F.ENG_XFERS_XFERS, EngId.regs, bandEng]
    omega

/-- A register of an engine other than ENG_XFERS. -/
theorem engReg_offXfers (g : EngId) (k : Nat) (hf : f.addr = g.regs + k := by rfl) (hk : k < 0x1C := by decide) :
    OffXfers (f.addr % 0x10000) := by
  unfold OffXfers
  rw [hf]
  cases g with
  | core p e => simp only [EngId.regs, coreEng]; omega
  | band b e => simp only [EngId.regs, bandEng]; omega

theorem eccOffset_offXfers : ∀ o, EccOffset o → OffXfers o := by
  intro o ho
  simp only [EccOffset, timeOffsets, List.mem_cons, List.not_mem_nil, or_false] at ho
  unfold OffXfers
  omega

theorem moveOffset_offXfers : ∀ o, MoveOffset o → OffXfers o := by
  intro o ho
  simp only [MoveOffset, timeOffsets, List.mem_cons, List.not_mem_nil, or_false] at ho
  unfold OffXfers
  omega

/-- What the end of a transfer keeps: ENG_XFERS and every engine's outstanding transfers. -/
def KeepsXfers (t s : State) : Prop := SameFields t s (AtOffset OffXfers) ∧ EngsShow Eng.outst t s

theorem KeepsXfers.refl (s : State) : KeepsXfers s s := ⟨SameFields.refl s _, EngsShow.refl s⟩

theorem KeepsXfers.trans (h1 : KeepsXfers u t) (h2 : KeepsXfers t s) : KeepsXfers u s := ⟨h1.1.trans h2.1, h1.2.trans h2.2⟩

theorem KeepsXfers.ite {c : Prop} [Decidable c] {a b : State} (ha : KeepsXfers a s) (hb : KeepsXfers b s) :
    KeepsXfers (if c then a else b) s := by
  split <;> assumption

theorem KeepsXfers.foldl {α : Type} {h : State → α → State} {l : List α} (x : State) (hh : ∀ y a, KeepsXfers (h y a) y) :
    KeepsXfers (l.foldl h x) x := ⟨.foldl (SameFields.refl x _) fun y a => (hh y a).1, .foldl x fun y a => (hh y a).2⟩

theorem KeepsXfers.of_frame {ps : List Part} (h : SameBut t s ps) (hp : .regs ∉ ps ∧ .cores ∉ ps ∧ .bands ∉ ps := by decide) :
    KeepsXfers t s := ⟨.of_frame h hp.1, .of_frame h hp.2⟩

theorem KeepsXfers.of_engs {ps : List Part} (h : SameBut t s ps) (he : SameEngs t s) (hp : .regs ∉ ps := by decide) : KeepsXfers t s :=
  ⟨.of_frame h hp, he.engsShow⟩

theorem KeepsXfers.setF {v : Nat} (h : OffXfers (f.addr % 0x10000)) (l : Nat) (hl : f.lo = l := by rfl) (hlo : l < 32 := by decide) :
    KeepsXfers (s.setF f v) s := ⟨.setAt h l hl hlo, .of_frame State.setF_frame⟩

theorem KeepsXfers.incF {v : Nat} (h : OffXfers (f.addr % 0x10000)) (l : Nat) (hl : f.lo = l := by rfl) (hlo : l < 32 := by decide) :
    KeepsXfers (s.incF f v) s := ⟨.incAt h l hl hlo, .of_frame State.incF_frame⟩

theorem KeepsXfers.onEng {h : Eng → Eng} (hh : ∀ x, (h x).outst = x.outst := by intro _; rfl) : KeepsXfers (s.onEng g h) s :=
  ⟨.of_frame State.onEng_frame, .onEng hh⟩

theorem State.moveXfer_keepsXfers {d : Desc} {b k : Nat} {sr dr : Prn} {du : Nat} {e : EccIn} :
    KeepsXfers (s.moveXfer g d b k sr dr du e) s :=
  ⟨State.moveXfer_moves.offsets moveOffset_offXfers, State.moveXfer_engs.engsShow⟩

theorem State.freeTiles_keepsXfers {p e : Nat} : KeepsXfers (s.freeTiles p e) s := by
  refine ⟨(State.freeTiles_fields (fs := [F.CORE_THREAD_STATE p]) List.mem_cons_self).mono fun f hf => ?_, State.freeTiles_engs.engsShow⟩
  rcases hf with hf | hf
  · refine hf.atOffset fun o ho => eccOffset_offXfers o (List.mem_cons_of_mem _ (List.mem_cons_of_mem _ ho))
  · refine .of_key (f := F.CORE_THREAD_STATE p) ?_ (List.mem_singleton.1 hf) (Nat.le_of_ble_eq_true rfl)
    simp only [F.CORE_THREAD_STATE, OffXfers]
    omega

theorem State.lsRelease_keepsXfers {b y : Nat} {r : Prn} : KeepsXfers (s.lsRelease b r y) s := by
  have hset (x : State) (a : Nat) (k : Slot) : KeepsXfers (x.setSlot b a k) x := .of_engs State.setSlot_frame .onBand
  have hcheck (x : State) (a : Nat) : KeepsXfers (x.slotCheck b a) x := .ite (hset _ _ _) (.refl x)
  refine .ite ((hcheck _ _).trans (hset _ _ _)) (.incF ?_ 0)
  simp only [F.BAND_LS_REF_REF_ERR, OffXfers]
  omega

theorem State.lsMark_keepsXfers {b y : Nat} {r : Prn} : KeepsXfers (s.lsMark b r y) s := by
  have hset (x : State) (a : Nat) (k : Slot) : KeepsXfers (x.setSlot b a k) x := .of_engs State.setSlot_frame .onBand
  have hcheck (x : State) (a : Nat) : KeepsXfers (x.slotCheck b a) x := .ite (hset _ _ _) (.refl x)
  exact (hcheck _ _).trans (hset _ _ _)

theorem State.releaseLines_keepsXfers {r : Prn} {ys : List Nat} : KeepsXfers (s.releaseLines g r ys) s :=
  .ite (.foldl s fun _ _ => State.lsRelease_keepsXfers) (.refl s)

theorem State.listEnds_keepsXfers : KeepsXfers (s.listEnds g) s := by
  unfold State.listEnds
  extract_lets x s1
  have h1 : KeepsXfers s1 s := .ite ⟨.uncountAt (engReg_offXfers g 0x14) 16, .of_frame State.uncountF_frame⟩ (.refl s)
  clear_value s1
  exact (KeepsXfers.setF (engReg_offXfers g 4) 0).trans (KeepsXfers.trans .onEng h1)

theorem State.descComplete_keepsXfers {idx : Nat} : KeepsXfers (s.descComplete g idx) s := by
  unfold State.descComplete
  split
  · exact .refl s
  · next r _ =>
    split
    · exact .refl s
    · next dr _ =>
      extract_lets d s1 s2 buf
      have h1 : KeepsXfers s1 s := .ite (.refl s) (.of_frame State.descSignal_frame)
      have h2 : KeepsXfers s2 s := by
        have hwrap (y : State) : KeepsXfers (y.wrapF (F.ENG_TILES_LANDED g.regs) 1) y :=
          ⟨.wrapAt (engReg_offXfers g 0x18) 0, .of_frame State.wrapF_frame⟩
        have hserve (y : State) (p e : Nat) : KeepsXfers (y.serveTiles p e) y := .ite (.refl y) State.freeTiles_keepsXfers
        cases g with
        | core p e => exact .ite ((hserve _ _ _).trans ((hwrap _).trans h1)) h1
        | band b e => exact h1
      clear_value s2 buf
      exact .ite (State.listEnds_keepsXfers.trans h2) (KeepsXfers.trans .onEng h2)

theorem State.engStopped_keepsXfers : KeepsXfers (s.engStopped g) s := by
  unfold State.engStopped
  extract_lets x s1
  have h1 : KeepsXfers s1 s := (KeepsXfers.setF (engReg_offXfers g 4) 0).trans KeepsXfers.onEng
  clear_value s1
  exact .ite (.ite ((KeepsXfers.setF (engReg_offXfers g 0x18) 16).trans h1) h1) (.refl s)

theorem State.finishXfer_keepsXfers {r : ListRun} {idx k : Nat} {d : Desc} : KeepsXfers (s.finishXfer g r idx k d) s := by
  unfold State.finishXfer
  extract_lets sr n s1
  have h1 : KeepsXfers s1 s := KeepsXfers.onEng
  clear_value s1
  split
  · exact h1
  · next dr _ =>
    have ha : KeepsXfers (if d.lastRead then s1.releaseLines g sr [d.srcLine r.base (k / n)] else s1) s :=
      .ite (State.releaseLines_keepsXfers.trans h1) h1
    extract_lets s2
    have h2 : KeepsXfers s2 s := .ite (.ite (State.lsMark_keepsXfers.trans ha) ha) h1
    clear_value s2
    exact .ite (State.descComplete_keepsXfers.trans h2) h2

/-- A transfer that lands is no longer outstanding, and counts (R238). -/
theorem State.xferLand_spec {n : Nat} {x : Xfer} {r : ListRun} {d : Desc} {e : EccIn} (hok : g.ok = true) (hg : engineHere s g) :
    (s.xferLand g n x r d e).getF (F.ENG_XFERS_XFERS g.regs) = (s.getF (F.ENG_XFERS_XFERS g.regs) + 1) % 2 ^ 32 ∧
      ((s.xferLand g n x r d e).eng g).outst = (s.eng g).outst.eraseIdx n := by
  have hno := xfers_offset g hok
  unfold State.xferLand
  extract_lets sr0 sr dp s1 s2
  have h1 : SameFields s1 s (AtOffset OffXfers) := (SameFields.setAt (engReg_offXfers g 4) 3).trans (SameFields.of_frame State.onEng_frame)
  have ho1 : (s1.eng g).outst = (s.eng g).outst.eraseIdx n :=
    (congrArg Eng.outst (State.eng_setF _ _)).trans (congrArg Eng.outst (State.eng_onEng_self hg))
  clear_value s1
  have h2 : s2.getF (F.ENG_XFERS_XFERS g.regs) = (s.getF (F.ENG_XFERS_XFERS g.regs) + 1) % 2 ^ 32 ∧
      (s2.eng g).outst = (s.eng g).outst.eraseIdx n := by
    have hm : KeepsXfers (if x.remote then s1 else s1.moveXfer g d r.base x.k sr dp.1 (if dp.1.place = 2 then g.bandNo else dp.2) e) s1 :=
      .ite (.refl s1) State.moveXfer_keepsXfers
    refine ⟨(State.getF_wrapF_self _ _).trans (congrArg (fun v => (v + 1) % 2 ^ 32) ((hm.1 _ hno).trans (h1 _ hno))), ?_⟩
    exact (congrArg Eng.outst ((SameEngs.of_frame State.wrapF_frame).eng g)).trans ((hm.2 g).trans ho1)
  clear_value s2
  have h3 : KeepsXfers (if x.stale then s2.engStopped g else (s2.finishXfer g r x.desc x.k d).engStopped g) s2 :=
    .ite State.engStopped_keepsXfers (State.engStopped_keepsXfers.trans State.finishXfer_keepsXfers)
  exact ⟨(h3.1 _ hno).trans h2.1, (h3.2 g).trans h2.2⟩

end

end Sys2Proof.Machine


namespace Sys2Proof.Machine
set_option Elab.async false

/-! ## Descriptor bursts, issue and completion of transfers (R238, R243, R249, R250) -/

section
variable {s u : State} {g : EngId} {w : CoreIn} {r : ListRun} {dr : DescRun}

/-- The engine may read its list on: it runs, is not stopped, and its buffer has room (R238). -/
structure BurstReady (s : State) (g : EngId) (r : ListRun) : Prop where
  run : (s.eng g).run = some r
  state : s.getF (F.ENG_STATE_STATE g.regs) = 1
  stopping : (s.eng g).stopping = false
  band : s.bandStopped g.bandNo = false
  left : r.read < r.count
  room : r.buf.length ≤ 8

/-- The next burst of a list has its turn and its source is read with ECC, which leaves `u` (R238). -/
structure BurstRead (s u : State) (g : EngId) (r : ListRun) (w : CoreIn) (rs : List (Nat × Nat)) : Prop where
  ranges : rs = [((s.engPrn g r.prn).base + 32 * (r.first + r.read), 32 * min 8 (r.count - r.read))]
  turn : (s.xferTurn g ((s.engPrn g r.prn).place, rs) (0, []) w).2 = true
  ecc : u = ((s.xferTurn g ((s.engPrn g r.prn).place, rs) (0, []) w).1.srcEcc g (s.engPrn g r.prn).place rs w.ecc).1

theorem BurstRead.frame {rs : List (Nat × Nat)} (h : BurstRead s u g r w rs) : SameBut u s [.regs, .cores, .bands] := by
  obtain ⟨-, -, rfl⟩ := h
  exact State.srcEcc_frame.trans (State.xferTurn_frame.mono (by decide))

theorem BurstRead.engs {rs : List (Nat × Nat)} (h : BurstRead s u g r w rs) : SameEngs u s := by
  obtain ⟨-, -, rfl⟩ := h
  exact State.srcEcc_spec.2.trans State.xferTurn_engs

theorem BurstRead.fields {rs : List (Nat × Nat)} (h : BurstRead s u g r w rs) : SameFields u s (AtOffset EccOffset) := by
  obtain ⟨-, -, rfl⟩ := h
  exact State.srcEcc_spec.1.trans (.of_frame State.xferTurn_frame)

/-- The descriptors of a burst, as they stand in the list. -/
def State.burstDescs (u : State) (g : EngId) (place base : Nat) (r : ListRun) : List DescRun :=
  (List.range (min 8 (r.count - r.read))).map fun i =>
    { idx := r.read + i, bytes := u.readMem place (g.unit place) (base + 32 * (r.first + r.read) + 32 * i) 32 }

theorem BurstReady.continue (h : BurstReady s g r) : ¬ (s.getF (F.ENG_STATE_STATE g.regs) ≠ 1 ∨ (s.eng g).stopping = true ∨
    s.bandStopped g.bandNo = true ∨ r.count ≤ r.read ∨ 8 < (r.buf.filter fun d => !d.fin).length) := by
  obtain ⟨-, hst, hstop, hband, hleft, hroom⟩ := h
  have hlen := List.length_filter_le (fun d : DescRun => !d.fin) r.buf
  rw [hst, hstop, hband]
  simp
  omega

/-- A burst that reads correct joins the buffer. -/
theorem State.burstRead_joins {rs : List (Nat × Nat)} (h : BurstReady s g r) (hu : BurstRead s u g r w rs)
    (hgood : u.badRow (s.engPrn g r.prn).place (g.unit (s.engPrn g r.prn).place) rs = none) :
    s.burstRead g w = u.onEng g fun x => { x with run := some { r with
      read := r.read + min 8 (r.count - r.read)
      buf := r.buf ++ u.burstDescs g (s.engPrn g r.prn).place (s.engPrn g r.prn).base r } } := by
  obtain ⟨hrs, hturn, hecc⟩ := hu
  unfold State.burstRead
  dsimp only
  rw [h.run]
  dsimp only
  rw [if_neg h.continue, ← hrs, hturn, ← hecc, hgood]
  rfl

/-- A burst that meets an uncorrectable row halts the list with cause 4. -/
theorem State.burstRead_halts {rs : List (Nat × Nat)} {row : Nat} (h : BurstReady s g r) (hu : BurstRead s u g r w rs)
    (hbad : u.badRow (s.engPrn g r.prn).place (g.unit (s.engPrn g r.prn).place) rs = some row) :
    ∃ idx line xfer addr space k, s.burstRead g w = u.halt g 4 idx line xfer addr space k w := by
  obtain ⟨hrs, hturn, hecc⟩ := hu
  unfold State.burstRead
  dsimp only
  rw [h.run]
  dsimp only
  rw [if_neg h.continue, ← hrs, hturn, ← hecc, hbad]
  exact ⟨_, _, _, _, _, _, rfl⟩

/-! ### A halt of a frame-class list (R250) -/

/-- The offsets of a core's registers before its histograms and engines. -/
def CoreOffset (o : Nat) : Prop := o < 0x100

/-- Fault code 7 of a thread that runs no line is recorded, and nothing else happens. -/
theorem State.coreFault_frameClass {p t layer line : Nat} {owed : List Owed} (ht : s.isLineThread p t = false) :
    SameFields (s.coreFault p t layer line [7] owed) s (AtOffset CoreOffset) ∧ SameBut (s.coreFault p t layer line [7] owed) s [.regs] := by
  have hcode : (F.CORE_FAULT_CODE p).addr % 0x10000 < 0x100 := by simp only [F.CORE_FAULT_CODE]; omega
  have hat : (F.CORE_FAULT_AT_LINE p).addr % 0x10000 < 0x100 := by simp only [F.CORE_FAULT_AT_LINE]; omega
  generalize hu : s.coreFault p t layer line [7] owed = u
  unfold State.coreFault at hu
  dsimp -zeta only at hu
  extract_lets code isLine s1 clause k at hu
  have hl : isLine = false := ht
  have hno : ¬ isLine = true := by rw [hl]; exact Bool.false_ne_true
  have h1 : SameFields s1 s (AtOffset CoreOffset) :=
    (SameFields.incAt hcode 16).trans ((SameFields.setAt hat 16).trans ((SameFields.setAt hat 0).trans
      ((SameFields.setAt hcode 6).trans ((SameFields.setAt hcode 4).trans (SameFields.setAt hcode 0)))))
  have h2 : SameBut s1 s [.regs] := State.incF_frame.trans State.setFs_frame
  clear_value s1
  rw [if_neg fun h => hno h.1, if_neg hno, if_neg (by decide)] at hu
  exact hu ▸ ⟨h1, h2⟩

/-- A halted frame-class list shows its cause, counts, and is retried 4096 cycles later. -/
theorem State.halt_frameClass {p e cause idx line xfer addr space k : Nat} (hok : (EngId.core p e).ok = true)
    (hhere : engineHere s (.core p e)) (hrun : (s.eng (.core p e)).run = some r) (ht : s.isLineThread p r.thread = false)
    (hcause : cause < 16) :
    (s.halt (.core p e) cause idx line xfer addr space k w).now = s.now ∧
    (s.halt (.core p e) cause idx line xfer addr space k w).getF (F.ENG_STATE_HALT_CAUSE (coreEng p e)) = cause ∧
    (s.halt (.core p e) cause idx line xfer addr space k w).getF (F.ENG_CNT_HALTS (coreEng p e)) =
      satAdd 16 (s.getF (F.ENG_CNT_HALTS (coreEng p e))) 1 ∧
    (s.halt (.core p e) cause idx line xfer addr space k w).getF (F.ENG_STATE_STATE (coreEng p e)) = 2 ∧
    ((s.halt (.core p e) cause idx line xfer addr space k w).eng (.core p e)).retryAt = s.now + 4096 := by
  have hlow (o : Nat) (ho : o < 0x20) : ¬ CoreOffset ((coreEng p e + o) % 0x10000) := by
    simp only [EngId.ok, Bool.and_eq_true, decide_eq_true_eq] at hok
    simp only [CoreOffset, coreEng]
    omega
  generalize hu : s.halt (.core p e) cause idx line xfer addr space k w = u
  unfold State.halt at hu
  rw [hrun] at hu
  extract_lets a s1 s2 at hu
  have hnow : s1.now = s.now := (State.incF_frame.trans State.setFs_frame).keeps .now (by decide)
  have hc : s1.getF (F.ENG_STATE_HALT_CAUSE a) = cause := by
    refine (State.getF_incF_ne _ _ ?_).trans ((State.getF_setFs_at (i := 1) rfl ?_).trans (Nat.mod_eq_of_lt hcause)) <;>
      simp [Fld.key, F.ENG_STATE_HALT_CAUSE, F.ENG_CNT_HALTS, F.ENG_POS_DESC, F.ENG_POS_LINE, F.ENG_POS_XFER, F.ENG_FADDR_LO_ADDR_LO,
        F.ENG_FADDR_HI_ADDR_HI, F.ENG_FADDR_HI_SPACE] <;> omega
  have hs : s1.getF (F.ENG_STATE_STATE a) = 2 := by
    refine (State.getF_incF_ne _ _ ?_).trans ((State.getF_setFs_at (i := 0) rfl ?_).trans (show 2 % 2 ^ 2 = 2 from rfl)) <;>
      simp [Fld.key, F.ENG_STATE_STATE, F.ENG_CNT_HALTS, F.ENG_STATE_HALT_CAUSE, F.ENG_POS_DESC, F.ENG_POS_LINE, F.ENG_POS_XFER,
        F.ENG_FADDR_LO_ADDR_LO, F.ENG_FADDR_HI_ADDR_HI, F.ENG_FADDR_HI_SPACE] <;> omega
  have hh : s1.getF (F.ENG_CNT_HALTS a) = satAdd 16 (s.getF (F.ENG_CNT_HALTS a)) 1 :=
    (State.getF_incF_self _ _ _).trans (congrArg (satAdd 16 · 1) (State.getF_setFs_ne _ _ _ (by
      simp [Fld.key, F.ENG_CNT_HALTS, F.ENG_STATE_STATE, F.ENG_STATE_HALT_CAUSE, F.ENG_POS_DESC, F.ENG_POS_LINE,
        F.ENG_POS_XFER, F.ENG_FADDR_LO_ADDR_LO, F.ENG_FADDR_HI_ADDR_HI, F.ENG_FADDR_HI_SPACE]; omega)))
  have hlt : s1.getF (F.CORE_THREAD_LINE_THREADED p) = s.getF (F.CORE_THREAD_LINE_THREADED p) := by
    simp only [EngId.ok, Bool.and_eq_true, decide_eq_true_eq] at hok
    refine (State.getF_incF_ne _ _ ?_).trans (State.getF_setFs_ne _ _ _ ?_) <;>
      simp [a, EngId.regs, coreEng, Fld.key, F.CORE_THREAD_LINE_THREADED, F.ENG_CNT_HALTS, F.ENG_STATE_STATE, F.ENG_STATE_HALT_CAUSE,
        F.ENG_POS_DESC, F.ENG_POS_LINE, F.ENG_POS_XFER, F.ENG_FADDR_LO_ADDR_LO, F.ENG_FADDR_HI_ADDR_HI, F.ENG_FADDR_HI_SPACE] <;> omega
  have heng1 : SameEngs s1 s := .of_frame (State.incF_frame.trans State.setFs_frame)
  clear_value s1
  have hregs (f : Fld) : s2.getF f = s1.getF f := State.getF_onEng _ _
  have hr2 : (s2.eng (.core p e)).retryAt = s.now + 4096 := congrArg Eng.retryAt (State.eng_onEng_self (heng1.here hhere))
  have hn2 : s2.now = s.now := (State.onEng_frame.keeps .now).trans hnow
  clear_value s2
  obtain ⟨hf, hb⟩ := State.coreFault_frameClass (s := s2) (p := p) (t := r.thread) (layer := w.layer)
    (line := ((s.core p).threads.getD r.thread {}).runLine) (owed := w.owed)
    (by simpa only [State.isLineThread, hregs, hlt] using ht)
  rw [← hu]
  refine ⟨(hb.keeps .now).trans hn2, (hf _ (not_atOffset (hlow 4 (by decide)) (Nat.le_of_ble_eq_true rfl))).trans ((hregs _).trans hc),
    (hf _ (not_atOffset (hlow 0x14 (by decide)) (Nat.le_of_ble_eq_true rfl))).trans ((hregs _).trans hh),
    (hf _ (not_atOffset (hlow 4 (by decide)) (Nat.le_of_ble_eq_true rfl))).trans ((hregs _).trans hs),
    (congrArg Eng.retryAt ((SameEngs.of_frame hb).eng _)).trans hr2⟩

/-! ### Issue of a copy (R238, R243) -/

theorem State.issueXfer_full (h : 6 ≤ (s.eng g).outst.length) : s.issueXfer g = s := by
  unfold State.issueXfer
  dsimp only
  split
  · rfl
  · exact if_pos (Or.inr (Or.inr (Or.inr h)))

/-- The engine may issue: it runs, is not stopped, and has an outstanding place left (R238). -/
structure IssueReady (s : State) (g : EngId) (r : ListRun) (dr : DescRun) : Prop where
  next : s.nextXfer g = some (r, dr)
  state : s.getF (F.ENG_STATE_STATE g.regs) = 1
  stopping : (s.eng g).stopping = false
  band : s.bandStopped g.bandNo = false
  place : (s.eng g).outst.length < 6

theorem IssueReady.continue (h : IssueReady s g r dr) : ¬ (s.getF (F.ENG_STATE_STATE g.regs) ≠ 1 ∨ (s.eng g).stopping = true ∨
    s.bandStopped g.bandNo = true ∨ 6 ≤ (s.eng g).outst.length) := by
  obtain ⟨-, hst, hstop, hband, hplace⟩ := h
  rw [hst, hstop, hband]
  simp
  omega

/-- A descriptor whose semaphore counts 0, with no wait of this cycle to give way, waits. -/
theorem State.issueXfer_waits {p e i : Nat} (h : IssueReady s (.core p e) r dr) (hw : semWait dr.bytes = some i) (hd : dr.waited = false)
    (hc : s.getF (F.CORE_SEM_COUNT p i) = 0) (hl : s.lastTook p i (4 + e) = none) :
    s.issueXfer (.core p e) = s.onEng (.core p e) fun x => { x with waitSem := some i } := by
  have hwait : s.descWait (.core p e) dr = some (s.onEng (.core p e) fun x => { x with waitSem := some i }) := by
    unfold State.descWait
    rw [hw]
    dsimp only
    rw [hd, if_neg Bool.false_ne_true, hc, if_neg (Nat.lt_irrefl 0), hl]
  unfold State.issueXfer
  dsimp only
  rw [h.next]
  dsimp only
  rw [if_neg h.continue, hwait]

theorem State.onDesc_outst {idx : Nat} {f : DescRun → DescRun} : EngsShow Eng.outst (s.onDesc g idx f) s := .onEng fun _ => rfl

/-- A transfer that goes to no other core is outstanding, and OUTST shows it. -/
theorem State.sendXfer_own {d : Desc} {base bytes : Nat} (hg : engineHere s g) (hm : d.mcast = false) (hr : d.remote = false) :
    ((s.sendXfer g dr d base bytes).eng g).outst =
      (s.eng g).outst ++ [{ desc := dr.idx, k := dr.issued, base := base, remote := false }] ∧
    (s.sendXfer g dr d base bytes).getF (F.ENG_STATE_OUTST g.regs) = ((s.eng g).outst.length + 1) % 8 := by
  unfold State.sendXfer
  extract_lets s1 s2
  have h1 : (s1.eng g).outst = (s.eng g).outst ++ [{ desc := dr.idx, k := dr.issued, base := base, remote := d.remote || d.mcast }] :=
    (State.onDesc_outst g).trans (congrArg Eng.outst (State.eng_onEng_self hg))
  rw [hm, hr] at h1
  clear_value s1
  have h2 : (s2.eng g).outst = (s1.eng g).outst ∧ s2.getF (F.ENG_STATE_OUTST g.regs) = (s1.eng g).outst.length % 2 ^ 3 :=
    ⟨congrArg Eng.outst (State.eng_setF _ _), State.getF_setF_self _ _ _⟩
  clear_value s2
  rw [if_neg (by rw [hm]; exact Bool.false_ne_true), if_neg (by rw [hr]; exact Bool.false_ne_true), h2.1, h2.2, h1, List.length_append]
  exact ⟨rfl, rfl⟩

theorem State.slotTick_outst {free : Option Nat} {on : Bool} : EngsShow Eng.outst (s.slotTick g free on) s := by
  unfold State.slotTick
  cases g with
  | core p e =>
    refine EngsShow.trans (t := s.onBand (EngId.core p e).bandNo _) (.onEng fun _ => rfl) (SameEngs.onBand ?_).engsShow
    exact fun _ => rfl
  | band b e => exact .refl s

theorem State.slotTick_here {free : Option Nat} {on : Bool} (h : engineHere s g) : engineHere (s.slotTick g free on) g := by
  unfold State.slotTick
  cases g with
  | core p e =>
    refine State.onEng_here (SameEngs.here (s := s) (SameEngs.onBand ?_) h)
    exact fun _ => rfl
  | band b e => exact h

/-- A copy from DRAM to an engine's own scratchpad. -/
structure OwnCopy (s : State) (g : EngId) (d : Desc) : Prop where
  op1 : d.op ≠ 1
  op2 : d.op ≠ 2
  mcast : d.mcast = false
  remote : d.remote = false
  zc : d.zc = false
  src : (s.engPrn g d.src).place = 3
  dst : (s.dstPrn g d d.peer).1.place = 1
  lines : d.lineXfers (s.engPrn g d.src) ≠ 0

/-- A paced copy issues its next transfer: its descriptor waits no longer, its wait for a slot has ended, and the transfer is sent. -/
theorem State.issueXfer_copies (h : IssueReady s g r dr) (hsem : semWait dr.bytes = none) (hcopy : OwnCopy s g (Desc.parse dr.bytes))
    (hpaced : s.paced g r dr (Desc.parse dr.bytes) = true) :
    ∃ (v : State × Nat) (bytes : Nat),
      v = ((((s.onDesc g dr.idx fun q => { q with waited := true }).onEng g fun x => { x with waitSem := none }).slotTick g none
        false).noteRead g r (s.engPrn g (Desc.parse dr.bytes).src)) ∧
      s.issueXfer g = v.1.sendXfer g dr (Desc.parse dr.bytes) v.2 bytes := by
  obtain ⟨hop1, hop2, hm, hr, hzc, hsrc, hdst, hlines⟩ := hcopy
  have hwait : s.descWait g dr = none := by
    unfold State.descWait
    rw [hsem]
    cases g <;> rfl
  unfold State.issueXfer
  dsimp only
  rw [h.next]
  dsimp only
  rw [if_neg h.continue, hwait]
  dsimp only
  generalize hy : ((s.onDesc g dr.idx fun q => { q with waited := true }).onEng g fun x => { x with waitSem := none }) = y
  have hdp : y.dstPrn g (Desc.parse dr.bytes) (Desc.parse dr.bytes).peer = s.dstPrn g (Desc.parse dr.bytes) (Desc.parse dr.bytes).peer := by
    rw [← hy]
    cases g <;> rfl
  have hpy : y.paced g r dr (Desc.parse dr.bytes) = true := by
    rw [← hpaced, ← hy]
    cases g <;> rfl
  have hrel (x : State) (ys : List Nat) : x.releaseLines g (s.engPrn g (Desc.parse dr.bytes).src) ys = x :=
    if_neg (by rw [hsrc]; decide)
  rw [if_neg hop1, if_neg hop2, if_neg hlines, hpy, hdp, if_neg (by decide), if_neg fun h => absurd (hsrc.symm.trans h.1) (by decide),
    if_neg fun h => absurd (hdst.symm.trans h.1) (by decide), if_neg fun h => absurd (hzc.symm.trans h.1) (by decide),
    if_neg fun h => absurd (hdst.symm.trans h) (by decide), hrel, ite_self]
  exact ⟨_, _, rfl, rfl⟩

/-- A copy that issues puts one more transfer outstanding, in no time, and leaves DRAM as it is. -/
theorem State.issueXfer_spec (hg : engineHere s g) (h : IssueReady s g r dr) (hsem : semWait dr.bytes = none)
    (hcopy : OwnCopy s g (Desc.parse dr.bytes)) (hpaced : s.paced g r dr (Desc.parse dr.bytes) = true) :
    (s.issueXfer g).now = s.now ∧
      (∃ x, ((s.issueXfer g).eng g).outst = (s.eng g).outst ++ [x] ∧ x.desc = dr.idx ∧ x.k = dr.issued ∧ x.remote = false) ∧
      (s.issueXfer g).getF (F.ENG_STATE_OUTST g.regs) = ((s.eng g).outst.length + 1) % 8 ∧ (s.issueXfer g).dram = s.dram := by
  have hframe : SameBut (s.issueXfer g) s [.regs, .cores, .bands, .fc, .fab, .remotes, .signals, .tds] := State.issueXfer_frame
  obtain ⟨v, bytes, hv, heq⟩ := State.issueXfer_copies h hsem hcopy hpaced
  have hout : (v.1.eng g).outst = (s.eng g).outst ∧ engineHere v.1 g := by
    rw [hv]
    have h1 : EngsShow Eng.outst (s.onDesc g dr.idx fun q => { q with waited := true }) s := State.onDesc_outst
    have g1 : engineHere (s.onDesc g dr.idx fun q => { q with waited := true }) g := State.onEng_here hg
    generalize (s.onDesc g dr.idx fun q => { q with waited := true }) = y1 at *
    have h2 : EngsShow Eng.outst (y1.onEng g fun x => { x with waitSem := none }) y1 := .onEng fun _ => rfl
    have g2 : engineHere (y1.onEng g fun x => { x with waitSem := none }) g := State.onEng_here g1
    generalize (y1.onEng g fun x => { x with waitSem := none }) = y2 at *
    have h3 : EngsShow Eng.outst (y2.slotTick g none false) y2 := State.slotTick_outst
    have g3 : engineHere (y2.slotTick g none false) g := State.slotTick_here g2
    generalize y2.slotTick g none false = y3 at *
    have h4 : SameEngs (y3.noteRead g r (s.engPrn g (Desc.parse dr.bytes).src)).1 y3 := .of_frame State.noteRead_frame
    exact ⟨(h4.engsShow g).trans ((h3 g).trans ((h2 g).trans (h1 g))), h4.here g3⟩
  obtain ⟨hsent, hshown⟩ := State.sendXfer_own (dr := dr) (base := v.2) (bytes := bytes) hout.2 hcopy.mcast hcopy.remote
  rw [hout.1] at hsent hshown
  rw [← heq] at hsent hshown
  exact ⟨hframe.keeps .now (by decide), ⟨_, hsent, rfl, rfl, rfl⟩, hshown, hframe.keeps .dram (by decide)⟩

/-! ### Completion (R238) -/

/-- A transfer's accesses have had their turn and its source has read correct, which leaves `f`. -/
structure XferRead (s f : State) (g : EngId) (x : Xfer) (place : Nat) (rs : List (Nat × Nat)) (writes : Nat × List (Nat × Nat))
    (w : CoreIn) : Prop where
  turn : ((s.waitUntil x.after).xferTurn g (place, if x.after = 0 then rs else []) writes w).2 = true
  ecc : (f, false) = if x.after = 0 then
      ((s.waitUntil x.after).xferTurn g (place, if x.after = 0 then rs else []) writes w).1.srcEcc g place rs w.ecc
    else (((s.waitUntil x.after).xferTurn g (place, if x.after = 0 then rs else []) writes w).1, false)
  good : f.badRow place (g.unit place) rs = none

theorem XferRead.spec {f : State} {x : Xfer} {place : Nat} {rs : List (Nat × Nat)} {writes : Nat × List (Nat × Nat)}
    (h : XferRead s f g x place rs writes w) :
    f.now = max s.now x.after ∧ SameFields f s (AtOffset EccOffset) ∧ SameEngs f s := by
  have hnow := s.waitUntil_now x.after
  have hf : SameFields (s.waitUntil x.after) s (AtOffset EccOffset) := (s.waitUntil_fields x.after).mono fun f hf =>
    hf.atOffset fun o ho => List.mem_cons_of_mem _ (List.mem_cons_of_mem _ ho)
  have heng := State.waitUntil_engs (s := s) x.after
  obtain ⟨-, hecc, -⟩ := h
  generalize s.waitUntil x.after = y at *
  have hturn : SameBut (y.xferTurn g (place, if x.after = 0 then rs else []) writes w).1 y [.cores, .bands] := State.xferTurn_frame
  have hturn' : SameEngs (y.xferTurn g (place, if x.after = 0 then rs else []) writes w).1 y := State.xferTurn_engs
  generalize (y.xferTurn g (place, if x.after = 0 then rs else []) writes w).1 = z at *
  have hz : z.now = max s.now x.after ∧ SameFields z s (AtOffset EccOffset) ∧ SameEngs z s :=
    ⟨(hturn.keeps .now).trans hnow, (SameFields.of_frame hturn).trans hf, hturn'.trans heng⟩
  split at hecc
  · have hfst : f = (z.srcEcc g place rs w.ecc).1 := congrArg Prod.fst hecc
    rw [hfst]
    exact ⟨(State.srcEcc_frame.keeps .now).trans hz.1, State.srcEcc_spec.1.trans hz.2.1, State.srcEcc_spec.2.trans hz.2.2⟩
  · obtain rfl : f = z := congrArg Prod.fst hecc
    exact hz

/-- A transfer that goes to no other core and reads correct lands. -/
theorem State.xferComplete_lands {f : State} {n : Nat} {x : Xfer} (hx : (s.eng g).outst[n]? = some x)
    (hdesc : s.xferDesc g x.desc = some (r, dr)) (hr : x.remote = false) (ha : x.accepted = false)
    (hwstop : (s.dstPrn g (Desc.parse dr.bytes) (Desc.parse dr.bytes).peer).1.place = 3 → s.getF F.DEV_HOTPLUG_WSTOP = 0)
    (hread : XferRead s f g x (s.engPrn g (Desc.parse dr.bytes).src).place
      ((Desc.parse dr.bytes).reads { s.engPrn g (Desc.parse dr.bytes).src with base := x.base }
        (s.readMem (s.engPrn g (Desc.parse dr.bytes).src).place (g.unit (s.engPrn g (Desc.parse dr.bytes).src).place)) r.base x.k)
      ((s.dstPrn g (Desc.parse dr.bytes) (Desc.parse dr.bytes).peer).1.place, (Desc.parse dr.bytes).writes r.base x.k
        { s.engPrn g (Desc.parse dr.bytes).src with base := x.base } (s.dstPrn g (Desc.parse dr.bytes) (Desc.parse dr.bytes).peer).1) w) :
    s.xferComplete g n w = f.xferLand g n x r (Desc.parse dr.bytes) w.ecc := by
  obtain ⟨hturn, hecc, hgood⟩ := hread
  unfold State.xferComplete
  dsimp only
  rw [hx]
  dsimp only
  rw [hdesc]
  dsimp only
  rw [if_neg fun h => absurd (hwstop h.1) (by rw [h.2]; decide), ha, hr, if_neg Bool.false_ne_true, if_neg Bool.false_ne_true, hturn,
    if_neg (by decide), ← hecc, if_neg Bool.false_ne_true, hgood]
  rfl

end

end Sys2Proof.Machine

namespace Sys2Proof
set_option Elab.async false
open Sys2Proof.Machine

/-- Settles O22: reads, issue, waits, completion and halts of an engine's transfers. -/
theorem enginesReadIssueAndComplete : Obligations.EnginesReadIssueAndComplete := by
  unfold Obligations.EnginesReadIssueAndComplete
  refine ⟨?read, ?issue, ?full, ?wait, ?complete, ?halt⟩
  case read =>
    rintro s u g w r q n v hok hin hhere hrun hst hstop hband hleft hroom rfl rfl rfl hturn hecc hgood
    have hu : BurstRead s u g r w _ := ⟨rfl, hturn, hecc⟩
    refine Completes.of_act (t := s.burstRead g w) rfl (by simp [Instr.wf, hok, hin]) fun x => ?_
    rw [State.burstRead_joins ⟨hrun, hst, hstop, hband, hleft, hroom⟩ hu hgood]
    refine ⟨SameBut.endedAfter (State.onEng_frame.mono (by decide)) ((State.onEng_frame.keeps .pending).trans (hu.frame.keeps .pending)) x,
      _, _, congrArg Eng.run (State.eng_onEng_self (hu.engs.here hhere)), rfl, rfl, ?_, ?_⟩
    · rw [State.burstDescs, List.map_map]; rfl
    · rw [State.burstDescs, List.map_map]; rfl
  case issue =>
    intro s g r dr hok hhere hnext hst hstop hband hplace hsem hop1 hop2 hm hr hzc hsrc hdst hlines hpaced
    exact Completes.of_result (t := s.issueXfer g) rfl hok
      (State.issueXfer_spec hhere ⟨hnext, hst, hstop, hband, hplace⟩ hsem ⟨hop1, hop2, hm, hr, hzc, hsrc, hdst, hlines⟩ hpaced)
      fun _ _ h => h
  case full =>
    intro s g hok h6
    refine Completes.of_act (t := s.issueXfer g) rfl hok fun x => ?_
    rw [State.issueXfer_full h6]
    exact SameBut.ended_self rfl _ x
  case wait =>
    intro s p e i r dr hok hhere hnext hst hstop hband hplace hsem hwaited hcount hlast
    refine Completes.of_act (t := s.issueXfer (.core p e)) rfl hok fun x => ?_
    rw [State.issueXfer_waits ⟨hnext, hst, hstop, hband, hplace⟩ hsem hwaited hcount hlast]
    have heng := State.eng_onEng_self (f := fun y => { y with waitSem := some i }) hhere
    exact ⟨SameBut.ended (s := s) (t := s.onEng (.core p e) fun y => { y with waitSem := some i }) State.onCore_frame x,
      congrArg Eng.waitSem heng, (congrArg Eng.outst heng).trans rfl⟩
  case complete =>
    rintro s g n w x r dr d sr dp rs q f hok hin hhere hx hdesc hr ha rfl rfl rfl hwstop rfl rfl hturn hf hf2 hgood
    have hread : XferRead s f.1 g x _ _ _ w := ⟨hturn, (Prod.ext rfl hf2.symm : (f.1, false) = f).trans hf, hgood⟩
    obtain ⟨hnow, hfields, hengs⟩ := hread.spec
    obtain ⟨hcount, hout⟩ := State.xferLand_spec (n := n) (x := x) (r := r) (d := Desc.parse dr.bytes) (e := w.ecc) hok (hengs.here hhere)
    have hxf := hfields _ fun h => xfers_offset g hok (eccOffset_offXfers _ h)
    refine Completes.of_result (t := s.xferComplete g n w) rfl (by simp [Instr.wf, hok, hin]) ?_ fun _ _ h => h
    rw [State.xferComplete_lands hx hdesc hr ha hwstop hread]
    exact ⟨(State.xferLand_frame.keeps .now).trans hnow, hcount.trans (congrArg (fun v => (v + 1) % 2 ^ 32) hxf),
      hout.trans (congrArg (fun y : Eng => y.outst.eraseIdx n) (hengs.eng g))⟩
  case halt =>
    rintro s u p e row w r q n v hok hin hhere h4 hrun hline hst hstop hband hleft hroom rfl rfl rfl hturn hecc hbad
    have hu : BurstRead s u (.core p e) r w _ := ⟨rfl, hturn, hecc⟩
    obtain ⟨idx, line, xfer, addr, space, k, heq⟩ := State.burstRead_halts ⟨hrun, hst, hstop, hband, hleft, hroom⟩ hu hbad
    have hlow : ¬ AtOffset EccOffset (F.CORE_THREAD_LINE_THREADED p) := by
      refine not_atOffset ?_ (Nat.le_of_ble_eq_true rfl)
      rw [show (F.CORE_THREAD_LINE_THREADED p).addr % 0x10000 = 0xC by simp only [F.CORE_THREAD_LINE_THREADED]; omega]
      unfold EccOffset
      decide
    have hcnt : ¬ AtOffset EccOffset (F.ENG_CNT_HALTS (coreEng p e)) := by
      simp only [EngId.ok, Bool.and_eq_true, decide_eq_true_eq] at hok
      refine not_atOffset ?_ (Nat.le_of_ble_eq_true rfl)
      simp only [EccOffset, timeOffsets, List.mem_cons, List.not_mem_nil, or_false, F.ENG_CNT_HALTS, coreEng]
      omega
    have hf := hu.fields
    have hthread : u.isLineThread p r.thread = false := by
      simpa only [State.isLineThread, hf _ hlow] using hline
    have hnow : u.now = s.now := hu.frame.keeps .now
    have hhalt := State.halt_frameClass (cause := 4) (idx := idx) (line := line) (xfer := xfer) (addr := addr) (space := space) (k := k)
      (w := w) hok (hu.engs.here hhere) ((congrArg Eng.run (hu.engs.eng _)).trans hrun) hthread (by decide)
    rw [← heq, hnow, hf _ hcnt] at hhalt
    exact Completes.of_result (t := s.burstRead (.core p e) w) rfl (by simp [Instr.wf, hok, hin]) hhalt fun _ _ h => h

end Sys2Proof


namespace Sys2Proof.Machine
set_option Elab.async false

/-! ## Starts of descriptor lists (R233, R252) -/

section
variable {s t u : State} {g k : EngId} {r q : ListRun} {th : Bool}

theorem getD_modify_ne {l : List Eng} {a b : Nat} {f : Eng → Eng} (h : a ≠ b) : (l.modify a f).getD b {} = l.getD b {} := by
  rw [List.getD_eq_getElem?_getD, List.getD_eq_getElem?_getD, List.getElem?_modify_ne _ _ h]

/-- Another engine than the one changed stands as it did. -/
theorem State.eng_onEng_ne {f : Eng → Eng} (h : k ≠ g) : (s.onEng g f).eng k = s.eng k := by
  cases g with
  | core p e =>
    cases k with
    | core p' e' =>
      by_cases hp : p' = p
      · subst hp
        have he : e ≠ e' := fun h' => h (h' ▸ rfl)
        simp only [State.eng, State.onEng, State.core_onCore_self, getD_modify_ne he]
      · exact congrArg (fun c : CoreSt => c.eng.getD e' {}) (State.core_onCore_ne s _ hp)
    | band b e' => rfl
  | band b e =>
    cases k with
    | core p e' => rfl
    | band b' e' =>
      by_cases hb : b' = b
      · subst hb
        have he : e ≠ e' := fun h' => h (h' ▸ rfl)
        simp only [State.eng, State.onEng, State.band_onBand_self, getD_modify_ne he]
      · exact congrArg (fun c : BandSt => c.eng.getD e' {}) (State.band_onBand_ne s _ hb)

/-! ### One start at one engine -/

theorem State.beginList_eng (hg : engineHere s g) :
    (s.beginList g r).eng g = { s.eng g with run := some r, waitIn := false, waitSem := none } :=
  (State.eng_onEng_self ((SameEngs.of_frame State.setFs_frame).here hg)).trans
    (congrArg (fun x : Eng => { x with run := some r, waitIn := false, waitSem := none }) ((SameEngs.of_frame State.setFs_frame).eng g))

theorem State.latchList_eng (hg : engineHere s g) : (s.latchList g r).eng g = { s.eng g with pend := some r } :=
  (State.eng_onEng_self ((SameEngs.of_frame State.setFs_frame).here hg)).trans
    (congrArg (fun x : Eng => { x with pend := some r }) ((SameEngs.of_frame State.setFs_frame).eng g))

theorem State.beginList_eng_ne (h : k ≠ g) : (s.beginList g r).eng k = s.eng k :=
  (State.eng_onEng_ne h).trans ((SameEngs.of_frame State.setFs_frame).eng k)

theorem State.latchList_eng_ne (h : k ≠ g) : (s.latchList g r).eng k = s.eng k :=
  (State.eng_onEng_ne h).trans ((SameEngs.of_frame State.setFs_frame).eng k)

theorem State.beginList_here (h : engineHere s k) : engineHere (s.beginList g r) k :=
  State.onEng_here ((SameEngs.of_frame State.setFs_frame).here h)

theorem State.latchList_here (h : engineHere s k) : engineHere (s.latchList g r) k :=
  State.onEng_here ((SameEngs.of_frame State.setFs_frame).here h)

theorem State.beginList_state : (s.beginList g r).getF (F.ENG_STATE_STATE g.regs) = 1 := by
  refine (State.getF_onEng _ _).trans ((State.getF_setFs_at (i := 0) rfl ?_).trans (show 1 % 2 ^ 2 = 1 from rfl))
  simp [Fld.key, F.ENG_STATE_STATE, F.ENG_STATE_LIST]

/-- A list that becomes current changes no register of its engine but ENG_STATE's STATE and LIST. -/
theorem State.beginList_fields {f : Fld} (hf : f.key ≠ 32 * (g.regs + 4)) (hf' : f.key ≠ 32 * (g.regs + 4) + 6) :
    (s.beginList g r).getF f = s.getF f := by
  refine (State.getF_onEng _ _).trans (State.getF_setFs_ne _ _ _ ?_)
  simpa [Fld.key, F.ENG_STATE_STATE, F.ENG_STATE_LIST, Nat.mul_comm] using ⟨hf, hf'⟩

/-- A list that is latched changes no register of its engine but ENG_STATE's PENDING and PEND_LIST. -/
theorem State.latchList_rearm : (s.latchList g r).getF (F.ENG_CNT_REARM_OVER g.regs) = s.getF (F.ENG_CNT_REARM_OVER g.regs) := by
  refine (State.getF_onEng _ _).trans (State.getF_setFs_ne _ _ _ ?_)
  simp [Fld.key, F.ENG_STATE_PENDING, F.ENG_STATE_PEND_LIST, F.ENG_CNT_REARM_OVER]
  omega

/-- The mark that a start leaves at its engine. -/
def State.noteStart (s : State) (g : EngId) (n : Nat) (th again : Bool) : State :=
  s.onEng g fun x => { x with started := (n, th || (again && x.started.2)) }

/-- The marks that a replaced pending list leaves (R252). -/
def State.noteRearm (s : State) (g : EngId) (again : Bool) : State :=
  (s.incF (F.ENG_CNT_REARM_OVER g.regs) 1).onEng g fun y =>
    if again then y else { y with rearm := (s.now + 1, s.getF (F.ENG_CNT_REARM_OVER g.regs)) }

/-- A start that comes after a start of the same cycle. -/
def State.startsAgain (s : State) (g : EngId) : Bool := (s.eng g).started.1 == s.now + 1

/-- A start in the cycle of a final completion (R252). -/
def State.startsAtEnd (s : State) (g : EngId) : Bool := (s.eng g).run.isNone && (s.eng g).endedAt == s.now + 1

theorem State.startList_eq : s.startList g r th =
    (if s.startsAgain g ∧ (s.eng g).started.2 ∧ !th then s.startFirst g r
      else if (s.eng g).run.isNone ∧ (s.eng g).pend.isNone ∧ !(s.eng g).stopping ∧ !s.startsAtEnd g then s.beginList g r
      else (if (s.eng g).pend.isSome ∧ (!s.startsAtEnd g ∨ s.startsAgain g) then s.noteRearm g (s.startsAgain g) else s).latchList g r).noteStart
      g (s.now + 1) th (s.startsAgain g) := rfl

theorem State.noteRearm_spec {again : Bool} (hg : engineHere s g) : ((s.noteRearm g again).eng g).run = (s.eng g).run ∧
    ((s.noteRearm g again).eng g).started = (s.eng g).started ∧
    (s.noteRearm g again).getF (F.ENG_CNT_REARM_OVER g.regs) = satAdd 16 (s.getF (F.ENG_CNT_REARM_OVER g.regs)) 1 := by
  have heng : (s.noteRearm g again).eng g = if again then s.eng g else
      { s.eng g with rearm := (s.now + 1, s.getF (F.ENG_CNT_REARM_OVER g.regs)) } :=
    (State.eng_onEng_self ((SameEngs.of_frame State.incF_frame).here hg)).trans
      (congrArg (fun x : Eng => if again then x else { x with rearm := (s.now + 1, s.getF (F.ENG_CNT_REARM_OVER g.regs)) })
        ((SameEngs.of_frame State.incF_frame).eng g))
  refine ⟨?_, ?_, (State.getF_onEng _ _).trans (State.getF_incF_self _ _ _)⟩ <;> rw [heng] <;> cases again <;> rfl

theorem State.noteRearm_here {again : Bool} (h : engineHere s k) : engineHere (s.noteRearm g again) k :=
  State.onEng_here ((SameEngs.of_frame State.incF_frame).here h)

theorem State.noteRearm_eng_ne {again : Bool} (h : k ≠ g) : (s.noteRearm g again).eng k = s.eng k :=
  (State.eng_onEng_ne h).trans ((SameEngs.of_frame State.incF_frame).eng k)

/-- What a noted start keeps of its engine. -/
theorem State.noteStart_spec (n : Nat) (th again : Bool) (hg : engineHere s g) : ((s.noteStart g n th again).eng g).run = (s.eng g).run ∧
    ((s.noteStart g n th again).eng g).pend = (s.eng g).pend ∧
    ((s.noteStart g n th again).eng g).started.2 = (th || (again && (s.eng g).started.2)) := by
  have h := State.eng_onEng_self (f := fun x => { x with started := (n, th || (again && x.started.2)) }) hg
  unfold State.noteStart
  rw [h]
  exact ⟨rfl, rfl, rfl⟩

theorem State.getF_noteStart {n : Nat} {again : Bool} (f : Fld) : (s.noteStart g n th again).getF f = s.getF f := State.getF_onEng _ _

/-- A start that finds the engine idle becomes its current list. -/
theorem State.startList_idle (hg : engineHere s g) (hrun : (s.eng g).run = none) (hpend : (s.eng g).pend = none)
    (hstop : (s.eng g).stopping = false) (hend : (s.eng g).endedAt ≠ s.now + 1) (hfirst : (s.eng g).started.1 ≠ s.now + 1) :
    ((s.startList g r th).eng g).run = some r ∧ ((s.startList g r th).eng g).pend = none ∧
      (s.startList g r th).getF (F.ENG_STATE_STATE g.regs) = 1 := by
  have hagain : s.startsAgain g = false := beq_false_of_ne hfirst
  have hends : s.startsAtEnd g = false := by
    rw [State.startsAtEnd, hrun]
    exact beq_false_of_ne hend
  obtain ⟨h1, h2, -⟩ := State.noteStart_spec (s.now + 1) th false (State.beginList_here (r := r) hg)
  rw [State.beginList_eng hg] at h1 h2
  rw [State.startList_eq, hagain, hends, if_neg (by simp), if_pos (by simp [hrun, hpend, hstop])]
  exact ⟨h1, h2.trans hpend, (State.getF_noteStart _).trans State.beginList_state⟩

/-- A start that finds a list current, or comes in the cycle of its end, is latched as pending and replaces none. -/
theorem State.startList_latched (hg : engineHere s g) (hfirst : (s.eng g).started.1 ≠ s.now + 1)
    (h : (s.eng g).run ≠ none ∧ (s.eng g).pend = none ∨ (s.eng g).run = none ∧ (s.eng g).endedAt = s.now + 1) :
    ((s.startList g r th).eng g).run = (s.eng g).run ∧ ((s.startList g r th).eng g).pend = some r ∧
      (s.startList g r th).getF (F.ENG_CNT_REARM_OVER g.regs) = s.getF (F.ENG_CNT_REARM_OVER g.regs) := by
  have hagain : s.startsAgain g = false := beq_false_of_ne hfirst
  have hbusy : ¬ ((s.eng g).run.isNone ∧ (s.eng g).pend.isNone ∧ !(s.eng g).stopping ∧ !s.startsAtEnd g) := by
    rintro ⟨hr, -, -, he⟩
    rcases h with ⟨h, -⟩ | ⟨h, h'⟩
    · exact h (Option.isNone_iff_eq_none.1 hr)
    · simp [State.startsAtEnd, h, h'] at he
  have hnone : ¬ ((s.eng g).pend.isSome ∧ (!s.startsAtEnd g ∨ (false : Bool))) := by
    rintro ⟨hp, he⟩
    rcases h with ⟨-, h⟩ | ⟨h, h'⟩
    · simp [h] at hp
    · simp [State.startsAtEnd, h, h'] at he
  obtain ⟨h1, h2, -⟩ := State.noteStart_spec (s.now + 1) th false (State.latchList_here (r := r) hg)
  rw [State.latchList_eng hg] at h1 h2
  rw [State.startList_eq, hagain, if_neg (by simp), if_neg hbusy, if_neg hnone]
  exact ⟨h1, h2, (State.getF_noteStart _).trans State.latchList_rearm⟩

/-- A start that finds a list pending replaces it and counts. -/
theorem State.startList_replaces (hg : engineHere s g) (hpend : (s.eng g).pend = some q) (hend : (s.eng g).endedAt ≠ s.now + 1)
    (hfirst : (s.eng g).started.1 ≠ s.now + 1) :
    ((s.startList g r th).eng g).run = (s.eng g).run ∧ ((s.startList g r th).eng g).pend = some r ∧
      (s.startList g r th).getF (F.ENG_CNT_REARM_OVER g.regs) = satAdd 16 (s.getF (F.ENG_CNT_REARM_OVER g.regs)) 1 := by
  have hagain : s.startsAgain g = false := beq_false_of_ne hfirst
  have hends : s.startsAtEnd g = false := by
    rw [State.startsAtEnd, show ((s.eng g).endedAt == s.now + 1) = false from beq_false_of_ne hend, Bool.and_false]
  obtain ⟨hr, -, hc⟩ := State.noteRearm_spec (again := false) hg
  obtain ⟨h1, h2, -⟩ := State.noteStart_spec (s.now + 1) th false
    (State.latchList_here (r := r) (State.noteRearm_here (again := false) hg))
  rw [State.latchList_eng (State.noteRearm_here hg)] at h1 h2
  rw [State.startList_eq, hagain, hends, if_neg (by simp), if_neg (by simp [hpend]), if_pos (by simp [hpend])]
  exact ⟨h1.trans hr, h2, (State.getF_noteStart _).trans (State.latchList_rearm.trans hc)⟩

/-- An almanac start in the cycle of a thread's start goes before it. -/
theorem State.startList_before (hg : engineHere s g) (hfirst : (s.eng g).started = (s.now + 1, true)) (hrun : (s.eng g).run = some q)
    (hpend : (s.eng g).pend = none) :
    ((s.startList g r false).eng g).run = some r ∧ ((s.startList g r false).eng g).pend = some q := by
  have hagain : s.startsAgain g = true := by rw [State.startsAgain, hfirst]; exact beq_self_eq_true _
  have heq : s.startFirst g r = (s.beginList g r).latchList g q := by
    unfold State.startFirst
    dsimp only
    rw [hrun, hpend]
  obtain ⟨h1, h2, -⟩ := State.noteStart_spec (s.now + 1) false true
    (State.latchList_here (r := q) (State.beginList_here (r := r) hg))
  rw [State.latchList_eng (State.beginList_here hg), State.beginList_eng hg] at h1 h2
  rw [State.startList_eq, hagain, if_pos (by simp [hfirst]), heq]
  exact ⟨h1, h2⟩

/-- A start that follows no thread's start becomes current on an idle engine, and else is pending. -/
theorem State.startList_held (hg : engineHere s g) (h : th = true ∨ (s.eng g).started.2 = false) :
    (((s.eng g).run = none ∧ (s.eng g).pend = none ∧ ((s.startList g r th).eng g).run = some r) ∨
      (((s.startList g r th).eng g).run = (s.eng g).run ∧ ((s.startList g r th).eng g).pend = some r)) ∧
    (th = false → ((s.startList g r th).eng g).started.2 = false) := by
  have hno : ¬ (s.startsAgain g ∧ (s.eng g).started.2 ∧ !th) := by
    rintro ⟨-, h2, h3⟩
    rcases h with rfl | h
    · exact absurd h3 (by decide)
    · rw [h] at h2; exact absurd h2 (by decide)
  have hmark : th = false → (th || (s.startsAgain g && (s.eng g).started.2)) = false := by
    rintro rfl
    rcases h with h | h
    · exact absurd h (by decide)
    · rw [h, Bool.and_false]; rfl
  rw [State.startList_eq, if_neg hno]
  split
  next hidle =>
    obtain ⟨h1, -, h3⟩ := State.noteStart_spec (s.now + 1) th (s.startsAgain g)
      (State.beginList_here (r := r) hg)
    rw [State.beginList_eng hg] at h1 h3
    exact ⟨Or.inl ⟨Option.isNone_iff_eq_none.1 hidle.1, Option.isNone_iff_eq_none.1 hidle.2.1, h1⟩, fun ht => h3.trans (hmark ht)⟩
  next =>
    have hx : engineHere (if (s.eng g).pend.isSome ∧ (!s.startsAtEnd g ∨ s.startsAgain g) then s.noteRearm g (s.startsAgain g) else s) g ∧
        ((if (s.eng g).pend.isSome ∧ (!s.startsAtEnd g ∨ s.startsAgain g) then s.noteRearm g (s.startsAgain g) else s).eng g).run =
          (s.eng g).run ∧
        ((if (s.eng g).pend.isSome ∧ (!s.startsAtEnd g ∨ s.startsAgain g) then s.noteRearm g (s.startsAgain g) else s).eng g).started =
          (s.eng g).started := by
      split
      · exact ⟨State.noteRearm_here hg, (State.noteRearm_spec hg).1, (State.noteRearm_spec hg).2.1⟩
      · exact ⟨hg, rfl, rfl⟩
    generalize (if (s.eng g).pend.isSome ∧ (!s.startsAtEnd g ∨ s.startsAgain g) then s.noteRearm g (s.startsAgain g) else s) = x at *
    obtain ⟨h1, h2, h3⟩ := State.noteStart_spec (s.now + 1) th (s.startsAgain g)
      (State.latchList_here (r := r) hx.1)
    rw [State.latchList_eng hx.1] at h1 h2 h3
    exact ⟨Or.inr ⟨h1.trans hx.2.1, h2⟩, fun ht => (h3.trans (by rw [← hx.2.2])).trans (hmark ht)⟩

theorem State.startFirst_here (h : engineHere s k) : engineHere (s.startFirst g r) k := by
  unfold State.startFirst
  dsimp only
  split
  · exact State.latchList_here (State.beginList_here h)
  · exact (SameEngs.of_frame State.incF_frame).here h

theorem State.startFirst_eng_ne (h : k ≠ g) : (s.startFirst g r).eng k = s.eng k := by
  unfold State.startFirst
  dsimp only
  split
  · exact (State.latchList_eng_ne h).trans (State.beginList_eng_ne h)
  · exact (SameEngs.of_frame State.incF_frame).eng k

theorem State.startList_here (h : engineHere s k) : engineHere (s.startList g r th) k := by
  rw [State.startList_eq]
  refine State.onEng_here ?_
  repeat' split
  · exact State.startFirst_here h
  · exact State.beginList_here h
  · exact State.latchList_here (State.noteRearm_here h)
  · exact State.latchList_here h

theorem State.startList_eng_ne (h : k ≠ g) : (s.startList g r th).eng k = s.eng k := by
  rw [State.startList_eq]
  refine (State.eng_onEng_ne h).trans ?_
  repeat' split
  · exact State.startFirst_eng_ne h
  · exact State.beginList_eng_ne h
  · exact (State.latchList_eng_ne h).trans (State.noteRearm_eng_ne h)
  · exact State.latchList_eng_ne h

end
end Sys2Proof.Machine


namespace Sys2Proof.Machine
set_option Elab.async false

/-! ## Lists that an almanac entry, a pending place or a thread starts (R233, R252); the drain of a line clause (R246); O21 -/

section
variable {s t u : State} {g k : EngId} {r q : ListRun} {th : Bool} {P : ListRun → Prop} {Fam : EngId → Prop}

/-! ### The registers that a start changes -/

/-- The offsets of the registers from 0x100 on: those of engines are among them. -/
def HighOffset (o : Nat) : Prop := 0x100 ≤ o

/-- An engine's number within its unit is one that the registers hold. -/
def InTable : EngId → Prop
  | .core _ e => e < 8
  | .band _ e => e < 2

theorem EngId.high (h : InTable g) {f : Fld} (o : Nat) (hf : f.addr = g.regs + o := by rfl) (ho : o < 0x20 := by decide) :
    HighOffset (f.addr % 0x10000) := by
  cases g with
  | core p e =>
    have he : e < 8 := h
    rw [hf]
    simp only [EngId.regs, coreEng, HighOffset]
    omega
  | band b e =>
    have he : e < 2 := h
    rw [hf]
    simp only [EngId.regs, bandEng, HighOffset]
    omega

theorem State.beginList_high (h : InTable g) : SameFields (s.beginList g r) s (AtOffset HighOffset) :=
  (SameFields.of_frame State.onEng_frame).trans ((SameFields.setAt (EngId.high h 4) 6).trans (.setAt (EngId.high h 4) 0))

theorem State.latchList_high (h : InTable g) : SameFields (s.latchList g r) s (AtOffset HighOffset) :=
  (SameFields.of_frame State.onEng_frame).trans ((SameFields.setAt (EngId.high h 4) 12).trans (.setAt (EngId.high h 4) 2))

theorem State.startFirst_high (h : InTable g) : SameFields (s.startFirst g r) s (AtOffset HighOffset) := by
  unfold State.startFirst
  dsimp only
  split
  · exact (State.latchList_high h).trans (State.beginList_high h)
  · exact .incAt (EngId.high h 0x14) 16

theorem State.startList_high (h : InTable g) : SameFields (s.startList g r th) s (AtOffset HighOffset) := by
  rw [State.startList_eq]
  refine SameFields.trans (.of_frame State.onEng_frame) ?_
  repeat' split
  · exact State.startFirst_high h
  · exact State.beginList_high h
  · exact (State.latchList_high h).trans (SameFields.trans (.of_frame State.onEng_frame) (.incAt (EngId.high h 0x14) 16))
  · exact State.latchList_high h

/-! ### Starts of an almanac entry -/

/-- The family's engines are there, and no thread's start has been their last. -/
def Calm (Fam : EngId → Prop) (t : State) : Prop := ∀ g, Fam g → engineHere t g ∧ (t.eng g).started.2 = false

/-- An engine of the family holds a list as `P` says, current or pending. -/
def ListHeld (P : ListRun → Prop) (Fam : EngId → Prop) (t : State) : Prop :=
  ∃ g r, Fam g ∧ ((t.eng g).run = some r ∨ (t.eng g).pend = some r) ∧ P r

theorem Calm.startList (h : Calm Fam t) : Calm Fam (t.startList g r false) := by
  intro k hk
  obtain ⟨hhere, hst⟩ := h k hk
  refine ⟨State.startList_here hhere, ?_⟩
  by_cases hkg : k = g
  · subst hkg
    exact (State.startList_held hhere (Or.inr hst)).2 rfl
  · rw [State.startList_eng_ne hkg, hst]

theorem ListHeld.of_start (h : Calm Fam t) (hg : Fam g) (hP : P r) : ListHeld P Fam (t.startList g r false) := by
  obtain ⟨hhere, hst⟩ := h g hg
  refine ⟨g, r, hg, ?_, hP⟩
  rcases (State.startList_held (r := r) hhere (Or.inr hst)).1 with ⟨-, -, h⟩ | ⟨-, h⟩
  · exact Or.inl h
  · exact Or.inr h

theorem ListHeld.startList (hc : Calm Fam t) (h : ListHeld P Fam t) (hP : P r) : ListHeld P Fam (t.startList g r false) := by
  obtain ⟨k, q, hk, hq, hPq⟩ := h
  by_cases hkg : k = g
  · subst hkg
    exact .of_start hc hk hP
  · exact ⟨k, q, hk, by rwa [State.startList_eng_ne hkg], hPq⟩

/-- What the starts of an entry keep: the family is calm, and the numbers of the cores and their roles are those of `s`. -/
structure Starting (Fam : EngId → Prop) (s t : State) : Prop where
  calm : Calm Fam t
  fields : SameFields t s fun f => WithTime f ∨ AtOffset HighOffset f
  fab : t.fab = s.fab

theorem Starting.startList (h : Starting Fam s t) (hg : InTable g) : Starting Fam s (t.startList g r false) :=
  ⟨h.calm.startList, ((State.startList_high hg).mono fun _ => Or.inr).trans h.fields, (State.startList_frame.keeps .fab).trans h.fab⟩

theorem low_not_starting {f : Fld} (hlo : f.lo < 32) (hoff : f.addr % 0x10000 = 0) : ¬ (WithTime f ∨ AtOffset HighOffset f) := by
  rintro (h | h)
  · exact not_withTime hlo (by rw [hoff]; decide) h
  · refine not_atOffset (P := HighOffset) ?_ hlo h
    rw [hoff]
    unfold HighOffset
    decide

theorem Starting.idleSlot (h : Starting Fam s t) (b : Nat) : t.getF (F.BAND_SLOTMAP_IDLE_SLOT b) = s.getF (F.BAND_SLOTMAP_IDLE_SLOT b) :=
  h.fields _ (low_not_starting (Nat.le_of_ble_eq_true rfl) (by simp only [F.BAND_SLOTMAP_IDLE_SLOT]; omega))

theorem Starting.phys (h : Starting Fam s t) (l : Nat) : t.phys l = s.phys l :=
  State.phys_of h.idleSlot (congrArg FabSt.handovers h.fab) l

theorem Starting.active (h : Starting Fam s t) (p : Nat) : t.active p = s.active p := by
  have hrole : t.role p = s.role p :=
    h.fields _ (low_not_starting (Nat.le_of_ble_eq_true rfl) (by simp only [F.CORE_IDENT_ROLE]; omega))
  have hfab := h.fab
  simp only [State.active, State.logical_of h.idleSlot (congrArg FabSt.handovers hfab), hrole, State.moved, hfab]

/-- A list of entry `i` of the almanac: the one it names, with the line it acts for as its tag. -/
def OfEntry (s : State) (i : Nat) (r : ListRun) : Prop :=
  r.list = bits (s.entry i).arg 0 6 ∧ r.tagFrame = (s.actsFor i).1 ∧ r.tag = (s.actsFor i).2

/-- What entry `i` brings to a band. -/
def State.bandLists (s : State) (i : Nat) (x : State) (b : Nat) : State :=
  if !bit (s.entry i).bands b then x
  else if bit (s.entry i).arg 8 then
    x.startList (.band b (bits (leAt (x.listEntry (.band b 0) (bits (s.entry i).arg 0 6)) 1 1) 0 3 % 2))
      (x.listRun (.band b 0) (bits (s.entry i).arg 0 6) (s.actsFor i).1 (s.actsFor i).2 0) false
  else x.each 8 fun x k =>
    if bit (s.entry i).cores k ∧ x.active (x.phys (8 * b + k)) then
      x.startList (.core (x.phys (8 * b + k)) (bits (leAt (x.listEntry (.core (x.phys (8 * b + k)) 0) (bits (s.entry i).arg 0 6)) 1 1) 0 3))
        (x.listRun (.core (x.phys (8 * b + k)) 0) (bits (s.entry i).arg 0 6) (s.actsFor i).1 (s.actsFor i).2 0) false
    else x

theorem State.almanacLists_eq {i : Nat} (h : s.due i 0 = true) : s.almanacLists i = (s.fire i).each s.nBands (s.bandLists i) := by
  unfold State.almanacLists
  rw [if_neg (by rw [h]; decide)]
  rfl

theorem State.bandLists_inv {i : Nat} {I : State → Prop}
    (h : ∀ x g r, I x → InTable g → OfEntry s i r → I (x.startList g r false)) (x : State) (b : Nat) (hx : I x) :
    I (s.bandLists i x b) := by
  have h8 (v : Nat) : bits v 0 3 < 8 := by simp only [bits]; omega
  unfold State.bandLists
  split
  · exact hx
  · split
    · exact h _ (.band b _) _ hx (Nat.mod_lt _ (show 0 < 2 by decide)) ⟨rfl, rfl, rfl⟩
    · refine each_inv I hx 8 fun y k hy => ?_
      split
      · exact h _ (.core _ _) _ hy (h8 _) ⟨rfl, rfl, rfl⟩
      · exact hy

theorem State.fire_engs (i : Nat) : SameEngs (s.fire i) s := (State.waitUntil_shows s _).engs

theorem State.almanacLists_spec {i : Nat} (h : s.due i 0 = true) : Fired s (s.almanacLists i) i := by
  rw [State.almanacLists_eq h]
  have hb (x : State) (b : Nat) : SameBut (s.bandLists i x b) x [.regs, .cores, .bands] :=
    State.bandLists_inv (I := fun y => SameBut y x [.regs, .cores, .bands]) (fun _ _ _ hy _ _ => State.startList_frame.trans hy) x b
      (SameBut.refl _ _)
  have hall : SameBut ((s.fire i).each s.nBands (s.bandLists i)) (s.fire i) [.regs, .cores, .bands] := SameBut.each (SameBut.refl _ _) hb
  exact Fired.of (State.fire_fired s i) (hall.keeps .cal) (hall.keeps .now)

/-- Where an entry brings a list to a band or one of its cores, an engine of that band or core holds it when the entry has been
carried out. -/
theorem State.almanacLists_held {i b : Nat} (h : s.due i 0 = true) (hb : b < s.nBands) (hcalm : Calm Fam s)
    (hest : ∀ x, Starting Fam s x → ListHeld (OfEntry s i) Fam (s.bandLists i x b)) :
    ListHeld (OfEntry s i) Fam (s.almanacLists i) := by
  rw [State.almanacLists_eq h]
  have h0 : Starting Fam s (s.fire i) :=
    ⟨fun g hg => ⟨(State.fire_engs i).here (hcalm g hg).1, by rw [(State.fire_engs i).eng]; exact (hcalm g hg).2⟩,
      (State.fire_fields s i).mono fun _ => Or.inl, State.fire_frame.keeps .fab⟩
  refine each_reaches (Starting Fam s) (ListHeld (OfEntry s i) Fam) hb h0 ?_ hest ?_
  · exact fun x b hx => State.bandLists_inv (fun _ _ _ hy hg _ => hy.startList hg) x b hx
  · intro x b hx hl
    exact (State.bandLists_inv (I := fun y => Starting Fam s y ∧ ListHeld (OfEntry s i) Fam y)
      (fun _ _ _ hy hg hr => ⟨hy.1.startList hg, hy.2.startList hy.1.calm hr⟩) x b ⟨hx, hl⟩).2

theorem State.bandLists_band {i b : Nat} {x : State} (hbit : bit (s.entry i).bands b = true) (h8 : bit (s.entry i).arg 8 = true)
    (hx : Calm (fun g => ∃ e, e < 2 ∧ g = .band b e) x) :
    ListHeld (OfEntry s i) (fun g => ∃ e, e < 2 ∧ g = .band b e) (s.bandLists i x b) := by
  unfold State.bandLists
  rw [if_neg (by rw [hbit]; decide), if_pos h8]
  exact .of_start hx ⟨_, Nat.mod_lt _ (by decide), rfl⟩ ⟨rfl, rfl, rfl⟩

theorem State.bandLists_core {i b k : Nat} {x : State} (hbit : bit (s.entry i).bands b = true) (h8 : bit (s.entry i).arg 8 = false)
    (hk : k < 8) (hcore : bit (s.entry i).cores k = true) (hact : s.active (s.phys (8 * b + k)) = true)
    (hx : Starting (fun g => ∃ e, e < 8 ∧ g = .core (s.phys (8 * b + k)) e) s x) :
    ListHeld (OfEntry s i) (fun g => ∃ e, e < 8 ∧ g = .core (s.phys (8 * b + k)) e) (s.bandLists i x b) := by
  have hlt (v : Nat) : bits v 0 3 < 8 := by simp only [bits]; omega
  unfold State.bandLists
  rw [if_neg (by rw [hbit]; decide), if_neg (by rw [h8]; decide)]
  refine each_reaches (Starting (fun g => ∃ e, e < 8 ∧ g = .core (s.phys (8 * b + k)) e) s)
    (ListHeld (OfEntry s i) fun g => ∃ e, e < 8 ∧ g = .core (s.phys (8 * b + k)) e) hk hx ?_ ?_ ?_
  · intro y j hy
    split
    · exact hy.startList (hlt _)
    · exact hy
  · intro y hy
    rw [if_pos ⟨hcore, by rw [hy.active, hy.phys]; exact hact⟩]
    exact .of_start hy.calm ⟨_, hlt _, by rw [hy.phys]⟩ ⟨rfl, rfl, rfl⟩
  · intro y j hy hl
    split
    · exact hl.startList hy.calm ⟨rfl, rfl, rfl⟩
    · exact hl

/-! ### The pending list -/

/-- A pending list starts on an idle engine in the cycle after the current one's end (R252). -/
theorem State.startPending_spec (hok : g.ok = true) (hg : engineHere s g) (hrun : (s.eng g).run = none) (hpend : (s.eng g).pend = some r)
    (hstop : (s.eng g).stopping = false) : (s.startPending g).now = max s.now (s.eng g).endedAt ∧
      ((s.startPending g).eng g).run = some r ∧ ((s.startPending g).eng g).pend = none ∧
      (s.startPending g).getF (F.ENG_STATE_STATE g.regs) = 1 ∧ (s.startPending g).getF (F.ENG_STATE_PENDING g.regs) = 0 := by
  have hnow := s.waitUntil_now (s.eng g).endedAt
  have hengs := (s.waitUntil_shows (s.eng g).endedAt).engs
  unfold State.startPending
  dsimp only
  rw [hpend]
  dsimp only
  rw [if_pos (by simp [hrun, hstop])]
  generalize s.waitUntil (s.eng g).endedAt = x at *
  have hx : engineHere (x.setF (F.ENG_STATE_PENDING g.regs) 0) g := (SameEngs.of_frame State.setF_frame).here (hengs.here hg)
  have hzero : (x.setF (F.ENG_STATE_PENDING g.regs) 0).getF (F.ENG_STATE_PENDING g.regs) = 0 := State.getF_setF_self _ _ _
  have hn : (x.setF (F.ENG_STATE_PENDING g.regs) 0).now = x.now := State.setF_frame.keeps .now
  generalize x.setF (F.ENG_STATE_PENDING g.regs) 0 = y at *
  have hy : engineHere (y.onEng g fun x => { x with pend := none }) g := State.onEng_here hx
  have hyp : ((y.onEng g fun x => { x with pend := none }).eng g).pend = none := congrArg Eng.pend (State.eng_onEng_self hx)
  have hyz : (y.onEng g fun x => { x with pend := none }).getF (F.ENG_STATE_PENDING g.regs) = 0 := (State.getF_onEng _ _).trans hzero
  have hyn : (y.onEng g fun x => { x with pend := none }).now = y.now := State.onEng_frame.keeps .now
  generalize (y.onEng g fun x => { x with pend := none }) = z at *
  have hb := State.beginList_eng (r := r) hy
  refine ⟨?_, congrArg Eng.run hb, (congrArg Eng.pend hb).trans hyp, State.beginList_state, ?_⟩
  · exact (State.beginList_frame.keeps .now).trans
      (hyn.trans (hn.trans hnow))
  · refine (State.beginList_fields ?_ ?_).trans hyz <;> simp [Fld.key, F.ENG_STATE_PENDING] <;> omega

end
end Sys2Proof.Machine


namespace Sys2Proof.Machine
set_option Elab.async false

/-! ## A thread's list, and the drain of a line clause (R233, R246); O21 -/

section
variable {s t u v : State} {p : Nat}

/-! ### A thread's list -/

theorem State.awaitUnit_engs {k : Nat} {x : CoreUnit} : SameEngs (s.awaitUnit p k x) s := by
  unfold State.awaitUnit
  extract_lets c n
  clear_value n
  refine SameEngs.trans (SameEngs.onCore ?_) (State.waitUntil_shows s _).engs
  exact fun _ => rfl

/-- The issue of a thread's operation leaves every engine as it stands. -/
theorem State.issueOp_engs {k line : Nat} : SameEngs (s.issueOp p k line) s := by
  have hrot (y : State) : SameEngs (y.rotate p k) y := .ite (.refl y) .onCore
  have hrun (y : State) : SameEngs (y.runOn p k line) y := SameEngs.trans .onCore (State.setThreadState_engs.trans .onCore)
  have hocc (y : State) : SameEngs (y.occupy p k (.issue k) 1) y := .onCore
  unfold State.issueOp
  exact (hocc _).trans ((hrun _).trans ((hrot _).trans State.awaitUnit_engs))

/-- A start at a core's engine leaves the bands alone. -/
theorem State.startList_core_frame {e : Nat} {r : ListRun} {th : Bool} : SameBut (s.startList (.core p e) r th) s [.regs, .cores] := by
  have hbegin (y : State) (r : ListRun) : SameBut (y.beginList (.core p e) r) y [.regs, .cores] :=
    SameBut.trans (State.onCore_frame.mono (by decide)) (State.setFs_frame.mono (by decide))
  have hlatch (y : State) (r : ListRun) : SameBut (y.latchList (.core p e) r) y [.regs, .cores] :=
    SameBut.trans (State.onCore_frame.mono (by decide)) (State.setFs_frame.mono (by decide))
  rw [State.startList_eq]
  refine SameBut.trans (State.onCore_frame.mono (by decide)) ?_
  repeat' split
  · unfold State.startFirst
    dsimp only
    split
    · exact (hlatch _ _).trans (hbegin _ _)
    · exact State.incF_frame.mono (by decide)
  · exact hbegin _ _
  · exact (hlatch _ _).trans (SameBut.trans (State.onCore_frame.mono (by decide)) (State.incF_frame.mono (by decide)))
  · exact hlatch _ _

/-- A thread starts its list with its run line, on an engine of its class. -/
theorem State.streamStart_eq {k line list : Nat} (hmay : s.mayIssue p k line = true)
    (hclass : s.isLineThread p k = decide (s.listEngine p list < 4)) : s.streamStart p k line list =
      (s.issueOp p k line).startList (.core p (s.listEngine p list)) ((s.issueOp p k line).listRun (.core p (s.listEngine p list)) list
        ((s.issueOp p k line).lineFrame p k line) line k) true := by
  unfold State.streamStart
  dsimp only
  rw [if_neg (by rw [hmay, hclass]; simp)]

/-! ### The semaphores of a drained clause (R246) -/

/-- Semaphore `i` stands at INIT with DEBT 0, as `v` had INIT. -/
def SemReset (v : State) (p i : Nat) (y : State) : Prop :=
  y.getF (F.CORE_SEM_DEBT p i) = 0 ∧ y.getF (F.CORE_SEM_COUNT p i) % 2 ^ 7 = v.getF (F.CORE_SEM_INIT p i) % 2 ^ 7

theorem SemReset.of_same {i : Nat} (h : SemReset v p i s) (hd : t.getF (F.CORE_SEM_DEBT p i) = s.getF (F.CORE_SEM_DEBT p i))
    (hc : t.getF (F.CORE_SEM_COUNT p i) = s.getF (F.CORE_SEM_COUNT p i)) : SemReset v p i t := by
  unfold SemReset at *
  rwa [hd, hc]

/-- The registers after one semaphore's drain. -/
theorem State.getF_drainSem (i : Nat) (f : Fld) : (s.drainSem p i).getF f =
    if s.getF (F.CORE_SEM_COUNT p i) = s.getF (F.CORE_SEM_INIT p i) ∧ s.getF (F.CORE_SEM_DEBT p i) = 0 then s.getF f
    else ((s.setFs [(F.CORE_SEM_COUNT p i, s.getF (F.CORE_SEM_INIT p i)), (F.CORE_SEM_DEBT p i, 0)]).incF
      (F.CORE_SEM_ERR_DRAIN_ERR p) 1).getF f := by
  unfold State.drainSem
  dsimp only
  split
  · rfl
  · exact State.getF_onCore _ _ _ _

theorem State.drainSem_sets {i : Nat} : SemReset s p i (s.drainSem p i) := by
  unfold SemReset
  rw [State.getF_drainSem, State.getF_drainSem]
  split
  next h => exact ⟨h.2, congrArg (· % 2 ^ 7) h.1⟩
  next =>
    generalize s.getF (F.CORE_SEM_INIT p i) = init
    have hd : ((s.setFs [(F.CORE_SEM_COUNT p i, init), (F.CORE_SEM_DEBT p i, 0)]).incF (F.CORE_SEM_ERR_DRAIN_ERR p) 1).getF
        (F.CORE_SEM_DEBT p i) = 0 := by
      refine (State.getF_incF_ne _ _ ?_).trans ((State.getF_setFs_at (i := 1) rfl ?_).trans (Nat.zero_mod _)) <;>
        simp [Fld.key, F.CORE_SEM_DEBT, F.CORE_SEM_ERR_DRAIN_ERR]
      omega
    have hc : ((s.setFs [(F.CORE_SEM_COUNT p i, init), (F.CORE_SEM_DEBT p i, 0)]).incF (F.CORE_SEM_ERR_DRAIN_ERR p) 1).getF
        (F.CORE_SEM_COUNT p i) = init % 2 ^ 7 := by
      refine (State.getF_incF_ne _ _ ?_).trans (State.getF_setFs_at (i := 0) rfl ?_) <;>
        simp [Fld.key, F.CORE_SEM_COUNT, F.CORE_SEM_DEBT, F.CORE_SEM_ERR_DRAIN_ERR]
      omega
    exact ⟨hd, (congrArg (· % 2 ^ 7) hc).trans (Nat.mod_mod _ _)⟩

/-- The drain of another semaphore leaves this one's fields alone. -/
theorem State.drainSem_other {i j : Nat} (hij : i ≠ j) : (s.drainSem p j).getF (F.CORE_SEM_DEBT p i) = s.getF (F.CORE_SEM_DEBT p i) ∧
    (s.drainSem p j).getF (F.CORE_SEM_COUNT p i) = s.getF (F.CORE_SEM_COUNT p i) := by
  rw [State.getF_drainSem, State.getF_drainSem]
  split
  · exact ⟨rfl, rfl⟩
  · constructor
    · refine (State.getF_incF_ne _ _ ?_).trans (State.getF_setFs_ne _ _ _ ?_) <;>
        simp [Fld.key, F.CORE_SEM_COUNT, F.CORE_SEM_DEBT, F.CORE_SEM_ERR_DRAIN_ERR] <;> omega
    · refine (State.getF_incF_ne _ _ ?_).trans (State.getF_setFs_ne _ _ _ ?_) <;>
        simp [Fld.key, F.CORE_SEM_COUNT, F.CORE_SEM_DEBT, F.CORE_SEM_ERR_DRAIN_ERR] <;> omega

theorem State.drainSem_init {i j : Nat} : (s.drainSem p j).getF (F.CORE_SEM_INIT p i) = s.getF (F.CORE_SEM_INIT p i) := by
  rw [State.getF_drainSem]
  split
  · rfl
  · refine (State.getF_incF_ne _ _ ?_).trans (State.getF_setFs_ne _ _ _ ?_) <;>
      simp [Fld.key, F.CORE_SEM_INIT, F.CORE_SEM_COUNT, F.CORE_SEM_DEBT, F.CORE_SEM_ERR_DRAIN_ERR] <;> omega

/-- The drain sets every semaphore of the clause. -/
theorem State.drainSems_reset {sems : List Nat} {i : Nat} (hi : i ∈ sems) : SemReset s p i (sems.foldl (fun y j => y.drainSem p j) s) := by
  refine foldl_reaches (fun y => y.getF (F.CORE_SEM_INIT p i) = s.getF (F.CORE_SEM_INIT p i)) (SemReset s p i) hi rfl ?_ ?_ ?_
  · exact fun y j hy => State.drainSem_init.trans hy
  · intro y hy
    obtain ⟨h1, h2⟩ := State.drainSem_sets (s := y) (p := p) (i := i)
    exact ⟨h1, h2.trans (congrArg (· % 2 ^ 7) hy)⟩
  · intro y j hy h
    by_cases hij : i = j
    · subst hij
      obtain ⟨h1, h2⟩ := State.drainSem_sets (s := y) (p := p) (i := i)
      exact ⟨h1, h2.trans (congrArg (· % 2 ^ 7) hy)⟩
    · exact h.of_same (State.drainSem_other hij).1 (State.drainSem_other hij).2

/-! ### Threads, lines and engines of a drained clause -/

/-- A core's threads and lines. -/
def threadsLines (c : CoreSt) : List Thread × List LineFl := (c.threads, c.lines)

theorem State.drainSems_shows {sems : List Nat} : CoresShow threadsLines (sems.foldl (fun y j => y.drainSem p j) s) s ∧
    SameEngs (sems.foldl (fun y j => y.drainSem p j) s) s := by
  refine ⟨.foldl s fun y j => ?_, .foldl s fun y j => ?_⟩
  · refine .ite (.refl _ y) (CoresShow.trans (CoresShow.onCore ?_) (.of_frame (State.incF_frame.trans State.setFs_frame)))
    exact fun _ => rfl
  · exact .ite (.refl y) (SameEngs.trans .onCore (.of_frame (State.incF_frame.trans State.setFs_frame)))

theorem State.dropPending_shows {e : Nat} : CoresShow threadsLines (s.dropPending (.core p e)) s := by
  refine CoresShow.trans (CoresShow.onCore ?_) (.of_frame State.setF_frame)
  exact fun _ => rfl

/-- The offsets of a core's registers before its semaphores. -/
def BeforeSems (o : Nat) : Prop := o < 0x300

theorem sem_not_before {i : Nat} (hi : i < 64) : ¬ AtOffset BeforeSems (F.CORE_SEM_DEBT p i) ∧ ¬ AtOffset BeforeSems (F.CORE_SEM_COUNT p i) := by
  constructor
  · refine not_atOffset ?_ (Nat.le_of_ble_eq_true rfl)
    simp only [BeforeSems, F.CORE_SEM_DEBT]
    omega
  · refine not_atOffset ?_ (Nat.le_of_ble_eq_true rfl)
    simp only [BeforeSems, F.CORE_SEM_COUNT]
    omega

/-- One engine's turn at the drain: its pending list goes where it is the clause's. -/
def State.dropOwn (s : State) (p k : Nat) (lists : List Nat) (e : Nat) : State :=
  match ((s.core p).eng.getD e {}).pend with
  | some r => if s.ownList p k e lists r then s.dropPending (.core p e) else s
  | none => s

theorem State.dropPendings_eq {k : Nat} {lists : List Nat} :
    s.dropPendings p k lists = (List.range 8).foldl (fun y e => y.dropOwn p k lists e) s := rfl

theorem State.dropOwn_inv {k e : Nat} {lists : List Nat} {I : State → Prop} (h : I s) (hd : I (s.dropPending (.core p e))) :
    I (s.dropOwn p k lists e) := by
  unfold State.dropOwn
  split
  · split
    · exact hd
    · exact h
  · exact h

theorem State.dropPendings_shows {k : Nat} {lists : List Nat} : CoresShow threadsLines (s.dropPendings p k lists) s ∧
    SameFields (s.dropPendings p k lists) s (AtOffset BeforeSems) := by
  rw [State.dropPendings_eq]
  refine ⟨.foldl s fun y e => State.dropOwn_inv (I := fun z => CoresShow threadsLines z y) (.refl _ y) State.dropPending_shows, ?_⟩
  have h : ∀ e ∈ List.range 8, ∀ y : State, SameFields (y.dropOwn p k lists e) y (AtOffset BeforeSems) := by
    intro e he y
    have he8 := List.mem_range.1 he
    refine State.dropOwn_inv (I := fun z => SameFields z y (AtOffset BeforeSems)) (.refl y _) ?_
    refine SameFields.trans (.of_frame State.onEng_frame) (.setAt ?_ 2)
    simp only [F.ENG_STATE_PENDING, EngId.regs, coreEng, BeforeSems]
    omega
  generalize List.range 8 = l at h
  induction l generalizing s with
  | nil => exact .refl s _
  | cons e l ih => exact (ih fun a ha => h a (List.mem_cons_of_mem _ ha)).trans (h e List.mem_cons_self s)

theorem State.here_of_pend {g : EngId} {r : ListRun} (h : (s.eng g).pend = some r) : engineHere s g := by
  cases g with
  | core p e =>
    refine Nat.lt_of_not_le fun hle => ?_
    rw [State.eng, List.getD_eq_default _ _ hle] at h
    cases h
  | band b e =>
    refine Nat.lt_of_not_le fun hle => ?_
    rw [State.eng, List.getD_eq_default _ _ hle] at h
    cases h

/-- The clause's pending list of an engine goes at the engine's turn. -/
theorem State.dropOwn_drops {k e : Nat} {lists : List Nat} {r : ListRun} (hown : s.ownList p k e lists r = true)
    (h : (s.eng (.core p e)).pend = none ∨ (s.eng (.core p e)).pend = some r) :
    ((s.dropOwn p k lists e).eng (.core p e)).pend = none := by
  unfold State.dropOwn
  rw [show (s.core p).eng.getD e {} = s.eng (.core p e) from rfl]
  rcases h with h | h
  · rw [h]
    exact h
  · rw [h]
    dsimp only
    rw [if_pos hown]
    exact congrArg Eng.pend (State.eng_onEng_self ((SameEngs.of_frame State.setF_frame).here (State.here_of_pend h)))

theorem State.dropOwn_eng_ne {k e a : Nat} {lists : List Nat} (h : a ≠ e) :
    (s.dropOwn p k lists e).eng (.core p a) = s.eng (.core p a) := by
  have hne : EngId.core p a ≠ EngId.core p e := fun h' => h (by injection h')
  exact State.dropOwn_inv (I := fun y => y.eng (.core p a) = s.eng (.core p a)) rfl
    ((State.eng_onEng_ne hne).trans (State.eng_setF _ _))

/-- A line clause's lists wait at no line-class engine after its drain. -/
theorem State.dropPendings_drops {e : Nat} {lists : List Nat} {r : ListRun} (he : e < 4) (hr : r.list ∈ lists)
    (h : (s.eng (.core p e)).pend = some r) : ((s.dropPendings p 0 lists).eng (.core p e)).pend = none := by
  have hown (y : State) : y.ownList p 0 e lists r = true := by
    simp [State.ownList, State.isLineThread, he, hr]
  rw [State.dropPendings_eq]
  refine foldl_reaches (fun y => (y.eng (.core p e)).pend = none ∨ (y.eng (.core p e)).pend = some r)
    (fun y => (y.eng (.core p e)).pend = none) (a := e) (List.mem_range.2 (by omega)) (Or.inr h) ?_ ?_ ?_
  · intro y a hy
    by_cases ha : e = a
    · exact ha ▸ Or.inl (State.dropOwn_drops (hown y) hy)
    · rwa [State.dropOwn_eng_ne ha]
  · exact fun y hy => State.dropOwn_drops (hown y) hy
  · intro y a hy hp
    by_cases ha : e = a
    · exact ha ▸ State.dropOwn_drops (hown y) hy
    · rwa [State.dropOwn_eng_ne ha]

/-! ### The next line of thread 0 -/

/-- A change of a thread leaves its core's lines, its registers and its engines alone. -/
theorem State.onThread_rest {k : Nat} {f : Thread → Thread} : ((s.onThread p k f).core p).lines = (s.core p).lines ∧
    SameFields (s.onThread p k f) s (AtOffset BeforeSems) ∧ SameEngs (s.onThread p k f) s := by
  unfold State.onThread
  refine ⟨?_, .onCore _ _ _ _, .onCore⟩
  rw [State.core_onCore_self]

/-- Thread 0 lays its clause down; the core's lines and its semaphores stay. -/
theorem State.dropClause_spec : ((s.dropClause p 0).core p).threads = (s.core p).threads.modify 0 (fun h => { h with clause := none, wait := .none }) ∧
    ((s.dropClause p 0).core p).lines = (s.core p).lines ∧ SameFields (s.dropClause p 0) s (AtOffset BeforeSems) ∧
    SameEngs (s.dropClause p 0) s := by
  have hoff : BeforeSems ((F.CORE_THREAD_STATE p).addr % 0x10000) := by
    simp only [F.CORE_THREAD_STATE, BeforeSems]
    omega
  have hthreads := State.onThread_threads (s := s) (p := p) (k := 0) (f := fun h => { h with clause := none, wait := .none })
  obtain ⟨hlines, hf, he⟩ := State.onThread_rest (s := s) (p := p) (k := 0) (f := fun h => { h with clause := none, wait := .none })
  unfold State.dropClause
  dsimp only
  rw [if_neg (by decide)]
  generalize (s.onThread p 0 fun h => { h with clause := none, wait := .none }) = x at *
  have h1 : CoresShow threadsLines (x.setThreadState p 0 0) x := .of_frame State.setThreadState_frame
  have hf1 : SameFields (x.setThreadState p 0 0) x (AtOffset BeforeSems) := .setAt hoff 0
  have he1 : SameEngs (x.setThreadState p 0 0) x := State.setThreadState_engs
  generalize x.setThreadState p 0 0 = y at *
  have h2 : CoresShow threadsLines (y.onCore p fun c => { c with progress := c.progress.filter fun e => e.1.1 != 0 }) y :=
    .onCore fun _ => rfl
  have hf2 := SameFields.onCore y p (fun c => { c with progress := c.progress.filter fun e => e.1.1 != 0 }) (AtOffset BeforeSems)
  have he2 : SameEngs (y.onCore p fun c => { c with progress := c.progress.filter fun e => e.1.1 != 0 }) y := .onCore
  generalize (y.onCore p fun c => { c with progress := c.progress.filter fun e => e.1.1 != 0 }) = z at *
  exact ⟨(congrArg Prod.fst ((h2 p).trans (h1 p))).trans hthreads, (congrArg Prod.snd ((h2 p).trans (h1 p))).trans hlines,
    hf2.trans (hf1.trans hf), he2.trans (he1.trans he)⟩

theorem State.giveLine_spec {cl y : Nat} (h : 0 < (s.core p).threads.length) : (s.giveLine p cl y).threadClause p 0 = some cl ∧
    SameFields (s.giveLine p cl y) s (AtOffset BeforeSems) ∧ SameEngs (s.giveLine p cl y) s := by
  unfold State.giveLine
  extract_lets thr s1
  have hth : (s1.core p).threads = (s.core p).threads.modify 0 (fun h => { h with clause := some cl, runLine := y }) :=
    ((CoresShow.of_frame State.setF_frame : CoresShow CoreSt.threads _ _) p).trans State.onThread_threads
  have h1 : s1.threadClause p 0 = some cl := by
    rw [State.threadClause, hth, List.getD_eq_getElem?_getD, List.getElem?_modify_eq, List.getElem?_eq_getElem h]
    rfl
  have h2 : SameFields s1 s (AtOffset BeforeSems) := by
    refine SameFields.trans (SameFields.setAt ?_ 8) (SameFields.onCore _ _ _ _)
    simp only [F.CORE_THREAD_LINE_THREADED, BeforeSems]
    omega
  have h3 : SameEngs s1 s := SameEngs.trans (.of_frame State.setF_frame) .onCore
  clear_value s1
  split
  · refine ⟨?_, SameFields.trans (SameFields.onCore _ _ _ _) h2, SameEngs.trans .onCore h3⟩
    rw [State.threadClause, State.onThread_threads, List.getD_eq_getElem?_getD, List.getElem?_modify_ne _ _ (by decide),
      ← List.getD_eq_getElem?_getD]
    exact h1
  · exact ⟨h1, h2, h3⟩

/-- Thread 0 takes the clause of the line that waits first. -/
theorem State.nextLine_spec {cl : Nat} (h : 0 < (s.core p).threads.length) (hnone : s.threadClause p 0 = none) :
    (s.nextLine p cl).threadClause p 0 = ((s.core p).lines.find? fun l => !l.begun && !l.complete).map (·.clause) ∧
    SameFields (s.nextLine p cl) s (AtOffset BeforeSems) ∧ SameEngs (s.nextLine p cl) s := by
  unfold State.nextLine
  extract_lets s1
  have h1 : CoresShow threadsLines s1 s := .onCore fun _ => rfl
  have h2 : SameFields s1 s (AtOffset BeforeSems) := SameFields.onCore _ _ _ _
  have h3 : SameEngs s1 s := .onCore
  clear_value s1
  have hth : (s1.core p).threads = (s.core p).threads := congrArg Prod.fst (h1 p)
  rw [show (s1.core p).lines = (s.core p).lines from congrArg Prod.snd (h1 p)]
  split
  next l hl =>
    obtain ⟨g1, g2, g3⟩ := State.giveLine_spec (s := s1) (cl := l.clause) (y := l.y) (by rwa [hth])
    exact ⟨by rw [g1, hl]; rfl, g2.trans h2, g3.trans h3⟩
  next hl =>
    refine ⟨?_, SameFields.trans (SameFields.setAt ?_ 8) h2, SameEngs.trans (.of_frame State.setF_frame) h3⟩
    · rw [hl, State.threadClause, (CoresShow.of_frame State.setF_frame : CoresShow CoreSt.threads _ _) p, hth]
      exact hnone
    · simp only [F.CORE_THREAD_LINE_THREADED, BeforeSems]
      omega

/-- Thread 0's line clause drains: what it does from the end of the drain on. -/
theorem State.clauseDrained_eq {cl : Nat} {sems lists : List Nat} (hcl : s.threadClause p 0 = some cl) (hd : s.drained p 0 lists = true)
    (hothers : ∀ u, u ≠ 0 → u < 4 → s.isLineThread p u = true → s.threadClause p u ≠ some cl)
    (hv : v = s.waitUntil (drainEnd (s.core p) (s.clock p) 0)) : s.clauseDrained p 0 sems lists =
      (((sems.foldl (fun y i => y.drainSem p i) v).dropPendings p 0 lists).dropClause p 0).nextLine p cl := by
  have hline : s.isLineThread p 0 = true := rfl
  have hno : ((List.range 4).any fun u => u != 0 && s.threadClause p u == some cl && s.isLineThread p u == s.isLineThread p 0) = false := by
    rw [List.any_eq_false]
    intro u hu h
    simp only [Bool.and_eq_true, bne_iff_ne, beq_iff_eq, hline] at h
    obtain ⟨⟨h0, hclause⟩, hl⟩ := h
    exact hothers u h0 (List.mem_range.1 hu) hl hclause
  unfold State.clauseDrained
  rw [hcl]
  dsimp only
  rw [hd, hno, hline, ← hv, if_neg (by decide), if_neg (by decide), if_pos rfl,
    if_neg (fun h => absurd h.1 Bool.false_ne_true), if_neg Bool.false_ne_true]

/-- The drain of thread 0's line clause. -/
theorem State.clauseDrained_spec {cl : Nat} {sems lists : List Nat} (hsems : ∀ i ∈ sems, i < 64) (hcl : s.threadClause p 0 = some cl)
    (hd : s.drained p 0 lists = true) (hth : 0 < (s.core p).threads.length)
    (hothers : ∀ u, u ≠ 0 → u < 4 → s.isLineThread p u = true → s.threadClause p u ≠ some cl)
    (hv : v = s.waitUntil (drainEnd (s.core p) (s.clock p) 0)) :
    (s.clauseDrained p 0 sems lists).now = max s.now (drainEnd (s.core p) (s.clock p) 0) ∧
      (s.clauseDrained p 0 sems lists).threadClause p 0 = ((v.core p).lines.find? fun l => !l.begun && !l.complete).map (·.clause) ∧
      (∀ i ∈ sems, SemReset v p i (s.clauseDrained p 0 sems lists)) ∧
      ∀ e r, e < 4 → (v.eng (.core p e)).pend = some r → r.list ∈ lists → ((s.clauseDrained p 0 sems lists).eng (.core p e)).pend = none := by
  rw [State.clauseDrained_eq hcl hd hothers hv]
  have hnow : v.now = max s.now (drainEnd (s.core p) (s.clock p) 0) := hv ▸ s.waitUntil_now _
  have hlen : (v.core p).threads = (s.core p).threads := hv ▸ State.waitUntil_threads s _ p
  clear hv
  have hreset := fun i (hi : i ∈ sems) => State.drainSems_reset (s := v) (p := p) hi
  obtain ⟨ht1, he1⟩ := State.drainSems_shows (s := v) (p := p) (sems := sems)
  have hn1 : (sems.foldl (fun y i => y.drainSem p i) v).now = v.now :=
    (SameBut.foldl (SameBut.refl _ _) fun y i => State.drainSem_frame : SameBut (sems.foldl (fun y i => y.drainSem p i) v) v _).keeps .now
  generalize sems.foldl (fun y i => y.drainSem p i) v = a at *
  obtain ⟨ht2, hf2⟩ := State.dropPendings_shows (s := a) (p := p) (k := 0) (lists := lists)
  have hdrop := fun e r (he : e < 4) (hr : r.list ∈ lists) (h : (a.eng (.core p e)).pend = some r) => State.dropPendings_drops he hr h
  have hn2 : (a.dropPendings p 0 lists).now = a.now := State.dropPendings_frame.keeps .now
  generalize a.dropPendings p 0 lists = b at *
  obtain ⟨ht3, hl3, hf3, he3⟩ := State.dropClause_spec (s := b) (p := p)
  have hn3 : (b.dropClause p 0).now = b.now := State.dropClause_frame.keeps .now
  generalize b.dropClause p 0 = c at *
  have hthreads : (b.core p).threads = (s.core p).threads := (congrArg Prod.fst ((ht2 p).trans (ht1 p))).trans hlen
  have hlines : (c.core p).lines = (v.core p).lines := hl3.trans (congrArg Prod.snd ((ht2 p).trans (ht1 p)))
  have hnone : c.threadClause p 0 = none := by
    rw [State.threadClause, ht3, List.getD_eq_getElem?_getD, List.getElem?_modify_eq, hthreads, List.getElem?_eq_getElem hth]
    rfl
  obtain ⟨hclause, hf4, he4⟩ := State.nextLine_spec (cl := cl) (s := c) (p := p) (by rwa [ht3, List.length_modify, hthreads]) hnone
  have hn4 : (c.nextLine p cl).now = c.now := State.nextLine_frame.keeps .now
  generalize c.nextLine p cl = d at *
  have hf := hf4.trans (hf3.trans hf2)
  refine ⟨hn4.trans (hn3.trans (hn2.trans (hn1.trans hnow))), hclause.trans (by rw [hlines]), fun i hi => ?_, fun e r he hp hr => ?_⟩
  · obtain ⟨hdebt, hcount⟩ := sem_not_before (p := p) (hsems i hi)
    exact (hreset i hi).of_same (hf _ hdebt) (hf _ hcount)
  · refine (congrArg Eng.pend (((he4.trans he3).eng _))).trans (hdrop e r he hr ?_)
    rw [he1.eng]
    exact hp

end
end Sys2Proof.Machine

namespace Sys2Proof
set_option Elab.async false
open Sys2Proof.Machine

/-- Settles O21: starts reach engines by R252, almanac entries and threads start lists, and a line clause drains. -/
theorem listsStartPendAndDrain : Obligations.ListsStartPendAndDrain := by
  unfold Obligations.ListsStartPendAndDrain
  refine ⟨?entry, ?band, ?core, ?idle, ?latched, ?replaces, ?atEnd, ?before, ?pending, ?thread, ?drain⟩
  case entry =>
    intro s i h
    exact Completes.of_act (t := s.almanacLists i) rfl rfl fun w => ⟨State.almanacLists_spec h, SameBut.ended State.almanacLists_frame w⟩
  case band =>
    intro s i b h hb hbit h8 hlen hcalm
    obtain ⟨g, r, ⟨e, -, rfl⟩, hr, hlist, hframe, htag⟩ := State.almanacLists_held (Fam := fun g => ∃ e, e < 2 ∧ g = .band b e) h hb
      (by rintro g ⟨e, he, rfl⟩; exact ⟨show e < (s.band b).eng.length by omega, hcalm e⟩)
      fun x hx => State.bandLists_band hbit h8 hx.calm
    exact Completes.of_result (t := s.almanacLists i) rfl rfl ⟨e, r, hr, hlist, hframe, htag⟩ fun _ _ h => h
  case core =>
    intro s i b k h hb hbit h8 hk hcore hact hlen hcalm
    obtain ⟨g, r, ⟨e, -, rfl⟩, hr, hlist, hframe, htag⟩ := State.almanacLists_held
      (Fam := fun g => ∃ e, e < 8 ∧ g = .core (s.phys (8 * b + k)) e) h hb
      (by rintro g ⟨e, he, rfl⟩; exact ⟨show e < (s.core (s.phys (8 * b + k))).eng.length by omega, hcalm e⟩)
      fun x hx => State.bandLists_core hbit h8 hk hcore hact hx
    exact Completes.of_result (t := s.almanacLists i) rfl rfl ⟨e, r, hr, hlist, hframe, htag⟩ fun _ _ h => h
  case idle => exact fun s g r th hg hrun hpend hstop hend hfirst => State.startList_idle hg hrun hpend hstop hend hfirst
  case latched =>
    intro s g r q th hg hrun hpend hfirst
    obtain ⟨h1, h2, h3⟩ := State.startList_latched (r := r) (th := th) hg hfirst (Or.inl ⟨by rw [hrun]; exact Option.some_ne_none q, hpend⟩)
    exact ⟨h1.trans hrun, h2, h3⟩
  case replaces => exact fun s g r q th hg hpend hend hfirst => State.startList_replaces hg hpend hend hfirst
  case atEnd =>
    intro s g r th hg hrun hend hfirst
    obtain ⟨h1, h2, h3⟩ := State.startList_latched (r := r) (th := th) hg hfirst (Or.inr ⟨hrun, hend⟩)
    exact ⟨h1.trans hrun, h2, h3⟩
  case before => exact fun s g r q hg hfirst hrun hpend => State.startList_before hg hfirst hrun hpend
  case pending =>
    intro s g r hok hg hrun hpend hstop
    exact Completes.of_result (t := s.startPending g) rfl hok (State.startPending_spec hok hg hrun hpend hstop) fun _ _ h => h
  case thread =>
    intro s v p t line list e hp ht hlist hmay he hclass hlen hv
    have heq : s.streamStart p t line list = v.startList (.core p e) (v.listRun (.core p e) list (v.lineFrame p t line) line t) true := by
      rw [State.streamStart_eq hmay (by rw [hclass, he]), ← hv, ← he]
    have hengs : SameEngs v s := hv ▸ State.issueOp_engs
    refine Completes.of_act (t := s.streamStart p t line list) rfl (by simp [Instr.wf, hp, ht, hlist]) fun w => ?_
    have hpend : v.pending = s.pending := hv ▸ State.issueOp_frame.keeps .pending
    have hframe : SameBut (s.streamStart p t line list) v [.regs, .cores] := heq ▸ State.startList_core_frame
    have hheld := (State.startList_held (r := v.listRun (.core p e) list (v.lineFrame p t line) line t) (th := true)
      (hengs.here (g := .core p e) hlen) (Or.inl rfl)).1
    rw [← heq] at hheld
    generalize s.streamStart p t line list = u at *
    refine ⟨hframe.endedAfter ((hframe.keeps .pending).trans hpend) w,
      v.listRun (.core p e) list (v.lineFrame p t line) line t, ?_, rfl, rfl, rfl, rfl, rfl⟩
    rcases hheld with ⟨-, -, h⟩ | ⟨-, h⟩
    · exact Or.inl h
    · exact Or.inr h
  case drain =>
    intro s v p cl sems lists hwf hcl hd hth hothers hv
    have hsems : ∀ i ∈ sems, i < 64 := by
      simp only [Instr.wf, Bool.and_eq_true, List.all_eq_true, isSem, decide_eq_true_eq] at hwf
      exact hwf.1.2
    exact Completes.of_result (t := s.clauseDrained p 0 sems lists) rfl hwf (State.clauseDrained_spec hsems hcl hd hth hothers hv)
      fun _ _ h => h

end Sys2Proof


namespace Sys2Proof.Machine
set_option Elab.async false

/-! ## The scratchpad in the background, map-outs, and line-store slots (R201, R212 to R214, R222, R224); O20 -/

section
variable {s t u v : State} {p b a n : Nat}

/-! ### Background accesses (R201) -/

/-- The waiting accesses after one that asks again at `a` in cycle `now`. -/
def bgAsked (l : List (Nat × Nat)) (a now : Nat) : List (Nat × Nat) :=
  if l.any fun x => x.1 == a then l.map fun x => if x.1 = a then (x.1, now) else x else l ++ [(a, now)]

theorem bgAsked_waits (l : List (Nat × Nat)) (a now : Nat) : ((bgAsked l a now).any fun x => x.1 == a && x.2 == now) = true := by
  unfold bgAsked
  split
  next h =>
    obtain ⟨x, hx, hxa⟩ := List.any_eq_true.1 h
    exact List.any_eq_true.2 ⟨(x.1, now), List.mem_map.2 ⟨x, hx, if_pos (by simpa using hxa)⟩, by simpa using hxa⟩
  next => simp

/-- What the banks of an access hold against it in this cycle (R201). -/
def bgHeld (s : State) (p a n : Nat) (busy : Bool) : Prop :=
  busy = true ∨ (((s.core p).bg.takeWhile fun x => x.1 != a).any fun x => (banksOf [(a, n)]).contains (x.1 / 64 % 32)) = true ∨
    ((banksOf [(a, n)]).any fun k => SMap.get 0 (s.core p).bgLast k == s.now + 1) = true

/-- An access that is held waits, and its wait counts. -/
theorem State.bgTurn_held {busy : Bool} (h : bgHeld s p a n busy) : s.bgTurn p [(a, n)] busy =
    (s.onCore p fun c => { c with bg := bgAsked c.bg a s.now, bgWait := c.bgWait + bgWaited s p a }, false) := by
  unfold bgHeld at h
  unfold State.bgTurn
  dsimp only
  rw [if_pos h]
  rfl

/-- An access that nothing holds is served, and leaves those that wait. -/
theorem State.bgTurn_served (hold : (((s.core p).bg.takeWhile fun x => x.1 != a).any fun x => (banksOf [(a, n)]).contains (x.1 / 64 % 32)) = false)
    (hused : ((banksOf [(a, n)]).any fun k => SMap.get 0 (s.core p).bgLast k == s.now + 1) = false) :
    s.bgTurn p [(a, n)] false = (s.onCore p fun c => { c with
      bgWait := c.bgWait + bgWaited s p a, bg := c.bg.filter fun x => x.1 != a
      bgLast := (banksOf [(a, n)]).foldl (fun m k => SMap.set 0 m k (s.now + 1)) c.bgLast }, true) := by
  unfold State.bgTurn
  dsimp only
  rw [hold, hused, if_neg (by decide)]
  rfl

/-- Where no word is in error and none is met, a read of the scratchpad changes nothing. -/
theorem State.spadRead_clean {ws : List Nat} (h : (s.core p).bad = []) : (s.spadRead p ws {}).1 = s := by
  have hue : s.ueWords p ws {} = [] := by
    rw [State.ueWords, h]
    exact List.filter_eq_nil_iff.2 fun w _ => by simp [SMap.get]
  have hce : (ws.filter fun w => ([] : List Nat).contains w && !([] : List Nat).contains w) = [] :=
    List.filter_eq_nil_iff.2 fun w _ => by simp
  unfold State.spadRead
  dsimp only
  rw [hue, hce]
  rfl

theorem State.spadMerge_clean {ws : List Nat} (h : (s.core p).bad = []) : s.spadMerge p ws [] [] = s := by
  unfold State.spadMerge
  refine List.foldl_fixed' (fun w => ?_) ws
  rw [if_neg (by simp [h]), if_neg (by simp)]

/-- An access that meets no error and is served changes its core's waiting accesses alone. -/
theorem State.background_served {write : Bool} (hbad : (s.core p).bad = [])
    (hold : (((s.core p).bg.takeWhile fun x => x.1 != a).any fun x => (banksOf [(a, n)]).contains (x.1 / 64 % 32)) = false)
    (hused : ((banksOf [(a, n)]).any fun k => SMap.get 0 (s.core p).bgLast k == s.now + 1) = false) :
    s.background p a n write false {} = (s.bgTurn p [(a, n)] false).1 := by
  have hb : ((s.bgTurn p [(a, n)] false).1.core p).bad = [] := by
    rw [State.bgTurn_served hold hused, State.core_onCore_self]
    exact hbad
  have hok : (s.bgTurn p [(a, n)] false).2 = true := by rw [State.bgTurn_served hold hused]
  unfold State.background
  dsimp only
  generalize s.bgTurn p [(a, n)] false = q at *
  rw [hok, if_neg (by decide)]
  split
  · exact State.spadMerge_clean hb
  · exact State.spadRead_clean hb

theorem State.background_held {write busy : Bool} {e : EccIn} (h : bgHeld s p a n busy) :
    s.background p a n write busy e = s.onCore p fun c => { c with bg := bgAsked c.bg a s.now, bgWait := c.bgWait + bgWaited s p a } := by
  unfold State.background
  rw [State.bgTurn_held h]
  rfl

/-! ### What a read with ECC keeps of a memory's rows -/

/-- A core's rows that are mapped out, and its scratchpad. -/
def coreRows (c : CoreSt) : List Nat × SMap (BitVec 8) := (c.mapped, c.spad)

theorem State.spadEcc_fields {f : Fld} (hf : f ∈ mergeFields p) {k : Nat} :
    SameFields (s.incF f k) s (WithTimeOr [F.CORE_SPAD_MAP_QUEUED p]) :=
  (SameFields.incIn hf).mono fun _ h => Or.inl ⟨p, Among.mono h (List.subset_append_right _ _)⟩

theorem State.setSpadMap_fields {m : MapOut} : SameFields (s.setSpadMap p m) s (WithTimeOr [F.CORE_SPAD_MAP_QUEUED p]) :=
  (SameFields.setIn List.mem_cons_self).orAmong.trans (SameFields.onCore _ _ _ _)

theorem State.spadRead_fields {ws : List Nat} {e : EccIn} :
    SameFields (s.spadRead p ws e).1 s (WithTimeOr [F.CORE_SPAD_MAP_QUEUED p]) := by
  have hlast (y : State) (w k : Nat) : SameFields (y.spadLast p w k) y (WithTimeOr [F.CORE_SPAD_MAP_QUEUED p]) :=
    (State.spadLast_fields y p w k).orTime
  refine .foldl (.ite (.refl _ _) ?_) fun y w => ?_
  · exact .foldl (.foldl (.refl _ _) fun y w => (hlast _ _ _).trans (State.spadEcc_fields (by simp [mergeFields]))) fun _ _ =>
      State.setSpadMap_fields
  · exact State.setSpadMap_fields.trans ((SameFields.onCore _ _ _ _).trans ((hlast _ _ _).trans
      (State.spadEcc_fields (by simp [mergeFields]))))

theorem State.setSpadMap_rows {m : MapOut} : CoresShow coreRows (s.setSpadMap p m) s := by
  refine CoresShow.trans (.of_frame State.setF_frame) (CoresShow.onCore ?_)
  exact fun _ => rfl

theorem State.spadRead_rows {ws : List Nat} {e : EccIn} : CoresShow coreRows (s.spadRead p ws e).1 s := by
  have hcount (y : State) (f : Fld) (w k : Nat) : CoresShow coreRows ((y.incF f 1).spadLast p w k) y :=
    (CoresShow.of_frame State.spadLast_frame).trans (.of_frame State.incF_frame)
  refine CoresShow.trans (CoresShow.foldl _ fun y w => ?_) (.ite (.refl _ s)
    (CoresShow.trans (CoresShow.foldl _ fun _ _ => State.setSpadMap_rows) (CoresShow.foldl s fun y w => hcount _ _ _ _)))
  refine State.setSpadMap_rows.trans (CoresShow.trans (CoresShow.onCore ?_) (hcount _ _ _ _))
  exact fun _ => rfl

/-! ### Map-outs of scratchpad rows (R212 to R214) -/

/-- The queue's head leaves it; the oldest refused row takes the place. -/
theorem MapOut.next_queue {m : MapOut} {row : Nat} {rest : List Nat} {mapped : Bool} (hq : m.queue = row :: rest) (hr : m.refused = []) :
    (m.next 16 mapped).queue = rest := by
  unfold MapOut.next
  rw [hq]
  dsimp only
  rw [hr]

theorem State.ledger_adds {k n : Nat} {bs : List Byte} (h : s.led.queue.length < 64) :
    (s.ledger k n bs).led.queue.length = s.led.queue.length + 1 := by
  unfold State.ledger
  rw [if_neg (by omega)]
  exact List.length_append

/-- A row's copy has been made: it leaves the queue and is served by a spare (R214). -/
def State.spadRowMapped (s : State) (p row left : Nat) : State :=
  (((s.setSpadMap p ((s.spadMapUnit p).next 16 true)).onCore p fun c => { c with mapped := c.mapped ++ [row] }).incF
    (F.CORE_SPAD_MAP_FIELD_MAPPED p) 1).setF (F.CORE_SPAD_MAP_SPARES_LEFT p) left

theorem spadMap_keys : (F.CORE_SPAD_MAP_FIELD_MAPPED p).key ≠ (F.CORE_SPAD_MAP_SPARES_LEFT p).key ∧
    (F.CORE_SPAD_MAP_FIELD_MAPPED p).key ≠ (F.CORE_SPAD_MAP_QUEUED p).key ∧
    (F.CORE_SPAD_MAP_NO_SPARE p).key ≠ (F.CORE_SPAD_MAP_QUEUED p).key := by
  simp [Fld.key, F.CORE_SPAD_MAP_FIELD_MAPPED, F.CORE_SPAD_MAP_SPARES_LEFT, F.CORE_SPAD_MAP_QUEUED, F.CORE_SPAD_MAP_NO_SPARE]

theorem State.getF_setSpadMap {m : MapOut} {f : Fld} (h : f.key ≠ (F.CORE_SPAD_MAP_QUEUED p).key) : (s.setSpadMap p m).getF f = s.getF f :=
  (State.getF_setF_ne _ _ h).trans (State.getF_onCore _ _ _ _)

theorem State.setSpadMap_queue {m : MapOut} : ((s.setSpadMap p m).core p).mapQ = m.queue := by
  have h : CoresShow CoreSt.mapQ (s.setSpadMap p m) (s.onCore p fun c =>
      { c with tracker := m.tracker, refused := m.refused, mapQ := m.queue }) := .of_frame State.setF_frame
  rw [h p, State.core_onCore_self]

theorem State.spadRowMapped_spec {row left : Nat} : ((s.spadRowMapped p row left).core p).mapped = (s.core p).mapped ++ [row] ∧
    ((s.spadRowMapped p row left).core p).spad = (s.core p).spad ∧
    ((s.spadRowMapped p row left).core p).mapQ = ((s.spadMapUnit p).next 16 true).queue ∧
    (s.spadRowMapped p row left).getF (F.CORE_SPAD_MAP_FIELD_MAPPED p) = satAdd 8 (s.getF (F.CORE_SPAD_MAP_FIELD_MAPPED p)) 1 ∧
    SameBut (s.spadRowMapped p row left) s [.regs, .cores] := by
  unfold State.spadRowMapped
  generalize hm : (s.spadMapUnit p).next 16 true = m
  have hrows : coreRows ((s.setSpadMap p m).core p) = coreRows (s.core p) := State.setSpadMap_rows p
  have hq := State.setSpadMap_queue (s := s) (p := p) (m := m)
  have hf := State.getF_setSpadMap (s := s) (p := p) (m := m) spadMap_keys.2.1
  have hb : SameBut (s.setSpadMap p m) s [.regs, .cores] := State.setSpadMap_frame
  generalize s.setSpadMap p m = y at *
  have hcore := State.core_onCore_self y p fun c => { c with mapped := c.mapped ++ [row] }
  have hfy := State.getF_onCore y p (fun c => { c with mapped := c.mapped ++ [row] }) (F.CORE_SPAD_MAP_FIELD_MAPPED p)
  have hby : SameBut (y.onCore p fun c => { c with mapped := c.mapped ++ [row] }) y [.regs, .cores] := State.onCore_frame.mono (by decide)
  generalize (y.onCore p fun c => { c with mapped := c.mapped ++ [row] }) = z at *
  have hc : CoresShow id ((z.incF (F.CORE_SPAD_MAP_FIELD_MAPPED p) 1).setF (F.CORE_SPAD_MAP_SPARES_LEFT p) left) z :=
    (CoresShow.of_frame State.setF_frame).trans (.of_frame State.incF_frame)
  have hz : (((z.incF (F.CORE_SPAD_MAP_FIELD_MAPPED p) 1).setF (F.CORE_SPAD_MAP_SPARES_LEFT p) left).core p) =
      { y.core p with mapped := (y.core p).mapped ++ [row] } := (hc p).trans hcore
  rw [hz]
  refine ⟨congrArg (· ++ [row]) (congrArg Prod.fst hrows), congrArg Prod.snd hrows, hq, ?_,
    ((State.setF_frame.mono (by decide)).trans (State.incF_frame.mono (by decide))).trans (hby.trans hb)⟩
  rw [State.getF_setF_ne _ _ spadMap_keys.1, State.getF_incF_self, hfy, hf]
  rfl

/-- A map-out can be looked at: its row heads the queue, in vertical blanking, with no line in flight (R214). -/
structure SpadMapDue (s : State) (p row : Nat) (rest : List Nat) : Prop where
  queue : (s.core p).mapQ = row :: rest
  blank : s.inBlank = true
  flight : s.inFlight p = false

/-- The spares that a row's bank has used (R212). -/
def spadUsed (s : State) (p row : Nat) : Nat := ((s.core p).mapped.filter fun r => r % 32 == row % 32).length

theorem SpadMapDue.goes {row : Nat} {rest : List Nat} (h : SpadMapDue s p row rest) : ¬ ((!s.inBlank) = true ∨ s.inFlight p = true) := by
  rw [h.blank, h.flight]
  decide

theorem State.spadMapOutStep_of {i : EccAt} {x : State × Bool} (h : s.spadMapOut i = x) :
    s.spadMapOutStep i = if x.2 then x.1.retire i.unit 4 false else x.1 := by
  unfold State.spadMapOutStep
  rw [h]

theorem State.spadMapOut_held {row : Nat} {rest : List Nat} {e : EccIn} (h : SpadMapDue s p row rest) (hused : spadUsed s p row < 4) :
    s.spadMapOut ⟨p, e, true⟩ =
      (s.onCore p fun c => { c with bg := bgAsked c.bg (64 * row) s.now, bgWait := c.bgWait + bgWaited s p (64 * row) }, false) := by
  unfold spadUsed at hused
  unfold State.spadMapOut
  dsimp only
  rw [h.queue]
  dsimp only
  rw [if_neg h.goes, if_neg (Nat.not_le.2 hused), State.bgTurn_held (Or.inl rfl)]
  rfl

theorem State.spadMapOut_full {row : Nat} {rest : List Nat} {e : EccIn} {b : Bool} (h : SpadMapDue s p row rest)
    (hused : 4 ≤ spadUsed s p row) : s.spadMapOut ⟨p, e, b⟩ =
      ((s.setSpadMap p ((s.spadMapUnit p).next 16 false)).incF (F.CORE_SPAD_MAP_NO_SPARE p) 1, true) := by
  unfold State.spadMapOut
  dsimp only
  rw [h.queue]
  dsimp only
  rw [if_neg h.goes]
  exact if_pos hused

theorem State.spadMapOut_maps {row : Nat} {rest : List Nat} {e : EccIn} (h : SpadMapDue s p row rest) (hused : spadUsed s p row < 4)
    (hold : (((s.core p).bg.takeWhile fun x => x.1 != 64 * row).any fun x => (banksOf [(64 * row, 64)]).contains (x.1 / 64 % 32)) = false)
    (hlast : ((banksOf [(64 * row, 64)]).any fun k => SMap.get 0 (s.core p).bgLast k == s.now + 1) = false) :
    ∃ bs, s.spadMapOut ⟨p, e, false⟩ =
      ((((s.bgTurn p [(64 * row, 64)] false).1.spadRead p ((List.range 4).map fun k => 4 * row + k) e).1.spadRowMapped p row
        (s.getF (F.CORE_SPAD_MAP_SPARES_LEFT p) - 1)).ledger 2 p bs, false) := by
  have hok : (s.bgTurn p [(64 * row, 64)] false).2 = true := by rw [State.bgTurn_served hold hlast]
  unfold spadUsed at hused
  unfold State.spadMapOut
  dsimp only
  rw [h.queue]
  dsimp only
  rw [if_neg h.goes, if_neg (Nat.not_le.2 hused)]
  generalize s.bgTurn p [(64 * row, 64)] false = q at *
  rw [hok, if_neg (by decide)]
  exact ⟨_, rfl⟩

/-- The turn of an access leaves the core's rows, its words in error and its map-out unit as they are. -/
theorem State.bgTurn_keeps (hold : (((s.core p).bg.takeWhile fun x => x.1 != a).any fun x => (banksOf [(a, n)]).contains (x.1 / 64 % 32)) = false)
    (hlast : ((banksOf [(a, n)]).any fun k => SMap.get 0 (s.core p).bgLast k == s.now + 1) = false) :
    coreRows ((s.bgTurn p [(a, n)] false).1.core p) = coreRows (s.core p) ∧
      ((s.bgTurn p [(a, n)] false).1.core p).bad = (s.core p).bad ∧
      (s.bgTurn p [(a, n)] false).1.spadMapUnit p = s.spadMapUnit p ∧ ∀ f, (s.bgTurn p [(a, n)] false).1.getF f = s.getF f := by
  rw [State.bgTurn_served hold hlast, State.spadMapUnit, State.core_onCore_self]
  exact ⟨rfl, rfl, rfl, fun f => State.getF_onCore _ _ _ _⟩

/-- A row whose copy has its turn is mapped out, counted and recorded. -/
theorem State.spadMapOut_spec {row : Nat} {rest : List Nat} {e : EccIn} (h : SpadMapDue s p row rest) (hused : spadUsed s p row < 4)
    (hled : s.led.queue.length < 64) (hbg : (s.core p).bg = [])
    (hlast : ((banksOf [(64 * row, 64)]).any fun k => SMap.get 0 (s.core p).bgLast k == s.now + 1) = false) :
    ((s.spadMapOutStep ⟨p, e, false⟩).core p).mapped = (s.core p).mapped ++ [row] ∧
      (s.spadMapOutStep ⟨p, e, false⟩).getF (F.CORE_SPAD_MAP_FIELD_MAPPED p) =
        satAdd 8 (s.getF (F.CORE_SPAD_MAP_FIELD_MAPPED p)) 1 ∧
      ((s.spadMapOutStep ⟨p, e, false⟩).core p).spad = (s.core p).spad ∧
      (s.spadMapOutStep ⟨p, e, false⟩).led.queue.length = s.led.queue.length + 1 ∧
      SameBut (s.spadMapOutStep ⟨p, e, false⟩) s [.regs, .cores, .led] ∧
      (e = {} → (s.core p).bad = [] → (s.core p).refused = [] → ((s.spadMapOutStep ⟨p, e, false⟩).core p).mapQ = rest) := by
  have hold : (((s.core p).bg.takeWhile fun x => x.1 != 64 * row).any fun x => (banksOf [(64 * row, 64)]).contains (x.1 / 64 % 32)) = false := by
    rw [hbg]; rfl
  obtain ⟨hkeep, hbady, hunit, hfield⟩ := State.bgTurn_keeps hold hlast
  have hframe : SameBut (s.bgTurn p [(64 * row, 64)] false).1 s [.cores] := State.bgTurn_frame
  obtain ⟨bs, heq⟩ := State.spadMapOut_maps (e := e) h hused hold hlast
  rw [State.spadMapOutStep_of heq, if_neg Bool.false_ne_true]
  clear heq
  generalize (s.bgTurn p [(64 * row, 64)] false).1 = y at *
  have hrows : coreRows ((y.spadRead p ((List.range 4).map fun k => 4 * row + k) e).1.core p) = coreRows (y.core p) := State.spadRead_rows p
  have hfr := State.spadRead_fields (s := y) (p := p) (ws := (List.range 4).map fun k => 4 * row + k) (e := e)
    (F.CORE_SPAD_MAP_FIELD_MAPPED p) (by
      rintro (hw | hw)
      · exact not_withTime_core p 0x9C 16 (by simp only [F.CORE_SPAD_MAP_FIELD_MAPPED]) rfl (by decide) (by decide) (by decide) hw
      · exact spadMap_keys.2.1 (List.mem_singleton.1 hw))
  have hbr : SameBut (y.spadRead p ((List.range 4).map fun k => 4 * row + k) e).1 y [.regs, .cores] := State.spadRead_frame
  have hclean : e = {} → (s.core p).bad = [] → (y.spadRead p ((List.range 4).map fun k => 4 * row + k) e).1 = y := by
    rintro rfl hbad
    exact State.spadRead_clean (hbady.trans hbad)
  generalize (y.spadRead p ((List.range 4).map fun k => 4 * row + k) e).1 = z at *
  obtain ⟨h1, h2, h3, h4, h5⟩ := State.spadRowMapped_spec (s := z) (p := p) (row := row) (left := s.getF (F.CORE_SPAD_MAP_SPARES_LEFT p) - 1)
  generalize z.spadRowMapped p row (s.getF (F.CORE_SPAD_MAP_SPARES_LEFT p) - 1) = w at *
  have hall : SameBut w s [.regs, .cores] := h5.trans (hbr.trans (hframe.mono (by decide)))
  have hl : w.led = s.led := hall.keeps .led
  have hlc : CoresShow id (w.ledger 2 p bs) w := .of_frame State.ledger_frame
  have hcw : (w.ledger 2 p bs).core p = w.core p := hlc p
  have hm : (z.core p).mapped = (s.core p).mapped := congrArg Prod.fst (hrows.trans hkeep)
  have hs : (z.core p).spad = (s.core p).spad := congrArg Prod.snd (hrows.trans hkeep)
  rw [hcw]
  refine ⟨h1.trans (by rw [hm]), ?_, h2.trans hs, (State.ledger_adds (by rw [hl]; exact hled)).trans (by rw [hl]),
    (State.ledger_frame.mono (by decide)).trans (hall.mono (by decide)), fun he hbad hr => ?_⟩
  · refine (State.ledger_counts _ ?_).trans (h4.trans (by rw [hfr, hfield]))
    simp [Among, Fld.key, F.CORE_SPAD_MAP_FIELD_MAPPED, F.DEV_LEDGER_QUEUED, F.DEV_LEDGER_CNT_LOST]
    omega
  · rw [h3, hclean he hbad, hunit]
    exact MapOut.next_queue (m := s.spadMapUnit p) h.queue hr

/-- A row without a spare stays in service: it leaves the queue and NO_SPARE counts. -/
theorem State.spadNoSpare_spec {row : Nat} {rest : List Nat} (h : SpadMapDue s p row rest) :
    ((s.setSpadMap p ((s.spadMapUnit p).next 16 false)).incF (F.CORE_SPAD_MAP_NO_SPARE p) 1).getF (F.CORE_SPAD_MAP_NO_SPARE p) =
        satAdd 8 (s.getF (F.CORE_SPAD_MAP_NO_SPARE p)) 1 ∧
      ((((s.setSpadMap p ((s.spadMapUnit p).next 16 false)).incF (F.CORE_SPAD_MAP_NO_SPARE p) 1).core p).mapped = (s.core p).mapped) ∧
      ((s.core p).refused = [] →
        (((s.setSpadMap p ((s.spadMapUnit p).next 16 false)).incF (F.CORE_SPAD_MAP_NO_SPARE p) 1).core p).mapQ = rest) ∧
      SameBut ((s.setSpadMap p ((s.spadMapUnit p).next 16 false)).incF (F.CORE_SPAD_MAP_NO_SPARE p) 1) s [.regs, .cores] := by
  have hqueue : (s.core p).refused = [] → ((s.spadMapUnit p).next 16 false).queue = rest :=
    fun hr => MapOut.next_queue (m := s.spadMapUnit p) h.queue hr
  generalize (s.spadMapUnit p).next 16 false = m at *
  have hc : CoresShow id ((s.setSpadMap p m).incF (F.CORE_SPAD_MAP_NO_SPARE p) 1) (s.setSpadMap p m) := .of_frame State.incF_frame
  have hcore : ((s.setSpadMap p m).incF (F.CORE_SPAD_MAP_NO_SPARE p) 1).core p = (s.setSpadMap p m).core p := hc p
  rw [hcore]
  refine ⟨?_, congrArg Prod.fst (State.setSpadMap_rows p : coreRows ((s.setSpadMap p m).core p) = _),
    fun hr => State.setSpadMap_queue.trans (hqueue hr), (State.incF_frame.mono (by decide)).trans State.setSpadMap_frame⟩
  rw [State.getF_incF_self, State.getF_setSpadMap spadMap_keys.2.2]
  rfl

/-- A core that takes no part is not retired. -/
theorem State.retire_idle {reason : Nat} (h : 2 ≤ s.role p) : s.retire p reason false = s := if_pos (Or.inr (Or.inr h))

end
end Sys2Proof.Machine


namespace Sys2Proof.Machine
set_option Elab.async false

/-! ## Map-outs of line-store rows and writes of line-store slots (R212 to R214, R222, R224); O20 -/

section
variable {s t u v : State} {b p : Nat}

/-- A band's rows that are mapped out, and its line store. -/
def bandRows (c : BandSt) : List Nat × SMap (BitVec 8) := (c.mapped, c.mem)

theorem State.setLsMap_rows {m : MapOut} : BandsShow bandRows (s.setLsMap b m) s := by
  refine BandsShow.trans (.of_frame State.setF_frame) (BandsShow.onBand ?_)
  exact fun _ => rfl

theorem State.lsRead_rows {ws ce ue : List Nat} : BandsShow bandRows (s.lsRead b ws ce ue).1 s := by
  refine BandsShow.trans (BandsShow.foldl _ fun y w => ?_) (.ite (.refl _ s)
    (BandsShow.trans (BandsShow.foldl _ fun _ _ => State.setLsMap_rows) (.of_frame State.incF_frame)))
  refine State.setLsMap_rows.trans (BandsShow.trans (BandsShow.onBand ?_) (.of_frame State.incF_frame))
  exact fun _ => rfl

/-- Where no word is in error and none is met, a read of the line store changes nothing. -/
theorem State.lsRead_clean {ws : List Nat} (h : (s.band b).bad = []) : (s.lsRead b ws [] []).1 = s := by
  have hue : (ws.filter fun w => ([] : List Nat).contains w || SMap.get 0 (s.band b).bad w != 0) = [] := by
    rw [h]
    exact List.filter_eq_nil_iff.2 fun w _ => by simp [SMap.get]
  have hce : (ws.filter fun w => ([] : List Nat).contains w && !([] : List Nat).contains w) = [] :=
    List.filter_eq_nil_iff.2 fun w _ => by simp
  unfold State.lsRead
  dsimp only
  rw [hue, hce]
  rfl

/-- A row's copy has been made: it leaves the queue and is served by a spare (R214, R222). -/
def State.lsRowMapped (s : State) (b row left : Nat) : State :=
  (((s.setLsMap b ((s.lsMapUnit b).next 16 true)).onBand b fun c => { c with mapped := c.mapped ++ [row] }).incF
    (F.BAND_LS_MAP_FIELD_MAPPED b) 1).setF (F.BAND_LS_MAP_SPARES_LEFT b) left

theorem lsMap_keys : (F.BAND_LS_MAP_FIELD_MAPPED b).key ≠ (F.BAND_LS_MAP_SPARES_LEFT b).key ∧
    (F.BAND_LS_MAP_FIELD_MAPPED b).key ≠ (F.BAND_LS_MAP_QUEUED b).key ∧
    (F.BAND_LS_MAP_NO_SPARE b).key ≠ (F.BAND_LS_MAP_QUEUED b).key := by
  simp [Fld.key, F.BAND_LS_MAP_FIELD_MAPPED, F.BAND_LS_MAP_SPARES_LEFT, F.BAND_LS_MAP_QUEUED, F.BAND_LS_MAP_NO_SPARE]

theorem State.getF_setLsMap {m : MapOut} {f : Fld} (h : f.key ≠ (F.BAND_LS_MAP_QUEUED b).key) : (s.setLsMap b m).getF f = s.getF f :=
  (State.getF_setF_ne _ _ h).trans (State.getF_onBand _ _ _ _)

theorem State.setLsMap_queue {m : MapOut} : ((s.setLsMap b m).band b).mapQ = m.queue := by
  have h : BandsShow BandSt.mapQ (s.setLsMap b m) (s.onBand b fun c =>
      { c with tracker := m.tracker, refused := m.refused, mapQ := m.queue }) := .of_frame State.setF_frame
  rw [h b, State.band_onBand_self]

theorem State.lsRowMapped_spec {row left : Nat} : ((s.lsRowMapped b row left).band b).mapped = (s.band b).mapped ++ [row] ∧
    ((s.lsRowMapped b row left).band b).mem = (s.band b).mem ∧
    ((s.lsRowMapped b row left).band b).mapQ = ((s.lsMapUnit b).next 16 true).queue ∧
    (s.lsRowMapped b row left).getF (F.BAND_LS_MAP_FIELD_MAPPED b) = satAdd 8 (s.getF (F.BAND_LS_MAP_FIELD_MAPPED b)) 1 ∧
    SameBut (s.lsRowMapped b row left) s [.regs, .bands] := by
  unfold State.lsRowMapped
  generalize hm : (s.lsMapUnit b).next 16 true = m
  have hrows : bandRows ((s.setLsMap b m).band b) = bandRows (s.band b) := State.setLsMap_rows b
  have hq := State.setLsMap_queue (s := s) (b := b) (m := m)
  have hf := State.getF_setLsMap (s := s) (b := b) (m := m) lsMap_keys.2.1
  have hb : SameBut (s.setLsMap b m) s [.regs, .bands] := State.setLsMap_frame
  generalize s.setLsMap b m = y at *
  have hband := State.band_onBand_self y b fun c => { c with mapped := c.mapped ++ [row] }
  have hfy := State.getF_onBand y b (fun c => { c with mapped := c.mapped ++ [row] }) (F.BAND_LS_MAP_FIELD_MAPPED b)
  have hby : SameBut (y.onBand b fun c => { c with mapped := c.mapped ++ [row] }) y [.regs, .bands] := State.onBand_frame.mono (by decide)
  generalize (y.onBand b fun c => { c with mapped := c.mapped ++ [row] }) = z at *
  have hc : BandsShow id ((z.incF (F.BAND_LS_MAP_FIELD_MAPPED b) 1).setF (F.BAND_LS_MAP_SPARES_LEFT b) left) z :=
    (BandsShow.of_frame State.setF_frame).trans (.of_frame State.incF_frame)
  have hz : (((z.incF (F.BAND_LS_MAP_FIELD_MAPPED b) 1).setF (F.BAND_LS_MAP_SPARES_LEFT b) left).band b) =
      { y.band b with mapped := (y.band b).mapped ++ [row] } := (hc b).trans hband
  rw [hz]
  refine ⟨congrArg (· ++ [row]) (congrArg Prod.fst hrows), congrArg Prod.snd hrows, hq, ?_,
    ((State.setF_frame.mono (by decide)).trans (State.incF_frame.mono (by decide))).trans (hby.trans hb)⟩
  rw [State.getF_setF_ne _ _ lsMap_keys.1, State.getF_incF_self, hfy, hf]
  rfl

/-- A map-out can be looked at: its row heads the band's queue, in vertical blanking, with no line in flight (R214, R222). -/
structure LsMapDue (s : State) (b row : Nat) (rest : List Nat) : Prop where
  queue : (s.band b).mapQ = row :: rest
  blank : s.inBlank = true
  flight : ((List.range 9).any fun k => s.inFlight (9 * b + k)) = false

/-- The spares that a row's bank has used (R212, R222). -/
def lsUsed (s : State) (b row : Nat) : Nat := ((s.band b).mapped.filter fun r => r % 96 == row % 96).length

theorem LsMapDue.goes {row : Nat} {rest : List Nat} (h : LsMapDue s b row rest) :
    ¬ ((!s.inBlank) = true ∨ ((List.range 9).any fun k => s.inFlight (9 * b + k)) = true) := by
  rw [h.blank, h.flight]
  decide

/-- A row whose copy another access of the cycle keeps off the bank waits. -/
theorem State.lsMapOut_held {row : Nat} {rest : List Nat} {e : EccIn} (hq : (s.band b).mapQ = row :: rest) (hused : lsUsed s b row < 8) :
    s.lsMapOut ⟨b, e, true⟩ = s := by
  unfold lsUsed at hused
  unfold State.lsMapOut
  dsimp only
  rw [hq]
  dsimp only
  rw [if_neg (Nat.not_le.2 hused), if_pos (Or.inl rfl), ite_self]

theorem State.lsMapOut_full {row : Nat} {rest : List Nat} {e : EccIn} {x : Bool} (h : LsMapDue s b row rest) (hused : 8 ≤ lsUsed s b row) :
    s.lsMapOut ⟨b, e, x⟩ = (s.setLsMap b ((s.lsMapUnit b).next 16 false)).incF (F.BAND_LS_MAP_NO_SPARE b) 1 := by
  unfold State.lsMapOut
  dsimp only
  rw [h.queue]
  dsimp only
  rw [if_neg h.goes]
  exact if_pos hused

theorem State.lsMapOut_maps {row : Nat} {rest : List Nat} {e : EccIn} (h : LsMapDue s b row rest) (hused : lsUsed s b row < 8)
    (hbusy : lsBusy (s.band b) s.now [(64 * row, 64)] = false) : ∃ bs, s.lsMapOut ⟨b, e, false⟩ =
      ((s.lsRead b ((List.range 4).map fun k => 4 * row + k) e.ce e.ue).1.lsRowMapped b row
        (s.getF (F.BAND_LS_MAP_SPARES_LEFT b) - 1)).ledger 3 b bs := by
  unfold lsUsed at hused
  unfold State.lsMapOut
  dsimp only
  rw [h.queue]
  dsimp only
  rw [if_neg h.goes, if_neg (Nat.not_le.2 hused), hbusy, if_neg (by decide)]
  exact ⟨_, rfl⟩

/-- A row whose copy has its turn is mapped out, counted and recorded. -/
theorem State.lsMapOut_spec {row : Nat} {rest : List Nat} {e : EccIn} (h : LsMapDue s b row rest) (hused : lsUsed s b row < 8)
    (hled : s.led.queue.length < 64) (hbusy : lsBusy (s.band b) s.now [(64 * row, 64)] = false) :
    ((s.lsMapOut ⟨b, e, false⟩).band b).mapped = (s.band b).mapped ++ [row] ∧
      (s.lsMapOut ⟨b, e, false⟩).getF (F.BAND_LS_MAP_FIELD_MAPPED b) = satAdd 8 (s.getF (F.BAND_LS_MAP_FIELD_MAPPED b)) 1 ∧
      ((s.lsMapOut ⟨b, e, false⟩).band b).mem = (s.band b).mem ∧
      (s.lsMapOut ⟨b, e, false⟩).led.queue.length = s.led.queue.length + 1 ∧
      SameBut (s.lsMapOut ⟨b, e, false⟩) s [.regs, .bands, .led] ∧
      (e = {} → (s.band b).bad = [] → (s.band b).refused = [] → ((s.lsMapOut ⟨b, e, false⟩).band b).mapQ = rest) := by
  obtain ⟨bs, heq⟩ := State.lsMapOut_maps (e := e) h hused hbusy
  rw [heq]
  clear heq
  have hrows : bandRows ((s.lsRead b ((List.range 4).map fun k => 4 * row + k) e.ce e.ue).1.band b) = bandRows (s.band b) :=
    State.lsRead_rows b
  have hfr := State.lsRead_fields (s := s) (b := b) (ws := (List.range 4).map fun k => 4 * row + k) (ce := e.ce) (ue := e.ue)
    (F.BAND_LS_MAP_FIELD_MAPPED b) (by
      rintro (hw | hw)
      · refine not_withTime (by simp only [F.BAND_LS_MAP_FIELD_MAPPED]; decide) ?_ hw
        rw [show (F.BAND_LS_MAP_FIELD_MAPPED b).addr % 0x10000 = 0x18 by simp only [F.BAND_LS_MAP_FIELD_MAPPED]; omega]
        decide
      · exact lsMap_keys.2.1 (List.mem_singleton.1 hw))
  have hbr : SameBut (s.lsRead b ((List.range 4).map fun k => 4 * row + k) e.ce e.ue).1 s [.regs, .bands] := State.lsRead_frame
  have hclean : e = {} → (s.band b).bad = [] → (s.lsRead b ((List.range 4).map fun k => 4 * row + k) e.ce e.ue).1 = s := by
    rintro rfl hbad
    exact State.lsRead_clean hbad
  generalize (s.lsRead b ((List.range 4).map fun k => 4 * row + k) e.ce e.ue).1 = z at *
  obtain ⟨h1, h2, h3, h4, h5⟩ := State.lsRowMapped_spec (s := z) (b := b) (row := row) (left := s.getF (F.BAND_LS_MAP_SPARES_LEFT b) - 1)
  generalize z.lsRowMapped b row (s.getF (F.BAND_LS_MAP_SPARES_LEFT b) - 1) = w at *
  have hall : SameBut w s [.regs, .bands] := h5.trans hbr
  have hl : w.led = s.led := hall.keeps .led
  have hlc : BandsShow id (w.ledger 3 b bs) w := .of_frame State.ledger_frame
  have hcw : (w.ledger 3 b bs).band b = w.band b := hlc b
  have hm : (z.band b).mapped = (s.band b).mapped := congrArg Prod.fst hrows
  have hs : (z.band b).mem = (s.band b).mem := congrArg Prod.snd hrows
  rw [hcw]
  refine ⟨h1.trans (by rw [hm]), ?_, h2.trans hs, (State.ledger_adds (by rw [hl]; exact hled)).trans (by rw [hl]),
    (State.ledger_frame.mono (by decide)).trans (hall.mono (by decide)), fun he hbad hr => ?_⟩
  · refine (State.ledger_counts _ ?_).trans (h4.trans (by rw [hfr]))
    simp [Among, Fld.key, F.BAND_LS_MAP_FIELD_MAPPED, F.DEV_LEDGER_QUEUED, F.DEV_LEDGER_CNT_LOST]
    omega
  · rw [h3, hclean he hbad]
    exact MapOut.next_queue (m := s.lsMapUnit b) h.queue hr

theorem State.lsNoSpare_spec {m : MapOut} : (((s.setLsMap b m).incF (F.BAND_LS_MAP_NO_SPARE b) 1).band b).mapped = (s.band b).mapped ∧
    ((s.setLsMap b m).incF (F.BAND_LS_MAP_NO_SPARE b) 1).getF (F.BAND_LS_MAP_NO_SPARE b) =
      satAdd 8 (s.getF (F.BAND_LS_MAP_NO_SPARE b)) 1 ∧
    SameBut ((s.setLsMap b m).incF (F.BAND_LS_MAP_NO_SPARE b) 1) s [.regs, .bands] := by
  have hc : BandsShow bandRows ((s.setLsMap b m).incF (F.BAND_LS_MAP_NO_SPARE b) 1) s :=
    (BandsShow.of_frame State.incF_frame).trans State.setLsMap_rows
  refine ⟨congrArg Prod.fst (hc b), ?_, (State.incF_frame.mono (by decide)).trans State.setLsMap_frame⟩
  rw [State.getF_incF_self, State.getF_setLsMap lsMap_keys.2.2]
  rfl

/-! ### Line-store slots (R224) -/

/-- A marked slot that a consumer or the fallback scaler holds stays as it is marked. -/
theorem State.lsMark_slot {r : Prn} {y : Nat} (h : r.cons ≠ 0 ∨ r.fb = true) :
    (s.lsMark b r y).slot b (r.slotAddr y) = ⟨true, y, r.cons, r.fb, s.now, 0⟩ := by
  have hslot : (s.setSlot b (r.slotAddr y) ⟨true, y, r.cons, r.fb, s.now, 0⟩).slot b (r.slotAddr y) =
      ⟨true, y, r.cons, r.fb, s.now, 0⟩ := by
    rw [State.slot, State.setSlot, State.band_onBand_self]
    dsimp only
    exact SMap.get_set_self ({} : Slot) _ _ _
  unfold State.lsMark State.slotCheck
  dsimp only
  rw [hslot, if_neg, hslot]
  rintro ⟨-, hc, hf⟩
  rcases h with h | h
  · exact h hc
  · exact absurd (h : r.fb = true) (by simpa using hf)

/-- A line written to its slot, or its thread's wait for it (R224). -/
theorem State.slotWrite_eq {k line n y : Nat} (hp : (s.prn p n).place = 2) (hmay : s.mayIssue p k line = true)
    (hv : v = s.issueOp p k line) : s.slotWrite p k line n y =
      if v.lsReady (bandOf p) (s.prn p n) y then v.lsMark (bandOf p) (s.prn p n) y else v.setWait p k (.slot ((s.prn p n).slotAddr y)) := by
  unfold State.slotWrite
  dsimp only
  rw [if_neg (by rw [hp, hmay]; decide), hv]

end
end Sys2Proof.Machine

namespace Sys2Proof
set_option Elab.async false
open Sys2Proof.Machine

/-- Settles O20: background accesses wait or are served, map-outs take a spare or none, and slots are marked or waited for. -/
theorem memoriesServeBackgroundRowsAndSlots : Obligations.MemoriesServeBackgroundRowsAndSlots := by
  unfold Obligations.MemoriesServeBackgroundRowsAndSlots
  refine ⟨?held, ?served, ?maps, ?busy, ?idle, ?full, ?lsMaps, ?lsBusy, ?lsFull, ?slot, ?wait⟩
  case held =>
    intro s p a n write busy e hp hle h
    refine Completes.of_act (t := s.background p a n write busy e) rfl (by simp [Instr.wf, hp, hle]) fun w => ?_
    rw [State.background_held h]
    have hcore := State.core_onCore_self s p fun c => { c with bg := bgAsked c.bg a s.now, bgWait := c.bgWait + bgWaited s p a }
    refine ⟨SameBut.ended (s := s) State.onCore_frame w, (congrArg (fun c : CoreSt => c.bg.any fun x => x.1 == a && x.2 == s.now) hcore).trans
      (bgAsked_waits _ _ _), congrArg CoreSt.bgWait hcore, (congrArg CoreSt.spad hcore).trans rfl⟩
  case served =>
    intro s p a n write hp hle hbad hold hused
    refine Completes.of_act (t := s.background p a n write false {}) rfl (by simp [Instr.wf, hp, hle]) fun w => ?_
    rw [State.background_served hbad hold hused, State.bgTurn_served hold hused]
    have hcore := State.core_onCore_self s p fun c => { c with
      bgWait := c.bgWait + bgWaited s p a, bg := c.bg.filter fun x => x.1 != a
      bgLast := (banksOf [(a, n)]).foldl (fun m k => SMap.set 0 m k (s.now + 1)) c.bgLast }
    exact ⟨SameBut.ended (s := s) State.onCore_frame w, congrArg CoreSt.bg hcore, congrArg CoreSt.bgWait hcore,
      (congrArg CoreSt.spad hcore).trans rfl⟩
  case maps =>
    intro s p row rest e hp hq hblank hflight hused hled hbg hlast
    have h := State.spadMapOut_spec (e := e) (s := s) (p := p) ⟨hq, hblank, hflight⟩ hused hled hbg hlast
    refine Completes.of_act (t := s.spadMapOutStep ⟨p, e, false⟩) rfl hp fun w => ?_
    have hpend : (s.spadMapOutStep ⟨p, e, false⟩).pending = s.pending := h.2.2.2.2.1.keeps .pending
    generalize s.spadMapOutStep ⟨p, e, false⟩ = y at *
    obtain ⟨h1, h2, h3, h4, h5, h6⟩ := h
    exact ⟨h1, h2, h3, h4, SameBut.ended h5 w, h6⟩
  case busy =>
    intro s p row rest e hp hq hblank hflight hused
    have heq := State.spadMapOutStep_of (State.spadMapOut_held (e := e) (s := s) (p := p) ⟨hq, hblank, hflight⟩ hused)
    refine Completes.of_act (t := s.spadMapOutStep ⟨p, e, true⟩) rfl hp fun w => ?_
    rw [heq, if_neg Bool.false_ne_true]
    have hcore := State.core_onCore_self s p fun c => { c with bg := bgAsked c.bg (64 * row) s.now, bgWait := c.bgWait + bgWaited s p (64 * row) }
    exact ⟨SameBut.ended (s := s) State.onCore_frame w, (congrArg CoreSt.mapQ hcore).trans hq, (congrArg CoreSt.mapped hcore).trans rfl,
      (congrArg CoreSt.spad hcore).trans rfl⟩
  case idle =>
    intro s p row rest e b hp hq hblank hflight hused hrole
    have hdue : SpadMapDue s p row rest := ⟨hq, hblank, hflight⟩
    obtain ⟨h1, h2, h3, h4⟩ := State.spadNoSpare_spec hdue
    have hrole' : 2 ≤ ((s.setSpadMap p ((s.spadMapUnit p).next 16 false)).incF (F.CORE_SPAD_MAP_NO_SPARE p) 1).role p := by
      refine hrole.trans_eq ?_
      symm
      refine (State.getF_incF_ne _ _ ?_).trans (State.getF_setSpadMap ?_) <;>
        simp [Fld.key, F.CORE_IDENT_ROLE, F.CORE_SPAD_MAP_NO_SPARE, F.CORE_SPAD_MAP_QUEUED] <;> omega
    refine Completes.of_result (t := s.spadMapOutStep ⟨p, e, b⟩) rfl hp ?_ fun _ _ h => h
    rw [State.spadMapOutStep_of (State.spadMapOut_full hdue hused), if_pos rfl, State.retire_idle hrole']
    exact ⟨h1, h2, h3⟩
  case full =>
    intro s p row rest e b hp hq hblank hflight hused
    have hdue : SpadMapDue s p row rest := ⟨hq, hblank, hflight⟩
    obtain ⟨h1, -, -, h4⟩ := State.spadNoSpare_spec hdue
    have heq := State.spadMapOutStep_of (State.spadMapOut_full (e := e) (b := b) hdue hused)
    rw [if_pos rfl] at heq
    refine Completes.of_act (t := s.spadMapOutStep ⟨p, e, b⟩) rfl hp fun w => ?_
    rw [heq]
    generalize (s.setSpadMap p ((s.spadMapUnit p).next 16 false)).incF (F.CORE_SPAD_MAP_NO_SPARE p) 1 = y at *
    have hpend : (y.retire p 4 false).pending = s.pending := (State.retire_frame.keeps .pending).trans (h4.keeps .pending)
    exact ⟨y, h1, h4, SameBut.endedAfter (SameBut.refl _ _) hpend w⟩
  case lsMaps =>
    intro s b row rest e hb hq hblank hflight hused hled hbusy
    have h := State.lsMapOut_spec (e := e) (s := s) (b := b) ⟨hq, hblank, hflight⟩ hused hled hbusy
    refine Completes.of_act (t := s.lsMapOut ⟨b, e, false⟩) rfl hb fun w => ?_
    generalize s.lsMapOut ⟨b, e, false⟩ = y at *
    obtain ⟨h1, h2, h3, h4, h5, h6⟩ := h
    exact ⟨h1, h2, h3, h4, SameBut.ended h5 w, h6⟩
  case lsBusy =>
    intro s b row rest e hb hq hblank hused
    refine Completes.of_act (t := s.lsMapOut ⟨b, e, true⟩) rfl hb fun w => ?_
    rw [State.lsMapOut_held hq hused]
    exact SameBut.ended_self rfl _ w
  case lsFull =>
    intro s b row rest e x hb hq hblank hflight hused
    refine Completes.of_act (t := s.lsMapOut ⟨b, e, x⟩) rfl hb fun w => ?_
    rw [State.lsMapOut_full ⟨hq, hblank, hflight⟩ hused]
    have h := State.lsNoSpare_spec (s := s) (b := b) (m := (s.lsMapUnit b).next 16 false)
    generalize (s.setLsMap b ((s.lsMapUnit b).next 16 false)).incF (F.BAND_LS_MAP_NO_SPARE b) 1 = y at *
    obtain ⟨h1, h2, h3⟩ := h
    exact ⟨h1, h2, SameBut.ended h3 w⟩
  case slot =>
    intro s v p t line n y hp ht hn hplace hmay hv hready hheld
    refine Completes.of_result (t := s.slotWrite p t line n y) rfl (by simp [Instr.wf, hp, ht, hn]) ?_ fun _ _ h => h
    rw [State.slotWrite_eq hplace hmay hv, if_pos hready]
    exact ⟨State.lsMark_frame.keeps .now, State.lsMark_slot hheld⟩
  case wait =>
    intro s v p t line n y hp ht hn hplace hmay hv hready hlen
    refine Completes.of_result (t := s.slotWrite p t line n y) rfl (by simp [Instr.wf, hp, ht, hn]) ?_ fun _ _ h => h
    rw [State.slotWrite_eq hplace hmay hv, hready, if_neg Bool.false_ne_true]
    exact ⟨State.setWait_frame.keeps .bands, State.setWait_wait hlen⟩

end Sys2Proof


namespace Sys2Proof.Machine
set_option Elab.async false

/-! ## The weight file and a core's clock (R147, R149, R162) -/

section
variable {s u : State} {p k prn e n : Nat} {w : CoreIn}

/-- A unit is free once the operation has passed that occupies it (R164). -/
theorem State.occupy_freeFrom {x : CoreUnit} : freeFrom ((s.occupy p k x n).core p) x =
    ceilDiv (startAt (s.core p) x (max s.now (s.core p).stallEnd) + coreTicks (s.clock p) n) ticks := by
  rw [State.occupy, State.core_onCore_self]
  simp [freeFrom, occupiedUnit, setFree]

/-- The thread's tile load into a frame-class entry has its turn at the write path (R147, R160). -/
structure TileLoadReady (s : State) (p k e : Nat) (w : CoreIn) : Prop where
  issues : s.mayIssue p k s.cal.line = true
  frame : s.isLineThread p k = false
  class_ : s.mset.classOf e = .frame
  granted : s.grantsThread p k w.rivals = true

/-- The state in which a granted tile load reads its page: its operation holds the write path for 64 core cycles (R164). -/
def State.loadIssued (s : State) (p k : Nat) : State :=
  ((((s.awaitUnit p k .weightPath).rotate p k).setWait p k .none).occupy p k .weightPath 64).inPipe p k 64

/-- The conflict that another access of the load's cycle makes in its page's banks (R203). -/
def State.loadConflict (s : State) (p prn : Nat) (w : CoreIn) : Option (Nat × Nat × Nat) :=
  besideConflict 4 (fun a => decide ((s.prn p prn).base ≤ a ∧ a < (s.prn p prn).base + 2048)) w.beside

/-- The page's read, one array row a cycle, where no other access conflicts with it. -/
def State.loadRead (s : State) (p prn : Nat) (w : CoreIn) : State × Bool :=
  if (s.loadConflict p prn w).isSome then (s, false)
  else s.foreReads p w.ecc ((List.range 64).map fun r => ((s.prn p prn).base + 32 * r, 32))

/-- The faults that a tile load meets. -/
def State.loadFaults (s : State) (p prn : Nat) (w : CoreIn) : List Nat :=
  stepFaults false false false w.store (s.loadConflict p prn w).isSome (s.loadRead p prn w).2

/-- An entry is written from the page at `base`, and is busy until the write path is free. -/
def tileWritten (c : CoreSt) (e base : Nat) : CoreSt :=
  { c with
    tiles := SMap.set [] c.tiles e (pageCodes (foreBytes c base 2048))
    loading := (e, freeFrom c .weightPath) :: c.loading.filter fun x => x.1 != e
    parity := c.parity.filter fun x => x != e }

theorem tileWritten_spec {c : CoreSt} {b : Nat} : SMap.get [] (tileWritten c e b).tiles e = pageCodes (foreBytes c b 2048) ∧
    (e, freeFrom c .weightPath) ∈ (tileWritten c e b).loading ∧ e ∉ (tileWritten c e b).parity ∧ (tileWritten c e b).spad = c.spad := by
  unfold tileWritten
  dsimp only
  rw [SMap.get_set_self]
  exact ⟨rfl, List.mem_cons_self, by simp, rfl⟩

/-- A granted tile load writes its entry, or faults. -/
theorem State.tileLoad_granted (h : TileLoadReady s p k e w) (hu : u = s.loadIssued p k) : s.tileLoad p k prn e w =
    if u.loadFaults p prn w ≠ [] then
      ((u.loadRead p prn w).1.noteConflict p (u.loadConflict p prn w) (besideOf w.beside)).coreFault p k w.layer s.cal.line
        (u.loadFaults p prn w) w.owed
    else (u.loadRead p prn w).1.onCore p fun c => tileWritten c e (u.prn p prn).base := by
  unfold State.tileLoad
  rw [if_neg (by simp [h.issues, h.frame, h.class_]), if_neg (by simp [h.granted]), hu]
  rfl

/-- A tile load without a fault changes its core alone after its read. -/
theorem State.tileLoad_loads (h : TileLoadReady s p k e w) (hu : u = s.loadIssued p k) (hf : u.loadFaults p prn w = []) :
    s.tileLoad p k prn e w = (u.loadRead p prn w).1.onCore p fun c => tileWritten c e (u.prn p prn).base := by
  rw [State.tileLoad_granted h hu, if_neg (fun hne => hne hf)]

theorem State.tileLoad_faults {c : Nat} {cs : List Nat} (h : TileLoadReady s p k e w) (hu : u = s.loadIssued p k)
    (hf : u.loadFaults p prn w = c :: cs) : s.tileLoad p k prn e w =
      ((u.loadRead p prn w).1.noteConflict p (u.loadConflict p prn w) (besideOf w.beside)).coreFault p k w.layer s.cal.line
        (c :: cs) w.owed := by
  rw [State.tileLoad_granted h hu, if_pos (by rw [hf]; exact List.cons_ne_nil _ _), hf]

/-- A page whose read meets no conflict, no store in flight and no uncorrectable word has no fault. -/
theorem State.loadFaults_none (hc : u.loadConflict p prn w = none) (hs : w.store = false) (hue : (u.loadRead p prn w).2 = false) :
    u.loadFaults p prn w = [] := by
  rw [State.loadFaults, hc, hs, hue]
  rfl

/-- A load's completion leaves the entry no longer busy. -/
theorem State.tileLoaded_due {due : Nat} (h : ((s.core p).loading.find? fun x => x.1 == e) = some (e, due)) :
    s.tileLoaded p e = (s.waitUntil due).onCore p fun c => { c with loading := c.loading.filter fun x => x.1 != e } := by
  unfold State.tileLoaded
  rw [h]

/-- An entry is rewritten with the bytes of its page (R149). -/
def tileRewritten (c : CoreSt) (e frame : Nat) (page : List Byte) : CoreSt :=
  { c with
    rewrites := c.rewrites.erase e, tiles := SMap.set [] c.tiles e (pageCodes page)
    parity := c.parity.filter fun x => x != e, rewritten := SMap.put c.rewritten e frame }

theorem tileRewritten_spec {c : CoreSt} {frame : Nat} {page : List Byte} : (tileRewritten c e frame page).rewrites = c.rewrites.erase e ∧
    SMap.get [] (tileRewritten c e frame page).tiles e = pageCodes page ∧ e ∉ (tileRewritten c e frame page).parity ∧
      SMap.get 0 (tileRewritten c e frame page).rewritten e = frame := by
  unfold tileRewritten
  dsimp only
  rw [SMap.get_set_self, SMap.get_put_self]
  exact ⟨rfl, rfl, by simp, rfl⟩

/-- The oldest failing entry whose page can be read is rewritten from it, in vertical blanking with no line in flight (R149). -/
theorem State.weightRewrite_due (h : ((s.core p).rewrites.find? fun e => !s.memBad 3 0 (s.pageOf e) 2048) = some e)
    (hblank : s.inBlank = true) (hflight : s.inFlight p = false) : s.weightRewrite p =
      (s.incF (F.CORE_WFILE_WF_SCRUBS p) 1).onCore p fun c => tileRewritten c e s.cal.frame (readB s.dram (s.pageOf e) 2048) := by
  unfold State.weightRewrite
  rw [h]
  dsimp only
  rw [if_neg (by simp [hblank, hflight])]
  rfl

theorem State.weightRewrite_spec (h : ((s.core p).rewrites.find? fun e => !s.memBad 3 0 (s.pageOf e) 2048) = some e)
    (hblank : s.inBlank = true) (hflight : s.inFlight p = false) :
    (s.weightRewrite p).getF (F.CORE_WFILE_WF_SCRUBS p) = satAdd 16 (s.getF (F.CORE_WFILE_WF_SCRUBS p)) 1 ∧
      (s.weightRewrite p).core p = tileRewritten (s.core p) e s.cal.frame (readB s.dram (s.pageOf e) 2048) := by
  rw [State.weightRewrite_due h hblank hflight]
  exact ⟨State.getF_incF_self _ _ _, State.core_onCore_self _ _ _⟩

/-- BIN_EFF takes its target, as does IDENT's copy, and the change counts (R162). -/
theorem State.binChange_spec (hp : isCore p = true) (hb : s.binTarget p ≠ s.getF (F.CORE_CLK_BIN_EFF p)) :
    (s.binChange p).now = max s.now ((s.core p).binFrom + 64) ∧ (s.binChange p).getF (F.CORE_CLK_BIN_EFF p) = s.binTarget p ∧
      (s.binChange p).getF (F.CORE_CLK_CHANGES p) = satAdd 16 (s.getF (F.CORE_CLK_CHANGES p)) 1 ∧
      SameFields (s.binChange p) s (WithTimeOr [F.CORE_CLK_BIN_EFF p, F.CORE_IDENT_BIN p, F.CORE_CLK_CHANGES p]) := by
  have hlt := isCore_lt hp
  have hmod : s.binTarget p % 2 ^ 2 = s.binTarget p := Nat.mod_eq_of_lt (by rw [State.binTarget]; omega)
  have heq : s.binChange p = ((s.waitUntil ((s.core p).binFrom + 64)).setFs
      [(F.CORE_CLK_BIN_EFF p, s.binTarget p), (F.CORE_IDENT_BIN p, s.binTarget p)]).incF (F.CORE_CLK_CHANGES p) 1 := by
    unfold State.binChange
    rw [if_neg hb]
  have htime := s.waitUntil_fields ((s.core p).binFrom + 64)
  have hnow := s.waitUntil_now ((s.core p).binFrom + 64)
  rw [heq]
  generalize s.waitUntil ((s.core p).binFrom + 64) = y at htime hnow
  have hsets : SameFields (y.setFs [(F.CORE_CLK_BIN_EFF p, s.binTarget p), (F.CORE_IDENT_BIN p, s.binTarget p)]) y
      (Among [F.CORE_CLK_BIN_EFF p, F.CORE_IDENT_BIN p, F.CORE_CLK_CHANGES p]) := SameFields.setsIn (by simp)
  refine ⟨(State.setFs_frame.keeps .now (by decide)).trans hnow, ?_, ?_, ?_⟩
  · refine (State.getF_incF_ne _ _ (by simp [Fld.key, F.CORE_CLK_BIN_EFF, F.CORE_CLK_CHANGES])).trans
      ((State.getF_setFs_at (i := 0) rfl ?_).trans hmod)
    simp [Fld.key, F.CORE_CLK_BIN_EFF, F.CORE_IDENT_BIN]
    omega
  · refine (State.getF_incF_self _ _ _).trans (congrArg (satAdd 16 · 1) ?_)
    refine (State.getF_setFs_ne _ _ _ ?_).trans (htime _ ?_)
    · simp [Fld.key, F.CORE_CLK_BIN_EFF, F.CORE_IDENT_BIN, F.CORE_CLK_CHANGES]
      omega
    · exact not_withTime_core p 8 16
  · exact (SameFields.orAmong ((SameFields.incIn (by simp)).trans hsets)).trans htime.orTime

end
end Sys2Proof.Machine

namespace Sys2Proof
set_option Elab.async false
open Sys2Proof.Machine

/-- Settles O18: tile loads write their entry or fault, rewrites restore entries, and BIN_EFF follows its target. -/
theorem weightsLoadRewriteAndBinsChange : Obligations.WeightsLoadRewriteAndBinsChange := by
  unfold Obligations.WeightsLoadRewriteAndBinsChange
  refine ⟨?loads, ?faults, ?free, ?complete, ?stall, ?rewrite, ?bin⟩
  case loads =>
    intro s u p k prn e w f hp hk hprn he hw hmay hline hclass hgrant hu hconf hf hstore hue
    have hready : TileLoadReady s p k e w := ⟨hmay, hline, hclass, hgrant⟩
    have hread : u.loadRead p prn w = f := by
      rw [State.loadRead, if_neg (by rw [State.loadConflict, hconf]; exact Bool.false_ne_true), hf]
    have heq := State.tileLoad_loads hready hu (State.loadFaults_none hconf hstore (by rw [hread]; exact hue))
    rw [hread] at heq
    have hok : Instr.wf (.tileLoad p k prn e w) = true := by simp [Instr.wf, hp, hk, hprn, he, hw]
    refine Completes.of_result (t := s.tileLoad p k prn e w) rfl hok ?_ fun _ _ h => h
    rw [heq]
    refine ⟨rfl, fun q hq => State.core_onCore_ne _ _ hq, ?_⟩
    rw [State.core_onCore_self]
    exact tileWritten_spec
  case faults =>
    intro s u p k prn e c cs w f conf hp hk hprn he hw hmay hline hclass hgrant hu hconf hf hcodes
    have hready : TileLoadReady s p k e w := ⟨hmay, hline, hclass, hgrant⟩
    have hread : u.loadRead p prn w = f := by rw [State.loadRead, State.loadConflict, ← hconf, hf]
    have heq := State.tileLoad_faults (c := c) (cs := cs) hready hu (by rw [State.loadFaults, hread, State.loadConflict, ← hconf, hcodes])
    rw [hread, State.loadConflict, ← hconf] at heq
    have hok : Instr.wf (.tileLoad p k prn e w) = true := by simp [Instr.wf, hp, hk, hprn, he, hw]
    refine Completes.of_act (t := s.tileLoad p k prn e w) rfl hok fun x => ?_
    have hpend : (s.tileLoad p k prn e w).pending = s.pending := State.tileLoad_frame.keeps .pending (by decide)
    rw [heq] at hpend ⊢
    exact SameBut.ended_self hpend _ x
  case free => exact fun _ _ _ _ _ => State.occupy_freeFrom
  case complete =>
    intro s p e due hp he hdue
    refine Completes.of_result (t := s.tileLoaded p e) rfl (by simp [Instr.wf, hp, he]) ?_ fun _ _ h => h
    have hfields := State.tileLoaded_fields (s := s) (p := p) (e := e)
    rw [State.tileLoaded_due hdue] at hfields ⊢
    refine ⟨s.waitUntil_now due, fun x hx => ?_, hfields⟩
    rw [State.core_onCore_self] at hx
    simpa using (List.mem_filter.1 hx).2
  case stall =>
    intro s p hp hne
    refine Completes.of_result (t := s.stallOver p) rfl hp ?_ fun _ _ h => h
    have hfields := State.stallOver_fields (s := s) (p := p)
    rw [State.stallOver, if_neg hne] at hfields ⊢
    exact ⟨s.waitUntil_now _, congrArg CoreSt.stallEnd (State.core_onCore_self _ _ _), hfields⟩
  case rewrite =>
    intro s p e hp hfind hblank hflight
    refine Completes.of_act (t := s.weightRewrite p) rfl hp fun x => ?_
    obtain ⟨hcount, hcore⟩ := State.weightRewrite_spec hfind hblank hflight
    obtain ⟨hqueue, htile, hparity, hlast⟩ := tileRewritten_spec (e := e) (c := s.core p) (frame := s.cal.frame)
      (page := readB s.dram (s.pageOf e) 2048)
    rw [← hcore] at hqueue htile hparity hlast
    exact ⟨State.weightRewrite_frame.ended x, State.weightRewrite_fields, hcount, hqueue, htile, hparity, hlast⟩
  case bin =>
    intro s p hp hne
    refine Completes.of_result (t := s.binChange p) rfl hp ?_ fun _ _ h => h
    exact State.binChange_spec hp hne

end Sys2Proof


namespace Sys2Proof.Machine
set_option Elab.async false

/-! ## The sensors' bus (R365 to R368) -/

theorem SMap.get_map_self {l : List Nat} {v : Nat → Nat} {i : Nat} (h : i ∈ l) : SMap.get 0 (l.map fun j => (j, v j)) i = v i := by
  induction l with
  | nil => exact absurd h (List.not_mem_nil)
  | cons j l ih =>
    rw [List.map_cons, SMap.get]
    split
    next hij => rw [hij]
    next hij => exact ih ((List.mem_cons.1 h).resolve_left hij)

/-- A bit set by OR is set, within its field. -/
theorem bit_or_self {v w i : Nat} (h : i < w) : bit ((v ||| 2 ^ i) % 2 ^ w) i = true := by
  have hb : ((v ||| 2 ^ i) % 2 ^ w).testBit i = true := by simp [Nat.testBit_mod_two_pow, h]
  simpa [bit, Nat.testBit, Nat.shiftRight_eq_div_pow, Nat.and_comm, Nat.one_and_eq_mod_two] using hb

/-- A bit taken away where it is set is clear. -/
theorem bit_taken {v w i : Nat} (h : i < w) : bit ((if bit v i then v - 2 ^ i else v) % 2 ^ w) i = false := by
  have hmod (x : Nat) : bit (x % 2 ^ w) i = bit x i := by
    have hx : (x % 2 ^ w).testBit i = x.testBit i := by simp [Nat.testBit_mod_two_pow, h]
    simpa [bit, Nat.testBit, Nat.shiftRight_eq_div_pow, Nat.and_comm, Nat.one_and_eq_mod_two, Bool.beq_eq_decide_eq] using hx
  rw [hmod]
  by_cases hv : bit v i = true
  · rw [if_pos hv]
    have hodd : v / 2 ^ i % 2 = 1 := by simpa [bit] using hv
    have hdiv : (v - 2 ^ i) / 2 ^ i = v / 2 ^ i - 1 := by simpa using Nat.sub_mul_div v (2 ^ i) 1
    simp only [bit, hdiv, beq_eq_false_iff_ne]
    omega
  · rw [if_neg hv]
    simpa using hv

section
variable {s t y : State} {i t0 pres again : Nat} {r : I3cResult} {x : BusXfer} {cut : Option Nat} {e bs : List Byte}

theorem State.assignAddresses_enabled (h : s.getF F.SNS_CFG_EN ≠ 0) : s.assignAddresses = { s with sns := { s.sns with
    assigned := some s.now
    addrs := ((List.range 8).filter fun i => s.sensorKind i ≠ 0).map fun i =>
      (i, if s.sensorI2c i then bits (byteAt (s.sensorEntry i) 0) 0 7 else 0x08 + i)
    quiet := true, last := none, k := List.replicate 8 0 } } := by
  unfold State.assignAddresses
  rw [if_neg h]

/-- The read of entry i is taken: its next one falls due a period later (R367). -/
def State.readTaken (s : State) (i : Nat) : State := { s with sns := { s.sns with k := s.sns.k.modify i (· + 1) } }

/-- The state at the end of the transfer `x` of entry i's read (R366, R367). -/
def State.readMade (s : State) (i : Nat) (x : BusXfer) (cut : Option Nat) : State :=
  let s0 := (s.waitUntil x.stop).readTaken i
  { s0 with sns := { s0.sns with last := some x }, free := if cut.isSome then s0.free + 1 else s0.free }

/-- What a read's outcome shows at the transfer's end (R368). -/
def State.readOutcome (y : State) (i : Nat) (r : I3cResult) (e : List Byte) (pres again : Nat) : State :=
  match r with
  | .nack => (y.incF F.SNS_ERR_NACKS 1).setF F.SNS_STATUS_PRESENT (if bit pres i then pres - 2 ^ i else pres)
  | .busErr => y.incF F.SNS_ERR_BUS_ERR 1
  | .data bs =>
    ((y.setFs [(F.SNS_STATUS_PRESENT, pres ||| 2 ^ i), (F.SNS_RAW_RAW i, unsext 32 (sensorRaw e bs)),
      (F.SNS_TS_LO_TS_LO i, again % 2 ^ 32), (F.SNS_TS_HI_TS_HI i, again / 2 ^ 32)]).keepSample i
        ⟨again, (sensorValue e (sensorRaw e bs)).num, (sensorValue e (sensorRaw e bs)).den⟩).record F.AUD_REC_CTRL_SENS
          ⟨3, false, again, toLe 4 i ++ toLe 4 (unsext 32 (sensorRaw e bs))⟩

/-- The byte after which a transfer is cut short (log entry 94). -/
def State.readCut (s : State) (i : Nat) : I3cResult → Option Nat
  | .data _ => none
  | _ => some (1 + Config.freeValue s.free % (3 + bits (byteAt (s.sensorEntry i) 3) 0 3))

/-- A read that falls due is made once the bus is free, outside Doldrums and within its period. -/
theorem State.sensorRead_due (h : readsNext s i t0) : s.sensorRead i r =
    if s.pstate = 2 then (s.waitUntil (s.sensorDue t0 i)).readTaken i
    else if s.sensorDue t0 i + s.sensorPeriod i ≤ max (s.sensorDue t0 i) s.busFree then
      ((s.waitUntil (s.sensorDue t0 i + s.sensorPeriod i)).incF F.SNS_ERR_NACKS 1).readTaken i
    else
      (s.readMade i (s.busXfer i (max (s.sensorDue t0 i) s.busFree) (s.readCut i r)) (s.readCut i r)).readOutcome i r (s.sensorEntry i)
        (s.getF F.SNS_STATUS_PRESENT) (s.busXfer i (max (s.sensorDue t0 i) s.busFree) (s.readCut i r)).again := by
  obtain ⟨hi, hass, hkind, hper, hen, hfirst⟩ := h
  unfold State.sensorRead
  rw [hass]
  dsimp only
  rw [if_neg (by simp [hkind, hper, hen, hfirst, hi])]
  cases r <;> rfl

theorem State.sensorRead_made (h : readsNext s i t0) (hp : s.pstate ≠ 2) (hfree : s.busFree < s.sensorDue t0 i + s.sensorPeriod i) :
    s.sensorRead i r =
      (s.readMade i (s.busXfer i (max (s.sensorDue t0 i) s.busFree) (s.readCut i r)) (s.readCut i r)).readOutcome i r (s.sensorEntry i)
        (s.getF F.SNS_STATUS_PRESENT) (s.busXfer i (max (s.sensorDue t0 i) s.busFree) (s.readCut i r)).again := by
  have hper := h.2.2.2.1
  rw [State.sensorRead_due h, if_neg hp, if_neg (by omega)]

/-- A transfer takes its time, and the bus is busy with it. -/
theorem State.readMade_spec : (s.readMade i x cut).now = max s.now x.stop ∧ (s.readMade i x cut).sns.last = some x ∧
    (s.readMade i x cut).sns.k = s.sns.k.modify i (· + 1) ∧ SameFields (s.readMade i x cut) s WithTime := by
  have hsns : (s.waitUntil x.stop).sns = s.sns := (State.waitUntil_frame.keeps .sns)
  refine ⟨s.waitUntil_now _, rfl, ?_, s.waitUntil_fields _⟩
  change (s.waitUntil x.stop).sns.k.modify i (· + 1) = _
  rw [hsns]

/-- A taken read moves the entry's count alone among the sensors' state. -/
theorem State.readTaken_sns {n : Nat} : ((s.waitUntil n).readTaken i).sns = { s.sns with k := s.sns.k.modify i (· + 1) } := by
  have hsns : (s.waitUntil n).sns = s.sns := State.waitUntil_frame.keeps .sns
  rw [State.readTaken, hsns]

theorem State.readTaken_fields {ok : Fld → Prop} : SameFields (s.readTaken i) s ok := SameFields.of_regs rfl

/-- In Doldrums a read that falls due is not made. -/
theorem State.readAsleep_spec {n : Nat} : ((s.waitUntil n).readTaken i).now = max s.now n ∧
    ((s.waitUntil n).readTaken i).sns = { s.sns with k := s.sns.k.modify i (· + 1) } ∧ SameFields ((s.waitUntil n).readTaken i) s WithTime :=
  ⟨s.waitUntil_now n, State.readTaken_sns, State.readTaken_fields.trans (s.waitUntil_fields n)⟩

/-- A read that the bus keeps waiting for a whole period counts as a NACK (R367, R368). -/
theorem State.readLate_spec {n : Nat} : (((s.waitUntil n).incF F.SNS_ERR_NACKS 1).readTaken i).getF F.SNS_ERR_NACKS =
    satAdd 16 (s.getF F.SNS_ERR_NACKS) 1 ∧ (((s.waitUntil n).incF F.SNS_ERR_NACKS 1).readTaken i).now = max s.now n ∧
      (((s.waitUntil n).incF F.SNS_ERR_NACKS 1).readTaken i).sns = { s.sns with k := s.sns.k.modify i (· + 1) } :=
  ⟨(State.getF_incF_self _ _ _).trans (congrArg (satAdd 16 · 1) (s.waitUntil_fields n _ not_withTime_low)), s.waitUntil_now n,
    State.readTaken_sns (n := n)⟩

theorem State.keepSample_bus {j : Nat} {m : Sample} : (s.keepSample j m).sns.last = s.sns.last ∧ (s.keepSample j m).sns.k = s.sns.k := by
  unfold State.keepSample
  split <;> exact ⟨rfl, rfl⟩

/-- The sensors' shown values stand in registers that time leaves alone. -/
theorem sensor_untimed (h : i < 8) : ¬ WithTime (F.SNS_RAW_RAW i) := by
  have hall : ∀ i < 8, (F.SNS_RAW_RAW i).lo < 32 ∧ (F.SNS_RAW_RAW i).addr < 0x100000 ∧ (F.SNS_RAW_RAW i).addr % 0x10000 ∉ timeOffsets := by
    decide
  exact not_withTime_low (hall i h)

/-- A NACK counts and PRESENT shows it (R368). -/
theorem State.readOutcome_nack (h : i < 8) : (y.readOutcome i .nack e pres again).getF F.SNS_ERR_NACKS = satAdd 16 (y.getF F.SNS_ERR_NACKS) 1 ∧
    bit ((y.readOutcome i .nack e pres again).getF F.SNS_STATUS_PRESENT) i = false ∧
      (y.readOutcome i .nack e pres again).getF (F.SNS_RAW_RAW i) = y.getF (F.SNS_RAW_RAW i) ∧
        SameBut (y.readOutcome i .nack e pres again) y [.regs] := by
  unfold State.readOutcome
  dsimp only
  refine ⟨?_, ?_, ?_, SameBut.trans State.setF_frame State.incF_frame⟩
  · exact (State.getF_setF_ne _ _ (by decide)).trans (State.getF_incF_self _ _ _)
  · rw [State.getF_setF_self]
    exact bit_taken h
  · refine (State.getF_setF_ne _ _ ?_).trans (State.getF_incF_ne _ _ ?_) <;>
      simp [Fld.key, F.SNS_RAW_RAW, F.SNS_STATUS_PRESENT, F.SNS_ERR_NACKS] <;> omega

theorem State.readOutcome_busErr : (y.readOutcome i .busErr e pres again).getF F.SNS_ERR_BUS_ERR = satAdd 16 (y.getF F.SNS_ERR_BUS_ERR) 1 ∧
    (y.readOutcome i .busErr e pres again).getF (F.SNS_RAW_RAW i) = y.getF (F.SNS_RAW_RAW i) ∧
      SameBut (y.readOutcome i .busErr e pres again) y [.regs] := by
  unfold State.readOutcome
  dsimp only
  refine ⟨State.getF_incF_self _ _ _, State.getF_incF_ne _ _ ?_, State.incF_frame⟩
  simp [Fld.key, F.SNS_RAW_RAW, F.SNS_ERR_BUS_ERR]
  omega

/-- A kept and recorded sample changes no register and nothing of the bus. -/
theorem State.keepRecord_spec {j : Nat} {m : Sample} {cls : Fld} {q : LogEnt} : let z := (s.keepSample j m).record cls q
    z.now = s.now ∧ z.sns.last = s.sns.last ∧ z.sns.k = s.sns.k ∧ SameFields z s (fun _ => False) := by
  obtain ⟨hlast, hk⟩ := State.keepSample_bus (s := s) (j := j) (m := m)
  have hrec : SameBut ((s.keepSample j m).record cls q) (s.keepSample j m) [.aud] := State.record_frame
  have hkeep : SameBut (s.keepSample j m) s [.sns] := State.keepSample_frame
  exact ⟨(hrec.keeps .now).trans (hkeep.keeps .now), (congrArg SnsSt.last (hrec.keeps .sns)).trans hlast,
    (congrArg SnsSt.k (hrec.keeps .sns)).trans hk, (SameFields.of_frame hrec).trans (SameFields.of_frame hkeep)⟩

/-- The registers of a read that delivered data. -/
theorem State.readShown_spec {raw lo hi : Nat} (h : i < 8) : let z := y.setFs [(F.SNS_STATUS_PRESENT, pres ||| 2 ^ i), (F.SNS_RAW_RAW i, raw),
      (F.SNS_TS_LO_TS_LO i, lo), (F.SNS_TS_HI_TS_HI i, hi)]
    z.getF (F.SNS_RAW_RAW i) = raw % 2 ^ (F.SNS_RAW_RAW i).w ∧ z.getF (F.SNS_TS_LO_TS_LO i) = lo % 2 ^ (F.SNS_TS_LO_TS_LO i).w ∧
      bit (z.getF F.SNS_STATUS_PRESENT) i = true ∧ z.getF F.SNS_ERR_NACKS = y.getF F.SNS_ERR_NACKS := by
  intro z
  have hkeys : (F.SNS_STATUS_PRESENT.key < (F.SNS_RAW_RAW i).key ∧ F.SNS_ERR_NACKS.key < (F.SNS_RAW_RAW i).key) ∧
      (F.SNS_RAW_RAW i).key < (F.SNS_TS_LO_TS_LO i).key ∧ (F.SNS_TS_LO_TS_LO i).key < (F.SNS_TS_HI_TS_HI i).key := by
    simp only [Fld.key, F.SNS_STATUS_PRESENT, F.SNS_ERR_NACKS, F.SNS_RAW_RAW, F.SNS_TS_LO_TS_LO, F.SNS_TS_HI_TS_HI]
    omega
  have hne : F.SNS_ERR_NACKS.key ≠ F.SNS_STATUS_PRESENT.key := by decide
  obtain ⟨⟨hp, hn⟩, hlo, hhi⟩ := hkeys
  refine ⟨State.getF_setFs_at (f := F.SNS_RAW_RAW i) (i := 1) rfl ?_, State.getF_setFs_at (f := F.SNS_TS_LO_TS_LO i) (i := 2) rfl ?_, ?_,
    State.getF_setFs_ne _ _ _ ?_⟩
  · simp only [List.drop_succ_cons, List.drop_zero, List.mem_cons, List.not_mem_nil, or_false, forall_eq_or_imp, forall_eq]
    exact ⟨hlo.ne, (hlo.trans hhi).ne⟩
  · simp only [List.drop_succ_cons, List.drop_zero, List.mem_cons, List.not_mem_nil, or_false, forall_eq]
    exact hhi.ne
  · have hpres : z.getF F.SNS_STATUS_PRESENT = (pres ||| 2 ^ i) % 2 ^ F.SNS_STATUS_PRESENT.w := State.getF_setFs_at (i := 0) rfl (by
      simp only [List.drop_succ_cons, List.drop_zero, List.mem_cons, List.not_mem_nil, or_false, forall_eq_or_imp, forall_eq]
      exact ⟨hp.ne, (hp.trans hlo).ne, (hp.trans (hlo.trans hhi)).ne⟩)
    rw [hpres]
    exact bit_or_self h
  · simp only [List.mem_cons, List.not_mem_nil, or_false, forall_eq_or_imp, forall_eq]
    exact ⟨hne, hn.ne, (hn.trans hlo).ne, (hn.trans (hlo.trans hhi)).ne⟩

/-- Data is shown with the time of the repeated START, and the entry as present (R368). -/
theorem State.readOutcome_data (h : i < 8) : let z := y.readOutcome i (.data bs) e pres again
    z.now = y.now ∧ z.sns.last = y.sns.last ∧ z.sns.k = y.sns.k ∧
      z.getF (F.SNS_RAW_RAW i) = unsext 32 (sensorRaw e bs) % 2 ^ (F.SNS_RAW_RAW i).w ∧
      z.getF (F.SNS_TS_LO_TS_LO i) = again % 2 ^ 32 % 2 ^ (F.SNS_TS_LO_TS_LO i).w ∧ bit (z.getF F.SNS_STATUS_PRESENT) i = true ∧
        z.getF F.SNS_ERR_NACKS = y.getF F.SNS_ERR_NACKS := by
  unfold State.readOutcome
  dsimp only
  have hshown := State.readShown_spec (y := y) (pres := pres) (raw := unsext 32 (sensorRaw e bs)) (lo := again % 2 ^ 32)
    (hi := again / 2 ^ 32) h
  have hset : SameBut (y.setFs [(F.SNS_STATUS_PRESENT, pres ||| 2 ^ i), (F.SNS_RAW_RAW i, unsext 32 (sensorRaw e bs)),
      (F.SNS_TS_LO_TS_LO i, again % 2 ^ 32), (F.SNS_TS_HI_TS_HI i, again / 2 ^ 32)]) y [.regs] := State.setFs_frame
  generalize y.setFs [(F.SNS_STATUS_PRESENT, pres ||| 2 ^ i), (F.SNS_RAW_RAW i, unsext 32 (sensorRaw e bs)),
      (F.SNS_TS_LO_TS_LO i, again % 2 ^ 32), (F.SNS_TS_HI_TS_HI i, again / 2 ^ 32)] = v at *
  obtain ⟨hraw, hlo, hpres, hnacks⟩ := hshown
  generalize (⟨again, (sensorValue e (sensorRaw e bs)).num, (sensorValue e (sensorRaw e bs)).den⟩ : Sample) = m
  generalize (⟨3, false, again, toLe 4 i ++ toLe 4 (unsext 32 (sensorRaw e bs))⟩ : LogEnt) = q
  obtain ⟨hnow, hlast, hk, hfields⟩ := State.keepRecord_spec (s := v) (j := i) (m := m) (cls := F.AUD_REC_CTRL_SENS) (q := q)
  exact ⟨hnow.trans (hset.keeps .now), hlast.trans (congrArg SnsSt.last (hset.keeps .sns)), hk.trans (congrArg SnsSt.k (hset.keeps .sns)),
    (hfields _ id).trans hraw, (hfields _ id).trans hlo, (congrArg (bit · i) (hfields _ id)).trans hpres, (hfields _ id).trans hnacks⟩

end
end Sys2Proof.Machine


namespace Sys2Proof.Machine
set_option Elab.async false

/-! ## Internal samples (R368, R517 to R520) -/

section
variable {s t u : State} {p k d : Nat}

theorem State.dropClause_beside : SameFields (s.dropClause p k) s Beside := by
  unfold State.dropClause
  extract_lets s1
  have h1 : SameFields s1 s Beside :=
    (SameFields.onCore _ _ _ _).trans (State.setThreadState_beside.trans (Beside.of_frame State.onThread_frame))
  exact SameFields.ite (State.frameThreads_beside.trans h1) h1

theorem State.abandonRuns_beside {due : Bool} : SameFields (s.abandonRuns due) s Beside := by
  unfold State.abandonRuns
  extract_lets s1
  have h1 : SameFields s1 s Beside := SameFields.each (SameFields.refl _ _) fun _ _ => SameFields.each (SameFields.refl _ _) fun _ _ =>
    SameFields.ite (SameFields.refl _ _) State.dropClause_beside
  clear_value s1
  exact h1

theorem State.abandonSteps_beside : SameFields s.abandonSteps s Beside :=
  SameFields.ite (SameFields.refl _ _) ((Beside.of_frame State.drzTaint_frame).trans ((Beside.incF beside).trans State.dropSteps_beside))

theorem State.hpdLow_beside : SameFields (s.hpdLow k) s Beside := State.signalCheck_beside.trans (Beside.of_frame State.onPort_frame)

/-- The cycle, the next sample's time and HIGH stand as they were. -/
def PowerHeld (t s : State) : Prop :=
  t.now = s.now ∧ t.pwr.sampleDue = s.pwr.sampleDue ∧ t.getF F.PWR_INPWR_HIGH = s.getF F.PWR_INPWR_HIGH

namespace PowerHeld

theorem refl (s : State) : PowerHeld s s := ⟨rfl, rfl, rfl⟩

theorem trans (h1 : PowerHeld u t) (h2 : PowerHeld t s) : PowerHeld u s :=
  ⟨h1.1.trans h2.1, h1.2.1.trans h2.2.1, h1.2.2.trans h2.2.2⟩

theorem ite {c : Prop} [Decidable c] {a b : State} (ha : PowerHeld a s) (hb : PowerHeld b s) : PowerHeld (if c then a else b) s := by
  split <;> assumption

theorem each {n : Nat} {f : State → Nat → State} (h : ∀ y k, PowerHeld (f y k) y) : PowerHeld (s.each n f) s :=
  each_inv (fun y => PowerHeld y s) (.refl s) n fun y k hy => (h y k).trans hy

theorem of_frame {ps : List Part} (h : SameBut t s ps) (hp : .now ∉ ps ∧ .pwr ∉ ps ∧ .regs ∉ ps := by decide) : PowerHeld t s :=
  ⟨h.keeps .now hp.1, congrArg PwrSt.sampleDue (h.keeps .pwr hp.2.1), SameFields.of_regs (ok := fun _ => False) (h.keeps .regs hp.2.2) _ id⟩

theorem of_regs (h : SameBut t s [.regs]) (hf : t.getF F.PWR_INPWR_HIGH = s.getF F.PWR_INPWR_HIGH) : PowerHeld t s :=
  ⟨h.keeps .now, congrArg PwrSt.sampleDue (h.keeps .pwr), hf⟩

theorem setF {f : Fld} {v : Nat} (h : F.PWR_INPWR_HIGH.key ≠ f.key := by decide) : PowerHeld (s.setF f v) s :=
  of_regs State.setF_frame (State.getF_setF_ne _ _ h)

theorem incF {f : Fld} {v : Nat} (h : F.PWR_INPWR_HIGH.key ≠ f.key := by decide) : PowerHeld (s.incF f v) s :=
  of_regs State.incF_frame (State.getF_incF_ne _ _ h)

theorem getF_setFs {l : List (Fld × Nat)} (fs : List Fld) (hl : l.map (·.1) = fs) (h : F.PWR_INPWR_HIGH.key ∉ fs.map Fld.key := by decide) :
    (s.setFs l).getF F.PWR_INPWR_HIGH = s.getF F.PWR_INPWR_HIGH :=
  State.getF_setFs_ne _ _ _ fun x hx e => h (by
    rw [← hl]
    exact List.mem_map.2 ⟨x.1, List.mem_map.2 ⟨x, hx, rfl⟩, e.symm⟩)

end PowerHeld

/-- Entry into Doldrums takes no power sample. -/
theorem State.enterDoldrums_held {b : Bool} : PowerHeld (s.enterDoldrums b) s := by
  unfold State.enterDoldrums
  extract_lets s1 s2
  have h2 : Keeps [.now, .pwr] s2 s := by
    refine Keeps.step (Keeps.step ?_ State.hpdLow_frame) State.hpdLow_frame
    refine Keeps.step (Keeps.step ?_ State.abandonSteps_frame) State.discardFrame_frame
    exact (Keeps.step (Keeps.refl _ s) State.safeEnter_frame).step State.abandonRuns_frame
  have hb : SameFields s2 s Beside := State.hpdLow_beside.trans (State.hpdLow_beside.trans
    ((Beside.of_frame State.discardFrame_frame).trans (State.abandonSteps_beside.trans
      (State.abandonRuns_beside.trans State.safeEnter_beside))))
  have hhigh : s2.getF F.PWR_INPWR_HIGH = s.getF F.PWR_INPWR_HIGH := hb _ fun h => h (by decide)
  have hnow : s2.now = s.now := h2.at .now
  have hpwr : s2.pwr = s.pwr := h2.at .pwr
  clear_value s2
  have hdue : s2.pwr.sampleDue = s.pwr.sampleDue := congrArg PwrSt.sampleDue hpwr
  exact ⟨(State.setFs_frame.keeps .now).trans hnow, hdue, (PowerHeld.getF_setFs [F.PWR_STATE_STATE, F.PWR_STATE_BUSY, F.PWR_STATE_TARGET,
    F.PWR_STATE_THERMAL, F.CAL_MODE_CHANGING, F.CAL_MSET_MSET_PEND] rfl).trans hhigh⟩

theorem State.thermalRecord_held {x : Int} {trip : Bool} : PowerHeld (s.thermalRecord d x trip) s := by
  have h := State.ledger_frame (s := s) (a1 := 11) (a2 := d) (a3 := toLe 2 (unsext 16 x) ++ toLe 1 (b2n trip))
  exact ⟨h.keeps .now, congrArg PwrSt.sampleDue (h.keeps .pwr), State.ledger_beside _ fun h => h (by decide)⟩

/-- A diode's reading shows its temperature, warnings and trips, and takes no power sample. -/
theorem State.diode_held {was x : Int} : PowerHeld (s.diode was d x) s := by
  unfold State.diode
  extract_lets w s1 s2 s3
  have htemp : F.PWR_INPWR_HIGH.key ≠ (F.PWR_TEMP_TEMP d).key := by
    simp only [Fld.key, F.PWR_INPWR_HIGH, F.PWR_TEMP_TEMP]
    omega
  have h1 : PowerHeld s1 s := .setF htemp
  have h2 : PowerHeld s2 s := .trans (.ite (.ite (.refl _) (State.thermalRecord_held.trans (.trans .incF .setF))) (.ite .setF (.refl _))) h1
  have h3 : PowerHeld s3 s := State.thermalRecord_held.trans (.trans (.of_regs State.setFs_frame
    (PowerHeld.getF_setFs [F.PWR_THERM_LAST_TRIP, F.PWR_THERM_TRIPPED] rfl)) h2)
  refine .ite (.ite ?_ (.ite (State.enterDoldrums_held.trans h3) h3)) h2
  split
  · exact State.enterDoldrums_held.trans h3
  · exact .trans .setF h3

/-- The registers that a sample of the input and the core rail is shown in. -/
theorem State.setFs_levels {a b c v : Nat} (ha : a < 2 ^ F.PWR_IN_V12.w) (hb : b < 2 ^ F.PWR_IN_I12.w) (hv : v < 2 ^ F.PWR_VCORE_VCORE.w) :
    let z := s.setFs [(F.PWR_IN_V12, a), (F.PWR_IN_I12, b), (F.PWR_INPWR_P, c), (F.PWR_VCORE_VCORE, v)]
    z.now = s.now ∧ z.pwr = s.pwr ∧ z.getF F.PWR_IN_V12 = a ∧ z.getF F.PWR_IN_I12 = b ∧ z.getF F.PWR_VCORE_VCORE = v ∧
      z.getF F.PWR_INPWR_HIGH = s.getF F.PWR_INPWR_HIGH := by
  have hne : (F.PWR_IN_V12.key ≠ F.PWR_IN_I12.key ∧ F.PWR_IN_V12.key ≠ F.PWR_INPWR_P.key ∧ F.PWR_IN_V12.key ≠ F.PWR_VCORE_VCORE.key) ∧
      F.PWR_IN_I12.key ≠ F.PWR_INPWR_P.key ∧ F.PWR_IN_I12.key ≠ F.PWR_VCORE_VCORE.key := by decide
  intro z
  refine ⟨State.setFs_frame.keeps .now, State.setFs_frame.keeps .pwr, (State.getF_setFs_at (i := 0) rfl ?_).trans (Nat.mod_eq_of_lt ha),
    (State.getF_setFs_at (i := 1) rfl ?_).trans (Nat.mod_eq_of_lt hb), (State.getF_setFs_at (i := 3) rfl ?_).trans (Nat.mod_eq_of_lt hv),
    PowerHeld.getF_setFs [F.PWR_IN_V12, F.PWR_IN_I12, F.PWR_INPWR_P, F.PWR_VCORE_VCORE] rfl⟩ <;>
    simp only [List.drop_succ_cons, List.drop_zero, List.mem_cons, List.not_mem_nil, or_false, forall_eq_or_imp, forall_eq, false_implies,
      implies_true]
  · exact hne.1
  · exact hne.2

/-- A sample shows the input's and the core rail's levels and falls due again 100 µs later; every tenth closes a millisecond's mean. -/
theorem State.internalSample_spec {temps : List Int} {v12 i12 vcore : Nat} (hv : v12 < 65536) (hi : i12 < 65536) (hc : vcore < 65536) :
    (s.internalSample temps v12 i12 vcore).now = max s.now s.pwr.sampleDue ∧
    (s.internalSample temps v12 i12 vcore).pwr.sampleDue = s.pwr.sampleDue + usCycles 100 ∧
    (s.internalSample temps v12 i12 vcore).getF F.PWR_IN_V12 = v12 ∧ (s.internalSample temps v12 i12 vcore).getF F.PWR_IN_I12 = i12 ∧
    (s.internalSample temps v12 i12 vcore).getF F.PWR_VCORE_VCORE = vcore ∧
    (s.pwr.msCount = 9 → (s.internalSample temps v12 i12 vcore).pwr.msCount = 0 ∧ (s.internalSample temps v12 i12 vcore).pwr.msPower = 0 ∧
      (600000000 < s.pwr.msPower + v12 * i12 →
        (s.internalSample temps v12 i12 vcore).getF F.PWR_INPWR_HIGH = satAdd 16 (s.getF F.PWR_INPWR_HIGH) 1)) ∧
    (s.pwr.msCount ≠ 9 → (s.internalSample temps v12 i12 vcore).pwr.msCount = s.pwr.msCount + 1 ∧
      (s.internalSample temps v12 i12 vcore).pwr.msPower = s.pwr.msPower + v12 * i12) := by
  unfold State.internalSample
  extract_lets s1 x old s2 band hot mean p at_ s3 rec_ s4 s5 s6 sum
  have hrec (y : State) (k : Nat) (v : Int) : PowerHeld (rec_ y k v) y := .of_frame State.record_frame
  have hkeep (y : State) (k : Nat) (m : Sample) : PowerHeld (y.keepSample k m) y := .of_frame State.keepSample_frame
  have h3 : PowerHeld s3 s1 := (hkeep _ _ _).trans ((hkeep _ _ _).trans ((hkeep _ _ _).trans ((hkeep _ _ _).trans
    ((hkeep _ _ _).trans ((hkeep _ _ _).trans (PowerHeld.each fun _ _ => State.diode_held))))))
  have h5 : PowerHeld s5 s1 := (hrec _ _ _).trans ((hrec _ _ _).trans ((PowerHeld.each fun y k => hrec y _ _).trans h3))
  have hs1 : s1.now = max s.now s.pwr.sampleDue ∧ s1.pwr.sampleDue = s.pwr.sampleDue + usCycles 100 ∧
      s1.getF F.PWR_INPWR_HIGH = s.getF F.PWR_INPWR_HIGH := ⟨s.waitUntil_now _, rfl, s.waitUntil_fields _ _ not_withTime_low⟩
  have h1now : s5.now = max s.now s.pwr.sampleDue := h5.1.trans hs1.1
  have h1due : s5.pwr.sampleDue = s.pwr.sampleDue + usCycles 100 := h5.2.1.trans hs1.2.1
  have h1high : s5.getF F.PWR_INPWR_HIGH = s.getF F.PWR_INPWR_HIGH := h5.2.2.trans hs1.2.2
  clear hs1 h5 h3 hrec hkeep
  clear_value s5
  have h6 := State.setFs_levels (s := s5) (a := v12) (b := i12) (c := (roundDiv ((p : Nat) : Int) 10000).toNat) (v := vcore) hv hi hc
  obtain ⟨h6now, h6pwr, h6v, h6i, h6c, h6high⟩ := h6
  change s6.now = _ at h6now
  change s6.pwr = _ at h6pwr
  change s6.getF _ = _ at h6v
  change s6.getF _ = _ at h6i
  change s6.getF _ = _ at h6c
  change s6.getF _ = _ at h6high
  clear_value s6
  have hother {f : Fld} (hf : f.key ≠ F.PWR_INPWR_HIGH.key) :
      (if 600000000 < sum then s6.incF F.PWR_INPWR_HIGH 1 else s6).getF f = s6.getF f := by
    split
    · exact State.getF_incF_ne _ _ hf
    · rfl
  split
  next h9 =>
    refine ⟨?_, ?_, (hother (by decide)).trans h6v, (hother (by decide)).trans h6i, (hother (by decide)).trans h6c,
      fun _ => ⟨rfl, rfl, fun hsum => ?_⟩, fun hne => absurd h9 hne⟩
    · refine Eq.trans ?_ (h6now.trans h1now)
      change (if 600000000 < sum then s6.incF F.PWR_INPWR_HIGH 1 else s6).now = _
      split <;> rfl
    · refine Eq.trans ?_ ((congrArg PwrSt.sampleDue h6pwr).trans h1due)
      change (if 600000000 < sum then s6.incF F.PWR_INPWR_HIGH 1 else s6).pwr.sampleDue = _
      split <;> rfl
    · change (if 600000000 < sum then s6.incF F.PWR_INPWR_HIGH 1 else s6).getF _ = _
      rw [if_pos hsum]
      exact (State.getF_incF_self _ _ _).trans (congrArg (satAdd 16 · 1) (h6high.trans h1high))
  next h9 => exact ⟨h6now.trans h1now, (congrArg PwrSt.sampleDue h6pwr).trans h1due, h6v, h6i, h6c, fun h => absurd h h9, fun _ => ⟨rfl, rfl⟩⟩

end
end Sys2Proof.Machine

namespace Sys2Proof
set_option Elab.async false
open Sys2Proof.Machine

/-- Settles O34: addresses are assigned, sensors are read in their turn, and the internal samples are taken. -/
theorem samplesAreTaken : Obligations.SamplesAreTaken := by
  unfold Obligations.SamplesAreTaken
  refine ⟨?assigns, ?off, ?data, ?short, ?late, ?doldrums, ?order, ?sample⟩
  case assigns =>
    intro s hen
    refine Completes.of_op (t := s.assignAddresses) rfl fun w => ?_
    rw [State.assignAddresses_enabled hen]
    refine ⟨SameBut.ended (s := s) (fun p hp => ?_) w, rfl, rfl, rfl, rfl, fun i hi hkind => ?_⟩
    · cases p <;> first | with_reducible rfl | exact absurd hp (by decide)
    · exact SMap.get_map_self (v := fun i => if s.sensorI2c i then bits (byteAt (s.sensorEntry i) 0) 0 7 else 0x08 + i)
        (List.mem_filter.2 ⟨List.mem_range.2 hi, decide_eq_true hkind⟩)
  case off =>
    intro s hen
    refine Completes.of_op (t := s.assignAddresses) rfl fun w => ?_
    rw [State.assignAddresses, if_pos hen]
    exact SameBut.ended_self rfl _ w
  case data =>
    intro s i t0 bs x hnext hp hfree hx
    refine Completes.of_result (t := s.sensorRead i (.data bs)) rfl (decide_eq_true hnext.1) ?_ fun _ _ h => h
    have hcut : s.readCut i (.data bs) = none := rfl
    rw [State.sensorRead_made hnext hp hfree, hcut, ← hx]
    obtain ⟨hnow, hlast, hk, hfields⟩ := State.readMade_spec (s := s) (i := i) (x := x) (cut := none)
    generalize s.readMade i x none = y at *
    obtain ⟨h1, h2, h3, h4, h5, h6, h7⟩ := State.readOutcome_data (y := y) (bs := bs) (e := s.sensorEntry i)
      (pres := s.getF F.SNS_STATUS_PRESENT) (again := x.again) hnext.1
    exact ⟨h1.trans hnow, h2.trans hlast, h3.trans hk, h4, h5.trans (Nat.mod_mod _ _), h6, h7.trans (hfields _ not_withTime_low)⟩
  case short =>
    intro s i t0 hnext hp hfree
    refine ⟨Completes.of_result (t := s.sensorRead i .nack) rfl (decide_eq_true hnext.1) ?_ fun _ _ h => h,
      Completes.of_result (t := s.sensorRead i .busErr) rfl (decide_eq_true hnext.1) ?_ fun _ _ h => h⟩
    · rw [State.sensorRead_made hnext hp hfree]
      generalize hx : s.busXfer i (max (s.sensorDue t0 i) s.busFree) (s.readCut i .nack) = x
      obtain ⟨hnow, hlast, -, hfields⟩ := State.readMade_spec (s := s) (i := i) (x := x) (cut := s.readCut i .nack)
      generalize s.readMade i x (s.readCut i .nack) = y at *
      obtain ⟨h1, h2, h3, h4⟩ := State.readOutcome_nack (y := y) (e := s.sensorEntry i)
        (pres := s.getF F.SNS_STATUS_PRESENT) (again := x.again) hnext.1
      exact ⟨h1.trans (congrArg (satAdd 16 · 1) (hfields _ not_withTime_low)), h2, h3.trans (hfields _ (sensor_untimed hnext.1)),
        _, x, hx.symm, Nat.le_add_right 1 _, (h4.keeps .now).trans hnow, (congrArg SnsSt.last (h4.keeps .sns)).trans hlast⟩
    · rw [State.sensorRead_made hnext hp hfree]
      generalize hx : s.busXfer i (max (s.sensorDue t0 i) s.busFree) (s.readCut i .busErr) = x
      obtain ⟨hnow, hlast, -, hfields⟩ := State.readMade_spec (s := s) (i := i) (x := x) (cut := s.readCut i .busErr)
      generalize s.readMade i x (s.readCut i .busErr) = y at *
      obtain ⟨h1, h2, h3⟩ := State.readOutcome_busErr (y := y) (i := i) (e := s.sensorEntry i)
        (pres := s.getF F.SNS_STATUS_PRESENT) (again := x.again)
      exact ⟨h1.trans (congrArg (satAdd 16 · 1) (hfields _ not_withTime_low)), h2.trans (hfields _ (sensor_untimed hnext.1)),
        _, x, hx.symm, Nat.le_add_right 1 _, (h3.keeps .now).trans hnow, (congrArg SnsSt.last (h3.keeps .sns)).trans hlast⟩
  case late =>
    intro s i t0 r hnext hp hfree
    refine Completes.of_result (t := s.sensorRead i r) rfl (decide_eq_true hnext.1) ?_ fun _ _ h => h
    rw [State.sensorRead_due hnext, if_neg hp, if_pos (le_trans hfree (Nat.le_max_right _ _))]
    exact State.readLate_spec
  case doldrums =>
    intro s i t0 r hnext hp
    refine Completes.of_result (t := s.sensorRead i r) rfl (decide_eq_true hnext.1) ?_ fun _ _ h => h
    rw [State.sensorRead_due hnext, if_pos hp]
    exact State.readAsleep_spec
  case order =>
    intro s i t0 r hi hass hfirst
    refine Completes.of_act (t := s.sensorRead i r) rfl (decide_eq_true hi) fun w => ?_
    have heq : s.sensorRead i r = s := by
      unfold State.sensorRead
      rw [hass]
      dsimp only
      rw [if_pos (by simp [hfirst])]
    rw [heq]
    exact SameBut.ended_self rfl _ w
  case sample =>
    intro s temps v12 i12 vcore hlen htemps hv hi hc
    have hok : Instr.wf (.internalSample temps v12 i12 vcore) = true := by simp [Instr.wf, hlen, htemps, hv, hi, hc]
    refine Completes.of_result (t := s.internalSample temps v12 i12 vcore) rfl hok ?_ fun _ _ h => h
    exact State.internalSample_spec (of_decide_eq_true hv) (of_decide_eq_true hi) (of_decide_eq_true hc)

end Sys2Proof


namespace Sys2Proof.Machine
set_option Elab.async false

/-! ## A run of the box unit at a count beyond its field's width (R323, R113) -/

section
variable {s : State} {p : Nat}

/-- Counting a unit's arithmetic events leaves CONST_ROWS within its width, even where none is counted. -/
theorem State.countArith_constRows_lt {c : Cnt} :
    (s.countArith p c).getF (F.CORE_ARITH_ROWS_CONST_ROWS p) < 2 ^ (F.CORE_ARITH_ROWS_CONST_ROWS p).w := by
  have hne : (F.CORE_ARITH_ROWS_CONST_ROWS p).key ≠ (F.CORE_ARITH_ROWS_ESC_ROWS p).key := by
    simp [Fld.key, F.CORE_ARITH_ROWS_CONST_ROWS, F.CORE_ARITH_ROWS_ESC_ROWS]
  unfold State.countArith
  have hesc (y : State) : (y.wrapF (F.CORE_ARITH_ROWS_ESC_ROWS p) c.esc).getF (F.CORE_ARITH_ROWS_CONST_ROWS p) =
      y.getF (F.CORE_ARITH_ROWS_CONST_ROWS p) :=
    SameFields.wrapIn (fs := [F.CORE_ARITH_ROWS_ESC_ROWS p]) List.mem_cons_self _ fun h => hne (List.mem_singleton.1 h)
  rw [hesc, State.getF_wrapF_self]
  exact Nat.mod_lt _ (Nat.two_pow_pos _)

/-- The box unit's run counts its events in logical core 0. -/
theorem State.boxRun_counts {latency : Nat} {d : DetRec} {r : FcRun} (hd : s.sched.det = some d) (hr : (s.fc.getD d.clause {}).run = some r)
    (hgo : r.failed = false ∧ r.boxDone = false ∧ s.box = none) (hcores : ∀ l, l < s.nCores → r.cores.contains l = true)
    (hbad : s.memBad 3 0 (s.prn (s.phys 0) d.headPrn).base (s.prn (s.phys 0) d.headPrn).size = false) :
    ∃ y c, s.boxRun latency = State.countArith y (s.phys 0) c := by
  obtain ⟨hfailed, hdone, hbox⟩ := hgo
  have hall : ((List.range s.nCores).all fun l => r.cores.contains l) = true :=
    List.all_eq_true.2 fun l hl => hcores l (List.mem_range.1 hl)
  unfold State.boxRun
  rw [hd]
  dsimp only
  rw [hr]
  dsimp only
  rw [if_neg (by rw [hfailed, hdone, hbox, hall]; decide), if_neg (by rw [hbad]; exact Bool.false_ne_true)]
  exact ⟨_, _, rfl⟩

/-- Where core 0's count stands beyond its width, a run of the box unit changes it. -/
theorem State.boxRun_wraps {d : DetRec} {r : FcRun} (hd : s.sched.det = some d) (hr : (s.fc.getD d.clause {}).run = some r)
    (hgo : r.failed = false ∧ r.boxDone = false ∧ s.box = none) (hcores : ∀ l, l < s.nCores → r.cores.contains l = true)
    (hbad : s.memBad 3 0 (s.prn (s.phys 0) d.headPrn).base (s.prn (s.phys 0) d.headPrn).size = false) (hp : s.phys 0 = p)
    (hwide : s.getF (F.CORE_ARITH_ROWS_CONST_ROWS p) = 2 ^ (F.CORE_ARITH_ROWS_CONST_ROWS p).w) :
    ¬ Completes (.boxUnitRun 0) s fun t =>
      SameFields t s (Among [F.CORE_ARITH_QNT_BAD_ESC p, F.CORE_ARITH_WIDE_STAGE_SAT p]) := by
  rintro ⟨t, ht, hfields⟩
  obtain ⟨y, c, hy⟩ := State.boxRun_counts (latency := 0) hd hr hgo hcores hbad
  have hlt := State.countArith_constRows_lt (s := y) (p := p) (c := c)
  rw [hp] at hy
  rw [← hy] at hlt
  have hout : ¬ Among [F.CORE_ARITH_QNT_BAD_ESC p, F.CORE_ARITH_WIDE_STAGE_SAT p] (F.CORE_ARITH_ROWS_CONST_ROWS p) := by
    simp [Among, Fld.key, F.CORE_ARITH_QNT_BAD_ESC, F.CORE_ARITH_WIDE_STAGE_SAT, F.CORE_ARITH_ROWS_CONST_ROWS]
    omega
  have hkept := (hfields _ hout).trans hwide
  have hend : t = { State.noteStat s (s.boxRun 0) with pending := s.pending } := (Host.Outcome.next.inj ht).symm
  rw [hend, State.noteStat_eq] at hkept
  exact absurd hkept (ne_of_lt hlt)

end

/-- A detection clause has run on every core, and core 0's CONST_ROWS reads 2¹⁶, a value beyond its 16 bits. -/
def wideState : State :=
  { pstate := 2, fc := [{ run := some { inFrame := 0, due := 0 } }]
    sched := { detRaw := some [] }
    regs := { vals := [((F.CORE_ARITH_ROWS_CONST_ROWS 0).key, 2 ^ (F.CORE_ARITH_ROWS_CONST_ROWS 0).w)] } }

theorem wideState_phys : wideState.phys 0 = 0 := by decide +kernel

theorem wideState_constRows : wideState.getF (F.CORE_ARITH_ROWS_CONST_ROWS 0) = 2 ^ (F.CORE_ARITH_ROWS_CONST_ROWS 0).w := by decide +kernel

end Sys2Proof.Machine

namespace Sys2Proof
set_option Elab.async false
open Sys2Proof.Machine

/-- Refutes O30: where CONST_ROWS of logical core 0 reads 2¹⁶, counting none of its rows wraps it to 0, and the statement says that a run of
the box unit changes no such field in any state. -/
theorem not_warpAndBoxUnitsWriteTheirRows : ¬ Obligations.WarpAndBoxUnitsWriteTheirRows := by
  unfold Obligations.WarpAndBoxUnitsWriteTheirRows
  rintro ⟨-, -, hrun, -⟩
  have hd : wideState.sched.det = some (DetRec.parse []) := rfl
  have hr : (wideState.fc.getD (DetRec.parse []).clause {}).run = some { inFrame := 0, due := 0 } := by decide
  have hbad : wideState.memBad 3 0 (wideState.prn (wideState.phys 0) (DetRec.parse []).headPrn).base
    (wideState.prn (wideState.phys 0) (DetRec.parse []).headPrn).size = false := by decide +kernel
  have hcores : ∀ l, l < wideState.nCores → ([] : List Nat).contains l = true := fun l hl => absurd hl (Nat.not_lt_zero l)
  refine State.boxRun_wraps hd hr ⟨rfl, rfl, rfl⟩ hcores hbad wideState_phys wideState_constRows ?_
  obtain ⟨t, ht, -, hfields, -⟩ := hrun wideState 0 _ _ hd hr rfl rfl rfl hcores hbad
  rw [wideState_phys] at hfields
  exact ⟨t, ht, hfields⟩

end Sys2Proof


namespace Sys2Proof.Machine
set_option Elab.async false

/-! ## Drizzle's crops, steps and operations (R335 to R346) -/

section
variable {s t u y : State} {p l i n : Nat}

/-! ### Crops -/

/-- The crop count after `n` more crops (R335). -/
def cropsTaken (e n : Nat) : Nat := if n = 0 then e else (e + n) % 2 ^ 44

theorem State.takeCrop_drz {g : Grab} : (s.takeCrop g n).drz = { s.drz with e := (s.drz.e + 1) % 2 ^ 44 } := by
  have hw (x : State) (a b c : Nat) (bs : List Byte) : (x.writeMem a b c bs).drz = s.drz ↔ x.drz = s.drz := by
    rw [State.writeMem_frame.keeps .drz]
  unfold State.takeCrop
  extract_lets z x y h gone a corrupt slot base px hdr
  have hd : ((s.writeMem 3 0 (base + 32768 * slot) px).writeMem 3 0 (base + 0x8000000 + 64 * slot) hdr).drz = s.drz :=
    (hw _ _ _ _ _).2 ((hw _ _ _ _ _).2 rfl)
  rw [State.onDrz_drz, hd]

theorem cropsTaken_succ {e k : Nat} : (cropsTaken e k + 1) % 2 ^ 44 = cropsTaken e (k + 1) := by
  unfold cropsTaken
  split <;> simp_all <;> omega

theorem State.takeCrops_drz {g : Grab} : (s.each n fun s k => s.takeCrop g k).drz = { s.drz with e := cropsTaken s.drz.e n } := by
  induction n with
  | zero => rfl
  | succ k ih =>
    rw [State.each] at ih
    rw [State.each, List.range_succ, List.foldl_append, List.foldl_cons, List.foldl_nil, State.takeCrop_drz, ih]
    exact congrArg (fun e => { s.drz with e := e }) cropsTaken_succ

/-- The log keeps its last 64 entries, and the one added is the last of them. -/
theorem log_last {α : Type} (log : List α) (x : α) : ((log ++ [x]).drop (log.length + 1 - 64)).getLast? = some x ∧
    ((log ++ [x]).drop (log.length + 1 - 64)).length ≤ 64 := by
  constructor
  · rw [List.getLast?_drop, if_neg (by simp)]
    simp
  · simp
    omega

theorem State.cropGrab_drz {g : Grab} {rest : List Grab} (h : s.drz.grabs = g :: rest) : s.cropGrab.drz =
    { s.drz with
      e := cropsTaken s.drz.e g.cpf, grabs := rest
      log := (s.drz.log ++ [(g.frame, cropsTaken s.drz.e g.cpf)]).drop (s.drz.log.length + 1 - 64) } := by
  unfold State.cropGrab
  rw [h]
  dsimp only
  rw [State.onDrz_drz, State.takeCrops_drz]

/-! ### Steps -/

/-- The cycle, the queue of steps and the steps in progress stand as they were. -/
def StepsHeld (t s : State) : Prop := t.now = s.now ∧ t.drz.queue = s.drz.queue ∧ t.drz.steps = s.drz.steps

theorem StepsHeld.trans (h1 : StepsHeld u t) (h2 : StepsHeld t s) : StepsHeld u s :=
  ⟨h1.1.trans h2.1, h1.2.1.trans h2.2.1, h1.2.2.trans h2.2.2⟩

theorem StepsHeld.of_frame {ps : List Part} (h : SameBut t s ps) (hp : .now ∉ ps ∧ .drz ∉ ps := by decide) : StepsHeld t s :=
  ⟨h.keeps .now hp.1, congrArg DrzSt.queue (h.keeps .drz hp.2), congrArg DrzSt.steps (h.keeps .drz hp.2)⟩

theorem State.samplePos_held {e d : Nat} : StepsHeld (s.samplePos e d).1 s := by
  have hset (x : State) (f : DrzSet → DrzSet) : StepsHeld (x.onDrzSet f) x := ⟨rfl, rfl, rfl⟩
  have hinc (x : State) (f : Fld) (k : Nat) : StepsHeld (x.incF f k) x := .of_frame State.incF_frame
  unfold State.samplePos
  extract_lets pos s1 i c a h
  have h1 : StepsHeld s1 s := hset _ _
  clear_value s1
  split
  · exact h1
  split
  · exact ((hset _ _).trans (hinc _ _ _)).trans h1
  split
  · exact (hinc _ _ _).trans h1
  · exact h1

theorem State.sampleSelect_held {k b e d : Nat} {xs : List (Nat × Nat)} : StepsHeld (State.sampleSelect k b e d s xs).1 s := by
  induction k generalizing s xs with
  | zero => exact ⟨rfl, rfl, rfl⟩
  | succ k ih =>
    unfold State.sampleSelect
    split
    · exact ⟨rfl, rfl, rfl⟩
    · exact ih.trans State.samplePos_held

/-- A step that selects its samples is the last of the steps in progress. -/
theorem State.selectFor_spec {st : DrzStep} {older : List DrzStep} : (s.selectFor n st older).now = s.now ∧
    (s.selectFor n st older).drz.queue = s.drz.queue ∧
      ∃ st', (s.selectFor n st older).drz.steps = older ++ [st'] ∧ st'.q = st.q ∧ st'.num = st.num ∧ st'.e = st.e ∧ st'.d = st.d ∧
        st'.startAt = st.startAt ∧ st'.ended = st.ended := by
  have hheld := State.sampleSelect_held (s := s) (k := 8192) (b := n) (e := st.e) (d := st.d) (xs := st.samples)
  unfold State.selectFor
  extract_lets r
  change StepsHeld r.1 s at hheld
  clear_value r
  obtain ⟨hnow, hqueue, -⟩ := hheld
  obtain ⟨h1, h2, h3⟩ := StepsHeld.of_frame (State.drzTakeUp_frame (s := r.1.onDrz fun d =>
    { d with steps := older ++ [{ st with samples := r.2, selected := decide (n ≤ r.2.length) }] }))
  exact ⟨h1.trans hnow, h2.trans hqueue, _, h3, rfl, rfl, rfl, rfl, rfl, rfl⟩

/-- The step that begins takes the next number and the crops that are there (R338, R341). -/
theorem State.drzStepStart_spec {b : DrzBind} {q : DrzQ} {rest : List DrzQ} {e : Nat} (hb : s.drzBind = some b) (hs : s.drz.steps = [])
    (hq : s.drz.queue = q :: rest) (hroom : s.stepRoom = true) (he : s.stepE q = some e) (hne : e ≠ 0) :
    s.drzStepStart.drz.queue = rest ∧ s.drzStepStart.now = s.now ∧ ∃ st, s.drzStepStart.drz.steps = [st] ∧ st.q = q ∧
      st.num = s.drzSet.step ∧ st.e = e ∧ st.d = min e 4032 ∧ st.startAt = s.now ∧ st.ended = [] := by
  unfold State.drzStepStart
  rw [hb, hs]
  dsimp only [List.getLast?_nil]
  unfold State.nextStep
  rw [hq]
  dsimp only
  rw [if_pos hroom, he]
  dsimp only
  rw [if_neg hne, hs]
  generalize hy : (if q.td = true then _ else _ : State) = y
  have hyq : y.now = s.now ∧ y.drz.queue = rest := by
    rw [← hy]
    split <;> exact ⟨rfl, rfl⟩
  obtain ⟨hnow, hqueue, st, hsteps, h1, h2, h3, h4, h5, h6⟩ := State.selectFor_spec (s := y) (n := s.nCores * b.spc)
    (st := { q := q, num := s.drzSet.step, e := e, d := min e 4032, startAt := s.now }) (older := [])
  exact ⟨hqueue.trans hyq.2, hnow.trans hyq.1, st, hsteps, h1, h2, h3, h4, h5, h6⟩

/-! ### Samples -/

/-- A sample written counts in the core's step (R340). -/
theorem State.augment_spec {b : DrzBind} {st : DrzStep} (hb : s.drzBind = some b)
    (hst : (s.drz.steps.find? fun t => t.selected && !t.ended.contains l) = some st) (hl : l < s.nCores) (hleft : SMap.get 0 st.aug l < b.spc) :
    (s.augment l).now = s.now ∧ ∃ st' ∈ (s.augment l).drz.steps, st'.num = st.num ∧ SMap.get 0 st'.aug l = SMap.get 0 st.aug l + 1 := by
  have hmem : st ∈ s.drz.steps := List.mem_of_find?_eq_some hst
  unfold State.augment
  rw [hb, hst]
  dsimp only
  rw [if_neg (by omega)]
  generalize hy : (s.each 64 _ : State) = y
  have hheld : Keeps [.now, .drz] y s := by
    rw [← hy]
    exact Keeps.each (Keeps.refl _ s) fun _ _ => Keeps.each (Keeps.refl _ _) fun _ _ => State.writeElems_frame.toKeeps
  have hsig (x : State) (i : Nat) (it : Item) : StepsHeld (x.signalAt (s.phys l) i it) x := .of_frame State.signalAt_frame
  obtain ⟨hnow, -, hsteps⟩ := hsig (y.onStep st.num fun t => { t with aug := SMap.set 0 t.aug l (SMap.get 0 st.aug l + 1) }) b.sampleSem {}
  refine ⟨hnow.trans (hheld.at .now), { st with aug := SMap.set 0 st.aug l (SMap.get 0 st.aug l + 1) }, ?_, rfl,
    SMap.get_set_self 0 st.aug l (SMap.get 0 st.aug l + 1)⟩
  rw [hsteps]
  have hdrz : y.drz = s.drz := hheld.at .drz
  refine List.mem_map.2 ⟨st, ?_, if_pos rfl⟩
  rw [hdrz]
  exact hmem

/-! ### Gradient operations -/

theorem State.spadRead_util {ws : List Nat} {e : EccIn} : CoresShow CoreSt.utilFrame (s.spadRead p ws e).1 s := by
  have hmap (y : State) (m : MapOut) : CoresShow CoreSt.utilFrame (y.setSpadMap p m) y := by
    refine CoresShow.trans (.of_frame State.setF_frame) (CoresShow.onCore ?_)
    exact fun _ => rfl
  have hcount (y : State) (f : Fld) (w k : Nat) : CoresShow CoreSt.utilFrame ((y.incF f 1).spadLast p w k) y :=
    (CoresShow.of_frame State.spadLast_frame).trans (.of_frame State.incF_frame)
  refine CoresShow.trans (CoresShow.foldl _ fun y w => ?_) (.ite (.refl _ s)
    (CoresShow.trans (CoresShow.foldl _ fun _ _ => hmap _ _) (CoresShow.foldl s fun y w => hcount _ _ _ _)))
  refine (hmap _ _).trans (CoresShow.trans (CoresShow.onCore ?_) (hcount _ _ _ _))
  exact fun _ => rfl

theorem State.foreRead_util {ws : List Nat} {e : EccIn} {alone : Bool} : CoresShow CoreSt.utilFrame (s.foreRead p ws e alone).1 s := by
  have hstall (y : State) : CoresShow CoreSt.utilFrame (y.stallCorrect p alone) y := by
    refine .ite (.refl _ _) (CoresShow.onCore ?_)
    exact fun _ => rfl
  exact .ite ((hstall _).trans State.spadRead_util) State.spadRead_util

/-- The reads of a gradient operation leave the core's count of busy cycles. -/
theorem State.gradRun_util {d : LayerDesc} {m : MapRec} {g : GradDesc} {cb : Codebook} {e : EccIn} :
    CoresShow CoreSt.utilFrame (s.gradRun p d m g cb e).2.2.1 s := by
  unfold State.gradRun
  extract_lets xr gr ix poss
  suffices h : ∀ a : List Int × Cnt × State × Bool, CoresShow CoreSt.utilFrame a.2.2.1 s →
      CoresShow CoreSt.utilFrame (poss.foldl _ a).2.2.1 s from h _ (.refl _ s)
  induction poss with
  | nil => exact fun a h => h
  | cons q poss ih =>
    intro a h
    rw [List.foldl_cons]
    refine ih _ ?_
    split
    · exact h
    · exact State.foreRead_util.trans h

end
end Sys2Proof.Machine


namespace Sys2Proof.Machine
set_option Elab.async false

section
variable {s u : State} {p l i : Nat} {w : CoreIn} {b : DrzBind} {st : DrzStep} {g : GradDesc}

/-- Descriptor i is due on a core: its thread 3 carries the clause and may issue (R343, R345). -/
structure GradReady (s : State) (p l i : Nat) (b : DrzBind) (st : DrzStep) (g : GradDesc) : Prop where
  logical : s.logical p = some l
  bind : s.drzBind = some b
  step : s.drz.steps.head? = some st
  desc : s.gradDescs[i]? = some g
  within : i < b.ngd
  issues : s.mayIssue p 3 s.cal.line = true
  carries : s.threadClause p 3 = s.sched.drzClause
  unended : st.ended.contains l = false

theorem GradReady.goes (h : GradReady s p l i b st g) : ¬ ((!s.mayIssue p 3 s.cal.line) = true ∨
    s.threadClause p 3 ≠ s.sched.drzClause ∨ st.ended.contains l = true ∨ b.ngd ≤ i) := by
  rw [h.issues, h.unended, h.carries]
  have := h.within
  simpa using this

/-- A thread that is not granted waits a cycle (R160). -/
theorem State.gradient_refused (h : GradReady s p l i b st g) (hg : s.grantsThread p 3 w.rivals = false) :
    s.gradient p i w = s.refused1 p 3 := by
  unfold State.gradient
  rw [h.logical, h.bind, h.step, h.desc]
  dsimp only
  rw [if_neg h.goes, if_pos (by rw [hg]; rfl)]

theorem State.refused1_spec {k : Nat} : SameFields (s.refused1 p k) s (Among [F.CORE_THREAD_STATE p]) ∧
    ((s.refused1 p k).core p).utilWait = (s.core p).utilWait + 1 := by
  have hc : CoresShow id (s.refused1 p k) (s.onCore p fun c => { c with utilWait := c.utilWait + 1 }) :=
    .of_frame State.setThreadState_frame
  refine ⟨(SameFields.setIn List.mem_cons_self).trans (SameFields.onCore _ _ _ _), ?_⟩
  exact congrArg CoreSt.utilWait ((hc p).trans (State.core_onCore_self _ _ _))

/-- The state in which a granted gradient operation reads its rows. -/
def State.gradIssued (s : State) (p : Nat) : State := ((s.awaitUnit p 3 .array).rotate p 3).setThreadState p 3 1

/-- A core's descriptor i is noted as done in its step (R345). -/
def gradNoted (t : DrzStep) (l i : Nat) : DrzStep := { t with grads := SMap.set [] t.grads l (i :: SMap.get [] t.grads l) }

/-- What a gradient operation leaves that read its rows without a fault (R345): its sums written, its accumulators cleared. -/
def State.gradDone (f : State) (p cyc num l i place unit a : Nat) (cnt : Cnt) (bs : List Byte) : State :=
  (((((f.countArith p cnt).occupy p 3 .array cyc).inPipe p 3 cyc).writeMem place unit a bs).onCore p fun c => { c with
    acc := SMap.set [] c.acc 3 [], utilFrame := c.utilFrame + cyc }).onStep num fun t =>
      gradNoted t l i

theorem State.gradient_done {d : LayerDesc} {gr : Prn} {r : List Int × Cnt × State × Bool} (h : GradReady s p l i b st g)
    (hg : s.grantsThread p 3 w.rivals = true) (hu : u = s.gradIssued p) (hd : d = u.sched.layer l g.layer) (hgr : gr = u.prn p g.gPrn)
    (hr : r = u.gradRun p d (u.sched.mapRec l d) g (SMap.get default (u.core p).cbs u.drzRec.gSlot) w.ecc)
    (hconf : besideConflict 0 (fun a => inTensor (u.prn p g.xPrn) a || inTensor gr a) w.beside = none)
    (hcodes : stepFaults false false ([d.inCb, u.drzRec.gSlot].any fun x => (u.core p).cbBusy.any fun y => y.1 == x && decide (u.now < y.2))
      w.store false r.2.2.2 = []) :
    ∃ place unit a bs, s.gradient p i w = r.2.2.1.gradDone p (gr.lh * gr.lw + 64) st.num l i place unit a r.2.1 bs := by
  unfold State.gradIssued at hu
  unfold State.gradient
  rw [h.logical, h.bind, h.step, h.desc]
  dsimp only
  rw [if_neg h.goes, if_neg (by rw [hg]; decide), ← hu, ← hd, ← hgr, hconf]
  simp only [Option.isSome_none, Bool.false_eq_true, if_false]
  rw [← hr, if_neg (fun hne => hne hcodes)]
  exact ⟨_, _, _, _, rfl⟩

/-- Clears the accumulators, counts a cycle a position and 64 more, and notes the descriptor as done. -/
theorem State.gradDone_spec {f : State} {cyc place unit a : Nat} {cnt : Cnt} {bs : List Byte} (hst : f.drz.steps.head? = some st) :
    (f.gradDone p cyc st.num l i place unit a cnt bs).now = f.now ∧
      SMap.get [] ((f.gradDone p cyc st.num l i place unit a cnt bs).core p).acc 3 = [] ∧
      ((f.gradDone p cyc st.num l i place unit a cnt bs).core p).utilFrame = (f.core p).utilFrame + cyc ∧
      ∃ st' rest, (f.gradDone p cyc st.num l i place unit a cnt bs).drz.steps = st' :: rest ∧ st'.num = st.num ∧
        SMap.get [] st'.grads l = i :: SMap.get [] st.grads l := by
  unfold State.gradDone
  generalize hy : (((f.countArith p cnt).occupy p 3 .array cyc).inPipe p 3 cyc).writeMem place unit a bs = y
  have hk : Keeps [.now, .drz] y f := by
    rw [← hy]
    exact (((State.countArith_frame.toKeeps).step State.occupy_frame).step State.inPipe_frame).step State.writeMem_frame
  have hw (x : State) : CoresShow CoreSt.utilFrame (x.writeMem place unit a bs) x :=
    .ite (.onCore fun _ => rfl) (.ite (.of_frame State.onBand_frame) (.ite (.refl _ x) (.of_cores rfl)))
  have ho (x : State) : CoresShow CoreSt.utilFrame (x.occupy p 3 .array cyc) x := .onCore fun _ => rfl
  have hp (x : State) : CoresShow CoreSt.utilFrame (x.inPipe p 3 cyc) x := .onCore fun _ => rfl
  have hutil : CoresShow CoreSt.utilFrame y f := by
    rw [← hy]
    exact (hw _).trans ((hp _).trans ((ho _).trans (.of_frame State.countArith_frame)))
  have hcore := State.core_onCore_self y p fun c => { c with acc := SMap.set [] c.acc 3 [], utilFrame := c.utilFrame + cyc }
  have hdrz : y.drz = f.drz := hk.at .drz
  refine ⟨hk.at .now, (congrArg (fun c : CoreSt => SMap.get [] c.acc 3) hcore).trans (SMap.get_set_self [] (y.core p).acc 3 []),
    (congrArg CoreSt.utilFrame hcore).trans (congrArg (· + cyc) (hutil p)), ?_⟩
  cases hsteps : f.drz.steps with
  | nil => simp [hsteps] at hst
  | cons x rest =>
    obtain rfl : x = st := by simpa [hsteps] using hst
    refine ⟨gradNoted x l i, rest.map fun t => if t.num = x.num then gradNoted t l i else t, ?_, rfl, SMap.get_set_self [] x.grads l (i :: SMap.get [] x.grads l)⟩
    change y.drz.steps.map _ = _
    rw [hdrz, hsteps, List.map_cons, if_pos rfl]

end
end Sys2Proof.Machine

namespace Sys2Proof
set_option Elab.async false
open Sys2Proof.Machine

/-- Settles O31: crops are taken, steps begin, and samples and gradient operations advance them. -/
theorem drizzleStepsStartAndAdvance : Obligations.DrizzleStepsStartAndAdvance := by
  unfold Obligations.DrizzleStepsStartAndAdvance
  refine ⟨?crops, ?start, ?sample, ?done, ?waits⟩
  case crops =>
    intro s g rest h
    refine Completes.of_op (t := s.cropGrab) rfl fun w => ?_
    have hframe := State.cropGrab_frame (s := s)
    have hdrz := State.cropGrab_drz h
    generalize s.cropGrab = t at *
    obtain ⟨hlast, hlen⟩ := log_last s.drz.log (g.frame, cropsTaken s.drz.e g.cpf)
    refine ⟨congrArg DrzSt.grabs hdrz, ?_, ?_, fun hpos => ?_, (hframe.mono (by decide)).ended w⟩
    · rw [hdrz]
      exact hlast
    · rw [hdrz]
      exact hlen
    · exact (congrArg DrzSt.e hdrz).trans (if_neg (by omega))
  case start =>
    intro s b q rest e hb hs hq hroom he hne
    refine Completes.of_op_same (t := s.drzStepStart) rfl ?_ fun _ _ h => h
    exact State.drzStepStart_spec hb hs hq hroom he hne
  case sample =>
    intro s l b st hl hb hst hin hleft
    refine Completes.of_result (t := s.augment l) rfl hl ?_ fun _ _ h => h
    exact State.augment_spec hb hst hin hleft
  case done =>
    intro s u p i l w b st g d gr r hp hw hlog hb hst hdesc hi hmay hcl hend hgrant hu hd hgr hr hconf hcodes
    have hready : GradReady s p l i b st g := ⟨hlog, hb, hst, hdesc, hi, hmay, hcl, hend⟩
    have hok : Instr.wf (.gradientOperation p i w) = true := by simp [Instr.wf, hp, hw]
    refine Completes.of_result (t := s.gradient p i w) rfl hok ?_ fun _ _ h => h
    obtain ⟨place, unit, a, bs, heq⟩ := State.gradient_done hready hgrant hu hd hgr hr hconf hcodes
    have hrun : Keeps [.now, .drz] r.2.2.1 u := by
      rw [hr]
      exact State.gradRun_frame.toKeeps
    have hutil : CoresShow CoreSt.utilFrame r.2.2.1 u := by
      rw [hr]
      exact State.gradRun_util
    have hissued : u.drz = s.drz := by
      rw [hu]
      exact (((State.awaitUnit_frame.toKeeps : Keeps [.drz] _ s).step State.rotate_frame).step State.setThreadState_frame).at .drz
    have hdrz : r.2.2.1.drz.steps.head? = some st := by
      rw [show r.2.2.1.drz = s.drz from (hrun.at .drz).trans hissued]
      exact hst
    rw [heq]
    obtain ⟨h1, h2, h3, h4⟩ := State.gradDone_spec (p := p) (l := l) (i := i) (cyc := gr.lh * gr.lw + 64) (place := place) (unit := unit)
      (a := a) (cnt := r.2.1) (bs := bs) hdrz
    exact ⟨h1.trans (hrun.at .now), h2, h3.trans (congrArg (· + (gr.lh * gr.lw + 64)) (hutil p)), h4⟩
  case waits =>
    intro s p i l w b st g hp hw hlog hb hst hdesc hi hmay hcl hend hgrant
    have hready : GradReady s p l i b st g := ⟨hlog, hb, hst, hdesc, hi, hmay, hcl, hend⟩
    have hok : Instr.wf (.gradientOperation p i w) = true := by simp [Instr.wf, hp, hw]
    refine Completes.of_act (t := s.gradient p i w) rfl hok fun x => ?_
    rw [State.gradient_refused hready hgrant]
    obtain ⟨hfields, hwait⟩ := State.refused1_spec (s := s) (p := p) (k := 3)
    exact ⟨State.refused1_frame.ended x, hfields, hwait⟩

end Sys2Proof


namespace Sys2Proof.Machine
set_option Elab.async false

/-! ## The ends of Drizzle's steps and its commits (R343 to R351) -/

section
variable {s t y : State} {p l k latency : Nat} {b : DrzBind} {st : DrzStep} {c : DrzCommit}

/-- The drain of a thread's clause ends 8 core cycles after its last operation (R164). -/
theorem State.clauseDrained_now {cl : Nat} {sems lists : List Nat} (hc : s.threadClause p k = some cl) (hd : s.drained p k lists = true) :
    (s.clauseDrained p k sems lists).now = max s.now (drainEnd (s.core p) (s.clock p) k) := by
  unfold State.clauseDrained
  rw [hc]
  dsimp -zeta only
  rw [if_neg (by rw [hd]; decide)]
  have h0 := s.waitUntil_now (drainEnd (s.core p) (s.clock p) k)
  generalize s.waitUntil (drainEnd (s.core p) (s.clock p) k) = s0 at *
  extract_lets x others s1 s2
  have h1 : Keeps [.now] s1 s0 := .ite (.refl _ _) (Keeps.foldl (.refl _ _) fun _ _ => State.drainSem_frame.toKeeps)
  have h2 : Keeps [.now] s2 s0 := Keeps.step (.ite h1 (h1.step State.dropPendings_frame)) State.dropClause_frame
  have hall : Keeps [.now] (if (!s.isLineThread p k) = true then s2.coreDrained p cl else if k = 0 then s2.nextLine p cl else s2) s0 :=
    .ite (h2.step State.coreDrained_frame) (.ite (h2.step State.nextLine_frame) h2)
  exact (hall.at .now).trans h0

/-- A core ends the step's clause once all its gradients are written and it has drained (R343). -/
theorem State.drzClauseEnd_spec {sems : List Nat} (hl : s.logical p = some l) (hb : s.drzBind = some b) (hst : s.drz.steps.head? = some st)
    (hcl : s.threadClause p 3 = s.sched.drzClause) (hsome : s.threadClause p 3 ≠ none) (hd : s.drained p 3 [] = true)
    (hend : st.ended.contains l = false) (hall : ∀ i, i < b.ngd → (SMap.get [] st.grads l).contains i = true) :
    (s.drzClauseEnd p sems).now = max s.now (drainEnd (s.core p) (s.clock p) 3) ∧
      ∃ st' rest, (s.drzClauseEnd p sems).drz.steps = st' :: rest ∧ st'.num = st.num ∧ st'.ended = l :: st.ended := by
  obtain ⟨cl, hclause⟩ := Option.ne_none_iff_exists'.1 hsome
  have hnow := State.clauseDrained_now (sems := sems) hclause hd
  have hdrz : (s.clauseDrained p 3 sems []).drz = s.drz := State.clauseDrained_frame.keeps .drz
  have hgrads : ((List.range b.ngd).all fun i => (SMap.get [] st.grads l).contains i) = true :=
    List.all_eq_true.2 fun i hi => hall i (List.mem_range.1 hi)
  have heq : s.drzClauseEnd p sems = (s.clauseDrained p 3 sems []).onStep st.num fun t => { t with ended := l :: t.ended } := by
    unfold State.drzClauseEnd
    rw [hl, hb, hst]
    dsimp only
    rw [if_neg (by rw [hd, hend, hgrads, hcl]; simp)]
  rw [heq]
  generalize s.clauseDrained p 3 sems [] = y at *
  refine ⟨hnow, ?_⟩
  cases hsteps : s.drz.steps with
  | nil => simp [hsteps] at hst
  | cons x rest =>
    obtain rfl : x = st := by simpa [hsteps] using hst
    refine ⟨{ x with ended := l :: x.ended }, rest.map fun t => if t.num = x.num then { t with ended := l :: t.ended } else t, ?_, rfl, rfl⟩
    change y.drz.steps.map _ = _
    rw [hdrz, hsteps, List.map_cons, if_pos rfl]

/-! ### Updates -/

theorem SameFields.countUnits {cnt : Cnt} : SameFields (s.countArith p cnt) s InUnits := by
  have hw (x : State) (f : Fld) (n : Nat) (h : 0x100000 ≤ f.addr) : SameFields (x.wrapF f n) x InUnits := (Outside.wrapF h).1
  have hi (l : List (Fld × Nat)) (h : ∀ x ∈ l, 0x100000 ≤ x.1.addr) : SameFields (s.incFs l) s InUnits := fun f hf =>
    State.getF_incFs_ne _ _ _ fun x hx e => hf (.of_addr (h x hx) e)
  refine (hw _ _ _ above).trans ((hw _ _ _ above).trans (hi _ fun x hx => ?_))
  simp only [List.mem_cons, List.not_mem_nil, or_false] at hx
  obtain rfl | rfl | rfl | rfl | rfl | rfl | rfl := hx <;> exact above

theorem State.drzTakeUp_units : SameFields s.drzTakeUp s InUnits := by
  unfold State.drzTakeUp
  split
  · refine .ite (.refl _ _) (SameFields.each (.refl _ _) fun y l => .ite (.refl _ _) ?_)
    refine State.frameThreads_outside.1.trans ((SameFields.onCore _ _ _ _).trans (Outside.setFs fun x hx => ?_).1)
    simp only [List.mem_cons, List.not_mem_nil, or_false] at hx
    obtain rfl | rfl := hx <;> exact Nat.le_add_right_of_le above
  · exact .refl _ _

/-- The model set in the weight files is read from two registers and the sample in hand (R354). -/
theorem State.msetIdx_same {ok : Fld → Prop} (hf : SameFields t s ok) (hp : ¬ ok F.CAL_MSET_MSET_PEND) (hc : ¬ ok F.CAL_MSET_MSET_CUR)
    (hm : t.msetSample = s.msetSample) : t.msetIdx = s.msetIdx := by
  simp only [State.msetIdx, hf _ hp, hf _ hc, hm]

theorem not_inUnits {f : Fld} (h : f.key < 0x2000000 := by decide) : ¬ InUnits f := Nat.not_le.2 h

theorem State.drzSet_same (hd : t.drz = s.drz) (hm : t.msetIdx = s.msetIdx) : t.drzSet = s.drzSet := by
  simp only [State.drzSet, hd, hm]

/-- The commit that a completed step makes due changes neither the steps nor the counters. -/
theorem State.coverCheck_spec : s.coverCheck.drz.steps = s.drz.steps ∧ s.coverCheck.drzSet = s.drzSet := by
  unfold State.coverCheck
  extract_lets k live
  split <;> exact ⟨rfl, rfl⟩

/-- The end of an update, once its events have counted (R348, R333). -/
def State.updateEnds (y : State) (cur : Nat) (later : List DrzStep) : State :=
  (((y.onDrzSet fun z => { z with cur := cur }).onDrz fun d => { d with steps := later }).drzTakeUp).coverCheck

theorem State.updateEnds_spec {cur : Nat} {later : List DrzStep} : (y.updateEnds cur later).now = y.now ∧
    (y.updateEnds cur later).drz.steps = later ∧ (y.updateEnds cur later).drzSet.cur = cur ∧
      SameFields (y.updateEnds cur later) y InUnits := by
  unfold State.updateEnds
  generalize h4 : ((y.onDrzSet fun z => { z with cur := cur }).onDrz fun d => { d with steps := later }) = s4
  have hset : s4.drzSet.cur = cur := by
    rw [← h4]
    exact congrArg DrzSet.cur (SMap.get_set_self ({} : DrzSet) y.drz.sets y.msetIdx { y.drzSet with cur := cur })
  have hs4 : s4.drz.steps = later ∧ s4.now = y.now ∧ SameFields s4 y InUnits := by
    rw [← h4]
    exact ⟨rfl, rfl, SameFields.of_regs rfl⟩
  obtain ⟨hsteps, hn4, hf4⟩ := hs4
  clear h4
  have htake : Keeps [.now, .drz, .msetSample] s4.drzTakeUp s4 := State.drzTakeUp_frame.toKeeps
  have hidx : s4.drzTakeUp.msetIdx = s4.msetIdx :=
    State.msetIdx_same State.drzTakeUp_units not_inUnits not_inUnits (htake.at .msetSample)
  have hsame : s4.drzTakeUp.drzSet = s4.drzSet := State.drzSet_same (htake.at .drz) hidx
  have hf5 : SameFields s4.drzTakeUp s4 InUnits := State.drzTakeUp_units
  have hsteps5 : s4.drzTakeUp.drz.steps = s4.drz.steps := congrArg DrzSt.steps (htake.at .drz)
  have hn5 : s4.drzTakeUp.now = s4.now := htake.at .now
  generalize s4.drzTakeUp = s5 at *
  obtain ⟨hc1, hc2⟩ := State.coverCheck_spec (s := s5)
  refine ⟨?_, hc1.trans (hsteps5.trans hsteps), ?_, ?_⟩
  · exact (State.coverCheck_frame.keeps .now).trans (hn5.trans hn4)
  · rw [hc2, hsame, hset]
  · exact (SameFields.of_frame State.coverCheck_frame).trans (hf5.trans hf4)

/-- The events of an update count in logical core 0 (log entry 88). -/
def State.updateCounted (x : State) (cnt : Cnt) (draws : Nat) : State := { x.countArith (x.phys 0) cnt with free := x.free + draws }

theorem State.updateCounted_spec {cnt : Cnt} {draws : Nat} : (y.updateCounted cnt draws).now = y.now ∧ SameFields (y.updateCounted cnt draws) y InUnits := by
  have hframe : SameBut (y.countArith (y.phys 0) cnt) y [.regs] := State.countArith_frame
  have hnow : (y.countArith (y.phys 0) cnt).now = y.now := hframe.keeps .now
  have hfields : SameFields (y.countArith (y.phys 0) cnt) y InUnits := SameFields.countUnits
  unfold State.updateCounted
  generalize y.countArith (y.phys 0) cnt = z at *
  exact ⟨hnow, SameFields.trans (t := z) (SameFields.of_regs rfl) hfields⟩

/-- The update counts its cycles and its events after its time has passed. -/
theorem State.drzUpdate_eq {later : List DrzStep} (hb : s.drzBind = some b) (hs : s.drz.steps = st :: later)
    (hall : s.nCores ≤ st.ended.length) : ∃ y : State, s.drzUpdate latency = y.updateEnds (1 - s.drzSet.cur) later ∧
      y.now = s.now + s.drzT * (64 * s.nCores + 256) + latency ∧
        y.getF F.DRZ_STEP_CYC_STEP_CYC = (y.now - st.startAt) % 2 ^ F.DRZ_STEP_CYC_STEP_CYC.w := by
  unfold State.drzUpdate
  rw [hb, hs]
  dsimp only
  rw [if_neg (by omega)]
  have h0 : (s.waitUntil (s.now + s.drzT * (64 * s.nCores + 256) + latency)).now = s.now + s.drzT * (64 * s.nCores + 256) + latency := by
    rw [State.waitUntil_now]
    omega
  have hset0 : (s.waitUntil (s.now + s.drzT * (64 * s.nCores + 256) + latency)).drzSet = s.drzSet :=
    State.drzSet_same (State.waitUntil_frame.keeps .drz) (State.msetIdx_same (s.waitUntil_fields _) not_withTime_low not_withTime_low
      (State.waitUntil_frame.keeps .msetSample))
  generalize s.waitUntil (s.now + s.drzT * (64 * s.nCores + 256) + latency) = s0 at *
  rw [hset0]
  generalize (List.range s0.drzT).map (fun i => s0.updateTile b st i) = us
  have h1 (a : Nat) (bs : List Byte) : (s0.writeMem 3 0 a bs).now = s0.now := State.writeMem_frame.keeps .now
  have hn1 := h1 (s0.tileOff (1 - s.drzSet.cur) 0) (us.flatMap (·.1))
  generalize s0.writeMem 3 0 (s0.tileOff (1 - s.drzSet.cur) 0) (us.flatMap (·.1)) = s1 at *
  generalize hg : (us.map fun u => u.2.1).foldl (· + ·) 0 = grads
  generalize hm : (us.map fun u => u.2.2.1).foldl (· + ·) 0 = sats
  have hx1 : ((s1.incF F.DRZ_SAT_GRAD_SAT grads).incF F.DRZ_SAT_MASTER_SAT sats).now = s1.now := rfl
  generalize (s1.incF F.DRZ_SAT_GRAD_SAT grads).incF F.DRZ_SAT_MASTER_SAT sats = x1 at *
  have hcyc := State.getF_setF_self x1 F.DRZ_STEP_CYC_STEP_CYC (s1.now - st.startAt)
  generalize hx : x1.setF F.DRZ_STEP_CYC_STEP_CYC (s1.now - st.startAt) = x2 at *
  obtain ⟨hn2, hf2⟩ := State.updateCounted_spec (y := x2) (cnt := Cnt.all (us.map fun u => u.2.2.2)) (draws := 65536)
  have hset : SameBut (x1.setF F.DRZ_STEP_CYC_STEP_CYC (s1.now - st.startAt)) x1 [.regs] := State.setF_frame
  rw [hx] at hset
  have hx2 : x2.now = s1.now := (hset.keeps .now).trans hx1
  generalize hcnt : Cnt.all (us.map fun u => u.2.2.2) = cnt at *
  refine ⟨x2.updateCounted cnt 65536, rfl, ?_, ?_⟩
  · rw [hn2, hx2, hn1, h0]
  rw [hf2 _ not_inUnits, hcyc, hn2, hx2]

/-- The update takes its time and makes the other copy current (R348, R333). -/
theorem State.drzUpdate_spec {later : List DrzStep} (hb : s.drzBind = some b) (hs : s.drz.steps = st :: later)
    (hall : s.nCores ≤ st.ended.length) :
    (s.drzUpdate latency).now = s.now + s.drzT * (64 * s.nCores + 256) + latency ∧ (s.drzUpdate latency).drz.steps = later ∧
      (s.drzUpdate latency).drzSet.cur = 1 - s.drzSet.cur ∧
      (s.drzUpdate latency).getF F.DRZ_STEP_CYC_STEP_CYC =
        ((s.drzUpdate latency).now - st.startAt) % 2 ^ F.DRZ_STEP_CYC_STEP_CYC.w := by
  obtain ⟨y, heq, hnow, hcyc⟩ := State.drzUpdate_eq (latency := latency) hb hs hall
  obtain ⟨hn, hsteps, hcur, hfields⟩ := State.updateEnds_spec (y := y) (cur := 1 - s.drzSet.cur) (later := later)
  rw [heq]
  exact ⟨hn.trans hnow, hsteps, hcur, by rw [hfields _ not_inUnits, hcyc, hn]⟩

/-! ### Commits -/

/-- The pages of a commit go into the free page buffer (R351). -/
theorem State.commitPages_spec (hc : s.drz.commit = some c) (hbuf : c.buf = none) (hr : s.drz.reset = false) (hsw : s.drz.switched = false)
    (hold : (s.drz.steps.any fun t => t.q.buf == 1 - s.drzSet.buf && t.q.version != s.drzSet.version) = false) :
    (s.commitPages latency).now = s.now ∧
      (s.commitPages latency).drz.commit = some { c with
        buf := some (1 - s.drzSet.buf), done := s.now + latency + 40 + 4 * s.drzT, tainted := s.drzSet.taint } := by
  refine ⟨State.commitPages_frame.keeps .now, ?_⟩
  unfold State.commitPages
  rw [hc]
  dsimp only
  rw [if_neg (by rw [hbuf, hr, hsw, hold]; decide)]
  rfl

/-- A commit is ready once its last write has completed (R351). -/
theorem State.commitReady_spec (hc : s.drz.commit = some c) (hbuf : c.buf ≠ none) (hr : c.ready = false) :
    s.commitReady.now = max (max s.now c.done) ((s.waitUntil c.done).writeInactive c.live).writesEnd ∧
      s.commitReady.drz = { s.drz with commit := some { c with ready := true } } ∧ SameFields s.commitReady s WithTime := by
  have h1 : SameBut ((s.waitUntil c.done).writeInactive c.live) (s.waitUntil c.done) [.cores] := State.writeInactive_frame
  have hf1 : SameFields ((s.waitUntil c.done).writeInactive c.live) s WithTime :=
    (SameFields.of_frame h1).trans (s.waitUntil_fields c.done)
  have hn1 : ((s.waitUntil c.done).writeInactive c.live).now = max s.now c.done := (h1.keeps .now).trans (s.waitUntil_now c.done)
  have hd1 : ((s.waitUntil c.done).writeInactive c.live).drz = s.drz := (h1.keeps .drz).trans (State.waitUntil_frame.keeps .drz)
  unfold State.commitReady
  rw [hc]
  dsimp only
  rw [if_neg (by simp [hbuf, hr])]
  generalize (s.waitUntil c.done).writeInactive c.live = y at *
  have hd2 : (y.waitUntil y.writesEnd).drz = s.drz := (State.waitUntil_frame.keeps .drz).trans hd1
  refine ⟨(y.waitUntil_now y.writesEnd).trans (by rw [hn1]), ?_, ?_⟩
  · rw [State.onDrz_drz, hd2]
  · exact (SameFields.of_frame State.onDrz_frame).trans ((y.waitUntil_fields _).trans hf1)

end
end Sys2Proof.Machine

namespace Sys2Proof
set_option Elab.async false
open Sys2Proof.Machine

/-- Settles O32: cores end the clause, updates make the other copy current, and commits are written and become ready. -/
theorem drizzleStepsEndAndCommit : Obligations.DrizzleStepsEndAndCommit := by
  unfold Obligations.DrizzleStepsEndAndCommit
  refine ⟨?ends, ?updates, ?pages, ?ready⟩
  case ends =>
    intro s p l sems b st hp hsems hl hb hst hcl hsome hd hend hall
    refine Completes.of_result (t := s.drzClauseEnd p sems) rfl (by simp only [Instr.wf, hp, hsems, Bool.and_self]) ?_ fun _ _ h => h
    exact State.drzClauseEnd_spec hl hb hst hcl hsome hd hend hall
  case updates =>
    intro s latency b st later hb hs hall
    refine Completes.of_op_same (t := s.drzUpdate latency) rfl ?_ fun _ _ h => h
    exact State.drzUpdate_spec hb hs hall
  case pages =>
    intro s latency c hc hbuf hr hsw hold
    refine Completes.of_op_same (t := s.commitPages latency) rfl ?_ fun _ _ h => h
    obtain ⟨hnow, hcommit⟩ := State.commitPages_spec (latency := latency) hc hbuf hr hsw hold
    exact ⟨hnow, _, hcommit, le_rfl⟩
  case ready =>
    intro s c hc hbuf hr
    refine Completes.of_op (t := s.commitReady) rfl fun w => ?_
    obtain ⟨hnow, hdrz, hfields⟩ := State.commitReady_spec hc hbuf hr
    exact ⟨hnow, hdrz, State.commitReady_frame.ended w, hfields⟩

end Sys2Proof


namespace Sys2Proof.Machine
set_option Elab.async false

/-- A replay holds the last line of the input frame being written until cycle 10, and INP_APPLY's GO counts as written in that cycle, on
1: the shadows then select port 1. -/
def latchState : State :=
  { inp := { ports := [{ hpd := true, lossLock := false }, {}]
             fr := some { num := 0, src := .blankBlack, fit := { hb := 1 }, geo := {}, pic := {} } }
    aud := { replay := true, zero := some 0, replayLog := [{ type := 6, withheld := false, time := 10, payload := [] }] }
    regs := { (State.reset.setFs [(F.INP_PORT_STATUS_SIGNAL 0, 1), (F.INP_MODE_MODE, 1), (F.AUD_REPLAY_CTRL_REPLAY_LINES, 1)]).regs with
              writes := [(F.INP_APPLY_GO.key, (11, 1))] } }

/-- The frame that starts on port 0. -/
def latchFrame : SrcAttr := { w := 4, h := 2, enc := 0, bpc := 1, dsc := false, encrypted := false }

/-- The flush of the old frame lasts until GO is seen, and the frame that starts is not passed on (R93). -/
theorem latchState_frameStart_cur : (latchState.frameStart 0 latchFrame).inp.cur = none := by decide +kernel

end Sys2Proof.Machine

namespace Sys2Proof
set_option Elab.async false
open Sys2Proof.Machine

/-- Refutes O15: the statement asks for GO unseen in the cycle of the frame's start only, and a replay that waits for a recorded line of
the old frame takes the start into a later cycle, in which a state that dates GO's write there sees it. -/
theorem not_inputFramesStartAndLinesJoin : ¬ Obligations.InputFramesStartAndLinesJoin := by
  unfold Obligations.InputFramesStartAndLinesJoin
  rintro ⟨hstart, -⟩
  have hclear : frameClear latchState 0 latchFrame { hpd := true, lossLock := false } := by
    unfold frameClear portClear
    decide +kernel
  obtain ⟨t, ht, hcur⟩ := hstart latchState 0 latchFrame latchFrame _ rfl hclear (.inl (by decide +kernel)) (by decide) (by decide)
    (by decide +kernel) (by decide +kernel)
  have hend : t = { State.noteStat latchState (latchState.frameStart 0 latchFrame) with pending := latchState.pending } :=
    (Host.Outcome.next.inj ht).symm
  rw [hend, State.noteStat_eq] at hcur
  exact absurd (hcur.symm.trans latchState_frameStart_cur) (Option.some_ne_none _)

end Sys2Proof


namespace Sys2Proof.Machine
set_option Elab.async false

/-! ## Output lines: start slots, fallback segments and deadlines (R60, R63, R104) -/

section
variable {s t : State}

/-! ### The start slot -/

/-- Entry `i` has fired at S(y), and the fallback of its line starts where its clause is the one displayed (R104). -/
def State.slotOpened (s : State) (i : Nat) : State :=
  { s.fire i with fbStarted := s.fbStarted ++ if s.displayed (s.actsFor i).2 = some (s.entry i).arg
      then [((s.actsFor i).1, (s.actsFor i).2, (s.fire i).now)] else [] }

theorem startOn_eq (f y cl ph : Nat) (owed : List (Nat × List Owed)) (s : State) (l : Nat) :
    startOn f y cl ph owed s l = if !s.active (s.phys l) then s
      else if s.stoppedCore (s.phys l) then s.settle (s.phys l) (((owed.find? fun o => o.1 == s.phys l).map (·.2)).getD [])
      else s.startLine (s.phys l) cl f y ph (((owed.find? fun o => o.1 == s.phys l).map (·.2)).getD []) := by
  unfold startOn
  cases s.active (s.phys l) <;> rfl

/-- A slot that is due opens and is offered to every logical core in turn (R60). -/
theorem State.startSlot_eq {i : Nat} (owed : List (Nat × List Owed)) (h : s.due i 1 = true) :
    s.startSlot i owed = (s.slotOpened i).each s.nCores
      (startOn (s.actsFor i).1 (s.actsFor i).2 (s.entry i).arg (s.entry i).phase owed) := by
  have hfb : (s.fire i).fbStarted = s.fbStarted := State.fire_frame.keeps .fbStarted
  have hn : (s.slotOpened i).nCores = s.nCores := congrArg (fun k => if k = 0 then 64 else if k = 1 then 32 else 0)
    (State.fire_frame.keeps .pstate : (s.fire i).pstate = s.pstate)
  have hopen : (if s.displayed (s.actsFor i).2 = some (s.entry i).arg
      then { s.fire i with fbStarted := (s.fire i).fbStarted ++ [((s.actsFor i).1, (s.actsFor i).2, (s.fire i).now)] }
      else s.fire i : State) = s.slotOpened i := by
    unfold State.slotOpened
    rw [← hfb]
    split
    · rfl
    · rw [List.append_nil]
  unfold State.startSlot
  rw [if_neg (by simp [h])]
  dsimp only
  rw [hopen, hn]
  exact congrArg _ (funext fun x => funext fun l => (startOn_eq _ _ _ _ owed x l).symm)

theorem startOn_frame (f y cl ph : Nat) (owed : List (Nat × List Owed)) (s : State) (l : Nat) :
    SameBut (startOn f y cl ph owed s l) s [.regs, .cores, .bands, .signals] := by
  unfold startOn
  exact .ite (.refl _ _) (.ite State.settle_frame State.startLine_frame)

/-- What a start slot does (R60). -/
theorem State.startSlot_spec {i : Nat} (owed : List (Nat × List Owed)) (h : s.due i 1 = true) (ht : t = s.startSlot i owed) :
    Fired s t i ∧ t.fbStarted = s.fbStarted ++ (if s.displayed (s.actsFor i).2 = some (s.entry i).arg
        then [((s.actsFor i).1, (s.actsFor i).2, t.now)] else []) ∧
      t.cores = (({ s.fire i with fbStarted := t.fbStarted } : State).each s.nCores
        (startOn (s.actsFor i).1 (s.actsFor i).2 (s.entry i).arg (s.entry i).phase owed)).cores := by
  have hframe : SameBut t (s.slotOpened i) [.regs, .cores, .bands, .signals] := by
    rw [ht, State.startSlot_eq owed h]
    exact SameBut.each (SameBut.refl _ _) fun y l => startOn_frame _ _ _ _ owed y l
  have hnow : t.now = (s.fire i).now := hframe.keeps .now
  have hfb : t.fbStarted = (s.slotOpened i).fbStarted := hframe.keeps .fbStarted
  have hopen : ({ s.fire i with fbStarted := t.fbStarted } : State) = s.slotOpened i := by
    rw [hfb]
    rfl
  refine ⟨Fired.of (State.fire_fired s i) (hframe.keeps .cal) hnow, ?_, ?_⟩
  · rw [hfb, hnow]
    rfl
  · rw [hopen, ht, State.startSlot_eq owed h]

/-- A line given to threads joins no line in flight. -/
theorem State.giveLine_lines {p cl y : Nat} : CoresShow CoreSt.lines (s.giveLine p cl y) s := by
  unfold State.giveLine
  extract_lets thr s1
  have h1 : CoresShow CoreSt.lines s1 s := .trans (.of_frame State.setF_frame) (.onCore fun _ => rfl)
  exact .ite (.trans (.onCore fun _ => rfl) h1) h1

theorem State.restartAt_lines {p cl f y : Nat} : CoresShow CoreSt.lines (s.restartAt p cl f y) s := by
  unfold State.restartAt
  exact .ite (.trans (.onCore fun _ => rfl) (.of_frame State.incF_frame)) (.refl _ _)

/-- On a core on which its clause is not waiting to restart, undrained, the line is in flight (R62). -/
theorem State.startLine_lines {p cl f y ph : Nat} (owed : List Owed)
    (h : ((s.core p).reentry.any fun r => r.clause == cl && r.waiting && !r.drained) = false) :
    ((s.startLine p cl f y ph owed).core p).lines = (s.core p).lines ++
      [{ clause := cl, frame := f, y := y, sAt := s.now, sPhase := 4096 * s.cal.line + ph, sFrame := s.cal.frame }] := by
  unfold State.startLine
  rw [if_neg (by rw [h]; exact Bool.false_ne_true)]
  extract_lets s1
  have h1 : (s1.core p).lines = (s.core p).lines ++
      [{ clause := cl, frame := f, y := y, sAt := s.now, sPhase := 4096 * s.cal.line + ph, sFrame := s.cal.frame }] := by
    rw [State.core_onCore_self]
    exact congrArg (· ++ _) (State.restartAt_lines p)
  clear_value s1
  split
  · exact (State.giveLine_lines p).trans h1
  · exact h1

/-! ### The fallback scaler -/

/-- A fallback segment whose rows are present completes 600 cycles after the last of its conditions (R104). -/
theorem State.fbComplete_spec {f y l t0 : Nat} (e : EccIn) (hl : l < s.nCores)
    (hstart : (s.fbStarted.find? fun x => x.1 == f && x.2.1 == y) = some (f, y, t0))
    (hplace : (s.bprn (l / 8) s.sched.rt.warpPrn).place = 2)
    (hrows : ((s.fbRows f (s.bprn (l / 8) s.sched.rt.warpPrn) y).all fun k =>
      s.lsPresent (l / 8) (s.bprn (l / 8) s.sched.rt.warpPrn) k) = true)
    (hnew : (s.fbSegs.any fun x => x.frame == f && x.y == y && x.seg == l) = false) (ht : t = s.fbComplete f y l e) :
    ∃ d, d = (s.fbRows f (s.bprn (l / 8) s.sched.rt.warpPrn) y).foldl
        (fun m k => max m (s.slot (l / 8) ((s.bprn (l / 8) s.sched.rt.warpPrn).slotAddr k)).at_) t0 + 600 ∧
      t.now = max s.now d ∧
      t.fbSegs = s.fbSegs ++ [⟨f, y, l, d, s.fbPixels f y l
        ((s.fbWords f y l).filter fun w => e.ue.contains w || SMap.get 0 (s.band (l / 8)).bad w != 0)⟩] := by
  refine ⟨_, rfl, ?_⟩
  subst ht
  unfold State.fbComplete
  rw [hstart]
  dsimp -zeta only
  extract_lets b r rows d words bad px s0 s1 s2
  rw [if_neg (by simp only [not_or]; exact ⟨Nat.not_le.mpr hl, not_not.mpr hplace, by rw [hrows]; decide, by rw [hnew]; decide⟩)]
  have h0 : SameBut s0 (s.waitUntil d) [.regs, .bands] := State.lsRead_frame
  have hnow0 : s0.now = max s.now d := (h0.keeps .now).trans (State.waitUntil_now s d)
  have hseg0 : s0.fbSegs = s.fbSegs := (h0.keeps .fbSegs).trans (State.waitUntil_frame.keeps .fbSegs)
  clear_value s0
  have hnow1 : s1.now = max s.now d := by
    show (if bad = [] then s0 else _ : State).now = _
    split <;> exact hnow0
  have hseg1 : s1.fbSegs = s.fbSegs := by
    show (if bad = [] then s0 else _ : State).fbSegs = _
    split <;> exact hseg0
  clear_value s1
  have hnow2 : s2.now = max s.now d := hnow1
  have hseg2 : s2.fbSegs = s.fbSegs ++ [⟨f, y, l, d, px⟩] := congrArg (· ++ _) hseg1
  clear_value s2
  split
  · have hc : SameBut (s2.fbClear f y b) s2 [.bands] := State.fbClear_frame
    exact ⟨(hc.keeps .now).trans hnow2, (hc.keeps .fbSegs).trans hseg2⟩
  · exact ⟨hnow2, hseg2⟩

/-! ### The deadline -/

/-- The first complete source of a segment, by its number (R63). -/
theorem State.segSource_fst (s : State) (cl f y l : Nat) : (s.segSource cl f y l).1 =
    if s.active (s.phys l) = true ∧ s.barred (s.phys l) f y = [] ∧
      ((s.core (s.phys l)).seg.any fun r => r.clause == cl && r.frame == f && r.y == y) = true then 1
    else if (s.fbAt f y l).isSome = true then 2 else 3 := by
  rw [← List.isSome_find?]
  have hlow (h : ¬ (s.active (s.phys l) = true ∧ s.barred (s.phys l) f y = [] ∧
      ((s.core (s.phys l)).seg.find? fun r => r.clause == cl && r.frame == f && r.y == y).isSome = true)) :
      (match s.fbAt f y l with
        | some px => (2, px)
        | none => match (if y = 0 then none else s.sel.find? fun x => x.frame == f && x.y + 1 == y) with
          | some x => (3, (x.px.drop (s.segment f l).1).take (s.segment f l).2)
          | none => (3, List.replicate (s.segment f l).2 s.black) : Nat × List Pix).1 =
      if s.active (s.phys l) = true ∧ s.barred (s.phys l) f y = [] ∧
        ((s.core (s.phys l)).seg.find? fun r => r.clause == cl && r.frame == f && r.y == y).isSome = true then 1
      else if (s.fbAt f y l).isSome = true then 2 else 3 := by
    rw [if_neg h]
    cases s.fbAt f y l with
    | some px => rfl
    | none => cases (if y = 0 then none else s.sel.find? fun x => x.frame == f && x.y + 1 == y) <;> rfl
  unfold State.segSource
  dsimp only
  by_cases hb : s.active (s.phys l) = true ∧ s.barred (s.phys l) f y = []
  · rw [if_pos hb]
    cases hn : (s.core (s.phys l)).seg.find? fun r => r.clause == cl && r.frame == f && r.y == y with
    | some r => exact (if_pos (⟨hb.1, hb.2, rfl⟩ : _ ∧ _ ∧ _)).symm
    | none =>
      rw [hn] at hlow
      exact hlow fun h => Bool.false_ne_true h.2.2
  · rw [if_neg hb]
    exact hlow fun h => hb ⟨h.1, h.2.1⟩

/-- The composer's lines are cut to four, and no other line is lost (log entry 86). -/
theorem keptLines_spec (l : List SelLine) : (∀ x ∈ l.filter (fun x => !x.composed) ++ (l.filter (·.composed)).take 4, x ∈ l) ∧
    (∀ x ∈ l, x.composed = false → x ∈ l.filter (fun x => !x.composed) ++ (l.filter (·.composed)).take 4) ∧
    ((l.filter (fun x => !x.composed) ++ (l.filter (·.composed)).take 4).filter (·.composed)).length ≤ 4 := by
  refine ⟨fun x hx => ?_, fun x hx hc => List.mem_append_left _ (List.mem_filter.mpr ⟨hx, by rw [hc]; rfl⟩), ?_⟩
  · rcases List.mem_append.mp hx with h | h
    · exact (List.mem_filter.mp h).1
    · exact (List.mem_filter.mp (List.mem_of_mem_take h)).1
  · have hnone : (l.filter fun x => !x.composed).filter (·.composed) = [] := by
      rw [List.filter_eq_nil_iff]
      intro x hx
      have hc := (List.mem_filter.mp hx).2
      simpa using hc
    rw [List.filter_append, hnone, List.nil_append]
    exact le_trans (List.length_filter_le _ _) (List.length_take_le _ _)

/-- The counts of fallback segments, of the output frame or of the next, are parts of their own. -/
theorem State.fbCount_frame (c : Prop) [Decidable c] (x : State) {a b : Nat} :
    SameBut (if c then { x with fbNow := a } else { x with fbNext := b } : State) x [.fbNow, .fbNext] := by
  have h1 : SameBut ({ x with fbNow := a } : State) x [.fbNow, .fbNext] := fun p hp => by
    cases p <;> first | with_reducible rfl | exact absurd (by decide) hp
  have h2 : SameBut ({ x with fbNext := b } : State) x [.fbNow, .fbNext] := fun p hp => by
    cases p <;> first | with_reducible rfl | exact absurd (by decide) hp
  exact .ite h1 h2

/-- What the selector does at a deadline (R63). -/
theorem State.lineDeadline_spec {i : Nat} (owed : List (Nat × List Owed)) (h : s.due i 2 = true) (ht : t = s.lineDeadline i owed) :
    Fired s t i ∧ ∃ l rest, t.sel = l :: rest ∧ l.frame = (s.actsFor i).1 ∧ l.y = (s.actsFor i).2 ∧ l.at_ = t.now ∧
      l.src = (List.range (s.fire i).nCores).map (fun k => ((s.fire i).segSource (s.entry i).arg l.frame l.y k).1) ∧
      (∀ x ∈ rest, x ∈ s.sel) ∧ (∀ x ∈ s.sel, x.composed = false → x ∈ rest) ∧ (rest.filter (·.composed)).length ≤ 4 ∧
      (∀ x ∈ t.fbSegs, ¬ (x.frame = l.frame ∧ x.y = l.y)) ∧ (∀ x ∈ t.fbStarted, ¬ (x.1 = l.frame ∧ x.2.1 = l.y)) := by
  subst ht
  unfold State.lineDeadline
  rw [if_neg (by simp [h])]
  extract_lets a f y s1 cl n srcs src hs px s2 n2 n3 rt assigned r3 r4 s3 s4
  have h2 : SameBut s2 s1 [.regs, .cores, .bands, .signals] := SameBut.foldl (SameBut.refl _ _) fun _ _ => State.judgeCore_frame
  have h2' : SameBut s2 s1 [.regs, .cores, .bands, .signals, .fbNow, .fbNext, .tds] := h2.mono (by decide)
  clear_value s2
  have hr3 : SameBut r3 s1 [.regs, .cores, .bands, .signals, .fbNow, .fbNext, .tds] :=
    .call State.incF_frame (by decide) (.call State.incF_frame (by decide) h2')
  clear_value r3
  have hr4 : SameBut r4 s1 [.regs, .cores, .bands, .signals, .fbNow, .fbNext, .tds] :=
    .call (State.fbCount_frame (f = s.cal.frame) r3) (by decide) hr3
  clear_value r4
  have h3 : SameBut s3 s1 [.regs, .cores, .bands, .signals, .fbNow, .fbNext, .tds] :=
    SameBut.ite (c := rt = true) (.ite (.call State.tdAdd_frame (by decide) hr4) hr4) h2'
  clear_value s3
  have h4 : SameBut s4 s1 [.regs, .cores, .bands, .signals, .fbNow, .fbNext, .tds] :=
    SameBut.each h3 fun _ _ => State.fbClear_frame.mono (by decide)
  clear_value s4
  have hsel : s4.sel = s.sel := (h4.keeps .sel).trans (State.fire_frame.keeps .sel)
  have hsrcs : srcs.map (·.1) = (List.range n).map fun k => (s1.segSource cl f y k).1 := List.map_map
  obtain ⟨hfrom, hkept, hfour⟩ := keptLines_spec s.sel
  refine ⟨Fired.of (State.fire_fired s i) (h4.keeps .cal) (h4.keeps .now), _, _, rfl, rfl, rfl, (h4.keeps .now).symm, hsrcs, ?_⟩
  rw [hsel]
  refine ⟨hfrom, hkept, hfour, fun x hx => ?_, fun x hx => ?_⟩
  · have hout := (List.mem_filter.mp hx).2
    rintro ⟨hf, hy⟩
    simp [hf, hy] at hout
  · have hout := (List.mem_filter.mp hx).2
    rintro ⟨hf, hy⟩
    simp [hf, hy] at hout

end

end Sys2Proof.Machine

namespace Sys2Proof
set_option Elab.async false
open Sys2Proof.Machine

/-- Settles O9, a start slot, a line that starts on a core, a fallback segment, a deadline and a segment's source each by its own lemma. -/
theorem linesAreStartedAndReleased : Obligations.LinesAreStartedAndReleased := by
  unfold Obligations.LinesAreStartedAndReleased
  refine ⟨fun s i owed ho hd => ?_, fun s p cl f y ph owed h => State.startLine_lines owed h,
    fun s f y l t0 e b hl hn hstart hplace hrows hnew => ?_, fun s i owed ho hd => ?_, State.segSource_fst⟩
  · exact .of_result (t := s.startSlot i owed) rfl ho (State.startSlot_spec owed hd rfl) fun _ _ h => h
  · exact .of_result (t := s.fbComplete f y l e) rfl hl (State.fbComplete_spec e hn hstart hplace hrows hnew rfl) fun _ _ h => h
  · exact .of_result (t := s.lineDeadline i owed) rfl ho (State.lineDeadline_spec owed hd rfl) fun _ _ h => h

end Sys2Proof


namespace Sys2Proof.Machine
set_option Elab.async false

/-! ## Array steps (R141, R142, R160, R165) -/

section
variable {s u x : State} {p t l : Nat} {o : StepOp} {w : CoreIn} {d : LayerDesc} {m : MapRec} {k : StepCtx}

/-! ### The step that issues -/

/-- A step that may issue reads its row: without a fault it computes, and with faults it records them (R141, R165). -/
theorem State.issueStep_issued {f : State × List Nat × List Nat × Option (Nat × Nat × Nat)} (h : stepIssues s p t l o w d m)
    (hu : u = stepState s p t l o) (hk : k = u.stepCtx p t l o) (hf : f = u.stepChecks p k o w) :
    s.issueStep p t o w =
      if f.2.1 = [] then
        let b := (f.1.onCore p fun c => setRun c t o.layer
            (o.oy, (stepIndex (stepCounts d m ((s.awaitUnit p t .array).runExtent p d m).2.toNat) o).getD 0)).stepBody p t k o
          (f.1.readRow k.row p k.y k.x k.g).1 (f.1.readRow k.row p k.y k.x k.g).2
          (f.1.tileEscList p d m k.cb k.set.a k.set.t k.bank (stepEntry d m k.cb.big o.co o.ty o.tx o.ci)) w
        if b.2 then b.1.coreFault p t d.layer o.line [6] w.owed else b.1
      else ((f.2.2.1.foldl (fun s x => s.parityError p x) f.1).noteConflict p f.2.2.2 o.beside).coreFault p t d.layer o.line f.2.1
        w.owed := by
  obtain ⟨hl, hd, hm, heng, hfirst, hmay, hgrant, hslot, hnext, hin⟩ := h
  have hsched : (s.awaitUnit p t .array).sched = s.sched := State.awaitUnit_frame.keeps .sched
  unfold State.issueStep
  rw [hl]
  dsimp only
  rw [if_neg (by rw [hmay]; decide), if_neg (by rw [hgrant]; decide), hsched, ← hd, ← hm, hslot]
  dsimp only
  rw [hfirst, if_neg Bool.false_ne_true]
  dsimp only
  rw [if_neg Bool.false_ne_true, if_neg (by simp only [not_or]; exact ⟨not_not.mpr heng, by rw [hnext]; decide, by omega⟩)]
  have hu' : (((s.awaitUnit p t .array).rotate p t).runOn p t o.line).fixBank p t o.line d.adapt = u := by
    rw [hu, hd]
    rfl
  rw [hu', ← hk, ← hf]

/-- A step whose thread is not granted waits a cycle (R160). -/
theorem State.issueStep_refused (hl : s.logical p = some l) (hmay : s.mayIssue p t o.line = true)
    (hgrant : s.grantsThread p t w.rivals = false) : s.issueStep p t o w = s.refused1 p t := by
  unfold State.issueStep
  rw [hl]
  dsimp only
  rw [if_neg (by rw [hmay]; decide), if_pos (by rw [hgrant]; rfl)]

/-- A refused step counts as waiting, and does nothing else (R160). -/
theorem State.refusedStep_spec (hl : s.logical p = some l) (hmay : s.mayIssue p t o.line = true)
    (hgrant : s.grantsThread p t w.rivals = false) (hx : x = State.stepParity s (s.issueStep p t o w) p) :
    (x.core p).utilWait = (s.core p).utilWait + 1 ∧ SameBut x s [.regs, .cores] ∧
      SameFields x s (Among [F.CORE_THREAD_STATE p]) ∧ ∀ q, q ≠ p → x.core q = s.core q := by
  obtain ⟨hfields, hwait⟩ := State.refused1_spec (s := s) (p := p) (k := t)
  have hhard : (s.refused1 p t).getF (F.CORE_WFILE_WF_HARD p) = s.getF (F.CORE_WFILE_WF_HARD p) := by
    refine hfields _ ?_
    simp only [Among, Fld.key, F.CORE_WFILE_WF_HARD, F.CORE_THREAD_STATE, List.map_cons, List.map_nil, List.mem_singleton]
    omega
  have hx' : x = s.refused1 p t := by
    rw [hx, State.issueStep_refused hl hmay hgrant]
    exact if_pos hhard.le
  have hframe : SameBut (s.refused1 p t) s [.regs, .cores] := State.refused1_frame
  have hcores : (s.refused1 p t).cores = (s.onCore p fun c => { c with utilWait := c.utilWait + 1 }).cores :=
    State.setThreadState_frame.keeps .cores
  rw [hx']
  refine ⟨hwait, hframe, hfields, fun q hq => ?_⟩
  exact ((CoresShow.of_cores hcores : CoresShow id _ _) q).trans (State.core_onCore_ne _ _ hq)

/-! ### What a step computes (R142) -/

/-- No core but `p` differs in `x` from what it is in `s`. -/
def OnlyCore (p : Nat) (x s : State) : Prop := ∀ q, q ≠ p → x.core q = s.core q

theorem OnlyCore.trans (h1 : OnlyCore p x u) (h2 : OnlyCore p u s) : OnlyCore p x s := fun q hq => (h1 q hq).trans (h2 q hq)

theorem OnlyCore.onCore {f : CoreSt → CoreSt} : OnlyCore p (s.onCore p f) s := fun _ hq => State.core_onCore_ne _ _ hq

theorem OnlyCore.of_frame {ps : List Part} (h : SameBut x s ps) (hp : .cores ∉ ps := by decide) : OnlyCore p x s :=
  fun q _ => (CoresShow.of_frame h hp : CoresShow id _ _) q

/-- A step that is not the last of its accumulation adds its tile's products to its own thread's accumulators (R142). -/
theorem State.stepBody_adds {row : QRow} {z : Bool} {esc : List EscEntry} (hlast : stepLast k.d k.m o.ty o.tx o.ci = false) :
    (s.stepBody p t k o row z esc w).2 = false ∧
    SMap.get [] ((s.stepBody p t k o row z esc w).1.core p).acc t =
      (stepCompute (s.core p) k.cb k.d.q k.m k.entry (min 64 (k.d.outCh - 64 * o.co))
        (stepValues (SMap.get default (s.core p).cbs k.d.inCb) k.m o.co row).1 esc (SMap.get [] (s.core p).acc t)
        (SMap.get [] (s.core p).corr t)).1 ∧
    (∀ j, j ≠ t → SMap.get [] ((s.stepBody p t k o row z esc w).1.core p).acc j = SMap.get [] (s.core p).acc j) ∧
    OnlyCore p (s.stepBody p t k o row z esc w).1 s ∧ SameBut (s.stepBody p t k o row z esc w).1 s [.regs, .cores] := by
  generalize hb : s.stepBody p t k o row z esc w = b
  unfold State.stepBody at hb
  extract_lets c n keep vs r cyc lat s1 s2 sums s3 out q lineEnds at hb
  rw [if_neg (by rw [hlast]; exact Bool.false_ne_true)] at hb
  have h1 : SameBut s1 s [.regs] := State.incF_frame.trans (.ite State.countArith_frame (.refl _ _))
  have hacc1 : CoresShow CoreSt.acc s1 s := .of_frame h1
  have honly1 : OnlyCore p s1 s := .of_frame h1
  clear_value s1
  have hacc : CoresShow CoreSt.acc s2 s := .trans (.onCore fun _ => rfl) (.trans (.onCore fun _ => rfl) (.trans (.onCore fun _ => rfl) hacc1))
  have honly : OnlyCore p s2 s := .trans .onCore (.trans .onCore (.trans .onCore honly1))
  have hframe : SameBut s2 s [.regs, .cores] := State.onCore_frame.mono (by decide) |>.trans
    ((State.inPipe_frame.mono (by decide)).trans ((State.occupy_frame.mono (by decide)).trans (h1.mono (by decide))))
  clear_value s2
  subst hb
  refine ⟨rfl, ?_, fun j hj => ?_, .trans .onCore honly, (State.onCore_frame.mono (by decide)).trans hframe⟩
  · rw [State.core_onCore_self]
    exact SMap.get_set_self [] (s2.core p).acc t r.1
  · rw [State.core_onCore_self]
    exact (SMap.get_set_ne [] [] (s2.core p).acc r.1 hj).trans (congrArg (SMap.get [] · j) (hacc p))

/-! ### What a fault records (R165, R168) -/

/-- The offsets of the registers that record no fault of a core. -/
def OffFault (o : Nat) : Prop := o % 32 ≠ 16 ∧ o % 32 ≠ 20

theorem fault_not_off {f : Fld} (h : f.addr = 0x1000010 + p * 0x20000 ∨ f.addr = 0x1000014 + p * 0x20000) (hlo : f.lo < 32) :
    ¬ AtOffset OffFault f := by
  refine not_atOffset (fun hoff => ?_) hlo
  obtain ⟨h16, h20⟩ := hoff
  omega

theorem State.stopEngine_offFault {e : Nat} : SameFields (s.stopEngine p e) s (AtOffset OffFault) := by
  have hstate : OffFault ((F.ENG_STATE_STATE (coreEng p e)).addr % 0x10000) := by
    simp only [OffFault, F.ENG_STATE_STATE, coreEng]
    omega
  have htiles : OffFault ((F.ENG_TILES_CONSUMED (coreEng p e)).addr % 0x10000) := by
    simp only [OffFault, F.ENG_TILES_CONSUMED, coreEng]
    omega
  unfold State.stopEngine
  extract_lets g a s1
  have h1 : SameFields s1 s (AtOffset OffFault) := SameFields.setAt hstate 2
  clear_value s1
  split
  · exact (SameFields.setAt htiles 16).trans ((SameFields.setAt hstate 0).trans ((SameFields.onCore _ _ _ _).trans h1))
  · exact (SameFields.setAt hstate 0).trans ((SameFields.onCore _ _ _ _).trans h1)

theorem State.setWait_offFault {j : Nat} {v : Wait} : SameFields (s.setWait p j v) s (AtOffset OffFault) := by
  refine State.setWait_among.mono fun f hf => ?_
  simp only [Among, List.map_cons, List.map_nil, List.mem_singleton] at hf
  refine AtOffset.of_key ?_ hf (by decide : (0 : Nat) < 32)
  simp only [OffFault, F.CORE_THREAD_STATE]
  omega

theorem State.abandon_offFault {cl cause : Nat} {g : Nat × Nat} : SameFields (s.abandon p cl cause g []) s (AtOffset OffFault) := by
  unfold State.abandon
  extract_lets v ts s1 s2
  have h2 : SameFields s2 s (AtOffset OffFault) :=
    (SameFields.foldl (SameFields.refl _ _) fun _ _ => State.setWait_offFault).trans (SameFields.onCore _ _ _ _)
  clear_value s2
  exact .ite h2 (.trans (SameFields.foldl (SameFields.refl _ _) fun _ _ => State.stopEngine_offFault) h2)

theorem State.recordCause_offFault {c : Nat} : SameFields (s.recordCause p c) s (AtOffset OffFault) :=
  SameFields.setAt (by simp only [OffFault, F.CORE_LINE_MISS_LAST_CAUSE]; omega) 24

/-- What the registers record of faults that meet in one cycle. -/
def State.faultNoted (s : State) (p t layer line c : Nat) (cs : List Nat) : State :=
  (s.setFs [(F.CORE_FAULT_CODE p, cs.foldl min c), (F.CORE_FAULT_THREAD p, t), (F.CORE_FAULT_LAYER p, layer),
    (F.CORE_FAULT_AT_LINE p, if s.isLineThread p t then line else s.cal.line), (F.CORE_FAULT_AT_FRAME p, s.cal.frame)]).incF
    (F.CORE_FAULT_COUNT p) (c :: cs).length

/-- Faults end lines or runs only after they are noted. -/
theorem State.coreFault_noted {layer line c : Nat} {cs : List Nat} :
    SameFields (s.coreFault p t layer line (c :: cs) []) (s.faultNoted p t layer line c cs) (AtOffset OffFault) := by
  unfold State.coreFault
  dsimp -zeta only
  extract_lets code isLine s1 clause cause
  show SameFields _ s1 _
  clear_value s1
  refine .ite ?_ (.ite ?_ (.ite (SameFields.of_frame State.failRun_frame) (.refl _ _)))
  · exact .trans State.recordCause_offFault (SameFields.foldl (SameFields.refl _ _) fun _ _ => State.stopEngine_offFault)
  · exact .trans State.recordCause_offFault State.abandon_offFault

/-- The lowest code with the thread, the layer and the output frame that runs, and each fault counted (R168). -/
theorem State.faultNoted_fields {layer line c : Nat} {cs : List Nat} (hx : x = s.faultNoted p t layer line c cs) :
    x.getF (F.CORE_FAULT_CODE p) = cs.foldl min c % 2 ^ 4 ∧ x.getF (F.CORE_FAULT_THREAD p) = t % 4 ∧
    x.getF (F.CORE_FAULT_LAYER p) = layer % 2 ^ 8 ∧
    x.getF (F.CORE_FAULT_COUNT p) = satAdd 16 (s.getF (F.CORE_FAULT_COUNT p)) (cs.length + 1) % 2 ^ 16 ∧
    x.getF (F.CORE_FAULT_AT_FRAME p) = s.cal.frame % 2 ^ 16 := by
  have hkeys : (F.CORE_FAULT_CODE p).key < (F.CORE_FAULT_THREAD p).key ∧ (F.CORE_FAULT_THREAD p).key < (F.CORE_FAULT_LAYER p).key ∧
      (F.CORE_FAULT_LAYER p).key < (F.CORE_FAULT_COUNT p).key ∧ (F.CORE_FAULT_COUNT p).key < (F.CORE_FAULT_AT_LINE p).key ∧
      (F.CORE_FAULT_AT_LINE p).key < (F.CORE_FAULT_AT_FRAME p).key := by
    simp only [Fld.key, F.CORE_FAULT_CODE, F.CORE_FAULT_THREAD, F.CORE_FAULT_LAYER, F.CORE_FAULT_COUNT, F.CORE_FAULT_AT_LINE,
      F.CORE_FAULT_AT_FRAME]
    omega
  obtain ⟨hcode, hthread, hlayer, hcount, hline⟩ := hkeys
  subst hx
  unfold State.faultNoted
  refine ⟨?_, ?_, ?_, ?_, ?_⟩
  · refine (State.getF_incF_ne _ _ (by omega)).trans (State.getF_setFs_at (f := F.CORE_FAULT_CODE p) (i := 0) rfl ?_)
    simp only [List.drop_succ_cons, List.drop_zero, List.forall_mem_cons, List.not_mem_nil, false_implies, implies_true, and_true]
    omega
  · refine (State.getF_incF_ne _ _ (by omega)).trans (State.getF_setFs_at (f := F.CORE_FAULT_THREAD p) (i := 1) rfl ?_)
    simp only [List.drop_succ_cons, List.drop_zero, List.forall_mem_cons, List.not_mem_nil, false_implies, implies_true, and_true]
    omega
  · refine (State.getF_incF_ne _ _ (by omega)).trans (State.getF_setFs_at (f := F.CORE_FAULT_LAYER p) (i := 2) rfl ?_)
    simp only [List.drop_succ_cons, List.drop_zero, List.forall_mem_cons, List.not_mem_nil, false_implies, implies_true, and_true]
    omega
  · refine (State.getF_incF_self _ _ _).trans ?_
    rw [State.getF_setFs_ne _ _ _ (by
      simp only [List.forall_mem_cons, List.not_mem_nil, false_implies, implies_true, and_true]
      omega)]
    exact (Nat.mod_eq_of_lt (satAdd_lt _ _ _)).symm
  · refine (State.getF_incF_ne _ _ (by omega)).trans (State.getF_setFs_at (f := F.CORE_FAULT_AT_FRAME p) (i := 4) rfl ?_)
    simp

theorem State.coreFault_spec {layer line c : Nat} {cs : List Nat} (hx : x = s.coreFault p t layer line (c :: cs) []) :
    x.getF (F.CORE_FAULT_CODE p) = cs.foldl min c % 2 ^ 4 ∧ x.getF (F.CORE_FAULT_THREAD p) = t % 4 ∧
    x.getF (F.CORE_FAULT_LAYER p) = layer % 2 ^ 8 ∧
    x.getF (F.CORE_FAULT_COUNT p) = satAdd 16 (s.getF (F.CORE_FAULT_COUNT p)) (cs.length + 1) % 2 ^ 16 ∧
    x.getF (F.CORE_FAULT_AT_FRAME p) = s.cal.frame % 2 ^ 16 := by
  have hkept : SameFields x (s.faultNoted p t layer line c cs) (AtOffset OffFault) := hx ▸ State.coreFault_noted
  have hnoted := State.faultNoted_fields (s := s) (p := p) (t := t) (layer := layer) (line := line) (c := c) (cs := cs) rfl
  generalize s.faultNoted p t layer line c cs = y at *
  rwa [← hkept _ (fault_not_off (f := F.CORE_FAULT_CODE p) (.inl rfl) (by decide : (0 : Nat) < 32)),
    ← hkept _ (fault_not_off (f := F.CORE_FAULT_THREAD p) (.inl rfl) (by decide : (4 : Nat) < 32)),
    ← hkept _ (fault_not_off (f := F.CORE_FAULT_LAYER p) (.inl rfl) (by decide : (6 : Nat) < 32)),
    ← hkept _ (fault_not_off (f := F.CORE_FAULT_COUNT p) (.inl rfl) (by decide : (16 : Nat) < 32)),
    ← hkept _ (fault_not_off (f := F.CORE_FAULT_AT_FRAME p) (.inr rfl) (by decide : (16 : Nat) < 32))] at hnoted

end

end Sys2Proof.Machine

namespace Sys2Proof
set_option Elab.async false
open Sys2Proof.Machine

/-- Settles O17, the step that issues by its one equation (`issueStep_issued`), and what it computes or records by lemmas of their own. -/
theorem stepsAccumulateOrFault : Obligations.StepsAccumulateOrFault := by
  unfold Obligations.StepsAccumulateOrFault
  have hok {p t : Nat} {o : StepOp} {w : CoreIn} (hp : isCore p = true) (ht : isThread t = true) (ho : o.ok = true)
      (hw : coreInOk w = true) : Instr.wf (.issueStep p t o w) = true := by
    simp [Instr.wf, hp, ht, ho, hw]
  have hend {s : State} {p t : Nat} {o : StepOp} {w : CoreIn} (v : Nat × Nat) :
      SameBut { State.stepParity s (s.issueStep p t o w) p with pending := s.pending, stat := v }
        (State.stepParity s (s.issueStep p t o w) p) [] :=
    .ended_self ((State.stepParity_frame.keeps .pending).trans (State.issueStep_frame.keeps .pending)) [] v
  refine ⟨fun s u p t l o w d m k f b hp ht ho hw hi hu hk hf hnone hb hgood => ?_,
    fun s p t k o row z esc w hlast => State.stepBody_adds hlast,
    fun s p t l o w hp ht ho hw hl hmay hgrant => ?_, fun s u p t l c cs o w d m k f hp ht ho hw hi hu hk hf hsome => ?_,
    fun s p t layer line c cs _ => State.coreFault_spec rfl⟩
  · have hstep : s.issueStep p t o w = b.1 := by
      rw [State.issueStep_issued hi hu hk hf, if_pos hnone]
      dsimp only
      rw [← hb, if_neg (by rw [hgood]; exact Bool.false_ne_true)]
    exact .of_act (t := State.stepParity s (s.issueStep p t o w) p) rfl (hok hp ht ho hw) fun v => hstep ▸ hend v
  · exact .of_result (t := State.stepParity s (s.issueStep p t o w) p) rfl (hok hp ht ho hw)
      (State.refusedStep_spec hl hmay hgrant rfl) fun y v ⟨hwait, hframe, hfields, hother⟩ => ⟨hwait, hframe.ended v, hfields, hother⟩
  · have hstep := State.issueStep_issued hi hu hk hf
    rw [if_neg (by rw [hsome]; exact List.cons_ne_nil _ _), hsome] at hstep
    exact .of_act (t := State.stepParity s (s.issueStep p t o w) p) rfl (hok hp ht ho hw) fun v => hstep ▸ hend v

end Sys2Proof


namespace Sys2Proof.Machine
set_option Elab.async false

/-! ## The Prefix and Suffix engines and the output buffer (R154, R155, R158, R188) -/

section
variable {β : Type} {s t u v x : State} {p k l layer line oy : Nat} {w : CoreIn} {d : LayerDesc} {m : MapRec} {ext : Int × Int}

/-! ### Layers -/

/-- A Prefix layer that issues, meets no fault and reads correct rows hands its line on (R154). -/
theorem State.prefixLayer_computes {start : Bool} {q r : State × Bool} (h : layerIssues s p k l layer line w d m) (he : d.engine = 1)
    (hv : v = s.awaitUnit p k .prefixEng) (hslot : v.outBlocked p d ((outLineOf d m oy).getD 0) (outLineOf d m oy).isSome = none)
    (hstart : runLineStart (s.isLineThread p k) (runAt (v.core p) k layer) oy = some start)
    (hq : q = if start then v.dynStart p d m w.owed else (v, false)) (hq2 : q.2 = false) (hext : ext = q.1.runExtent p d m)
    (hu : u = (q.1.rotate p k).runOn p k line) (hcodes : (u.engineChecks p d m oy w).1 = []) (hin : (oy : Int) < ext.1)
    (hr : r = (List.range (computedCols ext.2.toNat)).foldl (fun (a : State × Bool) ox =>
      if a.2 then a else a.1.prefixPos p d m ⟨1, u.engineLat p ox d m, w.ecc⟩ ext oy ox)
      (u.engineRun p k layer oy d m ext.2.toNat .prefixEng, false)) (hr2 : r.2 = false) :
    s.prefixLayer p k layer line oy w = (if s.isLineThread p k = true ∨ ((oy + 1 : Nat) : Int) = ext.1
      then r.1.emitAt p d m ⟨1, u.engineLat p (ext.2.toNat - 1) d m, w.ecc⟩ 0 0 .runEnd else r.1).endLine p k layer line d := by
  obtain ⟨hl, hd, hm, hmay, hgrant⟩ := h
  unfold State.prefixLayer
  rw [hl]
  dsimp only
  rw [← hd, ← hm, if_neg (by rw [hmay, he]; decide), if_neg (by rw [hgrant]; decide), ← hv, hslot, hstart]
  dsimp only
  rw [← hq, if_neg (by rw [hq2]; exact Bool.false_ne_true), ← hext, ← hu, if_neg (not_not.mpr hcodes), if_neg (by omega), ← hr,
    if_neg (by rw [hr2]; exact Bool.false_ne_true)]

/-- The rows that a Suffix layer leaves: one for each line of its pixel shuffle (R155, R156). -/
def suffixRows (pr : Program) (cl k ready frame oy sh : Nat) (comps : List (List Nat)) : List SegRow :=
  (List.range sh).map fun dy => ⟨cl, k, ready, frame, sh * oy + dy, shuffleLine pr sh dy comps⟩

theorem suffixRows_y {pr : Program} {cl ready frame sh : Nat} {comps : List (List Nat)} :
    (suffixRows pr cl k ready frame oy sh comps).map (·.y) = (List.range sh).map fun dy => sh * oy + dy := List.map_map

theorem suffixRows_px {pr : Program} {cl ready frame sh : Nat} {comps : List (List Nat)} :
    (suffixRows pr cl k ready frame oy sh comps).map (·.px) = (List.range sh).map fun dy => shuffleLine pr sh dy comps := List.map_map

/-- A Suffix layer that issues, meets no fault and reads correct rows leaves its rows (R155). -/
theorem State.suffixLayer_computes {q : State × Bool} {r : List (List Nat) × State × Bool}
    (h : layerIssues s p k l layer line w d m) (he : d.engine = 2)
    (hq : q = (s.awaitUnit p k .suffixEng).dynStart p d m w.owed) (hq2 : q.2 = false) (hext : ext = q.1.runExtent p d m)
    (hu : u = (q.1.rotate p k).runOn p k line) (hcodes : (u.engineChecks p d m oy w).1 = []) (hin : (oy : Int) < ext.1)
    (hr : r = (List.range (computedCols ext.2.toNat)).foldl (fun (a : List (List Nat) × State × Bool) ox =>
        if a.2.2 then a
        else (a.1 ++ [(a.2.1.suffixPos p d m ⟨2, 0, w.ecc⟩ ext oy ox).1], (a.2.1.suffixPos p d m ⟨2, 0, w.ecc⟩ ext oy ox).2))
      ([], u.engineRun p k layer oy d m ext.2.toNat .suffixEng, false)) (hr2 : r.2.2 = false) :
    ∃ cl ready frame, s.suffixLayer p k layer line oy w = r.2.1.onCore p fun c =>
      { c with sufRows := c.sufRows ++ suffixRows s.prog cl k ready frame oy d.s (r.1.take ext.2.toNat) } := by
  obtain ⟨hl, hd, hm, hmay, hgrant⟩ := h
  refine ⟨(s.threadClause p k).getD 0, max r.2.1.now (r.2.1.core p).stallEnd + u.engineLat p (ext.2.toNat - 1) d m,
    u.lineFrame p k line, ?_⟩
  unfold State.suffixLayer
  rw [hl]
  dsimp only
  rw [← hd, ← hm, if_neg (by rw [hmay, he]; decide), if_neg (by rw [hgrant]; decide), ← hq,
    if_neg (by rw [hq2]; exact Bool.false_ne_true), ← hext, ← hu, if_neg (not_not.mpr hcodes), if_neg (by omega), ← hr,
    if_neg (by rw [hr2]; exact Bool.false_ne_true)]
  rfl

/-- The end state of that layer. -/
theorem State.suffixLayer_rows {q : State × Bool} {r : List (List Nat) × State × Bool}
    (h : layerIssues s p k l layer line w d m) (he : d.engine = 2)
    (hq : q = (s.awaitUnit p k .suffixEng).dynStart p d m w.owed) (hq2 : q.2 = false) (hext : ext = q.1.runExtent p d m)
    (hu : u = (q.1.rotate p k).runOn p k line) (hcodes : (u.engineChecks p d m oy w).1 = []) (hin : (oy : Int) < ext.1)
    (hr : r = (List.range (computedCols ext.2.toNat)).foldl (fun (a : List (List Nat) × State × Bool) ox =>
        if a.2.2 then a
        else (a.1 ++ [(a.2.1.suffixPos p d m ⟨2, 0, w.ecc⟩ ext oy ox).1], (a.2.1.suffixPos p d m ⟨2, 0, w.ecc⟩ ext oy ox).2))
      ([], u.engineRun p k layer oy d m ext.2.toNat .suffixEng, false)) (hr2 : r.2.2 = false)
    (hx : x = s.suffixLayer p k layer line oy w) : ∃ rows, (x.core p).sufRows = (r.2.1.core p).sufRows ++ rows ∧
      rows.map (·.y) = (List.range d.s).map (fun dy => d.s * oy + dy) ∧
      rows.map (·.px) = (List.range d.s).map (fun dy => shuffleLine s.prog d.s dy (r.1.take ext.2.toNat)) := by
  obtain ⟨cl, ready, frame, hrows⟩ := State.suffixLayer_computes h he hq hq2 hext hu hcodes hin hr hr2
  rw [hx, hrows, State.core_onCore_self]
  exact ⟨_, rfl, suffixRows_y, suffixRows_px⟩

/-- A layer's input extent of no lines (R188): SKIPPED counts. -/
theorem State.dynStart_skipped (he : d.engine = 2) (hlh : (s.prn p d.inPrn).lh = 0) :
    s.dynStart p d m [] = (s.incF (F.CORE_MAP_CNT_SKIPPED p) 1, true) := by
  unfold State.dynStart State.outExtent
  dsimp only
  rw [if_pos (.inl hlh), if_pos he]
  rfl

/-- SKIPPED is no field that time or a thread's state changes. -/
theorem skipped_not_timed : ¬ WithTimeOr [F.CORE_THREAD_STATE p] (F.CORE_MAP_CNT_SKIPPED p) := by
  rintro (h | h)
  · refine not_withTime (by decide : (16 : Nat) < 32) ?_ h
    simp only [F.CORE_MAP_CNT_SKIPPED, timeOffsets, List.mem_cons, List.not_mem_nil, or_false]
    omega
  · simp only [Among, Fld.key, F.CORE_MAP_CNT_SKIPPED, F.CORE_THREAD_STATE, List.map_cons, List.map_nil, List.mem_singleton] at h
    omega

/-- A Suffix layer that reads an empty tensor is skipped (R188). -/
theorem State.suffixLayer_skipped (h : layerIssues s p k l layer line w d m) (he : d.engine = 2) (how : w.owed = [])
    (hlh : ((s.awaitUnit p k .suffixEng).prn p d.inPrn).lh = 0) (hx : x = s.suffixLayer p k layer line oy w) :
    x.getF (F.CORE_MAP_CNT_SKIPPED p) = satAdd 16 (s.getF (F.CORE_MAP_CNT_SKIPPED p)) 1 := by
  obtain ⟨hl, hd, hm, hmay, hgrant⟩ := h
  have hlayer : s.suffixLayer p k layer line oy w =
      ((s.awaitUnit p k .suffixEng).incF (F.CORE_MAP_CNT_SKIPPED p) 1).runOn p k line := by
    unfold State.suffixLayer
    rw [hl]
    dsimp only
    rw [← hd, ← hm, if_neg (by rw [hmay, he]; decide), if_neg (by rw [hgrant]; decide), how, State.dynStart_skipped he hlh]
    exact if_pos rfl
  rw [hx, hlayer]
  have hwait : SameFields (s.awaitUnit p k .suffixEng) s (WithTimeOr [F.CORE_THREAD_STATE p]) :=
    (SameFields.onCore _ _ _ _).trans (s.waitUntil_or _ _)
  generalize s.awaitUnit p k .suffixEng = y at *
  have hrun : SameFields ((y.incF (F.CORE_MAP_CNT_SKIPPED p) 1).runOn p k line) (y.incF (F.CORE_MAP_CNT_SKIPPED p) 1)
      (WithTimeOr [F.CORE_THREAD_STATE p]) :=
    (SameFields.of_frame State.beginLine_frame).trans ((State.setThreadState_fields List.mem_cons_self).trans
      (SameFields.of_frame State.onThread_frame))
  rw [hrun _ skipped_not_timed, State.getF_incF_self, hwait _ skipped_not_timed]
  rfl

/-! ### The output buffer -/

/-- A change of a thread's wait shows in the threads alone. -/
theorem State.setWait_cores {f : CoreSt → β} {wt : Wait} (h : ∀ c g, f { c with threads := g } = f c) :
    CoresShow f (s.setWait p k wt) s := by
  have hset : CoresShow f ((s.onThread p k fun h => { h with wait := wt }).setThreadState p k
      (if (s.onThread p k fun h => { h with wait := wt }).suspended p k then 3 else if wt = .none then 1 else 2)) s :=
    .trans (.of_frame State.setThreadState_frame) (.onCore fun _ => h _ _)
  exact .ite (.trans (.of_frame State.frameThreads_frame) hset) hset

/-- A line whose row is written is complete, and leaves the core once it is judged too (R158). -/
def rowEnds (r : SegRow) (ls : List LineFl) : List LineFl :=
  (ls.map fun l => if l.clause = r.clause ∧ l.y = r.y ∧ l.frame = r.frame ∧ l.begun then { l with complete := true } else l).filter
    fun l => !(l.complete && l.judged)

theorem rowEnds_complete {r : SegRow} {ls : List LineFl} : ∀ l ∈ rowEnds r ls,
    l.clause = r.clause → l.y = r.y → l.frame = r.frame → l.begun = true → l.complete = true := by
  intro l hl hc hy hf hb
  obtain ⟨e, -, rfl⟩ := List.mem_map.mp (List.mem_filter.mp hl).1
  by_cases hend : e.clause = r.clause ∧ e.y = r.y ∧ e.frame = r.frame ∧ e.begun = true
  · rw [if_pos hend]
  · rw [if_neg hend] at hc hy hf hb
    exact absurd ⟨hc, hy, hf, hb⟩ hend

variable {r : SegRow} {rs : List SegRow}

/-- A row for which the output buffer has a place (R158). -/
theorem State.suffixRow_written (h : (s.core p).sufRows = r :: rs) (hu : u = s.waitUntil r.ready) (hroom : (u.core p).seg.length < 8)
    (hx : x = s.suffixRow p) : x.now = max s.now r.ready ∧ (x.core p).sufRows = rs ∧
      (x.core p).seg = (if ((u.core p).lines.any fun l => l.clause == r.clause && l.y == r.y && l.frame == r.frame && l.judged) = true
        then (u.core p).seg else (u.core p).seg ++ [r]) ∧
      (∀ l ∈ (x.core p).lines, l.clause = r.clause → l.y = r.y → l.frame = r.frame → l.begun = true → l.complete = true) := by
  unfold State.suffixRow at hx
  rw [h] at hx
  dsimp -zeta only at hx
  rw [← hu] at hx
  extract_lets s0 wait late s1 at hx
  rw [if_neg (by show ¬ 8 ≤ (u.core p).seg.length; omega)] at hx
  have hnow1 : s1.now = max s.now r.ready :=
    ((State.onCore_frame.trans (State.onCore_frame.trans State.chargeWaiting_frame) : SameBut s1 u [.cores]).keeps .now).trans
      (hu ▸ State.waitUntil_now s r.ready)
  have hcore1 : ∃ c : CoreSt, s1.core p = { c with sufRows := rs, seg := if late then c.seg else c.seg ++ [r], lines := rowEnds r c.lines } ∧
      c.seg = (u.core p).seg := by
    refine ⟨(u.chargeWaiting p r.clause r.frame r.y).core p, ?_, ?_⟩
    · rw [State.core_onCore_self, State.core_onCore_self]
      rfl
    · rw [State.chargeWaiting, State.core_onCore_self]
  obtain ⟨c, hcore, hseg⟩ := hcore1
  clear_value s1 wait
  have hrest : x.now = s1.now ∧ CoresShow (fun c => (c.sufRows, c.seg, c.lines)) x s1 := by
    split at hx
    · exact hx ▸ ⟨State.setWait_frame.keeps .now, State.setWait_cores fun _ _ => rfl⟩
    · exact hx ▸ ⟨rfl, .refl _ _⟩
  obtain ⟨hnow, hshow⟩ := hrest
  have hp := hshow p
  rw [hcore] at hp
  simp only [Prod.mk.injEq] at hp
  obtain ⟨hrows, hsegs, hlines⟩ := hp
  refine ⟨hnow.trans hnow1, hrows, ?_, ?_⟩
  · rw [hsegs, hseg]
  · rw [hlines]
    exact rowEnds_complete

/-- A row for which the output buffer has none: its thread waits (R158). -/
theorem State.suffixRow_full (h : (s.core p).sufRows = r :: rs) (hu : u = s.waitUntil r.ready) (hfull : 8 ≤ (u.core p).seg.length)
    (hx : x = s.suffixRow p) : x.now = max s.now r.ready ∧ (x.core p).sufRows = (u.core p).sufRows ∧
      (x.core p).seg = (u.core p).seg ∧ SameFields x s (WithTimeOr [F.CORE_THREAD_STATE p]) ∧
      (r.thread < (u.core p).threads.length → ((u.core p).threads.getD r.thread {}).wait = .none →
        ((x.core p).threads.getD r.thread {}).wait = .suffix r.y) := by
  have hfields : SameFields x s (WithTimeOr [F.CORE_THREAD_STATE p]) := hx ▸ State.suffixRow_fields
  unfold State.suffixRow at hx
  rw [h] at hx
  dsimp -zeta only at hx
  rw [← hu] at hx
  extract_lets s0 wait late s1 at hx
  rw [if_pos hfull] at hx
  have hnow : u.now = max s.now r.ready := hu ▸ State.waitUntil_now s r.ready
  by_cases hw : wait = .none
  · rw [if_pos hw] at hx
    have hshow : CoresShow (fun c => (c.sufRows, c.seg)) x u := hx ▸ State.setWait_cores fun _ _ => rfl
    have hp := hshow p
    simp only [Prod.mk.injEq] at hp
    obtain ⟨hrows, hsegs⟩ := hp
    have hxnow : x.now = u.now := hx ▸ State.setWait_frame.keeps .now
    exact ⟨hxnow.trans hnow, hrows, hsegs, hfields, fun hlen _ => hx ▸ State.setWait_wait hlen⟩
  · rw [if_neg hw] at hx
    subst hx
    exact ⟨hnow, rfl, rfl, hfields, fun _ hno => absurd hno hw⟩

end

end Sys2Proof.Machine

namespace Sys2Proof
set_option Elab.async false
open Sys2Proof.Machine

/-- Settles O19, each layer and each case of the output buffer by its own lemma. -/
theorem enginesRunLayersIntoTheOutputBuffer : Obligations.EnginesRunLayersIntoTheOutputBuffer := by
  unfold Obligations.EnginesRunLayersIntoTheOutputBuffer
  have hok {p t layer line oy : Nat} {w : CoreIn} (hp : isCore p = true) (ht : isThread t = true) (hl : isLayer layer = true)
      (hw : coreInOk w = true) :
      Instr.wf (.prefixLayer p t layer line oy w) = true ∧ Instr.wf (.suffixLayer p t layer line oy w) = true := by
    simp [Instr.wf, hp, ht, hl, hw]
  refine ⟨fun s v u p t l layer line oy w d m start q r ext hp ht hl hw h he hv hslot hstart hq hq2 hext hu hcodes hin hr hr2 => ?_,
    fun s u p t l layer line oy w d m q r ext hp ht hl hw h he hq hq2 hext hu hcodes hin hr hr2 => ?_,
    fun s p t l layer line oy w d m hp ht hl hw h he how hlh => ?_, fun s u p r rs hp h hu hroom => ?_,
    fun s u p r rs hp h hu hfull => ?_⟩
  · have hlayer := State.prefixLayer_computes h he hv hslot hstart hq hq2 hext hu hcodes hin hr hr2
    exact .of_act (t := s.prefixLayer p t layer line oy w) rfl (hok hp ht hl hw).1 fun k =>
      hlayer ▸ SameBut.ended_self (State.prefixLayer_frame.keeps .pending) [] k
  · exact .of_result (t := s.suffixLayer p t layer line oy w) rfl (hok hp ht hl hw).2
      (State.suffixLayer_rows h he hq hq2 hext hu hcodes hin hr hr2 rfl) fun _ _ h => h
  · exact .of_result (t := s.suffixLayer p t layer line oy w) rfl (hok hp ht hl hw).2
      (State.suffixLayer_skipped h he how hlh rfl) fun _ _ h => h
  · exact .of_result (t := s.suffixRow p) rfl hp (State.suffixRow_written h hu hroom rfl) fun _ _ h => h
  · exact .of_result (t := s.suffixRow p) rfl hp (State.suffixRow_full h hu hfull rfl) fun _ _ h => h

end Sys2Proof
